-- ==== Sys2Proof/Word.lean ====
section
/-!
DEFINITION. The word types of the block and their plainest arithmetic: saturating counters, the range limits of
R5 and the identifier ranges of R7.
-/
namespace Sys2Proof

/-- A register word of the set-up window (00 R8). -/
abbrev Word := BitVec 32
/-- Rails 0–7 (R7). -/
abbrev RailId := Fin 8
/-- Phases 0–127 (R7). -/
abbrev PhaseId := Fin 128
/-- Clusters 0–31 (R7). -/
abbrev ClusterId := Fin 32
/-- Tenant contexts 0–511 (R7). -/
abbrev CtxId := Fin 512
/-- Sync objects 0–8,191 (R7). -/
abbrev ObjId := Fin 8192
/-- Domain clocks 0–39 (R7). -/
abbrev DomId := Fin 40
/-- Diode sites 0–511 (Table 1.2). -/
abbrev SiteId := Fin 512
/-- Droop detectors 0–1,023 (Table 1.2). -/
abbrev DetId := Fin 1024
/-- Ageing monitors 0–159 (Table 1.2). -/
abbrev MonId := Fin 160
/-- Host cores 0–127 (Table 1.6). -/
abbrev CoreId := Fin 128
/-- Engines 0–2,047 (Table 2.5). -/
abbrev EngId := Fin 2048

/-- The largest value of a `w`-bit unsigned field. -/
def umax (w : Nat) : Nat := 2 ^ w - 1

/-- R5: an unsigned quantity outside its field reports the nearest end of the range. -/
def satU (w n : Nat) : Nat := min n (umax w)

/-- A counter that saturates at the end of its `w`-bit field. -/
def satInc (w n : Nat) : Nat := satU w (n + 1)

/-- R5: a signed quantity outside its `w`-bit field reports the nearest end of the range. -/
def satS (w : Nat) (x : Int) : Int :=
  max (-(2 ^ (w - 1) : Int)) (min x (2 ^ (w - 1) - 1 : Int))

/-- A counter that wraps at `w` bits. -/
def wrapInc (w n : Nat) : Nat := (n + 1) % 2 ^ w

/-- A signed number as the `w`-bit field that carries it. -/
def encS (w : Nat) (x : Int) : Nat := (x % (2 ^ w : Int)).toNat

/-- The signed number that a `w`-bit field carries. -/
def decS (w n : Nat) : Int := if n % 2 ^ w < 2 ^ (w - 1) then (n % 2 ^ w : Int) else (n % 2 ^ w : Int) - 2 ^ w

/-- R492: division rounded to the nearest step, a tie away from zero. -/
def divRound (a : Int) (b : Nat) : Int :=
  if a < 0 then -(((-a).toNat * 2 + b) / (2 * b) : Nat) else ((a.toNat * 2 + b) / (2 * b) : Nat)

/-- R492 for unsigned quantities. -/
def divRoundN (a b : Nat) : Nat := (a * 2 + b) / (2 * b)

/-- Bits `[lo+w-1:lo]` of a number. -/
def bits (n lo w : Nat) : Nat := n / 2 ^ lo % 2 ^ w

/-- One bit of a number. -/
def bitOf (n i : Nat) : Bool := n / 2 ^ i % 2 = 1

/-- A Bool as a one-bit field. -/
def b2n (b : Bool) : Nat := if b then 1 else 0

end Sys2Proof
end

