-- ==== Sys2Proof/Config.lean ====
section
/-!
DEFINITION. The free values of the model: constants with no body that stand for what the spec leaves open. Nothing
can evaluate them, so a claim holds for every value of them. The assumption log names each one.
-/
namespace Sys2Proof

/-- A fresh undefined value at each draw; the state's counter `free` is the argument (log entry 4). -/
opaque Config.freeValue : Nat → Nat

/-- R352: the random incarnation a chip draws; the argument is the state's counter `free` (log entry 4). -/
opaque Config.randomWord : Nat → Nat

/-- SHA-384 of a byte string; the spec names the function and does not define it (log entry 5). -/
opaque Config.sha384 : List Nat → Nat

/-- An ECDSA P-384 signature (`sig`) of a byte string is valid under the key of the given hash (log entry 5). -/
opaque Config.sigValid : (key : Nat) → (msg sig : List Nat) → Bool

/-- R459: the Kolhidex JEP106 code, given in the integration data (log entry 1). -/
opaque Config.jep106 : Nat

/-- R430: the SPDM response that Vault gives to a request; DSP0274 and the device's certificate chain fix it, this spec
does not. The arguments are the state's counter `free`, the measurements of Table 16.9 and the request (log entry 6). -/
opaque Config.spdm : Nat → List (List Nat) → List Nat → List Nat

/-- SHA-384 of the Vault ROM, measurement 1 of Table 16.9 (log entry 6). -/
opaque Config.romDigest : Nat

/-- R63: the variant of the IO kit, 1 for 3.3 V pads; the integration fixes it and the spec gives no value
(log entry 1). -/
opaque Config.vio33 : Bool

end Sys2Proof
end

