-- ==== Sys2Proof/Syntax.lean ====
section
/-!
DEFINITION. The commands of the block, one constructor per row of the table of operations and events, and the operands
they carry. The table gives its rows no bits and no operands: each operand is what the spec's rule for the row names
as coming from outside the step (log entry 1).
-/
namespace Sys2Proof

/-- What an input pin does: it stays low for so many ns, or it is high again. -/
inductive PinEvent where
  | low (ns : Nat)
  | high
deriving DecidableEq, Repr

/-- What the board does at the block's inputs for input power and alerts: a level on `PFAIL_N` (R65), or the levels that
other devices give the pads of `ALERT_N`, `THROT_N` and `HOT_TRIP_N`, true when pulled low (R64). -/
inductive BoardPin where
  | pfail (pin : PinEvent)
  | alerts (alert throt hot : Bool)
deriving DecidableEq, Repr

/-- What the serial NOR device reports by SFDP (R61): 4-byte addressing, its erase types as size and opcode, and the number
of its quad-enable method (JESD216). -/
structure NvSfdp where
  addr4 : Bool := false
  erase : List (Nat × Nat) := [(4096, 0x20)]
  quad : Nat := 0
deriving DecidableEq, Repr

/-- What a cold reset finds at the block's pins: the levels of VAON, VANA and VIO in mV (R22, Table 2.17), whether serial NOR
answers, and its SFDP. -/
structure Boot where
  vaon : Nat := 750
  vana : Nat := 1800
  vio : Nat := 3300
  nvOk : Bool := true
  sfdp : NvSfdp := {}
deriving DecidableEq, Repr

/-- The data and the byte strobes of a write on the subordinate port (Table 2.2). -/
structure HsWrite where
  data : BitVec 32
  strb : Fin 16 := 15
deriving DecidableEq, Repr

/-- One message of a drift window while the reference is lost (R98): its link, the count of `CKREF` edges since the window
began, the peer's timestamp in ns and the message's holdover flag. -/
structure EdgeSample where
  link : Nat
  edges : Nat
  ts : Nat
  hold : Bool := false
deriving DecidableEq, Repr

/-- The operand of DMA_XFER and DMA_STREAM (Table 15.3). -/
structure XferOp where
  mode : Nat
  esize : Nat
  srcSpace : Nat
  dstSpace : Nat
  chan : Nat
  count : Nat
  src : Nat
  dst : Nat
  table : Nat
  nch : Nat
  pstride : Nat
  periodUs : Nat
  nbuf : Nat
  stop : Bool
  bstride : Nat
deriving DecidableEq, Repr

/-- The header of a descriptor (Table 14.2) and the context whose ring carries it. `reservedZero` says that
`FLAGS` [7:1], the reserved header bytes and the unnamed operand bytes are 0 (check 5 of Table 14.4). -/
structure DescHdr where
  ctx : CtxId
  tag : Nat
  notify : Bool
  reservedZero : Bool
deriving DecidableEq, Repr

/-- A request on a lane of the engine port (Table 2.5). -/
structure EpReq where
  src : Nat
  q : Nat
  ctx : Nat
  op : Nat
  tmo : Nat
  obj : Nat
  arg : Nat
deriving DecidableEq, Repr

/-- A slot table entry (Table 3.2). -/
structure SlotEntry where
  exec : Nat
  cls : Nat
  cluster : Nat
  work : Nat
  start : Nat
  deadline : Nat
  period : Nat
deriving DecidableEq, Repr

/-- A row of a V/F/activity table (Table 9.3). -/
structure VftRow where
  v : Nat := 0
  div : Nat := 0
  ceil : Nat := 0
  iest : Nat := 0
  pest : Nat := 0
deriving DecidableEq, Repr

/-- The locked regulation registers of a rail (Table 6.5, marked L): coefficients with 24 fractional bits, limits in
2^−16 of duty, fast-path thresholds, load line and pre-position. -/
structure CompRegs where
  b0 : Int := 0
  b1 : Int := 0
  b2 : Int := 0
  a1 : Int := 0
  a2 : Int := 0
  a3 : Int := 0
  umax : Nat := 0
  dmax : Nat := 0
  vnlu : Nat := 100
  vnlo : Nat := 100
  vbrk : Nat := 160
  tbrk : Nat := 200
  rll : Nat := 0
  rpp : Nat := 0
  vppMax : Nat := 0
  tonMin : Nat := 20
  kcb : Nat := 2
  trimMax : Nat := 20
deriving DecidableEq, Repr

/-- The shedding registers of a rail (`RAIL_SHED`, `RAIL_SHED_I`). -/
structure ShedRegs where
  nmin : Nat := 0
  shedEn : Bool := true
  deEn : Bool := true
  tbEn : Bool := true
  gtb : Nat := 8
  thold : Nat := 25
  iOpt : Nat := 0
  iAdd : Nat := 0
deriving DecidableEq, Repr

/-- Configuration of a rail (Tables 6.5, 7.2, 7.11). -/
structure RailCfg where
  present : Bool := false
  nph : Nat := 0
  fsw : Nat := 0
  vinNom : Nat := 0
  vmin : Nat := 0
  slew : Nat := 40
  comp : CompRegs := {}
  shed : ShedRegs := {}
  mode : Nat := 0
  master : Nat := 0
  level : Nat := 0
  delay : Nat := 0
  nreq : Nat := 0
  iol : Nat := 0
  uvPct : Nat := 20
  tfs : Nat := 10
  /-- clusters that the rail supplies, as a mask -/
  clusters : Nat := 0
deriving DecidableEq, Repr

/-- Configuration of a phase (Tables 6.5, 7.11, R135). `gain` is the sense gain G_p in µV per A. -/
structure PhaseCfg where
  present : Bool := false
  rail : Nat := 0
  pos : Nat := 0
  addr : Nat := 0
  page : Nat := 0
  isc : Nat := 0
  idMin : Nat := 0
  idMax : Nat := 0
  gain : Nat := 0
  /-- nominal V0 in mV; stage temperature output at 0 °C in mV and gain in µV per °C (R138) -/
  v0 : Nat := 0
  v0t : Nat := 0
  gt : Nat := 0
deriving DecidableEq, Repr

/-- Configuration of a PMBus device (R59, R163): whether its transactions use PEC, and its configuration list of up to 16
commands, each with the data written. -/
structure PmbDev where
  addr : Nat := 0
  pec : Bool := true
  cmds : List (Nat × Nat) := []
deriving DecidableEq, Repr

/-- What a device read back for each command of its list, after the list was written once and after it was repeated (R163);
`none` is a readback without an answer or with a wrong PEC. -/
structure PmbReads where
  addr : Fin 128
  first : List (Option Nat) := []
  again : List (Option Nat) := []
deriving DecidableEq, Repr

/-- Configuration of a diode site (R121, R124, Table 5.6). -/
structure SiteCfg where
  present : Bool := false
  ring : Nat := 0
  pos : Nat := 0
  cluster : Nat := 0
  gain : Nat := 0x8000
  offs : Int := 0
  /-- neighbours and their weights w_i in 1/256 -/
  neigh : List (Nat × Nat) := []
  b : Int := 0
  /-- where the plausibility net leaves its prediction of the site: state-store block and element (R124) -/
  net : Option (Nat × Nat) := none
deriving DecidableEq, Repr

/-- Configuration of a droop detector (R127, Table 5.6). -/
structure DetCfg where
  present : Bool := false
  ring : Nat := 0
  pos : Nat := 0
  dom : Nat := 0
  rail : Nat := 0
  depth : Nat := 12
  /-- the detector's nearest site (R129) -/
  site : Nat := 0
deriving DecidableEq, Repr

/-- Configuration of an ageing monitor (Table 5.6). -/
structure MonCfg where
  present : Bool := false
  ring : Nat := 0
  pos : Nat := 0
  cluster : Nat := 0
deriving DecidableEq, Repr

/-- Configuration of a domain (Table 4.4). -/
structure DomCfg where
  present : Bool := false
  k : Nat := 16
  cluster : Nat := 0
  clValid : Bool := false
  dfix : Nat := 0
deriving DecidableEq, Repr

/-- Configuration of a loop (Table 9.9). `resBlk` is the state-store block in which the LIMIT program leaves q̂, k,
|r|max and e of the loop, in that order (log entry 11). -/
structure LoopCfg where
  present : Bool := false
  nx : Nat := 0
  nu : Nat := 0
  ny : Nat := 0
  limProg : Nat := 0
  obsProg : Nat := 0
  ff : Bool := true
  tgt : Nat := 0
  tgtMax : Nat := 0
  ki : Nat := 0
  kim : Nat := 0
  rth : Nat := 96
  n : Nat := 8
  nret : Nat := 64
  tsat : Nat := 100
  satFb : Bool := false
  margin : Nat := 0
  mofs : Int := 0
  /-- initial mode at control start (R259) -/
  initAuto : Bool := true
  resBlk : Nat := 0
deriving DecidableEq, Repr

/-- Configuration of a cluster (Tables 9.9, 11.x): domain, rails, cores and V/F/activity table. -/
structure CluCfg where
  present : Bool := false
  dom : Nat := 0
  rails : Nat := 0
  up : Nat := 16
  dn : Nat := 32
  icmax : Nat := 0
  fbLevel : Nat := 0
  vft : List (Nat × VftRow) := []
  /-- cores of the cluster, as a mask -/
  cores : Nat := 0
  /-- domain class of R292: 0 links, 1 memory, 2 host-CPU, 3 compute -/
  cls : Nat := 3
  /-- guardband, 0.25 mV; ageing coefficient, 0.5 µV per ppm; trim enabled (R308) -/
  gb : Nat := 0
  kage : Nat := 0
  trimEn : Bool := false
deriving DecidableEq, Repr

/-- The fuses of the limit gate, the keys and the boot sets (R171, R433, Table 16.x). -/
structure Fuses where
  /-- per rail: Vmax, V_OV, maximum slew -/
  vmax : List Nat := []
  vov : List Nat := []
  slewMax : List Nat := []
  /-- per domain: minimum divider D_min -/
  dmin : List Nat := []
  nMax : Nat := 0
  capMax : Nat := 0
  tcrit : Int := 0
  /-- per site: trip offset, 1/64 °C -/
  tripOfs : List Int := []
  /-- 8 boot setpoint sets of 8 entries, 0.25 mV -/
  boot : List (List Nat) := []
  /-- the limit gate (set 7 included) and the boot sets that have been programmed, as a mask of sets; the gate's CRC -/
  gateDone : Bool := false
  bootDone : Nat := 0
  gateCrcOk : Bool := true
  /-- Kolhidex key hashes 0–3 and integrator key hashes 0–1 (0 unprogrammed), with their revoke fuses (Table 16.3) -/
  kolHash : List Nat := [0, 0, 0, 0]
  kolRev : Nat := 0
  intHash : List Nat := [0, 0]
  intRev : Nat := 0
  svn : Nat := 0
  zeroised : Bool := false
  serial : Nat := 0
deriving DecidableEq, Repr

/-- Where an element of an INPUT block comes from (Tables 9.2 and 10.2 name the sources). -/
inductive InSrc where
  | zero
  | site (i : Nat)
  | power (c : Nat)
  | current (c : Nat)
  | act (c : Nat)
  | limFrac (c : Nat)
  | level (c : Nat)
  | vreq (c : Nat)
  | freq (c : Nat)
  | exts (c : Nat)
  | railMean (r : Nat)
  /-- the cluster target of a loop -/
  | target (c j : Nat)
  /-- a site's accepted value, newest first (R124) -/
  | accepted (i k : Nat)
deriving DecidableEq, Repr

/-- Configuration of Tally (R218, R227, Table 8.12): the division of the state store, the coefficient store, the
programs of the integration configuration, and the sources of the INPUT blocks, 16 to a block (log entry 12). -/
structure TlyCfg where
  pinned : Nat := 0
  framePages : Nat := 1
  nframes : Nat := 0
  inBase : Nat := 0
  inN : Nat := 0
  outBase : Nat := 0
  outN : Nat := 0
  scrBase : Nat := 0
  scrN : Nat := 0
  progs : List (List Nat) := []
  inputs : List (Nat × List InSrc) := []
deriving DecidableEq, Repr

/-- Configuration of Treasury (Tables 11.5, 11.6): boot cap, Overdraft, the domain classes and the rail budgets. -/
structure TrsCfg where
  bootCap : Nat := 8
  odPct : Nat := 100
  prio : List Nat := [0, 1, 2, 3]
  weight : List Nat := [1, 1, 1, 1]
  floor : List Nat := [0, 0, 0, 0]
  ibud : List Nat := []
deriving DecidableEq, Repr

/-- Configuration of a cluster's forecaster (R272, Table 10.5): program entry, binding, default set, gate limits, and
the state-store blocks of its inputs and output. -/
structure FcCfg where
  present : Bool := false
  prog : Nat := 0
  bind : Nat := 0
  defSet : Nat := 0
  accTh : Nat := 0
  accMin : Nat := 16
  inBlk : List Nat := []
  outBlk : Nat := 0
deriving DecidableEq, Repr

/-- A hint class of the configuration (R271). -/
structure HcCfg where
  set : Nat := 0
  setValid : Bool := false
  en : Bool := false
  dur : Nat := 1
  feat : Nat := 0
  ipu : Nat := 0
deriving DecidableEq, Repr

/-- Configuration of synchronisation: kind masks of windows (1 = count), barrier groups as participants and members,
timeout classes in µs, and the configured engines of each core as a mask (R317, R321, R340, R41). -/
structure SynCfg where
  kinds : List (Nat × Nat) := []
  groups : List (Nat × (Nat × List Nat)) := []
  tmo : List Nat := [10000, 100, 1000, 100000]
  engines : List (Nat × Nat) := []
deriving DecidableEq, Repr

/-- The integration configuration (R21, Table 1.6), generated by Tuipo and kept in serial NOR. -/
structure Cfg where
  valid : Bool := false
  version : Nat := 0
  /-- `CLK_FRM_CFG.LEN`: F = (LEN + 1) × 0.5 µs -/
  frameLen : Nat := 1
  rail : List (Nat × RailCfg) := []
  ph : List (Nat × PhaseCfg) := []
  dom : List (Nat × DomCfg) := []
  clu : List (Nat × CluCfg) := []
  loop : List (Nat × LoopCfg) := []
  site : List (Nat × SiteCfg) := []
  det : List (Nat × DetCfg) := []
  mon : List (Nat × MonCfg) := []
  nBoot : Nat := 0
  oscSite : Nat := 0
  frecBase : Nat := 0
  slots : List SlotEntry := []
  /-- declared cost of each firmware routine, instructions (R414), and the partner of each Teller -/
  fwCost : List (Nat × Nat) := []
  partner : List (Nat × Nat) := []
  tly : TlyCfg := {}
  trs : TrsCfg := {}
  fc : List (Nat × FcCfg) := []
  hc : List (Nat × HcCfg) := []
  /-- hint-class permissions of contexts 1–511, as 256-bit masks -/
  hperm : List (Nat × Nat) := []
  syn : SynCfg := {}
  /-- PMBus: 0 100 kHz, 1 400 kHz, 2 1 MHz, and the target devices, at most 32 (R59) -/
  pmbSpeed : Nat := 0
  pmb : List PmbDev := []
deriving DecidableEq, Repr

/-- A firmware image as serial NOR holds it: what the checks of Table 16.7 look at (Table 16.6). `sig` says that the
signature is valid under the image's own public key. -/
structure FwImg where
  whole : Bool := false
  keyIdx : Nat := 0
  keyHash : Nat := 0
  sig : Bool := false
  blockVer : Nat := 0
  svn : Nat := 0
  ver : Nat := 0
  ifVer : Nat := 0
  hoVer : Nat := 0
  hoMin : Nat := 0
  digest : Nat := 0
deriving DecidableEq, Repr

/-- A configuration copy in serial NOR (R428). -/
structure CfgCopy where
  whole : Bool := false
  ver : Nat := 0
  keyHash : Nat := 0
  sig : Bool := false
  digest : Nat := 0
  body : Cfg := {}
deriving DecidableEq, Repr

/-- What was programmed into the part from outside the block while it was in reset: the fuses that Kolhidex or the
integrator brings (Table 16.3) and what the board maker wrote to serial NOR (Table 16.4). -/
structure Part where
  fuses : Fuses := {}
  pref : Nat := 0
  slotSt : List Nat := [1, 1]
  cfgAct : Nat := 0
  cfgStg : Nat := 0
  img : List (Option FwImg) := [none, none]
  copy : List (Option CfgCopy) := [none, none]
  baselines : List (Nat × Nat) := []
  /-- the fault-record ring holds no valid entry and is not erased (R200) -/
  ringDirty : Bool := false
deriving DecidableEq, Repr

/-- What a step takes from outside beside its operand: bytes of host memory at the operand's address (`none`: the read
fails under R38), blobs whose bodies are Tuipo's, measured ratios, and whether serial NOR and the fuse array do what
they are asked (log entry 1). -/
structure Ext where
  data : Option (List (BitVec 8)) := none
  /-- a single value and a list of values that a blob carries: a key hash, a mode mask, a boot set -/
  val : Nat := 0
  vals : List Nat := []
  gate : Fuses := {}
  body : Cfg := {}
  ratios : List (Nat × Nat) := []
  nvOk : Bool := true
  /-- VFUSE during a fuse session in mV, and the first fuse that reads back wrong after it was blown, if any -/
  vfuse : Nat := 0
  fuseBad : Option Nat := none
deriving DecidableEq, Repr

/-- Operand of CTX_OPEN (Table 14.5). -/
structure CtxOpenOp where
  ctx : Nat
  sqLog : Nat
  cqLog : Nat
  schedW : Nat
  irqEn : Bool
  sqBase : Nat
  cqBase : Nat
  winBase : Nat
  winLog : Nat
  irqData : Nat
  irqAddr : Nat
deriving DecidableEq, Repr

/-- Operand of LOOP_COEF; `vals` holds the 13 fields in operand order. -/
structure LoopCoefOp where
  cluster : Nat
  loop : Nat
  valid : Nat
  vals : List Nat
deriving DecidableEq, Repr

/-- Operand of SYN_MAP. -/
structure SynMapOp where
  ctx : Nat
  force : Bool
  add : Nat
  remove : Nat
  moves : List (Nat × Nat)
deriving DecidableEq, Repr

/-- Operand of CLR_CONFIG. -/
structure ClrCfgOp where
  chip : Nat
  domain : Nat
  vmax : Nat
  keep : Nat
  mbx : Nat
  leaseUs : Nat
  retryMs : Nat
  en : Bool
deriving DecidableEq, Repr

/-- Operand of CLR_LINK. -/
structure ClrLinkOp where
  link : Nat
  en : Bool
  peer : Nat
  addr : Nat
deriving DecidableEq, Repr

/-- An address and a length in host memory. -/
structure Buf where
  addr : Nat
  len : Nat
deriving DecidableEq, Repr

/-- Operand of FW_SPDM. -/
structure SpdmOp where
  reqAddr : Nat
  reqLen : Nat
  rspAddr : Nat
  rspMax : Nat
deriving DecidableEq, Repr

/-- Operand of FREC_COPY. -/
structure FrecCopyOp where
  slot : Nat
  nslot : Nat
  fromPtr : Bool
  addr : Nat
deriving DecidableEq, Repr

/-- The fields of a Clearing message (Table 13.2) beside `MAGIC`, `TYPE` and `CRC`. `reserved` says that the reserved
bytes and bits are 0. -/
structure ClrMsg where
  ver : Nat := 0
  flags : Nat := 0
  domain : Nat := 0
  seq : Nat := 0
  inc : Nat := 0
  src : Nat := 0
  dst : Nat := 0
  peerInc : Nat := 0
  ackSeq : Nat := 0
  ts : Nat := 0
  echoTs : Nat := 0
  echoHold : Nat := 0
  slack : Nat := 0
  amount : Nat := 0
  leaseId : Nat := 0
  expiryUs : Nat := 0
  cause : Nat := 0
  surplus : Nat := 0
  need : Nat := 0
  wmin : Nat := 0
  chips : Nat := 0
  fcNeed : Nat := 0
  reserved : Bool := true
deriving DecidableEq, Repr

/-- One command: a write or read of a register, an operation of a port, an event on a pin or an own step of the block. -/
inductive Instr where
  /-- COLD_RESET: PORST_N release or internal power-on reset starts the cold start sequence of Table 1.9 (R22) -/
  | coldReset (vsel refsel : Fin 8) (selftest : Option Nat) (boot : Boot) (part : Option Part)
  /-- PORST_N_ASSERT: PORST_N low drives every PEN low, stops domain clocks, releases alerts and cuts off any commit (R23) -/
  | porstNAssert (lowNs : Nat)
  /-- INTERNAL_POWER_ON_RESET: VAON or VIO falling below threshold performs an internal power-on reset with the effects of R23 (R69) -/
  | internalPowerOnReset (vaonMv vioMv : Nat)
  /-- WARM_RESET: WRST_N low or the warm-reset descriptor restarts firmware cores under fallback limiters (R26) -/
  | warmReset (lowNs : Nat)
  /-- WRST_N_RELEASE: WRST_N going high lets firmware leave reset after any fault-record commit (R27) -/
  | wrstNRelease
  /-- INPUT_POWER_FAIL: PFAIL_N low for 1 us commits a fault record, fast-stops all rails and asserts ALERT_N (R65) -/
  | inputPowerFail (pin : BoardPin)
  /-- VANA_LOSS: VANA below threshold for 1 us drops all PEN, stops clocks, latches every rail and commits a record (R69) -/
  | vanaLoss (lowNs : Nat)
  /-- FW_VFUSE_ALARM: VFUSE above 0.5 V outside a session raises an alarm and refuses fuse operations (R70) -/
  | fwVfuseAlarm (mv : Nat)
  /-- HS_PORT_RESET: HS_RST_N low resets the subordinate port interface and abandons outstanding responses (R35) -/
  | hsPortReset
  /-- HM_PORT_RESET: HM_RST_N low fails every outstanding non-posted request on the manager port (R39) -/
  | hmPortReset
  /-- HM_RESPONSE: A response arrives on the manager port for a tagged request (R36) -/
  | hmResponse (tag : Fin 32) (ok : Bool) (data : List (BitVec 32))
  /-- HM_TIMEOUT: A non-posted request without complete response within 100 us fails (R38) -/
  | hmTimeout (tag : Fin 32)
  /-- HM_TAG_RELEASE: The tag of a failed request becomes free 1 ms after the failure (R38) -/
  | hmTagRelease (tag : Fin 32)
  /-- REF_WINDOW_END: A 256-period judgement window ends and is judged inside or outside (R95) -/
  | refWindowEnd (durPs : Nat)
  /-- REF_LOSS: No CKREF edge within 1.75 periods declares reference loss and takes the loss actions (R114) -/
  | refLoss
  /-- DRIFT_MEASUREMENT: A 10 ms drift window ends and drift against peers is computed (R98) -/
  | driftMeasurement (edges : List EdgeSample)
  /-- ROOT_REQ_GO: Host write of CLK_ROOT_REQ.GO requests a root change (R104) -/
  | rootReqGo (n : Fin 512)
  /-- ROOT_CHANGE_START: A waiting root change starts by sending guard dividers once 1 ms has passed (R106) -/
  | rootChangeStart
  /-- ROOT_TIMEBASE_MOVED: Once every leaf acknowledged and every phase moved, the PLL relocks to the new N (R106) -/
  | rootTimebaseMoved
  /-- PLL_LOCK: The root PLL stays within 0.1 % for 2 us and is locked (R103) -/
  | pllLock
  /-- RELOCK_RETRY: No lock within 20 us relocks to the old N (R107) -/
  | relockRetry
  /-- PLL_FAIL: Relock to the old N failing within 20 us stops clocks and raises an alarm (R107) -/
  | pllFail
  /-- PLL_FAIL_RETRY: Every 100 ms after PLL_FAIL the block retries the old N (R107) -/
  | pllFailRetry
  /-- LEAF_ACK: A leaf acknowledges an applied divider code or command (R110) -/
  | leafAck (d : DomId)
  /-- LEAF_FAIL: A leaf without acknowledge in 1 us or DMON edge in 2 us is failed (R112) -/
  | leafFail (d : DomId) (cause : Fin 2)
  /-- LEAF_RETRY: Every 100 ms a failed leaf is retried with stop and start (R112) -/
  | leafRetry (d : DomId)
  /-- LEAF_RESTORED: A retried leaf showing DMON edges for 2 us is restored (R112) -/
  | leafRestored (d : DomId)
  /-- DROOP_FIRE: A droop detector fires and its leaf extends the next k cycles (R113) -/
  | droopFire (det : DetId)
  /-- CEILING_UPDATE: Every 100 ns the ceiling port issues an update per cluster (R45) -/
  | ceilingUpdate
  /-- CP_ACK: The host acknowledges a ceiling update with echo and activity word (R46) -/
  | cpAck (c : ClusterId) (echo : Fin 16) (act : Fin 256) (lim : Bool)
  /-- CP_LATE: An update unechoed within 500 ns sets the level-0 divider backstop (R46) -/
  | cpLate (c : ClusterId)
  /-- FRAME_START: At a frame boundary inputs are snapshotted and slot execution begins (R78) -/
  | frameStart (stepPs : Nat)
  /-- FRAME_COMMIT: In the last 40 ns completed slot results pass the limit gate and become visible (R78) -/
  | frameCommit
  /-- SLOT_COMPLETE: A slot's work completes and reports its slack (R83) -/
  | slotComplete (slot : Fin 256)
  /-- SLOT_MISS: A slot not complete at its deadline is stopped and its output held (R84) -/
  | slotMiss (slot : Fin 256)
  /-- LOOP_BACKSTOP: Eight consecutive LIMIT or SELECT misses cap the cluster at its fallback ceiling (R85) -/
  | loopBackstop (slot : Fin 256)
  /-- LOOP_BACKSTOP_END: Sixteen consecutive met runs release the backstop (R85) -/
  | loopBackstopEnd (c : ClusterId)
  /-- SHED: The consecutive-miss count reaching 4 raises the shedding level (R86) -/
  | shed
  /-- RESTORE: 1,024 clean fitting frames lower the shedding level (R87) -/
  | restore
  /-- SHED_FLOOR_WRITE: Host write of CLK_FRM_CTRL.FLOOR holds the shedding level at or above a level (R88) -/
  | shedFloorWrite (floor : Fin 4)
  /-- HOST_RESTORE: Host write of CLK_FRM_CTRL.RESTORE lowers the level by one (R88) -/
  | hostRestore
  /-- CLR_MIN: Host write of CLK_FRM_CTRL.CLR_MIN resets minimum slacks and step maximum (R90) -/
  | clrMin
  /-- LOOP_SATURATED: A loop saturated longer than TSAT sets SAT_FLAG (R253) -/
  | loopSaturated (c : ClusterId) (j : Fin 5)
  /-- OD_END: An excursion ends at reserve, 1 ms, no demand or cap write (R291) -/
  | odEnd
  /-- LEASE_GUARD: A borrowed lease within LGUARD of expiry leaves L_in by out-of-turn allocation (R287) -/
  | leaseGuard (l : Fin 65) (id : Nat)
  /-- TRIM_EVALUATE: Every 10 minutes the margin trim of each cluster is evaluated (R308) -/
  | trimEvaluate
  /-- AM_MEASURE: Each ageing monitor is measured once per second (R130) -/
  | amMeasure (mon : MonId) (ratio : Nat)
  /-- SITE_SAMPLE: A diode site sample command is issued at its band interval (R121) -/
  | siteSample (site : SiteId)
  /-- SITE_RESULT: A site result arrives and is calibrated, predicted and checked (R121) -/
  | siteResult (site : SiteId) (code : BitVec 16)
  /-- THERM_TRIP: A trip input above L_s fast-stops all rails (R447) -/
  | thermTrip (site : SiteId)
  /-- THERM_RESTART_OK: Two seconds with every input below L_s minus 20 C release HOT_TRIP_N (R448) -/
  | thermRestartOk
  /-- RING_FAIL: A ring silent for 2 us is probed and macros from the break are failed (R51) -/
  | ringFail (kind : Fin 3) (ring : Fin 16) (first : Fin 64)
  /-- RING_RETRY: Every 100 ms a failed ring is retried (R51) -/
  | ringRetry (kind : Fin 3) (ring : Fin 16) (answered : Option (Fin 64))
  /-- REF_COMPARE: Every 10 us the three voltage references are compared (R118) -/
  | refCompare (a b stack : Nat)
  /-- REF_BROADCAST: The reference scale is broadcast over the TS rings every 100 ms (R118) -/
  | refBroadcast
  /-- DD_READ: Every 1 us detector fire counts and deepest steps are read (R128) -/
  | ddRead (deepest : List (DetId × Fin 64))
  /-- DD_TAP_REWRITE: A detector's tap is rewritten after setpoint, temperature or depth change (R129) -/
  | ddTapRewrite (det : DetId) (tap : Option (Fin 256))
  /-- RAIL_V_CONVERSION: A rail voltage conversion completes every 40 ns (R132) -/
  | railVConversion (r : RailId) (code : Fin 16384) (cal : Bool)
  /-- BRAKE_TIMEOUT: Braking ends after T_BRK (R161) -/
  | brakeTimeout (r : RailId)
  /-- COMPENSATOR_UPDATE: The rail compensator updates every 80 ns (R144) -/
  | compensatorUpdate (r : RailId)
  /-- PHASE_I_CONVERSION: A phase current SAR conversion completes (R134) -/
  | phaseIConversion (p : PhaseId) (code : Fin 4096) (newCapture : Bool)
  /-- STAGE_T_CONVERSION: A stage temperature conversion completes (R138) -/
  | stageTConversion (p : PhaseId) (code : Fin 4096)
  /-- CURRENT_SHARE_UPDATE: Every 500 ns phase trims, rail current and power are updated (R154) -/
  | currentShareUpdate (r : RailId)
  /-- TRIM_LIMIT: A trim at TRIM_MAX for 1 ms writes TRIM_LIMIT (R154) -/
  | trimLimit (p : PhaseId)
  /-- SHARE_SHIFT: Every stage-temperature rotation phase share shifts are recomputed (R155) -/
  | shareShift (r : RailId)
  /-- SHIFT_LIMIT: Scaling below 1 for 1 s writes SHIFT_LIMIT (R155) -/
  | shiftLimit (r : RailId)
  /-- PWM_PERIOD: A phase's PWM period begins and its duty is latched (R147) -/
  | pwmPeriod (p : PhaseId)
  /-- ZERO_CROSSING: The zero-current comparator fires and PEN goes low for the period (R156) -/
  | zeroCrossing (p : PhaseId)
  /-- PHASE_REMOVE: Low current held for T_SHED removes phases one per period (R157) -/
  | phaseRemove (r : RailId)
  /-- JOIN_COMPLETE: A joining phase becomes active after 2 periods (R158) -/
  | joinComplete (p : PhaseId)
  /-- VPP_RAMP_DOWN: After arrival hold or absent deliveries V_pp ramps to zero (R159) -/
  | vppRampDown (r : RailId)
  /-- VIN_READ: Every 10 ms READ_VIN of the rail's device is read (R164) -/
  | vinRead (r : RailId) (word : Fin 65536)
  /-- VIN_STALE: No accepted V_in for 100 ms reverts to nominal (R164) -/
  | vinStale (r : RailId)
  /-- PMB_ALERT: PM_ALERT_N low makes the block read ARA and STATUS_WORD (R165) -/
  | pmbAlert (addr : Fin 128) (word : Fin 65536)
  /-- PMBUS_TIMEOUT: A clock stretch over 25 ms issues recovery clocks and retries (R59) -/
  | pmbusTimeout (addr : Fin 128) (cmd : Fin 256) (cause : Fin 3) (retried : Bool)
  /-- OVERLOAD_CHECK: Every 500 ns the 1 ms mean rail current is compared with I_OL (R187) -/
  | overloadCheck (r : RailId)
  /-- OVERLOAD_SHUTDOWN: Overload for 10 ms stops the rail (R187) -/
  | overloadShutdown (r : RailId)
  /-- SC_TRIP: The short-circuit comparator turns a phase off for its period (R184) -/
  | scTrip (p : PhaseId)
  /-- STAGE_FAULT: PFLT_N low for 10 ns disables the phase (R185) -/
  | stageFault (p : PhaseId) (pin : PinEvent)
  /-- PWM_READBACK: Pad readback mismatch in 2 periods disables the phase (R186) -/
  | pwmReadback (p : PhaseId) (pad : Fin 2) (other : Option PhaseId)
  /-- OVERVOLTAGE: Sensed voltage above V_OV for 100 ns crowbars the rail (R188) -/
  | overvoltage (r : RailId)
  /-- UNDERVOLTAGE: Voltage below the lower window for 10 us faults the rail (R190) -/
  | undervoltage (r : RailId) (lowest : Fin 65536)
  /-- SENSE_CHECK: After 8 us of sense current the open-sense check is judged (R175) -/
  | senseCheck (rises : List (RailId × Nat))
  /-- PMBUS_CONFIG_DONE: Stage device configuration completes before identify (R163) -/
  | pmbusConfigDone (reads : List PmbReads)
  /-- PHASE_IDENTIFY: A 3 us identify slot of one phase ends and is judged (R176) -/
  | phaseIdentify (p : PhaseId) (code : Fin 4096) (padsOk scFired otherSeen : Bool)
  /-- RAMP_START: A rail whose conditions hold enters RAMP_UP (R177) -/
  | rampStart (r : RailId)
  /-- REACHED: A ramping rail reports REACHED and enters ON (R152) -/
  | reached (r : RailId)
  /-- START_TIMEOUT: No REACHED within twice the ramp time plus 1 ms fast-stops the group (R178) -/
  | startTimeout (r : RailId)
  /-- RAMP_DOWN_DONE: A ramping-down rail below 50 mV or 2 ms after zero enters OFF (R180) -/
  | rampDownDone (r : RailId)
  /-- FAST_STOP_LEVEL: T_FS after a level stops, the next lower level stops (R181) -/
  | fastStopLevel (r : RailId)
  /-- FREC_COMMITTED: A queued fault record is committed to serial NOR (R196) -/
  | frecCommitted (ok : Bool)
  /-- FREC_SLOT_LOADED: A write of RAIL_FREC_SEL loads a slot into the window buffer (R201) -/
  | frecSlotLoaded
  /-- CROWBAR_RELEASED: W1C of CROWBAR below 100 mV puts the rail in FAULT or LATCHED (R189) -/
  | crowbarReleased
  /-- FAULT_CLEAR: W1C of RAIL_PROT_STAT.FAULT puts the rail in OFF (R194) -/
  | faultClear
  /-- PHASE_FAULT_CLEAR: W1C of a RAIL_PH_PROT bit returns the phase to off (R194) -/
  | phaseFaultClear (clear : Fin 16)
  /-- RAIL_VREQ_GO: Host write of RAIL_VREQ.GO requests a rail target (R153) -/
  | railVreqGo (v : Fin 65536)
  /-- RAIL_SLEW_WRITE: A write of RAIL_SLEW changes the slew, clamped to its limits (R151) -/
  | railSlewWrite (v : Fin 256)
  /-- RAIL_TEL_CLR: RAIL_TEL_CTRL.CLR clears peaks and counts of the rail (R168) -/
  | railTelClr
  /-- RAIL_SHED_WRITE: A write of RAIL_SHED or RAIL_SHED_I is range-checked and applied (R157) -/
  | railShedWrite (currents : Bool) (v : BitVec 32)
  /-- DD_DEPTH_WRITE: A write of SNS_DD_CTRL.DEPTH changes a detector threshold (R127) -/
  | ddDepthWrite (depth : Fin 64)
  /-- LOOP_CL_MODE_GO: A write of LOOP_CL_MODE with GO changes a loop's mode (R246) -/
  | loopClModeGo (v : Word)
  /-- LOOP_TGT_WRITE: A write of LOOP_TGT sets a target or MCEIL (R247) -/
  | loopTgtWrite (v : Fin 65536)
  /-- FB_FORCE_WRITE: A write of LOOP_SUP_SAT.FB_FORCE holds or frees a loop in fallback (R252) -/
  | fbForceWrite (v : Word)
  /-- CLR_LATCH: LOOP_SUP_SAT.CLR_LATCH ends the fallback latch (R252) -/
  | clrLatch
  /-- CAP_SET: A write of TRS_CAP.CAP sets the host cap after checks (R289) -/
  | capSet (v : Fin 65536)
  /-- CLR_RSN: TRS_CTRL.CLR_RSN clears throttle-reason durations and onsets (R307) -/
  | clrRsn
  /-- CLR_OD: TRS_CTRL.CLR_OD clears the excursion count (R312) -/
  | clrOd
  /-- CLR_FLT: TRS_CTRL.CLR_FLT clears every floor-breach time (R312) -/
  | clrFlt
  /-- DC_PRIO_WRITE: A write of TRS_DC_CFG.PRIO exchanges priorities between classes (R312) -/
  | dcPrioWrite (v : Word)
  /-- DC_FLOOR_WRITE: A write of TRS_DC_FLOOR is checked against R288 (R289) -/
  | dcFloorWrite (v : Fin 65536)
  /-- TX_CFG_WRITE: A write of TRS_TX_CFG sets tenant weight, class and grant (R296) -/
  | txCfgWrite (v : Word)
  /-- CLR_ACC: TRS_FC_CTRL.CLR_ACC clears a cluster's forecast accuracy (R283) -/
  | clrAcc
  /-- FC_DEFAULT: TRS_FC_CTRL.DEFAULT makes the default set desired (R283) -/
  | fcDefault
  /-- HINT_CLASS_SET: A write of TRS_HC_CFG or a permission word changes the class table (R283) -/
  | hintClassSet (perm : Bool) (k : Fin 8) (v : Word)
  /-- HINT_OP: A HINT request is checked and queued or coalesced (R268) -/
  | hintOp (src : EngId) (q : Fin 4) (ctx : CtxId) (cls : Fin 256) (intensity lead : Fin 256)
  /-- RELEASE_HINT: A class-0 RELEASE cuts the end time of a context's entries (R270) -/
  | releaseHint (src : EngId) (q : Fin 4) (ctx : CtxId) (lead : Fin 256)
  /-- HINT_EXPIRE: A hint entry is removed at its end time (R269) -/
  | hintExpire (c : ClusterId) (e : Fin 32)
  /-- HINT_EVALUATE: A hint entry is evaluated as hit or miss (R280) -/
  | hintEvaluate (c : ClusterId) (e : Fin 32)
  /-- HINT_TRUST_BACK: DIST_MS after distrust the context is trusted again (R281) -/
  | hintTrustBack (ctx : CtxId)
  /-- PAGE_LANDED: A model-set page lands and its digest is checked (R229) -/
  | pageLanded
  /-- TLY_CUBE_ERR: A residue mismatch ends the run as a miss (R231) -/
  | tlyCubeErr (cube : Fin 9) (slot : Fin 256) (ins : Nat)
  /-- TLY_STORE_ECC: An uncorrectable Tally store error is handled by location (R232) -/
  | tlyStoreEcc (store : Fin 4) (addr : Nat) (slot : Fin 256) (corrected : Bool)
  /-- CLR_SAT: TLY_CTRL.CLR_SAT clears saturation counters (R234) -/
  | clrSat
  /-- SYN_SET: SET sets a flag and releases waiters (R318) -/
  | synSet (src : EngId) (q : Fin 4) (ctx : CtxId) (obj : ObjId)
  /-- SYN_CLEAR: CLEAR clears a flag and releases waiters (R318) -/
  | synClear (src : EngId) (q : Fin 4) (ctx : CtxId) (obj : ObjId)
  /-- WAIT_SET: WAIT_SET waits until a flag is set (R318) -/
  | waitSet (src : EngId) (q : Fin 4) (ctx : CtxId) (obj : ObjId) (tmo : Fin 4)
  /-- WAIT_CLEAR: WAIT_CLEAR waits until a flag is clear (R318) -/
  | waitClear (src : EngId) (q : Fin 4) (ctx : CtxId) (obj : ObjId) (tmo : Fin 4)
  /-- SYN_INC: INC adds to a count and releases WAIT_GE waiters (R320) -/
  | synInc (src : EngId) (q : Fin 4) (ctx : CtxId) (obj : ObjId) (amount : Fin 65536)
  /-- SYN_DEC: DEC subtracts from a count, saturating at 0 (R320) -/
  | synDec (src : EngId) (q : Fin 4) (ctx : CtxId) (obj : ObjId) (amount : Fin 65536)
  /-- WAIT_GE: WAIT_GE waits until a count reaches n (R320) -/
  | waitGe (src : EngId) (q : Fin 4) (ctx : CtxId) (obj : ObjId) (n : Fin 65536) (tmo : Fin 4)
  /-- BARRIER_ARRIVE: BARRIER_ARRIVE counts an arrival and may complete the group (R321) -/
  | barrierArrive (src : EngId) (q : Fin 4) (ctx : CtxId) (obj : ObjId) (tmo : Fin 4)
  /-- EP_RESPONSE_TAKEN: The host takes an engine-port response, freeing buffer room (R44) -/
  | epResponseTaken (lane : ClusterId)
  /-- SYN_TIMEOUT: A timeout-mode wait past its deadline fails (R329) -/
  | synTimeout (w : Fin 8192)
  /-- SYN_WATCHDOG_FIRE: A core watchdog reaching WD_MS fails its watchdog-mode waits (R330) -/
  | synWatchdogFire (core : CoreId)
  /-- SYN_ECC: An uncorrectable object error poisons the object and fails waiters (R317) -/
  | synEcc (obj : ObjId) (corrected : Bool)
  /-- ESCROW_LEND: A core waiting for TLEND lends its budget above floor (R336) -/
  | escrowLend (core : CoreId)
  /-- SYN_CTRL_CLR: SYN_CTRL.CLR clears synchronisation counters (R340) -/
  | synCtrlClr
  /-- SYN_CORE_CFG_WRITE: A write of SYN_CORE_CFG sets mode, Escrow enable, mask and watchdog (R328) -/
  | synCoreCfgWrite (v : Word)
  /-- ESC_CFG_WRITE: A write of SYN_ESC_CFG sets Escrow control, reclaiming on disable (R338) -/
  | escCfgWrite (v : Word)
  /-- CLEARING_ROUND: Every 10 us a chip balances and sends STATE and OFFER (R349) -/
  | clearingRound
  /-- MAILBOX_POLL: The block polls a link slot and reads a new message (R344) -/
  | mailboxPoll (l : Fin 65) (words : List Word)
  /-- MSG_REREAD: A message with bad CRC is read again after 250 ns (R344) -/
  | msgReread (l : Fin 65) (words : List Word)
  /-- JOIN: A received JOIN is answered with ACCEPT (R351) -/
  | join (l : Fin 65) (m : ClrMsg)
  /-- ACCEPT: A received ACCEPT sets the version and incarnation (R351) -/
  | accept (l : Fin 65) (m : ClrMsg)
  /-- STATE_MSG: A received STATE updates the child's subtree values (R361) -/
  | stateMsg (l : Fin 65) (m : ClrMsg)
  /-- OFFER: A received OFFER carries the parent's call (R361) -/
  | offer (l : Fin 65) (m : ClrMsg)
  /-- LEASE: A received LEASE or renewal is accepted or returned (R354) -/
  | lease (l : Fin 65) (m : ClrMsg)
  /-- RETURN: A received RETURN removes a lease from L_out (R353) -/
  | returnMsg (l : Fin 65) (m : ClrMsg)
  /-- LEAVE: A received LEAVE puts the link in LEFT (R350) -/
  | leave (l : Fin 65) (m : ClrMsg)
  /-- RETURN_SEND: A returning borrower sends RETURN once power falls or LGUARD passes (R356) -/
  | returnSend (l : Fin 65) (id : Nat)
  /-- ACK_MISS: No acknowledgement within 4 us counts a miss (R347) -/
  | ackMiss (l : Fin 65)
  /-- CLR_LEASE_EXPIRED: A lent lease reaches expiry without RETURN (R353) -/
  | clrLeaseExpired (l : Fin 65) (id : Nat)
  /-- JOIN_RETRY: The retry timer expires and JOIN is sent again (R350) -/
  | joinRetry (l : Fin 65)
  /-- CLR_CFG_WRITE: A write of CLR_CFG enables or disables Clearing (R368) -/
  | clrCfgWrite (v : Word)
  /-- CLR_LNK_EN_WRITE: A write of CLR_LNK_CFG.EN sends JOIN or LEAVE (R350) -/
  | clrLnkEnWrite (en : Bool)
  /-- CLR_CTRL_CLR: CLR_CTRL.CLR clears link counts (R368) -/
  | clrCtrlClr
  /-- DOORBELL_WRITE: A doorbell write is checked and records new tail and head (R375) -/
  | doorbellWrite (c : CtxId) (v : Word)
  /-- DESCRIPTOR_FETCH: A fetched descriptor is checked and dispatched (R378) -/
  | descriptorFetch (c : CtxId) (words : Option (List Word)) (x : Ext)
  /-- FETCH_RETRY: A failed fetch is retried after 10 us (R378) -/
  | fetchRetry (c : CtxId) (words : Option (List Word)) (x : Ext)
  /-- IRQ_GAP: At the end of the gap a pending interrupt message is written (R382) -/
  | irqGap (c : CtxId)
  /-- HIF_NEG_GO: A write of HIF_NEG.GO negotiates features (R384) -/
  | hifNegGo
  /-- C0_RING_EN_WRITE: A write of HIF_C0_RING.EN opens or closes context 0 (R370) -/
  | c0RingEnWrite (v : Word)
  /-- HIF_CTRL_CLR: HIF_CTRL.CLR clears doorbell and context counts (R388) -/
  | hifCtrlClr
  /-- NOP: NOP completes with no effect (R379) -/
  | nop (h : DescHdr)
  /-- IDENTIFY: IDENTIFY returns interface version and issuing context (R379) -/
  | identify (h : DescHdr)
  /-- WARM_RESET_DESC: WARM_RESET completes and performs a warm reset (R379) -/
  | warmResetDesc (h : DescHdr) (key : Nat)
  /-- CONTROL_START: CONTROL_START puts clusters in RUN with configured loop modes (R259) -/
  | controlStart (h : DescHdr) (clusters : Nat)
  /-- CTX_OPEN: CTX_OPEN opens a tenant context with its rings and window (R379) -/
  | ctxOpen (h : DescHdr) (o : CtxOpenOp)
  /-- CTX_CLOSE: CTX_CLOSE closes a tenant context and drops its work (R379) -/
  | ctxClose (h : DescHdr) (ctx : Nat)
  /-- CTX_PARAM: CTX_PARAM writes tenant weight, class and grant (R379) -/
  | ctxParam (h : DescHdr) (ctx weight cls grant : Nat)
  /-- CTX_PLACE: CTX_PLACE sets a tenant's placement, possibly migrating it (R300) -/
  | ctxPlace (h : DescHdr) (ctx cores : Nat)
  /-- FLOOR_SET: FLOOR_SET sets a context's floor within its grant (R296) -/
  | floorSet (h : DescHdr) (ctx floor : Nat)
  /-- CTX_TELEM: CTX_TELEM writes the context's telemetry record (R380) -/
  | ctxTelem (h : DescHdr) (ctx addr : Nat)
  /-- RAIL_CTRL_START: RAIL_CTRL start runs start steps 3 to 6 for named rails (R175) -/
  | railCtrlStart (h : DescHdr) (rails : Fin 256)
  /-- RAIL_CTRL_STOP: RAIL_CTRL stop performs a ramped stop of named rails (R180) -/
  | railCtrlStop (h : DescHdr) (rails : Fin 256)
  /-- AM_BASELINE: AM_BASELINE captures and stores monitor baselines (R131) -/
  | amBaseline (h : DescHdr) (monitors : Nat) (x : Ext)
  /-- TLY_INSTALL: TLY_INSTALL checks and installs a Tally program (R221) -/
  | tlyInstall (h : DescHdr) (o : Buf) (x : Ext)
  /-- TLY_REMOVE: TLY_REMOVE removes an unscheduled program (R221) -/
  | tlyRemove (h : DescHdr) (entry : Nat)
  /-- TLY_SET_REG: TLY_SET_REG registers a signed model set (R228) -/
  | tlySetReg (h : DescHdr) (set hdr page : Nat) (x : Ext)
  /-- TLY_SET_REMOVE: TLY_SET_REMOVE removes an unbound model set (R228) -/
  | tlySetRemove (h : DescHdr) (set : Nat)
  /-- SLOT_TABLE: SLOT_TABLE admits and installs a slot table (R224) -/
  | slotTable (h : DescHdr) (addr nslot : Nat) (x : Ext)
  /-- LOOP_COEF: LOOP_COEF writes selected loop fields of a manual loop (R247) -/
  | loopCoef (h : DescHdr) (o : LoopCoefOp)
  /-- VFT_LOAD: VFT_LOAD replaces a cluster's V/F/activity table (R255) -/
  | vftLoad (h : DescHdr) (cluster addr : Nat) (x : Ext)
  /-- HINT_CLASS_ENTRY: HINT_CLASS with OP 0 writes a class entry (R283) -/
  | hintClassEntry (h : DescHdr) (cls value : Nat)
  /-- HINT_CLASS_PERM: HINT_CLASS with OP 1 writes a permission word (R283) -/
  | hintClassPerm (h : DescHdr) (ctx word value : Nat)
  /-- SYN_ACT_SET: SYN_ACT SET sets a flag by hand (R332) -/
  | synActSet (h : DescHdr) (obj : Nat)
  /-- SYN_ACT_CLEAR: SYN_ACT CLEAR clears a flag by hand (R332) -/
  | synActClear (h : DescHdr) (obj : Nat)
  /-- ADJUST: SYN_ACT ADJUST sets a count value (R332) -/
  | adjust (h : DescHdr) (obj value : Nat)
  /-- RELEASE_WAITER: SYN_ACT RELEASE_WAITER releases a waiter entry (R332) -/
  | releaseWaiter (h : DescHdr) (entry : Nat)
  /-- FAIL_WAITER: SYN_ACT FAIL_WAITER fails a waiter with SYN_ABORTED (R332) -/
  | failWaiter (h : DescHdr) (entry : Nat)
  /-- RESET_WINDOW: SYN_ACT RESET_WINDOW resets a window's objects (R332) -/
  | resetWindow (h : DescHdr) (force : Bool) (window : Nat)
  /-- SET_KIND: SYN_ACT SET_KIND sets a window's kind mask (R332) -/
  | setKind (h : DescHdr) (window kind : Nat)
  /-- GROUP_DEF: SYN_ACT GROUP_DEF defines or deletes a barrier group (R332) -/
  | groupDef (h : DescHdr) (group p : Nat) (members : List Nat)
  /-- SYN_MAP: SYN_MAP updates a context's allocation map and moves windows (R334) -/
  | synMap (h : DescHdr) (o : SynMapOp)
  /-- SYN_READ: SYN_READ returns object or waiter state (R333) -/
  | synRead (h : DescHdr) (kind index : Nat)
  /-- CLR_CONFIG: CLR_CONFIG writes Clearing configuration registers (R379) -/
  | clrConfig (h : DescHdr) (o : ClrCfgOp)
  /-- CLR_LINK: CLR_LINK writes one link's configuration (R379) -/
  | clrLink (h : DescHdr) (o : ClrLinkOp)
  /-- DMA_XFER: DMA_XFER starts a single transfer on channel 5 (R396) -/
  | dmaXfer (h : DescHdr) (op : XferOp) (x : Ext)
  /-- DMA_TRANSFER_DONE: A transfer's last write is issued and it completes (R398) -/
  | dmaTransferDone (chan : Fin 8) (ok : Bool) (n : Nat) (data : List Word) (bad : List Nat)
  /-- DMA_STREAM_ARM: DMA_STREAM without STOP arms a snapshot stream (R399) -/
  | dmaStreamArm (h : DescHdr) (op : XferOp) (x : Ext)
  /-- DMA_STREAM_STOP: DMA_STREAM with STOP ends a stream (R400) -/
  | dmaStreamStop (h : DescHdr) (chan : Fin 5)
  /-- STREAM_PERIOD: A stream period is due and a transfer starts or is skipped (R399) -/
  | streamPeriod (chan : Fin 5)
  /-- CAPTURE_SWEEP: Every 500 ns the current capture records a sweep (R393) -/
  | captureSweep
  /-- DMA_CTRL_CLR: DMA_CTRL.CLR clears channel counts (R412) -/
  | dmaCtrlClr
  /-- STOP_STREAMS: DMA_CTRL.STOP_STREAMS stops every stream (R400) -/
  | stopStreams
  /-- LDG_DRAIN: LDG_DRAIN copies unread records to host memory (R406) -/
  | ldgDrain (h : DescHdr) (max_ addr : Nat)
  /-- LDG_REARM: LDG_REARM empties Ledger and stores LDG_REARMED (R407) -/
  | ldgRearm (h : DescHdr) (force : Bool)
  /-- FREC_COPY: FREC_COPY copies fault-record slots to host memory (R401) -/
  | frecCopy (h : DescHdr) (op : FrecCopyOp)
  /-- LEDGER_STORE: The store takes one queued record every 8 ns (R403) -/
  | ledgerStore
  /-- LDW_REC0_READ: A read of LDW_REC0 copies slot r into the window buffer (R405) -/
  | ldwRec0Read (ecc : Bool)
  /-- LDW_REC7_READ: A read of LDW_REC7 advances r past the buffered record (R405) -/
  | ldwRec7Read
  /-- LDW_CURSOR_WRITE: A write of LDW_CURSOR sets the read position (R405) -/
  | ldwCursorWrite (v : Fin 32768)
  /-- LDG_CTRL_CLR_LOST: LDG_CTRL.CLR_LOST clears LDG_LOST (R412) -/
  | ldgCtrlClrLost
  /-- LIM_ALARM_CLEAR: W1C of a LIM_ALARM bit clears it if its clearing condition holds (R444) -/
  | limAlarmClear (v : Word)
  /-- LO_READ_LATCH: A read of a _LO register latches its _HI half (R11) -/
  | loReadLatch (addr : Word)
  /-- DIGEST0_READ: A read of ID_FW_DIGEST0 latches the other digest words (R470) -/
  | digest0Read
  /-- FW_QUERY: FW_QUERY returns the running version (R439) -/
  | fwQuery (h : DescHdr)
  /-- FW_STAGE: FW_STAGE writes and checks an image in the non-running slot (R439) -/
  | fwStage (h : DescHdr) (o : Buf) (x : Ext)
  /-- FW_ACTIVATE_COLD: FW_ACTIVATE mode 0 marks the staged slot TRIAL for the next cold reset (R439) -/
  | fwActivateCold (h : DescHdr) (x : Ext)
  /-- FW_ACTIVATE_WARM: FW_ACTIVATE mode 1 marks the slot TRIAL and warm-resets (R439) -/
  | fwActivateWarm (h : DescHdr) (x : Ext)
  /-- FW_LIVE_UPDATE: FW_LIVE_UPDATE starts a live update after its checks (R435) -/
  | fwLiveUpdate (h : DescHdr)
  /-- LU_PREPARE_DONE: Standby banks are loaded and clusters enter HOLD (R436) -/
  | luPrepareDone
  /-- LU_HANDOFF_DONE: The handoff is written and Vault switches cores (R436) -/
  | luHandoffDone (digestOk : Bool)
  /-- FW_RESUMED: The new image restores and clusters leave HOLD (R436) -/
  | fwResumed
  /-- FW_SELF_CONFIRMED: Confirmation conditions hold and the descriptor completes (R437) -/
  | fwSelfConfirmed
  /-- FW_ROLLBACK: A failed digest, resume or confirmation timeout restores the old image (R437) -/
  | fwRollback
  /-- FW_CONFIRM: FW_CONFIRM marks the running TRIAL_BOOTED slot VALID (R439) -/
  | fwConfirm (h : DescHdr) (x : Ext)
  /-- FW_CONFIG_STAGE: FW_CONFIG_STAGE writes a configuration to the non-active copy (R428) -/
  | fwConfigStage (h : DescHdr) (o : Buf) (x : Ext)
  /-- FW_SPDM: FW_SPDM relays an SPDM request to Vault (R430) -/
  | fwSpdm (h : DescHdr) (o : SpdmOp) (x : Ext)
  /-- FUSE_INTEGRATOR_KEY: FW_FUSE kind 0 programs an integrator key hash (R433) -/
  | fuseIntegratorKey (h : DescHdr) (index : Nat) (o : Buf) (x : Ext)
  /-- FUSE_LIMIT_GATE: FW_FUSE kind 1 programs the limit gate and set 7 (R433) -/
  | fuseLimitGate (h : DescHdr) (o : Buf) (x : Ext)
  /-- FUSE_BOOT_SET: FW_FUSE kind 2 programs a boot setpoint set (R433) -/
  | fuseBootSet (h : DescHdr) (index : Nat) (o : Buf) (x : Ext)
  /-- FUSE_SVN: FW_FUSE kind 3 raises the anti-rollback counter (R425) -/
  | fuseSvn (h : DescHdr) (target : Nat) (x : Ext)
  /-- FUSE_REVOKE_INTEGRATOR: FW_FUSE kind 4 revokes an integrator key slot (R433) -/
  | fuseRevokeIntegrator (h : DescHdr) (index : Nat) (o : Buf) (x : Ext)
  /-- FUSE_REVOKE_KOLHIDEX: FW_FUSE kind 5 revokes a Kolhidex key (R433) -/
  | fuseRevokeKolhidex (h : DescHdr) (index : Nat) (o : Buf) (x : Ext)
  /-- FW_TOKEN_NONCE: FW_TOKEN mode 0 writes a single-use nonce (R434) -/
  | fwTokenNonce (h : DescHdr) (o : Buf)
  /-- FW_TOKEN_UNLOCK: FW_TOKEN mode 1 verifies a token and unlocks test modes (R434) -/
  | fwTokenUnlock (h : DescHdr) (o : Buf) (x : Ext)
  /-- ZEROISE_VOLATILE: FW_ZEROISE mode 0 clears Vault volatile secrets and restarts Vault (R420) -/
  | zeroiseVolatile (h : DescHdr) (key : Nat)
  /-- ZEROISE_PERMANENT: FW_ZEROISE mode 1 blows the permanent zeroisation fuse (R420) -/
  | zeroisePermanent (h : DescHdr) (key : Nat) (x : Ext)
  /-- FW_BOOT: Vault verifies an image and starts the firmware cores (R426) -/
  | fwBoot
  /-- FW_CORE_HANG: A firmware core misses its 100 us watchdog (R415) -/
  | fwCoreHang (core : Fin 34)
  /-- FW_CORE_BACK: A restarted Teller takes its clusters back after 1,024 clean frames (R415) -/
  | fwCoreBack (t : ClusterId)
  /-- FW_VAULT_RESTART: Vault's 10 ms watchdog restarts Vault from ROM (R415) -/
  | fwVaultRestart (result : Nat)
  /-- ENTER_LP: A Teller whose clusters are stopped 1 ms sleeps (R416) -/
  | enterLp (t : ClusterId)
  /-- EXIT_LP: A sleeping Teller wakes on a needing event (R416) -/
  | exitLp (t : ClusterId)
  /-- AUD_TEST: AUD_TEST takes out and tests a unit (R453) -/
  | audTest (h : DescHdr) (kind index : Nat) (ret force : Bool)
  /-- AUD_REMOVE: AUD_REMOVE takes a unit out without a test (R453) -/
  | audRemove (h : DescHdr) (kind index : Nat) (ret force : Bool)
  /-- AUD_RETURN: AUD_RETURN returns a PASSED unit to service (R453) -/
  | audReturn (h : DescHdr) (kind index : Nat)
  /-- AUD_TEST_DONE: An Audit test finishes with pass or fail (R453) -/
  | audTestDone (fail : Option (Nat × Nat))
  /-- AUD_SCHEDULE: Every PERIOD_S the next enabled unit is tested (R455) -/
  | audSchedule
  /-- AUD_SCHED_WRITE: A write of AUD_SCHED sets automatic Audit (R455) -/
  | audSchedWrite (v : Word)
  /-- AUD_CTRL_CLR: AUD_CTRL.CLR clears Audit counts (R464) -/
  | audCtrlClr
  /-- EXTEST: EXTEST drives pads from the boundary register if rails allow (R460) -/
  | extest
  /-- IDCODE: IDCODE selects the identification register (R459) -/
  | idcode
  /-- SAMPLE_PRELOAD: SAMPLE/PRELOAD captures pad levels (R459) -/
  | samplePreload
  /-- CLAMP: CLAMP holds outputs from the boundary register (R460) -/
  | clamp
  /-- HIGHZ: HIGHZ releases outputs (R460) -/
  | highz
  /-- BYPASS: BYPASS selects the 1-bit bypass (R459) -/
  | bypass
  /-- WS_BYPASS: WS_BYPASS selects the wrapper bypass (R461) -/
  | wsBypass
  /-- WS_IDCODE: WS_IDCODE reads the IDCODE value (R461) -/
  | wsIdcode
  /-- MBIST_READ: MBIST_READ shifts out the memory BIST result (R462) -/
  | mbistRead
  /-- WS_SAFE: WS_SAFE places ports at power-up hold states (R461) -/
  | wsSafe
  /-- WS_EXTEST: WS_EXTEST drives and captures the wrapper boundary (R461) -/
  | wsExtest
  /-- WS_INTEST_SCAN: WS_INTEST_SCAN selects internal scan chains (R461) -/
  | wsIntestScan
  /-- MBIST_RUN: MBIST_RUN starts memory BIST (R462) -/
  | mbistRun
  /-- MBIST_DONE: Memory BIST completes and records group failures (R462) -/
  | mbistDone (fail : Fin 256)
  /-- REGISTER_WRITE: A write to a register without behaviour of its own stores or discards under its access code (R10) -/
  | registerWrite (addr : Word) (v : HsWrite)
  /-- MALFORMED_REQUEST: An engine-port request with a reserved opcode, a non-zero unused field or an unconfigured EP_SRC is answered with the malformed-request status and has no other effect (R41) -/
  | malformedRequest (lane : ClusterId) (r : EpReq)
  /-- SHORT_INTERVAL: Two CKREF edges less than 0.5 reference period apart declare loss while stable, or only restart the judgement windows while not yet stable (R97) -/
  | shortInterval
  /-- HM_RST_N_RELEASE: HM_RST_N going high lets the block resume issuing its queued manager-port work (R39) -/
  | hmRstNRelease
  /-- EXTENSION_END: A leaf's droop cycle extension ends after its k-th extended cycle and CLK_DOM_STAT.EXT clears (R113) -/
  | extensionEnd (d : DomId)
  /-- SLOT_START: A slot whose executor is idle starts when its start offset after the frame boundary is reached (R80) -/
  | slotStart (slot : Fin 256)
  /-- VREF_STEP: V_ref (and V_pp) moves one 0.25 mV step towards its target at the interval set by the rail's slew (R151) -/
  | vrefStep (r : RailId) (trk : Fin 65536)
  /-- BORROWED_LEASE_EXPIRY: A borrowed lease reaches its local expiry E and leaves the borrowed table, freeing its entry on the link (R354) -/
  | borrowedLeaseExpiry (l : Fin 65) (id : Nat)
  /-- AUTO_ZERO: Every 1 s a shed phase is auto-zeroed from 16 captures, with V0_p updated or ISN_ZERO_RANGE raised (R135) -/
  | autoZero (p : PhaseId) (captures : List (Fin 4096))
  /-- SECTOR_ERASE_DONE: A serial NOR sector erase of the fault-record ring, either ahead of use or in ring initialisation, completes, and the ring becomes ready (R197) -/
  | sectorEraseDone
  /-- VAULT_READY: Vault, restarted from ROM, finishes its self-tests and offers services again, so descriptors needing it no longer complete with FW_BUSY (R415) -/
  | vaultReady
  /-- FW_SELFTEST_FAIL: A continuous repetition-count or adaptive-proportion test fails on an entropy sample while Vault runs, putting Vault in ERROR with a latched alarm (R419) -/
  | fwSelftestFail (test : Nat)
deriving DecidableEq, Repr

end Sys2Proof
end

