-- ==== Sys2Proof/Decode.lean ====
section
/-!
DEFINITION. Decoding of the table's words. Every row of the opcode table has an empty list of fields: the table gives
its rows no bits, so no word spells a command.
-/
namespace Sys2Proof

/-- The command that the `nbits`-bit word `w` spells by the table's bits: none, since no row gives bits. -/
def decodeTableWord (_nbits _w : Nat) : Option Instr := none

end Sys2Proof
end

