-- ==== Sys2Proof/Machine/Tbl.lean ====
section
/-!
DEFINITION. Sparse tables: the registers, buffers and addressed stores of the block that are numbered, held as lists of
(index, entry) pairs with rising indices and no entry equal to what an unlisted index reads as.
-/
namespace Sys2Proof.Machine

/-- A numbered store in canonical form: rising indices, no entry equal to the default. -/
abbrev Tbl (α : Type) := List (Nat × α)

/-- The entry at index `k`; `d` is what an unlisted index reads as. -/
def Tbl.get {α : Type} (d : α) : Tbl α → Nat → α
  | [], _ => d
  | (j, v) :: t, k => if j = k then v else Tbl.get d t k

/-- Put a listed entry at index `k`, in order. -/
def Tbl.insert {α : Type} : Tbl α → Nat → α → Tbl α
  | [], k, v => [(k, v)]
  | (j, w) :: t, k, v =>
    if k < j then (k, v) :: (j, w) :: t
    else if k = j then (k, v) :: t
    else (j, w) :: Tbl.insert t k v

/-- Take index `k` out of the list. -/
def Tbl.erase {α : Type} : Tbl α → Nat → Tbl α
  | [], _ => []
  | (j, w) :: t, k => if j = k then Tbl.erase t k else (j, w) :: Tbl.erase t k

/-- Store `v` at index `k`, keeping the canonical form. -/
def Tbl.set {α : Type} [DecidableEq α] (d : α) (t : Tbl α) (k : Nat) (v : α) : Tbl α :=
  if v = d then Tbl.erase t k else Tbl.insert t k v

/-- Change the entry at index `k`. -/
def Tbl.upd {α : Type} [DecidableEq α] (d : α) (t : Tbl α) (k : Nat) (f : α → α) : Tbl α :=
  Tbl.set d t k (f (Tbl.get d t k))

/-- Indices rising from above `lo` and no entry equal to the default. -/
def Tbl.wfFrom {α : Type} [DecidableEq α] (d : α) : Tbl α → Option Nat → Bool
  | [], _ => true
  | (j, v) :: t, none => v ≠ d && Tbl.wfFrom d t (some j)
  | (j, v) :: t, some lo => lo < j && v ≠ d && Tbl.wfFrom d t (some j)

/-- The canonical form of a table. -/
def Tbl.wf {α : Type} [DecidableEq α] (d : α) (t : Tbl α) : Bool := Tbl.wfFrom d t none

/-- The indices below `n` whose entry satisfies `p`. -/
def idxWhere (n : Nat) (p : Nat → Bool) : List Nat := (List.range n).filter p

end Sys2Proof.Machine
end

