-- ==== Sys2Proof/Machine/State.lean ====
section
/-!
DEFINITION. The state of the block as plain data: one structure per subsystem, every register, queue, counter and pin
the spec names; the faults and refusals; and the state right after a cold reset.
-/
namespace Sys2Proof.Machine

/-- Why the machine stops. The block has no behaviour at its ports that the spec leaves without an effect, so no
meaning ends in a fault; the constructor keeps the interface's shape. Raised by no one; safe. -/
inductive Fault where
  | unreachable
deriving DecidableEq, Repr

/-- Why a command has no meaning. -/
inductive Refusal where
  /-- Raised by the dispatch for a command that is not modelled yet; safe. -/
  | notModelled (mnemonic : String)
deriving DecidableEq, Repr

/-- A record of Ledger (Table 15.7). -/
structure LRec where
  code : Nat := 0
  source : Nat := 0
  hold : Bool := false
  lost : Bool := false
  seq : Nat := 0
  time : Nat := 0
  p0 : Nat := 0
  p1 : Nat := 0
  p2 : Nat := 0
  p3 : Nat := 0
deriving DecidableEq, Repr

/-- Ledger: store, positions, source queues and the hardwired window (R402–R407). -/
structure Ledger where
  w : Nat := 0
  r : Nat := 0
  seq : Nat := 0
  drop : Nat := 0
  qlost : Nat := 0
  eccUnc : Nat := 0
  store : Tbl LRec := []
  /-- the queue of 8 records of each source (R403) -/
  queues : Tbl (List LRec) := []
  /-- the source lost records before its next stored one -/
  lostFlag : Tbl Bool := []
  /-- when the source's last LDG_QUEUE_LOSS was written -/
  lossTime : Tbl (Option Nat) := []
  /-- the source the round-robin served last -/
  rr : Nat := 0
  buf : LRec := {}
  bufBad : Bool := false
  bufSlot : Nat := 0
  bufValid : Bool := false
  /-- slots whose uncorrectable error has been read once (LDG_ECC) -/
  eccSeen : Tbl Bool := []
deriving DecidableEq, Repr

/-- A transfer in progress on a DMA channel. -/
structure Xfer where
  op : XferOp
  /-- the descriptor to complete at its end, if any -/
  hdr : Option DescHdr := none
  /-- the opcode of that descriptor -/
  opcode : Nat := 0
  /-- start time of the transfer -/
  start : Nat := 0
  /-- bytes written so far -/
  written : Nat := 0
  /-- the transfer reads the capture -/
  capture : Bool := false
  /-- FREC_COPY or LDG_DRAIN: first slot and count -/
  first : Nat := 0
  num : Nat := 0
  back : Bool := false
  /-- offsets of the table (modes 1 and 2), and the telemetry image latched at the start (R392) -/
  table : List Nat := []
  img : List Nat := []
  /-- stream period index that the transfer serves -/
  period : Nat := 0
deriving DecidableEq, Repr

/-- One DMA channel (Table 15.11). -/
structure DmaChan where
  mode : Nat := 0
  busy : Bool := false
  armed : Bool := false
  last : Nat := 0
  done : Nat := 0
  fail : Nat := 0
  ovr : Nat := 0
  seq : Nat := 0
  xfer : Option Xfer := none
  /-- the armed stream's operand, its arming time and the index of the next period -/
  stream : Option XferOp := none
  table : List Nat := []
  armTime : Nat := 0
  n : Nat := 0
  buffers : Nat := 0
  overrun : Bool := false
  lastOvrRec : Option Nat := none
  /-- sweeps lost to freezes since the previous trailer -/
  gap : Nat := 0
  /-- a STOP came while a transfer was in progress; its descriptor, if any -/
  stopping : Bool := false
  stopHdr : Option DescHdr := none
deriving DecidableEq, Repr

/-- The DMA engine and the current capture (R390–R400). -/
structure Dma where
  chan : Tbl DmaChan := []
  chSel : Nat := 0
  run : Bool := true
  /-- the words of the telemetry space outside the capture, as latched at the last frame commit (R392) -/
  image : List Nat := []
  /-- the last 256 sweeps, oldest first: the entry of each phase (R393) -/
  sweeps : List (Tbl Nat) := []
deriving DecidableEq, Repr

/-- A completion entry (Table 14.3). -/
structure Cqe where
  tag : Nat
  status : Nat
  sqHead : Nat
  result : Nat
  opcode : Nat
  phase : Bool
  event : Bool
  hold : Bool
  evtLost : Bool
deriving DecidableEq, Repr

/-- A posted write that leaves on the manager port (R37). -/
inductive HmWrite where
  /-- one beat: the 16 bytes of a completion-ring entry, from the lowest address (R6, R374) -/
  | cqe (ctx addr : Nat) (b : List Nat)
  | irq (ctx addr data : Nat)
  /-- `n` bytes from `addr`, as little-endian 32-bit words -/
  | words (addr : Nat) (w : List Nat)
  /-- bytes from `addr` -/
  | bytes (addr : Nat) (b : List Nat)
  /-- elements of host memory moved by a transfer to `addr` -/
  | copy (src dst n : Nat)
  /-- a Clearing message in the 128-byte slot at `addr` -/
  | msg (addr : Nat) (w : List Nat)
deriving DecidableEq, Repr

/-- What a non-posted request of the manager port is for. -/
inductive HmPurpose where
  | dma (chan : Nat)
  | page (set page : Nat)
  /-- the subsystem that asked has given up: the response is discarded; the channel that the request belongs to -/
  | dropped (chan : Nat)
deriving DecidableEq, Repr

/-- A part of host memory that is still to be read: `len` bytes from `addr`, in whole beats of 16 bytes (R36). -/
structure HmRead where
  purpose : HmPurpose
  addr : Nat
  len : Nat
deriving DecidableEq, Repr

/-- An outstanding or failed non-posted request (R36, R38): `HM_QADDR`, and how many beats `HM_QLEN` asks for. -/
structure HmReq where
  purpose : HmPurpose
  addr : Nat := 0
  beats : Nat := 1
  issued : Nat
  failed : Option Nat := none
deriving DecidableEq, Repr

/-- The host manager port. -/
structure HmPort where
  inReset : Bool := false
  /-- posted writes issued, in order of issue -/
  out : List HmWrite := []
  /-- posted writes that wait for `HM_RST_N` to go high (R39) -/
  held : List HmWrite := []
  reqs : Tbl (Option HmReq) := []
  /-- reads that wait for a free tag, for their channel or for the end of the port reset, in the order of their turns -/
  waiting : List HmRead := []
deriving DecidableEq, Repr

/-- A response of the engine port (R42). -/
structure EpResp where
  rsrc : Nat
  rq : Nat
  rstat : Nat
  rval : Nat
deriving DecidableEq, Repr

/-- One lane of the engine port (R44). -/
structure EpLane where
  resp : List EpResp := []
  /-- requests whose acknowledge is withheld -/
  withheld : List EpReq := []
deriving DecidableEq, Repr

/-- The host subordinate port: responses not yet taken (code of Table 2.3, data), at most 4 (R32). -/
structure HsPort where
  resp : List (Nat × Nat) := []
  /-- the `_HI` half latched by the last `_LO` read, by register address (R11) -/
  latch : Tbl Nat := []
  /-- the digest words latched by ID_FW_DIGEST0 (R470) -/
  digest : List Nat := []
deriving DecidableEq, Repr

/-- One update of the ceiling port that has been issued. -/
structure CpUpd where
  num : Nat
  issued : Nat
  /-- the ceiling it carried -/
  ceil : Nat
deriving DecidableEq, Repr

/-- The ceiling port of one cluster (Table 2.7, R45, R46). -/
structure CpPort where
  ceil : Nat := 0
  slope : Nat := 4
  div : Nat := 0
  dpend : Bool := false
  /-- number of the last update; `CP_SEQ` is this modulo 16 -/
  num : Nat := 0
  /-- updates not yet covered by an echo, oldest first -/
  open_ : List CpUpd := []
  /-- the update that first carries the backstop divider; on-time updates are counted after it -/
  backFrom : Option Nat := none
  onTime : Nat := 0
  act : Nat := 0
  lim : Bool := false
deriving DecidableEq, Repr

/-- A tenant context and its rings (R370–R383). -/
structure Ctx where
  /-- 0 CLOSED, 1 OPEN, 2 ERROR -/
  st : Nat := 0
  sqLog : Nat := 0
  cqLog : Nat := 0
  irqEn : Bool := false
  schedW : Nat := 0
  winLog : Nat := 0
  winBase : Nat := 0
  sqBase : Nat := 0
  cqBase : Nat := 0
  irqAddr : Nat := 0
  irqData : Nat := 0
  sqHead : Nat := 0
  sqTail : Nat := 0
  cqHead : Nat := 0
  cqTail : Nat := 0
  /-- a long descriptor in progress -/
  busy : Bool := false
  /-- a CTX_CLOSE or `EN` = 0 waits for the descriptor in progress -/
  closing : Option DescHdr := none
  closeC0 : Bool := false
  done : Nat := 0
  evtLost : Nat := 0
  evtLostFlag : Bool := false
  evtLostRec : Option Nat := none
  last : Nat := 0
  cause : Nat := 0
  irqLast : Option Nat := none
  irqWait : Bool := false
  /-- when the first fetch of the descriptor at `SQ_HEAD` failed -/
  fetchFail : Option Nat := none
  waitsFailed : Nat := 0
deriving DecidableEq, Repr

/-- The host interface (Table 14.11). -/
structure Hif where
  hostVer : Nat := 0
  featHostLo : Nat := 0
  featHostHi : Nat := 0
  negDone : Bool := false
  negStatus : Nat := 0
  featEn : Nat := 0
  mismatch : Bool := false
  c0Ring : Nat := 0x00FF0066
  c0SqLo : Nat := 0
  c0SqHi : Nat := 0
  c0CqLo : Nat := 0
  c0CqHi : Nat := 0
  c0IrqLo : Nat := 0
  c0IrqHi : Nat := 0
  c0IrqData : Nat := 0
  evtMask : Nat := 0
  irqGap : Nat := 8
  dbBad : Nat := 0
  dbDrop : Nat := 0
  ctxSel : Nat := 0
  ctx : Tbl Ctx := []
  /-- the context whose turn it is in the deficit round-robin and the descriptors left of its quantum -/
  turn : Nat := 0
  left : Nat := 0
deriving DecidableEq, Repr

/-- Supplies (good or not, Table 2.17), resets, straps, alert pads and the hardwired limit registers (R21–R30, R58, R63–R71,
Table 18.3). -/
structure Power where
  vaon : Bool := true
  vana : Bool := true
  vio : Bool := true
  porstLow : Bool := false
  wrstLow : Bool := false
  /-- the last completed step of Table 1.9; 0 is the power-up hold -/
  step : Nat := 2
  vsel : Nat := 7
  refsel : Nat := 2
  cause : Nat := 0
  warmCnt : Nat := 0
  /-- VANA loss holds until the next cold reset (R69) -/
  vanaLoss : Bool := false
  vfuseHi : Bool := false
  pfailLow : Bool := false
  /-- emulated ranges answer other than NOT_READY -/
  emuReady : Bool := false
  /-- a warm reset waits for the fault-record commit in progress (R26) -/
  fwWait : Bool := false
  /-- a warm reset that follows the completion of its descriptor, by its cause (R379, R427) -/
  wantWarm : Option Nat := none
  /-- a wrapper instruction or MBIST_RUN holds the block until a cold reset (R463) -/
  testHold : Bool := false
  alertExt : Bool := false
  throtExt : Bool := false
  hotExt : Bool := false
  alarm : Nat := 0
  limThrot : Nat := 0
  limEff : Nat := 0
  limP : Nat := 0
deriving DecidableEq, Repr

/-- The timebase (R72–R76). -/
structure TimeBase where
  /-- block time counts on the holding oscillator -/
  hold : Bool := true
  refSeen : Bool := false
  /-- when the current or last holdover began, and the length of the last one when it has ended -/
  holdStart : Nat := 0
  holdEnd : Option Nat := none
  holdCnt : Nat := 1
  stepPs : Nat := 0
  stepMaxPs : Nat := 0
deriving DecidableEq, Repr

/-- What a slot of the running frame is doing. -/
inductive SlotRun where
  | off | idle | running | done | missed | shed
deriving DecidableEq, Repr

/-- Run-time registers of one slot (R83, R84, Table 3.6). -/
structure SlotRt where
  slack : Int := 0
  minSlack : Int := 0x7FFFFFFF
  consec : Nat := 0
  total : Nat := 0
  /-- the current run of misses, unsaturated, for SLOT_RECOVER -/
  runLen : Nat := 0
  /-- consecutive runs that met their deadline, counted while a backstop holds (R85) -/
  good : Nat := 0
  run : SlotRun := .off
  startedAt : Nat := 0
deriving DecidableEq, Repr

/-- The R85 backstop of a cluster. -/
structure Backstop where
  active : Bool := false
  since : Nat := 0
deriving DecidableEq, Repr

/-- Frames, slots and shedding (R77–R89). -/
structure Frames where
  /-- n of the running frame (R77), and the frames since cold reset as `CLK_FRM_COUNT` shows them (log entry 82) -/
  number : Nat := 0
  count : Nat := 0
  started : Bool := false
  inFrame : Bool := false
  frameStart : Nat := 0
  missFrames : Nat := 0
  missedThis : Bool := false
  /-- a slot of class LIMIT or SELECT has missed in this frame (R437) -/
  vitalMiss : Bool := false
  /-- a frame has been committed since the last reset -/
  metered : Bool := false
  wslack : Int := 0x7FFFFFFF
  level : Nat := 0
  consec : Nat := 0
  shedCnt : Nat := 0
  floor : Nat := 0
  required : Nat := 1024
  clean : Nat := 0
  /-- when the last RESTORE lowered the level, and from which level -/
  lastRestore : Option (Nat × Nat) := none
  lastShed : Option Nat := none
  hostRestore : Bool := false
  /-- the slot table in force, if one is -/
  table : Option (List SlotEntry) := none
  /-- a table admitted and waiting for the next frame boundary (R82) -/
  nextTable : Option (List SlotEntry) := none
  rt : Tbl SlotRt := []
  /-- SELECT and ALLOC slots that have completed in this frame, oldest first: their results wait for the commit (R78) -/
  done : List Nat := []
  slotSel : Nat := 0
  backstop : Tbl Backstop := []
deriving DecidableEq, Repr

/-- The reference and its judgement (R95–R101). -/
structure Ref where
  present : Bool := false
  stable : Bool := false
  drift : Bool := false
  quorum : Bool := false
  lossCause : Nat := 0
  goodWin : Nat := 0
  freqKHz : Nat := 0
  lossCnt : Nat := 0
  lossTime : Nat := 0
  /-- after a loss of cause drift, a measurement below 150 ppm is still needed (R96) -/
  needDrift : Bool := false
  driftPpm : Int := 0
  peers : Nat := 0
  below150 : Nat := 0
  quorumLost : Bool := false
  deratePpm : Nat := 0
  /-- a derate of one root step is requested; the two forms in which one is in force (R100) -/
  derateReq : Bool := false
  derateRoot : Bool := false
  derateDiv : Bool := false
  preDerateN : Nat := 0
deriving DecidableEq, Repr

/-- A root change in progress (R106): `phase` 1 leaves, 2 PWM to the oscillator, 3 relock, 4 PWM back to the root. -/
structure RootChange where
  oldN : Nat
  newN : Nat
  /-- 0 Treasury, 1 drift, 2 host, 3 return after loss -/
  cause : Nat
  phase : Nat
  relockStart : Nat := 0
  lockTime : Nat := 0
  /-- relocking to the old N after a first relock failed (R107) -/
  retry : Bool := false
  /-- 0 a change of a locked root, 1 the first lock, 2 the lock after a loss, 3 a retry after PLL_FAIL -/
  kind : Nat := 0
deriving DecidableEq, Repr

/-- The root PLL (R102–R108). -/
structure Root where
  nCur : Nat := 0
  locked : Bool := false
  guard : Bool := false
  held : Bool := true
  nTgt : Nat := 0
  everLocked : Bool := false
  change : Option RootChange := none
  waiting : Option (Nat × Nat) := none
  lastEnd : Option Nat := none
  pllFail : Bool := false
  failTime : Nat := 0
  /-- the kind of the lock whose failure led to PLL_FAIL (R107) -/
  failKind : Nat := 0
  /-- the newest requested N is the host's and not yet in force (R116) -/
  hostPend : Bool := false
  reqN : Nat := 0
  res : Nat := 0
deriving DecidableEq, Repr

/-- A divider leaf and its head (R109–R113). Dividers are held as the code D − 1. -/
structure Dom where
  cur : Nat := 0
  tgt : Nat := 0
  guard : Nat := 0
  /-- a code sent and not yet acknowledged -/
  sent : Option Nat := none
  /-- a stop command sent and not yet acknowledged -/
  stopSent : Bool := false
  stopped : Bool := true
  ext : Bool := false
  extCnt : Nat := 0
  /-- cycles of the extension that were left at `extAt` (R113) -/
  extLeft : Nat := 0
  extAt : Nat := 0
  /-- the newest command over `DCTL`, when it was sent, and whether its acknowledgement is still to come (R110, R112) -/
  cmdAt : Nat := 0
  cmdOpen : Bool := false
  failed : Bool := false
  failTime : Nat := 0
  /-- a retry of the failed leaf is being judged (R112) -/
  testing : Bool := false
  /-- the domain is in the raised condition of R109 -/
  limited : Bool := false
  /-- the acknowledgement of a lowering divider has arrived: the lower voltage may follow at the next commit (R110) -/
  acked : Bool := true
  /-- a raise waits for REACHED -/
  raiseWait : Bool := false
deriving DecidableEq, Repr

/-- Clocks (Table 4.4). -/
structure Clocks where
  ref : Ref := {}
  root : Root := {}
  dom : Tbl Dom := []
  domSel : Nat := 0
  oscKHz : Nat := 0
  oscSubst : Bool := false
deriving DecidableEq, Repr

/-- One limit loop of a cluster (Tables 9.1, 9.9). -/
structure LoopSt where
  auto : Bool := false
  man : Nat := 0
  /-- the target; loops 0 and 1 have none until Treasury's first allocation (R242) -/
  tgt : Option Nat := none
  ki : Nat := 0
  kim : Nat := 0
  rth : Nat := 0
  n : Nat := 8
  nret : Nat := 64
  tsat : Nat := 100
  satFb : Bool := false
  fbForce : Bool := false
  margin : Nat := 0
  mofs : Int := 0
  limProg : Nat := 0
  obsProg : Nat := 0
  fallback : Bool := false
  fbCause : Nat := 0
  fbLatch : Bool := false
  fbSince : Nat := 0
  /-- entries of cause 1 within the last second (R252) -/
  c1Times : List Nat := []
  /-- saturated since; unsaturated since -/
  satSince : Option Nat := none
  unsatSince : Nat := 0
  satFlag : Bool := false
  limiting : Bool := false
  innov : Nat := 0
  /-- consecutive frames with an estimate committed and |r|max at or below `RTH` (R251) -/
  clean : Nat := 0
  /-- consecutive frames without a committed estimate (R250) -/
  missEst : Nat := 0
  hasEst : Bool := false
  raw : Int := 0
  out : Nat := 0
  qhat : Int := 0
  qmeas : Option Int := none
  k : Int := 0
  kp : Int := 0
  f : Nat := 0
  fp : Nat := 0
  /-- the next frame is the loop's first automatic one (R242) -/
  firstAuto : Bool := false
  /-- the loop's form has changed: kp and fp are set to k and f before the next increment -/
  reform : Bool := false
  fbCnt : Nat := 0
  satCnt : Nat := 0
deriving DecidableEq, Repr

/-- A mode change that waits for the next frame boundary (R246). -/
structure ModeChange where
  loop : Nat
  auto : Bool
  useMan : Bool
  man : Nat
deriving DecidableEq, Repr

/-- State of one cluster (Table 9.9, R259–R263). -/
structure Clu where
  /-- 0 STOPPED, 1 RUN, 2 HOLD -/
  st : Nat := 0
  /-- causes that keep the cluster STOPPED: bit 0 no control start, 1 reference, 2 rail, 3 leaf, 4 PLL, 5 VANA -/
  stopRef : Bool := false
  stopPll : Bool := false
  stopRail : Bool := false
  stopLeaf : Bool := false
  stopVana : Bool := false
  /-- control start has been issued since the last reset -/
  started : Bool := false
  /-- control had started before a warm reset: the cluster returns to HOLD, not to RUN, until control start (R29, R260) -/
  warmHold : Bool := false
  /-- applied level and winner, in 1/256 level -/
  a : Nat := 0
  w : Nat := 0
  wloop : Nat := 7
  slopeAct : Bool := false
  cpLate : Option Nat := none
  overload : Bool := false
  tripPend : Option Nat := none
  dpend : Bool := false
  vreq : Nat := 0
  div : Nat := 0
  ceil : Nat := 0
  /-- the last fall of the ceiling came from a hardware authority: STEP_DOWN -/
  stepDown : Bool := false
  /-- the limit gate altered the row in force -/
  gated : Bool := false
  up : Nat := 16
  dn : Nat := 32
  vft : Tbl VftRow := []
  vftNext : Option (Tbl VftRow) := none
  holdCause : Nat := 0
  holdSince : Nat := 0
  /-- mode changes waiting for the boundary, oldest first -/
  modes : List ModeChange := []
  /-- sums of `ACT` and `LIM` over the updates of the frame, and how many there were (R238) -/
  actSum : Nat := 0
  limSum : Nat := 0
  actN : Nat := 0
  actMean : Nat := 0
  limFrac : Nat := 0
  /-- apportioned current and power, 1/8 A and 1/8 W -/
  iApp : Nat := 0
  pApp : Nat := 0
  /-- the parts of `iApp` by rail -/
  iParts : Tbl Nat := []
  /-- the SELECT result of the running frame, visible at its commit: a, w, winning loop, slope limiter acted -/
  next : Option (Nat × Nat × Nat × Bool) := none
  /-- extensions of the domain in each of the last 64 frames, newest first -/
  exts : List Nat := []
  extLast : Nat := 0
  /-- mean `ACT` of the last 16 frames and apportioned current of the last 8, newest first (Table 10.2) -/
  actHist : List Nat := []
  curHist : List Nat := []
deriving DecidableEq, Repr

/-- The loops (R236–R265): loop j of cluster c is at index 8c + j. -/
structure Loops where
  clu : Tbl Clu := []
  loop : Tbl LoopSt := []
  clSel : Nat := 0
  sel : Nat := 0
  vftSel : Nat := 0
  /-- accepted writes of locked registers that wait for the frame boundary: cluster, loop (7 for a cluster register),
  register offset, value (R247) -/
  writes : List (Nat × Nat × Nat × Nat) := []
  res : Nat := 0
deriving DecidableEq, Repr

/-- A rail: regulation (Table 6.5) and protection (Table 7.11). Currents are 1/8 A, voltages 0.25 mV, times ns. -/
structure Reg where
  slew : Nat := 40
  /-- registers as written, and the values in force since the rail's last start (R145) -/
  comp : CompRegs := {}
  act : CompRegs := {}
  shed : ShedRegs := {}
  target : Nat := 0
  vref : Nat := 0
  vreq : Nat := 0
  /-- the host's target under `RAIL_VREQ` (R153) -/
  host : Option Nat := none
  /-- a target that a hardware condition forces (R150) -/
  forced : Option Nat := none
  /-- the forced target is that of set 7, kept until the loops raise a cluster of the rail again (R120) -/
  set7 : Bool := false
  hold : Bool := false
  reached : Bool := false
  /-- compensator history: e[n−1], e[n−2] and u[n−1], u[n−2], u[n−3], in 2^−24 -/
  e1 : Int := 0
  e2 : Int := 0
  u1 : Int := 0
  u2 : Int := 0
  u3 : Int := 0
  vpp : Nat := 0
  vppTgt : Nat := 0
  /-- ΔI of the last delivery; ΔI of the pre-position in force and the current at its start (R159) -/
  di : Nat := 0
  ppDi : Nat := 0
  ppBase : Nat := 0
  ppArrived : Option Nat := none
  ppZero : Nat := 0
  lastFc : Option Nat := none
  nlLo : Bool := false
  nlHi : Bool := false
  nlLast : Option Nat := none
  brake : Option Nat := none
  brakeEnd : Option Nat := none
  brakePeak : Nat := 0
  brakeRec : Bool := false
  /-- diode emulation fired on a phase in the running frame, and in the last one -/
  deFired : Bool := false
  deLast : Bool := false
  /-- when V_ref last moved a step (R151), and when a phase was last removed (R157) -/
  stepAt : Option Nat := none
  lastRemove : Option Nat := none
deriving DecidableEq, Repr

/-- Measurement and telemetry of a rail (R132, R154, R164, R166, R187). -/
structure RailMeas where
  /-- conversions since the last one that an Audit test of the rail's voltage ADC took (Table 17.3) -/
  audN : Nat := 0
  code : Nat := 0
  v : Nat := 0
  ovrHi : Bool := false
  ovrLo : Bool := false
  ovrCnt : Nat := 0
  ovrRec : Option Nat := none
  /-- the newest sample is the previous one repeated for a calibration slot (R132) -/
  cal : Bool := false
  /-- background calibration: gain error in ppm and offset in µV (R132) -/
  gPpm : Int := 0
  oUv : Int := 0
  /-- the last 8 voltage conversions, newest first -/
  vLast : List Nat := []
  vSum : Nat := 0
  vN : Nat := 0
  vMin : Option Nat := none
  iRail : Nat := 0
  pRail : Nat := 0
  /-- the last 4 values of I_rail, newest first (I_m of R157) -/
  iLast : List Nat := []
  iSum : Nat := 0
  pSum : Nat := 0
  iN : Nat := 0
  telMean : Nat := 0
  telLow : Nat := 0
  telI : Nat := 0
  telP : Nat := 0
  iPk : Nat := 0
  pPk : Nat := 0
  brkCnt : Nat := 0
  nlCnt : Nat := 0
  vins : List Nat := []
  vinLast : Nat := 0
  vinNom : Bool := true
  /-- no reading has been accepted for 100 ms, since VIN_STALE (R164) -/
  vinStale : Bool := false
  vinAccept : Nat := 0
  vinRangeRec : Option Nat := none
  vmaxRec : Option Nat := none
  /-- the last 2,000 values of I_rail, newest first (1 ms mean of R187) -/
  iMs : List Nat := []
  iAvg : Nat := 0
  /-- largest feed-forward-eligible forecast at 4, 8 and 16 µs (I_f of R157) -/
  iFc : Nat := 0
  removeSince : Option Nat := none
  shiftSince : Option Nat := none
  shiftRec : Option Nat := none
deriving DecidableEq, Repr

/-- Protection state of a rail (R170–R195). -/
structure RailProt where
  /-- state of Table 7.1 -/
  st : Nat := 0
  ol : Option Nat := none
  olt : Nat := 0
  /-- the mean has been above I_OL since -/
  olAbove : Option Nat := none
  cause : Nat := 0
  latched : Bool := false
  /-- times of the fault stops of the sliding hour (R192) -/
  stops : List Nat := []
  startT : Nat := 0
  startAt : Nat := 0
  rampAt : Nat := 0
  rampNs : Nat := 0
  vStart : Nat := 0
  /-- a rail of mode 2 or 3 that started while its master ramped: it follows Table 7.2 in its master's group (R174) -/
  track : Bool := false
  senseOk : Bool := false
  onAt : Nat := 0
  /-- when V_ref reached 0 in RAMP_DOWN -/
  zeroAt : Option Nat := none
deriving DecidableEq, Repr

/-- A phase: modulation, sharing, measurement and protection. -/
structure Phase where
  /-- 0 unconfigured, 1 off, 2 active, 3 joining, 4 shed, 5 Audit, 6 disabled by protection, 7 unusable -/
  st : Nat := 0
  /-- diode emulation fired in the last period -/
  de : Bool := false
  /-- trim_p in 2^−19 of duty -/
  trim : Int := 0
  trimSince : Option Nat := none
  trimRec : Bool := false
  ton : Nat := 0
  offs : Nat := 0
  itgt : Nat := 0
  /-- share shift k_p in 1/51,200 -/
  shift : Int := 0
  /-- a joining phase: when the first of its 2 periods began (R158) -/
  joinAt : Option Nat := none
  /-- the period in force, in edge units (R147) -/
  per : Nat := 0
  pen : Bool := false
  pwm : Bool := false
  /-- the last rising edge of `PWM`; the falling edge that ends the on-time, or ended the last one (R147) -/
  riseAt : Option Nat := none
  fallAt : Nat := 0
  /-- on-time that the undershoot path has given since its entry, ns; it has ended diode emulation for this period (R160) -/
  nlOn : Nat := 0
  deEnd : Bool := false
  /-- diode emulation has fired in the running period -/
  deNow : Bool := false
  /-- the short-circuit comparator has turned the phase off for the rest of its period (R184) -/
  scOff : Bool := false
  /-- the phase's timebase is the holding oscillator -/
  osc : Bool := true
  code : Nat := 0
  i : Nat := 0
  ovr : Bool := false
  novr : Bool := false
  neg : Bool := false
  rep : Bool := false
  /-- the last clean sample, and the sample that metering uses (Table 5.3), signed 1/8 A -/
  clean : Int := 0
  meter : Int := 0
  /-- the sum of the 16 captures of the last auto-zero in range -/
  v0 : Nat := 0
  v0Nom : Bool := true
  azErr : Nat := 0
  ovrCnt : Nat := 0
  novrCnt : Nat := 0
  ovrRec : Option Nat := none
  temp : Int := 0
  tCode : Nat := 0
  tOvr : Bool := false
  tRec : Option Nat := none
  scLatch : Bool := false
  stage : Bool := false
  readback : Bool := false
  idFail : Bool := false
  idCause : Nat := 0
  rbKind : Nat := 0
  scTimes : List Nat := []
  scTotal : Nat := 0
  idi : Nat := 0
  pflt : Bool := false
deriving DecidableEq, Repr

/-- A start in progress (Table 7.3): `step` 2 PMBus, 3 sense, 4 identify, 5 ramps. -/
structure StartSeq where
  rails : Nat
  step : Nat
  began : Nat
  cold : Bool
  /-- next phase to identify -/
  next : Nat := 0
deriving DecidableEq, Repr

/-- A stop in progress (R179–R181). -/
structure StopSeq where
  rails : Nat
  fast : Bool
  cause : Nat
  /-- the rails that stop because their master does, with `CAUSE` 6 (R182) -/
  track : Nat := 0
  /-- fast stop: the level whose rails were stopped last, when the last of them was stopped, and when the last rail of
  the next higher level was -/
  level : Nat := 0
  lastStop : Nat := 0
  prevStop : Nat := 0
deriving DecidableEq, Repr

/-- The rails and phases (chapters 06 and 07). -/
structure Rails where
  reg : Tbl Reg := []
  meas : Tbl RailMeas := []
  prot : Tbl RailProt := []
  ph : Tbl Phase := []
  sel : Nat := 0
  phSel : Nat := 0
  res : Nat := 0
  pmbWord : Nat := 0
  pmbAddr : Nat := 0
  pmbFail : Nat := 0
  /-- bus timeouts recorded: how many, and the last one's address, command and time; recovery sequences of 9 clock pulses and a
  STOP issued (R59) -/
  pmbTmo : Nat := 0
  pmbTmoLast : Option (Nat × Nat × Nat) := none
  pmbRecov : Nat := 0
  /-- starts in progress, oldest first; one at a time checks and identifies -/
  starts : List StartSeq := []
  stops : List StopSeq := []
deriving DecidableEq, Repr

/-- A fault record (Table 7.9), without its CRC. -/
structure FRecord where
  flags : Nat := 0
  seq : Nat := 0
  time : Nat := 0
  inc : Nat := 0
  code : Nat := 0
  rail : Nat := 0
  phase : Nat := 0
  railsOn : Nat := 0
  railsOff : Nat := 0
  straps : Nat := 0
  trips : Nat := 0
  fwVer : Nat := 0
  v : List Nat := []
  i : List Nat := []
  target : List Nat := []
  tMax : Nat := 0
  tMaxSite : Nat := 0
  tStage : Nat := 0
  tStagePh : Nat := 0
  pPkg : Nat := 0
  cap : Nat := 0
  p0 : Nat := 0
  p1 : Nat := 0
  p2 : Nat := 0
  energy : Nat := 0
  vin : Nat := 0
  shed : Nat := 0
  clk : Nat := 0
  latchedPh : Nat := 0
deriving DecidableEq, Repr

/-- The serial NOR port (R61, R62): the device on it, `NV_CS_N` held high since power-up, the opcodes issued since the last
reset ahead of the first access to the array, and what the boot read from SFDP. -/
structure NvPort where
  dev : NvSfdp := {}
  csHigh : Bool := true
  cmds : List Nat := []
  sfdp : Option NvSfdp := none
deriving DecidableEq, Repr

/-- The fault-record writer, its ring in serial NOR (R196–R201) and the port to it. The ring survives every restart. -/
structure FRec where
  nv : NvPort := {}
  queue : List FRecord := []
  nvFail : Bool := false
  loaded : Bool := false
  init : Bool := false
  notCommit : Nat := 0
  overflow : Bool := false
  sel : Nat := 0
  win : List Nat := []
  slots : Tbl (Option FRecord) := []
  ptrSlot : Nat := 0
  ptrValid : Bool := false
  ptrSeq : Nat := 0
  /-- the entries of the two pointer sectors in the order they were programmed, at most 512 each: `SEQ`, `SLOT`, `CHECK`; the
  sector in use (R200) -/
  ptrs : List (List (Nat × Nat × Nat)) := [[], []]
  ptrSector : Nat := 0
  /-- the ring holds bytes that are neither a record nor an entry -/
  junk : Bool := false
  /-- the sectors of the ring being erased, in order -/
  erasing : List Nat := []
  ready : Bool := true
  /-- copies paused by a commit are left to the copy; time of the last commit -/
  lastCommit : Nat := 0
deriving DecidableEq, Repr

/-- A diode site (R121–R126, Table 5.6). Temperatures are 1/64 °C; `none` is a field that reads 0x8000 or 0. -/
structure Site where
  band : Nat := 0
  ovr : Bool := false
  pause : Nat := 0
  /-- the pause has run out and the first sample after it is still to come (R123) -/
  wait : Bool := false
  /-- block time of the conversion midpoint of the newest result (R121) -/
  stamp : Nat := 0
  excl : Bool := false
  ringFail : Bool := false
  noNeigh : Bool := false
  diff : Nat := 0
  meas : Option Int := none
  code : Nat := 0
  /-- the plausibility net's newest output -/
  netPred : Option Int := none
  net : Bool := false
  /-- the last 4 accepted values, newest first -/
  accepted : List Int := []
  lastCmd : Option Nat := none
deriving DecidableEq, Repr

/-- A droop detector (R127–R129). -/
structure Det where
  depth : Option Nat := none
  tap : Nat := 0
  deep : Nat := 0
  cnt : Nat := 0
  /-- fires since the last read, and fires read in this frame for the droop loop -/
  fires : Nat := 0
  frame : Nat := 0
  ringFail : Bool := false
  calFail : Bool := false
  /-- a tap rewrite is under way: 1 after a setpoint, temperature or depth change, 2 the first of a hardware start -/
  pend : Nat := 0
  tempAt : Int := 0
deriving DecidableEq, Repr

/-- An ageing monitor (R130, R131). A ratio of path delays is held in 10^-9. -/
structure Mon where
  /-- the baseline taken from serial NOR at the last cold reset -/
  base : Option Nat := none
  /-- the newest measured ratio -/
  ratio : Nat := 0
  /-- the last measurements in ppm of slowing, newest first, at most 64 -/
  meas : List Int := []
  ringFail : Bool := false
  noBaseRec : Bool := false
deriving DecidableEq, Repr

/-- Sensing (Table 5.6). -/
structure Sensing where
  excl : List Bool := [false, false, false]
  noMaj : Bool := false
  /-- consecutive comparisons that would exclude A, B or the stack, and that show no majority -/
  exclRun : List Nat := [0, 0, 0]
  noMajRun : Nat := 0
  /-- consecutive comparisons in which A and B, A and the stack, B and the stack agreed -/
  agree : List Nat := [0, 0, 0]
  dev : List Nat := [0, 0, 0]
  /-- no majority: the rails move to set 7 once these leaves have acknowledged -/
  set7Wait : Bool := false
  /-- what every ADC is scaled against since the last comparison; what the last broadcast gave the diode sites, and when -/
  scale : Nat := 0
  siteScale : Nat := 0
  bcast : Nat := 0
  bcastDue : Bool := false
  /-- failed rings by 16 · KIND + ring: first silent position and when the ring was last tried (R51) -/
  rings : Tbl (Option (Nat × Nat)) := []
  site : Tbl Site := []
  det : Tbl Det := []
  mon : Tbl Mon := []
  /-- baselines stored in serial NOR, taken at the next cold reset (R379) -/
  norBase : Tbl (Option Nat) := []
  siteSel : Nat := 0
  detSel : Nat := 0
  monSel : Nat := 0
  rvSel : Nat := 0
  phSel : Nat := 0
  /-- recovery conversions left per SAR (R136) -/
  recover : Tbl Nat := []
deriving DecidableEq, Repr

/-- A block of the state store: 16 K16 mantissas and their exponent (R206); the empty list is 16 zeros. -/
structure Blk where
  m : List Int := []
  e : Int := 0
deriving DecidableEq, Repr

/-- An installed program (R219, R221). -/
structure TlyProg where
  installed : Bool := false
  failed : Bool := false
  configured : Bool := false
  id : Nat := 0
  ver : Nat := 0
  cls : Nat := 0
  format : Nat := 0
  cost : Nat := 0
  cost7 : Nat := 0
  outBase : Nat := 0
  outN : Nat := 0
  scrBase : Nat := 0
  scrN : Nat := 0
  /-- instructions of 128 bits -/
  instrs : List Nat := []
  consts : List (List Int) := []
  /-- PWL tables: segments (x_k, y_k, s_k) -/
  pwl : List (List (Int × Int × Int)) := []
  /-- bindings: `LAYOUT`, `PAGES` -/
  binds : List (Nat × Nat) := []
  /-- first half-slot and number of the pinned coefficients -/
  pinBase : Nat := 0
  coefHs : Nat := 0
  sat : Nat := 0
  satTime : Option Nat := none
  /-- the entry this program replaces, freed once the slot table has changed -/
  replaces : Option Nat := none
  /-- SHA-384 of the image (measurement 9 of Table 16.9) -/
  digest : Nat := 0
deriving DecidableEq, Repr

/-- A registered model set (R228). -/
structure TlySet where
  registered : Bool := false
  id : Nat := 0
  ver : Nat := 0
  layout : Nat := 0
  npages : Nat := 0
  /-- SHA-384 of the header -/
  digest : Nat := 0
  hdrAddr : Nat := 0
  pageAddr : Nat := 0
  resident : Bool := false
  bad : Bool := false
  frame : Nat := 0
  lastBound : Nat := 0
deriving DecidableEq, Repr

/-- A set being paged in (R229). -/
structure Paging where
  set : Nat
  frame : Nat
  start : Nat
  /-- next page; the header comes before page 0 -/
  page : Nat := 0
  hdrRead : Bool := false
  /-- `PAGE_DIGEST` entries of the header read again -/
  digests : List Nat := []
  /-- the words of the header or page that have arrived, by their byte offset (R36) -/
  got : Tbl (List Nat) := []
  /-- a page image that has arrived and is not yet checked -/
  buf : Option (List Nat) := none
deriving DecidableEq, Repr

/-- Tally (Table 8.12). -/
structure Tally where
  /-- state of each cube: 0 active, 1 spare, 2 Audit, 3 failed -/
  cube : List Nat := [0, 0, 0, 0, 0, 0, 0, 0, 1]
  /-- failed cubes whose place is filled at the next frame boundary -/
  swap : List Nat := []
  /-- cubes returned by Audit that become active at the next frame boundary -/
  rejoin : List Nat := []
  /-- committed OUTPUT blocks and INPUT blocks -/
  st : Tbl Blk := []
  /-- working copies of the slots that have completed in this frame -/
  work : Tbl Blk := []
  /-- coefficient half-slots: 128 bits and the sidecar byte -/
  coef : Tbl (Nat × Nat) := []
  prog : Tbl TlyProg := []
  set : Tbl TlySet := []
  page : Option Paging := none
  pageLast : Nat := 0
  pageDone : Nat := 0
  pageFail : Nat := 0
  satAcc : Nat := 0
  satConv : Nat := 0
  satRn : Nat := 0
  residue : Nat := 0
  eccUnc : Nat := 0
  eccCorr : Nat := 0
  /-- largest frame total of the table in force, and of the table that is to take force -/
  used : Nat := 0
  nextUsed : Nat := 0
  limit : Nat := 0
  /-- entries whose runs completed in this frame, and in the last committed frame -/
  ran : List Nat := []
  ranLast : List Nat := []
  progSel : Nat := 0
  setSel : Nat := 0
deriving DecidableEq, Repr

/-- A firmware core (Table 16.16). -/
structure FwCore where
  /-- 0 absent, 1 running, 2 asleep, 3 restarting, 4 covered by partner, 5 failed -/
  st : Nat := 0
  bank : Bool := false
  hangs : Nat := 0
  lastHang : Option Nat := none
  /-- count of frames from which a restarted Teller has run without fault -/
  backFrom : Nat := 0
  /-- count of frames from whose boundary the present state decides which Teller runs the slots (R415) -/
  moveFrom : Nat := 0
  /-- since when its clusters have all been STOPPED; when it fell asleep -/
  idleSince : Option Nat := none
  sleepAt : Nat := 0
deriving DecidableEq, Repr

/-- The running image. -/
structure RunImg where
  slot : Nat := 0
  ver : Nat := 0
  svn : Nat := 0
  ifVer : Nat := 0
  hoVer : Nat := 0
  digest : Nat := 0
deriving DecidableEq, Repr

/-- Vault (R415–R420, R434). -/
structure Vault where
  ready : Bool := false
  error : Bool := false
  restarts : Nat := 0
  /-- test modes unlocked until the next cold reset -/
  test : Nat := 0
  /-- the nonce outstanding and when it was written -/
  nonce : Option (Nat × Nat) := none
  vfuseMv : Nat := 0
  alarmed : Bool := false
deriving DecidableEq, Repr

/-- Firmware, boot and the serial NOR contents it uses (chapter 16). -/
structure Fw where
  run : Bool := false
  handoff : Bool := false
  cur : RunImg := {}
  recovery : Bool := false
  vault : Vault := {}
  /-- the fuse array; `fuse` holds what was sampled at the last cold reset (R431, R433) -/
  arr : Fuses := {}
  gateBlank : Bool := false
  gateCrc : Bool := false
  /-- the entries of the two sectors of the boot directory in serial NOR, in the order they were programmed, each as its 32 bytes;
  the sector in use (R421, R422) -/
  dir : List (List (List Nat)) := [[], []]
  dirSector : Nat := 0
  /-- what the directory says (Table 16.5): preferred slot, slot states, active and staged configuration copies -/
  pref : Nat := 0
  slotSt : List Nat := [1, 1]
  cfgAct : Nat := 0
  cfgStg : Nat := 0
  img : List (Option FwImg) := [none, none]
  last : List Nat := [0, 0]
  copy : List (Option CfgCopy) := [none, none]
  cfgValid : Bool := false
  coldOnly : Bool := false
  cfgVer : Nat := 0
  /-- hash of the integrator key that verified the active configuration (R417) -/
  intKey : Nat := 0
  /-- 0 idle, 1 prepare, 2 hold, 3 handoff, 4 restore, 5 awaiting confirmation, 6 rollback -/
  upd : Nat := 0
  updHdr : Option DescHdr := none
  old : RunImg := {}
  next : RunImg := {}
  holdAt : Nat := 0
  switchAt : Nat := 0
  holdUs : Nat := 0
  confMs : Nat := 0
  /-- clusters in RUN at t_h; consecutive frames without a LIMIT or SELECT miss; an allocation has completed -/
  runMask : Nat := 0
  okFrames : Nat := 0
  allocOk : Bool := false
  core : Tbl FwCore := []
  slotSel : Nat := 0
  coreSel : Nat := 0
  gateSel : Nat := 0
  /-- the warm reset in progress was caused by FW_ACTIVATE with `MODE` 1 (R427) -/
  actWarm : Bool := false
  warmAt : Nat := 0
deriving DecidableEq, Repr

/-- One unit under Audit (Tables 17.2, 17.10); unit `INDEX` of `KIND` is at index 1,024 · KIND + INDEX. -/
structure AudUnit where
  /-- 0 IN_SERVICE, 1 HELD, 2 TESTING, 3 PASSED, 4 FAILED; FAULT_OUT follows from the unit's own state -/
  st : Nat := 0
  auto : Bool := false
  last : Nat := 0
  endT : Nat := 0
deriving DecidableEq, Repr

/-- The test in progress (R453). -/
structure AudTest where
  kind : Nat
  idx : Nat
  auto : Bool
  ret : Bool
  began : Nat
  /-- the unit was in FAULT_OUT when the test began -/
  wasFault : Bool := false
  hdr : Option DescHdr := none
deriving DecidableEq, Repr

/-- Thermal trip, Audit and test access (chapter 17). -/
structure Audit where
  unit : Tbl AudUnit := []
  test : Option AudTest := none
  lastCode : Nat := 0
  lastKind : Nat := 0
  lastIdx : Nat := 0
  kinds : Nat := 0
  period : Nat := 600
  /-- the unit that automatic Audit tested last, as 1,024 · KIND + INDEX, and when its period last ended -/
  schedAt : Option Nat := none
  schedTime : Nat := 0
  pass : Nat := 0
  fail : Nat := 0
  res : Nat := 0
  unitSel : Nat := 0
  /-- times of the trips of the sliding hour (R450) -/
  trips : List Nat := []
  tripActive : Bool := false
  tripLatched : Bool := false
  tripSite : Nat := 0
  tripSubst : Bool := false
  tripInput : Int := 0
  tripTime : Nat := 0
  /-- since when every trip input has been below L_s − 20 °C -/
  dwell : Option Nat := none
  padHold : Bool := false
  blocked : Nat := 0
  /-- the instruction in force in the TAP (Table 17.6) and in the wrapper (Table 17.7) -/
  tapIr : Nat := 1
  wir : Nat := 0
  /-- the data registers loaded in the TAP and in the wrapper -/
  tdr : Nat := 0
  wdr : Nat := 0
  mbistFail : Nat := 0
  mbistDone : Bool := false
  mbistBusy : Bool := false
deriving DecidableEq, Repr

/-- A lent lease (R353). -/
structure Lent where
  id : Nat
  amt : Nat
  sent : Nat
  durUs : Nat
  /-- the lender entered holdover while the lease was outstanding; it was unverified at the send -/
  hold : Bool := false
  unver : Bool := false
  /-- the borrowed lease this one passes on (R357): link and identifier -/
  from_ : Option (Nat × Nat) := none
deriving DecidableEq, Repr

/-- A borrowed lease (R354, R356). -/
structure Bor where
  id : Nat
  amt : Nat
  exp : Nat
  /-- it counts in L_in -/
  counted : Bool := true
  /-- its return has begun: when it left L_in, and the cause -/
  ret : Option (Nat × Nat) := none
  /-- voided by a new incarnation of the lender: it leaves L_in at the next frame boundary (R352) -/
  void : Bool := false
deriving DecidableEq, Repr

/-- A message that waits for its acknowledgement (R347). -/
structure Sent where
  seq : Nat
  at_ : Nat
  judged : Bool := false
deriving DecidableEq, Repr

/-- A Clearing link (Tables 13.4, 13.8). -/
structure Link where
  en : Bool := false
  peer : Nat := 0
  addr : Nat := 0
  /-- 0 DISABLED, 1 JOINING, 2 PRESENT, 3 SUSPECT, 4 ABSENT, 5 LEFT -/
  st : Nat := 0
  ver : Nat := 0
  missed : Nat := 0
  inc : Nat := 0
  seqOut : Nat := 0
  seqIn : Nat := 0
  /-- the last message received: low half of its timestamp and when it was received -/
  echoTs : Nat := 0
  rxAt : Nat := 0
  theta : Option Int := none
  thetaAt : Nat := 0
  rtt : Nat := 0
  slack : Nat := 0
  peerHold : Bool := false
  ackMiss : Nat := 0
  discard : Nat := 0
  discRec : Option Nat := none
  staleRec : Option Nat := none
  expRec : Option Nat := none
  /-- end of the retry timer -/
  retry : Option Nat := none
  /-- rounds without ACCEPT while JOINING -/
  joinRounds : Nat := 0
  /-- in this round: a valid message arrived; an acknowledgement was missed -/
  rxRound : Bool := false
  badRound : Bool := false
  sent : List Sent := []
  /-- the newest STATE of a child -/
  surplus : Nat := 0
  need : Nat := 0
  wmin : Nat := 0xFFFF
  chips : Nat := 0
  fcNeed : Nat := 0
  /-- what the round grants this child from budget that calls have still to bring in (R361) -/
  due : Nat := 0
  lent : List Lent := []
  bor : List Bor := []
  /-- a message whose CRC failed: when it was read last, and how often it has been read again -/
  reread : Option (Nat × Nat) := none
  /-- drift samples of the window (R98): count, and sums of x, y, x·x and x·y for y = local − peer time over x -/
  dn : Nat := 0
  dx : Int := 0
  dy : Int := 0
  dxx : Int := 0
  dxy : Int := 0
  dy0 : Int := 0
deriving DecidableEq, Repr

/-- Clearing (Table 13.8). -/
structure Clearing where
  inc : Nat := 0
  /-- the incarnation drawn last, kept so that the next one differs (R352) -/
  incOld : Nat := 0
  en : Bool := false
  vmax : Nat := 3
  keep : Nat := 2
  id : Nat := 0
  domain : Nat := 0
  leaseUs : Nat := 250
  retryMs : Nat := 1000
  mbxLo : Nat := 0
  mbxHi : Nat := 0
  lnk : Tbl Link := []
  lnkSel : Nat := 0
  res : Nat := 0
  aggS : Nat := 0
  aggN : Nat := 0
  leaseId : Nat := 0
  roundAt : Nat := 0
  /-- sum and number of P_pkg over the frames of the round -/
  pSum : Nat := 0
  pN : Nat := 0
  /-- the newest drift measurement that makes the chip verified (R359): when -/
  verAt : Option Nat := none
  driftStart : Nat := 0
deriving DecidableEq, Repr

/-- An entry of a cluster's hint queue (R269). -/
structure HintEnt where
  ctx : Nat
  epoch : Nat
  cls : Nat
  inten : Nat
  early : Bool
  tacc : Nat
  th : Nat
  te : Nat
  /-- min(`DUR`, 8 µs) of the class at acceptance, ns (R280) -/
  ev : Nat
  /-- apportioned current of the frame that contains t_acc, known at that frame's commit -/
  i0 : Option Nat := none
  /-- sum and number of the apportioned currents of the frames from t_h -/
  isum : Nat := 0
  n : Nat := 0
  judged : Bool := false
deriving DecidableEq, Repr

/-- Accuracy of one horizon (R278); `mae` and `bias` hold 64 times the value in 1/8 A (log entry 20). -/
structure FcAcc where
  mae : Nat := 0
  bias : Int := 0
  eval : Nat := 0
  under : Nat := 0
deriving DecidableEq, Repr

/-- The forecaster of one cluster (R271–R279, Table 10.5). -/
structure FcClu where
  bound : Option Nat := none
  boundAt : Nat := 0
  /-- class of the selecting entry, if there is one -/
  sel : Option Nat := none
  /-- when a selecting entry was last there -/
  selLast : Nat := 0
  /-- the default set is desired until a new selecting entry appears -/
  useDef : Bool := false
  /-- the selecting entry's acceptance when `DEFAULT` was written -/
  defAt : Nat := 0
  noModel : Option Nat := none
  everBound : Bool := false
  /-- the set whose request has found no frame (R229) -/
  noSpace : Option Nat := none
  pred : List Nat := [0, 0, 0, 0, 0]
  predAt : Nat := 0
  avail : Bool := false
  missed : Bool := false
  accTh : Nat := 0
  accMin : Nat := 16
  acc : List FcAcc := [{}, {}, {}, {}, {}]
  /-- gates passed, and when their last FC_GATE_OFF and FC_GATE_ON were written -/
  gate : Nat := 0
  offRec : Option Nat := none
  onRec : Option Nat := none
  /-- forecasts not yet compared at every horizon: t_s and the predictions -/
  hist : List (Nat × List Nat) := []
  late : Nat := 0
deriving DecidableEq, Repr

/-- A hint class (R271). -/
structure HintClass where
  set : Nat := 0
  setValid : Bool := false
  en : Bool := false
  dur : Nat := 0
  feat : Nat := 0
  ipu : Nat := 0
  accepted : Nat := 0
  coalesced : Nat := 0
  hits : Nat := 0
  misses : Nat := 0
  refused : Nat := 0
  late : Nat := 0
deriving DecidableEq, Repr

/-- Hints of one context: permissions and trust (R271, R281). -/
structure HintCtx where
  perm : Nat := 0
  /-- outcomes of the last 256 evaluated hints, newest first; true is a miss -/
  out : List Bool := []
  until_ : Option Nat := none
  ndist : Nat := 0
  refused : Option Nat := none
deriving DecidableEq, Repr

/-- Forecasting and hints (chapter 10). -/
structure Forecast where
  cl : Tbl FcClu := []
  hc : Tbl HintClass := []
  hx : Tbl HintCtx := []
  /-- hint queues: entry e of cluster c is at index 32c + e -/
  q : Tbl (Option HintEnt) := []
  /-- FORECAST programs of each rail that have had their turn in its round (R276) -/
  round : Tbl (List Nat) := []
  missTh : Nat := 128
  minEval : Nat := 64
  distMs : Nat := 10
  clSel : Nat := 0
  accSel : Nat := 0
  hcSel : Nat := 0
  hxSel : Nat := 0
  res : Nat := 0
deriving DecidableEq, Repr

/-- A synchronisation object (Table 12.1). -/
structure SynObj where
  count : Bool := false
  level : Bool := false
  gen : Nat := 0
  value : Nat := 0
  poison : Bool := false
  /-- the last SET and the last CLEAR from an engine: time, engine and queue (R319) -/
  lastSet : Option (Nat × Nat) := none
  lastClr : Option (Nat × Nat) := none
deriving DecidableEq, Repr

/-- A barrier group (R321). -/
structure SynGrp where
  valid : Bool := false
  p : Nat := 0
  members : List Nat := []
  arrived : Nat := 0
  gen : Nat := 0
deriving DecidableEq, Repr

/-- A waiter entry (Table 12.4); `ord` is its place in the order of acceptance. -/
structure Waiter where
  obj : Nat
  op : Nat
  arg : Nat
  ctx : Nat
  mode : Bool
  tmo : Nat
  start : Nat
  ord : Nat
deriving DecidableEq, Repr

/-- A core's waiting, watchdog and loan (Table 12.9). -/
structure SynCore where
  mode : Bool := false
  escEn : Bool := true
  qmask : Nat := 15
  wdMs : Nat := 100
  wd : Option Nat := none
  wdFired : Bool := false
  waitSince : Option Nat := none
  /-- engine waiting time of the frame and of the round in ns, and up to when it is counted -/
  acc : Nat := 0
  racc : Nat := 0
  mark : Nat := 0
  waitf : Nat := 0
  /-- when the loan began; its amount; Treasury has taken it -/
  lent : Option Nat := none
  loan : Nat := 0
  taken : Bool := false
  reclaimed : Option Nat := none
deriving DecidableEq, Repr

/-- Synchronisation and Escrow (Table 12.8). -/
structure Sync where
  obj : Tbl SynObj := []
  grp : Tbl SynGrp := []
  wtr : Tbl (Option Waiter) := []
  core : Tbl SynCore := []
  /-- the tenant whose map holds each window; 0 if none -/
  own : Tbl Nat := []
  tmo : List Nat := [10000, 100, 1000, 100000]
  tlend : Nat := 12
  en : Bool := true
  log : Bool := false
  waitfRound : Nat := 0
  waitfFrame : Nat := 0
  /-- cluster wait fractions of the last frame, in 1/65,536 -/
  waitfClu : Tbl Nat := []
  frameAt : Nat := 0
  roundAt : Nat := 0
  udf : Nat := 0
  ovf : Nat := 0
  race : Nat := 0
  viol : Nat := 0
  failed : Nat := 0
  lends : Nat := 0
  eccCorr : Nat := 0
  res : Nat := 0
  objSel : Nat := 0
  coreSel : Nat := 0
  grpSel : Nat := 0
  wtrSel : Nat := 0
  ctxSel : Nat := 0
  raceRec : Tbl (Option Nat) := []
  errRec : Tbl (Option Nat) := []
  violRec : Tbl (Option Nat) := []
  /-- times of the SYN_WAIT_FAILED records of each core within the last second -/
  failRec : Tbl (List Nat) := []
  ord : Nat := 0
deriving DecidableEq, Repr

/-- Treasury's values of one cluster (R285–R309). Powers are 1/8 W, currents 1/8 A. -/
structure TrsClu where
  /-- the allocated share before Escrow's loans, and the part borrowed from the pool -/
  base : Nat := 0
  borrowed : Nat := 0
  /-- loans taken from the share and not yet given back -/
  lent : Nat := 0
  ishare : Nat := 0
  dem : Nat := 0
  /-- demand left unmet by the last allocation -/
  unmet : Nat := 0
  /-- the allocation of the running frame, made visible at its commit: base, borrowed, current share -/
  next : Option (Nat × Nat × Nat) := none
  reasons : Nat := 0
  preempt : Bool := false
  rsnT : Tbl Nat := []
  /-- onset of each reason and its holdover flag -/
  rsnOn : Tbl (Nat × Bool) := []
  trim : Nat := 0
  trimTgt : Nat := 0
  held : Option Nat := none
deriving DecidableEq, Repr

/-- A tenant context's Treasury fields (Table 11.1). -/
structure Tenant where
  weight : Nat := 1
  cls : Nat := 1
  grant : Nat := 0
  floor : Nat := 0
  /-- cores placed, as a mask -/
  cores : Nat := 0
  /-- a migration that takes effect at the next allocation -/
  place : Option Nat := none
  epoch : Nat := 0
  credit : Int := 0
  suspended : Bool := false
  /-- clusters on which the context was below its floor in the last frame -/
  breach : Nat := 0
  budget : Nat := 0
  entitle : Nat := 0
  flt : Nat := 0
deriving DecidableEq, Repr

/-- A reclaimed Escrow loan on its way back to its lender (R302). -/
structure LoanRet where
  clu : Nat
  amt : Nat
  at_ : Nat
  given : Nat := 0
  /-- the loan has been taken from the borrowers at a frame boundary; their table powers at the reclaim -/
  started : Bool := false
  powers : List (Nat × Nat) := []
deriving DecidableEq, Repr

/-- Treasury (Table 11.6). -/
structure Treasury where
  cap : Nat := 0
  pPkg : Nat := 0
  eff : Nat := 0
  commit : Nat := 0
  alloc : Nat := 0
  /-- of the last allocation: demand unmet after step 4 of R293, and the pre-emption sum of R292 -/
  unmet : Nat := 0
  preSum : Nat := 0
  odPct : Nat := 100
  reserve : Nat := 10
  rearm : Nat := 25
  /-- the Overdraft bucket, 1/16 µJ -/
  od : Nat := 0
  odSince : Option Nat := none
  odCnt : Nat := 0
  /-- the bucket is at 0 while the package is above its effective cap -/
  exceeded : Bool := false
  energy : Nat := 0
  /-- the remainder below 1 µJ, in 1/16 µJ -/
  energyRem : Nat := 0
  floorMax : Nat := 80
  preMax : Nat := 30
  lguard : Nat := 30
  credMax : Nat := 16
  throtMask : Nat := 0x60F
  res : Nat := 0
  prio : List Nat := [0, 1, 2, 3]
  weight : List Nat := [1, 1, 1, 1]
  floor : List Nat := [0, 0, 0, 0]
  budget : List Nat := [0, 0, 0, 0]
  demand : List Nat := [0, 0, 0, 0]
  cl : Tbl TrsClu := []
  tx : Tbl Tenant := []
  /-- an allocation is to be made out of turn at the next frame boundary -/
  outOfTurn : Bool := false
  allocated : Bool := false
  rets : List LoanRet := []
  trimAt : Nat := 0
  /-- margin trims as serial NOR holds them, by cluster; they survive every restart (Table 1.8, R309) -/
  norTrim : Tbl Nat := []
  dcSel : Nat := 0
  clSel : Nat := 0
  rsnSel : Nat := 0
  txSel : Nat := 0
  railSel : Nat := 0
deriving DecidableEq, Repr

/-- What the old image wrote at the handoff of a live update, for a rollback (R436, R437). -/
structure HandOff where
  loop : Tbl LoopSt := []
  fc : Forecast := {}
  trs : Treasury := {}
  prog : Tbl TlyProg := []
  set : Tbl TlySet := []
  table : Option (List SlotEntry) := none
deriving DecidableEq, Repr

/-- The whole state of the block and the queue of commands that wait. -/
structure State where
  /-- block time, ns (R72) -/
  now : Nat := 0
  pwr : Power := {}
  cfg : Cfg := {}
  fuse : Fuses := {}
  tb : TimeBase := {}
  frm : Frames := {}
  clk : Clocks := {}
  sns : Sensing := {}
  rail : Rails := {}
  frec : FRec := {}
  loop : Loops := {}
  hm : HmPort := {}
  hs : HsPort := {}
  ep : Tbl EpLane := []
  cp : Tbl CpPort := []
  hif : Hif := {}
  dma : Dma := {}
  ldg : Ledger := {}
  fw : Fw := {}
  tly : Tally := {}
  fc : Forecast := {}
  trs : Treasury := {}
  syn : Sync := {}
  clr : Clearing := {}
  aud : Audit := {}
  /-- the handoff area; kept until confirmation -/
  ho : Option HandOff := none
  /-- how many free values have been drawn; the model's own field -/
  free : Nat := 0
  pending : List Instr := []
deriving DecidableEq, Repr

/-- The block right after a cold reset: the end of step 2 of Table 1.9 on a part whose fuses and serial NOR are
blank, with the straps as the model's log names them (log entries 2 and 3). -/
def State.reset : State := {}

end Sys2Proof.Machine
end

