-- ==== Sys2Proof/Machine/Access.lean ====
section
/-!
DEFINITION. Plain access to the parts of the state: change one part, read and change one entry of a numbered store,
read one entry of the configuration.
-/
namespace Sys2Proof.Machine

/-- What a meaning answers. -/
abbrev Res := Host.Outcome State Fault Refusal

/-- Change the part `pwr`. -/
def State.onPwr (f : Power → Power) (s : State) : State := { s with pwr := f s.pwr }

/-- Change the part `cfg`. -/
def State.onCfg (f : Cfg → Cfg) (s : State) : State := { s with cfg := f s.cfg }

/-- Change the part `fuse`. -/
def State.onFuse (f : Fuses → Fuses) (s : State) : State := { s with fuse := f s.fuse }

/-- Change the part `tb`. -/
def State.onTb (f : TimeBase → TimeBase) (s : State) : State := { s with tb := f s.tb }

/-- Change the part `frm`. -/
def State.onFrm (f : Frames → Frames) (s : State) : State := { s with frm := f s.frm }

/-- Change the part `clk`. -/
def State.onClk (f : Clocks → Clocks) (s : State) : State := { s with clk := f s.clk }

/-- Change the part `sns`. -/
def State.onSns (f : Sensing → Sensing) (s : State) : State := { s with sns := f s.sns }

/-- Change the part `rail`. -/
def State.onRail (f : Rails → Rails) (s : State) : State := { s with rail := f s.rail }

/-- Change the part `frec`. -/
def State.onFrec (f : FRec → FRec) (s : State) : State := { s with frec := f s.frec }

/-- Change the part `loop`. -/
def State.onLoop (f : Loops → Loops) (s : State) : State := { s with loop := f s.loop }

/-- Change the part `hm`. -/
def State.onHm (f : HmPort → HmPort) (s : State) : State := { s with hm := f s.hm }

/-- Change the part `hs`. -/
def State.onHs (f : HsPort → HsPort) (s : State) : State := { s with hs := f s.hs }

/-- Change the part `hif`. -/
def State.onHif (f : Hif → Hif) (s : State) : State := { s with hif := f s.hif }

/-- Change the part `dma`. -/
def State.onDma (f : Dma → Dma) (s : State) : State := { s with dma := f s.dma }

/-- Change the part `ldg`. -/
def State.onLdg (f : Ledger → Ledger) (s : State) : State := { s with ldg := f s.ldg }

/-- Change the part `fw`. -/
def State.onFw (f : Fw → Fw) (s : State) : State := { s with fw := f s.fw }

/-- Change the part `tly`. -/
def State.onTly (f : Tally → Tally) (s : State) : State := { s with tly := f s.tly }

/-- Change the part `fc`. -/
def State.onFc (f : Forecast → Forecast) (s : State) : State := { s with fc := f s.fc }

/-- Change the part `trs`. -/
def State.onTrs (f : Treasury → Treasury) (s : State) : State := { s with trs := f s.trs }

/-- Change the part `syn`. -/
def State.onSyn (f : Sync → Sync) (s : State) : State := { s with syn := f s.syn }

/-- Change the part `clr`. -/
def State.onClr (f : Clearing → Clearing) (s : State) : State := { s with clr := f s.clr }

/-- Change the part `aud`. -/
def State.onAud (f : Audit → Audit) (s : State) : State := { s with aud := f s.aud }

/-- Change the handoff area. -/
def State.onHo (f : Option HandOff → Option HandOff) (s : State) : State := { s with ho := f s.ho }

/-- Change the count of the free values drawn. -/
def State.onFree (f : Nat → Nat) (s : State) : State := { s with free := f s.free }

/-- Entry `k` of `hif.ctx`. -/
def State.getCtx (s : State) (k : Nat) : Ctx := Tbl.get {} s.hif.ctx k

/-- Change entry `k` of `hif.ctx`. -/
def State.updCtx (k : Nat) (f : Ctx → Ctx) (s : State) : State :=
  s.onHif fun p => { p with ctx := Tbl.upd {} p.ctx k f }

/-- Entry `k` of `dma.chan`. -/
def State.getChan (s : State) (k : Nat) : DmaChan := Tbl.get {} s.dma.chan k

/-- Change entry `k` of `dma.chan`. -/
def State.updChan (k : Nat) (f : DmaChan → DmaChan) (s : State) : State :=
  s.onDma fun p => { p with chan := Tbl.upd {} p.chan k f }

/-- Entry `k` of `frm.rt`. -/
def State.getRt (s : State) (k : Nat) : SlotRt := Tbl.get {} s.frm.rt k

/-- Change entry `k` of `frm.rt`. -/
def State.updRt (k : Nat) (f : SlotRt → SlotRt) (s : State) : State :=
  s.onFrm fun p => { p with rt := Tbl.upd {} p.rt k f }

/-- Entry `k` of `frm.backstop`. -/
def State.getBack (s : State) (k : Nat) : Backstop := Tbl.get {} s.frm.backstop k

/-- Change entry `k` of `frm.backstop`. -/
def State.updBack (k : Nat) (f : Backstop → Backstop) (s : State) : State :=
  s.onFrm fun p => { p with backstop := Tbl.upd {} p.backstop k f }

/-- Entry `k` of `clk.dom`. -/
def State.getDom (s : State) (k : Nat) : Dom := Tbl.get {} s.clk.dom k

/-- Change entry `k` of `clk.dom`. -/
def State.updDom (k : Nat) (f : Dom → Dom) (s : State) : State :=
  s.onClk fun p => { p with dom := Tbl.upd {} p.dom k f }

/-- Entry `k` of `sns.site`. -/
def State.getSite (s : State) (k : Nat) : Site := Tbl.get {} s.sns.site k

/-- Change entry `k` of `sns.site`. -/
def State.updSite (k : Nat) (f : Site → Site) (s : State) : State :=
  s.onSns fun p => { p with site := Tbl.upd {} p.site k f }

/-- Entry `k` of `sns.det`. -/
def State.getDet (s : State) (k : Nat) : Det := Tbl.get {} s.sns.det k

/-- Change entry `k` of `sns.det`. -/
def State.updDet (k : Nat) (f : Det → Det) (s : State) : State :=
  s.onSns fun p => { p with det := Tbl.upd {} p.det k f }

/-- Entry `k` of `sns.mon`. -/
def State.getMon (s : State) (k : Nat) : Mon := Tbl.get {} s.sns.mon k

/-- Change entry `k` of `sns.mon`. -/
def State.updMon (k : Nat) (f : Mon → Mon) (s : State) : State :=
  s.onSns fun p => { p with mon := Tbl.upd {} p.mon k f }

/-- Entry `k` of `rail.reg`. -/
def State.getReg (s : State) (k : Nat) : Reg := Tbl.get {} s.rail.reg k

/-- Change entry `k` of `rail.reg`. -/
def State.updReg (k : Nat) (f : Reg → Reg) (s : State) : State :=
  s.onRail fun p => { p with reg := Tbl.upd {} p.reg k f }

/-- Entry `k` of `rail.meas`. -/
def State.getMeas (s : State) (k : Nat) : RailMeas := Tbl.get {} s.rail.meas k

/-- Change entry `k` of `rail.meas`. -/
def State.updMeas (k : Nat) (f : RailMeas → RailMeas) (s : State) : State :=
  s.onRail fun p => { p with meas := Tbl.upd {} p.meas k f }

/-- Entry `k` of `rail.prot`. -/
def State.getProt (s : State) (k : Nat) : RailProt := Tbl.get {} s.rail.prot k

/-- Change entry `k` of `rail.prot`. -/
def State.updProt (k : Nat) (f : RailProt → RailProt) (s : State) : State :=
  s.onRail fun p => { p with prot := Tbl.upd {} p.prot k f }

/-- Entry `k` of `rail.ph`. -/
def State.getPh (s : State) (k : Nat) : Phase := Tbl.get {} s.rail.ph k

/-- Change entry `k` of `rail.ph`. -/
def State.updPh (k : Nat) (f : Phase → Phase) (s : State) : State :=
  s.onRail fun p => { p with ph := Tbl.upd {} p.ph k f }

/-- Entry `k` of `loop.clu`. -/
def State.getClu (s : State) (k : Nat) : Clu := Tbl.get {} s.loop.clu k

/-- Change entry `k` of `loop.clu`. -/
def State.updClu (k : Nat) (f : Clu → Clu) (s : State) : State :=
  s.onLoop fun p => { p with clu := Tbl.upd {} p.clu k f }

/-- Entry `k` of `loop.loop`. -/
def State.getLoop (s : State) (k : Nat) : LoopSt := Tbl.get {} s.loop.loop k

/-- Change entry `k` of `loop.loop`. -/
def State.updLoop (k : Nat) (f : LoopSt → LoopSt) (s : State) : State :=
  s.onLoop fun p => { p with loop := Tbl.upd {} p.loop k f }

/-- Entry `k` of `tly.prog`. -/
def State.getProg (s : State) (k : Nat) : TlyProg := Tbl.get {} s.tly.prog k

/-- Change entry `k` of `tly.prog`. -/
def State.updProg (k : Nat) (f : TlyProg → TlyProg) (s : State) : State :=
  s.onTly fun p => { p with prog := Tbl.upd {} p.prog k f }

/-- Entry `k` of `tly.set`. -/
def State.getSet (s : State) (k : Nat) : TlySet := Tbl.get {} s.tly.set k

/-- Change entry `k` of `tly.set`. -/
def State.updSet (k : Nat) (f : TlySet → TlySet) (s : State) : State :=
  s.onTly fun p => { p with set := Tbl.upd {} p.set k f }

/-- Entry `k` of `fc.cl`. -/
def State.getFcCl (s : State) (k : Nat) : FcClu := Tbl.get {} s.fc.cl k

/-- Change entry `k` of `fc.cl`. -/
def State.updFcCl (k : Nat) (f : FcClu → FcClu) (s : State) : State :=
  s.onFc fun p => { p with cl := Tbl.upd {} p.cl k f }

/-- Entry `k` of `fc.hc`. -/
def State.getHc (s : State) (k : Nat) : HintClass := Tbl.get {} s.fc.hc k

/-- Change entry `k` of `fc.hc`. -/
def State.updHc (k : Nat) (f : HintClass → HintClass) (s : State) : State :=
  s.onFc fun p => { p with hc := Tbl.upd {} p.hc k f }

/-- Entry `k` of `fc.hx`. -/
def State.getHx (s : State) (k : Nat) : HintCtx := Tbl.get {} s.fc.hx k

/-- Change entry `k` of `fc.hx`. -/
def State.updHx (k : Nat) (f : HintCtx → HintCtx) (s : State) : State :=
  s.onFc fun p => { p with hx := Tbl.upd {} p.hx k f }

/-- Entry `k` of `trs.cl`. -/
def State.getTrsCl (s : State) (k : Nat) : TrsClu := Tbl.get {} s.trs.cl k

/-- Change entry `k` of `trs.cl`. -/
def State.updTrsCl (k : Nat) (f : TrsClu → TrsClu) (s : State) : State :=
  s.onTrs fun p => { p with cl := Tbl.upd {} p.cl k f }

/-- Entry `k` of `trs.tx`. -/
def State.getTx (s : State) (k : Nat) : Tenant := Tbl.get {} s.trs.tx k

/-- Change entry `k` of `trs.tx`. -/
def State.updTx (k : Nat) (f : Tenant → Tenant) (s : State) : State :=
  s.onTrs fun p => { p with tx := Tbl.upd {} p.tx k f }

/-- Entry `k` of `syn.obj`. -/
def State.getObj (s : State) (k : Nat) : SynObj := Tbl.get {} s.syn.obj k

/-- Change entry `k` of `syn.obj`. -/
def State.updObj (k : Nat) (f : SynObj → SynObj) (s : State) : State :=
  s.onSyn fun p => { p with obj := Tbl.upd {} p.obj k f }

/-- Entry `k` of `syn.grp`. -/
def State.getGrp (s : State) (k : Nat) : SynGrp := Tbl.get {} s.syn.grp k

/-- Change entry `k` of `syn.grp`. -/
def State.updGrp (k : Nat) (f : SynGrp → SynGrp) (s : State) : State :=
  s.onSyn fun p => { p with grp := Tbl.upd {} p.grp k f }

/-- Entry `k` of `syn.core`. -/
def State.getCore (s : State) (k : Nat) : SynCore := Tbl.get {} s.syn.core k

/-- Change entry `k` of `syn.core`. -/
def State.updCore (k : Nat) (f : SynCore → SynCore) (s : State) : State :=
  s.onSyn fun p => { p with core := Tbl.upd {} p.core k f }

/-- Entry `k` of `clr.lnk`. -/
def State.getLnk (s : State) (k : Nat) : Link := Tbl.get {} s.clr.lnk k

/-- Change entry `k` of `clr.lnk`. -/
def State.updLnk (k : Nat) (f : Link → Link) (s : State) : State :=
  s.onClr fun p => { p with lnk := Tbl.upd {} p.lnk k f }

/-- Entry `k` of `fw.core`. -/
def State.getFwCore (s : State) (k : Nat) : FwCore := Tbl.get {} s.fw.core k

/-- Change entry `k` of `fw.core`. -/
def State.updFwCore (k : Nat) (f : FwCore → FwCore) (s : State) : State :=
  s.onFw fun p => { p with core := Tbl.upd {} p.core k f }

/-- Entry `k` of `aud.unit`. -/
def State.getUnit (s : State) (k : Nat) : AudUnit := Tbl.get {} s.aud.unit k

/-- Change entry `k` of `aud.unit`. -/
def State.updUnit (k : Nat) (f : AudUnit → AudUnit) (s : State) : State :=
  s.onAud fun p => { p with unit := Tbl.upd {} p.unit k f }

/-- Entry `k` of `ep`. -/
def State.getEp (s : State) (k : Nat) : EpLane := Tbl.get {} s.ep k

/-- Change entry `k` of `ep`. -/
def State.updEp (k : Nat) (f : EpLane → EpLane) (s : State) : State := { s with ep := Tbl.upd {} s.ep k f }

/-- Entry `k` of `cp`. -/
def State.getCp (s : State) (k : Nat) : CpPort := Tbl.get {} s.cp k

/-- Change entry `k` of `cp`. -/
def State.updCp (k : Nat) (f : CpPort → CpPort) (s : State) : State := { s with cp := Tbl.upd {} s.cp k f }

/-- Configuration entry `k` of `rail`. -/
def State.railCfg (s : State) (k : Nat) : RailCfg := Tbl.get {} s.cfg.rail k

/-- Configuration entry `k` of `ph`. -/
def State.phCfg (s : State) (k : Nat) : PhaseCfg := Tbl.get {} s.cfg.ph k

/-- Configuration entry `k` of `dom`. -/
def State.domCfg (s : State) (k : Nat) : DomCfg := Tbl.get {} s.cfg.dom k

/-- Configuration entry `k` of `clu`. -/
def State.cluCfg (s : State) (k : Nat) : CluCfg := Tbl.get {} s.cfg.clu k

/-- Configuration entry `k` of `site`. -/
def State.siteCfg (s : State) (k : Nat) : SiteCfg := Tbl.get {} s.cfg.site k

/-- Configuration entry `k` of `det`. -/
def State.detCfg (s : State) (k : Nat) : DetCfg := Tbl.get {} s.cfg.det k

/-- Configuration entry `k` of `mon`. -/
def State.monCfg (s : State) (k : Nat) : MonCfg := Tbl.get {} s.cfg.mon k

/-- Configuration of loop `j` of cluster `c`. -/
def State.loopCfg (s : State) (c j : Nat) : LoopCfg := Tbl.get {} s.cfg.loop (8 * c + j)

/-- Loop `j` of cluster `c`. -/
def State.getLp (s : State) (c j : Nat) : LoopSt := s.getLoop (8 * c + j)

/-- Change loop `j` of cluster `c`. -/
def State.updLp (c j : Nat) (f : LoopSt → LoopSt) (s : State) : State := s.updLoop (8 * c + j) f

/-- The indices below `n` that `p` names, folded over the state in rising order. -/
def forIdx (n : Nat) (p : State → Nat → Bool) (f : Nat → State → State) (s : State) : State :=
  ((List.range n).filter (p s)).foldl (fun t k => f k t) s

/-- The listed indices folded over the state in order. -/
def forList {α : Type} (l : List α) (f : α → State → State) (s : State) : State := l.foldl (fun t k => f k t) s

end Sys2Proof.Machine
end

