-- ==== Sys2Proof/Machine/Ops.lean ====
section
/-!
DEFINITION. The operations that every chapter shares: Ledger records and event entries, alarms, posted writes and
completions, descriptor checks, and the free values.
-/
namespace Sys2Proof.Machine

/-- The block is powered, out of cold reset and not held by a test instruction: it acts on commands. -/
def State.live (s : State) : Bool :=
  s.pwr.vaon && s.pwr.vio && !s.pwr.porstLow && !s.pwr.testHold && decide (2 ≤ s.pwr.step)

/-- Carry out a command whenever the block is live; a command that meets a block in reset has no effect. -/
def act (f : State → State) (s : State) : Res := .next (if s.live then f s else s)

/-- Carry out `f` when `p` holds; otherwise nothing changes. -/
def when (p : Bool) (f : State → State) (s : State) : State := if p then f s else s

/-- Firmware runs and answers (step 7 of Table 1.9; not during a warm reset or a handoff). -/
def State.fwUp (s : State) : Bool := s.fw.run && s.pwr.emuReady && !s.fw.handoff

/-- The Clerk, or Vault in recovery (R427), answers the `HIF_` and `FW_` ranges and serves context 0. -/
def State.clerkUp (s : State) : Bool := (s.fw.run || s.fw.recovery) && s.pwr.emuReady && !s.fw.handoff

/-- A feature of Table 14.8 is enabled (R386). -/
def State.feat (s : State) (b : Nat) : Bool := bitOf s.hif.featEn b

/-- The emulated ranges answer accesses: firmware up and no major-version mismatch (R34). -/
def State.emuOk (s : State) : Bool := s.fwUp && !s.hif.mismatch

/-- The responses that host software has not taken: a fifth request transfers only once the oldest response has been
taken (R32). -/
def lastFour {α : Type} (l : List α) : List α := l.drop (l.length - 4)

/-- Return a response on the subordinate port: a code of Table 2.3 and the read data (R32, R34). -/
def hsAnswer (code data : Nat) (s : State) : State :=
  s.onHs fun h => { h with resp := lastFour (h.resp ++ [(code, data)]) }

/-- A write of an emulated register (R34): performed and answered OKAY, or discarded with NOT_READY or
NOT_AVAILABLE. -/
def hsEmu (f : State → State) (s : State) : Res :=
  .next (if !s.live || !s.fwUp then hsAnswer 1 0 s else if s.hif.mismatch then hsAnswer 3 0 s else hsAnswer 0 0 (f s))

/-- A write of a register of the `HIF_` or `FW_` range, which recovery answers as well (R427). -/
def hsHif (f : State → State) (s : State) : Res :=
  .next (if !s.live || !s.clerkUp then hsAnswer 1 0 s else if s.hif.mismatch then hsAnswer 3 0 s else hsAnswer 0 0 (f s))

/-- A write of a hardwired register (R34, R468). -/
def hsHard (f : State → State) (s : State) : Res :=
  .next (if s.live then hsAnswer 0 0 (f s) else hsAnswer 1 0 s)

/-- Draw a free value of `w` bits: nothing constrains it (log entry 4). -/
def State.freeVal (w : Nat) (s : State) : Nat := Config.freeValue s.free % 2 ^ w

/-- A status that the spec does not name: any status of subsystem nibble `sub` but success (R13, log entry 4). -/
def openStatus (sub : Nat) (s : State) : Nat := 4096 * sub + 1 + Config.freeValue s.free % 4095

/-- Advance past the free value that was drawn. -/
def State.drawn (s : State) : State := s.onFree (· + 1)

/-- Set an alarm bit of `LIM_ALARM` (R444). -/
def setAlarm (bit : Nat) (s : State) : State :=
  s.onPwr fun p => { p with alarm := if bitOf p.alarm bit then p.alarm else p.alarm + 2 ^ bit }

/-- Clear an alarm bit of `LIM_ALARM`. -/
def clrAlarm (bit : Nat) (s : State) : State :=
  s.onPwr fun p => { p with alarm := if bitOf p.alarm bit then p.alarm - 2 ^ bit else p.alarm }

/-- A record of `code` from `src` at the present block time, with the holdover flag (R73, R402); its four parameters
are u32 quantities and saturate (R5). A signed quantity in a parameter stands sign-extended to 32 bits (log entry 69). -/
def mkRec (src code p0 p1 p2 p3 : Nat) (s : State) : LRec :=
  { code := code, source := src, hold := s.tb.hold, time := s.now, p0 := satU 32 p0, p1 := satU 32 p1,
    p2 := satU 32 p2, p3 := satU 32 p3 }

/-- Put a record into its source's queue of 8; a full queue loses it (R403). -/
def ldgPut (r : LRec) (s : State) : State :=
  s.onLdg fun l =>
    if (Tbl.get [] l.queues r.source).length < 8 then
      { l with queues := Tbl.upd [] l.queues r.source (· ++ [r]) }
    else
      { l with qlost := satInc 16 l.qlost, lostFlag := Tbl.set false l.lostFlag r.source true }

/-- One second, one millisecond and one microsecond of block time. -/
def nsPerS : Nat := 1000000000
def nsPerMs : Nat := 1000000
def nsPerUs : Nat := 1000

/-- At most once in `gap`: true when `last` is absent or at least `gap` ago. -/
def due (now gap : Nat) (last : Option Nat) : Bool :=
  match last with
  | none => true
  | some t => decide (t + gap ≤ now)

/-- Queue a record; the first loss of a source in 1 s is itself recorded with LDG_QUEUE_LOSS (Table 15.12), which `rec_`
generates. -/
def ldgEnqueue (rec_ : LRec → State → State) (r : LRec) (s : State) : State :=
  let full := decide (8 ≤ (Tbl.get [] s.ldg.queues r.source).length)
  let s1 := ldgPut r s
  if full && due s.now nsPerS (Tbl.get none s.ldg.lossTime r.source) then
    let s2 := s1.onLdg fun l => { l with lossTime := Tbl.set none l.lossTime r.source (some s.now) }
    rec_ (mkRec 0x36 0xA815 r.source s2.ldg.qlost 0 0 s2) s2
  else s1

/-- Issue a posted write, or hold it while `HM_RST_N` is low or earlier ones are held (R37, R39). -/
def hmWrite (w : HmWrite) (s : State) : State :=
  s.onHm fun h => if h.inReset || !h.held.isEmpty then { h with held := h.held ++ [w] } else { h with out := h.out ++ [w] }

/-- Write an interrupt message at once, or at the end of the gap (R382). -/
def irqDue (c : Nat) (s : State) : State :=
  let x := s.getCtx c
  if !x.irqEn then s
  else if due s.now (s.hif.irqGap * 250) x.irqLast then
    (s.updCtx c fun y => { y with irqLast := some s.now, irqWait := false }) |> hmWrite (.irq c x.irqAddr x.irqData)
  else s.updCtx c fun y => { y with irqWait := true }

/-- Free entries of a completion ring (R377). -/
def Ctx.room (x : Ctx) : Nat := 2 ^ x.cqLog - (x.cqTail + 65536 - x.cqHead) % 65536

/-- Little-endian bytes of a field (R6). -/
def leBytes : Nat → Nat → List Nat
  | 0, _ => []
  | n + 1, v => v % 256 :: leBytes n (v / 256)

/-- The 16 bytes of a completion-ring entry (R374, Table 14.3), little-endian (R6). -/
def cqeBytes (e : Cqe) : List Nat :=
  leBytes 4 e.tag ++ leBytes 2 e.status ++ leBytes 2 e.sqHead ++ leBytes 4 e.result ++ leBytes 2 e.opcode ++
  [b2n e.phase + 2 * b2n e.event + 4 * b2n e.hold + 8 * b2n e.evtLost, 0]

/-- R383: a context without work, or waiting for completion room, keeps no deficit. -/
def drrIdle (c : Nat) (s : State) : State :=
  let x := s.getCtx c
  if c = s.hif.turn ∧ (x.sqHead = x.sqTail ∨ x.room = 0) then s.onHif fun h => { h with left := 0 } else s

/-- Write one completion-ring entry and advance `CQ_TAIL` (R374). -/
def writeEntry (c tag status result opcode : Nat) (event notify : Bool) (s : State) : State :=
  let x := s.getCtx c
  let e : Cqe := { tag := tag, status := status, sqHead := x.sqHead, result := result, opcode := opcode,
                   phase := decide (x.cqTail / 2 ^ x.cqLog % 2 = 0), event := event, hold := s.tb.hold,
                   evtLost := x.evtLostFlag }
  let s1 := hmWrite (.cqe c (x.cqBase + 16 * (x.cqTail % 2 ^ x.cqLog)) (cqeBytes e)) s
  let s2 := s1.updCtx c fun y => { y with cqTail := (y.cqTail + 1) % 65536, evtLostFlag := false }
  drrIdle c (if event || notify then irqDue c s2 else s2)

/-- A record becomes an event of context `c` (R381). -/
def evtWanted (r : LRec) (c : Nat) (s : State) : Bool :=
  if c = 0 then decide (r.code = 0x7010) || bitOf s.hif.evtMask (r.code / 4096)
  else s.feat 7 &&
    ((decide (r.code = 0x7010) && decide (bits r.p1 16 9 = c)) ||
     ((decide (r.code = 0x6032) || decide (r.code = 0x6821) || decide (r.code = 0x6040)) && decide (r.p0 = c)))

/-- The tenant context a record may concern. -/
def evtTenant (r : LRec) : Nat := if r.code = 0x7010 then bits r.p1 16 9 else r.p0

/-- Write the event entry of a record to context `c`, or count it lost (R381, R443). -/
def evtDeliver (lost : LRec → State → State) (r : LRec) (c : Nat) (s : State) : State :=
  let x := s.getCtx c
  if !(s.clerkUp && decide (x.st = 1) && evtWanted r c s) then s
  else if 2 ≤ x.room then writeEntry c r.p1 r.code r.p0 0xFFFF true false s
  else
    let s1 := s.updCtx c fun y => { y with evtLost := satInc 16 y.evtLost, evtLostFlag := true }
    if due s.now nsPerS x.evtLostRec then
      let s2 := s1.updCtx c fun y => { y with evtLostRec := some s.now }
      lost (mkRec 0x21 0x9014 c r.code 0 0 s2) s2
    else s1

/-- Generate a record: queue it for the store and write its event entries; `n` bounds the records that a lost record or a
lost event itself causes. -/
def emitRec : Nat → LRec → State → State
  | 0, r, s => ldgPut r s
  | n + 1, r, s =>
    let s1 := evtDeliver (emitRec n) r 0 (ldgEnqueue (emitRec n) r s)
    let c := evtTenant r
    if s.clerkUp && decide (c ≠ 0) && decide (c < 512) then evtDeliver (emitRec n) r c s1 else s1

/-- Write a Ledger record. -/
def emit (src code p0 p1 p2 p3 : Nat) (s : State) : State := emitRec 4 (mkRec src code p0 p1 p2 p3 s) s

/-- A Ledger record of a source of Table 15.7: clocks and timebase. -/
def emitClk (code p0 p1 p2 p3 : Nat) (s : State) : State := emit 0x30 code p0 p1 p2 p3 s
/-- Sensing. -/
def emitSns (code p0 p1 p2 p3 : Nat) (s : State) : State := emit 0x31 code p0 p1 p2 p3 s
/-- Rails and the fault-record writer. -/
def emitRail (code p0 p1 p2 p3 : Nat) (s : State) : State := emit 0x32 code p0 p1 p2 p3 s
/-- The Teller that serves cluster `c`. -/
def emitTeller (c code p0 p1 p2 p3 : Nat) (s : State) : State := emit (c % 32) code p0 p1 p2 p3 s
/-- The Treasury core. -/
def emitTrs (code p0 p1 p2 p3 : Nat) (s : State) : State := emit 0x20 code p0 p1 p2 p3 s
/-- The Clerk. -/
def emitClerk (code p0 p1 p2 p3 : Nat) (s : State) : State := emit 0x21 code p0 p1 p2 p3 s
/-- Vault. -/
def emitVault (code p0 p1 p2 p3 : Nat) (s : State) : State := emit 0x22 code p0 p1 p2 p3 s
/-- The synchronisation banks. -/
def emitSyn (code p0 p1 p2 p3 : Nat) (s : State) : State := emit 0x33 code p0 p1 p2 p3 s
/-- The DMA engine. -/
def emitDma (code p0 p1 p2 p3 : Nat) (s : State) : State := emit 0x34 code p0 p1 p2 p3 s
/-- Tally. -/
def emitTly (code p0 p1 p2 p3 : Nat) (s : State) : State := emit 0x35 code p0 p1 p2 p3 s
/-- The thermal trip. -/
def emitTrip (code p0 p1 p2 p3 : Nat) (s : State) : State := emit 0x38 code p0 p1 p2 p3 s
/-- The ceiling port and the hardware fallback limiters. -/
def emitCp (code p0 p1 p2 p3 : Nat) (s : State) : State := emit 0x37 code p0 p1 p2 p3 s

/-- What a descriptor's opcode says for the checks of Table 14.4. -/
structure DescSpec where
  opcode : Nat
  basic : Bool := false
  tenant : Bool := false
  /-- the recovery image accepts it (R427) -/
  recov : Bool := false
  feature : Option Nat := none
  /-- the operand's `CTX`, for check 6 -/
  ctxField : Option Nat := none
  /-- host addresses with their length and alignment, for check 7 -/
  addrs : List (Nat × Nat × Nat) := []
deriving DecidableEq, Repr

/-- Check 7 for one address: aligned, and from a tenant inside its window (R371). -/
def addrOk (x : Ctx) (tenant : Bool) (a : Nat × Nat × Nat) : Bool :=
  decide (a.1 % a.2.2 = 0) &&
    (!tenant || (decide (x.winBase ≤ a.1) && decide (a.1 + a.2.1 ≤ x.winBase + 2 ^ x.winLog)))

/-- Checks 2 to 7 of Table 14.4 in order; 0 when all pass. Check 1 belongs to the fetch. -/
def descCheck (h : DescHdr) (d : DescSpec) (s : State) : Nat :=
  let c := h.ctx.val
  if (s.hif.mismatch && !d.basic) || (s.fw.recovery && !d.recov) then 0x9005
  else if decide (c ≠ 0) && !d.tenant then 0x9003
  else if (match d.feature with | some b => !s.feat b | none => false) then 0x9004
  else if !h.reservedZero then 0x9002
  else if decide (c ≠ 0) && (match d.ctxField with | some k => decide (k ≠ c) | none => false) then 0x9003
  else if d.addrs.any fun a => !addrOk (s.getCtx c) (decide (c ≠ 0)) a then 0x9007
  else 0

/-- A context has a descriptor that the block may start now (R377). -/
def Ctx.ready (x : Ctx) : Bool :=
  decide (x.st = 1) && decide (x.sqHead ≠ x.sqTail) && !x.busy && decide (1 ≤ x.room) &&
    x.fetchFail.isNone

/-- Steps from the turn's context to `k` in the round. -/
def drrDist (turn k : Nat) : Nat := (k + 511 - turn % 512) % 512

/-- Deficit round-robin (R383): context `c` may be served next. -/
def drrMay (c : Nat) (s : State) : Bool :=
  let h := s.hif
  if c = h.turn ∧ 0 < h.left then true
  else h.ctx.all fun e =>
    e.1 = c || !e.2.ready ||
      (decide (e.1 ≠ h.turn ∨ h.left = 0) && decide (drrDist h.turn c < drrDist h.turn e.1))

/-- Account the descriptor to the quantum of context `c`. -/
def drrTake (c : Nat) (s : State) : State :=
  s.onHif fun h =>
    if c = h.turn ∧ 0 < h.left then { h with left := h.left - 1 }
    else { h with turn := c, left := (Tbl.get {} h.ctx c).schedW - 1 }

/-- The descriptor at the head of context `c` may start now. -/
def descMay (c : Nat) (s : State) : Bool := s.clerkUp && (s.getCtx c).ready && drrMay c s

/-- What performing a descriptor leads to: a status and result, or a long command that completes later. -/
inductive DescOut where
  | done (status result : Nat) (s : State)
  | wait (s : State)

/-- Descriptors of a context that have not started (R379). -/
def Ctx.left (x : Ctx) : Nat := (x.sqTail + 65536 - x.sqHead) % 65536

/-- Remove every entry of a context from every queue. -/
def dropHints (p : HintEnt → Bool) (s : State) : State :=
  s.onFc fun f => { f with q := f.q.filter fun e => match e.2 with | some x => !p x | none => true }

/-- R379: a context becomes CLOSED: its descriptors that have not started are dropped, a tenant's floor, placement and
hint entries are removed. -/
def ctxShut (c : Nat) (s : State) : State :=
  let x := s.getCtx c
  let s1 := s.updCtx c fun y => { ({} : Ctx) with done := y.done, evtLost := y.evtLost, last := y.last, irqLast := y.irqLast }
  let s2 := if c = 0 then s1.onHif fun h => { h with c0Ring := if bitOf h.c0Ring 8 then h.c0Ring - 2 ^ 8 else h.c0Ring }
    else dropHints (fun e => e.ctx = c) (s1.updTx c fun y => { y with floor := 0, cores := 0, place := none, breach := 0 })
  emitClerk 0x9012 c x.left 0 0 s2

/-- Write the completion of a descriptor (R374, R377). `RESULT` is 0 on failure; DMA_HOST_FAIL and DMA_NV_FAIL carry what
was moved (Table 15.12). -/
def completeOne (h : DescHdr) (opcode status result : Nat) (s : State) : State :=
  let c := h.ctx.val
  let s1 := s.updCtx c fun x =>
    { x with done := satInc 16 x.done, last := if status = 0 then x.last else status, busy := false }
  let keep := decide (status = 0 ∨ status = 0xA006 ∨ status = 0xA007)
  writeEntry c h.tag status (if keep then result else 0) opcode false h.notify s1

/-- Complete a descriptor; a close of its context that waited for it follows, and completes in turn (Table 14.9). -/
def complete (h : DescHdr) (opcode status result : Nat) (s : State) : State :=
  let c := h.ctx.val
  let s1 := completeOne h opcode status result s
  let x := s1.getCtx c
  match x.closing with
  | some g =>
    let s2 := completeOne g 0x0011 0 x.left (ctxShut c s1)
    if (s2.getCtx g.ctx.val).closeC0 then ctxShut g.ctx.val s2 else s2
  | none => if x.closeC0 then ctxShut c s1 else s1

/-- A descriptor of context `c` starts: the turn is accounted and `SQ_HEAD` advances (R377, R383). -/
def descBegin (c : Nat) (s : State) : State :=
  (drrTake c s).updCtx c fun x => { x with sqHead := (x.sqHead + 1) % 65536 }

/-- Run the descriptor at the head of its context's ring: checks, effect, completion (R377, R378); no
descriptor is read while `HM_RST_N` is low (R39). -/
def runDesc (h : DescHdr) (d : DescSpec) (body : State → DescOut) (s : State) : State :=
  let c := h.ctx.val
  if !descMay c s || s.hm.inReset then s
  else
    let s1 := descBegin c s
    let st := descCheck h d s
    if st ≠ 0 then complete h d.opcode st 0 s1
    else match body s1 with
      | .done st2 res s2 => complete h d.opcode st2 res s2
      | .wait s2 => s2.updCtx c fun x => { x with busy := true }

/-- A descriptor that fails: nothing of it takes effect. -/
def DescOut.fail (status : Nat) (s : State) : DescOut := .done status 0 s

/-- A mask's bit for each index of a list. -/
def maskOf (l : List Nat) : Nat := l.foldl (fun m i => if bitOf m i then m else m + 2 ^ i) 0

/-- The indices below `n` set in a mask. -/
def maskIdx (n m : Nat) : List Nat := (List.range n).filter (bitOf m)

/-- The least element under a measure, the first of equals. -/
def argMin (f : Nat → Int) : List Nat → Option Nat
  | [] => none
  | a :: t =>
    match argMin f t with
    | none => some a
    | some b => if f a ≤ f b then some a else some b

/-- Mean of a list, rounded under R492. -/
def meanN (l : List Nat) : Nat := if l.length = 0 then 0 else divRoundN (l.foldl (· + ·) 0) l.length

/-- Mean of signed numbers, rounded under R492. -/
def meanI (l : List Int) : Int := if l.length = 0 then 0 else divRound (l.foldl (· + ·) 0) l.length

end Sys2Proof.Machine
end

