-- ==== Sys2Proof/Machine/CluOps.lean ====
section
/-!
DEFINITION. Shared operations on domains, clusters and their loops: the limit gate on dividers, leaf commands, cluster
stop and restart, level caps and the rows of the V/F/activity table.
-/
namespace Sys2Proof.Machine

/-- D_min(d) − 1 of the limit gate (R109); an unprogrammed fuse gives the smallest divider, 2. -/
def State.dminCode (s : State) (d : Nat) : Nat := max 2 (s.fuse.dmin.getD d 0) - 1

/-- Domains configured, in rising order. -/
def State.doms (s : State) : List Nat := (List.range 40).filter fun d => (s.domCfg d).present
/-- Clusters configured, in rising order. -/
def State.clusters (s : State) : List Nat := (List.range 32).filter fun c => (s.cluCfg c).present
/-- Clusters on domain `d`. -/
def State.domClusters (s : State) (d : Nat) : List Nat := s.clusters.filter fun c => (s.cluCfg c).dom = d
/-- Clusters that rail `r` supplies. -/
def State.railClusters (s : State) (r : Nat) : List Nat := s.clusters.filter fun c => bitOf (s.cluCfg c).rails r

/-- Row `l` of a cluster's V/F/activity table. -/
def Clu.row (x : Clu) (l : Nat) : VftRow := Tbl.get {} x.vft l

/-- The applied level ⌊a⌋ of a cluster. -/
def Clu.level (x : Clu) : Nat := x.a / 256

/-- R109: the divider code after the limit gate. -/
def gateDiv (s : State) (d code : Nat) : Nat := max code (s.dminCode d)

/-- R109: pass a divider request through the gate, recording the first raised request of an entry with DIV_LIMIT. -/
def gateDivRec (d code : Nat) (s : State) : State :=
  if code < s.dminCode d then
    if (s.getDom d).limited then s
    else (s.updDom d fun x => { x with limited := true }) |> emitClk 0x1030 d code (s.dminCode d) 0
  else s.updDom d fun x => { x with limited := false }

/-- A root change or relock guard is in force: dividers are not sent, only recorded as D_tgt (R106). -/
def State.guarded (s : State) : Bool := s.clk.root.change.isSome

/-- Send a code that has passed the limit gate over `DCTL` (R110); under a root change it is only D_tgt (R106). -/
def putDiv (d g : Nat) (s : State) : State :=
  s.updDom d fun x =>
    if x.stopped || s.guarded then { x with tgt := g }
    else if x.sent = none ∧ x.cur = g then { x with tgt := g }
    else { x with tgt := g, sent := some g, acked := false, cmdAt := s.now, cmdOpen := true }

/-- Send a divider request towards the leaf through the limit gate (R109, R110). -/
def sendDiv (d code : Nat) (s : State) : State := putDiv d (gateDiv s d code) (gateDivRec d code s)

/-- The divider code in force towards the leaf: the newest code sent, or the one applied. -/
def Dom.code (x : Dom) : Nat := x.sent.getD x.cur

/-- The divider against which a new request is compared: under a root change that is D_tgt (R106). -/
def Dom.base (x : Dom) (guarded : Bool) : Nat := if guarded then x.tgt else x.code

/-- Hold a leaf's output low at once, ending any extension (R111, R113). -/
def domStopNow (d : Nat) (s : State) : State :=
  s.updDom d fun x =>
    { x with stopped := true, stopSent := false, sent := none, ext := false,
             cmdAt := if x.stopped then x.cmdAt else s.now, cmdOpen := x.cmdOpen || !x.stopped }

/-- Send a stop command whose acknowledgement is awaited (R179). -/
def domStopSend (d : Nat) (s : State) : State :=
  s.updDom d fun x => if x.stopped then x else { x with stopSent := true, sent := none, cmdAt := s.now, cmdOpen := true }

/-- R111: the code at which a domain starts. -/
def domStartCode (s : State) (d : Nat) : Nat :=
  let g := s.domCfg d
  if g.clValid then
    (s.domClusters d).foldl (fun m c => max m ((s.getClu c).row 0).div) (s.dminCode d)
  else max g.dfix (s.dminCode d)

/-- The clocks may run: the root has locked and is not held, which it is not in a relock under its guard (R106), and
neither a supply condition (R69) nor a blank or corrupt limit gate (R432) stops them. -/
def State.rootUp (s : State) : Bool :=
  !s.clk.root.held && !s.pwr.vanaLoss && !s.fw.gateBlank && !s.fw.gateCrc

/-- A domain is to run: its clusters are out of STOPPED, or control has started for a fixed domain (R111). -/
def domWanted (s : State) (d : Nat) : Bool :=
  (s.domCfg d).present && !(s.getDom d).failed && s.rootUp &&
    (if (s.domCfg d).clValid then
       !(s.domClusters d).isEmpty && (s.domClusters d).all (fun c => decide ((s.getClu c).st ≠ 0))
     else s.clusters.any fun c => (s.getClu c).started || (s.getClu c).warmHold)

/-- A start command to a leaf: a complete cycle at its start divider, under a root change not below its guard (R106, R111). -/
def domGo (d : Nat) (s : State) : State :=
  let g := domStartCode s d
  s.updDom d fun x =>
    { x with stopped := false, stopSent := false, sent := none, cur := if s.guarded then max g x.guard else g, tgt := g,
             acked := true, raiseWait := false, cmdAt := s.now, cmdOpen := true }

/-- Start a domain at its start divider (R111). -/
def domStart (d : Nat) (s : State) : State := if domWanted s d && (s.getDom d).stopped then domGo d s else s

/-- Start every domain that is to run. -/
def domStartAll (s : State) : State := forList s.doms domStart s

/-- A cause holds the cluster STOPPED (Table 9.6). -/
def Clu.held (x : Clu) : Bool := x.stopRef || x.stopPll || x.stopRail || x.stopLeaf || x.stopVana

/-- Reclaim a core's loan (R337, R338): it is no longer lent at once, and a loan that Treasury has taken starts its way
back (R302). Causes: 0 the wait ended, 1 the cluster left RUN, 2 disabled, 3 warm reset. -/
def reclaimCore (cause c k : Nat) (s : State) : State :=
  let x := s.getCore k
  match x.lent with
  | none => s
  | some t =>
    let s1 := s.updCore k fun y => { y with lent := none, loan := 0, taken := false, reclaimed := some s.now }
    let s2 := if x.taken && decide (0 < x.loan) then
        let w := (s.clusters.filter fun d => decide (0 < (s.getTrsCl d).borrowed)).map fun d =>
          (d, ((s.getClu d).row (s.getClu d).level).pest)
        s1.onTrs fun r => { r with rets := r.rets ++ [{ clu := c, amt := x.loan, at_ := s.now, powers := w }] }
      else s1
    if s.syn.log then emitSyn 0x7021 k x.loan (s.now - t) cause s2 else s2

/-- Cores of a cluster, in rising order. -/
def State.cluCores (s : State) (c : Nat) : List Nat := maskIdx 128 (s.cluCfg c).cores

/-- Reclaim every loan of a cluster (R338). -/
def reclaimClu (cause c : Nat) (s : State) : State := forList (s.cluCores c) (reclaimCore cause c) s

/-- Put a cluster into STOPPED: level 0, ceiling 0 with STOP; its loans are reclaimed; its domain is stopped by the
caller. -/
def cluStop (c : Nat) (s : State) : State :=
  let t := if (s.getClu c).st = 0 then s else s.updFwCore c fun x => { x with idleSince := some s.now }
  reclaimClu 1 c (t.updClu c fun x =>
    { x with st := 0, a := 0, ceil := 0, dpend := false, stepDown := false, slopeAct := false })

/-- Every loop of a cluster is preset to the applied level before its next increment (R242). -/
def presetLoops (c : Nat) (s : State) : State :=
  forList (List.range 6) (fun j => State.updLp c j fun l => { l with reform := true }) s

/-- Leave STOPPED (R259): RUN from level 0, every loop preset. After a warm reset and before control start, and during
the hold of a live update, the cluster enters HOLD instead (R29, R260). A sleeping Teller is woken first (R416). -/
def cluRestart (c : Nat) (s : State) : State :=
  let x := s.getClu c
  if x.st = 0 && (x.started || x.warmHold) && !x.held && (s.cluCfg c).present && s.rootUp && (s.getFwCore c).st ≠ 2 then
    if x.started && !s.fw.handoff then
      (s.updClu c fun y => { y with st := 1, a := 0, w := 0, wloop := 7 }) |> presetLoops c
    else
      let cause := if x.started then 0 else 1
      (s.updClu c fun y => { y with st := 2, a := 0, w := 0, wloop := 7, holdCause := cause, holdSince := s.now })
      |> emitCp 0x5040 cause (2 ^ c) 0 0
  else s

/-- Restart every cluster that no cause holds any longer, then the domains (R111, R259). -/
def restartAll (s : State) : State := domStartAll (forList s.clusters cluRestart s)

/-- Cap a cluster at its fallback level with STEP_DOWN, without the slope limit, in a hold too (R261, R262, Table 9.7). -/
def capCluster (c : Nat) (s : State) : State :=
  let fb := (s.cluCfg c).fbLevel
  s.updClu c fun x =>
    if x.st ≠ 0 && decide (256 * fb < x.a) then
      { x with a := 256 * fb, ceil := (x.row fb).ceil, stepDown := true }
    else x

/-- A backstop, an overload throttle or trip pending caps the cluster at its fallback level. -/
def State.capped (s : State) (c : Nat) : Bool :=
  (s.getBack c).active || (s.getClu c).overload || (s.getClu c).tripPend.isSome

/-- The cluster is in manual: every present loop from 0 to 4 is in MANUAL (R246). -/
def State.inManual (s : State) (c : Nat) : Bool :=
  (List.range 5).all fun j => !(s.loopCfg c j).present || !(s.getLp c j).auto

/-- Put a running cluster into HOLD under its fallback limiter (R260). -/
def cluHold (cause c : Nat) (s : State) : State :=
  s.updClu c fun x => if x.st = 1 then { x with st := 2, holdCause := cause, holdSince := s.now } else x

/-- The running clusters enter HOLD; the entry is recorded once with the clusters that entered (R260). -/
def holdAll (cause : Nat) (s : State) : State :=
  let l := s.clusters.filter fun c => (s.getClu c).st = 1
  if l = [] then s else forList l (cluHold cause) s |> emitCp 0x5040 cause (maskOf l) 0 0

/-- A cluster leaves HOLD, recorded with FALLBACK_EXIT. -/
def cluUnhold (c : Nat) (s : State) : State :=
  let x := s.getClu c
  if x.st = 2 then
    (s.updClu c fun y => { y with st := 1 }) |> presetLoops c |> emitCp 0x5041 x.holdCause (s.now - x.holdSince) 0 0
  else s

/-- The loops are in the hold of a live update: LIMIT, SELECT and OBSERVER slots do not run (R89). -/
def State.inHold (s : State) : Bool := s.clusters.any fun c => decide ((s.getClu c).st = 2 ∧ (s.getClu c).holdCause = 0)

end Sys2Proof.Machine
end

