-- ==== Sys2Proof/Machine/FRecOps.lean ====
section
/-!
DEFINITION. The fault-record writer: the snapshot of a record, its queue, its bytes and CRC (R196–R201).
-/
namespace Sys2Proof.Machine

/-- Rails configured, in rising order. -/
def State.railIds (s : State) : List Nat := (List.range 8).filter fun r => (s.railCfg r).present
/-- Phases of rail `r`, in rising order. -/
def State.railPhases (s : State) (r : Nat) : List Nat :=
  (List.range 128).filter fun p => (s.phCfg p).present && decide ((s.phCfg p).rail = r)
/-- Droop detectors supplied by rail `r`. -/
def State.railDets (s : State) (r : Nat) : List Nat :=
  (List.range 1024).filter fun d => (s.detCfg d).present && decide ((s.detCfg d).rail = r)
/-- A phase that is neither out for Audit, disabled by protection nor unusable (R177, R454). -/
def Phase.usable (x : Phase) : Bool := decide (x.st ≠ 5) && decide (x.st ≠ 6) && decide (x.st ≠ 7)
/-- Usable phases of a rail. -/
def State.usablePhases (s : State) (r : Nat) : List Nat := (s.railPhases r).filter fun p => (s.getPh p).usable
/-- Active phases of a rail, the joining ones included. -/
def State.activePhases (s : State) (r : Nat) : List Nat :=
  (s.railPhases r).filter fun p => (s.getPh p).st = 2 ∨ (s.getPh p).st = 3

/-- V_in in use on a rail: the mean of the last 4 accepted readings, or the nominal value (R164). -/
def State.vin (s : State) (r : Nat) : Nat :=
  if (s.getMeas r).vinNom then (s.railCfg r).vinNom else meanN (s.getMeas r).vins

/-- L_s, the trip limit of a site held in the limit gate (R122, R445): Tcrit less the site's offset. -/
def State.siteLimit (s : State) (i : Nat) : Int := s.fuse.tcrit - s.fuse.tripOfs.getD i 0

/-- The site is neither excluded nor in its overrange pause, which lasts until the first sample that is used again (R123). -/
def Site.inService (x : Site) : Bool := !x.excl && !x.ringFail && decide (x.pause = 0) && !x.wait

/-- Plain neighbour estimate of a site (R123, R124): none when no neighbour in service has weight. -/
def plainEst (s : State) (i : Nat) : Option Int :=
  let g := s.siteCfg i
  let use := fun k => let x := s.getSite k
    x.inService && x.meas.isSome
  let total : Nat := g.neigh.foldl (fun m n => m + n.2) 0
  let inSv := g.neigh.filter fun n => use n.1
  let wIn : Nat := inSv.foldl (fun m n => m + n.2) 0
  if wIn = 0 then none
  else
    let sum : Int := inSv.foldl (fun (m : Int) n => m + (n.2 : Int) * ((s.getSite n.1).meas.getD 0)) 0
    some (divRound (sum * total) (wIn * 256) + g.b)

/-- The prediction of a site: the plausibility net's newest output, or the plain estimate (R124). -/
def State.sitePred (s : State) (i : Nat) : Option Int :=
  let x := s.getSite i
  if x.net then (match x.netPred with | some v => some v | none => plainEst s i) else plainEst s i

/-- The value the loops use for a site (R126). -/
def State.siteUsed (s : State) (i : Nat) : Option Int :=
  let x := s.getSite i
  if !(s.siteCfg i).present then none
  else if x.inService then x.meas
  else
    let nb := (s.siteCfg i).neigh.filter fun n => (s.getSite n.1).inService
    if nb = [] then some (s.siteLimit i)
    else match s.sitePred i with
      | some p => some (p + 256)
      | none => some (s.siteLimit i)

/-- Highest used site value and its site. -/
def State.hotSite (s : State) : Option (Int × Nat) :=
  (List.range 512).foldl (fun m i =>
    if !(s.siteCfg i).present then m
    else match s.siteUsed i, m with
      | none, m => m
      | some v, none => some (v, i)
      | some v, some (w, j) => if w < v then some (v, i) else some (w, j)) none

/-- Highest stage temperature and its phase. -/
def State.hotStage (s : State) : Option (Int × Nat) :=
  (List.range 128).foldl (fun m p =>
    if !(s.phCfg p).present then m
    else match m with
      | none => some ((s.getPh p).temp, p)
      | some (w, j) => if w < (s.getPh p).temp then some ((s.getPh p).temp, p) else some (w, j)) none

/-- The times of a list within the sliding hour (R192, R450). -/
def recentHour (now : Nat) (l : List Nat) : List Nat := l.filter fun t => now < t + 3600 * nsPerS

/-- Rails in RAMP_UP or ON, as a mask. -/
def State.railsOn (s : State) : Nat :=
  maskOf ((List.range 8).filter fun r => (s.getProt r).st = 2 ∨ (s.getProt r).st = 3)

/-- Serial NOR cannot be read or written for anything but a fault record: it does not answer, or VANA is lost (R71). -/
def State.nvDown (s : State) : Bool := s.frec.nvFail || s.pwr.vanaLoss

/-- A commit is in progress: a record is queued and the ring can take it (R196). -/
def FRec.busy (f : FRec) : Bool := f.queue ≠ [] && f.ready && !f.nvFail

/-- R61: before its first access after a reset the block issues the software reset sequence 0x66, 0x99. -/
def NvPort.access (p : NvPort) : NvPort := { p with csHigh := false, cmds := if p.cmds = [] then [0x66, 0x99] else p.cmds }

/-- R61: at a boot the block reads SFDP (0x5A) after the reset sequence. -/
def NvPort.boot (ok : Bool) (p : NvPort) : NvPort :=
  let q := p.access
  { q with cmds := q.cmds ++ [0x5A], sfdp := if ok then some p.dev else none }

/-- The boot's first access to serial NOR: addressing, erase types and the quad-enable method are learned (R61). -/
def nvBoot (s : State) : State :=
  if s.pwr.vanaLoss then s else s.onFrec fun f => { f with nv := f.nv.boot (!f.nvFail) }

/-- The snapshot of Table 7.9, without `SEQ` and CRC, which the commit gives it. -/
def snapshot (code rail phase off p0 p1 p2 : Nat) (s : State) : FRecord :=
  let dis := (List.range 128).filter fun p => (s.getPh p).st = 6
  let hot := s.hotSite
  let stg := s.hotStage
  { flags := b2n s.tb.hold + 2 * b2n (!s.fw.run) + 4 * b2n (!s.clk.ref.present) + 8 * b2n s.sns.noMaj,
    time := s.now, inc := s.clr.inc, code := code, rail := rail, phase := phase, railsOn := s.railsOn, railsOff := off,
    straps := s.pwr.vsel + 8 * s.pwr.refsel, trips := satU 8 (recentHour s.now s.aud.trips).length,
    fwVer := if s.fw.run then s.fw.cur.ver else 0,
    v := (List.range 8).map fun r => (s.getMeas r).v, i := (List.range 8).map fun r => (s.getMeas r).iRail,
    target := (List.range 8).map fun r => (s.getReg r).target,
    tMax := match hot with | some (v, _) => encS 16 (satS 16 v) | none => 0x8000,
    tMaxSite := match hot with | some (_, i) => i | none => 0xFFFF,
    tStage := match stg with | some (v, _) => encS 16 (satS 16 v) | none => 0x8000,
    tStagePh := match stg with | some (_, p) => p | none => 0xFF,
    pPkg := s.trs.pPkg, cap := s.trs.cap, p0 := satU 32 p0, p1 := satU 32 p1, p2 := satU 32 p2,
    energy := s.trs.energy, vin := if rail = 0xFF then 0 else s.vin rail, shed := s.frm.level,
    clk := b2n s.clk.ref.present + 2 * b2n s.clk.ref.stable + 4 * b2n s.clk.ref.drift + 8 * b2n s.clk.ref.quorum,
    latchedPh := dis.length % 256 + 256 * (dis.head?.getD 0xFF) }

/-- Count a record that cannot be committed (R196). -/
def frecLost (code reason : Nat) (s : State) : State :=
  (s.onFrec fun f => { f with notCommit := satInc 16 f.notCommit, overflow := true })
    |> emitRail 0x3061 code reason 0 0

/-- Take the snapshot of a fault into the queue of 8, or count it as not committed (R196). -/
def frecTake (code rail phase off p0 p1 p2 : Nat) (s : State) : State :=
  if s.frec.nvFail then frecLost code 0 s
  else if !s.frec.ready then frecLost code 2 s
  else if 8 ≤ s.frec.queue.length then frecLost code 3 s
  else s.onFrec fun f => { f with queue := f.queue ++ [snapshot code rail phase off p0 p1 p2 s], nv := f.nv.access }

/-- One bit step of the reflected CRC-32 of Table 7.9. -/
def crcBit (c : BitVec 32) : BitVec 32 := if c.getLsbD 0 then (c >>> 1) ^^^ 0xEDB88320#32 else c >>> 1

/-- CRC-32 over bytes (Table 7.9). -/
def crc32 (l : List Nat) : Nat :=
  let c := l.foldl (fun c b => (List.range 8).foldl (fun x _ => crcBit x) (c ^^^ BitVec.ofNat 32 b)) (0xFFFFFFFF#32)
  (c ^^^ 0xFFFFFFFF#32).toNat

/-- The `n` entries of a list, 0 where it is shorter, in `w` bytes each. -/
def listBytes (n w : Nat) (l : List Nat) : List Nat := (List.range n).flatMap fun i => leBytes w (l.getD i 0)

/-- Bytes 0–123 of a record (Table 7.9). -/
def frecBody (f : FRecord) : List Nat :=
  leBytes 2 0xC940 ++ leBytes 1 4 ++ leBytes 1 f.flags ++ leBytes 4 f.seq ++ leBytes 8 f.time ++ leBytes 4 f.inc ++
  leBytes 2 f.code ++ leBytes 1 f.rail ++ leBytes 1 f.phase ++ leBytes 1 f.railsOn ++ leBytes 1 f.railsOff ++
  leBytes 1 f.straps ++ leBytes 1 f.trips ++ leBytes 4 f.fwVer ++ listBytes 8 2 f.v ++ listBytes 8 2 f.i ++
  listBytes 8 2 f.target ++ leBytes 2 f.tMax ++ leBytes 2 f.tMaxSite ++ leBytes 2 f.tStage ++ leBytes 1 f.tStagePh ++
  [0] ++ leBytes 2 f.pPkg ++ leBytes 2 f.cap ++ leBytes 4 f.p0 ++ leBytes 4 f.p1 ++ leBytes 4 f.p2 ++
  leBytes 8 f.energy ++ leBytes 2 f.vin ++ leBytes 1 f.shed ++ leBytes 1 f.clk ++ leBytes 2 f.latchedPh ++ leBytes 6 0

/-- `CHECK` of a record's pointer entry: bits [15:0] of its CRC (R200). -/
def FRecord.check (f : FRecord) : Nat := crc32 (frecBody f) % 65536

/-- The valid pointer entries: those whose `CHECK` matches the named slot (R200). -/
def FRec.validPtrs (f : FRec) : List (Nat × Nat × Nat) :=
  f.ptrs.flatten.filter fun e => match Tbl.get none f.slots e.2.1 with | some r => r.check = e.2.2 | none => false

/-- The pointer: the valid entry with the highest `SEQ` (R200). -/
def FRec.newestPtr (f : FRec) : Option (Nat × Nat × Nat) :=
  f.validPtrs.foldl (fun m e => match m with | none => some e | some x => if x.1 < e.1 then some e else some x) none

/-- The 32 words of a record slot; an empty slot is all ones. -/
def frecWords (o : Option FRecord) : List Nat :=
  match o with
  | none => List.replicate 32 0xFFFFFFFF
  | some f =>
    let b := frecBody f
    ((List.range 31).map fun i => b.getD (4 * i) 0 + 256 * b.getD (4 * i + 1) 0 + 65536 * b.getD (4 * i + 2) 0
      + 16777216 * b.getD (4 * i + 3) 0) ++ [crc32 b]

end Sys2Proof.Machine
end

