-- ==== Sys2Proof/Machine/ClrBase.lean ====
section
/-!
DEFINITION. Clearing's messages, the sending side of a link, and the return of borrowed leases (chapter 13).
-/
namespace Sys2Proof.Machine

/-- Links that are enabled, in rising order. -/
def State.links (s : State) : List Nat := (List.range 65).filter fun l => (s.getLnk l).en

/-- Clearing runs: enabled, and the Treasury core's firmware is up. -/
def State.clrUp (s : State) : Bool := s.fwUp && s.clr.en

/-- Clearing reads its mailboxes: not while `HM_RST_N` is low (R39). -/
def State.clrReads (s : State) : Bool := s.clrUp && !s.hm.inReset

/-- `PRESENT` or `SUSPECT`. -/
def Link.up (x : Link) : Bool := decide (x.st = 2) || decide (x.st = 3)

/-- The 24 words of a message (Table 13.2); the last is the CRC-32 over bytes 0–91. -/
def clrWords (typ : Nat) (m : ClrMsg) : List Nat :=
  let b := [0xC1A0 + m.ver % 256 * 2 ^ 16 + typ % 256 * 2 ^ 24, m.flags % 2 ^ 16 + m.domain % 2 ^ 16 * 2 ^ 16, m.seq, m.inc,
    m.src, m.dst, m.peerInc, m.ackSeq, m.ts % 2 ^ 32, m.ts / 2 ^ 32 % 2 ^ 32, m.echoTs, m.echoHold,
    satU 16 m.slack + satU 16 m.amount * 2 ^ 16, m.leaseId, satU 16 m.expiryUs + m.cause % 2 ^ 16 * 2 ^ 16, satU 32 m.surplus,
    satU 32 m.need, satU 16 m.wmin, satU 32 m.chips, satU 32 m.fcNeed, 0, 0, 0]
  let w := b.map (· % 2 ^ 32)
  w ++ [crc32 (w.flatMap (leBytes 4))]

/-- The message that 24 words carry and its type; `none` if `MAGIC` or the length is wrong. -/
def clrParse (w : List Nat) : Option (Nat × ClrMsg) :=
  let g := fun k => w.getD k 0
  if w.length = 24 ∧ g 0 % 2 ^ 16 = 0xC1A0 then
    some (bits (g 0) 24 8,
      { ver := bits (g 0) 16 8, flags := bits (g 1) 0 16, domain := bits (g 1) 16 16, seq := g 2, inc := g 3, src := g 4,
        dst := g 5, peerInc := g 6, ackSeq := g 7, ts := g 8 + g 9 * 2 ^ 32, echoTs := g 10, echoHold := g 11,
        slack := bits (g 12) 0 16, amount := bits (g 12) 16 16, leaseId := g 13, expiryUs := bits (g 14) 0 16,
        cause := bits (g 14) 16 16, surplus := g 15, need := g 16, wmin := bits (g 17) 0 16, chips := g 18, fcNeed := g 19,
        reserved := decide (bits (g 17) 16 16 = 0) && decide (g 20 = 0) && decide (g 21 = 0) && decide (g 22 = 0) &&
          decide (bits (g 1) 5 11 = 0) })
  else none

/-- Send message `m` of type `typ` on link `l`: the common fields of Table 13.2 are filled in. Anything but an
acknowledgement waits for its own acknowledgement (R347). -/
def clrSend (l typ : Nat) (m : ClrMsg) (s : State) : State :=
  let x := s.getLnk l
  let seq := (x.seqOut + 1) % 2 ^ 32
  let ackOnly := bitOf m.flags 1
  let msg := { m with
    flags := m.flags + b2n s.tb.hold + (if l = 0 then 0 else 8), domain := s.clr.domain, seq := seq, inc := s.clr.inc,
    src := s.clr.id, dst := x.peer, peerInc := x.inc, ackSeq := x.seqIn, ts := s.now, echoTs := x.echoTs,
    echoHold := if x.seqIn = 0 then 0 else satU 32 (s.now - x.rxAt) }
  (s.updLnk l fun y =>
      { y with seqOut := seq, sent := if ackOnly then y.sent else y.sent ++ [{ seq := seq, at_ := s.now }] })
  |> hmWrite (.msg (x.addr + 128 * (seq % 8)) (clrWords typ msg))

/-- A message at the link's negotiated version. -/
def clrSendV (l typ : Nat) (m : ClrMsg) (s : State) : State := clrSend l typ { m with ver := (s.getLnk l).ver } s

/-- The wait fraction a message carries: v2 and v3 only. -/
def slackFor (ver : Nat) (s : State) : Nat := if 2 ≤ ver then s.syn.waitfRound else 0

/-- R351: send a JOIN with the highest version offered. -/
def clrJoin (l : Nat) (s : State) : State :=
  clrSend l 1 { ver := s.clr.vmax, slack := slackFor s.clr.vmax s } s

/-- R356: a borrowed lease begins its return: it leaves L_in at once. -/
def beginReturn (l id cause : Nat) (s : State) : State :=
  (s.updLnk l fun x => { x with bor := x.bor.map fun b =>
    if b.id = id ∧ b.ret = none then { b with ret := some (s.now, cause) } else b }).onTrs
    fun t => { t with outOfTurn := true }

/-- Borrowed leases of link `l` whose return has not begun. -/
def State.borHeld (s : State) (l : Nat) : List Bor := (s.getLnk l).bor.filter fun b => b.ret.isNone && !b.void

/-- R356: every borrowed lease of a link begins its return. -/
def returnAll (l cause : Nat) (s : State) : State :=
  forList (s.borHeld l) (fun b => beginReturn l b.id cause) s

/-- R353, R363: a lender that enters holdover keeps every lent lease of a link longer. -/
def lentHold (l : Nat) (s : State) : State :=
  s.updLnk l fun x => { x with lent := x.lent.map fun e => { e with hold := true } }

/-- R363: the chip enters holdover: the lent leases are kept longer, also those still running while Clearing is disabled, and
the borrowed ones are returned with cause 3. -/
def clrHoldEnter (s0 : State) : State :=
  let s := forList (List.range 65) lentHold s0
  if !s.clr.en then s
  else
    let held := (List.range 65).flatMap s.borHeld
    let s1 := forList (List.range 65) (fun l => returnAll l 3) s
    emitTrs 0x8024 held.length ((held.map Bor.amt).foldl (· + ·) 0) 0 0 s1

end Sys2Proof.Machine
end

