-- ==== Sys2Proof/Machine/RailOps.lean ====
section
/-!
DEFINITION. Shared operations on rails and phases: targets and references, phase outputs, stops, faults and latches
(chapters 06 and 07).
-/
namespace Sys2Proof.Machine

/-- Vmax of a rail, from the limit gate. -/
def State.vmax (s : State) (r : Nat) : Nat := s.fuse.vmax.getD r 0
/-- Entry of rail `r` in boot setpoint set `k` (R171). -/
def State.bootSet (s : State) (k r : Nat) : Nat := (s.fuse.boot.getD k []).getD r 0

/-- R171, R195: the target of a rail at a start. -/
def State.startTarget (s : State) (r : Nat) (cold : Bool) : Nat :=
  let v := s.bootSet s.pwr.vsel r
  if v = 0 && !cold then (s.railCfg r).vmin else v

/-- The request a rail's target follows before the limit gate (R150). -/
def State.rawTarget (s : State) (r : Nat) : Nat :=
  let x := s.getReg r
  match x.forced with
  | some v => v
  | none =>
    match x.host with
    | some v => v
    | none => (s.railClusters r).foldl (fun m c => max m (s.getClu c).vreq) 0

/-- Apply a target through the limit gate: clamped to Vmax with VMAX_CLAMP, raised to Vmin; a new target clears
`REACHED` (R150, R152). -/
def setTarget (r v : Nat) (s : State) : State :=
  let vm := s.vmax r
  let s1 :=
    if vm < v && due s.now nsPerMs (s.getMeas r).vmaxRec then
      (s.updMeas r fun m => { m with vmaxRec := some s.now }) |> emitRail 0x3801 r v vm 0
    else s
  let t := min vm (max v (s.railCfg r).vmin)
  s1.updReg r fun x => if x.target = t then x else { x with target := t, reached := false }

/-- Bring a regulating rail's target up to date with its request, unless it is held (R21, R150). -/
def retarget (r : Nat) (s : State) : State :=
  if (s.getReg r).hold then s
  else if (s.getProt r).st = 2 ∨ (s.getProt r).st = 3 then setTarget r (s.rawTarget r) s
  else s

/-- V_ref less the load-line drop, in 0.25 mV: R_LL in µΩ times I in 1/8 A (R152). The drop, like the mean it is compared with, is
rounded to 0.25 mV: the spec gives no resolution (log entry 89). -/
def State.vLoad (s : State) (r : Nat) : Int :=
  let x := s.getReg r
  (x.vref : Int) - divRound ((x.act.rll * (s.getMeas r).iRail : Nat) : Int) 2000

/-- V_eff of a rail, clamped to Vmax (R152). -/
def State.veff (s : State) (r : Nat) : Int := min (s.vLoad r + ((s.getReg r).vpp : Int)) (s.vmax r)

/-- R_LL·I correction aside, both conditions of `REACHED` (R152). -/
def State.isReached (s : State) (r : Nat) : Bool :=
  let m := s.getMeas r
  let mean := meanN m.vLast
  decide ((s.getReg r).vref = (s.getReg r).target) && decide (m.vLast.length = 8) &&
    decide (s.vLoad r - 40 ≤ (mean : Int) ∧ (mean : Int) ≤ s.vLoad r + 40)

/-- A phase's trim starts at 0, and so does its time at the limit (R154, R158). -/
def Phase.noTrim (x : Phase) : Phase := { x with trim := 0, trimSince := none, trimRec := false }

/-- End a brake, recording the first after 1 s without one (R161). -/
def brakeStop (r : Nat) (s : State) : State :=
  let x := s.getReg r
  match x.brake with
  | none => s
  | some t =>
    let s1 := s.updReg r fun y => { y with brake := none, brakeEnd := some s.now, brakeRec := false }
    if x.brakeRec then emitRail 0x3810 r (s.now - t) x.brakePeak 0 s1 else s1

/-- Both outputs of a phase low: both switches off (R53, R148). -/
def phOff (p : Nat) (s : State) : State := s.updPh p fun x => { x with pen := false, pwm := false }

/-- Every `PEN` of a rail low. -/
def railPenLow (r : Nat) (s : State) : State := forList (s.railPhases r) phOff s

/-- Put the usable phases of a rail into state `k` (1 off, 2 active), leaving shed, Audit and disabled ones. -/
def railPhasesTo (r k : Nat) (s : State) : State :=
  forList (s.railPhases r) (fun p => State.updPh p fun x =>
    if x.st = 1 ∨ x.st = 2 ∨ x.st = 3 ∨ x.st = 4 then { x with st := k, joinAt := none } else x) s

/-- R179: stop the clusters that a stopping rail supplies and send a stop to their domains. -/
def stopClustersOf (r : Nat) (s : State) : State :=
  forList (s.railClusters r) (fun c t =>
    domStopSend (t.cluCfg c).dom (cluStop c (t.updClu c fun x => { x with stopRail := true }))) s

/-- The rails that are neither stopping, stopped nor faulted. -/
def RailProt.running (x : RailProt) : Bool := decide (x.st = 1) || decide (x.st = 2) || decide (x.st = 3) || decide (x.st = 4)

/-- Enter FAULT with `PEN` low at once; a rail in CROWBAR or LATCHED keeps its state (R181, R182). -/
def railFault (cause r : Nat) (s : State) : State :=
  if (s.getProt r).st = 6 ∨ (s.getProt r).st = 7 then s
  else
    (stopClustersOf r (railPhasesTo r 1 (railPenLow r (brakeStop r s)))).updProt r (fun x =>
        { x with st := 5, cause := cause, zeroAt := none }) |> fun t =>
      t.updReg r fun x => { x with reached := false, vref := 0, vpp := 0, vppTgt := 0, nlLo := false, nlHi := false }

/-- Rails that track `r` in modes 1, 2 or 3, directly or indirectly, within 8 levels. -/
def trackers (s : State) : Nat → Nat → List Nat
  | 0, _ => []
  | n + 1, r =>
    let l := s.railIds.filter fun k => (s.railCfg k).master = r ∧ (1 ≤ (s.railCfg k).mode ∧ (s.railCfg k).mode ≤ 3)
    l ++ l.flatMap (trackers s n)

/-- The rails of a fast stop that have not been stopped, at their highest level (R181). -/
def stopLevel (s : State) (rails : List Nat) : Nat :=
  (rails.filter fun r => (s.getProt r).running).foldl (fun m r => max m (s.railCfg r).level) 0

/-- Rails that are to start in a request (mask) and are not yet ON or FAULT. -/
def startPending (s : State) (q : StartSeq) : List Nat :=
  (maskIdx 8 q.rails).filter fun r => (s.getProt r).st = 1 ∨ (s.getProt r).st = 2

/-- A rail of a stop in progress. -/
def State.inStop (s : State) (r : Nat) : Bool := s.rail.stops.any fun q => bitOf q.rails r

/-- R449: the clusters whose supplying rails are all ON, and none of them about to stop, are no longer held STOPPED by a
rail. -/
def railsBack (s : State) : State :=
  forList (s.clusters.filter fun c => s.railIds.all fun r =>
      !bitOf (s.cluCfg c).rails r || (decide ((s.getProt r).st = 3) && !s.inStop r))
    (fun c => State.updClu c fun x => { x with stopRail := false }) s

/-- The end of one start (step 6 of Table 7.3, R449): START_DONE, then the clusters of the rails that are ON restart. -/
def startDone (q : StartSeq) (s : State) : State :=
  let on := maskOf ((maskIdx 8 q.rails).filter fun r => (s.getProt r).st = 3)
  (forList (maskIdx 8 q.rails) (fun r => State.updProt r fun x => { x with startT := satU 32 (s.now - q.began) }) s)
    |> emitRail 0x3001 on (s.now - q.began) 0 0 |> railsBack |> restartAll

/-- End every start all of whose rails are ON or FAULT. -/
def finishStart (s : State) : State :=
  let ended := s.rail.starts.filter fun q => startPending s q = []
  forList ended startDone (s.onRail fun x => { x with starts := x.starts.filter fun q => startPending s q ≠ [] })

/-- R450: the third trip latches every configured rail; a rail in CROWBAR at its release. -/
def latchAll (s : State) : State :=
  forList s.railIds (fun r => State.updProt r fun x => { x with latched := true, st := if x.st = 6 then 6 else 7 }) s

/-- A stop is over: no rail of it is running. -/
def stopOver (s : State) (q : StopSeq) : Bool := (maskIdx 8 q.rails).all fun r => !(s.getProt r).running

/-- Drop the stops that are over, each recorded with STOP_DONE (R180); the stop of a latched trip latches every rail
(R450). -/
def finishStops (s : State) : State :=
  let ended := s.rail.stops.filter (stopOver s)
  let s1 := forList ended (fun q => emitRail 0x3002 q.rails (b2n q.fast) q.cause 0)
    (s.onRail fun r => { r with stops := r.stops.filter fun q => !stopOver s q })
  if s.aud.tripLatched && ended.any fun q => decide (q.cause = 8) then latchAll s1 else s1

/-- `RAIL_PROT_STAT.CAUSE` of a rail in a stop: 6 for a rail that stops with its master (R182). -/
def StopSeq.causeOf (q : StopSeq) (r : Nat) : Nat := if bitOf q.track r then 6 else q.cause

/-- Begin a fast stop (R181): the running rails of the highest level go to FAULT at once; the lower levels follow
after their T_FS by FAST_STOP_LEVEL. `track` names the rails that stop with their master. -/
def fastStop (rails : List Nat) (cause track : Nat) (s : State) : State :=
  let act := rails.filter fun r => (s.getProt r).running
  if act = [] then s
  else
    let lv := stopLevel s act
    let s1 := forList act stopClustersOf s
    let q : StopSeq := { rails := maskOf act, fast := true, cause := cause, track := track, level := lv, lastStop := s.now,
                         prevStop := s.now }
    let s2 := forList (act.filter fun r => (s.railCfg r).level = lv) (fun r => railFault (q.causeOf r) r) s1
    finishStart (finishStops (s2.onRail fun x => { x with stops := x.stops ++ [q] }))

/-- MASTER_FAULT of each rail of a list (R182). -/
def masterFaults (l : List Nat) (s : State) : State := forList l (fun k => emitRail 0x3006 k (s.railCfg k).master 0 0) s

/-- Fast stop of the rails of a list, with MASTER_FAULT. -/
def stopWithMaster (l : List Nat) (s : State) : State := masterFaults l (fastStop l 6 0 s)

/-- Fast stop of the rails that track `r`, with MASTER_FAULT (R182). -/
def stopTrackers (r : Nat) (s : State) : State := stopWithMaster ((trackers s 8 r).filter fun k => (s.getProt k).running) s

/-- A rail enters RAMP_DOWN with target 0. Rails outside the stop that track it and are still starting are stopped fast with
MASTER_FAULT (R177, Table 7.7). -/
def rampDown (q : StopSeq) (r : Nat) (s : State) : State :=
  let l := (trackers s 8 r).filter fun k => !bitOf q.rails k && decide ((s.getProt k).st = 1 ∨ (s.getProt k).st = 2)
  stopWithMaster l ((s.updProt r fun x => { x with st := 4, zeroAt := none }).updReg r fun x =>
    { x with target := 0, forced := some 0, host := none, reached := false })

/-- R179, R180: a ramped stop whose leaves have acknowledged begins its ramps: the highest level first, each lower
level when every rail above it in the stop has stopped. -/
def rampDownLevels (s : State) : State :=
  forList (s.rail.stops.filter fun q => !q.fast) (fun q t =>
    let rails := maskIdx 8 q.rails
    let waiting := rails.any fun r => (t.railClusters r).any fun c => (t.getDom (t.cluCfg c).dom).stopSent
    if waiting then t
    else
      let lv := stopLevel t rails
      forList (rails.filter fun r => (t.getProt r).running ∧ (t.railCfg r).level = lv ∧ (t.getProt r).st ≠ 4) (rampDown q) t) s

/-- Rails have stopped: lower levels begin, and stops and starts that are over end (R175, R180, R181). -/
def railSettle (s : State) : State := finishStart (finishStops (rampDownLevels s))

/-- Count a fault stop; the third in an hour latches the rail, at the release if it is in CROWBAR (R189, R192). -/
def countStop (r : Nat) (s : State) : State :=
  let l := recentHour s.now (s.getProt r).stops ++ [s.now]
  let s1 := s.updProt r fun x => { x with stops := l }
  if 3 ≤ l.length ∧ !(s.getProt r).latched then
    (s1.updProt r fun x => { x with latched := true, st := if x.st = 6 then 6 else 7 }) |> emitRail 0x3050 r 0 0 0
  else s1

/-- A rail's own protection stops it: `PEN` low, FAULT, trackers stopped fast, the stop counted (Table 7.5, R192). -/
def protStop (cause r : Nat) (s : State) : State := railSettle (countStop r (stopTrackers r (railFault cause r s)))

/-- Fast stop of all rails (thermal trip, input power fail); a start in progress is abandoned (Table 7.7). -/
def fastStopAll (cause : Nat) (s : State) : State :=
  railSettle (fastStop s.railIds cause 0 (s.onRail fun x => { x with starts := [] }))

/-- The rails that an event on `r` stops, as the mask of a fault record. -/
def offMask (s : State) (r : Nat) : Nat := maskOf (r :: (trackers s 8 r).filter fun k => (s.getProt k).running)

/-- Index of an Audit unit. -/
def audIdx (kind idx : Nat) : Nat := 1024 * kind + idx

/-- Abandon the Audit test in progress: its unit stays HELD, its descriptor completes with AUD_ABORTED (R454, R456). -/
def audAbandon (cause : Nat) (s : State) : State :=
  match s.aud.test with
  | none => s
  | some t =>
    let s1 := (s.onAud fun a => { a with test := none, lastCode := 0xC014, lastKind := t.kind, lastIdx := t.idx })
      |> State.updUnit (audIdx t.kind t.idx) (fun u => { u with st := 1, last := 0xC014, endT := s.now })
      |> emitClerk 0xC014 t.kind t.idx cause 0
    match t.hdr with
    | some h => complete h 0x00B0 0xC009 0 s1
    | none => s1

/-- An Audit test is of a phase or a phase SAR of rail `r`. -/
def audOnRail (s : State) (r : Nat) (t : AudTest) : Bool :=
  (s.railPhases r).any fun p =>
    (decide (t.kind = 4) && decide (t.idx = p)) || (decide (t.kind = 2) && decide (t.idx = 16 + p / 8))

/-- A unit that Audit gives back: in service again, with AUD_RETURNED if it was out. -/
def unitFree (kind i : Nat) (s : State) : State :=
  if (s.getUnit (audIdx kind i)).st = 0 then s
  else (s.updUnit (audIdx kind i) fun u => { u with st := 0 }) |> emitClerk 0xC013 kind i 0 0

/-- The phases that a phase SAR under Audit holds in state 5. -/
def State.sarHeld (s : State) (k : Nat) : List Nat :=
  if (s.getUnit (audIdx 2 (16 + k))).st = 0 then [] else ((List.range 8).map (8 * k + ·)).filter fun p => (s.getPh p).st = 5

/-- R454: Audit gives way to protection: a test on the rail's phases is abandoned, and its phases that are not FAILED
return to shed; a phase SAR that gives a phase back gives all its phases back. -/
def audYield (r : Nat) (s : State) : State :=
  let s1 := match s.aud.test with
    | some t => if audOnRail s r t then audAbandon 0 s else s
    | none => s
  let out := (s1.railPhases r).filter fun p => (s1.getPh p).st = 5 ∧ (s1.getUnit (audIdx 4 p)).st ≠ 4 ∧
    (s1.getUnit (audIdx 2 (16 + p / 8))).st ≠ 4
  forList out (fun p t =>
    let t1 := forList (p :: t.sarHeld (p / 8)) (fun q => State.updPh q fun x => { x with st := 4 }) t
    unitFree 2 (16 + p / 8) (unitFree 4 p t1)) s1

/-- A rail in RAMP_UP or ON has fewer than N_REQ usable phases. -/
def railShort (s : State) (r : Nat) : Bool :=
  (decide ((s.getProt r).st = 2) || decide ((s.getProt r).st = 3)) &&
    decide ((s.usablePhases r).length < (s.railCfg r).nreq)

/-- Put a rail in FAULT for a refused start and stop the rails that track it (R177, R182). -/
def refuseStart (cause r : Nat) (s : State) : State := stopTrackers r (railFault cause r s)

/-- A rail that waits in PREPARE at step 5 of Table 7.3 has fewer than N_REQ usable phases (R177). -/
def waitShort (s : State) (r : Nat) : Bool :=
  decide ((s.getProt r).st = 1) && decide ((s.usablePhases r).length < (s.railCfg r).nreq) &&
    s.rail.starts.any fun q => decide (q.step = 5) && bitOf q.rails r

/-- R177, R191, R454: a disabling event left a rail with fewer than N_REQ usable phases. -/
def checkCapacity (r : Nat) (s : State) : State :=
  let s1 := if railShort s r then audYield r s else s
  if waitShort s1 r then
    railSettle (refuseStart 3 r s1 |> emitRail 0x3005 r (s1.usablePhases r).length (s1.railCfg r).nreq 0)
  else if railShort s1 r then
    let n := (s1.usablePhases r).length
    protStop 3 r (frecTake 0x3005 r 0xFF (offMask s1 r) r n (s1.railCfg r).nreq
      (emitRail 0x3005 r n (s1.railCfg r).nreq 0 s1))
  else s1

/-- Disable a phase by protection: state 6, outputs low, then the capacity rule (R184–R186, R191). -/
def disablePhase (p : Nat) (f : Phase → Phase) (s : State) : State :=
  let s1 := s.updPh p fun x =>
    { (f x).noTrim with st := if x.st = 7 then 7 else 6, pen := false, pwm := false, joinAt := none }
  checkCapacity (s.phCfg p).rail s1

/-- Put a rail into CROWBAR: every usable phase `PEN` high and `PWM` low (R188). -/
def crowbar (r : Nat) (s : State) : State :=
  let s1 := forList (s.usablePhases r) (fun p => State.updPh p fun x => { x with pen := true, pwm := false }) (brakeStop r s)
  (stopClustersOf r s1).updProt r (fun x => { x with st := 6, cause := 7, zeroAt := none })
    |> fun t => t.updReg r fun x => { x with nlLo := false, nlHi := false, reached := false }

end Sys2Proof.Machine
end

