-- ==== Sys2Proof/Machine/ClkOps.lean ====
section
/-!
DEFINITION. Shared operations of the clocks: reference judgement and loss, the root change sequence, PLL failure
(chapter 04).
-/
namespace Sys2Proof.Machine

/-- The reference frequency named by `REFSEL[2:0]`, in Hz (Table 2.14). -/
def refHz (refsel : Nat) : Option Nat :=
  match refsel with
  | 0 => some 25000000
  | 1 => some 50000000
  | 2 => some 100000000
  | 3 => some 125000000
  | 4 => some 156250000
  | 5 => some 200000000
  | _ => none

/-- R95: a window of 256 periods that lasted `durPs` ps measures within ±1 % of the `REFSEL` frequency. -/
def windowInside (refsel durPs : Nat) : Bool :=
  match refHz refsel with
  | none => false
  | some f => decide (99 * f * durPs ≤ 100 * 256 * 1000000000000) && decide (100 * 256 * 1000000000000 ≤ 101 * f * durPs)

/-- The measured frequency of a window, kHz (R95). -/
def windowKHz (durPs : Nat) : Nat := if durPs = 0 then umax 32 else satU 32 (divRoundN 256000000000 durPs)

/-- Phases that modulate: active or joining on a rail in RAMP_UP, ON or RAMP_DOWN. -/
def State.modulating (s : State) : List Nat :=
  (List.range 128).filter fun p =>
    ((s.getPh p).st = 2 ∨ (s.getPh p).st = 3) ∧
      (let st := (s.getProt (s.phCfg p).rail).st; st = 2 ∨ st = 3 ∨ st = 4)

/-- The PWM timebase the block wants: the holding oscillator while the root is not up or a change moves it (R94, R106). -/
def State.oscWanted (s : State) : Bool :=
  !s.clk.root.locked || s.clk.root.held ||
    (match s.clk.root.change with | some c => c.phase = 2 || c.phase = 3 | none => false)

/-- The guard divider of domain `d` as a code, R105; D_tgt of a stopped domain is the divider at which it starts (R111). -/
def guardCode (s : State) (d old new : Nat) : Nat :=
  let x := s.getDom d
  let own := if x.stopped then domStartCode s d else max x.code x.tgt
  let dmin := s.dminCode d + 1
  let need := (103 * max old new * dmin + 100 * s.fuse.nMax - 1) / (100 * s.fuse.nMax)
  max own (need - 1)

/-- Step 1 of R106: send the guard to every running domain whose divider is smaller. -/
def sendGuards (old new : Nat) (s : State) : State :=
  forList s.doms (fun d t =>
    let g := guardCode s d old new
    t.updDom d fun x =>
      if x.stopped || decide (g ≤ x.code) then { x with guard := g }
      else { x with guard := g, sent := some g, acked := false, cmdAt := s.now, cmdOpen := true }) s

/-- Step 5 of R106: the guard ends and every domain receives D_tgt. -/
def endGuards (s : State) : State :=
  forList s.doms (fun d t =>
    let t1 := t.updDom d fun x => { x with guard := 0 }
    if (t.getDom d).stopped || (t.getDom d).failed then t1 else putDiv d (t.getDom d).tgt t1) s

/-- Alarm bits of `LIM_ALARM` (Table 18.3). -/
def alRefLoss : Nat := 0
def alPllFail : Nat := 1
def alLeafFail : Nat := 2

/-- The clusters that the reference or the PLL held are released, and the clocks restart (R107, R115). -/
def rootRelease (s : State) : State :=
  restartAll (forList s.clusters (fun k => State.updClu k fun x => { x with stopRef := false, stopPll := false }) s)

/-- The root change is over: guards end, clocks that were stopped restart, and the end is recorded (R106, R107, R115). The
newest requested N that is now in force waits no longer (R108); a host request that it answers leaves 0 (R116); the derate
by a root step is reported while it is in force (R100). A retry after PLL_FAIL ends as the lock that had failed would
have. -/
def rootFinish (c : RootChange) (s : State) : State :=
  let n := if c.retry then c.oldN else c.newN
  let r := s.clk.root
  let newest := decide (n = r.nTgt)
  let s1 := s.onClk fun k => { k with
    root := { k.root with
      change := none, guard := false, held := false, pllFail := false, everLocked := true, lastEnd := some s.now,
      res := if (c.cause = 2 ∧ !c.retry) ∨ (newest ∧ r.hostPend) then 0 else k.root.res,
      hostPend := k.root.hostPend && !newest, waiting := if newest ∧ c.kind ≠ 0 then none else k.root.waiting }
    ref := { k.ref with derateRoot := k.ref.derateReq && decide (n < k.ref.preDerateN) } }
  match (if c.kind = 3 then r.failKind else c.kind) with
  | 0 => if c.kind = 3 then rootRelease s1 else endGuards s1 |> emitClk 0x1010 c.oldN n c.lockTime c.cause
  | 1 => s1
  | _ =>
    let s2 := if n = c.oldN then s1 else emitClk 0x1010 c.oldN n c.lockTime 3 s1
    rootRelease s2 |> emitClk 0x1003 (satU 32 (s.tb.holdEnd.getD s.now - s.clk.ref.lossTime)) c.lockTime 0 0

/-- R106 step 1 ends: every running domain's leaf has acknowledged its guard. -/
def rootStep1 (s : State) : State :=
  match s.clk.root.change with
  | some c =>
    if c.phase = 1 ∧ s.doms.all (fun d => (s.getDom d).sent = none) then
      s.onClk fun k => { k with root := { k.root with change := some { c with phase := 2 } } }
    else s
  | none => s

/-- R106 step 2 ends: every phase modulates from the oscillator; the PLL relocks. -/
def rootStep2 (s : State) : State :=
  match s.clk.root.change with
  | some c =>
    if c.phase = 2 ∧ s.modulating.all (fun p => (s.getPh p).osc) then
      s.onClk fun k => { k with root := { k.root with
        change := some { c with phase := 3, relockStart := s.now }, locked := false, guard := true } }
    else s
  | none => s

/-- R106 step 5: every phase has returned to the root; the change ends. -/
def rootStep5 (s : State) : State :=
  match s.clk.root.change with
  | some c => if c.phase = 4 ∧ s.modulating.all (fun p => !(s.getPh p).osc) then rootFinish c s else s
  | none => s

/-- Carry a root change on as far as acknowledgements and phases allow (R106). -/
def rootAdvance (s : State) : State := rootStep5 (rootStep2 (rootStep1 s))

/-- Begin a lock that is not a change of a running root: cold start, return after loss, retry (R102, R107, R115). -/
def rootLock (kind old new : Nat) (s : State) : State :=
  s.onClk fun k => { k with root := { k.root with
    change := some { oldN := old, newN := new, cause := 3, phase := 3, relockStart := s.now, kind := kind }, nTgt := new } }

/-- Block time returns to the reference (R73, R115). -/
def holdExit (s : State) : State := s.onTb fun t => { t with hold := false, refSeen := true, holdEnd := some s.now }

/-- HOLD_EXIT of a holdover that has just ended. -/
def holdExitRec (s : State) : State :=
  let dur := s.tb.holdEnd.getD s.now - s.tb.holdStart
  emitClk 0x1811 (satU 32 dur) (satU 32 (divRoundN (15 * dur) 1000)) 0 0 s

/-- The boot value of N within the fused maximum (R102). -/
def State.bootN (s : State) : Nat := min s.cfg.nBoot s.fuse.nMax

/-- The reference is judged stable (R96): first at cold start, with REF_STABLE after HOLD_EXIT (R72), or again after a
loss. -/
def refStable (s : State) : State :=
  let first := !s.tb.refSeen
  let s1 := s.onClk fun k => { k with ref := { k.ref with present := true, stable := true, needDrift := false } }
  let s2 := holdExitRec (holdExit s1)
  let s3 := if first then emitClk 0x1001 s.clk.ref.goodWin s.clk.ref.freqKHz 0 0 s2 else s2
  if s.clk.root.everLocked then rootLock 2 s.clk.root.nCur s.clk.root.nTgt s3
  else (rootLock 1 s.bootN s.bootN s3).onPwr fun p => { p with step := max p.step 3 }

/-- Stop every domain low and put every cluster in STOPPED for a cause. -/
def stopAllClocks (f : Clu → Clu) (s : State) : State :=
  forList s.clusters (fun c t => cluStop c (t.updClu c f)) (forList s.doms domStopNow s)

/-- The reference is lost (R97, R108, R114): Table 4.2. -/
def refLossCore (cause : Nat) (ppm : Int) (s : State) : State :=
  let s1 := s.onClk fun k => { k with
    ref := { k.ref with present := false, stable := false, goodWin := 0, lossCause := cause,
                        lossCnt := wrapInc 32 k.ref.lossCnt, lossTime := s.now, needDrift := decide (cause = 4) },
    root := { k.root with held := true, locked := false, guard := false, change := none } }
  let s2 := s1.onTb fun t => { t with hold := true, holdStart := s.now, holdEnd := none, holdCnt := wrapInc 32 t.holdCnt }
  let s3 := emitClk 0x1810 0 0 0 0 s2 |> emitClk 0x1002 cause s.clk.ref.freqKHz (encS 32 (if cause = 4 then ppm else 0)) 0
  let s4 := clrHoldEnter (forList s3.doms (fun d => State.updDom d fun x => { x with guard := 0 }) s3)
  setAlarm alRefLoss (stopAllClocks (fun x => { x with stopRef := true }) s4)

/-- A missing edge or short interval (R96, R97): a loss while stable, otherwise the windows restart. -/
def refBreak (loss : State → State) (s : State) : State :=
  if s.clk.ref.stable then loss s
  else s.onClk fun k => { k with ref := { k.ref with goodWin := 0 } }

/-- A root is requested: kept as the newest waiting request (R104). -/
def rootRequest (n cause : Nat) (s : State) : State :=
  s.onClk fun k => { k with root := { k.root with nTgt := n, waiting := some (n, cause), hostPend := decide (cause = 2) } }

/-- The root may change now: locked, not held, no change in force, 1 ms since the last (R104). -/
def rootMay (s : State) : Bool :=
  let r := s.clk.root
  r.locked && !r.held && r.change.isNone && due s.now nsPerMs r.lastEnd

/-- Begin the waiting root change (R105, R106 step 1). -/
def rootStart (s : State) : State :=
  match s.clk.root.waiting with
  | none => s
  | some (n, cause) =>
    if !rootMay s then s
    else
      let old := s.clk.root.nCur
      let s1 := s.onClk fun k => { k with root := { k.root with
        waiting := none, change := some { oldN := old, newN := n, cause := cause, phase := 1 } } }
      rootAdvance (sendGuards old n s1)

/-- R107: both relocks failed, or a lock after a loss failed. -/
def pllFail (s : State) : State :=
  let kind := match s.clk.root.change with | some c => if c.kind = 3 then s.clk.root.failKind else c.kind | none => 0
  let s1 := s.onClk fun k => { k with root := { k.root with
    change := none, locked := false, guard := false, held := true, pllFail := true, failTime := s.now,
    failKind := kind } }
  let s2 := forList s1.doms (fun d => State.updDom d fun x => { x with guard := 0 }) s1
  setAlarm alPllFail (stopAllClocks (fun x => { x with stopPll := true }) s2) |> emitClk 0x1012 0 0 0 0

end Sys2Proof.Machine
end

