-- ==== Sys2Proof/Machine/SiteOps.lean ====
section
/-!
DEFINITION. Shared operations on the diode sites: bands, trip inputs, exclusion, trip pending (chapters 05, 09, 17).
-/
namespace Sys2Proof.Machine

/-- Sites configured, in rising order. -/
def State.sites (s : State) : List Nat := (List.range 512).filter fun i => (s.siteCfg i).present

/-- Sites that name `i` as a neighbour. -/
def sitesWith (s : State) (i : Nat) : List Nat := s.sites.filter fun k => (s.siteCfg k).neigh.any fun n => n.1 = i

/-- R122: the band of a band value against the site's limit, from the band in force. -/
def bandOf (cur : Nat) (l v : Int) : Nat :=
  if l - 192 ≤ v then 2
  else if cur = 2 ∧ l - 320 ≤ v then 2
  else if l - 640 ≤ v then 1
  else if 1 ≤ cur ∧ l - 768 ≤ v then 1
  else 0

/-- Bring a site's band up to date with its band value; a site in its overrange pause is in the close band. -/
def bandUpdate (i : Nat) (s : State) : State :=
  let x := s.getSite i
  if (0 < x.pause ∨ x.wait) ∧ !x.excl ∧ !x.ringFail then s.updSite i fun y => { y with band := 2 }
  else match s.siteUsed i with
    | some v => s.updSite i fun y => { y with band := bandOf y.band (s.siteLimit i) v }
    | none => s

/-- R446: the trip input of a site: its newest measured value, or the R126 substitute from its neighbours in service. -/
def tripInput (s : State) (i : Nat) : Option Int :=
  if (s.getSite i).inService then (s.getSite i).meas
  else
    ((s.siteCfg i).neigh.filterMap fun n => if (s.getSite n.1).inService then (s.getSite n.1).meas else none).foldl
      (fun m v => match m with | none => some (v + 256) | some w => some (max w (v + 256))) none

/-- R448: the dwell restarts while any trip input is at or above L_s − 20 °C. -/
def dwellUpdate (s : State) : State :=
  let hot := s.sites.any fun i => match tripInput s i with
    | some v => decide (s.siteLimit i - 1280 ≤ v)
    | none => false
  s.onAud fun a => { a with dwell := if hot then none else some (a.dwell.getD s.now) }

/-- R262: trip pending of the cluster of site `i`. -/
def tripPending (i : Nat) (s : State) : State :=
  let c := (s.siteCfg i).cluster
  let used := s.siteUsed i
  let atL := match used with | some v => decide (s.siteLimit i - 192 ≤ v) | none => false
  let clear := s.sites.all fun k => decide ((s.siteCfg k).cluster ≠ c) ||
    (match s.siteUsed k with | some v => decide (v < s.siteLimit k - 320) | none => true)
  if !(s.cluCfg c).present then s
  else match (s.getClu c).tripPend with
    | none =>
      if atL then
        capCluster c (s.updClu c fun x => { x with tripPend := some s.now })
          |> emitCp 0x5032 c i (encS 32 (used.getD 0)) 0
      else s
    | some t =>
      if clear then
        presetLoops c (s.updClu c fun x => { x with tripPend := none }) |> emitCp 0x5033 c (s.now - t) 0 0
      else s

/-- R126: SITE_NO_NEIGHBOUR of one site: an excluded site none of whose neighbours is in service. -/
def noNeighbour (i : Nat) (s : State) : State :=
  let x := s.getSite i
  let bad := (x.excl || x.ringFail) && (s.siteCfg i).neigh.all fun n => !(s.getSite n.1).inService
  if bad && !x.noNeigh then
    setAlarm 6 (s.updSite i fun y => { y with noNeigh := true }) |> emitSns 0x2004 i 0 0 0
  else if !bad && x.noNeigh then s.updSite i fun y => { y with noNeigh := false }
  else s

/-- A site's loop value has changed while its samples have not: its band and its cluster's trip pending follow (R122, R262). -/
def siteShift (i : Nat) (s : State) : State := tripPending i (bandUpdate i s)

/-- R93: the oscillator's compensation follows the exclusion of its site. -/
def oscSite (s : State) : State :=
  let i := s.cfg.oscSite
  let bad := (s.siteCfg i).present && ((s.getSite i).excl || (s.getSite i).ringFail)
  if bad && !s.clk.oscSubst then (s.onClk fun c => { c with oscSubst := true }) |> emitClk 0x1040 i 0 0 0
  else s.onClk fun c => { c with oscSubst := bad }

/-- R93: a sample of the named site updates the compensation, from the site or its neighbour estimate. The spec bounds the
compensated rate and gives no more: a free value within 1.5 % of 800 MHz (log entry 4). -/
def oscComp (i : Nat) (s : State) : State :=
  if i = s.cfg.oscSite then
    let v := 788000 + Config.freeValue s.free % 24001
    (s.onClk fun c => { c with oscKHz := v }).drawn
  else s

/-- A site has changed: the values that depend on it follow. -/
def siteChanged (i : Nat) (s : State) : State :=
  let l := i :: sitesWith s i
  oscSite (dwellUpdate (forList l tripPending (forList l noNeighbour (forList l bandUpdate s))))

/-- R129: the detectors whose nearest site has moved more than 5 °C since their last rewrite are rewritten. The site's
temperature is its loop value, a substitute while the site is out (log entry 78). -/
def tapTemps (i : Nat) (s : State) : State :=
  match s.siteUsed i with
  | none => s
  | some v =>
    forList ((List.range 1024).filter fun d => (s.detCfg d).present && decide ((s.detCfg d).site = i))
      (fun d => State.updDet d fun y => if 320 < (v - y.tempAt).natAbs then { y with pend := max y.pend 1 } else y) s

/-- R120 step 1: every cluster at level 0 with STEP_DOWN, and the divider of level 0 sent to every domain that a ceiling port
carries, the largest where several clusters share it. -/
def noMajorityStep1 (s : State) : State :=
  let s1 := forList s.clusters (fun c t => presetLoops c (t.updClu c fun x =>
      if x.st = 0 then x else { x with a := 0, ceil := (x.row 0).ceil, stepDown := true })) s
  forList (s1.doms.filter fun d => (s1.domCfg d).clValid) (fun d t =>
    sendDiv d ((t.domClusters d).foldl (fun m c => max m ((t.getClu c).row 0).div) 0) t) s1

end Sys2Proof.Machine
end

