-- ==== Sys2Proof/Machine/TlyOps.lean ====
section
/-!
DEFINITION. Tally's arithmetic and the run of a program (R206–R218).
-/
namespace Sys2Proof.Machine

/-- Division by a positive number, rounded to nearest, ties to even. -/
def rneDiv (v : Int) (d : Nat) : Int :=
  let q := v / (d : Int)
  let r := v % (d : Int)
  if 2 * r < d then q else if (d : Int) < 2 * r then q + 1 else if q % 2 = 0 then q else q + 1

/-- `rne_shift` of R212. -/
def rneShift (v s : Int) : Int := if 0 ≤ s then v * 2 ^ s.toNat else rneDiv v (2 ^ (-s).toNat)

/-- What a run of a program has done so far: scratch and output blocks written, accumulators, and the saturations by
kind (0 accumulator, 1 conversion, 2 renormalisation) with the instruction. -/
structure Run where
  scr : Tbl (Option Blk) := []
  out : Tbl (Option Blk) := []
  acc : Tbl (Option (List Int)) := []
  sats : List (Nat × Nat) := []
  pc : Nat := 0
deriving DecidableEq, Repr

/-- Saturate to `w` bits, counting a saturation of a kind. -/
def satCount (w kind : Nat) (x : Int) (r : Run) : Int × Run :=
  let y := satS w x
  (y, if y = x then r else { r with sats := r.sats ++ [(kind, r.pc)] })

/-- Apply a function with a run state to every element of a list. -/
def mapRun {α β : Type} (f : α → Run → β × Run) : List α → Run → List β × Run
  | [], r => ([], r)
  | a :: l, r =>
    let x := f a r
    let y := mapRun f l x.2
    (x.1 :: y.1, y.2)

/-- What a run reads: the committed state store, the coefficient store, the program and the base half-slot of each of
its bindings that is bound (R218, R230). -/
structure RunEnv where
  st : Tbl Blk
  coef : Tbl (Nat × Nat)
  prog : TlyProg
  bind : Nat → Option Nat
  /-- key of the free values of this run (log entry 4) -/
  key : Nat

/-- A free value of a run: `w` bits at index `i`. -/
def RunEnv.free (v : RunEnv) (i w : Nat) : Nat := Config.freeValue (v.key + i * 2 ^ 64) % 2 ^ w

/-- A block whose contents the spec leaves undefined. -/
def RunEnv.freeBlk (v : RunEnv) (i : Nat) : Blk :=
  { m := (List.range 16).map fun k => decS 16 (v.free (32 * i + k) 16), e := decS 6 (v.free (32 * i + 16) 6) }

/-- A read of a state block: scratch as written in this run and undefined before; any other block as committed. -/
def readBlk (v : RunEnv) (r : Run) (b : Nat) : Blk :=
  if v.prog.scrBase ≤ b ∧ b < v.prog.scrBase + v.prog.scrN then
    match Tbl.get none r.scr b with
    | some x => x
    | none => v.freeBlk b
  else Tbl.get {} v.st b

/-- A write of a state block: to the program's scratch or to the working copy. -/
def writeBlk (v : RunEnv) (b : Nat) (x : Blk) (r : Run) : Run :=
  if v.prog.scrBase ≤ b ∧ b < v.prog.scrBase + v.prog.scrN then { r with scr := Tbl.set none r.scr b (some x) }
  else { r with out := Tbl.set none r.out b (some x) }

/-- A coefficient tile: 16 mantissas and an exponent, from half-slot `h` (R206, R207). -/
def coefTile (coef : Tbl (Nat × Nat)) (h : Nat) (k8 : Bool) : Blk :=
  let a := Tbl.get (0, 0) coef h
  if k8 then { m := (List.range 16).map fun i => decS 8 (bits a.1 (8 * i) 8), e := decS 6 a.2 }
  else
    let b := Tbl.get (0, 0) coef (h + 1)
    { m := (List.range 16).map fun i => decS 16 (if i < 8 then bits a.1 (16 * i) 16 else bits b.1 (16 * (i - 8)) 16),
      e := decS 6 a.2 }

/-- The fields of an instruction (Table 8.3). -/
structure TlyInstr where
  op : Nat
  dep : Bool
  acc : Nat
  wb : Bool
  ka : Bool
  neg : Bool
  accb : Nat
  m : Nat
  k : Nat
  aAddr : Nat
  lsrc : Bool
  bAddr : Nat
  n : Nat
  dAddr : Nat
  lAddr : Nat
  accQ : Int
  postQ : Int
  popA : Bool
  popB : Nat
  param : Nat
  bind : Nat
  abind : Bool
  rsv : Nat
deriving DecidableEq, Repr

/-- Table 8.3. -/
def tlyDecode (w : Nat) : TlyInstr :=
  { op := bits w 0 4, dep := bitOf w 4, acc := bits w 5 2, wb := bitOf w 7, ka := bitOf w 8, neg := bitOf w 9,
    accb := bits w 10 6, m := bits w 16 8, k := bits w 24 8, aAddr := bits w 32 15, lsrc := bitOf w 47,
    bAddr := bits w 48 12, n := bits w 60 4, dAddr := bits w 64 12, lAddr := bits w 76 12,
    accQ := decS 8 (bits w 88 8), postQ := decS 8 (bits w 96 8), popA := bitOf w 104, popB := bits w 105 4,
    param := bits w 109 6, bind := bits w 115 5, abind := bitOf w 120, rsv := bits w 121 7 }

/-- The tile at tile position `pos` of an instruction; undefined where the binding is not bound. -/
def tileAt (v : RunEnv) (i : TlyInstr) (pos : Nat) : Blk :=
  let off := i.aAddr + (if i.ka then pos else 2 * pos)
  if i.abind then
    match v.bind i.bind with
    | some base => coefTile v.coef (base + off) i.ka
    | none => v.freeBlk (8192 + off)
  else coefTile v.coef (v.prog.pinBase + off) i.ka

/-- Fraction bits of a coefficient mantissa. -/
def coefFrac (ka : Bool) : Int := if ka then 7 else 15

/-- R209: one lane of one cube-op: the exact sum of products, aligned and accumulated. -/
def laneAdd (i : TlyInstr) (ea eb sum acc : Int) (r : Run) : Int × Run :=
  let x := rneShift sum (ea + eb - coefFrac i.ka - 15 - i.accQ)
  satCount 48 0 (if i.neg then acc - x else acc + x) r

/-- The sum of the products of four coefficient and four state elements. -/
def dot4 (a b : Nat → Int) : Int := a 0 * b 0 + a 1 * b 1 + a 2 * b 2 + a 3 * b 3

/-- Element `j` of a block. -/
def Blk.at (x : Blk) (j : Nat) : Int := x.m.getD j 0

/-- One cube-op of MV: the 16 lanes of coefficient block (i, k) against segment k of the vector. -/
def mvOp (v : RunEnv) (i : TlyInstr) (ob k : Nat) (acc : List Int) (r : Run) : List Int × Run :=
  let seg := readBlk v r (i.bAddr + k / 4)
  mapRun (fun lane q =>
    let t := tileAt v i (4 * (ob * (i.k + 1) + k) + lane / 4)
    let sum := dot4 (fun c => t.at (4 * (lane % 4) + c)) (fun c => seg.at (4 * (k % 4) + c))
    laneAdd i t.e seg.e sum (acc.getD lane 0) q) (List.range 16) r

/-- One cube-op of MM: output tile (ti, tj) gains A tile (ti, k) times B tile (k, tj). -/
def mmOp (v : RunEnv) (i : TlyInstr) (ob k : Nat) (acc : List Int) (r : Run) : List Int × Run :=
  let ti := ob / (i.n + 1)
  let tj := ob % (i.n + 1)
  let a := tileAt v i (ti * (i.k + 1) + k)
  let b := readBlk v r (i.bAddr + k * (i.n + 1) + tj)
  mapRun (fun lane q =>
    let sum := dot4 (fun x => a.at (4 * (lane / 4) + x)) (fun x => b.at (4 * x + lane % 4))
    laneAdd i a.e b.e sum (acc.getD lane 0) q) (List.range 16) r

/-- Output blocks of an instruction. -/
def TlyInstr.outs (i : TlyInstr) : Nat := if i.op = 2 then (i.m + 1) * (i.n + 1) else i.m + 1

/-- R216: the value an output's accumulator starts from. -/
def accStart (v : RunEnv) (i : TlyInstr) (ob : Nat) (r : Run) : List Int × Run :=
  match i.acc with
  | 0 => (List.replicate 16 0, r)
  | 1 =>
    let src := if i.lsrc then tileAt v i (4 * (i.m + 1) * (i.k + 1) + ob) else readBlk v r (i.lAddr + ob)
    let fr := if i.lsrc then coefFrac i.ka else 15
    mapRun (fun lane q => satCount 48 0 (rneShift (src.at lane) (src.e - fr - i.accQ)) q) (List.range 16) r
  | _ =>
    match Tbl.get none r.acc (i.accb + ob) with
    | some l => (l, r)
    | none => ((List.range 16).map fun k => decS 48 (v.free (1048576 + 16 * (i.accb + ob) + k) 48), r)

/-- R211 RECIP: breakpoint `j` of 1/f, held to 2^−24. -/
def recipPoint (j : Nat) : Int := rneDiv (2 ^ 28) (16 + j)

/-- R211 RECIP of a non-zero P32 value. -/
def recip (x postQ p0 : Int) : Int :=
  let a := x.natAbs
  let k := Nat.log2 a
  let j := 16 * a / 2 ^ k - 16
  let num : Int := recipPoint j * 2 ^ k + (recipPoint (j + 1) - recipPoint j) * ((16 * a : Nat) - ((16 + j) * 2 ^ k : Nat))
  rneShift (if x < 0 then -num else num) (-(24 + 2 * (k : Int) + postQ + p0))

/-- R211 PWL. -/
def pwlEval (t : List (Int × Int × Int)) (x : Int) : Int :=
  let k := (t.filter fun g => g.1 ≤ x).length - 1
  let g := t.getD k (0, 0, 0)
  g.2.1 + rneDiv (g.2.2 * (x - g.1)) 65536

/-- Table 8.2, before the one saturation to s32. -/
def popB (p : TlyProg) (i : TlyInstr) (x : Int) : Int :=
  let c := p.consts.getD i.param []
  let p0 := c.getD 0 0
  let p1 := c.getD 1 0
  match i.popB with
  | 1 => min x p0
  | 2 => max x p0
  | 3 => min (max x p0) p1
  | 4 => max x 0
  | 5 => min (max (rneDiv (c.getD 2 0 * x) 65536 + c.getD 3 0) p0) p1
  | 6 => pwlEval (p.pwl.getD i.param []) x
  | 7 => if x = 0 then 2 ^ 31 else recip x i.postQ p0
  | _ => x

/-- R211: the post-ops of one P32 value: POP_A then POP_B, each saturated once. -/
def postOps (v : RunEnv) (i : TlyInstr) (la : Blk) (lane : Nat) (x : Int) (r : Run) : Int × Run :=
  let a := if i.popA then satCount 32 1 (x + rneShift (la.at lane) (la.e - 15 - i.postQ)) r else (x, r)
  if i.popB = 0 then a else satCount 32 1 (popB v.prog i a.1) a.2

/-- R212: every value at exponent `e`. -/
def renormAt (l : List Int) (postQ e : Int) : List Int := l.map fun x => rneShift x (postQ - e + 15)

/-- R212: renormalisation of the 16 P32 values of a block; `true` where e = 31 does not hold them. -/
def renorm (l : List Int) (postQ : Int) : Blk × Bool :=
  let es : List Int := (List.range 64).map fun k => (k : Int) - 32
  match es.find? fun e => (renormAt l postQ e).all fun m => decide (-32768 ≤ m ∧ m ≤ 32767) with
  | some e => ({ m := renormAt l postQ e, e := e }, false)
  | none => ({ m := (renormAt l postQ 31).map (satS 16), e := 31 }, true)

/-- Renormalise and write a block, counting a renormalisation saturation. -/
def writeNorm (v : RunEnv) (i : TlyInstr) (b : Nat) (l : List Int) (r : Run) : Run :=
  let x := renorm l i.postQ
  writeBlk v b x.1 (if x.2 then { r with sats := r.sats ++ [(2, r.pc)] } else r)

/-- R210, R211: the P32 values of output `ob` from its lanes `f` of weight 2^`q`; POP_A reads from `src`. -/
def p32Out (v : RunEnv) (i : TlyInstr) (src : Run) (ob : Nat) (f : Nat → Int) (w : Int) (r : Run) : List Int × Run :=
  let la := readBlk v src (i.lAddr + ob)
  mapRun (fun lane q =>
    let x := satCount 32 1 (rneShift (f lane) (w - i.postQ)) q
    postOps v i la lane x.1 x.2) (List.range 16) r

/-- R212: the P32 values of the outputs are renormalised and written, in order. -/
def writeOuts (v : RunEnv) (i : TlyInstr) (l : List (List Int)) (r : Run) : Run :=
  (List.range l.length).foldl (fun q ob => writeNorm v i (i.dAddr + ob) (l.getD ob []) q) r

/-- The accumulator of one output of MV or MM at its end: started, then accumulated over k. -/
def matLanes (v : RunEnv) (i : TlyInstr) (ob : Nat) (r : Run) : List Int × Run :=
  (List.range (i.k + 1)).foldl (fun a k => if i.op = 2 then mmOp v i ob k a.1 a.2 else mvOp v i ob k a.1 a.2)
    (accStart v i ob r)

/-- MV or MM: every output is accumulated; then, at the end of the instruction, all are written back and their accumulators
are free, or all stay in their accumulators (R214, R216). -/
def matExec (v : RunEnv) (i : TlyInstr) (r : Run) : Run :=
  let l := mapRun (matLanes v i) (List.range i.outs) r
  if i.wb then
    let p := mapRun (fun ob => p32Out v i r ob (fun lane => (l.1.getD ob []).getD lane 0) i.accQ) (List.range i.outs) l.2
    let w := writeOuts v i p.1 p.2
    { w with acc := (List.range i.outs).foldl (fun t ob => Tbl.set none t (i.accb + ob) none) w.acc }
  else
    { l.2 with acc := (List.range i.outs).foldl (fun t ob => Tbl.set none t (i.accb + ob) (some (l.1.getD ob []))) l.2.acc }

/-- EW: the blocks as P32 values with their post-ops, then all renormalised and written (log entry 90). -/
def ewExec (v : RunEnv) (i : TlyInstr) (r : Run) : Run :=
  let p := mapRun (fun ob => p32Out v i r ob (readBlk v r (i.bAddr + ob)).at ((readBlk v r (i.bAddr + ob)).e - 15))
    (List.range i.outs) r
  writeOuts v i p.1 p.2

/-- MOVE: the source blocks as they were before the instruction (log entry 90). -/
def moveExec (v : RunEnv) (i : TlyInstr) (r : Run) : Run :=
  (List.range i.outs).foldl (fun q b => writeBlk v (i.dAddr + b) (readBlk v r (i.bAddr + b)) q) r

/-- R215: one instruction. -/
def tlyExec (v : RunEnv) (r : Run) (w : Nat) : Run :=
  let i := tlyDecode w
  let r1 := match i.op with
    | 1 => matExec v i r
    | 2 => matExec v i r
    | 3 => ewExec v i r
    | 4 => moveExec v i r
    | _ => r
  { r1 with pc := r.pc + 1 }

/-- A run of a program from its first instruction to END. -/
def tlyRun (v : RunEnv) : Run := v.prog.instrs.foldl (tlyExec v) {}

end Sys2Proof.Machine
end

