-- ==== Sys2Proof/Machine/PageOps.lean ====
section
/-!
DEFINITION. The manager port's tags (R36, R38) and the paging of model sets (R227–R230).
-/
namespace Sys2Proof.Machine

/-- The request of a tag, if it is in use. -/
def State.hmReq (s : State) (t : Nat) : Option HmReq := Tbl.get none s.hm.reqs t

/-- Whole beats of 16 bytes that cover `n` bytes from `a`: `HM_QADDR` has its low four bits 0 (Table 2.4). -/
def beatSpan (a n : Nat) : Nat × Nat := (a / 16 * 16, (a + n + 15) / 16 * 16 - a / 16 * 16)

/-- R36: the beats of the first request for `len` bytes from `a`: 1 to 16, inside one 4 KiB block. -/
def firstBeats (a len : Nat) : Nat := max 1 (min 16 (min (len / 16) ((4096 - a % 4096) / 16)))

/-- R36: the requests, as address and beats, that carry `len` bytes of whole beats from `a`; `k` bounds their number. -/
def hmPieces : Nat → Nat → Nat → List (Nat × Nat)
  | 0, _, _ => []
  | k + 1, a, len =>
    if len = 0 then [] else (a, firstBeats a len) :: hmPieces k (a + 16 * firstBeats a len) (len - 16 * firstBeats a len)

/-- Where a posted write goes, and its bytes. -/
def HmWrite.span : HmWrite → Nat × Nat
  | .cqe _ a b => (a, b.length)
  | .irq _ a _ => (a, 4)
  | .words a w => (a, 4 * w.length)
  | .bytes a b => (a, b.length)
  | .copy _ d n => (d, n)
  | .msg a w => (a, 4 * w.length)

/-- R36: the requests of a posted write; the byte strobes leave out what its first and last beat do not carry. -/
def HmWrite.requests (w : HmWrite) : List (Nat × Nat) :=
  let b := beatSpan w.span.1 w.span.2
  hmPieces (b.2 / 16) b.1 b.2

/-- The channel of the DMA engine that a request belongs to; paging is channel 7 (Table 15.1). -/
def HmPurpose.chan : HmPurpose → Nat
  | .dma k => k
  | .page _ _ => 7
  | .dropped k => k

/-- Reads of a channel that are outstanding: issued, and not declared failed. -/
def State.chanReads (s : State) (k : Nat) : Nat :=
  (idxWhere 32 fun t => match s.hmReq t with | some r => decide (r.purpose.chan = k) && r.failed.isNone | none => false).length

/-- R390: the read whose turn it is: the first in the queue whose channel has fewer than 8 outstanding. -/
def State.hmTurn (s : State) : Option HmRead := s.hm.waiting.find? fun r => decide (s.chanReads r.purpose.chan < 8)

/-- R390: what waits after a request of `n` beats of `r` has been issued: the channels take turns request by request, so what
its channel still has to read goes behind the others, in its order. -/
def hmRequeue (r : HmRead) (n : Nat) (l : List HmRead) : List HmRead :=
  let own := (l.erase r).filter fun q => decide (q.purpose.chan = r.purpose.chan)
  ((l.erase r).filter fun q => decide (q.purpose.chan ≠ r.purpose.chan)) ++
    (if r.len ≤ 16 * n then own else { r with addr := r.addr + 16 * n, len := r.len - 16 * n } :: own)

/-- Issue the request whose turn it is, on the lowest free tag (R36, R38, R39, R390). -/
def hmNext (s : State) : State :=
  match (if s.hm.inReset then none else (idxWhere 32 fun t => (s.hmReq t).isNone).head?), s.hmTurn with
  | some t, some r =>
    let n := firstBeats r.addr r.len
    s.onHm fun h =>
      { h with
        reqs := Tbl.set none h.reqs t (some { purpose := r.purpose, addr := r.addr, beats := n, issued := s.now })
        waiting := hmRequeue r n h.waiting }
  | _, _ => s

/-- Issue requests while tags are free and reads may be issued. -/
def hmPump (s : State) : State := forList (List.range 32) (fun _ => hmNext) s

/-- Read `len` bytes of host memory from `addr`: its requests are issued as tags come free (R36, R38, R39). -/
def hmIssue (p : HmPurpose) (addr len : Nat) (s : State) : State :=
  if len = 0 then s else hmPump (s.onHm fun h => { h with waiting := h.waiting ++ [{ purpose := p, addr := addr, len := len }] })

/-- Free a tag; the next read in turn takes it. -/
def hmFree (t : Nat) (s : State) : State := hmNext (s.onHm fun h => { h with reqs := Tbl.set none h.reqs t none })

/-- R39, R71: queued work resumes: the posted writes held, in order, then the reads that wait. -/
def hmResume (s : State) : State :=
  if s.hm.inReset then s else hmPump (s.onHm fun h => { h with out := h.out ++ h.held, held := [] })

/-- The subsystem that asked for something has given up: what has not been asked for is not, and what has brings nothing. -/
def hmDrop (p : HmPurpose → Bool) (s : State) : State :=
  forList (List.range 32) (fun t u => u.onHm fun h =>
      match Tbl.get none h.reqs t with
      | some r => if p r.purpose then { h with reqs := Tbl.set none h.reqs t (some { r with purpose := .dropped r.purpose.chan }) } else h
      | none => h) (s.onHm fun h => { h with waiting := h.waiting.filter fun r => !p r.purpose })

/-- A set fits a binding: equal `LAYOUT`, and no more pages (R219). -/
def setFits (x : TlySet) (b : Nat × Nat) : Bool := decide (x.layout = b.1) && decide (x.npages ≤ b.2)

/-- Clusters with a forecaster, in rising order (R272). -/
def State.fcClus (s : State) : List Nat :=
  (List.range 32).filter fun c => (Tbl.get ({} : FcCfg) s.cfg.fc c).present

/-- The forecaster configuration of a cluster. -/
def State.fcCfg (s : State) (c : Nat) : FcCfg := Tbl.get {} s.cfg.fc c

/-- Bindings that use a set. -/
def State.setRefs (s : State) (k : Nat) : Nat := (s.fcClus.filter fun c => (s.getFcCl c).bound = some k).length

/-- First half-slot of a set frame (R227). -/
def State.frameBase (s : State) (f : Nat) : Nat := 256 * (s.cfg.tly.pinned + f * s.cfg.tly.framePages)

/-- Sets registered, in rising order. -/
def State.sets (s : State) : List Nat := (List.range 64).filter fun k => (s.getSet k).registered

/-- Bytes of a page image: its half-slots and their sidecar bytes (R228). -/
def pageBytes : Nat := 4352

/-- Where the header (0) or page `pg` − 1 of a set stands in host memory, and its bytes (R228). -/
def TlySet.part (x : TlySet) (pg : Nat) : Nat × Nat :=
  if pg = 0 then (x.hdrAddr, 64 + 48 * x.npages) else (x.pageAddr + pageBytes * (pg - 1), pageBytes)

/-- Ask for the header or a page of a set. -/
def pageAsk (k pg : Nat) (s : State) : State := hmIssue (.page k pg) ((s.getSet k).part pg).1 ((s.getSet k).part pg).2 s

/-- R229 step 1: a free frame, or that of the least recently bound resident set that no binding uses. -/
def takeFrame (s : State) : Option (Nat × Option Nat) :=
  let used := (s.sets.filter fun k => (s.getSet k).resident).map fun k => (s.getSet k).frame
  match ((List.range s.cfg.tly.nframes).filter fun f => !used.contains f).head? with
  | some f => some (f, none)
  | none =>
    match argMin (fun k => ((s.getSet k).lastBound : Int))
        (s.sets.filter fun k => (s.getSet k).resident && decide (s.setRefs k = 0)) with
    | some k => some ((s.getSet k).frame, some k)
    | none => none

/-- Paging of set `k` may begin: one set is paged at a time. -/
def State.pageMay (s : State) (k : Nat) : Bool :=
  s.tly.page.isNone && (s.getSet k).registered && !(s.getSet k).bad && !(s.getSet k).resident

/-- R229: start paging a set in, or record that no frame can be taken. -/
def pageStart (k : Nat) (s : State) : State :=
  if !s.pageMay k then s
  else match takeFrame s with
    | none => (s.onTly fun t => { t with pageLast := 0x4043 }) |> emitTly 0x4043 k 0 0 0
    | some (f, out) =>
      let s1 := match out with
        | some j => s.updSet j fun y => { y with resident := false }
        | none => s
      pageAsk k 0 (s1.onTly fun t => { t with page := some { set := k, frame := f, start := s.now } })

/-- A request brings the header or a page of set `k`. -/
def HmPurpose.ofSet (k : Nat) : HmPurpose → Bool
  | .page j _ => decide (j = k)
  | _ => false

/-- Paging of a set ends without the set resident; `code` 0 abandons it in silence (Table 8.10). -/
def pageEnd (code p1 : Nat) (s : State) : State :=
  match s.tly.page with
  | none => s
  | some p =>
    let s1 := (hmDrop (HmPurpose.ofSet p.set) s).onTly fun t =>
      { t with page := none, pageLast := if code = 0 then t.pageLast else code,
               pageFail := if code = 0 then t.pageFail else satInc 16 t.pageFail }
    if code = 0 then s1
    else if code = 0x4042 then (s1.updSet p.set fun y => { y with bad := true }) |> emitTly code p.set p1 0 0
    else emitTly code p.set p1 0 0 s1

/-- The bytes of little-endian words. -/
def wordBytes (l : List Nat) : List Nat := l.flatMap (leBytes 4)

/-- A number from bytes, most significant first: digests, keys and signatures. -/
def beNat (l : List Nat) : Nat := l.foldl (fun a b => a * 256 + b) 0

/-- A number from bytes, least significant first (R6). -/
def leNat : List Nat → Nat
  | [] => 0
  | b :: l => b + 256 * leNat l

/-- The page digests of a set header (Table 8.6). -/
def headerDigests (b : List Nat) (n : Nat) : List Nat :=
  (List.range n).map fun k => beNat ((b.drop (64 + 48 * k)).take 48)

/-- The whole header or page of the set being paged has arrived (R229 steps 2 and 3). -/
def pageWhole (k pg : Nat) (data : List Nat) (p : Paging) (s : State) : State :=
  if pg = 0 then
    if p.hdrRead then s
    else if Config.sha384 (wordBytes data) = (s.getSet k).digest then
      pageAsk k 1 (s.onTly fun t =>
        { t with page := some { p with hdrRead := true, got := [],
                                       digests := headerDigests (wordBytes data) (s.getSet k).npages } })
    else pageEnd 0x4042 0xFFFF s
  else if p.hdrRead ∧ pg = p.page + 1 ∧ p.buf = none then
    s.onTly fun t => { t with page := some { p with got := [], buf := some data } }
  else s

/-- A response brings beats of the header or of a page of the set being paged; the last of them completes it. -/
def pageArrive (k pg addr : Nat) (data : List Nat) (s : State) : State :=
  match s.tly.page with
  | none => s
  | some p =>
    if p.set ≠ k then s
    else
      let part := (s.getSet k).part pg
      let got := Tbl.set [] p.got (addr - part.1) data
      let all := got.flatMap Prod.snd
      if 4 * all.length < part.2 then s.onTly fun t => { t with page := some { p with got := got } }
      else pageWhole k pg all p s

/-- Put a page image into the coefficient store: half-slots from `base` and their sidecar bytes. -/
def storePage (base : Nat) (data : List Nat) (t : Tbl (Nat × Nat)) : Tbl (Nat × Nat) :=
  let side := (wordBytes (data.drop 1024)).take 256
  (List.range 256).foldl
    (fun u i => Tbl.set (0, 0) u (base + i) (leNat (wordBytes ((data.drop (4 * i)).take 4)), side.getD i 0)) t

/-- R229 steps 4 and 5: a page has landed; its digest is checked, and the last page makes the set resident. -/
def pageCheck (s : State) : State :=
  match s.tly.page with
  | none => s
  | some p =>
    match p.buf with
    | none => s
    | some d =>
      if Config.sha384 (wordBytes d) ≠ p.digests.getD p.page 0 then pageEnd 0x4042 p.page s
      else
        let base := s.frameBase p.frame + 256 * p.page
        let s1 := s.onTly fun t => { t with coef := storePage base d t.coef }
        if p.page + 1 < (s.getSet p.set).npages then
          pageAsk p.set (p.page + 2) (s1.onTly fun t =>
            { t with page := some { p with page := p.page + 1, got := [], buf := none } })
        else
          ((s1.onTly fun t => { t with page := none, pageLast := 0x4040, pageDone := satInc 16 t.pageDone }).updSet p.set
            fun y => { y with resident := true, frame := p.frame })
          |> emitTly 0x4040 p.set p.frame (s.now - p.start) 0

end Sys2Proof.Machine
end

