-- ==== Sys2Proof/Machine/SynOps.lean ====
section
/-!
DEFINITION. Shared operations on synchronisation objects, waiters and barrier groups (chapter 12).
-/
namespace Sys2Proof.Machine

/-- Put an element into a list that rises under `f`, after its equals. -/
def insBy {α : Type} (f : α → Nat) (a : α) : List α → List α
  | [] => [a]
  | b :: t => if f a < f b then a :: b :: t else b :: insBy f a t

/-- A list sorted by `f`, equals in their order. -/
def sortBy {α : Type} (f : α → Nat) (l : List α) : List α := l.foldl (fun r a => insBy f a r) []

/-- The cluster of a core; 0 for a core of no cluster. -/
def State.coreClu (s : State) (k : Nat) : Nat := ((s.clusters.filter fun c => bitOf (s.cluCfg c).cores k).head?).getD 0

/-- The configured engines of a core, as indices 0–15. -/
def State.coreEngines (s : State) (k : Nat) : List Nat := maskIdx 16 (Tbl.get 0 s.cfg.syn.engines k)

/-- R41: the engine number is configured. -/
def State.engineOk (s : State) (src : Nat) : Bool := (s.coreEngines (src / 16)).contains (src % 16)

/-- The wait of entry `w`, if it holds one (R327). -/
def State.waiter (s : State) (w : Nat) : Option Waiter := Tbl.get none s.syn.wtr w

/-- R335: engine `i` of core `k` waits: every queue in the core's mask waits. -/
def State.engineWaits (s : State) (k i : Nat) : Bool :=
  (maskIdx 4 (s.getCore k).qmask).all fun q => (s.waiter (64 * k + 4 * i + q)).isSome

/-- R335: the core waits: every configured engine of it waits. -/
def State.coreWaits (s : State) (k : Nat) : Bool :=
  !(s.coreEngines k).isEmpty && (s.coreEngines k).all (s.engineWaits k)

/-- R335: count the engines' waiting time of a core up to now. -/
def waitMark (k : Nat) (s : State) : State :=
  let n := ((s.coreEngines k).filter (s.engineWaits k)).length
  s.updCore k fun x =>
    { x with acc := x.acc + n * (s.now - x.mark), racc := x.racc + n * (s.now - x.mark), mark := s.now }

/-- A watchdog-mode wait of the core is outstanding (R330). -/
def State.wdWaits (s : State) (k : Nat) : Bool :=
  (List.range 64).any fun i => match s.waiter (64 * k + i) with | some x => x.mode | none => false

/-- What follows from a change of the core's waits: its waiting state, its watchdog, and the reclaim of its loan when it
stops waiting (R330, R335, R337). -/
def coreUpdate (k : Nat) (s : State) : State :=
  let w := s.coreWaits k
  let d := s.wdWaits k
  let s1 := s.updCore k fun x =>
    { x with waitSince := if w then some (x.waitSince.getD s.now) else none,
             wd := if d then some (x.wd.getD s.now) else none }
  if w then s1 else reclaimCore 0 (s1.coreClu k) k s1

/-- Change entry `w` of the waiter store, counting waiting time before. -/
def setWaiter (w : Nat) (v : Option Waiter) (s : State) : State :=
  let k := w / 64
  coreUpdate k ((waitMark k s).onSyn fun y => { y with wtr := Tbl.set none y.wtr w v })

/-- Give a response to its lane (R42, R44). -/
def epRespond (lane src q stat val : Nat) (s : State) : State :=
  s.updEp lane fun l => { l with resp := l.resp ++ [{ rsrc := src, rq := q, rstat := stat, rval := val }] }

/-- Answer the wait of entry `w`. -/
def waitRespond (w stat val : Nat) (s : State) : State := epRespond (s.coreClu (w / 64)) (w / 4) (w % 4) stat val s

/-- What an object shows: `VALUE`, or `LEVEL` in [0] and `GEN` in [7:4] (Table 12.2). -/
def SynObj.shown (x : SynObj) : Nat := if x.count then x.value else b2n x.level + 16 * x.gen

/-- Release a wait with 0x0000: the core's watchdog restarts (R325, R330). -/
def releaseWait (w val : Nat) (s : State) : State :=
  let s1 := setWaiter w none s
  waitRespond w 0 val (s1.updCore (w / 64) fun x => { x with wd := x.wd.map fun _ => s.now, wdFired := false })

/-- The group of which an object is a member (R321). -/
def State.groupOf (s : State) (o : Nat) : Option Nat :=
  ((s.syn.grp.filter fun e => e.2.valid && e.2.members.contains o).map Prod.fst).head?

/-- R322: an arrival that ends before completion is withdrawn. -/
def withdraw (x : Waiter) (s : State) : State :=
  if x.op = 8 then
    match s.groupOf x.obj with
    | some g => s.updGrp g fun y => { y with arrived := y.arrived - 1 }
    | none => s
  else s

/-- R331: report a failed wait, at most 64 times per core in 1 s. -/
def reportFail (w stat : Nat) (x : Waiter) (s : State) : State :=
  let k := w / 64
  let s1 := (s.onSyn fun y => { y with failed := satInc 16 y.failed }).updCtx x.ctx fun y =>
    { y with waitsFailed := satInc 32 y.waitsFailed }
  let recent := (Tbl.get [] s1.syn.failRec k).filter fun t => decide (s.now < t + nsPerS)
  if recent.length < 64 then
    (s1.onSyn fun y => { y with failRec := Tbl.set [] y.failRec k (s.now :: recent) })
    |> emitSyn 0x7010 (x.obj + x.op * 2 ^ 16 + x.tmo * 2 ^ 20 + b2n x.mode * 2 ^ 22)
        (w / 4 + w % 4 * 2 ^ 11 + x.ctx * 2 ^ 16) (satU 32 (s.now - x.start))
        (stat + (s.getObj x.obj).shown * 2 ^ 16)
  else s1.onSyn fun y => { y with failRec := Tbl.set [] y.failRec k recent }

/-- Fail the wait of entry `w` (R329–R331). A timeout shows the object's present value; every other status shows 0
(R324). -/
def failWait (stat w : Nat) (s : State) : State :=
  match s.waiter w with
  | none => s
  | some x =>
    let v := if stat = 0x7006 then (s.getObj x.obj).shown else 0
    waitRespond w stat v (setWaiter w none (withdraw x (reportFail w stat x s)))

/-- The waits that satisfy `p`, in order of acceptance (R325). -/
def State.waits (s : State) (p : Nat → Waiter → Bool) : List (Nat × Waiter) :=
  sortBy (fun e => e.2.ord)
    (s.syn.wtr.filterMap fun e => match e.2 with | some x => if p e.1 x then some (e.1, x) else none | none => none)

/-- Waits on an object. -/
def State.waitsOn (s : State) (o : Nat) : List (Nat × Waiter) := s.waits fun _ x => x.obj = o

/-- R318: a flag wait's release condition. -/
def flagReleases (x : SynObj) (w : Waiter) : Bool :=
  (w.op = 3 && (x.level || x.gen ≠ w.arg)) || (w.op = 4 && (!x.level || x.gen ≠ w.arg))

/-- The value a released flag wait returns (Table 12.2). -/
def flagVal (x : SynObj) (w : Waiter) : Nat :=
  x.shown + (if x.gen ≠ w.arg ∧ (x.level = decide (w.op = 4)) then 2 ^ 9 else 0)

/-- Release every waiter whose condition the operation on `o` has met (R318, R320, R325). -/
def releaseOn (o : Nat) (s : State) : State :=
  let x := s.getObj o
  forList ((s.waitsOn o).filter fun e =>
      if x.count then e.2.op = 7 && decide (e.2.arg ≤ x.value) else flagReleases x e.2)
    (fun e => releaseWait e.1 (if x.count then x.value else flagVal x e.2)) s

/-- R319: a SET and a CLEAR of different queues accepted within 2 ns of each other. -/
def raceWith (now srcq : Nat) : Option (Nat × Nat) → Bool
  | some (t, q) => decide (now ≤ t + 2) && decide (q ≠ srcq)
  | none => false

/-- Count a race and record it at most once per window in 1 ms (R319). -/
def countRace (o setter clearer : Nat) (s : State) : State :=
  let s1 := s.onSyn fun y => { y with race := satInc 16 y.race }
  let x := s1.getObj o
  if due s.now nsPerMs (Tbl.get none s.syn.raceRec (o / 64)) then
    (s1.onSyn fun y => { y with raceRec := Tbl.set none y.raceRec (o / 64) (some s.now) })
    |> emitSyn 0x7012 o setter clearer (b2n x.level + 16 * x.gen)
  else s1

/-- Engine and queue of waiter entry `w`, as parameters carry them. -/
def engQ (w : Nat) : Nat := w / 4 + w % 4 * 2 ^ 11

/-- SET or CLEAR a flag (R318); `w` names the engine queue, absent for an act by hand. Waiters are released after. -/
def flagOp (set : Bool) (w : Option Nat) (o : Nat) (s : State) : State :=
  let x := s.getObj o
  let s1 := s.updObj o fun y =>
    { y with level := set, gen := if set && !y.level then (y.gen + 1) % 16 else y.gen,
             lastSet := if set then (match w with | some q => some (s.now, q) | none => y.lastSet) else y.lastSet,
             lastClr := if set then y.lastClr else (match w with | some q => some (s.now, q) | none => y.lastClr) }
  match w with
  | none => s1
  | some q =>
    match (if set then x.lastClr else x.lastSet) with
    | some (t, p) =>
      if raceWith s.now q (some (t, p)) then countRace o (engQ (if set then q else p)) (engQ (if set then p else q)) s1
      else s1
    | none => s1

/-- Record the first underflow or overflow of a window in 1 s (R320). -/
def countErr (o w ctx kind before : Nat) (s : State) : State :=
  let s1 := s.onSyn fun y =>
    if kind = 0 then { y with udf := satInc 16 y.udf } else { y with ovf := satInc 16 y.ovf }
  if due s.now nsPerS (Tbl.get none s.syn.errRec (o / 64)) then
    (s1.onSyn fun y => { y with errRec := Tbl.set none y.errRec (o / 64) (some s.now) })
    |> emitSyn 0x7013 o (engQ w + ctx * 2 ^ 16) kind before
  else s1

/-- INC or DEC a count (R320): the response of entry `w` of context `ctx`. -/
def countOp (lane w ctx o amt : Nat) (inc : Bool) (s : State) : State :=
  let v := (s.getObj o).value
  let bad := if inc then decide (65535 < v + amt) else decide (v < amt)
  let v2 := if inc then min 65535 (v + amt) else v - amt
  let s1 := s.updObj o fun y => { y with value := v2 }
  let s2 := if bad then countErr o w ctx (b2n inc) v s1 else s1
  let st := if bad then (if inc then 0x7005 else 0x7004) else 0
  releaseOn o (epRespond lane (w / 4) (w % 4) st (if bad then (if inc then 0xFFFF else 0) else v2) s2)

/-- Hold a wait in the waiter store (R327). -/
def hold (w : Nat) (x : Waiter) (s : State) : State :=
  setWaiter w (some { x with ord := s.syn.ord, start := s.now, mode := (s.getCore (w / 64)).mode })
    (s.onSyn fun y => { y with ord := y.ord + 1 })

/-- R322: take the common base off the members and off the waits on them. -/
def rebase (members : List Nat) (s : State) : State :=
  let base := (members.map fun m => (s.getObj m).value).foldl min 65535
  let s1 := forList members (fun m => State.updObj m fun x => { x with value := x.value - base }) s
  forList (s1.waits fun _ x => x.op = 7 && members.contains x.obj)
    (fun e t => t.onSyn fun y => { y with wtr := Tbl.set none y.wtr e.1 (some { e.2 with arg := e.2.arg - base }) }) s1

/-- R321: the group completes: waiting arrivals are released, the count starts again, the generation rises and the
members are re-based. -/
def barrierComplete (g : Nat) (s : State) : State :=
  let y := s.getGrp g
  let gen := (y.gen + 1) % 256
  let s1 := forList (s.waits fun _ x => x.op = 8 && y.members.contains x.obj) (fun e => releaseWait e.1 gen) s
  rebase y.members (s1.updGrp g fun z => { z with arrived := 0, gen := gen })

/-- BARRIER_ARRIVE on a member of group `g` (R321). -/
def arrive (lane w ctx tmo o g : Nat) (s : State) : State :=
  let y := s.getGrp g
  if y.arrived + 1 < y.p then
    hold w { obj := o, op := 8, arg := 0, ctx := ctx, mode := false, tmo := tmo, start := 0, ord := 0 }
      (s.updGrp g fun z => { z with arrived := z.arrived + 1 })
  else
    let s1 := barrierComplete g s
    epRespond lane (w / 4) (w % 4) 0 (s1.getGrp g).gen s1

/-- A map holds a window (R326). -/
def State.mapHas (s : State) (ctx win : Nat) : Bool := ctx = 0 || Tbl.get 0 s.syn.own win = ctx

/-- The fields of a request are as Table 2.6 has them (R41). -/
def epFieldsOk (r : EpReq) : Bool :=
  match r.op with
  | 1 | 2 => r.arg = 0 && r.tmo = 0
  | 3 | 4 | 8 => r.arg = 0
  | 5 | 6 => r.tmo = 0
  | 7 => true
  | 9 => r.tmo = 0 && decide (r.obj < 256)
  | _ => false

/-- SYN_NOT_ALLOC: counted, and recorded at most once per context in 1 s (R326). -/
def mapViolation (r : EpReq) (s : State) : State :=
  let s1 := s.onSyn fun y => { y with viol := satInc 16 y.viol }
  if due s.now nsPerS (Tbl.get none s.syn.violRec r.ctx) then
    (s1.onSyn fun y => { y with violRec := Tbl.set none y.violRec r.ctx (some s.now) })
    |> emitSyn 0x7014 r.ctx r.obj (r.src + r.q * 2 ^ 11) 0
  else s1

/-- A synchronisation operation: the checks of Table 12.3 from the second on, then Table 12.2. -/
def synPerform (lane : Nat) (r : EpReq) (s : State) : State :=
  let w := 4 * r.src + r.q
  let x := s.getObj r.obj
  let no := fun st => epRespond lane r.src r.q st 0
  if !s.mapHas r.ctx (r.obj / 64) then no 0x7002 (mapViolation r s)
  else if x.poison then no 0x700A s
  else if x.count ≠ decide (5 ≤ r.op) then no 0x7003 s
  else
    let held : Waiter :=
      { obj := r.obj, op := r.op, arg := if r.op = 7 then r.arg else x.gen, ctx := r.ctx, mode := false,
        tmo := r.tmo, start := 0, ord := 0 }
    match r.op with
    | 1 | 2 =>
      let s1 := flagOp (decide (r.op = 1)) (some w) r.obj s
      let y := s1.getObj r.obj
      releaseOn r.obj (epRespond lane r.src r.q 0 (y.shown + (if y.level ≠ x.level then 2 ^ 8 else 0)) s1)
    | 3 => if x.level then epRespond lane r.src r.q 0 x.shown s else hold w held s
    | 4 => if x.level then hold w held s else epRespond lane r.src r.q 0 x.shown s
    | 5 => countOp lane w r.ctx r.obj r.arg true s
    | 6 => countOp lane w r.ctx r.obj r.arg false s
    | 7 => if r.arg ≤ x.value then epRespond lane r.src r.q 0 x.value s else hold w held s
    | _ =>
      match s.groupOf r.obj with
      | some g => arrive lane w r.ctx r.tmo r.obj g s
      | none => no 0x7003 s

/-- Clear an object's state: `LEVEL`, `VALUE`, `GEN` and `POISON` (Table 12.6). -/
def clearObj (o : Nat) (s : State) : State := s.updObj o fun x => { ({} : SynObj) with count := x.count }

/-- Objects of a window. -/
def winObjs (win : Nat) : List Nat := (List.range 64).map (64 * win + ·)

/-- Waits on the objects of a window, in order of acceptance. -/
def State.winWaits (s : State) (win : Nat) : List (Nat × Waiter) := s.waits fun _ x => x.obj / 64 = win

end Sys2Proof.Machine
end

