-- ==== Sys2Proof/Machine/HintOps.lean ====
section
/-!
DEFINITION. Shared operations on hints and forecasts (chapter 10): the hint queues, the outcome of hints, the selection
and binding of model sets, demand and accuracy.
-/
namespace Sys2Proof.Machine

/-- Entry `e` of the hint queue of cluster `c`. -/
def State.hint (s : State) (c e : Nat) : Option HintEnt := Tbl.get none s.fc.q (32 * c + e)

/-- Replace entry `e` of the hint queue of cluster `c`. -/
def setHint (c e : Nat) (v : Option HintEnt) (s : State) : State :=
  s.onFc fun f => { f with q := Tbl.set none f.q (32 * c + e) v }

/-- The entries of a cluster's queue, in order of their numbers. -/
def State.hints (s : State) (c : Nat) : List (Nat × HintEnt) :=
  (List.range 32).filterMap fun e => (s.hint c e).map fun x => (e, x)

/-- The context is distrusted (R281). -/
def State.distrusted (s : State) (t : Nat) : Bool := (s.getHx t).until_.isSome

/-- Misses among outcomes. -/
def missCount (l : List Bool) : Nat := (l.filter id).length

/-- R281: the miss fraction of a context's outcomes, in 1/256. -/
def HintCtx.missFrac (x : HintCtx) : Nat := if x.out = [] then 0 else divRoundN (missCount x.out * 256) x.out.length

/-- R281: distrust a context whose misses exceed the limit. -/
def judgeCtx (t : Nat) (s : State) : State :=
  let x := s.getHx t
  if decide (s.fc.minEval ≤ x.out.length) && decide (s.fc.missTh * x.out.length < missCount x.out * 256) &&
      !s.distrusted t then
    dropHints (fun h => h.ctx = t)
      (s.updHx t fun y => { y with until_ := some (s.now + s.fc.distMs * nsPerMs), ndist := satInc 16 y.ndist })
    |> emitTrs 0x6821 t x.missFrac 0 0
  else s

/-- When an entry is evaluated (R280). -/
def HintEnt.evalAt (x : HintEnt) : Nat := x.th + x.ev

/-- R280: evaluate an entry that is due: a hit when the mean current has risen by half the announced amount. -/
def hintEval (c e : Nat) (s : State) : State :=
  match s.hint c e with
  | none => s
  | some x =>
    if x.judged || decide (s.now < x.evalAt) || decide (x.epoch ≠ (s.getTx x.ctx).epoch) then s
    else
      let ipu := (s.getHc x.cls).ipu
      let i0 := x.i0.getD (s.getClu c).iApp
      let hit := if x.n = 0 then decide (x.inten * ipu ≤ ((s.getClu c).iApp - i0) * 16)
                 else decide (x.n * i0 * 16 + x.n * x.inten * ipu ≤ x.isum * 16)
      (setHint c e (some { x with judged := true }) s).updHc x.cls (fun y =>
          if hit then { y with hits := satInc 16 y.hits } else { y with misses := satInc 16 y.misses })
      |> State.updHx x.ctx (fun y => { y with out := ((!hit) :: y.out).take 256 })
      |> judgeCtx x.ctx

/-- R269: an entry leaves at t_e, after its evaluation if that is due by then. -/
def hintExpire (c e : Nat) (s : State) : State :=
  match s.hint c e with
  | none => s
  | some x =>
    if s.now < x.te then s
    else setHint c e none (if x.evalAt ≤ x.te then hintEval c e s else s)

/-- Evaluate and remove what is due in a cluster's queue. -/
def hintDue (c : Nat) (s : State) : State :=
  forList (List.range 32) (fun e t => hintExpire c e (hintEval c e t)) s

/-- Entries of an earlier epoch leave at the frame boundary (Table 10.3). -/
def hintEpochs (s : State) : State := dropHints (fun x => decide (x.epoch ≠ (s.getTx x.ctx).epoch)) s

/-- Refuse a hint (Table 10.1): the count of its class and the record of its context. -/
def hintRefuse (lane : Nat) (r : EpReq) (stat : Nat) (s : State) : State :=
  let cls := r.obj % 256
  let s1 := if stat = 0x6805 then s else s.updHc cls fun y => { y with refused := satInc 16 y.refused }
  let first := due s.now nsPerS (s1.getHx r.ctx).refused
  let s2 := s1.updHx r.ctx fun y => { y with refused := some s.now }
  epRespond lane r.src r.q stat 0 (if first then emitTrs 0x6820 r.ctx cls stat lane s2 else s2)

/-- R270: RELEASE cuts the end times of the context's entries in the cluster. -/
def hintRelease (lane : Nat) (r : EpReq) (s : State) : State :=
  let te := s.now + 250 * (r.arg / 256)
  let s1 := forList (List.range 32) (fun e t =>
    match t.hint lane e with
    | some x =>
      if x.ctx = r.ctx ∧ te < x.te then setHint lane e (if te ≤ x.th then none else some { x with te := te }) t else t
    | none => t) s
  epRespond lane r.src r.q 0 0 s1

/-- The class is permitted to the context (R271): class 0 always, and every class to context 0. -/
def State.hintMay (s : State) (ctx cls : Nat) : Bool := ctx = 0 || cls = 0 || bitOf (s.getHx ctx).perm cls

/-- Distance of two times. -/
def timeDist (a b : Nat) : Nat := max a b - min a b

/-- R269: queue a hint, or merge it with the entry it coalesces with. -/
def hintQueue (lane : Nat) (r : EpReq) (s : State) : State :=
  let cls := r.obj % 256
  let k := s.getHc cls
  let lead := r.arg / 256
  let early := decide (16 ≤ lead)
  let th := s.now + 250 * lead
  let te := th + k.dur * nsPerUs
  let late := if early then 0 else 2 ^ 9
  let lateCnt := fun (y : HintClass) => if early then y else { y with late := satInc 16 y.late }
  match ((s.hints lane).filter fun e =>
      e.2.ctx = r.ctx && e.2.cls = cls && e.2.early = early && decide (timeDist e.2.th th ≤ 1000)).head? with
  | some (e, x) =>
    epRespond lane r.src r.q 0 (e + 2 ^ 8 + late)
      ((setHint lane e (some { x with inten := max x.inten (r.arg % 256), th := min x.th th, te := max x.te te }) s).updHc
        cls fun y => lateCnt { y with coalesced := satInc 16 y.coalesced })
  | none =>
    match ((List.range 32).filter fun e => (s.hint lane e).isNone).head? with
    | none => hintRefuse lane r 0x6804 s
    | some e =>
      epRespond lane r.src r.q 0 (e + late)
        ((setHint lane e (some
            { ctx := r.ctx, epoch := (s.getTx r.ctx).epoch, cls := cls, inten := r.arg % 256, early := early,
              tacc := s.now, th := th, te := te, ev := min k.dur 8 * nsPerUs }) s).updHc
          cls fun y => lateCnt { y with accepted := satInc 16 y.accepted })

/-- A HINT request that passed the field checks of R41: the checks of Table 10.1 in order. -/
def hintPerform (lane : Nat) (r : EpReq) (s : State) : State :=
  let s0 := hintDue lane s
  let cls := r.obj % 256
  if !s0.fwUp then hintRefuse lane r 0x6805 s0
  else if !s0.feat 1 then hintRefuse lane r 0x6801 s0
  else if (cls ≠ 0 && !(s0.getHc cls).en) || (cls = 0 && r.arg % 256 ≠ 0) then hintRefuse lane r 0x6801 s0
  else if !s0.hintMay r.ctx cls then hintRefuse lane r 0x6802 s0
  else if s0.distrusted r.ctx then hintRefuse lane r 0x6803 s0
  else if cls = 0 then hintRelease lane r s0
  else hintQueue lane r s0

/-- R281: trust comes back at the end of `DIST_MS`. -/
def trustBack (t : Nat) (s : State) : State :=
  match (s.getHx t).until_ with
  | some u =>
    if s.now < u then s
    else (s.updHx t fun y => { y with until_ := none, out := [] }) |> emitTrs 0x6822 t 0 0 0
  | none => s

/-- The lowest level of a cluster's table whose estimated current reaches `i`, or 255 (R279). -/
def State.levelFor (s : State) (c i : Nat) : Nat :=
  ((List.range 256).find? fun l => decide (i ≤ ((s.getClu c).row l).iest)).getD 255

/-- R279: the late term of a cluster at `t`, 1/8 A. -/
def State.lateTerm (s : State) (c t : Nat) : Nat :=
  let l := (s.hints c).filter fun e =>
    !e.2.early && !s.distrusted e.2.ctx && decide (e.2.th < t + 10000) && decide (t < e.2.te)
  divRoundN ((l.map fun e => e.2.inten * (s.getHc e.2.cls).ipu).foldl (· + ·) 0) 8

/-- P_c(h) of horizon index `k`. -/
def FcClu.p (x : FcClu) (k : Nat) : Nat := x.pred.getD k 0

/-- R279: the demand power of a cluster before its floor. -/
def State.demand (s : State) (c : Nat) : Nat :=
  let x := s.getFcCl c
  if x.avail then
    let i := min (s.cluCfg c).icmax (max (max (x.p 0) (x.p 1)) (max (x.p 2) (x.p 3)) + s.lateTerm c s.now)
    ((s.getClu c).row (s.levelFor c i)).pest
  else (s.getClu c).pApp

/-- R274: the selecting entry of a cluster: the early entry of earliest t_h, then higher intensity, then lower class,
whose class selects a registered set that is not bad. -/
def State.selecting (s : State) (c : Nat) : Option HintEnt :=
  let l := ((s.hints c).map Prod.snd).filter fun x =>
    x.early && !s.distrusted x.ctx && (s.getHc x.cls).setValid &&
      (s.getSet (s.getHc x.cls).set).registered && !(s.getSet (s.getHc x.cls).set).bad && decide (s.now < x.te)
  (sortBy (fun x => x.th * 2 ^ 16 + (255 - x.inten) * 2 ^ 8 + x.cls) l).head?

/-- R274: the set a cluster desires, with the cause of a change to it. -/
def State.desired (s : State) (c : Nat) : Option (Nat × Nat) :=
  let x := s.getFcCl c
  let d := (s.fcCfg c).defSet
  match s.selecting c with
  | some e => if x.useDef ∧ e.tacc ≤ x.defAt then some (d, 2) else some ((s.getHc e.cls).set, 0)
  | none =>
    if x.useDef then some (d, 2)
    else if x.bound = none then some (d, if x.everBound then 1 else 3)
    else if x.selLast + 100 * nsPerUs ≤ s.now then some (d, 1)
    else none

/-- The binding entry of a cluster's forecaster: `LAYOUT` and `PAGES`. -/
def State.fcBinding (s : State) (c : Nat) : Option (Nat × Nat) :=
  (s.getProg (s.fcCfg c).prog).binds[(s.fcCfg c).bind]?

/-- The bound set of a cluster is resident. -/
def State.fcResident (s : State) (c : Nat) : Bool :=
  match (s.getFcCl c).bound with | some k => (s.getSet k).resident | none => false

/-- A set fits the binding of a cluster's forecaster. -/
def State.fcFits (s : State) (c k : Nat) : Bool :=
  match s.fcBinding c with | some b => setFits (s.getSet k) b | none => false

/-- R229: cluster `c` asks for set `k` to be paged in. A request that has found no frame is recorded once, and stands while the
same cluster asks for the same set (log entry 92). -/
def fcAsk (c k : Nat) (s : State) : State :=
  if !s.pageMay k then s
  else if (takeFrame s).isSome then pageStart k (s.updFcCl c fun y => { y with noSpace := none })
  else if (s.getFcCl c).noSpace = some k then s
  else pageStart k (s.updFcCl c fun y => { y with noSpace := some k })

/-- Table 8.7: a bound set that has lost its frame is paged in again. -/
def fcRepage (c : Nat) (s : State) : State :=
  match (s.getFcCl c).bound with
  | none => s
  | some k => if s.fwUp && s.fcFits c k && !(s.getSet k).resident then fcAsk c k s else s

/-- R274, R230: at a frame boundary, bind the desired set when it may be bound, or page it in. -/
def fcBind (c : Nat) (s : State) : State :=
  let sel := s.selecting c
  let s1 := s.updFcCl c fun x =>
    { x with sel := sel.map HintEnt.cls, selLast := if sel.isSome then s.now else x.selLast,
             useDef := x.useDef && !(sel.any fun e => decide (x.defAt < e.tacc)) }
  match s1.desired c with
  | none => s1
  | some (k, cause) =>
    let x := s1.getFcCl c
    if !s1.fcFits c k || !s1.fwUp then s1
    else if !(s1.getSet k).resident then fcAsk c k (fcRepage c s1)
    else if x.bound = some k then s1
    else if x.bound = none ∨ x.boundAt + 20 * nsPerUs ≤ s1.now then
      ((s1.updFcCl c fun y => { y with bound := some k, boundAt := s1.now, everBound := true }).updSet k
        fun y => { y with lastBound := s1.now })
      |> emitClerk 0x6810 c (x.bound.getD 0xFF) k cause
    else s1

/-- R274, R232: the binding of a cluster at a frame boundary; a bound set without a frame is paged in again. -/
def fcBoundary (c : Nat) (s : State) : State := fcRepage c (fcBind c s)

/-- R275: FC_NO_MODEL while no set can be bound, FC_MODEL_BACK when one is again. -/
def fcModel (c : Nat) (s : State) : State :=
  let x := s.getFcCl c
  if s.fcResident c then
    match x.noModel with
    | some t => (s.updFcCl c fun y => { y with noModel := none }) |> emitClerk 0x6812 c (x.bound.getD 0) (s.now - t) 0
    | none => s
  else if x.noModel.isNone ∧ s.fwUp then
    (s.updFcCl c fun y => { y with noModel := some s.now, avail := false })
    |> emitClerk 0x6811 c (match s.desired c with | some (k, _) => k | none => (s.fcCfg c).defSet) 0 0
  else s.updFcCl c fun y => { y with avail := false }

/-- The horizons in ns. -/
def fcHor : List Nat := [2000, 4000, 8000, 16000, 32000]

/-- R278: one comparison of a prediction with the measured current. -/
def FcAcc.step (x : FcAcc) (p m icmax : Nat) : FcAcc :=
  let e : Int := (p : Int) - m
  { mae := x.mae + e.natAbs - divRoundN x.mae 64, bias := x.bias + e - divRound x.bias 64, eval := satInc 16 x.eval,
    under := if icmax < 5 * (m - p) then satInc 16 x.under else x.under }

/-- R278: the gate at a horizon is passed. -/
def FcClu.gateOk (x : FcClu) (k : Nat) : Bool :=
  let a := x.acc.getD k {}
  decide (x.accMin ≤ a.eval) && decide (a.mae ≤ 64 * x.accTh)

/-- R278: compare the forecasts whose horizon lies in the frame from `fs` of length `len` with its measured current. -/
def fcEvaluate (c fs len : Nat) (s : State) : State :=
  let m := (s.getClu c).iApp
  let ic := (s.cluCfg c).icmax
  s.updFcCl c fun x =>
    let acc := x.hist.foldl (fun l h =>
      (List.range 5).map fun k =>
        let t := h.1 + fcHor.getD k 0
        let a := l.getD k ({} : FcAcc)
        if fs ≤ t ∧ t < fs + len then a.step (h.2.getD k 0) m ic else a) x.acc
    { x with acc := acc, hist := x.hist.filter fun h => decide (fs + len ≤ h.1 + 32000) }

/-- R278: the gates follow the statistics; those at 4 and 8 µs are recorded. -/
def fcGates (c : Nat) (s : State) : State :=
  let x := s.getFcCl c
  let g := maskOf ((List.range 5).filter x.gateOk)
  let s1 := s.updFcCl c fun y => { y with gate := g }
  forList [1, 2] (fun k t =>
    let y := t.getFcCl c
    let us := 2 ^ (k + 1)
    if bitOf x.gate k && !bitOf g k && due t.now nsPerS y.offRec then
      (t.updFcCl c fun z => { z with offRec := some t.now })
      |> emitTrs 0x6813 c us (divRoundN (x.acc.getD k {}).mae 64) 0
    else if !bitOf x.gate k && bitOf g k && due t.now nsPerS y.onRec then
      (t.updFcCl c fun z => { z with onRec := some t.now }) |> emitTrs 0x6814 c us 0 0
    else t) s1

/-- R280: the frame's apportioned current enters the entries it concerns. -/
def hintFrame (c fs len : Nat) (s : State) : State :=
  let i := (s.getClu c).iApp
  forList (s.hints c) (fun e t =>
    let x := e.2
    let i0 := x.i0.getD i
    let inside := decide (x.th < fs + len) && decide (fs < x.evalAt)
    setHint c e.1 (some { x with i0 := some i0, isum := if inside then x.isum + i else x.isum,
                                 n := if inside then x.n + 1 else x.n }) t) s

end Sys2Proof.Machine
end

