-- ==== Sys2Proof/Machine/TrsOps.lean ====
section
/-!
DEFINITION. Shared operations of Treasury (chapter 11): effective cap, floors and commitment, the allocation, Escrow's
loans, Overdraft and the throttle reasons.
-/
namespace Sys2Proof.Machine

/-- The frame length F in ns (R77). -/
def State.frameNs (s : State) : Nat := (s.cfg.frameLen + 1) * 500

/-- R81: Treasury allocates every ⌈10 µs / F⌉ frames. -/
def State.allocFrames (s : State) : Nat := (10000 + s.frameNs - 1) / s.frameNs

/-- Sum of a list of numbers. -/
def sumN (l : List Nat) : Nat := l.foldl (· + ·) 0

/-- L_out: the leases lent (R287, R353). -/
def State.lOut (s : State) : Nat := sumN (s.clr.lnk.map fun e => sumN (e.2.lent.map Lent.amt))

/-- L_in: the borrowed leases that count, whose expiry lies more than `LGUARD` in the future (R287, R354). -/
def State.lIn (s : State) : Nat :=
  sumN (s.clr.lnk.map fun e => sumN ((e.2.bor.filter fun b =>
    b.counted && b.ret.isNone && decide (s.now + s.trs.lguard * nsPerUs < b.exp)).map Bor.amt))

/-- R287: the effective cap. -/
def State.ceff (s : State) : Nat := s.trs.cap + s.lIn - s.lOut

/-- Cores of tenant context `t`; context 0 has those that no other context occupies (R296). -/
def State.txCores (s : State) (t : Nat) : Nat :=
  if t = 0 then
    Nat.xor (2 ^ 128 - 1) (s.trs.tx.foldl (fun m e => if e.1 = 0 then m else Nat.lor m e.2.cores) 0)
  else (s.getTx t).cores

/-- Number of cores in a mask. -/
def coreCount (m : Nat) : Nat := (maskIdx 128 m).length

/-- Cores of a cluster. -/
def State.nCores (s : State) (c : Nat) : Nat := coreCount (s.cluCfg c).cores

/-- Cores of cluster `c` that context `t` occupies. -/
def State.coresOn (s : State) (t c : Nat) : Nat := coreCount (Nat.land (s.txCores t) (s.cluCfg c).cores)

/-- Contexts that may occupy cores: context 0 and those with a placement. -/
def State.tenants (s : State) : List Nat :=
  0 :: ((s.trs.tx.filter fun e => e.1 ≠ 0 && e.2.cores ≠ 0).map Prod.fst)

/-- Clusters that a core mask touches, as a mask. -/
def State.maskClus (s : State) (m : Nat) : Nat :=
  maskOf (s.clusters.filter fun c => Nat.land m (s.cluCfg c).cores ≠ 0)

/-- A floor in force of context `t` (R297), or its grant for the commitment (R288). -/
def Tenant.floorOf (x : Tenant) (grant : Bool) : Nat :=
  if x.cls = 0 then (if grant then x.grant else x.floor)
  else if x.cls = 1 && !x.suspended then x.floor
  else 0

/-- R288: F_c, or G_c with latency floors taken at their grants. -/
def State.floorLevel (s : State) (grant : Bool) (c : Nat) : Nat :=
  s.tenants.foldl (fun m t => if s.coresOn t c = 0 then m else max m ((s.getTx t).floorOf grant)) 0

/-- `PEST` of a level of a cluster. -/
def State.pest (s : State) (c l : Nat) : Nat := ((s.getClu c).row l).pest
/-- `IEST` of a level of a cluster. -/
def State.iest (s : State) (c l : Nat) : Nat := ((s.getClu c).row l).iest

/-- R288: FP_c. -/
def State.floorPower (s : State) (c : Nat) : Nat := s.pest c (s.floorLevel false c)

/-- Clusters of a domain class (R292). -/
def State.classClus (s : State) (k : Nat) : List Nat := s.clusters.filter fun c => (s.cluCfg c).cls = k

/-- R288: COMMIT. -/
def State.commitment (s : State) : Nat :=
  sumN ((List.range 4).map fun k =>
    max (s.trs.floor.getD k 0) (sumN ((s.classClus k).map fun c => s.pest c (s.floorLevel true c))))

/-- Σ `IEST`_c(G_c) on a rail (R288). -/
def State.railFloorI (s : State) (r : Nat) : Nat :=
  sumN ((s.railClusters r).map fun c => s.iest c (s.floorLevel true c))

/-- R288 holds. -/
def State.commitOk (s : State) : Bool :=
  decide (s.commitment * 100 ≤ s.trs.floorMax * (s.trs.cap - s.lOut)) &&
    (List.range 8).all fun r => decide (s.railFloorI r * 100 ≤ s.trs.floorMax * s.cfg.trs.ibud.getD r 0)

/-- Every throughput floor suspended: what R289 tests a change against, since R297 suspends floors that do not fit. -/
def suspendAll (s : State) : State :=
  s.onTrs fun x => { x with tx := x.tx.map fun e => (e.1, { e.2 with suspended := e.2.suspended || e.2.cls = 1 }) }

/-- R289: a change is admitted when R288 holds after it. -/
def admits (f : State → State) (s : State) : Bool := (suspendAll (f s)).commitOk

/-- R297: throughput contexts with a floor, in order of descending weight, ties to the lower number. -/
def State.thrFloors (s : State) : List Nat :=
  sortBy (fun t => 65535 - (s.getTx t).weight)
    (s.tenants.filter fun t => (s.getTx t).cls = 1 && decide (0 < (s.getTx t).floor))

/-- R297: take the throughput floors in order, each in force while the commitment with it meets R288. A suspended floor
returns only at an allocation (`back`). -/
def floorsUpdate (back : Bool) (s : State) : State :=
  let step := fun (u : State) (t : Nat) =>
    let was := (s.getTx t).suspended
    let u1 := u.updTx t fun x => { x with suspended := false }
    if (was && !back) || !u1.commitOk then u else u1
  let held := s.thrFloors.foldl (fun u t => u.updTx t fun x => { x with suspended := true }) s
  let done := s.thrFloors.foldl step held
  forList s.thrFloors (fun t u =>
    if (s.getTx t).suspended && !(u.getTx t).suspended then emitTrs 0x6031 t 0 0 0 u
    else if !(s.getTx t).suspended && (u.getTx t).suspended then emitTrs 0x6030 t (u.getTx t).floor 0 0 u
    else u) done

/-- The classes in priority order. -/
def State.prioOrder (s : State) : List Nat := (List.range 4).filterMap fun p => (List.range 4).find? fun k => s.trs.prio.getD k 0 = p

/-- R292: the demand of a cluster, at least its floor power. -/
def State.demClu (s : State) (c : Nat) : Nat := max (s.demand c) (s.floorPower c)

/-- R292: the effective floor of a class. -/
def State.efloor (s : State) (k : Nat) : Nat :=
  max (s.trs.floor.getD k 0) (sumN ((s.classClus k).map s.floorPower))

/-- R292: the pre-emption term of a cluster. -/
def State.preTerm (s : State) (c : Nat) : Nat :=
  let x := s.getFcCl c
  if x.avail && x.gateOk 4 then s.pest c (s.levelFor c (x.p 4)) - s.demClu c else 0

/-- One pass over the classes in priority order: `f` says what a class takes from the budget left. -/
def classPass (order : List Nat) (f : List Nat → Nat → Nat → Nat) (g : List Nat) (b : Nat) : List Nat × Nat :=
  order.foldl (fun a k => let x := f a.1 a.2 k; (a.1.set k (a.1.getD k 0 + x), a.2 - x)) (g, b)

/-- What R293 computes: the class budgets without and with headroom, the reserve, and the demand that steps 1 to 4
leave unmet. -/
structure ClassAlloc where
  g : List Nat
  head : List Nat
  rsv : Nat
  unmet : Nat
deriving DecidableEq, Repr

/-- R293: the class budgets; `od` is the Overdraft budget of step 5. -/
def classAlloc (s : State) (od : Nat) : ClassAlloc :=
  let ord := s.prioOrder
  let w := s.trs.weight
  let ws := sumN w
  let d := (List.range 4).map fun k => sumN ((s.classClus k).map s.demClu)
  let want := fun (g : List Nat) k => d.getD k 0 - g.getD k 0
  let p1 := classPass ord (fun _ b k => min (s.efloor k) b) [0, 0, 0, 0] s.ceff
  let rsv := min (min (s.trs.preMax * s.ceff / 600) (sumN (s.clusters.map s.preTerm))) p1.2
  let r := p1.2 - rsv
  let p3 := classPass ord (fun g b k => min (min (want g k) (if ws = 0 then 0 else r * w.getD k 0 / ws)) b) p1.1 r
  let p4 := classPass ord (fun g b k => min (want g k) b) p3.1 p3.2
  let p5 := classPass ord (fun g b k => min (want g k) b) p4.1 od
  { g := p5.1, rsv := rsv, unmet := sumN ((List.range 4).map fun k => want p4.1 k),
    head := (List.range 4).map fun k => if ws = 0 then 0 else p4.2 * w.getD k 0 / ws }

/-- Water-fill `left` over the indices `l` with weights `w` up to needs `d`: each round every index with unmet need
receives its part of what is left; all divisions round down. `n` bounds the rounds. -/
def waterFill : Nat → List Nat → (Nat → Nat) → (Nat → Nat) → Nat → (Nat → Nat) → (Nat → Nat)
  | 0, _, _, _, _, got => got
  | n + 1, l, w, d, left, got =>
    let open_ := l.filter fun i => decide (got i < d i) && decide (0 < w i)
    let ws := sumN (open_.map w)
    if ws = 0 then got
    else
      let give := fun i => if open_.contains i then min (d i - got i) (left * w i / ws) else 0
      let used := sumN (open_.map give)
      if used = 0 then got else waterFill n l w d (left - used) fun i => got i + give i

/-- What a tenant gets in one class (R298): demand, entitlement and budget. -/
structure TxAlloc where
  t : Nat
  d : Nat
  e : Nat
  b : Nat
deriving DecidableEq, Repr

/-- R298: the demand of a tenant on cluster `c` above its floor. -/
def State.txDem (s : State) (t c : Nat) : Nat :=
  if s.nCores c = 0 then 0 else s.coresOn t c * (s.demClu c - s.floorPower c) / s.nCores c

/-- R298: the passes over the tenants of a class whose clusters are `cs` and whose budget above the floors is `rem`. -/
def txAlloc (s : State) (cs : List Nat) (rem : Nat) : List TxAlloc :=
  let ts := s.tenants.filter fun t => cs.any fun c => decide (0 < s.coresOn t c)
  let bg := fun t => decide (2 ≤ (s.getTx t).cls)
  let ws := sumN ((ts.filter fun t => !bg t).map fun t => (s.getTx t).weight)
  let d := fun t => sumN (cs.map (s.txDem t))
  let e := fun t => if bg t || ws = 0 then 0 else rem * (s.getTx t).weight / ws
  let tb := fun t => min (d t) (e t)
  let group := fun p => ts.filter fun t =>
    let x := s.getTx t
    if bg t then p = 4 else p = (if x.credit < 0 then 2 else 0) + (if x.cls = 0 then 0 else 1)
  let fill := fun (a : (Nat → Nat) × Nat) p =>
    let got := waterFill (ts.length + 1) (group p) (fun t => (s.getTx t).weight) d a.2 a.1
    (got, a.2 - (sumN ((group p).map got) - sumN ((group p).map a.1)))
  let b := ((List.range 5).foldl fill (tb, rem - sumN (ts.map tb))).1
  ts.map fun t => { t := t, d := d t, e := e t, b := b t }

/-- A class has cores that a tenant context occupies (R294). -/
def State.tenanted (s : State) (k : Nat) : Bool :=
  s.tenants.any fun t => t ≠ 0 && (s.classClus k).any fun c => decide (0 < s.coresOn t c)

/-- R294, R298: the power shares of the clusters of class `k` from its budget and headroom, and what its tenants got. -/
def classShares (s : State) (k g head : Nat) : List (Nat × Nat) × List TxAlloc :=
  let cs := s.classClus k
  let fp := s.floorPower
  let rem := g + head - sumN (cs.map fp)
  if s.tenanted k then
    let ta := txAlloc s cs rem
    let left := rem - sumN (ta.map TxAlloc.b)
    let cores := sumN (cs.map s.nCores)
    (cs.map fun c =>
      (c, fp c + sumN (ta.map fun x => if x.d = 0 then 0 else x.b * s.txDem x.t c / x.d)
            + (if cores = 0 then left / max cs.length 1 else left * s.nCores c / cores)), ta)
  else
    let d := fun c => s.demClu c - fp c
    let got := waterFill (cs.length + 1) cs (fun _ => 1) d rem fun _ => 0
    let left := rem - sumN (cs.map got)
    (cs.map fun c => (c, fp c + got c + left / max cs.length 1), [])

/-- R301: the pool: the loans that Treasury has taken. -/
def State.pool (s : State) : Nat :=
  sumN (s.syn.core.map fun e => if e.2.lent.isSome && e.2.taken then e.2.loan else 0)

/-- R301: the most a cluster at power share `p` may borrow: what it can shed in 4 µs, through its table. -/
def State.borrowMax (s : State) (c p : Nat) : Nat :=
  let di := 4 * (s.getClu c).dn * (s.cluCfg c).icmax / 400
  let low := ((List.range 256).filter fun l => decide (s.pest c l ≤ p)).foldl max 0
  let high := ((List.range 256).filter fun l => decide (s.iest c l ≤ s.iest c low + di)).foldl max low
  s.pest c high - s.pest c low

/-- R301: give the pool to clusters with unmet demand, in the priority order of the classes; a cluster that lends does
not borrow. -/
def lendPool (s : State) (base : List (Nat × Nat)) : List (Nat × Nat) :=
  (s.prioOrder.foldl (fun a k => (s.classClus k).foldl (fun b c =>
      let p := Tbl.get 0 base c
      let x := if (s.getTrsCl c).lent = 0 then min (min (s.demClu c - p) (s.borrowMax c p)) b.2 else 0
      (b.1 ++ [(c, x)], b.2 - x)) a) (([] : List (Nat × Nat)), s.pool)).1

/-- s_rc: the part of cluster `c`'s current drawn from rail `r`, as a fraction (numerator, denominator) (R276). -/
def State.railPart (s : State) (r c : Nat) : Nat × Nat :=
  let x := s.getClu c
  let tot := sumN (x.iParts.map Prod.snd)
  if tot = 0 then (if bitOf (s.cluCfg c).rails r then 1 else 0, max 1 (maskIdx 8 (s.cluCfg c).rails).length)
  else (Tbl.get 0 x.iParts r, tot)

/-- R295: the rail-current shares from the power shares. -/
def currentShares (s : State) (p : Nat → Nat) : Nat → Nat :=
  let part := fun c r =>
    let q := s.railPart r c
    s.iest c (s.floorLevel false c) * q.1 / q.2
  let railShare := fun r =>
    let cs := s.railClusters r
    let rest := s.cfg.trs.ibud.getD r 0 - sumN (cs.map fun c => part c r)
    let above := fun c => p c - s.floorPower c
    let tot := sumN (cs.map above)
    fun c => part c r + (if tot = 0 then rest / max cs.length 1 else rest * above c / tot)
  fun c => sumN ((maskIdx 8 (s.cluCfg c).rails).map fun r => railShare r c)

/-- `OD_PCT` in force: 100 % without feature `OVERDRAFT` (R386). -/
def State.odPct (s : State) : Nat := if s.feat 5 then s.trs.odPct else 100

/-- The bucket's capacity E_MAX in 1/16 µJ (R290). -/
def State.odMax (s : State) : Nat := (s.odPct - 100) * s.trs.cap * 20

/-- R291: an excursion ends. -/
def odEnd (cause : Nat) (s : State) : State :=
  match s.trs.odSince with
  | none => s
  | some t =>
    (s.onTrs fun x => { x with odSince := none, outOfTurn := x.outOfTurn || cause ≠ 2 })
    |> emitTrs 0x6021 cause (s.now - t) (divRoundN s.trs.od 16) 0

/-- R291: an excursion ends at its reserve or after 1 ms. -/
def odCheck (s : State) : State :=
  match s.trs.odSince with
  | none => s
  | some t =>
    if s.trs.od * 100 ≤ s.trs.reserve * s.odMax then odEnd 0 s
    else if t + nsPerMs ≤ s.now then odEnd 1 s
    else s

/-- R291: what an allocation does to the excursion: it ends without unmet demand, and one starts when the bucket is
full enough and demand is unmet. -/
def odAllocate (unmet : Nat) (s : State) : State :=
  match s.trs.odSince with
  | some _ => if unmet = 0 then odEnd 2 s else s
  | none =>
    if decide (0 < unmet) && decide (100 < s.odPct) && decide (s.trs.rearm * s.odMax ≤ s.trs.od * 100) then
      (s.onTrs fun x => { x with odSince := some s.now, odCnt := satInc 16 x.odCnt })
      |> emitTrs 0x6020 (divRoundN s.trs.od 16) unmet 0 0
    else s

/-- R300: a migration takes effect at an allocation. -/
def migrate (t : Nat) (s : State) : State :=
  let x := s.getTx t
  match x.place with
  | none => s
  | some m =>
    let old := s.maskClus x.cores
    let new := s.maskClus m
    let s1 := s.updTx t fun y =>
      { y with cores := m, place := none, epoch := (y.epoch + 1) % 65536, breach := Nat.land y.breach new }
    emitTrs 0x6040 t (s1.getTx t).epoch old new s1

/-- R299: a tenant's credit after an allocation with shares `p`; its clusters are those of the classes with tenant-occupied
cores (R298). -/
def creditUpdate (p : Nat → Nat) (a : TxAlloc) (s : State) : State :=
  let lim : Int := (s.trs.credMax * 4096 : Nat)
  let u := sumN ((s.clusters.filter fun c => s.tenanted (s.cluCfg c).cls).map fun c =>
    if s.nCores c = 0 then 0
    else s.coresOn a.t c * (min (p c) (s.pest c (s.getClu c).level) - s.floorPower c) / s.nCores c)
  s.updTx a.t fun x => { x with credit := max (-lim) (min lim (x.credit + a.e - u)), budget := a.b, entitle := a.e }

/-- Join what a tenant got in several classes. -/
def mergeTx (l : List TxAlloc) : List TxAlloc :=
  l.foldl (fun r a =>
    if r.any fun b => b.t = a.t then
      r.map fun b => if b.t = a.t then { b with d := b.d + a.d, e := b.e + a.e, b := b.b + a.b } else b
    else r ++ [a]) []

/-- R293–R301: one allocation; the shares wait for the commit. -/
def allocate (s : State) : State :=
  let s0 := floorsUpdate true (forList (s.trs.tx.map Prod.fst) migrate s)
  let s1 := odAllocate (classAlloc s0 0).unmet s0
  let od := if s1.trs.odSince.isSome then s1.odPct * s1.ceff / 100 - s1.ceff else 0
  let a := classAlloc s1 od
  let parts := (List.range 4).map fun k => classShares s1 k (a.g.getD k 0) (a.head.getD k 0)
  let base := sortBy Prod.fst (parts.flatMap Prod.fst)
  let bor := lendPool s1 base
  let share := fun c => Tbl.get 0 base c + Tbl.get 0 bor c - (s1.getTrsCl c).lent
  let ish := currentShares s1 share
  let s2 := forList s1.clusters (fun c => State.updTrsCl c fun x =>
    { x with next := some (Tbl.get 0 base c, Tbl.get 0 bor c, ish c), dem := s1.demClu c,
             unmet := s1.demClu c - Tbl.get 0 base c,
             preempt := decide (0 < a.rsv) && decide (share c < s1.demClu c) }) s1
  let s3 := s2.onTrs fun x =>
    { x with eff := s1.ceff, commit := s1.commitment, unmet := a.unmet, preSum := sumN (s1.clusters.map s1.preTerm),
             allocated := true, outOfTurn := false,
             budget := (List.range 4).map fun k => a.g.getD k 0 + a.head.getD k 0,
             demand := (List.range 4).map fun k => sumN ((s1.classClus k).map s1.demClu),
             alloc := sumN a.g + sumN a.head }
  let s4 := forList s3.fcClus (fun c t => t.updFcCl c fun x => { x with late := t.lateTerm c t.now }) s3
  forList (mergeTx (parts.flatMap Prod.snd)) (creditUpdate share) (s4.onFw fun f => { f with allocOk := true })

/-- The power share of a cluster in force: its allocation, less what it has lent, plus what it has borrowed. -/
def State.share (s : State) (c : Nat) : Nat :=
  let x := s.getTrsCl c
  x.base + x.borrowed - x.lent

/-- Give a cluster's shares to its loops 0 and 1 as their targets (R295). -/
def setTargets (c : Nat) (s : State) : State :=
  if s.trs.allocated then
    let i := (s.getTrsCl c).ishare
    let p := s.share c
    (s.updLp c 0 fun l => { l with tgt := some p }).updLp c 1 fun l => { l with tgt := some i }
  else s

/-- The allocation of the frame becomes visible (R295). -/
def allocCommit (s : State) : State :=
  forList s.clusters (fun c t =>
    match (t.getTrsCl c).next with
    | none => t
    | some (b, w, i) =>
      setTargets c (t.updTrsCl c fun x => { x with base := b, borrowed := w, ishare := i, next := none })) s

/-- R301: take a core's loan at the frame boundary. -/
def takeLoan (c k : Nat) (s : State) : State :=
  let x := s.getCore k
  if x.lent.isSome && !x.taken then
    (s.updCore k fun y => { y with taken := true }).updTrsCl c fun y => { y with lent := y.lent + x.loan }
  else s

/-- Cut what clusters have borrowed down to the pool, the last served first (R302 step 1). -/
def cutBorrowed (s : State) : State :=
  let order := (s.prioOrder.flatMap s.classClus).reverse
  (order.foldl (fun (a : State × Nat) c =>
    let x := min a.2 (a.1.getTrsCl c).borrowed
    (a.1.updTrsCl c fun y => { y with borrowed := y.borrowed - x }, a.2 - x))
    (s, sumN (s.clusters.map fun c => (s.getTrsCl c).borrowed) - s.pool)).1

/-- Treasury at a frame boundary: loans taken, reclaimed loans removed from the borrowers, an allocation out of turn
(R287, R291, R301, R302). -/
def trsBoundary (s : State) : State :=
  let s1 := forList s.clusters (fun c t => forList (t.cluCores c) (takeLoan c) t) s
  let s2 := if s1.trs.rets.any fun r => !r.started then
      cutBorrowed (s1.onTrs fun x => { x with rets := x.rets.map fun r => { r with started := true } })
    else s1
  let s3 := if s2.trs.outOfTurn && s2.fwUp then allocCommit (allocate s2) else s2
  forList s3.clusters setTargets s3

/-- R302 steps 2 and 3: what a returning loan gives back by now. -/
def LoanRet.due (s : State) (r : LoanRet) : Nat :=
  if r.at_ + 4000 ≤ s.now then r.amt
  else if r.started then
    max r.given (min r.amt (sumN (r.powers.map fun e => e.2 - s.pest e.1 (s.getClu e.1).level)))
  else r.given

/-- R302: at a frame commit the lender's share rises as the borrowers fall. -/
def loansBack (s : State) : State :=
  let s1 := forList s.trs.rets (fun r => State.updTrsCl r.clu fun x =>
    { x with lent := x.lent - (r.due s - r.given) }) s
  s1.onTrs fun x =>
    { x with rets := (x.rets.map fun r => { r with given := r.due s }).filter fun r => decide (r.given < r.amt) }

/-- R285, R286, R290: the package power of a frame, the energy counter and the bucket. -/
def meterFrame (s : State) : State :=
  let p := sumN ((s.cfg.rail.filter fun e => e.2.present).map fun e => (s.getMeas e.1).telP)
  let f := s.frameNs / 500
  let e := s.trs.energyRem + p * f
  let od := s.trs.od + s.ceff * f - p * f
  let empty := decide (s.trs.od + s.ceff * f ≤ p * f) && decide (s.ceff < p)
  let s1 := s.onTrs fun x =>
    { x with pPkg := satU 16 p, energy := x.energy + e / 16, energyRem := e % 16, od := min od s.odMax, exceeded := empty }
  if empty && !s.trs.exceeded then emitTrs 0x6011 (satU 16 p) s.ceff 0 0 s1 else s1

end Sys2Proof.Machine
end

