-- ==== Sys2Proof/Machine/LoopOps.lean ====
section
/-!
DEFINITION. Shared operations of the limit loops (chapter 09): measured quantities, supervision, the SELECT stage, the
mapping of the applied level to the actuators, apportionment and throttle reasons.
-/
namespace Sys2Proof.Machine

/-- A clamp of whole numbers. -/
def clampI (lo hi x : Int) : Int := max lo (min hi x)

/-- Element `i` of a state-store block as committed, in units of 2^`q` (R206). -/
def State.tlyElem (s : State) (b i : Nat) (q : Int) : Int :=
  let x := Tbl.get ({} : Blk) s.tly.st b
  rneShift (x.at i) (x.e - 15 - q)

/-- The sites of a cluster. -/
def State.cluSites (s : State) (c : Nat) : List Nat := s.sites.filter fun i => (s.siteCfg i).cluster = c

/-- The largest used value of a cluster's sites (Table 9.1). -/
def State.cluHot (s : State) (c : Nat) : Option Int :=
  (s.cluSites c).foldl (fun m i => match s.siteUsed i with
    | some v => some (match m with | some w => max w v | none => v)
    | none => m) none

/-- Table 9.1: the measured-only quantity of loop `j`. -/
def State.qMeas (s : State) (c j : Nat) : Option Int :=
  let x := s.getClu c
  match j with
  | 0 => if s.frm.metered then some (x.pApp : Int) else none
  | 1 => if s.frm.metered then some (x.iApp : Int) else none
  | 2 => s.cluHot c
  | 3 => (s.cluHot c).map fun v => v + (s.getLp c 3).mofs
  | 4 => if x.exts = [] then none
         else some ((divRoundN (sumN x.exts * 1000000) (x.exts.length * s.frameNs) : Nat) : Int)
  | _ => none

/-- The measured quantities of a snapshot (R78, R237). -/
def measureClu (c : Nat) (s : State) : State :=
  forList (List.range 5) (fun j => State.updLp c j fun l => { l with qmeas := s.qMeas c j }) s

/-- R249–R253: a loop enters its measured-only form. -/
def loopFallback (cause : Nat) (rmax : Int) (c j : Nat) (s : State) : State :=
  let l := s.getLp c j
  let times := (if cause = 1 then [s.now] else []) ++ l.c1Times.filter fun t => decide (s.now < t + nsPerS)
  let latch := cause = 1 && decide (3 ≤ times.length) && !l.fbLatch
  let s1 := (s.updLp c j fun y =>
      { y with fallback := true, fbCause := cause, fbSince := s.now, fbCnt := satInc 16 y.fbCnt, reform := true,
               c1Times := times, fbLatch := y.fbLatch || latch, innov := if cause = 1 then y.innov else y.innov })
    |> emitTeller c 0x5020 c j cause (encS 32 rmax)
  if latch then setAlarm 8 (emitTeller c 0x5022 c j 0 0 s1) else s1

/-- R251, R493: a loop returns from its measured-only form. -/
def loopReturn (c j : Nat) (s : State) : State :=
  let l := s.getLp c j
  (s.updLp c j fun y => { y with fallback := false, fbCause := 0, reform := true, innov := 0, missEst := 0 })
  |> emitTeller c 0x5021 c j (s.now - l.fbSince) 0

/-- The LIMIT program of the loop has left results at the last commit. -/
def State.limRan (s : State) (c j : Nat) : Bool := s.tly.ranLast.contains (s.getLp c j).limProg

/-- The observer program of the loop committed an estimate at the last commit (R250). -/
def State.obsRan (s : State) (c j : Nat) : Bool :=
  s.tly.ranLast.contains (s.getLp c j).obsProg && !(s.getProg (s.getLp c j).obsProg).failed

/-- The unsaturated time that ends a saturation fallback has passed (R493). -/
def LoopSt.unsatFor (l : LoopSt) (now : Nat) : Bool :=
  l.satSince.isNone && decide (l.unsatSince + l.tsat * nsPerMs ≤ now)

/-- R249–R251, R493: the supervision of a loop with an observer, once per frame. -/
def supervise (c j : Nat) (s : State) : State :=
  let g := s.loopCfg c j
  if !g.present || g.nx = 0 then s
  else
    let lim := s.limRan c j
    let obs := s.obsRan c j
    let rmax := s.tlyElem g.resBlk 2 0
    let s1 := s.updLp c j fun l =>
      { l with
        innov := if lim then (if (l.rth : Int) < rmax then satInc 8 l.innov else 0) else l.innov
        missEst := if obs then 0 else satInc 8 l.missEst
        hasEst := l.hasEst || obs
        clean := if lim && obs && decide (rmax ≤ (l.rth : Int)) then l.clean + 1 else 0 }
    let l := s1.getLp c j
    if l.fallback then
      if l.fbCause = 3 then
        if !l.fbForce && (!l.satFb || l.unsatFor s.now) then loopReturn c j s1 else s1
      else if decide (l.nret * 64 ≤ l.clean) && !l.fbForce && !l.fbLatch then loopReturn c j s1
      else s1
    else if l.n ≤ l.innov then loopFallback 1 rmax c j s1
    else if 2 ≤ l.missEst then loopFallback 2 rmax c j s1
    else s1

/-- R242: the feed-forward level of a target in loop 0 or 1: the highest level whose estimate does not exceed it. -/
def State.ffLevel (s : State) (c j : Nat) (tgt : Nat) : Nat :=
  if !(s.loopCfg c j).ff then 0
  else if j = 0 then ((List.range 256).filter fun l => decide (s.pest c l ≤ tgt)).foldl max 0
  else if j = 1 then ((List.range 256).filter fun l => decide (s.iest c l ≤ tgt)).foldl max 0
  else 0

/-- A target or a highest target in the loop's field unit (Table 9.1): loops 2 and 3 hold temperatures, which are s16
(Table 0.3). -/
def loopTgt (j n : Nat) : Int := if j = 2 ∨ j = 3 then decS 16 n else (n : Int)

/-- R242: the request of loop `j` of cluster `c`: the loop with its raw and clamped outputs. `none` for a loop that is
not present. -/
def loopStep (s : State) (c j : Nat) : LoopSt :=
  let l0 := s.getLp c j
  let g := s.loopCfg c j
  let blk := g.resBlk
  let tgt : Int := loopTgt j (l0.tgt.getD 0)
  let l : LoopSt :=
    { l0 with k := if s.limRan c j then s.tlyElem blk 1 0 else l0.k, qhat := if s.limRan c j then s.tlyElem blk 0 0 else l0.qhat
              f := match l0.tgt with | some t => s.ffLevel c j t | none => 0 }
  let l := if l.reform then { l with kp := l.k, fp := l.f, reform := false } else l
  let base : Int := if l.firstAuto then ((l.man * 256 : Nat) : Int) else ((s.getClu c).a : Int)
  let inc : Int :=
    if l.tgt = none then 0
    else if l.fallback ∨ g.nx = 0 then
      match l.qmeas with
      | some q => (l.kim : Int) * (tgt - l.margin - q) / 256
      | none => 0
    else if l.hasEst then
      (l.ki : Int) * s.tlyElem blk 3 0 / 256 - (l.k - l.kp) + 256 * ((l.f : Int) - l.fp)
    else 0
  let raw := base + inc
  let low : Int := if j = 0 then ((256 * s.floorLevel false c : Nat) : Int) else 0
  let l := { l with kp := l.k, fp := l.f, firstAuto := false, raw := satS 24 raw }
  { l with out := (clampI 0 (255 * 256) (max low raw)).toNat
           satSince := if raw < 0 then some (l.satSince.getD s.now) else none
           unsatSince := if raw < 0 then s.now else (if l.satSince.isSome then s.now else l.unsatSince)
           satFlag := decide (raw < 0) && l.satFlag }

/-- Run the request of loop `j` and keep its output `v`, in 1/256 level (R242). -/
def loopRun (c j : Nat) (s : State) : State :=
  let l := s.getLp c j
  if j = 5 then s.updLp c 5 fun y => { y with out := min 255 (y.tgt.getD 255) * 256 }
  else if !(s.loopCfg c j).present then s
  else if !l.auto then s.updLp c j fun y => { y with out := y.man * 256, satSince := none, satFlag := false }
  else s.updLp c j fun _ => loopStep s c j

/-- The output of loop `j` in select-low: 255 for a loop that is not present. -/
def State.loopV (s : State) (c j : Nat) : Nat :=
  if j = 5 ∨ (s.loopCfg c j).present then (s.getLp c j).out else 255 * 256

/-- R253: a loop saturated for longer than `TSAT` sets its flag, and falls back if `SAT_FB` says so. -/
def saturated (c j : Nat) (s : State) : State :=
  let l := s.getLp c j
  match l.satSince with
  | none => s
  | some t =>
    if l.auto && (s.loopCfg c j).present && !l.satFlag && decide (t + l.tsat * nsPerMs < s.now) then
      let s1 := (s.updLp c j fun y => { y with satFlag := true, satCnt := satInc 16 y.satCnt })
        |> emitTeller c 0x5023 c j (encS 32 l.raw) 0
      if l.satFb && !l.fallback && decide ((s.loopCfg c j).nx ≠ 0) then loopFallback 3 (s.tlyElem (s.loopCfg c j).resBlk 2 0) c j s1
      else s1
    else s

/-- R245: the slope limiter from level `a` (1/256) towards `w`. Currents are compared exactly, with `UP` and `DN` in
0.25 % of I_CMAX per µs. -/
def slopeLimit (s : State) (c a w : Nat) : Nat :=
  let x := s.getClu c
  let i0 := s.iest c (a / 256) * 400000
  let up := i0 + x.up * (s.cluCfg c).icmax * s.frameNs
  let dn := i0 - x.dn * (s.cluCfg c).icmax * s.frameNs
  let r :=
    if a < w then min w (256 * (((List.range 256).filter fun l => decide (s.iest c l * 400000 ≤ up)).foldl max 0))
    else if w < a then
      max w (256 * (((List.range 256).find? fun l => decide (dn ≤ s.iest c l * 400000)).getD 255))
    else w
  if a / 256 ≠ w / 256 ∧ r / 256 = a / 256 then 256 * (if a < w then a / 256 + 1 else a / 256 - 1) else r

/-- R242: the SELECT stage of a cluster; its result waits for the commit. While the references have no majority the
level stays 0 (R120). -/
def selectStage (c : Nat) (s : State) : State :=
  let s2 := forList (List.range 6) (loopRun c) s
  let s3 := forList (List.range 5) (saturated c) s2
  let w := ((List.range 6).map (s3.loopV c)).foldl min (255 * 256)
  let wl := ((List.range 6).find? fun j => s3.loopV c j = w).getD 7
  let s4 := forList (List.range 6) (fun j => State.updLp c j fun l => { l with limiting := s3.loopV c j = w }) s3
  let a := slopeLimit s4 c (s4.getClu c).a w
  s4.updClu c fun x => { x with next := some (if s.sns.noMaj then 0 else a, w, wl, a ≠ w) }

/-- The divider code that a cluster's state asks for: its row's, or level 0's under a late ceiling update or without a
majority (R120, R256, R263). -/
def State.cluDiv (s : State) (c : Nat) : Nat :=
  let x := s.getClu c
  if x.cpLate.isSome || s.sns.noMaj then (x.row 0).div else (x.row x.level).div

/-- The divider code a domain is to have: the slowest of its clusters, raised by a drift derate of the dividers (R100). -/
def State.domReq (s : State) (d : Nat) : Nat :=
  min 63 (((s.domClusters d).foldl (fun m c => max m (s.cluDiv c)) 0) + b2n s.clk.ref.derateDiv)

/-- The divider request of a domain after the limit gate (R109). -/
def State.domDiv (s : State) (d : Nat) : Nat := gateDiv s d (s.domReq d)

/-- R309: a row's voltage request with the cluster's trim, not below Vmin of its rails. -/
def State.rowV (s : State) (c : Nat) : Nat :=
  let x := s.getClu c
  let vmin := (maskIdx 8 (s.cluCfg c).rails).foldl (fun m r => max m (s.railCfg r).vmin) 0
  max ((x.row x.level).v - (s.getTrsCl c).trim / 250) vmin

/-- The rails of a cluster have reached a setpoint that serves a request `v` (R110). -/
def State.railsAt (s : State) (c v : Nat) : Bool :=
  (maskIdx 8 (s.cluCfg c).rails).all fun r => (s.getReg r).reached && decide (min v (s.vmax r) ≤ (s.getReg r).target)

/-- A running cluster's voltage request (R110): a higher one at once, a lower one when the divider it goes with is
applied. A forced start or fallback setpoint of its rails ends (R150); that of set 7 ends when the loops have raised a cluster
of the rail (R120; log entry 79). -/
def mapVoltage (c : Nat) (s : State) : State :=
  let x := s.getClu c
  if x.st ≠ 1 then s
  else
    let v := s.rowV c
    let d := (s.cluCfg c).dom
    let y := s.getDom d
    let s1 := if x.vreq ≤ v ∨ (y.sent = none ∧ s.domDiv d ≤ min y.cur y.tgt) then s.updClu c fun z => { z with vreq := v } else s
    forList (maskIdx 8 (s.cluCfg c).rails) (fun r t =>
      let low := (t.railClusters r).all fun k => decide ((t.getClu k).level = 0)
      retarget r (if t.sns.noMaj || t.sns.set7Wait || (t.getProt r).st ≠ 3 || ((t.getReg r).set7 && low) then t
                  else t.updReg r fun z => { z with forced := none, set7 := false })) s1

/-- R110: the divider of a domain: a larger code at once, a smaller one when its clusters' rails have reached the
higher setpoint. Under a root change both are decided against D_tgt, which is what then changes (R106). -/
def mapDiv (d : Nat) (s : State) : State :=
  let want := s.domDiv d
  let code := (s.getDom d).base s.guarded
  if (s.domClusters d).all fun c => decide ((s.getClu c).st = 0) then s
  else if want < code && !(s.domClusters d).all fun c => s.railsAt c (s.rowV c) then
    s.updDom d fun x => { x with raiseWait := true }
  else (sendDiv d (s.domReq d) s).updDom d fun x => { x with raiseWait := false }

/-- R256: the ceiling and the reported row of a cluster after its divider is decided. -/
def mapCeil (c : Nat) (s : State) : State :=
  let x := s.getClu c
  if x.st = 0 then s
  else
    let d := (s.cluCfg c).dom
    let code := (s.getDom d).code
    let pend := decide (s.domDiv d < code)
    let lvl := if pend then ((List.range 256).filter fun l => (x.row l).div = code).foldl max 0 else x.level
    let row := x.row x.level
    let clamp := (maskIdx 8 (s.cluCfg c).rails).any fun r => decide (s.vmax r < x.vreq)
    s.updClu c fun y =>
      { y with dpend := pend, ceil := (y.row lvl).ceil, div := code, gated := decide (row.div < s.dminCode d) || clamp,
               stepDown := y.stepDown && decide ((y.row lvl).ceil ≤ y.ceil) }

/-- The SELECT result takes effect at the commit, under the authorities above the loops; a cluster in HOLD is lowered by
its fallback limiter (R242, R260, R261). -/
def applyLevel (c : Nat) (s : State) : State :=
  let x := s.getClu c
  let fb := 256 * (s.cluCfg c).fbLevel
  if x.st = 1 then
    match x.next with
    | none => s
    | some (a, w, wl, sl) =>
      let cap := s.capped c && decide (fb < a)
      s.updClu c fun y =>
        { y with a := if cap then fb else a, w := w, wloop := wl, slopeAct := sl, next := none,
                 stepDown := y.stepDown || cap }
  else if x.st = 2 then
    let t := min x.a fb / 256 * 256
    let cap := s.capped c && decide (t < x.a)
    let a := if cap then t else if t < x.a then slopeLimit s c x.a t else x.a
    s.updClu c fun y =>
      { y with a := a, w := t, wloop := 7, slopeAct := a ≠ t, next := none, stepDown := y.stepDown || cap }
  else s.updClu c fun y => { y with next := none, wloop := 7, w := 0, slopeAct := false }

/-- R256: map every cluster's row to the actuators through the limit gate. -/
def mapAll (s : State) : State :=
  let s1 := forList s.clusters applyLevel s
  let s2 := forList s1.clusters mapVoltage s1
  let s3 := forList (s2.doms.filter fun d => (s2.domCfg d).clValid && !(s2.getDom d).stopped) mapDiv s2
  forList s3.clusters mapCeil s3

/-- The mean `ACT` of the frame's updates and the fraction with `LIM` (R238). -/
def actFrame (c : Nat) (s : State) : State :=
  let x := s.getClu c
  if x.actN = 0 then s.updClu c fun y => { y with actHist := (y.actMean :: y.actHist).take 16 }
  else
    let m := divRoundN x.actSum x.actN
    s.updClu c fun y =>
      { y with actMean := m, limFrac := min 255 (divRoundN (256 * y.limSum) y.actN), actSum := 0, limSum := 0, actN := 0,
               actHist := (m :: y.actHist).take 16 }

/-- R238: the weights of a rail's clusters, with a common denominator. -/
def State.appWeights (s : State) (r : Nat) : List (Nat × Nat) :=
  let cs := s.railClusters r
  let ceil := fun c => max 1 ((s.getClu c).row (s.getClu c).level).ceil
  let den := cs.foldl (fun p c => p * ceil c) 1
  let ws := cs.map fun c =>
    let x := s.getClu c
    let row := x.row x.level
    (c, row.iest * min x.actMean row.ceil * (den / ceil c))
  if sumN (ws.map Prod.snd) = 0 then cs.map fun c => (c, 1) else ws

/-- R238: apportion the rails' frame means to the clusters. -/
def apportion (s : State) : State :=
  let zero := forList s.clusters (fun c => State.updClu c fun x => { x with iApp := 0, pApp := 0, iParts := [] }) s
  let s1 := forList (List.range 8) (fun r t =>
    let ws := s.appWeights r
    let tot := sumN (ws.map Prod.snd)
    let m := s.getMeas r
    forList ws (fun e => State.updClu e.1 fun x =>
      let i := divRoundN (m.telI * e.2) tot
      { x with iApp := satU 16 (x.iApp + i), pApp := satU 16 (x.pApp + divRoundN (m.telP * e.2) tot),
               iParts := Tbl.set 0 x.iParts r i }) t) zero
  forList s.clusters (fun c => State.updClu c fun x => { x with curHist := (x.iApp :: x.curHist).take 8 }) s1

/-- R166: the frame means of a rail. -/
def railFrame (r : Nat) (s : State) : State :=
  (s.updReg r fun x => { x with deLast := x.deFired, deFired := false }).updMeas r fun m =>
    { m with telMean := if m.vN = 0 then m.telMean else divRoundN m.vSum m.vN, telLow := m.vMin.getD m.telLow
             telI := if m.iN = 0 then m.telI else divRoundN m.iSum m.iN
             telP := if m.iN = 0 then m.telP else divRoundN m.pSum m.iN
             vSum := 0, vN := 0, vMin := none, iSum := 0, pSum := 0, iN := 0 }

/-- R306: the reason a limiting loop 0 contributes. -/
def State.reason0 (s : State) (c : Nat) : Nat :=
  let x := s.getTrsCl c
  let short := decide (s.share c < x.dem)
  if (s.cluCores c).any fun k => (s.getCore k).lent.isSome then 7
  else if x.preempt then 11
  else if short && decide (0 < s.lOut) then 7
  else 0

/-- R258, R306: the reasons of a cluster at a commit, as the mask of Table 11.2. -/
def State.reasonMask (s : State) (c : Nat) : Nat :=
  let x := s.getClu c
  let d := (s.cluCfg c).dom
  let loops := if x.st = 1 ∧ x.level < 255 then
      ((List.range 6).filter fun j => (j = 5 || (s.loopCfg c j).present) && (s.getLp c j).limiting).map fun j =>
        if j = 5 then 6 else if !(s.getLp c j).auto then 6 else if j = 0 then s.reason0 c else j
    else []
  let guard := match s.clk.root.change with
    | some ch => if (s.getDom d).guard ≠ 0 ∧ (s.getDom d).tgt < (s.getDom d).guard then some ch.cause else none
    | none => none
  let drift := s.clk.ref.drift || s.clk.ref.derateReq || s.clk.ref.derateRoot || s.clk.ref.derateDiv || guard = some 1
  let hard := (s.getBack c).active || x.cpLate.isSome || x.overload || s.sns.noMaj || (s.getDom d).failed || x.gated ||
    (match guard with | some g => decide (g ≠ 1) | none => false)
  maskOf (loops ++ (if x.st = 1 ∧ x.slopeAct then [5] else []) ++ (if drift then [8] else []) ++
    (if hard then [9] else []) ++ (if x.tripPend.isSome then [10] else []))

/-- R307: the durations and onsets of a cluster's reasons. -/
def reasonFrame (c : Nat) (s : State) : State :=
  let m := s.reasonMask c
  let f := s.frameNs
  s.updTrsCl c fun x =>
    let bs := maskIdx 12 m
    { x with reasons := m, rsnT := bs.foldl (fun t b => Tbl.upd 0 t b (· + f)) x.rsnT
             rsnOn := (bs.filter fun b => !bitOf x.reasons b).foldl (fun t b => Tbl.set (0, false) t b (s.now, s.tb.hold)) x.rsnOn }

/-- R305: a latency context below its floor. -/
def breachFrame (t : Nat) (s : State) : State :=
  let x := s.getTx t
  let cs := if x.cls = 0 then s.clusters.filter fun c => decide (0 < s.coresOn t c) && decide ((s.getClu c).level < x.floor) else []
  let s1 := s.updTx t fun y => { y with breach := maskOf cs, flt := if cs = [] then y.flt else y.flt + s.frameNs }
  forList (cs.filter fun c => !bitOf x.breach c) (fun c u =>
    emitTrs 0x6032 t c (u.getClu c).level (((maskIdx 12 (u.getTrsCl c).reasons).head?).getD 12) u) s1

/-- Enter an accepted write of a locked register (R247). -/
def loopWrite (c j off v : Nat) (s : State) : State :=
  let n := v
  let s1 := match off with
    | 0x010 => s.updClu c fun x => { x with up := bits n 0 8, dn := bits n 8 8 }
    | 0x044 => s.updLp c j fun l => { l with limProg := bits n 0 7, obsProg := bits n 7 7 }
    | 0x058 => s.updLp c j fun l => { l with man := bits n 0 8 }
    | 0x05C => s.updLp c j fun l => { l with ki := bits n 0 16, kim := bits n 16 16 }
    | 0x060 => s.updLp c j fun l => { l with rth := bits n 0 16, n := bits n 16 8, nret := bits n 24 8 }
    | 0x064 => s.updLp c j fun l => { l with tsat := bits n 0 16, satFb := bitOf n 16 }
    | 0x068 => s.updLp c j fun l => { l with margin := bits n 0 16, mofs := if j = 3 then decS 16 (bits n 16 16) else l.mofs }
    | _ => s
  emitTeller c 0x5013 c j off 0 s1

/-- R246: a mode change takes effect at the frame boundary. -/
def modeApply (c : Nat) (m : ModeChange) (s : State) : State :=
  let l := s.getLp c m.loop
  if l.auto = m.auto then s
  else
    let man := if m.auto then l.man else if m.useMan then m.man else l.out / 256
    let s1 := s.updLp c m.loop fun y =>
      { y with auto := m.auto, man := man, firstAuto := m.auto, reform := true, satSince := none, satFlag := false }
    let s2 := emitTeller c 0x5011 c m.loop (b2n m.auto) man s1
    if m.auto && !(s2.inManual c) then
      let s3 := forList (maskIdx 8 (s2.cluCfg c).rails) (fun r t =>
        retarget r (t.updReg r fun x => { x with host := none })) s2
      if s3.clk.root.nCur ≠ s3.bootN ∧ !s3.clk.ref.derateReq then rootRequest s3.bootN 0 s3 else s3
    else s2

/-- R249–R251, R493: at a frame boundary every loop is judged by what the last frame committed. In the hold of a live update,
whose frames run no LIMIT and no OBSERVER slot (R89), and before a slot table is in force nothing is judged (log entry 93). -/
def superviseAll (s : State) : State :=
  if s.inHold || s.frm.table.isNone then s
  else forList s.clusters (fun c => forList (List.range 5) (supervise c)) s

/-- The writes, tables and modes that wait for the frame boundary (R246, R247, R264), and then the supervision of the loops. -/
def loopBoundary (s : State) : State := superviseAll <|
  let s1 := forList s.loop.writes (fun w => loopWrite w.1 w.2.1 w.2.2.1 w.2.2.2) (s.onLoop fun x => { x with writes := [] })
  forList s1.clusters (fun c t =>
    let x := t.getClu c
    let t1 := match x.vftNext with
      | some v => (t.updClu c fun y => { y with vft := v, vftNext := none }) |> emitClerk 0x5012 c 1 0 0
      | none => t
    forList x.modes (modeApply c) (t1.updClu c fun y => { y with modes := [] })) s1

/-- Where a write of a loop register lands (R247): loop 5 has no locked register, and a selection without a loop of the
cluster is absent. -/
def loopTarget (s : State) : Option Nat :=
  let c := s.loop.clSel
  let j := s.loop.sel
  if j = 5 then (if (s.cluCfg c).present then some 0x5002 else some 0x5004)
  else if (s.cluCfg c).present && (s.loopCfg c j).present && decide (j < 5) then none
  else some 0x5004

/-- Leave a status in `LOOP_RES`. -/
def loopRes (st : Nat) (s : State) : State := s.onLoop fun x => { x with res := st }

end Sys2Proof.Machine
end

