-- ==== Sys2Proof/Machine/Regulate.lean ====
section
/-!
DEFINITION. Measurement and regulation of the rails: conversions, compensator, modulation, sharing, light load, fast
path, feed-forward, input voltage (chapters 05 and 06).
-/
namespace Sys2Proof.Machine

/-- The rail modulates: RAMP_UP, ON or RAMP_DOWN. -/
def State.regulating (s : State) (r : Nat) : Bool :=
  (s.getProt r).st = 2 || (s.getProt r).st = 3 || (s.getProt r).st = 4

/-- R132: the calibrated rail voltage in 0.25 mV. -/
def railVolt (code : Nat) (gPpm oUv : Int) : Nat :=
  satU 16 (max 0 (divRound ((code : Int) * 100 * (1000000 + gPpm) + oUv * 1000000) 250000000)).toNat

/-- Diode emulation is armed on a rail (R156, R174, Table 7.1): also while the root is held for a loss or PLL_FAIL, until it
has locked again (R115). -/
def State.deArmed (s : State) (r : Nat) : Bool :=
  (s.getReg r).shed.deEn || s.clk.root.held || (s.getProt r).st = 2 || (s.getProt r).st = 4

/-- Add shed phases of a rail up to `want` active ones, coolest first, as JOINING (R157 rule 1, R158). -/
def addPhases (r want : Nat) (s : State) : State :=
  let step := fun (t : State) (_ : Nat) =>
    if want ≤ (t.activePhases r).length then t
    else match argMin (fun p => (t.getPh p).temp) ((t.railPhases r).filter fun p => (t.getPh p).st = 4) with
      | none => t
      | some p => t.updPh p fun x => { x.noTrim with st := 3, joinAt := none }
  (List.range 96).foldl step s

/-- Ceiling division. -/
def ceilDiv (a b : Nat) : Nat := if b = 0 then 0 else (a + b - 1) / b

/-- I_m: the rail current averaged over the last 2 µs (R157). -/
def State.iMean (s : State) (r : Nat) : Nat := meanN (s.getMeas r).iLast

/-- The phases a rail's demand asks for (R157 rule 1); every usable phase while shedding is disabled. -/
def wantPhases (s : State) (r : Nat) : Nat :=
  let x := (s.getReg r).shed
  if !x.shedEn then 128
  else max x.nmin (max (ceilDiv (s.iMean r) x.iAdd) (ceilDiv (s.getMeas r).iFc x.iAdd))

/-- R157: add phases at once, and follow how long the removal condition has held. -/
def shedUpdate (r : Nat) (s : State) : State :=
  let s1 := if (s.getProt r).st = 3 then addPhases r (wantPhases s r) s else s
  let x := (s1.getReg r).shed
  let m := (s1.activePhases r).length
  let low := x.shedEn && decide (max (s1.iMean r) (s1.getMeas r).iFc < (m - 1) * x.iOpt)
  s1.updMeas r fun y => { y with removeSince := if low then some (y.removeSince.getD s.now) else none }

/-- R160: what the undershoot path does to an active phase of a rail: diode emulation ends for the period, and a phase in its
off-time that the short-circuit comparator has not turned off gets an on-time of 100 ns, up to 500 ns since the path's entry. -/
def nlPulse (now : Nat) (entry : Bool) (x : Phase) : Phase :=
  let y := { x with deEnd := true, nlOn := if entry then 0 else x.nlOn }
  if y.st = 2 && !y.pwm && !y.scOff && decide (y.nlOn + 100 ≤ 500) then
    { y with pen := true, pwm := true, riseAt := some now, fallAt := now + 100, nlOn := y.nlOn + 100 }
  else y

/-- R160, R161: the fast path acts on one conversion of a regulating rail. -/
def fastPath (r v : Nat) (s : State) : State :=
  let x := s.getReg r
  let e := s.veff r
  let vm : Int := v
  if !s.regulating r then s
  else if vm < e - x.act.vnlu then
    let s0 := if x.brake.isSome then brakeStop r s else s
    let s1 := addPhases r 128 s0
    let s2 := forList (s1.activePhases r) (fun p => State.updPh p (nlPulse s.now !x.nlLo)) s1
    let s3 := s2.updReg r fun y => { y with nlLo := true, nlHi := false, nlLast := if x.nlLo then y.nlLast else some s.now }
    if x.nlLo then s3
    else
      let s4 := s3.updMeas r fun y => { y with nlCnt := satInc 16 y.nlCnt }
      if due s.now nsPerS x.nlLast then emitRail 0x3811 r v 0 0 s4 else s4
  else
    let s1 := s.updReg r fun y => { y with nlLo := false, nlHi := decide (e + x.act.vnlo < vm) }
    match x.brake with
    | some _ =>
      let s2 := s1.updReg r fun y => { y with brakePeak := max y.brakePeak v }
      if 2 * vm < 2 * e + x.act.vnlo then brakeStop r s2 else s2
    | none =>
      if e + x.act.vbrk < vm && due s.now (10 * nsPerUs) x.brakeEnd then
        let s2 := railPenLow r s1
        let s3 := s2.updReg r fun y => { y with brake := some s.now, brakePeak := v, brakeRec := due s.now nsPerS y.brakeEnd }
        s3.updMeas r fun y => { y with brkCnt := satInc 16 y.brkCnt }
      else if e + x.act.vnlo < vm then
        forList (s1.activePhases r) (fun p => State.updPh p fun y =>
          { y with pwm := false, fallAt := if y.pwm then s.now else y.fallAt }) s1
      else s1

/-- An Audit test of the rail's voltage ADC is running: it takes 1 conversion in 8 (Table 17.3). -/
def State.adcTested (s : State) (r : Nat) : Bool := s.aud.test.any fun t => t.kind = 2 && t.idx = r

/-- R132, R133, R152, R160, R161: a rail voltage conversion completes. A calibration slot repeats the previous sample
and renews the background calibration with free values inside the ranges of Table 5.4. A conversion that an Audit test takes
repeats the previous sample too. -/
def railVConv (r code : Nat) (cal : Bool) (s : State) : State :=
  if !(s.railCfg r).present then s
  else if cal then
    let g : Int := (s.freeVal 16 % 40001 : Nat) - 20000
    let o : Int := ((s.drawn.freeVal 16) % 10001 : Nat) - 5000
    (s.drawn.drawn.updMeas r fun m => { m with gPpm := g, oUv := o, cal := true, vLast := (m.v :: m.vLast).take 8 })
  else if s.adcTested r && decide (7 ≤ (s.getMeas r).audN) then
    s.updMeas r fun m => { m with audN := 0, cal := true, vLast := (m.v :: m.vLast).take 8 }
  else
    let m0 := s.getMeas r
    let v := railVolt code m0.gPpm m0.oUv
    let hi := decide (code = 0x3FFF)
    let lo := decide (code = 0)
    let s1 := s.updMeas r fun m =>
      { m with audN := if s.adcTested r then m.audN + 1 else 0, code := code, v := v, cal := false, ovrHi := hi, ovrLo := lo, vLast := (v :: m.vLast).take 8,
               ovrCnt := if hi || lo then wrapInc 32 m.ovrCnt else m.ovrCnt,
               vSum := m.vSum + v, vN := m.vN + 1, vMin := some (match m.vMin with | some w => min w v | none => v) }
    let s2 :=
      if (hi || lo) && due s.now nsPerMs m0.ovrRec then
        emitSns 0x2012 r code 0 0 (s1.updMeas r fun m => { m with ovrRec := some s.now })
      else s1
    let s3 := if s2.regulating r then s2.updReg r fun x => { x with reached := s2.isReached r } else s2
    fastPath r v s3

def execRailVConversion (r : RailId) (code : Fin 16384) (cal : Bool) (s : State) : Res :=
  act (railVConv r.val code.val cal) s

/-- R161: T_BRK after the brake began. -/
def brakeTimeout (r : Nat) (s : State) : State :=
  let x := s.getReg r
  match x.brake with
  | some t => if t + 10 * x.act.tbrk ≤ s.now then brakeStop r s else s
  | none => s

def execBrakeTimeout (r : RailId) (s : State) : Res := act (brakeTimeout r.val) s

/-- R144, R145: one compensator update. e is in units of 0.125 mV, u in 2^−24 of duty; the clamped u is kept. -/
def compensate (r : Nat) (s : State) : State :=
  let x := s.getReg r
  let v := (s.getMeas r).vLast
  if !s.regulating r || decide (v.length < 2) then s
  else
    let e : Int := 2 * s.veff r - ((v.getD 0 0 + v.getD 1 0 : Nat) : Int)
    let num : Int := (x.act.b0 * e + x.act.b1 * x.e1 + x.act.b2 * x.e2) * 2 ^ 24
      - 8000 * (x.act.a1 * x.u1 + x.act.a2 * x.u2 + x.act.a3 * x.u3)
    let lim : Int := 256 * x.act.umax
    let u := max (-lim) (min lim (divRound num (8000 * 2 ^ 24)))
    s.updReg r fun y => { y with e1 := e, e2 := x.e1, u1 := u, u2 := x.u1, u3 := x.u2 }

def execCompensatorUpdate (r : RailId) (s : State) : Res := act (compensate r.val) s

/-- V0_p in 1/16 of 0.375 mV: the last auto-zero in range, or the configured nominal (R135). -/
def State.zeroLevel (s : State) (p : Nat) : Int :=
  if (s.getPh p).v0Nom then divRound ((s.phCfg p).v0 * 1000 * 16 : Nat) 375 else (s.getPh p).v0

/-- R135: a phase current in 1/8 A, signed. -/
def phaseAmps (s : State) (p code : Nat) : Int :=
  let g := (s.phCfg p).gain
  if g = 0 then 0 else divRound (((16 * code : Nat) : Int) * 375 * 8 - s.zeroLevel p * 375 * 8) (16 * g)

/-- R134–R137, Table 5.3: a phase current conversion. While `PEN[p]` is low the rail consumers ignore it; the conversion of an
input without a phase takes its turn in the SAR's recovery. -/
def phaseIConv (p code : Nat) (newCap : Bool) (s : State) : State :=
  let g := s.phCfg p
  let sar := p / 8
  let rec_ := Tbl.get 0 s.sns.recover sar
  if !g.present then s.onSns fun n => { n with recover := Tbl.set 0 n.recover sar (rec_ - 1) }
  else
    let hi := decide (code = 0xFFF)
    let lo := decide (code = 0)
    let ov := hi || lo
    let nov := decide (0 < rec_)
    let rep := !newCap && decide ((s.railCfg g.rail).fsw < 20)
    let i := phaseAmps s p code
    let x0 := s.getPh p
    let consumers := x0.pen
    let s1 := s.updPh p fun x =>
      { x with code := code, i := satU 16 i.toNat, ovr := ov, novr := nov, neg := lo || decide (i < 0), rep := rep,
               clean := if ov || nov || rep || !consumers then x.clean else i,
               meter := if !consumers then x.meter
                        else if hi then i else if lo then 0 else if nov then x.clean else i,
               ovrCnt := if ov then satInc 16 x.ovrCnt else x.ovrCnt,
               novrCnt := if nov then satInc 16 x.novrCnt else x.novrCnt }
    let s2 := s1.onSns fun n => { n with recover := Tbl.set 0 n.recover sar (if ov then 2 else rec_ - 1) }
    if ov && due s.now nsPerMs x0.ovrRec then
      emitSns 0x2010 p code 0 0 (s2.updPh p fun x => { x with ovrRec := some s.now })
    else s2.updPh p fun x => { x with ovrRec := if ov then some s.now else x.ovrRec }

def execPhaseIConversion (p : PhaseId) (code : Fin 4096) (newCapture : Bool) (s : State) : Res :=
  act (phaseIConv p.val code.val newCapture) s

/-- R138: a stage temperature conversion; an overranged one keeps the previous value. -/
def stageTConv (p code : Nat) (s : State) : State :=
  let g := s.phCfg p
  if !g.present || decide ((s.getUnit (audIdx 2 (32 + p / 32))).st ≠ 0) then s
  else
    let ov := decide (code = 0xFFF) || decide (code = 0)
    let t : Int := if g.gt = 0 then 0 else divRound ((((code * 375 : Nat) : Int) - (g.v0t * 1000 : Nat)) * 64) g.gt
    let s1 := s.updPh p fun x => { x with tCode := code, tOvr := ov, temp := if ov then x.temp else satS 16 t }
    if ov && due s.now nsPerS (s.getPh p).tRec then
      emitSns 0x2013 p code 0 0 (s1.updPh p fun x => { x with tRec := some s.now })
    else s1

def execStageTConversion (p : PhaseId) (code : Fin 4096) (s : State) : Res := act (stageTConv p.val code.val) s

/-- R135: auto-zero from 16 captures with the stage off: at a start before identify, and every 1 s while shed. -/
def autoZero (p : Nat) (caps : List Nat) (s : State) : State :=
  let g := s.phCfg p
  if !g.present || (s.getPh p).pen || decide (caps.length ≠ 16) then s
  else
    let sum := caps.foldl (· + ·) 0
    -- deviation from the nominal V0 in µV, times 16
    let dev : Int := ((sum * 375 : Nat) : Int) - (16000 * g.v0 : Nat)
    let mv : Nat := (dev.natAbs + 15999) / 16000
    if dev.natAbs ≤ 30 * 16000 then s.updPh p fun x => { x with v0 := sum, v0Nom := false, azErr := mv }
    else (s.updPh p fun x => { x with v0Nom := true, azErr := mv }) |> emitSns 0x2011 p (divRoundN (sum * 375) 16000) 0 0

def execAutoZero (p : PhaseId) (captures : List (Fin 4096)) (s : State) : Res :=
  act (autoZero p.val (captures.map Fin.val)) s

/-- TRIM_MAX in 2^−19 of duty. -/
def trimLimit (x : CompRegs) : Int := ((x.trimMax * 2 ^ 19) / 1000 : Nat)

/-- R154: the trims of the active phases with a clean sample, less their mean; a trim at the limit is timed. A phase whose sample
carries `NOVR` is balanced on the input's previous clean one (Table 5.3). -/
def trimUpdate (r : Nat) (s : State) : State :=
  let x := s.getReg r
  let lim := trimLimit x.act
  let l := (s.railPhases r).filter fun p => (s.getPh p).st = 2
  let s1 := forList l (fun p => State.updPh p fun y =>
    if y.ovr || y.rep then y
    else { y with trim := max (-lim) (min lim (y.trim + x.act.kcb * ((y.itgt : Int) - y.clean))) }) s
  let mean := meanI (l.map fun p => (s1.getPh p).trim)
  forList l (fun p => State.updPh p fun y =>
    let t := y.trim - mean
    let at_ := decide (lim ≤ (s1.getPh p).trim) || decide ((s1.getPh p).trim ≤ -lim)
    { y with trim := t, trimSince := if at_ then some (y.trimSince.getD s.now) else none,
             trimRec := at_ && y.trimRec }) s1

/-- A length in edge units, in ns rounded up to the next (R147): a unit is 15/(4N) ns on the root and 5/128 ns on the holding
oscillator. -/
def unitsNs (s : State) (osc : Bool) (n : Nat) : Nat := if osc then ceilDiv (5 * n) 128 else ceilDiv (15 * n) (4 * s.clk.root.nCur)

/-- R158: how long a joining phase has run, and how long its 2 periods last, ns. -/
def joinRun (s : State) (x : Phase) : Nat × Nat :=
  (match x.joinAt with | some t => s.now - t | none => 0, unitsNs s x.osc (2 * x.per))

/-- R155: the target share of each active phase; a joining phase rises linearly to it over its 2 periods (R158). -/
def shareTargets (r : Nat) (s : State) : State :=
  let l := s.activePhases r
  let i := (s.getMeas r).iRail
  if l = [] then s
  else forList l (fun p => State.updPh p fun y =>
    let full := divRound ((i : Int) * (51200 + y.shift)) (51200 * l.length)
    let j := joinRun s y
    let t := if y.st = 3 then (if j.2 = 0 then 0 else divRound (full * (min j.1 j.2 : Nat)) j.2) else full
    { y with itgt := satU 16 t.toNat }) s

/-- R159: I_m has reached the current at the start of the pre-position plus 0.8 × ΔI. -/
def ppArrive (r : Nat) (s : State) : State :=
  let x := s.getReg r
  if x.ppArrived = none ∧ 0 < x.ppDi ∧ 8 * x.ppDi ≤ 10 * (s.iMean r - x.ppBase) then
    s.updReg r fun y => { y with ppArrived := some s.now }
  else s

/-- R154, R157, R159, R166, R187: every 500 ns the rail current and power, the trims and the phase count. -/
def shareUpdate (r : Nat) (s : State) : State :=
  if !(s.railCfg r).present then s
  else
    let act := s.activePhases r
    let iSum : Int := act.foldl (fun m p => m + (s.getPh p).meter) 0
    let i := satU 16 iSum.toNat
    let v := (s.getMeas r).v
    let pw := satU 16 (divRoundN (v * i) 4000)
    let s1 := s.updMeas r fun m =>
      let ms := (i :: m.iMs).take 2000
      { m with iRail := i, pRail := pw, iLast := (i :: m.iLast).take 4, iSum := m.iSum + i, pSum := m.pSum + pw,
               iN := m.iN + 1, iPk := max m.iPk i, pPk := max m.pPk pw, iMs := ms, iAvg := meanN ms }
    shedUpdate r (trimUpdate r (shareTargets r (ppArrive r s1)))

def execCurrentShareUpdate (r : RailId) (s : State) : Res := act (shareUpdate r.val) s

/-- R154: a trim has stayed at ±TRIM_MAX for 1 ms. -/
def trimLimitRec (p : Nat) (s : State) : State :=
  let x := s.getPh p
  match x.trimSince with
  | some t =>
    if t + nsPerMs ≤ s.now ∧ !x.trimRec then
      (s.updPh p fun y => { y with trimRec := true }) |> emitRail 0x3812 p x.i x.itgt 0
    else s
  | none => s

def execTrimLimit (p : PhaseId) (s : State) : Res := act (trimLimitRec p.val) s

/-- R155: share shifts from the stage temperatures at a complete rotation; 0.20 is 10,240 in the unit of `shift`. -/
def shareShift (r : Nat) (s : State) : State :=
  let x := (s.getReg r).shed
  let l := s.activePhases r
  let tm := meanI (l.map fun p => (s.getPh p).temp)
  let k := fun p => if x.tbEn then -(x.gtb : Int) * ((s.getPh p).temp - tm) else 0
  let kmax := l.foldl (fun m p => max m (k p).natAbs) 0
  let s1 := forList l (fun p => State.updPh p fun y =>
    { y with shift := if kmax ≤ 10240 then k p else divRound (k p * 10240) kmax }) s
  let s2 := s1.updMeas r fun m =>
    { m with shiftSince := if 10240 < kmax then some (m.shiftSince.getD s.now) else none }
  shareTargets r s2

def execShareShift (r : RailId) (s : State) : Res := act (shareShift r.val) s

/-- R155: a < 1 has held for 1 s; at most one record per 10 s and rail. -/
def shiftLimitRec (r : Nat) (s : State) : State :=
  let m := s.getMeas r
  match m.shiftSince with
  | some t =>
    if t + nsPerS ≤ s.now && due s.now (10 * nsPerS) m.shiftRec then
      let hot := argMin (fun p => -(s.getPh p).temp) (s.activePhases r)
      let p := hot.getD 0
      (s.updMeas r fun y => { y with shiftRec := some s.now }) |> emitRail 0x3813 r p (encS 16 (s.getPh p).temp) 0
    else s
  | none => s

def execShiftLimit (r : RailId) (s : State) : Res := act (shiftLimitRec r.val) s

/-- R147: the period P of a rail in edge units on the timebase in use. -/
def pwmPeriod (s : State) (r : Nat) (osc : Bool) : Nat :=
  let f := (s.railCfg r).fsw
  if f = 0 then 0 else if osc then 32 * divRoundN 8000 f else 32 * divRoundN (125 * s.clk.root.nCur) (3 * f)

/-- T_ON_MIN in edge units. -/
def tonMinUnits (s : State) (r : Nat) (osc : Bool) : Nat :=
  let t := (s.getReg r).act.tonMin
  if osc then divRoundN (t * 128) 5 else divRoundN (t * s.clk.root.nCur * 2) 15

/-- R146: the duty of a phase in 2^−24. -/
def phaseDuty (s : State) (r p : Nat) : Int :=
  let x := s.getReg r
  let vin := s.vin r
  let base : Int := if vin = 0 then 0 else divRound (s.veff r * 2 ^ 24) vin
  max 0 (min (256 * x.act.dmax) (base + x.u1 + 32 * (s.getPh p).trim))

/-- R149: the offset a phase moves towards, by its rank among the rail's active phases in interleave order. -/
def offsetGoal (s : State) (r p : Nat) (P : Nat) : Nat :=
  let l := s.activePhases r
  let k := (l.filter fun q => (s.phCfg q).pos < (s.phCfg p).pos).length
  if l.length = 0 then 0 else divRoundN (k * P) l.length

/-- Move a value towards a goal by at most `d`. -/
def moveBy (d v g : Nat) : Nat := if v < g then min g (v + d) else max g (v - d)

/-- R147, R149: the offset code of a phase at a period boundary: recomputed for a new timebase, then moved towards its goal by
at most P/8; a joining phase starts at its new offset (R158). -/
def nextOffset (x : Phase) (P goal : Nat) : Nat :=
  if x.st = 3 ∧ x.joinAt = none then goal
  else moveBy (P / 8) (if x.per = 0 ∨ x.per = P then x.offs else divRoundN (x.offs * P) x.per) goal

/-- R146–R149, R158: a switching period of a phase starts: timebase, offset, latched duty and outputs; the falling edge follows
after the on-time. A rail in CROWBAR keeps the low sides of its usable phases on (Tables 6.2, 7.1). -/
def pwmStart (p : Nat) (s : State) : State :=
  let r := (s.phCfg p).rail
  let x := s.getPh p
  if (s.phCfg p).present && decide ((s.getProt r).st = 6) && x.usable then
    s.updPh p fun y => { y with pen := true, pwm := false, scOff := false }
  else if !(s.phCfg p).present || !s.regulating r || !(decide (x.st = 2) || decide (x.st = 3)) then phOff p s
  else
    let osc := s.oscWanted
    let P := pwmPeriod s r osc
    let goal := offsetGoal s r p P
    let offs := nextOffset x P goal
    let ton0 := (divRound (phaseDuty s r p * P) (2 ^ 24)).toNat
    let tmin := tonMinUnits s r osc
    let braking := (s.getReg r).brake.isSome
    let skip := decide (ton0 < tmin) && s.deArmed r
    let on := !braking && !skip
    let ton := (if skip then 0 else max ton0 tmin) % 2 ^ 21
    let s1 := s.updPh p fun y =>
      { y with osc := osc, per := P, offs := offs % 2 ^ 21, ton := ton, pen := on, pwm := on, de := y.deNow, deNow := false,
               deEnd := false, nlOn := 0, scOff := false, riseAt := if on then some s.now else y.riseAt,
               fallAt := if on then s.now + unitsNs s osc ton else y.fallAt,
               joinAt := if y.st = 3 then some (y.joinAt.getD s.now) else none }
    rootAdvance s1

def execPwmPeriod (p : PhaseId) (s : State) : Res := act (pwmStart p.val) s

/-- R147: the on-times that have ended: the falling edges of `PWM` (log entry 80). -/
def pwmFall (s : State) : State :=
  forIdx 128 (fun t p => (t.getPh p).pwm && decide ((t.getPh p).fallAt ≤ t.now))
    (fun p => State.updPh p fun x => { x with pwm := false }) s

/-- R156: the zero-current comparator fires during an off-time; it is blanked for 20 ns after the low side turns on, and after
an undershoot for the rest of the period (R160). -/
def zeroCross (p : Nat) (s : State) : State :=
  let r := (s.phCfg p).rail
  let x := s.getPh p
  if s.deArmed r && s.regulating r && x.pen && !x.pwm && !x.deEnd && decide (x.fallAt + 20 ≤ s.now) then
    (s.updPh p fun y => { y with pen := false, deNow := true }).updReg r fun y => { y with deFired := true }
  else s

def execZeroCrossing (p : PhaseId) (s : State) : Res := act (zeroCross p.val) s

/-- R157 rule 2: after T_SHED the hottest phase is removed, one per switching period. -/
def phaseRemove (r : Nat) (s : State) : State :=
  let x := (s.getReg r).shed
  let l := s.activePhases r
  match (s.getMeas r).removeSince with
  | some t =>
    if t + 2000 * x.thold ≤ s.now ∧ x.nmin < l.length ∧ (s.getProt r).st = 3
        ∧ due s.now (ceilDiv 10000 (s.railCfg r).fsw) (s.getReg r).lastRemove then
      match argMin (fun p => -(s.getPh p).temp) l with
      | some p => shedUpdate r ((s.updPh p fun y => { y with st := 4, pen := false, pwm := false, joinAt := none }).updReg r
          fun y => { y with lastRemove := some s.now })
      | none => s
    else s
  | none => s

def execPhaseRemove (r : RailId) (s : State) : Res := act (phaseRemove r.val) s

/-- R158: a joining phase has run its 2 periods and is active. -/
def joinDone (p : Nat) (s : State) : State :=
  let j := joinRun s (s.getPh p)
  if (s.getPh p).st = 3 ∧ (s.getPh p).joinAt ≠ none ∧ j.2 ≤ j.1 then shareTargets (s.phCfg p).rail (s.updPh p fun x => { x with st := 2 })
  else s

def execJoinComplete (p : PhaseId) (s : State) : Res := act (joinDone p.val) s

/-- R159: a forecast delivery to a rail: the predicted currents at 4, 8 and 16 µs that are eligible. A larger ΔI raises V_pp, a
smaller one acts only after arrival. -/
def ppDeliver (r : Nat) (i4 i8 i16 : Option Nat) (s : State) : State :=
  let x := s.getReg r
  let im := s.iMean r
  let d := max ((i4.getD 0) - im) ((i8.getD 0) - im)
  let v := min (divRoundN (x.act.rpp * d) 2000) x.act.vppMax
  let s1 := s.updMeas r fun m => { m with iFc := max (i4.getD 0) (max (i8.getD 0) (i16.getD 0)) }
  let s2 := s1.updReg r fun y =>
    let z := if d = 0 ∧ y.ppArrived = none then y.ppZero + 1 else 0
    if d = 0 then
      { y with lastFc := some s.now, di := 0, ppZero := z, vppTgt := if 2 ≤ z then 0 else y.vppTgt }
    else if y.ppDi < d ∨ y.ppArrived.isSome then
      { y with lastFc := some s.now, di := d, ppZero := 0, vppTgt := v, ppDi := d, ppBase := im, ppArrived := none }
    else { y with lastFc := some s.now, di := d, ppZero := 0 }
  shedUpdate r s2

/-- R159: V_pp returns to 0: 4 µs after arrival, after two deliveries with ΔI = 0, or 4 µs without a delivery. -/
def vppDown (r : Nat) (s : State) : State :=
  let y := s.getReg r
  let held := match y.ppArrived with | some t => decide (t + 4 * nsPerUs ≤ s.now) | none => false
  let silent := match y.lastFc with | some t => decide (t + 4 * nsPerUs ≤ s.now) | none => true
  if held || silent || decide (2 ≤ y.ppZero) then
    s.updReg r fun z => { z with vppTgt := 0, ppDi := 0, ppArrived := none, ppZero := 0 }
  else s

def execVppRampDown (r : RailId) (s : State) : Res := act (vppDown r.val) s

/-- R173: where V_ref of a rail goes now; `trk` is V_TRK, used by mode 4. A rail that entered RAMP_UP with its master follows the
master's V_ref for as long as it is in RAMP_UP. -/
def rampGoal (s : State) (r trk : Nat) : Nat :=
  let x := s.getReg r
  let g := s.railCfg r
  let y := s.getProt r
  if y.st ≠ 2 then x.target
  else
    let tracks := y.track
    match g.mode with
    | 2 => if tracks && decide ((s.getReg g.master).target ≠ 0)
           then divRoundN (x.target * (s.getReg g.master).vref) (s.getReg g.master).target else x.target
    | 3 => if tracks then min (s.getReg g.master).vref x.target else x.target
    | 4 => min (max trk y.vStart) x.target
    | _ => x.target

/-- R174: the slews of the rails that ramp in the group of `h`, each with the ratio a/b of its V_ref's speed to that of the
head. -/
def groupRates (s : State) : Nat → Nat → Nat → Nat → List (Nat × Nat × Nat)
  | 0, _, _, _ => []
  | n + 1, h, a, b =>
    let l := s.railIds.filter fun k => (s.railCfg k).master = h ∧ ((s.railCfg k).mode = 2 ∨ (s.railCfg k).mode = 3) ∧
      (s.getProt k).track ∧ (s.getProt k).st = 2
    l.flatMap fun k =>
      let a' := if (s.railCfg k).mode = 2 then a * (s.getReg k).target else a
      let b' := if (s.railCfg k).mode = 2 then b * (s.getReg h).target else b
      ((s.getReg k).slew, a', b') :: groupRates s n k a' b'

/-- R151, R174: the time since V_ref last moved allows another step: at the rail's own slew, and in RAMP_UP at the largest rate
at which no rail of its group moves faster than its slew (log entry 80). -/
def stepDue (s : State) (r : Nat) : Bool :=
  match (s.getReg r).stepAt with
  | none => true
  | some t =>
    (((s.getReg r).slew, 1, 1) :: (if (s.getProt r).st = 2 then groupRates s 8 r 1 1 else [])).all fun e =>
      decide (1000 * e.2.1 ≤ e.1 * e.2.2 * (s.now - t))

/-- R174: how low V_ref of a rail in RAMP_UP may go: a rail of mode 4 never below its start voltage, a tracking rail not below
it for its master's sake. -/
def rampFloor (s : State) (r : Nat) : Nat :=
  let y := s.getProt r
  if y.st ≠ 2 then 0
  else if (s.railCfg r).mode = 4 then y.vStart
  else if y.track then min y.vStart (s.getReg r).target
  else 0

/-- R151: V_ref moves one step of 0.25 mV towards its goal at the interval of the slew; V_pp moves with it at the same slew
(R159). -/
def vrefStep (r trk : Nat) (s : State) : State :=
  if !s.regulating r || !stepDue s r then s
  else
    let goal := rampGoal s r trk
    let lo := rampFloor s r
    let s1 := s.updReg r fun x =>
      { x with vref := if goal < x.vref then (if x.vref ≤ lo then x.vref else x.vref - 1) else moveBy 1 x.vref goal,
               vpp := moveBy 1 x.vpp x.vppTgt, stepAt := some s.now, reached := x.reached && decide (x.vref = goal) }
    if (s.getProt r).st = 4 ∧ (s1.getReg r).vref = 0 ∧ (s.getProt r).zeroAt = none then
      s1.updProt r fun x => { x with zeroAt := some s.now }
    else s1

def execVrefStep (r : RailId) (trk : Fin 65536) (s : State) : Res := act (vrefStep r.val trk.val) s

/-- LINEAR11 in 0.25 mV: an 11-bit signed mantissa and a 5-bit signed exponent. -/
def linear11 (w : Nat) : Int :=
  let y := decS 11 w
  let n := decS 5 (w / 2048)
  if 0 ≤ n then y * 2 ^ n.toNat * 4000 else divRound (y * 4000) (2 ^ (-n).toNat)

/-- Table 2.18: the block drives the PMBus pins: not after a VANA loss, and not in a warm reset or a handoff until firmware
runs. -/
def State.pmUp (s : State) : Bool :=
  !s.pwr.vanaLoss && !s.fw.handoff && (s.fw.run || s.fw.recovery || decide (s.pwr.cause ≤ 1))

/-- R164: a `READ_VIN`: accepted within ±20 % of nominal, otherwise discarded with VIN_RANGE. -/
def vinRead (r w : Nat) (s : State) : State :=
  let g := s.railCfg r
  let v := linear11 w
  let m := s.getMeas r
  let last := satU 16 v.toNat
  if !g.present || !s.pmUp then s
  else if (80 * g.vinNom : Nat) ≤ 100 * v ∧ 100 * v ≤ (120 * g.vinNom : Nat) then
    s.updMeas r fun y =>
      let l := (last :: y.vins).take 4
      { y with vins := l, vinLast := last, vinAccept := s.now, vinStale := false, vinNom := decide (l.length < 4) }
  else
    let s1 := s.updMeas r fun y => { y with vinLast := last, vinRangeRec := some s.now }
    if due s.now nsPerS m.vinRangeRec then emitRail 0x3820 r last 0 0 s1 else s1

def execVinRead (r : RailId) (word : Fin 65536) (s : State) : Res := act (vinRead r.val word.val) s

/-- R164: no reading accepted for 100 ms: nominal V_in until the next accepted one, recorded on entry. -/
def vinStale (r : Nat) (s : State) : State :=
  let m := s.getMeas r
  if (s.railCfg r).present && !m.vinStale && decide (m.vinAccept + 100 * nsPerMs ≤ s.now) then
    (s.updMeas r fun y => { y with vinNom := true, vinStale := true }) |> emitRail 0x3821 r 0 0 0
  else s

def execVinStale (r : RailId) (s : State) : Res := act (vinStale r.val) s

/-- R60, R165: a PMBus alert has been serviced. -/
def pmbAlert (addr w : Nat) (s : State) : State :=
  if s.pmUp then (s.onRail fun x => { x with pmbWord := w, pmbAddr := addr }) |> emitRail 0x3824 addr w 0 0 else s

def execPmbAlert (addr : Fin 128) (word : Fin 65536) (s : State) : Res := act (pmbAlert addr.val word.val) s

/-- The configuration of a PMBus device; PEC is the default (R59). -/
def State.pmbDev (s : State) (addr : Nat) : PmbDev := (s.cfg.pmb.find? fun d => d.addr = addr).getD { addr := addr }

/-- R59: a clock stretch of more than 25 ms or a stuck `PM_SDA`: 9 clock pulses and a STOP, and the timeout recorded. -/
def pmbRecover (addr cmd : Nat) (s : State) : State :=
  s.onRail fun x =>
    { x with pmbTmo := satInc 16 x.pmbTmo, pmbTmoLast := some (addr, cmd, s.now), pmbRecov := satInc 16 x.pmbRecov }

/-- R59, R163: a transaction fails, by timeout, NACK or PEC error. It is retried once; a second failure writes PMB_TXN_FAIL. A
device that is not configured for PEC has no PEC errors. -/
def pmbTimeout (addr cmd cause : Nat) (retried : Bool) (s : State) : State :=
  if !s.pmUp || (decide (cause = 2) && !(s.pmbDev addr).pec) then s
  else
    let s1 := if cause = 0 then pmbRecover addr cmd s else s
    if retried then (s1.onRail fun x => { x with pmbFail := satInc 8 x.pmbFail }) |> emitRail 0x3823 addr cmd cause 0
    else s1

def execPmbusTimeout (addr : Fin 128) (cmd : Fin 256) (cause : Fin 3) (retried : Bool) (s : State) : Res :=
  act (pmbTimeout addr.val cmd.val cause.val retried) s

/-- Every cluster of a rail is in manual (R153). -/
def State.railManual (s : State) (r : Nat) : Bool := (s.railClusters r).all s.inManual

/-- Leave a status in `RAIL_RES`. -/
def railRes (st : Nat) (s : State) : State := s.onRail fun x => { x with res := st }

/-- R153: a host target; ownership is checked before the range. -/
def vreqGo (v : Nat) (s : State) : State :=
  let r := s.rail.sel
  let s1 := s.updReg r fun x => { x with vreq := v }
  if !s.railManual r then railRes 0x3804 s1
  else if v < (s.railCfg r).vmin ∨ s.vmax r < v then railRes 0x3803 s1
  else railRes 0 (retarget r (s1.updReg r fun x => { x with host := some v, forced := none }))

def execRailVreqGo (v : Fin 65536) (s : State) : Res := hsEmu (vreqGo v.val) s

/-- R151: a slew, clamped to 4 … SLEW_MAX with SLEW_CLAMP. -/
def slewWrite (v : Nat) (s : State) : State :=
  let r := s.rail.sel
  let hi := s.fuse.slewMax.getD r 0
  let w := min hi (max 4 v)
  railRes (if w = v then 0 else 0x3802) (s.updReg r fun x => { x with slew := w })

def execRailSlewWrite (v : Fin 256) (s : State) : Res := hsEmu (slewWrite v.val) s

/-- `RAIL_TEL_CTRL.CLR`: clear peaks and counts of the selected rail (R168). -/
def telClr (s : State) : State :=
  railRes 0 (s.updMeas s.rail.sel fun m => { m with iPk := 0, pPk := 0, brkCnt := 0, nlCnt := 0 })

def execRailTelClr (s : State) : Res := hsEmu telClr s

/-- R157: a write of `RAIL_SHED` or `RAIL_SHED_I`, discarded with PARAM_RANGE where a field is out of range; `TB_EN` = 0 sets
every share shift to 0 (R155). -/
def shedWrite (currents : Bool) (v : Nat) (s : State) : State :=
  let r := s.rail.sel
  let x := (s.getReg r).shed
  let y : ShedRegs :=
    if currents then { x with iOpt := bits v 0 16, iAdd := bits v 16 16 }
    else { x with nmin := bits v 0 7, shedEn := bitOf v 7, deEn := bitOf v 8, tbEn := bitOf v 9, gtb := bits v 16 8,
                  thold := bits v 24 8 }
  if y.nmin = 0 ∨ (s.railCfg r).nph < y.nmin ∨ (currents ∧ y.iAdd ≤ y.iOpt) ∨ (!currents ∧ y.thold = 0) then railRes 0x3806 s
  else
    let s1 := s.updReg r fun z => { z with shed := y }
    let s2 := if y.tbEn then s1 else
      shareTargets r ((forList (s1.railPhases r) (fun p => State.updPh p fun z => { z with shift := 0 }) s1).updMeas r
        fun m => { m with shiftSince := none })
    railRes 0 (shedUpdate r s2)

def execRailShedWrite (currents : Bool) (v : BitVec 32) (s : State) : Res :=
  hsEmu (shedWrite currents v.toNat) s

end Sys2Proof.Machine
end

