-- ==== Sys2Proof/Machine/FrameOps.lean ====
section
/-!
DEFINITION. Shared operations of frames and slots (R77–R89): which slots run, completion and misses, shedding, Tally's
runs, the inputs of a snapshot, and the deliveries of the forecaster.
-/
namespace Sys2Proof.Machine

/-- The slots of the table in force. -/
def State.slots (s : State) : List SlotEntry := s.frm.table.getD []

/-- Slot `k` of the table in force. -/
def State.slot (s : State) (k : Nat) : Option SlotEntry := s.slots[k]?

/-- Two slots have one executor; each cluster has its own Teller (Table 3.2). -/
def sameExec (a b : SlotEntry) : Bool := a.exec = b.exec && (a.exec ≠ 3 || a.cluster = b.cluster)

/-- The partner Teller of the configuration. -/
def State.partner (s : State) (t : Nat) : Nat := Tbl.get 0xFF s.cfg.partner t

/-- The Teller that runs the slots of cluster `c`: its own, or the partner of one that is out; a change acts from the next frame
boundary (R415, Table 17.3). -/
def State.tellerOf (s : State) (c : Nat) : Nat :=
  let x := s.getFwCore c
  if (x.st = 4 || x.st = 5) == decide (x.moveFrom ≤ s.frm.count) then s.partner c else c

/-- Teller `t` executes: it has not hung and is not restarting. A Teller that Audit takes out runs to the frame boundary. -/
def State.tellerUp (s : State) (t : Nat) : Bool :=
  let x := s.getFwCore t
  (x.st ≠ 3 && x.st ≠ 4 && x.st ≠ 5) ||
    (decide ((s.getUnit (audIdx 1 t)).st ≠ 0) && decide (s.frm.count < x.moveFrom))

/-- R415: the Teller slots of cluster `c` run now: the Teller that is to run them executes. -/
def State.tellerRuns (s : State) (c : Nat) : Bool := s.tellerUp (s.tellerOf c)

/-- Two slots run on one executor now (R80). -/
def sameCore (s : State) (a b : SlotEntry) : Bool :=
  a.exec = b.exec && (a.exec ≠ 3 || decide (s.tellerOf a.cluster = s.tellerOf b.cluster))

/-- R81, R225: slot `k` of a table runs in frame `n`: it is the j-th of its executor, class and period, and n mod P is
j mod P. -/
def slotRuns (tab : List SlotEntry) (n k : Nat) : Bool :=
  match tab[k]? with
  | none => false
  | some e =>
    let j := ((tab.take k).filter fun x => sameExec x e && x.cls = e.cls && x.period = e.period).length
    e.period ≠ 0 && decide (n % e.period = j % e.period)

/-- Table 3.3: classes not run at a shedding level. -/
def shedClass (level cls : Nat) : Bool :=
  (cls = 6 && decide (1 ≤ level)) || (cls = 5 && decide (2 ≤ level)) || (cls = 4 && decide (3 ≤ level))

/-- The classes that hold suspends. -/
def holdClass (cls : Nat) : Bool := cls = 0 || cls = 1 || cls = 4

/-- What slot `k` will do in the frame that begins. -/
def slotPlan (s : State) (k : Nat) : SlotRun :=
  match s.slot k with
  | none => .off
  | some e =>
    if !slotRuns s.slots s.frm.number k then .off
    else if s.inHold && holdClass e.cls then .off
    else if shedClass s.frm.level e.cls then .shed
    else .idle

/-- Plan the slots of the frame; a shed slot reports slack 0x8000_0001 (R86). -/
def planSlots (s : State) : State :=
  forList (List.range s.slots.length) (fun k => State.updRt k fun r =>
    let p := slotPlan s k
    { r with run := p, slack := if p = .shed then -0x7FFFFFFF else r.slack }) s

/-- Clusters that a LIMIT or SELECT slot serves (R85): those whose LIMIT program it runs, and the one it names. -/
def slotClus (s : State) (e : SlotEntry) : List Nat :=
  s.clusters.filter fun c => c = e.cluster ||
    (e.exec = 0 && e.cls = 0 && (List.range 5).any fun j => (s.loopCfg c j).present && (s.getLp c j).limProg = e.work)

/-- R85: the eighth consecutive miss of a LIMIT or SELECT slot caps its clusters. -/
def loopBackstop (k : Nat) (s : State) : State :=
  match s.slot k with
  | none => s
  | some e =>
    if e.cls ≤ 1 ∧ 8 ≤ (s.getRt k).runLen then
      forList ((slotClus s e).filter fun c => !(s.getBack c).active) (fun c t =>
        let t1 := forList (List.range t.slots.length) (fun i => State.updRt i fun r =>
          if (match t.slot i with | some x => x.cls ≤ 1 && (slotClus t x).contains c | none => false)
          then { r with good := 0 } else r) t
        capCluster c (t1.updBack c fun _ => { active := true, since := t.now }) |> emitCp 0x1805 c k 0 0) s
    else s

/-- R85: the backstop ends after 16 consecutive runs of every LIMIT and SELECT slot of the cluster. -/
def backstopEnd (c : Nat) (s : State) : State :=
  let b := s.getBack c
  let mine := (List.range s.slots.length).filter fun k =>
    match s.slot k with | some e => e.cls ≤ 1 && (slotClus s e).contains c | none => false
  if b.active && !mine.isEmpty && mine.all fun k => decide (16 ≤ (s.getRt k).good) then
    presetLoops c (s.updBack c fun _ => {}) |> emitCp 0x1806 c (s.now - b.since) 0 0
  else s

/-- The class, executor and cluster of a slot as `CLK_SLOT_DESC` [15:0]. -/
def slotDesc (e : SlotEntry) : Nat := e.exec + e.cls * 16 + e.cluster * 256

/-- R84: a slot misses: its output is held, the counts rise, and the first miss after a completed run is recorded. A slot that
has not run since its table was loaded counts as one that has completed (log entry 83). -/
def slotFail (k : Nat) (s : State) : State :=
  let r := s.getRt k
  let e := (s.slot k).getD { exec := 0, cls := 0, cluster := 0, work := 0, start := 0, deadline := 0, period := 0 }
  let s1 := (s.updRt k fun x =>
      { x with run := .missed, slack := -0x80000000, consec := satInc 8 x.consec, total := satInc 24 x.total,
               runLen := x.runLen + 1, good := 0 }).onFrm fun f => { f with missedThis := true, vitalMiss := f.vitalMiss || decide (e.cls ≤ 1) }
  if r.runLen = 0 then emitClk 0x1801 k (slotDesc e) s.tb.stepPs 0 s1 else s1

/-- R84: a slot whose deadline has passed without completion. -/
def slotMiss (k : Nat) (s : State) : State :=
  match s.slot k with
  | none => s
  | some e =>
    let r := (s.getRt k).run
    if s.frm.inFrame && (r = .idle || r = .running) && decide (s.frm.frameStart + e.deadline ≤ s.now) then slotFail k s
    else s

/-- R80: slot `k` may start: its offset has come, the executor is idle, and its earlier slots of the frame are over. -/
def slotMay (s : State) (k : Nat) : Bool :=
  match s.slot k with
  | none => false
  | some e =>
    s.frm.inFrame && (e.exec ≠ 3 || s.tellerRuns e.cluster) && (s.getRt k).run = .idle && decide (s.frm.frameStart + e.start ≤ s.now) &&
      decide (s.now < s.frm.frameStart + e.deadline) &&
      (List.range s.slots.length).all fun i => match s.slot i with
        | some x => !sameCore s x e ||
            ((s.getRt i).run ≠ .running && (decide (k ≤ i) || (s.getRt i).run ≠ .idle))
        | none => true

/-- R80: a slot starts. -/
def slotStart (k : Nat) (s : State) : State :=
  if slotMay s k then s.updRt k fun r => { r with run := .running, startedAt := s.now } else s

/-- The set frame that a binding of a program uses: the first half-slot of the set bound for its cluster (R229, R272). -/
def bindBase (s : State) (p b : Nat) : Option Nat :=
  match (s.fcClus.filter fun c => (s.fcCfg c).prog = p && (s.fcCfg c).bind = b).head? with
  | none => none
  | some c => match (s.getFcCl c).bound with
    | some k => if (s.getSet k).resident then some (s.frameBase (s.getSet k).frame) else none
    | none => none

/-- R213: count the saturations of a run; the first after 1 s without one is recorded. -/
def countSats (p : Nat) (l : List (Nat × Nat)) (s : State) : State :=
  match l with
  | [] => s
  | (kind, ins) :: _ =>
    let cnt := fun k => (l.filter fun e => e.1 = k).length
    let first := due s.now nsPerS (s.getProg p).satTime
    let s1 := (s.onTly fun t =>
        { t with satAcc := satU 32 (t.satAcc + cnt 0), satConv := satU 32 (t.satConv + cnt 1),
                 satRn := satU 32 (t.satRn + cnt 2) }).updProg p fun x =>
      { x with sat := satU 32 (x.sat + l.length), satTime := some s.now }
    if first then emitTly 0x4020 p kind ins 0 s1 else s1

/-- R217, R218: a run of program entry `p` completes: its outputs go to the working copies. -/
def tlyRunSlot (p : Nat) (s : State) : State :=
  let r := tlyRun { st := s.tly.st, coef := s.tly.coef, prog := s.getProg p, bind := bindBase s p, key := s.free }
  let s1 := s.drawn.onTly fun t =>
    { t with work := r.out.foldl (fun w e => match e.2 with | some b => Tbl.set {} w e.1 b | none => w) t.work,
             ran := t.ran ++ [p] }
  countSats p r.sats s1

/-- The program of a Tally slot can run: installed, of the slot's class and not marked failed (R223, R232). -/
def State.progOk (s : State) (p : Nat) : Bool := (s.getProg p).installed && !(s.getProg p).failed

/-- R83: a slot completes by its deadline: its work is done and its slack reported. -/
def slotDone (k : Nat) (e : SlotEntry) (s : State) : State :=
  let slack : Int := ((s.frm.frameStart + e.deadline : Nat) : Int) - s.now
  let r := s.getRt k
  let s1 := (s.updRt k fun x =>
      { x with run := .done, slack := slack, minSlack := min x.minSlack slack, consec := 0, runLen := 0, good := x.good + 1 }).onFrm
    fun f => { f with wslack := min f.wslack slack }
  let s2 := if r.runLen = 0 then s1 else emitClk 0x1802 k r.runLen (encS 32 slack) 0 s1
  if e.exec = 0 then tlyRunSlot e.work s2
  else if e.cls = 1 || (e.cls = 2 && !s2.fw.handoff) then s2.onFrm fun f => { f with done := f.done ++ [k] }
  else s2

/-- R78: the results of the SELECT and ALLOC slots that met their deadlines are passed on at the commit. -/
def commitSlot (k : Nat) (s : State) : State :=
  match s.slot k with
  | none => s
  | some e => if e.cls = 1 then selectStage e.cluster s else allocate s

/-- The results of every slot that waits for the commit. -/
def commitSlots (s : State) : State := forList s.frm.done commitSlot (s.onFrm fun f => { f with done := [] })

/-- R83: SLOT_COMPLETE: of a running slot whose program may run; a late completion is a miss. -/
def slotComplete (k : Nat) (s : State) : State :=
  match s.slot k with
  | none => s
  | some e =>
    if !s.frm.inFrame || (s.getRt k).run ≠ .running then s
    else if s.frm.frameStart + e.deadline < s.now then slotFail k s
    else if e.exec = 0 && !s.progOk e.work then slotFail k s
    else slotDone k e s

/-- R87: the number of frames required after a SHED to `level`: doubled where it raises the level back to that from which the
last RESTORE lowered it, within 1 s. -/
def Frames.shedReq (f : Frames) (level now : Nat) : Nat :=
  match f.lastRestore with
  | some (t, from_) => if level = from_ ∧ now ≤ t + nsPerS then min 1048576 (2 * f.required) else f.required
  | none => f.required

/-- R86: the level rises at a frame boundary once the count has reached 4. -/
def shedDue (s : State) : State :=
  let f := s.frm
  if f.inFrame || decide (f.consec < 4) then s
  else if 3 ≤ f.level then s.onFrm fun x => { x with consec := 0 }
  else
    (s.onFrm fun x =>
      { x with level := x.level + 1, consec := 0, shedCnt := satInc 16 x.shedCnt, clean := 0, lastShed := some s.now,
               required := f.shedReq (f.level + 1) s.now })
    |> emitClk 0x1803 (f.level + 1) 0 0 0

/-- Lower the level by one (R87, R88). -/
def restoreLevel (cause : Nat) (s : State) : State :=
  let f := s.frm
  (s.onFrm fun x => { x with level := x.level - 1, clean := 0, lastRestore := some (s.now, f.level) })
  |> emitClk 0x1804 (f.level - 1) cause f.clean 0

/-- R87: the level falls once the required number of clean, fitting frames has passed. -/
def restoreDue (s : State) : State :=
  let f := s.frm
  if !f.inFrame && decide (f.floor < f.level) && decide (f.required ≤ f.clean) then restoreLevel 0 s else s

/-- R88: what the host's writes of `CLK_FRM_CTRL` do at a frame boundary. -/
def hostShed (s : State) : State :=
  let f := s.frm
  let s1 := s.onFrm fun x => { x with hostRestore := false }
  if f.level < f.floor then
    (s1.onFrm fun x => { x with level := f.floor, shedCnt := satInc 16 x.shedCnt, lastShed := some s.now, clean := 0,
                                required := f.shedReq f.floor s.now })
    |> emitClk 0x1803 f.floor 1 0 0
  else if f.hostRestore && decide (f.floor < f.level) then restoreLevel 1 s1
  else s1

/-- R87: the required number of frames returns to 1,024 after 1 s without a SHED. -/
def requiredBack (s : State) : State :=
  if due s.now nsPerS s.frm.lastShed then s.onFrm fun x => { x with required := 1024 } else s

/-- Firmware instructions per ns are 1/4 on every core that runs slots (Table 16.1): the run time of a firmware slot. -/
def fwRunNs (s : State) (work : Nat) : Nat := 4 * Tbl.get 0 s.cfg.fwCost work

/-- R87: the projected run time of a slot, ps: a Tally slot's declared cost at the pace monitor's step time, the cost on 8 cubes
however many are active (log entry 84); a firmware slot's at its guaranteed rate. -/
def projPs (s : State) (e : SlotEntry) : Nat :=
  if e.exec = 0 then (s.getProg e.work).cost * s.tb.stepPs else 1000 * fwRunNs s e.work

/-- The executor that runs a slot, as a number: Tally 0, the Treasury core 1, the Clerk 2, the Tellers from 3. -/
def execKey (s : State) (e : SlotEntry) : Nat := if e.exec = 3 then 3 + s.tellerOf e.cluster else e.exec

/-- R87: every shed slot of the frame would have met its deadline at the measured pace; the fold keeps, by executor, when its
last slot ended, ps. -/
def shedFits (s : State) : Bool :=
  ((List.range s.slots.length).foldl (fun (a : Tbl Int × Bool) k =>
    match s.slot k with
    | none => a
    | some e =>
      let x := execKey s e
      let r := s.getRt k
      match r.run with
      | .done => (Tbl.set 0 a.1 x (1000 * ((e.deadline : Int) - r.slack)), a.2)
      | .missed => (Tbl.set 0 a.1 x (1000 * e.deadline : Nat), a.2)
      | .shed =>
        let t := max ((1000 * e.start : Nat) : Int) (Tbl.get 0 a.1 x) + (projPs s e : Int)
        (Tbl.set 0 a.1 x t, a.2 && decide (t ≤ ((1000 * e.deadline : Nat) : Int)))
      | _ => a) (([] : Tbl Int), true)).2

/-- R86, R87, R89: the counts of a frame that ends. -/
def frameCounts (s : State) : State :=
  let s1 := s.onFrm fun f => { f with missFrames := if f.missedThis then f.missFrames + 1 else f.missFrames }
  if s.frm.table.isNone || s.inHold then s1
  else s1.onFrm fun f =>
    { f with consec := if f.missedThis then satInc 8 f.consec else 0,
             clean := if f.missedThis || !shedFits s then 0 else f.clean + 1 }

/-- Active cubes. -/
def Tally.nact (t : Tally) : Nat := (t.cube.filter (· = 0)).length

/-- R224, R226: the frame limit in steps for `c` cubes. -/
def stepLimit (s : State) (c : Nat) : Nat := c * s.frameNs / 20

/-- R231: at a frame boundary the spare takes a failed cube's place, or Tally goes on with one cube fewer. -/
def cubeSwap (k : Nat) (s : State) : State :=
  match ((List.range 9).filter fun i => s.tly.cube.getD i 3 = 1).head? with
  | some j => (s.onTly fun t => { t with cube := t.cube.set j 0 }) |> emitTly 0x4031 k j 0 0
  | none =>
    let n := s.tly.nact
    if n = 7 then (s.onTly fun t => { t with limit := stepLimit s 7 }) |> emitTly 0x4032 k (stepLimit s 7) 0 0
    else if n ≤ 6 then setAlarm 7 (emitTly 0x4033 n 0 0 0 s)
    else s

/-- Every failed cube's place is filled at the boundary. -/
def cubeSwaps (s : State) : State := forList s.tly.swap cubeSwap (s.onTly fun t => { t with swap := [] })

/-- Table 17.3: a cube that Audit returned becomes active at the boundary while fewer than 8 are. -/
def cubeRejoin (k : Nat) (s : State) : State :=
  if s.tly.cube.getD k 3 = 1 ∧ s.tly.nact < 8 then
    let s1 := s.onTly fun t => { t with cube := t.cube.set k 0 }
    let n := s1.tly.nact
    if 7 ≤ n then s1.onTly fun t => { t with limit := stepLimit s1 n } else s1
  else s

/-- Every cube that waits to become active. -/
def cubeRejoins (s : State) : State := forList s.tly.rejoin cubeRejoin (s.onTly fun t => { t with rejoin := [] })

/-- An entry is named in a slot table. -/
def scheduled (tab : List SlotEntry) (p : Nat) : Bool := tab.any fun e => e.exec = 0 && e.work = p

/-- R221: free a program entry. -/
def progFree (p : Nat) (s : State) : State :=
  let x := s.getProg p
  let s1 := s.updProg p fun _ => {}
  if x.installed then emitTly 0x4011 x.id p 0 0 s1 else s1

/-- R82, R221: the slot table that was admitted takes force; replaced programs that it no longer names are freed. -/
def tableInstall (s : State) : State :=
  match s.frm.nextTable with
  | none => s
  | some tab =>
    let s1 := (s.onFrm fun f => { f with table := some tab, nextTable := none, rt := [] }).onTly fun t =>
      { t with used := t.nextUsed }
    forList ((List.range 128).filter fun p => (s.getProg p).installed) (fun p t =>
      match (t.getProg p).replaces with
      | some q =>
        if scheduled tab q then t
        else progFree q (t.updProg p fun x => { x with replaces := none })
      | none => t) s1

/-- Table 9.2: the value of a source of an INPUT block. -/
def srcVal (s : State) : InSrc → Int
  | .zero => 0
  | .site i => (s.siteUsed i).getD 0
  | .power c => (s.getClu c).pApp
  | .current c => (s.getClu c).iApp
  | .act c => (s.getClu c).actMean
  | .limFrac c => (s.getClu c).limFrac
  | .level c => (s.getClu c).level
  | .vreq c => (s.getClu c).vreq
  | .freq c =>
    let d := (s.getDom (s.cluCfg c).dom).code + 1
    (divRoundN (s.clk.root.nCur * 100000) d : Nat)
  | .exts c => (s.getClu c).extLast
  | .railMean r => (s.getMeas r).telMean
  | .target c j => loopTgt j ((s.getLp c j).tgt.getD 0)
  | .accepted i k => ((s.getSite i).accepted.getD k 0)

/-- A fraction in 2^−16, clamped to [0, 1]. -/
def frac16 (a b : Nat) : Int := min 65536 (divRoundN (a * 65536) (max 1 b))

/-- Table 10.2: the input vector of a forecaster in 2^−16. -/
def fcInputs (s : State) (c : Nat) : List Int :=
  let x := s.getClu c
  let f := s.frameNs
  let ic := max 1 (s.cluCfg c).icmax
  let ts := s.frm.number * f
  let cores := s.cluCores c
  let lent := (cores.filter fun k => (s.getCore k).lent.isSome).length
  let early := (sortBy (fun e => e.th)
    (((s.hints c).map Prod.snd).filter fun e => e.early && !s.distrusted e.ctx)).take 4
  let hint := fun (e : HintEnt) =>
    [frac16 (e.th - ts) 32000, frac16 (e.te - ts) 256000, frac16 e.inten 256, frac16 (s.getHc e.cls).feat 256]
  ((List.range 16).map fun i => frac16 (x.actHist.getD i 0) 256) ++
  ((List.range 8).map fun i => ((divRoundN (x.curHist.getD i 0 * 65536) ic : Nat) : Int)) ++
  [frac16 x.limFrac 256, frac16 x.level 256, frac16 x.ceil 256, ((Tbl.get 0 s.syn.waitfClu c : Nat) : Int),
   frac16 lent cores.length, 0, 0, 0] ++
  (early.flatMap hint) ++ List.replicate (16 - 4 * early.length) 0

/-- R272, R237: firmware writes the INPUT blocks with the values of the snapshot. -/
def writeInputs (s : State) : State :=
  let put := fun (b : Nat) (l : List Int) (q : Int) (t : Tally) => { t with st := Tbl.set {} t.st b (renorm l q).1 }
  let s1 := forList s.cfg.tly.inputs (fun e t =>
    t.onTly (put e.1 ((List.range 16).map fun i => srcVal s (e.2.getD i .zero)) 0)) s
  forList s.fcClus (fun c t =>
    let v := fcInputs s c
    forList (List.range 3) (fun b u =>
      match (s.fcCfg c).inBlk[b]? with
      | some k => u.onTly (put k ((v.drop (16 * b)).take 16) (-16))
      | none => u) t) s1

/-- R124: the plausibility nets that ran leave the sites' predictions. -/
def netFrame (s : State) : State :=
  let ran := s.tly.ran.filter fun p => (s.getProg p).cls = 5
  forList s.sites (fun i t =>
    match (s.siteCfg i).net with
    | some (b, e) =>
      let here := ran.any fun p => decide ((s.getProg p).outBase ≤ b) && decide (b < (s.getProg p).outBase + (s.getProg p).outN)
      if here then siteShift i (t.updSite i fun x => { x with net := true, netPred := some (t.tlyElem b e 0) }) else t
    | none => t) s

/-- While PLAUSIBILITY slots are shed, or no table runs them, the sites are predicted by plain comparison (Table 3.3). -/
def netOff (s : State) : State :=
  if decide (2 ≤ s.frm.level) || !(s.slots.any fun e => e.cls = 5) then
    forList (s.sites.filter fun i => (s.getSite i).net) (fun i t => siteShift i (t.updSite i fun x => { x with net := false })) s
  else s

/-- R273: the predicted currents in an output block, 1/8 A. -/
def fcPredict (s : State) (c : Nat) : List Nat :=
  let x := Tbl.get ({} : Blk) s.tly.st (s.fcCfg c).outBlk
  let ic := (s.cluCfg c).icmax
  (List.range 5).map fun k =>
    let sh := x.e - 15
    let v : Int := if 0 ≤ sh then x.at k * ic * 2 ^ sh.toNat else divRound (x.at k * ic) (2 ^ (-sh).toNat)
    (clampI 0 ((2 * ic : Nat) : Int) v).toNat

/-- R275, R278: the forecasts of the frame that ends; in hold none is available. -/
def fcCommit (c : Nat) (s : State) : State :=
  let p := (s.fcCfg c).prog
  let runs := (List.range s.slots.length).filterMap fun k =>
    match s.slot k with | some e => if e.exec = 0 ∧ e.work = p then some (s.getRt k).run else none | none => none
  if runs.contains .done then
    if (s.getClu c).st = 2 then s.updFcCl c fun x => { x with avail := false, missed := false }
    else if s.fcResident c then
      let v := fcPredict s c
      s.updFcCl c fun x =>
        { x with pred := v, predAt := s.frm.frameStart, avail := true, missed := false,
                 hist := x.hist ++ [(s.frm.frameStart, v)] }
    else s.updFcCl c fun x => { x with avail := false, missed := false }
  else if runs.contains .missed then s.updFcCl c fun x => { x with avail := false, missed := true }
  else if runs.contains .shed || decide ((s.getClu c).st = 2) then s.updFcCl c fun x => { x with avail := false }
  else s

/-- R276, R277: deliver the forecasts to a rail at the end of its round. -/
def fcDeliver (r : Nat) (s : State) : State :=
  let cs := (s.railClusters r).filter fun c => (s.fcCfg c).present
  let progs := (cs.map fun c => (s.fcCfg c).prog).dedup
  let now := (List.range s.slots.length).filterMap fun k =>
    match s.slot k with
    | some e => if e.exec = 0 ∧ e.cls = 6 ∧ (s.getRt k).run ≠ .off then some e.work else none
    | none => none
  let had := (Tbl.get [] s.fc.round r ++ now.filter fun p => progs.contains p).dedup
  if progs = [] then s
  else if progs.all had.contains then
    let s1 := s.onFc fun f => { f with round := Tbl.set [] f.round r [] }
    let av := cs.filter fun c => (s.getFcCl c).avail
    let pred := fun k => sumN ((s.railClusters r).map fun c =>
      let q := s.railPart r c
      let x := if (s.getFcCl c).avail then (s.getFcCl c).p k else (s.getClu c).iApp
      divRoundN (x * q.1) q.2)
    let at_ := fun k => if !av.isEmpty && av.all fun c => (s.getFcCl c).gateOk k then some (pred k) else none
    ppDeliver r (at_ 1) (at_ 2) (at_ 3) s1
  else s.onFc fun f => { f with round := Tbl.set [] f.round r had }

/-- R335: the wait fractions of a frame. -/
def waitFrame (s : State) : State :=
  let s1 := forList (List.range 128) (fun k t => if (t.coreEngines k).isEmpty then t else waitMark k t) s
  let f := s.frameNs
  let eng := fun k => (s1.coreEngines k).length
  let frac := fun a n => satU 16 (divRoundN (a * 65536) (max 1 (n * f)))
  let all := (List.range 128).filter fun k => decide (0 < eng k)
  let clu := s.clusters.foldl (fun t c =>
    let ks := s.cluCores c
    Tbl.set 0 t c (frac (sumN (ks.map fun k => (s1.getCore k).acc)) (sumN (ks.map eng)))) ([] : Tbl Nat)
  let tot := frac (sumN (all.map fun k => (s1.getCore k).acc)) (sumN (all.map eng))
  (forList all (fun k => State.updCore k fun x => { x with waitf := frac x.acc (eng k), acc := 0 }) s1).onSyn
    fun y => { y with waitfClu := clu, waitfFrame := tot, frameAt := s.now }

/-- The extensions of a cluster's domain in the frame (R238, Table 9.1). -/
def extFrame (c : Nat) (s : State) : State :=
  let d := (s.cluCfg c).dom
  let n := sumN (((List.range 1024).filter fun k => (s.detCfg k).present && (s.detCfg k).dom = d && !(s.getDet k).ringFail).map
    fun k => (s.getDet k).frame)
  s.updClu c fun x => { x with extLast := n, exts := (n :: x.exts).take 64 }

end Sys2Proof.Machine
end

