-- ==== Sys2Proof/Machine/ClrOps.lean ====
section
/-!
DEFINITION. Clearing's shared operations: message checks, clock offsets, joining, leases and the balancing rules
(chapter 13).
-/
namespace Sys2Proof.Machine

/-- Block time counted on the holding oscillator at time `t`, so far as the last holdover tells (R348). -/
def State.heldAt (s : State) (t : Nat) : Bool :=
  if s.tb.hold then decide (s.tb.holdStart ≤ t)
  else match s.tb.holdEnd with
    | some e => decide (s.tb.holdStart ≤ t) && decide (t < e)
    | none => false

/-- θ of a link is valid: received within the last 3 rounds (R348). -/
def State.thetaOk (s : State) (x : Link) : Bool := x.theta.isSome && decide (s.now ≤ x.thetaAt + 30000)

/-- The chip is verified (R359). -/
def State.verified (s : State) : Bool :=
  match s.clr.verAt with | some t => decide (s.now ≤ t + 20 * nsPerMs) | none => false

/-- The link is out for Audit (Table 17.3, kind 5). -/
def State.linkAud (s : State) (l : Nat) : Bool := decide ((s.getUnit (audIdx 5 l)).st ≠ 0)

/-- Fields of Table 13.3 that a type does not use, or that its version does not carry, are 0 (check 3). -/
def clrUnused (typ : Nat) (m : ClrMsg) : Bool :=
  let ack := bitOf m.flags 1
  let state := typ = 3 && !ack
  let z := fun (p : Bool) (n : Nat) => p || decide (n = 0)
  z ((typ = 1 || state || typ = 4) && decide (2 ≤ m.ver)) m.slack &&
    z (typ = 4 || typ = 5 || typ = 6) m.amount && z (typ = 5 || typ = 6) m.leaseId && z (decide (typ = 5)) m.expiryUs &&
    z (typ = 6 || typ = 7 || (typ = 2 && bitOf m.flags 2)) m.cause && z state m.surplus && z state m.need &&
    z (state && decide (2 ≤ m.ver)) m.wmin && z state m.chips && z (state && decide (3 ≤ m.ver)) m.fcNeed

/-- The link awaits an ACCEPT: JOINING or ABSENT (Table 13.4). -/
def Link.joining (x : Link) : Bool := x.st = 1 || x.st = 4

/-- Table 13.1 after check 1: the number of the first check that fails, 0 if none. A JOIN is exempt from the later
checks; an ACCEPT carries the version and may carry the incarnation that the link is to take (R350, R352). -/
def clrCheck (l typ : Nat) (m : ClrMsg) (s : State) : Nat :=
  let x := s.getLnk l
  if m.domain ≠ s.clr.domain ∨ m.dst ≠ s.clr.id ∨ m.src ≠ x.peer then 2
  else if !m.reserved || !clrUnused typ m then 3
  else if typ = 0 ∨ 7 < typ then 4
  else if typ = 1 then 0
  else if typ ≠ 2 ∧ m.ver ≠ x.ver then 4
  else if m.peerInc ≠ s.clr.inc then 5
  else if typ = 2 ∧ m.inc ≠ x.inc ∧ x.joining then 0
  else if m.inc ≠ x.inc ∨ m.seq ≤ x.seqIn then 6
  else 0

/-- R344: discard a message. -/
def clrDiscard (l chk typ : Nat) (s : State) : State :=
  let first := due s.now nsPerS (s.getLnk l).discRec
  let s1 := s.updLnk l fun x =>
    { x with discard := satInc 16 x.discard, discRec := some s.now, reread := none }
  if first then emitTrs 0x8020 l chk typ 0 s1 else s1

/-- R348: round trip and offset from a message that names one of ours. -/
def clrTheta (l : Nat) (m : ClrMsg) (s : State) : State :=
  if m.ackSeq = 0 ∨ m.peerInc ≠ s.clr.inc then s
  else
    let d := (s.now % 2 ^ 32 + 2 ^ 32 - m.echoTs) % 2 ^ 32
    let rtt := d - m.echoHold
    let ok := decide (rtt ≤ 4000) && !bitOf m.flags 0 && !s.heldAt (s.now - d)
    s.updLnk l fun x =>
      if ok then { x with rtt := satU 16 rtt, theta := some ((s.now : Int) - m.ts - (rtt / 2 : Nat)), thetaAt := s.now }
      else { x with rtt := satU 16 rtt }

/-- R98, R365: a message's timestamp as a drift sample. -/
def clrSample (l : Nat) (m : ClrMsg) (s : State) : State :=
  let x := s.getLnk l
  if bitOf m.flags 0 || s.tb.hold || !x.up then s
  else
    let a : Int := (s.now : Int) - s.clr.driftStart
    let y : Int := (s.now : Int) - m.ts
    let y0 := if x.dn = 0 then y else x.dy0
    let b := y - y0
    s.updLnk l fun z =>
      { z with dn := z.dn + 1, dx := z.dx + a, dy := z.dy + b, dxx := z.dxx + a * a, dxy := z.dxy + a * b, dy0 := y0 }

/-- A message passed its checks: acknowledgements, clock offset and the fields every message carries (R344–R348). -/
def clrAccept (l typ : Nat) (m : ClrMsg) (s : State) : State :=
  let s1 := clrSample l m (clrTheta l m s)
  let slack := decide (2 ≤ m.ver) && (typ = 1 || typ = 4 || (typ = 3 && !bitOf m.flags 1))
  s1.updLnk l fun x =>
    { x with seqIn := m.seq, echoTs := m.ts % 2 ^ 32, rxAt := s.now, peerHold := bitOf m.flags 0, rxRound := true,
             slack := if slack then m.slack else x.slack, sent := x.sent.filter fun e => decide (m.ackSeq < e.seq),
             reread := none }

/-- R352: a JOIN or ACCEPT brings an incarnation other than the one held: leases of the old one are voided, the retry
timer is cancelled and the sequence numbers start again. -/
def clrNewInc (l inc : Nat) (s : State) : State :=
  let x := s.getLnk l
  if x.inc = inc then s
  else
    let n := x.bor.length
    let s1 := s.updLnk l fun y =>
      { y with inc := inc, retry := none, seqOut := 0, seqIn := 0, sent := [], theta := none, surplus := 0, need := 0,
               wmin := 0xFFFF, fcNeed := 0, chips := 0, due := 0, bor := y.bor.map fun b => { b with void := true } }
    let s2 := if n = 0 then s1 else s1.onTrs fun t => { t with outOfTurn := true }
    if x.inc = 0 then s2 else emitTrs 0x8014 l x.inc inc (n + x.lent.length) s2

/-- A version has been negotiated: the link enters PRESENT, unless it is up already (Table 13.4), and a version below `VMAX`
is recorded (R351). -/
def clrPresent (l : Nat) (s : State) : State :=
  let x := s.getLnk l
  let s1 := s.updLnk l fun y => { y with st := 2, missed := 0, retry := none, joinRounds := 0, badRound := false }
  let s2 := if x.up then s1 else emitTrs 0x8010 l x.peer x.inc x.ver s1
  if x.ver < s.clr.vmax then emitTrs 0x8015 l x.ver 0 0 s2 else s2

/-- R351: refuse a JOIN. -/
def clrRefuse (l cause ver : Nat) (s : State) : State :=
  clrSend l 2 { ver := ver, flags := 4, cause := cause } s |> emitTrs 0x8011 l cause 0 0

/-- R351: a JOIN is answered. -/
def clrOnJoin (l : Nat) (m : ClrMsg) (s : State) : State :=
  let ver := max 1 (min m.ver s.clr.vmax)
  if !(s.getLnk l).en then clrRefuse l 1 ver s
  else if bitOf m.flags 3 ≠ decide (l = 0) then clrRefuse l 2 ver s
  else
    let s1 := clrAccept l 1 m (clrNewInc l m.inc s)
    let s2 := s1.updLnk l fun x => { x with ver := ver }
    let s3 := clrSendV l 2 {} s2
    if (s3.getLnk l).st = 1 then s3 else clrPresent l s3

/-- R350, R351: an ACCEPT is received. -/
def clrOnAccept (l : Nat) (m : ClrMsg) (s : State) : State :=
  if bitOf m.flags 2 then emitTrs 0x8011 l m.cause 1 0 (clrAccept l 2 m s)
  else
    if (s.getLnk l).joining then
      let s1 := clrAccept l 2 m (clrNewInc l m.inc s)
      clrPresent l (s1.updLnk l fun x => { x with ver := max 1 (min m.ver s.clr.vmax) })
    else clrAccept l 2 m s

/-- Lent leases of all links. -/
def State.lentN (s : State) : Nat := sumN (s.clr.lnk.map fun e => e.2.lent.length)
/-- Borrowed leases of all links. -/
def State.borN (s : State) : Nat := sumN (s.clr.lnk.map fun e => e.2.bor.length)

/-- R363 is in force, or the peer is in holdover. -/
def State.noLease (s : State) (l : Nat) : Bool := s.tb.hold || (s.getLnk l).peerHold || s.linkAud l

/-- R353: grant a lease of `amt` for `d` µs on link `l`; `from_` is the borrowed lease a sub-lease passes on. -/
def clrGrant (l amt d : Nat) (from_ : Option (Nat × Nat)) (s : State) : State :=
  let x := s.getLnk l
  if x.st ≠ 2 ∨ s.noLease l ∨ amt < 8 ∨ d = 0 then s
  else if 8 ≤ x.lent.length ∨ 520 ≤ s.lentN then emitTrs 0x8023 l 0 0 0 s
  else
    let id := (s.clr.leaseId + 1) % 2 ^ 32
    let a := min amt 65535
    let s1 := (s.onClr fun c => { c with leaseId := id }).onTrs fun t => { t with outOfTurn := true }
    let s2 := s1.updLnk l fun y =>
      { y with lent := y.lent ++ [{ id := id, amt := a, sent := s.now, durUs := d, unver := !s.verified, from_ := from_ }] }
    clrSendV l 5 { amount := a, leaseId := id, expiryUs := d } s2

/-- R357: the longest duration in µs of a sub-lease of a borrowed lease, at most D. -/
def State.subDur (s : State) (b : Bor) : Nat := min s.clr.leaseUs ((b.exp - s.trs.lguard * nsPerUs - s.now) / nsPerUs)

/-- The sub-leases that a borrowed lease already backs. -/
def State.subUse (s : State) (l id : Nat) : Nat :=
  sumN (s.clr.lnk.map fun e => sumN ((e.2.lent.filter fun x => x.from_ = some (l, id)).map Lent.amt))

/-- Grant `amt` to link `l` as sub-leases of the borrowed leases in the list, as far as they reach (R357). -/
def clrSubLease (l : Nat) : List (Nat × Bor) → Nat → State → State
  | [], _, s => s
  | (k, b) :: t, amt, s =>
    let a := min amt (b.amt - s.subUse k b.id)
    clrSubLease l t (amt - a) (clrGrant l a (s.subDur b) (some (k, b.id)) s)

/-- Borrowed leases that count, with their links. -/
def State.borCounted (s : State) : List (Nat × Bor) :=
  (List.range 65).flatMap fun l => ((s.borHeld l).filter fun b => b.counted).map fun b => (l, b)

/-- The surplus that is the chip's own: without what it has borrowed (R357, R360). -/
def State.pRound (s : State) : Nat := if s.clr.pN = 0 then s.trs.pPkg else divRoundN s.clr.pSum s.clr.pN

/-- max(D_chip, P_pkg) + KEEP (R360). -/
def State.clrUse (s : State) : Nat := max (sumN s.trs.demand) s.pRound + s.clr.keep * s.trs.cap / 100

/-- R360: s0. -/
def State.s0 (s : State) : Nat :=
  if s.tb.hold then 0
  else min (s.ceff - s.clrUse) (s.trs.cap - s.lOut - ceilDiv (s.trs.commit * 100) s.trs.floorMax)

/-- Lend `amt` to link `l`: the chip's own surplus for D, and what goes beyond it as sub-leases. -/
def clrLend (l amt : Nat) (s : State) : State :=
  let own := min amt (s.trs.cap - s.lOut - s.clrUse)
  clrSubLease l s.borCounted (amt - own) (clrGrant l own s.clr.leaseUs none s)

/-- R361: an OFFER brings the parent's call; the child lends at once. -/
def clrOnOffer (l : Nat) (m : ClrMsg) (s : State) : State :=
  if l = 0 ∧ 0 < m.amount then clrLend 0 (min m.amount s.s0) s else s

/-- R361: a STATE brings a child's subtree values. -/
def clrOnState (l : Nat) (m : ClrMsg) (s : State) : State :=
  if l = 0 ∨ bitOf m.flags 1 then s
  else s.updLnk l fun x =>
    { x with surplus := m.surplus, need := m.need, wmin := m.wmin, chips := m.chips, fcNeed := m.fcNeed }

/-- R354: the local expiry of a lease of `d` µs whose age is `a`. -/
def leaseExp (s : State) (d : Nat) (a : Int) : Nat :=
  s.now + (((d * 1000 : Nat) - a - 2000) * (if s.verified then 998 else 960) / 1000).toNat

/-- R356: send the RETURN of a lease that was not accepted. -/
def clrDecline (l : Nat) (m : ClrMsg) (cause : Nat) (s : State) : State :=
  clrSendV l 6 { amount := m.amount, leaseId := m.leaseId, cause := cause } s

/-- The grants that wait for called budget are served from a lease that has arrived from a child (R361). -/
def clrServe (l : Nat) (b : Bor) (s : State) : State :=
  if l = 0 then s
  else forList ((List.range 65).filter fun k => decide (0 < (s.getLnk k).due)) (fun k t =>
    let a := min (t.getLnk k).due (b.amt - t.subUse l b.id)
    if a = 0 then t
    else (clrGrant k a (t.subDur b) (some (l, b.id)) t).updLnk k fun x => { x with due := x.due - a }) s

/-- R355, Table 13.6: a renewal moves E when it passes R354, comes in time and makes E later. -/
def clrRenewed (l : Nat) (m : ClrMsg) (a : Int) (ok : Bool) (s : State) : State :=
  let e := leaseExp s m.expiryUs a
  s.updLnk l fun x => { x with bor := x.bor.map fun b =>
    if b.id = m.leaseId ∧ ok ∧ b.ret = none ∧ b.void = false ∧ b.counted ∧ s.now + s.trs.lguard * nsPerUs < b.exp ∧ b.exp < e
    then { b with exp := e } else b }

/-- R354: a LEASE is accepted or returned. -/
def clrOnLease (l : Nat) (m : ClrMsg) (s : State) : State :=
  let x := s.getLnk l
  let a : Int := (s.now : Int) - m.ts - x.theta.getD 0
  let ok := decide (x.st = 2) && s.thetaOk x && !s.noLease l && decide (a ≤ 4000)
  if bitOf m.flags 4 then clrRenewed l m a (decide (x.up) && s.thetaOk x && !s.tb.hold && !x.peerHold && decide (a ≤ 4000)) s
  else if x.bor.any fun b => b.id = m.leaseId then s
  else if s.tb.hold || x.peerHold then clrDecline l m 3 s
  else if x.st ≠ 2 ∨ !s.thetaOk x ∨ s.linkAud l then clrDecline l m 1 s
  else if !ok then
    let s1 := if due s.now nsPerS x.staleRec then
        (s.updLnk l fun y => { y with staleRec := some s.now }) |> emitTrs 0x8021 l m.leaseId (encS 32 a) 0
      else s
    clrDecline l m 2 s1
  else if 8 ≤ x.bor.length ∨ 520 ≤ s.borN then clrDecline l m 5 (emitTrs 0x8023 l 1 0 0 s)
  else
    let e := leaseExp s m.expiryUs a
    let b : Bor := { id := m.leaseId, amt := m.amount, exp := e, counted := decide (s.now + s.trs.lguard * nsPerUs < e) }
    clrServe l b ((s.updLnk l fun y => { y with bor := y.bor ++ [b] }).onTrs fun t => { t with outOfTurn := true })

/-- R353: a RETURN removes the lease from L_out; one that names no lease is ignored. -/
def clrOnReturn (l : Nat) (m : ClrMsg) (s : State) : State :=
  if (s.getLnk l).lent.any fun e => e.id = m.leaseId then
    (s.updLnk l fun x => { x with lent := x.lent.filter fun e => e.id ≠ m.leaseId }).onTrs
      fun t => { t with outOfTurn := true }
  else s

/-- R350: the peer leaves; what was borrowed from it is returned. -/
def clrOnLeave (l : Nat) (m : ClrMsg) (s : State) : State :=
  (returnAll l 4 s).updLnk l (fun x => { x with st := 5, retry := none, due := 0 }) |> emitTrs 0x8013 l m.cause 0 0

/-- R363: a peer that shows `HOLD` is treated as a chip in holdover: what was borrowed from it is returned. -/
def clrPeerHold (l : Nat) (s : State) : State := if (s.getLnk l).peerHold then returnAll l 3 s else s

/-- What a message of each type does once it has passed its checks. -/
def clrPerform (l typ : Nat) (m : ClrMsg) (s : State) : State :=
  if typ = 1 then clrOnJoin l m s
  else if typ = 2 then clrOnAccept l m s
  else
    let s1 := clrPeerHold l (clrAccept l typ m s)
    if typ = 3 then clrOnState l m s1
    else if typ = 4 then clrOnOffer l m s1
    else if typ = 5 then clrOnLease l m s1
    else if typ = 6 then clrOnReturn l m s1
    else clrOnLeave l m s1

/-- R344, R347: a whole message of link `l`: discarded, or performed and acknowledged. -/
def clrReceive (l typ : Nat) (m : ClrMsg) (s : State) : State :=
  if !s.clrUp || (!(s.getLnk l).en && decide (typ ≠ 1)) then s
  else
    let chk := clrCheck l typ m s
    if chk ≠ 0 then clrDiscard l chk typ s
    else
      let s1 := clrPerform l typ m s
      let ackOnly := decide (typ = 3) && bitOf m.flags 1
      let answered := decide (typ = 1) || (decide (typ ≠ 2) && decide ((s1.getLnk l).seqOut ≠ (s.getLnk l).seqOut))
      if ackOnly || answered then s1
      else clrSendV l 3 { flags := 2 } s1

/-- A receiver or donor of a round: its link (0 is the chip itself), need, surplus, forecast need, wait fraction, and
whether it speaks v1. -/
structure ClrPart where
  l : Nat
  n : Nat
  s : Nat
  f : Nat
  w : Nat
  v1 : Bool
deriving DecidableEq, Repr

/-- Children in PRESENT or SUSPECT. -/
def State.children (s : State) : List Nat := (List.range 65).filter fun l => decide (0 < l) && (s.getLnk l).up

/-- R362: the neutral value. -/
def neutralW (ws : List Nat) : Nat :=
  let l := sortBy id ws
  let n := l.length
  if n = 0 then 0x8000 else (l.getD ((n - 1) / 2) 0 + l.getD (n / 2) 0) / 2

/-- R360, R361: the chip and its children as the round sees them, in link order. -/
def clrParts (s : State) : List ClrPart :=
  let hold := fun l => s.noLease l
  let ch := s.children
  let neutral := neutralW ((ch.filter fun l => decide (2 ≤ (s.getLnk l).ver) && decide (0 < (s.getLnk l).need)).map fun l => (s.getLnk l).wmin)
  { l := 0, n := if s.tb.hold then 0 else s.trs.unmet, s := s.s0, f := if s.tb.hold then 0 else s.trs.preSum,
    w := s.syn.waitfRound, v1 := false } ::
  ch.map fun l =>
    let x := s.getLnk l
    { l := l, n := if hold l then 0 else x.need, s := if hold l then 0 else x.surplus, f := if hold l then 0 else x.fcNeed,
      w := if x.ver < 2 then neutral else x.wmin, v1 := decide (x.ver < 2) }

/-- Serve the parts in the order given up to `want`, each from what is left. -/
def clrServeAll (want : ClrPart → Nat) : List ClrPart → Nat → Tbl Nat → Tbl Nat × Nat
  | [], left, g => (g, left)
  | p :: t, left, g =>
    let a := min (want p) left
    clrServeAll want t (left - a) (Tbl.upd 0 g p.l (· + a))

/-- Divide `m` over the parts in proportion to `want`, whose sum is `tot` (R361, every child on v1). -/
def clrProp (want : ClrPart → Nat) (l : List ClrPart) (m tot : Nat) : Tbl Nat :=
  l.foldl (fun g p => Tbl.set 0 g p.l (if tot = 0 then 0 else want p * m / tot)) []

/-- What R361 decides in a round. -/
structure ClrPlan where
  /-- grants by receiver and calls by donor; index 0 is the chip itself -/
  g : Tbl Nat
  c : Tbl Nat
  surplus : Nat
  need : Nat
  fcNeed : Nat
  wmin : Nat
  chips : Nat
deriving DecidableEq, Repr

/-- R361, R362: the combination of a round. -/
def clrPlan (s : State) : ClrPlan :=
  let ps := clrParts s
  let ch := s.children
  let give := sumN (ps.map ClrPart.s)
  let need := sumN (ps.map ClrPart.n)
  let m := min give need
  let up := sortBy ClrPart.w ps
  let down := sortBy (fun p => 0x10000 - p.w) ps
  let allV1 := ch ≠ [] && ps.tail.all ClrPart.v1
  let g := if allV1 then clrProp ClrPart.n ps m need else (clrServeAll ClrPart.n up m []).1
  let c := if allV1 then clrProp ClrPart.s ps m give else (clrServeAll ClrPart.s down m []).1
  let v3 := ch.all fun l => decide (3 ≤ (s.getLnk l).ver)
  let g2 := if v3 then (clrServeAll ClrPart.f up (give - m) g).1 else g
  { g := g2, c := c, surplus := give - m, need := need - m, fcNeed := sumN (ps.map ClrPart.f),
    wmin := (ps.filter fun p => decide (Tbl.get 0 g p.l < p.n)).foldl (fun a p => min a p.w) 0xFFFF,
    chips := 1 + sumN (ch.map fun l => (s.getLnk l).chips) }

/-- R349, Table 13.4: judge one link at the start of a round. -/
def clrJudge (l : Nat) (s : State) : State :=
  let x := s.getLnk l
  let miss := !x.rxRound || x.badRound
  let s0 := s.updLnk l fun y => { y with rxRound := false, badRound := false }
  let absent := fun (t : State) => t.updLnk l fun y =>
    { y with st := 4, retry := some (s.now + s.clr.retryMs * nsPerMs), joinRounds := 0, due := 0 }
  if x.st = 1 then
    if x.joinRounds + 1 < 3 then s0.updLnk l fun y => { y with joinRounds := y.joinRounds + 1 } else absent s0
  else if !x.up then s0
  else if !miss then s0.updLnk l fun y => { y with st := 2, missed := 0 }
  else
    let s1 := s0.updLnk l fun y => { y with st := 3, missed := min 3 (y.missed + 1) }
    let s2 := if x.missed + 1 < 3 then s1
      else emitTrs 0x8012 l (sumN (x.lent.map Lent.amt)) (sumN (x.bor.map Bor.amt)) 0 (absent s1)
    match s.aud.test with
    | some t => if t.kind = 5 ∧ t.idx = l then audAbandon 3 s2 else s2
    | none => s2

/-- R355, R357: renew the leases of a link for the round. -/
def clrRenew (l : Nat) (s : State) : State :=
  forList (s.getLnk l).lent (fun e t =>
    let d := match e.from_ with
      | none => t.clr.leaseUs
      | some (k, id) => match ((t.borHeld k).filter fun b => b.id = id && b.counted).head? with
        | some b => t.subDur b
        | none => 0
    if d = 0 then t
    else
      let t1 := t.updLnk l fun x => { x with lent := x.lent.map fun y =>
        if y.id = e.id then { y with sent := t.now, durUs := d, unver := !t.verified } else y }
      clrSendV l 5 { flags := 16, amount := e.amt, leaseId := e.id, expiryUs := d } t1) s

/-- R356: borrowed leases whose amount the surplus left over covers are returned with cause 0; one that backs a
sub-lease is kept. -/
def clrUnneeded (left : Nat) (s : State) : State :=
  (s.borCounted.foldl (fun (a : State × Nat) e =>
    if e.2.amt ≤ a.2 ∧ a.1.subUse e.1 e.2.id = 0 then (beginReturn e.1 e.2.id 0 a.1, a.2 - e.2.amt) else a) (s, left)).1

/-- The chip's wait fraction over the round (R335). -/
def clrWaitf (s : State) : State :=
  let all := (List.range 128).filter fun k => !(s.coreEngines k).isEmpty
  let s1 := forList all waitMark s
  let n := sumN (all.map fun k => (s1.coreEngines k).length)
  let f := satU 16 (divRoundN (sumN (all.map fun k => (s1.getCore k).racc) * 65536) (max 1 (n * 10000)))
  (forList all (fun k => State.updCore k fun x => { x with racc := 0 }) s1).onSyn
    fun y => { y with waitfRound := f, roundAt := s.now }

/-- The grants of a round: from the chip's own part at once, the rest as called budget arrives (R361). -/
def clrGrants (p : ClrPlan) (s : State) : State :=
  (s.children.foldl (fun (a : State × Nat) l =>
    let want := Tbl.get 0 p.g l
    let x := min want a.2
    ((clrLend l x a.1).updLnk l fun y => { y with due := want - x }, a.2 - x)) (s, min (Tbl.get 0 p.c 0 + p.surplus) s.s0)).1

/-- R349, R361: STATE to the parent and OFFER to each child. -/
def clrReport (p : ClrPlan) (s : State) : State :=
  let s1 := forList s.children (fun l t =>
    clrSendV l 4 { slack := slackFor (t.getLnk l).ver t, amount := if t.linkAud l then 0 else min 65535 (Tbl.get 0 p.c l) } t) s
  let x := s1.getLnk 0
  if x.en && x.up then
    let q := s1.linkAud 0
    let sur := if q then 0 else p.surplus
    let need := if q then 0 else p.need
    (clrSendV 0 3 { slack := slackFor x.ver s1, surplus := sur, need := need, wmin := if 2 ≤ x.ver then p.wmin else 0,
                    chips := p.chips, fcNeed := if 3 ≤ x.ver ∧ !q then p.fcNeed else 0 } s1).onClr
      fun c => { c with aggS := sur, aggN := need }
  else s1

/-- R349, R361: one round. -/
def clrRound (s : State) : State :=
  if s.now < s.clr.roundAt + 10000 then s
  else
    let s1 := (clrWaitf s).onClr fun c => { c with roundAt := s.now }
    if !s1.clrUp then s1
    else
      let s2 := forList s1.links clrJudge s1
      let p := clrPlan s2
      let s3 := clrReport p s2
      let s4 := if s3.tb.hold || decide (0 < s3.trs.unmet) then s3
        else forList (s3.links.filter fun l => (s3.getLnk l).up && !s3.noLease l) clrRenew s3
      let left := s4.ceff - s4.clrUse - Tbl.get 0 p.c 0
      let s5 := clrGrants p s4
      let s6 := clrUnneeded (left - sumN (s2.children.map fun l => Tbl.get 0 p.g l)) s5
      s6.onClr fun c => { c with pSum := 0, pN := 0 }

/-- R352: voided leases leave L_in at a frame boundary, those of a link disabled since included. -/
def clrBoundary (s : State) : State :=
  forList (List.range 65) (fun l => State.updLnk l fun x => { x with bor := x.bor.filter fun b => !b.void }) s

end Sys2Proof.Machine
end

