-- ==== Sys2Proof/Machine/Clr.lean ====
section
/-!
DEFINITION. The commands of Clearing: rounds, messages, leases, links and drift (chapters 04 and 13).
-/
namespace Sys2Proof.Machine

/-- R349: CLEARING_ROUND. -/
def execClearingRound (s : State) : Res := act clrRound s

/-- The link reads words from its mailbox slot: a message, or `none` where it is not one; a bad CRC is told apart. -/
def clrRead (w : List Nat) : Option (Nat × ClrMsg) × Bool :=
  (clrParse w, decide (crc32 ((w.take 23).flatMap (leBytes 4)) = w.getD 23 0))

/-- A message is new on its link: a later number, or a JOIN or awaited ACCEPT of another incarnation (R344, R352). -/
def clrNew (l typ : Nat) (m : ClrMsg) (s : State) : Bool :=
  let x := s.getLnk l
  decide (x.seqIn < m.seq) || (decide (m.inc ≠ x.inc) && (typ = 1 || (typ = 2 && x.joining)))

/-- R344: read the next slot of an enabled link. -/
def clrPoll (l : Nat) (w : List Nat) (s : State) : State :=
  let x := s.getLnk l
  if !s.clrReads || !x.en || x.reread.isSome then s
  else match clrRead w with
    | (none, _) => if w.length = 24 ∧ x.seqIn < w.getD 2 0 then clrDiscard l 1 (bits (w.getD 0 0) 24 8) s else s
    | (some (typ, m), crcOk) =>
      if !clrNew l typ m s then s
      else if crcOk then clrReceive l typ m s
      else s.updLnk l fun y => { y with reread := some (s.now, 0) }

/-- R344: MAILBOX_POLL. -/
def execMailboxPoll (l : Fin 65) (words : List Word) (s : State) : Res :=
  act (clrPoll l.val (words.map BitVec.toNat)) s

/-- R344: a message with a bad CRC is read again after 250 ns, up to 4 times, and then discarded. -/
def clrReread (l : Nat) (w : List Nat) (s : State) : State :=
  match (s.getLnk l).reread with
  | none => s
  | some (t, n) =>
    if !s.clrReads || decide (s.now < t + 250) then s
    else
      let again := if n + 1 < 4 then s.updLnk l (fun y => { y with reread := some (s.now, n + 1) })
        else clrDiscard l 1 (bits (w.getD 0 0) 24 8) s
      match clrRead w with
      | (some (typ, m), true) => clrReceive l typ m (s.updLnk l fun y => { y with reread := none })
      | _ => again

/-- R344: MSG_REREAD. -/
def execMsgReread (l : Fin 65) (words : List Word) (s : State) : Res :=
  act (clrReread l.val (words.map BitVec.toNat)) s

/-- A whole message of a type with a correct CRC is in the next slot of the link. -/
def clrMsg (l : Fin 65) (typ : Nat) (m : ClrMsg) (s : State) : Res :=
  act (fun t => if !t.hm.inReset && clrNew l.val typ m t then clrReceive l.val typ m t else t) s

/-- R351: JOIN. -/
def execJoin (l : Fin 65) (m : ClrMsg) (s : State) : Res := clrMsg l 1 m s
/-- R351: ACCEPT. -/
def execAccept (l : Fin 65) (m : ClrMsg) (s : State) : Res := clrMsg l 2 m s
/-- R361: STATE. -/
def execStateMsg (l : Fin 65) (m : ClrMsg) (s : State) : Res := clrMsg l 3 m s
/-- R361: OFFER. -/
def execOffer (l : Fin 65) (m : ClrMsg) (s : State) : Res := clrMsg l 4 m s
/-- R354: LEASE. -/
def execLease (l : Fin 65) (m : ClrMsg) (s : State) : Res := clrMsg l 5 m s
/-- R353: RETURN. -/
def execReturnMsg (l : Fin 65) (m : ClrMsg) (s : State) : Res := clrMsg l 6 m s
/-- R350: LEAVE. -/
def execLeave (l : Fin 65) (m : ClrMsg) (s : State) : Res := clrMsg l 7 m s

/-- A frame has been committed since time `t`, and its package power was at or below the effective cap (R356). -/
def State.fallen (s : State) (t : Nat) : Bool :=
  let lastEnd := if s.frm.inFrame then s.frm.frameStart else s.frm.frameStart + s.frameNs
  decide (t ≤ lastEnd) && s.frm.metered && decide (s.trs.pPkg ≤ s.ceff)

/-- R356: the RETURN of a lease is sent once power has fallen or `LGUARD` has passed; a voided lease is not returned (R352). -/
def returnSend (l id : Nat) (s : State) : State :=
  match ((s.getLnk l).bor.filter fun b => b.id = id && b.ret.isSome && !b.void).head? with
  | none => s
  | some b =>
    match b.ret with
    | none => s
    | some (t, cause) =>
      if s.fwUp && (decide (t + s.trs.lguard * nsPerUs ≤ s.now) || s.fallen t) then
        clrSendV l 6 { amount := b.amt, leaseId := id, cause := cause }
          (s.updLnk l fun x => { x with bor := x.bor.filter fun y => y.id ≠ id })
      else s

/-- R356: RETURN_SEND. -/
def execReturnSend (l : Fin 65) (id : Nat) (s : State) : Res := act (returnSend l.val id) s

/-- R354: a borrowed lease reaches its local expiry. -/
def borExpire (l id : Nat) (s : State) : State :=
  if (s.getLnk l).bor.any fun b => b.id = id && decide (b.exp ≤ s.now) then
    (s.updLnk l fun x => { x with bor := x.bor.filter fun b => b.id ≠ id }).onTrs fun t => { t with outOfTurn := true }
  else s

/-- R354: BORROWED_LEASE_EXPIRY. -/
def execBorrowedLeaseExpiry (l : Fin 65) (id : Nat) (s : State) : Res := act (borExpire l.val id) s

/-- R353: when a lender takes a lease out of L_out without a RETURN. -/
def Lent.end_ (e : Lent) : Nat := e.sent + e.durUs * (1000 + (if e.hold then 20 else 0) + (if e.unver then 40 else 0))

/-- R353: a lent lease reaches its expiry. -/
def lentExpire (l id : Nat) (s : State) : State :=
  let x := s.getLnk l
  match (x.lent.filter fun e => e.id = id && decide (e.end_ ≤ s.now)).head? with
  | none => s
  | some e =>
    let first := due s.now nsPerS x.expRec
    let s1 := (s.updLnk l fun y =>
      { y with lent := y.lent.filter (fun k => k.id ≠ id), expRec := if first then some s.now else y.expRec }).onTrs
      fun t => { t with outOfTurn := true }
    if first then emitTrs 0x8022 l id e.amt 0 s1 else s1

/-- R353: CLR_LEASE_EXPIRED. -/
def execClrLeaseExpired (l : Fin 65) (id : Nat) (s : State) : Res := act (lentExpire l.val id) s

/-- R347: messages of the link that have gone 4 µs without their acknowledgement. -/
def ackMiss (l : Nat) (s : State) : State :=
  let late := fun (e : Sent) => !e.judged && decide (e.at_ + 4000 ≤ s.now)
  let n := ((s.getLnk l).sent.filter late).length
  if n = 0 then s
  else s.updLnk l fun x =>
    { x with sent := x.sent.map fun e => { e with judged := e.judged || late e },
             ackMiss := satU 16 (x.ackMiss + n), badRound := true }

/-- R347: ACK_MISS. -/
def execAckMiss (l : Fin 65) (s : State) : Res := act (ackMiss l.val) s

/-- R350: the retry timer of an absent peer runs out. -/
def joinRetry (l : Nat) (s : State) : State :=
  let x := s.getLnk l
  if s.clrUp && decide (x.st = 4) && (match x.retry with | some t => decide (t ≤ s.now) | none => false) then
    clrJoin l (s.updLnk l fun y => { y with retry := some (s.now + s.clr.retryMs * nsPerMs) })
  else s

/-- R350: JOIN_RETRY. -/
def execJoinRetry (l : Fin 65) (s : State) : Res := act (joinRetry l.val) s

/-- R350: a link starts joining. -/
def clrStart (l : Nat) (s : State) : State :=
  clrJoin l (s.updLnk l fun x =>
    { x with st := 1, joinRounds := 0, missed := 0, retry := none, rxRound := false, badRound := false })

/-- R350: a link is taken out of use: LEAVE once, borrowed leases returned. -/
def clrStop (cause l : Nat) (s : State) : State :=
  let s1 := if (s.getLnk l).st = 0 then s else clrSendV l 7 { cause := cause } s
  (returnAll l 4 s1).updLnk l fun x =>
    { x with st := 0, missed := 0, retry := none, due := 0, theta := none, reread := none, sent := [] }

/-- R368: the status of the last write. -/
def clrRes (st : Nat) (s : State) : State := s.onClr fun c => { c with res := st }

/-- Enable or disable Clearing. -/
def clrEnable (en : Bool) (s : State) : State :=
  if en = s.clr.en then s
  else if en then forList s.links clrStart (s.onClr fun c => { c with en := true, roundAt := s.now, driftStart := s.now })
  else (forList s.links (clrStop 1) s).onClr fun c => { c with en := false }

/-- R368: a write of `CLR_CFG`; without feature `CLEARING` the field `EN` stays 0 (R386). -/
def clrCfgWrite (v : Nat) (s : State) : State :=
  let vmax := bits v 1 2
  let keep := bits v 8 5
  if vmax = 0 ∨ 20 < keep then clrRes 0x8002 s
  else if s.clr.en ∧ keep ≠ s.clr.keep then clrRes 0x8001 s
  else clrRes 0 (clrEnable (bitOf v 0 && s.feat 3) (s.onClr fun c => { c with vmax := vmax, keep := keep }))

/-- R368: CLR_CFG_WRITE. -/
def execClrCfgWrite (v : Word) (s : State) : Res := hsEmu (clrCfgWrite v.toNat) s

/-- R350: enable or disable a link. -/
def lnkEnable (l : Nat) (en : Bool) (s : State) : State :=
  let x := s.getLnk l
  if x.en = en then s
  else if en then
    let s1 := s.updLnk l fun y => { y with en := true }
    if s1.clr.en then clrStart l s1 else s1
  else (clrStop 0 l s).updLnk l fun y => { y with en := false }

/-- R350, R368: CLR_LNK_EN_WRITE; links 65–127 do not exist. -/
def execClrLnkEnWrite (en : Bool) (s : State) : Res :=
  hsEmu (fun t => if t.clr.lnkSel < 65 then clrRes 0 (lnkEnable t.clr.lnkSel en t) else t) s

/-- R368: clear every `CLR_LNK_CNT`. -/
def clrCnt (s : State) : State :=
  clrRes 0 (forList (List.range 65) (fun l => State.updLnk l fun x => { x with ackMiss := 0, discard := 0 }) s)

/-- R368: CLR_CTRL_CLR. -/
def execClrCtrlClr (s : State) : Res := hsEmu clrCnt s

/-- R98: a link's rate difference local − peer in ppm, from its samples of the window. -/
def fitPpm (k : Nat) (x y xx xy : Int) : Option Int :=
  let n : Int := k
  let den := n * xx - x * x
  if k < 500 ∨ den ≤ 0 then none else some (divRound ((n * xy - x * y) * 1000000) den.toNat)

/-- The rate of the chip against a link's peer, fitted over block time. -/
def linkPpm (x : Link) : Option Int := fitPpm x.dn x.dx x.dy x.dxx x.dxy

/-- Five times the nominal `CKREF` period in ns (Table 2.14). -/
def refFifths (refsel : Nat) : Nat := match refHz refsel with | some f => 5 * nsPerS / f | none => 0

/-- R98 item 5: while the reference is lost the fit runs over the `CKREF` edge count, taken in fifths of a ns; messages that
carry the holdover flag are left out. -/
def edgePpm (refsel : Nat) (l : List EdgeSample) : Option Int :=
  let m := l.filter fun e => !e.hold
  let t0 : Int := match m with | e :: _ => e.ts | [] => 0
  let p := m.map fun e =>
    let x : Int := e.edges * refFifths refsel
    (x, x - 5 * ((e.ts : Int) - t0))
  fitPpm p.length (p.foldl (fun a q => a + q.1) 0) (p.foldl (fun a q => a + q.2) 0)
    (p.foldl (fun a q => a + q.1 * q.1) 0) (p.foldl (fun a q => a + q.1 * q.2) 0)

/-- Insert a number into a rising list. -/
def insI (a : Int) : List Int → List Int
  | [] => [a]
  | b :: t => if a ≤ b then a :: b :: t else b :: insI a t

/-- The median, the mean of the two middle values of an even number. -/
def medianI (l : List Int) : Int :=
  let s := l.foldl (fun r a => insI a r) []
  divRound (s.getD ((s.length - 1) / 2) 0 + s.getD (s.length / 2) 0) 2

/-- R100: with N at 160 the dividers of the domains that a ceiling port carries are raised by 1 at once, 64 at most; a fixed
domain keeps `DFIX` (R111; log entry 71). -/
def derateDivs (s : State) : State :=
  forList (s.doms.filter fun d => (s.domCfg d).clValid && !(s.getDom d).stopped)
    mapDiv s

/-- R100: apply or keep the derate for a measurement of `d` ppm; the root step is one below the newest requested N. -/
def driftDerate (d : Nat) (s : State) : State :=
  let r := s.clk.ref
  let n := s.clk.root.nTgt
  let s1 := s.onClk fun k => { k with ref := { k.ref with deratePpm := satU 16 (2 * d) } }
  if r.derateReq || r.derateDiv then s1
  else if 160 < n then
    rootRequest (n - 1) 1 (s1.onClk fun k => { k with ref := { k.ref with derateReq := true, preDerateN := n } })
  else derateDivs (s1.onClk fun k => { k with ref := { k.ref with derateDiv := true } })

/-- R100: remove the derate. -/
def driftUnderate (s : State) : State :=
  let r := s.clk.ref
  let s1 := s.onClk fun k => { k with ref := { k.ref with derateReq := false, derateDiv := false, deratePpm := 0 } }
  if r.derateReq then rootRequest r.preDerateN 1 s1 else s1

/-- R99: act on a measurement, also while the reference is lost: at 200 ppm the drift is raised and derated, and at 1,000 ppm
a reference that is not lost is lost. -/
def driftAct (d : Int) (n : Nat) (s : State) : State :=
  let a := d.natAbs
  if 200 ≤ a then
    let s1 := driftDerate a (s.onClk fun k => { k with ref := { k.ref with drift := true, below150 := 0 } })
    let s2 := if s.clk.ref.drift then s1 else emitClk 0x1004 (encS 32 d) n 0 0 s1
    if 1000 ≤ a ∧ s.clk.ref.stable then refLossCore 4 d s2 else s2
  else
    let b := if a < 150 then s.clk.ref.below150 + 1 else 0
    let s1 := s.onClk fun k => { k with ref := { k.ref with below150 := min b 2 } }
    if !s.clk.ref.drift then s1
    else if b < 2 then s1.onClk fun k => { k with ref := { k.ref with deratePpm := satU 16 (2 * a) } }
    else driftUnderate (s1.onClk fun k => { k with ref := { k.ref with drift := false } }) |> emitClk 0x1005 (encS 32 d) 0 0 0

/-- R98–R101: a window of 10 ms ends. While the reference is lost, the rates come from fitting the `CKREF` edges of
`edges`. A measurement below 150 ppm lets a reference return that was lost for drift and has its 1,024 windows (R96). -/
def driftMeasure (edges : List EdgeSample) (s : State) : State :=
  if !s.clrUp || decide (s.now < s.clr.driftStart + 10 * nsPerMs) then s
  else
    let up := s.links.filter fun l => (s.getLnk l).up
    let rates := if s.tb.hold then
        up.filterMap fun l => edgePpm s.pwr.refsel (edges.filter fun e => e.link = l)
      else up.filterMap fun l => linkPpm (s.getLnk l)
    let n := rates.length
    let s1 := forList (List.range 65) (fun l => State.updLnk l fun x =>
      { x with dn := 0, dx := 0, dy := 0, dxx := 0, dxy := 0, dy0 := 0 }) (s.onClr fun c => { c with driftStart := s.now })
    let s2 := s1.onClk fun k => { k with ref :=
      { k.ref with peers := satU 8 n, quorum := decide (3 ≤ n), quorumLost := decide (n < 3) } }
    if n < 3 then (if s.clk.ref.quorumLost then s2 else emitClk 0x1006 n 0 0 0 s2)
    else
      let d := medianI rates
      let s3 := (s2.onClk fun k => { k with ref :=
        { k.ref with driftPpm := satS 16 d, needDrift := k.ref.needDrift && decide (150 ≤ d.natAbs) } }).onClr
        fun c => { c with verAt := if d.natAbs < 1000 then some s.now else none }
      let s4 := driftAct d n s3
      if s.clk.ref.needDrift && !s3.clk.ref.needDrift && !s4.clk.ref.stable && decide (1024 ≤ s4.clk.ref.goodWin) then
        refStable s4
      else s4

/-- R98: DRIFT_MEASUREMENT. -/
def execDriftMeasurement (edges : List EdgeSample) (s : State) : Res := act (driftMeasure edges) s

end Sys2Proof.Machine
end

