-- ==== Sys2Proof/Machine/Clk.lean ====
section
/-!
DEFINITION. The clock commands: judgement windows, root changes and leaves (chapter 04).
-/
namespace Sys2Proof.Machine

/-- R95, R96, R97: a judgement window ends. A window inside counts towards stability; one outside is a loss of cause 3
while stable and otherwise restarts the count. -/
def refWindow (durPs : Nat) (s : State) : State :=
  let s1 := s.onClk fun k => { k with ref := { k.ref with freqKHz := windowKHz durPs } }
  if windowInside s.pwr.refsel durPs then
    let s2 := s1.onClk fun k => { k with ref := { k.ref with goodWin := satInc 16 k.ref.goodWin } }
    if !s.clk.ref.stable && decide (1024 ≤ s2.clk.ref.goodWin) && !s.clk.ref.needDrift then refStable s2 else s2
  else refBreak (refLossCore 3 0) s1

def execRefWindowEnd (durPs : Nat) (s : State) : Res := act (refWindow durPs) s

/-- R97 cause 1. -/
def execRefLoss (s : State) : Res := act (refBreak (refLossCore 1 0)) s

/-- R97 cause 2. -/
def execShortInterval (s : State) : Res := act (refBreak (refLossCore 2 0)) s

/-- Any configured cluster has a loop in AUTOMATIC (R104). -/
def State.anyAuto (s : State) : Bool := s.clusters.any fun c => !s.inManual c

/-- R116: a host root request, discarded with a status of Table 4.5 or kept waiting under R104. -/
def rootReq (n : Nat) (s : State) : State :=
  let res := fun (st : Nat) => s.onClk fun k => { k with root := { k.root with reqN := n, res := st } }
  if n < 160 ∨ 320 < n ∨ s.fuse.nMax < n then res 0x1020
  else if s.anyAuto then res 0x1021
  else if s.clk.root.pllFail || !s.clk.ref.present then res 0x1022
  else rootRequest n 2 (s.onClk fun k => { k with root := { k.root with reqN := n } })

def execRootReqGo (n : Fin 512) (s : State) : Res := hsEmu (rootReq n.val) s

def execRootChangeStart (s : State) : Res := act rootStart s

/-- R106 steps 2 and 5: every phase has moved to the timebase it was to take. -/
def execRootTimebaseMoved (s : State) : Res := act rootAdvance s

/-- R103, R106 step 4: the PLL has locked within 20 µs of the relock. -/
def pllLock (s : State) : State :=
  match s.clk.root.change with
  | some c =>
    if c.phase = 3 ∧ s.now ≤ c.relockStart + 20 * nsPerUs then
      let n := if c.retry then c.oldN else c.newN
      let s1 := s.onClk fun k => { k with root := { k.root with
        locked := true, held := false, nCur := n,
        change := some { c with phase := 4, lockTime := s.now - c.relockStart } } }
      let s2 := if c.kind = 1 ∨ (c.kind = 3 ∧ s.clk.root.failKind = 1) then s1.onPwr fun p => { p with step := max p.step 4 } else s1
      rootAdvance s2
    else s
  | none => s


/-- The relock of step 3 has not locked within 20 µs. -/
def relockLate (s : State) : Bool :=
  match s.clk.root.change with
  | some c => decide (c.phase = 3) && decide (c.relockStart + 20 * nsPerUs ≤ s.now)
  | none => false

/-- R107: relock to the old N with the guard dividers still in force. -/
def relockRetry (s : State) : State :=
  match s.clk.root.change with
  | some c =>
    if relockLate s && !c.retry && decide (c.kind ≠ 3) then
      (s.onClk fun k => { k with root := { k.root with change := some { c with retry := true, relockStart := s.now } } })
        |> emitClk 0x1011 c.newN 0 0 0
    else s
  | none => s

def execRelockRetry (s : State) : Res := act relockRetry s

/-- R107: the relock to the old N has failed as well. -/
def pllFailStep (s : State) : State :=
  match s.clk.root.change with
  | some c => if relockLate s && c.retry then pllFail s else s
  | none => s

def execPllFail (s : State) : Res := act pllFailStep s

/-- R107: every 100 ms after PLL_FAIL the old N is tried again, while the reference is present. -/
def pllRetry (s : State) : State :=
  let r := s.clk.root
  if r.pllFail && s.clk.ref.present && decide (r.failTime + 100 * nsPerMs ≤ s.now) then
    let tgt := r.nTgt
    let n := if r.nCur = 0 then s.bootN else r.nCur
    (rootLock 3 n n s).onClk fun k => { k with root := { k.root with failTime := s.now, nTgt := tgt } }
  else s

def execPllFailRetry (s : State) : Res := act pllRetry s

/-- R48: the length of a leaf's cycle in root cycles: D, and one more while it is extended. -/
def Dom.cycle (x : Dom) : Nat := x.cur + 1 + b2n x.ext

/-- R48: root cycles for which the output of a cycle is high: ⌊D/2⌋ whether or not the cycle is extended. -/
def Dom.high (x : Dom) : Nat := (x.cur + 1) / 2

/-- R113: the extended cycles that are complete since `extAt`: a root cycle lasts 20 / N ns. -/
def Dom.extDone (x : Dom) (n now : Nat) : Nat := (now - x.extAt) * n / (20 * x.cycle)

/-- R110: the leaf has applied the code, the stop or the start that was sent. An extension goes on across a change of
divider with the cycles it has left (R113). -/
def leafApply (d : Nat) (s : State) : State :=
  s.updDom d fun y =>
    let x := { y with cmdOpen := false }
    if x.stopSent then { x with stopped := true, stopSent := false, sent := none, ext := false, acked := true }
    else match x.sent with
      | some g => { x with cur := g, sent := none, acked := true,
                           extLeft := x.extLeft - (if x.ext then x.extDone s.clk.root.nCur s.now else 0), extAt := s.now }
      | none => x

/-- R120 step 2: with no reference majority the rails move to set 7 once every leaf has acknowledged. -/
def set7Advance (s : State) : State :=
  if s.sns.set7Wait && s.doms.all (fun d => (s.getDom d).sent = none && !(s.getDom d).stopSent) then
    let s1 := s.onSns fun n => { n with set7Wait := false }
    let zero := (s.railIds).filter fun r => s.bootSet 7 r = 0 ∧ (s.getProt r).running
    let s2 := forList s.railIds (fun r t =>
        if s.bootSet 7 r = 0 then t
        else retarget r (t.updReg r fun x =>
          { x with forced := some (s.bootSet 7 r), set7 := true, slew := min (t.railCfg r).slew (t.fuse.slewMax.getD r 0) })) s1
    let s3 := if zero = [] then s2
      else (forList zero stopClustersOf s2).onRail fun x =>
        { x with stops := x.stops ++ [{ rails := maskOf zero, fast := false, cause := 0 }] }
    setAlarm 5 s3 |> emitSns 0x2021 (s.sns.dev.getD 0 0) (s.sns.dev.getD 1 0) (s.sns.dev.getD 2 0) 0
  else s

/-- The reference, clusters and stops that wait for an acknowledgement go on (R106, R110, R120, R179). -/
def leafAck (d : Nat) (s : State) : State := rampDownLevels (set7Advance (rootAdvance (leafApply d s)))

def execLeafAck (d : DomId) (s : State) : Res := act (leafAck d.val) s

/-- R112: what fails a leaf: no acknowledgement within 1 µs of a command, or no `DMON` edge for 2 µs while its clock runs
(R47). -/
def leafDead (s : State) (d cause : Nat) : Bool :=
  let x := s.getDom d
  (s.domCfg d).present &&
    if cause = 0 then x.cmdOpen && decide (x.cmdAt + nsPerUs ≤ s.now)
    else !x.stopped && !s.clk.root.held && decide (x.cmdAt + 2 * nsPerUs ≤ s.now)

/-- R112: the leaf has failed: stop, ceilings 0 with STOP, alarm, LEAF_FAIL. A retry that fails leaves the leaf failed and
writes nothing. -/
def leafFail (d cause : Nat) (s : State) : State :=
  if !leafDead s d cause then s
  else if (s.getDom d).failed then
    if (s.getDom d).testing then
      (domStopNow d s).updDom d fun x => { x with testing := false, cmdOpen := false }
    else s
  else
    let s1 := (domStopNow d s).updDom d fun x =>
      { x with failed := true, failTime := s.now, testing := false, cmdOpen := false }
    let s2 := forList (s.domClusters d) (fun c t => cluStop c (t.updClu c fun x => { x with stopLeaf := true })) s1
    rampDownLevels (rootAdvance (setAlarm alLeafFail s2 |> emitClk 0x1031 d cause 0 0))

def execLeafFail (d : DomId) (cause : Fin 2) (s : State) : Res := act (leafFail d.val cause.val) s

/-- R112: every 100 ms, unless the root is held, the failed leaf is sent a stop and a start: its clock runs while it is
judged. -/
def leafRetry (d : Nat) (s : State) : State :=
  let x := s.getDom d
  if x.failed && !s.clk.root.held && decide (x.failTime + 100 * nsPerMs ≤ s.now) then
    domGo d (s.updDom d fun y => { y with testing := true, failTime := s.now, ext := false })
  else s

def execLeafRetry (d : DomId) (s : State) : Res := act (leafRetry d.val) s

/-- R112: the retried leaf has shown edges for 2 µs: restored; the domain keeps running, or is sent a stop at once where
another cause is to stop it. -/
def leafRestored (d : Nat) (s : State) : State :=
  if (s.getDom d).failed && (s.getDom d).testing && decide ((s.getDom d).failTime + 2 * nsPerUs ≤ s.now) then
    let s1 := s.updDom d fun x => { x with failed := false, testing := false }
    let s2 := forList (s.domClusters d) (fun c => State.updClu c fun x => { x with stopLeaf := false }) s1
    let s3 := forList (s.domClusters d) cluRestart s2
    (if domWanted s3 d then s3 else domStopNow d s3) |> emitClk 0x1032 d 0 0 0
  else s

def execLeafRestored (d : DomId) (s : State) : Res := act (leafRestored d.val) s

/-- R113, R127: a detector fires; its leaf starts or restarts an extension unless it is stopped. Code 0, and a
detector whose sensitivity could not be measured, do not fire. -/
def droopFire (k : Nat) (s : State) : State :=
  let g := s.detCfg k
  let x := s.getDet k
  if !g.present || x.calFail || decide (x.depth.getD g.depth = 0) then s
  else
    (s.updDet k fun y => { y with cnt := wrapInc 32 y.cnt, fires := y.fires + 1 }).updDom g.dom fun y =>
      if y.stopped then y
      else { y with ext := true, extCnt := wrapInc 64 y.extCnt, extLeft := (s.domCfg g.dom).k, extAt := s.now }

def execDroopFire (det : DetId) (s : State) : Res := act (droopFire det.val) s

/-- R113: the k-th extended cycle has ended; before it has, the extension goes on. -/
def extensionEnd (d : Nat) (s : State) : State :=
  s.updDom d fun x =>
    if x.ext && decide (x.extLeft ≤ x.extDone s.clk.root.nCur (s.now + 1)) then { x with ext := false, extLeft := 0 } else x

def execExtensionEnd (d : DomId) (s : State) : Res := act (extensionEnd d.val) s

end Sys2Proof.Machine
end

