-- ==== Sys2Proof/Machine/Sense.lean ====
section
/-!
DEFINITION. References, diode sites, rings, droop detectors, ageing monitors and the thermal trip (chapters 05 and 17).
-/
namespace Sys2Proof.Machine

/-- R122: the sample interval of a band, ns. -/
def bandNs (b : Nat) : Nat := if b = 2 then 2000 else if b = 1 then 10000 else 100000

/-- R122, R125: the interval at which a site is sampled: an excluded site every 100 µs, otherwise the faster of its own
band and those of the excluded or pausing sites that it is a neighbour of. -/
def siteInterval (s : State) (i : Nat) : Nat :=
  let x := s.getSite i
  if x.excl then 100000
  else (sitesWith s i).foldl (fun m k => if (s.getSite k).inService then m else min m (bandNs (s.getSite k).band)) (bandNs x.band)

/-- R121, R122: the sample command of a site is issued at its band interval. -/
def siteSample (i : Nat) (s : State) : State :=
  let x := s.getSite i
  if (s.siteCfg i).present && !x.ringFail && due s.now (siteInterval s i) x.lastCmd then
    s.updSite i fun y => { y with lastCmd := some s.now }
  else s

def execSiteSample (site : SiteId) (s : State) : Res := act (siteSample site.val) s

/-- R121: the calibrated temperature of a code, in 1/64 °C. -/
def siteTemp (g : SiteCfg) (code : Int) : Int :=
  satS 16 (divRound ((g.gain : Int) * code * 10 - 174816 * 32768 + g.offs * 327680) 327680)

/-- R125: one more sample that differs from the prediction; the third excludes the site. `p1` of SITE_EXCLUDED is the
measurement; a site without one reports −32768, the model's choice (log entry 70). -/
def siteDiffers (i : Nat) (pred : Int) (s : State) : State :=
  let n := (s.getSite i).diff + 1
  if n < 3 then s.updSite i fun x => { x with diff := n }
  else
    (s.updSite i fun x => { x with diff := 3, excl := true })
      |> emitSns 0x2002 i (encS 32 ((s.getSite i).meas.getD (-32768))) (encS 32 pred) 0

/-- R125: compare a sample with the prediction; none exists: the run neither grows nor ends. -/
def sitePlausible (i : Nat) (m : Option Int) (s : State) : State :=
  if (s.getSite i).excl then s
  else match s.sitePred i with
    | none => s
    | some p =>
      let far := match m with | none => true | some v => decide (512 < (v - p).natAbs)
      if far then siteDiffers i p s else s.updSite i fun x => { x with diff := 0 }

/-- R121: the midpoint of the conversion lies between the site's command and the result; the spec gives no conversion time, so
where it lies is a free value (log entry 4). -/
def siteStamp (i : Nat) (s : State) : State :=
  let t := (s.getSite i).lastCmd.getD s.now
  let m := t + Config.freeValue s.free % (s.now - t + 1)
  (s.updSite i fun y => { y with stamp := m }).drawn

/-- R121–R126: a site result arrives. The overranged sample and the next three are not used (R123). -/
def siteResult (i : Nat) (code : BitVec 16) (s0 : State) : State :=
  let g := s0.siteCfg i
  let x := s0.getSite i
  let s := oscComp i (siteStamp i s0)
  if !g.present || x.ringFail then s0
  else if code = 0x7FFF#16 then
    let s1 := s.updSite i fun y => { y with ovr := true, code := 0x7FFF, meas := none, pause := 3, wait := false }
    let s2 := if x.pause = 0 && !x.wait then emitSns 0x2001 i 0 0 0 s1 else s1
    siteChanged i (sitePlausible i none s2)
  else
    let v := siteTemp g code.toInt
    let used := decide (x.pause = 0) && !x.excl
    let s1 := s.updSite i fun y =>
      { y with ovr := false, code := code.toNat, meas := some v, pause := y.pause - 1, wait := decide (y.pause = 1),
               accepted := if used then (v :: y.accepted).take 4 else y.accepted }
    tapTemps i (siteChanged i (sitePlausible i (some v) s1))

def execSiteResult (site : SiteId) (code : BitVec 16) (s : State) : Res := act (siteResult site.val code) s

/-- R447: a rail is in PREPARE, RAMP_UP, ON or RAMP_DOWN. -/
def State.anyRunning (s : State) : Bool := s.railIds.any fun r => (s.getProt r).running

/-- R447, R450: the trip input of a site exceeds its limit: fast stop of all rails; the third trip within an hour
latches. The s16 temperatures stand sign-extended in the u32 parameters (log entry 69). -/
def thermTrip (i : Nat) (s : State) : State :=
  match tripInput s i with
  | none => s
  | some v =>
    let l := s.siteLimit i
    if (s.siteCfg i).present && decide (l < v) && s.anyRunning then
      let off := maskOf ((List.range 8).filter fun r => (s.getProt r).running)
      let trips := recentHour s.now s.aud.trips ++ [s.now]
      let third := decide (3 ≤ trips.length)
      let s1 := s.onAud fun a =>
        { a with trips := trips, tripActive := true, tripLatched := a.tripLatched || third, tripSite := i,
                 tripSubst := !(s.getSite i).inService, tripInput := v, tripTime := s.now, dwell := none }
      let s2 := frecTake 0xC020 0xFF 0xFF off i (encS 32 v) (encS 32 l) s1
      let s3 := emitTrip 0xC020 i (encS 32 v) (encS 32 l) trips.length s2
      let s4 := if third && !s.aud.tripLatched then setAlarm 18 s3 |> emitTrip 0xC022 i 0 0 0 else s3
      let s5 := match s4.aud.test with
        | some t => if t.kind = 2 ∨ t.kind = 4 then audAbandon 1 s4 else s4
        | none => s4
      fastStopAll 8 (forList s5.clusters cluStop s5)
    else s

def execThermTrip (site : SiteId) (s : State) : Res := act (thermTrip site.val) s

/-- R448: every trip input has stayed below L_s − 20 °C for 2 s; never while the trip is latched (R450). -/
def restartOk (s : State) : State :=
  let a := s.aud
  if a.tripActive && !a.tripLatched && (match a.dwell with | some t => decide (t + 2 * nsPerS ≤ s.now) | none => false) then
    (s.onAud fun b => { b with tripActive := false }) |> emitTrip 0xC021 (divRoundN (s.now - a.tripTime) nsPerMs) 0 0 0
  else s

def execThermRestartOk (s : State) : Res := act restartOk s

/-- Rings of a kind: 8 `TS_`, 16 `DD_`, 4 `AM_`. -/
def ringCount (kind : Nat) : Nat := if kind = 0 then 8 else if kind = 1 then 16 else 4

/-- Set or clear the ring failure of the macros of a ring at positions `lo` to `hi` − 1. -/
def ringMacros (kind ring lo hi : Nat) (bad : Bool) (s : State) : State :=
  if kind = 0 then
    forList (s.sites.filter fun i => (s.siteCfg i).ring = ring ∧ lo ≤ (s.siteCfg i).pos ∧ (s.siteCfg i).pos < hi)
      (fun i t =>
        let back := !bad && (t.getSite i).ringFail && !(t.getSite i).excl
        let t1 := siteChanged i (t.updSite i fun x => { x with ringFail := bad })
        if back then emitSns 0x2003 i 1 0 0 t1 else t1) s
  else if kind = 1 then
    forIdx 1024 (fun t k => (t.detCfg k).present && decide ((t.detCfg k).ring = ring ∧ lo ≤ (t.detCfg k).pos ∧ (t.detCfg k).pos < hi))
      (fun k => State.updDet k fun x => { x with ringFail := bad }) s
  else
    forIdx 160 (fun t k => (t.monCfg k).present && decide ((t.monCfg k).ring = ring ∧ lo ≤ (t.monCfg k).pos ∧ (t.monCfg k).pos < hi))
      (fun k => State.updMon k fun x => { x with ringFail := bad }) s

/-- Macros configured on a ring at positions `lo` to `hi` − 1. -/
def ringSize (s : State) (kind ring lo hi : Nat) : Nat :=
  if kind = 0 then (s.sites.filter fun i => (s.siteCfg i).ring = ring ∧ lo ≤ (s.siteCfg i).pos ∧ (s.siteCfg i).pos < hi).length
  else if kind = 1 then ((List.range 1024).filter fun k =>
    (s.detCfg k).present ∧ (s.detCfg k).ring = ring ∧ lo ≤ (s.detCfg k).pos ∧ (s.detCfg k).pos < hi).length
  else ((List.range 160).filter fun k =>
    (s.monCfg k).present ∧ (s.monCfg k).ring = ring ∧ lo ≤ (s.monCfg k).pos ∧ (s.monCfg k).pos < hi).length

/-- R51: a ring breaks at position `first`: that macro and all after it are failed sensors; `t` is when the ring is next
counted as tried. -/
def ringBreak (kind ring first : Nat) (s : State) : State :=
  let s1 := s.onSns fun n => { n with rings := Tbl.set none n.rings (16 * kind + ring) (some (first, s.now)) }
  ringMacros kind ring first 64 true s1 |> emitSns 0x2030 kind ring first 0

/-- R51: a ring has gone silent; on a ring that has failed already, a break nearer to the controller fails the macros
behind it as well. -/
def ringFail (kind ring first : Nat) (s : State) : State :=
  let nearer := match Tbl.get none s.sns.rings (16 * kind + ring) with
    | none => true
    | some (f, _) => decide (first < f)
  if ring < ringCount kind && nearer then ringBreak kind ring first s else s

def execRingFail (kind : Fin 3) (ring : Fin 16) (first : Fin 64) (s : State) : Res :=
  act (ringFail kind.val ring.val first.val) s

/-- R51: every 100 ms a failed ring is tried again; `stillFrom` is the first macro that still does not answer. -/
def ringRetry (kind ring : Nat) (stillFrom : Option Nat) (s : State) : State :=
  let k := 16 * kind + ring
  match Tbl.get none s.sns.rings k with
  | none => s
  | some (first, t) =>
    if s.now < t + 100 * nsPerMs then s
    else
      let hi := stillFrom.getD 64
      let s1 := s.onSns fun n =>
        { n with rings := Tbl.set none n.rings k (stillFrom.map fun f => (f, s.now)) }
      if hi < first then ringBreak kind ring hi s
      else if hi = first then s1
      else ringMacros kind ring first hi false s1 |> emitSns 0x2031 kind ring (ringSize s kind ring first hi) 0

def execRingRetry (kind : Fin 3) (ring : Fin 16) (answered : Option (Fin 64)) (s : State) : Res :=
  act (ringRetry kind.val ring.val (answered.map Fin.val)) s

/-- R118: two references deviate by more than 0.4 % of their mean. -/
def refFar (a b : Nat) : Bool := decide (a + b < 500 * (max a b - min a b))

/-- A deviation in 0.01 %, saturating at 2.55 % (Table 5.6). -/
def refDev (a b : Nat) : Nat := satU 8 (divRoundN (20000 * (max a b - min a b)) (a + b))

/-- Count a run: one more while the condition holds, else 0. -/
def runOf (n : Nat) (c : Bool) : Nat := if c then satInc 16 n else 0

/-- The mean of the references in service, or the median while there is no majority (R118, R120). -/
def refScale (excl : List Bool) (noMaj : Bool) (v : List Nat) : Nat :=
  if noMaj then
    let a := v.getD 0 0; let b := v.getD 1 0; let c := v.getD 2 0
    max (min a b) (min (max a b) c)
  else meanN ((List.range 3).filterMap fun k => if excl.getD k false then none else v[k]?)

/-- R119: exclude a reference. -/
def refExclude (k : Nat) (s : State) : State :=
  let d := s.sns.dev
  setAlarm 4 (s.onSns fun n => { n with excl := n.excl.set k true, bcastDue := true, noMajRun := 0 })
    |> emitSns 0x2020 k (d.getD 0 0) (d.getD 1 0) (d.getD 2 0)

/-- R118–R120: one comparison of the three references. A change of the references in service scales from the next comparison
on (R119). While there is no majority no run towards an exclusion is counted (log entry 77). -/
def refCompare (a b c : Nat) (s : State) : State :=
  let ab := refFar a b; let ac := refFar a c; let bc := refFar b c
  let n := s.sns
  let none_ := n.excl.all fun e => !e
  -- reference k deviates from both others while those agree
  let alone : List Bool := [ab && ac && !bc, ab && bc && !ac, ac && bc && !ab]
  -- the pair that remains in service when one is excluded
  let pair := if n.excl.getD 0 false then bc else if n.excl.getD 1 false then ac else ab
  let bad := if none_ then ab && ac && bc else pair
  let inS := fun (k : Nat) => !n.excl.getD k false
  let s1 := s.onSns fun x =>
    { x with dev := [refDev a b, refDev a c, refDev b c],
             exclRun := (List.range 3).map fun k => runOf (x.exclRun.getD k 0) (none_ && !x.noMaj && alone.getD k false),
             noMajRun := runOf x.noMajRun (!x.noMaj && bad),
             agree := [runOf (x.agree.getD 0 0) (!ab && inS 0 && inS 1), runOf (x.agree.getD 1 0) (!ac && inS 0 && inS 2),
                       runOf (x.agree.getD 2 0) (!bc && inS 1 && inS 2)] }
  let s2 := match (List.range 3).find? fun k => 3 ≤ s1.sns.exclRun.getD k 0 ∧ !s1.sns.excl.getD k false with
    | some k => refExclude k s1
    | none => s1
  let s3 := if !s2.sns.noMaj && decide (3 ≤ s2.sns.noMajRun) then
      rampDownLevels (set7Advance (noMajorityStep1 (s2.onSns fun x => { x with noMaj := true, set7Wait := true, bcastDue := true })))
    else s2
  s3.onSns fun x => { x with scale := refScale n.excl x.noMaj [a, b, c] }

def execRefCompare (a b stack : Nat) (s : State) : Res := act (refCompare a b stack) s

/-- R118: the reference broadcast, every 100 ms and after every change of the references in service. -/
def refBroadcast (s : State) : State :=
  if s.sns.bcastDue || decide (s.sns.bcast + 100 * nsPerMs ≤ s.now) then
    s.onSns fun n => { n with bcast := s.now, bcastDue := false, siteScale := n.scale }
  else s

def execRefBroadcast (s : State) : Res := act refBroadcast s

/-- R128: fire counts and deepest steps are read; a detector whose ring has failed contributes none. -/
def ddRead (deepest : List (Nat × Nat)) (s : State) : State :=
  forIdx 1024 (fun t k => (t.detCfg k).present && !(t.getDet k).ringFail)
    (fun k => State.updDet k fun x =>
      { x with deep := Tbl.get 0 deepest k, frame := x.frame + x.fires, fires := 0 }) s

def execDdRead (deepest : List (DetId × Fin 64)) (s : State) : Res :=
  act (ddRead (deepest.map fun e => (e.1.val, e.2.val))) s

/-- R129: a tap rewrite is complete; at a hardware start, a sensitivity that cannot be measured disables the threshold. -/
def tapRewrite (k : Nat) (tap : Option Nat) (s : State) : State :=
  let x := s.getDet k
  let t := (s.siteUsed (s.detCfg k).site).getD 0
  if !(s.detCfg k).present || decide (x.pend = 0) then s
  else match tap with
    | some v => s.updDet k fun y => { y with tap := v, pend := 0, tempAt := t, calFail := y.calFail && decide (x.pend = 1) }
    | none =>
      if x.pend = 2 then (s.updDet k fun y => { y with pend := 0, calFail := true }) |> emitSns 0x2040 k 0 0 0 else s

def execDdTapRewrite (det : DetId) (tap : Option (Fin 256)) (s : State) : Res :=
  act (tapRewrite det.val (tap.map Fin.val)) s

/-- R127, R129: a write of `SNS_DD_CTRL.DEPTH` on the selected detector. -/
def depthWrite (d : Nat) (s : State) : State :=
  let k := s.sns.detSel
  if (s.detCfg k).present then s.updDet k fun x => { x with depth := some d, pend := max x.pend 1 } else s

def execDdDepthWrite (depth : Fin 64) (s : State) : Res := hsEmu (depthWrite depth.val) s

/-- R130: the mean of the last measurements of a monitor; none without a baseline. -/
def Mon.slow (x : Mon) : Option Int := if x.base.isSome ∧ x.meas ≠ [] then some (satS 32 (meanI x.meas)) else none

/-- R130, R131: a monitor is measured: the change of its path-delay ratio against its baseline. -/
def amMeasure (k ratio : Nat) (s : State) : State :=
  let x := s.getMon k
  if !(s.monCfg k).present || x.ringFail then s
  else match x.base with
    | some b =>
      let ppm := if b = 0 then 0 else divRound (((ratio : Int) - b) * 1000000) b
      s.updMon k fun y => { y with ratio := ratio, meas := (ppm :: y.meas).take 64 }
    | none =>
      let s1 := s.updMon k fun y => { y with ratio := ratio, noBaseRec := true }
      if x.noBaseRec then s1 else emitSns 0x2041 k 0 0 0 s1

def execAmMeasure (mon : MonId) (ratio : Nat) (s : State) : Res := act (amMeasure mon.val ratio) s

end Sys2Proof.Machine
end

