-- ==== Sys2Proof/Machine/Aud.lean ====
section
/-!
DEFINITION. Audit and test access (chapter 17): units taken out, tested and returned, the automatic schedule, and the
instructions of the TAP and of the wrapper.
-/
namespace Sys2Proof.Machine

/-- R451: the unit exists and is configured. -/
def State.audPresent (s : State) (kind i : Nat) : Bool :=
  match kind with
  | 0 => decide (i < 9)
  | 1 => decide (i < 32) && (s.cluCfg i).present
  | 2 => if i < 8 then (s.railCfg i).present
         else if 16 ≤ i ∧ i < 32 then (List.range 8).any fun k => (s.phCfg (8 * (i - 16) + k)).present
         else if 32 ≤ i ∧ i < 36 then (List.range 32).any fun k => (s.phCfg (32 * (i - 32) + k)).present
         else false
  | 3 => decide (i < 512) && (s.siteCfg i).present
  | 4 => decide (i < 128) && (s.phCfg i).present && decide ((s.getPh i).st ≠ 0)
  | 5 => decide (i < 65)
  | _ => false

/-- A unit is out by a fault outside Audit (Table 17.2). -/
def State.faultOut (s : State) (kind i : Nat) : Bool :=
  match kind with
  | 0 => s.tly.cube.getD i 3 = 3
  | 1 => (s.getFwCore i).st = 5
  | 3 => (s.getSite i).excl
  | _ => false

/-- R452: the state of a unit, by the codes of Table 17.2. -/
def State.audState (s : State) (kind i : Nat) : Nat :=
  let st := (s.getUnit (audIdx kind i)).st
  if !s.audPresent kind i then 6 else if st ≠ 0 then st else if s.faultOut kind i then 5 else 0

/-- A unit of a kind other than `i` is HELD, TESTING, PASSED or FAILED (R452). -/
def State.kindOut (s : State) (kind i : Nat) : Bool :=
  s.aud.unit.any fun e => decide (e.1 / 1024 = kind) && decide (e.1 ≠ audIdx kind i) && decide (e.2.st ≠ 0)

/-- The phases that a unit of kind 2 or 4 takes away. -/
def audPhases (kind i : Nat) : List Nat :=
  if kind = 4 then [i] else if kind = 2 ∧ 16 ≤ i ∧ i < 32 then (List.range 8).map (8 * (i - 16) + ·) else []

/-- The phases of a unit that are not disabled or unusable already. -/
def State.audTaken (s : State) (kind i : Nat) : List Nat :=
  (audPhases kind i).filter fun p => (s.phCfg p).present && (s.getPh p).usable && decide ((s.getPh p).st ≠ 0)

/-- R454: every rail that loses phases keeps enough. -/
def State.audCapacity (s : State) (kind i : Nat) : Bool :=
  let l := s.audTaken kind i
  (List.range 8).all fun r =>
    let lost := (l.filter fun p => (s.phCfg p).rail = r).length
    let x := (s.getReg r).shed
    let need := max (s.railCfg r).nreq (max x.nmin (max (ceilDiv (s.iMean r) x.iAdd) (ceilDiv (s.getMeas r).iFc x.iAdd)))
    lost = 0 || decide (need + lost ≤ (s.usablePhases r).length)

/-- R415: the partner of Teller `i` runs and covers no Teller yet. -/
def State.partnerFree (s : State) (i : Nat) : Bool :=
  let p := Tbl.get 0xFF s.cfg.partner i
  decide (p < 32) && decide (p ≠ i) && decide ((s.getFwCore p).st = 1 ∨ (s.getFwCore p).st = 2) &&
    (List.range 32).all fun k => k = i || Tbl.get 0xFF s.cfg.partner k ≠ p ||
      ((s.getFwCore k).st ≠ 4 && (s.getFwCore k).st ≠ 5)

/-- Table 17.3: why a unit in IN_SERVICE may not be taken out; 0 when it may. -/
def State.outRefused (s : State) (kind i : Nat) (force : Bool) : Nat :=
  match kind with
  | 0 => if s.tly.cube.getD i 3 = 0 ∧ !s.tly.cube.contains 1 ∧ !force then 0xC005 else 0
  | 1 => if s.partnerFree i then 0 else 0xC006
  | 2 | 4 =>
    if kind = 4 ∧ !(s.getPh i).usable then 0xC003 else if s.audCapacity kind i then 0 else 0xC004
  | 5 => if (s.getLnk i).st = 2 then 0 else 0xC003
  | _ => 0

/-- A rail voltage ADC is never out (Table 17.3). -/
def neverOut (kind i : Nat) : Bool := decide (kind = 2) && decide (i < 8)

/-- Table 17.3: what taking a unit out does. -/
def unitOut (kind i : Nat) (s : State) : State :=
  match kind with
  | 0 =>
    s.onTly fun t => { t with swap := if t.cube.getD i 3 = 0 then t.swap ++ [i] else t.swap, cube := t.cube.set i 2 }
  | 1 => presetLoops i (s.updFwCore i fun x => { x with st := 4, moveFrom := s.frm.count + 1 })
  | 3 => siteChanged i (s.updSite i fun x => { x with excl := true, diff := 0 })
  | 5 => returnAll i 0 s
  | _ =>
    let l := s.audTaken kind i
    let s1 := forList l (fun p => State.updPh p fun x => { x with st := 5, pen := false, pwm := false, joinAt := none }) s
    forList ((List.range 8).filter fun r => l.any fun p => (s.phCfg p).rail = r) shedUpdate s1

/-- Take a unit in IN_SERVICE out (R453): its own state, and AUD_OUT. -/
def audOut (kind i : Nat) (auto : Bool) (s : State) : State :=
  if neverOut kind i then s
  else
    ((unitOut kind i s).updUnit (audIdx kind i) fun u => { u with st := 1 })
    |> emitClerk 0xC010 kind i (b2n auto) 0

/-- The checks of AUD_TEST and AUD_REMOVE in order: kind, the limits of R452, state, and the row of Table 17.3. -/
def audCheck (kind i : Nat) (force remove : Bool) (s : State) : Nat :=
  let st := s.audState kind i
  if st = 6 then 0xC001
  else if s.aud.test.isSome || s.kindOut kind i then 0xC002
  else if remove ∧ (st ≠ 0 ∨ neverOut kind i) then 0xC003
  else if st = 0 then s.outRefused kind i force
  else 0

/-- Begin a test (R453); a unit out by a fault is taken over by Audit. -/
def audBegin (kind i : Nat) (auto ret : Bool) (h : Option DescHdr) (s : State) : State :=
  let st := s.audState kind i
  let s1 := if st = 0 then audOut kind i auto s
    else if st = 5 then
      if kind = 0 then s.onTly fun t => { t with cube := t.cube.set i 2 }
      else if kind = 1 then s.updFwCore i fun x => { x with st := 4 } else s
    else s
  (s1.updUnit (audIdx kind i) fun u => { u with st := 2, auto := auto }).onAud fun a =>
    { a with test := some { kind := kind, idx := i, auto := auto, ret := ret, began := s.now, wasFault := decide (st = 5), hdr := h } }

/-- R453: AUD_TEST. -/
def descAudTest : DescSpec := { opcode := 0x00B0 }
def bodyAudTest (h : DescHdr) (kind i : Nat) (ret force : Bool) (s : State) : DescOut :=
  let st := audCheck kind i force false s
  if st ≠ 0 then .fail st s else .wait (audBegin kind i false ret (some h) s)
def execAudTest (h : DescHdr) (kind index : Nat) (ret force : Bool) (s : State) : Res :=
  act (runDesc h descAudTest (bodyAudTest h kind index ret force)) s

/-- R453: AUD_REMOVE; `RETURN` must be 0. -/
def descAudRemove : DescSpec := { opcode := 0x00B1 }
def bodyAudRemove (kind i : Nat) (ret force : Bool) (s : State) : DescOut :=
  let st := audCheck kind i force true s
  if ret then .fail 0x9009 s
  else if st ≠ 0 then .fail st s
  else .done 0 0 (audOut kind i false s)
def execAudRemove (h : DescHdr) (kind index : Nat) (ret force : Bool) (s : State) : Res :=
  act (runDesc h descAudRemove (bodyAudRemove kind index ret force)) s

/-- Table 17.3: what returning a unit does. -/
def unitBack (kind i : Nat) (s : State) : State :=
  match kind with
  | 0 => s.onTly fun t =>
      { t with cube := t.cube.set i 1, rejoin := if t.nact < 8 then t.rejoin ++ [i] else t.rejoin,
               swap := t.swap.filter (· ≠ i) }
  | 1 => presetLoops i (s.updFwCore i fun x => { x with st := 1, moveFrom := s.frm.count + 1 })
  | 3 => (siteChanged i (s.updSite i fun x => { x with excl := false, diff := 0 })) |> emitSns 0x2003 i 0 0 0
  | _ =>
    forList ((audPhases kind i).filter fun p => (s.getPh p).st = 5)
      (fun p => State.updPh p fun x => { x with st := 4 }) s

/-- R453: a unit is returned to service. -/
def audBack (kind i : Nat) (s : State) : State :=
  ((unitBack kind i s).updUnit (audIdx kind i) fun u => { u with st := 0 }) |> emitClerk 0xC013 kind i 0 0

/-- R453: AUD_RETURN. -/
def descAudReturn : DescSpec := { opcode := 0x00B2 }
def bodyAudReturn (kind i : Nat) (s : State) : DescOut :=
  match s.audState kind i with
  | 6 => .fail 0xC001 s
  | 0 | 2 => .fail 0xC003 s
  | 3 => .done 0 0 (audBack kind i s)
  | _ => .fail 0xC007 s
def execAudReturn (h : DescHdr) (kind index : Nat) (s : State) : Res :=
  act (runDesc h descAudReturn (bodyAudReturn kind index)) s

/-- R453: the test in progress ends; `fail` carries the failing check and the measured value. -/
def audDone (fail : Option (Nat × Nat)) (s : State) : State :=
  match s.aud.test with
  | none => s
  | some t =>
    let k := audIdx t.kind t.idx
    let code := if fail.isNone then 0xC011 else 0xC012
    let s1 := (s.onAud fun a =>
        { a with test := none, lastCode := code, lastKind := t.kind, lastIdx := t.idx,
                 pass := if fail.isNone then satInc 16 a.pass else a.pass,
                 fail := if fail.isNone then a.fail else satInc 16 a.fail }).updUnit k fun u =>
      { u with st := if fail.isSome then 4 else if neverOut t.kind t.idx then 0 else 3, last := code, endT := s.now }
    let s2 := match fail with
      | none =>
        let s3 := emitClerk 0xC011 t.kind t.idx (s.now - t.began) 0 s1
        if t.ret && !neverOut t.kind t.idx then audBack t.kind t.idx s3 else s3
      | some (c, v) => setAlarm 17 (emitClerk 0xC012 t.kind t.idx c v s1)
    match t.hdr with
    | some h => complete h 0x00B0 0 (if fail.isNone then 0 else 0xC012) s2
    | none => s2

/-- R453: AUD_TEST_DONE. -/
def execAudTestDone (fail : Option (Nat × Nat)) (s : State) : Res := act (audDone fail) s

/-- The units of the kinds enabled for automatic Audit, in order, as 1,024 · KIND + INDEX. -/
def State.schedUnits (s : State) : List Nat :=
  (maskIdx 4 s.aud.kinds).flatMap fun k => ((List.range 512).filter fun i => s.audPresent k i).map (audIdx k)

/-- The unit that automatic Audit tests next: the first after the last one, or the first of all. -/
def State.schedNext (s : State) : Option Nat :=
  let l := s.schedUnits
  match s.aud.schedAt with
  | none => l.head?
  | some u => ((l.filter fun v => decide (u < v)).head?).or l.head?

/-- R455: automatic Audit; a test that is refused or meets another is skipped until the next period. -/
def audSchedule (s : State) : State :=
  if !s.fwUp || decide (s.aud.kinds = 0) || decide (s.now < s.aud.schedTime + s.aud.period * nsPerS) then s
  else
    let s0 := s.onAud fun a => { a with schedTime := s.now }
    match s.schedNext with
    | none => s0
    | some u =>
      let s1 := s0.onAud fun a => { a with schedAt := some u }
      if audCheck (u / 1024) (u % 1024) false false s1 ≠ 0 then s1 else audBegin (u / 1024) (u % 1024) true true none s1

/-- R455: AUD_SCHEDULE. -/
def execAudSchedule (s : State) : Res := act audSchedule s

/-- R455, R464: a write of `AUD_SCHED`. -/
def audSchedWrite (v : Nat) (s : State) : State :=
  if bits v 4 2 ≠ 0 ∨ bits v 16 16 = 0 then s.onAud fun a => { a with res := 0xC008 }
  else s.onAud fun a => { a with kinds := bits v 0 4, period := bits v 16 16, schedTime := s.now, res := 0 }

/-- R455: AUD_SCHED_WRITE. -/
def execAudSchedWrite (v : Word) (s : State) : Res := hsEmu (audSchedWrite v.toNat) s

/-- R464: clear the passes and failures. -/
def audClr (s : State) : State := s.onAud fun a => { a with pass := 0, fail := 0 }

/-- R464: an accepted write leaves 0x0000 in `AUD_RES`. -/
def audResOk (s : State) : State := s.onAud fun a => { a with res := 0 }

/-- R464: AUD_CTRL_CLR. -/
def execAudCtrlClr (s : State) : Res := hsEmu (fun t => audResOk (audClr t)) s

/-- Every rail is OFF, FAULT or LATCHED (R67, R460, R461). -/
def State.railsDown (s : State) : Bool :=
  s.railIds.all fun r => let st := (s.getProt r).st; st = 0 || st = 5 || st = 7

/-- The test ports need power only (R459, R461). -/
def actTest (f : State → State) (s : State) : Res := .next (if s.pwr.vaon && s.pwr.vio then f s else s)

/-- R459: the IDCODE of the TAP. -/
def idcode : Nat := 4 * 2 ^ 28 + 0x0940 * 2 ^ 12 + Config.jep106 % 2 ^ 11 * 2 + 1

/-- An instruction that leaves the pads under mission logic is in force (Table 17.6). -/
def tapMission (code dr : Nat) (s : State) : State := s.onAud fun a => { a with tapIr := code, padHold := false, tdr := dr }

/-- R460: an instruction that takes the pads, or is blocked while a rail is enabled; CLAMP and HIGHZ select the bypass register
(Table 17.6). -/
def tapPads (code : Nat) (s0 : State) : State :=
  let s := if code = 0 then s0 else s0.onAud fun a => { a with tdr := 0 }
  if s.railsDown then s.onAud fun a => { a with tapIr := code, padHold := true }
  else (s.onAud fun a => { a with tapIr := code, padHold := false, blocked := satInc 16 a.blocked }) |> emitRail 0xC030 code 0 0 0

/-- R459, R460: EXTEST, IDCODE, SAMPLE/PRELOAD, CLAMP, HIGHZ and BYPASS. -/
def execExtest (s : State) : Res := actTest (tapPads 0) s
def execIdcode (s : State) : Res := actTest (tapMission 1 idcode) s
def execSamplePreload (s : State) : Res := actTest (fun t => tapMission 2 t.aud.tdr t) s
def execClamp (s : State) : Res := actTest (tapPads 4) s
def execHighz (s : State) : Res := actTest (tapPads 5) s
def execBypass (s : State) : Res := actTest (tapMission 15 0) s

/-- R462: the result of the memory test. -/
def State.mbistWord (s : State) : Nat := s.aud.mbistFail % 2 ^ 8 + b2n s.aud.mbistDone * 2 ^ 16 + b2n s.aud.mbistBusy * 2 ^ 17

/-- R461: an instruction that may run while a rail is enabled. -/
def wrapSafe (code dr : Nat) (s : State) : State := s.onAud fun a => { a with wir := code, wdr := dr }

/-- R461, R463: an instruction that may not: refused with WS_BYPASS loaded, or the block is held until a cold reset with
every `PEN` low and every domain clock stopped. -/
def wrapHold (code : Nat) (f : Audit → Audit) (s : State) : State :=
  if s.railsDown then
    let s1 := forList s.doms domStopNow (forList (List.range 128) phOff s)
    (s1.onAud fun a => f { a with wir := code }).onPwr fun p => { p with testHold := true }
  else (s.onAud fun a => { a with wir := 0, wdr := 0 }) |> emitRail 0xC031 code 0 0 0

/-- R461 to R463: the wrapper's instructions. -/
def execWsBypass (s : State) : Res := actTest (wrapSafe 0 0) s
def execWsIdcode (s : State) : Res := actTest (wrapSafe 1 idcode) s
def execMbistRead (s : State) : Res := actTest (fun t => wrapSafe 2 t.mbistWord t) s
def execWsSafe (s : State) : Res := actTest (wrapHold 4 id) s
def execWsExtest (s : State) : Res := actTest (wrapHold 5 id) s
def execWsIntestScan (s : State) : Res := actTest (wrapHold 6 id) s
def execMbistRun (s : State) : Res :=
  actTest (wrapHold 8 fun a => { a with mbistBusy := true, mbistDone := false, mbistFail := 0 }) s

/-- R462: the memory test completes. -/
def mbistDone (fail : Nat) (s : State) : State :=
  if s.aud.mbistBusy then s.onAud fun a => { a with mbistBusy := false, mbistDone := true, mbistFail := fail } else s

/-- R462: MBIST_DONE. -/
def execMbistDone (fail : Fin 256) (s : State) : Res := actTest (mbistDone fail.val) s

end Sys2Proof.Machine
end

