-- ==== Sys2Proof/Machine/Image.lean ====
section
/-!
DEFINITION. Words that the block shows to readers: registers of the telemetry space, object and waiter words, sweeps of
the capture, Ledger records, the telemetry record of a context (chapters 09, 11, 12, 14, 15).
-/
namespace Sys2Proof.Machine

/-- The two 32-bit words of a 64-bit value. -/
def words64 (n : Nat) : List Nat := [n % 2 ^ 32, n / 2 ^ 32 % 2 ^ 32]

/-- `RAIL_TEL_V`, `RAIL_TEL_IP`, `RAIL_TEL_PK`, `RAIL_TEL_CNT` of a rail. -/
def railWords (s : State) (r : Nat) : List Nat :=
  let m := s.getMeas r
  [satU 16 m.telMean + satU 16 m.telLow * 2 ^ 16, satU 16 m.telI + satU 16 m.telP * 2 ^ 16,
   satU 16 m.iPk + satU 16 m.pPk * 2 ^ 16, satU 16 m.brkCnt + satU 16 m.nlCnt * 2 ^ 16]

/-- `LOOP_CL_STAT` of a cluster. -/
def cluStat (s : State) (c : Nat) : Nat :=
  let x := s.getClu c
  x.level % 256 + x.w / 256 % 256 * 2 ^ 8 + x.wloop % 8 * 2 ^ 16 + x.st * 2 ^ 19 + b2n (s.getBack c).active * 2 ^ 21 +
    b2n x.cpLate.isSome * 2 ^ 22 + b2n x.overload * 2 ^ 23 + b2n x.tripPend.isSome * 2 ^ 24 + b2n x.slopeAct * 2 ^ 25 +
    b2n (s.inManual c) * 2 ^ 26 + b2n x.dpend * 2 ^ 27

/-- `LOOP_CL_STAT`, `LOOP_CL_OUT`, `TRS_CL_SHARE`, `TRS_CL_THR` of a cluster. -/
def cluWords (s : State) (c : Nat) : List Nat :=
  if !(s.cluCfg c).present then [0, 0, 0, 0]
  else
    let x := s.getClu c
    [cluStat s c, satU 16 x.vreq + x.div % 64 * 2 ^ 16 + x.ceil % 256 * 2 ^ 24,
     satU 16 ((s.getLp c 0).tgt.getD 0) + satU 16 ((s.getLp c 1).tgt.getD 0) * 2 ^ 16,
     (s.getTrsCl c).reasons % 2 ^ 12 + b2n (s.getTrsCl c).preempt * 2 ^ 16]

/-- R392: the telemetry space outside the capture, as it stands now: 168 words. -/
def telemImage (s : State) : List Nat :=
  (List.range 8).flatMap (railWords s) ++ (List.range 32).flatMap (cluWords s) ++ words64 s.now ++
    [satU 16 s.trs.pPkg + satU 16 s.trs.alloc * 2 ^ 16, satU 16 s.ceff + satU 16 s.trs.commit * 2 ^ 16] ++
    words64 s.trs.energy ++
    [satU 32 (divRoundN s.trs.od 16), satU 16 s.syn.waitfRound + satU 16 s.syn.waitfFrame * 2 ^ 16]

/-- `SYN_OBJ_STAT` of an object (R394). -/
def objStat (s : State) (o : Nat) : Nat :=
  let x := s.getObj o
  (if x.count then x.value % 2 ^ 16 else b2n x.level) + (if x.count then 0 else x.gen % 16 * 2 ^ 16) + b2n x.count * 2 ^ 20 +
    b2n x.poison * 2 ^ 21 + b2n (s.groupOf o).isSome * 2 ^ 22 + Tbl.get 0 s.syn.own (o / 64) % 512 * 2 ^ 23

/-- `SYN_WTR_OBJ` of a waiter entry. -/
def wtrObj (s : State) (w : Nat) : Nat :=
  match s.waiter w with
  | none => 0
  | some x => x.obj % 2 ^ 13 + 2 ^ 13 + x.op % 16 * 2 ^ 14 + x.tmo % 4 * 2 ^ 18 + b2n x.mode * 2 ^ 20 + x.ctx % 512 * 2 ^ 22

/-- R393: the entry of a phase in a sweep. -/
def sweepEntry (s : State) (p : Nat) : Nat :=
  if !(s.phCfg p).present then 0
  else
    let x := s.getPh p
    satU 16 x.i + b2n x.ovr * 2 ^ 16 + b2n x.novr * 2 ^ 17 + b2n x.neg * 2 ^ 18 + b2n x.rep * 2 ^ 19 +
      b2n (x.st = 2 || x.st = 3) * 2 ^ 20

/-- Word `i` of the capture: sweep 0 is the oldest of the 256 held; a sweep not yet taken reads zeros. -/
def captureWord (s : State) (i : Nat) : Nat :=
  let n := s.dma.sweeps.length
  let k := i / 128
  if k + n < 256 then 0 else Tbl.get 0 (s.dma.sweeps.getD (k + n - 256) []) (i % 128)

/-- The words of a Ledger record (Table 15.7). -/
def ldgWords (r : LRec) (bad : Bool) : List Nat :=
  [r.code % 2 ^ 16 + (b2n r.hold + 2 * b2n r.lost + 4 * b2n bad) * 2 ^ 16 + r.source % 256 * 2 ^ 24, r.seq % 2 ^ 32] ++
    words64 r.time ++ [r.p0, r.p1, r.p2, r.p3].map (· % 2 ^ 32)

/-- R380: the telemetry record of a context, 16 words (Table 14.6). -/
def ctxTelem (s : State) (t : Nat) : List Nat :=
  let x := s.getTx t
  let h := s.getHx t
  let cs := maskIdx 32 (s.maskClus (s.txCores t))
  let lv := cs.map fun c => (s.getClu c).level
  let flags := b2n s.tb.hold + 2 * b2n x.suspended + 4 * b2n (decide (x.credit < 0)) + 8 * b2n (decide (x.breach ≠ 0)) +
    16 * b2n (s.distrusted t)
  words64 s.now ++
    [x.epoch % 2 ^ 16 + flags * 2 ^ 16, x.floor % 256 + x.cls % 256 * 2 ^ 8 + x.grant % 256 * 2 ^ 16,
     satU 16 x.budget + satU 16 x.entitle * 2 ^ 16, encS 32 (satS 32 x.credit)] ++
    words64 x.flt ++
    [maskOf cs, cs.foldl (fun m c => Nat.lor m (s.getTrsCl c).reasons) 0 % 2 ^ 16 +
        (match lv with | [] => 0 | a :: l => l.foldl min a % 256) * 2 ^ 16 + lv.foldl max 0 % 256 * 2 ^ 24,
     satU 8 h.missFrac, satU 32 (s.getCtx t).waitsFailed, 0, 0, 0, 0]

end Sys2Proof.Machine
end

