-- ==== Sys2Proof/Machine/DmaOps.lean ====
section
/-!
DEFINITION. The DMA engine's transfers and Ledger's store: checks, moves, completion (chapter 15).
-/
namespace Sys2Proof.Machine

/-- Bytes of an element. -/
def esz (o : XferOp) : Nat := 2 ^ o.esize

/-- Bytes of an address space (R391): 0 HOST, 1 TELEM, 2 SYNC. -/
def spaceSize (sp : Nat) : Nat := if sp = 0 then 2 ^ 64 else if sp = 1 then 0x202A0 else 32768

/-- Extent of the source and of the destination of a transfer in bytes; a table side has none that is fixed (R396). -/
def srcExtent (o : XferOp) : Nat :=
  if o.mode = 1 then 0 else if o.mode = 4 then o.nch * o.pstride else o.count * esz o
def dstExtent (o : XferOp) : Nat :=
  if o.mode = 2 then 0 else if o.mode = 3 then o.nch * o.pstride else o.count * esz o

/-- Destination bytes of one transfer, the table included: what a stream buffer must hold. -/
def dstSpan (o : XferOp) (t : List Nat) : Nat :=
  if o.mode = 2 then t.foldl (fun m x => max m (x + esz o)) 0 else dstExtent o

/-- Check 1 of Table 15.5. -/
def xferMode (stream : Bool) (o : XferOp) : Bool :=
  decide (o.mode ≤ 5) && decide (2 ≤ o.esize) && decide (o.esize ≤ 6) &&
    (o.mode = 1 || o.mode = 2 || o.table = 0) && (o.mode = 3 || o.mode = 4 || (o.nch = 0 && o.pstride = 0)) &&
    (stream || (o.chan = 0 && o.periodUs = 0 && o.nbuf = 0 && !o.stop && o.bstride = 0)) && (o.mode ≠ 5 || o.esize = 2)

/-- Check 3 of Table 15.5. -/
def xferRange (stream : Bool) (o : XferOp) : Bool :=
  let lim := match o.mode with
    | 0 => decide (o.count * esz o ≤ 2 ^ 24)
    | 1 => decide (o.count ≤ 4096)
    | 2 => decide (o.count ≤ 4096)
    | 5 => decide (o.count % 32 = 0)
    | _ => decide (2 ≤ o.nch) && decide (o.nch ≤ 128) && decide (o.count % o.nch = 0) &&
        decide (o.count / o.nch * esz o ≤ o.pstride)
  let span := if stream then o.nbuf * o.bstride else dstExtent o
  lim && decide (o.src + srcExtent o ≤ spaceSize o.srcSpace) && decide (o.dst + span ≤ spaceSize 0) &&
    (!stream || (decide (10 ≤ o.periodUs) && decide (o.periodUs ≤ 1000000) && decide (1 ≤ o.nbuf) && decide (o.nbuf ≤ 256) &&
      decide (dstExtent o + 16 ≤ o.bstride)))

/-- Check 5 of Table 15.5. -/
def xferAlign (o : XferOp) : Bool :=
  decide (o.src % 16 = 0) && decide (o.dst % 16 = 0) && decide (o.table % 16 = 0) && decide (o.pstride % 16 = 0) &&
    decide (o.bstride % 16 = 0) && (o.mode = 1 || o.mode = 2 || decide (o.count * esz o % 16 = 0))

/-- The offset table from its bytes. -/
def xferTable (o : XferOp) (b : List Nat) : List Nat := (List.range o.count).map fun i => leNat ((b.drop (4 * i)).take 4)

/-- The table as check 6 of Table 15.5 needs it: the status, and the offsets. -/
def xferLoad (stream : Bool) (o : XferOp) (data : Option (List Nat)) : Nat × List Nat :=
  if o.mode ≠ 1 ∧ o.mode ≠ 2 then (0, [])
  else match data with
    | none => (0x9006, [])
    | some b =>
      let t := xferTable o b
      let base := if o.mode = 1 then o.src else o.dst
      let sp := if o.mode = 1 then spaceSize o.srcSpace else spaceSize 0
      if t.any fun x => x % esz o ≠ 0 then (0xA001, [])
      else if t.any fun x => decide (sp < base + x + esz o) then (0xA002, [])
      else if stream && decide (o.bstride < dstSpan o t + 16) then (0xA002, [])
      else (0, t)

/-- Checks 1 to 6 of Table 15.5; `busy` is check 4. -/
def xferCheck (stream busy : Bool) (o : XferOp) (data : Option (List Nat)) : Nat × List Nat :=
  if !xferMode stream o then (0xA004, [])
  else if 2 < o.srcSpace ∨ o.dstSpace ≠ 0 ∨ (stream ∧ o.srcSpace = 0) then (0xA003, [])
  else if !xferRange stream o then (0xA002, [])
  else if busy then (0xA005, [])
  else if !xferAlign o then (0xA001, [])
  else xferLoad stream o data

/-- The moves of a transfer in order: source and destination offsets of each element (Table 15.4). -/
def xferMoves (o : XferOp) (t : List Nat) : List (Nat × Nat) :=
  let e := esz o
  (List.range o.count).map fun i =>
    match o.mode with
    | 1 => (t.getD i 0, i * e)
    | 2 => (i * e, t.getD i 0)
    | 3 => (i * e, i % o.nch * o.pstride + i / o.nch * e)
    | 4 => (i % o.nch * o.pstride + i / o.nch * e, i * e)
    | _ => (i * e, i * e)

/-- Any byte of the capture is read (R393). -/
def xferCapture (o : XferOp) (t : List Nat) : Bool :=
  o.srcSpace = 1 && (xferMoves o t).any fun m => decide (o.src + m.1 < 0x20000)

/-- A word of the source space of a transfer (R392–R394). -/
def spaceWord (s : State) (x : Xfer) (off : Nat) : Nat :=
  if x.op.srcSpace = 2 then objStat s (off / 4)
  else if off < 0x20000 then captureWord s (off / 4)
  else x.img.getD ((off - 0x20000) / 4) 0

/-- R396, mode 5: output word `j` of a block of 32 words. -/
def transposeWord (blk : List Nat) (j : Nat) : Nat :=
  (List.range 32).foldl (fun a i => if bitOf (blk.getD i 0) j then a + 2 ^ i else a) 0

/-- The posted writes of a transfer to the buffer at `dst`, in order, each with its length. Elements that come from host
memory are moved as they stand there; `data` holds the words read when they are transposed. -/
def xferWrites (s : State) (x : Xfer) (dst : Nat) (data : List Nat) : List (Nat × HmWrite) :=
  let o := x.op
  let e := esz o
  if o.mode = 5 then
    (List.range (o.count / 32)).map fun b =>
      let blk := (List.range 32).map fun i =>
        if o.srcSpace = 0 then data.getD (32 * b + i) 0 else spaceWord s x (o.src + 128 * b + 4 * i)
      (128, .words (dst + 128 * b) ((List.range 32).map (transposeWord blk)))
  else (xferMoves o x.table).map fun m =>
    (e, if o.srcSpace = 0 then .copy (o.src + m.1) (dst + m.2) e
        else .words (dst + m.2) ((List.range (e / 4)).map fun k => spaceWord s x (o.src + m.1 + 4 * k)))

/-- Issue the writes that lie within the first `n` bytes. -/
def xferIssue : List (Nat × HmWrite) → Nat → State → State
  | [], _, s => s
  | (e, w) :: t, n, s => if n < e then s else xferIssue t (n - e) (hmWrite w s)

/-- Transfers that read the capture are in progress: it is frozen (R393). -/
def State.capFrozen (s : State) : Bool :=
  (List.range 8).any fun k => match (s.getChan k).xfer with | some x => x.capture | none => false

/-- The parts of host memory that a transfer reads, in the order of its elements (Table 15.4). -/
def xferReads (o : XferOp) (t : List Nat) : List (Nat × Nat) :=
  match o.mode with
  | 1 => t.map fun x => beatSpan (o.src + x) (esz o)
  | 4 => (List.range o.nch).map fun c => beatSpan (o.src + c * o.pstride) (o.count / o.nch * esz o)
  | _ => [beatSpan o.src (o.count * esz o)]

/-- A transfer of channel `k` still has reads to come. -/
def State.reading (s : State) (k : Nat) : Bool :=
  (s.hm.waiting.any fun r => decide (r.purpose = .dma k)) ||
    (List.range 32).any fun t => match s.hmReq t with
      | some r => decide (r.purpose = .dma k) && r.failed.isNone
      | none => false

/-- Start a transfer on channel `k`; one that reads host memory asks for it on the manager port (R36, R38). -/
def xferStart (k : Nat) (x : Xfer) (s : State) : State :=
  let s1 := s.updChan k fun c => { c with xfer := some x, busy := true, mode := if x.opcode ≤ 0x81 then x.op.mode else c.mode }
  if x.opcode = 0x80 ∧ x.op.srcSpace = 0 then forList (xferReads x.op x.table) (fun r => hmIssue (.dma k) r.1 r.2) s1 else s1

/-- The reads that a channel's transfer has not had are given up. -/
def xferUntag (k : Nat) (s : State) : State := hmDrop (fun p => decide (p = .dma k)) s

/-- A transfer on channel `k` ends with status `st`. -/
def xferEnd (k st : Nat) (s : State) : State :=
  (xferUntag k s).updChan k fun c =>
    { c with xfer := none, busy := false, last := st, done := if st = 0 then satInc 16 c.done else c.done,
             fail := if st = 0 then c.fail else satInc 16 c.fail }

/-- R399, R400: a stream ends. -/
def streamEnd (k : Nat) (s : State) : State :=
  let c := s.getChan k
  let s1 := s.updChan k fun y =>
    { y with armed := false, stream := none, table := [], n := 0, buffers := 0, overrun := false, stopping := false,
             stopHdr := none, gap := 0 }
  match c.stopHdr with
  | some h => complete h 0x0081 0 c.buffers s1
  | none => s1

/-- R399, R400: stop a stream, after the transfer in progress if there is one. -/
def streamStop (k : Nat) (hdr : Option DescHdr) (s : State) : State :=
  let c := s.getChan k
  if c.busy then s.updChan k fun y => { y with stopping := true, stopHdr := hdr.or y.stopHdr }
  else streamEnd k (s.updChan k fun y => { y with stopHdr := hdr })

/-- Table 15.6: the trailer of a stream buffer. -/
def streamTrailer (c : DmaChan) (x : Xfer) (hold : Bool) : List Nat :=
  words64 x.start ++ [(x.period + 1) % 2 ^ 32, b2n hold + 2 * b2n c.overrun + satU 16 c.gap * 2 ^ 16]

/-- R399: a stream transfer ends. -/
def streamDone (k : Nat) (x : Xfer) (ok : Bool) (n : Nat) (data : List Nat) (s : State) : State :=
  let c := s.getChan k
  let buf := x.op.dst + x.period % max 1 x.op.nbuf * x.op.bstride
  let ws := xferWrites s x buf data
  let s1 := xferIssue ws (if ok then sumN (ws.map Prod.fst) else n) s
  let s2 := if ok then
      ((hmWrite (.words (buf + x.op.bstride - 16) (streamTrailer c x s.tb.hold)) s1).updChan k fun y =>
        { y with seq := x.period + 1, buffers := y.buffers + 1, overrun := false, gap := 0 })
    else emitDma 0xA010 k (x.period + 1) 0 0 s1
  let s3 := xferEnd k (if ok then 0 else 0xA006) s2
  if c.stopping then streamEnd k s3 else s3

/-- R398: a single transfer ends. -/
def singleDone (k : Nat) (x : Xfer) (ok : Bool) (n : Nat) (data : List Nat) (s : State) : State :=
  let ws := xferWrites s x x.op.dst data
  let tot := sumN (ws.map Prod.fst)
  let m := if ok then tot else min n tot
  let s1 := xferEnd k (if ok then 0 else 0xA006) (xferIssue ws m s)
  match x.hdr with
  | some h => complete h 0x0080 (if ok then 0 else 0xA006) m s1
  | none => s1

/-- R404: an uncorrectable error of slot `k` is read: LDG_ECC at the first such read. -/
def ldgEcc (k : Nat) (s : State) : State :=
  if Tbl.get false s.ldg.eccSeen k then s
  else
    let r := Tbl.get {} s.ldg.store k
    (s.onLdg fun l => { l with eccUnc := satInc 16 l.eccUnc, eccSeen := Tbl.set false l.eccSeen k true })
    |> emit 0x36 0xA814 k r.seq 0 0

/-- R406: a drain ends; `bad` names the slots with uncorrectable errors. -/
def drainDone (x : Xfer) (ok : Bool) (bad : List Nat) (s : State) : State :=
  let ks := (List.range x.num).map (x.first + ·)
  let s1 := if ok then
      let t := forList (ks.filter fun k => bad.contains k) ldgEcc s
      let w := hmWrite (.words x.op.dst (ks.flatMap fun k => ldgWords (Tbl.get {} s.ldg.store k) (bad.contains k))) t
      (if x.num = 0 then t else w).onLdg fun l => { l with r := max l.r (x.first + x.num) }
    else s
  let s2 := xferEnd 6 (if ok then 0 else 0xA006) s1
  match x.hdr with
  | some h => complete h 0x0082 (if ok then 0 else 0xA006) (if ok then x.num else 0) s2
  | none => s2

/-- Slot `i` of a copy of the fault-record ring (R401). -/
def copySlot (x : Xfer) (i : Nat) : Nat := if x.back then (x.first + 320 - i % 320) % 320 else (x.first + i) % 320

/-- R401: a copy of the fault-record ring ends with status `st` after `n` slots; the slots copied before a failure stand. -/
def frecCopyDone (x : Xfer) (st n : Nat) (s : State) : State :=
  let m := if st = 0 then x.num else min n x.num
  let s1 := forList (List.range m) (fun i =>
    hmWrite (.words (x.op.dst + 128 * i) (frecWords (Tbl.get none s.frec.slots (copySlot x i))))) s
  let s2 := xferEnd 5 st s1
  match x.hdr with
  | some h => complete h 0x0084 st m s2
  | none => s2

/-- R398: a transfer's last write has been issued, which its last read comes before, or it has failed after `n` bytes or
slots. A copy of fault records is paused while a record is being committed (R401). -/
def transferDone (k : Nat) (ok : Bool) (n : Nat) (data bad : List Nat) (s : State) : State :=
  match (s.getChan k).xfer with
  | none => s
  | some x =>
    if ok && (s.reading k || (decide (x.opcode = 0x84) && s.frec.busy)) then s
    else match x.opcode with
    | 0x80 => singleDone k x ok n data s
    | 0x81 => streamDone k x ok n data s
    | 0x82 => drainDone x ok bad s
    | _ => frecCopyDone x (if ok then 0 else 0xA007) n s

/-- R38, R39: the host port fails a transfer: DMA_XFER_FAIL, a stream buffer without its trailer (Table 15.8). -/
def transferFail (k : Nat) (s : State) : State :=
  match (s.getChan k).xfer with
  | none => s
  | some x => if x.opcode = 0x84 then frecCopyDone x 0xA006 0 s else transferDone k false 0 [] [] s

/-- An operand that moves nothing: what a drain or a copy carries. -/
def plainOp (addr : Nat) : XferOp :=
  { mode := 0, esize := 2, srcSpace := 0, dstSpace := 0, chan := 0, count := 0, src := 0, dst := addr, table := 0, nch := 0,
    pstride := 0, periodUs := 0, nbuf := 0, stop := false, bstride := 0 }

/-- R403, R404: the store takes one record. -/
def ldgTake (r : LRec) (s : State) : State :=
  let l := s.ldg
  if 16384 ≤ l.w then s.onLdg fun y => { y with drop := satInc 32 y.drop }
  else if l.w = 16383 then
    let f : LRec := { code := 0xA810, source := 0x36, hold := r.hold, lost := Tbl.get false l.lostFlag 0x36, seq := l.seq,
                      time := r.time, p0 := r.code, p1 := r.source }
    (s.onLdg fun y => { y with store := Tbl.set {} y.store 16383 f, w := 16384, seq := wrapInc 32 y.seq, drop := satInc 32 y.drop,
                               lostFlag := Tbl.set false y.lostFlag 0x36 false })
    |> evtDeliver (emitRec 3) f 0
  else
    let lost := Tbl.get false l.lostFlag r.source
    s.onLdg fun y =>
      { y with store := Tbl.set {} y.store l.w { r with seq := l.seq, lost := lost }, w := l.w + 1, seq := wrapInc 32 y.seq,
               lostFlag := Tbl.set false y.lostFlag r.source false }

/-- The source whose turn it is: the next one after the last served that has a record queued (R403). -/
def ldgNext (s : State) : Option Nat :=
  ((List.range 256).map fun i => (s.ldg.rr + 1 + i) % 256).find? fun k => Tbl.get [] s.ldg.queues k ≠ []

/-- R403: one turn of the store. -/
def ldgStore (s : State) : State :=
  match ldgNext s with
  | none => s
  | some k =>
    match Tbl.get [] s.ldg.queues k with
    | [] => s
    | r :: t => ldgTake r (s.onLdg fun l => { l with queues := Tbl.set [] l.queues k t, rr := k })

/-- Store everything a source has queued (R408, R409). -/
def ldgFlush (k : Nat) (s : State) : State :=
  (Tbl.get [] s.ldg.queues k).foldl (fun t r => ldgTake r t) (s.onLdg fun l => { l with queues := Tbl.set [] l.queues k [] })

end Sys2Proof.Machine
end

