-- ==== Sys2Proof/Machine/Dma.lean ====
section
/-!
DEFINITION. The commands of the DMA engine and of Ledger, and the bodies of their descriptors (chapter 15).
-/
namespace Sys2Proof.Machine

/-- The bytes of host memory that a step read, as numbers. -/
def Ext.bytes (x : Ext) : Option (List Nat) := x.data.map fun l => l.map BitVec.toNat

/-- R395: DMA_XFER. -/
def descDmaXfer : DescSpec := { opcode := 0x0080 }
def bodyDmaXfer (h : DescHdr) (op : XferOp) (x : Ext) (s : State) : DescOut :=
  let c := xferCheck false (s.getChan 5).busy op (Ext.bytes x)
  if c.1 ≠ 0 then .fail c.1 s
  else .wait (xferStart 5 { op := op, hdr := some h, opcode := 0x80, start := s.now, capture := xferCapture op c.2,
                            table := c.2, img := s.dma.image } s)

/-- R396: DMA_XFER. -/
def execDmaXfer (h : DescHdr) (op : XferOp) (x : Ext) (s : State) : Res :=
  act (runDesc h descDmaXfer (bodyDmaXfer h op x)) s

/-- R399, R400: DMA_STREAM. -/
def descDmaStream : DescSpec := { opcode := 0x0081 }

/-- R400: `STOP` needs only `CHAN`. -/
def stopOnly (o : XferOp) : Bool :=
  o.mode = 0 && o.esize = 0 && o.srcSpace = 0 && o.dstSpace = 0 && o.count = 0 && o.src = 0 && o.dst = 0 && o.table = 0 &&
    o.nch = 0 && o.pstride = 0 && o.periodUs = 0 && o.nbuf = 0 && o.bstride = 0

def bodyStreamStop (h : DescHdr) (op : XferOp) (s : State) : DescOut :=
  let c := s.getChan op.chan
  if 5 ≤ op.chan then .fail 0x9009 s
  else if !stopOnly op then .fail 0xA004 s
  else if !c.armed then .done 0 0 s
  else if c.busy then .wait (streamStop op.chan (some h) s)
  else .done 0 c.buffers (streamEnd op.chan (s.updChan op.chan fun y => { y with stopHdr := none }))

/-- R399: arm a stream. -/
def bodyStreamArm (op : XferOp) (x : Ext) (s : State) : DescOut :=
  let k := op.chan
  if 5 ≤ k then .fail 0x9009 s
  else
    let c := xferCheck true ((s.getChan k).busy || (s.getChan k).armed) op (Ext.bytes x)
    if c.1 ≠ 0 then .fail c.1 s
    else .done 0 0 (s.updChan k fun y =>
      { y with armed := true, stream := some op, table := c.2, armTime := s.now, n := 0, buffers := 0, overrun := false,
               gap := 0, stopping := false, stopHdr := none })

def bodyDmaStream (h : DescHdr) (op : XferOp) (x : Ext) (s : State) : DescOut :=
  if op.stop then bodyStreamStop h op s else bodyStreamArm op x s

/-- R399: DMA_STREAM without `STOP`. -/
def execDmaStreamArm (h : DescHdr) (op : XferOp) (x : Ext) (s : State) : Res :=
  act (runDesc h descDmaStream (bodyStreamArm op x)) s

/-- R400: DMA_STREAM with `STOP`. -/
def execDmaStreamStop (h : DescHdr) (chan : Fin 5) (s : State) : Res :=
  act (runDesc h descDmaStream (bodyStreamStop h { plainOp 0 with esize := 0, chan := chan.val, stop := true })) s

/-- R398: DMA_TRANSFER_DONE. -/
def execDmaTransferDone (chan : Fin 8) (ok : Bool) (n : Nat) (data : List Word) (bad : List Nat) (s : State) : Res :=
  act (transferDone chan.val ok n (data.map BitVec.toNat) bad) s

/-- R399, R400: a period of a stream is due at a frame commit. -/
def streamPeriod (k : Nat) (s : State) : State :=
  let c := s.getChan k
  match c.stream with
  | none => s
  | some o =>
    if s.frm.inFrame || !s.frm.metered || decide (s.now < c.armTime + c.n * o.periodUs * nsPerUs) || c.stopping then s
    else if c.busy then
      let first := due s.now nsPerS c.lastOvrRec
      let s1 := s.updChan k fun y =>
        { y with overrun := true, ovr := satInc 16 y.ovr, n := y.n + 1, lastOvrRec := if first then some s.now else y.lastOvrRec }
      if first then emitDma 0xA011 k (c.n + 1) 0 0 s1 else s1
    else xferStart k { op := o, opcode := 0x81, start := s.now, capture := xferCapture o c.table, table := c.table,
                       img := s.dma.image, period := c.n } (s.updChan k fun y => { y with n := y.n + 1 })

/-- R399: STREAM_PERIOD. -/
def execStreamPeriod (chan : Fin 5) (s : State) : Res := act (streamPeriod chan.val) s

/-- R393: one sweep of the capture; while it is frozen, armed streams count the sweep as lost. -/
def captureSweep (s : State) : State :=
  if !s.dma.run then s
  else if s.capFrozen then
    forList (List.range 5) (fun k => State.updChan k fun c => if c.armed then { c with gap := satInc 16 c.gap } else c) s
  else
    let w := (List.range 128).foldl (fun t p => Tbl.set 0 t p (sweepEntry s p)) ([] : Tbl Nat)
    s.onDma fun d => { d with sweeps := (if d.sweeps.length < 256 then d.sweeps else d.sweeps.tail) ++ [w] }

/-- R393: CAPTURE_SWEEP. -/
def execCaptureSweep (s : State) : Res := act captureSweep s

/-- R412: clear the counts of every channel. -/
def dmaClr (s : State) : State :=
  forList (List.range 8) (fun k => State.updChan k fun c => { c with done := 0, fail := 0, ovr := 0 }) s

/-- R412: DMA_CTRL.CLR. -/
def execDmaCtrlClr (s : State) : Res := hsEmu dmaClr s

/-- R400: stop every stream. -/
def stopStreams (s : State) : State :=
  forList (List.range 5) (fun k u => if (u.getChan k).armed then streamStop k none u else u) s

/-- R400: DMA_CTRL.STOP_STREAMS. -/
def execStopStreams (s : State) : Res := hsEmu stopStreams s

/-- R406: LDG_DRAIN. -/
def descLdgDrain : DescSpec := { opcode := 0x0082 }
def bodyLdgDrain (h : DescHdr) (max_ addr : Nat) (s : State) : DescOut :=
  if max_ = 0 ∨ 16384 < max_ then .fail 0xA002 s
  else if addr % 32 ≠ 0 then .fail 0xA001 s
  else .wait (xferStart 6 { op := plainOp addr, hdr := some h, opcode := 0x82, start := s.now, first := s.ldg.r,
                            num := min max_ (s.ldg.w - s.ldg.r) } s)

/-- R406: LDG_DRAIN. -/
def execLdgDrain (h : DescHdr) (max_ addr : Nat) (s : State) : Res :=
  act (runDesc h descLdgDrain (bodyLdgDrain h max_ addr)) s

/-- R407: LDG_REARM. -/
def descLdgRearm : DescSpec := { opcode := 0x0083 }

/-- R407: Ledger is emptied in one step, and LDG_REARMED is its first record. -/
def ldgRearm (s : State) : State :=
  let l := s.ldg
  let r := { mkRec 0x36 0xA811 (l.w - l.r) l.drop (if l.seq = 0 then umax 32 else l.seq - 1) 0 s with
             seq := l.seq, lost := Tbl.get false l.lostFlag 0x36 }
  (s.onLdg fun y => { y with w := 1, r := 0, drop := 0, bufValid := false, store := [(0, r)], seq := wrapInc 32 y.seq,
                             eccSeen := [], lostFlag := Tbl.set false y.lostFlag 0x36 false })
  |> evtDeliver (emitRec 3) r 0

def bodyLdgRearm (force : Bool) (s : State) : DescOut :=
  if s.ldg.r < s.ldg.w ∧ !force then .fail 0xA801 s else .done 0 (s.ldg.w - s.ldg.r) (ldgRearm s)

/-- R407: LDG_REARM. -/
def execLdgRearm (h : DescHdr) (force : Bool) (s : State) : Res := act (runDesc h descLdgRearm (bodyLdgRearm force)) s

/-- R401: FREC_COPY. -/
def descFrecCopy : DescSpec := { opcode := 0x0084 }
def bodyFrecCopy (h : DescHdr) (op : FrecCopyOp) (s : State) : DescOut :=
  if 320 ≤ op.slot ∨ op.nslot = 0 ∨ 320 < op.nslot ∨ (op.fromPtr ∧ (op.slot ≠ 0 ∨ !s.frec.ptrValid)) then .fail 0xA002 s
  else if op.addr % 16 ≠ 0 then .fail 0xA001 s
  else if s.nvDown then .fail 0xA007 s
  else .wait (xferStart 5 { op := plainOp op.addr, hdr := some h, opcode := 0x84, start := s.now,
                            first := if op.fromPtr then s.frec.ptrSlot else op.slot, num := op.nslot, back := op.fromPtr } s)

/-- R401: FREC_COPY. -/
def execFrecCopy (h : DescHdr) (op : FrecCopyOp) (s : State) : Res := act (runDesc h descFrecCopy (bodyFrecCopy h op)) s

/-- R403: LEDGER_STORE. -/
def execLedgerStore (s : State) : Res := act ldgStore s

/-- R405: a read of `LDW_REC0`; `ecc` says that the slot has an uncorrectable error. -/
def rec0Read (ecc : Bool) (s : State) : State :=
  let l := s.ldg
  if l.r = l.w then hsAnswer 0 0 (s.onLdg fun y => { y with buf := {}, bufBad := false, bufValid := false })
  else
    let r := Tbl.get {} l.store l.r
    let s1 := s.onLdg fun y => { y with buf := r, bufBad := ecc, bufSlot := l.r, bufValid := true }
    hsAnswer 0 ((ldgWords r ecc).getD 0 0) (if ecc then ldgEcc l.r s1 else s1)

/-- A hardwired read that answers by itself (R34, R468). -/
def hsRead (f : State → State) (s : State) : Res := .next (if s.live then f s else hsAnswer 1 0 s)

/-- R405: LDW_REC0_READ. -/
def execLdwRec0Read (ecc : Bool) (s : State) : Res := hsRead (rec0Read ecc) s

/-- R405: a read of `LDW_REC7` advances the read position past the buffered record. -/
def rec7Read (s : State) : State :=
  let l := s.ldg
  let s1 := if l.bufValid then s.onLdg fun y => { y with r := max y.r (y.bufSlot + 1), bufValid := false } else s
  hsAnswer 0 (l.buf.p3 % 2 ^ 32) s1

/-- R405: LDW_REC7_READ. -/
def execLdwRec7Read (s : State) : Res := hsRead rec7Read s

/-- R405: LDW_CURSOR_WRITE. -/
def execLdwCursorWrite (v : Fin 32768) (s : State) : Res :=
  hsHard (fun t => t.onLdg fun l => { l with r := min v.val l.w, bufValid := false }) s

/-- R412: clear the losses and store errors of Ledger. -/
def ldgClrLost (s : State) : State := s.onLdg fun l => { l with qlost := 0, eccUnc := 0 }

/-- R412: LDG_CTRL.CLR_LOST. -/
def execLdgCtrlClrLost (s : State) : Res := hsEmu ldgClrLost s

end Sys2Proof.Machine
end

