-- ==== Sys2Proof/Machine/Prot.lean ====
section
/-!
DEFINITION. Start, stop and protection of the rails, clearing and restart, and the fault-record writer (chapter 07).
-/
namespace Sys2Proof.Machine

/-- Change the first start for which `p` holds. -/
def updStart (p : StartSeq → Bool) (f : StartSeq → StartSeq) : List StartSeq → List StartSeq
  | [] => []
  | q :: l => if p q then f q :: l else q :: updStart p f l

/-- The start that checks or identifies now: one at a time. -/
def State.startFront (s : State) : Option StartSeq := s.rail.starts.find? fun q => q.step ≤ 4

/-- Change the start that checks or identifies. -/
def onStart (f : StartSeq → StartSeq) (s : State) : State :=
  s.onRail fun x => { x with starts := updStart (fun q => decide (q.step ≤ 4)) f x.starts }

/-- Put a rail that is OFF into PREPARE with its start target (R170, R171, R175, R195); a rail whose target is 0 stays OFF. -/
def prepareRail (cold : Bool) (r : Nat) (s : State) : State :=
  let v := s.startTarget r cold
  if v = 0 ∨ (s.getProt r).st ≠ 0 then s
  else
    let s1 := s.updProt r fun x => { x with st := 1, cause := 0, startAt := s.now, senseOk := false, zeroAt := none }
    setTarget r v (s1.updReg r fun x => { x with forced := some v, host := none, hold := false })

/-- Begin a start of the rails of a mask at a step of Table 7.3. -/
def beginStart (rails step : Nat) (cold : Bool) (s : State) : State :=
  (forList (maskIdx 8 rails) (prepareRail cold) s).onRail fun x =>
    { x with starts := x.starts ++ [{ rails := rails, step := step, began := s.now, cold := cold }] }

/-- R163: the commands of a configuration list that a pass read back otherwise than written; an entry that is missing was not
read back. -/
def pmbMismatch (d : PmbDev) (reads : List (Option Nat)) : List Nat :=
  ((d.cmds.take 16).mapIdx fun i e => (e.1, decide (reads.getD i none = some e.2))).filterMap fun e => if e.2 then none else some e.1

/-- R163: the command for which the configuration of a device fails: read back wrong after the list was written, and again after
it was repeated once. -/
def pmbFailed (d : PmbDev) (x : PmbReads) : Option Nat :=
  if pmbMismatch d x.first = [] then none else (pmbMismatch d x.again).head?

/-- The stage devices: the addresses of the configured phases, each once. -/
def State.stageDevs (s : State) : List Nat :=
  ((List.range 128).filterMap fun p => if (s.phCfg p).present then some (s.phCfg p).addr else none).eraseDups

/-- R163: one stage device has been configured; one that failed makes its phases unusable until the next cold start. -/
def pmbDevDone (reads : List PmbReads) (a : Nat) (s : State) : State :=
  match pmbFailed (s.pmbDev a) ((reads.find? fun x => x.addr.val = a).getD { addr := Fin.ofNat 128 a }) with
  | none => s
  | some c =>
    (forList ((List.range 128).filter fun p => (s.phCfg p).present && decide ((s.phCfg p).addr = a))
      (fun p => State.updPh p fun x => { x with st := 7 }) s) |> emitRail 0x3822 a c 0 0

/-- R163: the stage devices are configured, from what each read back; then step 3 of Table 7.3 begins. -/
def pmbusDone (reads : List PmbReads) (s : State) : State :=
  match s.startFront with
  | some q =>
    if q.step = 2 && s.pmUp then
      finishStart (onStart (fun x => { x with step := 3 }) (forList s.stageDevs (pmbDevDone reads) s))
    else s
  | none => s

def execPmbusConfigDone (reads : List PmbReads) (s : State) : Res := act (pmbusDone reads) s

/-- The phases of a start that are still to be identified, in number order (step 4 of Table 7.3). -/
def identifyList (s : State) (q : StartSeq) : List Nat :=
  (List.range 128).filter fun p =>
    let g := s.phCfg p
    g.present && decide (q.next ≤ p) && bitOf q.rails g.rail && decide ((s.getProt g.rail).st = 1) && (s.getPh p).usable

/-- The master of a rail of modes 1 to 3 is neither in the same start nor in RAMP_UP or ON (R177). -/
def masterAbsent (s : State) (q : StartSeq) (r : Nat) : Bool :=
  let g := s.railCfg r
  let m := (s.getProt g.master).st
  decide (1 ≤ g.mode) && decide (g.mode ≤ 3) && decide (m ≠ 2) && decide (m ≠ 3) &&
    !(decide (m = 1) && bitOf q.rails g.master)

/-- R177 for one rail in PREPARE at step 5 of Table 7.3. -/
def judgeStart (q : StartSeq) (r : Nat) (s : State) : State :=
  if (s.getProt r).st ≠ 1 then s
  else
    let n := (s.usablePhases r).length
    if n < (s.railCfg r).nreq then refuseStart 3 r s |> emitRail 0x3005 r n (s.railCfg r).nreq 0
    else if masterAbsent s q r then refuseStart 6 r s |> emitRail 0x3006 r (s.railCfg r).master 0 0
    else s

/-- Step 5 begins once no phase is left to identify: the rails of the start are judged, masters first. -/
def identifyNext (s : State) : State :=
  match s.startFront with
  | some q =>
    if q.step = 4 ∧ identifyList s q = [] then
      let s1 := onStart (fun x => { x with step := 5 }) s
      let byLevel := (List.range 8).flatMap fun lv => (maskIdx 8 q.rails).filter fun r => (s.railCfg r).level = lv
      finishStart (forList byLevel (judgeStart q) s1)
    else s
  | none => s

/-- R175: the open-sense check is judged from the rise of each sensed voltage, in mV. -/
def senseCheck (rises : List (Nat × Nat)) (s : State) : State :=
  match s.startFront with
  | some q =>
    if q.step = 3 then
      let one := fun (r : Nat) (t : State) =>
        if (t.getProt r).st ≠ 1 then t
        else
          let rise := Tbl.get 0 rises r
          if 200 < rise then refuseStart 5 r t |> emitRail 0x3004 r rise 0 0
          else t.updProt r fun x => { x with senseOk := true }
      identifyNext (onStart (fun x => { x with step := 4, next := 0 }) (forList (maskIdx 8 q.rails) one s))
    else s
  | none => s

def execSenseCheck (rises : List (RailId × Nat)) (s : State) : Res :=
  act (senseCheck (rises.map fun x => (x.1.val, x.2))) s

/-- The cause of Table 7.4 for which an identify fails, the first that applies. -/
def identifyCause (s : State) (p i : Nat) (padsOk scFired otherSeen : Bool) : Option Nat :=
  let g := s.phCfg p
  if !padsOk then some 0
  else if otherSeen then some 3
  else if 100 < (s.getPh p).azErr then some 4
  else if scFired || decide (g.idMax < i) then some 2
  else if i < g.idMin then some 1
  else none

/-- R176: the identify slot of one phase is judged. -/
def phaseIdentify (p code : Nat) (padsOk scFired otherSeen : Bool) (s : State) : State :=
  match s.startFront with
  | some q =>
    if q.step = 4 ∧ (identifyList s q).head? = some p then
      let i := satU 16 (phaseAmps s p code).toNat
      let s1 := onStart (fun x => { x with next := p + 1 }) (s.updPh p fun x => { x with idi := i, pen := false, pwm := false })
      let s2 := match identifyCause s p i padsOk scFired otherSeen with
        | some c => disablePhase p (fun x => { x with idFail := true, idCause := c }) s1 |> emitRail 0x3010 p c i 0
        | none => s1
      identifyNext s2
    else s
  | none => s

def execPhaseIdentify (p : PhaseId) (code : Fin 4096) (padsOk scFired otherSeen : Bool) (s : State) : Res :=
  act (phaseIdentify p.val code.val padsOk scFired otherSeen) s

/-- R177: the condition on the master of a rail that waits in PREPARE at step 5. -/
def masterReady (s : State) (r : Nat) : Bool :=
  let g := s.railCfg r
  let m := s.getProt g.master
  if g.mode = 1 then decide (m.st = 3) && decide (m.onAt + 100000 * g.delay ≤ s.now)
  else if g.mode = 2 ∨ g.mode = 3 then decide (m.st = 2) || decide (m.st = 3)
  else true

/-- R178: time to move between two voltages at a rail's slew. -/
def rampTime (slew v g : Nat) : Nat := if slew = 0 then 0 else divRoundN ((max v g - min v g) * 1000) slew

/-- R173, R174, R177: a rail whose conditions hold enters RAMP_UP from its measured voltage, with the compensator
values last written (R145) and every usable phase active. -/
def rampStart (r : Nat) (s : State) : State :=
  let x := s.getProt r
  let go := s.rail.starts.any fun q => decide (q.step = 5) && bitOf q.rails r
  if go && decide (x.st = 1) && x.senseOk && decide ((s.railCfg r).nreq ≤ (s.usablePhases r).length) && masterReady s r
      && !s.inStop r then
    let v := (s.getMeas r).v
    let s1 := s.updProt r fun y =>
      { y with st := 2, rampAt := s.now, vStart := v, rampNs := rampTime (s.getReg r).slew v (s.getReg r).target,
               track := decide ((s.railCfg r).mode = 2 ∨ (s.railCfg r).mode = 3) &&
                 decide ((s.getProt (s.railCfg r).master).st = 2) }
    let s2 := (forList (s.railPhases r) (fun p => State.updPh p fun y => { y with trimSince := none, trimRec := false })
        s1).updReg r fun y =>
      { y with act := y.comp, vref := v, e1 := 0, e2 := 0, u1 := 0, u2 := 0, u3 := 0, vpp := 0, vppTgt := 0, ppDi := 0,
               ppArrived := none, stepAt := none, reached := false }
    let s3 := forList ((s.railDets r)) (fun d => State.updDet d fun y => { y with pend := 2, calFail := false }) s2
    railPhasesTo r 2 s3
  else s

def execRampStart (r : RailId) (s : State) : Res := act (rampStart r.val) s

/-- A higher setpoint is reached on every rail of a domain's clusters: a waiting faster divider may be applied (R110). -/
def raiseReady (r : Nat) (s : State) : State :=
  forList ((s.railClusters r).map fun c => (s.cluCfg c).dom) (fun d => State.updDom d fun x => { x with raiseWait := false }) s

/-- R129: the rail reports a new setpoint reached; its detectors' taps are rewritten. -/
def rewriteTaps (r : Nat) (s : State) : State :=
  forList (s.railDets r) (fun d => State.updDet d fun y => { y with pend := max y.pend 1 }) s

/-- R152, R175: `REACHED`: a rail in RAMP_UP enters ON; at any time the taps follow the new setpoint. -/
def railReached (r : Nat) (s : State) : State :=
  if (s.getReg r).reached && s.regulating r then
    let s1 := raiseReady r (rewriteTaps r s)
    if (s.getProt r).st = 2 then finishStart (s1.updProt r fun x => { x with st := 3, onAt := s.now }) else s1
  else s

def execReached (r : RailId) (s : State) : Res := act (railReached r.val) s

/-- R174: the head of a rail's group, within 8 levels: the master of a rail that started with it leads on to the head. -/
def groupHead (s : State) : Nat → Nat → Nat
  | 0, r => r
  | n + 1, r =>
    let g := s.railCfg r
    if (g.mode = 2 ∨ g.mode = 3) ∧ (s.getProt r).track then groupHead s n g.master else r

/-- R178: no `REACHED` within twice the ramp time plus 1 ms: FAULT, and a fast stop of the rail's group, which is its head and
the rails that track it; those stop with their master (R182). -/
def startTimeout (r : Nat) (s : State) : State :=
  let x := s.getProt r
  if x.st = 2 ∧ x.rampAt + 2 * x.rampNs + nsPerMs ≤ s.now then
    let h := groupHead s 8 r
    let tr := (trackers s 8 h).eraseDups.filter fun k => k ≠ r ∧ (s.getProt k).running
    let l := if h = r then tr else h :: tr
    let s1 := emitRail 0x3003 r 0 0 0 (frecTake 0x3003 r 0xFF (maskOf (r :: l)) r 0 0 s)
    railSettle (masterFaults tr (fastStop l 4 (maskOf tr) (countStop r (railFault 4 r s1))))
  else s

def execStartTimeout (r : RailId) (s : State) : Res := act (startTimeout r.val) s

/-- R180: a ramping-down rail below 50 mV, or 2 ms after V_ref reached 0, is OFF; the next level may begin. -/
def rampDownDone (r : Nat) (s : State) : State :=
  let x := s.getProt r
  let late : Bool := match x.zeroAt with | some t => decide (t + 2 * nsPerMs ≤ s.now) | none => false
  if x.st = 4 ∧ ((s.getMeas r).v < 200 ∨ late) then
    let s1 := railPhasesTo r 1 (railPenLow r (brakeStop r s))
    let s2 := s1.updProt r fun y => { y with st := 0, zeroAt := none }
    let s3 := s2.updReg r fun y => { y with vref := 0, vpp := 0, vppTgt := 0, forced := none, reached := false }
    railSettle s3
  else s

def execRampDownDone (r : RailId) (s : State) : Res := act (rampDownDone r.val) s

/-- The fast stop in which rail `r` may be stopped now: `r` is at the highest level still running, and its T_FS has
passed since the last rail of the next higher level was stopped (R181). -/
def fastMay (s : State) (r : Nat) (q : StopSeq) : Bool :=
  let lv := stopLevel s (maskIdx 8 q.rails)
  let base := if lv = q.level then q.prevStop else q.lastStop
  q.fast && bitOf q.rails r && (s.getProt r).running && decide ((s.railCfg r).level = lv) &&
    decide (base + 1000 * (s.railCfg r).tfs ≤ s.now)

/-- R181: T_FS after the level above, a rail of the next lower level stops. -/
def fastLevel (r : Nat) (s : State) : State :=
  match s.rail.stops.find? (fastMay s r) with
  | none => s
  | some q =>
    let lv := (s.railCfg r).level
    let s1 := railFault (q.causeOf r) r s
    let upd := fun (k : StopSeq) =>
      if !fastMay s r k then k
      else if lv = k.level then { k with lastStop := s.now }
      else { k with prevStop := k.lastStop, level := lv, lastStop := s.now }
    let s2 := s1.onRail fun x => { x with stops := x.stops.map upd }
    railSettle s2

def execFastStopLevel (r : RailId) (s : State) : Res := act (fastLevel r.val) s

/-- R187: the clusters of a rail enter or leave the overload cap with the rails that still hold them. -/
def overloadClusters (r : Nat) (s : State) : State :=
  forList (s.railClusters r) (fun c t =>
    let on := s.railIds.any fun k => bitOf (s.cluCfg c).rails k && (t.getProt k).ol.isSome
    let t1 := t.updClu c fun x => { x with overload := on }
    if on then capCluster c t1 else if (t.getClu c).overload then presetLoops c t1 else t1) s

/-- R187: every 500 ns the 1 ms mean is compared with I_OL and 0.9 × I_OL. -/
def overloadCheck (r : Nat) (s : State) : State :=
  let g := s.railCfg r
  let x := s.getProt r
  let i := (s.getMeas r).iAvg
  if !g.present then s
  else if g.iol < i then
    let t0 := x.olAbove.getD s.now
    let s1 := s.updProt r fun y =>
      { y with ol := some (y.ol.getD s.now), olAbove := some t0, olt := satU 16 (divRoundN (s.now - t0) nsPerUs) }
    if x.ol.isSome then s1 else overloadClusters r s1 |> emitRail 0x3030 r i 0 0
  else
    let s1 := s.updProt r fun y => { y with olAbove := none }
    match x.ol with
    | some t =>
      if 10 * i < 9 * g.iol then
        overloadClusters r (s1.updProt r fun y => { y with ol := none, olt := 0 }) |> emitRail 0x3031 r (divRoundN (s.now - t) nsPerUs) 0 0
      else s1
    | none => s1

def execOverloadCheck (r : RailId) (s : State) : Res := act (overloadCheck r.val) s

/-- R187 step 3: the mean has stayed above I_OL for 10 ms. -/
def overloadShutdown (r : Nat) (s : State) : State :=
  let s1 := overloadCheck r s
  match (s1.getProt r).olAbove with
  | some t =>
    if t + 10 * nsPerMs ≤ s.now ∧ (s1.getProt r).running then
      protStop 2 r (emitRail 0x3032 r 0 0 0 (frecTake 0x3032 r 0xFF (offMask s1 r) r 0 0 s1))
    else s1
  | none => s1

def execOverloadShutdown (r : RailId) (s : State) : Res := act (overloadShutdown r.val) s

/-- R184: the level of `ISN[p]` at which the short-circuit comparator of a phase fires, in 1/128,000 mV: V0_p plus I_SC times
G_p. -/
def State.scLevel (s : State) (p : Nat) : Int :=
  s.zeroLevel p * 3000 + ((s.phCfg p).isc * (s.phCfg p).gain * 16 : Nat)

/-- R184: the comparator is blanked for 15 ns after each rising edge of `PWM[p]`. -/
def scBlanked (s : State) (p : Nat) : Bool :=
  match (s.getPh p).riseAt with | some t => (s.getPh p).pwm && decide (s.now < t + 15) | none => false

/-- R184: the short-circuit comparator fires: both outputs low until the phase's next period (R53); the 8th event of a sliding
1 ms disables the phase. -/
def scTrip (p : Nat) (s : State) : State :=
  let g := s.phCfg p
  if !g.present || scBlanked s p then s
  else
    let old := (s.getPh p).scTimes.filter fun t => s.now < t + nsPerMs
    let s1 := s.updPh p fun x => { x with pen := false, pwm := false, scOff := true, scTimes := old ++ [s.now], scTotal := satInc 16 x.scTotal }
    let s2 := if old = [] then emitRail 0x3020 p 0 0 0 s1 else s1
    if 7 ≤ old.length ∧ (s.getPh p).st ≠ 6 then
      identifyNext (disablePhase p (fun x => { x with scLatch := true })
        (emitRail 0x3021 p 0 0 0 (frecTake 0x3021 g.rail p 0 p 0 0 s2)))
    else s2

def execScTrip (p : PhaseId) (s : State) : Res := act (scTrip p.val) s

/-- R185: a stage fault disables its phase at the first event. -/
def stageFault (p : Nat) (s : State) : State :=
  if (s.getPh p).stage then s
  else identifyNext (disablePhase p (fun x => { x with stage := true })
    (emitRail 0x3022 p 0 0 0 (frecTake 0x3022 (s.phCfg p).rail p 0 p 0 0 s)))

/-- R56, R185: a level on `PFLT_N[p]`. Between 5 ns and 10 ns the spec leaves open whether it counts: a free value
decides. -/
def stagePin (p : Nat) (pin : PinEvent) (s : State) : State :=
  if !(s.phCfg p).present then s
  else match pin with
    | .high => s.updPh p fun x => { x with pflt := false }
    | .low ns =>
      let s1 := s.updPh p fun x => { x with pflt := true }
      if 10 ≤ ns then stageFault p s1
      else if ns < 5 then s1
      else if s1.freeVal 1 = 1 then stageFault p s1.drawn else s1.drawn

def execStageFault (p : PhaseId) (pin : PinEvent) (s : State) : Res := act (stagePin p.val pin) s

/-- R186: a readback mismatch in 2 consecutive periods; with a contending phase both are disabled with kind 1. -/
def pwmReadback (p pad : Nat) (other : Option Nat) (s : State) : State :=
  let one := fun (kind k : Nat) (t : State) =>
    if !(t.phCfg k).present || (t.getPh k).readback then t
    else disablePhase k (fun x => { x with readback := true, rbKind := kind })
      (emitRail 0x3023 k kind pad 0 (frecTake 0x3023 (t.phCfg k).rail k 0 k kind pad t))
  identifyNext (match other with
    | none => one 0 p s
    | some k => one 1 k (one 1 p s))

def execPwmReadback (p : PhaseId) (pad : Fin 2) (other : Option PhaseId) (s : State) : Res :=
  act (pwmReadback p.val pad.val (other.map Fin.val)) s

/-- R188: the sensed voltage has exceeded V_OV for 100 ns: CROWBAR, whatever the rail's state. -/
def overvoltage (r : Nat) (s : State) : State :=
  if !(s.railCfg r).present || decide ((s.getProt r).st = 6) then s
  else
    let tgt := (s.getReg r).target
    let s1 := emitRail 0x3040 r tgt 0 0 (frecTake 0x3040 r 0xFF (offMask s r) r tgt 0 s)
    identifyNext (railSettle (countStop r (stopTrackers r (crowbar r s1))))

def execOvervoltage (r : RailId) (s : State) : Res := act (overvoltage r.val) s

/-- R190: a voltage, in 0.25 mV, lies below the lower threshold of a rail's window, (1 − UV%) × V_eff. -/
def belowWindow (s : State) (r v : Nat) : Bool := decide (((100 * v : Nat) : Int) < (100 - (s.railCfg r).uvPct : Nat) * s.veff r)

/-- R190: below the lower window for 10 µs without a break while ON; `lowest` is the lowest sensed voltage. -/
def undervoltage (r lowest : Nat) (s : State) : State :=
  if (s.getProt r).st = 3 ∧ belowWindow s r lowest then
    protStop 1 r (emitRail 0x3042 r lowest 0 0 (frecTake 0x3042 r 0xFF (offMask s r) r lowest 0 s))
  else s

def execUndervoltage (r : RailId) (lowest : Fin 65536) (s : State) : Res := act (undervoltage r.val lowest.val) s

/-- R189: W1C of `CROWBAR` on the selected rail, refused while the sensed voltage is 100 mV or more and after a VANA loss (R69). -/
def crowbarClear (s : State) : State :=
  let r := s.rail.sel
  if s.pwr.vanaLoss then railRes 0x3070 s
  else if (s.getProt r).st ≠ 6 then railRes 0 s
  else if 400 ≤ (s.getMeas r).v then railRes 0x3070 s
  else
    let s1 := railPhasesTo r 1 (railPenLow r s)
    railRes 0 (s1.updProt r fun x => { x with st := if x.latched then 7 else 5 }) |> emitRail 0x3041 r 0 0 0

def execCrowbarReleased (s : State) : Res := hsEmu crowbarClear s

/-- R194: W1C of `FAULT` on the selected rail. A persisting cause refuses it: unmet trip restart conditions (R448),
VANA loss (R69), a capacity fault whose phases are not cleared (Table 7.6). -/
def faultClear (s : State) : State :=
  let r := s.rail.sel
  let x := s.getProt r
  if s.pwr.vanaLoss then railRes 0x3070 s
  else if x.st ≠ 5 then railRes 0 s
  else if s.aud.tripActive then railRes 0x3070 s
  else if x.cause = 3 ∧ (s.usablePhases r).length < (s.railCfg r).nreq then railRes 0x3070 s
  else railRes 0 (s.updProt r fun y => { y with st := 0, cause := 0 })

def execFaultClear (s : State) : Res := hsEmu faultClear s

/-- R194: a write of `RAIL_PROT_STAT`: a W1C bit acts on the state it was set in; `RAIL_RES` is that of the bit that was set. -/
def protClear (v : Nat) (s : State) : State :=
  if bitOf v 0 && decide ((s.getProt s.rail.sel).st = 6) then crowbarClear s
  else if bitOf v 1 then faultClear s
  else if bitOf v 0 then crowbarClear s
  else railRes 0 s

/-- R185, R194: W1C of bits of `RAIL_PH_PROT` on the selected phase; bit 1 is refused while `PFLT_N[p]` is low. A phase
with no latched fault left returns to state 1, off. After a VANA loss every clear is refused (R69). -/
def phaseClear (m : Nat) (s : State) : State :=
  let p := s.rail.phSel
  let x := s.getPh p
  let refused := bitOf m 1 && x.stage && x.pflt
  if s.pwr.vanaLoss then railRes 0x3070 s
  else
  let s1 := s.updPh p fun y =>
    { y with scLatch := y.scLatch && !bitOf m 0, stage := y.stage && (!bitOf m 1 || y.pflt),
             readback := y.readback && !bitOf m 2, idFail := y.idFail && !bitOf m 3 }
  let s2 := s1.updPh p fun y =>
    { y with st := if y.st = 6 ∧ !(y.scLatch || y.stage || y.readback || y.idFail) then 1 else y.st }
  railRes (if refused then 0x3070 else 0) s2

def execPhaseFaultClear (clear : Fin 16) (s : State) : Res := hsEmu (phaseClear clear.val) s

/-- Every rail of a mask is configured, and the mask names one (check 8 of Table 14.4). -/
def railsNamed (s : State) (m : Nat) : Bool := decide (m ≠ 0) && (maskIdx 8 m).all fun r => (s.railCfg r).present

/-- R195, R448, R460, R69: a start of a named rail is denied. -/
def startDenied (s : State) (m r : Nat) : Bool :=
  let g := s.railCfg r
  decide ((s.getProt r).st ≠ 0) || s.aud.tripActive || s.aud.padHold || s.pwr.vanaLoss ||
    (decide (1 ≤ g.mode) && decide (g.mode ≤ 3) && decide ((s.getProt g.master).st ≠ 3) && !bitOf m g.master)

def descRailCtrl : DescSpec := { opcode := 0x0020 }

/-- RAIL_CTRL with OP 0 (R175, R195). -/
def railCtrlStart (m : Nat) (s : State) : DescOut :=
  if !railsNamed s m then .fail 0x9009 s
  else if (maskIdx 8 m).any (startDenied s m) then .fail 0x3071 s
  else .done 0 m (beginStart m 3 false s)

def execRailCtrlStart (h : DescHdr) (rails : Fin 256) (s : State) : Res :=
  act (runDesc h descRailCtrl (railCtrlStart rails.val)) s

/-- RAIL_CTRL with OP 1: a ramped stop of the named running rails and of those that track them (R179, R180). -/
def railCtrlStop (m : Nat) (s : State) : DescOut :=
  if !railsNamed s m then .fail 0x9009 s
  else
    let named := maskIdx 8 m
    let l := (List.range 8).filter fun r =>
      (s.getProt r).running && !s.inStop r && (named.contains r || named.any fun k => (trackers s 8 k).contains r)
    if l = [] then .done 0 0 s
    else
      let s1 := (forList l stopClustersOf s).onRail fun x =>
        { x with stops := x.stops ++ [{ rails := maskOf l, fast := false, cause := 0 }],
                 starts := x.starts.map fun q => { q with rails := maskOf ((maskIdx 8 q.rails).filter fun r => !l.contains r) } }
      .done 0 (maskOf l) (identifyNext (finishStart (rampDownLevels s1)))

def execRailCtrlStop (h : DescHdr) (rails : Fin 256) (s : State) : Res :=
  act (runDesc h descRailCtrl (railCtrlStop rails.val)) s

/-- Sector of the ring that holds record slot `k` (R197). -/
def slotSector (k : Nat) : Nat := 2 + k / 32

/-- Start erasing a sector of the ring: its slots read as empty. -/
def eraseSector (n : Nat) (f : FRec) : FRec :=
  { f with erasing := f.erasing ++ [n], slots := if n < 2 then f.slots else f.slots.filter fun e => slotSector e.1 ≠ n
           ptrs := if n < 2 then f.ptrs.set n [] else f.ptrs }

/-- R197, R199, R200: program the first queued record and its pointer entry, and erase ahead of use. When the pointer sector in
use is full, the entry goes into the other one, and only then is the full one erased. -/
def frecProgram (f : FRec) : FRec :=
  match f.queue with
  | [] => f
  | r :: rest =>
    let slot := if f.ptrValid then (f.ptrSlot + 1) % 320 else 0
    let seq := if f.ptrSeq + 1 < 0xFFFFFFFF then f.ptrSeq + 1 else 0
    let r' := { r with seq := seq, flags := r.flags + 16 * b2n f.overflow }
    let full := decide (512 ≤ (f.ptrs.getD f.ptrSector []).length)
    let sec := if full then 1 - f.ptrSector else f.ptrSector
    let f1 := { f with queue := rest, overflow := false, slots := Tbl.set none f.slots slot (some r'), ptrSlot := slot,
                       ptrValid := true, ptrSeq := seq, ptrSector := sec,
                       ptrs := f.ptrs.set sec (f.ptrs.getD sec [] ++ [(seq, slot, r'.check)]) }
    let f2 := if slot % 32 = 0 then eraseSector (2 + (slot / 32 + 1) % 10) f1 else f1
    if full then eraseSector (f.ptrSector % 2) f2 else f2

/-- R26: a firmware restart that waited for the commit may go on. -/
def warmGo (s : State) : State :=
  if s.pwr.fwWait then (s.onPwr fun p => { p with fwWait := false }).onFw fun f => { f with warmAt := s.now } else s

/-- R196–R200: the first queued record has been committed, or its program failed. -/
def frecCommitted (ok : Bool) (s : State) : State :=
  let f := s.frec
  match f.queue with
  | [] => s
  | r :: rest =>
    if !f.busy then s
    else if !ok then frecLost r.code 1 (s.onFrec fun x => { x with queue := rest })
    else
      let s1 := s.onFrec fun x => { frecProgram x with lastCommit := s.now }
      let seq := s1.frec.ptrSeq
      let t := s.now - max r.time f.lastCommit
      let s2 := emitRail 0x3060 seq s1.frec.ptrSlot (s.now - r.time) 0 s1
      if 300 * nsPerUs < t then emitRail 0x3062 seq t 0 0 s2 else s2

/-- R196: a commit ends; a warm reset that waited for it goes on. -/
def frecCommit (ok : Bool) (s : State) : State := if s.frec.busy then warmGo (frecCommitted ok s) else s

def execFrecCommitted (ok : Bool) (s : State) : Res := act (frecCommit ok) s

/-- R201: the slot named in `RAIL_FREC_SEL` is in the window buffer; a slot above 319 loads zeros. -/
def frecLoad (s : State) : State :=
  if s.nvDown then s
  else s.onFrec fun f =>
    { f with loaded := true, win := if 320 ≤ f.sel then List.replicate 32 0 else frecWords (Tbl.get none f.slots f.sel) }

def execFrecSlotLoaded (s : State) : Res := act frecLoad s

/-- R197, R200: the oldest erase in progress is complete; with none left the ring is ready. -/
def eraseDone (s : State) : State :=
  if s.frec.erasing = [] then s
  else s.onFrec fun f =>
    let l := f.erasing.drop 1
    { f with erasing := l, ready := f.ready || (l = []), init := f.init && !(l = []) }

def execSectorEraseDone (s : State) : Res := act eraseDone s

/-- R65: `PFAIL_N` low for 1 µs or more. -/
def inputFail (pin : PinEvent) (s : State) : State :=
  match pin with
  | .high => s.onPwr fun p => { p with pfailLow := false }
  | .low ns =>
    let s1 := s.onPwr fun p => { p with pfailLow := true }
    if ns < 1000 then s1
    else
      let off := maskOf ((List.range 8).filter fun r => (s.getProt r).running)
      setAlarm 10 (fastStopAll 9 (emitRail 0x3080 0 0 0 0 (frecTake 0x3080 0xFF 0xFF off 0 0 0 s1)))

/-- R64, R65: a level at the block's board-side inputs. The levels of the alert pads are kept and have no other effect. -/
def boardPin (pin : BoardPin) (s : State) : State :=
  match pin with
  | .pfail p => inputFail p s
  | .alerts a t h => s.onPwr fun p => { p with alertExt := a, throtExt := t, hotExt := h }

def execInputPowerFail (pin : BoardPin) (s : State) : Res := act (boardPin pin) s

/-- R69: VANA below its threshold for 1 µs. -/
def vanaLoss (ns : Nat) (s : State) : State :=
  if ns < 1000 ∨ s.pwr.vanaLoss then s
  else
    let off := maskOf ((List.range 8).filter fun r => (s.getProt r).running)
    let s1 := emitRail 0x3081 0 0 0 0 (frecTake 0x3081 0xFF 0xFF off 0 0 0 s)
    let s2 := s1.onPwr fun p => { p with vanaLoss := true }
    let s3 := forList s2.railIds (fun r t =>
      (railPhasesTo r 1 (railPenLow r t)).updProt r fun x =>
        { x with st := 7, latched := true, cause := 10, zeroAt := none }) s2
    let s4 := s3.onRail fun x => { x with starts := [], stops := [] }
    setAlarm 9 (stopAllClocks (fun x => { x with stopVana := true }) s4)

def execVanaLoss (lowNs : Nat) (s : State) : Res := act (vanaLoss lowNs) s

end Sys2Proof.Machine
end

