-- ==== Sys2Proof/Machine/TlyInst.lean ====
section
/-!
DEFINITION. Tally program images, their install checks, slot tables and their admission, and model-set registration
(R214–R228).
-/
namespace Sys2Proof.Machine

/-- `n` bytes at an offset. -/
def sub (b : List Nat) (off n : Nat) : List Nat := (b.drop off).take n

/-- A little-endian field. -/
def fld (b : List Nat) (off n : Nat) : Nat := leNat (sub b off n)

/-- A signed little-endian field of 4 bytes. -/
def fldS (b : List Nat) (off : Nat) : Int := decS 32 (fld b off 4)

/-- Bytes that must be 0 are. -/
def zeros (b : List Nat) (off n : Nat) : Bool := (sub b off n).all (· = 0)

/-- A program image taken apart (Table 8.4 and R219). -/
structure TlyImg where
  magic : Nat
  format : Nat
  cls : Nat
  id : Nat
  ver : Nat
  nInstr : Nat
  cost : Nat
  cost7 : Nat
  nConst : Nat
  nPwl : Nat
  nBind : Nat
  coefHs : Nat
  outBase : Nat
  outN : Nat
  scrBase : Nat
  scrN : Nat
  len : Nat
  rsvZero : Bool
  instrs : List Nat
  consts : List (List Int)
  pwl : List (List (Int × Int × Int))
  binds : List (Nat × Nat)
  coef : List (Nat × Nat)
  /-- bytes that the sections and the signature take -/
  need : Nat
deriving DecidableEq, Repr

/-- Take an image apart. -/
def tlyImg (b : List Nat) : TlyImg :=
  let nI := fld b 16 2
  let nC := fld b 22 1
  let nP := fld b 23 1
  let nB := fld b 24 1
  let hs := fld b 26 2
  let o1 := 64 + 16 * nI
  let o2 := o1 + 16 * nC
  let o3 := o2 + 192 * nP
  let o4 := o3 + 8 * nB
  let o5 := o4 + 16 * hs
  let ix := List.range
  { magic := fld b 0 4, format := fld b 4 1, cls := fld b 5 1, id := fld b 8 4, ver := fld b 12 4, nInstr := nI,
    cost := fld b 18 2, cost7 := fld b 20 2, nConst := nC, nPwl := nP, nBind := nB, coefHs := hs,
    outBase := fld b 28 2, outN := fld b 30 2, scrBase := fld b 32 2, scrN := fld b 34 2, len := fld b 36 4,
    rsvZero := zeros b 6 2 && zeros b 25 1 && zeros b 40 24 && (ix nB).all fun k => zeros b (o3 + 8 * k + 6) 2
    instrs := (ix nI).map fun k => fld b (64 + 16 * k) 16
    consts := (ix nC).map fun k => (ix 4).map fun j => fldS b (o1 + 16 * k + 4 * j)
    pwl := (ix nP).map fun k => (ix 16).map fun j =>
      let o := o2 + 192 * k + 12 * j
      (fldS b o, fldS b (o + 4), fldS b (o + 8))
    binds := (ix nB).map fun k => (fld b (o3 + 8 * k) 4, fld b (o3 + 8 * k + 4) 2)
    coef := (ix hs).map fun k => (fld b (o4 + 16 * k) 16, fld b (o5 + k) 1)
    need := o5 + (hs + 15) / 16 * 16 + 96 }

/-- Check 1 of Table 8.5; `len` is what the descriptor says was read. -/
def imgWhole (b : List Nat) (g : TlyImg) : Bool :=
  g.magic = 0x50594C54 && decide (g.len ≤ 262144) && decide (g.len ≤ b.length) && decide (g.len % 16 = 0) &&
    decide (64 ≤ b.length) && decide (g.need ≤ g.len)

/-- The signature is ECDSA P-384 over all bytes before it (R219). -/
def signedBy (key : Nat) (b : List Nat) (len : Nat) : Bool :=
  decide (96 ≤ len) && decide (len ≤ b.length) && Config.sigValid key (b.take (len - 96)) (sub b (len - 96) 96)

/-- Instruction fields as Table 8.3 gives them, with `DEP` forced for format 3 (R220). -/
def TlyImg.ins (g : TlyImg) : List TlyInstr :=
  g.instrs.map fun w => let i := tlyDecode w; if g.format = 3 then { i with dep := true } else i

/-- R214: the fields that an operation does not use are 0. -/
def unusedZero (i : TlyInstr) (w : Nat) : Bool :=
  match i.op with
  | 0 => w = 0
  | 1 => i.n = 0 && (!i.lsrc || i.acc = 1) && (i.abind || i.bind = 0)
  | 2 => !i.lsrc && (i.abind || i.bind = 0)
  | 3 => i.acc = 0 && !i.wb && !i.ka && !i.neg && i.accb = 0 && i.k = 0 && i.aAddr = 0 && !i.lsrc && i.n = 0 &&
      i.accQ = 0 && i.bind = 0 && !i.abind
  | 4 => i.acc = 0 && !i.wb && !i.ka && !i.neg && i.accb = 0 && i.k = 0 && i.aAddr = 0 && !i.lsrc && i.n = 0 &&
      i.lAddr = 0 && i.accQ = 0 && i.postQ = 0 && !i.popA && i.popB = 0 && i.param = 0 && i.bind = 0 && !i.abind
  | _ => false

/-- The operations of an instruction that start from or leave accumulators. -/
def TlyInstr.mat (i : TlyInstr) : Bool := i.op = 1 || i.op = 2

/-- R215, R216: accumulator use; `own` holds the instruction that left each accumulator, `none` where it is free. -/
def accUse : List TlyInstr → Nat → Tbl (Option Nat) → Bool
  | [], _, _ => true
  | i :: l, n, own =>
    if !i.mat then accUse l (n + 1) own
    else
      let r := (List.range i.outs).map (i.accb + ·)
      let o := Tbl.get none own i.accb
      let keepOk := i.acc ≠ 2 || (o.isSome && r.all fun a => Tbl.get none own a = o)
      let next := if i.wb then none else if i.acc = 2 then o else some n
      decide (i.accb + i.outs ≤ 64) && keepOk && accUse l (n + 1) (r.foldl (fun t a => Tbl.set none t a next) own)

/-- R211: what an install asks of constants and tables. -/
def constOk (g : TlyImg) (i : TlyInstr) : Bool :=
  let c := g.consts.getD i.param []
  match i.popB with
  | 3 => g.nConst ≤ i.param || decide (c.getD 0 0 ≤ c.getD 1 0)
  | 7 => g.nConst ≤ i.param || (decide (-62 ≤ c.getD 0 0) && decide (c.getD 0 0 ≤ 62))
  | _ => true

/-- Breakpoints ascend strictly. -/
def ascends : List (Int × Int × Int) → Bool
  | a :: b :: l => decide (a.1 < b.1) && ascends (b :: l)
  | _ => true

/-- R220: the restrictions of format 3. -/
def format3Ok (g : TlyImg) : Bool :=
  g.format ≠ 3 || (g.nBind = 0 && (g.ins.all fun i => !i.ka && i.popB ≠ 7 && !i.abind))

/-- Check 4 of Table 8.5. -/
def imgEncoding (g : TlyImg) : Bool :=
  g.rsvZero && [0, 4, 5, 6].contains g.cls && decide (2 ≤ g.nInstr) && decide (g.nInstr ≤ 2048) &&
    decide (g.nConst ≤ 64) && decide (g.nPwl ≤ 16) && decide (g.nBind ≤ 32) &&
    (g.instrs.all fun w =>
      let i := tlyDecode w
      decide (i.op ≤ 4) && i.rsv = 0 && i.acc ≠ 3 && decide (i.popB ≤ 7) && unusedZero i w &&
        (!i.mat || i.ka || i.aAddr % 2 = 0)) &&
    ((g.ins.take (g.nInstr - 1)).all fun i => i.op ≠ 0) && (g.ins.drop (g.nInstr - 1)).all (fun i => i.op = 0) &&
    accUse g.ins 0 [] && g.ins.all (constOk g) && g.pwl.all ascends && (g.coef.all fun c => decide (c.2 < 64)) &&
    format3Ok g

/-- State blocks that an instruction reads, as ranges. -/
def TlyInstr.reads (i : TlyInstr) : List (Nat × Nat) :=
  let src := match i.op with
    | 1 => [(i.bAddr, i.k / 4 + 1)]
    | 2 => [(i.bAddr, (i.k + 1) * (i.n + 1))]
    | 3 => [(i.bAddr, i.m + 1)]
    | 4 => [(i.bAddr, i.m + 1)]
    | _ => []
  let ld := i.mat && i.acc = 1 && !i.lsrc
  let pa := i.popA && ((i.mat && i.wb) || i.op = 3)
  src ++ (if ld || pa then [(i.lAddr, i.outs)] else [])

/-- State blocks that an instruction writes, as ranges. -/
def TlyInstr.writes (i : TlyInstr) : List (Nat × Nat) :=
  if (i.mat && i.wb) || i.op = 3 || i.op = 4 then [(i.dAddr, i.outs)] else []

/-- Two ranges share a block; an empty range shares none. -/
def meets (a b : Nat × Nat) : Bool := decide (max a.1 b.1 < min (a.1 + a.2) (b.1 + b.2))

/-- One range lies in another; an empty range lies in every one. -/
def inside (a b : Nat × Nat) : Bool := a.2 = 0 || (decide (b.1 ≤ a.1) && decide (a.1 + a.2 ≤ b.1 + b.2))

/-- Every block of a range lies in one of the windows. -/
def covered (ws : List (Nat × Nat)) (a : Nat × Nat) : Bool :=
  (List.range a.2).all fun k => ws.any (inside (a.1 + k, 1))

/-- Check 5 (R217): no read of a block written earlier in the same group. -/
def noHazard : List TlyInstr → List (Nat × Nat) → Bool
  | [], _ => true
  | i :: l, w =>
    let old := if i.dep then [] else w
    (i.reads.all fun r => old.all fun x => !meets r x) && noHazard l (i.writes ++ old)

/-- Half-slots of coefficients that a matrix instruction reads from `A_ADDR`, biases included. -/
def TlyInstr.coefSpan (i : TlyInstr) : Nat :=
  let tiles := if i.op = 2 then (i.m + 1) * (i.k + 1) else 4 * (i.m + 1) * (i.k + 1)
  let bias := if i.op = 1 ∧ i.lsrc then i.m + 1 else 0
  (tiles + bias) * (if i.ka then 1 else 2)

/-- Check 6 (R218): every reference of an instruction is inside its window. -/
def insBounds (c : TlyCfg) (g : TlyImg) (i : TlyInstr) : Bool :=
  let coefOk := !i.mat ||
    (if i.abind then
       match g.binds[i.bind]? with
       | some b => decide (i.aAddr + i.coefSpan ≤ 256 * b.2)
       | none => false
     else decide (i.aAddr + i.coefSpan ≤ g.coefHs))
  let rd := i.reads.all (covered [(c.inBase, c.inN), (c.outBase, c.outN), (g.scrBase, g.scrN)])
  let wr := i.writes.all (covered [(g.outBase, g.outN), (g.scrBase, g.scrN)])
  let par := match i.popB with
    | 0 => true
    | 4 => true
    | 6 => decide (i.param < g.nPwl)
    | _ => decide (i.param < g.nConst)
  coefOk && rd && wr && par

/-- Check 6 of Table 8.5. -/
def imgBounds (c : TlyCfg) (g : TlyImg) : Bool :=
  inside (g.outBase, g.outN) (c.outBase, c.outN) && inside (g.scrBase, g.scrN) (c.scrBase, c.scrN) &&
    g.ins.all (insBounds c g)

/-- Cube-ops of an instruction (R215). -/
def TlyInstr.ops (i : TlyInstr) : Nat :=
  match i.op with
  | 1 => (i.m + 1) * (i.k + 1)
  | 2 => (i.m + 1) * (i.n + 1) * (i.k + 1)
  | 3 => i.m + 1
  | 4 => i.m + 1
  | _ => 0

/-- R217: steps of a run on `c` cubes; `cur` is the ops of the group so far. -/
def runSteps (c : Nat) : List TlyInstr → Nat → Nat
  | [], cur => (cur + c - 1) / c
  | i :: l, cur => if i.dep then (cur + c - 1) / c + runSteps c l i.ops else runSteps c l (cur + i.ops)

/-- Check 7 of Table 8.5. -/
def imgCost (g : TlyImg) : Bool := g.cost = runSteps 8 g.ins 0 && g.cost7 = runSteps 7 g.ins 0

/-- Program entries in use. -/
def State.progs (s : State) : List Nat := (List.range 128).filter fun p => (s.getProg p).installed

/-- The program that an image replaces: the newest one with its `PROG_ID`, installed or marked failed (R222). -/
def State.replacedBy (s : State) (id : Nat) : Option Nat :=
  let l := (List.range 128).filter fun p => (s.getProg p).installed || (s.getProg p).failed
  (l.filter fun p => (s.getProg p).id = id && !(l.any fun q => (s.getProg q).replaces = some p)).head?

/-- Loops that draw coefficients from program entry `p` and are in AUTOMATIC (R248). -/
def State.loopsAuto (s : State) (p : Nat) : Bool :=
  s.clusters.any fun c => (List.range 5).any fun j =>
    (s.loopCfg c j).present && (s.getLp c j).auto &&
      (((s.getProg p).cls = 0 && (s.getLp c j).limProg = p) || ((s.getProg p).cls = 4 && (s.getLp c j).obsProg = p))

/-- The integrator key that verifies configurations, programs, sets and tables (R417): its hash. -/
def State.intKey (s : State) : Nat := s.fw.intKey

/-- A place for `n` half-slots in the pinned region, at an even half-slot. -/
def pinPlace (s : State) (n : Nat) : Option Nat :=
  let used := s.progs.map fun p => ((s.getProg p).pinBase, (s.getProg p).coefHs)
  let ends := (0 :: used.map fun u => (u.1 + u.2 + 1) / 2 * 2)
  if n = 0 then some 0
  else argMin (fun k => (k : Int))
    (ends.filter fun b => decide (b + n ≤ 256 * s.cfg.tly.pinned) && used.all fun u => !meets (b, n) u)

/-- Check 10 of Table 8.5. -/
def storeOk (s : State) (g : TlyImg) : Bool :=
  let tot := fun (f : TlyProg → Nat) => sumN (s.progs.map fun p => f (s.getProg p))
  decide (s.progs.length < 128) && decide (tot (fun p => p.instrs.length) + g.nInstr ≤ 2048) &&
    decide (tot (fun p => p.consts.length) + g.nConst ≤ 512) && decide (tot (fun p => p.pwl.length) + g.nPwl ≤ 64) &&
    (pinPlace s g.coefHs).isSome

/-- Feature `FORMAT3` is off: negotiated without it (R386). -/
def State.noFormat3 (s : State) : Bool := s.hif.negDone && !s.feat 9

/-- Table 8.5: the status of an image, 0 when every check passes. -/
def imgCheck (b : List Nat) (s : State) : Nat :=
  let g := tlyImg b
  let old := s.replacedBy g.id
  if !imgWhole b g then 0x4003
  else if !signedBy s.intKey b g.len then 0x4001
  else if !(g.format = 4 || (g.format = 3 && !s.noFormat3)) then 0x4002
  else if !imgEncoding g then 0x4003
  else if !noHazard g.ins [] then 0x4004
  else if !imgBounds s.cfg.tly g then 0x4005
  else if !imgCost g then 0x4006
  else if s.progs.any fun p => some p ≠ old && meets (g.outBase, g.outN) ((s.getProg p).outBase, (s.getProg p).outN) then 0x4007
  else if s.progs.any fun p => (s.getProg p).id = g.id && decide (g.ver < (s.getProg p).ver) then 0x4009
  else if !storeOk s g then 0x4008
  else 0

/-- Run time of a slot in ns, on 8 or 7 cubes for a Tally slot (R224). -/
def slotNs (s : State) (seven : Bool) (e : SlotEntry) : Nat :=
  if e.exec = 0 then 2 * (if seven then (s.getProg e.work).cost7 else (s.getProg e.work).cost) else fwRunNs s e.work

/-- The slots that run in frame `n`, in table order. -/
def frameSlots (tab : List SlotEntry) (n : Nat) : List SlotEntry :=
  ((List.range tab.length).filter (slotRuns tab n)).filterMap fun k => tab[k]?

/-- Completion of each slot of one executor's list and whether it is in time. -/
def ends (t : SlotEntry → Nat) (must : SlotEntry → Bool) : List SlotEntry → Nat → Bool
  | [], _ => true
  | e :: l, prev =>
    let e2 := max e.start prev + t e
    (!must e || decide (e2 ≤ e.deadline)) && ends t must l e2

/-- Tally steps of a frame. -/
def frameSteps (s : State) (tab : List SlotEntry) (n : Nat) : Nat :=
  sumN (((frameSlots tab n).filter fun e => e.exec = 0).map fun e => (s.getProg e.work).cost)

/-- Frames of one hyperperiod (R225). -/
def hyper (tab : List SlotEntry) : Nat := (tab.map fun e => max 1 e.period).foldl Nat.lcm 1

/-- Conditions 2 and 3 of R224 in frame `n`. -/
def frameFits (s : State) (tab : List SlotEntry) (n : Nat) : Bool :=
  let l := frameSlots tab n
  (l.all fun e => ends (slotNs s false) (fun _ => true) (l.filter fun x => sameExec x e) 0) &&
    ends (slotNs s true) (fun x => x.cls = 0) (l.filter fun x => x.exec = 0) 0

/-- R224 to R226: a slot table is admitted. -/
def admitTable (s : State) (tab : List SlotEntry) : Bool :=
  let n := s.tly.nact
  let old := s.slots
  let frames := List.range (hyper tab)
  (if 7 ≤ n then frames.all fun k => decide (frameSteps s tab k ≤ stepLimit s (min 8 n))
   else (List.range (Nat.lcm (hyper tab) (hyper old))).all fun k => decide (frameSteps s tab k ≤ frameSteps s old k)) &&
    frames.all (frameFits s tab)

/-- R81: Treasury allocation runs in a single ALLOC slot every ⌈10 µs / F⌉ frames. -/
def allocOk (s : State) (tab : List SlotEntry) : Bool :=
  let l := tab.filter fun e => e.cls = 2
  decide (l.length ≤ 1) && l.all fun e => decide (e.period = s.allocFrames)

/-- R81, R223, R225: the entries of a table are legal; `loose` lets a configured table name a failed program. A table whose ALLOC
slots are not those of R81 is not admitted (log entry 87). -/
def entriesOk (loose : Bool) (s : State) (tab : List SlotEntry) : Bool :=
  allocOk s tab && tab.all fun e =>
    decide (e.exec ≤ 3) && decide (e.cls ≤ 6) && decide (e.cluster < 32) && decide (1 ≤ e.period) &&
      (e.exec ≠ 0 || ([1, 2, 4, 8, 16, 32, 64, 128].contains e.period &&
        ((loose && (s.getProg e.work).failed) || ((s.getProg e.work).installed && (s.getProg e.work).cls = e.cls))))

/-- Install a table at the next frame boundary (R82). -/
def tableLoad (tab : List SlotEntry) (s : State) : State :=
  let m := (List.range (hyper tab)).foldl (fun a k => max a (frameSteps s tab k)) 0
  (s.onFrm fun f => { f with nextTable := some tab }).onTly fun t =>
    { t with nextUsed := m, limit := stepLimit s (min 8 s.tly.nact) }

/-- A table with every slot of program `q` moved to program `p`. -/
def retable (q p : Nat) (tab : List SlotEntry) : List SlotEntry :=
  tab.map fun e => if e.exec = 0 ∧ e.work = q then { e with work := p } else e

/-- R221: put a checked image into entry `p`. -/
def progStore (p : Nat) (conf : Bool) (b : List Nat) (old : Option Nat) (s : State) : State :=
  let g := tlyImg b
  let base := (pinPlace s g.coefHs).getD 0
  let s1 := s.onTly fun t =>
    { t with coef := (List.range g.coefHs).foldl (fun u k => Tbl.set (0, 0) u (base + k) (g.coef.getD k (0, 0))) t.coef }
  (s1.updProg p fun _ =>
    { installed := true, configured := conf, id := g.id, ver := g.ver, cls := g.cls, format := g.format, cost := g.cost,
      cost7 := g.cost7, outBase := g.outBase, outN := g.outN, scrBase := g.scrBase, scrN := g.scrN, instrs := g.instrs,
      consts := g.consts, pwl := g.pwl, binds := g.binds, pinBase := base, coefHs := g.coefHs, replaces := old,
      digest := Config.sha384 (b.take g.len) })
  |> emitTly 0x4010 g.id g.ver p g.format

/-- R221: the slot table changes to a replacement, and the old program is freed. -/
def progSwap (q p : Nat) (s : State) : State :=
  match (match s.frm.nextTable with | some t => some t | none => s.frm.table) with
  | none => (progFree q s).updProg p fun x => { x with replaces := none }
  | some tab =>
    if !scheduled tab q && !scheduled s.slots q then (progFree q s).updProg p fun x => { x with replaces := none } else
    let t := retable q p tab
    if entriesOk true s t && admitTable s t then tableLoad t s else s

/-- R221, R248: TLY_INSTALL of an image that has been read; the status, the entry and the state. -/
def tlyInstall (b : List Nat) (s : State) : Nat × Nat × State :=
  let g := tlyImg b
  let old := s.replacedBy g.id
  if (match old with | some q => s.loopsAuto q | none => false) then (0x5001, 0, s)
  else
    let st := imgCheck b s
    if st ≠ 0 then (st, 0, s)
    else match ((List.range 128).filter fun p => !(s.getProg p).installed && !(s.getProg p).failed).head? with
      | none => (0x4008, 0, s)
      | some p =>
        let s1 := progStore p false b old s
        (0, p, match old with | some q => progSwap q p s1 | none => s1)

/-- R221, R248: TLY_REMOVE. -/
def tlyRemove (p : Nat) (s : State) : Nat × State :=
  let next := s.frm.nextTable.getD []
  if !(s.getProg p).installed then (0x9009, s)
  else if s.loopsAuto p then (0x5001, s)
  else if scheduled s.slots p || scheduled next p then (0x400A, s)
  else (0, progFree p s)

/-- R222, R223: the configured program `k` is installed in entry `k`, or the entry is marked failed. -/
def confInstall (k : Nat) (b : List Nat) (s : State) : State :=
  if imgCheck b s = 0 then progStore k true b none s
  else
    let g := tlyImg b
    s.updProg k fun x => { x with failed := true, configured := true, id := g.id, ver := g.ver, cls := g.cls }

/-- R222: after a reset the Clerk installs the configured programs and loads the configured slot table. -/
def confTally (s : State) : State :=
  let s1 := forList (List.range s.cfg.tly.progs.length) (fun k => confInstall k (s.cfg.tly.progs.getD k [])) s
  if s.cfg.slots ≠ [] && entriesOk true s1 s.cfg.slots && admitTable s1 s.cfg.slots then tableLoad s.cfg.slots s1 else s1

/-- A slot table entry of 16 bytes (SLOT_TABLE), and whether its reserved bytes are 0. -/
def slotOf (b : List Nat) (k : Nat) : SlotEntry × Bool :=
  let o := 16 * k
  let x := fld b o 1
  ({ exec := x % 16, cls := x / 16, cluster := fld b (o + 1) 1, work := fld b (o + 2) 2, start := fld b (o + 4) 2,
     deadline := fld b (o + 6) 2, period := fld b (o + 8) 1 }, zeros b (o + 9) 7)

/-- R223 to R226: SLOT_TABLE of an image that has been read. -/
def slotTable (n : Nat) (b : List Nat) (s : State) : Nat × State :=
  let l := (List.range n).map (slotOf b)
  let tab := l.map Prod.fst
  if !signedBy s.intKey b (16 * n + 96) then (0x4001, s)
  else if !(l.all Prod.snd) || !entriesOk false s tab || !admitTable s tab then (0x400C, s)
  else (0, tableLoad tab s)

/-- R228: TLY_SET_REG of a header that has been read. A registration of a set whose paging is under way abandons the
paging (Table 8.10). -/
def setReg (k hdr page : Nat) (b : List Nat) (s : State) : Nat × State :=
  let n := fld b 6 2
  let len := 64 + 48 * n + 96
  if !(fld b 0 4 = 0x534D4C54 && fld b 4 1 = 4 && zeros b 5 1 && zeros b 20 44) || !signedBy s.intKey b len then (0x4001, s)
  else if n = 0 ∨ s.cfg.tly.framePages < n then (0x400D, s)
  else
    let s1 := if (s.tly.page.any fun p => p.set = k) then pageEnd 0 0 s else s
    (0, s1.updSet k fun _ =>
      { registered := true, id := fld b 8 4, ver := fld b 12 4, layout := fld b 16 4, npages := n,
        digest := Config.sha384 (b.take len), hdrAddr := hdr, pageAddr := page })

/-- R228: TLY_SET_REMOVE. -/
def setRemove (k : Nat) (s : State) : Nat × State :=
  if !(s.getSet k).registered then (0x9009, s)
  else if 0 < s.setRefs k then (0x400A, s)
  else
    let s1 := if (s.tly.page.any fun p => p.set = k) then pageEnd 0 0 s else s
    (0, s1.updSet k fun _ => {})

end Sys2Proof.Machine
end

