-- ==== Sys2Proof/Machine/Load.lean ====
section
/-!
DEFINITION. What a reset loads from the integration configuration into registers that host software or the loops change
later (R145, R167, R265, R283, R312, R317, R340), and the hardware cold start that follows the first lock (R175).
-/
namespace Sys2Proof.Machine

/-- A table from a list of pairs. -/
def tblOf {α : Type} [DecidableEq α] (d : α) (l : List (Nat × α)) : Tbl α := l.foldl (fun t e => Tbl.set d t e.1 e.2) []

/-- R167: the regulation registers of every rail, the phases at rest and the rail's clusters held. -/
def loadRails (s : State) : State :=
  let s1 := forList s.railIds (fun r t =>
    let g := t.railCfg r
    t.updReg r fun x => { x with slew := min g.slew (t.fuse.slewMax.getD r 0), comp := g.comp, act := g.comp, shed := g.shed }) s
  let s2 := forList ((List.range 128).filter fun p => (s.phCfg p).present) (fun p => State.updPh p fun x => { x with st := 1 }) s1
  forList s2.clusters (fun c => State.updClu c fun x => { x with stopRail := true }) s2

/-- R265: the tables, slope limits and loop registers of every cluster. Loops 0 and 1 have no target before the first
allocation. -/
def loadLoops (s : State) : State :=
  forList s.clusters (fun c t =>
    let g := t.cluCfg c
    let t1 := t.updClu c fun x => { x with up := g.up, dn := g.dn, vft := tblOf {} g.vft, vftNext := none }
    forList (List.range 6) (fun j u =>
      let k := u.loopCfg c j
      if k.present then
        u.updLp c j fun l =>
          { l with tgt := if j ≤ 1 then none else some k.tgt, ki := k.ki, kim := k.kim, rth := k.rth, n := k.n, nret := k.nret,
                   tsat := k.tsat, satFb := k.satFb, margin := k.margin, mofs := k.mofs, limProg := k.limProg, obsProg := k.obsProg }
      else u) t1) s

/-- R312: Treasury's registers. -/
def loadTrs (s : State) : State :=
  let g := s.cfg.trs
  s.onTrs fun t => { t with cap := g.bootCap, odPct := g.odPct, prio := g.prio, weight := g.weight, floor := g.floor }

/-- R271, R283: the class table, the permission maps and the gate limits of the forecasters. -/
def loadFc (s : State) : State :=
  let s1 := forList s.cfg.hc (fun e => State.updHc e.1 fun x =>
    { x with set := e.2.set, setValid := e.2.setValid, en := e.2.en, dur := e.2.dur, feat := e.2.feat, ipu := e.2.ipu }) s
  let s2 := forList s.cfg.hperm (fun e => State.updHx e.1 fun x => { x with perm := e.2 }) s1
  forList s2.fcClus (fun c t => t.updFcCl c fun x => { x with accTh := (t.fcCfg c).accTh, accMin := (t.fcCfg c).accMin }) s2

/-- R317, R321, R340: kind masks, barrier groups and timeout classes. -/
def loadSyn (s : State) : State :=
  let s1 := forList s.cfg.syn.kinds (fun e t =>
    forList (maskIdx 64 e.2) (fun i => State.updObj (64 * e.1 + i) fun x => { x with count := true }) t) s
  let s2 := forList s.cfg.syn.groups (fun e => State.updGrp e.1 fun x => { x with valid := true, p := e.2.1, members := e.2.2 }) s1
  s2.onSyn fun y => { y with tmo := s.cfg.syn.tmo }

/-- What a cold reset loads once the configuration is verified. -/
def loadCold (s : State) : State := loadSyn (loadFc (loadTrs (loadLoops (loadRails s))))

/-- What a configuration that becomes active at a warm reset changes (R428). -/
def loadWarm (s : State) : State := loadTrs (loadLoops s)

/-- R175: the cold start of every configured rail that is off, once the root has locked for the first time; a rail that
VANA loss has latched or an overvoltage has put into CROWBAR meanwhile stays as it is (R69, R170). -/
def coldStart (s : State) : State :=
  let m := maskOf (s.railIds.filter fun r => (s.getProt r).st = 0)
  if m = 0 ∨ s.fw.gateBlank ∨ s.fw.gateCrc then s else beginStart m 2 true s

/-- R103: the first lock of the root is followed by the cold start of the rails (steps 4 and 5 of Table 1.9). -/
def pllLockStep (s : State) : State :=
  let s1 := pllLock s
  if !s.clk.root.everLocked && s1.clk.root.everLocked then coldStart s1 else s1

/-- R103: PLL_LOCK. -/
def execPllLock (s : State) : Res := act pllLockStep s

end Sys2Proof.Machine
end

