-- ==== Sys2Proof/Machine/FwOps.lean ====
section
/-!
DEFINITION. Vault and what it checks: firmware images, configuration copies, keys, the choice of an image at boot, the
activation of configurations (R415–R428).
-/
namespace Sys2Proof.Machine

/-- R415, R419: the status that a service of Vault answers with while it cannot be had; 0 when it can. -/
def State.vaultRes (s : State) : Nat :=
  if s.fw.vault.error then 0xB009 else if s.fw.vault.ready then 0 else 0xB006

/-- R417: an integrator key hash is programmed and not revoked, as sampled. -/
def intKeyOk (f : Fuses) (h : Nat) : Bool :=
  decide (h ≠ 0) && (List.range 2).any fun i => decide (f.intHash.getD i 0 = h) && !bitOf f.intRev i

/-- A Kolhidex key is programmed and not revoked. -/
def kolKeyOk (f : Fuses) (i : Nat) : Bool := decide (i < 4) && decide (f.kolHash.getD i 0 ≠ 0) && !bitOf f.kolRev i

/-- R424, Table 16.7: the status of an image in a slot. -/
def fwCheck (f : Fuses) (o : Option FwImg) : Nat :=
  match o with
  | none => 0xB001
  | some g =>
    if !g.whole then 0xB001
    else if !(kolKeyOk f g.keyIdx && decide (f.kolHash.getD g.keyIdx 0 = g.keyHash)) then 0xB002
    else if !g.sig then 0xB003
    else if g.blockVer ≠ 0x0400 then 0xB004
    else if g.svn < f.svn then 0xB005
    else 0

/-- R428: the status of a configuration copy. -/
def cfgCheck (f : Fuses) (o : Option CfgCopy) : Nat :=
  match o with
  | none => 0xB001
  | some c => if !c.whole then 0xB001 else if !intKeyOk f c.keyHash then 0xB002 else if !c.sig then 0xB003 else 0

/-- A section entry of an image (Table 16.6): target, offset and length, with its reserved bytes 0. -/
def fwSection (b : List Nat) (k : Nat) : Nat × Nat × Nat × Bool :=
  let o := 128 + 16 * k
  (fld b o 1, fld b (o + 4) 4, fld b (o + 8) 4, zeros b (o + 1) 3 && zeros b (o + 12) 4)

/-- Size of a code bank by section target (Table 16.1). -/
def codeBank (t : Nat) : Nat := if t = 2 then 65536 else 262144

/-- Check 1 of Table 16.7 on the bytes of an image. -/
def fwWhole (b : List Nat) : Bool :=
  let len := fld b 20 4
  let secs := (List.range 3).map (fwSection b)
  decide (fld b 0 4 = 0x4B464D57) && decide (fld b 4 1 = 4) && decide (len % 16 = 0) && decide (len ≤ 786432) &&
    decide (608 ≤ len) && decide (len ≤ b.length) && zeros b 7 1 && zeros b 24 8 && zeros b 176 336 &&
    ((List.range 3).all fun t => (secs.filter fun x => x.1 = t).length = 1) &&
    (secs.all fun x => x.2.2.2 && decide (512 ≤ x.2.1) && decide (x.2.1 + x.2.2.1 ≤ len - 96) &&
      decide (x.2.2.1 ≤ codeBank x.1)) &&
    decide (fld b 11 1 = fld b 15 1)

/-- What an image in serial NOR amounts to. -/
def fwImgOf (b : List Nat) : FwImg :=
  let n := fld b 20 4 - 96
  let key := Config.sha384 (sub b 32 96)
  { whole := fwWhole b, keyIdx := fld b 5 1, keyHash := key, sig := Config.sigValid key (b.take n) (sub b n 96),
    blockVer := fld b 12 2, svn := fld b 6 1, ver := fld b 8 4, ifVer := fld b 14 2, hoVer := fld b 16 2,
    hoMin := fld b 18 2, digest := Config.sha384 (b.take n) }

/-- What a configuration envelope amounts to (R428); its body is Tuipo's and comes with the step (log entry 1). -/
def cfgCopyOf (b : List Nat) (body : Cfg) : CfgCopy :=
  let len := fld b 6 4
  let n := len - 96
  let key := Config.sha384 (sub b 14 96)
  { whole := decide (fld b 0 4 = 0x4346474B) && decide (len ≤ 1048576) && decide (206 ≤ len) && decide (len ≤ b.length),
    ver := fld b 10 4, keyHash := key, sig := Config.sigValid key (b.take n) (sub b n 96),
    digest := Config.sha384 (b.take len), body := body }

/-- The image of a slot. -/
def Fw.slotImg (f : Fw) (k : Nat) : Option FwImg := f.img.getD k none
/-- The state of a slot (Table 16.5). -/
def Fw.slotState (f : Fw) (k : Nat) : Nat := f.slotSt.getD k 0
/-- Put a slot into a state. -/
def Fw.setSlot (k st : Nat) (f : Fw) : Fw := { f with slotSt := f.slotSt.set k st }
/-- The status of a slot's last check. -/
def Fw.setLast (k st : Nat) (f : Fw) : Fw := { f with last := f.last.set k st }

/-- What a directory entry says: `PREF`, `STATE_A`, `STATE_B`, `CFG_ACT`, `CFG_STG`. -/
def Fw.dirBody (f : Fw) : List Nat := [f.pref, f.slotState 0, f.slotState 1, f.cfgAct, f.cfgStg]

/-- The 32 bytes of a directory entry (Table 16.5). -/
def dirEntry (seq : Nat) (body : List Nat) : List Nat :=
  let b := leBytes 4 0x4449524B ++ leBytes 4 seq ++ body ++ List.replicate 15 0
  b ++ leBytes 4 (crc32 b)

/-- R422: an entry is valid: its `MAGIC` stands and its CRC matches. -/
def dirValid (b : List Nat) : Bool :=
  decide (b.length = 32) && decide (fld b 0 4 = 0x4449524B) && decide (fld b 28 4 = crc32 (b.take 28))

/-- R422: the valid entry of the directory: the one with the highest `SEQ`. -/
def Fw.dirNewest (f : Fw) : Option (List Nat) :=
  (f.dir.flatten.filter dirValid).foldl (fun a b => match a with
    | none => some b
    | some x => if fld x 4 4 < fld b 4 4 then some b else a) none

/-- R422: the directory as it is read at a start; without a valid entry slot A is preferred, both slots are VALID and copy 0 is
active. -/
def Fw.dirRead (f : Fw) : Fw :=
  match f.dirNewest with
  | none => { f with pref := 0, slotSt := [1, 1], cfgAct := 0, cfgStg := 0 }
  | some b => { f with pref := fld b 8 1 % 2, slotSt := [fld b 9 1, fld b 10 1], cfgAct := fld b 11 1 % 2, cfgStg := fld b 12 1 % 3 }

/-- R422: an entry is programmed in the manner of R200: once the 128 entries of the sector in use are there, the other sector takes
it, and only then is the full one erased. -/
def Fw.dirPut (e : List Nat) (f : Fw) : Fw :=
  let full := decide (128 ≤ (f.dir.getD f.dirSector []).length)
  let k := if full then 1 - f.dirSector else f.dirSector
  let d := f.dir.set k (f.dir.getD k [] ++ [e])
  { f with dir := if full then d.set f.dirSector [] else d, dirSector := k }

/-- R422, R427: the directory takes an entry when what it says has changed and serial NOR can be written. -/
def dirWrite (s : State) : State :=
  if s.nvDown then s
  else s.onFw fun f =>
    match f.dirNewest with
    | some b => if sub b 8 5 = f.dirBody then f else f.dirPut (dirEntry (fld b 4 4 + 1) f.dirBody)
    | none => f.dirPut (dirEntry 0 f.dirBody)

/-- The running image as it is taken from a slot. -/
def runImgOf (k : Nat) (g : FwImg) : RunImg :=
  { slot := k, ver := g.ver, svn := g.svn, ifVer := g.ifVer, hoVer := g.hoVer, digest := g.digest }

/-- Check the image of a slot: the status is kept in `FW_SLOT_STAT.LAST`. -/
def slotCheck (k : Nat) (s : State) : Nat × State :=
  let st := if s.nvDown then 0xB010 else fwCheck s.fuse (s.fw.slotImg k)
  (st, s.onFw (Fw.setLast k st))

/-- R427 step 4: try a slot. It is accepted, or it becomes BAD with FW_BOOT_FAIL; an unreadable serial NOR changes no
slot. -/
def slotTry (k : Nat) (s : State) : Bool × State :=
  let r := slotCheck k s
  if r.1 = 0 then (true, r.2)
  else if r.1 = 0xB010 then (false, r.2)
  else (false, (r.2.onFw (Fw.setSlot k 4)) |> emitVault 0xB101 k r.1 0 0)

/-- R427: a slot that is tried because the other one was not accepted must be VALID. -/
def slotOther (k : Nat) (s : State) : Option Nat × State :=
  if s.fw.slotState k = 1 then
    let r := slotTry k s
    (if r.1 then some k else none, r.2)
  else (none, s)

/-- Try a slot, then the other one. -/
def slotFirst (k : Nat) (s : State) : Option Nat × State :=
  let r := slotTry k s
  if r.1 then (some k, r.2) else slotOther (1 - k) r.2

/-- R427: the slot that boots, if one does. `trial` says that a slot in TRIAL may be tried. -/
def bootPick (trial : Bool) (s : State) : Option Nat × State :=
  let p := s.fw.pref
  let o := 1 - p
  match s.fw.slotState p with
  | 1 => slotFirst p s
  | 2 =>
    if trial || decide (s.fw.slotState o ≠ 1) then slotFirst p (s.onFw (Fw.setSlot p 3))
    else slotOther o s
  | 3 => slotOther o (s.onFw (Fw.setSlot p 4))
  | _ => slotOther o s

/-- R428: fields that become active only at a cold reset differ. -/
def coldFields (a b : Cfg) : Bool := decide (a.rail ≠ b.rail) || decide (a.ph ≠ b.ph)

/-- Take a configuration copy into use. -/
def cfgUse (k : Nat) (c : CfgCopy) (s : State) : State :=
  (s.onCfg fun _ => { c.body with valid := true, version := c.ver }).onFw fun f =>
    { f with cfgAct := k, cfgValid := true, cfgVer := c.ver, intKey := c.keyHash }

/-- R428: the staged copy is verified at a reset. `cold` says whether every field may become active. -/
def cfgStaged (cold : Bool) (s : State) : Bool × State :=
  if s.fw.cfgStg = 0 ∨ s.nvDown then (false, s)
  else
    let k := s.fw.cfgStg - 1
    let o := s.fw.copy.getD k none
    let st := cfgCheck s.fuse o
    match o with
    | some c =>
      if st = 0 then
        if !cold && coldFields c.body s.cfg then (false, s.onFw fun f => { f with coldOnly := true })
        else (true, (cfgUse k c (s.onFw fun f => { f with cfgStg := 0, coldOnly := false })) |> emitVault 0xB141 k c.ver 0 0)
      else (false, (s.onFw fun f => { f with cfgStg := 0, coldOnly := false }) |> emitVault 0xB142 k st 0 0)
    | none => (false, (s.onFw fun f => { f with cfgStg := 0, coldOnly := false }) |> emitVault 0xB142 k st 0 0)

/-- R428: the configuration of a cold start: the staged copy, else the active one, else none, with FW_CFG_INVALID. -/
def cfgCold (s : State) : State :=
  let r := cfgStaged true s
  if r.1 then loadCold r.2
  else
    let t := r.2
    match t.fw.copy.getD t.fw.cfgAct none with
    | some c =>
      if cfgCheck t.fuse (some c) = 0 ∧ !t.nvDown then loadCold (cfgUse t.fw.cfgAct c t)
      else setAlarm 14 (emitVault 0xB143 0 0 0 0 t)
    | none => setAlarm 14 (emitVault 0xB143 0 0 0 0 t)

/-- R420: volatile zeroisation of Vault. -/
def vaultWipe (s : State) : State :=
  (s.onFw fun f => { f with vault := { f.vault with nonce := none } }) |> emitVault 0xB132 0 0 0 0

/-- R419: Vault enters ERROR. -/
def vaultError (test : Nat) (s : State) : State :=
  if s.fw.vault.error then s
  else
    let s1 := s.onFw fun f => { f with vault := { f.vault with ready := false, error := true } }
    setAlarm 13 (vaultWipe (emitVault 0xB130 test 0 0 0 s1))

/-- R352: a new incarnation, never 0 and never the previous one; Vault in ERROR can draw none. -/
def drawInc (s : State) : State :=
  if s.fw.vault.error then s
  else
    let v := Config.randomWord s.free % 2 ^ 32
    let a := if v = 0 ∨ v = s.clr.incOld then (v + 1) % 2 ^ 32 else v
    let b := if a = 0 ∨ a = s.clr.incOld then (a + 1) % 2 ^ 32 else a
    s.drawn.onClr fun c => { c with inc := b, incOld := b }

end Sys2Proof.Machine
end

