-- ==== Sys2Proof/Machine/Trs.lean ====
section
/-!
DEFINITION. Treasury's own commands: excursions, lease guard, margin trim, and the writes of its registers (chapter 11).
-/
namespace Sys2Proof.Machine

/-- R291: OD_END. -/
def execOdEnd (s : State) : Res := act odCheck s

/-- R287: a borrowed lease that comes within `LGUARD` of its expiry leaves L_in. -/
def leaseGuard (l id : Nat) (s : State) : State :=
  match ((s.getLnk l).bor.filter fun b => b.id = id && b.counted && b.ret.isNone).head? with
  | none => s
  | some b =>
    if s.now + s.trs.lguard * nsPerUs < b.exp then s
    else
      ((s.updLnk l fun x => { x with bor := x.bor.map fun y => if y.id = id then { y with counted := false } else y }).onTrs
        fun x => { x with outOfTurn := true })
      |> emitTrs 0x6060 id b.amt b.exp 0

/-- R287: LEASE_GUARD. -/
def execLeaseGuard (l : Fin 65) (id : Nat) (s : State) : Res := act (leaseGuard l.val id) s

/-- Ageing monitors of a cluster. -/
def State.allMons (s : State) (c : Nat) : List Nat :=
  (List.range 160).filter fun k => (s.monCfg k).present && (s.monCfg k).cluster = c

/-- Ageing monitors of a cluster that take part (R130). -/
def State.cluMons (s : State) (c : Nat) : List Nat := (s.allMons c).filter fun k => !(s.getMon k).ringFail

/-- R308: why a cluster's trim is held at 0: 2 disabled, 1 no monitor takes part, 0 a monitor lacks a baseline. -/
def trimHeld (s : State) (c : Nat) : Option Nat :=
  if !(s.cluCfg c).trimEn || !s.feat 6 then some 2
  else if (s.cluMons c).isEmpty then some 1
  else if (s.allMons c).any fun k => (s.getMon k).base.isNone then some 0
  else none

/-- R308: the largest slowing of a cluster's monitors, in ppm, negative taken as 0. -/
def slowest (s : State) (c : Nat) : Nat :=
  (s.cluMons c).foldl (fun m k => max m ((s.getMon k).slow.getD 0).toNat) 0

/-- R309: a cluster's trim is `t`; it is stored in serial NOR at each change, unless serial NOR cannot be written. -/
def trimPut (c t : Nat) (s : State) : State :=
  (s.updTrsCl c fun y => { y with trim := t }).onTrs fun x =>
    { x with norTrim := if s.nvDown then x.norTrim else Tbl.set 0 x.norTrim c t }

/-- R308: evaluate the trim of one cluster. -/
def trimClu (c : Nat) (s : State) : State :=
  let x := s.getTrsCl c
  match trimHeld s c with
  | some w =>
    let s1 := trimPut c 0 (s.updTrsCl c fun y => { y with held := some w })
    if x.held = some w then s1 else emitTrs 0x6052 c w 0 0 s1
  | none =>
    let sl := slowest s c
    let gb := (s.cluCfg c).gb * 250
    let goal := gb - min gb ((s.cluCfg c).kage * sl / 2)
    let t := if x.trim < goal then x.trim + min (goal - x.trim) 6 else goal
    let s1 := trimPut c t (s.updTrsCl c fun y => { y with held := none, trimTgt := goal })
    if t < x.trim then emitTrs 0x6051 c x.trim t 0 s1
    else if x.trim / 250 < t / 250 then emitTrs 0x6050 c t sl 0 s1
    else s1

/-- R308: every 10 minutes the trims are evaluated. -/
def trimEvaluate (s : State) : State :=
  if s.now < s.trs.trimAt + 600 * nsPerS then s
  else forList s.clusters trimClu (s.onTrs fun x => { x with trimAt := s.now })

/-- R308: TRIM_EVALUATE. -/
def execTrimEvaluate (s : State) : Res := act trimEvaluate s

/-- Leave a status in `TRS_RES` (R312). -/
def trsRes (st : Nat) (s : State) : State := s.onTrs fun x => { x with res := st }

/-- R19, R289: write the host cap. -/
def capSet (v : Nat) (s : State) : State :=
  if v < 8 ∨ s.fuse.capMax < v then trsRes 0x6001 s
  else if !admits (fun t => t.onTrs fun x => { x with cap := v }) s then trsRes 0x6002 s
  else
    let s1 := s.onTrs fun x => { x with cap := v, res := 0 }
    floorsUpdate false (odEnd 3 (emitTrs 0x6010 s.trs.cap v 0 0 s1))

/-- R289: CAP_SET. -/
def execCapSet (v : Fin 65536) (s : State) : Res := hsEmu (capSet v.val) s

/-- R307: clear every cluster's reason durations and onsets. -/
def clrRsn (s : State) : State := forList s.clusters (fun c => State.updTrsCl c fun x => { x with rsnT := [], rsnOn := [] }) s

/-- R307: CLR_RSN. -/
def execClrRsn (s : State) : Res := hsEmu (fun t => trsRes 0 (clrRsn t)) s

/-- R312: clear the count of excursions. -/
def clrOd (s : State) : State := s.onTrs fun x => { x with odCnt := 0 }

/-- R312: CLR_OD. -/
def execClrOd (s : State) : Res := hsEmu (fun t => trsRes 0 (clrOd t)) s

/-- R312: clear every context's floor-breach time. -/
def clrFlt (s : State) : State := forList (s.trs.tx.map Prod.fst) (fun t => State.updTx t fun x => { x with flt := 0 }) s

/-- R312: CLR_FLT. -/
def execClrFlt (s : State) : Res := hsEmu (fun t => trsRes 0 (clrFlt t)) s

/-- R312: write `TRS_DC_CFG`: the priority is exchanged with the class that holds it. -/
def dcPrio (v : Nat) (s : State) : State :=
  let k := s.trs.dcSel
  let p := bits v 0 2
  let w := bits v 8 8
  if w = 0 then trsRes 0x6005 s
  else s.onTrs fun x =>
    let old := x.prio.getD k 0
    { x with prio := (x.prio.map fun q => if q = p then old else q).set k p, weight := x.weight.set k w, res := 0 }

/-- R312: DC_PRIO_WRITE. -/
def execDcPrioWrite (v : Word) (s : State) : Res := hsEmu (dcPrio v.toNat) s

/-- R289: write `TRS_DC_FLOOR`. -/
def dcFloor (v : Nat) (s : State) : State :=
  let f := fun (t : State) => t.onTrs fun x => { x with floor := x.floor.set s.trs.dcSel v }
  if admits f s then floorsUpdate false (trsRes 0 (f s)) else trsRes 0x6003 s

/-- R289: DC_FLOOR_WRITE. -/
def execDcFloorWrite (v : Fin 65536) (s : State) : Res := hsEmu (dcFloor v.val) s

/-- R289, R296: set weight, class and grant of a context; the status, and the state when it is accepted. -/
def txParam (t weight cls grant : Nat) (s : State) : Nat × State :=
  if 3 ≤ cls ∨ (cls = 2 ∧ grant ≠ 0) then (0x6005, s)
  else
    let x := s.getTx t
    let f := fun (u : State) => u.updTx t fun y =>
      { y with weight := weight, cls := cls, grant := grant, floor := min y.floor grant,
               suspended := y.suspended && cls = 1 }
    if (x.grant < grant ∨ (cls = 0 ∧ x.cls ≠ 0)) ∧ !admits f s then (0x6003, s)
    else (0, floorsUpdate false (f s))

/-- R296: TX_CFG_WRITE of the context selected. -/
def execTxCfgWrite (v : Word) (s : State) : Res :=
  let n := v.toNat
  hsEmu (fun t =>
    let r := txParam t.trs.txSel (bits n 0 16) (bits n 16 2) (bits n 24 8) t
    trsRes r.1 r.2) s

end Sys2Proof.Machine
end

