-- ==== Sys2Proof/Machine/Hif.lean ====
section
/-!
DEFINITION. The host interface: doorbells, context 0, negotiation, interrupt messages, and the descriptors of the host
interface itself and of contexts, control start and baselines (chapter 14).
-/
namespace Sys2Proof.Machine

/-- R370: a context enters ERROR. -/
def ctxError (c cause db : Nat) (s : State) : State :=
  (s.updCtx c fun x => { x with st := 2, cause := cause, fetchFail := none })
  |> emitClerk 0x9013 c cause (s.getCtx c).sqHead db

/-- R375: the conditions under which a doorbell write is accepted. -/
def Ctx.dbOk (x : Ctx) (t c : Nat) : Bool :=
  let d := fun (a b : Nat) => (a + 65536 - b) % 65536
  decide (d t x.sqHead ≤ 2 ^ x.sqLog) && decide (d x.sqTail x.sqHead ≤ d t x.sqHead) &&
    decide (d x.cqTail c ≤ 2 ^ x.cqLog) && decide (d x.cqTail c ≤ d x.cqTail x.cqHead)

/-- R375: a doorbell write. -/
def doorbell (c v : Nat) (s : State) : State :=
  let x := s.getCtx c
  let t := bits v 0 16
  let q := bits v 16 16
  if x.st ≠ 1 then s.onHif fun h => { h with dbDrop := satInc 16 h.dbDrop }
  else if x.dbOk t q then s.updCtx c fun y => { y with sqTail := t, cqHead := q }
  else ctxError c 2 v (s.onHif fun h => { h with dbBad := satInc 16 h.dbBad })

/-- R375: DOORBELL_WRITE. -/
def execDoorbellWrite (c : CtxId) (v : Word) (s : State) : Res := hsHard (doorbell c.val v.toNat) s

/-- R382: the message that waited for the end of the gap. -/
def irqGap (c : Nat) (s : State) : State := if (s.getCtx c).irqWait then irqDue c s else s

/-- R382: IRQ_GAP. -/
def execIrqGap (c : CtxId) (s : State) : Res := act (irqGap c.val) s

/-- Features that firmware 4.0 offers (R386). -/
def featAvail : Nat := 0x3FF

/-- R384, R385: `HIF_NEG.GO`. -/
def negGo (s : State) : State :=
  let h := s.hif
  if !bitOf h.c0Ring 8 then s.onHif fun x => { x with negStatus := 0x9008 }
  else if h.negDone then s.onHif fun x => { x with negStatus := 0x900B }
  else
    let en := Nat.land featAvail (h.featHostLo + h.featHostHi * 2 ^ 32)
    let bad := decide (bits h.hostVer 8 8 ≠ 4)
    (s.onHif fun x => { x with negDone := true, negStatus := 0, featEn := en, mismatch := bad })
    |> emitClerk 0x9010 h.hostVer (en % 2 ^ 32) (en / 2 ^ 32) (b2n bad)

/-- R384: HIF_NEG_GO. -/
def execHifNegGo (s : State) : Res := hsHif negGo s

/-- R370: context 0 opens with every index 0. -/
def openC0 (s : State) : State :=
  let h := s.hif
  let sq := bits h.c0Ring 0 4
  let cq := bits h.c0Ring 4 4
  let w := bits h.c0Ring 16 8
  (s.updCtx 0 fun y =>
    { ({} : Ctx) with
      st := 1, sqLog := sq, cqLog := cq, schedW := w, irqEn := bitOf h.c0Ring 9,
      sqBase := h.c0SqLo + h.c0SqHi * 2 ^ 32, cqBase := h.c0CqLo + h.c0CqHi * 2 ^ 32,
      irqAddr := h.c0IrqLo + h.c0IrqHi * 2 ^ 32, irqData := h.c0IrqData, done := y.done, evtLost := y.evtLost,
      last := y.last, irqLast := y.irqLast })
  |> emitClerk 0x9011 0 (sq + cq * 16) w 0

/-- The ring sizes and the weight that a write of `HIF_C0_RING` names are in range (R388). -/
def c0RingOk (v : Nat) : Bool :=
  decide (6 ≤ bits v 0 4) && decide (bits v 0 4 ≤ 12) && decide (6 ≤ bits v 4 4) && decide (bits v 4 4 ≤ 12) &&
    decide (bits v 16 8 ≠ 0)

/-- R370, R388: a write of `HIF_C0_RING`. While `EN` is 1 only `EN` = 0 is taken, after a descriptor in progress. -/
def c0RingWrite (v : Nat) (s : State) : State :=
  if bitOf s.hif.c0Ring 8 then
    if bitOf v 8 then s
    else if (s.getCtx 0).busy then s.updCtx 0 fun x => { x with closeC0 := true }
    else ctxShut 0 s
  else if c0RingOk v then
    let s1 := s.onHif fun h => { h with c0Ring := bits v 0 10 + bits v 16 8 * 2 ^ 16 }
    if bitOf v 8 then openC0 s1 else s1
  else s

/-- R370: C0_RING_EN_WRITE. -/
def execC0RingEnWrite (v : Word) (s : State) : Res := hsHif (c0RingWrite v.toNat) s

/-- R388: clear `HIF_CNT` and every `HIF_CTX_CNT`. -/
def hifClr (s : State) : State :=
  forList (s.hif.ctx.map Prod.fst) (fun c => State.updCtx c fun x => { x with done := 0, evtLost := 0 })
    (s.onHif fun h => { h with dbBad := 0, dbDrop := 0 })

/-- R388: HIF_CTRL_CLR. -/
def execHifCtrlClr (s : State) : Res := hsHif hifClr s

/-- R379: NOP. -/
def descNop : DescSpec := { opcode := 0x0001, basic := true, tenant := true, recov := true }
def bodyNop (s : State) : DescOut := .done 0 0 s
def execNop (h : DescHdr) (s : State) : Res := act (runDesc h descNop bodyNop) s

/-- The interface version of the running firmware; 0 in recovery (R384, R427). -/
def State.ifVer (s : State) : Nat := if s.fw.recovery then 0 else 0x0400

/-- R379: IDENTIFY. -/
def descIdentify : DescSpec := { opcode := 0x0002, basic := true, tenant := true, recov := true }
def bodyIdentify (h : DescHdr) (s : State) : DescOut := .done 0 (s.ifVer + h.ctx.val * 2 ^ 16) s
def execIdentify (h : DescHdr) (s : State) : Res := act (runDesc h descIdentify (bodyIdentify h)) s

/-- R379: WARM_RESET; the reset follows the completion. -/
def descWarmReset : DescSpec := { opcode := 0x0003, basic := true }
def bodyWarmReset (key : Nat) (s : State) : DescOut :=
  if key ≠ 0x57525354 then .fail 0x9009 s else .done 0 0 (s.onPwr fun p => { p with wantWarm := some 3 })

/-- R246: a cluster with a loop in AUTOMATIC: its rails follow it again, and so does the root. -/
def cluAuto (c : Nat) (s : State) : State :=
  if s.inManual c then s
  else
    let s1 := forList (maskIdx 8 (s.cluCfg c).rails) (fun r t =>
      retarget r (t.updReg r fun x => { x with host := none })) s
    if s1.clk.root.nCur ≠ s1.bootN ∧ !s1.clk.ref.derateReq ∧ s1.clk.root.everLocked then rootRequest s1.bootN 0 s1 else s1

/-- R259: control start of one cluster: it leaves HOLD or STOPPED, and every present loop takes its configured initial
mode with its manual value and base at the applied level. A cluster that a cause holds STOPPED runs once that ends. -/
def controlClu (c : Nat) (s : State) : State :=
  let s1 := cluRestart c (cluUnhold c (s.updClu c fun x => { x with started := true, modes := [] }))
  let a := (s1.getClu c).a
  let s2 := forList (List.range 5) (fun j t =>
    if (t.loopCfg c j).present then
      t.updLp c j fun l => { l with auto := (t.loopCfg c j).initAuto, man := a / 256, firstAuto := false, reform := true,
                                    out := a, satSince := none, satFlag := false }
    else t) s1
  cluAuto c s2

/-- The rails all of whose clusters are out of HOLD follow their requests again (R21). -/
def railsFree (s : State) : State :=
  forList s.railIds (fun r t =>
    if (t.railClusters r).any fun c => (t.getClu c).st = 2 then t else t.updReg r fun x => { x with hold := false }) s

/-- R259: CONTROL_START; a cluster in the hold of a live update is busy (log entry 95). -/
def controlStart (clusters : Nat) (s : State) : DescOut :=
  let l := maskIdx 32 clusters
  if l.any fun c => !(s.cluCfg c).present then .fail 0x5004 s
  else if l.any fun c => decide ((s.getClu c).st = 2 ∧ (s.getClu c).holdCause = 0) then .fail 0x5005 s
  else
    let s1 := domStartAll (railsFree (forList l controlClu s))
    let ran := maskOf (l.filter fun c => decide ((s1.getClu c).st = 1))
    .done 0 ran (emitClerk 0x5010 ran 0 0 0 s1)

def descControlStart : DescSpec := { opcode := 0x0004 }
def execControlStart (h : DescHdr) (clusters : Nat) (s : State) : Res :=
  act (runDesc h descControlStart (controlStart clusters)) s

/-- A ring of `n` bytes at `a` is aligned to 4 KiB and inside the window (R371, R372). -/
def ringIn (o : CtxOpenOp) (a n : Nat) : Bool :=
  decide (a % 4096 = 0) && decide (o.winBase ≤ a) && decide (a + n ≤ o.winBase + 2 ^ o.winLog)

/-- Check 7 of Table 14.4 for CTX_OPEN. -/
def ctxOpenAddr (o : CtxOpenOp) : Bool :=
  ringIn o o.sqBase (64 * 2 ^ o.sqLog) && ringIn o o.cqBase (16 * 2 ^ o.cqLog) && decide (o.winBase % 2 ^ o.winLog = 0) &&
    decide (o.irqAddr % 4 = 0)

/-- Check 8 of Table 14.4 for CTX_OPEN. -/
def ctxOpenRange (o : CtxOpenOp) : Bool :=
  decide (1 ≤ o.ctx) && decide (o.ctx < 512) && decide (6 ≤ o.sqLog) && decide (o.sqLog ≤ 12) && decide (6 ≤ o.cqLog) &&
    decide (o.cqLog ≤ 12) && decide (1 ≤ o.schedW) && decide (o.schedW ≤ 255) && decide (12 ≤ o.winLog) && decide (o.winLog ≤ 40)

/-- R379: CTX_OPEN. -/
def descCtxOpen : DescSpec := { opcode := 0x0010, feature := some 0 }
def bodyCtxOpen (o : CtxOpenOp) (s : State) : DescOut :=
  if !ctxOpenAddr o then .fail 0x9007 s
  else if !ctxOpenRange o then .fail 0x9009 s
  else if (s.getCtx o.ctx).st ≠ 0 then .fail 0x9008 s
  else
    let s1 := s.updCtx o.ctx fun y =>
      { ({} : Ctx) with
        st := 1, sqLog := o.sqLog, cqLog := o.cqLog, irqEn := o.irqEn, schedW := o.schedW, winLog := o.winLog,
        winBase := o.winBase, sqBase := o.sqBase, cqBase := o.cqBase, irqAddr := o.irqAddr, irqData := o.irqData,
        done := y.done, evtLost := y.evtLost, last := y.last, irqLast := y.irqLast }
    let s2 := s1.updTx o.ctx fun t => { ({} : Tenant) with epoch := t.epoch, flt := t.flt }
    .done 0 0 (emitClerk 0x9011 o.ctx (o.sqLog + o.cqLog * 16) o.schedW 0 s2)
def execCtxOpen (h : DescHdr) (o : CtxOpenOp) (s : State) : Res := act (runDesc h descCtxOpen (bodyCtxOpen o)) s

/-- R379: CTX_CLOSE; it waits for a descriptor in progress (Table 14.9). -/
def descCtxClose : DescSpec := { opcode := 0x0011, feature := some 0 }
def bodyCtxClose (h : DescHdr) (c : Nat) (s : State) : DescOut :=
  let x := s.getCtx c
  if c = 0 ∨ 512 ≤ c then .fail 0x9009 s
  else if x.st = 0 then .fail 0x9008 s
  else if x.busy then .wait (s.updCtx c fun y => { y with closing := some h })
  else .done 0 x.left (ctxShut c s)
def execCtxClose (h : DescHdr) (ctx : Nat) (s : State) : Res := act (runDesc h descCtxClose (bodyCtxClose h ctx)) s

/-- R296: CTX_PARAM. -/
def descCtxParam : DescSpec := { opcode := 0x0012, feature := some 0 }
def bodyCtxParam (t weight cls grant : Nat) (s : State) : DescOut :=
  if 512 ≤ t then .fail 0x9009 s
  else
    let r := txParam t weight cls grant s
    .done r.1 0 r.2
def execCtxParam (h : DescHdr) (ctx weight cls grant : Nat) (s : State) : Res :=
  act (runDesc h descCtxParam (bodyCtxParam ctx weight cls grant)) s

/-- Cores of a mask that another tenant context occupies or is to occupy. -/
def State.coreTaken (s : State) (t mask : Nat) : Bool :=
  s.trs.tx.any fun e => e.1 ≠ 0 && e.1 ≠ t &&
    (decide (Nat.land e.2.cores mask ≠ 0) || decide (Nat.land (e.2.place.getD 0) mask ≠ 0))

/-- Cores of no configured cluster. -/
def State.coreAbsent (s : State) (mask : Nat) : Bool :=
  (maskIdx 128 mask).any fun k => !(s.clusters.any fun c => bitOf (s.cluCfg c).cores k)

/-- R300: CTX_PLACE. A placement on the same clusters takes effect at once; any other is a migration. -/
def descCtxPlace : DescSpec := { opcode := 0x0013, feature := some 0 }
def bodyCtxPlace (t mask : Nat) (s : State) : DescOut :=
  let x := s.getTx t
  if t = 0 ∨ 512 ≤ t ∨ s.coreAbsent mask then .fail 0x9009 s
  else if s.coreTaken t mask then .fail 0x900A s
  else if !admits (State.updTx t fun y => { y with cores := mask, place := none }) s then .fail 0x6003 s
  else if s.maskClus mask = s.maskClus x.cores then
    .done 0 x.epoch (s.updTx t fun y => { y with cores := mask, place := none })
  else .done 0 ((x.epoch + 1) % 65536) (s.updTx t fun y => { y with place := some mask })
def execCtxPlace (h : DescHdr) (ctx cores : Nat) (s : State) : Res := act (runDesc h descCtxPlace (bodyCtxPlace ctx cores)) s

/-- R296, R297: FLOOR_SET. -/
def descFloorSet (t : Nat) : DescSpec := { opcode := 0x0014, tenant := true, ctxField := some t }
def bodyFloorSet (t floor : Nat) (s : State) : DescOut :=
  if t = 0 ∨ 512 ≤ t then .fail 0x9009 s
  else if (s.getTx t).grant < floor then .fail 0x6004 s
  else
    let s1 := floorsUpdate false (s.updTx t fun x => { x with floor := floor })
    .done 0 (b2n (s1.getTx t).suspended) s1
def execFloorSet (h : DescHdr) (ctx floor : Nat) (s : State) : Res :=
  act (runDesc h (descFloorSet ctx) (bodyFloorSet ctx floor)) s

/-- R380: CTX_TELEM. -/
def descCtxTelem (t a : Nat) : DescSpec :=
  { opcode := 0x0015, tenant := true, ctxField := some t, addrs := [(a, 64, 64)] }
def bodyCtxTelem (t a : Nat) (s : State) : DescOut :=
  if t = 0 ∨ 512 ≤ t then .fail 0x9009 s else .done 0 0 (hmWrite (.words a (ctxTelem s t)) s)
def execCtxTelem (h : DescHdr) (ctx addr : Nat) (s : State) : Res :=
  act (runDesc h (descCtxTelem ctx addr) (bodyCtxTelem ctx addr)) s

/-- R131: AM_BASELINE; the ratios are measured at the capture. With serial NOR out of reach none is stored. -/
def descAmBaseline : DescSpec := { opcode := 0x0021 }
def bodyAmBaseline (mons : Nat) (x : Ext) (s : State) : DescOut :=
  let l := maskIdx 160 mons
  if l.any fun k => !(s.monCfg k).present then .fail 0x9009 s
  else if s.nvDown then .done 0 0 s
  else
    .done 0 l.length (forList l (fun k t => t.onSns fun n =>
      { n with norBase := Tbl.set none n.norBase k (some (((x.ratios.find? fun e => e.1 = k).map Prod.snd).getD (t.getMon k).ratio)) }) s)
def execAmBaseline (h : DescHdr) (monitors : Nat) (x : Ext) (s : State) : Res :=
  act (runDesc h descAmBaseline (bodyAmBaseline monitors x)) s

end Sys2Proof.Machine
end

