-- ==== Sys2Proof/Machine/EpOps.lean ====
section
/-!
DEFINITION. Requests of the engine port (R40–R44): acceptance, the field checks, and the dispatch to the synchronisation
unit and the hint queues.
-/
namespace Sys2Proof.Machine

/-- A request that a lane has accepted (R41): malformed, a hint, or a synchronisation operation. -/
def epProcess (lane : Nat) (r : EpReq) (s : State) : State :=
  if !s.engineOk r.src || !epFieldsOk r then epRespond lane r.src r.q 0x7001 0 s
  else if r.op = 9 then hintPerform lane r s
  else synPerform lane r s

/-- The engine queue has a request outstanding: a wait, or a request not yet accepted (R42). -/
def State.queueBusy (s : State) (lane src q : Nat) : Bool :=
  (s.waiter (4 * src + q)).isSome || (s.getEp lane).withheld.any fun r => r.src = src && r.q = q

/-- Present a request to a lane: accepted, or withheld while the lane's response buffer is full (R40, R44). A queue with
a request outstanding presents no other (R42). -/
def epRequest (lane : Nat) (r : EpReq) (s : State) : State :=
  if s.queueBusy lane r.src r.q then s
  else if 64 ≤ (s.getEp lane).resp.length then s.updEp lane fun l => { l with withheld := l.withheld ++ [r] }
  else epProcess lane r s

/-- Accept requests that were withheld while there is room for their responses, oldest first (R44). -/
def epDrain (lane : Nat) : Nat → State → State
  | 0, s => s
  | n + 1, s =>
    match (s.getEp lane).withheld with
    | [] => s
    | r :: l =>
      if 64 ≤ (s.getEp lane).resp.length then s
      else epDrain lane n (epProcess lane r (s.updEp lane fun x => { x with withheld := l }))

/-- The host takes a response: requests withheld on the lane are accepted as room comes (R44). -/
def epTaken (lane : Nat) (s : State) : State :=
  let s1 := s.updEp lane fun l => { l with resp := l.resp.tail }
  epDrain lane (s1.getEp lane).withheld.length s1

/-- The lane of an engine: that of its cluster (Table 2.5). -/
def State.laneOf (s : State) (src : Nat) : Nat := s.coreClu (src / 16)

/-- A request of an engine on its lane. -/
def engineReq (op : Nat) (src : EngId) (q : Fin 4) (ctx : CtxId) (obj arg tmo : Nat) (s : State) : State :=
  epRequest (s.laneOf src.val)
    { src := src.val, q := q.val, ctx := ctx.val, op := op, tmo := tmo, obj := obj, arg := arg } s

end Sys2Proof.Machine
end

