-- ==== Sys2Proof/Machine/Sync.lean ====
section
/-!
DEFINITION. Synchronisation and Escrow: the operations of the engine port, lost partners, Escrow's lends and the writes
of the unit's registers (chapter 12).
-/
namespace Sys2Proof.Machine

/-- R318: SET. -/
def execSynSet (src : EngId) (q : Fin 4) (ctx : CtxId) (obj : ObjId) (s : State) : Res :=
  act (engineReq 1 src q ctx obj.val 0 0) s

/-- R318: CLEAR. -/
def execSynClear (src : EngId) (q : Fin 4) (ctx : CtxId) (obj : ObjId) (s : State) : Res :=
  act (engineReq 2 src q ctx obj.val 0 0) s

/-- R318: WAIT_SET. -/
def execWaitSet (src : EngId) (q : Fin 4) (ctx : CtxId) (obj : ObjId) (tmo : Fin 4) (s : State) : Res :=
  act (engineReq 3 src q ctx obj.val 0 tmo.val) s

/-- R318: WAIT_CLEAR. -/
def execWaitClear (src : EngId) (q : Fin 4) (ctx : CtxId) (obj : ObjId) (tmo : Fin 4) (s : State) : Res :=
  act (engineReq 4 src q ctx obj.val 0 tmo.val) s

/-- R320: INC. -/
def execSynInc (src : EngId) (q : Fin 4) (ctx : CtxId) (obj : ObjId) (amount : Fin 65536) (s : State) : Res :=
  act (engineReq 5 src q ctx obj.val amount.val 0) s

/-- R320: DEC. -/
def execSynDec (src : EngId) (q : Fin 4) (ctx : CtxId) (obj : ObjId) (amount : Fin 65536) (s : State) : Res :=
  act (engineReq 6 src q ctx obj.val amount.val 0) s

/-- R320: WAIT_GE. -/
def execWaitGe (src : EngId) (q : Fin 4) (ctx : CtxId) (obj : ObjId) (n : Fin 65536) (tmo : Fin 4) (s : State) : Res :=
  act (engineReq 7 src q ctx obj.val n.val tmo.val) s

/-- R321: BARRIER_ARRIVE. -/
def execBarrierArrive (src : EngId) (q : Fin 4) (ctx : CtxId) (obj : ObjId) (tmo : Fin 4) (s : State) : Res :=
  act (engineReq 8 src q ctx obj.val 0 tmo.val) s

/-- R268: HINT. -/
def execHintOp (src : EngId) (q : Fin 4) (ctx : CtxId) (cls intensity lead : Fin 256) (s : State) : Res :=
  act (engineReq 9 src q ctx cls.val (intensity.val + 256 * lead.val) 0) s

/-- R270: RELEASE, a hint of class 0 with intensity 0. -/
def execReleaseHint (src : EngId) (q : Fin 4) (ctx : CtxId) (lead : Fin 256) (s : State) : Res :=
  act (engineReq 9 src q ctx 0 (256 * lead.val) 0) s

/-- R41: a malformed request is answered with the malformed-request status and has no other effect. -/
def execMalformedRequest (lane : ClusterId) (r : EpReq) (s : State) : Res :=
  act (fun t => if t.engineOk r.src && epFieldsOk r then t else epRequest lane.val r t) s

/-- R44: EP_RESPONSE_TAKEN. -/
def execEpResponseTaken (lane : ClusterId) (s : State) : Res := act (epTaken lane.val) s

/-- R329: a timeout-mode wait past its deadline fails. -/
def synTimeout (w : Nat) (s : State) : State :=
  match s.waiter w with
  | some x => if !x.mode && decide (x.start + s.syn.tmo.getD x.tmo 0 * nsPerUs ≤ s.now) then failWait 0x7006 w s else s
  | none => s

/-- R329: SYN_TIMEOUT. -/
def execSynTimeout (w : Fin 8192) (s : State) : Res := act (synTimeout w.val) s

/-- R330: a core's watchdog fires: every watchdog-mode wait of the core fails. -/
def synWatchdog (k : Nat) (s : State) : State :=
  match (s.getCore k).wd with
  | none => s
  | some t =>
    let ms := (s.getCore k).wdMs
    if s.now < t + ms * nsPerMs then s
    else
      let l := s.waits fun w x => w / 64 = k && x.mode
      (forList l (fun e => failWait 0x7007 e.1) s).updCore k (fun x => { x with wdFired := true })
      |> emitSyn 0x7011 k l.length ms 0

/-- R330: SYN_WATCHDOG_FIRE. -/
def execSynWatchdogFire (core : CoreId) (s : State) : Res := act (synWatchdog core.val) s

/-- R317: a storage error of an object: a corrected one is counted; an uncorrectable one poisons the object and fails
its waiters. -/
def synEcc (o : Nat) (corrected : Bool) (s : State) : State :=
  if corrected then s.onSyn fun y => { y with eccCorr := satInc 16 y.eccCorr }
  else
    let s1 := (s.updObj o fun x => { x with poison := true }) |> emitSyn 0x7017 o (o % 16) 0 0
    forList (s1.waitsOn o) (fun e => failWait 0x700A e.1) s1

/-- R317: SYN_ECC. -/
def execSynEcc (obj : ObjId) (corrected : Bool) (s : State) : Res := act (synEcc obj.val corrected) s

/-- R336: Escrow may lend the core's budget now. -/
def State.mayLend (s : State) (k : Nat) : Bool :=
  let x := s.getCore k
  let c := s.coreClu k
  (match x.waitSince with | some t => decide (t + 250 * s.syn.tlend ≤ s.now) | none => false) &&
    s.syn.en && s.feat 2 && x.escEn && bitOf (s.cluCfg c).cores k && decide ((s.getClu c).st = 1) && x.lent.isNone &&
    due s.now 4000 x.reclaimed

/-- R336: the amount a core lends: its part of the cluster's own share above the floor power. -/
def State.lendAmt (s : State) (c : Nat) : Nat :=
  (s.share c - (s.getTrsCl c).borrowed - s.floorPower c) / max 1 (s.nCores c)

/-- R336: lend a core's budget. -/
def escrowLend (k : Nat) (s : State) : State :=
  if s.mayLend k then
    let a := s.lendAmt (s.coreClu k)
    let s1 := (s.updCore k fun x => { x with lent := some s.now, loan := a, taken := false }).onSyn
      fun y => { y with lends := satInc 16 y.lends }
    if s.syn.log then emitSyn 0x7020 k a (s.now - ((s.getCore k).waitSince.getD s.now)) 0 s1 else s1
  else s

/-- R336: ESCROW_LEND. -/
def execEscrowLend (core : CoreId) (s : State) : Res := act (escrowLend core.val) s

/-- R340: clear the unit's counts. -/
def synCtrlClr (s : State) : State :=
  s.onSyn fun y => { y with udf := 0, ovf := 0, race := 0, viol := 0, failed := 0, lends := 0, res := 0 }

/-- R340: SYN_CTRL_CLR. -/
def execSynCtrlClr (s : State) : Res := hsEmu synCtrlClr s

/-- Leave a status in `SYN_RES` (R340). -/
def synRes (st : Nat) (s : State) : State := s.onSyn fun y => { y with res := st }

/-- R328, R338, R340: write `SYN_CORE_CFG` of the core selected. -/
def synCoreCfg (v : Nat) (s : State) : State :=
  let k := s.syn.coreSel
  if bits v 2 4 = 0 ∨ bits v 16 16 = 0 then synRes 0x700D s
  else
    let s1 := (waitMark k s).updCore k fun x =>
      { x with mode := bitOf v 0, escEn := bitOf v 1, qmask := bits v 2 4, wdMs := bits v 16 16 }
    let s2 := if bitOf v 1 then s1 else reclaimCore 2 (s1.coreClu k) k s1
    synRes 0 (coreUpdate k s2)

/-- R328: SYN_CORE_CFG_WRITE. -/
def execSynCoreCfgWrite (v : Word) (s : State) : Res := hsEmu (synCoreCfg v.toNat) s

/-- R338, R340: write `SYN_ESC_CFG`; `EN` = 0 reclaims every loan. Without feature `ESCROW` the field discards the
write (R386). -/
def escCfg (v : Nat) (s : State) : State :=
  if bits v 0 8 < 4 then synRes 0x700D s
  else
    let en := if s.feat 2 then bitOf v 8 else s.syn.en
    let s1 := if en then s else forList s.clusters (reclaimClu 2) s
    s1.onSyn fun y => { y with tlend := bits v 0 8, en := en, log := bitOf v 9, res := 0 }

/-- R338: ESC_CFG_WRITE. -/
def execEscCfgWrite (v : Word) (s : State) : Res := hsEmu (escCfg v.toNat) s

/-- R280: HINT_EVALUATE. -/
def execHintEvaluate (c : ClusterId) (e : Fin 32) (s : State) : Res := act (hintEval c.val e.val) s

/-- R269: HINT_EXPIRE. -/
def execHintExpire (c : ClusterId) (e : Fin 32) (s : State) : Res := act (hintExpire c.val e.val) s

/-- R281: HINT_TRUST_BACK. -/
def execHintTrustBack (ctx : CtxId) (s : State) : Res := act (trustBack ctx.val) s

/-- R283: clear a cluster's accuracy statistics. -/
def clrAcc (s : State) : State :=
  fcGates s.fc.clSel (s.updFcCl s.fc.clSel fun x => { x with acc := [{}, {}, {}, {}, {}] })

/-- R283: the default set is desired until a new selecting entry appears. -/
def fcDefault (s : State) : State := s.updFcCl s.fc.clSel fun x => { x with useDef := true, defAt := s.now }

/-- R283: an accepted write of the chapter leaves 0x0000 in `TRS_HC_RES`. -/
def fcResOk (s : State) : State := s.onFc fun f => { f with res := 0 }

/-- R283: CLR_ACC. -/
def execClrAcc (s : State) : Res := hsEmu (fun t => fcResOk (clrAcc t)) s

/-- R283: FC_DEFAULT: the default set is desired until a new selecting entry appears. -/
def execFcDefault (s : State) : Res :=
  hsEmu (fun t => fcResOk (fcDefault t)) s

/-- R283: a class entry may be written: class 1–255, `DUR` at least 1, and a set that is registered and fits the
binding of every forecasting cluster. -/
def hcOk (k v : Nat) (s : State) : Bool :=
  k ≠ 0 && bits v 8 8 ≠ 0 &&
    (!bitOf v 6 || ((s.getSet (bits v 0 6)).registered &&
      s.fcClus.all fun c => match s.fcBinding c with | some b => setFits (s.getSet (bits v 0 6)) b | none => false))

/-- R283: write a class entry; the status and the state. `src` 0 is a register, 1 a descriptor. -/
def hcWrite (k v src : Nat) (s : State) : Nat × State :=
  if !hcOk k v s then (0x6806, s)
  else
    (0, (s.updHc k fun x => { x with set := bits v 0 6, setValid := bitOf v 6, en := bitOf v 7, dur := bits v 8 8,
                                     feat := bits v 16 8, ipu := bits v 24 8 })
        |> emitTrs 0x6823 k 0 src 0)

/-- R283: write word `k` of a context's permission map; context 0 permits every class and keeps it. -/
def permWrite (t k v src : Nat) (s : State) : Nat × State :=
  if t = 0 then (0x6806, s)
  else
    let old := (s.getHx t).perm
    let w := if k = 0 then v - v % 2 + 1 else v
    (0, (s.updHx t fun x => { x with perm := old - bits old (32 * k) 32 * 2 ^ (32 * k) + w * 2 ^ (32 * k) })
        |> emitTrs 0x6823 0xFFFF t src 0)

/-- Leave a status in `TRS_HC_RES`. -/
def hcRes (r : Nat × State) : State := r.2.onFc fun f => { f with res := r.1 }

/-- R283: HINT_CLASS_SET, a write of `TRS_HC_CFG` or of a permission word. -/
def execHintClassSet (perm : Bool) (k : Fin 8) (v : Word) (s : State) : Res :=
  hsEmu (fun t => hcRes (if perm then permWrite t.fc.hxSel k.val v.toNat 0 t else hcWrite t.fc.hcSel v.toNat 0 t)) s

end Sys2Proof.Machine
end

