-- ==== Sys2Proof/Machine/Desc.lean ====
section
/-!
DEFINITION. The descriptors of Tally, the loops, hints, synchronisation and Clearing (Table 14.5).
-/
namespace Sys2Proof.Machine

/-- The first `n` bytes that a descriptor's address gives. -/
def Ext.read (x : Ext) (n : Nat) : Option (List Nat) := (Ext.bytes x).map (·.take n)

/-- Run `f` on the bytes at the descriptor's address; a failed read completes with HIF_HOST_MEM (R378). -/
def withData (x : Ext) (n : Nat) (s : State) (f : List Nat → DescOut) : DescOut :=
  match Ext.read x n with
  | none => .fail 0x9006 s
  | some b => f b

/-- R415, R419: a descriptor that needs Vault completes with FW_BUSY while Vault restarts and with FW_VAULT_ERROR in
ERROR. -/
def withVault (s : State) (f : State → DescOut) : DescOut := if s.vaultRes ≠ 0 then .fail s.vaultRes s else f s

/-- R221: TLY_INSTALL. -/
def descTlyInstall (o : Buf) : DescSpec := { opcode := 0x0030, feature := some 4, addrs := [(o.addr, o.len, 16)] }
def bodyTlyInstall (o : Buf) (x : Ext) (s : State) : DescOut :=
  withVault s fun _ => withData x o.len s fun b =>
    let r := tlyInstall b s
    .done r.1 r.2.1 r.2.2
def execTlyInstall (h : DescHdr) (o : Buf) (x : Ext) (s : State) : Res :=
  act (runDesc h (descTlyInstall o) (bodyTlyInstall o x)) s

/-- R221: TLY_REMOVE. -/
def descTlyRemove : DescSpec := { opcode := 0x0031, feature := some 4 }
def bodyTlyRemove (p : Nat) (s : State) : DescOut :=
  if 128 ≤ p then .fail 0x9009 s
  else
    let r := tlyRemove p s
    .done r.1 0 r.2
def execTlyRemove (h : DescHdr) (entry : Nat) (s : State) : Res := act (runDesc h descTlyRemove (bodyTlyRemove entry)) s

/-- R228: TLY_SET_REG; the header of 64 bytes says how many page digests and signature bytes follow. A 65th set, `SET` of 64 or
more, is answered with TLY_SET_LIMIT (log entry 91). -/
def descTlySetReg (hdr page : Nat) : DescSpec :=
  { opcode := 0x0032, feature := some 4, addrs := [(hdr, 64, 16), (page, 16, 16)] }
def bodyTlySetReg (k hdr page : Nat) (x : Ext) (s : State) : DescOut :=
  if 64 ≤ k then .fail 0x400D s
  else withVault s fun _ => withData x (160 + 48 * 65535) s fun b =>
    let r := setReg k hdr page b s
    .done r.1 0 r.2
def execTlySetReg (h : DescHdr) (set hdr page : Nat) (x : Ext) (s : State) : Res :=
  act (runDesc h (descTlySetReg hdr page) (bodyTlySetReg set hdr page x)) s

/-- R228: TLY_SET_REMOVE. -/
def descTlySetRemove : DescSpec := { opcode := 0x0033, feature := some 4 }
def bodyTlySetRemove (k : Nat) (s : State) : DescOut :=
  if 64 ≤ k then .fail 0x9009 s
  else
    let r := setRemove k s
    .done r.1 0 r.2
def execTlySetRemove (h : DescHdr) (set : Nat) (s : State) : Res := act (runDesc h descTlySetRemove (bodyTlySetRemove set)) s

/-- R82, R224: SLOT_TABLE. -/
def descSlotTable (a n : Nat) : DescSpec := { opcode := 0x0034, feature := some 4, addrs := [(a, 16 * n + 96, 16)] }
def bodySlotTable (n : Nat) (x : Ext) (s : State) : DescOut :=
  if n = 0 ∨ 256 < n then .fail 0x9009 s
  else withVault s fun _ => withData x (16 * n + 96) s fun b =>
    let r := slotTable n b s
    .done r.1 0 r.2
def execSlotTable (h : DescHdr) (addr nslot : Nat) (x : Ext) (s : State) : Res :=
  act (runDesc h (descSlotTable addr nslot) (bodySlotTable nslot x)) s

/-- The value of a locked loop register as the writes already accepted leave it (R247). -/
def loopReg (s : State) (c j off : Nat) : Nat :=
  match (s.loop.writes.filter fun w => w.1 = c && w.2.1 = j && w.2.2.1 = off).getLast? with
  | some w => w.2.2.2
  | none =>
    let x := s.getClu c
    let l := s.getLp c j
    match off with
    | 0x010 => x.up + x.dn * 2 ^ 8
    | 0x044 => l.limProg + l.obsProg * 2 ^ 7
    | 0x058 => l.man
    | 0x05C => l.ki + l.kim * 2 ^ 16
    | 0x060 => l.rth + l.n * 2 ^ 16 + l.nret * 2 ^ 24
    | 0x064 => l.tsat + b2n l.satFb * 2 ^ 16
    | _ => l.margin + encS 16 l.mofs * 2 ^ 16

/-- Queue a write of a locked register for the next frame boundary (R247). -/
def loopQueue (c j off v : Nat) (s : State) : State := s.onLoop fun x => { x with writes := x.writes ++ [(c, j, off, v)] }

/-- Replace the field of width `w` at bit `lo` of a register. -/
def setField (v lo w f : Nat) : Nat := v - bits v lo w * 2 ^ lo + f % 2 ^ w * 2 ^ lo

/-- Where the fields of LOOP_COEF lie: register offset, low bit, width, smallest and largest value (Table 9.9). -/
def coefFields : List (Nat × Nat × Nat × Nat × Nat) :=
  [(0x05C, 0, 16, 0, 65535), (0x05C, 16, 16, 0, 65535), (0x060, 0, 16, 0, 65535), (0x060, 16, 8, 1, 255),
   (0x060, 24, 8, 1, 255), (0x064, 0, 16, 1, 65535), (0x064, 16, 1, 0, 1), (0x068, 0, 16, 0, 65535),
   (0x068, 16, 16, 0, 65535), (0x010, 0, 8, 1, 255), (0x010, 8, 8, 1, 255), (0x044, 0, 7, 0, 127), (0x044, 7, 7, 0, 127)]

/-- A program binding of LOOP_COEF names an installed program of its class: LIMIT 0, OBSERVER 4 (R239). -/
def bindOk (s : State) (i v : Nat) : Bool :=
  if i = 11 then s.progOk v && decide ((s.getProg v).cls = 0)
  else if i = 12 then s.progOk v && decide ((s.getProg v).cls = 4)
  else true

/-- The fields that `VALID` selects, as indices 0–12. -/
def coefSel (o : LoopCoefOp) : List Nat := maskIdx 13 o.valid

/-- Every selected field is in range (check 8). -/
def coefOk (s : State) (o : LoopCoefOp) : Bool :=
  (coefSel o).all fun i =>
    let f := coefFields.getD i (0, 0, 0, 0, 0)
    let v := o.vals.getD i 0
    decide (f.2.2.2.1 ≤ v) && decide (v ≤ f.2.2.2.2) && bindOk s i v

/-- Queue the registers that the selected fields change, one write each. -/
def coefApply (o : LoopCoefOp) (s : State) : State :=
  let sel := coefSel o
  forList [0x05C, 0x060, 0x064, 0x068, 0x010, 0x044] (fun off t =>
    let l := sel.filter fun i => (coefFields.getD i (0, 0, 0, 0, 0)).1 = off
    if l = [] then t
    else
      let j := if off = 0x010 then 7 else o.loop
      let v := l.foldl (fun v i =>
        let f := coefFields.getD i (0, 0, 0, 0, 0)
        setField v f.2.1 f.2.2.1 (o.vals.getD i 0)) (loopReg t o.cluster j off)
      loopQueue o.cluster j off v t) s

/-- R247: LOOP_COEF. -/
def descLoopCoef : DescSpec := { opcode := 0x0040 }
def bodyLoopCoef (o : LoopCoefOp) (s : State) : DescOut :=
  let sel := coefSel o
  let slope := sel.any fun i => i = 9 || i = 10
  let own := sel.any fun i => i ≠ 9 && i ≠ 10
  if o.valid / 2 ^ 13 ≠ 0 then .fail 0x9002 s
  else if 32 ≤ o.cluster ∨ !(s.cluCfg o.cluster).present then .fail 0x5004 s
  else if 4 < o.loop then .fail 0x5002 s
  else if !(s.loopCfg o.cluster o.loop).present then .fail 0x5004 s
  else if !coefOk s o then .fail 0x5002 s
  else if (slope && !s.inManual o.cluster) || (own && (s.getLp o.cluster o.loop).auto) then .fail 0x5001 s
  else .done 0 0 (coefApply o s)
def execLoopCoef (h : DescHdr) (o : LoopCoefOp) (s : State) : Res := act (runDesc h descLoopCoef (bodyLoopCoef o)) s

/-- A row of a V/F/activity table from its 8 bytes (Table 9.3). -/
def vftRowOf (b : List Nat) (l : Nat) : VftRow :=
  { v := fld b (8 * l) 2, div := fld b (8 * l + 2) 1, ceil := fld b (8 * l + 3) 1, iest := fld b (8 * l + 4) 2,
    pest := fld b (8 * l + 6) 2 }

/-- R255 for one row against that of the next lower level. -/
def vftStep (a b : VftRow) : Bool :=
  decide (b.div ≤ a.div) && decide (a.v ≤ b.v) && decide (a.iest ≤ b.iest) && decide (a.pest ≤ b.pest) &&
    (decide (b.div ≠ a.div) || decide (a.ceil ≤ b.ceil))

/-- R255 over a table. -/
def vftSteps : List VftRow → Bool
  | [] => true
  | [_] => true
  | a :: b :: t => vftStep a b && vftSteps (b :: t)

/-- R255: a table is accepted for cluster `c`. -/
def vftOk (s : State) (c : Nat) (rows : List VftRow) : Bool :=
  let rails := maskIdx 8 (s.cluCfg c).rails
  vftSteps rows && (rows.all fun r =>
      decide (s.dminCode (s.cluCfg c).dom ≤ r.div) && decide (r.div < 64) &&
      rails.all fun k => decide ((s.railCfg k).vmin ≤ r.v) && decide (r.v ≤ s.vmax k)) &&
    (match rows with | r :: _ => decide (1 ≤ r.ceil) | [] => false)

/-- R255: VFT_LOAD. -/
def descVftLoad (a : Nat) : DescSpec := { opcode := 0x0041, addrs := [(a, 2048, 16)] }
def bodyVftLoad (c : Nat) (x : Ext) (s : State) : DescOut :=
  if 32 ≤ c ∨ !(s.cluCfg c).present then .fail 0x5004 s
  else if !s.inManual c then .fail 0x5001 s
  else withData x 2048 s fun b =>
    let rows := (List.range 256).map (vftRowOf b)
    if !vftOk s c rows then .fail 0x5003 s
    else
      let t := (List.range 256).foldl (fun t l => Tbl.set {} t l (vftRowOf b l)) ([] : Tbl VftRow)
      .done 0 0 (s.updClu c fun y => { y with vftNext := some t })
def execVftLoad (h : DescHdr) (cluster addr : Nat) (x : Ext) (s : State) : Res :=
  act (runDesc h (descVftLoad addr) (bodyVftLoad cluster x)) s

/-- R283: HINT_CLASS, a class entry. -/
def descHintClass : DescSpec := { opcode := 0x0050, feature := some 1 }
def bodyHintClassEntry (cls value : Nat) (s : State) : DescOut :=
  if 256 ≤ cls then .fail 0x6806 s
  else
    let r := hcWrite cls value 1 s
    .done r.1 0 r.2
def execHintClassEntry (h : DescHdr) (cls value : Nat) (s : State) : Res :=
  act (runDesc h descHintClass (bodyHintClassEntry cls value)) s

/-- R283: HINT_CLASS, a permission word. -/
def bodyHintClassPerm (ctx word value : Nat) (s : State) : DescOut :=
  if 512 ≤ ctx ∨ 8 ≤ word then .fail 0x6806 s
  else
    let r := permWrite ctx word value 1 s
    .done r.1 0 r.2
def execHintClassPerm (h : DescHdr) (ctx word value : Nat) (s : State) : Res :=
  act (runDesc h descHintClass (bodyHintClassPerm ctx word value)) s

/-- SYN_ACT (R332). -/
def descSynAct : DescSpec := { opcode := 0x0060 }

/-- The record of an act: act and object, old and new value, waiters released or failed (Table 12.10). -/
def synManual (act_ obj old new n : Nat) (s : State) : State := emitSyn 0x7015 (obj + act_ * 2 ^ 16) old new n s

/-- R332: SET or CLEAR by hand. -/
def bodySynFlag (set : Bool) (o : Nat) (s : State) : DescOut :=
  let x := s.getObj o
  if 8192 ≤ o then .fail 0x700D s
  else if x.count then .fail 0x7003 s
  else
    let s1 := flagOp set none o s
    let y := s1.getObj o
    let s2 := releaseOn o s1
    .done 0 (y.shown + (if y.level ≠ x.level then 2 ^ 8 else 0))
      (synManual (b2n !set) o x.shown y.shown ((s.waitsOn o).length - (s2.waitsOn o).length) s2)
def execSynActSet (h : DescHdr) (obj : Nat) (s : State) : Res := act (runDesc h descSynAct (bodySynFlag true obj)) s
def execSynActClear (h : DescHdr) (obj : Nat) (s : State) : Res := act (runDesc h descSynAct (bodySynFlag false obj)) s

/-- R332: ADJUST ends a poison. -/
def bodyAdjust (o v : Nat) (s : State) : DescOut :=
  let x := s.getObj o
  if 8192 ≤ o then .fail 0x700D s
  else if !x.count then .fail 0x7003 s
  else
    let s1 := releaseOn o (s.updObj o fun y => { y with value := v, poison := false })
    .done 0 v (synManual 2 o x.value v ((s.waitsOn o).length - (s1.waitsOn o).length) s1)
def execAdjust (h : DescHdr) (obj value : Nat) (s : State) : Res := act (runDesc h descSynAct (bodyAdjust obj value)) s

/-- R332: RELEASE_WAITER; a barrier arrival stays counted. -/
def bodyReleaseWaiter (w : Nat) (s : State) : DescOut :=
  match (if 8192 ≤ w then none else s.waiter w) with
  | none => .fail 0x700D s
  | some x =>
    let v := (s.getObj x.obj).shown
    let r := if x.op = 8 then (match s.groupOf x.obj with | some g => (s.getGrp g).gen | none => v) else v
    .done 0 0 (synManual 3 x.obj v v 1 (releaseWait w r s))
def execReleaseWaiter (h : DescHdr) (entry : Nat) (s : State) : Res := act (runDesc h descSynAct (bodyReleaseWaiter entry)) s

/-- R332: FAIL_WAITER; a barrier arrival is withdrawn. -/
def bodyFailWaiter (w : Nat) (s : State) : DescOut :=
  match (if 8192 ≤ w then none else s.waiter w) with
  | none => .fail 0x700D s
  | some x =>
    let v := (s.getObj x.obj).shown
    .done 0 0 (synManual 4 x.obj v v 1 (failWait 0x7009 w s))
def execFailWaiter (h : DescHdr) (entry : Nat) (s : State) : Res := act (runDesc h descSynAct (bodyFailWaiter entry)) s

/-- R332: RESET_WINDOW. -/
def bodyResetWindow (force : Bool) (win : Nat) (s : State) : DescOut :=
  let l := s.winWaits win
  if 128 ≤ win then .fail 0x700D s
  else if l ≠ [] ∧ !force then .fail 0x700B s
  else
    let s1 := forList (winObjs win) clearObj (forList l (fun e => failWait 0x7009 e.1) s)
    .done 0 l.length (synManual 5 win 0 0 l.length s1)
def execResetWindow (h : DescHdr) (force : Bool) (window : Nat) (s : State) : Res :=
  act (runDesc h descSynAct (bodyResetWindow force window)) s

/-- R332: SET_KIND; the objects whose kind changes are reset. -/
def bodySetKind (win kind : Nat) (s : State) : DescOut :=
  if 128 ≤ win then .fail 0x700D s
  else if s.winWaits win ≠ [] ∨ (winObjs win).any fun o => (s.groupOf o).isSome then .fail 0x700B s
  else
    let old := maskOf ((List.range 64).filter fun i => (s.getObj (64 * win + i)).count)
    let s1 := forList ((List.range 64).filter fun i => (s.getObj (64 * win + i)).count ≠ bitOf kind i)
      (fun i => State.updObj (64 * win + i) fun _ => { ({} : SynObj) with count := bitOf kind i }) s
    .done 0 0 (synManual 6 win old kind 0 s1)
def execSetKind (h : DescHdr) (window kind : Nat) (s : State) : Res := act (runDesc h descSynAct (bodySetKind window kind)) s

/-- A barrier group has waiting arrivals. -/
def State.grpWaits (s : State) (g : Nat) : Bool := s.waits (fun _ x => x.op = 8 && (s.getGrp g).members.contains x.obj) ≠ []

/-- R321, R332: GROUP_DEF; no members deletes the group. -/
def bodyGroupDef (g p : Nat) (members : List Nat) (s : State) : DescOut :=
  let y := s.getGrp g
  if 512 ≤ g ∨ 16 < members.length then .fail 0x700D s
  else if members = [] then
    if y.valid && s.grpWaits g then .fail 0x700B s
    else .done 0 0 (synManual 7 g 0 0 0 (s.updGrp g fun z => { ({} : SynGrp) with gen := z.gen }))
  else if 8192 < p ∨ members.any fun m => decide (8192 ≤ m) then .fail 0x700D s
  else if p = 0 ∨ !members.Nodup ∨ members.any fun m =>
      !(s.getObj m).count || (match s.groupOf m with | some k => decide (k ≠ g) | none => false) then .fail 0x700C s
  else if y.valid && s.grpWaits g then .fail 0x700B s
  else
    .done 0 0 (synManual 7 g 0 0 0 (s.updGrp g fun z => { valid := true, p := p, members := members, arrived := 0, gen := z.gen }))
def execGroupDef (h : DescHdr) (group p : Nat) (members : List Nat) (s : State) : Res :=
  act (runDesc h descSynAct (bodyGroupDef group p members)) s

/-- R334: where a move of the update takes an object. -/
def movedTo (moves : List (Nat × Nat)) (o : Nat) : Option Nat :=
  (moves.find? fun m => m.1 = o / 64).map fun m => 64 * m.2 + o % 64

/-- R334: the moves of an update, as one step: every source window is copied object by object as it was before the update and
reset; group members are renumbered, and objects of a window that is written over leave their groups. -/
def moveWins (moves : List (Nat × Nat)) (s : State) : State :=
  let s1 := forList moves (fun m => forList (winObjs m.1) clearObj) s
  let s2 := forList moves (fun m => forList (List.range 64) fun i => State.updObj (64 * m.2 + i) fun _ => s.getObj (64 * m.1 + i)) s1
  let s3 := forList (s.syn.grp.map Prod.fst) (fun g => State.updGrp g fun y =>
    { y with members := y.members.filterMap fun o =>
        match movedTo moves o with
        | some n => some n
        | none => if moves.any fun m => m.2 = o / 64 then none else some o }) s2
  forList moves (fun m => forList (winObjs m.2) releaseOn) s3

/-- R334: SYN_MAP. -/
def descSynMap : DescSpec := { opcode := 0x0061, feature := some 0 }
def bodySynMap (o : SynMapOp) (s : State) : DescOut :=
  let own := fun w => Tbl.get 0 s.syn.own w
  let add := maskIdx 128 o.add
  let rem := maskIdx 128 o.remove
  let gone := (List.range 128).filter fun w => (rem.contains w && own w = o.ctx) || o.moves.any fun m => m.1 = w
  let l := s.waits fun _ x => gone.contains (x.obj / 64)
  if o.ctx = 0 ∨ 512 ≤ o.ctx ∨ 8 < o.moves.length ∨ o.moves.any fun m => decide (128 ≤ m.1) || decide (128 ≤ m.2) then
    .fail 0x700D s
  else if (add.any fun w => own w ≠ 0 && own w ≠ o.ctx) ∨ o.moves.any fun m => own m.2 ≠ 0 && !add.contains m.2 then
    .fail 0x700E s
  else if l ≠ [] ∧ !o.force then .fail 0x700B s
  else
    let s1 := forList l (fun e => failWait 0x7008 e.1) s
    let s2 := moveWins o.moves s1
    let t1 := rem.foldl (fun t w => if own w = o.ctx then Tbl.set 0 t w 0 else t) s2.syn.own
    let t2 := add.foldl (fun t w => Tbl.set 0 t w o.ctx) t1
    .done 0 l.length (emitSyn 0x7016 o.ctx add.length gone.length l.length (s2.onSyn fun y => { y with own := t2 }))
def execSynMap (h : DescHdr) (o : SynMapOp) (s : State) : Res := act (runDesc h descSynMap (bodySynMap o)) s

/-- R333: SYN_READ. -/
def descSynRead : DescSpec := { opcode := 0x0062, tenant := true }
def bodySynRead (h : DescHdr) (kind i : Nat) (s : State) : DescOut :=
  let c := h.ctx.val
  if 2 ≤ kind ∨ 8192 ≤ i then .fail 0x700D s
  else if kind = 0 then
    if s.mapHas c (i / 64) then .done 0 (objStat s i) s else .fail 0x7002 s
  else if c = 0 ∨ (s.waiter i).any (fun x => x.ctx = c) then .done 0 (wtrObj s i) s
  else .fail 0x7002 s
def execSynRead (h : DescHdr) (kind index : Nat) (s : State) : Res := act (runDesc h descSynRead (bodySynRead h kind index)) s

/-- R368: CLR_CONFIG; a register write of its fields is discarded while Clearing is enabled. -/
def descClrConfig : DescSpec := { opcode := 0x0070, feature := some 3 }
def bodyClrConfig (o : ClrCfgOp) (s : State) : DescOut :=
  if o.vmax = 0 ∨ 3 < o.vmax ∨ 20 < o.keep ∨ o.leaseUs < 50 ∨ 1000 < o.leaseUs ∨ o.retryMs = 0 ∨ o.mbx % 4096 ≠ 0 then
    .fail 0x8002 s
  else if s.clr.en then .fail 0x8001 s
  else
    .done 0 0 (clrEnable o.en (s.onClr fun c =>
      { c with id := o.chip, domain := o.domain, vmax := o.vmax, keep := o.keep, leaseUs := o.leaseUs, retryMs := o.retryMs,
               mbxLo := o.mbx % 2 ^ 32, mbxHi := o.mbx / 2 ^ 32 }))
def execClrConfig (h : DescHdr) (o : ClrCfgOp) (s : State) : Res := act (runDesc h descClrConfig (bodyClrConfig o)) s

/-- R368: CLR_LINK; a register write of peer and address is discarded while the link is enabled. -/
def descClrLink (o : ClrLinkOp) : DescSpec := { opcode := 0x0071, feature := some 3, addrs := [(o.addr, 1024, 1024)] }
def bodyClrLink (o : ClrLinkOp) (s : State) : DescOut :=
  if 64 < o.link then .fail 0x8002 s
  else if (s.getLnk o.link).en then .fail 0x8001 s
  else .done 0 0 (lnkEnable o.link o.en (s.updLnk o.link fun y => { y with peer := o.peer, addr := o.addr }))
def execClrLink (h : DescHdr) (o : ClrLinkOp) (s : State) : Res := act (runDesc h (descClrLink o) (bodyClrLink o)) s

end Sys2Proof.Machine
end

