-- ==== Sys2Proof/Machine/Reset.lean ====
section
/-!
DEFINITION. The three kinds of restart: cold reset, warm reset, and the boot that follows each (R21–R30, R426, R427).
-/
namespace Sys2Proof.Machine

/-- R23, R68, R71: the outputs while `PORST_N` is low or a supply is not good: every `PEN` low, every domain clock stopped,
every ceiling 0 with STOP, a commit cut off (R25). The alerts are released by `step` = 0. -/
def powerHold (cause : Nat) (s : State) : State :=
  let s1 := forList (List.range 32) (fun c => State.updCp c fun p => { p with ceil := 0, slope := 4 })
    (stopAllClocks id (forList (List.range 128) phOff s))
  (s1.onPwr fun p => { p with step := 0, cause := cause, emuReady := false }).onFrec fun f => { f with queue := [] }

/-- R24, R66: what a low pulse of `ns` does where `least` ns are guaranteed to act: nothing below 100 ns, and between the
two it may or may not act. -/
def pulse (least ns : Nat) (f : State → State) (s : State) : State :=
  if ns < 100 then s
  else if ns < least then
    let hit := decide (s.freeVal 1 = 1)
    if hit then f s.drawn else s.drawn
  else f s

/-- R23–R25: PORST_N_ASSERT. -/
def execPorstNAssert (lowNs : Nat) (s : State) : Res :=
  .next (pulse 10000 lowNs (fun t => powerHold 1 (t.onPwr fun p => { p with porstLow := true })) s)

/-- R68, Table 2.17: VAON, VANA and VIO are good at a level: above the rising threshold, or above the falling one if they
were good. The VIO thresholds are those of the IO kit's variant. -/
def vaonOk (was : Bool) (mv : Nat) : Bool := decide ((if was then 640 else 670) ≤ mv)
def vanaOk (was : Bool) (mv : Nat) : Bool := decide ((if was then 1620 else 1680) ≤ mv)
def vioOk (was : Bool) (mv : Nat) : Bool :=
  decide ((if was then 2850 else 2970) ≤ mv) || (decide ((if was then 1550 else 1620) ≤ mv) && !Config.vio33)

/-- R69: VAON or VIO falls below its threshold: the effects of R23. -/
def internalReset (vaonMv vioMv : Nat) (s : State) : State :=
  let a := vaonOk s.pwr.vaon vaonMv
  let i := vioOk s.pwr.vio vioMv
  if a && i then s.onPwr fun p => { p with vaon := true, vio := true }
  else powerHold 0 (s.onPwr fun p => { p with vaon := a, vio := i })

/-- R69: INTERNAL_POWER_ON_RESET. -/
def execInternalPowerOnReset (vaonMv vioMv : Nat) (s : State) : Res := .next (internalReset vaonMv vioMv s)

/-- The state that step 1 of Table 1.9 leaves: everything cleared but fuses, serial NOR, margin trims, the pins and the
cause of the reset (Table 1.8). -/
def coldClear (vsel refsel : Nat) (b : Boot) (s : State) : State :=
  { ({} : State) with
    pwr := { ({} : Power) with
      vsel := vsel, refsel := refsel, cause := if s.pwr.step = 0 then s.pwr.cause else 0, vfuseHi := s.pwr.vfuseHi,
      pfailLow := s.pwr.pfailLow, alertExt := s.pwr.alertExt, throtExt := s.pwr.throtExt, hotExt := s.pwr.hotExt }
    fuse := s.fw.arr
    frec := { s.frec with
      nv := { ({} : NvPort) with dev := b.sfdp }, queue := [], nvFail := !b.nvOk, loaded := false, init := false,
      notCommit := 0, overflow := false, sel := 0, win := [],
      lastCommit := 0 }
    sns := { ({} : Sensing) with norBase := s.sns.norBase }
    hm := { ({} : HmPort) with out := s.hm.out, inReset := s.hm.inReset }
    trs := { ({} : Treasury) with
      norTrim := s.trs.norTrim
      cl := if b.nvOk then s.trs.norTrim.foldl (fun t e => Tbl.set {} t e.1 { ({} : TrsClu) with trim := e.2 }) [] else [] }
    clr := { ({} : Clearing) with incOld := s.clr.incOld }
    fw := { ({} : Fw) with
      arr := s.fw.arr, dir := s.fw.dir, dirSector := s.fw.dirSector, img := s.fw.img, copy := s.fw.copy,
      vault := { ({} : Vault) with vfuseMv := s.fw.vault.vfuseMv } : Fw }.dirRead
    free := s.free
    pending := s.pending }

/-- Fuses and serial NOR as they were programmed from outside while the part was in reset. -/
def partIn (p : Part) (s : State) : State :=
  let s1 := s.onFw fun f =>
    { f with arr := p.fuses, dirSector := 0,
             dir := [[dirEntry 0 [p.pref % 2, p.slotSt.getD 0 0, p.slotSt.getD 1 0, p.cfgAct % 2, p.cfgStg % 3]], []],
             img := (List.range 2).map fun k => p.img.getD k none,
             copy := (List.range 2).map fun k => p.copy.getD k none }
  let s2 := s1.onSns fun n => { n with norBase := tblOf none (p.baselines.map fun e => (e.1, some e.2)) }
  if p.ringDirty then s2.onFrec fun f => { f with slots := [], ptrs := [[], []], junk := true } else s2

/-- R200: the pointer is the valid entry with the highest `SEQ` of both pointer sectors; a ring without a valid entry that is
not erased is erased. -/
def ringInit (s : State) : State :=
  let f := s.frec
  if f.nvFail then s.onFrec fun x => { x with ptrValid := false, ptrSlot := 0, ptrSeq := 0 }
  else match f.newestPtr with
    | some e => s.onFrec fun x =>
        { x with ptrValid := true, ptrSlot := e.2.1, ptrSeq := e.1,
                 ptrSector := if (f.ptrs.getD 0 []).contains e then 0 else 1 }
    | none =>
      let s1 := s.onFrec fun x => { x with ptrValid := false, ptrSlot := 0, ptrSeq := 0 }
      if f.junk || f.ptrs.any (fun l => l ≠ []) || decide (f.slots ≠ []) then
        (s1.onFrec fun x => { x with init := true, ready := false, erasing := List.range 12, slots := [], ptrs := [[], []],
                                     ptrSector := 0, junk := false })
        |> emitRail 0x3063 s.cfg.frecBase 0 0 0
      else s1

/-- R431, R432: the limit gate is sampled; a blank or corrupt gate keeps rails and clocks off. -/
def gateSample (s : State) : State :=
  if !s.fuse.gateDone then (s.onFw fun f => { f with gateBlank := true }) |> emitVault 0xB150 0 0 0 0
  else if !s.fuse.gateCrcOk then setAlarm 15 ((s.onFw fun f => { f with gateCrc := true }) |> emitVault 0xB151 0 0 0 0)
  else s

/-- R131: the baselines stored in serial NOR take effect. -/
def baseSample (s : State) : State :=
  if s.frec.nvFail then s
  else forList s.sns.norBase (fun e => State.updMon e.1 fun x => { x with base := e.2 }) s

/-- R58: `REFSEL` values 6 and 7 name no frequency. -/
def refselSample (s : State) : State :=
  if 6 ≤ s.pwr.refsel then setAlarm 3 (emitClk 0x1041 0 0 0 0 s) else s

/-- R419, R426, R428: Vault starts from ROM: volatile zeroisation, self-tests, then the configuration. -/
def vaultCold (selftest : Option Nat) (s : State) : State :=
  match selftest with
  | some t => vaultError t s
  | none =>
    let s1 := (vaultWipe s).onFw fun f => { f with vault := { f.vault with ready := true } }
    drawInc (ringInit (dirWrite (cfgCold s1)))

/-- R22: steps 1 and 2 of Table 1.9, Vault's start and step 1 of Table 7.3. What another agent wrote to serial NOR and to the
fuses can only have been written while VIO was not good (R62). -/
def coldReset (vsel refsel : Nat) (selftest : Option Nat) (b : Boot) (part : Option Part) (s : State) : State :=
  let s0 := match part with | some p => if s.pwr.vio then s else partIn p s | none => s
  let s1 := coldClear vsel refsel b s0
  vaultCold selftest (baseSample (gateSample (refselSample (nvBoot s1))))

/-- The three supplies are good (R22, R68). -/
def suppliesOk (b : Boot) (s : State) : Bool :=
  vaonOk s.pwr.vaon b.vaon && vanaOk s.pwr.vana b.vana && vioOk s.pwr.vio b.vio

/-- R22: `PORST_N` is high; the cold start begins once all three supplies are good, and until then the outputs stay held
(R68). -/
def coldBegin (vsel refsel : Nat) (selftest : Option Nat) (b : Boot) (part : Option Part) (s : State) : State :=
  if suppliesOk b s then coldReset vsel refsel selftest b part s
  else
    powerHold (if s.pwr.step = 0 then s.pwr.cause else 0) (s.onPwr fun p =>
      { p with porstLow := false, vaon := vaonOk p.vaon b.vaon, vana := vanaOk p.vana b.vana, vio := vioOk p.vio b.vio })

/-- R22: COLD_RESET. -/
def execColdReset (vsel refsel : Fin 8) (selftest : Option Nat) (boot : Boot) (part : Option Part) (s : State) : Res :=
  .next (coldBegin vsel.val refsel.val selftest boot part s)

/-- R265: loop registers after a warm reset: states and counts cleared, host-written targets and limits kept. -/
def LoopSt.warm (l : LoopSt) : LoopSt :=
  { ({} : LoopSt) with
    tgt := l.tgt, ki := l.ki, kim := l.kim, rth := l.rth, n := l.n, nret := l.nret, tsat := l.tsat, satFb := l.satFb,
    margin := l.margin, mofs := l.mofs, limProg := l.limProg, obsProg := l.obsProg }

/-- Clusters and loops at a warm reset; the shares of Treasury fall back to those of the fallback level (Table 11.3). -/
def warmLoops (s : State) : State :=
  let s1 := forList s.clusters (fun c t =>
    let fb := (t.cluCfg c).fbLevel
    let t1 := t.updClu c fun x =>
      { x with warmHold := x.warmHold || x.started, started := false, modes := [], vftNext := none, next := none }
    let t2 := forList (List.range 6) (fun j u => u.updLp c j LoopSt.warm) t1
    let t3 := (t2.updLp c 0 fun l => { l with tgt := some (t.pest c fb) }).updLp c 1 fun l => { l with tgt := some (t.iest c fb) }
    t3.updTrsCl c fun y =>
      { ({} : TrsClu) with base := t.pest c fb, ishare := t.iest c fb, reasons := y.reasons, preempt := y.preempt,
                           trim := y.trim, trimTgt := y.trimTgt, held := y.held }) s
  s1.onLoop fun x => { x with writes := [], res := 0 }

/-- Treasury at a warm reset (Table 11.3). -/
def warmTrs (s : State) : State :=
  s.onTrs fun t =>
    { t with od := 0, odSince := none, odCnt := 0, exceeded := false, tx := [], rets := [], outOfTurn := false,
             allocated := false, unmet := 0, preSum := 0, res := 0 }

/-- R89: frames and slots at a warm reset; every backstop ends with cause 1 (R85). `FLOOR` and `CLK_SLOT_SEL` are kept (log entry
86), and the step maximum is cleared (log entry 85). -/
def warmFrames (s : State) : State :=
  let s1 := forList ((List.range 32).filter fun c => (s.getBack c).active) (fun c t =>
    emitCp 0x1806 c (t.now - (t.getBack c).since) 1 0 (t.updBack c fun _ => {})) s
  (s1.onTb fun t => { t with stepMaxPs := 0 }).onFrm fun f =>
    { ({} : Frames) with number := f.number, count := f.count, started := f.started, inFrame := f.inFrame, frameStart := f.frameStart,
                         floor := f.floor, slotSel := f.slotSel }

/-- R409: the DMA engine at a warm reset: transfers are abandoned, streams stopped; their outstanding requests bring
nothing more. -/
def warmDma (s : State) : State :=
  let s1 := forList (List.range 8) (fun k => State.updChan k fun c =>
    { c with busy := false, armed := false, xfer := none, stream := none, table := [], n := 0, buffers := 0,
             overrun := false, gap := 0, stopping := false, stopHdr := none }) s
  (forList (List.range 32) (fun t u => u.onHm fun h =>
    match Tbl.get none h.reqs t with
    | some r => { h with reqs := Tbl.set none h.reqs t (some { r with failed := some (r.failed.getD s.now) }) }
    | none => h) s1).onHm fun h => { h with waiting := [] }

/-- Tally at a warm reset (Table 1.8, R234): the stores are lost, with programs, sets and counts; the cubes keep their states,
and the last paging outcome and the frame limit stay. -/
def warmTly (s : State) : State :=
  s.onTly fun t =>
    { ({} : Tally) with cube := t.cube, swap := t.swap, rejoin := t.rejoin, progSel := t.progSel, setSel := t.setSel,
                        pageLast := t.pageLast, limit := t.limit }

/-- Hints and forecasts at a warm reset (Table 10.3): queues, statistics and distrust are cleared, the class table and the maps
come from the configuration, and the limits that host software wrote stay (log entry 94). -/
def warmFc (s : State) : State :=
  let s1 := loadFc (s.onFc fun f =>
    { ({} : Forecast) with missTh := f.missTh, minEval := f.minEval, distMs := f.distMs, clSel := f.clSel, accSel := f.accSel,
                           hcSel := f.hcSel, hxSel := f.hxSel })
  forList s.fcClus (fun c => State.updFcCl c fun x => { x with accTh := (s.getFcCl c).accTh, accMin := (s.getFcCl c).accMin }) s1

/-- A link at a warm reset or at the resumption of a live update (R366): the lent table and the configuration stay. -/
def Link.warm (x : Link) : Link :=
  { ({} : Link) with en := x.en, peer := x.peer, addr := x.addr, inc := x.inc, seqIn := x.seqIn, echoTs := x.echoTs,
                     rxAt := x.rxAt, lent := x.lent }

/-- R366: every link leaves its connection and drops its borrowed leases. -/
def clrDrop (s : State) : State := forList (s.clr.lnk.map Prod.fst) (fun l => State.updLnk l Link.warm) s

/-- R366: a new incarnation is drawn, and JOIN goes out on every enabled link; with Vault in ERROR no link joins
(Table 16.13). -/
def clrRejoin (s : State) : State :=
  let s1 := drawInc s
  if s1.fw.vault.error || !s1.clr.en then s1
  else forList s1.links clrStart (s1.onClr fun c => { c with roundAt := s1.now, driftStart := s1.now })

/-- A core stays out over a restart: failed, or a Teller that Audit holds (R415, R456). -/
def State.coreOut (s : State) (k : Nat) : Bool :=
  decide ((s.getFwCore k).st = 5) || (decide (k < 32) && decide ((s.getUnit (audIdx 1 k)).st ≠ 0))

/-- The firmware cores other than Vault restart. -/
def warmCores (s : State) : State :=
  forList (List.range 34) (fun k t => t.updFwCore k fun x => if x.st = 0 ∨ t.coreOut k then x else { x with st := 3 }) s

/-- Sources whose queues the cores that restart hold: Tellers, Treasury core, Clerk (R409). -/
def fwSources : List Nat := List.range 32 ++ [0x20, 0x21]

/-- R26: the reset cause is written to Ledger. No code of the spec names this record: its code is left open (log entry 74). -/
def warmRecord (cause : Nat) (s : State) : State := emitVault (openStatus 0xB s) cause 0 0 0 s.drawn

/-- R26: a warm reset by its cause (`LIM_RST_CAUSE`). -/
def warmReset (cause : Nat) (s : State) : State :=
  let s1 := warmRecord cause <| (s.onPwr fun p =>
      { p with cause := cause, warmCnt := satInc 16 p.warmCnt, emuReady := false, fwWait := s.frec.busy, wantWarm := none }).onFw
    fun f => { f with run := false, handoff := false, recovery := false, upd := 0, updHdr := none, runMask := 0, okFrames := 0,
                      allocOk := false, actWarm := decide (cause = 5), warmAt := s.now }
  let s2 := holdAll 1 ((s1.onHo fun _ => none).onFrec fun f => { f with nv := { f.nv with cmds := [], sfdp := none } })
  let s3 := forList s2.railIds (fun r => State.updReg r fun x => { x with hold := true }) s2
  let s4 := warmFrames (forList s3.clusters (reclaimClu 3) s3)
  let s5 := audAbandon 2 (s4.onAud fun a => { a with test := a.test.map fun t => { t with hdr := none } })
  let s6 := forList fwSources ldgFlush s5
  let s7 := warmCores (clrDrop (warmFc (warmTly (warmDma (warmTrs (warmLoops s6))))))
  s7.onHif fun _ => {}

/-- R26, R27: WARM_RESET; firmware stays in reset while `WRST_N` is low. -/
def execWarmReset (lowNs : Nat) (s : State) : Res :=
  act (pulse 1000 lowNs fun t => warmReset 2 (t.onPwr fun p => { p with wrstLow := true })) s

/-- R27: WRST_N_RELEASE. -/
def execWrstNRelease (s : State) : Res :=
  act (fun t => if t.pwr.wrstLow then (t.onPwr fun p => { p with wrstLow := false }).onFw fun f => { f with warmAt := t.now } else t) s

/-- R426: the firmware cores start from the image of slot `k`. -/
def coresStart (s : State) : State :=
  let s1 := forList ([32, 33, 34] ++ s.clusters) (fun k t => t.updFwCore k fun x =>
    { x with st := if t.coreOut k then x.st else 1, bank := false, idleSince := some s.now }) s
  hmResume ((s1.onPwr fun p => { p with emuReady := true, step := max p.step 7 }).onFw fun f => { f with run := true, actWarm := false })

/-- R426: an image has been accepted: the cores start, and after a warm reset Clearing joins again (R366). -/
def bootSlot (cold : Bool) (k : Nat) (s : State) : State :=
  let g := (s.fw.slotImg k).getD {}
  let s1 := coresStart (s.onFw fun f => { f with cur := runImgOf k g })
  let cause := if k ≠ s.fw.pref then 2 else if cold then 0 else 1
  let s2 := emitVault 0xB100 k g.ver cause (divRoundN (s.now - s.fw.warmAt) nsPerUs) s1
  let s3 := confTally s2
  if cold then s3 else clrRejoin s3

/-- R427: no slot is accepted: recovery, with every domain clock stopped (Table 1.5). -/
def bootNone (s : State) : State :=
  let s1 := (s.onFw fun f => { f with recovery := true, run := false, cur := {}, actWarm := false }).onPwr fun p =>
    { p with emuReady := true }
  let s2 := hmResume (stopAllClocks (fun x => { x with started := false, warmHold := false }) s1)
  setAlarm 12 (emitVault 0xB102 0 0 0 0 s2)

/-- A boot is due: no image runs, `WRST_N` is high, no commit holds it back, and Vault can check (R26, R27, R419). -/
def State.bootMay (s : State) : Bool :=
  let cold := decide (s.pwr.cause ≤ 1)
  !s.fw.run && !s.fw.recovery && !s.pwr.wrstLow && !s.pwr.fwWait && (s.fw.vault.ready || (s.fw.vault.error && !cold))

/-- R426, R427: Vault chooses an image and starts the firmware cores. -/
def fwBoot (s : State) : State :=
  if !s.bootMay then s
  else
    let cold := decide (s.pwr.cause ≤ 1)
    let s0 := if cold then s else nvBoot s
    let s1 := if cold || s.fw.vault.error then s0 else
      let r := cfgStaged false s0
      if r.1 then loadWarm r.2 else r.2
    let r := bootPick (cold || s1.fw.actWarm) s1
    match r.1 with
    | some k => bootSlot cold k (dirWrite r.2)
    | none => bootNone (dirWrite r.2)

/-- R426: FW_BOOT. -/
def execFwBoot (s : State) : Res := act fwBoot s

end Sys2Proof.Machine
end

