-- ==== Sys2Proof/Machine/Fw.lean ====
section
/-!
DEFINITION. The firmware descriptors, the live update, fuse sessions, tokens and zeroisation, and the watchdogs and sleep of
the firmware cores (R414–R441).
-/
namespace Sys2Proof.Machine

/-- The bytes of a big-endian number: digests and keys. -/
def beBytes (n v : Nat) : List Nat := (leBytes n v).reverse

/-- Serial NOR does not do what it is asked. -/
def nvBad (x : Ext) (s : State) : Bool := !x.nvOk || s.nvDown

/-- The slot that is not running; in recovery slot A (R439, R485). -/
def State.otherSlot (s : State) : Nat := if s.fw.recovery then 0 else 1 - s.fw.cur.slot

/-- R379: a warm reset that was asked for follows the completion of its descriptor. -/
def warmAfter (s : State) : State := match s.pwr.wantWarm with | some c => warmReset c s | none => s

/-- R379: WARM_RESET. -/
def execWarmResetDesc (h : DescHdr) (key : Nat) (s : State) : Res :=
  act (fun t => warmAfter (runDesc h descWarmReset (bodyWarmReset key) t)) s

/-- R439: FW_QUERY. -/
def descFwQuery : DescSpec := { opcode := 0x00A0, basic := true, recov := true }
def bodyFwQuery (s : State) : DescOut := .done 0 s.fw.cur.ver s
def execFwQuery (h : DescHdr) (s : State) : Res := act (runDesc h descFwQuery bodyFwQuery) s

/-- R439, R485: FW_STAGE writes the slot that is not running and checks what it wrote; in recovery slot A becomes
preferred. -/
def stage (g : FwImg) (s : State) : Nat × State :=
  let k := s.otherSlot
  let st := fwCheck s.fuse (some g)
  let s1 := s.onFw fun f => Fw.setLast k st { f with img := f.img.set k (some g) }
  if st ≠ 0 then (st, dirWrite (s1.onFw (Fw.setSlot k 4)))
  else
    (0, dirWrite (s1.onFw fun f => Fw.setSlot k 1 { f with pref := if f.run then f.cur.slot else k })
      |> emitVault 0xB103 k g.ver g.svn 0)

def descFwStage (o : Buf) : DescSpec := { opcode := 0x00A1, basic := true, recov := true, addrs := [(o.addr, o.len, 16)] }
def bodyFwStage (o : Buf) (x : Ext) (s : State) : DescOut :=
  withVault s fun _ =>
    if s.fw.upd ≠ 0 then .fail 0xB006 s
    else withData x o.len s fun b =>
      if nvBad x s then .fail 0xB010 s
      else
        let g := fwImgOf b
        let r := stage g s
        .done r.1 g.ver r.2
def execFwStage (h : DescHdr) (o : Buf) (x : Ext) (s : State) : Res := act (runDesc h (descFwStage o) (bodyFwStage o x)) s

/-- R439: FW_ACTIVATE; with `mode` 1 a warm reset of cause 5 follows. -/
def bodyActivate (mode : Nat) (x : Ext) (s : State) : DescOut :=
  let k := s.otherSlot
  let st := s.fw.slotState k
  if s.fw.upd ≠ 0 ∨ s.vaultRes = 0xB006 then .fail 0xB006 s
  else if st ≠ 1 ∧ st ≠ 2 then .fail 0xB008 s
  else if nvBad x s then .fail 0xB010 s
  else
    let s1 := dirWrite (s.onFw fun f => Fw.setSlot k 2 { f with pref := k }) |> emitVault 0xB104 k mode 0 0
    .done 0 0 (if mode = 1 then s1.onPwr fun p => { p with wantWarm := some 5 } else s1)
def descActivate (mode : Nat) : DescSpec := { opcode := 0x00A2, basic := true, recov := decide (mode = 1) }
def execFwActivateCold (h : DescHdr) (x : Ext) (s : State) : Res := act (runDesc h (descActivate 0) (bodyActivate 0 x)) s
def execFwActivateWarm (h : DescHdr) (x : Ext) (s : State) : Res :=
  act (fun t => warmAfter (runDesc h (descActivate 1) (bodyActivate 1 x) t)) s

/-- R439: FW_CONFIRM. -/
def descFwConfirm : DescSpec := { opcode := 0x00A4, basic := true }
def bodyFwConfirm (x : Ext) (s : State) : DescOut :=
  let k := s.fw.cur.slot
  if !(s.fw.run && decide (s.fw.slotState k = 3)) then .done 0 0 s
  else if nvBad x s then .fail 0xB010 s
  else .done 0 1 (dirWrite (s.onFw fun f => Fw.setSlot k 1 { f with pref := k }) |> emitVault 0xB105 k 0 0 0)
def execFwConfirm (h : DescHdr) (x : Ext) (s : State) : Res := act (runDesc h descFwConfirm (bodyFwConfirm x)) s

/-- R428: FW_CONFIG_STAGE. -/
def descConfigStage (o : Buf) : DescSpec := { opcode := 0x00A5, basic := true, addrs := [(o.addr, o.len, 16)] }
def bodyConfigStage (o : Buf) (x : Ext) (s : State) : DescOut :=
  withVault s fun _ =>
    if s.fw.upd ≠ 0 then .fail 0xB006 s
    else withData x o.len s fun b =>
      let c := cfgCopyOf b x.body
      let st := cfgCheck s.fuse (some c)
      let k := 1 - s.fw.cfgAct
      if st ≠ 0 then .fail st s
      else if s.fw.cfgValid ∧ c.ver < s.fw.cfgVer then .fail 0xB00A s
      else if nvBad x s then .fail 0xB010 s
      else
        .done 0 c.ver (dirWrite (s.onFw fun f =>
            { f with copy := f.copy.set k (some c), cfgStg := k + 1, coldOnly := f.cfgValid && coldFields c.body s.cfg })
          |> emitVault 0xB140 k c.ver 0 0)
def execFwConfigStage (h : DescHdr) (o : Buf) (x : Ext) (s : State) : Res :=
  act (runDesc h (descConfigStage o) (bodyConfigStage o x)) s

/-- The image of the limit gate, in the order and encoding of Table 16.10. -/
def gateBytes (f : Fuses) : List Nat :=
  (List.range 8).flatMap (fun r => leBytes 2 (f.vmax.getD r 0)) ++ (List.range 8).flatMap (fun r => leBytes 2 (f.vov.getD r 0)) ++
    (List.range 8).flatMap (fun r => leBytes 1 (f.slewMax.getD r 0)) ++
    (List.range 40).flatMap (fun d => leBytes 1 (f.dmin.getD d 0 - 1)) ++ leBytes 2 f.nMax ++ leBytes 2 f.capMax ++
    leBytes 2 (encS 16 f.tcrit) ++ (List.range 512).flatMap (fun i => leBytes 1 (encS 16 (f.tripOfs.getD i 0) / 16)) ++
    (List.range 8).flatMap (fun k => (List.range 8).flatMap fun r => leBytes 2 ((f.boot.getD k []).getD r 0))

/-- Key hashes and revoke fuses. -/
def keyBytes (f : Fuses) : List Nat :=
  (List.range 2).flatMap (fun i => beBytes 48 (f.intHash.getD i 0)) ++ (List.range 4).flatMap (fun i => beBytes 48 (f.kolHash.getD i 0)) ++
    [f.intRev, f.kolRev]

/-- The 16 bytes of a slot table entry (Table 3.2). -/
def slotBytes (e : SlotEntry) : List Nat :=
  [e.exec + 16 * e.cls, e.cluster] ++ leBytes 2 e.work ++ leBytes 2 e.start ++ leBytes 2 e.deadline ++ [e.period, 0, 0, 0, 0, 0, 0, 0]

/-- Measurement 9: every installed program, in entry order. -/
def progBytes (s : State) : List Nat :=
  (List.range 128).flatMap fun p =>
    let g := s.getProg p
    if g.installed then [p] ++ leBytes 4 g.id ++ leBytes 4 g.ver ++ beBytes 48 g.digest else []

/-- R429: the measurements of Table 16.9, 1 to 10. -/
def measurements (s : State) : List (List Nat) :=
  let f := s.fw
  [ beBytes 48 Config.romDigest, beBytes 48 f.cur.digest, leBytes 4 f.cur.ver, [f.cur.svn, f.arr.svn],
    beBytes 48 (((f.copy.getD f.cfgAct none).getD {}).digest), beBytes 48 (Config.sha384 (gateBytes s.fuse)),
    beBytes 48 (Config.sha384 (keyBytes f.arr)), beBytes 48 (Config.sha384 (s.slots.flatMap slotBytes)),
    beBytes 48 (Config.sha384 (progBytes s)),
    leBytes 4 (b2n (f.vault.test ≠ 0) + 2 * b2n f.arr.zeroised + 4 * b2n f.vault.error +
      8 * b2n (f.run && decide (f.slotState f.cur.slot = 3)) + 16 * b2n f.recovery) ]

/-- R430: FW_SPDM. -/
def descSpdm (o : SpdmOp) : DescSpec :=
  { opcode := 0x00A6, basic := true, addrs := [(o.reqAddr, o.reqLen, 16), (o.rspAddr, o.rspMax, 16)] }
def bodySpdm (o : SpdmOp) (x : Ext) (s : State) : DescOut :=
  if o.reqLen < 4 ∨ 4096 < o.reqLen then .fail 0x9009 s
  else withVault s fun _ => withData x o.reqLen s fun b =>
    let r := Config.spdm s.free (measurements s) b
    if o.rspMax < r.length then .fail 0xB011 s.drawn
    else .done 0 r.length (hmWrite (.bytes o.rspAddr r) s.drawn)
def execFwSpdm (h : DescHdr) (o : SpdmOp) (x : Ext) (s : State) : Res := act (runDesc h (descSpdm o) (bodySpdm o x)) s

/-- R70, R433: what stands in the way of a fuse session; 0 when nothing does. -/
def fuseRefused (x : Ext) (s : State) : Nat :=
  if s.fw.vault.alarmed ∨ x.vfuse < 1710 ∨ 1890 < x.vfuse then 0xB00B
  else if s.fw.vault.error then 0xB009
  else if !s.fw.vault.ready ∨ s.fw.upd ≠ 0 then 0xB006
  else 0

/-- Replace element `i` of a list of `n`. -/
def setAt {α : Type} (n i : Nat) (d v : α) (l : List α) : List α := (List.range n).map fun k => if k = i then v else l.getD k d

/-- Set a bit of a mask. -/
def setBit (m i : Nat) : Nat := if bitOf m i then m else m + 2 ^ i

/-- R433: the fuses of a session. `bad` says that a fuse read back wrong, and `v i` is then what fuse field `i` holds. -/
def fuseBlow (kind index : Nat) (x : Ext) (v : Option (Nat → Nat)) (f : Fuses) : Fuses :=
  let val := fun (i good : Nat) => match v with | some g => g i | none => good
  match kind with
  | 0 => { f with intHash := setAt 2 index 0 (val 0 x.val) f.intHash }
  | 1 =>
    let g := x.gate
    let set7 := (List.range 8).map fun r => val (600 + r) ((g.boot.getD 7 []).getD r 0)
    { f with
      vmax := (List.range 8).map fun r => val r (g.vmax.getD r 0)
      vov := (List.range 8).map fun r => val (8 + r) (g.vov.getD r 0)
      slewMax := (List.range 8).map fun r => val (16 + r) (g.slewMax.getD r 0)
      dmin := (List.range 40).map fun d => val (24 + d) (g.dmin.getD d 0)
      nMax := val 64 g.nMax, capMax := val 65 g.capMax, tcrit := decS 16 (val 66 (encS 16 g.tcrit))
      tripOfs := (List.range 512).map fun i => decS 16 (val (67 + i) (encS 16 (g.tripOfs.getD i 0)))
      boot := setAt 8 7 [] set7 f.boot, gateDone := true, gateCrcOk := v.isNone || decide (val 608 1 % 2 = 1) }
  | 2 =>
    { f with boot := setAt 8 index [] ((List.range 8).map fun r => val r (x.vals.getD r 0)) f.boot, bootDone := setBit f.bootDone index }
  | 3 => { f with svn := match v with | some g => f.svn + g 0 % (x.val - f.svn + 1) | none => x.val }
  | 4 => if val 0 1 % 2 = 1 then { f with intRev := setBit f.intRev index } else f
  | 5 => if val 0 1 % 2 = 1 then { f with kolRev := setBit f.kolRev index } else f
  | _ => if val 0 1 % 2 = 1 then { f with zeroised := true } else f

/-- R433: a session blows its fuses and reads each back. A mismatch ends it: what the fuses then hold, and the completion's
status, are free values (log entry 4). -/
def fuseSession (kind index result : Nat) (x : Ext) (s : State) : DescOut :=
  match x.fuseBad with
  | none =>
    .done 0 result ((s.onFw fun f => { f with arr := fuseBlow kind index x none f.arr }) |> emitVault 0xB160 kind index 0 0)
  | some n =>
    let v := fun i => Config.freeValue (s.free + i) % 2 ^ (if kind = 0 then 384 else 16)
    let s1 := s.onFw fun f => { f with arr := fuseBlow kind index x (some v) f.arr }
    let s2 := setAlarm 16 (emitVault 0xB161 kind n 0 0 (s1.onFree (· + 1024)))
    .done (openStatus 0xB s2) 0 s2.drawn

/-- The part of a signed blob that its last 96 bytes sign, and the signature. -/
def signedParts (b : List Nat) : List Nat × List Nat := (b.take (b.length - 96), sub b (b.length - 96) 96)

/-- R433: a blob is signed under one of the keys: 0, FW_KEY when there is none, or FW_SIG. -/
def blobSigned (keys : List Nat) (b : List Nat) : Nat :=
  let p := signedParts b
  if keys = [] then 0xB002 else if keys.any fun k => Config.sigValid k p.1 p.2 then 0 else 0xB003

/-- The integrator keys that sign, leaving out slot `but`. -/
def State.intKeys (s : State) (but : Nat) : List Nat :=
  ((List.range 2).filter fun i => i ≠ but && decide (s.fuse.intHash.getD i 0 ≠ 0) && !bitOf s.fuse.intRev i).map
    fun i => s.fuse.intHash.getD i 0

/-- The Kolhidex keys that sign, leaving out key `but`. -/
def State.kolKeys (s : State) (but : Nat) : List Nat :=
  ((List.range 4).filter fun i => i ≠ but && kolKeyOk s.fuse i).map fun i => s.fuse.kolHash.getD i 0

/-- R433: the voltages are kept as last measured. -/
def fuseSense (x : Ext) (s : State) : State := s.onFw fun f => { f with vault := { f.vault with vfuseMv := x.vfuse } }

/-- A fuse session after the checks of its range: `pre` refuses by the field, `keys` says which keys may sign, if the
session is signed. -/
def fuseBody (kind index : Nat) (o : Buf) (x : Ext) (pre : State → Nat) (keys : State → Option (List Nat)) (s : State) : DescOut :=
  let t := fuseSense x s
  let st := fuseRefused x t
  if st ≠ 0 then .fail st t
  else if pre t ≠ 0 then .fail (pre t) t
  else match keys t with
    | none => fuseSession kind index 0 x t
    | some l => withData x o.len t fun b =>
      if blobSigned l b ≠ 0 then .fail (blobSigned l b) t else fuseSession kind index 0 x t

def descFuse (o : Buf) : DescSpec := { opcode := 0x00A7, basic := true, addrs := [(o.addr, o.len, 16)] }

/-- R433: kind 0. -/
def bodyFuseInt (index : Nat) (o : Buf) (x : Ext) (s : State) : DescOut :=
  if 2 ≤ index then .fail 0x9009 s
  else fuseBody 0 index o x (fun t => if t.fw.arr.intHash.getD index 0 ≠ 0 then 0xB00C else 0)
    (fun t => if (List.range 2).all fun i => t.fw.arr.intHash.getD i 0 = 0 then none else some (t.intKeys 2)) s
def execFuseIntegratorKey (h : DescHdr) (index : Nat) (o : Buf) (x : Ext) (s : State) : Res :=
  act (runDesc h (descFuse o) (bodyFuseInt index o x)) s

/-- R433: the values of a gate blob are in range (Table 1.6, R102). -/
def gateOk (g : Fuses) : Bool :=
  decide (8 ≤ g.capMax) && decide (g.capMax ≤ 24000) && decide (160 ≤ g.nMax) && decide (g.nMax ≤ 320) &&
    ((List.range 8).all fun r => decide (g.vmax.getD r 0 + 200 ≤ g.vov.getD r 0) || decide (g.vmax.length ≤ r ∧ g.vov.length ≤ r)) &&
    ((List.range 40).all fun d => decide (2 ≤ g.dmin.getD d 0) || decide (g.dmin.length ≤ d))

/-- R433: kind 1. -/
def bodyFuseGate (o : Buf) (x : Ext) (s : State) : DescOut :=
  fuseBody 1 0 o x (fun t => if t.fw.arr.gateDone then 0xB00C else if !gateOk x.gate then 0xB00D else 0)
    (fun t => some (t.intKeys 2)) s
def execFuseLimitGate (h : DescHdr) (o : Buf) (x : Ext) (s : State) : Res :=
  act (runDesc h (descFuse o) (bodyFuseGate o x)) s

/-- R433: kind 2. -/
def bodyFuseBoot (index : Nat) (o : Buf) (x : Ext) (s : State) : DescOut :=
  if 7 ≤ index then .fail 0x9009 s
  else fuseBody 2 index o x (fun t => if bitOf t.fw.arr.bootDone index then 0xB00C else 0) (fun t => some (t.intKeys 2)) s
def execFuseBootSet (h : DescHdr) (index : Nat) (o : Buf) (x : Ext) (s : State) : Res :=
  act (runDesc h (descFuse o) (bodyFuseBoot index o x)) s

/-- R425: the slots that a counter of `target` leaves bootable, as a mask. -/
def bootable (target : Nat) (s : State) : Nat :=
  maskOf ((List.range 2).filter fun k =>
    decide (s.fw.slotState k ≠ 0 ∧ s.fw.slotState k ≠ 4) && decide (fwCheck { s.fuse with svn := target } (s.fw.slotImg k) = 0))

/-- R425: kind 3. -/
def bodyFuseSvn (target : Nat) (x : Ext) (s : State) : DescOut :=
  let t := fuseSense x s
  let st := fuseRefused x t
  if st ≠ 0 then .fail st t
  else if 64 < target ∨ target ≤ t.fw.arr.svn ∨ t.fw.cur.svn < target ∨ ((t.fw.slotImg t.fw.pref).getD {}).svn < target then
    .fail 0xB00D t
  else fuseSession 3 0 (bootable target t) { x with val := target } t
def descFuseSvn : DescSpec := { opcode := 0x00A7, basic := true }
def execFuseSvn (h : DescHdr) (target : Nat) (x : Ext) (s : State) : Res := act (runDesc h descFuseSvn (bodyFuseSvn target x)) s

/-- R433: kind 4. -/
def bodyRevokeInt (index : Nat) (o : Buf) (x : Ext) (s : State) : DescOut :=
  if 2 ≤ index then .fail 0x9009 s
  else fuseBody 4 index o x (fun t => if bitOf t.fw.arr.intRev index then 0xB00C else 0) (fun t => some (t.intKeys index)) s
def execFuseRevokeIntegrator (h : DescHdr) (index : Nat) (o : Buf) (x : Ext) (s : State) : Res :=
  act (runDesc h (descFuse o) (bodyRevokeInt index o x)) s

/-- R433: kind 5; at least one key must stay unrevoked. -/
def bodyRevokeKol (index : Nat) (o : Buf) (x : Ext) (s : State) : DescOut :=
  if 4 ≤ index then .fail 0x9009 s
  else fuseBody 5 index o x
    (fun t => if bitOf t.fw.arr.kolRev index then 0xB00C
      else if (List.range 4).all fun i => i = index || !kolKeyOk t.fw.arr i then 0xB00D else 0)
    (fun t => some (t.kolKeys index)) s
def execFuseRevokeKolhidex (h : DescHdr) (index : Nat) (o : Buf) (x : Ext) (s : State) : Res :=
  act (runDesc h (descFuse o) (bodyRevokeKol index o x)) s

/-- R434: FW_TOKEN, a nonce. -/
def descToken (a n : Nat) : DescSpec := { opcode := 0x00A8, basic := true, addrs := [(a, n, 16)] }
def bodyNonce (o : Buf) (s : State) : DescOut :=
  withVault s fun _ =>
    if s.fw.arr.zeroised then .fail 0xB00E s
    else
      let n := Config.randomWord s.free % 2 ^ 128
      .done 0 0 (hmWrite (.bytes o.addr (leBytes 16 n))
        (s.drawn.onFw fun f => { f with vault := { f.vault with nonce := some (n, s.now) } }))
def execFwTokenNonce (h : DescHdr) (o : Buf) (s : State) : Res := act (runDesc h (descToken o.addr 16) (bodyNonce o)) s

/-- R434: a token is valid: its nonce is outstanding and at most 60 s old, and a Kolhidex key signs serial number, nonce
and mask. -/
def tokenOk (mask : Nat) (b : List Nat) (s : State) : Bool :=
  match s.fw.vault.nonce with
  | none => false
  | some (n, at_) =>
    let msg := leBytes 8 s.fuse.serial ++ leBytes 16 n ++ leBytes 4 mask
    !s.fw.arr.zeroised && decide (s.now ≤ at_ + 60 * nsPerS) &&
      (s.kolKeys 4).any fun k => Config.sigValid k msg (signedParts b).2

/-- R434: FW_TOKEN, a token; the nonce is used up. -/
def bodyToken (o : Buf) (x : Ext) (s : State) : DescOut :=
  withVault s fun _ => withData x o.len s fun b =>
    let used := fun (t : State) => t.onFw fun f => { f with vault := { f.vault with nonce := none } }
    let mask := x.val % 2 ^ 32
    if tokenOk mask b s then
      .done 0 mask ((used s).onFw (fun f => { f with vault := { f.vault with test := Nat.lor f.vault.test mask } })
        |> emitVault 0xB170 mask 0 0 0)
    else .fail 0xB00E (emitVault 0xB171 (s.freeVal 32) 0 0 0 (used s).drawn)
def execFwTokenUnlock (h : DescHdr) (o : Buf) (x : Ext) (s : State) : Res :=
  act (runDesc h (descToken o.addr o.len) (bodyToken o x)) s

/-- R415: Vault restarts from ROM and is not ready. -/
def vaultRestart (s : State) : State :=
  s.onFw fun f => { f with vault := { f.vault with ready := false, restarts := satInc 16 f.vault.restarts, nonce := none } }

/-- R420: FW_ZEROISE with `MODE` 0. -/
def descZeroise : DescSpec := { opcode := 0x00A9, basic := true }
def bodyZeroVol (key : Nat) (s : State) : DescOut :=
  if key ≠ 0x5A45524F then .fail 0x9009 s
  else if s.fw.vault.error then .done 0 0 (vaultWipe s)
  else if !s.fw.vault.ready then .fail 0xB006 s
  else .done 0 0 (vaultRestart (vaultWipe s))
def execZeroiseVolatile (h : DescHdr) (key : Nat) (s : State) : Res := act (runDesc h descZeroise (bodyZeroVol key)) s

/-- R420: FW_ZEROISE with `MODE` 1, in a fuse session. -/
def bodyZeroPerm (key : Nat) (x : Ext) (s : State) : DescOut :=
  if key ≠ 0x5A45524F then .fail 0x9009 s
  else
    let t := fuseSense x s
    let st := fuseRefused x t
    if st ≠ 0 then .fail st t
    else if t.fw.arr.zeroised then .fail 0xB00C t
    else match x.fuseBad with
      | none => .done 0 0 ((t.onFw fun f => { f with arr := fuseBlow 6 0 x none f.arr }) |> emitVault 0xB132 1 0 0 0)
      | some _ => fuseSession 6 0 0 x t
def execZeroisePermanent (h : DescHdr) (key : Nat) (x : Ext) (s : State) : Res :=
  act (runDesc h descZeroise (bodyZeroPerm key x)) s

/-- R435: FW_LIVE_UPDATE; the new image is checked again as it stands in its slot. -/
def descLive : DescSpec := { opcode := 0x00A3, basic := true, feature := some 8 }
def bodyLive (h : DescHdr) (s : State) : DescOut :=
  withVault s fun _ =>
    let k := s.otherSlot
    let st := s.fw.slotState k
    if st ≠ 1 ∧ st ≠ 2 then .fail 0xB008 s
    else
      let r := slotCheck k s
      let g := (s.fw.slotImg k).getD {}
      let t := if r.1 = 0xB005 then dirWrite (r.2.onFw (Fw.setSlot k 4)) else r.2
      if r.1 ≠ 0 then .fail r.1 t
      else if g.ver / 2 ^ 24 ≠ t.fw.cur.ver / 2 ^ 24 ∨ t.fw.cur.hoVer < g.hoMin then .fail 0xB007 t
      else if t.fw.upd ≠ 0 ∨ t.fw.slotState t.fw.cur.slot = 3 then .fail 0xB006 t
      else
        .wait ((t.onFw fun f => { f with upd := 1, updHdr := some h, old := f.cur, next := runImgOf k g })
          |> emitVault 0xB110 g.ver t.fw.cur.ver 0 0)
def execFwLiveUpdate (h : DescHdr) (s : State) : Res := act (runDesc h descLive (bodyLive h)) s

/-- R436 step 2: the hold: every running cluster enters HOLD, the rails hold, firmware does not answer. -/
def updHold (s : State) : State :=
  let s1 := holdAll 0 s
  (forList s1.railIds (fun r => State.updReg r fun x => { x with hold := true }) s1).onFw fun f => { f with handoff := true }

/-- R436 steps 1 and 2. -/
def prepareDone (s : State) : State :=
  if s.fw.upd ≠ 1 then s
  else
    let m := maskOf (s.clusters.filter fun c => (s.getClu c).st = 1)
    let s1 := updHold (audAbandon 2 s)
    s1.onFw fun f => { f with upd := 2, runMask := m, holdAt := s.now }

/-- R436: LU_PREPARE_DONE. -/
def execLuPrepareDone (s : State) : Res := act prepareDone s

/-- R436: the cores change banks. -/
def flipBanks (s : State) : State :=
  forList ([32, 33] ++ s.clusters) (fun k => State.updFwCore k fun x => { x with bank := !x.bank }) s

/-- R437: a rollback: the old image restarts from its banks and its handoff area; the Overdraft bucket is empty and every
Escrow loan is returned. -/
def rollback (cause : Nat) (s : State) : State :=
  let up := s.fw.upd
  let bad := s.fw.next
  let s1 := updHold s
  let s2 := if up = 2 then s1 else flipBanks s1
  let s3 := forList s2.clusters (reclaimClu 1) s2
  let s4 := match s3.ho with
    | some o =>
      let s4 := ((s3.onLoop fun l => { l with loop := o.loop }).onFc fun _ => o.fc).onTrs fun t =>
        { o.trs with energy := t.energy, energyRem := t.energyRem }
      (s4.onTly fun y => { y with prog := o.prog, set := o.set }).onFrm fun f =>
        { f with nextTable := if o.table = f.table then none else o.table }
    | none => s3
  let s5 := forList s4.clusters (fun c => State.updTrsCl c fun y => { y with lent := 0 })
    (s4.onTrs fun t => { t with od := 0, odSince := none, rets := [] })
  dirWrite (s5.onFw fun f => Fw.setSlot bad.slot 4
    { f with upd := 6, cur := f.old, pref := f.old.slot, holdAt := if up = 5 then s.now else f.holdAt, okFrames := 0, allocOk := false })
  |> emitVault 0xB113 cause bad.ver 0 0

/-- R436 steps 3 and 4: the handoff is written and its digest checked; the new image starts. -/
def handoffDone (ok : Bool) (s : State) : State :=
  if s.fw.upd ≠ 2 then s
  else
    let s1 := s.onHo fun _ => some { loop := s.loop.loop, fc := s.fc, trs := s.trs, prog := s.tly.prog, set := s.tly.set, table := s.frm.table }
    if !ok then rollback 0 s1
    else
      dirWrite ((flipBanks s1).onFw fun f => Fw.setSlot f.next.slot 3
        { f with upd := 4, cur := f.next, pref := f.next.slot, switchAt := s.now })

/-- R436: LU_HANDOFF_DONE. -/
def execLuHandoffDone (digestOk : Bool) (s : State) : Res := act (handoffDone digestOk) s

/-- The live update has ended: the descriptor completes. -/
def updEnd (status : Nat) (s : State) : State :=
  let s1 := (s.onFw fun f => { f with upd := 0, updHdr := none }).onHo fun _ => none
  match s.fw.updHdr with
  | some h => complete h 0x00A3 status 0 s1
  | none => s1

/-- R436 step 6: the image resumes: the clusters leave HOLD, a new incarnation is drawn and Clearing joins. -/
def resumed (s : State) : State :=
  if s.fw.upd ≠ 4 ∧ s.fw.upd ≠ 6 then s
  else
    let us := divRoundN (s.now - s.fw.holdAt) nsPerUs
    let s1 := s.onFw fun f => { f with handoff := false, holdUs := satU 16 us, okFrames := 0, allocOk := false }
    let s2 := forList (s1.clusters.filter fun c => (s1.getClu c).holdCause = 0) cluUnhold s1
    let s3 := clrRejoin (clrDrop (railsFree s2)) |> emitVault 0xB111 us 0 0 0
    let s4 := s3.onTrs fun t => { t with outOfTurn := true }
    if s.fw.upd = 4 then s4.onFw fun f => { f with upd := 5 } else updEnd 0xB00F s4

/-- R436: FW_RESUMED. -/
def execFwResumed (s : State) : Res := act resumed s

/-- R437: the conditions of the self-confirmation hold. -/
def State.confirmMay (s : State) : Bool :=
  decide (s.fw.upd = 5) && decide (1024 ≤ s.fw.okFrames) && s.fw.allocOk &&
    ((maskIdx 32 s.fw.runMask).all fun c => decide ((s.getClu c).st ≠ 2))

/-- R437: the new image confirms itself. -/
def selfConfirmed (s : State) : State :=
  if !s.confirmMay then s
  else
    let t := s.now - s.fw.switchAt
    updEnd 0 ((s.onFw fun f => { f with confMs := satU 16 (divRoundN t 10000) }) |> emitVault 0xB112 (divRoundN t nsPerUs) 0 0 0)

/-- R437: FW_SELF_CONFIRMED. -/
def execFwSelfConfirmed (s : State) : Res := act selfConfirmed s

/-- R437: no resumption within 5 ms of the hold, or no confirmation within 100 ms of the switch. -/
def rollbackDue (s : State) : State :=
  let u := s.fw.upd
  if (u = 2 ∨ u = 4) ∧ s.fw.holdAt + 5 * nsPerMs ≤ s.now then rollback 1 s
  else if (u = 4 ∨ u = 5) ∧ s.fw.switchAt + 100 * nsPerMs ≤ s.now then rollback 2 s
  else s

/-- R437: FW_ROLLBACK. -/
def execFwRollback (s : State) : Res := act rollbackDue s

/-- R70: VFUSE above 0.5 V outside a session. -/
def vfuseAlarm (mv : Nat) (s : State) : State :=
  let s1 := (s.onPwr fun p => { p with vfuseHi := decide (500 < mv) }).onFw fun f => { f with vault := { f.vault with vfuseMv := mv } }
  if 500 < mv ∧ !s.fw.vault.alarmed then
    setAlarm 11 ((s1.onFw fun f => { f with vault := { f.vault with alarmed := true } }) |> emitVault 0xB162 mv 0 0 0)
  else s1

/-- R70: FW_VFUSE_ALARM. -/
def execFwVfuseAlarm (mv : Nat) (s : State) : Res := act (vfuseAlarm mv) s

/-- Tellers that Teller `t` covers. -/
def State.covers (s : State) (t : Nat) : List Nat :=
  s.clusters.filter fun k => k ≠ t && decide (s.partner k = t) && ((s.getFwCore k).st = 4 || (s.getFwCore k).st = 5)

/-- R456: a test of a Teller whose partner hangs is abandoned, and the Teller returns. -/
def partnerHang (t : Nat) (s : State) : State :=
  forList ((s.covers t).filter fun k => (s.getUnit (audIdx 1 k)).st ≠ 0) (fun k u =>
    let u1 := match u.aud.test with
      | some a => if a.kind = 1 ∧ a.idx = k then audAbandon 4 u else u
      | none => u
    if (u1.getUnit (audIdx 1 k)).st = 4 then u1 else audBack 1 k u1) s

/-- R415: a Teller's watchdog expires. -/
def tellerHang (t : Nat) (s : State) : State :=
  let x := s.getFwCore t
  let again := match x.lastHang with | some a => decide (s.now < a + nsPerS) | none => false
  let st := if again then 5 else if s.partnerFree t then 4 else 3
  partnerHang t (presetLoops t (s.updFwCore t fun y =>
    { y with st := st, lastHang := some s.now, backFrom := s.frm.count + 1,
             moveFrom := if x.st = 4 then y.moveFrom else s.frm.count + 1 }))

/-- R415: a firmware core misses its watchdog. -/
def coreHang (k : Nat) (s : State) : State :=
  let x := s.getFwCore k
  if !s.fw.run || decide (x.st = 0 ∨ x.st = 2 ∨ x.st = 5) || decide (k < 32 ∧ (s.getUnit (audIdx 1 k)).st ≠ 0) then s
  else
    let p := if k < 32 then s.partner k else 0xFF
    let s1 := (s.updFwCore k fun y => { y with hangs := satInc 16 y.hangs }) |> emitVault 0xB120 k p 0 0
    if s.fw.upd = 4 ∨ s.fw.upd = 5 then rollback 3 s1
    else if 32 ≤ k then warmReset 4 s1
    else tellerHang k s1

/-- R415: FW_CORE_HANG. -/
def execFwCoreHang (core : Fin 34) (s : State) : Res := act (coreHang core.val) s

/-- R415: a restarted Teller takes its clusters back at a frame boundary after 1,024 frames without fault. -/
def coreBack (t : Nat) (s : State) : State :=
  let x := s.getFwCore t
  if s.fwUp && !s.frm.inFrame && decide (x.st = 3 ∨ x.st = 4) && decide ((s.getUnit (audIdx 1 t)).st = 0) && decide (x.backFrom + 1024 ≤ s.frm.count) then
    presetLoops t (s.updFwCore t fun y => { y with st := 1, moveFrom := s.frm.count }) |> emitVault 0xB121 t 0 0 0
  else s

/-- R415: FW_CORE_BACK. -/
def execFwCoreBack (t : ClusterId) (s : State) : Res := act (coreBack t.val) s

/-- R415: Vault's own watchdog restarts it; `result` is what its self-tests give. -/
def vaultHang (result : Nat) (s : State) : State :=
  let s1 := vaultRestart s |> emitVault 0xB122 result 0 0 0
  let s2 := if s1.fw.upd = 1 then updEnd 0xB006 s1 else s1
  if result ≠ 0 then vaultError result s2 else s2

/-- R415: FW_VAULT_RESTART. -/
def execFwVaultRestart (result : Nat) (s : State) : Res := act (vaultHang result) s

/-- R415: the restarted Vault offers its services again. -/
def vaultReady (s : State) : State :=
  if s.fw.vault.error then s else s.onFw fun f => { f with vault := { f.vault with ready := true } }

/-- R415: VAULT_READY. -/
def execVaultReady (s : State) : Res := act vaultReady s

/-- R419: FW_SELFTEST_FAIL, while Vault serves or during the self-tests of a restart. -/
def execFwSelftestFail (test : Nat) (s : State) : Res := act (vaultError test) s

/-- R416: every cluster that Teller `t` serves has been STOPPED for 1 ms. -/
def State.mayRest (s : State) (t : Nat) : Bool :=
  (t :: s.covers t).all fun c =>
    decide ((s.getClu c).st = 0) && (match (s.getFwCore c).idleSince with | some a => decide (a + nsPerMs ≤ s.now) | none => false)

/-- The clusters that Teller `t` serves, as a mask. -/
def State.servedMask (s : State) (t : Nat) : Nat := maskOf (t :: s.covers t)

/-- R408, R416: a Teller falls asleep; what its queue holds is stored, and then ENTER_LP. -/
def enterLp (t : Nat) (s : State) : State :=
  if s.fwUp && decide ((s.getFwCore t).st = 1) && s.mayRest t then
    ldgFlush t (emitTeller t 0xA812 (s.servedMask t) 0 0 0 (ldgFlush t s)) |> State.updFwCore t fun y => { y with st := 2, sleepAt := s.now }
  else s

/-- R416: ENTER_LP. -/
def execEnterLp (t : ClusterId) (s : State) : Res := act (enterLp t.val) s

/-- R416: a sleeping Teller wakes; what waited for it starts (R111). -/
def exitLp (t : Nat) (s : State) : State :=
  let x := s.getFwCore t
  if x.st = 2 then
    restartAll ((s.updFwCore t fun y => { y with st := 1 }) |> emitTeller t 0xA813 (satU 32 (s.now - x.sleepAt)) (s.servedMask t) 0 0)
  else s

/-- R416: EXIT_LP. -/
def execExitLp (t : ClusterId) (s : State) : Res := act (exitLp t.val) s

end Sys2Proof.Machine
end

