-- ==== Sys2Proof/Machine/Fetch.lean ====
section
/-!
DEFINITION. The fetch of a descriptor from host memory: its 64 bytes taken apart into header, operand and opcode
(Tables 14.2, 14.5, 15.9, 16.14, 17.4), and its retry (R378).
-/
namespace Sys2Proof.Machine

/-- What a descriptor's opcode and operand say to do. -/
abbrev Plan := DescSpec × (State → DescOut)

/-- The operand bytes that no entry of `used` names (offset, size), and the header's reserved bits, are 0 (R12, R378). -/
def rsvOk (b : List Nat) (used : List (Nat × Nat)) : Bool :=
  decide (b.getD 2 0 < 2) && decide (b.getD 3 0 = 0) &&
    (List.range 56).all fun i => decide (b.getD (8 + i) 0 = 0) || used.any fun u => decide (u.1 ≤ 8 + i) && decide (8 + i < u.1 + u.2)

/-- Bytes and bits of the operand that each opcode names: offset and size, then offset and number of low bits. -/
def opFields (op : Nat) : List (Nat × Nat) × List (Nat × Nat) :=
  match op with
  | 0x0003 => ([(8, 4)], [])
  | 0x0004 => ([(8, 4)], [])
  | 0x0010 => ([(8, 6), (16, 25), (44, 12)], [(13, 1)])
  | 0x0011 => ([(8, 2)], [])
  | 0x0012 => ([(8, 6)], [])
  | 0x0013 => ([(8, 2), (16, 16)], [])
  | 0x0014 => ([(8, 3)], [])
  | 0x0015 => ([(8, 2), (16, 8)], [])
  | 0x0020 => ([(8, 2)], [])
  | 0x0021 => ([(8, 20)], [])
  | 0x0030 => ([(8, 12)], [])
  | 0x0031 => ([(8, 1)], [])
  | 0x0032 => ([(8, 1), (16, 16)], [])
  | 0x0033 => ([(8, 1)], [])
  | 0x0034 => ([(8, 10)], [])
  | 0x0040 => ([(8, 15), (24, 8)], [])
  | 0x0041 => ([(8, 1), (16, 8)], [])
  | 0x0050 => ([(8, 5), (16, 4)], [])
  | 0x0060 => ([(8, 7), (16, 10), (28, 32)], [(9, 1)])
  | 0x0061 => ([(8, 4), (16, 48)], [(10, 1)])
  | 0x0062 => ([(8, 1), (10, 2)], [])
  | 0x0070 => ([(8, 21)], [(28, 1)])
  | 0x0071 => ([(8, 2), (12, 12)], [(9, 1)])
  | 0x0080 => ([(8, 34), (44, 11), (56, 4)], [(54, 1)])
  | 0x0081 => ([(8, 34), (44, 11), (56, 4)], [(54, 1)])
  | 0x0082 => ([(8, 2), (16, 8)], [])
  | 0x0083 => ([(8, 1)], [(8, 1)])
  | 0x0084 => ([(8, 5), (16, 8)], [(12, 1)])
  | 0x00A1 => ([(16, 12)], [])
  | 0x00A2 => ([(8, 1)], [])
  | 0x00A5 => ([(16, 12)], [])
  | 0x00A6 => ([(16, 10), (32, 10)], [])
  | 0x00A7 => ([(8, 3), (16, 10)], [])
  | 0x00A8 => ([(8, 1), (16, 10)], [])
  | 0x00A9 => ([(8, 1), (12, 4)], [])
  | 0x00B0 => ([(8, 1), (10, 3)], [(12, 2)])
  | 0x00B1 => ([(8, 1), (10, 3)], [(12, 2)])
  | 0x00B2 => ([(8, 1), (10, 2)], [])
  | _ => ([], [])

/-- Check 5 of Table 14.4 on the bytes of a descriptor. -/
def descZero (b : List Nat) : Bool :=
  let f := opFields (fld b 0 2)
  rsvOk b f.1 && f.2.all fun u => decide (b.getD u.1 0 < 2 ^ u.2)

/-- The host interface, contexts, control start, rails and baselines. -/
def planHif (h : DescHdr) (b : List Nat) (x : Ext) (op : Nat) : Option Plan :=
  let ctx := fld b 8 2
  match op with
  | 0x0001 => some (descNop, bodyNop)
  | 0x0002 => some (descIdentify, bodyIdentify h)
  | 0x0003 => some (descWarmReset, bodyWarmReset (fld b 8 4))
  | 0x0004 => some (descControlStart, controlStart (fld b 8 4))
  | 0x0010 => some (descCtxOpen, bodyCtxOpen
      { ctx := ctx, sqLog := fld b 10 1, cqLog := fld b 11 1, schedW := fld b 12 1, irqEn := bitOf (fld b 13 1) 0,
        sqBase := fld b 16 8, cqBase := fld b 24 8, winBase := fld b 32 8, winLog := fld b 40 1, irqData := fld b 44 4,
        irqAddr := fld b 48 8 })
  | 0x0011 => some (descCtxClose, bodyCtxClose h ctx)
  | 0x0012 => some (descCtxParam, bodyCtxParam ctx (fld b 10 2) (fld b 12 1) (fld b 13 1))
  | 0x0013 => some (descCtxPlace, bodyCtxPlace ctx (fld b 16 16))
  | 0x0014 => some (descFloorSet ctx, bodyFloorSet ctx (fld b 10 1))
  | 0x0015 => some (descCtxTelem ctx (fld b 16 8), bodyCtxTelem ctx (fld b 16 8))
  | 0x0020 => some (descRailCtrl,
      match fld b 8 1 with
      | 0 => railCtrlStart (fld b 9 1)
      | 1 => railCtrlStop (fld b 9 1)
      | _ => DescOut.fail 0x9009)
  | 0x0021 => some (descAmBaseline, bodyAmBaseline (fld b 8 20) x)
  | _ => none

/-- Tally, the loops and hints. -/
def planTly (b : List Nat) (x : Ext) (op : Nat) : Option Plan :=
  let k := fld b 8 1
  let a := fld b 8 8
  match op with
  | 0x0030 => some (descTlyInstall ⟨a, fld b 16 4⟩, bodyTlyInstall ⟨a, fld b 16 4⟩ x)
  | 0x0031 => some (descTlyRemove, bodyTlyRemove k)
  | 0x0032 => some (descTlySetReg (fld b 16 8) (fld b 24 8), bodyTlySetReg k (fld b 16 8) (fld b 24 8) x)
  | 0x0033 => some (descTlySetRemove, bodyTlySetRemove k)
  | 0x0034 => some (descSlotTable a (fld b 16 2), bodySlotTable (fld b 16 2) x)
  | 0x0040 => some (descLoopCoef, bodyLoopCoef
      { cluster := k, loop := fld b 9 1, valid := fld b 10 2,
        vals := [fld b 12 2, fld b 14 2, fld b 16 2, fld b 18 1, fld b 19 1, fld b 20 2, fld b 22 1, fld b 24 2, fld b 26 2,
                 fld b 28 1, fld b 29 1, fld b 30 1, fld b 31 1] })
  | 0x0041 => some (descVftLoad (fld b 16 8), bodyVftLoad k x)
  | 0x0050 => some (descHintClass,
      match k with
      | 0 => bodyHintClassEntry (fld b 9 1) (fld b 16 4)
      | 1 => bodyHintClassPerm (fld b 10 2) (fld b 12 1) (fld b 16 4)
      | _ => DescOut.fail 0x6806)
  | _ => none

/-- SYN_ACT by its act (Table 14.5). -/
def planAct (b : List Nat) : State → DescOut :=
  let i := fld b 10 2
  match fld b 8 1 with
  | 0 => bodySynFlag true i
  | 1 => bodySynFlag false i
  | 2 => bodyAdjust i (fld b 12 2)
  | 3 => bodyReleaseWaiter i
  | 4 => bodyFailWaiter i
  | 5 => bodyResetWindow (bitOf (fld b 9 1) 0) i
  | 6 => bodySetKind i (fld b 16 8)
  | 7 => fun s => if 16 < fld b 14 1 then .fail 0x700D s
      else bodyGroupDef i (fld b 24 2) ((List.range (fld b 14 1)).map fun k => fld b (28 + 2 * k) 2) s
  | _ => DescOut.fail 0x700D

/-- Synchronisation and Clearing. -/
def planSyn (h : DescHdr) (b : List Nat) (op : Nat) : Option Plan :=
  match op with
  | 0x0060 => some (descSynAct, planAct b)
  | 0x0061 => some (descSynMap, fun s => if 8 < fld b 11 1 then .fail 0x700D s
      else bodySynMap
        { ctx := fld b 8 2, force := bitOf (fld b 10 1) 0, add := fld b 16 16, remove := fld b 32 16,
          moves := (List.range (fld b 11 1)).map fun k => (fld b (48 + 2 * k) 1, fld b (49 + 2 * k) 1) } s)
  | 0x0062 => some (descSynRead, bodySynRead h (fld b 8 1) (fld b 10 2))
  | 0x0070 => some (descClrConfig, bodyClrConfig
      { chip := fld b 8 4, domain := fld b 12 2, vmax := fld b 14 1, keep := fld b 15 1, mbx := fld b 16 8,
        leaseUs := fld b 24 2, retryMs := fld b 26 2, en := bitOf (fld b 28 1) 0 })
  | 0x0071 =>
    let o : ClrLinkOp := { link := fld b 8 1, en := bitOf (fld b 9 1) 0, peer := fld b 12 4, addr := fld b 16 8 }
    some (descClrLink o, bodyClrLink o)
  | _ => none

/-- The transfer operand of Table 15.3. -/
def xferOf (b : List Nat) : XferOp :=
  { mode := fld b 8 1, esize := fld b 9 1, srcSpace := fld b 10 1 % 16, dstSpace := fld b 10 1 / 16, chan := fld b 11 1,
    count := fld b 12 4, src := fld b 16 8, dst := fld b 24 8, table := fld b 32 8, nch := fld b 40 2, pstride := fld b 44 4,
    periodUs := fld b 48 4, nbuf := fld b 52 2, stop := bitOf (fld b 54 1) 0, bstride := fld b 56 4 }

/-- DMA and Ledger (Table 15.9), and Audit (Table 17.4). -/
def planDma (h : DescHdr) (b : List Nat) (x : Ext) (op : Nat) : Option Plan :=
  match op with
  | 0x0080 => some (descDmaXfer, bodyDmaXfer h (xferOf b) x)
  | 0x0081 => some (descDmaStream, bodyDmaStream h (xferOf b) x)
  | 0x0082 => some (descLdgDrain, bodyLdgDrain h (fld b 8 2) (fld b 16 8))
  | 0x0083 => some (descLdgRearm, bodyLdgRearm (bitOf (fld b 8 1) 0))
  | 0x0084 => some (descFrecCopy, bodyFrecCopy h
      { slot := fld b 8 2, nslot := fld b 10 2, fromPtr := bitOf (fld b 12 1) 0, addr := fld b 16 8 })
  | 0x00B0 => some (descAudTest, bodyAudTest h (fld b 8 1) (fld b 10 2) (bitOf (fld b 12 1) 0) (bitOf (fld b 12 1) 1))
  | 0x00B1 => some (descAudRemove, bodyAudRemove (fld b 8 1) (fld b 10 2) (bitOf (fld b 12 1) 0) (bitOf (fld b 12 1) 1))
  | 0x00B2 => some (descAudReturn, bodyAudReturn (fld b 8 1) (fld b 10 2))
  | _ => none

/-- Firmware (Table 16.14). -/
def planFw (h : DescHdr) (b : List Nat) (x : Ext) (op : Nat) : Option Plan :=
  let k := fld b 8 1
  let o : Buf := ⟨fld b 16 8, fld b 24 4⟩
  let o2 : Buf := ⟨fld b 16 8, fld b 24 2⟩
  match op with
  | 0x00A0 => some (descFwQuery, bodyFwQuery)
  | 0x00A1 => some (descFwStage o, bodyFwStage o x)
  | 0x00A2 => some (descActivate k, if k < 2 then bodyActivate k x else DescOut.fail 0x9009)
  | 0x00A3 => some (descLive, bodyLive h)
  | 0x00A4 => some (descFwConfirm, bodyFwConfirm x)
  | 0x00A5 => some (descConfigStage o, bodyConfigStage o x)
  | 0x00A6 =>
    let q : SpdmOp := { reqAddr := fld b 16 8, reqLen := fld b 24 2, rspAddr := fld b 32 8, rspMax := fld b 40 2 }
    some (descSpdm q, bodySpdm q x)
  | 0x00A7 =>
    let i := fld b 9 1
    match k with
    | 0 => some (descFuse o2, bodyFuseInt i o2 x)
    | 1 => some (descFuse o2, bodyFuseGate o2 x)
    | 2 => some (descFuse o2, bodyFuseBoot i o2 x)
    | 3 => some (descFuse o2, bodyFuseSvn (fld b 10 1) x)
    | 4 => some (descFuse o2, bodyRevokeInt i o2 x)
    | 5 => some (descFuse o2, bodyRevokeKol i o2 x)
    | _ => some (descFuse o2, DescOut.fail 0x9009)
  | 0x00A8 =>
    match k with
    | 0 => some (descToken o2.addr 16, bodyNonce o2)
    | 1 => some (descToken o2.addr o2.len, bodyToken o2 x)
    | _ => some (descToken o2.addr 16, DescOut.fail 0x9009)
  | 0x00A9 =>
    match k with
    | 0 => some (descZeroise, bodyZeroVol (fld b 12 4))
    | 1 => some (descZeroise, bodyZeroPerm (fld b 12 4) x)
    | _ => some (descZeroise, DescOut.fail 0x9009)
  | _ => none

/-- R373: the header of a descriptor. -/
def hdrOf (c : CtxId) (b : List Nat) : DescHdr :=
  { ctx := c, tag := fld b 4 4, notify := bitOf (b.getD 2 0) 0, reservedZero := descZero b }

/-- What a descriptor says to do, if its opcode is defined. -/
def planOf (h : DescHdr) (b : List Nat) (x : Ext) : Option Plan :=
  let op := fld b 0 2
  (planHif h b x op).or ((planTly b x op).or ((planSyn h b op).or ((planDma h b x op).or (planFw h b x op))))

/-- R378: perform the descriptor whose bytes have been fetched; an undefined opcode completes with HIF_OPCODE. -/
def perform (c : CtxId) (b : List Nat) (x : Ext) (s : State) : State :=
  let h := hdrOf c b
  match planOf h b x with
  | some p => warmAfter (runDesc h p.1 p.2 s)
  | none =>
    runDesc { h with reservedZero := true } { opcode := fld b 0 2, basic := true, tenant := true, recov := true } (DescOut.fail 0x9001) s

/-- The 64 bytes of a descriptor from the words read. -/
def descBytes (w : List Word) : List Nat := (wordBytes (w.map BitVec.toNat)).take 64

/-- R378: a descriptor is fetched; `none` is a read that fails under R38. -/
def fetch (c : CtxId) (words : Option (List Word)) (x : Ext) (s : State) : State :=
  if !descMay c.val s || (s.hm.inReset && words.isSome) then s
  else match words with
    | none => s.updCtx c.val fun y => { y with fetchFail := some s.now }
    | some w => perform c (descBytes w) x s

/-- R378: DESCRIPTOR_FETCH. -/
def execDescriptorFetch (c : CtxId) (words : Option (List Word)) (x : Ext) (s : State) : Res := act (fetch c words x) s

/-- R378: a failed fetch is retried once after 10 µs; a second failure puts the context in ERROR with cause 1. -/
def fetchRetry (c : CtxId) (words : Option (List Word)) (x : Ext) (s : State) : State :=
  let y := s.getCtx c.val
  match y.fetchFail with
  | none => s
  | some t =>
    let s1 := s.updCtx c.val fun z => { z with fetchFail := none }
    if s.now < t + 10 * nsPerUs || !descMay c.val s1 || (s.hm.inReset && words.isSome) then s
    else match words with
      | none => ctxError c.val 1 (y.sqTail + y.cqHead * 2 ^ 16) s1
      | some w => perform c (descBytes w) x s1

/-- R378: FETCH_RETRY. -/
def execFetchRetry (c : CtxId) (words : Option (List Word)) (x : Ext) (s : State) : Res := act (fetchRetry c words x) s

end Sys2Proof.Machine
end

