-- ==== Sys2Proof/Machine/Frame.lean ====
section
/-!
DEFINITION. The commands of frames, slots, shedding, the ceiling port and the loop registers (R45, R46, R77–R89,
R246–R253).
-/
namespace Sys2Proof.Machine

/-- What takes effect at a frame boundary before the snapshot (R82, R86–R88, R231, R246, R247, R287, R301). -/
def frameBoundary (s : State) : State :=
  let s1 := cubeRejoins (cubeSwaps s)
  let s2 := forList (List.range s1.slots.length) loopBackstop s1
  let s3 := requiredBack (hostShed (restoreDue (shedDue s2)))
  let s4 := loopBoundary (tableInstall s3)
  hintEpochs (forList s4.clusters hintDue (trsBoundary (clrBoundary s4)))

/-- R78: the snapshot: measured quantities, forecaster bindings and the INPUT blocks. -/
def snapshotInputs (s : State) : State :=
  let s1 := forList s.fcClus (fun c t => fcModel c (fcBoundary c t)) s
  let s2 := forList s1.clusters (fun c t => measureClu c (extFrame c t)) s1
  let s3 := forList (s2.sns.det.map Prod.fst) (fun k => State.updDet k fun x => { x with frame := 0 }) s2
  writeInputs (netOff s3)

/-- R77, R78: frame n begins; its number is that of the boundary last passed, and the boundaries since the last one that was
started count as frames (log entry 82). `stepPs` is the pace monitor's newest
measurement of the Tally step (R76). -/
def frameStart (stepPs : Nat) (s : State) : State :=
  let n := s.now / s.frameNs
  let f := s.frm
  if f.inFrame || (f.started && decide (n * s.frameNs ≤ f.frameStart)) then s
  else
    let k := if f.started then f.count + max 1 ((n * s.frameNs - f.frameStart) / s.frameNs) else n
    let s1 := (s.onFrm fun x => { x with number := n, count := k, frameStart := n * s.frameNs, started := true, done := [] }).onTb fun t =>
      { t with stepPs := satU 16 stepPs, stepMaxPs := max t.stepMaxPs (satU 16 stepPs) }
    let s2 := snapshotInputs (frameBoundary s1)
    planSlots ((s2.onTly fun t => { t with ran := [], work := [] }).onFrm fun x =>
      { x with inFrame := true, missedThis := false, vitalMiss := false })

/-- R77, R78: FRAME_START. -/
def execFrameStart (stepPs : Nat) (s : State) : Res := act (frameStart stepPs) s

/-- R84: slots that have not completed when the frame ends have missed. -/
def missRest (s : State) : State :=
  forList (List.range s.slots.length) (fun k t =>
    if (t.getRt k).run = .idle || (t.getRt k).run = .running then slotFail k t else t) s

/-- R166, R237, R238, R285: the measurements of the frame. -/
def frameMeasure (s : State) : State :=
  let s1 := forList (List.range 8) railFrame s
  let s2 := forList s1.clusters actFrame s1
  meterFrame (apportion s2)

/-- The outputs of Tally's runs are committed (R218). -/
def tlyCommit (s : State) : State :=
  s.onTly fun t =>
    { t with st := t.work.foldl (fun u e => Tbl.set {} u e.1 e.2) t.st, work := [], ranLast := t.ran }

/-- The forecasts and their evaluation at a commit (R273–R280). -/
def fcFrame (s : State) : State :=
  let fs := s.frm.frameStart
  let s1 := forList s.fcClus (fun c t => fcGates c (fcEvaluate c fs s.frameNs (fcCommit c t))) s
  forList (List.range 8) fcDeliver (forList s1.clusters (fun c t => hintFrame c fs s.frameNs t) s1)

/-- Treasury's part of a commit (R295, R301–R307). -/
def trsFrame (s : State) : State :=
  let s1 := loansBack (odCheck s)
  let s2 := forList s1.clusters setTargets s1
  let s3 := forList s2.clusters reasonFrame s2
  forList (s3.trs.tx.map Prod.fst) breachFrame s3

/-- R435: while an update awaits confirmation, a frame without a SELECT or LIMIT miss counts and any other starts the
count again. -/
def confirmFrame (s : State) : State :=
  if s.fw.upd = 5 then
    s.onFw fun f => { f with okFrames := if s.frm.vitalMiss then 0 else satInc 32 f.okFrames }
  else s

/-- R468, Table 18.3: hardware sets `LIM_THROT` and `LIM_POWER` at every frame commit. -/
def limFrame (s : State) : State :=
  s.onPwr fun p => { p with
    limThrot := maskOf (s.clusters.filter fun c => Nat.land (s.getTrsCl c).reasons s.trs.throtMask ≠ 0)
    limEff := s.trs.eff, limP := s.trs.pPkg }

/-- R78: the commit at the end of a frame. -/
def frameCommit (s : State) : State :=
  let f := s.frm
  if !f.inFrame || decide (s.now + 40 < f.frameStart + s.frameNs) then s
  else
    let s1 := frameCounts (missRest (commitSlots s))
    let s2 := netFrame (tlyCommit s1)
    let s3 := mapAll (allocCommit (frameMeasure s2))
    let s4 := limFrame (trsFrame (waitFrame (fcFrame s3)))
    let s5 := (s4.onClr fun c => { c with pSum := c.pSum + s4.trs.pPkg, pN := c.pN + 1 }).onFrm fun x =>
      { x with metered := true, inFrame := false }
    confirmFrame (s5.onDma fun d => { d with image := telemImage s5 })

/-- R78: FRAME_COMMIT. -/
def execFrameCommit (s : State) : Res := act frameCommit s

/-- R80: SLOT_START. -/
def execSlotStart (slot : Fin 256) (s : State) : Res := act (slotStart slot.val) s

/-- R83: SLOT_COMPLETE. -/
def execSlotComplete (slot : Fin 256) (s : State) : Res := act (slotComplete slot.val) s

/-- R84: SLOT_MISS. -/
def execSlotMiss (slot : Fin 256) (s : State) : Res := act (slotMiss slot.val) s

/-- R85: LOOP_BACKSTOP. -/
def execLoopBackstop (slot : Fin 256) (s : State) : Res := act (loopBackstop slot.val) s

/-- R85: LOOP_BACKSTOP_END. -/
def execLoopBackstopEnd (c : ClusterId) (s : State) : Res := act (backstopEnd c.val) s

/-- R86: SHED. -/
def execShed (s : State) : Res := act shedDue s

/-- R87: RESTORE. -/
def execRestore (s : State) : Res := act restoreDue s

/-- R88: SHED_FLOOR_WRITE. -/
def execShedFloorWrite (floor : Fin 4) (s : State) : Res :=
  hsEmu (fun t => t.onFrm fun f => { f with floor := floor.val }) s

/-- R88: HOST_RESTORE: the level falls by one at the next frame boundary, not below the floor. -/
def execHostRestore (s : State) : Res := hsEmu (fun t => t.onFrm fun f => { f with hostRestore := true }) s

/-- R90: `CLR_MIN` resets the step maximum and every minimum slack. -/
def clrMin (s : State) : State :=
  let s1 := (s.onTb fun t => { t with stepMaxPs := 0 }).onFrm fun f => { f with wslack := 0x7FFFFFFF }
  forList (List.range 256) (fun k => State.updRt k fun r => { r with minSlack := 0x7FFFFFFF }) s1

/-- R90: CLR_MIN. -/
def execClrMin (s : State) : Res := hsEmu clrMin s

/-- An update's contribution to the frame's activity (R238). -/
def cpCount (c act : Nat) (lim : Bool) (s : State) : State :=
  s.updClu c fun x => { x with actSum := x.actSum + act, limSum := x.limSum + b2n lim, actN := x.actN + 1 }

/-- The slope code of Table 2.8. -/
def slopeCode (x : Clu) (old : Nat) : Nat :=
  if x.st = 0 then 4 else if x.ceil = old then 0 else if old < x.ceil then 1 else if x.stepDown then 3 else 2

/-- R45, R256: one ceiling update of a cluster. -/
def ceilUpdate (c : Nat) (s : State) : State :=
  let x := s.getClu c
  let d := s.getDom (s.cluCfg c).dom
  (s.updCp c fun p =>
    { p with slope := slopeCode x p.ceil, ceil := x.ceil, div := d.code, dpend := d.sent.isSome, num := p.num + 1,
             open_ := p.open_ ++ [{ num := p.num + 1, issued := s.now, ceil := x.ceil }] }).updClu c fun y =>
    { y with stepDown := false }

/-- R45: CEILING_UPDATE. -/
def execCeilingUpdate (s : State) : Res := act (fun t => forList t.clusters ceilUpdate t) s

/-- The update that an echo names: the newest issued whose number modulo 16 it carries (R46). -/
def CpPort.echoed (p : CpPort) (echo : Nat) : Nat := p.num - (p.num + 16 - echo) % 16

/-- The divider of a cluster's domain follows a change of the late-update backstop (R110, R263). -/
def cpDiv (c : Nat) (s : State) : State :=
  let d := (s.cluCfg c).dom
  if (s.domCfg d).clValid && !(s.getDom d).stopped then mapDiv d s else s

/-- R46: an update is late: the backstop of R263 begins, or its count restarts. -/
def cpLate (c num : Nat) (s : State) : State :=
  let s1 := s.updCp c fun p => { p with onTime := 0 }
  if (s.getClu c).cpLate.isSome then s1
  else
    ((cpDiv c (s1.updClu c fun x => { x with cpLate := some s.now })).updCp c fun p => { p with backFrom := some (p.num + 1) })
    |> emitCp 0x5030 c (num % 16) 0 0

/-- R46: an update is on time; the tenth after the backstop's first carrier in a row releases the backstop. -/
def cpOnTime (c num : Nat) (s : State) : State :=
  let p := s.getCp c
  match p.backFrom, (s.getClu c).cpLate with
  | some b, some since =>
    if num ≤ b then s
    else if p.onTime + 1 < 10 then s.updCp c fun q => { q with onTime := q.onTime + 1 }
    else
      (cpDiv c ((s.updClu c fun x => { x with cpLate := none }).updCp c fun q => { q with onTime := 0, backFrom := none }))
      |> emitCp 0x5031 c (s.now - since) 0 0
  | _, _ => s

/-- R46, R238: an acknowledgement covers every open update up to the one its echo names. -/
def cpAck (c echo act : Nat) (lim : Bool) (s : State) : State :=
  let p := s.getCp c
  let n := p.echoed echo
  let cov := p.open_.filter fun u => decide (u.num ≤ n)
  let s1 := s.updCp c fun q => { q with act := act, lim := lim, open_ := q.open_.filter fun u => decide (n < u.num) }
  forList cov (fun u t =>
    if u.issued + 500 < t.now then cpLate c u.num (cpCount c u.ceil false t)
    else cpOnTime c u.num (cpCount c act lim t)) s1

/-- R46: CP_ACK. -/
def execCpAck (c : ClusterId) (echo : Fin 16) (act_ : Fin 256) (lim : Bool) (s : State) : Res :=
  act (fun t => if (t.cluCfg c.val).present then cpAck c.val echo.val act_.val lim t else t) s

/-- R46, R238: updates whose 500 ns have passed without an echo are late and contribute their ceiling. -/
def cpExpire (c : Nat) (s : State) : State :=
  let p := s.getCp c
  let gone := p.open_.filter fun u => decide (u.issued + 500 ≤ s.now)
  forList gone (fun u t => cpLate c u.num (cpCount c u.ceil false t))
    (s.updCp c fun q => { q with open_ := q.open_.filter fun u => decide (s.now < u.issued + 500) })

/-- R46, R263: CP_LATE. -/
def execCpLate (c : ClusterId) (s : State) : Res := act (cpExpire c.val) s

/-- R253: LOOP_SATURATED. -/
def execLoopSaturated (c : ClusterId) (j : Fin 5) (s : State) : Res := act (saturated c.val j.val) s

/-- R246: a write of `LOOP_CL_MODE` with `GO`. -/
def modeGo (v : Nat) (s : State) : State :=
  let c := s.loop.clSel
  let j := bits v 0 3
  if !bitOf v 31 then s
  else if 5 ≤ j then loopRes 0x5002 s
  else if !(s.cluCfg c).present || !(s.loopCfg c j).present then loopRes 0x5004 s
  else if !(s.getClu c).started || decide ((s.getClu c).st = 2) then loopRes 0x5005 s
  else loopRes 0 (s.updClu c fun x =>
    { x with modes := x.modes ++ [{ loop := j, auto := bitOf v 3, useMan := bitOf v 12, man := bits v 4 8 }] })

/-- R246: LOOP_CL_MODE_GO. -/
def execLoopClModeGo (v : Word) (s : State) : Res := hsEmu (modeGo v.toNat) s

/-- R247: a write of `LOOP_TGT`: a target, or `MCEIL` of loop 5; the targets of loops 0 and 1 are read-only. -/
def tgtWrite (v : Nat) (s : State) : State :=
  let c := s.loop.clSel
  let j := s.loop.sel
  if j = 5 ∧ (s.cluCfg c).present then loopRes 0 (s.updLp c 5 fun l => { l with tgt := some (v % 256) })
  else match loopTarget s with
    | some st => loopRes st s
    | none =>
      if j ≤ 1 then s
      else if loopTgt j (s.loopCfg c j).tgtMax < loopTgt j v then loopRes 0x5002 s
      else loopRes 0 (s.updLp c j fun l => { l with tgt := some v })

/-- R247: LOOP_TGT_WRITE. -/
def execLoopTgtWrite (v : Fin 65536) (s : State) : Res := hsEmu (tgtWrite v.val) s

/-- R252: `FB_FORCE` holds a loop in fallback with cause 3, or frees it; a loop without an observer has no fallback (R240). -/
def fbForce (on : Bool) (c j : Nat) (s : State) : State :=
  let l := s.getLp c j
  let s1 := s.updLp c j fun y => { y with fbForce := on }
  if on && !l.fbForce && decide ((s.loopCfg c j).nx ≠ 0) then
    if l.fallback then s1.updLp c j fun y => { y with fbCause := 3 }
    else loopFallback 3 (s.tlyElem (s.loopCfg c j).resBlk 2 0) c j s1
  else s1

/-- R252: `CLR_LATCH` ends the latch. -/
def clrLatch (c j : Nat) (s : State) : State := s.updLp c j fun y => { y with fbLatch := false }

/-- R247, R252: a write of `LOOP_SUP_SAT`: `FB_FORCE` and `CLR_LATCH` at once, `TSAT` and `SAT_FB` only in MANUAL. -/
def supSatWrite (v : Nat) (s : State) : State :=
  match loopTarget s with
  | some st => loopRes st s
  | none =>
    let c := s.loop.clSel
    let j := s.loop.sel
    let l := s.getLp c j
    let new := decide (bits v 0 16 ≠ l.tsat) || (bitOf v 16 != l.satFb)
    let s1 := when (bitOf v 18) (clrLatch c j) (fbForce (bitOf v 17) c j s)
    if !new then loopRes 0 s1
    else if l.auto then loopRes 0x5001 s1
    else if bits v 0 16 = 0 then loopRes 0x5002 s1
    else loopRes 0 (s1.onLoop fun x => { x with writes := x.writes ++ [(c, j, 0x064, v % 2 ^ 17)] })

/-- R252: FB_FORCE_WRITE. -/
def execFbForceWrite (v : Word) (s : State) : Res := hsEmu (supSatWrite v.toNat) s

/-- R252: CLR_LATCH. -/
def execClrLatch (s : State) : Res :=
  hsEmu (fun t => match loopTarget t with
    | some st => loopRes st t
    | none => loopRes 0 (clrLatch t.loop.clSel t.loop.sel t)) s

end Sys2Proof.Machine
end

