-- ==== Sys2Proof/Machine/Port.lean ====
section
/-!
DEFINITION. The resets of the two host ports, and the responses, timeouts and tags of the manager port (R35–R39).
-/
namespace Sys2Proof.Machine

/-- R35: HS_PORT_RESET; responses that host software has not taken are abandoned. A write accepted before it has already taken
effect in the step that accepted it, which R35 leaves open: the model's choice (log entry 72). -/
def execHsPortReset (s : State) : Res := .next (s.onHs fun h => { h with resp := [] })

/-- The page that a paging request brings, for the record of a failure: 0xFFFF is the set header. -/
def pageNo (pg : Nat) : Nat := if pg = 0 then 0xFFFF else pg - 1

/-- R38: what the subsystem that made a request does when it fails. -/
def hmConsumerFail (p : HmPurpose) (s : State) : State :=
  match p with
  | .dma k => transferFail k s
  | .dropped _ => s
  | .page k pg => if (s.tly.page.any fun x => x.set = k) then pageEnd 0x4041 (pageNo pg) s else s

/-- R38: the request of a tag is declared failed; the tag stays in use. -/
def hmFail (t : Nat) (s : State) : State :=
  match s.hmReq t with
  | some r =>
    if r.failed.isSome then s
    else hmConsumerFail r.purpose
      (s.onHm fun h => { h with reqs := Tbl.set none h.reqs t (some { r with failed := some s.now }) })
  | none => s

/-- The beats of a read, in address order, as 32-bit words. -/
def HmReq.words (r : HmReq) (data : List Nat) : List Nat := (List.range (4 * r.beats)).map fun i => data.getD i 0

/-- R36, R38: a complete response for a tag. -/
def hmResponse (t : Nat) (ok : Bool) (data : List Nat) (s : State) : State :=
  match s.hmReq t with
  | none => s
  | some r =>
    if r.failed.isSome then hmFree t s
    else if r.issued + 100 * nsPerUs < s.now then hmFree t (hmFail t s)
    else if !ok then hmFail t s
    else match r.purpose with
      | .page k pg => pageArrive k pg r.addr (r.words data) (hmFree t s)
      | _ => hmFree t s

/-- R36: HM_RESPONSE. -/
def execHmResponse (tag : Fin 32) (ok : Bool) (data : List (BitVec 32)) (s : State) : Res :=
  act (hmResponse tag.val ok (data.map BitVec.toNat)) s

/-- R38: no complete response within 100 µs. -/
def hmTimeout (t : Nat) (s : State) : State :=
  match s.hmReq t with
  | some r => if r.issued + 100 * nsPerUs ≤ s.now then hmFail t s else s
  | none => s

/-- R38: HM_TIMEOUT. -/
def execHmTimeout (tag : Fin 32) (s : State) : Res := act (hmTimeout tag.val) s

/-- R38: 1 ms after the failure the tag is free. -/
def hmTagRelease (t : Nat) (s : State) : State :=
  match s.hmReq t with
  | some r =>
    match r.failed with
    | some f => if f + nsPerMs ≤ s.now then hmFree t s else s
    | none => s
  | none => s

/-- R38: HM_TAG_RELEASE. -/
def execHmTagRelease (tag : Fin 32) (s : State) : Res := act (hmTagRelease tag.val) s

/-- R39, Table 15.8: `HM_RST_N` low fails every outstanding request and every transfer in progress; no request is issued while
it is low. -/
def hmPortReset (s : State) : State :=
  forList (List.range 8) transferFail (forList (List.range 32) hmFail (s.onHm fun h => { h with inReset := true }))

/-- R39: HM_PORT_RESET. -/
def execHmPortReset (s : State) : Res := act hmPortReset s

/-- R39: queued work resumes; in a warm reset only once firmware runs (R71). -/
def hmRelease (s : State) : State :=
  if !s.hm.inReset then s
  else
    let s1 := s.onHm fun h => { h with inReset := false }
    if s.fw.run || s.fw.recovery then hmResume s1 else s1

/-- R39: HM_RST_N_RELEASE. -/
def execHmRstNRelease (s : State) : Res := act hmRelease s

end Sys2Proof.Machine
end

