-- ==== Sys2Proof/Machine/Tly.lean ====
section
/-!
DEFINITION. Tally's own events: residue and store errors, a page that has landed, and the counter clear (chapter 08).
-/
namespace Sys2Proof.Machine

/-- The program entry that slot `k` runs now. -/
def State.runsProg (s : State) (k : Nat) : Option Nat :=
  match s.slot k with
  | some e => if e.exec = 0 ∧ (s.getRt k).run = .running then some e.work else none
  | none => none

/-- R231: a residue mismatch of an active cube ends the run as a miss; the cube's place is filled at the next frame
boundary. -/
def cubeErr (cube k ins : Nat) (s : State) : State :=
  match s.runsProg k with
  | none => s
  | some p =>
    if s.tly.cube.getD cube 3 ≠ 0 then s
    else
      (s.onTly fun t => { t with cube := t.cube.set cube 3, swap := t.swap ++ [cube], residue := satInc 16 t.residue })
      |> slotFail k |> emitTly 0x4030 cube p ins 0

/-- R231: TLY_CUBE_ERR. -/
def execTlyCubeErr (cube : Fin 9) (slot : Fin 256) (ins : Nat) (s : State) : Res :=
  act (cubeErr cube.val slot.val ins) s

/-- A coefficient address lies in the pinned region (R227). -/
def State.pinnedAddr (s : State) (addr : Nat) : Bool := decide (addr < 256 * s.cfg.tly.pinned)

/-- The set whose frame holds a coefficient address. -/
def State.setAt (s : State) (addr : Nat) : Option Nat :=
  (s.sets.filter fun k => (s.getSet k).resident && decide (s.frameBase (s.getSet k).frame ≤ addr) &&
    decide (addr < s.frameBase (s.getSet k).frame + 256 * s.cfg.tly.framePages)).head?

/-- The run of slot `k`, of program `p`, is discarded and the program marked failed (Table 8.7). -/
def runFailed (k p : Nat) (s : State) : State := slotFail k (s.updProg p fun x => { x with failed := true })

/-- R232, Table 8.7: an uncorrectable error of store 0 coefficient, 1 state, 2 program, 3 constant or PWL, found by the
run of slot `k`. An error in a set frame is found by a run as well, and its set is no longer resident. -/
def storeErr (store addr k : Nat) (s : State) : State :=
  match s.runsProg k with
  | none => s
  | some p =>
    let s1 := (s.onTly fun t => { t with eccUnc := satInc 16 t.eccUnc }) |> emitTly 0x4034 store addr p 0
    if store = 1 then slotFail k s1
    else if store = 0 ∧ !s.pinnedAddr addr then
      match s.setAt addr with
      | some j => s1.updSet j fun x => { x with resident := false }
      | none => s1
    else runFailed k p s1

/-- R232: TLY_STORE_ECC; a corrected error is only counted. -/
def execTlyStoreEcc (store : Fin 4) (addr : Nat) (slot : Fin 256) (corrected : Bool) (s : State) : Res :=
  act (fun t => if corrected then t.onTly fun x => { x with eccCorr := satInc 16 x.eccCorr }
    else storeErr store.val addr slot.val t) s

/-- R234: clear the saturation counters. -/
def clrSat (s : State) : State :=
  forList (List.range 128) (fun p => State.updProg p fun x => { x with sat := 0 })
    (s.onTly fun t => { t with satAcc := 0, satConv := 0, satRn := 0 })

/-- R234: CLR_SAT. -/
def execClrSat (s : State) : Res := hsEmu clrSat s

/-- R229: PAGE_LANDED. -/
def execPageLanded (s : State) : Res := act pageCheck s

end Sys2Proof.Machine
end

