-- ==== Sys2Proof/Machine/Reg.lean ====
section
/-!
DEFINITION. Writes of the set-up window: the alarm register, and every register of Tables 18.1 and 18.2 by its address.
-/
namespace Sys2Proof.Machine

/-- Set the low half of a 64-bit register held as two words. -/
def lowBits (v lo : Nat) : Nat := v % 2 ^ 32 / 2 ^ lo * 2 ^ lo

/-- Active cubes of Tally. -/
def State.cubesActive (s : State) : Nat := (s.tly.cube.filter fun c => c = 0).length

/-- References in service, as a mask of A, B and the stack. -/
def State.refsIn (s : State) : Nat := maskOf ((List.range 3).filter fun k => !s.sns.excl.getD k false)

/-- R120: two references have agreed in 1,000 consecutive comparisons. -/
def State.refsAgree (s : State) : Bool := s.sns.agree.any fun n => decide (1000 ≤ n)

/-- R444, Table 18.3: the clearing condition of bit `b` of `LIM_ALARM`. -/
def alarmMay (b : Nat) (s : State) : Bool :=
  match b with
  | 0 => s.clk.ref.present
  | 1 => s.clk.root.locked
  | 2 => s.clk.dom.all fun e => !e.2.failed
  | 4 => true
  | 5 => s.refsAgree
  | 6 => s.sns.site.all fun e => !e.2.noNeigh
  | 7 => decide (7 ≤ s.cubesActive)
  | 8 => s.loop.loop.all fun e => !e.2.fbLatch
  | 10 => !s.pwr.pfailLow
  | 12 => s.fw.run
  | 16 => true
  | 17 => s.aud.unit.all fun e => decide (e.2.st ≠ 4)
  | _ => false

/-- R120: host software leaves the state without a majority. -/
def majorityBack (s : State) : State :=
  if s.sns.noMaj then
    let s1 := s.onSns fun n => { n with noMaj := false, noMajRun := 0, bcastDue := true }
    emitSns 0x2022 s1.refsIn 0 0 0 s1
  else s

/-- R444: one bit of a W1C write. -/
def alarmBit (b : Nat) (s : State) : State :=
  if bitOf s.pwr.alarm b && alarmMay b s then when (b = 5) majorityBack (clrAlarm b s) else s

/-- R444: a W1C write of `LIM_ALARM`. -/
def limAlarm (v : Nat) (s : State) : State := forList (maskIdx 19 v) alarmBit s

/-- R444: LIM_ALARM_CLEAR. -/
def execLimAlarmClear (v : Word) (s : State) : Res := hsHard (limAlarm v.toNat) s

/-- R405: a write of `LDW_CURSOR`. -/
def cursorWrite (v : Nat) (s : State) : State := s.onLdg fun l => { l with r := min (bits v 0 15) l.w, bufValid := false }

/-- The hardwired ranges. -/
def writeHard (a v : Nat) (s : State) : State :=
  if a = 0x0100 then limAlarm v s
  else if a = 0x0220 then cursorWrite v s
  else if 0x1000 ≤ a ∧ a < 0x1800 then doorbell ((a - 0x1000) / 4) v s
  else s

/-- A ring or interrupt register of context 0 takes a write only while `HIF_C0_RING.EN` is 0. -/
def c0Write (f : Hif → Hif) (s : State) : State := if bitOf s.hif.c0Ring 8 then s else s.onHif f

/-- The `HIF_` range (Table 14.10). -/
def writeHif (a v : Nat) (s : State) : State :=
  match a with
  | 0x200C => s.onHif fun h => { h with hostVer := bits v 0 16 }
  | 0x2010 => s.onHif fun h => { h with featHostLo := v }
  | 0x2014 => s.onHif fun h => { h with featHostHi := v }
  | 0x2018 => when (bitOf v 0) negGo s
  | 0x2040 => c0RingWrite v s
  | 0x2044 => c0Write (fun h => { h with c0SqLo := lowBits v 12 }) s
  | 0x2048 => c0Write (fun h => { h with c0SqHi := v }) s
  | 0x204C => c0Write (fun h => { h with c0CqLo := lowBits v 12 }) s
  | 0x2050 => c0Write (fun h => { h with c0CqHi := v }) s
  | 0x2054 => c0Write (fun h => { h with c0IrqLo := lowBits v 2 }) s
  | 0x2058 => c0Write (fun h => { h with c0IrqHi := v }) s
  | 0x205C => c0Write (fun h => { h with c0IrqData := v }) s
  | 0x2060 => s.onHif fun h => { h with evtMask := bits v 0 16 }
  | 0x2064 => if bits v 0 8 = 0 then s else s.onHif fun h => { h with irqGap := bits v 0 8 }
  | 0x206C => when (bitOf v 0) hifClr s
  | 0x2080 => s.onHif fun h => { h with ctxSel := bits v 0 9 }
  | _ => s

/-- The `FW_` range (Table 16.15). -/
def writeFw (a v : Nat) (s : State) : State :=
  match a with
  | 0xD020 => s.onFw fun f => { f with slotSel := bits v 0 1 }
  | 0xD040 => s.onFw fun f => { f with coreSel := bits v 0 6 }
  | 0xD060 => s.onFw fun f => { f with gateSel := bits v 0 13 }
  | _ => s

/-- R88, R90: a write of `CLK_FRM_CTRL`. -/
def frmCtrl (v : Nat) (s : State) : State :=
  let s1 := s.onFrm fun f => { f with floor := bits v 0 2, hostRestore := f.hostRestore || bitOf v 2 }
  when (bitOf v 3) clrMin s1

/-- The `CLK_` range (Tables 3.5 and 4.3). -/
def writeClk (a v : Nat) (s : State) : State :=
  match a with
  | 0x302C =>
    if bitOf v 31 then rootReq (bits v 0 9) s
    else s.onClk fun k => { k with root := { k.root with reqN := bits v 0 9 } }
  | 0x3100 => s.onClk fun k => { k with domSel := bits v 0 6 }
  | 0x3828 => frmCtrl v s
  | 0x3880 => s.onFrm fun f => { f with slotSel := bits v 0 8 }
  | _ => s

/-- The `SNS_` range (Table 5.5). -/
def writeSns (a v : Nat) (s : State) : State :=
  match a with
  | 0x4020 => s.onSns fun n => { n with siteSel := bits v 0 9 }
  | 0x4040 => s.onSns fun n => { n with detSel := bits v 0 10 }
  | 0x4048 => depthWrite (bits v 0 6) s
  | 0x4060 => s.onSns fun n => { n with monSel := bits v 0 8 }
  | 0x4080 => s.onSns fun n => { n with rvSel := bits v 0 3 }
  | 0x40A0 => s.onSns fun n => { n with phSel := bits v 0 7 }
  | _ => s

/-- R145: the locked registers of a rail as a write leaves them; `none` where a field is out of range (Table 6.5). -/
def compSet (a v : Nat) (c : CompRegs) : Option CompRegs :=
  match a with
  | 0x5040 => some { c with b0 := decS 32 v }
  | 0x5044 => some { c with b1 := decS 32 v }
  | 0x5048 => some { c with b2 := decS 32 v }
  | 0x504C => some { c with a1 := decS 32 v }
  | 0x5050 => some { c with a2 := decS 32 v }
  | 0x5054 => some { c with a3 := decS 32 v }
  | 0x5058 => some { c with umax := bits v 0 16, dmax := bits v 16 16 }
  | 0x505C =>
    let u := bits v 0 8; let o := bits v 8 8; let b := bits v 16 8; let t := bits v 24 8
    if 4 ≤ u ∧ 4 ≤ o ∧ 4 ≤ b ∧ o < b ∧ 10 ≤ t ∧ t ≤ 200 then some { c with vnlu := u, vnlo := o, vbrk := b, tbrk := t }
    else none
  | 0x5060 =>
    let l := bits v 0 16; let p := bits v 16 16
    if l ≤ 1000 ∧ p ≤ 1000 then some { c with rll := l, rpp := p } else none
  | _ =>
    let p := bits v 0 8; let t := bits v 8 8; let m := bits v 24 8
    if p ≤ 120 ∧ 10 ≤ t ∧ t ≤ 100 ∧ 5 ≤ m ∧ m ≤ 50 then
      some { c with vppMax := p, tonMin := t, kcb := bits v 16 8, trimMax := m }
    else none

/-- R145: a write of a locked register: only while the rail is off, and in force from the rail's next start. A write that is both
locked and out of range leaves COMP_LOCKED: the spec gives no order (log entry 88). -/
def compWrite (a v : Nat) (s : State) : State :=
  let r := s.rail.sel
  if (s.getProt r).st ≠ 0 then railRes 0x3805 s
  else match compSet a v (s.getReg r).comp with
    | none => railRes 0x3806 s
    | some c => railRes 0 (s.updReg r fun x => { x with comp := c })

/-- R153: a write of `RAIL_VREQ`: submitted with `GO`, stored without. -/
def vreqWrite (v : Nat) (s : State) : State :=
  if bitOf v 31 then vreqGo (bits v 0 16) s
  else railRes 0 (s.updReg s.rail.sel fun x => { x with vreq := bits v 0 16 })

/-- The `RAIL_` range (Tables 6.4 and 7.10). -/
def writeRail (a v : Nat) (s : State) : State :=
  match a with
  | 0x5000 => railRes 0 (s.onRail fun r => { r with sel := bits v 0 3 })
  | 0x5014 => slewWrite (bits v 0 8) s
  | 0x5018 => vreqWrite v s
  | 0x5028 => shedWrite false v s
  | 0x502C => shedWrite true v s
  | 0x5090 => railRes 0 (when (bitOf v 0) telClr s)
  | 0x5100 => railRes 0 (s.onRail fun r => { r with phSel := bits v 0 7 })
  | 0x5810 => protClear v s
  | 0x5900 => phaseClear (bits v 0 4) s
  | 0x5A10 => s.onFrec fun f => { f with sel := bits v 0 9, loaded := false }
  | _ => if 0x5040 ≤ a ∧ a ≤ 0x5064 then compWrite a v s else s

/-- The `TLY_` range (Table 8.11). -/
def writeTly (a v : Nat) (s : State) : State :=
  match a with
  | 0x602C => when (bitOf v 0) clrSat s
  | 0x6080 => s.onTly fun t => { t with progSel := bits v 0 7 }
  | 0x60A0 => s.onTly fun t => { t with setSel := bits v 0 6 }
  | _ => s

/-- R247: a write of `LOOP_CL_SLOPE`, locked unless the cluster is in manual. -/
def slopeWrite (v : Nat) (s : State) : State :=
  let c := s.loop.clSel
  if !(s.cluCfg c).present then loopRes 0x5004 s
  else if !s.inManual c then loopRes 0x5001 s
  else if bits v 0 8 = 0 ∨ bits v 8 8 = 0 then loopRes 0x5002 s
  else loopRes 0 (loopQueue c 7 0x010 (bits v 0 16) s)

/-- R247: a write of a locked loop register: in MANUAL only, within its range, in force at the next frame boundary. -/
def lockedWrite (off v : Nat) (ok : Bool) (s : State) : State :=
  match loopTarget s with
  | some st => loopRes st s
  | none =>
    if (s.getLp s.loop.clSel s.loop.sel).auto then loopRes 0x5001 s
    else if !ok then loopRes 0x5002 s
    else loopRes 0 (loopQueue s.loop.clSel s.loop.sel off v s)

/-- The `LOOP_` range (Table 9.8). -/
def writeLoop (a v : Nat) (s : State) : State :=
  match a with
  | 0x7000 => s.onLoop fun x => { x with clSel := bits v 0 5 }
  | 0x7010 => slopeWrite v s
  | 0x7018 => modeGo v s
  | 0x7040 => s.onLoop fun x => { x with sel := bits v 0 3 }
  | 0x7050 => tgtWrite (bits v 0 16) s
  | 0x7058 => lockedWrite 0x058 (bits v 0 8) true s
  | 0x705C => lockedWrite 0x05C v true s
  | 0x7060 => lockedWrite 0x060 v (decide (bits v 16 8 ≠ 0) && decide (bits v 24 8 ≠ 0)) s
  | 0x7064 => supSatWrite v s
  | 0x7068 => lockedWrite 0x068 v true s
  | 0x7080 => s.onLoop fun x => { x with vftSel := bits v 0 8 }
  | _ => s

/-- R303: a write of `TRS_OD_CFG`. -/
def odCfg (v : Nat) (s : State) : State :=
  let p := bits v 0 8; let r := bits v 8 8; let m := bits v 16 8
  if 100 ≤ p ∧ p ≤ 150 ∧ 1 ≤ r ∧ r ≤ 50 ∧ 10 ≤ m ∧ m ≤ 90 ∧ r < m then
    trsRes 0 (s.onTrs fun x => { x with odPct := p, reserve := r, rearm := m })
  else trsRes 0x6005 s

/-- R288, R312: a write of `TRS_POLICY`. A `FLOOR_MAX` that breaks R288 is refused (R289); the spec names no status for
it, so the status is a free value (log entry 4). -/
def policyWrite (v : Nat) (s : State) : State :=
  let f := bits v 0 8; let p := bits v 8 8; let g := bits v 16 8; let c := bits v 24 8
  let set := fun (t : State) => t.onTrs fun x => { x with floorMax := f, preMax := p, lguard := g, credMax := c }
  if f < 50 ∨ 100 < f ∨ 120 < p ∨ g < 20 ∨ 100 < g ∨ c = 0 then trsRes 0x6005 s
  else if f < s.trs.floorMax ∧ !admits set s then trsRes (openStatus 6 s) s.drawn
  else floorsUpdate false (trsRes 0 (set s))

/-- R312: a write of `TRS_CTRL`. -/
def trsCtrl (v : Nat) (s : State) : State :=
  trsRes 0 (when (bitOf v 2) clrFlt (when (bitOf v 1) clrOd (when (bitOf v 0) clrRsn s)))

/-- R296: a write of `TRS_TX_CFG` of the context selected. -/
def txCfg (v : Nat) (s : State) : State :=
  let r := txParam s.trs.txSel (bits v 0 16) (bits v 16 2) (bits v 24 8) s
  trsRes r.1 r.2

/-- A selector of a window of Treasury: an accepted write (R312). -/
def trsSel (f : Treasury → Treasury) (s : State) : State := trsRes 0 (s.onTrs f)

/-- The Treasury part of the `TRS_` range (Table 11.5). -/
def writeTrs (a v : Nat) (s : State) : State :=
  match a with
  | 0x8000 => capSet (bits v 0 16) s
  | 0x8010 => odCfg v s
  | 0x8028 => policyWrite v s
  | 0x802C => trsRes 0 (s.onTrs fun x => { x with throtMask := bits v 0 12 })
  | 0x8030 => trsCtrl v s
  | 0x8040 => trsSel (fun x => { x with dcSel := bits v 0 2 }) s
  | 0x8044 => dcPrio v s
  | 0x8048 => dcFloor (bits v 0 16) s
  | 0x8080 => trsSel (fun x => { x with clSel := bits v 0 5 }) s
  | 0x8098 => trsSel (fun x => { x with rsnSel := bits v 0 4 }) s
  | 0x8100 => trsSel (fun x => { x with txSel := bits v 0 9 }) s
  | 0x8104 => txCfg v s
  | 0x8180 => trsSel (fun x => { x with railSel := bits v 0 3 }) s
  | _ => s

/-- R283: a write of `TRS_FC_GATE` of the cluster selected. -/
def fcGate (v : Nat) (s : State) : State :=
  if bits v 16 8 = 0 then s.onFc fun f => { f with res := 0x6806 }
  else fcGates s.fc.clSel (fcResOk (s.updFcCl s.fc.clSel fun x => { x with accTh := bits v 0 16, accMin := bits v 16 8 }))

/-- R283: a write of `TRS_FC_CTRL`. -/
def fcCtrl (v : Nat) (s : State) : State := fcResOk (when (bitOf v 1) fcDefault (when (bitOf v 0) clrAcc s))

/-- R281, R283: a write of `TRS_HX_CFG`. -/
def hxCfg (v : Nat) (s : State) : State :=
  if bits v 8 8 = 0 ∨ bits v 16 16 = 0 then s.onFc fun f => { f with res := 0x6806 }
  else s.onFc fun f => { f with missTh := bits v 0 8, minEval := bits v 8 8, distMs := bits v 16 16, res := 0 }

/-- The forecasting part of the `TRS_` range (Table 10.4). -/
def writeFc (a v : Nat) (s : State) : State :=
  match a with
  | 0x8800 => s.onFc fun f => { f with clSel := bits v 0 5, res := 0 }
  | 0x8818 => s.onFc fun f => { f with accSel := bits v 0 3, res := 0 }
  | 0x8824 => fcGate v s
  | 0x8828 => fcCtrl v s
  | 0x8840 => s.onFc fun f => { f with hcSel := bits v 0 8, res := 0 }
  | 0x8844 => hcRes (hcWrite s.fc.hcSel v 0 s)
  | 0x8860 => s.onFc fun f => { f with hxSel := bits v 0 9, res := 0 }
  | 0x8868 => hxCfg v s
  | _ => if 0x8880 ≤ a ∧ a < 0x88A0 then hcRes (permWrite s.fc.hxSel ((a - 0x8880) / 4) v 0 s) else s

/-- R326, R340: a write of a timeout class. -/
def tmoWrite (k v : Nat) (s : State) : State :=
  if v < 10 then synRes 0x700D s else synRes 0 (s.onSyn fun y => { y with tmo := y.tmo.set k v })

/-- A selector of a window of the synchronisation registers: an accepted write (R340). -/
def synSel (f : Sync → Sync) (s : State) : State := synRes 0 (s.onSyn f)

/-- The `SYN_` range (Table 12.8). -/
def writeSyn (a v : Nat) (s : State) : State :=
  match a with
  | 0x9010 => tmoWrite 0 v s
  | 0x9014 => tmoWrite 1 v s
  | 0x9018 => tmoWrite 2 v s
  | 0x901C => tmoWrite 3 v s
  | 0x9020 => escCfg v s
  | 0x9034 => synRes 0 (when (bitOf v 0) synCtrlClr s)
  | 0x9040 => synSel (fun y => { y with objSel := bits v 0 13 }) s
  | 0x9080 => synSel (fun y => { y with coreSel := bits v 0 7 }) s
  | 0x9084 => synCoreCfg v s
  | 0x90C0 => synSel (fun y => { y with grpSel := bits v 0 9 }) s
  | 0x9100 => synSel (fun y => { y with wtrSel := bits v 0 13 }) s
  | 0x9140 => synSel (fun y => { y with ctxSel := bits v 0 9 }) s
  | _ => s

/-- R368: a field that Clearing holds fixed while it is enabled. -/
def clrFixed (f : Clearing → Clearing) (s : State) : State := if s.clr.en then clrRes 0x8001 s else clrRes 0 (s.onClr f)

/-- R368: a field of a link that is fixed while the link is enabled; links 65–127 do not exist. -/
def lnkFixed (f : Link → Link) (s : State) : State :=
  if 65 ≤ s.clr.lnkSel then s
  else if (s.getLnk s.clr.lnkSel).en then clrRes 0x8001 s
  else clrRes 0 (s.updLnk s.clr.lnkSel f)

/-- R368: a write of `CLR_TIMING`. -/
def clrTiming (v : Nat) (s : State) : State :=
  let d := bits v 0 10; let t := bits v 16 16
  if d < 50 ∨ 1000 < d ∨ t = 0 then clrRes 0x8002 s else clrRes 0 (s.onClr fun c => { c with leaseUs := d, retryMs := t })

/-- The `CLR_` range (Table 13.7). -/
def writeClr (a v : Nat) (s : State) : State :=
  match a with
  | 0xA000 => clrCfgWrite v s
  | 0xA004 => clrFixed (fun c => { c with id := v }) s
  | 0xA008 => clrFixed (fun c => { c with domain := bits v 0 16 }) s
  | 0xA00C => clrTiming v s
  | 0xA010 => clrFixed (fun c => { c with mbxLo := lowBits v 12 }) s
  | 0xA014 => clrFixed (fun c => { c with mbxHi := v }) s
  | 0xA02C => clrRes 0 (when (bitOf v 0) clrCnt s)
  | 0xA040 => clrRes 0 (s.onClr fun c => { c with lnkSel := bits v 0 7 })
  | 0xA044 => if s.clr.lnkSel < 65 then clrRes 0 (lnkEnable s.clr.lnkSel (bitOf v 0) s) else s
  | 0xA048 => lnkFixed (fun x => { x with peer := v }) s
  | 0xA04C => lnkFixed (fun x => { x with addr := x.addr / 2 ^ 32 * 2 ^ 32 + lowBits v 10 }) s
  | 0xA050 => lnkFixed (fun x => { x with addr := x.addr % 2 ^ 32 + v * 2 ^ 32 }) s
  | _ => s

/-- R412: a write of `DMA_CTRL`. -/
def dmaCtrl (v : Nat) (s : State) : State := when (bitOf v 1) stopStreams (when (bitOf v 0) dmaClr s)

/-- The `DMA_` and `LDG_` ranges (Table 15.10). -/
def writeDma (a v : Nat) (s : State) : State :=
  match a with
  | 0xB004 => s.onDma fun d => { d with run := bitOf v 0 }
  | 0xB008 => dmaCtrl v s
  | 0xB010 => s.onDma fun d => { d with chSel := bits v 0 3 }
  | 0xC014 => when (bitOf v 0) ldgClrLost s
  | _ => s

/-- The `AUD_` range (Table 17.9). -/
def writeAud (a v : Nat) (s : State) : State :=
  match a with
  | 0xE008 => audSchedWrite v s
  | 0xE010 => audResOk (when (bitOf v 0) audClr s)
  | 0xE020 => audResOk (s.onAud fun x => { x with unitSel := bits v 0 13 })
  | _ => s

/-- The emulated ranges other than `HIF_` and `FW_`. -/
def writeEmu (a v : Nat) (s : State) : State :=
  match a / 0x1000 with
  | 3 => writeClk a v s
  | 4 => writeSns a v s
  | 5 => writeRail a v s
  | 6 => writeTly a v s
  | 7 => writeLoop a v s
  | 8 => if a < 0x8800 then writeTrs a v s else writeFc a v s
  | 9 => writeSyn a v s
  | 10 => writeClr a v s
  | 11 => writeDma a v s
  | 12 => writeDma a v s
  | _ => writeAud a v s

/-- The byte address of the word that `HS_ADDR[15:2]` names (Table 2.2). -/
def wordAddr (addr : Word) : Nat := addr.toNat % 65536 / 4 * 4

/-- R8, R9, R10: a write of the set-up window. An address without a register, and a register that is RO, discard it. -/
def regWrite (a v : Nat) (s : State) : Res :=
  if a < 0x2000 ∨ 0xF000 ≤ a then hsHard (writeHard a v) s
  else if a < 0x3000 then hsHif (writeHif a v) s
  else if 0xD000 ≤ a ∧ a < 0xE000 then hsHif (writeFw a v) s
  else hsEmu (writeEmu a v) s

/-- R10, R34: REGISTER_WRITE. With strobes other than 0b1111 the write is discarded with ACCESS_ERR and leaves no record;
while nothing is answered, NOT_READY comes first (log entry 73). -/
def execRegisterWrite (addr : Word) (v : HsWrite) (s : State) : Res :=
  if s.live && decide (v.strb.val ≠ 15) then .next (hsAnswer 2 0 s) else regWrite (wordAddr addr) v.data.toNat s

end Sys2Proof.Machine
end

