-- ==== Sys2Proof/Machine/ReadHard.lean ====
section
/-!
DEFINITION. Reads of the hardwired registers and of the `HIF_`, `CLK_`, `SNS_` and `RAIL_` ranges: the value of every
register at its address (Tables 3.6, 4.4, 5.6, 6.5, 7.11, 14.11, 18.3).
-/
namespace Sys2Proof.Machine

/-- A register word from its fields: value, low bit, width. Reserved bits read 0 (R10). -/
def packWord (l : List (Nat × Nat × Nat)) : Nat := l.foldl (fun n f => n + f.1 % 2 ^ f.2.2 * 2 ^ f.2.1) 0

/-- The low and the high word of a 64-bit value. -/
def lo32 (n : Nat) : Nat := n % 2 ^ 32
def hi32 (n : Nat) : Nat := n / 2 ^ 32 % 2 ^ 32

/-- A signed quantity in a 16-bit field, saturating (R5). -/
def s16 (x : Int) : Nat := encS 16 (satS 16 x)

/-- How many of the indices below `n` satisfy `p`. -/
def countIdx (n : Nat) (p : Nat → Bool) : Nat := (idxWhere n p).length

/-- The running slot is TRIAL_BOOTED. -/
def State.unconf (s : State) : Bool := decide (s.fw.slotState s.fw.cur.slot = 3)

/-- R470: `ID_FW_STAT`; with `RUN` = 0 every field that comes from the running image is 0. -/
def idFwStat (s : State) : Nat :=
  let f := s.fw
  packWord [(b2n f.run, 0, 1), (if f.run then f.cur.slot else 0, 1, 1), (b2n (f.run && s.unconf), 2, 1),
    (b2n f.recovery, 3, 1), (b2n f.vault.ready, 4, 1), (b2n f.vault.error, 5, 1),
    (if f.run then f.cur.svn else 0, 8, 8), (f.arr.svn, 16, 8)]

/-- Word `k` of the image digest: bytes 4k to 4k + 3, byte 4k in [7:0]; zeros while no image runs. -/
def digestWord (s : State) (k : Nat) : Nat :=
  if s.fw.run then fld (beBytes 48 s.fw.cur.digest) (4 * k) 4 else 0

/-- `ID_CFG`: the sizes of the active configuration. -/
def idCfg (s : State) : Nat :=
  packWord [(s.railIds.length, 0, 4), (countIdx 128 fun p => (s.phCfg p).present, 4, 8), (s.clusters.length, 12, 6),
    (countIdx 128 fun k => s.clusters.any fun c => bitOf (s.cluCfg c).cores k, 18, 8),
    (countIdx 40 fun d => (s.domCfg d).present, 26, 6)]

/-- R22, R23, R68: until step 2 of Table 1.9 is complete, and in the power-up hold, every alert is released. -/
def State.alertsOn (s : State) : Bool := decide (2 ≤ s.pwr.step)

/-- R63: the block drives `ALERT_N` low. -/
def State.alertLow (s : State) : Bool := s.alertsOn && decide (s.pwr.alarm ≠ 0)

/-- R63: the block drives `THROT_N` low: a cluster has a throttle reason in the mask. -/
def State.throtLow (s : State) : Bool :=
  s.alertsOn && s.clusters.any fun c => decide (Nat.land (s.getTrsCl c).reasons s.trs.throtMask ≠ 0)

/-- R63: the block drives `HOT_TRIP_N` low. -/
def State.hotLow (s : State) : Bool := s.alertsOn && (s.aud.tripActive || s.aud.tripLatched)

/-- R63, R64: `LIM_PINS`. -/
def limPins (s : State) : Nat :=
  let p := s.pwr
  let a := s.alertLow
  let t := s.throtLow
  let h := s.hotLow
  packWord [(b2n a, 0, 1), (b2n (p.alertExt && !a), 1, 1), (b2n t, 2, 1), (b2n (p.throtExt && !t), 3, 1), (b2n h, 4, 1),
    (b2n (p.hotExt && !h), 5, 1), (b2n p.pfailLow, 6, 1), (b2n p.vfuseHi, 7, 1)]

/-- `LIM_STAT`. -/
def limStat (s : State) : Nat :=
  packWord [(b2n s.clk.ref.present, 0, 1), (b2n s.tb.hold, 1, 1), (b2n s.aud.tripActive, 2, 1),
    (b2n s.aud.tripLatched, 3, 1), (b2n s.pwr.emuReady, 4, 1), (b2n s.hif.mismatch, 5, 1), (b2n s.sns.noMaj, 6, 1),
    (b2n s.frec.busy, 7, 1), (s.frm.level, 8, 2), (b2n (decide (16384 ≤ s.ldg.w)), 10, 1),
    (b2n (decide (s.fw.vault.test ≠ 0)), 11, 1)]

/-- `LDW_STAT`. -/
def ldwStat (s : State) : Nat :=
  packWord [(s.ldg.w, 0, 15), (b2n (decide (16384 ≤ s.ldg.w)), 15, 1), (s.ldg.w - s.ldg.r, 16, 15),
    (b2n s.ldg.bufValid, 31, 1)]

/-- R376: a doorbell reads the block's indices. -/
def doorbellRead (s : State) (c : Nat) : Nat := packWord [((s.getCtx c).sqHead, 0, 16), ((s.getCtx c).cqTail, 16, 16)]

/-- The hardwired registers (Table 18.2). Reads of `LDW_REC0`, `LDW_REC7`, `ID_FW_DIGEST0` and `_LO` words act as well
as answer; their effect is in the read itself. -/
def readHard (a : Nat) (s : State) : Nat :=
  if 0x20 ≤ a ∧ a < 0x50 then (if a = 0x20 then digestWord s 0 else s.hs.digest.getD ((a - 0x20) / 4) 0)
  else if 0x200 ≤ a ∧ a < 0x220 then (ldgWords s.ldg.buf s.ldg.bufBad).getD ((a - 0x200) / 4) 0
  else if 0x1000 ≤ a ∧ a < 0x1800 then doorbellRead s ((a - 0x1000) / 4)
  else match a with
  | 0x0000 => 0x4B440940
  | 0x0004 => 0x00000400
  | 0x0008 => lo32 s.fuse.serial
  | 0x000C => hi32 s.fuse.serial
  | 0x0010 => if s.fw.run then lo32 s.fw.cur.ver else 0
  | 0x0014 => idFwStat s
  | 0x0018 => if s.fw.run then bits s.fw.cur.ifVer 0 16 else 0
  | 0x001C => if s.cfg.valid then lo32 s.fw.cfgVer else 0
  | 0x0050 => packWord [(s.pwr.vsel, 0, 3), (s.pwr.refsel, 3, 3), (b2n Config.vio33, 6, 1)]
  | 0x0054 => idCfg s
  | 0x0100 => lo32 s.pwr.alarm
  | 0x0104 => limPins s
  | 0x0108 => packWord [(s.pwr.cause, 0, 4), (s.pwr.warmCnt, 16, 16)]
  | 0x010C => limStat s
  | 0x0110 => packWord ((List.range 8).map fun r => ((s.getProt r).st, 3 * r, 3))
  | 0x0114 => lo32 s.pwr.limThrot
  | 0x0118 => lo32 s.now
  | 0x011C => hi32 s.now
  | 0x0120 => packWord [(satU 16 s.pwr.limEff, 0, 16), (satU 16 s.pwr.limP, 16, 16)]
  | 0x0124 => lo32 s.trs.energy
  | 0x0128 => hi32 s.trs.energy
  | 0x0220 => bits s.ldg.r 0 15
  | 0x0224 => ldwStat s
  | _ => 0

/-- The `HIF_` range (Table 14.11). -/
def readHif (a : Nat) (s : State) : Nat :=
  let h := s.hif
  let x := s.getCtx h.ctxSel
  match a with
  | 0x2000 => s.ifVer
  | 0x2004 => lo32 featAvail
  | 0x2008 => hi32 featAvail
  | 0x200C => h.hostVer
  | 0x2010 => h.featHostLo
  | 0x2014 => h.featHostHi
  | 0x2018 => packWord [(b2n h.negDone, 1, 1), (h.negStatus, 16, 16)]
  | 0x201C => lo32 h.featEn
  | 0x2020 => hi32 h.featEn
  | 0x2040 => h.c0Ring
  | 0x2044 => h.c0SqLo
  | 0x2048 => h.c0SqHi
  | 0x204C => h.c0CqLo
  | 0x2050 => h.c0CqHi
  | 0x2054 => h.c0IrqLo
  | 0x2058 => h.c0IrqHi
  | 0x205C => h.c0IrqData
  | 0x2060 => h.evtMask
  | 0x2064 => h.irqGap
  | 0x2068 => packWord [(satU 16 h.dbBad, 0, 16), (satU 16 h.dbDrop, 16, 16)]
  | 0x2080 => h.ctxSel
  | 0x2084 => packWord [(x.st, 0, 2), (x.sqLog, 2, 4), (x.cqLog, 6, 4), (b2n x.irqEn, 10, 1), (b2n x.busy, 11, 1),
      (x.schedW, 16, 8), (x.winLog, 24, 8)]
  | 0x2088 => packWord [(x.sqHead, 0, 16), (x.cqTail, 16, 16)]
  | 0x208C => packWord [(satU 16 x.done, 0, 16), (satU 16 x.evtLost, 16, 16)]
  | 0x2090 => packWord [(x.last, 0, 16), (x.cause, 16, 2)]
  | _ => 0

/-- Root frequency in kHz (R102); 0 while the PLL is held. -/
def State.rootKHz (s : State) : Nat := if s.clk.root.held then 0 else s.clk.root.nCur * 50000

/-- R76: the length of the current or the last holdover. -/
def State.holdNs (s : State) : Nat :=
  if s.tb.hold then s.now - s.tb.holdStart
  else match s.tb.holdEnd with
    | some e => e - s.tb.holdStart
    | none => 0


/-- The window of the slot selected. -/
def readSlot (a : Nat) (s : State) : Nat :=
  let k := s.frm.slotSel
  let r := s.getRt k
  match s.slot k with
  | none => if k = 0 ∧ s.slots = [] ∧ a = 0x3890 then 0x7FFFFFFF else 0
  | some e =>
    match a with
    | 0x3884 => packWord [(e.exec, 0, 4), (e.cls, 4, 4), (e.cluster, 8, 5), (e.work, 16, 16)]
    | 0x3888 => packWord [(e.start, 0, 16), (e.deadline, 16, 16)]
    | 0x388C => encS 32 (satS 32 r.slack)
    | 0x3890 => encS 32 (satS 32 r.minSlack)
    | _ => packWord [(satU 8 r.consec, 0, 8), (satU 24 r.total, 8, 24)]

/-- The window of the domain selected; 40–63 read zeros. -/
def readDom (a : Nat) (s : State) : Nat :=
  let d := s.clk.domSel
  let g := s.domCfg d
  let x := s.getDom d
  if 40 ≤ d then 0
  else match a with
  | 0x3104 => packWord [(s.fuse.dmin.getD d 0 - 1, 0, 6), (b2n g.present, 6, 1), (g.k, 8, 9), (g.cluster, 17, 5),
      (b2n g.clValid, 22, 1), (if g.clValid then 0 else g.dfix, 23, 6)]
  | 0x3108 => packWord [(x.cur, 0, 6), (x.tgt, 6, 6), (b2n (x.sent.isSome || x.stopSent), 12, 1), (b2n x.stopped, 13, 1),
      (b2n x.ext, 14, 1), (b2n x.failed, 15, 1), (x.guard, 16, 6)]
  | 0x310C => if x.stopped then 0 else satU 32 (divRoundN s.rootKHz (x.cur + 1))
  | 0x3110 => if s.fuse.dmin.getD d 0 = 0 then 0 else satU 32 (divRoundN (50000 * s.fuse.nMax) (s.fuse.dmin.getD d 0))
  | 0x3114 => lo32 x.extCnt
  | 0x3118 => hi32 x.extCnt
  | _ => 0

/-- The `CLK_` range (Tables 3.6 and 4.4). -/
def readClk (a : Nat) (s : State) : Nat :=
  let r := s.clk.ref
  let p := s.clk.root
  let f := s.frm
  if 0x3104 ≤ a ∧ a < 0x311C then readDom a s
  else if 0x3884 ≤ a ∧ a < 0x3898 then readSlot a s
  else match a with
  | 0x3000 => packWord [(b2n r.present, 0, 1), (b2n r.stable, 1, 1), (b2n r.drift, 2, 1), (b2n r.quorum, 3, 1),
      (s.pwr.refsel, 4, 3), (r.lossCause, 8, 3), (satU 16 r.goodWin, 16, 16)]
  | 0x3004 => satU 32 r.freqKHz
  | 0x3008 => packWord [(s16 r.driftPpm, 0, 16), (satU 8 r.peers, 16, 8)]
  | 0x300C => packWord [(satU 16 r.deratePpm, 0, 16), (b2n r.derateRoot, 16, 1), (b2n r.derateDiv, 17, 1)]
  | 0x3010 => lo32 r.lossCnt
  | 0x3020 => packWord [(p.nCur, 0, 9), (b2n p.locked, 9, 1), (b2n p.guard, 10, 1), (b2n p.held, 11, 1), (p.nTgt, 16, 9)]
  | 0x3024 => satU 32 s.rootKHz
  | 0x3028 => packWord [(s.fuse.nMax, 0, 9), (s.cfg.nBoot, 9, 9)]
  | 0x302C => p.reqN
  | 0x3030 => p.res
  | 0x3040 => satU 32 s.clk.oscKHz
  | 0x3044 => packWord [(s.cfg.oscSite, 0, 9), (b2n s.clk.oscSubst, 9, 1)]
  | 0x3100 => s.clk.domSel
  | 0x3800 => packWord [(b2n s.tb.hold, 0, 1), (b2n s.tb.refSeen, 1, 1)]
  | 0x3804 => packWord [(s.tb.stepPs, 0, 16), (s.tb.stepMaxPs, 16, 16)]
  | 0x3808 => lo32 s.now
  | 0x380C => hi32 s.now
  | 0x3810 => satU 32 s.holdNs
  | 0x3814 => lo32 s.tb.holdCnt
  | 0x3820 => packWord [(s.cfg.frameLen, 0, 4), (s.slots.length - 1, 8, 8), (s.allocFrames, 16, 8)]
  | 0x3824 => packWord [(f.level, 0, 2), (satU 8 f.consec, 8, 8), (satU 16 f.shedCnt, 16, 16)]
  | 0x3828 => bits f.floor 0 2
  | 0x382C => encS 32 (satS 32 f.wslack)
  | 0x3830 => lo32 f.count
  | 0x3834 => hi32 f.count
  | 0x3838 => lo32 f.missFrames
  | 0x383C => hi32 f.missFrames
  | 0x3880 => f.slotSel
  | _ => 0

/-- An optional temperature in a 16-bit field; 0x8000 where there is none. -/
def temp16 (t : Option Int) : Nat := match t with | some x => s16 x | none => 0x8000

/-- The window of the diode site selected; one that is not configured reads zeros, but for its `LIMIT` (Table 5.6). -/
def readSite (a : Nat) (s : State) : Nat :=
  let i := s.sns.siteSel
  let g := s.siteCfg i
  let x := s.getSite i
  if !g.present then (if a = 0x4030 then 0x80000000 else 0)
  else match a with
  | 0x4024 => packWord [(g.ring, 0, 3), (g.pos, 3, 6), (g.cluster, 9, 5), (g.neigh.length, 14, 3)]
  | 0x4028 => packWord [(x.band, 0, 2), (b2n x.ovr, 2, 1), (x.pause, 3, 2), (b2n x.excl, 5, 1), (b2n x.ringFail, 6, 1),
      (b2n x.noNeigh, 7, 1), (x.diff, 8, 2), (b2n x.net, 10, 1), (b2n s.sns.noMaj, 11, 1)]
  | 0x402C => packWord [(temp16 (s.siteUsed i), 0, 16), (if x.ovr then 0x8000 else temp16 x.meas, 16, 16)]
  | 0x4030 => packWord [(s16 ((s.sitePred i).getD 0), 0, 16), (s16 (s.siteLimit i), 16, 16)]
  | _ => bits x.code 0 16

/-- The window of the droop detector selected. -/
def readDet (a : Nat) (s : State) : Nat :=
  let k := s.sns.detSel
  let g := s.detCfg k
  let x := s.getDet k
  if !g.present then 0
  else match a with
  | 0x4044 => packWord [(g.ring, 0, 4), (g.pos, 4, 6), (g.dom, 10, 6), (g.rail, 16, 3)]
  | 0x4048 => bits (x.depth.getD g.depth) 0 6
  | 0x404C => packWord [(x.tap, 0, 8), (x.deep, 8, 6), (b2n x.ringFail, 14, 1)]
  | _ => lo32 x.cnt

/-- The window of the ageing monitor selected. -/
def readMon (a : Nat) (s : State) : Nat :=
  let k := s.sns.monSel
  let g := s.monCfg k
  let x := s.getMon k
  if !g.present then 0
  else match a with
  | 0x4064 => packWord [(g.ring, 0, 2), (g.pos, 2, 6), (g.cluster, 8, 5), (b2n x.base.isSome, 13, 1)]
  | _ => match x.slow with | some v => encS 32 v | none => 0x80000000

/-- The window of the phase selected in `SNS_PH_SEL`. `V0` is the mean of the 16 captures. -/
def readSnsPh (a : Nat) (s : State) : Nat :=
  let x := s.getPh s.sns.phSel
  if !(s.phCfg s.sns.phSel).present then 0
  else match a with
  | 0x40A4 => packWord [(satU 16 x.i, 0, 16), (x.code, 16, 12), (b2n x.ovr, 28, 1), (b2n x.novr, 29, 1), (b2n x.neg, 30, 1),
      (b2n s.sns.noMaj, 31, 1)]
  | 0x40A8 => packWord [(s16 x.temp, 0, 16), (x.tCode, 16, 12), (b2n x.tOvr, 28, 1)]
  | 0x40AC => packWord [(divRoundN x.v0 16, 0, 12), (b2n (x.v0Nom && decide (x.azErr ≠ 0)), 12, 1)]
  | _ => packWord [(satU 16 x.ovrCnt, 0, 16), (satU 16 x.novrCnt, 16, 16)]

/-- The `SNS_` range (Table 5.6). -/
def readSns (a : Nat) (s : State) : Nat :=
  let n := s.sns
  let dev := fun k => n.dev.getD k 0
  let ring := fun (kind k : Nat) => (Tbl.get none n.rings (16 * kind + k)).isSome
  let v := s.getMeas n.rvSel
  if 0x4024 ≤ a ∧ a < 0x4038 then readSite a s
  else if 0x4044 ≤ a ∧ a < 0x4054 then readDet a s
  else if 0x4064 ≤ a ∧ a < 0x406C then readMon a s
  else if 0x40A4 ≤ a ∧ a < 0x40B4 then readSnsPh a s
  else match a with
  | 0x4000 => packWord [(maskOf (idxWhere 3 fun k => n.excl.getD k false), 0, 3), (b2n n.noMaj, 3, 1)]
  | 0x4004 => packWord [(dev 0, 0, 8), (dev 1, 8, 8), (dev 2, 16, 8)]
  | 0x4010 => packWord [(maskOf (idxWhere 8 (ring 0)), 0, 8), (maskOf (idxWhere 16 (ring 1)), 8, 16),
      (maskOf (idxWhere 4 (ring 2)), 24, 4)]
  | 0x4020 => n.siteSel
  | 0x4040 => n.detSel
  | 0x4060 => n.monSel
  | 0x4080 => n.rvSel
  | 0x4084 => if !(s.railCfg n.rvSel).present then 0 else packWord [(satU 16 v.v, 0, 16), (b2n v.ovrHi, 16, 1), (b2n v.ovrLo, 17, 1), (b2n n.noMaj, 18, 1)]
  | 0x4088 => if !(s.railCfg n.rvSel).present then 0 else lo32 v.ovrCnt
  | 0x40A0 => n.phSel
  | _ => 0

/-- The locked registers of a rail as last written. -/
def readComp (a : Nat) (c : CompRegs) : Nat :=
  match a with
  | 0x5040 => encS 32 c.b0
  | 0x5044 => encS 32 c.b1
  | 0x5048 => encS 32 c.b2
  | 0x504C => encS 32 c.a1
  | 0x5050 => encS 32 c.a2
  | 0x5054 => encS 32 c.a3
  | 0x5058 => packWord [(c.umax, 0, 16), (c.dmax, 16, 16)]
  | 0x505C => packWord [(c.vnlu, 0, 8), (c.vnlo, 8, 8), (c.vbrk, 16, 8), (c.tbrk, 24, 8)]
  | 0x5060 => packWord [(c.rll, 0, 16), (c.rpp, 16, 16)]
  | _ => packWord [(c.vppMax, 0, 8), (c.tonMin, 8, 8), (c.kcb, 16, 8), (c.trimMax, 24, 8)]

/-- The regulation registers of the rail selected. -/
def readReg (a : Nat) (s : State) : Nat :=
  let r := s.rail.sel
  let g := s.railCfg r
  let x := s.getReg r
  let m := s.getMeas r
  match a with
  | 0x5004 => packWord [(g.nph, 0, 7), (b2n g.present, 7, 1), (g.fsw, 8, 8), (g.vinNom, 16, 16)]
  | 0x5008 => packWord [((s.getProt r).st, 0, 3), ((s.activePhases r).length, 3, 7), (b2n x.deLast, 10, 1),
      (b2n (decide (x.vpp ≠ 0)), 11, 1), (b2n x.nlLo, 12, 1), (b2n x.nlHi, 13, 1), (b2n x.brake.isSome, 14, 1),
      (b2n x.reached, 15, 1), (b2n x.hold, 16, 1), (b2n m.vinNom, 17, 1), (b2n x.host.isSome, 18, 1)]
  | 0x500C => packWord [(satU 16 x.target, 0, 16), (satU 16 x.vref, 16, 16)]
  | 0x5010 => packWord [(g.vmin, 0, 16), (s.vmax r, 16, 16)]
  | 0x5014 => packWord [(x.slew, 0, 8), (s.fuse.slewMax.getD r 0, 8, 8)]
  | 0x5018 => bits x.vreq 0 16
  | 0x5020 => packWord [(satU 16 (s.vin r), 0, 16), (satU 16 m.vinLast, 16, 16)]
  | 0x5024 => packWord [(satU 8 x.vpp, 0, 8), (satU 16 x.di, 16, 16)]
  | 0x5028 => packWord [(x.shed.nmin, 0, 7), (b2n x.shed.shedEn, 7, 1), (b2n x.shed.deEn, 8, 1), (b2n x.shed.tbEn, 9, 1),
      (x.shed.gtb, 16, 8), (x.shed.thold, 24, 8)]
  | 0x502C => packWord [(x.shed.iOpt, 0, 16), (x.shed.iAdd, 16, 16)]
  | _ => 0

/-- The phase registers of the phase selected in `RAIL_PH_SEL`. -/
def readRailPh (a : Nat) (s : State) : Nat :=
  let p := s.rail.phSel
  let g := s.phCfg p
  let x := s.getPh p
  match a with
  | 0x5104 => packWord [(g.rail, 0, 3), (b2n g.present, 3, 1), (g.pos, 4, 7), (g.addr, 11, 7), (g.page, 18, 8)]
  | 0x5108 => packWord [(x.st, 0, 3), (b2n x.de, 3, 1), (s16 (divRound x.trim 8), 16, 16)]
  | 0x510C => bits x.ton 0 21
  | 0x5110 => bits x.offs 0 21
  | 0x5114 => packWord [(satU 16 x.itgt, 0, 16), (encS 8 (satS 8 (divRound x.shift 128)), 16, 8)]
  | 0x5900 => packWord [(b2n x.scLatch, 0, 1), (b2n x.stage, 1, 1), (b2n x.readback, 2, 1), (b2n x.idFail, 3, 1),
      (x.idCause, 4, 3), (x.rbKind, 7, 1),
      (satU 4 (x.scTimes.filter fun t => decide (s.now < t + nsPerMs)).length, 8, 4), (satU 16 x.scTotal, 16, 16)]
  | 0x5904 => packWord [(g.isc, 0, 16), (satU 16 x.idi, 16, 16)]
  | 0x5908 => packWord [(g.idMin, 0, 16), (g.idMax, 16, 16)]
  | _ => 0

/-- The protection registers of the rail selected. -/
def readProt (a : Nat) (s : State) : Nat :=
  let r := s.rail.sel
  let g := s.railCfg r
  let x := s.getProt r
  match a with
  | 0x5800 => packWord [(g.mode, 0, 3), (g.master, 3, 3), (g.level, 8, 3), (g.delay, 16, 8), (g.nreq, 24, 7)]
  | 0x5804 => packWord [(s.bootSet s.pwr.vsel r, 0, 16), (s.pwr.vsel, 16, 3)]
  | 0x5808 => packWord [(g.iol, 0, 16), (g.uvPct, 16, 8), (g.tfs, 24, 8)]
  | 0x580C => bits (s.fuse.vov.getD r 0) 0 16
  | 0x5810 => packWord [(b2n (decide (x.st = 6)), 0, 1), (b2n (decide (x.st = 5)), 1, 1), (b2n x.ol.isSome, 2, 1),
      (x.cause, 3, 4), (b2n (decide (x.st = 7) || (decide (x.st = 6) && x.latched)), 7, 1),
      (satU 8 (x.stops.filter fun t => decide (s.now < t + 3600 * nsPerS)).length, 8, 8)]
  | 0x5814 => packWord [(satU 16 (s.getMeas r).iAvg, 0, 16), (satU 16 x.olt, 16, 16)]
  | 0x5818 => satU 32 x.startT
  | _ => 0

/-- The fault-record registers. -/
def readFrec (a : Nat) (s : State) : Nat :=
  let f := s.frec
  if 0x5A80 ≤ a then (if a < 0x5B00 then f.win.getD ((a - 0x5A80) / 4) 0 else 0)
  else match a with
  | 0x5A00 => packWord [(b2n f.busy, 0, 1), (b2n f.nvFail, 1, 1), (b2n f.loaded, 2, 1), (b2n f.init, 3, 1),
      (f.queue.length, 4, 4), (satU 16 f.notCommit, 16, 16)]
  | 0x5A04 => packWord [(f.ptrSlot, 0, 9), (b2n f.ptrValid, 9, 1)]
  | 0x5A08 => lo32 f.ptrSeq
  | 0x5A0C => bits s.cfg.frecBase 0 16
  | 0x5A10 => f.sel
  | _ => 0

/-- The `RAIL_` range (Tables 6.5 and 7.11). -/
def readRail (a : Nat) (s : State) : Nat :=
  let tel := railWords s s.rail.sel
  if 0x5A00 ≤ a then readFrec a s
  else if 0x5900 ≤ a then readRailPh a s
  else if 0x5800 ≤ a then readProt a s
  else if 0x5040 ≤ a ∧ a < 0x5068 then readComp a (s.getReg s.rail.sel).comp
  else match a with
  | 0x5000 => s.rail.sel
  | 0x501C => s.rail.res
  | 0x5080 => tel.getD 0 0
  | 0x5084 => tel.getD 1 0
  | 0x5088 => tel.getD 2 0
  | 0x508C => tel.getD 3 0
  | 0x5100 => s.rail.phSel
  | 0x5200 => packWord [(s.rail.pmbWord, 0, 16), (s.rail.pmbAddr, 16, 7), (satU 8 s.rail.pmbFail, 24, 8)]
  | _ => if a < 0x5040 then readReg a s else if 0x5104 ≤ a ∧ a < 0x5118 then readRailPh a s else 0

end Sys2Proof.Machine
end

