-- ==== Sys2Proof/Machine/ReadReg.lean ====
section
/-!
DEFINITION. Reads of the other emulated ranges (Tables 8.12, 9.9, 10.5, 11.6, 12.9, 13.8, 15.11, 16.16, 17.10), and the
read of a register on the subordinate port: its answer, and the latching of `_HI` halves and digest words.
-/
namespace Sys2Proof.Machine

/-- The window of the program selected. -/
def readProg (a : Nat) (s : State) : Nat :=
  let p := s.tly.progSel
  let g := s.getProg p
  let named := b2n (s.slots.any fun e => decide (e.exec = 0) && decide (e.work = p))
  if !g.installed then (if a = 0x6090 then packWord [(named, 1, 1), (b2n g.failed, 2, 1)] else 0)
  else match a with
  | 0x6084 => lo32 g.id
  | 0x6088 => lo32 g.ver
  | 0x608C => packWord [(g.cls, 0, 4), (g.format, 4, 4), (g.binds.length, 8, 8), (g.cost, 16, 16)]
  | 0x6090 => packWord [(1, 0, 1), (named, 1, 1),
      (b2n g.failed, 2, 1), (b2n g.configured, 3, 1), (g.cost7, 16, 16)]
  | 0x6094 => satU 32 g.sat
  | _ => 0

/-- The window of the model set selected. -/
def readSet (a : Nat) (s : State) : Nat :=
  let k := s.tly.setSel
  let g := s.getSet k
  match a with
  | 0x60A4 => if g.registered then lo32 g.id else 0
  | _ => if !g.registered then 0 else
      packWord [(1, 0, 1), (b2n g.resident, 1, 1), (b2n g.bad, 2, 1),
        (b2n (match s.tly.page with | some q => decide (q.set = k) | none => false), 3, 1), (g.frame, 8, 7),
        (g.npages, 16, 8), (satU 8 (s.setRefs k), 24, 8)]

/-- Half-slots of the coefficient store that programs have pinned. -/
def State.pinnedHs (s : State) : Nat := (s.progs.map fun p => (s.getProg p).coefHs).foldl (· + ·) 0

/-- The `TLY_` range (Table 8.12). A page of the coefficient store is 256 half-slots. -/
def readTly (a : Nat) (s : State) : Nat :=
  let t := s.tly
  let n := t.nact
  let spare := (List.range 9).find? fun k => t.cube.getD k 3 = 1
  if 0x6084 ≤ a ∧ a < 0x6098 then readProg a s
  else match a with
  | 0x6000 => packWord [(n, 0, 4), (spare.getD 15, 4, 4), (b2n spare.isSome, 8, 1), (b2n (decide (n ≤ 7)), 9, 1),
      (b2n (decide (n ≤ 6)), 10, 1), (s.progs.length, 16, 8)]
  | 0x6004 => packWord ((List.range 9).map fun k => (t.cube.getD k 3, 2 * k, 2))
  | 0x6008 => packWord [(satU 16 t.used, 0, 16), (satU 16 t.limit, 16, 16)]
  | 0x600C => if s.noFormat3 then 0x10 else 0x18
  | 0x6010 => packWord [(s.cfg.tly.pinned, 0, 8), (s.cfg.tly.framePages, 8, 8), (s.cfg.tly.nframes, 16, 8)]
  | 0x6014 => packWord [(ceilDiv s.pinnedHs 256, 0, 8), ((s.sets.filter fun k => (s.getSet k).resident).length, 8, 8),
      (satU 16 t.eccCorr, 16, 16)]
  | 0x6018 => packWord [((s.progs.map fun p => (s.getProg p).outN).foldl (· + ·) 0, 0, 13),
      ((s.progs.map fun p => (s.getProg p).scrBase + (s.getProg p).scrN).foldl max 0, 16, 13)]
  | 0x6020 => satU 32 t.satAcc
  | 0x6024 => satU 32 t.satConv
  | 0x6028 => satU 32 t.satRn
  | 0x6030 => packWord [(satU 16 t.residue, 0, 16), (satU 16 t.eccUnc, 16, 16)]
  | 0x6040 => packWord [(b2n t.page.isSome, 0, 1), ((t.page.map Paging.set).getD 0, 1, 6),
      ((t.page.map Paging.page).getD 0, 8, 5), (t.pageLast, 16, 16)]
  | 0x6044 => packWord [(satU 16 t.pageDone, 0, 16), (satU 16 t.pageFail, 16, 16)]
  | 0x6080 => t.progSel
  | 0x60A0 => t.setSel
  | 0x60A4 => readSet a s
  | 0x60A8 => readSet a s
  | _ => 0

/-- A loop's quantity in its field unit: loops 2 and 3 are temperatures (Table 9.1). -/
def qField (j : Nat) (q : Int) : Nat := if j = 2 ∨ j = 3 then s16 q else satU 16 q.toNat

/-- The registers of the cluster selected; a cluster that is not configured shows the reset values. -/
def readClu (a : Nat) (s : State) : Nat :=
  let c := s.loop.clSel
  let g := s.cluCfg c
  let x := s.getClu c
  let row := x.row s.loop.vftSel
  if !g.present then (if a = 0x7008 then 0x00070000 else 0)
  else match a with
  | 0x7004 => packWord [(maskOf (idxWhere 5 fun j => (s.loopCfg c j).present) + 32, 0, 6), (g.dom, 6, 6), (g.rails, 12, 8),
      (1, 20, 1)]
  | 0x7008 => cluStat s c
  | 0x700C => packWord [(satU 16 x.vreq, 0, 16), (x.div, 16, 6), (x.ceil, 24, 8)]
  | 0x7010 => packWord [(loopReg s c 7 0x010, 0, 16), (g.icmax, 16, 16)]
  | 0x7014 => bits g.fbLevel 0 8
  | 0x7084 => packWord [(row.v, 0, 16), (row.div, 16, 6), (row.ceil, 24, 8)]
  | 0x7088 => packWord [(row.iest, 0, 16), (row.pest, 16, 16)]
  | _ => 0

/-- The registers of loop 5: its ceiling and its output. -/
def readLoop5 (a : Nat) (s : State) (c : Nat) : Nat :=
  let l := s.getLp c 5
  match a with
  | 0x7044 => 2 ^ 30
  | 0x704C => packWord [(l.out / 256, 24, 8)]
  | 0x7050 => packWord [(l.tgt.getD 255, 0, 16)]
  | _ => 0

/-- The registers of the loop selected; 6, 7 and a loop that is not present read zeros. Locked registers read as the
writes already accepted leave them (R10, R247). -/
def readLoopSel (a : Nat) (s : State) : Nat :=
  let c := s.loop.clSel
  let j := s.loop.sel
  let g := s.loopCfg c j
  let l := s.getLp c j
  if j = 5 ∧ (s.cluCfg c).present then readLoop5 a s c
  else if 5 ≤ j ∨ !(s.cluCfg c).present ∨ !g.present then 0
  else match a with
  | 0x7044 => packWord [(g.nx, 0, 5), (g.nu, 5, 5), (g.ny, 10, 5), (l.limProg, 15, 7), (l.obsProg, 22, 7), (b2n g.ff, 29, 1),
      (1, 30, 1)]
  | 0x7048 => packWord [(b2n l.auto, 0, 1), (b2n l.fallback, 1, 1), (if l.fallback then l.fbCause else 0, 2, 2),
      (b2n l.fbLatch, 4, 1), (b2n l.satSince.isSome, 5, 1), (b2n l.satFlag, 6, 1), (b2n l.limiting, 7, 1), (satU 8 l.innov, 8, 8),
      (satU 16 (divRoundN (match l.satSince with | some t => s.now - t | none => 0) nsPerMs), 16, 16)]
  | 0x704C => packWord [(encS 24 (satS 24 l.raw), 0, 24), (l.out / 256, 24, 8)]
  | 0x7050 => packWord [(l.tgt.getD 0, 0, 16), (g.tgtMax, 16, 16)]
  | 0x7054 => packWord [(qField j l.qhat, 0, 16), (qField j (l.qmeas.getD 0), 16, 16)]
  | 0x7058 => loopReg s c j 0x058
  | 0x705C => loopReg s c j 0x05C
  | 0x7060 => loopReg s c j 0x060
  | 0x7064 => packWord [(loopReg s c j 0x064, 0, 17), (b2n l.fbForce, 17, 1)]
  | 0x7068 => loopReg s c j 0x068
  | 0x706C => packWord [(satU 16 l.fbCnt, 0, 16), (satU 16 l.satCnt, 16, 16)]
  | _ => 0

/-- The `LOOP_` range (Table 9.9). -/
def readLoop (a : Nat) (s : State) : Nat :=
  match a with
  | 0x7000 => s.loop.clSel
  | 0x701C => s.loop.res
  | 0x7040 => s.loop.sel
  | 0x7080 => s.loop.vftSel
  | _ => if 0x7044 ≤ a ∧ a < 0x7070 then readLoopSel a s else readClu a s

/-- The registers of the cluster selected in `TRS_CL_SEL`. Reasons 12–15 read zeros. -/
def readTrsCl (a : Nat) (s : State) : Nat :=
  let c := s.trs.clSel
  let g := s.cluCfg c
  let x := s.getTrsCl c
  let k := s.trs.rsnSel
  let on := Tbl.get (0, false) x.rsnOn k
  let w := cluWords s c
  match a with
  | 0x8084 => packWord [(if g.present then g.cls else 0, 0, 2), (b2n g.present, 2, 1), (s.floorLevel false c, 8, 8),
      (s.nCores c, 16, 8)]
  | 0x8088 => w.getD 2 0
  | 0x808C => packWord [(satU 16 x.dem, 0, 16), (satU 16 (s.floorPower c), 16, 16)]
  | 0x8090 => packWord [(satU 16 x.lent, 0, 16), (satU 16 x.borrowed, 16, 16)]
  | 0x8094 => w.getD 3 0
  | 0x8098 => packWord [(k, 0, 4), (b2n (decide (k < 12) && on.2), 8, 1)]
  | 0x809C => if k < 12 then lo32 (Tbl.get 0 x.rsnT k) else 0
  | 0x80A0 => if k < 12 then hi32 (Tbl.get 0 x.rsnT k) else 0
  | 0x80A4 => if k < 12 then lo32 on.1 else 0
  | 0x80A8 => if k < 12 then hi32 on.1 else 0
  | 0x80AC => packWord [(satU 16 x.trim, 0, 16), (satU 16 x.trimTgt, 16, 16)]
  | 0x80B0 => packWord [(g.gb, 0, 8), (g.kage, 8, 8), (b2n g.trimEn, 16, 1), (b2n x.held.isSome, 17, 1)]
  | _ => 0

/-- The registers of the context selected in `TRS_TX_SEL`. -/
def readTx (a : Nat) (s : State) : Nat :=
  let t := s.trs.txSel
  let x := s.getTx t
  match a with
  | 0x8104 => packWord [(x.weight, 0, 16), (x.cls, 16, 2), (x.grant, 24, 8)]
  | 0x8108 => packWord [(x.floor, 0, 8), (b2n (decide (s.txCores t ≠ 0)), 8, 1), (b2n (decide (x.credit < 0)), 9, 1),
      (b2n x.suspended, 10, 1), (b2n (decide (x.breach ≠ 0)), 11, 1), (x.epoch, 16, 16)]
  | 0x810C => packWord [(satU 16 x.budget, 0, 16), (satU 16 x.entitle, 16, 16)]
  | 0x8110 => encS 32 (satS 32 x.credit)
  | 0x8114 => s.maskClus (s.txCores t)
  | 0x8118 => lo32 x.flt
  | 0x811C => hi32 x.flt
  | _ => 0

/-- The Treasury part of the `TRS_` range (Table 11.6). -/
def readTrs (a : Nat) (s : State) : Nat :=
  let t := s.trs
  let k := t.dcSel
  if 0x8084 ≤ a ∧ a < 0x80B4 then readTrsCl a s
  else if 0x8104 ≤ a ∧ a < 0x8120 then readTx a s
  else match a with
  | 0x8000 => packWord [(t.cap, 0, 16), (s.fuse.capMax, 16, 16)]
  | 0x8004 => packWord [(satU 16 s.ceff, 0, 16), (satU 16 t.commit, 16, 16)]
  | 0x8008 => packWord [(satU 16 s.lOut, 0, 16), (satU 16 s.lIn, 16, 16)]
  | 0x800C => packWord [(satU 16 t.pPkg, 0, 16), (satU 16 t.alloc, 16, 16)]
  | 0x8010 => packWord [(t.odPct, 0, 8), (t.reserve, 8, 8), (t.rearm, 16, 8)]
  | 0x8014 => packWord [(b2n t.odSince.isSome, 0, 1),
      (min 1000 (divRoundN (match t.odSince with | some b => s.now - b | none => 0) nsPerUs), 1, 10), (satU 16 t.odCnt, 16, 16)]
  | 0x8018 => satU 32 (divRoundN t.od 16)
  | 0x8020 => lo32 t.energy
  | 0x8024 => hi32 t.energy
  | 0x8028 => packWord [(t.floorMax, 0, 8), (t.preMax, 8, 8), (t.lguard, 16, 8), (t.credMax, 24, 8)]
  | 0x802C => bits t.throtMask 0 12
  | 0x8034 => t.res
  | 0x8040 => k
  | 0x8044 => packWord [(t.prio.getD k 0, 0, 2), (t.weight.getD k 0, 8, 8)]
  | 0x8048 => packWord [(t.floor.getD k 0, 0, 16), (satU 16 (s.efloor k), 16, 16)]
  | 0x804C => packWord [(satU 16 (t.budget.getD k 0), 0, 16), (satU 16 (t.demand.getD k 0), 16, 16)]
  | 0x8080 => t.clSel
  | 0x8100 => t.txSel
  | 0x8180 => t.railSel
  | 0x8184 => packWord [(s.cfg.trs.ibud.getD t.railSel 0, 0, 16), (satU 16 (s.railFloorI t.railSel), 16, 16)]
  | _ => 0

/-- R275: the forecaster's state as `TRS_FC_CL_STAT` shows it. -/
def fcState (s : State) (c : Nat) : Nat :=
  let x := s.getFcCl c
  if !(s.fcCfg c).present then 0
  else if (s.getClu c).st = 2 then 4
  else if x.avail then 1
  else if x.missed then 5
  else if !s.fcResident c then 2
  else 3

/-- The window of the class selected in `TRS_HC_SEL`. -/
def readHc (a : Nat) (s : State) : Nat :=
  let x := s.getHc s.fc.hcSel
  match a with
  | 0x8844 => packWord [(x.set, 0, 6), (b2n x.setValid, 6, 1), (b2n x.en, 7, 1), (x.dur, 8, 8), (x.feat, 16, 8), (x.ipu, 24, 8)]
  | 0x8848 => packWord [(satU 16 x.accepted, 0, 16), (satU 16 x.coalesced, 16, 16)]
  | 0x884C => packWord [(satU 16 x.hits, 0, 16), (satU 16 x.misses, 16, 16)]
  | 0x8850 => packWord [(satU 16 x.refused, 0, 16), (satU 16 x.late, 16, 16)]
  | _ => 0

/-- Word `k` of a context's permission map: class 0 reads 1, and every bit of context 0 does. -/
def permWord (s : State) (t k : Nat) : Nat :=
  if t = 0 then 2 ^ 32 - 1
  else
    let w := bits (s.getHx t).perm (32 * k) 32
    if k = 0 then w - w % 2 + 1 else w

/-- The forecasting part of the `TRS_` range (Table 10.5). -/
def readFc (a : Nat) (s : State) : Nat :=
  let f := s.fc
  let c := f.clSel
  let g := s.fcCfg c
  let x := s.getFcCl c
  let q := x.acc.getD f.accSel {}
  let h := s.getHx f.hxSel
  if 0x8844 ≤ a ∧ a < 0x8854 then readHc a s
  else if 0x8880 ≤ a ∧ a < 0x88A0 then permWord s f.hxSel ((a - 0x8880) / 4)
  else match a with
  | 0x8800 => c
  | 0x8804 => packWord [(g.prog, 0, 7), (b2n g.present, 7, 1), (g.bind, 8, 5), (g.defSet, 13, 6)]
  | 0x8808 => packWord [(fcState s c, 0, 3),
      (b2n (match s.tly.page, s.desired c with | some y, some d => decide (y.set = d.1) | _, _ => false), 3, 1),
      (x.bound.getD 0, 4, 6), (b2n x.bound.isSome, 10, 1), (x.sel.getD 0, 11, 8), (b2n x.sel.isSome, 19, 1), (x.gate, 20, 5),
      ((s.hints c).length, 25, 6)]
  | 0x880C => packWord [(satU 16 (x.p 0), 0, 16), (satU 16 (x.p 1), 16, 16)]
  | 0x8810 => packWord [(satU 16 (x.p 2), 0, 16), (satU 16 (x.p 3), 16, 16)]
  | 0x8814 => packWord [(satU 16 (x.p 4), 0, 16), (satU 16 x.late, 16, 16)]
  | 0x8818 => f.accSel
  | 0x881C => if 5 ≤ f.accSel then 0 else packWord [(satU 16 (divRoundN q.mae 64), 0, 16), (s16 (divRound q.bias 64), 16, 16)]
  | 0x8820 => if 5 ≤ f.accSel then 0 else packWord [(satU 16 q.eval, 0, 16), (satU 16 q.under, 16, 16)]
  | 0x8824 => packWord [(x.accTh, 0, 16), (x.accMin, 16, 8)]
  | 0x8840 => f.hcSel
  | 0x8854 => f.res
  | 0x8860 => f.hxSel
  | 0x8864 => packWord [(b2n h.until_.isSome, 0, 1), (satU 8 h.missFrac, 8, 8), (satU 16 h.ndist, 16, 16)]
  | 0x8868 => packWord [(f.missTh, 0, 8), (f.minEval, 8, 8), (f.distMs, 16, 16)]
  | _ => 0

/-- `SYN_OBJ_WAIT`: the waiters of the object, and the entry of the one accepted first. -/
def objWait (s : State) (o : Nat) : Nat :=
  let l := sortBy (fun e => e.2.ord) (s.waitsOn o)
  packWord [(l.length, 0, 14), ((l.head?.map Prod.fst).getD 0, 16, 13), (b2n (l ≠ []), 29, 1)]

/-- A core is configured: it lies in a cluster or has engines. -/
def State.coreOk (s : State) (k : Nat) : Bool := !(s.coreEngines k).isEmpty || s.clusters.any fun c => bitOf (s.cluCfg c).cores k

/-- The windows of the core, group and waiter selected; a core or group that is not configured reads zeros. -/
def readSynWin (a : Nat) (s : State) : Nat :=
  let k := s.syn.coreSel
  let x := s.getCore k
  let g := s.getGrp s.syn.grpSel
  let w := s.waiter s.syn.wtrSel
  let mem := fun (i : Nat) => (g.members.getD i 0, b2n (decide (i < g.members.length)))
  if 0x90CC ≤ a ∧ a < 0x90EC then
    let i := (a - 0x90CC) / 4 * 2
    if !g.valid then 0 else packWord [((mem i).1, 0, 13), ((mem i).2, 13, 1), ((mem (i + 1)).1, 16, 13), ((mem (i + 1)).2, 29, 1)]
  else if 0x9084 ≤ a ∧ a < 0x9090 ∧ !s.coreOk k then 0
  else match a with
  | 0x9084 => packWord [(b2n x.mode, 0, 1), (b2n x.escEn, 1, 1), (x.qmask, 2, 4), (x.wdMs, 16, 16)]
  | 0x9088 => packWord [(maskOf ((s.coreEngines k).filter (s.engineWaits k)), 0, 16), (b2n (s.coreWaits k), 16, 1),
      (b2n x.lent.isSome, 17, 1), (b2n x.wd.isSome, 18, 1), (b2n x.wdFired, 19, 1)]
  | 0x908C => packWord [(satU 16 x.loan, 0, 16), (satU 16 x.waitf, 16, 16)]
  | 0x90C4 => if g.valid then packWord [(g.p - 1, 0, 13), (g.members.length, 13, 5), (1, 18, 1)] else 0
  | 0x90C8 => if g.valid then packWord [(g.arrived, 0, 13), (g.gen, 16, 8)] else 0
  | 0x9104 => wtrObj s s.syn.wtrSel
  | 0x9108 => match w with | some y => bits y.arg 0 16 | none => 0
  | 0x910C => match w with | some y => lo32 y.start | none => 0
  | 0x9110 => match w with | some y => hi32 y.start | none => 0
  | _ => 0

/-- Word `k` of a context's allocation map; all ones for context 0. -/
def mapWord (s : State) (t k : Nat) : Nat :=
  if t = 0 then 2 ^ 32 - 1 else maskOf (idxWhere 32 fun i => Tbl.get 0 s.syn.own (32 * k + i) = t)

/-- The `SYN_` range (Table 12.9). -/
def readSyn (a : Nat) (s : State) : Nat :=
  let y := s.syn
  match a with
  | 0x9000 => packWord [(satU 16 y.eccCorr, 0, 16), (satU 16 (y.obj.filter fun e => e.2.poison).length, 16, 16)]
  | 0x9004 => y.res
  | 0x9010 => y.tmo.getD 0 0
  | 0x9014 => y.tmo.getD 1 0
  | 0x9018 => y.tmo.getD 2 0
  | 0x901C => y.tmo.getD 3 0
  | 0x9020 => packWord [(y.tlend, 0, 8), (b2n (y.en && s.feat 2), 8, 1), (b2n y.log, 9, 1)]
  | 0x9024 => packWord [(satU 16 y.waitfRound, 0, 16), (satU 16 y.waitfFrame, 16, 16)]
  | 0x9028 => packWord [(satU 16 y.udf, 0, 16), (satU 16 y.ovf, 16, 16)]
  | 0x902C => packWord [(satU 16 y.race, 0, 16), (satU 16 y.viol, 16, 16)]
  | 0x9030 => packWord [(satU 16 y.failed, 0, 16), (satU 16 y.lends, 16, 16)]
  | 0x9040 => y.objSel
  | 0x9044 => objStat s y.objSel
  | 0x9048 => objWait s y.objSel
  | 0x9080 => y.coreSel
  | 0x90C0 => y.grpSel
  | 0x9100 => y.wtrSel
  | 0x9140 => y.ctxSel
  | _ => if 0x9144 ≤ a ∧ a < 0x9154 then mapWord s y.ctxSel ((a - 0x9144) / 4) else readSynWin a s

/-- The window of the link selected; 65–127 read zeros. -/
def readLnk (a : Nat) (s : State) : Nat :=
  let l := s.clr.lnkSel
  let x := s.getLnk l
  if 65 ≤ l then 0
  else match a with
  | 0xA044 => b2n x.en
  | 0xA048 => lo32 x.peer
  | 0xA04C => lo32 x.addr
  | 0xA050 => hi32 x.addr
  | 0xA054 => packWord [(x.st, 0, 3), (x.ver, 3, 2), (min 3 x.missed, 5, 2), (b2n (s.thetaOk x), 7, 1), (b2n x.peerHold, 8, 1)]
  | 0xA058 => lo32 x.inc
  | 0xA05C => packWord [(satU 16 x.rtt, 0, 16), (satU 16 x.slack, 16, 16)]
  | 0xA060 => encS 32 (satS 32 (x.theta.getD 0))
  | 0xA064 => satU 32 (sumN (x.lent.map Lent.amt))
  | 0xA068 => satU 32 (sumN ((s.borHeld l).map Bor.amt))
  | _ => packWord [(satU 16 x.ackMiss, 0, 16), (satU 16 x.discard, 16, 16)]

/-- The `CLR_` range (Table 13.8). -/
def readClr (a : Nat) (s : State) : Nat :=
  let c := s.clr
  let n := fun (p : Link → Bool) => countIdx 65 fun l => p (s.getLnk l)
  if 0xA044 ≤ a ∧ a < 0xA070 then readLnk a s
  else match a with
  | 0xA000 => packWord [(b2n (c.en && s.feat 3), 0, 1), (c.vmax, 1, 2), (b2n (!(s.getLnk 0).en), 3, 1), (c.keep, 8, 5)]
  | 0xA004 => lo32 c.id
  | 0xA008 => bits c.domain 0 16
  | 0xA00C => packWord [(c.leaseUs, 0, 10), (c.retryMs, 16, 16)]
  | 0xA010 => lo32 c.mbxLo
  | 0xA014 => lo32 c.mbxHi
  | 0xA018 => packWord [(n Link.up, 0, 7), (n fun x => decide (x.st = 4), 8, 7), (b2n (c.en && s.tb.hold), 15, 1), (b2n s.verified, 16, 1)]
  | 0xA01C => lo32 c.inc
  | 0xA020 => packWord [(s.lentN, 0, 10), (s.borN, 16, 10)]
  | 0xA024 => satU 32 c.aggS
  | 0xA028 => satU 32 c.aggN
  | 0xA030 => c.res
  | 0xA040 => c.lnkSel
  | _ => 0

/-- The `DMA_` and `LDG_` ranges (Table 15.11). -/
def readDma (a : Nat) (s : State) : Nat :=
  let d := s.dma
  let l := s.ldg
  let x := s.getChan d.chSel
  match a with
  | 0xB000 => packWord [(maskOf (idxWhere 8 fun k => (s.getChan k).busy), 0, 8),
      (maskOf (idxWhere 5 fun k => (s.getChan k).armed), 8, 5), (b2n s.capFrozen, 13, 1)]
  | 0xB004 => b2n d.run
  | 0xB010 => d.chSel
  | 0xB014 => packWord [(x.mode, 0, 3), (b2n x.busy, 3, 1), (b2n x.armed, 4, 1), (x.last, 16, 16)]
  | 0xB018 => packWord [(satU 16 x.done, 0, 16), (satU 16 x.fail, 16, 16)]
  | 0xB01C => lo32 x.seq
  | 0xB020 => satU 16 x.ovr
  | 0xC000 => packWord [(l.w, 0, 15), (b2n (decide (16384 ≤ l.w)), 15, 1)]
  | 0xC004 => packWord [(l.r, 0, 15), (l.w - l.r, 16, 15)]
  | 0xC008 => lo32 l.seq
  | 0xC00C => satU 32 l.drop
  | 0xC010 => packWord [(satU 16 l.qlost, 0, 16), (satU 16 l.eccUnc, 16, 16)]
  | _ => 0

/-- R431: a sampled value of the limit gate: rows 0–9 of Table 16.10. -/
def gateVal (s : State) (field i : Nat) : Nat :=
  let f := s.fuse
  match field with
  | 0 => bits (f.vmax.getD i 0) 0 16
  | 1 => bits (f.vov.getD i 0) 0 16
  | 2 => bits (f.slewMax.getD i 0) 0 8
  | 3 => bits (f.dmin.getD i 0 - 1) 0 6
  | 4 => bits f.nMax 0 9
  | 5 => bits f.capMax 0 16
  | 6 => encS 16 f.tcrit
  | 7 => encS 16 (f.tripOfs.getD i 0) / 16 % 256
  | 8 => bits (s.bootSet (i / 8) (i % 8)) 0 16
  | 9 => crc32 (gateBytes f)
  | _ => 0

/-- The `FW_` range (Table 16.16). -/
def readFw (a : Nat) (s : State) : Nat :=
  let f := s.fw
  let v := f.vault
  let k := f.slotSel
  let img := (f.slotImg k).getD {}
  let c := f.coreSel
  let x := s.getFwCore c
  match a with
  | 0xD000 => packWord [(f.cur.slot, 0, 1), (b2n f.recovery, 1, 1), (b2n (f.run && s.unconf), 2, 1), (f.upd, 3, 3),
      (if f.run then f.cur.svn else 0, 8, 8), (f.arr.svn, 16, 8)]
  | 0xD004 => packWord [(b2n v.ready, 0, 1), (b2n v.error, 1, 1), (b2n f.arr.zeroised, 2, 1), (b2n (decide (v.test ≠ 0)), 3, 1),
      (b2n (decide (1710 ≤ v.vfuseMv) && decide (v.vfuseMv ≤ 1890)), 4, 1), (b2n f.gateBlank, 5, 1), (b2n f.gateCrc, 6, 1),
      (f.arr.kolRev, 8, 4), (maskOf (idxWhere 2 fun i => f.arr.intHash.getD i 0 ≠ 0), 12, 2), (f.arr.intRev, 14, 2),
      (satU 16 v.restarts, 16, 16)]
  | 0xD008 => packWord [(f.cfgAct, 0, 1), (f.cfgStg, 1, 2), (b2n s.cfg.valid, 3, 1), (b2n f.coldOnly, 4, 1)]
  | 0xD00C => if s.cfg.valid then lo32 f.cfgVer else 0
  | 0xD010 => packWord [(satU 16 f.holdUs, 0, 16), (satU 16 f.confMs, 16, 16)]
  | 0xD020 => k
  | 0xD024 => packWord [(f.slotState k, 0, 3), (b2n (decide (f.pref = k)), 3, 1), (img.svn, 8, 8), (f.last.getD k 0, 16, 16)]
  | 0xD028 => lo32 img.ver
  | 0xD040 => c
  | 0xD044 => if 35 ≤ c then 0 else
      packWord [(x.st, 0, 3), (b2n x.bank, 3, 1), (if c < 32 then s.partner c else 0, 4, 6), (satU 16 x.hangs, 16, 16)]
  | 0xD060 => f.gateSel
  | 0xD064 => gateVal s (bits f.gateSel 0 4) (bits f.gateSel 4 9)
  | _ => 0

/-- The window of the Audit unit selected; kinds 6 and 7 read zeros. -/
def readUnit (a : Nat) (s : State) : Nat :=
  let k := bits s.aud.unitSel 0 3
  let i := bits s.aud.unitSel 3 10
  let u := s.getUnit (audIdx k i)
  if 6 ≤ k then 0
  else match a with
  | 0xE024 => packWord [(s.audState k i, 0, 3), (b2n u.auto, 3, 1), (u.last, 16, 16)]
  | 0xE028 => lo32 u.endT
  | _ => hi32 u.endT

/-- A unit of kind `k` is in a state of the list. -/
def State.kindIn (s : State) (k : Nat) (l : List Nat) : Bool :=
  (List.range (match k with | 0 => 9 | 1 => 32 | 2 => 36 | 3 => 512 | 4 => 128 | _ => 65)).any fun i => l.contains (s.audState k i)

/-- R448: how long every trip input has been below its limit less 20 °C. -/
def State.dwellMs (s : State) : Nat := divRoundN (match s.aud.dwell with | some t => s.now - t | none => 0) nsPerMs

/-- The `AUD_` range (Table 17.10). -/
def readAud (a : Nat) (s : State) : Nat :=
  let x := s.aud
  match a with
  | 0xE000 => packWord [(b2n x.test.isSome, 0, 1), ((x.test.map AudTest.kind).getD 0, 1, 3), ((x.test.map AudTest.idx).getD 0, 4, 10),
      (maskOf (idxWhere 6 fun k => s.kindIn k [1, 2, 3, 4]), 16, 6), (maskOf (idxWhere 6 fun k => s.kindIn k [4, 5]), 22, 6)]
  | 0xE004 => packWord [(x.lastCode, 0, 16), (x.lastKind, 16, 3), (x.lastIdx, 19, 10)]
  | 0xE008 => packWord [(x.kinds, 0, 4), (x.period, 16, 16)]
  | 0xE00C => packWord [(satU 16 x.pass, 0, 16), (satU 16 x.fail, 16, 16)]
  | 0xE014 => x.res
  | 0xE020 => x.unitSel
  | 0xE024 => readUnit a s
  | 0xE028 => readUnit a s
  | 0xE02C => readUnit a s
  | 0xE040 => packWord [(satU 8 (x.trips.filter fun t => decide (s.now < t + 3600 * nsPerS)).length, 0, 8),
      (b2n x.tripActive, 8, 1), (b2n x.tripLatched, 9, 1), (satU 16 s.dwellMs, 16, 16)]
  | 0xE044 => packWord [(x.tripSite, 0, 9), (b2n x.tripSubst, 9, 1), (s16 x.tripInput, 16, 16)]
  | 0xE048 => lo32 x.tripTime
  | 0xE04C => hi32 x.tripTime
  | 0xE050 => packWord [(b2n x.padHold, 0, 1), (satU 16 x.blocked, 16, 16)]
  | _ => 0

/-- The emulated ranges other than `HIF_` and `FW_`. -/
def readEmu (a : Nat) (s : State) : Nat :=
  match a / 0x1000 with
  | 3 => readClk a s
  | 4 => readSns a s
  | 5 => readRail a s
  | 6 => readTly a s
  | 7 => readLoop a s
  | 8 => if a < 0x8800 then readTrs a s else readFc a s
  | 9 => readSyn a s
  | 10 => readClr a s
  | 11 => readDma a s
  | 12 => readDma a s
  | _ => readAud a s

/-- The present value of the register at word address `a`. -/
def regNow (a : Nat) (s : State) : Nat :=
  if a < 0x2000 ∨ 0xF000 ≤ a then readHard a s
  else if a < 0x3000 then readHif a s
  else if 0xD000 ≤ a ∧ a < 0xE000 then readFw a s
  else readEmu a s

/-- R11: the addresses of the `_LO` registers whose 64-bit value is read in two words. -/
def loRegs : List Nat :=
  [0x0008, 0x0118, 0x0124, 0x2004, 0x2010, 0x201C, 0x2044, 0x204C, 0x2054, 0x3114, 0x3808, 0x3830, 0x3838, 0x8020, 0x809C,
   0x80A4, 0x8118, 0x910C, 0xA010, 0xA04C, 0xE028, 0xE048]

/-- R11: a read of a `_LO` register latches its `_HI` half; a read of a `_HI` register returns what was latched. -/
def latched (a : Nat) (s : State) : State :=
  if loRegs.contains a then s.onHs fun h => { h with latch := Tbl.set 0 h.latch (a + 4) (regNow (a + 4) s) } else s

/-- The word that a read of `a` returns. -/
def readWord (a : Nat) (s : State) : Nat :=
  if 4 ≤ a ∧ loRegs.contains (a - 4) then Tbl.get 0 s.hs.latch a else regNow a s

/-- A read that is performed: its data, and the latching that goes with it. -/
def readDone (a : Nat) (s : State) : State := hsAnswer 0 (readWord a s) (latched a s)

/-- R470: a read of `ID_FW_DIGEST0` latches the other digest words. -/
def digestRead (s : State) : State :=
  hsAnswer 0 (digestWord s 0) (s.onHs fun h => { h with digest := (List.range 12).map (digestWord s) })

/-- A read of a hardwired register; three of them act on what they read (R405, R470). A store error of the slot that
`LDW_REC0` reads is an operand of LDW_REC0_READ alone. -/
def hardRead (a : Nat) (s : State) : State :=
  if a = 0x0020 then digestRead s
  else if a = 0x0200 then rec0Read false s
  else if a = 0x021C then rec7Read s
  else readDone a s

/-- R9, R11, R34: a read of the set-up window. An address without a register reads 0. -/
def regRead (a : Nat) (s : State) : State :=
  if a < 0x2000 ∨ 0xF000 ≤ a then (if s.live then hardRead a s else hsAnswer 1 0 s)
  else
    let hif := decide (a < 0x3000) || (decide (0xD000 ≤ a) && decide (a < 0xE000))
    if !s.live || !(if hif then s.clerkUp else s.fwUp) then hsAnswer 1 0 s
    else if s.hif.mismatch then hsAnswer 3 0 s
    else readDone a s

/-- R11: LO_READ_LATCH. -/
def execLoReadLatch (addr : Word) (s : State) : Res := .next (regRead (wordAddr addr) s)

/-- R470: DIGEST0_READ. -/
def execDigest0Read (s : State) : Res := hsRead digestRead s

end Sys2Proof.Machine
end

