-- ==== Sys2Proof/Machine/Dispatch.lean ====
section
/-!
DEFINITION. The dispatch: one arm per command.
-/
namespace Sys2Proof.Machine

def exec (i : Instr) (s : State) : Host.Outcome State Fault Refusal :=
  match i with
  | .coldReset vsel refsel selftest boot part => Sys2Proof.Machine.execColdReset vsel refsel selftest boot part s
  | .porstNAssert lowNs => Sys2Proof.Machine.execPorstNAssert lowNs s
  | .internalPowerOnReset vaonMv vioMv => Sys2Proof.Machine.execInternalPowerOnReset vaonMv vioMv s
  | .warmReset lowNs => Sys2Proof.Machine.execWarmReset lowNs s
  | .wrstNRelease => Sys2Proof.Machine.execWrstNRelease s
  | .inputPowerFail pin => Sys2Proof.Machine.execInputPowerFail pin s
  | .vanaLoss lowNs => Sys2Proof.Machine.execVanaLoss lowNs s
  | .fwVfuseAlarm mv => Sys2Proof.Machine.execFwVfuseAlarm mv s
  | .hsPortReset => Sys2Proof.Machine.execHsPortReset s
  | .hmPortReset => Sys2Proof.Machine.execHmPortReset s
  | .hmResponse tag ok data => Sys2Proof.Machine.execHmResponse tag ok data s
  | .hmTimeout tag => Sys2Proof.Machine.execHmTimeout tag s
  | .hmTagRelease tag => Sys2Proof.Machine.execHmTagRelease tag s
  | .refWindowEnd durPs => Sys2Proof.Machine.execRefWindowEnd durPs s
  | .refLoss => Sys2Proof.Machine.execRefLoss s
  | .driftMeasurement edges => Sys2Proof.Machine.execDriftMeasurement edges s
  | .rootReqGo n => Sys2Proof.Machine.execRootReqGo n s
  | .rootChangeStart => Sys2Proof.Machine.execRootChangeStart s
  | .rootTimebaseMoved => Sys2Proof.Machine.execRootTimebaseMoved s
  | .pllLock => Sys2Proof.Machine.execPllLock s
  | .relockRetry => Sys2Proof.Machine.execRelockRetry s
  | .pllFail => Sys2Proof.Machine.execPllFail s
  | .pllFailRetry => Sys2Proof.Machine.execPllFailRetry s
  | .leafAck d => Sys2Proof.Machine.execLeafAck d s
  | .leafFail d cause => Sys2Proof.Machine.execLeafFail d cause s
  | .leafRetry d => Sys2Proof.Machine.execLeafRetry d s
  | .leafRestored d => Sys2Proof.Machine.execLeafRestored d s
  | .droopFire det => Sys2Proof.Machine.execDroopFire det s
  | .ceilingUpdate => Sys2Proof.Machine.execCeilingUpdate s
  | .cpAck c echo act lim => Sys2Proof.Machine.execCpAck c echo act lim s
  | .cpLate c => Sys2Proof.Machine.execCpLate c s
  | .frameStart stepPs => Sys2Proof.Machine.execFrameStart stepPs s
  | .frameCommit => Sys2Proof.Machine.execFrameCommit s
  | .slotComplete slot => Sys2Proof.Machine.execSlotComplete slot s
  | .slotMiss slot => Sys2Proof.Machine.execSlotMiss slot s
  | .loopBackstop slot => Sys2Proof.Machine.execLoopBackstop slot s
  | .loopBackstopEnd c => Sys2Proof.Machine.execLoopBackstopEnd c s
  | .shed => Sys2Proof.Machine.execShed s
  | .restore => Sys2Proof.Machine.execRestore s
  | .shedFloorWrite floor => Sys2Proof.Machine.execShedFloorWrite floor s
  | .hostRestore => Sys2Proof.Machine.execHostRestore s
  | .clrMin => Sys2Proof.Machine.execClrMin s
  | .loopSaturated c j => Sys2Proof.Machine.execLoopSaturated c j s
  | .odEnd => Sys2Proof.Machine.execOdEnd s
  | .leaseGuard l id => Sys2Proof.Machine.execLeaseGuard l id s
  | .trimEvaluate => Sys2Proof.Machine.execTrimEvaluate s
  | .amMeasure mon ratio => Sys2Proof.Machine.execAmMeasure mon ratio s
  | .siteSample site => Sys2Proof.Machine.execSiteSample site s
  | .siteResult site code => Sys2Proof.Machine.execSiteResult site code s
  | .thermTrip site => Sys2Proof.Machine.execThermTrip site s
  | .thermRestartOk => Sys2Proof.Machine.execThermRestartOk s
  | .ringFail kind ring first => Sys2Proof.Machine.execRingFail kind ring first s
  | .ringRetry kind ring answered => Sys2Proof.Machine.execRingRetry kind ring answered s
  | .refCompare a b stack => Sys2Proof.Machine.execRefCompare a b stack s
  | .refBroadcast => Sys2Proof.Machine.execRefBroadcast s
  | .ddRead deepest => Sys2Proof.Machine.execDdRead deepest s
  | .ddTapRewrite det tap => Sys2Proof.Machine.execDdTapRewrite det tap s
  | .railVConversion r code cal => Sys2Proof.Machine.execRailVConversion r code cal s
  | .brakeTimeout r => Sys2Proof.Machine.execBrakeTimeout r s
  | .compensatorUpdate r => Sys2Proof.Machine.execCompensatorUpdate r s
  | .phaseIConversion p code newCapture => Sys2Proof.Machine.execPhaseIConversion p code newCapture s
  | .stageTConversion p code => Sys2Proof.Machine.execStageTConversion p code s
  | .currentShareUpdate r => Sys2Proof.Machine.execCurrentShareUpdate r s
  | .trimLimit p => Sys2Proof.Machine.execTrimLimit p s
  | .shareShift r => Sys2Proof.Machine.execShareShift r s
  | .shiftLimit r => Sys2Proof.Machine.execShiftLimit r s
  | .pwmPeriod p => Sys2Proof.Machine.execPwmPeriod p s
  | .zeroCrossing p => Sys2Proof.Machine.execZeroCrossing p s
  | .phaseRemove r => Sys2Proof.Machine.execPhaseRemove r s
  | .joinComplete p => Sys2Proof.Machine.execJoinComplete p s
  | .vppRampDown r => Sys2Proof.Machine.execVppRampDown r s
  | .vinRead r word => Sys2Proof.Machine.execVinRead r word s
  | .vinStale r => Sys2Proof.Machine.execVinStale r s
  | .pmbAlert addr word => Sys2Proof.Machine.execPmbAlert addr word s
  | .pmbusTimeout addr cmd cause retried => Sys2Proof.Machine.execPmbusTimeout addr cmd cause retried s
  | .overloadCheck r => Sys2Proof.Machine.execOverloadCheck r s
  | .overloadShutdown r => Sys2Proof.Machine.execOverloadShutdown r s
  | .scTrip p => Sys2Proof.Machine.execScTrip p s
  | .stageFault p pin => Sys2Proof.Machine.execStageFault p pin s
  | .pwmReadback p pad other => Sys2Proof.Machine.execPwmReadback p pad other s
  | .overvoltage r => Sys2Proof.Machine.execOvervoltage r s
  | .undervoltage r lowest => Sys2Proof.Machine.execUndervoltage r lowest s
  | .senseCheck rises => Sys2Proof.Machine.execSenseCheck rises s
  | .pmbusConfigDone fails => Sys2Proof.Machine.execPmbusConfigDone fails s
  | .phaseIdentify p code padsOk scFired otherSeen => Sys2Proof.Machine.execPhaseIdentify p code padsOk scFired otherSeen s
  | .rampStart r => Sys2Proof.Machine.execRampStart r s
  | .reached r => Sys2Proof.Machine.execReached r s
  | .startTimeout r => Sys2Proof.Machine.execStartTimeout r s
  | .rampDownDone r => Sys2Proof.Machine.execRampDownDone r s
  | .fastStopLevel r => Sys2Proof.Machine.execFastStopLevel r s
  | .frecCommitted ok => Sys2Proof.Machine.execFrecCommitted ok s
  | .frecSlotLoaded => Sys2Proof.Machine.execFrecSlotLoaded s
  | .crowbarReleased => Sys2Proof.Machine.execCrowbarReleased s
  | .faultClear => Sys2Proof.Machine.execFaultClear s
  | .phaseFaultClear clear => Sys2Proof.Machine.execPhaseFaultClear clear s
  | .railVreqGo v => Sys2Proof.Machine.execRailVreqGo v s
  | .railSlewWrite v => Sys2Proof.Machine.execRailSlewWrite v s
  | .railTelClr => Sys2Proof.Machine.execRailTelClr s
  | .railShedWrite currents v => Sys2Proof.Machine.execRailShedWrite currents v s
  | .ddDepthWrite depth => Sys2Proof.Machine.execDdDepthWrite depth s
  | .loopClModeGo v => Sys2Proof.Machine.execLoopClModeGo v s
  | .loopTgtWrite v => Sys2Proof.Machine.execLoopTgtWrite v s
  | .fbForceWrite v => Sys2Proof.Machine.execFbForceWrite v s
  | .clrLatch => Sys2Proof.Machine.execClrLatch s
  | .capSet v => Sys2Proof.Machine.execCapSet v s
  | .clrRsn => Sys2Proof.Machine.execClrRsn s
  | .clrOd => Sys2Proof.Machine.execClrOd s
  | .clrFlt => Sys2Proof.Machine.execClrFlt s
  | .dcPrioWrite v => Sys2Proof.Machine.execDcPrioWrite v s
  | .dcFloorWrite v => Sys2Proof.Machine.execDcFloorWrite v s
  | .txCfgWrite v => Sys2Proof.Machine.execTxCfgWrite v s
  | .clrAcc => Sys2Proof.Machine.execClrAcc s
  | .fcDefault => Sys2Proof.Machine.execFcDefault s
  | .hintClassSet perm k v => Sys2Proof.Machine.execHintClassSet perm k v s
  | .hintOp src q ctx cls intensity lead => Sys2Proof.Machine.execHintOp src q ctx cls intensity lead s
  | .releaseHint src q ctx lead => Sys2Proof.Machine.execReleaseHint src q ctx lead s
  | .hintExpire c e => Sys2Proof.Machine.execHintExpire c e s
  | .hintEvaluate c e => Sys2Proof.Machine.execHintEvaluate c e s
  | .hintTrustBack ctx => Sys2Proof.Machine.execHintTrustBack ctx s
  | .pageLanded => Sys2Proof.Machine.execPageLanded s
  | .tlyCubeErr cube slot ins => Sys2Proof.Machine.execTlyCubeErr cube slot ins s
  | .tlyStoreEcc store addr slot corrected => Sys2Proof.Machine.execTlyStoreEcc store addr slot corrected s
  | .clrSat => Sys2Proof.Machine.execClrSat s
  | .synSet src q ctx obj => Sys2Proof.Machine.execSynSet src q ctx obj s
  | .synClear src q ctx obj => Sys2Proof.Machine.execSynClear src q ctx obj s
  | .waitSet src q ctx obj tmo => Sys2Proof.Machine.execWaitSet src q ctx obj tmo s
  | .waitClear src q ctx obj tmo => Sys2Proof.Machine.execWaitClear src q ctx obj tmo s
  | .synInc src q ctx obj amount => Sys2Proof.Machine.execSynInc src q ctx obj amount s
  | .synDec src q ctx obj amount => Sys2Proof.Machine.execSynDec src q ctx obj amount s
  | .waitGe src q ctx obj n tmo => Sys2Proof.Machine.execWaitGe src q ctx obj n tmo s
  | .barrierArrive src q ctx obj tmo => Sys2Proof.Machine.execBarrierArrive src q ctx obj tmo s
  | .epResponseTaken lane => Sys2Proof.Machine.execEpResponseTaken lane s
  | .synTimeout w => Sys2Proof.Machine.execSynTimeout w s
  | .synWatchdogFire core => Sys2Proof.Machine.execSynWatchdogFire core s
  | .synEcc obj corrected => Sys2Proof.Machine.execSynEcc obj corrected s
  | .escrowLend core => Sys2Proof.Machine.execEscrowLend core s
  | .synCtrlClr => Sys2Proof.Machine.execSynCtrlClr s
  | .synCoreCfgWrite v => Sys2Proof.Machine.execSynCoreCfgWrite v s
  | .escCfgWrite v => Sys2Proof.Machine.execEscCfgWrite v s
  | .clearingRound => Sys2Proof.Machine.execClearingRound s
  | .mailboxPoll l words => Sys2Proof.Machine.execMailboxPoll l words s
  | .msgReread l words => Sys2Proof.Machine.execMsgReread l words s
  | .join l m => Sys2Proof.Machine.execJoin l m s
  | .accept l m => Sys2Proof.Machine.execAccept l m s
  | .stateMsg l m => Sys2Proof.Machine.execStateMsg l m s
  | .offer l m => Sys2Proof.Machine.execOffer l m s
  | .lease l m => Sys2Proof.Machine.execLease l m s
  | .returnMsg l m => Sys2Proof.Machine.execReturnMsg l m s
  | .leave l m => Sys2Proof.Machine.execLeave l m s
  | .returnSend l id => Sys2Proof.Machine.execReturnSend l id s
  | .ackMiss l => Sys2Proof.Machine.execAckMiss l s
  | .clrLeaseExpired l id => Sys2Proof.Machine.execClrLeaseExpired l id s
  | .joinRetry l => Sys2Proof.Machine.execJoinRetry l s
  | .clrCfgWrite v => Sys2Proof.Machine.execClrCfgWrite v s
  | .clrLnkEnWrite en => Sys2Proof.Machine.execClrLnkEnWrite en s
  | .clrCtrlClr => Sys2Proof.Machine.execClrCtrlClr s
  | .doorbellWrite c v => Sys2Proof.Machine.execDoorbellWrite c v s
  | .descriptorFetch c words x => Sys2Proof.Machine.execDescriptorFetch c words x s
  | .fetchRetry c words x => Sys2Proof.Machine.execFetchRetry c words x s
  | .irqGap c => Sys2Proof.Machine.execIrqGap c s
  | .hifNegGo => Sys2Proof.Machine.execHifNegGo s
  | .c0RingEnWrite v => Sys2Proof.Machine.execC0RingEnWrite v s
  | .hifCtrlClr => Sys2Proof.Machine.execHifCtrlClr s
  | .nop h => Sys2Proof.Machine.execNop h s
  | .identify h => Sys2Proof.Machine.execIdentify h s
  | .warmResetDesc h key => Sys2Proof.Machine.execWarmResetDesc h key s
  | .controlStart h clusters => Sys2Proof.Machine.execControlStart h clusters s
  | .ctxOpen h o => Sys2Proof.Machine.execCtxOpen h o s
  | .ctxClose h ctx => Sys2Proof.Machine.execCtxClose h ctx s
  | .ctxParam h ctx weight cls grant => Sys2Proof.Machine.execCtxParam h ctx weight cls grant s
  | .ctxPlace h ctx cores => Sys2Proof.Machine.execCtxPlace h ctx cores s
  | .floorSet h ctx floor => Sys2Proof.Machine.execFloorSet h ctx floor s
  | .ctxTelem h ctx addr => Sys2Proof.Machine.execCtxTelem h ctx addr s
  | .railCtrlStart h rails => Sys2Proof.Machine.execRailCtrlStart h rails s
  | .railCtrlStop h rails => Sys2Proof.Machine.execRailCtrlStop h rails s
  | .amBaseline h monitors x => Sys2Proof.Machine.execAmBaseline h monitors x s
  | .tlyInstall h o x => Sys2Proof.Machine.execTlyInstall h o x s
  | .tlyRemove h entry => Sys2Proof.Machine.execTlyRemove h entry s
  | .tlySetReg h set hdr page x => Sys2Proof.Machine.execTlySetReg h set hdr page x s
  | .tlySetRemove h set => Sys2Proof.Machine.execTlySetRemove h set s
  | .slotTable h addr nslot x => Sys2Proof.Machine.execSlotTable h addr nslot x s
  | .loopCoef h o => Sys2Proof.Machine.execLoopCoef h o s
  | .vftLoad h cluster addr x => Sys2Proof.Machine.execVftLoad h cluster addr x s
  | .hintClassEntry h cls value => Sys2Proof.Machine.execHintClassEntry h cls value s
  | .hintClassPerm h ctx word value => Sys2Proof.Machine.execHintClassPerm h ctx word value s
  | .synActSet h obj => Sys2Proof.Machine.execSynActSet h obj s
  | .synActClear h obj => Sys2Proof.Machine.execSynActClear h obj s
  | .adjust h obj value => Sys2Proof.Machine.execAdjust h obj value s
  | .releaseWaiter h entry => Sys2Proof.Machine.execReleaseWaiter h entry s
  | .failWaiter h entry => Sys2Proof.Machine.execFailWaiter h entry s
  | .resetWindow h force window => Sys2Proof.Machine.execResetWindow h force window s
  | .setKind h window kind => Sys2Proof.Machine.execSetKind h window kind s
  | .groupDef h group p members => Sys2Proof.Machine.execGroupDef h group p members s
  | .synMap h o => Sys2Proof.Machine.execSynMap h o s
  | .synRead h kind index => Sys2Proof.Machine.execSynRead h kind index s
  | .clrConfig h o => Sys2Proof.Machine.execClrConfig h o s
  | .clrLink h o => Sys2Proof.Machine.execClrLink h o s
  | .dmaXfer h op x => Sys2Proof.Machine.execDmaXfer h op x s
  | .dmaTransferDone chan ok n data bad => Sys2Proof.Machine.execDmaTransferDone chan ok n data bad s
  | .dmaStreamArm h op x => Sys2Proof.Machine.execDmaStreamArm h op x s
  | .dmaStreamStop h chan => Sys2Proof.Machine.execDmaStreamStop h chan s
  | .streamPeriod chan => Sys2Proof.Machine.execStreamPeriod chan s
  | .captureSweep => Sys2Proof.Machine.execCaptureSweep s
  | .dmaCtrlClr => Sys2Proof.Machine.execDmaCtrlClr s
  | .stopStreams => Sys2Proof.Machine.execStopStreams s
  | .ldgDrain h max_ addr => Sys2Proof.Machine.execLdgDrain h max_ addr s
  | .ldgRearm h force => Sys2Proof.Machine.execLdgRearm h force s
  | .frecCopy h op => Sys2Proof.Machine.execFrecCopy h op s
  | .ledgerStore => Sys2Proof.Machine.execLedgerStore s
  | .ldwRec0Read ecc => Sys2Proof.Machine.execLdwRec0Read ecc s
  | .ldwRec7Read => Sys2Proof.Machine.execLdwRec7Read s
  | .ldwCursorWrite v => Sys2Proof.Machine.execLdwCursorWrite v s
  | .ldgCtrlClrLost => Sys2Proof.Machine.execLdgCtrlClrLost s
  | .limAlarmClear v => Sys2Proof.Machine.execLimAlarmClear v s
  | .loReadLatch addr => Sys2Proof.Machine.execLoReadLatch addr s
  | .digest0Read => Sys2Proof.Machine.execDigest0Read s
  | .fwQuery h => Sys2Proof.Machine.execFwQuery h s
  | .fwStage h o x => Sys2Proof.Machine.execFwStage h o x s
  | .fwActivateCold h x => Sys2Proof.Machine.execFwActivateCold h x s
  | .fwActivateWarm h x => Sys2Proof.Machine.execFwActivateWarm h x s
  | .fwLiveUpdate h => Sys2Proof.Machine.execFwLiveUpdate h s
  | .luPrepareDone => Sys2Proof.Machine.execLuPrepareDone s
  | .luHandoffDone digestOk => Sys2Proof.Machine.execLuHandoffDone digestOk s
  | .fwResumed => Sys2Proof.Machine.execFwResumed s
  | .fwSelfConfirmed => Sys2Proof.Machine.execFwSelfConfirmed s
  | .fwRollback => Sys2Proof.Machine.execFwRollback s
  | .fwConfirm h x => Sys2Proof.Machine.execFwConfirm h x s
  | .fwConfigStage h o x => Sys2Proof.Machine.execFwConfigStage h o x s
  | .fwSpdm h o x => Sys2Proof.Machine.execFwSpdm h o x s
  | .fuseIntegratorKey h index o x => Sys2Proof.Machine.execFuseIntegratorKey h index o x s
  | .fuseLimitGate h o x => Sys2Proof.Machine.execFuseLimitGate h o x s
  | .fuseBootSet h index o x => Sys2Proof.Machine.execFuseBootSet h index o x s
  | .fuseSvn h target x => Sys2Proof.Machine.execFuseSvn h target x s
  | .fuseRevokeIntegrator h index o x => Sys2Proof.Machine.execFuseRevokeIntegrator h index o x s
  | .fuseRevokeKolhidex h index o x => Sys2Proof.Machine.execFuseRevokeKolhidex h index o x s
  | .fwTokenNonce h o => Sys2Proof.Machine.execFwTokenNonce h o s
  | .fwTokenUnlock h o x => Sys2Proof.Machine.execFwTokenUnlock h o x s
  | .zeroiseVolatile h key => Sys2Proof.Machine.execZeroiseVolatile h key s
  | .zeroisePermanent h key x => Sys2Proof.Machine.execZeroisePermanent h key x s
  | .fwBoot => Sys2Proof.Machine.execFwBoot s
  | .fwCoreHang core => Sys2Proof.Machine.execFwCoreHang core s
  | .fwCoreBack t => Sys2Proof.Machine.execFwCoreBack t s
  | .fwVaultRestart result => Sys2Proof.Machine.execFwVaultRestart result s
  | .enterLp t => Sys2Proof.Machine.execEnterLp t s
  | .exitLp t => Sys2Proof.Machine.execExitLp t s
  | .audTest h kind index ret force => Sys2Proof.Machine.execAudTest h kind index ret force s
  | .audRemove h kind index ret force => Sys2Proof.Machine.execAudRemove h kind index ret force s
  | .audReturn h kind index => Sys2Proof.Machine.execAudReturn h kind index s
  | .audTestDone fail => Sys2Proof.Machine.execAudTestDone fail s
  | .audSchedule => Sys2Proof.Machine.execAudSchedule s
  | .audSchedWrite v => Sys2Proof.Machine.execAudSchedWrite v s
  | .audCtrlClr => Sys2Proof.Machine.execAudCtrlClr s
  | .extest => Sys2Proof.Machine.execExtest s
  | .idcode => Sys2Proof.Machine.execIdcode s
  | .samplePreload => Sys2Proof.Machine.execSamplePreload s
  | .clamp => Sys2Proof.Machine.execClamp s
  | .highz => Sys2Proof.Machine.execHighz s
  | .bypass => Sys2Proof.Machine.execBypass s
  | .wsBypass => Sys2Proof.Machine.execWsBypass s
  | .wsIdcode => Sys2Proof.Machine.execWsIdcode s
  | .mbistRead => Sys2Proof.Machine.execMbistRead s
  | .wsSafe => Sys2Proof.Machine.execWsSafe s
  | .wsExtest => Sys2Proof.Machine.execWsExtest s
  | .wsIntestScan => Sys2Proof.Machine.execWsIntestScan s
  | .mbistRun => Sys2Proof.Machine.execMbistRun s
  | .mbistDone fail => Sys2Proof.Machine.execMbistDone fail s
  | .registerWrite addr v => Sys2Proof.Machine.execRegisterWrite addr v s
  | .malformedRequest lane r => Sys2Proof.Machine.execMalformedRequest lane r s
  | .shortInterval => Sys2Proof.Machine.execShortInterval s
  | .hmRstNRelease => Sys2Proof.Machine.execHmRstNRelease s
  | .extensionEnd d => Sys2Proof.Machine.execExtensionEnd d s
  | .slotStart slot => Sys2Proof.Machine.execSlotStart slot s
  | .vrefStep r trk => Sys2Proof.Machine.execVrefStep r trk s
  | .borrowedLeaseExpiry l id => Sys2Proof.Machine.execBorrowedLeaseExpiry l id s
  | .autoZero p captures => Sys2Proof.Machine.execAutoZero p captures s
  | .sectorEraseDone => Sys2Proof.Machine.execSectorEraseDone s
  | .vaultReady => Sys2Proof.Machine.execVaultReady s
  | .fwSelftestFail test => Sys2Proof.Machine.execFwSelftestFail test s

end Sys2Proof.Machine
end

