-- ==== Sys2Proof/Machine/Step.lean ====
section
/-!
DEFINITION. One step of the block: the command at the front of the queue, or a nanosecond of block time.
-/
namespace Sys2Proof.Machine

/-- Nothing is commanded: block time advances by 1 ns while the block is live, and the on-times that are over end (R72, R147;
log entries 7 and 80). -/
def idle (s : State) : State := if s.live then pwmFall { s with now := s.now + 1 } else s

/-- One step: the command at the front runs on the state with the rest of the queue. -/
def step (s : State) : Host.Outcome State Fault Refusal :=
  match s.pending with
  | [] => .next (idle s)
  | c :: rest => exec c { s with pending := rest }

/-- The state with the command that a word spells at the front of its queue; unchanged where the word spells none. -/
def State.withFetchWord (s : State) (nbits w : Nat) : State :=
  match decodeTableWord nbits w with
  | some c => { s with pending := c :: s.pending }
  | none => s

end Sys2Proof.Machine
end

