-- ==== Sys2Proof/Safety.lean ====
section
/-!
DEFINITION. The terms that claims use: the parts of the state, what it means that only some parts change, and what a
safe run of the block is.
-/
namespace Sys2Proof.Machine

/-- The parts of the state, one name for each field of `State`. -/
inductive Area where
  | now | pwr | cfg | fuse | tb | frm | clk | sns | rail | frec | loop | hm | hs | ep | cp | hif | dma | ldg | fw | tly
  | fc | trs | syn | clr | aud | ho | free | pending
  /-- the records that wait in the source queues of Ledger -/
  | queues
deriving DecidableEq, Repr

/-- Area `p` of `t` is part `p` of `s`; for the source queues of Ledger, nothing that waited has left its queue. -/
def Same (s t : State) : Area → Prop
  | .now => t.now = s.now
  | .pwr => t.pwr = s.pwr
  | .cfg => t.cfg = s.cfg
  | .fuse => t.fuse = s.fuse
  | .tb => t.tb = s.tb
  | .frm => t.frm = s.frm
  | .clk => t.clk = s.clk
  | .sns => t.sns = s.sns
  | .rail => t.rail = s.rail
  | .frec => t.frec = s.frec
  | .loop => t.loop = s.loop
  | .hm => t.hm = s.hm
  | .hs => t.hs = s.hs
  | .ep => t.ep = s.ep
  | .cp => t.cp = s.cp
  | .hif => t.hif = s.hif
  | .dma => t.dma = s.dma
  | .ldg => t.ldg = s.ldg
  | .fw => t.fw = s.fw
  | .tly => t.tly = s.tly
  | .fc => t.fc = s.fc
  | .trs => t.trs = s.trs
  | .syn => t.syn = s.syn
  | .clr => t.clr = s.clr
  | .aud => t.aud = s.aud
  | .ho => t.ho = s.ho
  | .free => t.free = s.free
  | .pending => t.pending = s.pending
  | .queues => ∀ k, Tbl.get [] s.ldg.queues k <+: Tbl.get [] t.ldg.queues k

/-- From `s` to `t` every part is unchanged but, perhaps, those listed. -/
structure Only (ps : List Area) (s t : State) : Prop where
  same : ∀ p, p ∉ ps → Same s t p

/-- Ledger as it should be: the write position stays within the store, the store is in canonical form with nothing
listed at or above the write position, and no source has more than 8 records queued (R403, R404). -/
structure Ledger.Ok (l : Ledger) : Prop where
  full : l.w ≤ 16384
  canon : Tbl.wf {} l.store = true
  below : ∀ e ∈ l.store, e.1 < l.w
  queues : ∀ e ∈ l.queues, e.2.length ≤ 8

/-- The waiter store is in canonical form: each entry of a queue stands once (R327). -/
def WaitersOk (s : State) : Prop := Tbl.wf none s.syn.wtr = true

/-- Serial NOR has two image slots and two configuration copies (R422, R428). -/
def SlotsOk (s : State) : Prop :=
  s.fw.slotSt.length = 2 ∧ s.fw.img.length = 2 ∧ s.fw.last.length = 2 ∧ s.fw.copy.length = 2

/-- No warm reset waits for a completion, and a cold reset in progress is of cause 0 or 1 (R472). -/
def ResetCauseOk (s : State) : Prop := s.pwr.wantWarm = none ∧ (s.pwr.step = 0 → s.pwr.cause ≤ 1)

/-- The queue of a source has room for a record (R403). -/
def QRoom (src : Nat) (s : State) : Prop := (Tbl.get [] s.ldg.queues src).length < 8

/-- Between `s` and `t` a record with this code, these parameters and the present block time has joined the queue of its
source (R402, R403). -/
def Logs (src code p0 p1 p2 p3 : Nat) (s t : State) : Prop :=
  ∃ l, Tbl.get [] s.ldg.queues src ++ l <+: Tbl.get [] t.ldg.queues src ∧
    ∃ r ∈ l, r.code = code ∧ r.source = src ∧ r.time = s.now ∧ r.hold = s.tb.hold ∧
      r.p0 = satU 32 p0 ∧ r.p1 = satU 32 p1 ∧ r.p2 = satU 32 p2 ∧ r.p3 = satU 32 p3

/-- A write of an emulated register is performed: the block is live, firmware answers and the interface versions match
(R34). -/
def Emulates (s : State) : Prop := s.live = true ∧ s.fwUp = true ∧ s.hif.mismatch = false

/-- The outputs as a power-on reset holds them: every `PEN` low, every domain clock stopped, every cluster stopped with
ceiling 0 (R23). -/
def OutputsOff (s t : State) : Prop :=
  (∀ p < 128, (t.getPh p).pen = false) ∧ (∀ d ∈ s.doms, (t.getDom d).stopped = true) ∧
    ∀ c ∈ s.clusters, (t.getClu c).st = 0 ∧ (t.getClu c).a = 0 ∧ (t.getClu c).ceil = 0

/-- No close of the context waits for a descriptor in progress (Table 14.9). -/
def NoClose (c : Nat) (s : State) : Prop := (s.getCtx c).closing = none ∧ (s.getCtx c).closeC0 = false

/-- The descriptor at the head of its context may start, and it passes every check of Table 14.4 (R377, R378, R383). -/
def Runs (h : DescHdr) (d : DescSpec) (s : State) : Prop :=
  s.live = true ∧ descMay h.ctx.val s = true ∧ s.hm.inReset = false ∧ descCheck h d s = 0 ∧ NoClose h.ctx.val s

/-- The header of a command that performs a descriptor, and what Table 14.5, 15.9, 16.14 or 17.4 says of its opcode. -/
def descRow : Instr → Option (DescHdr × DescSpec)
  | .audTest h _ _ _ _ => some (h, descAudTest)
  | .audRemove h _ _ _ _ => some (h, descAudRemove)
  | .audReturn h _ _ => some (h, descAudReturn)
  | .tlyInstall h o _ => some (h, descTlyInstall o)
  | .tlyRemove h _ => some (h, descTlyRemove)
  | .tlySetReg h _ hdr page _ => some (h, descTlySetReg hdr page)
  | .tlySetRemove h _ => some (h, descTlySetRemove)
  | .slotTable h addr nslot _ => some (h, descSlotTable addr nslot)
  | .loopCoef h _ => some (h, descLoopCoef)
  | .vftLoad h _ addr _ => some (h, descVftLoad addr)
  | .hintClassEntry h _ _ => some (h, descHintClass)
  | .hintClassPerm h _ _ _ => some (h, descHintClass)
  | .synActSet h _ => some (h, descSynAct)
  | .synActClear h _ => some (h, descSynAct)
  | .adjust h _ _ => some (h, descSynAct)
  | .releaseWaiter h _ => some (h, descSynAct)
  | .failWaiter h _ => some (h, descSynAct)
  | .resetWindow h _ _ => some (h, descSynAct)
  | .setKind h _ _ => some (h, descSynAct)
  | .groupDef h _ _ _ => some (h, descSynAct)
  | .synMap h _ => some (h, descSynMap)
  | .synRead h _ _ => some (h, descSynRead)
  | .clrConfig h _ => some (h, descClrConfig)
  | .clrLink h o => some (h, descClrLink o)
  | .dmaXfer h _ _ => some (h, descDmaXfer)
  | .dmaStreamArm h _ _ => some (h, descDmaStream)
  | .dmaStreamStop h _ => some (h, descDmaStream)
  | .ldgDrain h _ _ => some (h, descLdgDrain)
  | .ldgRearm h _ => some (h, descLdgRearm)
  | .frecCopy h _ => some (h, descFrecCopy)
  | .warmResetDesc h _ => some (h, descWarmReset)
  | .fwQuery h => some (h, descFwQuery)
  | .fwStage h o _ => some (h, descFwStage o)
  | .fwActivateCold h _ => some (h, descActivate 0)
  | .fwActivateWarm h _ => some (h, descActivate 1)
  | .fwConfirm h _ => some (h, descFwConfirm)
  | .fwConfigStage h o _ => some (h, descConfigStage o)
  | .fwSpdm h o _ => some (h, descSpdm o)
  | .fuseIntegratorKey h _ o _ => some (h, descFuse o)
  | .fuseLimitGate h o _ => some (h, descFuse o)
  | .fuseBootSet h _ o _ => some (h, descFuse o)
  | .fuseSvn h _ _ => some (h, descFuseSvn)
  | .fuseRevokeIntegrator h _ o _ => some (h, descFuse o)
  | .fuseRevokeKolhidex h _ o _ => some (h, descFuse o)
  | .fwTokenNonce h o => some (h, descToken o.addr 16)
  | .fwTokenUnlock h o _ => some (h, descToken o.addr o.len)
  | .zeroiseVolatile h _ => some (h, descZeroise)
  | .zeroisePermanent h _ _ => some (h, descZeroise)
  | .fwLiveUpdate h => some (h, descLive)
  | .nop h => some (h, descNop)
  | .identify h => some (h, descIdentify)
  | .controlStart h _ => some (h, descControlStart)
  | .ctxOpen h _ => some (h, descCtxOpen)
  | .ctxClose h _ => some (h, descCtxClose)
  | .ctxParam h _ _ _ _ => some (h, descCtxParam)
  | .ctxPlace h _ _ => some (h, descCtxPlace)
  | .floorSet h ctx _ => some (h, descFloorSet ctx)
  | .ctxTelem h ctx addr => some (h, descCtxTelem ctx addr)
  | .amBaseline h _ _ => some (h, descAmBaseline)
  | .railCtrlStart h _ => some (h, descRailCtrl)
  | .railCtrlStop h _ => some (h, descRailCtrl)
  | _ => none

/-- A request of engine queue `q` of engine `src` is accepted at once: the engine is configured, the queue has none
outstanding, and its lane has room for the response (R40–R44). -/
def Accepts (src q : Nat) (s : State) : Prop :=
  s.live = true ∧ s.engineOk src = true ∧ s.queueBusy (s.laneOf src) src q = false ∧
    (s.getEp (s.laneOf src)).resp.length < 64

/-- Context `ctx` may use object `o`, which is not poisoned and is a count or a flag (Table 12.3). -/
def MayUse (ctx o : Nat) (count : Bool) (s : State) : Prop :=
  s.mapHas ctx (o / 64) = true ∧ (s.getObj o).poison = false ∧ (s.getObj o).count = count

/-- From `s` to `t` lane `l` has given, first of all, this response to engine queue `q` of engine `src`. -/
def Responds (l src q stat val : Nat) (s t : State) : Prop :=
  (s.getEp l).resp ++ [{ rsrc := src, rq := q, rstat := stat, rval := val }] <+: (t.getEp l).resp

/-- From `s` to `t` this posted write has been issued on the manager port, or is held for the end of its reset (R37,
R39). -/
def Posts (w : HmWrite) (s t : State) : Prop :=
  if s.hm.inReset || !s.hm.held.isEmpty then ∃ a b, t.hm.held = s.hm.held ++ a ++ w :: b else ∃ a b, t.hm.out = s.hm.out ++ a ++ w :: b

/-- From `s` to `t` the completion of descriptor `h` with this opcode, status and result has been written to the ring of
its context (R374, R377). -/
def Completes (h : DescHdr) (op status result : Nat) (s t : State) : Prop :=
  ∃ a e, Posts (.cqe h.ctx a (cqeBytes e)) s t ∧ e.tag = h.tag ∧ e.opcode = op ∧ e.status = status ∧ e.result = result ∧
    e.event = false

/-- From `s` to `t` a Clearing message of this type, amount, lease and cause has been written to the ring of link `l`
(R343, Table 13.2). -/
def SendsMsg (l typ amount leaseId cause : Nat) (s t : State) : Prop :=
  ∃ seq w, Posts (.msg ((s.getLnk l).addr + 128 * (seq % 8)) w) s t ∧ bits (w.getD 0 0) 24 8 = typ ∧
    bits (w.getD 12 0) 16 16 = satU 16 amount ∧ w.getD 13 0 = leaseId % 2 ^ 32 ∧ bits (w.getD 14 0) 16 16 = cause % 2 ^ 16

/-- A message of link `l` that the running block reads, new on its link, and that passes every check (R344). -/
def Receives (l typ : Nat) (m : ClrMsg) (s : State) : Prop :=
  s.live = true ∧ s.clrUp = true ∧ s.hm.inReset = false ∧ ((s.getLnk l).en = true ∨ typ = 1) ∧ clrNew l typ m s = true ∧ clrCheck l typ m s = 0

end Sys2Proof.Machine
end

