-- ==== Sys2Proof/Certificates/Slice0/Obligations.lean ====
section
/-!
DEFINITION. The statements for the provers. Each docstring names the rules of spec/ that its statement follows.
-/
open Sys2Proof Sys2Proof.Machine

/-- One step runs the command at the front of the queue on the state with the rest of the queue. -/
def Obligations.StepRunsFrontCommand : Prop :=
  ∀ (s : State) (c : Instr) (rest : List Instr), s.pending = c :: rest → step s = exec c { s with pending := rest }

/-- The model's choice (log entries 7 and 80): with nothing commanded, block time advances by 1 ns while the block is
live, the `PWM` of each phase whose on-time is over falls (R147), and nothing else changes. R72, with the model's choice
of log entry 7: no step but a cold reset moves block time back, and it advances by at most 1 ns, and only when nothing
is commanded. -/
def Obligations.IdleStepAndBlockTime : Prop :=
  (∀ s : State, s.pending = [] →
     (s.live = true → ∃ t, step s = .next t ∧ t.now = s.now + 1 ∧
       (∀ p < 128, t.getPh p =
         if (s.getPh p).pwm = true ∧ (s.getPh p).fallAt ≤ s.now + 1 then { s.getPh p with pwm := false } else s.getPh p) ∧
       t.rail = { s.rail with ph := t.rail.ph } ∧ Only [.now, .rail] s t) ∧
     (s.live = false → step s = .next s)) ∧
  (∀ s t : State, step s = .next t →
     (∀ v r x n p, s.pending.head? ≠ some (.coldReset v r x n p)) →
       s.now ≤ t.now ∧ t.now ≤ s.now + 1 ∧ (s.pending ≠ [] → t.now = s.now))

/-- Every step takes exactly one command off the queue, if there is one, and answers a next state: no command of the
table ends in a fault or a refusal, and none adds a command. -/
def Obligations.EveryStepConsumesOneCommand : Prop :=
  ∀ s : State, ∃ t, step s = .next t ∧ t.pending = s.pending.tail

/-- R431: the sampled fuses of the limit gate change at no step but one whose command is COLD_RESET. -/
def Obligations.LimitGateLockedBetweenColdResets : Prop :=
  ∀ s t : State, step s = .next t →
    (∀ v r x n p, s.pending.head? ≠ some (.coldReset v r x n p)) → t.fuse = s.fuse

/-- The stores of the block keep their form (R327, R403, R404, R422, R428): no step leaves more than 16,384 records
stored or lists one at or above the write position, queues more than 8 of a source, lists a wait twice, or loses an
image slot or a configuration copy, from any state in which that holds; reset is such a state. -/
def Obligations.StoresKeepTheirForm : Prop :=
  (∀ s t : State, step s = .next t →
    (s.ldg.Ok → t.ldg.Ok) ∧ (WaitersOk s → WaitersOk t) ∧ (SlotsOk s → SlotsOk t)) ∧
    State.reset.ldg.Ok ∧ WaitersOk State.reset ∧ SlotsOk State.reset

/-- R409, R404, R373: at reset Ledger is empty and armed, `SEQ` is 0, no command waits, block time is 0 and counts on
the holding oscillator, the root is not locked, and firmware does not run. -/
def Obligations.ResetState : Prop :=
  State.reset.ldg.w = 0 ∧ State.reset.ldg.r = 0 ∧ State.reset.ldg.seq = 0 ∧ State.reset.ldg.drop = 0 ∧
    State.reset.now = 0 ∧ State.reset.tb.hold = true ∧ State.reset.clk.root.locked = false ∧
    State.reset.clk.ref.stable = false ∧ State.reset.fw.run = false ∧ State.reset.pwr.alarm = 0 ∧
    State.reset.pending = [] ∧ (∀ d, (State.reset.getDom d).stopped = true) ∧ (∀ p, (State.reset.getPh p).pen = false)

/-- R95, R96: a judgement window ends. It is inside when its duration lies within ±1 % of 256 periods of the `REFSEL`
frequency; the count then rises by one, and otherwise, while the reference is not yet stable, it restarts at 0.
`CLK_REF_FREQ` reports the window either way. R96, R102: with the 1,024th consecutive window inside the reference is
stable: block time leaves the holding oscillator, and the PLL begins to lock to the boot root within the fused
maximum. R96: a missing edge or a short interval while the reference is not yet stable only restarts the windows.
Completes: REF_WINDOW_END, REF_LOSS, SHORT_INTERVAL. -/
def Obligations.ReferenceJudgedStable : Prop :=
  (∀ (s : State) (durPs f : Nat), s.live = true → s.clk.ref.stable = false → refHz s.pwr.refsel = some f →
     let inside := 99 * f * durPs ≤ 100 * 256 * 10 ^ 12 ∧ 100 * 256 * 10 ^ 12 ≤ 101 * f * durPs
     (inside → s.clk.ref.goodWin < 1023 →
       exec (.refWindowEnd durPs) s = .next (s.onClk fun k =>
         { k with ref := { k.ref with freqKHz := windowKHz durPs, goodWin := s.clk.ref.goodWin + 1 } })) ∧
     (¬ inside →
       exec (.refWindowEnd durPs) s = .next (s.onClk fun k =>
         { k with ref := { k.ref with freqKHz := windowKHz durPs, goodWin := 0 } }))) ∧
  (∀ (s : State) (durPs : Nat), s.live = true → s.clk.ref.stable = false → s.clk.ref.needDrift = false →
     windowInside s.pwr.refsel durPs = true → 1023 ≤ s.clk.ref.goodWin → s.clk.root.everLocked = false →
     ∃ t, exec (.refWindowEnd durPs) s = .next t ∧
       t.clk.ref.stable = true ∧ t.clk.ref.present = true ∧ t.tb.hold = false ∧ t.tb.holdEnd = some s.now ∧
       t.clk.root.nTgt = min s.cfg.nBoot s.fuse.nMax ∧
       (∃ c, t.clk.root.change = some c ∧ c.phase = 3 ∧ c.kind = 1 ∧ c.newN = min s.cfg.nBoot s.fuse.nMax ∧
         c.relockStart = s.now) ∧
       (∀ d, t.getDom d = s.getDom d) ∧ Only [.pwr, .tb, .clk, .hm, .hif, .ldg] s t) ∧
  (∀ s : State, s.live = true → s.clk.ref.stable = false →
     exec .refLoss s = .next (s.onClk fun k => { k with ref := { k.ref with goodWin := 0 } }) ∧
     exec .shortInterval s = .next (s.onClk fun k => { k with ref := { k.ref with goodWin := 0 } }))

/-- R97, R114: while the reference is stable a missing edge (cause 1), a short interval (cause 2) and a window outside
(cause 3) lose it: block time continues on the holding oscillator, the root is held and not locked, every clock is
stopped, and the alarm is set; fuses, sensing and the fault records are untouched. Completes: REF_LOSS,
SHORT_INTERVAL, REF_WINDOW_END. -/
def Obligations.ReferenceLost : Prop :=
  ∀ (s : State) (durPs : Nat), s.live = true → s.clk.ref.stable = true →
    ∀ (c : Instr) (cause : Nat),
      (c = .refLoss ∧ cause = 1) ∨ (c = .shortInterval ∧ cause = 2) ∨
        (c = .refWindowEnd durPs ∧ cause = 3 ∧ windowInside s.pwr.refsel durPs = false) →
      ∃ t, exec c s = .next t ∧
        t.clk.ref.stable = false ∧ t.clk.ref.present = false ∧ t.clk.ref.goodWin = 0 ∧ t.clk.ref.lossCause = cause ∧
        t.clk.ref.lossTime = s.now ∧ t.clk.ref.lossCnt = (s.clk.ref.lossCnt + 1) % 2 ^ 32 ∧
        t.clk.root.held = true ∧ t.clk.root.locked = false ∧ t.clk.root.change = none ∧
        t.tb.hold = true ∧ t.tb.holdStart = s.now ∧ t.tb.holdEnd = none ∧
        (∀ d ∈ s.doms, (t.getDom d).stopped = true ∧ (t.getDom d).guard = 0) ∧ bitOf t.pwr.alarm 0 = true ∧
        Only [.pwr, .tb, .clk, .loop, .hm, .hif, .ldg, .fw, .trs, .syn, .clr] s t

/-- R104, R116: a host root request. A target outside 160–320 or above the fused maximum is refused with ROOT_RANGE,
one while a loop is in automatic with ROOT_OWNED, one without a reference or after PLL_FAIL with ROOT_BUSY; otherwise
it is the newest waiting request. R104, R106 step 1: a waiting root change starts once 1 ms has passed since the last;
every running domain whose divider lies below its guard is sent the guard, and the change stays in step 1 while a leaf
has not acknowledged it. R106 steps 2 and 3: with every leaf's guard acknowledged and every phase on the oscillator
the PLL relocks to the new root, not locked and guarded meanwhile. Completes: ROOT_REQ_GO, ROOT_CHANGE_START,
ROOT_TIMEBASE_MOVED. -/
def Obligations.RootRequestedAndChanged : Prop :=
  (∀ (s : State) (n : Fin 512), Emulates s →
     let range := 160 ≤ n.val ∧ n.val ≤ 320 ∧ n.val ≤ s.fuse.nMax
     let refuse := fun st => hsAnswer 0 0 (s.onClk fun k => { k with root := { k.root with reqN := n.val, res := st } })
     (¬ range → exec (.rootReqGo n) s = .next (refuse 0x1020)) ∧
     (range → s.anyAuto = true → exec (.rootReqGo n) s = .next (refuse 0x1021)) ∧
     (range → s.anyAuto = false → (s.clk.root.pllFail = true ∨ s.clk.ref.present = false) →
       exec (.rootReqGo n) s = .next (refuse 0x1022)) ∧
     (range → s.anyAuto = false → s.clk.root.pllFail = false → s.clk.ref.present = true →
       exec (.rootReqGo n) s = .next (hsAnswer 0 0 (s.onClk fun k =>
         { k with root := { k.root with
           reqN := n.val, nTgt := n.val, waiting := some (n.val, 2), hostPend := true } })))) ∧
  (∀ (s : State) (n cause d0 : Nat), s.live = true → s.clk.root.waiting = some (n, cause) → rootMay s = true →
     d0 ∈ s.doms → (s.getDom d0).stopped = false → (s.getDom d0).code < guardCode s d0 s.clk.root.nCur n →
     ∃ t, exec .rootChangeStart s = .next t ∧ t.clk.root.waiting = none ∧
       (∃ c, t.clk.root.change = some c ∧ c.phase = 1 ∧ c.oldN = s.clk.root.nCur ∧ c.newN = n ∧ c.cause = cause) ∧
       (∀ d ∈ s.doms, (t.getDom d).guard = guardCode s d s.clk.root.nCur n ∧
         ((s.getDom d).stopped = false → (s.getDom d).code < guardCode s d s.clk.root.nCur n →
           (t.getDom d).sent = some (guardCode s d s.clk.root.nCur n))) ∧
       t.clk.ref = s.clk.ref ∧ Only [.clk, .loop, .hm, .hif, .ldg] s t) ∧
  (∀ (s : State) (c : RootChange), s.live = true → s.clk.root.change = some c → c.phase = 1 →
     (∀ d ∈ s.doms, (s.getDom d).sent = none) → (∀ p ∈ s.modulating, (s.getPh p).osc = true) →
     exec .rootTimebaseMoved s = .next (s.onClk fun k => { k with root := { k.root with
       change := some { c with phase := 3, relockStart := s.now }, locked := false, guard := true } }))

/-- R103, R106, R107: within 20 µs of the relock the PLL is locked to the new root, or after a retry to the old one;
without a lock it relocks to the old one and logs RELOCK_RETRY; when that fails as well, PLL_FAIL holds the root,
stops every clock and sets the alarm; every 100 ms after it the old root is tried again. Completes: PLL_LOCK,
RELOCK_RETRY, PLL_FAIL, PLL_FAIL_RETRY. -/
def Obligations.PllLockRetryAndFail : Prop :=
  ∀ (s : State) (c : RootChange), s.live = true →
    (s.clk.root.change = some c → c.phase = 3 → c.kind = 0 → s.now ≤ c.relockStart + 20000 →
      (∃ p ∈ s.modulating, (s.getPh p).osc = true) →
      exec .pllLock s = .next (s.onClk fun k => { k with root := { k.root with
        locked := true, held := false, nCur := if c.retry then c.oldN else c.newN,
        change := some { c with phase := 4, lockTime := s.now - c.relockStart } } })) ∧
    (s.clk.root.change = some c → c.phase = 3 → c.kind ≠ 3 → c.retry = false → c.relockStart + 20000 ≤ s.now →
      ∃ t, exec .relockRetry s = .next t ∧ t.clk.root.change = some { c with retry := true, relockStart := s.now } ∧
        t.clk.root.locked = s.clk.root.locked ∧ (∀ d, t.getDom d = s.getDom d) ∧
        (QRoom 0x30 s → Logs 0x30 0x1011 c.newN 0 0 0 s t) ∧ Only [.clk, .hm, .hif, .ldg] s t) ∧
    (s.clk.root.change = some c → c.phase = 3 → c.retry = true → c.relockStart + 20000 ≤ s.now →
      ∃ t, exec .pllFail s = .next t ∧ t.clk.root.pllFail = true ∧ t.clk.root.held = true ∧ t.clk.root.locked = false ∧
        t.clk.root.change = none ∧ t.clk.root.failTime = s.now ∧ bitOf t.pwr.alarm 1 = true ∧
        (∀ d ∈ s.doms, (t.getDom d).stopped = true) ∧ Only [.pwr, .clk, .loop, .hm, .hif, .ldg, .fw, .trs, .syn] s t) ∧
    (s.clk.root.pllFail = true → s.clk.ref.present = true → s.clk.root.nCur ≠ 0 →
      s.clk.root.failTime + 100000000 ≤ s.now →
      exec .pllFailRetry s = .next (s.onClk fun k => { k with root := { k.root with
        change := some { oldN := s.clk.root.nCur, newN := s.clk.root.nCur, cause := 3, phase := 3, relockStart := s.now,
                         kind := 3 },
        failTime := s.now } }))

/-- R110, R112: a leaf's acknowledgement makes the code sent the code in force; a leaf that has not acknowledged 1 µs
after its command (cause 0), or has shown no edge for 2 µs while its clock runs (cause 1), is stopped and marked failed,
with the alarm set; every 100 ms a failed leaf is sent a stop and a start while the root is not held, at its start
divider; a tried leaf that has run for 2 µs is restored. R113, R127: a droop detector that is present, calibrated and
not switched off counts its fire and extends the next k cycles of its leaf unless the leaf is stopped; the extension
ends with the k-th extended cycle. Completes: LEAF_ACK, LEAF_FAIL, LEAF_RETRY, LEAF_RESTORED, DROOP_FIRE,
EXTENSION_END. -/
def Obligations.LeavesFollow : Prop :=
  (∀ (s : State) (d : DomId), s.live = true →
     (∀ g, s.clk.root.change = none → s.sns.set7Wait = false → s.rail.stops = [] → (s.getDom d).stopSent = false →
       (s.getDom d).sent = some g → (s.getDom d).ext = false →
       exec (.leafAck d) s = .next (s.updDom d fun x =>
         { x with cur := g, sent := none, acked := true, cmdOpen := false, extAt := s.now })) ∧
     (∀ cause : Fin 2, (s.domCfg d).present = true → (s.getDom d).failed = false →
       (cause = 0 → (s.getDom d).cmdOpen = true ∧ (s.getDom d).cmdAt + 1000 ≤ s.now) →
       (cause = 1 → (s.getDom d).stopped = false ∧ s.clk.root.held = false ∧ (s.getDom d).cmdAt + 2000 ≤ s.now) →
       ∃ t, exec (.leafFail d cause) s = .next t ∧ bitOf t.pwr.alarm 2 = true ∧ (t.getDom d).failed = true ∧
         (t.getDom d).stopped = true ∧ Only [.pwr, .clk, .rail, .loop, .hm, .hif, .ldg, .fw, .trs, .syn] s t) ∧
     ((s.getDom d).failed = true → s.clk.root.held = false → (s.getDom d).failTime + 100000000 ≤ s.now →
       ∃ t, exec (.leafRetry d) s = .next t ∧ (t.getDom d).testing = true ∧ (t.getDom d).failed = true ∧
         (t.getDom d).failTime = s.now ∧ (t.getDom d).stopped = false ∧ (t.getDom d).tgt = domStartCode s d ∧
         (∀ e : Nat, e ≠ d → t.getDom e = s.getDom e) ∧ t.clk.root = s.clk.root ∧ t.clk.ref = s.clk.ref ∧ Only [.clk] s t) ∧
     ((s.getDom d).failed = true → (s.getDom d).testing = true → (s.getDom d).failTime + 2000 ≤ s.now →
       ∃ t, exec (.leafRestored d) s = .next t ∧ (t.getDom d).failed = false ∧ (t.getDom d).testing = false ∧
         Only [.clk, .loop, .hm, .hif, .ldg] s t)) ∧
  (∀ (s : State), s.live = true →
     (∀ k : DetId, (s.detCfg k).present = true → (s.getDet k).calFail = false →
       (s.getDet k).depth.getD (s.detCfg k).depth ≠ 0 → (s.getDom (s.detCfg k).dom).stopped = false →
       exec (.droopFire k) s = .next
         ((s.updDet k fun y => { y with cnt := (y.cnt + 1) % 2 ^ 32, fires := y.fires + 1 }).updDom (s.detCfg k).dom
           fun y => { y with ext := true, extCnt := (y.extCnt + 1) % 2 ^ 64, extLeft := (s.domCfg (s.detCfg k).dom).k,
                             extAt := s.now })) ∧
     (∀ d : DomId, (s.getDom d).ext = true → (s.getDom d).extLeft ≤ (s.getDom d).extDone s.clk.root.nCur (s.now + 1) →
       exec (.extensionEnd d) s = .next (s.updDom d fun x => { x with ext := false, extLeft := 0 })))

/-- R23, R24, R25, R68, R69: `PORST_N` low for 10 µs or more, and VAON or VIO below its falling threshold, hold every
output off, drive ceiling 0 with STOP at every ceiling port, release the alerts and cut off a fault record being
committed; fuses, configuration and block time are untouched. A pulse below 100 ns and supplies that stay good do
nothing of it. R21, R22, R409, R431: COLD_RESET, once all three supplies are above their thresholds, starts block time
at 0 on the holding oscillator and clears Ledger and the rings; `VSEL` and `REFSEL` are sampled, the limit gate takes
the fuses as programmed, and the fuses and the images in serial NOR keep their contents; while a supply is not good the
outputs stay held. (The programming of a part from outside is the model's, log entry 9; so the statement is about a reset
that brings none.) Completes: PORST_N_ASSERT, INTERNAL_POWER_ON_RESET, COLD_RESET. -/
def Obligations.PowerOnAndColdReset : Prop :=
  (∀ (s : State) (ns va vi : Nat),
     (10000 ≤ ns → ∃ t, exec (.porstNAssert ns) s = .next t ∧ OutputsOff s t ∧ t.live = false ∧ t.pwr.porstLow = true ∧
       t.pwr.cause = 1 ∧ t.frec.queue = [] ∧ t.frec.slots = s.frec.slots ∧ t.alertsOn = false ∧
       (∀ c < 32, (t.getCp c).ceil = 0 ∧ (t.getCp c).slope = 4) ∧
       Only [.pwr, .clk, .rail, .frec, .loop, .hm, .cp, .hif, .ldg, .fw, .trs, .syn] s t) ∧
     (ns < 100 → exec (.porstNAssert ns) s = .next s) ∧
     (va < 640 ∨ vi < 1550 → ∃ t, exec (.internalPowerOnReset va vi) s = .next t ∧ OutputsOff s t ∧ t.live = false ∧
       (va < 640 → t.pwr.vaon = false) ∧ (vi < 1550 → t.pwr.vio = false) ∧ t.pwr.cause = 0 ∧ t.frec.queue = [] ∧
       t.alertsOn = false ∧
       Only [.pwr, .clk, .rail, .frec, .loop, .hm, .cp, .hif, .ldg, .fw, .trs, .syn] s t) ∧
     (670 ≤ va → 2970 ≤ vi → exec (.internalPowerOnReset va vi) s =
       .next (s.onPwr fun p => { p with vaon := true, vio := true }))) ∧
  (∀ (s : State) (vsel refsel : Fin 8) (selftest : Option Nat) (b : Boot) (part : Option Part), suppliesOk b s = false →
     ∃ t, exec (.coldReset vsel refsel selftest b part) s = .next t ∧ OutputsOff s t ∧ t.live = false ∧
       t.pwr.porstLow = false ∧ t.now = s.now ∧ t.fuse = s.fuse ∧ t.cfg = s.cfg) ∧
  (∀ (s : State) (vsel refsel : Fin 8) (selftest : Option Nat) (b : Boot), suppliesOk b s = true →
     ∃ t, exec (.coldReset vsel refsel selftest b none) s = .next t ∧
       t.now = 0 ∧ t.tb.hold = true ∧ t.fuse = s.fw.arr ∧ t.fw.arr = s.fw.arr ∧ t.fw.img = s.fw.img ∧
       t.pwr.vsel = vsel.val ∧ t.pwr.refsel = refsel.val ∧ t.pwr.step = 2 ∧ t.live = true ∧ t.fw.run = false ∧
       t.ldg.w = 0 ∧ t.ldg.r = 0 ∧ t.ldg.seq = 0 ∧ t.clk.root.locked = false ∧ (∀ d, (t.getDom d).stopped = true) ∧
       (∀ c, (t.getCtx c).st = 0) ∧ (∀ p, (t.getPh p).pen = false) ∧ t.ep = [] ∧ t.tly.prog = [] ∧
       t.pending = s.pending ∧
       (selftest.isSome = true → t.fw.vault.error = true ∧ bitOf t.pwr.alarm 13 = true ∧ t.fw.vault.ready = false))

/-- R26, R27, R29, R265, R379, R409: WARM_RESET of at least 1 µs stops firmware, closes every context and drops every
transfer; running clusters fall back to HOLD with cause 1, rails are held with every other regulation and protection
register unchanged, and clocks, sensing, fuses, configuration and block time are untouched; the cause is 2, and it is
written to Ledger (in a record whose code is free, the model's choice of log entry 74). Firmware stays in reset until
`WRST_N` goes high. Completes: WARM_RESET, WRST_N_RELEASE. -/
def Obligations.WarmResetHoldsAndRestarts : Prop :=
  ∀ (s : State) (ns : Nat), s.live = true →
    (1000 ≤ ns → ∃ t, exec (.warmReset ns) s = .next t ∧ t.pwr.cause = 2 ∧ t.pwr.wrstLow = true ∧ t.fw.run = false ∧
      t.hif = {} ∧ (∀ k < 8, (t.getChan k).xfer = none ∧ (t.getChan k).busy = false) ∧
        (∀ c ∈ s.clusters, (s.getClu c).st = 1 → (t.getClu c).st = 2 ∧ (t.getClu c).holdCause = 1) ∧
      (∀ c ∈ s.clusters, (s.getClu c).st = 0 → (t.getClu c).st = 0) ∧
      (∀ r ∈ s.railIds, t.getReg r = { s.getReg r with hold := true }) ∧ (∀ r, t.getProt r = s.getProt r) ∧
      t.bootMay = false ∧ (QRoom 0x22 s → ∃ code, Logs 0x22 code 2 0 0 0 s t) ∧
      Only [.pwr, .tb, .frm, .rail, .frec, .loop, .hm, .hif, .dma, .ldg, .fw, .tly, .fc, .trs, .syn, .clr, .aud, .ho, .free,
        .queues] s t) ∧
    (ns < 100 → exec (.warmReset ns) s = .next s) ∧
    (s.pwr.wrstLow = true → exec .wrstNRelease s =
      .next ((s.onPwr fun p => { p with wrstLow := false }).onFw fun f => { f with warmAt := s.now })) ∧
    (s.pwr.wrstLow = false → exec .wrstNRelease s = .next s)

/-- R426, R427: FW_BOOT after a cold reset, with serial NOR readable: an accepted image in the preferred slot, VALID,
starts the firmware cores that are not out of service; with the preferred slot EMPTY or BAD and the other one not
VALID, Vault enters recovery, with the alarm and every clock stopped. Completes: FW_BOOT. -/
def Obligations.BootStartsPreferredImageOrRecovers : Prop :=
  ∀ (s : State) (g : FwImg), s.live = true → s.bootMay = true → s.pwr.cause ≤ 1 → s.nvDown = false →
    (s.fw.slotState s.fw.pref = 1 → s.fw.slotImg s.fw.pref = some g → fwCheck s.fuse (some g) = 0 →
      ∃ t, exec .fwBoot s = .next t ∧ t.fw.run = true ∧ t.fw.cur = runImgOf s.fw.pref g ∧ t.pwr.emuReady = true ∧
        (∀ k ∈ [32, 33, 34] ++ s.clusters, s.coreOut k = false → (t.getFwCore k).st = 1) ∧
        Only [.pwr, .frm, .hm, .hif, .ldg, .fw, .tly] s t) ∧
    (s.fw.slotState s.fw.pref = 0 ∨ s.fw.slotState s.fw.pref = 4 → s.fw.slotState (1 - s.fw.pref) ≠ 1 →
      ∃ t, exec .fwBoot s = .next t ∧ t.fw.recovery = true ∧ t.fw.run = false ∧ bitOf t.pwr.alarm 12 = true ∧
        (∀ d ∈ s.doms, (t.getDom d).stopped = true) ∧
        Only [.pwr, .clk, .loop, .hm, .hif, .ldg, .fw, .trs, .syn] s t)

/-- R64, R65, R69, R70: `PFAIL_N` low for 1 µs sets its alarm, abandons starts in progress and begins a fast stop: the
running rails of the highest level stop at once with cause 9; a shorter pulse does none of it, and the level of the
alert pads is kept. VANA low for 1 µs turns every phase of every configured rail off, latches the rail with cause 10,
stops every clock and sets its alarm; VFUSE above 0.5 V sets its alarm once. Completes: INPUT_POWER_FAIL, VANA_LOSS,
FW_VFUSE_ALARM. -/
def Obligations.SupplyFailures : Prop :=
  ∀ (s : State) (ns : Nat), s.live = true →
    (1000 ≤ ns → ∃ t, exec (.inputPowerFail (.pfail (.low ns))) s = .next t ∧ bitOf t.pwr.alarm 10 = true ∧
      t.pwr.pfailLow = true ∧
      t.rail.starts = [] ∧
      (s.aud.tripLatched = false → ∀ r ∈ s.railIds, (s.getProt r).running = true →
        (s.railCfg r).level = stopLevel s s.railIds → (t.getProt r).st = 5 ∧ (t.getProt r).cause = 9) ∧
      Only [.pwr, .clk, .rail, .frec, .loop, .hm, .hif, .ldg, .fw, .trs, .syn] s t) ∧
    (ns < 1000 → exec (.inputPowerFail (.pfail (.low ns))) s = .next (s.onPwr fun p => { p with pfailLow := true })) ∧
    exec (.inputPowerFail (.pfail .high)) s = .next (s.onPwr fun p => { p with pfailLow := false }) ∧
    (∀ a t h, exec (.inputPowerFail (.alerts a t h)) s =
      .next (s.onPwr fun p => { p with alertExt := a, throtExt := t, hotExt := h })) ∧
    (1000 ≤ ns → s.pwr.vanaLoss = false → ∃ t, exec (.vanaLoss ns) s = .next t ∧ t.pwr.vanaLoss = true ∧
      bitOf t.pwr.alarm 9 = true ∧ t.rail.starts = [] ∧ t.rail.stops = [] ∧
      (∀ r ∈ s.railIds, (t.getProt r).st = 7 ∧ (t.getProt r).latched = true ∧ (t.getProt r).cause = 10 ∧
        ∀ p ∈ s.railPhases r, (t.getPh p).pen = false) ∧
      (∀ d ∈ s.doms, (t.getDom d).stopped = true) ∧
      Only [.pwr, .clk, .rail, .frec, .loop, .hm, .hif, .ldg, .fw, .trs, .syn] s t) ∧
    (ns < 1000 → exec (.vanaLoss ns) s = .next s) ∧
    (∀ mv, 500 < mv → s.fw.vault.alarmed = false → ∃ t, exec (.fwVfuseAlarm mv) s = .next t ∧
      bitOf t.pwr.alarm 11 = true ∧ t.fw.vault.alarmed = true ∧ t.pwr.vfuseHi = true ∧
      (QRoom 0x22 s → Logs 0x22 0xB162 mv 0 0 0 s t) ∧ Only [.pwr, .hm, .hif, .ldg, .fw] s t) ∧
    (∀ mv, mv ≤ 500 ∨ s.fw.vault.alarmed = true → exec (.fwVfuseAlarm mv) s =
      .next ((s.onPwr fun p => { p with vfuseHi := decide (500 < mv) }).onFw fun f =>
        { f with vault := { f.vault with vfuseMv := mv } }))

/-- R35, R36, R38, R39: a port reset of the subordinate port abandons responses not taken; with no read
waiting and no set being paged in, a complete response frees its tag; an error and a response that does not come within 100 µs fail the request, whose tag is
freed 1 ms later; when `HM_RST_N` goes low every outstanding request fails, and at its release the writes held back are
issued in order while firmware runs. Completes: HS_PORT_RESET, HM_PORT_RESET, HM_RESPONSE, HM_TIMEOUT, HM_TAG_RELEASE,
HM_RST_N_RELEASE. -/
def Obligations.PortResetsAndResponses : Prop :=
  ∀ (s : State) (t : Fin 32) (r : HmReq) (data : List (BitVec 32)),
    exec .hsPortReset s = .next (s.onHs fun h => { h with resp := [] }) ∧
    (s.live = true → s.hmReq t.val = some r →
      (r.failed = none → s.now ≤ r.issued + 100000 → s.hm.waiting = [] → s.tly.page = none →
        exec (.hmResponse t true data) s = .next (s.onHm fun h => { h with reqs := Tbl.set none h.reqs t.val none })) ∧
      (r.failed = none → s.now ≤ r.issued + 100000 →
        exec (.hmResponse t false data) s = .next (hmConsumerFail r.purpose
          (s.onHm fun h => { h with reqs := Tbl.set none h.reqs t.val (some { r with failed := some s.now }) }))) ∧
      (r.failed = none → r.issued + 100000 ≤ s.now →
        exec (.hmTimeout t) s = .next (hmConsumerFail r.purpose
          (s.onHm fun h => { h with reqs := Tbl.set none h.reqs t.val (some { r with failed := some s.now }) }))) ∧
      (s.now < r.issued + 100000 → exec (.hmTimeout t) s = .next s) ∧
      (∀ f, r.failed = some f → f + 1000000 ≤ s.now → s.hm.waiting = [] →
        exec (.hmTagRelease t) s = .next (s.onHm fun h => { h with reqs := Tbl.set none h.reqs t.val none })) ∧
      (∀ f, r.failed = some f → s.now < f + 1000000 → exec (.hmTagRelease t) s = .next s)) ∧
    (s.live = true → ∃ u, exec .hmPortReset s = .next u ∧ u.hm.inReset = true ∧
      (∀ j < 32, ∀ q, u.hmReq j = some q → q.failed ≠ none) ∧
      Only [.hm, .hif, .dma, .ldg, .tly, .fc, .trs] s u) ∧
    (s.live = true → s.hm.inReset = true →
      (s.fw.run = true ∨ s.fw.recovery = true → ∃ u, exec .hmRstNRelease s = .next u ∧ u.hm.inReset = false ∧
        u.hm.held = [] ∧ u.hm.out = s.hm.out ++ s.hm.held ∧ Only [.hm] s u) ∧
      (s.fw.run = false → s.fw.recovery = false →
        exec .hmRstNRelease s = .next (s.onHm fun h => { h with inReset := false })))

/-- R45, R46, R238: a ceiling update carries each configured cluster's ceiling and its domain's divider under the next
number; an acknowledgement in time closes the update and counts the activity; an update 500 ns old is late, counts its
own ceiling as activity, and starts the backstop of its cluster. Completes: CEILING_UPDATE, CP_ACK, CP_LATE. -/
def Obligations.CeilingUpdatesAndAcknowledgements : Prop :=
  ∀ s : State, s.live = true →
    (∃ t, exec .ceilingUpdate s = .next t ∧
      (∀ c ∈ s.clusters, (t.getCp c).ceil = (s.getClu c).ceil ∧ (t.getCp c).div = (s.getDom (s.cluCfg c).dom).code ∧
        (t.getCp c).num = (s.getCp c).num + 1 ∧ (t.getCp c).open_ = (s.getCp c).open_ ++
          [{ num := (s.getCp c).num + 1, issued := s.now, ceil := (s.getClu c).ceil }] ∧
        t.getClu c = { s.getClu c with stepDown := false }) ∧
      Only [.loop, .cp] s t) ∧
    (∀ (c : ClusterId) (echo : Fin 16) (a : Fin 256) (lim : Bool) (u : CpUpd),
      (s.cluCfg c).present = true → (s.getCp c).open_ = [u] → u.num ≤ (s.getCp c).echoed echo → s.now ≤ u.issued + 500 →
      (s.getCp c).backFrom = none →
      exec (.cpAck c echo a lim) s = .next ((s.updCp c fun q => { q with act := a, lim := lim, open_ := [] }).updClu c
        fun x => { x with actSum := x.actSum + a, limSum := x.limSum + b2n lim, actN := x.actN + 1 })) ∧
    (∀ (c : ClusterId) (u : CpUpd),
      (s.getCp c).open_ = [u] → (u.issued + 500 ≤ s.now → (s.getClu c).cpLate = none →
        ∃ t, exec (.cpLate c) s = .next t ∧ (t.getCp c).open_ = [] ∧ (t.getClu c).cpLate = some s.now ∧
          (t.getCp c).backFrom = some ((s.getCp c).num + 1) ∧ (t.getClu c).actSum = (s.getClu c).actSum + u.ceil ∧
          (t.getClu c).actN = (s.getClu c).actN + 1 ∧ Only [.clk, .loop, .hm, .cp, .hif, .ldg] s t) ∧
      (s.now < u.issued + 500 → ∃ t, exec (.cpLate c) s = .next t ∧ t.getCp c = s.getCp c ∧ t.loop = s.loop ∧
        Only [.cp] s t))

/-- R76, R77, R78: a frame begins only at a boundary later than the last one that was started, numbered by it, and
commits only at its end; at the commit `LIM_EFF` and `LIM_P` take Treasury's values. Completes: FRAME_START,
FRAME_COMMIT. -/
def Obligations.FramesBeginAndCommit : Prop :=
  ∀ (s : State) (ps : Nat), s.live = true →
    (s.frm.inFrame = false → (s.frm.started = true → s.frm.frameStart < s.now / s.frameNs * s.frameNs) →
      ∃ t, exec (.frameStart ps) s = .next t ∧ t.frm.inFrame = true ∧ t.frm.started = true ∧
        t.frm.number = s.now / s.frameNs ∧ t.frm.frameStart = s.now / s.frameNs * s.frameNs ∧ t.frm.missedThis = false ∧
        t.tly.ran = [] ∧ t.tly.work = [] ∧ t.tb.stepPs = satU 16 ps ∧
        Only [.pwr, .tb, .frm, .clk, .sns, .rail, .loop, .hm, .hif, .ldg, .fw, .tly, .fc, .trs, .syn, .clr] s t) ∧
    (s.frm.inFrame = true ∨ (s.frm.started = true ∧ s.now / s.frameNs * s.frameNs ≤ s.frm.frameStart) →
      exec (.frameStart ps) s = .next s) ∧
    (s.frm.inFrame = true → s.frm.frameStart + s.frameNs ≤ s.now + 40 →
      ∃ t, exec .frameCommit s = .next t ∧ t.frm.inFrame = false ∧ t.frm.metered = true ∧ t.frm.number = s.frm.number ∧
        t.pwr.limEff = t.trs.eff ∧ t.pwr.limP = t.trs.pPkg ∧
        Only [.pwr, .frm, .clk, .sns, .rail, .loop, .hm, .hif, .dma, .ldg, .fw, .tly, .fc, .trs, .syn, .clr] s t) ∧
    (s.frm.inFrame = false ∨ s.now + 40 < s.frm.frameStart + s.frameNs → exec .frameCommit s = .next s)

/-- R78, R80, R83, R84: a slot that may start runs; completed by its deadline it is done, with its slack reported, and
what a SELECT slot computed waits for the commit; a slot not complete at its deadline has missed, with slack −2^31, and
the first miss after a completed run is recorded (and a slot's first of all, the model's choice of log entry 83). R85:
with the eighth consecutive miss of a LIMIT or SELECT slot each cluster it serves is capped at its fallback level; the
backstop ends after 16 consecutive runs of every such slot of the cluster. R86, R87, R88, R90: between frames the
shedding level rises by one once 4 consecutive frames have missed, and falls by one, not below the floor, once the
required number of clean frames has passed; the host's floor and request are kept for the boundary, and `CLR_MIN`
resets every minimum. Completes: SLOT_START, SLOT_COMPLETE, SLOT_MISS, LOOP_BACKSTOP, LOOP_BACKSTOP_END, SHED, RESTORE,
SHED_FLOOR_WRITE, HOST_RESTORE, CLR_MIN. -/
def Obligations.SlotsMissBackstopAndShed : Prop :=
  (∀ (s : State) (k : Fin 256) (e : SlotEntry), s.live = true → s.slot k = some e →
     (slotMay s k = true → exec (.slotStart k) s = .next (s.updRt k fun r => { r with run := .running, startedAt := s.now })) ∧
     (slotMay s k = false → exec (.slotStart k) s = .next s) ∧
     (s.frm.inFrame = true → (s.getRt k).run = .running → s.now ≤ s.frm.frameStart + e.deadline →
       (e.exec = 0 → s.progOk e.work = true) →
       ∃ t, exec (.slotComplete k) s = .next t ∧ (t.getRt k).run = .done ∧
         (t.getRt k).slack = ((s.frm.frameStart + e.deadline : Nat) : Int) - s.now ∧ (t.getRt k).consec = 0 ∧
         (t.getRt k).good = (s.getRt k).good + 1 ∧ (e.exec = 0 → t.tly.ran = s.tly.ran ++ [e.work]) ∧
         (e.exec ≠ 0 → e.cls = 1 → t.frm.done = s.frm.done ++ [k.val]) ∧
         (∀ j, j ≠ k.val → t.getRt j = s.getRt j) ∧ Only [.frm, .hm, .hif, .ldg, .tly, .free] s t) ∧
     (s.frm.inFrame = true → (s.getRt k).run = .idle ∨ (s.getRt k).run = .running → s.frm.frameStart + e.deadline ≤ s.now →
       ∃ t, exec (.slotMiss k) s = .next t ∧ (t.getRt k).run = .missed ∧ (t.getRt k).slack = -0x80000000 ∧
         (t.getRt k).total = min ((s.getRt k).total + 1) (2 ^ 24 - 1) ∧ (t.getRt k).runLen = (s.getRt k).runLen + 1 ∧
         t.frm.missedThis = true ∧ (∀ j, j ≠ k.val → t.getRt j = s.getRt j) ∧
         ((s.getRt k).runLen = 0 → QRoom 0x30 s → Logs 0x30 0x1801 k (slotDesc e) s.tb.stepPs 0 s t) ∧
         Only [.frm, .hm, .hif, .ldg] s t) ∧
     (s.now < s.frm.frameStart + e.deadline → exec (.slotMiss k) s = .next s)) ∧
  (∀ s : State, s.live = true →
     (∀ (k : Fin 256) (e : SlotEntry), s.slot k = some e → e.cls ≤ 1 → 8 ≤ (s.getRt k).runLen →
       ∃ t, exec (.loopBackstop k) s = .next t ∧
         (∀ c ∈ slotClus s e, (t.getBack c).active = true ∧
           ((s.getBack c).active = false → (s.getClu c).st = 1 → (t.getClu c).a ≤ 256 * (s.cluCfg c).fbLevel)) ∧
         (∀ c, c ∉ slotClus s e → t.getBack c = s.getBack c ∧ t.getClu c = s.getClu c) ∧
         Only [.frm, .loop, .hm, .hif, .ldg] s t) ∧
     (∀ (k : Fin 256), (s.getRt k).runLen < 8 → exec (.loopBackstop k) s = .next s) ∧
     (∀ (c : ClusterId) (k0 : Nat) (e0 : SlotEntry), (s.getBack c).active = true → s.slot k0 = some e0 → e0.cls ≤ 1 →
       c.val ∈ slotClus s e0 →
       (∀ k e, s.slot k = some e → e.cls ≤ 1 → c.val ∈ slotClus s e → 16 ≤ (s.getRt k).good) →
       ∃ t, exec (.loopBackstopEnd c) s = .next t ∧ (t.getBack c).active = false ∧ t.getClu c = s.getClu c ∧
         (∀ j, j ≠ c.val → t.getBack j = s.getBack j) ∧ Only [.frm, .loop, .hm, .hif, .ldg] s t)) ∧
  (∀ s : State,
     (s.live = true → s.frm.inFrame = false → 4 ≤ s.frm.consec → s.frm.level < 3 →
       ∃ t, exec .shed s = .next t ∧ t.frm.level = s.frm.level + 1 ∧ t.frm.consec = 0 ∧ t.frm.clean = 0 ∧
         t.frm.lastShed = some s.now ∧
         (∀ at_, s.frm.lastRestore = some (at_, s.frm.level + 1) → s.now ≤ at_ + 1000000000 →
           t.frm.required = min 1048576 (2 * s.frm.required)) ∧
         (s.frm.lastRestore = none → t.frm.required = s.frm.required) ∧
         (QRoom 0x30 s → Logs 0x30 0x1803 (s.frm.level + 1) 0 0 0 s t) ∧ Only [.frm, .hm, .hif, .ldg] s t) ∧
     (s.live = true → s.frm.inFrame = false → s.frm.floor < s.frm.level → s.frm.required ≤ s.frm.clean →
       ∃ t, exec .restore s = .next t ∧ t.frm.level = s.frm.level - 1 ∧ t.frm.clean = 0 ∧
         t.frm.lastRestore = some (s.now, s.frm.level) ∧
         (QRoom 0x30 s → Logs 0x30 0x1804 (s.frm.level - 1) 0 s.frm.clean 0 s t) ∧ Only [.frm, .hm, .hif, .ldg] s t) ∧
     (Emulates s →
       (∀ f : Fin 4, exec (.shedFloorWrite f) s = .next (hsAnswer 0 0 (s.onFrm fun x => { x with floor := f.val }))) ∧
       exec .hostRestore s = .next (hsAnswer 0 0 (s.onFrm fun x => { x with hostRestore := true })) ∧
       ∃ t, exec .clrMin s = .next t ∧ t.frm.wslack = 0x7FFFFFFF ∧ t.tb.stepMaxPs = 0 ∧
         (∀ k < 256, t.getRt k = { s.getRt k with minSlack := 0x7FFFFFFF }) ∧ Only [.hs, .tb, .frm] s t))

/-- R98, R99, R100: at the end of a 10 ms window the reference's drift is the median of the link rates when at least
three measured it; without three there is no quorum. The rates are fitted over block time, and in holdover over the
`CKREF` edge count. At 200 ppm or more the drift flag is set and the derate is twice the drift; at 1,000 ppm or more a
stable reference is lost with cause 4. Completes: DRIFT_MEASUREMENT. -/
def Obligations.DriftMeasurementActs : Prop :=
  ∀ (s : State) (edges : List EdgeSample), s.live = true → s.clrUp = true → s.clr.driftStart + 10000000 ≤ s.now →
    let rates := (s.links.filter fun l => (s.getLnk l).up).filterMap fun l =>
      if s.tb.hold = true then edgePpm s.pwr.refsel (edges.filter fun e => e.link = l) else linkPpm (s.getLnk l)
    ∃ t, exec (.driftMeasurement edges) s = .next t ∧
      t.clk.ref.peers = satU 8 rates.length ∧ t.clk.ref.quorum = decide (3 ≤ rates.length) ∧
      (rates.length < 3 → t.clk.ref.driftPpm = s.clk.ref.driftPpm ∧ t.clk.root = s.clk.root) ∧
      (3 ≤ rates.length → t.clk.ref.driftPpm = satS 16 (medianI rates)) ∧
      (3 ≤ rates.length → 200 ≤ (medianI rates).natAbs → (medianI rates).natAbs < 1000 →
        t.clk.ref.drift = true ∧ t.clk.ref.deratePpm = satU 16 (2 * (medianI rates).natAbs) ∧
        t.clk.ref.stable = s.clk.ref.stable) ∧
      (3 ≤ rates.length → 1000 ≤ (medianI rates).natAbs → s.clk.ref.stable = true →
        t.clk.ref.stable = false ∧ t.clk.ref.lossCause = 4 ∧ t.tb.hold = true ∧ bitOf t.pwr.alarm 0 = true ∧
        ∀ d ∈ s.doms, (t.getDom d).stopped = true) ∧
      Only [.pwr, .tb, .clk, .loop, .hm, .hif, .ldg, .fw, .trs, .syn, .clr] s t

/-- R246, R247: a write of `LOOP_CL_MODE` with `GO` waits for the next frame boundary, or is discarded with a status:
a loop above 4, a loop or cluster that is not configured, a cluster not under control or in HOLD. R247, R252: a target
within its bound takes effect at once and one beyond it is refused; the targets of loops 0 and 1 are read-only; loop 5
takes the manual ceiling. `FB_FORCE` puts the selected loop, if it has an observer, into fallback with cause 3, and
`CLR_LATCH` ends its latch, each leaving every other loop as it was. R253: a loop in automatic saturated for longer than
`TSAT` sets its flag and counts it, once; with `SAT_FB` and a model it falls back with cause 3. Completes:
LOOP_CL_MODE_GO, LOOP_TGT_WRITE, FB_FORCE_WRITE, CLR_LATCH, LOOP_SATURATED. -/
def Obligations.LoopModesTargetsAndSaturation : Prop :=
  (∀ (s : State) (v : Word), Emulates s → bitOf v.toNat 31 = true →
     let c := s.loop.clSel
     let j := bits v.toNat 0 3
     let refuse : Nat → Res := fun st => .next
       (hsAnswer 0 0 (s.onLoop fun x => { x with res := st }))
     (5 ≤ j → exec (.loopClModeGo v) s = refuse 0x5002) ∧
     (j < 5 → (s.cluCfg c).present = false ∨ (s.loopCfg c j).present = false → exec (.loopClModeGo v) s = refuse 0x5004) ∧
     (j < 5 → (s.cluCfg c).present = true → (s.loopCfg c j).present = true →
       ((s.getClu c).started = false ∨ (s.getClu c).st = 2 → exec (.loopClModeGo v) s = refuse 0x5005) ∧
       ((s.getClu c).started = true → (s.getClu c).st ≠ 2 → exec (.loopClModeGo v) s =
         .next (hsAnswer 0 0 ((s.updClu c fun x => { x with modes := x.modes ++
           [{ loop := j, auto := bitOf v.toNat 3, useMan := bitOf v.toNat 12, man := bits v.toNat 4 8 }] }).onLoop
           fun x => { x with res := 0 }))))) ∧
  (∀ (s : State) (v : Fin 65536), Emulates s → (s.cluCfg s.loop.clSel).present = true →
     let c := s.loop.clSel
     let j := s.loop.sel
     (j = 5 → exec (.loopTgtWrite v) s = .next (hsAnswer 0 0
       ((s.updLp c 5 fun l => { l with tgt := some (v.val % 256) }).onLoop fun x => { x with res := 0 }))) ∧
     (j < 5 → (s.loopCfg c j).present = true →
       (j ≤ 1 → exec (.loopTgtWrite v) s = .next (hsAnswer 0 0 s)) ∧
       (2 ≤ j → loopTgt j v.val ≤ loopTgt j (s.loopCfg c j).tgtMax → exec (.loopTgtWrite v) s = .next (hsAnswer 0 0
         ((s.updLp c j fun l => { l with tgt := some v.val }).onLoop fun x => { x with res := 0 }))) ∧
       (2 ≤ j → loopTgt j (s.loopCfg c j).tgtMax < loopTgt j v.val → exec (.loopTgtWrite v) s =
         .next (hsAnswer 0 0 (s.onLoop fun x => { x with res := 0x5002 }))) ∧
       (∀ w : Word, bitOf w.toNat 17 = true → bitOf w.toNat 18 = false → (s.getLp c j).fbForce = false →
         bits w.toNat 0 16 = (s.getLp c j).tsat → bitOf w.toNat 16 = (s.getLp c j).satFb → (s.getLp c j).fallback = false →
         (s.loopCfg c j).nx ≠ 0 →
         ∃ t, exec (.fbForceWrite w) s = .next t ∧ (t.getLp c j).fallback = true ∧ (t.getLp c j).fbCause = 3 ∧
           (t.getLp c j).fbForce = true ∧ (t.getLp c j).fbCnt = satInc 16 (s.getLp c j).fbCnt ∧ t.loop.res = 0 ∧
           (∀ k, k ≠ 8 * c + j → t.getLoop k = s.getLoop k) ∧ Only [.pwr, .loop, .hm, .hs, .hif, .ldg] s t) ∧
       exec .clrLatch s = .next (hsAnswer 0 0
         ((s.updLp c j fun l => { l with fbLatch := false }).onLoop fun x => { x with res := 0 })))) ∧
  (∀ (s : State) (c : ClusterId) (j : Fin 5) (t0 : Nat), s.live = true → (s.getLp c j).satSince = some t0 →
     (s.getLp c j).auto = true → (s.loopCfg c j).present = true →
     ((s.getLp c j).satFlag = false → t0 + (s.getLp c j).tsat * 1000000 < s.now →
       ∃ t, exec (.loopSaturated c j) s = .next t ∧ (t.getLp c j).satFlag = true ∧
         (t.getLp c j).satCnt = satInc 16 (s.getLp c j).satCnt ∧
         ((s.getLp c j).satFb = true → (s.getLp c j).fallback = false → (s.loopCfg c j).nx ≠ 0 →
           (t.getLp c j).fallback = true ∧ (t.getLp c j).fbCause = 3) ∧
         ((s.getLp c j).satFb = false → (t.getLp c j).fallback = (s.getLp c j).fallback) ∧
         (∀ k, k ≠ 8 * c.val + j → t.getLoop k = s.getLoop k) ∧ Only [.pwr, .loop, .hm, .hif, .ldg] s t) ∧
     (s.now ≤ t0 + (s.getLp c j).tsat * 1000000 ∨ (s.getLp c j).satFlag = true →
       exec (.loopSaturated c j) s = .next s))

/-- R231, R232, R234: a residue mismatch in an active cube fails the cube and misses the running slot; an
uncorrectable error of the state, program or constant store misses it too, and so does one in the pinned region of the
coefficient store; all but the first mark the program failed; one in a set's frame takes the set out; a corrected error
is only counted; `CLR_SAT` clears the saturation counts. R229: a page whose digest is that of the set's header goes
into the set's frame; the last page makes the set resident, and any other asks for the next page. A page with another
digest ends the paging and marks the set bad. Completes: TLY_CUBE_ERR, TLY_STORE_ECC, CLR_SAT, PAGE_LANDED. -/
def Obligations.TallyErrorsAndPaging : Prop :=
  (∀ (s : State) (cube : Fin 9) (k : Fin 256) (p ins addr : Nat) (st : Fin 4), s.live = true →
     (s.runsProg k = some p →
       (s.tly.cube.getD cube 3 = 0 → ∃ t, exec (.tlyCubeErr cube k ins) s = .next t ∧
         t.tly.cube = s.tly.cube.set cube 3 ∧ t.tly.swap = s.tly.swap ++ [cube.val] ∧
         t.tly.residue = satInc 16 s.tly.residue ∧ (t.getRt k).run = .missed ∧ Only [.frm, .hm, .hif, .ldg, .tly] s t) ∧
       (st.val ≠ 0 → ∃ t, exec (.tlyStoreEcc st addr k false) s = .next t ∧ t.tly.eccUnc = satInc 16 s.tly.eccUnc ∧
         (t.getRt k).run = .missed ∧ (t.getProg p).failed = (decide (st.val ≠ 1) || (s.getProg p).failed) ∧
         (∀ q, q ≠ p → t.getProg q = s.getProg q) ∧ Only [.frm, .hm, .hif, .ldg, .tly] s t) ∧
       (s.pinnedAddr addr = true → ∃ t, exec (.tlyStoreEcc 0 addr k false) s = .next t ∧
         t.tly.eccUnc = satInc 16 s.tly.eccUnc ∧ (t.getRt k).run = .missed ∧ (t.getProg p).failed = true ∧
         Only [.frm, .hm, .hif, .ldg, .tly] s t) ∧
       (∀ j, s.pinnedAddr addr = false → s.setAt addr = some j → ∃ t, exec (.tlyStoreEcc 0 addr k false) s = .next t ∧
         t.tly.eccUnc = satInc 16 s.tly.eccUnc ∧ t.getSet j = { s.getSet j with resident := false } ∧
         Only [.hm, .hif, .ldg, .tly] s t)) ∧
     (s.runsProg k = none → exec (.tlyCubeErr cube k ins) s = .next s ∧ exec (.tlyStoreEcc st addr k false) s = .next s) ∧
     exec (.tlyStoreEcc st addr k true) s = .next (s.onTly fun x => { x with eccCorr := satInc 16 x.eccCorr }) ∧
     (Emulates s → ∃ t, exec .clrSat s = .next t ∧ t.tly.satAcc = 0 ∧ t.tly.satConv = 0 ∧ t.tly.satRn = 0 ∧
       (∀ q < 128, t.getProg q = { s.getProg q with sat := 0 }) ∧ Only [.hs, .tly] s t)) ∧
  (∀ (s : State) (p : Paging) (d : List Nat), s.live = true → s.tly.page = some p → p.buf = some d →
     (Config.sha384 (wordBytes d) = p.digests.getD p.page 0 →
       ((s.getSet p.set).npages ≤ p.page + 1 → ∃ t, exec .pageLanded s = .next t ∧ t.tly.page = none ∧
         t.tly.coef = storePage (s.frameBase p.frame + 256 * p.page) d s.tly.coef ∧
         t.getSet p.set = { s.getSet p.set with resident := true, frame := p.frame } ∧
         (∀ k, k ≠ p.set → t.getSet k = s.getSet k) ∧
         (QRoom 0x35 s → Logs 0x35 0x4040 p.set p.frame (s.now - p.start) 0 s t) ∧ Only [.hm, .hif, .ldg, .tly] s t) ∧
       (p.page + 1 < (s.getSet p.set).npages → exec .pageLanded s = .next (pageAsk p.set (p.page + 2)
         (s.onTly fun t => { t with coef := storePage (s.frameBase p.frame + 256 * p.page) d t.coef,
                                    page := some { p with page := p.page + 1, got := [], buf := none } })))) ∧
     (Config.sha384 (wordBytes d) ≠ p.digests.getD p.page 0 → ∃ t, exec .pageLanded s = .next t ∧ t.tly.page = none ∧
       t.getSet p.set = { s.getSet p.set with bad := true } ∧ t.tly.coef = s.tly.coef ∧
       t.tly.pageFail = satInc 16 s.tly.pageFail ∧ (∀ k, k ≠ p.set → t.getSet k = s.getSet k) ∧
       Only [.hm, .hif, .ldg, .tly] s t))

/-- R121, R122, R125: a site is sampled at its interval; a result from a site in service that agrees with its
prediction becomes the measured value and the newest accepted one; an overrange code measures nothing and pauses the
site for 3 results. R447, R448, R450: while a rail runs, a trip input above the limit trips: the trip is counted and
kept, every cluster stops, and starts in progress are abandoned; the third within an hour latches with its alarm. A
trip ends only after every trip input has stayed low for 2 s, and never while it is latched. Completes: SITE_SAMPLE,
SITE_RESULT, THERM_TRIP, THERM_RESTART_OK. -/
def Obligations.SitesSampledAndTrips : Prop :=
  (∀ (s : State) (i : SiteId) (code : BitVec 16), s.live = true → (s.siteCfg i).present = true →
     (s.getSite i).ringFail = false →
     (due s.now (siteInterval s i) (s.getSite i).lastCmd = true →
       exec (.siteSample i) s = .next (s.updSite i fun y => { y with lastCmd := some s.now })) ∧
     (due s.now (siteInterval s i) (s.getSite i).lastCmd = false → exec (.siteSample i) s = .next s) ∧
     (code ≠ 0x7FFF#16 → ∃ t, exec (.siteResult i code) s = .next t ∧ (t.getSite i).code = code.toNat ∧
       (t.getSite i).meas = some (siteTemp (s.siteCfg i) code.toInt) ∧ (t.getSite i).ovr = false ∧
       (t.getSite i).pause = (s.getSite i).pause - 1 ∧
       ((s.getSite i).pause = 0 → (s.getSite i).excl = false →
         (t.getSite i).accepted = (siteTemp (s.siteCfg i) code.toInt :: (s.getSite i).accepted).take 4) ∧
       Only [.pwr, .clk, .sns, .loop, .hm, .hif, .ldg, .aud, .free] s t) ∧
     (code = 0x7FFF#16 → ∃ t, exec (.siteResult i code) s = .next t ∧ (t.getSite i).ovr = true ∧ (t.getSite i).meas = none ∧
       (t.getSite i).pause = 3 ∧ (t.getSite i).accepted = (s.getSite i).accepted ∧
       Only [.pwr, .clk, .sns, .loop, .hm, .hif, .ldg, .aud, .free] s t)) ∧
  (∀ (s : State) (i : SiteId) (v : Int), s.live = true →
     ((s.siteCfg i).present = true → tripInput s i = some v → s.siteLimit i < v → s.anyRunning = true →
       ∃ t, exec (.thermTrip i) s = .next t ∧ t.aud.tripActive = true ∧ t.aud.tripSite = i.val ∧ t.aud.tripInput = v ∧
         t.aud.tripTime = s.now ∧ t.aud.trips = recentHour s.now s.aud.trips ++ [s.now] ∧ t.rail.starts = [] ∧
         (2 ≤ (recentHour s.now s.aud.trips).length → t.aud.tripLatched = true) ∧
         (2 ≤ (recentHour s.now s.aud.trips).length → s.aud.tripLatched = false → bitOf t.pwr.alarm 18 = true) ∧
         (∀ c ∈ s.clusters, (t.getClu c).st = 0 ∧ (t.getClu c).ceil = 0) ∧
         Only [.pwr, .clk, .rail, .frec, .loop, .hm, .hif, .ldg, .fw, .fc, .trs, .syn, .aud] s t) ∧
     (tripInput s i = some v → v ≤ s.siteLimit i → exec (.thermTrip i) s = .next s) ∧
     (∀ t0, s.aud.tripActive = true → s.aud.tripLatched = false → s.aud.dwell = some t0 → t0 + 2000000000 ≤ s.now →
       ∃ t, exec .thermRestartOk s = .next t ∧ t.aud = { s.aud with tripActive := false } ∧
         Only [.hm, .hif, .ldg, .aud] s t) ∧
     (s.aud.tripLatched = true ∨ s.aud.dwell = none ∨ (∃ t0, s.aud.dwell = some t0 ∧ s.now < t0 + 2000000000) →
       exec .thermRestartOk s = .next s))

/-- R51: a ring that falls silent fails the macros from its first silent position on, whatever their kind, also when it
had already failed further out; a retry after 100 ms at which every macro answers returns them. R118, R119: three
references that agree leave the exclusions as they are and put the mean of those in service into force; the third
comparison in a row in which one of three references in service deviates from the two others, which agree, excludes it,
with its alarm, and is still scaled by the mean of the three. The references in service are broadcast every 100 ms and
after every change, and the diode sites take the scale with the broadcast. Completes: RING_FAIL, RING_RETRY,
REF_COMPARE, REF_BROADCAST. -/
def Obligations.RingsAndReferences : Prop :=
  (∀ (s : State) (kind : Fin 3) (ring : Fin 16) (first : Fin 64), s.live = true → ring.val < ringCount kind →
     ((∀ f t0, Tbl.get none s.sns.rings (16 * kind.val + ring) = some (f, t0) → first.val < f) →
       ∃ t, exec (.ringFail kind ring first) s = .next t ∧
         Tbl.get none t.sns.rings (16 * kind.val + ring) = some (first.val, s.now) ∧
         (kind = 0 → ∀ i ∈ s.sites, (s.siteCfg i).ring = ring → first ≤ (s.siteCfg i).pos → (s.siteCfg i).pos < 64 →
           (t.getSite i).ringFail = true) ∧
         (kind = 1 → ∀ k < 1024, (s.detCfg k).present = true → (s.detCfg k).ring = ring → first ≤ (s.detCfg k).pos →
           (s.detCfg k).pos < 64 → (t.getDet k).ringFail = true) ∧
         (kind = 2 → ∀ k < 160, (s.monCfg k).present = true → (s.monCfg k).ring = ring → first ≤ (s.monCfg k).pos →
           (s.monCfg k).pos < 64 → (t.getMon k).ringFail = true) ∧
         Only [.pwr, .clk, .sns, .loop, .hm, .hif, .ldg, .aud] s t) ∧
     (∀ f t0, Tbl.get none s.sns.rings (16 * kind.val + ring) = some (f, t0) →
       (f < 64 → t0 + 100000000 ≤ s.now → ∃ t, exec (.ringRetry kind ring none) s = .next t ∧
         Tbl.get none t.sns.rings (16 * kind.val + ring) = none ∧
         (kind = 0 → ∀ i ∈ s.sites, (s.siteCfg i).ring = ring → f ≤ (s.siteCfg i).pos → (s.siteCfg i).pos < 64 →
           (t.getSite i).ringFail = false) ∧
         (kind = 2 → ∀ k < 160, (s.monCfg k).present = true → (s.monCfg k).ring = ring → f ≤ (s.monCfg k).pos →
           (s.monCfg k).pos < 64 → (t.getMon k).ringFail = false) ∧
         (kind = 1 → ∀ k < 1024, (s.detCfg k).present = true → (s.detCfg k).ring = ring → f ≤ (s.detCfg k).pos →
           (s.detCfg k).pos < 64 → (t.getDet k).ringFail = false) ∧
         Only [.pwr, .clk, .sns, .loop, .hm, .hif, .ldg, .aud] s t) ∧
       (s.now < t0 + 100000000 → exec (.ringRetry kind ring none) s = .next s))) ∧
  (∀ (s : State) (a b c : Nat), s.live = true → s.sns.noMaj = false → s.sns.excl = [false, false, false] →
     (refFar a b = false → refFar a c = false → refFar b c = false →
       ∃ t, exec (.refCompare a b c) s = .next t ∧ t.sns.excl = s.sns.excl ∧ t.sns.noMaj = false ∧
         t.sns.exclRun = [0, 0, 0] ∧ t.sns.noMajRun = 0 ∧ t.sns.scale = meanN [a, b, c] ∧ Only [.sns] s t) ∧
     (refFar a b = true → refFar a c = true → refFar b c = false → s.sns.exclRun = [2, 0, 0] →
       ∃ t, exec (.refCompare a b c) s = .next t ∧ t.sns.excl = [true, false, false] ∧ bitOf t.pwr.alarm 4 = true ∧
         t.sns.bcastDue = true ∧ t.sns.scale = meanN [a, b, c] ∧ t.sns.noMaj = false ∧
         Only [.pwr, .sns, .hm, .hif, .ldg] s t) ∧
     (s.sns.bcastDue = true ∨ s.sns.bcast + 100000000 ≤ s.now →
       exec .refBroadcast s = .next (s.onSns fun n =>
         { n with bcast := s.now, bcastDue := false, siteScale := n.scale })) ∧
     (s.sns.bcastDue = false → s.now < s.sns.bcast + 100000000 → exec .refBroadcast s = .next s))

/-- R127, R128, R129: reading the droop detectors moves each answering detector's fires into the frame's count; a tap
rewrite that succeeds ends the pending one, and one that fails after a start marks the calibration failed; a write of
`DEPTH` changes the selected detector's threshold and makes its tap pending. Completes: DD_READ, DD_TAP_REWRITE,
DD_DEPTH_WRITE. -/
def Obligations.DroopDetectorsReadAndRewritten : Prop :=
  ∀ (s : State) (k : DetId) (tap : Fin 256) (l : List (DetId × Fin 64)) (d : Fin 64), (s.detCfg k).present = true →
    (s.live = true → (s.getDet k).ringFail = false → ∃ t, exec (.ddRead l) s = .next t ∧
      (t.getDet k).frame = (s.getDet k).frame + (s.getDet k).fires ∧ (t.getDet k).fires = 0 ∧
      (t.getDet k).deep = Tbl.get 0 (l.map fun e => (e.1.val, e.2.val)) k ∧ Only [.sns] s t) ∧
    (s.live = true → (s.getDet k).pend ≠ 0 → ∃ t, exec (.ddTapRewrite k (some tap)) s = .next t ∧
      (t.getDet k).tap = tap ∧ (t.getDet k).pend = 0 ∧ ((s.getDet k).pend = 2 → (t.getDet k).calFail = false) ∧
      (∀ j, j ≠ k.val → t.getDet j = s.getDet j) ∧ Only [.sns] s t) ∧
    (s.live = true → (s.getDet k).pend = 2 → ∃ t, exec (.ddTapRewrite k none) s = .next t ∧ (t.getDet k).calFail = true ∧
      (t.getDet k).pend = 0 ∧ (∀ j, j ≠ k.val → t.getDet j = s.getDet j) ∧
      (QRoom 0x31 s → Logs 0x31 0x2040 k 0 0 0 s t) ∧ Only [.sns, .hm, .hif, .ldg] s t) ∧
    (Emulates s → s.sns.detSel = k → exec (.ddDepthWrite d) s = .next (hsAnswer 0 0
      (s.updDet k fun x => { x with depth := some d.val, pend := max x.pend 1 })))

/-- R130, R131, R308: a monitor's measurement enters its 64 newest as the change against its baseline, and every 10
minutes a cluster's trim moves towards its goal, up by at most 6 and never above its band; a cluster whose trim is held
is set to 0. R287, R291: an excursion whose bucket is down to its reserve ends with cause 0, and otherwise after 1 ms with
cause 1; a borrowed lease within `LGUARD` of its expiry no longer counts, and the next allocation is out of turn.
Completes: AM_MEASURE, TRIM_EVALUATE, OD_END, LEASE_GUARD. -/
def Obligations.AgeingExcursionAndLeaseGuard : Prop :=
  (∀ (s : State) (k : MonId) (ratio b : Nat), s.live = true →
     ((s.monCfg k).present = true → (s.getMon k).ringFail = false → (s.getMon k).base = some b → b ≠ 0 →
       exec (.amMeasure k ratio) s = .next (s.updMon k fun y => { y with
         ratio := ratio, meas := (divRound (((ratio : Int) - b) * 1000000) b :: y.meas).take 64 })) ∧
     (s.trs.trimAt + 600000000000 ≤ s.now → ∃ t, exec .trimEvaluate s = .next t ∧ t.trs.trimAt = s.now ∧
       (∀ c ∈ s.clusters, ∀ w, trimHeld s c = some w → (t.getTrsCl c).trim = 0 ∧ (t.getTrsCl c).held = some w) ∧
       (∀ c ∈ s.clusters, trimHeld s c = none → (t.getTrsCl c).held = none ∧
         (t.getTrsCl c).trim ≤ (s.getTrsCl c).trim + 6 ∧ (t.getTrsCl c).trim ≤ (s.cluCfg c).gb * 250) ∧
       Only [.hm, .hif, .ldg, .trs] s t) ∧
     (s.now < s.trs.trimAt + 600000000000 → exec .trimEvaluate s = .next s)) ∧
  (∀ (s : State) (l : Fin 65) (id t0 : Nat) (bo : Bor), s.live = true →
     (s.trs.odSince = some t0 →
       (s.trs.od * 100 ≤ s.trs.reserve * s.odMax → ∃ t, exec .odEnd s = .next t ∧ t.trs.odSince = none ∧
         t.trs.outOfTurn = true ∧ (QRoom 0x20 s → Logs 0x20 0x6021 0 (s.now - t0) (divRoundN s.trs.od 16) 0 s t) ∧
         Only [.hm, .hif, .ldg, .trs] s t) ∧
       (s.trs.reserve * s.odMax < s.trs.od * 100 → t0 + 1000000 ≤ s.now → ∃ t, exec .odEnd s = .next t ∧
         t.trs.odSince = none ∧ (QRoom 0x20 s → Logs 0x20 0x6021 1 (s.now - t0) (divRoundN s.trs.od 16) 0 s t) ∧
         Only [.hm, .hif, .ldg, .trs] s t) ∧
       (s.trs.reserve * s.odMax < s.trs.od * 100 → s.now < t0 + 1000000 → exec .odEnd s = .next s)) ∧
     ((s.getLnk l).bor = [bo] → bo.id = id → bo.counted = true → bo.ret = none →
       (bo.exp ≤ s.now + s.trs.lguard * 1000 → ∃ t, exec (.leaseGuard l id) s = .next t ∧
         (t.getLnk l).bor = [{ bo with counted := false }] ∧ t.trs.outOfTurn = true ∧
         (QRoom 0x20 s → Logs 0x20 0x6060 id bo.amt bo.exp 0 s t) ∧ Only [.hm, .hif, .ldg, .trs, .clr] s t) ∧
       (s.now + s.trs.lguard * 1000 < bo.exp → exec (.leaseGuard l id) s = .next s)))

/-- R19, R289, R296, R312: Treasury's registers. A cap below 8 or above the fused maximum, a weight of 0, a context's class 3,
a grant of class 2, and a cap, floor or grant that breaks R288, is refused with its status, and only the status changes; an
admitted cap is in force and ends an excursion; a class's priority is exchanged with the class that held it; an accepted
write of a context's parameters sets them, cuts its floor to the grant, and changes no other context's; the clears clear what
they name. Completes: CAP_SET, DC_PRIO_WRITE, DC_FLOOR_WRITE, TX_CFG_WRITE, CLR_OD, CLR_RSN, CLR_FLT. -/
def Obligations.TreasuryRegisters : Prop :=
  ∀ (s : State) (v : Fin 65536) (w : Word), Emulates s →
    let refuse : Nat → Res := fun st => .next (hsAnswer 0 0 (s.onTrs fun x => { x with res := st }))
    let setFloor : State → State := fun t => t.onTrs fun x => { x with floor := x.floor.set s.trs.dcSel v.val }
    let x := s.getTx s.trs.txSel
    let cls := bits w.toNat 16 2
    let grant := bits w.toNat 24 8
    let setTx : State → State := fun t => t.updTx s.trs.txSel fun y => { y with
      weight := bits w.toNat 0 16, cls := cls, grant := grant, floor := min y.floor grant,
      suspended := y.suspended && cls = 1 }
    let raises := x.grant < grant ∨ (cls = 0 ∧ x.cls ≠ 0)
    (v.val < 8 ∨ s.fuse.capMax < v.val → exec (.capSet v) s = refuse 0x6001) ∧
    (8 ≤ v.val → v.val ≤ s.fuse.capMax →
      (admits (fun t => t.onTrs fun x => { x with cap := v.val }) s = false → exec (.capSet v) s = refuse 0x6002) ∧
      (admits (fun t => t.onTrs fun x => { x with cap := v.val }) s = true → ∃ t, exec (.capSet v) s = .next t ∧
        t.trs.cap = v.val ∧ t.trs.res = 0 ∧ t.trs.odSince = none ∧ (QRoom 0x20 s → Logs 0x20 0x6010 s.trs.cap v.val 0 0 s t) ∧
        Only [.hm, .hs, .hif, .ldg, .trs] s t)) ∧
    (bits w.toNat 8 8 = 0 → exec (.dcPrioWrite w) s = refuse 0x6005) ∧
    (bits w.toNat 8 8 ≠ 0 → ∃ t, exec (.dcPrioWrite w) s = .next t ∧ t.trs.res = 0 ∧
      (s.trs.dcSel < s.trs.prio.length → t.trs.prio.getD s.trs.dcSel 0 = bits w.toNat 0 2) ∧
      (s.trs.dcSel < s.trs.weight.length → t.trs.weight.getD s.trs.dcSel 0 = bits w.toNat 8 8) ∧
      (∀ k < s.trs.prio.length, k ≠ s.trs.dcSel → t.trs.prio.getD k 0 =
        if s.trs.prio.getD k 0 = bits w.toNat 0 2 then s.trs.prio.getD s.trs.dcSel 0 else s.trs.prio.getD k 0) ∧
      (∀ k, k ≠ s.trs.dcSel → t.trs.weight.getD k 0 = s.trs.weight.getD k 0) ∧ Only [.hs, .trs] s t) ∧
    (admits setFloor s = false → exec (.dcFloorWrite v) s = refuse 0x6003) ∧
    (admits setFloor s = true → ∃ t, exec (.dcFloorWrite v) s = .next t ∧
      t.trs.floor = s.trs.floor.set s.trs.dcSel v.val ∧ t.trs.res = 0 ∧ Only [.hm, .hs, .hif, .ldg, .trs] s t) ∧
    (cls = 3 ∨ (cls = 2 ∧ grant ≠ 0) → exec (.txCfgWrite w) s = refuse 0x6005) ∧
    (cls < 2 → raises → admits setTx s = false → exec (.txCfgWrite w) s = refuse 0x6003) ∧
    ((cls = 2 ∧ grant = 0) ∨ (cls < 2 ∧ (raises → admits setTx s = true)) → ∃ t, exec (.txCfgWrite w) s = .next t ∧
      t.trs.res = 0 ∧ (t.getTx s.trs.txSel).weight = bits w.toNat 0 16 ∧ (t.getTx s.trs.txSel).cls = cls ∧
      (t.getTx s.trs.txSel).grant = grant ∧ (t.getTx s.trs.txSel).floor = min x.floor grant ∧
      (∀ k, k ≠ s.trs.txSel → (t.getTx k).weight = (s.getTx k).weight ∧ (t.getTx k).cls = (s.getTx k).cls ∧
        (t.getTx k).grant = (s.getTx k).grant ∧ (t.getTx k).floor = (s.getTx k).floor) ∧
      Only [.hm, .hs, .hif, .ldg, .trs] s t) ∧
    exec .clrOd s = .next (hsAnswer 0 0 (s.onTrs fun x => { x with odCnt := 0, res := 0 })) ∧
    (∃ t, exec .clrRsn s = .next t ∧ t.trs.res = 0 ∧
      (∀ c ∈ s.clusters, t.getTrsCl c = { s.getTrsCl c with rsnT := [], rsnOn := [] }) ∧ Only [.hs, .trs] s t) ∧
    (∃ t, exec .clrFlt s = .next t ∧ t.trs.res = 0 ∧ (∀ k, t.getTx k = { s.getTx k with flt := 0 }) ∧ Only [.hs, .trs] s t)

/-- R132, R134–R138, R164: a conversion of a rail voltage, a phase current, a stage temperature or an auto-zero of 16
captures, and a `READ_VIN`, leave their calibrated value and flags in the entry of their own rail or phase; a phase sample
that is overranged, repeated, taken in an overrange's recovery or with `PEN` low leaves the clean one as it was; an
overranged temperature keeps the previous value, an auto-zero beyond 30 mV takes the nominal level, and without a reading
accepted for 100 ms the nominal input voltage is used. A calibration slot repeats the sample, marked so, and so does the
conversion that an Audit test takes; the calibration found is a free value inside the ranges of Table 5.4 (log entry 4).
R160: a conversion below the undershoot threshold gives each active phase in its off-time, not turned off by its
short-circuit comparator, a pulse of 100 ns. R146–R149, R156–R158: a phase that does not modulate keeps its outputs low; one
that does takes the timebase wanted and its next offset, gives no pulse during a brake or where diode emulation skips it, and
otherwise one of at least T_ON_MIN; a rail in CROWBAR keeps its low sides on. The zero-current comparator turns an armed phase
off in its off-time; the hottest phase leaves after T_SHED, one in a switching period; a phase that has joined for 2 periods
is active. Completes: RAIL_V_CONVERSION, PHASE_I_CONVERSION, STAGE_T_CONVERSION, AUTO_ZERO, VIN_READ, VIN_STALE, PWM_PERIOD,
ZERO_CROSSING, PHASE_REMOVE, JOIN_COMPLETE. -/
def Obligations.ConversionsAndPhases : Prop :=
  (∀ (s : State) (r : RailId) (p : PhaseId) (code : Fin 16384) (c12 : Fin 4096) (w : Fin 65536) (nc : Bool),
     s.live = true →
     ((s.railCfg r).present = true → s.adcTested r = false ∨ (s.getMeas r).audN < 7 →
       ∃ t, exec (.railVConversion r code false) s = .next t ∧
       (t.getMeas r).v = railVolt code (s.getMeas r).gPpm (s.getMeas r).oUv ∧ (t.getMeas r).code = code ∧
       (t.getMeas r).ovrHi = decide (code.val = 0x3FFF) ∧ (t.getMeas r).ovrLo = decide (code.val = 0) ∧
       (t.getMeas r).cal = false ∧ (t.getMeas r).vN = (s.getMeas r).vN + 1 ∧
       (∀ k, k ≠ r.val → t.getMeas k = s.getMeas k ∧ t.getReg k = s.getReg k) ∧
       (s.regulating r = true → ((railVolt code (s.getMeas r).gPpm (s.getMeas r).oUv : Nat) : Int)
           < s.veff r - (s.getReg r).act.vnlu →
         (t.getReg r).nlLo = true ∧ ∀ q ∈ s.activePhases r, (s.getPh q).st = 2 → (s.getPh q).pwm = false →
           (s.getPh q).scOff = false → (s.getReg r).nlLo = false ∨ (s.getPh q).nlOn + 100 ≤ 500 →
           (t.getPh q).pen = true ∧ (t.getPh q).pwm = true ∧ (t.getPh q).fallAt = s.now + 100 ∧
           (t.getPh q).deEnd = true) ∧
       Only [.rail, .hm, .hif, .ldg] s t) ∧
     ((s.railCfg r).present = true → s.adcTested r = true → 7 ≤ (s.getMeas r).audN →
       exec (.railVConversion r code false) s = .next (s.updMeas r fun m =>
         { m with audN := 0, cal := true, vLast := (m.v :: m.vLast).take 8 })) ∧
     ((s.railCfg r).present = true → ∃ t, exec (.railVConversion r code true) s = .next t ∧
       (t.getMeas r).v = (s.getMeas r).v ∧ (t.getMeas r).cal = true ∧
       (t.getMeas r).vLast = ((s.getMeas r).v :: (s.getMeas r).vLast).take 8 ∧
       -20000 ≤ (t.getMeas r).gPpm ∧ (t.getMeas r).gPpm ≤ 20000 ∧
       -5000 ≤ (t.getMeas r).oUv ∧ (t.getMeas r).oUv ≤ 5000 ∧ (∀ k, k ≠ r.val → t.getMeas k = s.getMeas k) ∧
       Only [.rail, .free] s t) ∧
     ((s.phCfg p).present = true → ∃ t, exec (.phaseIConversion p c12 nc) s = .next t ∧
       (t.getPh p).code = c12 ∧ (t.getPh p).i = satU 16 (phaseAmps s p c12).toNat ∧
       (t.getPh p).ovr = (decide (c12.val = 0xFFF) || decide (c12.val = 0)) ∧
       (c12.val = 0xFFF ∨ c12.val = 0 → (t.getPh p).clean = (s.getPh p).clean ∧
         Tbl.get 0 t.sns.recover (p.val / 8) = 2) ∧
       ((s.getPh p).pen = false ∨ 0 < Tbl.get 0 s.sns.recover (p.val / 8) ∨
           (nc = false ∧ (s.railCfg (s.phCfg p).rail).fsw < 20) → (t.getPh p).clean = (s.getPh p).clean) ∧
       ((s.getPh p).pen = true → c12.val ≠ 0xFFF → c12.val ≠ 0 → Tbl.get 0 s.sns.recover (p.val / 8) = 0 →
         nc = true ∨ 20 ≤ (s.railCfg (s.phCfg p).rail).fsw → (t.getPh p).clean = phaseAmps s p c12) ∧
       (t.getPh p).pen = (s.getPh p).pen ∧ (t.getPh p).st = (s.getPh p).st ∧
       (∀ q, q ≠ p.val → t.getPh q = s.getPh q) ∧ Only [.sns, .rail, .hm, .hif, .ldg] s t) ∧
     ((s.phCfg p).present = true → (s.getUnit (audIdx 2 (32 + p.val / 32))).st = 0 →
       ∃ t, exec (.stageTConversion p c12) s = .next t ∧ (t.getPh p).tCode = c12 ∧
       (c12.val = 0xFFF ∨ c12.val = 0 → (t.getPh p).temp = (s.getPh p).temp ∧ (t.getPh p).tOvr = true) ∧
       (c12.val ≠ 0xFFF → c12.val ≠ 0 → (s.phCfg p).gt ≠ 0 → (t.getPh p).tOvr = false ∧ (t.getPh p).temp =
         satS 16 (divRound ((((c12.val * 375 : Nat) : Int) - ((s.phCfg p).v0t * 1000 : Nat)) * 64) (s.phCfg p).gt)) ∧
       (∀ q, q ≠ p.val → t.getPh q = s.getPh q) ∧ Only [.rail, .hm, .hif, .ldg] s t) ∧
     ((s.getUnit (audIdx 2 (32 + p.val / 32))).st ≠ 0 → exec (.stageTConversion p c12) s = .next s) ∧
     (∀ caps : List (Fin 4096), (s.phCfg p).present = true → (s.getPh p).pen = false → caps.length = 16 →
       let dev := ((((caps.map Fin.val).foldl (· + ·) 0 * 375 : Nat) : Int) - (16000 * (s.phCfg p).v0 : Nat)).natAbs
       ∃ t, exec (.autoZero p caps) s = .next t ∧ (t.getPh p).v0Nom = decide (480000 < dev) ∧
         (dev ≤ 480000 → (t.getPh p).v0 = (caps.map Fin.val).foldl (· + ·) 0) ∧
         (∀ q, q ≠ p.val → t.getPh q = s.getPh q) ∧ Only [.rail, .hm, .hif, .ldg] s t) ∧
     ((s.railCfg r).present = true → s.pmUp = true →
       ((80 * (s.railCfg r).vinNom : Nat) ≤ 100 * linear11 w ∧ 100 * linear11 w ≤ (120 * (s.railCfg r).vinNom : Nat) →
         ∃ t, exec (.vinRead r w) s = .next t ∧ (t.getMeas r).vinAccept = s.now ∧ (t.getMeas r).vinStale = false ∧
           (t.getMeas r).vins = (satU 16 (linear11 w).toNat :: (s.getMeas r).vins).take 4 ∧ Only [.rail] s t) ∧
       (100 * linear11 w < (80 * (s.railCfg r).vinNom : Nat) ∨ (120 * (s.railCfg r).vinNom : Nat) < 100 * linear11 w →
         ∃ t, exec (.vinRead r w) s = .next t ∧ (t.getMeas r).vins = (s.getMeas r).vins ∧
           (t.getMeas r).vinAccept = (s.getMeas r).vinAccept ∧ Only [.rail, .hm, .hif, .ldg] s t)) ∧
     ((s.railCfg r).present = true → (s.getMeas r).vinStale = false → (s.getMeas r).vinAccept + 100000000 ≤ s.now →
       ∃ t, exec (.vinStale r) s = .next t ∧ (t.getMeas r).vinNom = true ∧ (t.getMeas r).vinStale = true ∧
         (QRoom 0x32 s → Logs 0x32 0x3821 r 0 0 0 s t) ∧ Only [.rail, .hm, .hif, .ldg] s t)) ∧
  (∀ (s : State) (p : PhaseId) (r : RailId), s.live = true → (s.phCfg p).present = true → (s.phCfg p).rail = r →
     let P := pwmPeriod s r s.oscWanted
     let ton0 := (divRound (phaseDuty s r p * P) (2 ^ 24)).toNat
     let tmin := tonMinUnits s r s.oscWanted
     ((s.getProt r).st = 6 → (s.getPh p).usable = true → exec (.pwmPeriod p) s = .next
       (s.updPh p fun y => { y with pen := true, pwm := false, scOff := false })) ∧
     ((s.getProt r).st ≠ 6 ∨ (s.getPh p).usable = false →
       s.regulating r = false ∨ ((s.getPh p).st ≠ 2 ∧ (s.getPh p).st ≠ 3) → exec (.pwmPeriod p) s = .next (phOff p s)) ∧
     (s.regulating r = true → (s.getPh p).st = 2 ∨ (s.getPh p).st = 3 → ∃ t, exec (.pwmPeriod p) s = .next t ∧
       (t.getPh p).osc = s.oscWanted ∧
       (t.getPh p).offs = nextOffset (s.getPh p) P (offsetGoal s r p P) % 2 ^ 21 ∧
       ((s.getReg r).brake.isSome = true → (t.getPh p).pen = false ∧ (t.getPh p).pwm = false) ∧
       (s.deArmed r = true → ton0 < tmin → (t.getPh p).pen = false ∧ (t.getPh p).pwm = false) ∧
       ((s.getReg r).brake = none → s.deArmed r = false ∨ tmin ≤ ton0 → (t.getPh p).pen = true ∧ (t.getPh p).pwm = true ∧
         (t.getPh p).ton = max ton0 tmin % 2 ^ 21 ∧
         (t.getPh p).fallAt = s.now + unitsNs s s.oscWanted (max ton0 tmin % 2 ^ 21)) ∧
       (t.getPh p).st = (s.getPh p).st ∧ (∀ q, q ≠ p.val → t.getPh q = s.getPh q) ∧
       Only [.clk, .rail, .loop, .hm, .hif, .ldg] s t) ∧
     (s.deArmed r = true → s.regulating r = true → (s.getPh p).pen = true → (s.getPh p).pwm = false →
       (s.getPh p).deEnd = false → (s.getPh p).fallAt + 20 ≤ s.now → exec (.zeroCrossing p) s = .next
         ((s.updPh p fun y => { y with pen := false, deNow := true }).updReg r fun y => { y with deFired := true })) ∧
     (∀ t0 (q : Nat), (s.getMeas r).removeSince = some t0 → t0 + 2000 * (s.getReg r).shed.thold ≤ s.now →
       (s.getProt r).st = 3 → (s.getReg r).shed.nmin < (s.activePhases r).length →
       wantPhases s r < (s.activePhases r).length →
       argMin (fun x => -(s.getPh x).temp) (s.activePhases r) = some q →
       (∀ u, (s.getReg r).lastRemove = some u → s.now < u + ceilDiv 10000 (s.railCfg r).fsw →
         exec (.phaseRemove r) s = .next s) ∧
       ((∀ u, (s.getReg r).lastRemove = some u → u + ceilDiv 10000 (s.railCfg r).fsw ≤ s.now) →
         ∃ t, exec (.phaseRemove r) s = .next t ∧ (t.getPh q).st = 4 ∧ (t.getPh q).pen = false ∧
         (t.getReg r).lastRemove = some s.now ∧ (∀ x, x ≠ q → t.getPh x = s.getPh x) ∧ Only [.rail] s t)) ∧
     ((s.getPh p).st = 3 → ∀ u, (s.getPh p).joinAt = some u →
       (u + unitsNs s (s.getPh p).osc (2 * (s.getPh p).per) ≤ s.now → ∃ t, exec (.joinComplete p) s = .next t ∧
         (t.getPh p).st = 2 ∧ Only [.rail] s t) ∧
       (s.now < u + unitsNs s (s.getPh p).osc (2 * (s.getPh p).per) → u ≤ s.now → exec (.joinComplete p) s = .next s)))

/-- R144, R145, R151, R154, R155, R159, R161: while a rail regulates its compensator shifts its history and stays
within ±`UMAX`, and V_ref moves by at most one step of 0.25 mV, only when its slew allows one and not below the floor of a
rail in RAMP_UP; the rail current is the sum of its active phases' metered currents, the share shifts stay within 0.20 and
are 0 without thermal balancing, a trim at its limit for 1 ms is recorded, a brake ends T_BRK after it began, and V_pp is given
up 4 µs after the last forecast, 4 µs after arrival, or after two forecasts of no rise. R59, R60, R151, R153, R157, R163, R165,
R168: a host target is refused unless every cluster of the rail is in manual and the target lies between Vmin and Vmax; a slew
is clamped to 4 … SLEW_MAX; light-load fields out of range are refused, and accepted ones are in force; telemetry peaks and
counts are cleared; an alert is kept and recorded; a timeout is counted at each failure, and only the second failure of a
transaction is recorded; nothing of PMBus happens while the block does not drive its pins. Completes: COMPENSATOR_UPDATE,
VREF_STEP, CURRENT_SHARE_UPDATE, SHARE_SHIFT, SHIFT_LIMIT, TRIM_LIMIT, BRAKE_TIMEOUT, VPP_RAMP_DOWN, RAIL_VREQ_GO,
RAIL_SLEW_WRITE, RAIL_TEL_CLR, RAIL_SHED_WRITE, PMB_ALERT, PMBUS_TIMEOUT. -/
def Obligations.RailsRegulateAndTheirRegisters : Prop :=
  (∀ (s : State) (r : RailId) (p : PhaseId) (trk : Fin 65536), s.live = true →
     (s.regulating r = true → 2 ≤ (s.getMeas r).vLast.length → ∃ t, exec (.compensatorUpdate r) s = .next t ∧
       (t.getReg r).e1 = 2 * s.veff r -
         (((s.getMeas r).vLast.getD 0 0 + (s.getMeas r).vLast.getD 1 0 : Nat) : Int) ∧
       (t.getReg r).e2 = (s.getReg r).e1 ∧ (t.getReg r).u2 = (s.getReg r).u1 ∧ (t.getReg r).u3 = (s.getReg r).u2 ∧
       -(256 * ((s.getReg r).act.umax : Int)) ≤ (t.getReg r).u1 ∧ (t.getReg r).u1 ≤ 256 * (s.getReg r).act.umax ∧
       (∀ k, k ≠ r.val → t.getReg k = s.getReg k) ∧ Only [.rail] s t) ∧
     (s.regulating r = false → exec (.compensatorUpdate r) s = .next s ∧ exec (.vrefStep r trk) s = .next s) ∧
     (stepDue s r = false → exec (.vrefStep r trk) s = .next s) ∧
     (s.regulating r = true → stepDue s r = true → ∃ t, exec (.vrefStep r trk) s = .next t ∧
       ((s.getProt r).st ≠ 2 → (t.getReg r).vref = moveBy 1 (s.getReg r).vref (s.getReg r).target) ∧
       ((s.getProt r).st = 2 → rampFloor s r ≤ (s.getReg r).vref → rampFloor s r ≤ (t.getReg r).vref) ∧
       (t.getReg r).vref ≤ (s.getReg r).vref + 1 ∧ (s.getReg r).vref ≤ (t.getReg r).vref + 1 ∧
       (t.getReg r).stepAt = some s.now ∧
       (t.getReg r).vpp = moveBy 1 (s.getReg r).vpp (s.getReg r).vppTgt ∧
       (∀ k, k ≠ r.val → t.getReg k = s.getReg k) ∧ Only [.rail] s t) ∧
     ((s.railCfg r).present = true → ∃ t, exec (.currentShareUpdate r) s = .next t ∧
       (t.getMeas r).iRail = satU 16 ((s.activePhases r).foldl (fun m q => m + (s.getPh q).meter) 0).toNat ∧
       (t.getMeas r).iN = (s.getMeas r).iN + 1 ∧ (t.getMeas r).iPk = max (s.getMeas r).iPk (t.getMeas r).iRail ∧
       Only [.rail] s t) ∧
     (∃ t, exec (.shareShift r) s = .next t ∧ (∀ q ∈ s.activePhases r, (t.getPh q).shift.natAbs ≤ 10240) ∧
       ((s.getReg r).shed.tbEn = false → ∀ q ∈ s.activePhases r, (t.getPh q).shift = 0) ∧ Only [.rail] s t) ∧
     (∀ t0, (s.getMeas r).shiftSince = some t0 → t0 + 1000000000 ≤ s.now → (s.getMeas r).shiftRec = none →
       ∃ t, exec (.shiftLimit r) s = .next t ∧ (t.getMeas r).shiftRec = some s.now ∧ Only [.rail, .hm, .hif, .ldg] s t) ∧
     (∀ t0, (s.getPh p).trimSince = some t0 → t0 + 1000000 ≤ s.now → (s.getPh p).trimRec = false →
       ∃ t, exec (.trimLimit p) s = .next t ∧ t.getPh p = { s.getPh p with trimRec := true } ∧
         (QRoom 0x32 s → Logs 0x32 0x3812 p (s.getPh p).i (s.getPh p).itgt 0 s t) ∧ Only [.rail, .hm, .hif, .ldg] s t) ∧
     (∀ t0, (s.getReg r).brake = some t0 →
       (t0 + 10 * (s.getReg r).act.tbrk ≤ s.now → ∃ t, exec (.brakeTimeout r) s = .next t ∧ (t.getReg r).brake = none ∧
         (t.getReg r).brakeEnd = some s.now ∧ (∀ k, k ≠ r.val → t.getReg k = s.getReg k) ∧
         Only [.rail, .hm, .hif, .ldg] s t) ∧
       (s.now < t0 + 10 * (s.getReg r).act.tbrk → exec (.brakeTimeout r) s = .next s)) ∧
     ((∃ t0, (s.getReg r).lastFc = some t0 ∧ t0 + 4000 ≤ s.now) ∨ (∃ t0, (s.getReg r).ppArrived = some t0 ∧ t0 + 4000 ≤ s.now) ∨
         2 ≤ (s.getReg r).ppZero → exec (.vppRampDown r) s = .next (s.updReg r fun y =>
       { y with vppTgt := 0, ppDi := 0, ppArrived := none, ppZero := 0 })) ∧
     (∀ t0, (s.getReg r).lastFc = some t0 → s.now < t0 + 4000 → (s.getReg r).ppArrived = none → (s.getReg r).ppZero < 2 →
       exec (.vppRampDown r) s = .next s)) ∧
  (∀ (s : State) (v : Fin 65536) (sl : Fin 256) (w : BitVec 32) (a : Fin 128) (word : Fin 65536) (cmd : Fin 256) (cs : Fin 3),
     let r := s.rail.sel
     (Emulates s →
       (s.railManual r = false → exec (.railVreqGo v) s = .next (hsAnswer 0 0
         ((s.updReg r fun x => { x with vreq := v.val }).onRail fun x => { x with res := 0x3804 }))) ∧
       (s.railManual r = true → v.val < (s.railCfg r).vmin ∨ s.vmax r < v.val → exec (.railVreqGo v) s = .next (hsAnswer 0 0
         ((s.updReg r fun x => { x with vreq := v.val }).onRail fun x => { x with res := 0x3803 }))) ∧
       (s.railManual r = true → (s.railCfg r).vmin ≤ v.val → v.val ≤ s.vmax r → (s.getReg r).hold = false →
         (s.getProt r).st = 3 → ∃ t, exec (.railVreqGo v) s = .next t ∧ (t.getReg r).target = v.val ∧
           (t.getReg r).host = some v.val ∧ t.rail.res = 0 ∧ (∀ k, k ≠ r → t.getReg k = s.getReg k) ∧
           Only [.rail, .hm, .hs, .hif, .ldg] s t) ∧
       (s.railManual r = true → (s.railCfg r).vmin ≤ v.val → v.val ≤ s.vmax r →
         (s.getReg r).hold = true ∨ ((s.getProt r).st ≠ 2 ∧ (s.getProt r).st ≠ 3) →
         exec (.railVreqGo v) s = .next (hsAnswer 0 0 ((s.updReg r fun x =>
           { x with vreq := v.val, host := some v.val, forced := none }).onRail fun x => { x with res := 0 }))) ∧
       (sl.val < 4 → 4 ≤ s.fuse.slewMax.getD r 0 → exec (.railSlewWrite sl) s = .next (hsAnswer 0 0
         ((s.updReg r fun x => { x with slew := 4 }).onRail fun x => { x with res := 0x3802 }))) ∧
       (4 ≤ sl.val → sl.val ≤ s.fuse.slewMax.getD r 0 → exec (.railSlewWrite sl) s = .next (hsAnswer 0 0
         ((s.updReg r fun x => { x with slew := sl.val }).onRail fun x => { x with res := 0 }))) ∧
       (s.fuse.slewMax.getD r 0 < sl.val → 4 ≤ sl.val → exec (.railSlewWrite sl) s = .next (hsAnswer 0 0
         ((s.updReg r fun x => { x with slew := s.fuse.slewMax.getD r 0 }).onRail fun x => { x with res := 0x3802 }))) ∧
       exec .railTelClr s = .next (hsAnswer 0 0
         ((s.updMeas r fun m => { m with iPk := 0, pPk := 0, brkCnt := 0, nlCnt := 0 }).onRail fun x => { x with res := 0 })) ∧
       (bits w.toNat 0 7 = 0 ∨ (s.railCfg r).nph < bits w.toNat 0 7 ∨ bits w.toNat 24 8 = 0 →
         exec (.railShedWrite false w) s = .next (hsAnswer 0 0 (s.onRail fun x => { x with res := 0x3806 }))) ∧
       (bits w.toNat 0 7 ≠ 0 → bits w.toNat 0 7 ≤ (s.railCfg r).nph → bits w.toNat 24 8 ≠ 0 →
         ∃ t, exec (.railShedWrite false w) s = .next t ∧ (t.getReg r).shed.nmin = bits w.toNat 0 7 ∧
           (t.getReg r).shed.shedEn = bitOf w.toNat 7 ∧ (t.getReg r).shed.deEn = bitOf w.toNat 8 ∧
           (t.getReg r).shed.tbEn = bitOf w.toNat 9 ∧ (t.getReg r).shed.gtb = bits w.toNat 16 8 ∧
           (t.getReg r).shed.thold = bits w.toNat 24 8 ∧ (t.getReg r).shed.iOpt = (s.getReg r).shed.iOpt ∧ t.rail.res = 0 ∧
           (bitOf w.toNat 9 = false → ∀ k ∈ s.railPhases r, (t.getPh k).shift = 0) ∧
           (∀ k, k ≠ r → t.getReg k = s.getReg k) ∧ Only [.rail, .hs] s t) ∧
       (bits w.toNat 16 16 ≤ bits w.toNat 0 16 →
         exec (.railShedWrite true w) s = .next (hsAnswer 0 0 (s.onRail fun x => { x with res := 0x3806 }))) ∧
       ((s.getReg r).shed.nmin ≠ 0 → (s.getReg r).shed.nmin ≤ (s.railCfg r).nph → bits w.toNat 0 16 < bits w.toNat 16 16 →
         ∃ t, exec (.railShedWrite true w) s = .next t ∧ (t.getReg r).shed = { (s.getReg r).shed with
             iOpt := bits w.toNat 0 16, iAdd := bits w.toNat 16 16 } ∧ t.rail.res = 0 ∧
           (∀ k, k ≠ r → t.getReg k = s.getReg k) ∧ Only [.rail, .hs] s t)) ∧
     (s.live = true → s.pmUp = false → exec (.pmbAlert a word) s = .next s ∧
       exec (.pmbusTimeout a cmd cs false) s = .next s ∧ exec (.pmbusTimeout a cmd cs true) s = .next s) ∧
     (s.live = true → s.pmUp = true →
       let s1 := if cs.val = 0 then pmbRecover a cmd s else s
       (∃ t, exec (.pmbAlert a word) s = .next t ∧ t.rail = { s.rail with pmbWord := word, pmbAddr := a } ∧
         (QRoom 0x32 s → Logs 0x32 0x3824 a word 0 0 s t) ∧ Only [.rail, .hm, .hif, .ldg] s t) ∧
       (cs.val = 2 → (s.pmbDev a).pec = false → exec (.pmbusTimeout a cmd cs false) s = .next s ∧
         exec (.pmbusTimeout a cmd cs true) s = .next s) ∧
       (cs.val ≠ 2 ∨ (s.pmbDev a).pec = true → exec (.pmbusTimeout a cmd cs false) s = .next s1 ∧
         ∃ t, exec (.pmbusTimeout a cmd cs true) s = .next t ∧
           t.rail = { s1.rail with pmbFail := satInc 8 s.rail.pmbFail } ∧
           (QRoom 0x32 s → Logs 0x32 0x3823 a cmd cs 0 s t) ∧ Only [.rail, .hm, .hif, .ldg] s t)))

/-- R163, R173–R178: the start of the rails, step by step. Stage devices whose configuration is read back wrong twice make
their phases unusable; a rise of more than 200 mV refuses a rail and one of at most 200 mV passes it; a phase that fails its
identify is disabled with the cause of Table 7.4; a rail whose conditions hold ramps from its measured voltage with
every phase active, is ON when it has reached its target, and is stopped with cause 4 when it has not within twice its
ramp time plus 1 ms. R180, R181, R187: a rail ramping down is OFF below 50 mV or 2 ms after V_ref reached 0; a rail of
a fast stop whose turn has come is in FAULT with the stop's cause, or cause 6 where it stops with its master; a mean current
above I_OL throttles the rail's clusters, held for 10 ms it stops the rail with cause 2, and below 0.9 × I_OL the throttle
ends. Completes: PMBUS_CONFIG_DONE, SENSE_CHECK, PHASE_IDENTIFY, RAMP_START, REACHED, START_TIMEOUT, RAMP_DOWN_DONE,
FAST_STOP_LEVEL, OVERLOAD_CHECK, OVERLOAD_SHUTDOWN. -/
def Obligations.RailsStartAndStop : Prop :=
  (∀ (s : State) (q : StartSeq) (r : RailId) (p : PhaseId), s.live = true →
     (∀ reads : List PmbReads, s.startFront = some q → q.step = 2 → s.pmUp = true → startPending s q ≠ [] →
       let failed : Nat → Option Nat := fun a =>
         pmbFailed (s.pmbDev a) ((reads.find? fun x => x.addr.val = a).getD { addr := Fin.ofNat 128 a })
       ∃ t, exec (.pmbusConfigDone reads) s = .next t ∧ t.startFront = some { q with step := 3 } ∧
         (∀ k < 128, (s.phCfg k).present = true → failed (s.phCfg k).addr ≠ none → (t.getPh k).st = 7) ∧
         (∀ k, failed (s.phCfg k).addr = none → t.getPh k = s.getPh k) ∧
         Only [.clk, .rail, .loop, .hm, .hif, .ldg] s t) ∧
     (∀ rises : List (RailId × Nat), s.startFront = some q → q.step = 3 →
       ((∀ k ∈ maskIdx 8 q.rails, Tbl.get 0 (rises.map fun x => (x.1.val, x.2)) k ≤ 200) →
         ∃ t, exec (.senseCheck rises) s = .next t ∧
           (∀ k ∈ maskIdx 8 q.rails, (s.getProt k).st = 1 → (t.getProt k).senseOk = true) ∧
           Only [.clk, .rail, .loop, .hm, .hif, .ldg, .fw, .trs, .syn] s t) ∧
       (r.val ∈ maskIdx 8 q.rails → 200 < Tbl.get 0 (rises.map fun x => (x.1.val, x.2)) r → (s.getProt r).st = 1 →
         s.aud.tripLatched = false → ∃ t, exec (.senseCheck rises) s = .next t ∧ (t.getProt r).st = 5 ∧
           ((t.getProt r).cause = 5 ∨ (t.getProt r).cause = 6) ∧
           Only [.clk, .rail, .loop, .hm, .hif, .ldg, .fw, .trs, .syn] s t)) ∧
     (∀ (code : Fin 4096) (pads sc oth : Bool), s.startFront = some q → q.step = 4 → (identifyList s q).head? = some p.val →
       ∃ t, exec (.phaseIdentify p code pads sc oth) s = .next t ∧ (t.getPh p).idi = satU 16 (phaseAmps s p code).toNat ∧
         (t.getPh p).pen = false ∧ (t.getPh p).pwm = false ∧
         (∀ c, identifyCause s p (satU 16 (phaseAmps s p code).toNat) pads sc oth = some c →
           (t.getPh p).idFail = true ∧ (t.getPh p).idCause = c ∧ (t.getPh p).st = 6) ∧
         Only [.clk, .rail, .frec, .loop, .hm, .hif, .ldg, .fw, .fc, .trs, .syn, .aud] s t) ∧
     ((∃ q ∈ s.rail.starts, q.step = 5 ∧ bitOf q.rails r = true) → (s.getProt r).st = 1 → (s.getProt r).senseOk = true →
       (s.railCfg r).nreq ≤ (s.usablePhases r).length → masterReady s r = true → s.inStop r = false →
       ∃ t, exec (.rampStart r) s = .next t ∧ (t.getProt r).st = 2 ∧ (t.getProt r).rampAt = s.now ∧
         (t.getReg r).vref = (s.getMeas r).v ∧ (t.getReg r).act = (s.getReg r).comp ∧
         (t.getProt r).vStart = (s.getMeas r).v ∧
         (∀ k ∈ s.railPhases r, (s.getPh k).st = 1 ∨ (s.getPh k).st = 4 → (t.getPh k).st = 2) ∧
         (∀ k, k ≠ r.val → t.getProt k = s.getProt k ∧ t.getReg k = s.getReg k) ∧ Only [.sns, .rail] s t) ∧
     ((s.getReg r).reached = true → (s.getProt r).st = 2 → ∃ t, exec (.reached r) s = .next t ∧ (t.getProt r).st = 3 ∧
       (t.getProt r).onAt = s.now ∧ t.rail.reg = s.rail.reg ∧ Only [.clk, .sns, .rail, .loop, .hm, .hif, .ldg] s t) ∧
     ((s.getProt r).st = 2 → (s.getProt r).rampAt + 2 * (s.getProt r).rampNs + 1000000 ≤ s.now →
       ∃ t, exec (.startTimeout r) s = .next t ∧ ((t.getProt r).st = 5 ∨ (t.getProt r).st = 7) ∧ (t.getProt r).cause = 4 ∧
         (∀ k ∈ s.railPhases r, (t.getPh k).pen = false) ∧
         Only [.clk, .rail, .frec, .loop, .hm, .hif, .ldg, .fw, .trs, .syn] s t) ∧
     ((s.getProt r).st ≠ 2 → exec (.startTimeout r) s = .next s)) ∧
  (∀ (s : State) (r : RailId), s.live = true → s.aud.tripLatched = false →
     ((s.getProt r).st = 4 →
       (s.getMeas r).v < 200 ∨ (∃ t0, (s.getProt r).zeroAt = some t0 ∧ t0 + 2000000 ≤ s.now) →
       ∃ t, exec (.rampDownDone r) s = .next t ∧ (t.getProt r).st = 0 ∧ (t.getReg r).vref = 0 ∧
         (∀ k ∈ s.railPhases r, (t.getPh k).pen = false) ∧
         Only [.clk, .rail, .loop, .hm, .hif, .ldg, .fw, .trs, .syn] s t) ∧
     ((s.getProt r).st ≠ 4 → exec (.rampDownDone r) s = .next s) ∧
     (∀ q, s.rail.stops.find? (fastMay s r) = some q → ∃ t, exec (.fastStopLevel r) s = .next t ∧ (t.getProt r).st = 5 ∧
       (t.getProt r).cause = q.causeOf r ∧ (∀ k ∈ s.railPhases r, (t.getPh k).pen = false) ∧
       Only [.clk, .rail, .loop, .hm, .hif, .ldg, .fw, .trs, .syn] s t) ∧
     (s.rail.stops.find? (fastMay s r) = none → exec (.fastStopLevel r) s = .next s) ∧
     ((s.railCfg r).present = true → (s.railCfg r).iol < (s.getMeas r).iAvg →
       (∃ t, exec (.overloadCheck r) s = .next t ∧ (t.getProt r).ol = some ((s.getProt r).ol.getD s.now) ∧
         (t.getProt r).olAbove = some ((s.getProt r).olAbove.getD s.now) ∧ (t.getProt r).st = (s.getProt r).st ∧
         ((s.getProt r).ol = none → ∀ c ∈ s.railClusters r, (t.getClu c).overload = true) ∧
         Only [.rail, .loop, .hm, .hif, .ldg] s t) ∧
       (∀ t0, (s.getProt r).olAbove = some t0 → t0 + 10000000 ≤ s.now → (s.getProt r).running = true →
         ∃ t, exec (.overloadShutdown r) s = .next t ∧ ((t.getProt r).st = 5 ∨ (t.getProt r).st = 7) ∧
           (t.getProt r).cause = 2 ∧ (∀ k ∈ s.railPhases r, (t.getPh k).pen = false) ∧
           Only [.clk, .rail, .frec, .loop, .hm, .hif, .ldg, .fw, .trs, .syn] s t)) ∧
     ((s.railCfg r).present = true → 10 * (s.getMeas r).iAvg < 9 * (s.railCfg r).iol →
       ∃ t, exec (.overloadCheck r) s = .next t ∧ (t.getProt r).ol = none ∧ (t.getProt r).olAbove = none ∧
         (t.getProt r).st = (s.getProt r).st ∧ Only [.rail, .loop, .hm, .hif, .ldg] s t))

/-- R184–R186, R188, R190: a short-circuit event, outside its blanking, turns both outputs of its phase off until its next
period, and the 8th within 1 ms disables it; a stage fault of 10 ns and a PWM readback mismatch, and with it a contending
phase's, disable their phases at once (a stage pin low for less than 5 ns does nothing; between, a free value decides whether it
counts, as log entry 4 says); an overvoltage puts the rail into CROWBAR with every usable phase pulling low; a voltage below
the undervoltage window stops a rail that is ON with cause 1. Completes: SC_TRIP, STAGE_FAULT, PWM_READBACK, OVERVOLTAGE,
UNDERVOLTAGE. -/
def Obligations.ProtectionsAct : Prop :=
  ∀ (s : State) (p : PhaseId) (r : RailId), s.live = true →
    (scBlanked s p = true → exec (.scTrip p) s = .next s) ∧
    ((s.phCfg p).present = true → scBlanked s p = false →
      let old := (s.getPh p).scTimes.filter fun t => s.now < t + 1000000
      (∃ t, exec (.scTrip p) s = .next t ∧ (t.getPh p).pen = false ∧ (t.getPh p).pwm = false ∧ (t.getPh p).scOff = true ∧
        (t.getPh p).scTotal = satInc 16 (s.getPh p).scTotal ∧
        (7 ≤ old.length → (s.getPh p).st ≠ 6 → (t.getPh p).scLatch = true ∧ ((t.getPh p).st = 6 ∨ (t.getPh p).st = 7)) ∧
        (old.length < 7 → (t.getPh p).st = (s.getPh p).st ∧ (∀ k, k ≠ p.val → t.getPh k = s.getPh k)) ∧
        Only [.clk, .rail, .frec, .loop, .hm, .hif, .ldg, .fw, .fc, .trs, .syn, .aud] s t)) ∧
    ((s.phCfg p).present = true →
      (∀ ns, 10 ≤ ns → (s.getPh p).stage = false → ∃ t, exec (.stageFault p (.low ns)) s = .next t ∧
        (t.getPh p).stage = true ∧ (t.getPh p).pflt = true ∧ (t.getPh p).pen = false ∧
        ((t.getPh p).st = 6 ∨ (t.getPh p).st = 7) ∧
        Only [.clk, .rail, .frec, .loop, .hm, .hif, .ldg, .fw, .fc, .trs, .syn, .aud] s t) ∧
      (∀ ns, 5 ≤ ns → ns < 10 → ∃ t, exec (.stageFault p (.low ns)) s = .next t ∧ (t.getPh p).pflt = true ∧
        ((t.getPh p).stage = (s.getPh p).stage ∨ (t.getPh p).stage = true) ∧
        Only [.clk, .rail, .frec, .loop, .hm, .hif, .ldg, .fw, .fc, .trs, .syn, .aud, .free] s t) ∧
      (∀ ns < 5, exec (.stageFault p (.low ns)) s = .next (s.updPh p fun x => { x with pflt := true })) ∧
      exec (.stageFault p .high) s = .next (s.updPh p fun x => { x with pflt := false })) ∧
    (∀ pad : Fin 2, (s.phCfg p).present = true → (s.getPh p).readback = false →
      ∃ t, exec (.pwmReadback p pad none) s = .next t ∧ (t.getPh p).readback = true ∧ (t.getPh p).rbKind = 0 ∧
        (t.getPh p).pen = false ∧ ((t.getPh p).st = 6 ∨ (t.getPh p).st = 7) ∧
        Only [.clk, .rail, .frec, .loop, .hm, .hif, .ldg, .fw, .fc, .trs, .syn, .aud] s t) ∧
    (∀ (pad : Fin 2) (o : PhaseId), o ≠ p → (s.phCfg p).present = true → (s.getPh p).readback = false →
      (s.phCfg o).present = true → (s.getPh o).readback = false →
      ∃ t, exec (.pwmReadback p pad (some o)) s = .next t ∧
        (∀ k, k = p.val ∨ k = o.val → (t.getPh k).readback = true ∧ (t.getPh k).rbKind = 1 ∧ (t.getPh k).pen = false ∧
          ((t.getPh k).st = 6 ∨ (t.getPh k).st = 7)) ∧
        Only [.clk, .rail, .frec, .loop, .hm, .hif, .ldg, .fw, .fc, .trs, .syn, .aud] s t) ∧
    ((s.railCfg r).present = true → (s.getProt r).st ≠ 6 → ∃ t, exec (.overvoltage r) s = .next t ∧ (t.getProt r).st = 6 ∧
      (t.getProt r).cause = 7 ∧ (∀ k ∈ s.usablePhases r, (t.getPh k).pen = true ∧ (t.getPh k).pwm = false) ∧
      Only [.clk, .rail, .frec, .loop, .hm, .hif, .ldg, .fw, .trs, .syn] s t) ∧
    ((s.getProt r).st = 6 → exec (.overvoltage r) s = .next s) ∧
    (∀ low : Fin 65536, ((s.getProt r).st = 3 → belowWindow s r low = true → ∃ t, exec (.undervoltage r low) s = .next t ∧
        ((t.getProt r).st = 5 ∨ (t.getProt r).st = 7) ∧ (t.getProt r).cause = 1 ∧
        (∀ k ∈ s.railPhases r, (t.getPh k).pen = false) ∧
        Only [.clk, .rail, .frec, .loop, .hm, .hif, .ldg, .fw, .trs, .syn] s t) ∧
      ((s.getProt r).st ≠ 3 ∨ belowWindow s r low = false → exec (.undervoltage r low) s = .next s))

/-- R185, R189, R194: CROWBAR is left only below 100 mV, to FAULT or LATCHED; FAULT is left to OFF unless its cause
persists; a phase's latched faults are cleared one by one, `STAGE` only while its pin is high, and a phase without any
left is off again. R69: after a VANA loss every clear is refused. R196, R197, R200, R201: the first queued record goes into the
next slot of the ring under the next number, which its pointer entry names; a failed program counts it as not committed; a
loaded slot fills the window, zeros above slot 319; the last erase makes the ring ready. Completes: CROWBAR_RELEASED,
FAULT_CLEAR, PHASE_FAULT_CLEAR, FREC_COMMITTED, FREC_SLOT_LOADED, SECTOR_ERASE_DONE. -/
def Obligations.FaultsClearedAndRecorded : Prop :=
  (∀ (s : State) (m : Fin 16), Emulates s →
     let r := s.rail.sel
     let p := s.rail.phSel
     let x := s.getPh p
     let refuse : Nat → Res := fun st => .next (hsAnswer 0 0 (s.onRail fun y => { y with res := st }))
     (s.pwr.vanaLoss = true → exec .crowbarReleased s = refuse 0x3070 ∧ exec .faultClear s = refuse 0x3070 ∧
       exec (.phaseFaultClear m) s = refuse 0x3070) ∧
     (s.pwr.vanaLoss = false → (s.getProt r).st ≠ 6 → exec .crowbarReleased s = refuse 0) ∧
     ((s.getProt r).st = 6 → 400 ≤ (s.getMeas r).v → exec .crowbarReleased s = refuse 0x3070) ∧
     (s.pwr.vanaLoss = false → (s.getProt r).st = 6 → (s.getMeas r).v < 400 → ∃ t, exec .crowbarReleased s = .next t ∧
       (t.getProt r).st = (if (s.getProt r).latched then 7 else 5) ∧ t.rail.res = 0 ∧
       (∀ k ∈ s.railPhases r, (t.getPh k).pen = false) ∧ (∀ k, k ≠ r → t.getProt k = s.getProt k) ∧
       (QRoom 0x32 s → Logs 0x32 0x3041 r 0 0 0 s t) ∧ Only [.rail, .hm, .hs, .hif, .ldg] s t) ∧
     (s.pwr.vanaLoss = false → (s.getProt r).st ≠ 5 → exec .faultClear s = refuse 0) ∧
     ((s.getProt r).st = 5 → s.aud.tripActive = true → exec .faultClear s = refuse 0x3070) ∧
     ((s.getProt r).st = 5 → (s.getProt r).cause = 3 → (s.usablePhases r).length < (s.railCfg r).nreq →
       exec .faultClear s = refuse 0x3070) ∧
     (s.pwr.vanaLoss = false → (s.getProt r).st = 5 → s.aud.tripActive = false →
       ((s.getProt r).cause = 3 → (s.railCfg r).nreq ≤ (s.usablePhases r).length) →
       exec .faultClear s = .next (hsAnswer 0 0
         ((s.updProt r fun y => { y with st := 0, cause := 0 }).onRail fun y => { y with res := 0 }))) ∧
     (s.pwr.vanaLoss = false → ∃ t, exec (.phaseFaultClear m) s = .next t ∧
       t.rail.res = (if bitOf m 1 && x.stage && x.pflt then 0x3070 else 0) ∧
       (t.getPh p).scLatch = (x.scLatch && !bitOf m 0) ∧ (t.getPh p).stage = (x.stage && (!bitOf m 1 || x.pflt)) ∧
       (t.getPh p).readback = (x.readback && !bitOf m 2) ∧ (t.getPh p).idFail = (x.idFail && !bitOf m 3) ∧
       (x.st = 6 → (t.getPh p).scLatch = false → (t.getPh p).stage = false → (t.getPh p).readback = false →
         (t.getPh p).idFail = false → (t.getPh p).st = 1) ∧
       (x.st = 6 → (t.getPh p).scLatch = true ∨ (t.getPh p).stage = true ∨ (t.getPh p).readback = true ∨
         (t.getPh p).idFail = true → (t.getPh p).st = 6) ∧
       (x.st ≠ 6 → (t.getPh p).st = x.st) ∧ (∀ k, k ≠ p → t.getPh k = s.getPh k) ∧ Only [.rail, .hs] s t)) ∧
  (∀ (s : State) (r : FRecord) (rest : List FRecord), s.live = true →
     (s.frec.queue = r :: rest → s.frec.busy = true →
       let slot := if s.frec.ptrValid then (s.frec.ptrSlot + 1) % 320 else 0
       let seq := if s.frec.ptrSeq + 1 < 0xFFFFFFFF then s.frec.ptrSeq + 1 else 0
       (∃ t, exec (.frecCommitted true) s = .next t ∧ t.frec.queue = rest ∧ t.frec.ptrSlot = slot ∧ t.frec.ptrSeq = seq ∧
         t.frec.ptrValid = true ∧ t.frec.overflow = false ∧ t.pwr.fwWait = false ∧
         Tbl.get none t.frec.slots slot = some { r with seq := seq, flags := r.flags + 16 * b2n s.frec.overflow } ∧
         (s.frec.ptrSector < 2 → s.frec.ptrs.length = 2 → (t.frec.ptrs.getD t.frec.ptrSector []).getLast? = some
           (seq, slot, FRecord.check { r with seq := seq, flags := r.flags + 16 * b2n s.frec.overflow })) ∧
         Only [.pwr, .frec, .hm, .hif, .ldg, .fw] s t) ∧
       (∃ t, exec (.frecCommitted false) s = .next t ∧ t.frec.queue = rest ∧ t.frec.slots = s.frec.slots ∧
         t.frec.notCommit = satInc 16 s.frec.notCommit ∧ t.frec.overflow = true ∧
         (QRoom 0x32 s → Logs 0x32 0x3061 r.code 1 0 0 s t) ∧ Only [.pwr, .frec, .hm, .hif, .ldg, .fw] s t)) ∧
     (s.frec.busy = false → ∀ ok, exec (.frecCommitted ok) s = .next s) ∧
     (s.nvDown = true → exec .frecSlotLoaded s = .next s) ∧
     (s.nvDown = false → exec .frecSlotLoaded s = .next (s.onFrec fun f => { f with
       loaded := true,
       win := if 320 ≤ f.sel then List.replicate 32 0 else frecWords (Tbl.get none f.slots f.sel) })) ∧
     (∀ a l, s.frec.erasing = a :: l → exec .sectorEraseDone s = .next (s.onFrec fun f => { f with
       erasing := l, ready := f.ready || l.isEmpty, init := f.init && !l.isEmpty })) ∧
     (s.frec.erasing = [] → exec .sectorEraseDone s = .next s))

/-- R318, R324, R325: SET raises a flag's level, and its generation when the level was 0, and releases every WAIT_SET
on it; CLEAR lowers the level, keeps the generation and releases every WAIT_CLEAR; both answer with the flag as it now
shows and whether it changed. A wait whose condition holds is answered at once; any other is held with the generation
it saw. R320, R321, R322, R324: INC and DEC change a count by their amount, stop at 65,535 and at 0 with the status
that says so, and an INC releases every WAIT_GE it satisfies; an arrival that completes its group releases the
arrivals, starts the count again, raises the generation and takes the common base, the least value of its members, off
each of them; any other is held and counted. Completes: SYN_SET, SYN_CLEAR, WAIT_SET, WAIT_CLEAR, SYN_INC, SYN_DEC, WAIT_GE,
BARRIER_ARRIVE. -/
def Obligations.FlagsCountsAndBarriers : Prop :=
  (∀ (s : State) (src : EngId) (q : Fin 4) (ctx : CtxId) (o : ObjId) (tmo : Fin 4), Accepts src q s →
     MayUse ctx o false s → WaitersOk s →
     let x := s.getObj o
     let lane := s.laneOf src
     let g := if x.level then x.gen else (x.gen + 1) % 16
     let w := 4 * src.val + q.val
     (∃ t, exec (.synSet src q ctx o) s = .next t ∧ (t.getObj o).level = true ∧ (t.getObj o).gen = g ∧
       Responds lane src q 0 (1 + 16 * g + (if x.level then 0 else 256)) s t ∧
       (∀ k y, s.waiter k = some y → y.obj = o → y.op = 3 → t.waiter k = none) ∧
       (∀ k y, s.waiter k = some y → y.obj ≠ o → t.waiter k = some y) ∧ (∀ k, k ≠ o.val → t.getObj k = s.getObj k) ∧
       Only [.hm, .ep, .hif, .ldg, .trs, .syn] s t) ∧
     (∃ t, exec (.synClear src q ctx o) s = .next t ∧ (t.getObj o).level = false ∧ (t.getObj o).gen = x.gen ∧
       Responds lane src q 0 (16 * x.gen + (if x.level then 256 else 0)) s t ∧
       (∀ k y, s.waiter k = some y → y.obj = o → y.op = 4 → t.waiter k = none) ∧
       (∀ k y, s.waiter k = some y → y.obj ≠ o → t.waiter k = some y) ∧ (∀ k, k ≠ o.val → t.getObj k = s.getObj k) ∧
       Only [.hm, .ep, .hif, .ldg, .trs, .syn] s t) ∧
     (x.level = true → exec (.waitSet src q ctx o tmo) s = .next (epRespond lane src q 0 (1 + 16 * x.gen) s)) ∧
     (x.level = false → exec (.waitClear src q ctx o tmo) s = .next (epRespond lane src q 0 (16 * x.gen) s)) ∧
     (∀ (c : Instr) (op : Nat), (x.level = false ∧ c = .waitSet src q ctx o tmo ∧ op = 3) ∨
         (x.level = true ∧ c = .waitClear src q ctx o tmo ∧ op = 4) →
       ∃ t, exec c s = .next t ∧ t.waiter w = some
           { obj := o, op := op, arg := x.gen, ctx := ctx, mode := (s.getCore (w / 64)).mode, tmo := tmo,
             start := s.now, ord := s.syn.ord } ∧
         (∀ k, k ≠ w → t.waiter k = s.waiter k) ∧ t.syn.obj = s.syn.obj ∧ Only [.hm, .hif, .ldg, .trs, .syn] s t)) ∧
  (∀ (s : State) (src : EngId) (q : Fin 4) (ctx : CtxId) (o : ObjId) (n : Fin 65536) (tmo : Fin 4), Accepts src q s →
     MayUse ctx o true s → WaitersOk s →
     let v := (s.getObj o).value
     let lane := s.laneOf src
     let w := 4 * src.val + q.val
     (∃ t, exec (.synInc src q ctx o n) s = .next t ∧ (t.getObj o).value = min 65535 (v + n) ∧
       Responds lane src q (if v + n ≤ 65535 then 0 else 0x7005) (min 65535 (v + n)) s t ∧
       (∀ k y, s.waiter k = some y → y.obj = o → y.op = 7 → y.arg ≤ min 65535 (v + n) → t.waiter k = none) ∧
       (∀ k y, s.waiter k = some y → y.obj ≠ o → t.waiter k = some y) ∧ (∀ k, k ≠ o.val → t.getObj k = s.getObj k) ∧
       Only [.hm, .ep, .hif, .ldg, .trs, .syn] s t) ∧
     (∃ t, exec (.synDec src q ctx o n) s = .next t ∧ (t.getObj o).value = v - n ∧
       Responds lane src q (if n ≤ v then 0 else 0x7004) (v - n) s t ∧ (∀ k, k ≠ o.val → t.getObj k = s.getObj k) ∧
       Only [.hm, .ep, .hif, .ldg, .trs, .syn] s t) ∧
     (n ≤ v → exec (.waitGe src q ctx o n tmo) s = .next (epRespond lane src q 0 v s)) ∧
     (v < n → ∃ t, exec (.waitGe src q ctx o n tmo) s = .next t ∧ t.waiter w = some
         { obj := o, op := 7, arg := n, ctx := ctx, mode := (s.getCore (w / 64)).mode, tmo := tmo, start := s.now,
           ord := s.syn.ord } ∧
       (∀ k, k ≠ w → t.waiter k = s.waiter k) ∧ t.syn.obj = s.syn.obj ∧ Only [.hm, .hif, .ldg, .trs, .syn] s t) ∧
     (∀ g, s.groupOf o = some g →
       ((s.getGrp g).arrived + 1 < (s.getGrp g).p → ∃ t, exec (.barrierArrive src q ctx o tmo) s = .next t ∧
         t.getGrp g = { s.getGrp g with arrived := (s.getGrp g).arrived + 1 } ∧ (t.waiter w).map Waiter.op = some 8 ∧
         (t.waiter w).map Waiter.obj = some o.val ∧ (∀ k, k ≠ w → t.waiter k = s.waiter k) ∧ t.syn.obj = s.syn.obj ∧
         Only [.hm, .hif, .ldg, .trs, .syn] s t) ∧
       ((s.getGrp g).p ≤ (s.getGrp g).arrived + 1 → ∃ t, exec (.barrierArrive src q ctx o tmo) s = .next t ∧
         (t.getGrp g).arrived = 0 ∧ (t.getGrp g).gen = ((s.getGrp g).gen + 1) % 256 ∧
         (∀ k y, s.waiter k = some y → y.op = 8 → y.obj ∈ (s.getGrp g).members → t.waiter k = none) ∧
         (∀ m, m ∉ (s.getGrp g).members → t.getObj m = s.getObj m) ∧
         ((s.getGrp g).members.Nodup → ∀ m ∈ (s.getGrp g).members, (t.getObj m).value = (s.getObj m).value -
           ((s.getGrp g).members.map fun k => (s.getObj k).value).foldl min 65535) ∧
         (∃ l, (t.getEp lane).resp = (s.getEp lane).resp ++ l ++
           [{ rsrc := src, rq := q, rstat := 0, rval := ((s.getGrp g).gen + 1) % 256 }]) ∧
         Only [.hm, .ep, .hif, .ldg, .trs, .syn] s t)))

/-- R40, R41, R44, R326: a malformed request is answered 0x7001 and does nothing else; a request for an object outside
the context's map is answered 0x7002 and one for a poisoned object 0x700A, and neither touches an object or a waiter;
a queue with a request outstanding presents no other, and a full lane withholds a request; a response that the host takes
leaves its lane, and a withheld request is then accepted. R317, R329, R330: a timeout-mode wait past its deadline fails with
0x7006, and the watchdog of a core fails every watchdog-mode wait of it; an uncorrectable error poisons its object and
fails every wait on it, and a corrected one is only counted. Completes: MALFORMED_REQUEST, EP_RESPONSE_TAKEN, SYN_TIMEOUT,
SYN_WATCHDOG_FIRE, SYN_ECC. -/
def Obligations.RequestsRefusedAndWaitsFail : Prop :=
  (∀ (s : State) (lane : ClusterId) (r : EpReq) (src : EngId) (q : Fin 4) (ctx : CtxId) (o : ObjId), s.live = true →
     (s.engineOk r.src = false ∨ epFieldsOk r = false → s.queueBusy lane r.src r.q = false →
       (s.getEp lane).resp.length < 64 →
       exec (.malformedRequest lane r) s = .next (epRespond lane r.src r.q 0x7001 0 s)) ∧
     (s.engineOk r.src = true → epFieldsOk r = true → exec (.malformedRequest lane r) s = .next s) ∧
     (s.engineOk r.src = false ∨ epFieldsOk r = false → s.queueBusy lane r.src r.q = true →
       exec (.malformedRequest lane r) s = .next s) ∧
     (s.engineOk r.src = false ∨ epFieldsOk r = false → s.queueBusy lane r.src r.q = false →
       64 ≤ (s.getEp lane).resp.length → exec (.malformedRequest lane r) s =
         .next (s.updEp lane fun l => { l with withheld := l.withheld ++ [r] })) ∧
     ((s.getEp lane).withheld = [] → exec (.epResponseTaken lane) s =
       .next (s.updEp lane fun l => { l with resp := l.resp.tail })) ∧
     ((s.getEp lane).withheld = [r] → (s.getEp lane).resp.tail.length < 64 → exec (.epResponseTaken lane) s =
       .next (epProcess lane r ((s.updEp lane fun l => { l with resp := l.resp.tail }).updEp lane
         fun l => { l with withheld := [] }))) ∧
     (Accepts src q s → s.mapHas ctx (o / 64) = false → ∃ t, exec (.synSet src q ctx o) s = .next t ∧
       Responds (s.laneOf src) src q 0x7002 0 s t ∧ t.syn.viol = satInc 16 s.syn.viol ∧ t.syn.obj = s.syn.obj ∧
       t.syn.wtr = s.syn.wtr ∧ Only [.hm, .ep, .hif, .ldg, .syn] s t) ∧
     (Accepts src q s → s.mapHas ctx (o / 64) = true → (s.getObj o).poison = true →
       exec (.synSet src q ctx o) s = .next (epRespond (s.laneOf src) src q 0x700A 0 s))) ∧
  (∀ (s : State) (w : Fin 8192) (k : CoreId) (o : ObjId), s.live = true → WaitersOk s →
     (∀ x, s.waiter w = some x → x.mode = false →
       (x.start + s.syn.tmo.getD x.tmo 0 * 1000 ≤ s.now → ∃ t, exec (.synTimeout w) s = .next t ∧ t.waiter w = none ∧
         Responds (s.coreClu (w.val / 64)) (w.val / 4) (w.val % 4) 0x7006 (s.getObj x.obj).shown s t ∧
         (∀ j, j ≠ w.val → t.waiter j = s.waiter j) ∧ t.syn.obj = s.syn.obj ∧ t.syn.failed = satInc 16 s.syn.failed ∧
         Only [.hm, .ep, .hif, .ldg, .trs, .syn] s t) ∧
       (s.now < x.start + s.syn.tmo.getD x.tmo 0 * 1000 → exec (.synTimeout w) s = .next s)) ∧
     (∀ x, s.waiter w = some x → x.mode = true → exec (.synTimeout w) s = .next s) ∧
     (∀ t0, (s.getCore k).wd = some t0 →
       (t0 + (s.getCore k).wdMs * 1000000 ≤ s.now → ∃ t, exec (.synWatchdogFire k) s = .next t ∧
         (t.getCore k).wdFired = true ∧
         (∀ j x, s.waiter j = some x → j / 64 = k → x.mode = true → t.waiter j = none) ∧
         (∀ j x, s.waiter j = some x → j / 64 ≠ k ∨ x.mode = false → t.waiter j = some x) ∧ t.syn.obj = s.syn.obj ∧
         Only [.hm, .ep, .hif, .ldg, .trs, .syn] s t) ∧
       (s.now < t0 + (s.getCore k).wdMs * 1000000 → exec (.synWatchdogFire k) s = .next s)) ∧
     (∃ t, exec (.synEcc o false) s = .next t ∧ (t.getObj o).poison = true ∧
       (∀ j x, s.waiter j = some x → x.obj = o → t.waiter j = none) ∧
       (∀ j x, s.waiter j = some x → x.obj ≠ o → t.waiter j = some x) ∧ (∀ j, j ≠ o.val → t.getObj j = s.getObj j) ∧
       Only [.hm, .ep, .hif, .ldg, .trs, .syn] s t) ∧
     exec (.synEcc o true) s = .next (s.onSyn fun y => { y with eccCorr := satInc 16 y.eccCorr }))

/-- R328, R336, R338, R340: a core that may lend lends the part of its cluster's own share above the floor power; a
core or unit register with a field out of range is refused; `ESC_EN` 0 ends the core's loan and `EN` 0 every loan; without
feature `ESCROW` `EN` is discarded; the unit's counts are cleared. Completes: ESCROW_LEND, SYN_CORE_CFG_WRITE, ESC_CFG_WRITE,
SYN_CTRL_CLR. -/
def Obligations.EscrowLendsAndReclaims : Prop :=
  ∀ (s : State) (k : CoreId) (v : Word),
    (s.live = true → (s.mayLend k = true → ∃ t, exec (.escrowLend k) s = .next t ∧ (t.getCore k).lent = some s.now ∧
        (t.getCore k).loan = s.lendAmt (s.coreClu k) ∧ (t.getCore k).taken = false ∧ t.syn.lends = satInc 16 s.syn.lends ∧
        (∀ j, j ≠ k.val → t.getCore j = s.getCore j) ∧ Only [.hm, .hif, .ldg, .syn] s t) ∧
      (s.mayLend k = false → exec (.escrowLend k) s = .next s)) ∧
    (Emulates s →
      (bits v.toNat 2 4 = 0 ∨ bits v.toNat 16 16 = 0 → exec (.synCoreCfgWrite v) s =
        .next (hsAnswer 0 0 (s.onSyn fun y => { y with res := 0x700D }))) ∧
      (bits v.toNat 2 4 ≠ 0 → bits v.toNat 16 16 ≠ 0 → ∃ t, exec (.synCoreCfgWrite v) s = .next t ∧ t.syn.res = 0 ∧
        (t.getCore s.syn.coreSel).mode = bitOf v.toNat 0 ∧ (t.getCore s.syn.coreSel).escEn = bitOf v.toNat 1 ∧
        (t.getCore s.syn.coreSel).qmask = bits v.toNat 2 4 ∧ (t.getCore s.syn.coreSel).wdMs = bits v.toNat 16 16 ∧
        (bitOf v.toNat 1 = false → (t.getCore s.syn.coreSel).lent = none) ∧ t.syn.wtr = s.syn.wtr ∧
        (∀ j, j ≠ s.syn.coreSel → t.getCore j = s.getCore j) ∧ Only [.hm, .hs, .hif, .ldg, .trs, .syn] s t) ∧
      (bits v.toNat 0 8 < 4 → exec (.escCfgWrite v) s =
        .next (hsAnswer 0 0 (s.onSyn fun y => { y with res := 0x700D }))) ∧
      (4 ≤ bits v.toNat 0 8 → s.feat 2 = true → ∃ t, exec (.escCfgWrite v) s = .next t ∧ t.syn.res = 0 ∧
        t.syn.tlend = bits v.toNat 0 8 ∧ t.syn.en = bitOf v.toNat 8 ∧ t.syn.log = bitOf v.toNat 9 ∧
        (bitOf v.toNat 8 = false → ∀ c ∈ s.clusters, ∀ j ∈ s.cluCores c, (t.getCore j).lent = none) ∧
        Only [.hm, .hs, .hif, .ldg, .trs, .syn] s t) ∧
      (4 ≤ bits v.toNat 0 8 → s.feat 2 = false → ∃ t, exec (.escCfgWrite v) s = .next t ∧ t.syn.res = 0 ∧
        t.syn.tlend = bits v.toNat 0 8 ∧ t.syn.en = s.syn.en ∧ t.syn.log = bitOf v.toNat 9 ∧
        Only [.hm, .hs, .hif, .ldg, .trs, .syn] s t) ∧
      exec .synCtrlClr s = .next (hsAnswer 0 0 (s.onSyn fun y =>
        { y with udf := 0, ovf := 0, race := 0, viol := 0, failed := 0, lends := 0, res := 0 })))

/-- R268–R271: with nothing due in the cluster's queue, a hint that passes the checks of Table 10.1 is merged with the first
entry it coalesces with, and otherwise enters the lowest free entry with its times and its present epoch, and is answered with
the entry's number, whether it was merged and whether it came late; a hint that fails a check, or finds the queue full, is
answered with its status and queues nothing; RELEASE cuts the end times of the context's entries. R269, R280, R281, R283: an
entry leaves its queue at t_e; an entry that is due is evaluated once, as a hit or a miss of its class and its context; trust
comes back at the end of `DIST_MS`; class entries and permission words are refused when out of range, and otherwise written;
the clears and the default set do what they name. Completes: HINT_OP, RELEASE_HINT, HINT_EXPIRE, HINT_EVALUATE,
HINT_TRUST_BACK, HINT_CLASS_SET, FC_DEFAULT, CLR_ACC. -/
def Obligations.HintsQueuedAndEvaluated : Prop :=
  (∀ (s : State) (src : EngId) (q : Fin 4) (ctx : CtxId) (cls inten lead : Fin 256), Accepts src q s →
     let c := s.laneOf src
     let th := s.now + 250 * lead
     let late := if 16 ≤ lead.val then 0 else 512
     let joins : Nat → HintEnt → Prop := fun e x => e < 32 ∧ s.hint c e = some x ∧ x.ctx = ctx ∧ x.cls = cls ∧
       x.early = decide (16 ≤ lead.val) ∧ timeDist x.th th ≤ 1000
     (∀ e < 32, ∀ x, s.hint c e = some x → s.now < x.te ∧ s.now < x.evalAt) →
     (cls.val ≠ 0 →
       (s.fwUp = true → s.feat 1 = true → (s.getHc cls).en = true → s.hintMay ctx cls = true → s.distrusted ctx = false →
         (∀ e x, joins e x → (∀ j y, joins j y → e ≤ j) → ∃ t, exec (.hintOp src q ctx cls inten lead) s = .next t ∧
           t.hint c e = some
             { x with inten := max x.inten inten, th := min x.th th, te := max x.te (th + (s.getHc cls).dur * 1000) } ∧
           Responds c src q 0 (e + 256 + late) s t ∧
           (t.getHc cls).coalesced = satInc 16 (s.getHc cls).coalesced ∧ Only [.ep, .fc] s t) ∧
         (∀ e < 32, s.hint c e = none → (∀ j < e, s.hint c j ≠ none) → (∀ j x, ¬ joins j x) →
           ∃ t, exec (.hintOp src q ctx cls inten lead) s = .next t ∧
           t.hint c e = some
             { ctx := ctx, epoch := (s.getTx ctx).epoch, cls := cls, inten := inten,
               early := decide (16 ≤ lead.val), tacc := s.now, th := th,
               te := th + (s.getHc cls).dur * 1000, ev := min (s.getHc cls).dur 8 * 1000 } ∧
           Responds c src q 0 (e + late) s t ∧
           (t.getHc cls).accepted = satInc 16 (s.getHc cls).accepted ∧ Only [.ep, .fc] s t) ∧
         ((∀ e < 32, s.hint c e ≠ none) → (∀ j x, ¬ joins j x) → ∃ t, exec (.hintOp src q ctx cls inten lead) s = .next t ∧
           Responds c src q 0x6804 0 s t ∧ t.fc.q = s.fc.q ∧ Only [.hm, .ep, .hif, .ldg, .fc] s t)) ∧
       (∀ st, (s.fwUp = false ∧ st = 0x6805) ∨ (s.fwUp = true ∧ s.feat 1 = false ∧ st = 0x6801) ∨
           (s.fwUp = true ∧ s.feat 1 = true ∧ (s.getHc cls).en = false ∧ st = 0x6801) ∨
           (s.fwUp = true ∧ s.feat 1 = true ∧ (s.getHc cls).en = true ∧ s.hintMay ctx cls = false ∧ st = 0x6802) ∨
           (s.fwUp = true ∧ s.feat 1 = true ∧ (s.getHc cls).en = true ∧ s.hintMay ctx cls = true ∧
             s.distrusted ctx = true ∧ st = 0x6803) →
         ∃ t, exec (.hintOp src q ctx cls inten lead) s = .next t ∧ Responds c src q st 0 s t ∧ t.fc.q = s.fc.q ∧
           Only [.hm, .ep, .hif, .ldg, .fc] s t)) ∧
     (s.fwUp = true → s.feat 1 = true → s.distrusted ctx = false → ∃ t, exec (.releaseHint src q ctx lead) s = .next t ∧
       Responds c src q 0 0 s t ∧
       (∀ e < 32, ∀ x, s.hint c e = some x → t.hint c e =
         if x.ctx = ctx ∧ s.now + 250 * lead < x.te then
           (if s.now + 250 * lead ≤ x.th then none else some { x with te := s.now + 250 * lead })
         else some x) ∧
       (∀ e < 32, s.hint c e = none → t.hint c e = none) ∧ Only [.ep, .fc] s t)) ∧
  (∀ (s : State) (c : ClusterId) (e : Fin 32) (ctx : CtxId) (k : Fin 8) (v : Word),
     (s.live = true →
       (∀ x, s.hint c e = some x →
         (x.te ≤ s.now → ∃ t, exec (.hintExpire c e) s = .next t ∧ t.hint c e = none ∧
           Only [.hm, .hif, .ldg, .fc] s t) ∧
         (s.now < x.te → exec (.hintExpire c e) s = .next s) ∧
         (x.judged = true → exec (.hintEvaluate c e) s = .next s) ∧
         (s.now < x.evalAt ∨ x.epoch ≠ (s.getTx x.ctx).epoch → exec (.hintEvaluate c e) s = .next s) ∧
         (x.judged = false → x.evalAt ≤ s.now → x.epoch = (s.getTx x.ctx).epoch →
           let i0 := x.i0.getD (s.getClu c).iApp
           let hit := if x.n = 0 then decide (x.inten * (s.getHc x.cls).ipu ≤ ((s.getClu c).iApp - i0) * 16)
             else decide (x.n * i0 * 16 + x.n * x.inten * (s.getHc x.cls).ipu ≤ x.isum * 16)
           ∃ t, exec (.hintEvaluate c e) s = .next t ∧
             (t.hint c e = some { x with judged := true } ∨ t.hint c e = none) ∧
             (t.getHx x.ctx).out = ((!hit) :: (s.getHx x.ctx).out).take 256 ∧
             (t.getHc x.cls).hits = (if hit then satInc 16 (s.getHc x.cls).hits else (s.getHc x.cls).hits) ∧
             (t.getHc x.cls).misses = (if hit then (s.getHc x.cls).misses else satInc 16 (s.getHc x.cls).misses) ∧
             Only [.hm, .hif, .ldg, .fc] s t)) ∧
       (∀ u, (s.getHx ctx).until_ = some u →
         (u ≤ s.now → ∃ t, exec (.hintTrustBack ctx) s = .next t ∧
           t.getHx ctx = { s.getHx ctx with until_ := none, out := [] } ∧ (∀ j, j ≠ ctx.val → t.getHx j = s.getHx j) ∧
           (QRoom 0x20 s → Logs 0x20 0x6822 ctx 0 0 0 s t) ∧ Only [.hm, .hif, .ldg, .fc] s t) ∧
         (s.now < u → exec (.hintTrustBack ctx) s = .next s))) ∧
     (Emulates s →
       (hcOk s.fc.hcSel v.toNat s = false → exec (.hintClassSet false k v) s =
         .next (hsAnswer 0 0 (s.onFc fun f => { f with res := 0x6806 }))) ∧
       (hcOk s.fc.hcSel v.toNat s = true → ∃ t, exec (.hintClassSet false k v) s = .next t ∧ t.fc.res = 0 ∧
         (t.getHc s.fc.hcSel).set = bits v.toNat 0 6 ∧ (t.getHc s.fc.hcSel).setValid = bitOf v.toNat 6 ∧
         (t.getHc s.fc.hcSel).en = bitOf v.toNat 7 ∧ (t.getHc s.fc.hcSel).dur = bits v.toNat 8 8 ∧
         (t.getHc s.fc.hcSel).feat = bits v.toNat 16 8 ∧ (t.getHc s.fc.hcSel).ipu = bits v.toNat 24 8 ∧
         (∀ j, j ≠ s.fc.hcSel → t.getHc j = s.getHc j) ∧
         (QRoom 0x20 s → Logs 0x20 0x6823 s.fc.hcSel 0 0 0 s t) ∧ Only [.hm, .hs, .hif, .ldg, .fc] s t) ∧
       (s.fc.hxSel = 0 → exec (.hintClassSet true k v) s = .next (hsAnswer 0 0 (s.onFc fun f => { f with res := 0x6806 }))) ∧
       (s.fc.hxSel ≠ 0 → ∃ t, exec (.hintClassSet true k v) s = .next t ∧ t.fc.res = 0 ∧
         bits (t.getHx s.fc.hxSel).perm (32 * k.val) 32 = (if k.val = 0 then v.toNat - v.toNat % 2 + 1 else v.toNat) ∧
         (∀ j < 8, j ≠ k.val → bits (t.getHx s.fc.hxSel).perm (32 * j) 32 = bits (s.getHx s.fc.hxSel).perm (32 * j) 32) ∧
         (∀ j, j ≠ s.fc.hxSel → t.getHx j = s.getHx j) ∧ Only [.hm, .hs, .hif, .ldg, .fc] s t) ∧
       exec .fcDefault s = .next (hsAnswer 0 0 ((s.updFcCl s.fc.clSel fun x =>
         { x with useDef := true, defAt := s.now }).onFc fun f => { f with res := 0 })) ∧
       ∃ t, exec .clrAcc s = .next t ∧ t.fc.res = 0 ∧ (t.getFcCl s.fc.clSel).acc = [{}, {}, {}, {}, {}] ∧
         (∀ j, j ≠ s.fc.clSel → t.getFcCl j = s.getFcCl j) ∧ Only [.hm, .hs, .hif, .ldg, .fc] s t))

/-- R344: a mailbox is read only on an enabled link with no re-read under way, and not while the manager port is in reset; words
that are no message, and are new, are discarded; a message that is not new is left alone; one with a bad CRC is read again
after 250 ns, up to four times, and then counted as discarded; a good one is received, and one that fails a check of
Table 13.1 changes nothing but its link's discard count. R350, R351, R352: a
JOIN is refused on a link that is not enabled or whose `PARENT` flag does not fit, and otherwise answered with an
ACCEPT, after which the link holds the peer's incarnation and the lower version; a new incarnation voids what was
borrowed; an ACCEPT that is awaited makes the link PRESENT, and any other changes no link's state; a LEAVE makes it LEFT and
returns what was borrowed. Completes: MAILBOX_POLL, MSG_REREAD, JOIN, ACCEPT, LEAVE. -/
def Obligations.MessagesAndPeers : Prop :=
  (∀ (s : State) (l : Fin 65) (ws : List Word), s.live = true → s.clrReads = false →
     exec (.mailboxPoll l ws) s = .next s ∧ exec (.msgReread l ws) s = .next s) ∧
  (∀ (s : State) (l : Fin 65) (ws : List Word), s.live = true → s.clrUp = true → s.hm.inReset = false →
     let w := ws.map BitVec.toNat
     let x := s.getLnk l
     (x.en = false ∨ x.reread.isSome = true → exec (.mailboxPoll l ws) s = .next s) ∧
     (x.reread = none → exec (.msgReread l ws) s = .next s) ∧
     (clrParse w = none → x.en = true → x.reread = none →
       (w.length = 24 → x.seqIn < w.getD 2 0 → ∃ t, exec (.mailboxPoll l ws) s = .next t ∧
         (t.getLnk l).discard = satInc 16 x.discard ∧ (t.getLnk l).seqIn = x.seqIn ∧
         (∀ k, k ≠ l.val → t.getLnk k = s.getLnk k) ∧ Only [.hm, .hif, .ldg, .clr] s t) ∧
       (w.length ≠ 24 ∨ w.getD 2 0 ≤ x.seqIn → exec (.mailboxPoll l ws) s = .next s)) ∧
     (∀ typ m, clrParse w = some (typ, m) →
       (x.en = true → x.reread = none →
         (clrNew l typ m s = false → exec (.mailboxPoll l ws) s = .next s) ∧
         (clrNew l typ m s = true → (clrRead w).2 = true → exec (.mailboxPoll l ws) s = .next (clrReceive l typ m s)) ∧
         (clrNew l typ m s = true → (clrRead w).2 = false →
           exec (.mailboxPoll l ws) s = .next (s.updLnk l fun y => { y with reread := some (s.now, 0) }))) ∧
       (∀ t0 n, x.reread = some (t0, n) →
         (s.now < t0 + 250 → exec (.msgReread l ws) s = .next s) ∧
         (t0 + 250 ≤ s.now → (clrRead w).2 = true →
           exec (.msgReread l ws) s = .next (clrReceive l typ m (s.updLnk l fun y => { y with reread := none }))) ∧
         (t0 + 250 ≤ s.now → (clrRead w).2 = false → n < 3 →
           exec (.msgReread l ws) s = .next (s.updLnk l fun y => { y with reread := some (s.now, n + 1) })) ∧
         (t0 + 250 ≤ s.now → (clrRead w).2 = false → 3 ≤ n → ∃ t, exec (.msgReread l ws) s = .next t ∧
           (t.getLnk l).reread = none ∧ (t.getLnk l).discard = satInc 16 x.discard ∧
           Only [.hm, .hif, .ldg, .clr] s t)) ∧
       (x.en = true → clrNew l typ m s = true → clrCheck l typ m s ≠ 0 →
         ∀ c, (typ = 1 ∧ c = .join l m) ∨ (typ = 2 ∧ c = .accept l m) ∨ (typ = 3 ∧ c = .stateMsg l m) ∨ (typ = 4 ∧
           c = .offer l m) ∨ (typ = 5 ∧ c = .lease l m) ∨
             (typ = 6 ∧ c = .returnMsg l m) ∨ (typ = 7 ∧ c = .leave l m) →
           ∃ t, exec c s = .next t ∧ (t.getLnk l).discard = satInc 16 x.discard ∧ (t.getLnk l).seqIn = x.seqIn ∧
             (t.getLnk l).st = x.st ∧ (t.getLnk l).lent = x.lent ∧ (t.getLnk l).bor = x.bor ∧
             (∀ k, k ≠ l.val → t.getLnk k = s.getLnk k) ∧ Only [.hm, .hif, .ldg, .clr] s t))) ∧
  (∀ (s : State) (l : Fin 65) (m : ClrMsg),
     let x := s.getLnk l
     (Receives l 1 m s →
       ((x.en = false ∨ bitOf m.flags 3 ≠ decide (l.val = 0)) → ∃ t, exec (.join l m) s = .next t ∧
         SendsMsg l 2 0 0 (if x.en then 2 else 1) s t ∧ (t.getLnk l).st = x.st ∧ (t.getLnk l).inc = x.inc ∧
         (t.getLnk l).bor = x.bor ∧ (∀ k, k ≠ l.val → t.getLnk k = s.getLnk k) ∧
         (QRoom 0x20 s → Logs 0x20 0x8011 l (if x.en then 2 else 1) 0 0 s t) ∧ Only [.hm, .hif, .ldg, .clr] s t) ∧
       (x.en = true → bitOf m.flags 3 = decide (l.val = 0) → ∃ t, exec (.join l m) s = .next t ∧ SendsMsg l 2 0 0 0 s t ∧
         (t.getLnk l).inc = m.inc ∧ (t.getLnk l).ver = max 1 (min m.ver s.clr.vmax) ∧ (t.getLnk l).seqIn = m.seq ∧
         (t.getLnk l).st = (if x.st = 1 then 1 else 2) ∧ (t.getLnk l).lent = x.lent ∧
         (m.inc ≠ x.inc → ∀ b ∈ (t.getLnk l).bor, b.void = true) ∧ (m.inc = x.inc → (t.getLnk l).bor = x.bor) ∧
         (∀ k, k ≠ l.val → t.getLnk k = s.getLnk k) ∧ Only [.hm, .hif, .ldg, .trs, .clr] s t)) ∧
     (Receives l 2 m s → x.en = true →
       (bitOf m.flags 2 = true → ∃ t, exec (.accept l m) s = .next t ∧ (t.getLnk l).st = x.st ∧
         (∀ k, k ≠ l.val → t.getLnk k = s.getLnk k) ∧
         (QRoom 0x20 s → Logs 0x20 0x8011 l m.cause 1 0 s t) ∧ Only [.hm, .hif, .ldg, .clr] s t) ∧
       (bitOf m.flags 2 = false → x.st ≠ 1 → x.st ≠ 4 → ∃ t, exec (.accept l m) s = .next t ∧ (t.getLnk l).st = x.st ∧
         (t.getLnk l).inc = x.inc ∧ (t.getLnk l).ver = x.ver ∧ (t.getLnk l).bor = x.bor ∧ SendsMsg l 3 0 0 0 s t ∧
         (∀ k, k ≠ l.val → t.getLnk k = s.getLnk k) ∧ Only [.hm, .hif, .ldg, .clr] s t) ∧
       (bitOf m.flags 2 = false → x.st = 1 ∨ x.st = 4 → ∃ t, exec (.accept l m) s = .next t ∧ (t.getLnk l).st = 2 ∧
         (t.getLnk l).inc = m.inc ∧ (t.getLnk l).ver = max 1 (min m.ver s.clr.vmax) ∧ (t.getLnk l).seqIn = m.seq ∧
         SendsMsg l 3 0 0 0 s t ∧ (t.getLnk l).lent = x.lent ∧ (∀ k, k ≠ l.val → t.getLnk k = s.getLnk k) ∧
         Only [.hm, .hif, .ldg, .trs, .clr] s t)) ∧
     (Receives l 7 m s → ∃ t, exec (.leave l m) s = .next t ∧ (t.getLnk l).st = 5 ∧ (t.getLnk l).retry = none ∧
       (∀ b ∈ (t.getLnk l).bor, b.ret.isSome = true ∨ b.void = true) ∧ (t.getLnk l).lent = x.lent ∧
       SendsMsg l 3 0 0 0 s t ∧ (∀ k, k ≠ l.val → t.getLnk k = s.getLnk k) ∧
       (QRoom 0x20 s → Logs 0x20 0x8013 l m.cause 0 0 s t) ∧ Only [.hm, .hif, .ldg, .trs, .clr] s t))

/-- R354: a new lease from a peer in PRESENT whose clock offset is known is taken when neither side is in holdover,
its age is at most 4 µs and the tables have room, with the local expiry of R354; one that is too old, comes in
holdover, comes without offset or finds the tables full is returned with its cause. R355: a renewal moves the expiry of its
lease when it passes the same checks and makes it later, and no other lease's. R353, R354, R356: a RETURN takes its lease out
of the lent table and an unknown one is ignored; a lent lease whose term has passed leaves the table; a borrowed lease leaves
at its local expiry, and its RETURN goes out once `LGUARD` has passed since its return began or the power has fallen, unless
the lease is void. Completes: LEASE, RETURN, CLR_LEASE_EXPIRED, BORROWED_LEASE_EXPIRY, RETURN_SEND. -/
def Obligations.LeasesBorrowedAndEnded : Prop :=
  (∀ (s : State) (l : Fin 65) (m : ClrMsg), Receives l 5 m s → bitOf m.flags 0 = false →
     let u := clrAccept l 5 m s
     let a : Int := (s.now : Int) - m.ts - (u.getLnk l).theta.getD 0
     let e := s.now + (((m.expiryUs * 1000 : Nat) - a - 2000) * (if s.verified then 998 else 960) / 1000).toNat
     let ok := (s.getLnk l).up && u.thetaOk (u.getLnk l) && !s.tb.hold && decide (a ≤ 4000)
     (bitOf m.flags 4 = true → ∃ t, exec (.lease l m) s = .next t ∧ (t.getLnk l).bor = ((s.getLnk l).bor.map fun b =>
       if b.id = m.leaseId ∧ ok = true ∧ b.ret = none ∧ b.void = false ∧ b.counted = true ∧
         s.now + s.trs.lguard * 1000 < b.exp ∧ b.exp < e then { b with exp := e } else b) ∧
       (∀ k, k ≠ l.val → t.getLnk k = s.getLnk k) ∧ Only [.hm, .clr] s t) ∧
     (bitOf m.flags 4 = false → (s.getLnk l).bor.any (fun b => b.id = m.leaseId) = false →
       (s.tb.hold = false → (s.getLnk l).st = 2 → u.thetaOk (u.getLnk l) = true → s.linkAud l = false → a ≤ 4000 →
         (s.getLnk l).bor.length < 8 → u.borN < 520 → ∃ t, exec (.lease l m) s = .next t ∧
           (t.getLnk l).bor = (s.getLnk l).bor ++
             [{ id := m.leaseId, amt := m.amount, exp := e, counted := decide (s.now + s.trs.lguard * 1000 < e) }] ∧
           t.trs.outOfTurn = true ∧ Only [.hm, .hif, .ldg, .trs, .clr] s t) ∧
       (∀ cause, (s.tb.hold = true ∧ cause = 3) ∨
           (s.tb.hold = false ∧ ((s.getLnk l).st ≠ 2 ∨ u.thetaOk (u.getLnk l) = false ∨ s.linkAud l = true) ∧ cause = 1) ∨
           (s.tb.hold = false ∧ (s.getLnk l).st = 2 ∧ u.thetaOk (u.getLnk l) = true ∧ s.linkAud l = false ∧ 4000 < a ∧
             cause = 2) ∨
           (s.tb.hold = false ∧ (s.getLnk l).st = 2 ∧ u.thetaOk (u.getLnk l) = true ∧ s.linkAud l = false ∧ a ≤ 4000 ∧
             (8 ≤ (s.getLnk l).bor.length ∨ 520 ≤ u.borN) ∧ cause = 5) →
         ∃ t, exec (.lease l m) s = .next t ∧ (t.getLnk l).bor = (s.getLnk l).bor ∧
           SendsMsg l 6 m.amount m.leaseId cause s t ∧ (∀ k, k ≠ l.val → t.getLnk k = s.getLnk k) ∧
           Only [.hm, .hif, .ldg, .clr] s t)) ∧
     (bitOf m.flags 4 = false → (s.getLnk l).bor.any (fun b => b.id = m.leaseId) = true → ∃ t, exec (.lease l m) s = .next t ∧
       (t.getLnk l).bor = (s.getLnk l).bor ∧ (∀ k, k ≠ l.val → t.getLnk k = s.getLnk k) ∧ Only [.hm, .clr] s t)) ∧
  (∀ (s : State) (l : Fin 65) (m : ClrMsg) (id : Nat),
     let x := s.getLnk l
     (Receives l 6 m s → ∃ t, exec (.returnMsg l m) s = .next t ∧
       (t.getLnk l).lent = x.lent.filter (fun e => e.id ≠ m.leaseId) ∧
       (bitOf m.flags 0 = false → (t.getLnk l).bor = x.bor) ∧
       (∀ k, k ≠ l.val → t.getLnk k = s.getLnk k) ∧ Only [.hm, .trs, .clr] s t) ∧
     (s.live = true →
       ((∃ e ∈ x.lent, e.id = id ∧
           e.sent + e.durUs * (1000 + (if e.hold then 20 else 0) + (if e.unver then 40 else 0)) ≤ s.now) →
         ∃ t, exec (.clrLeaseExpired l id) s = .next t ∧ (t.getLnk l).lent = x.lent.filter (fun e => e.id ≠ id) ∧
           (t.getLnk l).bor = x.bor ∧ t.trs.outOfTurn = true ∧ (∀ k, k ≠ l.val → t.getLnk k = s.getLnk k) ∧
           Only [.hm, .hif, .ldg, .trs, .clr] s t) ∧
       ((∀ e ∈ x.lent, e.id = id →
           s.now < e.sent + e.durUs * (1000 + (if e.hold then 20 else 0) + (if e.unver then 40 else 0))) →
         exec (.clrLeaseExpired l id) s = .next s) ∧
       ((∃ b ∈ x.bor, b.id = id ∧ b.exp ≤ s.now) → ∃ t, exec (.borrowedLeaseExpiry l id) s = .next t ∧
         (t.getLnk l).bor = x.bor.filter (fun b => b.id ≠ id) ∧ (t.getLnk l).lent = x.lent ∧ t.trs.outOfTurn = true ∧
         (∀ k, k ≠ l.val → t.getLnk k = s.getLnk k) ∧ Only [.trs, .clr] s t) ∧
       ((∀ b ∈ x.bor, b.id = id → s.now < b.exp) → exec (.borrowedLeaseExpiry l id) s = .next s) ∧
       (∀ b, x.bor = [b] → b.void = true → exec (.returnSend l id) s = .next s) ∧
       (∀ b t0 cause, x.bor = [b] → b.id = id → b.ret = some (t0, cause) → b.void = false → s.fwUp = true →
         (t0 + s.trs.lguard * 1000 ≤ s.now ∨ s.fallen t0 = true → ∃ t, exec (.returnSend l id) s = .next t ∧
           (t.getLnk l).bor = [] ∧
           SendsMsg l 6 b.amt id cause s t ∧ (∀ k, k ≠ l.val → t.getLnk k = s.getLnk k) ∧ Only [.hm, .clr] s t) ∧
         (s.now < t0 + s.trs.lguard * 1000 → s.fallen t0 = false → exec (.returnSend l id) s = .next s)) ∧
       ((∀ b ∈ x.bor, b.id = id → b.ret = none) → exec (.returnSend l id) s = .next s)))

/-- R349, R350, R361: a round judges every enabled link: a JOINING link goes ABSENT with its third round without
ACCEPT; a link whose round was good is PRESENT; one that missed a round is SUSPECT, and ABSENT with its third; then
every child in PRESENT or SUSPECT is sent an OFFER and a parent in those states a STATE. A STATE of a child brings its
subtree's values and is acknowledged, a bare acknowledgement is not; an OFFER that calls nothing, or comes from a
child, is only acknowledged. R347, R350, R368: messages 4 µs without acknowledgement are counted; an ABSENT link sends
a JOIN when its retry timer runs out; `CLR_CFG` is refused out of range and its keep margin while enabled; enabling
starts a JOIN on every enabled link, disabling takes each out of use, and so for one link; the counts are cleared.
Completes: CLEARING_ROUND, STATE_MSG, OFFER, ACK_MISS, JOIN_RETRY, CLR_CFG_WRITE, CLR_LNK_EN_WRITE, CLR_CTRL_CLR. -/
def Obligations.RoundsAndLinks : Prop :=
  (∀ (s : State), s.live = true →
     (s.now < s.clr.roundAt + 10000 → exec .clearingRound s = .next s) ∧
     (s.clr.roundAt + 10000 ≤ s.now → s.clrUp = false → ∃ t, exec .clearingRound s = .next t ∧ t.clr.roundAt = s.now ∧
       t.clr.lnk = s.clr.lnk ∧ Only [.syn, .clr] s t) ∧
     (s.clr.roundAt + 10000 ≤ s.now → s.clrUp = true → (∀ a, s.aud.test = some a → a.kind ≠ 5) →
       ∃ t, exec .clearingRound s = .next t ∧
       t.clr.roundAt = s.now ∧ Only [.hm, .hif, .ldg, .trs, .syn, .clr] s t ∧
       (∀ l ∈ s.links, let x := s.getLnk l
         let y := t.getLnk l
         (x.st = 1 → x.joinRounds < 2 → y.st = 1 ∧ y.joinRounds = x.joinRounds + 1) ∧
         (x.st = 1 → 2 ≤ x.joinRounds → y.st = 4 ∧ y.retry = some (s.now + s.clr.retryMs * 1000000)) ∧
         (x.up = true → x.rxRound = true → x.badRound = false → y.st = 2 ∧ y.missed = 0) ∧
         (x.up = true → x.rxRound = false ∨ x.badRound = true → x.missed < 2 → y.st = 3 ∧ y.missed = x.missed + 1) ∧
         (x.up = true → x.rxRound = false ∨ x.badRound = true → 2 ≤ x.missed →
           y.st = 4 ∧ y.retry = some (s.now + s.clr.retryMs * 1000000)) ∧
         (x.st ≠ 1 → x.up = false → y.st = x.st)) ∧
       (∀ l, 0 < l → l < 65 → (t.getLnk l).up = true → ∃ q w, Posts (.msg ((s.getLnk l).addr + 128 * (q % 8)) w) s t ∧
         bits (w.getD 0 0) 24 8 = 4) ∧
       ((t.getLnk 0).en = true → (t.getLnk 0).up = true → ∃ q w, Posts (.msg ((s.getLnk 0).addr + 128 * (q % 8)) w) s t ∧
         bits (w.getD 0 0) 24 8 = 3)) ∧
     ∀ (l : Fin 65) (m : ClrMsg), bitOf m.flags 0 = false →
       (Receives l 3 m s → l.val ≠ 0 → bitOf m.flags 1 = false → ∃ t, exec (.stateMsg l m) s = .next t ∧
         (t.getLnk l).surplus = m.surplus ∧ (t.getLnk l).need = m.need ∧ (t.getLnk l).wmin = m.wmin ∧
         (t.getLnk l).chips = m.chips ∧ (t.getLnk l).fcNeed = m.fcNeed ∧ (t.getLnk l).seqIn = m.seq ∧
         SendsMsg l 3 0 0 0 s t ∧ (∀ k, k ≠ l.val → t.getLnk k = s.getLnk k) ∧ Only [.hm, .clr] s t) ∧
       (Receives l 3 m s → l.val = 0 ∨ bitOf m.flags 1 = true → ∃ t, exec (.stateMsg l m) s = .next t ∧
         (t.getLnk l).surplus = (s.getLnk l).surplus ∧ (t.getLnk l).need = (s.getLnk l).need ∧
         (t.getLnk l).seqIn = m.seq ∧ (bitOf m.flags 1 = true → t.hm = s.hm) ∧
         (∀ k, k ≠ l.val → t.getLnk k = s.getLnk k) ∧ Only [.hm, .clr] s t) ∧
       (Receives l 4 m s → l.val ≠ 0 ∨ m.amount = 0 → ∃ t, exec (.offer l m) s = .next t ∧ (t.getLnk l).seqIn = m.seq ∧
         SendsMsg l 3 0 0 0 s t ∧ (∀ k, k ≠ l.val → t.getLnk k = s.getLnk k) ∧ Only [.hm, .clr] s t) ∧
       (Receives l 4 m s → ∃ t, exec (.offer l m) s = .next t ∧ (t.getLnk l).seqIn = m.seq ∧
         (t.getLnk l).bor = (s.getLnk l).bor ∧ Only [.hm, .hif, .ldg, .trs, .clr] s t)) ∧
  (∀ (s : State) (l : Fin 65) (v : Word) (en : Bool),
     let x := s.getLnk l
     let late := (x.sent.filter fun e => !e.judged && decide (e.at_ + 4000 ≤ s.now)).length
     (s.live = true →
       (late = 0 → exec (.ackMiss l) s = .next s) ∧
       (0 < late → ∃ t, exec (.ackMiss l) s = .next t ∧ (t.getLnk l).ackMiss = satU 16 (x.ackMiss + late) ∧
         (t.getLnk l).badRound = true ∧ (t.getLnk l).st = x.st ∧ (∀ k, k ≠ l.val → t.getLnk k = s.getLnk k) ∧
         Only [.clr] s t) ∧
       (∀ u, s.clrUp = true → x.st = 4 → x.retry = some u →
         (u ≤ s.now → ∃ t, exec (.joinRetry l) s = .next t ∧ SendsMsg l 1 0 0 0 s t ∧ (t.getLnk l).st = 4 ∧
           (t.getLnk l).retry = some (s.now + s.clr.retryMs * 1000000) ∧ (∀ k, k ≠ l.val → t.getLnk k = s.getLnk k) ∧
           Only [.hm, .clr] s t) ∧
         (s.now < u → exec (.joinRetry l) s = .next s)) ∧
       (x.st ≠ 4 → exec (.joinRetry l) s = .next s)) ∧
     (Emulates s →
       (bits v.toNat 1 2 = 0 ∨ 20 < bits v.toNat 8 5 →
         exec (.clrCfgWrite v) s = .next (hsAnswer 0 0 (s.onClr fun c => { c with res := 0x8002 }))) ∧
       (bits v.toNat 1 2 ≠ 0 → bits v.toNat 8 5 ≤ 20 → s.clr.en = true → bits v.toNat 8 5 ≠ s.clr.keep →
         exec (.clrCfgWrite v) s = .next (hsAnswer 0 0 (s.onClr fun c => { c with res := 0x8001 }))) ∧
       (bits v.toNat 1 2 ≠ 0 → bits v.toNat 8 5 ≤ 20 → s.clr.en = false ∨ bits v.toNat 8 5 = s.clr.keep →
         ∃ t, exec (.clrCfgWrite v) s = .next t ∧ t.clr.res = 0 ∧ t.clr.vmax = bits v.toNat 1 2 ∧
           t.clr.keep = bits v.toNat 8 5 ∧ t.clr.en = (bitOf v.toNat 0 && s.feat 3) ∧
           (t.clr.en = s.clr.en → t.clr.lnk = s.clr.lnk) ∧
           (t.clr.en ≠ s.clr.en → ∀ k ∈ s.links, (t.getLnk k).st = (if t.clr.en then 1 else 0) ∧
             (t.getLnk k).lent = (s.getLnk k).lent) ∧
           Only [.hm, .hs, .trs, .clr] s t) ∧
       (s.clr.lnkSel < 65 → ∃ t, exec (.clrLnkEnWrite en) s = .next t ∧ t.clr.res = 0 ∧
         (t.getLnk s.clr.lnkSel).en = en ∧
         ((s.getLnk s.clr.lnkSel).en = en → (t.getLnk s.clr.lnkSel) = s.getLnk s.clr.lnkSel) ∧
         ((s.getLnk s.clr.lnkSel).en = false → en = true → s.clr.en = true → (t.getLnk s.clr.lnkSel).st = 1) ∧
         ((s.getLnk s.clr.lnkSel).en = true → en = false → (t.getLnk s.clr.lnkSel).st = 0 ∧
           ∀ b ∈ (t.getLnk s.clr.lnkSel).bor, b.ret.isSome = true ∨ b.void = true) ∧
         (∀ k, k ≠ s.clr.lnkSel → t.getLnk k = s.getLnk k) ∧ Only [.hm, .hs, .trs, .clr] s t) ∧
       (65 ≤ s.clr.lnkSel → exec (.clrLnkEnWrite en) s = .next (hsAnswer 0 0 s)) ∧
       ∃ t, exec .clrCtrlClr s = .next t ∧ t.clr.res = 0 ∧ Only [.hs, .clr] s t ∧
         ∀ k < 65, t.getLnk k = { s.getLnk k with ackMiss := 0, discard := 0 }))

/-- R34, R39, R371, R377, R378, R383: a command that performs a descriptor does nothing while the block or the manager port is
in reset or the descriptor may not start; one that fails a check of Table 14.4 is completed with the status of the first check it
fails, `RESULT` 0, and changes nothing but its context's ring and counts. R374, R379, R382: NOP and IDENTIFY write one
completion entry at the tail of the ring, with the phase of the lap, and an interrupt message when asked for and its
gap has passed; before that the message waits. Completes: NOP, IDENTIFY. -/
def Obligations.DescriptorsCheckedAndCompleted : Prop :=
  (∀ (s : State) (c : Instr) (h : DescHdr) (d : DescSpec), descRow c = some (h, d) → s.pwr.wantWarm = none →
     (s.live = false ∨ descMay h.ctx.val s = false ∨ s.hm.inReset = true → exec c s = .next s) ∧
     (s.live = true → descMay h.ctx.val s = true → s.hm.inReset = false → NoClose h.ctx.val s →
       ∀ st, (descCheck h d s = st ∧ st ≠ 0) ∨ (((s.hif.mismatch = true ∧ d.basic = false) ∨ (s.fw.recovery = true ∧
         d.recov = false)) ∧ st = 0x9005) ∨
           (s.hif.mismatch = false ∧ s.fw.recovery = false ∧ h.ctx.val ≠ 0 ∧ d.tenant = false ∧ st = 0x9003) ∨
           (s.hif.mismatch = false ∧ s.fw.recovery = false ∧ h.ctx.val = 0 ∧
             (∃ b, d.feature = some b ∧ s.feat b = false) ∧ st = 0x9004) ∨
           (s.hif.mismatch = false ∧ s.fw.recovery = false ∧ h.ctx.val = 0 ∧ d.feature = none ∧ h.reservedZero = false ∧
             st = 0x9002) ∨
           (s.hif.mismatch = false ∧ s.fw.recovery = false ∧ h.ctx.val ≠ 0 ∧ d.tenant = true ∧ d.feature = none ∧
             h.reservedZero = true ∧ (∃ k, d.ctxField = some k ∧ k ≠ h.ctx.val) ∧ st = 0x9003) ∨
           (s.hif.mismatch = false ∧ s.fw.recovery = false ∧ h.ctx.val = 0 ∧ d.feature = none ∧ h.reservedZero = true ∧
             (∃ a ∈ d.addrs, a.1 % a.2.2 ≠ 0) ∧ st = 0x9007) →
         ∃ t, exec c s = .next t ∧ Completes h d.opcode st 0 s t ∧
           (t.getCtx h.ctx).done = satInc 16 (s.getCtx h.ctx).done ∧ (t.getCtx h.ctx).last = st ∧
           (t.getCtx h.ctx).sqHead = ((s.getCtx h.ctx).sqHead + 1) % 65536 ∧
           (∀ k, k ≠ h.ctx.val → t.getCtx k = s.getCtx k) ∧ Only [.hm, .hif] s t)) ∧
  (∀ (s : State) (h : DescHdr),
     let x := s.getCtx h.ctx
     let e := fun (op res : Nat) =>
       ({ tag := h.tag, status := 0, sqHead := (x.sqHead + 1) % 65536, result := res, opcode := op,
          phase := decide (x.cqTail / 2 ^ x.cqLog % 2 = 0), event := false, hold := s.tb.hold,
          evtLost := x.evtLostFlag } : Cqe)
     ∀ (c : Instr) (op res : Nat), (c = .nop h ∧ Runs h descNop s ∧ op = 1 ∧ res = 0) ∨
         (c = .identify h ∧ Runs h descIdentify s ∧ op = 2 ∧
           res = (if s.fw.recovery then 0 else 0x400) + h.ctx.val * 65536) →
       ∃ t, exec c s = .next t ∧ Posts (.cqe h.ctx (x.cqBase + 16 * (x.cqTail % 2 ^ x.cqLog)) (cqeBytes (e op res))) s t ∧
         (t.getCtx h.ctx).cqTail = (x.cqTail + 1) % 65536 ∧ (t.getCtx h.ctx).sqHead = (x.sqHead + 1) % 65536 ∧
         (t.getCtx h.ctx).done = satInc 16 x.done ∧ (t.getCtx h.ctx).evtLostFlag = false ∧
         (h.notify = true → x.irqEn = true → (∀ a, x.irqLast = some a → a + s.hif.irqGap * 250 ≤ s.now) →
           Posts (.irq h.ctx x.irqAddr x.irqData) s t ∧ (t.getCtx h.ctx).irqLast = some s.now) ∧
         (h.notify = true → x.irqEn = true → (∃ a, x.irqLast = some a ∧ s.now < a + s.hif.irqGap * 250) →
           (t.getCtx h.ctx).irqWait = true) ∧
         (∀ k, k ≠ h.ctx.val → t.getCtx k = s.getCtx k) ∧ Only [.hm, .hif] s t)

/-- R370, R375, R382, R384, R385, R388: a doorbell that passes the conditions of R375 moves the indices, any other
puts the context in ERROR, and one for a context that is not OPEN is dropped; the message that waited for its gap is
written; GO negotiates once; context 0 opens and closes with `EN`; the counts are cleared. R373, R378: a fetch that
fails is remembered with its time; one that succeeds performs the descriptor that the bytes spell, which for NOP,
FLOOR_SET and LDG_REARM is what their own commands do; an undefined opcode completes with HIF_OPCODE; a failed fetch is
retried after 10 µs, and a second failure puts the context in ERROR with cause 1. Completes: DOORBELL_WRITE, IRQ_GAP,
HIF_NEG_GO, C0_RING_EN_WRITE, HIF_CTRL_CLR, DESCRIPTOR_FETCH, FETCH_RETRY. -/
def Obligations.RingsDoorbellsAndFetches : Prop :=
  (∀ (s : State) (c : CtxId) (v : Word), s.live = true →
     let x := s.getCtx c
     (x.st ≠ 1 → exec (.doorbellWrite c v) s =
       .next (hsAnswer 0 0 (s.onHif fun h => { h with dbDrop := satInc 16 h.dbDrop }))) ∧
     (x.st = 1 → x.dbOk (bits v.toNat 0 16) (bits v.toNat 16 16) = true → exec (.doorbellWrite c v) s =
       .next (hsAnswer 0 0 (s.updCtx c fun y => { y with sqTail := bits v.toNat 0 16, cqHead := bits v.toNat 16 16 }))) ∧
     (x.st = 1 → x.dbOk (bits v.toNat 0 16) (bits v.toNat 16 16) = false → ∃ t, exec (.doorbellWrite c v) s = .next t ∧
       (t.getCtx c).st = 2 ∧ (t.getCtx c).cause = 2 ∧ t.hif.dbBad = satInc 16 s.hif.dbBad ∧
       (QRoom 0x21 s → Logs 0x21 0x9013 c 2 x.sqHead v.toNat s t) ∧ Only [.hm, .hs, .hif, .ldg] s t) ∧
     (x.irqWait = false → exec (.irqGap c) s = .next s) ∧
     (x.irqWait = true → x.irqEn = true → (∀ a, x.irqLast = some a → a + s.hif.irqGap * 250 ≤ s.now) →
       ∃ t, exec (.irqGap c) s = .next t ∧ Posts (.irq c x.irqAddr x.irqData) s t ∧
         t.getCtx c = { x with irqWait := false, irqLast := some s.now } ∧ (∀ k, k ≠ c.val → t.getCtx k = s.getCtx k) ∧
         Only [.hm, .hif] s t) ∧
     (s.clerkUp = true → s.hif.mismatch = false →
       (bitOf s.hif.c0Ring 8 = false → exec .hifNegGo s =
         .next (hsAnswer 0 0 (s.onHif fun h => { h with negStatus := 0x9008 }))) ∧
       (bitOf s.hif.c0Ring 8 = true → s.hif.negDone = true → exec .hifNegGo s =
         .next (hsAnswer 0 0 (s.onHif fun h => { h with negStatus := 0x900B }))) ∧
       (bitOf s.hif.c0Ring 8 = true → s.hif.negDone = false → ∃ t, exec .hifNegGo s = .next t ∧ t.hif.negDone = true ∧
         t.hif.negStatus = 0 ∧ t.hif.featEn = Nat.land 0x3FF (s.hif.featHostLo + s.hif.featHostHi * 2 ^ 32) ∧
         t.hif.mismatch = decide (bits s.hif.hostVer 8 8 ≠ 4) ∧
         (QRoom 0x21 s → Logs 0x21 0x9010 s.hif.hostVer (t.hif.featEn % 2 ^ 32) (t.hif.featEn / 2 ^ 32)
           (b2n t.hif.mismatch) s t) ∧ Only [.hm, .hs, .hif, .ldg] s t) ∧
       (bitOf s.hif.c0Ring 8 = false → bitOf v.toNat 8 = true → c0RingOk v.toNat = true →
         ∃ t, exec (.c0RingEnWrite v) s = .next t ∧ (t.getCtx 0).st = 1 ∧ (t.getCtx 0).sqHead = 0 ∧ (t.getCtx 0).sqTail = 0 ∧
           (t.getCtx 0).cqHead = 0 ∧ (t.getCtx 0).sqLog = bits v.toNat 0 4 ∧ (t.getCtx 0).cqLog = bits v.toNat 4 4 ∧
           (t.getCtx 0).schedW = bits v.toNat 16 8 ∧ (t.getCtx 0).sqBase = s.hif.c0SqLo + s.hif.c0SqHi * 2 ^ 32 ∧
           (t.getCtx 0).cqBase = s.hif.c0CqLo + s.hif.c0CqHi * 2 ^ 32 ∧ (∀ k, k ≠ 0 → t.getCtx k = s.getCtx k) ∧
           Only [.hm, .hs, .hif, .ldg] s t) ∧
       (bitOf s.hif.c0Ring 8 = false → bitOf v.toNat 8 = false → c0RingOk v.toNat = true → exec (.c0RingEnWrite v) s = .next
         (hsAnswer 0 0 (s.onHif fun z => { z with c0Ring := bits v.toNat 0 10 + bits v.toNat 16 8 * 2 ^ 16 }))) ∧
       (bitOf s.hif.c0Ring 8 = false → c0RingOk v.toNat = false → exec (.c0RingEnWrite v) s = .next (hsAnswer 0 0 s)) ∧
       (bitOf s.hif.c0Ring 8 = true → bitOf v.toNat 8 = true → exec (.c0RingEnWrite v) s = .next (hsAnswer 0 0 s)) ∧
       (bitOf s.hif.c0Ring 8 = true → bitOf v.toNat 8 = false → (s.getCtx 0).busy = true → exec (.c0RingEnWrite v) s =
         .next (hsAnswer 0 0 (s.updCtx 0 fun y => { y with closeC0 := true }))) ∧
       (bitOf s.hif.c0Ring 8 = true → bitOf v.toNat 8 = false → (s.getCtx 0).busy = false →
         ∃ t, exec (.c0RingEnWrite v) s = .next t ∧ (t.getCtx 0).st = 0 ∧ bitOf t.hif.c0Ring 8 = false ∧
           (∀ k, k ≠ 0 → t.getCtx k = s.getCtx k) ∧ (QRoom 0x21 s → Logs 0x21 0x9012 0 (s.getCtx 0).left 0 0 s t) ∧
           Only [.hm, .hs, .hif, .ldg] s t) ∧
       ∃ t, exec .hifCtrlClr s = .next t ∧ t.hif.dbBad = 0 ∧ t.hif.dbDrop = 0 ∧
         (∀ k, t.getCtx k = { s.getCtx k with done := 0, evtLost := 0 }) ∧ Only [.hs, .hif] s t)) ∧
  (∀ (s : State) (c : CtxId) (ws : List Word) (x : Ext), s.live = true → s.pwr.wantWarm = none →
     let b := descBytes ws
     let h := hdrOf c b
     let y := s.getCtx c
     (descMay c s = false → exec (.descriptorFetch c none x) s = .next s ∧
       exec (.descriptorFetch c (some ws) x) s = .next s) ∧
     (descMay c s = true →
       exec (.descriptorFetch c none x) s = .next (s.updCtx c fun z => { z with fetchFail := some s.now }) ∧
       (s.hm.inReset = true → exec (.descriptorFetch c (some ws) x) s = .next s) ∧
       (s.hm.inReset = false →
         (∀ p, planOf h b x = some p → exec (.descriptorFetch c (some ws) x) s = .next (warmAfter (runDesc h p.1 p.2 s))) ∧
         (fld b 0 2 = 0x0001 → exec (.descriptorFetch c (some ws) x) s = exec (.nop h) s) ∧
         (fld b 0 2 = 0x0014 → exec (.descriptorFetch c (some ws) x) s = exec (.floorSet h (fld b 8 2) (fld b 10 1)) s) ∧
         (fld b 0 2 = 0x0083 → exec (.descriptorFetch c (some ws) x) s = exec (.ldgRearm h (bitOf (fld b 8 1) 0)) s) ∧
         (planOf h b x = none → NoClose c s →
           ∃ t, exec (.descriptorFetch c (some ws) x) s = .next t ∧ Completes h (fld b 0 2) 0x9001 0 s t ∧
             Only [.hm, .hif] s t))) ∧
     (y.fetchFail = none → exec (.fetchRetry c (some ws) x) s = .next s ∧ exec (.fetchRetry c none x) s = .next s) ∧
     (∀ t0, y.fetchFail = some t0 →
       (s.now < t0 + 10000 → exec (.fetchRetry c (some ws) x) s = .next s ∧ exec (.fetchRetry c none x) s = .next s) ∧
       (t0 + 10000 ≤ s.now → descMay c (s.updCtx c fun z => { z with fetchFail := none }) = true →
         (∃ t, exec (.fetchRetry c none x) s = .next t ∧ (t.getCtx c).st = 2 ∧ (t.getCtx c).cause = 1 ∧
           (t.getCtx c).fetchFail = none ∧
           (QRoom 0x21 s → Logs 0x21 0x9013 c 1 y.sqHead (y.sqTail + y.cqHead * 2 ^ 16) s t) ∧ Only [.hm, .hif, .ldg] s t) ∧
         (s.hm.inReset = false → fld b 0 2 = 0x0001 → exec (.fetchRetry c (some ws) x) s =
           exec (.nop h) (s.updCtx c fun z => { z with fetchFail := none })))))

/-- R371, R372, R379, R380: CTX_OPEN opens a closed context with the fields of its operand and is refused out of range
or while the context is open; CTX_CLOSE closes one, drops what it queued and answers how many descriptors had not
started, or waits for the descriptor in progress; CTX_TELEM writes the context's telemetry block. Completes: CTX_OPEN,
CTX_CLOSE, CTX_TELEM. -/
def Obligations.ContextsOpenAndClose : Prop :=
  ∀ (s : State) (h : DescHdr) (o : CtxOpenOp) (c a : Nat),
    (Runs h descCtxOpen s →
      (ctxOpenAddr o = false → ∃ t, exec (.ctxOpen h o) s = .next t ∧ Completes h 0x10 0x9007 0 s t ∧ Only [.hm, .hif] s t) ∧
      (ctxOpenAddr o = true → ctxOpenRange o = false → ∃ t, exec (.ctxOpen h o) s = .next t ∧
        Completes h 0x10 0x9009 0 s t ∧ Only [.hm, .hif] s t) ∧
      (ctxOpenAddr o = true → ctxOpenRange o = true → (s.getCtx o.ctx).st ≠ 0 → ∃ t, exec (.ctxOpen h o) s = .next t ∧
        Completes h 0x10 0x9008 0 s t ∧ t.getCtx o.ctx = s.getCtx o.ctx ∧ Only [.hm, .hif] s t) ∧
      (ctxOpenAddr o = true → ctxOpenRange o = true → (s.getCtx o.ctx).st = 0 → ∃ t, exec (.ctxOpen h o) s = .next t ∧
        Completes h 0x10 0 0 s t ∧ (t.getCtx o.ctx).st = 1 ∧ (t.getCtx o.ctx).sqHead = 0 ∧ (t.getCtx o.ctx).sqTail = 0 ∧
        (t.getCtx o.ctx).cqHead = 0 ∧ (t.getCtx o.ctx).cqTail = 0 ∧ (t.getCtx o.ctx).sqBase = o.sqBase ∧
        (t.getCtx o.ctx).cqBase = o.cqBase ∧ (t.getCtx o.ctx).sqLog = o.sqLog ∧ (t.getCtx o.ctx).cqLog = o.cqLog ∧
        (t.getCtx o.ctx).winBase = o.winBase ∧ (t.getCtx o.ctx).winLog = o.winLog ∧ (t.getCtx o.ctx).schedW = o.schedW ∧
        (t.getCtx o.ctx).irqEn = o.irqEn ∧ (t.getTx o.ctx).floor = 0 ∧ (t.getTx o.ctx).cores = 0 ∧
        (t.getTx o.ctx).epoch = (s.getTx o.ctx).epoch ∧ (∀ k, k ≠ o.ctx → k ≠ 0 → t.getCtx k = s.getCtx k) ∧
        (∀ k, k ≠ o.ctx → t.getTx k = s.getTx k) ∧ Only [.hm, .hif, .ldg, .trs] s t)) ∧
    (Runs h descCtxClose s →
      (c = 0 ∨ 512 ≤ c → ∃ t, exec (.ctxClose h c) s = .next t ∧ Completes h 0x11 0x9009 0 s t ∧ Only [.hm, .hif] s t) ∧
      (0 < c → c < 512 → (s.getCtx c).st = 0 → ∃ t, exec (.ctxClose h c) s = .next t ∧ Completes h 0x11 0x9008 0 s t ∧
        Only [.hm, .hif] s t) ∧
      (0 < c → c < 512 → (s.getCtx c).st ≠ 0 → (s.getCtx c).busy = true → ∃ t, exec (.ctxClose h c) s = .next t ∧
        (t.getCtx c).closing = some h ∧ (t.getCtx 0).busy = true ∧ Only [.hif] s t) ∧
      (0 < c → c < 512 → (s.getCtx c).st ≠ 0 → (s.getCtx c).busy = false → ∃ t, exec (.ctxClose h c) s = .next t ∧
        Completes h 0x11 0 (s.getCtx c).left s t ∧ (t.getCtx c).st = 0 ∧ (t.getTx c).floor = 0 ∧ (t.getTx c).cores = 0 ∧
        (t.getTx c).place = none ∧ (∀ l e x, t.hint l e = some x → x.ctx ≠ c) ∧
        (∀ k, k ≠ c → k ≠ 0 → t.getCtx k = s.getCtx k) ∧ (∀ k, k ≠ c → t.getTx k = s.getTx k) ∧
        (QRoom 0x21 s → Logs 0x21 0x9012 c (s.getCtx c).left 0 0 s t) ∧ Only [.hm, .hif, .ldg, .fc, .trs] s t)) ∧
    (Runs h (descCtxTelem c a) s →
      (c = 0 ∨ 512 ≤ c → ∃ t, exec (.ctxTelem h c a) s = .next t ∧ Completes h 0x15 0x9009 0 s t ∧ Only [.hm, .hif] s t) ∧
      (0 < c → c < 512 → ∃ t, exec (.ctxTelem h c a) s = .next t ∧ Completes h 0x15 0 0 s t ∧
        Posts (.words a (ctxTelem (descBegin h.ctx.val s) c)) s t ∧ Only [.hm, .hif] s t))

/-- R289, R296, R297, R300: CTX_PARAM sets weight, class and grant, with the floor cut to the grant, and is refused
for a context of 512 or more, an illegal class or when R288 would not hold; CTX_PLACE takes effect at once on the same
clusters and as a migration otherwise, and is refused for context 0, absent or taken cores or when R288 would not hold;
FLOOR_SET sets a floor up to the grant and answers whether it is suspended. Completes: CTX_PARAM, CTX_PLACE, FLOOR_SET. -/
def Obligations.TenantsParameterised : Prop :=
  ∀ (s : State) (h : DescHdr) (c w k g m f : Nat),
    let b := descBegin h.ctx.val s
    let x := s.getTx c
    (Runs h descCtxParam s → 512 ≤ c → ∃ t, exec (.ctxParam h c w k g) s = .next t ∧ Completes h 0x12 0x9009 0 s t ∧
      Only [.hm, .hif] s t) ∧
    (Runs h descCtxParam s → c < 512 →
      let p := fun (u : State) => u.updTx c fun y =>
        { y with weight := w, cls := k, grant := g, floor := min y.floor g, suspended := y.suspended && k = 1 }
      (3 ≤ k ∨ (k = 2 ∧ g ≠ 0) → ∃ t, exec (.ctxParam h c w k g) s = .next t ∧ Completes h 0x12 0x6005 0 s t ∧
        Only [.hm, .hif] s t) ∧
      (k < 3 → (k = 2 → g = 0) → (x.grant < g ∨ (k = 0 ∧ x.cls ≠ 0)) → admits p b = false →
        ∃ t, exec (.ctxParam h c w k g) s = .next t ∧ Completes h 0x12 0x6003 0 s t ∧ Only [.hm, .hif] s t) ∧
      (k < 3 → (k = 2 → g = 0) → (g ≤ x.grant ∧ (k = 0 → x.cls = 0)) ∨ admits p b = true →
        ∃ t, exec (.ctxParam h c w k g) s = .next t ∧ Completes h 0x12 0 0 s t ∧ (t.getTx c).weight = w ∧
          (t.getTx c).cls = k ∧ (t.getTx c).grant = g ∧ (t.getTx c).floor = min x.floor g ∧
          (∀ j, j ≠ c → (t.getTx j).grant = (s.getTx j).grant ∧ (t.getTx j).floor = (s.getTx j).floor) ∧
          Only [.hm, .hif, .ldg, .trs] s t)) ∧
    (Runs h descCtxPlace s →
      (c = 0 ∨ 512 ≤ c ∨ s.coreAbsent m = true → ∃ t, exec (.ctxPlace h c m) s = .next t ∧ Completes h 0x13 0x9009 0 s t ∧
        Only [.hm, .hif] s t) ∧
      (0 < c → c < 512 → s.coreAbsent m = false →
        (s.coreTaken c m = true → ∃ t, exec (.ctxPlace h c m) s = .next t ∧ Completes h 0x13 0x900A 0 s t ∧
          Only [.hm, .hif] s t) ∧
        (s.coreTaken c m = false →
          let p := State.updTx c fun y => { y with cores := m, place := none }
          (admits p b = false → ∃ t, exec (.ctxPlace h c m) s = .next t ∧ Completes h 0x13 0x6003 0 s t ∧
            Only [.hm, .hif] s t) ∧
          (admits p b = true → s.maskClus m = s.maskClus x.cores → ∃ t, exec (.ctxPlace h c m) s = .next t ∧
            Completes h 0x13 0 x.epoch s t ∧ t.getTx c = { x with cores := m, place := none } ∧
            (∀ j, j ≠ c → t.getTx j = s.getTx j) ∧ Only [.hm, .hif, .trs] s t) ∧
          (admits p b = true → s.maskClus m ≠ s.maskClus x.cores → ∃ t, exec (.ctxPlace h c m) s = .next t ∧
            Completes h 0x13 0 ((x.epoch + 1) % 65536) s t ∧ t.getTx c = { x with place := some m } ∧
            (∀ j, j ≠ c → t.getTx j = s.getTx j) ∧ Only [.hm, .hif, .trs] s t)))) ∧
    (Runs h (descFloorSet c) s → c = 0 ∨ 512 ≤ c → ∃ t, exec (.floorSet h c f) s = .next t ∧
      Completes h 0x14 0x9009 0 s t ∧ Only [.hm, .hif] s t) ∧
    (Runs h (descFloorSet c) s → 0 < c → c < 512 →
      (x.grant < f → ∃ t, exec (.floorSet h c f) s = .next t ∧ Completes h 0x14 0x6004 0 s t ∧ Only [.hm, .hif] s t) ∧
      (f ≤ x.grant → ∃ t, exec (.floorSet h c f) s = .next t ∧ (t.getTx c).floor = f ∧ (t.getTx c).grant = x.grant ∧
        Completes h 0x14 0 (b2n (t.getTx c).suspended) s t ∧
        (∀ j, j ≠ c → (t.getTx j).floor = (s.getTx j).floor) ∧ Only [.hm, .hif, .ldg, .trs] s t))

/-- R131, R175, R179, R195, R259, R379: WARM_RESET with its key completes and then resets; CONTROL_START starts the
named clusters, brings those in HOLD to RUN and gives every loop its initial mode, and is refused for an absent cluster
and for one in a live update's hold; RAIL_CTRL starts rails, unless one of them is denied, and stops the clusters of
those it stops; AM_BASELINE takes the ratio of each named monitor, none while serial NOR is out of reach. The answer to
a cluster in a live update's hold is the model's choice (log entry 95), and so is that of AM_BASELINE without serial NOR
(log entry 97). Completes: WARM_RESET_DESC, CONTROL_START,
RAIL_CTRL_START, RAIL_CTRL_STOP, AM_BASELINE. -/
def Obligations.ControlStartsAndStops : Prop :=
  ∀ (s : State) (h : DescHdr) (key m mons : Nat) (r : Fin 256) (x : Ext),
    (Runs h descWarmReset s → s.pwr.wantWarm = none →
      (key ≠ 0x57525354 → ∃ t, exec (.warmResetDesc h key) s = .next t ∧ Completes h 3 0x9009 0 s t ∧ Only [.hm, .hif] s t) ∧
      (key = 0x57525354 → ∃ t, exec (.warmResetDesc h key) s = .next t ∧ Completes h 3 0 0 s t ∧ t.pwr.cause = 3 ∧
        t.pwr.warmCnt = satInc 16 s.pwr.warmCnt ∧ t.fw.run = false ∧ t.pwr.emuReady = false ∧
        (∀ k, (t.getCtx k).st = 0) ∧ ∀ c ∈ s.clusters, (s.getClu c).st = 1 → (t.getClu c).st = 2)) ∧
    (Runs h descControlStart s →
      ((∃ c ∈ maskIdx 32 m, (s.cluCfg c).present = false) → ∃ t, exec (.controlStart h m) s = .next t ∧
        Completes h 4 0x5004 0 s t ∧ Only [.hm, .hif] s t) ∧
      ((∀ c ∈ maskIdx 32 m, (s.cluCfg c).present = true) →
        (∃ c ∈ maskIdx 32 m, (s.getClu c).st = 2 ∧ (s.getClu c).holdCause = 0) →
        ∃ t, exec (.controlStart h m) s = .next t ∧ Completes h 4 0x5005 0 s t ∧ Only [.hm, .hif] s t) ∧
      ((∀ c ∈ maskIdx 32 m, (s.cluCfg c).present = true ∧ ¬ ((s.getClu c).st = 2 ∧ (s.getClu c).holdCause = 0)) →
        ∃ t, exec (.controlStart h m) s = .next t ∧
        Completes h 4 0 (maskOf ((maskIdx 32 m).filter fun c => decide ((t.getClu c).st = 1))) s t ∧
        (∀ c ∈ maskIdx 32 m, (t.getClu c).started = true ∧ ((s.getClu c).st = 2 → (t.getClu c).st = 1) ∧
          ((s.getClu c).st = 1 → (t.getClu c).st = 1) ∧
          ∀ j < 5, (s.loopCfg c j).present = true → (t.getLp c j).auto = (s.loopCfg c j).initAuto) ∧
        (∀ c, c ∉ maskIdx 32 m → t.getClu c = s.getClu c) ∧
        Only [.clk, .sns, .rail, .loop, .hm, .hif, .ldg, .fw, .trs, .syn] s t)) ∧
    (Runs h descRailCtrl s →
      (railsNamed s r = false → ∀ c, c = .railCtrlStart h r ∨ c = .railCtrlStop h r → ∃ t, exec c s = .next t ∧
        Completes h 0x20 0x9009 0 s t ∧ Only [.hm, .hif] s t) ∧
      (railsNamed s r = true → (∃ k ∈ maskIdx 8 r, startDenied s r k = true) → ∃ t, exec (.railCtrlStart h r) s = .next t ∧
        Completes h 0x20 0x3071 0 s t ∧ Only [.hm, .hif] s t) ∧
      (railsNamed s r = true → (∀ k ∈ maskIdx 8 r, startDenied s r k = false) → ∃ t, exec (.railCtrlStart h r) s = .next t ∧
        Completes h 0x20 0 r s t ∧
        t.rail.starts = s.rail.starts ++ [{ rails := r, step := 3, began := s.now, cold := false }] ∧
        (∀ k ∈ maskIdx 8 r, s.startTarget k false ≠ 0 → (t.getProt k).st = 1 ∧ (t.getProt k).startAt = s.now) ∧
        (∀ k, k ∉ maskIdx 8 r → t.getProt k = s.getProt k ∧ t.getReg k = s.getReg k) ∧
        Only [.sns, .rail, .hm, .hif, .ldg] s t) ∧
      (railsNamed s r = true → (∀ k < 8, (s.getProt k).running = false) → ∃ t, exec (.railCtrlStop h r) s = .next t ∧
        Completes h 0x20 0 0 s t ∧ Only [.hm, .hif] s t) ∧
      (railsNamed s r = true → (∃ k ∈ maskIdx 8 r, (s.getProt k).running = true ∧ s.inStop k = false) →
        ∃ t, exec (.railCtrlStop h r) s = .next t ∧
          (∀ k ∈ maskIdx 8 r, (s.getProt k).running = true → s.inStop k = false → ∀ c ∈ s.railClusters k,
            (t.getClu c).st = 0 ∧ (t.getClu c).stopRail = true) ∧
          (∃ res, Completes h 0x20 0 res s t ∧
            ∀ k ∈ maskIdx 8 r, (s.getProt k).running = true → s.inStop k = false → bitOf res k = true) ∧
          Only [.clk, .rail, .loop, .hm, .hif, .ldg, .fw, .trs, .syn] s t)) ∧
    (Runs h descAmBaseline s →
      ((∃ k ∈ maskIdx 160 mons, (s.monCfg k).present = false) → ∃ t, exec (.amBaseline h mons x) s = .next t ∧
        Completes h 0x21 0x9009 0 s t ∧ Only [.hm, .hif] s t) ∧
      ((∀ k ∈ maskIdx 160 mons, (s.monCfg k).present = true) → s.nvDown = true → ∃ t,
        exec (.amBaseline h mons x) s = .next t ∧ Completes h 0x21 0 0 s t ∧ Only [.hm, .hif] s t) ∧
      ((∀ k ∈ maskIdx 160 mons, (s.monCfg k).present = true) → s.nvDown = false → ∃ t,
        exec (.amBaseline h mons x) s = .next t ∧ Completes h 0x21 0 (maskIdx 160 mons).length s t ∧
        (∀ k ∈ maskIdx 160 mons, Tbl.get none t.sns.norBase k =
          some (((x.ratios.find? fun e => e.1 = k).map Prod.snd).getD (s.getMon k).ratio)) ∧
        (∀ k, k ∉ maskIdx 160 mons → Tbl.get none t.sns.norBase k = Tbl.get none s.sns.norBase k) ∧
        Only [.sns, .hm, .hif] s t))

/-- R221, R222, R248: an image is installed in the lowest free entry when every check of Table 8.5 passes, and is
refused with the status of the first that fails, while a loop in AUTOMATIC uses the program it replaces, without Vault,
without its bytes and with no free entry; a program that no slot names and no loop in AUTOMATIC uses is removed. R82,
R223–R228: a model set is registered from a signed header with 1 to FRAME_PAGES pages, a 65th is refused with
TLY_SET_LIMIT (log entry 91), and a set is removed while nothing refers to it; a signed slot table that is legal and
admitted takes force at the next frame boundary. Completes: TLY_INSTALL, TLY_REMOVE, TLY_SET_REG, TLY_SET_REMOVE,
SLOT_TABLE. -/
def Obligations.ProgramsSetsAndTables : Prop :=
  (∀ (s : State) (h : DescHdr) (o : Buf) (x : Ext) (p : Nat),
     let b := descBegin h.ctx.val s
     (Runs h (descTlyInstall o) s →
       (s.vaultRes ≠ 0 → ∃ t, exec (.tlyInstall h o x) s = .next t ∧ Completes h 0x30 s.vaultRes 0 s t ∧
         Only [.hm, .hif] s t) ∧
       (s.vaultRes = 0 → Ext.read x o.len = none → ∃ t, exec (.tlyInstall h o x) s = .next t ∧
         Completes h 0x30 0x9006 0 s t ∧ Only [.hm, .hif] s t) ∧
       (∀ d, s.vaultRes = 0 → Ext.read x o.len = some d →
         ((∃ q, s.replacedBy (tlyImg d).id = some q ∧ s.loopsAuto q = true) → ∃ t, exec (.tlyInstall h o x) s = .next t ∧
           Completes h 0x30 0x5001 0 s t ∧ Only [.hm, .hif] s t) ∧
         ((∀ q, s.replacedBy (tlyImg d).id = some q → s.loopsAuto q = false) →
           (imgCheck d b ≠ 0 → ∃ t, exec (.tlyInstall h o x) s = .next t ∧ Completes h 0x30 (imgCheck d b) 0 s t ∧
             Only [.hm, .hif] s t) ∧
           (imgCheck d b = 0 → (∀ k < 128, (s.getProg k).installed = true ∨ (s.getProg k).failed = true) →
             ∃ t, exec (.tlyInstall h o x) s = .next t ∧ Completes h 0x30 0x4008 0 s t ∧ Only [.hm, .hif] s t) ∧
           (imgCheck d b = 0 → p < 128 → (s.getProg p).installed = false → (s.getProg p).failed = false →
             (∀ k < p, (s.getProg k).installed = true ∨ (s.getProg k).failed = true) →
             ∃ t, exec (.tlyInstall h o x) s = .next t ∧ Completes h 0x30 0 p s t ∧ (t.getProg p).installed = true ∧
               (t.getProg p).id = (tlyImg d).id ∧ (t.getProg p).ver = (tlyImg d).ver ∧ (t.getProg p).cls = (tlyImg d).cls ∧
               (t.getProg p).cost = (tlyImg d).cost ∧ (t.getProg p).instrs = (tlyImg d).instrs ∧
               (t.getProg p).binds = (tlyImg d).binds ∧
               (∀ k, k ≠ p → s.replacedBy (tlyImg d).id ≠ some k → t.getProg k = s.getProg k) ∧
               (s.replacedBy (tlyImg d).id = none → t.frm = s.frm) ∧ Only [.frm, .hm, .hif, .ldg, .tly] s t)))) ∧
     (Runs h descTlyRemove s →
       (128 ≤ p ∨ (s.getProg p).installed = false → ∃ t, exec (.tlyRemove h p) s = .next t ∧ Completes h 0x31 0x9009 0 s t ∧
         Only [.hm, .hif] s t) ∧
       (p < 128 → (s.getProg p).installed = true →
         (s.loopsAuto p = true → ∃ t, exec (.tlyRemove h p) s = .next t ∧ Completes h 0x31 0x5001 0 s t ∧
           Only [.hm, .hif] s t) ∧
         (s.loopsAuto p = false → scheduled s.slots p = true ∨ scheduled (s.frm.nextTable.getD []) p = true →
           ∃ t, exec (.tlyRemove h p) s = .next t ∧ Completes h 0x31 0x400A 0 s t ∧ Only [.hm, .hif] s t) ∧
         (s.loopsAuto p = false → scheduled s.slots p = false → scheduled (s.frm.nextTable.getD []) p = false →
           ∃ t, exec (.tlyRemove h p) s = .next t ∧ Completes h 0x31 0 0 s t ∧ t.getProg p = {} ∧
             (∀ k, k ≠ p → t.getProg k = s.getProg k) ∧
             (QRoom 0x35 s → Logs 0x35 0x4011 (s.getProg p).id p 0 0 s t) ∧ Only [.hm, .hif, .ldg, .tly] s t)))) ∧
  (∀ (s : State) (h : DescHdr) (k hdr page a n : Nat) (x : Ext),
     (Runs h (descTlySetReg hdr page) s →
       (64 ≤ k → ∃ t, exec (.tlySetReg h k hdr page x) s = .next t ∧ Completes h 0x32 0x400D 0 s t ∧ Only [.hm, .hif] s t) ∧
       (k < 64 → s.vaultRes = 0 → Ext.read x (160 + 48 * 65535) = none → ∃ t,
         exec (.tlySetReg h k hdr page x) s = .next t ∧ Completes h 0x32 0x9006 0 s t ∧ Only [.hm, .hif] s t) ∧
       (k < 64 → s.vaultRes ≠ 0 → ∃ t, exec (.tlySetReg h k hdr page x) s = .next t ∧ Completes h 0x32 s.vaultRes 0 s t ∧
         Only [.hm, .hif] s t) ∧
       (∀ d, k < 64 → s.vaultRes = 0 → Ext.read x (160 + 48 * 65535) = some d →
         let sig := signedBy s.intKey d (64 + 48 * fld d 6 2 + 96)
         let fmt := fld d 0 4 = 0x534D4C54 ∧ fld d 4 1 = 4 ∧ zeros d 5 1 = true ∧ zeros d 20 44 = true
         (sig = false ∨ ¬ fmt → ∃ t, exec (.tlySetReg h k hdr page x) s = .next t ∧ Completes h 0x32 0x4001 0 s t ∧
           Only [.hm, .hif] s t) ∧
         (sig = true → fmt → fld d 6 2 = 0 ∨ s.cfg.tly.framePages < fld d 6 2 → ∃ t,
           exec (.tlySetReg h k hdr page x) s = .next t ∧ Completes h 0x32 0x400D 0 s t ∧ Only [.hm, .hif] s t) ∧
         (sig = true → fmt → 0 < fld d 6 2 → fld d 6 2 ≤ s.cfg.tly.framePages →
           ∃ t, exec (.tlySetReg h k hdr page x) s = .next t ∧
           Completes h 0x32 0 0 s t ∧ (t.getSet k).registered = true ∧ (t.getSet k).id = fld d 8 4 ∧
           (t.getSet k).ver = fld d 12 4 ∧ (t.getSet k).layout = fld d 16 4 ∧ (t.getSet k).npages = fld d 6 2 ∧
           (t.getSet k).hdrAddr = hdr ∧ (t.getSet k).pageAddr = page ∧ (t.getSet k).resident = false ∧
           (∀ j, j ≠ k → t.getSet j = s.getSet j) ∧ Only [.hm, .hif, .tly] s t))) ∧
     (Runs h descTlySetRemove s →
       (64 ≤ k ∨ (s.getSet k).registered = false → ∃ t, exec (.tlySetRemove h k) s = .next t ∧
         Completes h 0x33 0x9009 0 s t ∧ Only [.hm, .hif] s t) ∧
       (k < 64 → (s.getSet k).registered = true → 0 < s.setRefs k → ∃ t, exec (.tlySetRemove h k) s = .next t ∧
         Completes h 0x33 0x400A 0 s t ∧ Only [.hm, .hif] s t) ∧
       (k < 64 → (s.getSet k).registered = true → s.setRefs k = 0 → ∃ t, exec (.tlySetRemove h k) s = .next t ∧
         Completes h 0x33 0 0 s t ∧ t.getSet k = {} ∧ (∀ j, j ≠ k → t.getSet j = s.getSet j) ∧ Only [.hm, .hif, .tly] s t)) ∧
     (Runs h (descSlotTable a n) s →
       (n = 0 ∨ 256 < n → ∃ t, exec (.slotTable h a n x) s = .next t ∧ Completes h 0x34 0x9009 0 s t ∧ Only [.hm, .hif] s t) ∧
       (0 < n → n ≤ 256 → s.vaultRes ≠ 0 → ∃ t, exec (.slotTable h a n x) s = .next t ∧
         Completes h 0x34 s.vaultRes 0 s t ∧ Only [.hm, .hif] s t) ∧
       (0 < n → n ≤ 256 → s.vaultRes = 0 → Ext.read x (16 * n + 96) = none → ∃ t,
         exec (.slotTable h a n x) s = .next t ∧ Completes h 0x34 0x9006 0 s t ∧ Only [.hm, .hif] s t) ∧
       (∀ d, 0 < n → n ≤ 256 → s.vaultRes = 0 → Ext.read x (16 * n + 96) = some d →
         let tab := (List.range n).map fun i => (slotOf d i).1
         (signedBy s.intKey d (16 * n + 96) = false → ∃ t, exec (.slotTable h a n x) s = .next t ∧
           Completes h 0x34 0x4001 0 s t ∧ Only [.hm, .hif] s t) ∧
         (signedBy s.intKey d (16 * n + 96) = true → (∃ i < n, (slotOf d i).2 = false) ∨ entriesOk false s tab = false ∨
             admitTable s tab = false → ∃ t, exec (.slotTable h a n x) s = .next t ∧ Completes h 0x34 0x400C 0 s t ∧
           Only [.hm, .hif] s t) ∧
         (signedBy s.intKey d (16 * n + 96) = true → (∀ i < n, (slotOf d i).2 = true) → entriesOk false s tab = true →
           admitTable s tab = true → ∃ t, exec (.slotTable h a n x) s = .next t ∧ Completes h 0x34 0 0 s t ∧
             t.frm.nextTable = some tab ∧ t.frm.table = s.frm.table ∧ Only [.frm, .hm, .hif, .tly] s t))))

/-- R239, R247, R255, R283: LOOP_COEF is refused for an absent cluster or loop, a reserved field bit, a field out of
range or a loop in AUTOMATIC, and otherwise queues its fields for the next frame boundary; VFT_LOAD stages a table that
passes R255 on a cluster in manual; HINT_CLASS writes a class entry or a permission word, whose class 0 stays permitted.
Completes: LOOP_COEF, VFT_LOAD, HINT_CLASS_ENTRY, HINT_CLASS_PERM. -/
def Obligations.LoopsAndClassesLoaded : Prop :=
  ∀ (s : State) (h : DescHdr) (o : LoopCoefOp) (x : Ext) (c a k v : Nat),
    (Runs h descLoopCoef s → 8192 ≤ o.valid → ∃ t, exec (.loopCoef h o) s = .next t ∧ Completes h 0x40 0x9002 0 s t ∧
      Only [.hm, .hif] s t) ∧
    (Runs h descLoopCoef s → o.valid < 8192 →
      (32 ≤ o.cluster ∨ (s.cluCfg o.cluster).present = false → ∃ t, exec (.loopCoef h o) s = .next t ∧
        Completes h 0x40 0x5004 0 s t ∧ Only [.hm, .hif] s t) ∧
      (o.cluster < 32 → (s.cluCfg o.cluster).present = true → 4 < o.loop → ∃ t, exec (.loopCoef h o) s = .next t ∧
        Completes h 0x40 0x5002 0 s t ∧ Only [.hm, .hif] s t) ∧
      (o.cluster < 32 → (s.cluCfg o.cluster).present = true → o.loop ≤ 4 → (s.loopCfg o.cluster o.loop).present = false →
        ∃ t, exec (.loopCoef h o) s = .next t ∧ Completes h 0x40 0x5004 0 s t ∧ Only [.hm, .hif] s t) ∧
      (o.cluster < 32 → (s.cluCfg o.cluster).present = true → o.loop ≤ 4 → (s.loopCfg o.cluster o.loop).present = true →
        (coefOk s o = false → ∃ t, exec (.loopCoef h o) s = .next t ∧ Completes h 0x40 0x5002 0 s t ∧ Only [.hm, .hif] s t) ∧
        (coefOk s o = true → ((∃ i ∈ coefSel o, i ≠ 9 ∧ i ≠ 10) ∧ (s.getLp o.cluster o.loop).auto = true) ∨
            ((9 ∈ coefSel o ∨ 10 ∈ coefSel o) ∧ s.inManual o.cluster = false) → ∃ t, exec (.loopCoef h o) s = .next t ∧
          Completes h 0x40 0x5001 0 s t ∧ Only [.hm, .hif] s t) ∧
        (coefOk s o = true → (s.getLp o.cluster o.loop).auto = false → s.inManual o.cluster = true →
          ∃ t, exec (.loopCoef h o) s = .next t ∧ Completes h 0x40 0 0 s t ∧
            (∀ i ∈ coefSel o, let f := coefFields.getD i (0, 0, 0, 0, 0)
              bits (loopReg t o.cluster (if f.1 = 0x010 then 7 else o.loop) f.1) f.2.1 f.2.2.1 = o.vals.getD i 0) ∧
            (∃ l, t.loop.writes = s.loop.writes ++ l) ∧ t.loop.loop = s.loop.loop ∧ t.loop.clu = s.loop.clu ∧
            Only [.loop, .hm, .hif] s t))) ∧
    (Runs h (descVftLoad a) s →
      (32 ≤ c ∨ (s.cluCfg c).present = false → ∃ t, exec (.vftLoad h c a x) s = .next t ∧ Completes h 0x41 0x5004 0 s t ∧
        Only [.hm, .hif] s t) ∧
      (c < 32 → (s.cluCfg c).present = true → s.inManual c = false → ∃ t, exec (.vftLoad h c a x) s = .next t ∧
        Completes h 0x41 0x5001 0 s t ∧ Only [.hm, .hif] s t) ∧
      (c < 32 → (s.cluCfg c).present = true → s.inManual c = true →
        (Ext.read x 2048 = none → ∃ t, exec (.vftLoad h c a x) s = .next t ∧ Completes h 0x41 0x9006 0 s t ∧
          Only [.hm, .hif] s t) ∧
        (∀ d, Ext.read x 2048 = some d →
          (vftOk s c ((List.range 256).map (vftRowOf d)) = false → ∃ t, exec (.vftLoad h c a x) s = .next t ∧
            Completes h 0x41 0x5003 0 s t ∧ Only [.hm, .hif] s t) ∧
          (vftOk s c ((List.range 256).map (vftRowOf d)) = true → ∃ t, exec (.vftLoad h c a x) s = .next t ∧
            Completes h 0x41 0 0 s t ∧ (t.getClu c).vft = (s.getClu c).vft ∧
            (∃ u, (t.getClu c).vftNext = some u ∧ ∀ l < 256, Tbl.get {} u l = vftRowOf d l) ∧
            (∀ j, j ≠ c → t.getClu j = s.getClu j) ∧ Only [.loop, .hm, .hif] s t)))) ∧
    (Runs h descHintClass s →
      (256 ≤ c ∨ hcOk c v s = false → ∃ t, exec (.hintClassEntry h c v) s = .next t ∧ Completes h 0x50 0x6806 0 s t ∧
        Only [.hm, .hif] s t) ∧
      (c < 256 → hcOk c v s = true → ∃ t, exec (.hintClassEntry h c v) s = .next t ∧ Completes h 0x50 0 0 s t ∧
        (t.getHc c).set = bits v 0 6 ∧ (t.getHc c).setValid = bitOf v 6 ∧ (t.getHc c).en = bitOf v 7 ∧
        (t.getHc c).dur = bits v 8 8 ∧ (t.getHc c).ipu = bits v 24 8 ∧ (∀ j, j ≠ c → t.getHc j = s.getHc j) ∧
        (QRoom 0x20 s → Logs 0x20 0x6823 c 0 1 0 s t) ∧ Only [.hm, .hif, .ldg, .fc] s t) ∧
      (c = 0 ∨ 512 ≤ c ∨ 8 ≤ k → ∃ t, exec (.hintClassPerm h c k v) s = .next t ∧ Completes h 0x50 0x6806 0 s t ∧
        Only [.hm, .hif] s t) ∧
      (0 < c → c < 512 → 0 < k → k < 8 → v < 2 ^ 32 → ∃ t, exec (.hintClassPerm h c k v) s = .next t ∧
        Completes h 0x50 0 0 s t ∧ bits (t.getHx c).perm (32 * k) 32 = v ∧
        (∀ i < 256, i / 32 ≠ k → bitOf (t.getHx c).perm i = bitOf (s.getHx c).perm i) ∧
        (∀ j, j ≠ c → t.getHx j = s.getHx j) ∧ Only [.hm, .hif, .ldg, .fc] s t))

/-- R317, R318, R325, R332: by hand, SET and CLEAR act as from an engine, ADJUST writes a count and ends its poison,
RELEASE_WAITER and FAIL_WAITER end one wait, and RESET_WINDOW fails the waits of a window and clears its objects; an
index out of range is refused, and a window with waits needs `FORCE`. Completes: SYN_ACT_SET, SYN_ACT_CLEAR, ADJUST,
RELEASE_WAITER, FAIL_WAITER, RESET_WINDOW. -/
def Obligations.ActsByHand : Prop :=
  ∀ (s : State) (h : DescHdr) (o v w : Nat) (f : Bool), Runs h descSynAct s → WaitersOk s →
    let x := s.getObj o
    let g := if x.level then x.gen else (x.gen + 1) % 16
    (8192 ≤ o → ∀ c, c = .synActSet h o ∨ c = .synActClear h o ∨ c = .adjust h o v → ∃ t, exec c s = .next t ∧
      Completes h 0x60 0x700D 0 s t ∧ Only [.hm, .hif] s t) ∧
    (o < 8192 → x.count = true → ∀ c, c = .synActSet h o ∨ c = .synActClear h o → ∃ t, exec c s = .next t ∧
      Completes h 0x60 0x7003 0 s t ∧ Only [.hm, .hif] s t) ∧
    (o < 8192 → x.count = false →
      (∃ t, exec (.synActSet h o) s = .next t ∧ (t.getObj o).level = true ∧ (t.getObj o).gen = g ∧
        Completes h 0x60 0 (1 + 16 * g + (if x.level then 0 else 256)) s t ∧
        (∀ k y, s.waiter k = some y → y.obj = o → y.op = 3 → t.waiter k = none) ∧
        (∀ k y, s.waiter k = some y → y.obj ≠ o → t.waiter k = some y) ∧ (∀ k, k ≠ o → t.getObj k = s.getObj k) ∧
        Only [.hm, .ep, .hif, .ldg, .trs, .syn] s t) ∧
      (∃ t, exec (.synActClear h o) s = .next t ∧ (t.getObj o).level = false ∧ (t.getObj o).gen = x.gen ∧
        Completes h 0x60 0 (16 * x.gen + (if x.level then 256 else 0)) s t ∧
        (∀ k y, s.waiter k = some y → y.obj = o → y.op = 4 → t.waiter k = none) ∧
        (∀ k y, s.waiter k = some y → y.obj ≠ o → t.waiter k = some y) ∧ (∀ k, k ≠ o → t.getObj k = s.getObj k) ∧
        Only [.hm, .ep, .hif, .ldg, .trs, .syn] s t) ∧
      (∃ t, exec (.adjust h o v) s = .next t ∧ Completes h 0x60 0x7003 0 s t ∧ Only [.hm, .hif] s t)) ∧
    (o < 8192 → x.count = true → ∃ t, exec (.adjust h o v) s = .next t ∧
      t.getObj o = { x with value := v, poison := false } ∧ Completes h 0x60 0 v s t ∧
      (∀ k y, s.waiter k = some y → y.obj = o → y.op = 7 → y.arg ≤ v → t.waiter k = none) ∧
      (∀ k y, s.waiter k = some y → y.obj ≠ o → t.waiter k = some y) ∧ (∀ k, k ≠ o → t.getObj k = s.getObj k) ∧
      Only [.hm, .ep, .hif, .ldg, .trs, .syn] s t) ∧
    (8192 ≤ w ∨ s.waiter w = none → ∀ c, c = .releaseWaiter h w ∨ c = .failWaiter h w → ∃ t, exec c s = .next t ∧
      Completes h 0x60 0x700D 0 s t ∧ Only [.hm, .hif] s t) ∧
    (∀ y, w < 8192 → s.waiter w = some y →
      (∃ t, exec (.releaseWaiter h w) s = .next t ∧ t.waiter w = none ∧ (∀ k, k ≠ w → t.waiter k = s.waiter k) ∧
        (y.op ≠ 8 → Responds (s.coreClu (w / 64)) (w / 4) (w % 4) 0 (s.getObj y.obj).shown s t) ∧
        t.syn.obj = s.syn.obj ∧ t.syn.grp = s.syn.grp ∧ Completes h 0x60 0 0 s t ∧
        Only [.hm, .ep, .hif, .ldg, .trs, .syn] s t) ∧
      (∃ t, exec (.failWaiter h w) s = .next t ∧ t.waiter w = none ∧ (∀ k, k ≠ w → t.waiter k = s.waiter k) ∧
        Responds (s.coreClu (w / 64)) (w / 4) (w % 4) 0x7009 0 s t ∧ t.syn.obj = s.syn.obj ∧ Completes h 0x60 0 0 s t ∧
        Only [.hm, .ep, .hif, .ldg, .trs, .syn] s t)) ∧
    (128 ≤ o → ∃ t, exec (.resetWindow h f o) s = .next t ∧ Completes h 0x60 0x700D 0 s t ∧ Only [.hm, .hif] s t) ∧
    (o < 128 → (∃ k y, s.waiter k = some y ∧ y.obj / 64 = o) → f = false → ∃ t, exec (.resetWindow h f o) s = .next t ∧
      Completes h 0x60 0x700B 0 s t ∧ Only [.hm, .hif] s t) ∧
    (o < 128 → f = true ∨ (∀ k y, s.waiter k = some y → y.obj / 64 ≠ o) →
      ∃ t, exec (.resetWindow h f o) s = .next t ∧ Completes h 0x60 0 (s.winWaits o).length s t ∧
      (∀ k y, s.waiter k = some y → y.obj / 64 = o → t.waiter k = none) ∧
      (∀ k y, s.waiter k = some y → y.obj / 64 ≠ o → t.waiter k = some y) ∧
      (∀ k, k / 64 = o → t.getObj k = { count := (s.getObj k).count }) ∧
      (∀ k, k / 64 ≠ o → t.getObj k = s.getObj k) ∧ Only [.hm, .ep, .hif, .ldg, .trs, .syn] s t)

/-- R321, R326, R332, R333, R334: SET_KIND resets the objects whose kind changes, GROUP_DEF defines or deletes a
group, SYN_MAP gives and takes windows, failing the waits on those that leave and moving the objects it is told to move,
and SYN_READ reads an object of the context's map or a wait of the context; each is refused out of range, while waits
stand in the way and where the objects are of another kind, group or context. Completes: SET_KIND, GROUP_DEF, SYN_MAP,
SYN_READ. -/
def Obligations.WindowsAndGroupsSet : Prop :=
  ∀ (s : State) (h : DescHdr) (i k g p : Nat) (l : List Nat) (o : SynMapOp),
    (Runs h descSynAct s →
      (128 ≤ i → ∃ t, exec (.setKind h i k) s = .next t ∧ Completes h 0x60 0x700D 0 s t ∧ Only [.hm, .hif] s t) ∧
      (i < 128 → s.winWaits i ≠ [] ∨ (∃ m ∈ winObjs i, (s.groupOf m).isSome = true) → ∃ t, exec (.setKind h i k) s = .next t ∧
        Completes h 0x60 0x700B 0 s t ∧ Only [.hm, .hif] s t) ∧
      (i < 128 → s.winWaits i = [] → (∀ m ∈ winObjs i, s.groupOf m = none) → ∃ t, exec (.setKind h i k) s = .next t ∧
        Completes h 0x60 0 0 s t ∧
        (∀ j < 64, t.getObj (64 * i + j) = if (s.getObj (64 * i + j)).count = bitOf k j then s.getObj (64 * i + j)
          else { count := bitOf k j }) ∧
        (∀ m, m / 64 ≠ i → t.getObj m = s.getObj m) ∧ t.syn.wtr = s.syn.wtr ∧ Only [.hm, .hif, .ldg, .syn] s t) ∧
      (512 ≤ g ∨ 16 < l.length → ∃ t, exec (.groupDef h g p l) s = .next t ∧ Completes h 0x60 0x700D 0 s t ∧
        Only [.hm, .hif] s t) ∧
      (g < 512 → (s.getGrp g).valid = true → s.grpWaits g = true → l = [] → ∃ t, exec (.groupDef h g p l) s = .next t ∧
        Completes h 0x60 0x700B 0 s t ∧ Only [.hm, .hif] s t) ∧
      (g < 512 → (s.getGrp g).valid = false ∨ s.grpWaits g = false →
        ∃ t, exec (.groupDef h g p []) s = .next t ∧ Completes h 0x60 0 0 s t ∧
          t.getGrp g = { gen := (s.getGrp g).gen } ∧ (∀ j, j ≠ g → t.getGrp j = s.getGrp j) ∧ t.syn.obj = s.syn.obj ∧
          Only [.hm, .hif, .ldg, .syn] s t) ∧
      (g < 512 → l ≠ [] → l.length ≤ 16 →
        (8192 < p ∨ (∃ m ∈ l, 8192 ≤ m) → ∃ t, exec (.groupDef h g p l) s = .next t ∧ Completes h 0x60 0x700D 0 s t ∧
          Only [.hm, .hif] s t) ∧
        (p ≤ 8192 → (∀ m ∈ l, m < 8192) →
          (p = 0 ∨ ¬ l.Nodup ∨ (∃ m ∈ l, (s.getObj m).count = false ∨ ∃ j, s.groupOf m = some j ∧ j ≠ g) →
            ∃ t, exec (.groupDef h g p l) s = .next t ∧ Completes h 0x60 0x700C 0 s t ∧ Only [.hm, .hif] s t) ∧
          (0 < p → l.Nodup → (∀ m ∈ l, (s.getObj m).count = true ∧ ∀ j, s.groupOf m = some j → j = g) →
            ((s.getGrp g).valid = true → s.grpWaits g = true → ∃ t, exec (.groupDef h g p l) s = .next t ∧
              Completes h 0x60 0x700B 0 s t ∧ Only [.hm, .hif] s t) ∧
            ((s.getGrp g).valid = false ∨ s.grpWaits g = false →
              ∃ t, exec (.groupDef h g p l) s = .next t ∧ Completes h 0x60 0 0 s t ∧
                t.getGrp g = { valid := true, p := p, members := l, arrived := 0, gen := (s.getGrp g).gen } ∧
                (∀ j, j ≠ g → t.getGrp j = s.getGrp j) ∧ t.syn.obj = s.syn.obj ∧
                Only [.hm, .hif, .ldg, .syn] s t))))) ∧
    (Runs h descSynMap s → WaitersOk s →
      let gone := (List.range 128).filter fun w =>
        ((maskIdx 128 o.remove).contains w && decide (Tbl.get 0 s.syn.own w = o.ctx)) || o.moves.any fun m => m.1 = w
      (o.ctx = 0 ∨ 512 ≤ o.ctx ∨ 8 < o.moves.length ∨ (∃ m ∈ o.moves, 128 ≤ m.1 ∨ 128 ≤ m.2) →
        ∃ t, exec (.synMap h o) s = .next t ∧ Completes h 0x61 0x700D 0 s t ∧
        Only [.hm, .hif] s t) ∧
      (0 < o.ctx → o.ctx < 512 → o.moves.length ≤ 8 → (∀ m ∈ o.moves, m.1 < 128 ∧ m.2 < 128) →
        ((∃ w ∈ maskIdx 128 o.add, Tbl.get 0 s.syn.own w ≠ 0 ∧ Tbl.get 0 s.syn.own w ≠ o.ctx) ∨
            (∃ m ∈ o.moves, Tbl.get 0 s.syn.own m.2 ≠ 0 ∧ m.2 ∉ maskIdx 128 o.add) →
          ∃ t, exec (.synMap h o) s = .next t ∧ Completes h 0x61 0x700E 0 s t ∧ Only [.hm, .hif] s t) ∧
        ((∀ w ∈ maskIdx 128 o.add, Tbl.get 0 s.syn.own w = 0 ∨ Tbl.get 0 s.syn.own w = o.ctx) →
          (∀ m ∈ o.moves, Tbl.get 0 s.syn.own m.2 = 0 ∨ m.2 ∈ maskIdx 128 o.add) →
          ((∃ k y, s.waiter k = some y ∧ y.obj / 64 ∈ gone) → o.force = false → ∃ t, exec (.synMap h o) s = .next t ∧
            Completes h 0x61 0x700B 0 s t ∧ Only [.hm, .hif] s t) ∧
          ((∀ k y, s.waiter k = some y → y.obj / 64 ∉ gone) ∨ o.force = true → ∃ t, exec (.synMap h o) s = .next t ∧
            Completes h 0x61 0 (s.waits fun _ y => gone.contains (y.obj / 64)).length s t ∧
            (∀ w ∈ maskIdx 128 o.add, Tbl.get 0 t.syn.own w = o.ctx) ∧
            (∀ w ∈ maskIdx 128 o.remove, w ∉ maskIdx 128 o.add → Tbl.get 0 s.syn.own w = o.ctx →
              Tbl.get 0 t.syn.own w = 0) ∧
            (∀ w, w ∉ maskIdx 128 o.add → w ∉ maskIdx 128 o.remove → Tbl.get 0 t.syn.own w = Tbl.get 0 s.syn.own w) ∧
            (∀ k y, s.waiter k = some y → y.obj / 64 ∈ gone → t.waiter k = none) ∧
            (∀ k y, s.waiter k = some y → y.obj / 64 ∉ gone → (∀ m ∈ o.moves, m.2 ≠ y.obj / 64) →
              t.waiter k = some y) ∧
            (o.moves = [] → t.syn.obj = s.syn.obj) ∧
            (∀ a b, o.moves = [(a, b)] → a ≠ b → ∀ j < 64, t.getObj (64 * b + j) = s.getObj (64 * a + j) ∧
              t.getObj (64 * a + j) = { count := (s.getObj (64 * a + j)).count }) ∧
            (∀ n, (∀ m ∈ o.moves, m.1 ≠ n / 64 ∧ m.2 ≠ n / 64) → t.getObj n = s.getObj n) ∧
            Only [.hm, .ep, .hif, .ldg, .trs, .syn] s t)))) ∧
    (Runs h descSynRead s →
      (2 ≤ k ∨ 8192 ≤ i → ∃ t, exec (.synRead h k i) s = .next t ∧ Completes h 0x62 0x700D 0 s t ∧ Only [.hm, .hif] s t) ∧
      (i < 8192 →
        (s.mapHas h.ctx (i / 64) = true → ∃ t, exec (.synRead h 0 i) s = .next t ∧ Completes h 0x62 0 (objStat s i) s t ∧
          Only [.hm, .hif] s t) ∧
        (s.mapHas h.ctx (i / 64) = false → ∃ t, exec (.synRead h 0 i) s = .next t ∧ Completes h 0x62 0x7002 0 s t ∧
          Only [.hm, .hif] s t) ∧
        (h.ctx.val = 0 ∨ (∃ y, s.waiter i = some y ∧ y.ctx = h.ctx) → ∃ t, exec (.synRead h 1 i) s = .next t ∧
          Completes h 0x62 0 (wtrObj s i) s t ∧ Only [.hm, .hif] s t) ∧
        (h.ctx.val ≠ 0 → (∀ y, s.waiter i = some y → y.ctx ≠ h.ctx) → ∃ t, exec (.synRead h 1 i) s = .next t ∧
          Completes h 0x62 0x7002 0 s t ∧ Only [.hm, .hif] s t)))

/-- R350, R368: CLR_CONFIG and CLR_LINK are refused out of range and while Clearing, or the link, is enabled;
otherwise their fields take force and enabling starts a JOIN. Completes: CLR_CONFIG, CLR_LINK. -/
def Obligations.ClearingByDescriptor : Prop :=
  ∀ (s : State) (h : DescHdr) (o : ClrCfgOp) (q : ClrLinkOp),
    (Runs h descClrConfig s →
      let bad := o.vmax = 0 ∨ 3 < o.vmax ∨ 20 < o.keep ∨ o.leaseUs < 50 ∨ 1000 < o.leaseUs ∨ o.retryMs = 0 ∨ o.mbx % 4096 ≠ 0
      (bad → ∃ t, exec (.clrConfig h o) s = .next t ∧ Completes h 0x70 0x8002 0 s t ∧ Only [.hm, .hif] s t) ∧
      (¬ bad → s.clr.en = true → ∃ t, exec (.clrConfig h o) s = .next t ∧ Completes h 0x70 0x8001 0 s t ∧
        Only [.hm, .hif] s t) ∧
      (¬ bad → s.clr.en = false → ∃ t, exec (.clrConfig h o) s = .next t ∧ Completes h 0x70 0 0 s t ∧ t.clr.id = o.chip ∧
        t.clr.domain = o.domain ∧ t.clr.vmax = o.vmax ∧ t.clr.keep = o.keep ∧ t.clr.leaseUs = o.leaseUs ∧
        t.clr.retryMs = o.retryMs ∧ t.clr.mbxLo + t.clr.mbxHi * 2 ^ 32 = o.mbx ∧ t.clr.en = o.en ∧
        (o.en = true → ∀ l ∈ s.links, (t.getLnk l).st = 1 ∧ (t.getLnk l).bor = (s.getLnk l).bor ∧
          (t.getLnk l).lent = (s.getLnk l).lent) ∧
        (o.en = false → t.clr.lnk = s.clr.lnk) ∧ Only [.hm, .hif, .clr] s t)) ∧
    (Runs h (descClrLink q) s →
      (64 < q.link → ∃ t, exec (.clrLink h q) s = .next t ∧ Completes h 0x71 0x8002 0 s t ∧ Only [.hm, .hif] s t) ∧
      (q.link ≤ 64 → (s.getLnk q.link).en = true → ∃ t, exec (.clrLink h q) s = .next t ∧ Completes h 0x71 0x8001 0 s t ∧
        Only [.hm, .hif] s t) ∧
      (q.link ≤ 64 → (s.getLnk q.link).en = false → ∃ t, exec (.clrLink h q) s = .next t ∧ Completes h 0x71 0 0 s t ∧
        (t.getLnk q.link).peer = q.peer ∧ (t.getLnk q.link).addr = q.addr ∧ (t.getLnk q.link).en = q.en ∧
        (q.en = true → s.clr.en = true → (t.getLnk q.link).st = 1) ∧
        (q.en = false ∨ s.clr.en = false → (t.getLnk q.link).st = (s.getLnk q.link).st) ∧
        (∀ k, k ≠ q.link → t.getLnk k = s.getLnk k) ∧ Only [.hm, .hif, .clr] s t))

/-- R395, R398, R401: DMA_XFER is refused with the status of the first check of Table 15.5 that fails and otherwise
runs on channel 5; FREC_COPY is refused out of range, misaligned and with serial NOR out of reach, and otherwise runs on
channel 5; a transfer that ends frees its channel, counts, and completes its descriptor with what was moved, and none
ends well before its last read has been answered or, for a copy, while a fault record is being committed. R393, R399,
R400, R412: a stream is armed when its channel is free and its operand passes the checks; a period starts a transfer, or
counts an overrun while the last one runs; a transfer that ends writes its buffer's trailer; a stop ends it at once, or
after the transfer in progress; a sweep is captured, or lost while the capture is frozen. Completes: DMA_XFER,
FREC_COPY, DMA_TRANSFER_DONE, DMA_STREAM_ARM, DMA_STREAM_STOP, STREAM_PERIOD, CAPTURE_SWEEP, DMA_CTRL_CLR,
STOP_STREAMS. -/
def Obligations.TransfersAndStreams : Prop :=
  (∀ (s : State) (h : DescHdr) (o : XferOp) (f : FrecCopyOp) (x : Ext) (k : Fin 8) (ok : Bool) (n : Nat) (ws : List Word),
     (Runs h descDmaXfer s →
       let c := xferCheck false (s.getChan 5).busy o (Ext.bytes x)
       (c.1 ≠ 0 → ∃ t, exec (.dmaXfer h o x) s = .next t ∧ Completes h 0x80 c.1 0 s t ∧ Only [.hm, .hif] s t) ∧
       (c.1 = 0 → ∃ t, exec (.dmaXfer h o x) s = .next t ∧ (t.getChan 5).busy = true ∧ (t.getChan 5).mode = o.mode ∧
         ((t.getChan 5).xfer.map fun y => (y.op, y.hdr, y.opcode, y.table)) = some (o, some h, 0x80, c.2) ∧
         (t.getCtx h.ctx).busy = true ∧ t.hm.out = s.hm.out ∧ (∀ j, j ≠ 5 → t.getChan j = s.getChan j) ∧
         Only [.hm, .hif, .dma] s t)) ∧
     (Runs h descFrecCopy s →
       let bad := 320 ≤ f.slot ∨ f.nslot = 0 ∨ 320 < f.nslot ∨ (f.fromPtr = true ∧ (f.slot ≠ 0 ∨ s.frec.ptrValid = false))
       (bad → ∃ t, exec (.frecCopy h f) s = .next t ∧ Completes h 0x84 0xA002 0 s t ∧ Only [.hm, .hif] s t) ∧
       (¬ bad → f.addr % 16 ≠ 0 → ∃ t, exec (.frecCopy h f) s = .next t ∧ Completes h 0x84 0xA001 0 s t ∧
         Only [.hm, .hif] s t) ∧
       (¬ bad → f.addr % 16 = 0 → s.nvDown = true → ∃ t, exec (.frecCopy h f) s = .next t ∧
         Completes h 0x84 0xA007 0 s t ∧ Only [.hm, .hif] s t) ∧
       (¬ bad → f.addr % 16 = 0 → s.nvDown = false → ∃ t, exec (.frecCopy h f) s = .next t ∧
         ((t.getChan 5).xfer.map fun y => (y.hdr, y.opcode, y.first, y.num, y.back)) =
           some (some h, 0x84, if f.fromPtr then s.frec.ptrSlot else f.slot, f.nslot, f.fromPtr) ∧
         (t.getCtx h.ctx).busy = true ∧ Only [.hif, .dma] s t)) ∧
     (s.live = true →
       ((s.getChan k).xfer = none → exec (.dmaTransferDone k ok n ws []) s = .next s) ∧
       (ok = true → s.reading k = true → exec (.dmaTransferDone k ok n ws []) s = .next s) ∧
       (∀ y, ok = true → (s.getChan k).xfer = some y → y.opcode = 0x84 → s.frec.busy = true →
         exec (.dmaTransferDone k ok n ws []) s = .next s) ∧
       (∀ y g, (s.getChan k).xfer = some y → y.hdr = some g → NoClose g.ctx s → (ok = true → s.reading k = false) →
         let c := s.getChan k
         let tot := sumN ((xferWrites s y y.op.dst (ws.map BitVec.toNat)).map Prod.fst)
         (y.opcode = 0x80 → ∃ t, exec (.dmaTransferDone k ok n ws []) s = .next t ∧ (t.getChan k).xfer = none ∧
           (t.getChan k).busy = false ∧ (t.getChan k).last = (if ok then 0 else 0xA006) ∧
           (t.getChan k).done = (if ok then satInc 16 c.done else c.done) ∧
           (t.getChan k).fail = (if ok then c.fail else satInc 16 c.fail) ∧
           Completes g 0x80 (if ok then 0 else 0xA006) (if ok then tot else min n tot) s t ∧
           (t.getCtx g.ctx).busy = false ∧ (∀ j, j ≠ k.val → t.getChan j = s.getChan j) ∧ Only [.hm, .hif, .dma] s t) ∧
         (k.val = 5 → y.opcode = 0x84 → (ok = true → s.frec.busy = false) →
           ∃ t, exec (.dmaTransferDone k ok n ws []) s = .next t ∧ (t.getChan 5).xfer = none ∧
           Completes g 0x84 (if ok then 0 else 0xA007) (if ok then y.num else min n y.num) s t ∧
           (t.getCtx g.ctx).busy = false ∧ Only [.hm, .hif, .dma] s t) ∧
         (k.val = 6 → y.opcode = 0x82 → ∃ t, exec (.dmaTransferDone k ok n ws []) s = .next t ∧ (t.getChan 6).xfer = none ∧
           t.ldg.r = (if ok then max s.ldg.r (y.first + y.num) else s.ldg.r) ∧ t.ldg.w = s.ldg.w ∧
           t.ldg.store = s.ldg.store ∧ Completes g 0x82 (if ok then 0 else 0xA006) (if ok then y.num else 0) s t ∧
           (t.getCtx g.ctx).busy = false ∧ Only [.hm, .hif, .dma, .ldg] s t)))) ∧
  (∀ (s : State) (h : DescHdr) (o : XferOp) (x : Ext) (k : Fin 5) (ws : List Word),
     let c := s.getChan k
     (Runs h descDmaStream s → o.chan = k →
       let chk := xferCheck true (c.busy || c.armed) o (Ext.bytes x)
       (chk.1 ≠ 0 → ∃ t, exec (.dmaStreamArm h o x) s = .next t ∧ Completes h 0x81 chk.1 0 s t ∧ Only [.hm, .hif] s t) ∧
       (chk.1 = 0 → ∃ t, exec (.dmaStreamArm h o x) s = .next t ∧ Completes h 0x81 0 0 s t ∧ (t.getChan k).armed = true ∧
         (t.getChan k).stream = some o ∧ (t.getChan k).armTime = s.now ∧ (t.getChan k).n = 0 ∧
         (∀ j, j ≠ k.val → t.getChan j = s.getChan j) ∧ Only [.hm, .hif, .dma] s t)) ∧
     (Runs h descDmaStream s →
       (c.armed = false → ∃ t, exec (.dmaStreamStop h k) s = .next t ∧ Completes h 0x81 0 0 s t ∧ Only [.hm, .hif] s t) ∧
       (c.armed = true → c.busy = true → ∃ t, exec (.dmaStreamStop h k) s = .next t ∧ (t.getChan k).stopping = true ∧
         (t.getChan k).stopHdr = some h ∧ (t.getChan k).armed = true ∧ (t.getCtx h.ctx).busy = true ∧ Only [.hif, .dma] s t) ∧
       (c.armed = true → c.busy = false → ∃ t, exec (.dmaStreamStop h k) s = .next t ∧
         (t.getChan k).armed = false ∧ (t.getChan k).stream = none ∧ Completes h 0x81 0 c.buffers s t ∧
         Only [.hm, .hif, .dma] s t)) ∧
     (s.live = true →
       (c.stream = none → exec (.streamPeriod k) s = .next s) ∧
       (∀ q, c.stream = some q →
         (s.frm.inFrame = true ∨ s.frm.metered = false ∨ s.now < c.armTime + c.n * q.periodUs * 1000 ∨ c.stopping = true →
           exec (.streamPeriod k) s = .next s) ∧
         (s.frm.inFrame = false → s.frm.metered = true → c.armTime + c.n * q.periodUs * 1000 ≤ s.now → c.stopping = false →
           (c.busy = true → ∃ t, exec (.streamPeriod k) s = .next t ∧ (t.getChan k).ovr = satInc 16 c.ovr ∧
             (t.getChan k).overrun = true ∧ (t.getChan k).n = c.n + 1 ∧ (t.getChan k).xfer = c.xfer ∧
             Only [.hm, .hif, .ldg, .dma] s t) ∧
           (c.busy = false → ∃ t, exec (.streamPeriod k) s = .next t ∧ (t.getChan k).busy = true ∧
             (t.getChan k).n = c.n + 1 ∧
             ((t.getChan k).xfer.map fun y => (y.op, y.opcode, y.period, y.start)) = some (q, 0x81, c.n, s.now) ∧
             Only [.dma] s t))) ∧
       (∀ y, c.xfer = some y → y.opcode = 0x81 → c.stopping = false →
         let buf := y.op.dst + y.period % max 1 y.op.nbuf * y.op.bstride
         (s.reading k = false → ∃ t, exec (.dmaTransferDone ⟨k, by omega⟩ true 0 ws []) s = .next t ∧
           (t.getChan k).xfer = none ∧
           (t.getChan k).seq = y.period + 1 ∧ (t.getChan k).buffers = c.buffers + 1 ∧ (t.getChan k).done = satInc 16 c.done ∧
           Posts (.words (buf + y.op.bstride - 16) (streamTrailer c y s.tb.hold)) s t ∧ Only [.hm, .dma] s t) ∧
         (∃ t, exec (.dmaTransferDone ⟨k, by omega⟩ false 0 ws []) s = .next t ∧ (t.getChan k).xfer = none ∧
           (t.getChan k).seq = c.seq ∧ (t.getChan k).last = 0xA006 ∧ (t.getChan k).fail = satInc 16 c.fail ∧
           Only [.hm, .hif, .ldg, .dma] s t)) ∧
       (s.dma.run = false → exec .captureSweep s = .next s) ∧
       (s.dma.run = true → s.capFrozen = true → ∃ t, exec .captureSweep s = .next t ∧ t.dma.sweeps = s.dma.sweeps ∧
         (∀ j < 5, (t.getChan j).gap = if (s.getChan j).armed then satInc 16 (s.getChan j).gap else (s.getChan j).gap) ∧
         Only [.dma] s t) ∧
       (s.dma.run = true → s.capFrozen = false → ∃ t w, exec .captureSweep s = .next t ∧
         t.dma.sweeps = (if s.dma.sweeps.length < 256 then s.dma.sweeps else s.dma.sweeps.tail) ++ [w] ∧
         (∀ p < 128, Tbl.get 0 w p = sweepEntry s p) ∧ t.dma.chan = s.dma.chan ∧ Only [.dma] s t)) ∧
     (Emulates s →
       (∃ t, exec .dmaCtrlClr s = .next t ∧
         (∀ j < 8, t.getChan j = { s.getChan j with done := 0, fail := 0, ovr := 0 }) ∧ Only [.hs, .dma] s t) ∧
       ∃ t, exec .stopStreams s = .next t ∧
         (c.armed = true → c.busy = true → (t.getChan k).stopping = true ∧ (t.getChan k).armed = true) ∧
         (c.armed = true → c.busy = false → (t.getChan k).armed = false ∧ (t.getChan k).stream = none) ∧
         (c.armed = false → t.getChan k = c) ∧ Only [.hs, .dma] s t))

/-- R403–R407, R412: the store takes the first record of the next source; the last slot takes the overflow record and
later records are dropped; a record stored after a loss of its source's records carries the flag LOST; a drain names
what it takes; a re-arm empties the store and puts LDG_REARMED first; the window reads the record at the read position
and advances past it; the cursor is held within the store. Completes: LEDGER_STORE, LDW_REC0_READ, LDW_REC7_READ,
LDW_CURSOR_WRITE, LDG_CTRL_CLR_LOST, LDG_DRAIN, LDG_REARM. -/
def Obligations.LedgerStoredDrainedRead : Prop :=
  ∀ (s : State) (h : DescHdr) (n a : Nat) (f : Bool) (v : Fin 32768),
    (s.live = true →
      (ldgNext s = none → exec .ledgerStore s = .next s) ∧
      (∀ k r l, ldgNext s = some k → Tbl.get [] s.ldg.queues k = r :: l →
        (s.ldg.w < 16383 → ∃ t, exec .ledgerStore s = .next t ∧ t.ldg.w = s.ldg.w + 1 ∧
          Tbl.get {} t.ldg.store s.ldg.w = { r with seq := s.ldg.seq, lost := Tbl.get false s.ldg.lostFlag r.source } ∧
          (∀ j, j ≠ s.ldg.w → Tbl.get {} t.ldg.store j = Tbl.get {} s.ldg.store j) ∧ t.ldg.seq = wrapInc 32 s.ldg.seq ∧
          Tbl.get [] t.ldg.queues k = l ∧ (∀ j, j ≠ k → Tbl.get [] t.ldg.queues j = Tbl.get [] s.ldg.queues j) ∧
          t.ldg.rr = k ∧ t.ldg.r = s.ldg.r ∧ Only [.ldg, .queues] s t) ∧
        (s.ldg.w = 16383 → ∃ t, exec .ledgerStore s = .next t ∧ t.ldg.w = 16384 ∧
          (Tbl.get {} t.ldg.store 16383).code = 0xA810 ∧ (Tbl.get {} t.ldg.store 16383).p0 = r.code ∧
          t.ldg.drop = satInc 32 s.ldg.drop ∧ Only [.hm, .hif, .ldg, .queues] s t) ∧
        (16384 ≤ s.ldg.w → ∃ t, exec .ledgerStore s = .next t ∧ t.ldg.w = s.ldg.w ∧ t.ldg.store = s.ldg.store ∧
          t.ldg.drop = satInc 32 s.ldg.drop ∧ Tbl.get [] t.ldg.queues k = l ∧ Only [.ldg, .queues] s t)) ∧
      (s.ldg.r = s.ldg.w → exec (.ldwRec0Read f) s = .next (hsAnswer 0 0 (s.onLdg fun y =>
        { y with buf := {}, bufBad := false, bufValid := false }))) ∧
      (s.ldg.r ≠ s.ldg.w → ∃ t, exec (.ldwRec0Read f) s = .next t ∧ t.ldg.buf = Tbl.get {} s.ldg.store s.ldg.r ∧
        t.ldg.bufSlot = s.ldg.r ∧ t.ldg.bufValid = true ∧ t.ldg.bufBad = f ∧ t.ldg.r = s.ldg.r ∧
        t.hs.resp = lastFour (s.hs.resp ++ [(0, (ldgWords (Tbl.get {} s.ldg.store s.ldg.r) f).getD 0 0)]) ∧
        (f = false → Only [.hs, .ldg] s t) ∧ Only [.hs, .hm, .hif, .ldg] s t) ∧
      (∃ t, exec .ldwRec7Read s = .next t ∧ t.hs.resp = lastFour (s.hs.resp ++ [(0, s.ldg.buf.p3 % 2 ^ 32)]) ∧
        t.ldg.r = (if s.ldg.bufValid then max s.ldg.r (s.ldg.bufSlot + 1) else s.ldg.r) ∧ t.ldg.bufValid = false ∧
        t.ldg.store = s.ldg.store ∧ Only [.hs, .ldg] s t) ∧
      exec (.ldwCursorWrite v) s = .next (hsAnswer 0 0 (s.onLdg fun l => { l with r := min v l.w, bufValid := false }))) ∧
    (Emulates s → exec .ldgCtrlClrLost s = .next (hsAnswer 0 0 (s.onLdg fun l => { l with qlost := 0, eccUnc := 0 }))) ∧
    (Runs h descLdgDrain s →
      (n = 0 ∨ 16384 < n → ∃ t, exec (.ldgDrain h n a) s = .next t ∧ Completes h 0x82 0xA002 0 s t ∧ Only [.hm, .hif] s t) ∧
      (0 < n → n ≤ 16384 → a % 32 ≠ 0 → ∃ t, exec (.ldgDrain h n a) s = .next t ∧ Completes h 0x82 0xA001 0 s t ∧
        Only [.hm, .hif] s t) ∧
      (0 < n → n ≤ 16384 → a % 32 = 0 → ∃ t, exec (.ldgDrain h n a) s = .next t ∧ (t.getChan 6).busy = true ∧
        ((t.getChan 6).xfer.map fun y => (y.hdr, y.opcode, y.op.dst, y.first, y.num)) =
          some (some h, 0x82, a, s.ldg.r, min n (s.ldg.w - s.ldg.r)) ∧
        (t.getCtx h.ctx).busy = true ∧ Only [.hif, .dma] s t)) ∧
    (Runs h descLdgRearm s →
      (s.ldg.r < s.ldg.w → f = false → ∃ t, exec (.ldgRearm h f) s = .next t ∧ Completes h 0x83 0xA801 0 s t ∧
        Only [.hm, .hif] s t) ∧
      (s.ldg.w ≤ s.ldg.r ∨ f = true → ∃ t, exec (.ldgRearm h f) s = .next t ∧ Completes h 0x83 0 (s.ldg.w - s.ldg.r) s t ∧
        t.ldg.w = 1 ∧ t.ldg.r = 0 ∧ t.ldg.drop = 0 ∧ t.ldg.seq = wrapInc 32 s.ldg.seq ∧
        (Tbl.get {} t.ldg.store 0).code = 0xA811 ∧ (Tbl.get {} t.ldg.store 0).seq = s.ldg.seq ∧
        (Tbl.get {} t.ldg.store 0).p0 = satU 32 (s.ldg.w - s.ldg.r) ∧
          (Tbl.get {} t.ldg.store 0).p1 = satU 32 s.ldg.drop ∧ (∀ j, j ≠ 0 → Tbl.get {} t.ldg.store j = {}) ∧
        Only [.hm, .hif, .ldg] s t))

/-- R8–R11, R34, R405, R444, R470: a write of `LIM_ALARM` clears the bits written whose condition has gone; a read of
a `_LO` register latches its `_HI` half, which a read of that returns; a read of the first digest word latches all; a
write acts as the command that the table names for its address, is stored in the fields that a selector register has, is
discarded where there is no register or a read-only one, and with ACCESS_ERR where a byte strobe is missing, and is
answered NOT_READY without firmware. (Which of the two answers a write gets that meets both is the model's choice, log
entry 73.) Completes: LIM_ALARM_CLEAR, DIGEST0_READ, REGISTER_WRITE, LO_READ_LATCH. -/
def Obligations.RegistersReadAndWritten : Prop :=
  ∀ (s : State) (a v : Word),
    let w := wordAddr a
    (s.live = true →
      (∃ t, exec (.limAlarmClear v) s = .next t ∧
        (∀ b < 19, bitOf t.pwr.alarm b = (bitOf s.pwr.alarm b && !(bitOf v.toNat b && alarmMay b s))) ∧
        (bitOf v.toNat 5 = true → bitOf s.pwr.alarm 5 = true → s.refsAgree = true → t.sns.noMaj = false) ∧
        Only [.pwr, .sns, .hm, .hs, .hif, .ldg] s t) ∧
      (∃ t, exec .digest0Read s = .next t ∧ t.hs.resp = lastFour (s.hs.resp ++ [(0, digestWord s 0)]) ∧
        t.hs.digest = (List.range 12).map (digestWord s) ∧ t.hs.latch = s.hs.latch ∧ Only [.hs] s t) ∧
      (w = 0x0100 → exec (.registerWrite a ⟨v, 15⟩) s = exec (.limAlarmClear v) s) ∧
      (∀ c : CtxId, w = 0x1000 + 4 * c → exec (.registerWrite a ⟨v, 15⟩) s = exec (.doorbellWrite c v) s) ∧
      (∀ b : Fin 16, b ≠ 15 → exec (.registerWrite a ⟨v, b⟩) s = .next (hsAnswer 2 0 s)) ∧
      (w < 0x1000 → w ≠ 0x0100 → w ≠ 0x0220 → exec (.registerWrite a ⟨v, 15⟩) s = .next (hsAnswer 0 0 s))) ∧
    (s.live = false → exec (.registerWrite a ⟨v, 15⟩) s = .next (hsAnswer 1 0 s)) ∧
    (s.live = true → s.fwUp = false → 0x3000 ≤ w → w < 0xD000 →
      exec (.registerWrite a ⟨v, 15⟩) s = .next (hsAnswer 1 0 s) ∧ exec (.loReadLatch a) s = .next (hsAnswer 1 0 s)) ∧
    (s.live = true → s.fwUp = true → s.hif.mismatch = true → 0x2000 ≤ w → w < 0xF000 →
      exec (.registerWrite a ⟨v, 15⟩) s = .next (hsAnswer 3 0 s) ∧ exec (.loReadLatch a) s = .next (hsAnswer 3 0 s)) ∧
    (w = 0x2040 → exec (.registerWrite a ⟨v, 15⟩) s = exec (.c0RingEnWrite v) s) ∧
    (w = 0x2018 → bitOf v.toNat 0 = true → exec (.registerWrite a ⟨v, 15⟩) s = exec .hifNegGo s) ∧
    (w = 0x9084 → exec (.registerWrite a ⟨v, 15⟩) s = exec (.synCoreCfgWrite v) s) ∧
    (w = 0xA000 → exec (.registerWrite a ⟨v, 15⟩) s = exec (.clrCfgWrite v) s) ∧
    (w = 0xE008 → exec (.registerWrite a ⟨v, 15⟩) s = exec (.audSchedWrite v) s) ∧
    (Emulates s → w = 0x3100 → exec (.registerWrite a ⟨v, 15⟩) s =
      .next (hsAnswer 0 0 (s.onClk fun k => { k with domSel := bits v.toNat 0 6 }))) ∧
    (Emulates s → w = 0x6080 → exec (.registerWrite a ⟨v, 15⟩) s =
      .next (hsAnswer 0 0 (s.onTly fun t => { t with progSel := bits v.toNat 0 7 }))) ∧
    (Emulates s → w = 0xA018 ∨ w = 0x6000 ∨ w = 0x3FF0 → exec (.registerWrite a ⟨v, 15⟩) s = .next (hsAnswer 0 0 s)) ∧
    (Emulates s → 0x2000 ≤ w → w < 0xF000 →
      (w ∈ loRegs → ∃ t, exec (.loReadLatch a) s = .next t ∧ Tbl.get 0 t.hs.latch (w + 4) = regNow (w + 4) s ∧
        (∀ j, j ≠ w + 4 → Tbl.get 0 t.hs.latch j = Tbl.get 0 s.hs.latch j) ∧
        t.hs.resp = lastFour (s.hs.resp ++ [(0, regNow w s)]) ∧
        Only [.hs] s t) ∧
      (4 ≤ w → w - 4 ∈ loRegs → w ∉ loRegs →
        exec (.loReadLatch a) s = .next (hsAnswer 0 (Tbl.get 0 s.hs.latch w) s)) ∧
      (w ∉ loRegs → w < 4 ∨ w - 4 ∉ loRegs → exec (.loReadLatch a) s = .next (hsAnswer 0 (regNow w s) s)))

/-- R423, R424, R426, R428, R430, R439: FW_QUERY answers the running version; FW_STAGE writes and checks the slot that
is not running; FW_ACTIVATE makes it preferred, and with `MODE` 1 resets; FW_CONFIRM ends a trial; FW_CONFIG_STAGE
verifies and stages a configuration; FW_SPDM answers a request. Each is refused while Vault does not serve it, while an
update runs, without its bytes, without serial NOR and for what Table 16.14 names. (The answer to an SPDM request is
uninterpreted, log entry 6.) Completes: FW_QUERY, FW_STAGE, FW_ACTIVATE_COLD, FW_ACTIVATE_WARM, FW_CONFIRM,
FW_CONFIG_STAGE, FW_SPDM. -/
def Obligations.ImagesStagedAndActivated : Prop :=
  ∀ (s : State) (h : DescHdr) (o : Buf) (q : SpdmOp) (x : Ext), SlotsOk s →
    let k := s.otherSlot
    let no := fun (c : Instr) (op st : Nat) => ∃ t, exec c s = .next t ∧ Completes h op st 0 s t ∧ Only [.hm, .hif] s t
    (Runs h descFwQuery s → ∃ t, exec (.fwQuery h) s = .next t ∧ Completes h 0xA0 0 s.fw.cur.ver s t ∧ Only [.hm, .hif] s t) ∧
    (Runs h (descFwStage o) s →
      (s.vaultRes ≠ 0 → no (.fwStage h o x) 0xA1 s.vaultRes) ∧
      (s.vaultRes = 0 → s.fw.upd ≠ 0 → no (.fwStage h o x) 0xA1 0xB006) ∧
      (s.vaultRes = 0 → s.fw.upd = 0 → Ext.read x o.len = none → no (.fwStage h o x) 0xA1 0x9006) ∧
      (∀ d, s.vaultRes = 0 → s.fw.upd = 0 → Ext.read x o.len = some d →
        (nvBad x s = true → no (.fwStage h o x) 0xA1 0xB010) ∧
        (nvBad x s = false →
          let g := fwImgOf d
          let st := fwCheck s.fuse (some g)
          ∃ t, exec (.fwStage h o x) s = .next t ∧ Completes h 0xA1 st (if st = 0 then g.ver else 0) s t ∧
            t.fw.slotState k = (if st = 0 then 1 else 4) ∧ t.fw.slotImg k = some g ∧ t.fw.last.getD k 0 = st ∧
            t.fw.slotState (1 - k) = s.fw.slotState (1 - k) ∧ t.fw.slotImg (1 - k) = s.fw.slotImg (1 - k) ∧
            t.fw.pref = (if st = 0 then (if s.fw.run then s.fw.cur.slot else k) else s.fw.pref) ∧ t.fw.cur = s.fw.cur ∧
            t.fw.run = s.fw.run ∧ t.fw.arr = s.fw.arr ∧
            (st = 0 → QRoom 0x22 s → Logs 0x22 0xB103 k g.ver g.svn 0 s t) ∧ Only [.hm, .hif, .ldg, .fw] s t))) ∧
    (∀ m, m < 2 → Runs h (descActivate m) s → s.pwr.wantWarm = none →
      let c := if m = 0 then Instr.fwActivateCold h x else Instr.fwActivateWarm h x
      let ok := s.fw.slotState k = 1 ∨ s.fw.slotState k = 2
      (s.fw.upd ≠ 0 ∨ s.vaultRes = 0xB006 → no c 0xA2 0xB006) ∧
      (s.fw.upd = 0 → s.vaultRes ≠ 0xB006 → ¬ ok → no c 0xA2 0xB008) ∧
      (s.fw.upd = 0 → s.vaultRes ≠ 0xB006 → ok → nvBad x s = true → no c 0xA2 0xB010) ∧
      (s.fw.upd = 0 → s.vaultRes ≠ 0xB006 → ok → nvBad x s = false → ∃ t, exec c s = .next t ∧ Completes h 0xA2 0 0 s t ∧
        t.fw.slotState k = 2 ∧ t.fw.pref = k ∧ t.fw.slotState (1 - k) = s.fw.slotState (1 - k) ∧ t.fw.img = s.fw.img ∧
        (m = 0 → t.fw.run = s.fw.run ∧ (QRoom 0x22 s → Logs 0x22 0xB104 k 0 0 0 s t) ∧ Only [.hm, .hif, .ldg, .fw] s t) ∧
        (m = 1 → t.pwr.cause = 5 ∧ t.pwr.warmCnt = satInc 16 s.pwr.warmCnt ∧ t.fw.run = false))) ∧
    (Runs h descFwConfirm s →
      let trial := s.fw.run = true ∧ s.fw.slotState s.fw.cur.slot = 3
      (¬ trial → no (.fwConfirm h x) 0xA4 0) ∧
      (trial → nvBad x s = true → no (.fwConfirm h x) 0xA4 0xB010) ∧
      (trial → nvBad x s = false → ∃ t, exec (.fwConfirm h x) s = .next t ∧ Completes h 0xA4 0 1 s t ∧
        t.fw.slotState s.fw.cur.slot = 1 ∧ t.fw.pref = s.fw.cur.slot ∧ t.fw.img = s.fw.img ∧
        (QRoom 0x22 s → Logs 0x22 0xB105 s.fw.cur.slot 0 0 0 s t) ∧ Only [.hm, .hif, .ldg, .fw] s t)) ∧
    (Runs h (descConfigStage o) s →
      (s.vaultRes ≠ 0 → no (.fwConfigStage h o x) 0xA5 s.vaultRes) ∧
      (s.vaultRes = 0 → s.fw.upd ≠ 0 → no (.fwConfigStage h o x) 0xA5 0xB006) ∧
      (s.vaultRes = 0 → s.fw.upd = 0 → Ext.read x o.len = none → no (.fwConfigStage h o x) 0xA5 0x9006) ∧
      (∀ d, s.vaultRes = 0 → s.fw.upd = 0 → Ext.read x o.len = some d →
        let c := cfgCopyOf d x.body
        let st := cfgCheck s.fuse (some c)
        let old := s.fw.cfgValid = true ∧ c.ver < s.fw.cfgVer
        (st ≠ 0 → no (.fwConfigStage h o x) 0xA5 st) ∧
        (st = 0 → old → no (.fwConfigStage h o x) 0xA5 0xB00A) ∧
        (st = 0 → ¬ old → nvBad x s = true → no (.fwConfigStage h o x) 0xA5 0xB010) ∧
        (st = 0 → ¬ old → nvBad x s = false → ∃ t, exec (.fwConfigStage h o x) s = .next t ∧
          Completes h 0xA5 0 c.ver s t ∧ t.fw.copy.getD (1 - s.fw.cfgAct) none = some c ∧
          t.fw.cfgStg = 1 - s.fw.cfgAct + 1 ∧ t.fw.cfgAct = s.fw.cfgAct ∧ t.cfg = s.cfg ∧
          (QRoom 0x22 s → Logs 0x22 0xB140 (1 - s.fw.cfgAct) c.ver 0 0 s t) ∧ Only [.hm, .hif, .ldg, .fw] s t))) ∧
    (Runs h (descSpdm q) s →
      (q.reqLen < 4 ∨ 4096 < q.reqLen → no (.fwSpdm h q x) 0xA6 0x9009) ∧
      (4 ≤ q.reqLen → q.reqLen ≤ 4096 →
        (s.vaultRes ≠ 0 → no (.fwSpdm h q x) 0xA6 s.vaultRes) ∧
        (s.vaultRes = 0 → Ext.read x q.reqLen = none → no (.fwSpdm h q x) 0xA6 0x9006) ∧
        (∀ d, s.vaultRes = 0 → Ext.read x q.reqLen = some d →
          let r := Config.spdm s.free (measurements s) d
          (q.rspMax < r.length → ∃ t, exec (.fwSpdm h q x) s = .next t ∧ Completes h 0xA6 0xB011 0 s t ∧
            Only [.hm, .hif, .free] s t) ∧
          (r.length ≤ q.rspMax → ∃ t, exec (.fwSpdm h q x) s = .next t ∧ Completes h 0xA6 0 r.length s t ∧
            Posts (.bytes q.rspAddr r) s t ∧ Only [.hm, .hif, .free] s t))))

/-- R70, R420, R425, R431, R433, R434: a fuse session is refused without its supply, without Vault, when its field is
programmed, when its value is illegal and when its blob is not signed; a session that reads back right programs its
field and no other, and what was sampled at the cold reset stays; one that reads back wrong sets the alarm. A token
unlocks the test modes of its mask once, with an outstanding nonce; zeroisation needs its key, and permanent zeroisation
is done once. (The status after a wrong read-back is a free value of Vault's nibble, log entry 4; the answer
to a permanent zeroisation of a zeroised part is the model's choice, log entry 97.) Completes:
FUSE_INTEGRATOR_KEY, FUSE_LIMIT_GATE, FUSE_BOOT_SET, FUSE_SVN, FUSE_REVOKE_INTEGRATOR, FUSE_REVOKE_KOLHIDEX,
FW_TOKEN_NONCE, FW_TOKEN_UNLOCK, ZEROISE_VOLATILE, ZEROISE_PERMANENT. -/
def Obligations.FusesAndTokens : Prop :=
  ∀ (s : State) (h : DescHdr) (i n key : Nat) (o : Buf) (x : Ext),
    let f := s.fw.arr
    let no := fun (c : Instr) (op st : Nat) => ∃ t, exec c s = .next t ∧ Completes h op st 0 s t ∧ t.fw.arr = f ∧
      t.fuse = s.fuse ∧ Only [.hm, .hif, .fw] s t
    let done := fun (c : Instr) (kind idx res : Nat) (g : Fuses → Prop) => ∃ t, exec c s = .next t ∧
      Completes h 0xA7 0 res s t ∧ g t.fw.arr ∧ t.fuse = s.fuse ∧ (QRoom 0x22 s → Logs 0x22 0xB160 kind idx 0 0 s t) ∧
      Only [.hm, .hif, .ldg, .fw] s t
    let wrong := fun (c : Instr) (kind : Nat) => ∀ m, x.fuseBad = some m → ∃ t st, exec c s = .next t ∧
      Completes h 0xA7 st 0 s t ∧ 0xB000 < st ∧ st < 0xC000 ∧ bitOf t.pwr.alarm 16 = true ∧ t.fuse = s.fuse ∧
      (QRoom 0x22 s → Logs 0x22 0xB161 kind m 0 0 s t) ∧ Only [.pwr, .hm, .hif, .ldg, .fw, .free] s t
    let key0 := fun k => f.intHash.getD k 0 = 0
    (Runs h (descFuse o) s →
      (2 ≤ i → no (.fuseIntegratorKey h i o x) 0xA7 0x9009 ∧ no (.fuseRevokeIntegrator h i o x) 0xA7 0x9009) ∧
      (7 ≤ i → no (.fuseBootSet h i o x) 0xA7 0x9009) ∧ (4 ≤ i → no (.fuseRevokeKolhidex h i o x) 0xA7 0x9009) ∧
      (fuseRefused x s ≠ 0 → ∀ c, (i < 2 ∧ (c = .fuseIntegratorKey h i o x ∨ c = .fuseRevokeIntegrator h i o x)) ∨
          (i < 7 ∧ c = .fuseBootSet h i o x) ∨ (i < 4 ∧ c = .fuseRevokeKolhidex h i o x) ∨ c = .fuseLimitGate h o x →
        no c 0xA7 (fuseRefused x s)) ∧
      (fuseRefused x s = 0 →
        (i < 2 → ¬ key0 i → no (.fuseIntegratorKey h i o x) 0xA7 0xB00C) ∧
        (f.gateDone = true → no (.fuseLimitGate h o x) 0xA7 0xB00C) ∧
        (f.gateDone = false → gateOk x.gate = false → no (.fuseLimitGate h o x) 0xA7 0xB00D) ∧
        (i < 7 → bitOf f.bootDone i = true → no (.fuseBootSet h i o x) 0xA7 0xB00C) ∧
        (i < 2 → bitOf f.intRev i = true → no (.fuseRevokeIntegrator h i o x) 0xA7 0xB00C) ∧
        (i < 4 → bitOf f.kolRev i = true → no (.fuseRevokeKolhidex h i o x) 0xA7 0xB00C) ∧
        (i < 4 → bitOf f.kolRev i = false → (∀ k < 4, k ≠ i → kolKeyOk f k = false) →
          no (.fuseRevokeKolhidex h i o x) 0xA7 0xB00D) ∧
        (i < 2 → key0 0 → key0 1 →
          wrong (.fuseIntegratorKey h i o x) 0 ∧
          (x.fuseBad = none → done (.fuseIntegratorKey h i o x) 0 i 0 fun g =>
            g.intHash.getD i 0 = x.val ∧ g.intHash.getD (1 - i) 0 = 0 ∧ { g with intHash := f.intHash } = f)) ∧
        (Ext.read x o.len = none → ∀ c, (i < 2 ∧ key0 i ∧ ¬ key0 (1 - i) ∧ c = .fuseIntegratorKey h i o x) ∨
            (f.gateDone = false ∧ gateOk x.gate = true ∧ c = .fuseLimitGate h o x) ∨
            (i < 7 ∧ bitOf f.bootDone i = false ∧ c = .fuseBootSet h i o x) ∨
            (i < 2 ∧ bitOf f.intRev i = false ∧ c = .fuseRevokeIntegrator h i o x) ∨
            (i < 4 ∧ bitOf f.kolRev i = false ∧ (∃ k < 4, k ≠ i ∧ kolKeyOk f k = true) ∧ c = .fuseRevokeKolhidex h i o x) →
          no c 0xA7 0x9006) ∧
        (∀ d, Ext.read x o.len = some d →
          (i < 2 → key0 i → ¬ key0 (1 - i) →
            (blobSigned (s.intKeys 2) d ≠ 0 → no (.fuseIntegratorKey h i o x) 0xA7 (blobSigned (s.intKeys 2) d)) ∧
            (blobSigned (s.intKeys 2) d = 0 → wrong (.fuseIntegratorKey h i o x) 0 ∧
              (x.fuseBad = none → done (.fuseIntegratorKey h i o x) 0 i 0 fun g =>
                g.intHash.getD i 0 = x.val ∧ g.intHash.getD (1 - i) 0 = f.intHash.getD (1 - i) 0 ∧
                { g with intHash := f.intHash } = f))) ∧
          (f.gateDone = false → gateOk x.gate = true →
            (blobSigned (s.intKeys 2) d ≠ 0 → no (.fuseLimitGate h o x) 0xA7 (blobSigned (s.intKeys 2) d)) ∧
            (blobSigned (s.intKeys 2) d = 0 → wrong (.fuseLimitGate h o x) 1 ∧
              (x.fuseBad = none → done (.fuseLimitGate h o x) 1 0 0 fun g =>
                g.gateDone = true ∧ g.gateCrcOk = true ∧ g.nMax = x.gate.nMax ∧ g.capMax = x.gate.capMax ∧
                (∀ r < 8, g.vmax.getD r 0 = x.gate.vmax.getD r 0 ∧ g.vov.getD r 0 = x.gate.vov.getD r 0 ∧
                  g.slewMax.getD r 0 = x.gate.slewMax.getD r 0) ∧
                (∀ k < 40, g.dmin.getD k 0 = x.gate.dmin.getD k 0) ∧ g.tcrit = decS 16 (encS 16 x.gate.tcrit) ∧
                (∀ k < 512, g.tripOfs.getD k 0 = decS 16 (encS 16 (x.gate.tripOfs.getD k 0))) ∧
                g.boot.getD 7 [] = (List.range 8).map (fun r => (x.gate.boot.getD 7 []).getD r 0) ∧
                (∀ k < 7, g.boot.getD k [] = f.boot.getD k []) ∧ g.bootDone = f.bootDone ∧ g.svn = f.svn ∧
                  g.intHash = f.intHash ∧
                g.kolHash = f.kolHash ∧ g.intRev = f.intRev ∧ g.kolRev = f.kolRev ∧ g.zeroised = f.zeroised))) ∧
          (i < 7 → bitOf f.bootDone i = false →
            (blobSigned (s.intKeys 2) d ≠ 0 → no (.fuseBootSet h i o x) 0xA7 (blobSigned (s.intKeys 2) d)) ∧
            (blobSigned (s.intKeys 2) d = 0 → wrong (.fuseBootSet h i o x) 2 ∧
              (x.fuseBad = none → done (.fuseBootSet h i o x) 2 i 0 fun g =>
                g.boot.getD i [] = (List.range 8).map (fun r => x.vals.getD r 0) ∧ bitOf g.bootDone i = true ∧
                (∀ k < 8, k ≠ i → g.boot.getD k [] = f.boot.getD k [] ∧ bitOf g.bootDone k = bitOf f.bootDone k) ∧
                { g with boot := f.boot, bootDone := f.bootDone } = f))) ∧
          (i < 2 → bitOf f.intRev i = false →
            (blobSigned (s.intKeys i) d ≠ 0 → no (.fuseRevokeIntegrator h i o x) 0xA7 (blobSigned (s.intKeys i) d)) ∧
            (blobSigned (s.intKeys i) d = 0 → wrong (.fuseRevokeIntegrator h i o x) 4 ∧
              (x.fuseBad = none → done (.fuseRevokeIntegrator h i o x) 4 i 0 fun g =>
                g.intRev = f.intRev + 2 ^ i ∧ { g with intRev := f.intRev } = f))) ∧
          (i < 4 → bitOf f.kolRev i = false → (∃ k < 4, k ≠ i ∧ kolKeyOk f k = true) →
            (blobSigned (s.kolKeys i) d ≠ 0 → no (.fuseRevokeKolhidex h i o x) 0xA7 (blobSigned (s.kolKeys i) d)) ∧
            (blobSigned (s.kolKeys i) d = 0 → wrong (.fuseRevokeKolhidex h i o x) 5 ∧
              (x.fuseBad = none → done (.fuseRevokeKolhidex h i o x) 5 i 0 fun g =>
                g.kolRev = f.kolRev + 2 ^ i ∧ { g with kolRev := f.kolRev } = f)))))) ∧
    (Runs h descFuseSvn s →
      let bad := 64 < n ∨ n ≤ f.svn ∨ s.fw.cur.svn < n ∨ ((s.fw.slotImg s.fw.pref).getD {}).svn < n
      (fuseRefused x s ≠ 0 → no (.fuseSvn h n x) 0xA7 (fuseRefused x s)) ∧
      (fuseRefused x s = 0 → bad → no (.fuseSvn h n x) 0xA7 0xB00D) ∧
      (fuseRefused x s = 0 → ¬ bad → wrong (.fuseSvn h n x) 3 ∧
        (x.fuseBad = none → done (.fuseSvn h n x) 3 0 (bootable n s) fun g => g.svn = n ∧ { g with svn := f.svn } = f))) ∧
    (Runs h (descToken o.addr 16) s →
      (s.vaultRes ≠ 0 → no (.fwTokenNonce h o) 0xA8 s.vaultRes) ∧
      (s.vaultRes = 0 → f.zeroised = true → no (.fwTokenNonce h o) 0xA8 0xB00E) ∧
      (s.vaultRes = 0 → f.zeroised = false → ∃ t, exec (.fwTokenNonce h o) s = .next t ∧ Completes h 0xA8 0 0 s t ∧
        (∃ v, t.fw.vault.nonce = some (v, s.now) ∧ Posts (.bytes o.addr (leBytes 16 v)) s t) ∧
        t.fw.vault.test = s.fw.vault.test ∧ Only [.hm, .hif, .fw, .free] s t)) ∧
    (Runs h (descToken o.addr o.len) s →
      (s.vaultRes ≠ 0 → no (.fwTokenUnlock h o x) 0xA8 s.vaultRes) ∧
      (s.vaultRes = 0 → Ext.read x o.len = none → no (.fwTokenUnlock h o x) 0xA8 0x9006) ∧
      (∀ d, s.vaultRes = 0 → Ext.read x o.len = some d →
        let m := x.val % 2 ^ 32
        (tokenOk m d s = true → ∃ t, exec (.fwTokenUnlock h o x) s = .next t ∧ Completes h 0xA8 0 m s t ∧
          t.fw.vault.test = Nat.lor s.fw.vault.test m ∧ t.fw.vault.nonce = none ∧
          (QRoom 0x22 s → Logs 0x22 0xB170 m 0 0 0 s t) ∧ Only [.hm, .hif, .ldg, .fw] s t) ∧
        (tokenOk m d s = false → ∃ t, exec (.fwTokenUnlock h o x) s = .next t ∧ Completes h 0xA8 0xB00E 0 s t ∧
          t.fw.vault.test = s.fw.vault.test ∧ t.fw.vault.nonce = none ∧
          (QRoom 0x22 s → ∃ p, Logs 0x22 0xB171 p 0 0 0 s t) ∧ Only [.hm, .hif, .ldg, .fw, .free] s t))) ∧
    (Runs h descZeroise s →
      (key ≠ 0x5A45524F → no (.zeroiseVolatile h key) 0xA9 0x9009 ∧ no (.zeroisePermanent h key x) 0xA9 0x9009) ∧
      (key = 0x5A45524F →
        (s.fw.vault.error = false → s.fw.vault.ready = false → no (.zeroiseVolatile h key) 0xA9 0xB006) ∧
        (s.fw.vault.error = true ∨ s.fw.vault.ready = true → ∃ t, exec (.zeroiseVolatile h key) s = .next t ∧
          Completes h 0xA9 0 0 s t ∧ t.fw.vault.nonce = none ∧ t.fw.arr = f ∧
          (s.fw.vault.error = false → t.fw.vault.ready = false ∧
            t.fw.vault.restarts = satInc 16 s.fw.vault.restarts) ∧
          (QRoom 0x22 s → Logs 0x22 0xB132 0 0 0 0 s t) ∧ Only [.hm, .hif, .ldg, .fw] s t) ∧
        (fuseRefused x s ≠ 0 → no (.zeroisePermanent h key x) 0xA9 (fuseRefused x s)) ∧
        (fuseRefused x s = 0 → f.zeroised = true → no (.zeroisePermanent h key x) 0xA9 0xB00C) ∧
        (fuseRefused x s = 0 → f.zeroised = false → x.fuseBad = none → ∃ t, exec (.zeroisePermanent h key x) s = .next t ∧
          Completes h 0xA9 0 0 s t ∧ t.fw.arr = { f with zeroised := true } ∧ t.fuse = s.fuse ∧
          (QRoom 0x22 s → Logs 0x22 0xB132 1 0 0 0 s t) ∧ Only [.hm, .hif, .ldg, .fw] s t) ∧
        (∀ m, fuseRefused x s = 0 → f.zeroised = false → x.fuseBad = some m → ∃ t st,
          exec (.zeroisePermanent h key x) s = .next t ∧ Completes h 0xA9 st 0 s t ∧ 0xB000 < st ∧ st < 0xC000 ∧
            bitOf t.pwr.alarm 16 = true ∧ t.fuse = s.fuse ∧
          (QRoom 0x22 s → Logs 0x22 0xB161 6 m 0 0 s t) ∧ Only [.pwr, .hm, .hif, .ldg, .fw, .free] s t)))

/-- R435, R436, R437: FW_LIVE_UPDATE starts when the other slot holds a compatible image; the hold, the handoff and
the resumption follow in order; an update whose handoff fails, or that is late, rolls back to the old image; the new
image confirms itself, and the descriptor completes with the outcome. Completes: FW_LIVE_UPDATE, LU_PREPARE_DONE,
LU_HANDOFF_DONE, FW_RESUMED, FW_SELF_CONFIRMED, FW_ROLLBACK. -/
def Obligations.LiveUpdateRuns : Prop :=
  ∀ (s : State) (h : DescHdr), SlotsOk s →
    let k := s.otherSlot
    let g := (s.fw.slotImg k).getD {}
    (Runs h descLive s →
      let st := if s.nvDown then 0xB010 else fwCheck s.fuse (s.fw.slotImg k)
      let off := g.ver / 2 ^ 24 ≠ s.fw.cur.ver / 2 ^ 24 ∨ s.fw.cur.hoVer < g.hoMin
      let busy := s.fw.upd ≠ 0 ∨ s.fw.slotState s.fw.cur.slot = 3
      let no := fun (r : Nat) => ∃ t, exec (.fwLiveUpdate h) s = .next t ∧ Completes h 0xA3 r 0 s t ∧ t.fw.upd = s.fw.upd ∧
        t.fw.cur = s.fw.cur ∧ t.fw.pref = s.fw.pref ∧ Only [.hm, .hif, .fw] s t
      (s.vaultRes ≠ 0 → no s.vaultRes) ∧
      (s.vaultRes = 0 → s.fw.slotState k ≠ 1 → s.fw.slotState k ≠ 2 → no 0xB008) ∧
      (s.vaultRes = 0 → s.fw.slotState k = 1 ∨ s.fw.slotState k = 2 →
        (st ≠ 0 → no st) ∧ (st = 0 → off → no 0xB007) ∧ (st = 0 → ¬ off → busy → no 0xB006) ∧
        (st = 0 → ¬ off → ¬ busy → ∃ t, exec (.fwLiveUpdate h) s = .next t ∧ t.fw.upd = 1 ∧ t.fw.updHdr = some h ∧
          t.fw.next = runImgOf k g ∧ t.fw.old = s.fw.cur ∧ t.fw.cur = s.fw.cur ∧ (t.getCtx h.ctx).busy = true ∧
          (QRoom 0x22 s → Logs 0x22 0xB110 g.ver s.fw.cur.ver 0 0 s t) ∧ Only [.hm, .hif, .ldg, .fw] s t))) ∧
    (s.live = true →
      (s.fw.upd ≠ 1 → exec .luPrepareDone s = .next s) ∧
      (s.fw.upd = 1 → ∃ t, exec .luPrepareDone s = .next t ∧ t.fw.upd = 2 ∧ t.fw.handoff = true ∧ t.fw.holdAt = s.now ∧
        (∀ c ∈ s.clusters, (s.getClu c).st = 1 → (t.getClu c).st = 2 ∧ (t.getClu c).holdCause = 0) ∧
        (∀ r ∈ s.railIds, (t.getReg r).hold = true) ∧ t.aud.test = none ∧ t.fw.cur = s.fw.cur ∧
        Only [.rail, .loop, .hm, .hif, .ldg, .fw, .fc, .trs, .aud] s t) ∧
      (s.fw.upd ≠ 2 → ∀ b, exec (.luHandoffDone b) s = .next s) ∧
      (s.fw.upd = 2 → s.fw.next.slot < 2 →
        (∃ t, exec (.luHandoffDone true) s = .next t ∧ t.fw.upd = 4 ∧ t.fw.cur = s.fw.next ∧ t.fw.switchAt = s.now ∧
          t.fw.slotState s.fw.next.slot = 3 ∧
          t.ho = some { loop := s.loop.loop, fc := s.fc, trs := s.trs, prog := s.tly.prog, set := s.tly.set,
                        table := s.frm.table } ∧
          (∀ c ∈ s.clusters, (t.getFwCore c).bank = !(s.getFwCore c).bank) ∧ Only [.fw, .ho] s t) ∧
        (∃ t, exec (.luHandoffDone false) s = .next t ∧ t.fw.upd = 6 ∧ t.fw.cur = s.fw.old ∧ t.fw.pref = s.fw.old.slot ∧
          t.fw.slotState s.fw.next.slot = 4 ∧ t.trs.od = 0 ∧ (∀ c ∈ s.clusters, (t.getTrsCl c).lent = 0) ∧
          (QRoom 0x22 s → Logs 0x22 0xB113 0 s.fw.next.ver 0 0 s t) ∧
          Only [.frm, .rail, .loop, .hm, .hif, .ep, .ldg, .fw, .tly, .fc, .trs, .syn, .ho] s t)) ∧
      (s.fw.upd ≠ 4 → s.fw.upd ≠ 6 → exec .fwResumed s = .next s) ∧
      (s.fw.upd = 4 → ∃ t, exec .fwResumed s = .next t ∧ t.fw.upd = 5 ∧ t.fw.handoff = false ∧
        t.fw.holdUs = satU 16 (divRoundN (s.now - s.fw.holdAt) nsPerUs) ∧ t.fw.okFrames = 0 ∧
        (∀ c ∈ s.clusters, (s.getClu c).st = 2 → (s.getClu c).holdCause = 0 → (t.getClu c).st = 1) ∧
        (QRoom 0x22 s → Logs 0x22 0xB111 (divRoundN (s.now - s.fw.holdAt) nsPerUs) 0 0 0 s t) ∧
        Only [.rail, .loop, .hm, .hif, .ldg, .fw, .fc, .trs, .clr, .ho, .free] s t) ∧
      (∀ q, s.fw.upd = 6 → s.fw.updHdr = some q → NoClose q.ctx s → ∃ t, exec .fwResumed s = .next t ∧ t.fw.upd = 0 ∧
        t.ho = none ∧ t.fw.handoff = false ∧ t.fw.cur = s.fw.cur ∧ Completes q 0xA3 0xB00F 0 s t ∧
        (∀ c ∈ s.clusters, (s.getClu c).st = 2 → (s.getClu c).holdCause = 0 → (t.getClu c).st = 1) ∧
        Only [.rail, .loop, .hm, .hif, .ldg, .fw, .fc, .trs, .clr, .ho, .free] s t) ∧
      (s.confirmMay = false → exec .fwSelfConfirmed s = .next s) ∧
      (∀ q, s.confirmMay = true → s.fw.updHdr = some q → NoClose q.ctx s → ∃ t, exec .fwSelfConfirmed s = .next t ∧
        t.fw.upd = 0 ∧ t.ho = none ∧ t.fw.cur = s.fw.cur ∧ Completes q 0xA3 0 0 s t ∧
        (QRoom 0x22 s → Logs 0x22 0xB112 (divRoundN (s.now - s.fw.switchAt) nsPerUs) 0 0 0 s t) ∧
        Only [.hm, .hif, .ldg, .fw, .ho] s t) ∧
      (let late := (s.fw.upd = 2 ∨ s.fw.upd = 4) ∧ s.fw.holdAt + 5000000 ≤ s.now
       let slow := (s.fw.upd = 4 ∨ s.fw.upd = 5) ∧ s.fw.switchAt + 100000000 ≤ s.now
       (¬ late → ¬ slow → exec .fwRollback s = .next s) ∧
       (late ∨ slow → s.fw.next.slot < 2 → ∃ t, exec .fwRollback s = .next t ∧ t.fw.upd = 6 ∧ t.fw.cur = s.fw.old ∧
          t.fw.pref = s.fw.old.slot ∧ t.fw.slotState s.fw.next.slot = 4 ∧ t.trs.od = 0 ∧
          (late → QRoom 0x22 s → Logs 0x22 0xB113 1 s.fw.next.ver 0 0 s t) ∧
          (¬ late → QRoom 0x22 s → Logs 0x22 0xB113 2 s.fw.next.ver 0 0 s t) ∧
          Only [.frm, .rail, .loop, .hm, .hif, .ep, .ldg, .fw, .tly, .fc, .trs, .syn] s t)))

/-- R415, R416, R419, R422: a firmware core that misses its watchdog is counted and recorded; the Treasury core or the
Clerk then resets warm with cause 4, a Teller restarts, covered by its partner where that one is free, or fails at its
second hang within 1 s; it takes its clusters back at a frame boundary after 1,024 frames. Vault restarts, or enters
ERROR for good when its tests fail. A Teller whose clusters have all been STOPPED for 1 ms sleeps, and wakes. Completes:
FW_CORE_HANG, FW_CORE_BACK, ENTER_LP, EXIT_LP, FW_VAULT_RESTART, VAULT_READY, FW_SELFTEST_FAIL. -/
def Obligations.CoresWatchedAndAsleep : Prop :=
  ∀ (s : State) (k : Fin 34) (c : ClusterId) (r : Nat), s.live = true →
    let x := s.getFwCore k
    let out := s.fw.run = false ∨ x.st = 0 ∨ x.st = 2 ∨ x.st = 5 ∨ (k.val < 32 ∧ (s.getUnit (audIdx 1 k)).st ≠ 0)
    (out → exec (.fwCoreHang k) s = .next s) ∧
    (¬ out → 32 ≤ k.val → s.fw.upd ≠ 4 → s.fw.upd ≠ 5 → ∃ t, exec (.fwCoreHang k) s = .next t ∧ t.pwr.cause = 4 ∧
      t.fw.run = false ∧
      t.pwr.emuReady = false ∧ (t.getFwCore k).hangs = satInc 16 x.hangs ∧ (∀ j, (t.getCtx j).st = 0) ∧
      ∀ j ∈ s.clusters, (s.getClu j).st = 1 → (t.getClu j).st = 2) ∧
    (¬ out → s.fw.upd = 4 ∨ s.fw.upd = 5 → ∃ t, exec (.fwCoreHang k) s = .next t ∧ t.fw.upd = 6 ∧ t.fw.cur = s.fw.old ∧
      t.fw.pref = s.fw.old.slot ∧ (t.getFwCore k).hangs = satInc 16 x.hangs) ∧
    (¬ out → k.val < 32 → s.fw.upd ≠ 4 → s.fw.upd ≠ 5 → ∃ t, exec (.fwCoreHang k) s = .next t ∧
      (t.getFwCore k).hangs = satInc 16 x.hangs ∧ (t.getFwCore k).lastHang = some s.now ∧
      (t.getFwCore k).st = (if x.lastHang.any (fun a => decide (s.now < a + 1000000000)) then 5 else if s.partnerFree k then 4 else 3) ∧
      (∀ j < 6, (t.getLp k j).reform = true) ∧ t.fw.run = s.fw.run ∧
      (QRoom 0x22 s → Logs 0x22 0xB120 k (s.partner k) 0 0 s t)) ∧
    (let y := s.getFwCore c
     let back := s.fwUp = true ∧ s.frm.inFrame = false ∧ (y.st = 3 ∨ y.st = 4) ∧ (s.getUnit (audIdx 1 c)).st = 0 ∧
       y.backFrom + 1024 ≤ s.frm.count
     (¬ back → exec (.fwCoreBack c) s = .next s) ∧
     (back → ∃ t, exec (.fwCoreBack c) s = .next t ∧ (t.getFwCore c).st = 1 ∧ (∀ j < 6, (t.getLp c j).reform = true) ∧
       (∀ j, j ≠ c.val → t.getFwCore j = s.getFwCore j) ∧ (QRoom 0x22 s → Logs 0x22 0xB121 c 0 0 0 s t) ∧
       Only [.loop, .hm, .hif, .ldg, .fw] s t) ∧
     (let rest := s.fwUp = true ∧ y.st = 1 ∧ s.mayRest c = true
      (¬ rest → exec (.enterLp c) s = .next s) ∧
      (rest → ∃ t, exec (.enterLp c) s = .next t ∧ (t.getFwCore c).st = 2 ∧ (t.getFwCore c).sleepAt = s.now ∧
        (∀ j, j ≠ c.val → t.getFwCore j = s.getFwCore j) ∧ Tbl.get [] t.ldg.queues c = [] ∧
        Only [.hm, .hif, .ldg, .fw, .queues] s t)) ∧
     (y.st ≠ 2 → exec (.exitLp c) s = .next s) ∧
     (y.st = 2 → ∃ t, exec (.exitLp c) s = .next t ∧ (t.getFwCore c).st = 1 ∧
       (∀ j, j ≠ c.val → t.getFwCore j = s.getFwCore j) ∧
       (QRoom c s → Logs c 0xA813 (satU 32 (s.now - y.sleepAt)) (s.servedMask c) 0 0 s t) ∧
       Only [.clk, .loop, .hm, .hif, .ldg, .fw] s t)) ∧
    (s.fw.upd ≠ 1 → s.fw.vault.error = false → ∃ t, exec (.fwVaultRestart r) s = .next t ∧ t.fw.vault.ready = false ∧
      t.fw.vault.restarts = satInc 16 s.fw.vault.restarts ∧ t.fw.vault.nonce = none ∧ t.fw.vault.error = decide (r ≠ 0) ∧
      (r ≠ 0 → bitOf t.pwr.alarm 13 = true) ∧ (QRoom 0x22 s → Logs 0x22 0xB122 r 0 0 0 s t) ∧
      Only [.pwr, .hm, .hif, .ldg, .fw] s t) ∧
    (∀ q, s.fw.upd = 1 → s.fw.updHdr = some q → NoClose q.ctx s → ∃ t, exec (.fwVaultRestart r) s = .next t ∧ t.fw.upd = 0 ∧
      t.fw.vault.ready = false ∧ t.fw.cur = s.fw.cur ∧ Completes q 0xA3 0xB006 0 s t) ∧
    (s.fw.vault.error = true → exec .vaultReady s = .next s) ∧
    (s.fw.vault.error = false → exec .vaultReady s =
      .next (s.onFw fun f => { f with vault := { f.vault with ready := true } })) ∧
    (s.fw.vault.error = true → exec (.fwSelftestFail r) s = .next s) ∧
    (s.fw.vault.error = false → ∃ t, exec (.fwSelftestFail r) s = .next t ∧
      t.fw.vault.error = true ∧ t.fw.vault.ready = false ∧ t.fw.vault.nonce = none ∧ bitOf t.pwr.alarm 13 = true ∧
      (QRoom 0x22 s → Logs 0x22 0xB130 r 0 0 0 s t) ∧ Only [.pwr, .hm, .hif, .ldg, .fw] s t)

/-- R451, R452, R453, R454, R456: AUD_TEST takes a unit out and begins its test; AUD_REMOVE takes it out; both are
refused for a unit that does not exist, while another test runs or a unit of another kind or index is out, and by the
limits of Table 17.3; AUD_RETURN returns a unit that has passed. A test that ends is counted and recorded, keeps a
failed unit out, and completes its descriptor. R455, R464: automatic Audit tests the next unit of the enabled kinds
once in a period and skips one that may not be tested; a write of `AUD_SCHED` out of range leaves AUD_RANGE, and
otherwise takes force; `CLR` clears the counts. Completes: AUD_TEST, AUD_REMOVE, AUD_RETURN, AUD_TEST_DONE,
AUD_SCHEDULE, AUD_SCHED_WRITE, AUD_CTRL_CLR. -/
def Obligations.UnitsTestedAndReturned : Prop :=
  (∀ (s : State) (h : DescHdr) (kind i : Nat) (ret force : Bool) (fail : Option (Nat × Nat)),
     let u := audIdx kind i
     let st := s.audState kind i
     let out := s.aud.test.isSome = true ∨ s.kindOut kind i = true
     let no := fun (c : Instr) (op r : Nat) => ∃ t, exec c s = .next t ∧ Completes h op r 0 s t ∧ Only [.hm, .hif] s t
     let may := (kind = 0 → ¬ (s.tly.cube.getD i 3 = 0 ∧ 1 ∉ s.tly.cube ∧ force = false)) ∧
       (kind = 1 → s.partnerFree i = true) ∧ (kind = 2 ∨ kind = 4 → s.audCapacity kind i = true) ∧
       (kind = 4 → (s.getPh i).usable = true) ∧ (kind = 5 → (s.getLnk i).st = 2)
     let gone := fun (t : State) => (kind = 0 → i < s.tly.cube.length → t.tly.cube.getD i 3 = 2) ∧
       (kind = 1 → (t.getFwCore i).st = 4 ∧ ∀ j < 6, (t.getLp i j).reform = true) ∧ (kind = 3 → (t.getSite i).excl = true) ∧
       (∀ p ∈ s.audTaken kind i, (t.getPh p).st = 5 ∧ (t.getPh p).pen = false)
     let limits := fun (c : Instr) (op : Nat) => (kind = 0 → ¬ may → no c op 0xC005) ∧ (kind = 1 → ¬ may → no c op 0xC006) ∧
       (kind = 5 → ¬ may → no c op 0xC003) ∧ (kind = 4 → (s.getPh i).usable = false → no c op 0xC003) ∧
       (kind = 2 ∨ (kind = 4 ∧ (s.getPh i).usable = true) → ¬ may → no c op 0xC004)
     let room := Tbl.get [] s.ldg.queues 0x21 = []
     (Runs h descAudTest s →
       let c := Instr.audTest h kind i ret force
       (st = 6 → no c 0xB0 0xC001) ∧ (st ≠ 6 → out → no c 0xB0 0xC002) ∧
       (st = 0 → ¬ out →
         limits c 0xB0) ∧
       (st ≠ 6 → ¬ out → st ≠ 0 ∨ may → ∃ t, exec c s = .next t ∧
         t.aud.test = some { kind := kind, idx := i, auto := false, ret := ret, began := s.now, wasFault := decide (st = 5),
                             hdr := some h } ∧
         (t.getUnit u).st = 2 ∧ (∀ j, j ≠ u → t.getUnit j = s.getUnit j) ∧ (t.getCtx h.ctx).busy = true ∧
         (st = 0 → neverOut kind i = false → gone t ∧ (room → Logs 0x21 0xC010 kind i 0 0 s t)) ∧
         Only [.pwr, .clk, .sns, .rail, .loop, .hm, .hif, .ldg, .fw, .tly, .trs, .clr, .aud] s t)) ∧
     (Runs h descAudRemove s →
       let c := Instr.audRemove h kind i ret force
       (ret = true → no c 0xB1 0x9009) ∧
       (ret = false → (st = 6 → no c 0xB1 0xC001) ∧ (st ≠ 6 → out → no c 0xB1 0xC002) ∧
         (st ≠ 6 → ¬ out → st ≠ 0 ∨ neverOut kind i = true → no c 0xB1 0xC003) ∧
         (st = 0 → ¬ out → neverOut kind i = false → limits c 0xB1) ∧
         (st = 0 → ¬ out → neverOut kind i = false → may → ∃ t, exec c s = .next t ∧ Completes h 0xB1 0 0 s t ∧
           (t.getUnit u).st = 1 ∧ (∀ j, j ≠ u → t.getUnit j = s.getUnit j) ∧ gone t ∧
           (room → Logs 0x21 0xC010 kind i 0 0 s t) ∧
           Only [.pwr, .clk, .sns, .rail, .loop, .hm, .hif, .ldg, .fw, .tly, .trs, .clr, .aud] s t))) ∧
     (Runs h descAudReturn s →
       let c := Instr.audReturn h kind i
       (st = 6 → no c 0xB2 0xC001) ∧ (st = 0 ∨ st = 2 → no c 0xB2 0xC003) ∧ (st = 1 ∨ st = 4 ∨ st = 5 → no c 0xB2 0xC007) ∧
       (st = 3 → ∃ t, exec c s = .next t ∧ Completes h 0xB2 0 0 s t ∧ (t.getUnit u).st = 0 ∧
         (∀ j, j ≠ u → t.getUnit j = s.getUnit j) ∧ (kind = 0 → i < s.tly.cube.length → t.tly.cube.getD i 3 = 1) ∧
         (kind = 1 → (t.getFwCore i).st = 1) ∧ (kind = 3 → (t.getSite i).excl = false) ∧
         (kind = 4 → (s.getPh i).st = 5 → (t.getPh i).st = 4) ∧ (room → Logs 0x21 0xC013 kind i 0 0 s t) ∧
         Only [.pwr, .clk, .sns, .rail, .loop, .hm, .hif, .ldg, .fw, .tly, .trs, .aud] s t)) ∧
     (s.live = true →
       (s.aud.test = none → exec (.audTestDone fail) s = .next s) ∧
       (∀ y, s.aud.test = some y → (∀ q, y.hdr = some q → NoClose q.ctx s) →
         let e := audIdx y.kind y.idx
         let back := y.ret = true ∨ neverOut y.kind y.idx = true
         (∃ t, exec (.audTestDone none) s = .next t ∧ t.aud.test = none ∧ (t.getUnit e).st = (if back then 0 else 3) ∧
           (t.getUnit e).last = 0xC011 ∧ t.aud.lastCode = 0xC011 ∧ t.aud.pass = satInc 16 s.aud.pass ∧ t.aud.fail = s.aud.fail ∧
           (∀ j, j ≠ e → t.getUnit j = s.getUnit j) ∧ (∀ q, y.hdr = some q → Completes q 0xB0 0 0 s t) ∧
           (QRoom 0x21 s → Logs 0x21 0xC011 y.kind y.idx (s.now - y.began) 0 s t) ∧
           Only [.pwr, .clk, .sns, .rail, .loop, .hm, .hif, .ldg, .fw, .tly, .trs, .aud] s t) ∧
         (∀ c v, ∃ t, exec (.audTestDone (some (c, v))) s = .next t ∧ t.aud.test = none ∧ (t.getUnit e).st = 4 ∧
           (t.getUnit e).last = 0xC012 ∧ t.aud.lastCode = 0xC012 ∧ t.aud.fail = satInc 16 s.aud.fail ∧
           t.aud.pass = s.aud.pass ∧ bitOf t.pwr.alarm 17 = true ∧ (∀ j, j ≠ e → t.getUnit j = s.getUnit j) ∧
           (∀ q, y.hdr = some q → Completes q 0xB0 0 0xC012 s t) ∧
           (QRoom 0x21 s → Logs 0x21 0xC012 y.kind y.idx c v s t) ∧ Only [.pwr, .hm, .hif, .ldg, .aud] s t)))) ∧
  (∀ (s : State) (v : Word),
     let a := s.aud
     let due := s.fwUp = true ∧ a.kinds ≠ 0 ∧ a.schedTime + a.period * 1000000000 ≤ s.now
     let bad := bits v.toNat 4 2 ≠ 0 ∨ bits v.toNat 16 16 = 0
     (s.live = true →
       (¬ due → exec .audSchedule s = .next s) ∧
       (due → s.schedNext = none → exec .audSchedule s = .next (s.onAud fun b => { b with schedTime := s.now })) ∧
       (∀ u, due → s.schedNext = some u →
         (audCheck (u / 1024) (u % 1024) false false s ≠ 0 → exec .audSchedule s =
           .next (s.onAud fun b => { b with schedTime := s.now, schedAt := some u })) ∧
         (audCheck (u / 1024) (u % 1024) false false s = 0 → ∃ t, exec .audSchedule s = .next t ∧
           t.aud.schedTime = s.now ∧ t.aud.schedAt = some u ∧ (t.getUnit u).st = 2 ∧ (t.getUnit u).auto = true ∧
           (t.aud.test.map fun y => (y.kind, y.idx, y.auto, y.ret, y.began, y.hdr)) =
             some (u / 1024, u % 1024, true, true, s.now, none) ∧
           (∀ j, j ≠ u → t.getUnit j = s.getUnit j) ∧
           Only [.pwr, .clk, .sns, .rail, .loop, .hm, .hif, .ldg, .fw, .tly, .trs, .clr, .aud] s t))) ∧
     (Emulates s →
       (bad → exec (.audSchedWrite v) s = .next (hsAnswer 0 0 (s.onAud fun b => { b with res := 0xC008 }))) ∧
       (¬ bad → exec (.audSchedWrite v) s = .next (hsAnswer 0 0 (s.onAud fun b =>
         { b with kinds := bits v.toNat 0 4, period := bits v.toNat 16 16, schedTime := s.now, res := 0 }))) ∧
       exec .audCtrlClr s = .next (hsAnswer 0 0 (s.onAud fun b => { b with pass := 0, fail := 0, res := 0 }))))

/-- R67, R459, R460, R461, R462, R463: the TAP and the wrapper work while powered. An instruction that takes the pads
is in force while every rail is down and is otherwise counted and recorded as blocked; one of the wrapper's that takes
the block over holds it until a cold reset, with every `PEN` low and every domain clock stopped, and otherwise leaves
WS_BYPASS; the memory test runs, ends, and its result can be read. (What the controller then holds is undefined by
R463; of that case the statement says only what lies outside it: fuses and serial NOR.) Completes: EXTEST, CLAMP, HIGHZ,
IDCODE, SAMPLE_PRELOAD, BYPASS, WS_BYPASS, WS_IDCODE, MBIST_READ, MBIST_DONE, WS_SAFE, WS_EXTEST, WS_INTEST_SCAN,
MBIST_RUN. -/
def Obligations.TestPortsWork : Prop :=
  ∀ (s : State) (f : Fin 256),
    let on := s.pwr.vaon = true ∧ s.pwr.vio = true
    let pads := [(Instr.extest, 0), (.clamp, 4), (.highz, 5)]
    let take := [(Instr.wsSafe, 4), (.wsExtest, 5), (.wsIntestScan, 6), (.mbistRun, 8)]
    let rest := [Instr.idcode, .samplePreload, .bypass, .wsBypass, .wsIdcode, .mbistRead, .mbistDone f]
    let id := 4 * 2 ^ 28 + 0x0940 * 2 ^ 12 + Config.jep106 % 2 ^ 11 * 2 + 1
    let word := s.aud.mbistFail % 2 ^ 8 + b2n s.aud.mbistDone * 2 ^ 16 + b2n s.aud.mbistBusy * 2 ^ 17
    (¬ on → ∀ c ∈ pads.map Prod.fst ++ take.map Prod.fst ++ rest, exec c s = .next s) ∧
    (on →
      exec .idcode s = .next (s.onAud fun a => { a with tapIr := 1, padHold := false, tdr := id }) ∧
      exec .samplePreload s = .next (s.onAud fun a => { a with tapIr := 2, padHold := false }) ∧
      exec .bypass s = .next (s.onAud fun a => { a with tapIr := 15, padHold := false, tdr := 0 }) ∧
      exec .wsBypass s = .next (s.onAud fun a => { a with wir := 0, wdr := 0 }) ∧
      exec .wsIdcode s = .next (s.onAud fun a => { a with wir := 1, wdr := id }) ∧
      exec .mbistRead s = .next (s.onAud fun a => { a with wir := 2, wdr := word }) ∧
      (s.aud.mbistBusy = true → exec (.mbistDone f) s = .next (s.onAud fun a =>
        { a with mbistBusy := false, mbistDone := true, mbistFail := f })) ∧
      (s.aud.mbistBusy = false → exec (.mbistDone f) s = .next s) ∧
      (∀ c ∈ pads,
        (s.railsDown = true → exec c.1 s = .next (s.onAud fun a =>
          { a with tapIr := c.2, padHold := true, tdr := if c.2 = 0 then a.tdr else 0 })) ∧
        (s.railsDown = false → ∃ t, exec c.1 s = .next t ∧ t.aud.tapIr = c.2 ∧ t.aud.padHold = false ∧
          t.aud.tdr = (if c.2 = 0 then s.aud.tdr else 0) ∧
          t.aud.blocked = satInc 16 s.aud.blocked ∧ (QRoom 0x32 s → Logs 0x32 0xC030 c.2 0 0 0 s t) ∧
          Only [.hm, .hif, .ldg, .aud] s t)) ∧
      (∀ c ∈ take,
        (s.railsDown = true → ∃ t, exec c.1 s = .next t ∧ t.live = false ∧ t.pwr.testHold = true ∧ t.aud.wir = c.2 ∧
          (∀ p < 128, (t.getPh p).pen = false ∧ (t.getPh p).pwm = false) ∧ (∀ d ∈ s.doms, (t.getDom d).stopped = true) ∧
          (c.1 = .mbistRun → t.aud.mbistBusy = true ∧ t.aud.mbistDone = false ∧ t.aud.mbistFail = 0) ∧
          t.frec.slots = s.frec.slots ∧ t.fw.arr = s.fw.arr ∧ t.fw.img = s.fw.img ∧ t.fw.copy = s.fw.copy ∧
          t.pending = s.pending) ∧
        (s.railsDown = false → ∃ t, exec c.1 s = .next t ∧ t.aud.wir = 0 ∧ t.aud.wdr = 0 ∧ t.pwr.testHold = s.pwr.testHold ∧
          (QRoom 0x32 s → Logs 0x32 0xC031 c.2 0 0 0 s t) ∧ Only [.hm, .hif, .ldg, .aud] s t)))

/-- R472: CAUSE and WARM_CNT name the most recent reset. A cold reset, which begins once the supplies are good, leaves a
cause of 0 or 1 and clears the count; any other step but a power-on reset's beginning either leaves both as they are or is a warm reset, which leaves a
cause of 2 to 5 and adds 1 to the count, up to 0xFFFF; a pulse too short for a reset, a live update and a rollback
leave both. `ResetCauseOk` rules out states that no run reaches, and every step keeps it. -/
def Obligations.ResetCauseNamesTheLastReset : Prop :=
  ∀ s t : State, ResetCauseOk s → step s = .next t →
    let same := t.pwr.cause = s.pwr.cause ∧ t.pwr.warmCnt = s.pwr.warmCnt
    let front := s.pending.head?
    ResetCauseOk t ∧
    (∀ v r x n p, front = some (.coldReset v r x n p) → t.pwr.cause ≤ 1 ∧ (suppliesOk n s = true → t.pwr.warmCnt = 0)) ∧
    (∀ ns, front = some (.porstNAssert ns) → same ∨ (t.pwr.cause = 1 ∧ t.pwr.porstLow = true)) ∧
    (∀ v i, front = some (.internalPowerOnReset v i) →
      if vaonOk s.pwr.vaon v && vioOk s.pwr.vio i then same else t.pwr.cause = 0) ∧
    ((∀ v r x n p, front ≠ some (.coldReset v r x n p)) → (∀ ns, front ≠ some (.porstNAssert ns)) →
      (∀ v i, front ≠ some (.internalPowerOnReset v i)) →
      same ∨ (2 ≤ t.pwr.cause ∧ t.pwr.cause ≤ 5 ∧ t.pwr.warmCnt = satInc 16 s.pwr.warmCnt)) ∧
    (∀ ns, ns < 100 → front = some (.warmReset ns) ∨ front = some (.porstNAssert ns) → same) ∧
    ((∃ h, front = some (.fwLiveUpdate h)) ∨ front = some .luPrepareDone ∨ (∃ b, front = some (.luHandoffDone b)) ∨
      front = some .fwResumed ∨ front = some .fwSelfConfirmed ∨ front = some .fwRollback → same)

/-- R313: a write of `TRS_POLICY` with any field outside its range is discarded with TRS_PARAM_RANGE and leaves every
field unchanged. -/
def Obligations.PolicyOutOfRangeDiscarded : Prop :=
  ∀ (s : State) (a v : Word), Emulates s → wordAddr a = 0x8028 →
    let floorMax := bits v.toNat 0 8
    let preMax := bits v.toNat 8 8
    let lguard := bits v.toNat 16 8
    let credMax := bits v.toNat 24 8
    floorMax < 50 ∨ 100 < floorMax ∨ 120 < preMax ∨ lguard < 20 ∨ 100 < lguard ∨ credMax = 0 →
      ∃ t, exec (.registerWrite a ⟨v, 15⟩) s = .next t ∧ t.trs = { s.trs with res := 0x6005 } ∧ Only [.hs, .trs] s t
end

