-- ==== Sys2Proof/Laws/Tbl.lean ====
section
/-!
SUPPORT. Laws of the sparse tables: what a read gives after a write, and that a write keeps the canonical form.
-/
namespace Sys2Proof.Machine

variable {α : Type} {d : α}

theorem Tbl.get_insert_self (t : Tbl α) (k : Nat) (v : α) : Tbl.get d (Tbl.insert t k v) k = v := by
  induction t with
  | nil => simp [Tbl.insert, Tbl.get]
  | cons e t ih =>
    obtain ⟨j, w⟩ := e
    unfold Tbl.insert
    split
    · simp [Tbl.get]
    · split
      · simp [Tbl.get]
      · next h => simp [Tbl.get, Ne.symm h, ih]

theorem Tbl.get_insert_ne (t : Tbl α) {k j : Nat} (v : α) (h : j ≠ k) :
    Tbl.get d (Tbl.insert t k v) j = Tbl.get d t j := by
  induction t with
  | nil => simp [Tbl.insert, Tbl.get, Ne.symm h]
  | cons e t ih =>
    obtain ⟨i, w⟩ := e
    unfold Tbl.insert
    split
    · simp [Tbl.get, Ne.symm h]
    · split
      · next hk => subst hk; simp [Tbl.get, Ne.symm h]
      · simp only [Tbl.get, ih]

theorem Tbl.get_erase_self (t : Tbl α) (k : Nat) : Tbl.get d (Tbl.erase t k) k = d := by
  induction t with
  | nil => rfl
  | cons e t ih =>
    obtain ⟨i, w⟩ := e
    unfold Tbl.erase
    split
    · exact ih
    · next h => simp only [Tbl.get, if_neg h, ih]

theorem Tbl.get_erase_ne (t : Tbl α) {k j : Nat} (h : j ≠ k) : Tbl.get d (Tbl.erase t k) j = Tbl.get d t j := by
  induction t with
  | nil => rfl
  | cons e t ih =>
    obtain ⟨i, w⟩ := e
    unfold Tbl.erase
    split
    · next hk => subst hk; simp only [Tbl.get, if_neg (Ne.symm h), ih]
    · simp only [Tbl.get, ih]

/-- What is read at an index is a listed entry or the default. -/
theorem Tbl.get_mem (t : Tbl α) (k : Nat) : Tbl.get d t k = d ∨ (k, Tbl.get d t k) ∈ t := by
  induction t with
  | nil => exact .inl rfl
  | cons e t ih =>
    obtain ⟨i, w⟩ := e
    unfold Tbl.get
    split
    · next h => exact .inr (by rw [h]; exact .head _)
    · exact ih.imp_right (.tail _)

variable [DecidableEq α]

theorem Tbl.wfFrom_mono {t : Tbl α} {lo : Nat} {o : Option Nat} (h : Tbl.wfFrom d t (some lo) = true)
    (ho : ∀ x, o = some x → x ≤ lo) : Tbl.wfFrom d t o = true := by
  cases t with
  | nil => rfl
  | cons e t =>
    obtain ⟨i, w⟩ := e
    simp only [Tbl.wfFrom, Bool.and_eq_true, decide_eq_true_eq] at h
    cases o with
    | none => simp only [Tbl.wfFrom, Bool.and_eq_true]; exact ⟨by simpa using h.1.2, h.2⟩
    | some x =>
      have := ho x rfl
      simp only [Tbl.wfFrom, Bool.and_eq_true, decide_eq_true_eq]
      exact ⟨⟨by omega, by simpa using h.1.2⟩, h.2⟩

theorem Tbl.wfFrom_insert {t : Tbl α} {o : Option Nat} {k : Nat} {v : α} (hv : v ≠ d) (h : Tbl.wfFrom d t o = true)
    (ho : ∀ x, o = some x → x < k) : Tbl.wfFrom d (Tbl.insert t k v) o = true := by
  induction t generalizing o with
  | nil => cases o <;> simp_all [Tbl.insert, Tbl.wfFrom]
  | cons e t ih =>
    obtain ⟨i, w⟩ := e
    unfold Tbl.insert
    split
    · next hk => cases o <;> simp_all [Tbl.wfFrom]
    · split
      · next hk => subst hk; cases o <;> simp_all [Tbl.wfFrom]
      · next h1 h2 =>
        have hi : ∀ x, some i = some x → x < k := by intro x hx; cases hx; omega
        cases o <;> simp only [Tbl.wfFrom, Bool.and_eq_true] at h ⊢ <;> exact ⟨h.1, ih h.2 hi⟩

theorem Tbl.wfFrom_erase {t : Tbl α} {o : Option Nat} (k : Nat) (h : Tbl.wfFrom d t o = true) :
    Tbl.wfFrom d (Tbl.erase t k) o = true := by
  induction t generalizing o with
  | nil => rfl
  | cons e t ih =>
    obtain ⟨i, w⟩ := e
    unfold Tbl.erase
    split
    · cases o with
      | none =>
        simp only [Tbl.wfFrom, Bool.and_eq_true] at h
        exact Tbl.wfFrom_mono (ih h.2) (by simp)
      | some x =>
        simp only [Tbl.wfFrom, Bool.and_eq_true, decide_eq_true_eq] at h
        exact Tbl.wfFrom_mono (ih h.2) (by intro y hy; cases hy; omega)
    · cases o <;> simp only [Tbl.wfFrom, Bool.and_eq_true] at h ⊢ <;> exact ⟨h.1, ih h.2⟩

/-- A write keeps the canonical form of a table. -/
theorem Tbl.wf_set {t : Tbl α} (h : Tbl.wf d t = true) (k : Nat) (v : α) : Tbl.wf d (Tbl.set d t k v) = true := by
  unfold Tbl.set Tbl.wf
  split
  · exact Tbl.wfFrom_erase k h
  · next hv => exact Tbl.wfFrom_insert hv h (by simp)

theorem Tbl.wf_upd {t : Tbl α} (h : Tbl.wf d t = true) (k : Nat) (f : α → α) : Tbl.wf d (Tbl.upd d t k f) = true :=
  Tbl.wf_set h k _

/-- The entry just written is what is read. -/
@[simp] theorem Tbl.get_set_self (t : Tbl α) (k : Nat) (v : α) : Tbl.get d (Tbl.set d t k v) k = v := by
  unfold Tbl.set
  split
  · next hv => rw [hv]; exact Tbl.get_erase_self t k
  · exact Tbl.get_insert_self t k v

/-- Other entries read as before. -/
theorem Tbl.get_set_ne (t : Tbl α) {k j : Nat} (v : α) (h : j ≠ k) : Tbl.get d (Tbl.set d t k v) j = Tbl.get d t j := by
  unfold Tbl.set
  split
  · exact Tbl.get_erase_ne t h
  · exact Tbl.get_insert_ne t v h

@[simp] theorem Tbl.get_upd_self (t : Tbl α) (k : Nat) (f : α → α) :
    Tbl.get d (Tbl.upd d t k f) k = f (Tbl.get d t k) := Tbl.get_set_self t k _

theorem Tbl.get_upd_ne (t : Tbl α) {k j : Nat} (f : α → α) (h : j ≠ k) :
    Tbl.get d (Tbl.upd d t k f) j = Tbl.get d t j := Tbl.get_set_ne t _ h

/-- An entry of the table after a write was there before, or is the one written. -/
theorem Tbl.mem_set {t : Tbl α} {k : Nat} {v : α} {e : Nat × α} (h : e ∈ Tbl.set d t k v) : e ∈ t ∨ e = (k, v) := by
  have he : ∀ t : Tbl α, e ∈ Tbl.erase t k → e ∈ t := by
    intro t
    induction t with
    | nil => exact id
    | cons x t ih =>
      unfold Tbl.erase
      split
      · exact fun h => .tail _ (ih h)
      · intro h
        rcases List.mem_cons.mp h with h | h
        · exact h ▸ .head _
        · exact .tail _ (ih h)
  have hi : ∀ t : Tbl α, e ∈ Tbl.insert t k v → e ∈ t ∨ e = (k, v) := by
    intro t
    induction t with
    | nil => simp [Tbl.insert]
    | cons x t ih =>
      unfold Tbl.insert
      split
      · simp only [List.mem_cons]; tauto
      · split
        · simp only [List.mem_cons]; tauto
        · simp only [List.mem_cons]; tauto
  unfold Tbl.set at h
  split at h
  · exact .inl (he t h)
  · exact hi t h

end Sys2Proof.Machine
end

