-- ==== Sys2Proof/Laws/Keeps.lean ====
section
/-!
SUPPORT. How `Only` composes; `Keeps` adds that Ledger stays as it should be; what each plain update keeps.
-/
namespace Sys2Proof.Machine

variable {ps : List Area} {r s t : State}

theorem Same.trans {p : Area} (h : Same r s p) (g : Same s t p) : Same r t p := by
  cases p
  case queues => exact fun k => (h k).trans (g k)
  all_goals exact Eq.trans g h

theorem Only.refl (ps : List Area) (s : State) : Only ps s s := ⟨fun p _ => by cases p <;> first | rfl | exact fun _ => List.prefix_rfl⟩

theorem Only.trans (h : Only ps r s) (g : Only ps s t) : Only ps r t := ⟨fun p hp => (h.same p hp).trans (g.same p hp)⟩

theorem Only.mono {qs : List Area} (h : Only qs r s) (hq : ∀ p ∈ qs, p ∈ ps) : Only ps r s :=
  ⟨fun p hp => h.same p fun hm => hp (hq p hm)⟩

/-- Every part but those listed is unchanged, and a Ledger that was as it should be still is. -/
structure Keeps (ps : List Area) (s t : State) : Prop where
  only : Only ps s t
  ok : s.ldg.Ok → t.ldg.Ok

theorem Keeps.of_only (h : Only ps s t) (hl : Area.ldg ∉ ps) : Keeps ps s t :=
  ⟨h, fun k => by have e : t.ldg = s.ldg := h.same .ldg hl; exact e ▸ k⟩

theorem Keeps.refl (ps : List Area) (s : State) : Keeps ps s s := ⟨.refl .., id⟩

theorem Keeps.trans (h : Keeps ps r s) (g : Keeps ps s t) : Keeps ps r t := ⟨h.only.trans g.only, g.ok ∘ h.ok⟩

theorem Keeps.mono {qs : List Area} (h : Keeps qs r s) (hq : ∀ p ∈ qs, p ∈ ps) : Keeps ps r s := ⟨h.only.mono hq, h.ok⟩

/-- Compose with an operation that changes no more than `qs`. -/
theorem Keeps.step {qs : List Area} (g : Keeps qs s t) (hq : ∀ p ∈ qs, p ∈ ps) (h : Keeps ps r s) : Keeps ps r t :=
  h.trans (g.mono hq)

theorem Keeps.ite {c : Prop} [Decidable c] (h : Keeps ps r s) (g : Keeps ps r t) : Keeps ps r (if c then s else t) := by
  split <;> assumption

theorem foldl_keeps {α : Type} (l : List α) {f : State → α → State}
    (hf : ∀ u a, Keeps ps r u → Keeps ps r (f u a)) (h : Keeps ps r s) : Keeps ps r (l.foldl f s) := by
  induction l generalizing s with
  | nil => exact h
  | cons a l ih => exact ih (hf s a h)

theorem foldlFst_keeps {α β : Type} (l : List α) {f : State × β → α → State × β} {x : State × β}
    (hf : ∀ u a, Keeps ps r u.1 → Keeps ps r (f u a).1) (h : Keeps ps r x.1) : Keeps ps r (l.foldl f x).1 := by
  induction l generalizing x with
  | nil => exact h
  | cons a l ih => exact ih (hf x a h)

theorem foldlSnd_keeps {α β : Type} (l : List α) {f : β × State → α → β × State} {x : β × State}
    (hf : ∀ u a, Keeps ps r u.2 → Keeps ps r (f u a).2) (h : Keeps ps r x.2) : Keeps ps r (l.foldl f x).2 := by
  induction l generalizing x with
  | nil => exact h
  | cons a l ih => exact ih (hf x a h)

theorem forList_keeps {α : Type} (l : List α) {f : α → State → State}
    (hf : ∀ a u, Keeps ps r u → Keeps ps r (f a u)) (h : Keeps ps r s) : Keeps ps r (forList l f s) := by
  induction l generalizing s with
  | nil => exact h
  | cons a l ih => exact ih (hf a s h)

/-- What every turn of a loop leaves alone, the loop leaves alone. -/
theorem forList_eq {α β : Type} (g : State → β) (l : List α) {f : α → State → State} (hf : ∀ a u, g (f a u) = g u)
    (s : State) : g (forList l f s) = g s := by
  induction l generalizing s with
  | nil => rfl
  | cons a l ih => exact (ih (f a s)).trans (hf a s)

/-- What every turn of a loop preserves and the turn of one element establishes holds after the loop. -/
theorem forList_est {α : Type} {P : State → Prop} {l : List α} {f : α → State → State} {d : α} (hd : d ∈ l)
    (hp : ∀ a u, P u → P (f a u)) (he : ∀ u, P (f d u)) (s : State) : P (forList l f s) := by
  have h : ∀ (l : List α) u, P u → P (forList l f u) := by
    intro l; induction l with
    | nil => exact fun _ h => h
    | cons a l ih => exact fun u h => ih _ (hp a u h)
  induction l generalizing s with
  | nil => cases hd
  | cons a l ih =>
    cases hd with
    | head => exact h l _ (he s)
    | tail _ hm => exact ih hm (f a s)

/-- What every turn of a loop preserves the loop preserves. -/
theorem forList_ind {α : Type} {P : State → Prop} {l : List α} {f : α → State → State}
    (hp : ∀ a ∈ l, ∀ u, P u → P (f a u)) {s : State} (h : P s) : P (forList l f s) := by
  induction l generalizing s with
  | nil => exact h
  | cons a l ih => exact ih (fun b hb => hp b (List.mem_cons_of_mem _ hb)) (hp a List.mem_cons_self s h)

theorem forIdx_keeps (n : Nat) (p : State → Nat → Bool) {f : Nat → State → State}
    (hf : ∀ a u, Keeps ps r u → Keeps ps r (f a u)) (h : Keeps ps r s) : Keeps ps r (forIdx n p f s) :=
  forList_keeps _ hf h

theorem when_keeps (p : Bool) {f : State → State} (hf : ∀ u, Keeps ps r u → Keeps ps r (f u)) (h : Keeps ps r s) :
    Keeps ps r (when p f s) := by
  unfold when; split
  · exact hf s h
  · exact h

theorem State.onPwr_keeps (f : Power → Power) (s : State) : Keeps [.pwr] s (s.onPwr f) :=
  .of_only ⟨fun p hp => by cases p <;> first | rfl | exact fun _ => List.prefix_rfl | exact absurd (by decide) hp⟩ (by decide)

theorem State.onCfg_keeps (f : Cfg → Cfg) (s : State) : Keeps [.cfg] s (s.onCfg f) :=
  .of_only ⟨fun p hp => by cases p <;> first | rfl | exact fun _ => List.prefix_rfl | exact absurd (by decide) hp⟩ (by decide)

theorem State.onFuse_keeps (f : Fuses → Fuses) (s : State) : Keeps [.fuse] s (s.onFuse f) :=
  .of_only ⟨fun p hp => by cases p <;> first | rfl | exact fun _ => List.prefix_rfl | exact absurd (by decide) hp⟩ (by decide)

theorem State.onTb_keeps (f : TimeBase → TimeBase) (s : State) : Keeps [.tb] s (s.onTb f) :=
  .of_only ⟨fun p hp => by cases p <;> first | rfl | exact fun _ => List.prefix_rfl | exact absurd (by decide) hp⟩ (by decide)

theorem State.onFrm_keeps (f : Frames → Frames) (s : State) : Keeps [.frm] s (s.onFrm f) :=
  .of_only ⟨fun p hp => by cases p <;> first | rfl | exact fun _ => List.prefix_rfl | exact absurd (by decide) hp⟩ (by decide)

theorem State.onClk_keeps (f : Clocks → Clocks) (s : State) : Keeps [.clk] s (s.onClk f) :=
  .of_only ⟨fun p hp => by cases p <;> first | rfl | exact fun _ => List.prefix_rfl | exact absurd (by decide) hp⟩ (by decide)

theorem State.onSns_keeps (f : Sensing → Sensing) (s : State) : Keeps [.sns] s (s.onSns f) :=
  .of_only ⟨fun p hp => by cases p <;> first | rfl | exact fun _ => List.prefix_rfl | exact absurd (by decide) hp⟩ (by decide)

theorem State.onRail_keeps (f : Rails → Rails) (s : State) : Keeps [.rail] s (s.onRail f) :=
  .of_only ⟨fun p hp => by cases p <;> first | rfl | exact fun _ => List.prefix_rfl | exact absurd (by decide) hp⟩ (by decide)

theorem State.onFrec_keeps (f : FRec → FRec) (s : State) : Keeps [.frec] s (s.onFrec f) :=
  .of_only ⟨fun p hp => by cases p <;> first | rfl | exact fun _ => List.prefix_rfl | exact absurd (by decide) hp⟩ (by decide)

theorem State.onLoop_keeps (f : Loops → Loops) (s : State) : Keeps [.loop] s (s.onLoop f) :=
  .of_only ⟨fun p hp => by cases p <;> first | rfl | exact fun _ => List.prefix_rfl | exact absurd (by decide) hp⟩ (by decide)

theorem State.onHm_keeps (f : HmPort → HmPort) (s : State) : Keeps [.hm] s (s.onHm f) :=
  .of_only ⟨fun p hp => by cases p <;> first | rfl | exact fun _ => List.prefix_rfl | exact absurd (by decide) hp⟩ (by decide)

theorem State.onHs_keeps (f : HsPort → HsPort) (s : State) : Keeps [.hs] s (s.onHs f) :=
  .of_only ⟨fun p hp => by cases p <;> first | rfl | exact fun _ => List.prefix_rfl | exact absurd (by decide) hp⟩ (by decide)

theorem State.onHif_keeps (f : Hif → Hif) (s : State) : Keeps [.hif] s (s.onHif f) :=
  .of_only ⟨fun p hp => by cases p <;> first | rfl | exact fun _ => List.prefix_rfl | exact absurd (by decide) hp⟩ (by decide)

theorem State.onDma_keeps (f : Dma → Dma) (s : State) : Keeps [.dma] s (s.onDma f) :=
  .of_only ⟨fun p hp => by cases p <;> first | rfl | exact fun _ => List.prefix_rfl | exact absurd (by decide) hp⟩ (by decide)

/-- A change of Ledger alone that leaves it as it should be and takes no record out of a queue. -/
theorem State.onLdg_keeps {f : Ledger → Ledger} {s : State} (hf : s.ldg.Ok → (f s.ldg).Ok)
    (hq : ∀ k, Tbl.get [] s.ldg.queues k <+: Tbl.get [] (f s.ldg).queues k) : Keeps [.ldg] s (s.onLdg f) :=
  ⟨⟨fun p hp => by cases p <;> first | rfl | exact hq | exact absurd (by decide) hp⟩, hf⟩

/-- A change of Ledger alone that leaves it as it should be. -/
theorem State.onLdg_keepsQ {f : Ledger → Ledger} {s : State} (hf : s.ldg.Ok → (f s.ldg).Ok) :
    Keeps [.ldg, .queues] s (s.onLdg f) :=
  ⟨⟨fun p hp => by cases p <;> first | rfl | exact absurd (by decide) hp⟩, hf⟩

theorem State.onFw_keeps (f : Fw → Fw) (s : State) : Keeps [.fw] s (s.onFw f) :=
  .of_only ⟨fun p hp => by cases p <;> first | rfl | exact fun _ => List.prefix_rfl | exact absurd (by decide) hp⟩ (by decide)

theorem State.onTly_keeps (f : Tally → Tally) (s : State) : Keeps [.tly] s (s.onTly f) :=
  .of_only ⟨fun p hp => by cases p <;> first | rfl | exact fun _ => List.prefix_rfl | exact absurd (by decide) hp⟩ (by decide)

theorem State.onFc_keeps (f : Forecast → Forecast) (s : State) : Keeps [.fc] s (s.onFc f) :=
  .of_only ⟨fun p hp => by cases p <;> first | rfl | exact fun _ => List.prefix_rfl | exact absurd (by decide) hp⟩ (by decide)

theorem State.onTrs_keeps (f : Treasury → Treasury) (s : State) : Keeps [.trs] s (s.onTrs f) :=
  .of_only ⟨fun p hp => by cases p <;> first | rfl | exact fun _ => List.prefix_rfl | exact absurd (by decide) hp⟩ (by decide)

theorem State.onSyn_keeps (f : Sync → Sync) (s : State) : Keeps [.syn] s (s.onSyn f) :=
  .of_only ⟨fun p hp => by cases p <;> first | rfl | exact fun _ => List.prefix_rfl | exact absurd (by decide) hp⟩ (by decide)

theorem State.onClr_keeps (f : Clearing → Clearing) (s : State) : Keeps [.clr] s (s.onClr f) :=
  .of_only ⟨fun p hp => by cases p <;> first | rfl | exact fun _ => List.prefix_rfl | exact absurd (by decide) hp⟩ (by decide)

theorem State.onAud_keeps (f : Audit → Audit) (s : State) : Keeps [.aud] s (s.onAud f) :=
  .of_only ⟨fun p hp => by cases p <;> first | rfl | exact fun _ => List.prefix_rfl | exact absurd (by decide) hp⟩ (by decide)

theorem State.updCtx_keeps (k : Nat) (f : Ctx → Ctx) (s : State) : Keeps [.hif] s (s.updCtx k f) :=
  State.onHif_keeps _ s

theorem State.updChan_keeps (k : Nat) (f : DmaChan → DmaChan) (s : State) : Keeps [.dma] s (s.updChan k f) :=
  State.onDma_keeps _ s

theorem State.updRt_keeps (k : Nat) (f : SlotRt → SlotRt) (s : State) : Keeps [.frm] s (s.updRt k f) :=
  State.onFrm_keeps _ s

theorem State.updBack_keeps (k : Nat) (f : Backstop → Backstop) (s : State) : Keeps [.frm] s (s.updBack k f) :=
  State.onFrm_keeps _ s

theorem State.updDom_keeps (k : Nat) (f : Dom → Dom) (s : State) : Keeps [.clk] s (s.updDom k f) :=
  State.onClk_keeps _ s

theorem State.updSite_keeps (k : Nat) (f : Site → Site) (s : State) : Keeps [.sns] s (s.updSite k f) :=
  State.onSns_keeps _ s

theorem State.updDet_keeps (k : Nat) (f : Det → Det) (s : State) : Keeps [.sns] s (s.updDet k f) :=
  State.onSns_keeps _ s

theorem State.updMon_keeps (k : Nat) (f : Mon → Mon) (s : State) : Keeps [.sns] s (s.updMon k f) :=
  State.onSns_keeps _ s

theorem State.updReg_keeps (k : Nat) (f : Reg → Reg) (s : State) : Keeps [.rail] s (s.updReg k f) :=
  State.onRail_keeps _ s

theorem State.updMeas_keeps (k : Nat) (f : RailMeas → RailMeas) (s : State) : Keeps [.rail] s (s.updMeas k f) :=
  State.onRail_keeps _ s

theorem State.updProt_keeps (k : Nat) (f : RailProt → RailProt) (s : State) : Keeps [.rail] s (s.updProt k f) :=
  State.onRail_keeps _ s

theorem State.updPh_keeps (k : Nat) (f : Phase → Phase) (s : State) : Keeps [.rail] s (s.updPh k f) :=
  State.onRail_keeps _ s

theorem State.updClu_keeps (k : Nat) (f : Clu → Clu) (s : State) : Keeps [.loop] s (s.updClu k f) :=
  State.onLoop_keeps _ s

theorem State.updLoop_keeps (k : Nat) (f : LoopSt → LoopSt) (s : State) : Keeps [.loop] s (s.updLoop k f) :=
  State.onLoop_keeps _ s

theorem State.updProg_keeps (k : Nat) (f : TlyProg → TlyProg) (s : State) : Keeps [.tly] s (s.updProg k f) :=
  State.onTly_keeps _ s

theorem State.updSet_keeps (k : Nat) (f : TlySet → TlySet) (s : State) : Keeps [.tly] s (s.updSet k f) :=
  State.onTly_keeps _ s

theorem State.updFcCl_keeps (k : Nat) (f : FcClu → FcClu) (s : State) : Keeps [.fc] s (s.updFcCl k f) :=
  State.onFc_keeps _ s

theorem State.updHc_keeps (k : Nat) (f : HintClass → HintClass) (s : State) : Keeps [.fc] s (s.updHc k f) :=
  State.onFc_keeps _ s

theorem State.updHx_keeps (k : Nat) (f : HintCtx → HintCtx) (s : State) : Keeps [.fc] s (s.updHx k f) :=
  State.onFc_keeps _ s

theorem State.updTrsCl_keeps (k : Nat) (f : TrsClu → TrsClu) (s : State) : Keeps [.trs] s (s.updTrsCl k f) :=
  State.onTrs_keeps _ s

theorem State.updTx_keeps (k : Nat) (f : Tenant → Tenant) (s : State) : Keeps [.trs] s (s.updTx k f) :=
  State.onTrs_keeps _ s

theorem State.updObj_keeps (k : Nat) (f : SynObj → SynObj) (s : State) : Keeps [.syn] s (s.updObj k f) :=
  State.onSyn_keeps _ s

theorem State.updGrp_keeps (k : Nat) (f : SynGrp → SynGrp) (s : State) : Keeps [.syn] s (s.updGrp k f) :=
  State.onSyn_keeps _ s

theorem State.updCore_keeps (k : Nat) (f : SynCore → SynCore) (s : State) : Keeps [.syn] s (s.updCore k f) :=
  State.onSyn_keeps _ s

theorem State.updLnk_keeps (k : Nat) (f : Link → Link) (s : State) : Keeps [.clr] s (s.updLnk k f) :=
  State.onClr_keeps _ s

theorem State.updFwCore_keeps (k : Nat) (f : FwCore → FwCore) (s : State) : Keeps [.fw] s (s.updFwCore k f) :=
  State.onFw_keeps _ s

theorem State.updUnit_keeps (k : Nat) (f : AudUnit → AudUnit) (s : State) : Keeps [.aud] s (s.updUnit k f) :=
  State.onAud_keeps _ s

theorem State.updEp_keeps (k : Nat) (f : EpLane → EpLane) (s : State) : Keeps [.ep] s (s.updEp k f) :=
  .of_only ⟨fun p hp => by cases p <;> first | rfl | exact fun _ => List.prefix_rfl | exact absurd (by decide) hp⟩ (by decide)

theorem State.updCp_keeps (k : Nat) (f : CpPort → CpPort) (s : State) : Keeps [.cp] s (s.updCp k f) :=
  .of_only ⟨fun p hp => by cases p <;> first | rfl | exact fun _ => List.prefix_rfl | exact absurd (by decide) hp⟩ (by decide)

theorem State.updLp_keeps (c j : Nat) (f : LoopSt → LoopSt) (s : State) : Keeps [.loop] s (s.updLp c j f) :=
  State.updLoop_keeps _ f s

theorem State.onHo_keeps (f : Option HandOff → Option HandOff) (s : State) : Keeps [.ho] s (s.onHo f) :=
  .of_only ⟨fun p hp => by cases p <;> first | rfl | exact fun _ => List.prefix_rfl | exact absurd (by decide) hp⟩ (by decide)

theorem State.onFree_keeps (f : Nat → Nat) (s : State) : Keeps [.free] s (s.onFree f) :=
  .of_only ⟨fun p hp => by cases p <;> first | rfl | exact fun _ => List.prefix_rfl | exact absurd (by decide) hp⟩ (by decide)

theorem Keeps.setPending (x : List Instr) (s : State) : Keeps [.pending] s { s with pending := x } :=
  .of_only ⟨fun p hp => by cases p <;> first | rfl | exact fun _ => List.prefix_rfl | exact absurd (by decide) hp⟩ (by decide)

end Sys2Proof.Machine
end

