-- ==== Sys2Proof/Laws/Ops.lean ====
section
/-!
SUPPORT. What the operations of Machine/Ops.lean may change.
-/
namespace Sys2Proof.Machine


variable {ps : List Area} {r s t : State}

/-- A descriptor's outcome, whether it completes or waits, changes no part but those listed. -/
def KeepsD (ps : List Area) (s : State) : DescOut → Prop
  | .done _ _ t => Keeps ps s t
  | .wait t => Keeps ps s t

theorem KeepsD.ite {c : Prop} [Decidable c] {a b : DescOut} (h : KeepsD ps s a) (g : KeepsD ps s b) :
    KeepsD ps s (if c then a else b) := by
  split <;> assumption

theorem KeepsD.done {st res : Nat} (h : Keeps ps s t) : KeepsD ps s (.done st res t) := h

theorem KeepsD.wait (h : Keeps ps s t) : KeepsD ps s (.wait t) := h

theorem KeepsD.fail {st : Nat} (h : Keeps ps s t) : KeepsD ps s (DescOut.fail st t) := h

theorem KeepsD.before {o : DescOut} (h : Keeps ps r s) (g : KeepsD ps s o) : KeepsD ps r o := by
  cases o <;> exact h.trans g

theorem KeepsD.step {qs : List Area} {o : DescOut} (g : KeepsD qs s o) (hq : ∀ p ∈ qs, p ∈ ps) (h : Keeps ps r s) :
    KeepsD ps r o := by
  cases o <;> exact h.trans (Keeps.mono g hq)

theorem hmWrite_keeps (w : HmWrite) (s : State) : Keeps [.hm] s (hmWrite w s) := State.onHm_keeps _ s

theorem irqDue_keeps (c : Nat) (s : State) : Keeps [.hm, .hif] s (irqDue c s) := by
  unfold irqDue; dsimp only
  refine .ite (.refl ..) (.ite ?_ ?_)
  · exact (hmWrite_keeps ..).step (by decide) ((State.updCtx_keeps ..).step (by decide) (.refl ..))
  · exact (State.updCtx_keeps ..).step (by decide) (.refl ..)

theorem drrIdle_keeps (c : Nat) (s : State) : Keeps [.hif] s (drrIdle c s) := by
  unfold drrIdle; dsimp only
  exact .ite ((State.onHif_keeps ..).step (by decide) (.refl ..)) (.refl ..)

theorem writeEntry_keeps (c tag status result opcode : Nat) (event notify : Bool) (s : State) :
    Keeps [.hm, .hif] s (writeEntry c tag status result opcode event notify s) := by
  unfold writeEntry; dsimp only
  refine (drrIdle_keeps ..).step (by decide) (.ite ((irqDue_keeps ..).step (by decide) ?_) ?_)
  all_goals exact (State.updCtx_keeps ..).step (by decide) ((hmWrite_keeps ..).step (by decide) (.refl ..))

theorem ldgPut_keeps (x : LRec) (s : State) : Keeps [.ldg] s (ldgPut x s) := by
  refine State.onLdg_keeps (fun h => ?_) fun k => ?_
  · split
    · next hq =>
      refine ⟨h.full, h.canon, h.below, fun e he => ?_⟩
      rcases Tbl.mem_set he with h1 | h1
      · exact h.queues e h1
      · rw [h1]; simp only [List.length_append, List.length_singleton]; omega
    · exact ⟨h.full, h.canon, h.below, h.queues⟩
  · split
    · by_cases hk : k = x.source
      · rw [hk]; dsimp only; rw [Tbl.get_upd_self]; exact List.prefix_append ..
      · dsimp only; rw [Tbl.get_upd_ne _ _ hk]
    · exact List.prefix_rfl

theorem ldgEnqueue_keeps {rec_ : LRec → State → State} (hr : ∀ x u, Keeps [.hm, .hif, .ldg] u (rec_ x u)) (x : LRec)
    (s : State) : Keeps [.hm, .hif, .ldg] s (ldgEnqueue rec_ x s) := by
  unfold ldgEnqueue; dsimp only
  have h : Keeps [.hm, .hif, .ldg] s (ldgPut x s) := (ldgPut_keeps ..).mono (by decide)
  exact .ite ((hr ..).step (by decide) ((State.onLdg_keeps (fun h => ⟨h.1, h.2, h.3, h.4⟩) fun _ => List.prefix_rfl).step (by decide) h)) h

theorem evtDeliver_keeps {lost : LRec → State → State} (hl : ∀ x u, Keeps [.hm, .hif, .ldg] u (lost x u)) (x : LRec)
    (c : Nat) (s : State) : Keeps [.hm, .hif, .ldg] s (evtDeliver lost x c s) := by
  unfold evtDeliver; dsimp only
  refine .ite (.refl ..) (.ite ?_ (.ite ?_ ?_))
  · exact (writeEntry_keeps ..).step (by decide) (.refl ..)
  · exact (hl ..).step (by decide) ((State.updCtx_keeps ..).step (by decide) ((State.updCtx_keeps ..).step (by decide) (.refl ..)))
  · exact (State.updCtx_keeps ..).step (by decide) (.refl ..)

theorem emitRec_keeps (n : Nat) (x : LRec) (s : State) : Keeps [.hm, .hif, .ldg] s (emitRec n x s) := by
  induction n generalizing x s with
  | zero => exact (ldgPut_keeps ..).mono (by decide)
  | succ n ih =>
    unfold emitRec; dsimp only
    have h : Keeps [.hm, .hif, .ldg] s (ldgEnqueue (emitRec n) x s) := ldgEnqueue_keeps ih ..
    have g := h.trans (evtDeliver_keeps ih x 0 _)
    exact .ite (g.trans (evtDeliver_keeps ih ..)) g

/-- A record changes Ledger's queues, the context rings and the manager port, and nothing else. -/
theorem emit_keeps (src code p0 p1 p2 p3 : Nat) (s : State) : Keeps [.hm, .hif, .ldg] s (emit src code p0 p1 p2 p3 s) :=
  emitRec_keeps ..

theorem act_keeps {f : State → State} (hf : Keeps ps s (f s)) : ∃ t, act f s = .next t ∧ Keeps ps s t :=
  ⟨if s.live then f s else s, rfl, .ite hf (.refl ..)⟩

theorem hsAnswer_keeps (a1 a2) (s : State) :
    Keeps [.hs] s (hsAnswer a1 a2 s) := by
  unfold hsAnswer; try dsimp only
  repeat' first
    | with_reducible exact Keeps.refl _ _
    | with_reducible refine (State.onHs_keeps ..).step (by decide) ?_

theorem State.drawn_keeps (s : State) :
    Keeps [.free] s (State.drawn s) := by
  unfold State.drawn; try dsimp only
  repeat' first
    | with_reducible exact Keeps.refl _ _
    | with_reducible refine (State.onFree_keeps ..).step (by decide) ?_

theorem setAlarm_keeps (a1) (s : State) :
    Keeps [.pwr] s (setAlarm a1 s) := by
  unfold setAlarm; try dsimp only
  repeat' first
    | with_reducible exact Keeps.refl _ _
    | with_reducible refine (State.onPwr_keeps ..).step (by decide) ?_
    | with_reducible refine Keeps.ite ?_ ?_

theorem clrAlarm_keeps (a1) (s : State) :
    Keeps [.pwr] s (clrAlarm a1 s) := by
  unfold clrAlarm; try dsimp only
  repeat' first
    | with_reducible exact Keeps.refl _ _
    | with_reducible refine (State.onPwr_keeps ..).step (by decide) ?_
    | with_reducible refine Keeps.ite ?_ ?_

theorem emitClk_keeps (a1 a2 a3 a4 a5) (s : State) :
    Keeps [.hm, .hif, .ldg] s (emitClk a1 a2 a3 a4 a5 s) := by
  unfold emitClk; try dsimp only
  repeat' first
    | with_reducible exact Keeps.refl _ _
    | with_reducible refine (emit_keeps ..).step (by decide) ?_

theorem emitSns_keeps (a1 a2 a3 a4 a5) (s : State) :
    Keeps [.hm, .hif, .ldg] s (emitSns a1 a2 a3 a4 a5 s) := by
  unfold emitSns; try dsimp only
  repeat' first
    | with_reducible exact Keeps.refl _ _
    | with_reducible refine (emit_keeps ..).step (by decide) ?_

theorem emitRail_keeps (a1 a2 a3 a4 a5) (s : State) :
    Keeps [.hm, .hif, .ldg] s (emitRail a1 a2 a3 a4 a5 s) := by
  unfold emitRail; try dsimp only
  repeat' first
    | with_reducible exact Keeps.refl _ _
    | with_reducible refine (emit_keeps ..).step (by decide) ?_

theorem emitTeller_keeps (a1 a2 a3 a4 a5 a6) (s : State) :
    Keeps [.hm, .hif, .ldg] s (emitTeller a1 a2 a3 a4 a5 a6 s) := by
  unfold emitTeller; try dsimp only
  repeat' first
    | with_reducible exact Keeps.refl _ _
    | with_reducible refine (emit_keeps ..).step (by decide) ?_

theorem emitTrs_keeps (a1 a2 a3 a4 a5) (s : State) :
    Keeps [.hm, .hif, .ldg] s (emitTrs a1 a2 a3 a4 a5 s) := by
  unfold emitTrs; try dsimp only
  repeat' first
    | with_reducible exact Keeps.refl _ _
    | with_reducible refine (emit_keeps ..).step (by decide) ?_

theorem emitClerk_keeps (a1 a2 a3 a4 a5) (s : State) :
    Keeps [.hm, .hif, .ldg] s (emitClerk a1 a2 a3 a4 a5 s) := by
  unfold emitClerk; try dsimp only
  repeat' first
    | with_reducible exact Keeps.refl _ _
    | with_reducible refine (emit_keeps ..).step (by decide) ?_

theorem emitVault_keeps (a1 a2 a3 a4 a5) (s : State) :
    Keeps [.hm, .hif, .ldg] s (emitVault a1 a2 a3 a4 a5 s) := by
  unfold emitVault; try dsimp only
  repeat' first
    | with_reducible exact Keeps.refl _ _
    | with_reducible refine (emit_keeps ..).step (by decide) ?_

theorem emitSyn_keeps (a1 a2 a3 a4 a5) (s : State) :
    Keeps [.hm, .hif, .ldg] s (emitSyn a1 a2 a3 a4 a5 s) := by
  unfold emitSyn; try dsimp only
  repeat' first
    | with_reducible exact Keeps.refl _ _
    | with_reducible refine (emit_keeps ..).step (by decide) ?_

theorem emitDma_keeps (a1 a2 a3 a4 a5) (s : State) :
    Keeps [.hm, .hif, .ldg] s (emitDma a1 a2 a3 a4 a5 s) := by
  unfold emitDma; try dsimp only
  repeat' first
    | with_reducible exact Keeps.refl _ _
    | with_reducible refine (emit_keeps ..).step (by decide) ?_

theorem emitTly_keeps (a1 a2 a3 a4 a5) (s : State) :
    Keeps [.hm, .hif, .ldg] s (emitTly a1 a2 a3 a4 a5 s) := by
  unfold emitTly; try dsimp only
  repeat' first
    | with_reducible exact Keeps.refl _ _
    | with_reducible refine (emit_keeps ..).step (by decide) ?_

theorem emitTrip_keeps (a1 a2 a3 a4 a5) (s : State) :
    Keeps [.hm, .hif, .ldg] s (emitTrip a1 a2 a3 a4 a5 s) := by
  unfold emitTrip; try dsimp only
  repeat' first
    | with_reducible exact Keeps.refl _ _
    | with_reducible refine (emit_keeps ..).step (by decide) ?_

theorem emitCp_keeps (a1 a2 a3 a4 a5) (s : State) :
    Keeps [.hm, .hif, .ldg] s (emitCp a1 a2 a3 a4 a5 s) := by
  unfold emitCp; try dsimp only
  repeat' first
    | with_reducible exact Keeps.refl _ _
    | with_reducible refine (emit_keeps ..).step (by decide) ?_

theorem drrTake_keeps (a1) (s : State) :
    Keeps [.hif] s (drrTake a1 s) := by
  unfold drrTake; try dsimp only
  repeat' first
    | with_reducible exact Keeps.refl _ _
    | with_reducible refine (State.onHif_keeps ..).step (by decide) ?_
    | with_reducible refine Keeps.ite ?_ ?_

theorem dropHints_keeps (a1) (s : State) :
    Keeps [.fc] s (dropHints a1 s) := by
  unfold dropHints; try dsimp only
  repeat' first
    | with_reducible exact Keeps.refl _ _
    | with_reducible refine (State.onFc_keeps ..).step (by decide) ?_
    | split

theorem ctxShut_keeps (a1) (s : State) :
    Keeps [.hm, .hif, .ldg, .fc, .trs] s (ctxShut a1 s) := by
  unfold ctxShut; try dsimp only
  repeat' first
    | with_reducible exact Keeps.refl _ _
    | with_reducible refine (State.updCtx_keeps ..).step (by decide) ?_
    | with_reducible refine (State.onHif_keeps ..).step (by decide) ?_
    | with_reducible refine (dropHints_keeps ..).step (by decide) ?_
    | with_reducible refine (State.updTx_keeps ..).step (by decide) ?_
    | with_reducible refine (emitClerk_keeps ..).step (by decide) ?_
    | with_reducible refine Keeps.ite ?_ ?_

theorem completeOne_keeps (a1 a2 a3 a4) (s : State) :
    Keeps [.hm, .hif] s (completeOne a1 a2 a3 a4 s) := by
  unfold completeOne; try dsimp only
  repeat' first
    | with_reducible exact Keeps.refl _ _
    | with_reducible refine (State.updCtx_keeps ..).step (by decide) ?_
    | with_reducible refine (writeEntry_keeps ..).step (by decide) ?_
    | with_reducible refine Keeps.ite ?_ ?_

theorem complete_keeps (a1 a2 a3 a4) (s : State) :
    Keeps [.hm, .hif, .ldg, .fc, .trs] s (complete a1 a2 a3 a4 s) := by
  unfold complete; try dsimp only
  repeat' first
    | with_reducible exact Keeps.refl _ _
    | with_reducible refine (completeOne_keeps ..).step (by decide) ?_
    | with_reducible refine (ctxShut_keeps ..).step (by decide) ?_
    | with_reducible refine Keeps.ite ?_ ?_
    | split

/-- A descriptor changes what its body changes, and the rings, the manager port, Ledger and (through a close that waited)
hints and tenants. -/
theorem runDesc_keeps {ps : List Area} {body : State → DescOut} (hb : ∀ u, KeepsD ps u (body u))
    (hp : ∀ p ∈ [Area.hm, .hif, .ldg, .fc, .trs], p ∈ ps) (h : DescHdr) (d : DescSpec) (s : State) :
    Keeps ps s (runDesc h d body s) := by
  unfold runDesc; dsimp only
  refine .ite (.refl ..) ?_
  have h1 : Keeps ps s (descBegin h.ctx.val s) :=
    (State.updCtx_keeps ..).step (fun p hm => hp p (by revert hm p; decide))
      ((State.onHif_keeps ..).step (fun p hm => hp p (by revert hm p; decide)) (.refl ..))
  refine .ite ((complete_keeps ..).step hp h1) ?_
  have h2 := KeepsD.before h1 (hb _)
  split
  · next heq => rw [heq] at h2; exact (complete_keeps ..).step hp h2
  · next heq =>
    rw [heq] at h2
    exact (State.updCtx_keeps ..).step (fun p hm => hp p (by revert hm p; decide)) h2

/-- A descriptor whose checks pass and whose body ends at once completes with the body's status and result. -/
theorem runDesc_done {h : DescHdr} {d : DescSpec} {body : State → DescOut} {s u : State} {st res : Nat}
    (hm : descMay h.ctx.val s = true) (hp : s.hm.inReset = false) (hc : descCheck h d s = 0)
    (hb : body (descBegin h.ctx.val s) = .done st res u) :
    runDesc h d body s = complete h d.opcode st res u := by
  unfold runDesc; dsimp only; rw [hm, hp, hc, hb]; rfl

/-- A descriptor whose checks pass and that goes on keeps its context busy. -/
theorem runDesc_wait {h : DescHdr} {d : DescSpec} {body : State → DescOut} {s u : State}
    (hm : descMay h.ctx.val s = true) (hp : s.hm.inReset = false) (hc : descCheck h d s = 0)
    (hb : body (descBegin h.ctx.val s) = .wait u) :
    runDesc h d body s = u.updCtx h.ctx.val fun x => { x with busy := true } := by
  unfold runDesc; dsimp only; rw [hm, hp, hc, hb]; rfl

/-- A descriptor that fails a check completes with the status of the check and has no other effect. -/
theorem runDesc_refused {h : DescHdr} {d : DescSpec} {body : State → DescOut} {s : State}
    (hm : descMay h.ctx.val s = true) (hp : s.hm.inReset = false) (hc : descCheck h d s ≠ 0) :
    runDesc h d body s = complete h d.opcode (descCheck h d s) 0 (descBegin h.ctx.val s) := by
  unfold runDesc; dsimp only; rw [hm, hp, if_neg (by decide), if_pos hc]

theorem DescOut.fail_keeps (a1) (s : State) :
    KeepsD [] s (DescOut.fail a1 s) := by
  unfold DescOut.fail; try dsimp only
  repeat' first
    | with_reducible exact Keeps.refl _ _
    | with_reducible refine KeepsD.ite ?_ ?_
    | with_reducible refine KeepsD.done ?_
    | with_reducible refine KeepsD.wait ?_
    | with_reducible refine KeepsD.fail ?_


end Sys2Proof.Machine
end

