-- ==== Sys2Proof/Laws/CluOps.lean ====
section
/-!
SUPPORT. What the operations of Machine/CluOps.lean may change.
-/
namespace Sys2Proof.Machine

theorem gateDivRec_keeps (a1 a2) (s : State) :
    Keeps [.clk, .hm, .hif, .ldg] s (gateDivRec a1 a2 s) := by
  unfold gateDivRec; try dsimp only
  repeat' first
    | with_reducible exact Keeps.refl _ _
    | with_reducible refine (emitClk_keeps ..).step (by decide) ?_
    | with_reducible refine (State.updDom_keeps ..).step (by decide) ?_
    | with_reducible refine Keeps.ite ?_ ?_

theorem putDiv_keeps (a1 a2) (s : State) :
    Keeps [.clk] s (putDiv a1 a2 s) := by
  unfold putDiv; try dsimp only
  repeat' first
    | with_reducible exact Keeps.refl _ _
    | with_reducible refine (State.updDom_keeps ..).step (by decide) ?_
    | with_reducible refine Keeps.ite ?_ ?_

theorem sendDiv_keeps (a1 a2) (s : State) :
    Keeps [.clk, .hm, .hif, .ldg] s (sendDiv a1 a2 s) := by
  unfold sendDiv; try dsimp only
  repeat' first
    | with_reducible exact Keeps.refl _ _
    | with_reducible refine (putDiv_keeps ..).step (by decide) ?_
    | with_reducible refine (gateDivRec_keeps ..).step (by decide) ?_

theorem domStopNow_keeps (a1) (s : State) :
    Keeps [.clk] s (domStopNow a1 s) := by
  unfold domStopNow; try dsimp only
  repeat' first
    | with_reducible exact Keeps.refl _ _
    | with_reducible refine (State.updDom_keeps ..).step (by decide) ?_
    | with_reducible refine Keeps.ite ?_ ?_

theorem domStopSend_keeps (a1) (s : State) :
    Keeps [.clk] s (domStopSend a1 s) := by
  unfold domStopSend; try dsimp only
  repeat' first
    | with_reducible exact Keeps.refl _ _
    | with_reducible refine (State.updDom_keeps ..).step (by decide) ?_
    | with_reducible refine Keeps.ite ?_ ?_

theorem domGo_keeps (a1) (s : State) :
    Keeps [.clk] s (domGo a1 s) := by
  unfold domGo; try dsimp only
  repeat' first
    | with_reducible exact Keeps.refl _ _
    | with_reducible refine (State.updDom_keeps ..).step (by decide) ?_
    | with_reducible refine Keeps.ite ?_ ?_

theorem domStart_keeps (a1) (s : State) :
    Keeps [.clk] s (domStart a1 s) := by
  unfold domStart; try dsimp only
  repeat' first
    | with_reducible exact Keeps.refl _ _
    | with_reducible refine (domGo_keeps ..).step (by decide) ?_
    | with_reducible refine Keeps.ite ?_ ?_

theorem domStartAll_keeps (s : State) :
    Keeps [.clk] s (domStartAll s) := by
  unfold domStartAll; try dsimp only
  repeat' first
    | with_reducible assumption
    | with_reducible exact Keeps.refl _ _
    | with_reducible refine forList_keeps _ ?_ ?_
    | with_reducible refine (domStart_keeps ..).step (by decide) ?_
    | intro _ _ _
    | intro _ _

theorem reclaimCore_keeps (a1 a2 a3) (s : State) :
    Keeps [.hm, .hif, .ldg, .trs, .syn] s (reclaimCore a1 a2 a3 s) := by
  unfold reclaimCore; try dsimp only
  repeat' first
    | with_reducible exact Keeps.refl _ _
    | with_reducible refine (State.updCore_keeps ..).step (by decide) ?_
    | with_reducible refine (State.onTrs_keeps ..).step (by decide) ?_
    | with_reducible refine (emitSyn_keeps ..).step (by decide) ?_
    | with_reducible refine Keeps.ite ?_ ?_
    | split

theorem reclaimClu_keeps (a1 a2) (s : State) :
    Keeps [.hm, .hif, .ldg, .trs, .syn] s (reclaimClu a1 a2 s) := by
  unfold reclaimClu; try dsimp only
  repeat' first
    | with_reducible assumption
    | with_reducible exact Keeps.refl _ _
    | with_reducible refine forList_keeps _ ?_ ?_
    | with_reducible refine (reclaimCore_keeps ..).step (by decide) ?_
    | intro _ _ _
    | intro _ _

theorem cluStop_keeps (a1) (s : State) :
    Keeps [.loop, .hm, .hif, .ldg, .fw, .trs, .syn] s (cluStop a1 s) := by
  unfold cluStop; try dsimp only
  repeat' first
    | with_reducible exact Keeps.refl _ _
    | with_reducible refine (State.updFwCore_keeps ..).step (by decide) ?_
    | with_reducible refine (reclaimClu_keeps ..).step (by decide) ?_
    | with_reducible refine (State.updClu_keeps ..).step (by decide) ?_
    | with_reducible refine Keeps.ite ?_ ?_

theorem presetLoops_keeps (a1) (s : State) :
    Keeps [.loop] s (presetLoops a1 s) := by
  unfold presetLoops; try dsimp only
  repeat' first
    | with_reducible assumption
    | with_reducible exact Keeps.refl _ _
    | with_reducible refine forList_keeps _ ?_ ?_
    | with_reducible refine (State.updLp_keeps ..).step (by decide) ?_
    | intro _ _ _
    | intro _ _

theorem cluRestart_keeps (a1) (s : State) :
    Keeps [.loop, .hm, .hif, .ldg] s (cluRestart a1 s) := by
  unfold cluRestart; try dsimp only
  repeat' first
    | with_reducible exact Keeps.refl _ _
    | with_reducible refine (presetLoops_keeps ..).step (by decide) ?_
    | with_reducible refine (State.updClu_keeps ..).step (by decide) ?_
    | with_reducible refine (emitCp_keeps ..).step (by decide) ?_
    | with_reducible refine Keeps.ite ?_ ?_

theorem restartAll_keeps (s : State) :
    Keeps [.clk, .loop, .hm, .hif, .ldg] s (restartAll s) := by
  unfold restartAll; try dsimp only
  repeat' first
    | with_reducible assumption
    | with_reducible exact Keeps.refl _ _
    | with_reducible refine forList_keeps _ ?_ ?_
    | with_reducible refine (domStartAll_keeps ..).step (by decide) ?_
    | with_reducible refine (cluRestart_keeps ..).step (by decide) ?_
    | intro _ _ _
    | intro _ _

theorem capCluster_keeps (a1) (s : State) :
    Keeps [.loop] s (capCluster a1 s) := by
  unfold capCluster; try dsimp only
  repeat' first
    | with_reducible exact Keeps.refl _ _
    | with_reducible refine (State.updClu_keeps ..).step (by decide) ?_
    | with_reducible refine Keeps.ite ?_ ?_

theorem cluHold_keeps (a1 a2) (s : State) :
    Keeps [.loop] s (cluHold a1 a2 s) := by
  unfold cluHold; try dsimp only
  repeat' first
    | with_reducible exact Keeps.refl _ _
    | with_reducible refine (State.updClu_keeps ..).step (by decide) ?_
    | with_reducible refine Keeps.ite ?_ ?_

theorem holdAll_keeps (a1) (s : State) :
    Keeps [.loop, .hm, .hif, .ldg] s (holdAll a1 s) := by
  unfold holdAll; try dsimp only
  repeat' first
    | with_reducible assumption
    | with_reducible exact Keeps.refl _ _
    | with_reducible refine (emitCp_keeps ..).step (by decide) ?_
    | with_reducible refine forList_keeps _ ?_ ?_
    | with_reducible refine (cluHold_keeps ..).step (by decide) ?_
    | with_reducible refine Keeps.ite ?_ ?_
    | intro _ _ _

theorem cluUnhold_keeps (a1) (s : State) :
    Keeps [.loop, .hm, .hif, .ldg] s (cluUnhold a1 s) := by
  unfold cluUnhold; try dsimp only
  repeat' first
    | with_reducible exact Keeps.refl _ _
    | with_reducible refine (emitCp_keeps ..).step (by decide) ?_
    | with_reducible refine (presetLoops_keeps ..).step (by decide) ?_
    | with_reducible refine (State.updClu_keeps ..).step (by decide) ?_
    | with_reducible refine Keeps.ite ?_ ?_


end Sys2Proof.Machine
end

