-- ==== Sys2Proof/Laws/FRecOps.lean ====
section
/-!
SUPPORT. What the operations of Machine/FRecOps.lean may change.
-/
namespace Sys2Proof.Machine

theorem nvBoot_keeps (s : State) :
    Keeps [.frec] s (nvBoot s) := by
  unfold nvBoot; try dsimp only
  repeat' first
    | with_reducible exact Keeps.refl _ _
    | with_reducible refine (State.onFrec_keeps ..).step (by decide) ?_
    | with_reducible refine Keeps.ite ?_ ?_

theorem frecLost_keeps (a1 a2) (s : State) :
    Keeps [.frec, .hm, .hif, .ldg] s (frecLost a1 a2 s) := by
  unfold frecLost; try dsimp only
  repeat' first
    | with_reducible exact Keeps.refl _ _
    | with_reducible refine (State.onFrec_keeps ..).step (by decide) ?_
    | with_reducible refine (emitRail_keeps ..).step (by decide) ?_

theorem frecTake_keeps (a1 a2 a3 a4 a5 a6 a7) (s : State) :
    Keeps [.frec, .hm, .hif, .ldg] s (frecTake a1 a2 a3 a4 a5 a6 a7 s) := by
  unfold frecTake; try dsimp only
  repeat' first
    | with_reducible exact Keeps.refl _ _
    | with_reducible refine (frecLost_keeps ..).step (by decide) ?_
    | with_reducible refine (State.onFrec_keeps ..).step (by decide) ?_
    | with_reducible refine Keeps.ite ?_ ?_


end Sys2Proof.Machine
end

