-- ==== Sys2Proof/Laws/ClrBase.lean ====
section
/-!
SUPPORT. What the operations of Machine/ClrBase.lean may change.
-/
namespace Sys2Proof.Machine

theorem clrSend_keeps (a1 a2 a3) (s : State) :
    Keeps [.hm, .clr] s (clrSend a1 a2 a3 s) := by
  unfold clrSend; try dsimp only
  repeat' first
    | with_reducible exact Keeps.refl _ _
    | with_reducible refine (State.updLnk_keeps ..).step (by decide) ?_
    | with_reducible refine (hmWrite_keeps ..).step (by decide) ?_
    | with_reducible refine Keeps.ite ?_ ?_

theorem clrSendV_keeps (a1 a2 a3) (s : State) :
    Keeps [.hm, .clr] s (clrSendV a1 a2 a3 s) := by
  unfold clrSendV; try dsimp only
  repeat' first
    | with_reducible exact Keeps.refl _ _
    | with_reducible refine (clrSend_keeps ..).step (by decide) ?_

theorem clrJoin_keeps (a1) (s : State) :
    Keeps [.hm, .clr] s (clrJoin a1 s) := by
  unfold clrJoin; try dsimp only
  repeat' first
    | with_reducible exact Keeps.refl _ _
    | with_reducible refine (clrSend_keeps ..).step (by decide) ?_

theorem beginReturn_keeps (a1 a2 a3) (s : State) :
    Keeps [.trs, .clr] s (beginReturn a1 a2 a3 s) := by
  unfold beginReturn; try dsimp only
  repeat' first
    | with_reducible exact Keeps.refl _ _
    | with_reducible refine (State.updLnk_keeps ..).step (by decide) ?_
    | with_reducible refine (State.onTrs_keeps ..).step (by decide) ?_
    | with_reducible refine Keeps.ite ?_ ?_

theorem returnAll_keeps (a1 a2) (s : State) :
    Keeps [.trs, .clr] s (returnAll a1 a2 s) := by
  unfold returnAll; try dsimp only
  repeat' first
    | with_reducible assumption
    | with_reducible exact Keeps.refl _ _
    | with_reducible refine forList_keeps _ ?_ ?_
    | with_reducible refine (beginReturn_keeps ..).step (by decide) ?_
    | intro _ _ _
    | intro _ _

theorem lentHold_keeps (a1) (s : State) :
    Keeps [.clr] s (lentHold a1 s) := by
  unfold lentHold; try dsimp only
  repeat' first
    | with_reducible exact Keeps.refl _ _
    | with_reducible refine (State.updLnk_keeps ..).step (by decide) ?_

theorem clrHoldEnter_keeps (s : State) :
    Keeps [.hm, .hif, .ldg, .trs, .clr] s (clrHoldEnter s) := by
  unfold clrHoldEnter; try dsimp only
  repeat' first
    | with_reducible assumption
    | with_reducible exact Keeps.refl _ _
    | with_reducible refine forList_keeps _ ?_ ?_
    | with_reducible refine (lentHold_keeps ..).step (by decide) ?_
    | with_reducible refine (returnAll_keeps ..).step (by decide) ?_
    | with_reducible refine (emitTrs_keeps ..).step (by decide) ?_
    | with_reducible refine Keeps.ite ?_ ?_
    | intro _ _ _
    | intro _ _


end Sys2Proof.Machine
end

