-- ==== Sys2Proof/Laws/RailOps.lean ====
section
/-!
SUPPORT. What the operations of Machine/RailOps.lean may change.
-/
namespace Sys2Proof.Machine

theorem setTarget_keeps (a1 a2) (s : State) :
    Keeps [.rail, .hm, .hif, .ldg] s (setTarget a1 a2 s) := by
  unfold setTarget; try dsimp only
  repeat' first
    | with_reducible exact Keeps.refl _ _
    | with_reducible refine (emitRail_keeps ..).step (by decide) ?_
    | with_reducible refine (State.updMeas_keeps ..).step (by decide) ?_
    | with_reducible refine (State.updReg_keeps ..).step (by decide) ?_
    | with_reducible refine Keeps.ite ?_ ?_

theorem retarget_keeps (a1) (s : State) :
    Keeps [.rail, .hm, .hif, .ldg] s (retarget a1 s) := by
  unfold retarget; try dsimp only
  repeat' first
    | with_reducible exact Keeps.refl _ _
    | with_reducible refine (setTarget_keeps ..).step (by decide) ?_
    | with_reducible refine Keeps.ite ?_ ?_

theorem brakeStop_keeps (a1) (s : State) :
    Keeps [.rail, .hm, .hif, .ldg] s (brakeStop a1 s) := by
  unfold brakeStop; try dsimp only
  repeat' first
    | with_reducible exact Keeps.refl _ _
    | with_reducible refine (State.updReg_keeps ..).step (by decide) ?_
    | with_reducible refine (emitRail_keeps ..).step (by decide) ?_
    | with_reducible refine Keeps.ite ?_ ?_
    | split

theorem phOff_keeps (a1) (s : State) :
    Keeps [.rail] s (phOff a1 s) := by
  unfold phOff; try dsimp only
  repeat' first
    | with_reducible exact Keeps.refl _ _
    | with_reducible refine (State.updPh_keeps ..).step (by decide) ?_

theorem railPenLow_keeps (a1) (s : State) :
    Keeps [.rail] s (railPenLow a1 s) := by
  unfold railPenLow; try dsimp only
  repeat' first
    | with_reducible assumption
    | with_reducible exact Keeps.refl _ _
    | with_reducible refine forList_keeps _ ?_ ?_
    | with_reducible refine (phOff_keeps ..).step (by decide) ?_
    | intro _ _ _
    | intro _ _

theorem railPhasesTo_keeps (a1 a2) (s : State) :
    Keeps [.rail] s (railPhasesTo a1 a2 s) := by
  unfold railPhasesTo; try dsimp only
  repeat' first
    | with_reducible assumption
    | with_reducible exact Keeps.refl _ _
    | with_reducible refine forList_keeps _ ?_ ?_
    | with_reducible refine (State.updPh_keeps ..).step (by decide) ?_
    | with_reducible refine Keeps.ite ?_ ?_
    | intro _ _ _

theorem stopClustersOf_keeps (a1) (s : State) :
    Keeps [.clk, .loop, .hm, .hif, .ldg, .fw, .trs, .syn] s (stopClustersOf a1 s) := by
  unfold stopClustersOf; try dsimp only
  repeat' first
    | with_reducible assumption
    | with_reducible exact Keeps.refl _ _
    | with_reducible refine forList_keeps _ ?_ ?_
    | with_reducible refine (domStopSend_keeps ..).step (by decide) ?_
    | with_reducible refine (cluStop_keeps ..).step (by decide) ?_
    | with_reducible refine (State.updClu_keeps ..).step (by decide) ?_
    | intro _ _ _
    | intro _ _

theorem railFault_keeps (a1 a2) (s : State) :
    Keeps [.clk, .rail, .loop, .hm, .hif, .ldg, .fw, .trs, .syn] s (railFault a1 a2 s) := by
  unfold railFault; try dsimp only
  repeat' first
    | with_reducible exact Keeps.refl _ _
    | with_reducible refine (stopClustersOf_keeps ..).step (by decide) ?_
    | with_reducible refine (railPhasesTo_keeps ..).step (by decide) ?_
    | with_reducible refine (railPenLow_keeps ..).step (by decide) ?_
    | with_reducible refine (brakeStop_keeps ..).step (by decide) ?_
    | with_reducible refine (State.updProt_keeps ..).step (by decide) ?_
    | with_reducible refine (State.updReg_keeps ..).step (by decide) ?_
    | with_reducible refine Keeps.ite ?_ ?_

theorem railsBack_keeps (s : State) :
    Keeps [.loop] s (railsBack s) := by
  unfold railsBack; try dsimp only
  repeat' first
    | with_reducible assumption
    | with_reducible exact Keeps.refl _ _
    | with_reducible refine forList_keeps _ ?_ ?_
    | with_reducible refine (State.updClu_keeps ..).step (by decide) ?_
    | intro _ _ _
    | intro _ _

theorem startDone_keeps (a1) (s : State) :
    Keeps [.clk, .rail, .loop, .hm, .hif, .ldg] s (startDone a1 s) := by
  unfold startDone; try dsimp only
  repeat' first
    | with_reducible assumption
    | with_reducible exact Keeps.refl _ _
    | with_reducible refine forList_keeps _ ?_ ?_
    | with_reducible refine (State.updProt_keeps ..).step (by decide) ?_
    | with_reducible refine (emitRail_keeps ..).step (by decide) ?_
    | with_reducible refine (railsBack_keeps ..).step (by decide) ?_
    | with_reducible refine (restartAll_keeps ..).step (by decide) ?_
    | intro _ _ _
    | intro _ _

theorem finishStart_keeps (s : State) :
    Keeps [.clk, .rail, .loop, .hm, .hif, .ldg] s (finishStart s) := by
  unfold finishStart; try dsimp only
  repeat' first
    | with_reducible assumption
    | with_reducible exact Keeps.refl _ _
    | with_reducible refine forList_keeps _ ?_ ?_
    | with_reducible refine (startDone_keeps ..).step (by decide) ?_
    | with_reducible refine (State.onRail_keeps ..).step (by decide) ?_
    | intro _ _ _
    | intro _ _

theorem latchAll_keeps (s : State) :
    Keeps [.rail] s (latchAll s) := by
  unfold latchAll; try dsimp only
  repeat' first
    | with_reducible assumption
    | with_reducible exact Keeps.refl _ _
    | with_reducible refine forList_keeps _ ?_ ?_
    | with_reducible refine (State.updProt_keeps ..).step (by decide) ?_
    | with_reducible refine Keeps.ite ?_ ?_
    | intro _ _ _

theorem finishStops_keeps (s : State) :
    Keeps [.rail, .hm, .hif, .ldg] s (finishStops s) := by
  unfold finishStops; try dsimp only
  repeat' first
    | with_reducible assumption
    | with_reducible exact Keeps.refl _ _
    | with_reducible refine forList_keeps _ ?_ ?_
    | with_reducible refine (emitRail_keeps ..).step (by decide) ?_
    | with_reducible refine (State.onRail_keeps ..).step (by decide) ?_
    | with_reducible refine (latchAll_keeps ..).step (by decide) ?_
    | with_reducible refine Keeps.ite ?_ ?_
    | intro _ _ _

theorem fastStop_keeps (a1 a2 a3) (s : State) :
    Keeps [.clk, .rail, .loop, .hm, .hif, .ldg, .fw, .trs, .syn] s (fastStop a1 a2 a3 s) := by
  unfold fastStop; try dsimp only
  repeat' first
    | with_reducible assumption
    | with_reducible exact Keeps.refl _ _
    | with_reducible refine forList_keeps _ ?_ ?_
    | with_reducible refine (stopClustersOf_keeps ..).step (by decide) ?_
    | with_reducible refine (railFault_keeps ..).step (by decide) ?_
    | with_reducible refine (State.onRail_keeps ..).step (by decide) ?_
    | with_reducible refine (finishStart_keeps ..).step (by decide) ?_
    | with_reducible refine (finishStops_keeps ..).step (by decide) ?_
    | with_reducible refine Keeps.ite ?_ ?_
    | intro _ _ _

theorem masterFaults_keeps (a1) (s : State) :
    Keeps [.hm, .hif, .ldg] s (masterFaults a1 s) := by
  unfold masterFaults; try dsimp only
  repeat' first
    | with_reducible assumption
    | with_reducible exact Keeps.refl _ _
    | with_reducible refine forList_keeps _ ?_ ?_
    | with_reducible refine (emitRail_keeps ..).step (by decide) ?_
    | intro _ _ _
    | intro _ _

theorem stopWithMaster_keeps (a1) (s : State) :
    Keeps [.clk, .rail, .loop, .hm, .hif, .ldg, .fw, .trs, .syn] s (stopWithMaster a1 s) := by
  unfold stopWithMaster; try dsimp only
  repeat' first
    | with_reducible exact Keeps.refl _ _
    | with_reducible refine (masterFaults_keeps ..).step (by decide) ?_
    | with_reducible refine (fastStop_keeps ..).step (by decide) ?_

theorem stopTrackers_keeps (a1) (s : State) :
    Keeps [.clk, .rail, .loop, .hm, .hif, .ldg, .fw, .trs, .syn] s (stopTrackers a1 s) := by
  unfold stopTrackers; try dsimp only
  repeat' first
    | with_reducible assumption
    | with_reducible exact Keeps.refl _ _
    | with_reducible refine (stopWithMaster_keeps ..).step (by decide) ?_
    | intro _ _ _
    | intro _ _

theorem rampDown_keeps (a1 a2) (s : State) :
    Keeps [.clk, .rail, .loop, .hm, .hif, .ldg, .fw, .trs, .syn] s (rampDown a1 a2 s) := by
  unfold rampDown; try dsimp only
  repeat' first
    | with_reducible exact Keeps.refl _ _
    | with_reducible refine (stopWithMaster_keeps ..).step (by decide) ?_
    | with_reducible refine (State.updProt_keeps ..).step (by decide) ?_
    | with_reducible refine (State.updReg_keeps ..).step (by decide) ?_

theorem rampDownLevels_keeps (s : State) :
    Keeps [.clk, .rail, .loop, .hm, .hif, .ldg, .fw, .trs, .syn] s (rampDownLevels s) := by
  unfold rampDownLevels; try dsimp only
  repeat' first
    | with_reducible assumption
    | with_reducible exact Keeps.refl _ _
    | with_reducible refine forList_keeps _ ?_ ?_
    | with_reducible refine (rampDown_keeps ..).step (by decide) ?_
    | with_reducible refine Keeps.ite ?_ ?_
    | intro _ _ _
    | intro _ _

theorem railSettle_keeps (s : State) :
    Keeps [.clk, .rail, .loop, .hm, .hif, .ldg, .fw, .trs, .syn] s (railSettle s) := by
  unfold railSettle; try dsimp only
  repeat' first
    | with_reducible exact Keeps.refl _ _
    | with_reducible refine (finishStart_keeps ..).step (by decide) ?_
    | with_reducible refine (finishStops_keeps ..).step (by decide) ?_
    | with_reducible refine (rampDownLevels_keeps ..).step (by decide) ?_

theorem countStop_keeps (a1) (s : State) :
    Keeps [.rail, .hm, .hif, .ldg] s (countStop a1 s) := by
  unfold countStop; try dsimp only
  repeat' first
    | with_reducible exact Keeps.refl _ _
    | with_reducible refine (State.updProt_keeps ..).step (by decide) ?_
    | with_reducible refine (emitRail_keeps ..).step (by decide) ?_
    | with_reducible refine Keeps.ite ?_ ?_

theorem protStop_keeps (a1 a2) (s : State) :
    Keeps [.clk, .rail, .loop, .hm, .hif, .ldg, .fw, .trs, .syn] s (protStop a1 a2 s) := by
  unfold protStop; try dsimp only
  repeat' first
    | with_reducible exact Keeps.refl _ _
    | with_reducible refine (railSettle_keeps ..).step (by decide) ?_
    | with_reducible refine (countStop_keeps ..).step (by decide) ?_
    | with_reducible refine (stopTrackers_keeps ..).step (by decide) ?_
    | with_reducible refine (railFault_keeps ..).step (by decide) ?_

theorem fastStopAll_keeps (a1) (s : State) :
    Keeps [.clk, .rail, .loop, .hm, .hif, .ldg, .fw, .trs, .syn] s (fastStopAll a1 s) := by
  unfold fastStopAll; try dsimp only
  repeat' first
    | with_reducible exact Keeps.refl _ _
    | with_reducible refine (railSettle_keeps ..).step (by decide) ?_
    | with_reducible refine (fastStop_keeps ..).step (by decide) ?_
    | with_reducible refine (State.onRail_keeps ..).step (by decide) ?_

theorem audAbandon_keeps (a1) (s : State) :
    Keeps [.hm, .hif, .ldg, .fc, .trs, .aud] s (audAbandon a1 s) := by
  unfold audAbandon; try dsimp only
  repeat' first
    | with_reducible exact Keeps.refl _ _
    | with_reducible refine (State.onAud_keeps ..).step (by decide) ?_
    | with_reducible refine (State.updUnit_keeps ..).step (by decide) ?_
    | with_reducible refine (emitClerk_keeps ..).step (by decide) ?_
    | with_reducible refine (complete_keeps ..).step (by decide) ?_
    | split

theorem unitFree_keeps (a1 a2) (s : State) :
    Keeps [.hm, .hif, .ldg, .aud] s (unitFree a1 a2 s) := by
  unfold unitFree; try dsimp only
  repeat' first
    | with_reducible exact Keeps.refl _ _
    | with_reducible refine (State.updUnit_keeps ..).step (by decide) ?_
    | with_reducible refine (emitClerk_keeps ..).step (by decide) ?_
    | with_reducible refine Keeps.ite ?_ ?_

theorem audYield_keeps (a1) (s : State) :
    Keeps [.rail, .hm, .hif, .ldg, .fc, .trs, .aud] s (audYield a1 s) := by
  unfold audYield; try dsimp only
  repeat' first
    | with_reducible assumption
    | with_reducible exact Keeps.refl _ _
    | with_reducible refine forList_keeps _ ?_ ?_
    | with_reducible refine (audAbandon_keeps ..).step (by decide) ?_
    | with_reducible refine (State.updPh_keeps ..).step (by decide) ?_
    | with_reducible refine (unitFree_keeps ..).step (by decide) ?_
    | with_reducible refine Keeps.ite ?_ ?_
    | split
    | intro _ _ _
    | intro _ _

theorem refuseStart_keeps (a1 a2) (s : State) :
    Keeps [.clk, .rail, .loop, .hm, .hif, .ldg, .fw, .trs, .syn] s (refuseStart a1 a2 s) := by
  unfold refuseStart; try dsimp only
  repeat' first
    | with_reducible exact Keeps.refl _ _
    | with_reducible refine (stopTrackers_keeps ..).step (by decide) ?_
    | with_reducible refine (railFault_keeps ..).step (by decide) ?_

theorem checkCapacity_keeps (a1) (s : State) :
    Keeps [.clk, .rail, .frec, .loop, .hm, .hif, .ldg, .fw, .fc, .trs, .syn, .aud] s (checkCapacity a1 s) := by
  unfold checkCapacity; try dsimp only
  repeat' first
    | with_reducible exact Keeps.refl _ _
    | with_reducible refine (audYield_keeps ..).step (by decide) ?_
    | with_reducible refine (railSettle_keeps ..).step (by decide) ?_
    | with_reducible refine (refuseStart_keeps ..).step (by decide) ?_
    | with_reducible refine (emitRail_keeps ..).step (by decide) ?_
    | with_reducible refine (protStop_keeps ..).step (by decide) ?_
    | with_reducible refine (frecTake_keeps ..).step (by decide) ?_
    | with_reducible refine Keeps.ite ?_ ?_

theorem disablePhase_keeps (a1 a2) (s : State) :
    Keeps [.clk, .rail, .frec, .loop, .hm, .hif, .ldg, .fw, .fc, .trs, .syn, .aud] s (disablePhase a1 a2 s) := by
  unfold disablePhase; try dsimp only
  repeat' first
    | with_reducible exact Keeps.refl _ _
    | with_reducible refine (State.updPh_keeps ..).step (by decide) ?_
    | with_reducible refine (checkCapacity_keeps ..).step (by decide) ?_
    | with_reducible refine Keeps.ite ?_ ?_

theorem crowbar_keeps (a1) (s : State) :
    Keeps [.clk, .rail, .loop, .hm, .hif, .ldg, .fw, .trs, .syn] s (crowbar a1 s) := by
  unfold crowbar; try dsimp only
  repeat' first
    | with_reducible assumption
    | with_reducible exact Keeps.refl _ _
    | with_reducible refine forList_keeps _ ?_ ?_
    | with_reducible refine (State.updPh_keeps ..).step (by decide) ?_
    | with_reducible refine (brakeStop_keeps ..).step (by decide) ?_
    | with_reducible refine (stopClustersOf_keeps ..).step (by decide) ?_
    | with_reducible refine (State.updProt_keeps ..).step (by decide) ?_
    | with_reducible refine (State.updReg_keeps ..).step (by decide) ?_
    | intro _ _ _
    | intro _ _


end Sys2Proof.Machine
end

