-- ==== Sys2Proof/Laws/ClkOps.lean ====
section
/-!
SUPPORT. What the operations of Machine/ClkOps.lean may change.
-/
namespace Sys2Proof.Machine

theorem sendGuards_keeps (a1 a2) (s : State) :
    Keeps [.clk] s (sendGuards a1 a2 s) := by
  unfold sendGuards; try dsimp only
  repeat' first
    | with_reducible assumption
    | with_reducible exact Keeps.refl _ _
    | with_reducible refine forList_keeps _ ?_ ?_
    | with_reducible refine (State.updDom_keeps ..).step (by decide) ?_
    | with_reducible refine Keeps.ite ?_ ?_
    | intro _ _ _

theorem endGuards_keeps (s : State) :
    Keeps [.clk] s (endGuards s) := by
  unfold endGuards; try dsimp only
  repeat' first
    | with_reducible assumption
    | with_reducible exact Keeps.refl _ _
    | with_reducible refine forList_keeps _ ?_ ?_
    | with_reducible refine (State.updDom_keeps ..).step (by decide) ?_
    | with_reducible refine (putDiv_keeps ..).step (by decide) ?_
    | with_reducible refine Keeps.ite ?_ ?_
    | intro _ _ _
    | intro _ _

theorem rootRelease_keeps (s : State) :
    Keeps [.clk, .loop, .hm, .hif, .ldg] s (rootRelease s) := by
  unfold rootRelease; try dsimp only
  repeat' first
    | with_reducible assumption
    | with_reducible exact Keeps.refl _ _
    | with_reducible refine forList_keeps _ ?_ ?_
    | with_reducible refine (restartAll_keeps ..).step (by decide) ?_
    | with_reducible refine (State.updClu_keeps ..).step (by decide) ?_
    | intro _ _ _
    | intro _ _

theorem rootFinish_keeps (a1) (s : State) :
    Keeps [.clk, .loop, .hm, .hif, .ldg] s (rootFinish a1 s) := by
  unfold rootFinish; try dsimp only
  repeat' first
    | with_reducible assumption
    | with_reducible exact Keeps.refl _ _
    | with_reducible refine (State.onClk_keeps ..).step (by decide) ?_
    | with_reducible refine (rootRelease_keeps ..).step (by decide) ?_
    | with_reducible refine (endGuards_keeps ..).step (by decide) ?_
    | with_reducible refine (emitClk_keeps ..).step (by decide) ?_
    | with_reducible refine Keeps.ite ?_ ?_
    | split
    | intro _ _ _
    | intro _ _

theorem rootStep1_keeps (s : State) : Keeps [.clk] s (rootStep1 s) := by
  unfold rootStep1; split
  · exact Keeps.ite (State.onClk_keeps ..) (Keeps.refl ..)
  · exact Keeps.refl ..

theorem rootStep2_keeps (s : State) : Keeps [.clk] s (rootStep2 s) := by
  unfold rootStep2; split
  · exact Keeps.ite (State.onClk_keeps ..) (Keeps.refl ..)
  · exact Keeps.refl ..

theorem rootStep5_keeps (s : State) :
    Keeps [.clk, .loop, .hm, .hif, .ldg] s (rootStep5 s) := by
  unfold rootStep5; split
  · exact Keeps.ite (rootFinish_keeps ..) (Keeps.refl ..)
  · exact Keeps.refl ..

theorem rootAdvance_keeps (s : State) :
    Keeps [.clk, .loop, .hm, .hif, .ldg] s (rootAdvance s) :=
  (rootStep5_keeps _).step (by decide) ((rootStep2_keeps _).step (by decide) ((rootStep1_keeps s).mono (by decide)))

theorem rootLock_keeps (a1 a2 a3) (s : State) :
    Keeps [.clk] s (rootLock a1 a2 a3 s) := by
  unfold rootLock; try dsimp only
  repeat' first
    | with_reducible exact Keeps.refl _ _
    | with_reducible refine (State.onClk_keeps ..).step (by decide) ?_

theorem holdExit_keeps (s : State) :
    Keeps [.tb] s (holdExit s) := by
  unfold holdExit; try dsimp only
  repeat' first
    | with_reducible exact Keeps.refl _ _
    | with_reducible refine (State.onTb_keeps ..).step (by decide) ?_

theorem holdExitRec_keeps (s : State) :
    Keeps [.hm, .hif, .ldg] s (holdExitRec s) := by
  unfold holdExitRec; try dsimp only
  repeat' first
    | with_reducible exact Keeps.refl _ _
    | with_reducible refine (emitClk_keeps ..).step (by decide) ?_

theorem refStable_keeps (s : State) :
    Keeps [.pwr, .tb, .clk, .hm, .hif, .ldg] s (refStable s) := by
  unfold refStable; try dsimp only
  repeat' first
    | with_reducible exact Keeps.refl _ _
    | with_reducible refine (State.onClk_keeps ..).step (by decide) ?_
    | with_reducible refine (holdExit_keeps ..).step (by decide) ?_
    | with_reducible refine (holdExitRec_keeps ..).step (by decide) ?_
    | with_reducible refine (emitClk_keeps ..).step (by decide) ?_
    | with_reducible refine (rootLock_keeps ..).step (by decide) ?_
    | with_reducible refine (State.onPwr_keeps ..).step (by decide) ?_
    | with_reducible refine Keeps.ite ?_ ?_

theorem stopAllClocks_keeps (a1) (s : State) :
    Keeps [.clk, .loop, .hm, .hif, .ldg, .fw, .trs, .syn] s (stopAllClocks a1 s) := by
  unfold stopAllClocks; try dsimp only
  repeat' first
    | with_reducible assumption
    | with_reducible exact Keeps.refl _ _
    | with_reducible refine forList_keeps _ ?_ ?_
    | with_reducible refine (cluStop_keeps ..).step (by decide) ?_
    | with_reducible refine (State.updClu_keeps ..).step (by decide) ?_
    | with_reducible refine (domStopNow_keeps ..).step (by decide) ?_
    | intro _ _ _
    | intro _ _

theorem refLossCore_keeps (a1 a2) (s : State) :
    Keeps [.pwr, .tb, .clk, .loop, .hm, .hif, .ldg, .fw, .trs, .syn, .clr] s (refLossCore a1 a2 s) := by
  unfold refLossCore; try dsimp only
  repeat' first
    | with_reducible assumption
    | with_reducible exact Keeps.refl _ _
    | with_reducible refine (State.onClk_keeps ..).step (by decide) ?_
    | with_reducible refine (State.onTb_keeps ..).step (by decide) ?_
    | with_reducible refine (emitClk_keeps ..).step (by decide) ?_
    | with_reducible refine (clrHoldEnter_keeps ..).step (by decide) ?_
    | with_reducible refine forList_keeps _ ?_ ?_
    | with_reducible refine (State.updDom_keeps ..).step (by decide) ?_
    | with_reducible refine (setAlarm_keeps ..).step (by decide) ?_
    | with_reducible refine (stopAllClocks_keeps ..).step (by decide) ?_
    | with_reducible refine Keeps.ite ?_ ?_
    | intro _ _ _

theorem refBreak_keeps {ps : List Area} {r s : State} {loss : State → State} (hl : ∀ u, Keeps ps r u → Keeps ps r (loss u))
    (hp : Area.clk ∈ ps) (h : Keeps ps r s) : Keeps ps r (refBreak loss s) := by
  unfold refBreak
  exact .ite (hl s h) ((State.onClk_keeps ..).step (by simpa using hp) h)

theorem rootRequest_keeps (a1 a2) (s : State) :
    Keeps [.clk] s (rootRequest a1 a2 s) := by
  unfold rootRequest; try dsimp only
  repeat' first
    | with_reducible exact Keeps.refl _ _
    | with_reducible refine (State.onClk_keeps ..).step (by decide) ?_

theorem rootStart_keeps (s : State) :
    Keeps [.clk, .loop, .hm, .hif, .ldg] s (rootStart s) := by
  unfold rootStart; try dsimp only
  repeat' first
    | with_reducible exact Keeps.refl _ _
    | with_reducible refine (State.onClk_keeps ..).step (by decide) ?_
    | with_reducible refine (rootAdvance_keeps ..).step (by decide) ?_
    | with_reducible refine (sendGuards_keeps ..).step (by decide) ?_
    | with_reducible refine Keeps.ite ?_ ?_
    | split

theorem pllFail_keeps (s : State) :
    Keeps [.pwr, .clk, .loop, .hm, .hif, .ldg, .fw, .trs, .syn] s (pllFail s) := by
  unfold pllFail; try dsimp only
  repeat' first
    | with_reducible assumption
    | with_reducible exact Keeps.refl _ _
    | with_reducible refine forList_keeps _ ?_ ?_
    | with_reducible refine (State.onClk_keeps ..).step (by decide) ?_
    | with_reducible refine (State.updDom_keeps ..).step (by decide) ?_
    | with_reducible refine (setAlarm_keeps ..).step (by decide) ?_
    | with_reducible refine (stopAllClocks_keeps ..).step (by decide) ?_
    | with_reducible refine (emitClk_keeps ..).step (by decide) ?_
    | with_reducible refine Keeps.ite ?_ ?_
    | split
    | intro _ _ _
    | intro _ _


end Sys2Proof.Machine
end

