-- ==== Sys2Proof/Laws/SiteOps.lean ====
section
/-!
SUPPORT. What the operations of Machine/SiteOps.lean may change.
-/
namespace Sys2Proof.Machine

theorem bandUpdate_keeps (a1) (s : State) :
    Keeps [.sns] s (bandUpdate a1 s) := by
  unfold bandUpdate; try dsimp only
  repeat' first
    | with_reducible exact Keeps.refl _ _
    | with_reducible refine (State.updSite_keeps ..).step (by decide) ?_
    | with_reducible refine Keeps.ite ?_ ?_
    | split

theorem dwellUpdate_keeps (s : State) :
    Keeps [.aud] s (dwellUpdate s) := by
  unfold dwellUpdate; try dsimp only
  repeat' first
    | with_reducible exact Keeps.refl _ _
    | with_reducible refine (State.onAud_keeps ..).step (by decide) ?_
    | with_reducible refine Keeps.ite ?_ ?_
    | split

theorem tripPending_keeps (a1) (s : State) :
    Keeps [.loop, .hm, .hif, .ldg] s (tripPending a1 s) := by
  unfold tripPending; try dsimp only
  repeat' first
    | with_reducible exact Keeps.refl _ _
    | with_reducible refine (emitCp_keeps ..).step (by decide) ?_
    | with_reducible refine (capCluster_keeps ..).step (by decide) ?_
    | with_reducible refine (State.updClu_keeps ..).step (by decide) ?_
    | with_reducible refine (presetLoops_keeps ..).step (by decide) ?_
    | with_reducible refine Keeps.ite ?_ ?_
    | split

theorem noNeighbour_keeps (a1) (s : State) :
    Keeps [.pwr, .sns, .hm, .hif, .ldg] s (noNeighbour a1 s) := by
  unfold noNeighbour; try dsimp only
  repeat' first
    | with_reducible exact Keeps.refl _ _
    | with_reducible refine (emitSns_keeps ..).step (by decide) ?_
    | with_reducible refine (setAlarm_keeps ..).step (by decide) ?_
    | with_reducible refine (State.updSite_keeps ..).step (by decide) ?_
    | with_reducible refine Keeps.ite ?_ ?_

theorem siteShift_keeps (a1) (s : State) :
    Keeps [.sns, .loop, .hm, .hif, .ldg] s (siteShift a1 s) := by
  unfold siteShift; try dsimp only
  repeat' first
    | with_reducible exact Keeps.refl _ _
    | with_reducible refine (tripPending_keeps ..).step (by decide) ?_
    | with_reducible refine (bandUpdate_keeps ..).step (by decide) ?_

theorem oscSite_keeps (s : State) :
    Keeps [.clk, .hm, .hif, .ldg] s (oscSite s) := by
  unfold oscSite; try dsimp only
  repeat' first
    | with_reducible exact Keeps.refl _ _
    | with_reducible refine (emitClk_keeps ..).step (by decide) ?_
    | with_reducible refine (State.onClk_keeps ..).step (by decide) ?_
    | with_reducible refine Keeps.ite ?_ ?_

theorem oscComp_keeps (a1) (s : State) :
    Keeps [.clk, .free] s (oscComp a1 s) := by
  unfold oscComp; try dsimp only
  repeat' first
    | with_reducible exact Keeps.refl _ _
    | with_reducible refine (State.onClk_keeps ..).step (by decide) ?_
    | with_reducible refine (State.drawn_keeps ..).step (by decide) ?_
    | with_reducible refine Keeps.ite ?_ ?_

theorem siteChanged_keeps (a1) (s : State) :
    Keeps [.pwr, .clk, .sns, .loop, .hm, .hif, .ldg, .aud] s (siteChanged a1 s) := by
  unfold siteChanged; try dsimp only
  repeat' first
    | with_reducible assumption
    | with_reducible exact Keeps.refl _ _
    | with_reducible refine forList_keeps _ ?_ ?_
    | with_reducible refine (oscSite_keeps ..).step (by decide) ?_
    | with_reducible refine (dwellUpdate_keeps ..).step (by decide) ?_
    | with_reducible refine (tripPending_keeps ..).step (by decide) ?_
    | with_reducible refine (noNeighbour_keeps ..).step (by decide) ?_
    | with_reducible refine (bandUpdate_keeps ..).step (by decide) ?_
    | intro _ _ _
    | intro _ _

theorem tapTemps_keeps (a1) (s : State) :
    Keeps [.sns] s (tapTemps a1 s) := by
  unfold tapTemps; try dsimp only
  repeat' first
    | with_reducible assumption
    | with_reducible exact Keeps.refl _ _
    | with_reducible refine forList_keeps _ ?_ ?_
    | with_reducible refine (State.updDet_keeps ..).step (by decide) ?_
    | with_reducible refine Keeps.ite ?_ ?_
    | intro _ _ _
    | split

theorem noMajorityStep1_keeps (s : State) :
    Keeps [.clk, .loop, .hm, .hif, .ldg] s (noMajorityStep1 s) := by
  unfold noMajorityStep1; try dsimp only
  repeat' first
    | with_reducible assumption
    | with_reducible exact Keeps.refl _ _
    | with_reducible refine forList_keeps _ ?_ ?_
    | with_reducible refine (presetLoops_keeps ..).step (by decide) ?_
    | with_reducible refine (State.updClu_keeps ..).step (by decide) ?_
    | with_reducible refine (sendDiv_keeps ..).step (by decide) ?_
    | with_reducible refine Keeps.ite ?_ ?_
    | intro _ _ _


end Sys2Proof.Machine
end

