-- ==== Sys2Proof/Laws/PageOps.lean ====
section
/-!
SUPPORT. What the operations of Machine/PageOps.lean may change.
-/
namespace Sys2Proof.Machine

theorem hmNext_keeps (s : State) :
    Keeps [.hm] s (hmNext s) := by
  unfold hmNext; try dsimp only
  repeat' first
    | with_reducible exact Keeps.refl _ _
    | with_reducible refine (State.onHm_keeps ..).step (by decide) ?_
    | with_reducible refine Keeps.ite ?_ ?_
    | split

theorem hmPump_keeps (s : State) :
    Keeps [.hm] s (hmPump s) := by
  unfold hmPump; try dsimp only
  repeat' first
    | with_reducible assumption
    | with_reducible exact Keeps.refl _ _
    | with_reducible refine forList_keeps _ ?_ ?_
    | with_reducible refine (hmNext_keeps ..).step (by decide) ?_
    | intro _ _ _
    | intro _ _

theorem hmIssue_keeps (a1 a2 a3) (s : State) :
    Keeps [.hm] s (hmIssue a1 a2 a3 s) := by
  unfold hmIssue; try dsimp only
  repeat' first
    | with_reducible exact Keeps.refl _ _
    | with_reducible refine (hmPump_keeps ..).step (by decide) ?_
    | with_reducible refine (State.onHm_keeps ..).step (by decide) ?_
    | with_reducible refine Keeps.ite ?_ ?_
    | split

theorem hmFree_keeps (a1) (s : State) :
    Keeps [.hm] s (hmFree a1 s) := by
  unfold hmFree; try dsimp only
  repeat' first
    | with_reducible exact Keeps.refl _ _
    | with_reducible refine (hmNext_keeps ..).step (by decide) ?_
    | with_reducible refine (State.onHm_keeps ..).step (by decide) ?_
    | split

theorem hmResume_keeps (s : State) :
    Keeps [.hm] s (hmResume s) := by
  unfold hmResume; try dsimp only
  repeat' first
    | with_reducible exact Keeps.refl _ _
    | with_reducible refine (hmPump_keeps ..).step (by decide) ?_
    | with_reducible refine (State.onHm_keeps ..).step (by decide) ?_
    | with_reducible refine Keeps.ite ?_ ?_

theorem hmDrop_keeps (a1) (s : State) :
    Keeps [.hm] s (hmDrop a1 s) := by
  unfold hmDrop; try dsimp only
  repeat' first
    | with_reducible assumption
    | with_reducible exact Keeps.refl _ _
    | with_reducible refine forList_keeps _ ?_ ?_
    | with_reducible refine (State.onHm_keeps ..).step (by decide) ?_
    | with_reducible refine Keeps.ite ?_ ?_
    | split
    | intro _ _ _
    | intro _ _

theorem pageAsk_keeps (a1 a2) (s : State) :
    Keeps [.hm] s (pageAsk a1 a2 s) := by
  unfold pageAsk; try dsimp only
  repeat' first
    | with_reducible exact Keeps.refl _ _
    | with_reducible refine (hmIssue_keeps ..).step (by decide) ?_

theorem pageStart_keeps (a1) (s : State) :
    Keeps [.hm, .hif, .ldg, .tly] s (pageStart a1 s) := by
  unfold pageStart; try dsimp only
  repeat' first
    | with_reducible exact Keeps.refl _ _
    | with_reducible refine (State.onTly_keeps ..).step (by decide) ?_
    | with_reducible refine (emitTly_keeps ..).step (by decide) ?_
    | with_reducible refine (State.updSet_keeps ..).step (by decide) ?_
    | with_reducible refine (pageAsk_keeps ..).step (by decide) ?_
    | with_reducible refine Keeps.ite ?_ ?_
    | split

theorem pageEnd_keeps (a1 a2) (s : State) :
    Keeps [.hm, .hif, .ldg, .tly] s (pageEnd a1 a2 s) := by
  unfold pageEnd; try dsimp only
  repeat' first
    | with_reducible exact Keeps.refl _ _
    | with_reducible refine (hmDrop_keeps ..).step (by decide) ?_
    | with_reducible refine (State.onTly_keeps ..).step (by decide) ?_
    | with_reducible refine (State.updSet_keeps ..).step (by decide) ?_
    | with_reducible refine (emitTly_keeps ..).step (by decide) ?_
    | with_reducible refine Keeps.ite ?_ ?_
    | split

theorem pageWhole_keeps (a1 a2 a3 a4) (s : State) :
    Keeps [.hm, .hif, .ldg, .tly] s (pageWhole a1 a2 a3 a4 s) := by
  unfold pageWhole; try dsimp only
  repeat' first
    | with_reducible exact Keeps.refl _ _
    | with_reducible refine (pageAsk_keeps ..).step (by decide) ?_
    | with_reducible refine (State.onTly_keeps ..).step (by decide) ?_
    | with_reducible refine (pageEnd_keeps ..).step (by decide) ?_
    | with_reducible refine Keeps.ite ?_ ?_

theorem pageArrive_keeps (a1 a2 a3 a4) (s : State) :
    Keeps [.hm, .hif, .ldg, .tly] s (pageArrive a1 a2 a3 a4 s) := by
  unfold pageArrive; try dsimp only
  repeat' first
    | with_reducible exact Keeps.refl _ _
    | with_reducible refine (State.onTly_keeps ..).step (by decide) ?_
    | with_reducible refine (pageWhole_keeps ..).step (by decide) ?_
    | with_reducible refine Keeps.ite ?_ ?_
    | split

theorem pageCheck_keeps (s : State) :
    Keeps [.hm, .hif, .ldg, .tly] s (pageCheck s) := by
  unfold pageCheck; try dsimp only
  repeat' first
    | with_reducible exact Keeps.refl _ _
    | with_reducible refine (pageEnd_keeps ..).step (by decide) ?_
    | with_reducible refine (State.onTly_keeps ..).step (by decide) ?_
    | with_reducible refine (pageAsk_keeps ..).step (by decide) ?_
    | with_reducible refine (State.updSet_keeps ..).step (by decide) ?_
    | with_reducible refine (emitTly_keeps ..).step (by decide) ?_
    | with_reducible refine Keeps.ite ?_ ?_
    | split


end Sys2Proof.Machine
end

