-- ==== Sys2Proof/Laws/SynOps.lean ====
section
/-!
SUPPORT. What the operations of Machine/SynOps.lean may change.
-/
namespace Sys2Proof.Machine

theorem waitMark_keeps (a1) (s : State) :
    Keeps [.syn] s (waitMark a1 s) := by
  unfold waitMark; try dsimp only
  repeat' first
    | with_reducible exact Keeps.refl _ _
    | with_reducible refine (State.updCore_keeps ..).step (by decide) ?_

theorem coreUpdate_keeps (a1) (s : State) :
    Keeps [.hm, .hif, .ldg, .trs, .syn] s (coreUpdate a1 s) := by
  unfold coreUpdate; try dsimp only
  repeat' first
    | with_reducible exact Keeps.refl _ _
    | with_reducible refine (State.updCore_keeps ..).step (by decide) ?_
    | with_reducible refine (reclaimCore_keeps ..).step (by decide) ?_
    | with_reducible refine Keeps.ite ?_ ?_

theorem setWaiter_keeps (a1 a2) (s : State) :
    Keeps [.hm, .hif, .ldg, .trs, .syn] s (setWaiter a1 a2 s) := by
  unfold setWaiter; try dsimp only
  repeat' first
    | with_reducible exact Keeps.refl _ _
    | with_reducible refine (coreUpdate_keeps ..).step (by decide) ?_
    | with_reducible refine (waitMark_keeps ..).step (by decide) ?_
    | with_reducible refine (State.onSyn_keeps ..).step (by decide) ?_

theorem epRespond_keeps (a1 a2 a3 a4 a5) (s : State) :
    Keeps [.ep] s (epRespond a1 a2 a3 a4 a5 s) := by
  unfold epRespond; try dsimp only
  repeat' first
    | with_reducible exact Keeps.refl _ _
    | with_reducible refine (State.updEp_keeps ..).step (by decide) ?_

theorem waitRespond_keeps (a1 a2 a3) (s : State) :
    Keeps [.ep] s (waitRespond a1 a2 a3 s) := by
  unfold waitRespond; try dsimp only
  repeat' first
    | with_reducible exact Keeps.refl _ _
    | with_reducible refine (epRespond_keeps ..).step (by decide) ?_

theorem releaseWait_keeps (a1 a2) (s : State) :
    Keeps [.hm, .ep, .hif, .ldg, .trs, .syn] s (releaseWait a1 a2 s) := by
  unfold releaseWait; try dsimp only
  repeat' first
    | with_reducible exact Keeps.refl _ _
    | with_reducible refine (setWaiter_keeps ..).step (by decide) ?_
    | with_reducible refine (waitRespond_keeps ..).step (by decide) ?_
    | with_reducible refine (State.updCore_keeps ..).step (by decide) ?_

theorem withdraw_keeps (a1) (s : State) :
    Keeps [.syn] s (withdraw a1 s) := by
  unfold withdraw; try dsimp only
  repeat' first
    | with_reducible exact Keeps.refl _ _
    | with_reducible refine (State.updGrp_keeps ..).step (by decide) ?_
    | with_reducible refine Keeps.ite ?_ ?_
    | split

theorem reportFail_keeps (a1 a2 a3) (s : State) :
    Keeps [.hm, .hif, .ldg, .syn] s (reportFail a1 a2 a3 s) := by
  unfold reportFail; try dsimp only
  repeat' first
    | with_reducible exact Keeps.refl _ _
    | with_reducible refine (State.updCtx_keeps ..).step (by decide) ?_
    | with_reducible refine (State.onSyn_keeps ..).step (by decide) ?_
    | with_reducible refine (emitSyn_keeps ..).step (by decide) ?_
    | with_reducible refine Keeps.ite ?_ ?_

theorem failWait_keeps (a1 a2) (s : State) :
    Keeps [.hm, .ep, .hif, .ldg, .trs, .syn] s (failWait a1 a2 s) := by
  unfold failWait; try dsimp only
  repeat' first
    | with_reducible exact Keeps.refl _ _
    | with_reducible refine (waitRespond_keeps ..).step (by decide) ?_
    | with_reducible refine (setWaiter_keeps ..).step (by decide) ?_
    | with_reducible refine (withdraw_keeps ..).step (by decide) ?_
    | with_reducible refine (reportFail_keeps ..).step (by decide) ?_
    | with_reducible refine Keeps.ite ?_ ?_
    | split

theorem releaseOn_keeps (a1) (s : State) :
    Keeps [.hm, .ep, .hif, .ldg, .trs, .syn] s (releaseOn a1 s) := by
  unfold releaseOn; try dsimp only
  repeat' first
    | with_reducible assumption
    | with_reducible exact Keeps.refl _ _
    | with_reducible refine forList_keeps _ ?_ ?_
    | with_reducible refine (releaseWait_keeps ..).step (by decide) ?_
    | with_reducible refine Keeps.ite ?_ ?_
    | intro _ _ _

theorem countRace_keeps (a1 a2 a3) (s : State) :
    Keeps [.hm, .hif, .ldg, .syn] s (countRace a1 a2 a3 s) := by
  unfold countRace; try dsimp only
  repeat' first
    | with_reducible exact Keeps.refl _ _
    | with_reducible refine (State.onSyn_keeps ..).step (by decide) ?_
    | with_reducible refine (emitSyn_keeps ..).step (by decide) ?_
    | with_reducible refine Keeps.ite ?_ ?_

theorem flagOp_keeps (a1 a2 a3) (s : State) :
    Keeps [.hm, .hif, .ldg, .syn] s (flagOp a1 a2 a3 s) := by
  unfold flagOp; try dsimp only
  repeat' first
    | with_reducible exact Keeps.refl _ _
    | with_reducible refine (State.updObj_keeps ..).step (by decide) ?_
    | with_reducible refine (countRace_keeps ..).step (by decide) ?_
    | with_reducible refine Keeps.ite ?_ ?_
    | split

theorem countErr_keeps (a1 a2 a3 a4 a5) (s : State) :
    Keeps [.hm, .hif, .ldg, .syn] s (countErr a1 a2 a3 a4 a5 s) := by
  unfold countErr; try dsimp only
  repeat' first
    | with_reducible exact Keeps.refl _ _
    | with_reducible refine (State.onSyn_keeps ..).step (by decide) ?_
    | with_reducible refine (emitSyn_keeps ..).step (by decide) ?_
    | with_reducible refine Keeps.ite ?_ ?_

theorem countOp_keeps (a1 a2 a3 a4 a5 a6) (s : State) :
    Keeps [.hm, .ep, .hif, .ldg, .trs, .syn] s (countOp a1 a2 a3 a4 a5 a6 s) := by
  unfold countOp; try dsimp only
  repeat' first
    | with_reducible exact Keeps.refl _ _
    | with_reducible refine (State.updObj_keeps ..).step (by decide) ?_
    | with_reducible refine (countErr_keeps ..).step (by decide) ?_
    | with_reducible refine (releaseOn_keeps ..).step (by decide) ?_
    | with_reducible refine (epRespond_keeps ..).step (by decide) ?_
    | with_reducible refine Keeps.ite ?_ ?_

theorem hold_keeps (a1 a2) (s : State) :
    Keeps [.hm, .hif, .ldg, .trs, .syn] s (hold a1 a2 s) := by
  unfold hold; try dsimp only
  repeat' first
    | with_reducible exact Keeps.refl _ _
    | with_reducible refine (setWaiter_keeps ..).step (by decide) ?_
    | with_reducible refine (State.onSyn_keeps ..).step (by decide) ?_

theorem rebase_keeps (a1) (s : State) :
    Keeps [.syn] s (rebase a1 s) := by
  unfold rebase; try dsimp only
  repeat' first
    | with_reducible assumption
    | with_reducible exact Keeps.refl _ _
    | with_reducible refine forList_keeps _ ?_ ?_
    | with_reducible refine (State.updObj_keeps ..).step (by decide) ?_
    | with_reducible refine (State.onSyn_keeps ..).step (by decide) ?_
    | intro _ _ _
    | intro _ _

theorem barrierComplete_keeps (a1) (s : State) :
    Keeps [.hm, .ep, .hif, .ldg, .trs, .syn] s (barrierComplete a1 s) := by
  unfold barrierComplete; try dsimp only
  repeat' first
    | with_reducible assumption
    | with_reducible exact Keeps.refl _ _
    | with_reducible refine forList_keeps _ ?_ ?_
    | with_reducible refine (releaseWait_keeps ..).step (by decide) ?_
    | with_reducible refine (rebase_keeps ..).step (by decide) ?_
    | with_reducible refine (State.updGrp_keeps ..).step (by decide) ?_
    | intro _ _ _
    | intro _ _

theorem arrive_keeps (a1 a2 a3 a4 a5 a6) (s : State) :
    Keeps [.hm, .ep, .hif, .ldg, .trs, .syn] s (arrive a1 a2 a3 a4 a5 a6 s) := by
  unfold arrive; try dsimp only
  repeat' first
    | with_reducible exact Keeps.refl _ _
    | with_reducible refine (hold_keeps ..).step (by decide) ?_
    | with_reducible refine (State.updGrp_keeps ..).step (by decide) ?_
    | with_reducible refine (barrierComplete_keeps ..).step (by decide) ?_
    | with_reducible refine (epRespond_keeps ..).step (by decide) ?_
    | with_reducible refine Keeps.ite ?_ ?_

theorem mapViolation_keeps (a1) (s : State) :
    Keeps [.hm, .hif, .ldg, .syn] s (mapViolation a1 s) := by
  unfold mapViolation; try dsimp only
  repeat' first
    | with_reducible exact Keeps.refl _ _
    | with_reducible refine (State.onSyn_keeps ..).step (by decide) ?_
    | with_reducible refine (emitSyn_keeps ..).step (by decide) ?_
    | with_reducible refine Keeps.ite ?_ ?_

theorem synPerform_keeps (a1 a2) (s : State) :
    Keeps [.hm, .ep, .hif, .ldg, .trs, .syn] s (synPerform a1 a2 s) := by
  unfold synPerform; try dsimp only
  repeat' first
    | with_reducible exact Keeps.refl _ _
    | with_reducible refine (epRespond_keeps ..).step (by decide) ?_
    | with_reducible refine (mapViolation_keeps ..).step (by decide) ?_
    | with_reducible refine (flagOp_keeps ..).step (by decide) ?_
    | with_reducible refine (releaseOn_keeps ..).step (by decide) ?_
    | with_reducible refine (hold_keeps ..).step (by decide) ?_
    | with_reducible refine (countOp_keeps ..).step (by decide) ?_
    | with_reducible refine (arrive_keeps ..).step (by decide) ?_
    | with_reducible refine Keeps.ite ?_ ?_
    | split

theorem clearObj_keeps (a1) (s : State) :
    Keeps [.syn] s (clearObj a1 s) := by
  unfold clearObj; try dsimp only
  repeat' first
    | with_reducible exact Keeps.refl _ _
    | with_reducible refine (State.updObj_keeps ..).step (by decide) ?_


end Sys2Proof.Machine
end

