-- ==== Sys2Proof/Laws/HintOps.lean ====
section
/-!
SUPPORT. What the operations of Machine/HintOps.lean may change.
-/
namespace Sys2Proof.Machine

theorem setHint_keeps (a1 a2 a3) (s : State) :
    Keeps [.fc] s (setHint a1 a2 a3 s) := by
  unfold setHint; try dsimp only
  repeat' first
    | with_reducible exact Keeps.refl _ _
    | with_reducible refine (State.onFc_keeps ..).step (by decide) ?_

theorem judgeCtx_keeps (a1) (s : State) :
    Keeps [.hm, .hif, .ldg, .fc] s (judgeCtx a1 s) := by
  unfold judgeCtx; try dsimp only
  repeat' first
    | with_reducible exact Keeps.refl _ _
    | with_reducible refine (emitTrs_keeps ..).step (by decide) ?_
    | with_reducible refine (dropHints_keeps ..).step (by decide) ?_
    | with_reducible refine (State.updHx_keeps ..).step (by decide) ?_
    | with_reducible refine Keeps.ite ?_ ?_

theorem hintEval_keeps (a1 a2) (s : State) :
    Keeps [.hm, .hif, .ldg, .fc] s (hintEval a1 a2 s) := by
  unfold hintEval; try dsimp only
  repeat' first
    | with_reducible exact Keeps.refl _ _
    | with_reducible refine (judgeCtx_keeps ..).step (by decide) ?_
    | with_reducible refine (State.updHx_keeps ..).step (by decide) ?_
    | with_reducible refine (State.updHc_keeps ..).step (by decide) ?_
    | with_reducible refine (setHint_keeps ..).step (by decide) ?_
    | with_reducible refine Keeps.ite ?_ ?_
    | split

theorem hintExpire_keeps (a1 a2) (s : State) :
    Keeps [.hm, .hif, .ldg, .fc] s (hintExpire a1 a2 s) := by
  unfold hintExpire; try dsimp only
  repeat' first
    | with_reducible exact Keeps.refl _ _
    | with_reducible refine (setHint_keeps ..).step (by decide) ?_
    | with_reducible refine (hintEval_keeps ..).step (by decide) ?_
    | with_reducible refine Keeps.ite ?_ ?_
    | split

theorem hintDue_keeps (a1) (s : State) :
    Keeps [.hm, .hif, .ldg, .fc] s (hintDue a1 s) := by
  unfold hintDue; try dsimp only
  repeat' first
    | with_reducible assumption
    | with_reducible exact Keeps.refl _ _
    | with_reducible refine forList_keeps _ ?_ ?_
    | with_reducible refine (hintExpire_keeps ..).step (by decide) ?_
    | with_reducible refine (hintEval_keeps ..).step (by decide) ?_
    | intro _ _ _
    | intro _ _

theorem hintEpochs_keeps (s : State) :
    Keeps [.fc] s (hintEpochs s) := by
  unfold hintEpochs; try dsimp only
  repeat' first
    | with_reducible exact Keeps.refl _ _
    | with_reducible refine (dropHints_keeps ..).step (by decide) ?_

theorem hintRefuse_keeps (a1 a2 a3) (s : State) :
    Keeps [.hm, .ep, .hif, .ldg, .fc] s (hintRefuse a1 a2 a3 s) := by
  unfold hintRefuse; try dsimp only
  repeat' first
    | with_reducible exact Keeps.refl _ _
    | with_reducible refine (State.updHc_keeps ..).step (by decide) ?_
    | with_reducible refine (State.updHx_keeps ..).step (by decide) ?_
    | with_reducible refine (epRespond_keeps ..).step (by decide) ?_
    | with_reducible refine (emitTrs_keeps ..).step (by decide) ?_
    | with_reducible refine Keeps.ite ?_ ?_

theorem hintRelease_keeps (a1 a2) (s : State) :
    Keeps [.ep, .fc] s (hintRelease a1 a2 s) := by
  unfold hintRelease; try dsimp only
  repeat' first
    | with_reducible assumption
    | with_reducible exact Keeps.refl _ _
    | with_reducible refine forList_keeps _ ?_ ?_
    | with_reducible refine (setHint_keeps ..).step (by decide) ?_
    | with_reducible refine (epRespond_keeps ..).step (by decide) ?_
    | with_reducible refine Keeps.ite ?_ ?_
    | intro _ _ _
    | split

theorem hintQueue_keeps (a1 a2) (s : State) :
    Keeps [.hm, .ep, .hif, .ldg, .fc] s (hintQueue a1 a2 s) := by
  unfold hintQueue; try dsimp only
  repeat' first
    | with_reducible exact Keeps.refl _ _
    | with_reducible refine (epRespond_keeps ..).step (by decide) ?_
    | with_reducible refine (State.updHc_keeps ..).step (by decide) ?_
    | with_reducible refine (setHint_keeps ..).step (by decide) ?_
    | with_reducible refine (hintRefuse_keeps ..).step (by decide) ?_
    | with_reducible refine Keeps.ite ?_ ?_
    | split

theorem hintPerform_keeps (a1 a2) (s : State) :
    Keeps [.hm, .ep, .hif, .ldg, .fc] s (hintPerform a1 a2 s) := by
  unfold hintPerform; try dsimp only
  repeat' first
    | with_reducible exact Keeps.refl _ _
    | with_reducible refine (hintDue_keeps ..).step (by decide) ?_
    | with_reducible refine (hintRefuse_keeps ..).step (by decide) ?_
    | with_reducible refine (hintRelease_keeps ..).step (by decide) ?_
    | with_reducible refine (hintQueue_keeps ..).step (by decide) ?_
    | with_reducible refine Keeps.ite ?_ ?_

theorem trustBack_keeps (a1) (s : State) :
    Keeps [.hm, .hif, .ldg, .fc] s (trustBack a1 s) := by
  unfold trustBack; try dsimp only
  repeat' first
    | with_reducible exact Keeps.refl _ _
    | with_reducible refine (emitTrs_keeps ..).step (by decide) ?_
    | with_reducible refine (State.updHx_keeps ..).step (by decide) ?_
    | with_reducible refine Keeps.ite ?_ ?_
    | split

theorem fcAsk_keeps (a1 a2) (s : State) :
    Keeps [.hm, .hif, .ldg, .tly, .fc] s (fcAsk a1 a2 s) := by
  unfold fcAsk; try dsimp only
  repeat' first
    | with_reducible exact Keeps.refl _ _
    | with_reducible refine (pageStart_keeps ..).step (by decide) ?_
    | with_reducible refine (State.updFcCl_keeps ..).step (by decide) ?_
    | with_reducible refine Keeps.ite ?_ ?_

theorem fcRepage_keeps (a1) (s : State) :
    Keeps [.hm, .hif, .ldg, .tly, .fc] s (fcRepage a1 s) := by
  unfold fcRepage; try dsimp only
  repeat' first
    | with_reducible exact Keeps.refl _ _
    | with_reducible refine (fcAsk_keeps ..).step (by decide) ?_
    | with_reducible refine Keeps.ite ?_ ?_
    | split

theorem fcBind_keeps (a1) (s : State) :
    Keeps [.hm, .hif, .ldg, .tly, .fc] s (fcBind a1 s) := by
  unfold fcBind; try dsimp only
  repeat' first
    | with_reducible exact Keeps.refl _ _
    | with_reducible refine (State.updFcCl_keeps ..).step (by decide) ?_
    | with_reducible refine (fcAsk_keeps ..).step (by decide) ?_
    | with_reducible refine (fcRepage_keeps ..).step (by decide) ?_
    | with_reducible refine (State.updSet_keeps ..).step (by decide) ?_
    | with_reducible refine (emitClerk_keeps ..).step (by decide) ?_
    | with_reducible refine Keeps.ite ?_ ?_
    | split

theorem fcBoundary_keeps (a1) (s : State) :
    Keeps [.hm, .hif, .ldg, .tly, .fc] s (fcBoundary a1 s) := by
  unfold fcBoundary; try dsimp only
  repeat' first
    | with_reducible exact Keeps.refl _ _
    | with_reducible refine (fcRepage_keeps ..).step (by decide) ?_
    | with_reducible refine (fcBind_keeps ..).step (by decide) ?_
    | split

theorem fcModel_keeps (a1) (s : State) :
    Keeps [.hm, .hif, .ldg, .fc] s (fcModel a1 s) := by
  unfold fcModel; try dsimp only
  repeat' first
    | with_reducible exact Keeps.refl _ _
    | with_reducible refine (emitClerk_keeps ..).step (by decide) ?_
    | with_reducible refine (State.updFcCl_keeps ..).step (by decide) ?_
    | with_reducible refine Keeps.ite ?_ ?_
    | split

theorem fcEvaluate_keeps (a1 a2 a3) (s : State) :
    Keeps [.fc] s (fcEvaluate a1 a2 a3 s) := by
  unfold fcEvaluate; try dsimp only
  repeat' first
    | with_reducible assumption
    | with_reducible exact Keeps.refl _ _
    | with_reducible refine (State.updFcCl_keeps ..).step (by decide) ?_
    | with_reducible refine Keeps.ite ?_ ?_
    | intro _ _ _
    | intro _ _

theorem fcGates_keeps (a1) (s : State) :
    Keeps [.hm, .hif, .ldg, .fc] s (fcGates a1 s) := by
  unfold fcGates; try dsimp only
  repeat' first
    | with_reducible assumption
    | with_reducible exact Keeps.refl _ _
    | with_reducible refine (State.updFcCl_keeps ..).step (by decide) ?_
    | with_reducible refine forList_keeps _ ?_ ?_
    | with_reducible refine (emitTrs_keeps ..).step (by decide) ?_
    | with_reducible refine Keeps.ite ?_ ?_
    | intro _ _ _

theorem hintFrame_keeps (a1 a2 a3) (s : State) :
    Keeps [.fc] s (hintFrame a1 a2 a3 s) := by
  unfold hintFrame; try dsimp only
  repeat' first
    | with_reducible assumption
    | with_reducible exact Keeps.refl _ _
    | with_reducible refine forList_keeps _ ?_ ?_
    | with_reducible refine (setHint_keeps ..).step (by decide) ?_
    | with_reducible refine Keeps.ite ?_ ?_
    | intro _ _ _


end Sys2Proof.Machine
end

