-- ==== Sys2Proof/Laws/TrsOps.lean ====
section
/-!
SUPPORT. What the operations of Machine/TrsOps.lean may change.
-/
namespace Sys2Proof.Machine

theorem suspendAll_keeps (s : State) :
    Keeps [.trs] s (suspendAll s) := by
  unfold suspendAll; try dsimp only
  repeat' first
    | with_reducible exact Keeps.refl _ _
    | with_reducible refine (State.onTrs_keeps ..).step (by decide) ?_

theorem floorsUpdate_keeps (a1) (s : State) :
    Keeps [.hm, .hif, .ldg, .trs] s (floorsUpdate a1 s) := by
  unfold floorsUpdate; try dsimp only
  repeat' first
    | with_reducible assumption
    | with_reducible exact Keeps.refl _ _
    | with_reducible refine (State.updTx_keeps ..).step (by decide) ?_
    | with_reducible refine forList_keeps _ ?_ ?_
    | with_reducible refine (emitTrs_keeps ..).step (by decide) ?_
    | with_reducible refine Keeps.ite ?_ ?_
    | intro _ _ _
    | with_reducible refine foldl_keeps _ ?_ ?_

theorem odEnd_keeps (a1) (s : State) :
    Keeps [.hm, .hif, .ldg, .trs] s (odEnd a1 s) := by
  unfold odEnd; try dsimp only
  repeat' first
    | with_reducible exact Keeps.refl _ _
    | with_reducible refine (State.onTrs_keeps ..).step (by decide) ?_
    | with_reducible refine (emitTrs_keeps ..).step (by decide) ?_
    | split

theorem odCheck_keeps (s : State) :
    Keeps [.hm, .hif, .ldg, .trs] s (odCheck s) := by
  unfold odCheck; try dsimp only
  repeat' first
    | with_reducible exact Keeps.refl _ _
    | with_reducible refine (odEnd_keeps ..).step (by decide) ?_
    | with_reducible refine Keeps.ite ?_ ?_
    | split

theorem odAllocate_keeps (a1) (s : State) :
    Keeps [.hm, .hif, .ldg, .trs] s (odAllocate a1 s) := by
  unfold odAllocate; try dsimp only
  repeat' first
    | with_reducible exact Keeps.refl _ _
    | with_reducible refine (odEnd_keeps ..).step (by decide) ?_
    | with_reducible refine (emitTrs_keeps ..).step (by decide) ?_
    | with_reducible refine (State.onTrs_keeps ..).step (by decide) ?_
    | with_reducible refine Keeps.ite ?_ ?_
    | split

theorem migrate_keeps (a1) (s : State) :
    Keeps [.hm, .hif, .ldg, .trs] s (migrate a1 s) := by
  unfold migrate; try dsimp only
  repeat' first
    | with_reducible exact Keeps.refl _ _
    | with_reducible refine (State.updTx_keeps ..).step (by decide) ?_
    | with_reducible refine (emitTrs_keeps ..).step (by decide) ?_
    | split

theorem creditUpdate_keeps (a1 a2) (s : State) :
    Keeps [.trs] s (creditUpdate a1 a2 s) := by
  unfold creditUpdate; try dsimp only
  repeat' first
    | with_reducible exact Keeps.refl _ _
    | with_reducible refine (State.updTx_keeps ..).step (by decide) ?_
    | with_reducible refine Keeps.ite ?_ ?_

theorem allocate_keeps (s : State) :
    Keeps [.hm, .hif, .ldg, .fw, .fc, .trs] s (allocate s) := by
  unfold allocate; try dsimp only
  repeat' first
    | with_reducible assumption
    | with_reducible exact Keeps.refl _ _
    | with_reducible refine (floorsUpdate_keeps ..).step (by decide) ?_
    | with_reducible refine forList_keeps _ ?_ ?_
    | with_reducible refine (migrate_keeps ..).step (by decide) ?_
    | with_reducible refine (odAllocate_keeps ..).step (by decide) ?_
    | with_reducible refine (State.updTrsCl_keeps ..).step (by decide) ?_
    | with_reducible refine (State.onTrs_keeps ..).step (by decide) ?_
    | with_reducible refine (State.updFcCl_keeps ..).step (by decide) ?_
    | with_reducible refine (creditUpdate_keeps ..).step (by decide) ?_
    | with_reducible refine (State.onFw_keeps ..).step (by decide) ?_
    | with_reducible refine Keeps.ite ?_ ?_
    | intro _ _ _

theorem setTargets_keeps (a1) (s : State) :
    Keeps [.loop] s (setTargets a1 s) := by
  unfold setTargets; try dsimp only
  repeat' first
    | with_reducible exact Keeps.refl _ _
    | with_reducible refine (State.updLp_keeps ..).step (by decide) ?_
    | with_reducible refine Keeps.ite ?_ ?_

theorem allocCommit_keeps (s : State) :
    Keeps [.loop, .trs] s (allocCommit s) := by
  unfold allocCommit; try dsimp only
  repeat' first
    | with_reducible assumption
    | with_reducible exact Keeps.refl _ _
    | with_reducible refine forList_keeps _ ?_ ?_
    | with_reducible refine (setTargets_keeps ..).step (by decide) ?_
    | with_reducible refine (State.updTrsCl_keeps ..).step (by decide) ?_
    | split
    | intro _ _ _
    | intro _ _

theorem takeLoan_keeps (a1 a2) (s : State) :
    Keeps [.trs, .syn] s (takeLoan a1 a2 s) := by
  unfold takeLoan; try dsimp only
  repeat' first
    | with_reducible exact Keeps.refl _ _
    | with_reducible refine (State.updTrsCl_keeps ..).step (by decide) ?_
    | with_reducible refine (State.updCore_keeps ..).step (by decide) ?_
    | with_reducible refine Keeps.ite ?_ ?_

theorem cutBorrowed_keeps (s : State) :
    Keeps [.trs] s (cutBorrowed s) := by
  unfold cutBorrowed; try dsimp only
  repeat' first
    | with_reducible assumption
    | with_reducible exact Keeps.refl _ _
    | with_reducible refine foldl_keeps _ ?_ ?_
    | with_reducible refine foldlFst_keeps _ ?_ ?_
    | with_reducible refine foldlSnd_keeps _ ?_ ?_
    | with_reducible refine (State.updTrsCl_keeps ..).step (by decide) ?_
    | intro _ _ _
    | intro _ _

theorem trsBoundary_keeps (s : State) :
    Keeps [.loop, .hm, .hif, .ldg, .fw, .fc, .trs, .syn] s (trsBoundary s) := by
  unfold trsBoundary; try dsimp only
  repeat' first
    | with_reducible assumption
    | with_reducible exact Keeps.refl _ _
    | with_reducible refine forList_keeps _ ?_ ?_
    | with_reducible refine (takeLoan_keeps ..).step (by decide) ?_
    | with_reducible refine (cutBorrowed_keeps ..).step (by decide) ?_
    | with_reducible refine (State.onTrs_keeps ..).step (by decide) ?_
    | with_reducible refine (allocCommit_keeps ..).step (by decide) ?_
    | with_reducible refine (allocate_keeps ..).step (by decide) ?_
    | with_reducible refine (setTargets_keeps ..).step (by decide) ?_
    | with_reducible refine Keeps.ite ?_ ?_
    | intro _ _ _

theorem loansBack_keeps (s : State) :
    Keeps [.trs] s (loansBack s) := by
  unfold loansBack; try dsimp only
  repeat' first
    | with_reducible assumption
    | with_reducible exact Keeps.refl _ _
    | with_reducible refine forList_keeps _ ?_ ?_
    | with_reducible refine (State.updTrsCl_keeps ..).step (by decide) ?_
    | with_reducible refine (State.onTrs_keeps ..).step (by decide) ?_
    | intro _ _ _
    | intro _ _

theorem meterFrame_keeps (s : State) :
    Keeps [.hm, .hif, .ldg, .trs] s (meterFrame s) := by
  unfold meterFrame; try dsimp only
  repeat' first
    | with_reducible exact Keeps.refl _ _
    | with_reducible refine (State.onTrs_keeps ..).step (by decide) ?_
    | with_reducible refine (emitTrs_keeps ..).step (by decide) ?_
    | with_reducible refine Keeps.ite ?_ ?_


end Sys2Proof.Machine
end

