-- ==== Sys2Proof/Laws/LoopOps.lean ====
section
/-!
SUPPORT. What the operations of Machine/LoopOps.lean may change.
-/
namespace Sys2Proof.Machine

theorem measureClu_keeps (a1) (s : State) :
    Keeps [.loop] s (measureClu a1 s) := by
  unfold measureClu; try dsimp only
  repeat' first
    | with_reducible assumption
    | with_reducible exact Keeps.refl _ _
    | with_reducible refine forList_keeps _ ?_ ?_
    | with_reducible refine (State.updLp_keeps ..).step (by decide) ?_
    | intro _ _ _
    | intro _ _

theorem loopFallback_keeps (a1 a2 a3 a4) (s : State) :
    Keeps [.pwr, .loop, .hm, .hif, .ldg] s (loopFallback a1 a2 a3 a4 s) := by
  unfold loopFallback; try dsimp only
  repeat' first
    | with_reducible exact Keeps.refl _ _
    | with_reducible refine (emitTeller_keeps ..).step (by decide) ?_
    | with_reducible refine (State.updLp_keeps ..).step (by decide) ?_
    | with_reducible refine (setAlarm_keeps ..).step (by decide) ?_
    | with_reducible refine Keeps.ite ?_ ?_

theorem loopReturn_keeps (a1 a2) (s : State) :
    Keeps [.loop, .hm, .hif, .ldg] s (loopReturn a1 a2 s) := by
  unfold loopReturn; try dsimp only
  repeat' first
    | with_reducible exact Keeps.refl _ _
    | with_reducible refine (State.updLp_keeps ..).step (by decide) ?_
    | with_reducible refine (emitTeller_keeps ..).step (by decide) ?_

theorem supervise_keeps (a1 a2) (s : State) :
    Keeps [.pwr, .loop, .hm, .hif, .ldg] s (supervise a1 a2 s) := by
  unfold supervise; try dsimp only
  repeat' first
    | with_reducible exact Keeps.refl _ _
    | with_reducible refine (State.updLp_keeps ..).step (by decide) ?_
    | with_reducible refine (loopReturn_keeps ..).step (by decide) ?_
    | with_reducible refine (loopFallback_keeps ..).step (by decide) ?_
    | with_reducible refine Keeps.ite ?_ ?_

theorem loopRun_keeps (a1 a2) (s : State) :
    Keeps [.loop] s (loopRun a1 a2 s) := by
  unfold loopRun; try dsimp only
  repeat' first
    | with_reducible exact Keeps.refl _ _
    | with_reducible refine (State.updLp_keeps ..).step (by decide) ?_
    | with_reducible refine Keeps.ite ?_ ?_

theorem saturated_keeps (a1 a2) (s : State) :
    Keeps [.pwr, .loop, .hm, .hif, .ldg] s (saturated a1 a2 s) := by
  unfold saturated; try dsimp only
  repeat' first
    | with_reducible exact Keeps.refl _ _
    | with_reducible refine (emitTeller_keeps ..).step (by decide) ?_
    | with_reducible refine (State.updLp_keeps ..).step (by decide) ?_
    | with_reducible refine (loopFallback_keeps ..).step (by decide) ?_
    | with_reducible refine Keeps.ite ?_ ?_
    | split

theorem selectStage_keeps (a1) (s : State) :
    Keeps [.pwr, .loop, .hm, .hif, .ldg] s (selectStage a1 s) := by
  unfold selectStage; try dsimp only
  repeat' first
    | with_reducible assumption
    | with_reducible exact Keeps.refl _ _
    | with_reducible refine forList_keeps _ ?_ ?_
    | with_reducible refine (loopRun_keeps ..).step (by decide) ?_
    | with_reducible refine (saturated_keeps ..).step (by decide) ?_
    | with_reducible refine (State.updLp_keeps ..).step (by decide) ?_
    | with_reducible refine (State.updClu_keeps ..).step (by decide) ?_
    | with_reducible refine Keeps.ite ?_ ?_
    | intro _ _ _
    | intro _ _

theorem mapVoltage_keeps (a1) (s : State) :
    Keeps [.rail, .loop, .hm, .hif, .ldg] s (mapVoltage a1 s) := by
  unfold mapVoltage; try dsimp only
  repeat' first
    | with_reducible assumption
    | with_reducible exact Keeps.refl _ _
    | with_reducible refine (State.updClu_keeps ..).step (by decide) ?_
    | with_reducible refine forList_keeps _ ?_ ?_
    | with_reducible refine (retarget_keeps ..).step (by decide) ?_
    | with_reducible refine (State.updReg_keeps ..).step (by decide) ?_
    | with_reducible refine Keeps.ite ?_ ?_
    | intro _ _ _

theorem mapDiv_keeps (a1) (s : State) :
    Keeps [.clk, .hm, .hif, .ldg] s (mapDiv a1 s) := by
  unfold mapDiv; try dsimp only
  repeat' first
    | with_reducible exact Keeps.refl _ _
    | with_reducible refine (sendDiv_keeps ..).step (by decide) ?_
    | with_reducible refine (State.updDom_keeps ..).step (by decide) ?_
    | with_reducible refine Keeps.ite ?_ ?_

theorem mapCeil_keeps (a1) (s : State) :
    Keeps [.loop] s (mapCeil a1 s) := by
  unfold mapCeil; try dsimp only
  repeat' first
    | with_reducible assumption
    | with_reducible exact Keeps.refl _ _
    | with_reducible refine (State.updClu_keeps ..).step (by decide) ?_
    | with_reducible refine Keeps.ite ?_ ?_
    | intro _ _ _
    | intro _ _

theorem applyLevel_keeps (a1) (s : State) :
    Keeps [.loop] s (applyLevel a1 s) := by
  unfold applyLevel; try dsimp only
  repeat' first
    | with_reducible exact Keeps.refl _ _
    | with_reducible refine (State.updClu_keeps ..).step (by decide) ?_
    | with_reducible refine Keeps.ite ?_ ?_
    | split

theorem mapAll_keeps (s : State) :
    Keeps [.clk, .rail, .loop, .hm, .hif, .ldg] s (mapAll s) := by
  unfold mapAll; try dsimp only
  repeat' first
    | with_reducible assumption
    | with_reducible exact Keeps.refl _ _
    | with_reducible refine forList_keeps _ ?_ ?_
    | with_reducible refine (applyLevel_keeps ..).step (by decide) ?_
    | with_reducible refine (mapVoltage_keeps ..).step (by decide) ?_
    | with_reducible refine (mapDiv_keeps ..).step (by decide) ?_
    | with_reducible refine (mapCeil_keeps ..).step (by decide) ?_
    | intro _ _ _
    | intro _ _

theorem actFrame_keeps (a1) (s : State) :
    Keeps [.loop] s (actFrame a1 s) := by
  unfold actFrame; try dsimp only
  repeat' first
    | with_reducible exact Keeps.refl _ _
    | with_reducible refine (State.updClu_keeps ..).step (by decide) ?_
    | with_reducible refine Keeps.ite ?_ ?_

theorem apportion_keeps (s : State) :
    Keeps [.loop] s (apportion s) := by
  unfold apportion; try dsimp only
  repeat' first
    | with_reducible assumption
    | with_reducible exact Keeps.refl _ _
    | with_reducible refine forList_keeps _ ?_ ?_
    | with_reducible refine (State.updClu_keeps ..).step (by decide) ?_
    | intro _ _ _
    | intro _ _

theorem railFrame_keeps (a1) (s : State) :
    Keeps [.rail] s (railFrame a1 s) := by
  unfold railFrame; try dsimp only
  repeat' first
    | with_reducible exact Keeps.refl _ _
    | with_reducible refine (State.updReg_keeps ..).step (by decide) ?_
    | with_reducible refine (State.updMeas_keeps ..).step (by decide) ?_
    | with_reducible refine Keeps.ite ?_ ?_

theorem reasonFrame_keeps (a1) (s : State) :
    Keeps [.trs] s (reasonFrame a1 s) := by
  unfold reasonFrame; try dsimp only
  repeat' first
    | with_reducible assumption
    | with_reducible exact Keeps.refl _ _
    | with_reducible refine (State.updTrsCl_keeps ..).step (by decide) ?_
    | intro _ _ _
    | intro _ _

theorem breachFrame_keeps (a1) (s : State) :
    Keeps [.hm, .hif, .ldg, .trs] s (breachFrame a1 s) := by
  unfold breachFrame; try dsimp only
  repeat' first
    | with_reducible assumption
    | with_reducible exact Keeps.refl _ _
    | with_reducible refine (State.updTx_keeps ..).step (by decide) ?_
    | with_reducible refine forList_keeps _ ?_ ?_
    | with_reducible refine (emitTrs_keeps ..).step (by decide) ?_
    | with_reducible refine Keeps.ite ?_ ?_
    | intro _ _ _

theorem loopWrite_keeps (a1 a2 a3 a4) (s : State) :
    Keeps [.loop, .hm, .hif, .ldg] s (loopWrite a1 a2 a3 a4 s) := by
  unfold loopWrite; try dsimp only
  repeat' first
    | with_reducible exact Keeps.refl _ _
    | with_reducible refine (State.updClu_keeps ..).step (by decide) ?_
    | with_reducible refine (State.updLp_keeps ..).step (by decide) ?_
    | with_reducible refine (emitTeller_keeps ..).step (by decide) ?_
    | with_reducible refine Keeps.ite ?_ ?_
    | split

theorem modeApply_keeps (a1 a2) (s : State) :
    Keeps [.clk, .rail, .loop, .hm, .hif, .ldg] s (modeApply a1 a2 s) := by
  unfold modeApply; try dsimp only
  repeat' first
    | with_reducible assumption
    | with_reducible exact Keeps.refl _ _
    | with_reducible refine (State.updLp_keeps ..).step (by decide) ?_
    | with_reducible refine (emitTeller_keeps ..).step (by decide) ?_
    | with_reducible refine forList_keeps _ ?_ ?_
    | with_reducible refine (retarget_keeps ..).step (by decide) ?_
    | with_reducible refine (State.updReg_keeps ..).step (by decide) ?_
    | with_reducible refine (rootRequest_keeps ..).step (by decide) ?_
    | with_reducible refine Keeps.ite ?_ ?_
    | intro _ _ _

theorem superviseAll_keeps (s : State) :
    Keeps [.pwr, .loop, .hm, .hif, .ldg] s (superviseAll s) := by
  unfold superviseAll; try dsimp only
  repeat' first
    | with_reducible assumption
    | with_reducible exact Keeps.refl _ _
    | with_reducible refine forList_keeps _ ?_ ?_
    | with_reducible refine (supervise_keeps ..).step (by decide) ?_
    | with_reducible refine Keeps.ite ?_ ?_
    | intro _ _ _
    | intro _ _

theorem loopBoundary_keeps (s : State) :
    Keeps [.pwr, .clk, .rail, .loop, .hm, .hif, .ldg] s (loopBoundary s) := by
  unfold loopBoundary; try dsimp only
  repeat' first
    | with_reducible assumption
    | with_reducible exact Keeps.refl _ _
    | with_reducible refine forList_keeps _ ?_ ?_
    | with_reducible refine (superviseAll_keeps ..).step (by decide) ?_
    | with_reducible refine (loopWrite_keeps ..).step (by decide) ?_
    | with_reducible refine (State.onLoop_keeps ..).step (by decide) ?_
    | with_reducible refine (State.updClu_keeps ..).step (by decide) ?_
    | with_reducible refine (emitClerk_keeps ..).step (by decide) ?_
    | with_reducible refine (modeApply_keeps ..).step (by decide) ?_
    | split
    | intro _ _ _
    | intro _ _

theorem loopRes_keeps (a1) (s : State) :
    Keeps [.loop] s (loopRes a1 s) := by
  unfold loopRes; try dsimp only
  repeat' first
    | with_reducible exact Keeps.refl _ _
    | with_reducible refine (State.onLoop_keeps ..).step (by decide) ?_


end Sys2Proof.Machine
end

