-- ==== Sys2Proof/Laws/Regulate.lean ====
section
/-!
SUPPORT. What the operations of Machine/Regulate.lean may change.
-/
namespace Sys2Proof.Machine

theorem addPhases_keeps (a1 a2) (s : State) :
    Keeps [.rail] s (addPhases a1 a2 s) := by
  unfold addPhases; try dsimp only
  repeat' first
    | with_reducible assumption
    | with_reducible exact Keeps.refl _ _
    | with_reducible refine (State.updPh_keeps ..).step (by decide) ?_
    | with_reducible refine Keeps.ite ?_ ?_
    | with_reducible refine foldl_keeps _ ?_ ?_
    | with_reducible refine foldlFst_keeps _ ?_ ?_
    | with_reducible refine foldlSnd_keeps _ ?_ ?_
    | intro _ _ _
    | split

theorem shedUpdate_keeps (a1) (s : State) :
    Keeps [.rail] s (shedUpdate a1 s) := by
  unfold shedUpdate; try dsimp only
  repeat' first
    | with_reducible exact Keeps.refl _ _
    | with_reducible refine (addPhases_keeps ..).step (by decide) ?_
    | with_reducible refine (State.updMeas_keeps ..).step (by decide) ?_
    | with_reducible refine Keeps.ite ?_ ?_

theorem fastPath_keeps (a1 a2) (s : State) :
    Keeps [.rail, .hm, .hif, .ldg] s (fastPath a1 a2 s) := by
  unfold fastPath; try dsimp only
  repeat' first
    | with_reducible assumption
    | with_reducible exact Keeps.refl _ _
    | with_reducible refine (brakeStop_keeps ..).step (by decide) ?_
    | with_reducible refine (addPhases_keeps ..).step (by decide) ?_
    | with_reducible refine forList_keeps _ ?_ ?_
    | with_reducible refine (State.updPh_keeps ..).step (by decide) ?_
    | with_reducible refine (State.updReg_keeps ..).step (by decide) ?_
    | with_reducible refine (State.updMeas_keeps ..).step (by decide) ?_
    | with_reducible refine (emitRail_keeps ..).step (by decide) ?_
    | with_reducible refine (railPenLow_keeps ..).step (by decide) ?_
    | with_reducible refine Keeps.ite ?_ ?_
    | intro _ _ _
    | split

theorem railVConv_keeps (a1 a2 a3) (s : State) :
    Keeps [.rail, .hm, .hif, .ldg, .free] s (railVConv a1 a2 a3 s) := by
  unfold railVConv; try dsimp only
  repeat' first
    | with_reducible exact Keeps.refl _ _
    | with_reducible refine (State.updMeas_keeps ..).step (by decide) ?_
    | with_reducible refine (emitSns_keeps ..).step (by decide) ?_
    | with_reducible refine (State.updReg_keeps ..).step (by decide) ?_
    | with_reducible refine (fastPath_keeps ..).step (by decide) ?_
    | with_reducible refine (State.drawn_keeps ..).step (by decide) ?_
    | with_reducible refine Keeps.ite ?_ ?_
    | split

theorem brakeTimeout_keeps (a1) (s : State) :
    Keeps [.rail, .hm, .hif, .ldg] s (brakeTimeout a1 s) := by
  unfold brakeTimeout; try dsimp only
  repeat' first
    | with_reducible exact Keeps.refl _ _
    | with_reducible refine (brakeStop_keeps ..).step (by decide) ?_
    | with_reducible refine Keeps.ite ?_ ?_
    | split

theorem compensate_keeps (a1) (s : State) :
    Keeps [.rail] s (compensate a1 s) := by
  unfold compensate; try dsimp only
  repeat' first
    | with_reducible exact Keeps.refl _ _
    | with_reducible refine (State.updReg_keeps ..).step (by decide) ?_
    | with_reducible refine Keeps.ite ?_ ?_

theorem phaseIConv_keeps (a1 a2 a3) (s : State) :
    Keeps [.sns, .rail, .hm, .hif, .ldg] s (phaseIConv a1 a2 a3 s) := by
  unfold phaseIConv; try dsimp only
  repeat' first
    | with_reducible exact Keeps.refl _ _
    | with_reducible refine (State.updPh_keeps ..).step (by decide) ?_
    | with_reducible refine (State.onSns_keeps ..).step (by decide) ?_
    | with_reducible refine (emitSns_keeps ..).step (by decide) ?_
    | with_reducible refine Keeps.ite ?_ ?_

theorem stageTConv_keeps (a1 a2) (s : State) :
    Keeps [.rail, .hm, .hif, .ldg] s (stageTConv a1 a2 s) := by
  unfold stageTConv; try dsimp only
  repeat' first
    | with_reducible exact Keeps.refl _ _
    | with_reducible refine (State.updPh_keeps ..).step (by decide) ?_
    | with_reducible refine (emitSns_keeps ..).step (by decide) ?_
    | with_reducible refine Keeps.ite ?_ ?_

theorem autoZero_keeps (a1 a2) (s : State) :
    Keeps [.rail, .hm, .hif, .ldg] s (autoZero a1 a2 s) := by
  unfold autoZero; try dsimp only
  repeat' first
    | with_reducible assumption
    | with_reducible exact Keeps.refl _ _
    | with_reducible refine (State.updPh_keeps ..).step (by decide) ?_
    | with_reducible refine (emitSns_keeps ..).step (by decide) ?_
    | with_reducible refine Keeps.ite ?_ ?_
    | intro _ _ _
    | intro _ _

theorem trimUpdate_keeps (a1) (s : State) :
    Keeps [.rail] s (trimUpdate a1 s) := by
  unfold trimUpdate; try dsimp only
  repeat' first
    | with_reducible assumption
    | with_reducible exact Keeps.refl _ _
    | with_reducible refine forList_keeps _ ?_ ?_
    | with_reducible refine (State.updPh_keeps ..).step (by decide) ?_
    | with_reducible refine Keeps.ite ?_ ?_
    | intro _ _ _

theorem shareTargets_keeps (a1) (s : State) :
    Keeps [.rail] s (shareTargets a1 s) := by
  unfold shareTargets; try dsimp only
  repeat' first
    | with_reducible assumption
    | with_reducible exact Keeps.refl _ _
    | with_reducible refine forList_keeps _ ?_ ?_
    | with_reducible refine (State.updPh_keeps ..).step (by decide) ?_
    | with_reducible refine Keeps.ite ?_ ?_
    | intro _ _ _

theorem ppArrive_keeps (a1) (s : State) :
    Keeps [.rail] s (ppArrive a1 s) := by
  unfold ppArrive; try dsimp only
  repeat' first
    | with_reducible exact Keeps.refl _ _
    | with_reducible refine (State.updReg_keeps ..).step (by decide) ?_
    | with_reducible refine Keeps.ite ?_ ?_

theorem shareUpdate_keeps (a1) (s : State) :
    Keeps [.rail] s (shareUpdate a1 s) := by
  unfold shareUpdate; try dsimp only
  repeat' first
    | with_reducible assumption
    | with_reducible exact Keeps.refl _ _
    | with_reducible refine (State.updMeas_keeps ..).step (by decide) ?_
    | with_reducible refine (shedUpdate_keeps ..).step (by decide) ?_
    | with_reducible refine (trimUpdate_keeps ..).step (by decide) ?_
    | with_reducible refine (shareTargets_keeps ..).step (by decide) ?_
    | with_reducible refine (ppArrive_keeps ..).step (by decide) ?_
    | with_reducible refine Keeps.ite ?_ ?_
    | intro _ _ _
    | intro _ _

theorem trimLimitRec_keeps (a1) (s : State) :
    Keeps [.rail, .hm, .hif, .ldg] s (trimLimitRec a1 s) := by
  unfold trimLimitRec; try dsimp only
  repeat' first
    | with_reducible exact Keeps.refl _ _
    | with_reducible refine (emitRail_keeps ..).step (by decide) ?_
    | with_reducible refine (State.updPh_keeps ..).step (by decide) ?_
    | with_reducible refine Keeps.ite ?_ ?_
    | split

theorem shareShift_keeps (a1) (s : State) :
    Keeps [.rail] s (shareShift a1 s) := by
  unfold shareShift; try dsimp only
  repeat' first
    | with_reducible assumption
    | with_reducible exact Keeps.refl _ _
    | with_reducible refine forList_keeps _ ?_ ?_
    | with_reducible refine (State.updPh_keeps ..).step (by decide) ?_
    | with_reducible refine (State.updMeas_keeps ..).step (by decide) ?_
    | with_reducible refine (shareTargets_keeps ..).step (by decide) ?_
    | with_reducible refine Keeps.ite ?_ ?_
    | intro _ _ _

theorem shiftLimitRec_keeps (a1) (s : State) :
    Keeps [.rail, .hm, .hif, .ldg] s (shiftLimitRec a1 s) := by
  unfold shiftLimitRec; try dsimp only
  repeat' first
    | with_reducible exact Keeps.refl _ _
    | with_reducible refine (emitRail_keeps ..).step (by decide) ?_
    | with_reducible refine (State.updMeas_keeps ..).step (by decide) ?_
    | with_reducible refine Keeps.ite ?_ ?_
    | split

theorem pwmStart_keeps (a1) (s : State) :
    Keeps [.clk, .rail, .loop, .hm, .hif, .ldg] s (pwmStart a1 s) := by
  unfold pwmStart; try dsimp only
  repeat' first
    | with_reducible exact Keeps.refl _ _
    | with_reducible refine (phOff_keeps ..).step (by decide) ?_
    | with_reducible refine (State.updPh_keeps ..).step (by decide) ?_
    | with_reducible refine (rootAdvance_keeps ..).step (by decide) ?_
    | with_reducible refine Keeps.ite ?_ ?_

theorem pwmFall_keeps (s : State) :
    Keeps [.rail] s (pwmFall s) := by
  unfold pwmFall; try dsimp only
  repeat' first
    | with_reducible assumption
    | with_reducible exact Keeps.refl _ _
    | with_reducible refine forIdx_keeps _ _ ?_ ?_
    | with_reducible refine (State.updPh_keeps ..).step (by decide) ?_
    | intro _ _ _
    | intro _ _

theorem zeroCross_keeps (a1) (s : State) :
    Keeps [.rail] s (zeroCross a1 s) := by
  unfold zeroCross; try dsimp only
  repeat' first
    | with_reducible exact Keeps.refl _ _
    | with_reducible refine (State.updReg_keeps ..).step (by decide) ?_
    | with_reducible refine (State.updPh_keeps ..).step (by decide) ?_
    | with_reducible refine Keeps.ite ?_ ?_

theorem phaseRemove_keeps (a1) (s : State) :
    Keeps [.rail] s (phaseRemove a1 s) := by
  unfold phaseRemove; try dsimp only
  repeat' first
    | with_reducible exact Keeps.refl _ _
    | with_reducible refine (shedUpdate_keeps ..).step (by decide) ?_
    | with_reducible refine (State.updPh_keeps ..).step (by decide) ?_
    | with_reducible refine (State.updReg_keeps ..).step (by decide) ?_
    | with_reducible refine Keeps.ite ?_ ?_
    | split

theorem joinDone_keeps (a1) (s : State) :
    Keeps [.rail] s (joinDone a1 s) := by
  unfold joinDone; try dsimp only
  repeat' first
    | with_reducible exact Keeps.refl _ _
    | with_reducible refine (shareTargets_keeps ..).step (by decide) ?_
    | with_reducible refine (State.updPh_keeps ..).step (by decide) ?_
    | with_reducible refine Keeps.ite ?_ ?_

theorem ppDeliver_keeps (a1 a2 a3 a4) (s : State) :
    Keeps [.rail] s (ppDeliver a1 a2 a3 a4 s) := by
  unfold ppDeliver; try dsimp only
  repeat' first
    | with_reducible exact Keeps.refl _ _
    | with_reducible refine (State.updMeas_keeps ..).step (by decide) ?_
    | with_reducible refine (State.updReg_keeps ..).step (by decide) ?_
    | with_reducible refine (shedUpdate_keeps ..).step (by decide) ?_
    | with_reducible refine Keeps.ite ?_ ?_

theorem vppDown_keeps (a1) (s : State) :
    Keeps [.rail] s (vppDown a1 s) := by
  unfold vppDown; try dsimp only
  repeat' first
    | with_reducible exact Keeps.refl _ _
    | with_reducible refine (State.updReg_keeps ..).step (by decide) ?_
    | with_reducible refine Keeps.ite ?_ ?_
    | split

theorem vrefStep_keeps (a1 a2) (s : State) :
    Keeps [.rail] s (vrefStep a1 a2 s) := by
  unfold vrefStep; try dsimp only
  repeat' first
    | with_reducible exact Keeps.refl _ _
    | with_reducible refine (State.updReg_keeps ..).step (by decide) ?_
    | with_reducible refine (State.updProt_keeps ..).step (by decide) ?_
    | with_reducible refine Keeps.ite ?_ ?_

theorem vinRead_keeps (a1 a2) (s : State) :
    Keeps [.rail, .hm, .hif, .ldg] s (vinRead a1 a2 s) := by
  unfold vinRead; try dsimp only
  repeat' first
    | with_reducible exact Keeps.refl _ _
    | with_reducible refine (State.updMeas_keeps ..).step (by decide) ?_
    | with_reducible refine (emitRail_keeps ..).step (by decide) ?_
    | with_reducible refine Keeps.ite ?_ ?_

theorem vinStale_keeps (a1) (s : State) :
    Keeps [.rail, .hm, .hif, .ldg] s (vinStale a1 s) := by
  unfold vinStale; try dsimp only
  repeat' first
    | with_reducible exact Keeps.refl _ _
    | with_reducible refine (emitRail_keeps ..).step (by decide) ?_
    | with_reducible refine (State.updMeas_keeps ..).step (by decide) ?_
    | with_reducible refine Keeps.ite ?_ ?_

theorem pmbAlert_keeps (a1 a2) (s : State) :
    Keeps [.rail, .hm, .hif, .ldg] s (pmbAlert a1 a2 s) := by
  unfold pmbAlert; try dsimp only
  repeat' first
    | with_reducible exact Keeps.refl _ _
    | with_reducible refine (State.onRail_keeps ..).step (by decide) ?_
    | with_reducible refine (emitRail_keeps ..).step (by decide) ?_
    | with_reducible refine Keeps.ite ?_ ?_

theorem pmbRecover_keeps (a1 a2) (s : State) :
    Keeps [.rail] s (pmbRecover a1 a2 s) := by
  unfold pmbRecover; try dsimp only
  repeat' first
    | with_reducible exact Keeps.refl _ _
    | with_reducible refine (State.onRail_keeps ..).step (by decide) ?_

theorem pmbTimeout_keeps (a1 a2 a3 a4) (s : State) :
    Keeps [.rail, .hm, .hif, .ldg] s (pmbTimeout a1 a2 a3 a4 s) := by
  unfold pmbTimeout; try dsimp only
  repeat' first
    | with_reducible exact Keeps.refl _ _
    | with_reducible refine (pmbRecover_keeps ..).step (by decide) ?_
    | with_reducible refine (State.onRail_keeps ..).step (by decide) ?_
    | with_reducible refine (emitRail_keeps ..).step (by decide) ?_
    | with_reducible refine Keeps.ite ?_ ?_

theorem railRes_keeps (a1) (s : State) :
    Keeps [.rail] s (railRes a1 s) := by
  unfold railRes; try dsimp only
  repeat' first
    | with_reducible exact Keeps.refl _ _
    | with_reducible refine (State.onRail_keeps ..).step (by decide) ?_

theorem vreqGo_keeps (a1) (s : State) :
    Keeps [.rail, .hm, .hif, .ldg] s (vreqGo a1 s) := by
  unfold vreqGo; try dsimp only
  repeat' first
    | with_reducible exact Keeps.refl _ _
    | with_reducible refine (State.updReg_keeps ..).step (by decide) ?_
    | with_reducible refine (railRes_keeps ..).step (by decide) ?_
    | with_reducible refine (retarget_keeps ..).step (by decide) ?_
    | with_reducible refine Keeps.ite ?_ ?_

theorem slewWrite_keeps (a1) (s : State) :
    Keeps [.rail] s (slewWrite a1 s) := by
  unfold slewWrite; try dsimp only
  repeat' first
    | with_reducible exact Keeps.refl _ _
    | with_reducible refine (railRes_keeps ..).step (by decide) ?_
    | with_reducible refine (State.updReg_keeps ..).step (by decide) ?_
    | with_reducible refine Keeps.ite ?_ ?_

theorem telClr_keeps (s : State) :
    Keeps [.rail] s (telClr s) := by
  unfold telClr; try dsimp only
  repeat' first
    | with_reducible exact Keeps.refl _ _
    | with_reducible refine (railRes_keeps ..).step (by decide) ?_
    | with_reducible refine (State.updMeas_keeps ..).step (by decide) ?_

theorem shedWrite_keeps (a1 a2) (s : State) :
    Keeps [.rail] s (shedWrite a1 a2 s) := by
  unfold shedWrite; try dsimp only
  repeat' first
    | with_reducible assumption
    | with_reducible exact Keeps.refl _ _
    | with_reducible refine forList_keeps _ ?_ ?_
    | with_reducible refine (railRes_keeps ..).step (by decide) ?_
    | with_reducible refine (State.updReg_keeps ..).step (by decide) ?_
    | with_reducible refine (shareTargets_keeps ..).step (by decide) ?_
    | with_reducible refine (State.updPh_keeps ..).step (by decide) ?_
    | with_reducible refine (State.updMeas_keeps ..).step (by decide) ?_
    | with_reducible refine (shedUpdate_keeps ..).step (by decide) ?_
    | with_reducible refine Keeps.ite ?_ ?_
    | intro _ _ _
    | intro _ _


end Sys2Proof.Machine
end

