-- ==== Sys2Proof/Laws/FrameOps.lean ====
section
/-!
SUPPORT. What the operations of Machine/FrameOps.lean may change.
-/
namespace Sys2Proof.Machine

theorem planSlots_keeps (s : State) :
    Keeps [.frm] s (planSlots s) := by
  unfold planSlots; try dsimp only
  repeat' first
    | with_reducible assumption
    | with_reducible exact Keeps.refl _ _
    | with_reducible refine forList_keeps _ ?_ ?_
    | with_reducible refine (State.updRt_keeps ..).step (by decide) ?_
    | with_reducible refine Keeps.ite ?_ ?_
    | intro _ _ _

theorem loopBackstop_keeps (a1) (s : State) :
    Keeps [.frm, .loop, .hm, .hif, .ldg] s (loopBackstop a1 s) := by
  unfold loopBackstop; try dsimp only
  repeat' first
    | with_reducible assumption
    | with_reducible exact Keeps.refl _ _
    | with_reducible refine forList_keeps _ ?_ ?_
    | with_reducible refine (State.updRt_keeps ..).step (by decide) ?_
    | with_reducible refine (emitCp_keeps ..).step (by decide) ?_
    | with_reducible refine (capCluster_keeps ..).step (by decide) ?_
    | with_reducible refine (State.updBack_keeps ..).step (by decide) ?_
    | with_reducible refine Keeps.ite ?_ ?_
    | intro _ _ _
    | split

theorem backstopEnd_keeps (a1) (s : State) :
    Keeps [.frm, .loop, .hm, .hif, .ldg] s (backstopEnd a1 s) := by
  unfold backstopEnd; try dsimp only
  repeat' first
    | with_reducible exact Keeps.refl _ _
    | with_reducible refine (presetLoops_keeps ..).step (by decide) ?_
    | with_reducible refine (State.updBack_keeps ..).step (by decide) ?_
    | with_reducible refine (emitCp_keeps ..).step (by decide) ?_
    | with_reducible refine Keeps.ite ?_ ?_
    | split

theorem slotFail_keeps (a1) (s : State) :
    Keeps [.frm, .hm, .hif, .ldg] s (slotFail a1 s) := by
  unfold slotFail; try dsimp only
  repeat' first
    | with_reducible exact Keeps.refl _ _
    | with_reducible refine (State.onFrm_keeps ..).step (by decide) ?_
    | with_reducible refine (State.updRt_keeps ..).step (by decide) ?_
    | with_reducible refine (emitClk_keeps ..).step (by decide) ?_
    | with_reducible refine Keeps.ite ?_ ?_

theorem slotMiss_keeps (a1) (s : State) :
    Keeps [.frm, .hm, .hif, .ldg] s (slotMiss a1 s) := by
  unfold slotMiss; try dsimp only
  repeat' first
    | with_reducible exact Keeps.refl _ _
    | with_reducible refine (slotFail_keeps ..).step (by decide) ?_
    | with_reducible refine Keeps.ite ?_ ?_
    | split

theorem slotStart_keeps (a1) (s : State) :
    Keeps [.frm] s (slotStart a1 s) := by
  unfold slotStart; try dsimp only
  repeat' first
    | with_reducible exact Keeps.refl _ _
    | with_reducible refine (State.updRt_keeps ..).step (by decide) ?_
    | with_reducible refine Keeps.ite ?_ ?_

theorem countSats_keeps (a1 a2) (s : State) :
    Keeps [.hm, .hif, .ldg, .tly] s (countSats a1 a2 s) := by
  unfold countSats; try dsimp only
  repeat' first
    | with_reducible exact Keeps.refl _ _
    | with_reducible refine (State.updProg_keeps ..).step (by decide) ?_
    | with_reducible refine (State.onTly_keeps ..).step (by decide) ?_
    | with_reducible refine (emitTly_keeps ..).step (by decide) ?_
    | with_reducible refine Keeps.ite ?_ ?_
    | split

theorem tlyRunSlot_keeps (a1) (s : State) :
    Keeps [.hm, .hif, .ldg, .tly, .free] s (tlyRunSlot a1 s) := by
  unfold tlyRunSlot; try dsimp only
  repeat' first
    | with_reducible assumption
    | with_reducible exact Keeps.refl _ _
    | with_reducible refine (State.onTly_keeps ..).step (by decide) ?_
    | with_reducible refine (countSats_keeps ..).step (by decide) ?_
    | with_reducible refine (State.drawn_keeps ..).step (by decide) ?_
    | split
    | intro _ _ _
    | intro _ _

theorem slotDone_keeps (a1 a2) (s : State) :
    Keeps [.frm, .hm, .hif, .ldg, .tly, .free] s (slotDone a1 a2 s) := by
  unfold slotDone; try dsimp only
  repeat' first
    | with_reducible exact Keeps.refl _ _
    | with_reducible refine (State.updRt_keeps ..).step (by decide) ?_
    | with_reducible refine (State.onFrm_keeps ..).step (by decide) ?_
    | with_reducible refine (emitClk_keeps ..).step (by decide) ?_
    | with_reducible refine (tlyRunSlot_keeps ..).step (by decide) ?_
    | with_reducible refine Keeps.ite ?_ ?_

theorem commitSlot_keeps (a1) (s : State) :
    Keeps [.pwr, .loop, .hm, .hif, .ldg, .fw, .fc, .trs] s (commitSlot a1 s) := by
  unfold commitSlot; try dsimp only
  repeat' first
    | with_reducible exact Keeps.refl _ _
    | with_reducible refine (selectStage_keeps ..).step (by decide) ?_
    | with_reducible refine (allocate_keeps ..).step (by decide) ?_
    | with_reducible refine Keeps.ite ?_ ?_
    | split

theorem commitSlots_keeps (s : State) :
    Keeps [.pwr, .frm, .loop, .hm, .hif, .ldg, .fw, .fc, .trs] s (commitSlots s) := by
  unfold commitSlots; try dsimp only
  repeat' first
    | with_reducible assumption
    | with_reducible exact Keeps.refl _ _
    | with_reducible refine forList_keeps _ ?_ ?_
    | with_reducible refine (commitSlot_keeps ..).step (by decide) ?_
    | with_reducible refine (State.onFrm_keeps ..).step (by decide) ?_
    | intro _ _ _
    | intro _ _

theorem slotComplete_keeps (a1) (s : State) :
    Keeps [.frm, .hm, .hif, .ldg, .tly, .free] s (slotComplete a1 s) := by
  unfold slotComplete; try dsimp only
  repeat' first
    | with_reducible exact Keeps.refl _ _
    | with_reducible refine (slotFail_keeps ..).step (by decide) ?_
    | with_reducible refine (slotDone_keeps ..).step (by decide) ?_
    | with_reducible refine Keeps.ite ?_ ?_
    | split

theorem shedDue_keeps (s : State) :
    Keeps [.frm, .hm, .hif, .ldg] s (shedDue s) := by
  unfold shedDue; try dsimp only
  repeat' first
    | with_reducible exact Keeps.refl _ _
    | with_reducible refine (State.onFrm_keeps ..).step (by decide) ?_
    | with_reducible refine (emitClk_keeps ..).step (by decide) ?_
    | with_reducible refine Keeps.ite ?_ ?_

theorem restoreLevel_keeps (a1) (s : State) :
    Keeps [.frm, .hm, .hif, .ldg] s (restoreLevel a1 s) := by
  unfold restoreLevel; try dsimp only
  repeat' first
    | with_reducible exact Keeps.refl _ _
    | with_reducible refine (State.onFrm_keeps ..).step (by decide) ?_
    | with_reducible refine (emitClk_keeps ..).step (by decide) ?_

theorem restoreDue_keeps (s : State) :
    Keeps [.frm, .hm, .hif, .ldg] s (restoreDue s) := by
  unfold restoreDue; try dsimp only
  repeat' first
    | with_reducible exact Keeps.refl _ _
    | with_reducible refine (restoreLevel_keeps ..).step (by decide) ?_
    | with_reducible refine Keeps.ite ?_ ?_

theorem hostShed_keeps (s : State) :
    Keeps [.frm, .hm, .hif, .ldg] s (hostShed s) := by
  unfold hostShed; try dsimp only
  repeat' first
    | with_reducible exact Keeps.refl _ _
    | with_reducible refine (State.onFrm_keeps ..).step (by decide) ?_
    | with_reducible refine (emitClk_keeps ..).step (by decide) ?_
    | with_reducible refine (restoreLevel_keeps ..).step (by decide) ?_
    | with_reducible refine Keeps.ite ?_ ?_

theorem requiredBack_keeps (s : State) :
    Keeps [.frm] s (requiredBack s) := by
  unfold requiredBack; try dsimp only
  repeat' first
    | with_reducible exact Keeps.refl _ _
    | with_reducible refine (State.onFrm_keeps ..).step (by decide) ?_
    | with_reducible refine Keeps.ite ?_ ?_

theorem frameCounts_keeps (s : State) :
    Keeps [.frm] s (frameCounts s) := by
  unfold frameCounts; try dsimp only
  repeat' first
    | with_reducible exact Keeps.refl _ _
    | with_reducible refine (State.onFrm_keeps ..).step (by decide) ?_
    | with_reducible refine Keeps.ite ?_ ?_

theorem cubeSwap_keeps (a1) (s : State) :
    Keeps [.pwr, .hm, .hif, .ldg, .tly] s (cubeSwap a1 s) := by
  unfold cubeSwap; try dsimp only
  repeat' first
    | with_reducible exact Keeps.refl _ _
    | with_reducible refine (emitTly_keeps ..).step (by decide) ?_
    | with_reducible refine (State.onTly_keeps ..).step (by decide) ?_
    | with_reducible refine (setAlarm_keeps ..).step (by decide) ?_
    | with_reducible refine Keeps.ite ?_ ?_
    | split

theorem cubeSwaps_keeps (s : State) :
    Keeps [.pwr, .hm, .hif, .ldg, .tly] s (cubeSwaps s) := by
  unfold cubeSwaps; try dsimp only
  repeat' first
    | with_reducible assumption
    | with_reducible exact Keeps.refl _ _
    | with_reducible refine forList_keeps _ ?_ ?_
    | with_reducible refine (cubeSwap_keeps ..).step (by decide) ?_
    | with_reducible refine (State.onTly_keeps ..).step (by decide) ?_
    | intro _ _ _
    | intro _ _

theorem cubeRejoin_keeps (a1) (s : State) :
    Keeps [.tly] s (cubeRejoin a1 s) := by
  unfold cubeRejoin; try dsimp only
  repeat' first
    | with_reducible exact Keeps.refl _ _
    | with_reducible refine (State.onTly_keeps ..).step (by decide) ?_
    | with_reducible refine Keeps.ite ?_ ?_

theorem cubeRejoins_keeps (s : State) :
    Keeps [.tly] s (cubeRejoins s) := by
  unfold cubeRejoins; try dsimp only
  repeat' first
    | with_reducible assumption
    | with_reducible exact Keeps.refl _ _
    | with_reducible refine forList_keeps _ ?_ ?_
    | with_reducible refine (cubeRejoin_keeps ..).step (by decide) ?_
    | with_reducible refine (State.onTly_keeps ..).step (by decide) ?_
    | intro _ _ _
    | intro _ _

theorem progFree_keeps (a1) (s : State) :
    Keeps [.hm, .hif, .ldg, .tly] s (progFree a1 s) := by
  unfold progFree; try dsimp only
  repeat' first
    | with_reducible exact Keeps.refl _ _
    | with_reducible refine (State.updProg_keeps ..).step (by decide) ?_
    | with_reducible refine (emitTly_keeps ..).step (by decide) ?_
    | with_reducible refine Keeps.ite ?_ ?_

theorem tableInstall_keeps (s : State) :
    Keeps [.frm, .hm, .hif, .ldg, .tly] s (tableInstall s) := by
  unfold tableInstall; try dsimp only
  repeat' first
    | with_reducible assumption
    | with_reducible exact Keeps.refl _ _
    | with_reducible refine forList_keeps _ ?_ ?_
    | with_reducible refine (State.onFrm_keeps ..).step (by decide) ?_
    | with_reducible refine (State.onTly_keeps ..).step (by decide) ?_
    | with_reducible refine (progFree_keeps ..).step (by decide) ?_
    | with_reducible refine (State.updProg_keeps ..).step (by decide) ?_
    | with_reducible refine Keeps.ite ?_ ?_
    | split
    | intro _ _ _
    | intro _ _

theorem writeInputs_keeps (s : State) :
    Keeps [.tly] s (writeInputs s) := by
  unfold writeInputs; try dsimp only
  repeat' first
    | with_reducible assumption
    | with_reducible exact Keeps.refl _ _
    | with_reducible refine forList_keeps _ ?_ ?_
    | with_reducible refine (State.onTly_keeps ..).step (by decide) ?_
    | split
    | intro _ _ _
    | intro _ _

theorem netFrame_keeps (s : State) :
    Keeps [.sns, .loop, .hm, .hif, .ldg] s (netFrame s) := by
  unfold netFrame; try dsimp only
  repeat' first
    | with_reducible assumption
    | with_reducible exact Keeps.refl _ _
    | with_reducible refine forList_keeps _ ?_ ?_
    | with_reducible refine (siteShift_keeps ..).step (by decide) ?_
    | with_reducible refine (State.updSite_keeps ..).step (by decide) ?_
    | with_reducible refine Keeps.ite ?_ ?_
    | split
    | intro _ _ _
    | intro _ _

theorem netOff_keeps (s : State) :
    Keeps [.sns, .loop, .hm, .hif, .ldg] s (netOff s) := by
  unfold netOff; try dsimp only
  repeat' first
    | with_reducible assumption
    | with_reducible exact Keeps.refl _ _
    | with_reducible refine forList_keeps _ ?_ ?_
    | with_reducible refine (siteShift_keeps ..).step (by decide) ?_
    | with_reducible refine (State.updSite_keeps ..).step (by decide) ?_
    | with_reducible refine Keeps.ite ?_ ?_
    | intro _ _ _
    | intro _ _

theorem fcCommit_keeps (a1) (s : State) :
    Keeps [.fc] s (fcCommit a1 s) := by
  unfold fcCommit; try dsimp only
  repeat' first
    | with_reducible exact Keeps.refl _ _
    | with_reducible refine (State.updFcCl_keeps ..).step (by decide) ?_
    | with_reducible refine Keeps.ite ?_ ?_
    | split

theorem fcDeliver_keeps (a1) (s : State) :
    Keeps [.rail, .fc] s (fcDeliver a1 s) := by
  unfold fcDeliver; try dsimp only
  repeat' first
    | with_reducible exact Keeps.refl _ _
    | with_reducible refine (State.onFc_keeps ..).step (by decide) ?_
    | with_reducible refine (ppDeliver_keeps ..).step (by decide) ?_
    | with_reducible refine Keeps.ite ?_ ?_
    | split

theorem waitFrame_keeps (s : State) :
    Keeps [.syn] s (waitFrame s) := by
  unfold waitFrame; try dsimp only
  repeat' first
    | with_reducible assumption
    | with_reducible exact Keeps.refl _ _
    | with_reducible refine forList_keeps _ ?_ ?_
    | with_reducible refine (waitMark_keeps ..).step (by decide) ?_
    | with_reducible refine (State.onSyn_keeps ..).step (by decide) ?_
    | with_reducible refine (State.updCore_keeps ..).step (by decide) ?_
    | with_reducible refine Keeps.ite ?_ ?_
    | intro _ _ _

theorem extFrame_keeps (a1) (s : State) :
    Keeps [.loop] s (extFrame a1 s) := by
  unfold extFrame; try dsimp only
  repeat' first
    | with_reducible exact Keeps.refl _ _
    | with_reducible refine (State.updClu_keeps ..).step (by decide) ?_


end Sys2Proof.Machine
end

