-- ==== Sys2Proof/Laws/ClrOps.lean ====
section
/-!
SUPPORT. What the operations of Machine/ClrOps.lean may change.
-/
namespace Sys2Proof.Machine

theorem clrDiscard_keeps (a1 a2 a3) (s : State) :
    Keeps [.hm, .hif, .ldg, .clr] s (clrDiscard a1 a2 a3 s) := by
  unfold clrDiscard; try dsimp only
  repeat' first
    | with_reducible exact Keeps.refl _ _
    | with_reducible refine (State.updLnk_keeps ..).step (by decide) ?_
    | with_reducible refine (emitTrs_keeps ..).step (by decide) ?_
    | with_reducible refine Keeps.ite ?_ ?_

theorem clrTheta_keeps (a1 a2) (s : State) :
    Keeps [.clr] s (clrTheta a1 a2 s) := by
  unfold clrTheta; try dsimp only
  repeat' first
    | with_reducible exact Keeps.refl _ _
    | with_reducible refine (State.updLnk_keeps ..).step (by decide) ?_
    | with_reducible refine Keeps.ite ?_ ?_

theorem clrSample_keeps (a1 a2) (s : State) :
    Keeps [.clr] s (clrSample a1 a2 s) := by
  unfold clrSample; try dsimp only
  repeat' first
    | with_reducible exact Keeps.refl _ _
    | with_reducible refine (State.updLnk_keeps ..).step (by decide) ?_
    | with_reducible refine Keeps.ite ?_ ?_

theorem clrAccept_keeps (a1 a2 a3) (s : State) :
    Keeps [.clr] s (clrAccept a1 a2 a3 s) := by
  unfold clrAccept; try dsimp only
  repeat' first
    | with_reducible exact Keeps.refl _ _
    | with_reducible refine (clrSample_keeps ..).step (by decide) ?_
    | with_reducible refine (clrTheta_keeps ..).step (by decide) ?_
    | with_reducible refine (State.updLnk_keeps ..).step (by decide) ?_
    | with_reducible refine Keeps.ite ?_ ?_

theorem clrNewInc_keeps (a1 a2) (s : State) :
    Keeps [.hm, .hif, .ldg, .trs, .clr] s (clrNewInc a1 a2 s) := by
  unfold clrNewInc; try dsimp only
  repeat' first
    | with_reducible exact Keeps.refl _ _
    | with_reducible refine (State.updLnk_keeps ..).step (by decide) ?_
    | with_reducible refine (State.onTrs_keeps ..).step (by decide) ?_
    | with_reducible refine (emitTrs_keeps ..).step (by decide) ?_
    | with_reducible refine Keeps.ite ?_ ?_

theorem clrPresent_keeps (a1) (s : State) :
    Keeps [.hm, .hif, .ldg, .clr] s (clrPresent a1 s) := by
  unfold clrPresent; try dsimp only
  repeat' first
    | with_reducible exact Keeps.refl _ _
    | with_reducible refine (State.updLnk_keeps ..).step (by decide) ?_
    | with_reducible refine (emitTrs_keeps ..).step (by decide) ?_
    | with_reducible refine Keeps.ite ?_ ?_

theorem clrRefuse_keeps (a1 a2 a3) (s : State) :
    Keeps [.hm, .hif, .ldg, .clr] s (clrRefuse a1 a2 a3 s) := by
  unfold clrRefuse; try dsimp only
  repeat' first
    | with_reducible exact Keeps.refl _ _
    | with_reducible refine (clrSend_keeps ..).step (by decide) ?_
    | with_reducible refine (emitTrs_keeps ..).step (by decide) ?_

theorem clrOnJoin_keeps (a1 a2) (s : State) :
    Keeps [.hm, .hif, .ldg, .trs, .clr] s (clrOnJoin a1 a2 s) := by
  unfold clrOnJoin; try dsimp only
  repeat' first
    | with_reducible exact Keeps.refl _ _
    | with_reducible refine (clrRefuse_keeps ..).step (by decide) ?_
    | with_reducible refine (clrAccept_keeps ..).step (by decide) ?_
    | with_reducible refine (clrNewInc_keeps ..).step (by decide) ?_
    | with_reducible refine (State.updLnk_keeps ..).step (by decide) ?_
    | with_reducible refine (clrSendV_keeps ..).step (by decide) ?_
    | with_reducible refine (clrPresent_keeps ..).step (by decide) ?_
    | with_reducible refine Keeps.ite ?_ ?_

theorem clrOnAccept_keeps (a1 a2) (s : State) :
    Keeps [.hm, .hif, .ldg, .trs, .clr] s (clrOnAccept a1 a2 s) := by
  unfold clrOnAccept; try dsimp only
  repeat' first
    | with_reducible exact Keeps.refl _ _
    | with_reducible refine (emitTrs_keeps ..).step (by decide) ?_
    | with_reducible refine (clrAccept_keeps ..).step (by decide) ?_
    | with_reducible refine (clrNewInc_keeps ..).step (by decide) ?_
    | with_reducible refine (clrPresent_keeps ..).step (by decide) ?_
    | with_reducible refine (State.updLnk_keeps ..).step (by decide) ?_
    | with_reducible refine Keeps.ite ?_ ?_

theorem clrGrant_keeps (a1 a2 a3 a4) (s : State) :
    Keeps [.hm, .hif, .ldg, .trs, .clr] s (clrGrant a1 a2 a3 a4 s) := by
  unfold clrGrant; try dsimp only
  repeat' first
    | with_reducible exact Keeps.refl _ _
    | with_reducible refine (emitTrs_keeps ..).step (by decide) ?_
    | with_reducible refine (State.onTrs_keeps ..).step (by decide) ?_
    | with_reducible refine (State.onClr_keeps ..).step (by decide) ?_
    | with_reducible refine (State.updLnk_keeps ..).step (by decide) ?_
    | with_reducible refine (clrSendV_keeps ..).step (by decide) ?_
    | with_reducible refine Keeps.ite ?_ ?_

theorem clrSubLease_keeps (l : Nat) (b : List (Nat × Bor)) (a : Nat) (s : State) :
    Keeps [.hm, .hif, .ldg, .trs, .clr] s (clrSubLease l b a s) := by
  induction b generalizing a s with
  | nil => exact .refl ..
  | cons e b ih =>
    unfold clrSubLease; dsimp only
    exact ((clrGrant_keeps ..).mono (by decide)).trans (ih ..)

theorem clrLend_keeps (a1 a2) (s : State) :
    Keeps [.hm, .hif, .ldg, .trs, .clr] s (clrLend a1 a2 s) := by
  unfold clrLend; try dsimp only
  repeat' first
    | with_reducible exact Keeps.refl _ _
    | with_reducible refine (clrSubLease_keeps ..).step (by decide) ?_
    | with_reducible refine (clrGrant_keeps ..).step (by decide) ?_

theorem clrOnOffer_keeps (a1 a2) (s : State) :
    Keeps [.hm, .hif, .ldg, .trs, .clr] s (clrOnOffer a1 a2 s) := by
  unfold clrOnOffer; try dsimp only
  repeat' first
    | with_reducible exact Keeps.refl _ _
    | with_reducible refine (clrLend_keeps ..).step (by decide) ?_
    | with_reducible refine Keeps.ite ?_ ?_

theorem clrOnState_keeps (a1 a2) (s : State) :
    Keeps [.clr] s (clrOnState a1 a2 s) := by
  unfold clrOnState; try dsimp only
  repeat' first
    | with_reducible exact Keeps.refl _ _
    | with_reducible refine (State.updLnk_keeps ..).step (by decide) ?_
    | with_reducible refine Keeps.ite ?_ ?_

theorem clrDecline_keeps (a1 a2 a3) (s : State) :
    Keeps [.hm, .clr] s (clrDecline a1 a2 a3 s) := by
  unfold clrDecline; try dsimp only
  repeat' first
    | with_reducible exact Keeps.refl _ _
    | with_reducible refine (clrSendV_keeps ..).step (by decide) ?_

theorem clrServe_keeps (a1 a2) (s : State) :
    Keeps [.hm, .hif, .ldg, .trs, .clr] s (clrServe a1 a2 s) := by
  unfold clrServe; try dsimp only
  repeat' first
    | with_reducible assumption
    | with_reducible exact Keeps.refl _ _
    | with_reducible refine forList_keeps _ ?_ ?_
    | with_reducible refine (State.updLnk_keeps ..).step (by decide) ?_
    | with_reducible refine (clrGrant_keeps ..).step (by decide) ?_
    | with_reducible refine Keeps.ite ?_ ?_
    | intro _ _ _

theorem clrRenewed_keeps (a1 a2 a3 a4) (s : State) :
    Keeps [.clr] s (clrRenewed a1 a2 a3 a4 s) := by
  unfold clrRenewed; try dsimp only
  repeat' first
    | with_reducible exact Keeps.refl _ _
    | with_reducible refine (State.updLnk_keeps ..).step (by decide) ?_
    | with_reducible refine Keeps.ite ?_ ?_

theorem clrOnLease_keeps (a1 a2) (s : State) :
    Keeps [.hm, .hif, .ldg, .trs, .clr] s (clrOnLease a1 a2 s) := by
  unfold clrOnLease; try dsimp only
  repeat' first
    | with_reducible exact Keeps.refl _ _
    | with_reducible refine (clrRenewed_keeps ..).step (by decide) ?_
    | with_reducible refine (clrDecline_keeps ..).step (by decide) ?_
    | with_reducible refine (emitTrs_keeps ..).step (by decide) ?_
    | with_reducible refine (State.updLnk_keeps ..).step (by decide) ?_
    | with_reducible refine (clrServe_keeps ..).step (by decide) ?_
    | with_reducible refine (State.onTrs_keeps ..).step (by decide) ?_
    | with_reducible refine Keeps.ite ?_ ?_

theorem clrOnReturn_keeps (a1 a2) (s : State) :
    Keeps [.trs, .clr] s (clrOnReturn a1 a2 s) := by
  unfold clrOnReturn; try dsimp only
  repeat' first
    | with_reducible exact Keeps.refl _ _
    | with_reducible refine (State.onTrs_keeps ..).step (by decide) ?_
    | with_reducible refine (State.updLnk_keeps ..).step (by decide) ?_
    | with_reducible refine Keeps.ite ?_ ?_

theorem clrOnLeave_keeps (a1 a2) (s : State) :
    Keeps [.hm, .hif, .ldg, .trs, .clr] s (clrOnLeave a1 a2 s) := by
  unfold clrOnLeave; try dsimp only
  repeat' first
    | with_reducible exact Keeps.refl _ _
    | with_reducible refine (returnAll_keeps ..).step (by decide) ?_
    | with_reducible refine (State.updLnk_keeps ..).step (by decide) ?_
    | with_reducible refine (emitTrs_keeps ..).step (by decide) ?_

theorem clrPeerHold_keeps (a1) (s : State) :
    Keeps [.trs, .clr] s (clrPeerHold a1 s) := by
  unfold clrPeerHold; try dsimp only
  repeat' first
    | with_reducible exact Keeps.refl _ _
    | with_reducible refine (returnAll_keeps ..).step (by decide) ?_
    | with_reducible refine Keeps.ite ?_ ?_

theorem clrPerform_keeps (a1 a2 a3) (s : State) :
    Keeps [.hm, .hif, .ldg, .trs, .clr] s (clrPerform a1 a2 a3 s) := by
  unfold clrPerform; try dsimp only
  repeat' first
    | with_reducible exact Keeps.refl _ _
    | with_reducible refine (clrOnJoin_keeps ..).step (by decide) ?_
    | with_reducible refine (clrOnAccept_keeps ..).step (by decide) ?_
    | with_reducible refine (clrPeerHold_keeps ..).step (by decide) ?_
    | with_reducible refine (clrAccept_keeps ..).step (by decide) ?_
    | with_reducible refine (clrOnState_keeps ..).step (by decide) ?_
    | with_reducible refine (clrOnOffer_keeps ..).step (by decide) ?_
    | with_reducible refine (clrOnLease_keeps ..).step (by decide) ?_
    | with_reducible refine (clrOnReturn_keeps ..).step (by decide) ?_
    | with_reducible refine (clrOnLeave_keeps ..).step (by decide) ?_
    | with_reducible refine Keeps.ite ?_ ?_

theorem clrReceive_keeps (a1 a2 a3) (s : State) :
    Keeps [.hm, .hif, .ldg, .trs, .clr] s (clrReceive a1 a2 a3 s) := by
  unfold clrReceive; try dsimp only
  repeat' first
    | with_reducible exact Keeps.refl _ _
    | with_reducible refine (clrDiscard_keeps ..).step (by decide) ?_
    | with_reducible refine (clrPerform_keeps ..).step (by decide) ?_
    | with_reducible refine (clrSendV_keeps ..).step (by decide) ?_
    | with_reducible refine Keeps.ite ?_ ?_

theorem clrJudge_keeps (a1) (s : State) :
    Keeps [.hm, .hif, .ldg, .fc, .trs, .clr, .aud] s (clrJudge a1 s) := by
  unfold clrJudge; try dsimp only
  repeat' first
    | with_reducible exact Keeps.refl _ _
    | with_reducible refine (State.updLnk_keeps ..).step (by decide) ?_
    | with_reducible refine (emitTrs_keeps ..).step (by decide) ?_
    | with_reducible refine (audAbandon_keeps ..).step (by decide) ?_
    | with_reducible refine Keeps.ite ?_ ?_
    | split

theorem clrRenew_keeps (a1) (s : State) :
    Keeps [.hm, .clr] s (clrRenew a1 s) := by
  unfold clrRenew; try dsimp only
  repeat' first
    | with_reducible assumption
    | with_reducible exact Keeps.refl _ _
    | with_reducible refine forList_keeps _ ?_ ?_
    | with_reducible refine (State.updLnk_keeps ..).step (by decide) ?_
    | with_reducible refine (clrSendV_keeps ..).step (by decide) ?_
    | with_reducible refine Keeps.ite ?_ ?_
    | split
    | intro _ _ _
    | intro _ _

theorem clrUnneeded_keeps (a1) (s : State) :
    Keeps [.trs, .clr] s (clrUnneeded a1 s) := by
  unfold clrUnneeded; try dsimp only
  repeat' first
    | with_reducible assumption
    | with_reducible exact Keeps.refl _ _
    | with_reducible refine (beginReturn_keeps ..).step (by decide) ?_
    | with_reducible refine Keeps.ite ?_ ?_
    | with_reducible refine foldl_keeps _ ?_ ?_
    | with_reducible refine foldlFst_keeps _ ?_ ?_
    | with_reducible refine foldlSnd_keeps _ ?_ ?_
    | intro _ _ _
    | split

theorem clrWaitf_keeps (s : State) :
    Keeps [.syn] s (clrWaitf s) := by
  unfold clrWaitf; try dsimp only
  repeat' first
    | with_reducible assumption
    | with_reducible exact Keeps.refl _ _
    | with_reducible refine forList_keeps _ ?_ ?_
    | with_reducible refine (waitMark_keeps ..).step (by decide) ?_
    | with_reducible refine (State.updCore_keeps ..).step (by decide) ?_
    | with_reducible refine (State.onSyn_keeps ..).step (by decide) ?_
    | intro _ _ _
    | intro _ _

theorem clrGrants_keeps (a1) (s : State) :
    Keeps [.hm, .hif, .ldg, .trs, .clr] s (clrGrants a1 s) := by
  unfold clrGrants; try dsimp only
  repeat' first
    | with_reducible assumption
    | with_reducible exact Keeps.refl _ _
    | with_reducible refine foldl_keeps _ ?_ ?_
    | with_reducible refine foldlFst_keeps _ ?_ ?_
    | with_reducible refine foldlSnd_keeps _ ?_ ?_
    | with_reducible refine (clrLend_keeps ..).step (by decide) ?_
    | with_reducible refine (State.updLnk_keeps ..).step (by decide) ?_
    | intro _ _ _
    | intro _ _

theorem clrReport_keeps (a1) (s : State) :
    Keeps [.hm, .clr] s (clrReport a1 s) := by
  unfold clrReport; try dsimp only
  repeat' first
    | with_reducible assumption
    | with_reducible exact Keeps.refl _ _
    | with_reducible refine forList_keeps _ ?_ ?_
    | with_reducible refine (clrSendV_keeps ..).step (by decide) ?_
    | with_reducible refine (State.onClr_keeps ..).step (by decide) ?_
    | with_reducible refine Keeps.ite ?_ ?_
    | intro _ _ _

theorem clrRound_keeps (s : State) :
    Keeps [.hm, .hif, .ldg, .fc, .trs, .syn, .clr, .aud] s (clrRound s) := by
  unfold clrRound; try dsimp only
  repeat' first
    | with_reducible assumption
    | with_reducible exact Keeps.refl _ _
    | with_reducible refine (State.onClr_keeps ..).step (by decide) ?_
    | with_reducible refine (clrWaitf_keeps ..).step (by decide) ?_
    | with_reducible refine forList_keeps _ ?_ ?_
    | with_reducible refine (clrJudge_keeps ..).step (by decide) ?_
    | with_reducible refine (clrReport_keeps ..).step (by decide) ?_
    | with_reducible refine (clrRenew_keeps ..).step (by decide) ?_
    | with_reducible refine (clrGrants_keeps ..).step (by decide) ?_
    | with_reducible refine (clrUnneeded_keeps ..).step (by decide) ?_
    | with_reducible refine Keeps.ite ?_ ?_
    | intro _ _ _

theorem clrBoundary_keeps (s : State) :
    Keeps [.clr] s (clrBoundary s) := by
  unfold clrBoundary; try dsimp only
  repeat' first
    | with_reducible assumption
    | with_reducible exact Keeps.refl _ _
    | with_reducible refine forList_keeps _ ?_ ?_
    | with_reducible refine (State.updLnk_keeps ..).step (by decide) ?_
    | intro _ _ _
    | intro _ _


end Sys2Proof.Machine
end

