-- ==== Sys2Proof/Laws/Clr.lean ====
section
/-!
SUPPORT. What the operations of Machine/Clr.lean may change.
-/
namespace Sys2Proof.Machine

theorem clrPoll_keeps (a1 a2) (s : State) :
    Keeps [.hm, .hif, .ldg, .trs, .clr] s (clrPoll a1 a2 s) := by
  unfold clrPoll; try dsimp only
  repeat' first
    | with_reducible exact Keeps.refl _ _
    | with_reducible refine (clrDiscard_keeps ..).step (by decide) ?_
    | with_reducible refine (clrReceive_keeps ..).step (by decide) ?_
    | with_reducible refine (State.updLnk_keeps ..).step (by decide) ?_
    | with_reducible refine Keeps.ite ?_ ?_
    | split

theorem clrReread_keeps (a1 a2) (s : State) :
    Keeps [.hm, .hif, .ldg, .trs, .clr] s (clrReread a1 a2 s) := by
  unfold clrReread; try dsimp only
  repeat' first
    | with_reducible exact Keeps.refl _ _
    | with_reducible refine (State.updLnk_keeps ..).step (by decide) ?_
    | with_reducible refine (clrDiscard_keeps ..).step (by decide) ?_
    | with_reducible refine (clrReceive_keeps ..).step (by decide) ?_
    | with_reducible refine Keeps.ite ?_ ?_
    | split

theorem returnSend_keeps (a1 a2) (s : State) :
    Keeps [.hm, .clr] s (returnSend a1 a2 s) := by
  unfold returnSend; try dsimp only
  repeat' first
    | with_reducible exact Keeps.refl _ _
    | with_reducible refine (clrSendV_keeps ..).step (by decide) ?_
    | with_reducible refine (State.updLnk_keeps ..).step (by decide) ?_
    | with_reducible refine Keeps.ite ?_ ?_
    | split

theorem borExpire_keeps (a1 a2) (s : State) :
    Keeps [.trs, .clr] s (borExpire a1 a2 s) := by
  unfold borExpire; try dsimp only
  repeat' first
    | with_reducible exact Keeps.refl _ _
    | with_reducible refine (State.onTrs_keeps ..).step (by decide) ?_
    | with_reducible refine (State.updLnk_keeps ..).step (by decide) ?_
    | with_reducible refine Keeps.ite ?_ ?_

theorem lentExpire_keeps (a1 a2) (s : State) :
    Keeps [.hm, .hif, .ldg, .trs, .clr] s (lentExpire a1 a2 s) := by
  unfold lentExpire; try dsimp only
  repeat' first
    | with_reducible exact Keeps.refl _ _
    | with_reducible refine (State.onTrs_keeps ..).step (by decide) ?_
    | with_reducible refine (State.updLnk_keeps ..).step (by decide) ?_
    | with_reducible refine (emitTrs_keeps ..).step (by decide) ?_
    | with_reducible refine Keeps.ite ?_ ?_
    | split

theorem ackMiss_keeps (a1) (s : State) :
    Keeps [.clr] s (ackMiss a1 s) := by
  unfold ackMiss; try dsimp only
  repeat' first
    | with_reducible exact Keeps.refl _ _
    | with_reducible refine (State.updLnk_keeps ..).step (by decide) ?_
    | with_reducible refine Keeps.ite ?_ ?_

theorem joinRetry_keeps (a1) (s : State) :
    Keeps [.hm, .clr] s (joinRetry a1 s) := by
  unfold joinRetry; try dsimp only
  repeat' first
    | with_reducible exact Keeps.refl _ _
    | with_reducible refine (clrJoin_keeps ..).step (by decide) ?_
    | with_reducible refine (State.updLnk_keeps ..).step (by decide) ?_
    | with_reducible refine Keeps.ite ?_ ?_
    | split

theorem clrStart_keeps (a1) (s : State) :
    Keeps [.hm, .clr] s (clrStart a1 s) := by
  unfold clrStart; try dsimp only
  repeat' first
    | with_reducible exact Keeps.refl _ _
    | with_reducible refine (clrJoin_keeps ..).step (by decide) ?_
    | with_reducible refine (State.updLnk_keeps ..).step (by decide) ?_

theorem clrStop_keeps (a1 a2) (s : State) :
    Keeps [.hm, .trs, .clr] s (clrStop a1 a2 s) := by
  unfold clrStop; try dsimp only
  repeat' first
    | with_reducible exact Keeps.refl _ _
    | with_reducible refine (clrSendV_keeps ..).step (by decide) ?_
    | with_reducible refine (State.updLnk_keeps ..).step (by decide) ?_
    | with_reducible refine (returnAll_keeps ..).step (by decide) ?_
    | with_reducible refine Keeps.ite ?_ ?_

theorem clrRes_keeps (a1) (s : State) :
    Keeps [.clr] s (clrRes a1 s) := by
  unfold clrRes; try dsimp only
  repeat' first
    | with_reducible exact Keeps.refl _ _
    | with_reducible refine (State.onClr_keeps ..).step (by decide) ?_

theorem clrEnable_keeps (a1) (s : State) :
    Keeps [.hm, .trs, .clr] s (clrEnable a1 s) := by
  unfold clrEnable; try dsimp only
  repeat' first
    | with_reducible assumption
    | with_reducible exact Keeps.refl _ _
    | with_reducible refine forList_keeps _ ?_ ?_
    | with_reducible refine (clrStart_keeps ..).step (by decide) ?_
    | with_reducible refine (State.onClr_keeps ..).step (by decide) ?_
    | with_reducible refine (clrStop_keeps ..).step (by decide) ?_
    | with_reducible refine Keeps.ite ?_ ?_
    | intro _ _ _

theorem clrCfgWrite_keeps (a1) (s : State) :
    Keeps [.hm, .trs, .clr] s (clrCfgWrite a1 s) := by
  unfold clrCfgWrite; try dsimp only
  repeat' first
    | with_reducible exact Keeps.refl _ _
    | with_reducible refine (clrRes_keeps ..).step (by decide) ?_
    | with_reducible refine (clrEnable_keeps ..).step (by decide) ?_
    | with_reducible refine (State.onClr_keeps ..).step (by decide) ?_
    | with_reducible refine Keeps.ite ?_ ?_

theorem lnkEnable_keeps (a1 a2) (s : State) :
    Keeps [.hm, .trs, .clr] s (lnkEnable a1 a2 s) := by
  unfold lnkEnable; try dsimp only
  repeat' first
    | with_reducible exact Keeps.refl _ _
    | with_reducible refine (State.updLnk_keeps ..).step (by decide) ?_
    | with_reducible refine (clrStart_keeps ..).step (by decide) ?_
    | with_reducible refine (clrStop_keeps ..).step (by decide) ?_
    | with_reducible refine Keeps.ite ?_ ?_

theorem clrCnt_keeps (s : State) :
    Keeps [.clr] s (clrCnt s) := by
  unfold clrCnt; try dsimp only
  repeat' first
    | with_reducible assumption
    | with_reducible exact Keeps.refl _ _
    | with_reducible refine forList_keeps _ ?_ ?_
    | with_reducible refine (clrRes_keeps ..).step (by decide) ?_
    | with_reducible refine (State.updLnk_keeps ..).step (by decide) ?_
    | intro _ _ _
    | intro _ _

theorem derateDivs_keeps (s : State) :
    Keeps [.clk, .hm, .hif, .ldg] s (derateDivs s) := by
  unfold derateDivs; try dsimp only
  repeat' first
    | with_reducible assumption
    | with_reducible exact Keeps.refl _ _
    | with_reducible refine forList_keeps _ ?_ ?_
    | with_reducible refine (mapDiv_keeps ..).step (by decide) ?_
    | intro _ _ _
    | intro _ _

theorem driftDerate_keeps (a1) (s : State) :
    Keeps [.clk, .hm, .hif, .ldg] s (driftDerate a1 s) := by
  unfold driftDerate; try dsimp only
  repeat' first
    | with_reducible exact Keeps.refl _ _
    | with_reducible refine (State.onClk_keeps ..).step (by decide) ?_
    | with_reducible refine (rootRequest_keeps ..).step (by decide) ?_
    | with_reducible refine (derateDivs_keeps ..).step (by decide) ?_
    | with_reducible refine Keeps.ite ?_ ?_

theorem driftUnderate_keeps (s : State) :
    Keeps [.clk] s (driftUnderate s) := by
  unfold driftUnderate; try dsimp only
  repeat' first
    | with_reducible exact Keeps.refl _ _
    | with_reducible refine (State.onClk_keeps ..).step (by decide) ?_
    | with_reducible refine (rootRequest_keeps ..).step (by decide) ?_
    | with_reducible refine Keeps.ite ?_ ?_

theorem driftAct_keeps (a1 a2) (s : State) :
    Keeps [.pwr, .tb, .clk, .loop, .hm, .hif, .ldg, .fw, .trs, .syn, .clr] s (driftAct a1 a2 s) := by
  unfold driftAct; try dsimp only
  repeat' first
    | with_reducible exact Keeps.refl _ _
    | with_reducible refine (refLossCore_keeps ..).step (by decide) ?_
    | with_reducible refine (driftDerate_keeps ..).step (by decide) ?_
    | with_reducible refine (State.onClk_keeps ..).step (by decide) ?_
    | with_reducible refine (emitClk_keeps ..).step (by decide) ?_
    | with_reducible refine (driftUnderate_keeps ..).step (by decide) ?_
    | with_reducible refine Keeps.ite ?_ ?_

theorem driftMeasure_keeps (a1) (s : State) :
    Keeps [.pwr, .tb, .clk, .loop, .hm, .hif, .ldg, .fw, .trs, .syn, .clr] s (driftMeasure a1 s) := by
  unfold driftMeasure; try dsimp only
  repeat' first
    | with_reducible assumption
    | with_reducible exact Keeps.refl _ _
    | with_reducible refine forList_keeps _ ?_ ?_
    | with_reducible refine (State.updLnk_keeps ..).step (by decide) ?_
    | with_reducible refine (State.onClr_keeps ..).step (by decide) ?_
    | with_reducible refine (State.onClk_keeps ..).step (by decide) ?_
    | with_reducible refine (emitClk_keeps ..).step (by decide) ?_
    | with_reducible refine (driftAct_keeps ..).step (by decide) ?_
    | with_reducible refine (refStable_keeps ..).step (by decide) ?_
    | with_reducible refine Keeps.ite ?_ ?_
    | intro _ _ _
    | intro _ _


end Sys2Proof.Machine
end

