-- ==== Sys2Proof/Laws/Clk.lean ====
section
/-!
SUPPORT. What the operations of Machine/Clk.lean may change.
-/
namespace Sys2Proof.Machine

theorem refWindow_keeps (a1) (s : State) :
    Keeps [.pwr, .tb, .clk, .loop, .hm, .hif, .ldg, .fw, .trs, .syn, .clr] s (refWindow a1 s) := by
  unfold refWindow; try dsimp only
  repeat' first
    | with_reducible assumption
    | with_reducible exact Keeps.refl _ _
    | with_reducible refine (State.onClk_keeps ..).step (by decide) ?_
    | with_reducible refine (refStable_keeps ..).step (by decide) ?_
    | with_reducible refine (refLossCore_keeps ..).step (by decide) ?_
    | with_reducible refine Keeps.ite ?_ ?_
    | with_reducible refine refBreak_keeps ?_ (by decide) ?_
    | intro _ _ _
    | intro _ _

theorem rootReq_keeps (a1) (s : State) :
    Keeps [.clk] s (rootReq a1 s) := by
  unfold rootReq; try dsimp only
  repeat' first
    | with_reducible exact Keeps.refl _ _
    | with_reducible refine (State.onClk_keeps ..).step (by decide) ?_
    | with_reducible refine (rootRequest_keeps ..).step (by decide) ?_
    | with_reducible refine Keeps.ite ?_ ?_

theorem pllLock_keeps (s : State) :
    Keeps [.pwr, .clk, .loop, .hm, .hif, .ldg] s (pllLock s) := by
  unfold pllLock; try dsimp only
  repeat' first
    | with_reducible exact Keeps.refl _ _
    | with_reducible refine (State.onClk_keeps ..).step (by decide) ?_
    | with_reducible refine (State.onPwr_keeps ..).step (by decide) ?_
    | with_reducible refine (rootAdvance_keeps ..).step (by decide) ?_
    | with_reducible refine Keeps.ite ?_ ?_
    | split

theorem relockRetry_keeps (s : State) :
    Keeps [.clk, .hm, .hif, .ldg] s (relockRetry s) := by
  unfold relockRetry; try dsimp only
  repeat' first
    | with_reducible exact Keeps.refl _ _
    | with_reducible refine (emitClk_keeps ..).step (by decide) ?_
    | with_reducible refine (State.onClk_keeps ..).step (by decide) ?_
    | with_reducible refine Keeps.ite ?_ ?_
    | split

theorem pllFailStep_keeps (s : State) :
    Keeps [.pwr, .clk, .loop, .hm, .hif, .ldg, .fw, .trs, .syn] s (pllFailStep s) := by
  unfold pllFailStep; try dsimp only
  repeat' first
    | with_reducible exact Keeps.refl _ _
    | with_reducible refine (pllFail_keeps ..).step (by decide) ?_
    | with_reducible refine Keeps.ite ?_ ?_
    | split

theorem pllRetry_keeps (s : State) :
    Keeps [.clk] s (pllRetry s) := by
  unfold pllRetry; try dsimp only
  repeat' first
    | with_reducible exact Keeps.refl _ _
    | with_reducible refine (State.onClk_keeps ..).step (by decide) ?_
    | with_reducible refine (rootLock_keeps ..).step (by decide) ?_
    | with_reducible refine Keeps.ite ?_ ?_

theorem leafApply_keeps (a1) (s : State) :
    Keeps [.clk] s (leafApply a1 s) := by
  unfold leafApply; try dsimp only
  repeat' first
    | with_reducible exact Keeps.refl _ _
    | with_reducible refine (State.updDom_keeps ..).step (by decide) ?_
    | with_reducible refine Keeps.ite ?_ ?_
    | split

theorem set7Advance_keeps (s : State) :
    Keeps [.pwr, .clk, .sns, .rail, .loop, .hm, .hif, .ldg, .fw, .trs, .syn] s (set7Advance s) := by
  unfold set7Advance; try dsimp only
  repeat' first
    | with_reducible assumption
    | with_reducible exact Keeps.refl _ _
    | with_reducible refine (State.onSns_keeps ..).step (by decide) ?_
    | with_reducible refine forList_keeps _ ?_ ?_
    | with_reducible refine (retarget_keeps ..).step (by decide) ?_
    | with_reducible refine (State.updReg_keeps ..).step (by decide) ?_
    | with_reducible refine (State.onRail_keeps ..).step (by decide) ?_
    | with_reducible refine (stopClustersOf_keeps ..).step (by decide) ?_
    | with_reducible refine (emitSns_keeps ..).step (by decide) ?_
    | with_reducible refine (setAlarm_keeps ..).step (by decide) ?_
    | with_reducible refine Keeps.ite ?_ ?_
    | intro _ _ _

theorem leafAck_keeps (a1) (s : State) :
    Keeps [.pwr, .clk, .sns, .rail, .loop, .hm, .hif, .ldg, .fw, .trs, .syn] s (leafAck a1 s) := by
  unfold leafAck; try dsimp only
  repeat' first
    | with_reducible exact Keeps.refl _ _
    | with_reducible refine (rampDownLevels_keeps ..).step (by decide) ?_
    | with_reducible refine (set7Advance_keeps ..).step (by decide) ?_
    | with_reducible refine (rootAdvance_keeps ..).step (by decide) ?_
    | with_reducible refine (leafApply_keeps ..).step (by decide) ?_

theorem leafFail_keeps (a1 a2) (s : State) :
    Keeps [.pwr, .clk, .rail, .loop, .hm, .hif, .ldg, .fw, .trs, .syn] s (leafFail a1 a2 s) := by
  unfold leafFail; try dsimp only
  repeat' first
    | with_reducible assumption
    | with_reducible exact Keeps.refl _ _
    | with_reducible refine (State.updDom_keeps ..).step (by decide) ?_
    | with_reducible refine (domStopNow_keeps ..).step (by decide) ?_
    | with_reducible refine forList_keeps _ ?_ ?_
    | with_reducible refine (cluStop_keeps ..).step (by decide) ?_
    | with_reducible refine (State.updClu_keeps ..).step (by decide) ?_
    | with_reducible refine (rampDownLevels_keeps ..).step (by decide) ?_
    | with_reducible refine (rootAdvance_keeps ..).step (by decide) ?_
    | with_reducible refine (emitClk_keeps ..).step (by decide) ?_
    | with_reducible refine (setAlarm_keeps ..).step (by decide) ?_
    | with_reducible refine Keeps.ite ?_ ?_
    | intro _ _ _

theorem leafRetry_keeps (a1) (s : State) :
    Keeps [.clk] s (leafRetry a1 s) := by
  unfold leafRetry; try dsimp only
  repeat' first
    | with_reducible exact Keeps.refl _ _
    | with_reducible refine (domGo_keeps ..).step (by decide) ?_
    | with_reducible refine (State.updDom_keeps ..).step (by decide) ?_
    | with_reducible refine Keeps.ite ?_ ?_

theorem leafRestored_keeps (a1) (s : State) :
    Keeps [.clk, .loop, .hm, .hif, .ldg] s (leafRestored a1 s) := by
  unfold leafRestored; try dsimp only
  repeat' first
    | with_reducible assumption
    | with_reducible exact Keeps.refl _ _
    | with_reducible refine forList_keeps _ ?_ ?_
    | with_reducible refine (State.updDom_keeps ..).step (by decide) ?_
    | with_reducible refine (State.updClu_keeps ..).step (by decide) ?_
    | with_reducible refine (cluRestart_keeps ..).step (by decide) ?_
    | with_reducible refine (domStopNow_keeps ..).step (by decide) ?_
    | with_reducible refine (emitClk_keeps ..).step (by decide) ?_
    | with_reducible refine Keeps.ite ?_ ?_
    | intro _ _ _
    | intro _ _

theorem droopFire_keeps (a1) (s : State) :
    Keeps [.clk, .sns] s (droopFire a1 s) := by
  unfold droopFire; try dsimp only
  repeat' first
    | with_reducible exact Keeps.refl _ _
    | with_reducible refine (State.updDom_keeps ..).step (by decide) ?_
    | with_reducible refine (State.updDet_keeps ..).step (by decide) ?_
    | with_reducible refine Keeps.ite ?_ ?_


theorem extensionEnd_keeps (a1) (s : State) :
    Keeps [.clk] s (extensionEnd a1 s) := by
  unfold extensionEnd; try dsimp only
  repeat' first
    | with_reducible exact Keeps.refl _ _
    | with_reducible refine (State.updDom_keeps ..).step (by decide) ?_
    | with_reducible refine Keeps.ite ?_ ?_

end Sys2Proof.Machine
end

