-- ==== Sys2Proof/Laws/Sense.lean ====
section
/-!
SUPPORT. What the operations of Machine/Sense.lean may change.
-/
namespace Sys2Proof.Machine

theorem siteSample_keeps (a1) (s : State) :
    Keeps [.sns] s (siteSample a1 s) := by
  unfold siteSample; try dsimp only
  repeat' first
    | with_reducible exact Keeps.refl _ _
    | with_reducible refine (State.updSite_keeps ..).step (by decide) ?_
    | with_reducible refine Keeps.ite ?_ ?_

theorem siteDiffers_keeps (a1 a2) (s : State) :
    Keeps [.sns, .hm, .hif, .ldg] s (siteDiffers a1 a2 s) := by
  unfold siteDiffers; try dsimp only
  repeat' first
    | with_reducible exact Keeps.refl _ _
    | with_reducible refine (State.updSite_keeps ..).step (by decide) ?_
    | with_reducible refine (emitSns_keeps ..).step (by decide) ?_
    | with_reducible refine Keeps.ite ?_ ?_

theorem sitePlausible_keeps (a1 a2) (s : State) :
    Keeps [.sns, .hm, .hif, .ldg] s (sitePlausible a1 a2 s) := by
  unfold sitePlausible; try dsimp only
  repeat' first
    | with_reducible exact Keeps.refl _ _
    | with_reducible refine (siteDiffers_keeps ..).step (by decide) ?_
    | with_reducible refine (State.updSite_keeps ..).step (by decide) ?_
    | with_reducible refine Keeps.ite ?_ ?_
    | split

theorem siteStamp_keeps (a1) (s : State) :
    Keeps [.sns, .free] s (siteStamp a1 s) := by
  unfold siteStamp; try dsimp only
  repeat' first
    | with_reducible exact Keeps.refl _ _
    | with_reducible refine (State.updSite_keeps ..).step (by decide) ?_
    | with_reducible refine (State.drawn_keeps ..).step (by decide) ?_

theorem siteResult_keeps (a1 a2) (s : State) :
    Keeps [.pwr, .clk, .sns, .loop, .hm, .hif, .ldg, .aud, .free] s (siteResult a1 a2 s) := by
  unfold siteResult; try dsimp only
  repeat' first
    | with_reducible exact Keeps.refl _ _
    | with_reducible refine (oscComp_keeps ..).step (by decide) ?_
    | with_reducible refine (siteStamp_keeps ..).step (by decide) ?_
    | with_reducible refine (State.updSite_keeps ..).step (by decide) ?_
    | with_reducible refine (emitSns_keeps ..).step (by decide) ?_
    | with_reducible refine (siteChanged_keeps ..).step (by decide) ?_
    | with_reducible refine (sitePlausible_keeps ..).step (by decide) ?_
    | with_reducible refine (tapTemps_keeps ..).step (by decide) ?_
    | with_reducible refine Keeps.ite ?_ ?_

theorem thermTrip_keeps (a1) (s : State) :
    Keeps [.pwr, .clk, .rail, .frec, .loop, .hm, .hif, .ldg, .fw, .fc, .trs, .syn, .aud] s (thermTrip a1 s) := by
  unfold thermTrip; try dsimp only
  repeat' first
    | with_reducible assumption
    | with_reducible exact Keeps.refl _ _
    | with_reducible refine (State.onAud_keeps ..).step (by decide) ?_
    | with_reducible refine (frecTake_keeps ..).step (by decide) ?_
    | with_reducible refine (emitTrip_keeps ..).step (by decide) ?_
    | with_reducible refine (setAlarm_keeps ..).step (by decide) ?_
    | with_reducible refine (audAbandon_keeps ..).step (by decide) ?_
    | with_reducible refine (fastStopAll_keeps ..).step (by decide) ?_
    | with_reducible refine forList_keeps _ ?_ ?_
    | with_reducible refine (cluStop_keeps ..).step (by decide) ?_
    | with_reducible refine Keeps.ite ?_ ?_
    | intro _ _ _
    | split

theorem restartOk_keeps (s : State) :
    Keeps [.hm, .hif, .ldg, .aud] s (restartOk s) := by
  unfold restartOk; try dsimp only
  repeat' first
    | with_reducible exact Keeps.refl _ _
    | with_reducible refine (State.onAud_keeps ..).step (by decide) ?_
    | with_reducible refine (emitTrip_keeps ..).step (by decide) ?_
    | with_reducible refine Keeps.ite ?_ ?_
    | split

theorem ringMacros_keeps (a1 a2 a3 a4 a5) (s : State) :
    Keeps [.pwr, .clk, .sns, .loop, .hm, .hif, .ldg, .aud] s (ringMacros a1 a2 a3 a4 a5 s) := by
  unfold ringMacros; try dsimp only
  repeat' first
    | with_reducible assumption
    | with_reducible exact Keeps.refl _ _
    | with_reducible refine forList_keeps _ ?_ ?_
    | with_reducible refine (siteChanged_keeps ..).step (by decide) ?_
    | with_reducible refine (State.updSite_keeps ..).step (by decide) ?_
    | with_reducible refine (emitSns_keeps ..).step (by decide) ?_
    | with_reducible refine forIdx_keeps _ _ ?_ ?_
    | with_reducible refine (State.updDet_keeps ..).step (by decide) ?_
    | with_reducible refine (State.updMon_keeps ..).step (by decide) ?_
    | with_reducible refine Keeps.ite ?_ ?_
    | intro _ _ _

theorem ringBreak_keeps (a1 a2 a3) (s : State) :
    Keeps [.pwr, .clk, .sns, .loop, .hm, .hif, .ldg, .aud] s (ringBreak a1 a2 a3 s) := by
  unfold ringBreak; try dsimp only
  repeat' first
    | with_reducible exact Keeps.refl _ _
    | with_reducible refine (State.onSns_keeps ..).step (by decide) ?_
    | with_reducible refine (ringMacros_keeps ..).step (by decide) ?_
    | with_reducible refine (emitSns_keeps ..).step (by decide) ?_

theorem ringFail_keeps (a1 a2 a3) (s : State) :
    Keeps [.pwr, .clk, .sns, .loop, .hm, .hif, .ldg, .aud] s (ringFail a1 a2 a3 s) := by
  unfold ringFail; try dsimp only
  repeat' first
    | with_reducible exact Keeps.refl _ _
    | with_reducible refine (ringBreak_keeps ..).step (by decide) ?_
    | with_reducible refine Keeps.ite ?_ ?_
    | split

theorem ringRetry_keeps (a1 a2 a3) (s : State) :
    Keeps [.pwr, .clk, .sns, .loop, .hm, .hif, .ldg, .aud] s (ringRetry a1 a2 a3 s) := by
  unfold ringRetry; try dsimp only
  repeat' first
    | with_reducible exact Keeps.refl _ _
    | with_reducible refine (State.onSns_keeps ..).step (by decide) ?_
    | with_reducible refine (ringBreak_keeps ..).step (by decide) ?_
    | with_reducible refine (ringMacros_keeps ..).step (by decide) ?_
    | with_reducible refine (emitSns_keeps ..).step (by decide) ?_
    | with_reducible refine Keeps.ite ?_ ?_
    | split

theorem refExclude_keeps (a1) (s : State) :
    Keeps [.pwr, .sns, .hm, .hif, .ldg] s (refExclude a1 s) := by
  unfold refExclude; try dsimp only
  repeat' first
    | with_reducible exact Keeps.refl _ _
    | with_reducible refine (setAlarm_keeps ..).step (by decide) ?_
    | with_reducible refine (State.onSns_keeps ..).step (by decide) ?_
    | with_reducible refine (emitSns_keeps ..).step (by decide) ?_

theorem refCompare_keeps (a1 a2 a3) (s : State) :
    Keeps [.pwr, .clk, .sns, .rail, .loop, .hm, .hif, .ldg, .fw, .trs, .syn] s (refCompare a1 a2 a3 s) := by
  unfold refCompare; try dsimp only
  repeat' first
    | with_reducible exact Keeps.refl _ _
    | with_reducible refine (State.onSns_keeps ..).step (by decide) ?_
    | with_reducible refine (refExclude_keeps ..).step (by decide) ?_
    | with_reducible refine (rampDownLevels_keeps ..).step (by decide) ?_
    | with_reducible refine (set7Advance_keeps ..).step (by decide) ?_
    | with_reducible refine (noMajorityStep1_keeps ..).step (by decide) ?_
    | with_reducible refine Keeps.ite ?_ ?_
    | split

theorem refBroadcast_keeps (s : State) :
    Keeps [.sns] s (refBroadcast s) := by
  unfold refBroadcast; try dsimp only
  repeat' first
    | with_reducible exact Keeps.refl _ _
    | with_reducible refine (State.onSns_keeps ..).step (by decide) ?_
    | with_reducible refine Keeps.ite ?_ ?_

theorem ddRead_keeps (a1) (s : State) :
    Keeps [.sns] s (ddRead a1 s) := by
  unfold ddRead; try dsimp only
  repeat' first
    | with_reducible assumption
    | with_reducible exact Keeps.refl _ _
    | with_reducible refine forIdx_keeps _ _ ?_ ?_
    | with_reducible refine (State.updDet_keeps ..).step (by decide) ?_
    | intro _ _ _
    | intro _ _

theorem tapRewrite_keeps (a1 a2) (s : State) :
    Keeps [.sns, .hm, .hif, .ldg] s (tapRewrite a1 a2 s) := by
  unfold tapRewrite; try dsimp only
  repeat' first
    | with_reducible exact Keeps.refl _ _
    | with_reducible refine (State.updDet_keeps ..).step (by decide) ?_
    | with_reducible refine (emitSns_keeps ..).step (by decide) ?_
    | with_reducible refine Keeps.ite ?_ ?_
    | split

theorem depthWrite_keeps (a1) (s : State) :
    Keeps [.sns] s (depthWrite a1 s) := by
  unfold depthWrite; try dsimp only
  repeat' first
    | with_reducible exact Keeps.refl _ _
    | with_reducible refine (State.updDet_keeps ..).step (by decide) ?_
    | with_reducible refine Keeps.ite ?_ ?_

theorem amMeasure_keeps (a1 a2) (s : State) :
    Keeps [.sns, .hm, .hif, .ldg] s (amMeasure a1 a2 s) := by
  unfold amMeasure; try dsimp only
  repeat' first
    | with_reducible exact Keeps.refl _ _
    | with_reducible refine (State.updMon_keeps ..).step (by decide) ?_
    | with_reducible refine (emitSns_keeps ..).step (by decide) ?_
    | with_reducible refine Keeps.ite ?_ ?_
    | split


end Sys2Proof.Machine
end

