-- ==== Sys2Proof/Laws/Aud.lean ====
section
/-!
SUPPORT. What the operations of Machine/Aud.lean may change.
-/
namespace Sys2Proof.Machine

theorem unitOut_keeps (a1 a2) (s : State) :
    Keeps [.pwr, .clk, .sns, .rail, .loop, .hm, .hif, .ldg, .fw, .tly, .trs, .clr, .aud] s (unitOut a1 a2 s) := by
  unfold unitOut; try dsimp only
  repeat' first
    | with_reducible assumption
    | with_reducible exact Keeps.refl _ _
    | with_reducible refine (State.onTly_keeps ..).step (by decide) ?_
    | with_reducible refine (presetLoops_keeps ..).step (by decide) ?_
    | with_reducible refine (State.updFwCore_keeps ..).step (by decide) ?_
    | with_reducible refine (siteChanged_keeps ..).step (by decide) ?_
    | with_reducible refine (State.updSite_keeps ..).step (by decide) ?_
    | with_reducible refine (returnAll_keeps ..).step (by decide) ?_
    | with_reducible refine forList_keeps _ ?_ ?_
    | with_reducible refine (State.updPh_keeps ..).step (by decide) ?_
    | with_reducible refine (shedUpdate_keeps ..).step (by decide) ?_
    | with_reducible refine Keeps.ite ?_ ?_
    | intro _ _ _
    | split

theorem audOut_keeps (a1 a2 a3) (s : State) :
    Keeps [.pwr, .clk, .sns, .rail, .loop, .hm, .hif, .ldg, .fw, .tly, .trs, .clr, .aud] s (audOut a1 a2 a3 s) := by
  unfold audOut; try dsimp only
  repeat' first
    | with_reducible exact Keeps.refl _ _
    | with_reducible refine (emitClerk_keeps ..).step (by decide) ?_
    | with_reducible refine (State.updUnit_keeps ..).step (by decide) ?_
    | with_reducible refine (unitOut_keeps ..).step (by decide) ?_
    | with_reducible refine Keeps.ite ?_ ?_

theorem audBegin_keeps (a1 a2 a3 a4 a5) (s : State) :
    Keeps [.pwr, .clk, .sns, .rail, .loop, .hm, .hif, .ldg, .fw, .tly, .trs, .clr, .aud] s (audBegin a1 a2 a3 a4 a5 s) := by
  unfold audBegin; try dsimp only
  repeat' first
    | with_reducible exact Keeps.refl _ _
    | with_reducible refine (audOut_keeps ..).step (by decide) ?_
    | with_reducible refine (State.onTly_keeps ..).step (by decide) ?_
    | with_reducible refine (State.updFwCore_keeps ..).step (by decide) ?_
    | with_reducible refine (State.onAud_keeps ..).step (by decide) ?_
    | with_reducible refine (State.updUnit_keeps ..).step (by decide) ?_
    | with_reducible refine Keeps.ite ?_ ?_

theorem bodyAudTest_keeps (a1 a2 a3 a4 a5) (s : State) :
    KeepsD [.pwr, .clk, .sns, .rail, .loop, .hm, .hif, .ldg, .fw, .tly, .trs, .clr, .aud] s (bodyAudTest a1 a2 a3 a4 a5 s) := by
  unfold bodyAudTest; try dsimp only
  repeat' first
    | with_reducible exact Keeps.refl _ _
    | with_reducible refine (DescOut.fail_keeps ..).step (by decide) ?_
    | with_reducible refine (audBegin_keeps ..).step (by decide) ?_
    | with_reducible refine Keeps.ite ?_ ?_
    | with_reducible refine KeepsD.ite ?_ ?_
    | with_reducible refine KeepsD.done ?_
    | with_reducible refine KeepsD.wait ?_

theorem bodyAudRemove_keeps (a1 a2 a3 a4) (s : State) :
    KeepsD [.pwr, .clk, .sns, .rail, .loop, .hm, .hif, .ldg, .fw, .tly, .trs, .clr, .aud] s (bodyAudRemove a1 a2 a3 a4 s) := by
  unfold bodyAudRemove; try dsimp only
  repeat' first
    | with_reducible exact Keeps.refl _ _
    | with_reducible refine (DescOut.fail_keeps ..).step (by decide) ?_
    | with_reducible refine (audOut_keeps ..).step (by decide) ?_
    | with_reducible refine Keeps.ite ?_ ?_
    | with_reducible refine KeepsD.ite ?_ ?_
    | with_reducible refine KeepsD.done ?_

theorem unitBack_keeps (a1 a2) (s : State) :
    Keeps [.pwr, .clk, .sns, .rail, .loop, .hm, .hif, .ldg, .fw, .tly, .aud] s (unitBack a1 a2 s) := by
  unfold unitBack; try dsimp only
  repeat' first
    | with_reducible assumption
    | with_reducible exact Keeps.refl _ _
    | with_reducible refine (State.onTly_keeps ..).step (by decide) ?_
    | with_reducible refine (presetLoops_keeps ..).step (by decide) ?_
    | with_reducible refine (State.updFwCore_keeps ..).step (by decide) ?_
    | with_reducible refine (emitSns_keeps ..).step (by decide) ?_
    | with_reducible refine (siteChanged_keeps ..).step (by decide) ?_
    | with_reducible refine (State.updSite_keeps ..).step (by decide) ?_
    | with_reducible refine forList_keeps _ ?_ ?_
    | with_reducible refine (State.updPh_keeps ..).step (by decide) ?_
    | with_reducible refine Keeps.ite ?_ ?_
    | intro _ _ _
    | split

theorem audBack_keeps (a1 a2) (s : State) :
    Keeps [.pwr, .clk, .sns, .rail, .loop, .hm, .hif, .ldg, .fw, .tly, .aud] s (audBack a1 a2 s) := by
  unfold audBack; try dsimp only
  repeat' first
    | with_reducible exact Keeps.refl _ _
    | with_reducible refine (unitBack_keeps ..).step (by decide) ?_
    | with_reducible refine (State.updUnit_keeps ..).step (by decide) ?_
    | with_reducible refine (emitClerk_keeps ..).step (by decide) ?_

theorem bodyAudReturn_keeps (a1 a2) (s : State) :
    KeepsD [.pwr, .clk, .sns, .rail, .loop, .hm, .hif, .ldg, .fw, .tly, .aud] s (bodyAudReturn a1 a2 s) := by
  unfold bodyAudReturn; try dsimp only
  repeat' first
    | with_reducible exact Keeps.refl _ _
    | with_reducible refine (audBack_keeps ..).step (by decide) ?_
    | with_reducible refine (DescOut.fail_keeps ..).step (by decide) ?_
    | with_reducible refine KeepsD.ite ?_ ?_
    | with_reducible refine KeepsD.done ?_
    | with_reducible refine KeepsD.wait ?_
    | with_reducible refine KeepsD.fail ?_
    | split

theorem audDone_keeps (a1) (s : State) :
    Keeps [.pwr, .clk, .sns, .rail, .loop, .hm, .hif, .ldg, .fw, .tly, .fc, .trs, .aud] s (audDone a1 s) := by
  unfold audDone; try dsimp only
  repeat' first
    | with_reducible exact Keeps.refl _ _
    | with_reducible refine (State.updUnit_keeps ..).step (by decide) ?_
    | with_reducible refine (State.onAud_keeps ..).step (by decide) ?_
    | with_reducible refine (emitClerk_keeps ..).step (by decide) ?_
    | with_reducible refine (audBack_keeps ..).step (by decide) ?_
    | with_reducible refine (setAlarm_keeps ..).step (by decide) ?_
    | with_reducible refine (complete_keeps ..).step (by decide) ?_
    | with_reducible refine Keeps.ite ?_ ?_
    | split

theorem audSchedule_keeps (s : State) :
    Keeps [.pwr, .clk, .sns, .rail, .loop, .hm, .hif, .ldg, .fw, .tly, .trs, .clr, .aud] s (audSchedule s) := by
  unfold audSchedule; try dsimp only
  repeat' first
    | with_reducible exact Keeps.refl _ _
    | with_reducible refine (State.onAud_keeps ..).step (by decide) ?_
    | with_reducible refine (audBegin_keeps ..).step (by decide) ?_
    | with_reducible refine Keeps.ite ?_ ?_
    | split

theorem audSchedWrite_keeps (a1) (s : State) :
    Keeps [.aud] s (audSchedWrite a1 s) := by
  unfold audSchedWrite; try dsimp only
  repeat' first
    | with_reducible exact Keeps.refl _ _
    | with_reducible refine (State.onAud_keeps ..).step (by decide) ?_
    | with_reducible refine Keeps.ite ?_ ?_

theorem audClr_keeps (s : State) :
    Keeps [.aud] s (audClr s) := by
  unfold audClr; try dsimp only
  repeat' first
    | with_reducible exact Keeps.refl _ _
    | with_reducible refine (State.onAud_keeps ..).step (by decide) ?_

theorem audResOk_keeps (s : State) :
    Keeps [.aud] s (audResOk s) := by
  unfold audResOk; try dsimp only
  repeat' first
    | with_reducible exact Keeps.refl _ _
    | with_reducible refine (State.onAud_keeps ..).step (by decide) ?_

theorem tapMission_keeps (a1 a2) (s : State) :
    Keeps [.aud] s (tapMission a1 a2 s) := by
  unfold tapMission; try dsimp only
  repeat' first
    | with_reducible exact Keeps.refl _ _
    | with_reducible refine (State.onAud_keeps ..).step (by decide) ?_

theorem tapPads_keeps (a1) (s : State) :
    Keeps [.hm, .hif, .ldg, .aud] s (tapPads a1 s) := by
  unfold tapPads; try dsimp only
  repeat' first
    | with_reducible exact Keeps.refl _ _
    | with_reducible refine (State.onAud_keeps ..).step (by decide) ?_
    | with_reducible refine (emitRail_keeps ..).step (by decide) ?_
    | with_reducible refine Keeps.ite ?_ ?_

theorem wrapSafe_keeps (a1 a2) (s : State) :
    Keeps [.aud] s (wrapSafe a1 a2 s) := by
  unfold wrapSafe; try dsimp only
  repeat' first
    | with_reducible exact Keeps.refl _ _
    | with_reducible refine (State.onAud_keeps ..).step (by decide) ?_

theorem wrapHold_keeps (a1 a2) (s : State) :
    Keeps [.pwr, .clk, .rail, .hm, .hif, .ldg, .aud] s (wrapHold a1 a2 s) := by
  unfold wrapHold; try dsimp only
  repeat' first
    | with_reducible assumption
    | with_reducible exact Keeps.refl _ _
    | with_reducible refine forList_keeps _ ?_ ?_
    | with_reducible refine (domStopNow_keeps ..).step (by decide) ?_
    | with_reducible refine (phOff_keeps ..).step (by decide) ?_
    | with_reducible refine (State.onPwr_keeps ..).step (by decide) ?_
    | with_reducible refine (State.onAud_keeps ..).step (by decide) ?_
    | with_reducible refine (emitRail_keeps ..).step (by decide) ?_
    | with_reducible refine Keeps.ite ?_ ?_
    | intro _ _ _

theorem mbistDone_keeps (a1) (s : State) :
    Keeps [.aud] s (mbistDone a1 s) := by
  unfold mbistDone; try dsimp only
  repeat' first
    | with_reducible exact Keeps.refl _ _
    | with_reducible refine (State.onAud_keeps ..).step (by decide) ?_
    | with_reducible refine Keeps.ite ?_ ?_


end Sys2Proof.Machine
end

