-- ==== Sys2Proof/Laws/DmaOps.lean ====
section
/-!
SUPPORT. What the operations of Machine/DmaOps.lean may change.
-/
namespace Sys2Proof.Machine

theorem xferIssue_keeps (l : List (Nat × HmWrite)) (n : Nat) (s : State) : Keeps [.hm] s (xferIssue l n s) := by
  induction l generalizing n s with
  | nil => exact .refl ..
  | cons e l ih =>
    unfold xferIssue
    exact .ite (.refl ..) ((hmWrite_keeps ..).trans (ih ..))

theorem xferStart_keeps (a1 a2) (s : State) :
    Keeps [.hm, .dma] s (xferStart a1 a2 s) := by
  unfold xferStart; try dsimp only
  repeat' first
    | with_reducible assumption
    | with_reducible exact Keeps.refl _ _
    | with_reducible refine forList_keeps _ ?_ ?_
    | with_reducible refine (State.updChan_keeps ..).step (by decide) ?_
    | with_reducible refine (hmIssue_keeps ..).step (by decide) ?_
    | with_reducible refine Keeps.ite ?_ ?_
    | intro _ _ _
    | intro _ _

theorem xferUntag_keeps (a1) (s : State) :
    Keeps [.hm] s (xferUntag a1 s) := by
  unfold xferUntag; try dsimp only
  repeat' first
    | with_reducible assumption
    | with_reducible exact Keeps.refl _ _
    | with_reducible refine (hmDrop_keeps ..).step (by decide) ?_
    | intro _ _ _
    | intro _ _

theorem xferEnd_keeps (a1 a2) (s : State) :
    Keeps [.hm, .dma] s (xferEnd a1 a2 s) := by
  unfold xferEnd; try dsimp only
  repeat' first
    | with_reducible exact Keeps.refl _ _
    | with_reducible refine (xferUntag_keeps ..).step (by decide) ?_
    | with_reducible refine (State.updChan_keeps ..).step (by decide) ?_
    | with_reducible refine Keeps.ite ?_ ?_

theorem streamEnd_keeps (a1) (s : State) :
    Keeps [.hm, .hif, .dma, .ldg, .fc, .trs] s (streamEnd a1 s) := by
  unfold streamEnd; try dsimp only
  repeat' first
    | with_reducible exact Keeps.refl _ _
    | with_reducible refine (State.updChan_keeps ..).step (by decide) ?_
    | with_reducible refine (complete_keeps ..).step (by decide) ?_
    | split

theorem streamStop_keeps (a1 a2) (s : State) :
    Keeps [.hm, .hif, .dma, .ldg, .fc, .trs] s (streamStop a1 a2 s) := by
  unfold streamStop; try dsimp only
  repeat' first
    | with_reducible exact Keeps.refl _ _
    | with_reducible refine (State.updChan_keeps ..).step (by decide) ?_
    | with_reducible refine (streamEnd_keeps ..).step (by decide) ?_
    | with_reducible refine Keeps.ite ?_ ?_

theorem streamDone_keeps (a1 a2 a3 a4 a5) (s : State) :
    Keeps [.hm, .hif, .dma, .ldg, .fc, .trs] s (streamDone a1 a2 a3 a4 a5 s) := by
  unfold streamDone; try dsimp only
  repeat' first
    | with_reducible exact Keeps.refl _ _
    | with_reducible refine (xferIssue_keeps ..).step (by decide) ?_
    | with_reducible refine (State.updChan_keeps ..).step (by decide) ?_
    | with_reducible refine (hmWrite_keeps ..).step (by decide) ?_
    | with_reducible refine (emitDma_keeps ..).step (by decide) ?_
    | with_reducible refine (xferEnd_keeps ..).step (by decide) ?_
    | with_reducible refine (streamEnd_keeps ..).step (by decide) ?_
    | with_reducible refine Keeps.ite ?_ ?_

theorem singleDone_keeps (a1 a2 a3 a4 a5) (s : State) :
    Keeps [.hm, .hif, .dma, .ldg, .fc, .trs] s (singleDone a1 a2 a3 a4 a5 s) := by
  unfold singleDone; try dsimp only
  repeat' first
    | with_reducible exact Keeps.refl _ _
    | with_reducible refine (xferEnd_keeps ..).step (by decide) ?_
    | with_reducible refine (xferIssue_keeps ..).step (by decide) ?_
    | with_reducible refine (complete_keeps ..).step (by decide) ?_
    | with_reducible refine Keeps.ite ?_ ?_
    | split

theorem ldgEcc_keeps (a1) (s : State) :
    Keeps [.hm, .hif, .ldg] s (ldgEcc a1 s) := by
  unfold ldgEcc; try dsimp only
  repeat' first
    | with_reducible exact Keeps.refl _ _
    | with_reducible refine (emit_keeps ..).step (by decide) ?_
    | with_reducible refine (State.onLdg_keeps (fun h => ⟨h.1, h.2, h.3, h.4⟩) fun _ => List.prefix_rfl).step (by decide) ?_
    | with_reducible refine Keeps.ite ?_ ?_

theorem drainDone_keeps (a1 a2 a3) (s : State) :
    Keeps [.hm, .hif, .dma, .ldg, .fc, .trs] s (drainDone a1 a2 a3 s) := by
  unfold drainDone; try dsimp only
  repeat' first
    | with_reducible assumption
    | with_reducible exact Keeps.refl _ _
    | with_reducible refine forList_keeps _ ?_ ?_
    | with_reducible refine (ldgEcc_keeps ..).step (by decide) ?_
    | with_reducible refine (hmWrite_keeps ..).step (by decide) ?_
    | with_reducible refine (State.onLdg_keeps (fun h => ⟨h.1, h.2, h.3, h.4⟩) fun _ => List.prefix_rfl).step (by decide) ?_
    | with_reducible refine (xferEnd_keeps ..).step (by decide) ?_
    | with_reducible refine (complete_keeps ..).step (by decide) ?_
    | with_reducible refine Keeps.ite ?_ ?_
    | intro _ _ _
    | split

theorem frecCopyDone_keeps (a1 a2 a3) (s : State) :
    Keeps [.hm, .hif, .dma, .ldg, .fc, .trs] s (frecCopyDone a1 a2 a3 s) := by
  unfold frecCopyDone; try dsimp only
  repeat' first
    | with_reducible assumption
    | with_reducible exact Keeps.refl _ _
    | with_reducible refine forList_keeps _ ?_ ?_
    | with_reducible refine (hmWrite_keeps ..).step (by decide) ?_
    | with_reducible refine (xferEnd_keeps ..).step (by decide) ?_
    | with_reducible refine (complete_keeps ..).step (by decide) ?_
    | with_reducible refine Keeps.ite ?_ ?_
    | intro _ _ _
    | split

theorem transferDone_keeps (a1 a2 a3 a4 a5) (s : State) :
    Keeps [.hm, .hif, .dma, .ldg, .fc, .trs] s (transferDone a1 a2 a3 a4 a5 s) := by
  unfold transferDone; try dsimp only
  repeat' first
    | with_reducible exact Keeps.refl _ _
    | with_reducible refine (singleDone_keeps ..).step (by decide) ?_
    | with_reducible refine (streamDone_keeps ..).step (by decide) ?_
    | with_reducible refine (drainDone_keeps ..).step (by decide) ?_
    | with_reducible refine (frecCopyDone_keeps ..).step (by decide) ?_
    | with_reducible refine Keeps.ite ?_ ?_
    | split

theorem transferFail_keeps (a1) (s : State) :
    Keeps [.hm, .hif, .dma, .ldg, .fc, .trs] s (transferFail a1 s) := by
  unfold transferFail; try dsimp only
  repeat' first
    | with_reducible exact Keeps.refl _ _
    | with_reducible refine (frecCopyDone_keeps ..).step (by decide) ?_
    | with_reducible refine (transferDone_keeps ..).step (by decide) ?_
    | with_reducible refine Keeps.ite ?_ ?_
    | split

theorem ldgTake_keeps (x : LRec) (s : State) : Keeps [.hm, .hif, .ldg] s (ldgTake x s) := by
  have put : ∀ k w : Nat, s.ldg.w ≤ k → k < w → w ≤ 16384 → ∀ g : Ledger → Ledger, (g s.ldg).w = w →
      (Tbl.wf {} s.ldg.store = true → Tbl.wf {} (g s.ldg).store = true) →
      (∀ e ∈ (g s.ldg).store, e ∈ s.ldg.store ∨ e.1 = k) → (g s.ldg).queues = s.ldg.queues →
      Keeps [.hm, .hif, .ldg] s (s.onLdg g) := by
    intro k w h1 h2 h3 g e1 e2 e3 e4
    refine (State.onLdg_keeps (fun h => ⟨by rw [e1]; exact h3, e2 h.canon, ?_, by rw [e4]; exact h.queues⟩)
      fun k => by rw [e4]).step (by decide) (.refl ..)
    intro e he
    rw [e1]
    rcases e3 e he with h4 | h4
    · exact lt_of_lt_of_le (h.below e h4) (by omega)
    · rw [h4]; exact h2
  unfold ldgTake; dsimp only
  split
  · exact (State.onLdg_keeps (fun h => ⟨h.1, h.2, h.3, h.4⟩) fun _ => List.prefix_rfl).step (by decide) (.refl ..)
  · split
    · refine Keeps.trans ?_ (evtDeliver_keeps (emitRec_keeps 3) ..)
      refine put 16383 16384 (by omega) (by omega) (by omega) _ rfl ?_ ?_ rfl
      · intro h; dsimp only; exact Tbl.wf_set h ..
      · intro e he; dsimp only at he; exact (Tbl.mem_set he).imp_right (congrArg Prod.fst)
    · refine put s.ldg.w (s.ldg.w + 1) (by omega) (by omega) (by omega) _ rfl ?_ ?_ rfl
      · intro h; dsimp only; exact Tbl.wf_set h ..
      · intro e he; dsimp only at he; exact (Tbl.mem_set he).imp_right (congrArg Prod.fst)

theorem ldgPop_keeps (k : Nat) (t : List LRec) (g : Ledger → Ledger) (s : State) (ht : t.length ≤ 8)
    (hg : ∀ l, (g l).w = l.w ∧ (g l).store = l.store ∧ (g l).queues = Tbl.set [] l.queues k t) :
    Keeps [.ldg, .queues] s (s.onLdg g) := by
  obtain ⟨e1, e2, e3⟩ := hg s.ldg
  refine State.onLdg_keepsQ fun h => ⟨by rw [e1]; exact h.full, by rw [e2]; exact h.canon,
    by rw [e1, e2]; exact h.below, fun e he => ?_⟩
  rw [e3] at he
  rcases Tbl.mem_set he with h1 | h1
  · exact h.queues e h1
  · rw [h1]; exact ht

theorem ldgStore_keeps (s : State) : Keeps [.hm, .hif, .ldg, .queues] s (ldgStore s) := by
  unfold ldgStore
  split
  · exact .refl ..
  · next k _ =>
    split
    · exact .refl ..
    · next x t hq =>
      by_cases ht : t.length ≤ 8
      · exact (ldgTake_keeps ..).step (by decide) (.mono (qs := [.ldg, .queues]) (ldgPop_keeps k t _ s ht fun l => ⟨rfl, rfl, rfl⟩) (by decide))
      · refine ⟨((ldgTake_keeps ..).only.mono (by decide) |> Only.trans (Only.mono (qs := [.ldg, .queues]) ⟨fun p hp => by
          cases p <;> first | rfl | exact fun _ => List.prefix_rfl | exact absurd (by decide) hp⟩ (by decide))), fun h => ?_⟩
        rcases Tbl.get_mem (d := []) s.ldg.queues k with h1 | h1
        · rw [hq] at h1; cases h1
        · have := h.queues _ h1
          rw [hq] at this
          simp only [List.length_cons] at this
          omega

theorem ldgFlush_keeps (k : Nat) (s : State) : Keeps [.hm, .hif, .ldg, .queues] s (ldgFlush k s) := by
  unfold ldgFlush
  exact foldl_keeps _ (fun u x h => (ldgTake_keeps ..).step (by decide) h)
    (.mono (qs := [.ldg, .queues]) (ldgPop_keeps k [] _ s (by decide) fun l => ⟨rfl, rfl, rfl⟩) (by decide))


end Sys2Proof.Machine
end

