-- ==== Sys2Proof/Laws/Dma.lean ====
section
/-!
SUPPORT. What the operations of Machine/Dma.lean may change.
-/
namespace Sys2Proof.Machine

theorem bodyDmaXfer_keeps (a1 a2 a3) (s : State) :
    KeepsD [.hm, .dma] s (bodyDmaXfer a1 a2 a3 s) := by
  unfold bodyDmaXfer; try dsimp only
  repeat' first
    | with_reducible exact Keeps.refl _ _
    | with_reducible refine (DescOut.fail_keeps ..).step (by decide) ?_
    | with_reducible refine (xferStart_keeps ..).step (by decide) ?_
    | with_reducible refine Keeps.ite ?_ ?_
    | with_reducible refine KeepsD.ite ?_ ?_
    | with_reducible refine KeepsD.done ?_
    | with_reducible refine KeepsD.wait ?_

theorem bodyStreamStop_keeps (a1 a2) (s : State) :
    KeepsD [.hm, .hif, .dma, .ldg, .fc, .trs] s (bodyStreamStop a1 a2 s) := by
  unfold bodyStreamStop; try dsimp only
  repeat' first
    | with_reducible exact Keeps.refl _ _
    | with_reducible refine (DescOut.fail_keeps ..).step (by decide) ?_
    | with_reducible refine (streamStop_keeps ..).step (by decide) ?_
    | with_reducible refine (streamEnd_keeps ..).step (by decide) ?_
    | with_reducible refine (State.updChan_keeps ..).step (by decide) ?_
    | with_reducible refine Keeps.ite ?_ ?_
    | with_reducible refine KeepsD.ite ?_ ?_
    | with_reducible refine KeepsD.done ?_
    | with_reducible refine KeepsD.wait ?_

theorem bodyStreamArm_keeps (a1 a2) (s : State) :
    KeepsD [.dma] s (bodyStreamArm a1 a2 s) := by
  unfold bodyStreamArm; try dsimp only
  repeat' first
    | with_reducible exact Keeps.refl _ _
    | with_reducible refine (DescOut.fail_keeps ..).step (by decide) ?_
    | with_reducible refine (State.updChan_keeps ..).step (by decide) ?_
    | with_reducible refine Keeps.ite ?_ ?_
    | with_reducible refine KeepsD.ite ?_ ?_
    | with_reducible refine KeepsD.done ?_

theorem bodyDmaStream_keeps (a1 a2 a3) (s : State) :
    KeepsD [.hm, .hif, .dma, .ldg, .fc, .trs] s (bodyDmaStream a1 a2 a3 s) := by
  unfold bodyDmaStream; try dsimp only
  repeat' first
    | with_reducible exact Keeps.refl _ _
    | with_reducible refine (bodyStreamStop_keeps ..).step (by decide) ?_
    | with_reducible refine (bodyStreamArm_keeps ..).step (by decide) ?_
    | with_reducible refine Keeps.ite ?_ ?_
    | with_reducible refine KeepsD.ite ?_ ?_

theorem streamPeriod_keeps (a1) (s : State) :
    Keeps [.hm, .hif, .dma, .ldg] s (streamPeriod a1 s) := by
  unfold streamPeriod; try dsimp only
  repeat' first
    | with_reducible exact Keeps.refl _ _
    | with_reducible refine (State.updChan_keeps ..).step (by decide) ?_
    | with_reducible refine (emitDma_keeps ..).step (by decide) ?_
    | with_reducible refine (xferStart_keeps ..).step (by decide) ?_
    | with_reducible refine Keeps.ite ?_ ?_
    | split

theorem captureSweep_keeps (s : State) :
    Keeps [.dma] s (captureSweep s) := by
  unfold captureSweep; try dsimp only
  repeat' first
    | with_reducible assumption
    | with_reducible exact Keeps.refl _ _
    | with_reducible refine forList_keeps _ ?_ ?_
    | with_reducible refine (State.updChan_keeps ..).step (by decide) ?_
    | with_reducible refine (State.onDma_keeps ..).step (by decide) ?_
    | with_reducible refine Keeps.ite ?_ ?_
    | intro _ _ _

theorem dmaClr_keeps (s : State) :
    Keeps [.dma] s (dmaClr s) := by
  unfold dmaClr; try dsimp only
  repeat' first
    | with_reducible assumption
    | with_reducible exact Keeps.refl _ _
    | with_reducible refine forList_keeps _ ?_ ?_
    | with_reducible refine (State.updChan_keeps ..).step (by decide) ?_
    | intro _ _ _
    | intro _ _

theorem stopStreams_keeps (s : State) :
    Keeps [.hm, .hif, .dma, .ldg, .fc, .trs] s (stopStreams s) := by
  unfold stopStreams; try dsimp only
  repeat' first
    | with_reducible assumption
    | with_reducible exact Keeps.refl _ _
    | with_reducible refine forList_keeps _ ?_ ?_
    | with_reducible refine (streamStop_keeps ..).step (by decide) ?_
    | with_reducible refine Keeps.ite ?_ ?_
    | intro _ _ _

theorem bodyLdgDrain_keeps (a1 a2 a3) (s : State) :
    KeepsD [.hm, .dma] s (bodyLdgDrain a1 a2 a3 s) := by
  unfold bodyLdgDrain; try dsimp only
  repeat' first
    | with_reducible exact Keeps.refl _ _
    | with_reducible refine (DescOut.fail_keeps ..).step (by decide) ?_
    | with_reducible refine (xferStart_keeps ..).step (by decide) ?_
    | with_reducible refine Keeps.ite ?_ ?_
    | with_reducible refine KeepsD.ite ?_ ?_
    | with_reducible refine KeepsD.done ?_
    | with_reducible refine KeepsD.wait ?_

theorem ldgRearm_keeps (s : State) : Keeps [.hm, .hif, .ldg] s (ldgRearm s) := by
  unfold ldgRearm; dsimp only
  refine (evtDeliver_keeps (emitRec_keeps 3) ..).step (by decide) ((State.onLdg_keeps (fun h => ?_) fun _ => List.prefix_rfl).step
    (by decide) (.refl ..))
  exact ⟨by simp, by simp [Tbl.wf, Tbl.wfFrom, mkRec], by simp, h.queues⟩

theorem bodyLdgRearm_keeps (a1) (s : State) :
    KeepsD [.hm, .hif, .ldg] s (bodyLdgRearm a1 s) := by
  unfold bodyLdgRearm; try dsimp only
  repeat' first
    | with_reducible exact Keeps.refl _ _
    | with_reducible refine (DescOut.fail_keeps ..).step (by decide) ?_
    | with_reducible refine (ldgRearm_keeps ..).step (by decide) ?_
    | with_reducible refine Keeps.ite ?_ ?_
    | with_reducible refine KeepsD.ite ?_ ?_
    | with_reducible refine KeepsD.done ?_

theorem bodyFrecCopy_keeps (a1 a2) (s : State) :
    KeepsD [.hm, .dma] s (bodyFrecCopy a1 a2 s) := by
  unfold bodyFrecCopy; try dsimp only
  repeat' first
    | with_reducible exact Keeps.refl _ _
    | with_reducible refine (DescOut.fail_keeps ..).step (by decide) ?_
    | with_reducible refine (xferStart_keeps ..).step (by decide) ?_
    | with_reducible refine Keeps.ite ?_ ?_
    | with_reducible refine KeepsD.ite ?_ ?_
    | with_reducible refine KeepsD.done ?_
    | with_reducible refine KeepsD.wait ?_

theorem rec0Read_keeps (a1) (s : State) :
    Keeps [.hm, .hs, .hif, .ldg] s (rec0Read a1 s) := by
  unfold rec0Read; try dsimp only
  repeat' first
    | with_reducible exact Keeps.refl _ _
    | with_reducible refine (hsAnswer_keeps ..).step (by decide) ?_
    | with_reducible refine (State.onLdg_keeps (fun h => ⟨h.1, h.2, h.3, h.4⟩) fun _ => List.prefix_rfl).step (by decide) ?_
    | with_reducible refine (ldgEcc_keeps ..).step (by decide) ?_
    | with_reducible refine Keeps.ite ?_ ?_

theorem rec7Read_keeps (s : State) :
    Keeps [.hs, .ldg] s (rec7Read s) := by
  unfold rec7Read; try dsimp only
  repeat' first
    | with_reducible exact Keeps.refl _ _
    | with_reducible refine (State.onLdg_keeps (fun h => ⟨h.1, h.2, h.3, h.4⟩) fun _ => List.prefix_rfl).step (by decide) ?_
    | with_reducible refine (hsAnswer_keeps ..).step (by decide) ?_
    | with_reducible refine Keeps.ite ?_ ?_

theorem ldgClrLost_keeps (s : State) :
    Keeps [.ldg] s (ldgClrLost s) := by
  unfold ldgClrLost; try dsimp only
  repeat' first
    | with_reducible exact Keeps.refl _ _
    | with_reducible refine (State.onLdg_keeps (fun h => ⟨h.1, h.2, h.3, h.4⟩) fun _ => List.prefix_rfl).step (by decide) ?_


end Sys2Proof.Machine
end

