-- ==== Sys2Proof/Laws/Prot.lean ====
section
/-!
SUPPORT. What the operations of Machine/Prot.lean may change.
-/
namespace Sys2Proof.Machine

theorem onStart_keeps (a1) (s : State) :
    Keeps [.rail] s (onStart a1 s) := by
  unfold onStart; try dsimp only
  repeat' first
    | with_reducible exact Keeps.refl _ _
    | with_reducible refine (State.onRail_keeps ..).step (by decide) ?_

theorem prepareRail_keeps (a1 a2) (s : State) :
    Keeps [.rail, .hm, .hif, .ldg] s (prepareRail a1 a2 s) := by
  unfold prepareRail; try dsimp only
  repeat' first
    | with_reducible exact Keeps.refl _ _
    | with_reducible refine (State.updProt_keeps ..).step (by decide) ?_
    | with_reducible refine (setTarget_keeps ..).step (by decide) ?_
    | with_reducible refine (State.updReg_keeps ..).step (by decide) ?_
    | with_reducible refine Keeps.ite ?_ ?_

theorem beginStart_keeps (a1 a2 a3) (s : State) :
    Keeps [.rail, .hm, .hif, .ldg] s (beginStart a1 a2 a3 s) := by
  unfold beginStart; try dsimp only
  repeat' first
    | with_reducible assumption
    | with_reducible exact Keeps.refl _ _
    | with_reducible refine forList_keeps _ ?_ ?_
    | with_reducible refine (prepareRail_keeps ..).step (by decide) ?_
    | with_reducible refine (State.onRail_keeps ..).step (by decide) ?_
    | intro _ _ _
    | intro _ _

theorem pmbDevDone_keeps (a1 a2) (s : State) :
    Keeps [.rail, .hm, .hif, .ldg] s (pmbDevDone a1 a2 s) := by
  unfold pmbDevDone; try dsimp only
  repeat' first
    | with_reducible assumption
    | with_reducible exact Keeps.refl _ _
    | with_reducible refine forList_keeps _ ?_ ?_
    | with_reducible refine (State.updPh_keeps ..).step (by decide) ?_
    | with_reducible refine (emitRail_keeps ..).step (by decide) ?_
    | split
    | intro _ _ _
    | intro _ _

theorem pmbusDone_keeps (a1) (s : State) :
    Keeps [.clk, .rail, .loop, .hm, .hif, .ldg] s (pmbusDone a1 s) := by
  unfold pmbusDone; try dsimp only
  repeat' first
    | with_reducible assumption
    | with_reducible exact Keeps.refl _ _
    | with_reducible refine forList_keeps _ ?_ ?_
    | with_reducible refine (finishStart_keeps ..).step (by decide) ?_
    | with_reducible refine (onStart_keeps ..).step (by decide) ?_
    | with_reducible refine (pmbDevDone_keeps ..).step (by decide) ?_
    | with_reducible refine Keeps.ite ?_ ?_
    | split
    | intro _ _ _
    | intro _ _

theorem judgeStart_keeps (a1 a2) (s : State) :
    Keeps [.clk, .rail, .loop, .hm, .hif, .ldg, .fw, .trs, .syn] s (judgeStart a1 a2 s) := by
  unfold judgeStart; try dsimp only
  repeat' first
    | with_reducible exact Keeps.refl _ _
    | with_reducible refine (emitRail_keeps ..).step (by decide) ?_
    | with_reducible refine (refuseStart_keeps ..).step (by decide) ?_
    | with_reducible refine Keeps.ite ?_ ?_

theorem identifyNext_keeps (s : State) :
    Keeps [.clk, .rail, .loop, .hm, .hif, .ldg, .fw, .trs, .syn] s (identifyNext s) := by
  unfold identifyNext; try dsimp only
  repeat' first
    | with_reducible assumption
    | with_reducible exact Keeps.refl _ _
    | with_reducible refine (onStart_keeps ..).step (by decide) ?_
    | with_reducible refine (finishStart_keeps ..).step (by decide) ?_
    | with_reducible refine forList_keeps _ ?_ ?_
    | with_reducible refine (judgeStart_keeps ..).step (by decide) ?_
    | with_reducible refine Keeps.ite ?_ ?_
    | intro _ _ _
    | split

theorem senseCheck_keeps (a1) (s : State) :
    Keeps [.clk, .rail, .loop, .hm, .hif, .ldg, .fw, .trs, .syn] s (senseCheck a1 s) := by
  unfold senseCheck; try dsimp only
  repeat' first
    | with_reducible assumption
    | with_reducible exact Keeps.refl _ _
    | with_reducible refine (emitRail_keeps ..).step (by decide) ?_
    | with_reducible refine (refuseStart_keeps ..).step (by decide) ?_
    | with_reducible refine (State.updProt_keeps ..).step (by decide) ?_
    | with_reducible refine (identifyNext_keeps ..).step (by decide) ?_
    | with_reducible refine (onStart_keeps ..).step (by decide) ?_
    | with_reducible refine forList_keeps _ ?_ ?_
    | with_reducible refine Keeps.ite ?_ ?_
    | intro _ _ _
    | split

theorem phaseIdentify_keeps (a1 a2 a3 a4 a5) (s : State) :
    Keeps [.clk, .rail, .frec, .loop, .hm, .hif, .ldg, .fw, .fc, .trs, .syn, .aud] s (phaseIdentify a1 a2 a3 a4 a5 s) := by
  unfold phaseIdentify; try dsimp only
  repeat' first
    | with_reducible exact Keeps.refl _ _
    | with_reducible refine (onStart_keeps ..).step (by decide) ?_
    | with_reducible refine (State.updPh_keeps ..).step (by decide) ?_
    | with_reducible refine (emitRail_keeps ..).step (by decide) ?_
    | with_reducible refine (disablePhase_keeps ..).step (by decide) ?_
    | with_reducible refine (identifyNext_keeps ..).step (by decide) ?_
    | with_reducible refine Keeps.ite ?_ ?_
    | split

theorem rampStart_keeps (a1) (s : State) :
    Keeps [.sns, .rail] s (rampStart a1 s) := by
  unfold rampStart; try dsimp only
  repeat' first
    | with_reducible assumption
    | with_reducible exact Keeps.refl _ _
    | with_reducible refine forList_keeps _ ?_ ?_
    | with_reducible refine (State.updProt_keeps ..).step (by decide) ?_
    | with_reducible refine (State.updPh_keeps ..).step (by decide) ?_
    | with_reducible refine (State.updReg_keeps ..).step (by decide) ?_
    | with_reducible refine (State.updDet_keeps ..).step (by decide) ?_
    | with_reducible refine (railPhasesTo_keeps ..).step (by decide) ?_
    | with_reducible refine Keeps.ite ?_ ?_
    | intro _ _ _
    | intro _ _

theorem raiseReady_keeps (a1) (s : State) :
    Keeps [.clk] s (raiseReady a1 s) := by
  unfold raiseReady; try dsimp only
  repeat' first
    | with_reducible assumption
    | with_reducible exact Keeps.refl _ _
    | with_reducible refine forList_keeps _ ?_ ?_
    | with_reducible refine (State.updDom_keeps ..).step (by decide) ?_
    | intro _ _ _
    | intro _ _

theorem rewriteTaps_keeps (a1) (s : State) :
    Keeps [.sns] s (rewriteTaps a1 s) := by
  unfold rewriteTaps; try dsimp only
  repeat' first
    | with_reducible assumption
    | with_reducible exact Keeps.refl _ _
    | with_reducible refine forList_keeps _ ?_ ?_
    | with_reducible refine (State.updDet_keeps ..).step (by decide) ?_
    | intro _ _ _
    | intro _ _

theorem railReached_keeps (a1) (s : State) :
    Keeps [.clk, .sns, .rail, .loop, .hm, .hif, .ldg] s (railReached a1 s) := by
  unfold railReached; try dsimp only
  repeat' first
    | with_reducible exact Keeps.refl _ _
    | with_reducible refine (raiseReady_keeps ..).step (by decide) ?_
    | with_reducible refine (rewriteTaps_keeps ..).step (by decide) ?_
    | with_reducible refine (finishStart_keeps ..).step (by decide) ?_
    | with_reducible refine (State.updProt_keeps ..).step (by decide) ?_
    | with_reducible refine Keeps.ite ?_ ?_

theorem startTimeout_keeps (a1) (s : State) :
    Keeps [.clk, .rail, .frec, .loop, .hm, .hif, .ldg, .fw, .trs, .syn] s (startTimeout a1 s) := by
  unfold startTimeout; try dsimp only
  repeat' first
    | with_reducible exact Keeps.refl _ _
    | with_reducible refine (emitRail_keeps ..).step (by decide) ?_
    | with_reducible refine (frecTake_keeps ..).step (by decide) ?_
    | with_reducible refine (railSettle_keeps ..).step (by decide) ?_
    | with_reducible refine (masterFaults_keeps ..).step (by decide) ?_
    | with_reducible refine (fastStop_keeps ..).step (by decide) ?_
    | with_reducible refine (countStop_keeps ..).step (by decide) ?_
    | with_reducible refine (railFault_keeps ..).step (by decide) ?_
    | with_reducible refine Keeps.ite ?_ ?_

theorem rampDownDone_keeps (a1) (s : State) :
    Keeps [.clk, .rail, .loop, .hm, .hif, .ldg, .fw, .trs, .syn] s (rampDownDone a1 s) := by
  unfold rampDownDone; try dsimp only
  repeat' first
    | with_reducible exact Keeps.refl _ _
    | with_reducible refine (railPhasesTo_keeps ..).step (by decide) ?_
    | with_reducible refine (railPenLow_keeps ..).step (by decide) ?_
    | with_reducible refine (brakeStop_keeps ..).step (by decide) ?_
    | with_reducible refine (State.updProt_keeps ..).step (by decide) ?_
    | with_reducible refine (State.updReg_keeps ..).step (by decide) ?_
    | with_reducible refine (railSettle_keeps ..).step (by decide) ?_
    | with_reducible refine Keeps.ite ?_ ?_
    | split

theorem fastLevel_keeps (a1) (s : State) :
    Keeps [.clk, .rail, .loop, .hm, .hif, .ldg, .fw, .trs, .syn] s (fastLevel a1 s) := by
  unfold fastLevel; try dsimp only
  repeat' first
    | with_reducible exact Keeps.refl _ _
    | with_reducible refine (railFault_keeps ..).step (by decide) ?_
    | with_reducible refine (State.onRail_keeps ..).step (by decide) ?_
    | with_reducible refine (railSettle_keeps ..).step (by decide) ?_
    | with_reducible refine Keeps.ite ?_ ?_
    | split

theorem overloadClusters_keeps (a1) (s : State) :
    Keeps [.loop] s (overloadClusters a1 s) := by
  unfold overloadClusters; try dsimp only
  repeat' first
    | with_reducible assumption
    | with_reducible exact Keeps.refl _ _
    | with_reducible refine forList_keeps _ ?_ ?_
    | with_reducible refine (State.updClu_keeps ..).step (by decide) ?_
    | with_reducible refine (capCluster_keeps ..).step (by decide) ?_
    | with_reducible refine (presetLoops_keeps ..).step (by decide) ?_
    | with_reducible refine Keeps.ite ?_ ?_
    | intro _ _ _

theorem overloadCheck_keeps (a1) (s : State) :
    Keeps [.rail, .loop, .hm, .hif, .ldg] s (overloadCheck a1 s) := by
  unfold overloadCheck; try dsimp only
  repeat' first
    | with_reducible exact Keeps.refl _ _
    | with_reducible refine (State.updProt_keeps ..).step (by decide) ?_
    | with_reducible refine (emitRail_keeps ..).step (by decide) ?_
    | with_reducible refine (overloadClusters_keeps ..).step (by decide) ?_
    | with_reducible refine Keeps.ite ?_ ?_
    | split

theorem overloadShutdown_keeps (a1) (s : State) :
    Keeps [.clk, .rail, .frec, .loop, .hm, .hif, .ldg, .fw, .trs, .syn] s (overloadShutdown a1 s) := by
  unfold overloadShutdown; try dsimp only
  repeat' first
    | with_reducible exact Keeps.refl _ _
    | with_reducible refine (overloadCheck_keeps ..).step (by decide) ?_
    | with_reducible refine (protStop_keeps ..).step (by decide) ?_
    | with_reducible refine (emitRail_keeps ..).step (by decide) ?_
    | with_reducible refine (frecTake_keeps ..).step (by decide) ?_
    | with_reducible refine Keeps.ite ?_ ?_
    | split

theorem scTrip_keeps (a1) (s : State) :
    Keeps [.clk, .rail, .frec, .loop, .hm, .hif, .ldg, .fw, .fc, .trs, .syn, .aud] s (scTrip a1 s) := by
  unfold scTrip; try dsimp only
  repeat' first
    | with_reducible exact Keeps.refl _ _
    | with_reducible refine (State.updPh_keeps ..).step (by decide) ?_
    | with_reducible refine (emitRail_keeps ..).step (by decide) ?_
    | with_reducible refine (identifyNext_keeps ..).step (by decide) ?_
    | with_reducible refine (disablePhase_keeps ..).step (by decide) ?_
    | with_reducible refine (frecTake_keeps ..).step (by decide) ?_
    | with_reducible refine Keeps.ite ?_ ?_

theorem stageFault_keeps (a1) (s : State) :
    Keeps [.clk, .rail, .frec, .loop, .hm, .hif, .ldg, .fw, .fc, .trs, .syn, .aud] s (stageFault a1 s) := by
  unfold stageFault; try dsimp only
  repeat' first
    | with_reducible exact Keeps.refl _ _
    | with_reducible refine (identifyNext_keeps ..).step (by decide) ?_
    | with_reducible refine (disablePhase_keeps ..).step (by decide) ?_
    | with_reducible refine (emitRail_keeps ..).step (by decide) ?_
    | with_reducible refine (frecTake_keeps ..).step (by decide) ?_
    | with_reducible refine Keeps.ite ?_ ?_

theorem stagePin_keeps (a1 a2) (s : State) :
    Keeps [.clk, .rail, .frec, .loop, .hm, .hif, .ldg, .fw, .fc, .trs, .syn, .aud, .free] s (stagePin a1 a2 s) := by
  unfold stagePin; try dsimp only
  repeat' first
    | with_reducible exact Keeps.refl _ _
    | with_reducible refine (State.updPh_keeps ..).step (by decide) ?_
    | with_reducible refine (stageFault_keeps ..).step (by decide) ?_
    | with_reducible refine (State.drawn_keeps ..).step (by decide) ?_
    | with_reducible refine Keeps.ite ?_ ?_
    | split

theorem pwmReadback_keeps (a1 a2 a3) (s : State) :
    Keeps [.clk, .rail, .frec, .loop, .hm, .hif, .ldg, .fw, .fc, .trs, .syn, .aud] s (pwmReadback a1 a2 a3 s) := by
  unfold pwmReadback; try dsimp only
  repeat' first
    | with_reducible exact Keeps.refl _ _
    | with_reducible refine (disablePhase_keeps ..).step (by decide) ?_
    | with_reducible refine (emitRail_keeps ..).step (by decide) ?_
    | with_reducible refine (frecTake_keeps ..).step (by decide) ?_
    | with_reducible refine (identifyNext_keeps ..).step (by decide) ?_
    | with_reducible refine Keeps.ite ?_ ?_
    | split

theorem overvoltage_keeps (a1) (s : State) :
    Keeps [.clk, .rail, .frec, .loop, .hm, .hif, .ldg, .fw, .trs, .syn] s (overvoltage a1 s) := by
  unfold overvoltage; try dsimp only
  repeat' first
    | with_reducible exact Keeps.refl _ _
    | with_reducible refine (emitRail_keeps ..).step (by decide) ?_
    | with_reducible refine (frecTake_keeps ..).step (by decide) ?_
    | with_reducible refine (identifyNext_keeps ..).step (by decide) ?_
    | with_reducible refine (railSettle_keeps ..).step (by decide) ?_
    | with_reducible refine (countStop_keeps ..).step (by decide) ?_
    | with_reducible refine (stopTrackers_keeps ..).step (by decide) ?_
    | with_reducible refine (crowbar_keeps ..).step (by decide) ?_
    | with_reducible refine Keeps.ite ?_ ?_

theorem undervoltage_keeps (a1 a2) (s : State) :
    Keeps [.clk, .rail, .frec, .loop, .hm, .hif, .ldg, .fw, .trs, .syn] s (undervoltage a1 a2 s) := by
  unfold undervoltage; try dsimp only
  repeat' first
    | with_reducible exact Keeps.refl _ _
    | with_reducible refine (protStop_keeps ..).step (by decide) ?_
    | with_reducible refine (emitRail_keeps ..).step (by decide) ?_
    | with_reducible refine (frecTake_keeps ..).step (by decide) ?_
    | with_reducible refine Keeps.ite ?_ ?_

theorem crowbarClear_keeps (s : State) :
    Keeps [.rail, .hm, .hif, .ldg] s (crowbarClear s) := by
  unfold crowbarClear; try dsimp only
  repeat' first
    | with_reducible exact Keeps.refl _ _
    | with_reducible refine (railRes_keeps ..).step (by decide) ?_
    | with_reducible refine (railPhasesTo_keeps ..).step (by decide) ?_
    | with_reducible refine (railPenLow_keeps ..).step (by decide) ?_
    | with_reducible refine (emitRail_keeps ..).step (by decide) ?_
    | with_reducible refine (State.updProt_keeps ..).step (by decide) ?_
    | with_reducible refine Keeps.ite ?_ ?_

theorem faultClear_keeps (s : State) :
    Keeps [.rail] s (faultClear s) := by
  unfold faultClear; try dsimp only
  repeat' first
    | with_reducible exact Keeps.refl _ _
    | with_reducible refine (railRes_keeps ..).step (by decide) ?_
    | with_reducible refine (State.updProt_keeps ..).step (by decide) ?_
    | with_reducible refine Keeps.ite ?_ ?_

theorem protClear_keeps (a1) (s : State) :
    Keeps [.rail, .hm, .hif, .ldg] s (protClear a1 s) := by
  unfold protClear; try dsimp only
  repeat' first
    | with_reducible exact Keeps.refl _ _
    | with_reducible refine (crowbarClear_keeps ..).step (by decide) ?_
    | with_reducible refine (faultClear_keeps ..).step (by decide) ?_
    | with_reducible refine (railRes_keeps ..).step (by decide) ?_
    | with_reducible refine Keeps.ite ?_ ?_

theorem phaseClear_keeps (a1) (s : State) :
    Keeps [.rail] s (phaseClear a1 s) := by
  unfold phaseClear; try dsimp only
  repeat' first
    | with_reducible exact Keeps.refl _ _
    | with_reducible refine (railRes_keeps ..).step (by decide) ?_
    | with_reducible refine (State.updPh_keeps ..).step (by decide) ?_
    | with_reducible refine Keeps.ite ?_ ?_

theorem railCtrlStart_keeps (a1) (s : State) :
    KeepsD [.rail, .hm, .hif, .ldg] s (railCtrlStart a1 s) := by
  unfold railCtrlStart; try dsimp only
  repeat' first
    | with_reducible exact Keeps.refl _ _
    | with_reducible refine (DescOut.fail_keeps ..).step (by decide) ?_
    | with_reducible refine (beginStart_keeps ..).step (by decide) ?_
    | with_reducible refine Keeps.ite ?_ ?_
    | with_reducible refine KeepsD.ite ?_ ?_
    | with_reducible refine KeepsD.done ?_

theorem railCtrlStop_keeps (a1) (s : State) :
    KeepsD [.clk, .rail, .loop, .hm, .hif, .ldg, .fw, .trs, .syn] s (railCtrlStop a1 s) := by
  unfold railCtrlStop; try dsimp only
  repeat' first
    | with_reducible assumption
    | with_reducible exact Keeps.refl _ _
    | with_reducible refine (DescOut.fail_keeps ..).step (by decide) ?_
    | with_reducible refine (State.onRail_keeps ..).step (by decide) ?_
    | with_reducible refine forList_keeps _ ?_ ?_
    | with_reducible refine (stopClustersOf_keeps ..).step (by decide) ?_
    | with_reducible refine (identifyNext_keeps ..).step (by decide) ?_
    | with_reducible refine (finishStart_keeps ..).step (by decide) ?_
    | with_reducible refine (rampDownLevels_keeps ..).step (by decide) ?_
    | with_reducible refine Keeps.ite ?_ ?_
    | with_reducible refine KeepsD.ite ?_ ?_
    | with_reducible refine KeepsD.done ?_
    | with_reducible refine KeepsD.wait ?_
    | with_reducible refine KeepsD.fail ?_
    | intro _ _ _

theorem warmGo_keeps (s : State) :
    Keeps [.pwr, .fw] s (warmGo s) := by
  unfold warmGo; try dsimp only
  repeat' first
    | with_reducible exact Keeps.refl _ _
    | with_reducible refine (State.onFw_keeps ..).step (by decide) ?_
    | with_reducible refine (State.onPwr_keeps ..).step (by decide) ?_
    | with_reducible refine Keeps.ite ?_ ?_

theorem frecCommitted_keeps (a1) (s : State) :
    Keeps [.frec, .hm, .hif, .ldg] s (frecCommitted a1 s) := by
  unfold frecCommitted; try dsimp only
  repeat' first
    | with_reducible exact Keeps.refl _ _
    | with_reducible refine (frecLost_keeps ..).step (by decide) ?_
    | with_reducible refine (State.onFrec_keeps ..).step (by decide) ?_
    | with_reducible refine (emitRail_keeps ..).step (by decide) ?_
    | with_reducible refine Keeps.ite ?_ ?_
    | split

theorem frecCommit_keeps (a1) (s : State) :
    Keeps [.pwr, .frec, .hm, .hif, .ldg, .fw] s (frecCommit a1 s) := by
  unfold frecCommit; try dsimp only
  repeat' first
    | with_reducible exact Keeps.refl _ _
    | with_reducible refine (warmGo_keeps ..).step (by decide) ?_
    | with_reducible refine (frecCommitted_keeps ..).step (by decide) ?_
    | with_reducible refine Keeps.ite ?_ ?_

theorem frecLoad_keeps (s : State) :
    Keeps [.frec] s (frecLoad s) := by
  unfold frecLoad; try dsimp only
  repeat' first
    | with_reducible exact Keeps.refl _ _
    | with_reducible refine (State.onFrec_keeps ..).step (by decide) ?_
    | with_reducible refine Keeps.ite ?_ ?_

theorem eraseDone_keeps (s : State) :
    Keeps [.frec] s (eraseDone s) := by
  unfold eraseDone; try dsimp only
  repeat' first
    | with_reducible exact Keeps.refl _ _
    | with_reducible refine (State.onFrec_keeps ..).step (by decide) ?_
    | with_reducible refine Keeps.ite ?_ ?_

theorem inputFail_keeps (a1) (s : State) :
    Keeps [.pwr, .clk, .rail, .frec, .loop, .hm, .hif, .ldg, .fw, .trs, .syn] s (inputFail a1 s) := by
  unfold inputFail; try dsimp only
  repeat' first
    | with_reducible exact Keeps.refl _ _
    | with_reducible refine (State.onPwr_keeps ..).step (by decide) ?_
    | with_reducible refine (setAlarm_keeps ..).step (by decide) ?_
    | with_reducible refine (fastStopAll_keeps ..).step (by decide) ?_
    | with_reducible refine (emitRail_keeps ..).step (by decide) ?_
    | with_reducible refine (frecTake_keeps ..).step (by decide) ?_
    | with_reducible refine Keeps.ite ?_ ?_
    | split

theorem boardPin_keeps (a1) (s : State) :
    Keeps [.pwr, .clk, .rail, .frec, .loop, .hm, .hif, .ldg, .fw, .trs, .syn] s (boardPin a1 s) := by
  unfold boardPin; try dsimp only
  repeat' first
    | with_reducible exact Keeps.refl _ _
    | with_reducible refine (inputFail_keeps ..).step (by decide) ?_
    | with_reducible refine (State.onPwr_keeps ..).step (by decide) ?_
    | split

theorem vanaLoss_keeps (a1) (s : State) :
    Keeps [.pwr, .clk, .rail, .frec, .loop, .hm, .hif, .ldg, .fw, .trs, .syn] s (vanaLoss a1 s) := by
  unfold vanaLoss; try dsimp only
  repeat' first
    | with_reducible assumption
    | with_reducible exact Keeps.refl _ _
    | with_reducible refine (emitRail_keeps ..).step (by decide) ?_
    | with_reducible refine (frecTake_keeps ..).step (by decide) ?_
    | with_reducible refine (State.onPwr_keeps ..).step (by decide) ?_
    | with_reducible refine forList_keeps _ ?_ ?_
    | with_reducible refine (State.updProt_keeps ..).step (by decide) ?_
    | with_reducible refine (railPhasesTo_keeps ..).step (by decide) ?_
    | with_reducible refine (railPenLow_keeps ..).step (by decide) ?_
    | with_reducible refine (State.onRail_keeps ..).step (by decide) ?_
    | with_reducible refine (setAlarm_keeps ..).step (by decide) ?_
    | with_reducible refine (stopAllClocks_keeps ..).step (by decide) ?_
    | with_reducible refine Keeps.ite ?_ ?_
    | intro _ _ _


end Sys2Proof.Machine
end

