-- ==== Sys2Proof/Laws/TlyInst.lean ====
section
/-!
SUPPORT. What the operations of Machine/TlyInst.lean may change.
-/
namespace Sys2Proof.Machine

theorem tableLoad_keeps (a1) (s : State) :
    Keeps [.frm, .tly] s (tableLoad a1 s) := by
  unfold tableLoad; try dsimp only
  repeat' first
    | with_reducible assumption
    | with_reducible exact Keeps.refl _ _
    | with_reducible refine (State.onFrm_keeps ..).step (by decide) ?_
    | with_reducible refine (State.onTly_keeps ..).step (by decide) ?_
    | intro _ _ _
    | intro _ _

theorem progStore_keeps (a1 a2 a3 a4) (s : State) :
    Keeps [.hm, .hif, .ldg, .tly] s (progStore a1 a2 a3 a4 s) := by
  unfold progStore; try dsimp only
  repeat' first
    | with_reducible assumption
    | with_reducible exact Keeps.refl _ _
    | with_reducible refine (State.onTly_keeps ..).step (by decide) ?_
    | with_reducible refine (State.updProg_keeps ..).step (by decide) ?_
    | with_reducible refine (emitTly_keeps ..).step (by decide) ?_
    | intro _ _ _
    | intro _ _

theorem progSwap_keeps (a1 a2) (s : State) :
    Keeps [.frm, .hm, .hif, .ldg, .tly] s (progSwap a1 a2 s) := by
  unfold progSwap; try dsimp only
  repeat' first
    | with_reducible exact Keeps.refl _ _
    | with_reducible refine (State.updProg_keeps ..).step (by decide) ?_
    | with_reducible refine (progFree_keeps ..).step (by decide) ?_
    | with_reducible refine (tableLoad_keeps ..).step (by decide) ?_
    | with_reducible refine Keeps.ite ?_ ?_
    | split

theorem tlyInstall_keeps (a1) (s : State) :
    Keeps [.frm, .hm, .hif, .ldg, .tly] s (tlyInstall a1 s).2.2 := by
  unfold tlyInstall; try dsimp only
  repeat' first
    | with_reducible exact Keeps.refl _ _
    | with_reducible refine (progStore_keeps ..).step (by decide) ?_
    | with_reducible refine (progSwap_keeps ..).step (by decide) ?_
    | with_reducible refine Keeps.ite ?_ ?_
    | split

theorem tlyRemove_keeps (a1) (s : State) :
    Keeps [.hm, .hif, .ldg, .tly] s (tlyRemove a1 s).2 := by
  unfold tlyRemove; try dsimp only
  repeat' first
    | with_reducible exact Keeps.refl _ _
    | with_reducible refine (progFree_keeps ..).step (by decide) ?_
    | with_reducible refine Keeps.ite ?_ ?_
    | split

theorem confInstall_keeps (a1 a2) (s : State) :
    Keeps [.hm, .hif, .ldg, .tly] s (confInstall a1 a2 s) := by
  unfold confInstall; try dsimp only
  repeat' first
    | with_reducible exact Keeps.refl _ _
    | with_reducible refine (progStore_keeps ..).step (by decide) ?_
    | with_reducible refine (State.updProg_keeps ..).step (by decide) ?_
    | with_reducible refine Keeps.ite ?_ ?_

theorem confTally_keeps (s : State) :
    Keeps [.frm, .hm, .hif, .ldg, .tly] s (confTally s) := by
  unfold confTally; try dsimp only
  repeat' first
    | with_reducible assumption
    | with_reducible exact Keeps.refl _ _
    | with_reducible refine forList_keeps _ ?_ ?_
    | with_reducible refine (confInstall_keeps ..).step (by decide) ?_
    | with_reducible refine (tableLoad_keeps ..).step (by decide) ?_
    | with_reducible refine Keeps.ite ?_ ?_
    | intro _ _ _

theorem slotTable_keeps (a1 a2) (s : State) :
    Keeps [.frm, .tly] s (slotTable a1 a2 s).2 := by
  unfold slotTable; try dsimp only
  repeat' first
    | with_reducible exact Keeps.refl _ _
    | with_reducible refine (tableLoad_keeps ..).step (by decide) ?_
    | with_reducible refine Keeps.ite ?_ ?_
    | split

theorem setReg_keeps (a1 a2 a3 a4) (s : State) :
    Keeps [.hm, .hif, .ldg, .tly] s (setReg a1 a2 a3 a4 s).2 := by
  unfold setReg; try dsimp only
  repeat' first
    | with_reducible exact Keeps.refl _ _
    | with_reducible refine (pageEnd_keeps ..).step (by decide) ?_
    | with_reducible refine (State.updSet_keeps ..).step (by decide) ?_
    | with_reducible refine Keeps.ite ?_ ?_
    | split

theorem setRemove_keeps (a1) (s : State) :
    Keeps [.hm, .hif, .ldg, .tly] s (setRemove a1 s).2 := by
  unfold setRemove; try dsimp only
  repeat' first
    | with_reducible exact Keeps.refl _ _
    | with_reducible refine (pageEnd_keeps ..).step (by decide) ?_
    | with_reducible refine (State.updSet_keeps ..).step (by decide) ?_
    | with_reducible refine Keeps.ite ?_ ?_
    | split


end Sys2Proof.Machine
end

