-- ==== Sys2Proof/Laws/Load.lean ====
section
/-!
SUPPORT. What the operations of Machine/Load.lean may change.
-/
namespace Sys2Proof.Machine

theorem loadRails_keeps (s : State) :
    Keeps [.rail, .loop] s (loadRails s) := by
  unfold loadRails; try dsimp only
  repeat' first
    | with_reducible assumption
    | with_reducible exact Keeps.refl _ _
    | with_reducible refine forList_keeps _ ?_ ?_
    | with_reducible refine (State.updReg_keeps ..).step (by decide) ?_
    | with_reducible refine (State.updPh_keeps ..).step (by decide) ?_
    | with_reducible refine (State.updClu_keeps ..).step (by decide) ?_
    | intro _ _ _
    | intro _ _

theorem loadLoops_keeps (s : State) :
    Keeps [.loop] s (loadLoops s) := by
  unfold loadLoops; try dsimp only
  repeat' first
    | with_reducible assumption
    | with_reducible exact Keeps.refl _ _
    | with_reducible refine forList_keeps _ ?_ ?_
    | with_reducible refine (State.updClu_keeps ..).step (by decide) ?_
    | with_reducible refine (State.updLp_keeps ..).step (by decide) ?_
    | with_reducible refine Keeps.ite ?_ ?_
    | intro _ _ _

theorem loadTrs_keeps (s : State) :
    Keeps [.trs] s (loadTrs s) := by
  unfold loadTrs; try dsimp only
  repeat' first
    | with_reducible exact Keeps.refl _ _
    | with_reducible refine (State.onTrs_keeps ..).step (by decide) ?_

theorem loadFc_keeps (s : State) :
    Keeps [.fc] s (loadFc s) := by
  unfold loadFc; try dsimp only
  repeat' first
    | with_reducible assumption
    | with_reducible exact Keeps.refl _ _
    | with_reducible refine forList_keeps _ ?_ ?_
    | with_reducible refine (State.updHc_keeps ..).step (by decide) ?_
    | with_reducible refine (State.updHx_keeps ..).step (by decide) ?_
    | with_reducible refine (State.updFcCl_keeps ..).step (by decide) ?_
    | intro _ _ _
    | intro _ _

theorem loadSyn_keeps (s : State) :
    Keeps [.syn] s (loadSyn s) := by
  unfold loadSyn; try dsimp only
  repeat' first
    | with_reducible assumption
    | with_reducible exact Keeps.refl _ _
    | with_reducible refine forList_keeps _ ?_ ?_
    | with_reducible refine (State.updObj_keeps ..).step (by decide) ?_
    | with_reducible refine (State.updGrp_keeps ..).step (by decide) ?_
    | with_reducible refine (State.onSyn_keeps ..).step (by decide) ?_
    | intro _ _ _
    | intro _ _

theorem loadCold_keeps (s : State) :
    Keeps [.rail, .loop, .fc, .trs, .syn] s (loadCold s) := by
  unfold loadCold; try dsimp only
  repeat' first
    | with_reducible exact Keeps.refl _ _
    | with_reducible refine (loadSyn_keeps ..).step (by decide) ?_
    | with_reducible refine (loadFc_keeps ..).step (by decide) ?_
    | with_reducible refine (loadTrs_keeps ..).step (by decide) ?_
    | with_reducible refine (loadLoops_keeps ..).step (by decide) ?_
    | with_reducible refine (loadRails_keeps ..).step (by decide) ?_

theorem loadWarm_keeps (s : State) :
    Keeps [.loop, .trs] s (loadWarm s) := by
  unfold loadWarm; try dsimp only
  repeat' first
    | with_reducible exact Keeps.refl _ _
    | with_reducible refine (loadTrs_keeps ..).step (by decide) ?_
    | with_reducible refine (loadLoops_keeps ..).step (by decide) ?_

theorem coldStart_keeps (s : State) :
    Keeps [.rail, .hm, .hif, .ldg] s (coldStart s) := by
  unfold coldStart; try dsimp only
  repeat' first
    | with_reducible exact Keeps.refl _ _
    | with_reducible refine (beginStart_keeps ..).step (by decide) ?_
    | with_reducible refine Keeps.ite ?_ ?_

theorem pllLockStep_keeps (s : State) :
    Keeps [.pwr, .clk, .rail, .loop, .hm, .hif, .ldg] s (pllLockStep s) := by
  unfold pllLockStep; try dsimp only
  repeat' first
    | with_reducible exact Keeps.refl _ _
    | with_reducible refine (pllLock_keeps ..).step (by decide) ?_
    | with_reducible refine (coldStart_keeps ..).step (by decide) ?_
    | with_reducible refine Keeps.ite ?_ ?_


end Sys2Proof.Machine
end

