-- ==== Sys2Proof/Laws/FwOps.lean ====
section
/-!
SUPPORT. What the operations of Machine/FwOps.lean may change.
-/
namespace Sys2Proof.Machine

theorem dirWrite_keeps (s : State) :
    Keeps [.fw] s (dirWrite s) := by
  unfold dirWrite; try dsimp only
  repeat' first
    | with_reducible exact Keeps.refl _ _
    | with_reducible refine (State.onFw_keeps ..).step (by decide) ?_
    | with_reducible refine Keeps.ite ?_ ?_
    | split

theorem slotCheck_keeps (a1) (s : State) :
    Keeps [.fw] s (slotCheck a1 s).2 := by
  unfold slotCheck; try dsimp only
  repeat' first
    | with_reducible exact Keeps.refl _ _
    | with_reducible refine (State.onFw_keeps ..).step (by decide) ?_
    | with_reducible refine Keeps.ite ?_ ?_

theorem slotTry_keeps (a1) (s : State) :
    Keeps [.hm, .hif, .ldg, .fw] s (slotTry a1 s).2 := by
  unfold slotTry; try dsimp only
  repeat' first
    | with_reducible exact Keeps.refl _ _
    | with_reducible refine (slotCheck_keeps ..).step (by decide) ?_
    | with_reducible refine (emitVault_keeps ..).step (by decide) ?_
    | with_reducible refine (State.onFw_keeps ..).step (by decide) ?_
    | with_reducible refine Keeps.ite ?_ ?_
    | split

theorem slotOther_keeps (a1) (s : State) :
    Keeps [.hm, .hif, .ldg, .fw] s (slotOther a1 s).2 := by
  unfold slotOther; try dsimp only
  repeat' first
    | with_reducible exact Keeps.refl _ _
    | with_reducible refine (slotTry_keeps ..).step (by decide) ?_
    | with_reducible refine Keeps.ite ?_ ?_
    | split

theorem slotFirst_keeps (a1) (s : State) :
    Keeps [.hm, .hif, .ldg, .fw] s (slotFirst a1 s).2 := by
  unfold slotFirst; try dsimp only
  repeat' first
    | with_reducible exact Keeps.refl _ _
    | with_reducible refine (slotTry_keeps ..).step (by decide) ?_
    | with_reducible refine (slotOther_keeps ..).step (by decide) ?_
    | with_reducible refine Keeps.ite ?_ ?_
    | split

theorem bootPick_keeps (a1) (s : State) :
    Keeps [.hm, .hif, .ldg, .fw] s (bootPick a1 s).2 := by
  unfold bootPick; try dsimp only
  repeat' first
    | with_reducible exact Keeps.refl _ _
    | with_reducible refine (slotFirst_keeps ..).step (by decide) ?_
    | with_reducible refine (State.onFw_keeps ..).step (by decide) ?_
    | with_reducible refine (slotOther_keeps ..).step (by decide) ?_
    | with_reducible refine Keeps.ite ?_ ?_
    | split

theorem cfgUse_keeps (a1 a2) (s : State) :
    Keeps [.cfg, .fw] s (cfgUse a1 a2 s) := by
  unfold cfgUse; try dsimp only
  repeat' first
    | with_reducible exact Keeps.refl _ _
    | with_reducible refine (State.onCfg_keeps ..).step (by decide) ?_
    | with_reducible refine (State.onFw_keeps ..).step (by decide) ?_

theorem cfgStaged_keeps (a1) (s : State) :
    Keeps [.cfg, .hm, .hif, .ldg, .fw] s (cfgStaged a1 s).2 := by
  unfold cfgStaged; try dsimp only
  repeat' first
    | with_reducible exact Keeps.refl _ _
    | with_reducible refine (State.onFw_keeps ..).step (by decide) ?_
    | with_reducible refine (emitVault_keeps ..).step (by decide) ?_
    | with_reducible refine (cfgUse_keeps ..).step (by decide) ?_
    | with_reducible refine Keeps.ite ?_ ?_
    | split

theorem cfgCold_keeps (s : State) :
    Keeps [.pwr, .cfg, .rail, .loop, .hm, .hif, .ldg, .fw, .fc, .trs, .syn] s (cfgCold s) := by
  unfold cfgCold; try dsimp only
  repeat' first
    | with_reducible exact Keeps.refl _ _
    | with_reducible refine (cfgStaged_keeps ..).step (by decide) ?_
    | with_reducible refine (loadCold_keeps ..).step (by decide) ?_
    | with_reducible refine (cfgUse_keeps ..).step (by decide) ?_
    | with_reducible refine (setAlarm_keeps ..).step (by decide) ?_
    | with_reducible refine (emitVault_keeps ..).step (by decide) ?_
    | with_reducible refine Keeps.ite ?_ ?_
    | split

theorem vaultWipe_keeps (s : State) :
    Keeps [.hm, .hif, .ldg, .fw] s (vaultWipe s) := by
  unfold vaultWipe; try dsimp only
  repeat' first
    | with_reducible exact Keeps.refl _ _
    | with_reducible refine (State.onFw_keeps ..).step (by decide) ?_
    | with_reducible refine (emitVault_keeps ..).step (by decide) ?_

theorem vaultError_keeps (a1) (s : State) :
    Keeps [.pwr, .hm, .hif, .ldg, .fw] s (vaultError a1 s) := by
  unfold vaultError; try dsimp only
  repeat' first
    | with_reducible exact Keeps.refl _ _
    | with_reducible refine (State.onFw_keeps ..).step (by decide) ?_
    | with_reducible refine (setAlarm_keeps ..).step (by decide) ?_
    | with_reducible refine (vaultWipe_keeps ..).step (by decide) ?_
    | with_reducible refine (emitVault_keeps ..).step (by decide) ?_
    | with_reducible refine Keeps.ite ?_ ?_

theorem drawInc_keeps (s : State) :
    Keeps [.clr, .free] s (drawInc s) := by
  unfold drawInc; try dsimp only
  repeat' first
    | with_reducible exact Keeps.refl _ _
    | with_reducible refine (State.onClr_keeps ..).step (by decide) ?_
    | with_reducible refine (State.drawn_keeps ..).step (by decide) ?_
    | with_reducible refine Keeps.ite ?_ ?_


end Sys2Proof.Machine
end

