-- ==== Sys2Proof/Laws/Trs.lean ====
section
/-!
SUPPORT. What the operations of Machine/Trs.lean may change.
-/
namespace Sys2Proof.Machine

theorem leaseGuard_keeps (a1 a2) (s : State) :
    Keeps [.hm, .hif, .ldg, .trs, .clr] s (leaseGuard a1 a2 s) := by
  unfold leaseGuard; try dsimp only
  repeat' first
    | with_reducible exact Keeps.refl _ _
    | with_reducible refine (emitTrs_keeps ..).step (by decide) ?_
    | with_reducible refine (State.onTrs_keeps ..).step (by decide) ?_
    | with_reducible refine (State.updLnk_keeps ..).step (by decide) ?_
    | with_reducible refine Keeps.ite ?_ ?_
    | split

theorem trimPut_keeps (a1 a2) (s : State) :
    Keeps [.trs] s (trimPut a1 a2 s) := by
  unfold trimPut; try dsimp only
  repeat' first
    | with_reducible exact Keeps.refl _ _
    | with_reducible refine (State.updTrsCl_keeps ..).step (by decide) ?_
    | with_reducible refine (State.onTrs_keeps ..).step (by decide) ?_
    | with_reducible refine Keeps.ite ?_ ?_

theorem trimClu_keeps (a1) (s : State) :
    Keeps [.hm, .hif, .ldg, .trs] s (trimClu a1 s) := by
  unfold trimClu; try dsimp only
  repeat' first
    | with_reducible exact Keeps.refl _ _
    | with_reducible refine (trimPut_keeps ..).step (by decide) ?_
    | with_reducible refine (State.updTrsCl_keeps ..).step (by decide) ?_
    | with_reducible refine (emitTrs_keeps ..).step (by decide) ?_
    | with_reducible refine Keeps.ite ?_ ?_
    | split

theorem trimEvaluate_keeps (s : State) :
    Keeps [.hm, .hif, .ldg, .trs] s (trimEvaluate s) := by
  unfold trimEvaluate; try dsimp only
  repeat' first
    | with_reducible assumption
    | with_reducible exact Keeps.refl _ _
    | with_reducible refine forList_keeps _ ?_ ?_
    | with_reducible refine (trimClu_keeps ..).step (by decide) ?_
    | with_reducible refine (State.onTrs_keeps ..).step (by decide) ?_
    | with_reducible refine Keeps.ite ?_ ?_
    | intro _ _ _

theorem trsRes_keeps (a1) (s : State) :
    Keeps [.trs] s (trsRes a1 s) := by
  unfold trsRes; try dsimp only
  repeat' first
    | with_reducible exact Keeps.refl _ _
    | with_reducible refine (State.onTrs_keeps ..).step (by decide) ?_

theorem capSet_keeps (a1) (s : State) :
    Keeps [.hm, .hif, .ldg, .trs] s (capSet a1 s) := by
  unfold capSet; try dsimp only
  repeat' first
    | with_reducible exact Keeps.refl _ _
    | with_reducible refine (trsRes_keeps ..).step (by decide) ?_
    | with_reducible refine (State.onTrs_keeps ..).step (by decide) ?_
    | with_reducible refine (floorsUpdate_keeps ..).step (by decide) ?_
    | with_reducible refine (odEnd_keeps ..).step (by decide) ?_
    | with_reducible refine (emitTrs_keeps ..).step (by decide) ?_
    | with_reducible refine Keeps.ite ?_ ?_

theorem clrRsn_keeps (s : State) :
    Keeps [.trs] s (clrRsn s) := by
  unfold clrRsn; try dsimp only
  repeat' first
    | with_reducible assumption
    | with_reducible exact Keeps.refl _ _
    | with_reducible refine forList_keeps _ ?_ ?_
    | with_reducible refine (State.updTrsCl_keeps ..).step (by decide) ?_
    | intro _ _ _
    | intro _ _

theorem clrOd_keeps (s : State) :
    Keeps [.trs] s (clrOd s) := by
  unfold clrOd; try dsimp only
  repeat' first
    | with_reducible exact Keeps.refl _ _
    | with_reducible refine (State.onTrs_keeps ..).step (by decide) ?_

theorem clrFlt_keeps (s : State) :
    Keeps [.trs] s (clrFlt s) := by
  unfold clrFlt; try dsimp only
  repeat' first
    | with_reducible assumption
    | with_reducible exact Keeps.refl _ _
    | with_reducible refine forList_keeps _ ?_ ?_
    | with_reducible refine (State.updTx_keeps ..).step (by decide) ?_
    | intro _ _ _
    | intro _ _

theorem dcPrio_keeps (a1) (s : State) :
    Keeps [.trs] s (dcPrio a1 s) := by
  unfold dcPrio; try dsimp only
  repeat' first
    | with_reducible exact Keeps.refl _ _
    | with_reducible refine (trsRes_keeps ..).step (by decide) ?_
    | with_reducible refine (State.onTrs_keeps ..).step (by decide) ?_
    | with_reducible refine Keeps.ite ?_ ?_

theorem dcFloor_keeps (a1) (s : State) :
    Keeps [.hm, .hif, .ldg, .trs] s (dcFloor a1 s) := by
  unfold dcFloor; try dsimp only
  repeat' first
    | with_reducible exact Keeps.refl _ _
    | with_reducible refine (State.onTrs_keeps ..).step (by decide) ?_
    | with_reducible refine (floorsUpdate_keeps ..).step (by decide) ?_
    | with_reducible refine (trsRes_keeps ..).step (by decide) ?_
    | with_reducible refine Keeps.ite ?_ ?_

theorem txParam_keeps (a1 a2 a3 a4) (s : State) :
    Keeps [.hm, .hif, .ldg, .trs] s (txParam a1 a2 a3 a4 s).2 := by
  unfold txParam; try dsimp only
  repeat' first
    | with_reducible exact Keeps.refl _ _
    | with_reducible refine (State.updTx_keeps ..).step (by decide) ?_
    | with_reducible refine (floorsUpdate_keeps ..).step (by decide) ?_
    | with_reducible refine Keeps.ite ?_ ?_
    | split


end Sys2Proof.Machine
end

