-- ==== Sys2Proof/Laws/Hif.lean ====
section
/-!
SUPPORT. What the operations of Machine/Hif.lean may change.
-/
namespace Sys2Proof.Machine

theorem ctxError_keeps (a1 a2 a3) (s : State) :
    Keeps [.hm, .hif, .ldg] s (ctxError a1 a2 a3 s) := by
  unfold ctxError; try dsimp only
  repeat' first
    | with_reducible exact Keeps.refl _ _
    | with_reducible refine (State.updCtx_keeps ..).step (by decide) ?_
    | with_reducible refine (emitClerk_keeps ..).step (by decide) ?_

theorem doorbell_keeps (a1 a2) (s : State) :
    Keeps [.hm, .hif, .ldg] s (doorbell a1 a2 s) := by
  unfold doorbell; try dsimp only
  repeat' first
    | with_reducible exact Keeps.refl _ _
    | with_reducible refine (State.onHif_keeps ..).step (by decide) ?_
    | with_reducible refine (State.updCtx_keeps ..).step (by decide) ?_
    | with_reducible refine (ctxError_keeps ..).step (by decide) ?_
    | with_reducible refine Keeps.ite ?_ ?_

theorem irqGap_keeps (a1) (s : State) :
    Keeps [.hm, .hif] s (irqGap a1 s) := by
  unfold irqGap; try dsimp only
  repeat' first
    | with_reducible exact Keeps.refl _ _
    | with_reducible refine (irqDue_keeps ..).step (by decide) ?_
    | with_reducible refine Keeps.ite ?_ ?_

theorem negGo_keeps (s : State) :
    Keeps [.hm, .hif, .ldg] s (negGo s) := by
  unfold negGo; try dsimp only
  repeat' first
    | with_reducible exact Keeps.refl _ _
    | with_reducible refine (State.onHif_keeps ..).step (by decide) ?_
    | with_reducible refine (emitClerk_keeps ..).step (by decide) ?_
    | with_reducible refine Keeps.ite ?_ ?_
    | split

theorem openC0_keeps (s : State) :
    Keeps [.hm, .hif, .ldg] s (openC0 s) := by
  unfold openC0; try dsimp only
  repeat' first
    | with_reducible exact Keeps.refl _ _
    | with_reducible refine (State.updCtx_keeps ..).step (by decide) ?_
    | with_reducible refine (emitClerk_keeps ..).step (by decide) ?_

theorem c0RingWrite_keeps (a1) (s : State) :
    Keeps [.hm, .hif, .ldg, .fc, .trs] s (c0RingWrite a1 s) := by
  unfold c0RingWrite; try dsimp only
  repeat' first
    | with_reducible exact Keeps.refl _ _
    | with_reducible refine (State.updCtx_keeps ..).step (by decide) ?_
    | with_reducible refine (ctxShut_keeps ..).step (by decide) ?_
    | with_reducible refine (State.onHif_keeps ..).step (by decide) ?_
    | with_reducible refine (openC0_keeps ..).step (by decide) ?_
    | with_reducible refine Keeps.ite ?_ ?_

theorem hifClr_keeps (s : State) :
    Keeps [.hif] s (hifClr s) := by
  unfold hifClr; try dsimp only
  repeat' first
    | with_reducible assumption
    | with_reducible exact Keeps.refl _ _
    | with_reducible refine forList_keeps _ ?_ ?_
    | with_reducible refine (State.updCtx_keeps ..).step (by decide) ?_
    | with_reducible refine (State.onHif_keeps ..).step (by decide) ?_
    | intro _ _ _
    | intro _ _

theorem bodyNop_keeps (s : State) :
    KeepsD [] s (bodyNop s) := by
  unfold bodyNop; try dsimp only
  repeat' first
    | with_reducible exact Keeps.refl _ _
    | with_reducible refine KeepsD.ite ?_ ?_
    | with_reducible refine KeepsD.done ?_
    | with_reducible refine KeepsD.wait ?_
    | with_reducible refine KeepsD.fail ?_

theorem bodyIdentify_keeps (a1) (s : State) :
    KeepsD [] s (bodyIdentify a1 s) := by
  unfold bodyIdentify; try dsimp only
  repeat' first
    | with_reducible exact Keeps.refl _ _
    | with_reducible refine KeepsD.ite ?_ ?_
    | with_reducible refine KeepsD.done ?_
    | with_reducible refine KeepsD.wait ?_
    | with_reducible refine KeepsD.fail ?_

theorem bodyWarmReset_keeps (a1) (s : State) :
    KeepsD [.pwr] s (bodyWarmReset a1 s) := by
  unfold bodyWarmReset; try dsimp only
  repeat' first
    | with_reducible exact Keeps.refl _ _
    | with_reducible refine (DescOut.fail_keeps ..).step (by decide) ?_
    | with_reducible refine (State.onPwr_keeps ..).step (by decide) ?_
    | with_reducible refine Keeps.ite ?_ ?_
    | with_reducible refine KeepsD.ite ?_ ?_
    | with_reducible refine KeepsD.done ?_

theorem cluAuto_keeps (a1) (s : State) :
    Keeps [.clk, .rail, .hm, .hif, .ldg] s (cluAuto a1 s) := by
  unfold cluAuto; try dsimp only
  repeat' first
    | with_reducible assumption
    | with_reducible exact Keeps.refl _ _
    | with_reducible refine forList_keeps _ ?_ ?_
    | with_reducible refine (retarget_keeps ..).step (by decide) ?_
    | with_reducible refine (State.updReg_keeps ..).step (by decide) ?_
    | with_reducible refine (rootRequest_keeps ..).step (by decide) ?_
    | with_reducible refine Keeps.ite ?_ ?_
    | intro _ _ _

theorem controlClu_keeps (a1) (s : State) :
    Keeps [.clk, .rail, .loop, .hm, .hif, .ldg] s (controlClu a1 s) := by
  unfold controlClu; try dsimp only
  repeat' first
    | with_reducible assumption
    | with_reducible exact Keeps.refl _ _
    | with_reducible refine (cluRestart_keeps ..).step (by decide) ?_
    | with_reducible refine (cluUnhold_keeps ..).step (by decide) ?_
    | with_reducible refine (State.updClu_keeps ..).step (by decide) ?_
    | with_reducible refine forList_keeps _ ?_ ?_
    | with_reducible refine (State.updLp_keeps ..).step (by decide) ?_
    | with_reducible refine (cluAuto_keeps ..).step (by decide) ?_
    | with_reducible refine Keeps.ite ?_ ?_
    | intro _ _ _

theorem railsFree_keeps (s : State) :
    Keeps [.rail] s (railsFree s) := by
  unfold railsFree; try dsimp only
  repeat' first
    | with_reducible assumption
    | with_reducible exact Keeps.refl _ _
    | with_reducible refine forList_keeps _ ?_ ?_
    | with_reducible refine (State.updReg_keeps ..).step (by decide) ?_
    | with_reducible refine Keeps.ite ?_ ?_
    | intro _ _ _

theorem controlStart_keeps (a1) (s : State) :
    KeepsD [.clk, .rail, .loop, .hm, .hif, .ldg] s (controlStart a1 s) := by
  unfold controlStart; try dsimp only
  repeat' first
    | with_reducible assumption
    | with_reducible exact Keeps.refl _ _
    | with_reducible refine (DescOut.fail_keeps ..).step (by decide) ?_
    | with_reducible refine (domStartAll_keeps ..).step (by decide) ?_
    | with_reducible refine (railsFree_keeps ..).step (by decide) ?_
    | with_reducible refine forList_keeps _ ?_ ?_
    | with_reducible refine (controlClu_keeps ..).step (by decide) ?_
    | with_reducible refine (emitClerk_keeps ..).step (by decide) ?_
    | with_reducible refine Keeps.ite ?_ ?_
    | with_reducible refine KeepsD.ite ?_ ?_
    | with_reducible refine KeepsD.done ?_
    | with_reducible refine KeepsD.wait ?_
    | with_reducible refine KeepsD.fail ?_
    | intro _ _ _

theorem bodyCtxOpen_keeps (a1) (s : State) :
    KeepsD [.hm, .hif, .ldg, .trs] s (bodyCtxOpen a1 s) := by
  unfold bodyCtxOpen; try dsimp only
  repeat' first
    | with_reducible exact Keeps.refl _ _
    | with_reducible refine (DescOut.fail_keeps ..).step (by decide) ?_
    | with_reducible refine (State.updCtx_keeps ..).step (by decide) ?_
    | with_reducible refine (State.updTx_keeps ..).step (by decide) ?_
    | with_reducible refine (emitClerk_keeps ..).step (by decide) ?_
    | with_reducible refine Keeps.ite ?_ ?_
    | with_reducible refine KeepsD.ite ?_ ?_
    | with_reducible refine KeepsD.done ?_

theorem bodyCtxClose_keeps (a1 a2) (s : State) :
    KeepsD [.hm, .hif, .ldg, .fc, .trs] s (bodyCtxClose a1 a2 s) := by
  unfold bodyCtxClose; try dsimp only
  repeat' first
    | with_reducible exact Keeps.refl _ _
    | with_reducible refine (DescOut.fail_keeps ..).step (by decide) ?_
    | with_reducible refine (State.updCtx_keeps ..).step (by decide) ?_
    | with_reducible refine (ctxShut_keeps ..).step (by decide) ?_
    | with_reducible refine Keeps.ite ?_ ?_
    | with_reducible refine KeepsD.ite ?_ ?_
    | with_reducible refine KeepsD.done ?_
    | with_reducible refine KeepsD.wait ?_

theorem bodyCtxParam_keeps (a1 a2 a3 a4) (s : State) :
    KeepsD [.hm, .hif, .ldg, .trs] s (bodyCtxParam a1 a2 a3 a4 s) := by
  unfold bodyCtxParam; try dsimp only
  repeat' first
    | with_reducible exact Keeps.refl _ _
    | with_reducible refine (DescOut.fail_keeps ..).step (by decide) ?_
    | with_reducible refine (txParam_keeps ..).step (by decide) ?_
    | with_reducible refine Keeps.ite ?_ ?_
    | with_reducible refine KeepsD.ite ?_ ?_
    | with_reducible refine KeepsD.done ?_

theorem bodyCtxPlace_keeps (a1 a2) (s : State) :
    KeepsD [.trs] s (bodyCtxPlace a1 a2 s) := by
  unfold bodyCtxPlace; try dsimp only
  repeat' first
    | with_reducible exact Keeps.refl _ _
    | with_reducible refine (DescOut.fail_keeps ..).step (by decide) ?_
    | with_reducible refine (State.updTx_keeps ..).step (by decide) ?_
    | with_reducible refine Keeps.ite ?_ ?_
    | with_reducible refine KeepsD.ite ?_ ?_
    | with_reducible refine KeepsD.done ?_

theorem bodyFloorSet_keeps (a1 a2) (s : State) :
    KeepsD [.hm, .hif, .ldg, .trs] s (bodyFloorSet a1 a2 s) := by
  unfold bodyFloorSet; try dsimp only
  repeat' first
    | with_reducible exact Keeps.refl _ _
    | with_reducible refine (DescOut.fail_keeps ..).step (by decide) ?_
    | with_reducible refine (floorsUpdate_keeps ..).step (by decide) ?_
    | with_reducible refine (State.updTx_keeps ..).step (by decide) ?_
    | with_reducible refine Keeps.ite ?_ ?_
    | with_reducible refine KeepsD.ite ?_ ?_
    | with_reducible refine KeepsD.done ?_

theorem bodyCtxTelem_keeps (a1 a2) (s : State) :
    KeepsD [.hm] s (bodyCtxTelem a1 a2 s) := by
  unfold bodyCtxTelem; try dsimp only
  repeat' first
    | with_reducible exact Keeps.refl _ _
    | with_reducible refine (DescOut.fail_keeps ..).step (by decide) ?_
    | with_reducible refine (hmWrite_keeps ..).step (by decide) ?_
    | with_reducible refine Keeps.ite ?_ ?_
    | with_reducible refine KeepsD.ite ?_ ?_
    | with_reducible refine KeepsD.done ?_

theorem bodyAmBaseline_keeps (a1 a2) (s : State) :
    KeepsD [.sns] s (bodyAmBaseline a1 a2 s) := by
  unfold bodyAmBaseline; try dsimp only
  repeat' first
    | with_reducible assumption
    | with_reducible exact Keeps.refl _ _
    | with_reducible refine (DescOut.fail_keeps ..).step (by decide) ?_
    | with_reducible refine forList_keeps _ ?_ ?_
    | with_reducible refine (State.onSns_keeps ..).step (by decide) ?_
    | with_reducible refine Keeps.ite ?_ ?_
    | with_reducible refine KeepsD.ite ?_ ?_
    | with_reducible refine KeepsD.done ?_
    | with_reducible refine KeepsD.wait ?_
    | with_reducible refine KeepsD.fail ?_
    | intro _ _ _


end Sys2Proof.Machine
end

