-- ==== Sys2Proof/Laws/EpOps.lean ====
section
/-!
SUPPORT. What the operations of Machine/EpOps.lean may change.
-/
namespace Sys2Proof.Machine

theorem epProcess_keeps (a1 a2) (s : State) :
    Keeps [.hm, .ep, .hif, .ldg, .fc, .trs, .syn] s (epProcess a1 a2 s) := by
  unfold epProcess; try dsimp only
  repeat' first
    | with_reducible exact Keeps.refl _ _
    | with_reducible refine (epRespond_keeps ..).step (by decide) ?_
    | with_reducible refine (hintPerform_keeps ..).step (by decide) ?_
    | with_reducible refine (synPerform_keeps ..).step (by decide) ?_
    | with_reducible refine Keeps.ite ?_ ?_

theorem epRequest_keeps (a1 a2) (s : State) :
    Keeps [.hm, .ep, .hif, .ldg, .fc, .trs, .syn] s (epRequest a1 a2 s) := by
  unfold epRequest; try dsimp only
  repeat' first
    | with_reducible exact Keeps.refl _ _
    | with_reducible refine (State.updEp_keeps ..).step (by decide) ?_
    | with_reducible refine (epProcess_keeps ..).step (by decide) ?_
    | with_reducible refine Keeps.ite ?_ ?_

theorem epDrain_keeps (lane n : Nat) (s : State) : Keeps [.hm, .ep, .hif, .ldg, .fc, .trs, .syn] s (epDrain lane n s) := by
  induction n generalizing s with
  | zero => exact .refl ..
  | succ n ih =>
    unfold epDrain
    split
    · exact .refl ..
    · refine .ite (.refl ..) ?_
      exact ((epProcess_keeps ..).step (by decide) ((State.updEp_keeps ..).step (by decide) (.refl ..))).trans (ih _)

theorem epTaken_keeps (a1) (s : State) :
    Keeps [.hm, .ep, .hif, .ldg, .fc, .trs, .syn] s (epTaken a1 s) := by
  unfold epTaken; try dsimp only
  repeat' first
    | with_reducible exact Keeps.refl _ _
    | with_reducible refine (State.updEp_keeps ..).step (by decide) ?_
    | with_reducible refine (epDrain_keeps ..).step (by decide) ?_

theorem engineReq_keeps (a1 a2 a3 a4 a5 a6 a7) (s : State) :
    Keeps [.hm, .ep, .hif, .ldg, .fc, .trs, .syn] s (engineReq a1 a2 a3 a4 a5 a6 a7 s) := by
  unfold engineReq; try dsimp only
  repeat' first
    | with_reducible exact Keeps.refl _ _
    | with_reducible refine (epRequest_keeps ..).step (by decide) ?_


end Sys2Proof.Machine
end

