-- ==== Sys2Proof/Laws/Sync.lean ====
section
/-!
SUPPORT. What the operations of Machine/Sync.lean may change.
-/
namespace Sys2Proof.Machine

theorem synTimeout_keeps (a1) (s : State) :
    Keeps [.hm, .ep, .hif, .ldg, .trs, .syn] s (synTimeout a1 s) := by
  unfold synTimeout; try dsimp only
  repeat' first
    | with_reducible exact Keeps.refl _ _
    | with_reducible refine (failWait_keeps ..).step (by decide) ?_
    | with_reducible refine Keeps.ite ?_ ?_
    | split

theorem synWatchdog_keeps (a1) (s : State) :
    Keeps [.hm, .ep, .hif, .ldg, .trs, .syn] s (synWatchdog a1 s) := by
  unfold synWatchdog; try dsimp only
  repeat' first
    | with_reducible assumption
    | with_reducible exact Keeps.refl _ _
    | with_reducible refine (emitSyn_keeps ..).step (by decide) ?_
    | with_reducible refine (State.updCore_keeps ..).step (by decide) ?_
    | with_reducible refine forList_keeps _ ?_ ?_
    | with_reducible refine (failWait_keeps ..).step (by decide) ?_
    | with_reducible refine Keeps.ite ?_ ?_
    | intro _ _ _
    | split

theorem synEcc_keeps (a1 a2) (s : State) :
    Keeps [.hm, .ep, .hif, .ldg, .trs, .syn] s (synEcc a1 a2 s) := by
  unfold synEcc; try dsimp only
  repeat' first
    | with_reducible assumption
    | with_reducible exact Keeps.refl _ _
    | with_reducible refine (State.onSyn_keeps ..).step (by decide) ?_
    | with_reducible refine (emitSyn_keeps ..).step (by decide) ?_
    | with_reducible refine (State.updObj_keeps ..).step (by decide) ?_
    | with_reducible refine forList_keeps _ ?_ ?_
    | with_reducible refine (failWait_keeps ..).step (by decide) ?_
    | with_reducible refine Keeps.ite ?_ ?_
    | intro _ _ _

theorem escrowLend_keeps (a1) (s : State) :
    Keeps [.hm, .hif, .ldg, .syn] s (escrowLend a1 s) := by
  unfold escrowLend; try dsimp only
  repeat' first
    | with_reducible exact Keeps.refl _ _
    | with_reducible refine (State.onSyn_keeps ..).step (by decide) ?_
    | with_reducible refine (State.updCore_keeps ..).step (by decide) ?_
    | with_reducible refine (emitSyn_keeps ..).step (by decide) ?_
    | with_reducible refine Keeps.ite ?_ ?_

theorem synCtrlClr_keeps (s : State) :
    Keeps [.syn] s (synCtrlClr s) := by
  unfold synCtrlClr; try dsimp only
  repeat' first
    | with_reducible exact Keeps.refl _ _
    | with_reducible refine (State.onSyn_keeps ..).step (by decide) ?_

theorem synRes_keeps (a1) (s : State) :
    Keeps [.syn] s (synRes a1 s) := by
  unfold synRes; try dsimp only
  repeat' first
    | with_reducible exact Keeps.refl _ _
    | with_reducible refine (State.onSyn_keeps ..).step (by decide) ?_

theorem synCoreCfg_keeps (a1) (s : State) :
    Keeps [.hm, .hif, .ldg, .trs, .syn] s (synCoreCfg a1 s) := by
  unfold synCoreCfg; try dsimp only
  repeat' first
    | with_reducible exact Keeps.refl _ _
    | with_reducible refine (synRes_keeps ..).step (by decide) ?_
    | with_reducible refine (State.updCore_keeps ..).step (by decide) ?_
    | with_reducible refine (waitMark_keeps ..).step (by decide) ?_
    | with_reducible refine (reclaimCore_keeps ..).step (by decide) ?_
    | with_reducible refine (coreUpdate_keeps ..).step (by decide) ?_
    | with_reducible refine Keeps.ite ?_ ?_

theorem escCfg_keeps (a1) (s : State) :
    Keeps [.hm, .hif, .ldg, .trs, .syn] s (escCfg a1 s) := by
  unfold escCfg; try dsimp only
  repeat' first
    | with_reducible assumption
    | with_reducible exact Keeps.refl _ _
    | with_reducible refine (synRes_keeps ..).step (by decide) ?_
    | with_reducible refine forList_keeps _ ?_ ?_
    | with_reducible refine (reclaimClu_keeps ..).step (by decide) ?_
    | with_reducible refine (State.onSyn_keeps ..).step (by decide) ?_
    | with_reducible refine Keeps.ite ?_ ?_
    | intro _ _ _

theorem clrAcc_keeps (s : State) :
    Keeps [.hm, .hif, .ldg, .fc] s (clrAcc s) := by
  unfold clrAcc; try dsimp only
  repeat' first
    | with_reducible exact Keeps.refl _ _
    | with_reducible refine (fcGates_keeps ..).step (by decide) ?_
    | with_reducible refine (State.updFcCl_keeps ..).step (by decide) ?_

theorem fcDefault_keeps (s : State) :
    Keeps [.fc] s (fcDefault s) := by
  unfold fcDefault; try dsimp only
  repeat' first
    | with_reducible exact Keeps.refl _ _
    | with_reducible refine (State.updFcCl_keeps ..).step (by decide) ?_

theorem fcResOk_keeps (s : State) :
    Keeps [.fc] s (fcResOk s) := by
  unfold fcResOk; try dsimp only
  repeat' first
    | with_reducible exact Keeps.refl _ _
    | with_reducible refine (State.onFc_keeps ..).step (by decide) ?_

theorem hcWrite_keeps (a1 a2 a3) (s : State) :
    Keeps [.hm, .hif, .ldg, .fc] s (hcWrite a1 a2 a3 s).2 := by
  unfold hcWrite; try dsimp only
  repeat' first
    | with_reducible exact Keeps.refl _ _
    | with_reducible refine (emitTrs_keeps ..).step (by decide) ?_
    | with_reducible refine (State.updHc_keeps ..).step (by decide) ?_
    | with_reducible refine Keeps.ite ?_ ?_
    | split

theorem permWrite_keeps (a1 a2 a3 a4) (s : State) :
    Keeps [.hm, .hif, .ldg, .fc] s (permWrite a1 a2 a3 a4 s).2 := by
  unfold permWrite; try dsimp only
  repeat' first
    | with_reducible exact Keeps.refl _ _
    | with_reducible refine (emitTrs_keeps ..).step (by decide) ?_
    | with_reducible refine (State.updHx_keeps ..).step (by decide) ?_
    | with_reducible refine Keeps.ite ?_ ?_
    | split

theorem hcRes_keeps (x : Nat × State) : Keeps [.fc] x.2 (hcRes x) := State.onFc_keeps ..


end Sys2Proof.Machine
end

