-- ==== Sys2Proof/Laws/Desc.lean ====
section
/-!
SUPPORT. What the operations of Machine/Desc.lean may change.
-/
namespace Sys2Proof.Machine

theorem withData_keeps {ps : List Area} {r s : State} {f : List Nat → DescOut} (x : Ext) (n : Nat)
    (hf : ∀ b, KeepsD ps r (f b)) (h : Keeps ps r s) : KeepsD ps r (withData x n s f) := by
  unfold withData
  split
  · exact .fail h
  · exact hf _

theorem withVault_keeps {ps : List Area} {r s : State} {f : State → DescOut} (hf : ∀ u, Keeps ps r u → KeepsD ps r (f u))
    (h : Keeps ps r s) : KeepsD ps r (withVault s f) := by
  unfold withVault
  exact .ite (.fail h) (hf s h)

theorem bodyTlyInstall_keeps (a1 a2) (s : State) :
    KeepsD [.frm, .hm, .hif, .ldg, .tly] s (bodyTlyInstall a1 a2 s) := by
  unfold bodyTlyInstall; try dsimp only
  repeat' first
    | with_reducible assumption
    | with_reducible exact Keeps.refl _ _
    | with_reducible refine withVault_keeps ?_ ?_
    | with_reducible refine withData_keeps _ _ ?_ ?_
    | with_reducible refine (tlyInstall_keeps ..).step (by decide) ?_
    | with_reducible refine KeepsD.ite ?_ ?_
    | with_reducible refine KeepsD.done ?_
    | with_reducible refine KeepsD.wait ?_
    | with_reducible refine KeepsD.fail ?_
    | intro _ _ _
    | intro _ _
    | intro _

theorem bodyTlyRemove_keeps (a1) (s : State) :
    KeepsD [.hm, .hif, .ldg, .tly] s (bodyTlyRemove a1 s) := by
  unfold bodyTlyRemove; try dsimp only
  repeat' first
    | with_reducible exact Keeps.refl _ _
    | with_reducible refine (tlyRemove_keeps ..).step (by decide) ?_
    | with_reducible refine (DescOut.fail_keeps ..).step (by decide) ?_
    | with_reducible refine Keeps.ite ?_ ?_
    | with_reducible refine KeepsD.ite ?_ ?_
    | with_reducible refine KeepsD.done ?_
    | with_reducible refine KeepsD.wait ?_
    | with_reducible refine KeepsD.fail ?_

theorem bodyTlySetReg_keeps (a1 a2 a3 a4) (s : State) :
    KeepsD [.hm, .hif, .ldg, .tly] s (bodyTlySetReg a1 a2 a3 a4 s) := by
  unfold bodyTlySetReg; try dsimp only
  repeat' first
    | with_reducible assumption
    | with_reducible exact Keeps.refl _ _
    | with_reducible refine withVault_keeps ?_ ?_
    | with_reducible refine withData_keeps _ _ ?_ ?_
    | with_reducible refine (setReg_keeps ..).step (by decide) ?_
    | with_reducible refine (DescOut.fail_keeps ..).step (by decide) ?_
    | with_reducible refine Keeps.ite ?_ ?_
    | with_reducible refine KeepsD.ite ?_ ?_
    | with_reducible refine KeepsD.done ?_
    | with_reducible refine KeepsD.wait ?_
    | with_reducible refine KeepsD.fail ?_
    | intro _ _ _
    | intro _ _
    | intro _

theorem bodyTlySetRemove_keeps (a1) (s : State) :
    KeepsD [.hm, .hif, .ldg, .tly] s (bodyTlySetRemove a1 s) := by
  unfold bodyTlySetRemove; try dsimp only
  repeat' first
    | with_reducible exact Keeps.refl _ _
    | with_reducible refine (setRemove_keeps ..).step (by decide) ?_
    | with_reducible refine (DescOut.fail_keeps ..).step (by decide) ?_
    | with_reducible refine Keeps.ite ?_ ?_
    | with_reducible refine KeepsD.ite ?_ ?_
    | with_reducible refine KeepsD.done ?_
    | with_reducible refine KeepsD.wait ?_
    | with_reducible refine KeepsD.fail ?_

theorem bodySlotTable_keeps (a1 a2) (s : State) :
    KeepsD [.frm, .tly] s (bodySlotTable a1 a2 s) := by
  unfold bodySlotTable; try dsimp only
  repeat' first
    | with_reducible assumption
    | with_reducible exact Keeps.refl _ _
    | with_reducible refine withVault_keeps ?_ ?_
    | with_reducible refine withData_keeps _ _ ?_ ?_
    | with_reducible refine (slotTable_keeps ..).step (by decide) ?_
    | with_reducible refine (DescOut.fail_keeps ..).step (by decide) ?_
    | with_reducible refine Keeps.ite ?_ ?_
    | with_reducible refine KeepsD.ite ?_ ?_
    | with_reducible refine KeepsD.done ?_
    | with_reducible refine KeepsD.wait ?_
    | with_reducible refine KeepsD.fail ?_
    | intro _ _ _
    | intro _ _
    | intro _

theorem loopQueue_keeps (a1 a2 a3 a4) (s : State) :
    Keeps [.loop] s (loopQueue a1 a2 a3 a4 s) := by
  unfold loopQueue; try dsimp only
  repeat' first
    | with_reducible exact Keeps.refl _ _
    | with_reducible refine (State.onLoop_keeps ..).step (by decide) ?_

theorem coefApply_keeps (a1) (s : State) :
    Keeps [.loop] s (coefApply a1 s) := by
  unfold coefApply; try dsimp only
  repeat' first
    | with_reducible assumption
    | with_reducible exact Keeps.refl _ _
    | with_reducible refine forList_keeps _ ?_ ?_
    | with_reducible refine (loopQueue_keeps ..).step (by decide) ?_
    | with_reducible refine Keeps.ite ?_ ?_
    | intro _ _ _

theorem bodyLoopCoef_keeps (a1) (s : State) :
    KeepsD [.loop] s (bodyLoopCoef a1 s) := by
  unfold bodyLoopCoef; try dsimp only
  repeat' first
    | with_reducible exact Keeps.refl _ _
    | with_reducible refine (coefApply_keeps ..).step (by decide) ?_
    | with_reducible refine (DescOut.fail_keeps ..).step (by decide) ?_
    | with_reducible refine Keeps.ite ?_ ?_
    | with_reducible refine KeepsD.ite ?_ ?_
    | with_reducible refine KeepsD.done ?_
    | with_reducible refine KeepsD.wait ?_
    | with_reducible refine KeepsD.fail ?_

theorem bodyVftLoad_keeps (a1 a2) (s : State) :
    KeepsD [.loop] s (bodyVftLoad a1 a2 s) := by
  unfold bodyVftLoad; try dsimp only
  repeat' first
    | with_reducible assumption
    | with_reducible exact Keeps.refl _ _
    | with_reducible refine withData_keeps _ _ ?_ ?_
    | with_reducible refine (State.updClu_keeps ..).step (by decide) ?_
    | with_reducible refine (DescOut.fail_keeps ..).step (by decide) ?_
    | with_reducible refine Keeps.ite ?_ ?_
    | with_reducible refine KeepsD.ite ?_ ?_
    | with_reducible refine KeepsD.done ?_
    | with_reducible refine KeepsD.wait ?_
    | with_reducible refine KeepsD.fail ?_
    | intro _ _ _
    | intro _ _
    | intro _

theorem bodyHintClassEntry_keeps (a1 a2) (s : State) :
    KeepsD [.hm, .hif, .ldg, .fc] s (bodyHintClassEntry a1 a2 s) := by
  unfold bodyHintClassEntry; try dsimp only
  repeat' first
    | with_reducible exact Keeps.refl _ _
    | with_reducible refine (hcWrite_keeps ..).step (by decide) ?_
    | with_reducible refine (DescOut.fail_keeps ..).step (by decide) ?_
    | with_reducible refine Keeps.ite ?_ ?_
    | with_reducible refine KeepsD.ite ?_ ?_
    | with_reducible refine KeepsD.done ?_
    | with_reducible refine KeepsD.wait ?_
    | with_reducible refine KeepsD.fail ?_

theorem bodyHintClassPerm_keeps (a1 a2 a3) (s : State) :
    KeepsD [.hm, .hif, .ldg, .fc] s (bodyHintClassPerm a1 a2 a3 s) := by
  unfold bodyHintClassPerm; try dsimp only
  repeat' first
    | with_reducible exact Keeps.refl _ _
    | with_reducible refine (permWrite_keeps ..).step (by decide) ?_
    | with_reducible refine (DescOut.fail_keeps ..).step (by decide) ?_
    | with_reducible refine Keeps.ite ?_ ?_
    | with_reducible refine KeepsD.ite ?_ ?_
    | with_reducible refine KeepsD.done ?_
    | with_reducible refine KeepsD.wait ?_
    | with_reducible refine KeepsD.fail ?_

theorem synManual_keeps (a1 a2 a3 a4 a5) (s : State) :
    Keeps [.hm, .hif, .ldg] s (synManual a1 a2 a3 a4 a5 s) := by
  unfold synManual; try dsimp only
  repeat' first
    | with_reducible exact Keeps.refl _ _
    | with_reducible refine (emitSyn_keeps ..).step (by decide) ?_

theorem bodySynFlag_keeps (a1 a2) (s : State) :
    KeepsD [.hm, .ep, .hif, .ldg, .trs, .syn] s (bodySynFlag a1 a2 s) := by
  unfold bodySynFlag; try dsimp only
  repeat' first
    | with_reducible exact Keeps.refl _ _
    | with_reducible refine (flagOp_keeps ..).step (by decide) ?_
    | with_reducible refine (releaseOn_keeps ..).step (by decide) ?_
    | with_reducible refine (synManual_keeps ..).step (by decide) ?_
    | with_reducible refine (DescOut.fail_keeps ..).step (by decide) ?_
    | with_reducible refine Keeps.ite ?_ ?_
    | with_reducible refine KeepsD.ite ?_ ?_
    | with_reducible refine KeepsD.done ?_
    | with_reducible refine KeepsD.wait ?_
    | with_reducible refine KeepsD.fail ?_

theorem bodyAdjust_keeps (a1 a2) (s : State) :
    KeepsD [.hm, .ep, .hif, .ldg, .trs, .syn] s (bodyAdjust a1 a2 s) := by
  unfold bodyAdjust; try dsimp only
  repeat' first
    | with_reducible exact Keeps.refl _ _
    | with_reducible refine (releaseOn_keeps ..).step (by decide) ?_
    | with_reducible refine (State.updObj_keeps ..).step (by decide) ?_
    | with_reducible refine (synManual_keeps ..).step (by decide) ?_
    | with_reducible refine (DescOut.fail_keeps ..).step (by decide) ?_
    | with_reducible refine Keeps.ite ?_ ?_
    | with_reducible refine KeepsD.ite ?_ ?_
    | with_reducible refine KeepsD.done ?_
    | with_reducible refine KeepsD.wait ?_
    | with_reducible refine KeepsD.fail ?_

theorem bodyReleaseWaiter_keeps (a1) (s : State) :
    KeepsD [.hm, .ep, .hif, .ldg, .trs, .syn] s (bodyReleaseWaiter a1 s) := by
  unfold bodyReleaseWaiter; try dsimp only
  repeat' first
    | with_reducible exact Keeps.refl _ _
    | with_reducible refine (synManual_keeps ..).step (by decide) ?_
    | with_reducible refine (releaseWait_keeps ..).step (by decide) ?_
    | with_reducible refine (DescOut.fail_keeps ..).step (by decide) ?_
    | with_reducible refine Keeps.ite ?_ ?_
    | with_reducible refine KeepsD.ite ?_ ?_
    | with_reducible refine KeepsD.done ?_
    | with_reducible refine KeepsD.wait ?_
    | with_reducible refine KeepsD.fail ?_
    | split

theorem bodyFailWaiter_keeps (a1) (s : State) :
    KeepsD [.hm, .ep, .hif, .ldg, .trs, .syn] s (bodyFailWaiter a1 s) := by
  unfold bodyFailWaiter; try dsimp only
  repeat' first
    | with_reducible exact Keeps.refl _ _
    | with_reducible refine (synManual_keeps ..).step (by decide) ?_
    | with_reducible refine (failWait_keeps ..).step (by decide) ?_
    | with_reducible refine (DescOut.fail_keeps ..).step (by decide) ?_
    | with_reducible refine Keeps.ite ?_ ?_
    | with_reducible refine KeepsD.ite ?_ ?_
    | with_reducible refine KeepsD.done ?_
    | with_reducible refine KeepsD.wait ?_
    | with_reducible refine KeepsD.fail ?_
    | split

theorem bodyResetWindow_keeps (a1 a2) (s : State) :
    KeepsD [.hm, .ep, .hif, .ldg, .trs, .syn] s (bodyResetWindow a1 a2 s) := by
  unfold bodyResetWindow; try dsimp only
  repeat' first
    | with_reducible assumption
    | with_reducible exact Keeps.refl _ _
    | with_reducible refine forList_keeps _ ?_ ?_
    | with_reducible refine (clearObj_keeps ..).step (by decide) ?_
    | with_reducible refine (failWait_keeps ..).step (by decide) ?_
    | with_reducible refine (synManual_keeps ..).step (by decide) ?_
    | with_reducible refine (DescOut.fail_keeps ..).step (by decide) ?_
    | with_reducible refine Keeps.ite ?_ ?_
    | with_reducible refine KeepsD.ite ?_ ?_
    | with_reducible refine KeepsD.done ?_
    | with_reducible refine KeepsD.wait ?_
    | with_reducible refine KeepsD.fail ?_
    | intro _ _ _
    | intro _ _

theorem bodySetKind_keeps (a1 a2) (s : State) :
    KeepsD [.hm, .hif, .ldg, .syn] s (bodySetKind a1 a2 s) := by
  unfold bodySetKind; try dsimp only
  repeat' first
    | with_reducible assumption
    | with_reducible exact Keeps.refl _ _
    | with_reducible refine forList_keeps _ ?_ ?_
    | with_reducible refine (State.updObj_keeps ..).step (by decide) ?_
    | with_reducible refine (synManual_keeps ..).step (by decide) ?_
    | with_reducible refine (DescOut.fail_keeps ..).step (by decide) ?_
    | with_reducible refine Keeps.ite ?_ ?_
    | with_reducible refine KeepsD.ite ?_ ?_
    | with_reducible refine KeepsD.done ?_
    | with_reducible refine KeepsD.wait ?_
    | with_reducible refine KeepsD.fail ?_
    | intro _ _ _
    | intro _ _

theorem bodyGroupDef_keeps (a1 a2 a3) (s : State) :
    KeepsD [.hm, .hif, .ldg, .syn] s (bodyGroupDef a1 a2 a3 s) := by
  unfold bodyGroupDef; try dsimp only
  repeat' first
    | with_reducible exact Keeps.refl _ _
    | with_reducible refine (synManual_keeps ..).step (by decide) ?_
    | with_reducible refine (State.updGrp_keeps ..).step (by decide) ?_
    | with_reducible refine (DescOut.fail_keeps ..).step (by decide) ?_
    | with_reducible refine Keeps.ite ?_ ?_
    | with_reducible refine KeepsD.ite ?_ ?_
    | with_reducible refine KeepsD.done ?_
    | with_reducible refine KeepsD.wait ?_
    | with_reducible refine KeepsD.fail ?_
    | split

theorem moveWins_keeps (a1) (s : State) :
    Keeps [.hm, .ep, .hif, .ldg, .trs, .syn] s (moveWins a1 s) := by
  unfold moveWins; try dsimp only
  repeat' first
    | with_reducible assumption
    | with_reducible exact Keeps.refl _ _
    | with_reducible refine forList_keeps _ ?_ ?_
    | with_reducible refine (clearObj_keeps ..).step (by decide) ?_
    | with_reducible refine (State.updObj_keeps ..).step (by decide) ?_
    | with_reducible refine (State.updGrp_keeps ..).step (by decide) ?_
    | with_reducible refine (releaseOn_keeps ..).step (by decide) ?_
    | with_reducible refine Keeps.ite ?_ ?_
    | split
    | intro _ _ _
    | intro _ _

theorem bodySynMap_keeps (a1) (s : State) :
    KeepsD [.hm, .ep, .hif, .ldg, .trs, .syn] s (bodySynMap a1 s) := by
  unfold bodySynMap; try dsimp only
  repeat' first
    | with_reducible assumption
    | with_reducible exact Keeps.refl _ _
    | with_reducible refine forList_keeps _ ?_ ?_
    | with_reducible refine (failWait_keeps ..).step (by decide) ?_
    | with_reducible refine (moveWins_keeps ..).step (by decide) ?_
    | with_reducible refine (emitSyn_keeps ..).step (by decide) ?_
    | with_reducible refine (State.onSyn_keeps ..).step (by decide) ?_
    | with_reducible refine (DescOut.fail_keeps ..).step (by decide) ?_
    | with_reducible refine Keeps.ite ?_ ?_
    | with_reducible refine KeepsD.ite ?_ ?_
    | with_reducible refine KeepsD.done ?_
    | with_reducible refine KeepsD.wait ?_
    | with_reducible refine KeepsD.fail ?_
    | intro _ _ _
    | intro _ _

theorem bodySynRead_keeps (a1 a2 a3) (s : State) :
    KeepsD [] s (bodySynRead a1 a2 a3 s) := by
  unfold bodySynRead; try dsimp only
  repeat' first
    | with_reducible exact Keeps.refl _ _
    | with_reducible refine (DescOut.fail_keeps ..).step (by decide) ?_
    | with_reducible refine Keeps.ite ?_ ?_
    | with_reducible refine KeepsD.ite ?_ ?_
    | with_reducible refine KeepsD.done ?_
    | with_reducible refine KeepsD.wait ?_
    | with_reducible refine KeepsD.fail ?_

theorem bodyClrConfig_keeps (a1) (s : State) :
    KeepsD [.hm, .trs, .clr] s (bodyClrConfig a1 s) := by
  unfold bodyClrConfig; try dsimp only
  repeat' first
    | with_reducible exact Keeps.refl _ _
    | with_reducible refine (clrEnable_keeps ..).step (by decide) ?_
    | with_reducible refine (State.onClr_keeps ..).step (by decide) ?_
    | with_reducible refine (DescOut.fail_keeps ..).step (by decide) ?_
    | with_reducible refine Keeps.ite ?_ ?_
    | with_reducible refine KeepsD.ite ?_ ?_
    | with_reducible refine KeepsD.done ?_
    | with_reducible refine KeepsD.wait ?_
    | with_reducible refine KeepsD.fail ?_

theorem bodyClrLink_keeps (a1) (s : State) :
    KeepsD [.hm, .trs, .clr] s (bodyClrLink a1 s) := by
  unfold bodyClrLink; try dsimp only
  repeat' first
    | with_reducible exact Keeps.refl _ _
    | with_reducible refine (lnkEnable_keeps ..).step (by decide) ?_
    | with_reducible refine (State.updLnk_keeps ..).step (by decide) ?_
    | with_reducible refine (DescOut.fail_keeps ..).step (by decide) ?_
    | with_reducible refine Keeps.ite ?_ ?_
    | with_reducible refine KeepsD.ite ?_ ?_
    | with_reducible refine KeepsD.done ?_
    | with_reducible refine KeepsD.wait ?_
    | with_reducible refine KeepsD.fail ?_


end Sys2Proof.Machine
end

