-- ==== Sys2Proof/Laws/Emit.lean ====
section
/-!
SUPPORT. A Ledger record changes nothing but Ledger, the host interface and the manager port.
-/
namespace Sys2Proof.Machine

section
variable (src code p0 p1 p2 p3 : Nat) (s : State)

@[simp] theorem emit_now : (emit src code p0 p1 p2 p3 s).now = s.now :=
  (emit_keeps src code p0 p1 p2 p3 s).only.same .now (by decide)
@[simp] theorem emit_pwr : (emit src code p0 p1 p2 p3 s).pwr = s.pwr :=
  (emit_keeps src code p0 p1 p2 p3 s).only.same .pwr (by decide)
@[simp] theorem emit_cfg : (emit src code p0 p1 p2 p3 s).cfg = s.cfg :=
  (emit_keeps src code p0 p1 p2 p3 s).only.same .cfg (by decide)
@[simp] theorem emit_fuse : (emit src code p0 p1 p2 p3 s).fuse = s.fuse :=
  (emit_keeps src code p0 p1 p2 p3 s).only.same .fuse (by decide)
@[simp] theorem emit_tb : (emit src code p0 p1 p2 p3 s).tb = s.tb :=
  (emit_keeps src code p0 p1 p2 p3 s).only.same .tb (by decide)
@[simp] theorem emit_frm : (emit src code p0 p1 p2 p3 s).frm = s.frm :=
  (emit_keeps src code p0 p1 p2 p3 s).only.same .frm (by decide)
@[simp] theorem emit_clk : (emit src code p0 p1 p2 p3 s).clk = s.clk :=
  (emit_keeps src code p0 p1 p2 p3 s).only.same .clk (by decide)
@[simp] theorem emit_sns : (emit src code p0 p1 p2 p3 s).sns = s.sns :=
  (emit_keeps src code p0 p1 p2 p3 s).only.same .sns (by decide)
@[simp] theorem emit_rail : (emit src code p0 p1 p2 p3 s).rail = s.rail :=
  (emit_keeps src code p0 p1 p2 p3 s).only.same .rail (by decide)
@[simp] theorem emit_frec : (emit src code p0 p1 p2 p3 s).frec = s.frec :=
  (emit_keeps src code p0 p1 p2 p3 s).only.same .frec (by decide)
@[simp] theorem emit_loop : (emit src code p0 p1 p2 p3 s).loop = s.loop :=
  (emit_keeps src code p0 p1 p2 p3 s).only.same .loop (by decide)
@[simp] theorem emit_hs : (emit src code p0 p1 p2 p3 s).hs = s.hs :=
  (emit_keeps src code p0 p1 p2 p3 s).only.same .hs (by decide)
@[simp] theorem emit_ep : (emit src code p0 p1 p2 p3 s).ep = s.ep :=
  (emit_keeps src code p0 p1 p2 p3 s).only.same .ep (by decide)
@[simp] theorem emit_cp : (emit src code p0 p1 p2 p3 s).cp = s.cp :=
  (emit_keeps src code p0 p1 p2 p3 s).only.same .cp (by decide)
@[simp] theorem emit_dma : (emit src code p0 p1 p2 p3 s).dma = s.dma :=
  (emit_keeps src code p0 p1 p2 p3 s).only.same .dma (by decide)
@[simp] theorem emit_fw : (emit src code p0 p1 p2 p3 s).fw = s.fw :=
  (emit_keeps src code p0 p1 p2 p3 s).only.same .fw (by decide)
@[simp] theorem emit_tly : (emit src code p0 p1 p2 p3 s).tly = s.tly :=
  (emit_keeps src code p0 p1 p2 p3 s).only.same .tly (by decide)
@[simp] theorem emit_fc : (emit src code p0 p1 p2 p3 s).fc = s.fc :=
  (emit_keeps src code p0 p1 p2 p3 s).only.same .fc (by decide)
@[simp] theorem emit_trs : (emit src code p0 p1 p2 p3 s).trs = s.trs :=
  (emit_keeps src code p0 p1 p2 p3 s).only.same .trs (by decide)
@[simp] theorem emit_syn : (emit src code p0 p1 p2 p3 s).syn = s.syn :=
  (emit_keeps src code p0 p1 p2 p3 s).only.same .syn (by decide)
@[simp] theorem emit_clr : (emit src code p0 p1 p2 p3 s).clr = s.clr :=
  (emit_keeps src code p0 p1 p2 p3 s).only.same .clr (by decide)
@[simp] theorem emit_aud : (emit src code p0 p1 p2 p3 s).aud = s.aud :=
  (emit_keeps src code p0 p1 p2 p3 s).only.same .aud (by decide)
@[simp] theorem emit_ho : (emit src code p0 p1 p2 p3 s).ho = s.ho :=
  (emit_keeps src code p0 p1 p2 p3 s).only.same .ho (by decide)
@[simp] theorem emit_free : (emit src code p0 p1 p2 p3 s).free = s.free :=
  (emit_keeps src code p0 p1 p2 p3 s).only.same .free (by decide)
@[simp] theorem emit_pending : (emit src code p0 p1 p2 p3 s).pending = s.pending :=
  (emit_keeps src code p0 p1 p2 p3 s).only.same .pending (by decide)

variable (k : Nat)

@[simp] theorem emit_getChan : (emit src code p0 p1 p2 p3 s).getChan k = s.getChan k := by
  unfold State.getChan; rw [emit_dma]
@[simp] theorem emit_getRt : (emit src code p0 p1 p2 p3 s).getRt k = s.getRt k := by
  unfold State.getRt; rw [emit_frm]
@[simp] theorem emit_getBack : (emit src code p0 p1 p2 p3 s).getBack k = s.getBack k := by
  unfold State.getBack; rw [emit_frm]
@[simp] theorem emit_getDom : (emit src code p0 p1 p2 p3 s).getDom k = s.getDom k := by
  unfold State.getDom; rw [emit_clk]
@[simp] theorem emit_getSite : (emit src code p0 p1 p2 p3 s).getSite k = s.getSite k := by
  unfold State.getSite; rw [emit_sns]
@[simp] theorem emit_getDet : (emit src code p0 p1 p2 p3 s).getDet k = s.getDet k := by
  unfold State.getDet; rw [emit_sns]
@[simp] theorem emit_getMon : (emit src code p0 p1 p2 p3 s).getMon k = s.getMon k := by
  unfold State.getMon; rw [emit_sns]
@[simp] theorem emit_getReg : (emit src code p0 p1 p2 p3 s).getReg k = s.getReg k := by
  unfold State.getReg; rw [emit_rail]
@[simp] theorem emit_getMeas : (emit src code p0 p1 p2 p3 s).getMeas k = s.getMeas k := by
  unfold State.getMeas; rw [emit_rail]
@[simp] theorem emit_getProt : (emit src code p0 p1 p2 p3 s).getProt k = s.getProt k := by
  unfold State.getProt; rw [emit_rail]
@[simp] theorem emit_getPh : (emit src code p0 p1 p2 p3 s).getPh k = s.getPh k := by
  unfold State.getPh; rw [emit_rail]
@[simp] theorem emit_getClu : (emit src code p0 p1 p2 p3 s).getClu k = s.getClu k := by
  unfold State.getClu; rw [emit_loop]
@[simp] theorem emit_getLoop : (emit src code p0 p1 p2 p3 s).getLoop k = s.getLoop k := by
  unfold State.getLoop; rw [emit_loop]
@[simp] theorem emit_getProg : (emit src code p0 p1 p2 p3 s).getProg k = s.getProg k := by
  unfold State.getProg; rw [emit_tly]
@[simp] theorem emit_getSet : (emit src code p0 p1 p2 p3 s).getSet k = s.getSet k := by
  unfold State.getSet; rw [emit_tly]
@[simp] theorem emit_getFcCl : (emit src code p0 p1 p2 p3 s).getFcCl k = s.getFcCl k := by
  unfold State.getFcCl; rw [emit_fc]
@[simp] theorem emit_getHc : (emit src code p0 p1 p2 p3 s).getHc k = s.getHc k := by
  unfold State.getHc; rw [emit_fc]
@[simp] theorem emit_getHx : (emit src code p0 p1 p2 p3 s).getHx k = s.getHx k := by
  unfold State.getHx; rw [emit_fc]
@[simp] theorem emit_getTrsCl : (emit src code p0 p1 p2 p3 s).getTrsCl k = s.getTrsCl k := by
  unfold State.getTrsCl; rw [emit_trs]
@[simp] theorem emit_getTx : (emit src code p0 p1 p2 p3 s).getTx k = s.getTx k := by
  unfold State.getTx; rw [emit_trs]
@[simp] theorem emit_getObj : (emit src code p0 p1 p2 p3 s).getObj k = s.getObj k := by
  unfold State.getObj; rw [emit_syn]
@[simp] theorem emit_getGrp : (emit src code p0 p1 p2 p3 s).getGrp k = s.getGrp k := by
  unfold State.getGrp; rw [emit_syn]
@[simp] theorem emit_getCore : (emit src code p0 p1 p2 p3 s).getCore k = s.getCore k := by
  unfold State.getCore; rw [emit_syn]
@[simp] theorem emit_getLnk : (emit src code p0 p1 p2 p3 s).getLnk k = s.getLnk k := by
  unfold State.getLnk; rw [emit_clr]
@[simp] theorem emit_getFwCore : (emit src code p0 p1 p2 p3 s).getFwCore k = s.getFwCore k := by
  unfold State.getFwCore; rw [emit_fw]
@[simp] theorem emit_getUnit : (emit src code p0 p1 p2 p3 s).getUnit k = s.getUnit k := by
  unfold State.getUnit; rw [emit_aud]
@[simp] theorem emit_getEp : (emit src code p0 p1 p2 p3 s).getEp k = s.getEp k := by
  unfold State.getEp; rw [emit_ep]
@[simp] theorem emit_getCp : (emit src code p0 p1 p2 p3 s).getCp k = s.getCp k := by
  unfold State.getCp; rw [emit_cp]

end

end Sys2Proof.Machine
end

