-- ==== Sys2Proof/Laws/Frame.lean ====
section
/-!
SUPPORT. What the operations of Machine/Frame.lean may change.
-/
namespace Sys2Proof.Machine

theorem frameBoundary_keeps (s : State) :
    Keeps [.pwr, .frm, .clk, .rail, .loop, .hm, .hif, .ldg, .fw, .tly, .fc, .trs, .syn, .clr] s (frameBoundary s) := by
  unfold frameBoundary; try dsimp only
  repeat' first
    | with_reducible assumption
    | with_reducible exact Keeps.refl _ _
    | with_reducible refine forList_keeps _ ?_ ?_
    | with_reducible refine (cubeRejoins_keeps ..).step (by decide) ?_
    | with_reducible refine (cubeSwaps_keeps ..).step (by decide) ?_
    | with_reducible refine (loopBackstop_keeps ..).step (by decide) ?_
    | with_reducible refine (requiredBack_keeps ..).step (by decide) ?_
    | with_reducible refine (hostShed_keeps ..).step (by decide) ?_
    | with_reducible refine (restoreDue_keeps ..).step (by decide) ?_
    | with_reducible refine (shedDue_keeps ..).step (by decide) ?_
    | with_reducible refine (loopBoundary_keeps ..).step (by decide) ?_
    | with_reducible refine (tableInstall_keeps ..).step (by decide) ?_
    | with_reducible refine (hintEpochs_keeps ..).step (by decide) ?_
    | with_reducible refine (hintDue_keeps ..).step (by decide) ?_
    | with_reducible refine (trsBoundary_keeps ..).step (by decide) ?_
    | with_reducible refine (clrBoundary_keeps ..).step (by decide) ?_
    | intro _ _ _
    | intro _ _

theorem snapshotInputs_keeps (s : State) :
    Keeps [.sns, .loop, .hm, .hif, .ldg, .tly, .fc] s (snapshotInputs s) := by
  unfold snapshotInputs; try dsimp only
  repeat' first
    | with_reducible assumption
    | with_reducible exact Keeps.refl _ _
    | with_reducible refine forList_keeps _ ?_ ?_
    | with_reducible refine (fcModel_keeps ..).step (by decide) ?_
    | with_reducible refine (fcBoundary_keeps ..).step (by decide) ?_
    | with_reducible refine (measureClu_keeps ..).step (by decide) ?_
    | with_reducible refine (extFrame_keeps ..).step (by decide) ?_
    | with_reducible refine (State.updDet_keeps ..).step (by decide) ?_
    | with_reducible refine (writeInputs_keeps ..).step (by decide) ?_
    | with_reducible refine (netOff_keeps ..).step (by decide) ?_
    | intro _ _ _
    | intro _ _

theorem frameStart_keeps (a1) (s : State) :
    Keeps [.pwr, .tb, .frm, .clk, .sns, .rail, .loop, .hm, .hif, .ldg, .fw, .tly, .fc, .trs, .syn, .clr] s (frameStart a1 s) := by
  unfold frameStart; try dsimp only
  repeat' first
    | with_reducible exact Keeps.refl _ _
    | with_reducible refine (State.onTb_keeps ..).step (by decide) ?_
    | with_reducible refine (State.onFrm_keeps ..).step (by decide) ?_
    | with_reducible refine (snapshotInputs_keeps ..).step (by decide) ?_
    | with_reducible refine (frameBoundary_keeps ..).step (by decide) ?_
    | with_reducible refine (planSlots_keeps ..).step (by decide) ?_
    | with_reducible refine (State.onTly_keeps ..).step (by decide) ?_
    | with_reducible refine Keeps.ite ?_ ?_

theorem missRest_keeps (s : State) :
    Keeps [.frm, .hm, .hif, .ldg] s (missRest s) := by
  unfold missRest; try dsimp only
  repeat' first
    | with_reducible assumption
    | with_reducible exact Keeps.refl _ _
    | with_reducible refine forList_keeps _ ?_ ?_
    | with_reducible refine (slotFail_keeps ..).step (by decide) ?_
    | with_reducible refine Keeps.ite ?_ ?_
    | intro _ _ _

theorem frameMeasure_keeps (s : State) :
    Keeps [.rail, .loop, .hm, .hif, .ldg, .trs] s (frameMeasure s) := by
  unfold frameMeasure; try dsimp only
  repeat' first
    | with_reducible assumption
    | with_reducible exact Keeps.refl _ _
    | with_reducible refine forList_keeps _ ?_ ?_
    | with_reducible refine (railFrame_keeps ..).step (by decide) ?_
    | with_reducible refine (actFrame_keeps ..).step (by decide) ?_
    | with_reducible refine (meterFrame_keeps ..).step (by decide) ?_
    | with_reducible refine (apportion_keeps ..).step (by decide) ?_
    | intro _ _ _
    | intro _ _

theorem tlyCommit_keeps (s : State) :
    Keeps [.tly] s (tlyCommit s) := by
  unfold tlyCommit; try dsimp only
  repeat' first
    | with_reducible assumption
    | with_reducible exact Keeps.refl _ _
    | with_reducible refine (State.onTly_keeps ..).step (by decide) ?_
    | intro _ _ _
    | intro _ _

theorem fcFrame_keeps (s : State) :
    Keeps [.rail, .hm, .hif, .ldg, .fc] s (fcFrame s) := by
  unfold fcFrame; try dsimp only
  repeat' first
    | with_reducible assumption
    | with_reducible exact Keeps.refl _ _
    | with_reducible refine forList_keeps _ ?_ ?_
    | with_reducible refine (fcGates_keeps ..).step (by decide) ?_
    | with_reducible refine (fcEvaluate_keeps ..).step (by decide) ?_
    | with_reducible refine (fcCommit_keeps ..).step (by decide) ?_
    | with_reducible refine (fcDeliver_keeps ..).step (by decide) ?_
    | with_reducible refine (hintFrame_keeps ..).step (by decide) ?_
    | intro _ _ _
    | intro _ _

theorem trsFrame_keeps (s : State) :
    Keeps [.loop, .hm, .hif, .ldg, .trs] s (trsFrame s) := by
  unfold trsFrame; try dsimp only
  repeat' first
    | with_reducible assumption
    | with_reducible exact Keeps.refl _ _
    | with_reducible refine forList_keeps _ ?_ ?_
    | with_reducible refine (loansBack_keeps ..).step (by decide) ?_
    | with_reducible refine (odCheck_keeps ..).step (by decide) ?_
    | with_reducible refine (setTargets_keeps ..).step (by decide) ?_
    | with_reducible refine (reasonFrame_keeps ..).step (by decide) ?_
    | with_reducible refine (breachFrame_keeps ..).step (by decide) ?_
    | intro _ _ _
    | intro _ _

theorem confirmFrame_keeps (s : State) :
    Keeps [.fw] s (confirmFrame s) := by
  unfold confirmFrame; try dsimp only
  repeat' first
    | with_reducible exact Keeps.refl _ _
    | with_reducible refine (State.onFw_keeps ..).step (by decide) ?_
    | with_reducible refine Keeps.ite ?_ ?_

theorem limFrame_keeps (s : State) :
    Keeps [.pwr] s (limFrame s) := by
  unfold limFrame; try dsimp only
  repeat' first
    | with_reducible exact Keeps.refl _ _
    | with_reducible refine (State.onPwr_keeps ..).step (by decide) ?_

theorem frameCommit_keeps (s : State) :
    Keeps [.pwr, .frm, .clk, .sns, .rail, .loop, .hm, .hif, .dma, .ldg, .fw, .tly, .fc, .trs, .syn, .clr] s (frameCommit s) := by
  unfold frameCommit; try dsimp only
  repeat' first
    | with_reducible exact Keeps.refl _ _
    | with_reducible refine (frameCounts_keeps ..).step (by decide) ?_
    | with_reducible refine (missRest_keeps ..).step (by decide) ?_
    | with_reducible refine (commitSlots_keeps ..).step (by decide) ?_
    | with_reducible refine (netFrame_keeps ..).step (by decide) ?_
    | with_reducible refine (tlyCommit_keeps ..).step (by decide) ?_
    | with_reducible refine (mapAll_keeps ..).step (by decide) ?_
    | with_reducible refine (allocCommit_keeps ..).step (by decide) ?_
    | with_reducible refine (frameMeasure_keeps ..).step (by decide) ?_
    | with_reducible refine (limFrame_keeps ..).step (by decide) ?_
    | with_reducible refine (trsFrame_keeps ..).step (by decide) ?_
    | with_reducible refine (waitFrame_keeps ..).step (by decide) ?_
    | with_reducible refine (fcFrame_keeps ..).step (by decide) ?_
    | with_reducible refine (State.onClr_keeps ..).step (by decide) ?_
    | with_reducible refine (State.onFrm_keeps ..).step (by decide) ?_
    | with_reducible refine (confirmFrame_keeps ..).step (by decide) ?_
    | with_reducible refine (State.onDma_keeps ..).step (by decide) ?_
    | with_reducible refine Keeps.ite ?_ ?_

theorem clrMin_keeps (s : State) :
    Keeps [.tb, .frm] s (clrMin s) := by
  unfold clrMin; try dsimp only
  repeat' first
    | with_reducible assumption
    | with_reducible exact Keeps.refl _ _
    | with_reducible refine forList_keeps _ ?_ ?_
    | with_reducible refine (State.onTb_keeps ..).step (by decide) ?_
    | with_reducible refine (State.onFrm_keeps ..).step (by decide) ?_
    | with_reducible refine (State.updRt_keeps ..).step (by decide) ?_
    | intro _ _ _
    | intro _ _

theorem cpCount_keeps (a1 a2 a3) (s : State) :
    Keeps [.loop] s (cpCount a1 a2 a3 s) := by
  unfold cpCount; try dsimp only
  repeat' first
    | with_reducible exact Keeps.refl _ _
    | with_reducible refine (State.updClu_keeps ..).step (by decide) ?_

theorem ceilUpdate_keeps (a1) (s : State) :
    Keeps [.loop, .cp] s (ceilUpdate a1 s) := by
  unfold ceilUpdate; try dsimp only
  repeat' first
    | with_reducible exact Keeps.refl _ _
    | with_reducible refine (State.updCp_keeps ..).step (by decide) ?_
    | with_reducible refine (State.updClu_keeps ..).step (by decide) ?_

theorem cpDiv_keeps (a1) (s : State) :
    Keeps [.clk, .hm, .hif, .ldg] s (cpDiv a1 s) := by
  unfold cpDiv; try dsimp only
  repeat' first
    | with_reducible exact Keeps.refl _ _
    | with_reducible refine (mapDiv_keeps ..).step (by decide) ?_
    | with_reducible refine Keeps.ite ?_ ?_

theorem cpLate_keeps (a1 a2) (s : State) :
    Keeps [.clk, .loop, .hm, .cp, .hif, .ldg] s (cpLate a1 a2 s) := by
  unfold cpLate; try dsimp only
  repeat' first
    | with_reducible exact Keeps.refl _ _
    | with_reducible refine (State.updCp_keeps ..).step (by decide) ?_
    | with_reducible refine (emitCp_keeps ..).step (by decide) ?_
    | with_reducible refine (cpDiv_keeps ..).step (by decide) ?_
    | with_reducible refine (State.updClu_keeps ..).step (by decide) ?_
    | with_reducible refine Keeps.ite ?_ ?_

theorem cpOnTime_keeps (a1 a2) (s : State) :
    Keeps [.clk, .loop, .hm, .cp, .hif, .ldg] s (cpOnTime a1 a2 s) := by
  unfold cpOnTime; try dsimp only
  repeat' first
    | with_reducible exact Keeps.refl _ _
    | with_reducible refine (State.updCp_keeps ..).step (by decide) ?_
    | with_reducible refine (emitCp_keeps ..).step (by decide) ?_
    | with_reducible refine (cpDiv_keeps ..).step (by decide) ?_
    | with_reducible refine (State.updClu_keeps ..).step (by decide) ?_
    | with_reducible refine Keeps.ite ?_ ?_
    | split

theorem cpAck_keeps (a1 a2 a3 a4) (s : State) :
    Keeps [.clk, .loop, .hm, .cp, .hif, .ldg] s (cpAck a1 a2 a3 a4 s) := by
  unfold cpAck; try dsimp only
  repeat' first
    | with_reducible assumption
    | with_reducible exact Keeps.refl _ _
    | with_reducible refine (State.updCp_keeps ..).step (by decide) ?_
    | with_reducible refine forList_keeps _ ?_ ?_
    | with_reducible refine (cpLate_keeps ..).step (by decide) ?_
    | with_reducible refine (cpCount_keeps ..).step (by decide) ?_
    | with_reducible refine (cpOnTime_keeps ..).step (by decide) ?_
    | with_reducible refine Keeps.ite ?_ ?_
    | intro _ _ _

theorem cpExpire_keeps (a1) (s : State) :
    Keeps [.clk, .loop, .hm, .cp, .hif, .ldg] s (cpExpire a1 s) := by
  unfold cpExpire; try dsimp only
  repeat' first
    | with_reducible assumption
    | with_reducible exact Keeps.refl _ _
    | with_reducible refine forList_keeps _ ?_ ?_
    | with_reducible refine (cpLate_keeps ..).step (by decide) ?_
    | with_reducible refine (cpCount_keeps ..).step (by decide) ?_
    | with_reducible refine (State.updCp_keeps ..).step (by decide) ?_
    | intro _ _ _
    | intro _ _

theorem modeGo_keeps (a1) (s : State) :
    Keeps [.loop] s (modeGo a1 s) := by
  unfold modeGo; try dsimp only
  repeat' first
    | with_reducible exact Keeps.refl _ _
    | with_reducible refine (loopRes_keeps ..).step (by decide) ?_
    | with_reducible refine (State.updClu_keeps ..).step (by decide) ?_
    | with_reducible refine Keeps.ite ?_ ?_

theorem tgtWrite_keeps (a1) (s : State) :
    Keeps [.loop] s (tgtWrite a1 s) := by
  unfold tgtWrite; try dsimp only
  repeat' first
    | with_reducible exact Keeps.refl _ _
    | with_reducible refine (loopRes_keeps ..).step (by decide) ?_
    | with_reducible refine (State.updLp_keeps ..).step (by decide) ?_
    | with_reducible refine Keeps.ite ?_ ?_
    | split

theorem fbForce_keeps (a1 a2 a3) (s : State) :
    Keeps [.pwr, .loop, .hm, .hif, .ldg] s (fbForce a1 a2 a3 s) := by
  unfold fbForce; try dsimp only
  repeat' first
    | with_reducible exact Keeps.refl _ _
    | with_reducible refine (State.updLp_keeps ..).step (by decide) ?_
    | with_reducible refine (loopFallback_keeps ..).step (by decide) ?_
    | with_reducible refine Keeps.ite ?_ ?_

theorem clrLatch_keeps (a1 a2) (s : State) :
    Keeps [.loop] s (clrLatch a1 a2 s) := by
  unfold clrLatch; try dsimp only
  repeat' first
    | with_reducible exact Keeps.refl _ _
    | with_reducible refine (State.updLp_keeps ..).step (by decide) ?_

theorem supSatWrite_keeps (a1) (s : State) :
    Keeps [.pwr, .loop, .hm, .hif, .ldg] s (supSatWrite a1 s) := by
  unfold supSatWrite; try dsimp only
  repeat' first
    | with_reducible assumption
    | with_reducible exact Keeps.refl _ _
    | with_reducible refine when_keeps _ ?_ ?_
    | with_reducible refine (loopRes_keeps ..).step (by decide) ?_
    | with_reducible refine (clrLatch_keeps ..).step (by decide) ?_
    | with_reducible refine (fbForce_keeps ..).step (by decide) ?_
    | with_reducible refine (State.onLoop_keeps ..).step (by decide) ?_
    | with_reducible refine Keeps.ite ?_ ?_
    | split
    | intro _ _ _
    | intro _ _


end Sys2Proof.Machine
end

