-- ==== Sys2Proof/Laws/Reset.lean ====
section
/-!
SUPPORT. What the operations of Machine/Reset.lean may change.
-/
namespace Sys2Proof.Machine

theorem powerHold_keeps (a1) (s : State) :
    Keeps [.pwr, .clk, .rail, .frec, .loop, .hm, .cp, .hif, .ldg, .fw, .trs, .syn] s (powerHold a1 s) := by
  unfold powerHold; try dsimp only
  repeat' first
    | with_reducible assumption
    | with_reducible exact Keeps.refl _ _
    | with_reducible refine forList_keeps _ ?_ ?_
    | with_reducible refine (State.updCp_keeps ..).step (by decide) ?_
    | with_reducible refine (stopAllClocks_keeps ..).step (by decide) ?_
    | with_reducible refine (phOff_keeps ..).step (by decide) ?_
    | with_reducible refine (State.onPwr_keeps ..).step (by decide) ?_
    | with_reducible refine (State.onFrec_keeps ..).step (by decide) ?_
    | intro _ _ _
    | intro _ _

theorem pulse_keeps {ps : List Area} {r s : State} {f : State → State} (least ns : Nat)
    (hf : ∀ u, Keeps ps r u → Keeps ps r (f u)) (hp : Area.free ∈ ps) (h : Keeps ps r s) : Keeps ps r (pulse least ns f s) := by
  have hd : Keeps ps r s.drawn := (State.drawn_keeps s).step (by simpa using hp) h
  unfold pulse
  exact .ite h (.ite (.ite (hf _ hd) hd) (hf _ h))

theorem internalReset_keeps (a1 a2) (s : State) :
    Keeps [.pwr, .clk, .rail, .frec, .loop, .hm, .cp, .hif, .ldg, .fw, .trs, .syn] s (internalReset a1 a2 s) := by
  unfold internalReset; try dsimp only
  repeat' first
    | with_reducible exact Keeps.refl _ _
    | with_reducible refine (State.onPwr_keeps ..).step (by decide) ?_
    | with_reducible refine (powerHold_keeps ..).step (by decide) ?_
    | with_reducible refine Keeps.ite ?_ ?_

theorem coldClear_keeps (a1 a2 a3) (s : State) :
    Keeps [.now, .pwr, .cfg, .fuse, .tb, .frm, .clk, .sns, .rail, .frec, .loop, .hm, .hs, .ep, .cp, .hif, .dma, .ldg, .fw, .tly, .fc, .trs, .syn, .clr, .aud, .ho, .free, .queues] s (coldClear a1 a2 a3 s) :=
  ⟨⟨fun p hp => by cases p <;> first | rfl | exact fun _ => List.prefix_rfl | exact absurd (by decide) hp⟩,
    fun _ => ⟨Nat.zero_le _, rfl, (fun _ he => nomatch he), (fun _ he => nomatch he)⟩⟩

theorem partIn_keeps (a1) (s : State) :
    Keeps [.sns, .frec, .fw] s (partIn a1 s) := by
  unfold partIn; try dsimp only
  repeat' first
    | with_reducible exact Keeps.refl _ _
    | with_reducible refine (State.onFw_keeps ..).step (by decide) ?_
    | with_reducible refine (State.onSns_keeps ..).step (by decide) ?_
    | with_reducible refine (State.onFrec_keeps ..).step (by decide) ?_
    | with_reducible refine Keeps.ite ?_ ?_

theorem ringInit_keeps (s : State) :
    Keeps [.frec, .hm, .hif, .ldg] s (ringInit s) := by
  unfold ringInit; try dsimp only
  repeat' first
    | with_reducible exact Keeps.refl _ _
    | with_reducible refine (State.onFrec_keeps ..).step (by decide) ?_
    | with_reducible refine (emitRail_keeps ..).step (by decide) ?_
    | with_reducible refine Keeps.ite ?_ ?_
    | split

theorem gateSample_keeps (s : State) :
    Keeps [.pwr, .hm, .hif, .ldg, .fw] s (gateSample s) := by
  unfold gateSample; try dsimp only
  repeat' first
    | with_reducible exact Keeps.refl _ _
    | with_reducible refine (emitVault_keeps ..).step (by decide) ?_
    | with_reducible refine (State.onFw_keeps ..).step (by decide) ?_
    | with_reducible refine (setAlarm_keeps ..).step (by decide) ?_
    | with_reducible refine Keeps.ite ?_ ?_

theorem baseSample_keeps (s : State) :
    Keeps [.sns] s (baseSample s) := by
  unfold baseSample; try dsimp only
  repeat' first
    | with_reducible assumption
    | with_reducible exact Keeps.refl _ _
    | with_reducible refine forList_keeps _ ?_ ?_
    | with_reducible refine (State.updMon_keeps ..).step (by decide) ?_
    | with_reducible refine Keeps.ite ?_ ?_
    | intro _ _ _

theorem refselSample_keeps (s : State) :
    Keeps [.pwr, .hm, .hif, .ldg] s (refselSample s) := by
  unfold refselSample; try dsimp only
  repeat' first
    | with_reducible exact Keeps.refl _ _
    | with_reducible refine (setAlarm_keeps ..).step (by decide) ?_
    | with_reducible refine (emitClk_keeps ..).step (by decide) ?_
    | with_reducible refine Keeps.ite ?_ ?_

theorem vaultCold_keeps (a1) (s : State) :
    Keeps [.pwr, .cfg, .rail, .frec, .loop, .hm, .hif, .ldg, .fw, .fc, .trs, .syn, .clr, .free] s (vaultCold a1 s) := by
  unfold vaultCold; try dsimp only
  repeat' first
    | with_reducible exact Keeps.refl _ _
    | with_reducible refine (vaultError_keeps ..).step (by decide) ?_
    | with_reducible refine (vaultWipe_keeps ..).step (by decide) ?_
    | with_reducible refine (State.onFw_keeps ..).step (by decide) ?_
    | with_reducible refine (drawInc_keeps ..).step (by decide) ?_
    | with_reducible refine (ringInit_keeps ..).step (by decide) ?_
    | with_reducible refine (dirWrite_keeps ..).step (by decide) ?_
    | with_reducible refine (cfgCold_keeps ..).step (by decide) ?_
    | split

theorem coldReset_keeps (a1 a2 a3 a4 a5) (s : State) :
    Keeps [.now, .pwr, .cfg, .fuse, .tb, .frm, .clk, .sns, .rail, .frec, .loop, .hm, .hs, .ep, .cp, .hif, .dma, .ldg, .fw, .tly, .fc, .trs, .syn, .clr, .aud, .ho, .free, .queues] s (coldReset a1 a2 a3 a4 a5 s) := by
  unfold coldReset; try dsimp only
  repeat' first
    | with_reducible exact Keeps.refl _ _
    | with_reducible refine (partIn_keeps ..).step (by decide) ?_
    | with_reducible refine (coldClear_keeps ..).step (by decide) ?_
    | with_reducible refine (vaultCold_keeps ..).step (by decide) ?_
    | with_reducible refine (baseSample_keeps ..).step (by decide) ?_
    | with_reducible refine (gateSample_keeps ..).step (by decide) ?_
    | with_reducible refine (refselSample_keeps ..).step (by decide) ?_
    | with_reducible refine (nvBoot_keeps ..).step (by decide) ?_
    | with_reducible refine Keeps.ite ?_ ?_
    | split

theorem coldBegin_keeps (a1 a2 a3 a4 a5) (s : State) :
    Keeps [.now, .pwr, .cfg, .fuse, .tb, .frm, .clk, .sns, .rail, .frec, .loop, .hm, .hs, .ep, .cp, .hif, .dma, .ldg, .fw, .tly, .fc, .trs, .syn, .clr, .aud, .ho, .free, .queues] s (coldBegin a1 a2 a3 a4 a5 s) := by
  unfold coldBegin; try dsimp only
  repeat' first
    | with_reducible exact Keeps.refl _ _
    | with_reducible refine (coldReset_keeps ..).step (by decide) ?_
    | with_reducible refine (powerHold_keeps ..).step (by decide) ?_
    | with_reducible refine (State.onPwr_keeps ..).step (by decide) ?_
    | with_reducible refine Keeps.ite ?_ ?_

theorem warmLoops_keeps (s : State) :
    Keeps [.loop, .trs] s (warmLoops s) := by
  unfold warmLoops; try dsimp only
  repeat' first
    | with_reducible assumption
    | with_reducible exact Keeps.refl _ _
    | with_reducible refine forList_keeps _ ?_ ?_
    | with_reducible refine (State.updClu_keeps ..).step (by decide) ?_
    | with_reducible refine (State.updLp_keeps ..).step (by decide) ?_
    | with_reducible refine (State.updTrsCl_keeps ..).step (by decide) ?_
    | with_reducible refine (State.onLoop_keeps ..).step (by decide) ?_
    | intro _ _ _
    | intro _ _

theorem warmTrs_keeps (s : State) :
    Keeps [.trs] s (warmTrs s) := by
  unfold warmTrs; try dsimp only
  repeat' first
    | with_reducible exact Keeps.refl _ _
    | with_reducible refine (State.onTrs_keeps ..).step (by decide) ?_

theorem warmFrames_keeps (s : State) :
    Keeps [.tb, .frm, .hm, .hif, .ldg] s (warmFrames s) := by
  unfold warmFrames; try dsimp only
  repeat' first
    | with_reducible assumption
    | with_reducible exact Keeps.refl _ _
    | with_reducible refine forList_keeps _ ?_ ?_
    | with_reducible refine (emitCp_keeps ..).step (by decide) ?_
    | with_reducible refine (State.updBack_keeps ..).step (by decide) ?_
    | with_reducible refine (State.onTb_keeps ..).step (by decide) ?_
    | with_reducible refine (State.onFrm_keeps ..).step (by decide) ?_
    | intro _ _ _
    | intro _ _

theorem warmDma_keeps (s : State) :
    Keeps [.hm, .dma] s (warmDma s) := by
  unfold warmDma; try dsimp only
  repeat' first
    | with_reducible assumption
    | with_reducible exact Keeps.refl _ _
    | with_reducible refine forList_keeps _ ?_ ?_
    | with_reducible refine (State.updChan_keeps ..).step (by decide) ?_
    | with_reducible refine (State.onHm_keeps ..).step (by decide) ?_
    | split
    | intro _ _ _
    | intro _ _

theorem warmTly_keeps (s : State) :
    Keeps [.tly] s (warmTly s) := by
  unfold warmTly; try dsimp only
  repeat' first
    | with_reducible exact Keeps.refl _ _
    | with_reducible refine (State.onTly_keeps ..).step (by decide) ?_

theorem warmFc_keeps (s : State) :
    Keeps [.fc] s (warmFc s) := by
  unfold warmFc; try dsimp only
  repeat' first
    | with_reducible assumption
    | with_reducible exact Keeps.refl _ _
    | with_reducible refine forList_keeps _ ?_ ?_
    | with_reducible refine (loadFc_keeps ..).step (by decide) ?_
    | with_reducible refine (State.onFc_keeps ..).step (by decide) ?_
    | with_reducible refine (State.updFcCl_keeps ..).step (by decide) ?_
    | intro _ _ _
    | intro _ _

theorem clrDrop_keeps (s : State) :
    Keeps [.clr] s (clrDrop s) := by
  unfold clrDrop; try dsimp only
  repeat' first
    | with_reducible assumption
    | with_reducible exact Keeps.refl _ _
    | with_reducible refine forList_keeps _ ?_ ?_
    | with_reducible refine (State.updLnk_keeps ..).step (by decide) ?_
    | intro _ _ _
    | intro _ _

theorem clrRejoin_keeps (s : State) :
    Keeps [.hm, .clr, .free] s (clrRejoin s) := by
  unfold clrRejoin; try dsimp only
  repeat' first
    | with_reducible assumption
    | with_reducible exact Keeps.refl _ _
    | with_reducible refine (drawInc_keeps ..).step (by decide) ?_
    | with_reducible refine forList_keeps _ ?_ ?_
    | with_reducible refine (clrStart_keeps ..).step (by decide) ?_
    | with_reducible refine (State.onClr_keeps ..).step (by decide) ?_
    | with_reducible refine Keeps.ite ?_ ?_
    | intro _ _ _

theorem warmCores_keeps (s : State) :
    Keeps [.fw] s (warmCores s) := by
  unfold warmCores; try dsimp only
  repeat' first
    | with_reducible assumption
    | with_reducible exact Keeps.refl _ _
    | with_reducible refine forList_keeps _ ?_ ?_
    | with_reducible refine (State.updFwCore_keeps ..).step (by decide) ?_
    | with_reducible refine Keeps.ite ?_ ?_
    | intro _ _ _

theorem warmRecord_keeps (a1) (s : State) :
    Keeps [.hm, .hif, .ldg, .free] s (warmRecord a1 s) := by
  unfold warmRecord; try dsimp only
  repeat' first
    | with_reducible exact Keeps.refl _ _
    | with_reducible refine (emitVault_keeps ..).step (by decide) ?_
    | with_reducible refine (State.drawn_keeps ..).step (by decide) ?_

theorem warmReset_keeps (a1) (s : State) :
    Keeps [.pwr, .tb, .frm, .rail, .frec, .loop, .hm, .hif, .dma, .ldg, .fw, .tly, .fc, .trs, .syn, .clr, .aud, .ho, .free, .queues] s (warmReset a1 s) := by
  unfold warmReset; try dsimp only
  repeat' first
    | with_reducible assumption
    | with_reducible exact Keeps.refl _ _
    | with_reducible refine forList_keeps _ ?_ ?_
    | with_reducible refine (warmRecord_keeps ..).step (by decide) ?_
    | with_reducible refine (State.onPwr_keeps ..).step (by decide) ?_
    | with_reducible refine (State.onFw_keeps ..).step (by decide) ?_
    | with_reducible refine (holdAll_keeps ..).step (by decide) ?_
    | with_reducible refine (State.onHo_keeps ..).step (by decide) ?_
    | with_reducible refine (State.onFrec_keeps ..).step (by decide) ?_
    | with_reducible refine (State.updReg_keeps ..).step (by decide) ?_
    | with_reducible refine (warmFrames_keeps ..).step (by decide) ?_
    | with_reducible refine (reclaimClu_keeps ..).step (by decide) ?_
    | with_reducible refine (audAbandon_keeps ..).step (by decide) ?_
    | with_reducible refine (State.onAud_keeps ..).step (by decide) ?_
    | with_reducible refine (ldgFlush_keeps ..).step (by decide) ?_
    | with_reducible refine (warmCores_keeps ..).step (by decide) ?_
    | with_reducible refine (clrDrop_keeps ..).step (by decide) ?_
    | with_reducible refine (warmFc_keeps ..).step (by decide) ?_
    | with_reducible refine (warmTly_keeps ..).step (by decide) ?_
    | with_reducible refine (warmDma_keeps ..).step (by decide) ?_
    | with_reducible refine (warmTrs_keeps ..).step (by decide) ?_
    | with_reducible refine (warmLoops_keeps ..).step (by decide) ?_
    | with_reducible refine (State.onHif_keeps ..).step (by decide) ?_
    | intro _ _ _
    | intro _ _

theorem coresStart_keeps (s : State) :
    Keeps [.pwr, .hm, .fw] s (coresStart s) := by
  unfold coresStart; try dsimp only
  repeat' first
    | with_reducible assumption
    | with_reducible exact Keeps.refl _ _
    | with_reducible refine forList_keeps _ ?_ ?_
    | with_reducible refine (State.updFwCore_keeps ..).step (by decide) ?_
    | with_reducible refine (hmResume_keeps ..).step (by decide) ?_
    | with_reducible refine (State.onPwr_keeps ..).step (by decide) ?_
    | with_reducible refine (State.onFw_keeps ..).step (by decide) ?_
    | with_reducible refine Keeps.ite ?_ ?_
    | intro _ _ _
    | intro _ _

theorem bootSlot_keeps (a1 a2) (s : State) :
    Keeps [.pwr, .frm, .hm, .hif, .ldg, .fw, .tly, .clr, .free] s (bootSlot a1 a2 s) := by
  unfold bootSlot; try dsimp only
  repeat' first
    | with_reducible exact Keeps.refl _ _
    | with_reducible refine (coresStart_keeps ..).step (by decide) ?_
    | with_reducible refine (State.onFw_keeps ..).step (by decide) ?_
    | with_reducible refine (emitVault_keeps ..).step (by decide) ?_
    | with_reducible refine (confTally_keeps ..).step (by decide) ?_
    | with_reducible refine (clrRejoin_keeps ..).step (by decide) ?_
    | with_reducible refine Keeps.ite ?_ ?_

theorem bootNone_keeps (s : State) :
    Keeps [.pwr, .clk, .loop, .hm, .hif, .ldg, .fw, .trs, .syn] s (bootNone s) := by
  unfold bootNone; try dsimp only
  repeat' first
    | with_reducible exact Keeps.refl _ _
    | with_reducible refine (State.onFw_keeps ..).step (by decide) ?_
    | with_reducible refine (State.onPwr_keeps ..).step (by decide) ?_
    | with_reducible refine (hmResume_keeps ..).step (by decide) ?_
    | with_reducible refine (stopAllClocks_keeps ..).step (by decide) ?_
    | with_reducible refine (setAlarm_keeps ..).step (by decide) ?_
    | with_reducible refine (emitVault_keeps ..).step (by decide) ?_

theorem fwBoot_keeps (s : State) :
    Keeps [.pwr, .cfg, .frm, .clk, .frec, .loop, .hm, .hif, .ldg, .fw, .tly, .trs, .syn, .clr, .free] s (fwBoot s) := by
  unfold fwBoot; try dsimp only
  repeat' first
    | with_reducible exact Keeps.refl _ _
    | with_reducible refine (nvBoot_keeps ..).step (by decide) ?_
    | with_reducible refine (cfgStaged_keeps ..).step (by decide) ?_
    | with_reducible refine (loadWarm_keeps ..).step (by decide) ?_
    | with_reducible refine (bootPick_keeps ..).step (by decide) ?_
    | with_reducible refine (bootSlot_keeps ..).step (by decide) ?_
    | with_reducible refine (dirWrite_keeps ..).step (by decide) ?_
    | with_reducible refine (bootNone_keeps ..).step (by decide) ?_
    | with_reducible refine Keeps.ite ?_ ?_
    | split


end Sys2Proof.Machine
end

