-- ==== Sys2Proof/Laws/Fw.lean ====
section
/-!
SUPPORT. What the operations of Machine/Fw.lean may change.
-/
namespace Sys2Proof.Machine

theorem warmAfter_keeps (s : State) :
    Keeps [.pwr, .tb, .frm, .rail, .frec, .loop, .hm, .hif, .dma, .ldg, .fw, .tly, .fc, .trs, .syn, .clr, .aud, .ho, .free, .queues] s (warmAfter s) := by
  unfold warmAfter; try dsimp only
  repeat' first
    | with_reducible exact Keeps.refl _ _
    | with_reducible refine (warmReset_keeps ..).step (by decide) ?_
    | split

theorem bodyFwQuery_keeps (s : State) :
    KeepsD [] s (bodyFwQuery s) := by
  unfold bodyFwQuery; try dsimp only
  repeat' first
    | with_reducible exact Keeps.refl _ _
    | with_reducible refine KeepsD.ite ?_ ?_
    | with_reducible refine KeepsD.done ?_
    | with_reducible refine KeepsD.wait ?_
    | with_reducible refine KeepsD.fail ?_

theorem stage_keeps (a1) (s : State) :
    Keeps [.hm, .hif, .ldg, .fw] s (stage a1 s).2 := by
  unfold stage; try dsimp only
  repeat' first
    | with_reducible exact Keeps.refl _ _
    | with_reducible refine (State.onFw_keeps ..).step (by decide) ?_
    | with_reducible refine (dirWrite_keeps ..).step (by decide) ?_
    | with_reducible refine (emitVault_keeps ..).step (by decide) ?_
    | with_reducible refine Keeps.ite ?_ ?_
    | split

theorem bodyFwStage_keeps (a1 a2) (s : State) :
    KeepsD [.hm, .hif, .ldg, .fw] s (bodyFwStage a1 a2 s) := by
  unfold bodyFwStage; try dsimp only
  repeat' first
    | with_reducible assumption
    | with_reducible exact Keeps.refl _ _
    | with_reducible refine withVault_keeps ?_ ?_
    | with_reducible refine withData_keeps _ _ ?_ ?_
    | with_reducible refine (stage_keeps ..).step (by decide) ?_
    | with_reducible refine (DescOut.fail_keeps ..).step (by decide) ?_
    | with_reducible refine Keeps.ite ?_ ?_
    | with_reducible refine KeepsD.ite ?_ ?_
    | with_reducible refine KeepsD.done ?_
    | with_reducible refine KeepsD.wait ?_
    | with_reducible refine KeepsD.fail ?_
    | intro _ _ _
    | intro _ _
    | intro _

theorem bodyActivate_keeps (a1 a2) (s : State) :
    KeepsD [.pwr, .hm, .hif, .ldg, .fw] s (bodyActivate a1 a2 s) := by
  unfold bodyActivate; try dsimp only
  repeat' first
    | with_reducible exact Keeps.refl _ _
    | with_reducible refine (dirWrite_keeps ..).step (by decide) ?_
    | with_reducible refine (State.onFw_keeps ..).step (by decide) ?_
    | with_reducible refine (emitVault_keeps ..).step (by decide) ?_
    | with_reducible refine (State.onPwr_keeps ..).step (by decide) ?_
    | with_reducible refine (DescOut.fail_keeps ..).step (by decide) ?_
    | with_reducible refine Keeps.ite ?_ ?_
    | with_reducible refine KeepsD.ite ?_ ?_
    | with_reducible refine KeepsD.done ?_
    | with_reducible refine KeepsD.wait ?_
    | with_reducible refine KeepsD.fail ?_

theorem bodyFwConfirm_keeps (a1) (s : State) :
    KeepsD [.hm, .hif, .ldg, .fw] s (bodyFwConfirm a1 s) := by
  unfold bodyFwConfirm; try dsimp only
  repeat' first
    | with_reducible exact Keeps.refl _ _
    | with_reducible refine (dirWrite_keeps ..).step (by decide) ?_
    | with_reducible refine (State.onFw_keeps ..).step (by decide) ?_
    | with_reducible refine (emitVault_keeps ..).step (by decide) ?_
    | with_reducible refine (DescOut.fail_keeps ..).step (by decide) ?_
    | with_reducible refine Keeps.ite ?_ ?_
    | with_reducible refine KeepsD.ite ?_ ?_
    | with_reducible refine KeepsD.done ?_
    | with_reducible refine KeepsD.wait ?_
    | with_reducible refine KeepsD.fail ?_

theorem bodyConfigStage_keeps (a1 a2) (s : State) :
    KeepsD [.hm, .hif, .ldg, .fw] s (bodyConfigStage a1 a2 s) := by
  unfold bodyConfigStage; try dsimp only
  repeat' first
    | with_reducible assumption
    | with_reducible exact Keeps.refl _ _
    | with_reducible refine withVault_keeps ?_ ?_
    | with_reducible refine withData_keeps _ _ ?_ ?_
    | with_reducible refine (dirWrite_keeps ..).step (by decide) ?_
    | with_reducible refine (State.onFw_keeps ..).step (by decide) ?_
    | with_reducible refine (emitVault_keeps ..).step (by decide) ?_
    | with_reducible refine (DescOut.fail_keeps ..).step (by decide) ?_
    | with_reducible refine Keeps.ite ?_ ?_
    | with_reducible refine KeepsD.ite ?_ ?_
    | with_reducible refine KeepsD.done ?_
    | with_reducible refine KeepsD.wait ?_
    | with_reducible refine KeepsD.fail ?_
    | intro _ _ _
    | intro _ _
    | intro _

theorem bodySpdm_keeps (a1 a2) (s : State) :
    KeepsD [.hm, .free] s (bodySpdm a1 a2 s) := by
  unfold bodySpdm; try dsimp only
  repeat' first
    | with_reducible assumption
    | with_reducible exact Keeps.refl _ _
    | with_reducible refine withVault_keeps ?_ ?_
    | with_reducible refine withData_keeps _ _ ?_ ?_
    | with_reducible refine (State.drawn_keeps ..).step (by decide) ?_
    | with_reducible refine (hmWrite_keeps ..).step (by decide) ?_
    | with_reducible refine (DescOut.fail_keeps ..).step (by decide) ?_
    | with_reducible refine Keeps.ite ?_ ?_
    | with_reducible refine KeepsD.ite ?_ ?_
    | with_reducible refine KeepsD.done ?_
    | with_reducible refine KeepsD.wait ?_
    | with_reducible refine KeepsD.fail ?_
    | intro _ _ _
    | intro _ _
    | intro _

theorem fuseSession_keeps (a1 a2 a3 a4) (s : State) :
    KeepsD [.pwr, .hm, .hif, .ldg, .fw, .free] s (fuseSession a1 a2 a3 a4 s) := by
  unfold fuseSession; try dsimp only
  repeat' first
    | with_reducible exact Keeps.refl _ _
    | with_reducible refine (State.onFw_keeps ..).step (by decide) ?_
    | with_reducible refine (emitVault_keeps ..).step (by decide) ?_
    | with_reducible refine (setAlarm_keeps ..).step (by decide) ?_
    | with_reducible refine (State.onFree_keeps ..).step (by decide) ?_
    | with_reducible refine (State.drawn_keeps ..).step (by decide) ?_
    | with_reducible refine KeepsD.ite ?_ ?_
    | with_reducible refine KeepsD.done ?_
    | with_reducible refine KeepsD.wait ?_
    | with_reducible refine KeepsD.fail ?_
    | split

theorem fuseSense_keeps (a1) (s : State) :
    Keeps [.fw] s (fuseSense a1 s) := by
  unfold fuseSense; try dsimp only
  repeat' first
    | with_reducible exact Keeps.refl _ _
    | with_reducible refine (State.onFw_keeps ..).step (by decide) ?_

theorem fuseBody_keeps (a1 a2 a3 a4 a5 a6) (s : State) :
    KeepsD [.pwr, .hm, .hif, .ldg, .fw, .free] s (fuseBody a1 a2 a3 a4 a5 a6 s) := by
  unfold fuseBody; try dsimp only
  repeat' first
    | with_reducible assumption
    | with_reducible exact Keeps.refl _ _
    | with_reducible refine withData_keeps _ _ ?_ ?_
    | with_reducible refine (fuseSense_keeps ..).step (by decide) ?_
    | with_reducible refine (fuseSession_keeps ..).step (by decide) ?_
    | with_reducible refine (DescOut.fail_keeps ..).step (by decide) ?_
    | with_reducible refine Keeps.ite ?_ ?_
    | with_reducible refine KeepsD.ite ?_ ?_
    | with_reducible refine KeepsD.done ?_
    | with_reducible refine KeepsD.wait ?_
    | with_reducible refine KeepsD.fail ?_
    | split
    | intro _ _ _
    | intro _ _
    | intro _

theorem bodyFuseInt_keeps (a1 a2 a3) (s : State) :
    KeepsD [.pwr, .hm, .hif, .ldg, .fw, .free] s (bodyFuseInt a1 a2 a3 s) := by
  unfold bodyFuseInt; try dsimp only
  repeat' first
    | with_reducible exact Keeps.refl _ _
    | with_reducible refine (fuseBody_keeps ..).step (by decide) ?_
    | with_reducible refine (DescOut.fail_keeps ..).step (by decide) ?_
    | with_reducible refine Keeps.ite ?_ ?_
    | with_reducible refine KeepsD.ite ?_ ?_
    | with_reducible refine KeepsD.done ?_
    | with_reducible refine KeepsD.wait ?_
    | with_reducible refine KeepsD.fail ?_

theorem bodyFuseGate_keeps (a1 a2) (s : State) :
    KeepsD [.pwr, .hm, .hif, .ldg, .fw, .free] s (bodyFuseGate a1 a2 s) := by
  unfold bodyFuseGate; try dsimp only
  repeat' first
    | with_reducible exact Keeps.refl _ _
    | with_reducible refine (fuseBody_keeps ..).step (by decide) ?_
    | with_reducible refine Keeps.ite ?_ ?_
    | with_reducible refine KeepsD.ite ?_ ?_
    | with_reducible refine KeepsD.done ?_
    | with_reducible refine KeepsD.wait ?_
    | with_reducible refine KeepsD.fail ?_

theorem bodyFuseBoot_keeps (a1 a2 a3) (s : State) :
    KeepsD [.pwr, .hm, .hif, .ldg, .fw, .free] s (bodyFuseBoot a1 a2 a3 s) := by
  unfold bodyFuseBoot; try dsimp only
  repeat' first
    | with_reducible exact Keeps.refl _ _
    | with_reducible refine (fuseBody_keeps ..).step (by decide) ?_
    | with_reducible refine (DescOut.fail_keeps ..).step (by decide) ?_
    | with_reducible refine Keeps.ite ?_ ?_
    | with_reducible refine KeepsD.ite ?_ ?_
    | with_reducible refine KeepsD.done ?_
    | with_reducible refine KeepsD.wait ?_
    | with_reducible refine KeepsD.fail ?_

theorem bodyFuseSvn_keeps (a1 a2) (s : State) :
    KeepsD [.pwr, .hm, .hif, .ldg, .fw, .free] s (bodyFuseSvn a1 a2 s) := by
  unfold bodyFuseSvn; try dsimp only
  repeat' first
    | with_reducible exact Keeps.refl _ _
    | with_reducible refine (fuseSense_keeps ..).step (by decide) ?_
    | with_reducible refine (fuseSession_keeps ..).step (by decide) ?_
    | with_reducible refine (DescOut.fail_keeps ..).step (by decide) ?_
    | with_reducible refine Keeps.ite ?_ ?_
    | with_reducible refine KeepsD.ite ?_ ?_
    | with_reducible refine KeepsD.done ?_
    | with_reducible refine KeepsD.wait ?_
    | with_reducible refine KeepsD.fail ?_

theorem bodyRevokeInt_keeps (a1 a2 a3) (s : State) :
    KeepsD [.pwr, .hm, .hif, .ldg, .fw, .free] s (bodyRevokeInt a1 a2 a3 s) := by
  unfold bodyRevokeInt; try dsimp only
  repeat' first
    | with_reducible exact Keeps.refl _ _
    | with_reducible refine (fuseBody_keeps ..).step (by decide) ?_
    | with_reducible refine (DescOut.fail_keeps ..).step (by decide) ?_
    | with_reducible refine Keeps.ite ?_ ?_
    | with_reducible refine KeepsD.ite ?_ ?_
    | with_reducible refine KeepsD.done ?_
    | with_reducible refine KeepsD.wait ?_
    | with_reducible refine KeepsD.fail ?_

theorem bodyRevokeKol_keeps (a1 a2 a3) (s : State) :
    KeepsD [.pwr, .hm, .hif, .ldg, .fw, .free] s (bodyRevokeKol a1 a2 a3 s) := by
  unfold bodyRevokeKol; try dsimp only
  repeat' first
    | with_reducible exact Keeps.refl _ _
    | with_reducible refine (fuseBody_keeps ..).step (by decide) ?_
    | with_reducible refine (DescOut.fail_keeps ..).step (by decide) ?_
    | with_reducible refine Keeps.ite ?_ ?_
    | with_reducible refine KeepsD.ite ?_ ?_
    | with_reducible refine KeepsD.done ?_
    | with_reducible refine KeepsD.wait ?_
    | with_reducible refine KeepsD.fail ?_

theorem bodyNonce_keeps (a1) (s : State) :
    KeepsD [.hm, .fw, .free] s (bodyNonce a1 s) := by
  unfold bodyNonce; try dsimp only
  repeat' first
    | with_reducible assumption
    | with_reducible exact Keeps.refl _ _
    | with_reducible refine withVault_keeps ?_ ?_
    | with_reducible refine (hmWrite_keeps ..).step (by decide) ?_
    | with_reducible refine (State.onFw_keeps ..).step (by decide) ?_
    | with_reducible refine (DescOut.fail_keeps ..).step (by decide) ?_
    | with_reducible refine (State.drawn_keeps ..).step (by decide) ?_
    | with_reducible refine Keeps.ite ?_ ?_
    | with_reducible refine KeepsD.ite ?_ ?_
    | with_reducible refine KeepsD.done ?_
    | with_reducible refine KeepsD.wait ?_
    | with_reducible refine KeepsD.fail ?_
    | intro _ _ _
    | intro _ _

theorem bodyToken_keeps (a1 a2) (s : State) :
    KeepsD [.hm, .hif, .ldg, .fw, .free] s (bodyToken a1 a2 s) := by
  unfold bodyToken; try dsimp only
  repeat' first
    | with_reducible assumption
    | with_reducible exact Keeps.refl _ _
    | with_reducible refine withVault_keeps ?_ ?_
    | with_reducible refine withData_keeps _ _ ?_ ?_
    | with_reducible refine (State.onFw_keeps ..).step (by decide) ?_
    | with_reducible refine (emitVault_keeps ..).step (by decide) ?_
    | with_reducible refine (State.drawn_keeps ..).step (by decide) ?_
    | with_reducible refine (DescOut.fail_keeps ..).step (by decide) ?_
    | with_reducible refine Keeps.ite ?_ ?_
    | with_reducible refine KeepsD.ite ?_ ?_
    | with_reducible refine KeepsD.done ?_
    | with_reducible refine KeepsD.wait ?_
    | with_reducible refine KeepsD.fail ?_
    | intro _ _ _
    | intro _ _
    | intro _

theorem vaultRestart_keeps (s : State) :
    Keeps [.fw] s (vaultRestart s) := by
  unfold vaultRestart; try dsimp only
  repeat' first
    | with_reducible exact Keeps.refl _ _
    | with_reducible refine (State.onFw_keeps ..).step (by decide) ?_

theorem bodyZeroVol_keeps (a1) (s : State) :
    KeepsD [.hm, .hif, .ldg, .fw] s (bodyZeroVol a1 s) := by
  unfold bodyZeroVol; try dsimp only
  repeat' first
    | with_reducible exact Keeps.refl _ _
    | with_reducible refine (vaultWipe_keeps ..).step (by decide) ?_
    | with_reducible refine (vaultRestart_keeps ..).step (by decide) ?_
    | with_reducible refine (DescOut.fail_keeps ..).step (by decide) ?_
    | with_reducible refine Keeps.ite ?_ ?_
    | with_reducible refine KeepsD.ite ?_ ?_
    | with_reducible refine KeepsD.done ?_
    | with_reducible refine KeepsD.wait ?_
    | with_reducible refine KeepsD.fail ?_

theorem bodyZeroPerm_keeps (a1 a2) (s : State) :
    KeepsD [.pwr, .hm, .hif, .ldg, .fw, .free] s (bodyZeroPerm a1 a2 s) := by
  unfold bodyZeroPerm; try dsimp only
  repeat' first
    | with_reducible exact Keeps.refl _ _
    | with_reducible refine (fuseSense_keeps ..).step (by decide) ?_
    | with_reducible refine (State.onFw_keeps ..).step (by decide) ?_
    | with_reducible refine (emitVault_keeps ..).step (by decide) ?_
    | with_reducible refine (fuseSession_keeps ..).step (by decide) ?_
    | with_reducible refine (DescOut.fail_keeps ..).step (by decide) ?_
    | with_reducible refine Keeps.ite ?_ ?_
    | with_reducible refine KeepsD.ite ?_ ?_
    | with_reducible refine KeepsD.done ?_
    | with_reducible refine KeepsD.wait ?_
    | with_reducible refine KeepsD.fail ?_
    | split

theorem bodyLive_keeps (a1) (s : State) :
    KeepsD [.hm, .hif, .ldg, .fw] s (bodyLive a1 s) := by
  unfold bodyLive; try dsimp only
  repeat' first
    | with_reducible assumption
    | with_reducible exact Keeps.refl _ _
    | with_reducible refine withVault_keeps ?_ ?_
    | with_reducible refine (slotCheck_keeps ..).step (by decide) ?_
    | with_reducible refine (dirWrite_keeps ..).step (by decide) ?_
    | with_reducible refine (State.onFw_keeps ..).step (by decide) ?_
    | with_reducible refine (emitVault_keeps ..).step (by decide) ?_
    | with_reducible refine (DescOut.fail_keeps ..).step (by decide) ?_
    | with_reducible refine Keeps.ite ?_ ?_
    | with_reducible refine KeepsD.ite ?_ ?_
    | with_reducible refine KeepsD.done ?_
    | with_reducible refine KeepsD.wait ?_
    | with_reducible refine KeepsD.fail ?_
    | intro _ _ _
    | intro _ _

theorem updHold_keeps (s : State) :
    Keeps [.rail, .loop, .hm, .hif, .ldg, .fw] s (updHold s) := by
  unfold updHold; try dsimp only
  repeat' first
    | with_reducible assumption
    | with_reducible exact Keeps.refl _ _
    | with_reducible refine forList_keeps _ ?_ ?_
    | with_reducible refine (holdAll_keeps ..).step (by decide) ?_
    | with_reducible refine (State.updReg_keeps ..).step (by decide) ?_
    | with_reducible refine (State.onFw_keeps ..).step (by decide) ?_
    | intro _ _ _
    | intro _ _

theorem prepareDone_keeps (s : State) :
    Keeps [.rail, .loop, .hm, .hif, .ldg, .fw, .fc, .trs, .aud] s (prepareDone s) := by
  unfold prepareDone; try dsimp only
  repeat' first
    | with_reducible exact Keeps.refl _ _
    | with_reducible refine (updHold_keeps ..).step (by decide) ?_
    | with_reducible refine (audAbandon_keeps ..).step (by decide) ?_
    | with_reducible refine (State.onFw_keeps ..).step (by decide) ?_
    | with_reducible refine Keeps.ite ?_ ?_

theorem flipBanks_keeps (s : State) :
    Keeps [.fw] s (flipBanks s) := by
  unfold flipBanks; try dsimp only
  repeat' first
    | with_reducible assumption
    | with_reducible exact Keeps.refl _ _
    | with_reducible refine forList_keeps _ ?_ ?_
    | with_reducible refine (State.updFwCore_keeps ..).step (by decide) ?_
    | intro _ _ _
    | intro _ _

theorem rollback_keeps (a1) (s : State) :
    Keeps [.frm, .rail, .loop, .hm, .hif, .ldg, .fw, .tly, .fc, .trs, .syn] s (rollback a1 s) := by
  unfold rollback; try dsimp only
  repeat' first
    | with_reducible assumption
    | with_reducible exact Keeps.refl _ _
    | with_reducible refine forList_keeps _ ?_ ?_
    | with_reducible refine (updHold_keeps ..).step (by decide) ?_
    | with_reducible refine (flipBanks_keeps ..).step (by decide) ?_
    | with_reducible refine (reclaimClu_keeps ..).step (by decide) ?_
    | with_reducible refine (State.onLoop_keeps ..).step (by decide) ?_
    | with_reducible refine (State.onFc_keeps ..).step (by decide) ?_
    | with_reducible refine (State.onTrs_keeps ..).step (by decide) ?_
    | with_reducible refine (State.onTly_keeps ..).step (by decide) ?_
    | with_reducible refine (State.onFrm_keeps ..).step (by decide) ?_
    | with_reducible refine (State.updTrsCl_keeps ..).step (by decide) ?_
    | with_reducible refine (dirWrite_keeps ..).step (by decide) ?_
    | with_reducible refine (State.onFw_keeps ..).step (by decide) ?_
    | with_reducible refine (emitVault_keeps ..).step (by decide) ?_
    | with_reducible refine Keeps.ite ?_ ?_
    | split
    | intro _ _ _
    | intro _ _

theorem handoffDone_keeps (a1) (s : State) :
    Keeps [.frm, .rail, .loop, .hm, .hif, .ldg, .fw, .tly, .fc, .trs, .syn, .ho] s (handoffDone a1 s) := by
  unfold handoffDone; try dsimp only
  repeat' first
    | with_reducible exact Keeps.refl _ _
    | with_reducible refine (State.onHo_keeps ..).step (by decide) ?_
    | with_reducible refine (rollback_keeps ..).step (by decide) ?_
    | with_reducible refine (dirWrite_keeps ..).step (by decide) ?_
    | with_reducible refine (flipBanks_keeps ..).step (by decide) ?_
    | with_reducible refine (State.onFw_keeps ..).step (by decide) ?_
    | with_reducible refine Keeps.ite ?_ ?_

theorem updEnd_keeps (a1) (s : State) :
    Keeps [.hm, .hif, .ldg, .fw, .fc, .trs, .ho] s (updEnd a1 s) := by
  unfold updEnd; try dsimp only
  repeat' first
    | with_reducible exact Keeps.refl _ _
    | with_reducible refine (State.onFw_keeps ..).step (by decide) ?_
    | with_reducible refine (State.onHo_keeps ..).step (by decide) ?_
    | with_reducible refine (complete_keeps ..).step (by decide) ?_
    | split

theorem resumed_keeps (s : State) :
    Keeps [.rail, .loop, .hm, .hif, .ldg, .fw, .fc, .trs, .clr, .ho, .free] s (resumed s) := by
  unfold resumed; try dsimp only
  repeat' first
    | with_reducible assumption
    | with_reducible exact Keeps.refl _ _
    | with_reducible refine (State.onFw_keeps ..).step (by decide) ?_
    | with_reducible refine forList_keeps _ ?_ ?_
    | with_reducible refine (cluUnhold_keeps ..).step (by decide) ?_
    | with_reducible refine (emitVault_keeps ..).step (by decide) ?_
    | with_reducible refine (clrRejoin_keeps ..).step (by decide) ?_
    | with_reducible refine (clrDrop_keeps ..).step (by decide) ?_
    | with_reducible refine (railsFree_keeps ..).step (by decide) ?_
    | with_reducible refine (State.onTrs_keeps ..).step (by decide) ?_
    | with_reducible refine (updEnd_keeps ..).step (by decide) ?_
    | with_reducible refine Keeps.ite ?_ ?_
    | intro _ _ _

theorem selfConfirmed_keeps (s : State) :
    Keeps [.hm, .hif, .ldg, .fw, .fc, .trs, .ho] s (selfConfirmed s) := by
  unfold selfConfirmed; try dsimp only
  repeat' first
    | with_reducible exact Keeps.refl _ _
    | with_reducible refine (updEnd_keeps ..).step (by decide) ?_
    | with_reducible refine (emitVault_keeps ..).step (by decide) ?_
    | with_reducible refine (State.onFw_keeps ..).step (by decide) ?_
    | with_reducible refine Keeps.ite ?_ ?_

theorem rollbackDue_keeps (s : State) :
    Keeps [.frm, .rail, .loop, .hm, .hif, .ldg, .fw, .tly, .fc, .trs, .syn] s (rollbackDue s) := by
  unfold rollbackDue; try dsimp only
  repeat' first
    | with_reducible exact Keeps.refl _ _
    | with_reducible refine (rollback_keeps ..).step (by decide) ?_
    | with_reducible refine Keeps.ite ?_ ?_

theorem vfuseAlarm_keeps (a1) (s : State) :
    Keeps [.pwr, .hm, .hif, .ldg, .fw] s (vfuseAlarm a1 s) := by
  unfold vfuseAlarm; try dsimp only
  repeat' first
    | with_reducible exact Keeps.refl _ _
    | with_reducible refine (State.onFw_keeps ..).step (by decide) ?_
    | with_reducible refine (State.onPwr_keeps ..).step (by decide) ?_
    | with_reducible refine (setAlarm_keeps ..).step (by decide) ?_
    | with_reducible refine (emitVault_keeps ..).step (by decide) ?_
    | with_reducible refine Keeps.ite ?_ ?_

theorem partnerHang_keeps (a1) (s : State) :
    Keeps [.pwr, .clk, .sns, .rail, .loop, .hm, .hif, .ldg, .fw, .tly, .fc, .trs, .aud] s (partnerHang a1 s) := by
  unfold partnerHang; try dsimp only
  repeat' first
    | with_reducible assumption
    | with_reducible exact Keeps.refl _ _
    | with_reducible refine forList_keeps _ ?_ ?_
    | with_reducible refine (audAbandon_keeps ..).step (by decide) ?_
    | with_reducible refine (audBack_keeps ..).step (by decide) ?_
    | with_reducible refine Keeps.ite ?_ ?_
    | intro _ _ _
    | split

theorem tellerHang_keeps (a1) (s : State) :
    Keeps [.pwr, .clk, .sns, .rail, .loop, .hm, .hif, .ldg, .fw, .tly, .fc, .trs, .aud] s (tellerHang a1 s) := by
  unfold tellerHang; try dsimp only
  repeat' first
    | with_reducible exact Keeps.refl _ _
    | with_reducible refine (partnerHang_keeps ..).step (by decide) ?_
    | with_reducible refine (presetLoops_keeps ..).step (by decide) ?_
    | with_reducible refine (State.updFwCore_keeps ..).step (by decide) ?_
    | with_reducible refine Keeps.ite ?_ ?_
    | split

theorem coreHang_keeps (a1) (s : State) :
    Keeps [.pwr, .tb, .frm, .clk, .sns, .rail, .frec, .loop, .hm, .hif, .dma, .ldg, .fw, .tly, .fc, .trs, .syn, .clr, .aud, .ho, .free, .queues] s (coreHang a1 s) := by
  unfold coreHang; try dsimp only
  repeat' first
    | with_reducible exact Keeps.refl _ _
    | with_reducible refine (State.updFwCore_keeps ..).step (by decide) ?_
    | with_reducible refine (emitVault_keeps ..).step (by decide) ?_
    | with_reducible refine (rollback_keeps ..).step (by decide) ?_
    | with_reducible refine (warmReset_keeps ..).step (by decide) ?_
    | with_reducible refine (tellerHang_keeps ..).step (by decide) ?_
    | with_reducible refine Keeps.ite ?_ ?_

theorem coreBack_keeps (a1) (s : State) :
    Keeps [.loop, .hm, .hif, .ldg, .fw] s (coreBack a1 s) := by
  unfold coreBack; try dsimp only
  repeat' first
    | with_reducible exact Keeps.refl _ _
    | with_reducible refine (emitVault_keeps ..).step (by decide) ?_
    | with_reducible refine (presetLoops_keeps ..).step (by decide) ?_
    | with_reducible refine (State.updFwCore_keeps ..).step (by decide) ?_
    | with_reducible refine Keeps.ite ?_ ?_

theorem vaultHang_keeps (a1) (s : State) :
    Keeps [.pwr, .hm, .hif, .ldg, .fw, .fc, .trs, .ho] s (vaultHang a1 s) := by
  unfold vaultHang; try dsimp only
  repeat' first
    | with_reducible exact Keeps.refl _ _
    | with_reducible refine (emitVault_keeps ..).step (by decide) ?_
    | with_reducible refine (vaultRestart_keeps ..).step (by decide) ?_
    | with_reducible refine (updEnd_keeps ..).step (by decide) ?_
    | with_reducible refine (vaultError_keeps ..).step (by decide) ?_
    | with_reducible refine Keeps.ite ?_ ?_

theorem vaultReady_keeps (s : State) :
    Keeps [.fw] s (vaultReady s) := by
  unfold vaultReady; try dsimp only
  repeat' first
    | with_reducible exact Keeps.refl _ _
    | with_reducible refine (State.onFw_keeps ..).step (by decide) ?_
    | with_reducible refine Keeps.ite ?_ ?_

theorem enterLp_keeps (a1) (s : State) :
    Keeps [.hm, .hif, .ldg, .fw, .queues] s (enterLp a1 s) := by
  unfold enterLp; try dsimp only
  repeat' first
    | with_reducible exact Keeps.refl _ _
    | with_reducible refine (State.updFwCore_keeps ..).step (by decide) ?_
    | with_reducible refine (ldgFlush_keeps ..).step (by decide) ?_
    | with_reducible refine (emitTeller_keeps ..).step (by decide) ?_
    | with_reducible refine Keeps.ite ?_ ?_

theorem exitLp_keeps (a1) (s : State) :
    Keeps [.clk, .loop, .hm, .hif, .ldg, .fw] s (exitLp a1 s) := by
  unfold exitLp; try dsimp only
  repeat' first
    | with_reducible exact Keeps.refl _ _
    | with_reducible refine (restartAll_keeps ..).step (by decide) ?_
    | with_reducible refine (emitTeller_keeps ..).step (by decide) ?_
    | with_reducible refine (State.updFwCore_keeps ..).step (by decide) ?_
    | with_reducible refine Keeps.ite ?_ ?_


end Sys2Proof.Machine
end

