-- ==== Sys2Proof/Laws/Port.lean ====
section
/-!
SUPPORT. What the operations of Machine/Port.lean may change.
-/
namespace Sys2Proof.Machine

theorem hmConsumerFail_keeps (a1) (s : State) :
    Keeps [.hm, .hif, .dma, .ldg, .tly, .fc, .trs] s (hmConsumerFail a1 s) := by
  unfold hmConsumerFail; try dsimp only
  repeat' first
    | with_reducible exact Keeps.refl _ _
    | with_reducible refine (transferFail_keeps ..).step (by decide) ?_
    | with_reducible refine (pageEnd_keeps ..).step (by decide) ?_
    | with_reducible refine Keeps.ite ?_ ?_
    | split

theorem hmFail_keeps (a1) (s : State) :
    Keeps [.hm, .hif, .dma, .ldg, .tly, .fc, .trs] s (hmFail a1 s) := by
  unfold hmFail; try dsimp only
  repeat' first
    | with_reducible exact Keeps.refl _ _
    | with_reducible refine (hmConsumerFail_keeps ..).step (by decide) ?_
    | with_reducible refine (State.onHm_keeps ..).step (by decide) ?_
    | with_reducible refine Keeps.ite ?_ ?_
    | split

theorem hmResponse_keeps (a1 a2 a3) (s : State) :
    Keeps [.hm, .hif, .dma, .ldg, .tly, .fc, .trs] s (hmResponse a1 a2 a3 s) := by
  unfold hmResponse; try dsimp only
  repeat' first
    | with_reducible exact Keeps.refl _ _
    | with_reducible refine (hmFree_keeps ..).step (by decide) ?_
    | with_reducible refine (hmFail_keeps ..).step (by decide) ?_
    | with_reducible refine (pageArrive_keeps ..).step (by decide) ?_
    | with_reducible refine Keeps.ite ?_ ?_
    | split

theorem hmTimeout_keeps (a1) (s : State) :
    Keeps [.hm, .hif, .dma, .ldg, .tly, .fc, .trs] s (hmTimeout a1 s) := by
  unfold hmTimeout; try dsimp only
  repeat' first
    | with_reducible exact Keeps.refl _ _
    | with_reducible refine (hmFail_keeps ..).step (by decide) ?_
    | with_reducible refine Keeps.ite ?_ ?_
    | split

theorem hmTagRelease_keeps (a1) (s : State) :
    Keeps [.hm] s (hmTagRelease a1 s) := by
  unfold hmTagRelease; try dsimp only
  repeat' first
    | with_reducible exact Keeps.refl _ _
    | with_reducible refine (hmFree_keeps ..).step (by decide) ?_
    | with_reducible refine Keeps.ite ?_ ?_
    | split

theorem hmPortReset_keeps (s : State) :
    Keeps [.hm, .hif, .dma, .ldg, .tly, .fc, .trs] s (hmPortReset s) := by
  unfold hmPortReset; try dsimp only
  repeat' first
    | with_reducible assumption
    | with_reducible exact Keeps.refl _ _
    | with_reducible refine forList_keeps _ ?_ ?_
    | with_reducible refine (transferFail_keeps ..).step (by decide) ?_
    | with_reducible refine (hmFail_keeps ..).step (by decide) ?_
    | with_reducible refine (State.onHm_keeps ..).step (by decide) ?_
    | intro _ _ _
    | intro _ _

theorem hmRelease_keeps (s : State) :
    Keeps [.hm] s (hmRelease s) := by
  unfold hmRelease; try dsimp only
  repeat' first
    | with_reducible assumption
    | with_reducible exact Keeps.refl _ _
    | with_reducible refine (State.onHm_keeps ..).step (by decide) ?_
    | with_reducible refine (hmResume_keeps ..).step (by decide) ?_
    | with_reducible refine Keeps.ite ?_ ?_
    | intro _ _ _
    | intro _ _


end Sys2Proof.Machine
end

