-- ==== Sys2Proof/Laws/Fetch.lean ====
section
/-!
SUPPORT. What the operations of Machine/Fetch.lean may change.
-/
namespace Sys2Proof.Machine

theorem planAct_keeps (b : List Nat) (s : State) :
    KeepsD [.hm, .ep, .hif, .ldg, .trs, .syn] s (planAct b s) := by
  unfold planAct
  rcases fld b 8 1 with _ | _ | _ | _ | _ | _ | _ | _ | k
  · exact (bodySynFlag_keeps ..).step (by decide) (.refl ..)
  · exact (bodySynFlag_keeps ..).step (by decide) (.refl ..)
  · exact (bodyAdjust_keeps ..).step (by decide) (.refl ..)
  · exact (bodyReleaseWaiter_keeps ..).step (by decide) (.refl ..)
  · exact (bodyFailWaiter_keeps ..).step (by decide) (.refl ..)
  · exact (bodyResetWindow_keeps ..).step (by decide) (.refl ..)
  · exact (bodySetKind_keeps ..).step (by decide) (.refl ..)
  · exact .ite (.fail (.refl ..)) ((bodyGroupDef_keeps ..).step (by decide) (.refl ..))
  · exact .fail (.refl ..)

/-- The parts that some descriptor may change. -/
def descParts : List Area := [.pwr, .frm, .clk, .sns, .rail, .loop, .hm, .ep, .hif, .dma, .ldg, .fw, .tly, .fc, .trs, .syn, .clr, .aud, .free]

theorem planHif_keeps {h : DescHdr} {b : List Nat} {x : Ext} {op : Nat} {p : Plan} (hp : planHif h b x op = some p)
    (u : State) : KeepsD descParts u (p.2 u) := by
  unfold planHif at hp; dsimp only at hp
  split at hp <;> cases hp <;> dsimp only
  · exact (bodyNop_keeps ..).step (by decide) (.refl ..)
  · exact (bodyIdentify_keeps ..).step (by decide) (.refl ..)
  · exact (bodyWarmReset_keeps ..).step (by decide) (.refl ..)
  · exact (controlStart_keeps ..).step (by decide) (.refl ..)
  · exact (bodyCtxOpen_keeps ..).step (by decide) (.refl ..)
  · exact (bodyCtxClose_keeps ..).step (by decide) (.refl ..)
  · exact (bodyCtxParam_keeps ..).step (by decide) (.refl ..)
  · exact (bodyCtxPlace_keeps ..).step (by decide) (.refl ..)
  · exact (bodyFloorSet_keeps ..).step (by decide) (.refl ..)
  · exact (bodyCtxTelem_keeps ..).step (by decide) (.refl ..)
  · rcases fld b 8 1 with _ | _ | k
    · exact (railCtrlStart_keeps ..).step (by decide) (.refl ..)
    · exact (railCtrlStop_keeps ..).step (by decide) (.refl ..)
    · exact .fail (.refl ..)
  · exact (bodyAmBaseline_keeps ..).step (by decide) (.refl ..)

theorem planTly_keeps {b : List Nat} {x : Ext} {op : Nat} {p : Plan} (hp : planTly b x op = some p)
    (u : State) : KeepsD descParts u (p.2 u) := by
  unfold planTly at hp; dsimp only at hp
  split at hp <;> cases hp <;> dsimp only
  · exact (bodyTlyInstall_keeps ..).step (by decide) (.refl ..)
  · exact (bodyTlyRemove_keeps ..).step (by decide) (.refl ..)
  · exact (bodyTlySetReg_keeps ..).step (by decide) (.refl ..)
  · exact (bodyTlySetRemove_keeps ..).step (by decide) (.refl ..)
  · exact (bodySlotTable_keeps ..).step (by decide) (.refl ..)
  · exact (bodyLoopCoef_keeps ..).step (by decide) (.refl ..)
  · exact (bodyVftLoad_keeps ..).step (by decide) (.refl ..)
  · rcases fld b 8 1 with _ | _ | k
    · exact (bodyHintClassEntry_keeps ..).step (by decide) (.refl ..)
    · exact (bodyHintClassPerm_keeps ..).step (by decide) (.refl ..)
    · exact .fail (.refl ..)

theorem planSyn_keeps {h : DescHdr} {b : List Nat} {op : Nat} {p : Plan} (hp : planSyn h b op = some p)
    (u : State) : KeepsD descParts u (p.2 u) := by
  unfold planSyn at hp; dsimp only at hp
  split at hp <;> cases hp <;> dsimp only
  · exact (planAct_keeps ..).step (by decide) (.refl ..)
  · exact .ite (.fail (.refl ..)) ((bodySynMap_keeps ..).step (by decide) (.refl ..))
  · exact (bodySynRead_keeps ..).step (by decide) (.refl ..)
  · exact (bodyClrConfig_keeps ..).step (by decide) (.refl ..)
  · exact (bodyClrLink_keeps ..).step (by decide) (.refl ..)

theorem planDma_keeps {h : DescHdr} {b : List Nat} {x : Ext} {op : Nat} {p : Plan} (hp : planDma h b x op = some p)
    (u : State) : KeepsD descParts u (p.2 u) := by
  unfold planDma at hp
  split at hp <;> cases hp <;> dsimp only
  · exact (bodyDmaXfer_keeps ..).step (by decide) (.refl ..)
  · exact (bodyDmaStream_keeps ..).step (by decide) (.refl ..)
  · exact (bodyLdgDrain_keeps ..).step (by decide) (.refl ..)
  · exact (bodyLdgRearm_keeps ..).step (by decide) (.refl ..)
  · exact (bodyFrecCopy_keeps ..).step (by decide) (.refl ..)
  · exact (bodyAudTest_keeps ..).step (by decide) (.refl ..)
  · exact (bodyAudRemove_keeps ..).step (by decide) (.refl ..)
  · exact (bodyAudReturn_keeps ..).step (by decide) (.refl ..)

theorem planFw_keeps {h : DescHdr} {b : List Nat} {x : Ext} {op : Nat} {p : Plan} (hp : planFw h b x op = some p)
    (u : State) : KeepsD descParts u (p.2 u) := by
  unfold planFw at hp; dsimp only at hp
  split at hp
  case h_8 => split at hp <;> cases hp <;> first
    | exact .fail (.refl ..)
    | exact (bodyFuseInt_keeps ..).step (by decide) (.refl ..)
    | exact (bodyFuseGate_keeps ..).step (by decide) (.refl ..)
    | exact (bodyFuseBoot_keeps ..).step (by decide) (.refl ..)
    | exact (bodyFuseSvn_keeps ..).step (by decide) (.refl ..)
    | exact (bodyRevokeInt_keeps ..).step (by decide) (.refl ..)
    | exact (bodyRevokeKol_keeps ..).step (by decide) (.refl ..)
  case h_9 => split at hp <;> cases hp <;> first
    | exact .fail (.refl ..)
    | exact (bodyNonce_keeps ..).step (by decide) (.refl ..)
    | exact (bodyToken_keeps ..).step (by decide) (.refl ..)
  case h_10 => split at hp <;> cases hp <;> first
    | exact .fail (.refl ..)
    | exact (bodyZeroVol_keeps ..).step (by decide) (.refl ..)
    | exact (bodyZeroPerm_keeps ..).step (by decide) (.refl ..)
  all_goals cases hp <;> dsimp only
  · exact (bodyFwQuery_keeps ..).step (by decide) (.refl ..)
  · exact (bodyFwStage_keeps ..).step (by decide) (.refl ..)
  · split
    · exact (bodyActivate_keeps ..).step (by decide) (.refl ..)
    · exact .fail (.refl ..)
  · exact (bodyLive_keeps ..).step (by decide) (.refl ..)
  · exact (bodyFwConfirm_keeps ..).step (by decide) (.refl ..)
  · exact (bodyConfigStage_keeps ..).step (by decide) (.refl ..)
  · exact (bodySpdm_keeps ..).step (by decide) (.refl ..)

theorem planOf_keeps {h : DescHdr} {b : List Nat} {x : Ext} {p : Plan} (hp : planOf h b x = some p)
    (u : State) : KeepsD descParts u (p.2 u) := by
  unfold planOf at hp; dsimp only at hp
  simp only [Option.or_eq_some_iff] at hp
  rcases hp with h | ⟨-, h | ⟨-, h | ⟨-, h | ⟨-, h⟩⟩⟩⟩
  · exact planHif_keeps h u
  · exact planTly_keeps h u
  · exact planSyn_keeps h u
  · exact planDma_keeps h u
  · exact planFw_keeps h u

theorem perform_keeps (c : CtxId) (b : List Nat) (x : Ext) (s : State) :
    Keeps [.pwr, .tb, .frm, .clk, .sns, .rail, .frec, .loop, .hm, .ep, .hif, .dma, .ldg, .fw, .tly, .fc, .trs, .syn, .clr, .aud, .ho, .free, .queues] s (perform c b x s) := by
  unfold perform; dsimp only
  split
  · next p hp =>
    exact (warmAfter_keeps ..).step (by decide) ((runDesc_keeps (planOf_keeps hp) (by decide) ..).mono (by decide))
  · exact (runDesc_keeps (ps := descParts) (fun u => .fail (.refl ..)) (by decide) ..).mono (by decide)

theorem fetch_keeps (a1 a2 a3) (s : State) :
    Keeps [.pwr, .tb, .frm, .clk, .sns, .rail, .frec, .loop, .hm, .ep, .hif, .dma, .ldg, .fw, .tly, .fc, .trs, .syn, .clr, .aud, .ho, .free, .queues] s (fetch a1 a2 a3 s) := by
  unfold fetch; try dsimp only
  repeat' first
    | with_reducible exact Keeps.refl _ _
    | with_reducible refine (State.updCtx_keeps ..).step (by decide) ?_
    | with_reducible refine (perform_keeps ..).step (by decide) ?_
    | with_reducible refine Keeps.ite ?_ ?_
    | split

theorem fetchRetry_keeps (a1 a2 a3) (s : State) :
    Keeps [.pwr, .tb, .frm, .clk, .sns, .rail, .frec, .loop, .hm, .ep, .hif, .dma, .ldg, .fw, .tly, .fc, .trs, .syn, .clr, .aud, .ho, .free, .queues] s (fetchRetry a1 a2 a3 s) := by
  unfold fetchRetry; try dsimp only
  repeat' first
    | with_reducible exact Keeps.refl _ _
    | with_reducible refine (State.updCtx_keeps ..).step (by decide) ?_
    | with_reducible refine (ctxError_keeps ..).step (by decide) ?_
    | with_reducible refine (perform_keeps ..).step (by decide) ?_
    | with_reducible refine Keeps.ite ?_ ?_
    | split


end Sys2Proof.Machine
end

