-- ==== Sys2Proof/Laws/Tly.lean ====
section
/-!
SUPPORT. What the operations of Machine/Tly.lean may change.
-/
namespace Sys2Proof.Machine

theorem cubeErr_keeps (a1 a2 a3) (s : State) :
    Keeps [.frm, .hm, .hif, .ldg, .tly] s (cubeErr a1 a2 a3 s) := by
  unfold cubeErr; try dsimp only
  repeat' first
    | with_reducible exact Keeps.refl _ _
    | with_reducible refine (emitTly_keeps ..).step (by decide) ?_
    | with_reducible refine (slotFail_keeps ..).step (by decide) ?_
    | with_reducible refine (State.onTly_keeps ..).step (by decide) ?_
    | with_reducible refine Keeps.ite ?_ ?_
    | split

theorem runFailed_keeps (a1 a2) (s : State) :
    Keeps [.frm, .hm, .hif, .ldg, .tly] s (runFailed a1 a2 s) := by
  unfold runFailed; try dsimp only
  repeat' first
    | with_reducible exact Keeps.refl _ _
    | with_reducible refine (slotFail_keeps ..).step (by decide) ?_
    | with_reducible refine (State.updProg_keeps ..).step (by decide) ?_

theorem storeErr_keeps (a1 a2 a3) (s : State) :
    Keeps [.frm, .hm, .hif, .ldg, .tly] s (storeErr a1 a2 a3 s) := by
  unfold storeErr; try dsimp only
  repeat' first
    | with_reducible exact Keeps.refl _ _
    | with_reducible refine (emitTly_keeps ..).step (by decide) ?_
    | with_reducible refine (State.onTly_keeps ..).step (by decide) ?_
    | with_reducible refine (slotFail_keeps ..).step (by decide) ?_
    | with_reducible refine (State.updSet_keeps ..).step (by decide) ?_
    | with_reducible refine (runFailed_keeps ..).step (by decide) ?_
    | with_reducible refine Keeps.ite ?_ ?_
    | split

theorem clrSat_keeps (s : State) :
    Keeps [.tly] s (clrSat s) := by
  unfold clrSat; try dsimp only
  repeat' first
    | with_reducible assumption
    | with_reducible exact Keeps.refl _ _
    | with_reducible refine forList_keeps _ ?_ ?_
    | with_reducible refine (State.updProg_keeps ..).step (by decide) ?_
    | with_reducible refine (State.onTly_keeps ..).step (by decide) ?_
    | intro _ _ _
    | intro _ _


end Sys2Proof.Machine
end

