-- ==== Sys2Proof/Laws/Reg.lean ====
section
/-!
SUPPORT. What the operations of Machine/Reg.lean may change.
-/
namespace Sys2Proof.Machine

theorem majorityBack_keeps (s : State) :
    Keeps [.sns, .hm, .hif, .ldg] s (majorityBack s) := by
  unfold majorityBack; try dsimp only
  repeat' first
    | with_reducible exact Keeps.refl _ _
    | with_reducible refine (State.onSns_keeps ..).step (by decide) ?_
    | with_reducible refine (emitSns_keeps ..).step (by decide) ?_
    | with_reducible refine Keeps.ite ?_ ?_

theorem alarmBit_keeps (a1) (s : State) :
    Keeps [.pwr, .sns, .hm, .hif, .ldg] s (alarmBit a1 s) := by
  unfold alarmBit; try dsimp only
  repeat' first
    | with_reducible assumption
    | with_reducible exact Keeps.refl _ _
    | with_reducible refine when_keeps _ ?_ ?_
    | with_reducible refine (majorityBack_keeps ..).step (by decide) ?_
    | with_reducible refine (clrAlarm_keeps ..).step (by decide) ?_
    | with_reducible refine Keeps.ite ?_ ?_
    | intro _ _ _
    | intro _ _

theorem limAlarm_keeps (a1) (s : State) :
    Keeps [.pwr, .sns, .hm, .hif, .ldg] s (limAlarm a1 s) := by
  unfold limAlarm; try dsimp only
  repeat' first
    | with_reducible assumption
    | with_reducible exact Keeps.refl _ _
    | with_reducible refine forList_keeps _ ?_ ?_
    | with_reducible refine (alarmBit_keeps ..).step (by decide) ?_
    | intro _ _ _
    | intro _ _

theorem cursorWrite_keeps (a1) (s : State) :
    Keeps [.ldg] s (cursorWrite a1 s) := by
  unfold cursorWrite; try dsimp only
  repeat' first
    | with_reducible exact Keeps.refl _ _
    | with_reducible refine (State.onLdg_keeps (fun h => ⟨h.1, h.2, h.3, h.4⟩) fun _ => List.prefix_rfl).step (by decide) ?_

theorem writeHard_keeps (a1 a2) (s : State) :
    Keeps [.pwr, .sns, .hm, .hif, .ldg] s (writeHard a1 a2 s) := by
  unfold writeHard; try dsimp only
  repeat' first
    | with_reducible exact Keeps.refl _ _
    | with_reducible refine (limAlarm_keeps ..).step (by decide) ?_
    | with_reducible refine (cursorWrite_keeps ..).step (by decide) ?_
    | with_reducible refine (doorbell_keeps ..).step (by decide) ?_
    | with_reducible refine Keeps.ite ?_ ?_

theorem c0Write_keeps (a1) (s : State) :
    Keeps [.hif] s (c0Write a1 s) := by
  unfold c0Write; try dsimp only
  repeat' first
    | with_reducible exact Keeps.refl _ _
    | with_reducible refine (State.onHif_keeps ..).step (by decide) ?_
    | with_reducible refine Keeps.ite ?_ ?_

theorem writeHif_keeps (a1 a2) (s : State) :
    Keeps [.hm, .hif, .ldg, .fc, .trs] s (writeHif a1 a2 s) := by
  unfold writeHif; try dsimp only
  repeat' first
    | with_reducible assumption
    | with_reducible exact Keeps.refl _ _
    | with_reducible refine when_keeps _ ?_ ?_
    | with_reducible refine (State.onHif_keeps ..).step (by decide) ?_
    | with_reducible refine (negGo_keeps ..).step (by decide) ?_
    | with_reducible refine (c0RingWrite_keeps ..).step (by decide) ?_
    | with_reducible refine (c0Write_keeps ..).step (by decide) ?_
    | with_reducible refine (hifClr_keeps ..).step (by decide) ?_
    | with_reducible refine Keeps.ite ?_ ?_
    | split
    | intro _ _ _
    | intro _ _

theorem writeFw_keeps (a1 a2) (s : State) :
    Keeps [.fw] s (writeFw a1 a2 s) := by
  unfold writeFw; try dsimp only
  repeat' first
    | with_reducible exact Keeps.refl _ _
    | with_reducible refine (State.onFw_keeps ..).step (by decide) ?_
    | split

theorem frmCtrl_keeps (a1) (s : State) :
    Keeps [.tb, .frm] s (frmCtrl a1 s) := by
  unfold frmCtrl; try dsimp only
  repeat' first
    | with_reducible assumption
    | with_reducible exact Keeps.refl _ _
    | with_reducible refine when_keeps _ ?_ ?_
    | with_reducible refine (State.onFrm_keeps ..).step (by decide) ?_
    | with_reducible refine (clrMin_keeps ..).step (by decide) ?_
    | intro _ _ _
    | intro _ _

theorem writeClk_keeps (a1 a2) (s : State) :
    Keeps [.tb, .frm, .clk] s (writeClk a1 a2 s) := by
  unfold writeClk; try dsimp only
  repeat' first
    | with_reducible exact Keeps.refl _ _
    | with_reducible refine (rootReq_keeps ..).step (by decide) ?_
    | with_reducible refine (State.onClk_keeps ..).step (by decide) ?_
    | with_reducible refine (frmCtrl_keeps ..).step (by decide) ?_
    | with_reducible refine (State.onFrm_keeps ..).step (by decide) ?_
    | with_reducible refine Keeps.ite ?_ ?_
    | split

theorem writeSns_keeps (a1 a2) (s : State) :
    Keeps [.sns] s (writeSns a1 a2 s) := by
  unfold writeSns; try dsimp only
  repeat' first
    | with_reducible exact Keeps.refl _ _
    | with_reducible refine (State.onSns_keeps ..).step (by decide) ?_
    | with_reducible refine (depthWrite_keeps ..).step (by decide) ?_
    | split

theorem compWrite_keeps (a1 a2) (s : State) :
    Keeps [.rail] s (compWrite a1 a2 s) := by
  unfold compWrite; try dsimp only
  repeat' first
    | with_reducible exact Keeps.refl _ _
    | with_reducible refine (railRes_keeps ..).step (by decide) ?_
    | with_reducible refine (State.updReg_keeps ..).step (by decide) ?_
    | with_reducible refine Keeps.ite ?_ ?_
    | split

theorem vreqWrite_keeps (a1) (s : State) :
    Keeps [.rail, .hm, .hif, .ldg] s (vreqWrite a1 s) := by
  unfold vreqWrite; try dsimp only
  repeat' first
    | with_reducible exact Keeps.refl _ _
    | with_reducible refine (vreqGo_keeps ..).step (by decide) ?_
    | with_reducible refine (railRes_keeps ..).step (by decide) ?_
    | with_reducible refine (State.updReg_keeps ..).step (by decide) ?_
    | with_reducible refine Keeps.ite ?_ ?_

theorem writeRail_keeps (a1 a2) (s : State) :
    Keeps [.rail, .frec, .hm, .hif, .ldg] s (writeRail a1 a2 s) := by
  unfold writeRail; try dsimp only
  repeat' first
    | with_reducible assumption
    | with_reducible exact Keeps.refl _ _
    | with_reducible refine when_keeps _ ?_ ?_
    | with_reducible refine (railRes_keeps ..).step (by decide) ?_
    | with_reducible refine (State.onRail_keeps ..).step (by decide) ?_
    | with_reducible refine (slewWrite_keeps ..).step (by decide) ?_
    | with_reducible refine (vreqWrite_keeps ..).step (by decide) ?_
    | with_reducible refine (shedWrite_keeps ..).step (by decide) ?_
    | with_reducible refine (telClr_keeps ..).step (by decide) ?_
    | with_reducible refine (protClear_keeps ..).step (by decide) ?_
    | with_reducible refine (phaseClear_keeps ..).step (by decide) ?_
    | with_reducible refine (State.onFrec_keeps ..).step (by decide) ?_
    | with_reducible refine (compWrite_keeps ..).step (by decide) ?_
    | with_reducible refine Keeps.ite ?_ ?_
    | split
    | intro _ _ _
    | intro _ _

theorem writeTly_keeps (a1 a2) (s : State) :
    Keeps [.tly] s (writeTly a1 a2 s) := by
  unfold writeTly; try dsimp only
  repeat' first
    | with_reducible assumption
    | with_reducible exact Keeps.refl _ _
    | with_reducible refine when_keeps _ ?_ ?_
    | with_reducible refine (clrSat_keeps ..).step (by decide) ?_
    | with_reducible refine (State.onTly_keeps ..).step (by decide) ?_
    | split
    | intro _ _ _
    | intro _ _

theorem slopeWrite_keeps (a1) (s : State) :
    Keeps [.loop] s (slopeWrite a1 s) := by
  unfold slopeWrite; try dsimp only
  repeat' first
    | with_reducible exact Keeps.refl _ _
    | with_reducible refine (loopRes_keeps ..).step (by decide) ?_
    | with_reducible refine (loopQueue_keeps ..).step (by decide) ?_
    | with_reducible refine Keeps.ite ?_ ?_

theorem lockedWrite_keeps (a1 a2 a3) (s : State) :
    Keeps [.loop] s (lockedWrite a1 a2 a3 s) := by
  unfold lockedWrite; try dsimp only
  repeat' first
    | with_reducible exact Keeps.refl _ _
    | with_reducible refine (loopRes_keeps ..).step (by decide) ?_
    | with_reducible refine (loopQueue_keeps ..).step (by decide) ?_
    | with_reducible refine Keeps.ite ?_ ?_
    | split

theorem writeLoop_keeps (a1 a2) (s : State) :
    Keeps [.pwr, .loop, .hm, .hif, .ldg] s (writeLoop a1 a2 s) := by
  unfold writeLoop; try dsimp only
  repeat' first
    | with_reducible exact Keeps.refl _ _
    | with_reducible refine (State.onLoop_keeps ..).step (by decide) ?_
    | with_reducible refine (slopeWrite_keeps ..).step (by decide) ?_
    | with_reducible refine (modeGo_keeps ..).step (by decide) ?_
    | with_reducible refine (tgtWrite_keeps ..).step (by decide) ?_
    | with_reducible refine (lockedWrite_keeps ..).step (by decide) ?_
    | with_reducible refine (supSatWrite_keeps ..).step (by decide) ?_
    | split

theorem odCfg_keeps (a1) (s : State) :
    Keeps [.trs] s (odCfg a1 s) := by
  unfold odCfg; try dsimp only
  repeat' first
    | with_reducible exact Keeps.refl _ _
    | with_reducible refine (trsRes_keeps ..).step (by decide) ?_
    | with_reducible refine (State.onTrs_keeps ..).step (by decide) ?_
    | with_reducible refine Keeps.ite ?_ ?_

theorem policyWrite_keeps (a1) (s : State) :
    Keeps [.hm, .hif, .ldg, .trs, .free] s (policyWrite a1 s) := by
  unfold policyWrite; try dsimp only
  repeat' first
    | with_reducible exact Keeps.refl _ _
    | with_reducible refine (State.onTrs_keeps ..).step (by decide) ?_
    | with_reducible refine (trsRes_keeps ..).step (by decide) ?_
    | with_reducible refine (State.drawn_keeps ..).step (by decide) ?_
    | with_reducible refine (floorsUpdate_keeps ..).step (by decide) ?_
    | with_reducible refine Keeps.ite ?_ ?_

theorem trsCtrl_keeps (a1) (s : State) :
    Keeps [.trs] s (trsCtrl a1 s) := by
  unfold trsCtrl; try dsimp only
  repeat' first
    | with_reducible assumption
    | with_reducible exact Keeps.refl _ _
    | with_reducible refine when_keeps _ ?_ ?_
    | with_reducible refine (trsRes_keeps ..).step (by decide) ?_
    | with_reducible refine (clrFlt_keeps ..).step (by decide) ?_
    | with_reducible refine (clrOd_keeps ..).step (by decide) ?_
    | with_reducible refine (clrRsn_keeps ..).step (by decide) ?_
    | intro _ _ _
    | intro _ _

theorem txCfg_keeps (a1) (s : State) :
    Keeps [.hm, .hif, .ldg, .trs] s (txCfg a1 s) := by
  unfold txCfg; try dsimp only
  repeat' first
    | with_reducible exact Keeps.refl _ _
    | with_reducible refine (txParam_keeps ..).step (by decide) ?_
    | with_reducible refine (trsRes_keeps ..).step (by decide) ?_

theorem trsSel_keeps (a1) (s : State) :
    Keeps [.trs] s (trsSel a1 s) := by
  unfold trsSel; try dsimp only
  repeat' first
    | with_reducible exact Keeps.refl _ _
    | with_reducible refine (trsRes_keeps ..).step (by decide) ?_
    | with_reducible refine (State.onTrs_keeps ..).step (by decide) ?_

theorem writeTrs_keeps (a1 a2) (s : State) :
    Keeps [.hm, .hif, .ldg, .trs, .free] s (writeTrs a1 a2 s) := by
  unfold writeTrs; try dsimp only
  repeat' first
    | with_reducible exact Keeps.refl _ _
    | with_reducible refine (capSet_keeps ..).step (by decide) ?_
    | with_reducible refine (odCfg_keeps ..).step (by decide) ?_
    | with_reducible refine (policyWrite_keeps ..).step (by decide) ?_
    | with_reducible refine (trsRes_keeps ..).step (by decide) ?_
    | with_reducible refine (State.onTrs_keeps ..).step (by decide) ?_
    | with_reducible refine (trsCtrl_keeps ..).step (by decide) ?_
    | with_reducible refine (trsSel_keeps ..).step (by decide) ?_
    | with_reducible refine (dcPrio_keeps ..).step (by decide) ?_
    | with_reducible refine (dcFloor_keeps ..).step (by decide) ?_
    | with_reducible refine (txCfg_keeps ..).step (by decide) ?_
    | split

theorem fcGate_keeps (a1) (s : State) :
    Keeps [.hm, .hif, .ldg, .fc] s (fcGate a1 s) := by
  unfold fcGate; try dsimp only
  repeat' first
    | with_reducible exact Keeps.refl _ _
    | with_reducible refine (State.onFc_keeps ..).step (by decide) ?_
    | with_reducible refine (fcGates_keeps ..).step (by decide) ?_
    | with_reducible refine (fcResOk_keeps ..).step (by decide) ?_
    | with_reducible refine (State.updFcCl_keeps ..).step (by decide) ?_
    | with_reducible refine Keeps.ite ?_ ?_

theorem fcCtrl_keeps (a1) (s : State) :
    Keeps [.hm, .hif, .ldg, .fc] s (fcCtrl a1 s) := by
  unfold fcCtrl; try dsimp only
  repeat' first
    | with_reducible assumption
    | with_reducible exact Keeps.refl _ _
    | with_reducible refine when_keeps _ ?_ ?_
    | with_reducible refine (fcResOk_keeps ..).step (by decide) ?_
    | with_reducible refine (fcDefault_keeps ..).step (by decide) ?_
    | with_reducible refine (clrAcc_keeps ..).step (by decide) ?_
    | intro _ _ _
    | intro _ _

theorem hxCfg_keeps (a1) (s : State) :
    Keeps [.fc] s (hxCfg a1 s) := by
  unfold hxCfg; try dsimp only
  repeat' first
    | with_reducible exact Keeps.refl _ _
    | with_reducible refine (State.onFc_keeps ..).step (by decide) ?_
    | with_reducible refine Keeps.ite ?_ ?_

theorem writeFc_keeps (a1 a2) (s : State) :
    Keeps [.hm, .hif, .ldg, .fc] s (writeFc a1 a2 s) := by
  unfold writeFc; try dsimp only
  repeat' first
    | with_reducible exact Keeps.refl _ _
    | with_reducible refine (State.onFc_keeps ..).step (by decide) ?_
    | with_reducible refine (fcGate_keeps ..).step (by decide) ?_
    | with_reducible refine (fcCtrl_keeps ..).step (by decide) ?_
    | with_reducible refine (hcRes_keeps ..).step (by decide) ?_
    | with_reducible refine (hcWrite_keeps ..).step (by decide) ?_
    | with_reducible refine (hxCfg_keeps ..).step (by decide) ?_
    | with_reducible refine (permWrite_keeps ..).step (by decide) ?_
    | with_reducible refine Keeps.ite ?_ ?_
    | split

theorem tmoWrite_keeps (a1 a2) (s : State) :
    Keeps [.syn] s (tmoWrite a1 a2 s) := by
  unfold tmoWrite; try dsimp only
  repeat' first
    | with_reducible exact Keeps.refl _ _
    | with_reducible refine (synRes_keeps ..).step (by decide) ?_
    | with_reducible refine (State.onSyn_keeps ..).step (by decide) ?_
    | with_reducible refine Keeps.ite ?_ ?_

theorem synSel_keeps (a1) (s : State) :
    Keeps [.syn] s (synSel a1 s) := by
  unfold synSel; try dsimp only
  repeat' first
    | with_reducible exact Keeps.refl _ _
    | with_reducible refine (synRes_keeps ..).step (by decide) ?_
    | with_reducible refine (State.onSyn_keeps ..).step (by decide) ?_

theorem writeSyn_keeps (a1 a2) (s : State) :
    Keeps [.hm, .hif, .ldg, .trs, .syn] s (writeSyn a1 a2 s) := by
  unfold writeSyn; try dsimp only
  repeat' first
    | with_reducible assumption
    | with_reducible exact Keeps.refl _ _
    | with_reducible refine when_keeps _ ?_ ?_
    | with_reducible refine (tmoWrite_keeps ..).step (by decide) ?_
    | with_reducible refine (escCfg_keeps ..).step (by decide) ?_
    | with_reducible refine (synRes_keeps ..).step (by decide) ?_
    | with_reducible refine (synCtrlClr_keeps ..).step (by decide) ?_
    | with_reducible refine (synSel_keeps ..).step (by decide) ?_
    | with_reducible refine (synCoreCfg_keeps ..).step (by decide) ?_
    | split
    | intro _ _ _
    | intro _ _

theorem clrFixed_keeps (a1) (s : State) :
    Keeps [.clr] s (clrFixed a1 s) := by
  unfold clrFixed; try dsimp only
  repeat' first
    | with_reducible exact Keeps.refl _ _
    | with_reducible refine (clrRes_keeps ..).step (by decide) ?_
    | with_reducible refine (State.onClr_keeps ..).step (by decide) ?_
    | with_reducible refine Keeps.ite ?_ ?_

theorem lnkFixed_keeps (a1) (s : State) :
    Keeps [.clr] s (lnkFixed a1 s) := by
  unfold lnkFixed; try dsimp only
  repeat' first
    | with_reducible exact Keeps.refl _ _
    | with_reducible refine (clrRes_keeps ..).step (by decide) ?_
    | with_reducible refine (State.updLnk_keeps ..).step (by decide) ?_
    | with_reducible refine Keeps.ite ?_ ?_

theorem clrTiming_keeps (a1) (s : State) :
    Keeps [.clr] s (clrTiming a1 s) := by
  unfold clrTiming; try dsimp only
  repeat' first
    | with_reducible exact Keeps.refl _ _
    | with_reducible refine (clrRes_keeps ..).step (by decide) ?_
    | with_reducible refine (State.onClr_keeps ..).step (by decide) ?_
    | with_reducible refine Keeps.ite ?_ ?_

theorem writeClr_keeps (a1 a2) (s : State) :
    Keeps [.hm, .trs, .clr] s (writeClr a1 a2 s) := by
  unfold writeClr; try dsimp only
  repeat' first
    | with_reducible assumption
    | with_reducible exact Keeps.refl _ _
    | with_reducible refine when_keeps _ ?_ ?_
    | with_reducible refine (clrCfgWrite_keeps ..).step (by decide) ?_
    | with_reducible refine (clrFixed_keeps ..).step (by decide) ?_
    | with_reducible refine (clrTiming_keeps ..).step (by decide) ?_
    | with_reducible refine (clrRes_keeps ..).step (by decide) ?_
    | with_reducible refine (clrCnt_keeps ..).step (by decide) ?_
    | with_reducible refine (State.onClr_keeps ..).step (by decide) ?_
    | with_reducible refine (lnkEnable_keeps ..).step (by decide) ?_
    | with_reducible refine (lnkFixed_keeps ..).step (by decide) ?_
    | with_reducible refine Keeps.ite ?_ ?_
    | split
    | intro _ _ _
    | intro _ _

theorem dmaCtrl_keeps (a1) (s : State) :
    Keeps [.hm, .hif, .dma, .ldg, .fc, .trs] s (dmaCtrl a1 s) := by
  unfold dmaCtrl; try dsimp only
  repeat' first
    | with_reducible assumption
    | with_reducible exact Keeps.refl _ _
    | with_reducible refine when_keeps _ ?_ ?_
    | with_reducible refine (stopStreams_keeps ..).step (by decide) ?_
    | with_reducible refine (dmaClr_keeps ..).step (by decide) ?_
    | intro _ _ _
    | intro _ _

theorem writeDma_keeps (a1 a2) (s : State) :
    Keeps [.hm, .hif, .dma, .ldg, .fc, .trs] s (writeDma a1 a2 s) := by
  unfold writeDma; try dsimp only
  repeat' first
    | with_reducible assumption
    | with_reducible exact Keeps.refl _ _
    | with_reducible refine when_keeps _ ?_ ?_
    | with_reducible refine (State.onDma_keeps ..).step (by decide) ?_
    | with_reducible refine (dmaCtrl_keeps ..).step (by decide) ?_
    | with_reducible refine (ldgClrLost_keeps ..).step (by decide) ?_
    | split
    | intro _ _ _
    | intro _ _

theorem writeAud_keeps (a1 a2) (s : State) :
    Keeps [.aud] s (writeAud a1 a2 s) := by
  unfold writeAud; try dsimp only
  repeat' first
    | with_reducible assumption
    | with_reducible exact Keeps.refl _ _
    | with_reducible refine when_keeps _ ?_ ?_
    | with_reducible refine (audSchedWrite_keeps ..).step (by decide) ?_
    | with_reducible refine (audResOk_keeps ..).step (by decide) ?_
    | with_reducible refine (audClr_keeps ..).step (by decide) ?_
    | with_reducible refine (State.onAud_keeps ..).step (by decide) ?_
    | split
    | intro _ _ _
    | intro _ _

theorem writeEmu_keeps (a1 a2) (s : State) :
    Keeps [.pwr, .tb, .frm, .clk, .sns, .rail, .frec, .loop, .hm, .hif, .dma, .ldg, .tly, .fc, .trs, .syn, .clr, .aud, .free] s (writeEmu a1 a2 s) := by
  unfold writeEmu; try dsimp only
  repeat' first
    | with_reducible exact Keeps.refl _ _
    | with_reducible refine (writeClk_keeps ..).step (by decide) ?_
    | with_reducible refine (writeSns_keeps ..).step (by decide) ?_
    | with_reducible refine (writeRail_keeps ..).step (by decide) ?_
    | with_reducible refine (writeTly_keeps ..).step (by decide) ?_
    | with_reducible refine (writeLoop_keeps ..).step (by decide) ?_
    | with_reducible refine (writeTrs_keeps ..).step (by decide) ?_
    | with_reducible refine (writeFc_keeps ..).step (by decide) ?_
    | with_reducible refine (writeSyn_keeps ..).step (by decide) ?_
    | with_reducible refine (writeClr_keeps ..).step (by decide) ?_
    | with_reducible refine (writeDma_keeps ..).step (by decide) ?_
    | with_reducible refine (writeAud_keeps ..).step (by decide) ?_
    | with_reducible refine Keeps.ite ?_ ?_
    | split


end Sys2Proof.Machine
end

