-- ==== Sys2Proof/Laws/ReadReg.lean ====
section
/-!
SUPPORT. What the operations of Machine/ReadReg.lean may change.
-/
namespace Sys2Proof.Machine

theorem latched_keeps (a1) (s : State) :
    Keeps [.hs] s (latched a1 s) := by
  unfold latched; try dsimp only
  repeat' first
    | with_reducible exact Keeps.refl _ _
    | with_reducible refine (State.onHs_keeps ..).step (by decide) ?_
    | with_reducible refine Keeps.ite ?_ ?_

theorem readDone_keeps (a1) (s : State) :
    Keeps [.hs] s (readDone a1 s) := by
  unfold readDone; try dsimp only
  repeat' first
    | with_reducible exact Keeps.refl _ _
    | with_reducible refine (hsAnswer_keeps ..).step (by decide) ?_
    | with_reducible refine (latched_keeps ..).step (by decide) ?_

theorem digestRead_keeps (s : State) :
    Keeps [.hs] s (digestRead s) := by
  unfold digestRead; try dsimp only
  repeat' first
    | with_reducible exact Keeps.refl _ _
    | with_reducible refine (hsAnswer_keeps ..).step (by decide) ?_
    | with_reducible refine (State.onHs_keeps ..).step (by decide) ?_

theorem hardRead_keeps (a1) (s : State) :
    Keeps [.hm, .hs, .hif, .ldg] s (hardRead a1 s) := by
  unfold hardRead; try dsimp only
  repeat' first
    | with_reducible exact Keeps.refl _ _
    | with_reducible refine (digestRead_keeps ..).step (by decide) ?_
    | with_reducible refine (rec0Read_keeps ..).step (by decide) ?_
    | with_reducible refine (rec7Read_keeps ..).step (by decide) ?_
    | with_reducible refine (readDone_keeps ..).step (by decide) ?_
    | with_reducible refine Keeps.ite ?_ ?_

theorem regRead_keeps (a1) (s : State) :
    Keeps [.hm, .hs, .hif, .ldg] s (regRead a1 s) := by
  unfold regRead; try dsimp only
  repeat' first
    | with_reducible exact Keeps.refl _ _
    | with_reducible refine (hardRead_keeps ..).step (by decide) ?_
    | with_reducible refine (hsAnswer_keeps ..).step (by decide) ?_
    | with_reducible refine (readDone_keeps ..).step (by decide) ?_
    | with_reducible refine Keeps.ite ?_ ?_
    | split


end Sys2Proof.Machine
end

