-- ==== Sys2Proof/Laws/Step.lean ====
section
/-!
SUPPORT. What the operations of Machine/Step.lean may change.
-/
namespace Sys2Proof.Machine

theorem idle_keeps (s : State) : Keeps [.now, .rail] s (idle s) :=
  .ite ((pwmFall_keeps ..).step (by decide) (.of_only (t := { s with now := s.now + 1 })
    ⟨fun p hp => by cases p <;> first | rfl | exact fun _ => List.prefix_rfl | exact absurd (by decide) hp⟩ (by decide)))
    (.refl ..)


end Sys2Proof.Machine
end

