-- ==== Sys2Proof/Laws/Exec.lean ====
section
/-!
SUPPORT. For every command: its meaning answers a next state, and which parts of the state it may change.
-/
namespace Sys2Proof.Machine

variable {ps : List Area} {r s t : State} {f : State → State}

theorem hsHard_keeps (h : Area.hs ∈ ps) (hf : Keeps ps s (f s)) : ∃ t, hsHard f s = .next t ∧ Keeps ps s t :=
  have hh : ∀ p ∈ [Area.hs], p ∈ ps := by simpa using h
  ⟨_, rfl, .ite ((hsAnswer_keeps ..).step hh hf) ((hsAnswer_keeps ..).step hh (.refl ..))⟩

theorem hsEmu_keeps (h : Area.hs ∈ ps) (hf : Keeps ps s (f s)) : ∃ t, hsEmu f s = .next t ∧ Keeps ps s t :=
  have hh : ∀ p ∈ [Area.hs], p ∈ ps := by simpa using h
  ⟨_, rfl, .ite ((hsAnswer_keeps ..).step hh (.refl ..)) (.ite ((hsAnswer_keeps ..).step hh (.refl ..)) ((hsAnswer_keeps ..).step hh hf))⟩

theorem hsHif_keeps (h : Area.hs ∈ ps) (hf : Keeps ps s (f s)) : ∃ t, hsHif f s = .next t ∧ Keeps ps s t :=
  have hh : ∀ p ∈ [Area.hs], p ∈ ps := by simpa using h
  ⟨_, rfl, .ite ((hsAnswer_keeps ..).step hh (.refl ..)) (.ite ((hsAnswer_keeps ..).step hh (.refl ..)) ((hsAnswer_keeps ..).step hh hf))⟩

theorem hsRead_keeps (h : Area.hs ∈ ps) (hf : Keeps ps s (f s)) : ∃ t, hsRead f s = .next t ∧ Keeps ps s t :=
  have hh : ∀ p ∈ [Area.hs], p ∈ ps := by simpa using h
  ⟨_, rfl, .ite hf ((hsAnswer_keeps ..).step hh (.refl ..))⟩

theorem actTest_keeps (hf : Keeps ps s (f s)) : ∃ t, actTest f s = .next t ∧ Keeps ps s t :=
  ⟨_, rfl, .ite hf (.refl ..)⟩

theorem execRefWindowEnd_keeps (a1) (s : State) :
    ∃ t, execRefWindowEnd a1 s = .next t ∧ Keeps [.pwr, .tb, .clk, .loop, .hm, .hif, .ldg, .fw, .trs, .syn, .clr] s t := by
  unfold execRefWindowEnd
  exact act_keeps ((refWindow_keeps ..).step (by decide) (.refl ..))

theorem execRefLoss_keeps (s : State) :
    ∃ t, execRefLoss s = .next t ∧ Keeps [.pwr, .tb, .clk, .loop, .hm, .hif, .ldg, .fw, .trs, .syn, .clr] s t := by
  unfold execRefLoss; refine act_keeps ?_; try dsimp only
  repeat' first
    | with_reducible assumption
    | with_reducible exact Keeps.refl _ _
    | with_reducible refine (refLossCore_keeps ..).step (by decide) ?_
    | with_reducible refine refBreak_keeps ?_ (by decide) ?_
    | intro _ _ _
    | intro _ _

theorem execShortInterval_keeps (s : State) :
    ∃ t, execShortInterval s = .next t ∧ Keeps [.pwr, .tb, .clk, .loop, .hm, .hif, .ldg, .fw, .trs, .syn, .clr] s t := by
  unfold execShortInterval; refine act_keeps ?_; try dsimp only
  repeat' first
    | with_reducible assumption
    | with_reducible exact Keeps.refl _ _
    | with_reducible refine (refLossCore_keeps ..).step (by decide) ?_
    | with_reducible refine refBreak_keeps ?_ (by decide) ?_
    | intro _ _ _
    | intro _ _

theorem execRootReqGo_keeps (a1) (s : State) :
    ∃ t, execRootReqGo a1 s = .next t ∧ Keeps [.clk, .hs] s t := by
  unfold execRootReqGo
  exact hsEmu_keeps (by decide) ((rootReq_keeps ..).step (by decide) (.refl ..))

theorem execRootChangeStart_keeps (s : State) :
    ∃ t, execRootChangeStart s = .next t ∧ Keeps [.clk, .loop, .hm, .hif, .ldg] s t := by
  unfold execRootChangeStart
  exact act_keeps ((rootStart_keeps ..).step (by decide) (.refl ..))

theorem execRootTimebaseMoved_keeps (s : State) :
    ∃ t, execRootTimebaseMoved s = .next t ∧ Keeps [.clk, .loop, .hm, .hif, .ldg] s t := by
  unfold execRootTimebaseMoved
  exact act_keeps ((rootAdvance_keeps ..).step (by decide) (.refl ..))

theorem execRelockRetry_keeps (s : State) :
    ∃ t, execRelockRetry s = .next t ∧ Keeps [.clk, .hm, .hif, .ldg] s t := by
  unfold execRelockRetry
  exact act_keeps ((relockRetry_keeps ..).step (by decide) (.refl ..))

theorem execPllFail_keeps (s : State) :
    ∃ t, execPllFail s = .next t ∧ Keeps [.pwr, .clk, .loop, .hm, .hif, .ldg, .fw, .trs, .syn] s t := by
  unfold execPllFail
  exact act_keeps ((pllFailStep_keeps ..).step (by decide) (.refl ..))

theorem execPllFailRetry_keeps (s : State) :
    ∃ t, execPllFailRetry s = .next t ∧ Keeps [.clk] s t := by
  unfold execPllFailRetry
  exact act_keeps ((pllRetry_keeps ..).step (by decide) (.refl ..))

theorem execLeafAck_keeps (a1) (s : State) :
    ∃ t, execLeafAck a1 s = .next t ∧ Keeps [.pwr, .clk, .sns, .rail, .loop, .hm, .hif, .ldg, .fw, .trs, .syn] s t := by
  unfold execLeafAck
  exact act_keeps ((leafAck_keeps ..).step (by decide) (.refl ..))

theorem execLeafFail_keeps (a1 a2) (s : State) :
    ∃ t, execLeafFail a1 a2 s = .next t ∧ Keeps [.pwr, .clk, .rail, .loop, .hm, .hif, .ldg, .fw, .trs, .syn] s t := by
  unfold execLeafFail
  exact act_keeps ((leafFail_keeps ..).step (by decide) (.refl ..))

theorem execLeafRetry_keeps (a1) (s : State) :
    ∃ t, execLeafRetry a1 s = .next t ∧ Keeps [.clk] s t := by
  unfold execLeafRetry
  exact act_keeps ((leafRetry_keeps ..).step (by decide) (.refl ..))

theorem execLeafRestored_keeps (a1) (s : State) :
    ∃ t, execLeafRestored a1 s = .next t ∧ Keeps [.clk, .loop, .hm, .hif, .ldg] s t := by
  unfold execLeafRestored
  exact act_keeps ((leafRestored_keeps ..).step (by decide) (.refl ..))

theorem execDroopFire_keeps (a1) (s : State) :
    ∃ t, execDroopFire a1 s = .next t ∧ Keeps [.clk, .sns] s t := by
  unfold execDroopFire
  exact act_keeps ((droopFire_keeps ..).step (by decide) (.refl ..))

theorem execExtensionEnd_keeps (a1) (s : State) :
    ∃ t, execExtensionEnd a1 s = .next t ∧ Keeps [.clk] s t := by
  unfold execExtensionEnd
  exact act_keeps ((State.updDom_keeps ..).step (by decide) (.refl ..))

theorem execSiteSample_keeps (a1) (s : State) :
    ∃ t, execSiteSample a1 s = .next t ∧ Keeps [.sns] s t := by
  unfold execSiteSample
  exact act_keeps ((siteSample_keeps ..).step (by decide) (.refl ..))

theorem execSiteResult_keeps (a1 a2) (s : State) :
    ∃ t, execSiteResult a1 a2 s = .next t ∧ Keeps [.pwr, .clk, .sns, .loop, .hm, .hif, .ldg, .aud, .free] s t := by
  unfold execSiteResult
  exact act_keeps ((siteResult_keeps ..).step (by decide) (.refl ..))

theorem execThermTrip_keeps (a1) (s : State) :
    ∃ t, execThermTrip a1 s = .next t ∧ Keeps [.pwr, .clk, .rail, .frec, .loop, .hm, .hif, .ldg, .fw, .fc, .trs, .syn, .aud] s t := by
  unfold execThermTrip
  exact act_keeps ((thermTrip_keeps ..).step (by decide) (.refl ..))

theorem execThermRestartOk_keeps (s : State) :
    ∃ t, execThermRestartOk s = .next t ∧ Keeps [.hm, .hif, .ldg, .aud] s t := by
  unfold execThermRestartOk
  exact act_keeps ((restartOk_keeps ..).step (by decide) (.refl ..))

theorem execRingFail_keeps (a1 a2 a3) (s : State) :
    ∃ t, execRingFail a1 a2 a3 s = .next t ∧ Keeps [.pwr, .clk, .sns, .loop, .hm, .hif, .ldg, .aud] s t := by
  unfold execRingFail
  exact act_keeps ((ringFail_keeps ..).step (by decide) (.refl ..))

theorem execRingRetry_keeps (a1 a2 a3) (s : State) :
    ∃ t, execRingRetry a1 a2 a3 s = .next t ∧ Keeps [.pwr, .clk, .sns, .loop, .hm, .hif, .ldg, .aud] s t := by
  unfold execRingRetry
  exact act_keeps ((ringRetry_keeps ..).step (by decide) (.refl ..))

theorem execRefCompare_keeps (a1 a2 a3) (s : State) :
    ∃ t, execRefCompare a1 a2 a3 s = .next t ∧ Keeps [.pwr, .clk, .sns, .rail, .loop, .hm, .hif, .ldg, .fw, .trs, .syn] s t := by
  unfold execRefCompare
  exact act_keeps ((refCompare_keeps ..).step (by decide) (.refl ..))

theorem execRefBroadcast_keeps (s : State) :
    ∃ t, execRefBroadcast s = .next t ∧ Keeps [.sns] s t := by
  unfold execRefBroadcast
  exact act_keeps ((refBroadcast_keeps ..).step (by decide) (.refl ..))

theorem execDdRead_keeps (a1) (s : State) :
    ∃ t, execDdRead a1 s = .next t ∧ Keeps [.sns] s t := by
  unfold execDdRead
  exact act_keeps ((ddRead_keeps ..).step (by decide) (.refl ..))

theorem execDdTapRewrite_keeps (a1 a2) (s : State) :
    ∃ t, execDdTapRewrite a1 a2 s = .next t ∧ Keeps [.sns, .hm, .hif, .ldg] s t := by
  unfold execDdTapRewrite
  exact act_keeps ((tapRewrite_keeps ..).step (by decide) (.refl ..))

theorem execDdDepthWrite_keeps (a1) (s : State) :
    ∃ t, execDdDepthWrite a1 s = .next t ∧ Keeps [.sns, .hs] s t := by
  unfold execDdDepthWrite
  exact hsEmu_keeps (by decide) ((depthWrite_keeps ..).step (by decide) (.refl ..))

theorem execAmMeasure_keeps (a1 a2) (s : State) :
    ∃ t, execAmMeasure a1 a2 s = .next t ∧ Keeps [.sns, .hm, .hif, .ldg] s t := by
  unfold execAmMeasure
  exact act_keeps ((amMeasure_keeps ..).step (by decide) (.refl ..))

theorem execRailVConversion_keeps (a1 a2 a3) (s : State) :
    ∃ t, execRailVConversion a1 a2 a3 s = .next t ∧ Keeps [.rail, .hm, .hif, .ldg, .free] s t := by
  unfold execRailVConversion
  exact act_keeps ((railVConv_keeps ..).step (by decide) (.refl ..))

theorem execBrakeTimeout_keeps (a1) (s : State) :
    ∃ t, execBrakeTimeout a1 s = .next t ∧ Keeps [.rail, .hm, .hif, .ldg] s t := by
  unfold execBrakeTimeout
  exact act_keeps ((brakeTimeout_keeps ..).step (by decide) (.refl ..))

theorem execCompensatorUpdate_keeps (a1) (s : State) :
    ∃ t, execCompensatorUpdate a1 s = .next t ∧ Keeps [.rail] s t := by
  unfold execCompensatorUpdate
  exact act_keeps ((compensate_keeps ..).step (by decide) (.refl ..))

theorem execPhaseIConversion_keeps (a1 a2 a3) (s : State) :
    ∃ t, execPhaseIConversion a1 a2 a3 s = .next t ∧ Keeps [.sns, .rail, .hm, .hif, .ldg] s t := by
  unfold execPhaseIConversion
  exact act_keeps ((phaseIConv_keeps ..).step (by decide) (.refl ..))

theorem execStageTConversion_keeps (a1 a2) (s : State) :
    ∃ t, execStageTConversion a1 a2 s = .next t ∧ Keeps [.rail, .hm, .hif, .ldg] s t := by
  unfold execStageTConversion
  exact act_keeps ((stageTConv_keeps ..).step (by decide) (.refl ..))

theorem execAutoZero_keeps (a1 a2) (s : State) :
    ∃ t, execAutoZero a1 a2 s = .next t ∧ Keeps [.rail, .hm, .hif, .ldg] s t := by
  unfold execAutoZero
  exact act_keeps ((autoZero_keeps ..).step (by decide) (.refl ..))

theorem execCurrentShareUpdate_keeps (a1) (s : State) :
    ∃ t, execCurrentShareUpdate a1 s = .next t ∧ Keeps [.rail] s t := by
  unfold execCurrentShareUpdate
  exact act_keeps ((shareUpdate_keeps ..).step (by decide) (.refl ..))

theorem execTrimLimit_keeps (a1) (s : State) :
    ∃ t, execTrimLimit a1 s = .next t ∧ Keeps [.rail, .hm, .hif, .ldg] s t := by
  unfold execTrimLimit
  exact act_keeps ((trimLimitRec_keeps ..).step (by decide) (.refl ..))

theorem execShareShift_keeps (a1) (s : State) :
    ∃ t, execShareShift a1 s = .next t ∧ Keeps [.rail] s t := by
  unfold execShareShift
  exact act_keeps ((shareShift_keeps ..).step (by decide) (.refl ..))

theorem execShiftLimit_keeps (a1) (s : State) :
    ∃ t, execShiftLimit a1 s = .next t ∧ Keeps [.rail, .hm, .hif, .ldg] s t := by
  unfold execShiftLimit
  exact act_keeps ((shiftLimitRec_keeps ..).step (by decide) (.refl ..))

theorem execPwmPeriod_keeps (a1) (s : State) :
    ∃ t, execPwmPeriod a1 s = .next t ∧ Keeps [.clk, .rail, .loop, .hm, .hif, .ldg] s t := by
  unfold execPwmPeriod
  exact act_keeps ((pwmStart_keeps ..).step (by decide) (.refl ..))

theorem execZeroCrossing_keeps (a1) (s : State) :
    ∃ t, execZeroCrossing a1 s = .next t ∧ Keeps [.rail] s t := by
  unfold execZeroCrossing
  exact act_keeps ((zeroCross_keeps ..).step (by decide) (.refl ..))

theorem execPhaseRemove_keeps (a1) (s : State) :
    ∃ t, execPhaseRemove a1 s = .next t ∧ Keeps [.rail] s t := by
  unfold execPhaseRemove
  exact act_keeps ((phaseRemove_keeps ..).step (by decide) (.refl ..))

theorem execJoinComplete_keeps (a1) (s : State) :
    ∃ t, execJoinComplete a1 s = .next t ∧ Keeps [.rail] s t := by
  unfold execJoinComplete
  exact act_keeps ((joinDone_keeps ..).step (by decide) (.refl ..))

theorem execVppRampDown_keeps (a1) (s : State) :
    ∃ t, execVppRampDown a1 s = .next t ∧ Keeps [.rail] s t := by
  unfold execVppRampDown
  exact act_keeps ((vppDown_keeps ..).step (by decide) (.refl ..))

theorem execVrefStep_keeps (a1 a2) (s : State) :
    ∃ t, execVrefStep a1 a2 s = .next t ∧ Keeps [.rail] s t := by
  unfold execVrefStep
  exact act_keeps ((vrefStep_keeps ..).step (by decide) (.refl ..))

theorem execVinRead_keeps (a1 a2) (s : State) :
    ∃ t, execVinRead a1 a2 s = .next t ∧ Keeps [.rail, .hm, .hif, .ldg] s t := by
  unfold execVinRead
  exact act_keeps ((vinRead_keeps ..).step (by decide) (.refl ..))

theorem execVinStale_keeps (a1) (s : State) :
    ∃ t, execVinStale a1 s = .next t ∧ Keeps [.rail, .hm, .hif, .ldg] s t := by
  unfold execVinStale
  exact act_keeps ((vinStale_keeps ..).step (by decide) (.refl ..))

theorem execPmbAlert_keeps (a1 a2) (s : State) :
    ∃ t, execPmbAlert a1 a2 s = .next t ∧ Keeps [.rail, .hm, .hif, .ldg] s t := by
  unfold execPmbAlert
  exact act_keeps ((pmbAlert_keeps ..).step (by decide) (.refl ..))

theorem execPmbusTimeout_keeps (a1 a2 a3 a4) (s : State) :
    ∃ t, execPmbusTimeout a1 a2 a3 a4 s = .next t ∧ Keeps [.rail, .hm, .hif, .ldg] s t := by
  unfold execPmbusTimeout
  exact act_keeps ((pmbTimeout_keeps ..).step (by decide) (.refl ..))

theorem execRailVreqGo_keeps (a1) (s : State) :
    ∃ t, execRailVreqGo a1 s = .next t ∧ Keeps [.rail, .hm, .hs, .hif, .ldg] s t := by
  unfold execRailVreqGo
  exact hsEmu_keeps (by decide) ((vreqGo_keeps ..).step (by decide) (.refl ..))

theorem execRailSlewWrite_keeps (a1) (s : State) :
    ∃ t, execRailSlewWrite a1 s = .next t ∧ Keeps [.rail, .hs] s t := by
  unfold execRailSlewWrite
  exact hsEmu_keeps (by decide) ((slewWrite_keeps ..).step (by decide) (.refl ..))

theorem execRailTelClr_keeps (s : State) :
    ∃ t, execRailTelClr s = .next t ∧ Keeps [.rail, .hs] s t := by
  unfold execRailTelClr
  exact hsEmu_keeps (by decide) ((telClr_keeps ..).step (by decide) (.refl ..))

theorem execRailShedWrite_keeps (a1 a2) (s : State) :
    ∃ t, execRailShedWrite a1 a2 s = .next t ∧ Keeps [.rail, .hs] s t := by
  unfold execRailShedWrite
  exact hsEmu_keeps (by decide) ((shedWrite_keeps ..).step (by decide) (.refl ..))

theorem execClearingRound_keeps (s : State) :
    ∃ t, execClearingRound s = .next t ∧ Keeps [.hm, .hif, .ldg, .fc, .trs, .syn, .clr, .aud] s t := by
  unfold execClearingRound
  exact act_keeps ((clrRound_keeps ..).step (by decide) (.refl ..))

theorem execMailboxPoll_keeps (a1 a2) (s : State) :
    ∃ t, execMailboxPoll a1 a2 s = .next t ∧ Keeps [.hm, .hif, .ldg, .trs, .clr] s t := by
  unfold execMailboxPoll
  exact act_keeps ((clrPoll_keeps ..).step (by decide) (.refl ..))

theorem execMsgReread_keeps (a1 a2) (s : State) :
    ∃ t, execMsgReread a1 a2 s = .next t ∧ Keeps [.hm, .hif, .ldg, .trs, .clr] s t := by
  unfold execMsgReread
  exact act_keeps ((clrReread_keeps ..).step (by decide) (.refl ..))

theorem execJoin_keeps (a1 a2) (s : State) :
    ∃ t, execJoin a1 a2 s = .next t ∧ Keeps [.hm, .hif, .ldg, .trs, .clr] s t := by
  unfold execJoin clrMsg; refine act_keeps ?_; try dsimp only
  repeat' first
    | with_reducible exact Keeps.refl _ _
    | with_reducible refine (clrReceive_keeps ..).step (by decide) ?_
    | with_reducible refine Keeps.ite ?_ ?_

theorem execAccept_keeps (a1 a2) (s : State) :
    ∃ t, execAccept a1 a2 s = .next t ∧ Keeps [.hm, .hif, .ldg, .trs, .clr] s t := by
  unfold execAccept clrMsg; refine act_keeps ?_; try dsimp only
  repeat' first
    | with_reducible exact Keeps.refl _ _
    | with_reducible refine (clrReceive_keeps ..).step (by decide) ?_
    | with_reducible refine Keeps.ite ?_ ?_

theorem execStateMsg_keeps (a1 a2) (s : State) :
    ∃ t, execStateMsg a1 a2 s = .next t ∧ Keeps [.hm, .hif, .ldg, .trs, .clr] s t := by
  unfold execStateMsg clrMsg; refine act_keeps ?_; try dsimp only
  repeat' first
    | with_reducible exact Keeps.refl _ _
    | with_reducible refine (clrReceive_keeps ..).step (by decide) ?_
    | with_reducible refine Keeps.ite ?_ ?_

theorem execOffer_keeps (a1 a2) (s : State) :
    ∃ t, execOffer a1 a2 s = .next t ∧ Keeps [.hm, .hif, .ldg, .trs, .clr] s t := by
  unfold execOffer clrMsg; refine act_keeps ?_; try dsimp only
  repeat' first
    | with_reducible exact Keeps.refl _ _
    | with_reducible refine (clrReceive_keeps ..).step (by decide) ?_
    | with_reducible refine Keeps.ite ?_ ?_

theorem execLease_keeps (a1 a2) (s : State) :
    ∃ t, execLease a1 a2 s = .next t ∧ Keeps [.hm, .hif, .ldg, .trs, .clr] s t := by
  unfold execLease clrMsg; refine act_keeps ?_; try dsimp only
  repeat' first
    | with_reducible exact Keeps.refl _ _
    | with_reducible refine (clrReceive_keeps ..).step (by decide) ?_
    | with_reducible refine Keeps.ite ?_ ?_

theorem execReturnMsg_keeps (a1 a2) (s : State) :
    ∃ t, execReturnMsg a1 a2 s = .next t ∧ Keeps [.hm, .hif, .ldg, .trs, .clr] s t := by
  unfold execReturnMsg clrMsg; refine act_keeps ?_; try dsimp only
  repeat' first
    | with_reducible exact Keeps.refl _ _
    | with_reducible refine (clrReceive_keeps ..).step (by decide) ?_
    | with_reducible refine Keeps.ite ?_ ?_

theorem execLeave_keeps (a1 a2) (s : State) :
    ∃ t, execLeave a1 a2 s = .next t ∧ Keeps [.hm, .hif, .ldg, .trs, .clr] s t := by
  unfold execLeave clrMsg; refine act_keeps ?_; try dsimp only
  repeat' first
    | with_reducible exact Keeps.refl _ _
    | with_reducible refine (clrReceive_keeps ..).step (by decide) ?_
    | with_reducible refine Keeps.ite ?_ ?_

theorem execReturnSend_keeps (a1 a2) (s : State) :
    ∃ t, execReturnSend a1 a2 s = .next t ∧ Keeps [.hm, .clr] s t := by
  unfold execReturnSend
  exact act_keeps ((returnSend_keeps ..).step (by decide) (.refl ..))

theorem execBorrowedLeaseExpiry_keeps (a1 a2) (s : State) :
    ∃ t, execBorrowedLeaseExpiry a1 a2 s = .next t ∧ Keeps [.trs, .clr] s t := by
  unfold execBorrowedLeaseExpiry
  exact act_keeps ((borExpire_keeps ..).step (by decide) (.refl ..))

theorem execClrLeaseExpired_keeps (a1 a2) (s : State) :
    ∃ t, execClrLeaseExpired a1 a2 s = .next t ∧ Keeps [.hm, .hif, .ldg, .trs, .clr] s t := by
  unfold execClrLeaseExpired
  exact act_keeps ((lentExpire_keeps ..).step (by decide) (.refl ..))

theorem execAckMiss_keeps (a1) (s : State) :
    ∃ t, execAckMiss a1 s = .next t ∧ Keeps [.clr] s t := by
  unfold execAckMiss
  exact act_keeps ((ackMiss_keeps ..).step (by decide) (.refl ..))

theorem execJoinRetry_keeps (a1) (s : State) :
    ∃ t, execJoinRetry a1 s = .next t ∧ Keeps [.hm, .clr] s t := by
  unfold execJoinRetry
  exact act_keeps ((joinRetry_keeps ..).step (by decide) (.refl ..))

theorem execClrCfgWrite_keeps (a1) (s : State) :
    ∃ t, execClrCfgWrite a1 s = .next t ∧ Keeps [.hm, .hs, .trs, .clr] s t := by
  unfold execClrCfgWrite
  exact hsEmu_keeps (by decide) ((clrCfgWrite_keeps ..).step (by decide) (.refl ..))

theorem execClrLnkEnWrite_keeps (a1) (s : State) :
    ∃ t, execClrLnkEnWrite a1 s = .next t ∧ Keeps [.hm, .hs, .trs, .clr] s t := by
  unfold execClrLnkEnWrite; refine hsEmu_keeps (by decide) ?_; try dsimp only
  repeat' first
    | with_reducible exact Keeps.refl _ _
    | with_reducible refine (clrRes_keeps ..).step (by decide) ?_
    | with_reducible refine (lnkEnable_keeps ..).step (by decide) ?_
    | with_reducible refine Keeps.ite ?_ ?_

theorem execClrCtrlClr_keeps (s : State) :
    ∃ t, execClrCtrlClr s = .next t ∧ Keeps [.hs, .clr] s t := by
  unfold execClrCtrlClr
  exact hsEmu_keeps (by decide) ((clrCnt_keeps ..).step (by decide) (.refl ..))

theorem execDriftMeasurement_keeps (a1) (s : State) :
    ∃ t, execDriftMeasurement a1 s = .next t ∧ Keeps [.pwr, .tb, .clk, .loop, .hm, .hif, .ldg, .fw, .trs, .syn, .clr] s t := by
  unfold execDriftMeasurement
  exact act_keeps ((driftMeasure_keeps ..).step (by decide) (.refl ..))

theorem execAudTest_keeps (a1 a2 a3 a4 a5) (s : State) :
    ∃ t, execAudTest a1 a2 a3 a4 a5 s = .next t ∧ Keeps [.pwr, .clk, .sns, .rail, .loop, .hm, .hif, .ldg, .fw, .tly, .fc, .trs, .clr, .aud] s t := by
  unfold execAudTest; refine act_keeps ?_; try dsimp only
  repeat' first
    | with_reducible exact Keeps.refl _ _
    | with_reducible refine runDesc_keeps (fun u => ?_) (by decide) ..
    | with_reducible refine (bodyAudTest_keeps ..).step (by decide) ?_

theorem execAudRemove_keeps (a1 a2 a3 a4 a5) (s : State) :
    ∃ t, execAudRemove a1 a2 a3 a4 a5 s = .next t ∧ Keeps [.pwr, .clk, .sns, .rail, .loop, .hm, .hif, .ldg, .fw, .tly, .fc, .trs, .clr, .aud] s t := by
  unfold execAudRemove; refine act_keeps ?_; try dsimp only
  repeat' first
    | with_reducible exact Keeps.refl _ _
    | with_reducible refine runDesc_keeps (fun u => ?_) (by decide) ..
    | with_reducible refine (bodyAudRemove_keeps ..).step (by decide) ?_

theorem execAudReturn_keeps (a1 a2 a3) (s : State) :
    ∃ t, execAudReturn a1 a2 a3 s = .next t ∧ Keeps [.pwr, .clk, .sns, .rail, .loop, .hm, .hif, .ldg, .fw, .tly, .fc, .trs, .aud] s t := by
  unfold execAudReturn; refine act_keeps ?_; try dsimp only
  repeat' first
    | with_reducible exact Keeps.refl _ _
    | with_reducible refine runDesc_keeps (fun u => ?_) (by decide) ..
    | with_reducible refine (bodyAudReturn_keeps ..).step (by decide) ?_

theorem execAudTestDone_keeps (a1) (s : State) :
    ∃ t, execAudTestDone a1 s = .next t ∧ Keeps [.pwr, .clk, .sns, .rail, .loop, .hm, .hif, .ldg, .fw, .tly, .fc, .trs, .aud] s t := by
  unfold execAudTestDone
  exact act_keeps ((audDone_keeps ..).step (by decide) (.refl ..))

theorem execAudSchedule_keeps (s : State) :
    ∃ t, execAudSchedule s = .next t ∧ Keeps [.pwr, .clk, .sns, .rail, .loop, .hm, .hif, .ldg, .fw, .tly, .trs, .clr, .aud] s t := by
  unfold execAudSchedule
  exact act_keeps ((audSchedule_keeps ..).step (by decide) (.refl ..))

theorem execAudSchedWrite_keeps (a1) (s : State) :
    ∃ t, execAudSchedWrite a1 s = .next t ∧ Keeps [.hs, .aud] s t := by
  unfold execAudSchedWrite
  exact hsEmu_keeps (by decide) ((audSchedWrite_keeps ..).step (by decide) (.refl ..))

theorem execAudCtrlClr_keeps (s : State) :
    ∃ t, execAudCtrlClr s = .next t ∧ Keeps [.hs, .aud] s t := by
  unfold execAudCtrlClr; refine hsEmu_keeps (by decide) ?_; try dsimp only
  repeat' first
    | with_reducible exact Keeps.refl _ _
    | with_reducible refine (audResOk_keeps ..).step (by decide) ?_
    | with_reducible refine (audClr_keeps ..).step (by decide) ?_

theorem execExtest_keeps (s : State) :
    ∃ t, execExtest s = .next t ∧ Keeps [.hm, .hif, .ldg, .aud] s t := by
  unfold execExtest
  exact actTest_keeps ((tapPads_keeps ..).step (by decide) (.refl ..))

theorem execIdcode_keeps (s : State) :
    ∃ t, execIdcode s = .next t ∧ Keeps [.aud] s t := by
  unfold execIdcode
  exact actTest_keeps ((tapMission_keeps ..).step (by decide) (.refl ..))

theorem execSamplePreload_keeps (s : State) :
    ∃ t, execSamplePreload s = .next t ∧ Keeps [.aud] s t := by
  unfold execSamplePreload
  exact actTest_keeps ((tapMission_keeps ..).step (by decide) (.refl ..))

theorem execClamp_keeps (s : State) :
    ∃ t, execClamp s = .next t ∧ Keeps [.hm, .hif, .ldg, .aud] s t := by
  unfold execClamp
  exact actTest_keeps ((tapPads_keeps ..).step (by decide) (.refl ..))

theorem execHighz_keeps (s : State) :
    ∃ t, execHighz s = .next t ∧ Keeps [.hm, .hif, .ldg, .aud] s t := by
  unfold execHighz
  exact actTest_keeps ((tapPads_keeps ..).step (by decide) (.refl ..))

theorem execBypass_keeps (s : State) :
    ∃ t, execBypass s = .next t ∧ Keeps [.aud] s t := by
  unfold execBypass
  exact actTest_keeps ((tapMission_keeps ..).step (by decide) (.refl ..))

theorem execWsBypass_keeps (s : State) :
    ∃ t, execWsBypass s = .next t ∧ Keeps [.aud] s t := by
  unfold execWsBypass
  exact actTest_keeps ((wrapSafe_keeps ..).step (by decide) (.refl ..))

theorem execWsIdcode_keeps (s : State) :
    ∃ t, execWsIdcode s = .next t ∧ Keeps [.aud] s t := by
  unfold execWsIdcode
  exact actTest_keeps ((wrapSafe_keeps ..).step (by decide) (.refl ..))

theorem execMbistRead_keeps (s : State) :
    ∃ t, execMbistRead s = .next t ∧ Keeps [.aud] s t := by
  unfold execMbistRead
  exact actTest_keeps ((wrapSafe_keeps ..).step (by decide) (.refl ..))

theorem execWsSafe_keeps (s : State) :
    ∃ t, execWsSafe s = .next t ∧ Keeps [.pwr, .clk, .rail, .hm, .hif, .ldg, .aud] s t := by
  unfold execWsSafe
  exact actTest_keeps ((wrapHold_keeps ..).step (by decide) (.refl ..))

theorem execWsExtest_keeps (s : State) :
    ∃ t, execWsExtest s = .next t ∧ Keeps [.pwr, .clk, .rail, .hm, .hif, .ldg, .aud] s t := by
  unfold execWsExtest
  exact actTest_keeps ((wrapHold_keeps ..).step (by decide) (.refl ..))

theorem execWsIntestScan_keeps (s : State) :
    ∃ t, execWsIntestScan s = .next t ∧ Keeps [.pwr, .clk, .rail, .hm, .hif, .ldg, .aud] s t := by
  unfold execWsIntestScan
  exact actTest_keeps ((wrapHold_keeps ..).step (by decide) (.refl ..))

theorem execMbistRun_keeps (s : State) :
    ∃ t, execMbistRun s = .next t ∧ Keeps [.pwr, .clk, .rail, .hm, .hif, .ldg, .aud] s t := by
  unfold execMbistRun
  exact actTest_keeps ((wrapHold_keeps ..).step (by decide) (.refl ..))

theorem execMbistDone_keeps (a1) (s : State) :
    ∃ t, execMbistDone a1 s = .next t ∧ Keeps [.aud] s t := by
  unfold execMbistDone
  exact actTest_keeps ((mbistDone_keeps ..).step (by decide) (.refl ..))

theorem execOdEnd_keeps (s : State) :
    ∃ t, execOdEnd s = .next t ∧ Keeps [.hm, .hif, .ldg, .trs] s t := by
  unfold execOdEnd
  exact act_keeps ((odCheck_keeps ..).step (by decide) (.refl ..))

theorem execLeaseGuard_keeps (a1 a2) (s : State) :
    ∃ t, execLeaseGuard a1 a2 s = .next t ∧ Keeps [.hm, .hif, .ldg, .trs, .clr] s t := by
  unfold execLeaseGuard
  exact act_keeps ((leaseGuard_keeps ..).step (by decide) (.refl ..))

theorem execTrimEvaluate_keeps (s : State) :
    ∃ t, execTrimEvaluate s = .next t ∧ Keeps [.hm, .hif, .ldg, .trs] s t := by
  unfold execTrimEvaluate
  exact act_keeps ((trimEvaluate_keeps ..).step (by decide) (.refl ..))

theorem execCapSet_keeps (a1) (s : State) :
    ∃ t, execCapSet a1 s = .next t ∧ Keeps [.hm, .hs, .hif, .ldg, .trs] s t := by
  unfold execCapSet
  exact hsEmu_keeps (by decide) ((capSet_keeps ..).step (by decide) (.refl ..))

theorem execClrRsn_keeps (s : State) :
    ∃ t, execClrRsn s = .next t ∧ Keeps [.hs, .trs] s t := by
  unfold execClrRsn; refine hsEmu_keeps (by decide) ?_; try dsimp only
  repeat' first
    | with_reducible exact Keeps.refl _ _
    | with_reducible refine (trsRes_keeps ..).step (by decide) ?_
    | with_reducible refine (clrRsn_keeps ..).step (by decide) ?_

theorem execClrOd_keeps (s : State) :
    ∃ t, execClrOd s = .next t ∧ Keeps [.hs, .trs] s t := by
  unfold execClrOd; refine hsEmu_keeps (by decide) ?_; try dsimp only
  repeat' first
    | with_reducible exact Keeps.refl _ _
    | with_reducible refine (trsRes_keeps ..).step (by decide) ?_
    | with_reducible refine (clrOd_keeps ..).step (by decide) ?_

theorem execClrFlt_keeps (s : State) :
    ∃ t, execClrFlt s = .next t ∧ Keeps [.hs, .trs] s t := by
  unfold execClrFlt; refine hsEmu_keeps (by decide) ?_; try dsimp only
  repeat' first
    | with_reducible exact Keeps.refl _ _
    | with_reducible refine (trsRes_keeps ..).step (by decide) ?_
    | with_reducible refine (clrFlt_keeps ..).step (by decide) ?_

theorem execDcPrioWrite_keeps (a1) (s : State) :
    ∃ t, execDcPrioWrite a1 s = .next t ∧ Keeps [.hs, .trs] s t := by
  unfold execDcPrioWrite
  exact hsEmu_keeps (by decide) ((dcPrio_keeps ..).step (by decide) (.refl ..))

theorem execDcFloorWrite_keeps (a1) (s : State) :
    ∃ t, execDcFloorWrite a1 s = .next t ∧ Keeps [.hm, .hs, .hif, .ldg, .trs] s t := by
  unfold execDcFloorWrite
  exact hsEmu_keeps (by decide) ((dcFloor_keeps ..).step (by decide) (.refl ..))

theorem execTxCfgWrite_keeps (a1) (s : State) :
    ∃ t, execTxCfgWrite a1 s = .next t ∧ Keeps [.hm, .hs, .hif, .ldg, .trs] s t := by
  unfold execTxCfgWrite; refine hsEmu_keeps (by decide) ?_; try dsimp only
  repeat' first
    | with_reducible exact Keeps.refl _ _
    | with_reducible refine (txParam_keeps ..).step (by decide) ?_
    | with_reducible refine (trsRes_keeps ..).step (by decide) ?_

theorem execDoorbellWrite_keeps (a1 a2) (s : State) :
    ∃ t, execDoorbellWrite a1 a2 s = .next t ∧ Keeps [.hm, .hs, .hif, .ldg] s t := by
  unfold execDoorbellWrite
  exact hsHard_keeps (by decide) ((doorbell_keeps ..).step (by decide) (.refl ..))

theorem execIrqGap_keeps (a1) (s : State) :
    ∃ t, execIrqGap a1 s = .next t ∧ Keeps [.hm, .hif] s t := by
  unfold execIrqGap
  exact act_keeps ((irqGap_keeps ..).step (by decide) (.refl ..))

theorem execHifNegGo_keeps (s : State) :
    ∃ t, execHifNegGo s = .next t ∧ Keeps [.hm, .hs, .hif, .ldg] s t := by
  unfold execHifNegGo
  exact hsHif_keeps (by decide) ((negGo_keeps ..).step (by decide) (.refl ..))

theorem execC0RingEnWrite_keeps (a1) (s : State) :
    ∃ t, execC0RingEnWrite a1 s = .next t ∧ Keeps [.hm, .hs, .hif, .ldg, .fc, .trs] s t := by
  unfold execC0RingEnWrite
  exact hsHif_keeps (by decide) ((c0RingWrite_keeps ..).step (by decide) (.refl ..))

theorem execHifCtrlClr_keeps (s : State) :
    ∃ t, execHifCtrlClr s = .next t ∧ Keeps [.hs, .hif] s t := by
  unfold execHifCtrlClr
  exact hsHif_keeps (by decide) ((hifClr_keeps ..).step (by decide) (.refl ..))

theorem execNop_keeps (a1) (s : State) :
    ∃ t, execNop a1 s = .next t ∧ Keeps [.hm, .hif, .ldg, .fc, .trs] s t := by
  unfold execNop; refine act_keeps ?_; try dsimp only
  repeat' first
    | with_reducible exact Keeps.refl _ _
    | with_reducible refine runDesc_keeps (fun u => ?_) (by decide) ..
    | with_reducible refine (bodyNop_keeps ..).step (by decide) ?_

theorem execIdentify_keeps (a1) (s : State) :
    ∃ t, execIdentify a1 s = .next t ∧ Keeps [.hm, .hif, .ldg, .fc, .trs] s t := by
  unfold execIdentify; refine act_keeps ?_; try dsimp only
  repeat' first
    | with_reducible exact Keeps.refl _ _
    | with_reducible refine runDesc_keeps (fun u => ?_) (by decide) ..
    | with_reducible refine (bodyIdentify_keeps ..).step (by decide) ?_

theorem execControlStart_keeps (a1 a2) (s : State) :
    ∃ t, execControlStart a1 a2 s = .next t ∧ Keeps [.clk, .rail, .loop, .hm, .hif, .ldg, .fc, .trs] s t := by
  unfold execControlStart; refine act_keeps ?_; try dsimp only
  repeat' first
    | with_reducible exact Keeps.refl _ _
    | with_reducible refine runDesc_keeps (fun u => ?_) (by decide) ..
    | with_reducible refine (controlStart_keeps ..).step (by decide) ?_

theorem execCtxOpen_keeps (a1 a2) (s : State) :
    ∃ t, execCtxOpen a1 a2 s = .next t ∧ Keeps [.hm, .hif, .ldg, .fc, .trs] s t := by
  unfold execCtxOpen; refine act_keeps ?_; try dsimp only
  repeat' first
    | with_reducible exact Keeps.refl _ _
    | with_reducible refine runDesc_keeps (fun u => ?_) (by decide) ..
    | with_reducible refine (bodyCtxOpen_keeps ..).step (by decide) ?_

theorem execCtxClose_keeps (a1 a2) (s : State) :
    ∃ t, execCtxClose a1 a2 s = .next t ∧ Keeps [.hm, .hif, .ldg, .fc, .trs] s t := by
  unfold execCtxClose; refine act_keeps ?_; try dsimp only
  repeat' first
    | with_reducible exact Keeps.refl _ _
    | with_reducible refine runDesc_keeps (fun u => ?_) (by decide) ..
    | with_reducible refine (bodyCtxClose_keeps ..).step (by decide) ?_

theorem execCtxParam_keeps (a1 a2 a3 a4 a5) (s : State) :
    ∃ t, execCtxParam a1 a2 a3 a4 a5 s = .next t ∧ Keeps [.hm, .hif, .ldg, .fc, .trs] s t := by
  unfold execCtxParam; refine act_keeps ?_; try dsimp only
  repeat' first
    | with_reducible exact Keeps.refl _ _
    | with_reducible refine runDesc_keeps (fun u => ?_) (by decide) ..
    | with_reducible refine (bodyCtxParam_keeps ..).step (by decide) ?_

theorem execCtxPlace_keeps (a1 a2 a3) (s : State) :
    ∃ t, execCtxPlace a1 a2 a3 s = .next t ∧ Keeps [.hm, .hif, .ldg, .fc, .trs] s t := by
  unfold execCtxPlace; refine act_keeps ?_; try dsimp only
  repeat' first
    | with_reducible exact Keeps.refl _ _
    | with_reducible refine runDesc_keeps (fun u => ?_) (by decide) ..
    | with_reducible refine (bodyCtxPlace_keeps ..).step (by decide) ?_

theorem execFloorSet_keeps (a1 a2 a3) (s : State) :
    ∃ t, execFloorSet a1 a2 a3 s = .next t ∧ Keeps [.hm, .hif, .ldg, .fc, .trs] s t := by
  unfold execFloorSet; refine act_keeps ?_; try dsimp only
  repeat' first
    | with_reducible exact Keeps.refl _ _
    | with_reducible refine runDesc_keeps (fun u => ?_) (by decide) ..
    | with_reducible refine (bodyFloorSet_keeps ..).step (by decide) ?_

theorem execCtxTelem_keeps (a1 a2 a3) (s : State) :
    ∃ t, execCtxTelem a1 a2 a3 s = .next t ∧ Keeps [.hm, .hif, .ldg, .fc, .trs] s t := by
  unfold execCtxTelem; refine act_keeps ?_; try dsimp only
  repeat' first
    | with_reducible exact Keeps.refl _ _
    | with_reducible refine runDesc_keeps (fun u => ?_) (by decide) ..
    | with_reducible refine (bodyCtxTelem_keeps ..).step (by decide) ?_

theorem execAmBaseline_keeps (a1 a2 a3) (s : State) :
    ∃ t, execAmBaseline a1 a2 a3 s = .next t ∧ Keeps [.sns, .hm, .hif, .ldg, .fc, .trs] s t := by
  unfold execAmBaseline; refine act_keeps ?_; try dsimp only
  repeat' first
    | with_reducible exact Keeps.refl _ _
    | with_reducible refine runDesc_keeps (fun u => ?_) (by decide) ..
    | with_reducible refine (bodyAmBaseline_keeps ..).step (by decide) ?_

theorem execSynSet_keeps (a1 a2 a3 a4) (s : State) :
    ∃ t, execSynSet a1 a2 a3 a4 s = .next t ∧ Keeps [.hm, .ep, .hif, .ldg, .fc, .trs, .syn] s t := by
  unfold execSynSet
  exact act_keeps ((engineReq_keeps ..).step (by decide) (.refl ..))

theorem execSynClear_keeps (a1 a2 a3 a4) (s : State) :
    ∃ t, execSynClear a1 a2 a3 a4 s = .next t ∧ Keeps [.hm, .ep, .hif, .ldg, .fc, .trs, .syn] s t := by
  unfold execSynClear
  exact act_keeps ((engineReq_keeps ..).step (by decide) (.refl ..))

theorem execWaitSet_keeps (a1 a2 a3 a4 a5) (s : State) :
    ∃ t, execWaitSet a1 a2 a3 a4 a5 s = .next t ∧ Keeps [.hm, .ep, .hif, .ldg, .fc, .trs, .syn] s t := by
  unfold execWaitSet
  exact act_keeps ((engineReq_keeps ..).step (by decide) (.refl ..))

theorem execWaitClear_keeps (a1 a2 a3 a4 a5) (s : State) :
    ∃ t, execWaitClear a1 a2 a3 a4 a5 s = .next t ∧ Keeps [.hm, .ep, .hif, .ldg, .fc, .trs, .syn] s t := by
  unfold execWaitClear
  exact act_keeps ((engineReq_keeps ..).step (by decide) (.refl ..))

theorem execSynInc_keeps (a1 a2 a3 a4 a5) (s : State) :
    ∃ t, execSynInc a1 a2 a3 a4 a5 s = .next t ∧ Keeps [.hm, .ep, .hif, .ldg, .fc, .trs, .syn] s t := by
  unfold execSynInc
  exact act_keeps ((engineReq_keeps ..).step (by decide) (.refl ..))

theorem execSynDec_keeps (a1 a2 a3 a4 a5) (s : State) :
    ∃ t, execSynDec a1 a2 a3 a4 a5 s = .next t ∧ Keeps [.hm, .ep, .hif, .ldg, .fc, .trs, .syn] s t := by
  unfold execSynDec
  exact act_keeps ((engineReq_keeps ..).step (by decide) (.refl ..))

theorem execWaitGe_keeps (a1 a2 a3 a4 a5 a6) (s : State) :
    ∃ t, execWaitGe a1 a2 a3 a4 a5 a6 s = .next t ∧ Keeps [.hm, .ep, .hif, .ldg, .fc, .trs, .syn] s t := by
  unfold execWaitGe
  exact act_keeps ((engineReq_keeps ..).step (by decide) (.refl ..))

theorem execBarrierArrive_keeps (a1 a2 a3 a4 a5) (s : State) :
    ∃ t, execBarrierArrive a1 a2 a3 a4 a5 s = .next t ∧ Keeps [.hm, .ep, .hif, .ldg, .fc, .trs, .syn] s t := by
  unfold execBarrierArrive
  exact act_keeps ((engineReq_keeps ..).step (by decide) (.refl ..))

theorem execHintOp_keeps (a1 a2 a3 a4 a5 a6) (s : State) :
    ∃ t, execHintOp a1 a2 a3 a4 a5 a6 s = .next t ∧ Keeps [.hm, .ep, .hif, .ldg, .fc, .trs, .syn] s t := by
  unfold execHintOp
  exact act_keeps ((engineReq_keeps ..).step (by decide) (.refl ..))

theorem execReleaseHint_keeps (a1 a2 a3 a4) (s : State) :
    ∃ t, execReleaseHint a1 a2 a3 a4 s = .next t ∧ Keeps [.hm, .ep, .hif, .ldg, .fc, .trs, .syn] s t := by
  unfold execReleaseHint
  exact act_keeps ((engineReq_keeps ..).step (by decide) (.refl ..))

theorem execMalformedRequest_keeps (a1 a2) (s : State) :
    ∃ t, execMalformedRequest a1 a2 s = .next t ∧ Keeps [.hm, .ep, .hif, .ldg, .fc, .trs, .syn] s t := by
  unfold execMalformedRequest; refine act_keeps ?_; try dsimp only
  repeat' first
    | with_reducible exact Keeps.refl _ _
    | with_reducible refine (epRequest_keeps ..).step (by decide) ?_
    | with_reducible refine Keeps.ite ?_ ?_

theorem execEpResponseTaken_keeps (a1) (s : State) :
    ∃ t, execEpResponseTaken a1 s = .next t ∧ Keeps [.hm, .ep, .hif, .ldg, .fc, .trs, .syn] s t := by
  unfold execEpResponseTaken
  exact act_keeps ((epTaken_keeps ..).step (by decide) (.refl ..))

theorem execSynTimeout_keeps (a1) (s : State) :
    ∃ t, execSynTimeout a1 s = .next t ∧ Keeps [.hm, .ep, .hif, .ldg, .trs, .syn] s t := by
  unfold execSynTimeout
  exact act_keeps ((synTimeout_keeps ..).step (by decide) (.refl ..))

theorem execSynWatchdogFire_keeps (a1) (s : State) :
    ∃ t, execSynWatchdogFire a1 s = .next t ∧ Keeps [.hm, .ep, .hif, .ldg, .trs, .syn] s t := by
  unfold execSynWatchdogFire
  exact act_keeps ((synWatchdog_keeps ..).step (by decide) (.refl ..))

theorem execSynEcc_keeps (a1 a2) (s : State) :
    ∃ t, execSynEcc a1 a2 s = .next t ∧ Keeps [.hm, .ep, .hif, .ldg, .trs, .syn] s t := by
  unfold execSynEcc
  exact act_keeps ((synEcc_keeps ..).step (by decide) (.refl ..))

theorem execEscrowLend_keeps (a1) (s : State) :
    ∃ t, execEscrowLend a1 s = .next t ∧ Keeps [.hm, .hif, .ldg, .syn] s t := by
  unfold execEscrowLend
  exact act_keeps ((escrowLend_keeps ..).step (by decide) (.refl ..))

theorem execSynCtrlClr_keeps (s : State) :
    ∃ t, execSynCtrlClr s = .next t ∧ Keeps [.hs, .syn] s t := by
  unfold execSynCtrlClr
  exact hsEmu_keeps (by decide) ((synCtrlClr_keeps ..).step (by decide) (.refl ..))

theorem execSynCoreCfgWrite_keeps (a1) (s : State) :
    ∃ t, execSynCoreCfgWrite a1 s = .next t ∧ Keeps [.hm, .hs, .hif, .ldg, .trs, .syn] s t := by
  unfold execSynCoreCfgWrite
  exact hsEmu_keeps (by decide) ((synCoreCfg_keeps ..).step (by decide) (.refl ..))

theorem execEscCfgWrite_keeps (a1) (s : State) :
    ∃ t, execEscCfgWrite a1 s = .next t ∧ Keeps [.hm, .hs, .hif, .ldg, .trs, .syn] s t := by
  unfold execEscCfgWrite
  exact hsEmu_keeps (by decide) ((escCfg_keeps ..).step (by decide) (.refl ..))

theorem execHintEvaluate_keeps (a1 a2) (s : State) :
    ∃ t, execHintEvaluate a1 a2 s = .next t ∧ Keeps [.hm, .hif, .ldg, .fc] s t := by
  unfold execHintEvaluate
  exact act_keeps ((hintEval_keeps ..).step (by decide) (.refl ..))

theorem execHintExpire_keeps (a1 a2) (s : State) :
    ∃ t, execHintExpire a1 a2 s = .next t ∧ Keeps [.hm, .hif, .ldg, .fc] s t := by
  unfold execHintExpire
  exact act_keeps ((hintExpire_keeps ..).step (by decide) (.refl ..))

theorem execHintTrustBack_keeps (a1) (s : State) :
    ∃ t, execHintTrustBack a1 s = .next t ∧ Keeps [.hm, .hif, .ldg, .fc] s t := by
  unfold execHintTrustBack
  exact act_keeps ((trustBack_keeps ..).step (by decide) (.refl ..))

theorem execClrAcc_keeps (s : State) :
    ∃ t, execClrAcc s = .next t ∧ Keeps [.hm, .hs, .hif, .ldg, .fc] s t := by
  unfold execClrAcc; refine hsEmu_keeps (by decide) ?_; try dsimp only
  repeat' first
    | with_reducible exact Keeps.refl _ _
    | with_reducible refine (fcResOk_keeps ..).step (by decide) ?_
    | with_reducible refine (clrAcc_keeps ..).step (by decide) ?_

theorem execFcDefault_keeps (s : State) :
    ∃ t, execFcDefault s = .next t ∧ Keeps [.hs, .fc] s t := by
  unfold execFcDefault; refine hsEmu_keeps (by decide) ?_; try dsimp only
  repeat' first
    | with_reducible exact Keeps.refl _ _
    | with_reducible refine (fcResOk_keeps ..).step (by decide) ?_
    | with_reducible refine (fcDefault_keeps ..).step (by decide) ?_

theorem execHintClassSet_keeps (a1 a2 a3) (s : State) :
    ∃ t, execHintClassSet a1 a2 a3 s = .next t ∧ Keeps [.hm, .hs, .hif, .ldg, .fc] s t := by
  unfold execHintClassSet; refine hsEmu_keeps (by decide) ?_; try dsimp only
  repeat' first
    | with_reducible exact Keeps.refl _ _
    | with_reducible refine (hcRes_keeps ..).step (by decide) ?_
    | with_reducible refine (permWrite_keeps ..).step (by decide) ?_
    | with_reducible refine (hcWrite_keeps ..).step (by decide) ?_
    | with_reducible refine Keeps.ite ?_ ?_
    | split

theorem execDmaXfer_keeps (a1 a2 a3) (s : State) :
    ∃ t, execDmaXfer a1 a2 a3 s = .next t ∧ Keeps [.hm, .hif, .dma, .ldg, .fc, .trs] s t := by
  unfold execDmaXfer; refine act_keeps ?_; try dsimp only
  repeat' first
    | with_reducible exact Keeps.refl _ _
    | with_reducible refine runDesc_keeps (fun u => ?_) (by decide) ..
    | with_reducible refine (bodyDmaXfer_keeps ..).step (by decide) ?_

theorem execDmaStreamArm_keeps (a1 a2 a3) (s : State) :
    ∃ t, execDmaStreamArm a1 a2 a3 s = .next t ∧ Keeps [.hm, .hif, .dma, .ldg, .fc, .trs] s t := by
  unfold execDmaStreamArm; refine act_keeps ?_; try dsimp only
  repeat' first
    | with_reducible exact Keeps.refl _ _
    | with_reducible refine runDesc_keeps (fun u => ?_) (by decide) ..
    | with_reducible refine (bodyStreamArm_keeps ..).step (by decide) ?_

theorem execDmaStreamStop_keeps (a1 a2) (s : State) :
    ∃ t, execDmaStreamStop a1 a2 s = .next t ∧ Keeps [.hm, .hif, .dma, .ldg, .fc, .trs] s t := by
  unfold execDmaStreamStop; refine act_keeps ?_; try dsimp only
  repeat' first
    | with_reducible exact Keeps.refl _ _
    | with_reducible refine runDesc_keeps (fun u => ?_) (by decide) ..
    | with_reducible refine (bodyStreamStop_keeps ..).step (by decide) ?_

theorem execDmaTransferDone_keeps (a1 a2 a3 a4 a5) (s : State) :
    ∃ t, execDmaTransferDone a1 a2 a3 a4 a5 s = .next t ∧ Keeps [.hm, .hif, .dma, .ldg, .fc, .trs] s t := by
  unfold execDmaTransferDone
  exact act_keeps ((transferDone_keeps ..).step (by decide) (.refl ..))

theorem execStreamPeriod_keeps (a1) (s : State) :
    ∃ t, execStreamPeriod a1 s = .next t ∧ Keeps [.hm, .hif, .dma, .ldg] s t := by
  unfold execStreamPeriod
  exact act_keeps ((streamPeriod_keeps ..).step (by decide) (.refl ..))

theorem execCaptureSweep_keeps (s : State) :
    ∃ t, execCaptureSweep s = .next t ∧ Keeps [.dma] s t := by
  unfold execCaptureSweep
  exact act_keeps ((captureSweep_keeps ..).step (by decide) (.refl ..))

theorem execDmaCtrlClr_keeps (s : State) :
    ∃ t, execDmaCtrlClr s = .next t ∧ Keeps [.hs, .dma] s t := by
  unfold execDmaCtrlClr
  exact hsEmu_keeps (by decide) ((dmaClr_keeps ..).step (by decide) (.refl ..))

theorem execStopStreams_keeps (s : State) :
    ∃ t, execStopStreams s = .next t ∧ Keeps [.hm, .hs, .hif, .dma, .ldg, .fc, .trs] s t := by
  unfold execStopStreams
  exact hsEmu_keeps (by decide) ((stopStreams_keeps ..).step (by decide) (.refl ..))

theorem execLdgDrain_keeps (a1 a2 a3) (s : State) :
    ∃ t, execLdgDrain a1 a2 a3 s = .next t ∧ Keeps [.hm, .hif, .dma, .ldg, .fc, .trs] s t := by
  unfold execLdgDrain; refine act_keeps ?_; try dsimp only
  repeat' first
    | with_reducible exact Keeps.refl _ _
    | with_reducible refine runDesc_keeps (fun u => ?_) (by decide) ..
    | with_reducible refine (bodyLdgDrain_keeps ..).step (by decide) ?_

theorem execLdgRearm_keeps (a1 a2) (s : State) :
    ∃ t, execLdgRearm a1 a2 s = .next t ∧ Keeps [.hm, .hif, .ldg, .fc, .trs] s t := by
  unfold execLdgRearm; refine act_keeps ?_; try dsimp only
  repeat' first
    | with_reducible exact Keeps.refl _ _
    | with_reducible refine runDesc_keeps (fun u => ?_) (by decide) ..
    | with_reducible refine (bodyLdgRearm_keeps ..).step (by decide) ?_

theorem execFrecCopy_keeps (a1 a2) (s : State) :
    ∃ t, execFrecCopy a1 a2 s = .next t ∧ Keeps [.hm, .hif, .dma, .ldg, .fc, .trs] s t := by
  unfold execFrecCopy; refine act_keeps ?_; try dsimp only
  repeat' first
    | with_reducible exact Keeps.refl _ _
    | with_reducible refine runDesc_keeps (fun u => ?_) (by decide) ..
    | with_reducible refine (bodyFrecCopy_keeps ..).step (by decide) ?_

theorem execLedgerStore_keeps (s : State) :
    ∃ t, execLedgerStore s = .next t ∧ Keeps [.hm, .hif, .ldg, .queues] s t := by
  unfold execLedgerStore
  exact act_keeps ((ldgStore_keeps ..).step (by decide) (.refl ..))

theorem execLdwRec0Read_keeps (a1) (s : State) :
    ∃ t, execLdwRec0Read a1 s = .next t ∧ Keeps [.hm, .hs, .hif, .ldg] s t := by
  unfold execLdwRec0Read
  exact hsRead_keeps (by decide) ((rec0Read_keeps ..).step (by decide) (.refl ..))

theorem execLdwRec7Read_keeps (s : State) :
    ∃ t, execLdwRec7Read s = .next t ∧ Keeps [.hs, .ldg] s t := by
  unfold execLdwRec7Read
  exact hsRead_keeps (by decide) ((rec7Read_keeps ..).step (by decide) (.refl ..))

theorem execLdwCursorWrite_keeps (a1) (s : State) :
    ∃ t, execLdwCursorWrite a1 s = .next t ∧ Keeps [.hs, .ldg] s t := by
  unfold execLdwCursorWrite
  exact hsHard_keeps (by decide) ((State.onLdg_keeps (fun h => ⟨h.1, h.2, h.3, h.4⟩) fun _ => List.prefix_rfl).step (by decide) (.refl ..))

theorem execLdgCtrlClrLost_keeps (s : State) :
    ∃ t, execLdgCtrlClrLost s = .next t ∧ Keeps [.hs, .ldg] s t := by
  unfold execLdgCtrlClrLost
  exact hsEmu_keeps (by decide) ((ldgClrLost_keeps ..).step (by decide) (.refl ..))

theorem execPmbusConfigDone_keeps (a1) (s : State) :
    ∃ t, execPmbusConfigDone a1 s = .next t ∧ Keeps [.clk, .rail, .loop, .hm, .hif, .ldg] s t := by
  unfold execPmbusConfigDone
  exact act_keeps ((pmbusDone_keeps ..).step (by decide) (.refl ..))

theorem execSenseCheck_keeps (a1) (s : State) :
    ∃ t, execSenseCheck a1 s = .next t ∧ Keeps [.clk, .rail, .loop, .hm, .hif, .ldg, .fw, .trs, .syn] s t := by
  unfold execSenseCheck
  exact act_keeps ((senseCheck_keeps ..).step (by decide) (.refl ..))

theorem execPhaseIdentify_keeps (a1 a2 a3 a4 a5) (s : State) :
    ∃ t, execPhaseIdentify a1 a2 a3 a4 a5 s = .next t ∧ Keeps [.clk, .rail, .frec, .loop, .hm, .hif, .ldg, .fw, .fc, .trs, .syn, .aud] s t := by
  unfold execPhaseIdentify
  exact act_keeps ((phaseIdentify_keeps ..).step (by decide) (.refl ..))

theorem execRampStart_keeps (a1) (s : State) :
    ∃ t, execRampStart a1 s = .next t ∧ Keeps [.sns, .rail] s t := by
  unfold execRampStart
  exact act_keeps ((rampStart_keeps ..).step (by decide) (.refl ..))

theorem execReached_keeps (a1) (s : State) :
    ∃ t, execReached a1 s = .next t ∧ Keeps [.clk, .sns, .rail, .loop, .hm, .hif, .ldg] s t := by
  unfold execReached
  exact act_keeps ((railReached_keeps ..).step (by decide) (.refl ..))

theorem execStartTimeout_keeps (a1) (s : State) :
    ∃ t, execStartTimeout a1 s = .next t ∧ Keeps [.clk, .rail, .frec, .loop, .hm, .hif, .ldg, .fw, .trs, .syn] s t := by
  unfold execStartTimeout
  exact act_keeps ((startTimeout_keeps ..).step (by decide) (.refl ..))

theorem execRampDownDone_keeps (a1) (s : State) :
    ∃ t, execRampDownDone a1 s = .next t ∧ Keeps [.clk, .rail, .loop, .hm, .hif, .ldg, .fw, .trs, .syn] s t := by
  unfold execRampDownDone
  exact act_keeps ((rampDownDone_keeps ..).step (by decide) (.refl ..))

theorem execFastStopLevel_keeps (a1) (s : State) :
    ∃ t, execFastStopLevel a1 s = .next t ∧ Keeps [.clk, .rail, .loop, .hm, .hif, .ldg, .fw, .trs, .syn] s t := by
  unfold execFastStopLevel
  exact act_keeps ((fastLevel_keeps ..).step (by decide) (.refl ..))

theorem execOverloadCheck_keeps (a1) (s : State) :
    ∃ t, execOverloadCheck a1 s = .next t ∧ Keeps [.rail, .loop, .hm, .hif, .ldg] s t := by
  unfold execOverloadCheck
  exact act_keeps ((overloadCheck_keeps ..).step (by decide) (.refl ..))

theorem execOverloadShutdown_keeps (a1) (s : State) :
    ∃ t, execOverloadShutdown a1 s = .next t ∧ Keeps [.clk, .rail, .frec, .loop, .hm, .hif, .ldg, .fw, .trs, .syn] s t := by
  unfold execOverloadShutdown
  exact act_keeps ((overloadShutdown_keeps ..).step (by decide) (.refl ..))

theorem execScTrip_keeps (a1) (s : State) :
    ∃ t, execScTrip a1 s = .next t ∧ Keeps [.clk, .rail, .frec, .loop, .hm, .hif, .ldg, .fw, .fc, .trs, .syn, .aud] s t := by
  unfold execScTrip
  exact act_keeps ((scTrip_keeps ..).step (by decide) (.refl ..))

theorem execStageFault_keeps (a1 a2) (s : State) :
    ∃ t, execStageFault a1 a2 s = .next t ∧ Keeps [.clk, .rail, .frec, .loop, .hm, .hif, .ldg, .fw, .fc, .trs, .syn, .aud, .free] s t := by
  unfold execStageFault
  exact act_keeps ((stagePin_keeps ..).step (by decide) (.refl ..))

theorem execPwmReadback_keeps (a1 a2 a3) (s : State) :
    ∃ t, execPwmReadback a1 a2 a3 s = .next t ∧ Keeps [.clk, .rail, .frec, .loop, .hm, .hif, .ldg, .fw, .fc, .trs, .syn, .aud] s t := by
  unfold execPwmReadback
  exact act_keeps ((pwmReadback_keeps ..).step (by decide) (.refl ..))

theorem execOvervoltage_keeps (a1) (s : State) :
    ∃ t, execOvervoltage a1 s = .next t ∧ Keeps [.clk, .rail, .frec, .loop, .hm, .hif, .ldg, .fw, .trs, .syn] s t := by
  unfold execOvervoltage
  exact act_keeps ((overvoltage_keeps ..).step (by decide) (.refl ..))

theorem execUndervoltage_keeps (a1 a2) (s : State) :
    ∃ t, execUndervoltage a1 a2 s = .next t ∧ Keeps [.clk, .rail, .frec, .loop, .hm, .hif, .ldg, .fw, .trs, .syn] s t := by
  unfold execUndervoltage
  exact act_keeps ((undervoltage_keeps ..).step (by decide) (.refl ..))

theorem execCrowbarReleased_keeps (s : State) :
    ∃ t, execCrowbarReleased s = .next t ∧ Keeps [.rail, .hm, .hs, .hif, .ldg] s t := by
  unfold execCrowbarReleased
  exact hsEmu_keeps (by decide) ((crowbarClear_keeps ..).step (by decide) (.refl ..))

theorem execFaultClear_keeps (s : State) :
    ∃ t, execFaultClear s = .next t ∧ Keeps [.rail, .hs] s t := by
  unfold execFaultClear
  exact hsEmu_keeps (by decide) ((faultClear_keeps ..).step (by decide) (.refl ..))

theorem execPhaseFaultClear_keeps (a1) (s : State) :
    ∃ t, execPhaseFaultClear a1 s = .next t ∧ Keeps [.rail, .hs] s t := by
  unfold execPhaseFaultClear
  exact hsEmu_keeps (by decide) ((phaseClear_keeps ..).step (by decide) (.refl ..))

theorem execRailCtrlStart_keeps (a1 a2) (s : State) :
    ∃ t, execRailCtrlStart a1 a2 s = .next t ∧ Keeps [.rail, .hm, .hif, .ldg, .fc, .trs] s t := by
  unfold execRailCtrlStart; refine act_keeps ?_; try dsimp only
  repeat' first
    | with_reducible exact Keeps.refl _ _
    | with_reducible refine runDesc_keeps (fun u => ?_) (by decide) ..
    | with_reducible refine (railCtrlStart_keeps ..).step (by decide) ?_

theorem execRailCtrlStop_keeps (a1 a2) (s : State) :
    ∃ t, execRailCtrlStop a1 a2 s = .next t ∧ Keeps [.clk, .rail, .loop, .hm, .hif, .ldg, .fw, .fc, .trs, .syn] s t := by
  unfold execRailCtrlStop; refine act_keeps ?_; try dsimp only
  repeat' first
    | with_reducible exact Keeps.refl _ _
    | with_reducible refine runDesc_keeps (fun u => ?_) (by decide) ..
    | with_reducible refine (railCtrlStop_keeps ..).step (by decide) ?_

theorem execFrecCommitted_keeps (a1) (s : State) :
    ∃ t, execFrecCommitted a1 s = .next t ∧ Keeps [.pwr, .frec, .hm, .hif, .ldg, .fw] s t := by
  unfold execFrecCommitted
  exact act_keeps ((frecCommit_keeps ..).step (by decide) (.refl ..))

theorem execFrecSlotLoaded_keeps (s : State) :
    ∃ t, execFrecSlotLoaded s = .next t ∧ Keeps [.frec] s t := by
  unfold execFrecSlotLoaded
  exact act_keeps ((frecLoad_keeps ..).step (by decide) (.refl ..))

theorem execSectorEraseDone_keeps (s : State) :
    ∃ t, execSectorEraseDone s = .next t ∧ Keeps [.frec] s t := by
  unfold execSectorEraseDone
  exact act_keeps ((eraseDone_keeps ..).step (by decide) (.refl ..))

theorem execInputPowerFail_keeps (a1) (s : State) :
    ∃ t, execInputPowerFail a1 s = .next t ∧ Keeps [.pwr, .clk, .rail, .frec, .loop, .hm, .hif, .ldg, .fw, .trs, .syn] s t := by
  unfold execInputPowerFail
  exact act_keeps ((boardPin_keeps ..).step (by decide) (.refl ..))

theorem execVanaLoss_keeps (a1) (s : State) :
    ∃ t, execVanaLoss a1 s = .next t ∧ Keeps [.pwr, .clk, .rail, .frec, .loop, .hm, .hif, .ldg, .fw, .trs, .syn] s t := by
  unfold execVanaLoss
  exact act_keeps ((vanaLoss_keeps ..).step (by decide) (.refl ..))

theorem execPllLock_keeps (s : State) :
    ∃ t, execPllLock s = .next t ∧ Keeps [.pwr, .clk, .rail, .loop, .hm, .hif, .ldg] s t := by
  unfold execPllLock
  exact act_keeps ((pllLockStep_keeps ..).step (by decide) (.refl ..))

theorem execTlyInstall_keeps (a1 a2 a3) (s : State) :
    ∃ t, execTlyInstall a1 a2 a3 s = .next t ∧ Keeps [.frm, .hm, .hif, .ldg, .tly, .fc, .trs] s t := by
  unfold execTlyInstall; refine act_keeps ?_; try dsimp only
  repeat' first
    | with_reducible exact Keeps.refl _ _
    | with_reducible refine runDesc_keeps (fun u => ?_) (by decide) ..
    | with_reducible refine (bodyTlyInstall_keeps ..).step (by decide) ?_

theorem execTlyRemove_keeps (a1 a2) (s : State) :
    ∃ t, execTlyRemove a1 a2 s = .next t ∧ Keeps [.hm, .hif, .ldg, .tly, .fc, .trs] s t := by
  unfold execTlyRemove; refine act_keeps ?_; try dsimp only
  repeat' first
    | with_reducible exact Keeps.refl _ _
    | with_reducible refine runDesc_keeps (fun u => ?_) (by decide) ..
    | with_reducible refine (bodyTlyRemove_keeps ..).step (by decide) ?_

theorem execTlySetReg_keeps (a1 a2 a3 a4 a5) (s : State) :
    ∃ t, execTlySetReg a1 a2 a3 a4 a5 s = .next t ∧ Keeps [.hm, .hif, .ldg, .tly, .fc, .trs] s t := by
  unfold execTlySetReg; refine act_keeps ?_; try dsimp only
  repeat' first
    | with_reducible exact Keeps.refl _ _
    | with_reducible refine runDesc_keeps (fun u => ?_) (by decide) ..
    | with_reducible refine (bodyTlySetReg_keeps ..).step (by decide) ?_

theorem execTlySetRemove_keeps (a1 a2) (s : State) :
    ∃ t, execTlySetRemove a1 a2 s = .next t ∧ Keeps [.hm, .hif, .ldg, .tly, .fc, .trs] s t := by
  unfold execTlySetRemove; refine act_keeps ?_; try dsimp only
  repeat' first
    | with_reducible exact Keeps.refl _ _
    | with_reducible refine runDesc_keeps (fun u => ?_) (by decide) ..
    | with_reducible refine (bodyTlySetRemove_keeps ..).step (by decide) ?_

theorem execSlotTable_keeps (a1 a2 a3 a4) (s : State) :
    ∃ t, execSlotTable a1 a2 a3 a4 s = .next t ∧ Keeps [.frm, .hm, .hif, .ldg, .tly, .fc, .trs] s t := by
  unfold execSlotTable; refine act_keeps ?_; try dsimp only
  repeat' first
    | with_reducible exact Keeps.refl _ _
    | with_reducible refine runDesc_keeps (fun u => ?_) (by decide) ..
    | with_reducible refine (bodySlotTable_keeps ..).step (by decide) ?_

theorem execLoopCoef_keeps (a1 a2) (s : State) :
    ∃ t, execLoopCoef a1 a2 s = .next t ∧ Keeps [.loop, .hm, .hif, .ldg, .fc, .trs] s t := by
  unfold execLoopCoef; refine act_keeps ?_; try dsimp only
  repeat' first
    | with_reducible exact Keeps.refl _ _
    | with_reducible refine runDesc_keeps (fun u => ?_) (by decide) ..
    | with_reducible refine (bodyLoopCoef_keeps ..).step (by decide) ?_

theorem execVftLoad_keeps (a1 a2 a3 a4) (s : State) :
    ∃ t, execVftLoad a1 a2 a3 a4 s = .next t ∧ Keeps [.loop, .hm, .hif, .ldg, .fc, .trs] s t := by
  unfold execVftLoad; refine act_keeps ?_; try dsimp only
  repeat' first
    | with_reducible exact Keeps.refl _ _
    | with_reducible refine runDesc_keeps (fun u => ?_) (by decide) ..
    | with_reducible refine (bodyVftLoad_keeps ..).step (by decide) ?_

theorem execHintClassEntry_keeps (a1 a2 a3) (s : State) :
    ∃ t, execHintClassEntry a1 a2 a3 s = .next t ∧ Keeps [.hm, .hif, .ldg, .fc, .trs] s t := by
  unfold execHintClassEntry; refine act_keeps ?_; try dsimp only
  repeat' first
    | with_reducible exact Keeps.refl _ _
    | with_reducible refine runDesc_keeps (fun u => ?_) (by decide) ..
    | with_reducible refine (bodyHintClassEntry_keeps ..).step (by decide) ?_

theorem execHintClassPerm_keeps (a1 a2 a3 a4) (s : State) :
    ∃ t, execHintClassPerm a1 a2 a3 a4 s = .next t ∧ Keeps [.hm, .hif, .ldg, .fc, .trs] s t := by
  unfold execHintClassPerm; refine act_keeps ?_; try dsimp only
  repeat' first
    | with_reducible exact Keeps.refl _ _
    | with_reducible refine runDesc_keeps (fun u => ?_) (by decide) ..
    | with_reducible refine (bodyHintClassPerm_keeps ..).step (by decide) ?_

theorem execSynActSet_keeps (a1 a2) (s : State) :
    ∃ t, execSynActSet a1 a2 s = .next t ∧ Keeps [.hm, .ep, .hif, .ldg, .fc, .trs, .syn] s t := by
  unfold execSynActSet; refine act_keeps ?_; try dsimp only
  repeat' first
    | with_reducible exact Keeps.refl _ _
    | with_reducible refine runDesc_keeps (fun u => ?_) (by decide) ..
    | with_reducible refine (bodySynFlag_keeps ..).step (by decide) ?_

theorem execSynActClear_keeps (a1 a2) (s : State) :
    ∃ t, execSynActClear a1 a2 s = .next t ∧ Keeps [.hm, .ep, .hif, .ldg, .fc, .trs, .syn] s t := by
  unfold execSynActClear; refine act_keeps ?_; try dsimp only
  repeat' first
    | with_reducible exact Keeps.refl _ _
    | with_reducible refine runDesc_keeps (fun u => ?_) (by decide) ..
    | with_reducible refine (bodySynFlag_keeps ..).step (by decide) ?_

theorem execAdjust_keeps (a1 a2 a3) (s : State) :
    ∃ t, execAdjust a1 a2 a3 s = .next t ∧ Keeps [.hm, .ep, .hif, .ldg, .fc, .trs, .syn] s t := by
  unfold execAdjust; refine act_keeps ?_; try dsimp only
  repeat' first
    | with_reducible exact Keeps.refl _ _
    | with_reducible refine runDesc_keeps (fun u => ?_) (by decide) ..
    | with_reducible refine (bodyAdjust_keeps ..).step (by decide) ?_

theorem execReleaseWaiter_keeps (a1 a2) (s : State) :
    ∃ t, execReleaseWaiter a1 a2 s = .next t ∧ Keeps [.hm, .ep, .hif, .ldg, .fc, .trs, .syn] s t := by
  unfold execReleaseWaiter; refine act_keeps ?_; try dsimp only
  repeat' first
    | with_reducible exact Keeps.refl _ _
    | with_reducible refine runDesc_keeps (fun u => ?_) (by decide) ..
    | with_reducible refine (bodyReleaseWaiter_keeps ..).step (by decide) ?_

theorem execFailWaiter_keeps (a1 a2) (s : State) :
    ∃ t, execFailWaiter a1 a2 s = .next t ∧ Keeps [.hm, .ep, .hif, .ldg, .fc, .trs, .syn] s t := by
  unfold execFailWaiter; refine act_keeps ?_; try dsimp only
  repeat' first
    | with_reducible exact Keeps.refl _ _
    | with_reducible refine runDesc_keeps (fun u => ?_) (by decide) ..
    | with_reducible refine (bodyFailWaiter_keeps ..).step (by decide) ?_

theorem execResetWindow_keeps (a1 a2 a3) (s : State) :
    ∃ t, execResetWindow a1 a2 a3 s = .next t ∧ Keeps [.hm, .ep, .hif, .ldg, .fc, .trs, .syn] s t := by
  unfold execResetWindow; refine act_keeps ?_; try dsimp only
  repeat' first
    | with_reducible exact Keeps.refl _ _
    | with_reducible refine runDesc_keeps (fun u => ?_) (by decide) ..
    | with_reducible refine (bodyResetWindow_keeps ..).step (by decide) ?_

theorem execSetKind_keeps (a1 a2 a3) (s : State) :
    ∃ t, execSetKind a1 a2 a3 s = .next t ∧ Keeps [.hm, .hif, .ldg, .fc, .trs, .syn] s t := by
  unfold execSetKind; refine act_keeps ?_; try dsimp only
  repeat' first
    | with_reducible exact Keeps.refl _ _
    | with_reducible refine runDesc_keeps (fun u => ?_) (by decide) ..
    | with_reducible refine (bodySetKind_keeps ..).step (by decide) ?_

theorem execGroupDef_keeps (a1 a2 a3 a4) (s : State) :
    ∃ t, execGroupDef a1 a2 a3 a4 s = .next t ∧ Keeps [.hm, .hif, .ldg, .fc, .trs, .syn] s t := by
  unfold execGroupDef; refine act_keeps ?_; try dsimp only
  repeat' first
    | with_reducible exact Keeps.refl _ _
    | with_reducible refine runDesc_keeps (fun u => ?_) (by decide) ..
    | with_reducible refine (bodyGroupDef_keeps ..).step (by decide) ?_

theorem execSynMap_keeps (a1 a2) (s : State) :
    ∃ t, execSynMap a1 a2 s = .next t ∧ Keeps [.hm, .ep, .hif, .ldg, .fc, .trs, .syn] s t := by
  unfold execSynMap; refine act_keeps ?_; try dsimp only
  repeat' first
    | with_reducible exact Keeps.refl _ _
    | with_reducible refine runDesc_keeps (fun u => ?_) (by decide) ..
    | with_reducible refine (bodySynMap_keeps ..).step (by decide) ?_

theorem execSynRead_keeps (a1 a2 a3) (s : State) :
    ∃ t, execSynRead a1 a2 a3 s = .next t ∧ Keeps [.hm, .hif, .ldg, .fc, .trs] s t := by
  unfold execSynRead; refine act_keeps ?_; try dsimp only
  repeat' first
    | with_reducible exact Keeps.refl _ _
    | with_reducible refine runDesc_keeps (fun u => ?_) (by decide) ..
    | with_reducible refine (bodySynRead_keeps ..).step (by decide) ?_

theorem execClrConfig_keeps (a1 a2) (s : State) :
    ∃ t, execClrConfig a1 a2 s = .next t ∧ Keeps [.hm, .hif, .ldg, .fc, .trs, .clr] s t := by
  unfold execClrConfig; refine act_keeps ?_; try dsimp only
  repeat' first
    | with_reducible exact Keeps.refl _ _
    | with_reducible refine runDesc_keeps (fun u => ?_) (by decide) ..
    | with_reducible refine (bodyClrConfig_keeps ..).step (by decide) ?_

theorem execClrLink_keeps (a1 a2) (s : State) :
    ∃ t, execClrLink a1 a2 s = .next t ∧ Keeps [.hm, .hif, .ldg, .fc, .trs, .clr] s t := by
  unfold execClrLink; refine act_keeps ?_; try dsimp only
  repeat' first
    | with_reducible exact Keeps.refl _ _
    | with_reducible refine runDesc_keeps (fun u => ?_) (by decide) ..
    | with_reducible refine (bodyClrLink_keeps ..).step (by decide) ?_

theorem execPorstNAssert_keeps (a1) (s : State) :
    ∃ t, execPorstNAssert a1 s = .next t ∧ Keeps [.pwr, .clk, .rail, .frec, .loop, .hm, .cp, .hif, .ldg, .fw, .trs, .syn, .free] s t := by
  unfold execPorstNAssert; refine ⟨_, rfl, ?_⟩; try dsimp only
  repeat' first
    | with_reducible assumption
    | with_reducible exact Keeps.refl _ _
    | with_reducible refine pulse_keeps _ _ ?_ (by decide) ?_
    | with_reducible refine (powerHold_keeps ..).step (by decide) ?_
    | with_reducible refine (State.onPwr_keeps ..).step (by decide) ?_
    | intro _ _ _
    | intro _ _

theorem execInternalPowerOnReset_keeps (a1 a2) (s : State) :
    ∃ t, execInternalPowerOnReset a1 a2 s = .next t ∧ Keeps [.pwr, .clk, .rail, .frec, .loop, .hm, .cp, .hif, .ldg, .fw, .trs, .syn] s t := by
  unfold execInternalPowerOnReset; refine ⟨_, rfl, ?_⟩; try dsimp only
  repeat' first
    | with_reducible exact Keeps.refl _ _
    | with_reducible refine (internalReset_keeps ..).step (by decide) ?_

theorem execColdReset_keeps (a1 a2 a3 a4 a5) (s : State) :
    ∃ t, execColdReset a1 a2 a3 a4 a5 s = .next t ∧ Keeps [.now, .pwr, .cfg, .fuse, .tb, .frm, .clk, .sns, .rail, .frec, .loop, .hm, .hs, .ep, .cp, .hif, .dma, .ldg, .fw, .tly, .fc, .trs, .syn, .clr, .aud, .ho, .free, .queues] s t := by
  unfold execColdReset; refine ⟨_, rfl, ?_⟩; try dsimp only
  repeat' first
    | with_reducible exact Keeps.refl _ _
    | with_reducible refine (coldBegin_keeps ..).step (by decide) ?_

theorem execWarmReset_keeps (a1) (s : State) :
    ∃ t, execWarmReset a1 s = .next t ∧ Keeps [.pwr, .tb, .frm, .rail, .frec, .loop, .hm, .hif, .dma, .ldg, .fw, .tly, .fc, .trs, .syn, .clr, .aud, .ho, .free, .queues] s t := by
  unfold execWarmReset; refine act_keeps ?_; try dsimp only
  repeat' first
    | with_reducible assumption
    | with_reducible exact Keeps.refl _ _
    | with_reducible refine pulse_keeps _ _ ?_ (by decide) ?_
    | with_reducible refine (warmReset_keeps ..).step (by decide) ?_
    | with_reducible refine (State.onPwr_keeps ..).step (by decide) ?_
    | intro _ _ _
    | intro _ _

theorem execWrstNRelease_keeps (s : State) :
    ∃ t, execWrstNRelease s = .next t ∧ Keeps [.pwr, .fw] s t := by
  unfold execWrstNRelease; refine act_keeps ?_; try dsimp only
  repeat' first
    | with_reducible exact Keeps.refl _ _
    | with_reducible refine (State.onFw_keeps ..).step (by decide) ?_
    | with_reducible refine (State.onPwr_keeps ..).step (by decide) ?_
    | with_reducible refine Keeps.ite ?_ ?_

theorem execFwBoot_keeps (s : State) :
    ∃ t, execFwBoot s = .next t ∧ Keeps [.pwr, .cfg, .frm, .clk, .frec, .loop, .hm, .hif, .ldg, .fw, .tly, .trs, .syn, .clr, .free] s t := by
  unfold execFwBoot
  exact act_keeps ((fwBoot_keeps ..).step (by decide) (.refl ..))

theorem execWarmResetDesc_keeps (a1 a2) (s : State) :
    ∃ t, execWarmResetDesc a1 a2 s = .next t ∧ Keeps [.pwr, .tb, .frm, .rail, .frec, .loop, .hm, .hif, .dma, .ldg, .fw, .tly, .fc, .trs, .syn, .clr, .aud, .ho, .free, .queues] s t := by
  unfold execWarmResetDesc; refine act_keeps ?_; try dsimp only
  repeat' first
    | with_reducible exact Keeps.refl _ _
    | with_reducible refine runDesc_keeps (fun u => ?_) (by decide) ..
    | with_reducible refine (warmAfter_keeps ..).step (by decide) ?_
    | with_reducible refine (bodyWarmReset_keeps ..).step (by decide) ?_

theorem execFwQuery_keeps (a1) (s : State) :
    ∃ t, execFwQuery a1 s = .next t ∧ Keeps [.hm, .hif, .ldg, .fc, .trs] s t := by
  unfold execFwQuery; refine act_keeps ?_; try dsimp only
  repeat' first
    | with_reducible exact Keeps.refl _ _
    | with_reducible refine runDesc_keeps (fun u => ?_) (by decide) ..
    | with_reducible refine (bodyFwQuery_keeps ..).step (by decide) ?_

theorem execFwStage_keeps (a1 a2 a3) (s : State) :
    ∃ t, execFwStage a1 a2 a3 s = .next t ∧ Keeps [.hm, .hif, .ldg, .fw, .fc, .trs] s t := by
  unfold execFwStage; refine act_keeps ?_; try dsimp only
  repeat' first
    | with_reducible exact Keeps.refl _ _
    | with_reducible refine runDesc_keeps (fun u => ?_) (by decide) ..
    | with_reducible refine (bodyFwStage_keeps ..).step (by decide) ?_

theorem execFwActivateCold_keeps (a1 a2) (s : State) :
    ∃ t, execFwActivateCold a1 a2 s = .next t ∧ Keeps [.pwr, .hm, .hif, .ldg, .fw, .fc, .trs] s t := by
  unfold execFwActivateCold; refine act_keeps ?_; try dsimp only
  repeat' first
    | with_reducible exact Keeps.refl _ _
    | with_reducible refine runDesc_keeps (fun u => ?_) (by decide) ..
    | with_reducible refine (bodyActivate_keeps ..).step (by decide) ?_

theorem execFwActivateWarm_keeps (a1 a2) (s : State) :
    ∃ t, execFwActivateWarm a1 a2 s = .next t ∧ Keeps [.pwr, .tb, .frm, .rail, .frec, .loop, .hm, .hif, .dma, .ldg, .fw, .tly, .fc, .trs, .syn, .clr, .aud, .ho, .free, .queues] s t := by
  unfold execFwActivateWarm; refine act_keeps ?_; try dsimp only
  repeat' first
    | with_reducible exact Keeps.refl _ _
    | with_reducible refine runDesc_keeps (fun u => ?_) (by decide) ..
    | with_reducible refine (warmAfter_keeps ..).step (by decide) ?_
    | with_reducible refine (bodyActivate_keeps ..).step (by decide) ?_

theorem execFwConfirm_keeps (a1 a2) (s : State) :
    ∃ t, execFwConfirm a1 a2 s = .next t ∧ Keeps [.hm, .hif, .ldg, .fw, .fc, .trs] s t := by
  unfold execFwConfirm; refine act_keeps ?_; try dsimp only
  repeat' first
    | with_reducible exact Keeps.refl _ _
    | with_reducible refine runDesc_keeps (fun u => ?_) (by decide) ..
    | with_reducible refine (bodyFwConfirm_keeps ..).step (by decide) ?_

theorem execFwConfigStage_keeps (a1 a2 a3) (s : State) :
    ∃ t, execFwConfigStage a1 a2 a3 s = .next t ∧ Keeps [.hm, .hif, .ldg, .fw, .fc, .trs] s t := by
  unfold execFwConfigStage; refine act_keeps ?_; try dsimp only
  repeat' first
    | with_reducible exact Keeps.refl _ _
    | with_reducible refine runDesc_keeps (fun u => ?_) (by decide) ..
    | with_reducible refine (bodyConfigStage_keeps ..).step (by decide) ?_

theorem execFwSpdm_keeps (a1 a2 a3) (s : State) :
    ∃ t, execFwSpdm a1 a2 a3 s = .next t ∧ Keeps [.hm, .hif, .ldg, .fc, .trs, .free] s t := by
  unfold execFwSpdm; refine act_keeps ?_; try dsimp only
  repeat' first
    | with_reducible exact Keeps.refl _ _
    | with_reducible refine runDesc_keeps (fun u => ?_) (by decide) ..
    | with_reducible refine (bodySpdm_keeps ..).step (by decide) ?_

theorem execFuseIntegratorKey_keeps (a1 a2 a3 a4) (s : State) :
    ∃ t, execFuseIntegratorKey a1 a2 a3 a4 s = .next t ∧ Keeps [.pwr, .hm, .hif, .ldg, .fw, .fc, .trs, .free] s t := by
  unfold execFuseIntegratorKey; refine act_keeps ?_; try dsimp only
  repeat' first
    | with_reducible exact Keeps.refl _ _
    | with_reducible refine runDesc_keeps (fun u => ?_) (by decide) ..
    | with_reducible refine (bodyFuseInt_keeps ..).step (by decide) ?_

theorem execFuseLimitGate_keeps (a1 a2 a3) (s : State) :
    ∃ t, execFuseLimitGate a1 a2 a3 s = .next t ∧ Keeps [.pwr, .hm, .hif, .ldg, .fw, .fc, .trs, .free] s t := by
  unfold execFuseLimitGate; refine act_keeps ?_; try dsimp only
  repeat' first
    | with_reducible exact Keeps.refl _ _
    | with_reducible refine runDesc_keeps (fun u => ?_) (by decide) ..
    | with_reducible refine (bodyFuseGate_keeps ..).step (by decide) ?_

theorem execFuseBootSet_keeps (a1 a2 a3 a4) (s : State) :
    ∃ t, execFuseBootSet a1 a2 a3 a4 s = .next t ∧ Keeps [.pwr, .hm, .hif, .ldg, .fw, .fc, .trs, .free] s t := by
  unfold execFuseBootSet; refine act_keeps ?_; try dsimp only
  repeat' first
    | with_reducible exact Keeps.refl _ _
    | with_reducible refine runDesc_keeps (fun u => ?_) (by decide) ..
    | with_reducible refine (bodyFuseBoot_keeps ..).step (by decide) ?_

theorem execFuseSvn_keeps (a1 a2 a3) (s : State) :
    ∃ t, execFuseSvn a1 a2 a3 s = .next t ∧ Keeps [.pwr, .hm, .hif, .ldg, .fw, .fc, .trs, .free] s t := by
  unfold execFuseSvn; refine act_keeps ?_; try dsimp only
  repeat' first
    | with_reducible exact Keeps.refl _ _
    | with_reducible refine runDesc_keeps (fun u => ?_) (by decide) ..
    | with_reducible refine (bodyFuseSvn_keeps ..).step (by decide) ?_

theorem execFuseRevokeIntegrator_keeps (a1 a2 a3 a4) (s : State) :
    ∃ t, execFuseRevokeIntegrator a1 a2 a3 a4 s = .next t ∧ Keeps [.pwr, .hm, .hif, .ldg, .fw, .fc, .trs, .free] s t := by
  unfold execFuseRevokeIntegrator; refine act_keeps ?_; try dsimp only
  repeat' first
    | with_reducible exact Keeps.refl _ _
    | with_reducible refine runDesc_keeps (fun u => ?_) (by decide) ..
    | with_reducible refine (bodyRevokeInt_keeps ..).step (by decide) ?_

theorem execFuseRevokeKolhidex_keeps (a1 a2 a3 a4) (s : State) :
    ∃ t, execFuseRevokeKolhidex a1 a2 a3 a4 s = .next t ∧ Keeps [.pwr, .hm, .hif, .ldg, .fw, .fc, .trs, .free] s t := by
  unfold execFuseRevokeKolhidex; refine act_keeps ?_; try dsimp only
  repeat' first
    | with_reducible exact Keeps.refl _ _
    | with_reducible refine runDesc_keeps (fun u => ?_) (by decide) ..
    | with_reducible refine (bodyRevokeKol_keeps ..).step (by decide) ?_

theorem execFwTokenNonce_keeps (a1 a2) (s : State) :
    ∃ t, execFwTokenNonce a1 a2 s = .next t ∧ Keeps [.hm, .hif, .ldg, .fw, .fc, .trs, .free] s t := by
  unfold execFwTokenNonce; refine act_keeps ?_; try dsimp only
  repeat' first
    | with_reducible exact Keeps.refl _ _
    | with_reducible refine runDesc_keeps (fun u => ?_) (by decide) ..
    | with_reducible refine (bodyNonce_keeps ..).step (by decide) ?_

theorem execFwTokenUnlock_keeps (a1 a2 a3) (s : State) :
    ∃ t, execFwTokenUnlock a1 a2 a3 s = .next t ∧ Keeps [.hm, .hif, .ldg, .fw, .fc, .trs, .free] s t := by
  unfold execFwTokenUnlock; refine act_keeps ?_; try dsimp only
  repeat' first
    | with_reducible exact Keeps.refl _ _
    | with_reducible refine runDesc_keeps (fun u => ?_) (by decide) ..
    | with_reducible refine (bodyToken_keeps ..).step (by decide) ?_

theorem execZeroiseVolatile_keeps (a1 a2) (s : State) :
    ∃ t, execZeroiseVolatile a1 a2 s = .next t ∧ Keeps [.hm, .hif, .ldg, .fw, .fc, .trs] s t := by
  unfold execZeroiseVolatile; refine act_keeps ?_; try dsimp only
  repeat' first
    | with_reducible exact Keeps.refl _ _
    | with_reducible refine runDesc_keeps (fun u => ?_) (by decide) ..
    | with_reducible refine (bodyZeroVol_keeps ..).step (by decide) ?_

theorem execZeroisePermanent_keeps (a1 a2 a3) (s : State) :
    ∃ t, execZeroisePermanent a1 a2 a3 s = .next t ∧ Keeps [.pwr, .hm, .hif, .ldg, .fw, .fc, .trs, .free] s t := by
  unfold execZeroisePermanent; refine act_keeps ?_; try dsimp only
  repeat' first
    | with_reducible exact Keeps.refl _ _
    | with_reducible refine runDesc_keeps (fun u => ?_) (by decide) ..
    | with_reducible refine (bodyZeroPerm_keeps ..).step (by decide) ?_

theorem execFwLiveUpdate_keeps (a1) (s : State) :
    ∃ t, execFwLiveUpdate a1 s = .next t ∧ Keeps [.hm, .hif, .ldg, .fw, .fc, .trs] s t := by
  unfold execFwLiveUpdate; refine act_keeps ?_; try dsimp only
  repeat' first
    | with_reducible exact Keeps.refl _ _
    | with_reducible refine runDesc_keeps (fun u => ?_) (by decide) ..
    | with_reducible refine (bodyLive_keeps ..).step (by decide) ?_

theorem execLuPrepareDone_keeps (s : State) :
    ∃ t, execLuPrepareDone s = .next t ∧ Keeps [.rail, .loop, .hm, .hif, .ldg, .fw, .fc, .trs, .aud] s t := by
  unfold execLuPrepareDone
  exact act_keeps ((prepareDone_keeps ..).step (by decide) (.refl ..))

theorem execLuHandoffDone_keeps (a1) (s : State) :
    ∃ t, execLuHandoffDone a1 s = .next t ∧ Keeps [.frm, .rail, .loop, .hm, .hif, .ldg, .fw, .tly, .fc, .trs, .syn, .ho] s t := by
  unfold execLuHandoffDone
  exact act_keeps ((handoffDone_keeps ..).step (by decide) (.refl ..))

theorem execFwResumed_keeps (s : State) :
    ∃ t, execFwResumed s = .next t ∧ Keeps [.rail, .loop, .hm, .hif, .ldg, .fw, .fc, .trs, .clr, .ho, .free] s t := by
  unfold execFwResumed
  exact act_keeps ((resumed_keeps ..).step (by decide) (.refl ..))

theorem execFwSelfConfirmed_keeps (s : State) :
    ∃ t, execFwSelfConfirmed s = .next t ∧ Keeps [.hm, .hif, .ldg, .fw, .fc, .trs, .ho] s t := by
  unfold execFwSelfConfirmed
  exact act_keeps ((selfConfirmed_keeps ..).step (by decide) (.refl ..))

theorem execFwRollback_keeps (s : State) :
    ∃ t, execFwRollback s = .next t ∧ Keeps [.frm, .rail, .loop, .hm, .hif, .ldg, .fw, .tly, .fc, .trs, .syn] s t := by
  unfold execFwRollback
  exact act_keeps ((rollbackDue_keeps ..).step (by decide) (.refl ..))

theorem execFwVfuseAlarm_keeps (a1) (s : State) :
    ∃ t, execFwVfuseAlarm a1 s = .next t ∧ Keeps [.pwr, .hm, .hif, .ldg, .fw] s t := by
  unfold execFwVfuseAlarm
  exact act_keeps ((vfuseAlarm_keeps ..).step (by decide) (.refl ..))

theorem execFwCoreHang_keeps (a1) (s : State) :
    ∃ t, execFwCoreHang a1 s = .next t ∧ Keeps [.pwr, .tb, .frm, .clk, .sns, .rail, .frec, .loop, .hm, .hif, .dma, .ldg, .fw, .tly, .fc, .trs, .syn, .clr, .aud, .ho, .free, .queues] s t := by
  unfold execFwCoreHang
  exact act_keeps ((coreHang_keeps ..).step (by decide) (.refl ..))

theorem execFwCoreBack_keeps (a1) (s : State) :
    ∃ t, execFwCoreBack a1 s = .next t ∧ Keeps [.loop, .hm, .hif, .ldg, .fw] s t := by
  unfold execFwCoreBack
  exact act_keeps ((coreBack_keeps ..).step (by decide) (.refl ..))

theorem execFwVaultRestart_keeps (a1) (s : State) :
    ∃ t, execFwVaultRestart a1 s = .next t ∧ Keeps [.pwr, .hm, .hif, .ldg, .fw, .fc, .trs, .ho] s t := by
  unfold execFwVaultRestart
  exact act_keeps ((vaultHang_keeps ..).step (by decide) (.refl ..))

theorem execVaultReady_keeps (s : State) :
    ∃ t, execVaultReady s = .next t ∧ Keeps [.fw] s t := by
  unfold execVaultReady
  exact act_keeps ((vaultReady_keeps ..).step (by decide) (.refl ..))

theorem execFwSelftestFail_keeps (a1) (s : State) :
    ∃ t, execFwSelftestFail a1 s = .next t ∧ Keeps [.pwr, .hm, .hif, .ldg, .fw] s t := by
  unfold execFwSelftestFail; refine act_keeps ?_; try dsimp only
  repeat' first
    | with_reducible exact Keeps.refl _ _
    | with_reducible refine (vaultError_keeps ..).step (by decide) ?_

theorem execEnterLp_keeps (a1) (s : State) :
    ∃ t, execEnterLp a1 s = .next t ∧ Keeps [.hm, .hif, .ldg, .fw, .queues] s t := by
  unfold execEnterLp
  exact act_keeps ((enterLp_keeps ..).step (by decide) (.refl ..))

theorem execExitLp_keeps (a1) (s : State) :
    ∃ t, execExitLp a1 s = .next t ∧ Keeps [.clk, .loop, .hm, .hif, .ldg, .fw] s t := by
  unfold execExitLp
  exact act_keeps ((exitLp_keeps ..).step (by decide) (.refl ..))

theorem execDescriptorFetch_keeps (a1 a2 a3) (s : State) :
    ∃ t, execDescriptorFetch a1 a2 a3 s = .next t ∧ Keeps [.pwr, .tb, .frm, .clk, .sns, .rail, .frec, .loop, .hm, .ep, .hif, .dma, .ldg, .fw, .tly, .fc, .trs, .syn, .clr, .aud, .ho, .free, .queues] s t := by
  unfold execDescriptorFetch
  exact act_keeps ((fetch_keeps ..).step (by decide) (.refl ..))

theorem execFetchRetry_keeps (a1 a2 a3) (s : State) :
    ∃ t, execFetchRetry a1 a2 a3 s = .next t ∧ Keeps [.pwr, .tb, .frm, .clk, .sns, .rail, .frec, .loop, .hm, .ep, .hif, .dma, .ldg, .fw, .tly, .fc, .trs, .syn, .clr, .aud, .ho, .free, .queues] s t := by
  unfold execFetchRetry
  exact act_keeps ((fetchRetry_keeps ..).step (by decide) (.refl ..))

theorem execFrameStart_keeps (a1) (s : State) :
    ∃ t, execFrameStart a1 s = .next t ∧ Keeps [.pwr, .tb, .frm, .clk, .sns, .rail, .loop, .hm, .hif, .ldg, .fw, .tly, .fc, .trs, .syn, .clr] s t := by
  unfold execFrameStart
  exact act_keeps ((frameStart_keeps ..).step (by decide) (.refl ..))

theorem execFrameCommit_keeps (s : State) :
    ∃ t, execFrameCommit s = .next t ∧ Keeps [.pwr, .frm, .clk, .sns, .rail, .loop, .hm, .hif, .dma, .ldg, .fw, .tly, .fc, .trs, .syn, .clr] s t := by
  unfold execFrameCommit
  exact act_keeps ((frameCommit_keeps ..).step (by decide) (.refl ..))

theorem execSlotStart_keeps (a1) (s : State) :
    ∃ t, execSlotStart a1 s = .next t ∧ Keeps [.frm] s t := by
  unfold execSlotStart
  exact act_keeps ((slotStart_keeps ..).step (by decide) (.refl ..))

theorem execSlotComplete_keeps (a1) (s : State) :
    ∃ t, execSlotComplete a1 s = .next t ∧ Keeps [.pwr, .frm, .loop, .hm, .hif, .ldg, .fw, .tly, .fc, .trs, .free] s t := by
  unfold execSlotComplete
  exact act_keeps ((slotComplete_keeps ..).step (by decide) (.refl ..))

theorem execSlotMiss_keeps (a1) (s : State) :
    ∃ t, execSlotMiss a1 s = .next t ∧ Keeps [.frm, .hm, .hif, .ldg] s t := by
  unfold execSlotMiss
  exact act_keeps ((slotMiss_keeps ..).step (by decide) (.refl ..))

theorem execLoopBackstop_keeps (a1) (s : State) :
    ∃ t, execLoopBackstop a1 s = .next t ∧ Keeps [.frm, .loop, .hm, .hif, .ldg] s t := by
  unfold execLoopBackstop
  exact act_keeps ((loopBackstop_keeps ..).step (by decide) (.refl ..))

theorem execLoopBackstopEnd_keeps (a1) (s : State) :
    ∃ t, execLoopBackstopEnd a1 s = .next t ∧ Keeps [.frm, .loop, .hm, .hif, .ldg] s t := by
  unfold execLoopBackstopEnd
  exact act_keeps ((backstopEnd_keeps ..).step (by decide) (.refl ..))

theorem execShed_keeps (s : State) :
    ∃ t, execShed s = .next t ∧ Keeps [.frm, .hm, .hif, .ldg] s t := by
  unfold execShed
  exact act_keeps ((shedDue_keeps ..).step (by decide) (.refl ..))

theorem execRestore_keeps (s : State) :
    ∃ t, execRestore s = .next t ∧ Keeps [.frm, .hm, .hif, .ldg] s t := by
  unfold execRestore
  exact act_keeps ((restoreDue_keeps ..).step (by decide) (.refl ..))

theorem execShedFloorWrite_keeps (a1) (s : State) :
    ∃ t, execShedFloorWrite a1 s = .next t ∧ Keeps [.frm, .hs] s t := by
  unfold execShedFloorWrite
  exact hsEmu_keeps (by decide) ((State.onFrm_keeps ..).step (by decide) (.refl ..))

theorem execHostRestore_keeps (s : State) :
    ∃ t, execHostRestore s = .next t ∧ Keeps [.frm, .hs] s t := by
  unfold execHostRestore
  exact hsEmu_keeps (by decide) ((State.onFrm_keeps ..).step (by decide) (.refl ..))

theorem execClrMin_keeps (s : State) :
    ∃ t, execClrMin s = .next t ∧ Keeps [.tb, .frm, .hs] s t := by
  unfold execClrMin
  exact hsEmu_keeps (by decide) ((clrMin_keeps ..).step (by decide) (.refl ..))

theorem execCeilingUpdate_keeps (s : State) :
    ∃ t, execCeilingUpdate s = .next t ∧ Keeps [.loop, .cp] s t := by
  unfold execCeilingUpdate; refine act_keeps ?_; try dsimp only
  repeat' first
    | with_reducible assumption
    | with_reducible exact Keeps.refl _ _
    | with_reducible refine forList_keeps _ ?_ ?_
    | with_reducible refine (ceilUpdate_keeps ..).step (by decide) ?_
    | intro _ _ _
    | intro _ _

theorem execCpAck_keeps (a1 a2 a3 a4) (s : State) :
    ∃ t, execCpAck a1 a2 a3 a4 s = .next t ∧ Keeps [.clk, .loop, .hm, .cp, .hif, .ldg] s t := by
  unfold execCpAck; refine act_keeps ?_; try dsimp only
  repeat' first
    | with_reducible exact Keeps.refl _ _
    | with_reducible refine (cpAck_keeps ..).step (by decide) ?_
    | with_reducible refine Keeps.ite ?_ ?_

theorem execCpLate_keeps (a1) (s : State) :
    ∃ t, execCpLate a1 s = .next t ∧ Keeps [.clk, .loop, .hm, .cp, .hif, .ldg] s t := by
  unfold execCpLate
  exact act_keeps ((cpExpire_keeps ..).step (by decide) (.refl ..))

theorem execLoopSaturated_keeps (a1 a2) (s : State) :
    ∃ t, execLoopSaturated a1 a2 s = .next t ∧ Keeps [.pwr, .loop, .hm, .hif, .ldg] s t := by
  unfold execLoopSaturated
  exact act_keeps ((saturated_keeps ..).step (by decide) (.refl ..))

theorem execLoopClModeGo_keeps (a1) (s : State) :
    ∃ t, execLoopClModeGo a1 s = .next t ∧ Keeps [.loop, .hs] s t := by
  unfold execLoopClModeGo
  exact hsEmu_keeps (by decide) ((modeGo_keeps ..).step (by decide) (.refl ..))

theorem execLoopTgtWrite_keeps (a1) (s : State) :
    ∃ t, execLoopTgtWrite a1 s = .next t ∧ Keeps [.loop, .hs] s t := by
  unfold execLoopTgtWrite
  exact hsEmu_keeps (by decide) ((tgtWrite_keeps ..).step (by decide) (.refl ..))

theorem execFbForceWrite_keeps (a1) (s : State) :
    ∃ t, execFbForceWrite a1 s = .next t ∧ Keeps [.pwr, .loop, .hm, .hs, .hif, .ldg] s t := by
  unfold execFbForceWrite
  exact hsEmu_keeps (by decide) ((supSatWrite_keeps ..).step (by decide) (.refl ..))

theorem execClrLatch_keeps (s : State) :
    ∃ t, execClrLatch s = .next t ∧ Keeps [.loop, .hs] s t := by
  unfold execClrLatch; refine hsEmu_keeps (by decide) ?_; try dsimp only
  repeat' first
    | with_reducible exact Keeps.refl _ _
    | with_reducible refine (loopRes_keeps ..).step (by decide) ?_
    | with_reducible refine (clrLatch_keeps ..).step (by decide) ?_
    | split

theorem execHsPortReset_keeps (s : State) :
    ∃ t, execHsPortReset s = .next t ∧ Keeps [.hs] s t := by
  unfold execHsPortReset; refine ⟨_, rfl, ?_⟩; try dsimp only
  repeat' first
    | with_reducible exact Keeps.refl _ _
    | with_reducible refine (State.onHs_keeps ..).step (by decide) ?_

theorem execHmResponse_keeps (a1 a2 a3) (s : State) :
    ∃ t, execHmResponse a1 a2 a3 s = .next t ∧ Keeps [.hm, .hif, .dma, .ldg, .tly, .fc, .trs] s t := by
  unfold execHmResponse
  exact act_keeps ((hmResponse_keeps ..).step (by decide) (.refl ..))

theorem execHmTimeout_keeps (a1) (s : State) :
    ∃ t, execHmTimeout a1 s = .next t ∧ Keeps [.hm, .hif, .dma, .ldg, .tly, .fc, .trs] s t := by
  unfold execHmTimeout
  exact act_keeps ((hmTimeout_keeps ..).step (by decide) (.refl ..))

theorem execHmTagRelease_keeps (a1) (s : State) :
    ∃ t, execHmTagRelease a1 s = .next t ∧ Keeps [.hm] s t := by
  unfold execHmTagRelease
  exact act_keeps ((hmTagRelease_keeps ..).step (by decide) (.refl ..))

theorem execHmPortReset_keeps (s : State) :
    ∃ t, execHmPortReset s = .next t ∧ Keeps [.hm, .hif, .dma, .ldg, .tly, .fc, .trs] s t := by
  unfold execHmPortReset
  exact act_keeps ((hmPortReset_keeps ..).step (by decide) (.refl ..))

theorem execHmRstNRelease_keeps (s : State) :
    ∃ t, execHmRstNRelease s = .next t ∧ Keeps [.hm] s t := by
  unfold execHmRstNRelease
  exact act_keeps ((hmRelease_keeps ..).step (by decide) (.refl ..))

theorem execTlyCubeErr_keeps (a1 a2 a3) (s : State) :
    ∃ t, execTlyCubeErr a1 a2 a3 s = .next t ∧ Keeps [.frm, .hm, .hif, .ldg, .tly] s t := by
  unfold execTlyCubeErr
  exact act_keeps ((cubeErr_keeps ..).step (by decide) (.refl ..))

theorem execTlyStoreEcc_keeps (a1 a2 a3 a4) (s : State) :
    ∃ t, execTlyStoreEcc a1 a2 a3 a4 s = .next t ∧ Keeps [.frm, .hm, .hif, .ldg, .tly] s t := by
  unfold execTlyStoreEcc; refine act_keeps ?_; try dsimp only
  repeat' first
    | with_reducible exact Keeps.refl _ _
    | with_reducible refine (State.onTly_keeps ..).step (by decide) ?_
    | with_reducible refine (storeErr_keeps ..).step (by decide) ?_
    | with_reducible refine Keeps.ite ?_ ?_

theorem execClrSat_keeps (s : State) :
    ∃ t, execClrSat s = .next t ∧ Keeps [.hs, .tly] s t := by
  unfold execClrSat
  exact hsEmu_keeps (by decide) ((clrSat_keeps ..).step (by decide) (.refl ..))

theorem execPageLanded_keeps (s : State) :
    ∃ t, execPageLanded s = .next t ∧ Keeps [.hm, .hif, .ldg, .tly] s t := by
  unfold execPageLanded
  exact act_keeps ((pageCheck_keeps ..).step (by decide) (.refl ..))

theorem execLimAlarmClear_keeps (a1) (s : State) :
    ∃ t, execLimAlarmClear a1 s = .next t ∧ Keeps [.pwr, .sns, .hm, .hs, .hif, .ldg] s t := by
  unfold execLimAlarmClear
  exact hsHard_keeps (by decide) ((limAlarm_keeps ..).step (by decide) (.refl ..))

theorem execRegisterWrite_keeps (a1 a2) (s : State) :
    ∃ t, execRegisterWrite a1 a2 s = .next t ∧ Keeps [.pwr, .tb, .frm, .clk, .sns, .rail, .frec, .loop, .hm, .hs, .hif, .dma, .ldg, .fw, .tly, .fc, .trs, .syn, .clr, .aud, .free] s t := by
  unfold execRegisterWrite regWrite
  split
  · exact ⟨_, rfl, (hsAnswer_keeps ..).step (by decide) (.refl ..)⟩
  split
  · exact hsHard_keeps (by decide) ((writeHard_keeps ..).step (by decide) (.refl ..))
  split
  · exact hsHif_keeps (by decide) ((writeHif_keeps ..).step (by decide) (.refl ..))
  split
  · exact hsHif_keeps (by decide) ((writeFw_keeps ..).step (by decide) (.refl ..))
  · exact hsEmu_keeps (by decide) ((writeEmu_keeps ..).step (by decide) (.refl ..))

theorem execLoReadLatch_keeps (a1) (s : State) :
    ∃ t, execLoReadLatch a1 s = .next t ∧ Keeps [.hm, .hs, .hif, .ldg] s t := by
  unfold execLoReadLatch; refine ⟨_, rfl, ?_⟩; try dsimp only
  repeat' first
    | with_reducible exact Keeps.refl _ _
    | with_reducible refine (regRead_keeps ..).step (by decide) ?_

theorem execDigest0Read_keeps (s : State) :
    ∃ t, execDigest0Read s = .next t ∧ Keeps [.hs] s t := by
  unfold execDigest0Read
  exact hsRead_keeps (by decide) ((digestRead_keeps ..).step (by decide) (.refl ..))

end Sys2Proof.Machine
end

