-- ==== Sys2Proof/Laws/State.lean ====
section
/-!
SUPPORT. The parts of the state after each plain update: the part updated, every other part unchanged, and the entry of a
numbered store that was changed.
-/
namespace Sys2Proof.Machine

section Parts
variable (s : State)

@[simp] theorem State.onPwr_now (f : Power → Power) : (s.onPwr f).now = s.now := rfl
@[simp] theorem State.onPwr_pwr (f : Power → Power) : (s.onPwr f).pwr = f s.pwr := rfl
@[simp] theorem State.onPwr_cfg (f : Power → Power) : (s.onPwr f).cfg = s.cfg := rfl
@[simp] theorem State.onPwr_fuse (f : Power → Power) : (s.onPwr f).fuse = s.fuse := rfl
@[simp] theorem State.onPwr_tb (f : Power → Power) : (s.onPwr f).tb = s.tb := rfl
@[simp] theorem State.onPwr_frm (f : Power → Power) : (s.onPwr f).frm = s.frm := rfl
@[simp] theorem State.onPwr_clk (f : Power → Power) : (s.onPwr f).clk = s.clk := rfl
@[simp] theorem State.onPwr_sns (f : Power → Power) : (s.onPwr f).sns = s.sns := rfl
@[simp] theorem State.onPwr_rail (f : Power → Power) : (s.onPwr f).rail = s.rail := rfl
@[simp] theorem State.onPwr_frec (f : Power → Power) : (s.onPwr f).frec = s.frec := rfl
@[simp] theorem State.onPwr_loop (f : Power → Power) : (s.onPwr f).loop = s.loop := rfl
@[simp] theorem State.onPwr_hm (f : Power → Power) : (s.onPwr f).hm = s.hm := rfl
@[simp] theorem State.onPwr_hs (f : Power → Power) : (s.onPwr f).hs = s.hs := rfl
@[simp] theorem State.onPwr_ep (f : Power → Power) : (s.onPwr f).ep = s.ep := rfl
@[simp] theorem State.onPwr_cp (f : Power → Power) : (s.onPwr f).cp = s.cp := rfl
@[simp] theorem State.onPwr_hif (f : Power → Power) : (s.onPwr f).hif = s.hif := rfl
@[simp] theorem State.onPwr_dma (f : Power → Power) : (s.onPwr f).dma = s.dma := rfl
@[simp] theorem State.onPwr_ldg (f : Power → Power) : (s.onPwr f).ldg = s.ldg := rfl
@[simp] theorem State.onPwr_fw (f : Power → Power) : (s.onPwr f).fw = s.fw := rfl
@[simp] theorem State.onPwr_tly (f : Power → Power) : (s.onPwr f).tly = s.tly := rfl
@[simp] theorem State.onPwr_fc (f : Power → Power) : (s.onPwr f).fc = s.fc := rfl
@[simp] theorem State.onPwr_trs (f : Power → Power) : (s.onPwr f).trs = s.trs := rfl
@[simp] theorem State.onPwr_syn (f : Power → Power) : (s.onPwr f).syn = s.syn := rfl
@[simp] theorem State.onPwr_clr (f : Power → Power) : (s.onPwr f).clr = s.clr := rfl
@[simp] theorem State.onPwr_aud (f : Power → Power) : (s.onPwr f).aud = s.aud := rfl
@[simp] theorem State.onPwr_ho (f : Power → Power) : (s.onPwr f).ho = s.ho := rfl
@[simp] theorem State.onPwr_free (f : Power → Power) : (s.onPwr f).free = s.free := rfl
@[simp] theorem State.onPwr_pending (f : Power → Power) : (s.onPwr f).pending = s.pending := rfl

@[simp] theorem State.onCfg_now (f : Cfg → Cfg) : (s.onCfg f).now = s.now := rfl
@[simp] theorem State.onCfg_pwr (f : Cfg → Cfg) : (s.onCfg f).pwr = s.pwr := rfl
@[simp] theorem State.onCfg_cfg (f : Cfg → Cfg) : (s.onCfg f).cfg = f s.cfg := rfl
@[simp] theorem State.onCfg_fuse (f : Cfg → Cfg) : (s.onCfg f).fuse = s.fuse := rfl
@[simp] theorem State.onCfg_tb (f : Cfg → Cfg) : (s.onCfg f).tb = s.tb := rfl
@[simp] theorem State.onCfg_frm (f : Cfg → Cfg) : (s.onCfg f).frm = s.frm := rfl
@[simp] theorem State.onCfg_clk (f : Cfg → Cfg) : (s.onCfg f).clk = s.clk := rfl
@[simp] theorem State.onCfg_sns (f : Cfg → Cfg) : (s.onCfg f).sns = s.sns := rfl
@[simp] theorem State.onCfg_rail (f : Cfg → Cfg) : (s.onCfg f).rail = s.rail := rfl
@[simp] theorem State.onCfg_frec (f : Cfg → Cfg) : (s.onCfg f).frec = s.frec := rfl
@[simp] theorem State.onCfg_loop (f : Cfg → Cfg) : (s.onCfg f).loop = s.loop := rfl
@[simp] theorem State.onCfg_hm (f : Cfg → Cfg) : (s.onCfg f).hm = s.hm := rfl
@[simp] theorem State.onCfg_hs (f : Cfg → Cfg) : (s.onCfg f).hs = s.hs := rfl
@[simp] theorem State.onCfg_ep (f : Cfg → Cfg) : (s.onCfg f).ep = s.ep := rfl
@[simp] theorem State.onCfg_cp (f : Cfg → Cfg) : (s.onCfg f).cp = s.cp := rfl
@[simp] theorem State.onCfg_hif (f : Cfg → Cfg) : (s.onCfg f).hif = s.hif := rfl
@[simp] theorem State.onCfg_dma (f : Cfg → Cfg) : (s.onCfg f).dma = s.dma := rfl
@[simp] theorem State.onCfg_ldg (f : Cfg → Cfg) : (s.onCfg f).ldg = s.ldg := rfl
@[simp] theorem State.onCfg_fw (f : Cfg → Cfg) : (s.onCfg f).fw = s.fw := rfl
@[simp] theorem State.onCfg_tly (f : Cfg → Cfg) : (s.onCfg f).tly = s.tly := rfl
@[simp] theorem State.onCfg_fc (f : Cfg → Cfg) : (s.onCfg f).fc = s.fc := rfl
@[simp] theorem State.onCfg_trs (f : Cfg → Cfg) : (s.onCfg f).trs = s.trs := rfl
@[simp] theorem State.onCfg_syn (f : Cfg → Cfg) : (s.onCfg f).syn = s.syn := rfl
@[simp] theorem State.onCfg_clr (f : Cfg → Cfg) : (s.onCfg f).clr = s.clr := rfl
@[simp] theorem State.onCfg_aud (f : Cfg → Cfg) : (s.onCfg f).aud = s.aud := rfl
@[simp] theorem State.onCfg_ho (f : Cfg → Cfg) : (s.onCfg f).ho = s.ho := rfl
@[simp] theorem State.onCfg_free (f : Cfg → Cfg) : (s.onCfg f).free = s.free := rfl
@[simp] theorem State.onCfg_pending (f : Cfg → Cfg) : (s.onCfg f).pending = s.pending := rfl

@[simp] theorem State.onFuse_now (f : Fuses → Fuses) : (s.onFuse f).now = s.now := rfl
@[simp] theorem State.onFuse_pwr (f : Fuses → Fuses) : (s.onFuse f).pwr = s.pwr := rfl
@[simp] theorem State.onFuse_cfg (f : Fuses → Fuses) : (s.onFuse f).cfg = s.cfg := rfl
@[simp] theorem State.onFuse_fuse (f : Fuses → Fuses) : (s.onFuse f).fuse = f s.fuse := rfl
@[simp] theorem State.onFuse_tb (f : Fuses → Fuses) : (s.onFuse f).tb = s.tb := rfl
@[simp] theorem State.onFuse_frm (f : Fuses → Fuses) : (s.onFuse f).frm = s.frm := rfl
@[simp] theorem State.onFuse_clk (f : Fuses → Fuses) : (s.onFuse f).clk = s.clk := rfl
@[simp] theorem State.onFuse_sns (f : Fuses → Fuses) : (s.onFuse f).sns = s.sns := rfl
@[simp] theorem State.onFuse_rail (f : Fuses → Fuses) : (s.onFuse f).rail = s.rail := rfl
@[simp] theorem State.onFuse_frec (f : Fuses → Fuses) : (s.onFuse f).frec = s.frec := rfl
@[simp] theorem State.onFuse_loop (f : Fuses → Fuses) : (s.onFuse f).loop = s.loop := rfl
@[simp] theorem State.onFuse_hm (f : Fuses → Fuses) : (s.onFuse f).hm = s.hm := rfl
@[simp] theorem State.onFuse_hs (f : Fuses → Fuses) : (s.onFuse f).hs = s.hs := rfl
@[simp] theorem State.onFuse_ep (f : Fuses → Fuses) : (s.onFuse f).ep = s.ep := rfl
@[simp] theorem State.onFuse_cp (f : Fuses → Fuses) : (s.onFuse f).cp = s.cp := rfl
@[simp] theorem State.onFuse_hif (f : Fuses → Fuses) : (s.onFuse f).hif = s.hif := rfl
@[simp] theorem State.onFuse_dma (f : Fuses → Fuses) : (s.onFuse f).dma = s.dma := rfl
@[simp] theorem State.onFuse_ldg (f : Fuses → Fuses) : (s.onFuse f).ldg = s.ldg := rfl
@[simp] theorem State.onFuse_fw (f : Fuses → Fuses) : (s.onFuse f).fw = s.fw := rfl
@[simp] theorem State.onFuse_tly (f : Fuses → Fuses) : (s.onFuse f).tly = s.tly := rfl
@[simp] theorem State.onFuse_fc (f : Fuses → Fuses) : (s.onFuse f).fc = s.fc := rfl
@[simp] theorem State.onFuse_trs (f : Fuses → Fuses) : (s.onFuse f).trs = s.trs := rfl
@[simp] theorem State.onFuse_syn (f : Fuses → Fuses) : (s.onFuse f).syn = s.syn := rfl
@[simp] theorem State.onFuse_clr (f : Fuses → Fuses) : (s.onFuse f).clr = s.clr := rfl
@[simp] theorem State.onFuse_aud (f : Fuses → Fuses) : (s.onFuse f).aud = s.aud := rfl
@[simp] theorem State.onFuse_ho (f : Fuses → Fuses) : (s.onFuse f).ho = s.ho := rfl
@[simp] theorem State.onFuse_free (f : Fuses → Fuses) : (s.onFuse f).free = s.free := rfl
@[simp] theorem State.onFuse_pending (f : Fuses → Fuses) : (s.onFuse f).pending = s.pending := rfl

@[simp] theorem State.onTb_now (f : TimeBase → TimeBase) : (s.onTb f).now = s.now := rfl
@[simp] theorem State.onTb_pwr (f : TimeBase → TimeBase) : (s.onTb f).pwr = s.pwr := rfl
@[simp] theorem State.onTb_cfg (f : TimeBase → TimeBase) : (s.onTb f).cfg = s.cfg := rfl
@[simp] theorem State.onTb_fuse (f : TimeBase → TimeBase) : (s.onTb f).fuse = s.fuse := rfl
@[simp] theorem State.onTb_tb (f : TimeBase → TimeBase) : (s.onTb f).tb = f s.tb := rfl
@[simp] theorem State.onTb_frm (f : TimeBase → TimeBase) : (s.onTb f).frm = s.frm := rfl
@[simp] theorem State.onTb_clk (f : TimeBase → TimeBase) : (s.onTb f).clk = s.clk := rfl
@[simp] theorem State.onTb_sns (f : TimeBase → TimeBase) : (s.onTb f).sns = s.sns := rfl
@[simp] theorem State.onTb_rail (f : TimeBase → TimeBase) : (s.onTb f).rail = s.rail := rfl
@[simp] theorem State.onTb_frec (f : TimeBase → TimeBase) : (s.onTb f).frec = s.frec := rfl
@[simp] theorem State.onTb_loop (f : TimeBase → TimeBase) : (s.onTb f).loop = s.loop := rfl
@[simp] theorem State.onTb_hm (f : TimeBase → TimeBase) : (s.onTb f).hm = s.hm := rfl
@[simp] theorem State.onTb_hs (f : TimeBase → TimeBase) : (s.onTb f).hs = s.hs := rfl
@[simp] theorem State.onTb_ep (f : TimeBase → TimeBase) : (s.onTb f).ep = s.ep := rfl
@[simp] theorem State.onTb_cp (f : TimeBase → TimeBase) : (s.onTb f).cp = s.cp := rfl
@[simp] theorem State.onTb_hif (f : TimeBase → TimeBase) : (s.onTb f).hif = s.hif := rfl
@[simp] theorem State.onTb_dma (f : TimeBase → TimeBase) : (s.onTb f).dma = s.dma := rfl
@[simp] theorem State.onTb_ldg (f : TimeBase → TimeBase) : (s.onTb f).ldg = s.ldg := rfl
@[simp] theorem State.onTb_fw (f : TimeBase → TimeBase) : (s.onTb f).fw = s.fw := rfl
@[simp] theorem State.onTb_tly (f : TimeBase → TimeBase) : (s.onTb f).tly = s.tly := rfl
@[simp] theorem State.onTb_fc (f : TimeBase → TimeBase) : (s.onTb f).fc = s.fc := rfl
@[simp] theorem State.onTb_trs (f : TimeBase → TimeBase) : (s.onTb f).trs = s.trs := rfl
@[simp] theorem State.onTb_syn (f : TimeBase → TimeBase) : (s.onTb f).syn = s.syn := rfl
@[simp] theorem State.onTb_clr (f : TimeBase → TimeBase) : (s.onTb f).clr = s.clr := rfl
@[simp] theorem State.onTb_aud (f : TimeBase → TimeBase) : (s.onTb f).aud = s.aud := rfl
@[simp] theorem State.onTb_ho (f : TimeBase → TimeBase) : (s.onTb f).ho = s.ho := rfl
@[simp] theorem State.onTb_free (f : TimeBase → TimeBase) : (s.onTb f).free = s.free := rfl
@[simp] theorem State.onTb_pending (f : TimeBase → TimeBase) : (s.onTb f).pending = s.pending := rfl

@[simp] theorem State.onFrm_now (f : Frames → Frames) : (s.onFrm f).now = s.now := rfl
@[simp] theorem State.onFrm_pwr (f : Frames → Frames) : (s.onFrm f).pwr = s.pwr := rfl
@[simp] theorem State.onFrm_cfg (f : Frames → Frames) : (s.onFrm f).cfg = s.cfg := rfl
@[simp] theorem State.onFrm_fuse (f : Frames → Frames) : (s.onFrm f).fuse = s.fuse := rfl
@[simp] theorem State.onFrm_tb (f : Frames → Frames) : (s.onFrm f).tb = s.tb := rfl
@[simp] theorem State.onFrm_frm (f : Frames → Frames) : (s.onFrm f).frm = f s.frm := rfl
@[simp] theorem State.onFrm_clk (f : Frames → Frames) : (s.onFrm f).clk = s.clk := rfl
@[simp] theorem State.onFrm_sns (f : Frames → Frames) : (s.onFrm f).sns = s.sns := rfl
@[simp] theorem State.onFrm_rail (f : Frames → Frames) : (s.onFrm f).rail = s.rail := rfl
@[simp] theorem State.onFrm_frec (f : Frames → Frames) : (s.onFrm f).frec = s.frec := rfl
@[simp] theorem State.onFrm_loop (f : Frames → Frames) : (s.onFrm f).loop = s.loop := rfl
@[simp] theorem State.onFrm_hm (f : Frames → Frames) : (s.onFrm f).hm = s.hm := rfl
@[simp] theorem State.onFrm_hs (f : Frames → Frames) : (s.onFrm f).hs = s.hs := rfl
@[simp] theorem State.onFrm_ep (f : Frames → Frames) : (s.onFrm f).ep = s.ep := rfl
@[simp] theorem State.onFrm_cp (f : Frames → Frames) : (s.onFrm f).cp = s.cp := rfl
@[simp] theorem State.onFrm_hif (f : Frames → Frames) : (s.onFrm f).hif = s.hif := rfl
@[simp] theorem State.onFrm_dma (f : Frames → Frames) : (s.onFrm f).dma = s.dma := rfl
@[simp] theorem State.onFrm_ldg (f : Frames → Frames) : (s.onFrm f).ldg = s.ldg := rfl
@[simp] theorem State.onFrm_fw (f : Frames → Frames) : (s.onFrm f).fw = s.fw := rfl
@[simp] theorem State.onFrm_tly (f : Frames → Frames) : (s.onFrm f).tly = s.tly := rfl
@[simp] theorem State.onFrm_fc (f : Frames → Frames) : (s.onFrm f).fc = s.fc := rfl
@[simp] theorem State.onFrm_trs (f : Frames → Frames) : (s.onFrm f).trs = s.trs := rfl
@[simp] theorem State.onFrm_syn (f : Frames → Frames) : (s.onFrm f).syn = s.syn := rfl
@[simp] theorem State.onFrm_clr (f : Frames → Frames) : (s.onFrm f).clr = s.clr := rfl
@[simp] theorem State.onFrm_aud (f : Frames → Frames) : (s.onFrm f).aud = s.aud := rfl
@[simp] theorem State.onFrm_ho (f : Frames → Frames) : (s.onFrm f).ho = s.ho := rfl
@[simp] theorem State.onFrm_free (f : Frames → Frames) : (s.onFrm f).free = s.free := rfl
@[simp] theorem State.onFrm_pending (f : Frames → Frames) : (s.onFrm f).pending = s.pending := rfl

@[simp] theorem State.onClk_now (f : Clocks → Clocks) : (s.onClk f).now = s.now := rfl
@[simp] theorem State.onClk_pwr (f : Clocks → Clocks) : (s.onClk f).pwr = s.pwr := rfl
@[simp] theorem State.onClk_cfg (f : Clocks → Clocks) : (s.onClk f).cfg = s.cfg := rfl
@[simp] theorem State.onClk_fuse (f : Clocks → Clocks) : (s.onClk f).fuse = s.fuse := rfl
@[simp] theorem State.onClk_tb (f : Clocks → Clocks) : (s.onClk f).tb = s.tb := rfl
@[simp] theorem State.onClk_frm (f : Clocks → Clocks) : (s.onClk f).frm = s.frm := rfl
@[simp] theorem State.onClk_clk (f : Clocks → Clocks) : (s.onClk f).clk = f s.clk := rfl
@[simp] theorem State.onClk_sns (f : Clocks → Clocks) : (s.onClk f).sns = s.sns := rfl
@[simp] theorem State.onClk_rail (f : Clocks → Clocks) : (s.onClk f).rail = s.rail := rfl
@[simp] theorem State.onClk_frec (f : Clocks → Clocks) : (s.onClk f).frec = s.frec := rfl
@[simp] theorem State.onClk_loop (f : Clocks → Clocks) : (s.onClk f).loop = s.loop := rfl
@[simp] theorem State.onClk_hm (f : Clocks → Clocks) : (s.onClk f).hm = s.hm := rfl
@[simp] theorem State.onClk_hs (f : Clocks → Clocks) : (s.onClk f).hs = s.hs := rfl
@[simp] theorem State.onClk_ep (f : Clocks → Clocks) : (s.onClk f).ep = s.ep := rfl
@[simp] theorem State.onClk_cp (f : Clocks → Clocks) : (s.onClk f).cp = s.cp := rfl
@[simp] theorem State.onClk_hif (f : Clocks → Clocks) : (s.onClk f).hif = s.hif := rfl
@[simp] theorem State.onClk_dma (f : Clocks → Clocks) : (s.onClk f).dma = s.dma := rfl
@[simp] theorem State.onClk_ldg (f : Clocks → Clocks) : (s.onClk f).ldg = s.ldg := rfl
@[simp] theorem State.onClk_fw (f : Clocks → Clocks) : (s.onClk f).fw = s.fw := rfl
@[simp] theorem State.onClk_tly (f : Clocks → Clocks) : (s.onClk f).tly = s.tly := rfl
@[simp] theorem State.onClk_fc (f : Clocks → Clocks) : (s.onClk f).fc = s.fc := rfl
@[simp] theorem State.onClk_trs (f : Clocks → Clocks) : (s.onClk f).trs = s.trs := rfl
@[simp] theorem State.onClk_syn (f : Clocks → Clocks) : (s.onClk f).syn = s.syn := rfl
@[simp] theorem State.onClk_clr (f : Clocks → Clocks) : (s.onClk f).clr = s.clr := rfl
@[simp] theorem State.onClk_aud (f : Clocks → Clocks) : (s.onClk f).aud = s.aud := rfl
@[simp] theorem State.onClk_ho (f : Clocks → Clocks) : (s.onClk f).ho = s.ho := rfl
@[simp] theorem State.onClk_free (f : Clocks → Clocks) : (s.onClk f).free = s.free := rfl
@[simp] theorem State.onClk_pending (f : Clocks → Clocks) : (s.onClk f).pending = s.pending := rfl

@[simp] theorem State.onSns_now (f : Sensing → Sensing) : (s.onSns f).now = s.now := rfl
@[simp] theorem State.onSns_pwr (f : Sensing → Sensing) : (s.onSns f).pwr = s.pwr := rfl
@[simp] theorem State.onSns_cfg (f : Sensing → Sensing) : (s.onSns f).cfg = s.cfg := rfl
@[simp] theorem State.onSns_fuse (f : Sensing → Sensing) : (s.onSns f).fuse = s.fuse := rfl
@[simp] theorem State.onSns_tb (f : Sensing → Sensing) : (s.onSns f).tb = s.tb := rfl
@[simp] theorem State.onSns_frm (f : Sensing → Sensing) : (s.onSns f).frm = s.frm := rfl
@[simp] theorem State.onSns_clk (f : Sensing → Sensing) : (s.onSns f).clk = s.clk := rfl
@[simp] theorem State.onSns_sns (f : Sensing → Sensing) : (s.onSns f).sns = f s.sns := rfl
@[simp] theorem State.onSns_rail (f : Sensing → Sensing) : (s.onSns f).rail = s.rail := rfl
@[simp] theorem State.onSns_frec (f : Sensing → Sensing) : (s.onSns f).frec = s.frec := rfl
@[simp] theorem State.onSns_loop (f : Sensing → Sensing) : (s.onSns f).loop = s.loop := rfl
@[simp] theorem State.onSns_hm (f : Sensing → Sensing) : (s.onSns f).hm = s.hm := rfl
@[simp] theorem State.onSns_hs (f : Sensing → Sensing) : (s.onSns f).hs = s.hs := rfl
@[simp] theorem State.onSns_ep (f : Sensing → Sensing) : (s.onSns f).ep = s.ep := rfl
@[simp] theorem State.onSns_cp (f : Sensing → Sensing) : (s.onSns f).cp = s.cp := rfl
@[simp] theorem State.onSns_hif (f : Sensing → Sensing) : (s.onSns f).hif = s.hif := rfl
@[simp] theorem State.onSns_dma (f : Sensing → Sensing) : (s.onSns f).dma = s.dma := rfl
@[simp] theorem State.onSns_ldg (f : Sensing → Sensing) : (s.onSns f).ldg = s.ldg := rfl
@[simp] theorem State.onSns_fw (f : Sensing → Sensing) : (s.onSns f).fw = s.fw := rfl
@[simp] theorem State.onSns_tly (f : Sensing → Sensing) : (s.onSns f).tly = s.tly := rfl
@[simp] theorem State.onSns_fc (f : Sensing → Sensing) : (s.onSns f).fc = s.fc := rfl
@[simp] theorem State.onSns_trs (f : Sensing → Sensing) : (s.onSns f).trs = s.trs := rfl
@[simp] theorem State.onSns_syn (f : Sensing → Sensing) : (s.onSns f).syn = s.syn := rfl
@[simp] theorem State.onSns_clr (f : Sensing → Sensing) : (s.onSns f).clr = s.clr := rfl
@[simp] theorem State.onSns_aud (f : Sensing → Sensing) : (s.onSns f).aud = s.aud := rfl
@[simp] theorem State.onSns_ho (f : Sensing → Sensing) : (s.onSns f).ho = s.ho := rfl
@[simp] theorem State.onSns_free (f : Sensing → Sensing) : (s.onSns f).free = s.free := rfl
@[simp] theorem State.onSns_pending (f : Sensing → Sensing) : (s.onSns f).pending = s.pending := rfl

@[simp] theorem State.onRail_now (f : Rails → Rails) : (s.onRail f).now = s.now := rfl
@[simp] theorem State.onRail_pwr (f : Rails → Rails) : (s.onRail f).pwr = s.pwr := rfl
@[simp] theorem State.onRail_cfg (f : Rails → Rails) : (s.onRail f).cfg = s.cfg := rfl
@[simp] theorem State.onRail_fuse (f : Rails → Rails) : (s.onRail f).fuse = s.fuse := rfl
@[simp] theorem State.onRail_tb (f : Rails → Rails) : (s.onRail f).tb = s.tb := rfl
@[simp] theorem State.onRail_frm (f : Rails → Rails) : (s.onRail f).frm = s.frm := rfl
@[simp] theorem State.onRail_clk (f : Rails → Rails) : (s.onRail f).clk = s.clk := rfl
@[simp] theorem State.onRail_sns (f : Rails → Rails) : (s.onRail f).sns = s.sns := rfl
@[simp] theorem State.onRail_rail (f : Rails → Rails) : (s.onRail f).rail = f s.rail := rfl
@[simp] theorem State.onRail_frec (f : Rails → Rails) : (s.onRail f).frec = s.frec := rfl
@[simp] theorem State.onRail_loop (f : Rails → Rails) : (s.onRail f).loop = s.loop := rfl
@[simp] theorem State.onRail_hm (f : Rails → Rails) : (s.onRail f).hm = s.hm := rfl
@[simp] theorem State.onRail_hs (f : Rails → Rails) : (s.onRail f).hs = s.hs := rfl
@[simp] theorem State.onRail_ep (f : Rails → Rails) : (s.onRail f).ep = s.ep := rfl
@[simp] theorem State.onRail_cp (f : Rails → Rails) : (s.onRail f).cp = s.cp := rfl
@[simp] theorem State.onRail_hif (f : Rails → Rails) : (s.onRail f).hif = s.hif := rfl
@[simp] theorem State.onRail_dma (f : Rails → Rails) : (s.onRail f).dma = s.dma := rfl
@[simp] theorem State.onRail_ldg (f : Rails → Rails) : (s.onRail f).ldg = s.ldg := rfl
@[simp] theorem State.onRail_fw (f : Rails → Rails) : (s.onRail f).fw = s.fw := rfl
@[simp] theorem State.onRail_tly (f : Rails → Rails) : (s.onRail f).tly = s.tly := rfl
@[simp] theorem State.onRail_fc (f : Rails → Rails) : (s.onRail f).fc = s.fc := rfl
@[simp] theorem State.onRail_trs (f : Rails → Rails) : (s.onRail f).trs = s.trs := rfl
@[simp] theorem State.onRail_syn (f : Rails → Rails) : (s.onRail f).syn = s.syn := rfl
@[simp] theorem State.onRail_clr (f : Rails → Rails) : (s.onRail f).clr = s.clr := rfl
@[simp] theorem State.onRail_aud (f : Rails → Rails) : (s.onRail f).aud = s.aud := rfl
@[simp] theorem State.onRail_ho (f : Rails → Rails) : (s.onRail f).ho = s.ho := rfl
@[simp] theorem State.onRail_free (f : Rails → Rails) : (s.onRail f).free = s.free := rfl
@[simp] theorem State.onRail_pending (f : Rails → Rails) : (s.onRail f).pending = s.pending := rfl

@[simp] theorem State.onFrec_now (f : FRec → FRec) : (s.onFrec f).now = s.now := rfl
@[simp] theorem State.onFrec_pwr (f : FRec → FRec) : (s.onFrec f).pwr = s.pwr := rfl
@[simp] theorem State.onFrec_cfg (f : FRec → FRec) : (s.onFrec f).cfg = s.cfg := rfl
@[simp] theorem State.onFrec_fuse (f : FRec → FRec) : (s.onFrec f).fuse = s.fuse := rfl
@[simp] theorem State.onFrec_tb (f : FRec → FRec) : (s.onFrec f).tb = s.tb := rfl
@[simp] theorem State.onFrec_frm (f : FRec → FRec) : (s.onFrec f).frm = s.frm := rfl
@[simp] theorem State.onFrec_clk (f : FRec → FRec) : (s.onFrec f).clk = s.clk := rfl
@[simp] theorem State.onFrec_sns (f : FRec → FRec) : (s.onFrec f).sns = s.sns := rfl
@[simp] theorem State.onFrec_rail (f : FRec → FRec) : (s.onFrec f).rail = s.rail := rfl
@[simp] theorem State.onFrec_frec (f : FRec → FRec) : (s.onFrec f).frec = f s.frec := rfl
@[simp] theorem State.onFrec_loop (f : FRec → FRec) : (s.onFrec f).loop = s.loop := rfl
@[simp] theorem State.onFrec_hm (f : FRec → FRec) : (s.onFrec f).hm = s.hm := rfl
@[simp] theorem State.onFrec_hs (f : FRec → FRec) : (s.onFrec f).hs = s.hs := rfl
@[simp] theorem State.onFrec_ep (f : FRec → FRec) : (s.onFrec f).ep = s.ep := rfl
@[simp] theorem State.onFrec_cp (f : FRec → FRec) : (s.onFrec f).cp = s.cp := rfl
@[simp] theorem State.onFrec_hif (f : FRec → FRec) : (s.onFrec f).hif = s.hif := rfl
@[simp] theorem State.onFrec_dma (f : FRec → FRec) : (s.onFrec f).dma = s.dma := rfl
@[simp] theorem State.onFrec_ldg (f : FRec → FRec) : (s.onFrec f).ldg = s.ldg := rfl
@[simp] theorem State.onFrec_fw (f : FRec → FRec) : (s.onFrec f).fw = s.fw := rfl
@[simp] theorem State.onFrec_tly (f : FRec → FRec) : (s.onFrec f).tly = s.tly := rfl
@[simp] theorem State.onFrec_fc (f : FRec → FRec) : (s.onFrec f).fc = s.fc := rfl
@[simp] theorem State.onFrec_trs (f : FRec → FRec) : (s.onFrec f).trs = s.trs := rfl
@[simp] theorem State.onFrec_syn (f : FRec → FRec) : (s.onFrec f).syn = s.syn := rfl
@[simp] theorem State.onFrec_clr (f : FRec → FRec) : (s.onFrec f).clr = s.clr := rfl
@[simp] theorem State.onFrec_aud (f : FRec → FRec) : (s.onFrec f).aud = s.aud := rfl
@[simp] theorem State.onFrec_ho (f : FRec → FRec) : (s.onFrec f).ho = s.ho := rfl
@[simp] theorem State.onFrec_free (f : FRec → FRec) : (s.onFrec f).free = s.free := rfl
@[simp] theorem State.onFrec_pending (f : FRec → FRec) : (s.onFrec f).pending = s.pending := rfl

@[simp] theorem State.onLoop_now (f : Loops → Loops) : (s.onLoop f).now = s.now := rfl
@[simp] theorem State.onLoop_pwr (f : Loops → Loops) : (s.onLoop f).pwr = s.pwr := rfl
@[simp] theorem State.onLoop_cfg (f : Loops → Loops) : (s.onLoop f).cfg = s.cfg := rfl
@[simp] theorem State.onLoop_fuse (f : Loops → Loops) : (s.onLoop f).fuse = s.fuse := rfl
@[simp] theorem State.onLoop_tb (f : Loops → Loops) : (s.onLoop f).tb = s.tb := rfl
@[simp] theorem State.onLoop_frm (f : Loops → Loops) : (s.onLoop f).frm = s.frm := rfl
@[simp] theorem State.onLoop_clk (f : Loops → Loops) : (s.onLoop f).clk = s.clk := rfl
@[simp] theorem State.onLoop_sns (f : Loops → Loops) : (s.onLoop f).sns = s.sns := rfl
@[simp] theorem State.onLoop_rail (f : Loops → Loops) : (s.onLoop f).rail = s.rail := rfl
@[simp] theorem State.onLoop_frec (f : Loops → Loops) : (s.onLoop f).frec = s.frec := rfl
@[simp] theorem State.onLoop_loop (f : Loops → Loops) : (s.onLoop f).loop = f s.loop := rfl
@[simp] theorem State.onLoop_hm (f : Loops → Loops) : (s.onLoop f).hm = s.hm := rfl
@[simp] theorem State.onLoop_hs (f : Loops → Loops) : (s.onLoop f).hs = s.hs := rfl
@[simp] theorem State.onLoop_ep (f : Loops → Loops) : (s.onLoop f).ep = s.ep := rfl
@[simp] theorem State.onLoop_cp (f : Loops → Loops) : (s.onLoop f).cp = s.cp := rfl
@[simp] theorem State.onLoop_hif (f : Loops → Loops) : (s.onLoop f).hif = s.hif := rfl
@[simp] theorem State.onLoop_dma (f : Loops → Loops) : (s.onLoop f).dma = s.dma := rfl
@[simp] theorem State.onLoop_ldg (f : Loops → Loops) : (s.onLoop f).ldg = s.ldg := rfl
@[simp] theorem State.onLoop_fw (f : Loops → Loops) : (s.onLoop f).fw = s.fw := rfl
@[simp] theorem State.onLoop_tly (f : Loops → Loops) : (s.onLoop f).tly = s.tly := rfl
@[simp] theorem State.onLoop_fc (f : Loops → Loops) : (s.onLoop f).fc = s.fc := rfl
@[simp] theorem State.onLoop_trs (f : Loops → Loops) : (s.onLoop f).trs = s.trs := rfl
@[simp] theorem State.onLoop_syn (f : Loops → Loops) : (s.onLoop f).syn = s.syn := rfl
@[simp] theorem State.onLoop_clr (f : Loops → Loops) : (s.onLoop f).clr = s.clr := rfl
@[simp] theorem State.onLoop_aud (f : Loops → Loops) : (s.onLoop f).aud = s.aud := rfl
@[simp] theorem State.onLoop_ho (f : Loops → Loops) : (s.onLoop f).ho = s.ho := rfl
@[simp] theorem State.onLoop_free (f : Loops → Loops) : (s.onLoop f).free = s.free := rfl
@[simp] theorem State.onLoop_pending (f : Loops → Loops) : (s.onLoop f).pending = s.pending := rfl

@[simp] theorem State.onHm_now (f : HmPort → HmPort) : (s.onHm f).now = s.now := rfl
@[simp] theorem State.onHm_pwr (f : HmPort → HmPort) : (s.onHm f).pwr = s.pwr := rfl
@[simp] theorem State.onHm_cfg (f : HmPort → HmPort) : (s.onHm f).cfg = s.cfg := rfl
@[simp] theorem State.onHm_fuse (f : HmPort → HmPort) : (s.onHm f).fuse = s.fuse := rfl
@[simp] theorem State.onHm_tb (f : HmPort → HmPort) : (s.onHm f).tb = s.tb := rfl
@[simp] theorem State.onHm_frm (f : HmPort → HmPort) : (s.onHm f).frm = s.frm := rfl
@[simp] theorem State.onHm_clk (f : HmPort → HmPort) : (s.onHm f).clk = s.clk := rfl
@[simp] theorem State.onHm_sns (f : HmPort → HmPort) : (s.onHm f).sns = s.sns := rfl
@[simp] theorem State.onHm_rail (f : HmPort → HmPort) : (s.onHm f).rail = s.rail := rfl
@[simp] theorem State.onHm_frec (f : HmPort → HmPort) : (s.onHm f).frec = s.frec := rfl
@[simp] theorem State.onHm_loop (f : HmPort → HmPort) : (s.onHm f).loop = s.loop := rfl
@[simp] theorem State.onHm_hm (f : HmPort → HmPort) : (s.onHm f).hm = f s.hm := rfl
@[simp] theorem State.onHm_hs (f : HmPort → HmPort) : (s.onHm f).hs = s.hs := rfl
@[simp] theorem State.onHm_ep (f : HmPort → HmPort) : (s.onHm f).ep = s.ep := rfl
@[simp] theorem State.onHm_cp (f : HmPort → HmPort) : (s.onHm f).cp = s.cp := rfl
@[simp] theorem State.onHm_hif (f : HmPort → HmPort) : (s.onHm f).hif = s.hif := rfl
@[simp] theorem State.onHm_dma (f : HmPort → HmPort) : (s.onHm f).dma = s.dma := rfl
@[simp] theorem State.onHm_ldg (f : HmPort → HmPort) : (s.onHm f).ldg = s.ldg := rfl
@[simp] theorem State.onHm_fw (f : HmPort → HmPort) : (s.onHm f).fw = s.fw := rfl
@[simp] theorem State.onHm_tly (f : HmPort → HmPort) : (s.onHm f).tly = s.tly := rfl
@[simp] theorem State.onHm_fc (f : HmPort → HmPort) : (s.onHm f).fc = s.fc := rfl
@[simp] theorem State.onHm_trs (f : HmPort → HmPort) : (s.onHm f).trs = s.trs := rfl
@[simp] theorem State.onHm_syn (f : HmPort → HmPort) : (s.onHm f).syn = s.syn := rfl
@[simp] theorem State.onHm_clr (f : HmPort → HmPort) : (s.onHm f).clr = s.clr := rfl
@[simp] theorem State.onHm_aud (f : HmPort → HmPort) : (s.onHm f).aud = s.aud := rfl
@[simp] theorem State.onHm_ho (f : HmPort → HmPort) : (s.onHm f).ho = s.ho := rfl
@[simp] theorem State.onHm_free (f : HmPort → HmPort) : (s.onHm f).free = s.free := rfl
@[simp] theorem State.onHm_pending (f : HmPort → HmPort) : (s.onHm f).pending = s.pending := rfl

@[simp] theorem State.onHs_now (f : HsPort → HsPort) : (s.onHs f).now = s.now := rfl
@[simp] theorem State.onHs_pwr (f : HsPort → HsPort) : (s.onHs f).pwr = s.pwr := rfl
@[simp] theorem State.onHs_cfg (f : HsPort → HsPort) : (s.onHs f).cfg = s.cfg := rfl
@[simp] theorem State.onHs_fuse (f : HsPort → HsPort) : (s.onHs f).fuse = s.fuse := rfl
@[simp] theorem State.onHs_tb (f : HsPort → HsPort) : (s.onHs f).tb = s.tb := rfl
@[simp] theorem State.onHs_frm (f : HsPort → HsPort) : (s.onHs f).frm = s.frm := rfl
@[simp] theorem State.onHs_clk (f : HsPort → HsPort) : (s.onHs f).clk = s.clk := rfl
@[simp] theorem State.onHs_sns (f : HsPort → HsPort) : (s.onHs f).sns = s.sns := rfl
@[simp] theorem State.onHs_rail (f : HsPort → HsPort) : (s.onHs f).rail = s.rail := rfl
@[simp] theorem State.onHs_frec (f : HsPort → HsPort) : (s.onHs f).frec = s.frec := rfl
@[simp] theorem State.onHs_loop (f : HsPort → HsPort) : (s.onHs f).loop = s.loop := rfl
@[simp] theorem State.onHs_hm (f : HsPort → HsPort) : (s.onHs f).hm = s.hm := rfl
@[simp] theorem State.onHs_hs (f : HsPort → HsPort) : (s.onHs f).hs = f s.hs := rfl
@[simp] theorem State.onHs_ep (f : HsPort → HsPort) : (s.onHs f).ep = s.ep := rfl
@[simp] theorem State.onHs_cp (f : HsPort → HsPort) : (s.onHs f).cp = s.cp := rfl
@[simp] theorem State.onHs_hif (f : HsPort → HsPort) : (s.onHs f).hif = s.hif := rfl
@[simp] theorem State.onHs_dma (f : HsPort → HsPort) : (s.onHs f).dma = s.dma := rfl
@[simp] theorem State.onHs_ldg (f : HsPort → HsPort) : (s.onHs f).ldg = s.ldg := rfl
@[simp] theorem State.onHs_fw (f : HsPort → HsPort) : (s.onHs f).fw = s.fw := rfl
@[simp] theorem State.onHs_tly (f : HsPort → HsPort) : (s.onHs f).tly = s.tly := rfl
@[simp] theorem State.onHs_fc (f : HsPort → HsPort) : (s.onHs f).fc = s.fc := rfl
@[simp] theorem State.onHs_trs (f : HsPort → HsPort) : (s.onHs f).trs = s.trs := rfl
@[simp] theorem State.onHs_syn (f : HsPort → HsPort) : (s.onHs f).syn = s.syn := rfl
@[simp] theorem State.onHs_clr (f : HsPort → HsPort) : (s.onHs f).clr = s.clr := rfl
@[simp] theorem State.onHs_aud (f : HsPort → HsPort) : (s.onHs f).aud = s.aud := rfl
@[simp] theorem State.onHs_ho (f : HsPort → HsPort) : (s.onHs f).ho = s.ho := rfl
@[simp] theorem State.onHs_free (f : HsPort → HsPort) : (s.onHs f).free = s.free := rfl
@[simp] theorem State.onHs_pending (f : HsPort → HsPort) : (s.onHs f).pending = s.pending := rfl

@[simp] theorem State.onHif_now (f : Hif → Hif) : (s.onHif f).now = s.now := rfl
@[simp] theorem State.onHif_pwr (f : Hif → Hif) : (s.onHif f).pwr = s.pwr := rfl
@[simp] theorem State.onHif_cfg (f : Hif → Hif) : (s.onHif f).cfg = s.cfg := rfl
@[simp] theorem State.onHif_fuse (f : Hif → Hif) : (s.onHif f).fuse = s.fuse := rfl
@[simp] theorem State.onHif_tb (f : Hif → Hif) : (s.onHif f).tb = s.tb := rfl
@[simp] theorem State.onHif_frm (f : Hif → Hif) : (s.onHif f).frm = s.frm := rfl
@[simp] theorem State.onHif_clk (f : Hif → Hif) : (s.onHif f).clk = s.clk := rfl
@[simp] theorem State.onHif_sns (f : Hif → Hif) : (s.onHif f).sns = s.sns := rfl
@[simp] theorem State.onHif_rail (f : Hif → Hif) : (s.onHif f).rail = s.rail := rfl
@[simp] theorem State.onHif_frec (f : Hif → Hif) : (s.onHif f).frec = s.frec := rfl
@[simp] theorem State.onHif_loop (f : Hif → Hif) : (s.onHif f).loop = s.loop := rfl
@[simp] theorem State.onHif_hm (f : Hif → Hif) : (s.onHif f).hm = s.hm := rfl
@[simp] theorem State.onHif_hs (f : Hif → Hif) : (s.onHif f).hs = s.hs := rfl
@[simp] theorem State.onHif_ep (f : Hif → Hif) : (s.onHif f).ep = s.ep := rfl
@[simp] theorem State.onHif_cp (f : Hif → Hif) : (s.onHif f).cp = s.cp := rfl
@[simp] theorem State.onHif_hif (f : Hif → Hif) : (s.onHif f).hif = f s.hif := rfl
@[simp] theorem State.onHif_dma (f : Hif → Hif) : (s.onHif f).dma = s.dma := rfl
@[simp] theorem State.onHif_ldg (f : Hif → Hif) : (s.onHif f).ldg = s.ldg := rfl
@[simp] theorem State.onHif_fw (f : Hif → Hif) : (s.onHif f).fw = s.fw := rfl
@[simp] theorem State.onHif_tly (f : Hif → Hif) : (s.onHif f).tly = s.tly := rfl
@[simp] theorem State.onHif_fc (f : Hif → Hif) : (s.onHif f).fc = s.fc := rfl
@[simp] theorem State.onHif_trs (f : Hif → Hif) : (s.onHif f).trs = s.trs := rfl
@[simp] theorem State.onHif_syn (f : Hif → Hif) : (s.onHif f).syn = s.syn := rfl
@[simp] theorem State.onHif_clr (f : Hif → Hif) : (s.onHif f).clr = s.clr := rfl
@[simp] theorem State.onHif_aud (f : Hif → Hif) : (s.onHif f).aud = s.aud := rfl
@[simp] theorem State.onHif_ho (f : Hif → Hif) : (s.onHif f).ho = s.ho := rfl
@[simp] theorem State.onHif_free (f : Hif → Hif) : (s.onHif f).free = s.free := rfl
@[simp] theorem State.onHif_pending (f : Hif → Hif) : (s.onHif f).pending = s.pending := rfl

@[simp] theorem State.onDma_now (f : Dma → Dma) : (s.onDma f).now = s.now := rfl
@[simp] theorem State.onDma_pwr (f : Dma → Dma) : (s.onDma f).pwr = s.pwr := rfl
@[simp] theorem State.onDma_cfg (f : Dma → Dma) : (s.onDma f).cfg = s.cfg := rfl
@[simp] theorem State.onDma_fuse (f : Dma → Dma) : (s.onDma f).fuse = s.fuse := rfl
@[simp] theorem State.onDma_tb (f : Dma → Dma) : (s.onDma f).tb = s.tb := rfl
@[simp] theorem State.onDma_frm (f : Dma → Dma) : (s.onDma f).frm = s.frm := rfl
@[simp] theorem State.onDma_clk (f : Dma → Dma) : (s.onDma f).clk = s.clk := rfl
@[simp] theorem State.onDma_sns (f : Dma → Dma) : (s.onDma f).sns = s.sns := rfl
@[simp] theorem State.onDma_rail (f : Dma → Dma) : (s.onDma f).rail = s.rail := rfl
@[simp] theorem State.onDma_frec (f : Dma → Dma) : (s.onDma f).frec = s.frec := rfl
@[simp] theorem State.onDma_loop (f : Dma → Dma) : (s.onDma f).loop = s.loop := rfl
@[simp] theorem State.onDma_hm (f : Dma → Dma) : (s.onDma f).hm = s.hm := rfl
@[simp] theorem State.onDma_hs (f : Dma → Dma) : (s.onDma f).hs = s.hs := rfl
@[simp] theorem State.onDma_ep (f : Dma → Dma) : (s.onDma f).ep = s.ep := rfl
@[simp] theorem State.onDma_cp (f : Dma → Dma) : (s.onDma f).cp = s.cp := rfl
@[simp] theorem State.onDma_hif (f : Dma → Dma) : (s.onDma f).hif = s.hif := rfl
@[simp] theorem State.onDma_dma (f : Dma → Dma) : (s.onDma f).dma = f s.dma := rfl
@[simp] theorem State.onDma_ldg (f : Dma → Dma) : (s.onDma f).ldg = s.ldg := rfl
@[simp] theorem State.onDma_fw (f : Dma → Dma) : (s.onDma f).fw = s.fw := rfl
@[simp] theorem State.onDma_tly (f : Dma → Dma) : (s.onDma f).tly = s.tly := rfl
@[simp] theorem State.onDma_fc (f : Dma → Dma) : (s.onDma f).fc = s.fc := rfl
@[simp] theorem State.onDma_trs (f : Dma → Dma) : (s.onDma f).trs = s.trs := rfl
@[simp] theorem State.onDma_syn (f : Dma → Dma) : (s.onDma f).syn = s.syn := rfl
@[simp] theorem State.onDma_clr (f : Dma → Dma) : (s.onDma f).clr = s.clr := rfl
@[simp] theorem State.onDma_aud (f : Dma → Dma) : (s.onDma f).aud = s.aud := rfl
@[simp] theorem State.onDma_ho (f : Dma → Dma) : (s.onDma f).ho = s.ho := rfl
@[simp] theorem State.onDma_free (f : Dma → Dma) : (s.onDma f).free = s.free := rfl
@[simp] theorem State.onDma_pending (f : Dma → Dma) : (s.onDma f).pending = s.pending := rfl

@[simp] theorem State.onLdg_now (f : Ledger → Ledger) : (s.onLdg f).now = s.now := rfl
@[simp] theorem State.onLdg_pwr (f : Ledger → Ledger) : (s.onLdg f).pwr = s.pwr := rfl
@[simp] theorem State.onLdg_cfg (f : Ledger → Ledger) : (s.onLdg f).cfg = s.cfg := rfl
@[simp] theorem State.onLdg_fuse (f : Ledger → Ledger) : (s.onLdg f).fuse = s.fuse := rfl
@[simp] theorem State.onLdg_tb (f : Ledger → Ledger) : (s.onLdg f).tb = s.tb := rfl
@[simp] theorem State.onLdg_frm (f : Ledger → Ledger) : (s.onLdg f).frm = s.frm := rfl
@[simp] theorem State.onLdg_clk (f : Ledger → Ledger) : (s.onLdg f).clk = s.clk := rfl
@[simp] theorem State.onLdg_sns (f : Ledger → Ledger) : (s.onLdg f).sns = s.sns := rfl
@[simp] theorem State.onLdg_rail (f : Ledger → Ledger) : (s.onLdg f).rail = s.rail := rfl
@[simp] theorem State.onLdg_frec (f : Ledger → Ledger) : (s.onLdg f).frec = s.frec := rfl
@[simp] theorem State.onLdg_loop (f : Ledger → Ledger) : (s.onLdg f).loop = s.loop := rfl
@[simp] theorem State.onLdg_hm (f : Ledger → Ledger) : (s.onLdg f).hm = s.hm := rfl
@[simp] theorem State.onLdg_hs (f : Ledger → Ledger) : (s.onLdg f).hs = s.hs := rfl
@[simp] theorem State.onLdg_ep (f : Ledger → Ledger) : (s.onLdg f).ep = s.ep := rfl
@[simp] theorem State.onLdg_cp (f : Ledger → Ledger) : (s.onLdg f).cp = s.cp := rfl
@[simp] theorem State.onLdg_hif (f : Ledger → Ledger) : (s.onLdg f).hif = s.hif := rfl
@[simp] theorem State.onLdg_dma (f : Ledger → Ledger) : (s.onLdg f).dma = s.dma := rfl
@[simp] theorem State.onLdg_ldg (f : Ledger → Ledger) : (s.onLdg f).ldg = f s.ldg := rfl
@[simp] theorem State.onLdg_fw (f : Ledger → Ledger) : (s.onLdg f).fw = s.fw := rfl
@[simp] theorem State.onLdg_tly (f : Ledger → Ledger) : (s.onLdg f).tly = s.tly := rfl
@[simp] theorem State.onLdg_fc (f : Ledger → Ledger) : (s.onLdg f).fc = s.fc := rfl
@[simp] theorem State.onLdg_trs (f : Ledger → Ledger) : (s.onLdg f).trs = s.trs := rfl
@[simp] theorem State.onLdg_syn (f : Ledger → Ledger) : (s.onLdg f).syn = s.syn := rfl
@[simp] theorem State.onLdg_clr (f : Ledger → Ledger) : (s.onLdg f).clr = s.clr := rfl
@[simp] theorem State.onLdg_aud (f : Ledger → Ledger) : (s.onLdg f).aud = s.aud := rfl
@[simp] theorem State.onLdg_ho (f : Ledger → Ledger) : (s.onLdg f).ho = s.ho := rfl
@[simp] theorem State.onLdg_free (f : Ledger → Ledger) : (s.onLdg f).free = s.free := rfl
@[simp] theorem State.onLdg_pending (f : Ledger → Ledger) : (s.onLdg f).pending = s.pending := rfl

@[simp] theorem State.onFw_now (f : Fw → Fw) : (s.onFw f).now = s.now := rfl
@[simp] theorem State.onFw_pwr (f : Fw → Fw) : (s.onFw f).pwr = s.pwr := rfl
@[simp] theorem State.onFw_cfg (f : Fw → Fw) : (s.onFw f).cfg = s.cfg := rfl
@[simp] theorem State.onFw_fuse (f : Fw → Fw) : (s.onFw f).fuse = s.fuse := rfl
@[simp] theorem State.onFw_tb (f : Fw → Fw) : (s.onFw f).tb = s.tb := rfl
@[simp] theorem State.onFw_frm (f : Fw → Fw) : (s.onFw f).frm = s.frm := rfl
@[simp] theorem State.onFw_clk (f : Fw → Fw) : (s.onFw f).clk = s.clk := rfl
@[simp] theorem State.onFw_sns (f : Fw → Fw) : (s.onFw f).sns = s.sns := rfl
@[simp] theorem State.onFw_rail (f : Fw → Fw) : (s.onFw f).rail = s.rail := rfl
@[simp] theorem State.onFw_frec (f : Fw → Fw) : (s.onFw f).frec = s.frec := rfl
@[simp] theorem State.onFw_loop (f : Fw → Fw) : (s.onFw f).loop = s.loop := rfl
@[simp] theorem State.onFw_hm (f : Fw → Fw) : (s.onFw f).hm = s.hm := rfl
@[simp] theorem State.onFw_hs (f : Fw → Fw) : (s.onFw f).hs = s.hs := rfl
@[simp] theorem State.onFw_ep (f : Fw → Fw) : (s.onFw f).ep = s.ep := rfl
@[simp] theorem State.onFw_cp (f : Fw → Fw) : (s.onFw f).cp = s.cp := rfl
@[simp] theorem State.onFw_hif (f : Fw → Fw) : (s.onFw f).hif = s.hif := rfl
@[simp] theorem State.onFw_dma (f : Fw → Fw) : (s.onFw f).dma = s.dma := rfl
@[simp] theorem State.onFw_ldg (f : Fw → Fw) : (s.onFw f).ldg = s.ldg := rfl
@[simp] theorem State.onFw_fw (f : Fw → Fw) : (s.onFw f).fw = f s.fw := rfl
@[simp] theorem State.onFw_tly (f : Fw → Fw) : (s.onFw f).tly = s.tly := rfl
@[simp] theorem State.onFw_fc (f : Fw → Fw) : (s.onFw f).fc = s.fc := rfl
@[simp] theorem State.onFw_trs (f : Fw → Fw) : (s.onFw f).trs = s.trs := rfl
@[simp] theorem State.onFw_syn (f : Fw → Fw) : (s.onFw f).syn = s.syn := rfl
@[simp] theorem State.onFw_clr (f : Fw → Fw) : (s.onFw f).clr = s.clr := rfl
@[simp] theorem State.onFw_aud (f : Fw → Fw) : (s.onFw f).aud = s.aud := rfl
@[simp] theorem State.onFw_ho (f : Fw → Fw) : (s.onFw f).ho = s.ho := rfl
@[simp] theorem State.onFw_free (f : Fw → Fw) : (s.onFw f).free = s.free := rfl
@[simp] theorem State.onFw_pending (f : Fw → Fw) : (s.onFw f).pending = s.pending := rfl

@[simp] theorem State.onTly_now (f : Tally → Tally) : (s.onTly f).now = s.now := rfl
@[simp] theorem State.onTly_pwr (f : Tally → Tally) : (s.onTly f).pwr = s.pwr := rfl
@[simp] theorem State.onTly_cfg (f : Tally → Tally) : (s.onTly f).cfg = s.cfg := rfl
@[simp] theorem State.onTly_fuse (f : Tally → Tally) : (s.onTly f).fuse = s.fuse := rfl
@[simp] theorem State.onTly_tb (f : Tally → Tally) : (s.onTly f).tb = s.tb := rfl
@[simp] theorem State.onTly_frm (f : Tally → Tally) : (s.onTly f).frm = s.frm := rfl
@[simp] theorem State.onTly_clk (f : Tally → Tally) : (s.onTly f).clk = s.clk := rfl
@[simp] theorem State.onTly_sns (f : Tally → Tally) : (s.onTly f).sns = s.sns := rfl
@[simp] theorem State.onTly_rail (f : Tally → Tally) : (s.onTly f).rail = s.rail := rfl
@[simp] theorem State.onTly_frec (f : Tally → Tally) : (s.onTly f).frec = s.frec := rfl
@[simp] theorem State.onTly_loop (f : Tally → Tally) : (s.onTly f).loop = s.loop := rfl
@[simp] theorem State.onTly_hm (f : Tally → Tally) : (s.onTly f).hm = s.hm := rfl
@[simp] theorem State.onTly_hs (f : Tally → Tally) : (s.onTly f).hs = s.hs := rfl
@[simp] theorem State.onTly_ep (f : Tally → Tally) : (s.onTly f).ep = s.ep := rfl
@[simp] theorem State.onTly_cp (f : Tally → Tally) : (s.onTly f).cp = s.cp := rfl
@[simp] theorem State.onTly_hif (f : Tally → Tally) : (s.onTly f).hif = s.hif := rfl
@[simp] theorem State.onTly_dma (f : Tally → Tally) : (s.onTly f).dma = s.dma := rfl
@[simp] theorem State.onTly_ldg (f : Tally → Tally) : (s.onTly f).ldg = s.ldg := rfl
@[simp] theorem State.onTly_fw (f : Tally → Tally) : (s.onTly f).fw = s.fw := rfl
@[simp] theorem State.onTly_tly (f : Tally → Tally) : (s.onTly f).tly = f s.tly := rfl
@[simp] theorem State.onTly_fc (f : Tally → Tally) : (s.onTly f).fc = s.fc := rfl
@[simp] theorem State.onTly_trs (f : Tally → Tally) : (s.onTly f).trs = s.trs := rfl
@[simp] theorem State.onTly_syn (f : Tally → Tally) : (s.onTly f).syn = s.syn := rfl
@[simp] theorem State.onTly_clr (f : Tally → Tally) : (s.onTly f).clr = s.clr := rfl
@[simp] theorem State.onTly_aud (f : Tally → Tally) : (s.onTly f).aud = s.aud := rfl
@[simp] theorem State.onTly_ho (f : Tally → Tally) : (s.onTly f).ho = s.ho := rfl
@[simp] theorem State.onTly_free (f : Tally → Tally) : (s.onTly f).free = s.free := rfl
@[simp] theorem State.onTly_pending (f : Tally → Tally) : (s.onTly f).pending = s.pending := rfl

@[simp] theorem State.onFc_now (f : Forecast → Forecast) : (s.onFc f).now = s.now := rfl
@[simp] theorem State.onFc_pwr (f : Forecast → Forecast) : (s.onFc f).pwr = s.pwr := rfl
@[simp] theorem State.onFc_cfg (f : Forecast → Forecast) : (s.onFc f).cfg = s.cfg := rfl
@[simp] theorem State.onFc_fuse (f : Forecast → Forecast) : (s.onFc f).fuse = s.fuse := rfl
@[simp] theorem State.onFc_tb (f : Forecast → Forecast) : (s.onFc f).tb = s.tb := rfl
@[simp] theorem State.onFc_frm (f : Forecast → Forecast) : (s.onFc f).frm = s.frm := rfl
@[simp] theorem State.onFc_clk (f : Forecast → Forecast) : (s.onFc f).clk = s.clk := rfl
@[simp] theorem State.onFc_sns (f : Forecast → Forecast) : (s.onFc f).sns = s.sns := rfl
@[simp] theorem State.onFc_rail (f : Forecast → Forecast) : (s.onFc f).rail = s.rail := rfl
@[simp] theorem State.onFc_frec (f : Forecast → Forecast) : (s.onFc f).frec = s.frec := rfl
@[simp] theorem State.onFc_loop (f : Forecast → Forecast) : (s.onFc f).loop = s.loop := rfl
@[simp] theorem State.onFc_hm (f : Forecast → Forecast) : (s.onFc f).hm = s.hm := rfl
@[simp] theorem State.onFc_hs (f : Forecast → Forecast) : (s.onFc f).hs = s.hs := rfl
@[simp] theorem State.onFc_ep (f : Forecast → Forecast) : (s.onFc f).ep = s.ep := rfl
@[simp] theorem State.onFc_cp (f : Forecast → Forecast) : (s.onFc f).cp = s.cp := rfl
@[simp] theorem State.onFc_hif (f : Forecast → Forecast) : (s.onFc f).hif = s.hif := rfl
@[simp] theorem State.onFc_dma (f : Forecast → Forecast) : (s.onFc f).dma = s.dma := rfl
@[simp] theorem State.onFc_ldg (f : Forecast → Forecast) : (s.onFc f).ldg = s.ldg := rfl
@[simp] theorem State.onFc_fw (f : Forecast → Forecast) : (s.onFc f).fw = s.fw := rfl
@[simp] theorem State.onFc_tly (f : Forecast → Forecast) : (s.onFc f).tly = s.tly := rfl
@[simp] theorem State.onFc_fc (f : Forecast → Forecast) : (s.onFc f).fc = f s.fc := rfl
@[simp] theorem State.onFc_trs (f : Forecast → Forecast) : (s.onFc f).trs = s.trs := rfl
@[simp] theorem State.onFc_syn (f : Forecast → Forecast) : (s.onFc f).syn = s.syn := rfl
@[simp] theorem State.onFc_clr (f : Forecast → Forecast) : (s.onFc f).clr = s.clr := rfl
@[simp] theorem State.onFc_aud (f : Forecast → Forecast) : (s.onFc f).aud = s.aud := rfl
@[simp] theorem State.onFc_ho (f : Forecast → Forecast) : (s.onFc f).ho = s.ho := rfl
@[simp] theorem State.onFc_free (f : Forecast → Forecast) : (s.onFc f).free = s.free := rfl
@[simp] theorem State.onFc_pending (f : Forecast → Forecast) : (s.onFc f).pending = s.pending := rfl

@[simp] theorem State.onTrs_now (f : Treasury → Treasury) : (s.onTrs f).now = s.now := rfl
@[simp] theorem State.onTrs_pwr (f : Treasury → Treasury) : (s.onTrs f).pwr = s.pwr := rfl
@[simp] theorem State.onTrs_cfg (f : Treasury → Treasury) : (s.onTrs f).cfg = s.cfg := rfl
@[simp] theorem State.onTrs_fuse (f : Treasury → Treasury) : (s.onTrs f).fuse = s.fuse := rfl
@[simp] theorem State.onTrs_tb (f : Treasury → Treasury) : (s.onTrs f).tb = s.tb := rfl
@[simp] theorem State.onTrs_frm (f : Treasury → Treasury) : (s.onTrs f).frm = s.frm := rfl
@[simp] theorem State.onTrs_clk (f : Treasury → Treasury) : (s.onTrs f).clk = s.clk := rfl
@[simp] theorem State.onTrs_sns (f : Treasury → Treasury) : (s.onTrs f).sns = s.sns := rfl
@[simp] theorem State.onTrs_rail (f : Treasury → Treasury) : (s.onTrs f).rail = s.rail := rfl
@[simp] theorem State.onTrs_frec (f : Treasury → Treasury) : (s.onTrs f).frec = s.frec := rfl
@[simp] theorem State.onTrs_loop (f : Treasury → Treasury) : (s.onTrs f).loop = s.loop := rfl
@[simp] theorem State.onTrs_hm (f : Treasury → Treasury) : (s.onTrs f).hm = s.hm := rfl
@[simp] theorem State.onTrs_hs (f : Treasury → Treasury) : (s.onTrs f).hs = s.hs := rfl
@[simp] theorem State.onTrs_ep (f : Treasury → Treasury) : (s.onTrs f).ep = s.ep := rfl
@[simp] theorem State.onTrs_cp (f : Treasury → Treasury) : (s.onTrs f).cp = s.cp := rfl
@[simp] theorem State.onTrs_hif (f : Treasury → Treasury) : (s.onTrs f).hif = s.hif := rfl
@[simp] theorem State.onTrs_dma (f : Treasury → Treasury) : (s.onTrs f).dma = s.dma := rfl
@[simp] theorem State.onTrs_ldg (f : Treasury → Treasury) : (s.onTrs f).ldg = s.ldg := rfl
@[simp] theorem State.onTrs_fw (f : Treasury → Treasury) : (s.onTrs f).fw = s.fw := rfl
@[simp] theorem State.onTrs_tly (f : Treasury → Treasury) : (s.onTrs f).tly = s.tly := rfl
@[simp] theorem State.onTrs_fc (f : Treasury → Treasury) : (s.onTrs f).fc = s.fc := rfl
@[simp] theorem State.onTrs_trs (f : Treasury → Treasury) : (s.onTrs f).trs = f s.trs := rfl
@[simp] theorem State.onTrs_syn (f : Treasury → Treasury) : (s.onTrs f).syn = s.syn := rfl
@[simp] theorem State.onTrs_clr (f : Treasury → Treasury) : (s.onTrs f).clr = s.clr := rfl
@[simp] theorem State.onTrs_aud (f : Treasury → Treasury) : (s.onTrs f).aud = s.aud := rfl
@[simp] theorem State.onTrs_ho (f : Treasury → Treasury) : (s.onTrs f).ho = s.ho := rfl
@[simp] theorem State.onTrs_free (f : Treasury → Treasury) : (s.onTrs f).free = s.free := rfl
@[simp] theorem State.onTrs_pending (f : Treasury → Treasury) : (s.onTrs f).pending = s.pending := rfl

@[simp] theorem State.onSyn_now (f : Sync → Sync) : (s.onSyn f).now = s.now := rfl
@[simp] theorem State.onSyn_pwr (f : Sync → Sync) : (s.onSyn f).pwr = s.pwr := rfl
@[simp] theorem State.onSyn_cfg (f : Sync → Sync) : (s.onSyn f).cfg = s.cfg := rfl
@[simp] theorem State.onSyn_fuse (f : Sync → Sync) : (s.onSyn f).fuse = s.fuse := rfl
@[simp] theorem State.onSyn_tb (f : Sync → Sync) : (s.onSyn f).tb = s.tb := rfl
@[simp] theorem State.onSyn_frm (f : Sync → Sync) : (s.onSyn f).frm = s.frm := rfl
@[simp] theorem State.onSyn_clk (f : Sync → Sync) : (s.onSyn f).clk = s.clk := rfl
@[simp] theorem State.onSyn_sns (f : Sync → Sync) : (s.onSyn f).sns = s.sns := rfl
@[simp] theorem State.onSyn_rail (f : Sync → Sync) : (s.onSyn f).rail = s.rail := rfl
@[simp] theorem State.onSyn_frec (f : Sync → Sync) : (s.onSyn f).frec = s.frec := rfl
@[simp] theorem State.onSyn_loop (f : Sync → Sync) : (s.onSyn f).loop = s.loop := rfl
@[simp] theorem State.onSyn_hm (f : Sync → Sync) : (s.onSyn f).hm = s.hm := rfl
@[simp] theorem State.onSyn_hs (f : Sync → Sync) : (s.onSyn f).hs = s.hs := rfl
@[simp] theorem State.onSyn_ep (f : Sync → Sync) : (s.onSyn f).ep = s.ep := rfl
@[simp] theorem State.onSyn_cp (f : Sync → Sync) : (s.onSyn f).cp = s.cp := rfl
@[simp] theorem State.onSyn_hif (f : Sync → Sync) : (s.onSyn f).hif = s.hif := rfl
@[simp] theorem State.onSyn_dma (f : Sync → Sync) : (s.onSyn f).dma = s.dma := rfl
@[simp] theorem State.onSyn_ldg (f : Sync → Sync) : (s.onSyn f).ldg = s.ldg := rfl
@[simp] theorem State.onSyn_fw (f : Sync → Sync) : (s.onSyn f).fw = s.fw := rfl
@[simp] theorem State.onSyn_tly (f : Sync → Sync) : (s.onSyn f).tly = s.tly := rfl
@[simp] theorem State.onSyn_fc (f : Sync → Sync) : (s.onSyn f).fc = s.fc := rfl
@[simp] theorem State.onSyn_trs (f : Sync → Sync) : (s.onSyn f).trs = s.trs := rfl
@[simp] theorem State.onSyn_syn (f : Sync → Sync) : (s.onSyn f).syn = f s.syn := rfl
@[simp] theorem State.onSyn_clr (f : Sync → Sync) : (s.onSyn f).clr = s.clr := rfl
@[simp] theorem State.onSyn_aud (f : Sync → Sync) : (s.onSyn f).aud = s.aud := rfl
@[simp] theorem State.onSyn_ho (f : Sync → Sync) : (s.onSyn f).ho = s.ho := rfl
@[simp] theorem State.onSyn_free (f : Sync → Sync) : (s.onSyn f).free = s.free := rfl
@[simp] theorem State.onSyn_pending (f : Sync → Sync) : (s.onSyn f).pending = s.pending := rfl

@[simp] theorem State.onClr_now (f : Clearing → Clearing) : (s.onClr f).now = s.now := rfl
@[simp] theorem State.onClr_pwr (f : Clearing → Clearing) : (s.onClr f).pwr = s.pwr := rfl
@[simp] theorem State.onClr_cfg (f : Clearing → Clearing) : (s.onClr f).cfg = s.cfg := rfl
@[simp] theorem State.onClr_fuse (f : Clearing → Clearing) : (s.onClr f).fuse = s.fuse := rfl
@[simp] theorem State.onClr_tb (f : Clearing → Clearing) : (s.onClr f).tb = s.tb := rfl
@[simp] theorem State.onClr_frm (f : Clearing → Clearing) : (s.onClr f).frm = s.frm := rfl
@[simp] theorem State.onClr_clk (f : Clearing → Clearing) : (s.onClr f).clk = s.clk := rfl
@[simp] theorem State.onClr_sns (f : Clearing → Clearing) : (s.onClr f).sns = s.sns := rfl
@[simp] theorem State.onClr_rail (f : Clearing → Clearing) : (s.onClr f).rail = s.rail := rfl
@[simp] theorem State.onClr_frec (f : Clearing → Clearing) : (s.onClr f).frec = s.frec := rfl
@[simp] theorem State.onClr_loop (f : Clearing → Clearing) : (s.onClr f).loop = s.loop := rfl
@[simp] theorem State.onClr_hm (f : Clearing → Clearing) : (s.onClr f).hm = s.hm := rfl
@[simp] theorem State.onClr_hs (f : Clearing → Clearing) : (s.onClr f).hs = s.hs := rfl
@[simp] theorem State.onClr_ep (f : Clearing → Clearing) : (s.onClr f).ep = s.ep := rfl
@[simp] theorem State.onClr_cp (f : Clearing → Clearing) : (s.onClr f).cp = s.cp := rfl
@[simp] theorem State.onClr_hif (f : Clearing → Clearing) : (s.onClr f).hif = s.hif := rfl
@[simp] theorem State.onClr_dma (f : Clearing → Clearing) : (s.onClr f).dma = s.dma := rfl
@[simp] theorem State.onClr_ldg (f : Clearing → Clearing) : (s.onClr f).ldg = s.ldg := rfl
@[simp] theorem State.onClr_fw (f : Clearing → Clearing) : (s.onClr f).fw = s.fw := rfl
@[simp] theorem State.onClr_tly (f : Clearing → Clearing) : (s.onClr f).tly = s.tly := rfl
@[simp] theorem State.onClr_fc (f : Clearing → Clearing) : (s.onClr f).fc = s.fc := rfl
@[simp] theorem State.onClr_trs (f : Clearing → Clearing) : (s.onClr f).trs = s.trs := rfl
@[simp] theorem State.onClr_syn (f : Clearing → Clearing) : (s.onClr f).syn = s.syn := rfl
@[simp] theorem State.onClr_clr (f : Clearing → Clearing) : (s.onClr f).clr = f s.clr := rfl
@[simp] theorem State.onClr_aud (f : Clearing → Clearing) : (s.onClr f).aud = s.aud := rfl
@[simp] theorem State.onClr_ho (f : Clearing → Clearing) : (s.onClr f).ho = s.ho := rfl
@[simp] theorem State.onClr_free (f : Clearing → Clearing) : (s.onClr f).free = s.free := rfl
@[simp] theorem State.onClr_pending (f : Clearing → Clearing) : (s.onClr f).pending = s.pending := rfl

@[simp] theorem State.onAud_now (f : Audit → Audit) : (s.onAud f).now = s.now := rfl
@[simp] theorem State.onAud_pwr (f : Audit → Audit) : (s.onAud f).pwr = s.pwr := rfl
@[simp] theorem State.onAud_cfg (f : Audit → Audit) : (s.onAud f).cfg = s.cfg := rfl
@[simp] theorem State.onAud_fuse (f : Audit → Audit) : (s.onAud f).fuse = s.fuse := rfl
@[simp] theorem State.onAud_tb (f : Audit → Audit) : (s.onAud f).tb = s.tb := rfl
@[simp] theorem State.onAud_frm (f : Audit → Audit) : (s.onAud f).frm = s.frm := rfl
@[simp] theorem State.onAud_clk (f : Audit → Audit) : (s.onAud f).clk = s.clk := rfl
@[simp] theorem State.onAud_sns (f : Audit → Audit) : (s.onAud f).sns = s.sns := rfl
@[simp] theorem State.onAud_rail (f : Audit → Audit) : (s.onAud f).rail = s.rail := rfl
@[simp] theorem State.onAud_frec (f : Audit → Audit) : (s.onAud f).frec = s.frec := rfl
@[simp] theorem State.onAud_loop (f : Audit → Audit) : (s.onAud f).loop = s.loop := rfl
@[simp] theorem State.onAud_hm (f : Audit → Audit) : (s.onAud f).hm = s.hm := rfl
@[simp] theorem State.onAud_hs (f : Audit → Audit) : (s.onAud f).hs = s.hs := rfl
@[simp] theorem State.onAud_ep (f : Audit → Audit) : (s.onAud f).ep = s.ep := rfl
@[simp] theorem State.onAud_cp (f : Audit → Audit) : (s.onAud f).cp = s.cp := rfl
@[simp] theorem State.onAud_hif (f : Audit → Audit) : (s.onAud f).hif = s.hif := rfl
@[simp] theorem State.onAud_dma (f : Audit → Audit) : (s.onAud f).dma = s.dma := rfl
@[simp] theorem State.onAud_ldg (f : Audit → Audit) : (s.onAud f).ldg = s.ldg := rfl
@[simp] theorem State.onAud_fw (f : Audit → Audit) : (s.onAud f).fw = s.fw := rfl
@[simp] theorem State.onAud_tly (f : Audit → Audit) : (s.onAud f).tly = s.tly := rfl
@[simp] theorem State.onAud_fc (f : Audit → Audit) : (s.onAud f).fc = s.fc := rfl
@[simp] theorem State.onAud_trs (f : Audit → Audit) : (s.onAud f).trs = s.trs := rfl
@[simp] theorem State.onAud_syn (f : Audit → Audit) : (s.onAud f).syn = s.syn := rfl
@[simp] theorem State.onAud_clr (f : Audit → Audit) : (s.onAud f).clr = s.clr := rfl
@[simp] theorem State.onAud_aud (f : Audit → Audit) : (s.onAud f).aud = f s.aud := rfl
@[simp] theorem State.onAud_ho (f : Audit → Audit) : (s.onAud f).ho = s.ho := rfl
@[simp] theorem State.onAud_free (f : Audit → Audit) : (s.onAud f).free = s.free := rfl
@[simp] theorem State.onAud_pending (f : Audit → Audit) : (s.onAud f).pending = s.pending := rfl

@[simp] theorem State.onHo_now (f : Option HandOff → Option HandOff) : (s.onHo f).now = s.now := rfl
@[simp] theorem State.onHo_pwr (f : Option HandOff → Option HandOff) : (s.onHo f).pwr = s.pwr := rfl
@[simp] theorem State.onHo_cfg (f : Option HandOff → Option HandOff) : (s.onHo f).cfg = s.cfg := rfl
@[simp] theorem State.onHo_fuse (f : Option HandOff → Option HandOff) : (s.onHo f).fuse = s.fuse := rfl
@[simp] theorem State.onHo_tb (f : Option HandOff → Option HandOff) : (s.onHo f).tb = s.tb := rfl
@[simp] theorem State.onHo_frm (f : Option HandOff → Option HandOff) : (s.onHo f).frm = s.frm := rfl
@[simp] theorem State.onHo_clk (f : Option HandOff → Option HandOff) : (s.onHo f).clk = s.clk := rfl
@[simp] theorem State.onHo_sns (f : Option HandOff → Option HandOff) : (s.onHo f).sns = s.sns := rfl
@[simp] theorem State.onHo_rail (f : Option HandOff → Option HandOff) : (s.onHo f).rail = s.rail := rfl
@[simp] theorem State.onHo_frec (f : Option HandOff → Option HandOff) : (s.onHo f).frec = s.frec := rfl
@[simp] theorem State.onHo_loop (f : Option HandOff → Option HandOff) : (s.onHo f).loop = s.loop := rfl
@[simp] theorem State.onHo_hm (f : Option HandOff → Option HandOff) : (s.onHo f).hm = s.hm := rfl
@[simp] theorem State.onHo_hs (f : Option HandOff → Option HandOff) : (s.onHo f).hs = s.hs := rfl
@[simp] theorem State.onHo_ep (f : Option HandOff → Option HandOff) : (s.onHo f).ep = s.ep := rfl
@[simp] theorem State.onHo_cp (f : Option HandOff → Option HandOff) : (s.onHo f).cp = s.cp := rfl
@[simp] theorem State.onHo_hif (f : Option HandOff → Option HandOff) : (s.onHo f).hif = s.hif := rfl
@[simp] theorem State.onHo_dma (f : Option HandOff → Option HandOff) : (s.onHo f).dma = s.dma := rfl
@[simp] theorem State.onHo_ldg (f : Option HandOff → Option HandOff) : (s.onHo f).ldg = s.ldg := rfl
@[simp] theorem State.onHo_fw (f : Option HandOff → Option HandOff) : (s.onHo f).fw = s.fw := rfl
@[simp] theorem State.onHo_tly (f : Option HandOff → Option HandOff) : (s.onHo f).tly = s.tly := rfl
@[simp] theorem State.onHo_fc (f : Option HandOff → Option HandOff) : (s.onHo f).fc = s.fc := rfl
@[simp] theorem State.onHo_trs (f : Option HandOff → Option HandOff) : (s.onHo f).trs = s.trs := rfl
@[simp] theorem State.onHo_syn (f : Option HandOff → Option HandOff) : (s.onHo f).syn = s.syn := rfl
@[simp] theorem State.onHo_clr (f : Option HandOff → Option HandOff) : (s.onHo f).clr = s.clr := rfl
@[simp] theorem State.onHo_aud (f : Option HandOff → Option HandOff) : (s.onHo f).aud = s.aud := rfl
@[simp] theorem State.onHo_ho (f : Option HandOff → Option HandOff) : (s.onHo f).ho = f s.ho := rfl
@[simp] theorem State.onHo_free (f : Option HandOff → Option HandOff) : (s.onHo f).free = s.free := rfl
@[simp] theorem State.onHo_pending (f : Option HandOff → Option HandOff) : (s.onHo f).pending = s.pending := rfl

@[simp] theorem State.onFree_now (f : Nat → Nat) : (s.onFree f).now = s.now := rfl
@[simp] theorem State.onFree_pwr (f : Nat → Nat) : (s.onFree f).pwr = s.pwr := rfl
@[simp] theorem State.onFree_cfg (f : Nat → Nat) : (s.onFree f).cfg = s.cfg := rfl
@[simp] theorem State.onFree_fuse (f : Nat → Nat) : (s.onFree f).fuse = s.fuse := rfl
@[simp] theorem State.onFree_tb (f : Nat → Nat) : (s.onFree f).tb = s.tb := rfl
@[simp] theorem State.onFree_frm (f : Nat → Nat) : (s.onFree f).frm = s.frm := rfl
@[simp] theorem State.onFree_clk (f : Nat → Nat) : (s.onFree f).clk = s.clk := rfl
@[simp] theorem State.onFree_sns (f : Nat → Nat) : (s.onFree f).sns = s.sns := rfl
@[simp] theorem State.onFree_rail (f : Nat → Nat) : (s.onFree f).rail = s.rail := rfl
@[simp] theorem State.onFree_frec (f : Nat → Nat) : (s.onFree f).frec = s.frec := rfl
@[simp] theorem State.onFree_loop (f : Nat → Nat) : (s.onFree f).loop = s.loop := rfl
@[simp] theorem State.onFree_hm (f : Nat → Nat) : (s.onFree f).hm = s.hm := rfl
@[simp] theorem State.onFree_hs (f : Nat → Nat) : (s.onFree f).hs = s.hs := rfl
@[simp] theorem State.onFree_ep (f : Nat → Nat) : (s.onFree f).ep = s.ep := rfl
@[simp] theorem State.onFree_cp (f : Nat → Nat) : (s.onFree f).cp = s.cp := rfl
@[simp] theorem State.onFree_hif (f : Nat → Nat) : (s.onFree f).hif = s.hif := rfl
@[simp] theorem State.onFree_dma (f : Nat → Nat) : (s.onFree f).dma = s.dma := rfl
@[simp] theorem State.onFree_ldg (f : Nat → Nat) : (s.onFree f).ldg = s.ldg := rfl
@[simp] theorem State.onFree_fw (f : Nat → Nat) : (s.onFree f).fw = s.fw := rfl
@[simp] theorem State.onFree_tly (f : Nat → Nat) : (s.onFree f).tly = s.tly := rfl
@[simp] theorem State.onFree_fc (f : Nat → Nat) : (s.onFree f).fc = s.fc := rfl
@[simp] theorem State.onFree_trs (f : Nat → Nat) : (s.onFree f).trs = s.trs := rfl
@[simp] theorem State.onFree_syn (f : Nat → Nat) : (s.onFree f).syn = s.syn := rfl
@[simp] theorem State.onFree_clr (f : Nat → Nat) : (s.onFree f).clr = s.clr := rfl
@[simp] theorem State.onFree_aud (f : Nat → Nat) : (s.onFree f).aud = s.aud := rfl
@[simp] theorem State.onFree_ho (f : Nat → Nat) : (s.onFree f).ho = s.ho := rfl
@[simp] theorem State.onFree_free (f : Nat → Nat) : (s.onFree f).free = f s.free := rfl
@[simp] theorem State.onFree_pending (f : Nat → Nat) : (s.onFree f).pending = s.pending := rfl

end Parts

section Entries
variable (s : State) (k : Nat)

@[simp] theorem State.updCtx_now (f : Ctx → Ctx) : (s.updCtx k f).now = s.now := rfl
@[simp] theorem State.updCtx_pwr (f : Ctx → Ctx) : (s.updCtx k f).pwr = s.pwr := rfl
@[simp] theorem State.updCtx_cfg (f : Ctx → Ctx) : (s.updCtx k f).cfg = s.cfg := rfl
@[simp] theorem State.updCtx_fuse (f : Ctx → Ctx) : (s.updCtx k f).fuse = s.fuse := rfl
@[simp] theorem State.updCtx_tb (f : Ctx → Ctx) : (s.updCtx k f).tb = s.tb := rfl
@[simp] theorem State.updCtx_frm (f : Ctx → Ctx) : (s.updCtx k f).frm = s.frm := rfl
@[simp] theorem State.updCtx_clk (f : Ctx → Ctx) : (s.updCtx k f).clk = s.clk := rfl
@[simp] theorem State.updCtx_sns (f : Ctx → Ctx) : (s.updCtx k f).sns = s.sns := rfl
@[simp] theorem State.updCtx_rail (f : Ctx → Ctx) : (s.updCtx k f).rail = s.rail := rfl
@[simp] theorem State.updCtx_frec (f : Ctx → Ctx) : (s.updCtx k f).frec = s.frec := rfl
@[simp] theorem State.updCtx_loop (f : Ctx → Ctx) : (s.updCtx k f).loop = s.loop := rfl
@[simp] theorem State.updCtx_hm (f : Ctx → Ctx) : (s.updCtx k f).hm = s.hm := rfl
@[simp] theorem State.updCtx_hs (f : Ctx → Ctx) : (s.updCtx k f).hs = s.hs := rfl
@[simp] theorem State.updCtx_ep (f : Ctx → Ctx) : (s.updCtx k f).ep = s.ep := rfl
@[simp] theorem State.updCtx_cp (f : Ctx → Ctx) : (s.updCtx k f).cp = s.cp := rfl
@[simp] theorem State.updCtx_dma (f : Ctx → Ctx) : (s.updCtx k f).dma = s.dma := rfl
@[simp] theorem State.updCtx_ldg (f : Ctx → Ctx) : (s.updCtx k f).ldg = s.ldg := rfl
@[simp] theorem State.updCtx_fw (f : Ctx → Ctx) : (s.updCtx k f).fw = s.fw := rfl
@[simp] theorem State.updCtx_tly (f : Ctx → Ctx) : (s.updCtx k f).tly = s.tly := rfl
@[simp] theorem State.updCtx_fc (f : Ctx → Ctx) : (s.updCtx k f).fc = s.fc := rfl
@[simp] theorem State.updCtx_trs (f : Ctx → Ctx) : (s.updCtx k f).trs = s.trs := rfl
@[simp] theorem State.updCtx_syn (f : Ctx → Ctx) : (s.updCtx k f).syn = s.syn := rfl
@[simp] theorem State.updCtx_clr (f : Ctx → Ctx) : (s.updCtx k f).clr = s.clr := rfl
@[simp] theorem State.updCtx_aud (f : Ctx → Ctx) : (s.updCtx k f).aud = s.aud := rfl
@[simp] theorem State.updCtx_ho (f : Ctx → Ctx) : (s.updCtx k f).ho = s.ho := rfl
@[simp] theorem State.updCtx_free (f : Ctx → Ctx) : (s.updCtx k f).free = s.free := rfl
@[simp] theorem State.updCtx_pending (f : Ctx → Ctx) : (s.updCtx k f).pending = s.pending := rfl
@[simp] theorem State.getCtx_updCtx (f : Ctx → Ctx) : (s.updCtx k f).getCtx k = f (s.getCtx k) :=
  Tbl.get_upd_self ..
theorem State.getCtx_updCtx_ne (f : Ctx → Ctx) {j : Nat} (h : j ≠ k) : (s.updCtx k f).getCtx j = s.getCtx j :=
  Tbl.get_upd_ne _ _ h

@[simp] theorem State.updChan_now (f : DmaChan → DmaChan) : (s.updChan k f).now = s.now := rfl
@[simp] theorem State.updChan_pwr (f : DmaChan → DmaChan) : (s.updChan k f).pwr = s.pwr := rfl
@[simp] theorem State.updChan_cfg (f : DmaChan → DmaChan) : (s.updChan k f).cfg = s.cfg := rfl
@[simp] theorem State.updChan_fuse (f : DmaChan → DmaChan) : (s.updChan k f).fuse = s.fuse := rfl
@[simp] theorem State.updChan_tb (f : DmaChan → DmaChan) : (s.updChan k f).tb = s.tb := rfl
@[simp] theorem State.updChan_frm (f : DmaChan → DmaChan) : (s.updChan k f).frm = s.frm := rfl
@[simp] theorem State.updChan_clk (f : DmaChan → DmaChan) : (s.updChan k f).clk = s.clk := rfl
@[simp] theorem State.updChan_sns (f : DmaChan → DmaChan) : (s.updChan k f).sns = s.sns := rfl
@[simp] theorem State.updChan_rail (f : DmaChan → DmaChan) : (s.updChan k f).rail = s.rail := rfl
@[simp] theorem State.updChan_frec (f : DmaChan → DmaChan) : (s.updChan k f).frec = s.frec := rfl
@[simp] theorem State.updChan_loop (f : DmaChan → DmaChan) : (s.updChan k f).loop = s.loop := rfl
@[simp] theorem State.updChan_hm (f : DmaChan → DmaChan) : (s.updChan k f).hm = s.hm := rfl
@[simp] theorem State.updChan_hs (f : DmaChan → DmaChan) : (s.updChan k f).hs = s.hs := rfl
@[simp] theorem State.updChan_ep (f : DmaChan → DmaChan) : (s.updChan k f).ep = s.ep := rfl
@[simp] theorem State.updChan_cp (f : DmaChan → DmaChan) : (s.updChan k f).cp = s.cp := rfl
@[simp] theorem State.updChan_hif (f : DmaChan → DmaChan) : (s.updChan k f).hif = s.hif := rfl
@[simp] theorem State.updChan_ldg (f : DmaChan → DmaChan) : (s.updChan k f).ldg = s.ldg := rfl
@[simp] theorem State.updChan_fw (f : DmaChan → DmaChan) : (s.updChan k f).fw = s.fw := rfl
@[simp] theorem State.updChan_tly (f : DmaChan → DmaChan) : (s.updChan k f).tly = s.tly := rfl
@[simp] theorem State.updChan_fc (f : DmaChan → DmaChan) : (s.updChan k f).fc = s.fc := rfl
@[simp] theorem State.updChan_trs (f : DmaChan → DmaChan) : (s.updChan k f).trs = s.trs := rfl
@[simp] theorem State.updChan_syn (f : DmaChan → DmaChan) : (s.updChan k f).syn = s.syn := rfl
@[simp] theorem State.updChan_clr (f : DmaChan → DmaChan) : (s.updChan k f).clr = s.clr := rfl
@[simp] theorem State.updChan_aud (f : DmaChan → DmaChan) : (s.updChan k f).aud = s.aud := rfl
@[simp] theorem State.updChan_ho (f : DmaChan → DmaChan) : (s.updChan k f).ho = s.ho := rfl
@[simp] theorem State.updChan_free (f : DmaChan → DmaChan) : (s.updChan k f).free = s.free := rfl
@[simp] theorem State.updChan_pending (f : DmaChan → DmaChan) : (s.updChan k f).pending = s.pending := rfl
@[simp] theorem State.getChan_updChan (f : DmaChan → DmaChan) : (s.updChan k f).getChan k = f (s.getChan k) :=
  Tbl.get_upd_self ..
theorem State.getChan_updChan_ne (f : DmaChan → DmaChan) {j : Nat} (h : j ≠ k) : (s.updChan k f).getChan j = s.getChan j :=
  Tbl.get_upd_ne _ _ h

@[simp] theorem State.updRt_now (f : SlotRt → SlotRt) : (s.updRt k f).now = s.now := rfl
@[simp] theorem State.updRt_pwr (f : SlotRt → SlotRt) : (s.updRt k f).pwr = s.pwr := rfl
@[simp] theorem State.updRt_cfg (f : SlotRt → SlotRt) : (s.updRt k f).cfg = s.cfg := rfl
@[simp] theorem State.updRt_fuse (f : SlotRt → SlotRt) : (s.updRt k f).fuse = s.fuse := rfl
@[simp] theorem State.updRt_tb (f : SlotRt → SlotRt) : (s.updRt k f).tb = s.tb := rfl
@[simp] theorem State.updRt_clk (f : SlotRt → SlotRt) : (s.updRt k f).clk = s.clk := rfl
@[simp] theorem State.updRt_sns (f : SlotRt → SlotRt) : (s.updRt k f).sns = s.sns := rfl
@[simp] theorem State.updRt_rail (f : SlotRt → SlotRt) : (s.updRt k f).rail = s.rail := rfl
@[simp] theorem State.updRt_frec (f : SlotRt → SlotRt) : (s.updRt k f).frec = s.frec := rfl
@[simp] theorem State.updRt_loop (f : SlotRt → SlotRt) : (s.updRt k f).loop = s.loop := rfl
@[simp] theorem State.updRt_hm (f : SlotRt → SlotRt) : (s.updRt k f).hm = s.hm := rfl
@[simp] theorem State.updRt_hs (f : SlotRt → SlotRt) : (s.updRt k f).hs = s.hs := rfl
@[simp] theorem State.updRt_ep (f : SlotRt → SlotRt) : (s.updRt k f).ep = s.ep := rfl
@[simp] theorem State.updRt_cp (f : SlotRt → SlotRt) : (s.updRt k f).cp = s.cp := rfl
@[simp] theorem State.updRt_hif (f : SlotRt → SlotRt) : (s.updRt k f).hif = s.hif := rfl
@[simp] theorem State.updRt_dma (f : SlotRt → SlotRt) : (s.updRt k f).dma = s.dma := rfl
@[simp] theorem State.updRt_ldg (f : SlotRt → SlotRt) : (s.updRt k f).ldg = s.ldg := rfl
@[simp] theorem State.updRt_fw (f : SlotRt → SlotRt) : (s.updRt k f).fw = s.fw := rfl
@[simp] theorem State.updRt_tly (f : SlotRt → SlotRt) : (s.updRt k f).tly = s.tly := rfl
@[simp] theorem State.updRt_fc (f : SlotRt → SlotRt) : (s.updRt k f).fc = s.fc := rfl
@[simp] theorem State.updRt_trs (f : SlotRt → SlotRt) : (s.updRt k f).trs = s.trs := rfl
@[simp] theorem State.updRt_syn (f : SlotRt → SlotRt) : (s.updRt k f).syn = s.syn := rfl
@[simp] theorem State.updRt_clr (f : SlotRt → SlotRt) : (s.updRt k f).clr = s.clr := rfl
@[simp] theorem State.updRt_aud (f : SlotRt → SlotRt) : (s.updRt k f).aud = s.aud := rfl
@[simp] theorem State.updRt_ho (f : SlotRt → SlotRt) : (s.updRt k f).ho = s.ho := rfl
@[simp] theorem State.updRt_free (f : SlotRt → SlotRt) : (s.updRt k f).free = s.free := rfl
@[simp] theorem State.updRt_pending (f : SlotRt → SlotRt) : (s.updRt k f).pending = s.pending := rfl
@[simp] theorem State.getRt_updRt (f : SlotRt → SlotRt) : (s.updRt k f).getRt k = f (s.getRt k) :=
  Tbl.get_upd_self ..
theorem State.getRt_updRt_ne (f : SlotRt → SlotRt) {j : Nat} (h : j ≠ k) : (s.updRt k f).getRt j = s.getRt j :=
  Tbl.get_upd_ne _ _ h

@[simp] theorem State.updBack_now (f : Backstop → Backstop) : (s.updBack k f).now = s.now := rfl
@[simp] theorem State.updBack_pwr (f : Backstop → Backstop) : (s.updBack k f).pwr = s.pwr := rfl
@[simp] theorem State.updBack_cfg (f : Backstop → Backstop) : (s.updBack k f).cfg = s.cfg := rfl
@[simp] theorem State.updBack_fuse (f : Backstop → Backstop) : (s.updBack k f).fuse = s.fuse := rfl
@[simp] theorem State.updBack_tb (f : Backstop → Backstop) : (s.updBack k f).tb = s.tb := rfl
@[simp] theorem State.updBack_clk (f : Backstop → Backstop) : (s.updBack k f).clk = s.clk := rfl
@[simp] theorem State.updBack_sns (f : Backstop → Backstop) : (s.updBack k f).sns = s.sns := rfl
@[simp] theorem State.updBack_rail (f : Backstop → Backstop) : (s.updBack k f).rail = s.rail := rfl
@[simp] theorem State.updBack_frec (f : Backstop → Backstop) : (s.updBack k f).frec = s.frec := rfl
@[simp] theorem State.updBack_loop (f : Backstop → Backstop) : (s.updBack k f).loop = s.loop := rfl
@[simp] theorem State.updBack_hm (f : Backstop → Backstop) : (s.updBack k f).hm = s.hm := rfl
@[simp] theorem State.updBack_hs (f : Backstop → Backstop) : (s.updBack k f).hs = s.hs := rfl
@[simp] theorem State.updBack_ep (f : Backstop → Backstop) : (s.updBack k f).ep = s.ep := rfl
@[simp] theorem State.updBack_cp (f : Backstop → Backstop) : (s.updBack k f).cp = s.cp := rfl
@[simp] theorem State.updBack_hif (f : Backstop → Backstop) : (s.updBack k f).hif = s.hif := rfl
@[simp] theorem State.updBack_dma (f : Backstop → Backstop) : (s.updBack k f).dma = s.dma := rfl
@[simp] theorem State.updBack_ldg (f : Backstop → Backstop) : (s.updBack k f).ldg = s.ldg := rfl
@[simp] theorem State.updBack_fw (f : Backstop → Backstop) : (s.updBack k f).fw = s.fw := rfl
@[simp] theorem State.updBack_tly (f : Backstop → Backstop) : (s.updBack k f).tly = s.tly := rfl
@[simp] theorem State.updBack_fc (f : Backstop → Backstop) : (s.updBack k f).fc = s.fc := rfl
@[simp] theorem State.updBack_trs (f : Backstop → Backstop) : (s.updBack k f).trs = s.trs := rfl
@[simp] theorem State.updBack_syn (f : Backstop → Backstop) : (s.updBack k f).syn = s.syn := rfl
@[simp] theorem State.updBack_clr (f : Backstop → Backstop) : (s.updBack k f).clr = s.clr := rfl
@[simp] theorem State.updBack_aud (f : Backstop → Backstop) : (s.updBack k f).aud = s.aud := rfl
@[simp] theorem State.updBack_ho (f : Backstop → Backstop) : (s.updBack k f).ho = s.ho := rfl
@[simp] theorem State.updBack_free (f : Backstop → Backstop) : (s.updBack k f).free = s.free := rfl
@[simp] theorem State.updBack_pending (f : Backstop → Backstop) : (s.updBack k f).pending = s.pending := rfl
@[simp] theorem State.getBack_updBack (f : Backstop → Backstop) : (s.updBack k f).getBack k = f (s.getBack k) :=
  Tbl.get_upd_self ..
theorem State.getBack_updBack_ne (f : Backstop → Backstop) {j : Nat} (h : j ≠ k) : (s.updBack k f).getBack j = s.getBack j :=
  Tbl.get_upd_ne _ _ h

@[simp] theorem State.updDom_now (f : Dom → Dom) : (s.updDom k f).now = s.now := rfl
@[simp] theorem State.updDom_pwr (f : Dom → Dom) : (s.updDom k f).pwr = s.pwr := rfl
@[simp] theorem State.updDom_cfg (f : Dom → Dom) : (s.updDom k f).cfg = s.cfg := rfl
@[simp] theorem State.updDom_fuse (f : Dom → Dom) : (s.updDom k f).fuse = s.fuse := rfl
@[simp] theorem State.updDom_tb (f : Dom → Dom) : (s.updDom k f).tb = s.tb := rfl
@[simp] theorem State.updDom_frm (f : Dom → Dom) : (s.updDom k f).frm = s.frm := rfl
@[simp] theorem State.updDom_sns (f : Dom → Dom) : (s.updDom k f).sns = s.sns := rfl
@[simp] theorem State.updDom_rail (f : Dom → Dom) : (s.updDom k f).rail = s.rail := rfl
@[simp] theorem State.updDom_frec (f : Dom → Dom) : (s.updDom k f).frec = s.frec := rfl
@[simp] theorem State.updDom_loop (f : Dom → Dom) : (s.updDom k f).loop = s.loop := rfl
@[simp] theorem State.updDom_hm (f : Dom → Dom) : (s.updDom k f).hm = s.hm := rfl
@[simp] theorem State.updDom_hs (f : Dom → Dom) : (s.updDom k f).hs = s.hs := rfl
@[simp] theorem State.updDom_ep (f : Dom → Dom) : (s.updDom k f).ep = s.ep := rfl
@[simp] theorem State.updDom_cp (f : Dom → Dom) : (s.updDom k f).cp = s.cp := rfl
@[simp] theorem State.updDom_hif (f : Dom → Dom) : (s.updDom k f).hif = s.hif := rfl
@[simp] theorem State.updDom_dma (f : Dom → Dom) : (s.updDom k f).dma = s.dma := rfl
@[simp] theorem State.updDom_ldg (f : Dom → Dom) : (s.updDom k f).ldg = s.ldg := rfl
@[simp] theorem State.updDom_fw (f : Dom → Dom) : (s.updDom k f).fw = s.fw := rfl
@[simp] theorem State.updDom_tly (f : Dom → Dom) : (s.updDom k f).tly = s.tly := rfl
@[simp] theorem State.updDom_fc (f : Dom → Dom) : (s.updDom k f).fc = s.fc := rfl
@[simp] theorem State.updDom_trs (f : Dom → Dom) : (s.updDom k f).trs = s.trs := rfl
@[simp] theorem State.updDom_syn (f : Dom → Dom) : (s.updDom k f).syn = s.syn := rfl
@[simp] theorem State.updDom_clr (f : Dom → Dom) : (s.updDom k f).clr = s.clr := rfl
@[simp] theorem State.updDom_aud (f : Dom → Dom) : (s.updDom k f).aud = s.aud := rfl
@[simp] theorem State.updDom_ho (f : Dom → Dom) : (s.updDom k f).ho = s.ho := rfl
@[simp] theorem State.updDom_free (f : Dom → Dom) : (s.updDom k f).free = s.free := rfl
@[simp] theorem State.updDom_pending (f : Dom → Dom) : (s.updDom k f).pending = s.pending := rfl
@[simp] theorem State.getDom_updDom (f : Dom → Dom) : (s.updDom k f).getDom k = f (s.getDom k) :=
  Tbl.get_upd_self ..
theorem State.getDom_updDom_ne (f : Dom → Dom) {j : Nat} (h : j ≠ k) : (s.updDom k f).getDom j = s.getDom j :=
  Tbl.get_upd_ne _ _ h

@[simp] theorem State.updSite_now (f : Site → Site) : (s.updSite k f).now = s.now := rfl
@[simp] theorem State.updSite_pwr (f : Site → Site) : (s.updSite k f).pwr = s.pwr := rfl
@[simp] theorem State.updSite_cfg (f : Site → Site) : (s.updSite k f).cfg = s.cfg := rfl
@[simp] theorem State.updSite_fuse (f : Site → Site) : (s.updSite k f).fuse = s.fuse := rfl
@[simp] theorem State.updSite_tb (f : Site → Site) : (s.updSite k f).tb = s.tb := rfl
@[simp] theorem State.updSite_frm (f : Site → Site) : (s.updSite k f).frm = s.frm := rfl
@[simp] theorem State.updSite_clk (f : Site → Site) : (s.updSite k f).clk = s.clk := rfl
@[simp] theorem State.updSite_rail (f : Site → Site) : (s.updSite k f).rail = s.rail := rfl
@[simp] theorem State.updSite_frec (f : Site → Site) : (s.updSite k f).frec = s.frec := rfl
@[simp] theorem State.updSite_loop (f : Site → Site) : (s.updSite k f).loop = s.loop := rfl
@[simp] theorem State.updSite_hm (f : Site → Site) : (s.updSite k f).hm = s.hm := rfl
@[simp] theorem State.updSite_hs (f : Site → Site) : (s.updSite k f).hs = s.hs := rfl
@[simp] theorem State.updSite_ep (f : Site → Site) : (s.updSite k f).ep = s.ep := rfl
@[simp] theorem State.updSite_cp (f : Site → Site) : (s.updSite k f).cp = s.cp := rfl
@[simp] theorem State.updSite_hif (f : Site → Site) : (s.updSite k f).hif = s.hif := rfl
@[simp] theorem State.updSite_dma (f : Site → Site) : (s.updSite k f).dma = s.dma := rfl
@[simp] theorem State.updSite_ldg (f : Site → Site) : (s.updSite k f).ldg = s.ldg := rfl
@[simp] theorem State.updSite_fw (f : Site → Site) : (s.updSite k f).fw = s.fw := rfl
@[simp] theorem State.updSite_tly (f : Site → Site) : (s.updSite k f).tly = s.tly := rfl
@[simp] theorem State.updSite_fc (f : Site → Site) : (s.updSite k f).fc = s.fc := rfl
@[simp] theorem State.updSite_trs (f : Site → Site) : (s.updSite k f).trs = s.trs := rfl
@[simp] theorem State.updSite_syn (f : Site → Site) : (s.updSite k f).syn = s.syn := rfl
@[simp] theorem State.updSite_clr (f : Site → Site) : (s.updSite k f).clr = s.clr := rfl
@[simp] theorem State.updSite_aud (f : Site → Site) : (s.updSite k f).aud = s.aud := rfl
@[simp] theorem State.updSite_ho (f : Site → Site) : (s.updSite k f).ho = s.ho := rfl
@[simp] theorem State.updSite_free (f : Site → Site) : (s.updSite k f).free = s.free := rfl
@[simp] theorem State.updSite_pending (f : Site → Site) : (s.updSite k f).pending = s.pending := rfl
@[simp] theorem State.getSite_updSite (f : Site → Site) : (s.updSite k f).getSite k = f (s.getSite k) :=
  Tbl.get_upd_self ..
theorem State.getSite_updSite_ne (f : Site → Site) {j : Nat} (h : j ≠ k) : (s.updSite k f).getSite j = s.getSite j :=
  Tbl.get_upd_ne _ _ h

@[simp] theorem State.updDet_now (f : Det → Det) : (s.updDet k f).now = s.now := rfl
@[simp] theorem State.updDet_pwr (f : Det → Det) : (s.updDet k f).pwr = s.pwr := rfl
@[simp] theorem State.updDet_cfg (f : Det → Det) : (s.updDet k f).cfg = s.cfg := rfl
@[simp] theorem State.updDet_fuse (f : Det → Det) : (s.updDet k f).fuse = s.fuse := rfl
@[simp] theorem State.updDet_tb (f : Det → Det) : (s.updDet k f).tb = s.tb := rfl
@[simp] theorem State.updDet_frm (f : Det → Det) : (s.updDet k f).frm = s.frm := rfl
@[simp] theorem State.updDet_clk (f : Det → Det) : (s.updDet k f).clk = s.clk := rfl
@[simp] theorem State.updDet_rail (f : Det → Det) : (s.updDet k f).rail = s.rail := rfl
@[simp] theorem State.updDet_frec (f : Det → Det) : (s.updDet k f).frec = s.frec := rfl
@[simp] theorem State.updDet_loop (f : Det → Det) : (s.updDet k f).loop = s.loop := rfl
@[simp] theorem State.updDet_hm (f : Det → Det) : (s.updDet k f).hm = s.hm := rfl
@[simp] theorem State.updDet_hs (f : Det → Det) : (s.updDet k f).hs = s.hs := rfl
@[simp] theorem State.updDet_ep (f : Det → Det) : (s.updDet k f).ep = s.ep := rfl
@[simp] theorem State.updDet_cp (f : Det → Det) : (s.updDet k f).cp = s.cp := rfl
@[simp] theorem State.updDet_hif (f : Det → Det) : (s.updDet k f).hif = s.hif := rfl
@[simp] theorem State.updDet_dma (f : Det → Det) : (s.updDet k f).dma = s.dma := rfl
@[simp] theorem State.updDet_ldg (f : Det → Det) : (s.updDet k f).ldg = s.ldg := rfl
@[simp] theorem State.updDet_fw (f : Det → Det) : (s.updDet k f).fw = s.fw := rfl
@[simp] theorem State.updDet_tly (f : Det → Det) : (s.updDet k f).tly = s.tly := rfl
@[simp] theorem State.updDet_fc (f : Det → Det) : (s.updDet k f).fc = s.fc := rfl
@[simp] theorem State.updDet_trs (f : Det → Det) : (s.updDet k f).trs = s.trs := rfl
@[simp] theorem State.updDet_syn (f : Det → Det) : (s.updDet k f).syn = s.syn := rfl
@[simp] theorem State.updDet_clr (f : Det → Det) : (s.updDet k f).clr = s.clr := rfl
@[simp] theorem State.updDet_aud (f : Det → Det) : (s.updDet k f).aud = s.aud := rfl
@[simp] theorem State.updDet_ho (f : Det → Det) : (s.updDet k f).ho = s.ho := rfl
@[simp] theorem State.updDet_free (f : Det → Det) : (s.updDet k f).free = s.free := rfl
@[simp] theorem State.updDet_pending (f : Det → Det) : (s.updDet k f).pending = s.pending := rfl
@[simp] theorem State.getDet_updDet (f : Det → Det) : (s.updDet k f).getDet k = f (s.getDet k) :=
  Tbl.get_upd_self ..
theorem State.getDet_updDet_ne (f : Det → Det) {j : Nat} (h : j ≠ k) : (s.updDet k f).getDet j = s.getDet j :=
  Tbl.get_upd_ne _ _ h

@[simp] theorem State.updMon_now (f : Mon → Mon) : (s.updMon k f).now = s.now := rfl
@[simp] theorem State.updMon_pwr (f : Mon → Mon) : (s.updMon k f).pwr = s.pwr := rfl
@[simp] theorem State.updMon_cfg (f : Mon → Mon) : (s.updMon k f).cfg = s.cfg := rfl
@[simp] theorem State.updMon_fuse (f : Mon → Mon) : (s.updMon k f).fuse = s.fuse := rfl
@[simp] theorem State.updMon_tb (f : Mon → Mon) : (s.updMon k f).tb = s.tb := rfl
@[simp] theorem State.updMon_frm (f : Mon → Mon) : (s.updMon k f).frm = s.frm := rfl
@[simp] theorem State.updMon_clk (f : Mon → Mon) : (s.updMon k f).clk = s.clk := rfl
@[simp] theorem State.updMon_rail (f : Mon → Mon) : (s.updMon k f).rail = s.rail := rfl
@[simp] theorem State.updMon_frec (f : Mon → Mon) : (s.updMon k f).frec = s.frec := rfl
@[simp] theorem State.updMon_loop (f : Mon → Mon) : (s.updMon k f).loop = s.loop := rfl
@[simp] theorem State.updMon_hm (f : Mon → Mon) : (s.updMon k f).hm = s.hm := rfl
@[simp] theorem State.updMon_hs (f : Mon → Mon) : (s.updMon k f).hs = s.hs := rfl
@[simp] theorem State.updMon_ep (f : Mon → Mon) : (s.updMon k f).ep = s.ep := rfl
@[simp] theorem State.updMon_cp (f : Mon → Mon) : (s.updMon k f).cp = s.cp := rfl
@[simp] theorem State.updMon_hif (f : Mon → Mon) : (s.updMon k f).hif = s.hif := rfl
@[simp] theorem State.updMon_dma (f : Mon → Mon) : (s.updMon k f).dma = s.dma := rfl
@[simp] theorem State.updMon_ldg (f : Mon → Mon) : (s.updMon k f).ldg = s.ldg := rfl
@[simp] theorem State.updMon_fw (f : Mon → Mon) : (s.updMon k f).fw = s.fw := rfl
@[simp] theorem State.updMon_tly (f : Mon → Mon) : (s.updMon k f).tly = s.tly := rfl
@[simp] theorem State.updMon_fc (f : Mon → Mon) : (s.updMon k f).fc = s.fc := rfl
@[simp] theorem State.updMon_trs (f : Mon → Mon) : (s.updMon k f).trs = s.trs := rfl
@[simp] theorem State.updMon_syn (f : Mon → Mon) : (s.updMon k f).syn = s.syn := rfl
@[simp] theorem State.updMon_clr (f : Mon → Mon) : (s.updMon k f).clr = s.clr := rfl
@[simp] theorem State.updMon_aud (f : Mon → Mon) : (s.updMon k f).aud = s.aud := rfl
@[simp] theorem State.updMon_ho (f : Mon → Mon) : (s.updMon k f).ho = s.ho := rfl
@[simp] theorem State.updMon_free (f : Mon → Mon) : (s.updMon k f).free = s.free := rfl
@[simp] theorem State.updMon_pending (f : Mon → Mon) : (s.updMon k f).pending = s.pending := rfl
@[simp] theorem State.getMon_updMon (f : Mon → Mon) : (s.updMon k f).getMon k = f (s.getMon k) :=
  Tbl.get_upd_self ..
theorem State.getMon_updMon_ne (f : Mon → Mon) {j : Nat} (h : j ≠ k) : (s.updMon k f).getMon j = s.getMon j :=
  Tbl.get_upd_ne _ _ h

@[simp] theorem State.updReg_now (f : Reg → Reg) : (s.updReg k f).now = s.now := rfl
@[simp] theorem State.updReg_pwr (f : Reg → Reg) : (s.updReg k f).pwr = s.pwr := rfl
@[simp] theorem State.updReg_cfg (f : Reg → Reg) : (s.updReg k f).cfg = s.cfg := rfl
@[simp] theorem State.updReg_fuse (f : Reg → Reg) : (s.updReg k f).fuse = s.fuse := rfl
@[simp] theorem State.updReg_tb (f : Reg → Reg) : (s.updReg k f).tb = s.tb := rfl
@[simp] theorem State.updReg_frm (f : Reg → Reg) : (s.updReg k f).frm = s.frm := rfl
@[simp] theorem State.updReg_clk (f : Reg → Reg) : (s.updReg k f).clk = s.clk := rfl
@[simp] theorem State.updReg_sns (f : Reg → Reg) : (s.updReg k f).sns = s.sns := rfl
@[simp] theorem State.updReg_frec (f : Reg → Reg) : (s.updReg k f).frec = s.frec := rfl
@[simp] theorem State.updReg_loop (f : Reg → Reg) : (s.updReg k f).loop = s.loop := rfl
@[simp] theorem State.updReg_hm (f : Reg → Reg) : (s.updReg k f).hm = s.hm := rfl
@[simp] theorem State.updReg_hs (f : Reg → Reg) : (s.updReg k f).hs = s.hs := rfl
@[simp] theorem State.updReg_ep (f : Reg → Reg) : (s.updReg k f).ep = s.ep := rfl
@[simp] theorem State.updReg_cp (f : Reg → Reg) : (s.updReg k f).cp = s.cp := rfl
@[simp] theorem State.updReg_hif (f : Reg → Reg) : (s.updReg k f).hif = s.hif := rfl
@[simp] theorem State.updReg_dma (f : Reg → Reg) : (s.updReg k f).dma = s.dma := rfl
@[simp] theorem State.updReg_ldg (f : Reg → Reg) : (s.updReg k f).ldg = s.ldg := rfl
@[simp] theorem State.updReg_fw (f : Reg → Reg) : (s.updReg k f).fw = s.fw := rfl
@[simp] theorem State.updReg_tly (f : Reg → Reg) : (s.updReg k f).tly = s.tly := rfl
@[simp] theorem State.updReg_fc (f : Reg → Reg) : (s.updReg k f).fc = s.fc := rfl
@[simp] theorem State.updReg_trs (f : Reg → Reg) : (s.updReg k f).trs = s.trs := rfl
@[simp] theorem State.updReg_syn (f : Reg → Reg) : (s.updReg k f).syn = s.syn := rfl
@[simp] theorem State.updReg_clr (f : Reg → Reg) : (s.updReg k f).clr = s.clr := rfl
@[simp] theorem State.updReg_aud (f : Reg → Reg) : (s.updReg k f).aud = s.aud := rfl
@[simp] theorem State.updReg_ho (f : Reg → Reg) : (s.updReg k f).ho = s.ho := rfl
@[simp] theorem State.updReg_free (f : Reg → Reg) : (s.updReg k f).free = s.free := rfl
@[simp] theorem State.updReg_pending (f : Reg → Reg) : (s.updReg k f).pending = s.pending := rfl
@[simp] theorem State.getReg_updReg (f : Reg → Reg) : (s.updReg k f).getReg k = f (s.getReg k) :=
  Tbl.get_upd_self ..
theorem State.getReg_updReg_ne (f : Reg → Reg) {j : Nat} (h : j ≠ k) : (s.updReg k f).getReg j = s.getReg j :=
  Tbl.get_upd_ne _ _ h

@[simp] theorem State.updMeas_now (f : RailMeas → RailMeas) : (s.updMeas k f).now = s.now := rfl
@[simp] theorem State.updMeas_pwr (f : RailMeas → RailMeas) : (s.updMeas k f).pwr = s.pwr := rfl
@[simp] theorem State.updMeas_cfg (f : RailMeas → RailMeas) : (s.updMeas k f).cfg = s.cfg := rfl
@[simp] theorem State.updMeas_fuse (f : RailMeas → RailMeas) : (s.updMeas k f).fuse = s.fuse := rfl
@[simp] theorem State.updMeas_tb (f : RailMeas → RailMeas) : (s.updMeas k f).tb = s.tb := rfl
@[simp] theorem State.updMeas_frm (f : RailMeas → RailMeas) : (s.updMeas k f).frm = s.frm := rfl
@[simp] theorem State.updMeas_clk (f : RailMeas → RailMeas) : (s.updMeas k f).clk = s.clk := rfl
@[simp] theorem State.updMeas_sns (f : RailMeas → RailMeas) : (s.updMeas k f).sns = s.sns := rfl
@[simp] theorem State.updMeas_frec (f : RailMeas → RailMeas) : (s.updMeas k f).frec = s.frec := rfl
@[simp] theorem State.updMeas_loop (f : RailMeas → RailMeas) : (s.updMeas k f).loop = s.loop := rfl
@[simp] theorem State.updMeas_hm (f : RailMeas → RailMeas) : (s.updMeas k f).hm = s.hm := rfl
@[simp] theorem State.updMeas_hs (f : RailMeas → RailMeas) : (s.updMeas k f).hs = s.hs := rfl
@[simp] theorem State.updMeas_ep (f : RailMeas → RailMeas) : (s.updMeas k f).ep = s.ep := rfl
@[simp] theorem State.updMeas_cp (f : RailMeas → RailMeas) : (s.updMeas k f).cp = s.cp := rfl
@[simp] theorem State.updMeas_hif (f : RailMeas → RailMeas) : (s.updMeas k f).hif = s.hif := rfl
@[simp] theorem State.updMeas_dma (f : RailMeas → RailMeas) : (s.updMeas k f).dma = s.dma := rfl
@[simp] theorem State.updMeas_ldg (f : RailMeas → RailMeas) : (s.updMeas k f).ldg = s.ldg := rfl
@[simp] theorem State.updMeas_fw (f : RailMeas → RailMeas) : (s.updMeas k f).fw = s.fw := rfl
@[simp] theorem State.updMeas_tly (f : RailMeas → RailMeas) : (s.updMeas k f).tly = s.tly := rfl
@[simp] theorem State.updMeas_fc (f : RailMeas → RailMeas) : (s.updMeas k f).fc = s.fc := rfl
@[simp] theorem State.updMeas_trs (f : RailMeas → RailMeas) : (s.updMeas k f).trs = s.trs := rfl
@[simp] theorem State.updMeas_syn (f : RailMeas → RailMeas) : (s.updMeas k f).syn = s.syn := rfl
@[simp] theorem State.updMeas_clr (f : RailMeas → RailMeas) : (s.updMeas k f).clr = s.clr := rfl
@[simp] theorem State.updMeas_aud (f : RailMeas → RailMeas) : (s.updMeas k f).aud = s.aud := rfl
@[simp] theorem State.updMeas_ho (f : RailMeas → RailMeas) : (s.updMeas k f).ho = s.ho := rfl
@[simp] theorem State.updMeas_free (f : RailMeas → RailMeas) : (s.updMeas k f).free = s.free := rfl
@[simp] theorem State.updMeas_pending (f : RailMeas → RailMeas) : (s.updMeas k f).pending = s.pending := rfl
@[simp] theorem State.getMeas_updMeas (f : RailMeas → RailMeas) : (s.updMeas k f).getMeas k = f (s.getMeas k) :=
  Tbl.get_upd_self ..
theorem State.getMeas_updMeas_ne (f : RailMeas → RailMeas) {j : Nat} (h : j ≠ k) : (s.updMeas k f).getMeas j = s.getMeas j :=
  Tbl.get_upd_ne _ _ h

@[simp] theorem State.updProt_now (f : RailProt → RailProt) : (s.updProt k f).now = s.now := rfl
@[simp] theorem State.updProt_pwr (f : RailProt → RailProt) : (s.updProt k f).pwr = s.pwr := rfl
@[simp] theorem State.updProt_cfg (f : RailProt → RailProt) : (s.updProt k f).cfg = s.cfg := rfl
@[simp] theorem State.updProt_fuse (f : RailProt → RailProt) : (s.updProt k f).fuse = s.fuse := rfl
@[simp] theorem State.updProt_tb (f : RailProt → RailProt) : (s.updProt k f).tb = s.tb := rfl
@[simp] theorem State.updProt_frm (f : RailProt → RailProt) : (s.updProt k f).frm = s.frm := rfl
@[simp] theorem State.updProt_clk (f : RailProt → RailProt) : (s.updProt k f).clk = s.clk := rfl
@[simp] theorem State.updProt_sns (f : RailProt → RailProt) : (s.updProt k f).sns = s.sns := rfl
@[simp] theorem State.updProt_frec (f : RailProt → RailProt) : (s.updProt k f).frec = s.frec := rfl
@[simp] theorem State.updProt_loop (f : RailProt → RailProt) : (s.updProt k f).loop = s.loop := rfl
@[simp] theorem State.updProt_hm (f : RailProt → RailProt) : (s.updProt k f).hm = s.hm := rfl
@[simp] theorem State.updProt_hs (f : RailProt → RailProt) : (s.updProt k f).hs = s.hs := rfl
@[simp] theorem State.updProt_ep (f : RailProt → RailProt) : (s.updProt k f).ep = s.ep := rfl
@[simp] theorem State.updProt_cp (f : RailProt → RailProt) : (s.updProt k f).cp = s.cp := rfl
@[simp] theorem State.updProt_hif (f : RailProt → RailProt) : (s.updProt k f).hif = s.hif := rfl
@[simp] theorem State.updProt_dma (f : RailProt → RailProt) : (s.updProt k f).dma = s.dma := rfl
@[simp] theorem State.updProt_ldg (f : RailProt → RailProt) : (s.updProt k f).ldg = s.ldg := rfl
@[simp] theorem State.updProt_fw (f : RailProt → RailProt) : (s.updProt k f).fw = s.fw := rfl
@[simp] theorem State.updProt_tly (f : RailProt → RailProt) : (s.updProt k f).tly = s.tly := rfl
@[simp] theorem State.updProt_fc (f : RailProt → RailProt) : (s.updProt k f).fc = s.fc := rfl
@[simp] theorem State.updProt_trs (f : RailProt → RailProt) : (s.updProt k f).trs = s.trs := rfl
@[simp] theorem State.updProt_syn (f : RailProt → RailProt) : (s.updProt k f).syn = s.syn := rfl
@[simp] theorem State.updProt_clr (f : RailProt → RailProt) : (s.updProt k f).clr = s.clr := rfl
@[simp] theorem State.updProt_aud (f : RailProt → RailProt) : (s.updProt k f).aud = s.aud := rfl
@[simp] theorem State.updProt_ho (f : RailProt → RailProt) : (s.updProt k f).ho = s.ho := rfl
@[simp] theorem State.updProt_free (f : RailProt → RailProt) : (s.updProt k f).free = s.free := rfl
@[simp] theorem State.updProt_pending (f : RailProt → RailProt) : (s.updProt k f).pending = s.pending := rfl
@[simp] theorem State.getProt_updProt (f : RailProt → RailProt) : (s.updProt k f).getProt k = f (s.getProt k) :=
  Tbl.get_upd_self ..
theorem State.getProt_updProt_ne (f : RailProt → RailProt) {j : Nat} (h : j ≠ k) : (s.updProt k f).getProt j = s.getProt j :=
  Tbl.get_upd_ne _ _ h

@[simp] theorem State.updPh_now (f : Phase → Phase) : (s.updPh k f).now = s.now := rfl
@[simp] theorem State.updPh_pwr (f : Phase → Phase) : (s.updPh k f).pwr = s.pwr := rfl
@[simp] theorem State.updPh_cfg (f : Phase → Phase) : (s.updPh k f).cfg = s.cfg := rfl
@[simp] theorem State.updPh_fuse (f : Phase → Phase) : (s.updPh k f).fuse = s.fuse := rfl
@[simp] theorem State.updPh_tb (f : Phase → Phase) : (s.updPh k f).tb = s.tb := rfl
@[simp] theorem State.updPh_frm (f : Phase → Phase) : (s.updPh k f).frm = s.frm := rfl
@[simp] theorem State.updPh_clk (f : Phase → Phase) : (s.updPh k f).clk = s.clk := rfl
@[simp] theorem State.updPh_sns (f : Phase → Phase) : (s.updPh k f).sns = s.sns := rfl
@[simp] theorem State.updPh_frec (f : Phase → Phase) : (s.updPh k f).frec = s.frec := rfl
@[simp] theorem State.updPh_loop (f : Phase → Phase) : (s.updPh k f).loop = s.loop := rfl
@[simp] theorem State.updPh_hm (f : Phase → Phase) : (s.updPh k f).hm = s.hm := rfl
@[simp] theorem State.updPh_hs (f : Phase → Phase) : (s.updPh k f).hs = s.hs := rfl
@[simp] theorem State.updPh_ep (f : Phase → Phase) : (s.updPh k f).ep = s.ep := rfl
@[simp] theorem State.updPh_cp (f : Phase → Phase) : (s.updPh k f).cp = s.cp := rfl
@[simp] theorem State.updPh_hif (f : Phase → Phase) : (s.updPh k f).hif = s.hif := rfl
@[simp] theorem State.updPh_dma (f : Phase → Phase) : (s.updPh k f).dma = s.dma := rfl
@[simp] theorem State.updPh_ldg (f : Phase → Phase) : (s.updPh k f).ldg = s.ldg := rfl
@[simp] theorem State.updPh_fw (f : Phase → Phase) : (s.updPh k f).fw = s.fw := rfl
@[simp] theorem State.updPh_tly (f : Phase → Phase) : (s.updPh k f).tly = s.tly := rfl
@[simp] theorem State.updPh_fc (f : Phase → Phase) : (s.updPh k f).fc = s.fc := rfl
@[simp] theorem State.updPh_trs (f : Phase → Phase) : (s.updPh k f).trs = s.trs := rfl
@[simp] theorem State.updPh_syn (f : Phase → Phase) : (s.updPh k f).syn = s.syn := rfl
@[simp] theorem State.updPh_clr (f : Phase → Phase) : (s.updPh k f).clr = s.clr := rfl
@[simp] theorem State.updPh_aud (f : Phase → Phase) : (s.updPh k f).aud = s.aud := rfl
@[simp] theorem State.updPh_ho (f : Phase → Phase) : (s.updPh k f).ho = s.ho := rfl
@[simp] theorem State.updPh_free (f : Phase → Phase) : (s.updPh k f).free = s.free := rfl
@[simp] theorem State.updPh_pending (f : Phase → Phase) : (s.updPh k f).pending = s.pending := rfl
@[simp] theorem State.getPh_updPh (f : Phase → Phase) : (s.updPh k f).getPh k = f (s.getPh k) :=
  Tbl.get_upd_self ..
theorem State.getPh_updPh_ne (f : Phase → Phase) {j : Nat} (h : j ≠ k) : (s.updPh k f).getPh j = s.getPh j :=
  Tbl.get_upd_ne _ _ h

@[simp] theorem State.updClu_now (f : Clu → Clu) : (s.updClu k f).now = s.now := rfl
@[simp] theorem State.updClu_pwr (f : Clu → Clu) : (s.updClu k f).pwr = s.pwr := rfl
@[simp] theorem State.updClu_cfg (f : Clu → Clu) : (s.updClu k f).cfg = s.cfg := rfl
@[simp] theorem State.updClu_fuse (f : Clu → Clu) : (s.updClu k f).fuse = s.fuse := rfl
@[simp] theorem State.updClu_tb (f : Clu → Clu) : (s.updClu k f).tb = s.tb := rfl
@[simp] theorem State.updClu_frm (f : Clu → Clu) : (s.updClu k f).frm = s.frm := rfl
@[simp] theorem State.updClu_clk (f : Clu → Clu) : (s.updClu k f).clk = s.clk := rfl
@[simp] theorem State.updClu_sns (f : Clu → Clu) : (s.updClu k f).sns = s.sns := rfl
@[simp] theorem State.updClu_rail (f : Clu → Clu) : (s.updClu k f).rail = s.rail := rfl
@[simp] theorem State.updClu_frec (f : Clu → Clu) : (s.updClu k f).frec = s.frec := rfl
@[simp] theorem State.updClu_hm (f : Clu → Clu) : (s.updClu k f).hm = s.hm := rfl
@[simp] theorem State.updClu_hs (f : Clu → Clu) : (s.updClu k f).hs = s.hs := rfl
@[simp] theorem State.updClu_ep (f : Clu → Clu) : (s.updClu k f).ep = s.ep := rfl
@[simp] theorem State.updClu_cp (f : Clu → Clu) : (s.updClu k f).cp = s.cp := rfl
@[simp] theorem State.updClu_hif (f : Clu → Clu) : (s.updClu k f).hif = s.hif := rfl
@[simp] theorem State.updClu_dma (f : Clu → Clu) : (s.updClu k f).dma = s.dma := rfl
@[simp] theorem State.updClu_ldg (f : Clu → Clu) : (s.updClu k f).ldg = s.ldg := rfl
@[simp] theorem State.updClu_fw (f : Clu → Clu) : (s.updClu k f).fw = s.fw := rfl
@[simp] theorem State.updClu_tly (f : Clu → Clu) : (s.updClu k f).tly = s.tly := rfl
@[simp] theorem State.updClu_fc (f : Clu → Clu) : (s.updClu k f).fc = s.fc := rfl
@[simp] theorem State.updClu_trs (f : Clu → Clu) : (s.updClu k f).trs = s.trs := rfl
@[simp] theorem State.updClu_syn (f : Clu → Clu) : (s.updClu k f).syn = s.syn := rfl
@[simp] theorem State.updClu_clr (f : Clu → Clu) : (s.updClu k f).clr = s.clr := rfl
@[simp] theorem State.updClu_aud (f : Clu → Clu) : (s.updClu k f).aud = s.aud := rfl
@[simp] theorem State.updClu_ho (f : Clu → Clu) : (s.updClu k f).ho = s.ho := rfl
@[simp] theorem State.updClu_free (f : Clu → Clu) : (s.updClu k f).free = s.free := rfl
@[simp] theorem State.updClu_pending (f : Clu → Clu) : (s.updClu k f).pending = s.pending := rfl
@[simp] theorem State.getClu_updClu (f : Clu → Clu) : (s.updClu k f).getClu k = f (s.getClu k) :=
  Tbl.get_upd_self ..
theorem State.getClu_updClu_ne (f : Clu → Clu) {j : Nat} (h : j ≠ k) : (s.updClu k f).getClu j = s.getClu j :=
  Tbl.get_upd_ne _ _ h

@[simp] theorem State.updLoop_now (f : LoopSt → LoopSt) : (s.updLoop k f).now = s.now := rfl
@[simp] theorem State.updLoop_pwr (f : LoopSt → LoopSt) : (s.updLoop k f).pwr = s.pwr := rfl
@[simp] theorem State.updLoop_cfg (f : LoopSt → LoopSt) : (s.updLoop k f).cfg = s.cfg := rfl
@[simp] theorem State.updLoop_fuse (f : LoopSt → LoopSt) : (s.updLoop k f).fuse = s.fuse := rfl
@[simp] theorem State.updLoop_tb (f : LoopSt → LoopSt) : (s.updLoop k f).tb = s.tb := rfl
@[simp] theorem State.updLoop_frm (f : LoopSt → LoopSt) : (s.updLoop k f).frm = s.frm := rfl
@[simp] theorem State.updLoop_clk (f : LoopSt → LoopSt) : (s.updLoop k f).clk = s.clk := rfl
@[simp] theorem State.updLoop_sns (f : LoopSt → LoopSt) : (s.updLoop k f).sns = s.sns := rfl
@[simp] theorem State.updLoop_rail (f : LoopSt → LoopSt) : (s.updLoop k f).rail = s.rail := rfl
@[simp] theorem State.updLoop_frec (f : LoopSt → LoopSt) : (s.updLoop k f).frec = s.frec := rfl
@[simp] theorem State.updLoop_hm (f : LoopSt → LoopSt) : (s.updLoop k f).hm = s.hm := rfl
@[simp] theorem State.updLoop_hs (f : LoopSt → LoopSt) : (s.updLoop k f).hs = s.hs := rfl
@[simp] theorem State.updLoop_ep (f : LoopSt → LoopSt) : (s.updLoop k f).ep = s.ep := rfl
@[simp] theorem State.updLoop_cp (f : LoopSt → LoopSt) : (s.updLoop k f).cp = s.cp := rfl
@[simp] theorem State.updLoop_hif (f : LoopSt → LoopSt) : (s.updLoop k f).hif = s.hif := rfl
@[simp] theorem State.updLoop_dma (f : LoopSt → LoopSt) : (s.updLoop k f).dma = s.dma := rfl
@[simp] theorem State.updLoop_ldg (f : LoopSt → LoopSt) : (s.updLoop k f).ldg = s.ldg := rfl
@[simp] theorem State.updLoop_fw (f : LoopSt → LoopSt) : (s.updLoop k f).fw = s.fw := rfl
@[simp] theorem State.updLoop_tly (f : LoopSt → LoopSt) : (s.updLoop k f).tly = s.tly := rfl
@[simp] theorem State.updLoop_fc (f : LoopSt → LoopSt) : (s.updLoop k f).fc = s.fc := rfl
@[simp] theorem State.updLoop_trs (f : LoopSt → LoopSt) : (s.updLoop k f).trs = s.trs := rfl
@[simp] theorem State.updLoop_syn (f : LoopSt → LoopSt) : (s.updLoop k f).syn = s.syn := rfl
@[simp] theorem State.updLoop_clr (f : LoopSt → LoopSt) : (s.updLoop k f).clr = s.clr := rfl
@[simp] theorem State.updLoop_aud (f : LoopSt → LoopSt) : (s.updLoop k f).aud = s.aud := rfl
@[simp] theorem State.updLoop_ho (f : LoopSt → LoopSt) : (s.updLoop k f).ho = s.ho := rfl
@[simp] theorem State.updLoop_free (f : LoopSt → LoopSt) : (s.updLoop k f).free = s.free := rfl
@[simp] theorem State.updLoop_pending (f : LoopSt → LoopSt) : (s.updLoop k f).pending = s.pending := rfl
@[simp] theorem State.getLoop_updLoop (f : LoopSt → LoopSt) : (s.updLoop k f).getLoop k = f (s.getLoop k) :=
  Tbl.get_upd_self ..
theorem State.getLoop_updLoop_ne (f : LoopSt → LoopSt) {j : Nat} (h : j ≠ k) : (s.updLoop k f).getLoop j = s.getLoop j :=
  Tbl.get_upd_ne _ _ h

@[simp] theorem State.updProg_now (f : TlyProg → TlyProg) : (s.updProg k f).now = s.now := rfl
@[simp] theorem State.updProg_pwr (f : TlyProg → TlyProg) : (s.updProg k f).pwr = s.pwr := rfl
@[simp] theorem State.updProg_cfg (f : TlyProg → TlyProg) : (s.updProg k f).cfg = s.cfg := rfl
@[simp] theorem State.updProg_fuse (f : TlyProg → TlyProg) : (s.updProg k f).fuse = s.fuse := rfl
@[simp] theorem State.updProg_tb (f : TlyProg → TlyProg) : (s.updProg k f).tb = s.tb := rfl
@[simp] theorem State.updProg_frm (f : TlyProg → TlyProg) : (s.updProg k f).frm = s.frm := rfl
@[simp] theorem State.updProg_clk (f : TlyProg → TlyProg) : (s.updProg k f).clk = s.clk := rfl
@[simp] theorem State.updProg_sns (f : TlyProg → TlyProg) : (s.updProg k f).sns = s.sns := rfl
@[simp] theorem State.updProg_rail (f : TlyProg → TlyProg) : (s.updProg k f).rail = s.rail := rfl
@[simp] theorem State.updProg_frec (f : TlyProg → TlyProg) : (s.updProg k f).frec = s.frec := rfl
@[simp] theorem State.updProg_loop (f : TlyProg → TlyProg) : (s.updProg k f).loop = s.loop := rfl
@[simp] theorem State.updProg_hm (f : TlyProg → TlyProg) : (s.updProg k f).hm = s.hm := rfl
@[simp] theorem State.updProg_hs (f : TlyProg → TlyProg) : (s.updProg k f).hs = s.hs := rfl
@[simp] theorem State.updProg_ep (f : TlyProg → TlyProg) : (s.updProg k f).ep = s.ep := rfl
@[simp] theorem State.updProg_cp (f : TlyProg → TlyProg) : (s.updProg k f).cp = s.cp := rfl
@[simp] theorem State.updProg_hif (f : TlyProg → TlyProg) : (s.updProg k f).hif = s.hif := rfl
@[simp] theorem State.updProg_dma (f : TlyProg → TlyProg) : (s.updProg k f).dma = s.dma := rfl
@[simp] theorem State.updProg_ldg (f : TlyProg → TlyProg) : (s.updProg k f).ldg = s.ldg := rfl
@[simp] theorem State.updProg_fw (f : TlyProg → TlyProg) : (s.updProg k f).fw = s.fw := rfl
@[simp] theorem State.updProg_fc (f : TlyProg → TlyProg) : (s.updProg k f).fc = s.fc := rfl
@[simp] theorem State.updProg_trs (f : TlyProg → TlyProg) : (s.updProg k f).trs = s.trs := rfl
@[simp] theorem State.updProg_syn (f : TlyProg → TlyProg) : (s.updProg k f).syn = s.syn := rfl
@[simp] theorem State.updProg_clr (f : TlyProg → TlyProg) : (s.updProg k f).clr = s.clr := rfl
@[simp] theorem State.updProg_aud (f : TlyProg → TlyProg) : (s.updProg k f).aud = s.aud := rfl
@[simp] theorem State.updProg_ho (f : TlyProg → TlyProg) : (s.updProg k f).ho = s.ho := rfl
@[simp] theorem State.updProg_free (f : TlyProg → TlyProg) : (s.updProg k f).free = s.free := rfl
@[simp] theorem State.updProg_pending (f : TlyProg → TlyProg) : (s.updProg k f).pending = s.pending := rfl
@[simp] theorem State.getProg_updProg (f : TlyProg → TlyProg) : (s.updProg k f).getProg k = f (s.getProg k) :=
  Tbl.get_upd_self ..
theorem State.getProg_updProg_ne (f : TlyProg → TlyProg) {j : Nat} (h : j ≠ k) : (s.updProg k f).getProg j = s.getProg j :=
  Tbl.get_upd_ne _ _ h

@[simp] theorem State.updSet_now (f : TlySet → TlySet) : (s.updSet k f).now = s.now := rfl
@[simp] theorem State.updSet_pwr (f : TlySet → TlySet) : (s.updSet k f).pwr = s.pwr := rfl
@[simp] theorem State.updSet_cfg (f : TlySet → TlySet) : (s.updSet k f).cfg = s.cfg := rfl
@[simp] theorem State.updSet_fuse (f : TlySet → TlySet) : (s.updSet k f).fuse = s.fuse := rfl
@[simp] theorem State.updSet_tb (f : TlySet → TlySet) : (s.updSet k f).tb = s.tb := rfl
@[simp] theorem State.updSet_frm (f : TlySet → TlySet) : (s.updSet k f).frm = s.frm := rfl
@[simp] theorem State.updSet_clk (f : TlySet → TlySet) : (s.updSet k f).clk = s.clk := rfl
@[simp] theorem State.updSet_sns (f : TlySet → TlySet) : (s.updSet k f).sns = s.sns := rfl
@[simp] theorem State.updSet_rail (f : TlySet → TlySet) : (s.updSet k f).rail = s.rail := rfl
@[simp] theorem State.updSet_frec (f : TlySet → TlySet) : (s.updSet k f).frec = s.frec := rfl
@[simp] theorem State.updSet_loop (f : TlySet → TlySet) : (s.updSet k f).loop = s.loop := rfl
@[simp] theorem State.updSet_hm (f : TlySet → TlySet) : (s.updSet k f).hm = s.hm := rfl
@[simp] theorem State.updSet_hs (f : TlySet → TlySet) : (s.updSet k f).hs = s.hs := rfl
@[simp] theorem State.updSet_ep (f : TlySet → TlySet) : (s.updSet k f).ep = s.ep := rfl
@[simp] theorem State.updSet_cp (f : TlySet → TlySet) : (s.updSet k f).cp = s.cp := rfl
@[simp] theorem State.updSet_hif (f : TlySet → TlySet) : (s.updSet k f).hif = s.hif := rfl
@[simp] theorem State.updSet_dma (f : TlySet → TlySet) : (s.updSet k f).dma = s.dma := rfl
@[simp] theorem State.updSet_ldg (f : TlySet → TlySet) : (s.updSet k f).ldg = s.ldg := rfl
@[simp] theorem State.updSet_fw (f : TlySet → TlySet) : (s.updSet k f).fw = s.fw := rfl
@[simp] theorem State.updSet_fc (f : TlySet → TlySet) : (s.updSet k f).fc = s.fc := rfl
@[simp] theorem State.updSet_trs (f : TlySet → TlySet) : (s.updSet k f).trs = s.trs := rfl
@[simp] theorem State.updSet_syn (f : TlySet → TlySet) : (s.updSet k f).syn = s.syn := rfl
@[simp] theorem State.updSet_clr (f : TlySet → TlySet) : (s.updSet k f).clr = s.clr := rfl
@[simp] theorem State.updSet_aud (f : TlySet → TlySet) : (s.updSet k f).aud = s.aud := rfl
@[simp] theorem State.updSet_ho (f : TlySet → TlySet) : (s.updSet k f).ho = s.ho := rfl
@[simp] theorem State.updSet_free (f : TlySet → TlySet) : (s.updSet k f).free = s.free := rfl
@[simp] theorem State.updSet_pending (f : TlySet → TlySet) : (s.updSet k f).pending = s.pending := rfl
@[simp] theorem State.getSet_updSet (f : TlySet → TlySet) : (s.updSet k f).getSet k = f (s.getSet k) :=
  Tbl.get_upd_self ..
theorem State.getSet_updSet_ne (f : TlySet → TlySet) {j : Nat} (h : j ≠ k) : (s.updSet k f).getSet j = s.getSet j :=
  Tbl.get_upd_ne _ _ h

@[simp] theorem State.updFcCl_now (f : FcClu → FcClu) : (s.updFcCl k f).now = s.now := rfl
@[simp] theorem State.updFcCl_pwr (f : FcClu → FcClu) : (s.updFcCl k f).pwr = s.pwr := rfl
@[simp] theorem State.updFcCl_cfg (f : FcClu → FcClu) : (s.updFcCl k f).cfg = s.cfg := rfl
@[simp] theorem State.updFcCl_fuse (f : FcClu → FcClu) : (s.updFcCl k f).fuse = s.fuse := rfl
@[simp] theorem State.updFcCl_tb (f : FcClu → FcClu) : (s.updFcCl k f).tb = s.tb := rfl
@[simp] theorem State.updFcCl_frm (f : FcClu → FcClu) : (s.updFcCl k f).frm = s.frm := rfl
@[simp] theorem State.updFcCl_clk (f : FcClu → FcClu) : (s.updFcCl k f).clk = s.clk := rfl
@[simp] theorem State.updFcCl_sns (f : FcClu → FcClu) : (s.updFcCl k f).sns = s.sns := rfl
@[simp] theorem State.updFcCl_rail (f : FcClu → FcClu) : (s.updFcCl k f).rail = s.rail := rfl
@[simp] theorem State.updFcCl_frec (f : FcClu → FcClu) : (s.updFcCl k f).frec = s.frec := rfl
@[simp] theorem State.updFcCl_loop (f : FcClu → FcClu) : (s.updFcCl k f).loop = s.loop := rfl
@[simp] theorem State.updFcCl_hm (f : FcClu → FcClu) : (s.updFcCl k f).hm = s.hm := rfl
@[simp] theorem State.updFcCl_hs (f : FcClu → FcClu) : (s.updFcCl k f).hs = s.hs := rfl
@[simp] theorem State.updFcCl_ep (f : FcClu → FcClu) : (s.updFcCl k f).ep = s.ep := rfl
@[simp] theorem State.updFcCl_cp (f : FcClu → FcClu) : (s.updFcCl k f).cp = s.cp := rfl
@[simp] theorem State.updFcCl_hif (f : FcClu → FcClu) : (s.updFcCl k f).hif = s.hif := rfl
@[simp] theorem State.updFcCl_dma (f : FcClu → FcClu) : (s.updFcCl k f).dma = s.dma := rfl
@[simp] theorem State.updFcCl_ldg (f : FcClu → FcClu) : (s.updFcCl k f).ldg = s.ldg := rfl
@[simp] theorem State.updFcCl_fw (f : FcClu → FcClu) : (s.updFcCl k f).fw = s.fw := rfl
@[simp] theorem State.updFcCl_tly (f : FcClu → FcClu) : (s.updFcCl k f).tly = s.tly := rfl
@[simp] theorem State.updFcCl_trs (f : FcClu → FcClu) : (s.updFcCl k f).trs = s.trs := rfl
@[simp] theorem State.updFcCl_syn (f : FcClu → FcClu) : (s.updFcCl k f).syn = s.syn := rfl
@[simp] theorem State.updFcCl_clr (f : FcClu → FcClu) : (s.updFcCl k f).clr = s.clr := rfl
@[simp] theorem State.updFcCl_aud (f : FcClu → FcClu) : (s.updFcCl k f).aud = s.aud := rfl
@[simp] theorem State.updFcCl_ho (f : FcClu → FcClu) : (s.updFcCl k f).ho = s.ho := rfl
@[simp] theorem State.updFcCl_free (f : FcClu → FcClu) : (s.updFcCl k f).free = s.free := rfl
@[simp] theorem State.updFcCl_pending (f : FcClu → FcClu) : (s.updFcCl k f).pending = s.pending := rfl
@[simp] theorem State.getFcCl_updFcCl (f : FcClu → FcClu) : (s.updFcCl k f).getFcCl k = f (s.getFcCl k) :=
  Tbl.get_upd_self ..
theorem State.getFcCl_updFcCl_ne (f : FcClu → FcClu) {j : Nat} (h : j ≠ k) : (s.updFcCl k f).getFcCl j = s.getFcCl j :=
  Tbl.get_upd_ne _ _ h

@[simp] theorem State.updHc_now (f : HintClass → HintClass) : (s.updHc k f).now = s.now := rfl
@[simp] theorem State.updHc_pwr (f : HintClass → HintClass) : (s.updHc k f).pwr = s.pwr := rfl
@[simp] theorem State.updHc_cfg (f : HintClass → HintClass) : (s.updHc k f).cfg = s.cfg := rfl
@[simp] theorem State.updHc_fuse (f : HintClass → HintClass) : (s.updHc k f).fuse = s.fuse := rfl
@[simp] theorem State.updHc_tb (f : HintClass → HintClass) : (s.updHc k f).tb = s.tb := rfl
@[simp] theorem State.updHc_frm (f : HintClass → HintClass) : (s.updHc k f).frm = s.frm := rfl
@[simp] theorem State.updHc_clk (f : HintClass → HintClass) : (s.updHc k f).clk = s.clk := rfl
@[simp] theorem State.updHc_sns (f : HintClass → HintClass) : (s.updHc k f).sns = s.sns := rfl
@[simp] theorem State.updHc_rail (f : HintClass → HintClass) : (s.updHc k f).rail = s.rail := rfl
@[simp] theorem State.updHc_frec (f : HintClass → HintClass) : (s.updHc k f).frec = s.frec := rfl
@[simp] theorem State.updHc_loop (f : HintClass → HintClass) : (s.updHc k f).loop = s.loop := rfl
@[simp] theorem State.updHc_hm (f : HintClass → HintClass) : (s.updHc k f).hm = s.hm := rfl
@[simp] theorem State.updHc_hs (f : HintClass → HintClass) : (s.updHc k f).hs = s.hs := rfl
@[simp] theorem State.updHc_ep (f : HintClass → HintClass) : (s.updHc k f).ep = s.ep := rfl
@[simp] theorem State.updHc_cp (f : HintClass → HintClass) : (s.updHc k f).cp = s.cp := rfl
@[simp] theorem State.updHc_hif (f : HintClass → HintClass) : (s.updHc k f).hif = s.hif := rfl
@[simp] theorem State.updHc_dma (f : HintClass → HintClass) : (s.updHc k f).dma = s.dma := rfl
@[simp] theorem State.updHc_ldg (f : HintClass → HintClass) : (s.updHc k f).ldg = s.ldg := rfl
@[simp] theorem State.updHc_fw (f : HintClass → HintClass) : (s.updHc k f).fw = s.fw := rfl
@[simp] theorem State.updHc_tly (f : HintClass → HintClass) : (s.updHc k f).tly = s.tly := rfl
@[simp] theorem State.updHc_trs (f : HintClass → HintClass) : (s.updHc k f).trs = s.trs := rfl
@[simp] theorem State.updHc_syn (f : HintClass → HintClass) : (s.updHc k f).syn = s.syn := rfl
@[simp] theorem State.updHc_clr (f : HintClass → HintClass) : (s.updHc k f).clr = s.clr := rfl
@[simp] theorem State.updHc_aud (f : HintClass → HintClass) : (s.updHc k f).aud = s.aud := rfl
@[simp] theorem State.updHc_ho (f : HintClass → HintClass) : (s.updHc k f).ho = s.ho := rfl
@[simp] theorem State.updHc_free (f : HintClass → HintClass) : (s.updHc k f).free = s.free := rfl
@[simp] theorem State.updHc_pending (f : HintClass → HintClass) : (s.updHc k f).pending = s.pending := rfl
@[simp] theorem State.getHc_updHc (f : HintClass → HintClass) : (s.updHc k f).getHc k = f (s.getHc k) :=
  Tbl.get_upd_self ..
theorem State.getHc_updHc_ne (f : HintClass → HintClass) {j : Nat} (h : j ≠ k) : (s.updHc k f).getHc j = s.getHc j :=
  Tbl.get_upd_ne _ _ h

@[simp] theorem State.updHx_now (f : HintCtx → HintCtx) : (s.updHx k f).now = s.now := rfl
@[simp] theorem State.updHx_pwr (f : HintCtx → HintCtx) : (s.updHx k f).pwr = s.pwr := rfl
@[simp] theorem State.updHx_cfg (f : HintCtx → HintCtx) : (s.updHx k f).cfg = s.cfg := rfl
@[simp] theorem State.updHx_fuse (f : HintCtx → HintCtx) : (s.updHx k f).fuse = s.fuse := rfl
@[simp] theorem State.updHx_tb (f : HintCtx → HintCtx) : (s.updHx k f).tb = s.tb := rfl
@[simp] theorem State.updHx_frm (f : HintCtx → HintCtx) : (s.updHx k f).frm = s.frm := rfl
@[simp] theorem State.updHx_clk (f : HintCtx → HintCtx) : (s.updHx k f).clk = s.clk := rfl
@[simp] theorem State.updHx_sns (f : HintCtx → HintCtx) : (s.updHx k f).sns = s.sns := rfl
@[simp] theorem State.updHx_rail (f : HintCtx → HintCtx) : (s.updHx k f).rail = s.rail := rfl
@[simp] theorem State.updHx_frec (f : HintCtx → HintCtx) : (s.updHx k f).frec = s.frec := rfl
@[simp] theorem State.updHx_loop (f : HintCtx → HintCtx) : (s.updHx k f).loop = s.loop := rfl
@[simp] theorem State.updHx_hm (f : HintCtx → HintCtx) : (s.updHx k f).hm = s.hm := rfl
@[simp] theorem State.updHx_hs (f : HintCtx → HintCtx) : (s.updHx k f).hs = s.hs := rfl
@[simp] theorem State.updHx_ep (f : HintCtx → HintCtx) : (s.updHx k f).ep = s.ep := rfl
@[simp] theorem State.updHx_cp (f : HintCtx → HintCtx) : (s.updHx k f).cp = s.cp := rfl
@[simp] theorem State.updHx_hif (f : HintCtx → HintCtx) : (s.updHx k f).hif = s.hif := rfl
@[simp] theorem State.updHx_dma (f : HintCtx → HintCtx) : (s.updHx k f).dma = s.dma := rfl
@[simp] theorem State.updHx_ldg (f : HintCtx → HintCtx) : (s.updHx k f).ldg = s.ldg := rfl
@[simp] theorem State.updHx_fw (f : HintCtx → HintCtx) : (s.updHx k f).fw = s.fw := rfl
@[simp] theorem State.updHx_tly (f : HintCtx → HintCtx) : (s.updHx k f).tly = s.tly := rfl
@[simp] theorem State.updHx_trs (f : HintCtx → HintCtx) : (s.updHx k f).trs = s.trs := rfl
@[simp] theorem State.updHx_syn (f : HintCtx → HintCtx) : (s.updHx k f).syn = s.syn := rfl
@[simp] theorem State.updHx_clr (f : HintCtx → HintCtx) : (s.updHx k f).clr = s.clr := rfl
@[simp] theorem State.updHx_aud (f : HintCtx → HintCtx) : (s.updHx k f).aud = s.aud := rfl
@[simp] theorem State.updHx_ho (f : HintCtx → HintCtx) : (s.updHx k f).ho = s.ho := rfl
@[simp] theorem State.updHx_free (f : HintCtx → HintCtx) : (s.updHx k f).free = s.free := rfl
@[simp] theorem State.updHx_pending (f : HintCtx → HintCtx) : (s.updHx k f).pending = s.pending := rfl
@[simp] theorem State.getHx_updHx (f : HintCtx → HintCtx) : (s.updHx k f).getHx k = f (s.getHx k) :=
  Tbl.get_upd_self ..
theorem State.getHx_updHx_ne (f : HintCtx → HintCtx) {j : Nat} (h : j ≠ k) : (s.updHx k f).getHx j = s.getHx j :=
  Tbl.get_upd_ne _ _ h

@[simp] theorem State.updTrsCl_now (f : TrsClu → TrsClu) : (s.updTrsCl k f).now = s.now := rfl
@[simp] theorem State.updTrsCl_pwr (f : TrsClu → TrsClu) : (s.updTrsCl k f).pwr = s.pwr := rfl
@[simp] theorem State.updTrsCl_cfg (f : TrsClu → TrsClu) : (s.updTrsCl k f).cfg = s.cfg := rfl
@[simp] theorem State.updTrsCl_fuse (f : TrsClu → TrsClu) : (s.updTrsCl k f).fuse = s.fuse := rfl
@[simp] theorem State.updTrsCl_tb (f : TrsClu → TrsClu) : (s.updTrsCl k f).tb = s.tb := rfl
@[simp] theorem State.updTrsCl_frm (f : TrsClu → TrsClu) : (s.updTrsCl k f).frm = s.frm := rfl
@[simp] theorem State.updTrsCl_clk (f : TrsClu → TrsClu) : (s.updTrsCl k f).clk = s.clk := rfl
@[simp] theorem State.updTrsCl_sns (f : TrsClu → TrsClu) : (s.updTrsCl k f).sns = s.sns := rfl
@[simp] theorem State.updTrsCl_rail (f : TrsClu → TrsClu) : (s.updTrsCl k f).rail = s.rail := rfl
@[simp] theorem State.updTrsCl_frec (f : TrsClu → TrsClu) : (s.updTrsCl k f).frec = s.frec := rfl
@[simp] theorem State.updTrsCl_loop (f : TrsClu → TrsClu) : (s.updTrsCl k f).loop = s.loop := rfl
@[simp] theorem State.updTrsCl_hm (f : TrsClu → TrsClu) : (s.updTrsCl k f).hm = s.hm := rfl
@[simp] theorem State.updTrsCl_hs (f : TrsClu → TrsClu) : (s.updTrsCl k f).hs = s.hs := rfl
@[simp] theorem State.updTrsCl_ep (f : TrsClu → TrsClu) : (s.updTrsCl k f).ep = s.ep := rfl
@[simp] theorem State.updTrsCl_cp (f : TrsClu → TrsClu) : (s.updTrsCl k f).cp = s.cp := rfl
@[simp] theorem State.updTrsCl_hif (f : TrsClu → TrsClu) : (s.updTrsCl k f).hif = s.hif := rfl
@[simp] theorem State.updTrsCl_dma (f : TrsClu → TrsClu) : (s.updTrsCl k f).dma = s.dma := rfl
@[simp] theorem State.updTrsCl_ldg (f : TrsClu → TrsClu) : (s.updTrsCl k f).ldg = s.ldg := rfl
@[simp] theorem State.updTrsCl_fw (f : TrsClu → TrsClu) : (s.updTrsCl k f).fw = s.fw := rfl
@[simp] theorem State.updTrsCl_tly (f : TrsClu → TrsClu) : (s.updTrsCl k f).tly = s.tly := rfl
@[simp] theorem State.updTrsCl_fc (f : TrsClu → TrsClu) : (s.updTrsCl k f).fc = s.fc := rfl
@[simp] theorem State.updTrsCl_syn (f : TrsClu → TrsClu) : (s.updTrsCl k f).syn = s.syn := rfl
@[simp] theorem State.updTrsCl_clr (f : TrsClu → TrsClu) : (s.updTrsCl k f).clr = s.clr := rfl
@[simp] theorem State.updTrsCl_aud (f : TrsClu → TrsClu) : (s.updTrsCl k f).aud = s.aud := rfl
@[simp] theorem State.updTrsCl_ho (f : TrsClu → TrsClu) : (s.updTrsCl k f).ho = s.ho := rfl
@[simp] theorem State.updTrsCl_free (f : TrsClu → TrsClu) : (s.updTrsCl k f).free = s.free := rfl
@[simp] theorem State.updTrsCl_pending (f : TrsClu → TrsClu) : (s.updTrsCl k f).pending = s.pending := rfl
@[simp] theorem State.getTrsCl_updTrsCl (f : TrsClu → TrsClu) : (s.updTrsCl k f).getTrsCl k = f (s.getTrsCl k) :=
  Tbl.get_upd_self ..
theorem State.getTrsCl_updTrsCl_ne (f : TrsClu → TrsClu) {j : Nat} (h : j ≠ k) : (s.updTrsCl k f).getTrsCl j = s.getTrsCl j :=
  Tbl.get_upd_ne _ _ h

@[simp] theorem State.updTx_now (f : Tenant → Tenant) : (s.updTx k f).now = s.now := rfl
@[simp] theorem State.updTx_pwr (f : Tenant → Tenant) : (s.updTx k f).pwr = s.pwr := rfl
@[simp] theorem State.updTx_cfg (f : Tenant → Tenant) : (s.updTx k f).cfg = s.cfg := rfl
@[simp] theorem State.updTx_fuse (f : Tenant → Tenant) : (s.updTx k f).fuse = s.fuse := rfl
@[simp] theorem State.updTx_tb (f : Tenant → Tenant) : (s.updTx k f).tb = s.tb := rfl
@[simp] theorem State.updTx_frm (f : Tenant → Tenant) : (s.updTx k f).frm = s.frm := rfl
@[simp] theorem State.updTx_clk (f : Tenant → Tenant) : (s.updTx k f).clk = s.clk := rfl
@[simp] theorem State.updTx_sns (f : Tenant → Tenant) : (s.updTx k f).sns = s.sns := rfl
@[simp] theorem State.updTx_rail (f : Tenant → Tenant) : (s.updTx k f).rail = s.rail := rfl
@[simp] theorem State.updTx_frec (f : Tenant → Tenant) : (s.updTx k f).frec = s.frec := rfl
@[simp] theorem State.updTx_loop (f : Tenant → Tenant) : (s.updTx k f).loop = s.loop := rfl
@[simp] theorem State.updTx_hm (f : Tenant → Tenant) : (s.updTx k f).hm = s.hm := rfl
@[simp] theorem State.updTx_hs (f : Tenant → Tenant) : (s.updTx k f).hs = s.hs := rfl
@[simp] theorem State.updTx_ep (f : Tenant → Tenant) : (s.updTx k f).ep = s.ep := rfl
@[simp] theorem State.updTx_cp (f : Tenant → Tenant) : (s.updTx k f).cp = s.cp := rfl
@[simp] theorem State.updTx_hif (f : Tenant → Tenant) : (s.updTx k f).hif = s.hif := rfl
@[simp] theorem State.updTx_dma (f : Tenant → Tenant) : (s.updTx k f).dma = s.dma := rfl
@[simp] theorem State.updTx_ldg (f : Tenant → Tenant) : (s.updTx k f).ldg = s.ldg := rfl
@[simp] theorem State.updTx_fw (f : Tenant → Tenant) : (s.updTx k f).fw = s.fw := rfl
@[simp] theorem State.updTx_tly (f : Tenant → Tenant) : (s.updTx k f).tly = s.tly := rfl
@[simp] theorem State.updTx_fc (f : Tenant → Tenant) : (s.updTx k f).fc = s.fc := rfl
@[simp] theorem State.updTx_syn (f : Tenant → Tenant) : (s.updTx k f).syn = s.syn := rfl
@[simp] theorem State.updTx_clr (f : Tenant → Tenant) : (s.updTx k f).clr = s.clr := rfl
@[simp] theorem State.updTx_aud (f : Tenant → Tenant) : (s.updTx k f).aud = s.aud := rfl
@[simp] theorem State.updTx_ho (f : Tenant → Tenant) : (s.updTx k f).ho = s.ho := rfl
@[simp] theorem State.updTx_free (f : Tenant → Tenant) : (s.updTx k f).free = s.free := rfl
@[simp] theorem State.updTx_pending (f : Tenant → Tenant) : (s.updTx k f).pending = s.pending := rfl
@[simp] theorem State.getTx_updTx (f : Tenant → Tenant) : (s.updTx k f).getTx k = f (s.getTx k) :=
  Tbl.get_upd_self ..
theorem State.getTx_updTx_ne (f : Tenant → Tenant) {j : Nat} (h : j ≠ k) : (s.updTx k f).getTx j = s.getTx j :=
  Tbl.get_upd_ne _ _ h

@[simp] theorem State.updObj_now (f : SynObj → SynObj) : (s.updObj k f).now = s.now := rfl
@[simp] theorem State.updObj_pwr (f : SynObj → SynObj) : (s.updObj k f).pwr = s.pwr := rfl
@[simp] theorem State.updObj_cfg (f : SynObj → SynObj) : (s.updObj k f).cfg = s.cfg := rfl
@[simp] theorem State.updObj_fuse (f : SynObj → SynObj) : (s.updObj k f).fuse = s.fuse := rfl
@[simp] theorem State.updObj_tb (f : SynObj → SynObj) : (s.updObj k f).tb = s.tb := rfl
@[simp] theorem State.updObj_frm (f : SynObj → SynObj) : (s.updObj k f).frm = s.frm := rfl
@[simp] theorem State.updObj_clk (f : SynObj → SynObj) : (s.updObj k f).clk = s.clk := rfl
@[simp] theorem State.updObj_sns (f : SynObj → SynObj) : (s.updObj k f).sns = s.sns := rfl
@[simp] theorem State.updObj_rail (f : SynObj → SynObj) : (s.updObj k f).rail = s.rail := rfl
@[simp] theorem State.updObj_frec (f : SynObj → SynObj) : (s.updObj k f).frec = s.frec := rfl
@[simp] theorem State.updObj_loop (f : SynObj → SynObj) : (s.updObj k f).loop = s.loop := rfl
@[simp] theorem State.updObj_hm (f : SynObj → SynObj) : (s.updObj k f).hm = s.hm := rfl
@[simp] theorem State.updObj_hs (f : SynObj → SynObj) : (s.updObj k f).hs = s.hs := rfl
@[simp] theorem State.updObj_ep (f : SynObj → SynObj) : (s.updObj k f).ep = s.ep := rfl
@[simp] theorem State.updObj_cp (f : SynObj → SynObj) : (s.updObj k f).cp = s.cp := rfl
@[simp] theorem State.updObj_hif (f : SynObj → SynObj) : (s.updObj k f).hif = s.hif := rfl
@[simp] theorem State.updObj_dma (f : SynObj → SynObj) : (s.updObj k f).dma = s.dma := rfl
@[simp] theorem State.updObj_ldg (f : SynObj → SynObj) : (s.updObj k f).ldg = s.ldg := rfl
@[simp] theorem State.updObj_fw (f : SynObj → SynObj) : (s.updObj k f).fw = s.fw := rfl
@[simp] theorem State.updObj_tly (f : SynObj → SynObj) : (s.updObj k f).tly = s.tly := rfl
@[simp] theorem State.updObj_fc (f : SynObj → SynObj) : (s.updObj k f).fc = s.fc := rfl
@[simp] theorem State.updObj_trs (f : SynObj → SynObj) : (s.updObj k f).trs = s.trs := rfl
@[simp] theorem State.updObj_clr (f : SynObj → SynObj) : (s.updObj k f).clr = s.clr := rfl
@[simp] theorem State.updObj_aud (f : SynObj → SynObj) : (s.updObj k f).aud = s.aud := rfl
@[simp] theorem State.updObj_ho (f : SynObj → SynObj) : (s.updObj k f).ho = s.ho := rfl
@[simp] theorem State.updObj_free (f : SynObj → SynObj) : (s.updObj k f).free = s.free := rfl
@[simp] theorem State.updObj_pending (f : SynObj → SynObj) : (s.updObj k f).pending = s.pending := rfl
@[simp] theorem State.getObj_updObj (f : SynObj → SynObj) : (s.updObj k f).getObj k = f (s.getObj k) :=
  Tbl.get_upd_self ..
theorem State.getObj_updObj_ne (f : SynObj → SynObj) {j : Nat} (h : j ≠ k) : (s.updObj k f).getObj j = s.getObj j :=
  Tbl.get_upd_ne _ _ h

@[simp] theorem State.updGrp_now (f : SynGrp → SynGrp) : (s.updGrp k f).now = s.now := rfl
@[simp] theorem State.updGrp_pwr (f : SynGrp → SynGrp) : (s.updGrp k f).pwr = s.pwr := rfl
@[simp] theorem State.updGrp_cfg (f : SynGrp → SynGrp) : (s.updGrp k f).cfg = s.cfg := rfl
@[simp] theorem State.updGrp_fuse (f : SynGrp → SynGrp) : (s.updGrp k f).fuse = s.fuse := rfl
@[simp] theorem State.updGrp_tb (f : SynGrp → SynGrp) : (s.updGrp k f).tb = s.tb := rfl
@[simp] theorem State.updGrp_frm (f : SynGrp → SynGrp) : (s.updGrp k f).frm = s.frm := rfl
@[simp] theorem State.updGrp_clk (f : SynGrp → SynGrp) : (s.updGrp k f).clk = s.clk := rfl
@[simp] theorem State.updGrp_sns (f : SynGrp → SynGrp) : (s.updGrp k f).sns = s.sns := rfl
@[simp] theorem State.updGrp_rail (f : SynGrp → SynGrp) : (s.updGrp k f).rail = s.rail := rfl
@[simp] theorem State.updGrp_frec (f : SynGrp → SynGrp) : (s.updGrp k f).frec = s.frec := rfl
@[simp] theorem State.updGrp_loop (f : SynGrp → SynGrp) : (s.updGrp k f).loop = s.loop := rfl
@[simp] theorem State.updGrp_hm (f : SynGrp → SynGrp) : (s.updGrp k f).hm = s.hm := rfl
@[simp] theorem State.updGrp_hs (f : SynGrp → SynGrp) : (s.updGrp k f).hs = s.hs := rfl
@[simp] theorem State.updGrp_ep (f : SynGrp → SynGrp) : (s.updGrp k f).ep = s.ep := rfl
@[simp] theorem State.updGrp_cp (f : SynGrp → SynGrp) : (s.updGrp k f).cp = s.cp := rfl
@[simp] theorem State.updGrp_hif (f : SynGrp → SynGrp) : (s.updGrp k f).hif = s.hif := rfl
@[simp] theorem State.updGrp_dma (f : SynGrp → SynGrp) : (s.updGrp k f).dma = s.dma := rfl
@[simp] theorem State.updGrp_ldg (f : SynGrp → SynGrp) : (s.updGrp k f).ldg = s.ldg := rfl
@[simp] theorem State.updGrp_fw (f : SynGrp → SynGrp) : (s.updGrp k f).fw = s.fw := rfl
@[simp] theorem State.updGrp_tly (f : SynGrp → SynGrp) : (s.updGrp k f).tly = s.tly := rfl
@[simp] theorem State.updGrp_fc (f : SynGrp → SynGrp) : (s.updGrp k f).fc = s.fc := rfl
@[simp] theorem State.updGrp_trs (f : SynGrp → SynGrp) : (s.updGrp k f).trs = s.trs := rfl
@[simp] theorem State.updGrp_clr (f : SynGrp → SynGrp) : (s.updGrp k f).clr = s.clr := rfl
@[simp] theorem State.updGrp_aud (f : SynGrp → SynGrp) : (s.updGrp k f).aud = s.aud := rfl
@[simp] theorem State.updGrp_ho (f : SynGrp → SynGrp) : (s.updGrp k f).ho = s.ho := rfl
@[simp] theorem State.updGrp_free (f : SynGrp → SynGrp) : (s.updGrp k f).free = s.free := rfl
@[simp] theorem State.updGrp_pending (f : SynGrp → SynGrp) : (s.updGrp k f).pending = s.pending := rfl
@[simp] theorem State.getGrp_updGrp (f : SynGrp → SynGrp) : (s.updGrp k f).getGrp k = f (s.getGrp k) :=
  Tbl.get_upd_self ..
theorem State.getGrp_updGrp_ne (f : SynGrp → SynGrp) {j : Nat} (h : j ≠ k) : (s.updGrp k f).getGrp j = s.getGrp j :=
  Tbl.get_upd_ne _ _ h

@[simp] theorem State.updCore_now (f : SynCore → SynCore) : (s.updCore k f).now = s.now := rfl
@[simp] theorem State.updCore_pwr (f : SynCore → SynCore) : (s.updCore k f).pwr = s.pwr := rfl
@[simp] theorem State.updCore_cfg (f : SynCore → SynCore) : (s.updCore k f).cfg = s.cfg := rfl
@[simp] theorem State.updCore_fuse (f : SynCore → SynCore) : (s.updCore k f).fuse = s.fuse := rfl
@[simp] theorem State.updCore_tb (f : SynCore → SynCore) : (s.updCore k f).tb = s.tb := rfl
@[simp] theorem State.updCore_frm (f : SynCore → SynCore) : (s.updCore k f).frm = s.frm := rfl
@[simp] theorem State.updCore_clk (f : SynCore → SynCore) : (s.updCore k f).clk = s.clk := rfl
@[simp] theorem State.updCore_sns (f : SynCore → SynCore) : (s.updCore k f).sns = s.sns := rfl
@[simp] theorem State.updCore_rail (f : SynCore → SynCore) : (s.updCore k f).rail = s.rail := rfl
@[simp] theorem State.updCore_frec (f : SynCore → SynCore) : (s.updCore k f).frec = s.frec := rfl
@[simp] theorem State.updCore_loop (f : SynCore → SynCore) : (s.updCore k f).loop = s.loop := rfl
@[simp] theorem State.updCore_hm (f : SynCore → SynCore) : (s.updCore k f).hm = s.hm := rfl
@[simp] theorem State.updCore_hs (f : SynCore → SynCore) : (s.updCore k f).hs = s.hs := rfl
@[simp] theorem State.updCore_ep (f : SynCore → SynCore) : (s.updCore k f).ep = s.ep := rfl
@[simp] theorem State.updCore_cp (f : SynCore → SynCore) : (s.updCore k f).cp = s.cp := rfl
@[simp] theorem State.updCore_hif (f : SynCore → SynCore) : (s.updCore k f).hif = s.hif := rfl
@[simp] theorem State.updCore_dma (f : SynCore → SynCore) : (s.updCore k f).dma = s.dma := rfl
@[simp] theorem State.updCore_ldg (f : SynCore → SynCore) : (s.updCore k f).ldg = s.ldg := rfl
@[simp] theorem State.updCore_fw (f : SynCore → SynCore) : (s.updCore k f).fw = s.fw := rfl
@[simp] theorem State.updCore_tly (f : SynCore → SynCore) : (s.updCore k f).tly = s.tly := rfl
@[simp] theorem State.updCore_fc (f : SynCore → SynCore) : (s.updCore k f).fc = s.fc := rfl
@[simp] theorem State.updCore_trs (f : SynCore → SynCore) : (s.updCore k f).trs = s.trs := rfl
@[simp] theorem State.updCore_clr (f : SynCore → SynCore) : (s.updCore k f).clr = s.clr := rfl
@[simp] theorem State.updCore_aud (f : SynCore → SynCore) : (s.updCore k f).aud = s.aud := rfl
@[simp] theorem State.updCore_ho (f : SynCore → SynCore) : (s.updCore k f).ho = s.ho := rfl
@[simp] theorem State.updCore_free (f : SynCore → SynCore) : (s.updCore k f).free = s.free := rfl
@[simp] theorem State.updCore_pending (f : SynCore → SynCore) : (s.updCore k f).pending = s.pending := rfl
@[simp] theorem State.getCore_updCore (f : SynCore → SynCore) : (s.updCore k f).getCore k = f (s.getCore k) :=
  Tbl.get_upd_self ..
theorem State.getCore_updCore_ne (f : SynCore → SynCore) {j : Nat} (h : j ≠ k) : (s.updCore k f).getCore j = s.getCore j :=
  Tbl.get_upd_ne _ _ h

@[simp] theorem State.updLnk_now (f : Link → Link) : (s.updLnk k f).now = s.now := rfl
@[simp] theorem State.updLnk_pwr (f : Link → Link) : (s.updLnk k f).pwr = s.pwr := rfl
@[simp] theorem State.updLnk_cfg (f : Link → Link) : (s.updLnk k f).cfg = s.cfg := rfl
@[simp] theorem State.updLnk_fuse (f : Link → Link) : (s.updLnk k f).fuse = s.fuse := rfl
@[simp] theorem State.updLnk_tb (f : Link → Link) : (s.updLnk k f).tb = s.tb := rfl
@[simp] theorem State.updLnk_frm (f : Link → Link) : (s.updLnk k f).frm = s.frm := rfl
@[simp] theorem State.updLnk_clk (f : Link → Link) : (s.updLnk k f).clk = s.clk := rfl
@[simp] theorem State.updLnk_sns (f : Link → Link) : (s.updLnk k f).sns = s.sns := rfl
@[simp] theorem State.updLnk_rail (f : Link → Link) : (s.updLnk k f).rail = s.rail := rfl
@[simp] theorem State.updLnk_frec (f : Link → Link) : (s.updLnk k f).frec = s.frec := rfl
@[simp] theorem State.updLnk_loop (f : Link → Link) : (s.updLnk k f).loop = s.loop := rfl
@[simp] theorem State.updLnk_hm (f : Link → Link) : (s.updLnk k f).hm = s.hm := rfl
@[simp] theorem State.updLnk_hs (f : Link → Link) : (s.updLnk k f).hs = s.hs := rfl
@[simp] theorem State.updLnk_ep (f : Link → Link) : (s.updLnk k f).ep = s.ep := rfl
@[simp] theorem State.updLnk_cp (f : Link → Link) : (s.updLnk k f).cp = s.cp := rfl
@[simp] theorem State.updLnk_hif (f : Link → Link) : (s.updLnk k f).hif = s.hif := rfl
@[simp] theorem State.updLnk_dma (f : Link → Link) : (s.updLnk k f).dma = s.dma := rfl
@[simp] theorem State.updLnk_ldg (f : Link → Link) : (s.updLnk k f).ldg = s.ldg := rfl
@[simp] theorem State.updLnk_fw (f : Link → Link) : (s.updLnk k f).fw = s.fw := rfl
@[simp] theorem State.updLnk_tly (f : Link → Link) : (s.updLnk k f).tly = s.tly := rfl
@[simp] theorem State.updLnk_fc (f : Link → Link) : (s.updLnk k f).fc = s.fc := rfl
@[simp] theorem State.updLnk_trs (f : Link → Link) : (s.updLnk k f).trs = s.trs := rfl
@[simp] theorem State.updLnk_syn (f : Link → Link) : (s.updLnk k f).syn = s.syn := rfl
@[simp] theorem State.updLnk_aud (f : Link → Link) : (s.updLnk k f).aud = s.aud := rfl
@[simp] theorem State.updLnk_ho (f : Link → Link) : (s.updLnk k f).ho = s.ho := rfl
@[simp] theorem State.updLnk_free (f : Link → Link) : (s.updLnk k f).free = s.free := rfl
@[simp] theorem State.updLnk_pending (f : Link → Link) : (s.updLnk k f).pending = s.pending := rfl
@[simp] theorem State.getLnk_updLnk (f : Link → Link) : (s.updLnk k f).getLnk k = f (s.getLnk k) :=
  Tbl.get_upd_self ..
theorem State.getLnk_updLnk_ne (f : Link → Link) {j : Nat} (h : j ≠ k) : (s.updLnk k f).getLnk j = s.getLnk j :=
  Tbl.get_upd_ne _ _ h

@[simp] theorem State.updFwCore_now (f : FwCore → FwCore) : (s.updFwCore k f).now = s.now := rfl
@[simp] theorem State.updFwCore_pwr (f : FwCore → FwCore) : (s.updFwCore k f).pwr = s.pwr := rfl
@[simp] theorem State.updFwCore_cfg (f : FwCore → FwCore) : (s.updFwCore k f).cfg = s.cfg := rfl
@[simp] theorem State.updFwCore_fuse (f : FwCore → FwCore) : (s.updFwCore k f).fuse = s.fuse := rfl
@[simp] theorem State.updFwCore_tb (f : FwCore → FwCore) : (s.updFwCore k f).tb = s.tb := rfl
@[simp] theorem State.updFwCore_frm (f : FwCore → FwCore) : (s.updFwCore k f).frm = s.frm := rfl
@[simp] theorem State.updFwCore_clk (f : FwCore → FwCore) : (s.updFwCore k f).clk = s.clk := rfl
@[simp] theorem State.updFwCore_sns (f : FwCore → FwCore) : (s.updFwCore k f).sns = s.sns := rfl
@[simp] theorem State.updFwCore_rail (f : FwCore → FwCore) : (s.updFwCore k f).rail = s.rail := rfl
@[simp] theorem State.updFwCore_frec (f : FwCore → FwCore) : (s.updFwCore k f).frec = s.frec := rfl
@[simp] theorem State.updFwCore_loop (f : FwCore → FwCore) : (s.updFwCore k f).loop = s.loop := rfl
@[simp] theorem State.updFwCore_hm (f : FwCore → FwCore) : (s.updFwCore k f).hm = s.hm := rfl
@[simp] theorem State.updFwCore_hs (f : FwCore → FwCore) : (s.updFwCore k f).hs = s.hs := rfl
@[simp] theorem State.updFwCore_ep (f : FwCore → FwCore) : (s.updFwCore k f).ep = s.ep := rfl
@[simp] theorem State.updFwCore_cp (f : FwCore → FwCore) : (s.updFwCore k f).cp = s.cp := rfl
@[simp] theorem State.updFwCore_hif (f : FwCore → FwCore) : (s.updFwCore k f).hif = s.hif := rfl
@[simp] theorem State.updFwCore_dma (f : FwCore → FwCore) : (s.updFwCore k f).dma = s.dma := rfl
@[simp] theorem State.updFwCore_ldg (f : FwCore → FwCore) : (s.updFwCore k f).ldg = s.ldg := rfl
@[simp] theorem State.updFwCore_tly (f : FwCore → FwCore) : (s.updFwCore k f).tly = s.tly := rfl
@[simp] theorem State.updFwCore_fc (f : FwCore → FwCore) : (s.updFwCore k f).fc = s.fc := rfl
@[simp] theorem State.updFwCore_trs (f : FwCore → FwCore) : (s.updFwCore k f).trs = s.trs := rfl
@[simp] theorem State.updFwCore_syn (f : FwCore → FwCore) : (s.updFwCore k f).syn = s.syn := rfl
@[simp] theorem State.updFwCore_clr (f : FwCore → FwCore) : (s.updFwCore k f).clr = s.clr := rfl
@[simp] theorem State.updFwCore_aud (f : FwCore → FwCore) : (s.updFwCore k f).aud = s.aud := rfl
@[simp] theorem State.updFwCore_ho (f : FwCore → FwCore) : (s.updFwCore k f).ho = s.ho := rfl
@[simp] theorem State.updFwCore_free (f : FwCore → FwCore) : (s.updFwCore k f).free = s.free := rfl
@[simp] theorem State.updFwCore_pending (f : FwCore → FwCore) : (s.updFwCore k f).pending = s.pending := rfl
@[simp] theorem State.getFwCore_updFwCore (f : FwCore → FwCore) : (s.updFwCore k f).getFwCore k = f (s.getFwCore k) :=
  Tbl.get_upd_self ..
theorem State.getFwCore_updFwCore_ne (f : FwCore → FwCore) {j : Nat} (h : j ≠ k) : (s.updFwCore k f).getFwCore j = s.getFwCore j :=
  Tbl.get_upd_ne _ _ h

@[simp] theorem State.updUnit_now (f : AudUnit → AudUnit) : (s.updUnit k f).now = s.now := rfl
@[simp] theorem State.updUnit_pwr (f : AudUnit → AudUnit) : (s.updUnit k f).pwr = s.pwr := rfl
@[simp] theorem State.updUnit_cfg (f : AudUnit → AudUnit) : (s.updUnit k f).cfg = s.cfg := rfl
@[simp] theorem State.updUnit_fuse (f : AudUnit → AudUnit) : (s.updUnit k f).fuse = s.fuse := rfl
@[simp] theorem State.updUnit_tb (f : AudUnit → AudUnit) : (s.updUnit k f).tb = s.tb := rfl
@[simp] theorem State.updUnit_frm (f : AudUnit → AudUnit) : (s.updUnit k f).frm = s.frm := rfl
@[simp] theorem State.updUnit_clk (f : AudUnit → AudUnit) : (s.updUnit k f).clk = s.clk := rfl
@[simp] theorem State.updUnit_sns (f : AudUnit → AudUnit) : (s.updUnit k f).sns = s.sns := rfl
@[simp] theorem State.updUnit_rail (f : AudUnit → AudUnit) : (s.updUnit k f).rail = s.rail := rfl
@[simp] theorem State.updUnit_frec (f : AudUnit → AudUnit) : (s.updUnit k f).frec = s.frec := rfl
@[simp] theorem State.updUnit_loop (f : AudUnit → AudUnit) : (s.updUnit k f).loop = s.loop := rfl
@[simp] theorem State.updUnit_hm (f : AudUnit → AudUnit) : (s.updUnit k f).hm = s.hm := rfl
@[simp] theorem State.updUnit_hs (f : AudUnit → AudUnit) : (s.updUnit k f).hs = s.hs := rfl
@[simp] theorem State.updUnit_ep (f : AudUnit → AudUnit) : (s.updUnit k f).ep = s.ep := rfl
@[simp] theorem State.updUnit_cp (f : AudUnit → AudUnit) : (s.updUnit k f).cp = s.cp := rfl
@[simp] theorem State.updUnit_hif (f : AudUnit → AudUnit) : (s.updUnit k f).hif = s.hif := rfl
@[simp] theorem State.updUnit_dma (f : AudUnit → AudUnit) : (s.updUnit k f).dma = s.dma := rfl
@[simp] theorem State.updUnit_ldg (f : AudUnit → AudUnit) : (s.updUnit k f).ldg = s.ldg := rfl
@[simp] theorem State.updUnit_fw (f : AudUnit → AudUnit) : (s.updUnit k f).fw = s.fw := rfl
@[simp] theorem State.updUnit_tly (f : AudUnit → AudUnit) : (s.updUnit k f).tly = s.tly := rfl
@[simp] theorem State.updUnit_fc (f : AudUnit → AudUnit) : (s.updUnit k f).fc = s.fc := rfl
@[simp] theorem State.updUnit_trs (f : AudUnit → AudUnit) : (s.updUnit k f).trs = s.trs := rfl
@[simp] theorem State.updUnit_syn (f : AudUnit → AudUnit) : (s.updUnit k f).syn = s.syn := rfl
@[simp] theorem State.updUnit_clr (f : AudUnit → AudUnit) : (s.updUnit k f).clr = s.clr := rfl
@[simp] theorem State.updUnit_ho (f : AudUnit → AudUnit) : (s.updUnit k f).ho = s.ho := rfl
@[simp] theorem State.updUnit_free (f : AudUnit → AudUnit) : (s.updUnit k f).free = s.free := rfl
@[simp] theorem State.updUnit_pending (f : AudUnit → AudUnit) : (s.updUnit k f).pending = s.pending := rfl
@[simp] theorem State.getUnit_updUnit (f : AudUnit → AudUnit) : (s.updUnit k f).getUnit k = f (s.getUnit k) :=
  Tbl.get_upd_self ..
theorem State.getUnit_updUnit_ne (f : AudUnit → AudUnit) {j : Nat} (h : j ≠ k) : (s.updUnit k f).getUnit j = s.getUnit j :=
  Tbl.get_upd_ne _ _ h

@[simp] theorem State.updEp_now (f : EpLane → EpLane) : (s.updEp k f).now = s.now := rfl
@[simp] theorem State.updEp_pwr (f : EpLane → EpLane) : (s.updEp k f).pwr = s.pwr := rfl
@[simp] theorem State.updEp_cfg (f : EpLane → EpLane) : (s.updEp k f).cfg = s.cfg := rfl
@[simp] theorem State.updEp_fuse (f : EpLane → EpLane) : (s.updEp k f).fuse = s.fuse := rfl
@[simp] theorem State.updEp_tb (f : EpLane → EpLane) : (s.updEp k f).tb = s.tb := rfl
@[simp] theorem State.updEp_frm (f : EpLane → EpLane) : (s.updEp k f).frm = s.frm := rfl
@[simp] theorem State.updEp_clk (f : EpLane → EpLane) : (s.updEp k f).clk = s.clk := rfl
@[simp] theorem State.updEp_sns (f : EpLane → EpLane) : (s.updEp k f).sns = s.sns := rfl
@[simp] theorem State.updEp_rail (f : EpLane → EpLane) : (s.updEp k f).rail = s.rail := rfl
@[simp] theorem State.updEp_frec (f : EpLane → EpLane) : (s.updEp k f).frec = s.frec := rfl
@[simp] theorem State.updEp_loop (f : EpLane → EpLane) : (s.updEp k f).loop = s.loop := rfl
@[simp] theorem State.updEp_hm (f : EpLane → EpLane) : (s.updEp k f).hm = s.hm := rfl
@[simp] theorem State.updEp_hs (f : EpLane → EpLane) : (s.updEp k f).hs = s.hs := rfl
@[simp] theorem State.updEp_cp (f : EpLane → EpLane) : (s.updEp k f).cp = s.cp := rfl
@[simp] theorem State.updEp_hif (f : EpLane → EpLane) : (s.updEp k f).hif = s.hif := rfl
@[simp] theorem State.updEp_dma (f : EpLane → EpLane) : (s.updEp k f).dma = s.dma := rfl
@[simp] theorem State.updEp_ldg (f : EpLane → EpLane) : (s.updEp k f).ldg = s.ldg := rfl
@[simp] theorem State.updEp_fw (f : EpLane → EpLane) : (s.updEp k f).fw = s.fw := rfl
@[simp] theorem State.updEp_tly (f : EpLane → EpLane) : (s.updEp k f).tly = s.tly := rfl
@[simp] theorem State.updEp_fc (f : EpLane → EpLane) : (s.updEp k f).fc = s.fc := rfl
@[simp] theorem State.updEp_trs (f : EpLane → EpLane) : (s.updEp k f).trs = s.trs := rfl
@[simp] theorem State.updEp_syn (f : EpLane → EpLane) : (s.updEp k f).syn = s.syn := rfl
@[simp] theorem State.updEp_clr (f : EpLane → EpLane) : (s.updEp k f).clr = s.clr := rfl
@[simp] theorem State.updEp_aud (f : EpLane → EpLane) : (s.updEp k f).aud = s.aud := rfl
@[simp] theorem State.updEp_ho (f : EpLane → EpLane) : (s.updEp k f).ho = s.ho := rfl
@[simp] theorem State.updEp_free (f : EpLane → EpLane) : (s.updEp k f).free = s.free := rfl
@[simp] theorem State.updEp_pending (f : EpLane → EpLane) : (s.updEp k f).pending = s.pending := rfl
@[simp] theorem State.getEp_updEp (f : EpLane → EpLane) : (s.updEp k f).getEp k = f (s.getEp k) :=
  Tbl.get_upd_self ..
theorem State.getEp_updEp_ne (f : EpLane → EpLane) {j : Nat} (h : j ≠ k) : (s.updEp k f).getEp j = s.getEp j :=
  Tbl.get_upd_ne _ _ h

@[simp] theorem State.updCp_now (f : CpPort → CpPort) : (s.updCp k f).now = s.now := rfl
@[simp] theorem State.updCp_pwr (f : CpPort → CpPort) : (s.updCp k f).pwr = s.pwr := rfl
@[simp] theorem State.updCp_cfg (f : CpPort → CpPort) : (s.updCp k f).cfg = s.cfg := rfl
@[simp] theorem State.updCp_fuse (f : CpPort → CpPort) : (s.updCp k f).fuse = s.fuse := rfl
@[simp] theorem State.updCp_tb (f : CpPort → CpPort) : (s.updCp k f).tb = s.tb := rfl
@[simp] theorem State.updCp_frm (f : CpPort → CpPort) : (s.updCp k f).frm = s.frm := rfl
@[simp] theorem State.updCp_clk (f : CpPort → CpPort) : (s.updCp k f).clk = s.clk := rfl
@[simp] theorem State.updCp_sns (f : CpPort → CpPort) : (s.updCp k f).sns = s.sns := rfl
@[simp] theorem State.updCp_rail (f : CpPort → CpPort) : (s.updCp k f).rail = s.rail := rfl
@[simp] theorem State.updCp_frec (f : CpPort → CpPort) : (s.updCp k f).frec = s.frec := rfl
@[simp] theorem State.updCp_loop (f : CpPort → CpPort) : (s.updCp k f).loop = s.loop := rfl
@[simp] theorem State.updCp_hm (f : CpPort → CpPort) : (s.updCp k f).hm = s.hm := rfl
@[simp] theorem State.updCp_hs (f : CpPort → CpPort) : (s.updCp k f).hs = s.hs := rfl
@[simp] theorem State.updCp_ep (f : CpPort → CpPort) : (s.updCp k f).ep = s.ep := rfl
@[simp] theorem State.updCp_hif (f : CpPort → CpPort) : (s.updCp k f).hif = s.hif := rfl
@[simp] theorem State.updCp_dma (f : CpPort → CpPort) : (s.updCp k f).dma = s.dma := rfl
@[simp] theorem State.updCp_ldg (f : CpPort → CpPort) : (s.updCp k f).ldg = s.ldg := rfl
@[simp] theorem State.updCp_fw (f : CpPort → CpPort) : (s.updCp k f).fw = s.fw := rfl
@[simp] theorem State.updCp_tly (f : CpPort → CpPort) : (s.updCp k f).tly = s.tly := rfl
@[simp] theorem State.updCp_fc (f : CpPort → CpPort) : (s.updCp k f).fc = s.fc := rfl
@[simp] theorem State.updCp_trs (f : CpPort → CpPort) : (s.updCp k f).trs = s.trs := rfl
@[simp] theorem State.updCp_syn (f : CpPort → CpPort) : (s.updCp k f).syn = s.syn := rfl
@[simp] theorem State.updCp_clr (f : CpPort → CpPort) : (s.updCp k f).clr = s.clr := rfl
@[simp] theorem State.updCp_aud (f : CpPort → CpPort) : (s.updCp k f).aud = s.aud := rfl
@[simp] theorem State.updCp_ho (f : CpPort → CpPort) : (s.updCp k f).ho = s.ho := rfl
@[simp] theorem State.updCp_free (f : CpPort → CpPort) : (s.updCp k f).free = s.free := rfl
@[simp] theorem State.updCp_pending (f : CpPort → CpPort) : (s.updCp k f).pending = s.pending := rfl
@[simp] theorem State.getCp_updCp (f : CpPort → CpPort) : (s.updCp k f).getCp k = f (s.getCp k) :=
  Tbl.get_upd_self ..
theorem State.getCp_updCp_ne (f : CpPort → CpPort) {j : Nat} (h : j ≠ k) : (s.updCp k f).getCp j = s.getCp j :=
  Tbl.get_upd_ne _ _ h

@[simp] theorem State.getBack_updRt (f : SlotRt → SlotRt) (j : Nat) : (s.updRt k f).getBack j = s.getBack j := rfl
@[simp] theorem State.getRt_updBack (f : Backstop → Backstop) (j : Nat) : (s.updBack k f).getRt j = s.getRt j := rfl
@[simp] theorem State.getDet_updSite (f : Site → Site) (j : Nat) : (s.updSite k f).getDet j = s.getDet j := rfl
@[simp] theorem State.getMon_updSite (f : Site → Site) (j : Nat) : (s.updSite k f).getMon j = s.getMon j := rfl
@[simp] theorem State.getSite_updDet (f : Det → Det) (j : Nat) : (s.updDet k f).getSite j = s.getSite j := rfl
@[simp] theorem State.getMon_updDet (f : Det → Det) (j : Nat) : (s.updDet k f).getMon j = s.getMon j := rfl
@[simp] theorem State.getSite_updMon (f : Mon → Mon) (j : Nat) : (s.updMon k f).getSite j = s.getSite j := rfl
@[simp] theorem State.getDet_updMon (f : Mon → Mon) (j : Nat) : (s.updMon k f).getDet j = s.getDet j := rfl
@[simp] theorem State.getMeas_updReg (f : Reg → Reg) (j : Nat) : (s.updReg k f).getMeas j = s.getMeas j := rfl
@[simp] theorem State.getProt_updReg (f : Reg → Reg) (j : Nat) : (s.updReg k f).getProt j = s.getProt j := rfl
@[simp] theorem State.getPh_updReg (f : Reg → Reg) (j : Nat) : (s.updReg k f).getPh j = s.getPh j := rfl
@[simp] theorem State.getReg_updMeas (f : RailMeas → RailMeas) (j : Nat) : (s.updMeas k f).getReg j = s.getReg j := rfl
@[simp] theorem State.getProt_updMeas (f : RailMeas → RailMeas) (j : Nat) : (s.updMeas k f).getProt j = s.getProt j := rfl
@[simp] theorem State.getPh_updMeas (f : RailMeas → RailMeas) (j : Nat) : (s.updMeas k f).getPh j = s.getPh j := rfl
@[simp] theorem State.getReg_updProt (f : RailProt → RailProt) (j : Nat) : (s.updProt k f).getReg j = s.getReg j := rfl
@[simp] theorem State.getMeas_updProt (f : RailProt → RailProt) (j : Nat) : (s.updProt k f).getMeas j = s.getMeas j := rfl
@[simp] theorem State.getPh_updProt (f : RailProt → RailProt) (j : Nat) : (s.updProt k f).getPh j = s.getPh j := rfl
@[simp] theorem State.getReg_updPh (f : Phase → Phase) (j : Nat) : (s.updPh k f).getReg j = s.getReg j := rfl
@[simp] theorem State.getMeas_updPh (f : Phase → Phase) (j : Nat) : (s.updPh k f).getMeas j = s.getMeas j := rfl
@[simp] theorem State.getProt_updPh (f : Phase → Phase) (j : Nat) : (s.updPh k f).getProt j = s.getProt j := rfl
@[simp] theorem State.getLoop_updClu (f : Clu → Clu) (j : Nat) : (s.updClu k f).getLoop j = s.getLoop j := rfl
@[simp] theorem State.getClu_updLoop (f : LoopSt → LoopSt) (j : Nat) : (s.updLoop k f).getClu j = s.getClu j := rfl
@[simp] theorem State.getSet_updProg (f : TlyProg → TlyProg) (j : Nat) : (s.updProg k f).getSet j = s.getSet j := rfl
@[simp] theorem State.getProg_updSet (f : TlySet → TlySet) (j : Nat) : (s.updSet k f).getProg j = s.getProg j := rfl
@[simp] theorem State.getHc_updFcCl (f : FcClu → FcClu) (j : Nat) : (s.updFcCl k f).getHc j = s.getHc j := rfl
@[simp] theorem State.getHx_updFcCl (f : FcClu → FcClu) (j : Nat) : (s.updFcCl k f).getHx j = s.getHx j := rfl
@[simp] theorem State.getFcCl_updHc (f : HintClass → HintClass) (j : Nat) : (s.updHc k f).getFcCl j = s.getFcCl j := rfl
@[simp] theorem State.getHx_updHc (f : HintClass → HintClass) (j : Nat) : (s.updHc k f).getHx j = s.getHx j := rfl
@[simp] theorem State.getFcCl_updHx (f : HintCtx → HintCtx) (j : Nat) : (s.updHx k f).getFcCl j = s.getFcCl j := rfl
@[simp] theorem State.getHc_updHx (f : HintCtx → HintCtx) (j : Nat) : (s.updHx k f).getHc j = s.getHc j := rfl
@[simp] theorem State.getTx_updTrsCl (f : TrsClu → TrsClu) (j : Nat) : (s.updTrsCl k f).getTx j = s.getTx j := rfl
@[simp] theorem State.getTrsCl_updTx (f : Tenant → Tenant) (j : Nat) : (s.updTx k f).getTrsCl j = s.getTrsCl j := rfl
@[simp] theorem State.getGrp_updObj (f : SynObj → SynObj) (j : Nat) : (s.updObj k f).getGrp j = s.getGrp j := rfl
@[simp] theorem State.getCore_updObj (f : SynObj → SynObj) (j : Nat) : (s.updObj k f).getCore j = s.getCore j := rfl
@[simp] theorem State.getObj_updGrp (f : SynGrp → SynGrp) (j : Nat) : (s.updGrp k f).getObj j = s.getObj j := rfl
@[simp] theorem State.getCore_updGrp (f : SynGrp → SynGrp) (j : Nat) : (s.updGrp k f).getCore j = s.getCore j := rfl
@[simp] theorem State.getObj_updCore (f : SynCore → SynCore) (j : Nat) : (s.updCore k f).getObj j = s.getObj j := rfl
@[simp] theorem State.getGrp_updCore (f : SynCore → SynCore) (j : Nat) : (s.updCore k f).getGrp j = s.getGrp j := rfl

end Entries

end Sys2Proof.Machine
end

