-- ==== Sys2Proof/Laws/Logs.lean ====
section
/-!
SUPPORT. A record that is generated joins its source's queue when the queue has room, and stays there.
-/
namespace Sys2Proof.Machine

variable {s t u : State} {src code p0 p1 p2 p3 : Nat}

/-- With room in its queue a record joins it. -/
theorem ldgPut_room {x : LRec} (h : QRoom x.source s) :
    Tbl.get [] (ldgPut x s).ldg.queues x.source = Tbl.get [] s.ldg.queues x.source ++ [x] := by
  unfold ldgPut; simp only [State.onLdg_ldg]
  unfold QRoom at h
  rw [if_pos h]; dsimp only
  rw [Tbl.get_upd_self]

theorem ldgEnqueue_room {rec_ : LRec → State → State} {x : LRec} (h : QRoom x.source s) :
    ldgEnqueue rec_ x s = ldgPut x s := by
  unfold ldgEnqueue; dsimp only
  have hf : decide (8 ≤ (Tbl.get [] s.ldg.queues x.source).length) = false := decide_eq_false (by unfold QRoom at h; omega)
  rw [hf]; rfl

/-- A record joins its queue when the queue has room. -/
theorem emit_logs (h : QRoom src s) : Logs src code p0 p1 p2 p3 s (emit src code p0 p1 p2 p3 s) := by
  refine ⟨[mkRec src code p0 p1 p2 p3 s], ?_, mkRec src code p0 p1 p2 p3 s, List.mem_singleton.mpr rfl, rfl, rfl, rfl, rfl, rfl, rfl, rfl, rfl⟩
  have h1 : Tbl.get [] (ldgEnqueue (emitRec 3) (mkRec src code p0 p1 p2 p3 s) s).ldg.queues src =
      Tbl.get [] s.ldg.queues src ++ [mkRec src code p0 p1 p2 p3 s] := by
    rw [ldgEnqueue_room h]; exact ldgPut_room (x := mkRec src code p0 p1 p2 p3 s) h
  rw [← h1]
  unfold emit emitRec; dsimp only
  have g := (evtDeliver_keeps (emitRec_keeps 3) (mkRec src code p0 p1 p2 p3 s) 0
    (ldgEnqueue (emitRec 3) (mkRec src code p0 p1 p2 p3 s) s)).only.same .queues (by decide)
  split
  · exact (g src).trans ((evtDeliver_keeps (emitRec_keeps 3) ..).only.same .queues (by decide) src)
  · exact g src

/-- What happens before the record: the queue only grows, block time and the holdover flag stay. -/
theorem Logs.after {ps : List Area} (h : Only ps s t) (hn : Area.now ∉ ps) (ht : t.tb.hold = s.tb.hold) (hq : Area.queues ∉ ps)
    (g : Logs src code p0 p1 p2 p3 t u) : Logs src code p0 p1 p2 p3 s u := by
  obtain ⟨l, hl, r, hr, h1, h2, h3, h4, h5⟩ := g
  obtain ⟨m, hm⟩ := h.same .queues hq src
  refine ⟨m ++ l, ?_, r, List.mem_append_right _ hr, h1, h2, ?_, ?_, h5⟩
  · rw [← List.append_assoc, hm]; exact hl
  · rw [h3]; exact h.same .now hn
  · rw [h4, ht]

/-- What happens after the record leaves it in its queue. -/
theorem Logs.before {ps : List Area} (g : Logs src code p0 p1 p2 p3 s t) (h : Only ps t u) (hq : Area.queues ∉ ps) :
    Logs src code p0 p1 p2 p3 s u := by
  obtain ⟨l, hl, r⟩ := g
  exact ⟨l, hl.trans (h.same .queues hq src), r⟩

end Sys2Proof.Machine
end

