-- ==== Sys2Proof/WellFormed.lean ====
section
/-!
DEFINITION. Well-formed commands: every operand fits the field that carries it. A number that a `Fin` or a word already
bounds needs no check; measured quantities and times that a step takes from outside have no field and are unbounded.
-/
namespace Sys2Proof

/-- The number fits a field of `w` bits. -/
def fits (w n : Nat) : Bool := n < 2 ^ w

/-- Table 14.2: `TAG` is 32 bits. -/
def DescHdr.wf (h : DescHdr) : Bool := fits 32 h.tag

/-- Table 2.5: the widths of a request's fields. -/
def EpReq.wf (r : EpReq) : Bool :=
  fits 11 r.src && fits 2 r.q && fits 9 r.ctx && fits 4 r.op && fits 2 r.tmo && fits 13 r.obj && fits 16 r.arg

/-- An address and a length of Table 14.5. -/
def Buf.wf (b : Buf) : Bool := fits 64 b.addr && fits 32 b.len

/-- What a step is given from outside: a hash has 384 bits, a ratio belongs to a numbered monitor. -/
def Ext.wf (x : Ext) : Bool := fits 384 x.val && x.ratios.all fun e => fits 8 e.1

/-- Table 15.3: the widths of a transfer operand's fields. -/
def XferOp.wf (o : XferOp) : Bool :=
  fits 8 o.mode && fits 8 o.esize && fits 4 o.srcSpace && fits 4 o.dstSpace && fits 8 o.chan && fits 32 o.count &&
    fits 64 o.src && fits 64 o.dst && fits 64 o.table && fits 16 o.nch && fits 32 o.pstride && fits 32 o.periodUs &&
    fits 16 o.nbuf && fits 32 o.bstride

/-- Table 14.5, CTX_OPEN. -/
def CtxOpenOp.wf (o : CtxOpenOp) : Bool :=
  fits 16 o.ctx && fits 8 o.sqLog && fits 8 o.cqLog && fits 8 o.schedW && fits 64 o.sqBase && fits 64 o.cqBase &&
    fits 64 o.winBase && fits 8 o.winLog && fits 32 o.irqData && fits 64 o.irqAddr

/-- Table 14.5, LOOP_COEF: 13 fields of at most 16 bits. -/
def LoopCoefOp.wf (o : LoopCoefOp) : Bool :=
  fits 8 o.cluster && fits 8 o.loop && fits 16 o.valid && o.vals.length = 13 && o.vals.all (fits 16)

/-- Table 14.5, SYN_MAP: 128-bit masks and at most eight moves between windows. -/
def SynMapOp.wf (o : SynMapOp) : Bool :=
  fits 16 o.ctx && fits 128 o.add && fits 128 o.remove && o.moves.length ≤ 8 &&
    o.moves.all fun e => fits 8 e.1 && fits 8 e.2

/-- Table 14.5, CLR_CONFIG. -/
def ClrCfgOp.wf (o : ClrCfgOp) : Bool :=
  fits 32 o.chip && fits 16 o.domain && fits 8 o.vmax && fits 8 o.keep && fits 64 o.mbx && fits 16 o.leaseUs &&
    fits 16 o.retryMs

/-- Table 14.5, CLR_LINK. -/
def ClrLinkOp.wf (o : ClrLinkOp) : Bool := fits 8 o.link && fits 32 o.peer && fits 64 o.addr

/-- Table 16.14, FW_SPDM. -/
def SpdmOp.wf (o : SpdmOp) : Bool := fits 64 o.reqAddr && fits 16 o.reqLen && fits 64 o.rspAddr && fits 16 o.rspMax

/-- FREC_COPY (R401). -/
def FrecCopyOp.wf (o : FrecCopyOp) : Bool := fits 16 o.slot && fits 16 o.nslot && fits 64 o.addr

/-- Table 13.2: the widths of a message's fields. -/
def ClrMsg.wf (m : ClrMsg) : Bool :=
  fits 8 m.ver && fits 16 m.flags && fits 16 m.domain && fits 32 m.seq && fits 32 m.inc && fits 32 m.src &&
    fits 32 m.dst && fits 32 m.peerInc && fits 32 m.ackSeq && fits 64 m.ts && fits 32 m.echoTs && fits 32 m.echoHold &&
    fits 16 m.slack && fits 16 m.amount && fits 32 m.leaseId && fits 16 m.expiryUs && fits 16 m.cause &&
    fits 32 m.surplus && fits 32 m.need && fits 16 m.wmin && fits 32 m.chips && fits 32 m.fcNeed

/-- R373: a descriptor that is fetched has 64 bytes. -/
def fetchWf (w : Option (List Word)) : Bool := w.all fun l => l.length = 16

/-- Every operand of the command fits the field that carries it. -/
def Instr.wf (i : Instr) : Bool :=
  match i with
  | .coldReset _ _ _ _ _ => true
  | .porstNAssert _ => true
  | .internalPowerOnReset _ _ => true
  | .warmReset _ => true
  | .wrstNRelease => true
  | .inputPowerFail _ => true
  | .vanaLoss _ => true
  | .fwVfuseAlarm _ => true
  | .hsPortReset => true
  | .hmPortReset => true
  | .hmResponse _ _ _ => true
  | .hmTimeout _ => true
  | .hmTagRelease _ => true
  | .refWindowEnd _ => true
  | .refLoss => true
  | .driftMeasurement _ => true
  | .rootReqGo _ => true
  | .rootChangeStart => true
  | .rootTimebaseMoved => true
  | .pllLock => true
  | .relockRetry => true
  | .pllFail => true
  | .pllFailRetry => true
  | .leafAck _ => true
  | .leafFail _ _ => true
  | .leafRetry _ => true
  | .leafRestored _ => true
  | .droopFire _ => true
  | .ceilingUpdate => true
  | .cpAck _ _ _ _ => true
  | .cpLate _ => true
  | .frameStart _ => true
  | .frameCommit => true
  | .slotComplete _ => true
  | .slotMiss _ => true
  | .loopBackstop _ => true
  | .loopBackstopEnd _ => true
  | .shed => true
  | .restore => true
  | .shedFloorWrite _ => true
  | .hostRestore => true
  | .clrMin => true
  | .loopSaturated _ _ => true
  | .odEnd => true
  | .leaseGuard _ _ => true
  | .trimEvaluate => true
  | .amMeasure _ _ => true
  | .siteSample _ => true
  | .siteResult _ _ => true
  | .thermTrip _ => true
  | .thermRestartOk => true
  | .ringFail _ _ _ => true
  | .ringRetry _ _ _ => true
  | .refCompare _ _ _ => true
  | .refBroadcast => true
  | .ddRead _ => true
  | .ddTapRewrite _ _ => true
  | .railVConversion _ _ _ => true
  | .brakeTimeout _ => true
  | .compensatorUpdate _ => true
  | .phaseIConversion _ _ _ => true
  | .stageTConversion _ _ => true
  | .currentShareUpdate _ => true
  | .trimLimit _ => true
  | .shareShift _ => true
  | .shiftLimit _ => true
  | .pwmPeriod _ => true
  | .zeroCrossing _ => true
  | .phaseRemove _ => true
  | .joinComplete _ => true
  | .vppRampDown _ => true
  | .vinRead _ _ => true
  | .vinStale _ => true
  | .pmbAlert _ _ => true
  | .pmbusTimeout _ _ _ _ => true
  | .overloadCheck _ => true
  | .overloadShutdown _ => true
  | .scTrip _ => true
  | .stageFault _ _ => true
  | .pwmReadback _ _ _ => true
  | .overvoltage _ => true
  | .undervoltage _ _ => true
  | .senseCheck _ => true
  | .pmbusConfigDone _ => true
  | .phaseIdentify _ _ _ _ _ => true
  | .rampStart _ => true
  | .reached _ => true
  | .startTimeout _ => true
  | .rampDownDone _ => true
  | .fastStopLevel _ => true
  | .frecCommitted _ => true
  | .frecSlotLoaded => true
  | .crowbarReleased => true
  | .faultClear => true
  | .phaseFaultClear _ => true
  | .railVreqGo _ => true
  | .railSlewWrite _ => true
  | .railTelClr => true
  | .railShedWrite _ _ => true
  | .ddDepthWrite _ => true
  | .loopClModeGo _ => true
  | .loopTgtWrite _ => true
  | .fbForceWrite _ => true
  | .clrLatch => true
  | .capSet _ => true
  | .clrRsn => true
  | .clrOd => true
  | .clrFlt => true
  | .dcPrioWrite _ => true
  | .dcFloorWrite _ => true
  | .txCfgWrite _ => true
  | .clrAcc => true
  | .fcDefault => true
  | .hintClassSet _ _ _ => true
  | .hintOp _ _ _ _ _ _ => true
  | .releaseHint _ _ _ _ => true
  | .hintExpire _ _ => true
  | .hintEvaluate _ _ => true
  | .hintTrustBack _ => true
  | .pageLanded => true
  | .tlyCubeErr _ _ _ => true
  | .tlyStoreEcc _ _ _ _ => true
  | .clrSat => true
  | .synSet _ _ _ _ => true
  | .synClear _ _ _ _ => true
  | .waitSet _ _ _ _ _ => true
  | .waitClear _ _ _ _ _ => true
  | .synInc _ _ _ _ _ => true
  | .synDec _ _ _ _ _ => true
  | .waitGe _ _ _ _ _ _ => true
  | .barrierArrive _ _ _ _ _ => true
  | .epResponseTaken _ => true
  | .synTimeout _ => true
  | .synWatchdogFire _ => true
  | .synEcc _ _ => true
  | .escrowLend _ => true
  | .synCtrlClr => true
  | .synCoreCfgWrite _ => true
  | .escCfgWrite _ => true
  | .clearingRound => true
  | .mailboxPoll _ w => w.length = 24
  | .msgReread _ w => w.length = 24
  | .join _ m => m.wf
  | .accept _ m => m.wf
  | .stateMsg _ m => m.wf
  | .offer _ m => m.wf
  | .lease _ m => m.wf
  | .returnMsg _ m => m.wf
  | .leave _ m => m.wf
  | .returnSend _ _ => true
  | .ackMiss _ => true
  | .clrLeaseExpired _ _ => true
  | .joinRetry _ => true
  | .clrCfgWrite _ => true
  | .clrLnkEnWrite _ => true
  | .clrCtrlClr => true
  | .doorbellWrite _ _ => true
  | .descriptorFetch _ w x => fetchWf w && x.wf
  | .fetchRetry _ w x => fetchWf w && x.wf
  | .irqGap _ => true
  | .hifNegGo => true
  | .c0RingEnWrite _ => true
  | .hifCtrlClr => true
  | .nop h => h.wf
  | .identify h => h.wf
  | .warmResetDesc h key => h.wf && fits 32 key
  | .controlStart h clusters => h.wf && fits 32 clusters
  | .ctxOpen h o => h.wf && o.wf
  | .ctxClose h c => h.wf && fits 16 c
  | .ctxParam h c w k g => h.wf && fits 16 c && fits 16 w && fits 8 k && fits 8 g
  | .ctxPlace h c cores => h.wf && fits 16 c && fits 128 cores
  | .floorSet h c f => h.wf && fits 16 c && fits 8 f
  | .ctxTelem h c a => h.wf && fits 16 c && fits 64 a
  | .railCtrlStart h _ => h.wf
  | .railCtrlStop h _ => h.wf
  | .amBaseline h m x => h.wf && fits 160 m && x.wf
  | .tlyInstall h o x => h.wf && o.wf && x.wf
  | .tlyRemove h e => h.wf && fits 8 e
  | .tlySetReg h set hdr page x => h.wf && fits 8 set && fits 64 hdr && fits 64 page && x.wf
  | .tlySetRemove h set => h.wf && fits 8 set
  | .slotTable h a n x => h.wf && fits 64 a && fits 16 n && x.wf
  | .loopCoef h o => h.wf && o.wf
  | .vftLoad h c a x => h.wf && fits 8 c && fits 64 a && x.wf
  | .hintClassEntry h c v => h.wf && fits 8 c && fits 32 v
  | .hintClassPerm h c w v => h.wf && fits 16 c && fits 8 w && fits 32 v
  | .synActSet h o => h.wf && fits 16 o
  | .synActClear h o => h.wf && fits 16 o
  | .adjust h o v => h.wf && fits 16 o && fits 16 v
  | .releaseWaiter h e => h.wf && fits 16 e
  | .failWaiter h e => h.wf && fits 16 e
  | .resetWindow h _ w => h.wf && fits 16 w
  | .setKind h w k => h.wf && fits 16 w && fits 64 k
  | .groupDef h g p ms => h.wf && fits 16 g && fits 16 p && ms.length ≤ 16 && ms.all (fits 16)
  | .synMap h o => h.wf && o.wf
  | .synRead h k i => h.wf && fits 8 k && fits 16 i
  | .clrConfig h o => h.wf && o.wf
  | .clrLink h o => h.wf && o.wf
  | .dmaXfer h op x => h.wf && op.wf && x.wf
  | .dmaTransferDone _ _ _ _ _ => true
  | .dmaStreamArm h op x => h.wf && op.wf && !op.stop && x.wf
  | .dmaStreamStop h _ => h.wf
  | .streamPeriod _ => true
  | .captureSweep => true
  | .dmaCtrlClr => true
  | .stopStreams => true
  | .ldgDrain h m a => h.wf && fits 16 m && fits 64 a
  | .ldgRearm h _ => h.wf
  | .frecCopy h op => h.wf && op.wf
  | .ledgerStore => true
  | .ldwRec0Read _ => true
  | .ldwRec7Read => true
  | .ldwCursorWrite _ => true
  | .ldgCtrlClrLost => true
  | .limAlarmClear _ => true
  | .loReadLatch _ => true
  | .digest0Read => true
  | .fwQuery h => h.wf
  | .fwStage h o x => h.wf && o.wf && x.wf
  | .fwActivateCold h x => h.wf && x.wf
  | .fwActivateWarm h x => h.wf && x.wf
  | .fwLiveUpdate h => h.wf
  | .luPrepareDone => true
  | .luHandoffDone _ => true
  | .fwResumed => true
  | .fwSelfConfirmed => true
  | .fwRollback => true
  | .fwConfirm h x => h.wf && x.wf
  | .fwConfigStage h o x => h.wf && o.wf && x.wf
  | .fwSpdm h o x => h.wf && o.wf && x.wf
  | .fuseIntegratorKey h i o x => h.wf && fits 8 i && o.wf && fits 16 o.len && x.wf
  | .fuseLimitGate h o x => h.wf && o.wf && fits 16 o.len && x.wf
  | .fuseBootSet h i o x => h.wf && fits 8 i && o.wf && fits 16 o.len && x.wf
  | .fuseSvn h t x => h.wf && fits 8 t && x.wf
  | .fuseRevokeIntegrator h i o x => h.wf && fits 8 i && o.wf && fits 16 o.len && x.wf
  | .fuseRevokeKolhidex h i o x => h.wf && fits 8 i && o.wf && fits 16 o.len && x.wf
  | .fwTokenNonce h o => h.wf && o.wf && fits 16 o.len
  | .fwTokenUnlock h o x => h.wf && o.wf && fits 16 o.len && x.wf
  | .zeroiseVolatile h k => h.wf && fits 32 k
  | .zeroisePermanent h k x => h.wf && fits 32 k && x.wf
  | .fwBoot => true
  | .fwCoreHang _ => true
  | .fwCoreBack _ => true
  | .fwVaultRestart _ => true
  | .enterLp _ => true
  | .exitLp _ => true
  | .audTest h k i _ _ => h.wf && fits 8 k && fits 16 i
  | .audRemove h k i _ _ => h.wf && fits 8 k && fits 16 i
  | .audReturn h k i => h.wf && fits 8 k && fits 16 i
  | .audTestDone _ => true
  | .audSchedule => true
  | .audSchedWrite _ => true
  | .audCtrlClr => true
  | .extest => true
  | .idcode => true
  | .samplePreload => true
  | .clamp => true
  | .highz => true
  | .bypass => true
  | .wsBypass => true
  | .wsIdcode => true
  | .mbistRead => true
  | .wsSafe => true
  | .wsExtest => true
  | .wsIntestScan => true
  | .mbistRun => true
  | .mbistDone _ => true
  | .registerWrite _ _ => true
  | .malformedRequest _ r => EpReq.wf r
  | .shortInterval => true
  | .hmRstNRelease => true
  | .extensionEnd _ => true
  | .slotStart _ => true
  | .vrefStep _ _ => true
  | .borrowedLeaseExpiry _ _ => true
  | .autoZero _ _ => true
  | .sectorEraseDone => true
  | .vaultReady => true
  | .fwSelftestFail _ => true

end Sys2Proof
end

