-- ==== Sys2Proof/Tests/Slice0.lean ====
section
/-!
SUPPORT. Tests of the model on single steps and small states: ill-formed commands that `Instr.wf` refuses, for every
statement states and operands that meet its hypotheses, and a few steps whose results are worked out from the spec.
-/
namespace Sys2Proof.Tests
set_option Elab.async false
open Sys2Proof.Machine

/-! ## Ill-formed commands -/

/-- A descriptor header of context 0, and one whose tag does not fit. -/
def hd : DescHdr := { ctx := 0, tag := 5, notify := false, reservedZero := true }
def hdBad : DescHdr := { hd with tag := 2 ^ 32 }
def buf : Buf := { addr := 0, len := 0 }
def long : Buf := { addr := 0, len := 2 ^ 16 }
def bufs : List Buf := [{ buf with addr := 2 ^ 64 }, { buf with len := 2 ^ 32 }]
def exts : List Ext := [{ val := 2 ^ 192 * 2 ^ 192 }, { ratios := [(256, 1)] }]
def xf : XferOp :=
  { mode := 0, esize := 0, srcSpace := 0, dstSpace := 0, chan := 0, count := 0, src := 0, dst := 0, table := 0, nch := 0,
    pstride := 0, periodUs := 0, nbuf := 0, stop := false, bstride := 0 }
def req : EpReq := { src := 0, q := 0, ctx := 0, op := 0, tmo := 0, obj := 0, arg := 0 }
def co : CtxOpenOp :=
  { ctx := 0, sqLog := 0, cqLog := 0, schedW := 0, irqEn := false, sqBase := 0, cqBase := 0, winBase := 0, winLog := 0,
    irqData := 0, irqAddr := 0 }
def lc : LoopCoefOp := { cluster := 0, loop := 0, valid := 0, vals := List.replicate 13 0 }
def sm : SynMapOp := { ctx := 0, force := false, add := 0, remove := 0, moves := [] }
def cc : ClrCfgOp := { chip := 0, domain := 0, vmax := 0, keep := 0, mbx := 0, leaseUs := 0, retryMs := 0, en := false }
def cl : ClrLinkOp := { link := 0, en := false, peer := 0, addr := 0 }
def sp : SpdmOp := { reqAddr := 0, reqLen := 0, rspAddr := 0, rspMax := 0 }
def fr : FrecCopyOp := { slot := 0, nslot := 0, fromPtr := false, addr := 0 }

/-- Every command of the list is ill-formed. -/
def refuses (l : List Instr) : Bool := l.all fun i => !i.wf

theorem test_wf_header : refuses [.nop hdBad, .identify hdBad, .tlyRemove hdBad 0, .fwQuery hdBad, .audReturn hdBad 0 0,
    .railCtrlStart hdBad 0, .railCtrlStop hdBad 0, .dmaStreamStop hdBad 0, .ldgRearm hdBad 0, .fwLiveUpdate hdBad] = true := by
  decide
theorem test_wf_request : refuses ([{ req with src := 2 ^ 11 }, { req with q := 4 }, { req with ctx := 512 },
    { req with op := 16 }, { req with tmo := 4 }, { req with obj := 8192 }, { req with arg := 2 ^ 16 }].map
    (Instr.malformedRequest 0)) = true := by decide
theorem test_wf_buf : refuses (bufs.flatMap fun b => [.tlyInstall hd b {}, .fwStage hd b {}, .fwConfigStage hd b {},
    .fwTokenNonce hd b, .fwTokenUnlock hd b {}, .fuseLimitGate hd b {}]) = true := by decide
theorem test_wf_len16 : refuses [.fuseIntegratorKey hd 0 long {}, .fuseLimitGate hd long {}, .fuseBootSet hd 0 long {},
    .fuseRevokeIntegrator hd 0 long {}, .fuseRevokeKolhidex hd 0 long {}, .fwTokenNonce hd long,
    .fwTokenUnlock hd long {}] = true := by decide
theorem test_wf_ext : refuses (exts.flatMap fun x => [.descriptorFetch 0 none x, .fetchRetry 0 none x, .amBaseline hd 0 x,
    .tlyInstall hd buf x, .tlySetReg hd 0 0 0 x, .slotTable hd 0 0 x, .vftLoad hd 0 0 x, .dmaXfer hd xf x,
    .dmaStreamArm hd xf x, .fwActivateCold hd x, .fwActivateWarm hd x, .fwConfirm hd x, .fwSpdm hd sp x, .fuseSvn hd 0 x,
    .zeroisePermanent hd 0 x]) = true := by decide
theorem test_wf_xfer : refuses ([{ xf with mode := 256 }, { xf with esize := 256 }, { xf with srcSpace := 16 },
    { xf with dstSpace := 16 }, { xf with chan := 256 }, { xf with count := 2 ^ 32 }, { xf with src := 2 ^ 64 },
    { xf with dst := 2 ^ 64 }, { xf with table := 2 ^ 64 }, { xf with nch := 2 ^ 16 }, { xf with pstride := 2 ^ 32 },
    { xf with periodUs := 2 ^ 32 }, { xf with nbuf := 2 ^ 16 }, { xf with bstride := 2 ^ 32 }].flatMap
    fun o => [.dmaXfer hd o {}, .dmaStreamArm hd o {}]) = true := by decide
theorem test_wf_armStop : refuses [.dmaStreamArm hd { xf with stop := true } {}] = true := by decide
theorem test_wf_ctxOpen : refuses ([{ co with ctx := 2 ^ 16 }, { co with sqLog := 256 }, { co with cqLog := 256 },
    { co with schedW := 256 }, { co with sqBase := 2 ^ 64 }, { co with cqBase := 2 ^ 64 }, { co with winBase := 2 ^ 64 },
    { co with winLog := 256 }, { co with irqData := 2 ^ 32 }, { co with irqAddr := 2 ^ 64 }].map (.ctxOpen hd)) = true := by
  decide
theorem test_wf_loopCoef : refuses ([{ lc with cluster := 256 }, { lc with loop := 256 }, { lc with valid := 2 ^ 16 },
    { lc with vals := [] }, { lc with vals := List.replicate 13 (2 ^ 16) }].map (.loopCoef hd)) = true := by decide
theorem test_wf_synMap : refuses ([{ sm with ctx := 2 ^ 16 }, { sm with add := 2 ^ 128 }, { sm with remove := 2 ^ 128 },
    { sm with moves := List.replicate 9 (0, 1) }, { sm with moves := [(256, 0)] }, { sm with moves := [(0, 256)] }].map
    (.synMap hd)) = true := by decide
theorem test_wf_clearing : refuses ([{ cc with chip := 2 ^ 32 }, { cc with domain := 2 ^ 16 }, { cc with vmax := 256 },
    { cc with keep := 256 }, { cc with mbx := 2 ^ 64 }, { cc with leaseUs := 2 ^ 16 }, { cc with retryMs := 2 ^ 16 }].map
    (.clrConfig hd) ++ [{ cl with link := 256 }, { cl with peer := 2 ^ 32 }, { cl with addr := 2 ^ 64 }].map
    (.clrLink hd)) = true := by decide
theorem test_wf_spdmFrec : refuses ([{ sp with reqAddr := 2 ^ 64 }, { sp with reqLen := 2 ^ 16 }, { sp with rspAddr := 2 ^ 64 },
    { sp with rspMax := 2 ^ 16 }].map (fun o => .fwSpdm hd o {}) ++ [{ fr with slot := 2 ^ 16 }, { fr with nslot := 2 ^ 16 },
    { fr with addr := 2 ^ 64 }].map (.frecCopy hd)) = true := by decide
theorem test_wf_message : refuses ((([{ ver := 256 }, { flags := 2 ^ 16 }, { domain := 2 ^ 16 }, { seq := 2 ^ 32 }, { inc := 2 ^ 32 },
    { src := 2 ^ 32 }, { dst := 2 ^ 32 }, { peerInc := 2 ^ 32 }, { ackSeq := 2 ^ 32 }, { ts := 2 ^ 64 }, { echoTs := 2 ^ 32 },
    { echoHold := 2 ^ 32 }, { slack := 2 ^ 16 }, { amount := 2 ^ 16 }, { leaseId := 2 ^ 32 }, { expiryUs := 2 ^ 16 },
    { cause := 2 ^ 16 }, { surplus := 2 ^ 32 }, { need := 2 ^ 32 }, { wmin := 2 ^ 16 }, { chips := 2 ^ 32 },
    { fcNeed := 2 ^ 32 }] : List ClrMsg).map (.join 0)) ++
    [.accept 0 { ver := 256 }, .stateMsg 0 { ver := 256 }, .offer 0 { ver := 256 }, .lease 0 { ver := 256 },
     .returnMsg 0 { ver := 256 }, .leave 0 { ver := 256 }]) = true := by decide
theorem test_wf_words : refuses [.mailboxPoll 0 [], .msgReread 0 [], .descriptorFetch 0 (some []) {},
    .fetchRetry 0 (some []) {}] = true := by decide
theorem test_wf_fields : refuses [.warmResetDesc hd (2 ^ 32), .controlStart hd (2 ^ 32), .ctxClose hd (2 ^ 16),
    .ctxParam hd (2 ^ 16) 0 0 0, .ctxParam hd 0 (2 ^ 16) 0 0, .ctxParam hd 0 0 256 0, .ctxParam hd 0 0 0 256,
    .ctxPlace hd (2 ^ 16) 0, .ctxPlace hd 0 (2 ^ 128), .floorSet hd (2 ^ 16) 0, .floorSet hd 0 256, .ctxTelem hd (2 ^ 16) 0,
    .ctxTelem hd 0 (2 ^ 64), .amBaseline hd (2 ^ 160) {}, .tlyRemove hd 256, .tlySetReg hd 256 0 0 {},
    .tlySetReg hd 0 (2 ^ 64) 0 {}, .tlySetReg hd 0 0 (2 ^ 64) {}, .tlySetRemove hd 256, .slotTable hd (2 ^ 64) 0 {},
    .slotTable hd 0 (2 ^ 16) {}, .vftLoad hd 256 0 {}, .vftLoad hd 0 (2 ^ 64) {}, .hintClassEntry hd 256 0,
    .hintClassEntry hd 0 (2 ^ 32), .hintClassPerm hd (2 ^ 16) 0 0, .hintClassPerm hd 0 256 0, .hintClassPerm hd 0 0 (2 ^ 32)] =
    true := by decide
theorem test_wf_acts : refuses [.synActSet hd (2 ^ 16), .synActClear hd (2 ^ 16), .adjust hd (2 ^ 16) 0, .adjust hd 0 (2 ^ 16),
    .releaseWaiter hd (2 ^ 16), .failWaiter hd (2 ^ 16), .resetWindow hd false (2 ^ 16), .setKind hd (2 ^ 16) 0,
    .setKind hd 0 (2 ^ 64), .groupDef hd (2 ^ 16) 0 [], .groupDef hd 0 (2 ^ 16) [], .groupDef hd 0 0 (List.replicate 17 0),
    .groupDef hd 0 0 [2 ^ 16], .synRead hd 256 0, .synRead hd 0 (2 ^ 16), .ldgDrain hd (2 ^ 16) 0, .ldgDrain hd 0 (2 ^ 64),
    .fuseIntegratorKey hd 256 buf {}, .fuseBootSet hd 256 buf {}, .fuseSvn hd 256 {}, .fuseRevokeIntegrator hd 256 buf {},
    .fuseRevokeKolhidex hd 256 buf {}, .zeroiseVolatile hd (2 ^ 32), .zeroisePermanent hd (2 ^ 32) {}, .audTest hd 256 0 false false,
    .audTest hd 0 (2 ^ 16) false false, .audRemove hd 256 0 false false, .audRemove hd 0 (2 ^ 16) false false,
    .audReturn hd 256 0, .audReturn hd 0 (2 ^ 16)] = true := by decide
/-- The same commands with operands that fit are well-formed. -/
theorem test_wf_accepted : ([.nop hd, .malformedRequest 0 req, .tlyInstall hd buf {}, .dmaXfer hd xf {}, .dmaStreamArm hd xf {},
    .ctxOpen hd co, .loopCoef hd lc, .synMap hd sm, .clrConfig hd cc, .clrLink hd cl, .fwSpdm hd sp {}, .frecCopy hd fr,
    .join 0 {}, .mailboxPoll 0 (List.replicate 24 0), .descriptorFetch 0 (some (List.replicate 16 0)) {},
    .groupDef hd 511 8192 (List.replicate 16 8191), .fuseSvn hd 64 {}, .audTest hd 5 64 true true] : List Instr).all Instr.wf =
    true := by decide
theorem test_no_word_decodes : decodeTableWord 32 0 = none := rfl

/-! ## Small states -/

/-- A live block after step 7, firmware running, interface versions equal. -/
def live : State := { ({} : State) with pwr := { ({} : Power) with step := 7, emuReady := true } }
def up : State := { live with fw := { ({} : Fw) with run := true, vault := { ({} : Vault) with ready := true } } }
/-- One cluster, domain and rail, with two phases, a site, a detector and a monitor; the fuses allow N = 160 to 200. -/
def cfg1 : Cfg :=
  { ({} : Cfg) with
    nBoot := 160
    rail := [(0, { present := true, nph := 2, nreq := 1, vmin := 2000, iol := 800 })]
    ph := [(0, { present := true, rail := 0 }), (1, { present := true, rail := 0, pos := 1 })]
    dom := [(0, { present := true })]
    clu := [(0, { present := true, dom := 0, rails := 1, fbLevel := 40, cores := 3 })]
    loop := [(0, { present := true }), (2, { present := true, tgtMax := 500, nx := 1, satFb := true })]
    site := [(0, { present := true })], det := [(0, { present := true })], mon := [(0, { present := true })] }
def one : State :=
  { up with cfg := cfg1, fuse := { ({} : Fuses) with nMax := 200, capMax := 800, vmax := [4000], vov := [4400] } }
/-- The same, live but without firmware. -/
def cold : State := { one with fw := {} }

/-- What a command answers, when it is a next state that `p` holds of. -/
def gives (r : Res) (p : State → Bool) : Bool := match r with | .next t => p t | _ => false

/-- The block at a later time. -/
def at_ (n : Nat) (s : State) : State := { s with now := n }

/-! ## The hypotheses of the statements: the block, clocks, resets, ports and frames -/

theorem test_wit_StepRunsFrontCommand : ∃ (s : State) (c : Instr) (l : List Instr), s.pending = c :: l :=
  ⟨{ up with pending := [.refLoss] }, .refLoss, [], rfl⟩
theorem test_wit_IdleStepAndBlockTime :
    (up.pending = [] ∧ up.live = true ∧ ({ up with pwr := { up.pwr with testHold := true } } : State).live = false) ∧
    ∃ t, step { up with pending := [.refLoss] } = .next t ∧ t.now = 0 :=
  ⟨by decide, _, rfl, rfl⟩
theorem test_wit_invariants : (∃ t, step up = .next t ∧ ∀ v r x n p, up.pending.head? ≠ some (.coldReset v r x n p)) ∧
    up.ldg.Ok ∧ WaitersOk up ∧ SlotsOk up ∧ ResetCauseOk up :=
  ⟨⟨_, rfl, fun _ _ _ _ _ => nofun⟩, ⟨by decide, by decide, by decide, by decide⟩, by unfold WaitersOk; decide, by unfold SlotsOk; decide,
    by unfold ResetCauseOk; decide⟩
theorem test_wit_ReferenceWindowJudged :
    live.live = true ∧ live.clk.ref.stable = false ∧ refHz live.pwr.refsel = some 100000000 ∧ live.clk.ref.goodWin < 1023 ∧
    (99 * 100000000 * 2560000 ≤ 100 * 256 * 10 ^ 12 ∧ 100 * 256 * 10 ^ 12 ≤ 101 * 100000000 * 2560000) ∧
    ¬ (99 * 100000000 * 2600000 ≤ 100 * 256 * 10 ^ 12 ∧ 100 * 256 * 10 ^ 12 ≤ 101 * 100000000 * 2600000) := by decide
theorem test_wit_ReferenceBecomesStable :
    let s := cold.onClk fun k => { k with ref := { k.ref with goodWin := 1023 } }
    s.live = true ∧ s.clk.ref.stable = false ∧ s.clk.ref.needDrift = false ∧ windowInside s.pwr.refsel 2560000 = true ∧
      1023 ≤ s.clk.ref.goodWin ∧ s.clk.root.everLocked = false := by decide
/-- A stable reference and a locked root at N = 160. -/
def lock : State :=
  one.onClk fun k => { k with ref := { k.ref with stable := true, present := true }
                              root := { k.root with locked := true, held := false, nCur := 160, everLocked := true } }
theorem test_wit_ReferenceLost : lock.live = true ∧ lock.clk.ref.stable = true ∧ windowInside lock.pwr.refsel 2600000 = false := by
  decide
theorem test_wit_HostRootRequest :
    let out := lock.onClk fun k => { k with ref := { k.ref with present := false } }
    let auto := lock.updLp 0 0 fun l => { l with auto := true }
    let fail := lock.onClk fun k => { k with root := { k.root with pllFail := true } }
    (lock.live = true ∧ lock.fwUp = true ∧ lock.hif.mismatch = false) ∧ (auto.live = true ∧ auto.fwUp = true) ∧
      ¬ (160 ≤ 159) ∧ ¬ (201 ≤ lock.fuse.nMax) ∧ 200 ≤ lock.fuse.nMax ∧ lock.anyAuto = false ∧ auto.anyAuto = true ∧
      out.clk.ref.present = false ∧ out.anyAuto = false ∧ fail.clk.root.pllFail = true ∧ fail.anyAuto = false ∧
      lock.clk.root.pllFail = false ∧ lock.clk.ref.present = true := by decide
theorem test_wit_RootChangeStarts :
    let s := (lock.onClk fun k => { k with root := { k.root with waiting := some (200, 2) } }).updDom 0 fun x => { x with stopped := false }
    let t := { s with fuse := { s.fuse with dmin := [20] } }
    t.live = true ∧ t.clk.root.waiting = some (200, 2) ∧ rootMay t = true ∧ 0 ∈ t.doms ∧ (t.getDom 0).stopped = false ∧
      (t.getDom 0).code < guardCode t 0 t.clk.root.nCur 200 := by decide
/-- A root change to N = 200 in a phase of R106. -/
def chg (ph : Nat) (retry : Bool) : RootChange := { oldN := 160, newN := 200, cause := 2, phase := ph, retry := retry }
def inChg (ph : Nat) (retry : Bool) : State := lock.onClk fun k => { k with root := { k.root with change := some (chg ph retry) } }
theorem test_wit_RootRelocks : (inChg 1 false).live = true ∧ (inChg 1 false).clk.root.change = some (chg 1 false) ∧
    (∀ d ∈ (inChg 1 false).doms, ((inChg 1 false).getDom d).sent = none) ∧
    (∀ p ∈ (inChg 1 false).modulating, ((inChg 1 false).getPh p).osc = true) := by decide
/-- Rail 0 ON with its two phases active on the oscillator. -/
def onRail (s : State) : State :=
  ((s.updProt 0 fun x => { x with st := 3 }).updPh 0 fun x => { x with st := 2, pen := true }).updPh 1 fun x => { x with st := 2, pen := true }
theorem test_wit_PllLockRetryAndFail :
    let a := onRail (inChg 3 false)
    let b : State := { inChg 3 false with now := 20000 }
    let c : State := { inChg 3 true with now := 20000 }
    let f : State := { lock.onClk fun k => { k with root := { k.root with pllFail := true, failTime := 5 } } with now := 100000005 }
    (a.live = true ∧ a.now ≤ (chg 3 false).relockStart + 20000 ∧ ∃ p ∈ a.modulating, (a.getPh p).osc = true) ∧
      (b.live = true ∧ b.clk.root.change = some (chg 3 false) ∧ (chg 3 false).kind ≠ 3 ∧ (chg 3 false).relockStart + 20000 ≤ b.now) ∧
      (c.live = true ∧ c.clk.root.change = some (chg 3 true) ∧ (chg 3 true).relockStart + 20000 ≤ c.now) ∧
      (f.live = true ∧ f.clk.root.pllFail = true ∧ f.clk.ref.present = true ∧ f.clk.root.nCur ≠ 0 ∧
        f.clk.root.failTime + 100000000 ≤ f.now) := by decide
theorem test_wit_LeavesFollow :
    let a := lock.updDom 0 fun x => { x with sent := some 7 }
    let b : State := { lock.updDom 0 fun x => { x with failed := true, failTime := 0 } with now := 100000000 }
    let c := b.updDom 0 fun x => { x with testing := true }
    let e := lock.updDom 0 fun x => { x with stopped := false }
    let z := at_ 3000 (lock.updDom 0 fun x => { x with cmdOpen := true, cmdAt := 2000 })
    let o := at_ 3000 (lock.updDom 0 fun x => { x with stopped := false, cmdAt := 1000 })
    let x := lock.updDom 0 fun x => { x with ext := true, extLeft := 0 }
    (a.live = true ∧ a.clk.root.change = none ∧ a.sns.set7Wait = false ∧ a.rail.stops = [] ∧ (a.getDom 0).stopSent = false ∧
      (a.getDom 0).sent = some 7 ∧ (a.getDom 0).ext = false) ∧ ((lock.domCfg 0).present = true ∧ (lock.getDom 0).failed = false) ∧
      ((b.getDom 0).failed = true ∧ b.clk.root.held = false ∧ (b.getDom 0).failTime + 100000000 ≤ b.now) ∧
      ((c.getDom 0).failed = true ∧ (c.getDom 0).testing = true ∧ (c.getDom 0).failTime + 2000 ≤ c.now) ∧
      ((z.domCfg 0).present = true ∧ (z.getDom 0).failed = false ∧ (z.getDom 0).cmdOpen = true ∧ (z.getDom 0).cmdAt + 1000 ≤ z.now) ∧
      ((o.getDom 0).failed = false ∧ (o.getDom 0).stopped = false ∧ o.clk.root.held = false ∧ (o.getDom 0).cmdAt + 2000 ≤ o.now) ∧
      (x.live = true ∧ (x.getDom 0).ext = true ∧ (x.getDom 0).extLeft ≤ (x.getDom 0).extDone x.clk.root.nCur (x.now + 1)) ∧
      ((e.detCfg 0).present = true ∧ (e.getDet 0).calFail = false ∧ (e.getDet 0).depth.getD (e.detCfg 0).depth ≠ 0 ∧
        (e.getDom (e.detCfg 0).dom).stopped = false) := by decide
theorem test_wit_PowerOnAndColdReset :
    suppliesOk {} one = true ∧ suppliesOk {} State.reset = true ∧ suppliesOk { vaon := 639 } one = false ∧
      suppliesOk { vio := 1549 } one = false ∧ suppliesOk { vana := 0 } one = false ∧ (639 : Nat) < 640 ∧ ¬ (640 : Nat) < 640 ∧
      (some 1 : Option Nat).isSome = true := by decide
theorem test_wit_WarmResetHoldsAndRestarts :
    let l := one.onPwr fun p => { p with wrstLow := true }
    one.live = true ∧ one.pwr.wrstLow = false ∧ l.live = true ∧ l.pwr.wrstLow = true := by decide
/-- An image that passes the checks of Table 16.7 under Kolhidex key 0. -/
def img0 : FwImg := { ({} : FwImg) with whole := true, keyHash := 9, sig := true, blockVer := 0x0400 }
def boot : State :=
  { cold with fuse := { cold.fuse with kolHash := [9, 0, 0, 0] }
              fw := { ({} : Fw) with img := [some img0, none], vault := { ({} : Vault) with ready := true } } }
theorem test_wit_BootStartsPreferredImageOrRecovers :
    let r := boot.onFw fun f => { f with slotSt := [4, 0] }
    (boot.live = true ∧ boot.bootMay = true ∧ boot.pwr.cause ≤ 1 ∧ boot.nvDown = false ∧ boot.fw.slotState boot.fw.pref = 1 ∧
      boot.fw.slotImg boot.fw.pref = some img0 ∧ fwCheck boot.fuse (some img0) = 0) ∧
      (r.live = true ∧ r.bootMay = true ∧ r.pwr.cause ≤ 1 ∧ r.nvDown = false ∧ r.fw.slotState r.fw.pref = 4 ∧
        r.fw.slotState (1 - r.fw.pref) ≠ 1) := by decide
theorem test_wit_SupplyFailures : one.live = true ∧ one.pwr.vanaLoss = false ∧ one.fw.vault.alarmed = false := by decide
def rq0 : HmReq := { purpose := .dma 5, issued := 0, failed := none }
theorem test_wit_PortResetsAndResponses :
    let a := one.onHm fun h => { h with reqs := [(3, some rq0)] }
    let b := one.onHm fun h => { h with reqs := [(3, some { rq0 with failed := some 0 })] }
    (a.live = true ∧ a.hmReq 3 = some rq0 ∧ a.now ≤ rq0.issued + 100000 ∧ a.hm.waiting = [] ∧ a.now < rq0.issued + 100000) ∧
      (({ a with now := 100000 } : State).live = true ∧ rq0.issued + 100000 ≤ ({ a with now := 100000 } : State).now) ∧
      (b.hmReq 3 = some { rq0 with failed := some 0 } ∧ b.now < 0 + 1000000 ∧ b.hm.waiting = []) ∧
      0 + 1000000 ≤ ({ b with now := 1000000 } : State).now ∧ (one.onHm fun h => { h with inReset := true }).live = true := by decide
def u0 : CpUpd := { num := 1, issued := 0, ceil := 7 }
theorem test_wit_CeilingUpdatesAndAcknowledgements :
    let a := one.updCp 0 fun q => { q with num := 1, open_ := [u0] }
    (a.live = true ∧ (a.cluCfg 0).present = true ∧ (a.getCp 0).open_ = [u0] ∧ u0.num ≤ (a.getCp 0).echoed 1 ∧
      a.now ≤ u0.issued + 500 ∧ (a.getCp 0).backFrom = none ∧ (a.getClu 0).cpLate = none ∧ a.now < u0.issued + 500) ∧
      u0.issued + 500 ≤ ({ a with now := 500 } : State).now := by decide
theorem test_wit_FramesBeginAndCommit :
    let a := one.onFrm fun f => { f with started := true, number := 0, inFrame := true }
    let b : State := { one.onFrm fun f => { f with started := true } with now := 1000 }
    let e : State := { a with now := 960 }
    (b.live = true ∧ b.frm.inFrame = false ∧ b.frm.started = true ∧ b.frm.frameStart < b.now / b.frameNs * b.frameNs) ∧
      (one.frm.inFrame = false ∧ one.frm.started = false) ∧
      (({ b with now := 999 } : State).frm.started = true ∧ ({ b with now := 999 } : State).now / b.frameNs * b.frameNs ≤ b.frm.frameStart) ∧
      (e.frm.inFrame = true ∧ e.frm.frameStart + e.frameNs ≤ e.now + 40) ∧
      ¬ (a.frm.frameStart + a.frameNs ≤ ({ a with now := 959 } : State).now + 40) := by decide
/-- A frame in progress with one firmware LIMIT slot of cluster 0. -/
def sl0 : SlotEntry := { exec := 1, cls := 0, cluster := 0, work := 0, start := 0, deadline := 500, period := 1 }
def inFrame (r : SlotRun) (t : Nat) : State :=
  { (one.onFrm fun f => { f with started := true, inFrame := true, table := some [sl0] }).updRt 0 fun x => { x with run := r } with now := t }
theorem test_wit_SlotsStartCompleteMiss :
    ((inFrame .idle 0).live = true ∧ (inFrame .idle 0).slot 0 = some sl0 ∧ slotMay (inFrame .idle 0) 0 = true) ∧
      slotMay (inFrame .done 0) 0 = false ∧
      ((inFrame .running 500).frm.inFrame = true ∧ ((inFrame .running 500).getRt 0).run = .running ∧
        (inFrame .running 500).now ≤ (inFrame .running 500).frm.frameStart + sl0.deadline ∧
        (sl0.exec = 0 → (inFrame .running 500).progOk sl0.work = true)) ∧
      ((inFrame .idle 500).frm.inFrame = true ∧ ((inFrame .idle 500).getRt 0).run = .idle ∧
        (inFrame .idle 500).frm.frameStart + sl0.deadline ≤ (inFrame .idle 500).now) ∧
      (inFrame .idle 499).now < (inFrame .idle 499).frm.frameStart + sl0.deadline ∧ ((inFrame .idle 500).getRt 0).runLen = 0 ∧
      QRoom 0x30 (inFrame .idle 500) := by unfold QRoom; decide
theorem test_wit_BackstopCapsAndEnds :
    let a := (inFrame .missed 500).updRt 0 fun x => { x with runLen := 8 }
    let b := ((inFrame .done 500).updRt 0 fun x => { x with good := 16, runLen := 7 }).updBack 0 fun _ => { active := true, since := 0 }
    (a.live = true ∧ a.slot 0 = some sl0 ∧ sl0.cls ≤ 1 ∧ 8 ≤ (a.getRt 0).runLen) ∧ (b.getRt 0).runLen < 8 ∧
      ((b.getBack 0).active = true ∧ b.slot 0 = some sl0 ∧ 0 ∈ slotClus b sl0) ∧
      ∀ k e, b.slot k = some e → e.cls ≤ 1 → 0 ∈ slotClus b e → 16 ≤ (b.getRt k).good := by
  refine ⟨by decide, by decide, by decide, fun k e h _ _ => ?_⟩
  match k with
  | 0 => decide
  | k + 1 => exact absurd h (by show ([] : List SlotEntry)[k]? ≠ some e; simp)
theorem test_wit_SheddingRisesAndFalls :
    let a := one.onFrm fun f => { f with consec := 4, level := 2 }
    let b := one.onFrm fun f => { f with consec := 4, level := 0, lastRestore := some (0, 1) }
    let c := one.onFrm fun f => { f with level := 1, clean := 1024 }
    (a.live = true ∧ a.frm.inFrame = false ∧ 4 ≤ a.frm.consec ∧ a.frm.level < 3 ∧ a.frm.lastRestore = none) ∧
      (b.frm.lastRestore = some (0, b.frm.level + 1) ∧ ({ b with now := 1000000000 } : State).now ≤ 0 + 1000000000) ∧
      (c.live = true ∧ c.frm.inFrame = false ∧ c.frm.floor < c.frm.level ∧ c.frm.required ≤ c.frm.clean) ∧
      (one.live = true ∧ one.fwUp = true ∧ one.hif.mismatch = false) := by decide

/-! ## Drift, loops and Tally -/

/-- `k` links PRESENT whose peers run `ppm` away, 500 samples each. -/
def drift (k : Nat) (ppm : Int) : State :=
  let l : Link := { ({} : Link) with en := true, st := 2, dn := 500, dxx := 1000000, dxy := ppm }
  { lock with now := 10000000, clr := { ({} : Clearing) with en := true, inc := 1, lnk := (List.range k).map fun i => (i, l) }
              tb := { lock.tb with hold := false } }
/-- The rates of R98 in that state. -/
def rates (s : State) : List Int := (s.links.filter fun l => (s.getLnk l).up).filterMap fun l => linkPpm (s.getLnk l)
theorem test_wit_DriftMeasurementActs :
    (∀ s ∈ [drift 2 0, drift 3 199, drift 3 200, drift 3 (-999), drift 3 1000], s.live = true ∧ s.clrUp = true ∧
      s.clr.driftStart + 10000000 ≤ s.now ∧ s.tb.hold = false ∧ s.clk.ref.stable = true) ∧ (rates (drift 2 0)).length < 3 ∧
      (3 ≤ (rates (drift 3 200)).length ∧ medianI (rates (drift 3 199)) = 199 ∧ medianI (rates (drift 3 200)) = 200 ∧
        medianI (rates (drift 3 (-999))) = -999 ∧ medianI (rates (drift 3 1000)) = 1000) := by decide
theorem test_wit_LoopModeRequests :
    let a := one.updClu 0 fun c => { c with started := true, st := 1 }
    (a.live = true ∧ a.fwUp = true ∧ a.hif.mismatch = false ∧ bitOf (2 ^ 31 + 5) 31 = true) ∧ 5 ≤ bits (2 ^ 31 + 5) 0 3 ∧
      (bits (2 ^ 31 + 4) 0 3 < 5 ∧ (a.loopCfg a.loop.clSel 4).present = false) ∧
      ((a.cluCfg a.loop.clSel).present = true ∧ (a.loopCfg a.loop.clSel 0).present = true ∧ (a.getClu 0).started = true ∧
        (a.getClu 0).st ≠ 2) ∧ (one.getClu 0).started = false ∧ (one.updClu 0 fun c => { c with st := 2 }).getClu 0 ≠ {} := by decide
theorem test_wit_LoopTargetsAndFallback :
    let at_ := fun (j : Nat) => one.onLoop fun x => { x with sel := j }
    (∀ j ∈ [0, 2, 5], (at_ j).live = true ∧ (at_ j).fwUp = true ∧ (at_ j).hif.mismatch = false ∧
      ((at_ j).cluCfg (at_ j).loop.clSel).present = true ∧ (at_ j).loop.sel = j) ∧ ((at_ 0).loopCfg 0 0).present = true ∧
      ((at_ 2).loopCfg 0 2).present = true ∧ loopTgt 2 500 ≤ loopTgt 2 ((at_ 2).loopCfg 0 2).tgtMax ∧
      loopTgt 2 ((at_ 2).loopCfg 0 2).tgtMax < loopTgt 2 501 ∧
      (bitOf (2 ^ 17 + 100) 17 = true ∧ bitOf (2 ^ 17 + 100) 18 = false ∧ ((at_ 2).getLp 0 2).fbForce = false ∧
        bits (2 ^ 17 + 100) 0 16 = ((at_ 2).getLp 0 2).tsat ∧ bitOf (2 ^ 17 + 100) 16 = ((at_ 2).getLp 0 2).satFb ∧
        ((at_ 2).getLp 0 2).fallback = false ∧ ((at_ 2).loopCfg 0 2).nx ≠ 0) := by decide
theorem test_wit_SaturatedLoopFlags :
    let a := one.updLp 0 2 fun l => { l with auto := true, satSince := some 0, satFb := true }
    let b := one.updLp 0 2 fun l => { l with auto := true, satSince := some 0 }
    let late := fun (s : State) => ({ s with now := 100000001 } : State)
    (∀ s ∈ [a, b], s.live = true ∧ (s.getLp 0 2).satSince = some 0 ∧ (s.getLp 0 2).auto = true ∧ (s.loopCfg 0 2).present = true ∧
      (s.getLp 0 2).satFlag = false ∧ 0 + (s.getLp 0 2).tsat * 1000000 < (late s).now) ∧
      ((a.getLp 0 2).satFb = true ∧ (a.getLp 0 2).fallback = false ∧ (a.loopCfg 0 2).nx ≠ 0) ∧ (b.getLp 0 2).satFb = false ∧
      ({ a with now := 100000000 } : State).now ≤ 0 + (a.getLp 0 2).tsat * 1000000 ∧
      ((a.updLp 0 2 fun l => { l with satFlag := true }).getLp 0 2).satFlag = true := by decide
theorem test_wit_TallyErrors :
    let s0 := { sl0 with exec := 0, work := 3 }
    let a := (one.onFrm fun f => { f with started := true, inFrame := true, table := some [s0] }).updRt 0 fun x => { x with run := .running }
    a.live = true ∧ a.runsProg 0 = some 3 ∧ a.tly.cube.getD 8 3 = 1 ∧ a.tly.cube.getD 0 3 = 0 ∧ one.runsProg 0 = none ∧
      (one.live = true ∧ one.fwUp = true ∧ one.hif.mismatch = false) ∧
      (let p := { a with cfg := { a.cfg with tly := { a.cfg.tly with pinned := 4, framePages := 4 } } }
       let q := p.updSet 2 fun x => { x with registered := true, resident := true, frame := 0 }
       p.runsProg 0 = some 3 ∧ p.pinnedAddr 1023 = true ∧ p.pinnedAddr 1024 = false ∧
         q.setAt (q.frameBase 0) = some 2 ∧ q.pinnedAddr (q.frameBase 0) = false) := by decide
/-- Page 0 of set 2 has arrived; `n` pages in all. -/
def paged (n digest : Nat) : State :=
  (one.updSet 2 fun x => { x with registered := true, npages := n }).onTly fun t =>
    { t with page := some { set := 2, frame := 0, start := 0, hdrRead := true, digests := [digest], buf := some [1, 2] } }
theorem test_wit_PageLandsInItsFrame : ∃ p : Paging, (paged 1 (Config.sha384 (wordBytes [1, 2]))).tly.page = some p ∧ p.buf = some [1, 2] ∧
    (paged 1 0).live = true ∧ Config.sha384 (wordBytes [1, 2]) = p.digests.getD p.page 0 ∧
    ((paged 1 0).getSet p.set).npages ≤ p.page + 1 ∧ p.page + 1 < ((paged 2 0).getSet p.set).npages :=
  ⟨_, rfl, rfl, by decide, rfl, by decide, by decide⟩
theorem test_wit_PageOfAnotherDigest : ∃ d : Nat, Config.sha384 (wordBytes [1, 2]) ≠ d ∧
    ∃ p : Paging, (paged 1 d).tly.page = some p ∧ p.digests.getD p.page 0 = d :=
  ⟨Config.sha384 (wordBytes [1, 2]) + 1, by omega, _, rfl, rfl⟩

/-! ## Sensing and Treasury -/

set_option maxRecDepth 4000 in
theorem test_wit_SitesSampled :
    let a := one.updSite 0 fun y => { y with lastCmd := some 0 }
    one.live = true ∧ (one.siteCfg 0).present = true ∧ (one.getSite 0).ringFail = false ∧
      due one.now (siteInterval one 0) (one.getSite 0).lastCmd = true ∧ siteInterval a 0 ≠ 0 ∧
      due (at_ (siteInterval a 0) a).now (siteInterval (at_ (siteInterval a 0) a) 0) ((at_ (siteInterval a 0) a).getSite 0).lastCmd = true ∧
      due (at_ (siteInterval a 0 - 1) a).now (siteInterval a 0) (a.getSite 0).lastCmd = false ∧
      (one.getSite 0).pause = 0 ∧ (one.getSite 0).excl = false ∧ (0x7FFE#16 : BitVec 16) ≠ 0x7FFF#16 := by decide
theorem test_wit_ThermalTrip :
    let a := (onRail one).updSite 0 fun y => { y with meas := some 1 }
    let b := { (a.onAud fun x => { x with trips := [0, 0] }) with now := 3600 * nsPerS - 1 }
    let c := one.onAud fun x => { x with tripActive := true, dwell := some 0 }
    (∀ s ∈ [a, b], s.live = true ∧ (s.siteCfg 0).present = true ∧ tripInput s 0 = some 1 ∧ s.siteLimit 0 < 1 ∧
        s.anyRunning = true ∧ s.aud.tripLatched = false) ∧ 2 ≤ (recentHour b.now b.aud.trips).length ∧
      recentHour (at_ (3600 * nsPerS) b).now b.aud.trips = [] ∧
      (let z := a.updSite 0 fun y => { y with meas := some 0 }; tripInput z 0 = some 0 ∧ 0 ≤ z.siteLimit 0) ∧
      (c.live = true ∧ c.aud.tripActive = true ∧ c.aud.tripLatched = false ∧ c.aud.dwell = some 0 ∧
        0 + 2000000000 ≤ (at_ 2000000000 c).now) ∧ one.aud.dwell = none := by decide
set_option maxRecDepth 4000 in
theorem test_wit_RingsFailAndReturn :
    let a := one.onSns fun n => { n with rings := [(16, some (0, 5))] }
    (one.live = true ∧ 0 < ringCount (1 : Fin 3) ∧ 7 < ringCount (0 : Fin 3) ∧ 3 < ringCount (2 : Fin 3) ∧
      Tbl.get none one.sns.rings 16 = none ∧ (one.detCfg 0).present = true ∧ (one.detCfg 0).ring = 0 ∧
      0 ∈ one.sites ∧ (one.siteCfg 0).ring = 0 ∧ (one.siteCfg 0).pos < 64 ∧ (one.monCfg 0).present = true) ∧
      a.live = true ∧ Tbl.get none a.sns.rings 16 = some (0, 5) ∧ 5 + 100000000 ≤ (at_ 100000005 a).now ∧
      Tbl.get none (one.onSns fun n => { n with rings := [(16, some (7, 5))] }).sns.rings 16 = some (7, 5) ∧
      (at_ 100000004 a).now < 5 + 100000000 := by decide
theorem test_wit_ReferencesCompared :
    (one.live = true ∧ one.sns.noMaj = false ∧ one.sns.excl = [false, false, false]) ∧
      (refFar 1000 1000 = false ∧ refFar 1000 1003 = false ∧ refFar 1005 1000 = true) ∧
      ((one.onSns fun n => { n with exclRun := [2, 0, 0] }).sns.exclRun = [2, 0, 0] ∧ refFar 2000 1000 = true ∧
        refFar 1000 1001 = false) ∧ (one.onSns fun n => { n with bcastDue := true }).sns.bcastDue = true ∧
      one.sns.bcast + 100000000 ≤ (at_ 100000000 one).now ∧ (at_ 99999999 one).now < one.sns.bcast + 100000000 ∧
      one.sns.bcastDue = false := by decide
theorem test_wit_Emulates : Emulates one ∧ Emulates lock := by unfold Emulates; decide
theorem test_wit_DroopDetectors :
    let a := one.updDet 0 fun x => { x with pend := 2 }
    (one.detCfg 0).present = true ∧ one.live = true ∧ (one.getDet 0).ringFail = false ∧ (a.getDet 0).pend ≠ 0 ∧
      (a.getDet 0).pend = 2 ∧ a.live = true ∧ one.sns.detSel = 0 := by decide
theorem test_wit_AgeingMeasured :
    let a := one.updMon 0 fun y => { y with base := some 1000000000 }
    (a.live = true ∧ (a.monCfg 0).present = true ∧ (a.getMon 0).ringFail = false ∧ (a.getMon 0).base = some 1000000000) ∧
      one.trs.trimAt + 600000000000 ≤ (at_ 600000000000 one).now ∧ (at_ 599999999999 one).now < one.trs.trimAt + 600000000000 ∧
      (0 ∈ one.clusters ∧ trimHeld one 0 = some 2) := by decide
/-- Cluster 0 has its trim enabled by configuration and feature, and its monitor has a baseline. -/
def trimmed : State :=
  let s := { one with cfg := { one.cfg with clu := [(0, { one.cluCfg 0 with trimEn := true, gb := 4, kage := 1 })] } }
  ({ s with hif := { s.hif with negDone := true, featEn := 64 } } : State).updMon 0 fun y => { y with base := some 1000000000 }
theorem test_wit_TrimNotHeld : trimmed.live = true ∧ 0 ∈ trimmed.clusters ∧ trimHeld trimmed 0 = none := by decide
def bor1 : Bor := { id := 7, amt := 8, exp := 130000 }
theorem test_wit_ExcursionAndLeaseGuard :
    let a := ({ one with hif := { one.hif with featEn := 32 } } : State).onTrs fun x => { x with odSince := some 0, cap := 100, odPct := 150, reserve := 10 }
    let full := a.onTrs fun x => { x with od := a.odMax }
    let b := (one.updLnk 3 fun l => { l with bor := [bor1] }).onTrs fun x => { x with lguard := 30 }
    (a.live = true ∧ a.trs.odSince = some 0 ∧ a.trs.od * 100 ≤ a.trs.reserve * a.odMax) ∧
      full.trs.reserve * full.odMax < full.trs.od * 100 ∧ 0 + 1000000 ≤ (at_ 1000000 full).now ∧
      (at_ 999999 full).now < 0 + 1000000 ∧ ((b.getLnk 3).bor = [bor1] ∧ bor1.counted = true ∧ bor1.ret = none) ∧
      bor1.exp ≤ (at_ 100000 b).now + b.trs.lguard * 1000 ∧ (at_ 99999 b).now + b.trs.lguard * 1000 < bor1.exp := by decide
theorem test_wit_TreasuryRegisters :
    let g := fun (t : State) => t.onTrs fun x => { x with cap := 800 }
    let b := one.onTrs fun x => { x with preMax := 5, floorMax := 100 }
    (7 : Nat) < 8 ∧ one.fuse.capMax < 801 ∧ 800 ≤ one.fuse.capMax ∧ admits g one = true ∧
      bits 0x100 8 8 ≠ 0 ∧ bits 0x3 8 8 = 0 ∧ one.trs.dcSel < one.trs.prio.length ∧ bits 0x30000 16 2 = 3 ∧
      (bits 0x20005 16 2 = 2 ∧ bits 0x20005 24 8 = 0) ∧
      admits (fun t => t.onTrs fun x => { x with floor := x.floor.set one.trs.dcSel 1 }) (g one) = true ∧
      admits (fun t => t.onTrs fun x => { x with floor := x.floor.set one.trs.dcSel 801 }) (g b) = false := by decide

/-! ## Rails -/

theorem test_wit_ConversionsMeasure :
    let c := { one.cfg with ph := [(0, { present := true, rail := 0, gt := 10, v0 := 600 })]
                            rail := [(0, { one.railCfg 0 with vinNom := 48000 })] }
    let a := (onRail { one with cfg := c }).updReg 0 fun x => { x with target := 4000, vref := 4000 }
    a.live = true ∧ (a.railCfg 0).present = true ∧ (a.phCfg 0).present = true ∧ (a.phCfg 0).gt ≠ 0 ∧
      (a.regulating 0 = true ∧ (((railVolt 0 (a.getMeas 0).gPpm (a.getMeas 0).oUv : Nat) : Int)
        < a.veff 0 - (a.getReg 0).act.vnlu)) ∧
      ((one.getPh 0).pen = false ∧ (List.replicate 16 (1600 : Fin 4096)).length = 16) ∧
      ((80 * (a.railCfg 0).vinNom : Nat) ≤ 100 * linear11 12 ∧ 100 * linear11 12 ≤ (120 * (a.railCfg 0).vinNom : Nat)) ∧
      100 * linear11 9 < (80 * (a.railCfg 0).vinNom : Nat) ∧
      (let b := a.updMeas 0 fun m => { m with vinNom := false }
       (b.getMeas 0).vinNom = false ∧ (b.getMeas 0).vinAccept + 100000000 ≤ (at_ 100000000 b).now) := by decide
/-- Two captures of 1,600 codes agree with a nominal zero level of 600 mV, two of 1,700 do not. -/
theorem test_autoZero_limit : ((25600 * 375 : Nat) : Int) - (16000 * 600 : Nat) = 0 ∧
    480000 < (((16 * 1700 * 375 : Nat) : Int) - (16000 * 600 : Nat)).natAbs := by decide
theorem test_wit_RailsRegulate :
    let a := (onRail one).updMeas 0 fun m => { m with vLast := [4000, 4001], shiftSince := some 0 }
    let b := (a.updReg 0 fun x => { x with brake := some 0, lastFc := some 0 }).updPh 0 fun x => { x with trimSince := some 0 }
    let up_ := a.updProt 0 fun x => { x with st := 2 }
    (a.live = true ∧ a.regulating 0 = true ∧ 2 ≤ (a.getMeas 0).vLast.length ∧ (a.getProt 0).st ≠ 2) ∧ one.regulating 0 = false ∧
      (up_.regulating 0 = true ∧ (up_.getProt 0).st = 2 ∧ (up_.getProt 0).vStart ≤ (up_.getReg 0).vref) ∧
      ((a.railCfg 0).present = true ∧ (a.getReg 0).shed.tbEn = true ∧
        ((a.updReg 0 fun x => { x with shed := { x.shed with tbEn := false } }).getReg 0).shed.tbEn = false) ∧
      ((a.getMeas 0).shiftSince = some 0 ∧ 0 + 1000000000 ≤ (at_ 1000000000 a).now ∧ (a.getMeas 0).shiftRec = none) ∧
      ((b.getPh 0).trimSince = some 0 ∧ 0 + 1000000 ≤ (at_ 1000000 b).now ∧ (b.getPh 0).trimRec = false) ∧
      ((b.getReg 0).brake = some 0 ∧ 0 + 10 * (b.getReg 0).act.tbrk ≤ (at_ 2000 b).now ∧
        (at_ 1999 b).now < 0 + 10 * (b.getReg 0).act.tbrk) ∧
      ((b.getReg 0).lastFc = some 0 ∧ 0 + 4000 ≤ (at_ 4000 b).now) := by decide
theorem test_wit_PhasesModulate :
    let a := (onRail lock).updMeas 0 fun m => { m with removeSince := some 0 }
    let brk := a.updReg 0 fun x => { x with brake := some 0 }
    let noDe := (a.onClk fun k => { k with ref := { k.ref with present := true } }).updReg 0 fun x =>
      { x with shed := { x.shed with deEn := false, nmin := 1, iAdd := 8 } }
    let join := a.updPh 0 fun x => { x with st := 3 }
    (a.live = true ∧ (a.phCfg 0).present = true ∧ (a.phCfg 0).rail = 0) ∧ one.regulating 0 = false ∧
      (a.regulating 0 = true ∧ (a.getPh 0).st = 2) ∧ ((join.getPh 0).st = 3 ∧ (join.getPh 0).joinAt = none) ∧
      (brk.getReg 0).brake.isSome = true ∧ ((noDe.getReg 0).brake = none ∧ noDe.deArmed 0 = false) ∧
      (a.deArmed 0 = true ∧ (a.getPh 0).pen = true ∧ (a.getPh 0).pwm = false ∧ (a.getReg 0).nlLo = false) ∧
      ((noDe.getMeas 0).removeSince = some 0 ∧ 0 + 2000 * (noDe.getReg 0).shed.thold ≤ (at_ 50000 noDe).now ∧
        (noDe.getProt 0).st = 3 ∧ (noDe.getReg 0).shed.nmin < (noDe.activePhases 0).length ∧
        wantPhases noDe 0 < (noDe.activePhases 0).length ∧
        argMin (fun x => -(noDe.getPh x).temp) (noDe.activePhases 0) = some 0) := by decide
theorem test_wit_RailRegisters :
    let a := (onRail one).updLp 0 0 fun l => { l with auto := true }
    let f := { one with fuse := { one.fuse with slewMax := [40] } }
    a.rail.sel = 0 ∧ a.railManual 0 = false ∧ (onRail one).railManual 0 = true ∧
      1999 < ((onRail one).railCfg 0).vmin ∧ (onRail one).vmax 0 < 4001 ∧
      (((onRail one).railCfg 0).vmin ≤ 2000 ∧ 4000 ≤ (onRail one).vmax 0 ∧ ((onRail one).getReg 0).hold = false ∧
        ((onRail one).getProt 0).st = 3) ∧ f.fuse.slewMax.getD f.rail.sel 0 = 40 ∧
      (bits 0x01000000 0 7 = 0 ∧ (one.railCfg 0).nph < bits 0x01000003 0 7 ∧ bits 0x00000001 24 8 = 0) ∧
      (bits 0x01000002 0 7 ≠ 0 ∧ bits 0x01000002 0 7 ≤ (one.railCfg 0).nph ∧ bits 0x01000002 24 8 ≠ 0) := by decide
theorem test_wit_RailEmulates : Emulates (onRail one) ∧ Emulates ((onRail one).updLp 0 0 fun l => { l with auto := true }) := by
  unfold Emulates; decide

/-! ## Starts, stops, protection and fault records -/

/-- A start of rail 0 in step `k`. -/
def seq (k : Nat) : StartSeq := { rails := 1, step := k, began := 0, cold := true }
def starting (k : Nat) : State :=
  (one.onRail fun x => { x with starts := [seq k] }).updProt 0 fun x => { x with st := 1, senseOk := true }
theorem test_wit_RailsStart :
    let r0 := { rampNs := 100, st := 2 : RailProt }
    let a := (one.updProt 0 fun _ => r0).updReg 0 fun x => { x with reached := true }
    (∀ k ∈ [2, 3, 4], (starting k).live = true ∧ (starting k).startFront = some (seq k)) ∧ startPending (starting 2) (seq 2) ≠ [] ∧
      (∀ k ∈ maskIdx 8 (seq 3).rails, Tbl.get 0 [(0, 200)] k ≤ 200) ∧ (0 ∈ maskIdx 8 (seq 3).rails ∧ 200 < Tbl.get 0 [(0, 201)] 0 ∧
        ((starting 3).getProt 0).st = 1 ∧ (starting 3).aud.tripLatched = false) ∧
      ((identifyList (starting 4) (seq 4)).head? = some 0 ∧ identifyCause (starting 4) 0 0 false false false = some 0) ∧
      ((∃ q ∈ (starting 5).rail.starts, q.step = 5 ∧ bitOf q.rails 0 = true) ∧ ((starting 5).getProt 0).st = 1 ∧
        ((starting 5).getProt 0).senseOk = true ∧ ((starting 5).railCfg 0).nreq ≤ ((starting 5).usablePhases 0).length ∧
        masterReady (starting 5) 0 = true ∧ (starting 5).inStop 0 = false) ∧
      ((a.getReg 0).reached = true ∧ (a.getProt 0).st = 2) ∧
      (a.getProt 0).rampAt + 2 * (a.getProt 0).rampNs + 1000000 ≤ (at_ 1000200 a).now ∧ (one.getProt 0).st ≠ 2 := by decide
theorem test_wit_RailsStop :
    let low := (onRail one).updProt 0 fun x => { x with st := 4, zeroAt := some 0 }
    let hi := low.updMeas 0 fun m => { m with v := 200 }
    let fast := (at_ 10000 (onRail one)).onRail fun x => { x with stops := [{ rails := 1, fast := true, cause := 2 }] }
    let ol := fun (i : Nat) => ((onRail one).updMeas 0 fun m => { m with iAvg := i }).updProt 0 fun x => { x with olAbove := some 0 }
    (low.live = true ∧ low.aud.tripLatched = false ∧ (low.getProt 0).st = 4 ∧ (low.getMeas 0).v < 200) ∧
      ((hi.getProt 0).zeroAt = some 0 ∧ 0 + 2000000 ≤ (at_ 2000000 hi).now) ∧ (one.getProt 0).st ≠ 4 ∧
      (fast.rail.stops.find? (fastMay fast 0)).isSome = true ∧ one.rail.stops.find? (fastMay one 0) = none ∧
      ((one.railCfg 0).present = true ∧ (one.railCfg 0).iol < ((ol 801).getMeas 0).iAvg ∧ ((ol 801).getProt 0).ol = none ∧
        ((ol 801).getProt 0).olAbove = some 0 ∧ 0 + 10000000 ≤ (at_ 10000000 (ol 801)).now ∧ ((ol 801).getProt 0).running = true) ∧
      10 * ((ol 719).getMeas 0).iAvg < 9 * (one.railCfg 0).iol := by decide
theorem test_wit_ProtectionsAct :
    let s7 := (onRail one).updPh 0 fun x => { x with scTimes := List.replicate 7 0 }
    let cb := one.updProt 0 fun x => { x with st := 6 }
    (s7.live = true ∧ (s7.phCfg 0).present = true) ∧
      (7 ≤ ((s7.getPh 0).scTimes.filter fun t => (at_ 999999 s7).now < t + 1000000).length ∧ (s7.getPh 0).st ≠ 6) ∧
      ((s7.getPh 0).scTimes.filter fun t => (at_ 1000000 s7).now < t + 1000000).length < 7 ∧
      ((one.getPh 0).stage = false ∧ (one.getPh 0).readback = false) ∧ ((one.railCfg 0).present = true ∧ (one.getProt 0).st ≠ 6) ∧
      (cb.getProt 0).st = 6 ∧ ((onRail one).getProt 0).st = 3 ∧ (one.getProt 0).st ≠ 3 := by decide
theorem test_wit_FaultsCleared :
    let cb := fun (v : Nat) => (one.updProt 0 fun x => { x with st := 6 }).updMeas 0 fun m => { m with v := v }
    let fl := one.updProt 0 fun x => { x with st := 5, cause := 2 }
    (Emulates (cb 400) ∧ Emulates (cb 399) ∧ Emulates fl) ∧ ((one.getProt one.rail.sel).st ≠ 6) ∧
      (((cb 400).getProt 0).st = 6 ∧ 400 ≤ ((cb 400).getMeas 0).v ∧ ((cb 399).getMeas 0).v < 400) ∧
      ((one.onPwr fun p => { p with vanaLoss := true }).pwr.vanaLoss = true ∧ one.pwr.vanaLoss = false ∧
        (one.getProt 0).st ≠ 5) ∧
      ((fl.getProt 0).st = 5 ∧ (fl.onAud fun a => { a with tripActive := true }).aud.tripActive = true ∧
        fl.aud.tripActive = false ∧ (fl.getProt 0).cause ≠ 3) ∧
      (let x := one.updPh 0 fun y => { y with st := 6, stage := true, pflt := true }; (x.getPh 0).st = 6) := by
  unfold Emulates; decide
theorem test_wit_FaultRecordsCommit :
    let a := one.onFrec fun f => { f with queue := [{}], ready := true }
    (a.live = true ∧ a.frec.queue = {} :: [] ∧ a.frec.busy = true) ∧ one.frec.busy = false ∧ one.nvDown = false ∧
      (one.onFrec fun f => { f with erasing := [3] }).frec.erasing = 3 :: [] := by decide

/-! ## Engine port, synchronisation, Escrow and hints -/

/-- Core 0 has engine 0, objects 0 to 63 are flags, 64 to 127 counts, of context 0. -/
def eng : State := { one with cfg := { one.cfg with syn := { one.cfg.syn with engines := [(0, 1)] } } }
/-- Object 64 is a count with this value, in group 2 with object 65. -/
def cnt (v arrived : Nat) : State :=
  (eng.updObj 64 fun x => { x with count := true, value := v }).onSyn fun y =>
    { y with grp := [(2, { valid := true, p := 2, members := [64, 65], arrived := arrived })] }
theorem test_wit_FlagOperations :
    let hi := eng.updObj 5 fun x => { x with level := true }
    Accepts 0 0 eng ∧ MayUse 0 5 false eng ∧ WaitersOk eng ∧ (eng.getObj 5).level = false ∧
      Accepts 0 0 hi ∧ MayUse 0 5 false hi ∧ WaitersOk hi ∧ (hi.getObj 5).level = true := by
  unfold Accepts MayUse WaitersOk; decide
theorem test_wit_CountsAndBarriers :
    Accepts 0 0 (cnt 7 0) ∧ MayUse 0 64 true (cnt 7 0) ∧ WaitersOk (cnt 7 0) ∧ (7 : Nat) ≤ ((cnt 7 0).getObj 64).value ∧
      ((cnt 7 0).getObj 64).value < 8 ∧ (cnt 7 0).groupOf 64 = some 2 ∧
      ((cnt 7 0).getGrp 2).arrived + 1 < ((cnt 7 0).getGrp 2).p ∧ ((cnt 7 1).getGrp 2).p ≤ ((cnt 7 1).getGrp 2).arrived + 1 := by
  unfold Accepts MayUse WaitersOk; decide
theorem test_wit_RequestsRefused :
    let p := eng.updObj 5 fun x => { x with poison := true }
    (eng.live = true ∧ eng.engineOk 1 = false ∧ eng.queueBusy 0 1 0 = false ∧ (eng.getEp 0).resp.length < 64) ∧
      (eng.engineOk 0 = true ∧ epFieldsOk { req with op := 1 } = true ∧ epFieldsOk { req with op := 9, obj := 256 } = false ∧
        epFieldsOk { req with op := 9, obj := 255 } = true) ∧ (eng.getEp 0).withheld = [] ∧
      (Accepts 0 0 eng ∧ eng.mapHas 7 0 = false) ∧ (Accepts 0 0 p ∧ p.mapHas 0 0 = true ∧ (p.getObj 5).poison = true) := by
  unfold Accepts; decide
def wait0 (wd : Bool) : Waiter := { obj := 5, op := 3, arg := 0, ctx := 0, mode := wd, tmo := 0, start := 0, ord := 0 }
theorem test_wit_WaitsFail :
    let a := eng.onSyn fun y => { y with wtr := [(0, some (wait0 false))] }
    let b := eng.updCore 0 fun x => { x with wd := some 0 }
    (a.live = true ∧ WaitersOk a ∧ a.waiter 0 = some (wait0 false) ∧ (wait0 false).mode = false ∧
      0 + a.syn.tmo.getD 0 0 * 1000 ≤ (at_ 10000000 a).now ∧ (at_ 9999999 a).now < 0 + a.syn.tmo.getD 0 0 * 1000) ∧
      ((b.getCore 0).wd = some 0 ∧ 0 + (b.getCore 0).wdMs * 1000000 ≤ (at_ 100000000 b).now ∧
        (at_ 99999999 b).now < 0 + (b.getCore 0).wdMs * 1000000) := by unfold WaitersOk; decide
theorem test_wit_EscrowLends :
    let f := { eng with hif := { eng.hif with featEn := 4 } }
    let a := (f.updClu 0 fun c => { c with st := 1 }).updCore 0 fun x => { x with waitSince := some 0 }
    (a.live = true ∧ (at_ 3000 a).mayLend 0 = true ∧ (at_ 2999 a).mayLend 0 = false) ∧ Emulates f ∧ f.feat 2 = true ∧
      (bits 0x00640000 2 4 = 0 ∧ bits 0x0000003C 16 16 = 0 ∧ bits 0x00010004 2 4 ≠ 0 ∧ bits 0x00010004 16 16 ≠ 0) ∧
      bits 3 0 8 < 4 ∧ 4 ≤ bits 4 0 8 := by unfold Emulates; decide
/-- Hints are enabled; class 1 is in use. -/
def hints : State :=
  { eng with hif := { eng.hif with featEn := 2 }, fc := { eng.fc with hc := [(1, { en := true, dur := 10 })] } }
def ent : HintEnt := { ctx := 0, epoch := 0, cls := 1, inten := 10, early := false, tacc := 0, th := 100, te := 10100, ev := 8000 }
theorem test_wit_HintsQueued :
    (Accepts 0 0 hints ∧ hints.fwUp = true ∧ hints.feat 1 = true ∧ (hints.getHc 1).en = true ∧ hints.hintMay 0 1 = true ∧
      hints.distrusted 0 = false ∧ hints.hintMay 3 1 = false) ∧ (∀ e < 32, hints.hint 0 e = none) ∧
      (({ hints with fw := {} } : State).fwUp = false) ∧ eng.feat 1 = false ∧ (hints.getHc 2).en = false ∧
      ((hints.updHx 0 fun x => { x with until_ := some 9 }).distrusted 0 = true) := by unfold Accepts; decide
theorem test_wit_HintsQueuedAny : ∀ e x, hints.hint 0 e = some x → hints.now < x.te ∧ hints.now < x.evalAt := by
  intro e x h; exact absurd h (by show Tbl.get none [] _ ≠ some x; simp [Tbl.get])
theorem test_wit_HintsEvaluated :
    let a := { hints with fc := { hints.fc with q := [(0, some { ent with n := 1 }), (1, some { ent with judged := true })], hcSel := 1, hxSel := 3 } }
    (a.live = true ∧ a.hint 0 0 = some { ent with n := 1 } ∧ ent.te ≤ (at_ 10100 a).now ∧ (at_ 10099 a).now < ent.te ∧
      a.hint 0 1 = some { ent with judged := true } ∧ ent.evalAt ≤ (at_ 8100 a).now ∧ ent.epoch = (a.getTx ent.ctx).epoch) ∧
      ((a.updHx 3 fun x => { x with until_ := some 9 }).getHx 3).until_ = some 9 ∧
      (Emulates a ∧ hcOk 1 0x100 a = true ∧ hcOk 1 0x7F a = false ∧ hcOk 1 0 a = false ∧ a.fc.hxSel ≠ 0 ∧ hints.fc.hxSel = 0) := by
  unfold Emulates; decide

/-! ## Clearing -/

/-- Clearing runs, and link 3 to peer 9 is in this state. -/
def clr (l : Link) : State :=
  { one with now := 50000, hif := { one.hif with featEn := 8 }, tb := { one.tb with hold := false },
             clr := { one.clr with en := true, inc := 1, id := 4, lnk := [(3, { l with en := true, peer := 9, addr := 4096 })] } }
def pres : Link := { st := 2, ver := 1, inc := 5 }
def msg : ClrMsg := { ver := 1, seq := 1, inc := 5, src := 9, dst := 4, peerInc := 1 }
def words (typ : Nat) (m : ClrMsg) : List Word := (clrWords typ m).map (BitVec.ofNat 32)
theorem test_wit_Receives :
    Receives 3 1 { msg with peerInc := 0 } (clr pres) ∧ Receives 3 1 { msg with flags := 8, peerInc := 0 } (clr pres) ∧
      Receives 3 2 { msg with inc := 6 } (clr { pres with st := 1 }) ∧ Receives 3 2 { msg with flags := 4, cause := 1 } (clr pres) ∧
      Receives 3 3 msg (clr pres) ∧ Receives 3 4 msg (clr pres) ∧ Receives 3 6 msg (clr pres) ∧ Receives 3 7 msg (clr pres) := by
  unfold Receives; decide
theorem test_wit_MessagesRead :
    let x := clr { pres with reread := some (49750, 3) }
    ((clr pres).live = true ∧ (clr pres).clrUp = true ∧ ((clr pres).getLnk 3).en = true ∧ ((clr pres).getLnk 3).reread = none ∧
      ((clr pres).getLnk 4).en = false) ∧
      clrNew 3 3 msg (clr pres) = true ∧ clrNew 3 3 { msg with seq := 0 } (clr pres) = false ∧
      ((x.getLnk 3).reread = some (49750, 3) ∧ 49750 + 250 ≤ x.now ∧ (at_ 49999 x).now < 49750 + 250) ∧
      clrCheck 3 3 { msg with domain := 1 } (clr pres) ≠ 0 := by decide
/-- The check value of CRC-32 over the digits 1 to 9. -/
theorem test_crc32 : crc32 [0x31, 0x32, 0x33, 0x34, 0x35, 0x36, 0x37, 0x38, 0x39] = 0xCBF43926 := by decide +kernel
set_option maxRecDepth 100000 in
theorem test_wit_MessageCrc : clrParse ((words 3 msg).map BitVec.toNat) = some (3, msg) ∧
    (clrRead ((words 3 msg).map BitVec.toNat)).2 = true ∧ (clrRead (((words 3 msg).map BitVec.toNat).set 23 0)).2 = false := by
  decide +kernel
theorem test_wit_PeersJoin :
    ({ msg with peerInc := 0 } : ClrMsg).flags.testBit 3 = false ∧ bitOf msg.flags 3 = decide ((3 : Fin 65).val = 0) ∧
      bitOf 8 3 ≠ decide ((3 : Fin 65).val = 0) ∧ ((clr pres).getLnk 3).en = true ∧ bitOf 4 2 = true ∧ bitOf msg.flags 2 = false ∧
      ((clr { pres with st := 1 }).getLnk 3).st = 1 ∧ QRoom 0x20 (clr pres) := by unfold QRoom; decide
/-- A lease of 64 for 250 µs that left the peer `age` ns ago, on a link whose offset is 0. -/
def lease (age : Nat) : ClrMsg := { msg with ts := 50000 - age, amount := 64, leaseId := 11, expiryUs := 250 }
def known : Link := { pres with theta := some 0, thetaAt := 50000 }
theorem test_wit_LeasesBorrowed :
    let u := clrAccept 3 5 (lease 0) (clr known)
    Receives 3 5 (lease 0) (clr known) ∧ Receives 3 5 (lease 4001) (clr known) ∧ bitOf (lease 0).flags 4 = false ∧
      bitOf (lease 0).flags 0 = false ∧ ((clr known).getLnk 3).bor.any (fun b => b.id = 11) = false ∧
      ((clr known).tb.hold = false ∧ ((clr known).getLnk 3).st = 2 ∧ u.thetaOk (u.getLnk 3) = true ∧ (clr known).linkAud 3 = false ∧
        ((clr known).getLnk 3).bor.length < 8 ∧ u.borN < 520) ∧ ((clr known).now : Int) - (lease 4000).ts - 0 ≤ 4000 ∧
      4000 < ((clr known).now : Int) - (lease 4001).ts - 0 ∧
      ((clr { known with bor := [{ id := 11, amt := 64, exp := 300000 }] }).getLnk 3).bor.any (fun b => b.id = 11) = true ∧
      (let v := clrAccept 3 5 (lease 0) (clr pres); v.thetaOk (v.getLnk 3) = false) := by unfold Receives; decide
theorem test_wit_LeasesEnd :
    let e : Lent := { id := 11, amt := 64, sent := 0, durUs := 40, hold := true, unver := true }
    let a := clr { known with lent := [e] }
    let b : Bor := { id := 11, amt := 64, exp := 50000, ret := some (20000, 3) }
    let r := clr { known with bor := [b] }
    (a.live = true ∧ a.getLnk 3 = { known with en := true, peer := 9, addr := 4096, lent := [e] } ∧ e ∈ (a.getLnk 3).lent ∧
      e.sent + e.durUs * (1000 + (if e.hold then 20 else 0) + (if e.unver then 40 else 0)) ≤ a.now ∧
      (at_ 42399 a).now < e.sent + e.durUs * (1000 + (if e.hold then 20 else 0) + (if e.unver then 40 else 0))) ∧
      ((r.getLnk 3).bor = [b] ∧ b.exp ≤ r.now ∧ (at_ 49999 r).now < b.exp ∧ b.ret = some (20000, 3) ∧ r.fwUp = true ∧
        20000 + r.trs.lguard * 1000 ≤ r.now ∧ (at_ 49999 r).now < 20000 + r.trs.lguard * 1000 ∧
        (at_ 49999 r).fallen 20000 = false) ∧ ((clr known).getLnk 3).bor = [] := by decide
theorem test_wit_RoundsRun :
    let a := clr { pres with st := 1, joinRounds := 2 }
    a.live = true ∧ (at_ 9999 a).now < a.clr.roundAt + 10000 ∧ a.clr.roundAt + 10000 ≤ (at_ 10000 a).now ∧ a.clrUp = true ∧
      ({ a with fw := {} } : State).clrUp = false ∧ a.aud.test = none ∧ 3 ∈ a.links ∧ ((a.getLnk 3).st = 1 ∧ 2 ≤ (a.getLnk 3).joinRounds) ∧
      (∀ x ∈ [{ pres with rxRound := true }, { pres with missed := 2 }, { pres with badRound := true, missed := 1 }],
        ((clr x).getLnk 3).up = true) ∧ ((clr { pres with st := 5 }).getLnk 3).up = false ∧ bitOf msg.flags 0 = false ∧
      bitOf msg.flags 1 = false ∧ msg.amount = 0 := by decide
theorem test_wit_LinksConfigured :
    let late := clr { pres with sent := [{ seq := 1, at_ := 46000 }] }
    let ab := clr { pres with st := 4, retry := some 50000 }
    (late.live = true ∧ 0 < ((late.getLnk 3).sent.filter fun e => !e.judged && decide (e.at_ + 4000 ≤ late.now)).length ∧
      ((late.getLnk 3).sent.filter fun e => !e.judged && decide (e.at_ + 4000 ≤ 49999)).length = 0) ∧
      ((ab.getLnk 3).st = 4 ∧ (ab.getLnk 3).retry = some 50000 ∧ 50000 ≤ ab.now ∧ (at_ 49999 ab).now < 50000) ∧
      (Emulates ab ∧ bits 0x200 1 2 = 0 ∧ 20 < bits 0x1502 8 5 ∧ bits 0x1403 1 2 ≠ 0 ∧ bits 0x1403 8 5 ≤ 20 ∧
        bits 0x1403 8 5 ≠ ab.clr.keep ∧ bits 0x203 8 5 = ab.clr.keep ∧ ab.clr.en = true ∧ ab.feat 3 = true ∧ ab.clr.lnkSel < 65) := by
  unfold Emulates; decide

/-! ## Host interface -/

/-- The same block with every feature enabled, and a descriptor that waits on the ring of context `c`. -/
def ring (c : Nat) (s : State) : State :=
  { s with hif := { s.hif with featEn := 0x3FF, ctx := [(c, { st := 1, sqTail := 1, sqLog := 6, cqLog := 6, winLog := 20 })] } }
def h3 : DescHdr := { hd with ctx := 3 }
/-- The commands that perform a descriptor of context 0 or 3 and pass every check. -/
theorem test_wit_Runs : Runs hd descNop (ring 0 one) ∧ Runs h3 descIdentify (ring 3 one) ∧ Runs hd descCtxOpen (ring 0 one) ∧
    Runs hd descCtxClose (ring 0 one) ∧ Runs hd (descCtxTelem 3 64) (ring 0 one) ∧ Runs hd descCtxParam (ring 0 one) ∧
    Runs hd descCtxPlace (ring 0 one) ∧ Runs h3 (descFloorSet 3) (ring 3 one) ∧ Runs hd descWarmReset (ring 0 one) ∧
    Runs hd descControlStart (ring 0 one) ∧ Runs hd descRailCtrl (ring 0 one) ∧ Runs hd descAmBaseline (ring 0 one) := by
  refine ⟨?_, ?_, ?_, ?_, ?_, ?_, ?_, ?_, ?_, ?_, ?_, ?_⟩ <;> unfold Runs NoClose <;> decide
theorem test_wit_RunsLoad : Runs hd (descTlyInstall buf) (ring 0 one) ∧ Runs hd descTlyRemove (ring 0 one) ∧
    Runs hd (descTlySetReg 16 1024) (ring 0 one) ∧ Runs hd descTlySetRemove (ring 0 one) ∧ Runs hd (descSlotTable 16 1) (ring 0 one) ∧
    Runs hd descLoopCoef (ring 0 one) := by
  unfold Runs NoClose; decide
theorem test_wit_RunsSyn : Runs hd (descVftLoad 16) (ring 0 one) ∧
    Runs hd descHintClass (ring 0 one) ∧ Runs hd descSynAct (ring 0 one) ∧ Runs hd descSynMap (ring 0 one) ∧ Runs h3 descSynRead (ring 3 one) ∧
    Runs hd descClrConfig (ring 0 one) ∧ Runs hd (descClrLink { cl with addr := 1024 }) (ring 0 one) := by
  unfold Runs NoClose; decide
theorem test_wit_RunsDma : Runs hd descDmaXfer (ring 0 one) ∧ Runs hd descDmaStream (ring 0 one) ∧ Runs hd descLdgDrain (ring 0 one) ∧
    Runs hd descLdgRearm (ring 0 one) ∧ Runs hd descFrecCopy (ring 0 one) ∧ Runs hd descFwQuery (ring 0 one) ∧
    Runs hd (descFwStage buf) (ring 0 one) := by
  unfold Runs NoClose; decide
theorem test_wit_RunsFw : Runs hd (descActivate 1) (ring 0 one) ∧ Runs hd descFwConfirm (ring 0 one) ∧
    Runs hd (descConfigStage buf) (ring 0 one) ∧ Runs hd (descSpdm sp) (ring 0 one) ∧ Runs hd (descFuse buf) (ring 0 one) ∧
    Runs hd descFuseSvn (ring 0 one) ∧ Runs hd (descToken 16 16) (ring 0 one) ∧ Runs hd descZeroise (ring 0 one) ∧
    Runs hd descLive (ring 0 one) ∧ Runs hd descAudTest (ring 0 one) ∧ Runs hd descAudRemove (ring 0 one) ∧
    Runs hd descAudReturn (ring 0 one) := by
  refine ⟨?_, ?_, ?_, ?_, ?_, ?_, ?_, ?_, ?_, ?_, ?_, ?_⟩ <;> unfold Runs NoClose <;> decide
theorem test_wit_DescriptorsChecked :
    let mis := { ring 0 one with hif := { (ring 0 one).hif with mismatch := true } }
    let off := { ring 0 one with hif := { (ring 0 one).hif with featEn := 0 } }
    descRow (.nop hd) = some (hd, descNop) ∧ one.pwr.wantWarm = none ∧ (one.live = true ∧ descMay hd.ctx.val one = false) ∧
      (mis.live = true ∧ descMay 0 mis = true ∧ mis.hif.mismatch = true ∧ descControlStart.basic = false) ∧
      (descMay h3.ctx.val (ring 3 one) = true ∧ h3.ctx.val ≠ 0 ∧ descControlStart.tenant = false) ∧
      (off.feat 0 = false ∧ descMay 0 off = true ∧ descCtxOpen.feature = some 0) ∧
      ({ hd with reservedZero := false } : DescHdr).reservedZero = false ∧
      (descNop.feature = none ∧ (descFloorSet 4).ctxField = some 4 ∧ (4 : Nat) ≠ h3.ctx.val) ∧
      (∃ a ∈ (descVftLoad 8).addrs, a.1 % a.2.2 ≠ 0) := by decide
theorem test_wit_CompletionsWritten :
    let f := fun (irq : Option Nat) => (ring 0 one).updCtx 0 fun x => { x with irqEn := true, irqLast := irq }
    ({ hd with notify := true } : DescHdr).notify = true ∧ ((f none).getCtx 0).irqEn = true ∧
      ((f (some 0)).getCtx 0).irqLast = some 0 ∧ (at_ 1999 (f (some 0))).now < 0 + (f (some 0)).hif.irqGap * 250 ∧
      0 + (f (some 0)).hif.irqGap * 250 ≤ (at_ 2000 (f (some 0))).now := by decide
theorem test_wit_HostRings :
    let a := ring 3 one
    let g := fun (r : Nat) => { one with hif := { one.hif with c0Ring := r } }
    a.live = true ∧ (one.getCtx 3).st ≠ 1 ∧ (a.getCtx 3).st = 1 ∧
      ((a.getCtx 3).dbOk (bits 64 0 16) (bits 64 16 16) = true ∧ (a.getCtx 3).dbOk (bits 65 0 16) (bits 65 16 16) = false) ∧
      (a.getCtx 3).irqWait = false ∧
      (let w := a.updCtx 3 fun x => { x with irqWait := true, irqEn := true }; (w.getCtx 3).irqWait = true ∧ (w.getCtx 3).irqLast = none) ∧
      one.clerkUp = true ∧ one.hif.mismatch = false ∧ bitOf one.hif.c0Ring 8 = false ∧
      (bitOf (g 0x10166).hif.c0Ring 8 = true ∧ (g 0x10166).hif.negDone = false) ∧
      (bitOf 0x10166 8 = true ∧ c0RingOk 0x10166 = true ∧ c0RingOk 0x10165 = false ∧ c0RingOk 0x101CC = true ∧
        c0RingOk 0x101CD = false ∧ c0RingOk 0x00166 = false) ∧ bitOf 0x10066 8 = false ∧ ((g 0x10166).getCtx 0).busy = false ∧
      (((g 0x10166).updCtx 0 fun x => { x with busy := true }).getCtx 0).busy = true := by decide
/-- The words of a descriptor with this opcode, its other bytes 0. -/
def dw (op : Nat) : List Word := BitVec.ofNat 32 op :: List.replicate 15 0
theorem test_wit_Fetches :
    let a := ring 0 one
    let r := a.updCtx 0 fun x => { x with fetchFail := some 0 }
    (a.live = true ∧ a.pwr.wantWarm = none ∧ descMay 0 a = true ∧ descMay 0 one = false ∧ a.hm.inReset = false ∧
      (a.onHm fun m => { m with inReset := true }).hm.inReset = true) ∧
      (fld (descBytes (dw 1)) 0 2 = 1 ∧ fld (descBytes (dw 0x14)) 0 2 = 0x14 ∧ fld (descBytes (dw 0x83)) 0 2 = 0x83 ∧
        planOf (hdrOf 0 (descBytes (dw 0xFFF))) (descBytes (dw 0xFFF)) {} = none ∧ a.fw.recovery = false) ∧
      (a.getCtx 0).fetchFail = none ∧ (r.getCtx 0).fetchFail = some 0 ∧ (at_ 9999 r).now < 0 + 10000 ∧
      0 + 10000 ≤ (at_ 10000 r).now ∧ descMay 0 ((at_ 10000 r).updCtx 0 fun z => { z with fetchFail := none }) = true ∧
      NoClose 0 a := by unfold NoClose; decide
def co1 : CtxOpenOp := { co with ctx := 3, sqLog := 6, cqLog := 6, schedW := 1, sqBase := 0, cqBase := 4096, winLog := 13 }
theorem test_wit_ContextsOpen :
    let opened := (ring 0 one).updCtx 3 fun x => { x with st := 1 }
    let busy := opened.updCtx 3 fun x => { x with busy := true }
    (ctxOpenAddr co1 = true ∧ ctxOpenRange co1 = true ∧ ctxOpenRange { co1 with ctx := 512 } = false ∧
      ctxOpenRange { co1 with ctx := 511 } = true ∧ ctxOpenAddr { co1 with irqAddr := 2 } = false) ∧
      (((ring 0 one).getCtx 3).st = 0 ∧ (opened.getCtx 3).st ≠ 0 ∧ (opened.getCtx 3).busy = false ∧ (busy.getCtx 3).busy = true) ∧
      Runs hd descCtxClose busy ∧ Runs hd descCtxOpen opened := by unfold Runs NoClose; decide
/-- Context 0's ring ready, tenant 3 with a grant of 20, cores 0 and 1 configured. -/
def ten : State := (ring 0 one).updTx 3 fun x => { x with grant := 20 }
theorem test_wit_TenantsParameterised :
    let p := fun (g : Nat) (u : State) => u.updTx 3 fun y => { y with weight := 1, cls := 0, grant := g, floor := min y.floor g }
    let q := fun (m : Nat) => State.updTx 3 fun y => { y with cores := m, place := none }
    let taken := ten.updTx 4 fun x => { x with cores := 1 }
    let rsv := (ten.updTx 3 fun x => { x with cls := 0, floor := 20, cores := 1 }).updClu 0 fun c =>
      { c with vft := (List.range 256).map fun l => (l, { pest := 1 }) }
    Runs hd descCtxParam ten ∧ (ten.getTx 3).grant = 20 ∧ (ten.getTx 3).cls = 1 ∧ admits (p 20) (descBegin 0 ten) = true ∧
      (ten.coreAbsent 4 = true ∧ ten.coreAbsent 3 = false ∧ taken.coreTaken 3 1 = true ∧ ten.coreTaken 3 1 = false) ∧
      (admits (p 20) (descBegin 0 rsv) = false ∧ admits (q 1) (descBegin 0 rsv) = false) ∧
      (admits (q 1) (descBegin 0 ten) = true ∧ ten.maskClus 1 ≠ ten.maskClus (ten.getTx 3).cores ∧
        rsv.maskClus 3 = rsv.maskClus (rsv.getTx 3).cores) := by unfold Runs NoClose; decide
theorem test_wit_ControlStarts :
    let s := ring 0 one
    let r := ring 0 (onRail one)
    let den := s.onAud fun a => { a with tripActive := true }
    s.pwr.wantWarm = none ∧ (∃ c ∈ maskIdx 32 2, (s.cluCfg c).present = false) ∧ (∀ c ∈ maskIdx 32 1, (s.cluCfg c).present = true) ∧
      (railsNamed s 0 = false ∧ railsNamed s 2 = false ∧ railsNamed s 1 = true) ∧
      (∀ k ∈ maskIdx 8 1, startDenied s 1 k = false) ∧ (∃ k ∈ maskIdx 8 1, startDenied den 1 k = true) ∧
      (∀ k < 8, (s.getProt k).running = false) ∧
      (∃ k ∈ maskIdx 8 1, (r.getProt k).running = true ∧ r.inStop k = false) ∧
      (∃ k ∈ maskIdx 160 2, (s.monCfg k).present = false) ∧ (∀ k ∈ maskIdx 160 1, (s.monCfg k).present = true) := by decide

/-! ## Programs, sets, tables, loops and classes by descriptor -/

/-- Little-endian bytes. -/
def le (n v : Nat) : List Nat := (List.range n).map fun i => v / 256 ^ i % 256
/-- A program image of two instructions: a copy of block 0 into block 8, and the end. The signature is 96 zeros. -/
def img : List Nat :=
  le 4 0x50594C54 ++ [4, 0, 0, 0] ++ le 4 7 ++ le 4 1 ++ le 2 2 ++ le 2 1 ++ le 2 1 ++ [0, 0, 0, 0] ++ le 2 0 ++ le 2 8 ++ le 2 1 ++
    le 2 16 ++ le 2 0 ++ le 4 192 ++ List.replicate 24 0 ++ le 16 (4 + 8 * 2 ^ 64) ++ le 16 0 ++ List.replicate 96 0
/-- Context 0's ring ready; Tally's blocks 0–3 are INPUT, 8–11 OUTPUT, 16–19 scratch, and 4 sets may be resident. -/
def tal : State :=
  let s := ring 0 one
  { s with cfg := { s.cfg with tly := { inBase := 0, inN := 4, outBase := 8, outN := 4, scrBase := 16, scrN := 4, framePages := 4 } } }
def tx (b : List Nat) : Ext := { data := some (b.map (BitVec.ofNat 8)) }
/-- An image whose signature the free function accepts (log entry 5) passes every check of Table 8.5. -/
theorem test_wit_ImagePasses (h : Config.sigValid 0 (img.take 96) (sub img 96 96) = true) : imgCheck img tal = 0 := by
  have e : (img.take ((tlyImg img).len - 96)) = img.take 96 := by decide +kernel
  have e2 : sub img ((tlyImg img).len - 96) 96 = sub img 96 96 := by decide +kernel
  have k : tal.intKey = 0 := rfl
  have w : (!imgWhole img (tlyImg img)) = false ∧ (decide (96 ≤ (tlyImg img).len) && decide ((tlyImg img).len ≤ img.length)) = true := by
    decide +kernel
  unfold imgCheck signedBy; dsimp only
  rw [e, e2, k, h]
  simp only [w.1, w.2, Bool.and_true]
  decide +kernel
theorem test_wit_ProgramsInstalled :
    let p := tal.updProg 0 fun x => { x with installed := true, id := 7 }
    let a := { (p.updProg 0 fun x => { x with cls := 0 }) with loop := { p.loop with loop := [(0, { auto := true, limProg := 0 })] } }
    let t := p.onFrm fun f => { f with table := some [{ sl0 with exec := 0, work := 0 }] }
    (tal.vaultRes = 0 ∧ (tal.onFw fun f => { f with vault := { f.vault with error := true } }).vaultRes ≠ 0) ∧
      (Ext.read (tx img) 192 = some img ∧ Ext.read {} 192 = none) ∧
      (tal.replacedBy 7 = none ∧ p.replacedBy 7 = some 0 ∧ p.loopsAuto 0 = false ∧ a.replacedBy 7 = some 0 ∧ a.loopsAuto 0 = true) ∧
      imgCheck [] tal ≠ 0 ∧ ((tal.getProg 0).installed = false ∧ (tal.getProg 0).failed = false) ∧
      ((p.getProg 0).installed = true ∧ scheduled t.slots 0 = true ∧ scheduled p.slots 0 = false ∧
        scheduled (p.frm.nextTable.getD []) 0 = false) := by decide +kernel
/-- The header of a model set with `n` pages. -/
def setHdr (n : Nat) : List Nat := le 4 0x534D4C54 ++ [4, 0] ++ le 2 n ++ le 4 3 ++ le 4 1 ++ le 4 2 ++ List.replicate 44 0 ++ List.replicate (48 * n + 96) 0
theorem test_wit_SetsRegistered :
    (∀ n ∈ [0, 1, 4, 5], let d := setHdr n; Ext.read (tx d) (160 + 48 * 65535) = some d ∧ fld d 0 4 = 0x534D4C54 ∧ fld d 4 1 = 4 ∧
      zeros d 5 1 = true ∧ zeros d 20 44 = true ∧ fld d 6 2 = n) ∧ tal.cfg.tly.framePages = 4 ∧ tal.sets.length < 64 ∧
      ((tal.getSet 2).registered = false) ∧ (let r := tal.updSet 2 fun x => { x with registered := true }
        (r.getSet 2).registered = true ∧ r.setRefs 2 = 0) ∧
      (let r := { (tal.updSet 2 fun x => { x with registered := true }) with
                  cfg := { tal.cfg with fc := [(0, { present := true })] }, fc := { tal.fc with cl := [(0, { bound := some 2 })] } }
       (r.getSet 2).registered = true ∧ 0 < r.setRefs 2) := by decide +kernel
/-- The bytes of a slot table with one LIMIT slot of firmware. -/
def tabB (cls : Nat) : List Nat := [1 + 16 * cls, 0] ++ le 2 0 ++ le 2 0 ++ le 2 500 ++ [1] ++ List.replicate 7 0 ++ List.replicate 96 0
theorem test_wit_SlotTable :
    (∀ c ∈ [0, 7], Ext.read (tx (tabB c)) (16 * 1 + 96) = some (tabB c) ∧ (slotOf (tabB c) 0).2 = true) ∧
      (entriesOk false tal [(slotOf (tabB 0) 0).1] = true ∧ admitTable tal [(slotOf (tabB 0) 0).1] = true ∧
        entriesOk false tal [(slotOf (tabB 7) 0).1] = false) ∧ (slotOf ((tabB 0).set 9 1) 0).2 = false := by decide +kernel
/-- A free function that accepts a signature makes `signedBy` true, and one that does not makes it false. -/
theorem test_wit_Signed (b : Bool) (h : Config.sigValid 0 ((tabB 0).take 16) (sub (tabB 0) 16 96) = b) :
    signedBy tal.intKey (tabB 0) (16 * 1 + 96) = b := by
  have k : tal.intKey = 0 := rfl
  unfold signedBy; rw [k]
  have w : (decide (96 ≤ 16 * 1 + 96) && decide (16 * 1 + 96 ≤ (tabB 0).length)) = true := by decide +kernel
  rw [show 16 * 1 + 96 - 96 = 16 from rfl, h, w]; rfl
def lcv (valid j v : Nat) : LoopCoefOp := { cluster := 0, loop := j, valid := valid, vals := List.replicate 13 v }
theorem test_wit_LoopCoef :
    let au := tal.updLp 0 2 fun l => { l with auto := true }
    (lcv 0x7FF 2 1).valid < 8192 ∧ (tal.cluCfg 1).present = false ∧ (tal.cluCfg 0).present = true ∧ (tal.loopCfg 0 2).present = true ∧
      coefOk tal (lcv 0x7FF 2 1) = true ∧ coefOk tal (lcv 0x7FF 2 0) = false ∧
      ((∃ i ∈ coefSel (lcv 0x7FF 2 1), i ≠ 9 ∧ i ≠ 10) ∧ (au.getLp 0 2).auto = true) ∧
      (9 ∈ coefSel (lcv 0x200 2 1) ∧ au.inManual 0 = false) ∧ ((tal.getLp 0 2).auto = false ∧ tal.inManual 0 = true) := by
  decide +kernel
/-- 256 rows whose eight bytes are all `x`. -/
theorem test_vftRows (n x : Nat) (hn : n = 2048) : (List.range 256).map (vftRowOf (List.replicate n x)) =
    List.replicate 256 { v := x + x * 256, div := x, ceil := x, iest := x + x * 256, pest := x + x * 256 } := by
  refine List.eq_replicate_iff.2 ⟨by rw [List.length_map, List.length_range], fun r h => ?_⟩
  obtain ⟨l, hl, rfl⟩ := List.mem_map.1 h
  have hl : l < 256 := List.mem_range.1 hl
  have f1 : ∀ o, o < 2048 → fld (List.replicate n x) o 1 = x := fun o h => by
    simp [fld, sub, leNat, show min 1 (n - o) = 1 by omega]
  have f2 : ∀ o, o < 2047 → fld (List.replicate n x) o 2 = x + x * 256 := fun o h => by
    simp [fld, sub, leNat, show min 2 (n - o) = 2 by omega, List.replicate_succ, Nat.mul_comm]
  simp only [vftRowOf]
  rw [f2 _ (by omega), f1 _ (by omega), f1 _ (by omega), f2 _ (by omega), f2 _ (by omega)]
theorem test_vftRead (n : Nat) (x : BitVec 8) : Ext.read { data := some (List.replicate n x) } n = some (List.replicate n x.toNat) := by
  simp [Ext.read, Ext.bytes]
theorem test_wit_VftLoad :
    let s := { tal with cfg := { tal.cfg with rail := [(0, { one.railCfg 0 with vmin := 257 })] } }
    vftOk s 0 ((List.range 256).map (vftRowOf (List.replicate 2048 1))) = true ∧
      vftOk s 0 ((List.range 256).map (vftRowOf (List.replicate 2048 64))) = false ∧ s.inManual 0 = true := by
  refine ⟨?_, ?_, by decide⟩
  · rw [test_vftRows 2048 1 rfl]; decide +kernel
  · rw [test_vftRows 2048 64 rfl]; decide +kernel
theorem test_wit_HintClass : hcOk 1 0x100 tal = true ∧ hcOk 0 0x100 tal = false ∧ hcOk 255 0x0A00FF80 tal = true ∧
    hcOk 255 0x0A0000C0 tal = false := by decide

/-! ## Synchronisation and Clearing by descriptor -/

/-- A wait of core 0 on object 5. -/
def syn : State := (ring 0 eng).onSyn fun y => { y with wtr := [(0, some (wait0 false))], own := [(0, 3)] }
theorem test_wit_ActsByHand :
    let c := (ring 0 eng).updObj 5 fun x => { x with count := true }
    WaitersOk syn ∧ Runs hd descSynAct syn ∧ (syn.getObj 5).count = false ∧ (c.getObj 5).count = true ∧
      (syn.waiter 0 = some (wait0 false) ∧ syn.waiter 1 = none ∧ (wait0 false).op ≠ 8 ∧ (wait0 false).obj / 64 = 0) := by
  unfold WaitersOk Runs NoClose; decide
theorem test_wit_WindowsAndGroups :
    let g := (((ring 0 eng).updObj 64 fun x => { x with count := true }).updObj 65 fun x => { x with count := true }).onSyn fun y =>
      { y with grp := [(2, { valid := true, p := 2, members := [64], arrived := 1 })], wtr := [(0, some { wait0 false with obj := 64, op := 8 })] }
    let n := ((ring 0 eng).updObj 64 fun x => { x with count := true }).updObj 65 fun x => { x with count := true }
    (syn.winWaits 0 ≠ [] ∧ syn.winWaits 1 = [] ∧ 64 ∈ winObjs 1 ∧ (g.groupOf 64).isSome = true) ∧ syn.groupOf 64 = none ∧
      ((g.getGrp 2).valid = true ∧ g.grpWaits 2 = true ∧ (n.getGrp 2).valid = false) ∧
      ([64, 65].Nodup ∧ ¬ [64, 64].Nodup ∧ (∀ m ∈ [64, 65], m < 8192 ∧ (n.getObj m).count = true ∧ n.groupOf m = none) ∧
        (n.getObj 66).count = false) ∧ (∀ k < 4096, syn.groupOf k = none) := by
  refine ⟨by decide, by decide, by decide, by decide, fun k _ => rfl⟩
theorem test_wit_SynMap :
    let o : SynMapOp := { ctx := 4, force := false, add := 2, remove := 1, moves := [] }
    let mv : SynMapOp := { ctx := 4, force := true, add := 0, remove := 0, moves := [(0, 5)] }
    WaitersOk syn ∧ (0 < o.ctx ∧ o.ctx < 512 ∧ o.moves.length ≤ 8) ∧ (∀ m ∈ mv.moves, m.1 < 128 ∧ m.2 < 128) ∧
      (∃ w ∈ maskIdx 128 1, Tbl.get 0 syn.syn.own w ≠ 0 ∧ Tbl.get 0 syn.syn.own w ≠ 4) ∧
      (∀ w ∈ maskIdx 128 o.add, Tbl.get 0 syn.syn.own w = 0) ∧ (∀ m ∈ mv.moves, Tbl.get 0 syn.syn.own m.2 = 0) ∧
      (syn.waiter 0 = some (wait0 false) ∧ (wait0 false).obj / 64 ∈ (List.range 128).filter fun w => (maskIdx 128 o.remove).contains w) := by
  unfold WaitersOk; decide
theorem test_wit_SynRead :
    let t := { syn with hif := { (ring 3 one).hif with ctxSel := 0 } }
    Runs h3 descSynRead t ∧ t.mapHas h3.ctx (5 / 64) = true ∧ t.mapHas h3.ctx (64 / 64) = false ∧ h3.ctx.val ≠ 0 ∧
      (t.waiter 0 = some (wait0 false) ∧ (wait0 false).ctx ≠ h3.ctx.val) := by unfold Runs NoClose; decide
theorem test_wit_ClearingByDescriptor :
    let ok : ClrCfgOp := { cc with vmax := 3, keep := 20, leaseUs := 50, retryMs := 1, mbx := 4096, en := true }
    let bad := fun (o : ClrCfgOp) =>
      o.vmax = 0 ∨ 3 < o.vmax ∨ 20 < o.keep ∨ o.leaseUs < 50 ∨ 1000 < o.leaseUs ∨ o.retryMs = 0 ∨ o.mbx % 4096 ≠ 0
    ¬ bad ok ∧ bad { ok with keep := 21 } ∧ bad { ok with leaseUs := 49 } ∧ ¬ bad { ok with leaseUs := 1000 } ∧
      bad { ok with leaseUs := 1001 } ∧ (ring 0 one).clr.en = false ∧ (ring 0 (clr pres)).clr.en = true ∧
      ((ring 0 (clr pres)).getLnk 3).en = true ∧ ((ring 0 (clr pres)).getLnk 64).en = false := by decide

/-! ## DMA, Ledger and registers -/

/-- A telemetry sweep of 32 words on channel `ch`, and an armed stream of it. -/
def cap : XferOp := { xf with mode := 5, esize := 2, srcSpace := 2, count := 32 }
def str : XferOp := { xf with mode := 0, esize := 2, srcSpace := 1, count := 4, chan := 2, periodUs := 10, nbuf := 2, bstride := 32 }
def move : XferOp := { xf with esize := 2, count := 4 }
theorem test_wit_TransfersRun :
    let run := fun (k op : Nat) => (ring 0 one).onDma fun d =>
      { d with chan := [(k, { busy := true, xfer := some { op := move, hdr := some hd, opcode := op, num := 3 } })] }
    (xferCheck false ((ring 0 one).getChan 5).busy move none).1 = 0 ∧ (xferCheck false true move none).1 = 0xA005 ∧
      (xferCheck false false { move with mode := 1 } (some (le 4 0 ++ le 4 4 ++ le 4 8 ++ le 4 12))).1 = 0 ∧
      (¬ (320 ≤ fr.slot) ∧ ({ fr with nslot := 320 } : FrecCopyOp).nslot ≠ 0 ∧ fr.addr % 16 = 0 ∧ one.nvDown = false) ∧
      fr.nslot = 0 ∧ (one.getChan 5).xfer = none ∧
      (∀ e ∈ [(1, 0x80), (5, 0x84), (6, 0x82)], (((run e.1 e.2).getChan e.1).xfer.map fun y => (y.hdr, y.opcode)) = some (some hd, e.2)) ∧
      (run 1 0x80).live = true := by decide
theorem test_wit_TransfersNoClose : NoClose hd.ctx (ring 0 one) := by unfold NoClose; decide
theorem test_wit_StreamsRun :
    let armed := fun (b : Bool) => (ring 0 one).onDma fun d => { d with chan := [(2, { armed := true, busy := b, stream := some str })] }
    let f := fun (s : State) => s.onFrm fun r => { r with metered := true }
    let runs := (ring 0 one).onDma fun d => { d with chan := [(2, { armed := true, busy := true, stream := some str,
                                                                    xfer := some { op := str, opcode := 0x81, capture := true } })] }
    (xferCheck true false str none).1 = 0 ∧ (xferCheck true false { str with periodUs := 9 } none).1 ≠ 0 ∧ str.chan = 2 ∧
      ((one.getChan 2).armed = false ∧ ((armed true).getChan 2).armed = true ∧ ((armed true).getChan 2).busy = true ∧
        ((armed false).getChan 2).busy = false ∧ ((armed false).getChan 2).stopHdr = none) ∧ (one.getChan 2).stream = none ∧
      ((f (armed true)).getChan 2).stream = some str ∧ (armed true).frm.metered = false ∧
      ((f (armed false)).frm.inFrame = false ∧ (f (armed false)).frm.metered = true ∧
        ((armed false).getChan 2).armTime + ((armed false).getChan 2).n * str.periodUs * 1000 ≤ (f (armed false)).now ∧
        ((armed false).getChan 2).stopping = false) ∧
      ((runs.getChan 2).xfer = some { op := str, opcode := 0x81, capture := true } ∧ (runs.getChan 2).stopping = false) ∧
      (runs.dma.run = true ∧ runs.capFrozen = true ∧ one.capFrozen = false ∧ (one.onDma fun d => { d with run := false }).dma.run = false) := by
  decide
theorem test_wit_StreamsEmulate : Emulates (ring 0 one) := by unfold Emulates; decide
/-- One record of the Clerk waits; `w` records are stored. -/
def led (w r : Nat) : State :=
  (ring 0 one).onLdg fun l => { l with w := w, r := r, store := if w = 0 then [] else [(0, { code := 1 })], queues := [(0x21, [{ code := 2, source := 0x21 }])] }
theorem test_wit_LedgerStored :
    (∀ w ∈ [0, 16382, 16383, 16384], (led w 0).live = true ∧ ldgNext (led w 0) = some 0x21 ∧
      Tbl.get [] (led w 0).ldg.queues 0x21 = { code := 2, source := 0x21 } :: []) ∧ ldgNext one = none ∧
      (led 0 0).ldg.r = (led 0 0).ldg.w ∧ (led 1 0).ldg.r ≠ (led 1 0).ldg.w ∧ (led 1 0).ldg.r < (led 1 0).ldg.w ∧
      (led 1 1).ldg.w ≤ (led 1 1).ldg.r := by decide
theorem test_wit_RegistersWritten :
    let mis := one.onHif fun h => { h with mismatch := true }
    let ref := (one.onPwr fun p => { p with alarm := 32 }).onSns fun n => { n with noMaj := true, agree := [1000, 0, 0] }
    (bitOf 32 5 = true ∧ bitOf ref.pwr.alarm 5 = true ∧ ref.refsAgree = true ∧ ref.live = true) ∧
      (wordAddr 0x0101 = 0x0100 ∧ wordAddr 0x1007 = 0x1000 + 4 * (1 : CtxId) ∧ wordAddr 0x17FC = 0x1000 + 4 * (511 : CtxId) ∧ wordAddr 0x0FFC < 0x1000) ∧
      ((one.onPwr fun p => { p with testHold := true }).live = false) ∧ (live.live = true ∧ live.fwUp = false ∧ mis.fwUp = true ∧
        mis.hif.mismatch = true) ∧
      (0x3000 ≤ wordAddr 0x3000 ∧ wordAddr 0xCFFF < 0xD000 ∧ wordAddr 0x2000 = 0x2000 ∧ wordAddr 0xEFFF < 0xF000) ∧
      (wordAddr 0x2040 = 0x2040 ∧ wordAddr 0x2018 = 0x2018 ∧ wordAddr 0x9084 = 0x9084 ∧ wordAddr 0xA000 = 0xA000 ∧
        wordAddr 0xE008 = 0xE008 ∧ wordAddr 0x6000 = 0x6000) ∧ loRegs.any (fun w => decide (0x2000 ≤ w ∧ w < 0xF000 ∧ w + 4 ∉ loRegs)) = true ∧
      0x3000 ∉ loRegs := by decide

/-! ## Firmware, Vault and fuses -/

theorem test_wit_ImagesStaged :
    let a := (ring 0 one).onFw fun f => { f with slotSt := [3, 1], img := [none, some img0] }
    SlotsOk a ∧ a.vaultRes = 0 ∧ a.fw.upd = 0 ∧ (Ext.read {} 16 = none ∧ (Ext.read (tx [1]) 16).isSome = true) ∧
      (nvBad {} a = false ∧ nvBad { nvOk := false } a = true) ∧ a.otherSlot = 1 ∧ (a.fw.slotState 1 = 1) ∧
      ((ring 0 one).onFw fun f => { f with slotSt := [1, 4] }).fw.slotState 1 = 4 ∧ (a.fw.run = true ∧ a.fw.slotState a.fw.cur.slot = 3) ∧
      ((ring 0 one).fw.slotState 0 ≠ 3) ∧ (a.onFw fun f => { f with vault := {} }).vaultRes = 0xB006 ∧
      (4 : Nat) ≤ 4096 ∧ a.pwr.wantWarm = none ∧ Runs hd (descActivate 0) a := by unfold SlotsOk Runs NoClose; decide
theorem test_intKey (x : Nat) (h : x ≠ 0) : intKeyOk { intHash := [x, 0] } x = true := by
  simp [intKeyOk, h, bitOf, List.range, List.range.loop]
theorem test_noKey (x : Nat) : intKeyOk {} x = false := by
  cases x <;> simp [intKeyOk, List.range, List.range.loop]
/-- A configuration blob without a body: version 1, a key of 96 ones and a signature of 96 zeros. -/
def cfgB : List Nat := le 4 0x4346474B ++ [0, 0] ++ le 4 206 ++ le 4 1 ++ List.replicate 96 1 ++ List.replicate 96 0
/-- A configuration whose key is fused and whose signature the free function accepts (log entry 5) passes its checks. -/
theorem test_wit_ConfigStaged (h0 : Config.sha384 (List.replicate 96 1) ≠ 0)
    (h1 : Config.sigValid (Config.sha384 (List.replicate 96 1)) (cfgB.take 110) (sub cfgB 110 96) = true) :
    cfgCheck { intHash := [Config.sha384 (List.replicate 96 1), 0] } (some (cfgCopyOf cfgB {})) = 0 ∧ (cfgCopyOf cfgB {}).ver = 1 ∧
      cfgCheck {} (some (cfgCopyOf cfgB {})) ≠ 0 ∧ cfgCheck {} none ≠ 0 := by
  have e : sub cfgB 14 96 = List.replicate 96 1 := by decide +kernel
  have w : (cfgCopyOf cfgB {}).whole = true := by unfold cfgCopyOf; decide +kernel
  have k : (cfgCopyOf cfgB {}).keyHash = Config.sha384 (List.replicate 96 1) := congrArg Config.sha384 e
  have g : (cfgCopyOf cfgB {}).sig = true := by
    rw [show (cfgCopyOf cfgB {}).sig = Config.sigValid (Config.sha384 (sub cfgB 14 96)) (cfgB.take (fld cfgB 6 4 - 96))
      (sub cfgB (fld cfgB 6 4 - 96) 96) from rfl, e, show fld cfgB 6 4 - 96 = 110 by decide +kernel]
    exact h1
  refine ⟨?_, by decide +kernel, ?_, by decide⟩
  · unfold cfgCheck; dsimp only; rw [w, k, g, test_intKey _ h0]; rfl
  · unfold cfgCheck; dsimp only; rw [w, test_noKey]; decide
/-- A fuse array with one key hash, one boot set, limit gate and revocation programmed, and one with none. -/
def arr1 : Fuses := { intHash := [5, 0], gateDone := true, bootDone := 1, intRev := 1, kolRev := 1, kolHash := [9, 8, 0, 0] }
def fus (f : Fuses) : State :=
  { ring 0 one with fuse := { one.fuse with intHash := [5, 0], kolHash := [9, 0, 0, 0] }, fw := { one.fw with arr := f, cur := { svn := 64 } } }
theorem test_wit_FusesRefused :
    fuseRefused { vfuse := 1710 } (fus arr1) = 0 ∧ fuseRefused { vfuse := 1890 } (fus arr1) = 0 ∧ fuseRefused { vfuse := 1709 } (fus arr1) ≠ 0 ∧
      fuseRefused { vfuse := 1891 } (fus arr1) ≠ 0 ∧
      ((fus arr1).fw.arr.intHash.getD 0 0 ≠ 0 ∧ arr1.gateDone = true ∧ bitOf arr1.bootDone 0 = true ∧ bitOf arr1.intRev 0 = true ∧
        bitOf arr1.kolRev 0 = true ∧ bitOf arr1.bootDone 6 = false ∧ bitOf arr1.intRev 1 = false) ∧
      (bitOf arr1.kolRev 1 = false ∧ ∀ k < 4, k ≠ 1 → kolKeyOk arr1 k = false) ∧
      (bitOf arr1.kolRev 3 = false ∧ ∃ k < 4, k ≠ 3 ∧ kolKeyOk arr1 k = true) ∧
      (gateOk { capMax := 8, nMax := 160 } = true ∧ gateOk { capMax := 24000, nMax := 320 } = true ∧ gateOk { capMax := 7, nMax := 160 } = false) ∧
      (({} : Fuses).intHash.getD 0 0 = 0 ∧ ({} : Fuses).intHash.getD 1 0 = 0 ∧ arr1.intHash.getD 1 0 = 0 ∧ ¬ arr1.intHash.getD 0 0 = 0) := by
  decide
/-- A blob is signed under a fused key exactly when the free function accepts it (log entry 5). -/
theorem test_wit_BlobSigned (b : Bool) (h : Config.sigValid 5 [] (List.replicate 96 0) = b) :
    blobSigned ((fus {}).intKeys 2) (List.replicate 96 0) = (if b then 0 else 0xB003) ∧ blobSigned ((fus {}).kolKeys 0) [] = 0xB002 := by
  have p : signedParts (List.replicate 96 0) = ([], List.replicate 96 0) := by decide
  have k : (fus {}).intKeys 2 = [5] := by decide
  refine ⟨?_, by decide⟩
  unfold blobSigned; rw [k, p]; dsimp only; rw [if_neg (List.cons_ne_nil _ _), List.any_cons, h]; cases b <;> rfl
/-- A nonce 7 is outstanding, and both SVNs are 64. -/
def tok : State :=
  (fus {}).onFw fun f => { f with vault := { f.vault with nonce := some (7, 0) }, img := [some { img0 with svn := 64 }, none] }
theorem test_wit_SvnToken (b : Bool) (h : Config.sigValid 9 (leBytes 8 0 ++ leBytes 16 7 ++ leBytes 4 3) (List.replicate 96 0) = b) :
    tokenOk 3 (List.replicate 96 0) tok = b ∧ tokenOk 3 (List.replicate 96 0) (fus {}) = false ∧
      ¬ (64 < 64 ∨ 64 ≤ tok.fw.arr.svn ∨ tok.fw.cur.svn < 64 ∨ ((tok.fw.slotImg tok.fw.pref).getD {}).svn < 64) ∧
      tok.vaultRes = 0 ∧ tok.fw.arr.zeroised = false := by
  refine ⟨?_, by decide, by decide, by decide, by decide⟩
  have e : tokenOk 3 (List.replicate 96 0) tok =
    (Config.sigValid 9 (leBytes 8 0 ++ leBytes 16 7 ++ leBytes 4 3) (List.replicate 96 0) || false) := rfl
  rw [e, h]; cases b <;> rfl
/-- A live update in state `n`, started by the descriptor of context 0. -/
def upd (n : Nat) : State :=
  { (ring 0 one) with fw := { boot.fw with run := true, slotSt := [1, 1], upd := n, updHdr := some hd, old := { slot := 0 },
                                           next := { slot := 1 }, cur := { slot := 0, hoVer := 1 }, img := [none, some img0] }
                      fuse := boot.fuse }
theorem test_wit_LiveUpdate :
    let s := upd 0
    (SlotsOk s ∧ Runs hd descLive s ∧ s.vaultRes = 0 ∧ s.otherSlot = 1 ∧ s.fw.slotState 1 = 1 ∧ s.nvDown = false ∧
      fwCheck s.fuse (s.fw.slotImg 1) = 0 ∧ (img0.ver / 2 ^ 24 = s.fw.cur.ver / 2 ^ 24 ∧ img0.hoMin ≤ s.fw.cur.hoVer) ∧
      s.fw.slotState s.fw.cur.slot ≠ 3) ∧ fwCheck {} (s.fw.slotImg 1) ≠ 0 ∧
      ((upd 1).fw.upd = 1 ∧ (upd 2).fw.upd = 2 ∧ (upd 2).fw.next.slot < 2 ∧ (upd 4).fw.upd = 4 ∧ (upd 6).fw.updHdr = some hd) ∧
      NoClose hd.ctx (upd 6) ∧ ((upd 5).onFw fun f => { f with okFrames := 1024, allocOk := true }).confirmMay = true ∧
      ((upd 5).onFw fun f => { f with okFrames := 1023, allocOk := true }).confirmMay = false ∧
      ((upd 2).fw.holdAt + 5000000 ≤ (at_ 5000000 (upd 2)).now ∧ ¬ ((upd 2).fw.holdAt + 5000000 ≤ (at_ 4999999 (upd 2)).now) ∧
        (upd 5).fw.switchAt + 100000000 ≤ (at_ 100000000 (upd 5)).now ∧ ¬ ((upd 5).fw.switchAt + 100000000 ≤ (at_ 99999999 (upd 5)).now)) := by
  unfold SlotsOk Runs NoClose; decide
theorem test_wit_Cores :
    let core := fun (k : Nat) (c : FwCore) => (ring 0 one).onFw fun f => { f with core := [(k, c)] }
    let a := core 0 { st := 1 }
    let z := core 0 { st := 1, idleSince := some 0 }
    let p := { (a.onFw fun f => { f with core := [(0, { st := 1, lastHang := some 0 }), (1, { st := 1 })] }) with cfg := { a.cfg with partner := [(0, 1)] } }
    (a.live = true ∧ a.fw.run = true ∧ (a.getFwCore 0).st = 1 ∧ (a.getUnit (audIdx 1 0)).st = 0 ∧ a.fw.upd = 0) ∧
      (((core 32 { st := 1 }).getFwCore 32).st = 1 ∧ (32 : Nat) ≤ (32 : Fin 34).val) ∧ ((upd 4).getFwCore 0).st = 0 ∧
      (let u := (upd 4).onFw fun f => { f with core := [(0, { st := 1 })] }
       (u.getFwCore 0).st = 1 ∧ u.fw.upd = 4 ∧ u.live = true) ∧
      ((at_ 999999999 p).now < 0 + 1000000000 ∧ p.partnerFree 0 = true ∧ a.partnerFree 0 = false) ∧
      (let b := (core 0 { st := 3 }).onFrm fun f => { f with count := 1024 };
        b.fwUp = true ∧ (b.getFwCore 0).st = 3 ∧ (b.getFwCore 0).backFrom + 1024 ≤ b.frm.count) ∧
      ((at_ 1000000 z).mayRest 0 = true ∧ (at_ 999999 z).mayRest 0 = false) ∧ ((core 0 { st := 2 }).getFwCore 0).st = 2 ∧
      (a.fw.vault.error = false ∧ a.fw.vault.ready = true) ∧
      ((upd 1).fw.upd = 1 ∧ (upd 1).fw.updHdr = some hd) := by decide

/-! ## Audit, test access and the two rules -/

/-- Unit (kind, index) is in this state of Table 17.2. -/
def au (kind i st : Nat) : State := (ring 0 one).onAud fun a => { a with unit := [(audIdx kind i, { st := st })] }
theorem test_wit_UnitsTested :
    (∀ x ∈ [(0, 8), (2, 0), (3, 0), (5, 64)], (ring 0 one).audState x.1 x.2 = 0) ∧ (ring 0 one).audState 0 9 = 6 ∧
      ((ring 0 one).aud.test.isSome = false ∧ (ring 0 one).kindOut 3 0 = false ∧ (au 3 1 1).kindOut 3 0 = true ∧ (au 3 0 1).kindOut 3 0 = false) ∧
      ((au 3 0 3).audState 3 0 = 3 ∧ (au 3 0 4).audState 3 0 = 4 ∧ (au 3 0 2).audState 3 0 = 2) ∧
      (neverOut 2 7 = true ∧ neverOut 2 16 = false) ∧
      ((ring 0 one).tly.cube.getD 0 3 = 0 ∧ 1 ∈ (ring 0 one).tly.cube ∧
        ((ring 0 one).onTly fun t => { t with cube := [0, 0, 0, 0, 0, 0, 0, 0, 0] }).tly.cube.getD 0 3 = 0) ∧
      (let p := ring 0 (onRail one);
        p.audState 4 0 = 0 ∧ p.audCapacity 4 0 = true ∧ (p.getPh 0).usable = true ∧ p.audTaken 4 0 = [0]) ∧
      (let t := (au 3 0 2).onAud fun a => { a with test := some { kind := 3, idx := 0, auto := false, ret := false, began := 0, hdr := some hd } };
        t.aud.test = some { kind := 3, idx := 0, auto := false, ret := false, began := 0, hdr := some hd } ∧ NoClose hd.ctx t) := by
  unfold NoClose; decide
set_option maxRecDepth 8000 in
theorem test_wit_AutomaticAudit :
    let a := (ring 0 one).onAud fun b => { b with kinds := 8 }
    (a.fwUp = true ∧ a.aud.kinds ≠ 0 ∧ a.aud.schedTime + a.aud.period * 1000000000 ≤ (at_ 600000000000 a).now ∧
      ¬ (a.aud.schedTime + a.aud.period * 1000000000 ≤ (at_ 599999999999 a).now)) ∧ a.schedNext = some (3 * 1024) ∧ one.schedNext = none ∧
      audCheck 3 0 false false a = 0 ∧ audCheck 3 0 false false (au 3 1 1) ≠ 0 ∧
      (bits 0x00010010 4 2 ≠ 0 ∧ bits 0x0000000F 16 16 = 0 ∧ bits 0x0001000F 4 2 = 0 ∧ bits 0x0001000F 16 16 ≠ 0) := by decide +kernel
theorem test_wit_TestPorts :
    let off := one.onPwr fun p => { p with vaon := false }
    (one.pwr.vaon = true ∧ one.pwr.vio = true ∧ off.pwr.vaon = false) ∧ one.railsDown = true ∧ (onRail one).railsDown = false ∧
      (one.onAud fun a => { a with mbistBusy := true }).aud.mbistBusy = true ∧ one.aud.mbistBusy = false := by decide
theorem test_wit_ResetCause : ResetCauseOk one ∧ (∃ t, step { one with pending := [.warmReset 99] } = .next t ∧ t.pwr.cause = 0) :=
  ⟨by unfold ResetCauseOk; decide, _, rfl, rfl⟩
theorem test_wit_Policy : Emulates one ∧ wordAddr 0x8028 = 0x8028 ∧
    (bits 0x01140031 0 8 < 50 ∧ ¬ bits 0x01140032 0 8 < 50 ∧ 100 < bits 0x01140065 0 8 ∧ ¬ 100 < bits 0x01140064 0 8) ∧
    (120 < bits 0x01147964 8 8 ∧ ¬ 120 < bits 0x01147864 8 8) ∧ (bits 0x01130064 16 8 < 20 ∧ ¬ bits 0x01140064 16 8 < 20) ∧
    (100 < bits 0x01650064 16 8 ∧ ¬ 100 < bits 0x01640064 16 8) ∧ (bits 0x00140064 24 8 = 0 ∧ bits 0x01140064 24 8 ≠ 0) := by
  unfold Emulates; decide

/-! ## Further cases of the hypotheses: the clauses that other states meet -/

/-- 500 samples of link `l`, 1 ms apart by a `CKREF` of 100 MHz, whose peer runs `ppm` faster. -/
def edgeRun (l ppm : Nat) : List EdgeSample := (List.range 500).map fun i => { link := l, edges := 100000 * i, ts := (1000000 + ppm) * i }
theorem test_wit_DriftInHoldover :
    let s := (drift 3 0).onTb fun t => { t with hold := true }
    let e := edgeRun 0 300 ++ edgeRun 1 300 ++ edgeRun 2 300
    s.live = true ∧ s.clrUp = true ∧ s.tb.hold = true ∧ s.clr.driftStart + 10000000 ≤ s.now ∧
      ((s.links.filter fun l => (s.getLnk l).up).filterMap fun l => edgePpm s.pwr.refsel (e.filter fun x => x.link = l)) =
        [-300, -300, -300] ∧ medianI [-300, -300, -300] = -300 := by decide +kernel
theorem test_wit_TreasuryContexts :
    let setTx : State → State := fun t => t.updTx 0 fun y => { y with weight := 0, cls := 0, grant := 20, floor := min y.floor 20,
                                                                         suspended := y.suspended && decide ((0 : Nat) = 1) }
    let s := one.onTrs fun x => { x with cap := 10, floor := [20, 0, 0, 0] }
    (s.getTx s.trs.txSel).grant < 20 ∧ s.trs.txSel = 0 ∧ admits setTx s = false ∧
      admits setTx (one.onTrs fun x => { x with cap := 800 }) = true ∧ bits 0x14000000 16 2 = 0 ∧ bits 0x14000000 24 8 = 20 ∧
      bits 0x01020005 16 2 = 2 ∧ bits 0x01020005 24 8 ≠ 0 := by decide
theorem test_wit_ConversionCases :
    let tst := one.onAud fun a => { a with test := some { kind := 2, idx := 0, auto := true, ret := false, began := 0 } }
    let t7 := tst.updMeas 0 fun m => { m with audN := 7 }
    let pen := (onRail { one with cfg := { one.cfg with rail := [(0, { one.railCfg 0 with fsw := 20 })] } })
    let rec_ := pen.onSns fun n => { n with recover := [(0, 1)] }
    let sar := one.updUnit (audIdx 2 32) fun u => { u with st := 1 }
    let stale := at_ 100000000 one
    (tst.adcTested 0 = true ∧ (tst.getMeas 0).audN < 7 ∧ t7.adcTested 0 = true ∧ 7 ≤ (t7.getMeas 0).audN ∧ one.adcTested 0 = false) ∧
      ((pen.getPh 0).pen = true ∧ Tbl.get 0 pen.sns.recover 0 = 0 ∧ 20 ≤ (pen.railCfg (pen.phCfg 0).rail).fsw ∧
        0 < Tbl.get 0 rec_.sns.recover (0 / 8) ∧ (one.railCfg (one.phCfg 0).rail).fsw < 20 ∧ (one.getPh 0).pen = false) ∧
      ((sar.getUnit (audIdx 2 (32 + 0 / 32))).st ≠ 0 ∧ (one.getUnit (audIdx 2 (32 + 0 / 32))).st = 0) ∧ one.pmUp = true ∧
      (one.onFw fun f => { f with handoff := true }).pmUp = false ∧
      (stale.getMeas 0).vinStale = false ∧ (stale.getMeas 0).vinAccept + 100000000 ≤ stale.now ∧
      ((pen.getPh 0).st = 2 ∧ (pen.getPh 0).pwm = false ∧ (pen.getPh 0).scOff = false ∧ (pen.getReg 0).nlLo = false) := by decide
theorem test_wit_PhaseCases :
    let cb := (onRail lock).updProt 0 fun x => { x with st := 6 }
    let de := at_ 20 ((onRail lock).onClk fun k => { k with ref := { k.ref with present := false } })
    let j := (onRail lock).updPh 0 fun x => { x with st := 3, joinAt := some 0, per := 64000 }
    let f := { lock with cfg := { lock.cfg with rail := [(0, { lock.railCfg 0 with fsw := 10 })] } }
    let rm := fun (u : Option Nat) => at_ 50000 (((onRail f).updMeas 0 fun m => { m with removeSince := some 0 }).updReg 0 fun x =>
      { x with lastRemove := u, shed := { x.shed with nmin := 1, iAdd := 8 } })
    ((cb.getProt 0).st = 6 ∧ (cb.getPh 0).usable = true ∧ (cb.updPh 0 fun x => { x with st := 6 }).getPh 0 ≠ {} ∧
      ((cb.updPh 0 fun x => { x with st := 6 }).getPh 0).usable = false) ∧
      (de.deArmed 0 = true ∧ de.regulating 0 = true ∧ (de.getPh 0).pen = true ∧ (de.getPh 0).pwm = false ∧
        (de.getPh 0).deEnd = false ∧ (de.getPh 0).fallAt + 20 ≤ de.now) ∧
      ((j.getPh 0).st = 3 ∧ (j.getPh 0).joinAt = some 0 ∧ 0 + unitsNs j (j.getPh 0).osc (2 * (j.getPh 0).per) ≤ (at_ 5000 j).now ∧
        j.now < 0 + unitsNs j (j.getPh 0).osc (2 * (j.getPh 0).per)) ∧
      (∀ u ∈ [none, some 49000, some 49001], (rm u).live = true ∧ ((rm u).getMeas 0).removeSince = some 0 ∧
        0 + 2000 * ((rm u).getReg 0).shed.thold ≤ (rm u).now ∧ ((rm u).getProt 0).st = 3 ∧
        ((rm u).getReg 0).shed.nmin < ((rm u).activePhases 0).length ∧ wantPhases (rm u) 0 < ((rm u).activePhases 0).length ∧
        argMin (fun x => -((rm u).getPh x).temp) ((rm u).activePhases 0) = some 0 ∧ ((rm u).getReg 0).lastRemove = u) ∧
      ceilDiv 10000 ((rm none).railCfg 0).fsw = 1000 := by decide
theorem test_wit_RailSteps :
    let a := at_ 100 ((onRail one).updReg 0 fun x => { x with slew := 40, stepAt := some 75 })
    let up_ := (a.updProt 0 fun x => { x with st := 2, vStart := 400 }).updReg 0 fun x => { x with vref := 400, stepAt := none }
    let pp := fun (l : Option Nat) (n : Nat) => at_ 4000 (one.updReg 0 fun x => { x with ppArrived := l, ppZero := n, lastFc := some 3999 })
    (a.regulating 0 = true ∧ stepDue a 0 = true ∧ stepDue (at_ 99 a) 0 = false) ∧
      ((up_.getProt 0).st = 2 ∧ rampFloor up_ 0 ≤ (up_.getReg 0).vref ∧ stepDue up_ 0 = true) ∧
      (((pp (some 0) 0).getReg 0).ppArrived = some 0 ∧ 2 ≤ ((pp none 2).getReg 0).ppZero ∧
        ((pp none 1).getReg 0).ppZero < 2 ∧ ((pp none 1).getReg 0).ppArrived = none ∧
        (pp none 1).now < 3999 + 4000) := by decide
theorem test_wit_RailRegisterCases :
    let a := onRail { one with fuse := { one.fuse with slewMax := [40] } }
    let n := a.updReg 0 fun x => { x with shed := { x.shed with nmin := 1 } }
    let h := a.updReg 0 fun x => { x with hold := true }
    let off := a.updProt 0 fun x => { x with st := 0 }
    let d : PmbDev := { addr := 16, pec := false }
    let p := { a with cfg := { a.cfg with pmb := [d] } }
    (a.railManual 0 = true ∧ off.railManual 0 = true ∧ (h.getReg 0).hold = true ∧ (off.getProt 0).st ≠ 2 ∧ (off.getProt 0).st ≠ 3) ∧
      (4 ≤ a.fuse.slewMax.getD a.rail.sel 0 ∧ (3 : Nat) < 4 ∧ a.fuse.slewMax.getD a.rail.sel 0 < 41) ∧
      (bits 0x00100020 16 16 ≤ bits 0x00100020 0 16 ∧ bits 0x00200010 0 16 < bits 0x00200010 16 16 ∧
        (n.getReg 0).shed.nmin ≠ 0 ∧ (n.getReg 0).shed.nmin ≤ (n.railCfg 0).nph) ∧ bitOf 0x01000002 9 = false ∧
      (a.live = true ∧ a.pmUp = true ∧ (a.pmbDev 16).pec = true ∧ (p.pmbDev 16).pec = false) := by decide
theorem test_wit_StageDevices :
    let d : PmbDev := { addr := 16, cmds := [(1, 5)] }
    let s := { starting 2 with cfg := { (starting 2).cfg with pmb := [d], ph := [(0, { (one.phCfg 0) with addr := 16 })] } }
    s.live = true ∧ s.startFront = some (seq 2) ∧ s.pmUp = true ∧ startPending s (seq 2) ≠ [] ∧
      pmbFailed (s.pmbDev 16) { addr := 16, first := [some 5] } = none ∧
      pmbFailed (s.pmbDev 16) { addr := 16, first := [some 4], again := [some 5] } = none ∧
      pmbFailed (s.pmbDev 16) { addr := 16, first := [some 4], again := [none] } ≠ none := by decide
theorem test_wit_ProtectionCases :
    let bl := at_ 14 ((onRail one).updPh 0 fun x => { x with pwm := true, riseAt := some 0 })
    let uv := { onRail one with cfg := { one.cfg with rail := [(0, { one.railCfg 0 with uvPct := 10 })] } }
    let w := uv.updReg 0 fun x => { x with vref := 4000, target := 4000 }
    scBlanked bl 0 = true ∧ scBlanked (at_ 15 bl) 0 = false ∧ scBlanked one 0 = false ∧
      ((w.getProt 0).st = 3 ∧ belowWindow w 0 3599 = true ∧ belowWindow w 0 3600 = false) ∧
      ((one.phCfg 1).present = true ∧ (one.getPh 1).readback = false) := by decide
theorem test_wit_ClearsRefused :
    let v := one.onPwr fun p => { p with vanaLoss := true }
    let c3 := (one.updProt 0 fun x => { x with st := 5, cause := 3 }).updPh 0 fun x => { x with st := 5 }
    let e : FRec := one.frec
    (Emulates v ∧ v.pwr.vanaLoss = true) ∧ ((c3.getProt 0).st = 5 ∧ (c3.getProt 0).cause = 3 ∧ (c3.railCfg 0).nreq ≤ (c3.usablePhases 0).length ∧
      ((c3.updPh 1 fun x => { x with st := 5 }).usablePhases 0).length < (c3.railCfg 0).nreq) ∧
      v.nvDown = true ∧ one.nvDown = false ∧ e.ptrs.length = 2 ∧ e.ptrSector < 2 ∧ e.erasing = [] := by unfold Emulates; decide
theorem test_wit_RequestCases :
    let full := eng.updEp 0 fun l => { l with resp := List.replicate 64 { rsrc := 0, rq := 0, rstat := 0, rval := 0 } }
    let held := eng.updEp 0 fun l => { l with withheld := [req], resp := [{ rsrc := 0, rq := 0, rstat := 0, rval := 0 }] }
    let busy := eng.updEp 0 fun l => { l with withheld := [{ req with src := 1 }] }
    let wd := eng.onSyn fun y => { y with wtr := [(0, some (wait0 true))] }
    64 ≤ (full.getEp 0).resp.length ∧ full.queueBusy 0 1 0 = false ∧ (held.getEp 0).withheld = [req] ∧
      (held.getEp 0).resp.tail.length < 64 ∧ busy.queueBusy 0 1 0 = true ∧ eng.engineOk 1 = false ∧
      (wd.waiter 0 = some (wait0 true) ∧ (wait0 true).mode = true) ∧ WaitersOk wd ∧ (Emulates eng ∧ eng.feat 2 = false) := by
  unfold Emulates WaitersOk; decide
set_option maxRecDepth 4000 in
theorem test_wit_HintsCoalesce :
    let a := { hints with fc := { hints.fc with q := [(0, some ent)] } }
    let full := { hints with fc := { hints.fc with q := (List.range 32).map fun i => (i, some { ent with cls := 2 }) } }
    (Accepts 0 0 a ∧ a.hint 0 0 = some ent ∧ ent.ctx = 0 ∧ ent.cls = 1 ∧ ent.early = decide (16 ≤ (0 : Fin 256).val) ∧
      timeDist ent.th (a.now + 250 * 0) ≤ 1000 ∧ 1000 < timeDist ent.th (a.now + 250 * 5) ∧ a.hint 0 1 = none ∧
      a.now < ent.te ∧ a.now < ent.evalAt) ∧
      (Accepts 0 0 full ∧ (∀ e < 32, full.hint 0 e = some { ent with cls := 2 }) ∧ ({ ent with cls := 2 } : HintEnt).cls ≠ 1) ∧
      ((at_ 8100 a).live = true ∧ ent.judged = false ∧ ent.evalAt ≤ (at_ 8100 a).now ∧ ent.epoch = ((at_ 8100 a).getTx ent.ctx).epoch ∧
        ent.n = 0) ∧ (at_ 8099 a).now < ent.evalAt := by
  unfold Accepts; decide
theorem test_wit_MessagesCases :
    let down := clr pres
    let bad := (words 3 msg).map BitVec.toNat |>.set 0 0
    ({ down with fw := {} } : State).clrReads = false ∧
      (down.onHm fun h => { h with inReset := true }).clrReads = false ∧ down.hm.inReset = false ∧
      clrParse bad = none ∧ bad.length = 24 ∧ (down.getLnk 3).seqIn < bad.getD 2 0 ∧
      bad.getD 2 0 ≤ ((clr { pres with seqIn := 1 }).getLnk 3).seqIn := by decide +kernel
theorem test_wit_LeasesRenewed :
    let b : Bor := { id := 11, amt := 64, exp := 200000 }
    let r := { lease 0 with flags := 16 }
    let k := clr { known with bor := [b] }
    let full := clr { known with bor := (List.range 8).map fun i => { id := 100 + i, amt := 1, exp := 300000 } }
    let aud := (clr known).updUnit (audIdx 5 3) fun x => { x with st := 1 }
    let hold := (clr known).onTb fun t => { t with hold := true }
    (Receives 3 5 r k ∧ bitOf r.flags 4 = true ∧ bitOf r.flags 0 = false ∧ b.ret = none ∧ b.void = false ∧ b.counted = true ∧
      k.now + k.trs.lguard * 1000 < b.exp) ∧
      (Receives 3 5 (lease 0) full ∧ 8 ≤ (full.getLnk 3).bor.length) ∧ (Receives 3 5 (lease 0) aud ∧ aud.linkAud 3 = true) ∧
      (Receives 3 5 (lease 0) hold ∧ hold.tb.hold = true) ∧ ((clr { known with bor := [{ b with void := true }] }).getLnk 3).bor =
        [{ b with void := true }] ∧ (at_ 20000 (clr { known with bor := [{ b with ret := some (20000, 3) }] })).fwUp = true := by
  unfold Receives; decide
theorem test_wit_LinksEnabled :
    let off := clr { pres with st := 0 }
    let dis := { off with clr := { off.clr with en := false } }
    let sel := fun (n : Nat) => (clr pres).onClr fun c => { c with lnkSel := n }
    (Emulates dis ∧ dis.clr.en = false ∧ dis.feat 3 = true ∧ bitOf 0x1403 0 = true) ∧ (Emulates (sel 3) ∧ (sel 3).clr.lnkSel < 65 ∧
      ((sel 3).getLnk 3).en = true ∧ ((sel 4).getLnk 4).en = false ∧ (sel 4).clr.en = true) ∧ 65 ≤ (sel 65).clr.lnkSel ∧
      (Receives 3 3 { msg with flags := 2 } (clr pres) ∧ bitOf 2 1 = true) ∧ ((clr { pres with joinRounds := 1, st := 1 }).getLnk 3).joinRounds < 2 := by
  unfold Emulates Receives; decide
theorem test_wit_RingCases :
    let r := (ring 0 one).onHm fun h => { h with inReset := true }
    (descMay 0 r = true ∧ r.hm.inReset = true ∧ r.live = true) ∧ one.hif.mismatch = false ∧
      (let g := { one with hif := { one.hif with c0Ring := 0x10166, negDone := true } }
       bitOf g.hif.c0Ring 8 = true ∧ g.hif.negDone = true ∧ g.clerkUp = true) ∧
      (planOf (hdrOf 0 (descBytes (dw 1))) (descBytes (dw 1)) {}).isSome = true := by decide
theorem test_wit_StartsRefused :
    let hold := fun (k : Nat) => (ring 0 one).updClu 0 fun c => { c with st := 2, holdCause := k }
    let v := (ring 0 one).onPwr fun p => { p with vanaLoss := true }
    (Runs hd descControlStart (hold 0) ∧ ((hold 0).getClu 0).st = 2 ∧ ((hold 0).getClu 0).holdCause = 0) ∧
      (Runs hd descControlStart (hold 1) ∧ ¬ (((hold 1).getClu 0).st = 2 ∧ ((hold 1).getClu 0).holdCause = 0)) ∧
      (Runs hd descAmBaseline v ∧ v.nvDown = true) ∧ (ring 0 one).nvDown = false ∧ (0x57525354 : Nat) ≠ 0 := by
  refine ⟨⟨?_, by decide, by decide⟩, ⟨?_, by decide⟩, ⟨?_, by decide⟩, by decide, by decide⟩ <;> unfold Runs NoClose <;> decide
theorem test_wit_ProgramsFull :
    let f := { tal with tly := { tal.tly with prog := (List.range 128).map fun i => (i, { installed := true, id := 100 + i }) } }
    (∀ k < 128, (f.getProg k).installed = true) ∧ f.replacedBy 7 = none := by decide +kernel
theorem test_wit_LoopsRefused :
    8192 ≤ (lcv 8192 2 1).valid ∧ 4 < (lcv 1 5 1).loop ∧ (tal.loopCfg 0 1).present = false ∧ (tal.loopCfg 0 2).present = true ∧
      (let s := tal.onFw fun f => { f with vault := { f.vault with error := true } }; s.vaultRes ≠ 0) := by decide
theorem test_wit_WindowsFree : (ring 0 eng).syn.wtr = [] ∧ ∀ k, (ring 0 eng).waiter k = none := ⟨by decide, fun _ => rfl⟩
theorem test_wit_GroupCases :
    let n := ((ring 0 eng).updObj 64 fun x => { x with count := true }).updObj 65 fun x => { x with count := true }
    let g := n.onSyn fun y => { y with grp := [(2, { valid := true, p := 2, members := [64], arrived := 0 })] }
    (∀ m ∈ [64, 65], m < 8192 ∧ (n.getObj m).count = true) ∧ (n.groupOf 64 = none ∧ n.groupOf 65 = none) ∧ g.groupOf 64 = some 2 ∧
      ((g.getGrp 2).valid = true ∧ g.grpWaits 2 = false) ∧ (n.getObj 66).count = false ∧ Runs hd descSynAct g := by
  unfold Runs NoClose; decide
theorem test_wit_SynMapCases :
    let mv : SynMapOp := { ctx := 4, force := false, add := 0, remove := 0, moves := [(5, 6)] }
    let s := ring 0 eng
    let t := s.onSyn fun y => { y with own := [(6, 7), (9, 4)] }
    (Runs hd descSynMap s ∧ WaitersOk s ∧ (∀ w ∈ maskIdx 128 mv.add, Tbl.get 0 s.syn.own w = 0) ∧
      (∀ m ∈ mv.moves, Tbl.get 0 s.syn.own m.2 = 0 ∧ m.1 < 128 ∧ m.2 < 128)) ∧ (Tbl.get 0 t.syn.own 6 ≠ 0 ∧ 6 ∉ maskIdx 128 mv.add) ∧
      (Tbl.get 0 t.syn.own 9 = 4 ∧ 9 ∈ maskIdx 128 (2 ^ 9)) ∧ 128 ≤ ({ mv with moves := [(128, 0)] } : SynMapOp).moves.length * 128 := by
  unfold Runs NoClose WaitersOk; decide
theorem test_wit_TransferCases :
    let z := fun (k op : Nat) => (ring 0 one).onDma fun d =>
      { d with chan := [(k, { busy := true, xfer := some { op := move, hdr := some hd, opcode := op, num := 3 } })] }
    let rd := (z 5 0x80).onHm fun h => { h with reqs := [(3, some { purpose := .dma 5, issued := 0 })] }
    let wt := (z 5 0x80).onHm fun h => { h with waiting := [{ purpose := .dma 5, addr := 0, len := 16 }] }
    let bz := (z 5 0x84).onFrec fun f => { f with queue := [{}], ready := true }
    let nv := (ring 0 one).onPwr fun p => { p with vanaLoss := true }
    (rd.reading 5 = true ∧ wt.reading 5 = true ∧ (z 5 0x80).reading 5 = false ∧ (z 6 0x82).reading 6 = false) ∧
      (bz.frec.busy = true ∧ ((bz.getChan 5).xfer.map Xfer.opcode) = some 0x84 ∧ (z 5 0x84).frec.busy = false) ∧
      (Runs hd descFrecCopy nv ∧ nv.nvDown = true ∧ (ring 0 one).nvDown = false ∧ 320 < ({ fr with nslot := 321 } : FrecCopyOp).nslot) := by
  unfold Runs NoClose; decide
theorem test_wit_RegisterCases :
    (Emulates one ∧ wordAddr 0x3103 = 0x3100 ∧ wordAddr 0x6080 = 0x6080 ∧ wordAddr 0xA018 = 0xA018 ∧ wordAddr 0x3FF2 = 0x3FF0) ∧
      (wordAddr 0x0220 = 0x0220 ∧ wordAddr 0x0104 ≠ 0x0100 ∧ wordAddr 0x0104 < 0x1000) ∧ ((14 : Fin 16) ≠ 15) ∧
      (one.live = true ∧ bitOf 1 0 = true) ∧ loRegs.all (fun w => decide (w % 4 = 0)) = true := by unfold Emulates; decide
theorem test_wit_UpdateCases :
    let b := { (ring 0 one) with fw := { one.fw with core := [(0, { st := 3 })] } }.onFrm fun f => { f with count := 1024 }
    let z := (fus { zeroised := true })
    (upd 0).nvDown = false ∧ ((upd 0).onPwr fun p => { p with vanaLoss := true }).nvDown = true ∧
      (b.fwUp = true ∧ b.frm.inFrame = false ∧ (b.getFwCore 0).st = 3 ∧ (b.getUnit (audIdx 1 0)).st = 0 ∧
        (b.getFwCore 0).backFrom + 1024 ≤ b.frm.count) ∧
      (fuseRefused { vfuse := 1800 } z = 0 ∧ z.fw.arr.zeroised = true ∧ z.vaultRes = 0 ∧ (fus {}).fw.arr.zeroised = false) ∧
      (up.fw.vault.error = false ∧ (up.onFw fun f => { f with vault := { f.vault with error := true } }).fw.vault.error = true) := by
  decide
theorem test_wit_ResetSupplies : vaonOk one.pwr.vaon 670 = true ∧ vioOk one.pwr.vio 2970 = true ∧ vaonOk one.pwr.vaon 639 = false ∧
    vioOk one.pwr.vio 1549 = false ∧ ResetCauseOk { one with pending := [.internalPowerOnReset 639 2970] } := by
  unfold ResetCauseOk; decide

/-! ## Single steps, with results worked out from the spec -/

/-- R24, R27, R66: `WRST_N` low for 1 µs is a warm reset with cause 2, counted; 99 ns is none. -/
theorem test_warmReset : gives (exec (.warmReset 1000) one) (fun t => t.pwr.cause = 2 && t.pwr.warmCnt = 1 && !t.fw.run) = true := by
  decide +kernel
theorem test_warmResetShort : gives (exec (.warmReset 99) one) (fun t => t.pwr.cause = 0 && t.pwr.warmCnt = 0 && t.fw.run) = true := by
  decide +kernel
/-- R374, R379: NOP writes one completion; IDENTIFY answers protocol 0x0400 and the context, in the holdover that every reset
begins with (R72). -/
theorem test_nop : gives (exec (.nop hd) (ring 0 one)) (fun t => t.hm.out.length = 1 && (t.getCtx 0).sqHead = 1) = true := by decide +kernel
theorem test_identify : gives (exec (.identify h3) (ring 3 one)) (fun t =>
    match t.hm.out with | [.cqe 3 _ b] => b = [5, 0, 0, 0, 0, 0, 1, 0, 0, 4, 3, 0, 2, 0, 5, 0] | _ => false) = true := by decide +kernel
/-- R378, Table 14.4: the interface does not let a tenant start control. -/
theorem test_tenantRefused : gives (exec (.controlStart h3 1) (ring 3 one)) (fun t =>
    match t.hm.out with | [.cqe 3 _ b] => b.drop 4 |>.take 2 |> (· = [3, 0x90]) | _ => false) = true := by decide +kernel
/-- R318: the first SET raises the level and the generation: 1 + 16 · 1 + 256. -/
theorem test_synSet : gives (exec (.synSet 0 0 0 5) eng) (fun t => ((t.getEp 0).resp.map fun r => (r.rstat, r.rval)) = [(0, 273)]) = true := by
  decide +kernel
/-- R320: INC stops at 65,535, DEC at 0. -/
theorem test_synInc : gives (exec (.synInc 0 0 0 64 10) (cnt 65530 0)) (fun t =>
    (t.getObj 64).value = 65535 && ((t.getEp 0).resp.map fun r => r.rstat) = [0x7005]) = true := by decide +kernel
theorem test_synDec : gives (exec (.synDec 0 0 0 64 10) (cnt 7 0)) (fun t =>
    (t.getObj 64).value = 0 && ((t.getEp 0).resp.map fun r => (r.rstat, r.rval)) = [(0x7004, 0)]) = true := by decide +kernel
/-- R321: the second of two arrivals completes the barrier. -/
theorem test_barrier : gives (exec (.barrierArrive 0 0 0 64 0) (cnt 7 1)) (fun t =>
    (t.getGrp 2).gen = 1 && (t.getGrp 2).arrived = 0 && ((t.getEp 0).resp.map fun r => r.rval) = [1]) = true := by decide +kernel
/-- R121: a code counts 1/64 K: 25.0 °C is 298.15 K, code 19,082 after rounding. -/
theorem test_siteTemp : siteTemp {} 19082 = 25 * 64 ∧ siteTemp {} 0 = -17482 := by decide
/-- R164, LINEAR11: 0xF030 is 48 · 2^−2 = 12, held in 0.25 mV. -/
theorem test_linear11 : linear11 0xF030 = 48000 ∧ linear11 12 = 48000 ∧ linear11 0x7FF = -4000 := by decide
/-- R184: a short-circuit event turns its phase off and is counted. -/
theorem test_scTrip : gives (exec (.scTrip 0) (onRail one)) (fun t => !(t.getPh 0).pen && (t.getPh 1).pen && (t.getPh 0).scTotal = 1) = true := by
  decide +kernel
/-- R188: an overvoltage pulls the rail low through every usable phase. -/
theorem test_overvoltage : gives (exec (.overvoltage 0) (onRail one)) (fun t =>
    (t.getProt 0).st = 6 && (t.getPh 0).pen && !(t.getPh 0).pwm && (t.getClu 0).st = 0) = true := by decide +kernel
/-- R289: a cap above the fused maximum is refused with TRS_CAP_RANGE; one inside is in force. -/
theorem test_cap : gives (exec (.capSet 801) one) (fun t => t.trs.cap = 0 && t.trs.res = 0x6001) = true ∧
    gives (exec (.capSet 800) one) (fun t => t.trs.cap = 800 && t.trs.res = 0) = true := by decide +kernel
/-- R384, R385: host version 4.0 negotiates the features of both sides; version 3 leaves a mismatch. -/
theorem test_negotiate :
    let s := fun v => { one with hif := { one.hif with c0Ring := 0x10166, hostVer := v, featHostLo := 0xFF } }
    gives (exec .hifNegGo (s 0x400)) (fun t => t.hif.featEn = 0xFF && !t.hif.mismatch) = true ∧
      gives (exec .hifNegGo (s 0x300)) (fun t => t.hif.mismatch) = true := by decide +kernel
/-- R404: the record stored into the last slot but one leaves the last; the next is LDG_OVERFLOW in its place. -/
theorem test_ledgerFull : gives (exec .ledgerStore (led 16383 0)) (fun t =>
    t.ldg.w = 16384 && (Tbl.get {} t.ldg.store 16383).code = 0xA810 && t.ldg.drop = 1) = true := by decide +kernel
/-- R344: a bad CRC is read again, a good message is taken. -/
theorem test_message : gives (exec (.stateMsg 3 { msg with surplus := 77 }) (clr pres)) (fun t =>
    (t.getLnk 3).surplus = 77 && (t.getLnk 3).seqIn = 1 && t.hm.out.length = 1) = true := by decide +kernel
/-- R354: 250 µs, on an unverified clock, less the age and 2 µs: 248,000 · 0.960 ns after arrival. -/
theorem test_leaseExpiry : gives (exec (.lease 3 (lease 0)) (clr known)) (fun t =>
    ((t.getLnk 3).bor.map fun b => (b.amt, b.exp)) = [(64, 50000 + 238080)]) = true := by decide +kernel
/-- R460: HIGHZ is blocked while a rail runs. -/
theorem test_highz : gives (exec .highz (onRail one)) (fun t => !t.aud.padHold && t.aud.blocked = 1) = true ∧
    gives (exec .highz one) (fun t => t.aud.padHold) = true := by decide +kernel
/-- R415, Table 16.16: the second hang of a Teller within 1 s fails it. -/
theorem test_tellerFails :
    let s := { (at_ 999999999 one) with fw := { one.fw with core := [(0, { st := 1, lastHang := some 0 })] } }
    gives (exec (.fwCoreHang 0) s) (fun t => (t.getFwCore 0).st = 5 && t.fw.run) = true := by decide +kernel
/-- An idle step of a live block is 1 ns (log entry 7). -/
theorem test_idle : gives (step one) (fun t => t.now = 1) = true ∧ gives (step { one with pending := [.refLoss, .nop hd] }) (fun t =>
    t.now = 0 && t.pending = [.nop hd]) = true := by decide +kernel
end Sys2Proof.Tests
end

section
/-!
R313: a write of `TRS_POLICY` through the set-up window with a field out of range.
-/
namespace Sys2Proof.Machine

/-- R34: a write of an emulated register that is performed is answered OKAY. -/
theorem hsEmu_of_emulates {s : State} (h : Emulates s) (f : State → State) : hsEmu f s = .next (hsAnswer 0 0 (f s)) := by
  obtain ⟨hlive, hfw, hver⟩ := h
  simp [hsEmu, hlive, hfw, hver]

/-- R10, R34: with all strobes set, a write of a word between 0x3000 and 0xCFFF is the write of that emulated register. -/
theorem exec_registerWrite_of_emulates {s : State} {a : Word} (v : Word) (h : Emulates s) (hlo : 0x3000 ≤ wordAddr a)
    (hhi : wordAddr a < 0xD000) :
    exec (.registerWrite a ⟨v, 15⟩) s = .next (hsAnswer 0 0 (writeEmu (wordAddr a) v.toNat s)) := by
  have hhard : ¬ (wordAddr a < 0x2000 ∨ 0xF000 ≤ wordAddr a) := by omega
  have hhif : ¬ wordAddr a < 0x3000 := by omega
  have hfw : ¬ (0xD000 ≤ wordAddr a ∧ wordAddr a < 0xE000) := by omega
  calc exec (.registerWrite a ⟨v, 15⟩) s
      = execRegisterWrite a ⟨v, 15⟩ s := rfl
    _ = regWrite (wordAddr a) v.toNat s := by simp [execRegisterWrite]
    _ = hsEmu (writeEmu (wordAddr a) v.toNat) s := by rw [regWrite, if_neg hhard, if_neg hhif, if_neg hfw]
    _ = .next (hsAnswer 0 0 (writeEmu (wordAddr a) v.toNat s)) := hsEmu_of_emulates h _

/-- Table 11.5: the word 0x8028 of the emulated registers is `TRS_POLICY`. -/
theorem writeEmu_policy (v : Nat) (s : State) : writeEmu 0x8028 v s = policyWrite v s := rfl

/-- R313: out of range, the write only leaves TRS_PARAM_RANGE in `TRS_RES`. -/
theorem policyWrite_of_out_of_range {v : Nat} (s : State)
    (h : bits v 0 8 < 50 ∨ 100 < bits v 0 8 ∨ 120 < bits v 8 8 ∨ bits v 16 8 < 20 ∨ 100 < bits v 16 8 ∨ bits v 24 8 = 0) :
    policyWrite v s = trsRes 0x6005 s :=
  if_pos h

/-- A Treasury status that the subordinate port answers changes that port and `TRS_RES` alone. -/
theorem hsAnswer_trsRes_only (code data st : Nat) (s : State) : Only [.hs, .trs] s (hsAnswer code data (trsRes st s)) :=
  ((trsRes_keeps st s).only.mono (by decide)).trans ((hsAnswer_keeps code data _).only.mono (by decide))

/-- Settles O60: the write reaches `policyWrite`, whose range test refuses it before any field is set. -/
theorem policyOutOfRangeDiscarded : Obligations.PolicyOutOfRangeDiscarded := by
  intro s a v hemu haddr floorMax preMax lguard credMax hrange
  refine ⟨hsAnswer 0 0 (trsRes 0x6005 s), ?_, rfl, hsAnswer_trsRes_only ..⟩
  have hexec := exec_registerWrite_of_emulates (a := a) v hemu (by omega) (by omega)
  rw [hexec, haddr, writeEmu_policy, policyWrite_of_out_of_range s hrange]

end Sys2Proof.Machine
end


section
/-!
R472: the register of the last reset. `Calm` says that an operation is no reset; the rules here say how calm operations
compose, and that an operation that leaves the power part of the state alone is calm by its `Keeps`.
-/
namespace Sys2Proof.Machine

/-- From `s` to `t` no reset happens: CAUSE and WARM_CNT are unchanged, the sequence of Table 1.9 does not fall back, and no
warm reset comes to wait for a completion but one whose cause is among `ks`. -/
structure Calm (ks : List Nat) (s t : State) : Prop where
  cause : t.pwr.cause = s.pwr.cause
  count : t.pwr.warmCnt = s.pwr.warmCnt
  step : s.pwr.step ≤ t.pwr.step
  want : t.pwr.wantWarm = s.pwr.wantWarm ∨ ∃ k ∈ ks, t.pwr.wantWarm = some k

/-- The outcome of a descriptor's body is calm, whether it completes or waits. -/
def CalmD (ks : List Nat) (s : State) : DescOut → Prop
  | .done _ _ t => Calm ks s t
  | .wait t => Calm ks s t

section Rules
variable {ks : List Nat} {ps : List Area} {r s t : State}

theorem Calm.refl (s : State) : Calm ks s s := ⟨rfl, rfl, le_rfl, .inl rfl⟩

/-- A calm operation after calm ones. -/
theorem Calm.after (g : Calm ks s t) (h : Calm ks r s) : Calm ks r t where
  cause := g.cause.trans h.cause
  count := g.count.trans h.count
  step := h.step.trans g.step
  want := g.want.elim (fun e => e ▸ h.want) .inr

theorem Keeps.pwr_eq (g : Keeps ps s t) (hp : ps.contains .pwr = false) : t.pwr = s.pwr :=
  g.only.same .pwr (by simpa using hp)

/-- What leaves the power part alone is calm. -/
theorem Keeps.calm (g : Keeps ps s t) (hp : ps.contains .pwr = false) : Calm ks s t := by
  have e : t.pwr = s.pwr := g.pwr_eq hp
  exact ⟨by rw [e], by rw [e], by rw [e], .inl (by rw [e])⟩

/-- An operation that leaves the power part alone after calm ones. -/
theorem Keeps.after (g : Keeps ps s t) (hp : ps.contains .pwr = false) (h : Calm ks r s) : Calm ks r t :=
  (g.calm hp).after h

theorem Calm.ite {c : Prop} [Decidable c] (h : Calm ks r s) (g : Calm ks r t) : Calm ks r (if c then s else t) := by
  split <;> assumption

/-- A change of the power part that spares the register of the last reset and the request of a warm reset. -/
theorem Calm.onPwr {f : Power → Power} (hc : (f s.pwr).cause = s.pwr.cause)
    (hn : (f s.pwr).warmCnt = s.pwr.warmCnt) (hw : (f s.pwr).wantWarm = s.pwr.wantWarm)
    (hs : s.pwr.step ≤ (f s.pwr).step) (h : Calm ks r s) : Calm ks r (s.onPwr f) :=
  .after ⟨hc, hn, hs, .inl hw⟩ h

theorem forList_calm {α : Type} (l : List α) {f : α → State → State} (hf : ∀ a u, Calm ks u (f a u))
    (h : Calm ks r s) : Calm ks r (forList l f s) :=
  forList_ind (P := Calm ks r) (fun a _ u hu => (hf a u).after hu) h

theorem when_calm (p : Bool) {f : State → State} (hf : ∀ u, Calm ks u (f u)) (h : Calm ks r s) : Calm ks r (when p f s) :=
  .ite ((hf s).after h) h

theorem CalmD.ite {c : Prop} [Decidable c] {a b : DescOut} (h : CalmD ks s a) (g : CalmD ks s b) :
    CalmD ks s (if c then a else b) := by
  split <;> assumption

theorem CalmD.fail {st : Nat} (h : Calm ks s t) : CalmD ks s (DescOut.fail st t) := h

theorem KeepsD.calm {o : DescOut} (g : KeepsD ps s o) (hp : ps.contains .pwr = false) : CalmD ks s o := by
  cases o
  · exact Keeps.calm g hp
  · exact Keeps.calm g hp

theorem CalmD.after {o : DescOut} (g : CalmD ks s o) (h : Calm ks r s) : CalmD ks r o := by
  cases o
  · exact Calm.after g h
  · exact Calm.after g h

theorem withData_calm {f : List Nat → DescOut} (x : Ext) (n : Nat) (hf : ∀ b, CalmD ks r (f b)) (h : Calm ks r s) :
    CalmD ks r (withData x n s f) := by
  unfold withData
  split
  · exact .fail h
  · exact hf _

theorem descBegin_calm (c : Nat) (s : State) : Calm ks s (descBegin c s) :=
  (State.updCtx_keeps ..).after rfl <| (State.onHif_keeps ..).calm rfl

/-- A descriptor is as calm as its body. -/
theorem runDesc_calm {body : State → DescOut} (hb : ∀ u, CalmD ks u (body u)) (h : DescHdr) (d : DescSpec) (s : State) :
    Calm ks s (runDesc h d body s) := by
  unfold runDesc
  refine .ite (.refl s) (.ite ((complete_keeps ..).after rfl (descBegin_calm ..)) ?_)
  have hbody := (hb (descBegin h.ctx.val s)).after (descBegin_calm ..)
  split
  · next heq => rw [heq] at hbody; exact (complete_keeps ..).after rfl hbody
  · next heq => rw [heq] at hbody; exact (State.updCtx_keeps ..).after rfl (r := s) hbody

end Rules

end Sys2Proof.Machine
end

section
/-!
R472: of the operations that may change the power part of the state, each that is not a reset is calm.
-/
namespace Sys2Proof.Machine

section Clocks
variable {ks : List Nat}

theorem setAlarm_calm (b : Nat) (s : State) : Calm ks s (setAlarm b s) := .onPwr rfl rfl rfl le_rfl (.refl s)

theorem clrAlarm_calm (b : Nat) (s : State) : Calm ks s (clrAlarm b s) := .onPwr rfl rfl rfl le_rfl (.refl s)

theorem refStable_calm (s : State) : Calm ks s (refStable s) := by
  unfold refStable
  extract_lets first s1 s2 s3
  have h2 : Calm ks s s2 := (holdExitRec_keeps ..).after rfl <| (holdExit_keeps ..).after rfl <|
    (State.onClk_keeps ..).calm rfl
  have h3 : Calm ks s s3 := .ite ((emitClk_keeps ..).after rfl h2) h2
  exact .ite ((rootLock_keeps ..).after rfl h3) (.onPwr rfl rfl rfl (Nat.le_max_left ..) ((rootLock_keeps ..).after rfl h3))

theorem refLossCore_calm (cause : Nat) (ppm : Int) (s : State) : Calm ks s (refLossCore cause ppm s) :=
  (setAlarm_calm ..).after <| (stopAllClocks_keeps ..).after rfl <| (clrHoldEnter_keeps ..).after rfl <|
    forList_calm _ (fun _ _ => (State.updDom_keeps ..).calm rfl) <|
    (emitClk_keeps ..).after rfl <| (emitClk_keeps ..).after rfl <| (State.onTb_keeps ..).after rfl <|
    (State.onClk_keeps ..).calm rfl

theorem refBreak_calm {loss : State → State} (hl : ∀ u, Calm ks u (loss u)) (s : State) : Calm ks s (refBreak loss s) :=
  .ite (hl s) ((State.onClk_keeps ..).calm rfl)

theorem refWindow_calm (durPs : Nat) (s : State) : Calm ks s (refWindow durPs s) := by
  unfold refWindow
  extract_lets s1 s2
  have h1 : Calm ks s s1 := (State.onClk_keeps ..).calm rfl
  have h2 : Calm ks s s2 := (State.onClk_keeps ..).after rfl h1
  exact .ite (.ite ((refStable_calm ..).after h2) h2) ((refBreak_calm (refLossCore_calm _ _) _).after h1)

theorem driftAct_calm (d : Int) (n : Nat) (s : State) : Calm ks s (driftAct d n s) := by
  unfold driftAct
  extract_lets a s1 s2 b s3
  have h1 : Calm ks s s1 := (driftDerate_keeps ..).after rfl <| (State.onClk_keeps ..).calm rfl
  have h2 : Calm ks s s2 := .ite h1 ((emitClk_keeps ..).after rfl h1)
  have h3 : Calm ks s s3 := (State.onClk_keeps ..).calm rfl
  refine .ite (.ite ((refLossCore_calm ..).after h2) h2) (.ite h3 (.ite ?_ ?_))
  · exact (State.onClk_keeps ..).after rfl h3
  · exact (emitClk_keeps ..).after rfl <| (driftUnderate_keeps ..).after rfl <| (State.onClk_keeps ..).after rfl h3

theorem driftMeasure_calm (edges : List EdgeSample) (s : State) : Calm ks s (driftMeasure edges s) := by
  unfold driftMeasure
  extract_lets up rates n s1 s2 d s3 s4
  have h2 : Calm ks s s2 := (State.onClk_keeps ..).after rfl <|
    forList_calm _ (fun _ _ => (State.updLnk_keeps ..).calm rfl) <| (State.onClr_keeps ..).calm rfl
  have h4 : Calm ks s s4 := (driftAct_calm ..).after <| (State.onClr_keeps ..).after rfl <|
    (State.onClk_keeps ..).after rfl h2
  exact .ite (.refl s) (.ite (.ite h2 ((emitClk_keeps ..).after rfl h2)) (.ite ((refStable_calm ..).after h4) h4))

theorem pllFail_calm (s : State) : Calm ks s (pllFail s) :=
  (emitClk_keeps ..).after rfl <| (setAlarm_calm ..).after <| (stopAllClocks_keeps ..).after rfl <|
    forList_calm _ (fun _ _ => (State.updDom_keeps ..).calm rfl) ((State.onClk_keeps ..).calm rfl)

theorem pllFailStep_calm (s : State) : Calm ks s (pllFailStep s) := by
  unfold pllFailStep
  split
  · exact .ite (pllFail_calm s) (.refl s)
  · exact .refl s

theorem pllLock_calm (s : State) : Calm ks s (pllLock s) := by
  unfold pllLock
  split
  · next c _ =>
    extract_lets n s1 s2
    have h1 : Calm ks s s1 := (State.onClk_keeps ..).calm rfl
    exact .ite ((rootAdvance_keeps ..).after rfl (.ite (.onPwr rfl rfl rfl (Nat.le_max_left ..) h1) h1)) (.refl s)
  · exact .refl s

theorem pllLockStep_calm (s : State) : Calm ks s (pllLockStep s) :=
  .ite ((coldStart_keeps ..).after rfl (pllLock_calm s)) (pllLock_calm s)

theorem set7Advance_calm (s : State) : Calm ks s (set7Advance s) := by
  unfold set7Advance
  extract_lets s1 zero s2 s3
  have h2 : Calm ks s s2 :=
    forList_calm _ (fun _ u => .ite (.refl u) ((retarget_keeps ..).after rfl ((State.updReg_keeps ..).calm rfl)))
      ((State.onSns_keeps ..).calm rfl)
  have h3 : Calm ks s s3 :=
    .ite h2 ((State.onRail_keeps ..).after rfl <| forList_calm _ (fun _ _ => (stopClustersOf_keeps ..).calm rfl) h2)
  exact .ite ((emitSns_keeps ..).after rfl <| (setAlarm_calm ..).after h3) (.refl s)

theorem leafAck_calm (d : Nat) (s : State) : Calm ks s (leafAck d s) :=
  (rampDownLevels_keeps ..).after rfl <| (set7Advance_calm ..).after <|
  (rootAdvance_keeps ..).after rfl ((leafApply_keeps ..).calm rfl)

theorem leafFail_calm (d cause : Nat) (s : State) : Calm ks s (leafFail d cause s) := by
  have hstop {f : Dom → Dom} : Calm ks s ((domStopNow d s).updDom d f) :=
    (State.updDom_keeps ..).after rfl ((domStopNow_keeps ..).calm rfl)
  refine .ite (.refl s) (.ite (.ite hstop (.refl s)) ?_)
  exact (rampDownLevels_keeps ..).after rfl <| (rootAdvance_keeps ..).after rfl <| (emitClk_keeps ..).after rfl <|
    (setAlarm_calm ..).after <|
    forList_calm _ (fun _ _ => (cluStop_keeps ..).after rfl ((State.updClu_keeps ..).calm rfl)) hstop

end Clocks

section Sense
variable {ks : List Nat}

theorem noNeighbour_calm (i : Nat) (s : State) : Calm ks s (noNeighbour i s) :=
  .ite ((emitSns_keeps ..).after rfl <| (setAlarm_calm ..).after ((State.updSite_keeps ..).calm rfl))
    (.ite ((State.updSite_keeps ..).calm rfl) (.refl s))

theorem siteChanged_calm (i : Nat) (s : State) : Calm ks s (siteChanged i s) := by
  unfold siteChanged
  exact (oscSite_keeps ..).after rfl <| (dwellUpdate_keeps ..).after rfl <|
    forList_calm _ (fun _ _ => (tripPending_keeps ..).calm rfl) <|
    forList_calm _ noNeighbour_calm <| forList_calm _ (fun _ _ => (bandUpdate_keeps ..).calm rfl) (.refl s)

theorem siteResult_calm (i : Nat) (code : BitVec 16) (s : State) : Calm ks s (siteResult i code s) := by
  unfold siteResult
  extract_lets g x s' s1 s2 v used s3
  have h : Calm ks s s' := (oscComp_keeps ..).after rfl ((siteStamp_keeps ..).calm rfl)
  have h1 : Calm ks s s1 := (State.updSite_keeps ..).after rfl h
  have h2 : Calm ks s s2 := .ite ((emitSns_keeps ..).after rfl h1) h1
  refine .ite (.refl s) (.ite ((siteChanged_calm ..).after <| (sitePlausible_keeps ..).after rfl h2) ?_)
  exact (tapTemps_keeps ..).after rfl <| (siteChanged_calm ..).after <| (sitePlausible_keeps ..).after rfl <|
    (State.updSite_keeps ..).after rfl h

theorem thermTrip_calm (i : Nat) (s : State) : Calm ks s (thermTrip i s) := by
  unfold thermTrip
  split
  · exact .refl s
  · extract_lets l off trips third s1 s2 s3 s4 s5
    have h3 : Calm ks s s3 := (emitTrip_keeps ..).after rfl <|
      (frecTake_keeps ..).after rfl ((State.onAud_keeps ..).calm rfl)
    have h4 : Calm ks s s4 := .ite ((emitTrip_keeps ..).after rfl <| (setAlarm_calm ..).after h3) h3
    have h5 : Calm ks s s5 := by
      unfold s5
      split
      · exact .ite ((audAbandon_keeps ..).after rfl h4) h4
      · exact h4
    exact .ite ((fastStopAll_keeps ..).after rfl <| forList_calm _ (fun _ _ => (cluStop_keeps ..).calm rfl) h5) (.refl s)

theorem ringMacros_calm (kind ring lo hi : Nat) (bad : Bool) (s : State) : Calm ks s (ringMacros kind ring lo hi bad s) := by
  refine .ite (forList_calm _ (fun i u => ?_) (.refl s)) (.ite ?_ ?_)
  · have h : Calm ks u (siteChanged i (u.updSite i fun x => { x with ringFail := bad })) :=
      (siteChanged_calm ..).after ((State.updSite_keeps ..).calm rfl)
    exact .ite ((emitSns_keeps ..).after rfl h) h
  · exact forList_calm _ (fun _ _ => (State.updDet_keeps ..).calm rfl) (.refl s)
  · exact forList_calm _ (fun _ _ => (State.updMon_keeps ..).calm rfl) (.refl s)

theorem ringBreak_calm (kind ring first : Nat) (s : State) : Calm ks s (ringBreak kind ring first s) :=
  (emitSns_keeps ..).after rfl <| (ringMacros_calm ..).after ((State.onSns_keeps ..).calm rfl)

theorem ringFail_calm (kind ring first : Nat) (s : State) : Calm ks s (ringFail kind ring first s) :=
  .ite (ringBreak_calm ..) (.refl s)

theorem ringRetry_calm (kind ring : Nat) (stillFrom : Option Nat) (s : State) :
    Calm ks s (ringRetry kind ring stillFrom s) := by
  unfold ringRetry
  extract_lets k
  split
  · exact .refl s
  · next hi s1 _ _ _ _ =>
    have h1 : Calm ks s s1 := (State.onSns_keeps ..).calm rfl
    exact .ite (.refl s) (.ite (ringBreak_calm ..) (.ite h1 ((emitSns_keeps ..).after rfl <|
      (ringMacros_calm ..).after h1)))

theorem refExclude_calm (k : Nat) (s : State) : Calm ks s (refExclude k s) :=
  (emitSns_keeps ..).after rfl <| (setAlarm_calm ..).after ((State.onSns_keeps ..).calm rfl)

theorem refCompare_calm (a b c : Nat) (s : State) : Calm ks s (refCompare a b c s) := by
  unfold refCompare
  extract_lets ab ac bc n none_ alone pair bad inS s1 s2 s3
  have h1 : Calm ks s s1 := (State.onSns_keeps ..).calm rfl
  have h2 : Calm ks s s2 := by
    unfold s2
    split
    · exact (refExclude_calm ..).after h1
    · exact h1
  have h3 : Calm ks s s3 := .ite ((rampDownLevels_keeps ..).after rfl <| (set7Advance_calm ..).after <|
    (noMajorityStep1_keeps ..).after rfl <| (State.onSns_keeps ..).after rfl h2) h2
  exact (State.onSns_keeps ..).after rfl h3

end Sense

section LoopsAndFrames
variable {ks : List Nat}

theorem loopFallback_calm (cause : Nat) (rmax : Int) (c j : Nat) (s : State) : Calm ks s (loopFallback cause rmax c j s) := by
  unfold loopFallback
  extract_lets l times latch s1
  have h1 : Calm ks s s1 := (emitTeller_keeps ..).after rfl ((State.updLp_keeps ..).calm rfl)
  exact .ite ((setAlarm_calm ..).after <| (emitTeller_keeps ..).after rfl h1) h1

theorem supervise_calm (c j : Nat) (s : State) : Calm ks s (supervise c j s) := by
  unfold supervise
  extract_lets g lim obs rmax s1 l
  have h1 : Calm ks s s1 := (State.updLp_keeps ..).calm rfl
  have hback : Calm ks s (loopReturn c j s1) := (loopReturn_keeps ..).after rfl h1
  have hfall (k : Nat) : Calm ks s (loopFallback k rmax c j s1) := (loopFallback_calm ..).after h1
  exact .ite (.refl s) (.ite (.ite (.ite hback h1) (.ite hback h1)) (.ite (hfall 1) (.ite (hfall 2) h1)))

theorem saturated_calm (c j : Nat) (s : State) : Calm ks s (saturated c j s) := by
  unfold saturated
  extract_lets l
  split
  · exact .refl s
  · next s1 _ _ _ =>
    have h1 : Calm ks s s1 := (emitTeller_keeps ..).after rfl ((State.updLp_keeps ..).calm rfl)
    exact .ite (.ite ((loopFallback_calm ..).after h1) h1) (.refl s)

theorem selectStage_calm (c : Nat) (s : State) : Calm ks s (selectStage c s) :=
  (State.updClu_keeps ..).after rfl <| forList_calm _ (fun _ _ => (State.updLp_keeps ..).calm rfl) <|
    forList_calm _ (saturated_calm c) <| forList_calm _ (fun _ _ => (loopRun_keeps ..).calm rfl) (.refl s)

theorem superviseAll_calm (s : State) : Calm ks s (superviseAll s) :=
  .ite (.refl s) (forList_calm _ (fun c _ => forList_calm _ (supervise_calm c) (.refl _)) (.refl s))

theorem loopBoundary_calm (s : State) : Calm ks s (loopBoundary s) := by
  refine (superviseAll_calm _).after (forList_calm _ (fun c u => ?_) ?_)
  · refine forList_calm _ (fun _ _ => (modeApply_keeps ..).calm rfl) ((State.updClu_keeps ..).after rfl ?_)
    split
    · exact (emitClerk_keeps ..).after rfl ((State.updClu_keeps ..).calm rfl)
    · exact .refl u
  · exact forList_calm _ (fun _ _ => (loopWrite_keeps ..).calm rfl) ((State.onLoop_keeps ..).calm rfl)

theorem commitSlot_calm (k : Nat) (s : State) : Calm ks s (commitSlot k s) := by
  unfold commitSlot
  split
  · exact .refl s
  · exact .ite (selectStage_calm ..) ((allocate_keeps ..).calm rfl)

theorem commitSlots_calm (s : State) : Calm ks s (commitSlots s) :=
  forList_calm _ commitSlot_calm ((State.onFrm_keeps ..).calm rfl)

theorem cubeSwap_calm (k : Nat) (s : State) : Calm ks s (cubeSwap k s) := by
  unfold cubeSwap
  split
  · exact (emitTly_keeps ..).after rfl ((State.onTly_keeps ..).calm rfl)
  · exact .ite ((emitTly_keeps ..).after rfl ((State.onTly_keeps ..).calm rfl))
      (.ite ((setAlarm_calm ..).after ((emitTly_keeps ..).calm rfl)) (.refl s))

theorem cubeSwaps_calm (s : State) : Calm ks s (cubeSwaps s) :=
  forList_calm _ cubeSwap_calm ((State.onTly_keeps ..).calm rfl)

theorem frameBoundary_calm (s : State) : Calm ks s (frameBoundary s) :=
  (hintEpochs_keeps ..).after rfl <| forList_calm _ (fun _ _ => (hintDue_keeps ..).calm rfl) <|
    (trsBoundary_keeps ..).after rfl <| (clrBoundary_keeps ..).after rfl <| (loopBoundary_calm _).after <|
    (tableInstall_keeps ..).after rfl <| (requiredBack_keeps ..).after rfl <| (hostShed_keeps ..).after rfl <|
    (restoreDue_keeps ..).after rfl <| (shedDue_keeps ..).after rfl <|
    forList_calm _ (fun _ _ => (loopBackstop_keeps ..).calm rfl) <|
    (cubeRejoins_keeps ..).after rfl (cubeSwaps_calm s)

theorem frameStart_calm (stepPs : Nat) (s : State) : Calm ks s (frameStart stepPs s) :=
  .ite (.refl s) <| (planSlots_keeps ..).after rfl <| (State.onFrm_keeps ..).after rfl <|
    (State.onTly_keeps ..).after rfl <|
    (snapshotInputs_keeps ..).after rfl <| (frameBoundary_calm _).after <|
    (State.onTb_keeps ..).after rfl ((State.onFrm_keeps ..).calm rfl)

theorem limFrame_calm (s : State) : Calm ks s (limFrame s) := .onPwr rfl rfl rfl le_rfl (.refl s)

theorem frameCommit_calm (s : State) : Calm ks s (frameCommit s) := by
  unfold frameCommit
  extract_lets f s1 s2 s3 s4 s5
  have h3 : Calm ks s s3 := (mapAll_keeps ..).after rfl <| (allocCommit_keeps ..).after rfl <|
    (frameMeasure_keeps ..).after rfl <|
    (netFrame_keeps ..).after rfl <| (tlyCommit_keeps ..).after rfl <| (frameCounts_keeps ..).after rfl <|
    (missRest_keeps ..).after rfl <|
    commitSlots_calm s
  have h4 : Calm ks s s4 := (limFrame_calm _).after <| (trsFrame_keeps ..).after rfl <| (waitFrame_keeps ..).after rfl <|
    (fcFrame_keeps ..).after rfl h3
  exact .ite (.refl s) <| (confirmFrame_keeps ..).after rfl <| (State.onDma_keeps ..).after rfl <|
    (State.onFrm_keeps ..).after rfl <|
    (State.onClr_keeps ..).after rfl h4

end LoopsAndFrames

section Registers
variable {ks : List Nat}

theorem fbForce_calm (on : Bool) (c j : Nat) (s : State) : Calm ks s (fbForce on c j s) := by
  unfold fbForce
  extract_lets l s1
  have h1 : Calm ks s s1 := (State.updLp_keeps ..).calm rfl
  exact .ite (.ite ((State.updLp_keeps ..).after rfl h1) ((loopFallback_calm ..).after h1)) h1

theorem supSatWrite_calm (v : Nat) (s : State) : Calm ks s (supSatWrite v s) := by
  unfold supSatWrite
  split
  · exact (loopRes_keeps ..).calm rfl
  · extract_lets c j l new s1
    have h1 : Calm ks s s1 := when_calm _ (fun _ => (clrLatch_keeps ..).calm rfl) (fbForce_calm ..)
    have hres (k : Nat) : Calm ks s (loopRes k s1) := (loopRes_keeps ..).after rfl h1
    exact .ite (hres 0) (.ite (hres _) (.ite (hres _) ((loopRes_keeps ..).after rfl <|
      (State.onLoop_keeps ..).after rfl h1)))

theorem alarmBit_calm (b : Nat) (s : State) : Calm ks s (alarmBit b s) :=
  .ite (when_calm _ (fun _ => (majorityBack_keeps ..).calm rfl) (clrAlarm_calm b s)) (.refl s)

theorem limAlarm_calm (v : Nat) (s : State) : Calm ks s (limAlarm v s) := forList_calm _ alarmBit_calm (.refl s)

theorem writeHard_calm (a v : Nat) (s : State) : Calm ks s (writeHard a v s) :=
  .ite (limAlarm_calm ..) (.ite ((cursorWrite_keeps ..).calm rfl) (.ite ((doorbell_keeps ..).calm rfl) (.refl s)))

theorem writeLoop_calm (a v : Nat) (s : State) : Calm ks s (writeLoop a v s) := by
  unfold writeLoop
  split
  · exact (State.onLoop_keeps ..).calm rfl
  · exact (slopeWrite_keeps ..).calm rfl
  · exact (modeGo_keeps ..).calm rfl
  · exact (State.onLoop_keeps ..).calm rfl
  · exact (tgtWrite_keeps ..).calm rfl
  · exact (lockedWrite_keeps ..).calm rfl
  · exact (lockedWrite_keeps ..).calm rfl
  · exact (lockedWrite_keeps ..).calm rfl
  · exact supSatWrite_calm ..
  · exact (lockedWrite_keeps ..).calm rfl
  · exact (State.onLoop_keeps ..).calm rfl
  · exact .refl s

theorem writeEmu_calm (a v : Nat) (s : State) : Calm ks s (writeEmu a v s) := by
  unfold writeEmu
  split
  · exact (writeClk_keeps ..).calm rfl
  · exact (writeSns_keeps ..).calm rfl
  · exact (writeRail_keeps ..).calm rfl
  · exact (writeTly_keeps ..).calm rfl
  · exact writeLoop_calm ..
  · exact .ite ((writeTrs_keeps ..).calm rfl) ((writeFc_keeps ..).calm rfl)
  · exact (writeSyn_keeps ..).calm rfl
  · exact (writeClr_keeps ..).calm rfl
  · exact (writeDma_keeps ..).calm rfl
  · exact (writeDma_keeps ..).calm rfl
  · exact (writeAud_keeps ..).calm rfl

end Registers

section AuditAndProtection
variable {ks : List Nat}

theorem unitOut_calm (kind i : Nat) (s : State) : Calm ks s (unitOut kind i s) := by
  unfold unitOut
  split
  · exact (State.onTly_keeps ..).calm rfl
  · exact (presetLoops_keeps ..).after rfl ((State.updFwCore_keeps ..).calm rfl)
  · exact (siteChanged_calm ..).after ((State.updSite_keeps ..).calm rfl)
  · exact (returnAll_keeps ..).calm rfl
  · exact forList_calm _ (fun _ _ => (shedUpdate_keeps ..).calm rfl) <|
      forList_calm _ (fun _ _ => (State.updPh_keeps ..).calm rfl) (.refl s)

theorem audOut_calm (kind i : Nat) (auto : Bool) (s : State) : Calm ks s (audOut kind i auto s) :=
  .ite (.refl s) ((emitClerk_keeps ..).after rfl <| (State.updUnit_keeps ..).after rfl (unitOut_calm ..))

theorem audBegin_calm (kind i : Nat) (auto ret : Bool) (h : Option DescHdr) (s : State) :
    Calm ks s (audBegin kind i auto ret h s) := by
  unfold audBegin
  extract_lets st s1
  have h1 : Calm ks s s1 := .ite (audOut_calm ..)
    (.ite (.ite ((State.onTly_keeps ..).calm rfl) (.ite ((State.updFwCore_keeps ..).calm rfl) (.refl s))) (.refl s))
  exact (State.onAud_keeps ..).after rfl <| (State.updUnit_keeps ..).after rfl h1

theorem bodyAudTest_calm (h : DescHdr) (kind i : Nat) (ret force : Bool) (s : State) :
    CalmD ks s (bodyAudTest h kind i ret force s) :=
  .ite (.fail (.refl s)) (show Calm ks s _ from audBegin_calm ..)

theorem bodyAudRemove_calm (kind i : Nat) (ret force : Bool) (s : State) : CalmD ks s (bodyAudRemove kind i ret force s) :=
  .ite (.fail (.refl s)) (.ite (.fail (.refl s)) (show Calm ks s _ from audOut_calm ..))

theorem unitBack_calm (kind i : Nat) (s : State) : Calm ks s (unitBack kind i s) := by
  unfold unitBack
  split
  · exact (State.onTly_keeps ..).calm rfl
  · exact (presetLoops_keeps ..).after rfl ((State.updFwCore_keeps ..).calm rfl)
  · exact (emitSns_keeps ..).after rfl <| (siteChanged_calm ..).after ((State.updSite_keeps ..).calm rfl)
  · exact forList_calm _ (fun _ _ => (State.updPh_keeps ..).calm rfl) (.refl s)

theorem audBack_calm (kind i : Nat) (s : State) : Calm ks s (audBack kind i s) :=
  (emitClerk_keeps ..).after rfl <| (State.updUnit_keeps ..).after rfl (unitBack_calm ..)

theorem bodyAudReturn_calm (kind i : Nat) (s : State) : CalmD ks s (bodyAudReturn kind i s) := by
  unfold bodyAudReturn
  split
  · exact .fail (.refl s)
  · exact .fail (.refl s)
  · exact .fail (.refl s)
  · exact audBack_calm ..
  · exact .fail (.refl s)

theorem audDone_calm (fail : Option (Nat × Nat)) (s : State) : Calm ks s (audDone fail s) := by
  unfold audDone
  split
  · exact .refl s
  · extract_lets k code s1 s3 s2
    have h1 : Calm ks s s1 := (State.updUnit_keeps ..).after rfl ((State.onAud_keeps ..).calm rfl)
    have h2 : Calm ks s s2 := by
      unfold s2
      split
      · exact .ite ((audBack_calm ..).after <| (emitClerk_keeps ..).after rfl h1) ((emitClerk_keeps ..).after rfl h1)
      · exact (setAlarm_calm ..).after <| (emitClerk_keeps ..).after rfl h1
    split
    · exact (complete_keeps ..).after rfl h2
    · exact h2

theorem audSchedule_calm (s : State) : Calm ks s (audSchedule s) := by
  unfold audSchedule
  extract_lets s0
  have h0 : Calm ks s s0 := (State.onAud_keeps ..).calm rfl
  refine .ite (.refl s) ?_
  split
  · exact h0
  · extract_lets s1
    have h1 : Calm ks s s1 := (State.onAud_keeps ..).after rfl h0
    exact .ite h1 ((audBegin_calm ..).after h1)

theorem wrapHold_calm (code : Nat) (f : Audit → Audit) (s : State) : Calm ks s (wrapHold code f s) :=
  .ite (.onPwr rfl rfl rfl le_rfl <| (State.onAud_keeps ..).after rfl <|
    forList_calm _ (fun _ _ => (domStopNow_keeps ..).calm rfl) <|
      forList_calm _ (fun _ _ => (phOff_keeps ..).calm rfl) (.refl s))
    ((emitRail_keeps ..).after rfl ((State.onAud_keeps ..).calm rfl))

theorem warmGo_calm (s : State) : Calm ks s (warmGo s) :=
  .ite ((State.onFw_keeps ..).after rfl (.onPwr rfl rfl rfl le_rfl (.refl s))) (.refl s)

theorem frecCommit_calm (ok : Bool) (s : State) : Calm ks s (frecCommit ok s) :=
  .ite ((warmGo_calm _).after ((frecCommitted_keeps ..).calm rfl)) (.refl s)

theorem inputFail_calm (pin : PinEvent) (s : State) : Calm ks s (inputFail pin s) := by
  unfold inputFail
  split
  · exact .onPwr rfl rfl rfl le_rfl (.refl s)
  · extract_lets s1 off
    have h1 : Calm ks s s1 := .onPwr rfl rfl rfl le_rfl (.refl s)
    exact .ite h1 ((setAlarm_calm ..).after <| (fastStopAll_keeps ..).after rfl <| (emitRail_keeps ..).after rfl <|
      (frecTake_keeps ..).after rfl h1)

theorem boardPin_calm (pin : BoardPin) (s : State) : Calm ks s (boardPin pin s) := by
  unfold boardPin
  split
  · exact inputFail_calm ..
  · exact .onPwr rfl rfl rfl le_rfl (.refl s)

theorem vanaLoss_calm (ns : Nat) (s : State) : Calm ks s (vanaLoss ns s) :=
  .ite (.refl s) <| (setAlarm_calm ..).after <| (stopAllClocks_keeps ..).after rfl <| (State.onRail_keeps ..).after rfl <|
    forList_calm _ (fun _ _ => (State.updProt_keeps ..).after rfl <|
    (railPhasesTo_keeps ..).after rfl ((railPenLow_keeps ..).calm rfl)) <|
    .onPwr rfl rfl rfl le_rfl <| (emitRail_keeps ..).after rfl ((frecTake_keeps ..).calm rfl)

end AuditAndProtection

section Firmware
variable {ks : List Nat}

theorem cfgCold_calm (s : State) : Calm ks s (cfgCold s) := by
  unfold cfgCold
  extract_lets r t
  have ht : Calm ks s t := (cfgStaged_keeps ..).calm rfl
  have hbad : Calm ks s (setAlarm 14 (emitVault 0xB143 0 0 0 0 t)) := (setAlarm_calm ..).after <|
    (emitVault_keeps ..).after rfl ht
  refine .ite ((loadCold_keeps ..).after rfl ht) ?_
  split
  · exact .ite ((loadCold_keeps ..).after rfl <| (cfgUse_keeps ..).after rfl ht) hbad
  · exact hbad

theorem vaultError_calm (test : Nat) (s : State) : Calm ks s (vaultError test s) :=
  .ite (.refl s) <| (setAlarm_calm ..).after <| (vaultWipe_keeps ..).after rfl <|
    (emitVault_keeps ..).after rfl ((State.onFw_keeps ..).calm rfl)

theorem gateSample_calm (s : State) : Calm ks s (gateSample s) :=
  .ite ((emitVault_keeps ..).after rfl ((State.onFw_keeps ..).calm rfl)) <|
    .ite ((setAlarm_calm ..).after <| (emitVault_keeps ..).after rfl ((State.onFw_keeps ..).calm rfl)) (.refl s)

theorem refselSample_calm (s : State) : Calm ks s (refselSample s) :=
  .ite ((setAlarm_calm ..).after ((emitClk_keeps ..).calm rfl)) (.refl s)

theorem vaultCold_calm (selftest : Option Nat) (s : State) : Calm ks s (vaultCold selftest s) := by
  unfold vaultCold
  split
  · exact vaultError_calm ..
  · exact (drawInc_keeps ..).after rfl <| (ringInit_keeps ..).after rfl <| (dirWrite_keeps ..).after rfl <|
      (cfgCold_calm _).after <|
      (State.onFw_keeps ..).after rfl ((vaultWipe_keeps ..).calm rfl)

theorem coresStart_calm (s : State) : Calm ks s (coresStart s) :=
  (hmResume_keeps ..).after rfl <| (State.onFw_keeps ..).after rfl <|
    .onPwr rfl rfl rfl (Nat.le_max_left ..) <| forList_calm _ (fun _ _ => (State.updFwCore_keeps ..).calm rfl) (.refl s)

theorem bootSlot_calm (cold : Bool) (k : Nat) (s : State) : Calm ks s (bootSlot cold k s) := by
  unfold bootSlot
  extract_lets g s1 cause s2 s3
  have h3 : Calm ks s s3 := (confTally_keeps ..).after rfl <| (emitVault_keeps ..).after rfl <|
    (coresStart_calm _).after ((State.onFw_keeps ..).calm rfl)
  exact .ite h3 ((clrRejoin_keeps ..).after rfl h3)

theorem bootNone_calm (s : State) : Calm ks s (bootNone s) :=
  (setAlarm_calm ..).after <| (emitVault_keeps ..).after rfl <| (hmResume_keeps ..).after rfl <|
  (stopAllClocks_keeps ..).after rfl <|
    .onPwr rfl rfl rfl le_rfl ((State.onFw_keeps ..).calm rfl)

theorem fwBoot_calm (s : State) : Calm ks s (fwBoot s) := by
  unfold fwBoot
  extract_lets cold s0 r0 s1 r
  have h0 : Calm ks s s0 := .ite (.refl s) ((nvBoot_keeps ..).calm rfl)
  have hcfg : Calm ks s r0.2 := (cfgStaged_keeps ..).after rfl h0
  have h1 : Calm ks s s1 := .ite h0 (.ite ((loadWarm_keeps ..).after rfl hcfg) hcfg)
  have hpick : Calm ks s (dirWrite r.2) := (dirWrite_keeps ..).after rfl <| (bootPick_keeps ..).after rfl h1
  refine .ite (.refl s) ?_
  split
  · exact (bootSlot_calm ..).after hpick
  · exact (bootNone_calm _).after hpick

theorem vfuseAlarm_calm (mv : Nat) (s : State) : Calm ks s (vfuseAlarm mv s) := by
  unfold vfuseAlarm
  extract_lets s1
  have h1 : Calm ks s s1 := (State.onFw_keeps ..).after rfl <| .onPwr rfl rfl rfl le_rfl (.refl s)
  exact .ite ((setAlarm_calm ..).after <| (emitVault_keeps ..).after rfl <| (State.onFw_keeps ..).after rfl h1) h1

theorem vaultHang_calm (result : Nat) (s : State) : Calm ks s (vaultHang result s) := by
  unfold vaultHang
  extract_lets s1 s2
  have h1 : Calm ks s s1 := (emitVault_keeps ..).after rfl ((vaultRestart_keeps ..).calm rfl)
  have h2 : Calm ks s s2 := .ite ((updEnd_keeps ..).after rfl h1) h1
  exact .ite ((vaultError_calm ..).after h2) h2

theorem partnerHang_calm (t : Nat) (s : State) : Calm ks s (partnerHang t s) := by
  refine forList_calm _ (fun k u => ?_) (.refl s)
  extract_lets u1
  have h1 : Calm ks u u1 := by
    unfold u1
    split
    · exact .ite ((audAbandon_keeps ..).calm rfl) (.refl u)
    · exact .refl u
  exact .ite h1 ((audBack_calm ..).after h1)

theorem tellerHang_calm (t : Nat) (s : State) : Calm ks s (tellerHang t s) :=
  (partnerHang_calm ..).after <| (presetLoops_keeps ..).after rfl ((State.updFwCore_keeps ..).calm rfl)

end Firmware

section Fuses
variable {ks : List Nat}

theorem fuseSession_calm (kind index result : Nat) (x : Ext) (s : State) : CalmD ks s (fuseSession kind index result x s) := by
  unfold fuseSession
  split
  · exact (emitVault_keeps ..).after rfl ((State.onFw_keeps ..).calm rfl)
  · exact (State.drawn_keeps ..).after rfl <| (setAlarm_calm ..).after <| (emitVault_keeps ..).after rfl <|
      (State.onFree_keeps ..).after rfl ((State.onFw_keeps ..).calm rfl)

theorem fuseBody_calm (kind index : Nat) (o : Buf) (x : Ext) (pre : State → Nat)
    (keys : State → Option (List Nat)) (s : State) : CalmD ks s (fuseBody kind index o x pre keys s) := by
  unfold fuseBody
  extract_lets t st
  have ht : Calm ks s t := (fuseSense_keeps ..).calm rfl
  refine .ite (.fail ht) (.ite (.fail ht) ?_)
  split
  · exact (fuseSession_calm ..).after ht
  · exact withData_calm _ _ (fun _ => .ite (.fail ht) ((fuseSession_calm ..).after ht)) ht

theorem bodyFuseInt_calm (index : Nat) (o : Buf) (x : Ext) (s : State) : CalmD ks s (bodyFuseInt index o x s) :=
  .ite (.fail (.refl s)) (fuseBody_calm ..)

theorem bodyFuseGate_calm (o : Buf) (x : Ext) (s : State) : CalmD ks s (bodyFuseGate o x s) := fuseBody_calm ..

theorem bodyFuseBoot_calm (index : Nat) (o : Buf) (x : Ext) (s : State) : CalmD ks s (bodyFuseBoot index o x s) :=
  .ite (.fail (.refl s)) (fuseBody_calm ..)

theorem bodyFuseSvn_calm (target : Nat) (x : Ext) (s : State) : CalmD ks s (bodyFuseSvn target x s) := by
  have ht : Calm ks s (fuseSense x s) := (fuseSense_keeps ..).calm rfl
  exact .ite (.fail ht) (.ite (.fail ht) ((fuseSession_calm ..).after ht))

theorem bodyRevokeInt_calm (index : Nat) (o : Buf) (x : Ext) (s : State) : CalmD ks s (bodyRevokeInt index o x s) :=
  .ite (.fail (.refl s)) (fuseBody_calm ..)

theorem bodyRevokeKol_calm (index : Nat) (o : Buf) (x : Ext) (s : State) : CalmD ks s (bodyRevokeKol index o x s) :=
  .ite (.fail (.refl s)) (fuseBody_calm ..)

theorem bodyZeroPerm_calm (key : Nat) (x : Ext) (s : State) : CalmD ks s (bodyZeroPerm key x s) := by
  unfold bodyZeroPerm
  extract_lets t st
  have ht : Calm ks s t := (fuseSense_keeps ..).calm rfl
  refine .ite (.fail (.refl s)) (.ite (.fail ht) (.ite (.fail ht) ?_))
  split
  · exact (emitVault_keeps ..).after rfl <| (State.onFw_keeps ..).after rfl ht
  · exact (fuseSession_calm ..).after ht

end Fuses

section Descriptors
variable {ks : List Nat}

/-- R379: WARM_RESET asks for a warm reset of cause 3. -/
theorem bodyWarmReset_calm (key : Nat) (s : State) (hk : 3 ∈ ks) : CalmD ks s (bodyWarmReset key s) :=
  .ite (.fail (.refl s)) ⟨rfl, rfl, le_rfl, .inr ⟨3, hk, rfl⟩⟩

/-- R439: FW_ACTIVATE asks for a warm reset of cause 5, and only with `MODE` 1. -/
theorem bodyActivate_calm (mode : Nat) (x : Ext) (s : State) (hk : mode = 1 → 5 ∈ ks) :
    CalmD ks s (bodyActivate mode x s) := by
  unfold bodyActivate
  extract_lets k st s1
  have h1 : Calm ks s s1 := (emitVault_keeps ..).after rfl <| (dirWrite_keeps ..).after rfl ((State.onFw_keeps ..).calm rfl)
  refine .ite (.fail (.refl s)) (.ite (.fail (.refl s)) (.ite (.fail (.refl s)) ?_))
  change Calm ks s (if mode = 1 then _ else _)
  split
  · next hm => exact .after (s := s1) ⟨rfl, rfl, le_rfl, .inr ⟨5, hk hm, rfl⟩⟩ h1
  · exact h1

/-- The causes of the warm resets that a descriptor asks for (Table 18.3). -/
abbrev askedCauses : List Nat := [3, 5]

theorem planHif_calm {h : DescHdr} {b : List Nat} {x : Ext} {op : Nat} {p : Plan} (hp : planHif h b x op = some p)
    (u : State) : CalmD askedCauses u (p.2 u) := by
  unfold planHif at hp; dsimp only at hp
  split at hp <;> cases hp <;> dsimp only
  · exact (bodyNop_keeps ..).calm rfl
  · exact (bodyIdentify_keeps ..).calm rfl
  · exact bodyWarmReset_calm _ _ (by decide)
  · exact (controlStart_keeps ..).calm rfl
  · exact (bodyCtxOpen_keeps ..).calm rfl
  · exact (bodyCtxClose_keeps ..).calm rfl
  · exact (bodyCtxParam_keeps ..).calm rfl
  · exact (bodyCtxPlace_keeps ..).calm rfl
  · exact (bodyFloorSet_keeps ..).calm rfl
  · exact (bodyCtxTelem_keeps ..).calm rfl
  · rcases fld b 8 1 with _ | _ | k
    · exact (railCtrlStart_keeps ..).calm rfl
    · exact (railCtrlStop_keeps ..).calm rfl
    · exact .fail (.refl u)
  · exact (bodyAmBaseline_keeps ..).calm rfl

theorem planTly_calm {b : List Nat} {x : Ext} {op : Nat} {p : Plan} (hp : planTly b x op = some p)
    (u : State) : CalmD ks u (p.2 u) := by
  unfold planTly at hp; dsimp only at hp
  split at hp <;> cases hp <;> dsimp only
  · exact (bodyTlyInstall_keeps ..).calm rfl
  · exact (bodyTlyRemove_keeps ..).calm rfl
  · exact (bodyTlySetReg_keeps ..).calm rfl
  · exact (bodyTlySetRemove_keeps ..).calm rfl
  · exact (bodySlotTable_keeps ..).calm rfl
  · exact (bodyLoopCoef_keeps ..).calm rfl
  · exact (bodyVftLoad_keeps ..).calm rfl
  · rcases fld b 8 1 with _ | _ | k
    · exact (bodyHintClassEntry_keeps ..).calm rfl
    · exact (bodyHintClassPerm_keeps ..).calm rfl
    · exact .fail (.refl u)

theorem planSyn_calm {h : DescHdr} {b : List Nat} {op : Nat} {p : Plan} (hp : planSyn h b op = some p)
    (u : State) : CalmD ks u (p.2 u) := by
  unfold planSyn at hp; dsimp only at hp
  split at hp <;> cases hp <;> dsimp only
  · exact (planAct_keeps ..).calm rfl
  · exact .ite (.fail (.refl u)) ((bodySynMap_keeps ..).calm rfl)
  · exact (bodySynRead_keeps ..).calm rfl
  · exact (bodyClrConfig_keeps ..).calm rfl
  · exact (bodyClrLink_keeps ..).calm rfl

theorem planDma_calm {h : DescHdr} {b : List Nat} {x : Ext} {op : Nat} {p : Plan} (hp : planDma h b x op = some p)
    (u : State) : CalmD ks u (p.2 u) := by
  unfold planDma at hp
  split at hp <;> cases hp <;> dsimp only
  · exact (bodyDmaXfer_keeps ..).calm rfl
  · exact (bodyDmaStream_keeps ..).calm rfl
  · exact (bodyLdgDrain_keeps ..).calm rfl
  · exact (bodyLdgRearm_keeps ..).calm rfl
  · exact (bodyFrecCopy_keeps ..).calm rfl
  · exact bodyAudTest_calm ..
  · exact bodyAudRemove_calm ..
  · exact bodyAudReturn_calm ..

theorem planFw_calm {h : DescHdr} {b : List Nat} {x : Ext} {op : Nat} {p : Plan} (hp : planFw h b x op = some p)
    (u : State) : CalmD askedCauses u (p.2 u) := by
  unfold planFw at hp; dsimp only at hp
  split at hp
  case h_8 =>
    split at hp <;> cases hp
    · exact bodyFuseInt_calm ..
    · exact bodyFuseGate_calm ..
    · exact bodyFuseBoot_calm ..
    · exact bodyFuseSvn_calm ..
    · exact bodyRevokeInt_calm ..
    · exact bodyRevokeKol_calm ..
    · exact .fail (.refl u)
  case h_9 =>
    split at hp <;> cases hp
    · exact (bodyNonce_keeps ..).calm rfl
    · exact (bodyToken_keeps ..).calm rfl
    · exact .fail (.refl u)
  case h_10 =>
    split at hp <;> cases hp
    · exact (bodyZeroVol_keeps ..).calm rfl
    · exact bodyZeroPerm_calm ..
    · exact .fail (.refl u)
  all_goals cases hp <;> dsimp only
  · exact (bodyFwQuery_keeps ..).calm rfl
  · exact (bodyFwStage_keeps ..).calm rfl
  · split
    · exact bodyActivate_calm _ _ _ fun _ => by decide
    · exact .fail (.refl u)
  · exact (bodyLive_keeps ..).calm rfl
  · exact (bodyFwConfirm_keeps ..).calm rfl
  · exact (bodyConfigStage_keeps ..).calm rfl
  · exact (bodySpdm_keeps ..).calm rfl

theorem planOf_calm {h : DescHdr} {b : List Nat} {x : Ext} {p : Plan} (hp : planOf h b x = some p)
    (u : State) : CalmD askedCauses u (p.2 u) := by
  simp only [planOf, Option.or_eq_some_iff] at hp
  obtain h | ⟨-, h | ⟨-, h | ⟨-, h | ⟨-, h⟩⟩⟩⟩ := hp
  · exact planHif_calm h u
  · exact planTly_calm h u
  · exact planSyn_calm h u
  · exact planDma_calm h u
  · exact planFw_calm h u

end Descriptors

end Sys2Proof.Machine
end

section
/-!
R472: what the resets leave in the register of the last reset.
-/
namespace Sys2Proof.Machine

/-- From `s` to `t` a warm reset happens: its cause is named, it is counted, and none waits any longer. -/
structure Warmed (s t : State) : Prop where
  lower : 2 ≤ t.pwr.cause
  upper : t.pwr.cause ≤ 5
  count : t.pwr.warmCnt = satInc 16 s.pwr.warmCnt
  want : t.pwr.wantWarm = none
  step : 0 < t.pwr.step

/-- What a command may do to the register of the last reset unless it holds the block or begins a cold start. -/
def CalmOrWarmed (s t : State) : Prop := Calm [] s t ∨ Warmed s t

variable {ks : List Nat} {s t u : State}

theorem ResetCauseOk.of_calm (h : ResetCauseOk s) (g : Calm [] s t) : ResetCauseOk t := by
  obtain ⟨hwant, hcause⟩ := h
  refine ⟨g.want.elim (fun e => e.trans hwant) (by simp), fun h0 => ?_⟩
  have h1 := hcause (Nat.eq_zero_of_le_zero (h0 ▸ g.step))
  rwa [g.cause]

theorem ResetCauseOk.of_warmed (g : Warmed s t) : ResetCauseOk t :=
  ⟨g.want, fun h0 => absurd h0 g.step.ne'⟩

theorem ResetCauseOk.of_calmOrWarmed (h : ResetCauseOk s) (g : CalmOrWarmed s t) : ResetCauseOk t :=
  g.elim h.of_calm .of_warmed

/-- R26: after calm operations a warm reset names its cause and adds to the count. -/
theorem Calm.warmed {k : Nat} (h : Calm ks s u) (h2 : 2 ≤ k) (h5 : k ≤ 5) (hs : 0 < s.pwr.step) :
    Warmed s (warmReset k u) := by
  let u1 : State := u.onPwr fun p =>
    { p with cause := k, warmCnt := satInc 16 p.warmCnt, emuReady := false, fwWait := u.frec.busy, wantWarm := none }
  have g : Calm [] u1 (warmReset k u) := by
    unfold warmReset
    extract_lets s1 s2 s3 s4 s5 s6 s7
    have h4 : Calm [] u1 s4 := (warmFrames_keeps ..).after rfl <|
      forList_calm _ (fun _ _ => (reclaimClu_keeps ..).calm rfl) <|
      forList_calm _ (fun _ _ => (State.updReg_keeps ..).calm rfl) <| (holdAll_keeps ..).after rfl <|
      (State.onFrec_keeps ..).after rfl <|
      (State.onHo_keeps ..).after rfl <| (warmRecord_keeps ..).after rfl ((State.onFw_keeps ..).calm rfl)
    have h6 : Calm [] u1 s6 := forList_calm _ (fun _ _ => (ldgFlush_keeps ..).calm rfl) <|
      (audAbandon_keeps ..).after rfl <|
      (State.onAud_keeps ..).after rfl h4
    exact (State.onHif_keeps ..).after rfl <| (warmCores_keeps ..).after rfl <| (clrDrop_keeps ..).after rfl <|
      (warmFc_keeps ..).after rfl <|
      (warmTly_keeps ..).after rfl <| (warmDma_keeps ..).after rfl <| (warmTrs_keeps ..).after rfl <|
      (warmLoops_keeps ..).after rfl h6
  have hc : (warmReset k u).pwr.cause = k := g.cause
  have hn : (warmReset k u).pwr.warmCnt = satInc 16 u.pwr.warmCnt := g.count
  exact ⟨h2.trans_eq hc.symm, hc.trans_le h5, hn.trans (congrArg _ h.count), g.want.elim id (by simp),
    hs.trans_le (h.step.trans g.step)⟩

end Sys2Proof.Machine
end

section
/-!
R472: of the commands, each that is neither one of a power-on reset nor one with a warm reset among its effects is calm.
-/
namespace Sys2Proof.Machine

variable {ks : List Nat} {ps : List Area} {s t : State} {f : State → State}

theorem act_calm (h : Calm ks s (f s)) : ∃ t, act f s = .next t ∧ Calm ks s t := ⟨_, rfl, .ite h (.refl s)⟩

theorem actTest_calm (h : Calm ks s (f s)) : ∃ t, actTest f s = .next t ∧ Calm ks s t := ⟨_, rfl, .ite h (.refl s)⟩

theorem hsAnswer_calm (code data : Nat) (h : Calm ks s t) : Calm ks s (hsAnswer code data t) := (hsAnswer_keeps ..).after rfl h

theorem hsHard_calm (h : Calm ks s (f s)) : ∃ t, hsHard f s = .next t ∧ Calm ks s t :=
  ⟨_, rfl, .ite (hsAnswer_calm _ _ h) (hsAnswer_calm _ _ (.refl s))⟩

theorem hsEmu_calm (h : Calm ks s (f s)) : ∃ t, hsEmu f s = .next t ∧ Calm ks s t :=
  ⟨_, rfl, .ite (hsAnswer_calm _ _ (.refl s)) (.ite (hsAnswer_calm _ _ (.refl s)) (hsAnswer_calm _ _ h))⟩

/-- A command that leaves the power part alone is calm. -/
theorem keeps_calm {r : Res} (h : ∃ t, r = .next t ∧ Keeps ps s t) (hp : ps.contains .pwr = false) :
    ∃ t, r = .next t ∧ Calm ks s t := by
  obtain ⟨t, e, hk⟩ := h
  exact ⟨t, e, hk.calm hp⟩

theorem execRegisterWrite_calm (a : Word) (v : HsWrite) (s : State) :
    ∃ t, execRegisterWrite a v s = .next t ∧ Calm ks s t := by
  unfold execRegisterWrite regWrite
  split
  · exact ⟨_, rfl, hsAnswer_calm _ _ (.refl s)⟩
  split
  · exact hsHard_calm (writeHard_calm ..)
  split
  · exact keeps_calm (hsHif_keeps (ps := [.hm, .hs, .hif, .ldg, .fc, .trs]) (by decide)
      ((writeHif_keeps ..).step (by decide) (.refl ..))) rfl
  split
  · exact keeps_calm (hsHif_keeps (ps := [.hs, .fw]) (by decide) ((writeFw_keeps ..).step (by decide) (.refl ..))) rfl
  · exact hsEmu_calm (writeEmu_calm ..)

/-- The commands of the supplies and of `PORST_N`: those of a power-on reset. -/
def isPowerOn : Instr → Bool
  | .coldReset .. | .porstNAssert _ | .internalPowerOnReset .. => true
  | _ => false

/-- The commands with a warm reset among their effects (R26). -/
def mayWarm : Instr → Bool
  | .warmReset _ | .warmResetDesc .. | .fwActivateWarm .. | .fwCoreHang _ | .descriptorFetch .. | .fetchRetry .. => true
  | _ => false

/-- Every other command is calm. -/
theorem exec_calm (c : Instr) (s : State) (hpower : isPowerOn c = false) (hwarm : mayWarm c = false) :
    ∃ t, exec c s = .next t ∧ Calm ks s t := by
  cases c with
  | coldReset | porstNAssert | internalPowerOnReset => cases hpower
  | warmReset | warmResetDesc | fwActivateWarm | fwCoreHang | descriptorFetch | fetchRetry => cases hwarm
  | wrstNRelease => exact act_calm (.ite ((State.onFw_keeps ..).after rfl (.onPwr rfl rfl rfl le_rfl (.refl s))) (.refl s))
  | inputPowerFail => exact act_calm (boardPin_calm ..)
  | vanaLoss => exact act_calm (vanaLoss_calm ..)
  | fwVfuseAlarm => exact act_calm (vfuseAlarm_calm ..)
  | hsPortReset => exact keeps_calm (execHsPortReset_keeps ..) rfl
  | hmPortReset => exact keeps_calm (execHmPortReset_keeps ..) rfl
  | hmResponse => exact keeps_calm (execHmResponse_keeps ..) rfl
  | hmTimeout => exact keeps_calm (execHmTimeout_keeps ..) rfl
  | hmTagRelease => exact keeps_calm (execHmTagRelease_keeps ..) rfl
  | refWindowEnd => exact act_calm (refWindow_calm ..)
  | refLoss => exact act_calm (refBreak_calm (refLossCore_calm _ _) s)
  | driftMeasurement => exact act_calm (driftMeasure_calm ..)
  | rootReqGo => exact keeps_calm (execRootReqGo_keeps ..) rfl
  | rootChangeStart => exact keeps_calm (execRootChangeStart_keeps ..) rfl
  | rootTimebaseMoved => exact keeps_calm (execRootTimebaseMoved_keeps ..) rfl
  | pllLock => exact act_calm (pllLockStep_calm s)
  | relockRetry => exact keeps_calm (execRelockRetry_keeps ..) rfl
  | pllFail => exact act_calm (pllFailStep_calm s)
  | pllFailRetry => exact keeps_calm (execPllFailRetry_keeps ..) rfl
  | leafAck => exact act_calm (leafAck_calm ..)
  | leafFail => exact act_calm (leafFail_calm ..)
  | leafRetry => exact keeps_calm (execLeafRetry_keeps ..) rfl
  | leafRestored => exact keeps_calm (execLeafRestored_keeps ..) rfl
  | droopFire => exact keeps_calm (execDroopFire_keeps ..) rfl
  | ceilingUpdate => exact keeps_calm (execCeilingUpdate_keeps ..) rfl
  | cpAck => exact keeps_calm (execCpAck_keeps ..) rfl
  | cpLate => exact keeps_calm (execCpLate_keeps ..) rfl
  | frameStart => exact act_calm (frameStart_calm ..)
  | frameCommit => exact act_calm (frameCommit_calm s)
  | slotComplete => exact act_calm (((slotComplete_keeps ..).calm rfl))
  | slotMiss => exact keeps_calm (execSlotMiss_keeps ..) rfl
  | loopBackstop => exact keeps_calm (execLoopBackstop_keeps ..) rfl
  | loopBackstopEnd => exact keeps_calm (execLoopBackstopEnd_keeps ..) rfl
  | shed => exact keeps_calm (execShed_keeps ..) rfl
  | restore => exact keeps_calm (execRestore_keeps ..) rfl
  | shedFloorWrite => exact keeps_calm (execShedFloorWrite_keeps ..) rfl
  | hostRestore => exact keeps_calm (execHostRestore_keeps ..) rfl
  | clrMin => exact keeps_calm (execClrMin_keeps ..) rfl
  | loopSaturated => exact act_calm (saturated_calm ..)
  | odEnd => exact keeps_calm (execOdEnd_keeps ..) rfl
  | leaseGuard => exact keeps_calm (execLeaseGuard_keeps ..) rfl
  | trimEvaluate => exact keeps_calm (execTrimEvaluate_keeps ..) rfl
  | amMeasure => exact keeps_calm (execAmMeasure_keeps ..) rfl
  | siteSample => exact keeps_calm (execSiteSample_keeps ..) rfl
  | siteResult => exact act_calm (siteResult_calm ..)
  | thermTrip => exact act_calm (thermTrip_calm ..)
  | thermRestartOk => exact keeps_calm (execThermRestartOk_keeps ..) rfl
  | ringFail => exact act_calm (ringFail_calm ..)
  | ringRetry => exact act_calm (ringRetry_calm ..)
  | refCompare => exact act_calm (refCompare_calm ..)
  | refBroadcast => exact keeps_calm (execRefBroadcast_keeps ..) rfl
  | ddRead => exact keeps_calm (execDdRead_keeps ..) rfl
  | ddTapRewrite => exact keeps_calm (execDdTapRewrite_keeps ..) rfl
  | railVConversion => exact keeps_calm (execRailVConversion_keeps ..) rfl
  | brakeTimeout => exact keeps_calm (execBrakeTimeout_keeps ..) rfl
  | compensatorUpdate => exact keeps_calm (execCompensatorUpdate_keeps ..) rfl
  | phaseIConversion => exact keeps_calm (execPhaseIConversion_keeps ..) rfl
  | stageTConversion => exact keeps_calm (execStageTConversion_keeps ..) rfl
  | currentShareUpdate => exact keeps_calm (execCurrentShareUpdate_keeps ..) rfl
  | trimLimit => exact keeps_calm (execTrimLimit_keeps ..) rfl
  | shareShift => exact keeps_calm (execShareShift_keeps ..) rfl
  | shiftLimit => exact keeps_calm (execShiftLimit_keeps ..) rfl
  | pwmPeriod => exact keeps_calm (execPwmPeriod_keeps ..) rfl
  | zeroCrossing => exact keeps_calm (execZeroCrossing_keeps ..) rfl
  | phaseRemove => exact keeps_calm (execPhaseRemove_keeps ..) rfl
  | joinComplete => exact keeps_calm (execJoinComplete_keeps ..) rfl
  | vppRampDown => exact keeps_calm (execVppRampDown_keeps ..) rfl
  | vinRead => exact keeps_calm (execVinRead_keeps ..) rfl
  | vinStale => exact keeps_calm (execVinStale_keeps ..) rfl
  | pmbAlert => exact keeps_calm (execPmbAlert_keeps ..) rfl
  | pmbusTimeout => exact keeps_calm (execPmbusTimeout_keeps ..) rfl
  | overloadCheck => exact keeps_calm (execOverloadCheck_keeps ..) rfl
  | overloadShutdown => exact keeps_calm (execOverloadShutdown_keeps ..) rfl
  | scTrip => exact keeps_calm (execScTrip_keeps ..) rfl
  | stageFault => exact keeps_calm (execStageFault_keeps ..) rfl
  | pwmReadback => exact keeps_calm (execPwmReadback_keeps ..) rfl
  | overvoltage => exact keeps_calm (execOvervoltage_keeps ..) rfl
  | undervoltage => exact keeps_calm (execUndervoltage_keeps ..) rfl
  | senseCheck => exact keeps_calm (execSenseCheck_keeps ..) rfl
  | pmbusConfigDone => exact keeps_calm (execPmbusConfigDone_keeps ..) rfl
  | phaseIdentify => exact keeps_calm (execPhaseIdentify_keeps ..) rfl
  | rampStart => exact keeps_calm (execRampStart_keeps ..) rfl
  | reached => exact keeps_calm (execReached_keeps ..) rfl
  | startTimeout => exact keeps_calm (execStartTimeout_keeps ..) rfl
  | rampDownDone => exact keeps_calm (execRampDownDone_keeps ..) rfl
  | fastStopLevel => exact keeps_calm (execFastStopLevel_keeps ..) rfl
  | frecCommitted => exact act_calm (frecCommit_calm ..)
  | frecSlotLoaded => exact keeps_calm (execFrecSlotLoaded_keeps ..) rfl
  | crowbarReleased => exact keeps_calm (execCrowbarReleased_keeps ..) rfl
  | faultClear => exact keeps_calm (execFaultClear_keeps ..) rfl
  | phaseFaultClear => exact keeps_calm (execPhaseFaultClear_keeps ..) rfl
  | railVreqGo => exact keeps_calm (execRailVreqGo_keeps ..) rfl
  | railSlewWrite => exact keeps_calm (execRailSlewWrite_keeps ..) rfl
  | railTelClr => exact keeps_calm (execRailTelClr_keeps ..) rfl
  | railShedWrite => exact keeps_calm (execRailShedWrite_keeps ..) rfl
  | ddDepthWrite => exact keeps_calm (execDdDepthWrite_keeps ..) rfl
  | loopClModeGo => exact keeps_calm (execLoopClModeGo_keeps ..) rfl
  | loopTgtWrite => exact keeps_calm (execLoopTgtWrite_keeps ..) rfl
  | fbForceWrite => exact hsEmu_calm (supSatWrite_calm ..)
  | clrLatch => exact keeps_calm (execClrLatch_keeps ..) rfl
  | capSet => exact keeps_calm (execCapSet_keeps ..) rfl
  | clrRsn => exact keeps_calm (execClrRsn_keeps ..) rfl
  | clrOd => exact keeps_calm (execClrOd_keeps ..) rfl
  | clrFlt => exact keeps_calm (execClrFlt_keeps ..) rfl
  | dcPrioWrite => exact keeps_calm (execDcPrioWrite_keeps ..) rfl
  | dcFloorWrite => exact keeps_calm (execDcFloorWrite_keeps ..) rfl
  | txCfgWrite => exact keeps_calm (execTxCfgWrite_keeps ..) rfl
  | clrAcc => exact keeps_calm (execClrAcc_keeps ..) rfl
  | fcDefault => exact keeps_calm (execFcDefault_keeps ..) rfl
  | hintClassSet => exact keeps_calm (execHintClassSet_keeps ..) rfl
  | hintOp => exact keeps_calm (execHintOp_keeps ..) rfl
  | releaseHint => exact keeps_calm (execReleaseHint_keeps ..) rfl
  | hintExpire => exact keeps_calm (execHintExpire_keeps ..) rfl
  | hintEvaluate => exact keeps_calm (execHintEvaluate_keeps ..) rfl
  | hintTrustBack => exact keeps_calm (execHintTrustBack_keeps ..) rfl
  | pageLanded => exact keeps_calm (execPageLanded_keeps ..) rfl
  | tlyCubeErr => exact keeps_calm (execTlyCubeErr_keeps ..) rfl
  | tlyStoreEcc => exact keeps_calm (execTlyStoreEcc_keeps ..) rfl
  | clrSat => exact keeps_calm (execClrSat_keeps ..) rfl
  | synSet => exact keeps_calm (execSynSet_keeps ..) rfl
  | synClear => exact keeps_calm (execSynClear_keeps ..) rfl
  | waitSet => exact keeps_calm (execWaitSet_keeps ..) rfl
  | waitClear => exact keeps_calm (execWaitClear_keeps ..) rfl
  | synInc => exact keeps_calm (execSynInc_keeps ..) rfl
  | synDec => exact keeps_calm (execSynDec_keeps ..) rfl
  | waitGe => exact keeps_calm (execWaitGe_keeps ..) rfl
  | barrierArrive => exact keeps_calm (execBarrierArrive_keeps ..) rfl
  | epResponseTaken => exact keeps_calm (execEpResponseTaken_keeps ..) rfl
  | synTimeout => exact keeps_calm (execSynTimeout_keeps ..) rfl
  | synWatchdogFire => exact keeps_calm (execSynWatchdogFire_keeps ..) rfl
  | synEcc => exact keeps_calm (execSynEcc_keeps ..) rfl
  | escrowLend => exact keeps_calm (execEscrowLend_keeps ..) rfl
  | synCtrlClr => exact keeps_calm (execSynCtrlClr_keeps ..) rfl
  | synCoreCfgWrite => exact keeps_calm (execSynCoreCfgWrite_keeps ..) rfl
  | escCfgWrite => exact keeps_calm (execEscCfgWrite_keeps ..) rfl
  | clearingRound => exact keeps_calm (execClearingRound_keeps ..) rfl
  | mailboxPoll => exact keeps_calm (execMailboxPoll_keeps ..) rfl
  | msgReread => exact keeps_calm (execMsgReread_keeps ..) rfl
  | join => exact keeps_calm (execJoin_keeps ..) rfl
  | accept => exact keeps_calm (execAccept_keeps ..) rfl
  | stateMsg => exact keeps_calm (execStateMsg_keeps ..) rfl
  | offer => exact keeps_calm (execOffer_keeps ..) rfl
  | lease => exact keeps_calm (execLease_keeps ..) rfl
  | returnMsg => exact keeps_calm (execReturnMsg_keeps ..) rfl
  | leave => exact keeps_calm (execLeave_keeps ..) rfl
  | returnSend => exact keeps_calm (execReturnSend_keeps ..) rfl
  | ackMiss => exact keeps_calm (execAckMiss_keeps ..) rfl
  | clrLeaseExpired => exact keeps_calm (execClrLeaseExpired_keeps ..) rfl
  | joinRetry => exact keeps_calm (execJoinRetry_keeps ..) rfl
  | clrCfgWrite => exact keeps_calm (execClrCfgWrite_keeps ..) rfl
  | clrLnkEnWrite => exact keeps_calm (execClrLnkEnWrite_keeps ..) rfl
  | clrCtrlClr => exact keeps_calm (execClrCtrlClr_keeps ..) rfl
  | doorbellWrite => exact keeps_calm (execDoorbellWrite_keeps ..) rfl
  | irqGap => exact keeps_calm (execIrqGap_keeps ..) rfl
  | hifNegGo => exact keeps_calm (execHifNegGo_keeps ..) rfl
  | c0RingEnWrite => exact keeps_calm (execC0RingEnWrite_keeps ..) rfl
  | hifCtrlClr => exact keeps_calm (execHifCtrlClr_keeps ..) rfl
  | nop => exact keeps_calm (execNop_keeps ..) rfl
  | identify => exact keeps_calm (execIdentify_keeps ..) rfl
  | controlStart => exact keeps_calm (execControlStart_keeps ..) rfl
  | ctxOpen => exact keeps_calm (execCtxOpen_keeps ..) rfl
  | ctxClose => exact keeps_calm (execCtxClose_keeps ..) rfl
  | ctxParam => exact keeps_calm (execCtxParam_keeps ..) rfl
  | ctxPlace => exact keeps_calm (execCtxPlace_keeps ..) rfl
  | floorSet => exact keeps_calm (execFloorSet_keeps ..) rfl
  | ctxTelem => exact keeps_calm (execCtxTelem_keeps ..) rfl
  | railCtrlStart => exact keeps_calm (execRailCtrlStart_keeps ..) rfl
  | railCtrlStop => exact keeps_calm (execRailCtrlStop_keeps ..) rfl
  | amBaseline => exact keeps_calm (execAmBaseline_keeps ..) rfl
  | tlyInstall => exact keeps_calm (execTlyInstall_keeps ..) rfl
  | tlyRemove => exact keeps_calm (execTlyRemove_keeps ..) rfl
  | tlySetReg => exact keeps_calm (execTlySetReg_keeps ..) rfl
  | tlySetRemove => exact keeps_calm (execTlySetRemove_keeps ..) rfl
  | slotTable => exact keeps_calm (execSlotTable_keeps ..) rfl
  | loopCoef => exact keeps_calm (execLoopCoef_keeps ..) rfl
  | vftLoad => exact keeps_calm (execVftLoad_keeps ..) rfl
  | hintClassEntry => exact keeps_calm (execHintClassEntry_keeps ..) rfl
  | hintClassPerm => exact keeps_calm (execHintClassPerm_keeps ..) rfl
  | synActSet => exact keeps_calm (execSynActSet_keeps ..) rfl
  | synActClear => exact keeps_calm (execSynActClear_keeps ..) rfl
  | adjust => exact keeps_calm (execAdjust_keeps ..) rfl
  | releaseWaiter => exact keeps_calm (execReleaseWaiter_keeps ..) rfl
  | failWaiter => exact keeps_calm (execFailWaiter_keeps ..) rfl
  | resetWindow => exact keeps_calm (execResetWindow_keeps ..) rfl
  | setKind => exact keeps_calm (execSetKind_keeps ..) rfl
  | groupDef => exact keeps_calm (execGroupDef_keeps ..) rfl
  | synMap => exact keeps_calm (execSynMap_keeps ..) rfl
  | synRead => exact keeps_calm (execSynRead_keeps ..) rfl
  | clrConfig => exact keeps_calm (execClrConfig_keeps ..) rfl
  | clrLink => exact keeps_calm (execClrLink_keeps ..) rfl
  | dmaXfer => exact keeps_calm (execDmaXfer_keeps ..) rfl
  | dmaTransferDone => exact keeps_calm (execDmaTransferDone_keeps ..) rfl
  | dmaStreamArm => exact keeps_calm (execDmaStreamArm_keeps ..) rfl
  | dmaStreamStop => exact keeps_calm (execDmaStreamStop_keeps ..) rfl
  | streamPeriod => exact keeps_calm (execStreamPeriod_keeps ..) rfl
  | captureSweep => exact keeps_calm (execCaptureSweep_keeps ..) rfl
  | dmaCtrlClr => exact keeps_calm (execDmaCtrlClr_keeps ..) rfl
  | stopStreams => exact keeps_calm (execStopStreams_keeps ..) rfl
  | ldgDrain => exact keeps_calm (execLdgDrain_keeps ..) rfl
  | ldgRearm => exact keeps_calm (execLdgRearm_keeps ..) rfl
  | frecCopy => exact keeps_calm (execFrecCopy_keeps ..) rfl
  | ledgerStore => exact keeps_calm (execLedgerStore_keeps ..) rfl
  | ldwRec0Read => exact keeps_calm (execLdwRec0Read_keeps ..) rfl
  | ldwRec7Read => exact keeps_calm (execLdwRec7Read_keeps ..) rfl
  | ldwCursorWrite => exact keeps_calm (execLdwCursorWrite_keeps ..) rfl
  | ldgCtrlClrLost => exact keeps_calm (execLdgCtrlClrLost_keeps ..) rfl
  | limAlarmClear => exact hsHard_calm (limAlarm_calm ..)
  | loReadLatch => exact keeps_calm (execLoReadLatch_keeps ..) rfl
  | digest0Read => exact keeps_calm (execDigest0Read_keeps ..) rfl
  | fwQuery => exact keeps_calm (execFwQuery_keeps ..) rfl
  | fwStage => exact keeps_calm (execFwStage_keeps ..) rfl
  | fwActivateCold => exact act_calm (runDesc_calm (fun _ => bodyActivate_calm _ _ _ fun h => absurd h (by decide)) ..)
  | fwLiveUpdate => exact keeps_calm (execFwLiveUpdate_keeps ..) rfl
  | luPrepareDone => exact keeps_calm (execLuPrepareDone_keeps ..) rfl
  | luHandoffDone => exact keeps_calm (execLuHandoffDone_keeps ..) rfl
  | fwResumed => exact keeps_calm (execFwResumed_keeps ..) rfl
  | fwSelfConfirmed => exact keeps_calm (execFwSelfConfirmed_keeps ..) rfl
  | fwRollback => exact keeps_calm (execFwRollback_keeps ..) rfl
  | fwConfirm => exact keeps_calm (execFwConfirm_keeps ..) rfl
  | fwConfigStage => exact keeps_calm (execFwConfigStage_keeps ..) rfl
  | fwSpdm => exact keeps_calm (execFwSpdm_keeps ..) rfl
  | fuseIntegratorKey => exact act_calm (runDesc_calm (fun _ => bodyFuseInt_calm ..) ..)
  | fuseLimitGate => exact act_calm (runDesc_calm (fun _ => bodyFuseGate_calm ..) ..)
  | fuseBootSet => exact act_calm (runDesc_calm (fun _ => bodyFuseBoot_calm ..) ..)
  | fuseSvn => exact act_calm (runDesc_calm (fun _ => bodyFuseSvn_calm ..) ..)
  | fuseRevokeIntegrator => exact act_calm (runDesc_calm (fun _ => bodyRevokeInt_calm ..) ..)
  | fuseRevokeKolhidex => exact act_calm (runDesc_calm (fun _ => bodyRevokeKol_calm ..) ..)
  | fwTokenNonce => exact keeps_calm (execFwTokenNonce_keeps ..) rfl
  | fwTokenUnlock => exact keeps_calm (execFwTokenUnlock_keeps ..) rfl
  | zeroiseVolatile => exact keeps_calm (execZeroiseVolatile_keeps ..) rfl
  | zeroisePermanent => exact act_calm (runDesc_calm (fun _ => bodyZeroPerm_calm ..) ..)
  | fwBoot => exact act_calm (fwBoot_calm s)
  | fwCoreBack => exact keeps_calm (execFwCoreBack_keeps ..) rfl
  | fwVaultRestart => exact act_calm (vaultHang_calm ..)
  | enterLp => exact keeps_calm (execEnterLp_keeps ..) rfl
  | exitLp => exact keeps_calm (execExitLp_keeps ..) rfl
  | audTest => exact act_calm (runDesc_calm (fun _ => bodyAudTest_calm ..) ..)
  | audRemove => exact act_calm (runDesc_calm (fun _ => bodyAudRemove_calm ..) ..)
  | audReturn => exact act_calm (runDesc_calm (fun _ => bodyAudReturn_calm ..) ..)
  | audTestDone => exact act_calm (audDone_calm ..)
  | audSchedule => exact act_calm (audSchedule_calm s)
  | audSchedWrite => exact keeps_calm (execAudSchedWrite_keeps ..) rfl
  | audCtrlClr => exact keeps_calm (execAudCtrlClr_keeps ..) rfl
  | extest => exact keeps_calm (execExtest_keeps ..) rfl
  | idcode => exact keeps_calm (execIdcode_keeps ..) rfl
  | samplePreload => exact keeps_calm (execSamplePreload_keeps ..) rfl
  | clamp => exact keeps_calm (execClamp_keeps ..) rfl
  | highz => exact keeps_calm (execHighz_keeps ..) rfl
  | bypass => exact keeps_calm (execBypass_keeps ..) rfl
  | wsBypass => exact keeps_calm (execWsBypass_keeps ..) rfl
  | wsIdcode => exact keeps_calm (execWsIdcode_keeps ..) rfl
  | mbistRead => exact keeps_calm (execMbistRead_keeps ..) rfl
  | wsSafe => exact actTest_calm (wrapHold_calm ..)
  | wsExtest => exact actTest_calm (wrapHold_calm ..)
  | wsIntestScan => exact actTest_calm (wrapHold_calm ..)
  | mbistRun => exact actTest_calm (wrapHold_calm ..)
  | mbistDone => exact keeps_calm (execMbistDone_keeps ..) rfl
  | registerWrite => exact execRegisterWrite_calm ..
  | malformedRequest => exact keeps_calm (execMalformedRequest_keeps ..) rfl
  | shortInterval => exact act_calm (refBreak_calm (refLossCore_calm _ _) s)
  | hmRstNRelease => exact keeps_calm (execHmRstNRelease_keeps ..) rfl
  | extensionEnd => exact keeps_calm (execExtensionEnd_keeps ..) rfl
  | slotStart => exact keeps_calm (execSlotStart_keeps ..) rfl
  | vrefStep => exact keeps_calm (execVrefStep_keeps ..) rfl
  | borrowedLeaseExpiry => exact keeps_calm (execBorrowedLeaseExpiry_keeps ..) rfl
  | autoZero => exact keeps_calm (execAutoZero_keeps ..) rfl
  | sectorEraseDone => exact keeps_calm (execSectorEraseDone_keeps ..) rfl
  | vaultReady => exact keeps_calm (execVaultReady_keeps ..) rfl
  | fwSelftestFail => exact act_calm (vaultError_calm ..)

end Sys2Proof.Machine
end

section
/-!
R26, R472: the commands with a warm reset among their effects.
-/
namespace Sys2Proof.Machine

variable {s t u : State} {f : State → State}

/-- A live block is past step 1 of Table 1.9. -/
theorem step_pos_of_live (h : s.live = true) : 0 < s.pwr.step := by
  simp only [State.live, Bool.and_eq_true, decide_eq_true_eq] at h
  exact (by decide : 0 < 2).trans_le h.2

/-- R379: the warm reset that a descriptor asked for follows its completion. -/
theorem warmAfter_calmOrWarmed (h : Calm askedCauses s u) (hw : s.pwr.wantWarm = none) (hs : 0 < s.pwr.step) :
    CalmOrWarmed s (warmAfter u) := by
  unfold warmAfter
  split
  · next k hk =>
    have hmem : k ∈ askedCauses := by simpa [hk, hw] using h.want
    have hrange : 2 ≤ k ∧ k ≤ 5 := (by decide : ∀ k ∈ askedCauses, 2 ≤ k ∧ k ≤ 5) k hmem
    exact .inr (h.warmed hrange.1 hrange.2 hs)
  · next hn => exact .inl ⟨h.cause, h.count, h.step, .inl (hn.trans hw.symm)⟩

theorem perform_calmOrWarmed (c : CtxId) (b : List Nat) (x : Ext) (h : Calm [] s u) (hw : s.pwr.wantWarm = none)
    (hs : 0 < s.pwr.step) : CalmOrWarmed s (perform c b x u) := by
  unfold perform
  dsimp only
  split
  · next p hp =>
    have hu : Calm askedCauses s u := ⟨h.cause, h.count, h.step, .inl (by simpa using h.want)⟩
    exact warmAfter_calmOrWarmed ((runDesc_calm (planOf_calm hp) ..).after hu) hw hs
  · exact .inl ((runDesc_calm (fun u => .fail (.refl u)) ..).after h)

theorem fetch_calmOrWarmed (c : CtxId) (words : Option (List Word)) (x : Ext) (hw : s.pwr.wantWarm = none)
    (hs : 0 < s.pwr.step) : CalmOrWarmed s (fetch c words x s) := by
  unfold fetch
  split
  · exact .inl (.refl s)
  split
  · exact .inl ((State.updCtx_keeps ..).calm rfl)
  · exact perform_calmOrWarmed _ _ _ (.refl s) hw hs

theorem fetchRetry_calmOrWarmed (c : CtxId) (words : Option (List Word)) (x : Ext) (hw : s.pwr.wantWarm = none)
    (hs : 0 < s.pwr.step) : CalmOrWarmed s (fetchRetry c words x s) := by
  unfold fetchRetry
  extract_lets y
  split
  · exact .inl (.refl s)
  next s1 _ _ _ =>
  have h1 : Calm [] s s1 := (State.updCtx_keeps ..).calm rfl
  split
  · exact .inl (.refl s)
  split
  · exact .inl ((ctxError_keeps ..).after rfl h1)
  · exact perform_calmOrWarmed _ _ _ h1 hw hs

/-- R415: a hang of Treasury's core or Clerk is a warm reset of cause 4. -/
theorem coreHang_calmOrWarmed (k : Nat) (hs : 0 < s.pwr.step) : CalmOrWarmed s (coreHang k s) := by
  unfold coreHang
  extract_lets x p s1
  have h1 : Calm [] s s1 := (emitVault_keeps ..).after rfl ((State.updFwCore_keeps ..).calm rfl)
  split
  · exact .inl (.refl s)
  split
  · exact .inl ((rollback_keeps ..).after rfl h1)
  split
  · exact .inr (h1.warmed (by decide) (by decide) hs)
  · exact .inl ((tellerHang_calm ..).after h1)

/-- R24: a pulse acts, with or without a free choice drawn for it, or it does not. -/
theorem pulse_cases {P : State → Prop} (least ns : Nat) (hs : P s) (hd : P s.drawn) (hfs : P (f s)) (hfd : P (f s.drawn)) :
    P (pulse least ns f s) := by
  unfold pulse
  dsimp only
  split_ifs <;> assumption

/-- R24: below 100 ns a pulse does nothing. -/
theorem pulse_short {ns : Nat} (least : Nat) (f : State → State) (s : State) (h : ns < 100) : pulse least ns f s = s :=
  if_pos h

/-- R26: `WRST_N` low is a warm reset of cause 2. -/
theorem pinReset_calmOrWarmed (ns : Nat) (hs : 0 < s.pwr.step) :
    CalmOrWarmed s (pulse 1000 ns (fun t => warmReset 2 (t.onPwr fun p => { p with wrstLow := true })) s) := by
  have hd : Calm [] s s.drawn := (State.drawn_keeps s).calm rfl
  have hpin {u : State} (h : Calm [] s u) : Calm [] s (u.onPwr fun p => { p with wrstLow := true }) :=
    .onPwr rfl rfl rfl le_rfl h
  exact pulse_cases _ _ (.inl (.refl s)) (.inl hd) (.inr ((hpin (.refl s)).warmed (by decide) (by decide) hs))
    (.inr ((hpin hd).warmed (by decide) (by decide) hs))

theorem act_calmOrWarmed (h : 0 < s.pwr.step → CalmOrWarmed s (f s)) : ∃ t, act f s = .next t ∧ CalmOrWarmed s t := by
  unfold act
  split
  · next hl => exact ⟨_, rfl, h (step_pos_of_live hl)⟩
  · exact ⟨_, rfl, .inl (.refl s)⟩

/-- A command with a warm reset among its effects is calm or a warm reset. -/
theorem exec_calmOrWarmed_of_mayWarm (c : Instr) (hok : ResetCauseOk s) (h : mayWarm c = true) :
    ∃ t, exec c s = .next t ∧ CalmOrWarmed s t := by
  obtain ⟨hwant, -⟩ := hok
  cases c <;> cases h
  case warmReset ns => exact act_calmOrWarmed (pinReset_calmOrWarmed ns)
  case descriptorFetch c words x => exact act_calmOrWarmed (fetch_calmOrWarmed c words x hwant)
  case fetchRetry c words x => exact act_calmOrWarmed (fetchRetry_calmOrWarmed c words x hwant)
  case warmResetDesc d key =>
    exact act_calmOrWarmed (f := fun t => warmAfter (runDesc _ _ _ t))
      (warmAfter_calmOrWarmed (runDesc_calm (fun u => bodyWarmReset_calm key u (by decide)) ..) hwant)
  case fwActivateWarm d x =>
    exact act_calmOrWarmed (f := fun t => warmAfter (runDesc _ _ _ t))
      (warmAfter_calmOrWarmed (runDesc_calm (fun u => bodyActivate_calm 1 x u fun _ => by decide) ..) hwant)
  case fwCoreHang core => exact act_calmOrWarmed (coreHang_calmOrWarmed core.val)

/-- Every command but the three of a power-on reset is calm or a warm reset. -/
theorem exec_calmOrWarmed (c : Instr) (hok : ResetCauseOk s) (h : isPowerOn c = false) :
    ∃ t, exec c s = .next t ∧ CalmOrWarmed s t := by
  cases hwarm : mayWarm c
  case false =>
    obtain ⟨t, e, ht⟩ := exec_calm c s h hwarm
    exact ⟨t, e, .inl ht⟩
  case true => exact exec_calmOrWarmed_of_mayWarm c hok hwarm

end Sys2Proof.Machine
end

section
/-!
R22, R23, R69, R472: what a power-on reset leaves in the register of the last reset.
-/
namespace Sys2Proof.Machine

variable {s t : State}

/-- R23: while the outputs are held, the power part shows the cause and step 0. -/
theorem powerHold_pwr (cause : Nat) (s : State) :
    (powerHold cause s).pwr = { s.pwr with step := 0, cause := cause, emuReady := false } := by
  have hoff : (forList (List.range 128) phOff s).pwr = s.pwr :=
    forList_eq State.pwr _ (fun _ _ => (phOff_keeps ..).pwr_eq rfl) s
  have hclk : (stopAllClocks id (forList (List.range 128) phOff s)).pwr = s.pwr :=
    ((stopAllClocks_keeps ..).pwr_eq rfl).trans hoff
  have hcp := (forList_eq State.pwr (List.range 32) (f := fun c => State.updCp c fun p => { p with ceil := 0, slope := 4 })
    (fun _ _ => rfl) _).trans hclk
  exact congrArg (fun p : Power => { p with step := 0, cause := cause, emuReady := false }) hcp

theorem resetCauseOk_powerHold {cause : Nat} (hc : cause ≤ 1) (hw : s.pwr.wantWarm = none) :
    ResetCauseOk (powerHold cause s) := by
  simp [ResetCauseOk, powerHold_pwr, hc, hw]

/-- The cause that a cold reset finds set, or 0. -/
theorem ResetCauseOk.heldCause_le (h : ResetCauseOk s) : (if s.pwr.step = 0 then s.pwr.cause else 0) ≤ 1 := by
  split
  · next h0 => exact h.2 h0
  · exact Nat.zero_le 1

/-- Table 1.9: after the state is cleared, the rest of a cold reset is calm. -/
theorem coldReset_calm (vsel refsel : Nat) (selftest : Option Nat) (b : Boot) (part : Option Part) (s : State) :
    ∃ s0, s0.pwr = s.pwr ∧ Calm [] (coldClear vsel refsel b s0) (coldReset vsel refsel selftest b part s) := by
  unfold coldReset
  extract_lets s0 s1
  have h0 : s0.pwr = s.pwr := by
    unfold s0
    split
    · split
      · rfl
      · exact (partIn_keeps ..).pwr_eq rfl
    · rfl
  exact ⟨s0, h0, (vaultCold_calm ..).after <| (baseSample_keeps ..).after rfl <| (gateSample_calm _).after <|
    (refselSample_calm _).after ((nvBoot_keeps ..).calm rfl)⟩

/-- R22, R472: a cold reset leaves a cause of 0 or 1 and no count, and a wait for the supplies a cause of 0 or 1. -/
theorem coldBegin_register (vsel refsel : Nat) (selftest : Option Nat) (b : Boot) (part : Option Part) (hok : ResetCauseOk s) :
    let t := coldBegin vsel refsel selftest b part s
    ResetCauseOk t ∧ t.pwr.cause ≤ 1 ∧ (suppliesOk b s = true → t.pwr.warmCnt = 0) := by
  unfold coldBegin
  split
  · obtain ⟨s0, h0, hcalm⟩ := coldReset_calm vsel refsel selftest b part s
    have hle : (coldClear vsel refsel b s0).pwr.cause ≤ 1 := by
      simpa [coldClear, h0] using hok.heldCause_le
    have hclear : ResetCauseOk (coldClear vsel refsel b s0) := ⟨rfl, fun _ => hle⟩
    exact ⟨hclear.of_calm hcalm, hcalm.cause ▸ hle, fun _ => hcalm.count⟩
  · next hbad =>
    refine ⟨resetCauseOk_powerHold hok.heldCause_le hok.1, ?_, fun h => absurd h hbad⟩
    rw [powerHold_pwr]
    exact hok.heldCause_le

/-- What `PORST_N` low may do: nothing to the register, or the block is held with cause 1. -/
def CalmOrPorst (s t : State) : Prop := Calm [] s t ∨ (t.pwr.cause = 1 ∧ t.pwr.porstLow = true)

theorem powerHold_porst (hw : s.pwr.wantWarm = none) :
    let t := powerHold 1 (s.onPwr fun p => { p with porstLow := true })
    ResetCauseOk t ∧ t.pwr.cause = 1 ∧ t.pwr.porstLow = true :=
  ⟨resetCauseOk_powerHold le_rfl hw, by simp [powerHold_pwr], by simp [powerHold_pwr]⟩

/-- R24, R25: `PORST_N` low changes nothing in the register, or holds the block with cause 1. -/
theorem execPorstNAssert_register (ns : Nat) (hok : ResetCauseOk s) (h : execPorstNAssert ns s = .next t) :
    ResetCauseOk t ∧ CalmOrPorst s t := by
  cases h
  have hd : Calm [] s s.drawn := (State.drawn_keeps s).calm rfl
  have hheld := powerHold_porst (s := s) hok.1
  have hdrawn := powerHold_porst (s := s.drawn) hok.1
  exact pulse_cases (P := fun u => ResetCauseOk u ∧ CalmOrPorst s u) _ _
    ⟨hok, .inl (.refl s)⟩ ⟨hok.of_calm hd, .inl hd⟩ (hheld.imp_right .inr) (hdrawn.imp_right .inr)

/-- R69: a loss of VAON or VIO holds the block with cause 0; good levels change nothing in the register. -/
theorem internalReset_register (v i : Nat) (hok : ResetCauseOk s) :
    ResetCauseOk (internalReset v i s) ∧
      if vaonOk s.pwr.vaon v && vioOk s.pwr.vio i then Calm [] s (internalReset v i s)
      else (internalReset v i s).pwr.cause = 0 := by
  by_cases hgood : (vaonOk s.pwr.vaon v && vioOk s.pwr.vio i) = true
  · have hcalm : Calm [] s (internalReset v i s) := by
      rw [internalReset, if_pos hgood]
      exact .onPwr rfl rfl rfl le_rfl (.refl s)
    exact ⟨hok.of_calm hcalm, by rwa [if_pos hgood]⟩
  · rw [if_neg hgood, internalReset, if_neg hgood]
    exact ⟨resetCauseOk_powerHold (Nat.zero_le 1) hok.1, by rw [powerHold_pwr]⟩

end Sys2Proof.Machine
end

section
/-!
R472: CAUSE and WARM_CNT name the most recent reset.
-/
namespace Sys2Proof.Machine

variable {s t : State}

/-- A command answers one state: what holds of some answer holds of this one. -/
theorem of_next {P : State → Prop} {r : Res} (h : ∃ u, r = .next u ∧ P u) (e : r = .next t) : P t := by
  obtain ⟨u, hu, hp⟩ := h
  cases hu.symm.trans e
  exact hp

theorem isPowerOn_eq_false {c : Instr} (hcold : ∀ v r x n p, c ≠ .coldReset v r x n p)
    (hporst : ∀ ns, c ≠ .porstNAssert ns) (hinternal : ∀ v i, c ≠ .internalPowerOnReset v i) : isPowerOn c = false := by
  unfold isPowerOn
  split
  · exact (hcold _ _ _ _ _ rfl).elim
  · exact (hporst _ rfl).elim
  · exact (hinternal _ _ rfl).elim
  · rfl

/-- R472: every command keeps `ResetCauseOk`. -/
theorem exec_keeps_resetCauseOk {c : Instr} (hok : ResetCauseOk s) (h : exec c s = .next t) : ResetCauseOk t := by
  cases hpower : isPowerOn c
  case false => exact hok.of_calmOrWarmed (of_next (exec_calmOrWarmed c hok hpower) h)
  case true =>
    cases c <;> cases hpower
    case coldReset => cases h; exact (coldBegin_register _ _ _ _ _ hok).1
    case porstNAssert => exact (execPorstNAssert_register _ hok h).1
    case internalPowerOnReset => cases h; exact (internalReset_register _ _ hok).1

/-- R24: a pulse of less than 100 ns on a reset pin is calm. -/
theorem exec_shortPulse_calm {c : Instr} {ns : Nat} (hns : ns < 100) (hc : c = .warmReset ns ∨ c = .porstNAssert ns)
    (h : exec c s = .next t) : Calm [] s t := by
  obtain rfl | rfl := hc
  · refine of_next (P := Calm [] s) (act_calm ?_) h
    rw [pulse_short _ _ _ hns]
    exact .refl s
  · cases h
    rw [pulse_short _ _ _ hns]
    exact .refl s

/-- Settles O59: a step is calm, is a warm reset, or is one of the three commands of a power-on reset. -/
theorem resetCauseNamesTheLastReset : Obligations.ResetCauseNamesTheLastReset := by
  intro s t hok hstep same front
  rcases hpending : s.pending with _ | ⟨c, rest⟩
  · have hidle : step s = .next (idle s) := by rw [step, hpending]
    cases hidle.symm.trans hstep
    have hcalm : Calm [] s (idle s) := (idle_keeps s).calm rfl
    simp [front, hpending, same, hok.of_calm hcalm, hcalm.cause, hcalm.count]
  · have hexec : exec c { s with pending := rest } = .next t := by rwa [step, hpending] at hstep
    have hoku : ResetCauseOk { s with pending := rest } := hok
    have hsame (h : Calm [] { s with pending := rest } t) : same := ⟨h.cause, h.count⟩
    have hfront : front = some c := by simp [front, hpending]
    simp only [hfront, Option.some.injEq, ne_eq]
    refine ⟨exec_keeps_resetCauseOk hoku hexec, ?cold, ?porst, ?internal, ?others, ?short, ?update⟩
    case cold =>
      rintro v r x n p rfl
      cases hexec
      exact (coldBegin_register _ _ _ _ _ hoku).2
    case porst =>
      rintro ns rfl
      exact (execPorstNAssert_register ns hoku hexec).2.imp_left hsame
    case internal =>
      rintro v i rfl
      cases hexec
      have h := (internalReset_register v i hoku).2
      split at h
      · next hgood => rw [if_pos hgood]; exact hsame h
      · next hbad => rw [if_neg hbad]; exact h
    case others =>
      intro hcold hporst hinternal
      have hpower := isPowerOn_eq_false hcold hporst hinternal
      exact (of_next (exec_calmOrWarmed c hoku hpower) hexec).imp hsame fun h => ⟨h.lower, h.upper, h.count⟩
    case short => exact fun ns hns hc => hsame (exec_shortPulse_calm hns hc hexec)
    case update =>
      intro hupdate
      have hplain : isPowerOn c = false ∧ mayWarm c = false := by
        obtain ⟨_, rfl⟩ | rfl | ⟨_, rfl⟩ | rfl | rfl | rfl := hupdate <;> exact ⟨rfl, rfl⟩
      exact hsame (of_next (exec_calm c _ hplain.1 hplain.2) hexec)

end Sys2Proof.Machine
end

section
/-!
R327, R422, R428: the waiter store and serial NOR. `KeepsStores` says that an operation leaves both as they should be; the
rules here say how such operations compose, and that an operation that leaves both parts alone is one by its `Keeps`.
-/
namespace Sys2Proof.Machine

/-- The waiter store stays in canonical form, and serial NOR keeps its slots and copies. -/
structure KeepsStores (s t : State) : Prop where
  waiters : WaitersOk s → WaitersOk t
  slots : SlotsOk s → SlotsOk t

/-- The outcome of a descriptor's body keeps the stores, whether it completes or waits. -/
def KeepsStoresD (s : State) : DescOut → Prop
  | .done _ _ t => KeepsStores s t
  | .wait t => KeepsStores s t

/-- The numbers of slots and copies that serial NOR holds (R422, R428). -/
def Fw.nor (f : Fw) : List Nat := [f.slotSt.length, f.img.length, f.last.length, f.copy.length]

theorem slotsOk_iff (s : State) : SlotsOk s ↔ s.fw.nor = [2, 2, 2, 2] := by simp [SlotsOk, Fw.nor]

@[simp] theorem Fw.nor_setSlot (k st : Nat) (f : Fw) : (f.setSlot k st).nor = f.nor := by simp [Fw.nor, Fw.setSlot]

@[simp] theorem Fw.nor_setLast (k st : Nat) (f : Fw) : (f.setLast k st).nor = f.nor := by simp [Fw.nor, Fw.setLast]

@[simp] theorem Fw.nor_dirPut (e : List Nat) (f : Fw) : (f.dirPut e).nor = f.nor := rfl

section Rules
variable {ps : List Area} {r s t : State}

theorem KeepsStores.refl (s : State) : KeepsStores s s := ⟨id, id⟩

/-- An operation that keeps the stores after operations that do. -/
theorem KeepsStores.after (g : KeepsStores s t) (h : KeepsStores r s) : KeepsStores r t :=
  ⟨g.waiters ∘ h.waiters, g.slots ∘ h.slots⟩

/-- What leaves the parts of the two stores alone keeps them. -/
theorem Keeps.stores (g : Keeps ps s t) (hs : ps.contains .syn = false) (hf : ps.contains .fw = false) : KeepsStores s t := by
  have es : t.syn = s.syn := g.only.same .syn (by simpa using hs)
  have ef : t.fw = s.fw := g.only.same .fw (by simpa using hf)
  constructor
  · unfold WaitersOk; rw [es]; exact id
  · unfold SlotsOk; rw [ef]; exact id

/-- An operation that leaves the parts of the two stores alone, after operations that keep them. -/
theorem Keeps.afterStores (g : Keeps ps s t) (hs : ps.contains .syn = false) (hf : ps.contains .fw = false)
    (h : KeepsStores r s) : KeepsStores r t := (g.stores hs hf).after h

theorem KeepsStores.ite {c : Prop} [Decidable c] (h : KeepsStores r s) (g : KeepsStores r t) :
    KeepsStores r (if c then s else t) := by
  split <;> assumption

/-- A change of the synchronisation part that spares the waiter store. -/
theorem KeepsStores.onSyn {f : Sync → Sync} (h : ∀ y, (f y).wtr = y.wtr) (k : KeepsStores r s) :
    KeepsStores r (s.onSyn f) :=
  ⟨fun g => by unfold WaitersOk; rw [State.onSyn_syn, h]; exact k.waiters g, k.slots⟩

/-- A write of one entry of the waiter store. -/
theorem KeepsStores.onWaiter (w : Nat) (v : Option Waiter) (k : KeepsStores r s) :
    KeepsStores r (s.onSyn fun y => { y with wtr := Tbl.set none y.wtr w v }) :=
  ⟨fun g => Tbl.wf_set (k.waiters g) w v, k.slots⟩

/-- A change of the firmware part that spares the numbers of slots and copies. -/
theorem KeepsStores.onFw {f : Fw → Fw} (h : ∀ x, (f x).nor = x.nor) (k : KeepsStores r s) : KeepsStores r (s.onFw f) :=
  ⟨k.waiters, fun g => by rw [slotsOk_iff, State.onFw_fw, h, ← slotsOk_iff]; exact k.slots g⟩

theorem State.updObj_stores (k : Nat) (f : SynObj → SynObj) (s : State) : KeepsStores s (s.updObj k f) :=
  .onSyn (fun _ => rfl) (.refl s)

theorem State.updGrp_stores (k : Nat) (f : SynGrp → SynGrp) (s : State) : KeepsStores s (s.updGrp k f) :=
  .onSyn (fun _ => rfl) (.refl s)

theorem State.updCore_stores (k : Nat) (f : SynCore → SynCore) (s : State) : KeepsStores s (s.updCore k f) :=
  .onSyn (fun _ => rfl) (.refl s)

theorem State.updFwCore_stores (k : Nat) (f : FwCore → FwCore) (s : State) : KeepsStores s (s.updFwCore k f) :=
  .onFw (fun _ => rfl) (.refl s)

theorem forList_stores {α : Type} (l : List α) {f : α → State → State}
    (hf : ∀ a u, KeepsStores r u → KeepsStores r (f a u)) (h : KeepsStores r s) : KeepsStores r (forList l f s) :=
  forList_ind (P := KeepsStores r) (fun a _ u hu => hf a u hu) h

theorem when_stores (p : Bool) {f : State → State} (hf : ∀ u, KeepsStores r u → KeepsStores r (f u))
    (h : KeepsStores r s) : KeepsStores r (when p f s) :=
  .ite (hf s h) h

theorem KeepsStoresD.ite {c : Prop} [Decidable c] {a b : DescOut} (h : KeepsStoresD s a) (g : KeepsStoresD s b) :
    KeepsStoresD s (if c then a else b) := by
  split <;> assumption

theorem KeepsStoresD.done {st res : Nat} (h : KeepsStores s t) : KeepsStoresD s (.done st res t) := h

theorem KeepsStoresD.wait (h : KeepsStores s t) : KeepsStoresD s (.wait t) := h

theorem KeepsStoresD.fail {st : Nat} (h : KeepsStores s t) : KeepsStoresD s (DescOut.fail st t) := h

theorem KeepsD.stores {o : DescOut} (g : KeepsD ps s o) (hs : ps.contains .syn = false) (hf : ps.contains .fw = false) :
    KeepsStoresD s o := by
  cases o
  · exact Keeps.stores g hs hf
  · exact Keeps.stores g hs hf

theorem KeepsStoresD.after {o : DescOut} (g : KeepsStoresD s o) (h : KeepsStores r s) : KeepsStoresD r o := by
  cases o
  · exact KeepsStores.after g h
  · exact KeepsStores.after g h

theorem KeepsD.afterStores {o : DescOut} (g : KeepsD ps s o) (hs : ps.contains .syn = false) (hf : ps.contains .fw = false)
    (h : KeepsStores r s) : KeepsStoresD r o := (g.stores hs hf).after h

theorem withVault_stores {f : State → DescOut} (hf : ∀ u, KeepsStores r u → KeepsStoresD r (f u)) (h : KeepsStores r s) :
    KeepsStoresD r (withVault s f) :=
  .ite (.fail h) (hf s h)

theorem refBreak_stores {loss : State → State} (hl : ∀ u, KeepsStores r u → KeepsStores r (loss u)) (h : KeepsStores r s) :
    KeepsStores r (refBreak loss s) :=
  .ite (hl s h) ((State.onClk_keeps ..).afterStores rfl rfl h)

theorem pulse_stores (least ns : Nat) {f : State → State} (hf : ∀ u, KeepsStores r u → KeepsStores r (f u))
    (h : KeepsStores r s) : KeepsStores r (pulse least ns f s) :=
  have hd : KeepsStores r s.drawn := (State.drawn_keeps ..).afterStores rfl rfl h
  pulse_cases least ns h hd (hf s h) (hf _ hd)

theorem withData_stores {f : List Nat → DescOut} (x : Ext) (n : Nat) (hf : ∀ b, KeepsStoresD r (f b)) (h : KeepsStores r s) :
    KeepsStoresD r (withData x n s f) := by
  unfold withData
  split
  · exact .fail h
  · exact hf _

/-- A descriptor keeps the stores if its body does. -/
theorem runDesc_stores {body : State → DescOut} (hb : ∀ u, KeepsStoresD u (body u)) (h : DescHdr) (d : DescSpec) (s : State) :
    KeepsStores s (runDesc h d body s) := by
  have hbegin : KeepsStores s (descBegin h.ctx.val s) :=
    (State.updCtx_keeps ..).afterStores rfl rfl <| (State.onHif_keeps ..).stores rfl rfl
  unfold runDesc
  refine .ite (.refl s) (.ite ((complete_keeps ..).afterStores rfl rfl hbegin) ?_)
  have hbody := (hb (descBegin h.ctx.val s)).after hbegin
  split
  · next heq => rw [heq] at hbody; exact (complete_keeps ..).afterStores rfl rfl hbody
  · next heq => rw [heq] at hbody; exact (State.updCtx_keeps ..).afterStores rfl rfl (r := s) hbody

theorem act_stores {f : State → State} (h : KeepsStores s (f s)) : ∃ t, act f s = .next t ∧ KeepsStores s t :=
  ⟨_, rfl, .ite h (.refl s)⟩

theorem hsAnswer_stores (code data : Nat) (h : KeepsStores s t) : KeepsStores s (hsAnswer code data t) :=
  (hsAnswer_keeps ..).afterStores rfl rfl h

theorem hsEmu_stores {f : State → State} (h : KeepsStores s (f s)) : ∃ t, hsEmu f s = .next t ∧ KeepsStores s t :=
  ⟨_, rfl, .ite (hsAnswer_stores _ _ (.refl s)) (.ite (hsAnswer_stores _ _ (.refl s)) (hsAnswer_stores _ _ h))⟩

theorem hsHif_stores {f : State → State} (h : KeepsStores s (f s)) : ∃ t, hsHif f s = .next t ∧ KeepsStores s t :=
  ⟨_, rfl, .ite (hsAnswer_stores _ _ (.refl s)) (.ite (hsAnswer_stores _ _ (.refl s)) (hsAnswer_stores _ _ h))⟩

end Rules

end Sys2Proof.Machine
end

section
/-!
R327, R422, R428: each operation that may change the synchronisation or the firmware part keeps the stores.
-/
namespace Sys2Proof.Machine

theorem reclaimCore_stores (a1 a2 a3) (s : State) : KeepsStores s (reclaimCore a1 a2 a3 s) := by
  unfold reclaimCore
  dsimp only
  split
  · exact .refl _
  · exact .ite ((emitSyn_keeps ..).afterStores rfl rfl <| .ite ((State.onTrs_keeps ..).afterStores rfl rfl <|
    State.updCore_stores ..) <| State.updCore_stores ..) <| .ite ((State.onTrs_keeps ..).afterStores rfl rfl <|
    State.updCore_stores ..) <| State.updCore_stores ..

theorem reclaimClu_stores (a1 a2) (s : State) : KeepsStores s (reclaimClu a1 a2 s) :=
  forList_stores _ (fun _ _ h => (reclaimCore_stores ..).after h) (.refl _)

theorem cluStop_stores (a1) (s : State) : KeepsStores s (cluStop a1 s) :=
  (reclaimClu_stores ..).after <| (State.updClu_keeps ..).afterStores rfl rfl <| .ite (.refl _) <|
    State.updFwCore_stores ..

theorem stopClustersOf_stores (a1) (s : State) : KeepsStores s (stopClustersOf a1 s) :=
  forList_stores _ (fun _ _ h => (domStopSend_keeps ..).afterStores rfl rfl <| (cluStop_stores ..).after <|
    (State.updClu_keeps ..).afterStores rfl rfl h) (.refl _)

theorem railFault_stores (a1 a2) (s : State) : KeepsStores s (railFault a1 a2 s) :=
  .ite (.refl _) <| (State.updReg_keeps ..).afterStores rfl rfl <| (State.updProt_keeps ..).afterStores rfl rfl <|
    (stopClustersOf_stores ..).after <| (railPhasesTo_keeps ..).afterStores rfl rfl <|
    (railPenLow_keeps ..).afterStores rfl rfl <| (brakeStop_keeps ..).stores rfl rfl

theorem fastStop_stores (a1 a2 a3) (s : State) : KeepsStores s (fastStop a1 a2 a3 s) :=
  .ite (.refl _) <| (finishStart_keeps ..).afterStores rfl rfl <| (finishStops_keeps ..).afterStores rfl rfl <|
    (State.onRail_keeps ..).afterStores rfl rfl <| forList_stores _ (fun _ _ h => (railFault_stores ..).after h) <|
    forList_stores _ (fun _ _ h => (stopClustersOf_stores ..).after h) (.refl _)

theorem stopWithMaster_stores (a1) (s : State) : KeepsStores s (stopWithMaster a1 s) :=
  (masterFaults_keeps ..).afterStores rfl rfl <| fastStop_stores ..

theorem stopTrackers_stores (a1) (s : State) : KeepsStores s (stopTrackers a1 s) := stopWithMaster_stores ..

theorem rampDown_stores (a1 a2) (s : State) : KeepsStores s (rampDown a1 a2 s) :=
  (stopWithMaster_stores ..).after <| (State.updReg_keeps ..).afterStores rfl rfl <|
    (State.updProt_keeps ..).stores rfl rfl

theorem rampDownLevels_stores (s : State) : KeepsStores s (rampDownLevels s) :=
  forList_stores _ (fun _ _ h => .ite h <| forList_stores _ (fun _ _ h => (rampDown_stores ..).after h) h) (.refl _)

theorem railSettle_stores (s : State) : KeepsStores s (railSettle s) :=
  (finishStart_keeps ..).afterStores rfl rfl <| (finishStops_keeps ..).afterStores rfl rfl <| rampDownLevels_stores ..

theorem protStop_stores (a1 a2) (s : State) : KeepsStores s (protStop a1 a2 s) :=
  (railSettle_stores ..).after <| (countStop_keeps ..).afterStores rfl rfl <| (stopTrackers_stores ..).after <|
    railFault_stores ..

theorem fastStopAll_stores (a1) (s : State) : KeepsStores s (fastStopAll a1 s) :=
  (railSettle_stores ..).after <| (fastStop_stores ..).after <| (State.onRail_keeps ..).stores rfl rfl

theorem refuseStart_stores (a1 a2) (s : State) : KeepsStores s (refuseStart a1 a2 s) :=
  (stopTrackers_stores ..).after <| railFault_stores ..

theorem checkCapacity_stores (a1) (s : State) : KeepsStores s (checkCapacity a1 s) :=
  .ite ((railSettle_stores ..).after <| (emitRail_keeps ..).afterStores rfl rfl <| (refuseStart_stores ..).after <|
    .ite ((audYield_keeps ..).stores rfl rfl) (.refl _)) <| .ite ((protStop_stores ..).after <|
    (frecTake_keeps ..).afterStores rfl rfl <| (emitRail_keeps ..).afterStores rfl rfl <|
    .ite ((audYield_keeps ..).stores rfl rfl) (.refl _)) <| .ite ((audYield_keeps ..).stores rfl rfl) (.refl _)

theorem disablePhase_stores (a1 a2) (s : State) : KeepsStores s (disablePhase a1 a2 s) :=
  (checkCapacity_stores ..).after <| (State.updPh_keeps ..).stores rfl rfl

theorem crowbar_stores (a1) (s : State) : KeepsStores s (crowbar a1 s) :=
  (State.updReg_keeps ..).afterStores rfl rfl <| (State.updProt_keeps ..).afterStores rfl rfl <|
    (stopClustersOf_stores ..).after <|
    forList_stores _ (fun _ _ h => (State.updPh_keeps ..).afterStores rfl rfl h) <|
    (brakeStop_keeps ..).stores rfl rfl

theorem stopAllClocks_stores (a1) (s : State) : KeepsStores s (stopAllClocks a1 s) :=
  forList_stores _ (fun _ _ h => (cluStop_stores ..).after <| (State.updClu_keeps ..).afterStores rfl rfl h) <|
    forList_stores _ (fun _ _ h => (domStopNow_keeps ..).afterStores rfl rfl h) (.refl _)

theorem refLossCore_stores (a1 a2) (s : State) : KeepsStores s (refLossCore a1 a2 s) :=
  (setAlarm_keeps ..).afterStores rfl rfl <| (stopAllClocks_stores ..).after <|
    (clrHoldEnter_keeps ..).afterStores rfl rfl <|
    forList_stores _ (fun _ _ h => (State.updDom_keeps ..).afterStores rfl rfl h) <|
    (emitClk_keeps ..).afterStores rfl rfl <| (emitClk_keeps ..).afterStores rfl rfl <|
    (State.onTb_keeps ..).afterStores rfl rfl <| (State.onClk_keeps ..).stores rfl rfl

theorem pllFail_stores (s : State) : KeepsStores s (pllFail s) :=
  (emitClk_keeps ..).afterStores rfl rfl <| (setAlarm_keeps ..).afterStores rfl rfl <|
    (stopAllClocks_stores ..).after <|
    forList_stores _ (fun _ _ h => (State.updDom_keeps ..).afterStores rfl rfl h) <|
    (State.onClk_keeps ..).stores rfl rfl

theorem waitMark_stores (a1) (s : State) : KeepsStores s (waitMark a1 s) := State.updCore_stores ..

theorem coreUpdate_stores (a1) (s : State) : KeepsStores s (coreUpdate a1 s) :=
  .ite (State.updCore_stores ..) <| (reclaimCore_stores ..).after <| State.updCore_stores ..

theorem setWaiter_stores (w : Nat) (v : Option Waiter) (s : State) : KeepsStores s (setWaiter w v s) :=
  .after (coreUpdate_stores ..) (.onWaiter w v (waitMark_stores ..))

theorem releaseWait_stores (a1 a2) (s : State) : KeepsStores s (releaseWait a1 a2 s) :=
  (waitRespond_keeps ..).afterStores rfl rfl <| (State.updCore_stores ..).after <| setWaiter_stores ..

theorem withdraw_stores (a1) (s : State) : KeepsStores s (withdraw a1 s) := by
  unfold withdraw
  refine .ite ?_ (.refl _)
  split
  · exact State.updGrp_stores ..
  · exact .refl _

theorem reportFail_stores (a1 a2 a3) (s : State) : KeepsStores s (reportFail a1 a2 a3 s) :=
  .ite ((emitSyn_keeps ..).afterStores rfl rfl <| .onSyn (fun _ => rfl) <|
    (State.updCtx_keeps ..).afterStores rfl rfl <| .onSyn (fun _ => rfl) (.refl _)) <| .onSyn (fun _ => rfl) <|
    (State.updCtx_keeps ..).afterStores rfl rfl <| .onSyn (fun _ => rfl) (.refl _)

theorem failWait_stores (a1 a2) (s : State) : KeepsStores s (failWait a1 a2 s) := by
  unfold failWait
  dsimp only
  split
  · exact .refl _
  · exact (waitRespond_keeps ..).afterStores rfl rfl <| (setWaiter_stores ..).after <|
    (withdraw_stores ..).after <| reportFail_stores ..

theorem releaseOn_stores (a1) (s : State) : KeepsStores s (releaseOn a1 s) :=
  forList_stores _ (fun _ _ h => (releaseWait_stores ..).after h) (.refl _)

theorem countRace_stores (a1 a2 a3) (s : State) : KeepsStores s (countRace a1 a2 a3 s) :=
  .ite ((emitSyn_keeps ..).afterStores rfl rfl <| .onSyn (fun _ => rfl) <| .onSyn (fun _ => rfl) (.refl _)) <|
    .onSyn (fun _ => rfl) (.refl _)

theorem flagOp_stores (a1 a2 a3) (s : State) : KeepsStores s (flagOp a1 a2 a3 s) := by
  unfold flagOp
  dsimp only
  split
  · exact State.updObj_stores ..
  · split
    · exact .ite ((countRace_stores ..).after <| State.updObj_stores ..) <| State.updObj_stores ..
    · exact State.updObj_stores ..

theorem countErr_stores (o w ctx kind before : Nat) (s : State) : KeepsStores s (countErr o w ctx kind before s) := by
  have hcount : KeepsStores s (s.onSyn fun y =>
      if kind = 0 then { y with udf := satInc 16 y.udf } else { y with ovf := satInc 16 y.ovf }) :=
    .onSyn (fun y => by split <;> rfl) (.refl s)
  unfold countErr
  exact .ite ((emitSyn_keeps ..).afterStores rfl rfl (.onSyn (fun _ => rfl) hcount)) hcount

theorem countOp_stores (a1 a2 a3 a4 a5 a6) (s : State) : KeepsStores s (countOp a1 a2 a3 a4 a5 a6 s) :=
  (releaseOn_stores ..).after <| (epRespond_keeps ..).afterStores rfl rfl <| .ite ((countErr_stores ..).after <|
    State.updObj_stores ..) <| State.updObj_stores ..

theorem hold_stores (a1 a2) (s : State) : KeepsStores s (hold a1 a2 s) :=
  (setWaiter_stores ..).after <| .onSyn (fun _ => rfl) (.refl _)

theorem rebase_stores (members : List Nat) (s : State) : KeepsStores s (rebase members s) :=
  forList_stores _ (fun _ _ h => .onWaiter _ _ h) <|
    forList_stores _ (fun _ _ h => (State.updObj_stores ..).after h) (.refl s)

theorem barrierComplete_stores (a1) (s : State) : KeepsStores s (barrierComplete a1 s) :=
  (rebase_stores ..).after <| (State.updGrp_stores ..).after <|
    forList_stores _ (fun _ _ h => (releaseWait_stores ..).after h) (.refl _)

theorem arrive_stores (a1 a2 a3 a4 a5 a6) (s : State) : KeepsStores s (arrive a1 a2 a3 a4 a5 a6 s) :=
  .ite ((hold_stores ..).after <| State.updGrp_stores ..) <| (epRespond_keeps ..).afterStores rfl rfl <|
    barrierComplete_stores ..

theorem mapViolation_stores (a1) (s : State) : KeepsStores s (mapViolation a1 s) :=
  .ite ((emitSyn_keeps ..).afterStores rfl rfl <| .onSyn (fun _ => rfl) <| .onSyn (fun _ => rfl) (.refl _)) <|
    .onSyn (fun _ => rfl) (.refl _)

theorem synPerform_stores (a1 a2) (s : State) : KeepsStores s (synPerform a1 a2 s) := by
  unfold synPerform
  dsimp only
  refine .ite ((epRespond_keeps ..).afterStores rfl rfl <|
    mapViolation_stores ..) (.ite ((epRespond_keeps ..).stores rfl rfl) (.ite
    ((epRespond_keeps ..).stores rfl rfl) ?_))
  split
  · exact (releaseOn_stores ..).after <| (epRespond_keeps ..).afterStores rfl rfl <| flagOp_stores ..
  · exact (releaseOn_stores ..).after <| (epRespond_keeps ..).afterStores rfl rfl <| flagOp_stores ..
  · exact .ite ((epRespond_keeps ..).stores rfl rfl) <| hold_stores ..
  · exact .ite (hold_stores ..) <| (epRespond_keeps ..).stores rfl rfl
  · exact countOp_stores ..
  · exact countOp_stores ..
  · exact .ite ((epRespond_keeps ..).stores rfl rfl) <| hold_stores ..
  · split
    · exact arrive_stores ..
    · exact (epRespond_keeps ..).stores rfl rfl

theorem clearObj_stores (a1) (s : State) : KeepsStores s (clearObj a1 s) := State.updObj_stores ..

theorem allocate_stores (s : State) : KeepsStores s (allocate s) :=
  forList_stores _ (fun _ _ h => (creditUpdate_keeps ..).afterStores rfl rfl h) <| .onFw (fun _ => rfl) <|
    forList_stores _ (fun _ _ h => (State.updFcCl_keeps ..).afterStores rfl rfl h) <|
    (State.onTrs_keeps ..).afterStores rfl rfl <|
    forList_stores _ (fun _ _ h => (State.updTrsCl_keeps ..).afterStores rfl rfl h) <|
    (odAllocate_keeps ..).afterStores rfl rfl <| (floorsUpdate_keeps ..).afterStores rfl rfl <|
    forList_stores _ (fun _ _ h => (migrate_keeps ..).afterStores rfl rfl h) (.refl _)

theorem takeLoan_stores (a1 a2) (s : State) : KeepsStores s (takeLoan a1 a2 s) :=
  .ite ((State.updTrsCl_keeps ..).afterStores rfl rfl <| State.updCore_stores ..) (.refl _)

theorem trsBoundary_stores (s : State) : KeepsStores s (trsBoundary s) :=
  forList_stores _ (fun _ _ h => (setTargets_keeps ..).afterStores rfl rfl h) <|
    .ite ((allocCommit_keeps ..).afterStores rfl rfl <| (allocate_stores ..).after <|
    .ite ((cutBorrowed_keeps ..).afterStores rfl rfl <| (State.onTrs_keeps ..).afterStores rfl rfl <|
    forList_stores _ (fun _ _ h => forList_stores _ (fun _ _ h => (takeLoan_stores ..).after h) h) (.refl _)) <|
    forList_stores _ (fun _ _ h => forList_stores _ (fun _ _ h => (takeLoan_stores ..).after h) h) (.refl _)) <|
    .ite ((cutBorrowed_keeps ..).afterStores rfl rfl <| (State.onTrs_keeps ..).afterStores rfl rfl <|
    forList_stores _ (fun _ _ h => forList_stores _ (fun _ _ h => (takeLoan_stores ..).after h) h) (.refl _)) <|
    forList_stores _ (fun _ _ h => forList_stores _ (fun _ _ h => (takeLoan_stores ..).after h) h) (.refl _)

theorem commitSlot_stores (a1) (s : State) : KeepsStores s (commitSlot a1 s) := by
  unfold commitSlot
  split
  · exact .refl _
  · exact .ite ((selectStage_keeps ..).stores rfl rfl) <| allocate_stores ..

theorem commitSlots_stores (s : State) : KeepsStores s (commitSlots s) :=
  forList_stores _ (fun _ _ h => (commitSlot_stores ..).after h) <| (State.onFrm_keeps ..).stores rfl rfl

theorem waitFrame_stores (s : State) : KeepsStores s (waitFrame s) := by
  unfold waitFrame
  exact .onSyn (fun _ => rfl) <| forList_stores _ (fun _ _ h => (State.updCore_stores ..).after h) <|
    forList_stores _ (fun _ _ h => .ite h <| (waitMark_stores ..).after h) (.refl _)

theorem clrWaitf_stores (s : State) : KeepsStores s (clrWaitf s) := by
  unfold clrWaitf
  exact .onSyn (fun _ => rfl) <| forList_stores _ (fun _ _ h => (State.updCore_stores ..).after h) <|
    forList_stores _ (fun _ _ h => (waitMark_stores ..).after h) (.refl _)

theorem clrRound_stores (s : State) : KeepsStores s (clrRound s) :=
  .ite (.refl _) <| .ite ((State.onClr_keeps ..).afterStores rfl rfl <| clrWaitf_stores ..) <|
    (State.onClr_keeps ..).afterStores rfl rfl <| (clrUnneeded_keeps ..).afterStores rfl rfl <|
    (clrGrants_keeps ..).afterStores rfl rfl <| .ite ((clrReport_keeps ..).afterStores rfl rfl <|
    forList_stores _ (fun _ _ h => (clrJudge_keeps ..).afterStores rfl rfl h) <|
    (State.onClr_keeps ..).afterStores rfl rfl <| clrWaitf_stores ..) <|
    forList_stores _ (fun _ _ h => (clrRenew_keeps ..).afterStores rfl rfl h) <|
    (clrReport_keeps ..).afterStores rfl rfl <|
    forList_stores _ (fun _ _ h => (clrJudge_keeps ..).afterStores rfl rfl h) <|
    (State.onClr_keeps ..).afterStores rfl rfl <| clrWaitf_stores ..

theorem driftAct_stores (a1 a2) (s : State) : KeepsStores s (driftAct a1 a2 s) :=
  .ite (.ite ((refLossCore_stores ..).after <| .ite ((driftDerate_keeps ..).afterStores rfl rfl <|
    (State.onClk_keeps ..).stores rfl rfl) <| (emitClk_keeps ..).afterStores rfl rfl <|
    (driftDerate_keeps ..).afterStores rfl rfl <| (State.onClk_keeps ..).stores rfl rfl) <|
    .ite ((driftDerate_keeps ..).afterStores rfl rfl <| (State.onClk_keeps ..).stores rfl rfl) <|
    (emitClk_keeps ..).afterStores rfl rfl <| (driftDerate_keeps ..).afterStores rfl rfl <|
    (State.onClk_keeps ..).stores rfl rfl) <| .ite ((State.onClk_keeps ..).stores rfl rfl) <|
    .ite ((State.onClk_keeps ..).afterStores rfl rfl <| (State.onClk_keeps ..).stores rfl rfl) <|
    (emitClk_keeps ..).afterStores rfl rfl <| (driftUnderate_keeps ..).afterStores rfl rfl <|
    (State.onClk_keeps ..).afterStores rfl rfl <| (State.onClk_keeps ..).stores rfl rfl

theorem driftMeasure_stores (a1) (s : State) : KeepsStores s (driftMeasure a1 s) :=
  .ite (.refl _) <| .ite (.ite ((State.onClk_keeps ..).afterStores rfl rfl <|
    forList_stores _ (fun _ _ h => (State.updLnk_keeps ..).afterStores rfl rfl h) <|
    (State.onClr_keeps ..).stores rfl rfl) <| (emitClk_keeps ..).afterStores rfl rfl <|
    (State.onClk_keeps ..).afterStores rfl rfl <|
    forList_stores _ (fun _ _ h => (State.updLnk_keeps ..).afterStores rfl rfl h) <|
    (State.onClr_keeps ..).stores rfl rfl) <| .ite ((refStable_keeps ..).afterStores rfl rfl <|
    (driftAct_stores ..).after <| (State.onClr_keeps ..).afterStores rfl rfl <|
    (State.onClk_keeps ..).afterStores rfl rfl <| (State.onClk_keeps ..).afterStores rfl rfl <|
    forList_stores _ (fun _ _ h => (State.updLnk_keeps ..).afterStores rfl rfl h) <|
    (State.onClr_keeps ..).stores rfl rfl) <| (driftAct_stores ..).after <|
    (State.onClr_keeps ..).afterStores rfl rfl <| (State.onClk_keeps ..).afterStores rfl rfl <|
    (State.onClk_keeps ..).afterStores rfl rfl <|
    forList_stores _ (fun _ _ h => (State.updLnk_keeps ..).afterStores rfl rfl h) <|
    (State.onClr_keeps ..).stores rfl rfl

theorem refWindow_stores (a1) (s : State) : KeepsStores s (refWindow a1 s) :=
  .ite (.ite ((refStable_keeps ..).afterStores rfl rfl <| (State.onClk_keeps ..).afterStores rfl rfl <|
    (State.onClk_keeps ..).stores rfl rfl) <| (State.onClk_keeps ..).afterStores rfl rfl <|
    (State.onClk_keeps ..).stores rfl rfl) <| refBreak_stores (fun _ h => (refLossCore_stores ..).after h) <|
    (State.onClk_keeps ..).stores rfl rfl

theorem pllFailStep_stores (s : State) : KeepsStores s (pllFailStep s) := by
  unfold pllFailStep
  split
  · exact .ite (pllFail_stores ..) (.refl _)
  · exact .refl _

theorem set7Advance_stores (s : State) : KeepsStores s (set7Advance s) :=
  .ite ((emitSns_keeps ..).afterStores rfl rfl <| (setAlarm_keeps ..).afterStores rfl rfl <|
    .ite (forList_stores _ (fun _ _ h => .ite h <| (retarget_keeps ..).afterStores rfl rfl <|
    (State.updReg_keeps ..).afterStores rfl rfl h) <| (State.onSns_keeps ..).stores rfl rfl) <|
    (State.onRail_keeps ..).afterStores rfl rfl <|
    forList_stores _ (fun _ _ h => (stopClustersOf_stores ..).after h) <| forList_stores _ (fun _ _ h => .ite h <|
    (retarget_keeps ..).afterStores rfl rfl <| (State.updReg_keeps ..).afterStores rfl rfl h) <|
    (State.onSns_keeps ..).stores rfl rfl) (.refl _)

theorem leafAck_stores (a1) (s : State) : KeepsStores s (leafAck a1 s) :=
  (rampDownLevels_stores ..).after <| (set7Advance_stores ..).after <|
    (rootAdvance_keeps ..).afterStores rfl rfl <| (leafApply_keeps ..).stores rfl rfl

theorem leafFail_stores (a1 a2) (s : State) : KeepsStores s (leafFail a1 a2 s) :=
  .ite (.refl _) <| .ite (.ite ((State.updDom_keeps ..).afterStores rfl rfl <|
    (domStopNow_keeps ..).stores rfl rfl) (.refl _)) <| (rampDownLevels_stores ..).after <|
    (rootAdvance_keeps ..).afterStores rfl rfl <| (emitClk_keeps ..).afterStores rfl rfl <|
    (setAlarm_keeps ..).afterStores rfl rfl <| forList_stores _ (fun _ _ h => (cluStop_stores ..).after <|
    (State.updClu_keeps ..).afterStores rfl rfl h) <| (State.updDom_keeps ..).afterStores rfl rfl <|
    (domStopNow_keeps ..).stores rfl rfl

theorem thermTrip_stores (i : Nat) (s : State) : KeepsStores s (thermTrip i s) := by
  unfold thermTrip
  split
  · exact .refl s
  · extract_lets l off trips third s1 s2 s3 s4 s5
    have h3 : KeepsStores s s3 := (emitTrip_keeps ..).afterStores rfl rfl <| (frecTake_keeps ..).afterStores rfl rfl <|
      (State.onAud_keeps ..).stores rfl rfl
    have h4 : KeepsStores s s4 :=
      .ite ((emitTrip_keeps ..).afterStores rfl rfl <| (setAlarm_keeps ..).afterStores rfl rfl h3) h3
    have h5 : KeepsStores s s5 := by
      unfold s5
      split
      · exact .ite ((audAbandon_keeps ..).afterStores rfl rfl h4) h4
      · exact h4
    exact .ite ((fastStopAll_stores ..).after <| forList_stores _ (fun _ _ h => (cluStop_stores ..).after h) h5) (.refl s)

theorem refCompare_stores (a1 a2 a3) (s : State) : KeepsStores s (refCompare a1 a2 a3 s) := by
  unfold refCompare
  dsimp only
  refine (State.onSns_keeps ..).afterStores rfl rfl (.ite ((rampDownLevels_stores ..).after
    ((set7Advance_stores ..).after ((noMajorityStep1_keeps ..).afterStores rfl rfl
    ((State.onSns_keeps ..).afterStores rfl rfl ?_)))) ?_)
  · split
    · exact (refExclude_keeps ..).afterStores rfl rfl <| (State.onSns_keeps ..).stores rfl rfl
    · exact (State.onSns_keeps ..).stores rfl rfl
  · split
    · exact (refExclude_keeps ..).afterStores rfl rfl <| (State.onSns_keeps ..).stores rfl rfl
    · exact (State.onSns_keeps ..).stores rfl rfl

theorem unitOut_stores (a1 a2) (s : State) : KeepsStores s (unitOut a1 a2 s) := by
  unfold unitOut
  dsimp only
  split
  · exact (State.onTly_keeps ..).stores rfl rfl
  · exact (presetLoops_keeps ..).afterStores rfl rfl <| State.updFwCore_stores ..
  · exact (siteChanged_keeps ..).afterStores rfl rfl <| (State.updSite_keeps ..).stores rfl rfl
  · exact (returnAll_keeps ..).stores rfl rfl
  · exact forList_stores _ (fun _ _ h => (shedUpdate_keeps ..).afterStores rfl rfl h) <|
    forList_stores _ (fun _ _ h => (State.updPh_keeps ..).afterStores rfl rfl h) (.refl _)

theorem audOut_stores (a1 a2 a3) (s : State) : KeepsStores s (audOut a1 a2 a3 s) :=
  .ite (.refl _) <| (emitClerk_keeps ..).afterStores rfl rfl <| (State.updUnit_keeps ..).afterStores rfl rfl <|
    unitOut_stores ..

theorem audBegin_stores (a1 a2 a3 a4 a5) (s : State) : KeepsStores s (audBegin a1 a2 a3 a4 a5 s) := by
  unfold audBegin
  exact (State.onAud_keeps ..).afterStores rfl rfl <| (State.updUnit_keeps ..).afterStores rfl rfl <|
    .ite (audOut_stores ..) <| .ite (.ite ((State.onTly_keeps ..).stores rfl rfl) <|
    .ite (State.updFwCore_stores ..) (.refl _)) (.refl _)

theorem bodyAudTest_stores (a1 a2 a3 a4 a5) (s : State) : KeepsStoresD s (bodyAudTest a1 a2 a3 a4 a5 s) :=
  .ite ((DescOut.fail_keeps ..).stores rfl rfl) <| .wait <| audBegin_stores ..

theorem bodyAudRemove_stores (a1 a2 a3 a4) (s : State) : KeepsStoresD s (bodyAudRemove a1 a2 a3 a4 s) :=
  .ite ((DescOut.fail_keeps ..).stores rfl rfl) <| .ite ((DescOut.fail_keeps ..).stores rfl rfl) <| .done <|
    audOut_stores ..

theorem unitBack_stores (a1 a2) (s : State) : KeepsStores s (unitBack a1 a2 s) := by
  unfold unitBack
  split
  · exact (State.onTly_keeps ..).stores rfl rfl
  · exact (presetLoops_keeps ..).afterStores rfl rfl <| State.updFwCore_stores ..
  · exact (emitSns_keeps ..).afterStores rfl rfl <| (siteChanged_keeps ..).afterStores rfl rfl <|
    (State.updSite_keeps ..).stores rfl rfl
  · exact forList_stores _ (fun _ _ h => (State.updPh_keeps ..).afterStores rfl rfl h) (.refl _)

theorem audBack_stores (a1 a2) (s : State) : KeepsStores s (audBack a1 a2 s) :=
  (emitClerk_keeps ..).afterStores rfl rfl <| (State.updUnit_keeps ..).afterStores rfl rfl <| unitBack_stores ..

theorem bodyAudReturn_stores (a1 a2) (s : State) : KeepsStoresD s (bodyAudReturn a1 a2 s) := by
  unfold bodyAudReturn
  split
  · exact (DescOut.fail_keeps ..).stores rfl rfl
  · exact (DescOut.fail_keeps ..).stores rfl rfl
  · exact (DescOut.fail_keeps ..).stores rfl rfl
  · exact .done <| audBack_stores ..
  · exact (DescOut.fail_keeps ..).stores rfl rfl

theorem audDone_stores (a1) (s : State) : KeepsStores s (audDone a1 s) := by
  unfold audDone
  dsimp only
  split
  · exact .refl _
  · split
    · refine (complete_keeps ..).afterStores rfl rfl ?_
      split
      · exact .ite ((audBack_stores ..).after <| (emitClerk_keeps ..).afterStores rfl rfl <|
        (State.updUnit_keeps ..).afterStores rfl rfl <| (State.onAud_keeps ..).stores rfl rfl) <|
        (emitClerk_keeps ..).afterStores rfl rfl <| (State.updUnit_keeps ..).afterStores rfl rfl <|
        (State.onAud_keeps ..).stores rfl rfl
      · exact (setAlarm_keeps ..).afterStores rfl rfl <| (emitClerk_keeps ..).afterStores rfl rfl <|
        (State.updUnit_keeps ..).afterStores rfl rfl <| (State.onAud_keeps ..).stores rfl rfl
    · split
      · exact .ite ((audBack_stores ..).after <| (emitClerk_keeps ..).afterStores rfl rfl <|
        (State.updUnit_keeps ..).afterStores rfl rfl <| (State.onAud_keeps ..).stores rfl rfl) <|
        (emitClerk_keeps ..).afterStores rfl rfl <| (State.updUnit_keeps ..).afterStores rfl rfl <|
        (State.onAud_keeps ..).stores rfl rfl
      · exact (setAlarm_keeps ..).afterStores rfl rfl <| (emitClerk_keeps ..).afterStores rfl rfl <|
        (State.updUnit_keeps ..).afterStores rfl rfl <| (State.onAud_keeps ..).stores rfl rfl

theorem audSchedule_stores (s : State) : KeepsStores s (audSchedule s) := by
  unfold audSchedule
  dsimp only
  refine .ite (.refl _) ?_
  split
  · exact (State.onAud_keeps ..).stores rfl rfl
  · exact .ite ((State.onAud_keeps ..).afterStores rfl rfl <| (State.onAud_keeps ..).stores rfl rfl) <|
    (audBegin_stores ..).after <| (State.onAud_keeps ..).afterStores rfl rfl <| (State.onAud_keeps ..).stores rfl rfl

theorem judgeStart_stores (a1 a2) (s : State) : KeepsStores s (judgeStart a1 a2 s) :=
  .ite (.refl _) <| .ite ((emitRail_keeps ..).afterStores rfl rfl <| refuseStart_stores ..) <|
    .ite ((emitRail_keeps ..).afterStores rfl rfl <| refuseStart_stores ..) (.refl _)

theorem identifyNext_stores (s : State) : KeepsStores s (identifyNext s) := by
  unfold identifyNext
  dsimp only
  split
  · exact .ite ((finishStart_keeps ..).afterStores rfl rfl <|
    forList_stores _ (fun _ _ h => (judgeStart_stores ..).after h) <| (onStart_keeps ..).stores rfl rfl) (.refl _)
  · exact .refl _

theorem senseCheck_stores (a1) (s : State) : KeepsStores s (senseCheck a1 s) := by
  unfold senseCheck
  dsimp only
  split
  · exact .ite ((identifyNext_stores ..).after <| (onStart_keeps ..).afterStores rfl rfl <|
    forList_stores _ (fun _ _ h => .ite h <| .ite ((emitRail_keeps ..).afterStores rfl rfl <|
    (refuseStart_stores ..).after h) <| (State.updProt_keeps ..).afterStores rfl rfl h) (.refl _)) (.refl _)
  · exact .refl _

theorem phaseIdentify_stores (a1 a2 a3 a4 a5) (s : State) : KeepsStores s (phaseIdentify a1 a2 a3 a4 a5 s) := by
  unfold phaseIdentify
  dsimp only
  split
  · refine .ite ((identifyNext_stores ..).after ?_) (.refl _)
    split
    · exact (emitRail_keeps ..).afterStores rfl rfl <| (disablePhase_stores ..).after <|
      (onStart_keeps ..).afterStores rfl rfl <| (State.updPh_keeps ..).stores rfl rfl
    · exact (onStart_keeps ..).afterStores rfl rfl <| (State.updPh_keeps ..).stores rfl rfl
  · exact .refl _

theorem startTimeout_stores (a1) (s : State) : KeepsStores s (startTimeout a1 s) :=
  .ite ((railSettle_stores ..).after <| (masterFaults_keeps ..).afterStores rfl rfl <|
    (fastStop_stores ..).after <| (countStop_keeps ..).afterStores rfl rfl <| (railFault_stores ..).after <|
    (emitRail_keeps ..).afterStores rfl rfl <| (frecTake_keeps ..).stores rfl rfl) (.refl _)

theorem rampDownDone_stores (a1) (s : State) : KeepsStores s (rampDownDone a1 s) :=
  .ite ((railSettle_stores ..).after <| (State.updReg_keeps ..).afterStores rfl rfl <|
    (State.updProt_keeps ..).afterStores rfl rfl <| (railPhasesTo_keeps ..).afterStores rfl rfl <|
    (railPenLow_keeps ..).afterStores rfl rfl <| (brakeStop_keeps ..).stores rfl rfl) (.refl _)

theorem fastLevel_stores (a1) (s : State) : KeepsStores s (fastLevel a1 s) := by
  unfold fastLevel
  dsimp only
  split
  · exact .refl _
  · exact (railSettle_stores ..).after <| (State.onRail_keeps ..).afterStores rfl rfl <| railFault_stores ..

theorem overloadShutdown_stores (a1) (s : State) : KeepsStores s (overloadShutdown a1 s) := by
  unfold overloadShutdown
  dsimp only
  split
  · exact .ite ((protStop_stores ..).after <| (emitRail_keeps ..).afterStores rfl rfl <|
    (frecTake_keeps ..).afterStores rfl rfl <| (overloadCheck_keeps ..).stores rfl rfl) <|
    (overloadCheck_keeps ..).stores rfl rfl
  · exact (overloadCheck_keeps ..).stores rfl rfl

theorem scTrip_stores (a1) (s : State) : KeepsStores s (scTrip a1 s) :=
  .ite (.refl _) <| .ite ((identifyNext_stores ..).after <| (disablePhase_stores ..).after <|
    (emitRail_keeps ..).afterStores rfl rfl <| (frecTake_keeps ..).afterStores rfl rfl <|
    .ite ((emitRail_keeps ..).afterStores rfl rfl <| (State.updPh_keeps ..).stores rfl rfl) <|
    (State.updPh_keeps ..).stores rfl rfl) <| .ite ((emitRail_keeps ..).afterStores rfl rfl <|
    (State.updPh_keeps ..).stores rfl rfl) <| (State.updPh_keeps ..).stores rfl rfl

theorem stageFault_stores (a1) (s : State) : KeepsStores s (stageFault a1 s) :=
  .ite (.refl _) <| (identifyNext_stores ..).after <| (disablePhase_stores ..).after <|
    (emitRail_keeps ..).afterStores rfl rfl <| (frecTake_keeps ..).stores rfl rfl

theorem stagePin_stores (a1 a2) (s : State) : KeepsStores s (stagePin a1 a2 s) := by
  unfold stagePin
  dsimp only
  refine .ite (.refl _) ?_
  split
  · exact (State.updPh_keeps ..).stores rfl rfl
  · exact .ite ((stageFault_stores ..).after <| (State.updPh_keeps ..).stores rfl rfl) <|
    .ite ((State.updPh_keeps ..).stores rfl rfl) <| .ite ((stageFault_stores ..).after <|
    (State.drawn_keeps ..).afterStores rfl rfl <| (State.updPh_keeps ..).stores rfl rfl) <|
    (State.drawn_keeps ..).afterStores rfl rfl <| (State.updPh_keeps ..).stores rfl rfl

theorem pwmReadback_stores (a1 a2 a3) (s : State) : KeepsStores s (pwmReadback a1 a2 a3 s) := by
  unfold pwmReadback
  dsimp only
  refine (identifyNext_stores ..).after ?_
  split
  · exact .ite (.refl _) <| (disablePhase_stores ..).after <| (emitRail_keeps ..).afterStores rfl rfl <|
    (frecTake_keeps ..).stores rfl rfl
  · exact .ite (.ite (.refl _) <| (disablePhase_stores ..).after <| (emitRail_keeps ..).afterStores rfl rfl <|
    (frecTake_keeps ..).stores rfl rfl) <| (disablePhase_stores ..).after <|
    (emitRail_keeps ..).afterStores rfl rfl <| (frecTake_keeps ..).afterStores rfl rfl <| .ite (.refl _) <|
    (disablePhase_stores ..).after <| (emitRail_keeps ..).afterStores rfl rfl <| (frecTake_keeps ..).stores rfl rfl

theorem overvoltage_stores (a1) (s : State) : KeepsStores s (overvoltage a1 s) :=
  .ite (.refl _) <| (identifyNext_stores ..).after <| (railSettle_stores ..).after <|
    (countStop_keeps ..).afterStores rfl rfl <| (stopTrackers_stores ..).after <| (crowbar_stores ..).after <|
    (emitRail_keeps ..).afterStores rfl rfl <| (frecTake_keeps ..).stores rfl rfl

theorem undervoltage_stores (a1 a2) (s : State) : KeepsStores s (undervoltage a1 a2 s) :=
  .ite ((protStop_stores ..).after <| (emitRail_keeps ..).afterStores rfl rfl <|
    (frecTake_keeps ..).stores rfl rfl) (.refl _)

theorem railCtrlStop_stores (a1) (s : State) : KeepsStoresD s (railCtrlStop a1 s) :=
  .ite ((DescOut.fail_keeps ..).stores rfl rfl) <| .ite (.done (.refl _)) <| .done <|
    (identifyNext_stores ..).after <| (finishStart_keeps ..).afterStores rfl rfl <|
    (rampDownLevels_stores ..).after <| (State.onRail_keeps ..).afterStores rfl rfl <|
    forList_stores _ (fun _ _ h => (stopClustersOf_stores ..).after h) (.refl _)

theorem warmGo_stores (s : State) : KeepsStores s (warmGo s) :=
  .ite (.onFw (fun _ => rfl) <| (State.onPwr_keeps ..).stores rfl rfl) (.refl _)

theorem frecCommit_stores (a1) (s : State) : KeepsStores s (frecCommit a1 s) :=
  .ite ((warmGo_stores ..).after <| (frecCommitted_keeps ..).stores rfl rfl) (.refl _)

theorem inputFail_stores (a1) (s : State) : KeepsStores s (inputFail a1 s) := by
  unfold inputFail
  dsimp only
  split
  · exact (State.onPwr_keeps ..).stores rfl rfl
  · exact .ite ((State.onPwr_keeps ..).stores rfl rfl) <| (setAlarm_keeps ..).afterStores rfl rfl <|
    (fastStopAll_stores ..).after <| (emitRail_keeps ..).afterStores rfl rfl <|
    (frecTake_keeps ..).afterStores rfl rfl <| (State.onPwr_keeps ..).stores rfl rfl

theorem boardPin_stores (a1) (s : State) : KeepsStores s (boardPin a1 s) := by
  unfold boardPin
  split
  · exact inputFail_stores ..
  · exact (State.onPwr_keeps ..).stores rfl rfl

theorem vanaLoss_stores (a1) (s : State) : KeepsStores s (vanaLoss a1 s) :=
  .ite (.refl _) <| (setAlarm_keeps ..).afterStores rfl rfl <| (stopAllClocks_stores ..).after <|
    (State.onRail_keeps ..).afterStores rfl rfl <|
    forList_stores _ (fun _ _ h => (State.updProt_keeps ..).afterStores rfl rfl <|
    (railPhasesTo_keeps ..).afterStores rfl rfl <| (railPenLow_keeps ..).afterStores rfl rfl h) <|
    (State.onPwr_keeps ..).afterStores rfl rfl <| (emitRail_keeps ..).afterStores rfl rfl <|
    (frecTake_keeps ..).stores rfl rfl

theorem loadSyn_stores (s : State) : KeepsStores s (loadSyn s) := by
  unfold loadSyn
  exact .onSyn (fun _ => rfl) <| forList_stores _ (fun _ _ h => (State.updGrp_stores ..).after h) <|
    forList_stores _ (fun _ _ h => forList_stores _ (fun _ _ h => (State.updObj_stores ..).after h) h) (.refl _)

theorem loadCold_stores (s : State) : KeepsStores s (loadCold s) :=
  (loadSyn_stores ..).after <| (loadFc_keeps ..).afterStores rfl rfl <| (loadTrs_keeps ..).afterStores rfl rfl <|
    (loadLoops_keeps ..).afterStores rfl rfl <| (loadRails_keeps ..).stores rfl rfl

theorem dirWrite_stores (s : State) : KeepsStores s (dirWrite s) := by
  refine .ite (.refl s) (.onFw (fun f => ?_) (.refl s))
  split
  · split <;> simp
  · simp

theorem slotCheck_stores (k : Nat) (s : State) : KeepsStores s (slotCheck k s).2 := .onFw (fun _ => by simp) (.refl s)

theorem slotTry_stores (a1) (s : State) : KeepsStores s (slotTry a1 s).2 := by
  unfold slotTry
  dsimp only
  split
  · exact slotCheck_stores ..
  · split
    · exact slotCheck_stores ..
    · exact (emitVault_keeps ..).afterStores rfl rfl <| .onFw (fun _ => Fw.nor_setSlot ..) <| slotCheck_stores ..

theorem slotOther_stores (a1) (s : State) : KeepsStores s (slotOther a1 s).2 := by
  unfold slotOther
  dsimp only
  split
  · exact slotTry_stores ..
  · exact .refl _

theorem slotFirst_stores (a1) (s : State) : KeepsStores s (slotFirst a1 s).2 := by
  unfold slotFirst
  dsimp only
  split
  · exact slotTry_stores ..
  · exact (slotOther_stores ..).after <| slotTry_stores ..

theorem bootPick_stores (a1) (s : State) : KeepsStores s (bootPick a1 s).2 := by
  unfold bootPick
  dsimp only
  split
  · exact slotFirst_stores ..
  · split
    · exact (slotFirst_stores ..).after <| .onFw (fun _ => Fw.nor_setSlot ..) (.refl _)
    · exact slotOther_stores ..
  · exact (slotOther_stores ..).after <| .onFw (fun _ => Fw.nor_setSlot ..) (.refl _)
  · exact slotOther_stores ..

theorem cfgUse_stores (a1 a2) (s : State) : KeepsStores s (cfgUse a1 a2 s) :=
  .onFw (fun _ => rfl) <| (State.onCfg_keeps ..).stores rfl rfl

theorem cfgStaged_stores (cold : Bool) (s : State) : KeepsStores s (cfgStaged cold s).2 := by
  have hclear : KeepsStores s (s.onFw fun f => { f with cfgStg := 0, coldOnly := false }) :=
    .onFw (fun _ => rfl) (.refl s)
  have hcold : KeepsStores s (s.onFw fun f => { f with coldOnly := true }) := .onFw (fun _ => rfl) (.refl s)
  unfold cfgStaged
  split
  · exact .refl s
  · dsimp only
    split
    · split
      · split
        · exact hcold
        · exact (emitVault_keeps ..).afterStores rfl rfl ((cfgUse_stores ..).after hclear)
      · exact (emitVault_keeps ..).afterStores rfl rfl hclear
    · exact (emitVault_keeps ..).afterStores rfl rfl hclear

theorem cfgCold_stores (s : State) : KeepsStores s (cfgCold s) := by
  unfold cfgCold
  dsimp only
  refine .ite ((loadCold_stores ..).after <| cfgStaged_stores ..) ?_
  split
  · exact .ite ((loadCold_stores ..).after <| (cfgUse_stores ..).after <| cfgStaged_stores ..) <|
    (setAlarm_keeps ..).afterStores rfl rfl <| (emitVault_keeps ..).afterStores rfl rfl <| cfgStaged_stores ..
  · exact (setAlarm_keeps ..).afterStores rfl rfl <| (emitVault_keeps ..).afterStores rfl rfl <| cfgStaged_stores ..

theorem vaultWipe_stores (s : State) : KeepsStores s (vaultWipe s) :=
  (emitVault_keeps ..).afterStores rfl rfl <| .onFw (fun _ => rfl) (.refl _)

theorem vaultError_stores (a1) (s : State) : KeepsStores s (vaultError a1 s) :=
  .ite (.refl _) <| (setAlarm_keeps ..).afterStores rfl rfl <| (vaultWipe_stores ..).after <|
    (emitVault_keeps ..).afterStores rfl rfl <| .onFw (fun _ => rfl) (.refl _)

theorem epProcess_stores (a1 a2) (s : State) : KeepsStores s (epProcess a1 a2 s) :=
  .ite ((epRespond_keeps ..).stores rfl rfl) <| .ite ((hintPerform_keeps ..).stores rfl rfl) <| synPerform_stores ..

theorem epRequest_stores (a1 a2) (s : State) : KeepsStores s (epRequest a1 a2 s) :=
  .ite (.refl _) <| .ite ((State.updEp_keeps ..).stores rfl rfl) <| epProcess_stores ..

theorem epDrain_stores (lane n : Nat) (s : State) : KeepsStores s (epDrain lane n s) := by
  induction n generalizing s with
  | zero => exact .refl _
  | succ n ih =>
    unfold epDrain
    split
    · exact .refl _
    · refine .ite (.refl _) ?_
      exact (ih _).after <| (epProcess_stores ..).after <| (State.updEp_keeps ..).stores rfl rfl

theorem epTaken_stores (a1) (s : State) : KeepsStores s (epTaken a1 s) :=
  (epDrain_stores ..).after <| (State.updEp_keeps ..).stores rfl rfl

theorem engineReq_stores (a1 a2 a3 a4 a5 a6 a7) (s : State) : KeepsStores s (engineReq a1 a2 a3 a4 a5 a6 a7 s) :=
  epRequest_stores ..

theorem synTimeout_stores (a1) (s : State) : KeepsStores s (synTimeout a1 s) := by
  unfold synTimeout
  split
  · exact .ite (failWait_stores ..) (.refl _)
  · exact .refl _

theorem synWatchdog_stores (a1) (s : State) : KeepsStores s (synWatchdog a1 s) := by
  unfold synWatchdog
  dsimp only
  split
  · exact .refl _
  · exact .ite (.refl _) <| (emitSyn_keeps ..).afterStores rfl rfl <| (State.updCore_stores ..).after <|
    forList_stores _ (fun _ _ h => (failWait_stores ..).after h) (.refl _)

theorem synEcc_stores (a1 a2) (s : State) : KeepsStores s (synEcc a1 a2 s) :=
  .ite (.onSyn (fun _ => rfl) (.refl _)) <| forList_stores _ (fun _ _ h => (failWait_stores ..).after h) <|
    (emitSyn_keeps ..).afterStores rfl rfl <| State.updObj_stores ..

theorem escrowLend_stores (a1) (s : State) : KeepsStores s (escrowLend a1 s) :=
  .ite (.ite ((emitSyn_keeps ..).afterStores rfl rfl <| .onSyn (fun _ => rfl) <| State.updCore_stores ..) <|
    .onSyn (fun _ => rfl) <| State.updCore_stores ..) (.refl _)

theorem synCtrlClr_stores (s : State) : KeepsStores s (synCtrlClr s) := .onSyn (fun _ => rfl) (.refl _)

theorem synRes_stores (a1) (s : State) : KeepsStores s (synRes a1 s) := .onSyn (fun _ => rfl) (.refl _)

theorem synCoreCfg_stores (a1) (s : State) : KeepsStores s (synCoreCfg a1 s) :=
  .ite (synRes_stores ..) <| (synRes_stores ..).after <| (coreUpdate_stores ..).after <|
    .ite ((State.updCore_stores ..).after <| waitMark_stores ..) <| (reclaimCore_stores ..).after <|
    (State.updCore_stores ..).after <| waitMark_stores ..

theorem escCfg_stores (a1) (s : State) : KeepsStores s (escCfg a1 s) :=
  .ite (synRes_stores ..) <| .onSyn (fun _ => rfl) <| .ite (.refl _) <|
    forList_stores _ (fun _ _ h => (reclaimClu_stores ..).after h) (.refl _)

theorem bodySynFlag_stores (a1 a2) (s : State) : KeepsStoresD s (bodySynFlag a1 a2 s) :=
  .ite ((DescOut.fail_keeps ..).stores rfl rfl) <| .ite ((DescOut.fail_keeps ..).stores rfl rfl) <| .done <|
    (synManual_keeps ..).afterStores rfl rfl <| (releaseOn_stores ..).after <| flagOp_stores ..

theorem bodyAdjust_stores (a1 a2) (s : State) : KeepsStoresD s (bodyAdjust a1 a2 s) :=
  .ite ((DescOut.fail_keeps ..).stores rfl rfl) <| .ite ((DescOut.fail_keeps ..).stores rfl rfl) <| .done <|
    (synManual_keeps ..).afterStores rfl rfl <| (releaseOn_stores ..).after <| State.updObj_stores ..

theorem bodyReleaseWaiter_stores (a1) (s : State) : KeepsStoresD s (bodyReleaseWaiter a1 s) := by
  unfold bodyReleaseWaiter
  dsimp only
  split
  · exact (DescOut.fail_keeps ..).stores rfl rfl
  · exact .done <| (synManual_keeps ..).afterStores rfl rfl <| releaseWait_stores ..

theorem bodyFailWaiter_stores (a1) (s : State) : KeepsStoresD s (bodyFailWaiter a1 s) := by
  unfold bodyFailWaiter
  dsimp only
  split
  · exact (DescOut.fail_keeps ..).stores rfl rfl
  · exact .done <| (synManual_keeps ..).afterStores rfl rfl <| failWait_stores ..

theorem bodyResetWindow_stores (a1 a2) (s : State) : KeepsStoresD s (bodyResetWindow a1 a2 s) :=
  .ite ((DescOut.fail_keeps ..).stores rfl rfl) <| .ite ((DescOut.fail_keeps ..).stores rfl rfl) <| .done <|
    (synManual_keeps ..).afterStores rfl rfl <| forList_stores _ (fun _ _ h => (clearObj_stores ..).after h) <|
    forList_stores _ (fun _ _ h => (failWait_stores ..).after h) (.refl _)

theorem bodySetKind_stores (a1 a2) (s : State) : KeepsStoresD s (bodySetKind a1 a2 s) :=
  .ite ((DescOut.fail_keeps ..).stores rfl rfl) <| .ite ((DescOut.fail_keeps ..).stores rfl rfl) <| .done <|
    (synManual_keeps ..).afterStores rfl rfl <|
    forList_stores _ (fun _ _ h => (State.updObj_stores ..).after h) (.refl _)

theorem bodyGroupDef_stores (a1 a2 a3) (s : State) : KeepsStoresD s (bodyGroupDef a1 a2 a3 s) :=
  .ite ((DescOut.fail_keeps ..).stores rfl rfl) <| .ite (.ite ((DescOut.fail_keeps ..).stores rfl rfl) <| .done <|
    (synManual_keeps ..).afterStores rfl rfl <| State.updGrp_stores ..) <|
    .ite ((DescOut.fail_keeps ..).stores rfl rfl) <| .ite ((DescOut.fail_keeps ..).stores rfl rfl) <|
    .ite ((DescOut.fail_keeps ..).stores rfl rfl) <| .done <| (synManual_keeps ..).afterStores rfl rfl <|
    State.updGrp_stores ..

theorem moveWins_stores (a1) (s : State) : KeepsStores s (moveWins a1 s) :=
  forList_stores _ (fun _ _ h => forList_stores _ (fun _ _ h => (releaseOn_stores ..).after h) h) <|
    forList_stores _ (fun _ _ h => (State.updGrp_stores ..).after h) <|
    forList_stores _ (fun _ _ h => forList_stores _ (fun _ _ h => (State.updObj_stores ..).after h) h) <|
    forList_stores _ (fun _ _ h => forList_stores _ (fun _ _ h => (clearObj_stores ..).after h) h) (.refl _)

theorem bodySynMap_stores (a1) (s : State) : KeepsStoresD s (bodySynMap a1 s) :=
  .ite ((DescOut.fail_keeps ..).stores rfl rfl) <| .ite ((DescOut.fail_keeps ..).stores rfl rfl) <|
    .ite ((DescOut.fail_keeps ..).stores rfl rfl) <| .done <| (emitSyn_keeps ..).afterStores rfl rfl <|
    .onSyn (fun _ => rfl) <| (moveWins_stores ..).after <|
    forList_stores _ (fun _ _ h => (failWait_stores ..).after h) (.refl _)

theorem frameBoundary_stores (s : State) : KeepsStores s (frameBoundary s) :=
  (hintEpochs_keeps ..).afterStores rfl rfl <|
    forList_stores _ (fun _ _ h => (hintDue_keeps ..).afterStores rfl rfl h) <| (trsBoundary_stores ..).after <|
    (clrBoundary_keeps ..).afterStores rfl rfl <| (loopBoundary_keeps ..).afterStores rfl rfl <|
    (tableInstall_keeps ..).afterStores rfl rfl <| (requiredBack_keeps ..).afterStores rfl rfl <|
    (hostShed_keeps ..).afterStores rfl rfl <| (restoreDue_keeps ..).afterStores rfl rfl <|
    (shedDue_keeps ..).afterStores rfl rfl <|
    forList_stores _ (fun _ _ h => (loopBackstop_keeps ..).afterStores rfl rfl h) <|
    (cubeRejoins_keeps ..).afterStores rfl rfl <| (cubeSwaps_keeps ..).stores rfl rfl

theorem frameStart_stores (stepPs : Nat) (s : State) : KeepsStores s (frameStart stepPs s) := by
  unfold frameStart
  extract_lets n f k s1 s2
  refine .ite (.refl s) ?_
  have hbegin : KeepsStores s s1 := (State.onTb_keeps ..).afterStores rfl rfl <| (State.onFrm_keeps ..).stores rfl rfl
  have hboundary : KeepsStores s s2 :=
    (snapshotInputs_keeps ..).afterStores rfl rfl <| (frameBoundary_stores ..).after hbegin
  exact (planSlots_keeps ..).afterStores rfl rfl <| (State.onFrm_keeps ..).afterStores rfl rfl <|
    (State.onTly_keeps ..).afterStores rfl rfl hboundary

theorem confirmFrame_stores (s : State) : KeepsStores s (confirmFrame s) :=
  .ite (.onFw (fun _ => rfl) (.refl _)) (.refl _)

theorem frameCommit_stores (s : State) : KeepsStores s (frameCommit s) :=
  .ite (.refl _) <| (confirmFrame_stores ..).after <| (State.onDma_keeps ..).afterStores rfl rfl <|
    (State.onFrm_keeps ..).afterStores rfl rfl <| (State.onClr_keeps ..).afterStores rfl rfl <|
    (limFrame_keeps ..).afterStores rfl rfl <| (trsFrame_keeps ..).afterStores rfl rfl <|
    (waitFrame_stores ..).after <| (fcFrame_keeps ..).afterStores rfl rfl <|
    (mapAll_keeps ..).afterStores rfl rfl <| (allocCommit_keeps ..).afterStores rfl rfl <|
    (frameMeasure_keeps ..).afterStores rfl rfl <| (netFrame_keeps ..).afterStores rfl rfl <|
    (tlyCommit_keeps ..).afterStores rfl rfl <| (frameCounts_keeps ..).afterStores rfl rfl <|
    (missRest_keeps ..).afterStores rfl rfl <| commitSlots_stores ..

theorem powerHold_stores (a1) (s : State) : KeepsStores s (powerHold a1 s) := by
  unfold powerHold
  exact (State.onFrec_keeps ..).afterStores rfl rfl <| (State.onPwr_keeps ..).afterStores rfl rfl <|
    forList_stores _ (fun _ _ h => (State.updCp_keeps ..).afterStores rfl rfl h) <|
    (stopAllClocks_stores ..).after <|
    forList_stores _ (fun _ _ h => (phOff_keeps ..).afterStores rfl rfl h) (.refl _)

theorem internalReset_stores (a1 a2) (s : State) : KeepsStores s (internalReset a1 a2 s) :=
  .ite ((State.onPwr_keeps ..).stores rfl rfl) <| (powerHold_stores ..).after <| (State.onPwr_keeps ..).stores rfl rfl

theorem Fw.nor_dirRead (f : Fw) : f.dirRead.nor = [2, f.img.length, f.last.length, f.copy.length] := by
  unfold Fw.dirRead
  split <;> rfl

theorem coldClear_stores (vsel refsel : Nat) (b : Boot) (s : State) : KeepsStores s (coldClear vsel refsel b s) where
  waiters _ := rfl
  slots h := by
    obtain ⟨-, himg, -, hcopy⟩ := h
    rw [slotsOk_iff, coldClear, Fw.nor_dirRead]
    simp [himg, hcopy]

theorem partIn_stores (p : Part) (s : State) : KeepsStores s (partIn p s) := by
  unfold partIn
  extract_lets s1 s2
  have hslots : KeepsStores s s1 := ⟨id, fun ⟨hst, _, hlast, _⟩ => ⟨hst, rfl, hlast, rfl⟩⟩
  have hsns : KeepsStores s s2 := (State.onSns_keeps ..).afterStores rfl rfl hslots
  exact .ite ((State.onFrec_keeps ..).afterStores rfl rfl hsns) hsns

theorem gateSample_stores (s : State) : KeepsStores s (gateSample s) :=
  .ite ((emitVault_keeps ..).afterStores rfl rfl <| .onFw (fun _ => rfl) (.refl _)) <|
    .ite ((setAlarm_keeps ..).afterStores rfl rfl <| (emitVault_keeps ..).afterStores rfl rfl <|
    .onFw (fun _ => rfl) (.refl _)) (.refl _)

theorem vaultCold_stores (a1) (s : State) : KeepsStores s (vaultCold a1 s) := by
  unfold vaultCold
  dsimp only
  split
  · exact vaultError_stores ..
  · exact (drawInc_keeps ..).afterStores rfl rfl <| (ringInit_keeps ..).afterStores rfl rfl <|
    (dirWrite_stores ..).after <| (cfgCold_stores ..).after <| .onFw (fun _ => rfl) <| vaultWipe_stores ..

theorem coldReset_stores (a1 a2 a3 a4 a5) (s : State) : KeepsStores s (coldReset a1 a2 a3 a4 a5 s) := by
  unfold coldReset
  dsimp only
  refine (vaultCold_stores ..).after ((baseSample_keeps ..).afterStores rfl rfl ((gateSample_stores ..).after
    ((refselSample_keeps ..).afterStores rfl rfl ((nvBoot_keeps ..).afterStores rfl rfl
    ((coldClear_stores ..).after ?_)))))
  split
  · exact .ite (.refl _) <| partIn_stores ..
  · exact .refl _

theorem coldBegin_stores (a1 a2 a3 a4 a5) (s : State) : KeepsStores s (coldBegin a1 a2 a3 a4 a5 s) :=
  .ite (coldReset_stores ..) <| (powerHold_stores ..).after <| (State.onPwr_keeps ..).stores rfl rfl

theorem warmCores_stores (s : State) : KeepsStores s (warmCores s) :=
  forList_stores _ (fun _ _ h => (State.updFwCore_stores ..).after h) (.refl _)

theorem warmReset_stores (a1) (s : State) : KeepsStores s (warmReset a1 s) := by
  unfold warmReset
  exact (State.onHif_keeps ..).afterStores rfl rfl <| (warmCores_stores ..).after <|
    (clrDrop_keeps ..).afterStores rfl rfl <| (warmFc_keeps ..).afterStores rfl rfl <|
    (warmTly_keeps ..).afterStores rfl rfl <| (warmDma_keeps ..).afterStores rfl rfl <|
    (warmTrs_keeps ..).afterStores rfl rfl <| (warmLoops_keeps ..).afterStores rfl rfl <|
    forList_stores _ (fun _ _ h => (ldgFlush_keeps ..).afterStores rfl rfl h) <|
    (audAbandon_keeps ..).afterStores rfl rfl <| (State.onAud_keeps ..).afterStores rfl rfl <|
    (warmFrames_keeps ..).afterStores rfl rfl <| forList_stores _ (fun _ _ h => (reclaimClu_stores ..).after h) <|
    forList_stores _ (fun _ _ h => (State.updReg_keeps ..).afterStores rfl rfl h) <|
    (holdAll_keeps ..).afterStores rfl rfl <| (State.onFrec_keeps ..).afterStores rfl rfl <|
    (State.onHo_keeps ..).afterStores rfl rfl <| (warmRecord_keeps ..).afterStores rfl rfl <|
    .onFw (fun _ => rfl) <| (State.onPwr_keeps ..).stores rfl rfl

theorem coresStart_stores (s : State) : KeepsStores s (coresStart s) :=
  (hmResume_keeps ..).afterStores rfl rfl <| .onFw (fun _ => rfl) <| (State.onPwr_keeps ..).afterStores rfl rfl <|
    forList_stores _ (fun _ _ h => (State.updFwCore_stores ..).after h) (.refl _)

theorem bootSlot_stores (a1 a2) (s : State) : KeepsStores s (bootSlot a1 a2 s) :=
  .ite ((confTally_keeps ..).afterStores rfl rfl <| (emitVault_keeps ..).afterStores rfl rfl <|
    (coresStart_stores ..).after <| .onFw (fun _ => rfl) (.refl _)) <| (clrRejoin_keeps ..).afterStores rfl rfl <|
    (confTally_keeps ..).afterStores rfl rfl <| (emitVault_keeps ..).afterStores rfl rfl <|
    (coresStart_stores ..).after <| .onFw (fun _ => rfl) (.refl _)

theorem bootNone_stores (s : State) : KeepsStores s (bootNone s) :=
  (setAlarm_keeps ..).afterStores rfl rfl <| (emitVault_keeps ..).afterStores rfl rfl <|
    (hmResume_keeps ..).afterStores rfl rfl <| (stopAllClocks_stores ..).after <|
    (State.onPwr_keeps ..).afterStores rfl rfl <| .onFw (fun _ => rfl) (.refl _)

theorem fwBoot_stores (s : State) : KeepsStores s (fwBoot s) := by
  unfold fwBoot
  dsimp only
  refine .ite (.refl _) ?_
  split
  · exact (bootSlot_stores ..).after <| (dirWrite_stores ..).after <| (bootPick_stores ..).after <|
    .ite (.ite (.refl _) <| (nvBoot_keeps ..).stores rfl rfl) <| .ite ((loadWarm_keeps ..).afterStores rfl rfl <|
    (cfgStaged_stores ..).after <| .ite (.refl _) <| (nvBoot_keeps ..).stores rfl rfl) <|
    (cfgStaged_stores ..).after <| .ite (.refl _) <| (nvBoot_keeps ..).stores rfl rfl
  · exact (bootNone_stores ..).after <| (dirWrite_stores ..).after <| (bootPick_stores ..).after <|
    .ite (.ite (.refl _) <| (nvBoot_keeps ..).stores rfl rfl) <| .ite ((loadWarm_keeps ..).afterStores rfl rfl <|
    (cfgStaged_stores ..).after <| .ite (.refl _) <| (nvBoot_keeps ..).stores rfl rfl) <|
    (cfgStaged_stores ..).after <| .ite (.refl _) <| (nvBoot_keeps ..).stores rfl rfl

theorem warmAfter_stores (s : State) : KeepsStores s (warmAfter s) := by
  unfold warmAfter
  split
  · exact warmReset_stores ..
  · exact .refl _

theorem stage_stores (a1) (s : State) : KeepsStores s (stage a1 s).2 := by
  unfold stage
  dsimp only
  split
  · exact (dirWrite_stores ..).after <| .onFw (fun _ => Fw.nor_setSlot ..) <|
    .onFw (by simp [Fw.nor, Fw.setLast]) (.refl _)
  · exact (emitVault_keeps ..).afterStores rfl rfl <| (dirWrite_stores ..).after <|
    .onFw (fun _ => Fw.nor_setSlot ..) <| .onFw (by simp [Fw.nor, Fw.setLast]) (.refl _)

theorem bodyFwStage_stores (a1 a2) (s : State) : KeepsStoresD s (bodyFwStage a1 a2 s) :=
  withVault_stores (fun _ _ => .ite ((DescOut.fail_keeps ..).stores rfl rfl) <|
    withData_stores _ _ (fun _ => .ite ((DescOut.fail_keeps ..).stores rfl rfl) <| .done <|
    stage_stores ..) (.refl _)) (.refl _)

theorem bodyActivate_stores (a1 a2) (s : State) : KeepsStoresD s (bodyActivate a1 a2 s) :=
  .ite ((DescOut.fail_keeps ..).stores rfl rfl) <| .ite ((DescOut.fail_keeps ..).stores rfl rfl) <|
    .ite ((DescOut.fail_keeps ..).stores rfl rfl) <| .done <| .ite ((State.onPwr_keeps ..).afterStores rfl rfl <|
    (emitVault_keeps ..).afterStores rfl rfl <| (dirWrite_stores ..).after <|
    .onFw (fun _ => Fw.nor_setSlot ..) (.refl _)) <| (emitVault_keeps ..).afterStores rfl rfl <|
    (dirWrite_stores ..).after <| .onFw (fun _ => Fw.nor_setSlot ..) (.refl _)

theorem bodyFwConfirm_stores (a1) (s : State) : KeepsStoresD s (bodyFwConfirm a1 s) :=
  .ite (.done (.refl _)) <| .ite ((DescOut.fail_keeps ..).stores rfl rfl) <| .done <|
    (emitVault_keeps ..).afterStores rfl rfl <| (dirWrite_stores ..).after <|
    .onFw (fun _ => Fw.nor_setSlot ..) (.refl _)

theorem bodyConfigStage_stores (a1 a2) (s : State) : KeepsStoresD s (bodyConfigStage a1 a2 s) :=
  withVault_stores (fun _ h => .ite ((DescOut.fail_keeps ..).stores rfl rfl) <|
    withData_stores _ _ (fun _ => .ite ((DescOut.fail_keeps ..).stores rfl rfl) <|
    .ite ((DescOut.fail_keeps ..).stores rfl rfl) <| .ite ((DescOut.fail_keeps ..).stores rfl rfl) <| .done <|
    (emitVault_keeps ..).afterStores rfl rfl <| (dirWrite_stores ..).after <|
    .onFw (fun _ => (by simp [Fw.nor])) (.refl _)) (.refl _)) (.refl _)

theorem fuseSession_stores (a1 a2 a3 a4) (s : State) : KeepsStoresD s (fuseSession a1 a2 a3 a4 s) := by
  unfold fuseSession
  dsimp only
  split
  · exact .done <| (emitVault_keeps ..).afterStores rfl rfl <| .onFw (fun _ => rfl) (.refl _)
  · exact .done <| (State.drawn_keeps ..).afterStores rfl rfl <| (setAlarm_keeps ..).afterStores rfl rfl <|
    (emitVault_keeps ..).afterStores rfl rfl <| (State.onFree_keeps ..).afterStores rfl rfl <|
    .onFw (fun _ => rfl) (.refl _)

theorem fuseSense_stores (a1) (s : State) : KeepsStores s (fuseSense a1 s) := .onFw (fun _ => rfl) (.refl _)

theorem fuseBody_stores (a1 a2 a3 a4 a5 a6) (s : State) : KeepsStoresD s (fuseBody a1 a2 a3 a4 a5 a6 s) := by
  unfold fuseBody
  dsimp only
  refine .ite ((DescOut.fail_keeps ..).afterStores rfl rfl <|
    fuseSense_stores ..) (.ite ((DescOut.fail_keeps ..).afterStores rfl rfl <| fuseSense_stores ..) ?_)
  split
  · exact (fuseSession_stores ..).after <| fuseSense_stores ..
  · exact withData_stores _ _ (fun _ => .ite ((DescOut.fail_keeps ..).afterStores rfl rfl <|
    fuseSense_stores ..) <| (fuseSession_stores ..).after <| fuseSense_stores ..) <| fuseSense_stores ..

theorem bodyFuseInt_stores (a1 a2 a3) (s : State) : KeepsStoresD s (bodyFuseInt a1 a2 a3 s) :=
  .ite ((DescOut.fail_keeps ..).stores rfl rfl) <| fuseBody_stores ..

theorem bodyFuseGate_stores (a1 a2) (s : State) : KeepsStoresD s (bodyFuseGate a1 a2 s) := fuseBody_stores ..

theorem bodyFuseBoot_stores (a1 a2 a3) (s : State) : KeepsStoresD s (bodyFuseBoot a1 a2 a3 s) :=
  .ite ((DescOut.fail_keeps ..).stores rfl rfl) <| fuseBody_stores ..

theorem bodyFuseSvn_stores (a1 a2) (s : State) : KeepsStoresD s (bodyFuseSvn a1 a2 s) :=
  .ite ((DescOut.fail_keeps ..).afterStores rfl rfl <| fuseSense_stores ..) <|
    .ite ((DescOut.fail_keeps ..).afterStores rfl rfl <| fuseSense_stores ..) <| (fuseSession_stores ..).after <|
    fuseSense_stores ..

theorem bodyRevokeInt_stores (a1 a2 a3) (s : State) : KeepsStoresD s (bodyRevokeInt a1 a2 a3 s) :=
  .ite ((DescOut.fail_keeps ..).stores rfl rfl) <| fuseBody_stores ..

theorem bodyRevokeKol_stores (a1 a2 a3) (s : State) : KeepsStoresD s (bodyRevokeKol a1 a2 a3 s) :=
  .ite ((DescOut.fail_keeps ..).stores rfl rfl) <| fuseBody_stores ..

theorem bodyNonce_stores (a1) (s : State) : KeepsStoresD s (bodyNonce a1 s) :=
  withVault_stores (fun _ _ => .ite ((DescOut.fail_keeps ..).stores rfl rfl) <| .done <|
    (hmWrite_keeps ..).afterStores rfl rfl <| .onFw (fun _ => rfl) <| (State.drawn_keeps ..).stores rfl rfl) (.refl _)

theorem bodyToken_stores (a1 a2) (s : State) : KeepsStoresD s (bodyToken a1 a2 s) :=
  withVault_stores (fun _ _ => withData_stores _ _ (fun _ => .ite (.done <|
    (emitVault_keeps ..).afterStores rfl rfl <| .onFw (fun _ => rfl) <| .onFw (fun _ => rfl) (.refl _)) <|
    (DescOut.fail_keeps ..).afterStores rfl rfl <| (emitVault_keeps ..).afterStores rfl rfl <|
    (State.drawn_keeps ..).afterStores rfl rfl <| .onFw (fun _ => rfl) (.refl _)) (.refl _)) (.refl _)

theorem vaultRestart_stores (s : State) : KeepsStores s (vaultRestart s) := .onFw (fun _ => rfl) (.refl _)

theorem bodyZeroVol_stores (a1) (s : State) : KeepsStoresD s (bodyZeroVol a1 s) :=
  .ite ((DescOut.fail_keeps ..).stores rfl rfl) <| .ite (.done <| vaultWipe_stores ..) <|
    .ite ((DescOut.fail_keeps ..).stores rfl rfl) <| .done <| (vaultRestart_stores ..).after <| vaultWipe_stores ..

theorem bodyZeroPerm_stores (a1 a2) (s : State) : KeepsStoresD s (bodyZeroPerm a1 a2 s) := by
  unfold bodyZeroPerm
  dsimp only
  refine .ite ((DescOut.fail_keeps ..).stores rfl rfl) (.ite ((DescOut.fail_keeps ..).afterStores rfl rfl <|
    fuseSense_stores ..) (.ite ((DescOut.fail_keeps ..).afterStores rfl rfl <| fuseSense_stores ..) ?_))
  split
  · exact .done <| (emitVault_keeps ..).afterStores rfl rfl <| .onFw (fun _ => rfl) <| fuseSense_stores ..
  · exact (fuseSession_stores ..).after <| fuseSense_stores ..

theorem bodyLive_stores (a1) (s : State) : KeepsStoresD s (bodyLive a1 s) :=
  withVault_stores (fun _ _ => .ite ((DescOut.fail_keeps ..).stores rfl rfl) <|
    .ite ((DescOut.fail_keeps ..).afterStores rfl rfl <| .ite ((dirWrite_stores ..).after <|
    .onFw (fun _ => Fw.nor_setSlot ..) <| slotCheck_stores ..) <| slotCheck_stores ..) <|
    .ite ((DescOut.fail_keeps ..).afterStores rfl rfl <| .ite ((dirWrite_stores ..).after <|
    .onFw (fun _ => Fw.nor_setSlot ..) <| slotCheck_stores ..) <| slotCheck_stores ..) <|
    .ite ((DescOut.fail_keeps ..).afterStores rfl rfl <| .ite ((dirWrite_stores ..).after <|
    .onFw (fun _ => Fw.nor_setSlot ..) <| slotCheck_stores ..) <| slotCheck_stores ..) <| .wait <|
    (emitVault_keeps ..).afterStores rfl rfl <| .onFw (fun _ => rfl) <| .ite ((dirWrite_stores ..).after <|
    .onFw (fun _ => Fw.nor_setSlot ..) <| slotCheck_stores ..) <| slotCheck_stores ..) (.refl _)

theorem updHold_stores (s : State) : KeepsStores s (updHold s) := by
  unfold updHold
  exact .onFw (fun _ => rfl) <| forList_stores _ (fun _ _ h => (State.updReg_keeps ..).afterStores rfl rfl h) <|
    (holdAll_keeps ..).stores rfl rfl

theorem prepareDone_stores (s : State) : KeepsStores s (prepareDone s) :=
  .ite (.refl _) <| .onFw (fun _ => rfl) <| (updHold_stores ..).after <| (audAbandon_keeps ..).stores rfl rfl

theorem flipBanks_stores (s : State) : KeepsStores s (flipBanks s) :=
  forList_stores _ (fun _ _ h => (State.updFwCore_stores ..).after h) (.refl _)

theorem rollback_stores (a1) (s : State) : KeepsStores s (rollback a1 s) := by
  unfold rollback
  dsimp only
  refine (emitVault_keeps ..).afterStores rfl rfl ((dirWrite_stores ..).after (.onFw (fun _ => Fw.nor_setSlot ..)
    (forList_stores _ (fun _ _ h => (State.updTrsCl_keeps ..).afterStores rfl rfl h)
    ((State.onTrs_keeps ..).afterStores rfl rfl ?_))))
  split
  · exact (State.onFrm_keeps ..).afterStores rfl rfl <| (State.onTly_keeps ..).afterStores rfl rfl <|
    (State.onTrs_keeps ..).afterStores rfl rfl <| (State.onFc_keeps ..).afterStores rfl rfl <|
    (State.onLoop_keeps ..).afterStores rfl rfl <|
    forList_stores _ (fun _ _ h => (reclaimClu_stores ..).after h) <| .ite (updHold_stores ..) <|
    (flipBanks_stores ..).after <| updHold_stores ..
  · exact forList_stores _ (fun _ _ h => (reclaimClu_stores ..).after h) <| .ite (updHold_stores ..) <|
    (flipBanks_stores ..).after <| updHold_stores ..

theorem handoffDone_stores (a1) (s : State) : KeepsStores s (handoffDone a1 s) :=
  .ite (.refl _) <| .ite ((rollback_stores ..).after <| (State.onHo_keeps ..).stores rfl rfl) <|
    (dirWrite_stores ..).after <| .onFw (fun _ => Fw.nor_setSlot ..) <| (flipBanks_stores ..).after <|
    (State.onHo_keeps ..).stores rfl rfl

theorem updEnd_stores (a1) (s : State) : KeepsStores s (updEnd a1 s) := by
  unfold updEnd
  dsimp only
  split
  · exact (complete_keeps ..).afterStores rfl rfl <| (State.onHo_keeps ..).afterStores rfl rfl <|
    .onFw (fun _ => rfl) (.refl _)
  · exact (State.onHo_keeps ..).afterStores rfl rfl <| .onFw (fun _ => rfl) (.refl _)

theorem resumed_stores (s : State) : KeepsStores s (resumed s) :=
  .ite (.refl _) <| .ite (.onFw (fun _ => rfl) <| (State.onTrs_keeps ..).afterStores rfl rfl <|
    (emitVault_keeps ..).afterStores rfl rfl <| (clrRejoin_keeps ..).afterStores rfl rfl <|
    (clrDrop_keeps ..).afterStores rfl rfl <| (railsFree_keeps ..).afterStores rfl rfl <|
    forList_stores _ (fun _ _ h => (cluUnhold_keeps ..).afterStores rfl rfl h) <|
    .onFw (fun _ => rfl) (.refl _)) <| (updEnd_stores ..).after <| (State.onTrs_keeps ..).afterStores rfl rfl <|
    (emitVault_keeps ..).afterStores rfl rfl <| (clrRejoin_keeps ..).afterStores rfl rfl <|
    (clrDrop_keeps ..).afterStores rfl rfl <| (railsFree_keeps ..).afterStores rfl rfl <|
    forList_stores _ (fun _ _ h => (cluUnhold_keeps ..).afterStores rfl rfl h) <| .onFw (fun _ => rfl) (.refl _)

theorem selfConfirmed_stores (s : State) : KeepsStores s (selfConfirmed s) :=
  .ite (.refl _) <| (updEnd_stores ..).after <| (emitVault_keeps ..).afterStores rfl rfl <|
    .onFw (fun _ => rfl) (.refl _)

theorem rollbackDue_stores (s : State) : KeepsStores s (rollbackDue s) :=
  .ite (rollback_stores ..) <| .ite (rollback_stores ..) (.refl _)

theorem vfuseAlarm_stores (a1) (s : State) : KeepsStores s (vfuseAlarm a1 s) :=
  .ite ((setAlarm_keeps ..).afterStores rfl rfl <| (emitVault_keeps ..).afterStores rfl rfl <|
    .onFw (fun _ => rfl) <| .onFw (fun _ => rfl) <| (State.onPwr_keeps ..).stores rfl rfl) <|
    .onFw (fun _ => rfl) <| (State.onPwr_keeps ..).stores rfl rfl

theorem partnerHang_stores (a1) (s : State) : KeepsStores s (partnerHang a1 s) := by
  unfold partnerHang
  dsimp only
  refine forList_stores _ (fun _ _ h => .ite ?_ ((audBack_stores ..).after ?_)) (.refl _)
  · split
    · exact .ite ((audAbandon_keeps ..).afterStores rfl rfl h) h
    · exact h
  · split
    · exact .ite ((audAbandon_keeps ..).afterStores rfl rfl h) h
    · exact h

theorem tellerHang_stores (a1) (s : State) : KeepsStores s (tellerHang a1 s) :=
  (partnerHang_stores ..).after <| (presetLoops_keeps ..).afterStores rfl rfl <| State.updFwCore_stores ..

theorem coreHang_stores (a1) (s : State) : KeepsStores s (coreHang a1 s) :=
  .ite (.refl _) <| .ite ((rollback_stores ..).after <| (emitVault_keeps ..).afterStores rfl rfl <|
    State.updFwCore_stores ..) <| .ite ((warmReset_stores ..).after <| (emitVault_keeps ..).afterStores rfl rfl <|
    State.updFwCore_stores ..) <| (tellerHang_stores ..).after <| (emitVault_keeps ..).afterStores rfl rfl <|
    State.updFwCore_stores ..

theorem coreBack_stores (a1) (s : State) : KeepsStores s (coreBack a1 s) :=
  .ite ((emitVault_keeps ..).afterStores rfl rfl <| (presetLoops_keeps ..).afterStores rfl rfl <|
    State.updFwCore_stores ..) (.refl _)

theorem vaultHang_stores (a1) (s : State) : KeepsStores s (vaultHang a1 s) :=
  .ite ((vaultError_stores ..).after <| .ite ((updEnd_stores ..).after <|
    (emitVault_keeps ..).afterStores rfl rfl <| vaultRestart_stores ..) <|
    (emitVault_keeps ..).afterStores rfl rfl <| vaultRestart_stores ..) <| .ite ((updEnd_stores ..).after <|
    (emitVault_keeps ..).afterStores rfl rfl <| vaultRestart_stores ..) <|
    (emitVault_keeps ..).afterStores rfl rfl <| vaultRestart_stores ..

theorem vaultReady_stores (s : State) : KeepsStores s (vaultReady s) :=
  .ite (.refl _) <| .onFw (fun _ => rfl) (.refl _)

theorem enterLp_stores (a1) (s : State) : KeepsStores s (enterLp a1 s) :=
  .ite ((State.updFwCore_stores ..).after <| (ldgFlush_keeps ..).afterStores rfl rfl <|
    (emitTeller_keeps ..).afterStores rfl rfl <| (ldgFlush_keeps ..).stores rfl rfl) (.refl _)

theorem exitLp_stores (a1) (s : State) : KeepsStores s (exitLp a1 s) :=
  .ite ((restartAll_keeps ..).afterStores rfl rfl <| (emitTeller_keeps ..).afterStores rfl rfl <|
    State.updFwCore_stores ..) (.refl _)

theorem planAct_stores (b : List Nat) (s : State) :
    KeepsStoresD s (planAct b s) := by
  unfold planAct
  rcases fld b 8 1 with _ | _ | _ | _ | _ | _ | _ | _ | k
  · exact bodySynFlag_stores ..
  · exact bodySynFlag_stores ..
  · exact bodyAdjust_stores ..
  · exact bodyReleaseWaiter_stores ..
  · exact bodyFailWaiter_stores ..
  · exact bodyResetWindow_stores ..
  · exact bodySetKind_stores ..
  · exact .ite (.fail (.refl _)) (bodyGroupDef_stores ..)
  · exact .fail (.refl _)

theorem planHif_stores {h : DescHdr} {b : List Nat} {x : Ext} {op : Nat} {p : Plan} (hp : planHif h b x op = some p)
    (u : State) : KeepsStoresD u (p.2 u) := by
  unfold planHif at hp; dsimp only at hp
  split at hp <;> cases hp <;> dsimp only
  · exact (bodyNop_keeps ..).stores rfl rfl
  · exact (bodyIdentify_keeps ..).stores rfl rfl
  · exact (bodyWarmReset_keeps ..).stores rfl rfl
  · exact (controlStart_keeps ..).stores rfl rfl
  · exact (bodyCtxOpen_keeps ..).stores rfl rfl
  · exact (bodyCtxClose_keeps ..).stores rfl rfl
  · exact (bodyCtxParam_keeps ..).stores rfl rfl
  · exact (bodyCtxPlace_keeps ..).stores rfl rfl
  · exact (bodyFloorSet_keeps ..).stores rfl rfl
  · exact (bodyCtxTelem_keeps ..).stores rfl rfl
  · rcases fld b 8 1 with _ | _ | k
    · exact (railCtrlStart_keeps ..).stores rfl rfl
    · exact railCtrlStop_stores ..
    · exact .fail (.refl _)
  · exact (bodyAmBaseline_keeps ..).stores rfl rfl

theorem planTly_stores {b : List Nat} {x : Ext} {op : Nat} {p : Plan} (hp : planTly b x op = some p)
    (u : State) : KeepsStoresD u (p.2 u) := by
  unfold planTly at hp; dsimp only at hp
  split at hp <;> cases hp <;> dsimp only
  · exact (bodyTlyInstall_keeps ..).stores rfl rfl
  · exact (bodyTlyRemove_keeps ..).stores rfl rfl
  · exact (bodyTlySetReg_keeps ..).stores rfl rfl
  · exact (bodyTlySetRemove_keeps ..).stores rfl rfl
  · exact (bodySlotTable_keeps ..).stores rfl rfl
  · exact (bodyLoopCoef_keeps ..).stores rfl rfl
  · exact (bodyVftLoad_keeps ..).stores rfl rfl
  · rcases fld b 8 1 with _ | _ | k
    · exact (bodyHintClassEntry_keeps ..).stores rfl rfl
    · exact (bodyHintClassPerm_keeps ..).stores rfl rfl
    · exact .fail (.refl _)

theorem planSyn_stores {h : DescHdr} {b : List Nat} {op : Nat} {p : Plan} (hp : planSyn h b op = some p)
    (u : State) : KeepsStoresD u (p.2 u) := by
  unfold planSyn at hp; dsimp only at hp
  split at hp <;> cases hp <;> dsimp only
  · exact planAct_stores ..
  · exact .ite (.fail (.refl _)) (bodySynMap_stores ..)
  · exact (bodySynRead_keeps ..).stores rfl rfl
  · exact (bodyClrConfig_keeps ..).stores rfl rfl
  · exact (bodyClrLink_keeps ..).stores rfl rfl

theorem planDma_stores {h : DescHdr} {b : List Nat} {x : Ext} {op : Nat} {p : Plan} (hp : planDma h b x op = some p)
    (u : State) : KeepsStoresD u (p.2 u) := by
  unfold planDma at hp
  split at hp <;> cases hp <;> dsimp only
  · exact (bodyDmaXfer_keeps ..).stores rfl rfl
  · exact (bodyDmaStream_keeps ..).stores rfl rfl
  · exact (bodyLdgDrain_keeps ..).stores rfl rfl
  · exact (bodyLdgRearm_keeps ..).stores rfl rfl
  · exact (bodyFrecCopy_keeps ..).stores rfl rfl
  · exact bodyAudTest_stores ..
  · exact bodyAudRemove_stores ..
  · exact bodyAudReturn_stores ..

theorem planFw_stores {h : DescHdr} {b : List Nat} {x : Ext} {op : Nat} {p : Plan} (hp : planFw h b x op = some p)
    (u : State) : KeepsStoresD u (p.2 u) := by
  unfold planFw at hp; dsimp only at hp
  split at hp
  case h_8 => split at hp <;> cases hp <;> first
    | exact .fail (.refl _)
    | exact bodyFuseInt_stores ..
    | exact bodyFuseGate_stores ..
    | exact bodyFuseBoot_stores ..
    | exact bodyFuseSvn_stores ..
    | exact bodyRevokeInt_stores ..
    | exact bodyRevokeKol_stores ..
  case h_9 => split at hp <;> cases hp <;> first
    | exact .fail (.refl _)
    | exact bodyNonce_stores ..
    | exact bodyToken_stores ..
  case h_10 => split at hp <;> cases hp <;> first
    | exact .fail (.refl _)
    | exact bodyZeroVol_stores ..
    | exact bodyZeroPerm_stores ..
  all_goals cases hp <;> dsimp only
  · exact (bodyFwQuery_keeps ..).stores rfl rfl
  · exact bodyFwStage_stores ..
  · split
    · exact bodyActivate_stores ..
    · exact .fail (.refl _)
  · exact bodyLive_stores ..
  · exact bodyFwConfirm_stores ..
  · exact bodyConfigStage_stores ..
  · exact (bodySpdm_keeps ..).stores rfl rfl

theorem planOf_stores {h : DescHdr} {b : List Nat} {x : Ext} {p : Plan} (hp : planOf h b x = some p)
    (u : State) : KeepsStoresD u (p.2 u) := by
  unfold planOf at hp; dsimp only at hp
  simp only [Option.or_eq_some_iff] at hp
  rcases hp with h | ⟨-, h | ⟨-, h | ⟨-, h | ⟨-, h⟩⟩⟩⟩
  · exact planHif_stores h u
  · exact planTly_stores h u
  · exact planSyn_stores h u
  · exact planDma_stores h u
  · exact planFw_stores h u

theorem perform_stores (c : CtxId) (b : List Nat) (x : Ext) (s : State) : KeepsStores s (perform c b x s) := by
  unfold perform
  extract_lets h
  split
  · next p hp => exact (warmAfter_stores ..).after (runDesc_stores (planOf_stores hp) ..)
  · exact runDesc_stores (fun u => .fail (.refl u)) ..

theorem fetch_stores (a1 a2 a3) (s : State) : KeepsStores s (fetch a1 a2 a3 s) := by
  unfold fetch
  refine .ite (.refl _) ?_
  split
  · exact (State.updCtx_keeps ..).stores rfl rfl
  · exact perform_stores ..

theorem fetchRetry_stores (a1 a2 a3) (s : State) : KeepsStores s (fetchRetry a1 a2 a3 s) := by
  unfold fetchRetry
  dsimp only
  split
  · exact .refl _
  · refine .ite (.refl _) ?_
    split
    · exact (ctxError_keeps ..).afterStores rfl rfl <| (State.updCtx_keeps ..).stores rfl rfl
    · exact (perform_stores ..).after <| (State.updCtx_keeps ..).stores rfl rfl

theorem writeFw_stores (a1 a2) (s : State) : KeepsStores s (writeFw a1 a2 s) := by
  unfold writeFw
  split
  · exact .onFw (fun _ => rfl) (.refl _)
  · exact .onFw (fun _ => rfl) (.refl _)
  · exact .onFw (fun _ => rfl) (.refl _)
  · exact .refl _

theorem tmoWrite_stores (a1 a2) (s : State) : KeepsStores s (tmoWrite a1 a2 s) :=
  .ite (synRes_stores ..) <| (synRes_stores ..).after <| .onSyn (fun _ => rfl) (.refl _)

theorem synSel_stores {f : Sync → Sync} (h : ∀ y, (f y).wtr = y.wtr) (s : State) : KeepsStores s (synSel f s) :=
  (synRes_stores ..).after (.onSyn h (.refl s))

theorem writeSyn_stores (a v : Nat) (s : State) : KeepsStores s (writeSyn a v s) := by
  unfold writeSyn
  split
  · exact tmoWrite_stores ..
  · exact tmoWrite_stores ..
  · exact tmoWrite_stores ..
  · exact tmoWrite_stores ..
  · exact escCfg_stores ..
  · exact (synRes_stores ..).after (when_stores _ (fun _ h => (synCtrlClr_stores ..).after h) (.refl s))
  · exact synSel_stores (by intro; rfl) s
  · exact synSel_stores (by intro; rfl) s
  · exact synCoreCfg_stores ..
  · exact synSel_stores (by intro; rfl) s
  · exact synSel_stores (by intro; rfl) s
  · exact synSel_stores (by intro; rfl) s
  · exact .refl s

theorem writeEmu_stores (a1 a2) (s : State) : KeepsStores s (writeEmu a1 a2 s) := by
  unfold writeEmu
  split
  · exact (writeClk_keeps ..).stores rfl rfl
  · exact (writeSns_keeps ..).stores rfl rfl
  · exact (writeRail_keeps ..).stores rfl rfl
  · exact (writeTly_keeps ..).stores rfl rfl
  · exact (writeLoop_keeps ..).stores rfl rfl
  · exact .ite ((writeTrs_keeps ..).stores rfl rfl) <| (writeFc_keeps ..).stores rfl rfl
  · exact writeSyn_stores ..
  · exact (writeClr_keeps ..).stores rfl rfl
  · exact (writeDma_keeps ..).stores rfl rfl
  · exact (writeDma_keeps ..).stores rfl rfl
  · exact (writeAud_keeps ..).stores rfl rfl

end Sys2Proof.Machine
end


section
/-!
R72, R327, R403, R404, R422, R428, R431: what every command keeps. The queue of commands is never touched, block time and
the sampled fuses only by COLD_RESET; Ledger, the waiter store and serial NOR's slots keep their form.
-/
namespace Sys2Proof.Machine

/-- The parts that a command other than COLD_RESET may change: all but block time, the sampled fuses and the queue. -/
def heldParts : List Area :=
  [.pwr, .cfg, .tb, .frm, .clk, .sns, .rail, .frec, .loop, .hm, .hs, .ep, .cp, .hif, .dma, .ldg, .fw, .tly, .fc, .trs, .syn,
   .clr, .aud, .ho, .free, .queues]

/-- From `s` to `t` only the parts `ps` change, and the stores of the block keep their form. -/
structure Sound (ps : List Area) (s t : State) : Prop where
  keeps : Keeps ps s t
  stores : KeepsStores s t

variable {ps qs : List Area} {s t : State} {r : Res} {f : State → State}

/-- A command that leaves the waiter store's and the firmware's part alone. -/
theorem plain (h : ∃ t, r = .next t ∧ Keeps ps s t) (hp : ∀ p ∈ ps, p ∈ qs)
    (hs : ps.contains .syn = false := by rfl) (hf : ps.contains .fw = false := by rfl) : ∃ t, r = .next t ∧ Sound qs s t := by
  obtain ⟨t, e, hk⟩ := h
  exact ⟨t, e, hk.mono hp, hk.stores hs hf⟩

/-- A command that changes one of the two parts and keeps the stores. -/
theorem stored (h : ∃ t, r = .next t ∧ Keeps ps s t) (hp : ∀ p ∈ ps, p ∈ qs)
    (hs : ∃ t, r = .next t ∧ KeepsStores s t) : ∃ t, r = .next t ∧ Sound qs s t := by
  obtain ⟨t, e, hk⟩ := h
  obtain ⟨u, e', hu⟩ := hs
  cases e.symm.trans e'
  exact ⟨t, e, hk.mono hp, hu⟩

/-- An own event of the block, or an access, whose operation keeps the stores. -/
theorem acted (h : ∃ t, act f s = .next t ∧ Keeps ps s t) (hp : ∀ p ∈ ps, p ∈ qs) (hs : KeepsStores s (f s)) :
    ∃ t, act f s = .next t ∧ Sound qs s t := stored h hp (act_stores hs)

/-- A command that performs a descriptor whose body keeps the stores. -/
theorem performed {h : DescHdr} {d : DescSpec} {body : State → DescOut}
    (hk : ∃ t, act (runDesc h d body) s = .next t ∧ Keeps ps s t) (hp : ∀ p ∈ ps, p ∈ qs)
    (hb : ∀ u, KeepsStoresD u (body u)) : ∃ t, act (runDesc h d body) s = .next t ∧ Sound qs s t :=
  acted hk hp (runDesc_stores hb ..)

theorem execRegisterWrite_stores (a : Word) (v : HsWrite) (s : State) :
    ∃ t, execRegisterWrite a v s = .next t ∧ KeepsStores s t := by
  unfold execRegisterWrite regWrite
  split
  · exact ⟨_, rfl, hsAnswer_stores _ _ (.refl s)⟩
  split
  · exact ⟨_, rfl, .ite (hsAnswer_stores _ _ ((writeHard_keeps ..).stores rfl rfl)) (hsAnswer_stores _ _ (.refl s))⟩
  split
  · exact hsHif_stores ((writeHif_keeps ..).stores rfl rfl)
  split
  · exact hsHif_stores (writeFw_stores ..)
  · exact hsEmu_stores (writeEmu_stores ..)

/-- COLD_RESET may change everything but the queue of commands. -/
theorem execColdReset_sound (vsel refsel : Fin 8) (selftest : Option Nat) (b : Boot) (p : Option Part) (s : State) :
    ∃ t, exec (.coldReset vsel refsel selftest b p) s = .next t ∧ Sound (.now :: .fuse :: heldParts) s t :=
  stored (execColdReset_keeps ..) (by decide) ⟨_, rfl, coldBegin_stores ..⟩

/-- Every other command leaves block time and the sampled fuses alone as well. -/
theorem exec_sound (c : Instr) (s : State) (hcold : ∀ v r x n p, c ≠ .coldReset v r x n p) :
    ∃ t, exec c s = .next t ∧ Sound heldParts s t := by
  cases c with
  | coldReset v r x n p => exact absurd rfl (hcold v r x n p)
  | porstNAssert =>
    exact stored (execPorstNAssert_keeps ..) (by decide) (⟨_, rfl, pulse_stores _ _ (fun _ h =>
      (powerHold_stores ..).after <| (State.onPwr_keeps ..).afterStores rfl rfl h) (.refl _)⟩)
  | internalPowerOnReset =>
    exact stored (execInternalPowerOnReset_keeps ..) (by decide) (⟨_, rfl, internalReset_stores ..⟩)
  | warmReset =>
    exact acted (execWarmReset_keeps ..) (by decide) (pulse_stores _ _ (fun _ h => (warmReset_stores ..).after <|
      (State.onPwr_keeps ..).afterStores rfl rfl h) (.refl _))
  | wrstNRelease =>
    exact acted (execWrstNRelease_keeps ..) (by decide) (.ite (.onFw (fun _ => rfl) <|
      (State.onPwr_keeps ..).stores rfl rfl) (.refl _))
  | inputPowerFail => exact acted (execInputPowerFail_keeps ..) (by decide) (boardPin_stores ..)
  | vanaLoss => exact acted (execVanaLoss_keeps ..) (by decide) (vanaLoss_stores ..)
  | fwVfuseAlarm => exact acted (execFwVfuseAlarm_keeps ..) (by decide) (vfuseAlarm_stores ..)
  | hsPortReset => exact plain (execHsPortReset_keeps ..) (by decide)
  | hmPortReset => exact plain (execHmPortReset_keeps ..) (by decide)
  | hmResponse => exact plain (execHmResponse_keeps ..) (by decide)
  | hmTimeout => exact plain (execHmTimeout_keeps ..) (by decide)
  | hmTagRelease => exact plain (execHmTagRelease_keeps ..) (by decide)
  | refWindowEnd => exact acted (execRefWindowEnd_keeps ..) (by decide) (refWindow_stores ..)
  | refLoss =>
    exact acted (execRefLoss_keeps ..) (by decide) (refBreak_stores (fun _ h => (refLossCore_stores ..).after h)
      (.refl _))
  | driftMeasurement => exact acted (execDriftMeasurement_keeps ..) (by decide) (driftMeasure_stores ..)
  | rootReqGo => exact plain (execRootReqGo_keeps ..) (by decide)
  | rootChangeStart => exact plain (execRootChangeStart_keeps ..) (by decide)
  | rootTimebaseMoved => exact plain (execRootTimebaseMoved_keeps ..) (by decide)
  | pllLock => exact plain (execPllLock_keeps ..) (by decide)
  | relockRetry => exact plain (execRelockRetry_keeps ..) (by decide)
  | pllFail => exact acted (execPllFail_keeps ..) (by decide) (pllFailStep_stores ..)
  | pllFailRetry => exact plain (execPllFailRetry_keeps ..) (by decide)
  | leafAck => exact acted (execLeafAck_keeps ..) (by decide) (leafAck_stores ..)
  | leafFail => exact acted (execLeafFail_keeps ..) (by decide) (leafFail_stores ..)
  | leafRetry => exact plain (execLeafRetry_keeps ..) (by decide)
  | leafRestored => exact plain (execLeafRestored_keeps ..) (by decide)
  | droopFire => exact plain (execDroopFire_keeps ..) (by decide)
  | ceilingUpdate => exact plain (execCeilingUpdate_keeps ..) (by decide)
  | cpAck => exact plain (execCpAck_keeps ..) (by decide)
  | cpLate => exact plain (execCpLate_keeps ..) (by decide)
  | frameStart => exact acted (execFrameStart_keeps ..) (by decide) (frameStart_stores ..)
  | frameCommit => exact acted (execFrameCommit_keeps ..) (by decide) (frameCommit_stores ..)
  | slotComplete => exact acted (execSlotComplete_keeps ..) (by decide) ((slotComplete_keeps ..).stores rfl rfl)
  | slotMiss => exact plain (execSlotMiss_keeps ..) (by decide)
  | loopBackstop => exact plain (execLoopBackstop_keeps ..) (by decide)
  | loopBackstopEnd => exact plain (execLoopBackstopEnd_keeps ..) (by decide)
  | shed => exact plain (execShed_keeps ..) (by decide)
  | restore => exact plain (execRestore_keeps ..) (by decide)
  | shedFloorWrite => exact plain (execShedFloorWrite_keeps ..) (by decide)
  | hostRestore => exact plain (execHostRestore_keeps ..) (by decide)
  | clrMin => exact plain (execClrMin_keeps ..) (by decide)
  | loopSaturated => exact plain (execLoopSaturated_keeps ..) (by decide)
  | odEnd => exact plain (execOdEnd_keeps ..) (by decide)
  | leaseGuard => exact plain (execLeaseGuard_keeps ..) (by decide)
  | trimEvaluate => exact plain (execTrimEvaluate_keeps ..) (by decide)
  | amMeasure => exact plain (execAmMeasure_keeps ..) (by decide)
  | siteSample => exact plain (execSiteSample_keeps ..) (by decide)
  | siteResult => exact plain (execSiteResult_keeps ..) (by decide)
  | thermTrip => exact acted (execThermTrip_keeps ..) (by decide) (thermTrip_stores ..)
  | thermRestartOk => exact plain (execThermRestartOk_keeps ..) (by decide)
  | ringFail => exact plain (execRingFail_keeps ..) (by decide)
  | ringRetry => exact plain (execRingRetry_keeps ..) (by decide)
  | refCompare => exact acted (execRefCompare_keeps ..) (by decide) (refCompare_stores ..)
  | refBroadcast => exact plain (execRefBroadcast_keeps ..) (by decide)
  | ddRead => exact plain (execDdRead_keeps ..) (by decide)
  | ddTapRewrite => exact plain (execDdTapRewrite_keeps ..) (by decide)
  | railVConversion => exact plain (execRailVConversion_keeps ..) (by decide)
  | brakeTimeout => exact plain (execBrakeTimeout_keeps ..) (by decide)
  | compensatorUpdate => exact plain (execCompensatorUpdate_keeps ..) (by decide)
  | phaseIConversion => exact plain (execPhaseIConversion_keeps ..) (by decide)
  | stageTConversion => exact plain (execStageTConversion_keeps ..) (by decide)
  | currentShareUpdate => exact plain (execCurrentShareUpdate_keeps ..) (by decide)
  | trimLimit => exact plain (execTrimLimit_keeps ..) (by decide)
  | shareShift => exact plain (execShareShift_keeps ..) (by decide)
  | shiftLimit => exact plain (execShiftLimit_keeps ..) (by decide)
  | pwmPeriod => exact plain (execPwmPeriod_keeps ..) (by decide)
  | zeroCrossing => exact plain (execZeroCrossing_keeps ..) (by decide)
  | phaseRemove => exact plain (execPhaseRemove_keeps ..) (by decide)
  | joinComplete => exact plain (execJoinComplete_keeps ..) (by decide)
  | vppRampDown => exact plain (execVppRampDown_keeps ..) (by decide)
  | vinRead => exact plain (execVinRead_keeps ..) (by decide)
  | vinStale => exact plain (execVinStale_keeps ..) (by decide)
  | pmbAlert => exact plain (execPmbAlert_keeps ..) (by decide)
  | pmbusTimeout => exact plain (execPmbusTimeout_keeps ..) (by decide)
  | overloadCheck => exact plain (execOverloadCheck_keeps ..) (by decide)
  | overloadShutdown => exact acted (execOverloadShutdown_keeps ..) (by decide) (overloadShutdown_stores ..)
  | scTrip => exact acted (execScTrip_keeps ..) (by decide) (scTrip_stores ..)
  | stageFault => exact acted (execStageFault_keeps ..) (by decide) (stagePin_stores ..)
  | pwmReadback => exact acted (execPwmReadback_keeps ..) (by decide) (pwmReadback_stores ..)
  | overvoltage => exact acted (execOvervoltage_keeps ..) (by decide) (overvoltage_stores ..)
  | undervoltage => exact acted (execUndervoltage_keeps ..) (by decide) (undervoltage_stores ..)
  | senseCheck => exact acted (execSenseCheck_keeps ..) (by decide) (senseCheck_stores ..)
  | pmbusConfigDone => exact plain (execPmbusConfigDone_keeps ..) (by decide)
  | phaseIdentify => exact acted (execPhaseIdentify_keeps ..) (by decide) (phaseIdentify_stores ..)
  | rampStart => exact plain (execRampStart_keeps ..) (by decide)
  | reached => exact plain (execReached_keeps ..) (by decide)
  | startTimeout => exact acted (execStartTimeout_keeps ..) (by decide) (startTimeout_stores ..)
  | rampDownDone => exact acted (execRampDownDone_keeps ..) (by decide) (rampDownDone_stores ..)
  | fastStopLevel => exact acted (execFastStopLevel_keeps ..) (by decide) (fastLevel_stores ..)
  | frecCommitted => exact acted (execFrecCommitted_keeps ..) (by decide) (frecCommit_stores ..)
  | frecSlotLoaded => exact plain (execFrecSlotLoaded_keeps ..) (by decide)
  | crowbarReleased => exact plain (execCrowbarReleased_keeps ..) (by decide)
  | faultClear => exact plain (execFaultClear_keeps ..) (by decide)
  | phaseFaultClear => exact plain (execPhaseFaultClear_keeps ..) (by decide)
  | railVreqGo => exact plain (execRailVreqGo_keeps ..) (by decide)
  | railSlewWrite => exact plain (execRailSlewWrite_keeps ..) (by decide)
  | railTelClr => exact plain (execRailTelClr_keeps ..) (by decide)
  | railShedWrite => exact plain (execRailShedWrite_keeps ..) (by decide)
  | ddDepthWrite => exact plain (execDdDepthWrite_keeps ..) (by decide)
  | loopClModeGo => exact plain (execLoopClModeGo_keeps ..) (by decide)
  | loopTgtWrite => exact plain (execLoopTgtWrite_keeps ..) (by decide)
  | fbForceWrite => exact plain (execFbForceWrite_keeps ..) (by decide)
  | clrLatch => exact plain (execClrLatch_keeps ..) (by decide)
  | capSet => exact plain (execCapSet_keeps ..) (by decide)
  | clrRsn => exact plain (execClrRsn_keeps ..) (by decide)
  | clrOd => exact plain (execClrOd_keeps ..) (by decide)
  | clrFlt => exact plain (execClrFlt_keeps ..) (by decide)
  | dcPrioWrite => exact plain (execDcPrioWrite_keeps ..) (by decide)
  | dcFloorWrite => exact plain (execDcFloorWrite_keeps ..) (by decide)
  | txCfgWrite => exact plain (execTxCfgWrite_keeps ..) (by decide)
  | clrAcc => exact plain (execClrAcc_keeps ..) (by decide)
  | fcDefault => exact plain (execFcDefault_keeps ..) (by decide)
  | hintClassSet => exact plain (execHintClassSet_keeps ..) (by decide)
  | hintOp => exact acted (execHintOp_keeps ..) (by decide) (engineReq_stores ..)
  | releaseHint => exact acted (execReleaseHint_keeps ..) (by decide) (engineReq_stores ..)
  | hintExpire => exact plain (execHintExpire_keeps ..) (by decide)
  | hintEvaluate => exact plain (execHintEvaluate_keeps ..) (by decide)
  | hintTrustBack => exact plain (execHintTrustBack_keeps ..) (by decide)
  | pageLanded => exact plain (execPageLanded_keeps ..) (by decide)
  | tlyCubeErr => exact plain (execTlyCubeErr_keeps ..) (by decide)
  | tlyStoreEcc => exact plain (execTlyStoreEcc_keeps ..) (by decide)
  | clrSat => exact plain (execClrSat_keeps ..) (by decide)
  | synSet => exact acted (execSynSet_keeps ..) (by decide) (engineReq_stores ..)
  | synClear => exact acted (execSynClear_keeps ..) (by decide) (engineReq_stores ..)
  | waitSet => exact acted (execWaitSet_keeps ..) (by decide) (engineReq_stores ..)
  | waitClear => exact acted (execWaitClear_keeps ..) (by decide) (engineReq_stores ..)
  | synInc => exact acted (execSynInc_keeps ..) (by decide) (engineReq_stores ..)
  | synDec => exact acted (execSynDec_keeps ..) (by decide) (engineReq_stores ..)
  | waitGe => exact acted (execWaitGe_keeps ..) (by decide) (engineReq_stores ..)
  | barrierArrive => exact acted (execBarrierArrive_keeps ..) (by decide) (engineReq_stores ..)
  | epResponseTaken => exact acted (execEpResponseTaken_keeps ..) (by decide) (epTaken_stores ..)
  | synTimeout => exact acted (execSynTimeout_keeps ..) (by decide) (synTimeout_stores ..)
  | synWatchdogFire => exact acted (execSynWatchdogFire_keeps ..) (by decide) (synWatchdog_stores ..)
  | synEcc => exact acted (execSynEcc_keeps ..) (by decide) (synEcc_stores ..)
  | escrowLend => exact acted (execEscrowLend_keeps ..) (by decide) (escrowLend_stores ..)
  | synCtrlClr => exact stored (execSynCtrlClr_keeps ..) (by decide) (hsEmu_stores (synCtrlClr_stores ..))
  | synCoreCfgWrite => exact stored (execSynCoreCfgWrite_keeps ..) (by decide) (hsEmu_stores (synCoreCfg_stores ..))
  | escCfgWrite => exact stored (execEscCfgWrite_keeps ..) (by decide) (hsEmu_stores (escCfg_stores ..))
  | clearingRound => exact acted (execClearingRound_keeps ..) (by decide) (clrRound_stores ..)
  | mailboxPoll => exact plain (execMailboxPoll_keeps ..) (by decide)
  | msgReread => exact plain (execMsgReread_keeps ..) (by decide)
  | join => exact plain (execJoin_keeps ..) (by decide)
  | accept => exact plain (execAccept_keeps ..) (by decide)
  | stateMsg => exact plain (execStateMsg_keeps ..) (by decide)
  | offer => exact plain (execOffer_keeps ..) (by decide)
  | lease => exact plain (execLease_keeps ..) (by decide)
  | returnMsg => exact plain (execReturnMsg_keeps ..) (by decide)
  | leave => exact plain (execLeave_keeps ..) (by decide)
  | returnSend => exact plain (execReturnSend_keeps ..) (by decide)
  | ackMiss => exact plain (execAckMiss_keeps ..) (by decide)
  | clrLeaseExpired => exact plain (execClrLeaseExpired_keeps ..) (by decide)
  | joinRetry => exact plain (execJoinRetry_keeps ..) (by decide)
  | clrCfgWrite => exact plain (execClrCfgWrite_keeps ..) (by decide)
  | clrLnkEnWrite => exact plain (execClrLnkEnWrite_keeps ..) (by decide)
  | clrCtrlClr => exact plain (execClrCtrlClr_keeps ..) (by decide)
  | doorbellWrite => exact plain (execDoorbellWrite_keeps ..) (by decide)
  | descriptorFetch => exact acted (execDescriptorFetch_keeps ..) (by decide) (fetch_stores ..)
  | fetchRetry => exact acted (execFetchRetry_keeps ..) (by decide) (fetchRetry_stores ..)
  | irqGap => exact plain (execIrqGap_keeps ..) (by decide)
  | hifNegGo => exact plain (execHifNegGo_keeps ..) (by decide)
  | c0RingEnWrite => exact plain (execC0RingEnWrite_keeps ..) (by decide)
  | hifCtrlClr => exact plain (execHifCtrlClr_keeps ..) (by decide)
  | nop => exact plain (execNop_keeps ..) (by decide)
  | identify => exact plain (execIdentify_keeps ..) (by decide)
  | warmResetDesc =>
    exact acted (execWarmResetDesc_keeps ..) (by decide) ((warmAfter_stores ..).after <|
      runDesc_stores (fun u => ((bodyWarmReset_keeps ..).stores rfl rfl)) ..)
  | controlStart => exact plain (execControlStart_keeps ..) (by decide)
  | ctxOpen => exact plain (execCtxOpen_keeps ..) (by decide)
  | ctxClose => exact plain (execCtxClose_keeps ..) (by decide)
  | ctxParam => exact plain (execCtxParam_keeps ..) (by decide)
  | ctxPlace => exact plain (execCtxPlace_keeps ..) (by decide)
  | floorSet => exact plain (execFloorSet_keeps ..) (by decide)
  | ctxTelem => exact plain (execCtxTelem_keeps ..) (by decide)
  | railCtrlStart => exact plain (execRailCtrlStart_keeps ..) (by decide)
  | railCtrlStop => exact performed (execRailCtrlStop_keeps ..) (by decide) fun _ => (railCtrlStop_stores ..)
  | amBaseline => exact plain (execAmBaseline_keeps ..) (by decide)
  | tlyInstall => exact plain (execTlyInstall_keeps ..) (by decide)
  | tlyRemove => exact plain (execTlyRemove_keeps ..) (by decide)
  | tlySetReg => exact plain (execTlySetReg_keeps ..) (by decide)
  | tlySetRemove => exact plain (execTlySetRemove_keeps ..) (by decide)
  | slotTable => exact plain (execSlotTable_keeps ..) (by decide)
  | loopCoef => exact plain (execLoopCoef_keeps ..) (by decide)
  | vftLoad => exact plain (execVftLoad_keeps ..) (by decide)
  | hintClassEntry => exact plain (execHintClassEntry_keeps ..) (by decide)
  | hintClassPerm => exact plain (execHintClassPerm_keeps ..) (by decide)
  | synActSet => exact performed (execSynActSet_keeps ..) (by decide) fun _ => (bodySynFlag_stores ..)
  | synActClear => exact performed (execSynActClear_keeps ..) (by decide) fun _ => (bodySynFlag_stores ..)
  | adjust => exact performed (execAdjust_keeps ..) (by decide) fun _ => (bodyAdjust_stores ..)
  | releaseWaiter => exact performed (execReleaseWaiter_keeps ..) (by decide) fun _ => (bodyReleaseWaiter_stores ..)
  | failWaiter => exact performed (execFailWaiter_keeps ..) (by decide) fun _ => (bodyFailWaiter_stores ..)
  | resetWindow => exact performed (execResetWindow_keeps ..) (by decide) fun _ => (bodyResetWindow_stores ..)
  | setKind => exact performed (execSetKind_keeps ..) (by decide) fun _ => (bodySetKind_stores ..)
  | groupDef => exact performed (execGroupDef_keeps ..) (by decide) fun _ => (bodyGroupDef_stores ..)
  | synMap => exact performed (execSynMap_keeps ..) (by decide) fun _ => (bodySynMap_stores ..)
  | synRead => exact plain (execSynRead_keeps ..) (by decide)
  | clrConfig => exact plain (execClrConfig_keeps ..) (by decide)
  | clrLink => exact plain (execClrLink_keeps ..) (by decide)
  | dmaXfer => exact plain (execDmaXfer_keeps ..) (by decide)
  | dmaTransferDone => exact plain (execDmaTransferDone_keeps ..) (by decide)
  | dmaStreamArm => exact plain (execDmaStreamArm_keeps ..) (by decide)
  | dmaStreamStop => exact plain (execDmaStreamStop_keeps ..) (by decide)
  | streamPeriod => exact plain (execStreamPeriod_keeps ..) (by decide)
  | captureSweep => exact plain (execCaptureSweep_keeps ..) (by decide)
  | dmaCtrlClr => exact plain (execDmaCtrlClr_keeps ..) (by decide)
  | stopStreams => exact plain (execStopStreams_keeps ..) (by decide)
  | ldgDrain => exact plain (execLdgDrain_keeps ..) (by decide)
  | ldgRearm => exact plain (execLdgRearm_keeps ..) (by decide)
  | frecCopy => exact plain (execFrecCopy_keeps ..) (by decide)
  | ledgerStore => exact plain (execLedgerStore_keeps ..) (by decide)
  | ldwRec0Read => exact plain (execLdwRec0Read_keeps ..) (by decide)
  | ldwRec7Read => exact plain (execLdwRec7Read_keeps ..) (by decide)
  | ldwCursorWrite => exact plain (execLdwCursorWrite_keeps ..) (by decide)
  | ldgCtrlClrLost => exact plain (execLdgCtrlClrLost_keeps ..) (by decide)
  | limAlarmClear => exact plain (execLimAlarmClear_keeps ..) (by decide)
  | loReadLatch => exact plain (execLoReadLatch_keeps ..) (by decide)
  | digest0Read => exact plain (execDigest0Read_keeps ..) (by decide)
  | fwQuery => exact plain (execFwQuery_keeps ..) (by decide)
  | fwStage => exact performed (execFwStage_keeps ..) (by decide) fun _ => (bodyFwStage_stores ..)
  | fwActivateCold => exact performed (execFwActivateCold_keeps ..) (by decide) fun _ => (bodyActivate_stores ..)
  | fwActivateWarm =>
    exact acted (execFwActivateWarm_keeps ..) (by decide) ((warmAfter_stores ..).after <|
      runDesc_stores (fun u => (bodyActivate_stores ..)) ..)
  | fwLiveUpdate => exact performed (execFwLiveUpdate_keeps ..) (by decide) fun _ => (bodyLive_stores ..)
  | luPrepareDone => exact acted (execLuPrepareDone_keeps ..) (by decide) (prepareDone_stores ..)
  | luHandoffDone => exact acted (execLuHandoffDone_keeps ..) (by decide) (handoffDone_stores ..)
  | fwResumed => exact acted (execFwResumed_keeps ..) (by decide) (resumed_stores ..)
  | fwSelfConfirmed => exact acted (execFwSelfConfirmed_keeps ..) (by decide) (selfConfirmed_stores ..)
  | fwRollback => exact acted (execFwRollback_keeps ..) (by decide) (rollbackDue_stores ..)
  | fwConfirm => exact performed (execFwConfirm_keeps ..) (by decide) fun _ => (bodyFwConfirm_stores ..)
  | fwConfigStage => exact performed (execFwConfigStage_keeps ..) (by decide) fun _ => (bodyConfigStage_stores ..)
  | fwSpdm => exact plain (execFwSpdm_keeps ..) (by decide)
  | fuseIntegratorKey => exact performed (execFuseIntegratorKey_keeps ..) (by decide) fun _ => (bodyFuseInt_stores ..)
  | fuseLimitGate => exact performed (execFuseLimitGate_keeps ..) (by decide) fun _ => (bodyFuseGate_stores ..)
  | fuseBootSet => exact performed (execFuseBootSet_keeps ..) (by decide) fun _ => (bodyFuseBoot_stores ..)
  | fuseSvn => exact performed (execFuseSvn_keeps ..) (by decide) fun _ => (bodyFuseSvn_stores ..)
  | fuseRevokeIntegrator =>
    exact performed (execFuseRevokeIntegrator_keeps ..) (by decide) fun _ => (bodyRevokeInt_stores ..)
  | fuseRevokeKolhidex =>
    exact performed (execFuseRevokeKolhidex_keeps ..) (by decide) fun _ => (bodyRevokeKol_stores ..)
  | fwTokenNonce => exact performed (execFwTokenNonce_keeps ..) (by decide) fun _ => (bodyNonce_stores ..)
  | fwTokenUnlock => exact performed (execFwTokenUnlock_keeps ..) (by decide) fun _ => (bodyToken_stores ..)
  | zeroiseVolatile => exact performed (execZeroiseVolatile_keeps ..) (by decide) fun _ => (bodyZeroVol_stores ..)
  | zeroisePermanent => exact performed (execZeroisePermanent_keeps ..) (by decide) fun _ => (bodyZeroPerm_stores ..)
  | fwBoot => exact acted (execFwBoot_keeps ..) (by decide) (fwBoot_stores ..)
  | fwCoreHang => exact acted (execFwCoreHang_keeps ..) (by decide) (coreHang_stores ..)
  | fwCoreBack => exact acted (execFwCoreBack_keeps ..) (by decide) (coreBack_stores ..)
  | fwVaultRestart => exact acted (execFwVaultRestart_keeps ..) (by decide) (vaultHang_stores ..)
  | enterLp => exact acted (execEnterLp_keeps ..) (by decide) (enterLp_stores ..)
  | exitLp => exact acted (execExitLp_keeps ..) (by decide) (exitLp_stores ..)
  | audTest => exact performed (execAudTest_keeps ..) (by decide) fun _ => (bodyAudTest_stores ..)
  | audRemove => exact performed (execAudRemove_keeps ..) (by decide) fun _ => (bodyAudRemove_stores ..)
  | audReturn => exact performed (execAudReturn_keeps ..) (by decide) fun _ => (bodyAudReturn_stores ..)
  | audTestDone => exact acted (execAudTestDone_keeps ..) (by decide) (audDone_stores ..)
  | audSchedule => exact acted (execAudSchedule_keeps ..) (by decide) (audSchedule_stores ..)
  | audSchedWrite => exact plain (execAudSchedWrite_keeps ..) (by decide)
  | audCtrlClr => exact plain (execAudCtrlClr_keeps ..) (by decide)
  | extest => exact plain (execExtest_keeps ..) (by decide)
  | idcode => exact plain (execIdcode_keeps ..) (by decide)
  | samplePreload => exact plain (execSamplePreload_keeps ..) (by decide)
  | clamp => exact plain (execClamp_keeps ..) (by decide)
  | highz => exact plain (execHighz_keeps ..) (by decide)
  | bypass => exact plain (execBypass_keeps ..) (by decide)
  | wsBypass => exact plain (execWsBypass_keeps ..) (by decide)
  | wsIdcode => exact plain (execWsIdcode_keeps ..) (by decide)
  | mbistRead => exact plain (execMbistRead_keeps ..) (by decide)
  | wsSafe => exact plain (execWsSafe_keeps ..) (by decide)
  | wsExtest => exact plain (execWsExtest_keeps ..) (by decide)
  | wsIntestScan => exact plain (execWsIntestScan_keeps ..) (by decide)
  | mbistRun => exact plain (execMbistRun_keeps ..) (by decide)
  | mbistDone => exact plain (execMbistDone_keeps ..) (by decide)
  | registerWrite => exact stored (execRegisterWrite_keeps ..) (by decide) (execRegisterWrite_stores ..)
  | malformedRequest =>
    exact acted (execMalformedRequest_keeps ..) (by decide) (.ite (.refl _) <| epRequest_stores ..)
  | shortInterval =>
    exact acted (execShortInterval_keeps ..) (by decide) (refBreak_stores (fun _ h =>
      (refLossCore_stores ..).after h) (.refl _))
  | hmRstNRelease => exact plain (execHmRstNRelease_keeps ..) (by decide)
  | extensionEnd => exact plain (execExtensionEnd_keeps ..) (by decide)
  | slotStart => exact plain (execSlotStart_keeps ..) (by decide)
  | vrefStep => exact plain (execVrefStep_keeps ..) (by decide)
  | borrowedLeaseExpiry => exact plain (execBorrowedLeaseExpiry_keeps ..) (by decide)
  | autoZero => exact plain (execAutoZero_keeps ..) (by decide)
  | sectorEraseDone => exact plain (execSectorEraseDone_keeps ..) (by decide)
  | vaultReady => exact acted (execVaultReady_keeps ..) (by decide) (vaultReady_stores ..)
  | fwSelftestFail => exact acted (execFwSelftestFail_keeps ..) (by decide) (vaultError_stores ..)

/-- Whatever a step does, it answers a next state and keeps the form of the stores; the parts that it may change are those
of the command in front. -/
theorem step_next_sound (s : State) : ∃ t, step s = .next t ∧ t.pending = s.pending.tail ∧ (s.ldg.Ok → t.ldg.Ok) ∧
    KeepsStores s t ∧
    ((∀ v r x n p, s.pending.head? ≠ some (.coldReset v r x n p)) →
      t.fuse = s.fuse ∧ (s.pending ≠ [] → t.now = s.now)) := by
  rcases hpending : s.pending with _ | ⟨c, rest⟩
  · have hk := idle_keeps s
    refine ⟨idle s, by rw [step, hpending], ?_, hk.ok, hk.stores rfl rfl, fun _ => ?_⟩
    case refine_2 => exact ⟨hk.only.same .fuse (by decide), by simp⟩
    have hsame : (idle s).pending = s.pending := hk.only.same .pending (by decide)
    rw [hsame, hpending]
    rfl
  · have hstep : step s = exec c { s with pending := rest } := by rw [step, hpending]
    rw [hstep]
    by_cases hcold : ∀ v r x n p, c ≠ .coldReset v r x n p
    · obtain ⟨t, e, hk, hs⟩ := exec_sound c { s with pending := rest } hcold
      exact ⟨t, e, hk.only.same .pending (by decide), hk.ok, ⟨hs.waiters, hs.slots⟩,
        fun _ => ⟨hk.only.same .fuse (by decide), fun _ => hk.only.same .now (by decide)⟩⟩
    · push Not at hcold
      obtain ⟨v, r, x, n, p, rfl⟩ := hcold
      obtain ⟨t, e, hk, hs⟩ := execColdReset_sound v r x n p { s with pending := rest }
      exact ⟨t, e, hk.only.same .pending (by decide), hk.ok, ⟨hs.waiters, hs.slots⟩,
        fun h => absurd rfl (h v r x n p)⟩

end Sys2Proof.Machine
end

section
/-!
What a loop over a list of indices does to one entry: the turns of the other indices leave it alone, its own turn changes it.
-/
namespace Sys2Proof.Machine

variable {α β : Type} {s : State}

@[simp] theorem forList_nil (f : α → State → State) (s : State) : forList [] f s = s := rfl

@[simp] theorem forList_cons (a : α) (l : List α) (f : α → State → State) (s : State) :
    forList (a :: l) f s = forList l f (f a s) := rfl

/-- What the turns of the listed elements leave alone, the loop leaves alone. -/
theorem forList_eq_of_mem (get : State → β) {l : List α} {f : α → State → State}
    (h : ∀ a ∈ l, ∀ u, get (f a u) = get u) (s : State) : get (forList l f s) = get s :=
  forList_ind (P := fun u => get u = get s) (fun a ha u hu => (h a ha u).trans hu) rfl

/-- In a loop without repetition the entry of index `k` is changed once, by the turn of `k`, where `k` is listed. -/
theorem forList_entry [DecidableEq α] (get : State → β) {f : α → State → State} {g : β → β} {k : α}
    (hself : ∀ u, get (f k u) = g (get u)) (hother : ∀ j, j ≠ k → ∀ u, get (f j u) = get u) {l : List α} (hl : l.Nodup)
    (s : State) : get (forList l f s) = if k ∈ l then g (get s) else get s := by
  induction l generalizing s with
  | nil => rfl
  | cons a l ih =>
    obtain ⟨ha, hl⟩ := List.nodup_cons.mp hl
    rw [forList_cons, ih hl]
    by_cases hk : a = k
    · subst hk
      simp [ha, hself]
    · simp [Ne.symm hk, hother a hk]

theorem idxWhere_nodup (n : Nat) (p : Nat → Bool) : (idxWhere n p).Nodup := List.nodup_range.filter p

end Sys2Proof.Machine
end

section
/-!
The statements about every step: what it takes off the queue, what it does to block time, the sampled fuses and the stores; and
what reset leaves.
-/
namespace Sys2Proof.Machine

/-- Settles O1: a step with a command in front is the command's meaning, by the definition of a step. -/
theorem stepRunsFrontCommand : Obligations.StepRunsFrontCommand := by
  intro s c rest h
  rw [step, h]

/-- Settles O3: every command answers a next state and leaves the rest of the queue alone. -/
theorem everyStepConsumesOneCommand : Obligations.EveryStepConsumesOneCommand := fun s =>
  have ⟨t, e, hpending, _⟩ := step_next_sound s
  ⟨t, e, hpending⟩

/-- Settles O4: the sampled fuses are no part that a command other than COLD_RESET may change. -/
theorem limitGateLockedBetweenColdResets : Obligations.LimitGateLockedBetweenColdResets := by
  intro s t h hcold
  obtain ⟨u, e, -, -, -, hheld⟩ := step_next_sound s
  cases e.symm.trans h
  exact (hheld hcold).1

/-- Settles O5: the form of the three stores is kept by every command, and reset has it. -/
theorem storesKeepTheirForm : Obligations.StoresKeepTheirForm := by
  refine ⟨fun s t h => ?_, ⟨by decide, rfl, ?_, ?_⟩, rfl, rfl, rfl, rfl, rfl⟩
  · obtain ⟨u, e, -, hok, hstores, -⟩ := step_next_sound s
    cases e.symm.trans h
    exact ⟨hok, hstores.waiters, hstores.slots⟩
  · exact fun _ he => nomatch he
  · exact fun _ he => nomatch he

/-- Settles O6: each field of reset is read off its literal. -/
theorem resetState : Obligations.ResetState :=
  ⟨rfl, rfl, rfl, rfl, rfl, rfl, rfl, rfl, rfl, rfl, rfl, fun _ => rfl, fun _ => rfl⟩

theorem step_of_empty {s : State} (h : s.pending = []) : step s = .next (idle s) := by rw [step, h]

theorem idle_of_live {s : State} (h : s.live = true) : idle s = pwmFall { s with now := s.now + 1 } := if_pos h

theorem idle_of_held {s : State} (h : s.live = false) : idle s = s := if_neg (by simp [h])

/-- A phase whose `PWM` is low. -/
def pwmLow (x : Phase) : Phase := { x with pwm := false }

/-- The `PWM` of a phase falls where its on-time is over (R147). -/
theorem pwmFall_getPh (s : State) {p : Nat} (hp : p < 128) : (pwmFall s).getPh p =
    if (s.getPh p).pwm = true ∧ (s.getPh p).fallAt ≤ s.now then { s.getPh p with pwm := false } else s.getPh p := by
  have h := forList_entry (·.getPh p) (f := fun k => State.updPh k pwmLow) (g := pwmLow)
    (fun u => State.getPh_updPh u p _) (fun j hj u => State.getPh_updPh_ne u j _ (Ne.symm hj))
    ((List.nodup_range (n := 128)).filter fun k => (s.getPh k).pwm && decide ((s.getPh k).fallAt ≤ s.now)) s
  refine h.trans ?_
  simp [hp, pwmLow]

/-- Of the rails, `pwmFall` changes the phases alone. -/
theorem pwmFall_rail (s : State) : (pwmFall s).rail = { s.rail with ph := (pwmFall s).rail.ph } :=
  have h : ({ (pwmFall s).rail with ph := [] } : Rails) = { s.rail with ph := [] } :=
    forList_eq (fun u => ({ u.rail with ph := [] } : Rails)) _ (f := fun p => State.updPh p _) (fun _ _ => rfl) s
  congrArg (fun r => ({ r with ph := (pwmFall s).rail.ph } : Rails)) h

/-- Settles O2: an idle step of a live block is a nanosecond and the falls of `PWM`; of the commands only COLD_RESET may
change block time. -/
theorem idleStepAndBlockTime : Obligations.IdleStepAndBlockTime := by
  refine ⟨fun s hpending => ⟨fun hlive => ?live, fun hlive => ?held⟩, fun s t h hcold => ?time⟩
  case live =>
    have hidle := idle_of_live hlive
    refine ⟨idle s, step_of_empty hpending, ?_, fun p hp => ?_, ?_, (idle_keeps s).only⟩
    · rw [hidle]
      exact (pwmFall_keeps _).only.same .now (by decide)
    · rw [hidle]
      exact pwmFall_getPh _ hp
    · rw [hidle]
      exact pwmFall_rail _
  case held => rw [step_of_empty hpending, idle_of_held hlive]
  case time =>
    rcases hpending : s.pending with _ | ⟨c, rest⟩
    · cases (step_of_empty hpending).symm.trans h
      by_cases hlive : s.live = true
      · have hnow : (idle s).now = s.now + 1 := by
          rw [idle_of_live hlive]
          exact (pwmFall_keeps _).only.same .now (by decide)
        simp [hnow]
      · simp [idle_of_held (Bool.eq_false_of_not_eq_true hlive)]
    · obtain ⟨u, e, -, -, -, hheld⟩ := step_next_sound s
      cases e.symm.trans h
      have hnow := (hheld hcold).2 (by simp [hpending])
      simp [hnow]

end Sys2Proof.Machine
end

section
/-!
Small facts that many statements share: a command of a live block, alarm bits, and entries of a part that has not changed.
-/
namespace Sys2Proof.Machine

variable {s t : State}

theorem act_of_live (h : s.live = true) (f : State → State) : act f s = .next (f s) := by
  rw [act, if_pos h]

theorem act_of_held (h : s.live = false) (f : State → State) : act f s = .next s := by
  rw [act, if_neg (by simp [h])]

theorem act_eq {f : State → State} (h : s.live = true) (hf : f s = t) : act f s = .next t := by
  rw [act_of_live h, hf]

/-- R34: a write of an emulated register that is performed answers OKAY after what it does. -/
theorem hsEmu_eq {f : State → State} (h : Emulates s) (hf : f s = t) : hsEmu f s = .next (hsAnswer 0 0 t) := by
  rw [hsEmu_of_emulates h, hf]

theorem bitOf_eq_testBit (n i : Nat) : bitOf n i = n.testBit i := Nat.testBit_eq_decide_div_mod_eq.symm

/-- An alarm that has been set is set. -/
@[simp] theorem bitOf_setAlarm (b : Nat) (s : State) : bitOf (setAlarm b s).pwr.alarm b = true := by
  by_cases h : bitOf s.pwr.alarm b = true
  · simp [setAlarm, h]
  · simp only [setAlarm, State.onPwr_pwr, if_neg h]
    simp only [bitOf, decide_eq_true_eq] at h ⊢
    rw [Nat.add_div_right _ (by positivity)]
    omega

/-- A record that follows changes of neither Ledger nor block time joins its queue. -/
theorem emit_logs_after {ps : List Area} (h : Keeps ps s t) (hl : Area.ldg ∉ ps) (hn : Area.now ∉ ps) (ht : Area.tb ∉ ps)
    (hq : Area.queues ∉ ps) {src code p0 p1 p2 p3 : Nat} (hroom : QRoom src s) :
    Logs src code p0 p1 p2 p3 s (emit src code p0 p1 p2 p3 t) := by
  have hldg : t.ldg = s.ldg := h.only.same .ldg hl
  have htb : t.tb = s.tb := h.only.same .tb ht
  refine Logs.after h.only hn (congrArg TimeBase.hold htb) hq (emit_logs ?_)
  rwa [QRoom, hldg]

section Parts
variable {ps : List Area} (g : Keeps ps s t)
include g

theorem Keeps.now_eq (hp : ps.contains .now = false) : t.now = s.now := g.only.same .now (by simpa using hp)
theorem Keeps.fuse_eq (hp : ps.contains .fuse = false) : t.fuse = s.fuse := g.only.same .fuse (by simpa using hp)
theorem Keeps.tb_eq (hp : ps.contains .tb = false) : t.tb = s.tb := g.only.same .tb (by simpa using hp)
theorem Keeps.frm_eq (hp : ps.contains .frm = false) : t.frm = s.frm := g.only.same .frm (by simpa using hp)
theorem Keeps.clk_eq (hp : ps.contains .clk = false) : t.clk = s.clk := g.only.same .clk (by simpa using hp)
theorem Keeps.sns_eq (hp : ps.contains .sns = false) : t.sns = s.sns := g.only.same .sns (by simpa using hp)
theorem Keeps.rail_eq (hp : ps.contains .rail = false) : t.rail = s.rail := g.only.same .rail (by simpa using hp)
theorem Keeps.frec_eq (hp : ps.contains .frec = false) : t.frec = s.frec := g.only.same .frec (by simpa using hp)
theorem Keeps.loop_eq (hp : ps.contains .loop = false) : t.loop = s.loop := g.only.same .loop (by simpa using hp)
theorem Keeps.hm_eq (hp : ps.contains .hm = false) : t.hm = s.hm := g.only.same .hm (by simpa using hp)
theorem Keeps.hs_eq (hp : ps.contains .hs = false) : t.hs = s.hs := g.only.same .hs (by simpa using hp)
theorem Keeps.ep_eq (hp : ps.contains .ep = false) : t.ep = s.ep := g.only.same .ep (by simpa using hp)
theorem Keeps.cp_eq (hp : ps.contains .cp = false) : t.cp = s.cp := g.only.same .cp (by simpa using hp)
theorem Keeps.hif_eq (hp : ps.contains .hif = false) : t.hif = s.hif := g.only.same .hif (by simpa using hp)
theorem Keeps.dma_eq (hp : ps.contains .dma = false) : t.dma = s.dma := g.only.same .dma (by simpa using hp)
theorem Keeps.ldg_eq (hp : ps.contains .ldg = false) : t.ldg = s.ldg := g.only.same .ldg (by simpa using hp)
theorem Keeps.fw_eq (hp : ps.contains .fw = false) : t.fw = s.fw := g.only.same .fw (by simpa using hp)
theorem Keeps.tly_eq (hp : ps.contains .tly = false) : t.tly = s.tly := g.only.same .tly (by simpa using hp)
theorem Keeps.fc_eq (hp : ps.contains .fc = false) : t.fc = s.fc := g.only.same .fc (by simpa using hp)
theorem Keeps.trs_eq (hp : ps.contains .trs = false) : t.trs = s.trs := g.only.same .trs (by simpa using hp)
theorem Keeps.syn_eq (hp : ps.contains .syn = false) : t.syn = s.syn := g.only.same .syn (by simpa using hp)
theorem Keeps.clr_eq (hp : ps.contains .clr = false) : t.clr = s.clr := g.only.same .clr (by simpa using hp)
theorem Keeps.aud_eq (hp : ps.contains .aud = false) : t.aud = s.aud := g.only.same .aud (by simpa using hp)
theorem Keeps.ho_eq (hp : ps.contains .ho = false) : t.ho = s.ho := g.only.same .ho (by simpa using hp)
theorem Keeps.free_eq (hp : ps.contains .free = false) : t.free = s.free := g.only.same .free (by simpa using hp)
theorem Keeps.pending_eq (hp : ps.contains .pending = false) : t.pending = s.pending := g.only.same .pending (by simpa using hp)

end Parts

/-! An entry of a numbered store is the same where the part that holds the store is. -/

section Entries

theorem getCtx_of_hif (h : t.hif = s.hif) (k : Nat) : t.getCtx k = s.getCtx k := by rw [State.getCtx, h]; rfl
theorem getChan_of_dma (h : t.dma = s.dma) (k : Nat) : t.getChan k = s.getChan k := by rw [State.getChan, h]; rfl
theorem getRt_of_frm (h : t.frm = s.frm) (k : Nat) : t.getRt k = s.getRt k := by rw [State.getRt, h]; rfl
theorem getBack_of_frm (h : t.frm = s.frm) (k : Nat) : t.getBack k = s.getBack k := by rw [State.getBack, h]; rfl
theorem getDom_of_clk (h : t.clk = s.clk) (k : Nat) : t.getDom k = s.getDom k := by rw [State.getDom, h]; rfl
theorem getSite_of_sns (h : t.sns = s.sns) (k : Nat) : t.getSite k = s.getSite k := by rw [State.getSite, h]; rfl
theorem getDet_of_sns (h : t.sns = s.sns) (k : Nat) : t.getDet k = s.getDet k := by rw [State.getDet, h]; rfl
theorem getMon_of_sns (h : t.sns = s.sns) (k : Nat) : t.getMon k = s.getMon k := by rw [State.getMon, h]; rfl
theorem getReg_of_rail (h : t.rail = s.rail) (k : Nat) : t.getReg k = s.getReg k := by rw [State.getReg, h]; rfl
theorem getMeas_of_rail (h : t.rail = s.rail) (k : Nat) : t.getMeas k = s.getMeas k := by rw [State.getMeas, h]; rfl
theorem getProt_of_rail (h : t.rail = s.rail) (k : Nat) : t.getProt k = s.getProt k := by rw [State.getProt, h]; rfl
theorem getPh_of_rail (h : t.rail = s.rail) (k : Nat) : t.getPh k = s.getPh k := by rw [State.getPh, h]; rfl
theorem getClu_of_loop (h : t.loop = s.loop) (k : Nat) : t.getClu k = s.getClu k := by rw [State.getClu, h]; rfl
theorem getLoop_of_loop (h : t.loop = s.loop) (k : Nat) : t.getLoop k = s.getLoop k := by rw [State.getLoop, h]; rfl
theorem getProg_of_tly (h : t.tly = s.tly) (k : Nat) : t.getProg k = s.getProg k := by rw [State.getProg, h]; rfl
theorem getSet_of_tly (h : t.tly = s.tly) (k : Nat) : t.getSet k = s.getSet k := by rw [State.getSet, h]; rfl
theorem getFcCl_of_fc (h : t.fc = s.fc) (k : Nat) : t.getFcCl k = s.getFcCl k := by rw [State.getFcCl, h]; rfl
theorem getHc_of_fc (h : t.fc = s.fc) (k : Nat) : t.getHc k = s.getHc k := by rw [State.getHc, h]; rfl
theorem getHx_of_fc (h : t.fc = s.fc) (k : Nat) : t.getHx k = s.getHx k := by rw [State.getHx, h]; rfl
theorem getTrsCl_of_trs (h : t.trs = s.trs) (k : Nat) : t.getTrsCl k = s.getTrsCl k := by rw [State.getTrsCl, h]; rfl
theorem getTx_of_trs (h : t.trs = s.trs) (k : Nat) : t.getTx k = s.getTx k := by rw [State.getTx, h]; rfl
theorem getObj_of_syn (h : t.syn = s.syn) (k : Nat) : t.getObj k = s.getObj k := by rw [State.getObj, h]; rfl
theorem getGrp_of_syn (h : t.syn = s.syn) (k : Nat) : t.getGrp k = s.getGrp k := by rw [State.getGrp, h]; rfl
theorem getCore_of_syn (h : t.syn = s.syn) (k : Nat) : t.getCore k = s.getCore k := by rw [State.getCore, h]; rfl
theorem getLnk_of_clr (h : t.clr = s.clr) (k : Nat) : t.getLnk k = s.getLnk k := by rw [State.getLnk, h]; rfl
theorem getFwCore_of_fw (h : t.fw = s.fw) (k : Nat) : t.getFwCore k = s.getFwCore k := by rw [State.getFwCore, h]; rfl
theorem getUnit_of_aud (h : t.aud = s.aud) (k : Nat) : t.getUnit k = s.getUnit k := by rw [State.getUnit, h]; rfl
theorem getEp_of_ep (h : t.ep = s.ep) (k : Nat) : t.getEp k = s.getEp k := by rw [State.getEp, h]; rfl
theorem getCp_of_cp (h : t.cp = s.cp) (k : Nat) : t.getCp k = s.getCp k := by rw [State.getCp, h]; rfl
theorem getLp_of_loop (h : t.loop = s.loop) (c j : Nat) : t.getLp c j = s.getLp c j := getLoop_of_loop h _

end Entries

theorem railPhases_of_cfg (h : t.cfg = s.cfg) (r : Nat) : t.railPhases r = s.railPhases r := by
  unfold State.railPhases State.phCfg
  rw [h]

section Cfg
variable {ps : List Area} (g : Keeps ps s t) (hp : ps.contains .cfg = false)
include g hp

theorem Keeps.cfg_eq : t.cfg = s.cfg := g.only.same .cfg (by simpa using hp)
theorem Keeps.doms_eq : t.doms = s.doms := by simp [State.doms, State.domCfg, g.cfg_eq hp]
theorem Keeps.clusters_eq : t.clusters = s.clusters := by simp [State.clusters, State.cluCfg, g.cfg_eq hp]
theorem Keeps.railIds_eq : t.railIds = s.railIds := by simp [State.railIds, State.railCfg, g.cfg_eq hp]

end Cfg

/-- Under an invariant of the loop, what every turn preserves and the turn of one element establishes holds after the loop. -/
theorem forList_est_of {α : Type} {P Q : State → Prop} {l : List α} {f : α → State → State} {d : α} (hd : d ∈ l)
    (hq : ∀ a u, Q u → Q (f a u)) (hp : ∀ a u, Q u → P u → P (f a u)) (he : ∀ u, Q u → P (f d u)) {s : State} (hs : Q s) :
    P (forList l f s) := by
  have hkeep : ∀ l u, Q u → P u → P (forList l f u) := fun l u hQ hP =>
    (forList_ind (P := fun v => Q v ∧ P v) (l := l) (f := f) (fun a _ v hv => ⟨hq a v hv.1, hp a v hv.1 hv.2⟩) ⟨hQ, hP⟩).2
  induction l generalizing s with
  | nil => cases hd
  | cons a l ih =>
    cases hd with
    | head => exact hkeep l _ (hq _ _ hs) (he s hs)
    | tail _ hm => exact ih hm (hq _ _ hs)

/-- Under an invariant of the loop, in a loop without repetition the entry of index `k` is changed once, by the turn of `k`. -/
theorem forList_entry_of {α β : Type} [DecidableEq α] (get : State → β) {Q : State → Prop} {f : α → State → State} {g : β → β} {k : α}
    (hq : ∀ a u, Q u → Q (f a u)) (hself : ∀ u, Q u → get (f k u) = g (get u))
    (hother : ∀ j, j ≠ k → ∀ u, Q u → get (f j u) = get u) {l : List α} (hl : l.Nodup) {s : State} (hs : Q s) :
    get (forList l f s) = if k ∈ l then g (get s) else get s := by
  induction l generalizing s with
  | nil => rfl
  | cons a l ih =>
    obtain ⟨ha, hl⟩ := List.nodup_cons.mp hl
    rw [forList_cons, ih hl (hq a s hs)]
    by_cases hk : a = k
    · subst hk
      simp [ha, hself s hs]
    · simp [Ne.symm hk, hother a hk s hs]

end Sys2Proof.Machine
end

section
/-!
The reference clock (chapter 04): judgement windows, stability and loss.
-/
namespace Sys2Proof.Machine

/-- R95: the window test in numbers, for a `REFSEL` that names a frequency. -/
theorem windowInside_iff {refsel f : Nat} (durPs : Nat) (h : refHz refsel = some f) : windowInside refsel durPs = true ↔
    99 * f * durPs ≤ 100 * 256 * 10 ^ 12 ∧ 100 * 256 * 10 ^ 12 ≤ 101 * f * durPs := by
  simp [windowInside, h]

theorem satInc_of_lt {w n : Nat} (h : n + 1 < 2 ^ w) : satInc w n = n + 1 := by
  have : n + 1 ≤ 2 ^ w - 1 := by omega
  simpa [satInc, satU, umax] using this

@[simp] theorem cluStop_clk (c : Nat) (s : State) : (cluStop c s).clk = s.clk := (cluStop_keeps c s).only.same .clk (by decide)
@[simp] theorem cluStop_getDom (c d : Nat) (s : State) : (cluStop c s).getDom d = s.getDom d := by simp [State.getDom]
@[simp] theorem cluStop_doms (c : Nat) (s : State) : (cluStop c s).doms = s.doms :=
  (cluStop_keeps c s).doms_eq rfl
@[simp] theorem updClu_getDom (c d : Nat) (f : Clu → Clu) (s : State) : (s.updClu c f).getDom d = s.getDom d := rfl

/-- A domain held low: stopped, with nothing sent and no extension (R111, R113). -/
theorem domStopNow_getDom (d : Nat) (s : State) : (domStopNow d s).getDom d =
    { s.getDom d with stopped := true, stopSent := false, sent := none, ext := false,
                      cmdAt := if (s.getDom d).stopped then (s.getDom d).cmdAt else s.now,
                      cmdOpen := (s.getDom d).cmdOpen || !(s.getDom d).stopped } := by
  simp [domStopNow]

theorem domStopNow_getDom_ne {j d : Nat} (s : State) (h : j ≠ d) : (domStopNow d s).getDom j = s.getDom j := by
  exact State.getDom_updDom_ne s d _ h

/-- Holding domains low takes no domain out of its stop. -/
theorem domStopNow_stopped {d : Nat} (j : Nat) {s : State} (h : (s.getDom d).stopped = true) :
    ((domStopNow j s).getDom d).stopped = true := by
  by_cases e : d = j
  · subst e; simp [domStopNow_getDom]
  · rw [domStopNow_getDom_ne s e, h]

theorem domStopNow_guard (d j : Nat) (s : State) : ((domStopNow j s).getDom d).guard = (s.getDom d).guard := by
  by_cases e : d = j
  · subst e; simp [domStopNow_getDom]
  · rw [domStopNow_getDom_ne s e]

section StopAll
variable (f : Clu → Clu) (s : State)

theorem stopAllClocks_eq_of_clk {β : Type} (g : Clocks → β) (h : ∀ d (u : State), g (domStopNow d u).clk = g u.clk) :
    g (stopAllClocks f s).clk = g s.clk := by
  have hclu : (stopAllClocks f s).clk = (forList s.doms domStopNow s).clk :=
    forList_eq (·.clk) s.clusters (f := fun c t => cluStop c (t.updClu c f)) (fun a u => by simp) _
  rw [hclu]
  exact forList_eq (fun u => g u.clk) s.doms (fun a u => h a u) s

@[simp] theorem stopAllClocks_ref : (stopAllClocks f s).clk.ref = s.clk.ref := stopAllClocks_eq_of_clk f s (·.ref) fun _ _ => rfl
@[simp] theorem stopAllClocks_root : (stopAllClocks f s).clk.root = s.clk.root :=
  stopAllClocks_eq_of_clk f s (·.root) fun _ _ => rfl

/-- Every configured domain is stopped. -/
theorem stopAllClocks_stopped {d : Nat} (hd : d ∈ s.doms) : ((stopAllClocks f s).getDom d).stopped = true := by
  refine forList_ind (P := fun u => (u.getDom d).stopped = true) (fun c _ u hu => by simpa using hu) ?_
  exact forList_est (P := fun u => (u.getDom d).stopped = true) hd (fun j u hu => domStopNow_stopped j hu)
    (fun u => by simp [domStopNow_getDom]) s

theorem stopAllClocks_guard (d : Nat) : ((stopAllClocks f s).getDom d).guard = (s.getDom d).guard := by
  refine forList_ind (P := fun u => (u.getDom d).guard = (s.getDom d).guard) (fun c _ u hu => by simpa using hu) ?_
  exact forList_ind (P := fun u => (u.getDom d).guard = (s.getDom d).guard) (fun j _ u hu => (domStopNow_guard d j u).trans hu) rfl

end StopAll

/-- Every configured domain's guard is taken away. -/
def guardsOff (s : State) : State := forList s.doms (fun d => State.updDom d fun x => { x with guard := 0 }) s

theorem guardsOff_guard {d : Nat} {s : State} (hd : d ∈ s.doms) : ((guardsOff s).getDom d).guard = 0 := by
  refine forList_est (P := fun u => (u.getDom d).guard = 0) hd (fun j u hu => ?_) (fun u => by simp) s
  by_cases e : d = j
  · subst e; simp
  · rw [State.getDom_updDom_ne _ _ _ e, hu]

@[simp] theorem guardsOff_ref (s : State) : (guardsOff s).clk.ref = s.clk.ref :=
  forList_eq (·.clk.ref) s.doms (f := fun d => State.updDom d fun x => { x with guard := 0 }) (fun _ _ => rfl) s
@[simp] theorem guardsOff_root (s : State) : (guardsOff s).clk.root = s.clk.root :=
  forList_eq (·.clk.root) s.doms (f := fun d => State.updDom d fun x => { x with guard := 0 }) (fun _ _ => rfl) s

theorem guardsOff_keeps (s : State) : Keeps [.clk] s (guardsOff s) :=
  forList_keeps _ (fun _ _ h => (State.updDom_keeps ..).step (by decide) h) (.refl ..)

@[simp] theorem guardsOff_doms (s : State) : (guardsOff s).doms = s.doms := (guardsOff_keeps s).doms_eq rfl

end Sys2Proof.Machine
end

section
/-!
The loss of the reference and its stability (chapter 04).
-/
namespace Sys2Proof.Machine

section Loss
variable (cause : Nat) (ppm : Int) (s : State)

/-- What the loss of the reference leaves in the clocks and in block time before anything else follows from it (R97, R114). -/
def lossMark (cause : Nat) (s : State) : State :=
  (s.onClk fun k => { k with
    ref := { k.ref with present := false, stable := false, goodWin := 0, lossCause := cause,
                        lossCnt := wrapInc 32 k.ref.lossCnt, lossTime := s.now, needDrift := decide (cause = 4) },
    root := { k.root with held := true, locked := false, guard := false, change := none } }).onTb fun t =>
      { t with hold := true, holdStart := s.now, holdEnd := none, holdCnt := wrapInc 32 t.holdCnt }

/-- The records of a loss (Table 4.2). -/
def lossRecs (cause : Nat) (ppm : Int) (freq : Nat) (s : State) : State :=
  emitClk 0x1002 cause freq (encS 32 (if cause = 4 then ppm else 0)) 0 (emitClk 0x1810 0 0 0 0 s)

@[simp] theorem lossRecs_clk (freq : Nat) : (lossRecs cause ppm freq s).clk = s.clk := by simp [lossRecs, emitClk]
@[simp] theorem lossRecs_tb (freq : Nat) : (lossRecs cause ppm freq s).tb = s.tb := by simp [lossRecs, emitClk]
@[simp] theorem lossRecs_doms (freq : Nat) : (lossRecs cause ppm freq s).doms = s.doms := by
  simp [State.doms, State.domCfg, lossRecs, emitClk]

@[simp] theorem clrHoldEnter_clk : (clrHoldEnter s).clk = s.clk := (clrHoldEnter_keeps s).only.same .clk (by decide)
@[simp] theorem clrHoldEnter_tb : (clrHoldEnter s).tb = s.tb := (clrHoldEnter_keeps s).only.same .tb (by decide)
@[simp] theorem clrHoldEnter_doms : (clrHoldEnter s).doms = s.doms := (clrHoldEnter_keeps s).doms_eq rfl
@[simp] theorem clrHoldEnter_getDom (d : Nat) : (clrHoldEnter s).getDom d = s.getDom d := by simp [State.getDom]
@[simp] theorem stopAllClocks_tb (f : Clu → Clu) : (stopAllClocks f s).tb = s.tb :=
  (stopAllClocks_keeps f s).only.same .tb (by decide)
@[simp] theorem guardsOff_tb : (guardsOff s).tb = s.tb := (guardsOff_keeps s).only.same .tb (by decide)

@[simp] theorem setAlarm_getDom (b d : Nat) : (setAlarm b s).getDom d = s.getDom d := rfl

theorem refLossCore_eq : refLossCore cause ppm s =
    setAlarm alRefLoss (stopAllClocks (fun x => { x with stopRef := true })
      (clrHoldEnter (guardsOff (lossRecs cause ppm s.clk.ref.freqKHz (lossMark cause s))))) := rfl

theorem refLossCore_ref : (refLossCore cause ppm s).clk.ref = (lossMark cause s).clk.ref := by
  simp [refLossCore_eq, setAlarm]

theorem refLossCore_root : (refLossCore cause ppm s).clk.root = (lossMark cause s).clk.root := by
  simp [refLossCore_eq, setAlarm]

theorem refLossCore_tb : (refLossCore cause ppm s).tb = (lossMark cause s).tb := by
  simp [refLossCore_eq, setAlarm]

/-- Every configured domain is stopped, without a guard. -/
theorem refLossCore_dom {d : Nat} (hd : d ∈ s.doms) :
    ((refLossCore cause ppm s).getDom d).stopped = true ∧ ((refLossCore cause ppm s).getDom d).guard = 0 := by
  have hmark : d ∈ (lossRecs cause ppm s.clk.ref.freqKHz (lossMark cause s)).doms := by rw [lossRecs_doms]; exact hd
  have hstop : d ∈ (clrHoldEnter (guardsOff (lossRecs cause ppm s.clk.ref.freqKHz (lossMark cause s)))).doms := by
    rwa [clrHoldEnter_doms, guardsOff_doms]
  rw [refLossCore_eq, setAlarm_getDom, stopAllClocks_guard, clrHoldEnter_getDom]
  exact ⟨stopAllClocks_stopped _ _ hstop, guardsOff_guard hmark⟩

theorem refLossCore_alarm : bitOf (refLossCore cause ppm s).pwr.alarm 0 = true := by
  rw [refLossCore_eq]
  exact bitOf_setAlarm 0 _

end Loss

theorem windowInside_of_not {refsel f durPs : Nat} (h : refHz refsel = some f)
    (hout : ¬ (99 * f * durPs ≤ 100 * 256 * 10 ^ 12 ∧ 100 * 256 * 10 ^ 12 ≤ 101 * f * durPs)) :
    windowInside refsel durPs = false := by
  rwa [← windowInside_iff durPs h, Bool.not_eq_true] at hout

/-- A window outside breaks the reference as an edge that is missing does, with its own cause (R97). -/
theorem refWindow_of_outside {durPs : Nat} {s : State} (h : windowInside s.pwr.refsel durPs = false) :
    refWindow durPs s = refBreak (refLossCore 3 0) (s.onClk fun k => { k with ref := { k.ref with freqKHz := windowKHz durPs } }) := by
  simp [refWindow, h]

/-- The reference becomes stable with its 1,024th window inside (R96). -/
theorem refWindow_of_last {durPs : Nat} {s : State} (h : windowInside s.pwr.refsel durPs = true)
    (hstable : s.clk.ref.stable = false) (hdrift : s.clk.ref.needDrift = false) (hcount : 1023 ≤ s.clk.ref.goodWin) :
    refWindow durPs s = refStable (s.onClk fun k =>
      { k with ref := { k.ref with freqKHz := windowKHz durPs, goodWin := satInc 16 k.ref.goodWin } }) := by
  have hmany : 1024 ≤ satInc 16 s.clk.ref.goodWin := by
    simp only [satInc, satU, umax]; omega
  simp [refWindow, h, hstable, hdrift, hmany, State.onClk]

theorem refWindow_of_few {durPs : Nat} {s : State} (h : windowInside s.pwr.refsel durPs = true)
    (hcount : s.clk.ref.goodWin < 1023) :
    refWindow durPs s = s.onClk fun k =>
      { k with ref := { k.ref with freqKHz := windowKHz durPs, goodWin := s.clk.ref.goodWin + 1 } } := by
  have hsucc : satInc 16 s.clk.ref.goodWin = s.clk.ref.goodWin + 1 := satInc_of_lt (by omega)
  simp [refWindow, h, hsucc, State.onClk, Nat.not_le_of_lt hcount]

theorem refBreak_of_unstable {loss : State → State} {s : State} (h : s.clk.ref.stable = false) :
    refBreak loss s = s.onClk fun k => { k with ref := { k.ref with goodWin := 0 } } := by
  rw [refBreak, if_neg (by simp [h])]

theorem refBreak_of_stable {loss : State → State} {s : State} (h : s.clk.ref.stable = true) : refBreak loss s = loss s :=
  if_pos h

/-- R102: with a root that has never locked, a stable reference begins the lock to the boot root. -/
theorem refStable_clk {s : State} (h : s.clk.root.everLocked = false) : (refStable s).clk =
    { s.clk with
      ref := { s.clk.ref with present := true, stable := true, needDrift := false }
      root := { s.clk.root with
        change := some { oldN := s.bootN, newN := s.bootN, cause := 3, phase := 3, relockStart := s.now, kind := 1 },
        nTgt := s.bootN } } := by
  simp only [refStable, h, Bool.false_eq_true, if_false]
  split <;> simp [rootLock, holdExitRec, holdExit, emitClk, State.bootN, h]

theorem refStable_tb (s : State) : (refStable s).tb = { s.tb with hold := false, refSeen := true, holdEnd := some s.now } := by
  simp only [refStable]
  split <;> split <;> simp [rootLock, holdExitRec, holdExit, emitClk]

/-- Settles O7: the cases of `refWindow` by the window test and the count, and the two breaks of a reference not yet stable. -/
theorem referenceJudgedStable : Obligations.ReferenceJudgedStable := by
  refine ⟨fun s durPs f hlive hstable hf => ⟨fun hin hfew => ?few, fun hout => ?outside⟩,
    fun s durPs hlive hstable hdrift hin hmany hnever => ?last, fun s hlive hstable => ⟨?loss, ?short⟩⟩
  case few => exact act_eq hlive ((refWindow_of_few ((windowInside_iff _ hf).2 hin) hfew))
  case outside =>
    refine act_eq hlive (?_)
    rw [refWindow_of_outside (windowInside_of_not hf hout), refBreak_of_unstable (by exact hstable)]
    rfl
  case last =>
    have hrun := refWindow_of_last hin hstable hdrift hmany
    have hclk : (refWindow durPs s).clk = _ := (congrArg State.clk hrun).trans (refStable_clk hnever)
    have htb : (refWindow durPs s).tb = _ := (congrArg State.tb hrun).trans (refStable_tb _)
    refine ⟨refWindow durPs s, act_of_live hlive _, by rw [hclk], by rw [hclk], by rw [htb], by rw [htb]; rfl, by rw [hclk]; rfl,
      ⟨_, by rw [hclk], rfl, rfl, rfl, rfl⟩, fun d => by rw [State.getDom, hclk]; rfl, ?_⟩
    rw [hrun]
    exact ((State.onClk_keeps ..).only.mono (by decide)).trans (refStable_keeps _).only
  case loss => exact act_eq hlive ((refBreak_of_unstable hstable))
  case short => exact act_eq hlive ((refBreak_of_unstable hstable))

/-- What the loss of a stable reference is to leave (R97, R114). -/
theorem refLossCore_lost (cause : Nat) (s u : State) (h : u = s ∨ ∃ khz, u = s.onClk fun k => { k with ref := { k.ref with freqKHz := khz } }) :
    let t := refLossCore cause 0 u
    t.clk.ref.stable = false ∧ t.clk.ref.present = false ∧ t.clk.ref.goodWin = 0 ∧ t.clk.ref.lossCause = cause ∧
      t.clk.ref.lossTime = s.now ∧ t.clk.ref.lossCnt = (s.clk.ref.lossCnt + 1) % 2 ^ 32 ∧
      t.clk.root.held = true ∧ t.clk.root.locked = false ∧ t.clk.root.change = none ∧
      t.tb.hold = true ∧ t.tb.holdStart = s.now ∧ t.tb.holdEnd = none ∧
      (∀ d ∈ s.doms, (t.getDom d).stopped = true ∧ (t.getDom d).guard = 0) ∧ bitOf t.pwr.alarm 0 = true ∧
      Only [.pwr, .tb, .clk, .loop, .hm, .hif, .ldg, .fw, .trs, .syn, .clr] s t := by
  have hkeep : Keeps [.pwr, .tb, .clk, .loop, .hm, .hif, .ldg, .fw, .trs, .syn, .clr] s u := by
    rcases h with rfl | ⟨khz, rfl⟩
    · exact .refl ..
    · exact (State.onClk_keeps ..).mono (by decide)
  have hdoms : u.doms = s.doms ∧ u.now = s.now ∧ u.clk.ref.lossCnt = s.clk.ref.lossCnt := by
    rcases h with rfl | ⟨khz, rfl⟩ <;> exact ⟨rfl, rfl, rfl⟩
  obtain ⟨hdoms, hnow, hcnt⟩ := hdoms
  intro t
  have href : t.clk.ref = (lossMark cause u).clk.ref := refLossCore_ref cause 0 u
  have hroot : t.clk.root = (lossMark cause u).clk.root := refLossCore_root cause 0 u
  have htb : t.tb = (lossMark cause u).tb := refLossCore_tb cause 0 u
  refine ⟨by rw [href]; rfl, by rw [href]; rfl, by rw [href]; rfl, by rw [href]; rfl, ?_, ?_, by rw [hroot]; rfl,
    by rw [hroot]; rfl, by rw [hroot]; rfl, by rw [htb]; rfl, ?_, by rw [htb]; rfl, ?_, refLossCore_alarm cause 0 u, ?_⟩
  · rw [href, ← hnow]; rfl
  · rw [href, ← hcnt]; rfl
  · rw [htb, ← hnow]; rfl
  · exact fun d hd => refLossCore_dom cause 0 u (hdoms ▸ hd)
  · exact hkeep.only.trans (refLossCore_keeps cause 0 u).only

/-- Settles O8: each of the three commands runs `refLossCore` with its cause while the reference is stable. -/
theorem referenceLost : Obligations.ReferenceLost := by
  intro s durPs hlive hstable c cause hc
  rcases hc with ⟨rfl, rfl⟩ | ⟨rfl, rfl⟩ | ⟨rfl, rfl, hout⟩
  · exact ⟨_, act_eq hlive ((refBreak_of_stable hstable)), refLossCore_lost 1 s s (.inl rfl)⟩
  · exact ⟨_, act_eq hlive ((refBreak_of_stable hstable)), refLossCore_lost 2 s s (.inl rfl)⟩
  · refine ⟨_, act_eq hlive (?_), refLossCore_lost 3 s _ (.inr ⟨windowKHz durPs, rfl⟩)⟩
    rw [refWindow_of_outside hout, refBreak_of_stable (by exact hstable)]

end Sys2Proof.Machine
end

section
/-!
The root clock and its PLL (chapter 04): requests, changes, relocks and failure.
-/
namespace Sys2Proof.Machine

theorem rootReq_of_out_of_range {n : Nat} {s : State} (h : ¬ (160 ≤ n ∧ n ≤ 320 ∧ n ≤ s.fuse.nMax)) :
    rootReq n s = s.onClk fun k => { k with root := { k.root with reqN := n, res := 0x1020 } } :=
  if_pos (by omega)

theorem rootReq_of_range {n : Nat} {s : State} (h : 160 ≤ n ∧ n ≤ 320 ∧ n ≤ s.fuse.nMax) : rootReq n s =
    if s.anyAuto then s.onClk fun k => { k with root := { k.root with reqN := n, res := 0x1021 } }
    else if s.clk.root.pllFail || !s.clk.ref.present then
      s.onClk fun k => { k with root := { k.root with reqN := n, res := 0x1022 } }
    else rootRequest n 2 (s.onClk fun k => { k with root := { k.root with reqN := n } }) :=
  if_neg (by omega)

/-- What step 1 of a root change does to a domain whose guard is `g` at block time `now` (R106). -/
def guardDom (g now : Nat) (x : Dom) : Dom :=
  if x.stopped || decide (g ≤ x.code) then { x with guard := g }
  else { x with guard := g, sent := some g, acked := false, cmdAt := now, cmdOpen := true }

theorem guardDom_of_low {g : Nat} {x : Dom} (now : Nat) (hrun : x.stopped = false) (hlow : x.code < g) :
    guardDom g now x = { x with guard := g, sent := some g, acked := false, cmdAt := now, cmdOpen := true } :=
  if_neg (by simpa [hrun] using hlow)

theorem guardDom_guard (g now : Nat) (x : Dom) : (guardDom g now x).guard = g := by
  unfold guardDom
  split <;> rfl

theorem doms_nodup (s : State) : s.doms.Nodup := idxWhere_nodup 40 _

theorem sendGuards_getDom (old new : Nat) (s : State) (d : Nat) : (sendGuards old new s).getDom d =
    if d ∈ s.doms then guardDom (guardCode s d old new) s.now (s.getDom d) else s.getDom d :=
  forList_entry (State.getDom · d) (f := fun d => State.updDom d (guardDom (guardCode s d old new) s.now))
    (g := guardDom (guardCode s d old new) s.now) (k := d)
    (fun _ => State.getDom_updDom ..) (fun _ hj _ => State.getDom_updDom_ne _ _ _ (Ne.symm hj)) (doms_nodup s) s

theorem sendGuards_eq_of_clk {β : Type} (g : Clocks → β) (old new : Nat) (s : State)
    (h : ∀ d f (u : State), g (u.updDom d f).clk = g u.clk) : g (sendGuards old new s).clk = g s.clk :=
  forList_eq (fun u => g u.clk) s.doms (fun _ _ => h ..) s

theorem sendGuards_root (old new : Nat) (s : State) : (sendGuards old new s).clk.root = s.clk.root :=
  sendGuards_eq_of_clk (·.root) old new s fun _ _ _ => rfl

theorem sendGuards_ref (old new : Nat) (s : State) : (sendGuards old new s).clk.ref = s.clk.ref :=
  sendGuards_eq_of_clk (·.ref) old new s fun _ _ _ => rfl

theorem sendGuards_doms (old new : Nat) (s : State) : (sendGuards old new s).doms = s.doms :=
  (sendGuards_keeps old new s).doms_eq rfl

section Steps
variable {c : RootChange} {s : State} (hc : s.clk.root.change = some c)
include hc

theorem rootStep1_of_phase_ne (h : c.phase ≠ 1) : rootStep1 s = s := by simp [rootStep1, hc, h]
theorem rootStep2_of_phase_ne (h : c.phase ≠ 2) : rootStep2 s = s := by simp [rootStep2, hc, h]
theorem rootStep5_of_phase_ne (h : c.phase ≠ 4) : rootStep5 s = s := by simp [rootStep5, hc, h]

end Steps

/-- A change in step 1 stays there while a leaf has not acknowledged what it was sent (R106). -/
theorem rootAdvance_of_unacked {c : RootChange} {d : Nat} {s : State} (hc : s.clk.root.change = some c) (hphase : c.phase = 1)
    (hd : d ∈ s.doms) (hsent : (s.getDom d).sent ≠ none) : rootAdvance s = s := by
  have h1 : rootStep1 s = s := by
    simp only [rootStep1, hc]
    exact if_neg fun h => hsent (by simpa using List.all_eq_true.mp h.2 d hd)
  rw [rootAdvance, h1, rootStep2_of_phase_ne hc (by simp [hphase]), rootStep5_of_phase_ne hc (by simp [hphase])]

theorem rootAdvance_of_none {s : State} (hc : s.clk.root.change = none) : rootAdvance s = s := by
  have h1 : rootStep1 s = s := by simp [rootStep1, hc]
  have h2 : rootStep2 s = s := by simp [rootStep2, hc]
  have h5 : rootStep5 s = s := by simp [rootStep5, hc]
  rw [rootAdvance, h1, h2, h5]

/-- A change that waits for the phases to return to the root waits on while one is on the oscillator (R106 step 5). -/
theorem rootAdvance_of_osc {c : RootChange} {p : Nat} {s : State} (hc : s.clk.root.change = some c) (hphase : c.phase = 4)
    (hp : p ∈ s.modulating) (hosc : (s.getPh p).osc = true) : rootAdvance s = s := by
  have h5 : rootStep5 s = s := by
    simp only [rootStep5, hc]
    exact if_neg fun h => by simpa [hosc] using List.all_eq_true.mp h.2 p hp
  rw [rootAdvance, rootStep1_of_phase_ne hc (by simp [hphase]), rootStep2_of_phase_ne hc (by simp [hphase]), h5]

/-- With every guard acknowledged and every phase on the oscillator the PLL relocks (R106 steps 2 and 3). -/
theorem rootAdvance_of_moved {c : RootChange} {s : State} (hc : s.clk.root.change = some c) (hphase : c.phase = 1)
    (hack : ∀ d ∈ s.doms, (s.getDom d).sent = none) (hosc : ∀ p ∈ s.modulating, (s.getPh p).osc = true) :
    rootAdvance s = s.onClk fun k => { k with root := { k.root with
      change := some { c with phase := 3, relockStart := s.now }, locked := false, guard := true } } := by
  have h1 : rootStep1 s = s.onClk fun k => { k with root := { k.root with change := some { c with phase := 2 } } } := by
    simp only [rootStep1, hc]
    exact if_pos ⟨hphase, List.all_eq_true.mpr fun d hd => by simpa using hack d hd⟩
  have h2 : rootStep2 (rootStep1 s) = s.onClk fun k => { k with root := { k.root with
      change := some { c with phase := 3, relockStart := s.now }, locked := false, guard := true } } := by
    rw [h1]
    exact if_pos ⟨rfl, List.all_eq_true.mpr hosc⟩
  rw [rootAdvance, h2]
  exact rootStep5_of_phase_ne (by rfl) (by simp)

/-- A waiting change that may start sends its guards, and stays in step 1 if one is to be acknowledged (R104, R105). -/
theorem rootStart_of_may {n cause d0 : Nat} {s : State} (hwait : s.clk.root.waiting = some (n, cause)) (hmay : rootMay s = true)
    (hd : d0 ∈ s.doms) (hrun : (s.getDom d0).stopped = false)
    (hlow : (s.getDom d0).code < guardCode s d0 s.clk.root.nCur n) :
    rootStart s = sendGuards s.clk.root.nCur n (s.onClk fun k => { k with root := { k.root with
      waiting := none, change := some { oldN := s.clk.root.nCur, newN := n, cause := cause, phase := 1 } } }) := by
  simp only [rootStart, hwait, hmay, Bool.not_true, Bool.false_eq_true, if_false]
  refine rootAdvance_of_unacked (d := d0) (congrArg Root.change (sendGuards_root ..)) rfl ?_ ?_
  · rw [sendGuards_doms]; exact hd
  · rw [sendGuards_getDom, if_pos (by exact hd), guardDom_of_low _ (by exact hrun) (by exact hlow)]
    exact Option.some_ne_none _

/-- Settles O9: the branches of `rootReq`, `sendGuards` domain by domain, and steps 1 and 2 of R106. -/
theorem rootRequestedAndChanged : Obligations.RootRequestedAndChanged := by
  refine ⟨fun s n hemu => ⟨fun hout => ?range, fun hin hauto => ?owned, fun hin hman hbusy => ?busy,
      fun hin hman hpll href => ?waits⟩,
    fun s n cause d0 hlive hwait hmay hd hrun hlow => ?start, fun s c hlive hc hphase hack hosc => ?moved⟩
  case range => exact hsEmu_eq hemu ((rootReq_of_out_of_range hout))
  case owned =>
    refine hsEmu_eq hemu ?_
    rw [rootReq_of_range hin, if_pos hauto]
  case busy =>
    refine hsEmu_eq hemu ?_
    rw [rootReq_of_range hin, if_neg (by simp [hman]), if_pos (by simpa using hbusy)]
  case waits =>
    refine hsEmu_eq hemu ?_
    rw [rootReq_of_range hin, if_neg (by simp [hman]), if_neg (by simp [hpll, href])]
    rfl
  case start =>
    have hrun := rootStart_of_may hwait hmay hd hrun hlow
    refine ⟨rootStart s, act_of_live hlive _, ?_, ?_, fun d hd => ?_, ?_, (rootStart_keeps s).only⟩
    · rw [hrun, sendGuards_root]; rfl
    · rw [hrun, sendGuards_root]; exact ⟨_, rfl, rfl, rfl, rfl, rfl⟩
    · rw [hrun, sendGuards_getDom, if_pos (by exact hd)]
      exact ⟨guardDom_guard .., fun hgo hless => congrArg Dom.sent (guardDom_of_low _ hgo hless)⟩
    · rw [hrun, sendGuards_ref]; rfl
  case moved => exact act_eq hlive ((rootAdvance_of_moved hc hphase hack hosc))

end Sys2Proof.Machine
end

section
/-!
The PLL and the leaves (chapter 04): lock, retry and failure; acknowledgement, failure, retry and restoration; extensions.
-/
namespace Sys2Proof.Machine

/-- A lock that is no cold start's and waits for the phases to return: the root is locked, and the change is in step 5. -/
theorem pllLockStep_of_change {c : RootChange} {p : Nat} {s : State} (hc : s.clk.root.change = some c) (hphase : c.phase = 3)
    (hkind : c.kind = 0) (htime : s.now ≤ c.relockStart + 20000) (hp : p ∈ s.modulating) (hosc : (s.getPh p).osc = true) :
    pllLockStep s = s.onClk fun k => { k with root := { k.root with
      locked := true, held := false, nCur := if c.retry then c.oldN else c.newN,
      change := some { c with phase := 4, lockTime := s.now - c.relockStart } } } := by
  have hlock : pllLock s = s.onClk fun k => { k with root := { k.root with
      locked := true, held := false, nCur := if c.retry then c.oldN else c.newN,
      change := some { c with phase := 4, lockTime := s.now - c.relockStart } } } := by
    simp only [pllLock, hc]
    rw [if_pos ⟨hphase, htime⟩, if_neg (by simp [hkind])]
    exact rootAdvance_of_osc (p := p) rfl rfl hp hosc
  rw [pllLockStep, hlock]
  exact if_neg (by simp)

theorem relockLate_of_late {c : RootChange} {s : State} (hc : s.clk.root.change = some c) (hphase : c.phase = 3)
    (htime : c.relockStart + 20000 ≤ s.now) : relockLate s = true := by
  have : c.relockStart + 20 * nsPerUs ≤ s.now := htime
  simp [relockLate, hc, hphase, this]

theorem relockRetry_of_late {c : RootChange} {s : State} (hc : s.clk.root.change = some c) (hphase : c.phase = 3)
    (hkind : c.kind ≠ 3) (hretry : c.retry = false) (htime : c.relockStart + 20000 ≤ s.now) : relockRetry s =
    emitClk 0x1011 c.newN 0 0 0 (s.onClk fun k =>
      { k with root := { k.root with change := some { c with retry := true, relockStart := s.now } } }) := by
  simp [relockRetry, hc, relockLate_of_late hc hphase htime, hretry, hkind]

theorem pllFailStep_of_late {c : RootChange} {s : State} (hc : s.clk.root.change = some c) (hphase : c.phase = 3)
    (hretry : c.retry = true) (htime : c.relockStart + 20000 ≤ s.now) : pllFailStep s = pllFail s := by
  simp [pllFailStep, hc, relockLate_of_late hc hphase htime, hretry]

/-- What the failure of the PLL leaves in the root clock (R107). -/
def failMark (kind : Nat) (s : State) : State :=
  s.onClk fun k => { k with root := { k.root with
    change := none, locked := false, guard := false, held := true, pllFail := true, failTime := s.now, failKind := kind } }

theorem pllFail_eq (s : State) : ∃ kind, pllFail s =
    emitClk 0x1012 0 0 0 0 (setAlarm alPllFail
      (stopAllClocks (fun x => { x with stopPll := true }) (guardsOff (failMark kind s)))) := ⟨_, rfl⟩

theorem pllFail_effect (s : State) : ∃ kind, (pllFail s).clk.root = (failMark kind s).clk.root ∧
    bitOf (pllFail s).pwr.alarm 1 = true ∧ ∀ d ∈ s.doms, ((pllFail s).getDom d).stopped = true := by
  obtain ⟨kind, h⟩ := pllFail_eq s
  refine ⟨kind, ?_, ?_, fun d hd => ?_⟩
  · simp [h, emitClk, setAlarm]
  · rw [h, emitClk, emit_pwr]
    exact bitOf_setAlarm 1 _
  · rw [h, emitClk, emit_getDom, setAlarm_getDom]
    exact stopAllClocks_stopped _ _ (by rw [guardsOff_doms]; exact hd)

theorem pllRetry_of_due {s : State} (hfail : s.clk.root.pllFail = true) (href : s.clk.ref.present = true)
    (hcur : s.clk.root.nCur ≠ 0) (htime : s.clk.root.failTime + 100000000 ≤ s.now) : pllRetry s =
    s.onClk fun k => { k with root := { k.root with
      change := some { oldN := s.clk.root.nCur, newN := s.clk.root.nCur, cause := 3, phase := 3, relockStart := s.now,
                       kind := 3 },
      failTime := s.now } } := by
  have hlate : s.clk.root.failTime + 100 * nsPerMs ≤ s.now := htime
  simp [pllRetry, hfail, href, hlate, hcur, rootLock, State.onClk]

/-- Settles O10: each command at its condition, by the equation of its step. -/
theorem pllLockRetryAndFail : Obligations.PllLockRetryAndFail := by
  intro s c hlive
  refine ⟨fun hc hphase hkind htime ⟨p, hp, hosc⟩ => ?lock, fun hc hphase hkind hretry htime => ?retry,
    fun hc hphase hretry htime => ?fail, fun hfail href hcur htime => ?again⟩
  case lock => exact act_eq hlive (pllLockStep_of_change hc hphase hkind htime hp hosc)
  case retry =>
    have hrun := relockRetry_of_late hc hphase hkind hretry htime
    refine ⟨relockRetry s, act_of_live hlive _, ?_, ?_, fun d => ?_, fun hroom => ?_, (relockRetry_keeps s).only⟩
    · simp [hrun, emitClk]
    · simp [hrun, emitClk]
    · rw [hrun, emitClk, emit_getDom]; rfl
    · rw [hrun]
      exact emit_logs_after (State.onClk_keeps ..) (by decide) (by decide) (by decide) (by decide) hroom
  case fail =>
    obtain ⟨kind, hroot, halarm, hdom⟩ := pllFail_effect s
    refine ⟨pllFail s, act_eq hlive (pllFailStep_of_late hc hphase hretry htime), ?_, ?_, ?_, ?_, ?_, halarm, hdom,
      (pllFail_keeps s).only⟩
    all_goals rw [hroot]; rfl
  case again => exact act_eq hlive (pllRetry_of_due hfail href hcur htime)

end Sys2Proof.Machine
end

section
/-!
The leaves (chapter 04): acknowledgement, failure, retry and restoration; extensions on droop.
-/
namespace Sys2Proof.Machine

theorem updDom_congr {d : Nat} {f g : Dom → Dom} {s : State} (h : f (s.getDom d) = g (s.getDom d)) :
    s.updDom d f = s.updDom d g := by
  unfold State.getDom at h
  simp only [State.updDom, State.onClk, Tbl.upd, h]

/-- The leaf of domain `d` has failed and is held low. -/
def DomDown (d : Nat) (s : State) : Prop := (s.getDom d).failed = true ∧ (s.getDom d).stopped = true

section Down
variable {ps : List Area} {s t : State} {d : Nat}

theorem DomDown.of_clk (h : t.clk = s.clk) (hd : DomDown d s) : DomDown d t := by
  rwa [DomDown, State.getDom, h]

theorem DomDown.step (g : Keeps ps s t) (hp : ps.contains .clk = false) (hd : DomDown d s) : DomDown d t :=
  hd.of_clk (g.only.same .clk (by simpa using hp))

theorem DomDown.updDom (j : Nat) {f : Dom → Dom} (hf : ∀ x, x.failed = true ∧ x.stopped = true →
    (f x).failed = true ∧ (f x).stopped = true) (hd : DomDown d s) : DomDown d (s.updDom j f) := by
  by_cases e : d = j
  · subst e
    rw [DomDown, State.getDom_updDom]
    exact hf _ hd
  · rwa [DomDown, State.getDom_updDom_ne _ _ _ e]

/-- A failed leaf does not start (R111, R112). -/
theorem DomDown.domStart (j : Nat) (hd : DomDown d s) : DomDown d (domStart j s) := by
  unfold Machine.domStart
  split
  · next hgo =>
    have hj : d ≠ j := by
      rintro rfl
      simp [domWanted, hd.1] at hgo
    rwa [DomDown, domGo, State.getDom_updDom_ne _ _ _ hj]
  · exact hd

theorem DomDown.restartAll (hd : DomDown d s) : DomDown d (restartAll s) :=
  forList_ind (fun j _ _ hu => hu.domStart j) <|
    forList_ind (P := DomDown d) (fun c _ u hu => hu.step (cluRestart_keeps c u) rfl) hd

theorem DomDown.putDiv (j g : Nat) (hd : DomDown d s) : DomDown d (putDiv j g s) :=
  hd.updDom j fun x hx => by
    split
    · exact hx
    · split <;> exact hx

theorem DomDown.endGuards (hd : DomDown d s) : DomDown d (endGuards s) := by
  refine forList_ind (fun j _ u hu => ?_) hd
  have h1 : DomDown d (u.updDom j fun x => { x with guard := 0 }) := hu.updDom j fun _ h => h
  dsimp only
  split
  · exact h1
  · exact h1.putDiv j _

theorem DomDown.rootRelease (hd : DomDown d s) : DomDown d (rootRelease s) :=
  DomDown.restartAll <| forList_ind (P := DomDown d) (fun _ _ _ hu => hu.step (State.updClu_keeps ..) rfl) hd

theorem DomDown.rootFinish (c : RootChange) (hd : DomDown d s) : DomDown d (rootFinish c s) := by
  unfold Machine.rootFinish
  extract_lets n r newest s1
  have h1 : DomDown d s1 := hd
  clear_value s1
  split
  · split
    · exact h1.rootRelease
    · exact h1.endGuards.step (emitClk_keeps ..) rfl
  · exact h1
  · have h2 : DomDown d (if n = c.oldN then s1 else emitClk 0x1010 c.oldN n c.lockTime 3 s1) := by
      split
      · exact h1
      · exact h1.step (emitClk_keeps ..) rfl
    exact h2.rootRelease.step (emitClk_keeps ..) rfl

theorem DomDown.rootAdvance (hd : DomDown d s) : DomDown d (rootAdvance s) := by
  have h1 : DomDown d (rootStep1 s) := by
    unfold rootStep1
    split
    · split <;> exact hd
    · exact hd
  have h2 : DomDown d (rootStep2 (rootStep1 s)) := by
    unfold rootStep2
    split
    · split <;> exact h1
    · exact h1
  unfold Machine.rootAdvance rootStep5
  split
  · split
    · exact h2.rootFinish _
    · exact h2
  · exact h2

theorem DomDown.stopClustersOf (r : Nat) (hd : DomDown d s) : DomDown d (stopClustersOf r s) :=
  forList_ind (P := DomDown d) (fun c _ u hu =>
    have h : DomDown d (cluStop c (u.updClu c fun x => { x with stopRail := true })) :=
      hu.step ((State.updClu_keeps ..).step (ps := [.loop, .hm, .hif, .ldg, .fw, .trs, .syn]) (by decide) (.refl ..)
        |>.trans (cluStop_keeps ..)) rfl
    h.updDom _ fun x hx => by rw [if_pos hx.2]; exact hx) hd

theorem DomDown.railFault (cause r : Nat) (hd : DomDown d s) : DomDown d (railFault cause r s) := by
  unfold Machine.railFault
  split
  · exact hd
  · have h1 : DomDown d (railPhasesTo r 1 (railPenLow r (brakeStop r s))) :=
      ((hd.step (brakeStop_keeps ..) rfl).step (railPenLow_keeps ..) rfl).step (railPhasesTo_keeps ..) rfl
    exact ((h1.stopClustersOf r).step (State.updProt_keeps ..) rfl).step (State.updReg_keeps ..) rfl

theorem DomDown.finishStart (hd : DomDown d s) : DomDown d (finishStart s) := by
  refine forList_ind (P := DomDown d) (fun q _ u hu => ?_) hd
  refine DomDown.restartAll (DomDown.step (railsBack_keeps ..) rfl (DomDown.step (emitRail_keeps ..) rfl ?_))
  exact forList_ind (P := DomDown d) (fun _ _ v hv => hv.step (State.updProt_keeps ..) rfl) hu

theorem DomDown.fastStop (l : List Nat) (cause track : Nat) (hd : DomDown d s) : DomDown d (fastStop l cause track s) := by
  unfold Machine.fastStop
  extract_lets act lv s1 q s2
  split
  · exact hd
  · have h1 : DomDown d s1 := forList_ind (P := DomDown d) (fun r _ _ hu => hu.stopClustersOf r) hd
    have h2 : DomDown d s2 := forList_ind (P := DomDown d) (fun r _ _ hu => hu.railFault _ r) h1
    exact DomDown.finishStart ((h2.step (State.onRail_keeps ..) rfl).step (finishStops_keeps ..) rfl)

theorem DomDown.rampDown (q : StopSeq) (r : Nat) (hd : DomDown d s) : DomDown d (rampDown q r s) :=
  DomDown.step (masterFaults_keeps ..) rfl <| DomDown.fastStop _ _ _ <|
    DomDown.step (State.updReg_keeps ..) rfl <| hd.step (State.updProt_keeps ..) rfl

theorem DomDown.rampDownLevels (hd : DomDown d s) : DomDown d (rampDownLevels s) := by
  refine forList_ind (P := DomDown d) (fun q _ u hu => ?_) hd
  extract_lets rails waiting lv
  split
  · exact hu
  · exact forList_ind (P := DomDown d) (fun r _ _ hv => hv.rampDown q r) hu

end Down

/-- R112: a leaf that is dead fails. -/
theorem leafFail_of_dead {d cause : Nat} {s : State} (hdead : leafDead s d cause = true) (hok : (s.getDom d).failed = false) :
    leafFail d cause s = rampDownLevels (rootAdvance (emitClk 0x1031 d cause 0 0 (setAlarm alLeafFail
      (forList (s.domClusters d) (fun c t => cluStop c (t.updClu c fun x => { x with stopLeaf := true }))
        ((domStopNow d s).updDom d fun x =>
          { x with failed := true, failTime := s.now, testing := false, cmdOpen := false }))))) := by
  simp [leafFail, hdead, hok]

theorem leafFail_effect {d cause : Nat} {s : State} (hdead : leafDead s d cause = true) (hok : (s.getDom d).failed = false) :
    bitOf (leafFail d cause s).pwr.alarm 2 = true ∧ DomDown d (leafFail d cause s) := by
  rw [leafFail_of_dead hdead hok]
  constructor
  · have hpwr : ∀ u : State, (rampDownLevels (rootAdvance u)).pwr = u.pwr := fun u =>
      ((rampDownLevels_keeps _).pwr_eq rfl).trans ((rootAdvance_keeps u).pwr_eq rfl)
    rw [hpwr, emitClk, emit_pwr]
    exact bitOf_setAlarm 2 _
  · refine DomDown.rampDownLevels (DomDown.rootAdvance (DomDown.step (emitClk_keeps ..) rfl (DomDown.step (setAlarm_keeps ..) rfl ?_)))
    refine forList_ind (P := DomDown d) (fun c _ u hu => ?_) ?_
    · exact (hu.step (State.updClu_keeps ..) rfl).step (cluStop_keeps ..) rfl
    · simp [DomDown, domStopNow]

/-- R112: the leaf that is tried again. -/
theorem leafRetry_of_due {d : Nat} {s : State} (hfail : (s.getDom d).failed = true) (hheld : s.clk.root.held = false)
    (htime : (s.getDom d).failTime + 100000000 ≤ s.now) :
    leafRetry d s = domGo d (s.updDom d fun y => { y with testing := true, failTime := s.now, ext := false }) := by
  have hlate : (s.getDom d).failTime + 100 * nsPerMs ≤ s.now := htime
  simp [leafRetry, hfail, hheld, hlate]

theorem leafRestored_effect {d : Nat} {s : State} (hfail : (s.getDom d).failed = true) (htest : (s.getDom d).testing = true)
    (htime : (s.getDom d).failTime + 2000 ≤ s.now) :
    ((leafRestored d s).getDom d).failed = false ∧ ((leafRestored d s).getDom d).testing = false := by
  have hlate : (s.getDom d).failTime + 2 * nsPerUs ≤ s.now := htime
  simp only [leafRestored, hfail, htest, hlate, Bool.and_self, decide_true, if_true]
  set s3 := forList (s.domClusters d) cluRestart (forList (s.domClusters d) (fun c => State.updClu c fun x =>
    { x with stopLeaf := false }) (s.updDom d fun x => { x with failed := false, testing := false })) with hs3
  have hdom : s3.getDom d = { s.getDom d with failed := false, testing := false } := by
    rw [hs3, forList_eq (State.getDom · d) _ (fun c u => ?_), forList_eq (State.getDom · d) _ (fun c u => ?_)]
    · simp
    · rfl
    · have h : (cluRestart c u).clk = u.clk := (cluRestart_keeps c u).only.same .clk (by decide)
      simp [State.getDom, h]
  rw [emitClk, emit_getDom]
  split
  · simp [hdom]
  · simp [domStopNow_getDom, hdom]

theorem leafDead_of {d : Nat} {cause : Fin 2} {s : State} (hpres : (s.domCfg d).present = true)
    (h0 : cause = 0 → (s.getDom d).cmdOpen = true ∧ (s.getDom d).cmdAt + 1000 ≤ s.now)
    (h1 : cause = 1 → (s.getDom d).stopped = false ∧ s.clk.root.held = false ∧ (s.getDom d).cmdAt + 2000 ≤ s.now) :
    leafDead s d cause.val = true := by
  rcases Fin.exists_fin_two.mp ⟨cause, rfl⟩ with rfl | rfl
  · obtain ⟨hopen, htime⟩ := h0 rfl
    have hlate : (s.getDom d).cmdAt + nsPerUs ≤ s.now := htime
    simp [leafDead, hpres, hopen, hlate]
  · obtain ⟨hrun, hheld, htime⟩ := h1 rfl
    have hlate : (s.getDom d).cmdAt + 2 * nsPerUs ≤ s.now := htime
    simp [leafDead, hpres, hrun, hheld, hlate]

theorem rampDownLevels_of_no_stop {s : State} (h : s.rail.stops = []) : rampDownLevels s = s := by
  simp [rampDownLevels, h]

theorem set7Advance_of_not_waiting {s : State} (h : s.sns.set7Wait = false) : set7Advance s = s := by
  simp [set7Advance, h]

/-- With nothing that waits for leaves, an acknowledgement is the leaf's alone. -/
theorem leafAck_of_alone {d : Nat} {s : State} (hc : s.clk.root.change = none) (h7 : s.sns.set7Wait = false)
    (hstop : s.rail.stops = []) : leafAck d s = leafApply d s := by
  rw [leafAck, rootAdvance_of_none (by exact hc), set7Advance_of_not_waiting (by exact h7), rampDownLevels_of_no_stop (by exact hstop)]

theorem droopFire_of_running {k : Nat} {s : State} (hpres : (s.detCfg k).present = true) (hcal : (s.getDet k).calFail = false)
    (hdepth : (s.getDet k).depth.getD (s.detCfg k).depth ≠ 0) (hrun : (s.getDom (s.detCfg k).dom).stopped = false) :
    droopFire k s = (s.updDet k fun y => { y with cnt := (y.cnt + 1) % 2 ^ 32, fires := y.fires + 1 }).updDom (s.detCfg k).dom
      fun y => { y with ext := true, extCnt := (y.extCnt + 1) % 2 ^ 64, extLeft := (s.domCfg (s.detCfg k).dom).k,
                        extAt := s.now } := by
  simp only [droopFire, hpres, hcal, hdepth, Bool.not_true, Bool.or_self, decide_false, Bool.false_eq_true, if_false]
  exact updDom_congr (if_neg (ne_true_of_eq_false hrun))

/-- Settles O11: each command at its condition; a failed leaf stays down through the root change and the stops that go on. -/
theorem leavesFollow : Obligations.LeavesFollow := by
  refine ⟨fun s d hlive => ⟨fun g hc h7 hstop hsend hsent hext => ?ack, fun cause hpres hok h0 h1 => ?fail,
      fun hfail hheld htime => ?retry, fun hfail htest htime => ?restored⟩,
    fun s hlive => ⟨fun k hpres hcal hdepth hrun => ?fire, fun d hext hleft => ?ended⟩⟩
  case ack =>
    refine act_eq hlive ((leafAck_of_alone hc h7 hstop).trans (updDom_congr ?_))
    simp [hsend, hsent, hext]
  case fail =>
    obtain ⟨halarm, hdown⟩ := leafFail_effect (leafDead_of hpres h0 h1) hok
    exact ⟨leafFail d cause s, act_of_live hlive _, halarm, hdown.1, hdown.2, (leafFail_keeps ..).only⟩
  case retry =>
    have hrun := leafRetry_of_due hfail hheld htime
    have hdom : (leafRetry d s).getDom d = _ := (congrArg (State.getDom · d) hrun).trans (State.getDom_updDom ..)
    refine ⟨leafRetry d s, act_of_live hlive _, ?_, ?_, ?_, ?_, ?_, fun e he => ?_, ?_, ?_, (leafRetry_keeps ..).only⟩
    · rw [hdom]; simp
    · rw [hdom]; simpa using hfail
    · rw [hdom]; simp
    · rw [hdom]
    · rw [hdom]; rfl
    · rw [hrun, domGo, State.getDom_updDom_ne _ _ _ he, State.getDom_updDom_ne _ _ _ he]
    · rw [hrun]; rfl
    · rw [hrun]; rfl
  case restored =>
    obtain ⟨h1, h2⟩ := leafRestored_effect hfail htest htime
    exact ⟨leafRestored d s, act_of_live hlive _, h1, h2, (leafRestored_keeps ..).only⟩
  case fire => exact act_eq hlive (droopFire_of_running hpres hcal hdepth hrun)
  case ended => exact act_eq hlive (updDom_congr (if_pos (by simp [hext, hleft])))

end Sys2Proof.Machine
end

section
/-!
The drift of the reference against the links (R98, R99, R100).
-/
namespace Sys2Proof.Machine

/-- What a window's measurement leaves in the reference's state: the peers, the quorum and the drift (R98). -/
def Ref.measured (r : Ref) : Nat × Bool × Int := (r.peers, r.quorum, r.driftPpm)

theorem gateDivRec_ref (d code : Nat) (s : State) : (gateDivRec d code s).clk.ref = s.clk.ref := by
  unfold gateDivRec
  split
  · split
    · rfl
    · rw [emitClk, emit_clk]; rfl
  · rfl

theorem mapDiv_ref (d : Nat) (s : State) : (mapDiv d s).clk.ref = s.clk.ref := by
  unfold mapDiv
  extract_lets want code
  split
  · rfl
  · split
    · rfl
    · exact gateDivRec_ref d _ s

/-- R100: a derate changes of the reference's state its own fields alone. -/
theorem driftDerate_ref (a : Nat) (s : State) : ∃ req div n, (driftDerate a s).clk.ref =
    { s.clk.ref with deratePpm := satU 16 (2 * a), derateReq := req, derateDiv := div, preDerateN := n } := by
  unfold driftDerate
  extract_lets r n s1
  split
  · exact ⟨_, _, _, rfl⟩
  · split
    · exact ⟨_, _, _, rfl⟩
    · rw [derateDivs, forList_eq (·.clk.ref) _ mapDiv_ref]
      exact ⟨_, _, _, rfl⟩

theorem driftUnderate_measured (s : State) : (driftUnderate s).clk.ref.measured = s.clk.ref.measured := by
  unfold driftUnderate
  extract_lets r s1
  split <;> rfl

/-- The state that a drift of 200 ppm or more leaves before the reference is judged lost (R99). -/
def drifted (d : Int) (n : Nat) (s : State) : State :=
  let s1 := driftDerate d.natAbs (s.onClk fun k => { k with ref := { k.ref with drift := true, below150 := 0 } })
  if s.clk.ref.drift then s1 else emitClk 0x1004 (encS 32 d) n 0 0 s1

theorem drifted_ref (d : Int) (n : Nat) (s : State) : ∃ req div pre, (drifted d n s).clk.ref =
    { s.clk.ref with drift := true, below150 := 0, deratePpm := satU 16 (2 * d.natAbs), derateReq := req, derateDiv := div,
                     preDerateN := pre } := by
  obtain ⟨req, div, pre, h⟩ := driftDerate_ref d.natAbs (s.onClk fun k => { k with ref := { k.ref with drift := true, below150 := 0 } })
  refine ⟨req, div, pre, ?_⟩
  unfold drifted
  extract_lets s1
  split
  · exact h
  · rw [emitClk, emit_clk]; exact h

theorem drifted_keeps (d : Int) (n : Nat) (s : State) : Keeps [.clk, .loop, .hm, .hif, .ldg] s (drifted d n s) := by
  have h : Keeps [.clk, .loop, .hm, .hif, .ldg] s
      (driftDerate d.natAbs (s.onClk fun k => { k with ref := { k.ref with drift := true, below150 := 0 } })) :=
    (driftDerate_keeps ..).step (by decide) ((State.onClk_keeps ..).mono (by decide))
  exact .ite h ((emitClk_keeps ..).step (by decide) h)

theorem driftAct_of_large {d : Int} (n : Nat) (s : State) (h : 200 ≤ d.natAbs) : driftAct d n s =
    if 1000 ≤ d.natAbs ∧ s.clk.ref.stable then refLossCore 4 d (drifted d n s) else drifted d n s := if_pos h

theorem driftAct_measured (d : Int) (n : Nat) (s : State) : (driftAct d n s).clk.ref.measured = s.clk.ref.measured := by
  by_cases h : 200 ≤ d.natAbs
  · obtain ⟨req, div, pre, href⟩ := drifted_ref d n s
    rw [driftAct_of_large n s h]
    split
    · rw [refLossCore_ref]
      exact (congrArg Ref.measured href : _)
    · rw [href]; rfl
  · unfold driftAct
    extract_lets a s1 s2 b s3
    rw [if_neg h]
    split
    · rfl
    · split
      · rfl
      · rw [emitClk, emit_clk, driftUnderate_measured]; rfl

/-- The link rates of a window (R98). -/
def driftRates (edges : List EdgeSample) (s : State) : List Int :=
  (s.links.filter fun l => (s.getLnk l).up).filterMap fun l =>
    if s.tb.hold = true then edgePpm s.pwr.refsel (edges.filter fun e => e.link = l) else linkPpm (s.getLnk l)

/-- The fit of a link starts afresh (R98). -/
def fitAfresh (x : Link) : Link := { x with dn := 0, dx := 0, dy := 0, dxx := 0, dxy := 0, dy0 := 0 }

/-- The fits of all links start afresh (R98). -/
def fitsAfresh (s : State) : State :=
  forList (List.range 65) (fun l => State.updLnk l fitAfresh) (s.onClr fun c => { c with driftStart := s.now })

theorem fitsAfresh_keeps (s : State) : Keeps [.clr] s (fitsAfresh s) :=
  forList_keeps (f := fun l => State.updLnk l fitAfresh) _ (fun _ _ h => (State.updLnk_keeps ..).step (by decide) h)
    (State.onClr_keeps ..)

/-- A window ends: the fits start afresh, and the reference's state holds how many links measured (R98). -/
def driftCount (n : Nat) (s : State) : State := (fitsAfresh s).onClk fun k =>
  { k with ref := { k.ref with peers := satU 8 n, quorum := decide (3 ≤ n), quorumLost := decide (n < 3) } }

theorem driftCount_clk (n : Nat) (s : State) : (driftCount n s).clk =
    { s.clk with ref := { s.clk.ref with peers := satU 8 n, quorum := decide (3 ≤ n), quorumLost := decide (n < 3) } } := by
  have h : (fitsAfresh s).clk = s.clk := (fitsAfresh_keeps s).only.same .clk (by decide)
  rw [driftCount, State.onClk_clk, h]

theorem driftCount_keeps (n : Nat) (s : State) : Keeps [.clk, .clr] s (driftCount n s) :=
  (State.onClk_keeps ..).step (by decide) ((fitsAfresh_keeps s).mono (by decide))

/-- The measurement is kept as the reference's drift, and a small one verifies the clock of the links (R98). -/
def driftKept (d : Int) (now : Nat) (s : State) : State :=
  (s.onClk fun k => { k with ref :=
    { k.ref with driftPpm := satS 16 d, needDrift := k.ref.needDrift && decide (150 ≤ d.natAbs) } }).onClr
      fun c => { c with verAt := if d.natAbs < 1000 then some now else none }

section Window
variable {edges : List EdgeSample} {s : State} (hup : s.clrUp = true) (htime : s.clr.driftStart + 10000000 ≤ s.now)
include hup htime

theorem driftMeasure_of_window : driftMeasure edges s =
    let n := (driftRates edges s).length
    let s2 := driftCount n s
    if n < 3 then (if s.clk.ref.quorumLost then s2 else emitClk 0x1006 n 0 0 0 s2)
    else
      let s3 := driftKept (medianI (driftRates edges s)) s.now s2
      let s4 := driftAct (medianI (driftRates edges s)) n s3
      if s.clk.ref.needDrift && !s3.clk.ref.needDrift && !s4.clk.ref.stable && decide (1024 ≤ s4.clk.ref.goodWin) then
        refStable s4
      else s4 := by
  have hrates : driftRates edges s = if s.tb.hold then
        (s.links.filter fun l => (s.getLnk l).up).filterMap fun l => edgePpm s.pwr.refsel (edges.filter fun e => e.link = l)
      else (s.links.filter fun l => (s.getLnk l).up).filterMap fun l => linkPpm (s.getLnk l) := by
    unfold driftRates
    split <;> rfl
  have hopen : (!s.clrUp || decide (s.now < s.clr.driftStart + 10 * nsPerMs)) = false := by
    have : ¬ s.now < s.clr.driftStart + 10 * nsPerMs := Nat.not_lt.mpr htime
    simp [hup, this]
  rw [driftMeasure, if_neg (by simp [hopen])]
  rw [hrates]
  rfl

theorem driftMeasure_of_few (hfew : (driftRates edges s).length < 3) : (driftMeasure edges s).clk =
    (driftCount (driftRates edges s).length s).clk := by
  rw [driftMeasure_of_window hup htime]
  simp only [hfew, if_true]
  split <;> simp [emitClk]

theorem driftMeasure_of_quorum (hmany : 3 ≤ (driftRates edges s).length) :
    let d := medianI (driftRates edges s)
    let s3 := driftKept d s.now (driftCount (driftRates edges s).length s)
    let s4 := driftAct d (driftRates edges s).length s3
    driftMeasure edges s = s4 ∨ (d.natAbs < 150 ∧ driftMeasure edges s = refStable s4) := by
  intro d s3 s4
  have hrun := driftMeasure_of_window (edges := edges) hup htime
  simp only [show ¬ (driftRates edges s).length < 3 by omega, if_false] at hrun
  split at hrun
  · next hgo =>
    refine .inr ⟨?_, hrun⟩
    by_contra hlarge
    have : (driftKept d s.now (driftCount (driftRates edges s).length s)).clk.ref.needDrift = s.clk.ref.needDrift := by
      simp [driftKept, driftCount_clk, show 150 ≤ d.natAbs by omega]
    simp [d, this] at hgo
  · exact .inl hrun

end Window

theorem refStable_measured (s : State) : (refStable s).clk.ref.measured = s.clk.ref.measured := by
  unfold refStable
  extract_lets first s1 s2 s3
  have h : s3.clk = s1.clk := by
    simp only [s3, s2]
    split <;> simp [holdExitRec, holdExit, emitClk]
  have h3 : s3.clk.ref.measured = s.clk.ref.measured := by rw [h]; rfl
  split <;> exact h3

/-- Settles O20: without a quorum only the counts change; with one the median is kept, and `driftAct` acts on it. -/
theorem driftMeasurementActs : Obligations.DriftMeasurementActs := by
  intro s edges hlive hup htime rates
  have hrates : rates = driftRates edges s := rfl
  clear_value rates
  subst hrates
  have hkeep := (driftMeasure_keeps edges s).only
  refine ⟨driftMeasure edges s, act_of_live hlive _, ?_⟩
  by_cases hmany : 3 ≤ (driftRates edges s).length
  case neg =>
    have hclk := driftMeasure_of_few (edges := edges) hup htime (by omega)
    rw [driftCount_clk] at hclk
    refine ⟨by rw [hclk], by rw [hclk], fun _ => ⟨by rw [hclk], by rw [hclk]⟩, fun h => absurd h hmany, fun h => absurd h hmany,
      fun h => absurd h hmany, hkeep⟩
  case pos =>
    set d := medianI (driftRates edges s) with hd
    set s3 := driftKept d s.now (driftCount (driftRates edges s).length s) with hs3
    have hkeep3 : Keeps [.clk, .clr] s s3 :=
      (State.onClr_keeps ..).step (by decide) ((State.onClk_keeps ..).step (by decide) (driftCount_keeps ..))
    have href3 : s3.clk.ref = { (driftCount (driftRates edges s).length s).clk.ref with
        driftPpm := satS 16 d, needDrift := s.clk.ref.needDrift && decide (150 ≤ d.natAbs) } := by
      rw [hs3, driftKept]; simp [driftCount_clk]
    have hmeas : (driftMeasure edges s).clk.ref.measured = (satU 8 (driftRates edges s).length, true, satS 16 d) := by
      have h3 : s3.clk.ref.measured = (satU 8 (driftRates edges s).length, true, satS 16 d) := by
        rw [href3, driftCount_clk]; simp [Ref.measured, hmany]
      rcases driftMeasure_of_quorum (edges := edges) hup htime hmany with h | ⟨-, h⟩
      · rw [h, driftAct_measured, ← h3]
      · rw [h, refStable_measured, driftAct_measured, ← h3]
    have hlarge : 200 ≤ d.natAbs → driftMeasure edges s = driftAct d (driftRates edges s).length s3 := fun h =>
      (driftMeasure_of_quorum (edges := edges) hup htime hmany).resolve_right fun g => by
        have : d.natAbs < 150 := g.1
        omega
    have hstable : s3.clk.ref.stable = s.clk.ref.stable := by rw [href3, driftCount_clk]
    obtain ⟨req, div, pre, href⟩ := drifted_ref d (driftRates edges s).length s3
    simp only [Ref.measured, Prod.mk.injEq] at hmeas
    refine ⟨hmeas.1, by rw [hmeas.2.1]; simp [hmany], fun h => absurd h (by omega), fun _ => hmeas.2.2,
      fun _ h200 h1000 => ?_, fun _ h1000 hst => ?_, hkeep⟩
    · rw [hlarge h200, driftAct_of_large _ _ h200, if_neg (by omega), href]
      exact ⟨rfl, rfl, hstable⟩
    · have h200 : 200 ≤ d.natAbs := by omega
      rw [hlarge h200, driftAct_of_large _ _ h200, if_pos ⟨h1000, by rw [hstable]; exact hst⟩]
      have hdoms : (drifted d (driftRates edges s).length s3).doms = s.doms :=
        ((drifted_keeps ..).doms_eq rfl).trans (hkeep3.doms_eq rfl)
      refine ⟨by rw [refLossCore_ref]; rfl, by rw [refLossCore_ref]; rfl, by rw [refLossCore_tb]; rfl, refLossCore_alarm .., fun e he => ?_⟩
      exact (refLossCore_dom 4 d _ (hdoms ▸ he)).1

end Sys2Proof.Machine
end

section
/-!
What a record or a completion-ring entry does besides what it says: posted writes follow each other on the manager port, the
store of Ledger stays, and a context keeps all but its completion ring and its event bookkeeping (R374, R381, R402).
-/
namespace Sys2Proof.Machine

/-- The manager port after these posted writes: issued, or held while the port is in reset or others are held (R37, R39). -/
def HmPort.post (ws : List HmWrite) (h : HmPort) : HmPort :=
  if h.inReset || !h.held.isEmpty then { h with held := h.held ++ ws } else { h with out := h.out ++ ws }

@[simp] theorem HmPort.post_nil (h : HmPort) : h.post [] = h := by
  unfold HmPort.post
  split <;> simp

theorem HmPort.post_post (a b : List HmWrite) (h : HmPort) : (h.post a).post b = h.post (a ++ b) := by
  cases hb : h.inReset || !h.held.isEmpty
  · simp only [Bool.or_eq_false_iff, Bool.not_eq_false'] at hb
    simp [HmPort.post, hb.1, hb.2]
  · have hb' : (h.inReset || !(h.held ++ a).isEmpty) = true := by
      simp only [Bool.or_eq_true, Bool.not_eq_true', List.isEmpty_eq_false_iff, ne_eq, List.append_eq_nil_iff] at hb ⊢
      exact hb.imp_right fun h g => h g.1
    simp [HmPort.post, hb, hb']

@[simp] theorem HmPort.post_inReset (ws : List HmWrite) (h : HmPort) : (h.post ws).inReset = h.inReset := by
  unfold HmPort.post
  split <;> rfl

@[simp] theorem HmPort.post_reqs (ws : List HmWrite) (h : HmPort) : (h.post ws).reqs = h.reqs := by
  unfold HmPort.post
  split <;> rfl

@[simp] theorem HmPort.post_waiting (ws : List HmWrite) (h : HmPort) : (h.post ws).waiting = h.waiting := by
  unfold HmPort.post
  split <;> rfl

/-- Ledger without the source queues and the counts of what they lost. -/
def Ledger.stored (l : Ledger) : Ledger := { l with queues := [], qlost := 0, lostFlag := [], lossTime := [] }

/-- A context without its completion ring's tail and its event bookkeeping. -/
def Ctx.fixed (x : Ctx) : Ctx :=
  { x with cqTail := 0, evtLost := 0, evtLostFlag := false, evtLostRec := none, irqLast := none, irqWait := false }

/-- The host interface without its contexts and the rest of the quantum. -/
def Hif.fixed (h : Hif) : Hif := { h with ctx := [], left := 0 }

/-- From `s` to `t` records are queued and entries written, with these posted writes, and nothing else happens. -/
structure Emits (ws : List HmWrite) (s t : State) : Prop where
  keeps : Keeps [.hm, .hif, .ldg] s t
  hm : t.hm = s.hm.post ws
  stored : t.ldg.stored = s.ldg.stored
  ctx : ∀ c, (t.getCtx c).fixed = (s.getCtx c).fixed
  hif : t.hif.fixed = s.hif.fixed

section Rules
variable {a b : List HmWrite} {r s t : State}

theorem Emits.refl (s : State) : Emits [] s s := ⟨.refl .., by simp, rfl, fun _ => rfl, rfl⟩

theorem Emits.trans (h : Emits a r s) (g : Emits b s t) : Emits (a ++ b) r t where
  keeps := h.keeps.trans g.keeps
  hm := by rw [g.hm, h.hm, HmPort.post_post]
  stored := g.stored.trans h.stored
  ctx c := (g.ctx c).trans (h.ctx c)
  hif := g.hif.trans h.hif

theorem Emits.hmWrite (w : HmWrite) (s : State) : Emits [w] s (hmWrite w s) := by
  refine ⟨(hmWrite_keeps w s).mono (by decide), ?_, rfl, fun _ => rfl, rfl⟩
  unfold Machine.hmWrite HmPort.post
  simp only [State.onHm_hm]

theorem Emits.updCtx (k : Nat) {f : Ctx → Ctx} (s : State) (hf : ∀ x, (f x).fixed = x.fixed := by exact fun _ => rfl) :
    Emits [] s (s.updCtx k f) := by
  refine ⟨(State.updCtx_keeps ..).mono (by decide), by simp, rfl, fun c => ?_, rfl⟩
  by_cases e : c = k
  · subst e; rw [State.getCtx_updCtx, hf]
  · rw [State.getCtx_updCtx_ne _ _ _ e]

theorem Emits.onLdg {f : Ledger → Ledger} (hk : Keeps [.ldg] s (s.onLdg f)) (hf : (f s.ldg).stored = s.ldg.stored) :
    Emits [] s (s.onLdg f) :=
  ⟨hk.mono (by decide), by simp, hf, fun _ => rfl, rfl⟩

theorem Emits.ldgPut (x : LRec) (s : State) : Emits [] s (ldgPut x s) :=
  .onLdg (ldgPut_keeps x s) (by split <;> rfl)

theorem Emits.drrIdle (c : Nat) (s : State) : Emits [] s (drrIdle c s) := by
  unfold Machine.drrIdle
  extract_lets x
  split
  · exact ⟨(State.onHif_keeps ..).mono (by decide), by simp, rfl, fun _ => rfl, rfl⟩
  · exact .refl s

theorem irqDue_emits (c : Nat) (s : State) : ∃ ws, Emits ws s (irqDue c s) := by
  unfold irqDue
  extract_lets x
  split
  · exact ⟨[], .refl s⟩
  · split
    · exact ⟨_, (Emits.updCtx c s).trans
        (.hmWrite ..)⟩
    · exact ⟨[], .updCtx c s⟩

/-- A completion-ring entry of a context is a posted write to its ring (R374). -/
theorem writeEntry_emits (c tag status result opcode : Nat) (event notify : Bool) (s : State) :
    ∃ adr e ws, Emits (.cqe c adr (cqeBytes e) :: ws) s (writeEntry c tag status result opcode event notify s) ∧
      e.tag = tag ∧ e.opcode = opcode ∧ e.status = status ∧ e.result = result ∧ e.event = event := by
  unfold writeEntry
  extract_lets x e s1 s2
  have h2 : Emits [.cqe c (x.cqBase + 16 * (x.cqTail % 2 ^ x.cqLog)) (cqeBytes e)] s s2 :=
    (Emits.hmWrite ..).trans (Emits.updCtx c s1)
  obtain ⟨ws, hirq⟩ : ∃ ws, Emits ws s2 (if event || notify then irqDue c s2 else s2) := by
    split
    · exact irqDue_emits c s2
    · exact ⟨[], .refl s2⟩
  exact ⟨_, e, _, (h2.trans hirq).trans (.drrIdle c _), rfl, rfl, rfl, rfl, rfl⟩

section Rec
variable {rec_ : LRec → State → State} (hr : ∀ x u, ∃ ws, Emits ws u (rec_ x u))
include hr

theorem ldgEnqueue_emits (x : LRec) (s : State) : ∃ ws, Emits ws s (ldgEnqueue rec_ x s) := by
  unfold ldgEnqueue
  extract_lets full s1 s2
  have h1 : Emits [] s s1 := .ldgPut x s
  split
  · have h2 : Emits [] s1 s2 := .onLdg (s := s1)
      (State.onLdg_keeps (fun h => ⟨h.full, h.canon, h.below, h.queues⟩) (fun _ => List.prefix_rfl)) rfl
    obtain ⟨ws, h3⟩ := hr (mkRec 0x36 0xA815 x.source s2.ldg.qlost 0 0 s2) s2
    exact ⟨_, (h1.trans h2).trans h3⟩
  · exact ⟨_, h1⟩

theorem evtDeliver_emits (x : LRec) (c : Nat) (s : State) : ∃ ws, Emits ws s (evtDeliver rec_ x c s) := by
  unfold evtDeliver
  extract_lets y s1 s2
  split
  · exact ⟨[], .refl s⟩
  · split
    · obtain ⟨_, _, _, h, -⟩ := writeEntry_emits c x.p1 x.code x.p0 0xFFFF true false s
      exact ⟨_, h⟩
    · have h1 : Emits [] s s1 := .updCtx c s
      split
      · have h2 : Emits [] s1 s2 := .updCtx c s1
        obtain ⟨ws, h3⟩ := hr (mkRec 0x21 0x9014 c x.code 0 0 s2) s2
        exact ⟨_, (h1.trans h2).trans h3⟩
      · exact ⟨_, h1⟩

end Rec

theorem emitRec_emits (n : Nat) (x : LRec) (s : State) : ∃ ws, Emits ws s (emitRec n x s) := by
  induction n generalizing x s with
  | zero => exact ⟨_, .ldgPut x s⟩
  | succ n ih =>
    unfold emitRec
    extract_lets s1 c
    obtain ⟨a, ha⟩ := ldgEnqueue_emits ih x s
    obtain ⟨b, hb⟩ := evtDeliver_emits ih x 0 (ldgEnqueue (emitRec n) x s)
    split
    · obtain ⟨d, hd⟩ := evtDeliver_emits ih x c s1
      exact ⟨_, (ha.trans hb).trans hd⟩
    · exact ⟨_, ha.trans hb⟩

theorem emit_emits (src code p0 p1 p2 p3 : Nat) (s : State) : ∃ ws, Emits ws s (emit src code p0 p1 p2 p3 s) :=
  emitRec_emits ..

end Rules

section Emit
variable (src code p0 p1 p2 p3 : Nat) (s : State)

@[simp] theorem emit_stored : (emit src code p0 p1 p2 p3 s).ldg.stored = s.ldg.stored :=
  (emit_emits src code p0 p1 p2 p3 s).elim fun _ h => h.stored

@[simp] theorem emit_ctx_fixed (c : Nat) : ((emit src code p0 p1 p2 p3 s).getCtx c).fixed = (s.getCtx c).fixed :=
  (emit_emits src code p0 p1 p2 p3 s).elim fun _ h => h.ctx c

@[simp] theorem emit_hif_fixed : (emit src code p0 p1 p2 p3 s).hif.fixed = s.hif.fixed :=
  (emit_emits src code p0 p1 p2 p3 s).elim fun _ h => h.hif

theorem emit_hm : ∃ ws, (emit src code p0 p1 p2 p3 s).hm = s.hm.post ws :=
  (emit_emits src code p0 p1 p2 p3 s).imp fun _ h => h.hm

@[simp] theorem emit_hm_inReset : (emit src code p0 p1 p2 p3 s).hm.inReset = s.hm.inReset := by
  obtain ⟨ws, h⟩ := emit_hm src code p0 p1 p2 p3 s
  rw [h, HmPort.post_inReset]

@[simp] theorem emit_hm_reqs : (emit src code p0 p1 p2 p3 s).hm.reqs = s.hm.reqs := by
  obtain ⟨ws, h⟩ := emit_hm src code p0 p1 p2 p3 s
  rw [h, HmPort.post_reqs]

@[simp] theorem emit_hm_waiting : (emit src code p0 p1 p2 p3 s).hm.waiting = s.hm.waiting := by
  obtain ⟨ws, h⟩ := emit_hm src code p0 p1 p2 p3 s
  rw [h, HmPort.post_waiting]

end Emit

/-- What `fixed` leaves in a context, field by field. -/
theorem Ctx.st_of_fixed {x y : Ctx} (h : x.fixed = y.fixed) : x.st = y.st :=
  (congrArg Ctx.st h : x.fixed.st = y.fixed.st)

end Sys2Proof.Machine
end

section
/-!
The completion of a descriptor (R374, R377): what a command that performs one leaves, by what its body leaves.
-/
namespace Sys2Proof.Machine

/-- The result that a completion carries: 0 on failure, but for DMA_HOST_FAIL and DMA_NV_FAIL (R374). -/
def resultOf (status result : Nat) : Nat :=
  if decide (status = 0 ∨ status = 0xA006 ∨ status = 0xA007) then result else 0

@[simp] theorem resultOf_zero (result : Nat) : resultOf 0 result = result := rfl

@[simp] theorem resultOf_of_zero (status : Nat) : resultOf status 0 = 0 := by
  unfold resultOf
  split <;> rfl

section Post
variable {s t u : State} {w : HmWrite} {ws : List HmWrite}

theorem Posts.of_post {a b : List HmWrite} (h : t.hm = s.hm.post (a ++ w :: b)) : Posts w s t := by
  unfold Posts
  rw [h]
  split
  · next hb => exact ⟨a, b, by simp only [HmPort.post, if_pos hb, List.append_assoc]⟩
  · next hb => exact ⟨a, b, by simp only [HmPort.post, if_neg hb, List.append_assoc]⟩

end Post

section Complete
variable (h : DescHdr) (op status result : Nat) (s : State)

/-- A completion is a posted write to the context's ring, after the accounting of the context. -/
theorem completeOne_emits : ∃ adr e ws,
    Emits (.cqe h.ctx.val adr (cqeBytes e) :: ws)
      (s.updCtx h.ctx.val fun x => { x with done := satInc 16 x.done, last := if status = 0 then x.last else status, busy := false })
      (completeOne h op status result s) ∧
      e.tag = h.tag ∧ e.opcode = op ∧ e.status = status ∧ e.result = resultOf status result ∧ e.event = false :=
  writeEntry_emits ..

theorem completeOne_keeps_ldg : (completeOne h op status result s).ldg = s.ldg :=
  (completeOne_keeps h op status result s).only.same .ldg (by decide)

theorem completeOne_hm : ∃ adr e ws, (completeOne h op status result s).hm = s.hm.post (.cqe h.ctx.val adr (cqeBytes e) :: ws) ∧
    e.tag = h.tag ∧ e.opcode = op ∧ e.status = status ∧ e.result = resultOf status result ∧ e.event = false := by
  obtain ⟨adr, e, ws, hem, hfields⟩ := completeOne_emits h op status result s
  exact ⟨adr, e, ws, hem.hm, hfields⟩

/-- The context after its completion. -/
theorem completeOne_getCtx (c : Nat) : ((completeOne h op status result s).getCtx c).fixed =
    if c = h.ctx.val then
      { (s.getCtx c).fixed with
        done := satInc 16 (s.getCtx c).done, last := if status = 0 then (s.getCtx c).last else status, busy := false }
    else (s.getCtx c).fixed := by
  obtain ⟨adr, e, ws, hem, -⟩ := completeOne_emits h op status result s
  rw [hem.ctx c]
  by_cases he : c = h.ctx.val
  · rw [if_pos he, he, State.getCtx_updCtx]; rfl
  · rw [if_neg he, State.getCtx_updCtx_ne _ _ _ he]

end Complete

theorem NoClose.of_fixed {c : Nat} {s t : State} (h : (t.getCtx c).fixed = (s.getCtx c).fixed) (hn : NoClose c s) :
    NoClose c t :=
  ⟨(congrArg Ctx.closing h : _).trans hn.1, (congrArg Ctx.closeC0 h : _).trans hn.2⟩

/-- With no close waiting a completion is the descriptor's alone. -/
theorem complete_of_noClose {h : DescHdr} {s : State} (op status result : Nat) (hn : NoClose h.ctx.val s) :
    complete h op status result s = completeOne h op status result s := by
  have hc := completeOne_getCtx h op status result s h.ctx.val
  rw [if_pos rfl] at hc
  have h1 : ((completeOne h op status result s).getCtx h.ctx.val).closing = none := (congrArg Ctx.closing hc : _).trans hn.1
  have h2 : ((completeOne h op status result s).getCtx h.ctx.val).closeC0 = false := (congrArg Ctx.closeC0 hc : _).trans hn.2
  simp only [complete, h1, h2, Bool.false_eq_true, if_false]

/-- From `s` to `t` the manager port has only been given posted writes. -/
def Posted (s t : State) : Prop := ∃ ws, t.hm = s.hm.post ws

section Posted
variable {r s t : State}

theorem Posted.of_eq (h : t.hm = s.hm) : Posted s t := ⟨[], by simp [h]⟩

theorem Posted.refl (s : State) : Posted s s := .of_eq rfl

theorem Posted.trans (h : Posted r s) (g : Posted s t) : Posted r t := by
  obtain ⟨a, ha⟩ := h
  obtain ⟨b, hb⟩ := g
  exact ⟨a ++ b, by rw [hb, ha, HmPort.post_post]⟩

theorem Posted.ite {p : Prop} [Decidable p] (h : Posted r s) (g : Posted r t) : Posted r (if p then s else t) := by
  split <;> assumption

/-- What leaves the manager port alone. -/
theorem Keeps.posted {ps : List Area} (g : Keeps ps s t) (hm : ps.contains .hm = false) : Posted s t := .of_eq (g.hm_eq hm)

theorem hmWrite_posted (w : HmWrite) (s : State) : Posted s (hmWrite w s) := ⟨_, (Emits.hmWrite w s).hm⟩

theorem emit_posted (src code p0 p1 p2 p3 : Nat) (s : State) : Posted s (emit src code p0 p1 p2 p3 s) := emit_hm ..

theorem forList_posted {α : Type} (l : List α) {f : α → State → State} (hf : ∀ a u, Posted u (f a u)) (s : State) :
    Posted s (forList l f s) :=
  forList_ind (P := Posted s) (fun a _ u hu => hu.trans (hf a u)) (.refl s)

theorem completeOne_posted (h : DescHdr) (op status result : Nat) (s : State) : Posted s (completeOne h op status result s) := by
  obtain ⟨_, _, _, hhm, -⟩ := completeOne_hm h op status result s
  exact ⟨_, hhm⟩

theorem ctxShut_posted (c : Nat) (s : State) : Posted s (ctxShut c s) := by
  unfold ctxShut
  extract_lets x _ s1 s2
  have h1 : Posted s s1 := .of_eq rfl
  have h2 : Posted s1 s2 := .ite (.of_eq rfl) (.of_eq rfl)
  exact (h1.trans h2).trans (emit_posted ..)

theorem complete_posted (h : DescHdr) (op status result : Nat) (s : State) : Posted s (complete h op status result s) := by
  unfold complete
  extract_lets c s1 x
  have h1 : Posted s s1 := completeOne_posted ..
  split
  · extract_lets s2
    have h2 : Posted s1 s2 := (ctxShut_posted ..).trans (completeOne_posted ..)
    exact (h1.trans h2).trans (.ite (ctxShut_posted ..) (.refl _))
  · exact h1.trans (.ite (ctxShut_posted ..) (.refl _))

theorem Posted.inReset (h : Posted s t) : t.hm.inReset = s.hm.inReset := by
  obtain ⟨ws, h⟩ := h
  rw [h, HmPort.post_inReset]

theorem Posted.reqs (h : Posted s t) : t.hm.reqs = s.hm.reqs := by
  obtain ⟨ws, h⟩ := h
  rw [h, HmPort.post_reqs]

end Posted

/-- From `s` to `u` the manager port has only been given posted writes, and no close of the context has come to wait. -/
structure Between (c : Nat) (s u : State) : Prop where
  posts : Posted s u
  noClose : NoClose c s → NoClose c u

section Between
variable {c : Nat} {s t u : State}

theorem Between.refl (c : Nat) (s : State) : Between c s s := ⟨⟨[], by simp⟩, id⟩

theorem Between.trans (h : Between c s t) (g : Between c t u) : Between c s u :=
  ⟨h.posts.trans g.posts, g.noClose ∘ h.noClose⟩

theorem Between.of_eq (hm : t.hm = s.hm) (hif : t.hif = s.hif) : Between c s t :=
  ⟨⟨[], by simp [hm]⟩, fun h => by rwa [NoClose, State.getCtx, hif]⟩

/-- What leaves the manager port and the host interface alone. -/
theorem Keeps.between {ps : List Area} (g : Keeps ps s t) (hm : ps.contains .hm = false) (hif : ps.contains .hif = false) :
    Between c s t :=
  .of_eq (g.only.same .hm (by simpa using hm)) (g.only.same .hif (by simpa using hif))

theorem Emits.between {ws : List HmWrite} (h : Emits ws s t) : Between c s t :=
  ⟨⟨ws, h.hm⟩, fun hn => hn.of_fixed (h.ctx c)⟩

theorem emit_between (src code p0 p1 p2 p3 : Nat) (s : State) : Between c s (emit src code p0 p1 p2 p3 s) :=
  (emit_emits src code p0 p1 p2 p3 s).elim fun _ h => h.between

theorem Between.updCtx (k : Nat) {f : Ctx → Ctx} (s : State)
    (hf : ∀ x, (f x).closing = x.closing ∧ (f x).closeC0 = x.closeC0 := by exact fun _ => ⟨rfl, rfl⟩) :
    Between c s (s.updCtx k f) := by
  refine ⟨⟨[], by simp⟩, fun h => ?_⟩
  by_cases e : c = k
  · subst e
    rw [NoClose, State.getCtx_updCtx, (hf _).1, (hf _).2]
    exact h
  · rwa [NoClose, State.getCtx_updCtx_ne _ _ _ e]

theorem Between.onHif {f : Hif → Hif} (s : State) (hf : ∀ h, (f h).ctx = h.ctx := by exact fun _ => rfl) :
    Between c s (s.onHif f) :=
  ⟨⟨[], by simp⟩, fun h => by rwa [NoClose, State.getCtx, State.onHif_hif, hf]⟩

theorem Between.ite {p : Prop} [Decidable p] (h : Between c s t) (g : Between c s u) :
    Between c s (if p then t else u) := by
  split <;> assumption

theorem descBegin_between (k : Nat) (s : State) : Between c s (descBegin k s) := by
  have h : Between c s (drrTake k s) := Between.onHif s fun h => by split <;> rfl
  exact h.trans (.updCtx k _)

theorem completeOne_completes (h : DescHdr) (op status result : Nat) (hb : Between c s u) :
    Completes h op status (resultOf status result) s (completeOne h op status result u) := by
  obtain ⟨ws, hws⟩ := hb.posts
  obtain ⟨adr, e, b, hhm, h1, h2, h3, h4, h5⟩ := completeOne_hm h op status result u
  exact ⟨adr, e, Posts.of_post (a := ws) (b := b) (by rw [hhm, hws, HmPort.post_post]), h1, h2, h3, h4, h5⟩

end Between

section Desc
variable {h : DescHdr} {d : DescSpec} {body : State → DescOut} {s u : State} {st res : Nat}

/-- A descriptor that runs and whose body ends at once completes with the body's status and result. -/
theorem runDesc_of_runs (hr : Runs h d s) (hb : body (descBegin h.ctx.val s) = .done st res u)
    (hu : Between h.ctx.val (descBegin h.ctx.val s) u) :
    runDesc h d body s = completeOne h d.opcode st res u ∧
      Completes h d.opcode st (resultOf st res) s (completeOne h d.opcode st res u) := by
  obtain ⟨-, hmay, hin, hchk, hn⟩ := hr
  have hbet : Between h.ctx.val s u := (descBegin_between ..).trans hu
  exact ⟨(runDesc_done hmay hin hchk hb).trans (complete_of_noClose _ _ _ (hbet.noClose hn)), completeOne_completes _ _ _ _ hbet⟩

/-- The body of a descriptor that runs sees the state before it but for the host interface. -/
theorem descBegin_keeps (c : Nat) (s : State) : Keeps [.hif] s (descBegin c s) :=
  (State.updCtx_keeps ..).step (by decide) (State.onHif_keeps ..)

end Desc

end Sys2Proof.Machine
end

section
/-!
Power-on reset and cold reset (chapter 01): what holds the outputs, and what a cold start begins with.
-/
namespace Sys2Proof.Machine

section CluStop
variable (c : Nat) (s : State)

theorem reclaimClu_getClu (cause k j : Nat) (s : State) : (reclaimClu cause k s).getClu j = s.getClu j := by
  have h : (reclaimClu cause k s).loop = s.loop := (reclaimClu_keeps cause k s).only.same .loop (by decide)
  rw [State.getClu, h]; rfl

/-- A cluster put into STOPPED (R258). -/
theorem cluStop_getClu : (cluStop c s).getClu c =
    { s.getClu c with st := 0, a := 0, ceil := 0, dpend := false, stepDown := false, slopeAct := false } := by
  unfold cluStop
  rw [reclaimClu_getClu, State.getClu_updClu]
  split <;> rfl

theorem cluStop_getClu_ne {j : Nat} (h : j ≠ c) : (cluStop c s).getClu j = s.getClu j := by
  unfold cluStop
  rw [reclaimClu_getClu, State.getClu_updClu_ne _ _ _ h]
  split <;> rfl

end CluStop

/-- A cluster that is stopped: level 0 and ceiling 0. -/
def CluDown (c : Nat) (s : State) : Prop := (s.getClu c).st = 0 ∧ (s.getClu c).a = 0 ∧ (s.getClu c).ceil = 0

theorem cluStop_down (c : Nat) (s : State) : CluDown c (cluStop c s) := by
  rw [CluDown, cluStop_getClu]
  exact ⟨rfl, rfl, rfl⟩

theorem CluDown.of_loop {c : Nat} {s t : State} (h : t.loop = s.loop) (hd : CluDown c s) : CluDown c t := by
  rwa [CluDown, State.getClu, h]

/-- Every configured cluster is stopped. -/
theorem stopAllClocks_down (f : Clu → Clu) {c : Nat} {s : State} (hc : c ∈ s.clusters) : CluDown c (stopAllClocks f s) := by
  refine forList_est (P := CluDown c) (f := fun c t => cluStop c (t.updClu c f)) hc (fun j u hu => ?_)
    (fun u => cluStop_down c _) _
  by_cases e : c = j
  · subst e; exact cluStop_down c _
  · rwa [CluDown, cluStop_getClu_ne _ _ e, State.getClu_updClu_ne _ _ _ e]

theorem phOff_pen (p j : Nat) {s : State} (h : (s.getPh p).pen = false) : ((phOff j s).getPh p).pen = false := by
  by_cases e : p = j
  · subst e; rw [phOff, State.getPh_updPh]
  · rwa [phOff, State.getPh_updPh_ne _ _ _ e]

/-- Every listed phase is off. -/
theorem forList_phOff_pen {l : List Nat} {p : Nat} (hp : p ∈ l) (s : State) : ((forList l phOff s).getPh p).pen = false :=
  forList_est (P := fun u => (u.getPh p).pen = false) hp (fun j _ hu => phOff_pen p j hu)
    (fun u => by rw [phOff, State.getPh_updPh]) s

/-- The drive ceiling of a port that is held: 0, with STOP (R23). -/
def cpHeld (p : CpPort) : CpPort := { p with ceil := 0, slope := 4 }

theorem forList_cpHeld {l : List Nat} {c : Nat} (hc : c ∈ l) (s : State) :
    ((forList l (fun c => State.updCp c cpHeld) s).getCp c).ceil = 0 ∧
      ((forList l (fun c => State.updCp c cpHeld) s).getCp c).slope = 4 := by
  refine forList_est (P := fun u => (u.getCp c).ceil = 0 ∧ (u.getCp c).slope = 4) hc (fun j u hu => ?_) (fun u => ?_) s
  · by_cases e : c = j
    · subst e; rw [State.getCp_updCp]; exact ⟨rfl, rfl⟩
    · rwa [State.getCp_updCp_ne _ _ _ e]
  · rw [State.getCp_updCp]; exact ⟨rfl, rfl⟩

/-- The outputs that `powerHold` holds, before it marks the reset. -/
@[irreducible] def outputsHeld (s : State) : State :=
  forList (List.range 32) (fun c => State.updCp c cpHeld) (stopAllClocks id (forList (List.range 128) phOff s))

theorem powerHold_eq (cause : Nat) (s : State) : powerHold cause s =
    ((outputsHeld s).onPwr fun p => { p with step := 0, cause := cause, emuReady := false }).onFrec fun f =>
      { f with queue := [] } := by
  unfold outputsHeld
  rfl

theorem phasesOff_keeps (l : List Nat) (s : State) : Keeps [.rail] s (forList l phOff s) :=
  forList_keeps l (fun _ _ h => (State.updPh_keeps ..).step (by decide) h) (.refl ..)

theorem portsHeld_keeps (l : List Nat) (s : State) : Keeps [.cp] s (forList l (fun c => State.updCp c cpHeld) s) :=
  forList_keeps (f := fun c => State.updCp c cpHeld) l (fun _ _ h => (State.updCp_keeps ..).step (by decide) h) (.refl ..)

section Held
variable (s : State)

theorem outputsHeld_pwr : (outputsHeld s).pwr = s.pwr := by
  unfold outputsHeld
  rw [(portsHeld_keeps _ _).pwr_eq rfl, (stopAllClocks_keeps id _).pwr_eq rfl, (phasesOff_keeps _ s).pwr_eq rfl]

theorem outputsHeld_frec : (outputsHeld s).frec = s.frec := by
  unfold outputsHeld
  rw [(portsHeld_keeps _ _).frec_eq rfl, (stopAllClocks_keeps id _).frec_eq rfl, (phasesOff_keeps _ s).frec_eq rfl]

theorem outputsHeld_rail : (outputsHeld s).rail = (forList (List.range 128) phOff s).rail := by
  unfold outputsHeld
  rw [(portsHeld_keeps _ _).rail_eq rfl, (stopAllClocks_keeps id _).rail_eq rfl]

theorem outputsHeld_clk : (outputsHeld s).clk = (stopAllClocks id (forList (List.range 128) phOff s)).clk := by
  unfold outputsHeld
  rw [(portsHeld_keeps _ _).clk_eq rfl]

theorem outputsHeld_loop : (outputsHeld s).loop = (stopAllClocks id (forList (List.range 128) phOff s)).loop := by
  unfold outputsHeld
  rw [(portsHeld_keeps _ _).loop_eq rfl]

theorem outputsHeld_off : OutputsOff s (outputsHeld s) := by
  refine ⟨fun p hp => ?_, fun d hd => ?_, fun c hc => ?_⟩
  · rw [getPh_of_rail (outputsHeld_rail s)]
    exact forList_phOff_pen (l := List.range 128) (List.mem_range.mpr hp) s
  · rw [getDom_of_clk (outputsHeld_clk s)]
    exact stopAllClocks_stopped id _ (by rw [(phasesOff_keeps _ s).doms_eq rfl]; exact hd)
  · exact CluDown.of_loop (outputsHeld_loop s) (stopAllClocks_down id (by rw [(phasesOff_keeps _ s).clusters_eq rfl]; exact hc))

theorem outputsHeld_getCp {c : Nat} (hc : c < 32) : ((outputsHeld s).getCp c).ceil = 0 ∧ ((outputsHeld s).getCp c).slope = 4 := by
  unfold outputsHeld
  exact forList_cpHeld (l := List.range 32) (List.mem_range.mpr hc) _

end Held

theorem OutputsOff.of_eq {r s t u : State} (h : OutputsOff s t) (hcfg : r.cfg = s.cfg) (hrail : u.rail = t.rail)
    (hclk : u.clk = t.clk) (hloop : u.loop = t.loop) : OutputsOff r u := by
  obtain ⟨hph, hdom, hclu⟩ := h
  have hd : r.doms = s.doms := by simp [State.doms, State.domCfg, hcfg]
  have hc : r.clusters = s.clusters := by simp [State.clusters, State.cluCfg, hcfg]
  refine ⟨fun p hp => ?_, fun d hm => ?_, fun c hm => ?_⟩
  · rw [getPh_of_rail hrail]; exact hph p hp
  · rw [getDom_of_clk hclk]; exact hdom d (hd ▸ hm)
  · rw [getClu_of_loop hloop]; exact hclu c (hc ▸ hm)

section Hold
variable (cause : Nat) (s : State)

theorem powerHold_pwr_eq : (powerHold cause s).pwr = { s.pwr with step := 0, cause := cause, emuReady := false } := by
  rw [powerHold_eq, State.onFrec_pwr, State.onPwr_pwr, outputsHeld_pwr]

theorem powerHold_frec : (powerHold cause s).frec = { s.frec with queue := [] } := by
  rw [powerHold_eq, State.onFrec_frec, State.onPwr_frec, outputsHeld_frec]

theorem powerHold_off : OutputsOff s (powerHold cause s) :=
  (outputsHeld_off s).of_eq rfl (by rw [powerHold_eq, State.onFrec_rail, State.onPwr_rail])
    (by rw [powerHold_eq, State.onFrec_clk, State.onPwr_clk]) (by rw [powerHold_eq, State.onFrec_loop, State.onPwr_loop])

theorem powerHold_getCp {c : Nat} (hc : c < 32) :
    ((powerHold cause s).getCp c).ceil = 0 ∧ ((powerHold cause s).getCp c).slope = 4 := by
  rw [getCp_of_cp (s := outputsHeld s) (by rw [powerHold_eq, State.onFrec_cp, State.onPwr_cp])]
  exact outputsHeld_getCp s hc

theorem powerHold_live : (powerHold cause s).live = false := by
  rw [State.live, powerHold_pwr_eq]
  simp

theorem powerHold_alertsOn : (powerHold cause s).alertsOn = false := by
  rw [State.alertsOn, powerHold_pwr_eq]
  rfl

theorem powerHold_onPwr_off (f : Power → Power) : OutputsOff s (powerHold cause (s.onPwr f)) :=
  OutputsOff.of_eq (u := powerHold cause (s.onPwr f)) (powerHold_off cause (s.onPwr f)) rfl rfl rfl rfl

theorem powerHold_onPwr_only (f : Power → Power) :
    Only [.pwr, .clk, .rail, .frec, .loop, .hm, .cp, .hif, .ldg, .fw, .trs, .syn] s (powerHold cause (s.onPwr f)) :=
  ((State.onPwr_keeps f s).only.mono (by decide)).trans (powerHold_keeps ..).only

end Hold

theorem pulse_of_long {least ns : Nat} (f : State → State) (s : State) (h : least ≤ ns) (h100 : 100 ≤ ns) :
    pulse least ns f s = f s := by
  rw [pulse, if_neg (by omega), if_neg (by omega)]

theorem vaonOk_of_low {mv : Nat} (was : Bool) (h : mv < 640) : vaonOk was mv = false := by
  cases was <;> simp [vaonOk] <;> omega

theorem vioOk_of_low {mv : Nat} (was : Bool) (h : mv < 1550) : vioOk was mv = false := by
  have h2 : ∀ a : Nat, 1550 ≤ a → decide (a ≤ mv) = false := fun a ha => decide_eq_false (by omega)
  cases was <;> simp [vioOk] <;> omega

theorem vaonOk_of_high {mv : Nat} (was : Bool) (h : 670 ≤ mv) : vaonOk was mv = true := by
  cases was <;> simp [vaonOk] <;> omega

theorem vioOk_of_high {mv : Nat} (was : Bool) (h : 2970 ≤ mv) : vioOk was mv = true := by
  have h2 : decide ((if was then 2850 else 2970) ≤ mv) = true := decide_eq_true (by split <;> omega)
  rw [vioOk, h2, Bool.true_or]

/-- While a supply is bad, COLD_RESET holds the outputs (R68). -/
theorem coldBegin_of_bad {vsel refsel : Nat} {selftest : Option Nat} {b : Boot} {part : Option Part} {s : State}
    (h : suppliesOk b s = false) : ∃ cause va vn vi, coldBegin vsel refsel selftest b part s =
      powerHold cause (s.onPwr fun p => { p with porstLow := false, vaon := va, vana := vn, vio := vi }) :=
  ⟨_, _, _, _, if_neg (by simp [h])⟩

theorem coldBegin_of_good {vsel refsel : Nat} {selftest : Option Nat} {b : Boot} {s : State} (h : suppliesOk b s = true) :
    coldBegin vsel refsel selftest b none s =
      vaultCold selftest (baseSample (gateSample (refselSample (nvBoot (coldClear vsel refsel b s))))) :=
  if_pos h

/-- What a step of a cold start leaves of what the reset began with (Table 1.8): the outputs, the fuse array, the images and
the store of Ledger. -/
structure ColdKept (s t : State) : Prop where
  step : t.pwr.step = s.pwr.step
  live : t.live = s.live
  pins : t.pwr.vsel = s.pwr.vsel ∧ t.pwr.refsel = s.pwr.refsel
  nor : t.fw.arr = s.fw.arr ∧ t.fw.img = s.fw.img ∧ t.fw.run = s.fw.run
  stored : t.ldg.stored = s.ldg.stored
  ctx : ∀ c, (t.getCtx c).st = (s.getCtx c).st
  pen : ∀ p, (t.getPh p).pen = (s.getPh p).pen

section Cold
variable {r s t : State}

theorem ColdKept.refl (s : State) : ColdKept s s := ⟨rfl, rfl, ⟨rfl, rfl⟩, ⟨rfl, rfl, rfl⟩, rfl, fun _ => rfl, fun _ => rfl⟩

theorem ColdKept.trans (h : ColdKept r s) (g : ColdKept s t) : ColdKept r t where
  step := g.step.trans h.step
  live := g.live.trans h.live
  pins := ⟨g.pins.1.trans h.pins.1, g.pins.2.trans h.pins.2⟩
  nor := ⟨g.nor.1.trans h.nor.1, g.nor.2.1.trans h.nor.2.1, g.nor.2.2.trans h.nor.2.2⟩
  stored := g.stored.trans h.stored
  ctx c := (g.ctx c).trans (h.ctx c)
  pen p := (g.pen p).trans (h.pen p)

theorem ColdKept.ite {p : Prop} [Decidable p] (h : ColdKept r s) (g : ColdKept r t) : ColdKept r (if p then s else t) := by
  split <;> assumption

/-- What leaves the parts concerned alone. -/
theorem Keeps.cold {ps : List Area} (g : Keeps ps s t) (hp : ps.contains .pwr = false) (hf : ps.contains .fw = false)
    (hl : ps.contains .ldg = false) (hh : ps.contains .hif = false) (hr : ps.contains .rail = false) : ColdKept s t where
  step := by rw [g.pwr_eq hp]
  live := by rw [State.live, g.pwr_eq hp]; rfl
  pins := by rw [g.pwr_eq hp]; exact ⟨rfl, rfl⟩
  nor := by rw [g.fw_eq hf]; exact ⟨rfl, rfl, rfl⟩
  stored := by rw [g.ldg_eq hl]
  ctx c := by rw [getCtx_of_hif (g.hif_eq hh)]
  pen p := by rw [getPh_of_rail (g.rail_eq hr)]

theorem emit_cold (src code p0 p1 p2 p3 : Nat) (s : State) : ColdKept s (emit src code p0 p1 p2 p3 s) where
  step := by simp
  live := by simp [State.live]
  pins := by simp
  nor := by simp
  stored := by simp
  ctx c := Ctx.st_of_fixed (emit_ctx_fixed ..)
  pen p := by simp

theorem setAlarm_cold (b : Nat) (s : State) : ColdKept s (setAlarm b s) :=
  ⟨rfl, rfl, ⟨rfl, rfl⟩, ⟨rfl, rfl, rfl⟩, rfl, fun _ => rfl, fun _ => rfl⟩

theorem ColdKept.onFw (s : State) {f : Fw → Fw}
    (hf : ∀ x, (f x).arr = x.arr ∧ (f x).img = x.img ∧ (f x).run = x.run := by exact fun _ => ⟨rfl, rfl, rfl⟩) :
    ColdKept s (s.onFw f) :=
  ⟨rfl, rfl, ⟨rfl, rfl⟩, hf s.fw, rfl, fun _ => rfl, fun _ => rfl⟩

theorem refselSample_cold (s : State) : ColdKept s (refselSample s) :=
  .ite ((emit_cold ..).trans (setAlarm_cold ..)) (.refl s)

theorem gateSample_cold (s : State) : ColdKept s (gateSample s) :=
  .ite (ColdKept.trans (.onFw s) (emit_cold ..)) (.ite ((ColdKept.trans (.onFw s) (emit_cold ..)).trans (setAlarm_cold ..)) (.refl s))

theorem vaultWipe_cold (s : State) : ColdKept s (vaultWipe s) := ColdKept.trans (.onFw s) (emit_cold ..)

theorem vaultError_cold (n : Nat) (s : State) : ColdKept s (vaultError n s) :=
  .ite (.refl s) ((((ColdKept.onFw s).trans (emit_cold ..)).trans (vaultWipe_cold _)).trans (setAlarm_cold ..))

theorem cfgUse_cold (k : Nat) (c : CfgCopy) (s : State) : ColdKept s (cfgUse k c s) :=
  ColdKept.trans ((State.onCfg_keeps ..).cold rfl rfl rfl rfl rfl) (.onFw _)

theorem cfgStaged_cold (cold : Bool) (s : State) : ColdKept s (cfgStaged cold s).2 := by
  unfold cfgStaged
  dsimp only
  split
  · exact .refl s
  · split
    · split
      · split
        · exact ColdKept.onFw (f := fun f => { f with coldOnly := true }) s
        · exact (ColdKept.trans (.onFw s) (cfgUse_cold ..)).trans (emit_cold ..)
      · exact ColdKept.trans (.onFw s) (emit_cold ..)
    · exact ColdKept.trans (.onFw s) (emit_cold ..)

theorem loadRails_pen (s : State) (p : Nat) : ((loadRails s).getPh p).pen = (s.getPh p).pen := by
  unfold loadRails
  extract_lets s1 s2
  have h1 : (s1.getPh p).pen = (s.getPh p).pen := forList_eq (fun u => (u.getPh p).pen) _ (fun _ _ => by rfl) s
  have h2 : (s2.getPh p).pen = (s1.getPh p).pen := forList_eq (fun u => (u.getPh p).pen) _ (fun j u => by
    by_cases e : p = j
    · subst e; rw [State.getPh_updPh]
    · rw [State.getPh_updPh_ne _ _ _ e]) s1
  exact ((forList_eq (fun u => (u.getPh p).pen) _ (fun _ _ => by rfl) s2).trans h2).trans h1

theorem loadRails_cold (s : State) : ColdKept s (loadRails s) := by
  have g := loadRails_keeps s
  refine ⟨by rw [g.pwr_eq rfl], by rw [State.live, g.pwr_eq rfl]; rfl, by rw [g.pwr_eq rfl]; exact ⟨rfl, rfl⟩,
    by rw [g.fw_eq rfl]; exact ⟨rfl, rfl, rfl⟩, by rw [g.ldg_eq rfl], fun c => ?_, loadRails_pen s⟩
  rw [getCtx_of_hif (g.hif_eq rfl)]

theorem loadCold_cold (s : State) : ColdKept s (loadCold s) := by
  refine (loadRails_cold s).trans ?_
  exact ((((loadLoops_keeps _).cold rfl rfl rfl rfl rfl).trans ((loadTrs_keeps _).cold rfl rfl rfl rfl rfl)).trans
    ((loadFc_keeps _).cold rfl rfl rfl rfl rfl)).trans ((loadSyn_keeps _).cold rfl rfl rfl rfl rfl)

theorem cfgCold_cold (s : State) : ColdKept s (cfgCold s) := by
  unfold cfgCold
  extract_lets r t
  have hr : ColdKept s r.2 := cfgStaged_cold true s
  split
  · exact hr.trans (loadCold_cold _)
  · split
    · split
      · exact hr.trans ((cfgUse_cold ..).trans (loadCold_cold _))
      · exact hr.trans ((emit_cold ..).trans (setAlarm_cold ..))
    · exact hr.trans ((emit_cold ..).trans (setAlarm_cold ..))

theorem dirPut_nor (e : List Nat) (f : Fw) : (f.dirPut e).arr = f.arr ∧ (f.dirPut e).img = f.img ∧ (f.dirPut e).run = f.run :=
  ⟨rfl, rfl, rfl⟩

theorem dirWrite_cold (s : State) : ColdKept s (dirWrite s) :=
  .ite (.refl s) (.onFw s fun f => by
    split
    · split
      · exact ⟨rfl, rfl, rfl⟩
      · exact dirPut_nor ..
    · exact dirPut_nor ..)

theorem ringInit_cold (s : State) : ColdKept s (ringInit s) := by
  have hf : ∀ (f : FRec → FRec) (u : State), ColdKept u (u.onFrec f) := fun f u => (State.onFrec_keeps f u).cold rfl rfl rfl rfl rfl
  unfold ringInit
  extract_lets f s1
  refine .ite (hf ..) ?_
  split
  · exact hf ..
  · exact .ite ((hf ..).trans ((hf ..).trans (emit_cold ..))) (hf ..)

theorem drawInc_cold (s : State) : ColdKept s (drawInc s) := (drawInc_keeps s).cold rfl rfl rfl rfl rfl

theorem vaultCold_cold (selftest : Option Nat) (s : State) : ColdKept s (vaultCold selftest s) := by
  cases selftest with
  | some n => exact vaultError_cold n s
  | none =>
    exact ((((((vaultWipe_cold s).trans (.onFw _)).trans (cfgCold_cold _)).trans (dirWrite_cold _)).trans (ringInit_cold _))).trans
      (drawInc_cold _)

end Cold

/-- What a cold start's steps after the clearing leave (R22). -/
theorem coldSteps_kept (selftest : Option Nat) (s : State) :
    ColdKept s (vaultCold selftest (baseSample (gateSample (refselSample (nvBoot s))))) :=
  (((((nvBoot_keeps s).cold rfl rfl rfl rfl rfl).trans (refselSample_cold _)).trans (gateSample_cold _)).trans
    ((baseSample_keeps _).cold rfl rfl rfl rfl rfl)).trans (vaultCold_cold selftest _)

theorem coldSteps_keeps (selftest : Option Nat) (s : State) :
    Keeps [.pwr, .cfg, .sns, .rail, .frec, .loop, .hm, .hif, .ldg, .fw, .fc, .trs, .syn, .clr, .free] s
      (vaultCold selftest (baseSample (gateSample (refselSample (nvBoot s))))) :=
  (vaultCold_keeps ..).step (by decide) <| (baseSample_keeps _).step (by decide) <| (gateSample_keeps _).step (by decide) <|
    (refselSample_keeps _).step (by decide) <| (nvBoot_keeps s).mono (by decide)

theorem vaultError_fails (n : Nat) {s : State} (h : s.fw.vault.error = false) :
    (vaultError n s).fw.vault.error = true ∧ (vaultError n s).fw.vault.ready = false ∧
      bitOf (vaultError n s).pwr.alarm 13 = true := by
  unfold vaultError
  rw [if_neg (by simp [h])]
  refine ⟨?_, ?_, bitOf_setAlarm 13 _⟩ <;> simp [setAlarm, vaultWipe, emitVault]

theorem gateSample_vault (s : State) : (gateSample s).fw.vault = s.fw.vault := by
  unfold gateSample
  split
  · simp [emitVault]
  · split
    · simp [emitVault, setAlarm]
    · rfl

theorem coldSteps_vault (s : State) : (baseSample (gateSample (refselSample (nvBoot s)))).fw.vault = s.fw.vault := by
  rw [(baseSample_keeps _).fw_eq rfl, gateSample_vault, (refselSample_keeps _).fw_eq rfl, (nvBoot_keeps s).fw_eq rfl]

theorem Ledger.stored_eq_default {l : Ledger} (h : l.stored = ({} : Ledger).stored) : l.w = 0 ∧ l.r = 0 ∧ l.seq = 0 :=
  ⟨(congrArg Ledger.w h : l.stored.w = _), (congrArg Ledger.r h : l.stored.r = _), (congrArg Ledger.seq h : l.stored.seq = _)⟩

theorem dirRead_nor (f : Fw) : f.dirRead.arr = f.arr ∧ f.dirRead.img = f.img ∧ f.dirRead.run = f.run ∧ f.dirRead.vault = f.vault := by
  unfold Fw.dirRead
  split <;> exact ⟨rfl, rfl, rfl, rfl⟩

/-- A cold start with every supply good (R22, R409, R431). -/
theorem coldReset_effect {vsel refsel : Nat} {selftest : Option Nat} {b : Boot} {s : State} (h : suppliesOk b s = true) :
    let t := coldBegin vsel refsel selftest b none s
    t.now = 0 ∧ t.tb.hold = true ∧ t.fuse = s.fw.arr ∧ t.fw.arr = s.fw.arr ∧ t.fw.img = s.fw.img ∧
      t.pwr.vsel = vsel ∧ t.pwr.refsel = refsel ∧ t.pwr.step = 2 ∧ t.live = true ∧ t.fw.run = false ∧
      t.ldg.w = 0 ∧ t.ldg.r = 0 ∧ t.ldg.seq = 0 ∧ t.clk.root.locked = false ∧ (∀ d, (t.getDom d).stopped = true) ∧
      (∀ c, (t.getCtx c).st = 0) ∧ (∀ p, (t.getPh p).pen = false) ∧ t.ep = [] ∧ t.tly.prog = [] ∧
      t.pending = s.pending ∧
      (selftest.isSome = true → t.fw.vault.error = true ∧ bitOf t.pwr.alarm 13 = true ∧ t.fw.vault.ready = false) := by
  intro t
  have ht : t = vaultCold selftest (baseSample (gateSample (refselSample (nvBoot (coldClear vsel refsel b s))))) :=
    coldBegin_of_good h
  clear_value t
  have hk := coldSteps_kept selftest (coldClear vsel refsel b s)
  have g := coldSteps_keeps selftest (coldClear vsel refsel b s)
  rw [← ht] at hk g
  obtain ⟨harr, himg, hrun, hvault⟩ := dirRead_nor { ({} : Fw) with
      arr := s.fw.arr, dir := s.fw.dir, dirSector := s.fw.dirSector, img := s.fw.img, copy := s.fw.copy,
      vault := { ({} : Vault) with vfuseMv := s.fw.vault.vfuseMv } }
  obtain ⟨hw, hr, hseq⟩ := Ledger.stored_eq_default hk.stored
  refine ⟨g.now_eq rfl, by rw [g.tb_eq rfl]; rfl, g.fuse_eq rfl, hk.nor.1.trans harr, hk.nor.2.1.trans himg, hk.pins.1, hk.pins.2,
    hk.step, hk.live, hk.nor.2.2.trans hrun, hw, hr, hseq, by rw [g.clk_eq rfl]; rfl, fun d => ?_, hk.ctx, hk.pen,
    g.ep_eq rfl, by rw [g.tly_eq rfl]; rfl, g.pending_eq rfl, fun hs => ?_⟩
  · rw [getDom_of_clk (g.clk_eq rfl)]; rfl
  · obtain ⟨n, rfl⟩ := Option.isSome_iff_exists.mp hs
    have hok : (baseSample (gateSample (refselSample (nvBoot (coldClear vsel refsel b s))))).fw.vault.error = false := by
      rw [coldSteps_vault]
      exact congrArg Vault.error hvault
    obtain ⟨h1, h2, h3⟩ := vaultError_fails n hok
    rw [ht]
    exact ⟨h1, h3, h2⟩

/-- Settles O12: a reset that holds is `powerHold`, and a cold start with good supplies is `coldReset_effect`. -/
theorem powerOnAndColdReset : Obligations.PowerOnAndColdReset := by
  refine ⟨fun s ns va vi => ⟨fun hlong => ?low, fun hshort => ?glitch, fun hbad => ?supply, fun ha hi => ?good⟩,
    fun s vsel refsel selftest b part hbad => ?held,
    fun s vsel refsel selftest b hgood => ⟨_, rfl, coldReset_effect hgood⟩⟩
  case low =>
    refine ⟨powerHold 1 (s.onPwr fun p => { p with porstLow := true }), congrArg Host.Outcome.next (pulse_of_long (fun t => powerHold 1 (t.onPwr fun p => { p with porstLow := true })) s hlong (by omega)),
      powerHold_onPwr_off .., powerHold_live .., ?_, ?_, ?_, ?_, powerHold_alertsOn ..,
      fun c hc => powerHold_getCp _ _ hc, powerHold_onPwr_only ..⟩
    · rw [powerHold_pwr_eq]; rfl
    · rw [powerHold_pwr_eq]
    · rw [powerHold_frec]
    · rw [powerHold_frec]; rfl
  case glitch => exact congrArg Host.Outcome.next (pulse_short 10000 _ s hshort)
  case supply =>
    have hrun : internalReset va vi s = powerHold 0 (s.onPwr fun p =>
        { p with vaon := vaonOk s.pwr.vaon va, vio := vioOk s.pwr.vio vi }) := by
      refine if_neg ?_
      rcases hbad with h | h
      · simp [vaonOk_of_low _ h]
      · simp [vioOk_of_low _ h]
    refine ⟨_, congrArg Host.Outcome.next hrun, powerHold_onPwr_off 0 s _, powerHold_live .., fun h => ?_, fun h => ?_, ?_, ?_,
      powerHold_alertsOn .., powerHold_onPwr_only ..⟩
    · rw [powerHold_pwr_eq]; exact vaonOk_of_low _ h
    · rw [powerHold_pwr_eq]; exact vioOk_of_low _ h
    · rw [powerHold_pwr_eq]
    · rw [powerHold_frec]
  case good => exact congrArg Host.Outcome.next (if_pos (by simp [vaonOk_of_high _ ha, vioOk_of_high _ hi]))
  case held =>
    obtain ⟨cause, va, vn, vi, hrun⟩ := coldBegin_of_bad (vsel := vsel.val) (refsel := refsel.val) (selftest := selftest)
      (part := part) hbad
    refine ⟨_, congrArg Host.Outcome.next hrun, powerHold_onPwr_off .., powerHold_live .., ?_, ?_, ?_, ?_⟩
    · rw [powerHold_pwr_eq]; rfl
    · exact (powerHold_onPwr_only ..).same .now (by decide)
    · exact (powerHold_onPwr_only ..).same .fuse (by decide)
    · exact (powerHold_onPwr_only ..).same .cfg (by decide)

end Sys2Proof.Machine
end

section
/-!
The warm reset (chapter 01): what it stops, what it holds, and the record of its cause.
-/
namespace Sys2Proof.Machine

section Logs
variable {s t u : State} {src code p0 p1 p2 p3 : Nat}

/-- A record stays in its queue while the queue of its source only grows. -/
theorem Logs.of_queue (g : Logs src code p0 p1 p2 p3 s t)
    (h : Tbl.get [] t.ldg.queues src <+: Tbl.get [] u.ldg.queues src) : Logs src code p0 p1 p2 p3 s u := by
  obtain ⟨l, hl, r⟩ := g
  exact ⟨l, hl.trans h, r⟩

theorem Keeps.queue {ps : List Area} (g : Keeps ps s t) (hq : ps.contains .queues = false) (src : Nat) :
    Tbl.get [] s.ldg.queues src <+: Tbl.get [] t.ldg.queues src :=
  g.only.same .queues (by simpa using hq) src

/-- Flushing one source's queue takes nothing from another's. -/
theorem ldgFlush_queue {k src : Nat} (s : State) (h : src ≠ k) :
    Tbl.get [] s.ldg.queues src <+: Tbl.get [] (ldgFlush k s).ldg.queues src := by
  have hset : Tbl.get [] (s.onLdg fun l => { l with queues := Tbl.set [] l.queues k [] }).ldg.queues src =
      Tbl.get [] s.ldg.queues src := by
    rw [State.onLdg_ldg]
    dsimp only
    exact Tbl.get_set_ne (d := ([] : List LRec)) _ _ h
  rw [← hset, ldgFlush]
  exact Keeps.queue (ps := [.hm, .hif, .ldg]) (foldl_keeps _ (fun _ _ hu => (ldgTake_keeps ..).step (by decide) hu) (.refl ..)) rfl src

theorem flushAll_queue {l : List Nat} {src : Nat} (s : State) (h : src ∉ l) :
    Tbl.get [] s.ldg.queues src <+: Tbl.get [] (forList l ldgFlush s).ldg.queues src :=
  forList_ind (P := fun u => Tbl.get [] s.ldg.queues src <+: Tbl.get [] u.ldg.queues src)
    (fun k hk u hu => hu.trans (ldgFlush_queue u fun e => h (e ▸ hk))) List.prefix_rfl

end Logs

section Hold
variable (cause : Nat) (s : State)

/-- A running cluster is put into HOLD (R260). -/
def holdClu (cause now : Nat) (x : Clu) : Clu :=
  if x.st = 1 then { x with st := 2, holdCause := cause, holdSince := now } else x

theorem clusters_nodup (s : State) : s.clusters.Nodup := idxWhere_nodup 32 _

theorem cluHold_now (c : Nat) : (cluHold cause c s).now = s.now := rfl

theorem cluHold_getClu (c k : Nat) : (cluHold cause c s).getClu k = if k = c then holdClu cause s.now (s.getClu k) else s.getClu k := by
  by_cases e : k = c
  · subst e; rw [if_pos rfl, cluHold, State.getClu_updClu]; rfl
  · rw [if_neg e, cluHold, State.getClu_updClu_ne _ _ _ e]

/-- Of the clusters listed, the running ones enter HOLD. -/
theorem forList_cluHold {l : List Nat} (hl : l.Nodup) (k : Nat) : (forList l (cluHold cause) s).getClu k =
    if k ∈ l then holdClu cause s.now (s.getClu k) else s.getClu k := by
  induction l generalizing s with
  | nil => rfl
  | cons c l ih =>
    obtain ⟨hc, hl⟩ := List.nodup_cons.mp hl
    rw [forList_cons, ih _ hl, cluHold_getClu, cluHold_now]
    by_cases e : k = c
    · subst e; simp [hc]
    · simp [e]

theorem holdAll_getClu (k : Nat) : (holdAll cause s).getClu k =
    if k ∈ s.clusters ∧ (s.getClu k).st = 1 then holdClu cause s.now (s.getClu k) else s.getClu k := by
  unfold holdAll
  extract_lets l
  have hmem : k ∈ l ↔ k ∈ s.clusters ∧ (s.getClu k).st = 1 := by simp [l]
  split
  · next hl =>
    rw [if_neg]
    rw [← hmem, hl]
    simp
  · rw [emitCp, emit_getClu, forList_cluHold cause s ((clusters_nodup s).filter _)]
    exact if_congr hmem rfl rfl

end Hold

section Warm
variable (s : State)

/-- What a warm reset leaves of a cluster's state machine. -/
def Clu.phase (x : Clu) : Nat × Nat := (x.st, x.holdCause)

theorem warmLoops_phase (k : Nat) : ((warmLoops s).getClu k).phase = (s.getClu k).phase := by
  refine forList_eq (fun u => (u.getClu k).phase) s.clusters (fun c u => ?_) s
  dsimp only
  rw [getClu_of_loop (State.updTrsCl_loop ..)]
  have hlp : ∀ j f (v : State), (v.updLp c j f).getClu k = v.getClu k := fun _ _ _ => rfl
  rw [hlp, hlp, forList_eq (State.getClu · k) _ (fun j v => hlp j _ v)]
  by_cases e : k = c
  · subst e; rw [State.getClu_updClu]; rfl
  · rw [State.getClu_updClu_ne _ _ _ e]

theorem railsHold_getReg {r : Nat} (hr : r ∈ s.railIds) :
    (forList s.railIds (fun r => State.updReg r fun x => { x with hold := true }) s).getReg r =
      { s.getReg r with hold := true } := by
  have h := forList_entry (State.getReg · r) (f := fun r => State.updReg r fun x => { x with hold := true })
    (g := fun x => { x with hold := true }) (k := r) (fun _ => State.getReg_updReg ..)
    (fun _ hj _ => State.getReg_updReg_ne _ _ _ (Ne.symm hj)) (l := s.railIds) (idxWhere_nodup 8 _) s
  rwa [if_pos hr] at h

theorem railsHold_keeps (l : List Nat) : Keeps [.rail] s (forList l (fun r => State.updReg r fun x => { x with hold := true }) s) :=
  forList_keeps l (fun _ _ h => (State.updReg_keeps ..).step (by decide) h) (.refl ..)

/-- A channel that a warm reset has emptied (R409). -/
def chanWarm (c : DmaChan) : DmaChan :=
  { c with busy := false, armed := false, xfer := none, stream := none, table := [], n := 0, buffers := 0, overrun := false,
           gap := 0, stopping := false, stopHdr := none }

theorem forList_chanWarm {l : List Nat} {k : Nat} (hk : k ∈ l) :
    ((forList l (fun k => State.updChan k chanWarm) s).getChan k).xfer = none ∧
      ((forList l (fun k => State.updChan k chanWarm) s).getChan k).busy = false := by
  refine forList_est (P := fun u => (u.getChan k).xfer = none ∧ (u.getChan k).busy = false)
    (f := fun k => State.updChan k chanWarm) hk (fun j u hu => ?_) (fun u => ?_) s
  · by_cases e : k = j
    · subst e; rw [State.getChan_updChan]; exact ⟨rfl, rfl⟩
    · rwa [State.getChan_updChan_ne _ _ _ e]
  · rw [State.getChan_updChan]; exact ⟨rfl, rfl⟩

theorem warmDma_getChan {k : Nat} (hk : k < 8) :
    ((warmDma s).getChan k).xfer = none ∧ ((warmDma s).getChan k).busy = false := by
  unfold warmDma
  extract_lets s1
  have h1 : (s1.getChan k).xfer = none ∧ (s1.getChan k).busy = false :=
    forList_chanWarm (l := List.range 8) s (List.mem_range.mpr hk)
  clear_value s1
  have hk : ∀ (f : Nat → State → HmPort → HmPort) (l : List Nat), Keeps [.hm] s1 (forList l (fun t u => u.onHm (f t u)) s1) :=
    fun f l => forList_keeps l (fun _ _ h => (State.onHm_keeps ..).step (by decide) h) (.refl ..)
  rw [getChan_of_dma (State.onHm_dma ..), getChan_of_dma ((hk _ _).dma_eq rfl)]
  exact h1

/-- The state in which a warm reset writes its record (R26). -/
def warmMark (cause : Nat) (s : State) : State :=
  (s.onPwr fun p =>
      { p with cause := cause, warmCnt := satInc 16 p.warmCnt, emuReady := false, fwWait := s.frec.busy, wantWarm := none }).onFw
    fun f => { f with run := false, handoff := false, recovery := false, upd := 0, updHdr := none, runMask := 0, okFrames := 0,
                      allocOk := false, actWarm := decide (cause = 5), warmAt := s.now }

/-- The clusters are held, the rails keep their setpoints, and the loans, the frames and an Audit test end (R26, R29, R85). -/
def warmHold (s : State) : State :=
  let s2 := holdAll 1 ((s.onHo fun _ => none).onFrec fun f => { f with nv := { f.nv with cmds := [], sfdp := none } })
  let s3 := forList s2.railIds (fun r => State.updReg r fun x => { x with hold := true }) s2
  let s4 := warmFrames (forList s3.clusters (reclaimClu 3) s3)
  audAbandon 2 (s4.onAud fun a => { a with test := a.test.map fun t => { t with hdr := none } })

/-- The firmware's parts start afresh (Table 1.8). -/
def warmClear (s : State) : State := warmCores (clrDrop (warmFc (warmTly (warmDma (warmTrs (warmLoops s))))))

theorem warmReset_eq (cause : Nat) : warmReset cause s =
    (warmClear (forList fwSources ldgFlush (warmHold (warmRecord cause (warmMark cause s))))).onHif fun _ => {} := rfl

end Warm


section Effects
variable (s : State)

theorem warmMark_keeps (cause : Nat) : Keeps [.pwr, .fw] s (warmMark cause s) :=
  (State.onFw_keeps ..).step (by decide) ((State.onPwr_keeps ..).mono (by decide))

theorem reclaimAll_keeps (l : List Nat) : Keeps [.hm, .hif, .ldg, .trs, .syn] s (forList l (reclaimClu 3) s) :=
  forList_keeps l (fun _ _ h => (reclaimClu_keeps ..).step (by decide) h) (.refl ..)

theorem flushAll_keeps (l : List Nat) : Keeps [.hm, .hif, .ldg, .queues] s (forList l ldgFlush s) :=
  forList_keeps l (fun _ _ h => (ldgFlush_keeps ..).step (by decide) h) (.refl ..)

/-- What follows the hold of the rails in `warmHold`. -/
theorem warmHold_after (u : State) :
    Keeps [.tb, .frm, .hm, .hif, .ldg, .fc, .trs, .syn, .aud] u
      (audAbandon 2 ((warmFrames (forList u.clusters (reclaimClu 3) u)).onAud fun a =>
        { a with test := a.test.map fun t => { t with hdr := none } })) :=
  (audAbandon_keeps ..).step (by decide) <| (State.onAud_keeps ..).step (by decide) <| (warmFrames_keeps _).step (by decide) <|
    (reclaimAll_keeps u _).mono (by decide)

theorem warmHold_keeps :
    Keeps [.tb, .frm, .rail, .frec, .loop, .hm, .hif, .ldg, .fc, .trs, .syn, .aud, .ho] s (warmHold s) :=
  (warmHold_after _).step (by decide) <| (railsHold_keeps _ _).step (by decide) <| (holdAll_keeps 1 _).step (by decide) <|
    (State.onFrec_keeps ..).step (by decide) <| (State.onHo_keeps ..).mono (by decide)

theorem warmHold_loop : (warmHold s).loop =
    (holdAll 1 ((s.onHo fun _ => none).onFrec fun f => { f with nv := { f.nv with cmds := [], sfdp := none } })).loop := by
  unfold warmHold
  rw [(warmHold_after _).loop_eq rfl, (railsHold_keeps _ _).loop_eq rfl]

theorem warmHold_getClu (k : Nat) : (warmHold s).getClu k =
    if k ∈ s.clusters ∧ (s.getClu k).st = 1 then holdClu 1 s.now (s.getClu k) else s.getClu k := by
  rw [getClu_of_loop (warmHold_loop s), holdAll_getClu]
  rfl

theorem warmHold_rail (u : State) (hu : u = holdAll 1 ((s.onHo fun _ => none).onFrec fun f =>
    { f with nv := { f.nv with cmds := [], sfdp := none } })) : (warmHold s).rail =
      (forList u.railIds (fun r => State.updReg r fun x => { x with hold := true }) u).rail := by
  unfold warmHold
  rw [(warmHold_after _).rail_eq rfl, hu]

theorem warmHold_getReg {r : Nat} (hr : r ∈ s.railIds) : (warmHold s).getReg r = { s.getReg r with hold := true } := by
  have g : Keeps [.frec, .loop, .hm, .hif, .ldg, .ho] s (holdAll 1 ((s.onHo fun _ => none).onFrec fun f =>
      { f with nv := { f.nv with cmds := [], sfdp := none } })) :=
    (holdAll_keeps 1 _).step (by decide) <| (State.onFrec_keeps ..).step (by decide) <| (State.onHo_keeps ..).mono (by decide)
  rw [getReg_of_rail (warmHold_rail s _ rfl), railsHold_getReg _ (by rw [g.railIds_eq rfl]; exact hr), getReg_of_rail (g.rail_eq rfl)]

theorem warmHold_getProt (r : Nat) : (warmHold s).getProt r = s.getProt r := by
  have g : Keeps [.frec, .loop, .hm, .hif, .ldg, .ho] s (holdAll 1 ((s.onHo fun _ => none).onFrec fun f =>
      { f with nv := { f.nv with cmds := [], sfdp := none } })) :=
    (holdAll_keeps 1 _).step (by decide) <| (State.onFrec_keeps ..).step (by decide) <| (State.onHo_keeps ..).mono (by decide)
  rw [getProt_of_rail (warmHold_rail s _ rfl), forList_eq (State.getProt · r) _ (fun _ _ => by rfl), getProt_of_rail (g.rail_eq rfl)]

theorem warmClear_keeps : Keeps [.loop, .trs, .hm, .dma, .tly, .fc, .clr, .fw] s (warmClear s) :=
  (warmCores_keeps _).step (by decide) <| (clrDrop_keeps _).step (by decide) <| (warmFc_keeps _).step (by decide) <|
    (warmTly_keeps _).step (by decide) <| (warmDma_keeps _).step (by decide) <| (warmTrs_keeps _).step (by decide) <|
      (warmLoops_keeps s).mono (by decide)

theorem warmClear_phase (k : Nat) : ((warmClear s).getClu k).phase = (s.getClu k).phase := by
  have g : Keeps [.trs, .hm, .dma, .tly, .fc, .clr, .fw] (warmLoops s) (warmClear s) :=
    (warmCores_keeps _).step (by decide) <| (clrDrop_keeps _).step (by decide) <| (warmFc_keeps _).step (by decide) <|
      (warmTly_keeps _).step (by decide) <| (warmDma_keeps _).step (by decide) <| (warmTrs_keeps _).mono (by decide)
  rw [getClu_of_loop (g.loop_eq rfl), warmLoops_phase]

theorem warmClear_getChan {k : Nat} (hk : k < 8) :
    ((warmClear s).getChan k).xfer = none ∧ ((warmClear s).getChan k).busy = false := by
  have g : Keeps [.tly, .fc, .clr, .fw] (warmDma (warmTrs (warmLoops s))) (warmClear s) :=
    (warmCores_keeps _).step (by decide) <| (clrDrop_keeps _).step (by decide) <| (warmFc_keeps _).step (by decide) <|
      (warmTly_keeps _).mono (by decide)
  rw [getChan_of_dma (g.dma_eq rfl)]
  exact warmDma_getChan _ hk

theorem warmCores_run : (warmCores s).fw.run = s.fw.run := forList_eq (·.fw.run) _ (fun _ _ => by rfl) s

theorem warmClear_run : (warmClear s).fw.run = s.fw.run := by
  have g : Keeps [.loop, .trs, .hm, .dma, .tly, .fc, .clr] s (clrDrop (warmFc (warmTly (warmDma (warmTrs (warmLoops s)))))) :=
    (clrDrop_keeps _).step (by decide) <| (warmFc_keeps _).step (by decide) <|
      (warmTly_keeps _).step (by decide) <| (warmDma_keeps _).step (by decide) <| (warmTrs_keeps _).step (by decide) <|
        (warmLoops_keeps s).mono (by decide)
  rw [warmClear, warmCores_run, g.fw_eq rfl]

end Effects

theorem warmRecord_logs (cause : Nat) {r s : State} (h : Keeps [.pwr, .fw] r s) (hroom : QRoom 0x22 r) :
    Logs 0x22 (openStatus 0xB s) cause 0 0 0 r (warmRecord cause s) :=
  emit_logs_after (ps := [.pwr, .fw, .free]) ((State.drawn_keeps s).step (by decide) (h.mono (by decide))) (by decide) (by decide)
    (by decide) (by decide) hroom

/-- After its record a warm reset takes nothing from Vault's queue: the sources whose queues it flushes are others (R409). -/
theorem warmReset_queue (cause : Nat) (s : State) : Tbl.get [] (warmRecord cause (warmMark cause s)).ldg.queues 0x22 <+:
    Tbl.get [] (warmReset cause s).ldg.queues 0x22 := by
  rw [warmReset_eq, State.onHif_ldg]
  exact (((warmHold_keeps _).queue rfl 0x22).trans (flushAll_queue _ (by decide))).trans ((warmClear_keeps _).queue rfl 0x22)

section Parts
variable (cause : Nat) (s : State)

theorem warmBase_keeps : Keeps [.pwr, .hm, .hif, .ldg, .fw, .free] s (warmRecord cause (warmMark cause s)) :=
  (warmRecord_keeps ..).step (by decide) ((warmMark_keeps s cause).mono (by decide))

/-- The state after the flush of the restarting cores' queues. -/
def warmFlushed : State := forList fwSources ldgFlush (warmHold (warmRecord cause (warmMark cause s)))

theorem warmFlushed_after : Keeps [.hm, .hif, .ldg, .queues] (warmHold (warmRecord cause (warmMark cause s))) (warmFlushed cause s) :=
  flushAll_keeps _ _

theorem warmReset_eq_flushed : warmReset cause s = (warmClear (warmFlushed cause s)).onHif fun _ => {} := warmReset_eq s cause

theorem warmReset_pwr : (warmReset cause s).pwr = (warmMark cause s).pwr := by
  rw [warmReset_eq_flushed, State.onHif_pwr, (warmClear_keeps _).pwr_eq rfl, (warmFlushed_after ..).pwr_eq rfl,
    (warmHold_keeps _).pwr_eq rfl, (warmRecord_keeps ..).pwr_eq rfl]

theorem warmReset_run : (warmReset cause s).fw.run = false := by
  rw [warmReset_eq_flushed, State.onHif_fw, warmClear_run, (warmFlushed_after ..).fw_eq rfl, (warmHold_keeps _).fw_eq rfl,
    (warmRecord_keeps ..).fw_eq rfl]
  rfl

theorem warmReset_getChan {k : Nat} (hk : k < 8) :
    ((warmReset cause s).getChan k).xfer = none ∧ ((warmReset cause s).getChan k).busy = false := by
  rw [warmReset_eq_flushed, getChan_of_dma (State.onHif_dma ..)]
  exact warmClear_getChan _ hk

theorem warmReset_phase (k : Nat) : ((warmReset cause s).getClu k).phase =
    if k ∈ s.clusters ∧ (s.getClu k).st = 1 then (2, 1) else (s.getClu k).phase := by
  have g := warmBase_keeps cause s
  rw [warmReset_eq_flushed, getClu_of_loop (State.onHif_loop ..), warmClear_phase, getClu_of_loop ((warmFlushed_after ..).loop_eq rfl),
    warmHold_getClu, g.clusters_eq rfl, getClu_of_loop (g.loop_eq rfl)]
  split
  · next h => simp [holdClu, h.2, Clu.phase]
  · rfl

theorem warmReset_rail : (warmReset cause s).rail = (warmHold (warmRecord cause (warmMark cause s))).rail := by
  rw [warmReset_eq_flushed, State.onHif_rail, (warmClear_keeps _).rail_eq rfl, (warmFlushed_after ..).rail_eq rfl]

theorem warmReset_getReg {r : Nat} (hr : r ∈ s.railIds) : (warmReset cause s).getReg r = { s.getReg r with hold := true } := by
  have g := warmBase_keeps cause s
  rw [getReg_of_rail (warmReset_rail cause s), warmHold_getReg _ (by rw [g.railIds_eq rfl]; exact hr), getReg_of_rail (g.rail_eq rfl)]

theorem warmReset_getProt (r : Nat) : (warmReset cause s).getProt r = s.getProt r := by
  rw [getProt_of_rail (warmReset_rail cause s), warmHold_getProt, getProt_of_rail ((warmBase_keeps cause s).rail_eq rfl)]

end Parts

/-- Settles O13: `warmReset` part by part, and the record that it begins with. -/
theorem warmResetHoldsAndRestarts : Obligations.WarmResetHoldsAndRestarts := by
  intro s ns hlive
  refine ⟨fun hlong => ?long, fun hshort => ?short, fun hlow => ?up, fun hhigh => ?upAlready⟩
  case long =>
    set u := s.onPwr fun p => { p with wrstLow := true } with hu
    have gu : Keeps [.pwr] s u := State.onPwr_keeps ..
    have hrun : pulse 1000 ns (fun t => warmReset 2 (t.onPwr fun p => { p with wrstLow := true })) s = warmReset 2 u :=
      pulse_of_long (fun t => warmReset 2 (t.onPwr fun p => { p with wrstLow := true })) s hlong (by omega)
    have hphase := warmReset_phase 2 u
    refine ⟨warmReset 2 u, act_eq hlive hrun, ?_, ?_, warmReset_run 2 u, rfl, fun k hk => warmReset_getChan 2 u hk,
      fun c hc hst => ?_, fun c hc hst => ?_, fun r hr => warmReset_getReg 2 u hr, warmReset_getProt 2 u, ?_, fun hroom => ?_, ?_⟩
    · rw [warmReset_pwr]; rfl
    · rw [warmReset_pwr]; rfl
    · have h := hphase c
      rw [if_pos ⟨hc, hst⟩] at h
      exact Prod.mk.inj h
    · have h := hphase c
      rw [if_neg (fun h => by rw [show (u.getClu c).st = (s.getClu c).st from rfl, hst] at h; exact absurd h.2 (by decide))] at h
      exact (Prod.mk.inj h).1.trans hst
    · rw [State.bootMay, warmReset_pwr]
      simp [warmMark, hu]
    · refine ⟨_, Logs.of_queue (warmRecord_logs 2 (?_ : Keeps [.pwr, .fw] s (warmMark 2 u)) hroom) (warmReset_queue 2 u)⟩
      exact (warmMark_keeps u 2).step (by decide) (gu.mono (by decide))
    · exact (gu.only.mono (by decide)).trans (warmReset_keeps 2 u).only
  case short => exact act_eq hlive (pulse_short 1000 _ s hshort)
  case up => exact act_eq hlive (if_pos hlow)
  case upAlready => exact act_eq hlive (if_neg (by simp [hhigh]))

end Sys2Proof.Machine
end

section
/-!
The boot (chapter 16): the preferred image starts the cores, or Vault enters recovery (R426, R427).
-/
namespace Sys2Proof.Machine

/-- What a write of the directory leaves of the firmware part. -/
theorem dirWrite_fw {β : Type} (g : Fw → β) (hg : ∀ f e, g (Fw.dirPut e f) = g f) (s : State) :
    g (dirWrite s).fw = g s.fw := by
  unfold dirWrite
  split
  · rfl
  · rw [State.onFw_fw]
    split
    · split
      · rfl
      · exact hg ..
    · exact hg ..

section Pick
variable {k : Nat} {g : FwImg} {s : State}

/-- An accepted image passes its check, which is noted. -/
theorem slotTry_of_accepted (hnv : s.nvDown = false) (himg : s.fw.slotImg k = some g) (hok : fwCheck s.fuse (some g) = 0) :
    slotTry k s = (true, s.onFw (Fw.setLast k 0)) := by
  simp [slotTry, slotCheck, hnv, himg, hok]

/-- A VALID preferred slot with an accepted image is picked (R426). -/
theorem bootPick_of_valid {trial : Bool} (hst : s.fw.slotState s.fw.pref = 1) (hnv : s.nvDown = false)
    (himg : s.fw.slotImg s.fw.pref = some g) (hok : fwCheck s.fuse (some g) = 0) :
    bootPick trial s = (some s.fw.pref, s.onFw (Fw.setLast s.fw.pref 0)) := by
  simp [bootPick, hst, slotFirst, slotTry_of_accepted hnv himg hok]

/-- With the preferred slot EMPTY or BAD and the other one not VALID nothing is picked (R427). -/
theorem bootPick_of_none {trial : Bool} (hst : s.fw.slotState s.fw.pref = 0 ∨ s.fw.slotState s.fw.pref = 4)
    (hother : s.fw.slotState (1 - s.fw.pref) ≠ 1) : bootPick trial s = (none, s) := by
  have h : slotOther (1 - s.fw.pref) s = (none, s) := if_neg hother
  rcases hst with hst | hst
  · simp [bootPick, hst, h]
  · simp [bootPick, hst, h]

section Cold
variable {u : State} (hmay : s.bootMay = true) (hcold : s.pwr.cause ≤ 1)
include hmay hcold

theorem fwBoot_of_some (hr : bootPick true s = (some k, u)) : fwBoot s = bootSlot true k (dirWrite u) := by
  simp [fwBoot, hmay, hcold, hr]

theorem fwBoot_of_none (hr : bootPick true s = (none, u)) : fwBoot s = bootNone (dirWrite u) := by
  simp [fwBoot, hmay, hcold, hr]

end Cold

end Pick

section Cores
variable (s : State)

/-- The turn of core `k` as the cores start (R426). -/
def coreStart (now k : Nat) (t : State) : State :=
  t.updFwCore k fun x => { x with st := if t.coreOut k then x.st else 1, bank := false, idleSince := some now }

theorem coreStart_keeps (now k : Nat) : Keeps [.fw] s (coreStart now k s) := State.updFwCore_keeps ..

theorem coreOut_of_st {k : Nat} {t u : State} (haud : u.aud = t.aud) (hst : (u.getFwCore k).st = (t.getFwCore k).st) :
    u.coreOut k = t.coreOut k := by
  rw [State.coreOut, State.coreOut, hst, getUnit_of_aud haud]

/-- A core that may start starts, and stays started. -/
theorem coresStarted {now k : Nat} {l : List Nat} (hk : k ∈ l) (hout : s.coreOut k = false) :
    ((forList l (coreStart now) s).getFwCore k).st = 1 := by
  have hself : ∀ u : State, u.coreOut k = false → ((coreStart now k u).getFwCore k).st = 1 := fun u h => by
    rw [coreStart, State.getFwCore_updFwCore, h]; rfl
  have hother : ∀ j, k ≠ j → ∀ u, (coreStart now j u).getFwCore k = u.getFwCore k := fun j h u =>
    State.getFwCore_updFwCore_ne _ _ _ h
  refine forList_est_of (P := fun u => (u.getFwCore k).st = 1) (Q := fun u => u.coreOut k = false) (f := coreStart now) hk (fun j u hu => ?_) (fun j u hu hp => ?_) hself hout
  · by_cases e : k = j
    · subst e
      have haud : (coreStart now k u).getUnit (audIdx 1 k) = u.getUnit (audIdx 1 k) :=
        getUnit_of_aud ((coreStart_keeps u now k).aud_eq rfl) _
      simp only [State.coreOut, hself u hu, haud] at hu ⊢
      simp only [Bool.or_eq_false_iff] at hu
      simpa using hu.2
    · rw [coreOut_of_st ((coreStart_keeps u now j).aud_eq rfl) (congrArg FwCore.st (hother j e u))]
      exact hu
  · by_cases e : k = j
    · subst e; exact hself u hu
    · rw [hother j e, hp]

theorem coreStart_fw {β : Type} (g : Fw → β) (hg : ∀ f k h, g { f with core := Tbl.upd {} f.core k h } = g f) (now : Nat)
    (l : List Nat) : g (forList l (coreStart now) s).fw = g s.fw :=
  forList_eq (fun u => g u.fw) l (fun k u => by exact hg u.fw k _) s

theorem coresStart_eq : coresStart s =
    hmResume (((forList ([32, 33, 34] ++ s.clusters) (coreStart s.now) s).onPwr fun p =>
      { p with emuReady := true, step := max p.step 7 }).onFw fun f => { f with run := true, actWarm := false }) := by
  rfl

theorem coresStart_run : (coresStart s).fw.run = true := by
  rw [coresStart_eq, (hmResume_keeps _).fw_eq rfl]
  rfl

theorem coresStart_cur : (coresStart s).fw.cur = s.fw.cur := by
  rw [coresStart_eq, (hmResume_keeps _).fw_eq rfl, State.onFw_fw, State.onPwr_fw]
  exact coreStart_fw s (·.cur) (fun _ _ _ => rfl) _ _

theorem coresStart_emuReady : (coresStart s).pwr.emuReady = true := by
  rw [coresStart_eq, (hmResume_keeps _).pwr_eq rfl]
  rfl

theorem coresStart_core {k : Nat} (hk : k ∈ [32, 33, 34] ++ s.clusters) (hout : s.coreOut k = false) :
    ((coresStart s).getFwCore k).st = 1 := by
  rw [coresStart_eq, getFwCore_of_fw ((hmResume_keeps _).fw_eq rfl), State.getFwCore, State.onFw_fw, State.onPwr_fw]
  exact coresStarted (l := [32, 33, 34] ++ s.clusters) s hk hout

/-- After a cold reset the cores start from the image of the slot, and the configuration's programs are installed. -/
theorem bootSlot_cold_parts (k : Nat) : let u := s.onFw fun f => { f with cur := runImgOf k ((s.fw.slotImg k).getD {}) }
    (bootSlot true k s).fw = (coresStart u).fw ∧ (bootSlot true k s).pwr = (coresStart u).pwr := by
  intro u
  unfold bootSlot
  extract_lets g s1 cause s2 s3
  have hfw : s3.fw = s1.fw := by
    rw [(confTally_keeps s2).fw_eq rfl]
    exact emit_fw ..
  have hpwr : s3.pwr = s1.pwr := by
    rw [(confTally_keeps s2).pwr_eq rfl]
    exact emit_pwr ..
  exact ⟨hfw, hpwr⟩

theorem bootSlot_cold_keeps (k : Nat) : Keeps [.pwr, .frm, .hm, .hif, .ldg, .fw, .tly] s (bootSlot true k s) := by
  unfold bootSlot
  extract_lets g s1 cause s2 s3
  exact (confTally_keeps s2).step (by decide) <| (emitVault_keeps ..).step (by decide) <| (coresStart_keeps _).step (by decide) <|
    (State.onFw_keeps ..).mono (by decide)

end Cores

section None
variable (s : State)

theorem cluStop_fw {β : Type} (g : Fw → β) (hg : ∀ f k h, g { f with core := Tbl.upd {} f.core k h } = g f) (c : Nat) :
    g (cluStop c s).fw = g s.fw := by
  unfold cluStop
  rw [(reclaimClu_keeps ..).fw_eq rfl, (State.updClu_keeps ..).fw_eq rfl]
  split
  · rfl
  · exact hg ..

theorem stopAllClocks_fw {β : Type} (g : Fw → β) (hg : ∀ f k h, g { f with core := Tbl.upd {} f.core k h } = g f)
    (f : Clu → Clu) : g (stopAllClocks f s).fw = g s.fw := by
  have hdom : (forList s.doms domStopNow s).fw = s.fw := forList_eq (·.fw) s.doms (fun _ _ => by rfl) s
  refine (forList_eq (fun u => g u.fw) s.clusters (f := fun c t => cluStop c (t.updClu c f)) (fun c u => ?_) _).trans
    (congrArg g hdom)
  rw [cluStop_fw _ g hg]
  rfl

/-- The state from which recovery stops the clocks (R427). -/
def recoveryMark (s : State) : State :=
  (s.onFw fun f => { f with recovery := true, run := false, cur := {}, actWarm := false }).onPwr fun p => { p with emuReady := true }

theorem bootNone_eq : bootNone s = setAlarm 12 (emitVault 0xB102 0 0 0 0
    (hmResume (stopAllClocks (fun x => { x with started := false, warmHold := false }) (recoveryMark s)))) := by
  rfl

/-- Recovery: Vault answers, and no clock runs (R427). -/
theorem bootNone_effect : (bootNone s).fw.recovery = true ∧ (bootNone s).fw.run = false ∧
    bitOf (bootNone s).pwr.alarm 12 = true ∧ ∀ d ∈ s.doms, ((bootNone s).getDom d).stopped = true := by
  have hfw : ∀ u : State, (setAlarm 12 (emitVault 0xB102 0 0 0 0 (hmResume u))).fw = u.fw := fun u => by
    rw [(setAlarm_keeps ..).fw_eq rfl, emitVault, emit_fw, (hmResume_keeps u).fw_eq rfl]
  rw [bootNone_eq]
  refine ⟨?_, ?_, bitOf_setAlarm 12 _, fun d hd => ?_⟩
  · rw [hfw, stopAllClocks_fw _ (·.recovery) (fun _ _ _ => rfl)]; rfl
  · rw [hfw, stopAllClocks_fw _ (·.run) (fun _ _ _ => rfl)]; rfl
  · rw [setAlarm_getDom, emitVault, emit_getDom, getDom_of_clk ((hmResume_keeps _).clk_eq rfl)]
    exact stopAllClocks_stopped _ (recoveryMark s) hd

end None

/-- Settles O14: what `bootPick` answers in each case decides between `bootSlot` and `bootNone`. -/
theorem bootStartsPreferredImageOrRecovers : Obligations.BootStartsPreferredImageOrRecovers := by
  intro s g hlive hmay hcold hnv
  refine ⟨fun hst himg hok => ?valid, fun hst hother => ?recovery⟩
  case valid =>
    set u := dirWrite (s.onFw (Fw.setLast s.fw.pref 0)) with hu
    have gu : Keeps [.fw] s u := (dirWrite_keeps _).step (by decide) (State.onFw_keeps ..)
    have hrun : fwBoot s = bootSlot true s.fw.pref u := fwBoot_of_some hmay hcold (bootPick_of_valid hst hnv himg hok)
    have hslot : u.fw.slotImg s.fw.pref = some g := by
      rw [hu, dirWrite_fw (Fw.slotImg · s.fw.pref) (fun _ _ => rfl)]
      exact himg
    have hcore : u.fw.core = s.fw.core := by
      rw [hu, dirWrite_fw (·.core) (fun _ _ => rfl)]
      rfl
    obtain ⟨hfw, hpwr⟩ := bootSlot_cold_parts u s.fw.pref
    refine ⟨bootSlot true s.fw.pref u, act_eq hlive hrun, ?_, ?_, ?_, fun k hk hout => ?_, ?_⟩
    · rw [hfw, coresStart_run]
    · rw [hfw, coresStart_cur, hslot]; rfl
    · rw [hpwr, coresStart_emuReady]
    · rw [getFwCore_of_fw hfw]
      refine coresStart_core _ ?_ ?_
      · rw [← gu.clusters_eq rfl] at hk
        exact hk
      · rw [← hout]
        refine coreOut_of_st (gu.aud_eq rfl) ?_
        rw [State.getFwCore, State.onFw_fw, State.getFwCore]
        exact congrArg (fun t => (Tbl.get ({} : FwCore) t k).st) hcore
    · exact (gu.only.mono (by decide)).trans (bootSlot_cold_keeps ..).only
  case recovery =>
    have gu : Keeps [.fw] s (dirWrite s) := dirWrite_keeps s
    obtain ⟨h1, h2, h3, h4⟩ := bootNone_effect (dirWrite s)
    refine ⟨bootNone (dirWrite s), act_eq hlive (fwBoot_of_none hmay hcold (bootPick_of_none hst hother)), h1, h2, h3, fun d hd => h4 d ?_,
      (gu.only.mono (by decide)).trans (bootNone_keeps ..).only⟩
    rwa [gu.doms_eq rfl]

end Sys2Proof.Machine
end

section
/-!
The loss of a supply (chapters 02 and 07): a fast stop at the loss of input power, every phase off at the loss of VANA, and the
alarm of VFUSE.
-/
namespace Sys2Proof.Machine

/-- No start of rails is in progress. -/
def NoStarts (s : State) : Prop := s.rail.starts = []

section Starts
variable {ps : List Area} {s t : State}

theorem NoStarts.step (g : Keeps ps s t) (hp : ps.contains .rail = false) (h : NoStarts s) : NoStarts t := by
  rwa [NoStarts, g.rail_eq hp]

theorem NoStarts.of_eq (h : t.rail.starts = s.rail.starts) (hs : NoStarts s) : NoStarts t := h.trans hs

theorem finishStart_of_noStarts (h : NoStarts s) : finishStart s = s.onRail fun x => { x with starts := x.starts.filter fun q => startPending s q ≠ [] } := by
  have he : s.rail.starts.filter (fun q => startPending s q = []) = [] := by rw [h]; rfl
  simp only [finishStart, he, forList_nil]

theorem NoStarts.finishStart (h : NoStarts s) : NoStarts (finishStart s) := by
  rw [finishStart_of_noStarts h, NoStarts, State.onRail_rail, h]
  rfl

theorem latchAll_starts (s : State) : (latchAll s).rail.starts = s.rail.starts :=
  forList_eq (·.rail.starts) s.railIds (fun _ _ => by rfl) s

/-- The stops that are not over stay (R180). -/
theorem finishStops_of_not_tripLatched (h : s.aud.tripLatched = false) : finishStops s =
    forList (s.rail.stops.filter (stopOver s)) (fun q => emitRail 0x3002 q.rails (b2n q.fast) q.cause 0)
      (s.onRail fun r => { r with stops := r.stops.filter fun q => !stopOver s q }) := by
  simp [finishStops, h]

theorem stopRecs_keeps (l : List StopSeq) (s : State) :
    Keeps [.hm, .hif, .ldg] s (forList l (fun q => emitRail 0x3002 q.rails (b2n q.fast) q.cause 0) s) :=
  forList_keeps l (fun _ _ h => (emitRail_keeps ..).step (by decide) h) (.refl ..)

theorem NoStarts.finishStops (h : NoStarts s) : NoStarts (finishStops s) := by
  unfold Machine.finishStops
  extract_lets ended s1
  have h1 : NoStarts s1 := by rw [NoStarts, (stopRecs_keeps ..).rail_eq rfl]; exact h
  split
  · exact h1.of_eq (latchAll_starts s1)
  · exact h1

theorem brakeStop_starts (r : Nat) (s : State) : (brakeStop r s).rail.starts = s.rail.starts := by
  unfold brakeStop
  dsimp only
  split
  · rfl
  · split
    · rw [(emitRail_keeps ..).rail_eq rfl]; rfl
    · rfl

theorem railPenLow_starts (r : Nat) (s : State) : (railPenLow r s).rail.starts = s.rail.starts :=
  forList_eq (·.rail.starts) _ (fun _ _ => by rfl) s

theorem railPhasesTo_starts (r k : Nat) (s : State) : (railPhasesTo r k s).rail.starts = s.rail.starts :=
  forList_eq (·.rail.starts) _ (fun _ _ => by rfl) s

theorem stopClustersOf_rail (r : Nat) (s : State) : (stopClustersOf r s).rail = s.rail := (stopClustersOf_keeps r s).rail_eq rfl

theorem railFault_starts (cause r : Nat) (s : State) : (railFault cause r s).rail.starts = s.rail.starts := by
  unfold railFault
  split
  · rfl
  · calc _ = (stopClustersOf r (railPhasesTo r 1 (railPenLow r (brakeStop r s)))).rail.starts := rfl
      _ = s.rail.starts := by
        rw [stopClustersOf_rail, railPhasesTo_starts, railPenLow_starts, brakeStop_starts]

theorem NoStarts.fastStop (l : List Nat) (cause track : Nat) (h : NoStarts s) : NoStarts (fastStop l cause track s) := by
  unfold Machine.fastStop
  extract_lets act lv s1 q s2
  split
  · exact h
  · have h1 : NoStarts s1 := h.of_eq (forList_eq (·.rail.starts) act (fun r u => by rw [stopClustersOf_rail]) s)
    have h2 : NoStarts s2 := h1.of_eq (forList_eq (·.rail.starts) _ (fun r u => railFault_starts ..) s1)
    exact (NoStarts.finishStops (s := s2.onRail fun x => { x with stops := x.stops ++ [q] }) h2).finishStart

theorem NoStarts.rampDown (q : StopSeq) (r : Nat) (h : NoStarts s) : NoStarts (rampDown q r s) :=
  NoStarts.step (masterFaults_keeps ..) rfl (NoStarts.fastStop _ _ _ (h.of_eq (by rfl)))

theorem NoStarts.rampDownLevels (h : NoStarts s) : NoStarts (rampDownLevels s) := by
  refine forList_ind (P := NoStarts) (fun q _ u hu => ?_) h
  extract_lets rails waiting lv
  split
  · exact hu
  · exact forList_ind (P := NoStarts) (fun r _ _ hv => hv.rampDown q r) hu

theorem NoStarts.railSettle (h : NoStarts s) : NoStarts (railSettle s) := h.rampDownLevels.finishStops.finishStart

end Starts

/-- Rail `r` is in FAULT for this cause, with no start in progress and no latched trip. -/
structure InFault (cause r : Nat) (s : State) : Prop where
  st : (s.getProt r).st = 5
  cause : (s.getProt r).cause = cause
  starts : NoStarts s
  trip : s.aud.tripLatched = false

section Fault
variable {ps : List Area} {s t : State} {cause r : Nat}

theorem InFault.not_running (h : InFault cause r s) : (s.getProt r).running = false := by
  simp [RailProt.running, h.st]

theorem InFault.of_eq (hprot : t.getProt r = s.getProt r) (hst : NoStarts t) (haud : t.aud = s.aud) (h : InFault cause r s) :
    InFault cause r t :=
  ⟨by rw [hprot]; exact h.st, by rw [hprot]; exact h.cause, hst, by rw [haud]; exact h.trip⟩

theorem InFault.step (g : Keeps ps s t) (hp : ps.contains .rail = false) (ha : ps.contains .aud = false) (h : InFault cause r s) :
    InFault cause r t :=
  h.of_eq (getProt_of_rail (g.rail_eq hp) r) (h.starts.step g hp) (g.aud_eq ha)

theorem InFault.updProt {j : Nat} (f : RailProt → RailProt) (hj : r ≠ j) (h : InFault cause r s) : InFault cause r (s.updProt j f) :=
  h.of_eq (State.getProt_updProt_ne _ _ _ hj) h.starts rfl

theorem InFault.updReg (j : Nat) (f : Reg → Reg) (h : InFault cause r s) : InFault cause r (s.updReg j f) :=
  ⟨h.st, h.cause, h.starts, h.trip⟩

theorem finishStart_getProt (h : NoStarts s) (r : Nat) : (finishStart s).getProt r = s.getProt r := by
  rw [finishStart_of_noStarts h]
  rfl

theorem InFault.finishStart (h : InFault cause r s) : InFault cause r (finishStart s) :=
  h.of_eq (finishStart_getProt h.starts r) h.starts.finishStart ((finishStart_keeps s).aud_eq rfl)

theorem finishStops_getProt (h : s.aud.tripLatched = false) (r : Nat) : (finishStops s).getProt r = s.getProt r := by
  rw [finishStops_of_not_tripLatched h, getProt_of_rail ((stopRecs_keeps ..).rail_eq rfl)]
  rfl

theorem InFault.finishStops (h : InFault cause r s) : InFault cause r (finishStops s) :=
  h.of_eq (finishStops_getProt h.trip r) h.starts.finishStops ((finishStops_keeps s).aud_eq rfl)

theorem brakeStop_getProt (j : Nat) (s : State) (r : Nat) : (brakeStop j s).getProt r = s.getProt r := by
  unfold brakeStop
  dsimp only
  split
  · rfl
  · split
    · rw [getProt_of_rail ((emitRail_keeps ..).rail_eq rfl)]; rfl
    · rfl

/-- What precedes the change of a rail's protection state as it faults leaves that state alone. -/
theorem railOff_getProt (j : Nat) (s : State) (r : Nat) :
    (stopClustersOf j (railPhasesTo j 1 (railPenLow j (brakeStop j s)))).getProt r = s.getProt r := by
  rw [getProt_of_rail (stopClustersOf_rail ..), railPhasesTo, forList_eq (State.getProt · r) _ (fun _ _ => by rfl), railPenLow,
    forList_eq (State.getProt · r) _ (fun _ _ => by rfl), brakeStop_getProt]

/-- What a fault makes of a rail's protection state (R181, R182). -/
def faultProt (cause : Nat) (x : RailProt) : RailProt :=
  if x.st = 6 ∨ x.st = 7 then x else { x with st := 5, cause := cause, zeroAt := none }

theorem railFault_getProt (cause j : Nat) (s : State) : (railFault cause j s).getProt j = faultProt cause (s.getProt j) := by
  unfold railFault faultProt
  split
  · rfl
  · calc _ = ((stopClustersOf j (railPhasesTo j 1 (railPenLow j (brakeStop j s)))).updProt j fun x =>
          { x with st := 5, cause := cause, zeroAt := none }).getProt j := rfl
      _ = _ := by rw [State.getProt_updProt, railOff_getProt]

theorem railFault_getProt_ne (cause : Nat) {j : Nat} (s : State) (h : r ≠ j) : (railFault cause j s).getProt r = s.getProt r := by
  unfold railFault
  split
  · rfl
  · calc _ = ((stopClustersOf j (railPhasesTo j 1 (railPenLow j (brakeStop j s)))).updProt j fun x =>
          { x with st := 5, cause := cause, zeroAt := none }).getProt r := rfl
      _ = _ := by rw [State.getProt_updProt_ne _ _ _ h, railOff_getProt]

theorem InFault.railFault (c : Nat) {j : Nat} (hj : r ≠ j) (h : InFault cause r s) : InFault cause r (railFault c j s) :=
  h.of_eq (railFault_getProt_ne c s hj) (h.starts.of_eq (railFault_starts ..)) ((railFault_keeps ..).aud_eq rfl)

theorem InFault.fastStop (l : List Nat) (c track : Nat) (h : InFault cause r s) : InFault cause r (fastStop l c track s) := by
  unfold Machine.fastStop
  extract_lets act lv s1 q s2
  split
  · exact h
  · have hact : ∀ j ∈ act, r ≠ j := by
      rintro j hj rfl
      simp [act, h.not_running] at hj
    have h1 : InFault cause r s1 := forList_ind (P := InFault cause r) (fun j _ u hu => hu.step (stopClustersOf_keeps j u) rfl rfl) h
    have h2 : InFault cause r s2 := forList_ind (P := InFault cause r)
      (fun j hj u hu => hu.railFault _ (hact j (List.mem_filter.mp hj).1)) h1
    exact (InFault.finishStops (s := s2.onRail fun x => { x with stops := x.stops ++ [q] })
      ⟨h2.st, h2.cause, h2.starts, h2.trip⟩).finishStart

theorem InFault.rampDown (q : StopSeq) {j : Nat} (hj : r ≠ j) (h : InFault cause r s) : InFault cause r (rampDown q j s) :=
  InFault.step (masterFaults_keeps ..) rfl rfl (InFault.fastStop _ _ _ ((h.updProt _ hj).updReg ..))

theorem InFault.rampDownLevels (h : InFault cause r s) : InFault cause r (rampDownLevels s) := by
  refine forList_ind (P := InFault cause r) (fun q _ u hu => ?_) h
  extract_lets rails waiting lv
  split
  · exact hu
  · refine forList_ind (P := InFault cause r) (fun j hj _ hv => hv.rampDown q ?_) hu
    rintro rfl
    simp [hu.not_running] at hj

theorem InFault.railSettle (h : InFault cause r s) : InFault cause r (railSettle s) := h.rampDownLevels.finishStops.finishStart

/-- The running rails of the highest level go to FAULT at once (R181). -/
theorem fastStop_inFault {l : List Nat} (hl : l.Nodup) (hr : r ∈ l) (hrun : (s.getProt r).running = true)
    (hlv : (s.railCfg r).level = stopLevel s l) (hstarts : NoStarts s) (htrip : s.aud.tripLatched = false) :
    InFault cause r (fastStop l cause 0 s) := by
  unfold fastStop
  extract_lets act lv s1 q s2
  have hact : r ∈ act := List.mem_filter.mpr ⟨hr, hrun⟩
  have hlevel : stopLevel s act = stopLevel s l := by
    simp [stopLevel, act, List.filter_filter]
  rw [if_neg (List.ne_nil_of_mem hact)]
  have hrail : s1.rail = s.rail := forList_eq (·.rail) act (fun j u => stopClustersOf_rail j u) s
  have haud : s1.aud = s.aud := forList_eq (·.aud) act (fun j u => (stopClustersOf_keeps j u).aud_eq rfl) s
  have hmem : r ∈ act.filter fun r => (s.railCfg r).level = lv := List.mem_filter.mpr ⟨hact, by simp [lv, hlevel, hlv]⟩
  have hprot : s2.getProt r = faultProt cause (s.getProt r) := by
    have h := forList_entry (State.getProt · r) (f := fun r => railFault (q.causeOf r) r) (g := faultProt (q.causeOf r)) (k := r)
      (fun u => railFault_getProt _ r u) (fun j hj u => railFault_getProt_ne _ u (Ne.symm hj)) (l := act.filter fun r => (s.railCfg r).level = lv)
      ((hl.filter _).filter _) s1
    rw [if_pos hmem, getProt_of_rail hrail] at h
    refine h.trans ?_
    have hcause : q.causeOf r = cause := by simp [StopSeq.causeOf, q, bitOf]
    rw [hcause]
  have hfault : faultProt cause (s.getProt r) = { s.getProt r with st := 5, cause := cause, zeroAt := none } := by
    refine if_neg ?_
    simp only [RailProt.running, Bool.or_eq_true, decide_eq_true_eq] at hrun
    omega
  have h2 : InFault cause r s2 := by
    refine ⟨by rw [hprot, hfault], by rw [hprot, hfault], ?_, ?_⟩
    · refine NoStarts.of_eq ?_ hstarts
      rw [← hrail]
      exact forList_eq (·.rail.starts) _ (fun j u => railFault_starts ..) s1
    · have h : s2.aud = s1.aud := forList_eq (·.aud) _ (fun j u => (railFault_keeps ..).aud_eq rfl) s1
      rw [h, haud]; exact htrip
  exact (InFault.finishStops (s := s2.onRail fun x => { x with stops := x.stops ++ [q] })
    ⟨h2.st, h2.cause, h2.starts, h2.trip⟩).finishStart

end Fault

/-- Nothing of the start or stop of a rail is left but its latched fault (R69). -/
structure VanaOff (r : Nat) (s : State) : Prop where
  st : (s.getProt r).st = 7
  latched : (s.getProt r).latched = true
  cause : (s.getProt r).cause = 10
  pen : ∀ p ∈ s.railPhases r, (s.getPh p).pen = false

/-- What the loss of VANA does to a rail (R69). -/
def vanaRail (r : Nat) (t : State) : State :=
  (railPhasesTo r 1 (railPenLow r t)).updProt r fun x => { x with st := 7, latched := true, cause := 10, zeroAt := none }

section Vana
variable {s t : State} {r : Nat}

theorem VanaOff.of_rail (hrail : t.rail = s.rail) (hcfg : t.cfg = s.cfg) (h : VanaOff r s) : VanaOff r t := by
  have hp : t.railPhases r = s.railPhases r := railPhases_of_cfg hcfg r
  refine ⟨by rw [getProt_of_rail hrail, h.st], by rw [getProt_of_rail hrail, h.latched], by rw [getProt_of_rail hrail, h.cause],
    fun p hm => ?_⟩
  rw [getPh_of_rail hrail]
  exact h.pen p (hp ▸ hm)

theorem railPhasesTo_pen (j k p : Nat) (s : State) : ((railPhasesTo j k s).getPh p).pen = (s.getPh p).pen := by
  refine forList_eq (fun u => (u.getPh p).pen) _ (fun i u => ?_) s
  by_cases e : p = i
  · subst e
    rw [State.getPh_updPh]
    split <;> rfl
  · rw [State.getPh_updPh_ne _ _ _ e]

theorem vanaRail_cfg (j : Nat) (s : State) : (vanaRail j s).cfg = s.cfg := by
  rw [vanaRail, State.updProt_cfg, (railPhasesTo_keeps ..).cfg_eq rfl, (railPenLow_keeps ..).cfg_eq rfl]

theorem vanaRail_off (r : Nat) (s : State) : VanaOff r (vanaRail r s) := by
  have hp : (vanaRail r s).railPhases r = s.railPhases r := railPhases_of_cfg (vanaRail_cfg ..) r
  refine ⟨?_, ?_, ?_, fun p hm => ?_⟩
  · rw [vanaRail, State.getProt_updProt]
  · rw [vanaRail, State.getProt_updProt]
  · rw [vanaRail, State.getProt_updProt]
  · rw [hp] at hm
    calc ((vanaRail r s).getPh p).pen = ((railPhasesTo r 1 (railPenLow r s)).getPh p).pen := by rfl
      _ = ((railPenLow r s).getPh p).pen := railPhasesTo_pen ..
      _ = false := forList_phOff_pen hm s

theorem vanaRail_keepsOff (j : Nat) (h : VanaOff r s) : VanaOff r (vanaRail j s) := by
  by_cases e : r = j
  · subst e; exact vanaRail_off r s
  have hprot : (vanaRail j s).getProt r = s.getProt r := by
    rw [vanaRail, State.getProt_updProt_ne _ _ _ e, railPhasesTo, forList_eq (State.getProt · r) _ (fun _ _ => by rfl), railPenLow,
      forList_eq (State.getProt · r) _ (fun _ _ => by rfl)]
  have hp : (vanaRail j s).railPhases r = s.railPhases r := railPhases_of_cfg (vanaRail_cfg ..) r
  refine ⟨by rw [hprot, h.st], by rw [hprot, h.latched], by rw [hprot, h.cause], fun p hm => ?_⟩
  rw [hp] at hm
  calc ((vanaRail j s).getPh p).pen = ((railPhasesTo j 1 (railPenLow j s)).getPh p).pen := by rfl
    _ = ((railPenLow j s).getPh p).pen := railPhasesTo_pen ..
    _ = false := forList_ind (P := fun u => (u.getPh p).pen = false) (fun i _ _ hu => phOff_pen p i hu) (h.pen p hm)

/-- The state from which the loss of VANA turns the rails off. -/
def vanaMark (s : State) : State :=
  (emitRail 0x3081 0 0 0 0 (frecTake 0x3081 0xFF 0xFF (maskOf ((List.range 8).filter fun r => (s.getProt r).running)) 0 0 0 s)).onPwr
    fun p => { p with vanaLoss := true }

theorem vanaMark_keeps (s : State) : Keeps [.pwr, .frec, .hm, .hif, .ldg] s (vanaMark s) :=
  (State.onPwr_keeps ..).step (by decide) <| (emitRail_keeps ..).step (by decide) <| (frecTake_keeps ..).mono (by decide)

theorem vanaRails_keeps (l : List Nat) (s : State) : Keeps [.rail] s (forList l vanaRail s) :=
  forList_keeps l (fun _ _ h => (State.updProt_keeps ..).step (by decide) <| (railPhasesTo_keeps ..).step (by decide) <|
    (railPenLow_keeps ..).step (by decide) h) (.refl ..)

theorem vanaLoss_of_low {ns : Nat} (hns : 1000 ≤ ns) (hok : s.pwr.vanaLoss = false) : vanaLoss ns s =
    setAlarm 9 (stopAllClocks (fun x => { x with stopVana := true })
      ((forList (vanaMark s).railIds vanaRail (vanaMark s)).onRail fun x => { x with starts := [], stops := [] })) := by
  rw [vanaLoss, if_neg (by simp [hok]; omega)]
  rfl

theorem vanaLoss_rail {ns : Nat} (hns : 1000 ≤ ns) (hok : s.pwr.vanaLoss = false) : (vanaLoss ns s).rail =
    { (forList (vanaMark s).railIds vanaRail (vanaMark s)).rail with starts := [], stops := [] } := by
  rw [vanaLoss_of_low hns hok, (setAlarm_keeps ..).rail_eq rfl, (stopAllClocks_keeps ..).rail_eq rfl, State.onRail_rail]

theorem vanaLoss_pwr {ns : Nat} (hns : 1000 ≤ ns) (hok : s.pwr.vanaLoss = false) : (vanaLoss ns s).pwr.vanaLoss = true := by
  rw [vanaLoss_of_low hns hok, setAlarm, State.onPwr_pwr, (stopAllClocks_keeps ..).pwr_eq rfl, State.onRail_pwr,
    (vanaRails_keeps ..).pwr_eq rfl]
  rfl

theorem vanaLoss_off {ns : Nat} (hns : 1000 ≤ ns) (hok : s.pwr.vanaLoss = false) (hr : r ∈ s.railIds) :
    VanaOff r (vanaLoss ns s) := by
  have g := vanaMark_keeps s
  have h1 : VanaOff r (forList (vanaMark s).railIds vanaRail (vanaMark s)) :=
    forList_est (P := VanaOff r) (by rw [g.railIds_eq rfl]; exact hr) (fun j _ hu => vanaRail_keepsOff j hu)
      (fun u => vanaRail_off r u) _
  have hcfg : (vanaLoss ns s).cfg = (forList (vanaMark s).railIds vanaRail (vanaMark s)).cfg := by
    rw [(vanaLoss_keeps ..).cfg_eq rfl, (vanaRails_keeps ..).cfg_eq rfl, g.cfg_eq rfl]
  have hrail := vanaLoss_rail hns hok
  refine VanaOff.of_rail (s := (forList (vanaMark s).railIds vanaRail (vanaMark s)).onRail fun x => { x with starts := [], stops := [] })
    hrail hcfg ⟨h1.st, h1.latched, h1.cause, h1.pen⟩

theorem vanaLoss_dom {ns d : Nat} (hns : 1000 ≤ ns) (hok : s.pwr.vanaLoss = false) (hd : d ∈ s.doms) :
    ((vanaLoss ns s).getDom d).stopped = true := by
  rw [vanaLoss_of_low hns hok, setAlarm_getDom]
  refine stopAllClocks_stopped _ _ ?_
  have g : Keeps [.pwr, .rail, .frec, .hm, .hif, .ldg] s (forList (vanaMark s).railIds vanaRail (vanaMark s)) :=
    (vanaRails_keeps ..).step (by decide) ((vanaMark_keeps s).mono (by decide))
  rw [← g.doms_eq rfl] at hd
  exact hd

end Vana

section Pfail
variable {s : State} {ns : Nat}

/-- The state from which the loss of input power stops the rails (R65). -/
def pfailMark (s : State) : State :=
  emitRail 0x3080 0 0 0 0 (frecTake 0x3080 0xFF 0xFF (maskOf ((List.range 8).filter fun r => (s.getProt r).running)) 0 0 0
    (s.onPwr fun p => { p with pfailLow := true }))

theorem pfailMark_keeps (s : State) : Keeps [.pwr, .frec, .hm, .hif, .ldg] s (pfailMark s) :=
  (emitRail_keeps ..).step (by decide) <| (frecTake_keeps ..).step (by decide) <| (State.onPwr_keeps ..).mono (by decide)

theorem pfailMark_pwr (s : State) : (pfailMark s).pwr = { s.pwr with pfailLow := true } := by
  rw [pfailMark, (emitRail_keeps ..).pwr_eq rfl, (frecTake_keeps ..).pwr_eq rfl]
  rfl

theorem inputFail_of_low (h : 1000 ≤ ns) : inputFail (.low ns) s = setAlarm 10 (fastStopAll 9 (pfailMark s)) :=
  if_neg (by omega)

theorem fastStopAll_noStarts (cause : Nat) (s : State) : NoStarts (fastStopAll cause s) :=
  NoStarts.railSettle (NoStarts.fastStop _ _ _ (by rfl))

theorem fastStopAll_inFault {cause r : Nat} (hr : r ∈ s.railIds) (hrun : (s.getProt r).running = true)
    (hlv : (s.railCfg r).level = stopLevel s s.railIds) (htrip : s.aud.tripLatched = false) :
    InFault cause r (fastStopAll cause s) :=
  InFault.railSettle <| fastStop_inFault (s := s.onRail fun x => { x with starts := [] }) (idxWhere_nodup 8 _) hr hrun hlv rfl htrip

theorem stopLevel_of_eq {t : State} (hrail : t.rail = s.rail) (hcfg : t.cfg = s.cfg) (l : List Nat) : stopLevel t l = stopLevel s l := by
  simp [stopLevel, State.getProt, State.railCfg, hrail, hcfg]

end Pfail

section Vfuse
variable {s : State} {mv : Nat}

theorem vfuseAlarm_of_high (hmv : 500 < mv) (hok : s.fw.vault.alarmed = false) : vfuseAlarm mv s =
    setAlarm 11 (emitVault 0xB162 mv 0 0 0 (((s.onPwr fun p => { p with vfuseHi := decide (500 < mv) }).onFw fun f =>
      { f with vault := { f.vault with vfuseMv := mv } }).onFw fun f => { f with vault := { f.vault with alarmed := true } })) :=
  if_pos ⟨hmv, by simp [hok]⟩

end Vfuse

/-- Settles O15: the pins by the branches of `inputFail`, VANA by `vanaLoss_off`, VFUSE by the two branches of its alarm. -/
theorem supplyFailures : Obligations.SupplyFailures := by
  intro s ns hlive
  refine ⟨fun hlong => ?pfail, fun hshort => act_eq hlive (if_pos hshort), act_of_live hlive _, fun a t h => act_of_live hlive _,
    fun hlong hok => ?vana, fun hshort => act_eq hlive (if_pos (.inl hshort)), fun mv hmv hok => ?vfuse, fun mv hmv => ?quiet⟩
  case pfail =>
    have g := pfailMark_keeps s
    have hstarts := (fastStopAll_noStarts 9 (pfailMark s)).step (setAlarm_keeps 10 _) rfl
    refine ⟨_, act_eq hlive (inputFail_of_low hlong), bitOf_setAlarm 10 _, ?_, hstarts, fun htrip r hr hrun hlv => ?_, ?_⟩
    · rw [setAlarm, State.onPwr_pwr, (fastStopAll_keeps ..).pwr_eq rfl, pfailMark_pwr]
    · have h : InFault 9 r (fastStopAll 9 (pfailMark s)) := fastStopAll_inFault (by rw [g.railIds_eq rfl]; exact hr)
        (by rw [getProt_of_rail (g.rail_eq rfl)]; exact hrun)
        (by rw [g.railIds_eq rfl, stopLevel_of_eq (g.rail_eq rfl) (g.cfg_eq rfl), State.railCfg, g.cfg_eq rfl]; exact hlv)
        (by rw [g.aud_eq rfl]; exact htrip)
      have h' := h.step (setAlarm_keeps 10 _) rfl rfl
      exact ⟨h'.st, h'.cause⟩
    · exact ((setAlarm_keeps ..).step (by decide) <| (fastStopAll_keeps ..).step (by decide) <| g.mono (by decide)).only
  case vana =>
    refine ⟨vanaLoss ns s, act_of_live hlive _, vanaLoss_pwr hlong hok, ?_, by rw [vanaLoss_rail hlong hok], by rw [vanaLoss_rail hlong hok],
      fun r hr => ?_, fun d hd => vanaLoss_dom hlong hok hd, (vanaLoss_keeps ..).only⟩
    · rw [vanaLoss_of_low hlong hok]; exact bitOf_setAlarm 9 _
    · have h := vanaLoss_off hlong hok hr
      refine ⟨h.st, h.latched, h.cause, fun p hp => h.pen p ?_⟩
      have hcfg : (vanaLoss ns s).cfg = s.cfg := (vanaLoss_keeps ..).cfg_eq rfl
      rwa [railPhases_of_cfg hcfg]
  case vfuse =>
    have hrun := vfuseAlarm_of_high hmv hok
    refine ⟨vfuseAlarm mv s, act_of_live hlive _, ?_, ?_, ?_, fun hroom => ?_, (vfuseAlarm_keeps ..).only⟩
    · rw [hrun]; exact bitOf_setAlarm 11 _
    · rw [hrun]; simp [setAlarm, emitVault]
    · rw [hrun]; simp [setAlarm, emitVault, hmv]
    · rw [hrun]
      refine Logs.of_queue (emit_logs_after (ps := [.pwr, .fw]) ?_ (by decide) (by decide) (by decide) (by decide) hroom)
        ((setAlarm_keeps ..).queue rfl _)
      exact (State.onFw_keeps ..).step (by decide) <| (State.onFw_keeps ..).step (by decide) <| (State.onPwr_keeps ..).mono (by decide)
  case quiet =>
    refine act_eq hlive (if_neg ?_)
    rintro ⟨h1, h2⟩
    rcases hmv with h | h
    · omega
    · simp [h] at h2

end Sys2Proof.Machine
end

section
/-!
The manager port and the subordinate port (chapter 02): responses, failures, tags, and the port's own reset.
-/
namespace Sys2Proof.Machine

section Free
variable {t : Nat} {r : HmReq} {s : State}

/-- With no read waiting, a freed tag is only freed (R36). -/
theorem hmFree_of_idle (h : s.hm.waiting = []) : hmFree t s = s.onHm fun h => { h with reqs := Tbl.set none h.reqs t none } := by
  have hturn : (s.onHm fun h => { h with reqs := Tbl.set none h.reqs t none }).hmTurn = none := by simp [State.hmTurn, h]
  unfold hmFree hmNext
  rw [hturn]
  split
  · next he => cases he
  · rfl

/-- A request that has not failed fails now (R38). -/
theorem hmFail_of_open (hr : s.hmReq t = some r) (hopen : r.failed = none) : hmFail t s = hmConsumerFail r.purpose
    (s.onHm fun h => { h with reqs := Tbl.set none h.reqs t (some { r with failed := some s.now }) }) := by
  simp [hmFail, hr, hopen]

section Response
variable (hr : s.hmReq t = some r)
include hr

theorem hmResponse_of_error (hopen : r.failed = none) (htime : s.now ≤ r.issued + 100000) (data : List Nat) :
    hmResponse t false data s = hmFail t s := by
  have hnot : ¬ r.issued + 100 * nsPerUs < s.now := Nat.not_lt.mpr htime
  simp [hmResponse, hr, hopen, hnot]

theorem hmResponse_of_ok (hopen : r.failed = none) (htime : s.now ≤ r.issued + 100000) (hwait : s.hm.waiting = [])
    (hpage : s.tly.page = none) (data : List Nat) :
    hmResponse t true data s = s.onHm fun h => { h with reqs := Tbl.set none h.reqs t none } := by
  have hnot : ¬ r.issued + 100 * nsPerUs < s.now := Nat.not_lt.mpr htime
  have hfree := hmFree_of_idle (t := t) hwait
  have hpg : (hmFree t s).tly.page = none := by rw [hfree]; exact hpage
  simp only [hmResponse, hr, hopen, Option.isSome_none, Bool.false_eq_true, if_false, hnot, Bool.not_true]
  rw [← hfree]
  split
  · simp [pageArrive, hpg]
  · rfl

theorem hmTimeout_of_late (hlate : r.issued + 100000 ≤ s.now) : hmTimeout t s = hmFail t s := by
  have h : r.issued + 100 * nsPerUs ≤ s.now := hlate
  simp [hmTimeout, hr, h]

theorem hmTimeout_of_early (hearly : s.now < r.issued + 100000) : hmTimeout t s = s := by
  have h : ¬ r.issued + 100 * nsPerUs ≤ s.now := Nat.not_le.mpr hearly
  simp [hmTimeout, hr, h]

theorem hmTagRelease_of_due {f : Nat} (hf : r.failed = some f) (hdue : f + 1000000 ≤ s.now) : hmTagRelease t s = hmFree t s := by
  have h : f + nsPerMs ≤ s.now := hdue
  simp [hmTagRelease, hr, hf, h]

theorem hmTagRelease_of_early {f : Nat} (hf : r.failed = some f) (hearly : s.now < f + 1000000) : hmTagRelease t s = s := by
  have h : ¬ f + nsPerMs ≤ s.now := Nat.not_le.mpr hearly
  simp [hmTagRelease, hr, hf, h]

end Response
end Free

/-- The port is in reset, and the request of tag `j`, if there is one, has failed. -/
def DeadReq (j : Nat) (s : State) : Prop := s.hm.inReset = true ∧ ∀ q, s.hmReq j = some q → q.failed ≠ none

section Dead
variable {ps : List Area} {s t : State} {j : Nat}

theorem DeadReq.of_eq (h1 : t.hm.inReset = s.hm.inReset) (h2 : t.hm.reqs = s.hm.reqs) (h : DeadReq j s) : DeadReq j t := by
  rwa [DeadReq, State.hmReq, h1, h2]

theorem DeadReq.posted (g : Posted s t) (h : DeadReq j s) : DeadReq j t := h.of_eq g.inReset g.reqs

theorem DeadReq.step (g : Keeps ps s t) (hp : ps.contains .hm = false) (h : DeadReq j s) : DeadReq j t := h.posted (g.posted hp)

/-- What a step does to the port's requests one by one: each stays as it is, or is replaced by a failed one or one that has failed
as it had. -/
theorem DeadReq.onHm {f : HmPort → HmPort} (h1 : (f s.hm).inReset = s.hm.inReset)
    (h2 : ∀ q, Tbl.get none (f s.hm).reqs j = some q → q.failed ≠ none ∨ ∃ q', s.hmReq j = some q' ∧ q.failed = q'.failed)
    (h : DeadReq j s) : DeadReq j (s.onHm f) := by
  refine ⟨h1.trans h.1, fun q hq => ?_⟩
  rcases h2 q hq with hf | ⟨q', hq', he⟩
  · exact hf
  · rw [he]
    exact h.2 q' hq'

/-- Reads dropped from the port keep whether they failed. -/
theorem DeadReq.hmDrop (p : HmPurpose → Bool) (h : DeadReq j s) : DeadReq j (hmDrop p s) := by
  refine forList_ind (P := DeadReq j) (fun t _ u hu => ?_) (h.of_eq (t := s.onHm fun h =>
    { h with waiting := h.waiting.filter fun r => !p r.purpose }) rfl rfl)
  refine hu.onHm ?_ fun q hq => ?_
  · split
    · split <;> rfl
    · rfl
  · split at hq
    · next r hr =>
      split at hq
      · by_cases e : j = t
        · subst e
          rw [Tbl.get_set_self] at hq
          cases hq
          exact .inr ⟨r, hr, rfl⟩
        · rw [Tbl.get_set_ne _ _ e] at hq
          exact .inr ⟨q, hq, rfl⟩
      · exact .inr ⟨q, hq, rfl⟩
    · exact .inr ⟨q, hq, rfl⟩

theorem DeadReq.xferEnd (k st : Nat) (h : DeadReq j s) : DeadReq j (xferEnd k st s) :=
  DeadReq.step (State.updChan_keeps ..) rfl (h.hmDrop _)

theorem DeadReq.complete (hdr : DescHdr) (op st res : Nat) (h : DeadReq j s) : DeadReq j (complete hdr op st res s) :=
  h.posted (complete_posted ..)

theorem xferIssue_posted (l : List (Nat × HmWrite)) (n : Nat) (s : State) : Posted s (xferIssue l n s) := by
  induction l generalizing n s with
  | nil => exact .refl s
  | cons x l ih =>
    obtain ⟨e, w⟩ := x
    unfold xferIssue
    exact .ite (.refl s) ((hmWrite_posted w s).trans (ih ..))

theorem DeadReq.frecCopyDone (x : Xfer) (st n : Nat) (h : DeadReq j s) : DeadReq j (frecCopyDone x st n s) := by
  unfold Machine.frecCopyDone
  extract_lets m s1 s2
  have h1 : DeadReq j s1 := h.posted (forList_posted _ (fun _ _ => hmWrite_posted ..) s)
  have h2 : DeadReq j s2 := h1.xferEnd ..
  split
  · exact h2.complete ..
  · exact h2

theorem DeadReq.singleDone (k : Nat) (x : Xfer) (ok : Bool) (n : Nat) (data : List Nat) (h : DeadReq j s) :
    DeadReq j (singleDone k x ok n data s) := by
  unfold Machine.singleDone
  extract_lets ws tot m s1
  have h1 : DeadReq j s1 := (h.posted (xferIssue_posted ..)).xferEnd ..
  split
  · exact h1.complete ..
  · exact h1

theorem DeadReq.streamEnd (k : Nat) (h : DeadReq j s) : DeadReq j (streamEnd k s) := by
  unfold Machine.streamEnd
  extract_lets c s1
  have h1 : DeadReq j s1 := h.step (State.updChan_keeps ..) rfl
  split
  · exact h1.complete ..
  · exact h1

theorem DeadReq.streamDone (k : Nat) (x : Xfer) (ok : Bool) (n : Nat) (data : List Nat) (h : DeadReq j s) :
    DeadReq j (streamDone k x ok n data s) := by
  unfold Machine.streamDone
  extract_lets c buf ws s1 s2 s3
  have h1 : DeadReq j s1 := h.posted (xferIssue_posted ..)
  have h2 : DeadReq j s2 := by
    simp only [s2]
    split
    · exact DeadReq.step (State.updChan_keeps ..) rfl (h1.posted (hmWrite_posted ..))
    · exact h1.posted (emit_posted ..)
  have h3 : DeadReq j s3 := h2.xferEnd ..
  split
  · exact h3.streamEnd k
  · exact h3

theorem ldgEcc_posted (k : Nat) (s : State) : Posted s (ldgEcc k s) := by
  unfold ldgEcc
  extract_lets r
  exact .ite (.refl s) (Posted.trans (.of_eq rfl) (emit_posted ..))

theorem DeadReq.drainDone (x : Xfer) (ok : Bool) (bad : List Nat) (h : DeadReq j s) : DeadReq j (drainDone x ok bad s) := by
  unfold Machine.drainDone
  extract_lets ks u w s1 s2
  have hu : DeadReq j u := h.posted (forList_posted _ (fun _ _ => ldgEcc_posted ..) s)
  have hw : DeadReq j (if x.num = 0 then u else w) := by
    split
    · exact hu
    · exact hu.posted (hmWrite_posted ..)
  have h1 : DeadReq j s1 := by
    simp only [s1]
    split
    · exact hw.of_eq rfl rfl
    · exact h
  have h2 : DeadReq j s2 := h1.xferEnd ..
  split
  · exact h2.complete ..
  · exact h2

theorem DeadReq.transferDone (k : Nat) (ok : Bool) (n : Nat) (data bad : List Nat) (h : DeadReq j s) :
    DeadReq j (transferDone k ok n data bad s) := by
  unfold Machine.transferDone
  split
  · exact h
  · split
    · exact h
    · split
      · exact h.singleDone ..
      · exact h.streamDone ..
      · exact h.drainDone ..
      · exact h.frecCopyDone ..

theorem DeadReq.transferFail (k : Nat) (h : DeadReq j s) : DeadReq j (transferFail k s) := by
  unfold Machine.transferFail
  split
  · exact h
  · split
    · exact h.frecCopyDone ..
    · exact h.transferDone ..

theorem DeadReq.pageEnd (code p1 : Nat) (h : DeadReq j s) : DeadReq j (pageEnd code p1 s) := by
  unfold Machine.pageEnd
  dsimp only
  split
  · exact h
  · have hd : ∀ (p : HmPurpose → Bool) f, DeadReq j ((Machine.hmDrop p s).onTly f) := fun p f =>
      (h.hmDrop p).step (State.onTly_keeps ..) rfl
    split
    · exact hd ..
    · split
      · exact ((hd ..).step (State.updSet_keeps ..) rfl).posted (emit_posted ..)
      · exact (hd ..).posted (emit_posted ..)

theorem DeadReq.consumerFail (p : HmPurpose) (h : DeadReq j s) : DeadReq j (hmConsumerFail p s) := by
  cases p with
  | dma k => exact h.transferFail k
  | dropped => exact h
  | page k pg =>
    unfold hmConsumerFail
    dsimp only
    split
    · exact h.pageEnd ..
    · exact h

/-- The failure of one tag's request is that of its own; the others stay as they are. -/
theorem hmFail_dead {i : Nat} (hin : s.hm.inReset = true) (h : j = i ∨ DeadReq j s) : DeadReq j (hmFail i s) := by
  unfold hmFail
  split
  · next r hr =>
    split
    · next hf =>
      rcases h with rfl | h
      · exact ⟨hin, fun q hq => by rw [hr] at hq; cases hq; exact Option.isSome_iff_ne_none.mp hf⟩
      · exact h
    · refine DeadReq.consumerFail _ ⟨hin, fun q hq => ?_⟩
      by_cases e : j = i
      · subst e
        rw [State.hmReq, State.onHm_hm, Tbl.get_set_self] at hq
        cases hq
        exact Option.some_ne_none _
      · rw [State.hmReq, State.onHm_hm, Tbl.get_set_ne _ _ e] at hq
        exact (h.resolve_left e).2 q hq
  · next hr =>
    rcases h with rfl | h
    · exact ⟨hin, fun q hq => by rw [hr] at hq; cases hq⟩
    · exact h

theorem hmFail_inReset (i : Nat) (hin : s.hm.inReset = true) : (hmFail i s).hm.inReset = true :=
  (hmFail_dead (j := i) hin (.inl rfl)).1

/-- The port's reset fails every outstanding request (R39). -/
theorem hmPortReset_dead (s : State) (hj : j < 32) : DeadReq j (hmPortReset s) := by
  refine forList_ind (P := DeadReq j) (fun k _ u hu => hu.transferFail k) ?_
  exact forList_est_of (P := DeadReq j) (Q := fun u => u.hm.inReset = true) (f := hmFail) (l := List.range 32)
    (List.mem_range.mpr hj) (fun i u hu => hmFail_inReset i hu) (fun i u hu h => hmFail_dead hu (.inr h))
    (fun u hu => hmFail_dead hu (.inl rfl)) rfl

end Dead

section Release
variable {s : State}

/-- Reads that get a tag leave the posted writes alone. -/
theorem hmNext_writes (s : State) : (hmNext s).hm.out = s.hm.out ∧ (hmNext s).hm.held = s.hm.held ∧
    (hmNext s).hm.inReset = s.hm.inReset := by
  unfold hmNext
  split
  · exact ⟨rfl, rfl, rfl⟩
  · exact ⟨rfl, rfl, rfl⟩

theorem hmPump_writes (s : State) : (hmPump s).hm.out = s.hm.out ∧ (hmPump s).hm.held = s.hm.held ∧
    (hmPump s).hm.inReset = s.hm.inReset :=
  forList_ind (P := fun u => u.hm.out = s.hm.out ∧ u.hm.held = s.hm.held ∧ u.hm.inReset = s.hm.inReset)
    (fun _ _ u hu => by
      obtain ⟨h1, h2, h3⟩ := hmNext_writes u
      exact ⟨h1.trans hu.1, h2.trans hu.2.1, h3.trans hu.2.2⟩) ⟨rfl, rfl, rfl⟩

end Release

/-- Settles O16: each command of the port at its condition; a request that has failed stays failed through what follows. -/
theorem portResetsAndResponses : Obligations.PortResetsAndResponses := by
  intro s t r data
  refine ⟨rfl, fun hlive hr => ⟨fun hopen htime hwait hpage => ?ok, fun hopen htime => ?error, fun hopen hlate => ?late,
      fun hearly => ?early, fun f hf hdue hwait => ?free, fun f hf hearly => ?kept⟩,
    fun hlive => ?reset, fun hlive hin => ⟨fun hup => ?resume, fun hrun hrec => ?release⟩⟩
  case ok => exact act_eq hlive (hmResponse_of_ok hr hopen htime hwait hpage _)
  case error => exact act_eq hlive ((hmResponse_of_error hr hopen htime _).trans (hmFail_of_open hr hopen))
  case late => exact act_eq hlive ((hmTimeout_of_late hr hlate).trans (hmFail_of_open hr hopen))
  case early => exact act_eq hlive (hmTimeout_of_early hr hearly)
  case free => exact act_eq hlive ((hmTagRelease_of_due hr hf hdue).trans (hmFree_of_idle hwait))
  case kept => exact act_eq hlive (hmTagRelease_of_early hr hf hearly)
  case reset =>
    exact ⟨hmPortReset s, act_of_live hlive _, (hmPortReset_dead s (j := 0) (by decide)).1,
      fun j hj => (hmPortReset_dead s hj).2, (hmPortReset_keeps s).only⟩
  case resume =>
    have hrun : hmRelease s = hmPump ((s.onHm fun h => { h with inReset := false }).onHm fun h =>
        { h with out := h.out ++ h.held, held := [] }) := by
      have hup' : (s.fw.run || s.fw.recovery) = true := by simpa using hup
      simp [hmRelease, hin, hup', hmResume]
    obtain ⟨h1, h2, h3⟩ := hmPump_writes ((s.onHm fun h => { h with inReset := false }).onHm fun h =>
        { h with out := h.out ++ h.held, held := [] })
    rw [← hrun] at h1 h2 h3
    exact ⟨hmRelease s, act_of_live hlive _, h3, h2, h1, (hmRelease_keeps s).only⟩
  case release => exact act_eq hlive (by simp [hmRelease, hin, hrun, hrec])

end Sys2Proof.Machine
end

section
/-!
The ceiling port (chapters 02 and 09): updates, acknowledgements in time, and updates that are late.
-/
namespace Sys2Proof.Machine

/-- Two changes of a port that agree on the port as it is are the same change. -/
theorem updCp_congr {s : State} {c : Nat} {f g : CpPort → CpPort} (h : f (s.getCp c) = g (s.getCp c)) : s.updCp c f = s.updCp c g := by
  unfold State.updCp Tbl.upd State.getCp at *
  rw [h]

section Update
variable (s : State)

/-- The port of a cluster after an update, given its ceiling and its domain's divider. -/
def portUpdate (x : Clu) (d : Dom) (now : Nat) (p : CpPort) : CpPort :=
  { p with slope := slopeCode x p.ceil, ceil := x.ceil, div := d.code, dpend := d.sent.isSome, num := p.num + 1,
           open_ := p.open_ ++ [{ num := p.num + 1, issued := now, ceil := x.ceil }] }

theorem ceilUpdate_eq (c : Nat) : ceilUpdate c s =
    (s.updCp c (portUpdate (s.getClu c) (s.getDom (s.cluCfg c).dom) s.now)).updClu c fun y => { y with stepDown := false } := rfl

/-- A cluster's port and state after its turn in an update. -/
theorem ceilUpdate_self (c : Nat) : ((ceilUpdate c s).getCp c, (ceilUpdate c s).getClu c) =
    (portUpdate (s.getClu c) (s.getDom (s.cluCfg c).dom) s.now (s.getCp c), { s.getClu c with stepDown := false }) := by
  rw [ceilUpdate_eq, State.getClu_updClu, getCp_of_cp (State.updClu_cp ..), State.getCp_updCp]
  rfl

theorem ceilUpdate_other {j c : Nat} (h : j ≠ c) : ((ceilUpdate j s).getCp c, (ceilUpdate j s).getClu c) = (s.getCp c, s.getClu c) := by
  rw [ceilUpdate_eq, State.getClu_updClu_ne _ _ _ (Ne.symm h), getCp_of_cp (State.updClu_cp ..), State.getCp_updCp_ne _ _ _ (Ne.symm h)]
  rfl

/-- Every configured cluster's port and state after an update. -/
theorem ceilUpdates_entry {c : Nat} (hc : c ∈ s.clusters) :
    (forList s.clusters ceilUpdate s).getCp c = portUpdate (s.getClu c) (s.getDom (s.cluCfg c).dom) s.now (s.getCp c) ∧
      (forList s.clusters ceilUpdate s).getClu c = { s.getClu c with stepDown := false } := by
  have h := forList_entry_of (fun u => (u.getCp c, u.getClu c)) (f := ceilUpdate) (k := c)
    (Q := fun u => u.clk = s.clk ∧ u.cfg = s.cfg ∧ u.now = s.now)
    (g := fun e => (portUpdate e.2 (s.getDom (s.cluCfg c).dom) s.now e.1, { e.2 with stepDown := false }))
    (fun _ _ hu => hu) (fun u hu => ?_) (fun j hj u _ => ceilUpdate_other u hj) (clusters_nodup s) ⟨rfl, rfl, rfl⟩
  · rw [if_pos hc] at h
    exact Prod.mk.inj h
  · obtain ⟨hclk, hcfg, hnow⟩ := hu
    rw [ceilUpdate_self, getDom_of_clk hclk, hnow, State.cluCfg, hcfg]
    rfl

end Update

section One
variable {c : Nat} {u : CpUpd} {s : State} (hopen : (s.getCp c).open_ = [u])
include hopen

/-- An acknowledgement in time of the one update that is open, with no backstop (R45). -/
theorem cpAck_of_inTime {echo a : Nat} {lim : Bool} (hecho : u.num ≤ (s.getCp c).echoed echo) (htime : s.now ≤ u.issued + 500)
    (hback : (s.getCp c).backFrom = none) : cpAck c echo a lim s =
    (s.updCp c fun q => { q with act := a, lim := lim, open_ := [] }).updClu c fun x =>
      { x with actSum := x.actSum + a, limSum := x.limSum + b2n lim, actN := x.actN + 1 } := by
  have hs1 : (s.updCp c fun q => { q with act := a, lim := lim, open_ := q.open_.filter fun u => decide ((s.getCp c).echoed echo < u.num) }) =
      s.updCp c fun q => { q with act := a, lim := lim, open_ := [] } :=
    updCp_congr (by simp [hopen, hecho])
  have hlate : ¬ u.issued + 500 < (s.updCp c fun q => { q with act := a, lim := lim, open_ := [] }).now :=
    Nat.not_lt.mpr htime
  have hnone : ((cpCount c a lim (s.updCp c fun q => { q with act := a, lim := lim, open_ := [] })).getCp c).backFrom = none := by
    rw [getCp_of_cp ((cpCount_keeps c a lim _).cp_eq rfl), State.getCp_updCp]
    exact hback
  unfold cpAck
  dsimp only
  rw [hs1, hopen, List.filter_cons_of_pos (by simpa using hecho), List.filter_nil, forList_cons, forList_nil, if_neg hlate]
  unfold cpOnTime
  dsimp only
  rw [hnone]
  rfl

/-- The one update that is open is late (R46). -/
theorem cpExpire_of_late (hlate : u.issued + 500 ≤ s.now) : cpExpire c s =
    cpLate c u.num (cpCount c u.ceil false (s.updCp c fun q => { q with open_ := [] })) := by
  have hs1 : (s.updCp c fun q => { q with open_ := q.open_.filter fun u => decide (s.now < u.issued + 500) }) =
      s.updCp c fun q => { q with open_ := [] } := updCp_congr (by simp [hopen, hlate])
  unfold cpExpire
  dsimp only
  rw [hs1, hopen, List.filter_cons_of_pos (by simpa using hlate), List.filter_nil, forList_cons, forList_nil]

/-- No update that is open is late. -/
theorem cpExpire_of_early (hearly : s.now < u.issued + 500) : (cpExpire c s).getCp c = s.getCp c ∧ (cpExpire c s).loop = s.loop ∧
    Only [.cp] s (cpExpire c s) := by
  have h : cpExpire c s = s.updCp c fun q => { q with open_ := q.open_.filter fun u => decide (s.now < u.issued + 500) } := by
    unfold cpExpire
    dsimp only
    rw [hopen, List.filter_cons_of_neg (by simpa using hearly), List.filter_nil, forList_nil]
  rw [h]
  refine ⟨?_, State.updCp_loop .., (State.updCp_keeps ..).only⟩
  have hkeep : (s.getCp c).open_.filter (fun u => decide (s.now < u.issued + 500)) = (s.getCp c).open_ := by
    rw [hopen, List.filter_cons_of_pos (by simpa using hearly), List.filter_nil]
  rw [State.getCp_updCp, hkeep]

end One

/-- The first late update of a cluster starts its backstop (R46). -/
theorem cpLate_of_first {c : Nat} {s : State} (num : Nat) (hfirst : (s.getClu c).cpLate = none) :
    ((cpLate c num s).getCp c) = { s.getCp c with onTime := 0, backFrom := some ((s.getCp c).num + 1) } ∧
      (cpLate c num s).getClu c = { s.getClu c with cpLate := some s.now } := by
  unfold cpLate
  dsimp only
  rw [if_neg (by simp [hfirst])]
  have hd := cpDiv_keeps c ((s.updCp c fun p => { p with onTime := 0 }).updClu c fun x => { x with cpLate := some s.now })
  constructor
  · rw [getCp_of_cp ((emitCp_keeps ..).cp_eq rfl), State.getCp_updCp, getCp_of_cp (hd.cp_eq rfl),
      getCp_of_cp (State.updClu_cp ..), State.getCp_updCp]
  · rw [getClu_of_loop ((emitCp_keeps ..).loop_eq rfl), getClu_of_loop (State.updCp_loop ..), getClu_of_loop (hd.loop_eq rfl),
      State.getClu_updClu, getClu_of_loop (State.updCp_loop ..)]

/-- A late update counts its own ceiling as activity and starts the backstop of its cluster. -/
theorem cpExpire_late_effect {c : Nat} {u : CpUpd} {s : State} (hopen : (s.getCp c).open_ = [u]) (hlate : u.issued + 500 ≤ s.now)
    (hfirst : (s.getClu c).cpLate = none) :
    ((cpExpire c s).getCp c).open_ = [] ∧ ((cpExpire c s).getClu c).cpLate = some s.now ∧
      ((cpExpire c s).getCp c).backFrom = some ((s.getCp c).num + 1) ∧
      ((cpExpire c s).getClu c).actSum = (s.getClu c).actSum + u.ceil ∧
      ((cpExpire c s).getClu c).actN = (s.getClu c).actN + 1 := by
  have hclu : (cpCount c u.ceil false (s.updCp c fun q => { q with open_ := [] })).getClu c =
      { s.getClu c with actSum := (s.getClu c).actSum + u.ceil, limSum := (s.getClu c).limSum + b2n false,
                        actN := (s.getClu c).actN + 1 } := by
    unfold cpCount
    rw [State.getClu_updClu, getClu_of_loop (State.updCp_loop ..)]
  have hcp : (cpCount c u.ceil false (s.updCp c fun q => { q with open_ := [] })).getCp c = { s.getCp c with open_ := [] } := by
    rw [getCp_of_cp ((cpCount_keeps ..).cp_eq rfl), State.getCp_updCp]
  obtain ⟨h1, h2⟩ := cpLate_of_first u.num (s := cpCount c u.ceil false (s.updCp c fun q => { q with open_ := [] }))
    (by rw [hclu]; exact hfirst)
  rw [cpExpire_of_late hopen hlate, h1, h2, hclu, hcp]
  exact ⟨rfl, rfl, rfl, rfl, rfl⟩

/-- Settles O17. -/
theorem ceilingUpdatesAndAcknowledgements : Obligations.CeilingUpdatesAndAcknowledgements := by
  intro s hlive
  refine ⟨⟨_, act_eq hlive rfl, fun c hc => ?_, ?_⟩, ?_, ?_⟩
  · obtain ⟨hp, hx⟩ := ceilUpdates_entry s hc
    rw [hp]
    exact ⟨rfl, rfl, rfl, rfl, hx⟩
  · exact (forList_keeps _ (fun c u h => h.trans (ceilUpdate_keeps c u)) (Keeps.refl _ _)).only
  · intro c echo a lim u hpresent hopen hecho htime hback
    refine act_eq hlive ?_
    rw [if_pos hpresent]
    exact cpAck_of_inTime hopen hecho htime hback
  · intro c u hopen
    refine ⟨fun hlate hfirst => ?_, fun hearly => ?_⟩
    · obtain ⟨h1, h2, h3, h4, h5⟩ := cpExpire_late_effect hopen hlate hfirst
      exact ⟨_, act_eq hlive rfl, h1, h2, h3, h4, h5, (cpExpire_keeps c.val s).only⟩
    · obtain ⟨h1, h2, h3⟩ := cpExpire_of_early hopen hearly
      exact ⟨_, act_eq hlive rfl, h1, h2, h3⟩

end Sys2Proof.Machine
end

section
/-!
Frames (chapter 03): a frame's number and start stand from its boundary to its commit.
-/
namespace Sys2Proof.Machine

/-- What names the frame: its number, its start, and whether one has been started and is in progress. -/
def Frames.head (f : Frames) : Nat × Nat × Bool × Bool := (f.number, f.frameStart, f.started, f.inFrame)

variable (s : State)

theorem loopBackstop_head (k : Nat) : (loopBackstop k s).frm.head = s.frm.head := by
  unfold loopBackstop
  split
  · rfl
  · split
    · refine forList_eq (fun u => u.frm.head) _ (fun c u => ?_) s
      rw [emitCp, emit_frm, (capCluster_keeps ..).frm_eq rfl]
      exact forList_eq (fun v => v.frm.head) (List.range u.slots.length) (f := fun i => State.updRt i _) (fun _ _ => by rfl) u
    · rfl

theorem shedDue_head : (shedDue s).frm.head = s.frm.head := by
  unfold shedDue
  dsimp only
  split
  · rfl
  · split
    · rfl
    · rw [emitClk, emit_frm]; rfl

theorem restoreLevel_head (cause : Nat) : (restoreLevel cause s).frm.head = s.frm.head := by
  rw [restoreLevel, emitClk, emit_frm]; rfl

theorem restoreDue_head : (restoreDue s).frm.head = s.frm.head := by
  unfold restoreDue
  dsimp only
  split
  · exact restoreLevel_head s 0
  · rfl

theorem hostShed_head : (hostShed s).frm.head = s.frm.head := by
  unfold hostShed
  dsimp only
  split
  · rw [emitClk, emit_frm]; rfl
  · split
    · exact restoreLevel_head _ 1
    · rfl

theorem requiredBack_head : (requiredBack s).frm.head = s.frm.head := by
  unfold requiredBack
  split <;> rfl

theorem tableInstall_head : (tableInstall s).frm.head = s.frm.head := by
  unfold tableInstall
  split
  · rfl
  · refine (forList_eq (fun u => u.frm.head) _ (fun p u => ?_) _).trans rfl
    split
    · split
      · rfl
      · rw [(progFree_keeps ..).frm_eq rfl]; rfl
    · rfl

theorem frameBoundary_head : (frameBoundary s).frm.head = s.frm.head := by
  unfold frameBoundary
  dsimp only
  rw [(hintEpochs_keeps _).frm_eq rfl,
    (forList_keeps _ (fun c u h => h.trans (hintDue_keeps c u)) (Keeps.refl _ _)).frm_eq rfl,
    (trsBoundary_keeps _).frm_eq rfl, (clrBoundary_keeps _).frm_eq rfl, (loopBoundary_keeps _).frm_eq rfl, tableInstall_head,
    requiredBack_head, hostShed_head, restoreDue_head, shedDue_head,
    forList_eq (fun u => u.frm.head) _ (fun k u => loopBackstop_head u k), (cubeRejoins_keeps _).frm_eq rfl,
    (cubeSwaps_keeps s).frm_eq rfl]

/-- Planning a frame's slots changes their runs alone. -/
theorem planSlots_frm : ∃ rt, (planSlots s).frm = { s.frm with rt := rt } := by
  refine forList_ind (P := fun u : State => ∃ rt, u.frm = { s.frm with rt := rt }) (fun k _ u hu => ?_) ⟨s.frm.rt, rfl⟩
  obtain ⟨rt, hrt⟩ := hu
  exact ⟨_, by rw [State.updRt, State.onFrm_frm, hrt]⟩

theorem slotFail_head (k : Nat) : (slotFail k s).frm.head = s.frm.head := by
  unfold slotFail
  dsimp only
  split
  · rw [emitClk, emit_frm]; rfl
  · rfl

theorem missRest_head : (missRest s).frm.head = s.frm.head :=
  forList_eq (fun u => u.frm.head) _ (fun k u => by split <;> [exact slotFail_head u k; rfl]) s

theorem commitSlots_head : (commitSlots s).frm.head = s.frm.head :=
  (forList_eq (fun u => u.frm.head) _ (fun k u => congrArg Frames.head ((commitSlot_keeps k u).frm_eq rfl)) _).trans rfl

theorem frameCounts_head : (frameCounts s).frm.head = s.frm.head := by
  unfold frameCounts
  dsimp only
  split <;> rfl

/-- The state whose boundary `frameStart` takes: the frame is named and the clock's step noted. -/
def frameNamed (ps : Nat) (s : State) : State :=
  let n := s.now / s.frameNs
  let k := if s.frm.started then s.frm.count + max 1 ((n * s.frameNs - s.frm.frameStart) / s.frameNs) else n
  (s.onFrm fun x => { x with number := n, count := k, frameStart := n * s.frameNs, started := true, done := [] }).onTb fun t =>
    { t with stepPs := satU 16 ps, stepMaxPs := max t.stepMaxPs (satU 16 ps) }

/-- The state in which the frame's slots are planned. -/
def frameOpened (s : State) : State :=
  (s.onTly fun t => { t with ran := [], work := [] }).onFrm fun x => { x with inFrame := true, missedThis := false, vitalMiss := false }

theorem frameStart_of_boundary (ps : Nat) (hout : s.frm.inFrame = false)
    (hlater : s.frm.started = true → s.frm.frameStart < s.now / s.frameNs * s.frameNs) :
    frameStart ps s = planSlots (frameOpened (snapshotInputs (frameBoundary (frameNamed ps s)))) := by
  have hgo : ¬ (s.frm.inFrame || (s.frm.started && decide (s.now / s.frameNs * s.frameNs ≤ s.frm.frameStart))) = true := by
    cases hst : s.frm.started
    · simp [hout]
    · simpa [hout] using hlater hst
  unfold frameStart
  dsimp only
  rw [if_neg hgo]
  rfl

/-- The boundary that `frameStart` takes names the frame. -/
theorem frameStart_effect (ps : Nat) (hout : s.frm.inFrame = false)
    (hlater : s.frm.started = true → s.frm.frameStart < s.now / s.frameNs * s.frameNs) :
    (frameStart ps s).frm.inFrame = true ∧ (frameStart ps s).frm.started = true ∧
      (frameStart ps s).frm.number = s.now / s.frameNs ∧ (frameStart ps s).frm.frameStart = s.now / s.frameNs * s.frameNs ∧
      (frameStart ps s).frm.missedThis = false ∧ (frameStart ps s).tly.ran = [] ∧ (frameStart ps s).tly.work = [] ∧
      (frameStart ps s).tb.stepPs = satU 16 ps := by
  have hhead : (snapshotInputs (frameBoundary (frameNamed ps s))).frm.head = (frameNamed ps s).frm.head := by
    rw [(snapshotInputs_keeps _).frm_eq rfl, frameBoundary_head]
  have htb : (snapshotInputs (frameBoundary (frameNamed ps s))).tb = (frameNamed ps s).tb := by
    rw [(snapshotInputs_keeps _).tb_eq rfl, (frameBoundary_keeps _).tb_eq rfl]
  rw [frameStart_of_boundary s ps hout hlater]
  generalize snapshotInputs (frameBoundary (frameNamed ps s)) = u at hhead htb
  simp only [Frames.head, Prod.mk.injEq] at hhead
  obtain ⟨hnum, hstart, hstarted, -⟩ := hhead
  obtain ⟨rt, hfrm⟩ := planSlots_frm (frameOpened u)
  rw [hfrm, (planSlots_keeps _).tly_eq rfl, (planSlots_keeps _).tb_eq rfl]
  exact ⟨rfl, hstarted, hnum, hstart, rfl, rfl, rfl, congrArg TimeBase.stepPs htb⟩

/-- The frame's work at its commit, up to Treasury's limits. -/
def frameWork (s : State) : State :=
  trsFrame (waitFrame (fcFrame (mapAll (allocCommit (frameMeasure (netFrame (tlyCommit (frameCounts (missRest (commitSlots s))))))))))

/-- The metered state at the end of a frame. -/
def frameMetered (s : State) : State :=
  (s.onClr fun c => { c with pSum := c.pSum + s.trs.pPkg, pN := c.pN + 1 }).onFrm fun x => { x with metered := true, inFrame := false }

theorem frameCommit_of_end (hin : s.frm.inFrame = true) (hend : s.frm.frameStart + s.frameNs ≤ s.now + 40) :
    frameCommit s = confirmFrame ((frameMetered (limFrame (frameWork s))).onDma fun d =>
      { d with image := telemImage (frameMetered (limFrame (frameWork s))) }) := by
  have hgo : ¬ (!s.frm.inFrame || decide (s.now + 40 < s.frm.frameStart + s.frameNs)) = true := by
    simpa [hin] using hend
  unfold frameCommit
  dsimp only
  rw [if_neg hgo]
  rfl

theorem frameWork_head : (frameWork s).frm.head = s.frm.head := by
  rw [frameWork, (trsFrame_keeps _).frm_eq rfl, (waitFrame_keeps _).frm_eq rfl, (fcFrame_keeps _).frm_eq rfl,
    (mapAll_keeps _).frm_eq rfl, (allocCommit_keeps _).frm_eq rfl, (frameMeasure_keeps _).frm_eq rfl, (netFrame_keeps _).frm_eq rfl,
    (tlyCommit_keeps _).frm_eq rfl, frameCounts_head, missRest_head, commitSlots_head]

/-- At a frame's end it is metered, and `LIM_EFF` and `LIM_P` take Treasury's values. -/
theorem frameCommit_effect (hin : s.frm.inFrame = true) (hend : s.frm.frameStart + s.frameNs ≤ s.now + 40) :
    (frameCommit s).frm.inFrame = false ∧ (frameCommit s).frm.metered = true ∧ (frameCommit s).frm.number = s.frm.number ∧
      (frameCommit s).pwr.limEff = (frameCommit s).trs.eff ∧ (frameCommit s).pwr.limP = (frameCommit s).trs.pPkg := by
  have hhead := frameWork_head s
  rw [frameCommit_of_end s hin hend, (confirmFrame_keeps _).frm_eq rfl, (confirmFrame_keeps _).pwr_eq rfl,
    (confirmFrame_keeps _).trs_eq rfl]
  generalize frameWork s = u at hhead
  simp only [Frames.head, Prod.mk.injEq] at hhead
  exact ⟨rfl, rfl, hhead.1, rfl, rfl⟩

/-- Settles O18. -/
theorem framesBeginAndCommit : Obligations.FramesBeginAndCommit := by
  intro s ps hlive
  refine ⟨fun hout hlater => ?_, fun hnot => ?_, fun hin hend => ?_, fun hnot => ?_⟩
  · obtain ⟨h1, h2, h3, h4, h5, h6, h7, h8⟩ := frameStart_effect s ps hout hlater
    exact ⟨_, act_eq hlive rfl, h1, h2, h3, h4, h5, h6, h7, h8, (frameStart_keeps ps s).only⟩
  · refine act_eq hlive ?_
    unfold frameStart
    exact if_pos (by simpa using hnot)
  · obtain ⟨h1, h2, h3, h4, h5⟩ := frameCommit_effect s hin hend
    exact ⟨_, act_eq hlive rfl, h1, h2, h3, h4, h5, (frameCommit_keeps s).only⟩
  · refine act_eq hlive ?_
    unfold frameCommit
    exact if_pos (by simpa using hnot)

end Sys2Proof.Machine
end

section
/-!
Slots and shedding (chapter 03): runs, misses, the backstop of a cluster, and the shedding level.
-/
namespace Sys2Proof.Machine

section Slot
variable {s : State} {k : Nat} {e : SlotEntry} (hslot : s.slot k = some e)
include hslot

/-- A slot that ran to its end before its deadline is done. -/
theorem slotComplete_of_inTime (hin : s.frm.inFrame = true) (hrun : (s.getRt k).run = .running)
    (htime : s.now ≤ s.frm.frameStart + e.deadline) (hprog : e.exec = 0 → s.progOk e.work = true) :
    slotComplete k s = slotDone k e s := by
  unfold slotComplete
  rw [hslot]
  dsimp only
  rw [if_neg (by simp [hin, hrun]), if_neg (Nat.not_lt.mpr htime), if_neg (by simpa using hprog)]

/-- A slot that has not run to its end at its deadline has missed. -/
theorem slotMiss_of_late (hin : s.frm.inFrame = true) (hrun : (s.getRt k).run = .idle ∨ (s.getRt k).run = .running)
    (hlate : s.frm.frameStart + e.deadline ≤ s.now) : slotMiss k s = slotFail k s := by
  unfold slotMiss
  rw [hslot]
  dsimp only
  rw [if_pos (by simp [hin, hlate, hrun])]

theorem slotMiss_of_early (hearly : s.now < s.frm.frameStart + e.deadline) : slotMiss k s = s := by
  unfold slotMiss
  rw [hslot]
  dsimp only
  rw [if_neg (by simp [Nat.not_le.mpr hearly])]

end Slot

/-- The run of a slot that is done, with its slack. -/
def rtDone (slack : Int) (x : SlotRt) : SlotRt :=
  { x with run := .done, slack := slack, minSlack := min x.minSlack slack, consec := 0, runLen := 0, good := x.good + 1 }

/-- The run of a slot that has missed. -/
def rtMissed (x : SlotRt) : SlotRt :=
  { x with run := .missed, slack := -0x80000000, consec := satInc 8 x.consec, total := satInc 24 x.total,
           runLen := x.runLen + 1, good := 0 }

theorem countSats_ran (p : Nat) (l : List (Nat × Nat)) (s : State) : (countSats p l s).tly.ran = s.tly.ran := by
  unfold countSats
  split
  · rfl
  · dsimp only
    split
    · rw [(emitTly_keeps ..).tly_eq rfl]; rfl
    · rfl

theorem tlyRunSlot_ran (p : Nat) (s : State) : (tlyRunSlot p s).tly.ran = s.tly.ran ++ [p] :=
  (countSats_ran ..).trans rfl

section Done
variable (k : Nat) (e : SlotEntry) (s : State)

/-- The slack of a slot that is complete now. -/
def slackNow : Int := ((s.frm.frameStart + e.deadline : Nat) : Int) - s.now

/-- The state of a slot that is done, before what its program or its stage does. -/
def slotFinished : State :=
  (s.updRt k (rtDone (slackNow e s))).onFrm fun f => { f with wslack := min f.wslack (slackNow e s) }

/-- The same with the record of a run after misses. -/
def slotReported : State :=
  if (s.getRt k).runLen = 0 then slotFinished k e s
  else emitClk 0x1802 k (s.getRt k).runLen (encS 32 (slackNow e s)) 0 (slotFinished k e s)

theorem slotDone_eq : slotDone k e s =
    if e.exec = 0 then tlyRunSlot e.work (slotReported k e s)
    else if e.cls = 1 || (e.cls = 2 && !(slotReported k e s).fw.handoff) then
      (slotReported k e s).onFrm fun f => { f with done := f.done ++ [k] }
    else slotReported k e s := rfl

theorem slotReported_frm : (slotReported k e s).frm = (slotFinished k e s).frm := by
  unfold slotReported
  split
  · rfl
  · rw [(emitClk_keeps ..).frm_eq rfl]

theorem slotReported_tly : (slotReported k e s).tly = s.tly := by
  unfold slotReported
  split
  · rfl
  · rw [(emitClk_keeps ..).tly_eq rfl]; rfl

theorem slotDone_getRt (j : Nat) : (slotDone k e s).getRt j = (slotFinished k e s).getRt j := by
  rw [slotDone_eq]
  split
  · exact getRt_of_frm (((tlyRunSlot_keeps ..).frm_eq rfl).trans (slotReported_frm k e s)) j
  · split
    · exact congrArg (fun f : Frames => Tbl.get {} f.rt j) (slotReported_frm k e s)
    · exact getRt_of_frm (slotReported_frm k e s) j

theorem slotDone_getRt_self : (slotDone k e s).getRt k = rtDone (slackNow e s) (s.getRt k) :=
  (slotDone_getRt k e s k).trans (State.getRt_updRt ..)

theorem slotDone_getRt_ne {j : Nat} (h : j ≠ k) : (slotDone k e s).getRt j = s.getRt j :=
  (slotDone_getRt k e s j).trans (State.getRt_updRt_ne _ _ _ h)

/-- What Tally computed is added to the programs that ran. -/
theorem slotDone_ran (h : e.exec = 0) : (slotDone k e s).tly.ran = s.tly.ran ++ [e.work] := by
  rw [slotDone_eq, if_pos h, tlyRunSlot_ran, slotReported_tly]

/-- What a SELECT slot computed waits for the commit. -/
theorem slotDone_done (h : e.exec ≠ 0) (hcls : e.cls = 1) : (slotDone k e s).frm.done = s.frm.done ++ [k] := by
  rw [slotDone_eq, if_neg h, if_pos (by simp [hcls]), State.onFrm_frm, slotReported_frm]
  rfl

end Done

section Miss
variable (k : Nat) (s : State)

/-- Whether a miss of the slot is one of a LIMIT or SELECT slot. -/
def vitalSlot : Bool :=
  decide (((s.slot k).getD { exec := 0, cls := 0, cluster := 0, work := 0, start := 0, deadline := 0, period := 0 }).cls ≤ 1)

/-- The state of a slot that has missed, before the record. -/
def slotMissed : State :=
  (s.updRt k rtMissed).onFrm fun f => { f with missedThis := true, vitalMiss := f.vitalMiss || vitalSlot k s }

theorem slotFail_frm : (slotFail k s).frm = (slotMissed k s).frm := by
  unfold slotFail
  dsimp only
  split
  · rw [(emitClk_keeps ..).frm_eq rfl]; rfl
  · rfl

theorem slotFail_getRt_self : (slotFail k s).getRt k = rtMissed (s.getRt k) :=
  (getRt_of_frm (slotFail_frm k s) k).trans (State.getRt_updRt s k rtMissed)

theorem slotFail_getRt_ne {j : Nat} (h : j ≠ k) : (slotFail k s).getRt j = s.getRt j :=
  (getRt_of_frm (slotFail_frm k s) j).trans (State.getRt_updRt_ne s k rtMissed h)

/-- The first miss after a completed run is recorded (R84). -/
theorem slotFail_logs {e : SlotEntry} (hslot : s.slot k = some e) (hfirst : (s.getRt k).runLen = 0) (hroom : QRoom 0x30 s) :
    Logs 0x30 0x1801 k (slotDesc e) s.tb.stepPs 0 s (slotFail k s) := by
  have hkeeps : Keeps [.frm] s (slotMissed k s) := (State.onFrm_keeps ..).step (by decide) (State.updRt_keeps ..)
  have heq : slotFail k s = emitClk 0x1801 k (slotDesc e) s.tb.stepPs 0 (slotMissed k s) := by
    unfold slotFail
    dsimp only
    rw [if_pos hfirst, hslot]
    unfold slotMissed vitalSlot
    rw [hslot]
    rfl
  rw [heq]
  exact emit_logs_after hkeeps (by decide) (by decide) (by decide) (by decide) hroom

end Miss

section Backstop

/-- A cluster capped at its fallback level. -/
def Clu.capped (fb : Nat) (x : Clu) : Clu :=
  if x.st ≠ 0 && decide (256 * fb < x.a) then { x with a := 256 * fb, ceil := (x.row fb).ceil, stepDown := true } else x

theorem Clu.capped_a {fb : Nat} {x : Clu} (h : x.st = 1) : (x.capped fb).a ≤ 256 * fb := by
  unfold Clu.capped
  split
  · exact le_rfl
  · rename_i hle
    simpa [h] using hle

theorem capCluster_getClu (c : Nat) (s : State) : (capCluster c s).getClu c = (s.getClu c).capped (s.cluCfg c).fbLevel :=
  State.getClu_updClu ..

theorem capCluster_getClu_ne {c j : Nat} (s : State) (h : j ≠ c) : (capCluster c s).getClu j = s.getClu j :=
  State.getClu_updClu_ne _ _ _ h

/-- The runs of the slots that serve a cluster are counted afresh. -/
def runsAfresh (c : Nat) (t : State) : State :=
  forList (List.range t.slots.length) (fun i => State.updRt i fun r =>
    if (match t.slot i with | some x => x.cls ≤ 1 && (slotClus t x).contains c | none => false)
    then { r with good := 0 } else r) t

theorem runsAfresh_getBack (c j : Nat) (t : State) : (runsAfresh c t).getBack j = t.getBack j :=
  forList_eq (fun u => u.getBack j) (List.range t.slots.length) (f := fun i => State.updRt i _) (fun _ _ => by rfl) t

theorem runsAfresh_keeps (c : Nat) (t : State) : Keeps [.frm] t (runsAfresh c t) :=
  forList_keeps (List.range t.slots.length) (f := fun i => State.updRt i _) (fun _ _ h => h.trans (State.updRt_keeps ..)) (Keeps.refl _ t)

/-- The turn of a cluster in the loop backstop: it is capped at its fallback level. -/
def backstopTurn (k c : Nat) (t : State) : State :=
  emitCp 0x1805 c k 0 0 (capCluster c ((runsAfresh c t).updBack c fun _ => { active := true, since := t.now }))

theorem loopBackstop_of_due {k : Nat} {e : SlotEntry} {s : State} (hslot : s.slot k = some e) (hcls : e.cls ≤ 1)
    (hlen : 8 ≤ (s.getRt k).runLen) :
    loopBackstop k s = forList ((slotClus s e).filter fun c => !(s.getBack c).active) (backstopTurn k) s := by
  unfold loopBackstop
  rw [hslot]
  dsimp only
  rw [if_pos ⟨hcls, hlen⟩]
  rfl

theorem backstopTurn_self (k c : Nat) (t : State) : ((backstopTurn k c t).getBack c).active = true := by
  rw [backstopTurn, emitCp, emit_getBack, getBack_of_frm ((capCluster_keeps ..).frm_eq rfl), State.getBack_updBack]

theorem backstopTurn_active (k c j : Nat) (t : State) (h : (t.getBack c).active = true) :
    ((backstopTurn k j t).getBack c).active = true := by
  by_cases hj : c = j
  · exact hj ▸ backstopTurn_self k j t
  · rw [backstopTurn, emitCp, emit_getBack, getBack_of_frm ((capCluster_keeps ..).frm_eq rfl), State.getBack_updBack_ne _ _ _ hj,
      runsAfresh_getBack]
    exact h

theorem backstopTurn_clu (k c : Nat) (t : State) : (backstopTurn k c t).getClu c = (t.getClu c).capped (t.cluCfg c).fbLevel := by
  have hkeeps : Keeps [.frm] t ((runsAfresh c t).updBack c fun _ => { active := true, since := t.now }) :=
    (State.updBack_keeps ..).step (by decide) (runsAfresh_keeps c t)
  rw [backstopTurn, emitCp, emit_getClu, capCluster_getClu, getClu_of_loop (hkeeps.loop_eq rfl), State.cluCfg, hkeeps.cfg_eq rfl]
  rfl

theorem backstopTurn_keeps (k c : Nat) (t : State) : Keeps [.frm, .loop, .hm, .hif, .ldg] t (backstopTurn k c t) :=
  (emitCp_keeps ..).step (by decide) <| (capCluster_keeps ..).step (by decide) <| (State.updBack_keeps ..).step (by decide) <|
    (runsAfresh_keeps c t).mono (by decide)

theorem backstopTurn_ne (k : Nat) {c j : Nat} (t : State) (h : c ≠ j) :
    ((backstopTurn k j t).getBack c, (backstopTurn k j t).getClu c) = (t.getBack c, t.getClu c) := by
  have hkeeps : Keeps [.frm] t ((runsAfresh j t).updBack j fun _ => { active := true, since := t.now }) :=
    (State.updBack_keeps ..).step (by decide) (runsAfresh_keeps j t)
  rw [backstopTurn, emitCp, emit_getBack, emit_getClu, getBack_of_frm ((capCluster_keeps ..).frm_eq rfl), State.getBack_updBack_ne _ _ _ h,
    runsAfresh_getBack, capCluster_getClu_ne _ h, getClu_of_loop (hkeeps.loop_eq rfl)]

theorem presetLoops_getClu (c j : Nat) (s : State) : (presetLoops c s).getClu j = s.getClu j :=
  forList_eq (fun u => u.getClu j) (List.range 6) (f := fun i => State.updLp c i _) (fun _ _ => by rfl) s

/-- The slots that serve a cluster's loops. -/
def serving (c : Nat) (s : State) : List Nat :=
  (List.range s.slots.length).filter fun k =>
    match s.slot k with | some e => e.cls ≤ 1 && (slotClus s e).contains c | none => false

theorem mem_serving {c k : Nat} {s : State} : k ∈ serving c s ↔ ∃ e, s.slot k = some e ∧ e.cls ≤ 1 ∧ c ∈ slotClus s e := by
  unfold serving
  rw [List.mem_filter, List.mem_range]
  cases hk : s.slot k with
  | none => simp
  | some e =>
    have hlt : k < s.slots.length := (List.getElem?_eq_some_iff.mp hk).1
    simp [hlt]

/-- Every cluster that the slot serves is under the backstop. -/
theorem loopBackstop_active {k : Nat} {e : SlotEntry} {s : State} (hslot : s.slot k = some e) (hcls : e.cls ≤ 1)
    (hlen : 8 ≤ (s.getRt k).runLen) {c : Nat} (hc : c ∈ slotClus s e) : ((loopBackstop k s).getBack c).active = true := by
  rw [loopBackstop_of_due hslot hcls hlen]
  cases hact : (s.getBack c).active with
  | true => exact forList_ind (P := fun u => (u.getBack c).active = true) (fun j _ u hu => backstopTurn_active k c j u hu) hact
  | false =>
    exact forList_est (P := fun u => (u.getBack c).active = true) (List.mem_filter.mpr ⟨hc, by simp [hact]⟩)
      (fun j u hu => backstopTurn_active k c j u hu) (fun u => backstopTurn_self k c u) s

/-- A cluster that comes under the backstop is capped at its fallback level. -/
theorem loopBackstop_capped {k : Nat} {e : SlotEntry} {s : State} (hslot : s.slot k = some e) (hcls : e.cls ≤ 1)
    (hlen : 8 ≤ (s.getRt k).runLen) {c : Nat} (hc : c ∈ slotClus s e) (hact : (s.getBack c).active = false) :
    (loopBackstop k s).getClu c = (s.getClu c).capped (s.cluCfg c).fbLevel := by
  have hnodup : ((slotClus s e).filter fun c => !(s.getBack c).active).Nodup := ((clusters_nodup s).filter _).filter _
  rw [loopBackstop_of_due hslot hcls hlen]
  have h := forList_entry_of (fun u => u.getClu c) (f := backstopTurn k) (k := c) (Q := fun u => u.cfg = s.cfg)
    (g := Clu.capped (s.cluCfg c).fbLevel) (fun j u hu => ((backstopTurn_keeps k j u).cfg_eq rfl).trans hu)
    (fun u hu => by rw [backstopTurn_clu, State.cluCfg, hu]; rfl)
    (fun j hj u _ => (Prod.mk.inj (backstopTurn_ne k u (Ne.symm hj))).2) hnodup rfl
  rwa [if_pos (List.mem_filter.mpr ⟨hc, by simp [hact]⟩)] at h

/-- A cluster that the slot does not serve is left alone. -/
theorem loopBackstop_other {k : Nat} {e : SlotEntry} {s : State} (hslot : s.slot k = some e) (hcls : e.cls ≤ 1)
    (hlen : 8 ≤ (s.getRt k).runLen) {c : Nat} (hc : c ∉ slotClus s e) :
    (loopBackstop k s).getBack c = s.getBack c ∧ (loopBackstop k s).getClu c = s.getClu c := by
  rw [loopBackstop_of_due hslot hcls hlen]
  refine Prod.mk.inj (forList_eq_of_mem (fun u => (u.getBack c, u.getClu c)) (fun j hj u => backstopTurn_ne k u ?_) s)
  rintro rfl
  exact hc (List.mem_filter.mp hj).1

theorem loopBackstop_of_few {k : Nat} {s : State} (h : (s.getRt k).runLen < 8) : loopBackstop k s = s := by
  unfold loopBackstop
  split
  · rfl
  · exact if_neg (fun hdue => Nat.not_le.mpr h hdue.2)

/-- The backstop ends after 16 runs of every slot that serves the cluster (R85). -/
theorem backstopEnd_of_runs {c : Nat} {s : State} (hact : (s.getBack c).active = true) (hsome : serving c s ≠ [])
    (hruns : ∀ k ∈ serving c s, 16 ≤ (s.getRt k).good) :
    backstopEnd c s = emitCp 0x1806 c (s.now - (s.getBack c).since) 0 0 (presetLoops c (s.updBack c fun _ => {})) := by
  unfold backstopEnd
  dsimp only
  refine if_pos ?_
  rw [hact, Bool.true_and, Bool.and_eq_true, Bool.not_eq_true', List.isEmpty_eq_false_iff, List.all_eq_true]
  exact ⟨hsome, fun k hk => decide_eq_true (hruns k hk)⟩

end Backstop

section Shed
variable (s : State)

/-- The frames part after the level has risen by one (R86). -/
def Frames.shed (now : Nat) (f : Frames) : Frames :=
  { f with level := f.level + 1, consec := 0, shedCnt := satInc 16 f.shedCnt, clean := 0, lastShed := some now,
           required := f.shedReq (f.level + 1) now }

theorem shedDue_of_misses (hout : s.frm.inFrame = false) (hmiss : 4 ≤ s.frm.consec) (hlevel : s.frm.level < 3) :
    shedDue s = emitClk 0x1803 (s.frm.level + 1) 0 0 0 (s.onFrm (Frames.shed s.now)) := by
  unfold shedDue
  dsimp only
  rw [if_neg (by simp [hout, hmiss]), if_neg (Nat.not_le.mpr hlevel)]
  rfl

theorem restoreDue_of_clean (hout : s.frm.inFrame = false) (hfloor : s.frm.floor < s.frm.level) (hclean : s.frm.required ≤ s.frm.clean) :
    restoreDue s = restoreLevel 0 s := by
  unfold restoreDue
  exact if_pos (by simp [hout, hfloor, hclean])

theorem clrMin_getRt {k : Nat} (hk : k < 256) : (clrMin s).getRt k = { s.getRt k with minSlack := 0x7FFFFFFF } := by
  have h := forList_entry (fun u => u.getRt k) (f := fun k => State.updRt k fun r => { r with minSlack := 0x7FFFFFFF }) (k := k)
    (g := fun r => { r with minSlack := 0x7FFFFFFF }) (fun u => State.getRt_updRt ..)
    (fun j hj u => State.getRt_updRt_ne _ _ _ (Ne.symm hj)) (l := List.range 256) List.nodup_range
    ((s.onTb fun t => { t with stepMaxPs := 0 }).onFrm fun f => { f with wslack := 0x7FFFFFFF })
  rw [if_pos (List.mem_range.mpr hk)] at h
  exact h

theorem clrMin_mins : (clrMin s).frm.wslack = 0x7FFFFFFF ∧ (clrMin s).tb.stepMaxPs = 0 :=
  forList_ind (P := fun u => u.frm.wslack = 0x7FFFFFFF ∧ u.tb.stepMaxPs = 0)
    (l := List.range 256) (f := fun k => State.updRt k fun r => { r with minSlack := 0x7FFFFFFF })
    (fun _ _ _ h => h) ⟨rfl, rfl⟩

end Shed

/-- Settles O19. -/
theorem slotsMissBackstopAndShed : Obligations.SlotsMissBackstopAndShed := by
  refine ⟨fun s k e hlive hslot => ⟨fun hmay => act_eq hlive (if_pos hmay), fun hmay => act_eq hlive (if_neg (by simp [hmay])), ?_, ?_, ?_⟩,
    fun s hlive => ⟨?_, ?_, ?_⟩, fun s => ⟨?_, ?_, fun hemu => ⟨?_, ?_, ?_⟩⟩⟩
  · intro hin hrun htime hprog
    refine ⟨_, act_eq hlive (slotComplete_of_inTime hslot hin hrun htime hprog), ?_, ?_, ?_, ?_, slotDone_ran k.val e s,
      slotDone_done k.val e s, fun j hj => slotDone_getRt_ne k.val e s hj, (slotDone_keeps k.val e s).only⟩
    all_goals rw [slotDone_getRt_self]; rfl
  · intro hin hrun hlate
    refine ⟨_, act_eq hlive (slotMiss_of_late hslot hin hrun hlate), ?_, ?_, ?_, ?_, ?_, fun j hj => slotFail_getRt_ne k.val s hj,
      slotFail_logs k.val s hslot, (slotFail_keeps k.val s).only⟩
    · rw [slotFail_getRt_self]; rfl
    · rw [slotFail_getRt_self]; rfl
    · rw [slotFail_getRt_self]; rfl
    · rw [slotFail_getRt_self]; rfl
    · rw [slotFail_frm]; rfl
  · exact fun hearly => act_eq hlive (slotMiss_of_early hslot hearly)
  · intro k e hslot hcls hlen
    refine ⟨_, act_eq hlive rfl, fun c hc => ⟨loopBackstop_active hslot hcls hlen hc, fun hact hst => ?_⟩,
      fun c hc => loopBackstop_other hslot hcls hlen hc, (loopBackstop_keeps k.val s).only⟩
    rw [loopBackstop_capped hslot hcls hlen hc hact]
    exact Clu.capped_a hst
  · exact fun k hfew => act_eq hlive (loopBackstop_of_few hfew)
  · intro c k0 e0 hact hslot0 hcls0 hc0 hall
    have hsome : serving c.val s ≠ [] := List.ne_nil_of_mem (mem_serving.mpr ⟨e0, hslot0, hcls0, hc0⟩)
    have heq := backstopEnd_of_runs hact hsome fun k hk => by
      obtain ⟨e, hslot, hcls, hc⟩ := mem_serving.mp hk
      exact hall k e hslot hcls hc
    refine ⟨_, act_eq hlive heq, ?_, ?_, fun j hj => ?_, heq ▸ (backstopEnd_keeps c.val s).only⟩
    · rw [emitCp, emit_getBack, getBack_of_frm ((presetLoops_keeps ..).frm_eq rfl), State.getBack_updBack]
    · rw [emitCp, emit_getClu, presetLoops_getClu]; rfl
    · rw [emitCp, emit_getBack, getBack_of_frm ((presetLoops_keeps ..).frm_eq rfl), State.getBack_updBack_ne _ _ _ hj]
  · intro hlive hout hmiss hlevel
    have heq := shedDue_of_misses s hout hmiss hlevel
    have hfrm : (shedDue s).frm = s.frm.shed s.now := by rw [heq, emitClk, emit_frm]; rfl
    refine ⟨_, act_eq hlive rfl, ?_, ?_, ?_, ?_, fun at_ hlast hsoon => ?_, fun hnone => ?_, fun hroom => ?_, (shedDue_keeps s).only⟩
    · rw [hfrm]; rfl
    · rw [hfrm]; rfl
    · rw [hfrm]; rfl
    · rw [hfrm]; rfl
    · rw [hfrm, Frames.shed, Frames.shedReq, hlast]
      exact if_pos ⟨rfl, hsoon⟩
    · rw [hfrm, Frames.shed, Frames.shedReq, hnone]
    · rw [heq]
      exact emit_logs_after (State.onFrm_keeps ..) (by decide) (by decide) (by decide) (by decide) hroom
  · intro hlive hout hfloor hclean
    have heq := restoreDue_of_clean s hout hfloor hclean
    have hfrm : (restoreDue s).frm = { s.frm with level := s.frm.level - 1, clean := 0, lastRestore := some (s.now, s.frm.level) } := by
      rw [heq, restoreLevel, emitClk, emit_frm]; rfl
    refine ⟨_, act_eq hlive rfl, ?_, ?_, ?_, fun hroom => ?_, (restoreDue_keeps s).only⟩
    · rw [hfrm]
    · rw [hfrm]
    · rw [hfrm]
    · rw [heq]
      exact emit_logs_after (State.onFrm_keeps ..) (by decide) (by decide) (by decide) (by decide) hroom
  · exact fun f => hsEmu_eq hemu rfl
  · exact hsEmu_eq hemu rfl
  · obtain ⟨hslack, hstep⟩ := clrMin_mins s
    have hans := hsAnswer_keeps 0 0 (clrMin s)
    refine ⟨_, hsEmu_eq hemu rfl, ?_, ?_, fun k hk => ?_, ?_⟩
    · rw [hans.frm_eq rfl]; exact hslack
    · rw [hans.tb_eq rfl]; exact hstep
    · rw [getRt_of_frm (hans.frm_eq rfl)]; exact clrMin_getRt s hk
    exact ((hsAnswer_keeps ..).step (by decide) ((clrMin_keeps s).mono (by decide))).only

end Sys2Proof.Machine
end

section
/-!
Loop registers (chapter 09): mode requests, targets, forced fallback and saturation.
-/
namespace Sys2Proof.Machine

variable {s : State} {c j : Nat}

theorem getLp_updLp (f : LoopSt → LoopSt) (s : State) : (s.updLp c j f).getLp c j = f (s.getLp c j) :=
  State.getLoop_updLoop ..

theorem getLoop_updLp_ne (f : LoopSt → LoopSt) (s : State) {k : Nat} (h : k ≠ 8 * c + j) :
    (s.updLp c j f).getLoop k = s.getLoop k := State.getLoop_updLoop_ne _ _ _ h

/-- Two changes of a loop that agree on the loop as it is are the same change. -/
theorem updLp_congr {f g : LoopSt → LoopSt} (h : f (s.getLp c j) = g (s.getLp c j)) : s.updLp c j f = s.updLp c j g := by
  unfold State.getLp State.getLoop at h
  have hset : Tbl.set {} s.loop.loop (8 * c + j) (f (Tbl.get {} s.loop.loop (8 * c + j))) =
      Tbl.set {} s.loop.loop (8 * c + j) (g (Tbl.get {} s.loop.loop (8 * c + j))) := congrArg _ h
  exact congrArg (fun l => { s with loop := { s.loop with loop := l } }) hset

/-- A loop in fallback for a cause other than its residue (R250). -/
def LoopSt.fellBack (cause now : Nat) (l : LoopSt) : LoopSt :=
  { l with fallback := true, fbCause := cause, fbSince := now, fbCnt := satInc 16 l.fbCnt, reform := true,
           c1Times := l.c1Times.filter fun t => decide (now < t + nsPerS) }

theorem loopFallback_of_other {cause : Nat} (h : cause ≠ 1) (rmax : Int) : loopFallback cause rmax c j s =
    emitTeller c 0x5020 c j cause (encS 32 rmax) (s.updLp c j (LoopSt.fellBack cause s.now)) := by
  unfold loopFallback
  simp only [h, decide_false, Bool.false_and, if_false, Bool.false_eq_true]
  refine congrArg _ (updLp_congr ?_)
  simp [LoopSt.fellBack]

theorem loopFallback_getLp {cause : Nat} (h : cause ≠ 1) (rmax : Int) :
    (loopFallback cause rmax c j s).getLp c j = (s.getLp c j).fellBack cause s.now := by
  rw [loopFallback_of_other h, getLp_of_loop ((emitTeller_keeps ..).loop_eq rfl), getLp_updLp]

theorem loopFallback_getLoop_ne {cause : Nat} (h : cause ≠ 1) (rmax : Int) {k : Nat} (hk : k ≠ 8 * c + j) :
    (loopFallback cause rmax c j s).getLoop k = s.getLoop k := by
  rw [loopFallback_of_other h, getLoop_of_loop ((emitTeller_keeps ..).loop_eq rfl), getLoop_updLp_ne _ _ hk]

section Force
variable (hidle : (s.getLp c j).fallback = false) (hnew : (s.getLp c j).fbForce = false) (hmodel : (s.loopCfg c j).nx ≠ 0)
include hidle hnew hmodel

/-- Forcing a loop that has an observer into fallback. -/
theorem fbForce_of_idle : fbForce true c j s =
    loopFallback 3 (s.tlyElem (s.loopCfg c j).resBlk 2 0) c j (s.updLp c j fun y => { y with fbForce := true }) := by
  unfold fbForce
  dsimp only
  rw [if_pos (by simp [hnew, hmodel]), hidle]
  rfl

end Force

/-- The register accesses of a selected loop that is configured are performed. -/
theorem loopTarget_of_present (hj : s.loop.sel < 5) (hclu : (s.cluCfg s.loop.clSel).present = true)
    (hloop : (s.loopCfg s.loop.clSel s.loop.sel).present = true) : loopTarget s = none := by
  unfold loopTarget
  dsimp only
  rw [if_neg (Nat.ne_of_lt hj), if_pos (by simp [hclu, hloop, hj])]

/-- A write that changes neither `TSAT` nor `SAT_FB` and does not end the latch only forces the fallback. -/
theorem supSatWrite_of_force {w : Nat} (htarget : loopTarget s = none) (hforce : bitOf w 17 = true) (hlatch : bitOf w 18 = false)
    (htsat : bits w 0 16 = (s.getLp s.loop.clSel s.loop.sel).tsat) (hsat : bitOf w 16 = (s.getLp s.loop.clSel s.loop.sel).satFb) :
    supSatWrite w s = loopRes 0 (fbForce true s.loop.clSel s.loop.sel s) := by
  unfold supSatWrite
  rw [htarget]
  dsimp only
  rw [hforce, hlatch, htsat, hsat, if_pos (by simp)]
  rfl

/-- The loop with its saturation noted (R253). -/
def LoopSt.saturatedOnce (l : LoopSt) : LoopSt := { l with satFlag := true, satCnt := satInc 16 l.satCnt }

section Saturated
variable {t0 : Nat} (hsince : (s.getLp c j).satSince = some t0)
include hsince

theorem saturated_of_due (hauto : (s.getLp c j).auto = true) (hloop : (s.loopCfg c j).present = true)
    (hfresh : (s.getLp c j).satFlag = false) (hdue : t0 + (s.getLp c j).tsat * 1000000 < s.now) :
    saturated c j s =
      let s1 := emitTeller c 0x5023 c j (encS 32 (s.getLp c j).raw) 0 (s.updLp c j LoopSt.saturatedOnce)
      if (s.getLp c j).satFb && !(s.getLp c j).fallback && decide ((s.loopCfg c j).nx ≠ 0) then
        loopFallback 3 (s.tlyElem (s.loopCfg c j).resBlk 2 0) c j s1
      else s1 := by
  unfold saturated
  dsimp only
  rw [hsince]
  exact if_pos (by simp [hauto, hloop, hfresh, nsPerMs, hdue])

theorem saturated_of_not_due (h : s.now ≤ t0 + (s.getLp c j).tsat * 1000000 ∨ (s.getLp c j).satFlag = true) : saturated c j s = s := by
  unfold saturated
  dsimp only
  rw [hsince]
  refine if_neg ?_
  rcases h with h | h
  · simp [nsPerMs, Nat.not_lt.mpr h]
  · simp [h]

end Saturated

/-- What a loop shows once it has been saturated for longer than `TSAT` (R253). -/
theorem saturated_effect {t0 : Nat} (hsince : (s.getLp c j).satSince = some t0) (hauto : (s.getLp c j).auto = true)
    (hloop : (s.loopCfg c j).present = true) (hfresh : (s.getLp c j).satFlag = false)
    (hdue : t0 + (s.getLp c j).tsat * 1000000 < s.now) :
    ((saturated c j s).getLp c j).satFlag = true ∧ ((saturated c j s).getLp c j).satCnt = satInc 16 (s.getLp c j).satCnt ∧
      ((s.getLp c j).satFb = true → (s.getLp c j).fallback = false → (s.loopCfg c j).nx ≠ 0 →
        ((saturated c j s).getLp c j).fallback = true ∧ ((saturated c j s).getLp c j).fbCause = 3) ∧
      ((s.getLp c j).satFb = false → ((saturated c j s).getLp c j).fallback = (s.getLp c j).fallback) ∧
      ∀ k, k ≠ 8 * c + j → (saturated c j s).getLoop k = s.getLoop k := by
  have hkeeps := emitTeller_keeps c 0x5023 c j (encS 32 (s.getLp c j).raw) 0 (s.updLp c j LoopSt.saturatedOnce)
  rw [saturated_of_due hsince hauto hloop hfresh hdue]
  generalize emitTeller c 0x5023 c j (encS 32 (s.getLp c j).raw) 0 (s.updLp c j LoopSt.saturatedOnce) = u at hkeeps
  have hself : u.getLp c j = (s.getLp c j).saturatedOnce := by rw [getLp_of_loop (hkeeps.loop_eq rfl), getLp_updLp]
  have hother : ∀ k, k ≠ 8 * c + j → u.getLoop k = s.getLoop k := fun k hk => by
    rw [getLoop_of_loop (hkeeps.loop_eq rfl), getLoop_updLp_ne _ _ hk]
  dsimp only
  by_cases hfall : ((s.getLp c j).satFb && !(s.getLp c j).fallback && decide ((s.loopCfg c j).nx ≠ 0)) = true
  · rw [if_pos hfall, loopFallback_getLp (by decide), hself]
    exact ⟨rfl, rfl, fun _ _ _ => ⟨rfl, rfl⟩, fun hno => by simp [hno] at hfall,
      fun k hk => (loopFallback_getLoop_ne (by decide) _ hk).trans (hother k hk)⟩
  · rw [if_neg hfall, hself]
    exact ⟨rfl, rfl, fun h1 h2 h3 => absurd (by simp [h1, h2, h3]) hfall, fun _ => rfl, hother⟩

/-- What forcing a loop that has an observer into fallback leaves. -/
theorem fbForce_effect (hidle : (s.getLp c j).fallback = false) (hnew : (s.getLp c j).fbForce = false) (hmodel : (s.loopCfg c j).nx ≠ 0) :
    ((fbForce true c j s).getLp c j).fallback = true ∧ ((fbForce true c j s).getLp c j).fbCause = 3 ∧
      ((fbForce true c j s).getLp c j).fbForce = true ∧
      ((fbForce true c j s).getLp c j).fbCnt = satInc 16 (s.getLp c j).fbCnt ∧
      ∀ k, k ≠ 8 * c + j → (fbForce true c j s).getLoop k = s.getLoop k := by
  rw [fbForce_of_idle hidle hnew hmodel, loopFallback_getLp (by decide), getLp_updLp]
  exact ⟨rfl, rfl, rfl, rfl, fun k hk => (loopFallback_getLoop_ne (by decide) _ hk).trans (getLoop_updLp_ne _ _ hk)⟩

section Mode
variable {v : Nat} (hgo : bitOf v 31 = true)
include hgo

theorem modeGo_of_range (h : 5 ≤ bits v 0 3) : modeGo v s = loopRes 0x5002 s := by
  simp [modeGo, hgo, h]

theorem modeGo_of_absent (hj : bits v 0 3 < 5)
    (h : (s.cluCfg s.loop.clSel).present = false ∨ (s.loopCfg s.loop.clSel (bits v 0 3)).present = false) :
    modeGo v s = loopRes 0x5004 s := by
  simp only [modeGo, hgo, Bool.not_true, Bool.false_eq_true, if_false, if_neg (Nat.not_le.mpr hj)]
  exact if_pos (by simpa using h)

variable (hj : bits v 0 3 < 5) (hclu : (s.cluCfg s.loop.clSel).present = true)
  (hloop : (s.loopCfg s.loop.clSel (bits v 0 3)).present = true)
include hj hclu hloop

theorem modeGo_of_busy (h : (s.getClu s.loop.clSel).started = false ∨ (s.getClu s.loop.clSel).st = 2) :
    modeGo v s = loopRes 0x5005 s := by
  simp only [modeGo, hgo, hclu, hloop, Bool.not_true, Bool.or_self, Bool.false_eq_true, if_false, if_neg (Nat.not_le.mpr hj)]
  exact if_pos (by simpa using h)

theorem modeGo_of_running (hstarted : (s.getClu s.loop.clSel).started = true) (hst : (s.getClu s.loop.clSel).st ≠ 2) :
    modeGo v s = loopRes 0 (s.updClu s.loop.clSel fun x => { x with modes := x.modes ++
      [{ loop := bits v 0 3, auto := bitOf v 3, useMan := bitOf v 12, man := bits v 4 8 }] }) := by
  simp only [modeGo, hgo, hclu, hloop, hstarted, hst, Bool.not_true, Bool.or_self, Bool.false_eq_true, if_false, decide_false,
    if_neg (Nat.not_le.mpr hj)]

end Mode

theorem execClrLatch_of_target (hemu : Emulates s) (h : loopTarget s = none) :
    execClrLatch s = .next (hsAnswer 0 0 (loopRes 0 (clrLatch s.loop.clSel s.loop.sel s))) := by
  rw [execClrLatch, hsEmu_of_emulates hemu, h]

/-- Settles O21. -/
theorem loopModesTargetsAndSaturation : Obligations.LoopModesTargetsAndSaturation := by
  refine ⟨fun s v hemu hgo => ⟨fun hj => hsEmu_eq hemu (modeGo_of_range hgo hj), fun hj habsent => hsEmu_eq hemu (modeGo_of_absent hgo hj habsent),
    fun hj hclu hloop => ⟨fun hbusy => hsEmu_eq hemu (modeGo_of_busy hgo hj hclu hloop hbusy),
      fun hstarted hst => hsEmu_eq hemu (modeGo_of_running hgo hj hclu hloop hstarted hst)⟩⟩, ?_, ?_⟩
  · intro s v hemu hclu
    refine ⟨fun hj => hsEmu_eq hemu (if_pos ⟨hj, hclu⟩), fun hj hloop => ?_⟩
    have htarget := loopTarget_of_present hj hclu hloop
    refine ⟨fun hlow => hsEmu_eq hemu ?_, fun hhigh hmax => hsEmu_eq hemu ?_, fun hhigh hmax => hsEmu_eq hemu ?_,
      fun w hforce hlatch hnew htsat hsat hidle hmodel => ?_, ?_⟩
    · simp [tgtWrite, Nat.ne_of_lt hj, htarget, hlow]
    · simp only [tgtWrite, Nat.ne_of_lt hj, false_and, htarget, if_false, if_neg (Nat.not_le.mpr hhigh), if_neg (not_lt.mpr hmax)]
      rfl
    · simp only [tgtWrite, Nat.ne_of_lt hj, false_and, htarget, if_false, if_neg (Nat.not_le.mpr hhigh), if_pos hmax]
      rfl
    · obtain ⟨h1, h2, h3, h4, h5⟩ := fbForce_effect hidle hnew hmodel
      have hans := hsAnswer_keeps 0 0 (loopRes 0 (fbForce true s.loop.clSel s.loop.sel s))
      have hlp : ∀ k, (hsAnswer 0 0 (loopRes 0 (fbForce true s.loop.clSel s.loop.sel s))).getLoop k =
          (fbForce true s.loop.clSel s.loop.sel s).getLoop k := fun k => getLoop_of_loop (hans.loop_eq rfl) k
      refine ⟨_, hsEmu_eq hemu (supSatWrite_of_force htarget hforce hlatch htsat hsat), ?_, ?_, ?_, ?_, ?_, fun k hk => ?_, ?_⟩
      · rw [State.getLp, hlp]; exact h1
      · rw [State.getLp, hlp]; exact h2
      · rw [State.getLp, hlp]; exact h3
      · rw [State.getLp, hlp]; exact h4
      · rw [hans.loop_eq rfl]; rfl
      · rw [hlp]; exact h5 k hk
      · exact (hans.step (by decide) ((loopRes_keeps ..).step (by decide) ((fbForce_keeps ..).mono (by decide)))).only
    · exact execClrLatch_of_target hemu htarget
  · intro s c j t0 hlive hsince hauto hloop
    refine ⟨fun hfresh hdue => ?_, fun hnot => act_eq hlive (saturated_of_not_due hsince hnot)⟩
    obtain ⟨h1, h2, h3, h4, h5⟩ := saturated_effect hsince hauto hloop hfresh hdue
    exact ⟨_, act_eq hlive rfl, h1, h2, h3, h4, h5, (saturated_keeps c.val j.val s).only⟩

end Sys2Proof.Machine
end

section
/-!
Tally's errors and paging (chapter 08).
-/
namespace Sys2Proof.Machine

variable {s : State} {k p : Nat}

/-- A residue mismatch in an active cube fails the cube and misses the slot (R231). -/
theorem cubeErr_of_active {cube : Nat} (ins : Nat) (hruns : s.runsProg k = some p) (hact : s.tly.cube.getD cube 3 = 0) :
    cubeErr cube k ins s = emitTly 0x4030 cube p ins 0 (slotFail k
      (s.onTly fun t => { t with cube := t.cube.set cube 3, swap := t.swap ++ [cube], residue := satInc 16 t.residue })) := by
  unfold cubeErr
  rw [hruns]
  exact if_neg (not_not.mpr hact)

theorem cubeErr_effect {cube : Nat} (ins : Nat) (hruns : s.runsProg k = some p) (hact : s.tly.cube.getD cube 3 = 0) :
    (cubeErr cube k ins s).tly.cube = s.tly.cube.set cube 3 ∧ (cubeErr cube k ins s).tly.swap = s.tly.swap ++ [cube] ∧
      (cubeErr cube k ins s).tly.residue = satInc 16 s.tly.residue ∧ ((cubeErr cube k ins s).getRt k).run = .missed := by
  rw [cubeErr_of_active ins hruns hact, (emitTly_keeps ..).tly_eq rfl, (slotFail_keeps ..).tly_eq rfl,
    getRt_of_frm ((emitTly_keeps ..).frm_eq rfl), slotFail_getRt_self]
  exact ⟨rfl, rfl, rfl, rfl⟩

/-- An uncorrectable error, counted and recorded. -/
def storeErrNoted (store addr p : Nat) (s : State) : State :=
  emitTly 0x4034 store addr p 0 (s.onTly fun t => { t with eccUnc := satInc 16 t.eccUnc })

theorem storeErrNoted_tly (store addr p : Nat) (s : State) :
    (storeErrNoted store addr p s).tly = { s.tly with eccUnc := satInc 16 s.tly.eccUnc } := by
  rw [storeErrNoted, (emitTly_keeps ..).tly_eq rfl]; rfl

section Store
variable {store : Nat} (addr : Nat) (hruns : s.runsProg k = some p)
include hruns

/-- An error of the state store misses the slot. -/
theorem storeErr_of_state : storeErr 1 addr k s = slotFail k (storeErrNoted 1 addr p s) := by
  unfold storeErr
  rw [hruns]
  rfl

/-- An error outside the state store and the sets' frames marks the program failed. -/
theorem storeErr_of_program (hstate : store ≠ 1) (hframe : store = 0 → s.pinnedAddr addr = true) :
    storeErr store addr k s = runFailed k p (storeErrNoted store addr p s) := by
  unfold storeErr
  rw [hruns]
  dsimp only
  rw [if_neg hstate, if_neg (by rintro ⟨h, hnot⟩; simp [hframe h] at hnot)]
  rfl

/-- An error in a set's frame takes the set out. -/
theorem storeErr_of_frame {addr j : Nat} (hpin : s.pinnedAddr addr = false) (hset : s.setAt addr = some j) :
    storeErr 0 addr k s = (storeErrNoted 0 addr p s).updSet j fun x => { x with resident := false } := by
  unfold storeErr
  rw [hruns]
  dsimp only
  rw [if_neg (by decide), if_pos (by simp [hpin]), hset]
  rfl

end Store

theorem runFailed_getRt (k p : Nat) (s : State) : ((runFailed k p s).getRt k).run = .missed := by
  rw [runFailed, slotFail_getRt_self]; rfl

theorem runFailed_tly (k p : Nat) (s : State) : (runFailed k p s).tly = (s.updProg p fun x => { x with failed := true }).tly := by
  rw [runFailed, (slotFail_keeps ..).tly_eq rfl]

/-- What an error of the state, program or constant store leaves. -/
theorem storeErr_effect {store : Nat} (addr : Nat) (hruns : s.runsProg k = some p) (hstore : store ≠ 0) :
    (storeErr store addr k s).tly.eccUnc = satInc 16 s.tly.eccUnc ∧ ((storeErr store addr k s).getRt k).run = .missed ∧
      ((storeErr store addr k s).getProg p).failed = (decide (store ≠ 1) || (s.getProg p).failed) ∧
      ∀ q, q ≠ p → (storeErr store addr k s).getProg q = s.getProg q := by
  have hnoted := storeErrNoted_tly store addr p s
  by_cases hstate : store = 1
  · subst hstate
    have htly : (storeErr 1 addr k s).tly = { s.tly with eccUnc := satInc 16 s.tly.eccUnc } := by
      rw [storeErr_of_state addr hruns, (slotFail_keeps ..).tly_eq rfl, hnoted]
    refine ⟨by rw [htly], by rw [storeErr_of_state addr hruns, slotFail_getRt_self]; rfl, ?_, fun q _ => ?_⟩
    · rw [State.getProg, htly]; rfl
    · rw [State.getProg, htly]; rfl
  · rw [storeErr_of_program addr hruns hstate fun h => absurd h hstore]
    have hprog : ∀ q, (runFailed k p (storeErrNoted store addr p s)).getProg q =
        ((storeErrNoted store addr p s).updProg p fun x => { x with failed := true }).getProg q := getProg_of_tly (runFailed_tly k p _)
    have hnotedProg : ∀ q, (storeErrNoted store addr p s).getProg q = s.getProg q := fun q => by rw [State.getProg, hnoted]; rfl
    refine ⟨?_, runFailed_getRt k p _, ?_, fun q hq => ?_⟩
    · rw [runFailed_tly]
      exact congrArg Tally.eccUnc hnoted
    · rw [hprog, State.getProg_updProg]; simp [hstate]
    · rw [hprog, State.getProg_updProg_ne _ _ _ hq, hnotedProg]

/-- What an error in the pinned region of the coefficient store leaves. -/
theorem storeErr_pinned_effect {addr : Nat} (hruns : s.runsProg k = some p) (hpin : s.pinnedAddr addr = true) :
    (storeErr 0 addr k s).tly.eccUnc = satInc 16 s.tly.eccUnc ∧ ((storeErr 0 addr k s).getRt k).run = .missed ∧
      ((storeErr 0 addr k s).getProg p).failed = true := by
  rw [storeErr_of_program addr hruns (by decide) fun _ => hpin]
  refine ⟨?_, runFailed_getRt k p _, ?_⟩
  · rw [runFailed_tly]
    exact congrArg Tally.eccUnc (storeErrNoted_tly ..)
  · rw [getProg_of_tly (runFailed_tly k p _), State.getProg_updProg]

/-- What an error in a set's frame leaves (log entry 57: the run goes on). -/
theorem storeErr_frame_effect {addr j : Nat} (hruns : s.runsProg k = some p) (hpin : s.pinnedAddr addr = false)
    (hset : s.setAt addr = some j) :
    (storeErr 0 addr k s).tly.eccUnc = satInc 16 s.tly.eccUnc ∧ (storeErr 0 addr k s).getSet j = { s.getSet j with resident := false } ∧
      Only [.hm, .hif, .ldg, .tly] s (storeErr 0 addr k s) := by
  rw [storeErr_of_frame hruns hpin hset, State.getSet_updSet]
  refine ⟨congrArg Tally.eccUnc (storeErrNoted_tly ..), ?_, ?_⟩
  · rw [State.getSet, storeErrNoted_tly]; rfl
  · exact ((State.updSet_keeps ..).step (by decide) ((emitTly_keeps ..).step (by decide) ((State.onTly_keeps ..).mono (by decide)))).only

theorem cubeErr_of_idle (cube ins : Nat) (h : s.runsProg k = none) : cubeErr cube k ins s = s := by
  unfold cubeErr
  rw [h]

theorem storeErr_of_idle (store addr : Nat) (h : s.runsProg k = none) : storeErr store addr k s = s := by
  unfold storeErr
  rw [h]

theorem clrSat_getProg {q : Nat} (hq : q < 128) (s : State) : (clrSat s).getProg q = { s.getProg q with sat := 0 } := by
  have h := forList_entry (fun u => u.getProg q) (f := fun p => State.updProg p fun x => { x with sat := 0 }) (k := q)
    (g := fun x => { x with sat := 0 }) (fun u => State.getProg_updProg ..)
    (fun j hj u => State.getProg_updProg_ne _ _ _ (Ne.symm hj)) (l := List.range 128) List.nodup_range
    (s.onTly fun t => { t with satAcc := 0, satConv := 0, satRn := 0 })
  rw [if_pos (List.mem_range.mpr hq)] at h
  exact h

theorem clrSat_counts (s : State) : (clrSat s).tly.satAcc = 0 ∧ (clrSat s).tly.satConv = 0 ∧ (clrSat s).tly.satRn = 0 :=
  forList_ind (P := fun u => u.tly.satAcc = 0 ∧ u.tly.satConv = 0 ∧ u.tly.satRn = 0)
    (l := List.range 128) (f := fun p => State.updProg p fun x => { x with sat := 0 }) (fun _ _ _ h => h) ⟨rfl, rfl, rfl⟩

section Page
variable {p : Paging} {d : List Nat} (hpage : s.tly.page = some p) (hbuf : p.buf = some d)
include hpage hbuf

/-- The coefficient store with the page in the set's frame. -/
def pageStored (p : Paging) (d : List Nat) (s : State) : State :=
  s.onTly fun t => { t with coef := storePage (s.frameBase p.frame + 256 * p.page) d t.coef }

/-- The set whose last page has landed. -/
def setLanded (p : Paging) (s : State) : State :=
  (s.onTly fun t => { t with page := none, pageLast := 0x4040, pageDone := satInc 16 t.pageDone }).updSet p.set fun y =>
    { y with resident := true, frame := p.frame }

theorem pageCheck_of_last (hdigest : Config.sha384 (wordBytes d) = p.digests.getD p.page 0) (hlast : (s.getSet p.set).npages ≤ p.page + 1) :
    pageCheck s = emitTly 0x4040 p.set p.frame (s.now - p.start) 0 (setLanded p (pageStored p d s)) := by
  unfold pageCheck
  rw [hpage]
  dsimp only
  rw [hbuf]
  dsimp only
  rw [if_neg (not_not.mpr hdigest), if_neg (Nat.not_lt.mpr hlast)]
  rfl

theorem pageCheck_of_more (hdigest : Config.sha384 (wordBytes d) = p.digests.getD p.page 0) (hmore : p.page + 1 < (s.getSet p.set).npages) :
    pageCheck s = pageAsk p.set (p.page + 2) (s.onTly fun t =>
      { t with coef := storePage (s.frameBase p.frame + 256 * p.page) d t.coef,
               page := some { p with page := p.page + 1, got := [], buf := none } }) := by
  unfold pageCheck
  rw [hpage]
  dsimp only
  rw [hbuf]
  dsimp only
  rw [if_neg (not_not.mpr hdigest), if_pos hmore]
  simp only [State.onTly]

theorem pageCheck_of_bad (hdigest : Config.sha384 (wordBytes d) ≠ p.digests.getD p.page 0) :
    pageCheck s = pageEnd 0x4042 p.page s := by
  unfold pageCheck
  rw [hpage]
  dsimp only
  rw [hbuf]
  exact if_pos hdigest

end Page

/-- What the last page of a set leaves. -/
theorem pageCheck_last_effect {p : Paging} {d : List Nat} (hpage : s.tly.page = some p) (hbuf : p.buf = some d)
    (hdigest : Config.sha384 (wordBytes d) = p.digests.getD p.page 0) (hlast : (s.getSet p.set).npages ≤ p.page + 1) :
    (pageCheck s).tly.page = none ∧
      (pageCheck s).tly.coef = storePage (s.frameBase p.frame + 256 * p.page) d s.tly.coef ∧
      (pageCheck s).getSet p.set = { s.getSet p.set with resident := true, frame := p.frame } ∧
      (∀ k, k ≠ p.set → (pageCheck s).getSet k = s.getSet k) ∧
      (QRoom 0x35 s → Logs 0x35 0x4040 p.set p.frame (s.now - p.start) 0 s (pageCheck s)) := by
  have hland : Keeps [.tly] s (setLanded p (pageStored p d s)) :=
    (State.updSet_keeps ..).step (by decide) ((State.onTly_keeps ..).step (by decide) (State.onTly_keeps ..))
  rw [pageCheck_of_last hpage hbuf hdigest hlast]
  have htly := (emitTly_keeps 0x4040 p.set p.frame (s.now - p.start) 0 (setLanded p (pageStored p d s))).tly_eq rfl
  refine ⟨by rw [htly]; rfl, by rw [htly]; simp only [setLanded, pageStored, State.updSet, State.onTly_tly], ?_, fun k hk => ?_,
    emit_logs_after hland (by decide) (by decide) (by decide) (by decide)⟩
  · rw [getSet_of_tly htly, setLanded, State.getSet_updSet]; rfl
  · rw [getSet_of_tly htly, setLanded, State.getSet_updSet_ne _ _ _ hk]; rfl

/-- The set of a page with another digest is bad, and its paging has ended. -/
def setSpoilt (k : Nat) (s : State) : State :=
  (s.onTly fun t => { t with page := none, pageLast := 0x4042, pageFail := satInc 16 t.pageFail }).updSet k fun y => { y with bad := true }

theorem setSpoilt_coef (k : Nat) (s : State) : (setSpoilt k s).tly.coef = s.tly.coef := rfl

theorem setSpoilt_pageFail (k : Nat) (s : State) : (setSpoilt k s).tly.pageFail = satInc 16 s.tly.pageFail := rfl

theorem setSpoilt_getSet (k : Nat) (s : State) : (setSpoilt k s).getSet k = { s.getSet k with bad := true } := State.getSet_updSet ..

theorem setSpoilt_getSet_ne {k j : Nat} (h : j ≠ k) (s : State) : (setSpoilt k s).getSet j = s.getSet j :=
  State.getSet_updSet_ne _ _ _ h

/-- What a page with another digest leaves (R229). -/
theorem pageEnd_bad_effect {p : Paging} (hpage : s.tly.page = some p) (p1 : Nat) :
    (pageEnd 0x4042 p1 s).tly.page = none ∧ (pageEnd 0x4042 p1 s).getSet p.set = { s.getSet p.set with bad := true } ∧
      (pageEnd 0x4042 p1 s).tly.coef = s.tly.coef ∧ (pageEnd 0x4042 p1 s).tly.pageFail = satInc 16 s.tly.pageFail ∧
      ∀ k, k ≠ p.set → (pageEnd 0x4042 p1 s).getSet k = s.getSet k := by
  have heq : pageEnd 0x4042 p1 s = emitTly 0x4042 p.set p1 0 0 (setSpoilt p.set (hmDrop (HmPurpose.ofSet p.set) s)) := by
    unfold pageEnd
    rw [hpage]
    rfl
  have hdrop := (hmDrop_keeps (HmPurpose.ofSet p.set) s).tly_eq rfl
  have htly : (pageEnd 0x4042 p1 s).tly = (setSpoilt p.set (hmDrop (HmPurpose.ofSet p.set) s)).tly := by
    rw [heq, (emitTly_keeps ..).tly_eq rfl]
  refine ⟨by rw [htly]; rfl, ?_, by rw [htly, setSpoilt_coef, hdrop], by rw [htly, setSpoilt_pageFail, hdrop], fun k hk => ?_⟩
  · rw [getSet_of_tly htly, setSpoilt_getSet, getSet_of_tly hdrop]
  · rw [getSet_of_tly htly, setSpoilt_getSet_ne hk, getSet_of_tly hdrop]

section Ecc
variable (hlive : s.live = true) (st : Fin 4) (addr : Nat) (k : Fin 256)
include hlive

theorem execTlyStoreEcc_of_corrected :
    execTlyStoreEcc st addr k true s = .next (s.onTly fun x => { x with eccCorr := satInc 16 x.eccCorr }) :=
  act_of_live hlive _

theorem execTlyStoreEcc_of_uncorrectable : execTlyStoreEcc st addr k false s = .next (storeErr st.val addr k.val s) :=
  act_of_live hlive _

end Ecc

/-- Settles O22. -/
theorem tallyErrorsAndPaging : Obligations.TallyErrorsAndPaging := by
  refine ⟨fun s cube k p ins addr st hlive => ⟨fun hruns => ⟨fun hact => ?_, fun hst => ?_, fun hpin => ?_, fun j hpin hset => ?_⟩,
    fun hidle => ⟨act_eq hlive (cubeErr_of_idle _ _ hidle), (execTlyStoreEcc_of_uncorrectable hlive st addr k).trans (congrArg _ (storeErr_of_idle st.val addr hidle))⟩, execTlyStoreEcc_of_corrected hlive st addr k, fun hemu => ?_⟩,
    fun s p d hlive hpage hbuf => ⟨fun hdigest => ⟨fun hlast => ?_, fun hmore => ?_⟩, fun hdigest => ?_⟩⟩
  · obtain ⟨h1, h2, h3, h4⟩ := cubeErr_effect ins hruns hact
    exact ⟨_, act_eq hlive rfl, h1, h2, h3, h4, (cubeErr_keeps cube.val k.val ins s).only⟩
  · obtain ⟨h1, h2, h3, h4⟩ := storeErr_effect addr hruns hst
    exact ⟨_, execTlyStoreEcc_of_uncorrectable hlive st addr k, h1, h2, h3, h4, (storeErr_keeps st.val addr k.val s).only⟩
  · obtain ⟨h1, h2, h3⟩ := storeErr_pinned_effect hruns hpin
    exact ⟨_, execTlyStoreEcc_of_uncorrectable hlive 0 addr k, h1, h2, h3, (storeErr_keeps 0 addr k.val s).only⟩
  · obtain ⟨h1, h2, h3⟩ := storeErr_frame_effect hruns hpin hset
    exact ⟨_, execTlyStoreEcc_of_uncorrectable hlive 0 addr k, h1, h2, h3⟩
  · obtain ⟨h1, h2, h3⟩ := clrSat_counts s
    have hans := hsAnswer_keeps 0 0 (clrSat s)
    refine ⟨_, hsEmu_eq hemu rfl, ?_, ?_, ?_, fun q hq => ?_, (hans.step (by decide) ((clrSat_keeps s).mono (by decide))).only⟩
    · rw [hans.tly_eq rfl]; exact h1
    · rw [hans.tly_eq rfl]; exact h2
    · rw [hans.tly_eq rfl]; exact h3
    · rw [getProg_of_tly (hans.tly_eq rfl)]; exact clrSat_getProg hq s
  · obtain ⟨h1, h2, h3, h4, h5⟩ := pageCheck_last_effect hpage hbuf hdigest hlast
    exact ⟨_, act_eq hlive rfl, h1, h2, h3, h4, h5, (pageCheck_keeps s).only⟩
  · rw [← pageCheck_of_more hpage hbuf hdigest hmore]
    exact act_of_live hlive pageCheck
  · obtain ⟨h1, h2, h3, h4, h5⟩ := pageEnd_bad_effect hpage p.page
    exact ⟨_, act_eq hlive (pageCheck_of_bad hpage hbuf hdigest), h1, h2, h3, h4, h5, (pageEnd_keeps 0x4042 p.page s).only⟩

end Sys2Proof.Machine
end

section
/-!
Temperature sites and the thermal trip (chapters 05 and 17).
-/
namespace Sys2Proof.Machine

section StaysDown
variable {s : State} {c : Nat}

/-- Cluster `c` is stopped and no start is in progress. -/
structure IdleClu (c : Nat) (s : State) : Prop where
  down : CluDown c s
  starts : NoStarts s

theorem CluDown.cluStop (j : Nat) (h : CluDown c s) : CluDown c (cluStop j s) := by
  by_cases e : c = j
  · subst e; exact cluStop_down c _
  · rwa [CluDown, cluStop_getClu_ne _ _ e]

theorem CluDown.stopClustersOf (r : Nat) (h : CluDown c s) : CluDown c (stopClustersOf r s) := by
  refine forList_ind (P := CluDown c) (fun j _ u hu => ?_) h
  refine CluDown.of_loop ((domStopSend_keeps ..).loop_eq rfl) ?_
  by_cases e : c = j
  · subst e; exact cluStop_down c _
  · rwa [CluDown, cluStop_getClu_ne _ _ e, State.getClu_updClu_ne _ _ _ e]

theorem CluDown.railFault (cause r : Nat) (h : CluDown c s) : CluDown c (railFault cause r s) := by
  unfold Machine.railFault
  split
  · exact h
  · refine CluDown.of_loop (State.updReg_loop ..) (CluDown.of_loop (State.updProt_loop ..) ?_)
    refine CluDown.stopClustersOf r (CluDown.of_loop ((railPhasesTo_keeps ..).loop_eq rfl) ?_)
    exact CluDown.of_loop ((railPenLow_keeps ..).loop_eq rfl) (CluDown.of_loop ((brakeStop_keeps r s).loop_eq rfl) h)

theorem IdleClu.finishStart (h : IdleClu c s) : IdleClu c (finishStart s) :=
  ⟨by rw [finishStart_of_noStarts h.starts]; exact h.down, h.starts.finishStart⟩

theorem IdleClu.finishStops (h : IdleClu c s) : IdleClu c (finishStops s) :=
  ⟨h.down.of_loop ((finishStops_keeps s).loop_eq rfl), h.starts.finishStops⟩

theorem IdleClu.fastStop (l : List Nat) (cause track : Nat) (h : IdleClu c s) : IdleClu c (fastStop l cause track s) := by
  unfold Machine.fastStop
  extract_lets act lv s1 q s2
  split
  · exact h
  · have h1 : IdleClu c s1 := forList_ind (P := IdleClu c)
      (fun j _ u hu => ⟨hu.down.stopClustersOf j, hu.starts.of_eq (congrArg Rails.starts (stopClustersOf_rail j u))⟩) h
    have h2 : IdleClu c s2 := forList_ind (P := IdleClu c)
      (fun j _ u hu => ⟨hu.down.railFault _ j, hu.starts.of_eq (railFault_starts ..)⟩) h1
    exact (IdleClu.finishStops (s := s2.onRail fun x => { x with stops := x.stops ++ [q] }) ⟨h2.down, h2.starts⟩).finishStart

theorem IdleClu.rampDown (q : StopSeq) (j : Nat) (h : IdleClu c s) : IdleClu c (rampDown q j s) := by
  have hstop := IdleClu.fastStop (s := (s.updProt j fun x => { x with st := 4, zeroAt := none }).updReg j fun x =>
      { x with target := 0, forced := some 0, host := none, reached := false })
    ((trackers s 8 j).filter fun k => !bitOf q.rails k && decide ((s.getProt k).st = 1 ∨ (s.getProt k).st = 2)) 6 0 ⟨h.down, h.starts⟩
  exact ⟨hstop.down.of_loop ((masterFaults_keeps ..).loop_eq rfl), h.starts.rampDown q j⟩

theorem IdleClu.rampDownLevels (h : IdleClu c s) : IdleClu c (rampDownLevels s) := by
  refine forList_ind (P := IdleClu c) (fun q _ u hu => ?_) h
  extract_lets rails waiting lv
  split
  · exact hu
  · exact forList_ind (P := IdleClu c) (fun j _ _ hv => hv.rampDown q j) hu

theorem IdleClu.railSettle (h : IdleClu c s) : IdleClu c (railSettle s) := h.rampDownLevels.finishStops.finishStart

/-- A fast stop of every rail leaves a stopped cluster stopped. -/
theorem CluDown.fastStopAll (cause : Nat) (h : CluDown c s) : CluDown c (fastStopAll cause s) :=
  (IdleClu.railSettle (IdleClu.fastStop _ cause 0 (s := s.onRail fun x => { x with starts := [] }) ⟨h, rfl⟩)).down

end StaysDown

/-- What a conversion of a site measured, and whether its ring answers: what the judgements that follow leave alone. -/
def Site.reading (x : Site) : Bool × Nat × Option Int × Nat × List Int × Bool :=
  (x.ovr, x.code, x.meas, x.pause, x.accepted, x.ringFail)

section Reading
variable {s : State} {k : Nat}

theorem updSite_reading (i : Nat) {f : Site → Site} (hf : ∀ x, (f x).reading = x.reading) :
    ((s.updSite i f).getSite k).reading = (s.getSite k).reading := by
  by_cases e : k = i
  · subst e; rw [State.getSite_updSite, hf]
  · rw [State.getSite_updSite_ne _ _ _ e]

theorem reading_of_sns {t : State} (h : t.sns = s.sns) : (t.getSite k).reading = (s.getSite k).reading := by
  rw [getSite_of_sns h]

theorem siteDiffers_reading (i : Nat) (p : Int) : ((siteDiffers i p s).getSite k).reading = (s.getSite k).reading := by
  unfold siteDiffers
  dsimp only
  split
  · exact updSite_reading i fun _ => rfl
  · rw [reading_of_sns ((emitSns_keeps ..).sns_eq rfl)]
    exact updSite_reading i fun _ => rfl

theorem sitePlausible_reading (i : Nat) (m : Option Int) : ((sitePlausible i m s).getSite k).reading = (s.getSite k).reading := by
  unfold sitePlausible
  split
  · rfl
  · split
    · rfl
    · extract_lets far
      by_cases hfar : far = true
      · rw [if_pos hfar]; exact siteDiffers_reading i _
      · rw [if_neg hfar]; exact updSite_reading i fun _ => rfl

theorem bandUpdate_reading (i : Nat) : ((bandUpdate i s).getSite k).reading = (s.getSite k).reading := by
  unfold bandUpdate
  dsimp only
  split
  · exact updSite_reading i fun _ => rfl
  · split
    · exact updSite_reading i fun _ => rfl
    · rfl

theorem noNeighbour_reading (i : Nat) : ((noNeighbour i s).getSite k).reading = (s.getSite k).reading := by
  unfold noNeighbour
  extract_lets x bad
  split
  · rw [reading_of_sns ((emitSns_keeps ..).sns_eq rfl), reading_of_sns ((setAlarm_keeps ..).sns_eq rfl)]
    exact updSite_reading i fun _ => rfl
  · split
    · exact updSite_reading i fun _ => rfl
    · rfl

theorem siteChanged_reading (i : Nat) : ((siteChanged i s).getSite k).reading = (s.getSite k).reading := by
  unfold siteChanged
  extract_lets l
  rw [reading_of_sns ((oscSite_keeps ..).sns_eq rfl), reading_of_sns ((dwellUpdate_keeps ..).sns_eq rfl),
    reading_of_sns ((forList_keeps l (fun a u h => h.trans (tripPending_keeps a u)) (Keeps.refl _ _)).sns_eq rfl),
    forList_eq (fun u => (u.getSite k).reading) l (fun a u => noNeighbour_reading a),
    forList_eq (fun u => (u.getSite k).reading) l (fun a u => bandUpdate_reading a)]

theorem tapTemps_getSite (i : Nat) : (tapTemps i s).getSite k = s.getSite k := by
  unfold tapTemps
  split
  · rfl
  · exact forList_eq (fun u => u.getSite k) _ (fun d u => by rfl) s

/-- The state in which a result of site `i` is judged: the compensation is drawn and the conversion is dated. -/
def siteDated (i : Nat) (s : State) : State := oscComp i (siteStamp i s)

theorem siteDated_getSite (i : Nat) : ∃ m, (siteDated i s).getSite i = { s.getSite i with stamp := m } := by
  have hosc : (siteDated i s).getSite i = (siteStamp i s).getSite i := getSite_of_sns ((oscComp_keeps ..).sns_eq rfl) i
  rw [hosc, siteStamp]
  exact ⟨_, (getSite_of_sns ((State.drawn_keeps _).sns_eq rfl) i).trans (State.getSite_updSite ..)⟩

end Reading

section Result
variable {s : State} {i : Nat} {code : BitVec 16}

/-- The site with an accepted code (R121, R122). -/
def Site.measured (v : Int) (c : Nat) (used : Bool) (y : Site) : Site :=
  { y with ovr := false, code := c, meas := some v, pause := y.pause - 1, wait := decide (y.pause = 1),
           accepted := if used then (v :: y.accepted).take 4 else y.accepted }

/-- The site with an overrange code (R123). -/
def Site.overranged (y : Site) : Site := { y with ovr := true, code := 0x7FFF, meas := none, pause := 3, wait := false }

variable (hpresent : (s.siteCfg i).present = true) (hring : (s.getSite i).ringFail = false)
include hpresent hring

theorem siteResult_reading (hcode : code ≠ 0x7FFF#16) : ((siteResult i code s).getSite i).reading =
    ((s.getSite i).measured (siteTemp (s.siteCfg i) code.toInt) code.toNat
      (decide ((s.getSite i).pause = 0) && !(s.getSite i).excl)).reading := by
  obtain ⟨m, hm⟩ := siteDated_getSite (s := s) i
  unfold siteResult
  extract_lets g x u _ _ v used u1
  rw [if_neg (by simp [g, x, hpresent, hring]), if_neg hcode, tapTemps_getSite, siteChanged_reading, sitePlausible_reading]
  change (((siteDated i s).updSite i (Site.measured v code.toNat used)).getSite i).reading = _
  rw [State.getSite_updSite, hm]
  rfl

theorem siteResult_overranged : ((siteResult i 0x7FFF#16 s).getSite i).reading = (s.getSite i).overranged.reading := by
  obtain ⟨m, hm⟩ := siteDated_getSite (s := s) i
  unfold siteResult
  extract_lets g x u u1 u2 _ _ _
  have hu2 : (u2.getSite i).reading = (u1.getSite i).reading := by
    unfold u2
    split
    · exact reading_of_sns ((emitSns_keeps ..).sns_eq rfl)
    · rfl
  rw [if_neg (by simp [g, x, hpresent, hring]), if_pos rfl, siteChanged_reading, sitePlausible_reading, hu2]
  change (((siteDated i s).updSite i Site.overranged).getSite i).reading = _
  rw [State.getSite_updSite, hm]
  rfl

theorem siteSample_of_due (hdue : due s.now (siteInterval s i) (s.getSite i).lastCmd = true) :
    siteSample i s = s.updSite i fun y => { y with lastCmd := some s.now } :=
  if_pos (by simp [hpresent, hring, hdue])

omit hpresent hring in
theorem siteSample_of_not_due (hdue : due s.now (siteInterval s i) (s.getSite i).lastCmd = false) : siteSample i s = s :=
  if_neg (by simp [hdue])

end Result

section Trip
variable {s : State} {i : Nat} {v : Int}

/-- The trip is counted and kept. -/
def tripNoted (i : Nat) (v : Int) (s : State) : State :=
  let trips := recentHour s.now s.aud.trips ++ [s.now]
  s.onAud fun a =>
    { a with trips := trips, tripActive := true, tripLatched := a.tripLatched || decide (3 ≤ trips.length), tripSite := i,
             tripSubst := !(s.getSite i).inService, tripInput := v, tripTime := s.now, dwell := none }

/-- The trip's fault record and its Ledger record. -/
def tripRecorded (i : Nat) (v : Int) (s : State) : State :=
  emitTrip 0xC020 i (encS 32 v) (encS 32 (s.siteLimit i)) (recentHour s.now s.aud.trips ++ [s.now]).length
    (frecTake 0xC020 0xFF 0xFF (maskOf ((List.range 8).filter fun r => (s.getProt r).running)) i (encS 32 v)
      (encS 32 (s.siteLimit i)) (tripNoted i v s))

/-- The third trip within an hour latches, with its alarm. -/
def tripLatch (i : Nat) (v : Int) (s : State) : State :=
  if decide (3 ≤ (recentHour s.now s.aud.trips ++ [s.now]).length) && !s.aud.tripLatched then
    emitTrip 0xC022 i 0 0 0 (setAlarm 18 (tripRecorded i v s))
  else tripRecorded i v s

/-- A test of a unit that the trip ends is abandoned. -/
def tripAbandon (s : State) : State :=
  match s.aud.test with
  | some t => if t.kind = 2 ∨ t.kind = 4 then audAbandon 1 s else s
  | none => s

theorem thermTrip_of_hot (hinput : tripInput s i = some v) (hpresent : (s.siteCfg i).present = true) (hhot : s.siteLimit i < v)
    (hrun : s.anyRunning = true) : thermTrip i s =
      fastStopAll 8 (forList (tripAbandon (tripLatch i v s)).clusters cluStop (tripAbandon (tripLatch i v s))) := by
  unfold thermTrip
  rw [hinput]
  dsimp only
  rw [if_pos (by simp [hpresent, hhot, hrun])]
  rfl

theorem thermTrip_of_cool (hinput : tripInput s i = some v) (hcool : v ≤ s.siteLimit i) : thermTrip i s = s := by
  unfold thermTrip
  rw [hinput]
  exact if_neg (by simp [Int.not_lt.mpr hcool])

/-- What is kept of the last trip. -/
def Audit.trip (a : Audit) : Bool × Nat × Int × Nat × List Nat × Bool :=
  (a.tripActive, a.tripSite, a.tripInput, a.tripTime, a.trips, a.tripLatched)

theorem audAbandon_trip (cause : Nat) (s : State) : (audAbandon cause s).aud.trip = s.aud.trip := by
  unfold audAbandon
  split
  · rfl
  · dsimp only
    split
    · rw [(complete_keeps ..).aud_eq rfl, (emitClerk_keeps ..).aud_eq rfl]; rfl
    · rw [(emitClerk_keeps ..).aud_eq rfl]; rfl

theorem tripAbandon_trip (s : State) : (tripAbandon s).aud.trip = s.aud.trip := by
  unfold tripAbandon
  split
  · split
    · exact audAbandon_trip 1 s
    · rfl
  · rfl

theorem tripAbandon_keeps (s : State) : Keeps [.hm, .hif, .ldg, .fc, .trs, .aud] s (tripAbandon s) := by
  unfold tripAbandon
  split
  · split
    · exact audAbandon_keeps 1 s
    · exact Keeps.refl _ s
  · exact Keeps.refl _ s

theorem tripRecorded_aud (i : Nat) (v : Int) (s : State) : (tripRecorded i v s).aud = (tripNoted i v s).aud := by
  rw [tripRecorded, (emitTrip_keeps ..).aud_eq rfl, (frecTake_keeps ..).aud_eq rfl]

theorem tripLatch_aud (i : Nat) (v : Int) (s : State) : (tripLatch i v s).aud = (tripNoted i v s).aud := by
  unfold tripLatch
  split
  · rw [(emitTrip_keeps ..).aud_eq rfl, (setAlarm_keeps ..).aud_eq rfl, tripRecorded_aud]
  · exact tripRecorded_aud i v s

theorem tripNoted_keeps (i : Nat) (v : Int) (s : State) : Keeps [.aud] s (tripNoted i v s) := by
  unfold tripNoted
  exact State.onAud_keeps _ s

theorem tripLatch_keeps (i : Nat) (v : Int) (s : State) : Keeps [.pwr, .frec, .hm, .hif, .ldg, .aud] s (tripLatch i v s) := by
  have h : Keeps [.pwr, .frec, .hm, .hif, .ldg, .aud] s (tripRecorded i v s) :=
    (emitTrip_keeps ..).step (by decide) <| (frecTake_keeps ..).step (by decide) <|
      (tripNoted_keeps i v s).mono (by decide)
  unfold tripLatch
  split
  · exact (emitTrip_keeps ..).step (by decide) <| (setAlarm_keeps ..).step (by decide) h
  · exact h

/-- The third trip within an hour sets the alarm of the latched trip, if it is not latched yet. -/
theorem tripLatch_alarm (hthird : 2 ≤ (recentHour s.now s.aud.trips).length) (hfresh : s.aud.tripLatched = false) :
    bitOf (tripLatch i v s).pwr.alarm 18 = true := by
  unfold tripLatch
  rw [if_pos (by simp [hfresh, hthird]), (emitTrip_keeps ..).pwr_eq rfl]
  exact bitOf_setAlarm 18 _

/-- What the stops of the clusters after a trip leave alone. -/
theorem cluStops_keeps (l : List Nat) (s : State) : Keeps [.loop, .hm, .hif, .ldg, .fw, .trs, .syn] s (forList l cluStop s) :=
  forList_keeps l (fun c u h => h.trans (cluStop_keeps c u)) (Keeps.refl _ s)

/-- What a trip leaves (R447, R448). -/
theorem thermTrip_aud (hinput : tripInput s i = some v) (hpresent : (s.siteCfg i).present = true) (hhot : s.siteLimit i < v)
    (hrun : s.anyRunning = true) : (thermTrip i s).aud.trip = (tripNoted i v s).aud.trip := by
  rw [thermTrip_of_hot hinput hpresent hhot hrun, (fastStopAll_keeps ..).aud_eq rfl, (cluStops_keeps ..).aud_eq rfl, tripAbandon_trip,
    tripLatch_aud]

theorem thermTrip_alarm (hinput : tripInput s i = some v) (hpresent : (s.siteCfg i).present = true) (hhot : s.siteLimit i < v)
    (hrun : s.anyRunning = true) (hthird : 2 ≤ (recentHour s.now s.aud.trips).length) (hfresh : s.aud.tripLatched = false) :
    bitOf (thermTrip i s).pwr.alarm 18 = true := by
  rw [thermTrip_of_hot hinput hpresent hhot hrun, (fastStopAll_keeps ..).pwr_eq rfl, (cluStops_keeps ..).pwr_eq rfl,
    (tripAbandon_keeps _).pwr_eq rfl]
  exact tripLatch_alarm hthird hfresh

theorem thermTrip_down (hinput : tripInput s i = some v) (hpresent : (s.siteCfg i).present = true) (hhot : s.siteLimit i < v)
    (hrun : s.anyRunning = true) {c : Nat} (hc : c ∈ s.clusters) : CluDown c (thermTrip i s) := by
  have hclu : (tripAbandon (tripLatch i v s)).clusters = s.clusters := by
    rw [(tripAbandon_keeps _).clusters_eq rfl, (tripLatch_keeps i v s).clusters_eq rfl]
  rw [thermTrip_of_hot hinput hpresent hhot hrun]
  exact CluDown.fastStopAll 8 (forList_est (P := CluDown c) (hclu ▸ hc) (fun j u hu => hu.cluStop j) (fun u => cluStop_down c u) _)

/-- A trip ends once every trip input has stayed low for 2 s (R450). -/
theorem restartOk_of_dwell {t0 : Nat} (hact : s.aud.tripActive = true) (hfree : s.aud.tripLatched = false) (hdwell : s.aud.dwell = some t0)
    (hlong : t0 + 2000000000 ≤ s.now) : restartOk s =
      emitTrip 0xC021 (divRoundN (s.now - s.aud.tripTime) nsPerMs) 0 0 0 (s.onAud fun b => { b with tripActive := false }) := by
  unfold restartOk
  dsimp only
  rw [hdwell, if_pos (by simp [hact, hfree, nsPerS, hlong])]

theorem restartOk_of_short (h : s.aud.tripLatched = true ∨ s.aud.dwell = none ∨ (∃ t0, s.aud.dwell = some t0 ∧ s.now < t0 + 2000000000)) :
    restartOk s = s := by
  unfold restartOk
  rcases h with h | h | ⟨t0, h, hshort⟩
  · simp [h]
  · simp [h]
  · simp [h, nsPerS, Nat.not_le.mpr hshort]

end Trip

/-- Settles O23. -/
theorem sitesSampledAndTrips : Obligations.SitesSampledAndTrips := by
  refine ⟨fun s i code hlive hpresent hring => ⟨fun hdue => act_eq hlive (siteSample_of_due hpresent hring hdue),
    fun hdue => act_eq hlive (siteSample_of_not_due hdue), fun hcode => ?_, fun hcode => ?_⟩,
    fun s i v hlive => ⟨fun hpresent hinput hhot hrun => ?_, fun hinput hcool => act_eq hlive (thermTrip_of_cool hinput hcool),
      fun t0 hact hfree hdwell hlong => ?_, fun hshort => act_eq hlive (restartOk_of_short hshort)⟩⟩
  · have hread := siteResult_reading hpresent hring hcode
    simp only [Site.reading, Prod.mk.injEq] at hread
    obtain ⟨hovr, hc, hmeas, hpause, hacc, -⟩ := hread
    refine ⟨_, act_eq hlive rfl, hc, hmeas, hovr, hpause, fun h1 h2 => ?_, (siteResult_keeps i.val code s).only⟩
    rw [hacc]
    exact if_pos (by simp [h1, h2])
  · subst hcode
    have hread := siteResult_overranged hpresent hring
    simp only [Site.reading, Prod.mk.injEq] at hread
    obtain ⟨hovr, -, hmeas, hpause, hacc, -⟩ := hread
    exact ⟨_, act_eq hlive rfl, hovr, hmeas, hpause, hacc, (siteResult_keeps i.val _ s).only⟩
  · have htrip := thermTrip_aud hinput hpresent hhot hrun
    simp only [Audit.trip, Prod.mk.injEq] at htrip
    obtain ⟨hact, hsite, hin, htime, htrips, hlatched⟩ := htrip
    refine ⟨_, act_eq hlive rfl, hact, hsite, hin, htime, htrips, ?_, fun hthird => ?_,
      thermTrip_alarm hinput hpresent hhot hrun, fun c hc => ?_, (thermTrip_keeps i.val s).only⟩
    · rw [thermTrip_of_hot hinput hpresent hhot hrun]
      exact fastStopAll_noStarts 8 _
    · rw [hlatched]
      simp [tripNoted, hthird]
    · obtain ⟨hst, -, hceil⟩ := thermTrip_down hinput hpresent hhot hrun hc
      exact ⟨hst, hceil⟩
  · refine ⟨_, act_eq hlive rfl, ?_, (restartOk_keeps s).only⟩
    rw [restartOk_of_dwell hact hfree hdwell hlong, (emitTrip_keeps ..).aud_eq rfl]
    rfl

end Sys2Proof.Machine
end

section
/-!
Sensor rings, voltage references and droop detectors (chapters 02 and 05).
-/
namespace Sys2Proof.Machine

section Macros
variable {s : State} {ring lo hi : Nat} {bad : Bool}

/-- A site that takes its ring's state. -/
def ringTurn (bad : Bool) (i : Nat) (t : State) : State := siteChanged i (t.updSite i fun x => { x with ringFail := bad })

/-- The turn of a site whose ring changes, with the record of its return. -/
def ringSite (bad : Bool) (i : Nat) (t : State) : State :=
  if !bad && (t.getSite i).ringFail && !(t.getSite i).excl then emitSns 0x2003 i 1 0 0 (ringTurn bad i t) else ringTurn bad i t

theorem ringSite_sns (bad : Bool) (i : Nat) (t : State) : (ringSite bad i t).sns = (ringTurn bad i t).sns := by
  unfold ringSite
  split
  · exact (emitSns_keeps ..).sns_eq rfl
  · rfl

theorem ringMacros_sites : ringMacros 0 ring lo hi bad s =
    forList (s.sites.filter fun i => (s.siteCfg i).ring = ring ∧ lo ≤ (s.siteCfg i).pos ∧ (s.siteCfg i).pos < hi) (ringSite bad) s := rfl

theorem ringMacros_dets : ringMacros 1 ring lo hi bad s =
    forList ((List.range 1024).filter fun k => (s.detCfg k).present && decide ((s.detCfg k).ring = ring ∧ lo ≤ (s.detCfg k).pos ∧ (s.detCfg k).pos < hi))
      (fun k => State.updDet k fun x => { x with ringFail := bad }) s := rfl

theorem ringMacros_mons {kind : Nat} (h0 : kind ≠ 0) (h1 : kind ≠ 1) : ringMacros kind ring lo hi bad s =
    forList ((List.range 160).filter fun k => (s.monCfg k).present && decide ((s.monCfg k).ring = ring ∧ lo ≤ (s.monCfg k).pos ∧ (s.monCfg k).pos < hi))
      (fun k => State.updMon k fun x => { x with ringFail := bad }) s := by
  unfold ringMacros
  rw [if_neg h0, if_neg h1]
  rfl

theorem siteChanged_ringFail (i k : Nat) : ((siteChanged i s).getSite k).ringFail = (s.getSite k).ringFail := by
  have h := siteChanged_reading (s := s) (k := k) i
  simp only [Site.reading, Prod.mk.injEq] at h
  obtain ⟨-, -, -, -, -, h⟩ := h
  exact h

theorem ringSite_self (i : Nat) (t : State) : ((ringSite bad i t).getSite i).ringFail = bad := by
  rw [getSite_of_sns (ringSite_sns bad i t), ringTurn, siteChanged_ringFail, State.getSite_updSite]

theorem ringSite_other {i k : Nat} (hk : k ≠ i) (t : State) : ((ringSite bad i t).getSite k).ringFail = (t.getSite k).ringFail := by
  rw [getSite_of_sns (ringSite_sns bad i t), ringTurn, siteChanged_ringFail, State.getSite_updSite_ne _ _ _ hk]

theorem bandUpdate_rings (i : Nat) : (bandUpdate i s).sns.rings = s.sns.rings := by
  unfold bandUpdate
  dsimp only
  split
  · rfl
  · split <;> rfl

theorem noNeighbour_rings (i : Nat) : (noNeighbour i s).sns.rings = s.sns.rings := by
  unfold noNeighbour
  extract_lets x bad
  split
  · rw [(emitSns_keeps ..).sns_eq rfl, (setAlarm_keeps ..).sns_eq rfl]; rfl
  · split <;> rfl

theorem siteChanged_rings (i : Nat) : (siteChanged i s).sns.rings = s.sns.rings := by
  unfold siteChanged
  extract_lets l
  rw [(oscSite_keeps ..).sns_eq rfl, (dwellUpdate_keeps ..).sns_eq rfl,
    (forList_keeps l (fun a u h => h.trans (tripPending_keeps a u)) (Keeps.refl _ _)).sns_eq rfl,
    forList_eq (fun u => u.sns.rings) l (fun a u => noNeighbour_rings a),
    forList_eq (fun u => u.sns.rings) l (fun a u => bandUpdate_rings a)]

theorem ringSite_rings (i : Nat) (t : State) : (ringSite bad i t).sns.rings = t.sns.rings := by
  rw [ringSite_sns, ringTurn, siteChanged_rings]
  rfl

/-- What the sensors of a ring do leaves the rings' states alone. -/
theorem ringMacros_rings (kind : Nat) : (ringMacros kind ring lo hi bad s).sns.rings = s.sns.rings := by
  by_cases h0 : kind = 0
  · rw [h0, ringMacros_sites]
    rw [forList_eq (fun u : State => u.sns.rings) _ (fun i u => ringSite_rings i u)]
  · by_cases h1 : kind = 1
    · rw [h1, ringMacros_dets]
      rw [forList_eq (fun u : State => u.sns.rings) _ (f := fun k => State.updDet k fun x => { x with ringFail := bad }) (fun k u => by rfl)]
    · rw [ringMacros_mons h0 h1]
      rw [forList_eq (fun u : State => u.sns.rings) _ (f := fun k => State.updMon k fun x => { x with ringFail := bad }) (fun k u => by rfl)]

/-- Every site of the ring from `lo` on takes the ring's state. -/
theorem ringMacros_site {i : Nat} (hi_ : i ∈ s.sites) (hring : (s.siteCfg i).ring = ring) (hlo : lo ≤ (s.siteCfg i).pos)
    (hhi : (s.siteCfg i).pos < hi) : ((ringMacros 0 ring lo hi bad s).getSite i).ringFail = bad := by
  rw [ringMacros_sites]
  refine forList_est (P := fun u => (u.getSite i).ringFail = bad) (List.mem_filter.mpr ⟨hi_, by simp [hring, hlo, hhi]⟩)
    (fun j u hu => ?_) (fun u => ringSite_self i u) s
  by_cases e : i = j
  · subst e; exact ringSite_self i u
  · rwa [ringSite_other e]

theorem ringMacros_det {k : Nat} (hk : k < 1024) (hpresent : (s.detCfg k).present = true) (hring : (s.detCfg k).ring = ring)
    (hlo : lo ≤ (s.detCfg k).pos) (hhi : (s.detCfg k).pos < hi) : ((ringMacros 1 ring lo hi bad s).getDet k).ringFail = bad := by
  rw [ringMacros_dets]
  refine forList_est (P := fun u => (u.getDet k).ringFail = bad)
    (List.mem_filter.mpr ⟨List.mem_range.mpr hk, by simp [hpresent, hring, hlo, hhi]⟩) (fun j u hu => ?_)
    (fun u => by rw [State.getDet_updDet]) s
  by_cases e : k = j
  · subst e; rw [State.getDet_updDet]
  · rwa [State.getDet_updDet_ne _ _ _ e]

theorem ringMacros_mon {k : Nat} (hk : k < 160) (hpresent : (s.monCfg k).present = true) (hring : (s.monCfg k).ring = ring)
    (hlo : lo ≤ (s.monCfg k).pos) (hhi : (s.monCfg k).pos < hi) : ((ringMacros 2 ring lo hi bad s).getMon k).ringFail = bad := by
  rw [ringMacros_mons (by decide) (by decide)]
  refine forList_est (P := fun u => (u.getMon k).ringFail = bad)
    (List.mem_filter.mpr ⟨List.mem_range.mpr hk, by simp [hpresent, hring, hlo, hhi]⟩) (fun j u hu => ?_)
    (fun u => by rw [State.getMon_updMon]) s
  by_cases e : k = j
  · subst e; rw [State.getMon_updMon]
  · rwa [State.getMon_updMon_ne _ _ _ e]

end Macros

section Ring
variable {s : State} {kind ring first : Nat}

/-- A ring's first silent position is noted. -/
def ringNoted (kind ring : Nat) (x : Option (Nat × Nat)) (s : State) : State :=
  s.onSns fun n => { n with rings := Tbl.set none n.rings (16 * kind + ring) x }

theorem ringNoted_get (x : Option (Nat × Nat)) : Tbl.get none (ringNoted kind ring x s).sns.rings (16 * kind + ring) = x :=
  Tbl.get_set_self ..

/-- A ring that falls silent, or further in than before (R51). -/
theorem ringFail_of_nearer (hring : ring < ringCount kind)
    (hnear : ∀ f t0, Tbl.get none s.sns.rings (16 * kind + ring) = some (f, t0) → first < f) : ringFail kind ring first s =
    emitSns 0x2030 kind ring first 0 (ringMacros kind ring first 64 true (ringNoted kind ring (some (first, s.now)) s)) := by
  unfold ringFail
  extract_lets nearer
  have hnearer : nearer = true := by
    unfold nearer
    split
    · rfl
    · rename_i h; exact decide_eq_true (hnear _ _ h)
  rw [if_pos (by simp [hring, hnearer])]
  rfl

section Retry
variable {f t0 : Nat} (hget : Tbl.get none s.sns.rings (16 * kind + ring) = some (f, t0))
include hget

/-- A retry at which everything on the ring answers (R51). -/
theorem ringRetry_of_all (hf : f < 64) (hlong : t0 + 100000000 ≤ s.now) : ringRetry kind ring none s =
    emitSns 0x2031 kind ring (ringSize s kind ring f 64) 0 (ringMacros kind ring f 64 false (ringNoted kind ring none s)) := by
  unfold ringRetry
  dsimp only
  rw [hget]
  dsimp only
  rw [if_neg (by simp [nsPerMs, hlong])]
  simp only [Option.getD_none, if_neg (Nat.lt_asymm hf), if_neg (Nat.ne_of_gt hf)]
  rfl

theorem ringRetry_of_soon (hsoon : s.now < t0 + 100000000) : ringRetry kind ring none s = s := by
  unfold ringRetry
  dsimp only
  rw [hget]
  exact if_pos (by simp [nsPerMs, hsoon])

end Retry
end Ring

section Compare
variable {s : State} {a b c : Nat}

/-- The comparison's runs, before an exclusion (R118). -/
def refRuns (a b c : Nat) (s : State) : State :=
  let ab := refFar a b; let ac := refFar a c; let bc := refFar b c
  let n := s.sns
  let none_ := n.excl.all fun e => !e
  let alone : List Bool := [ab && ac && !bc, ab && bc && !ac, ac && bc && !ab]
  let pair := if n.excl.getD 0 false then bc else if n.excl.getD 1 false then ac else ab
  let bad := if none_ then ab && ac && bc else pair
  let inS := fun (k : Nat) => !n.excl.getD k false
  s.onSns fun x =>
    { x with dev := [refDev a b, refDev a c, refDev b c],
             exclRun := (List.range 3).map fun k => runOf (x.exclRun.getD k 0) (none_ && !x.noMaj && alone.getD k false),
             noMajRun := runOf x.noMajRun (!x.noMaj && bad),
             agree := [runOf (x.agree.getD 0 0) (!ab && inS 0 && inS 1), runOf (x.agree.getD 1 0) (!ac && inS 0 && inS 2),
                       runOf (x.agree.getD 2 0) (!bc && inS 1 && inS 2)] }

/-- The reference that has deviated three times is excluded. -/
def refExclusion (s : State) : State :=
  match (List.range 3).find? fun k => 3 ≤ s.sns.exclRun.getD k 0 ∧ !s.sns.excl.getD k false with
  | some k => refExclude k s
  | none => s

/-- Three comparisons without a majority hold the supply (R119). -/
def refNoMajority (s : State) : State :=
  if !s.sns.noMaj && decide (3 ≤ s.sns.noMajRun) then
    rampDownLevels (set7Advance (noMajorityStep1 (s.onSns fun x => { x with noMaj := true, set7Wait := true, bcastDue := true })))
  else s

theorem refCompare_eq : refCompare a b c s =
    (refNoMajority (refExclusion (refRuns a b c s))).onSns fun x => { x with scale := refScale s.sns.excl x.noMaj [a, b, c] } := rfl

theorem refNoMajority_of_few (h : s.sns.noMajRun < 3) : refNoMajority s = s := if_neg (by simp [h])

theorem refScale_of_all (h : s.sns.excl = [false, false, false]) : refScale s.sns.excl false [a, b, c] = meanN [a, b, c] := by
  rw [h]; rfl

theorem refRuns_keeps (a b c : Nat) (s : State) : Keeps [.sns] s (refRuns a b c s) := by
  unfold refRuns
  exact State.onSns_keeps _ s

theorem refRuns_excl : (refRuns a b c s).sns.excl = s.sns.excl := rfl

theorem refRuns_noMaj : (refRuns a b c s).sns.noMaj = s.sns.noMaj := rfl

section AllIn
variable (hmaj : s.sns.noMaj = false) (hin : s.sns.excl = [false, false, false]) (hbc : refFar b c = false)
include hmaj hin hbc

theorem refRuns_noMajRun : (refRuns a b c s).sns.noMajRun = 0 := by
  simp [refRuns, runOf, hin, hmaj, hbc]

theorem refRuns_exclRun_of_agree (hab : refFar a b = false) (hac : refFar a c = false) : (refRuns a b c s).sns.exclRun = [0, 0, 0] := by
  simp [refRuns, runOf, hin, hmaj, hbc, hab, hac, List.range_succ]

theorem refRuns_exclRun_of_first (hab : refFar a b = true) (hac : refFar a c = true) (hrun : s.sns.exclRun = [2, 0, 0]) :
    (refRuns a b c s).sns.exclRun = [3, 0, 0] := by
  simp [refRuns, runOf, hin, hmaj, hbc, hab, hac, hrun, List.range_succ, satInc, satU, umax]

/-- Three references that agree. -/
theorem refCompare_of_agree (hab : refFar a b = false) (hac : refFar a c = false) :
    refCompare a b c s = (refRuns a b c s).onSns fun x => { x with scale := refScale s.sns.excl x.noMaj [a, b, c] } := by
  have hnone : refExclusion (refRuns a b c s) = refRuns a b c s := by
    unfold refExclusion
    rw [refRuns_exclRun_of_agree hmaj hin hbc hab hac]
    rfl
  rw [refCompare_eq, hnone, refNoMajority_of_few (by rw [refRuns_noMajRun hmaj hin hbc]; decide)]

/-- The third comparison in which the first reference deviates from the two others excludes it (R119). -/
theorem refCompare_of_first (hab : refFar a b = true) (hac : refFar a c = true) (hrun : s.sns.exclRun = [2, 0, 0]) :
    refCompare a b c s =
      (refExclude 0 (refRuns a b c s)).onSns fun x => { x with scale := refScale s.sns.excl x.noMaj [a, b, c] } := by
  have hexcl : refExclusion (refRuns a b c s) = refExclude 0 (refRuns a b c s) := by
    unfold refExclusion
    rw [refRuns_exclRun_of_first hmaj hin hbc hab hac hrun, refRuns_excl, hin]
    rfl
  have hfew : (refExclude 0 (refRuns a b c s)).sns.noMajRun < 3 := by
    rw [refExclude, (emitSns_keeps ..).sns_eq rfl, (setAlarm_keeps ..).sns_eq rfl]
    exact Nat.zero_lt_succ 2
  rw [refCompare_eq, hexcl, refNoMajority_of_few hfew]

end AllIn

theorem refExclude_sns (k : Nat) (s : State) :
    (refExclude k s).sns = { s.sns with excl := s.sns.excl.set k true, bcastDue := true, noMajRun := 0 } := by
  rw [refExclude, (emitSns_keeps ..).sns_eq rfl, (setAlarm_keeps ..).sns_eq rfl]
  rfl

theorem refExclude_alarm (k : Nat) (s : State) : bitOf (refExclude k s).pwr.alarm 4 = true := by
  rw [refExclude, (emitSns_keeps ..).pwr_eq rfl]
  exact bitOf_setAlarm 4 _

end Compare

/-- Settles O24. -/
theorem ringsAndReferences : Obligations.RingsAndReferences := by
  refine ⟨fun s kind ring first hlive hring => ⟨fun hnear => ?_, fun f t0 hget => ⟨fun hf hlong => ?_, fun hsoon => ?_⟩⟩,
    fun s a b c hlive hmaj hin => ⟨fun hab hac hbc => ?_, fun hab hac hbc hrun => ?_, fun hdue => ?_, fun hno hearly => ?_⟩⟩
  · refine ⟨_, act_eq hlive rfl, ?_, fun hkind i hi hr hlo hhi => ?_, fun hkind k hk hp hr hlo hhi => ?_,
      fun hkind k hk hp hr hlo hhi => ?_, (ringFail_keeps kind.val ring.val first.val s).only⟩
    all_goals rw [ringFail_of_nearer hring hnear]
    · rw [(emitSns_keeps ..).sns_eq rfl, ringMacros_rings, ringNoted_get]
    · subst hkind
      rw [getSite_of_sns ((emitSns_keeps ..).sns_eq rfl)]
      exact ringMacros_site hi hr hlo hhi
    · subst hkind
      rw [getDet_of_sns ((emitSns_keeps ..).sns_eq rfl)]
      exact ringMacros_det hk hp hr hlo hhi
    · subst hkind
      rw [getMon_of_sns ((emitSns_keeps ..).sns_eq rfl)]
      exact ringMacros_mon hk hp hr hlo hhi
  · refine ⟨_, act_eq hlive rfl, ?_, fun hkind i hi hr hlo hhi => ?_, fun hkind k hk hp hr hlo hhi => ?_,
      fun hkind k hk hp hr hlo hhi => ?_, (ringRetry_keeps kind.val ring.val none s).only⟩
    all_goals rw [Option.map_none, ringRetry_of_all hget hf hlong]
    · rw [(emitSns_keeps ..).sns_eq rfl, ringMacros_rings, ringNoted_get]
    · subst hkind
      rw [getSite_of_sns ((emitSns_keeps ..).sns_eq rfl)]
      exact ringMacros_site hi hr hlo hhi
    · subst hkind
      rw [getMon_of_sns ((emitSns_keeps ..).sns_eq rfl)]
      exact ringMacros_mon hk hp hr hlo hhi
    · subst hkind
      rw [getDet_of_sns ((emitSns_keeps ..).sns_eq rfl)]
      exact ringMacros_det hk hp hr hlo hhi
  · exact act_eq hlive (ringRetry_of_soon hget hsoon)
  · have heq := refCompare_of_agree hmaj hin hbc hab hac
    refine ⟨_, act_eq hlive heq, rfl, hmaj, refRuns_exclRun_of_agree hmaj hin hbc hab hac, refRuns_noMajRun hmaj hin hbc, ?_,
      ((State.onSns_keeps ..).step (by decide) (refRuns_keeps a b c s)).only⟩
    rw [State.onSns_sns, refRuns_noMaj, hmaj, refScale_of_all hin]
  · have heq := refCompare_of_first hmaj hin hbc hab hac hrun
    have hsns := refExclude_sns 0 (refRuns a b c s)
    refine ⟨_, act_eq hlive heq, ?_, refExclude_alarm 0 _, ?_, ?_, ?_,
      ((State.onSns_keeps ..).step (by decide) ((refExclude_keeps 0 _).step (by decide) ((refRuns_keeps a b c s).mono (by decide)))).only⟩
    · rw [State.onSns_sns, hsns, refRuns_excl, hin]; rfl
    · rw [State.onSns_sns, hsns]
    · rw [State.onSns_sns, hsns, refRuns_noMaj, hmaj, refScale_of_all hin]
    · rw [State.onSns_sns, hsns, refRuns_noMaj, hmaj]
  · exact act_eq hlive (if_pos (by rw [Bool.or_eq_true, decide_eq_true_eq]; exact hdue))
  · exact act_eq hlive (if_neg (by simp [nsPerMs, hno, Nat.not_le.mpr hearly]))

end Sys2Proof.Machine
end

section
/-!
Droop detectors and ageing (chapter 05); excursions and leases under guard (chapter 11).
-/
namespace Sys2Proof.Machine

/-- Under an invariant of a loop without repetition, the entry of a listed index is what its own turn makes of it. -/
theorem forList_turn_of {α β : Type} [DecidableEq α] (get : State → β) {Q : State → Prop} {f : α → State → State} {k : α}
    (hq : ∀ a u, Q u → Q (f a u)) (hother : ∀ j, j ≠ k → ∀ u, Q u → get (f j u) = get u) {l : List α} (hl : l.Nodup) (hk : k ∈ l)
    {s : State} (hs : Q s) : ∃ u, Q u ∧ get u = get s ∧ get (forList l f s) = get (f k u) := by
  have hrest : ∀ {l : List α}, k ∉ l → ∀ u, Q u → get (forList l f u) = get u := by
    intro l hnot u hu
    refine (forList_ind (P := fun v => Q v ∧ get v = get u) (l := l) (f := f) (fun a ha v hv => ⟨hq a v hv.1, ?_⟩) ⟨hu, rfl⟩).2
    rw [hother a (fun h => hnot (h ▸ ha)) v hv.1, hv.2]
  induction l generalizing s with
  | nil => cases hk
  | cons a l ih =>
    obtain ⟨ha, hl⟩ := List.nodup_cons.mp hl
    rw [forList_cons]
    by_cases e : a = k
    · subst e
      exact ⟨s, hs, rfl, hrest ha _ (hq a s hs)⟩
    · have hmem : k ∈ l := (List.mem_cons.mp hk).resolve_left (Ne.symm e)
      obtain ⟨u, hu, hget, hturn⟩ := ih hl hmem (hq a s hs)
      exact ⟨u, hu, hget.trans (hother a e s hs), hturn⟩

section Droop
variable {s : State} {k : Nat}

/-- A detector that has been read (R127). -/
def Det.read (deep : Nat) (x : Det) : Det := { x with deep := deep, frame := x.frame + x.fires, fires := 0 }

theorem ddRead_eq (l : List (Nat × Nat)) : ddRead l s =
    forList ((List.range 1024).filter fun k => (s.detCfg k).present && !(s.getDet k).ringFail)
      (fun k => State.updDet k (Det.read (Tbl.get 0 l k))) s := rfl

theorem ddRead_getDet (l : List (Nat × Nat)) (hk : k < 1024) (hpresent : (s.detCfg k).present = true) (hring : (s.getDet k).ringFail = false) :
    (ddRead l s).getDet k = (s.getDet k).read (Tbl.get 0 l k) := by
  rw [ddRead_eq]
  have h := forList_entry (fun u => u.getDet k) (f := fun k => State.updDet k (Det.read (Tbl.get 0 l k))) (k := k)
    (g := Det.read (Tbl.get 0 l k)) (fun u => State.getDet_updDet ..) (fun j hj u => State.getDet_updDet_ne _ _ _ (Ne.symm hj))
    (l := (List.range 1024).filter fun k => (s.detCfg k).present && !(s.getDet k).ringFail) (List.nodup_range.filter _) s
  rwa [if_pos (List.mem_filter.mpr ⟨List.mem_range.mpr hk, by simp [hpresent, hring]⟩)] at h

section Tap
variable (hpresent : (s.detCfg k).present = true)
include hpresent

/-- A tap rewrite that succeeds (R128). -/
theorem tapRewrite_of_done (v : Nat) (hpend : (s.getDet k).pend ≠ 0) : tapRewrite k (some v) s =
    s.updDet k fun y => { y with tap := v, pend := 0, tempAt := (s.siteUsed (s.detCfg k).site).getD 0,
                                 calFail := y.calFail && decide ((s.getDet k).pend = 1) } := by
  unfold tapRewrite
  dsimp only
  rw [if_neg (by simp [hpresent, hpend])]

/-- A tap rewrite that fails after a start (R128). -/
theorem tapRewrite_of_failed (hpend : (s.getDet k).pend = 2) : tapRewrite k none s =
    emitSns 0x2040 k 0 0 0 (s.updDet k fun y => { y with pend := 0, calFail := true }) := by
  unfold tapRewrite
  dsimp only
  rw [if_neg (by simp [hpresent, hpend]), if_pos hpend]

end Tap

/-- Settles O25. -/
theorem droopDetectorsReadAndRewritten : Obligations.DroopDetectorsReadAndRewritten := by
  refine fun s k tap l d hpresent => ⟨fun hlive hring => ?_, fun hlive hpend => ?_, fun hlive hpend => ?_, fun hemu hsel => ?_⟩
  · have hdet := ddRead_getDet (l.map fun e => (e.1.val, e.2.val)) k.isLt hpresent hring
    refine ⟨_, act_eq hlive rfl, ?_, ?_, ?_, (ddRead_keeps _ s).only⟩
    all_goals rw [hdet]; rfl
  · refine ⟨_, act_eq hlive (tapRewrite_of_done hpresent tap.val hpend), ?_, ?_, fun htwo => ?_, fun j hj => ?_, (State.updDet_keeps ..).only⟩
    · rw [State.getDet_updDet]
    · rw [State.getDet_updDet]
    · rw [State.getDet_updDet]; simp [htwo]
    · exact State.getDet_updDet_ne _ _ _ hj
  · have heq := tapRewrite_of_failed hpresent hpend
    have hkeeps := State.updDet_keeps k.val (fun y => { y with pend := 0, calFail := true }) s
    refine ⟨_, act_eq hlive heq, ?_, ?_, fun j hj => ?_, fun hroom => ?_,
      ((emitSns_keeps ..).step (by decide) (hkeeps.mono (by decide))).only⟩
    · rw [getDet_of_sns ((emitSns_keeps ..).sns_eq rfl), State.getDet_updDet]
    · rw [getDet_of_sns ((emitSns_keeps ..).sns_eq rfl), State.getDet_updDet]
    · rw [getDet_of_sns ((emitSns_keeps ..).sns_eq rfl), State.getDet_updDet_ne _ _ _ hj]
    · exact emit_logs_after hkeeps (by decide) (by decide) (by decide) (by decide) hroom
  · refine hsEmu_eq hemu ?_
    unfold depthWrite
    dsimp only
    rw [hsel, if_pos hpresent]

end Droop

section Ageing
variable {s : State} {c : Nat}

theorem emitTrs_feat (code p0 p1 p2 p3 b : Nat) (s : State) : (emitTrs code p0 p1 p2 p3 s).feat b = s.feat b := by
  have h := congrArg Hif.featEn (emit_hif_fixed 0x20 code p0 p1 p2 p3 s)
  exact congrArg (bitOf · b) h

theorem trimHeld_congr {t : State} (hcfg : t.cfg = s.cfg) (hsns : t.sns = s.sns) (hfeat : t.feat 6 = s.feat 6) (c : Nat) :
    trimHeld t c = trimHeld s c := by
  unfold trimHeld State.cluMons State.allMons State.cluCfg State.monCfg State.getMon
  rw [hcfg, hsns, hfeat]

/-- What a cluster's trim is when it is not held: towards the goal, up by at most 6 (R131, R308). -/
def trimNext (goal trim : Nat) : Nat := if trim < goal then trim + min (goal - trim) 6 else goal

theorem trimNext_le (goal trim : Nat) : trimNext goal trim ≤ trim + 6 ∧ trimNext goal trim ≤ goal := by
  unfold trimNext
  split <;> omega

theorem trimPut_getTrsCl (c t : Nat) (s : State) : (trimPut c t s).getTrsCl c = { s.getTrsCl c with trim := t } := by
  rw [trimPut]
  change (s.updTrsCl c fun y => { y with trim := t }).getTrsCl c = _
  rw [State.getTrsCl_updTrsCl]

theorem trimPut_getTrsCl_ne {c j : Nat} (t : Nat) (s : State) (h : j ≠ c) : (trimPut c t s).getTrsCl j = s.getTrsCl j := by
  rw [trimPut]
  change (s.updTrsCl c fun y => { y with trim := t }).getTrsCl j = _
  rw [State.getTrsCl_updTrsCl_ne _ _ _ h]

/-- The goal of a cluster's trim (R131). -/
def trimGoal (c : Nat) (s : State) : Nat :=
  (s.cluCfg c).gb * 250 - min ((s.cluCfg c).gb * 250) ((s.cluCfg c).kage * slowest s c / 2)

theorem trimGoal_le (c : Nat) (s : State) : trimGoal c s ≤ (s.cluCfg c).gb * 250 := Nat.sub_le ..

/-- The turn of a cluster whose trim is held. -/
theorem trimClu_of_held {w : Nat} (h : trimHeld s c = some w) :
    (trimClu c s).trs = (trimPut c 0 (s.updTrsCl c fun y => { y with held := some w })).trs := by
  unfold trimClu
  dsimp only
  rw [h]
  dsimp only
  split
  · rfl
  · rw [(emitTrs_keeps ..).trs_eq rfl]

/-- The turn of a cluster whose trim is free, before its record. -/
def trimFree (c : Nat) (s : State) : State :=
  trimPut c (trimNext (trimGoal c s) (s.getTrsCl c).trim) (s.updTrsCl c fun y => { y with held := none, trimTgt := trimGoal c s })

theorem trimClu_eq_of_free (h : trimHeld s c = none) : trimClu c s =
    if trimNext (trimGoal c s) (s.getTrsCl c).trim < (s.getTrsCl c).trim then
      emitTrs 0x6051 c (s.getTrsCl c).trim (trimNext (trimGoal c s) (s.getTrsCl c).trim) 0 (trimFree c s)
    else if (s.getTrsCl c).trim / 250 < trimNext (trimGoal c s) (s.getTrsCl c).trim / 250 then
      emitTrs 0x6050 c (trimNext (trimGoal c s) (s.getTrsCl c).trim) (slowest s c) 0 (trimFree c s)
    else trimFree c s := by
  unfold trimClu
  extract_lets x
  rw [h]
  rfl

theorem trimClu_of_free (h : trimHeld s c = none) : (trimClu c s).trs = (trimFree c s).trs := by
  rw [trimClu_eq_of_free h]
  split
  · rw [(emitTrs_keeps ..).trs_eq rfl]
  · split
    · rw [(emitTrs_keeps ..).trs_eq rfl]
    · rfl

/-- A cluster whose trim has been evaluated, given whether it is held. -/
def TrimDone (h : Option Nat) (band : Nat) (x0 x : TrsClu) : Prop :=
  x.held = h ∧ (∀ w, h = some w → x.trim = 0) ∧ (h = none → x.trim ≤ x0.trim + 6 ∧ x.trim ≤ band)

theorem trimClu_self (c : Nat) (s : State) :
    TrimDone (trimHeld s c) ((s.cluCfg c).gb * 250) (s.getTrsCl c) ((trimClu c s).getTrsCl c) := by
  cases h : trimHeld s c with
  | some w =>
    rw [getTrsCl_of_trs (trimClu_of_held h), trimPut_getTrsCl, State.getTrsCl_updTrsCl]
    exact ⟨rfl, fun _ _ => rfl, nofun⟩
  | none =>
    obtain ⟨hup, hgoal⟩ := trimNext_le (trimGoal c s) (s.getTrsCl c).trim
    rw [getTrsCl_of_trs (trimClu_of_free h), trimFree, trimPut_getTrsCl, State.getTrsCl_updTrsCl]
    exact ⟨rfl, nofun, fun _ => ⟨hup, hgoal.trans (trimGoal_le c s)⟩⟩

theorem trimClu_other {c j : Nat} (h : j ≠ c) (s : State) : (trimClu c s).getTrsCl j = s.getTrsCl j := by
  cases hh : trimHeld s c with
  | some w => rw [getTrsCl_of_trs (trimClu_of_held hh), trimPut_getTrsCl_ne _ _ h, State.getTrsCl_updTrsCl_ne _ _ _ h]
  | none => rw [getTrsCl_of_trs (trimClu_of_free hh), trimFree, trimPut_getTrsCl_ne _ _ h, State.getTrsCl_updTrsCl_ne _ _ _ h]

theorem trimPut_hif (c t : Nat) (s : State) : (trimPut c t s).hif = s.hif := (trimPut_keeps c t s).hif_eq rfl

theorem trimFree_feat (c b : Nat) (s : State) : (trimFree c s).feat b = s.feat b := by
  rw [State.feat, trimFree, trimPut_hif]; rfl

theorem trimClu_feat (c b : Nat) (s : State) : (trimClu c s).feat b = s.feat b := by
  cases h : trimHeld s c with
  | some w =>
    have hput : (trimPut c 0 (s.updTrsCl c fun y => { y with held := some w })).feat b = s.feat b := by
      rw [State.feat, trimPut_hif]; rfl
    unfold trimClu
    dsimp only
    rw [h]
    dsimp only
    split
    · exact hput
    · rw [emitTrs_feat, hput]
  | none =>
    rw [trimClu_eq_of_free h]
    split
    · rw [emitTrs_feat, trimFree_feat]
    · split
      · rw [emitTrs_feat, trimFree_feat]
      · exact trimFree_feat c b s

theorem trimEvaluate_of_due (h : s.trs.trimAt + 600000000000 ≤ s.now) :
    trimEvaluate s = forList s.clusters trimClu (s.onTrs fun x => { x with trimAt := s.now }) :=
  if_neg (Nat.not_lt.mpr h)

theorem trimClu_trimAt (c : Nat) (s : State) : (trimClu c s).trs.trimAt = s.trs.trimAt := by
  cases hh : trimHeld s c with
  | some w => rw [trimClu_of_held hh]; rfl
  | none => rw [trimClu_of_free hh]; rfl

/-- Every cluster's trim after an evaluation (R131, R308). -/
theorem trimEvaluate_getTrsCl (h : s.trs.trimAt + 600000000000 ≤ s.now) (hc : c ∈ s.clusters) :
    TrimDone (trimHeld s c) ((s.cluCfg c).gb * 250) (s.getTrsCl c) ((trimEvaluate s).getTrsCl c) := by
  rw [trimEvaluate_of_due h]
  have hQ : ∀ j u, (u.cfg = s.cfg ∧ u.sns = s.sns ∧ u.feat 6 = s.feat 6) →
      (trimClu j u).cfg = s.cfg ∧ (trimClu j u).sns = s.sns ∧ (trimClu j u).feat 6 = s.feat 6 := fun j u ⟨h1, h2, h3⟩ =>
    ⟨((trimClu_keeps j u).cfg_eq rfl).trans h1, ((trimClu_keeps j u).sns_eq rfl).trans h2, (trimClu_feat j 6 u).trans h3⟩
  obtain ⟨u, ⟨hcfg, hsns, hfeat⟩, hget, hturn⟩ := forList_turn_of (fun u => u.getTrsCl c) hQ
    (fun j hj u _ => trimClu_other (Ne.symm hj) u) (clusters_nodup s) hc (s := s.onTrs fun x => { x with trimAt := s.now }) ⟨rfl, rfl, rfl⟩
  have hself := trimClu_self c u
  rw [trimHeld_congr hcfg hsns hfeat, State.cluCfg, hcfg, hget] at hself
  rw [hturn]
  exact hself

theorem trimEvaluate_trimAt (h : s.trs.trimAt + 600000000000 ≤ s.now) : (trimEvaluate s).trs.trimAt = s.now := by
  rw [trimEvaluate_of_due h, forList_eq (fun u => u.trs.trimAt) _ (fun c u => trimClu_trimAt c u)]
  rfl

theorem amMeasure_of_based {k : Nat} {b : Nat} (ratio : Nat) (hpresent : (s.monCfg k).present = true)
    (hring : (s.getMon k).ringFail = false) (hbase : (s.getMon k).base = some b) (hb : b ≠ 0) :
    amMeasure k ratio s = s.updMon k fun y =>
      { y with ratio := ratio, meas := (divRound (((ratio : Int) - b) * 1000000) b :: y.meas).take 64 } := by
  unfold amMeasure
  dsimp only
  rw [if_neg (by simp [hpresent, hring]), hbase]
  dsimp only
  rw [if_neg hb]

end Ageing

section Excursion
variable {s : State} {t0 : Nat}

/-- The excursion has ended with a cause of its own (R291). -/
def odEnded (s : State) : State := s.onTrs fun x => { x with odSince := none, outOfTurn := true }

theorem odEnd_of_since {cause : Nat} (hsince : s.trs.odSince = some t0) (hcause : cause ≠ 2) :
    odEnd cause s = emitTrs 0x6021 cause (s.now - t0) (divRoundN s.trs.od 16) 0 (odEnded s) := by
  unfold odEnd
  rw [hsince]
  simp only [decide_eq_true hcause, Bool.or_true]
  rfl

theorem odEnd_effect {cause : Nat} (hsince : s.trs.odSince = some t0) (hcause : cause ≠ 2) :
    (odEnd cause s).trs.odSince = none ∧ (odEnd cause s).trs.outOfTurn = true ∧
      (QRoom 0x20 s → Logs 0x20 0x6021 cause (s.now - t0) (divRoundN s.trs.od 16) 0 s (odEnd cause s)) := by
  rw [odEnd_of_since hsince hcause, (emitTrs_keeps ..).trs_eq rfl]
  exact ⟨rfl, rfl, emit_logs_after (State.onTrs_keeps _ s) (by decide) (by decide) (by decide) (by decide)⟩

theorem odCheck_of_low (hsince : s.trs.odSince = some t0) (hlow : s.trs.od * 100 ≤ s.trs.reserve * s.odMax) :
    odCheck s = odEnd 0 s := by
  unfold odCheck
  rw [hsince]
  exact if_pos hlow

theorem odCheck_of_long (hsince : s.trs.odSince = some t0) (hhigh : s.trs.reserve * s.odMax < s.trs.od * 100) (hlong : t0 + 1000000 ≤ s.now) :
    odCheck s = odEnd 1 s := by
  unfold odCheck
  rw [hsince]
  dsimp only
  rw [if_neg (Nat.not_le.mpr hhigh)]
  exact if_pos hlong

theorem odCheck_of_short (hsince : s.trs.odSince = some t0) (hhigh : s.trs.reserve * s.odMax < s.trs.od * 100) (hshort : s.now < t0 + 1000000) :
    odCheck s = s := by
  unfold odCheck
  rw [hsince]
  dsimp only
  rw [if_neg (Nat.not_le.mpr hhigh)]
  exact if_neg (Nat.not_le.mpr hshort)

section Guard
variable {l id : Nat} {bo : Bor} (hbor : (s.getLnk l).bor = [bo]) (hid : bo.id = id) (hcounted : bo.counted = true) (hret : bo.ret = none)
include hbor hid hcounted hret

theorem guarded_lease : ((s.getLnk l).bor.filter fun b => b.id = id && b.counted && b.ret.isNone).head? = some bo := by
  rw [hbor, List.filter_cons_of_pos (by simp [hid, hcounted, hret])]
  rfl

/-- A borrowed lease under guard no longer counts (R287). -/
theorem leaseGuard_of_near (hnear : bo.exp ≤ s.now + s.trs.lguard * 1000) : leaseGuard l id s =
    emitTrs 0x6060 id bo.amt bo.exp 0
      ((s.updLnk l fun x => { x with bor := x.bor.map fun y => if y.id = id then { y with counted := false } else y }).onTrs
        fun x => { x with outOfTurn := true }) := by
  unfold leaseGuard
  rw [guarded_lease hbor hid hcounted hret]
  exact if_neg (Nat.not_lt.mpr hnear)

theorem leaseGuard_of_far (hfar : s.now + s.trs.lguard * 1000 < bo.exp) : leaseGuard l id s = s := by
  unfold leaseGuard
  rw [guarded_lease hbor hid hcounted hret]
  exact if_pos hfar

end Guard
end Excursion

/-- Settles O26. -/
theorem ageingExcursionAndLeaseGuard : Obligations.AgeingExcursionAndLeaseGuard := by
  refine ⟨fun s k ratio b hlive => ⟨fun hpresent hring hbase hb => act_eq hlive (amMeasure_of_based ratio hpresent hring hbase hb),
    fun hdue => ?_, fun hearly => act_eq hlive (if_pos hearly)⟩,
    fun s l id t0 bo hlive => ⟨fun hsince => ⟨fun hlow => ?_, fun hhigh hlong => ?_, fun hhigh hshort => ?_⟩,
      fun hbor hid hcounted hret => ⟨fun hnear => ?_, fun hfar => ?_⟩⟩⟩
  · refine ⟨_, act_eq hlive rfl, trimEvaluate_trimAt hdue, fun c hc w hw => ?_, fun c hc hfree => ?_, (trimEvaluate_keeps s).only⟩
    · obtain ⟨hheld, hzero, -⟩ := trimEvaluate_getTrsCl hdue hc
      exact ⟨hzero w hw, hheld.trans hw⟩
    · obtain ⟨hheld, -, hup⟩ := trimEvaluate_getTrsCl hdue hc
      exact ⟨hheld.trans hfree, hup hfree⟩
  · obtain ⟨h1, h2, h3⟩ := odEnd_effect hsince (cause := 0) (by decide)
    exact ⟨_, act_eq hlive (odCheck_of_low hsince hlow), h1, h2, h3, (odEnd_keeps 0 s).only⟩
  · obtain ⟨h1, -, h3⟩ := odEnd_effect hsince (cause := 1) (by decide)
    exact ⟨_, act_eq hlive (odCheck_of_long hsince hhigh hlong), h1, h3, (odEnd_keeps 1 s).only⟩
  · exact act_eq hlive (odCheck_of_short hsince hhigh hshort)
  · have heq := leaseGuard_of_near hbor hid hcounted hret hnear
    refine ⟨_, act_eq hlive heq, ?_, ?_, fun hroom => ?_, heq ▸ (leaseGuard_keeps l.val id s).only⟩
    · rw [getLnk_of_clr ((emitTrs_keeps ..).clr_eq rfl)]
      change (((s.updLnk l.val _).getLnk l.val).bor) = _
      rw [State.getLnk_updLnk, hbor, List.map_cons, List.map_nil, if_pos hid]
    · rw [(emitTrs_keeps ..).trs_eq rfl]; rfl
    · exact emit_logs_after ((State.onTrs_keeps ..).step (qs := [.trs]) (ps := [.trs, .clr]) (by decide) ((State.updLnk_keeps ..).mono (by decide)))
        (by decide) (by decide) (by decide) (by decide) hroom
  · exact act_eq hlive (leaseGuard_of_far hbor hid hcounted hret hfar)

end Sys2Proof.Machine
end

section
/-!
Treasury's registers (chapter 11).
-/
namespace Sys2Proof.Machine

section Terms
variable {s : State}

/-- What a context is entitled to: its weight, its class, its grant and its floor. -/
def Tenant.terms (x : Tenant) : Nat × Nat × Nat × Nat := (x.weight, x.cls, x.grant, x.floor)

/-- Treasury's part without its contexts. -/
def Treasury.pool (x : Treasury) : Treasury := { x with tx := [] }

/-- From `s` to `t` Treasury only suspends contexts or ends their suspension. -/
structure TermsKept (s t : State) : Prop where
  pool : t.trs.pool = s.trs.pool
  terms : ∀ k, (t.getTx k).terms = (s.getTx k).terms

theorem TermsKept.refl (s : State) : TermsKept s s := ⟨rfl, fun _ => rfl⟩

theorem TermsKept.trans {r t : State} (h : TermsKept r s) (g : TermsKept s t) : TermsKept r t :=
  ⟨g.pool.trans h.pool, fun k => (g.terms k).trans (h.terms k)⟩

theorem TermsKept.of_trs {t : State} (h : t.trs = s.trs) : TermsKept s t :=
  ⟨congrArg _ h, fun k => by rw [getTx_of_trs h]⟩

theorem TermsKept.suspend (t : Nat) (b : Bool) (s : State) : TermsKept s (s.updTx t fun x => { x with suspended := b }) := by
  refine ⟨rfl, fun k => ?_⟩
  by_cases e : k = t
  · subst e; rw [State.getTx_updTx]; rfl
  · rw [State.getTx_updTx_ne _ _ _ e]

theorem forList_termsKept {α : Type} (l : List α) {f : α → State → State} (h : ∀ a u, TermsKept u (f a u)) (s : State) :
    TermsKept s (forList l f s) :=
  forList_ind (P := TermsKept s) (fun a _ u hu => hu.trans (h a u)) (TermsKept.refl s)

/-- The turn of a context whose suspension may end. -/
def floorStep (back : Bool) (s : State) (t : Nat) (u : State) : State :=
  let was := (s.getTx t).suspended
  let u1 := u.updTx t fun x => { x with suspended := false }
  if (was && !back) || !u1.commitOk then u else u1

/-- The record of a context whose suspension began or ended. -/
def floorRecord (s : State) (t : Nat) (u : State) : State :=
  if (s.getTx t).suspended && !(u.getTx t).suspended then emitTrs 0x6031 t 0 0 0 u
  else if !(s.getTx t).suspended && (u.getTx t).suspended then emitTrs 0x6030 t (u.getTx t).floor 0 0 u
  else u

theorem floorsUpdate_eq (back : Bool) (s : State) : floorsUpdate back s = forList s.thrFloors (floorRecord s)
    (forList s.thrFloors (floorStep back s) (forList s.thrFloors (fun t => State.updTx t fun x => { x with suspended := true }) s)) := rfl

theorem floorStep_termsKept (back : Bool) (t : Nat) (u : State) : TermsKept u (floorStep back s t u) := by
  unfold floorStep
  dsimp only
  split
  · exact TermsKept.refl u
  · exact TermsKept.suspend t false u

theorem floorRecord_termsKept (t : Nat) (u : State) : TermsKept u (floorRecord s t u) := by
  unfold floorRecord
  split
  · exact TermsKept.of_trs ((emitTrs_keeps ..).trs_eq rfl)
  · split
    · exact TermsKept.of_trs ((emitTrs_keeps ..).trs_eq rfl)
    · exact TermsKept.refl u

/-- The floors' suspensions change no context's terms (R296). -/
theorem floorsUpdate_termsKept (back : Bool) (s : State) : TermsKept s (floorsUpdate back s) := by
  rw [floorsUpdate_eq]
  exact ((forList_termsKept _ (fun t u => TermsKept.suspend t true u) s).trans
    (forList_termsKept _ (fun t u => floorStep_termsKept back t u) _)).trans (forList_termsKept _ (fun t u => floorRecord_termsKept t u) _)

end Terms

section Cap
variable {s : State} {v : Nat}

theorem capSet_of_range (h : v < 8 ∨ s.fuse.capMax < v) : capSet v s = trsRes 0x6001 s := if_pos h

variable (hlow : 8 ≤ v) (hhigh : v ≤ s.fuse.capMax)
include hlow hhigh

theorem capSet_of_not_admitted (h : admits (fun t => t.onTrs fun x => { x with cap := v }) s = false) :
    capSet v s = trsRes 0x6002 s := by
  unfold capSet
  rw [if_neg (by omega), if_pos (by simp [h])]

theorem capSet_of_admitted (h : admits (fun t => t.onTrs fun x => { x with cap := v }) s = true) :
    capSet v s = floorsUpdate false (odEnd 3 (emitTrs 0x6010 s.trs.cap v 0 0 (s.onTrs fun x => { x with cap := v, res := 0 }))) := by
  unfold capSet
  rw [if_neg (by omega), if_neg (by simp [h])]

omit hlow hhigh in
theorem odEnd_pool (cause : Nat) (s : State) : (odEnd cause s).trs.odSince = none ∧ (odEnd cause s).trs.cap = s.trs.cap ∧
    (odEnd cause s).trs.res = s.trs.res := by
  unfold odEnd
  split
  · exact ⟨‹_›, rfl, rfl⟩
  · rw [(emitTrs_keeps ..).trs_eq rfl]
    exact ⟨rfl, rfl, rfl⟩

/-- An admitted cap is in force and ends an excursion (R289). -/
theorem capSet_effect (h : admits (fun t => t.onTrs fun x => { x with cap := v }) s = true) :
    (capSet v s).trs.cap = v ∧ (capSet v s).trs.res = 0 ∧ (capSet v s).trs.odSince = none ∧
      (QRoom 0x20 s → Logs 0x20 0x6010 s.trs.cap v 0 0 s (capSet v s)) := by
  have hemit := (emitTrs_keeps 0x6010 s.trs.cap v 0 0 (s.onTrs fun x => { x with cap := v, res := 0 })).trs_eq rfl
  have hlogs : QRoom 0x20 s → Logs 0x20 0x6010 s.trs.cap v 0 0 s
      (emitTrs 0x6010 s.trs.cap v 0 0 (s.onTrs fun x => { x with cap := v, res := 0 })) := fun hroom =>
    emit_logs_after (State.onTrs_keeps _ s) (by decide) (by decide) (by decide) (by decide) hroom
  rw [capSet_of_admitted hlow hhigh h]
  generalize emitTrs 0x6010 s.trs.cap v 0 0 (s.onTrs fun x => { x with cap := v, res := 0 }) = u at hemit hlogs
  obtain ⟨hsince, hcap, hres⟩ := odEnd_pool 3 u
  have hpool := (floorsUpdate_termsKept false (odEnd 3 u)).pool
  refine ⟨?_, ?_, ?_, fun hroom => (hlogs hroom).before ((floorsUpdate_keeps ..).step (by decide) (odEnd_keeps 3 u)).only (by decide)⟩
  · exact (congrArg Treasury.cap hpool).trans (hcap.trans (congrArg Treasury.cap hemit))
  · exact (congrArg Treasury.res hpool).trans (hres.trans (congrArg Treasury.res hemit))
  · exact (congrArg Treasury.odSince hpool).trans hsince

end Cap

section Classes
variable {s : State} {v : Nat}

/-- A class's priority and weight, exchanged with the class that held the priority (R296). -/
def Treasury.exchange (k p w : Nat) (x : Treasury) : Treasury :=
  { x with prio := (x.prio.map fun q => if q = p then x.prio.getD k 0 else q).set k p, weight := x.weight.set k w, res := 0 }

theorem dcPrio_of_weight (h : bits v 8 8 ≠ 0) : dcPrio v s = s.onTrs (Treasury.exchange s.trs.dcSel (bits v 0 2) (bits v 8 8)) := by
  unfold dcPrio
  exact if_neg h

theorem exchange_prio_self {k p w : Nat} {x : Treasury} (hk : k < x.prio.length) : (x.exchange k p w).prio.getD k 0 = p := by
  simp [Treasury.exchange, hk]

theorem exchange_prio_ne {k j p w : Nat} {x : Treasury} (hj : j < x.prio.length) (hne : j ≠ k) :
    (x.exchange k p w).prio.getD j 0 = if x.prio.getD j 0 = p then x.prio.getD k 0 else x.prio.getD j 0 := by
  rw [Treasury.exchange, List.getD_eq_getElem?_getD, List.getElem?_set_ne (Ne.symm hne), List.getElem?_map]
  simp [hj]

theorem exchange_weight_self {k p w : Nat} {x : Treasury} (hk : k < x.weight.length) : (x.exchange k p w).weight.getD k 0 = w := by
  simp [Treasury.exchange, hk]

theorem exchange_weight_ne {k j p w : Nat} {x : Treasury} (hne : j ≠ k) : (x.exchange k p w).weight.getD j 0 = x.weight.getD j 0 := by
  simp [Treasury.exchange, List.getD_eq_getElem?_getD, List.getElem?_set_ne (Ne.symm hne)]

/-- A class's floor. -/
def floorSet (v : Nat) (s t : State) : State := t.onTrs fun x => { x with floor := x.floor.set s.trs.dcSel v }

theorem dcFloor_of_admitted (h : admits (floorSet v s) s = true) : dcFloor v s = floorsUpdate false (trsRes 0 (floorSet v s s)) :=
  if_pos h

theorem dcFloor_of_refused (h : admits (floorSet v s) s = false) : dcFloor v s = trsRes 0x6003 s :=
  if_neg (fun hok => absurd (h.symm.trans hok) (by decide))

theorem dcFloor_effect (h : admits (floorSet v s) s = true) :
    (dcFloor v s).trs.floor = s.trs.floor.set s.trs.dcSel v ∧ (dcFloor v s).trs.res = 0 := by
  have hpool := (floorsUpdate_termsKept false (trsRes 0 (floorSet v s s))).pool
  rw [dcFloor_of_admitted h]
  exact ⟨congrArg Treasury.floor hpool, congrArg Treasury.res hpool⟩

end Classes

section Contexts
variable {s : State} {t weight cls grant : Nat}

/-- A context's parameters, with the floor cut to the grant (R19). -/
def Tenant.params (weight cls grant : Nat) (y : Tenant) : Tenant :=
  { y with weight := weight, cls := cls, grant := grant, floor := min y.floor grant, suspended := y.suspended && cls = 1 }

theorem txParam_of_class (h : 3 ≤ cls ∨ (cls = 2 ∧ grant ≠ 0)) : txParam t weight cls grant s = (0x6005, s) := if_pos h

section Legal
variable (hlegal : ¬ (3 ≤ cls ∨ (cls = 2 ∧ grant ≠ 0)))
include hlegal

theorem txParam_of_refused (hraise : (s.getTx t).grant < grant ∨ (cls = 0 ∧ (s.getTx t).cls ≠ 0))
    (hno : admits (State.updTx t (Tenant.params weight cls grant)) s = false) : txParam t weight cls grant s = (0x6003, s) := by
  unfold txParam
  rw [if_neg hlegal]
  exact if_pos ⟨hraise, congrArg not hno⟩

theorem txParam_of_admitted (hok : (s.getTx t).grant < grant ∨ (cls = 0 ∧ (s.getTx t).cls ≠ 0) →
    admits (State.updTx t (Tenant.params weight cls grant)) s = true) :
    txParam t weight cls grant s = (0, floorsUpdate false (s.updTx t (Tenant.params weight cls grant))) := by
  unfold txParam
  rw [if_neg hlegal]
  refine if_neg ?_
  rintro ⟨hraise, hno⟩
  exact absurd ((congrArg not (hok hraise)).symm.trans hno) (by decide)

end Legal

/-- What an accepted write of a context's parameters leaves. -/
theorem params_terms (t weight cls grant k : Nat) (s : State) :
    ((floorsUpdate false (s.updTx t (Tenant.params weight cls grant))).getTx k).terms =
      if k = t then (weight, cls, grant, min (s.getTx t).floor grant) else (s.getTx k).terms := by
  rw [(floorsUpdate_termsKept false _).terms]
  by_cases e : k = t
  · subst e; rw [if_pos rfl, State.getTx_updTx]; rfl
  · rw [if_neg e, State.getTx_updTx_ne _ _ _ e]

/-- The clears of the reasons. -/
theorem clrRsn_getTrsCl {c : Nat} (hc : c ∈ s.clusters) : (clrRsn s).getTrsCl c = { s.getTrsCl c with rsnT := [], rsnOn := [] } := by
  have h := forList_entry (fun u => u.getTrsCl c) (f := fun c => State.updTrsCl c fun x => { x with rsnT := [], rsnOn := [] }) (k := c)
    (g := fun x => { x with rsnT := [], rsnOn := [] }) (fun u => State.getTrsCl_updTrsCl ..)
    (fun j hj u => State.getTrsCl_updTrsCl_ne _ _ _ (Ne.symm hj)) (clusters_nodup s) s
  rwa [if_pos hc] at h

theorem forList_clear_getTx (l : List Nat) (k : Nat) (s : State) :
    (forList l (fun t => State.updTx t fun x => { x with flt := 0 }) s).getTx k =
      if k ∈ l then { s.getTx k with flt := 0 } else s.getTx k := by
  induction l generalizing s with
  | nil => rfl
  | cons j l ih =>
    rw [forList_cons, ih]
    by_cases e : k = j
    · subst e; simp
    · rw [State.getTx_updTx_ne _ _ _ e]; simp [e]

/-- The clear of the fault counts reaches every context. -/
theorem clrFlt_getTx (k : Nat) : (clrFlt s).getTx k = { s.getTx k with flt := 0 } := by
  rw [clrFlt, forList_clear_getTx]
  split
  · rfl
  · rename_i hnot
    rcases Tbl.get_mem (d := ({} : Tenant)) s.trs.tx k with h | h
    · rw [State.getTx, h]
    · exact absurd (List.mem_map_of_mem h) hnot

end Contexts

theorem trsRes_getTx (st k : Nat) (s : State) : (trsRes st s).getTx k = s.getTx k := rfl

theorem execTxCfgWrite_of {s u : State} {w : Word} {st : Nat} (hemu : Emulates s)
    (h : txParam s.trs.txSel (bits w.toNat 0 16) (bits w.toNat 16 2) (bits w.toNat 24 8) s = (st, u)) :
    execTxCfgWrite w s = .next (hsAnswer 0 0 (trsRes st u)) := by
  rw [execTxCfgWrite]
  dsimp only
  rw [hsEmu_of_emulates hemu, h]

/-- Settles O27. -/
theorem treasuryRegisters : Obligations.TreasuryRegisters := by
  intro s v w hemu
  refine ⟨fun h => hsEmu_eq hemu (capSet_of_range h), fun hlow hhigh => ⟨fun h => hsEmu_eq hemu (capSet_of_not_admitted hlow hhigh h), fun h => ?_⟩,
    fun h => hsEmu_eq hemu (if_pos h), fun h => ?_, fun h => hsEmu_eq hemu (dcFloor_of_refused h), fun h => ?_, fun h => ?_, fun hcls hraise h => ?_,
    fun h => ?_,
    hsEmu_eq (f := fun t => trsRes 0 (clrOd t)) hemu rfl, ?_, ?_⟩
  · obtain ⟨h1, h2, h3, h4⟩ := capSet_effect hlow hhigh h
    have hans := hsAnswer_keeps 0 0 (capSet v.val s)
    refine ⟨_, hsEmu_eq hemu rfl, ?_, ?_, ?_, fun hroom => (h4 hroom).before hans.only (by decide),
      (hans.step (by decide) ((capSet_keeps v.val s).mono (by decide))).only⟩
    · rw [hans.trs_eq rfl]; exact h1
    · rw [hans.trs_eq rfl]; exact h2
    · rw [hans.trs_eq rfl]; exact h3
  · have heq := dcPrio_of_weight (s := s) h
    have hans := hsAnswer_keeps 0 0 (s.onTrs (Treasury.exchange s.trs.dcSel (bits w.toNat 0 2) (bits w.toNat 8 8)))
    refine ⟨_, hsEmu_eq hemu heq, ?_, fun hk => ?_, fun hk => ?_, fun k hk hne => ?_, fun k hne => ?_,
      (hans.step (by decide) ((State.onTrs_keeps ..).mono (by decide))).only⟩
    all_goals rw [hans.trs_eq rfl, State.onTrs_trs]
    · rfl
    · exact exchange_prio_self hk
    · exact exchange_weight_self hk
    · exact exchange_prio_ne hk hne
    · exact exchange_weight_ne hne
  · obtain ⟨h1, h2⟩ := dcFloor_effect h
    have hans := hsAnswer_keeps 0 0 (dcFloor v.val s)
    refine ⟨_, hsEmu_eq hemu rfl, ?_, ?_, (hans.step (by decide) ((dcFloor_keeps v.val s).mono (by decide))).only⟩
    · rw [hans.trs_eq rfl]; exact h1
    · rw [hans.trs_eq rfl]; exact h2
  · exact execTxCfgWrite_of hemu (txParam_of_class (h.imp_left fun h => h.ge))
  · exact execTxCfgWrite_of hemu (txParam_of_refused (by omega) hraise h)
  · have heq := txParam_of_admitted (t := s.trs.txSel) (weight := bits w.toNat 0 16) (cls := bits w.toNat 16 2)
      (grant := bits w.toNat 24 8) (s := s) (by omega) fun hraise => by
        rcases h with ⟨hcls, hgrant⟩ | ⟨-, hok⟩
        · exfalso; omega
        · exact hok hraise
    have hans := hsAnswer_keeps 0 0 (trsRes 0 (floorsUpdate false
      (s.updTx s.trs.txSel (Tenant.params (bits w.toNat 0 16) (bits w.toNat 16 2) (bits w.toNat 24 8)))))
    have hself := params_terms s.trs.txSel (bits w.toNat 0 16) (bits w.toNat 16 2) (bits w.toNat 24 8) s.trs.txSel s
    rw [if_pos rfl] at hself
    simp only [Tenant.terms, Prod.mk.injEq] at hself
    obtain ⟨hw, hc, hg, hf⟩ := hself
    refine ⟨_, execTxCfgWrite_of hemu heq, ?_, ?_, ?_, ?_, ?_, fun k hk => ?_,
      (hans.step (by decide) ((trsRes_keeps ..).step (by decide) ((floorsUpdate_keeps ..).step (by decide) ((State.updTx_keeps ..).mono (by decide))))).only⟩
    · rw [hans.trs_eq rfl]; rfl
    · rw [getTx_of_trs (hans.trs_eq rfl), trsRes_getTx]; exact hw
    · rw [getTx_of_trs (hans.trs_eq rfl), trsRes_getTx]; exact hc
    · rw [getTx_of_trs (hans.trs_eq rfl), trsRes_getTx]; exact hg
    · rw [getTx_of_trs (hans.trs_eq rfl), trsRes_getTx]; exact hf
    · rw [getTx_of_trs (hans.trs_eq rfl), trsRes_getTx]
      have hother := params_terms s.trs.txSel (bits w.toNat 0 16) (bits w.toNat 16 2) (bits w.toNat 24 8) k s
      rw [if_neg hk] at hother
      simpa only [Tenant.terms, Prod.mk.injEq] using hother
  · have hans := hsAnswer_keeps 0 0 (trsRes 0 (clrRsn s))
    refine ⟨_, hsEmu_eq (f := fun t => trsRes 0 (clrRsn t)) hemu rfl, ?_, fun c hc => ?_,
      (hans.step (by decide) ((trsRes_keeps ..).step (by decide) ((clrRsn_keeps s).mono (by decide)))).only⟩
    · rw [hans.trs_eq rfl]; rfl
    · rw [getTrsCl_of_trs (hans.trs_eq rfl)]; exact clrRsn_getTrsCl hc
  · have hans := hsAnswer_keeps 0 0 (trsRes 0 (clrFlt s))
    refine ⟨_, hsEmu_eq (f := fun t => trsRes 0 (clrFlt t)) hemu rfl, ?_, fun k => ?_,
      (hans.step (by decide) ((trsRes_keeps ..).step (by decide) ((clrFlt_keeps s).mono (by decide)))).only⟩
    · rw [hans.trs_eq rfl]; rfl
    · rw [getTx_of_trs (hans.trs_eq rfl), trsRes_getTx]; exact clrFlt_getTx k

end Sys2Proof.Machine
end

section
/-!
Conversions of a rail and of its phases (chapters 05 and 06): the sample, and the fast path that follows a voltage.
-/
namespace Sys2Proof.Machine

section FastPath
variable {s t : State} {r : Nat}

/-- What a conversion of a rail's voltage leaves of its newest sample; the fast path leaves it alone. -/
def RailMeas.sample (m : RailMeas) : Nat × Nat × Bool × Bool × Bool × Nat := (m.v, m.code, m.ovrHi, m.ovrLo, m.cal, m.vN)

/-- From `s` to `t` the newest samples stand, and of the rails only rail `r` changes. -/
structure SampleKept (r : Nat) (s t : State) : Prop where
  sample : ∀ k, (t.getMeas k).sample = (s.getMeas k).sample
  meas : ∀ k, k ≠ r → t.getMeas k = s.getMeas k
  reg : ∀ k, k ≠ r → t.getReg k = s.getReg k

theorem SampleKept.refl (s : State) : SampleKept r s s := ⟨fun _ => rfl, fun _ _ => rfl, fun _ _ => rfl⟩

theorem SampleKept.trans {u : State} (h : SampleKept r s t) (g : SampleKept r t u) : SampleKept r s u :=
  ⟨fun k => (g.sample k).trans (h.sample k), fun k hk => (g.meas k hk).trans (h.meas k hk), fun k hk => (g.reg k hk).trans (h.reg k hk)⟩

theorem SampleKept.of_rail (h : t.rail = s.rail) : SampleKept r s t :=
  ⟨fun k => by rw [getMeas_of_rail h], fun k _ => getMeas_of_rail h k, fun k _ => getReg_of_rail h k⟩

theorem SampleKept.updPh (p : Nat) (f : Phase → Phase) (s : State) : SampleKept r s (s.updPh p f) :=
  ⟨fun _ => rfl, fun _ _ => rfl, fun _ _ => rfl⟩

theorem SampleKept.updReg (f : Reg → Reg) (s : State) : SampleKept r s (s.updReg r f) :=
  ⟨fun _ => rfl, fun _ _ => rfl, fun _ hk => State.getReg_updReg_ne _ _ _ hk⟩

theorem SampleKept.updMeas {f : RailMeas → RailMeas} (hf : ∀ m, (f m).sample = m.sample) (s : State) : SampleKept r s (s.updMeas r f) := by
  refine ⟨fun k => ?_, fun k hk => State.getMeas_updMeas_ne _ _ _ hk, fun _ _ => rfl⟩
  by_cases e : k = r
  · subst e; rw [State.getMeas_updMeas, hf]
  · rw [State.getMeas_updMeas_ne _ _ _ e]

theorem SampleKept.emitRail (code p0 p1 p2 p3 : Nat) (s : State) : SampleKept r s (emitRail code p0 p1 p2 p3 s) :=
  .of_rail ((emitRail_keeps ..).rail_eq rfl)

theorem SampleKept.forList {α : Type} (l : List α) {f : α → State → State} (h : ∀ a u, SampleKept r u (f a u)) (s : State) :
    SampleKept r s (forList l f s) :=
  forList_ind (P := SampleKept r s) (fun a _ u hu => hu.trans (h a u)) (.refl s)

theorem brakeStop_sampleKept (s : State) : SampleKept r s (brakeStop r s) := by
  unfold brakeStop
  dsimp only
  split
  · exact .refl s
  · split
    · exact (SampleKept.updReg _ s).trans (.emitRail ..)
    · exact .updReg _ s

theorem railPenLow_sampleKept (j : Nat) (s : State) : SampleKept r s (railPenLow j s) :=
  .forList _ (fun _ u => .updPh _ _ u) s

/-- A turn of the joining of phases: the coolest phase that is out joins. -/
def addPhase (r want : Nat) (t : State) : State :=
  if want ≤ (t.activePhases r).length then t
  else match argMin (fun p => (t.getPh p).temp) ((t.railPhases r).filter fun p => (t.getPh p).st = 4) with
    | none => t
    | some p => t.updPh p fun x => { x.noTrim with st := 3, joinAt := none }

theorem addPhases_eq (want : Nat) (s : State) : addPhases r want s = Machine.forList (List.range 96) (fun _ => addPhase r want) s := rfl

theorem addPhase_sampleKept (j want : Nat) (s : State) : SampleKept r s (addPhase j want s) := by
  unfold addPhase
  split
  · exact .refl s
  · split
    · exact .refl s
    · exact .updPh _ _ s

theorem addPhases_sampleKept (j want : Nat) (s : State) : SampleKept r s (addPhases j want s) := by
  rw [addPhases_eq]
  exact .forList _ (fun _ u => addPhase_sampleKept j want u) s

/-- The start of the undershoot response: a brake ends, every phase joins, and each active one that may gives a pulse (R160). -/
def lowPulses (r : Nat) (s : State) : State :=
  let s1 := addPhases r 128 (if (s.getReg r).brake.isSome then brakeStop r s else s)
  Machine.forList (s1.activePhases r) (fun p => State.updPh p (nlPulse s.now !(s.getReg r).nlLo)) s1

/-- The undershoot response is in force. -/
def lowMarked (r : Nat) (s : State) : State :=
  (lowPulses r s).updReg r fun y => { y with nlLo := true, nlHi := false, nlLast := if (s.getReg r).nlLo then y.nlLast else some s.now }

/-- The undershoot response is counted where it begins. -/
def lowCounted (r : Nat) (s : State) : State := (lowMarked r s).updMeas r fun y => { y with nlCnt := satInc 16 y.nlCnt }

/-- The undershoot response. -/
def lowPath (r v : Nat) (s : State) : State :=
  if (s.getReg r).nlLo then lowMarked r s
  else if due s.now nsPerS (s.getReg r).nlLast then Machine.emitRail 0x3811 r v 0 0 (lowCounted r s) else lowCounted r s

/-- The response to a voltage that is not low: a brake ends or begins, or the phases that are on are turned off. -/
def highPath (r v : Nat) (s : State) : State :=
  let x := s.getReg r
  let e := s.veff r
  let vm : Int := v
  let s1 := s.updReg r fun y => { y with nlLo := false, nlHi := decide (e + x.act.vnlo < vm) }
  match x.brake with
  | some _ =>
    let s2 := s1.updReg r fun y => { y with brakePeak := max y.brakePeak v }
    if 2 * vm < 2 * e + x.act.vnlo then brakeStop r s2 else s2
  | none =>
    if e + x.act.vbrk < vm && due s.now (10 * nsPerUs) x.brakeEnd then
      let s2 := railPenLow r s1
      let s3 := s2.updReg r fun y => { y with brake := some s.now, brakePeak := v, brakeRec := due s.now nsPerS y.brakeEnd }
      s3.updMeas r fun y => { y with brkCnt := satInc 16 y.brkCnt }
    else if e + x.act.vnlo < vm then
      Machine.forList (s1.activePhases r) (fun p => State.updPh p fun y =>
        { y with pwm := false, fallAt := if y.pwm then s.now else y.fallAt }) s1
    else s1

theorem fastPath_eq (v : Nat) (s : State) : fastPath r v s =
    if !s.regulating r then s
    else if (v : Int) < s.veff r - (s.getReg r).act.vnlu then lowPath r v s else highPath r v s := rfl

theorem lowPath_sampleKept (v : Nat) (s : State) : SampleKept r s (lowPath r v s) := by
  have h0 : SampleKept r s (if (s.getReg r).brake.isSome then brakeStop r s else s) := by
    split
    · exact brakeStop_sampleKept s
    · exact .refl s
  have h2 : SampleKept r s (lowPulses r s) := (h0.trans (addPhases_sampleKept r 128 _)).trans (.forList _ (fun _ u => .updPh _ _ u) _)
  have h3 : SampleKept r s (lowMarked r s) := h2.trans (.updReg _ _)
  have h4 : SampleKept r s (lowCounted r s) := h3.trans (.updMeas (f := fun y => { y with nlCnt := satInc 16 y.nlCnt }) (fun _ => rfl) _)
  unfold lowPath
  split
  · exact h3
  · split
    · exact h4.trans (.emitRail ..)
    · exact h4

theorem highPath_sampleKept (v : Nat) (s : State) : SampleKept r s (highPath r v s) := by
  unfold highPath
  extract_lets x e vm s1 s2 u2 u3
  have h1 : SampleKept r s s1 := .updReg _ s
  split
  · have h2 : SampleKept r s s2 := h1.trans (.updReg _ s1)
    split
    · exact h2.trans (brakeStop_sampleKept _)
    · exact h2
  · split
    · exact ((h1.trans (railPenLow_sampleKept r s1)).trans (.updReg _ u2)).trans (.updMeas (f := fun y => { y with brkCnt := satInc 16 y.brkCnt }) (fun _ => rfl) u3)
    · split
      · exact h1.trans (.forList _ (fun _ u => .updPh _ _ u) s1)
      · exact h1

/-- The fast path leaves the newest samples and the other rails alone. -/
theorem fastPath_sampleKept (v : Nat) (s : State) : SampleKept r s (fastPath r v s) := by
  rw [fastPath_eq]
  split
  · exact .refl s
  · split
    · exact lowPath_sampleKept v s
    · exact highPath_sampleKept v s

end FastPath

section Pulse
variable {s : State} {r q : Nat}

theorem argMin_mem (f : Nat → Int) {l : List Nat} {p : Nat} (h : argMin f l = some p) : p ∈ l := by
  induction l generalizing p with
  | nil => cases h
  | cons a l ih =>
    unfold argMin at h
    split at h
    · cases h; exact List.mem_cons_self
    · rename_i b hb
      split at h
      · cases h; exact List.mem_cons_self
      · cases h; exact List.mem_cons_of_mem _ (ih hb)

/-- A phase that is not out is not touched as phases join. -/
theorem addPhases_getPh (want : Nat) (hst : (s.getPh q).st ≠ 4) : (addPhases r want s).getPh q = s.getPh q := by
  rw [addPhases_eq]
  refine forList_ind (P := fun u => u.getPh q = s.getPh q) (fun _ _ u hu => ?_) rfl
  unfold addPhase
  split
  · exact hu
  · split
    · exact hu
    · rename_i p hp
      have hout := List.of_mem_filter (argMin_mem _ hp)
      have hne : q ≠ p := by
        rintro rfl
        rw [hu] at hout
        exact hst (by simpa using hout)
      rw [State.getPh_updPh_ne _ _ _ hne, hu]

theorem brakeStop_getPh (s : State) : (brakeStop r s).getPh q = s.getPh q := by
  unfold brakeStop
  dsimp only
  split
  · rfl
  · split
    · rw [getPh_of_rail ((emitRail_keeps ..).rail_eq rfl)]; rfl
    · rfl

theorem mem_activePhases : q ∈ s.activePhases r ↔ q ∈ s.railPhases r ∧ ((s.getPh q).st = 2 ∨ (s.getPh q).st = 3) := by
  simp [State.activePhases, List.mem_filter]

/-- A phase of the rail that runs gives its pulse (R160). -/
theorem lowPulses_getPh (hq : q ∈ s.railPhases r) (hst : (s.getPh q).st = 2) :
    (lowPulses r s).getPh q = nlPulse s.now (!(s.getReg r).nlLo) (s.getPh q) := by
  have hbrake : (if (s.getReg r).brake.isSome then brakeStop r s else s).getPh q = s.getPh q := by
    split
    · exact brakeStop_getPh s
    · rfl
  have hbkeeps : Keeps [.rail, .hm, .hif, .ldg] s (if (s.getReg r).brake.isSome then brakeStop r s else s) :=
    Keeps.ite (brakeStop_keeps r s) (Keeps.refl _ s)
  unfold lowPulses
  dsimp only
  generalize (if (s.getReg r).brake.isSome then brakeStop r s else s) = u at hbrake hbkeeps
  have hadd : (addPhases r 128 u).getPh q = s.getPh q := (addPhases_getPh 128 (by rw [hbrake, hst]; decide)).trans hbrake
  have hmem : q ∈ (addPhases r 128 u).activePhases r := by
    rw [mem_activePhases, hadd]
    refine ⟨?_, Or.inl hst⟩
    rwa [railPhases_of_cfg (((addPhases_keeps r 128 u).cfg_eq rfl).trans (hbkeeps.cfg_eq rfl))]
  have h := forList_entry (fun v => v.getPh q) (f := fun p => State.updPh p (nlPulse s.now !(s.getReg r).nlLo)) (k := q)
    (g := nlPulse s.now !(s.getReg r).nlLo) (fun v => State.getPh_updPh ..) (fun j hj v => State.getPh_updPh_ne _ _ _ (Ne.symm hj))
    (l := (addPhases r 128 u).activePhases r) ((List.nodup_range.filter _).filter _) (addPhases r 128 u)
  rw [if_pos hmem, hadd] at h
  exact h

/-- What the undershoot response makes of a running phase in its off-time. -/
theorem lowPath_getPh (v : Nat) (hq : q ∈ s.railPhases r) (hst : (s.getPh q).st = 2) :
    (lowPath r v s).getPh q = nlPulse s.now (!(s.getReg r).nlLo) (s.getPh q) := by
  have hmarked : (lowMarked r s).getPh q = (lowPulses r s).getPh q := State.getPh_updReg ..
  have hcounted : (lowCounted r s).getPh q = (lowMarked r s).getPh q := State.getPh_updMeas ..
  rw [← lowPulses_getPh hq hst, ← hmarked]
  unfold lowPath
  split
  · rfl
  · split
    · rw [getPh_of_rail ((emitRail_keeps ..).rail_eq rfl), hcounted]
    · exact hcounted

theorem lowPath_nlLo (v : Nat) (s : State) : ((lowPath r v s).getReg r).nlLo = true := by
  have hmarked : ((lowMarked r s).getReg r).nlLo = true := by rw [lowMarked, State.getReg_updReg]
  have hcounted : (lowCounted r s).getReg r = (lowMarked r s).getReg r := State.getReg_updMeas ..
  unfold lowPath
  split
  · exact hmarked
  · split
    · rw [getReg_of_rail ((emitRail_keeps ..).rail_eq rfl), hcounted]; exact hmarked
    · rw [hcounted]; exact hmarked

theorem nlPulse_of_off (now : Nat) {entry : Bool} {x : Phase} (hst : x.st = 2) (hpwm : x.pwm = false) (hsc : x.scOff = false)
    (hroom : entry = true ∨ x.nlOn + 100 ≤ 500) : (nlPulse now entry x).pen = true ∧ (nlPulse now entry x).pwm = true ∧
      (nlPulse now entry x).fallAt = now + 100 ∧ (nlPulse now entry x).deEnd = true := by
  have hgo : (x.st = 2 && !x.pwm && !x.scOff && decide ((if entry then 0 else x.nlOn) + 100 ≤ 500)) = true := by
    rcases hroom with h | h
    · simp [hst, hpwm, hsc, h]
    · cases entry with
      | true => simp [hst, hpwm, hsc]
      | false => simp [hst, hpwm, hsc]; omega
  unfold nlPulse
  dsimp only
  rw [if_pos hgo]
  exact ⟨rfl, rfl, rfl, rfl⟩

end Pulse

section Sample
variable {s : State} {r code : Nat}

/-- The measurement with a sample of the rail's voltage (R132). -/
def RailMeas.taken (tested : Bool) (code v : Nat) (m : RailMeas) : RailMeas :=
  { m with audN := if tested then m.audN + 1 else 0, code := code, v := v, cal := false, ovrHi := decide (code = 0x3FFF),
           ovrLo := decide (code = 0), vLast := (v :: m.vLast).take 8,
           ovrCnt := if decide (code = 0x3FFF) || decide (code = 0) then wrapInc 32 m.ovrCnt else m.ovrCnt,
           vSum := m.vSum + v, vN := m.vN + 1, vMin := some (match m.vMin with | some w => min w v | none => v) }

/-- The sample, with the record of an overrange. -/
def voltTaken (r code : Nat) (s : State) : State :=
  let s1 := s.updMeas r (RailMeas.taken (s.adcTested r) code (railVolt code (s.getMeas r).gPpm (s.getMeas r).oUv))
  if (decide (code = 0x3FFF) || decide (code = 0)) && due s.now nsPerMs (s.getMeas r).ovrRec then
    emitSns 0x2012 r code 0 0 (s1.updMeas r fun m => { m with ovrRec := some s.now })
  else s1

/-- The sample, with whether the rail has reached its target. -/
def voltJudged (r code : Nat) (s : State) : State :=
  if (voltTaken r code s).regulating r then
    (voltTaken r code s).updReg r fun x => { x with reached := (voltTaken r code s).isReached r }
  else voltTaken r code s

theorem railVConv_of_sample (hpresent : (s.railCfg r).present = true) (htest : s.adcTested r = false ∨ (s.getMeas r).audN < 7) :
    railVConv r code false s = fastPath r (railVolt code (s.getMeas r).gPpm (s.getMeas r).oUv) (voltJudged r code s) := by
  have hno : ¬ (s.adcTested r && decide (7 ≤ (s.getMeas r).audN)) = true := by
    rcases htest with h | h
    · simp [h]
    · simp [Nat.not_le.mpr h]
  unfold railVConv
  rw [if_neg (by simp [hpresent]), if_neg (by decide), if_neg hno]
  rfl

theorem railVConv_of_tested (hpresent : (s.railCfg r).present = true) (htest : s.adcTested r = true) (hn : 7 ≤ (s.getMeas r).audN) :
    railVConv r code false s = s.updMeas r fun m => { m with audN := 0, cal := true, vLast := (m.v :: m.vLast).take 8 } := by
  unfold railVConv
  rw [if_neg (by simp [hpresent]), if_neg (by decide), if_pos (by simp [htest, hn])]

/-- The sample's measurement, its rail's regulation and everything else of its part. -/
theorem voltTaken_getMeas (r code : Nat) (s : State) : ((voltTaken r code s).getMeas r).sample =
    (railVolt code (s.getMeas r).gPpm (s.getMeas r).oUv, code, decide (code = 0x3FFF), decide (code = 0), false, (s.getMeas r).vN + 1) ∧
    ((voltTaken r code s).getMeas r).iRail = (s.getMeas r).iRail := by
  unfold voltTaken
  dsimp only
  split
  · rw [getMeas_of_rail ((emitSns_keeps ..).rail_eq rfl), State.getMeas_updMeas, State.getMeas_updMeas]
    exact ⟨rfl, rfl⟩
  · rw [State.getMeas_updMeas]
    exact ⟨rfl, rfl⟩

/-- What a sample leaves alone: the regulation, the protection and the phases. -/
structure SampleOnly (r : Nat) (s t : State) : Prop where
  meas : ∀ k, k ≠ r → t.getMeas k = s.getMeas k
  reg : ∀ k, t.getReg k = s.getReg k
  prot : ∀ k, t.getProt k = s.getProt k
  ph : ∀ k, t.getPh k = s.getPh k

theorem voltTaken_sampleOnly (r code : Nat) (s : State) : SampleOnly r s (voltTaken r code s) := by
  unfold voltTaken
  dsimp only
  split
  · have h := (emitSns_keeps 0x2012 r code 0 0 ((s.updMeas r (RailMeas.taken (s.adcTested r) code
      (railVolt code (s.getMeas r).gPpm (s.getMeas r).oUv))).updMeas r fun m => { m with ovrRec := some s.now })).rail_eq rfl
    refine ⟨fun k hk => ?_, fun k => getReg_of_rail h k, fun k => getProt_of_rail h k, fun k => getPh_of_rail h k⟩
    rw [getMeas_of_rail h, State.getMeas_updMeas_ne _ _ _ hk, State.getMeas_updMeas_ne _ _ _ hk]
  · exact ⟨fun k hk => State.getMeas_updMeas_ne _ _ _ hk, fun _ => rfl, fun _ => rfl, fun _ => rfl⟩

theorem voltTaken_keeps (r code : Nat) (s : State) : Keeps [.rail, .hm, .hif, .ldg] s (voltTaken r code s) := by
  unfold voltTaken
  dsimp only
  split
  · exact (emitSns_keeps ..).step (by decide) ((State.updMeas_keeps ..).step (by decide) ((State.updMeas_keeps ..).mono (by decide)))
  · exact (State.updMeas_keeps ..).mono (by decide)

theorem regulating_congr {t : State} (h : t.getProt r = s.getProt r) : t.regulating r = s.regulating r := by
  rw [State.regulating, h]; rfl

/-- The judgement changes the rail's own `reached` flag alone. -/
theorem voltJudged_getReg (r code : Nat) (s : State) : ∃ b, (voltJudged r code s).getReg r = { s.getReg r with reached := b } := by
  have h := (voltTaken_sampleOnly r code s).reg r
  unfold voltJudged
  split
  · exact ⟨_, by rw [State.getReg_updReg, h]⟩
  · exact ⟨(s.getReg r).reached, by rw [h]⟩

theorem voltJudged_getReg_ne {k : Nat} (hk : k ≠ r) : (voltJudged r code s).getReg k = s.getReg k := by
  unfold voltJudged
  split
  · rw [State.getReg_updReg_ne _ _ _ hk, (voltTaken_sampleOnly r code s).reg]
  · exact (voltTaken_sampleOnly r code s).reg k

theorem voltJudged_getMeas (k : Nat) : (voltJudged r code s).getMeas k = (voltTaken r code s).getMeas k := by
  unfold voltJudged
  split <;> rfl

theorem voltJudged_getPh (k : Nat) : (voltJudged r code s).getPh k = s.getPh k := by
  rw [← (voltTaken_sampleOnly r code s).ph]
  unfold voltJudged
  split <;> rfl

theorem voltJudged_getProt (k : Nat) : (voltJudged r code s).getProt k = s.getProt k := by
  rw [← (voltTaken_sampleOnly r code s).prot]
  unfold voltJudged
  split <;> rfl

theorem voltJudged_keeps (r code : Nat) (s : State) : Keeps [.rail, .hm, .hif, .ldg] s (voltJudged r code s) := by
  unfold voltJudged
  exact Keeps.ite ((State.updReg_keeps ..).step (by decide) (voltTaken_keeps r code s)) (voltTaken_keeps r code s)

theorem voltJudged_veff (r code : Nat) (s : State) : (voltJudged r code s).veff r = s.veff r := by
  obtain ⟨b, hreg⟩ := voltJudged_getReg r code s
  have hi := (voltTaken_getMeas r code s).2
  have hfuse := (voltJudged_keeps r code s).fuse_eq rfl
  unfold State.veff State.vLoad State.vmax
  dsimp only
  rw [hreg, voltJudged_getMeas, hi, hfuse]

/-- What a voltage conversion leaves of its rail and of the others (R132). -/
theorem railVConv_sample (hpresent : (s.railCfg r).present = true) (htest : s.adcTested r = false ∨ (s.getMeas r).audN < 7) :
    ((railVConv r code false s).getMeas r).sample = (railVolt code (s.getMeas r).gPpm (s.getMeas r).oUv, code, decide (code = 0x3FFF),
      decide (code = 0), false, (s.getMeas r).vN + 1) ∧
    ∀ k, k ≠ r → (railVConv r code false s).getMeas k = s.getMeas k ∧ (railVConv r code false s).getReg k = s.getReg k := by
  have hfast := fastPath_sampleKept (r := r) (railVolt code (s.getMeas r).gPpm (s.getMeas r).oUv) (voltJudged r code s)
  rw [railVConv_of_sample hpresent htest]
  refine ⟨?_, fun k hk => ⟨?_, ?_⟩⟩
  · rw [hfast.sample, voltJudged_getMeas, (voltTaken_getMeas r code s).1]
  · rw [hfast.meas k hk, voltJudged_getMeas, (voltTaken_sampleOnly r code s).meas k hk]
  · rw [hfast.reg k hk, voltJudged_getReg_ne hk]

/-- What a voltage below the undershoot threshold does (R160). -/
theorem railVConv_low (hpresent : (s.railCfg r).present = true) (htest : s.adcTested r = false ∨ (s.getMeas r).audN < 7)
    (hreg : s.regulating r = true)
    (hlow : ((railVolt code (s.getMeas r).gPpm (s.getMeas r).oUv : Nat) : Int) < s.veff r - (s.getReg r).act.vnlu) :
    ((railVConv r code false s).getReg r).nlLo = true ∧ ∀ q ∈ s.activePhases r, (s.getPh q).st = 2 →
      (railVConv r code false s).getPh q = nlPulse s.now (!(s.getReg r).nlLo) (s.getPh q) := by
  obtain ⟨b, hr⟩ := voltJudged_getReg r code s
  have hpath : railVConv r code false s =
      lowPath r (railVolt code (s.getMeas r).gPpm (s.getMeas r).oUv) (voltJudged r code s) := by
    rw [railVConv_of_sample hpresent htest, fastPath_eq, regulating_congr (voltJudged_getProt r), voltJudged_veff, hr, hreg,
      if_neg (by decide), if_pos hlow]
  rw [hpath]
  refine ⟨lowPath_nlLo .., fun q hq hst => ?_⟩
  obtain ⟨hmem, -⟩ := mem_activePhases.mp hq
  have hmem' : q ∈ (voltJudged r code s).railPhases r := by
    rwa [railPhases_of_cfg ((voltJudged_keeps r code s).cfg_eq rfl)]
  rw [lowPath_getPh _ hmem' (by rw [voltJudged_getPh]; exact hst), voltJudged_getPh, hr, (voltJudged_keeps r code s).now_eq rfl]

end Sample

end Sys2Proof.Machine
end

section
/-!
Conversions of phases and stages, input-voltage readings, and the switching periods of phases (chapters 05 and 06).
-/
namespace Sys2Proof.Machine

section Readings
variable {s : State} {r p : Nat}

/-- A calibration slot: the sample is repeated and new corrections are drawn inside their ranges (R132). -/
theorem railVConv_of_cal (code : Nat) (hpresent : (s.railCfg r).present = true) : ∃ g o : Int,
    railVConv r code true s =
      (s.drawn.drawn.updMeas r fun m => { m with gPpm := g, oUv := o, cal := true, vLast := (m.v :: m.vLast).take 8 }) ∧
      -20000 ≤ g ∧ g ≤ 20000 ∧ -5000 ≤ o ∧ o ≤ 5000 := by
  unfold railVConv
  rw [if_neg (by simp [hpresent]), if_pos rfl]
  exact ⟨_, _, rfl, by omega, by omega, by omega, by omega⟩

/-- The phase with a sample of its current (R134). -/
def Phase.sampled (code : Nat) (i : Int) (novr rep : Bool) (x : Phase) : Phase :=
  { x with code := code, i := satU 16 i.toNat, ovr := decide (code = 0xFFF) || decide (code = 0), novr := novr,
           neg := decide (code = 0) || decide (i < 0), rep := rep,
           clean := if decide (code = 0xFFF) || decide (code = 0) || novr || rep || !x.pen then x.clean else i,
           meter := if !x.pen then x.meter
                    else if decide (code = 0xFFF) then i else if decide (code = 0) then 0 else if novr then x.clean else i,
           ovrCnt := if decide (code = 0xFFF) || decide (code = 0) then satInc 16 x.ovrCnt else x.ovrCnt,
           novrCnt := if novr then satInc 16 x.novrCnt else x.novrCnt }

/-- What a phase sample leaves outside its record: the phase and the recovery of its converter. -/
structure PhaseSampled (p code : Nat) (newCap : Bool) (s t : State) : Prop where
  ph : ∃ x, t.getPh p = { ((s.getPh p).sampled code (phaseAmps s p code) (decide (0 < Tbl.get 0 s.sns.recover (p / 8)))
    (!newCap && decide ((s.railCfg (s.phCfg p).rail).fsw < 20))) with ovrRec := x }
  others : ∀ q, q ≠ p → t.getPh q = s.getPh q
  recover : Tbl.get 0 t.sns.recover (p / 8) =
    if decide (code = 0xFFF) || decide (code = 0) then 2 else Tbl.get 0 s.sns.recover (p / 8) - 1

theorem phaseIConv_sampled (code : Nat) (newCap : Bool) (hpresent : (s.phCfg p).present = true) :
    PhaseSampled p code newCap s (phaseIConv p code newCap s) := by
  unfold phaseIConv
  extract_lets g sar rec_ hi lo ov nov rep i x0 consumers s1 s2
  rw [if_neg (by simp [g, hpresent])]
  have hs2 : s2.getPh p = (s.getPh p).sampled code i nov rep := by
    change s1.getPh p = _
    exact State.getPh_updPh ..
  have hother : ∀ q, q ≠ p → s2.getPh q = s.getPh q := fun q hq => State.getPh_updPh_ne _ _ _ hq
  have hrec : Tbl.get 0 s2.sns.recover (p / 8) = if ov then 2 else rec_ - 1 := Tbl.get_set_self ..
  split
  · have hrail := (emitSns_keeps 0x2010 p code 0 0 (s2.updPh p fun x => { x with ovrRec := some s.now })).rail_eq rfl
    have hsns := (emitSns_keeps 0x2010 p code 0 0 (s2.updPh p fun x => { x with ovrRec := some s.now })).sns_eq rfl
    refine ⟨⟨some s.now, ?_⟩, fun q hq => ?_, ?_⟩
    · rw [getPh_of_rail hrail, State.getPh_updPh, hs2]
    · rw [getPh_of_rail hrail, State.getPh_updPh_ne _ _ _ hq, hother q hq]
    · rw [hsns]; exact hrec
  · refine ⟨⟨_, by rw [State.getPh_updPh, hs2]⟩, fun q hq => ?_, hrec⟩
    rw [State.getPh_updPh_ne _ _ _ hq, hother q hq]

/-- The clean value changes with a sample that no rule sets aside (R134). -/
theorem sampled_clean_of_good {code : Nat} {i : Int} {novr rep : Bool} {x : Phase} (hpen : x.pen = true) (hhi : code ≠ 0xFFF)
    (hlo : code ≠ 0) (hn : novr = false) (hr : rep = false) : (x.sampled code i novr rep).clean = i := by
  simp [Phase.sampled, hpen, hhi, hlo, hn, hr]

theorem sampled_clean_of_bad {code : Nat} {i : Int} {novr rep : Bool} {x : Phase}
    (h : code = 0xFFF ∨ code = 0 ∨ novr = true ∨ rep = true ∨ x.pen = false) : (x.sampled code i novr rep).clean = x.clean := by
  refine if_pos ?_
  rcases h with h | h | h | h | h <;> simp [h]

theorem stageTConv_of_tested (code : Nat) (h : (s.getUnit (audIdx 2 (32 + p / 32))).st ≠ 0) : stageTConv p code s = s :=
  if_pos (by simp [h])

/-- The stage with a sample of its temperature (R136). -/
def Phase.heated (code : Nat) (v : Int) (x : Phase) : Phase :=
  { x with tCode := code, tOvr := decide (code = 0xFFF) || decide (code = 0),
           temp := if decide (code = 0xFFF) || decide (code = 0) then x.temp else satS 16 v }

theorem stageTConv_sampled (code : Nat) (hpresent : (s.phCfg p).present = true) (hin : (s.getUnit (audIdx 2 (32 + p / 32))).st = 0) :
    (∃ x, (stageTConv p code s).getPh p = { (s.getPh p).heated code (if (s.phCfg p).gt = 0 then 0 else
        divRound ((((code * 375 : Nat) : Int) - ((s.phCfg p).v0t * 1000 : Nat)) * 64) (s.phCfg p).gt) with tRec := x }) ∧
      ∀ q, q ≠ p → (stageTConv p code s).getPh q = s.getPh q := by
  unfold stageTConv
  extract_lets g ov v s1
  rw [if_neg (by simp [g, hpresent, hin])]
  have hs1 : s1.getPh p = (s.getPh p).heated code v := State.getPh_updPh ..
  have hother : ∀ q, q ≠ p → s1.getPh q = s.getPh q := fun q hq => State.getPh_updPh_ne _ _ _ hq
  split
  · have hrail := (emitSns_keeps 0x2013 p code 0 0 (s1.updPh p fun x => { x with tRec := some s.now })).rail_eq rfl
    refine ⟨⟨some s.now, ?_⟩, fun q hq => ?_⟩
    · rw [getPh_of_rail hrail, State.getPh_updPh, hs1]
    · rw [getPh_of_rail hrail, State.getPh_updPh_ne _ _ _ hq, hother q hq]
  · exact ⟨⟨(s.getPh p).tRec, by rw [hs1]; rfl⟩, hother⟩

section Zero
variable {caps : List Nat} (hpresent : (s.phCfg p).present = true) (hpen : (s.getPh p).pen = false) (hlen : caps.length = 16)
include hpresent hpen hlen

/-- What an auto-zero leaves (R135). -/
theorem autoZero_effect :
    let dev := ((((caps.foldl (· + ·) 0) * 375 : Nat) : Int) - (16000 * (s.phCfg p).v0 : Nat)).natAbs
    ((autoZero p caps s).getPh p).v0Nom = decide (480000 < dev) ∧
      (dev ≤ 480000 → ((autoZero p caps s).getPh p).v0 = caps.foldl (· + ·) 0) ∧
      ∀ q, q ≠ p → (autoZero p caps s).getPh q = s.getPh q := by
  intro dev
  unfold autoZero
  dsimp only
  rw [if_neg (by simp [hpresent, hpen, hlen])]
  by_cases hdev : dev ≤ 480000
  · rw [if_pos hdev]
    refine ⟨?_, fun _ => ?_, fun q hq => State.getPh_updPh_ne _ _ _ hq⟩
    · rw [State.getPh_updPh]; simp [hdev]
    · rw [State.getPh_updPh]
  · rw [if_neg hdev]
    refine ⟨?_, fun h => absurd h hdev, fun q hq => ?_⟩
    · rw [getPh_of_rail ((emitSns_keeps ..).rail_eq rfl), State.getPh_updPh]; simp [Nat.lt_of_not_le hdev]
    · rw [getPh_of_rail ((emitSns_keeps ..).rail_eq rfl), State.getPh_updPh_ne _ _ _ hq]

end Zero

section Vin
variable {w : Nat} (hpresent : (s.railCfg r).present = true)
include hpresent

/-- A reading inside the bounds is accepted (R164). -/
theorem vinRead_of_inside (hup : s.pmUp = true)
    (hin : ((80 * (s.railCfg r).vinNom : Nat) : Int) ≤ 100 * linear11 w ∧ 100 * linear11 w ≤ ((120 * (s.railCfg r).vinNom : Nat) : Int)) :
    vinRead r w s = s.updMeas r fun y =>
      { y with vins := (satU 16 (linear11 w).toNat :: y.vins).take 4, vinLast := satU 16 (linear11 w).toNat, vinAccept := s.now,
               vinStale := false, vinNom := decide (((satU 16 (linear11 w).toNat :: y.vins).take 4).length < 4) } := by
  unfold vinRead
  dsimp only
  rw [if_neg (by simp [hpresent, hup]), if_pos hin]

/-- A reading outside the bounds changes no accepted one. -/
theorem vinRead_of_outside (hup : s.pmUp = true)
    (hout : 100 * linear11 w < ((80 * (s.railCfg r).vinNom : Nat) : Int) ∨ ((120 * (s.railCfg r).vinNom : Nat) : Int) < 100 * linear11 w) :
    ((vinRead r w s).getMeas r).vins = (s.getMeas r).vins ∧ ((vinRead r w s).getMeas r).vinAccept = (s.getMeas r).vinAccept := by
  unfold vinRead
  dsimp only
  rw [if_neg (by simp [hpresent, hup]), if_neg (by omega)]
  split
  · rw [getMeas_of_rail ((emitRail_keeps ..).rail_eq rfl), State.getMeas_updMeas]
    exact ⟨rfl, rfl⟩
  · rw [State.getMeas_updMeas]
    exact ⟨rfl, rfl⟩

theorem vinStale_of_old (hfresh : (s.getMeas r).vinStale = false) (hold : (s.getMeas r).vinAccept + 100000000 ≤ s.now) :
    vinStale r s = emitRail 0x3821 r 0 0 0 (s.updMeas r fun y => { y with vinNom := true, vinStale := true }) :=
  if_pos (by simp only [hpresent, hfresh, Bool.not_false, Bool.and_self, Bool.true_and]; exact decide_eq_true hold)

end Vin
end Readings

section Period
variable {s : State} {p r : Nat}

/-- A rail in CROWBAR keeps its low sides on (R147). -/
theorem pwmStart_of_crowbar (hpresent : (s.phCfg p).present = true) (hr : (s.phCfg p).rail = r) (hst : (s.getProt r).st = 6)
    (huse : (s.getPh p).usable = true) : pwmStart p s = s.updPh p fun y => { y with pen := true, pwm := false, scOff := false } := by
  unfold pwmStart
  dsimp only
  rw [hr, if_pos (by simp [hpresent, hst, huse])]

/-- A phase that does not modulate keeps its outputs low (R146). -/
theorem pwmStart_of_off (hr : (s.phCfg p).rail = r) (hcb : (s.getProt r).st ≠ 6 ∨ (s.getPh p).usable = false)
    (hoff : s.regulating r = false ∨ ((s.getPh p).st ≠ 2 ∧ (s.getPh p).st ≠ 3)) : pwmStart p s = phOff p s := by
  unfold pwmStart
  dsimp only
  rw [hr, if_neg (by rcases hcb with h | h <;> simp [h]), if_pos (by rcases hoff with h | h <;> simp [h])]

/-- The on-time of the phase's next period, before the lower bound (R147). -/
def onTime (s : State) (r p : Nat) : Nat := (divRound (phaseDuty s r p * pwmPeriod s r s.oscWanted) (2 ^ 24)).toNat

/-- Whether diode emulation skips the phase's next period (R148). -/
def skips (s : State) (r p : Nat) : Bool := decide (onTime s r p < tonMinUnits s r s.oscWanted) && s.deArmed r

/-- Whether the phase's next period has a pulse. -/
def pulses (s : State) (r p : Nat) : Bool := !(s.getReg r).brake.isSome && !skips s r p

/-- The length of the pulse of the phase's next period. -/
def pulseLen (s : State) (r p : Nat) : Nat := (if skips s r p then 0 else max (onTime s r p) (tonMinUnits s r s.oscWanted)) % 2 ^ 21

/-- The phase in its next period (R147, R148). -/
def Phase.started (s : State) (r p : Nat) (y : Phase) : Phase :=
  { y with osc := s.oscWanted, per := pwmPeriod s r s.oscWanted,
           offs := nextOffset (s.getPh p) (pwmPeriod s r s.oscWanted) (offsetGoal s r p (pwmPeriod s r s.oscWanted)) % 2 ^ 21,
           ton := pulseLen s r p, pen := pulses s r p, pwm := pulses s r p, de := y.deNow, deNow := false, deEnd := false, nlOn := 0,
           scOff := false, riseAt := if pulses s r p then some s.now else y.riseAt,
           fallAt := if pulses s r p then s.now + unitsNs s s.oscWanted (pulseLen s r p) else y.fallAt,
           joinAt := if y.st = 3 then some (y.joinAt.getD s.now) else none }

theorem pwmStart_of_regulating (hpresent : (s.phCfg p).present = true) (hr : (s.phCfg p).rail = r) (hreg : s.regulating r = true)
    (hst : (s.getPh p).st = 2 ∨ (s.getPh p).st = 3) : pwmStart p s = rootAdvance (s.updPh p (Phase.started s r p)) := by
  have hcb : (s.getProt r).st ≠ 6 := fun h => by simp [State.regulating, h] at hreg
  unfold pwmStart
  dsimp only
  rw [hr, if_neg (by simp [hcb]), if_neg (by rcases hst with h | h <;> simp [hpresent, hreg, h])]
  rfl

/-- The phase of the next period, and the others. -/
theorem pwmStart_getPh (hpresent : (s.phCfg p).present = true) (hr : (s.phCfg p).rail = r) (hreg : s.regulating r = true)
    (hst : (s.getPh p).st = 2 ∨ (s.getPh p).st = 3) : (pwmStart p s).getPh p = (s.getPh p).started s r p ∧
      ∀ q, q ≠ p → (pwmStart p s).getPh q = s.getPh q := by
  have hrail := (rootAdvance_keeps (s.updPh p (Phase.started s r p))).rail_eq rfl
  rw [pwmStart_of_regulating hpresent hr hreg hst]
  exact ⟨by rw [getPh_of_rail hrail, State.getPh_updPh], fun q hq => by rw [getPh_of_rail hrail, State.getPh_updPh_ne _ _ _ hq]⟩

/-- The zero-current comparator turns an armed phase off in its off-time (R149). -/
theorem zeroCross_of_armed (hr : (s.phCfg p).rail = r) (harm : s.deArmed r = true) (hreg : s.regulating r = true)
    (hpen : (s.getPh p).pen = true) (hpwm : (s.getPh p).pwm = false) (hend : (s.getPh p).deEnd = false)
    (hblank : (s.getPh p).fallAt + 20 ≤ s.now) : zeroCross p s =
      (s.updPh p fun y => { y with pen := false, deNow := true }).updReg r fun y => { y with deFired := true } := by
  unfold zeroCross
  dsimp only
  rw [hr, if_pos (by simp [harm, hreg, hpen, hpwm, hend, hblank])]

section Join
variable {u : Nat} (hjoin : (s.getPh p).joinAt = some u)
include hjoin

theorem joinDone_of_full (hst : (s.getPh p).st = 3) (hlong : u + unitsNs s (s.getPh p).osc (2 * (s.getPh p).per) ≤ s.now) :
    joinDone p s = shareTargets (s.phCfg p).rail (s.updPh p fun x => { x with st := 2 }) := by
  unfold joinDone joinRun
  dsimp only
  rw [hjoin]
  exact if_pos ⟨hst, by simp, by dsimp only; omega⟩

theorem joinDone_of_short (hshort : s.now < u + unitsNs s (s.getPh p).osc (2 * (s.getPh p).per)) (hu : u ≤ s.now) : joinDone p s = s := by
  unfold joinDone joinRun
  dsimp only
  rw [hjoin]
  refine if_neg ?_
  rintro ⟨-, -, h⟩
  dsimp only at h
  omega

end Join

/-- Sharing the targets changes no phase's state. -/
theorem shareTargets_st (r q : Nat) (s : State) : ((shareTargets r s).getPh q).st = (s.getPh q).st := by
  unfold shareTargets
  dsimp only
  split
  · rfl
  · refine forList_eq (fun u => (u.getPh q).st) _ (fun p u => ?_) s
    by_cases e : q = p
    · subst e; rw [State.getPh_updPh]
    · rw [State.getPh_updPh_ne _ _ _ e]

end Period

section Remove
variable {s : State} {r q t0 : Nat}

/-- The phase leaves (R157). -/
def phaseOut (r q : Nat) (s : State) : State :=
  (s.updPh q fun y => { y with st := 4, pen := false, pwm := false, joinAt := none }).updReg r fun y => { y with lastRemove := some s.now }

section Due
variable (hsince : (s.getMeas r).removeSince = some t0) (hlong : t0 + 2000 * (s.getReg r).shed.thold ≤ s.now)
  (hon : (s.getProt r).st = 3) (hmin : (s.getReg r).shed.nmin < (s.activePhases r).length)
  (hhot : argMin (fun x => -(s.getPh x).temp) (s.activePhases r) = some q)
include hsince

theorem phaseRemove_of_soon {u : Nat} (hlast : (s.getReg r).lastRemove = some u) (hsoon : s.now < u + ceilDiv 10000 (s.railCfg r).fsw) :
    phaseRemove r s = s := by
  unfold phaseRemove
  dsimp only
  rw [hsince]
  refine if_neg ?_
  rintro ⟨-, -, -, h⟩
  simp [due, hlast, Nat.not_le.mpr hsoon] at h

include hlong hon hmin hhot

theorem phaseRemove_of_due (hdue : ∀ u, (s.getReg r).lastRemove = some u → u + ceilDiv 10000 (s.railCfg r).fsw ≤ s.now) :
    phaseRemove r s = shedUpdate r (phaseOut r q s) := by
  have hd : due s.now (ceilDiv 10000 (s.railCfg r).fsw) (s.getReg r).lastRemove = true := by
    cases h : (s.getReg r).lastRemove with
    | none => rfl
    | some u => exact decide_eq_true (hdue u h)
  unfold phaseRemove
  dsimp only
  rw [hsince]
  dsimp only
  rw [if_pos ⟨hlong, hmin, hon, hd⟩, hhot]
  rfl

end Due

theorem phaseOut_getPh (r q : Nat) (s : State) :
    (phaseOut r q s).getPh q = { s.getPh q with st := 4, pen := false, pwm := false, joinAt := none } := by
  rw [phaseOut, State.getPh_updReg, State.getPh_updPh]

theorem phaseOut_getPh_ne {x : Nat} (h : x ≠ q) : (phaseOut r q s).getPh x = s.getPh x := by
  rw [phaseOut, State.getPh_updReg, State.getPh_updPh_ne _ _ _ h]

theorem activePhases_nodup (s : State) (r : Nat) : (s.activePhases r).Nodup := (List.nodup_range.filter _).filter _

/-- Of the active phases the one that leaves is missing afterwards. -/
theorem activePhases_phaseOut (hq : q ∈ s.activePhases r) : ((phaseOut r q s).activePhases r).length = (s.activePhases r).length - 1 := by
  have h : (phaseOut r q s).activePhases r = (s.activePhases r).erase q := by
    rw [(activePhases_nodup s r).erase_eq_filter, State.activePhases, State.activePhases, List.filter_filter]
    refine List.filter_congr fun x _ => ?_
    by_cases e : x = q
    · subst e; rw [phaseOut_getPh]; simp
    · rw [phaseOut_getPh_ne e]; simp [e]
  rw [h, List.length_erase_of_mem hq]

theorem addPhase_of_enough {want : Nat} (h : want ≤ (s.activePhases r).length) : addPhase r want s = s := if_pos h

theorem addPhases_of_enough {want : Nat} (h : want ≤ (s.activePhases r).length) : addPhases r want s = s := by
  rw [addPhases_eq]
  exact forList_ind (P := fun u => u = s) (fun _ _ u hu => by rw [hu, addPhase_of_enough h]) rfl

/-- With enough active phases the evaluation changes no phase. -/
theorem shedUpdate_of_enough (h : wantPhases s r ≤ (s.activePhases r).length) :
    (∀ x, (shedUpdate r s).getPh x = s.getPh x) ∧ (shedUpdate r s).getReg r = s.getReg r := by
  have h1 : (if (s.getProt r).st = 3 then addPhases r (wantPhases s r) s else s) = s := by
    split
    · exact addPhases_of_enough h
    · rfl
  unfold shedUpdate
  dsimp only
  rw [h1]
  exact ⟨fun _ => rfl, rfl⟩

theorem wantPhases_phaseOut : wantPhases (phaseOut r q s) r = wantPhases s r := by
  have hreg : (phaseOut r q s).getReg r = { s.getReg r with lastRemove := some s.now } := State.getReg_updReg ..
  unfold wantPhases
  rw [hreg]
  rfl

/-- What the removal of the hottest phase leaves (R157). -/
theorem phaseOut_settled (hq : q ∈ s.activePhases r) (hwant : wantPhases s r < (s.activePhases r).length) :
    ((shedUpdate r (phaseOut r q s)).getPh q).st = 4 ∧ ((shedUpdate r (phaseOut r q s)).getPh q).pen = false ∧
      ((shedUpdate r (phaseOut r q s)).getReg r).lastRemove = some s.now ∧
      ∀ x, x ≠ q → (shedUpdate r (phaseOut r q s)).getPh x = s.getPh x := by
  obtain ⟨hph, hreg⟩ := shedUpdate_of_enough (s := phaseOut r q s) (r := r)
    (by rw [wantPhases_phaseOut, activePhases_phaseOut hq]; omega)
  refine ⟨by rw [hph, phaseOut_getPh], by rw [hph, phaseOut_getPh], ?_, fun x hx => by rw [hph, phaseOut_getPh_ne hx]⟩
  rw [hreg, phaseOut, State.getReg_updReg]

end Remove

/-- Settles O28. -/
theorem conversionsAndPhases : Obligations.ConversionsAndPhases := by
  refine ⟨fun s r p code c12 w nc hlive => ⟨fun hpresent htest => ?_, fun hpresent htest hn => act_eq hlive (railVConv_of_tested hpresent htest hn),
    fun hpresent => ?_, fun hpresent => ?_, fun hpresent hin => ?_, fun hout => act_eq hlive (stageTConv_of_tested _ hout),
    fun caps hpresent hpen hlen => ?_, fun hpresent hup => ⟨fun hin => ?_, fun hout => ?_⟩, fun hpresent hfresh hold => ?_⟩,
    fun s p r hlive hpresent hr => ⟨fun hst huse => act_eq hlive (pwmStart_of_crowbar hpresent hr hst huse),
      fun hcb hoff => act_eq hlive (pwmStart_of_off hr hcb hoff), fun hreg hst => ?_,
      fun harm hreg hpen hpwm hend hblank => act_eq hlive (zeroCross_of_armed hr harm hreg hpen hpwm hend hblank),
      fun t0 q hsince hlong hon hmin hwant hhot => ⟨fun u hlast hsoon => act_eq hlive (phaseRemove_of_soon hsince hlast hsoon), fun hdue => ?_⟩,
      fun hst u hjoin => ⟨fun hlong => ?_, fun hshort hu => act_eq hlive (joinDone_of_short hjoin hshort hu)⟩⟩⟩
  · obtain ⟨hsample, hothers⟩ := railVConv_sample (code := code.val) hpresent htest
    simp only [RailMeas.sample, Prod.mk.injEq] at hsample
    obtain ⟨hv, hc, hhi, hlo, hcal, hn⟩ := hsample
    refine ⟨_, act_eq hlive rfl, hv, hc, hhi, hlo, hcal, hn, hothers, fun hreg hlow => ?_, ?_⟩
    · obtain ⟨hnl, hpulse⟩ := railVConv_low (code := code.val) hpresent htest hreg hlow
      refine ⟨hnl, fun q hq hst hpwm hsc hroom => ?_⟩
      rw [hpulse q hq hst]
      exact nlPulse_of_off s.now hst hpwm hsc (hroom.imp_left fun h => by rw [h]; rfl)
    · rw [railVConv_of_sample hpresent htest]
      exact ((fastPath_keeps ..).step (by decide) (voltJudged_keeps ..)).only
  · obtain ⟨g, o, heq, hg1, hg2, ho1, ho2⟩ := railVConv_of_cal (s := s) code.val hpresent
    have hrail : (s.drawn.drawn).rail = s.rail := rfl
    refine ⟨_, act_eq hlive heq, ?_, ?_, ?_, ?_, ?_, ?_, ?_, fun k hk => ?_, ?_⟩
    · rw [State.getMeas_updMeas, getMeas_of_rail hrail]
    · rw [State.getMeas_updMeas]
    · rw [State.getMeas_updMeas, getMeas_of_rail hrail]
    · rw [State.getMeas_updMeas]; exact hg1
    · rw [State.getMeas_updMeas]; exact hg2
    · rw [State.getMeas_updMeas]; exact ho1
    · rw [State.getMeas_updMeas]; exact ho2
    · rw [State.getMeas_updMeas_ne _ _ _ hk, getMeas_of_rail hrail]
    · exact ((State.updMeas_keeps ..).step (by decide) ((State.drawn_keeps ..).step (by decide) ((State.drawn_keeps s).mono (by decide)))).only
  · obtain ⟨⟨x, hph⟩, hothers, hrec⟩ := phaseIConv_sampled (s := s) c12.val nc hpresent
    refine ⟨_, act_eq hlive rfl, ?_, ?_, ?_, fun hov => ⟨?_, ?_⟩, fun hbad => ?_, fun hpen hhi hlo hn hr => ?_, ?_, ?_, hothers,
      (phaseIConv_keeps ..).only⟩
    · rw [hph]; rfl
    · rw [hph]; rfl
    · rw [hph]; rfl
    · rw [hph]; exact sampled_clean_of_bad (by rcases hov with h | h <;> simp [h])
    · rw [hrec, if_pos (by simpa using hov)]
    · rw [hph]
      exact sampled_clean_of_bad (by rcases hbad with h | h | ⟨h, g⟩ <;> simp [*])
    · rw [hph]
      exact sampled_clean_of_good hpen hhi hlo (by simp [hn]) (by rcases hr with h | h <;> simp [h])
    · rw [hph]; rfl
    · rw [hph]; rfl
  · obtain ⟨⟨x, hph⟩, hothers⟩ := stageTConv_sampled (s := s) c12.val hpresent hin
    refine ⟨_, act_eq hlive rfl, ?_, fun hov => ?_, fun hhi hlo hgt => ?_, hothers, (stageTConv_keeps ..).only⟩
    · rw [hph]; rfl
    · rw [hph]
      rcases hov with h | h <;> simp [Phase.heated, h]
    · rw [hph]
      simp [Phase.heated, hhi, hlo, hgt]
  · obtain ⟨h1, h2, h3⟩ := autoZero_effect (caps := caps.map Fin.val) hpresent hpen (by simpa using hlen)
    exact ⟨_, act_eq hlive rfl, h1, h2, h3, (autoZero_keeps ..).only⟩
  · have heq := vinRead_of_inside hpresent hup hin
    refine ⟨_, act_eq hlive heq, ?_, ?_, ?_, (State.updMeas_keeps ..).only⟩
    all_goals rw [State.getMeas_updMeas]
  · obtain ⟨h1, h2⟩ := vinRead_of_outside hpresent hup hout
    exact ⟨_, act_eq hlive rfl, h1, h2, (vinRead_keeps ..).only⟩
  · have heq := vinStale_of_old hpresent hfresh hold
    refine ⟨_, act_eq hlive heq, ?_, ?_, fun hroom => ?_, heq ▸ (vinStale_keeps r.val s).only⟩
    · rw [getMeas_of_rail ((emitRail_keeps ..).rail_eq rfl), State.getMeas_updMeas]
    · rw [getMeas_of_rail ((emitRail_keeps ..).rail_eq rfl), State.getMeas_updMeas]
    · exact emit_logs_after (State.updMeas_keeps ..) (by decide) (by decide) (by decide) (by decide) hroom
  · obtain ⟨hself, hothers⟩ := pwmStart_getPh hpresent hr hreg hst
    refine ⟨_, act_eq hlive rfl, ?_, ?_, fun hbrake => ?_, fun harm hskip => ?_, fun hbrake hrun => ?_, ?_, hothers, (pwmStart_keeps ..).only⟩
    · rw [hself]; rfl
    · rw [hself]; rfl
    · have hp : pulses s r p = false := by simp [pulses, hbrake]
      rw [hself]; exact ⟨hp, hp⟩
    · have hk : skips s r p = true := by simp [skips, harm]; exact hskip
      have hp : pulses s r p = false := by simp [pulses, hk]
      rw [hself]; exact ⟨hp, hp⟩
    · have hk : skips s r p = false := by
        rcases hrun with h | h
        · simp [skips, h]
        · simp only [skips, Bool.and_eq_false_iff, decide_eq_false_iff_not]; exact Or.inl (Nat.not_lt.mpr h)
      have hp : pulses s r p = true := by simp [pulses, hk, hbrake]
      have hlen : pulseLen s r p = max (onTime s r p) (tonMinUnits s r s.oscWanted) % 2 ^ 21 := by simp [pulseLen, hk]
      rw [hself]
      refine ⟨hp, hp, hlen, ?_⟩
      rw [Phase.started, hp, hlen]
      rfl
    · rw [hself]; rfl
  · have hq := argMin_mem _ hhot
    have heq := phaseRemove_of_due hsince hlong hon hmin hhot hdue
    obtain ⟨h1, h2, h3, h4⟩ := phaseOut_settled hq hwant
    exact ⟨_, act_eq hlive heq, h1, h2, h3, h4, ((shedUpdate_keeps ..).step (by decide)
      ((State.updReg_keeps ..).step (by decide) (State.updPh_keeps ..))).only⟩
  · have heq := joinDone_of_full hjoin hst hlong
    refine ⟨_, act_eq hlive heq, ?_, ((shareTargets_keeps ..).step (by decide) (State.updPh_keeps ..)).only⟩
    rw [shareTargets_st, State.getPh_updPh]

end Sys2Proof.Machine
end

section
/-!
Rail registers (chapter 06) on a table of rails that lists a rail twice.
-/
namespace Sys2Proof.Machine

/-- A block that answers emulated registers, whose table of rails lists rail 0 twice. -/
def twiceListed : State :=
  { pwr := { vaon := true, vio := true, emuReady := true, step := 2 }, fw := { run := true },
    rail := { reg := [(0, { vreq := 7 }), (0, { vreq := 9 })] } }

theorem twiceListed_emulates : Emulates twiceListed := by
  unfold Emulates
  decide

/-- The write sets `RAIL_VREQ` to 0 first, which takes both entries of the rail out; the host's target is then the only one. -/
theorem vreqGo_twiceListed : (vreqGo 0 twiceListed).rail.reg.length = 1 := by decide

/-- Refutes O29: a write of `RAIL_VREQ` sets the register and the host's target one after the other, the statement sets both at
once. Where the table of rails lists the rail twice and the register alone leaves the rail as it is by default, the first entry
is written once and the second stands in the one, and both entries have gone in the other. -/
theorem not_railsRegulateAndTheirRegisters : ¬ Obligations.RailsRegulateAndTheirRegisters := by
  intro h
  have hregs := (h.2 twiceListed 0 0 0 0 0 0 0).1 twiceListed_emulates
  obtain ⟨-, -, -, hheld, -⟩ := hregs
  have heq := hheld (by decide) (by decide) (by decide) (Or.inr (by decide))
  have hmodel : exec (.railVreqGo 0) twiceListed = .next (hsAnswer 0 0 (vreqGo 0 twiceListed)) := hsEmu_of_emulates twiceListed_emulates _
  rw [hmodel] at heq
  have hlen := congrArg (fun s : State => s.rail.reg.length) (Host.Outcome.next.inj heq)
  revert hlen
  decide

end Sys2Proof.Machine
end

section
/-!
What the switching off of rails does and what follows it: phases lose their outputs and nothing else that protection looks at, a rail
that does not run keeps its state and its cause, and a latched thermal trip or the third stop of an hour latches it (R180–R192).
-/
namespace Sys2Proof.Machine

/-- What the switching off of a rail leaves of a phase: all but its state, its outputs and its joining. -/
def Phase.rest (x : Phase) : Phase := { x with st := 0, pen := false, pwm := false, joinAt := none }

/-- Phase `y` is `x`, perhaps switched off. -/
structure PhaseWinds (x y : Phase) : Prop where
  rest : y.rest = x.rest
  pen : x.pen = false → y.pen = false
  pwm : x.pwm = false → y.pwm = false
  out : x.st = 6 ∨ x.st = 7 → y.st = x.st

theorem PhaseWinds.refl (x : Phase) : PhaseWinds x x := ⟨rfl, id, id, fun _ => rfl⟩

theorem PhaseWinds.trans {x y z : Phase} (h : PhaseWinds x y) (g : PhaseWinds y z) : PhaseWinds x z :=
  ⟨g.rest.trans h.rest, fun hx => g.pen (h.pen hx), fun hx => g.pwm (h.pwm hx), fun hx => by
    rw [g.out (by rwa [h.out hx]), h.out hx]⟩

/-- Rail state `y` is `x`, perhaps stopped; where it did not run, it has at most been latched, and only where `latch` holds. -/
structure ProtWinds (latch : Prop) (x y : RailProt) : Prop where
  sense : x.senseOk = true → y.senseOk = true
  cause : x.running = false → y.cause = x.cause
  st : x.running = false → y.st = x.st ∨ (x.st ≠ 6 ∧ y.st = 7 ∧ latch)

theorem ProtWinds.of_eq {latch : Prop} {x y : RailProt} (hs : x.senseOk = true → y.senseOk = true) (hc : y.cause = x.cause) (ht : y.st = x.st) :
    ProtWinds latch x y := ⟨hs, fun _ => hc, fun _ => .inl ht⟩

theorem running_of_st {x y : RailProt} (h : y.st = x.st) : y.running = x.running := by simp [RailProt.running, h]

theorem not_running_of_latched {x : RailProt} (h : x.st = 7) : x.running = false := by simp [RailProt.running, h]

theorem ProtWinds.not_running {latch : Prop} {x y : RailProt} (h : ProtWinds latch x y) (hx : x.running = false) :
    y.running = false := by
  obtain hst | ⟨-, hst, -⟩ := h.st hx
  · rw [running_of_st hst, hx]
  · exact not_running_of_latched hst

theorem ProtWinds.trans {latch : Prop} {x y z : RailProt} (h : ProtWinds latch x y) (g : ProtWinds latch y z) :
    ProtWinds latch x z := by
  refine ⟨fun hx => g.sense (h.sense hx), fun hx => (g.cause (h.not_running hx)).trans (h.cause hx), fun hx => ?_⟩
  obtain hst | ⟨h6, hst, hl⟩ := h.st hx
  · obtain gst | ⟨g6, gst, gl⟩ := g.st (h.not_running hx)
    · exact .inl (gst.trans hst)
    · exact .inr ⟨by rwa [← hst], gst, gl⟩
  · refine .inr ⟨h6, ?_, hl⟩
    obtain gst | ⟨-, gst, -⟩ := g.st (h.not_running hx)
    · exact gst.trans hst
    · exact gst

/-- From `s` to `t` rails are only stopped and phases only switched off; rails in `L` may latch with their third stop. -/
structure Winds (L : Nat → Prop) (s t : State) : Prop where
  cfg : t.cfg = s.cfg
  trip : t.aud.tripLatched = true → s.aud.tripLatched = true
  ph : ∀ p, PhaseWinds (s.getPh p) (t.getPh p)
  prot : ∀ r, ProtWinds (s.aud.tripLatched = true ∨ L r) (s.getProt r) (t.getProt r)
  vref : ∀ r, (s.getReg r).vref = 0 → (t.getReg r).vref = 0
  crow : ∀ p, (s.getProt (s.phCfg p).rail).st = 6 → (t.getPh p).pen = (s.getPh p).pen ∧ (t.getPh p).pwm = (s.getPh p).pwm

section Winds
variable {L : Nat → Prop} {ps : List Area} {s t u : State} {r j p : Nat}

theorem Winds.refl (L : Nat → Prop) (s : State) : Winds L s s :=
  ⟨rfl, id, fun _ => .refl _, fun _ => .of_eq id rfl rfl, fun _ => id, fun _ _ => ⟨rfl, rfl⟩⟩

theorem ProtWinds.crowbar {latch : Prop} {x y : RailProt} (h : ProtWinds latch x y) (hx : x.st = 6) : y.st = 6 := by
  obtain hst | ⟨h6, -, -⟩ := h.st (by simp [RailProt.running, hx])
  · rw [hst, hx]
  · exact absurd hx h6

theorem ProtWinds.mono {P Q : Prop} {x y : RailProt} (hPQ : P → Q) (h : ProtWinds P x y) : ProtWinds Q x y :=
  ⟨h.sense, h.cause, fun hx => (h.st hx).imp_right fun ⟨a, b, c⟩ => ⟨a, b, hPQ c⟩⟩

theorem Winds.trans (h : Winds L s t) (g : Winds L t u) : Winds L s u := by
  refine ⟨g.cfg.trans h.cfg, fun hu => h.trip (g.trip hu), fun p => (h.ph p).trans (g.ph p),
    fun r => (h.prot r).trans ((g.prot r).mono (.imp_left h.trip)), fun r hr => g.vref r (h.vref r hr), fun p hp => ?_⟩
  have ht : (t.getProt (t.phCfg p).rail).st = 6 := by
    rw [State.phCfg, h.cfg]
    exact (h.prot _).crowbar hp
  obtain ⟨h1, h2⟩ := h.crow p hp
  obtain ⟨g1, g2⟩ := g.crow p ht
  exact ⟨g1.trans h1, g2.trans h2⟩

theorem Winds.of_rail (hcfg : t.cfg = s.cfg) (htrip : t.aud.tripLatched = s.aud.tripLatched) (hrail : t.rail = s.rail) :
    Winds L s t where
  cfg := hcfg
  trip h := htrip ▸ h
  ph p := by rw [getPh_of_rail hrail p]; exact .refl _
  prot r := by rw [getProt_of_rail hrail r]; exact .of_eq id rfl rfl
  vref r h := by rwa [getReg_of_rail hrail r]
  crow p _ := by rw [getPh_of_rail hrail p]; exact ⟨rfl, rfl⟩

theorem Winds.step (g : Keeps ps t u) (hr : ps.contains .rail = false) (ha : ps.contains .aud = false) (hc : ps.contains .cfg = false)
    (h : Winds L s t) : Winds L s u :=
  h.trans (.of_rail (g.cfg_eq hc) (by rw [g.aud_eq ha]) (g.rail_eq hr))

/-- A change of a rail's registers that keeps a reference of 0. -/
theorem Winds.updReg (f : Reg → Reg) (hf : ∀ x, x.vref = 0 → (f x).vref = 0) (h : Winds L s t) : Winds L s (t.updReg j f) := by
  refine h.trans ⟨rfl, id, fun _ => .refl _, fun _ => .of_eq id rfl rfl, fun r hr => ?_, fun _ _ => ⟨rfl, rfl⟩⟩
  by_cases hj : r = j
  · subst hj; rw [State.getReg_updReg]; exact hf _ hr
  · rwa [State.getReg_updReg_ne _ _ _ hj]

/-- A change of a phase; one of its outputs only where its rail was not in CROWBAR. -/
theorem Winds.updPh (f : Phase → Phase) (hf : ∀ x, PhaseWinds x (f x))
    (hcrow : (s.getProt (s.phCfg p).rail).st = 6 → ∀ x : Phase, (f x).pen = x.pen ∧ (f x).pwm = x.pwm) (h : Winds L s t) :
    Winds L s (t.updPh p f) where
  cfg := h.cfg
  trip := h.trip
  prot := h.prot
  vref := h.vref
  ph q := by
    by_cases hq : q = p
    · subst hq; rw [State.getPh_updPh]; exact (h.ph q).trans (hf _)
    · rw [State.getPh_updPh_ne _ _ _ hq]; exact h.ph q
  crow q hq6 := by
    by_cases hq : q = p
    · subst hq
      obtain ⟨h1, h2⟩ := h.crow q hq6
      obtain ⟨g1, g2⟩ := hcrow hq6 (t.getPh q)
      rw [State.getPh_updPh]
      exact ⟨g1.trans h1, g2.trans h2⟩
    · rw [State.getPh_updPh_ne _ _ _ hq]; exact h.crow q hq6

/-- A change of a rail's protection state that stops it at most, or of a rail that ran. -/
theorem Winds.updProt (f : RailProt → RailProt) (hs : ∀ x, x.senseOk = true → (f x).senseOk = true)
    (hf : (s.getProt j).running = false → ∀ x, (f x).cause = x.cause ∧
      ((f x).st = x.st ∨ (x.st ≠ 6 ∧ (f x).st = 7 ∧ (s.aud.tripLatched = true ∨ L j))))
    (h : Winds L s t) : Winds L s (t.updProt j f) where
  cfg := h.cfg
  trip := h.trip
  ph := h.ph
  vref := h.vref
  crow := h.crow
  prot r := by
    by_cases hr : r = j
    · subst hr
      rw [State.getProt_updProt]
      refine ⟨fun hx => hs _ ((h.prot r).sense hx), fun hx => ((hf hx _).1).trans ((h.prot r).cause hx), fun hx => ?_⟩
      obtain gst | ⟨g6, gst, gl⟩ := (hf hx (t.getProt r)).2
      · rw [gst]; exact (h.prot r).st hx
      · refine .inr ⟨fun h6 => g6 ((h.prot r).crowbar h6), gst, gl⟩
    · rw [State.getProt_updProt_ne _ _ _ hr]; exact h.prot r

theorem Winds.onRail (f : Rails → Rails) (hph : ∀ x, (f x).ph = x.ph) (hprot : ∀ x, (f x).prot = x.prot)
    (hreg : ∀ x, (f x).reg = x.reg) (h : Winds L s t) : Winds L s (t.onRail f) := by
  have gph : ∀ q, (t.onRail f).getPh q = t.getPh q := fun q => by simp [State.getPh, hph]
  have gprot : ∀ q, (t.onRail f).getProt q = t.getProt q := fun q => by simp [State.getProt, hprot]
  have greg : ∀ q, (t.onRail f).getReg q = t.getReg q := fun q => by simp [State.getReg, hreg]
  refine h.trans ⟨rfl, id, fun q => ?_, fun q => ?_, fun q hq => ?_, fun q _ => ?_⟩
  · rw [gph]; exact .refl _
  · rw [gprot]; exact .of_eq id rfl rfl
  · rwa [greg]
  · rw [gph]; exact ⟨rfl, rfl⟩

theorem Winds.forList {α : Type} {l : List α} {f : α → State → State} (hf : ∀ a ∈ l, ∀ u, Winds L s u → Winds L s (f a u))
    (h : Winds L s t) : Winds L s (forList l f t) := forList_ind hf h

theorem Winds.ite {c : Prop} [Decidable c] (h : Winds L s t) (g : c → Winds L s u) : Winds L s (if c then u else t) := by
  by_cases hc : c
  · rw [if_pos hc]; exact g hc
  · rw [if_neg hc]; exact h

theorem Winds.emitRail (code p0 p1 p2 p3 : Nat) (h : Winds L s t) : Winds L s (emitRail code p0 p1 p2 p3 t) :=
  h.step (emitRail_keeps ..) rfl rfl rfl

theorem Winds.brakeStop (r : Nat) (h : Winds L s t) : Winds L s (brakeStop r t) := by
  unfold Machine.brakeStop
  dsimp only
  split
  · exact h
  · split
    · exact (h.updReg (fun y => { y with brake := none, brakeEnd := some t.now, brakeRec := false }) fun _ hx => hx).emitRail ..
    · exact h.updReg _ fun _ hx => hx

theorem mem_railPhases : p ∈ s.railPhases r ↔ p < 128 ∧ (s.phCfg p).present = true ∧ (s.phCfg p).rail = r := by
  simp [State.railPhases]

theorem running_ne_crowbar {x : RailProt} (h : x.running = true) : x.st ≠ 6 := by
  intro h6; simp [RailProt.running, h6] at h

theorem phOff_winds (x : Phase) : PhaseWinds x { x with pen := false, pwm := false } := ⟨rfl, fun _ => rfl, fun _ => rfl, fun _ => rfl⟩

theorem Winds.railPenLow (hrun : (s.getProt r).running = true) (h : Winds L s t) : Winds L s (railPenLow r t) := by
  refine h.forList fun p hp u hu => hu.updPh _ phOff_winds fun h6 => ?_
  have hp := (mem_railPhases.mp hp).2.2
  rw [State.phCfg, h.cfg] at hp
  rw [State.phCfg, hp] at h6
  exact absurd h6 (running_ne_crowbar hrun)

theorem Winds.railPhasesTo (r k : Nat) (h : Winds L s t) : Winds L s (railPhasesTo r k t) := by
  refine h.forList fun p _ u hu => hu.updPh _ (fun x => ?_) fun _ x => ?_
  · split
    · exact ⟨rfl, id, id, fun hx => by simp only; omega⟩
    · exact .refl _
  · split <;> exact ⟨rfl, rfl⟩

/-- A fault of a rail that ran at the outset. -/
theorem Winds.railFault (cause : Nat) (hrun : (s.getProt j).running = true) (h : Winds L s t) : Winds L s (railFault cause j t) := by
  unfold Machine.railFault
  split
  · exact h
  · have h1 := (((h.brakeStop j).railPenLow hrun).railPhasesTo j 1).step (stopClustersOf_keeps j _) rfl rfl rfl
    have h2 := h1.updProt (j := j) (fun x => { x with st := 5, cause := cause, zeroAt := none }) (fun _ hx => hx)
      fun hn => absurd hrun (by simp [hn])
    exact h2.updReg (j := j) (fun x => { x with reached := false, vref := 0, vpp := 0, vppTgt := 0, nlLo := false, nlHi := false })
      fun _ _ => rfl

theorem Winds.startDone (q : StartSeq) (h : Winds L s t) : Winds L s (startDone q t) := by
  unfold Machine.startDone
  refine Winds.step (restartAll_keeps _) rfl rfl rfl (Winds.step (railsBack_keeps _) rfl rfl rfl (Winds.emitRail _ _ _ _ _ ?_))
  exact h.forList fun r _ u hu => hu.updProt _ (fun _ hx => hx) fun _ x => ⟨rfl, .inl rfl⟩

theorem Winds.finishStart (h : Winds L s t) : Winds L s (finishStart t) :=
  (h.onRail (fun x => { x with starts := x.starts.filter fun q => startPending t q ≠ [] }) (fun _ => rfl) (fun _ => rfl)
    fun _ => rfl).forList fun q _ _ hu => hu.startDone q

theorem Winds.latchAll (htrip : t.aud.tripLatched = true) (h : Winds L s t) : Winds L s (latchAll t) := by
  refine h.forList fun r _ u hu => hu.updProt _ (fun _ hx => hx) fun _ x => ⟨rfl, ?_⟩
  by_cases h6 : x.st = 6
  · exact .inl (by simp [h6])
  · exact .inr ⟨h6, by simp [h6], .inl (h.trip htrip)⟩

theorem Winds.finishStops (h : Winds L s t) : Winds L s (finishStops t) := by
  unfold Machine.finishStops
  extract_lets ended s1
  have h1 : Winds L s s1 := (h.onRail (fun r => { r with stops := r.stops.filter fun q => !stopOver t q }) (fun _ => rfl) (fun _ => rfl)
    fun _ => rfl).forList fun q _ _ hu => hu.emitRail ..
  have haud : s1.aud = t.aud := (stopRecs_keeps _ _).aud_eq rfl
  split
  · next hc =>
    refine h1.latchAll ?_
    rw [haud]
    exact (Bool.and_eq_true_iff.mp hc).1
  · exact h1

theorem Winds.running_of (h : Winds L s t) (ht : (t.getProt r).running = true) : (s.getProt r).running = true := by
  by_contra hs
  rw [(h.prot r).not_running (by simpa using hs)] at ht
  exact absurd ht (by decide)

theorem Winds.fastStop (l : List Nat) (c track : Nat) (h : Winds L s t) : Winds L s (fastStop l c track t) := by
  unfold Machine.fastStop
  extract_lets act lv s1 q s2
  split
  · exact h
  · have h1 : Winds L s s1 := h.forList fun j _ _ hu => hu.step (stopClustersOf_keeps j _) rfl rfl rfl
    have h2 : Winds L s s2 := h1.forList fun j hj u hu => by
      have hact : j ∈ act := (List.mem_filter.mp hj).1
      exact hu.railFault _ (h.running_of (by simpa using (List.mem_filter.mp hact).2))
    exact (h2.onRail (fun x => { x with stops := x.stops ++ [q] }) (fun _ => rfl) (fun _ => rfl) fun _ => rfl).finishStops.finishStart

theorem Winds.stopWithMaster (l : List Nat) (h : Winds L s t) : Winds L s (stopWithMaster l t) :=
  (h.fastStop l 6 0).step (masterFaults_keeps ..) rfl rfl rfl

theorem Winds.stopTrackers (r : Nat) (h : Winds L s t) : Winds L s (stopTrackers r t) := h.stopWithMaster _

theorem Winds.refuseStart (cause : Nat) (hrun : (s.getProt j).running = true) (h : Winds L s t) : Winds L s (refuseStart cause j t) :=
  (h.railFault cause hrun).stopTrackers j

theorem Winds.rampDown (q : StopSeq) (hrun : (s.getProt j).running = true) (h : Winds L s t) : Winds L s (rampDown q j t) := by
  have h1 := h.updProt (j := j) (fun x => { x with st := 4, zeroAt := none }) (fun _ hx => hx) fun hn => absurd hrun (by simp [hn])
  exact (h1.updReg (j := j) (fun x => { x with target := 0, forced := some 0, host := none, reached := false })
    fun _ hx => hx).stopWithMaster _

theorem Winds.rampDownLevels (h : Winds L s t) : Winds L s (rampDownLevels t) := by
  refine h.forList fun q _ u hu => ?_
  extract_lets rails waiting lv
  split
  · exact hu
  · refine hu.forList fun j hj v hv => hv.rampDown q (hu.running_of ?_)
    simp only [List.mem_filter, decide_eq_true_eq] at hj
    exact hj.2.1

theorem Winds.railSettle (h : Winds L s t) : Winds L s (railSettle t) := h.rampDownLevels.finishStops.finishStart

theorem Winds.countStop (hL : L j) (h : Winds L s t) : Winds L s (countStop j t) := by
  unfold Machine.countStop
  extract_lets l s1
  have h1 : Winds L s s1 := h.updProt _ (fun _ hx => hx) fun _ x => ⟨rfl, .inl rfl⟩
  refine h1.ite fun _ => Winds.emitRail _ _ _ _ _ (h1.updProt _ (fun _ hx => hx) fun _ x => ⟨rfl, ?_⟩)
  by_cases h6 : x.st = 6
  · exact .inl (by simp [h6])
  · exact .inr ⟨h6, by simp [h6], .inr hL⟩

theorem Winds.protStop (cause : Nat) (hrun : (s.getProt j).running = true) (hL : L j) (h : Winds L s t) :
    Winds L s (protStop cause j t) := (((h.railFault cause hrun).stopTrackers j).countStop hL).railSettle

theorem running_of_one {x : RailProt} (h : x.st = 1) : x.running = true := by simp [RailProt.running, h]

theorem Winds.judgeStart (q : StartSeq) (r : Nat) (h : Winds L s t) : Winds L s (judgeStart q r t) := by
  unfold Machine.judgeStart
  split
  · exact h
  · next hst =>
    have hrun := h.running_of (running_of_one (not_not.mp hst))
    extract_lets n
    split
    · exact (h.refuseStart 3 hrun).emitRail ..
    · exact h.ite fun _ => (h.refuseStart 6 hrun).emitRail ..

theorem Winds.onStart (f : StartSeq → StartSeq) (h : Winds L s t) : Winds L s (onStart f t) :=
  h.onRail (fun x => { x with starts := updStart (fun q => decide (q.step ≤ 4)) f x.starts }) (fun _ => rfl) (fun _ => rfl) fun _ => rfl

theorem Winds.identifyNext (h : Winds L s t) : Winds L s (identifyNext t) := by
  unfold Machine.identifyNext
  split
  · extract_lets s1 byLevel
    exact h.ite fun _ => ((h.onStart _).forList fun r _ _ hu => hu.judgeStart _ r).finishStart
  · exact h

theorem Winds.audAbandon (cause : Nat) (h : Winds L s t) : Winds L s (audAbandon cause t) := by
  have g := audAbandon_keeps cause t
  have htrip := audAbandon_trip cause t
  simp only [Audit.trip, Prod.mk.injEq] at htrip
  obtain ⟨-, -, -, -, -, hlatched⟩ := htrip
  exact h.trans (.of_rail (g.cfg_eq rfl) hlatched (g.rail_eq rfl))

theorem Winds.unitFree (kind i : Nat) (h : Winds L s t) : Winds L s (unitFree kind i t) := by
  unfold Machine.unitFree
  split
  · exact h
  · have h1 : Winds L s (t.updUnit (audIdx kind i) fun u => { u with st := 0 }) := h.trans (.of_rail rfl rfl rfl)
    exact h1.step (emitClerk_keeps ..) rfl rfl rfl

/-- A phase whose latched states were not in force comes back from Audit. -/
theorem Winds.phaseBack (hp : (s.getPh p).st ≠ 6 ∧ (s.getPh p).st ≠ 7) (h : Winds L s t) :
    Winds L s (t.updPh p fun x => { x with st := 4 }) where
  cfg := h.cfg
  trip := h.trip
  prot := h.prot
  vref := h.vref
  ph q := by
    by_cases hq : q = p
    · subst hq
      rw [State.getPh_updPh]
      exact ⟨(h.ph q).rest, (h.ph q).pen, (h.ph q).pwm, fun hx => by omega⟩
    · rw [State.getPh_updPh_ne _ _ _ hq]; exact h.ph q
  crow q hq6 := by
    by_cases hq : q = p
    · subst hq; rw [State.getPh_updPh]; exact h.crow q hq6
    · rw [State.getPh_updPh_ne _ _ _ hq]; exact h.crow q hq6

theorem Winds.not_out (h : Winds L s t) (hp : (t.getPh p).st = 5) : (s.getPh p).st ≠ 6 ∧ (s.getPh p).st ≠ 7 := by
  refine ⟨fun h6 => ?_, fun h7 => ?_⟩
  · rw [(h.ph p).out (.inl h6)] at hp; omega
  · rw [(h.ph p).out (.inr h7)] at hp; omega

theorem mem_sarHeld {k : Nat} (h : p ∈ s.sarHeld k) : (s.getPh p).st = 5 := by
  unfold State.sarHeld at h
  split at h
  · exact absurd h (by simp)
  · exact of_decide_eq_true (List.mem_filter.mp h).2

theorem Winds.audYield (r : Nat) (h : Winds L s t) : Winds L s (audYield r t) := by
  unfold Machine.audYield
  extract_lets s1 out
  have h1 : Winds L s s1 := by
    unfold s1
    split
    · exact h.ite fun _ => h.audAbandon 0
    · exact h
  refine h1.forList fun p hp u hu => ?_
  have hout : (s1.getPh p).st = 5 := (of_decide_eq_true (List.mem_filter.mp hp).2).1
  extract_lets t1
  have ht1 : Winds L s t1 := hu.forList fun q hq v hv => hv.phaseBack (by
    obtain rfl | hq := List.mem_cons.mp hq
    · exact h1.not_out hout
    · exact hu.not_out (mem_sarHeld hq))
  exact (ht1.unitFree ..).unitFree ..

theorem Winds.checkCapacity (hL : L r) (h : Winds L s t) : Winds L s (checkCapacity r t) := by
  unfold Machine.checkCapacity
  extract_lets s1
  have h1 : Winds L s s1 := h.ite fun _ => h.audYield r
  split
  · next hw =>
    have hrun : (s1.getProt r).running = true := by
      simp only [waitShort, Bool.and_eq_true, decide_eq_true_eq] at hw
      exact running_of_one hw.1.1
    exact ((h1.refuseStart 3 (h1.running_of hrun)).emitRail ..).railSettle
  · split
    · next hsh =>
      have hrun : (s1.getProt r).running = true := by
        simp only [railShort, Bool.and_eq_true, Bool.or_eq_true, decide_eq_true_eq] at hsh
        obtain ⟨hst | hst, -⟩ := hsh <;> simp [RailProt.running, hst]
      exact ((h1.emitRail ..).step (frecTake_keeps ..) rfl rfl rfl).protStop 3 (h1.running_of hrun) hL
    · exact h1

end Winds

end Sys2Proof.Machine
end

section
/-!
The start of rails step by step, their stopping, and the answer to overload (R167–R187).
-/
namespace Sys2Proof.Machine

section Start
variable {s t : State} {r p : Nat}

/-- What the end of a start leaves of the rails: all but their start records. -/
def Rails.still (x : Rails) : Rails := { x with starts := [], prot := [] }

theorem startDone_still (q : StartSeq) (s : State) : (startDone q s).rail.still = s.rail.still := by
  unfold startDone
  extract_lets on
  rw [(restartAll_keeps _).rail_eq rfl, (railsBack_keeps _).rail_eq rfl, (emitRail_keeps ..).rail_eq rfl]
  exact forList_eq (fun u => u.rail.still) (maskIdx 8 q.rails)
    (f := fun r => State.updProt r fun x => { x with startT := satU 32 (s.now - q.began) }) (fun _ _ => by rfl) s

theorem startDone_starts (q : StartSeq) (s : State) : (startDone q s).rail.starts = s.rail.starts := by
  unfold startDone
  extract_lets on
  rw [(restartAll_keeps _).rail_eq rfl, (railsBack_keeps _).rail_eq rfl, (emitRail_keeps ..).rail_eq rfl]
  exact forList_eq (fun u => u.rail.starts) (maskIdx 8 q.rails)
    (f := fun r => State.updProt r fun x => { x with startT := satU 32 (s.now - q.began) }) (fun _ _ => by rfl) s

/-- A rail's protection state but for the time its start took. -/
def RailProt.untimed (x : RailProt) : RailProt := { x with startT := 0 }

theorem updProt_untimed (j r : Nat) {f : RailProt → RailProt} (hf : ∀ x, (f x).untimed = x.untimed) (s : State) :
    ((s.updProt j f).getProt r).untimed = (s.getProt r).untimed := by
  by_cases h : r = j
  · subst h; rw [State.getProt_updProt, hf]
  · rw [State.getProt_updProt_ne _ _ _ h]

theorem startDone_untimed (q : StartSeq) (s : State) (r : Nat) :
    ((startDone q s).getProt r).untimed = (s.getProt r).untimed := by
  unfold startDone
  extract_lets on
  rw [getProt_of_rail ((restartAll_keeps _).rail_eq rfl), getProt_of_rail ((railsBack_keeps _).rail_eq rfl),
    getProt_of_rail ((emitRail_keeps ..).rail_eq rfl)]
  exact forList_eq (fun u => (u.getProt r).untimed) (maskIdx 8 q.rails) (fun j u => updProt_untimed j r (f := fun x => { x with startT := satU 32 (s.now - q.began) })
    (fun _ => rfl) u) s

theorem finishStart_still (s : State) : (finishStart s).rail.still = s.rail.still :=
  forList_eq (fun u => u.rail.still) _ (fun q u => startDone_still q u) _

theorem finishStart_starts (s : State) :
    (finishStart s).rail.starts = s.rail.starts.filter fun q => startPending s q ≠ [] :=
  forList_eq (fun u => u.rail.starts) _ (fun q u => startDone_starts q u) _

theorem finishStart_untimed (s : State) (r : Nat) : ((finishStart s).getProt r).untimed = (s.getProt r).untimed :=
  forList_eq (fun u => (u.getProt r).untimed) _ (fun q u => startDone_untimed q u r) _

theorem finishStart_getPh (s : State) (p : Nat) : (finishStart s).getPh p = s.getPh p := by
  have h := congrArg (fun x => Tbl.get {} x.ph p) (finishStart_still s)
  exact h

theorem finishStart_reg (s : State) : (finishStart s).rail.reg = s.rail.reg := by
  have h := congrArg Rails.reg (finishStart_still s)
  exact h

theorem find?_updStart {l : List StartSeq} {pr : StartSeq → Bool} {f : StartSeq → StartSeq} {q : StartSeq}
    (h : l.find? pr = some q) (hf : pr (f q) = true) : (updStart pr f l).find? pr = some (f q) := by
  induction l with
  | nil => cases h
  | cons a l ih =>
    by_cases ha : pr a = true
    · rw [List.find?_cons_of_pos ha] at h
      cases h
      rw [updStart, if_pos ha, List.find?_cons_of_pos hf]
    · rw [List.find?_cons_of_neg ha] at h
      rw [updStart, if_neg ha, List.find?_cons_of_neg ha, ih h]

theorem find?_filter_of {α : Type} {l : List α} {pr g : α → Bool} {q : α} (h : l.find? pr = some q) (hg : g q = true) :
    (l.filter g).find? pr = some q := by
  induction l with
  | nil => cases h
  | cons a l ih =>
    by_cases ha : pr a = true
    · rw [List.find?_cons_of_pos ha] at h
      cases h
      rw [List.filter_cons_of_pos hg, List.find?_cons_of_pos ha]
    · rw [List.find?_cons_of_neg ha] at h
      by_cases hga : g a = true
      · rw [List.filter_cons_of_pos hga, List.find?_cons_of_neg ha, ih h]
      · rw [List.filter_cons_of_neg hga, ih h]

/-- The read back of stage devices changes phases only (R175). -/
theorem pmbDevDone_getProt (reads : List PmbReads) (a : Nat) (s : State) :
    (pmbDevDone reads a s).rail.prot = s.rail.prot ∧ (pmbDevDone reads a s).rail.starts = s.rail.starts := by
  unfold pmbDevDone
  split
  · exact ⟨rfl, rfl⟩
  · rw [(emitRail_keeps ..).rail_eq rfl]
    exact ⟨forList_eq (·.rail.prot) _ (fun _ _ => by rfl) s, forList_eq (·.rail.starts) _ (fun _ _ => by rfl) s⟩

/-- The address at which the device read back a wrong configuration twice. -/
def devFailed (reads : List PmbReads) (s : State) (a : Nat) : Option Nat :=
  pmbFailed (s.pmbDev a) ((reads.find? fun x => x.addr.val = a).getD { addr := Fin.ofNat 128 a })

theorem pmbDevDone_of_good {reads : List PmbReads} {a : Nat} (h : devFailed reads s a = none) : pmbDevDone reads a s = s := by
  unfold pmbDevDone
  rw [show pmbFailed _ _ = none from h]

theorem pmbDevDone_of_bad {reads : List PmbReads} {a c : Nat} (h : devFailed reads s a = some c) : pmbDevDone reads a s =
    emitRail 0x3822 a c 0 0 (forList ((List.range 128).filter fun p => (s.phCfg p).present && decide ((s.phCfg p).addr = a))
      (fun p => State.updPh p fun x => { x with st := 7 }) s) := by
  unfold pmbDevDone
  rw [show pmbFailed _ _ = some c from h]

theorem devFailed_of_cfg {reads : List PmbReads} (h : t.cfg = s.cfg) (a : Nat) : devFailed reads t a = devFailed reads s a := by
  simp [devFailed, State.pmbDev, h]

theorem pmbDevDone_st {reads : List PmbReads} {a : Nat} (p : Nat) (h : (s.getPh p).st = 7) : ((pmbDevDone reads a s).getPh p).st = 7 := by
  cases hd : devFailed reads s a with
  | none => rwa [pmbDevDone_of_good hd]
  | some c =>
    rw [pmbDevDone_of_bad hd, getPh_of_rail ((emitRail_keeps ..).rail_eq rfl)]
    refine forList_ind (P := fun u => (u.getPh p).st = 7) (fun q _ u hu => ?_) h
    by_cases e : p = q
    · subst e; rw [State.getPh_updPh]
    · rwa [State.getPh_updPh_ne _ _ _ e]

/-- Each present phase of a device that read back wrong is unusable. -/
theorem stageDevs_bad {reads : List PmbReads} (hp : p < 128) (hpres : (s.phCfg p).present = true)
    (hbad : devFailed reads s (s.phCfg p).addr ≠ none) : ((forList s.stageDevs (pmbDevDone reads) s).getPh p).st = 7 := by
  have hmem : (s.phCfg p).addr ∈ s.stageDevs := by
    refine List.mem_eraseDups.mpr (List.mem_filterMap.mpr ⟨p, List.mem_range.mpr hp, ?_⟩)
    rw [if_pos hpres]
  refine forList_est_of (P := fun u => (u.getPh p).st = 7) (Q := fun u => u.cfg = s.cfg) hmem
    (fun a u hu => ((pmbDevDone_keeps ..).cfg_eq rfl).trans hu) (fun a u _ hu => pmbDevDone_st p hu) (fun u hu => ?_) rfl
  obtain ⟨c, hc⟩ := Option.ne_none_iff_exists'.mp hbad
  rw [pmbDevDone_of_bad ((devFailed_of_cfg hu _).trans hc), getPh_of_rail ((emitRail_keeps ..).rail_eq rfl)]
  refine forList_est (P := fun v => (v.getPh p).st = 7) (d := p) ?_ (fun q v hv => ?_) (fun v => ?_) u
  · simp only [List.mem_filter, List.mem_range, State.phCfg, hu, Bool.and_eq_true, decide_eq_true_eq]
    exact ⟨hp, hpres, trivial⟩
  · by_cases e : p = q
    · subst e; rw [State.getPh_updPh]
    · rwa [State.getPh_updPh_ne _ _ _ e]
  · rw [State.getPh_updPh]

/-- A phase of a device that read back right stays as it was. -/
theorem stageDevs_good {reads : List PmbReads} (hgood : devFailed reads s (s.phCfg p).addr = none) :
    (forList s.stageDevs (pmbDevDone reads) s).getPh p = s.getPh p := by
  refine (forList_ind (P := fun u => u.cfg = s.cfg ∧ u.getPh p = s.getPh p) (fun a _ u hu => ?_) ⟨rfl, rfl⟩).2
  obtain ⟨hcfg, hph⟩ := hu
  refine ⟨((pmbDevDone_keeps ..).cfg_eq rfl).trans hcfg, ?_⟩
  cases hd : devFailed reads u a with
  | none => rwa [pmbDevDone_of_good hd]
  | some c =>
    rw [pmbDevDone_of_bad hd, getPh_of_rail ((emitRail_keeps ..).rail_eq rfl), ← hph]
    refine forList_eq_of_mem (State.getPh · p) (fun q hq v => State.getPh_updPh_ne _ _ _ ?_) u
    rintro rfl
    simp only [List.mem_filter, Bool.and_eq_true, decide_eq_true_eq] at hq
    rw [State.phCfg, hcfg] at hq
    rw [devFailed_of_cfg hcfg, ← hq.2.2] at hd
    rw [State.phCfg] at hgood
    rw [hgood] at hd
    cases hd

theorem startPending_of_prot {q q' : StartSeq} (hp : ∀ r, t.getProt r = s.getProt r) (hq : q'.rails = q.rails) :
    startPending t q' = startPending s q := by
  simp only [startPending, hp, hq]

theorem pmbusDone_of_front {q : StartSeq} (reads : List PmbReads) (hq : s.startFront = some q) (hstep : q.step = 2) (hup : s.pmUp = true) :
    pmbusDone reads s = finishStart (onStart (fun x => { x with step := 3 }) (forList s.stageDevs (pmbDevDone reads) s)) := by
  unfold pmbusDone
  rw [hq]
  exact if_pos (by simp [hstep, hup])

theorem pmbusDone_front {q : StartSeq} {reads : List PmbReads} (hq : s.startFront = some q) (hstep : q.step = 2) (hup : s.pmUp = true)
    (hpend : startPending s q ≠ []) : (pmbusDone reads s).startFront = some { q with step := 3 } := by
  rw [pmbusDone_of_front reads hq hstep hup, State.startFront, finishStart_starts]
  have hprot : (forList s.stageDevs (pmbDevDone reads) s).rail.prot = s.rail.prot :=
    forList_eq (·.rail.prot) _ (fun a u => (pmbDevDone_getProt reads a u).1) s
  have hstarts : (forList s.stageDevs (pmbDevDone reads) s).rail.starts = s.rail.starts :=
    forList_eq (·.rail.starts) _ (fun a u => (pmbDevDone_getProt reads a u).2) s
  refine find?_filter_of ?_ ?_
  · rw [onStart, State.onRail_rail, hstarts]
    exact find?_updStart (f := fun x => { x with step := 3 }) hq rfl
  · have hsame : startPending (onStart (fun x => { x with step := 3 }) (forList s.stageDevs (pmbDevDone reads) s))
        { q with step := 3 } = startPending s q := startPending_of_prot (fun r => by rw [State.getProt, State.getProt, ← hprot]; rfl) rfl
    exact decide_eq_true fun he => hpend (hsame ▸ he)

theorem pmbusDone_getPh {q : StartSeq} {reads : List PmbReads} (hq : s.startFront = some q) (hstep : q.step = 2) (hup : s.pmUp = true)
    (p : Nat) : (pmbusDone reads s).getPh p = (forList s.stageDevs (pmbDevDone reads) s).getPh p := by
  rw [pmbusDone_of_front reads hq hstep hup, finishStart_getPh]
  rfl

/-- The check of one rail's sense lines (R176). -/
def senseOne (rises : List (Nat × Nat)) (r : Nat) (t : State) : State :=
  if (t.getProt r).st ≠ 1 then t
  else if 200 < Tbl.get 0 rises r then refuseStart 5 r t |> emitRail 0x3004 r (Tbl.get 0 rises r) 0 0
  else t.updProt r fun x => { x with senseOk := true }

theorem senseCheck_of_front {q : StartSeq} (rises : List (Nat × Nat)) (hq : s.startFront = some q) (hstep : q.step = 3) :
    senseCheck rises s =
      identifyNext (onStart (fun x => { x with step := 4, next := 0 }) (forList (maskIdx 8 q.rails) (senseOne rises) s)) := by
  unfold senseCheck
  rw [hq]
  exact if_pos hstep

/-- After the loop over the rails nothing is undone. -/
theorem senseCheck_winds {q : StartSeq} {rises : List (Nat × Nat)} (L : Nat → Prop) (hq : s.startFront = some q) (hstep : q.step = 3) :
    Winds L (forList (maskIdx 8 q.rails) (senseOne rises) s) (senseCheck rises s) := by
  rw [senseCheck_of_front rises hq hstep]
  exact ((Winds.refl L _).onStart _).identifyNext

theorem senseOne_of_flat {rises : List (Nat × Nat)} (hr : Tbl.get 0 rises r ≤ 200) (hst : (s.getProt r).st = 1) :
    senseOne rises r s = s.updProt r fun x => { x with senseOk := true } := by
  rw [senseOne, if_neg (by simpa using hst), if_neg (by omega)]

/-- A rail in PREPARE whose sense lines show no rise passes. -/
theorem senseRails_ok {rises : List (Nat × Nat)} {l : List Nat} (hflat : ∀ k ∈ l, Tbl.get 0 rises k ≤ 200) (hr : r ∈ l)
    (hst : (s.getProt r).st = 1) : ((forList l (senseOne rises) s).getProt r).senseOk = true := by
  have hone : ∀ k ∈ l, ∀ u : State, (u.getProt r).st = 1 → ((senseOne rises k u).getProt r).st = 1 ∧
      ((u.getProt r).senseOk = true ∨ k = r → ((senseOne rises k u).getProt r).senseOk = true) := fun k hk u hu => by
    by_cases hku : (u.getProt k).st = 1
    · rw [senseOne_of_flat (hflat k hk) hku]
      by_cases e : r = k
      · subst e; rw [State.getProt_updProt]; exact ⟨hu, fun _ => rfl⟩
      · rw [State.getProt_updProt_ne _ _ _ e]
        exact ⟨hu, fun h => h.resolve_right (Ne.symm e)⟩
    · rw [senseOne, if_pos hku]
      exact ⟨hu, fun h => h.resolve_right (by rintro rfl; exact hku hu)⟩
  induction l generalizing s with
  | nil => cases hr
  | cons a l ih =>
    rw [forList_cons]
    obtain ⟨h1, h2⟩ := hone a (by simp) s hst
    by_cases hl : r ∈ l
    · exact ih (fun k hk => hflat k (by simp [hk])) hl h1 fun k hk => hone k (by simp [hk])
    · obtain rfl : r = a := by simpa [hl] using hr
      exact (forList_ind (P := fun u => (u.getProt r).st = 1 ∧ (u.getProt r).senseOk = true)
        (fun k hk u hu => ⟨(hone k (by simp [hk]) u hu.1).1, (hone k (by simp [hk]) u hu.1).2 (.inl hu.2)⟩)
        ⟨h1, h2 (.inr rfl)⟩).2

/-- A rail of a start that is still in PREPARE, or was refused for its own sense lines or with its master. -/
structure Refusable (r : Nat) (s : State) : Prop where
  trip : s.aud.tripLatched = false
  st : (s.getProt r).st = 1 ∨ ((s.getProt r).st = 5 ∧ ((s.getProt r).cause = 5 ∨ (s.getProt r).cause = 6))

theorem Refusable.of_untimed (ha : t.aud = s.aud) (hp : (t.getProt r).untimed = (s.getProt r).untimed) (h : Refusable r s) :
    Refusable r t := by
  have hst : (t.getProt r).st = (s.getProt r).st := (congrArg RailProt.st hp :)
  have hcause : (t.getProt r).cause = (s.getProt r).cause := (congrArg RailProt.cause hp :)
  exact ⟨by rw [ha]; exact h.trip, by rw [hst, hcause]; exact h.st⟩

theorem Refusable.step {ps : List Area} (g : Keeps ps s t) (hr : ps.contains .rail = false) (ha : ps.contains .aud = false)
    (h : Refusable r s) : Refusable r t := h.of_untimed (g.aud_eq ha) (by rw [getProt_of_rail (g.rail_eq hr)])

theorem Refusable.railFault {c : Nat} (hc : c = 5 ∨ c = 6) (j : Nat) (h : Refusable r s) : Refusable r (railFault c j s) := by
  by_cases e : r = j
  · subst e
    refine ⟨by rw [(railFault_keeps ..).aud_eq rfl]; exact h.trip, ?_⟩
    rw [railFault_getProt, faultProt]
    split
    · exact h.st
    · exact .inr ⟨rfl, hc⟩
  · exact h.of_untimed ((railFault_keeps ..).aud_eq rfl) (by rw [railFault_getProt_ne _ _ e])

theorem Refusable.fastStop (l : List Nat) (h : Refusable r s) : Refusable r (fastStop l 6 0 s) := by
  unfold Machine.fastStop
  extract_lets act lv s1 q s2
  split
  · exact h
  · have h1 : Refusable r s1 := forList_ind (P := Refusable r) (fun j _ u hu => hu.step (stopClustersOf_keeps j u) rfl rfl) h
    have h2 : Refusable r s2 := forList_ind (P := Refusable r) (fun j _ u hu => hu.railFault (by simp [StopSeq.causeOf, q]) j) h1
    have h3 : Refusable r (s2.onRail fun x => { x with stops := x.stops ++ [q] }) := Refusable.of_untimed (s := s2) rfl rfl h2
    have h4 := h3.of_untimed ((finishStops_keeps _).aud_eq rfl) (by rw [finishStops_getProt h3.trip])
    exact h4.of_untimed ((finishStart_keeps _).aud_eq rfl) (finishStart_untimed _ r)

theorem Refusable.refuseStart {c : Nat} (hc : c = 5 ∨ c = 6) (j : Nat) (h : Refusable r s) : Refusable r (refuseStart c j s) :=
  ((h.railFault hc j).fastStop _).step (masterFaults_keeps ..) rfl rfl

theorem Refusable.senseOne (rises : List (Nat × Nat)) (k : Nat) (h : Refusable r s) : Refusable r (senseOne rises k s) := by
  unfold Machine.senseOne
  split
  · exact h
  · split
    · exact (h.refuseStart (.inl rfl) k).step (emitRail_keeps ..) rfl rfl
    · by_cases e : r = k
      · subst e
        exact ⟨h.trip, by rw [State.getProt_updProt]; exact h.st⟩
      · exact Refusable.of_untimed (s := s) rfl (by rw [State.getProt_updProt_ne _ _ _ e]) h

/-- A refused rail stays refused. -/
theorem refused_of_winds {L : Nat → Prop} (hL : ¬ L r) (hw : Winds L s t) (htrip : s.aud.tripLatched = false)
    (hrun : (s.getProt r).running = false) : (t.getProt r).st = (s.getProt r).st ∧ (t.getProt r).cause = (s.getProt r).cause := by
  refine ⟨((hw.prot r).st hrun).resolve_right fun h => ?_, (hw.prot r).cause hrun⟩
  obtain ⟨-, -, h | h⟩ := h
  · simp [htrip] at h
  · exact hL h

theorem Winds.senseOne {L : Nat → Prop} (rises : List (Nat × Nat)) (k : Nat) (h : Winds L s t) : Winds L s (senseOne rises k t) := by
  unfold Machine.senseOne
  split
  · exact h
  · next hst =>
    split
    · exact (h.refuseStart 5 (h.running_of (running_of_one (not_not.mp hst)))).emitRail ..
    · exact h.updProt _ (fun _ _ => rfl) fun _ x => ⟨rfl, .inl rfl⟩

/-- R176: a rail in PREPARE whose sense lines rise goes to FAULT, with cause 5, or 6 where its master went first. -/
theorem senseCheck_refuses {q : StartSeq} {rises : List (Nat × Nat)} (hq : s.startFront = some q) (hstep : q.step = 3)
    (hr : r ∈ maskIdx 8 q.rails) (hrise : 200 < Tbl.get 0 rises r) (hst : (s.getProt r).st = 1) (htrip : s.aud.tripLatched = false) :
    ((senseCheck rises s).getProt r).st = 5 ∧
      (((senseCheck rises s).getProt r).cause = 5 ∨ ((senseCheck rises s).getProt r).cause = 6) := by
  have hkeep : ∀ (u v : State), Refusable r u → Winds (fun _ => False) u v → (u.getProt r).st = 5 → (v.getProt r).st = 5 :=
    fun u v hu hw h5 => (refused_of_winds id hw hu.trip (by simp [RailProt.running, h5])).1.trans h5
  have hstart : Refusable r s := ⟨htrip, .inl hst⟩
  have hloop : Refusable r (forList (maskIdx 8 q.rails) (senseOne rises) s) :=
    forList_ind (P := Refusable r) (fun k _ u hu => hu.senseOne rises k) hstart
  have h5 : ((forList (maskIdx 8 q.rails) (senseOne rises) s).getProt r).st = 5 := by
    refine forList_est_of (P := fun u => (u.getProt r).st = 5) (Q := Refusable r) hr (fun k u hu => hu.senseOne rises k)
      (fun k u hu h5 => hkeep u _ hu ((Winds.refl _ u).senseOne rises k) h5) (fun u hu => ?_) hstart
    by_cases h1 : (u.getProt r).st = 1
    · rw [Machine.senseOne, if_neg (by simpa using h1), if_pos hrise]
      have hf : ((railFault 5 r u).getProt r).st = 5 := by
        rw [railFault_getProt, faultProt, if_neg (by omega)]
      exact hkeep _ _ (hu.railFault (.inl rfl) r) (((Winds.refl _ _).stopTrackers r).emitRail ..) hf
    · obtain ⟨h5, -⟩ := hu.st.resolve_left h1
      exact hkeep u _ hu ((Winds.refl _ u).senseOne rises r) h5
  obtain ⟨-, hcause⟩ := hloop.st.resolve_left (by omega)
  obtain ⟨h1, h2⟩ := refused_of_winds (r := r) (fun h => h) (senseCheck_winds (fun _ => False) hq hstep) hloop.trip
    (by simp [RailProt.running, h5])
  exact ⟨h1.trans h5, by rwa [h2]⟩

/-- What an identify leaves of its phase (R177). -/
def identified (i : Nat) (x : Phase) : Phase := { x with idi := i, pen := false, pwm := false }

/-- What the protections make of a phase that they disable for `f` (R184–R186). -/
def disabled (f : Phase → Phase) (x : Phase) : Phase :=
  { (f x).noTrim with st := if x.st = 7 then 7 else 6, pen := false, pwm := false, joinAt := none }

theorem disablePhase_eq (p : Nat) (f : Phase → Phase) (s : State) :
    disablePhase p f s = checkCapacity (s.phCfg p).rail (s.updPh p (disabled f)) := rfl

/-- A disabled phase stays as it was disabled, but for what the switching off of its rail changes. -/
theorem disablePhase_self (p : Nat) (f : Phase → Phase) (s : State) :
    PhaseWinds (disabled f (s.getPh p)) ((disablePhase p f s).getPh p) := by
  rw [disablePhase_eq, ← State.getPh_updPh s p (disabled f)]
  exact ((Winds.refl (fun _ => True) _).checkCapacity trivial).ph p

theorem disablePhase_other {p k : Nat} (f : Phase → Phase) (hk : k ≠ p) (s : State) :
    PhaseWinds (s.getPh k) ((disablePhase p f s).getPh k) := by
  rw [disablePhase_eq, ← State.getPh_updPh_ne s p (disabled f) hk]
  exact ((Winds.refl (fun _ => True) _).checkCapacity trivial).ph k

/-- A phase that fails its identify is disabled for the cause (Table 7.4). -/
def identifyJudged (p i : Nat) : Option Nat → State → State
  | some c, u => disablePhase p (fun x => { x with idFail := true, idCause := c }) u |> emitRail 0x3010 p c i 0
  | none, u => u

theorem phaseIdentify_of_front {q : StartSeq} {code : Nat} {pads sc oth : Bool} (hq : s.startFront = some q) (hstep : q.step = 4)
    (hp : (identifyList s q).head? = some p) : phaseIdentify p code pads sc oth s =
      identifyNext (identifyJudged p (satU 16 (phaseAmps s p code).toNat)
        (identifyCause s p (satU 16 (phaseAmps s p code).toNat) pads sc oth)
        (onStart (fun x => { x with next := p + 1 }) (s.updPh p (identified (satU 16 (phaseAmps s p code).toNat))))) := by
  unfold phaseIdentify
  rw [hq]
  dsimp only
  rw [if_pos ⟨hstep, hp⟩]
  cases identifyCause s p (satU 16 (phaseAmps s p code).toNat) pads sc oth <;> rfl

theorem identifyNext_getPh (s : State) (p : Nat) : PhaseWinds (s.getPh p) ((identifyNext s).getPh p) :=
  (Winds.refl (fun _ => True) s).identifyNext.ph p

/-- An identify takes the phase's current and switches it off. -/
theorem identified_getPh (p i : Nat) (c : Option Nat) (f : StartSeq → StartSeq) (s : State) :
    let t := identifyNext (identifyJudged p i c (onStart f (s.updPh p (identified i))))
    (t.getPh p).idi = i ∧ (t.getPh p).pen = false ∧ (t.getPh p).pwm = false := by
  intro t
  have hself : (onStart f (s.updPh p (identified i))).getPh p = identified i (s.getPh p) := State.getPh_updPh ..
  cases c with
  | none =>
    have hw := identifyNext_getPh (onStart f (s.updPh p (identified i))) p
    rw [hself] at hw
    exact ⟨(congrArg Phase.idi hw.rest :), hw.pen rfl, hw.pwm rfl⟩
  | some c =>
    have hd := disablePhase_self p (fun x => { x with idFail := true, idCause := c }) (onStart f (s.updPh p (identified i)))
    rw [hself] at hd
    have hw := hd.trans (((Winds.refl (fun _ => True) _).emitRail 0x3010 p c i 0).identifyNext.ph p)
    exact ⟨(congrArg Phase.idi hw.rest :), hw.pen rfl, hw.pwm rfl⟩

/-- A phase that fails its identify is disabled with the cause. -/
theorem identifyFailed_getPh (p i c : Nat) (f : StartSeq → StartSeq) (hs : (s.getPh p).st ≠ 7) :
    let t := identifyNext (identifyJudged p i (some c) (onStart f (s.updPh p (identified i))))
    (t.getPh p).idFail = true ∧ (t.getPh p).idCause = c ∧ (t.getPh p).st = 6 := by
  intro t
  have hself : (onStart f (s.updPh p (identified i))).getPh p = identified i (s.getPh p) := State.getPh_updPh ..
  have hd := disablePhase_self p (fun x => { x with idFail := true, idCause := c }) (onStart f (s.updPh p (identified i)))
  rw [hself] at hd
  have hst : (disabled (fun x => { x with idFail := true, idCause := c }) (identified i (s.getPh p))).st = 6 := if_neg hs
  have hw := hd.trans (((Winds.refl (fun _ => True) _).emitRail 0x3010 p c i 0).identifyNext.ph p)
  exact ⟨(congrArg Phase.idFail hw.rest :), (congrArg Phase.idCause hw.rest :), (hw.out (.inl hst)).trans hst⟩

theorem usable_of_head {q : StartSeq} (hp : (identifyList s q).head? = some p) : (s.getPh p).st ≠ 7 := by
  have hmem : p ∈ identifyList s q := List.mem_of_mem_head? hp
  simp only [identifyList, List.mem_filter, Bool.and_eq_true, Phase.usable, decide_eq_true_eq] at hmem
  exact hmem.2.2.2

/-- A faulted rail's phases are off. -/
theorem railFault_pen (c : Nat) (hst : (s.getProt r).st ≠ 6 ∧ (s.getProt r).st ≠ 7) (hp : p ∈ s.railPhases r) :
    ((railFault c r s).getPh p).pen = false := by
  have hb : (brakeStop r s).railPhases r = s.railPhases r := railPhases_of_cfg ((brakeStop_keeps ..).cfg_eq rfl) r
  unfold railFault
  rw [if_neg (by omega)]
  simp only [State.getPh_updReg, State.getPh_updProt]
  rw [getPh_of_rail (stopClustersOf_rail ..), railPhasesTo_pen, railPenLow]
  exact forList_phOff_pen (by rwa [hb]) _

theorem running_st {x : RailProt} (h : x.running = true) : x.st ≠ 6 ∧ x.st ≠ 7 := by
  simp only [RailProt.running, Bool.or_eq_true, decide_eq_true_eq] at h
  omega

theorem railFault_st {c : Nat} (hrun : (s.getProt r).running = true) :
    ((railFault c r s).getProt r).st = 5 ∧ ((railFault c r s).getProt r).cause = c := by
  have h := running_st hrun
  rw [railFault_getProt, faultProt, if_neg (by omega)]
  exact ⟨rfl, rfl⟩

/-- What comes after a fault of a rail leaves it stopped, in FAULT or latched, with its cause. -/
theorem faulted_of_winds {L : Nat → Prop} {c : Nat} (hrun : (s.getProt r).running = true) (hw : Winds L (railFault c r s) t) :
    ((t.getProt r).st = 5 ∨ (t.getProt r).st = 7) ∧ (t.getProt r).cause = c ∧ ∀ k ∈ s.railPhases r, (t.getPh k).pen = false := by
  obtain ⟨h5, hc⟩ := railFault_st (c := c) hrun
  have hnot : ((railFault c r s).getProt r).running = false := by simp [RailProt.running, h5]
  refine ⟨?_, ((hw.prot r).cause hnot).trans hc, fun k hk => (hw.ph k).pen (railFault_pen c (running_st hrun) hk)⟩
  obtain h | ⟨-, h, -⟩ := (hw.prot r).st hnot
  · exact .inl (h.trans h5)
  · exact .inr h

theorem startTimeout_of_late (hst : (s.getProt r).st = 2) (hlate : (s.getProt r).rampAt + 2 * (s.getProt r).rampNs + 1000000 ≤ s.now) :
    ∃ u, u.rail = s.rail ∧ u.cfg = s.cfg ∧ Winds (· = r) (railFault 4 r u) (startTimeout r s) := by
  unfold startTimeout
  extract_lets x h tr l s1
  rw [if_pos (show x.st = 2 ∧ x.rampAt + 2 * x.rampNs + nsPerMs ≤ s.now from ⟨hst, hlate⟩)]
  have hk : Keeps [.frec, .hm, .hif, .ldg] s s1 := (emitRail_keeps ..).step (by decide) (frecTake_keeps ..)
  refine ⟨s1, hk.rail_eq rfl, hk.cfg_eq rfl, ?_⟩
  exact ((((Winds.refl (· = r) _).countStop (L := (· = r)) (j := r) rfl).fastStop ..).step (masterFaults_keeps ..) rfl rfl rfl).railSettle

/-- What the start of a ramp makes of the rail's protection state, of its regulation and of its phases (R177). -/
def rampProt (s : State) (r : Nat) (y : RailProt) : RailProt :=
  { y with st := 2, rampAt := s.now, vStart := (s.getMeas r).v, rampNs := rampTime (s.getReg r).slew (s.getMeas r).v (s.getReg r).target,
           track := decide ((s.railCfg r).mode = 2 ∨ (s.railCfg r).mode = 3) && decide ((s.getProt (s.railCfg r).master).st = 2) }

def rampReg (s : State) (r : Nat) (y : Reg) : Reg :=
  { y with act := y.comp, vref := (s.getMeas r).v, e1 := 0, e2 := 0, u1 := 0, u2 := 0, u3 := 0, vpp := 0, vppTgt := 0, ppDi := 0,
           ppArrived := none, stepAt := none, reached := false }

def rampPhase (y : Phase) : Phase := { y with trimSince := none, trimRec := false }

/-- The rail's own state as its ramp begins. -/
def rampBegun (r : Nat) (s : State) : State :=
  (forList (s.railPhases r) (fun p => State.updPh p rampPhase) (s.updProt r (rampProt s r))).updReg r (rampReg s r)

def rampTaps (l : List Nat) (s : State) : State :=
  forList l (fun d => State.updDet d fun y => { y with pend := 2, calFail := false }) s

theorem rampTaps_keeps (l : List Nat) (s : State) : Keeps [.sns] s (rampTaps l s) :=
  forList_keeps l (fun _ _ hu => .step (State.updDet_keeps ..) (by decide) hu) (Keeps.refl _ _)

/-- R177: the conditions under which a rail that waits at step 5 ramps. -/
def MayRamp (s : State) (r : Nat) : Prop :=
  (∃ q ∈ s.rail.starts, q.step = 5 ∧ bitOf q.rails r = true) ∧ (s.getProt r).st = 1 ∧ (s.getProt r).senseOk = true ∧
    (s.railCfg r).nreq ≤ (s.usablePhases r).length ∧ masterReady s r = true ∧ s.inStop r = false

theorem rampStart_of_may (h : MayRamp s r) : rampStart r s = railPhasesTo r 2 (rampTaps (s.railDets r) (rampBegun r s)) := by
  obtain ⟨⟨q, hq, hstep, hbit⟩, hst, hsense, hn, hm, hstop⟩ := h
  unfold rampStart
  extract_lets x go v s1 s2 s3
  have hgo : go = true := List.any_eq_true.mpr ⟨q, hq, by simp [hstep, hbit]⟩
  have hc : (go && decide (x.st = 1) && x.senseOk && decide ((s.railCfg r).nreq ≤ (s.usablePhases r).length) && masterReady s r
      && !s.inStop r) = true := by
    simp [hgo, x, hst, hsense, hn, hm, hstop]
  rw [if_pos hc]
  have h2 : s2 = rampBegun r s := by rfl
  have h3 : s3 = rampTaps (s.railDets r) s2 := by rfl
  rw [h3, h2]

theorem railPhasesTo_prot (r k : Nat) (s : State) : (railPhasesTo r k s).rail.prot = s.rail.prot :=
  forList_eq (·.rail.prot) _ (fun _ _ => by rfl) s

theorem railPhasesTo_reg (r k : Nat) (s : State) : (railPhasesTo r k s).rail.reg = s.rail.reg :=
  forList_eq (·.rail.reg) _ (fun _ _ => by rfl) s

theorem rampStart_prot (h : MayRamp s r) : (rampStart r s).rail.prot = (s.updProt r (rampProt s r)).rail.prot := by
  rw [rampStart_of_may h, railPhasesTo_prot, (rampTaps_keeps ..).rail_eq rfl]
  exact forList_eq (·.rail.prot) _ (f := fun p => State.updPh p rampPhase) (fun _ _ => by rfl) (s.updProt r (rampProt s r))

theorem rampStart_reg (h : MayRamp s r) : (rampStart r s).rail.reg = (s.updReg r (rampReg s r)).rail.reg := by
  rw [rampStart_of_may h, railPhasesTo_reg, (rampTaps_keeps ..).rail_eq rfl]
  have hreg : (forList (s.railPhases r) (fun p => State.updPh p rampPhase) (s.updProt r (rampProt s r))).rail.reg = s.rail.reg :=
    forList_eq (·.rail.reg) _ (fun _ _ => by rfl) _
  simp [rampBegun, State.updReg, hreg]

/-- Each phase of the rail that is off or shed is active. -/
theorem rampStart_ph (h : MayRamp s r) (hp : p ∈ s.railPhases r) (hst : (s.getPh p).st = 1 ∨ (s.getPh p).st = 4) :
    ((rampStart r s).getPh p).st = 2 := by
  rw [rampStart_of_may h]
  have hcfg : (rampTaps (s.railDets r) (rampBegun r s)).cfg = s.cfg := by
    rw [(rampTaps_keeps ..).cfg_eq rfl]
    exact forList_eq (·.cfg) _ (f := fun p => State.updPh p rampPhase) (fun _ _ => by rfl) (s.updProt r (rampProt s r))
  have hph : ((rampTaps (s.railDets r) (rampBegun r s)).getPh p).st = (s.getPh p).st := by
    rw [getPh_of_rail ((rampTaps_keeps ..).rail_eq rfl), rampBegun, State.getPh_updReg]
    refine forList_eq (fun u => (u.getPh p).st) (s.railPhases r) (f := fun p => State.updPh p rampPhase) (fun j u => ?_)
      (s.updProt r (rampProt s r))
    by_cases e : p = j
    · subst e; rw [State.getPh_updPh]; rfl
    · rw [State.getPh_updPh_ne _ _ _ e]
  rw [railPhasesTo, railPhases_of_cfg hcfg]
  refine forList_est_of (P := fun u => (u.getPh p).st = 2) (Q := fun u => (u.getPh p).st = 1 ∨ (u.getPh p).st = 2 ∨ (u.getPh p).st = 4)
    hp (fun j u hu => ?_) (fun j u _ hu => ?_) (fun u hu => ?_) (by omega)
  · by_cases e : p = j
    · subst e; rw [State.getPh_updPh]; split <;> simp_all
    · rwa [State.getPh_updPh_ne _ _ _ e]
  · by_cases e : p = j
    · subst e; rw [State.getPh_updPh]; split <;> simp_all
    · rwa [State.getPh_updPh_ne _ _ _ e]
  · rw [State.getPh_updPh, if_pos (by omega)]

/-- R178: the rail is ON. -/
theorem railReached_of_ramping (hreached : (s.getReg r).reached = true) (hst : (s.getProt r).st = 2) :
    ∃ u : State, u.rail = s.rail ∧ railReached r s = finishStart (u.updProt r fun x => { x with st := 3, onAt := s.now }) := by
  have hreg : s.regulating r = true := by simp [State.regulating, hst]
  refine ⟨raiseReady r (rewriteTaps r s), ((raiseReady_keeps ..).rail_eq rfl).trans ((rewriteTaps_keeps ..).rail_eq rfl), ?_⟩
  unfold railReached
  rw [if_pos (by simp [hreached, hreg])]
  exact if_pos hst

theorem railReached_on (hreached : (s.getReg r).reached = true) (hst : (s.getProt r).st = 2) :
    ((railReached r s).getProt r).st = 3 ∧ ((railReached r s).getProt r).onAt = s.now ∧
      (railReached r s).rail.reg = s.rail.reg := by
  obtain ⟨u, hu, heq⟩ := railReached_of_ramping hreached hst
  have h := finishStart_untimed (u.updProt r fun x => { x with st := 3, onAt := s.now }) r
  rw [State.getProt_updProt] at h
  have hreg : (u.updProt r fun x => { x with st := 3, onAt := s.now }).rail.reg = u.rail.reg := rfl
  rw [heq, finishStart_reg, hreg, hu]
  exact ⟨(congrArg RailProt.st h :), (congrArg RailProt.onAt h :), rfl⟩

/-- What the end of a ramp down makes of the rail itself (R180). -/
def rampedDown (r : Nat) (s : State) : State :=
  ((railPhasesTo r 1 (railPenLow r (brakeStop r s))).updProt r fun y => { y with st := 0, zeroAt := none }).updReg r fun y =>
    { y with vref := 0, vpp := 0, vppTgt := 0, forced := none, reached := false }

theorem rampDownDone_of_over (hst : (s.getProt r).st = 4)
    (hover : (s.getMeas r).v < 200 ∨ ∃ t0, (s.getProt r).zeroAt = some t0 ∧ t0 + 2000000 ≤ s.now) :
    rampDownDone r s = railSettle (rampedDown r s) := by
  unfold rampDownDone
  extract_lets x late s1 s2 s3
  refine if_pos ⟨hst, hover.imp_right fun ⟨t0, ht0, hle⟩ => ?_⟩
  simp only [late, x, ht0]
  exact decide_eq_true hle

theorem rampedDown_pen (hp : p ∈ s.railPhases r) : ((rampedDown r s).getPh p).pen = false := by
  have hb : (brakeStop r s).railPhases r = s.railPhases r := railPhases_of_cfg ((brakeStop_keeps ..).cfg_eq rfl) r
  rw [rampedDown, State.getPh_updReg, State.getPh_updProt, railPhasesTo_pen, railPenLow]
  exact forList_phOff_pen (by rwa [hb]) _

theorem rampDownDone_off (hst : (s.getProt r).st = 4) (htrip : s.aud.tripLatched = false)
    (hover : (s.getMeas r).v < 200 ∨ ∃ t0, (s.getProt r).zeroAt = some t0 ∧ t0 + 2000000 ≤ s.now) :
    ((rampDownDone r s).getProt r).st = 0 ∧ ((rampDownDone r s).getReg r).vref = 0 ∧
      ∀ k ∈ s.railPhases r, ((rampDownDone r s).getPh k).pen = false := by
  rw [rampDownDone_of_over hst hover]
  have hw := (Winds.refl (fun _ => False) (rampedDown r s)).railSettle
  have h0 : ((rampedDown r s).getProt r).st = 0 := by rw [rampedDown, State.getProt_updReg, State.getProt_updProt]
  have haud : (rampedDown r s).aud = s.aud := by
    rw [rampedDown, State.updReg_aud, State.updProt_aud, (railPhasesTo_keeps ..).aud_eq rfl, (railPenLow_keeps ..).aud_eq rfl,
      (brakeStop_keeps ..).aud_eq rfl]
  refine ⟨?_, hw.vref r (by rw [rampedDown, State.getReg_updReg]), fun k hk => (hw.ph k).pen (rampedDown_pen hk)⟩
  rw [(refused_of_winds (r := r) id hw (by rw [haud]; exact htrip) (by simp [RailProt.running, h0])).1, h0]

/-- R181: the rail whose turn has come is in FAULT with its cause. -/
theorem fastLevel_fault {q : StopSeq} (hq : s.rail.stops.find? (fastMay s r) = some q) (htrip : s.aud.tripLatched = false) :
    ((fastLevel r s).getProt r).st = 5 ∧ ((fastLevel r s).getProt r).cause = q.causeOf r ∧
      ∀ k ∈ s.railPhases r, ((fastLevel r s).getPh k).pen = false := by
  have hrun : (s.getProt r).running = true := by
    have hmay : fastMay s r q = true := List.find?_some hq
    simp only [fastMay, Bool.and_eq_true] at hmay
    exact hmay.1.1.2
  obtain ⟨h5, hc⟩ := railFault_st (c := q.causeOf r) hrun
  have hw : Winds (fun _ => False) (railFault (q.causeOf r) r s) (fastLevel r s) := by
    unfold fastLevel
    rw [hq]
    dsimp only
    refine Winds.railSettle ?_
    exact Winds.onRail _ (fun _ => rfl) (fun _ => rfl) (fun _ => rfl) (Winds.refl _ _)
  obtain ⟨-, -, hpen⟩ := faulted_of_winds hrun hw
  obtain ⟨g5, gc⟩ := refused_of_winds (r := r) id hw (by rw [(railFault_keeps ..).aud_eq rfl]; exact htrip) (by simp [RailProt.running, h5])
  exact ⟨g5.trans h5, gc.trans hc, hpen⟩

theorem fastLevel_of_none (hq : s.rail.stops.find? (fastMay s r) = none) : fastLevel r s = s := by
  unfold fastLevel
  rw [hq]

end Start

section Overload
variable {s t : State} {r : Nat}

/-- What an overload leaves of the rail's protection state (R187). -/
def overProt (s : State) (r : Nat) (y : RailProt) : RailProt :=
  { y with ol := some (y.ol.getD s.now), olAbove := some ((s.getProt r).olAbove.getD s.now),
           olt := satU 16 (divRoundN (s.now - (s.getProt r).olAbove.getD s.now) nsPerUs) }

theorem overloadCheck_of_over (hpres : (s.railCfg r).present = true) (hover : (s.railCfg r).iol < (s.getMeas r).iAvg) :
    overloadCheck r s = if (s.getProt r).ol.isSome then s.updProt r (overProt s r)
      else emitRail 0x3030 r (s.getMeas r).iAvg 0 0 (overloadClusters r (s.updProt r (overProt s r))) := by
  unfold overloadCheck
  rw [if_neg (by simp [hpres])]
  exact if_pos hover

theorem overloadCheck_getProt (hpres : (s.railCfg r).present = true) (hover : (s.railCfg r).iol < (s.getMeas r).iAvg) :
    (overloadCheck r s).getProt r = overProt s r (s.getProt r) := by
  rw [overloadCheck_of_over hpres hover]
  split
  · exact State.getProt_updProt ..
  · rw [getProt_of_rail ((emitRail_keeps ..).rail_eq rfl), getProt_of_rail ((overloadClusters_keeps ..).rail_eq rfl)]
    exact State.getProt_updProt ..

/-- One cluster enters or leaves the overload cap. -/
def overloadTurn (on : Bool) (c : Nat) (t : State) : State :=
  if on then capCluster c (t.updClu c fun x => { x with overload := on })
  else if (t.getClu c).overload then presetLoops c (t.updClu c fun x => { x with overload := on })
  else t.updClu c fun x => { x with overload := on }

theorem overloadTurn_rail (on : Bool) (c : Nat) (t : State) : (overloadTurn on c t).rail = t.rail := by
  unfold overloadTurn
  split
  · rfl
  · split
    · rw [(presetLoops_keeps ..).rail_eq rfl]; rfl
    · rfl

theorem overloadTurn_self (c : Nat) (t : State) : ((overloadTurn true c t).getClu c).overload = true := by
  rw [overloadTurn, if_pos rfl, capCluster_getClu, State.getClu_updClu, Clu.capped]
  split <;> rfl

theorem overloadTurn_ne (on : Bool) {c j : Nat} (hj : j ≠ c) (t : State) : (overloadTurn on c t).getClu j = t.getClu j := by
  unfold overloadTurn
  split
  · rw [capCluster_getClu_ne _ hj, State.getClu_updClu_ne _ _ _ hj]
  · split
    · rw [presetLoops_getClu, State.getClu_updClu_ne _ _ _ hj]
    · rw [State.getClu_updClu_ne _ _ _ hj]

/-- Each cluster of an overloaded rail is under its cap. -/
theorem overloadClusters_overload {c : Nat} (hr : r ∈ s.railIds) (hol : (s.getProt r).ol.isSome = true) (hc : c ∈ s.railClusters r) :
    ((overloadClusters r s).getClu c).overload = true := by
  obtain ⟨-, hbit⟩ := List.mem_filter.mp hc
  have hon : ∀ u : State, u.rail = s.rail →
      (s.railIds.any fun k => bitOf (s.cluCfg c).rails k && (u.getProt k).ol.isSome) = true := fun u hu =>
    List.any_eq_true.mpr ⟨r, hr, by rw [getProt_of_rail hu]; simp [hbit, hol]⟩
  have heq : overloadClusters r s = forList (s.railClusters r) (fun c t => overloadTurn
      (s.railIds.any fun k => bitOf (s.cluCfg c).rails k && (t.getProt k).ol.isSome) c t) s := by rfl
  rw [heq]
  refine forList_est_of (P := fun u => (u.getClu c).overload = true) (Q := fun u => u.rail = s.rail) hc
    (fun a u hu => (overloadTurn_rail ..).trans hu) (fun a u hu hP => ?_) (fun u hu => ?_) rfl
  · by_cases e : c = a
    · subst e; rw [hon u hu]; exact overloadTurn_self c u
    · rwa [overloadTurn_ne _ e]
  · rw [hon u hu]; exact overloadTurn_self c u

theorem overloadCheck_overload {c : Nat} (hr : r ∈ s.railIds) (hover : (s.railCfg r).iol < (s.getMeas r).iAvg)
    (hol : (s.getProt r).ol = none) (hc : c ∈ s.railClusters r) : ((overloadCheck r s).getClu c).overload = true := by
  have hpres : (s.railCfg r).present = true := (List.mem_filter.mp hr).2
  rw [overloadCheck_of_over hpres hover, if_neg (by simp [hol]), getClu_of_loop ((emitRail_keeps ..).loop_eq rfl)]
  exact overloadClusters_overload (s := s.updProt r (overProt s r)) hr (by rw [State.getProt_updProt]; rfl) hc

/-- R187: the mean has stayed above I_OL for 10 ms. -/
theorem overloadShutdown_winds {t0 : Nat} (hpres : (s.railCfg r).present = true) (hover : (s.railCfg r).iol < (s.getMeas r).iAvg)
    (hsome : (s.getProt r).olAbove = some t0) (hlate : t0 + 10000000 ≤ s.now) (hrun : (s.getProt r).running = true) :
    ∃ u, u.rail = (overloadCheck r s).rail ∧ u.cfg = s.cfg ∧ Winds (· = r) (railFault 2 r u) (overloadShutdown r s) := by
  have hp := overloadCheck_getProt hpres hover
  have hrun1 : ((overloadCheck r s).getProt r).running = true := by rw [hp]; exact hrun
  unfold overloadShutdown
  extract_lets s1
  have h1 : (s1.getProt r).olAbove = some t0 := by rw [show s1.getProt r = _ from hp, overProt, hsome]; rfl
  rw [h1]
  dsimp only
  rw [if_pos ⟨hlate, hrun1⟩]
  have hk : Keeps [.frec, .hm, .hif, .ldg] s1 (emitRail 0x3032 r 0 0 0 (frecTake 0x3032 r 0xFF (offMask s1 r) r 0 0 s1)) :=
    (emitRail_keeps ..).step (by decide) (frecTake_keeps ..)
  exact ⟨_, hk.rail_eq rfl, (hk.cfg_eq rfl).trans ((overloadCheck_keeps ..).cfg_eq rfl),
    (((Winds.refl _ _).stopTrackers r).countStop (L := (· = r)) (j := r) rfl).railSettle⟩

/-- R187: below 0.9 × I_OL the overload ends. -/
theorem overloadCheck_of_under (hpres : (s.railCfg r).present = true) (hunder : 10 * (s.getMeas r).iAvg < 9 * (s.railCfg r).iol) :
    ((overloadCheck r s).getProt r).ol = none ∧ ((overloadCheck r s).getProt r).olAbove = none ∧
      ((overloadCheck r s).getProt r).st = (s.getProt r).st := by
  unfold overloadCheck
  extract_lets g x i t0 s1 s2
  rw [if_neg (by simp [g, hpres]), if_neg (by simp only [g, i]; omega)]
  split
  · rw [if_pos hunder, getProt_of_rail ((emitRail_keeps ..).rail_eq rfl), getProt_of_rail ((overloadClusters_keeps ..).rail_eq rfl)]
    simp only [s2, State.getProt_updProt]
    exact ⟨trivial, trivial, trivial⟩
  · next hx =>
    simp only [s2, State.getProt_updProt]
    exact ⟨hx, trivial, trivial⟩

end Overload

theorem mem_railIds (r : RailId) {s : State} (h : (s.railCfg r).present = true) : r.val ∈ s.railIds :=
  List.mem_filter.mpr ⟨List.mem_range.mpr r.isLt, h⟩

/-- Settles O30. -/
theorem railsStartAndStop : Obligations.RailsStartAndStop := by
  refine ⟨fun s q r p hlive => ⟨?_, ?_, ?_, ?_, ?_, ?_, ?_⟩, fun s r hlive htrip => ⟨?_, ?_, ?_, ?_, ?_, ?_⟩⟩
  · intro reads hq hstep hup hpend failed
    refine ⟨_, act_of_live hlive (pmbusDone reads), pmbusDone_front hq hstep hup hpend, fun k hk hpres hbad => ?_, fun k hgood => ?_,
      (pmbusDone_keeps reads s).only⟩
    · rw [pmbusDone_getPh hq hstep hup]; exact stageDevs_bad hk hpres hbad
    · rw [pmbusDone_getPh hq hstep hup]; exact stageDevs_good hgood
  · intro rises hq hstep
    refine ⟨fun hflat => ⟨_, act_of_live hlive (senseCheck _), fun k hk hst => ?_, (senseCheck_keeps _ s).only⟩,
      fun hr hrise hst htrip => ⟨_, act_of_live hlive (senseCheck _), ?_⟩⟩
    · exact ((senseCheck_winds (fun _ => True) hq hstep).prot k).sense (senseRails_ok hflat hk hst)
    · obtain ⟨h5, hcause⟩ := senseCheck_refuses hq hstep hr hrise hst htrip
      exact ⟨h5, hcause, (senseCheck_keeps _ s).only⟩
  · intro code pads sc oth hq hstep hp
    have heq := phaseIdentify_of_front (code := code) (pads := pads) (sc := sc) (oth := oth) hq hstep hp
    obtain ⟨hidi, hpen, hpwm⟩ := identified_getPh p (satU 16 (phaseAmps s p code).toNat)
      (identifyCause s p (satU 16 (phaseAmps s p code).toNat) pads sc oth) (fun x => { x with next := p + 1 }) s
    refine ⟨_, act_of_live hlive (phaseIdentify p.val code.val pads sc oth), ?_, ?_, ?_, fun c hc => ?_, (phaseIdentify_keeps _ _ _ _ _ s).only⟩
    · rw [heq]; exact hidi
    · rw [heq]; exact hpen
    · rw [heq]; exact hpwm
    · rw [heq, hc]; exact identifyFailed_getPh _ _ _ _ (usable_of_head hp)
  · intro hgo hst hsense hn hm hstop
    have hmay : MayRamp s r := ⟨hgo, hst, hsense, hn, hm, hstop⟩
    have hprot : ∀ k, (rampStart r s).getProt k = (s.updProt r (rampProt s r)).getProt k := fun k => by
      rw [State.getProt, rampStart_prot hmay]; rfl
    have hreg : ∀ k, (rampStart r s).getReg k = (s.updReg r (rampReg s r)).getReg k := fun k => by
      rw [State.getReg, rampStart_reg hmay]; rfl
    refine ⟨_, act_of_live hlive (rampStart r.val), ?_, ?_, ?_, ?_, ?_, fun k hk hst => rampStart_ph hmay hk hst, fun k hk => ⟨?_, ?_⟩,
      (rampStart_keeps _ s).only⟩
    · rw [hprot, State.getProt_updProt]; rfl
    · rw [hprot, State.getProt_updProt]; rfl
    · rw [hreg, State.getReg_updReg]; rfl
    · rw [hreg, State.getReg_updReg]; rfl
    · rw [hprot, State.getProt_updProt]; rfl
    · rw [hprot, State.getProt_updProt_ne _ _ _ hk]
    · rw [hreg, State.getReg_updReg_ne _ _ _ hk]
  · intro hreached hst
    obtain ⟨h3, hon, hreg⟩ := railReached_on hreached hst
    exact ⟨_, act_of_live hlive (railReached r.val), h3, hon, hreg, (railReached_keeps _ s).only⟩
  · intro hst hlate
    obtain ⟨u, hrail, hcfg, hw⟩ := startTimeout_of_late hst hlate
    obtain ⟨h5, hcause, hpen⟩ := faulted_of_winds (by rw [getProt_of_rail hrail]; simp [RailProt.running, hst]) hw
    refine ⟨_, act_of_live hlive (startTimeout r.val), h5, hcause, fun k hk => hpen k ?_, (startTimeout_keeps _ s).only⟩
    rwa [railPhases_of_cfg hcfg]
  · exact fun hst => act_eq hlive (if_neg fun h => hst h.1)
  · intro hst hover
    obtain ⟨h0, hv, hpen⟩ := rampDownDone_off hst htrip hover
    exact ⟨_, act_of_live hlive (rampDownDone r.val), h0, hv, hpen, (rampDownDone_keeps _ s).only⟩
  · exact fun hst => act_eq hlive (if_neg fun h => hst h.1)
  · intro q hq
    obtain ⟨h5, hc, hpen⟩ := fastLevel_fault hq htrip
    exact ⟨_, act_of_live hlive (fastLevel r.val), h5, hc, hpen, (fastLevel_keeps _ s).only⟩
  · exact fun hq => act_eq hlive (fastLevel_of_none hq)
  · intro hpres hover
    have hprot := overloadCheck_getProt hpres hover
    refine ⟨⟨_, act_of_live hlive (overloadCheck r.val), by rw [hprot]; rfl, by rw [hprot]; rfl, by rw [hprot]; rfl,
      fun hol c hc => overloadCheck_overload (mem_railIds r hpres) hover hol hc, (overloadCheck_keeps _ s).only⟩, fun t0 hsome hlate hrun => ?_⟩
    obtain ⟨u, hrail, hcfg, hw⟩ := overloadShutdown_winds hpres hover hsome hlate hrun
    obtain ⟨h5, hcause, hpen⟩ := faulted_of_winds (by rw [getProt_of_rail hrail, hprot]; exact hrun) hw
    refine ⟨_, act_of_live hlive (overloadShutdown r.val), h5, hcause, fun k hk => hpen k ?_, (overloadShutdown_keeps _ s).only⟩
    rwa [railPhases_of_cfg hcfg]
  · intro hpres hunder
    obtain ⟨hol, habove, hst⟩ := overloadCheck_of_under hpres hunder
    exact ⟨_, act_of_live hlive (overloadCheck r.val), hol, habove, hst, (overloadCheck_keeps _ s).only⟩

end Sys2Proof.Machine
end

section
/-!
The protections of phases and rails: what each leaves of its phase or rail, whatever the switching off of rails does after it (R184–R190).
-/
namespace Sys2Proof.Machine

section Protect
variable {s t : State} {r p : Nat}

/-- What a short-circuit event leaves of its phase (R184). -/
def shorted (s : State) (p : Nat) (x : Phase) : Phase :=
  { x with pen := false, pwm := false, scOff := true, scTotal := satInc 16 x.scTotal,
           scTimes := ((s.getPh p).scTimes.filter fun t => s.now < t + nsPerMs) ++ [s.now] }

/-- The first event of a millisecond is recorded. -/
def shortNoted (p : Nat) (s : State) : State :=
  if ((s.getPh p).scTimes.filter fun t => s.now < t + nsPerMs) = [] then emitRail 0x3020 p 0 0 0 (s.updPh p (shorted s p))
  else s.updPh p (shorted s p)

theorem shortNoted_getPh (p k : Nat) (s : State) : (shortNoted p s).getPh k = (s.updPh p (shorted s p)).getPh k := by
  unfold shortNoted
  split
  · exact getPh_of_rail ((emitRail_keeps ..).rail_eq rfl) k
  · rfl

theorem scTrip_of_blanked (h : scBlanked s p = true) : scTrip p s = s := if_pos (by simp [h])

theorem scTrip_of_event (hpres : (s.phCfg p).present = true) (hb : scBlanked s p = false) :
    scTrip p s = if 7 ≤ ((s.getPh p).scTimes.filter fun t => s.now < t + nsPerMs).length ∧ (s.getPh p).st ≠ 6 then
        identifyNext (disablePhase p (fun x => { x with scLatch := true })
          (emitRail 0x3021 p 0 0 0 (frecTake 0x3021 (s.phCfg p).rail p 0 p 0 0 (shortNoted p s))))
      else shortNoted p s :=
  if_neg (by simp [hpres, hb])

/-- What follows the disabling of a phase leaves it as it was disabled, but for what the switching off of its rail changes. -/
theorem identifyNext_disablePhase (p : Nat) (f : Phase → Phase) {x : Phase} (hx : s.getPh p = x) :
    PhaseWinds (disabled f x) ((identifyNext (disablePhase p f s)).getPh p) := by
  rw [← hx]
  exact (disablePhase_self p f s).trans (identifyNext_getPh _ p)

theorem recorded_getPh (s : State) (p c1 a1 a2 a3 a4 c2 b1 b2 b3 b4 b5 b6 : Nat) :
    (emitRail c1 a1 a2 a3 a4 (frecTake c2 b1 b2 b3 b4 b5 b6 s)).getPh p = s.getPh p := by
  rw [getPh_of_rail ((emitRail_keeps ..).rail_eq rfl), getPh_of_rail ((frecTake_keeps ..).rail_eq rfl)]

theorem disabled_st (f : Phase → Phase) (x : Phase) : (disabled f x).st = 6 ∨ (disabled f x).st = 7 := by
  by_cases h : x.st = 7
  · exact .inr (if_pos h)
  · exact .inl (if_neg h)

theorem PhaseWinds.out_st {x y : Phase} (h : PhaseWinds x y) (hx : x.st = 6 ∨ x.st = 7) : y.st = 6 ∨ y.st = 7 := by rwa [h.out hx]

theorem scTrip_latched (hpres : (s.phCfg p).present = true) (hb : scBlanked s p = false)
    (h7 : 7 ≤ ((s.getPh p).scTimes.filter fun t => s.now < t + nsPerMs).length) (h6 : (s.getPh p).st ≠ 6) :
    PhaseWinds (disabled (fun x => { x with scLatch := true }) (shorted s p (s.getPh p))) ((scTrip p s).getPh p) := by
  rw [scTrip_of_event hpres hb, if_pos ⟨h7, h6⟩]
  exact identifyNext_disablePhase p _ (by rw [recorded_getPh, shortNoted_getPh, State.getPh_updPh])

theorem scTrip_noted (hpres : (s.phCfg p).present = true) (hb : scBlanked s p = false)
    (h : ¬ (7 ≤ ((s.getPh p).scTimes.filter fun t => s.now < t + nsPerMs).length ∧ (s.getPh p).st ≠ 6)) (k : Nat) :
    (scTrip p s).getPh k = (s.updPh p (shorted s p)).getPh k := by
  rw [scTrip_of_event hpres hb, if_neg h, shortNoted_getPh]

/-- R184: a short circuit turns both outputs off, and is counted. -/
theorem scTrip_off (hpres : (s.phCfg p).present = true) (hb : scBlanked s p = false) :
    ((scTrip p s).getPh p).pen = false ∧ ((scTrip p s).getPh p).pwm = false ∧ ((scTrip p s).getPh p).scOff = true ∧
      ((scTrip p s).getPh p).scTotal = satInc 16 (s.getPh p).scTotal := by
  by_cases h : 7 ≤ ((s.getPh p).scTimes.filter fun t => s.now < t + nsPerMs).length ∧ (s.getPh p).st ≠ 6
  · have hw := scTrip_latched hpres hb h.1 h.2
    exact ⟨hw.pen rfl, hw.pwm rfl, (congrArg Phase.scOff hw.rest :), (congrArg Phase.scTotal hw.rest :)⟩
  · rw [scTrip_noted hpres hb h, State.getPh_updPh]
    exact ⟨rfl, rfl, rfl, rfl⟩

theorem stageFault_of_first (h : (s.getPh p).stage = false) :
    PhaseWinds (disabled (fun x => { x with stage := true }) (s.getPh p)) ((stageFault p s).getPh p) := by
  unfold stageFault
  rw [if_neg (by simp [h])]
  exact identifyNext_disablePhase p _ (recorded_getPh ..)

/-- A pin of the stage has gone low (R185). -/
def pinLow (x : Phase) : Phase := { x with pflt := true }

theorem stagePin_of_long {ns : Nat} (hpres : (s.phCfg p).present = true) (hns : 10 ≤ ns) :
    stagePin p (.low ns) s = stageFault p (s.updPh p pinLow) := by
  unfold stagePin
  rw [if_neg (by simp [hpres])]
  exact if_pos hns

theorem stagePin_of_short {ns : Nat} (hpres : (s.phCfg p).present = true) (hns : ns < 5) : stagePin p (.low ns) s = s.updPh p pinLow := by
  unfold stagePin
  rw [if_neg (by simp [hpres])]
  exact (if_neg (by omega)).trans (if_pos hns)

theorem stagePin_of_between {ns : Nat} (hpres : (s.phCfg p).present = true) (h5 : 5 ≤ ns) (h10 : ns < 10) :
    stagePin p (.low ns) s = if (s.updPh p pinLow).freeVal 1 = 1 then stageFault p (s.updPh p pinLow).drawn else (s.updPh p pinLow).drawn := by
  unfold stagePin
  rw [if_neg (by simp [hpres])]
  exact (if_neg (by omega)).trans (if_neg (by omega))

/-- A stage fault of a phase whose pin is low disables it, the first time. -/
theorem stageFault_low (hlow : (s.getPh p).pflt = true) :
    ((stageFault p s).getPh p).pflt = true ∧ ((stageFault p s).getPh p).stage = true := by
  by_cases h : (s.getPh p).stage = true
  · rw [stageFault, if_pos h]
    exact ⟨hlow, h⟩
  · have hw := stageFault_of_first (by simpa using h)
    exact ⟨(congrArg Phase.pflt hw.rest :).trans hlow, (congrArg Phase.stage hw.rest :)⟩

/-- A mismatch read back from one phase (R186). -/
def readbackOne (pad kind k : Nat) (t : State) : State :=
  if !(t.phCfg k).present || (t.getPh k).readback then t
  else disablePhase k (fun x => { x with readback := true, rbKind := kind })
    (emitRail 0x3023 k kind pad 0 (frecTake 0x3023 (t.phCfg k).rail k 0 k kind pad t))

theorem pwmReadback_alone (p pad : Nat) (s : State) : pwmReadback p pad none s = identifyNext (readbackOne pad 0 p s) := rfl

theorem pwmReadback_both (p pad o : Nat) (s : State) :
    pwmReadback p pad (some o) s = identifyNext (readbackOne pad 1 o (readbackOne pad 1 p s)) := rfl

theorem readbackOne_self {kind pad : Nat} (hpres : (s.phCfg p).present = true) (hfirst : (s.getPh p).readback = false) :
    PhaseWinds (disabled (fun x => { x with readback := true, rbKind := kind }) (s.getPh p)) ((readbackOne pad kind p s).getPh p) := by
  rw [readbackOne, if_neg (by simp [hpres, hfirst])]
  have h := disablePhase_self p (fun x => { x with readback := true, rbKind := kind })
    (emitRail 0x3023 p kind pad 0 (frecTake 0x3023 (s.phCfg p).rail p 0 p kind pad s))
  rwa [recorded_getPh] at h

theorem readbackOne_other {kind pad k : Nat} (hk : k ≠ p) : PhaseWinds (s.getPh k) ((readbackOne pad kind p s).getPh k) := by
  unfold readbackOne
  split
  · exact .refl _
  · have h := disablePhase_other (fun x => { x with readback := true, rbKind := kind }) hk
      (emitRail 0x3023 p kind pad 0 (frecTake 0x3023 (s.phCfg p).rail p 0 p kind pad s))
    rwa [recorded_getPh] at h

theorem readbackOne_cfg (pad kind p : Nat) (s : State) : (readbackOne pad kind p s).cfg = s.cfg := by
  unfold readbackOne
  split
  · rfl
  · rw [(disablePhase_keeps ..).cfg_eq rfl, (emitRail_keeps ..).cfg_eq rfl, (frecTake_keeps ..).cfg_eq rfl]

/-- What the statements say of a phase that a readback mismatch disables. -/
theorem readback_of_winds {kind : Nat} {x y : Phase} (h : PhaseWinds (disabled (fun x => { x with readback := true, rbKind := kind }) x) y) :
    y.readback = true ∧ y.rbKind = kind ∧ y.pen = false ∧ (y.st = 6 ∨ y.st = 7) :=
  ⟨(congrArg Phase.readback h.rest :), (congrArg Phase.rbKind h.rest :), h.pen rfl, h.out_st (disabled_st ..)⟩

theorem brakeStop_usable (r : Nat) (s : State) : (brakeStop r s).cfg = s.cfg := (brakeStop_keeps ..).cfg_eq rfl

/-- R188: every usable phase of a rail in CROWBAR pulls low. -/
theorem crowbar_getPh (hp : p ∈ s.usablePhases r) : ((crowbar r s).getPh p).pen = true ∧ ((crowbar r s).getPh p).pwm = false := by
  have h : (crowbar r s).getPh p = (forList (s.usablePhases r) (fun p => State.updPh p fun x => { x with pen := true, pwm := false })
      (brakeStop r s)).getPh p := by
    unfold crowbar
    simp only [State.getPh_updReg, State.getPh_updProt]
    rw [getPh_of_rail (stopClustersOf_rail ..)]
  rw [h]
  refine forList_est (P := fun u => (u.getPh p).pen = true ∧ (u.getPh p).pwm = false) hp (fun j u hu => ?_) (fun u => ?_) _
  · by_cases e : p = j
    · subst e; rw [State.getPh_updPh]; exact ⟨rfl, rfl⟩
    · rwa [State.getPh_updPh_ne _ _ _ e]
  · rw [State.getPh_updPh]; exact ⟨rfl, rfl⟩

theorem crowbar_getProt (r : Nat) (s : State) : ((crowbar r s).getProt r).st = 6 ∧ ((crowbar r s).getProt r).cause = 7 := by
  unfold crowbar
  simp only [State.getProt_updReg, State.getProt_updProt, and_self]

theorem overvoltage_winds (hpres : (s.railCfg r).present = true) (hst : (s.getProt r).st ≠ 6) :
    ∃ u : State, u.rail = s.rail ∧ u.cfg = s.cfg ∧ Winds (· = r) (crowbar r u) (overvoltage r s) := by
  unfold overvoltage
  rw [if_neg (by simp [hpres, hst])]
  extract_lets tgt s1
  have hk : Keeps [.frec, .hm, .hif, .ldg] s s1 := (emitRail_keeps ..).step (by decide) (frecTake_keeps ..)
  exact ⟨s1, hk.rail_eq rfl, hk.cfg_eq rfl,
    (((Winds.refl _ _).stopTrackers r).countStop (L := (· = r)) (j := r) rfl).railSettle.identifyNext⟩

theorem usablePhases_of_rail {u : State} (hrail : u.rail = s.rail) (hcfg : u.cfg = s.cfg) (r : Nat) : u.usablePhases r = s.usablePhases r := by
  simp only [State.usablePhases, railPhases_of_cfg hcfg, getPh_of_rail hrail]

theorem undervoltage_winds {low : Nat} (hst : (s.getProt r).st = 3) (hlow : belowWindow s r low = true) :
    ∃ u : State, u.rail = s.rail ∧ u.cfg = s.cfg ∧ Winds (· = r) (railFault 1 r u) (undervoltage r low s) := by
  unfold undervoltage
  rw [if_pos ⟨hst, hlow⟩]
  have hk : Keeps [.frec, .hm, .hif, .ldg] s (emitRail 0x3042 r low 0 0 (frecTake 0x3042 r 0xFF (offMask s r) r low 0 s)) :=
    (emitRail_keeps ..).step (by decide) (frecTake_keeps ..)
  exact ⟨_, hk.rail_eq rfl, hk.cfg_eq rfl, (((Winds.refl _ _).stopTrackers r).countStop (L := (· = r)) (j := r) rfl).railSettle⟩

end Protect

/-- Settles O31. -/
theorem protectionsAct : Obligations.ProtectionsAct := by
  intro s p r hlive
  refine ⟨fun hb => act_eq hlive (scTrip_of_blanked hb), ?_, ?_, ?_, ?_, ?_, ?_, fun low => ⟨?_, ?_⟩⟩
  · intro hpres hb old
    obtain ⟨hpen, hpwm, hoff, htotal⟩ := scTrip_off hpres hb
    refine ⟨_, act_of_live hlive (scTrip p.val), hpen, hpwm, hoff, htotal, fun h7 h6 => ?_, fun hlt => ?_, (scTrip_keeps _ s).only⟩
    · have hw := scTrip_latched hpres hb h7 h6
      exact ⟨(congrArg Phase.scLatch hw.rest :), hw.out_st (disabled_st ..)⟩
    · have hno := scTrip_noted hpres hb fun h => absurd h.1 (Nat.not_le.mpr hlt)
      exact ⟨by rw [hno, State.getPh_updPh]; rfl, fun k hk => by rw [hno, State.getPh_updPh_ne _ _ _ hk]⟩
  · intro hpres
    refine ⟨fun ns hns hstage => ?_, fun ns h5 h10 => ?_, fun ns hns => act_eq hlive (stagePin_of_short hpres hns), act_eq hlive ?_⟩
    · have hw := stageFault_of_first (s := s.updPh p pinLow) (p := p) (by rw [State.getPh_updPh]; exact hstage)
      rw [State.getPh_updPh] at hw
      refine ⟨_, act_eq hlive (stagePin_of_long hpres hns), (congrArg Phase.stage hw.rest :), (congrArg Phase.pflt hw.rest :), hw.pen rfl,
        hw.out_st (disabled_st ..), ?_⟩
      exact (Keeps.step (stageFault_keeps ..) (by decide) ((State.updPh_keeps p.val pinLow s).mono (by decide))).only
    · have hlow : ((s.updPh p pinLow).drawn.getPh p) = pinLow (s.getPh p) := State.getPh_updPh ..
      refine ⟨_, act_of_live hlive (stagePin p.val (.low ns)), ?_, ?_, (stagePin_keeps _ _ s).only⟩ <;>
        rw [stagePin_of_between hpres h5 h10]
      · split
        · exact (stageFault_low (by rw [hlow]; rfl)).1
        · rw [hlow]; rfl
      · split
        · exact .inr (stageFault_low (by rw [hlow]; rfl)).2
        · exact .inl (by rw [hlow]; rfl)
    · unfold stagePin
      rw [if_neg (by simp [hpres])]
  · intro pad hpres hfirst
    have hw := (readbackOne_self (kind := 0) (pad := pad) hpres hfirst).trans (identifyNext_getPh _ p)
    obtain ⟨hrb, hkind, hpen, hst⟩ := readback_of_winds hw
    exact ⟨_, act_of_live hlive (pwmReadback p.val pad.val none), hrb, hkind, hpen, hst, (pwmReadback_keeps _ _ _ s).only⟩
  · intro pad o hne hpres hfirst hopres hofirst
    have hne' : o.val ≠ p.val := fun h => hne (Fin.ext h)
    have hp := ((readbackOne_self (kind := 1) (pad := pad) hpres hfirst).trans
      (readbackOne_other (kind := 1) (pad := pad) (p := o) hne'.symm)).trans (identifyNext_getPh _ p)
    have ho := (readbackOne_other (s := s) (kind := 1) (pad := pad) (p := p) hne')
    have ho' := (readbackOne_self (s := readbackOne pad 1 p s) (kind := 1) (pad := pad) (p := o)
      (by rw [State.phCfg, readbackOne_cfg]; exact hopres) ((congrArg Phase.readback ho.rest :).trans hofirst)).trans (identifyNext_getPh _ o)
    refine ⟨_, act_of_live hlive (pwmReadback p.val pad.val (some o.val)), ?_, (pwmReadback_keeps _ _ _ s).only⟩
    rintro k (rfl | rfl)
    · exact readback_of_winds hp
    · exact readback_of_winds ho'
  · intro hpres hst
    obtain ⟨u, hrail, hcfg, hw⟩ := overvoltage_winds hpres hst
    obtain ⟨h6, h7⟩ := crowbar_getProt r u
    refine ⟨_, act_of_live hlive (overvoltage r.val), (hw.prot r).crowbar h6, ?_, fun k hk => ?_, (overvoltage_keeps _ s).only⟩
    · rw [(hw.prot r).cause (by simp [RailProt.running, h6]), h7]
    · have hku : k ∈ u.usablePhases r := by rwa [usablePhases_of_rail hrail hcfg]
      obtain ⟨hpen, hpwm⟩ := crowbar_getPh hku
      have hkr : ((crowbar r u).phCfg k).rail = r := by
        rw [State.phCfg, (crowbar_keeps ..).cfg_eq rfl]
        exact (mem_railPhases.mp (List.mem_filter.mp hku).1).2.2
      obtain ⟨g1, g2⟩ := hw.crow k (by rw [hkr]; exact h6)
      exact ⟨g1.trans hpen, g2.trans hpwm⟩
  · exact fun h6 => act_eq hlive (if_pos (by simp [h6]))
  · intro hst hlow
    obtain ⟨u, hrail, hcfg, hw⟩ := undervoltage_winds hst hlow
    obtain ⟨h5, hcause, hpen⟩ := faulted_of_winds (by rw [getProt_of_rail hrail]; simp [RailProt.running, hst]) hw
    refine ⟨_, act_of_live hlive (undervoltage r.val low.val), h5, hcause, fun k hk => hpen k ?_, (undervoltage_keeps _ _ s).only⟩
    rwa [railPhases_of_cfg hcfg]
  · refine fun h => act_eq hlive (if_neg fun hc => ?_)
    obtain h | h := h
    · exact h hc.1
    · simp [h] at hc

end Sys2Proof.Machine
end

section
/-!
Faults are cleared under their conditions, and fault records are committed to the ring of serial NOR and read from it (R185–R201).
-/
namespace Sys2Proof.Machine

section Clear
variable {s t : State} {r p : Nat}

theorem crowbarClear_refused (h : s.pwr.vanaLoss = true) : crowbarClear s = railRes 0x3070 s := if_pos h

theorem crowbarClear_idle (h : s.pwr.vanaLoss = false) (hst : (s.getProt s.rail.sel).st ≠ 6) : crowbarClear s = railRes 0 s := by
  unfold crowbarClear
  rw [if_neg (by simp [h]), if_pos hst]

theorem crowbarClear_high (hst : (s.getProt s.rail.sel).st = 6) (hv : 400 ≤ (s.getMeas s.rail.sel).v) :
    crowbarClear s = railRes 0x3070 s := by
  unfold crowbarClear
  split
  · rfl
  · rw [if_neg (by simp [hst]), if_pos hv]

/-- The rail's phases are off as it leaves CROWBAR. -/
def crowbarOff (r : Nat) (s : State) : State := railPhasesTo r 1 (railPenLow r s)

theorem crowbarOff_keeps (r : Nat) (s : State) : Keeps [.rail] s (crowbarOff r s) :=
  (railPhasesTo_keeps ..).step (by decide) (railPenLow_keeps ..)

theorem crowbarOff_prot (r : Nat) (s : State) : (crowbarOff r s).rail.prot = s.rail.prot := by
  rw [crowbarOff, railPhasesTo_prot]
  exact forList_eq (·.rail.prot) _ (f := phOff) (fun _ _ => by rfl) s

theorem crowbarClear_low (h : s.pwr.vanaLoss = false) (hst : (s.getProt s.rail.sel).st = 6) (hv : (s.getMeas s.rail.sel).v < 400) :
    crowbarClear s = emitRail 0x3041 s.rail.sel 0 0 0 (railRes 0 ((crowbarOff s.rail.sel s).updProt s.rail.sel fun x =>
      { x with st := if x.latched then 7 else 5 })) := by
  unfold crowbarClear
  rw [if_neg (by simp [h]), if_neg (by simp [hst]), if_neg (by omega)]
  rfl

theorem faultClear_refused (h : s.pwr.vanaLoss = true) : faultClear s = railRes 0x3070 s := if_pos h

theorem faultClear_idle (h : s.pwr.vanaLoss = false) (hst : (s.getProt s.rail.sel).st ≠ 5) : faultClear s = railRes 0 s := by
  unfold faultClear
  rw [if_neg (by simp [h]), if_pos hst]

theorem faultClear_tripped (hst : (s.getProt s.rail.sel).st = 5) (htrip : s.aud.tripActive = true) :
    faultClear s = railRes 0x3070 s := by
  by_cases h : s.pwr.vanaLoss = true
  · exact faultClear_refused h
  · unfold faultClear
    dsimp only
    rw [if_neg h, if_neg (show ¬ (s.getProt s.rail.sel).st ≠ 5 by simp [hst]), if_pos htrip]

theorem faultClear_short (hst : (s.getProt s.rail.sel).st = 5) (hcause : (s.getProt s.rail.sel).cause = 3)
    (hn : (s.usablePhases s.rail.sel).length < (s.railCfg s.rail.sel).nreq) : faultClear s = railRes 0x3070 s := by
  unfold faultClear
  split
  · rfl
  · rw [if_neg (show ¬ (s.getProt s.rail.sel).st ≠ 5 by simp [hst])]
    split
    · rfl
    · exact if_pos ⟨hcause, hn⟩

theorem faultClear_off (h : s.pwr.vanaLoss = false) (hst : (s.getProt s.rail.sel).st = 5) (htrip : s.aud.tripActive = false)
    (hn : (s.getProt s.rail.sel).cause = 3 → (s.railCfg s.rail.sel).nreq ≤ (s.usablePhases s.rail.sel).length) :
    faultClear s = railRes 0 (s.updProt s.rail.sel fun y => { y with st := 0, cause := 0 }) := by
  unfold faultClear
  rw [if_neg (by simp [h]), if_neg (by simp [hst]), if_neg (by simp [htrip])]
  exact if_neg fun hc => absurd (hn hc.1) (Nat.not_le.mpr hc.2)

theorem phaseClear_refused {m : Nat} (h : s.pwr.vanaLoss = true) : phaseClear m s = railRes 0x3070 s := if_pos h

/-- What a clear leaves of the phase's latched faults, and the state that follows from them (R185). -/
def faultsLeft (m : Nat) (y : Phase) : Phase :=
  { y with scLatch := y.scLatch && !bitOf m 0, stage := y.stage && (!bitOf m 1 || y.pflt),
           readback := y.readback && !bitOf m 2, idFail := y.idFail && !bitOf m 3 }

def faultFreed (y : Phase) : Phase :=
  { y with st := if y.st = 6 ∧ !(y.scLatch || y.stage || y.readback || y.idFail) then 1 else y.st }

theorem phaseClear_eq (m : Nat) (h : s.pwr.vanaLoss = false) : phaseClear m s =
    railRes (if bitOf m 1 && (s.getPh s.rail.phSel).stage && (s.getPh s.rail.phSel).pflt then 0x3070 else 0)
      ((s.updPh s.rail.phSel (faultsLeft m)).updPh s.rail.phSel faultFreed) := by
  unfold phaseClear
  exact if_neg (by simp [h])

theorem phaseClear_self (m : Nat) (h : s.pwr.vanaLoss = false) :
    (phaseClear m s).getPh s.rail.phSel = faultFreed (faultsLeft m (s.getPh s.rail.phSel)) := by
  rw [phaseClear_eq m h]
  calc _ = ((s.updPh s.rail.phSel (faultsLeft m)).updPh s.rail.phSel faultFreed).getPh s.rail.phSel := by rfl
    _ = _ := by rw [State.getPh_updPh, State.getPh_updPh]

theorem phaseClear_ne (m : Nat) (h : s.pwr.vanaLoss = false) (hp : p ≠ s.rail.phSel) : (phaseClear m s).getPh p = s.getPh p := by
  rw [phaseClear_eq m h]
  calc _ = ((s.updPh s.rail.phSel (faultsLeft m)).updPh s.rail.phSel faultFreed).getPh p := by rfl
    _ = _ := by rw [State.getPh_updPh_ne _ _ _ hp, State.getPh_updPh_ne _ _ _ hp]

theorem faultFreed_of_left {y : Phase} (h6 : y.st = 6) (h : y.scLatch = true ∨ y.stage = true ∨ y.readback = true ∨ y.idFail = true) :
    (faultFreed y).st = 6 := by
  refine (if_neg fun hc => ?_).trans h6
  obtain h | h | h | h := h <;> simp [h] at hc

theorem faultFreed_of_none {y : Phase} (h6 : y.st = 6) (hsc : y.scLatch = false) (hstage : y.stage = false) (hrb : y.readback = false)
    (hid : y.idFail = false) : (faultFreed y).st = 1 := if_pos ⟨h6, by simp [hsc, hstage, hrb, hid]⟩

theorem faultFreed_of_enabled {y : Phase} (h6 : y.st ≠ 6) : (faultFreed y).st = y.st := if_neg fun hc => h6 hc.1

end Clear

section Ring

theorem Tbl.get_filter_key {α : Type} {d : α} (P : Nat → Bool) {k : Nat} (hk : P k = true) (t : Tbl α) :
    Tbl.get d (t.filter fun e => P e.1) k = Tbl.get d t k := by
  induction t with
  | nil => rfl
  | cons e t ih =>
    obtain ⟨j, v⟩ := e
    by_cases hj : P j = true
    · rw [List.filter_cons_of_pos (by exact hj), Tbl.get, Tbl.get, ih]
    · have hne : j ≠ k := by rintro rfl; exact hj hk
      rw [List.filter_cons_of_neg (by exact hj), Tbl.get, if_neg hne, ih]

/-- A sector is erased where the condition holds. -/
def eraseIf (c : Prop) [Decidable c] (n : Nat) (f : FRec) : FRec := if c then eraseSector n f else f

/-- What an erase leaves alone: all but the sectors being erased, the slots and the pointer entries. -/
def FRec.kept (f : FRec) : FRec := { f with erasing := [], slots := [], ptrs := [] }

theorem eraseIf_kept (c : Prop) [Decidable c] (n : Nat) (f : FRec) : (eraseIf c n f).kept = f.kept := by
  unfold eraseIf
  split <;> rfl

theorem eraseIf_slot {c : Prop} [Decidable c] {n k : Nat} (hk : slotSector k ≠ n) (f : FRec) :
    Tbl.get none (eraseIf c n f).slots k = Tbl.get none f.slots k := by
  unfold eraseIf
  split
  · simp only [eraseSector]
    split
    · rfl
    · exact Tbl.get_filter_key (fun k => decide (slotSector k ≠ n)) (decide_eq_true hk) _
  · rfl

theorem eraseIf_ptrs {c : Prop} [Decidable c] {n k : Nat} (hk : k ≠ n) (f : FRec) : (eraseIf c n f).ptrs.getD k [] = f.ptrs.getD k [] := by
  unfold eraseIf
  split
  · simp only [eraseSector]
    split
    · simp [List.getD_eq_getElem?_getD, List.getElem?_set_ne (Ne.symm hk)]
    · rfl
  · rfl

/-- The slot, the number and the record of the next commit (R196, R200). -/
def FRec.nextSlot (f : FRec) : Nat := if f.ptrValid then (f.ptrSlot + 1) % 320 else 0
def FRec.nextSeq (f : FRec) : Nat := if f.ptrSeq + 1 < 0xFFFFFFFF then f.ptrSeq + 1 else 0
def FRec.stamped (f : FRec) (r : FRecord) : FRecord := { r with seq := f.nextSeq, flags := r.flags + 16 * b2n f.overflow }
def FRec.ptrFull (f : FRec) : Bool := decide (512 ≤ (f.ptrs.getD f.ptrSector []).length)
def FRec.nextSector (f : FRec) : Nat := if f.ptrFull then 1 - f.ptrSector else f.ptrSector

/-- The ring with the record and its pointer entry, before any erase. -/
def FRec.put (f : FRec) (r : FRecord) (rest : List FRecord) : FRec :=
  { f with queue := rest, overflow := false, slots := Tbl.set none f.slots f.nextSlot (some (f.stamped r)), ptrSlot := f.nextSlot,
           ptrValid := true, ptrSeq := f.nextSeq, ptrSector := f.nextSector,
           ptrs := f.ptrs.set f.nextSector (f.ptrs.getD f.nextSector [] ++ [(f.nextSeq, f.nextSlot, (f.stamped r).check)]) }

variable {f : FRec} {r : FRecord} {rest : List FRecord}

theorem frecProgram_eq (h : f.queue = r :: rest) : frecProgram f =
    eraseIf (f.ptrFull = true) (f.ptrSector % 2) (eraseIf (f.nextSlot % 32 = 0) (2 + (f.nextSlot / 32 + 1) % 10) (f.put r rest)) := by
  unfold frecProgram
  rw [h]
  rfl

theorem nextSlot_lt (f : FRec) : f.nextSlot < 320 := by
  unfold FRec.nextSlot
  split
  · exact Nat.mod_lt _ (by decide)
  · decide

theorem frecProgram_slot (h : f.queue = r :: rest) : Tbl.get none (frecProgram f).slots f.nextSlot = some (f.stamped r) := by
  have hlt := nextSlot_lt f
  rw [frecProgram_eq h, eraseIf_slot (by simp only [slotSector]; omega), eraseIf_slot (by simp only [slotSector]; omega)]
  exact Tbl.get_set_self (d := none) f.slots f.nextSlot (some (f.stamped r))

theorem frecProgram_kept (h : f.queue = r :: rest) : (frecProgram f).kept = (f.put r rest).kept := by
  rw [frecProgram_eq h, eraseIf_kept, eraseIf_kept]

/-- The last entry of the pointer sector in use names the record's slot and number (R200). -/
theorem frecProgram_ptr (h : f.queue = r :: rest) (hsec : f.ptrSector < 2) (hlen : f.ptrs.length = 2) :
    ((frecProgram f).ptrs.getD (frecProgram f).ptrSector []).getLast? = some (f.nextSeq, f.nextSlot, (f.stamped r).check) := by
  have hsector : (frecProgram f).ptrSector = f.nextSector := (congrArg FRec.ptrSector (frecProgram_kept h) :)
  have hnext : f.nextSector < 2 := by
    unfold FRec.nextSector
    split <;> omega
  have hput : ((f.put r rest).ptrs.getD f.nextSector []).getLast? = some (f.nextSeq, f.nextSlot, (f.stamped r).check) := by
    simp only [FRec.put]
    rw [List.getD_eq_getElem?_getD, List.getElem?_set_self (by omega)]
    simp
  rw [hsector, frecProgram_eq h]
  cases hfull : f.ptrFull with
  | false => rw [eraseIf, if_neg (by decide), eraseIf_ptrs (by omega), hput]
  | true =>
    have hne : f.nextSector = 1 - f.ptrSector := by rw [FRec.nextSector, hfull]; rfl
    rw [eraseIf_ptrs (by omega), eraseIf_ptrs (by omega), hput]

end Ring

section Commit
variable {s t : State} {r : FRecord} {rest : List FRecord}

theorem warmGo_fwWait (s : State) : (warmGo s).pwr.fwWait = false := by
  unfold warmGo
  split
  · rfl
  · next h => simpa using h

theorem frecCommit_of_idle (h : s.frec.busy = false) (ok : Bool) : frecCommit ok s = s := if_neg (by simp [h])

theorem frecCommit_of_busy (h : s.frec.busy = true) (ok : Bool) : frecCommit ok s = warmGo (frecCommitted ok s) := if_pos h

theorem frecCommitted_lost (hq : s.frec.queue = r :: rest) (hbusy : s.frec.busy = true) :
    frecCommitted false s = frecLost r.code 1 (s.onFrec fun x => { x with queue := rest }) := by
  unfold frecCommitted
  dsimp only
  rw [hq]
  dsimp only
  rw [if_neg (by simp [hbusy]), if_pos (by decide)]

/-- A commit leaves the ring as programmed, with its time. -/
theorem frecCommitted_frec (hq : s.frec.queue = r :: rest) (hbusy : s.frec.busy = true) :
    (frecCommitted true s).frec = { frecProgram s.frec with lastCommit := s.now } := by
  unfold frecCommitted
  dsimp only
  rw [hq]
  dsimp only
  rw [if_neg (by simp [hbusy]), if_neg (by decide)]
  split
  · rw [(emitRail_keeps ..).frec_eq rfl, (emitRail_keeps ..).frec_eq rfl]; rfl
  · rw [(emitRail_keeps ..).frec_eq rfl]; rfl

theorem frecCommit_frec (hq : s.frec.queue = r :: rest) (hbusy : s.frec.busy = true) :
    (frecCommit true s).frec = { frecProgram s.frec with lastCommit := s.now } := by
  rw [frecCommit_of_busy hbusy, (warmGo_keeps _).frec_eq rfl, frecCommitted_frec hq hbusy]

theorem frecCommit_lost (hq : s.frec.queue = r :: rest) (hbusy : s.frec.busy = true) :
    (frecCommit false s).frec = { s.frec with queue := rest, notCommit := satInc 16 s.frec.notCommit, overflow := true } := by
  rw [frecCommit_of_busy hbusy, (warmGo_keeps _).frec_eq rfl, frecCommitted_lost hq hbusy, frecLost, (emitRail_keeps ..).frec_eq rfl]
  rfl

theorem frecCommit_logs (hq : s.frec.queue = r :: rest) (hbusy : s.frec.busy = true) (hroom : QRoom 0x32 s) :
    Logs 0x32 0x3061 r.code 1 0 0 s (frecCommit false s) := by
  rw [frecCommit_of_busy hbusy, frecCommitted_lost hq hbusy]
  refine Logs.before ?_ (warmGo_keeps _).only (by decide)
  exact emit_logs_after (ps := [.frec]) ((State.onFrec_keeps _ _).step (by decide) (State.onFrec_keeps _ _)) (by decide) (by decide)
    (by decide) (by decide) hroom

theorem eraseDone_of_erasing {a : Nat} {l : List Nat} (h : s.frec.erasing = a :: l) : eraseDone s = s.onFrec fun f =>
    { f with erasing := l, ready := f.ready || l.isEmpty, init := f.init && !l.isEmpty } := by
  have hf : ∀ f : FRec, f.erasing = a :: l →
      { f with erasing := f.erasing.drop 1, ready := f.ready || decide (f.erasing.drop 1 = []), init := f.init && !decide (f.erasing.drop 1 = []) } =
      { f with erasing := l, ready := f.ready || l.isEmpty, init := f.init && !l.isEmpty } := fun f hf => by
    rw [hf]
    cases l <;> rfl
  unfold eraseDone
  rw [if_neg (by simp [h])]
  exact congrArg (fun x => s.onFrec fun _ => x) (hf s.frec h)

end Commit

/-- Settles O32. -/
theorem faultsClearedAndRecorded : Obligations.FaultsClearedAndRecorded := by
  constructor
  · intro s m hemu r p x refuse
    refine ⟨?_, ?_, ?_, ?_, ?_, ?_, ?_, ?_, ?_⟩
    · exact fun h => ⟨hsEmu_eq hemu (crowbarClear_refused h), hsEmu_eq hemu (faultClear_refused h),
        hsEmu_eq hemu (phaseClear_refused (m := m) h)⟩
    · exact fun h hst => hsEmu_eq hemu (crowbarClear_idle h hst)
    · exact fun hst hv => hsEmu_eq hemu (crowbarClear_high hst hv)
    · intro h hst hv
      have heq := crowbarClear_low h hst hv
      have hans := hsAnswer_keeps 0 0 (crowbarClear s)
      have hrail : (hsAnswer 0 0 (crowbarClear s)).rail = (railRes 0 ((crowbarOff r s).updProt r fun x =>
          { x with st := if x.latched then 7 else 5 })).rail := by
        rw [hans.rail_eq rfl, heq, (emitRail_keeps ..).rail_eq rfl]
      have hprot : ∀ k, (hsAnswer 0 0 (crowbarClear s)).getProt k =
          (s.updProt r fun x => { x with st := if x.latched then 7 else 5 }).getProt k := fun k => by
        rw [getProt_of_rail hrail]
        simp only [State.getProt, railRes, State.updProt, State.onRail_rail, crowbarOff_prot]
      refine ⟨_, hsEmu_eq hemu rfl, ?_, ?_, fun k hk => ?_, fun k hk => ?_, fun hroom => ?_, ?_⟩
      · rw [hprot, State.getProt_updProt]
      · rw [hrail]; rfl
      · rw [getPh_of_rail hrail]
        calc _ = ((crowbarOff r s).getPh k).pen := by rfl
          _ = ((railPenLow r s).getPh k).pen := railPhasesTo_pen ..
          _ = false := forList_phOff_pen hk s
      · rw [hprot, State.getProt_updProt_ne _ _ _ hk]
      · refine Logs.before ?_ hans.only (by decide)
        rw [heq]
        refine emit_logs_after (ps := [.rail]) ?_ (by decide) (by decide) (by decide) (by decide) hroom
        exact ((railRes_keeps ..).step (by decide) (Keeps.step (State.updProt_keeps ..) (by decide) (crowbarOff_keeps r s)))
      · exact (hans.step (by decide) ((crowbarClear_keeps s).mono (by decide))).only
    · exact fun h hst => hsEmu_eq hemu (faultClear_idle h hst)
    · exact fun hst htrip => hsEmu_eq hemu (faultClear_tripped hst htrip)
    · exact fun hst hcause hn => hsEmu_eq hemu (faultClear_short hst hcause hn)
    · exact fun h hst htrip hn => hsEmu_eq hemu (faultClear_off h hst htrip hn)
    · intro h
      have hans := hsAnswer_keeps 0 0 (phaseClear m s)
      have hself : (hsAnswer 0 0 (phaseClear m s)).getPh p = faultFreed (faultsLeft m x) := by
        rw [getPh_of_rail (hans.rail_eq rfl), phaseClear_self m.val h]
      refine ⟨_, hsEmu_eq hemu rfl, ?_, ?_, ?_, ?_, ?_, ?_, ?_, ?_, fun k hk => ?_, ?_⟩
      · rw [hans.rail_eq rfl, phaseClear_eq m.val h]; rfl
      · rw [hself]; rfl
      · rw [hself]; rfl
      · rw [hself]; rfl
      · rw [hself]; rfl
      · rw [hself]; exact fun h6 hsc hstage hrb hid => faultFreed_of_none h6 hsc hstage hrb hid
      · rw [hself]; exact fun h6 hleft => faultFreed_of_left h6 hleft
      · rw [hself]; exact fun h6 => faultFreed_of_enabled h6
      · rw [getPh_of_rail (hans.rail_eq rfl), phaseClear_ne m.val h hk]
      · exact (hans.step (by decide) ((phaseClear_keeps _ s).mono (by decide))).only
  · intro s r rest hlive
    refine ⟨?_, ?_, ?_, ?_, ?_, ?_⟩
    · intro hq hbusy slot seq
      have hput := frecProgram_kept hq
      have hfrec := frecCommit_frec hq hbusy
      have hlost := frecCommit_lost hq hbusy
      refine ⟨⟨_, act_of_live hlive (frecCommit true), ?_, ?_, ?_, ?_, ?_, ?_, ?_, ?_, (frecCommit_keeps _ s).only⟩,
        _, act_of_live hlive (frecCommit false), ?_, ?_, ?_, ?_, frecCommit_logs hq hbusy, (frecCommit_keeps _ s).only⟩
      · rw [hfrec]; exact (congrArg FRec.queue hput :)
      · rw [hfrec]; exact (congrArg FRec.ptrSlot hput :)
      · rw [hfrec]; exact (congrArg FRec.ptrSeq hput :)
      · rw [hfrec]; exact (congrArg FRec.ptrValid hput :)
      · rw [hfrec]; exact (congrArg FRec.overflow hput :)
      · rw [frecCommit_of_busy hbusy]; exact warmGo_fwWait _
      · rw [hfrec]; exact frecProgram_slot hq
      · rw [hfrec]; exact frecProgram_ptr hq
      · rw [hlost]
      · rw [hlost]
      · rw [hlost]
      · rw [hlost]
    · exact fun h ok => act_eq hlive (frecCommit_of_idle h ok)
    · exact fun h => act_eq hlive (if_pos h)
    · exact fun h => act_eq hlive (if_neg (by simp [h]))
    · exact fun a l h => act_eq hlive (eraseDone_of_erasing h)
    · exact fun h => act_eq hlive (if_pos h)

end Sys2Proof.Machine
end

section
/-!
Rules of the synchronisation unit: what its waiter store holds, and what the end of a wait and the update of its core change
(R325, R327, R330).
-/
namespace Sys2Proof.Machine

section Store
variable {s t u : State} {α : Type} {d : α}

theorem mem_insBy (f : α → Nat) (a b : α) (l : List α) : b ∈ insBy f a l ↔ b = a ∨ b ∈ l := by
  induction l with
  | nil => simp [insBy]
  | cons c l ih =>
    rw [insBy]
    split
    · simp
    · simp only [List.mem_cons, ih]
      tauto

theorem mem_sortBy (f : α → Nat) (b : α) (l : List α) : b ∈ sortBy f l ↔ b ∈ l := by
  have h : ∀ (l r : List α), b ∈ l.foldl (fun r a => insBy f a r) r ↔ b ∈ r ∨ b ∈ l := by
    intro l
    induction l with
    | nil => simp
    | cons a l ih =>
      intro r
      rw [List.foldl_cons, ih, mem_insBy, List.mem_cons]
      tauto
  rw [sortBy, h]
  simp

theorem mem_waits {p : Nat → Waiter → Bool} {w : Nat} {x : Waiter} :
    (w, x) ∈ s.waits p ↔ (w, some x) ∈ s.syn.wtr ∧ p w x = true := by
  rw [State.waits, mem_sortBy, List.mem_filterMap]
  constructor
  · rintro ⟨⟨k, v⟩, he, h⟩
    cases v with
    | none => cases h
    | some y =>
      dsimp only at h
      split at h
      · next hp => cases h; exact ⟨he, hp⟩
      · cases h
  · rintro ⟨he, hp⟩
    exact ⟨_, he, if_pos hp⟩

variable [DecidableEq α]

theorem Tbl.lt_of_wfFrom {t : Tbl α} {lo : Nat} (h : Tbl.wfFrom d t (some lo) = true) {e : Nat × α} (he : e ∈ t) : lo < e.1 := by
  induction t generalizing lo with
  | nil => cases he
  | cons a t ih =>
    obtain ⟨i, v⟩ := a
    simp only [Tbl.wfFrom, Bool.and_eq_true, decide_eq_true_eq] at h
    obtain rfl | he := List.mem_cons.mp he
    · exact h.1.1
    · exact h.1.1.trans (ih h.2 he)

/-- In a canonical table an entry is what a read gives. -/
theorem Tbl.get_of_mem {t : Tbl α} {o : Option Nat} (h : Tbl.wfFrom d t o = true) {k : Nat} {v : α} (hm : (k, v) ∈ t) :
    Tbl.get d t k = v := by
  induction t generalizing o with
  | nil => cases hm
  | cons a t ih =>
    obtain ⟨i, w⟩ := a
    have ht : Tbl.wfFrom d t (some i) = true := by
      cases o <;> simp only [Tbl.wfFrom, Bool.and_eq_true] at h <;> exact h.2
    obtain heq | hm := List.mem_cons.mp hm
    · cases heq
      rw [Tbl.get, if_pos rfl]
    · rw [Tbl.get, if_neg (Nat.ne_of_lt (Tbl.lt_of_wfFrom ht hm)), ih ht hm]

theorem WaitersOk.mem_iff (h : WaitersOk s) {w : Nat} {x : Waiter} : (w, some x) ∈ s.syn.wtr ↔ s.waiter w = some x := by
  constructor
  · exact fun hm => Tbl.get_of_mem (d := none) h hm
  · intro hw
    rw [State.waiter] at hw
    obtain hn | hm := Tbl.get_mem (d := none) s.syn.wtr w
    · rw [hw] at hn; cases hn
    · rwa [hw] at hm

theorem WaitersOk.mem_waits (h : WaitersOk s) {p : Nat → Waiter → Bool} {w : Nat} {x : Waiter} :
    (w, x) ∈ s.waits p ↔ s.waiter w = some x ∧ p w x = true := by
  rw [Machine.mem_waits, h.mem_iff]

theorem WaitersOk.of_wtr (hw : t.syn.wtr = s.syn.wtr) (h : WaitersOk s) : WaitersOk t := by rwa [WaitersOk, hw]

theorem waiter_of_wtr (h : t.syn.wtr = s.syn.wtr) (k : Nat) : t.waiter k = s.waiter k := by rw [State.waiter, h, ← State.waiter]

theorem getObj_of_obj (h : t.syn.obj = s.syn.obj) (k : Nat) : t.getObj k = s.getObj k := by rw [State.getObj, h]; rfl

theorem getGrp_of_grp (h : t.syn.grp = s.syn.grp) (k : Nat) : t.getGrp k = s.getGrp k := by rw [State.getGrp, h]; rfl

theorem getCore_of_core (h : t.syn.core = s.syn.core) (k : Nat) : t.getCore k = s.getCore k := by rw [State.getCore, h]; rfl

end Store

section Core
variable {s t : State} {k w : Nat}

/-- What the update of a core leaves of the unit. -/
def Sync.coreless (y : Sync) : Sync := { y with core := [] }

theorem updCore_coreless (k : Nat) (f : SynCore → SynCore) (s : State) : (s.updCore k f).syn.coreless = s.syn.coreless := rfl

theorem reclaimCore_coreless (cause c k : Nat) (s : State) : (reclaimCore cause c k s).syn.coreless = s.syn.coreless := by
  unfold reclaimCore
  dsimp only
  split
  · rfl
  · split <;> split
    · rw [(emitSyn_keeps ..).syn_eq rfl]; rfl
    · rw [(emitSyn_keeps ..).syn_eq rfl]; rfl
    · rfl
    · rfl

theorem coreUpdate_coreless (k : Nat) (s : State) : (coreUpdate k s).syn.coreless = s.syn.coreless := by
  unfold coreUpdate
  extract_lets w d s1
  split
  · rfl
  · rw [reclaimCore_coreless]; rfl

/-- A change of a wait changes its entry and the cores only. -/
theorem setWaiter_coreless (w : Nat) (v : Option Waiter) (s : State) :
    (setWaiter w v s).syn.coreless = { s.syn with core := [], wtr := Tbl.set none s.syn.wtr w v } := by
  rw [setWaiter, coreUpdate_coreless]
  rfl

theorem setWaiter_wtr (w : Nat) (v : Option Waiter) (s : State) : (setWaiter w v s).syn.wtr = Tbl.set none s.syn.wtr w v :=
  (congrArg Sync.wtr (setWaiter_coreless w v s) :)

theorem setWaiter_obj (w : Nat) (v : Option Waiter) (s : State) : (setWaiter w v s).syn.obj = s.syn.obj :=
  (congrArg Sync.obj (setWaiter_coreless w v s) :)

theorem setWaiter_grp (w : Nat) (v : Option Waiter) (s : State) : (setWaiter w v s).syn.grp = s.syn.grp :=
  (congrArg Sync.grp (setWaiter_coreless w v s) :)

theorem setWaiter_self (w : Nat) (v : Option Waiter) (s : State) : (setWaiter w v s).waiter w = v := by
  rw [State.waiter, setWaiter_wtr, Tbl.get_set_self]

theorem setWaiter_ne (v : Option Waiter) (h : k ≠ w) (s : State) : (setWaiter w v s).waiter k = s.waiter k := by
  rw [State.waiter, setWaiter_wtr, Tbl.get_set_ne _ _ h, ← State.waiter]

end Core

section Responses
variable {s t u : State} {w l : Nat}

/-- Every lane's responses stand, with others perhaps after them. -/
def Answers (s t : State) : Prop := ∀ l, (s.getEp l).resp <+: (t.getEp l).resp

theorem Answers.refl (s : State) : Answers s s := fun _ => List.prefix_rfl

theorem Answers.trans (h : Answers s t) (g : Answers t u) : Answers s u := fun l => (h l).trans (g l)

theorem Answers.of_ep (h : t.ep = s.ep) : Answers s t := fun l => by rw [getEp_of_ep h]

theorem epRespond_self (l src q stat val : Nat) (s : State) :
    ((epRespond l src q stat val s).getEp l).resp = (s.getEp l).resp ++ [{ rsrc := src, rq := q, rstat := stat, rval := val }] := by
  rw [epRespond, State.getEp_updEp]

theorem epRespond_answers (l src q stat val : Nat) (s : State) : Answers s (epRespond l src q stat val s) := fun j => by
  by_cases h : j = l
  · subst h; rw [epRespond_self]; exact List.prefix_append _ _
  · rw [epRespond, State.getEp_updEp_ne _ _ _ h]

/-- A response that stands is a response that was given. -/
theorem Responds.of_answers {src q stat val : Nat} (h : Responds l src q stat val s t) (g : Answers t u) :
    Responds l src q stat val s u := h.trans (g l)

theorem Responds.of_ep {src q stat val : Nat} (he : t.ep = s.ep) (h : Responds l src q stat val t u) : Responds l src q stat val s u := by
  rwa [Responds, getEp_of_ep he] at h

theorem epRespond_responds (l src q stat val : Nat) (s : State) : Responds l src q stat val s (epRespond l src q stat val s) := by
  rw [Responds, epRespond_self]

/-- The waits of `ws` have ended, every other one and every object is as it was. -/
structure Ends (ws : List Nat) (s t : State) : Prop where
  waiter : ∀ k, t.waiter k = if k ∈ ws then none else s.waiter k
  obj : t.syn.obj = s.syn.obj
  answers : Answers s t

theorem Ends.refl (s : State) : Ends [] s s := ⟨fun _ => by simp, rfl, .refl s⟩

theorem Ends.trans {ws vs : List Nat} (h : Ends ws s t) (g : Ends vs t u) : Ends (ws ++ vs) s u := by
  refine ⟨fun k => ?_, g.obj.trans h.obj, h.answers.trans g.answers⟩
  rw [g.waiter, h.waiter]
  by_cases hv : k ∈ vs <;> by_cases hw : k ∈ ws <;> simp [hv, hw]

theorem Ends.step {ws : List Nat} (hsyn : u.syn.wtr = t.syn.wtr) (hobj : u.syn.obj = t.syn.obj) (hep : Answers t u)
    (h : Ends ws s t) : Ends ws s u :=
  ⟨fun k => by rw [waiter_of_wtr hsyn, h.waiter], hobj.trans h.obj, h.answers.trans hep⟩

theorem Ends.forList {α : Type} {f : α → State → State} (g : α → Nat) (hf : ∀ e u, Ends [g e] u (f e u)) (l : List α) (s : State) :
    Ends (l.map g) s (forList l f s) := by
  induction l generalizing s with
  | nil => exact .refl s
  | cons e l ih => exact (hf e s).trans (ih (f e s))

theorem releaseWait_ends (w val : Nat) (s : State) : Ends [w] s (releaseWait w val s) := by
  have hcore : ((setWaiter w none s).updCore (w / 64) fun x => { x with wd := x.wd.map fun _ => s.now, wdFired := false }).syn.coreless =
      (setWaiter w none s).syn.coreless := rfl
  refine ⟨fun k => ?_, ?_, ?_⟩
  · have hw : (releaseWait w val s).syn.wtr = (setWaiter w none s).syn.wtr := (congrArg Sync.wtr hcore :)
    rw [waiter_of_wtr hw]
    by_cases h : k = w
    · subst h; rw [setWaiter_self, if_pos (by simp)]
    · rw [setWaiter_ne _ h, if_neg (by simpa using h)]
  · exact ((congrArg Sync.obj hcore :)).trans (setWaiter_obj w none s)
  · exact (Answers.of_ep ((setWaiter_keeps ..).ep_eq rfl)).trans (epRespond_answers _ _ _ _ _ _)

theorem releaseWait_grp (w val : Nat) (s : State) : (releaseWait w val s).syn.grp = s.syn.grp := setWaiter_grp w none s

theorem releaseWait_wtr (w val : Nat) (s : State) : (releaseWait w val s).syn.wtr = Tbl.set none s.syn.wtr w none := setWaiter_wtr w none s

theorem withdraw_kept (x : Waiter) (s : State) : (withdraw x s).syn.wtr = s.syn.wtr ∧ (withdraw x s).syn.obj = s.syn.obj ∧
    (withdraw x s).syn.failed = s.syn.failed := by
  unfold withdraw
  split
  · split <;> exact ⟨rfl, rfl, rfl⟩
  · exact ⟨rfl, rfl, rfl⟩

/-- A failure is counted; the waits, the objects and the groups stand as it is reported. -/
theorem reportFail_kept (w stat : Nat) (x : Waiter) (s : State) : (reportFail w stat x s).syn.wtr = s.syn.wtr ∧
    (reportFail w stat x s).syn.obj = s.syn.obj ∧ (reportFail w stat x s).syn.failed = satInc 16 s.syn.failed := by
  unfold reportFail
  extract_lets k s1 recent
  split
  · rw [(emitSyn_keeps ..).syn_eq rfl]; exact ⟨rfl, rfl, rfl⟩
  · exact ⟨rfl, rfl, rfl⟩

theorem failWait_of_none {stat : Nat} (h : s.waiter w = none) : failWait stat w s = s := by
  unfold failWait
  rw [h]

theorem failWait_of_some {stat : Nat} {x : Waiter} (h : s.waiter w = some x) : failWait stat w s =
    waitRespond w stat (if stat = 0x7006 then (s.getObj x.obj).shown else 0)
      (setWaiter w none (withdraw x (reportFail w stat x s))) := by
  unfold failWait
  rw [h]

theorem failWait_ends (stat w : Nat) (s : State) : Ends [w] s (failWait stat w s) := by
  cases h : s.waiter w with
  | none =>
    rw [failWait_of_none h]
    refine ⟨fun k => ?_, rfl, .refl s⟩
    by_cases e : k = w
    · subst e; simp [h]
    · simp [e]
  | some x =>
    obtain ⟨hw1, ho1, -⟩ := withdraw_kept x (reportFail w stat x s)
    obtain ⟨hw2, ho2, -⟩ := reportFail_kept w stat x s
    rw [failWait_of_some h]
    refine ⟨fun k => ?_, ?_, ?_⟩
    · have hw : (waitRespond w stat (if stat = 0x7006 then (s.getObj x.obj).shown else 0)
          (setWaiter w none (withdraw x (reportFail w stat x s)))).syn = (setWaiter w none (withdraw x (reportFail w stat x s))).syn := rfl
      rw [waiter_of_wtr (congrArg Sync.wtr hw)]
      by_cases e : k = w
      · subst e; rw [setWaiter_self, if_pos (by simp)]
      · rw [setWaiter_ne _ e, waiter_of_wtr hw1, waiter_of_wtr hw2, if_neg (by simpa using e)]
    · exact (setWaiter_obj w none _).trans (ho1.trans ho2)
    · refine Answers.trans (.of_ep ?_) (epRespond_answers _ _ _ _ _ _)
      rw [(setWaiter_keeps ..).ep_eq rfl, (withdraw_keeps ..).ep_eq rfl, (reportFail_keeps ..).ep_eq rfl]

end Responses

end Sys2Proof.Machine
end

section
/-!
The operations of the engine port on flags, counts and barriers (R318–R325).
-/
namespace Sys2Proof.Machine

section Request
variable {s t : State} {src q ctx o op arg tmo lane : Nat}

theorem epProcess_of_syn {r : EpReq} (hop : r.op ≠ 9) (hok : s.engineOk r.src = true) (hf : epFieldsOk r = true) :
    epProcess lane r s = synPerform lane r s := by
  rw [epProcess, if_neg (by simp [hok, hf]), if_neg hop]

/-- A request of an engine that its lane accepts is performed. -/
theorem engineReq_of_accepts {src : EngId} {q : Fin 4} {ctx : CtxId} (h : Accepts src q s) (hop : op ≠ 9)
    (hf : epFieldsOk { src := src.val, q := q.val, ctx := ctx.val, op := op, tmo := tmo, obj := o, arg := arg } = true) :
    act (engineReq op src q ctx o arg tmo) s = .next (synPerform (s.laneOf src)
      { src := src.val, q := q.val, ctx := ctx.val, op := op, tmo := tmo, obj := o, arg := arg } s) := by
  obtain ⟨hlive, hok, hbusy, hroom⟩ := h
  refine act_eq hlive ?_
  rw [engineReq, epRequest, if_neg (by simp [hbusy]), if_neg (by omega)]
  exact epProcess_of_syn hop hok hf

end Request

section Flags
variable {s t : State} {src q ctx o tmo lane w : Nat}

/-- What a SET or CLEAR of entry `w` makes of a flag (R318). -/
def flagged (set : Bool) (w now : Nat) (y : SynObj) : SynObj :=
  { y with level := set, gen := if set && !y.level then (y.gen + 1) % 16 else y.gen,
           lastSet := if set then some (now, w) else y.lastSet, lastClr := if set then y.lastClr else some (now, w) }

theorem countRace_kept (o a b : Nat) (s : State) : (countRace o a b s).syn.obj = s.syn.obj ∧ (countRace o a b s).syn.wtr = s.syn.wtr := by
  unfold countRace
  extract_lets s1 x
  split
  · rw [(emitSyn_keeps ..).syn_eq rfl]; exact ⟨rfl, rfl⟩
  · exact ⟨rfl, rfl⟩

theorem flagOp_kept (set : Bool) (w o : Nat) (s : State) :
    (flagOp set (some w) o s).syn.obj = (s.updObj o (flagged set w s.now)).syn.obj ∧ (flagOp set (some w) o s).syn.wtr = s.syn.wtr := by
  unfold flagOp
  extract_lets x s1
  have h1 : s1 = s.updObj o (flagged set w s.now) := rfl
  rw [h1]
  dsimp only
  split
  · split
    · exact ⟨(countRace_kept ..).1, (countRace_kept ..).2⟩
    · exact ⟨rfl, rfl⟩
  · exact ⟨rfl, rfl⟩

theorem flagOp_self (set : Bool) (w o : Nat) (s : State) : (flagOp set (some w) o s).getObj o = flagged set w s.now (s.getObj o) := by
  rw [getObj_of_obj (flagOp_kept ..).1, State.getObj_updObj]

theorem flagOp_ne {j : Nat} (set : Bool) (w : Nat) (h : j ≠ o) (s : State) : (flagOp set (some w) o s).getObj j = s.getObj j := by
  rw [getObj_of_obj (flagOp_kept ..).1, State.getObj_updObj_ne _ _ _ h]

/-- The condition under which a wait on an object is released (R318, R320). -/
def objReleases (y : SynObj) (x : Waiter) : Bool :=
  if y.count then decide (x.op = 7) && decide (x.arg ≤ y.value) else flagReleases y x

/-- The waits on an object that its present state releases end. -/
theorem releaseOn_ends (hw : WaitersOk s) (o : Nat) : ∃ ws, Ends ws s (releaseOn o s) ∧
    ∀ k, k ∈ ws ↔ ∃ x, s.waiter k = some x ∧ x.obj = o ∧ objReleases (s.getObj o) x = true := by
  refine ⟨_, Ends.forList Prod.fst (fun e u => releaseWait_ends e.1 _ u) _ s, fun k => ?_⟩
  simp only [List.mem_map, List.mem_filter, State.waitsOn, Prod.exists, hw.mem_waits, decide_eq_true_eq]
  constructor
  · rintro ⟨j, x, ⟨⟨hx, ho⟩, hr⟩, rfl⟩
    refine ⟨x, hx, ho, ?_⟩
    rw [objReleases]
    exact hr
  · rintro ⟨x, hx, ho, hr⟩
    refine ⟨k, x, ⟨⟨hx, ho⟩, ?_⟩, rfl⟩
    rw [objReleases] at hr
    exact hr

/-- What the statements say of an operation that ends waits: the object of the operation is as it became, its waits that it
releases have ended, those on other objects and the other objects stand. -/
theorem releaseOn_effect {u : State} (hw : WaitersOk s) (hwtr : u.syn.wtr = s.syn.wtr) (hobj : ∀ k, k ≠ o → u.getObj k = s.getObj k) :
    (releaseOn o u).getObj o = u.getObj o ∧
      (∀ k y, s.waiter k = some y → y.obj = o → objReleases (u.getObj o) y = true → (releaseOn o u).waiter k = none) ∧
      (∀ k y, s.waiter k = some y → y.obj ≠ o → (releaseOn o u).waiter k = some y) ∧
      (∀ k, k ≠ o → (releaseOn o u).getObj k = s.getObj k) ∧ Answers u (releaseOn o u) := by
  obtain ⟨ws, hends, hmem⟩ := releaseOn_ends (hw.of_wtr hwtr) o
  refine ⟨getObj_of_obj hends.obj o, fun k y hy ho hr => ?_, fun k y hy ho => ?_, fun k hk => ?_, hends.answers⟩
  · rw [hends.waiter, if_pos ((hmem k).mpr ⟨y, by rw [waiter_of_wtr hwtr, hy], ho, hr⟩)]
  · rw [hends.waiter, if_neg, waiter_of_wtr hwtr, hy]
    rintro hk
    obtain ⟨x, hx, hxo, -⟩ := (hmem k).mp hk
    rw [waiter_of_wtr hwtr, hy] at hx
    cases hx
    exact ho hxo
  · rw [getObj_of_obj hends.obj, hobj k hk]

/-- A SET or CLEAR that an engine performs: the flag changes, the engine is answered, and waits are released. -/
def flagDone (set : Bool) (lane src q o : Nat) (s : State) : State :=
  let s1 := flagOp set (some (4 * src + q)) o s
  releaseOn o (epRespond lane src q 0 ((s1.getObj o).shown + (if (s1.getObj o).level ≠ (s.getObj o).level then 2 ^ 8 else 0)) s1)

theorem synPerform_set (h : MayUse ctx o false s) :
    synPerform lane { src := src, q := q, ctx := ctx, op := 1, tmo := 0, obj := o, arg := 0 } s = flagDone true lane src q o s := by
  obtain ⟨hmap, hpoison, hcount⟩ := h
  rw [synPerform, if_neg (by simp [hmap]), if_neg (by simp [hpoison]), if_neg (by simp [hcount])]
  rfl

theorem synPerform_clear (h : MayUse ctx o false s) :
    synPerform lane { src := src, q := q, ctx := ctx, op := 2, tmo := 0, obj := o, arg := 0 } s = flagDone false lane src q o s := by
  obtain ⟨hmap, hpoison, hcount⟩ := h
  rw [synPerform, if_neg (by simp [hmap]), if_neg (by simp [hpoison]), if_neg (by simp [hcount])]
  rfl

theorem flagDone_keeps (set : Bool) (lane src q o : Nat) (s : State) :
    Keeps [.hm, .ep, .hif, .ldg, .trs, .syn] s (flagDone set lane src q o s) :=
  (releaseOn_keeps ..).step (by decide) ((epRespond_keeps ..).step (by decide) ((flagOp_keeps ..).mono (by decide)))

theorem flagDone_effect (set : Bool) (hw : WaitersOk s) (hcount : (s.getObj o).count = false) :
    let t := flagDone set lane src q o s
    let y := flagged set (4 * src + q) s.now (s.getObj o)
    t.getObj o = y ∧ Responds lane src q 0 (b2n y.level + 16 * y.gen + (if y.level ≠ (s.getObj o).level then 256 else 0)) s t ∧
      (∀ k x, s.waiter k = some x → x.obj = o → flagReleases y x = true → t.waiter k = none) ∧
      (∀ k x, s.waiter k = some x → x.obj ≠ o → t.waiter k = some x) ∧ (∀ k, k ≠ o → t.getObj k = s.getObj k) := by
  intro t y
  have hself := flagOp_self set (4 * src + q) o s
  have hycount : y.count = false := hcount
  have heff := releaseOn_effect (u := epRespond lane src q 0 (((flagOp set (some (4 * src + q)) o s).getObj o).shown +
    (if ((flagOp set (some (4 * src + q)) o s).getObj o).level ≠ (s.getObj o).level then 2 ^ 8 else 0)) (flagOp set (some (4 * src + q)) o s))
    (o := o) hw (flagOp_kept ..).2 (fun k hk => flagOp_ne set _ hk s)
  obtain ⟨hobj, hrel, hkept, hothers, hans⟩ := heff
  refine ⟨hobj.trans hself, ?_, fun k x hx ho hr => hrel k x hx ho ?_, hkept, hothers⟩
  · have hresp := epRespond_responds lane src q 0 (((flagOp set (some (4 * src + q)) o s).getObj o).shown +
      (if ((flagOp set (some (4 * src + q)) o s).getObj o).level ≠ (s.getObj o).level then 2 ^ 8 else 0)) (flagOp set (some (4 * src + q)) o s)
    have h := (hresp.of_ep ((flagOp_keeps ..).ep_eq rfl)).of_answers hans
    have hshown : y.shown = b2n y.level + 16 * y.gen := if_neg (by simp [hycount])
    have hval : b2n y.level + 16 * y.gen + (if y.level ≠ (s.getObj o).level then 256 else 0) =
        ((flagOp set (some (4 * src + q)) o s).getObj o).shown +
          (if ((flagOp set (some (4 * src + q)) o s).getObj o).level ≠ (s.getObj o).level then 2 ^ 8 else 0) := by
      rw [hself]
      exact congrArg (· + _) hshown.symm
    rw [hval]
    exact h
  · have hu : (epRespond lane src q 0 (((flagOp set (some (4 * src + q)) o s).getObj o).shown +
      (if ((flagOp set (some (4 * src + q)) o s).getObj o).level ≠ (s.getObj o).level then 2 ^ 8 else 0))
        (flagOp set (some (4 * src + q)) o s)).getObj o = y := hself
    rw [hu, objReleases, if_neg (by simp [hycount])]
    exact hr

end Flags

section Waits
variable {s t : State} {src q ctx o tmo lane w : Nat}

theorem synPerform_waitSet (h : MayUse ctx o false s) :
    synPerform lane { src := src, q := q, ctx := ctx, op := 3, tmo := tmo, obj := o, arg := 0 } s =
      if (s.getObj o).level then epRespond lane src q 0 (s.getObj o).shown s
      else hold (4 * src + q) { obj := o, op := 3, arg := (s.getObj o).gen, ctx := ctx, mode := false, tmo := tmo, start := 0, ord := 0 } s := by
  obtain ⟨hmap, hpoison, hcount⟩ := h
  rw [synPerform, if_neg (by simp [hmap]), if_neg (by simp [hpoison]), if_neg (by simp [hcount])]
  rfl

theorem synPerform_waitClear (h : MayUse ctx o false s) :
    synPerform lane { src := src, q := q, ctx := ctx, op := 4, tmo := tmo, obj := o, arg := 0 } s =
      if (s.getObj o).level then
        hold (4 * src + q) { obj := o, op := 4, arg := (s.getObj o).gen, ctx := ctx, mode := false, tmo := tmo, start := 0, ord := 0 } s
      else epRespond lane src q 0 (s.getObj o).shown s := by
  obtain ⟨hmap, hpoison, hcount⟩ := h
  rw [synPerform, if_neg (by simp [hmap]), if_neg (by simp [hpoison]), if_neg (by simp [hcount])]
  rfl

theorem synPerform_waitGe {n : Nat} (h : MayUse ctx o true s) :
    synPerform lane { src := src, q := q, ctx := ctx, op := 7, tmo := tmo, obj := o, arg := n } s =
      if n ≤ (s.getObj o).value then epRespond lane src q 0 (s.getObj o).value s
      else hold (4 * src + q) { obj := o, op := 7, arg := n, ctx := ctx, mode := false, tmo := tmo, start := 0, ord := 0 } s := by
  obtain ⟨hmap, hpoison, hcount⟩ := h
  rw [synPerform, if_neg (by simp [hmap]), if_neg (by simp [hpoison]), if_neg (by simp [hcount])]
  rfl

/-- A wait that is held takes its place in the store, and no other changes (R327). -/
theorem hold_effect (w : Nat) (x : Waiter) (s : State) :
    (hold w x s).waiter w = some { x with ord := s.syn.ord, start := s.now, mode := (s.getCore (w / 64)).mode } ∧
      (∀ k, k ≠ w → (hold w x s).waiter k = s.waiter k) ∧ (hold w x s).syn.obj = s.syn.obj ∧ (hold w x s).syn.grp = s.syn.grp :=
  ⟨setWaiter_self .., fun _ hk => setWaiter_ne _ hk _, setWaiter_obj .., setWaiter_grp ..⟩

end Waits

section Counts
variable {s t : State} {src q ctx o tmo lane w amt : Nat}

theorem countErr_kept (o w ctx kind before : Nat) (s : State) :
    (countErr o w ctx kind before s).syn.obj = s.syn.obj ∧ (countErr o w ctx kind before s).syn.wtr = s.syn.wtr := by
  unfold countErr
  extract_lets s1
  have h1 : s1.syn.obj = s.syn.obj ∧ s1.syn.wtr = s.syn.wtr := by
    simp only [s1, State.onSyn_syn]
    split <;> exact ⟨rfl, rfl⟩
  split
  · rw [(emitSyn_keeps ..).syn_eq rfl]; exact h1
  · exact h1

/-- The status and the value of a count after INC or DEC (R320). -/
def countAfter (inc : Bool) (v amt : Nat) : Nat := if inc then min 65535 (v + amt) else v - amt
def countBad (inc : Bool) (v amt : Nat) : Bool := if inc then decide (65535 < v + amt) else decide (v < amt)

/-- The count as it is before its engine is answered. -/
def counted (w ctx o amt : Nat) (inc : Bool) (s : State) : State :=
  if countBad inc (s.getObj o).value amt then
    countErr o w ctx (b2n inc) (s.getObj o).value (s.updObj o fun y => { y with value := countAfter inc (s.getObj o).value amt })
  else s.updObj o fun y => { y with value := countAfter inc (s.getObj o).value amt }

theorem counted_kept (w ctx o amt : Nat) (inc : Bool) (s : State) :
    (counted w ctx o amt inc s).syn.obj = (s.updObj o fun y => { y with value := countAfter inc (s.getObj o).value amt }).syn.obj ∧
      (counted w ctx o amt inc s).syn.wtr = s.syn.wtr := by
  unfold counted
  split
  · exact ⟨(countErr_kept ..).1, (countErr_kept ..).2⟩
  · exact ⟨rfl, rfl⟩

theorem counted_keeps (w ctx o amt : Nat) (inc : Bool) (s : State) : Keeps [.hm, .hif, .ldg, .syn] s (counted w ctx o amt inc s) := by
  unfold counted
  split
  · exact (countErr_keeps ..).step (by decide) ((State.updObj_keeps ..).mono (by decide))
  · exact (State.updObj_keeps ..).mono (by decide)

theorem countOp_eq (lane w ctx o amt : Nat) (inc : Bool) (s : State) : countOp lane w ctx o amt inc s =
    releaseOn o (epRespond lane (w / 4) (w % 4)
      (if countBad inc (s.getObj o).value amt then (if inc then 0x7005 else 0x7004) else 0)
      (if countBad inc (s.getObj o).value amt then (if inc then 0xFFFF else 0) else countAfter inc (s.getObj o).value amt)
      (counted w ctx o amt inc s)) := rfl

/-- The value that the response of a count carries is the count's. -/
theorem countShown (inc : Bool) (v amt : Nat) :
    (if countBad inc v amt then (if inc then 0xFFFF else 0) else countAfter inc v amt) = countAfter inc v amt := by
  cases inc <;> simp only [countBad, countAfter] <;> split <;> simp_all <;> omega

theorem countOp_effect (inc : Bool) (hw : WaitersOk s) (hcount : (s.getObj o).count = true) (hq : q < 4) :
    let t := countOp lane (4 * src + q) ctx o amt inc s
    let v := countAfter inc (s.getObj o).value amt
    (t.getObj o).value = v ∧
      Responds lane src q (if countBad inc (s.getObj o).value amt then (if inc then 0x7005 else 0x7004) else 0) v s t ∧
      (∀ k x, s.waiter k = some x → x.obj = o → x.op = 7 → x.arg ≤ v → t.waiter k = none) ∧
      (∀ k x, s.waiter k = some x → x.obj ≠ o → t.waiter k = some x) ∧ (∀ k, k ≠ o → t.getObj k = s.getObj k) := by
  intro t v
  have hself : (counted (4 * src + q) ctx o amt inc s).getObj o = { s.getObj o with value := v } := by
    rw [getObj_of_obj (counted_kept ..).1, State.getObj_updObj]
  have hdiv : (4 * src + q) / 4 = src := by omega
  have hmod : (4 * src + q) % 4 = q := by omega
  have heq : t = releaseOn o (epRespond lane src q (if countBad inc (s.getObj o).value amt then (if inc then 0x7005 else 0x7004) else 0)
      v (counted (4 * src + q) ctx o amt inc s)) := by
    simp only [t]
    rw [countOp_eq, hdiv, hmod, countShown]
  obtain ⟨hobj, hrel, hkept, hothers, hans⟩ := releaseOn_effect (u := epRespond lane src q
      (if countBad inc (s.getObj o).value amt then (if inc then 0x7005 else 0x7004) else 0) v (counted (4 * src + q) ctx o amt inc s))
    (o := o) hw (counted_kept ..).2 (fun k hk => by
      rw [← State.getObj_updObj_ne s o _ hk]; exact getObj_of_obj (counted_kept ..).1 k)
  rw [heq]
  have hu : (epRespond lane src q (if countBad inc (s.getObj o).value amt then (if inc then 0x7005 else 0x7004) else 0) v
      (counted (4 * src + q) ctx o amt inc s)).getObj o = { s.getObj o with value := v } := hself
  refine ⟨by rw [hobj, hu], ?_, fun k x hx ho h7 harg => hrel k x hx ho ?_, hkept, hothers⟩
  · exact ((epRespond_responds ..).of_ep ((counted_keeps ..).ep_eq rfl)).of_answers hans
  · rw [hu, objReleases, if_pos hcount]
    simp [h7, harg]

theorem synPerform_count {inc : Bool} (h : MayUse ctx o true s) :
    synPerform lane { src := src, q := q, ctx := ctx, op := if inc then 5 else 6, tmo := 0, obj := o, arg := amt } s =
      countOp lane (4 * src + q) ctx o amt inc s := by
  obtain ⟨hmap, hpoison, hcount⟩ := h
  cases inc <;>
  · rw [synPerform, if_neg (by simp [hmap]), if_neg (by simp [hpoison]), if_neg (by simp [hcount])]
    rfl

end Counts

section Barriers
variable {s t : State} {src q ctx o tmo lane w g : Nat}

theorem releaseWait_ok (h : WaitersOk s) (w val : Nat) : WaitersOk (releaseWait w val s) := by
  rw [WaitersOk, releaseWait_wtr]
  exact Tbl.wf_set h _ _

/-- The common base of a group's members (R322). -/
def baseOf (members : List Nat) (s : State) : Nat := (members.map fun m => (s.getObj m).value).foldl min 65535

/-- The members, each without the common base. -/
def unbased (members : List Nat) (base : Nat) (s : State) : State :=
  forList members (fun m => State.updObj m fun x => { x with value := x.value - base }) s

theorem unbased_kept (members : List Nat) (base : Nat) (s : State) :
    (unbased members base s).syn.wtr = s.syn.wtr ∧ (unbased members base s).syn.grp = s.syn.grp :=
  ⟨forList_eq (·.syn.wtr) _ (f := fun m => State.updObj m fun x => { x with value := x.value - base }) (fun _ _ => by rfl) s,
    forList_eq (·.syn.grp) _ (f := fun m => State.updObj m fun x => { x with value := x.value - base }) (fun _ _ => by rfl) s⟩

theorem unbased_not_mem {members : List Nat} {base m : Nat} (h : m ∉ members) (s : State) :
    (unbased members base s).getObj m = s.getObj m :=
  forList_eq_of_mem (State.getObj · m) (fun j hj u => State.getObj_updObj_ne _ _ _ (by rintro rfl; exact h hj)) s

theorem unbased_mem {members : List Nat} {base m : Nat} (hn : members.Nodup) (h : m ∈ members) (s : State) :
    ((unbased members base s).getObj m).value = (s.getObj m).value - base := by
  have he := forList_entry (State.getObj · m) (f := fun m => State.updObj m fun x => { x with value := x.value - base })
    (g := fun x => { x with value := x.value - base }) (k := m) (fun u => State.getObj_updObj ..)
    (fun j hj u => State.getObj_updObj_ne _ _ _ (Ne.symm hj)) hn s
  rw [if_pos h] at he
  exact congrArg SynObj.value he

/-- A wait on a count loses the base that the count loses. -/
def waitUnbased (base : Nat) (e : Nat × Waiter) (t : State) : State :=
  t.onSyn fun y => { y with wtr := Tbl.set none y.wtr e.1 (some { e.2 with arg := e.2.arg - base }) }

theorem waitUnbased_waiter {e : Nat × Waiter} {k : Nat} (hk : k ≠ e.1) (base : Nat) (t : State) :
    (waitUnbased base e t).waiter k = t.waiter k := by
  have h : (waitUnbased base e t).syn.wtr = Tbl.set none t.syn.wtr e.1 (some { e.2 with arg := e.2.arg - base }) := by rfl
  rw [State.waiter, h, Tbl.get_set_ne _ _ hk, ← State.waiter]

theorem rebase_eq (members : List Nat) (s : State) : rebase members s =
    forList ((unbased members (baseOf members s) s).waits fun _ x => x.op = 7 && members.contains x.obj) (waitUnbased (baseOf members s))
      (unbased members (baseOf members s) s) := rfl

theorem rebase_obj (members : List Nat) (s : State) :
    (rebase members s).syn.obj = (unbased members (baseOf members s) s).syn.obj := by
  rw [rebase_eq]
  exact forList_eq (·.syn.obj) _ (f := waitUnbased (baseOf members s)) (fun _ _ => by rfl) _

theorem rebase_grp (members : List Nat) (s : State) : (rebase members s).syn.grp = s.syn.grp := by
  rw [rebase_eq]
  refine (forList_eq (·.syn.grp) _ (f := waitUnbased (baseOf members s)) (fun _ _ => by rfl) _).trans (unbased_kept ..).2

/-- An entry that holds no wait holds none after. -/
theorem rebase_waiter_none {members : List Nat} {k : Nat} (hw : WaitersOk s) (h : s.waiter k = none) : (rebase members s).waiter k = none := by
  have hu : (unbased members (baseOf members s) s).waiter k = none := by rw [waiter_of_wtr (unbased_kept ..).1, h]
  have hwu : WaitersOk (unbased members (baseOf members s) s) := hw.of_wtr (unbased_kept ..).1
  rw [rebase_eq]
  refine (forList_eq_of_mem (State.waiter · k) (fun e he u => ?_) _).trans hu
  refine waitUnbased_waiter ?_ _ u
  rintro rfl
  obtain ⟨hx, -⟩ := hwu.mem_waits.mp he
  rw [hu] at hx
  cases hx

/-- The arrivals that wait on a group's members. -/
def arrivals (g : Nat) (s : State) : List (Nat × Waiter) := s.waits fun _ x => x.op = 8 && (s.getGrp g).members.contains x.obj

/-- The arrivals are released with the new generation. -/
def arrivalsReleased (g : Nat) (s : State) : State :=
  forList (arrivals g s) (fun e => releaseWait e.1 (((s.getGrp g).gen + 1) % 256)) s

/-- The group as its completion leaves it, before its members lose the base. -/
def completedGrp (gen : Nat) (z : SynGrp) : SynGrp := { z with arrived := 0, gen := gen }

def completed (g : Nat) (s : State) : State :=
  (arrivalsReleased g s).updGrp g (completedGrp (((s.getGrp g).gen + 1) % 256))

theorem barrierComplete_eq (g : Nat) (s : State) : barrierComplete g s = rebase (s.getGrp g).members (completed g s) := rfl

theorem arrivalsReleased_ends (g : Nat) (s : State) : Ends ((arrivals g s).map Prod.fst) s (arrivalsReleased g s) :=
  Ends.forList Prod.fst (fun e u => releaseWait_ends e.1 _ u) (arrivals g s) s

theorem arrivalsReleased_grp (g : Nat) (s : State) : (arrivalsReleased g s).syn.grp = s.syn.grp := by
  rw [arrivalsReleased]
  exact forList_eq (·.syn.grp) _ (f := fun e : Nat × Waiter => releaseWait e.1 (((s.getGrp g).gen + 1) % 256))
    (fun e u => releaseWait_grp e.1 _ u) s

theorem arrivalsReleased_ok (h : WaitersOk s) (g : Nat) : WaitersOk (arrivalsReleased g s) :=
  forList_ind (P := WaitersOk) (fun e _ u hu => releaseWait_ok hu e.1 _) h

theorem updGrp_kept (g : Nat) (f : SynGrp → SynGrp) (s : State) :
    (s.updGrp g f).syn.wtr = s.syn.wtr ∧ (s.updGrp g f).syn.obj = s.syn.obj ∧ (s.updGrp g f).ep = s.ep := ⟨rfl, rfl, rfl⟩

theorem completed_ends (g : Nat) (s : State) : Ends ((arrivals g s).map Prod.fst) s (completed g s) := by
  obtain ⟨hwtr, hobj, hep⟩ := updGrp_kept g (completedGrp (((s.getGrp g).gen + 1) % 256)) (arrivalsReleased g s)
  exact (arrivalsReleased_ends g s).step hwtr hobj (.of_ep hep)

theorem completed_ok (h : WaitersOk s) (g : Nat) : WaitersOk (completed g s) :=
  (arrivalsReleased_ok h g).of_wtr (updGrp_kept ..).1

theorem completed_getGrp (g : Nat) (s : State) : (completed g s).getGrp g = completedGrp (((s.getGrp g).gen + 1) % 256) (s.getGrp g) := by
  rw [completed, State.getGrp_updGrp, getGrp_of_grp (arrivalsReleased_grp g s)]

theorem baseOf_congr {members : List Nat} (h : t.syn.obj = s.syn.obj) : baseOf members t = baseOf members s := by
  simp only [baseOf, getObj_of_obj h]

/-- R321, R322: what the completion of a group leaves. -/
theorem barrierComplete_effect (hw : WaitersOk s) (g : Nat) :
    let t := barrierComplete g s
    t.getGrp g = completedGrp (((s.getGrp g).gen + 1) % 256) (s.getGrp g) ∧
      (∀ k y, s.waiter k = some y → y.op = 8 → y.obj ∈ (s.getGrp g).members → t.waiter k = none) ∧
      (∀ m, m ∉ (s.getGrp g).members → t.getObj m = s.getObj m) ∧
      ((s.getGrp g).members.Nodup → ∀ m ∈ (s.getGrp g).members, (t.getObj m).value =
        (s.getObj m).value - baseOf (s.getGrp g).members s) ∧ Answers s t := by
  intro t
  have hends := completed_ends g s
  have hbase : baseOf (s.getGrp g).members (completed g s) = baseOf (s.getGrp g).members s := baseOf_congr hends.obj
  have hobj : t.syn.obj = (unbased (s.getGrp g).members (baseOf (s.getGrp g).members s) (completed g s)).syn.obj := by
    rw [← hbase]; exact rebase_obj ..
  refine ⟨?_, fun k y hy h8 hm => rebase_waiter_none (s := completed g s) (completed_ok hw g) ?_, fun m hm => ?_, fun hn m hm => ?_, ?_⟩
  · rw [← completed_getGrp]; exact getGrp_of_grp (rebase_grp ..) g
  · rw [hends.waiter, if_pos]
    exact List.mem_map.mpr ⟨(k, y), hw.mem_waits.mpr ⟨hy, by simp [h8, hm]⟩, rfl⟩
  · rw [getObj_of_obj hobj, unbased_not_mem hm, getObj_of_obj hends.obj]
  · rw [getObj_of_obj hobj, unbased_mem hn hm, getObj_of_obj hends.obj]
  · exact hends.answers.trans (.of_ep ((rebase_keeps ..).ep_eq rfl))

theorem arrive_of_early (h : (s.getGrp g).arrived + 1 < (s.getGrp g).p) : arrive lane w ctx tmo o g s =
    hold w { obj := o, op := 8, arg := 0, ctx := ctx, mode := false, tmo := tmo, start := 0, ord := 0 }
      (s.updGrp g fun z => { z with arrived := z.arrived + 1 }) := if_pos h

theorem arrive_of_last (h : (s.getGrp g).p ≤ (s.getGrp g).arrived + 1) : arrive lane w ctx tmo o g s =
    epRespond lane (w / 4) (w % 4) 0 ((barrierComplete g s).getGrp g).gen (barrierComplete g s) := if_neg (by omega)

theorem synPerform_arrive (h : MayUse ctx o true s) (hg : s.groupOf o = some g) :
    synPerform lane { src := src, q := q, ctx := ctx, op := 8, tmo := tmo, obj := o, arg := 0 } s =
      arrive lane (4 * src + q) ctx tmo o g s := by
  obtain ⟨hmap, hpoison, hcount⟩ := h
  rw [synPerform, if_neg (by simp [hmap]), if_neg (by simp [hpoison]), if_neg (by simp [hcount])]
  generalize s.groupOf o = og at hg ⊢
  subst hg
  rfl

end Barriers

/-- The flag after a SET, and what its response shows (Table 12.2). -/
theorem flagged_set_gen (w now : Nat) (x : SynObj) :
    (flagged true w now x).gen = if x.level then x.gen else (x.gen + 1) % 16 := by
  simp only [flagged, Bool.true_and]
  cases x.level <;> rfl

/-- Settles O33. -/
theorem flagsCountsAndBarriers : Obligations.FlagsCountsAndBarriers := by
  constructor
  · intro s src q ctx o tmo hacc huse hw x lane g w
    have hcount : x.count = false := huse.2.2
    have hshown : x.shown = b2n x.level + 16 * x.gen := if_neg (by simp [hcount])
    refine ⟨?_, ?_, fun hl => ?_, fun hl => ?_, ?_⟩
    · obtain ⟨hobj, hresp, hrel, hkept, hothers⟩ := flagDone_effect (o := o) (src := src) (q := q) (lane := lane) true hw hcount
      have hgen := flagged_set_gen (4 * src.val + q.val) s.now x
      refine ⟨_, (engineReq_of_accepts hacc (by decide) rfl).trans (congrArg _ (synPerform_set huse)), ?_, ?_, ?_,
        fun k y hy ho h3 => hrel k y hy ho ?_, hkept, hothers, (flagDone_keeps ..).only⟩
      · rw [hobj]; rfl
      · rw [hobj]; exact hgen
      · rw [hgen] at hresp
        have hval : b2n true + 16 * (if x.level then x.gen else (x.gen + 1) % 16) + (if true ≠ x.level then 256 else 0) =
            1 + 16 * g + (if x.level then 0 else 256) := by
          cases hx : x.level <;> simp [g, hx, b2n]
        rw [← hval]
        exact hresp
      · simp [flagReleases, h3, flagged]
    · obtain ⟨hobj, hresp, hrel, hkept, hothers⟩ := flagDone_effect (o := o) (src := src) (q := q) (lane := lane) false hw hcount
      refine ⟨_, (engineReq_of_accepts hacc (by decide) rfl).trans (congrArg _ (synPerform_clear huse)), ?_, ?_, ?_,
        fun k y hy ho h4 => hrel k y hy ho ?_, hkept, hothers, (flagDone_keeps ..).only⟩
      · rw [hobj]; rfl
      · rw [hobj]; rfl
      · have hval : b2n false + 16 * x.gen + (if false ≠ x.level then 256 else 0) = 16 * x.gen + (if x.level then 256 else 0) := by
          cases hx : x.level <;> simp [b2n]
        rw [← hval]
        exact hresp
      · simp [flagReleases, h4, flagged]
    · refine (engineReq_of_accepts hacc (by decide) rfl).trans (congrArg _ ((synPerform_waitSet huse).trans ?_))
      rw [if_pos hl, show (s.getObj o).shown = 1 + 16 * x.gen by rw [hshown, hl]; rfl]
    · refine (engineReq_of_accepts hacc (by decide) rfl).trans (congrArg _ ((synPerform_waitClear huse).trans ?_))
      rw [if_neg (by simp [show (s.getObj o).level = false from hl]),
        show (s.getObj o).shown = 16 * x.gen by rw [hshown, hl]; simp [b2n]]
    · rintro c op (⟨hl, rfl, rfl⟩ | ⟨hl, rfl, rfl⟩)
      · obtain ⟨hself, hothers, hobj, -⟩ := hold_effect w
          { obj := o, op := 3, arg := x.gen, ctx := ctx, mode := false, tmo := tmo, start := 0, ord := 0 } s
        refine ⟨_, (engineReq_of_accepts hacc (by decide) rfl).trans (congrArg _ ((synPerform_waitSet huse).trans
          (if_neg (by simp [show (s.getObj o).level = false from hl])))), hself, hothers, hobj, (hold_keeps ..).only⟩
      · obtain ⟨hself, hothers, hobj, -⟩ := hold_effect w
          { obj := o, op := 4, arg := x.gen, ctx := ctx, mode := false, tmo := tmo, start := 0, ord := 0 } s
        exact ⟨_, (engineReq_of_accepts hacc (by decide) rfl).trans (congrArg _ ((synPerform_waitClear huse).trans (if_pos hl))),
          hself, hothers, hobj, (hold_keeps ..).only⟩
  · intro s src q ctx o n tmo hacc huse hw v lane w
    have hcount : (s.getObj o).count = true := huse.2.2
    have hdiv : w / 4 = src.val := by omega
    have hmod : w % 4 = q.val := by omega
    refine ⟨?_, ?_, fun hn => ?_, fun hn => ?_, fun g hg => ⟨fun hearly => ?_, fun hlast => ?_⟩⟩
    · obtain ⟨hval, hresp, hrel, hkept, hothers⟩ :=
        countOp_effect (ctx := ctx) (amt := n) (src := src) (lane := lane) true hw hcount q.isLt
      refine ⟨_, (engineReq_of_accepts hacc (by decide) rfl).trans (congrArg _ (synPerform_count (inc := true) huse)), hval, ?_,
        hrel, hkept, hothers, (countOp_keeps ..).only⟩
      have hst : (if countBad true v n then 0x7005 else 0) = if v + n ≤ 65535 then 0 else 0x7005 := by
        simp only [countBad]
        split <;> split <;> simp_all
      rw [← hst]
      exact hresp
    · obtain ⟨hval, hresp, -, -, hothers⟩ :=
        countOp_effect (ctx := ctx) (amt := n) (src := src) (lane := lane) false hw hcount q.isLt
      refine ⟨_, (engineReq_of_accepts hacc (by decide) rfl).trans (congrArg _ (synPerform_count (inc := false) huse)), hval, ?_,
        hothers, (countOp_keeps ..).only⟩
      have hst : (if countBad false v n then 0x7004 else 0) = if n ≤ v then 0 else 0x7004 := by
        simp only [countBad]
        split <;> split <;> simp_all
      rw [← hst]
      exact hresp
    · exact (engineReq_of_accepts hacc (by decide) rfl).trans (congrArg _ ((synPerform_waitGe huse).trans (if_pos hn)))
    · obtain ⟨hself, hothers, hobj, -⟩ := hold_effect w
        { obj := o, op := 7, arg := n, ctx := ctx, mode := false, tmo := tmo, start := 0, ord := 0 } s
      exact ⟨_, (engineReq_of_accepts hacc (by decide) rfl).trans (congrArg _ ((synPerform_waitGe huse).trans
        (if_neg (Nat.not_le.mpr hn)))), hself, hothers, hobj, (hold_keeps ..).only⟩
    · obtain ⟨hself, hothers, hobj, hgrp⟩ := hold_effect w
        { obj := o, op := 8, arg := 0, ctx := ctx, mode := false, tmo := tmo, start := 0, ord := 0 }
        (s.updGrp g fun z => { z with arrived := z.arrived + 1 })
      refine ⟨_, (engineReq_of_accepts hacc (by decide) rfl).trans (congrArg _ ((synPerform_arrive huse hg).trans
        (arrive_of_early hearly))), ?_, ?_, ?_, hothers, hobj, ?_⟩
      · rw [getGrp_of_grp hgrp, State.getGrp_updGrp]
      · rw [hself]; rfl
      · rw [hself]; rfl
      · exact ((hold_keeps ..).step (by decide) ((State.updGrp_keeps ..).mono (by decide))).only
    · obtain ⟨hgrp, hrel, hnot, hmem, hans⟩ := barrierComplete_effect hw g
      have hgen : ((barrierComplete g s).getGrp g).gen = ((s.getGrp g).gen + 1) % 256 := by rw [hgrp]; rfl
      refine ⟨_, (engineReq_of_accepts hacc (by decide) rfl).trans (congrArg _ ((synPerform_arrive huse hg).trans
        (arrive_of_last hlast))), ?_, ?_, hrel, hnot, hmem, ?_, ?_⟩
      · exact congrArg SynGrp.arrived hgrp
      · exact hgen
      · obtain ⟨l, hl⟩ := hans lane
        refine ⟨l, ?_⟩
        rw [epRespond_self, hgen, ← hl, hdiv, hmod]
      · exact ((epRespond_keeps ..).step (by decide) (barrierComplete_keeps ..)).only

end Sys2Proof.Machine
end

section
/-!
Requests that are refused, withheld or taken, the failing of waits (R40–R44, R317, R326–R331), and Escrow's lends (R336–R340).
-/
namespace Sys2Proof.Machine

section Refused
variable {s t : State} {lane : Nat} {r : EpReq}

/-- A malformed request. -/
def Malformed (s : State) (r : EpReq) : Prop := s.engineOk r.src = false ∨ epFieldsOk r = false

theorem Malformed.not_ok (h : Malformed s r) : (s.engineOk r.src && epFieldsOk r) = false := by
  obtain h | h := h <;> simp [h]

theorem epProcess_of_malformed (h : Malformed s r) : epProcess lane r s = epRespond lane r.src r.q 0x7001 0 s := by
  refine if_pos ?_
  obtain h | h := h <;> simp [h]

theorem epRequest_of_malformed (h : Malformed s r) (hbusy : s.queueBusy lane r.src r.q = false) (hroom : (s.getEp lane).resp.length < 64) :
    epRequest lane r s = epRespond lane r.src r.q 0x7001 0 s := by
  rw [epRequest, if_neg (by simp [hbusy]), if_neg (by omega), epProcess_of_malformed h]

theorem epRequest_of_busy (hbusy : s.queueBusy lane r.src r.q = true) : epRequest lane r s = s := if_pos hbusy

theorem epRequest_of_full (hbusy : s.queueBusy lane r.src r.q = false) (hfull : 64 ≤ (s.getEp lane).resp.length) :
    epRequest lane r s = s.updEp lane fun l => { l with withheld := l.withheld ++ [r] } := by
  rw [epRequest, if_neg (by simp [hbusy]), if_pos hfull]

/-- The command of a malformed request presents it, and a request that is not malformed does nothing. -/
theorem malformedRequest_eq {lane : ClusterId} (hlive : s.live = true) (h : Malformed s r) (hf : epRequest lane r s = t) :
    exec (.malformedRequest lane r) s = .next t :=
  act_eq (f := fun t => if t.engineOk r.src && epFieldsOk r then t else epRequest lane.val r t) hlive
    ((if_neg (by simp [h.not_ok])).trans hf)

/-- The lane after the host has taken a response. -/
def laneTaken (lane : Nat) (s : State) : State := s.updEp lane fun l => { l with resp := l.resp.tail }

theorem laneTaken_getEp (lane : Nat) (s : State) :
    (laneTaken lane s).getEp lane = { s.getEp lane with resp := (s.getEp lane).resp.tail } := State.getEp_updEp ..

theorem epTaken_of_none (h : (s.getEp lane).withheld = []) : epTaken lane s = laneTaken lane s := by
  have hn : ((laneTaken lane s).getEp lane).withheld.length = 0 := by rw [laneTaken_getEp, h]; rfl
  calc epTaken lane s = epDrain lane ((laneTaken lane s).getEp lane).withheld.length (laneTaken lane s) := rfl
    _ = _ := by rw [hn]; rfl

theorem epTaken_of_one (h : (s.getEp lane).withheld = [r]) (hroom : (s.getEp lane).resp.tail.length < 64) :
    epTaken lane s = epProcess lane r ((laneTaken lane s).updEp lane fun l => { l with withheld := [] }) := by
  have hw : ((laneTaken lane s).getEp lane).withheld = [r] := by rw [laneTaken_getEp, h]
  have hr : ¬ 64 ≤ ((laneTaken lane s).getEp lane).resp.length := by rw [laneTaken_getEp]; simp only; omega
  calc epTaken lane s = epDrain lane ((laneTaken lane s).getEp lane).withheld.length (laneTaken lane s) := rfl
    _ = epDrain lane 1 (laneTaken lane s) := by rw [hw]; rfl
    _ = _ := by
      rw [epDrain, hw]
      exact if_neg hr

theorem synPerform_unmapped (h : s.mapHas r.ctx (r.obj / 64) = false) :
    synPerform lane r s = epRespond lane r.src r.q 0x7002 0 (mapViolation r s) := by
  rw [synPerform, if_pos (by simp [h])]

theorem synPerform_poisoned (h : s.mapHas r.ctx (r.obj / 64) = true) (hp : (s.getObj r.obj).poison = true) :
    synPerform lane r s = epRespond lane r.src r.q 0x700A 0 s := by
  rw [synPerform, if_neg (by simp [h]), if_pos hp]

theorem mapViolation_syn (r : EpReq) (s : State) : (mapViolation r s).syn.viol = satInc 16 s.syn.viol ∧
    (mapViolation r s).syn.obj = s.syn.obj ∧ (mapViolation r s).syn.wtr = s.syn.wtr := by
  unfold mapViolation
  extract_lets s1
  split
  · rw [(emitSyn_keeps ..).syn_eq rfl]; exact ⟨rfl, rfl, rfl⟩
  · exact ⟨rfl, rfl, rfl⟩

end Refused

section Fail
variable {s t : State} {w k o : Nat} {x : Waiter}

theorem synTimeout_of_late (h : s.waiter w = some x) (hm : x.mode = false) (hlate : x.start + s.syn.tmo.getD x.tmo 0 * 1000 ≤ s.now) :
    synTimeout w s = failWait 0x7006 w s := by
  unfold synTimeout
  rw [h]
  refine if_pos ?_
  rw [hm]
  exact decide_eq_true hlate

theorem synTimeout_of_early (h : s.waiter w = some x) (hearly : x.mode = true ∨ s.now < x.start + s.syn.tmo.getD x.tmo 0 * 1000) :
    synTimeout w s = s := by
  unfold synTimeout
  rw [h]
  refine if_neg fun hc => ?_
  rw [Bool.and_eq_true] at hc
  obtain ⟨hc1, hc2⟩ := hc
  obtain hm | hlt := hearly
  · rw [hm] at hc1; cases hc1
  · exact absurd (of_decide_eq_true hc2) (Nat.not_le.mpr hlt)

/-- The failure of a wait is answered on the lane of its core, and counted. -/
theorem failWait_answer {stat : Nat} (h : s.waiter w = some x) :
    Responds (s.coreClu (w / 64)) (w / 4) (w % 4) stat (if stat = 0x7006 then (s.getObj x.obj).shown else 0) s (failWait stat w s) ∧
      (failWait stat w s).syn.failed = satInc 16 s.syn.failed := by
  have hk : Keeps [.hm, .hif, .ldg, .trs, .syn] s (setWaiter w none (withdraw x (reportFail w stat x s))) :=
    (setWaiter_keeps ..).step (by decide) ((withdraw_keeps ..).step (by decide) ((reportFail_keeps ..).mono (by decide)))
  have hclu : (setWaiter w none (withdraw x (reportFail w stat x s))).coreClu (w / 64) = s.coreClu (w / 64) := by
    simp only [State.coreClu, hk.clusters_eq rfl, State.cluCfg, hk.cfg_eq rfl]
  rw [failWait_of_some h, waitRespond, hclu]
  refine ⟨(epRespond_responds ..).of_ep (hk.ep_eq rfl), ?_⟩
  have hfail : (setWaiter w none (withdraw x (reportFail w stat x s))).syn.failed = (withdraw x (reportFail w stat x s)).syn.failed :=
    (congrArg Sync.failed (setWaiter_coreless w none _) :)
  calc _ = (setWaiter w none (withdraw x (reportFail w stat x s))).syn.failed := rfl
    _ = _ := by rw [hfail, (withdraw_kept ..).2.2, (reportFail_kept ..).2.2]

/-- Of the waits of `l`, of which each satisfies `p`, those end; every other wait stands. -/
theorem Ends.of_waits {p : Nat → Waiter → Bool} (hw : WaitersOk s) (h : Ends ((s.waits p).map Prod.fst) s t) :
    (∀ k y, s.waiter k = some y → p k y = true → t.waiter k = none) ∧
      (∀ k y, s.waiter k = some y → p k y = false → t.waiter k = some y) := by
  refine ⟨fun k y hy hp => ?_, fun k y hy hp => ?_⟩
  · rw [h.waiter, if_pos]
    exact List.mem_map.mpr ⟨(k, y), hw.mem_waits.mpr ⟨hy, hp⟩, rfl⟩
  · rw [h.waiter, if_neg, hy]
    intro hm
    obtain ⟨⟨j, z⟩, hz, rfl⟩ := List.mem_map.mp hm
    obtain ⟨hz, hpz⟩ := hw.mem_waits.mp hz
    rw [hy] at hz
    cases hz
    rw [hp] at hpz
    cases hpz

/-- The watchdog-mode waits of a core fail. -/
def watchdogFails (k : Nat) (s : State) : State :=
  forList (s.waits fun w x => w / 64 = k && x.mode) (fun e => failWait 0x7007 e.1) s

theorem watchdogFails_ends (k : Nat) (s : State) :
    Ends ((s.waits fun w x => w / 64 = k && x.mode).map Prod.fst) s (watchdogFails k s) :=
  Ends.forList Prod.fst (fun e u => failWait_ends 0x7007 e.1 u) _ s

theorem updCore_kept (k : Nat) (f : SynCore → SynCore) (s : State) :
    (s.updCore k f).syn.wtr = s.syn.wtr ∧ (s.updCore k f).syn.obj = s.syn.obj ∧ (s.updCore k f).ep = s.ep := ⟨rfl, rfl, rfl⟩

theorem updObj_wtr (o : Nat) (f : SynObj → SynObj) (s : State) : (s.updObj o f).syn.wtr = s.syn.wtr := rfl

/-- The watchdog has fired. -/
def wdFired (x : SynCore) : SynCore := { x with wdFired := true }

theorem synWatchdog_of_late {t0 : Nat} (h : (s.getCore k).wd = some t0) (hlate : t0 + (s.getCore k).wdMs * 1000000 ≤ s.now) :
    synWatchdog k s = emitSyn 0x7011 k (s.waits fun w x => w / 64 = k && x.mode).length (s.getCore k).wdMs 0
      ((watchdogFails k s).updCore k wdFired) := by
  unfold synWatchdog
  rw [h]
  exact if_neg (Nat.not_lt.mpr hlate)

theorem synWatchdog_of_early {t0 : Nat} (h : (s.getCore k).wd = some t0) (hearly : s.now < t0 + (s.getCore k).wdMs * 1000000) :
    synWatchdog k s = s := by
  unfold synWatchdog
  rw [h]
  exact if_pos hearly

theorem synWatchdog_ends {t0 : Nat} (h : (s.getCore k).wd = some t0) (hlate : t0 + (s.getCore k).wdMs * 1000000 ≤ s.now) :
    Ends ((s.waits fun w x => w / 64 = k && x.mode).map Prod.fst) s (synWatchdog k s) ∧ ((synWatchdog k s).getCore k).wdFired = true := by
  rw [synWatchdog_of_late h hlate]
  have he := emitSyn_keeps 0x7011 k (s.waits fun w x => w / 64 = k && x.mode).length (s.getCore k).wdMs 0
    ((watchdogFails k s).updCore k wdFired)
  have hsyn := he.syn_eq rfl
  obtain ⟨hwtr, hobj, hep⟩ := updCore_kept k wdFired (watchdogFails k s)
  refine ⟨(watchdogFails_ends k s).step ?_ ?_ (.of_ep ?_), ?_⟩
  · exact (congrArg Sync.wtr hsyn).trans hwtr
  · exact (congrArg Sync.obj hsyn).trans hobj
  · exact (he.ep_eq rfl).trans hep
  · rw [getCore_of_syn hsyn, State.getCore_updCore]; rfl

/-- An object is poisoned by an uncorrectable error (R317). -/
def poisoned (o : Nat) (s : State) : State := emitSyn 0x7017 o (o % 16) 0 0 (s.updObj o fun x => { x with poison := true })

theorem synEcc_of_bad (o : Nat) (s : State) : synEcc o false s =
    forList ((poisoned o s).waits fun _ x => x.obj = o) (fun e => failWait 0x700A e.1) (poisoned o s) := rfl

theorem poisoned_syn (o : Nat) (s : State) : (poisoned o s).syn = (s.updObj o fun x => { x with poison := true }).syn :=
  (emitSyn_keeps ..).syn_eq rfl

theorem synEcc_ends (o : Nat) (s : State) :
    Ends (((poisoned o s).waits fun _ x => x.obj = o).map Prod.fst) (poisoned o s) (synEcc o false s) := by
  rw [synEcc_of_bad]
  exact Ends.forList Prod.fst (fun e u => failWait_ends 0x700A e.1 u) _ _

end Fail

/-- Settles O34. -/
theorem requestsRefusedAndWaitsFail : Obligations.RequestsRefusedAndWaitsFail := by
  constructor
  · intro s lane r src q ctx o hlive
    refine ⟨fun h hbusy hroom => malformedRequest_eq hlive h (epRequest_of_malformed h hbusy hroom), fun hok hf => ?_,
      fun h hbusy => malformedRequest_eq hlive h (epRequest_of_busy hbusy),
      fun h hbusy hfull => malformedRequest_eq hlive h (epRequest_of_full hbusy hfull),
      fun h => act_eq hlive (epTaken_of_none h), fun h hroom => act_eq hlive (epTaken_of_one h hroom), fun hacc hmap => ?_,
      fun hacc hmap hp => ?_⟩
    · exact act_eq (f := fun t => if t.engineOk r.src && epFieldsOk r then t else epRequest lane.val r t) hlive (if_pos (by simp [hok, hf]))
    · obtain ⟨hviol, hobj, hwtr⟩ :=
        mapViolation_syn { src := src.val, q := q.val, ctx := ctx.val, op := 1, tmo := 0, obj := o.val, arg := 0 } s
      refine ⟨_, (engineReq_of_accepts hacc (by decide) rfl).trans (congrArg _ (synPerform_unmapped hmap)), ?_, hviol, hobj, hwtr, ?_⟩
      · exact (epRespond_responds ..).of_ep ((mapViolation_keeps ..).ep_eq rfl)
      · exact ((epRespond_keeps ..).step (by decide) ((mapViolation_keeps ..).mono (by decide))).only
    · exact (engineReq_of_accepts hacc (by decide) rfl).trans (congrArg _ (synPerform_poisoned hmap hp))
  · intro s w k o hlive hw
    refine ⟨fun x hx hm => ⟨fun hlate => ?_, fun hearly => act_eq hlive (synTimeout_of_early hx (.inr hearly))⟩,
      fun x hx hm => act_eq hlive (synTimeout_of_early hx (.inl hm)),
      fun t0 ht0 => ⟨fun hlate => ?_, fun hearly => act_eq hlive (synWatchdog_of_early ht0 hearly)⟩, ?_, ?_⟩
    · have hends := failWait_ends 0x7006 w.val s
      obtain ⟨hresp, hfailed⟩ := failWait_answer (stat := 0x7006) hx
      refine ⟨_, act_eq hlive (synTimeout_of_late hx hm hlate), ?_, hresp, fun j hj => ?_, hends.obj, hfailed, (failWait_keeps ..).only⟩
      · rw [hends.waiter, if_pos (by simp)]
      · rw [hends.waiter, if_neg (by simpa using hj)]
    · obtain ⟨hends, hfired⟩ := synWatchdog_ends ht0 hlate
      obtain ⟨hgone, hkept⟩ := hends.of_waits hw
      refine ⟨_, act_of_live hlive (synWatchdog k.val), hfired, fun j x hx hj hm => hgone j x hx (by simp [hj, hm]),
        fun j x hx hj => hkept j x hx ?_, hends.obj, (synWatchdog_keeps ..).only⟩
      obtain hj | hj := hj <;> simp [hj]
    · have hends := synEcc_ends o.val s
      have hsyn := poisoned_syn o.val s
      have hwtr : (poisoned o.val s).syn.wtr = s.syn.wtr := (congrArg Sync.wtr hsyn).trans (updObj_wtr ..)
      have hwp : WaitersOk (poisoned o.val s) := hw.of_wtr hwtr
      have hwait : ∀ j, (poisoned o.val s).waiter j = s.waiter j := waiter_of_wtr hwtr
      obtain ⟨hgone, hkept⟩ := hends.of_waits hwp
      refine ⟨_, act_of_live hlive (synEcc o.val false), ?_, fun j x hx ho => hgone j x (by rw [hwait, hx]) (by simp [ho]),
        fun j x hx ho => hkept j x (by rw [hwait, hx]) (by simp [ho]), fun j hj => ?_, (synEcc_keeps ..).only⟩
      · rw [getObj_of_obj hends.obj, getObj_of_syn hsyn, State.getObj_updObj]
      · rw [getObj_of_obj hends.obj, getObj_of_syn hsyn, State.getObj_updObj_ne _ _ _ hj]
    · exact act_eq (f := synEcc o.val true) hlive rfl

end Sys2Proof.Machine
end

section
/-!
Escrow lends the budget of waiting cores, reclaims it, and takes its registers (R328, R336–R340).
-/
namespace Sys2Proof.Machine

section Cores
variable {s t : State} {j k : Nat}

/-- What the registers of a core hold. -/
def SynCore.regs (x : SynCore) : Bool × Bool × Nat × Nat := (x.mode, x.escEn, x.qmask, x.wdMs)

/-- A core whose loan is reclaimed. -/
def SynCore.reclaim (now : Nat) (x : SynCore) : SynCore := { x with lent := none, loan := 0, taken := false, reclaimed := some now }

theorem reclaimCore_core (cause c k : Nat) (s : State) : (reclaimCore cause c k s).syn.core =
    if (s.getCore k).lent.isSome then (s.updCore k (SynCore.reclaim s.now)).syn.core else s.syn.core := by
  unfold reclaimCore
  dsimp only
  split
  · next h => rw [h]; rfl
  · next t0 h =>
    rw [h, if_pos (Option.isSome_some (a := t0))]
    split <;> split
    · rw [(emitSyn_keeps ..).syn_eq rfl]; rfl
    · rw [(emitSyn_keeps ..).syn_eq rfl]; rfl
    · rfl
    · rfl

theorem reclaimCore_ne (cause c : Nat) (h : j ≠ k) (s : State) : (reclaimCore cause c k s).getCore j = s.getCore j := by
  have hc := reclaimCore_core cause c k s
  split at hc
  · rw [getCore_of_core hc, State.getCore_updCore_ne _ _ _ h]
  · rw [getCore_of_core hc]

theorem reclaimCore_self (cause c k : Nat) (s : State) : ((reclaimCore cause c k s).getCore k).lent = none ∧
    ((reclaimCore cause c k s).getCore k).regs = (s.getCore k).regs := by
  have hc := reclaimCore_core cause c k s
  split at hc
  · rw [getCore_of_core hc, State.getCore_updCore]
    exact ⟨rfl, rfl⟩
  · next h =>
    rw [getCore_of_core hc]
    exact ⟨by simpa using h, rfl⟩

/-- A reclaim leaves a core without a loan as it is. -/
theorem reclaimCore_lent (cause c k : Nat) (h : (s.getCore j).lent = none) : ((reclaimCore cause c k s).getCore j).lent = none := by
  by_cases e : j = k
  · subst e; exact (reclaimCore_self ..).1
  · rwa [reclaimCore_ne _ _ e]

theorem coreUpdate_ne (h : j ≠ k) (s : State) : (coreUpdate k s).getCore j = s.getCore j := by
  unfold coreUpdate
  extract_lets w d s1
  have h1 : s1.getCore j = s.getCore j := State.getCore_updCore_ne _ _ _ h
  split
  · exact h1
  · rw [reclaimCore_ne _ _ h, h1]

theorem coreUpdate_self (k : Nat) (s : State) : ((coreUpdate k s).getCore k).regs = (s.getCore k).regs ∧
    ((s.getCore k).lent = none → ((coreUpdate k s).getCore k).lent = none) := by
  unfold coreUpdate
  extract_lets w d s1
  have h1 : (s1.getCore k).regs = (s.getCore k).regs ∧ (s1.getCore k).lent = (s.getCore k).lent := by
    rw [State.getCore_updCore]
    exact ⟨rfl, rfl⟩
  split
  · exact ⟨h1.1, fun h => h1.2.trans h⟩
  · exact ⟨(reclaimCore_self ..).2.trans h1.1, fun _ => (reclaimCore_self ..).1⟩

end Cores

section Lend
variable {s : State} {k : Nat}

/-- A core that lends its budget (R336). -/
def lending (now amt : Nat) (x : SynCore) : SynCore := { x with lent := some now, loan := amt, taken := false }

theorem escrowLend_of_not (h : s.mayLend k = false) : escrowLend k s = s := if_neg (by simp [h])

theorem escrowLend_syn (h : s.mayLend k = true) : (escrowLend k s).syn =
    ((s.updCore k (lending s.now (s.lendAmt (s.coreClu k)))).onSyn fun y => { y with lends := satInc 16 y.lends }).syn := by
  unfold escrowLend
  rw [if_pos h]
  extract_lets a s1
  split
  · rw [(emitSyn_keeps ..).syn_eq rfl]; rfl
  · rfl

end Lend

section Registers
variable {s : State} {v : Nat}

/-- What a write of `SYN_CORE_CFG` leaves in the core's registers (R328). -/
def coreRegs (v : Nat) (x : SynCore) : SynCore := { x with mode := bitOf v 0, escEn := bitOf v 1, qmask := bits v 2 4, wdMs := bits v 16 16 }

def coreSet (v : Nat) (s : State) : State := (waitMark s.syn.coreSel s).updCore s.syn.coreSel (coreRegs v)

/-- Without `ESC_EN` the core's loan ends. -/
def coreEscrow (v k : Nat) (s : State) : State := if bitOf v 1 then s else reclaimCore 2 (s.coreClu k) k s

theorem synCoreCfg_refused (h : bits v 2 4 = 0 ∨ bits v 16 16 = 0) : synCoreCfg v s = synRes 0x700D s := if_pos h

theorem synCoreCfg_taken (h1 : bits v 2 4 ≠ 0) (h2 : bits v 16 16 ≠ 0) :
    synCoreCfg v s = synRes 0 (coreUpdate s.syn.coreSel (coreEscrow v s.syn.coreSel (coreSet v s))) := by
  unfold synCoreCfg
  extract_lets k s1 s2
  rw [if_neg (by tauto)]
  rfl

theorem coreSet_self (v : Nat) (s : State) :
    ((coreSet v s).getCore s.syn.coreSel).regs = (bitOf v 0, bitOf v 1, bits v 2 4, bits v 16 16) := by
  rw [coreSet, State.getCore_updCore]; rfl

theorem coreSet_ne {j : Nat} (v : Nat) (h : j ≠ s.syn.coreSel) : (coreSet v s).getCore j = s.getCore j := by
  rw [coreSet, State.getCore_updCore_ne _ _ _ h, waitMark, State.getCore_updCore_ne _ _ _ h]

theorem coreEscrow_self (v k : Nat) (s : State) : ((coreEscrow v k s).getCore k).regs = (s.getCore k).regs ∧
    (bitOf v 1 = false → ((coreEscrow v k s).getCore k).lent = none) := by
  unfold coreEscrow
  split
  · next h => exact ⟨rfl, fun hn => by simp [hn] at h⟩
  · exact ⟨(reclaimCore_self ..).2, fun _ => (reclaimCore_self ..).1⟩

theorem coreEscrow_ne {j k : Nat} (v : Nat) (h : j ≠ k) (s : State) : (coreEscrow v k s).getCore j = s.getCore j := by
  unfold coreEscrow
  split
  · rfl
  · exact reclaimCore_ne _ _ h s

theorem coreEscrow_coreless (v k : Nat) (s : State) : (coreEscrow v k s).syn.coreless = s.syn.coreless := by
  unfold coreEscrow
  split
  · rfl
  · exact reclaimCore_coreless ..

theorem synRes_getCore (r j : Nat) (s : State) : (synRes r s).getCore j = s.getCore j := rfl

theorem synCoreCfg_wtr (h1 : bits v 2 4 ≠ 0) (h2 : bits v 16 16 ≠ 0) : (synCoreCfg v s).syn.wtr = s.syn.wtr := by
  rw [synCoreCfg_taken h1 h2]
  have h := (coreUpdate_coreless s.syn.coreSel (coreEscrow v s.syn.coreSel (coreSet v s))).trans
    (coreEscrow_coreless v s.syn.coreSel (coreSet v s))
  exact (congrArg Sync.wtr h :)

theorem reclaimClu_lent {j : Nat} (cause c : Nat) (h : (s.getCore j).lent = none) : ((reclaimClu cause c s).getCore j).lent = none :=
  forList_ind (P := fun u => (u.getCore j).lent = none) (fun k _ _ hu => reclaimCore_lent cause c k hu) h

/-- Every core of the clusters has its loan reclaimed (R338). -/
theorem reclaimAll_lent {c j : Nat} (hc : c ∈ s.clusters) (hj : j ∈ s.cluCores c) :
    ((forList s.clusters (reclaimClu 2) s).getCore j).lent = none := by
  refine forList_est_of (P := fun u => (u.getCore j).lent = none) (Q := fun u => u.cfg = s.cfg) hc
    (fun a u hu => ((reclaimClu_keeps ..).cfg_eq rfl).trans hu) (fun a u _ hu => reclaimClu_lent 2 a hu) (fun u hu => ?_) rfl
  have hcores : u.cluCores c = s.cluCores c := by simp only [State.cluCores, State.cluCfg, hu]
  rw [reclaimClu, hcores]
  exact forList_est (P := fun v => (v.getCore j).lent = none) hj (fun a v hv => reclaimCore_lent 2 c a hv) (fun v => (reclaimCore_self ..).1) u

/-- `EN` as a write of `SYN_ESC_CFG` leaves it (R386). -/
def escEnabled (v : Nat) (s : State) : Bool := if s.feat 2 then bitOf v 8 else s.syn.en

def escReclaimed (v : Nat) (s : State) : State := if escEnabled v s then s else forList s.clusters (reclaimClu 2) s

theorem escCfg_refused (h : bits v 0 8 < 4) : escCfg v s = synRes 0x700D s := if_pos h

theorem escCfg_taken (h : 4 ≤ bits v 0 8) : escCfg v s = (escReclaimed v s).onSyn fun y =>
    { y with tlend := bits v 0 8, en := escEnabled v s, log := bitOf v 9, res := 0 } := if_neg (by omega)

end Registers

/-- Settles O35. -/
theorem escrowLendsAndReclaims : Obligations.EscrowLendsAndReclaims := by
  intro s k v
  refine ⟨fun hlive => ⟨fun h => ?_, fun h => act_eq hlive (escrowLend_of_not h)⟩, fun hemu =>
    ⟨fun h => hsEmu_eq hemu (synCoreCfg_refused h), fun h1 h2 => ?_, fun h => hsEmu_eq hemu (escCfg_refused h), fun h hf => ?_, fun h hf => ?_,
      hsEmu_eq hemu rfl⟩⟩
  · have hsyn := escrowLend_syn h
    have hcore : ∀ j, (escrowLend k s).getCore j = (s.updCore k (lending s.now (s.lendAmt (s.coreClu k)))).getCore j :=
      fun j => getCore_of_syn hsyn j
    refine ⟨_, act_of_live hlive (escrowLend k.val), ?_, ?_, ?_, ?_, fun j hj => ?_, (escrowLend_keeps ..).only⟩
    · rw [hcore, State.getCore_updCore]; rfl
    · rw [hcore, State.getCore_updCore]; rfl
    · rw [hcore, State.getCore_updCore]; rfl
    · exact congrArg Sync.lends hsyn
    · rw [hcore, State.getCore_updCore_ne _ _ _ hj]
  · have heq := synCoreCfg_taken (s := s) h1 h2
    have hans := hsAnswer_keeps 0 0 (synCoreCfg v.toNat s)
    have hcore : ∀ j, (hsAnswer 0 0 (synCoreCfg v.toNat s)).getCore j =
        (coreUpdate s.syn.coreSel (coreEscrow v.toNat s.syn.coreSel (coreSet v.toNat s))).getCore j := fun j => by
      rw [getCore_of_syn (hans.syn_eq rfl), heq, synRes_getCore]
    have hregs : ((hsAnswer 0 0 (synCoreCfg v.toNat s)).getCore s.syn.coreSel).regs =
        (bitOf v.toNat 0, bitOf v.toNat 1, bits v.toNat 2 4, bits v.toNat 16 16) := by
      rw [hcore, (coreUpdate_self ..).1, (coreEscrow_self ..).1, coreSet_self]
    simp only [SynCore.regs, Prod.mk.injEq] at hregs
    obtain ⟨hmode, hesc, hq, hwd⟩ := hregs
    refine ⟨_, hsEmu_eq hemu rfl, ?_, hmode, hesc, hq, hwd, fun hn => ?_, ?_, fun j hj => ?_, ?_⟩
    · rw [hans.syn_eq rfl, heq]; rfl
    · rw [hcore]; exact (coreUpdate_self ..).2 ((coreEscrow_self ..).2 hn)
    · rw [hans.syn_eq rfl, synCoreCfg_wtr h1 h2]
    · rw [hcore, coreUpdate_ne hj, coreEscrow_ne _ hj, coreSet_ne _ hj]
    · exact (hans.step (by decide) ((synCoreCfg_keeps _ s).mono (by decide))).only
  all_goals
    have heq := escCfg_taken (s := s) h
    have hans := hsAnswer_keeps 0 0 (escCfg v.toNat s)
    have hsyn : (hsAnswer 0 0 (escCfg v.toNat s)).syn = ((escReclaimed v.toNat s).onSyn fun y =>
        { y with tlend := bits v.toNat 0 8, en := escEnabled v.toNat s, log := bitOf v.toNat 9, res := 0 }).syn := by
      rw [hans.syn_eq rfl, heq]
    have honly : Only [.hm, .hs, .hif, .ldg, .trs, .syn] s (hsAnswer 0 0 (escCfg v.toNat s)) :=
      (hans.step (by decide) ((escCfg_keeps _ s).mono (by decide))).only
  · have hen : escEnabled v.toNat s = bitOf v.toNat 8 := if_pos hf
    refine ⟨_, hsEmu_eq hemu rfl, congrArg Sync.res hsyn, congrArg Sync.tlend hsyn, (congrArg Sync.en hsyn).trans hen,
      congrArg Sync.log hsyn, fun hoff c hc j hj => ?_, honly⟩
    have hcore : (hsAnswer 0 0 (escCfg v.toNat s)).getCore j = (escReclaimed v.toNat s).getCore j := getCore_of_core (congrArg Sync.core hsyn :) j
    rw [hcore, escReclaimed, if_neg (by simp [hen, hoff])]
    exact reclaimAll_lent hc hj
  · have hen : escEnabled v.toNat s = s.syn.en := if_neg (by simp [hf])
    exact ⟨_, hsEmu_eq hemu rfl, congrArg Sync.res hsyn, congrArg Sync.tlend hsyn, (congrArg Sync.en hsyn).trans hen,
      congrArg Sync.log hsyn, honly⟩

end Sys2Proof.Machine
end

section
/-!
Hints (chapter 10) on a table of hint queues that lists an entry twice.
-/
namespace Sys2Proof.Machine

/-- A hint of context `ctx` that is due. -/
def dueHint (ctx : Nat) : HintEnt := { ctx := ctx, epoch := 0, cls := 1, inten := 0, early := false, tacc := 0, th := 0, te := 1, ev := 0 }

/-- A live block that distrusts context 1 at its next outcome, and whose table of queues lists entry 0 of cluster 0 twice, for
context 1 and for context 2. -/
def hintTwice : State :=
  { pwr := { vaon := true, vio := true, emuReady := true, step := 2 }, fw := { run := true },
    fc := { q := [(0, some (dueHint 1)), (0, some (dueHint 2))], hx := [(1, { out := [true] })], minEval := 1, missTh := 0 } }

theorem hintTwice_live : hintTwice.live = true := by decide

/-- The entry that the queue shows is evaluated and leaves with its context's hints; the second entry then shows. -/
theorem hintEval_hintTwice : (hintEval 0 0 hintTwice).hint 0 0 = some (dueHint 2) := by decide

/-- Refutes O36: an evaluation after which its context is distrusted drops the entries of that context. Where the table of the
queues lists the entry a second time, for another context, that one then stands in its place, neither judged nor gone. -/
theorem not_hintsQueuedAndEvaluated : ¬ Obligations.HintsQueuedAndEvaluated := by
  intro h
  obtain ⟨hx, -⟩ := (h.2 hintTwice 0 0 0 0 0).1 hintTwice_live
  obtain ⟨-, -, -, -, hjudge⟩ := hx (dueHint 1) (by decide)
  obtain ⟨t, ht, hhint, -⟩ := hjudge rfl (by decide) (by decide)
  have hmodel : exec (.hintEvaluate 0 0) hintTwice = .next (hintEval 0 0 hintTwice) := act_of_live hintTwice_live _
  rw [hmodel] at ht
  cases ht
  revert hhint
  rw [show (hintEval 0 0 hintTwice).hint (0 : ClusterId) (0 : Fin 32) = some (dueHint 2) from hintEval_hintTwice]
  decide

end Sys2Proof.Machine
end

section
/-!
What Clearing's shared operations do to a link (chapter 13): the message a link sends, and the link's lasting terms, beside the
bookkeeping that every message sent or taken changes.
-/
namespace Sys2Proof.Machine

/-- A link without the bookkeeping that every message sent or taken changes, but for the number of the last one sent. -/
def Link.core (x : Link) : Link :=
  { x with
    sent := [], echoTs := 0, rxAt := 0, theta := none, thetaAt := 0, rtt := 0, slack := 0, rxRound := false
    reread := none, staleRec := none, dn := 0, dx := 0, dy := 0, dxx := 0, dxy := 0, dy0 := 0 }

/-- From `s` to `t` the core of link `l` has become `y`, every other link is as it was, and the manager port has only been given
posted writes. -/
structure LinkTo (l : Nat) (y : Link) (s t : State) : Prop where
  core : (t.getLnk l).core = y
  others : ∀ k, k ≠ l → t.getLnk k = s.getLnk k
  posted : Posted s t

namespace LinkTo
variable {l : Nat} {y z : Link} {r s t : State}

theorem trans (h : LinkTo l y r s) (g : LinkTo l z s t) : LinkTo l z r t :=
  ⟨g.core, fun k hk => (g.others k hk).trans (h.others k hk), h.posted.trans g.posted⟩

theorem refl (l : Nat) (s : State) : LinkTo l (s.getLnk l).core s s := ⟨rfl, fun _ _ => rfl, .refl s⟩

theorem cast (h : LinkTo l y s t) (e : y = z) : LinkTo l z s t := e ▸ h

theorem of_clr (h : t.clr = s.clr) (hp : Posted s t) : LinkTo l (s.getLnk l).core s t :=
  ⟨by rw [getLnk_of_clr h], fun k _ => getLnk_of_clr h k, hp⟩

theorem updLnk (l : Nat) (f : Link → Link) (s : State) : LinkTo l (f (s.getLnk l)).core s (s.updLnk l f) :=
  ⟨by rw [State.getLnk_updLnk], fun _ hk => State.getLnk_updLnk_ne _ _ _ hk, .of_eq (State.updLnk_hm ..)⟩

theorem updLnk_core (l : Nat) (f : Link → Link) (s : State) (hf : ∀ y, (f y).core = y.core) :
    LinkTo l (s.getLnk l).core s (s.updLnk l f) := (updLnk l f s).cast (hf _)

theorem emitTrs (code p0 p1 p2 p3 : Nat) (s : State) : LinkTo l (s.getLnk l).core s (emitTrs code p0 p1 p2 p3 s) :=
  of_clr (emit_clr ..) (emit_posted ..)

theorem onTrs (f : Treasury → Treasury) (s : State) : LinkTo l (s.getLnk l).core s (s.onTrs f) := of_clr rfl (.of_eq rfl)

theorem ite {p : Prop} [Decidable p] (h : LinkTo l y r s) (g : LinkTo l y r t) : LinkTo l y r (if p then s else t) := by
  split <;> assumption

theorem en (h : LinkTo l y s t) : (t.getLnk l).en = y.en := (congrArg Link.en h.core :)
theorem addr (h : LinkTo l y s t) : (t.getLnk l).addr = y.addr := (congrArg Link.addr h.core :)
theorem st (h : LinkTo l y s t) : (t.getLnk l).st = y.st := (congrArg Link.st h.core :)
theorem ver (h : LinkTo l y s t) : (t.getLnk l).ver = y.ver := (congrArg Link.ver h.core :)
theorem inc (h : LinkTo l y s t) : (t.getLnk l).inc = y.inc := (congrArg Link.inc h.core :)
theorem seqOut (h : LinkTo l y s t) : (t.getLnk l).seqOut = y.seqOut := (congrArg Link.seqOut h.core :)
theorem seqIn (h : LinkTo l y s t) : (t.getLnk l).seqIn = y.seqIn := (congrArg Link.seqIn h.core :)
theorem peerHold (h : LinkTo l y s t) : (t.getLnk l).peerHold = y.peerHold := (congrArg Link.peerHold h.core :)
theorem retry (h : LinkTo l y s t) : (t.getLnk l).retry = y.retry := (congrArg Link.retry h.core :)
theorem joinRounds (h : LinkTo l y s t) : (t.getLnk l).joinRounds = y.joinRounds := (congrArg Link.joinRounds h.core :)
theorem missed (h : LinkTo l y s t) : (t.getLnk l).missed = y.missed := (congrArg Link.missed h.core :)
theorem surplus (h : LinkTo l y s t) : (t.getLnk l).surplus = y.surplus := (congrArg Link.surplus h.core :)
theorem need (h : LinkTo l y s t) : (t.getLnk l).need = y.need := (congrArg Link.need h.core :)
theorem wmin (h : LinkTo l y s t) : (t.getLnk l).wmin = y.wmin := (congrArg Link.wmin h.core :)
theorem chips (h : LinkTo l y s t) : (t.getLnk l).chips = y.chips := (congrArg Link.chips h.core :)
theorem fcNeed (h : LinkTo l y s t) : (t.getLnk l).fcNeed = y.fcNeed := (congrArg Link.fcNeed h.core :)
theorem lent (h : LinkTo l y s t) : (t.getLnk l).lent = y.lent := (congrArg Link.lent h.core :)
theorem bor (h : LinkTo l y s t) : (t.getLnk l).bor = y.bor := (congrArg Link.bor h.core :)

end LinkTo

section Send
variable {w : HmWrite} {r s t : State} {l typ amount leaseId cause : Nat}

/-- Among the posted writes from `s` to `t` is `w`. -/
def Posting (w : HmWrite) (s t : State) : Prop := ∃ a b, t.hm = s.hm.post (a ++ w :: b)

theorem Posting.posts (h : Posting w s t) : Posts w s t := by
  obtain ⟨a, b, h⟩ := h
  exact .of_post h

theorem Posting.posted (h : Posting w s t) : Posted s t := by
  obtain ⟨a, b, h⟩ := h
  exact ⟨_, h⟩

theorem Posting.after (h : Posting w r s) (g : Posted s t) : Posting w r t := by
  obtain ⟨a, b, h⟩ := h
  obtain ⟨c, g⟩ := g
  exact ⟨a, b ++ c, by rw [g, h, HmPort.post_post, List.append_assoc, List.cons_append]⟩

theorem Posting.before (g : Posting w s t) (h : Posted r s) : Posting w r t := by
  obtain ⟨a, b, g⟩ := g
  obtain ⟨c, h⟩ := h
  exact ⟨c ++ a, b, by rw [g, h, HmPort.post_post, List.append_assoc]⟩

/-- The words of a message of type `typ` with these fields (Table 13.2). -/
def MsgWords (typ amount leaseId cause : Nat) (w : List Nat) : Prop :=
  bits (w.getD 0 0) 24 8 = typ ∧ bits (w.getD 12 0) 16 16 = satU 16 amount ∧ w.getD 13 0 = leaseId % 2 ^ 32 ∧
    bits (w.getD 14 0) 16 16 = cause % 2 ^ 16

theorem satU_lt (n : Nat) : satU 16 n < 2 ^ 16 := by
  simp only [satU, umax]
  omega

theorem clrWords_type (ht : typ < 256) (m : ClrMsg) : bits ((clrWords typ m).getD 0 0) 24 8 = typ := by
  simp only [clrWords, List.map_cons, List.cons_append, List.getD_cons_zero, bits]
  omega

theorem clrWords_fields (ht : typ < 256) (m : ClrMsg) : MsgWords typ m.amount m.leaseId m.cause (clrWords typ m) := by
  refine ⟨clrWords_type ht m, ?_, ?_, ?_⟩ <;>
    simp only [clrWords, List.map_cons, List.cons_append, List.getD_cons_zero, List.getD_cons_succ, bits]
  · have h1 := satU_lt m.slack
    have h2 := satU_lt m.amount
    omega
  · have h1 := satU_lt m.expiryUs
    omega

/-- Link `l` is sent a message of type `typ` with these fields, to the next slot of its mailbox. -/
def SendsTo (l typ amount leaseId cause : Nat) (s t : State) : Prop :=
  ∃ seq w, Posting (.msg ((s.getLnk l).addr + 128 * (seq % 8)) w) s t ∧ MsgWords typ amount leaseId cause w

theorem SendsTo.sends (h : SendsTo l typ amount leaseId cause s t) : SendsMsg l typ amount leaseId cause s t := by
  obtain ⟨seq, w, hw, hm⟩ := h
  exact ⟨seq, w, hw.posts, hm⟩

theorem SendsTo.after (h : SendsTo l typ amount leaseId cause r s) (g : Posted s t) : SendsTo l typ amount leaseId cause r t := by
  obtain ⟨seq, w, hw, hm⟩ := h
  exact ⟨seq, w, hw.after g, hm⟩

theorem SendsTo.before (g : SendsTo l typ amount leaseId cause s t) (h : Posted r s) (ha : (s.getLnk l).addr = (r.getLnk l).addr) :
    SendsTo l typ amount leaseId cause r t := by
  obtain ⟨seq, w, hw, hm⟩ := g
  exact ⟨seq, w, ha ▸ hw.before h, hm⟩

end Send

section Ops
variable (l typ : Nat) (m : ClrMsg) (s : State)

/-- The sequence number a link's next message takes (R347). -/
def Link.nextSeq (x : Link) : Nat := (x.seqOut + 1) % 2 ^ 32

theorem Link.nextSeq_ne (x : Link) : x.nextSeq ≠ x.seqOut := by
  unfold Link.nextSeq
  omega

/-- The message as it leaves: the common fields of Table 13.2 filled in. -/
def clrFull : ClrMsg :=
  { m with
    flags := m.flags + b2n s.tb.hold + (if l = 0 then 0 else 8), domain := s.clr.domain, seq := (s.getLnk l).nextSeq, inc := s.clr.inc
    src := s.clr.id, dst := (s.getLnk l).peer, peerInc := (s.getLnk l).inc, ackSeq := (s.getLnk l).seqIn, ts := s.now
    echoTs := (s.getLnk l).echoTs, echoHold := if (s.getLnk l).seqIn = 0 then 0 else satU 32 (s.now - (s.getLnk l).rxAt) }

/-- A link after a message has been sent on it. -/
def Link.sends (now : Nat) (ackOnly : Bool) (y : Link) : Link :=
  { y with seqOut := y.nextSeq, sent := if ackOnly then y.sent else y.sent ++ [{ seq := y.nextSeq, at_ := now }] }

theorem clrSend_hm : (clrSend l typ m s).hm =
    s.hm.post [.msg ((s.getLnk l).addr + 128 * ((s.getLnk l).nextSeq % 8)) (clrWords typ (clrFull l m s))] :=
  (Emits.hmWrite (.msg ((s.getLnk l).addr + 128 * ((s.getLnk l).nextSeq % 8)) (clrWords typ (clrFull l m s))) s).hm

theorem clrSend_getLnk_self : (clrSend l typ m s).getLnk l = (s.getLnk l).sends s.now (bitOf m.flags 1) :=
  State.getLnk_updLnk ..

theorem clrSend_posted : Posted s (clrSend l typ m s) := hmWrite_posted ..

theorem clrSend_linkTo : LinkTo l { (s.getLnk l).core with seqOut := (s.getLnk l).nextSeq } s (clrSend l typ m s) :=
  ⟨by rw [clrSend_getLnk_self]; rfl, fun _ hk => State.getLnk_updLnk_ne _ _ _ hk, clrSend_posted ..⟩

theorem clrSend_sendsTo (ht : typ < 256) : SendsTo l typ m.amount m.leaseId m.cause s (clrSend l typ m s) :=
  ⟨_, _, ⟨[], [], clrSend_hm ..⟩, clrWords_fields ht (clrFull l m s)⟩

theorem clrSendV_linkTo : LinkTo l { (s.getLnk l).core with seqOut := (s.getLnk l).nextSeq } s (clrSendV l typ m s) := clrSend_linkTo ..

theorem clrSendV_sendsTo (ht : typ < 256) : SendsTo l typ m.amount m.leaseId m.cause s (clrSendV l typ m s) :=
  clrSend_sendsTo l typ { m with ver := (s.getLnk l).ver } s ht

theorem clrTheta_linkTo : LinkTo l (s.getLnk l).core s (clrTheta l m s) := by
  unfold clrTheta
  split
  · exact .refl l s
  · refine .updLnk_core _ _ _ fun y => ?_
    split <;> simp only [Link.core]

theorem clrSample_linkTo : LinkTo l (s.getLnk l).core s (clrSample l m s) := by
  unfold clrSample
  extract_lets x a y y0 b
  split
  · exact .refl l s
  · exact .updLnk_core _ _ _ fun z => by simp only [Link.core]

/-- A message that has passed its checks sets the number received and whether the peer is in holdover. -/
theorem clrAccept_linkTo :
    LinkTo l { (s.getLnk l).core with seqIn := m.seq, peerHold := bitOf m.flags 0 } s (clrAccept l typ m s) := by
  have h1 := clrTheta_linkTo l m s
  have h2 := (clrSample_linkTo l m (clrTheta l m s)).cast h1.core
  have h3 := (LinkTo.updLnk l (fun x => { x with
    seqIn := m.seq, echoTs := m.ts % 2 ^ 32, rxAt := (clrSample l m (clrTheta l m s)).now, peerHold := bitOf m.flags 0, rxRound := true
    slack := if decide (2 ≤ m.ver) && (typ = 1 || typ = 4 || (typ = 3 && !bitOf m.flags 1)) then m.slack else x.slack
    sent := x.sent.filter fun e => decide (m.ackSeq < e.seq), reread := none }) (clrSample l m (clrTheta l m s)))
  have hc : (clrAccept l typ m s).getLnk l = { (clrSample l m (clrTheta l m s)).getLnk l with
    seqIn := m.seq, echoTs := m.ts % 2 ^ 32, rxAt := s.now, peerHold := bitOf m.flags 0, rxRound := true
    slack := if decide (2 ≤ m.ver) && (typ = 1 || typ = 4 || (typ = 3 && !bitOf m.flags 1)) then m.slack
      else ((clrSample l m (clrTheta l m s)).getLnk l).slack
    sent := ((clrSample l m (clrTheta l m s)).getLnk l).sent.filter fun e => decide (m.ackSeq < e.seq), reread := none } :=
    State.getLnk_updLnk ..
  refine ⟨?_, fun k hk => ?_, (h1.trans h2).posted.trans (.of_eq (State.updLnk_hm ..))⟩
  · rw [hc, ← h2.core]; rfl
  · exact (State.getLnk_updLnk_ne _ _ _ hk).trans ((h1.trans h2).others k hk)

/-- The link after a peer has shown incarnation `inc` (R352). -/
def Link.newInc (inc : Nat) (y : Link) : Link :=
  { y with inc := inc, retry := none, seqOut := 0, seqIn := 0, sent := [], theta := none, surplus := 0, need := 0,
           wmin := 0xFFFF, fcNeed := 0, chips := 0, due := 0, bor := y.bor.map fun b => { b with void := true } }

/-- The link after it has met a peer of incarnation `inc`, its own or a new one. -/
def Link.met (inc : Nat) (y : Link) : Link := if y.inc = inc then y else y.newInc inc

section Met
variable (inc : Nat) (y : Link)

theorem Link.met_inc : (y.met inc).inc = inc := by unfold Link.met; split <;> trivial

theorem Link.met_st : (y.met inc).st = y.st := by unfold Link.met; split <;> rfl

theorem Link.met_addr : (y.met inc).addr = y.addr := by unfold Link.met; split <;> rfl

theorem Link.met_lent : (y.met inc).lent = y.lent := by unfold Link.met; split <;> rfl

theorem Link.met_of_eq {inc : Nat} {y : Link} (h : inc = y.inc) : y.met inc = y := if_pos h.symm

/-- R352: a new incarnation voids what was borrowed. -/
theorem Link.met_void {inc : Nat} {y : Link} (h : inc ≠ y.inc) : ∀ b ∈ (y.met inc).bor, b.void = true := by
  rw [Link.met, if_neg h.symm]
  intro b hb
  obtain ⟨a, -, rfl⟩ := List.mem_map.mp hb
  rfl

end Met

theorem clrNewInc_linkTo (inc : Nat) : LinkTo l ((s.getLnk l).met inc).core s (clrNewInc l inc s) := by
  unfold clrNewInc Link.met
  extract_lets x n s1 s2
  split
  · exact .refl l s
  · have h1 : LinkTo l ((s.getLnk l).newInc inc).core s s1 := LinkTo.updLnk l _ s
    have h2 : LinkTo l ((s.getLnk l).newInc inc).core s s2 := .ite h1 (h1.trans ((LinkTo.onTrs _ s1).cast h1.core))
    exact .ite h2 (h2.trans ((LinkTo.emitTrs ..).cast h2.core))

/-- R351: the link is PRESENT. -/
def Link.present (y : Link) : Link := { y with st := 2, missed := 0, retry := none, joinRounds := 0, badRound := false }

theorem clrPresent_linkTo : LinkTo l (s.getLnk l).core.present s (clrPresent l s) := by
  unfold clrPresent
  extract_lets x s1 s2
  have h1 : LinkTo l (s.getLnk l).core.present s s1 := LinkTo.updLnk l Link.present s
  have h2 : LinkTo l (s.getLnk l).core.present s s2 := .ite h1 (h1.trans ((LinkTo.emitTrs ..).cast h1.core))
  exact .ite (h2.trans ((LinkTo.emitTrs ..).cast h2.core)) h2

theorem clrDiscard_linkTo (chk : Nat) : (clrDiscard l chk typ s).getLnk l =
      { s.getLnk l with discard := satInc 16 (s.getLnk l).discard, discRec := some s.now, reread := none } ∧
    (∀ k, k ≠ l → (clrDiscard l chk typ s).getLnk k = s.getLnk k) := by
  unfold clrDiscard
  extract_lets first s1
  have h1 : s1.getLnk l = _ := State.getLnk_updLnk ..
  have h2 : ∀ k, k ≠ l → s1.getLnk k = s.getLnk k := fun k hk => State.getLnk_updLnk_ne _ _ _ hk
  split
  · exact ⟨(emit_getLnk ..).trans h1, fun k hk => (emit_getLnk ..).trans (h2 k hk)⟩
  · exact ⟨h1, h2⟩

/-- A borrowed lease after the return of the lease `id` has begun with `cause` (R356). -/
def Bor.begun (now cause id : Nat) (b : Bor) : Bor := if b.id = id ∧ b.ret = none then { b with ret := some (now, cause) } else b

/-- A borrowed lease after the returns of those listed have begun. -/
def Bor.begunAll (now cause : Nat) (l : List Bor) (b : Bor) : Bor := l.foldl (fun x e => x.begun now cause e.id) b

theorem Bor.begun_out (now cause id : Nat) (b : Bor) (h : b.ret.isSome = true ∨ b.void = true) :
    (b.begun now cause id).ret.isSome = true ∨ (b.begun now cause id).void = true := by
  unfold Bor.begun
  split
  · exact .inl rfl
  · exact h

theorem Bor.begunAll_out (now cause : Nat) (l : List Bor) (b : Bor) (h : b.ret.isSome = true ∨ b.void = true ∨ b ∈ l) :
    (b.begunAll now cause l).ret.isSome = true ∨ (b.begunAll now cause l).void = true := by
  induction l generalizing b with
  | nil => simpa [Bor.begunAll] using h
  | cons e l ih =>
    refine ih (b.begun now cause e.id) ?_
    by_cases ho : b.ret.isSome = true ∨ b.void = true
    · exact (b.begun_out now cause e.id ho).elim .inl fun hv => .inr (.inl hv)
    · obtain ⟨hr, hv⟩ := not_or.mp ho
      have hin : b ∈ e :: l := h.resolve_left hr |>.resolve_left hv
      have hnone : b.ret = none := by simpa using hr
      by_cases he : b.id = e.id
      · exact .inl (by rw [Bor.begun, if_pos ⟨he, hnone⟩]; rfl)
      · have hb : b.begun now cause e.id = b := if_neg fun hc => he hc.1
        exact .inr (.inr (hb.symm ▸ (List.mem_cons.mp hin).resolve_left fun hc => he (hc ▸ rfl)))

theorem beginReturn_linkTo (id cause : Nat) :
    LinkTo l { (s.getLnk l).core with bor := (s.getLnk l).bor.map (Bor.begun s.now cause id) } s (beginReturn l id cause s) :=
  (LinkTo.updLnk l _ s).trans (LinkTo.onTrs _ _) |>.cast (by rw [State.getLnk_updLnk]; rfl)

theorem beginReturns_linkTo (cause : Nat) (bs : List Bor) :
    LinkTo l { (s.getLnk l).core with bor := (s.getLnk l).bor.map (Bor.begunAll s.now cause bs) } s
      (forList bs (fun b => beginReturn l b.id cause) s) := by
  induction bs generalizing s with
  | nil => exact (LinkTo.refl l s).cast (by rw [show Bor.begunAll s.now cause [] = id from rfl, List.map_id]; rfl)
  | cons e bs ih =>
    have h1 := beginReturn_linkTo l s e.id cause
    have h2 := ih (beginReturn l e.id cause s)
    rw [h1.core, h1.bor, (beginReturn_keeps l e.id cause s).now_eq rfl, List.map_map] at h2
    exact h1.trans h2

/-- R356: every borrowed lease of the link is on its way back, or void. -/
theorem returnAll_linkTo (cause : Nat) :
    LinkTo l { (s.getLnk l).core with bor := (s.getLnk l).bor.map (Bor.begunAll s.now cause (s.borHeld l)) } s
      (returnAll l cause s) := beginReturns_linkTo ..

theorem mem_returned {l : Nat} {s : State} {cause : Nat} {b : Bor}
    (h : b ∈ (s.getLnk l).bor.map (Bor.begunAll s.now cause (s.borHeld l))) : b.ret.isSome = true ∨ b.void = true := by
  obtain ⟨a, ha, rfl⟩ := List.mem_map.mp h
  refine a.begunAll_out _ _ _ ?_
  by_cases hr : a.ret = none
  · cases hv : a.void
    · exact .inr (.inr (List.mem_filter.mpr ⟨ha, by simp [hr, hv]⟩))
    · exact .inr (.inl rfl)
  · exact .inl (Option.isSome_iff_ne_none.mpr hr)

/-- R363: only a peer that shows holdover has its leases returned. -/
theorem clrPeerHold_linkTo : ∃ bor, LinkTo l { (s.getLnk l).core with bor := bor } s (clrPeerHold l s) ∧
    ((s.getLnk l).peerHold = false → bor = (s.getLnk l).bor) := by
  unfold clrPeerHold
  split
  · next h => exact ⟨_, returnAll_linkTo .., by simp [h]⟩
  · exact ⟨_, LinkTo.refl l s, fun _ => rfl⟩

theorem clrPeerHold_of_not (h : (s.getLnk l).peerHold = false) : clrPeerHold l s = s := if_neg (by simp [h])

end Ops

end Sys2Proof.Machine
end

section
/-!
Messages, peers that join and peers that leave (R344, R350–R352).
-/
namespace Sys2Proof.Machine

section Receive
variable {l typ : Nat} {m : ClrMsg} {s t : State} {y : Link}

/-- R344, R347: after a message has been performed it is acknowledged, unless it was an acknowledgement or has been answered. -/
def clrAck (l typ : Nat) (m : ClrMsg) (s t : State) : State :=
  if decide (typ = 3) && bitOf m.flags 1 || (decide (typ = 1) || decide (typ ≠ 2) && decide ((t.getLnk l).seqOut ≠ (s.getLnk l).seqOut))
    then t
  else clrSendV l 3 { flags := 2 } t

theorem clrReceive_fails (hup : s.clrUp = true) (hen : (s.getLnk l).en = true ∨ typ = 1) (hc : clrCheck l typ m s ≠ 0) :
    clrReceive l typ m s = clrDiscard l (clrCheck l typ m s) typ s := by
  unfold clrReceive
  rw [if_neg (by rcases hen with h | h <;> simp [hup, h])]
  exact if_pos hc

theorem clrReceive_passes (hup : s.clrUp = true) (hen : (s.getLnk l).en = true ∨ typ = 1) (hc : clrCheck l typ m s = 0) :
    clrReceive l typ m s = clrAck l typ m s (clrPerform l typ m s) := by
  unfold clrReceive
  rw [if_neg (by rcases hen with h | h <;> simp [hup, h])]
  exact if_neg (not_not.mpr hc)

/-- A message that passes its checks is performed and acknowledged. -/
theorem clrMsg_of_receives {l : Fin 65} (h : Receives l typ m s) :
    clrMsg l typ m s = .next (clrAck l typ m s (clrPerform l typ m s)) := by
  obtain ⟨hlive, hup, hres, hen, hnew, hchk⟩ := h
  exact act_eq hlive ((if_pos (by simp [hres, hnew])).trans (clrReceive_passes hup hen hchk))

theorem clrAck_of_acked (h1 : typ ≠ 1) (h3 : typ = 3 → bitOf m.flags 1 = false)
    (hs : typ = 2 ∨ (t.getLnk l).seqOut = (s.getLnk l).seqOut) : clrAck l typ m s t = clrSendV l 3 { flags := 2 } t := by
  refine if_neg ?_
  by_cases h : typ = 3
  · rcases hs with hs | hs
    · omega
    · simp [h, h3 h, hs]
  · rcases hs with hs | hs <;> simp [h, h1, hs]

theorem clrAck_of_answered (h2 : typ ≠ 2) (hs : typ = 1 ∨ (t.getLnk l).seqOut ≠ (s.getLnk l).seqOut) : clrAck l typ m s t = t := by
  refine if_pos ?_
  rcases hs with hs | hs <;> simp [h2, hs]

theorem clrAck_posted : Posted t (clrAck l typ m s t) := .ite (.refl t) (clrSend_posted ..)

theorem clrAck_keeps : Keeps [.hm, .clr] t (clrAck l typ m s t) := .ite (.refl _ _) (clrSendV_keeps ..)

/-- The acknowledgement goes out and leaves the link's terms. -/
theorem LinkTo.acked (h : LinkTo l y s t) (ha : y.addr = (s.getLnk l).addr) :
    LinkTo l { y with seqOut := (t.getLnk l).nextSeq } s (clrSendV l 3 { flags := 2 } t) ∧
      SendsTo l 3 0 0 0 s (clrSendV l 3 { flags := 2 } t) :=
  ⟨h.trans ((clrSendV_linkTo l 3 _ t).cast (by rw [h.core])),
    (clrSendV_sendsTo l 3 { flags := 2 } t (by decide)).before h.posted (h.addr.trans ha)⟩

end Receive

section Poll
variable {l : Nat} {w : List Nat} {typ : Nat} {m : ClrMsg} {s : State}

theorem clrReads_of_up (hup : s.clrUp = true) (hres : s.hm.inReset = false) : s.clrReads = true := by
  simp [State.clrReads, hup, hres]

theorem clrPoll_of_not (h : s.clrReads = false ∨ (s.getLnk l).en = false ∨ (s.getLnk l).reread.isSome = true) :
    clrPoll l w s = s := if_pos (by rcases h with h | h | h <;> simp [h])

theorem clrReread_of_none (h : (s.getLnk l).reread = none) : clrReread l w s = s := by
  unfold clrReread
  rw [h]

section Reads
variable (hr : s.clrReads = true) (hen : (s.getLnk l).en = true) (hre : (s.getLnk l).reread = none)
include hr hen hre

theorem clrPoll_noMessage (hp : clrParse w = none) : clrPoll l w s =
    if w.length = 24 ∧ (s.getLnk l).seqIn < w.getD 2 0 then clrDiscard l 1 (bits (w.getD 0 0) 24 8) s else s := by
  simp [clrPoll, hr, hen, hre, clrRead, hp]

theorem clrPoll_old (hp : clrParse w = some (typ, m)) (hnew : clrNew l typ m s = false) : clrPoll l w s = s := by
  simp [clrPoll, hr, hen, hre, clrRead, hp, hnew]

theorem clrPoll_new (hp : clrParse w = some (typ, m)) (hnew : clrNew l typ m s = true) : clrPoll l w s =
    if (clrRead w).2 then clrReceive l typ m s else s.updLnk l fun y => { y with reread := some (s.now, 0) } := by
  simp only [clrPoll, hr, hen, hre, clrRead, hp, hnew, Bool.not_true, Option.isSome_none, Bool.or_false, Bool.false_eq_true, if_false]

end Reads

theorem clrReread_read {t0 n : Nat} (hr : s.clrReads = true) (hre : (s.getLnk l).reread = some (t0, n)) (ht : t0 + 250 ≤ s.now)
    (hp : clrParse w = some (typ, m)) : clrReread l w s =
      if (clrRead w).2 then clrReceive l typ m (s.updLnk l fun y => { y with reread := none })
      else if n + 1 < 4 then s.updLnk l fun y => { y with reread := some (s.now, n + 1) }
      else clrDiscard l 1 (bits (w.getD 0 0) 24 8) s := by
  unfold clrReread
  rw [hre]
  dsimp only
  rw [if_neg (by simp [hr, ht]), clrRead, hp]
  cases decide (crc32 ((w.take 23).flatMap (leBytes 4)) = w.getD 23 0) <;> rfl

theorem clrReread_early {t0 n : Nat} (hre : (s.getLnk l).reread = some (t0, n)) (ht : s.now < t0 + 250) : clrReread l w s = s := by
  unfold clrReread
  rw [hre]
  exact if_pos (by simp [ht])

end Poll

section Peers
variable {l : Fin 65} {m : ClrMsg} {s : State}

theorem clrOnJoin_refused (h : (s.getLnk l).en = false ∨ bitOf m.flags 3 ≠ decide (l.val = 0)) :
    clrOnJoin l m s = clrRefuse l (if (s.getLnk l).en then 2 else 1) (max 1 (min m.ver s.clr.vmax)) s := by
  unfold clrOnJoin
  cases hen : (s.getLnk l).en
  · rfl
  · exact if_pos (h.resolve_left (by simp [hen]))

theorem clrRefuse_linkTo (cause ver : Nat) :
    LinkTo l { (s.getLnk l).core with seqOut := (s.getLnk l).nextSeq } s (clrRefuse l cause ver s) :=
  (clrSend_linkTo ..).trans ((LinkTo.emitTrs ..).cast (clrSend_linkTo ..).core)

theorem clrRefuse_sendsTo (cause ver : Nat) : SendsTo l 2 0 0 cause s (clrRefuse l cause ver s) :=
  (clrSend_sendsTo l 2 { ver := ver, flags := 4, cause := cause } s (by decide)).after (emit_posted ..)

/-- R351: a JOIN on a link that is not enabled, or whose `PARENT` flag does not fit, is refused. -/
theorem join_refused (hr : Receives l 1 m s) (h : (s.getLnk l).en = false ∨ bitOf m.flags 3 ≠ decide (l.val = 0)) :
    ∃ t, exec (.join l m) s = .next t ∧ SendsMsg l 2 0 0 (if (s.getLnk l).en then 2 else 1) s t ∧
      (t.getLnk l).st = (s.getLnk l).st ∧ (t.getLnk l).inc = (s.getLnk l).inc ∧ (t.getLnk l).bor = (s.getLnk l).bor ∧
      (∀ k, k ≠ l.val → t.getLnk k = s.getLnk k) ∧
      (QRoom 0x20 s → Logs 0x20 0x8011 l (if (s.getLnk l).en then 2 else 1) 0 0 s t) ∧ Only [.hm, .hif, .ldg, .clr] s t := by
  have he : exec (.join l m) s = _ := clrMsg_of_receives hr
  rw [clrAck_of_answered (by decide) (.inl rfl), show clrPerform l 1 m s = clrOnJoin l m s from rfl, clrOnJoin_refused h] at he
  have hl := clrRefuse_linkTo (l := l) (s := s) (if (s.getLnk l).en then 2 else 1) (max 1 (min m.ver s.clr.vmax))
  exact ⟨_, he, (clrRefuse_sendsTo _ _).sends, hl.st, hl.inc, hl.bor, hl.others,
    emit_logs_after (clrSend_keeps ..) (by decide) (by decide) (by decide) (by decide), (clrRefuse_keeps ..).only⟩

/-- A link that has answered a JOIN or taken an ACCEPT: the incarnation it has met, the version agreed, the number received. -/
def Link.joined (m : ClrMsg) (vmax : Nat) (y : Link) : Link :=
  { (y.met m.inc).core with seqIn := m.seq, peerHold := bitOf m.flags 0, ver := max 1 (min m.ver vmax) }

/-- The link after the message, before it answers. -/
def clrJoined (l typ : Nat) (m : ClrMsg) (s : State) : State :=
  (clrAccept l typ m (clrNewInc l m.inc s)).updLnk l fun x => { x with ver := max 1 (min m.ver s.clr.vmax) }

theorem clrJoined_linkTo (l typ : Nat) (m : ClrMsg) (s : State) :
    LinkTo l ((s.getLnk l).joined m s.clr.vmax) s (clrJoined l typ m s) := by
  have h1 := clrNewInc_linkTo l s m.inc
  have h2 := clrAccept_linkTo l typ m (clrNewInc l m.inc s)
  rw [h1.core] at h2
  have h3 := LinkTo.updLnk l (fun x => { x with ver := max 1 (min m.ver s.clr.vmax) }) (clrAccept l typ m (clrNewInc l m.inc s))
  exact (h1.trans h2).trans (h3.cast (by
    rw [Link.joined, show (Link.core { (clrAccept l typ m (clrNewInc l m.inc s)).getLnk l with ver := max 1 (min m.ver s.clr.vmax) }) =
      { ((clrAccept l typ m (clrNewInc l m.inc s)).getLnk l).core with ver := max 1 (min m.ver s.clr.vmax) } from rfl, h2.core]))

theorem clrJoined_keeps (l typ : Nat) (m : ClrMsg) (s : State) :
    Keeps [.hm, .hif, .ldg, .trs, .clr] s (clrJoined l typ m s) :=
  .step (State.updLnk_keeps ..) (by decide) (.step (clrAccept_keeps ..) (by decide) (clrNewInc_keeps ..))

/-- R351: a JOIN that is answered with an ACCEPT. -/
theorem clrOnJoin_accepted (hen : (s.getLnk l).en = true) (hf : bitOf m.flags 3 = decide (l.val = 0)) :
    clrOnJoin l m s = if ((clrSendV l 2 {} (clrJoined l 1 m s)).getLnk l).st = 1 then clrSendV l 2 {} (clrJoined l 1 m s)
      else clrPresent l (clrSendV l 2 {} (clrJoined l 1 m s)) := by
  unfold clrOnJoin
  rw [if_neg (by simp [hen]), if_neg (not_not.mpr hf)]
  rfl

theorem join_accepted (hr : Receives l 1 m s) (hen : (s.getLnk l).en = true) (hf : bitOf m.flags 3 = decide (l.val = 0)) :
    ∃ t, exec (.join l m) s = .next t ∧ SendsMsg l 2 0 0 0 s t ∧
      (t.getLnk l).inc = m.inc ∧ (t.getLnk l).ver = max 1 (min m.ver s.clr.vmax) ∧ (t.getLnk l).seqIn = m.seq ∧
      (t.getLnk l).st = (if (s.getLnk l).st = 1 then 1 else 2) ∧ (t.getLnk l).lent = (s.getLnk l).lent ∧
      (m.inc ≠ (s.getLnk l).inc → ∀ b ∈ (t.getLnk l).bor, b.void = true) ∧
      (m.inc = (s.getLnk l).inc → (t.getLnk l).bor = (s.getLnk l).bor) ∧
      (∀ k, k ≠ l.val → t.getLnk k = s.getLnk k) ∧ Only [.hm, .hif, .ldg, .trs, .clr] s t := by
  have he : exec (.join l m) s = _ := clrMsg_of_receives hr
  rw [clrAck_of_answered (by decide) (.inl rfl)] at he
  have hk : Keeps _ s (clrPerform l 1 m s) := clrPerform_keeps ..
  rw [show clrPerform l 1 m s = clrOnJoin l m s from rfl, clrOnJoin_accepted hen hf] at he hk
  have h1 := clrJoined_linkTo l 1 m s
  have h2 := clrSendV_linkTo l 2 {} (clrJoined l 1 m s)
  have hs := (clrSendV_sendsTo l 2 {} (clrJoined l 1 m s) (by decide)).before h1.posted (h1.addr.trans (Link.met_addr ..))
  rw [h1.core] at h2
  have h12 := h1.trans h2
  have hst := h12.st.trans (Link.met_st ..)
  have hvoid : ∀ {t : State}, (t.getLnk l).bor = ((s.getLnk l).met m.inc).bor →
      (m.inc ≠ (s.getLnk l).inc → ∀ b ∈ (t.getLnk l).bor, b.void = true) ∧
      (m.inc = (s.getLnk l).inc → (t.getLnk l).bor = (s.getLnk l).bor) := fun hb =>
    ⟨fun hi => by rw [hb]; exact Link.met_void hi, fun hi => by rw [hb, Link.met_of_eq hi]⟩
  by_cases h : (s.getLnk l).st = 1
  · rw [if_pos (hst.trans h)] at he hk
    exact ⟨_, he, hs.sends, h12.inc.trans (Link.met_inc ..), h12.ver, h12.seqIn, by rw [if_pos h, hst, h],
      h12.lent.trans (Link.met_lent ..), (hvoid h12.bor).1, (hvoid h12.bor).2, h12.others, hk.only⟩
  · rw [if_neg (fun h' => h (hst.symm.trans h'))] at he hk
    have h3 := clrPresent_linkTo l (clrSendV l 2 {} (clrJoined l 1 m s))
    rw [h12.core] at h3
    have h123 := h12.trans h3
    exact ⟨_, he, (hs.after h3.posted).sends, h123.inc.trans (Link.met_inc ..), h123.ver, h123.seqIn,
      by rw [if_neg h]; exact h123.st, h123.lent.trans (Link.met_lent ..), (hvoid h123.bor).1, (hvoid h123.bor).2, h123.others,
      hk.only⟩

/-- R351: an ACCEPT that refuses is recorded. -/
theorem accept_refusal (hr : Receives l 2 m s) (hf : bitOf m.flags 2 = true) : ∃ t, exec (.accept l m) s = .next t ∧
    (t.getLnk l).st = (s.getLnk l).st ∧ (∀ k, k ≠ l.val → t.getLnk k = s.getLnk k) ∧
    (QRoom 0x20 s → Logs 0x20 0x8011 l m.cause 1 0 s t) ∧ Only [.hm, .hif, .ldg, .clr] s t := by
  have he : exec (.accept l m) s = _ := clrMsg_of_receives hr
  rw [clrAck_of_acked (typ := 2) (by decide) nofun (.inl rfl), show clrPerform l 2 m s = clrOnAccept l m s from rfl,
    show clrOnAccept l m s = emitTrs 0x8011 l m.cause 1 0 (clrAccept l 2 m s) from if_pos hf] at he
  have h1 := clrAccept_linkTo l 2 m s
  have h2 := h1.trans ((LinkTo.emitTrs 0x8011 l m.cause 1 0 _).cast h1.core)
  obtain ⟨h3, -⟩ := h2.acked rfl
  refine ⟨_, he, h3.st, h3.others, fun hroom => ?_, ?_⟩
  · exact (emit_logs_after (clrAccept_keeps ..) (by decide) (by decide) (by decide) (by decide) hroom).before
      (clrSendV_keeps ..).only (by decide)
  · exact Keeps.only (.step (clrSendV_keeps ..) (by decide) (.step (emitTrs_keeps ..) (by decide)
      ((clrAccept_keeps ..).mono (by decide))))

/-- An ACCEPT that no one awaits changes only what every message changes. -/
theorem accept_unawaited (hr : Receives l 2 m s) (hf : bitOf m.flags 2 = false) (h1 : (s.getLnk l).st ≠ 1)
    (h4 : (s.getLnk l).st ≠ 4) : ∃ t, exec (.accept l m) s = .next t ∧ (t.getLnk l).st = (s.getLnk l).st ∧
    (t.getLnk l).inc = (s.getLnk l).inc ∧ (t.getLnk l).ver = (s.getLnk l).ver ∧ (t.getLnk l).bor = (s.getLnk l).bor ∧
    SendsMsg l 3 0 0 0 s t ∧ (∀ k, k ≠ l.val → t.getLnk k = s.getLnk k) ∧ Only [.hm, .hif, .ldg, .clr] s t := by
  have he : exec (.accept l m) s = _ := clrMsg_of_receives hr
  have hp : clrOnAccept l m s = clrAccept l 2 m s := by
    rw [clrOnAccept, if_neg (by simp [hf]), if_neg (by simp [Link.joining, h1, h4])]
  rw [clrAck_of_acked (typ := 2) (by decide) nofun (.inl rfl), show clrPerform l 2 m s = clrOnAccept l m s from rfl, hp] at he
  obtain ⟨h3, hs⟩ := (clrAccept_linkTo l 2 m s).acked rfl
  exact ⟨_, he, h3.st, h3.inc, h3.ver, h3.bor, hs.sends, h3.others,
    Keeps.only (.step (clrSendV_keeps ..) (by decide) ((clrAccept_keeps ..).mono (by decide)))⟩

/-- R351: an ACCEPT that is awaited makes the link PRESENT. -/
theorem accept_awaited (hr : Receives l 2 m s) (hf : bitOf m.flags 2 = false) (hst : (s.getLnk l).st = 1 ∨ (s.getLnk l).st = 4) :
    ∃ t, exec (.accept l m) s = .next t ∧ (t.getLnk l).st = 2 ∧
    (t.getLnk l).inc = m.inc ∧ (t.getLnk l).ver = max 1 (min m.ver s.clr.vmax) ∧ (t.getLnk l).seqIn = m.seq ∧
    SendsMsg l 3 0 0 0 s t ∧ (t.getLnk l).lent = (s.getLnk l).lent ∧ (∀ k, k ≠ l.val → t.getLnk k = s.getLnk k) ∧
    Only [.hm, .hif, .ldg, .trs, .clr] s t := by
  have he : exec (.accept l m) s = _ := clrMsg_of_receives hr
  have hp : clrOnAccept l m s = clrPresent l (clrJoined l 2 m s) := by
    rw [clrOnAccept, if_neg (by simp [hf]), if_pos (by simpa [Link.joining] using hst)]
    rfl
  have hk : Keeps _ s (clrOnAccept l m s) := clrOnAccept_keeps ..
  rw [clrAck_of_acked (typ := 2) (by decide) nofun (.inl rfl), show clrPerform l 2 m s = clrOnAccept l m s from rfl, hp] at he
  rw [hp] at hk
  have h1 := clrJoined_linkTo l 2 m s
  have h2 := clrPresent_linkTo l (clrJoined l 2 m s)
  rw [h1.core] at h2
  obtain ⟨h3, hs⟩ := (h1.trans h2).acked (Link.met_addr ..)
  exact ⟨_, he, h3.st, h3.inc.trans (Link.met_inc ..), h3.ver, h3.seqIn, hs.sends, h3.lent.trans (Link.met_lent ..), h3.others,
    Keeps.only (.step (clrSendV_keeps ..) (by decide) hk)⟩

/-- The link that a peer has left (R350). -/
def Link.left (y : Link) : Link := { y with st := 5, retry := none, due := 0 }

/-- R350: a LEAVE makes the link LEFT and returns what was borrowed. -/
theorem leave_received (hr : Receives l 7 m s) : ∃ t, exec (.leave l m) s = .next t ∧ (t.getLnk l).st = 5 ∧
    (t.getLnk l).retry = none ∧ (∀ b ∈ (t.getLnk l).bor, b.ret.isSome = true ∨ b.void = true) ∧
    (t.getLnk l).lent = (s.getLnk l).lent ∧ SendsMsg l 3 0 0 0 s t ∧ (∀ k, k ≠ l.val → t.getLnk k = s.getLnk k) ∧
    (QRoom 0x20 s → Logs 0x20 0x8013 l m.cause 0 0 s t) ∧ Only [.hm, .hif, .ldg, .trs, .clr] s t := by
  have he : exec (.leave l m) s = _ := clrMsg_of_receives hr
  have h1 := clrAccept_linkTo l 7 m s
  obtain ⟨bor, h2, -⟩ := clrPeerHold_linkTo l (clrAccept l 7 m s)
  rw [h1.core] at h2
  generalize hs1 : clrPeerHold l (clrAccept l 7 m s) = s1 at h2
  have h3 := returnAll_linkTo l s1 4
  rw [h2.core] at h3
  have h4 := LinkTo.updLnk l Link.left (returnAll l 4 s1)
  rw [show (((returnAll l 4 s1).getLnk l).left).core = (((returnAll l 4 s1).getLnk l).core).left from rfl, h3.core] at h4
  have h5 := (((h1.trans h2).trans h3).trans h4).trans ((LinkTo.emitTrs 0x8013 l m.cause 0 0 _).cast h4.core)
  have hp : clrPerform l 7 m s = emitTrs 0x8013 l m.cause 0 0 ((returnAll l 4 s1).updLnk l Link.left) := by rw [← hs1]; rfl
  rw [hp, clrAck_of_acked (typ := 7) (by decide) nofun (.inr h5.seqOut)] at he
  obtain ⟨h6, hsend⟩ := h5.acked rfl
  have hk1 : Keeps [.trs, .clr] s s1 := hs1 ▸ .step (clrPeerHold_keeps ..) (by decide) ((clrAccept_keeps ..).mono (by decide))
  have hk2 : Keeps [.trs, .clr] s ((returnAll l 4 s1).updLnk l Link.left) :=
    .step (State.updLnk_keeps ..) (by decide) (.step (returnAll_keeps ..) (by decide) hk1)
  refine ⟨_, he, h6.st, h6.retry, ?_, h6.lent, hsend.sends, h6.others, fun hroom => ?_, ?_⟩
  · rw [h6.bor]
    exact fun b => mem_returned
  · exact (emit_logs_after hk2 (by decide) (by decide) (by decide) (by decide) hroom).before (clrSendV_keeps ..).only (by decide)
  · exact Keeps.only (.step (clrSendV_keeps ..) (by decide) (.step (emitTrs_keeps ..) (by decide) (hk2.mono (by decide))))

end Peers

section Discards
variable {l : Fin 65} {ws : List Word} {typ : Nat} {m : ClrMsg} {s : State}

/-- A live block whose Clearing reads nothing does nothing with a mailbox. -/
theorem mailbox_unread (hl : s.live = true) (hr : s.clrReads = false) :
    exec (.mailboxPoll l ws) s = .next s ∧ exec (.msgReread l ws) s = .next s := by
  refine ⟨act_eq hl (clrPoll_of_not (.inl hr)), act_eq hl ?_⟩
  unfold clrReread
  split
  · rfl
  · exact if_pos (by simp [hr])

/-- What a discard leaves of its link. -/
theorem clrDiscard_spec (chk : Nat) (s : State) :
    ((clrDiscard l chk typ s).getLnk l).discard = satInc 16 (s.getLnk l).discard ∧
    ((clrDiscard l chk typ s).getLnk l).seqIn = (s.getLnk l).seqIn ∧
    ((clrDiscard l chk typ s).getLnk l).st = (s.getLnk l).st ∧ ((clrDiscard l chk typ s).getLnk l).lent = (s.getLnk l).lent ∧
    ((clrDiscard l chk typ s).getLnk l).bor = (s.getLnk l).bor ∧ ((clrDiscard l chk typ s).getLnk l).reread = none ∧
    (∀ k, k ≠ l.val → (clrDiscard l chk typ s).getLnk k = s.getLnk k) ∧ Only [.hm, .hif, .ldg, .clr] s (clrDiscard l chk typ s) := by
  obtain ⟨hself, hothers⟩ := clrDiscard_linkTo l typ s chk
  rw [hself]
  exact ⟨rfl, rfl, rfl, rfl, rfl, rfl, hothers, (clrDiscard_keeps ..).only⟩

theorem poll_noMessage (hl : s.live = true) (hr : s.clrReads = true) (hp : clrParse (ws.map BitVec.toNat) = none)
    (hen : (s.getLnk l).en = true) (hre : (s.getLnk l).reread = none) :
    ((ws.map BitVec.toNat).length = 24 → (s.getLnk l).seqIn < (ws.map BitVec.toNat).getD 2 0 →
      ∃ t, exec (.mailboxPoll l ws) s = .next t ∧
        (t.getLnk l).discard = satInc 16 (s.getLnk l).discard ∧ (t.getLnk l).seqIn = (s.getLnk l).seqIn ∧
        (∀ k, k ≠ l.val → t.getLnk k = s.getLnk k) ∧ Only [.hm, .hif, .ldg, .clr] s t) ∧
    ((ws.map BitVec.toNat).length ≠ 24 ∨ (ws.map BitVec.toNat).getD 2 0 ≤ (s.getLnk l).seqIn →
      exec (.mailboxPoll l ws) s = .next s) := by
  have he := clrPoll_noMessage hr hen hre hp
  refine ⟨fun hlen hnew => ?_, fun h => act_eq hl (he.trans (if_neg fun hc => ?_))⟩
  · obtain ⟨h1, h2, -, -, -, -, h3, h4⟩ := clrDiscard_spec (l := l) (typ := bits ((ws.map BitVec.toNat).getD 0 0) 24 8) 1 s
    exact ⟨_, act_eq hl (he.trans (if_pos ⟨hlen, hnew⟩)), h1, h2, h3, h4⟩
  · rcases h with h | h
    · exact h hc.1
    · exact absurd hc.2 (Nat.not_lt.mpr h)

/-- R344: a new message that fails a check changes nothing but its link's discard count. -/
theorem message_fails (hl : s.live = true) (hup : s.clrUp = true) (hres : s.hm.inReset = false) (hen : (s.getLnk l).en = true)
    (hnew : clrNew l typ m s = true) (hc : clrCheck l typ m s ≠ 0) :
    ∃ t, clrMsg l typ m s = .next t ∧ (t.getLnk l).discard = satInc 16 (s.getLnk l).discard ∧
      (t.getLnk l).seqIn = (s.getLnk l).seqIn ∧ (t.getLnk l).st = (s.getLnk l).st ∧ (t.getLnk l).lent = (s.getLnk l).lent ∧
      (t.getLnk l).bor = (s.getLnk l).bor ∧ (∀ k, k ≠ l.val → t.getLnk k = s.getLnk k) ∧ Only [.hm, .hif, .ldg, .clr] s t := by
  obtain ⟨h1, h2, h3, h4, h5, -, h6, h7⟩ := clrDiscard_spec (l := l) (typ := typ) (clrCheck l typ m s) s
  exact ⟨_, act_eq hl ((if_pos (by simp [hres, hnew])).trans (clrReceive_fails hup (.inl hen) hc)), h1, h2, h3, h4, h5, h6, h7⟩

theorem reread_read {t0 n : Nat} (hl : s.live = true) (hr : s.clrReads = true) (hre : (s.getLnk l).reread = some (t0, n))
    (hp : clrParse (ws.map BitVec.toNat) = some (typ, m)) :
    (s.now < t0 + 250 → exec (.msgReread l ws) s = .next s) ∧
    (t0 + 250 ≤ s.now → (clrRead (ws.map BitVec.toNat)).2 = true →
      exec (.msgReread l ws) s = .next (clrReceive l typ m (s.updLnk l fun y => { y with reread := none }))) ∧
    (t0 + 250 ≤ s.now → (clrRead (ws.map BitVec.toNat)).2 = false → n < 3 →
      exec (.msgReread l ws) s = .next (s.updLnk l fun y => { y with reread := some (s.now, n + 1) })) ∧
    (t0 + 250 ≤ s.now → (clrRead (ws.map BitVec.toNat)).2 = false → 3 ≤ n → ∃ t, exec (.msgReread l ws) s = .next t ∧
      (t.getLnk l).reread = none ∧ (t.getLnk l).discard = satInc 16 (s.getLnk l).discard ∧ Only [.hm, .hif, .ldg, .clr] s t) := by
  refine ⟨fun ht => act_eq hl (clrReread_early hre ht), fun ht hcrc => act_eq hl ?_, fun ht hcrc hn => act_eq hl ?_,
    fun ht hcrc hn => ?_⟩
  · rw [clrReread_read hr hre ht hp, if_pos hcrc]
  · rw [clrReread_read hr hre ht hp, if_neg (by simp [hcrc]), if_pos (by omega)]
  · obtain ⟨h1, -, -, -, -, h2, -, h3⟩ := clrDiscard_spec (l := l) (typ := bits ((ws.map BitVec.toNat).getD 0 0) 24 8) 1 s
    exact ⟨_, act_eq hl ((clrReread_read hr hre ht hp).trans ((if_neg (by simp [hcrc])).trans (if_neg (by omega)))), h2, h1, h3⟩

end Discards

/-- Settles O37: what a poll and a re-read do with the words they find, and what each message does that joins or leaves. -/
theorem messagesAndPeers : Obligations.MessagesAndPeers := by
  refine ⟨fun s l ws hl hr => mailbox_unread hl hr, fun s l ws hl hup hres => ?_, fun s l m => ?_⟩
  · have hr := clrReads_of_up hup hres
    refine ⟨fun h => act_eq hl (clrPoll_of_not (.inr h)), fun h => act_eq hl (clrReread_of_none h),
      fun hp hen hre => poll_noMessage hl hr hp hen hre, fun typ m hp => ⟨fun hen hre => ⟨fun hnew => ?_, fun hnew hcrc => ?_,
      fun hnew hcrc => ?_⟩, fun t0 n hre => reread_read hl hr hre hp, fun hen hnew hc c hcmd => ?_⟩⟩
    · exact act_eq hl (clrPoll_old hr hen hre hp hnew)
    · exact act_eq hl ((clrPoll_new hr hen hre hp hnew).trans (if_pos hcrc))
    · exact act_eq hl ((clrPoll_new hr hen hre hp hnew).trans (if_neg (by simp [hcrc])))
    · have hfail := message_fails hl hup hres hen hnew hc
      rcases hcmd with ⟨rfl, rfl⟩ | ⟨rfl, rfl⟩ | ⟨rfl, rfl⟩ | ⟨rfl, rfl⟩ | ⟨rfl, rfl⟩ | ⟨rfl, rfl⟩ | ⟨rfl, rfl⟩ <;> exact hfail
  · exact ⟨fun hr => ⟨join_refused hr, join_accepted hr⟩,
      fun hr _ => ⟨accept_refusal hr, accept_unawaited hr, accept_awaited hr⟩, leave_received⟩

end Sys2Proof.Machine
end

section
/-!
Leases: taken, renewed, returned, and ended (R353–R356).
-/
namespace Sys2Proof.Machine

section Grants
variable {r s t : State} {l : Nat}

/-- A link without what a grant changes on it: what it has lent, what is due to it, and the number of its last message. -/
def Link.still (x : Link) : Link := { x.core with seqOut := 0, lent := [], due := 0 }

/-- From `s` to `t` leases have been granted and messages sent, and nothing else has happened to a link. -/
structure Grants (s t : State) : Prop where
  still : ∀ k, (t.getLnk k).still = (s.getLnk k).still
  posted : Posted s t
  turn : s.trs.outOfTurn = true → t.trs.outOfTurn = true
  round : t.clr.roundAt = s.clr.roundAt

namespace Grants

theorem refl (s : State) : Grants s s := ⟨fun _ => rfl, .refl s, id, rfl⟩

theorem trans (h : Grants r s) (g : Grants s t) : Grants r t :=
  ⟨fun k => (g.still k).trans (h.still k), h.posted.trans g.posted, g.turn ∘ h.turn, g.round.trans h.round⟩

theorem ite {p : Prop} [Decidable p] (h : Grants r s) (g : Grants r t) : Grants r (if p then s else t) := by split <;> assumption

theorem updLnk (l : Nat) (f : Link → Link) (s : State) (hf : ∀ y, (f y).still = y.still) : Grants s (s.updLnk l f) where
  still k := by
    by_cases hk : k = l
    · rw [hk, State.getLnk_updLnk, hf]
    · rw [State.getLnk_updLnk_ne _ _ _ hk]
  posted := .of_eq (State.updLnk_hm ..)
  turn := id
  round := rfl

theorem emitTrs (code p0 p1 p2 p3 : Nat) (s : State) : Grants s (emitTrs code p0 p1 p2 p3 s) :=
  ⟨fun k => congrArg Link.still (emit_getLnk ..), emit_posted .., fun h => (congrArg Treasury.outOfTurn (emit_trs ..)).trans h,
    congrArg Clearing.roundAt (emit_clr ..)⟩

theorem send (l typ : Nat) (m : ClrMsg) (s : State) : Grants s (clrSend l typ m s) where
  still k := by
    by_cases hk : k = l
    · rw [hk, clrSend_getLnk_self]; rfl
    · rw [(clrSend_linkTo l typ m s).others k hk]
  posted := clrSend_posted ..
  turn := id
  round := rfl

theorem sendV (l typ : Nat) (m : ClrMsg) (s : State) : Grants s (clrSendV l typ m s) := send ..

theorem forList {α : Type} {l : List α} {f : α → State → State} (hf : ∀ a u, Grants u (f a u)) (s : State) :
    Grants s (forList l f s) := forList_ind (P := Grants s) (fun a _ u hu => hu.trans (hf a u)) (.refl s)

end Grants

theorem clrGrant_grants (l amt d : Nat) (from_ : Option (Nat × Nat)) (s : State) : Grants s (clrGrant l amt d from_ s) := by
  unfold clrGrant
  extract_lets x id a s1 s2
  have h1 : Grants s s1 := ⟨fun _ => rfl, .of_eq rfl, fun _ => rfl, rfl⟩
  have h2 : Grants s1 s2 := .updLnk _ _ _ fun _ => rfl
  exact .ite (.refl s) (.ite (.emitTrs ..) ((h1.trans h2).trans (.sendV ..)))

/-- R361: serving the grants that wait changes no link but by granting. -/
theorem clrServe_grants (l : Nat) (b : Bor) (s : State) : Grants s (clrServe l b s) := by
  unfold clrServe
  split
  · exact .refl s
  · refine .forList (fun k t => ?_) s
    extract_lets a
    exact .ite (.refl t) ((clrGrant_grants ..).trans (.updLnk _ _ _ fun _ => rfl))

theorem Grants.bor (h : Grants s t) (k : Nat) : (t.getLnk k).bor = (s.getLnk k).bor := (congrArg Link.bor (h.still k) :)

end Grants

section Accepts
variable (l typ : Nat) (m : ClrMsg) (s : State)

theorem State.updLnk_verAt (f : Link → Link) : (s.updLnk l f).clr.verAt = s.clr.verAt := rfl

theorem clrAccept_verAt : (clrAccept l typ m s).clr.verAt = s.clr.verAt := by
  have h1 : (clrTheta l m s).clr.verAt = s.clr.verAt := by
    unfold clrTheta
    split
    · rfl
    · exact State.updLnk_verAt ..
  have h2 : (clrSample l m (clrTheta l m s)).clr.verAt = (clrTheta l m s).clr.verAt := by
    generalize clrTheta l m s = u
    unfold clrSample
    extract_lets x a y y0 b
    split <;> rfl
  exact h2.trans h1

/-- The chip is verified as before. -/
theorem clrAccept_verified : (clrAccept l typ m s).verified = s.verified := by
  simp only [State.verified, clrAccept_verAt, (clrAccept_keeps l typ m s).now_eq rfl]

theorem clrAccept_linkAud : (clrAccept l typ m s).linkAud l = s.linkAud l := by
  simp only [State.linkAud, getUnit_of_aud ((clrAccept_keeps l typ m s).aud_eq rfl)]

/-- A message without the holdover flag of a type from 3 on is performed after its acceptance. -/
theorem clrAccept_peerHold (h : bitOf m.flags 0 = false) : clrPeerHold l (clrAccept l typ m s) = clrAccept l typ m s :=
  clrPeerHold_of_not _ _ ((clrAccept_linkTo l typ m s).peerHold.trans h)

theorem Link.up_of_st {x y : Link} (h : x.st = y.st) : x.up = y.up := by rw [Link.up, Link.up, h]

end Accepts

section Lease
variable {l : Nat} {m : ClrMsg} {s : State}

/-- R348: the age of a lease on its arrival. -/
def leaseAge (l : Nat) (m : ClrMsg) (s : State) : Int := (s.now : Int) - m.ts - (s.getLnk l).theta.getD 0

theorem clrOnLease_renewal (h : bitOf m.flags 4 = true) : clrOnLease l m s = clrRenewed l m (leaseAge l m s)
    (decide (s.getLnk l).up && s.thetaOk (s.getLnk l) && !s.tb.hold && !(s.getLnk l).peerHold && decide (leaseAge l m s ≤ 4000)) s :=
  if_pos h

section New
variable (h4 : bitOf m.flags 4 = false)
include h4

theorem clrOnLease_known (hb : ((s.getLnk l).bor.any fun b => b.id = m.leaseId) = true) : clrOnLease l m s = s := by
  unfold clrOnLease
  rw [if_neg (by simp [h4])]
  exact if_pos hb

variable (hb : ((s.getLnk l).bor.any fun b => b.id = m.leaseId) = false)
include hb

theorem clrOnLease_hold (h : (s.tb.hold || (s.getLnk l).peerHold) = true) : clrOnLease l m s = clrDecline l m 3 s := by
  unfold clrOnLease
  rw [if_neg (by simp [h4])]
  exact (if_neg (by simp only [hb]; decide)).trans (if_pos h)

variable (hh : (s.tb.hold || (s.getLnk l).peerHold) = false)
include hh

theorem clrOnLease_noOffset (h : (s.getLnk l).st ≠ 2 ∨ s.thetaOk (s.getLnk l) = false ∨ s.linkAud l = true) :
    clrOnLease l m s = clrDecline l m 1 s := by
  unfold clrOnLease
  rw [if_neg (by simp [h4])]
  refine (if_neg (by simp only [hb]; decide)).trans ((if_neg (by simp only [hh]; decide)).trans (if_pos ?_))
  simpa using h

variable (hst : (s.getLnk l).st = 2) (hth : s.thetaOk (s.getLnk l) = true) (ha : s.linkAud l = false)
include hst hth ha

/-- A lease that is too old, after its record. -/
def staleRecorded (l : Nat) (m : ClrMsg) (s : State) : State :=
  if due s.now nsPerS (s.getLnk l).staleRec then
    (s.updLnk l fun y => { y with staleRec := some s.now }) |> emitTrs 0x8021 l m.leaseId (encS 32 (leaseAge l m s)) 0
  else s

theorem clrOnLease_fits : clrOnLease l m s =
    if ¬ leaseAge l m s ≤ 4000 then clrDecline l m 2 (staleRecorded l m s)
    else if 8 ≤ (s.getLnk l).bor.length ∨ 520 ≤ s.borN then clrDecline l m 5 (emitTrs 0x8023 l 1 0 0 s)
    else
      let e := leaseExp s m.expiryUs (leaseAge l m s)
      let b : Bor := { id := m.leaseId, amt := m.amount, exp := e, counted := decide (s.now + s.trs.lguard * nsPerUs < e) }
      clrServe l b ((s.updLnk l fun y => { y with bor := y.bor ++ [b] }).onTrs fun t => { t with outOfTurn := true }) := by
  unfold clrOnLease
  rw [if_neg (by simp [h4])]
  refine (if_neg (by simp only [hb]; decide)).trans ((if_neg (by simp only [hh]; decide)).trans ((if_neg (by simp [hst, hth, ha])).trans ?_))
  have hok : (!(decide ((s.getLnk l).st = 2) && s.thetaOk (s.getLnk l) && !s.noLease l && decide (leaseAge l m s ≤ 4000))) = true ↔
      ¬ leaseAge l m s ≤ 4000 := by
    simp [hst, hth, State.noLease, hh, ha]
  exact if_congr hok rfl rfl

end New
end Lease

/-- R355: a borrowed lease after the renewal of the lease `id` to `e`, when it comes before `limit`. -/
def Bor.renewed (id limit e : Nat) (ok : Bool) (b : Bor) : Bor :=
  if b.id = id ∧ ok = true ∧ b.ret = none ∧ b.void = false ∧ b.counted = true ∧ limit < b.exp ∧ b.exp < e then { b with exp := e } else b

theorem clrRenewed_linkTo (l : Nat) (m : ClrMsg) (a : Int) (ok : Bool) (s : State) :
    LinkTo l { (s.getLnk l).core with
      bor := (s.getLnk l).bor.map (Bor.renewed m.leaseId (s.now + s.trs.lguard * 1000) (leaseExp s m.expiryUs a) ok) } s
      (clrRenewed l m a ok s) :=
  LinkTo.updLnk l (fun x => { x with
    bor := x.bor.map (Bor.renewed m.leaseId (s.now + s.trs.lguard * 1000) (leaseExp s m.expiryUs a) ok) }) s

section Arrives
variable {l : Fin 65} {m : ClrMsg} {s : State}

/-- A lease that arrives without the holdover flag is taken or declined on the link as the message has left it. -/
theorem lease_performed (hr : Receives l 5 m s) (h0 : bitOf m.flags 0 = false) :
    exec (.lease l m) s = .next (clrAck l 5 m s (clrOnLease l m (clrAccept l 5 m s))) := by
  have he : exec (.lease l m) s = _ := clrMsg_of_receives hr
  rwa [show clrPerform l 5 m s = clrOnLease l m (clrPeerHold l (clrAccept l 5 m s)) from rfl, clrAccept_peerHold _ _ _ _ h0] at he

/-- R354: the local expiry does not depend on the message's own bookkeeping. -/
theorem leaseExp_clrAccept (d : Nat) (a : Int) : leaseExp (clrAccept l 5 m s) d a = leaseExp s d a := by
  simp only [leaseExp, clrAccept_verified, (clrAccept_keeps l.val 5 m s).now_eq rfl]

/-- The age of a lease by the offset that its own message may have brought. -/
def arrivalAge (l : Nat) (m : ClrMsg) (s : State) : Int :=
  (s.now : Int) - m.ts - ((clrAccept l 5 m s).getLnk l).theta.getD 0

theorem leaseAge_clrAccept : leaseAge l m (clrAccept l 5 m s) = arrivalAge l m s := by
  rw [leaseAge, arrivalAge, (clrAccept_keeps l.val 5 m s).now_eq rfl]

/-- R355: a renewal moves the expiry of its own lease, where it may. -/
theorem lease_renewal (hr : Receives l 5 m s) (h0 : bitOf m.flags 0 = false) (h4 : bitOf m.flags 4 = true) :
    let u := clrAccept l 5 m s
    let ok := (s.getLnk l).up && u.thetaOk (u.getLnk l) && !s.tb.hold && decide (arrivalAge l m s ≤ 4000)
    ∃ t, exec (.lease l m) s = .next t ∧ (t.getLnk l).bor =
        (s.getLnk l).bor.map (Bor.renewed m.leaseId (s.now + s.trs.lguard * 1000) (leaseExp s m.expiryUs (arrivalAge l m s)) ok) ∧
      (∀ k, k ≠ l.val → t.getLnk k = s.getLnk k) ∧ Only [.hm, .clr] s t := by
  intro u ok
  have hk : Keeps [.clr] s u := clrAccept_keeps ..
  have h1 : LinkTo l _ s u := clrAccept_linkTo l 5 m s
  have he := lease_performed hr h0
  have hok : (decide ((u.getLnk l).up = true) && u.thetaOk (u.getLnk l) && !u.tb.hold && !(u.getLnk l).peerHold &&
      decide (arrivalAge l m s ≤ 4000)) = ok := by
    rw [Link.up_of_st h1.st, h1.peerHold, h0, hk.tb_eq rfl]
    simp [ok]
    rfl
  rw [show clrAccept l 5 m s = u from rfl, clrOnLease_renewal h4, show leaseAge l m u = _ from leaseAge_clrAccept, hok] at he
  have h2 := clrRenewed_linkTo l m (arrivalAge l m s) ok u
  rw [h1.core, hk.now_eq rfl, hk.trs_eq rfl, leaseExp_clrAccept, h1.bor] at h2
  have h12 := h1.trans h2
  rw [clrAck_of_acked (typ := 5) (by decide) nofun (.inr h12.seqOut)] at he
  obtain ⟨h3, -⟩ := h12.acked rfl
  exact ⟨_, he, h3.bor, h3.others,
    Keeps.only (.step (clrSendV_keeps ..) (by decide) (.step (clrRenewed_keeps ..) (by decide) (hk.mono (by decide))))⟩

/-- R354: a lease that is known already changes only what every message changes. -/
theorem lease_known (hr : Receives l 5 m s) (h0 : bitOf m.flags 0 = false) (h4 : bitOf m.flags 4 = false)
    (hb : ((s.getLnk l).bor.any fun b => b.id = m.leaseId) = true) : ∃ t, exec (.lease l m) s = .next t ∧
    (t.getLnk l).bor = (s.getLnk l).bor ∧ (∀ k, k ≠ l.val → t.getLnk k = s.getLnk k) ∧ Only [.hm, .clr] s t := by
  have h1 := clrAccept_linkTo l 5 m s
  have he := lease_performed hr h0
  rw [clrOnLease_known h4 (by rw [h1.bor]; exact hb), clrAck_of_acked (typ := 5) (by decide) nofun (.inr h1.seqOut)] at he
  obtain ⟨h3, -⟩ := h1.acked rfl
  exact ⟨_, he, h3.bor, h3.others, Keeps.only (.step (clrSendV_keeps ..) (by decide) ((clrAccept_keeps ..).mono (by decide)))⟩

/-- A link that has taken the lease `b`. -/
def lentIn (l : Nat) (b : Bor) (s : State) : State :=
  (s.updLnk l fun y => { y with bor := y.bor ++ [b] }).onTrs fun t => { t with outOfTurn := true }

theorem lentIn_bor (l : Nat) (b : Bor) (s : State) : ((lentIn l b s).getLnk l).bor = (s.getLnk l).bor ++ [b] :=
  congrArg Link.bor (State.getLnk_updLnk (s := s) (k := l) fun y => { y with bor := y.bor ++ [b] })

theorem clrAck_grants (l typ : Nat) (m : ClrMsg) (s t : State) : Grants t (clrAck l typ m s t) := .ite (.refl t) (.sendV ..)

/-- R354: a new lease that passes every check is taken. -/
theorem lease_taken (hr : Receives l 5 m s) (h0 : bitOf m.flags 0 = false) (h4 : bitOf m.flags 4 = false)
    (hb : ((s.getLnk l).bor.any fun b => b.id = m.leaseId) = false) :
    let u := clrAccept l 5 m s
    let e := leaseExp s m.expiryUs (arrivalAge l m s)
    s.tb.hold = false → (s.getLnk l).st = 2 → u.thetaOk (u.getLnk l) = true → s.linkAud l = false → arrivalAge l m s ≤ 4000 →
      (s.getLnk l).bor.length < 8 → u.borN < 520 → ∃ t, exec (.lease l m) s = .next t ∧
        (t.getLnk l).bor = (s.getLnk l).bor ++
          [{ id := m.leaseId, amt := m.amount, exp := e, counted := decide (s.now + s.trs.lguard * 1000 < e) }] ∧
        t.trs.outOfTurn = true ∧ Only [.hm, .hif, .ldg, .trs, .clr] s t := by
  intro u e hh hst hth ha hage hlen hn
  have hk : Keeps [.clr] s u := clrAccept_keeps ..
  have h1 : LinkTo l _ s u := clrAccept_linkTo l 5 m s
  have he := lease_performed hr h0
  rw [show clrAccept l 5 m s = u from rfl, clrOnLease_fits h4 (by rw [h1.bor]; exact hb)
    (by rw [hk.tb_eq rfl, h1.peerHold, hh, h0]; rfl) (h1.st.trans hst) hth ((clrAccept_linkAud ..).trans ha),
    show leaseAge l m u = _ from leaseAge_clrAccept, if_neg (not_not.mpr hage), if_neg (by rw [h1.bor]; exact not_or.mpr ⟨Nat.not_le.mpr hlen, Nat.not_le.mpr hn⟩)] at he
  dsimp only at he
  rw [hk.now_eq rfl, hk.trs_eq rfl, show leaseExp u m.expiryUs (arrivalAge l m s) = e from leaseExp_clrAccept ..] at he
  generalize hbe : ({ id := m.leaseId, amt := m.amount, exp := e, counted := decide (s.now + s.trs.lguard * nsPerUs < e) } : Bor) = b at he
  have h2 := (clrServe_grants l b _).trans (clrAck_grants l 5 m s (clrServe l b (lentIn l b u)))
  have hk2 : Keeps [.hm, .hif, .ldg, .trs, .clr] s (lentIn l b u) :=
    .step (State.onTrs_keeps ..) (by decide) (.step (State.updLnk_keeps ..) (by decide) (hk.mono (by decide)))
  refine ⟨_, he, ?_, h2.turn rfl, Keeps.only (.step (clrAck_keeps ..) (by decide) (.step (clrServe_keeps ..) (by decide) hk2))⟩
  refine (h2.bor l).trans ((lentIn_bor ..).trans ?_)
  rw [h1.bor, ← hbe]
  rfl

/-- R356: a lease that is not taken is returned with its cause. -/
theorem lease_declined (hr : Receives l 5 m s) (h0 : bitOf m.flags 0 = false) (cause : Nat) {v : State}
    (hv : LinkTo l { (s.getLnk l).core with seqIn := m.seq, peerHold := bitOf m.flags 0 } s v)
    (hk : Keeps [.hm, .hif, .ldg, .clr] s v) (hc : clrOnLease l m (clrAccept l 5 m s) = clrDecline l m cause v) :
    ∃ t, exec (.lease l m) s = .next t ∧ (t.getLnk l).bor = (s.getLnk l).bor ∧
      SendsMsg l 6 m.amount m.leaseId cause s t ∧ (∀ k, k ≠ l.val → t.getLnk k = s.getLnk k) ∧
      Only [.hm, .hif, .ldg, .clr] s t := by
  have he := lease_performed hr h0
  have h2 : LinkTo l _ v (clrDecline l m cause v) := clrSendV_linkTo ..
  have hseq : ((clrDecline l m cause v).getLnk l).seqOut ≠ (s.getLnk l).seqOut := by
    rw [h2.seqOut, ← show (v.getLnk l).seqOut = (s.getLnk l).seqOut from hv.seqOut]
    exact Link.nextSeq_ne _
  rw [hc, clrAck_of_answered (by decide) (.inr hseq)] at he
  rw [hv.core] at h2
  have h12 := hv.trans h2
  have hs : SendsTo l 6 m.amount m.leaseId cause v (clrDecline l m cause v) := clrSendV_sendsTo _ _ _ _ (by decide)
  exact ⟨_, he, h12.bor, (hs.before hv.posted hv.addr).sends, h12.others, Keeps.only (.step (clrDecline_keeps ..) (by decide) hk)⟩

/-- R354: holdover, a missing offset or peer, age, and full tables each name their cause. -/
theorem lease_returned (hr : Receives l 5 m s) (h0 : bitOf m.flags 0 = false) (h4 : bitOf m.flags 4 = false)
    (hb : ((s.getLnk l).bor.any fun b => b.id = m.leaseId) = false) :
    let u := clrAccept l 5 m s
    let a := arrivalAge l m s
    ∀ cause, (s.tb.hold = true ∧ cause = 3) ∨
        (s.tb.hold = false ∧ ((s.getLnk l).st ≠ 2 ∨ u.thetaOk (u.getLnk l) = false ∨ s.linkAud l = true) ∧ cause = 1) ∨
        (s.tb.hold = false ∧ (s.getLnk l).st = 2 ∧ u.thetaOk (u.getLnk l) = true ∧ s.linkAud l = false ∧ 4000 < a ∧ cause = 2) ∨
        (s.tb.hold = false ∧ (s.getLnk l).st = 2 ∧ u.thetaOk (u.getLnk l) = true ∧ s.linkAud l = false ∧ a ≤ 4000 ∧
          (8 ≤ (s.getLnk l).bor.length ∨ 520 ≤ u.borN) ∧ cause = 5) →
      ∃ t, exec (.lease l m) s = .next t ∧ (t.getLnk l).bor = (s.getLnk l).bor ∧
        SendsMsg l 6 m.amount m.leaseId cause s t ∧ (∀ k, k ≠ l.val → t.getLnk k = s.getLnk k) ∧
        Only [.hm, .hif, .ldg, .clr] s t := by
  intro u a cause hcases
  have hk : Keeps [.clr] s u := clrAccept_keeps ..
  have hk' : Keeps [.hm, .hif, .ldg, .clr] s u := hk.mono (by decide)
  have h1 : LinkTo l _ s u := clrAccept_linkTo l 5 m s
  have hbu : ((u.getLnk l).bor.any fun b => b.id = m.leaseId) = false := by rw [h1.bor]; exact hb
  have hhu : (u.tb.hold || (u.getLnk l).peerHold) = s.tb.hold := by rw [hk.tb_eq rfl, h1.peerHold, h0, Bool.or_false]
  have hu : leaseAge l m u = a := leaseAge_clrAccept
  have hau : u.linkAud l = s.linkAud l := clrAccept_linkAud ..
  rcases hcases with ⟨hh, rfl⟩ | ⟨hh, hno, rfl⟩ | ⟨hh, hst, hth, ha, hage, rfl⟩ | ⟨hh, hst, hth, ha, hage, hfull, rfl⟩
  · exact lease_declined hr h0 3 h1 hk' (clrOnLease_hold h4 hbu (hhu.trans hh))
  · exact lease_declined hr h0 1 h1 hk' (clrOnLease_noOffset h4 hbu (hhu.trans hh) (by rw [h1.st, hau]; exact hno))
  · have hs : LinkTo l (u.getLnk l).core u (staleRecorded l m u) := by
      refine .ite ?_ (.refl l u)
      have hu := LinkTo.updLnk_core l (fun y => { y with staleRec := some u.now }) u fun _ => rfl
      exact hu.trans ((LinkTo.emitTrs ..).cast hu.core)
    rw [h1.core] at hs
    refine lease_declined hr h0 2 (h1.trans hs) ?_ ((clrOnLease_fits h4 hbu (hhu.trans hh) (h1.st.trans hst) hth (hau.trans ha)).trans
      (if_pos (hu ▸ not_le.mpr hage)))
    exact .ite (.step (emitTrs_keeps ..) (by decide) (.step (State.updLnk_keeps ..) (by decide) hk')) hk'
  · refine lease_declined hr h0 5 (h1.trans ((LinkTo.emitTrs 0x8023 l 1 0 0 u).cast h1.core)) (.step (emitTrs_keeps ..) (by decide) hk')
      ((clrOnLease_fits h4 hbu (hhu.trans hh) (h1.st.trans hst) hth (hau.trans ha)).trans
        ((if_neg (not_not.mpr (hu ▸ hage))).trans (if_pos ?_)))
    rw [h1.bor]
    exact hfull

end Arrives

section Ends
variable {l : Fin 65} {m : ClrMsg} {id : Nat} {s : State}

theorem filter_absent {α : Type} {l : List α} {p : α → Prop} [DecidablePred p] (h : l.any (fun a => decide (p a)) = false) :
    l.filter (fun a => decide ¬ p a) = l := by
  refine List.filter_eq_self.mpr fun a ha => ?_
  have := List.any_eq_false.mp h a ha
  simpa using this

/-- R353: a RETURN takes its lease out of the lent table, where there is one. -/
theorem clrOnReturn_linkTo (l : Nat) (m : ClrMsg) (s : State) :
    LinkTo l { (s.getLnk l).core with lent := (s.getLnk l).lent.filter fun e => e.id ≠ m.leaseId } s (clrOnReturn l m s) := by
  unfold clrOnReturn
  cases h : (s.getLnk l).lent.any fun e => e.id = m.leaseId
  · rw [if_neg (by decide), filter_absent h]
    exact .refl l s
  · rw [if_pos rfl]
    have h1 := LinkTo.updLnk l (fun x => { x with lent := x.lent.filter fun e => e.id ≠ m.leaseId }) s
    exact h1.trans ((LinkTo.onTrs _ _).cast h1.core)

theorem return_received (hr : Receives l 6 m s) : ∃ t, exec (.returnMsg l m) s = .next t ∧
    (t.getLnk l).lent = (s.getLnk l).lent.filter (fun e => e.id ≠ m.leaseId) ∧
    (bitOf m.flags 0 = false → (t.getLnk l).bor = (s.getLnk l).bor) ∧
    (∀ k, k ≠ l.val → t.getLnk k = s.getLnk k) ∧ Only [.hm, .trs, .clr] s t := by
  have he : exec (.returnMsg l m) s = _ := clrMsg_of_receives hr
  have h1 := clrAccept_linkTo l 6 m s
  obtain ⟨bor, h2, hbor⟩ := clrPeerHold_linkTo l (clrAccept l 6 m s)
  rw [h1.core] at h2
  have h3 := clrOnReturn_linkTo l m (clrPeerHold l (clrAccept l 6 m s))
  rw [h2.core, h2.lent] at h3
  have h123 := (h1.trans h2).trans h3
  rw [show clrPerform l 6 m s = clrOnReturn l m (clrPeerHold l (clrAccept l 6 m s)) from rfl,
    clrAck_of_acked (typ := 6) (by decide) nofun (.inr h123.seqOut)] at he
  obtain ⟨h4, -⟩ := h123.acked rfl
  exact ⟨_, he, h4.lent, fun h0 => h4.bor.trans ((hbor (h1.peerHold.trans h0)).trans h1.bor), h4.others,
    Keeps.only (.step (clrSendV_keeps ..) (by decide) (.step (clrOnReturn_keeps ..) (by decide) (.step (clrPeerHold_keeps ..) (by decide)
      ((clrAccept_keeps ..).mono (by decide)))))⟩

section Live
variable (hl : s.live = true)
include hl

/-- R353: a lent lease whose term has passed leaves the table. -/
theorem lent_expires (h : ∃ e ∈ (s.getLnk l).lent, e.id = id ∧ e.end_ ≤ s.now) :
    ∃ t, exec (.clrLeaseExpired l id) s = .next t ∧ (t.getLnk l).lent = (s.getLnk l).lent.filter (fun e => e.id ≠ id) ∧
      (t.getLnk l).bor = (s.getLnk l).bor ∧ t.trs.outOfTurn = true ∧ (∀ k, k ≠ l.val → t.getLnk k = s.getLnk k) ∧
      Only [.hm, .hif, .ldg, .trs, .clr] s t := by
  refine ⟨_, act_of_live hl _, ?_⟩
  have hk := (lentExpire_keeps l id s).only
  revert hk
  unfold lentExpire
  extract_lets x first s1
  obtain ⟨e, hmem, hid, hend⟩ := h
  have hin : e ∈ x.lent.filter fun e => e.id = id && decide (e.end_ ≤ s.now) := List.mem_filter.mpr ⟨hmem, by simp [hid, hend]⟩
  split
  · next hnone => rw [List.head?_eq_none_iff.mp hnone] at hin; cases hin
  · next e1 _ =>
    intro hk
    have h1 : LinkTo l (Link.core { s.getLnk l with
        lent := (s.getLnk l).lent.filter (fun k => k.id ≠ id), expRec := if first then some s.now else (s.getLnk l).expRec }) s s1 :=
      (LinkTo.updLnk l (fun y => { y with
        lent := y.lent.filter (fun k => k.id ≠ id), expRec := if first then some s.now else y.expRec }) s).trans
        ((LinkTo.onTrs _ _).cast (by rw [State.getLnk_updLnk]))
    have h2 := h1.trans ((LinkTo.emitTrs 0x8022 l id e1.amt 0 s1).cast h1.core)
    have hturn : s1.trs.outOfTurn = true := rfl
    revert hk
    split
    · exact fun hk => ⟨h2.lent, h2.bor, (congrArg Treasury.outOfTurn (emit_trs ..)).trans hturn, h2.others, hk⟩
    · exact fun hk => ⟨h1.lent, h1.bor, hturn, h1.others, hk⟩

theorem lent_runs (h : ∀ e ∈ (s.getLnk l).lent, e.id = id → s.now < e.end_) : exec (.clrLeaseExpired l id) s = .next s := by
  refine act_eq hl ?_
  have hnone : (s.getLnk l).lent.filter (fun e => e.id = id && decide (e.end_ ≤ s.now)) = [] := by
    refine List.filter_eq_nil_iff.mpr fun e he => ?_
    simpa using h e he
  unfold lentExpire
  extract_lets x first s1
  rw [hnone]
  rfl

/-- R354: a borrowed lease leaves at its local expiry. -/
theorem borrowed_expires (h : ∃ b ∈ (s.getLnk l).bor, b.id = id ∧ b.exp ≤ s.now) :
    ∃ t, exec (.borrowedLeaseExpiry l id) s = .next t ∧ (t.getLnk l).bor = (s.getLnk l).bor.filter (fun b => b.id ≠ id) ∧
      (t.getLnk l).lent = (s.getLnk l).lent ∧ t.trs.outOfTurn = true ∧ (∀ k, k ≠ l.val → t.getLnk k = s.getLnk k) ∧
      Only [.trs, .clr] s t := by
  obtain ⟨b, hmem, hid, hexp⟩ := h
  have h1 := LinkTo.updLnk l (fun x => { x with bor := x.bor.filter fun b => b.id ≠ id }) s
  have h2 := h1.trans ((LinkTo.onTrs (fun t => { t with outOfTurn := true }) _).cast h1.core)
  refine ⟨_, act_eq hl (if_pos (List.any_eq_true.mpr ⟨b, hmem, by simp [hid, hexp]⟩)), h2.bor, h2.lent, rfl, h2.others, ?_⟩
  exact Keeps.only (.step (State.onTrs_keeps ..) (by decide) ((State.updLnk_keeps ..).mono (by decide)))

theorem borrowed_runs (h : ∀ b ∈ (s.getLnk l).bor, b.id = id → s.now < b.exp) : exec (.borrowedLeaseExpiry l id) s = .next s :=
  act_eq hl (if_neg (by simpa using h))

/-- R352, R356: a lease that is void or whose return has not begun is not returned. -/
theorem return_nothing (h : ∀ b ∈ (s.getLnk l).bor, b.id = id → b.ret = none ∨ b.void = true) :
    exec (.returnSend l id) s = .next s := by
  refine act_eq hl ?_
  have hnone : (s.getLnk l).bor.filter (fun b => b.id = id && b.ret.isSome && !b.void) = [] := by
    refine List.filter_eq_nil_iff.mpr fun b hb => ?_
    simp only [Bool.and_eq_true, decide_eq_true_eq, Bool.not_eq_true', not_and, Bool.not_eq_false]
    rintro ⟨hid, hret⟩
    exact (h b hb hid).resolve_left (by rintro hn; simp [hn] at hret)
  unfold returnSend
  rw [hnone]
  rfl

/-- R356: a RETURN goes out once `LGUARD` has passed since its return began or the power has fallen. -/
theorem return_sent {b : Bor} {t0 cause : Nat} (hb : (s.getLnk l).bor = [b]) (hid : b.id = id) (hret : b.ret = some (t0, cause))
    (hv : b.void = false) (hfw : s.fwUp = true) :
    (t0 + s.trs.lguard * 1000 ≤ s.now ∨ s.fallen t0 = true → ∃ t, exec (.returnSend l id) s = .next t ∧ (t.getLnk l).bor = [] ∧
      SendsMsg l 6 b.amt id cause s t ∧ (∀ k, k ≠ l.val → t.getLnk k = s.getLnk k) ∧ Only [.hm, .clr] s t) ∧
    (s.now < t0 + s.trs.lguard * 1000 → s.fallen t0 = false → exec (.returnSend l id) s = .next s) := by
  have hone : (s.getLnk l).bor.filter (fun b => b.id = id && b.ret.isSome && !b.void) = [b] := by simp [hb, hid, hret, hv]
  have he : returnSend l id s = if s.fwUp && (decide (t0 + s.trs.lguard * nsPerUs ≤ s.now) || s.fallen t0) then
      clrSendV l 6 { amount := b.amt, leaseId := id, cause := cause }
        (s.updLnk l fun x => { x with bor := x.bor.filter fun y => y.id ≠ id })
      else s := by
    unfold returnSend
    rw [hone]
    dsimp only [List.head?_cons]
    rw [hret]
  have hns : nsPerUs = 1000 := rfl
  refine ⟨fun h => ?_, fun h1 h2 => act_eq hl (he.trans (if_neg (by simp [hns, h2, Nat.not_le.mpr h1])))⟩
  have h1 := LinkTo.updLnk l (fun x => { x with bor := x.bor.filter fun y => y.id ≠ id }) s
  have h2 := (clrSendV_sendsTo l 6 { amount := b.amt, leaseId := id, cause := cause } _ (by decide)).before h1.posted h1.addr
  have h3 := h1.trans (clrSendV_linkTo l 6 { amount := b.amt, leaseId := id, cause := cause } _)
  refine ⟨_, act_eq hl (he.trans (if_pos (by simpa [hns, hfw] using h))), h3.bor.trans ?_, h2.sends, h3.others, ?_⟩
  · exact h1.bor.trans (show (s.getLnk l).bor.filter (fun y => y.id ≠ id) = [] by simp [hb, hid])
  · exact Keeps.only (.step (clrSendV_keeps ..) (by decide) ((State.updLnk_keeps ..).mono (by decide)))

end Live

end Ends

/-- Settles O38: what a LEASE of each kind and a RETURN do, and when leases end. -/
theorem leasesBorrowedAndEnded : Obligations.LeasesBorrowedAndEnded := by
  refine ⟨fun s l m hr h0 => ⟨fun h4 => ?_, fun h4 hb => ⟨lease_taken hr h0 h4 hb, lease_returned hr h0 h4 hb⟩,
    lease_known hr h0⟩, fun s l m id => ⟨return_received, fun hl => ⟨lent_expires hl, lent_runs hl, borrowed_expires hl,
    borrowed_runs hl, fun b hb hv => return_nothing hl ?_, fun b t0 cause hb hid hret hv hfw => return_sent hl hb hid hret hv hfw,
    fun h => return_nothing hl fun b hb hid => .inl (h b hb hid)⟩⟩⟩
  · obtain ⟨t, ht, hb, hothers, honly⟩ := lease_renewal hr h0 h4
    refine ⟨t, ht, ?_, hothers, honly⟩
    rw [hb]
    rfl
  rw [hb]
  exact fun b' hb' _ => .inr (List.mem_singleton.mp hb' ▸ hv)

end Sys2Proof.Machine
end

section
/-!
Rounds of Clearing, STATE and OFFER, acknowledgements missed, the retry timer, and Clearing's registers (R347, R349, R350, R361, R368).
-/
namespace Sys2Proof.Machine

/-- From `s` to `t` link `l` has become `y` exactly, the manager port and Ledger have taken what they were given, and nothing else
has happened. -/
structure Sets (l : Nat) (y : Link) (s t : State) : Prop where
  lnk : t.getLnk l = y
  others : ∀ k, k ≠ l → t.getLnk k = s.getLnk k
  posted : Posted s t
  keeps : Keeps [.hm, .hif, .ldg, .clr] s t
  retry : t.clr.retryMs = s.clr.retryMs
  round : t.clr.roundAt = s.clr.roundAt

namespace Sets
variable {l : Nat} {y z : Link} {r s t : State}

theorem trans (h : Sets l y r s) (g : Sets l z s t) : Sets l z r t :=
  ⟨g.lnk, fun k hk => (g.others k hk).trans (h.others k hk), h.posted.trans g.posted, h.keeps.trans g.keeps, g.retry.trans h.retry,
    g.round.trans h.round⟩

theorem updLnk (l : Nat) (f : Link → Link) (s : State) : Sets l (f (s.getLnk l)) s (s.updLnk l f) :=
  ⟨State.getLnk_updLnk .., fun _ hk => State.getLnk_updLnk_ne _ _ _ hk, .of_eq (State.updLnk_hm ..),
    (State.updLnk_keeps ..).mono (by decide), rfl, rfl⟩

theorem then_updLnk (h : Sets l y r s) (f : Link → Link) : Sets l (f y) r (s.updLnk l f) := h.lnk ▸ h.trans (updLnk l f s)

theorem then_emit (h : Sets l y r s) (code p0 p1 p2 p3 : Nat) : Sets l y r (emitTrs code p0 p1 p2 p3 s) :=
  h.trans ⟨(emit_getLnk ..).trans h.lnk, fun _ _ => emit_getLnk .., emit_posted .., (emitTrs_keeps ..).mono (by decide),
    congrArg Clearing.retryMs (emit_clr ..), congrArg Clearing.roundAt (emit_clr ..)⟩

end Sets

section Judge
variable (now retryMs : Nat)

/-- The peer of a link is given up (R350). -/
def Link.absent (y : Link) : Link := { y with st := 4, retry := some (now + retryMs * nsPerMs), joinRounds := 0, due := 0 }

/-- A link after it has been judged (R349, Table 13.4). -/
def Link.judged (x : Link) : Link :=
  let x0 : Link := { x with rxRound := false, badRound := false }
  if x.st = 1 then if x.joinRounds + 1 < 3 then { x0 with joinRounds := x.joinRounds + 1 } else x0.absent now retryMs
  else if x.up = false then x0
  else if x.rxRound = true ∧ x.badRound = false then { x0 with st := 2, missed := 0 }
  else
    let x1 : Link := { x0 with st := 3, missed := min 3 (x.missed + 1) }
    if x.missed + 1 < 3 then x1 else x1.absent now retryMs

end Judge

/-- No Audit test of a link is in progress. -/
def NoLinkTest (s : State) : Prop := ∀ a, s.aud.test = some a → a.kind ≠ 5

theorem clrJudge_sets (l : Nat) {s : State} (hn : NoLinkTest s) :
    Sets l ((s.getLnk l).judged s.now s.clr.retryMs) s (clrJudge l s) := by
  unfold clrJudge Link.judged
  extract_lets x0 x1 x miss s0 absent s1 s2
  have h0 : Sets l x0 s s0 := .updLnk l (fun y => { y with rxRound := false, badRound := false }) s
  have hab : ∀ {y : Link} {t : State}, Sets l y s t → Sets l (y.absent s.now s.clr.retryMs) s (absent t) := fun h =>
    h.then_updLnk (Link.absent s.now s.clr.retryMs)
  have h1 : Sets l x1 s s1 := h0.then_updLnk fun y => { y with st := 3, missed := min 3 (y.missed + 1) }
  by_cases hst : (s.getLnk l).st = 1
  · rw [if_pos hst, if_pos hst]
    by_cases hj : (s.getLnk l).joinRounds + 1 < 3
    · rw [if_pos hj, if_pos hj]
      exact h0.then_updLnk fun y => { y with joinRounds := y.joinRounds + 1 }
    · rw [if_neg hj, if_neg hj]
      exact hab h0
  rw [if_neg hst, if_neg hst]
  cases hup : (s.getLnk l).up
  · rw [if_pos rfl, if_pos (show (!false) = true from rfl)]
    exact h0
  rw [if_neg (by decide), if_neg (show ¬ (!true) = true by decide)]
  by_cases hm : (s.getLnk l).rxRound = true ∧ (s.getLnk l).badRound = false
  · rw [if_pos hm, if_pos (show (!miss) = true by simp [miss, x, hm])]
    exact h0.then_updLnk fun y => { y with st := 2, missed := 0 }
  rw [if_neg hm, if_neg (show ¬ (!miss) = true by simpa [miss, x, not_and_or] using hm)]
  have h2 : Sets l (if (s.getLnk l).missed + 1 < 3 then x1 else x1.absent s.now s.clr.retryMs) s s2 := by
    by_cases h3 : (s.getLnk l).missed + 1 < 3
    · rw [if_pos h3, show s2 = s1 from if_pos h3]
      exact h1
    · rw [if_neg h3, show s2 = emitTrs _ _ _ _ _ _ from if_neg h3]
      exact (hab h1).then_emit ..
  generalize (if (s.getLnk l).missed + 1 < 3 then x1 else x1.absent s.now s.clr.retryMs) = y at h2 ⊢
  split
  · next a ha => rwa [if_neg fun hc => hn a ha hc.1]
  · exact h2

section JudgeAll
variable {s : State}

/-- What a round's judgements leave: each link judged once, and no more. -/
structure JudgedAll (s t : State) : Prop where
  lnk : ∀ k, t.getLnk k = if k ∈ s.links then (s.getLnk k).judged s.now s.clr.retryMs else s.getLnk k
  posted : Posted s t
  keeps : Keeps [.hm, .hif, .ldg, .clr] s t
  round : t.clr.roundAt = s.clr.roundAt

theorem judgedAll (hn : NoLinkTest s) : JudgedAll s (forList s.links clrJudge s) := by
  let Q : State → Prop := fun u => Keeps [.hm, .hif, .ldg, .clr] s u ∧ u.clr.retryMs = s.clr.retryMs ∧ Posted s u ∧
    u.clr.roundAt = s.clr.roundAt
  have hnq : ∀ u, Q u → NoLinkTest u := fun u hu a ha => hn a (by rwa [hu.1.aud_eq rfl] at ha)
  have hq : ∀ a u, Q u → Q (clrJudge a u) := fun a u hu =>
    have h := clrJudge_sets a (hnq u hu)
    ⟨hu.1.trans h.keeps, h.retry.trans hu.2.1, hu.2.2.1.trans h.posted, h.round.trans hu.2.2.2⟩
  have hs : Q s := ⟨.refl _ _, rfl, .refl s, rfl⟩
  have hend : Q (forList s.links clrJudge s) := forList_ind (fun a _ u hu => hq a u hu) hs
  refine ⟨fun k => ?_, hend.2.2.1, hend.1, hend.2.2.2⟩
  refine forList_entry_of (fun u => u.getLnk k) (g := Link.judged s.now s.clr.retryMs) hq (fun u hu => ?_)
    (fun j hj u hu => (clrJudge_sets j (hnq u hu)).others k hj.symm) (List.nodup_range.filter _) hs
  rw [(clrJudge_sets k (hnq u hu)).lnk, hu.1.now_eq rfl, hu.2.1]

end JudgeAll

section After
variable {r s t : State}

/-- A link without what the later parts of a round change on it: also the leases borrowed. -/
def Link.frame (x : Link) : Link := { x.still with bor := [] }

/-- From `s` to `t` links have only sent messages and dealt with leases. -/
structure Deals (s t : State) : Prop where
  frame : ∀ k, (t.getLnk k).frame = (s.getLnk k).frame
  posted : Posted s t
  round : t.clr.roundAt = s.clr.roundAt

namespace Deals

theorem refl (s : State) : Deals s s := ⟨fun _ => rfl, .refl s, rfl⟩

theorem trans (h : Deals r s) (g : Deals s t) : Deals r t := ⟨fun k => (g.frame k).trans (h.frame k), h.posted.trans g.posted, g.round.trans h.round⟩

theorem ite {p : Prop} [Decidable p] (h : Deals r s) (g : Deals r t) : Deals r (if p then s else t) := by split <;> assumption

theorem of_lnk (h : t.clr.lnk = s.clr.lnk) (hr : t.clr.roundAt = s.clr.roundAt) (hm : t.hm = s.hm) : Deals s t :=
  ⟨fun k => congrArg Link.frame (congrArg (fun l => Tbl.get ({} : Link) l k) h), .of_eq hm, hr⟩

end Deals

theorem Grants.deals (h : Grants s t) : Deals s t := ⟨fun k => congrArg (fun x => { x with bor := [] }) (h.still k), h.posted, h.round⟩

theorem LinkTo.deals {l : Nat} {y : Link} (h : LinkTo l y s t) (hy : { y with seqOut := 0, lent := [], due := 0, bor := [] } = (s.getLnk l).frame)
    (hr : t.clr.roundAt = s.clr.roundAt) : Deals s t where
  frame k := by
    by_cases hk : k = l
    · rw [hk, ← hy, ← h.core]; rfl
    · rw [h.others k hk]
  posted := h.posted
  round := hr

theorem foldl_deals {α β : Type} (l : List α) {f : State × β → α → State × β} (hf : ∀ a x, Deals a.1 (f a x).1) (a : State × β) :
    Deals a.1 (l.foldl f a).1 := by
  induction l generalizing a with
  | nil => exact .refl _
  | cons x l ih => exact (hf a x).trans (ih _)

theorem clrSubLease_grants (l : Nat) (bs : List (Nat × Bor)) (amt : Nat) (s : State) : Grants s (clrSubLease l bs amt s) := by
  induction bs generalizing amt s with
  | nil => exact .refl s
  | cons b bs ih => exact (clrGrant_grants ..).trans (ih ..)

theorem clrLend_grants (l amt : Nat) (s : State) : Grants s (clrLend l amt s) := (clrGrant_grants ..).trans (clrSubLease_grants ..)

theorem clrGrants_deals (p : ClrPlan) (s : State) : Deals s (clrGrants p s) :=
  foldl_deals (f := fun a l => ((clrLend l (min (Tbl.get 0 p.g l) a.2) a.1).updLnk l fun y =>
      { y with due := Tbl.get 0 p.g l - min (Tbl.get 0 p.g l) a.2 }, a.2 - min (Tbl.get 0 p.g l) a.2)) _
    (fun a l => ((clrLend_grants ..).trans (.updLnk l (fun y => { y with due := Tbl.get 0 p.g l - min (Tbl.get 0 p.g l) a.2 }) _
      fun _ => rfl)).deals) (s, _)

theorem clrUnneeded_deals (left : Nat) (s : State) : Deals s (clrUnneeded left s) := by
  refine foldl_deals (f := fun (a : State × Nat) (e : Nat × Bor) =>
    if e.2.amt ≤ a.2 ∧ a.1.subUse e.1 e.2.id = 0 then (beginReturn e.1 e.2.id 0 a.1, a.2 - e.2.amt) else a) _ (fun a e => ?_) (s, left)
  split
  · exact (beginReturn_linkTo ..).deals rfl rfl
  · exact .refl _

theorem clrRenew_grants (l : Nat) (s : State) : Grants s (clrRenew l s) := by
  refine .forList (fun e t => ?_) s
  extract_lets d t1
  have h1 : Grants t t1 := .updLnk _ _ _ fun y => by simp only [Link.still, Link.core]
  exact .ite (.refl t) (h1.trans (.sendV ..))

/-- Link `l` is sent a message of type `typ`. -/
def SendsType (l typ : Nat) (s t : State) : Prop :=
  ∃ q w, Posting (.msg ((s.getLnk l).addr + 128 * (q % 8)) w) s t ∧ bits (w.getD 0 0) 24 8 = typ

namespace SendsType
variable {l typ : Nat}

theorem of_sendsTo {amount leaseId cause : Nat} (h : SendsTo l typ amount leaseId cause s t) : SendsType l typ s t := by
  obtain ⟨q, w, hw, htyp, -⟩ := h
  exact ⟨q, w, hw, htyp⟩

theorem after (h : SendsType l typ r s) (g : Posted s t) : SendsType l typ r t := by
  obtain ⟨q, w, hw, htyp⟩ := h
  exact ⟨q, w, hw.after g, htyp⟩

theorem before (g : SendsType l typ s t) (h : Posted r s) (ha : (s.getLnk l).addr = (r.getLnk l).addr) : SendsType l typ r t := by
  obtain ⟨q, w, hw, htyp⟩ := g
  exact ⟨q, w, ha ▸ hw.before h, htyp⟩

end SendsType

theorem Deals.addr (h : Deals s t) (k : Nat) : (t.getLnk k).addr = (s.getLnk k).addr := (congrArg Link.addr (h.frame k) :)
theorem Deals.st (h : Deals s t) (k : Nat) : (t.getLnk k).st = (s.getLnk k).st := (congrArg Link.st (h.frame k) :)
theorem Deals.en (h : Deals s t) (k : Nat) : (t.getLnk k).en = (s.getLnk k).en := (congrArg Link.en (h.frame k) :)
theorem Deals.missed (h : Deals s t) (k : Nat) : (t.getLnk k).missed = (s.getLnk k).missed := (congrArg Link.missed (h.frame k) :)
theorem Deals.retry (h : Deals s t) (k : Nat) : (t.getLnk k).retry = (s.getLnk k).retry := (congrArg Link.retry (h.frame k) :)
theorem Deals.joinRounds (h : Deals s t) (k : Nat) : (t.getLnk k).joinRounds = (s.getLnk k).joinRounds :=
  (congrArg Link.joinRounds (h.frame k) :)

section Report
variable (p : ClrPlan) (s : State)

/-- R361: the OFFER that a child is sent. -/
def offerTo (l : Nat) (t : State) : State :=
  clrSendV l 4 { slack := slackFor (t.getLnk l).ver t, amount := if t.linkAud l then 0 else min 65535 (Tbl.get 0 p.c l) } t

/-- R361: the children have been sent their OFFERs. -/
def offered : State := forList s.children (offerTo p) s

theorem offerTo_grants (l : Nat) (t : State) : Grants t (offerTo p l t) := .sendV ..

theorem offered_grants : Grants s (offered p s) := .forList (fun l t => offerTo_grants p l t) s

theorem offered_sends {l : Nat} (hl : l ∈ s.children) : SendsType l 4 s (offered p s) := by
  refine forList_est_of (P := SendsType l 4 s) (Q := Grants s) hl (fun a u hu => hu.trans (offerTo_grants p a u))
    (fun a u _ hu => hu.after (offerTo_grants p a u).posted) (fun u hu => ?_) (.refl s)
  exact (SendsType.of_sendsTo (clrSendV_sendsTo l 4 _ u (by decide))).before hu.posted (hu.deals.addr l)

/-- The STATE that the parent is sent, where there is one. -/
theorem clrReport_cases : clrReport p s = offered p s ∧ ¬ (((offered p s).getLnk 0).en = true ∧ ((offered p s).getLnk 0).up = true) ∨
    ∃ m f, clrReport p s = (clrSendV 0 3 m (offered p s)).onClr f ∧ ∀ c, (f c).lnk = c.lnk ∧ (f c).roundAt = c.roundAt := by
  unfold clrReport
  extract_lets s1 x q sur need
  by_cases h : (x.en && x.up) = true
  · rw [if_pos h]
    exact .inr ⟨_, _, rfl, fun _ => ⟨rfl, rfl⟩⟩
  · rw [if_neg h]
    exact .inl ⟨rfl, fun hc => h (by rw [Bool.and_eq_true]; exact hc)⟩

theorem clrReport_deals : Deals s (clrReport p s) := by
  rcases clrReport_cases p s with ⟨he, -⟩ | ⟨m, f, he, hf⟩
  · exact he ▸ (offered_grants p s).deals
  · rw [he]
    exact ((offered_grants p s).trans (.sendV ..)).deals.trans (.of_lnk (hf _).1 (hf _).2 rfl)

theorem clrReport_offers {l : Nat} (hl : l ∈ s.children) : SendsType l 4 s (clrReport p s) := by
  have h := offered_sends p s hl
  rcases clrReport_cases p s with ⟨he, -⟩ | ⟨m, f, he, hf⟩
  · exact he ▸ h
  · rw [he]
    exact (h.after (clrSend_posted ..)).after (.of_eq rfl)

theorem clrReport_states (hen : (s.getLnk 0).en = true) (hup : (s.getLnk 0).up = true) : SendsType 0 3 s (clrReport p s) := by
  have ho := (offered_grants p s).deals
  rcases clrReport_cases p s with ⟨-, hn⟩ | ⟨m, f, he, hf⟩
  · exact absurd ⟨(ho.en 0).trans hen, (Link.up_of_st (ho.st 0)).trans hup⟩ hn
  · rw [he]
    refine ((SendsType.of_sendsTo (clrSendV_sendsTo 0 3 m (offered p s) (by decide))).before ho.posted (ho.addr 0)).after (.of_eq rfl)

end Report

end After

section Round
variable {s : State}

/-- The state in which a round judges its links: the wait fraction taken and the round's time set. -/
def roundBegun (s : State) : State := (clrWaitf s).onClr fun c => { c with roundAt := s.now }

theorem roundBegun_keeps : Keeps [.syn, .clr] s (roundBegun s) :=
  .step (State.onClr_keeps ..) (by decide) ((clrWaitf_keeps s).mono (by decide))

theorem roundBegun_clr : (roundBegun s).clr = { s.clr with roundAt := s.now } := by
  rw [roundBegun, State.onClr_clr, (clrWaitf_keeps s).clr_eq rfl]

theorem roundBegun_lnk : (roundBegun s).clr.lnk = s.clr.lnk := by rw [roundBegun_clr]

theorem roundBegun_getLnk (k : Nat) : (roundBegun s).getLnk k = s.getLnk k := by rw [State.getLnk, roundBegun_lnk]; rfl

theorem roundBegun_clrUp : (roundBegun s).clrUp = s.clrUp := by
  have hk := roundBegun_keeps (s := s)
  rw [State.clrUp, State.fwUp, hk.fw_eq rfl, hk.only.same .pwr (by decide), roundBegun_clr]
  rfl

theorem roundBegun_links : (roundBegun s).links = s.links := by
  rw [State.links, funext fun k => congrArg Link.en (roundBegun_getLnk (s := s) k)]; rfl

/-- The state in which a round has judged its links. -/
def roundJudged (s : State) : State := forList (roundBegun s).links clrJudge (roundBegun s)

theorem clrRound_early (h : s.now < s.clr.roundAt + 10000) : clrRound s = s := if_pos h

theorem clrRound_off (h : s.clr.roundAt + 10000 ≤ s.now) (hup : s.clrUp = false) : clrRound s = roundBegun s := by
  unfold clrRound
  rw [if_neg (Nat.not_lt.mpr h)]
  exact if_pos (show (!(roundBegun s).clrUp) = true by rw [roundBegun_clrUp, hup]; rfl)

/-- After its report a round only deals with leases. -/
theorem clrRound_deals (h : s.clr.roundAt + 10000 ≤ s.now) (hup : s.clrUp = true) :
    ∃ p, Deals (clrReport p (roundJudged s)) (clrRound s) ∧ Keeps [.hm, .hif, .ldg, .trs, .clr] (roundJudged s) (clrRound s) := by
  unfold clrRound
  rw [if_neg (Nat.not_lt.mpr h)]
  extract_lets s1 s2 p s3 s4 left s5 s6
  rw [if_neg (show ¬ (!s1.clrUp) = true by rw [show s1.clrUp = s.clrUp from roundBegun_clrUp, hup]; decide)]
  have h4 : Deals s3 s4 := .ite (.refl s3) (Grants.forList clrRenew_grants s3).deals
  have h5 : Deals s4 s5 := clrGrants_deals ..
  have h6 : Deals s5 s6 := clrUnneeded_deals ..
  have h7 : ∀ u : State, Deals u (u.onClr fun c => { c with pSum := 0, pN := 0 }) := fun u => .of_lnk rfl rfl rfl
  refine ⟨p, ((h4.trans h5).trans h6).trans (h7 s6), ?_⟩
  have k3 : Keeps [.hm, .clr] s2 s3 := clrReport_keeps ..
  have k4 : Keeps [.hm, .clr] s2 s4 := .ite k3 (forList_keeps _ (fun l _ hu => .step (clrRenew_keeps l _) (by decide) hu) k3)
  have k5 : Keeps [.hm, .hif, .ldg, .trs, .clr] s2 s5 := .step (clrGrants_keeps ..) (by decide) (k4.mono (by decide))
  exact .step (State.onClr_keeps ..) (by decide) (.step (clrUnneeded_keeps ..) (by decide) k5)

theorem roundJudged_all (hn : NoLinkTest s) : JudgedAll (roundBegun s) (roundJudged s) :=
  judgedAll (by rwa [NoLinkTest, roundBegun_keeps.aud_eq rfl])

/-- A judged link keeps its mailbox. -/
theorem Link.judged_addr (now retryMs : Nat) (x : Link) : (x.judged now retryMs).addr = x.addr := by
  unfold Link.judged
  extract_lets x0 x1
  split_ifs <;> rfl

theorem roundJudged_getLnk (hn : NoLinkTest s) (k : Nat) :
    (roundJudged s).getLnk k = if k ∈ s.links then (s.getLnk k).judged s.now s.clr.retryMs else s.getLnk k := by
  rw [(roundJudged_all hn).lnk, roundBegun_links, roundBegun_getLnk, roundBegun_keeps.now_eq rfl, roundBegun_clr]

theorem roundJudged_addr (hn : NoLinkTest s) (k : Nat) : ((roundJudged s).getLnk k).addr = (s.getLnk k).addr := by
  rw [roundJudged_getLnk hn]
  split
  · exact Link.judged_addr ..
  · rfl

theorem roundJudged_posted (hn : NoLinkTest s) : Posted s (roundJudged s) :=
  (roundBegun_keeps.posted rfl).trans (roundJudged_all hn).posted

/-- What Table 13.4 says of a judged link. -/
theorem Link.judged_table (now retryMs : Nat) (x : Link) :
    let y := x.judged now retryMs
    (x.st = 1 → x.joinRounds < 2 → y.st = 1 ∧ y.joinRounds = x.joinRounds + 1) ∧
    (x.st = 1 → 2 ≤ x.joinRounds → y.st = 4 ∧ y.retry = some (now + retryMs * 1000000)) ∧
    (x.up = true → x.rxRound = true → x.badRound = false → y.st = 2 ∧ y.missed = 0) ∧
    (x.up = true → x.rxRound = false ∨ x.badRound = true → x.missed < 2 → y.st = 3 ∧ y.missed = x.missed + 1) ∧
    (x.up = true → x.rxRound = false ∨ x.badRound = true → 2 ≤ x.missed →
      y.st = 4 ∧ y.retry = some (now + retryMs * 1000000)) ∧
    (x.st ≠ 1 → x.up = false → y.st = x.st) := by
  intro y
  have hup : x.up = true → x.st ≠ 1 := by
    intro h h1
    simp [Link.up, h1] at h
  have hmiss : x.rxRound = false ∨ x.badRound = true → ¬ (x.rxRound = true ∧ x.badRound = false) := by
    rintro (h | h) <;> simp [h]
  refine ⟨fun h1 hj => ?_, fun h1 hj => ?_, fun hu hr hb => ?_, fun hu hm hj => ?_, fun hu hm hj => ?_, fun h1 hu => ?_⟩
  · have hy : y = { { x with rxRound := false, badRound := false } with joinRounds := x.joinRounds + 1 } := by
      simp only [y, Link.judged, if_pos h1, if_pos (show x.joinRounds + 1 < 3 by omega)]
    exact ⟨(congrArg Link.st hy).trans h1, congrArg Link.joinRounds hy⟩
  · have hy : y = Link.absent now retryMs { x with rxRound := false, badRound := false } := by
      simp only [y, Link.judged, if_pos h1, if_neg (show ¬ x.joinRounds + 1 < 3 by omega)]
    exact ⟨congrArg Link.st hy, congrArg Link.retry hy⟩
  · have hy : y = { { x with rxRound := false, badRound := false } with st := 2, missed := 0 } := by
      simp [y, Link.judged, hup hu, hu, hr, hb]
    exact ⟨congrArg Link.st hy, congrArg Link.missed hy⟩
  · have hy : y = { { x with rxRound := false, badRound := false } with st := 3, missed := min 3 (x.missed + 1) } := by
      simp only [y, Link.judged, if_neg (hup hu), hu, Bool.true_eq_false, if_false, if_neg (hmiss hm),
        if_pos (show x.missed + 1 < 3 by omega)]
    exact ⟨congrArg Link.st hy, (congrArg Link.missed hy).trans (Nat.min_eq_right (by omega))⟩
  · have hy : y = Link.absent now retryMs { { x with rxRound := false, badRound := false } with st := 3, missed := min 3 (x.missed + 1) } := by
      simp only [y, Link.judged, if_neg (hup hu), hu, Bool.true_eq_false, if_false, if_neg (hmiss hm),
        if_neg (show ¬ x.missed + 1 < 3 by omega)]
    exact ⟨congrArg Link.st hy, congrArg Link.retry hy⟩
  · have hy : y = { x with rxRound := false, badRound := false } := by
      simp only [y, Link.judged, if_neg h1, hu, if_true]
    exact (congrArg Link.st hy :)

theorem Link.up_iff_st {x y : Link} (h : x.st = y.st) (hx : x.up = true) : y.up = true := (Link.up_of_st h).symm.trans hx

/-- R349, R361: what a round that runs does. -/
theorem round_runs (hl : s.live = true) (h : s.clr.roundAt + 10000 ≤ s.now) (hup : s.clrUp = true) (hn : NoLinkTest s) :
    ∃ t, exec .clearingRound s = .next t ∧ t.clr.roundAt = s.now ∧ Only [.hm, .hif, .ldg, .trs, .syn, .clr] s t ∧
      (∀ l ∈ s.links, let x := s.getLnk l
        let y := t.getLnk l
        (x.st = 1 → x.joinRounds < 2 → y.st = 1 ∧ y.joinRounds = x.joinRounds + 1) ∧
        (x.st = 1 → 2 ≤ x.joinRounds → y.st = 4 ∧ y.retry = some (s.now + s.clr.retryMs * 1000000)) ∧
        (x.up = true → x.rxRound = true → x.badRound = false → y.st = 2 ∧ y.missed = 0) ∧
        (x.up = true → x.rxRound = false ∨ x.badRound = true → x.missed < 2 → y.st = 3 ∧ y.missed = x.missed + 1) ∧
        (x.up = true → x.rxRound = false ∨ x.badRound = true → 2 ≤ x.missed →
          y.st = 4 ∧ y.retry = some (s.now + s.clr.retryMs * 1000000)) ∧
        (x.st ≠ 1 → x.up = false → y.st = x.st)) ∧
      (∀ l, 0 < l → l < 65 → (t.getLnk l).up = true → SendsType l 4 s t) ∧
      ((t.getLnk 0).en = true → (t.getLnk 0).up = true → SendsType 0 3 s t) := by
  obtain ⟨p, hd, hk⟩ := clrRound_deals h hup
  have hr : Deals (roundJudged s) (clrReport p (roundJudged s)) := clrReport_deals ..
  have hall := hr.trans hd
  have hj := roundJudged_all hn
  refine ⟨_, act_of_live hl _, ?_, ?_, fun l hl => ?_, fun l h0 hlt hu => ?_, fun hen hu => ?_⟩
  · rw [hall.round, hj.round, roundBegun_clr]
  · exact Keeps.only (.step hk (by decide) (.step hj.keeps (by decide) (roundBegun_keeps.mono (by decide))))
  · have ht := (s.getLnk l).judged_table s.now s.clr.retryMs
    have he := (roundJudged_getLnk hn l).trans (if_pos hl)
    dsimp only
    rw [hall.st, hall.joinRounds, hall.retry, hall.missed, he]
    exact ht
  · have hc : l ∈ (roundJudged s).children :=
      List.mem_filter.mpr ⟨List.mem_range.mpr hlt, by simpa [h0] using Link.up_iff_st (hall.st l) hu⟩
    exact ((clrReport_offers p _ hc).after hd.posted).before (roundJudged_posted hn) (roundJudged_addr hn l)
  · exact ((clrReport_states p _ ((hall.en 0).symm.trans hen) (Link.up_iff_st (hall.st 0) hu)).after hd.posted).before
      (roundJudged_posted hn) (roundJudged_addr hn 0)

end Round

section Values
variable {l : Fin 65} {m : ClrMsg} {s : State}

/-- R361: a STATE of a child brings its subtree's values. -/
theorem state_received (h0 : bitOf m.flags 0 = false) (hr : Receives l 3 m s) (hl : l.val ≠ 0) (h1 : bitOf m.flags 1 = false) :
    ∃ t, exec (.stateMsg l m) s = .next t ∧
      (t.getLnk l).surplus = m.surplus ∧ (t.getLnk l).need = m.need ∧ (t.getLnk l).wmin = m.wmin ∧
      (t.getLnk l).chips = m.chips ∧ (t.getLnk l).fcNeed = m.fcNeed ∧ (t.getLnk l).seqIn = m.seq ∧
      SendsMsg l 3 0 0 0 s t ∧ (∀ k, k ≠ l.val → t.getLnk k = s.getLnk k) ∧ Only [.hm, .clr] s t := by
  have he : exec (.stateMsg l m) s = _ := clrMsg_of_receives hr
  have hp : clrPerform l 3 m s = (clrAccept l 3 m s).updLnk l fun x =>
      { x with surplus := m.surplus, need := m.need, wmin := m.wmin, chips := m.chips, fcNeed := m.fcNeed } := by
    rw [show clrPerform l 3 m s = clrOnState l m (clrPeerHold l (clrAccept l 3 m s)) from rfl, clrAccept_peerHold _ _ _ _ h0]
    exact if_neg (by simp [hl, h1])
  have ha := clrAccept_linkTo l 3 m s
  have hu := ha.trans (LinkTo.updLnk l (fun x =>
      { x with surplus := m.surplus, need := m.need, wmin := m.wmin, chips := m.chips, fcNeed := m.fcNeed }) (clrAccept l 3 m s))
  rw [hp, clrAck_of_acked (typ := 3) (by decide) (fun _ => h1) (.inr (hu.seqOut.trans ha.seqOut))] at he
  obtain ⟨h3, hs⟩ := hu.acked ha.addr
  exact ⟨_, he, h3.surplus, h3.need, h3.wmin, h3.chips, h3.fcNeed, h3.seqIn.trans ha.seqIn, hs.sends, h3.others,
    Keeps.only (.step (clrSendV_keeps ..) (by decide) (.step (State.updLnk_keeps ..) (by decide) ((clrAccept_keeps ..).mono (by decide))))⟩

/-- R347: a STATE of the parent brings nothing, and neither does a bare acknowledgement, which is not acknowledged. -/
theorem state_empty (h0 : bitOf m.flags 0 = false) (hr : Receives l 3 m s) (h : l.val = 0 ∨ bitOf m.flags 1 = true) :
    ∃ t, exec (.stateMsg l m) s = .next t ∧
      (t.getLnk l).surplus = (s.getLnk l).surplus ∧ (t.getLnk l).need = (s.getLnk l).need ∧
      (t.getLnk l).seqIn = m.seq ∧ (bitOf m.flags 1 = true → t.hm = s.hm) ∧
      (∀ k, k ≠ l.val → t.getLnk k = s.getLnk k) ∧ Only [.hm, .clr] s t := by
  have he : exec (.stateMsg l m) s = _ := clrMsg_of_receives hr
  have hp : clrPerform l 3 m s = clrAccept l 3 m s := by
    rw [show clrPerform l 3 m s = clrOnState l m (clrPeerHold l (clrAccept l 3 m s)) from rfl, clrAccept_peerHold _ _ _ _ h0]
    exact if_pos h
  have ha := clrAccept_linkTo l 3 m s
  have hk : Keeps [.hm, .clr] s (clrAccept l 3 m s) := (clrAccept_keeps ..).mono (by decide)
  rw [hp] at he
  cases h1 : bitOf m.flags 1
  · rw [clrAck_of_acked (typ := 3) (by decide) (fun _ => h1) (.inr ha.seqOut)] at he
    obtain ⟨h3, -⟩ := ha.acked rfl
    exact ⟨_, he, h3.surplus, h3.need, h3.seqIn, nofun, h3.others, Keeps.only (.step (clrSendV_keeps ..) (by decide) hk)⟩
  · rw [show clrAck l 3 m s (clrAccept l 3 m s) = clrAccept l 3 m s from if_pos (by simp [h1])] at he
    exact ⟨_, he, ha.surplus, ha.need, ha.seqIn, fun _ => (clrAccept_keeps l.val 3 m s).hm_eq rfl, ha.others, hk.only⟩

/-- R361: an OFFER that calls nothing, or comes from a child, is only acknowledged. -/
theorem offer_empty (h0 : bitOf m.flags 0 = false) (hr : Receives l 4 m s) (h : l.val ≠ 0 ∨ m.amount = 0) :
    ∃ t, exec (.offer l m) s = .next t ∧ (t.getLnk l).seqIn = m.seq ∧
      SendsMsg l 3 0 0 0 s t ∧ (∀ k, k ≠ l.val → t.getLnk k = s.getLnk k) ∧ Only [.hm, .clr] s t := by
  have he : exec (.offer l m) s = _ := clrMsg_of_receives hr
  have hp : clrPerform l 4 m s = clrAccept l 4 m s := by
    rw [show clrPerform l 4 m s = clrOnOffer l m (clrPeerHold l (clrAccept l 4 m s)) from rfl, clrAccept_peerHold _ _ _ _ h0]
    exact if_neg (by omega)
  have ha := clrAccept_linkTo l 4 m s
  rw [hp, clrAck_of_acked (typ := 4) (by decide) nofun (.inr ha.seqOut)] at he
  obtain ⟨h3, hs⟩ := ha.acked rfl
  exact ⟨_, he, h3.seqIn, hs.sends, h3.others, Keeps.only (.step (clrSendV_keeps ..) (by decide) ((clrAccept_keeps ..).mono (by decide)))⟩

theorem Grants.seqIn {t : State} (h : Grants s t) (k : Nat) : (t.getLnk k).seqIn = (s.getLnk k).seqIn := (congrArg Link.seqIn (h.still k) :)

/-- R361: an OFFER lends and borrows nothing. -/
theorem offer_received (h0 : bitOf m.flags 0 = false) (hr : Receives l 4 m s) :
    ∃ t, exec (.offer l m) s = .next t ∧ (t.getLnk l).seqIn = m.seq ∧
      (t.getLnk l).bor = (s.getLnk l).bor ∧ Only [.hm, .hif, .ldg, .trs, .clr] s t := by
  have he : exec (.offer l m) s = _ := clrMsg_of_receives hr
  have hp : clrPerform l 4 m s = clrOnOffer l m (clrAccept l 4 m s) := by
    rw [show clrPerform l 4 m s = clrOnOffer l m (clrPeerHold l (clrAccept l 4 m s)) from rfl, clrAccept_peerHold _ _ _ _ h0]
  have ha := clrAccept_linkTo l 4 m s
  have hg : Grants (clrAccept l 4 m s) (clrAck l 4 m s (clrPerform l 4 m s)) := by
    rw [hp]
    exact (Grants.ite (clrLend_grants ..) (.refl _)).trans (clrAck_grants ..)
  exact ⟨_, he, (hg.seqIn l).trans ha.seqIn, (hg.bor l).trans ha.bor,
    Keeps.only (.step clrAck_keeps (by decide) (clrPerform_keeps ..))⟩

end Values

theorem clrJoin_linkTo (l : Nat) (s : State) : LinkTo l { (s.getLnk l).core with seqOut := (s.getLnk l).nextSeq } s (clrJoin l s) :=
  clrSend_linkTo ..

theorem clrJoin_sendsTo (l : Nat) (s : State) : SendsTo l 1 0 0 0 s (clrJoin l s) :=
  clrSend_sendsTo l 1 { ver := s.clr.vmax, slack := slackFor s.clr.vmax s } s (by decide)

section Timers
variable {l : Fin 65} {s : State} (hl : s.live = true)
include hl

/-- R347: messages 4 µs without an acknowledgement are counted. -/
theorem ackMiss_counts :
    let late := ((s.getLnk l).sent.filter fun e => !e.judged && decide (e.at_ + 4000 ≤ s.now)).length
    (late = 0 → exec (.ackMiss l) s = .next s) ∧
    (0 < late → ∃ t, exec (.ackMiss l) s = .next t ∧ (t.getLnk l).ackMiss = satU 16 ((s.getLnk l).ackMiss + late) ∧
      (t.getLnk l).badRound = true ∧ (t.getLnk l).st = (s.getLnk l).st ∧ (∀ k, k ≠ l.val → t.getLnk k = s.getLnk k) ∧
      Only [.clr] s t) := by
  intro late
  refine ⟨fun h => act_eq hl (if_pos h), fun h => ⟨_, act_eq hl (if_neg (Nat.pos_iff_ne_zero.mp h)), ?_, ?_, ?_,
    fun k hk => State.getLnk_updLnk_ne _ _ _ hk, (State.updLnk_keeps ..).only⟩⟩ <;> rw [State.getLnk_updLnk]

theorem joinRetry_idle (h : (s.getLnk l).st ≠ 4) : exec (.joinRetry l) s = .next s := act_eq hl (if_neg (by simp [h]))

/-- R350: the retry timer of an absent peer sends a JOIN when it runs out. -/
theorem joinRetry_timer {u : Nat} (hup : s.clrUp = true) (hst : (s.getLnk l).st = 4) (hu : (s.getLnk l).retry = some u) :
    (u ≤ s.now → ∃ t, exec (.joinRetry l) s = .next t ∧ SendsMsg l 1 0 0 0 s t ∧ (t.getLnk l).st = 4 ∧
      (t.getLnk l).retry = some (s.now + s.clr.retryMs * 1000000) ∧ (∀ k, k ≠ l.val → t.getLnk k = s.getLnk k) ∧
      Only [.hm, .clr] s t) ∧
    (s.now < u → exec (.joinRetry l) s = .next s) := by
  have he : joinRetry l s = if u ≤ s.now then
      clrJoin l (s.updLnk l fun y => { y with retry := some (s.now + s.clr.retryMs * nsPerMs) }) else s := by
    unfold joinRetry
    extract_lets x
    rw [show x.retry = some u from hu]
    simp only [hup, show x.st = 4 from hst, decide_true, Bool.true_and, decide_eq_true_eq]
  refine ⟨fun h => ?_, fun h => act_eq hl (he.trans (if_neg (Nat.not_le.mpr h)))⟩
  have h1 := LinkTo.updLnk l (fun y => { y with retry := some (s.now + s.clr.retryMs * nsPerMs) }) s
  have h2 := h1.trans (clrJoin_linkTo l _)
  have hs := (clrJoin_sendsTo l _).before h1.posted h1.addr
  exact ⟨_, act_eq hl (he.trans (if_pos h)), hs.sends, h2.st.trans (h1.st.trans hst), h2.retry.trans h1.retry, h2.others,
    Keeps.only (.step (clrJoin_keeps ..) (by decide) ((State.updLnk_keeps ..).mono (by decide)))⟩

end Timers

section Config
variable {s : State}

/-- Clearing's registers, without its links. -/
def Clearing.regs (c : Clearing) : Clearing := { c with lnk := [] }

/-- R350: a link that starts joining. -/
theorem clrStart_linkTo (l : Nat) (s : State) : LinkTo l { (s.getLnk l).core with
    st := 1, joinRounds := 0, missed := 0, retry := none, rxRound := false, badRound := false, seqOut := (s.getLnk l).nextSeq } s
    (clrStart l s) := by
  have h1 := LinkTo.updLnk l (fun x =>
    { x with st := 1, joinRounds := 0, missed := 0, retry := none, rxRound := false, badRound := false }) s
  refine (h1.trans (clrJoin_linkTo l _)).cast ?_
  rw [State.getLnk_updLnk]
  rfl

theorem clrStart_regs (l : Nat) (s : State) : (clrStart l s).clr.regs = s.clr.regs := rfl

/-- R350: a link taken out of use: DISABLED, and what it had borrowed on its way back. -/
theorem clrStop_linkTo (cause l : Nat) (s : State) : ∃ y, LinkTo l y s (clrStop cause l s) ∧ y.st = 0 ∧ y.lent = (s.getLnk l).lent ∧
    ∀ b ∈ y.bor, b.ret.isSome = true ∨ b.void = true := by
  unfold clrStop
  extract_lets s1
  obtain ⟨y1, h1, hlent⟩ : ∃ y, LinkTo l y s s1 ∧ y.lent = (s.getLnk l).lent := by
    by_cases h : (s.getLnk l).st = 0
    · rw [show s1 = s from if_pos h]
      exact ⟨_, .refl l s, rfl⟩
    · rw [show s1 = clrSendV l 7 { cause := cause } s from if_neg h]
      exact ⟨_, clrSendV_linkTo .., rfl⟩
  have h2 := h1.trans (returnAll_linkTo l s1 4)
  have h3 := h2.trans (LinkTo.updLnk l (fun x =>
    { x with st := 0, missed := 0, retry := none, due := 0, theta := none, reread := none, sent := [] }) (returnAll l 4 s1))
  refine ⟨_, h3, rfl, h2.lent.trans (h1.lent.trans hlent), fun b hb => ?_⟩
  replace hb : b ∈ ((returnAll l 4 s1).getLnk l).bor := hb
  rw [h2.bor] at hb
  exact mem_returned hb

theorem clrStop_regs (cause l : Nat) (s : State) : (clrStop cause l s).clr.regs = s.clr.regs := by
  have hr : ∀ u, (returnAll l 4 u).clr.regs = u.clr.regs := fun u =>
    forList_eq (fun t : State => t.clr.regs) (u.borHeld l) (f := fun b => beginReturn l b.id 4) (fun _ _ => rfl) u
  unfold clrStop
  extract_lets s1
  have h1 : s1.clr.regs = s.clr.regs := by
    by_cases h : (s.getLnk l).st = 0
    · rw [show s1 = s from if_pos h]
    · rw [show s1 = clrSendV l 7 { cause := cause } s from if_neg h]
      rfl
  exact (hr s1).trans h1

/-- The state and the lent leases of a link, which a loop over the links changes once each. -/
def State.lnkUse (s : State) (k : Nat) : Nat × List Lent := ((s.getLnk k).st, (s.getLnk k).lent)

theorem clrStart_use (l k : Nat) (s : State) :
    (clrStart l s).lnkUse k = if k = l then (1, (s.lnkUse k).2) else s.lnkUse k := by
  have h := clrStart_linkTo l s
  by_cases hk : k = l
  · rw [if_pos hk, hk, State.lnkUse, h.st, h.lent]; rfl
  · rw [if_neg hk, State.lnkUse, h.others k hk]; rfl

theorem clrStop_use (cause l k : Nat) (s : State) :
    (clrStop cause l s).lnkUse k = if k = l then (0, (s.lnkUse k).2) else s.lnkUse k := by
  obtain ⟨y, h, hst, hlent, -⟩ := clrStop_linkTo cause l s
  by_cases hk : k = l
  · rw [if_pos hk, hk, State.lnkUse, h.st, h.lent, hst, hlent]; rfl
  · rw [if_neg hk, State.lnkUse, h.others k hk]; rfl

theorem forList_use {f : Nat → State → State} {n k : Nat}
    (hf : ∀ l u, (f l u).lnkUse k = if k = l then (n, (u.lnkUse k).2) else u.lnkUse k) {ls : List Nat} (hl : ls.Nodup) (hk : k ∈ ls) :
    (forList ls f s).lnkUse k = (n, (s.lnkUse k).2) :=
  (forList_entry (fun u : State => u.lnkUse k) (g := fun p => (n, p.2)) (fun u => (hf k u).trans (if_pos rfl))
    (fun j hj u => (hf j u).trans (if_neg hj.symm)) hl s).trans (if_pos hk)

/-- R350: enabling Clearing starts a JOIN on every enabled link, and disabling takes each out of use. -/
theorem clrEnable_changed {en : Bool} (h : en ≠ s.clr.en) :
    (clrEnable en s).clr.en = en ∧ (clrEnable en s).clr.vmax = s.clr.vmax ∧ (clrEnable en s).clr.keep = s.clr.keep ∧
    ∀ k ∈ s.links, (clrEnable en s).lnkUse k = (if en then 1 else 0, (s.getLnk k).lent) := by
  have hnd : s.links.Nodup := List.nodup_range.filter _
  unfold clrEnable
  rw [if_neg h]
  cases en
  · have hr : (forList s.links (clrStop 1) s).clr.regs = s.clr.regs :=
      forList_eq (fun t : State => t.clr.regs) s.links (clrStop_regs 1) s
    rw [if_neg (by decide)]
    exact ⟨rfl, (congrArg Clearing.vmax hr :), (congrArg Clearing.keep hr :), fun k hk => forList_use (clrStop_use 1 · k) hnd hk⟩
  · have hr : (forList s.links clrStart (s.onClr fun c => { c with en := true, roundAt := s.now, driftStart := s.now })).clr.regs = _ :=
      forList_eq (fun t : State => t.clr.regs) s.links clrStart_regs _
    rw [if_pos rfl]
    exact ⟨(congrArg Clearing.en hr :), (congrArg Clearing.vmax hr :), (congrArg Clearing.keep hr :),
      fun k hk => forList_use (clrStart_use · k) hnd hk⟩

/-- R368: an accepted write of `CLR_CFG`. -/
theorem clrCfg_accepted {v : Word} (hemu : Emulates s) (hv : bits v.toNat 1 2 ≠ 0) (hk : bits v.toNat 8 5 ≤ 20)
    (hkeep : s.clr.en = false ∨ bits v.toNat 8 5 = s.clr.keep) :
    ∃ t, exec (.clrCfgWrite v) s = .next t ∧ t.clr.res = 0 ∧ t.clr.vmax = bits v.toNat 1 2 ∧
      t.clr.keep = bits v.toNat 8 5 ∧ t.clr.en = (bitOf v.toNat 0 && s.feat 3) ∧
      (t.clr.en = s.clr.en → t.clr.lnk = s.clr.lnk) ∧
      (t.clr.en ≠ s.clr.en → ∀ k ∈ s.links, (t.getLnk k).st = (if t.clr.en then 1 else 0) ∧ (t.getLnk k).lent = (s.getLnk k).lent) ∧
      Only [.hm, .hs, .trs, .clr] s t := by
  let s1 := s.onClr fun c => { c with vmax := bits v.toNat 1 2, keep := bits v.toNat 8 5 }
  let en := bitOf v.toNat 0 && s.feat 3
  have hw : clrCfgWrite v.toNat s = clrRes 0 (clrEnable en s1) := by
    unfold clrCfgWrite
    extract_lets vmax keep
    rw [if_neg (by omega), if_neg]
    rintro ⟨h1, h2⟩
    exact hkeep.elim (fun h => by simp [h] at h1) h2
  have hans := hsAnswer_keeps 0 0 (clrRes 0 (clrEnable en s1))
  have hclr := hans.clr_eq rfl
  have honly : Only [.hm, .hs, .trs, .clr] s (hsAnswer 0 0 (clrRes 0 (clrEnable en s1))) :=
    Keeps.only (.step hans (by decide) (.step (clrRes_keeps ..) (by decide) (.step (clrEnable_keeps ..) (by decide)
      ((State.onClr_keeps ..).mono (by decide)))))
  refine ⟨_, hsEmu_eq hemu hw, by rw [hclr]; rfl, ?_⟩
  rw [hclr]
  by_cases h : en = s.clr.en
  · have he : clrEnable en s1 = s1 := if_pos h
    rw [he] at hans hclr honly ⊢
    exact ⟨rfl, rfl, h.symm, fun _ => rfl, fun hc => absurd rfl hc, honly⟩
  · obtain ⟨h1, h2, h3, h4⟩ := clrEnable_changed (s := s1) h
    refine ⟨h2, h3, h1, fun hc => absurd (h1.symm.trans hc) h, fun _ k hk => ?_, honly⟩
    have hu := h4 k hk
    rw [getLnk_of_clr hclr, show (clrRes 0 (clrEnable en s1)).clr.en = en from h1]
    exact ⟨congrArg Prod.fst hu, congrArg Prod.snd hu⟩

/-- R350: what enabling or disabling a link leaves. -/
theorem lnkEnable_spec (l : Nat) (en : Bool) (s : State) :
    ((lnkEnable l en s).getLnk l).en = en ∧ ((s.getLnk l).en = en → lnkEnable l en s = s) ∧
    ((s.getLnk l).en = false → en = true → s.clr.en = true → ((lnkEnable l en s).getLnk l).st = 1) ∧
    ((s.getLnk l).en = true → en = false → ((lnkEnable l en s).getLnk l).st = 0 ∧
      ∀ b ∈ ((lnkEnable l en s).getLnk l).bor, b.ret.isSome = true ∨ b.void = true) ∧
    (∀ k, k ≠ l → (lnkEnable l en s).getLnk k = s.getLnk k) := by
  by_cases h : (s.getLnk l).en = en
  · have he : lnkEnable l en s = s := if_pos h
    rw [he]
    exact ⟨h, fun _ => rfl, fun h1 h2 => absurd (h.symm.trans h1) (by simp [h2]), fun h1 h2 => absurd (h.symm.trans h1) (by simp [h2]),
      fun _ _ => rfl⟩
  cases en
  · obtain ⟨y, hy, hst, -, hbor⟩ := clrStop_linkTo 0 l s
    have hu := hy.trans (LinkTo.updLnk l (fun y => { y with en := false }) (clrStop 0 l s))
    have he : lnkEnable l false s = (clrStop 0 l s).updLnk l fun y => { y with en := false } := if_neg h
    rw [he]
    exact ⟨hu.en, fun hc => absurd hc h, nofun, fun _ _ => ⟨hu.st.trans (hy.st.trans hst), fun b hb => hbor b (hy.bor ▸ hu.bor ▸ hb)⟩,
      hu.others⟩
  · have h1 := LinkTo.updLnk l (fun y => { y with en := true }) s
    have he : lnkEnable l true s = if s.clr.en then clrStart l (s.updLnk l fun y => { y with en := true })
        else s.updLnk l fun y => { y with en := true } := if_neg h
    rw [he]
    cases hc : s.clr.en
    · exact ⟨h1.en, fun hc => absurd hc h, nofun, nofun, h1.others⟩
    · have h2 := h1.trans (clrStart_linkTo l _)
      exact ⟨h2.en.trans h1.en, fun hc => absurd hc h, fun _ _ _ => h2.st, nofun, h2.others⟩

theorem clrRes_getLnk (st k : Nat) (s : State) : (clrRes st s).getLnk k = s.getLnk k := rfl

/-- A link's counts are cleared. -/
def lnkUncount (l : Nat) (s : State) : State := s.updLnk l fun x => { x with ackMiss := 0, discard := 0 }

theorem clrCnt_eq (s : State) : clrCnt s = clrRes 0 (forList (List.range 65) lnkUncount s) := rfl

theorem clrCnt_counts : ∃ t, (Emulates s → exec .clrCtrlClr s = .next t) ∧ t.clr.res = 0 ∧ Only [.hs, .clr] s t ∧
    ∀ k < 65, t.getLnk k = { s.getLnk k with ackMiss := 0, discard := 0 } := by
  have hans := hsAnswer_keeps 0 0 (clrCnt s)
  refine ⟨_, fun hemu => hsEmu_eq hemu rfl, by rw [hans.clr_eq rfl]; rfl, ?_, fun k hk => ?_⟩
  · exact Keeps.only (.step hans (by decide) ((clrCnt_keeps s).mono (by decide)))
  · rw [getLnk_of_clr (hans.clr_eq rfl), clrCnt_eq, clrRes_getLnk]
    exact (forList_entry (fun u : State => u.getLnk k) (g := fun x => { x with ackMiss := 0, discard := 0 })
      (fun u => State.getLnk_updLnk ..) (fun j hj u => State.getLnk_updLnk_ne _ _ _ hj.symm) List.nodup_range s).trans
      (if_pos (List.mem_range.mpr hk))

end Config

/-- Settles O39: what a round, a STATE, an OFFER, the timers and the writes of Clearing's registers do. -/
theorem roundsAndLinks : Obligations.RoundsAndLinks := by
  refine ⟨fun s hl => ⟨fun h => act_eq hl (clrRound_early h), fun h hup => ?_, fun h hup hn => ?_, fun l m h0 =>
    ⟨state_received h0, state_empty h0, offer_empty h0, offer_received h0⟩⟩, fun s l v en => ⟨fun hl => ?_, fun hemu => ?_⟩⟩
  · exact ⟨_, act_eq hl (clrRound_off h hup), by rw [roundBegun_clr], roundBegun_lnk, roundBegun_keeps.only⟩
  · obtain ⟨t, ht, hat, honly, hlinks, hoffer, hstate⟩ := round_runs hl h hup hn
    refine ⟨t, ht, hat, honly, hlinks, fun k h0 hlt hu => ?_, fun hen hu => ?_⟩
    · obtain ⟨q, w, hw, htyp⟩ := hoffer k h0 hlt hu
      exact ⟨q, w, hw.posts, htyp⟩
    · obtain ⟨q, w, hw, htyp⟩ := hstate hen hu
      exact ⟨q, w, hw.posts, htyp⟩
  · exact ⟨(ackMiss_counts hl).1, (ackMiss_counts hl).2, fun u => joinRetry_timer hl, joinRetry_idle hl⟩
  · obtain ⟨t, ht, hres, honly, hcnt⟩ := clrCnt_counts (s := s)
    refine ⟨fun h => hsEmu_eq hemu (if_pos (by omega)), fun h1 h2 hen hk => hsEmu_eq hemu ?_, fun h1 h2 => clrCfg_accepted hemu h1 h2,
      fun hsel => ?_, fun hsel => hsEmu_eq hemu (if_neg (Nat.not_lt.mpr hsel)), t, ht hemu, hres, honly, hcnt⟩
    · exact (if_neg (by omega)).trans (if_pos ⟨hen, hk⟩)
    · have hans := hsAnswer_keeps 0 0 (clrRes 0 (lnkEnable s.clr.lnkSel en s))
      have hg : ∀ k, (hsAnswer 0 0 (clrRes 0 (lnkEnable s.clr.lnkSel en s))).getLnk k = (lnkEnable s.clr.lnkSel en s).getLnk k :=
        fun k => (getLnk_of_clr (hans.clr_eq rfl) k).trans (clrRes_getLnk ..)
      obtain ⟨h1, h2, h3, h4, h5⟩ := lnkEnable_spec s.clr.lnkSel en s
      refine ⟨_, hsEmu_eq hemu (if_pos hsel), by rw [hans.clr_eq rfl]; rfl, ?_⟩
      rw [hg]
      exact ⟨h1, fun h => by rw [h2 h], h3, h4, fun k hk => (hg k).trans (h5 k hk), Keeps.only (.step hans (by decide)
        (.step (clrRes_keeps ..) (by decide) ((lnkEnable_keeps ..).mono (by decide))))⟩

end Sys2Proof.Machine
end

section
/-!
The completion ring, exactly (R374, R382): the entry written, its interrupt message, and what its context keeps; and the checks of
Table 14.4 (R378).
-/
namespace Sys2Proof.Machine

section Irq
variable (c : Nat) (s : State)

/-- The context's interrupt message goes out at once (R382). -/
def State.irqNow (s : State) (x : Ctx) : Bool := x.irqEn && due s.now (s.hif.irqGap * 250) x.irqLast

/-- A context whose message is asked for. -/
def State.irqCtx (s : State) (x : Ctx) : Ctx :=
  if x.irqEn then if due s.now (s.hif.irqGap * 250) x.irqLast then { x with irqLast := some s.now, irqWait := false }
    else { x with irqWait := true } else x

theorem irqDue_hm : (irqDue c s).hm = s.hm.post
    (if s.irqNow (s.getCtx c) then [.irq c (s.getCtx c).irqAddr (s.getCtx c).irqData] else []) := by
  unfold irqDue State.irqNow
  extract_lets x
  by_cases hen : (s.getCtx c).irqEn = true
  · rw [if_neg (by simp [x, hen]), hen, Bool.true_and]
    by_cases hd : due s.now (s.hif.irqGap * 250) (s.getCtx c).irqLast = true
    · rw [if_pos hd, if_pos hd]
      exact (Emits.hmWrite ..).hm
    · rw [if_neg hd, if_neg hd, HmPort.post_nil, State.updCtx_hm]
  · rw [if_pos (by simp [x, hen]), if_neg (by simp [hen]), HmPort.post_nil]

theorem irqDue_getCtx : (irqDue c s).getCtx c = s.irqCtx (s.getCtx c) := by
  unfold irqDue State.irqCtx
  extract_lets x
  by_cases hen : (s.getCtx c).irqEn = true
  · rw [if_neg (by simp [x, hen]), if_pos hen]
    by_cases hd : due s.now (s.hif.irqGap * 250) (s.getCtx c).irqLast = true
    · rw [if_pos hd, if_pos hd]
      exact State.getCtx_updCtx ..
    · rw [if_neg hd, if_neg hd, State.getCtx_updCtx]
  · rw [if_pos (by simp [x, hen]), if_neg hen]

theorem irqDue_getCtx_ne {k : Nat} (hk : k ≠ c) : (irqDue c s).getCtx k = s.getCtx k := by
  have hu : ∀ f : Ctx → Ctx, (s.updCtx c f).getCtx k = s.getCtx k := fun f => State.getCtx_updCtx_ne _ _ _ hk
  unfold irqDue
  extract_lets x
  split
  · rfl
  · split
    · exact hu _
    · exact hu _

theorem drrIdle_getCtx (k : Nat) : (drrIdle c s).getCtx k = s.getCtx k := by
  unfold drrIdle
  extract_lets x
  split <;> rfl

theorem drrIdle_hm : (drrIdle c s).hm = s.hm := by
  unfold drrIdle
  extract_lets x
  split <;> rfl

end Irq

section Entry
variable (c tag status result opcode : Nat) (event notify : Bool) (s : State)

/-- The completion-ring entry that a context of these fields is given next (Table 14.3). -/
def entryOf (hold : Bool) (x : Ctx) : Cqe :=
  { tag := tag, status := status, sqHead := x.sqHead, result := result, opcode := opcode
    phase := decide (x.cqTail / 2 ^ x.cqLog % 2 = 0), event := event, hold := hold, evtLost := x.evtLostFlag }

/-- A context whose ring has taken an entry. -/
def Ctx.took (y : Ctx) : Ctx := { y with cqTail := (y.cqTail + 1) % 65536, evtLostFlag := false }

/-- The state after the entry, before its interrupt message. -/
def entryPut : State :=
  (hmWrite (.cqe c ((s.getCtx c).cqBase + 16 * ((s.getCtx c).cqTail % 2 ^ (s.getCtx c).cqLog))
    (cqeBytes (entryOf tag status result opcode event s.tb.hold (s.getCtx c)))) s).updCtx c Ctx.took

theorem writeEntry_eq : writeEntry c tag status result opcode event notify s =
    drrIdle c (if event || notify then irqDue c (entryPut c tag status result opcode event s)
      else entryPut c tag status result opcode event s) := rfl

theorem entryPut_getCtx : (entryPut c tag status result opcode event s).getCtx c = (s.getCtx c).took := State.getCtx_updCtx ..

theorem entryPut_hm : (entryPut c tag status result opcode event s).hm =
    s.hm.post [.cqe c ((s.getCtx c).cqBase + 16 * ((s.getCtx c).cqTail % 2 ^ (s.getCtx c).cqLog))
      (cqeBytes (entryOf tag status result opcode event s.tb.hold (s.getCtx c)))] := (Emits.hmWrite ..).hm

theorem writeEntry_getCtx : (writeEntry c tag status result opcode event notify s).getCtx c =
    if event || notify then s.irqCtx (s.getCtx c).took else (s.getCtx c).took := by
  rw [writeEntry_eq, drrIdle_getCtx]
  split
  · rw [irqDue_getCtx, entryPut_getCtx]; rfl
  · rw [entryPut_getCtx]

theorem writeEntry_getCtx_ne {k : Nat} (hk : k ≠ c) :
    (writeEntry c tag status result opcode event notify s).getCtx k = s.getCtx k := by
  have he : (entryPut c tag status result opcode event s).getCtx k = s.getCtx k := State.getCtx_updCtx_ne _ _ _ hk
  rw [writeEntry_eq, drrIdle_getCtx]
  split
  · exact (irqDue_getCtx_ne _ _ hk).trans he
  · exact he

theorem writeEntry_hm : (writeEntry c tag status result opcode event notify s).hm =
    s.hm.post (.cqe c ((s.getCtx c).cqBase + 16 * ((s.getCtx c).cqTail % 2 ^ (s.getCtx c).cqLog))
        (cqeBytes (entryOf tag status result opcode event s.tb.hold (s.getCtx c))) ::
      if (event || notify) && s.irqNow (s.getCtx c) then [.irq c (s.getCtx c).irqAddr (s.getCtx c).irqData] else []) := by
  rw [writeEntry_eq, drrIdle_hm]
  cases event || notify
  · exact entryPut_hm ..
  · rw [if_pos rfl, irqDue_hm, entryPut_getCtx, entryPut_hm, HmPort.post_post]
    rfl

end Entry

section Complete
variable (h : DescHdr) (op status result : Nat) (s : State)

/-- A context whose descriptor has been completed with `status`, before the entry (R374). -/
def Ctx.finish (status : Nat) (x : Ctx) : Ctx :=
  { x with done := satInc 16 x.done, last := if status = 0 then x.last else status, busy := false }

theorem completeOne_eq : completeOne h op status result s =
    writeEntry h.ctx.val h.tag status (resultOf status result) op false h.notify (s.updCtx h.ctx.val (Ctx.finish status)) := rfl

theorem completeOne_getCtx_ne {k : Nat} (hk : k ≠ h.ctx.val) : (completeOne h op status result s).getCtx k = s.getCtx k := by
  rw [completeOne_eq, writeEntry_getCtx_ne _ _ _ _ _ _ _ _ hk, State.getCtx_updCtx_ne _ _ _ hk]

theorem completeOne_getCtx_self : (completeOne h op status result s).getCtx h.ctx.val =
    if h.notify then s.irqCtx ((s.getCtx h.ctx.val).finish status).took else ((s.getCtx h.ctx.val).finish status).took := by
  rw [completeOne_eq, writeEntry_getCtx, Bool.false_or, State.getCtx_updCtx]
  rfl

theorem completeOne_hm_exact : (completeOne h op status result s).hm =
    s.hm.post (.cqe h.ctx.val ((s.getCtx h.ctx.val).cqBase + 16 * ((s.getCtx h.ctx.val).cqTail % 2 ^ (s.getCtx h.ctx.val).cqLog))
        (cqeBytes (entryOf h.tag status (resultOf status result) op false s.tb.hold (s.getCtx h.ctx.val))) ::
      if h.notify && s.irqNow (s.getCtx h.ctx.val) then [.irq h.ctx.val (s.getCtx h.ctx.val).irqAddr (s.getCtx h.ctx.val).irqData]
        else []) := by
  rw [completeOne_eq, writeEntry_hm, State.getCtx_updCtx]
  rfl

theorem drrTake_getCtx (c k : Nat) : (drrTake c s).getCtx k = s.getCtx k := by
  have hc : (drrTake c s).hif.ctx = s.hif.ctx := by
    unfold drrTake
    rw [State.onHif_hif]
    split <;> rfl
  rw [State.getCtx, hc]
  rfl

theorem descBegin_getCtx (c : Nat) : (descBegin c s).getCtx c = { s.getCtx c with sqHead := ((s.getCtx c).sqHead + 1) % 65536 } := by
  rw [descBegin, State.getCtx_updCtx, drrTake_getCtx]

theorem descBegin_getCtx_ne {c k : Nat} (hk : k ≠ c) : (descBegin c s).getCtx k = s.getCtx k := by
  rw [descBegin, State.getCtx_updCtx_ne _ _ _ hk, drrTake_getCtx]

theorem descBegin_irqGap (c : Nat) : (descBegin c s).hif.irqGap = s.hif.irqGap := by
  have ht : (drrTake c s).hif.irqGap = s.hif.irqGap := by
    unfold drrTake
    rw [State.onHif_hif]
    split <;> rfl
  exact ht

end Complete

section Fixed
variable {s : State} (x : Ctx)

theorem State.irqCtx_fixed : (s.irqCtx x).fixed = x.fixed := by
  unfold State.irqCtx
  split
  · split <;> rfl
  · rfl

theorem State.irqCtx_cqTail : (s.irqCtx x).cqTail = x.cqTail := by
  unfold State.irqCtx
  split
  · split <;> rfl
  · rfl

theorem State.irqCtx_evtLostFlag : (s.irqCtx x).evtLostFlag = x.evtLostFlag := by
  unfold State.irqCtx
  split
  · split <;> rfl
  · rfl

variable {x : Ctx} (hen : x.irqEn = true)
include hen

theorem State.irqCtx_now (s : State) (hd : due s.now (s.hif.irqGap * 250) x.irqLast = true) :
    s.irqCtx x = { x with irqLast := some s.now, irqWait := false } := (if_pos hen).trans (if_pos hd)

theorem State.irqCtx_later (s : State) (hd : due s.now (s.hif.irqGap * 250) x.irqLast = false) :
    s.irqCtx x = { x with irqWait := true } := (if_pos hen).trans (if_neg (by simp [hd]))

end Fixed

section Row
variable {c : Instr} {h : DescHdr} {d : DescSpec} {s : State}

/-- What a command does after its descriptor: the warm reset that two of them ask for. -/
def rowAfter : Instr → State → State
  | .warmResetDesc .. => warmAfter
  | .fwActivateWarm .. => warmAfter
  | _ => id

theorem rowAfter_of_none (c : Instr) (h : s.pwr.wantWarm = none) : rowAfter c s = s := by
  have hw : warmAfter s = s := by rw [warmAfter, h]
  unfold rowAfter
  split
  · exact hw
  · exact hw
  · rfl

/-- A command that performs a descriptor runs a body under the descriptor's checks. -/
theorem exec_of_descRow (hrow : descRow c = some (h, d)) (s : State) :
    ∃ body, exec c s = act (fun t => rowAfter c (runDesc h d body t)) s := by
  unfold descRow at hrow
  split at hrow <;> cases hrow
  case h_32 => exact ⟨bodyFwQuery, rfl⟩
  case h_50 => exact ⟨bodyNop, rfl⟩
  case h_51 => exact ⟨bodyIdentify h, rfl⟩
  all_goals exact ⟨_, rfl⟩

/-- R34, R39: with the block or the manager port in reset, or a descriptor that may not start, nothing happens. -/
theorem descRow_idle (hrow : descRow c = some (h, d)) (hw : s.pwr.wantWarm = none)
    (hn : s.live = false ∨ descMay h.ctx.val s = false ∨ s.hm.inReset = true) : exec c s = .next s := by
  obtain ⟨body, he⟩ := exec_of_descRow hrow s
  rw [he]
  cases hl : s.live
  · exact act_of_held hl _
  · refine act_eq hl ?_
    have hr : runDesc h d body s = s := if_pos (by rcases hn.resolve_left (by simp [hl]) with hm | hm <;> simp [hm])
    rw [hr]
    exact rowAfter_of_none c hw

/-- A descriptor that fails a check: its completion, and its context's ring and counts. -/
theorem descRow_refused (hrow : descRow c = some (h, d)) (hw : s.pwr.wantWarm = none) (hl : s.live = true)
    (hm : descMay h.ctx.val s = true) (hr : s.hm.inReset = false) (hn : NoClose h.ctx.val s) {st : Nat} (hc : descCheck h d s = st)
    (h0 : st ≠ 0) : ∃ t, exec c s = .next t ∧ Completes h d.opcode st 0 s t ∧
      (t.getCtx h.ctx).done = satInc 16 (s.getCtx h.ctx).done ∧ (t.getCtx h.ctx).last = st ∧
      (t.getCtx h.ctx).sqHead = ((s.getCtx h.ctx).sqHead + 1) % 65536 ∧
      (∀ k, k ≠ h.ctx.val → t.getCtx k = s.getCtx k) ∧ Only [.hm, .hif] s t := by
  obtain ⟨body, he⟩ := exec_of_descRow hrow s
  have hb : Between h.ctx.val s (descBegin h.ctx.val s) := descBegin_between ..
  have hrun : runDesc h d body s = completeOne h d.opcode st 0 (descBegin h.ctx.val s) := by
    rw [runDesc_refused hm hr (hc ▸ h0), hc, complete_of_noClose _ _ _ (hb.noClose hn)]
  have hk : Keeps [.hm, .hif] s (completeOne h d.opcode st 0 (descBegin h.ctx.val s)) :=
    .step (completeOne_keeps ..) (by decide) ((descBegin_keeps ..).mono (by decide))
  have hwant : (completeOne h d.opcode st 0 (descBegin h.ctx.val s)).pwr.wantWarm = none :=
    (congrArg Power.wantWarm (hk.only.same .pwr (by decide))).trans hw
  have hcomp := completeOne_completes h d.opcode st 0 hb
  rw [resultOf_of_zero] at hcomp
  have hctx := completeOne_getCtx h d.opcode st 0 (descBegin h.ctx.val s) h.ctx.val
  rw [if_pos rfl, descBegin_getCtx] at hctx
  refine ⟨completeOne h d.opcode st 0 (descBegin h.ctx.val s), ?_, hcomp, (congrArg Ctx.done hctx :), ?_, (congrArg Ctx.sqHead hctx :),
    fun k hk => (completeOne_getCtx_ne _ _ _ _ _ hk).trans (descBegin_getCtx_ne _ hk), hk.only⟩
  · rw [he]
    refine act_eq hl ?_
    rw [hrun]
    exact rowAfter_of_none c hwant
  · exact (congrArg Ctx.last hctx :).trans (if_neg h0)

end Row

section Check
variable {h : DescHdr} {d : DescSpec} {s : State}

theorem descCheck_modes (hm : (s.hif.mismatch = true ∧ d.basic = false) ∨ (s.fw.recovery = true ∧ d.recov = false)) :
    descCheck h d s = 0x9005 := if_pos (by rcases hm with ⟨h1, h2⟩ | ⟨h1, h2⟩ <;> simp [h1, h2])

section Modes
variable (hm : s.hif.mismatch = false) (hr : s.fw.recovery = false)
include hm hr

theorem descCheck_tenant (hc : h.ctx.val ≠ 0) (ht : d.tenant = false) : descCheck h d s = 0x9003 :=
  (if_neg (by simp [hm, hr])).trans (if_pos (by simp [hc, ht]))

section Context0
variable (hc : h.ctx.val = 0)
include hc

theorem descCheck_feature {b : Nat} (hd : d.feature = some b) (hf : s.feat b = false) : descCheck h d s = 0x9004 := by
  unfold descCheck
  simp only [hm, hr, hc, hd, hf, Bool.false_and, Bool.or_self, Bool.false_eq_true, if_false, ne_eq, not_true_eq_false, decide_false,
    Bool.not_false, if_true]

variable (hd : d.feature = none)
include hd

theorem descCheck_reserved (hz : h.reservedZero = false) : descCheck h d s = 0x9002 := by
  unfold descCheck
  simp only [hm, hr, hc, hd, hz, Bool.false_and, Bool.or_self, Bool.false_eq_true, if_false, ne_eq, not_true_eq_false, decide_false,
    Bool.not_false, if_true]

theorem descCheck_addr (hz : h.reservedZero = true) (ha : ∃ a ∈ d.addrs, a.1 % a.2.2 ≠ 0) : descCheck h d s = 0x9007 := by
  obtain ⟨a, hmem, hal⟩ := ha
  have hany : (d.addrs.any fun a => !addrOk (s.getCtx 0) false a) = true :=
    List.any_eq_true.mpr ⟨a, hmem, by simp [addrOk, hal]⟩
  unfold descCheck
  simp only [hm, hr, hc, hd, hz, Bool.false_and, Bool.or_self, Bool.false_eq_true, if_false, ne_eq, not_true_eq_false, decide_false,
    Bool.not_true, hany, if_true]

end Context0

theorem descCheck_foreign (hc : h.ctx.val ≠ 0) (ht : d.tenant = true) (hd : d.feature = none) (hz : h.reservedZero = true)
    {k : Nat} (hf : d.ctxField = some k) (hk : k ≠ h.ctx.val) : descCheck h d s = 0x9003 := by
  unfold descCheck
  simp only [hm, hr, hd, hz, hf, ht, ne_eq, hc, hk, Bool.false_and, Bool.or_self, Bool.false_eq_true, if_false, not_false_eq_true,
    decide_true, Bool.not_true, Bool.and_false, Bool.true_and, if_true]

end Modes
end Check

section Answer
variable {h : DescHdr} {d : DescSpec} {body : State → DescOut} {s : State} {res : Nat}

/-- A descriptor that only answers: the exact entry, its interrupt message, and its context (R374, R382). -/
theorem answer_exact (hr : Runs h d s) (hb : body (descBegin h.ctx.val s) = .done 0 res (descBegin h.ctx.val s)) :
    let x := s.getCtx h.ctx
    let e := entryOf h.tag 0 res d.opcode false s.tb.hold { x with sqHead := (x.sqHead + 1) % 65536 }
    ∃ t, runDesc h d body s = t ∧ Posts (.cqe h.ctx (x.cqBase + 16 * (x.cqTail % 2 ^ x.cqLog)) (cqeBytes e)) s t ∧
      (t.getCtx h.ctx).cqTail = (x.cqTail + 1) % 65536 ∧ (t.getCtx h.ctx).sqHead = (x.sqHead + 1) % 65536 ∧
      (t.getCtx h.ctx).done = satInc 16 x.done ∧ (t.getCtx h.ctx).evtLostFlag = false ∧
      (h.notify = true → x.irqEn = true → (∀ a, x.irqLast = some a → a + s.hif.irqGap * 250 ≤ s.now) →
        Posts (.irq h.ctx x.irqAddr x.irqData) s t ∧ (t.getCtx h.ctx).irqLast = some s.now) ∧
      (h.notify = true → x.irqEn = true → (∃ a, x.irqLast = some a ∧ s.now < a + s.hif.irqGap * 250) →
        (t.getCtx h.ctx).irqWait = true) ∧
      (∀ k, k ≠ h.ctx.val → t.getCtx k = s.getCtx k) ∧ Only [.hm, .hif] s t := by
  intro x e
  let b := descBegin h.ctx.val s
  let y := (Ctx.finish 0 { x with sqHead := (x.sqHead + 1) % 65536 }).took
  have hkb : Keeps [.hif] s b := descBegin_keeps ..
  have hrun := (runDesc_of_runs hr hb (.refl ..)).1
  have hm := completeOne_hm_exact h d.opcode 0 res b
  have hx := completeOne_getCtx_self h d.opcode 0 res b
  have hdue : ∀ y, b.irqNow y = (y.irqEn && due s.now (s.hif.irqGap * 250) y.irqLast) := fun y => by
    rw [State.irqNow, hkb.now_eq rfl, descBegin_irqGap]
  rw [hdue, descBegin_getCtx, hkb.hm_eq rfl, hkb.tb_eq rfl] at hm
  rw [descBegin_getCtx] at hx
  refine ⟨_, hrun, Posts.of_post (a := []) hm, ?_, ?_, ?_, ?_, fun hn hen hgap => ?_, fun hn hen hgap => ?_,
    fun k hk => (completeOne_getCtx_ne _ _ _ _ _ hk).trans (descBegin_getCtx_ne _ hk), ?_⟩
  · rw [hx]
    split
    · rw [State.irqCtx_cqTail]; rfl
    · rfl
  · rw [hx]
    split
    · exact (congrArg Ctx.sqHead (State.irqCtx_fixed (s := b) _) :)
    · rfl
  · rw [hx]
    split
    · exact (congrArg Ctx.done (State.irqCtx_fixed (s := b) _) :)
    · rfl
  · rw [hx]
    split
    · rw [State.irqCtx_evtLostFlag]; rfl
    · rfl
  · have hd : due s.now (s.hif.irqGap * 250) x.irqLast = true := by
      unfold due
      split
      · rfl
      · next a ha => exact decide_eq_true (hgap a ha)
    have hnow : (h.notify && (x.irqEn && due s.now (s.hif.irqGap * 250) x.irqLast)) = true := by rw [hn, hen, hd]; rfl
    rw [if_pos hnow] at hm
    refine ⟨Posts.of_post (a := [_]) (b := []) hm, ?_⟩
    rw [hx, if_pos hn]
    exact (congrArg Ctx.irqLast (b.irqCtx_now (x := y) hen (by rw [hkb.now_eq rfl, descBegin_irqGap]; exact hd))).trans
      (congrArg some (hkb.now_eq rfl))
  · obtain ⟨a, ha, hlt⟩ := hgap
    have hd : due s.now (s.hif.irqGap * 250) x.irqLast = false := by
      rw [ha, due]
      exact decide_eq_false (Nat.not_le.mpr hlt)
    rw [hx, if_pos hn]
    exact congrArg Ctx.irqWait (b.irqCtx_later (x := y) hen (by rw [hkb.now_eq rfl, descBegin_irqGap]; exact hd))
  · exact Keeps.only (.step (completeOne_keeps ..) (by decide) (hkb.mono (by decide)))

end Answer

/-- Settles O40: the status of the first check that fails, and the entry, exactly, of NOP and IDENTIFY. -/
theorem descriptorsCheckedAndCompleted : Obligations.DescriptorsCheckedAndCompleted := by
  refine ⟨fun s c h d hrow hw => ⟨descRow_idle hrow hw, fun hl hm hr hn st hst => ?_⟩, fun s h => ?_⟩
  · have hc : descCheck h d s = st ∧ st ≠ 0 := by
      rcases hst with hst | ⟨hmode, rfl⟩ | ⟨h1, h2, h3, h4, rfl⟩ | ⟨h1, h2, h3, ⟨b, h4, h5⟩, rfl⟩ | ⟨h1, h2, h3, h4, h5, rfl⟩ |
        ⟨h1, h2, h3, h4, h5, h6, ⟨k, h7, h8⟩, rfl⟩ | ⟨h1, h2, h3, h4, h5, h6, rfl⟩
      · exact hst
      · exact ⟨descCheck_modes hmode, by decide⟩
      · exact ⟨descCheck_tenant h1 h2 h3 h4, by decide⟩
      · exact ⟨descCheck_feature h1 h2 h3 h4 h5, by decide⟩
      · exact ⟨descCheck_reserved h1 h2 h3 h4 h5, by decide⟩
      · exact ⟨descCheck_foreign h1 h2 h3 h4 h5 h6 h7 h8, by decide⟩
      · exact ⟨descCheck_addr h1 h2 h3 h4 h5 h6, by decide⟩
    exact descRow_refused hrow hw hl hm hr hn hc.1 hc.2
  · intro x e c op res hcmd
    rcases hcmd with ⟨rfl, hr, rfl, rfl⟩ | ⟨rfl, hr, rfl, rfl⟩
    · obtain ⟨t, ht, hfacts⟩ := answer_exact hr rfl
      exact ⟨t, act_eq hr.1 ht, hfacts⟩
    · have hrec : (descBegin h.ctx.val s).ifVer = if s.fw.recovery then 0 else 0x400 := by
        rw [State.ifVer, (descBegin_keeps h.ctx.val s).fw_eq rfl]
      obtain ⟨t, ht, hfacts⟩ := answer_exact (body := bodyIdentify h) hr (by rw [bodyIdentify, hrec])
      exact ⟨t, act_eq hr.1 ht, hfacts⟩

end Sys2Proof.Machine
end

section
/-!
Doorbells, negotiation, the ring of context 0, and fetches (R370, R373, R375, R378, R382, R384, R388).
-/
namespace Sys2Proof.Machine

section Tenants
variable {k : Nat}

/-- A record that no tenant context is told of (R382). -/
def Untold (code : Nat) : Prop := code ≠ 0x7010 ∧ code ≠ 0x6032 ∧ code ≠ 0x6821 ∧ code ≠ 0x6040

theorem untold_queueLost : Untold 0xA815 := by unfold Untold; decide
theorem untold_eventLost : Untold 0x9014 := by unfold Untold; decide

theorem evtWanted_untold {r : LRec} (h : Untold r.code) {c : Nat} (hc : c ≠ 0) (s : State) : evtWanted r c s = false := by
  obtain ⟨h1, h2, h3, h4⟩ := h
  simp [evtWanted, hc, h1, h2, h3, h4]

/-- What is queued or told on account of an untold record leaves the tenant contexts alone. -/
theorem emitRec_getCtx_tenant (hk : k ≠ 0) (n : Nat) (r : LRec) (hr : Untold r.code) (s : State) :
    (emitRec n r s).getCtx k = s.getCtx k := by
  induction n generalizing r s with
  | zero => rfl
  | succ n ih =>
    have hq : (ldgEnqueue (emitRec n) r s).getCtx k = s.getCtx k := by
      unfold ldgEnqueue
      extract_lets full s1 s2
      split
      · exact ih (mkRec 0x36 0xA815 r.source s2.ldg.qlost 0 0 s2) untold_queueLost s2
      · rfl
    have h0 : ∀ u : State, (evtDeliver (emitRec n) r 0 u).getCtx k = u.getCtx k := fun u => by
      unfold evtDeliver
      extract_lets x s1 s2
      have h1 : s1.getCtx k = u.getCtx k := State.getCtx_updCtx_ne _ _ _ hk
      split
      · rfl
      · split
        · exact writeEntry_getCtx_ne _ _ _ _ _ _ _ _ hk
        · split
          · exact (ih (mkRec 0x21 0x9014 0 r.code 0 0 s2) untold_eventLost s2).trans
              ((State.getCtx_updCtx_ne _ _ _ hk).trans h1)
          · exact h1
    have ht : ∀ (c : Nat) (u : State), c ≠ 0 → evtDeliver (emitRec n) r c u = u := fun c u hc =>
      if_pos (by simp [evtWanted_untold hr hc])
    unfold emitRec
    extract_lets s1 c
    split
    · next hc =>
      rw [ht c s1 (by simp only [Bool.and_eq_true, decide_eq_true_eq] at hc; exact hc.1.2)]
      exact (h0 _).trans hq
    · exact (h0 _).trans hq

theorem emit_getCtx_tenant (hk : k ≠ 0) {src code p0 p1 p2 p3 : Nat} (hc : Untold code) (s : State) :
    (emit src code p0 p1 p2 p3 s).getCtx k = s.getCtx k := emitRec_getCtx_tenant hk 4 (mkRec src code p0 p1 p2 p3 s) hc s

end Tenants

section Ports
variable {s : State} {f : State → State}

theorem hsHard_of_live (h : s.live = true) : hsHard f s = .next (hsAnswer 0 0 (f s)) := by rw [hsHard, if_pos h]

theorem hsHif_of_up (hl : s.live = true) (hc : s.clerkUp = true) (hm : s.hif.mismatch = false) :
    hsHif f s = .next (hsAnswer 0 0 (f s)) := by
  rw [hsHif, if_neg (by simp [hl, hc]), if_neg (by simp [hm])]

theorem hsAnswer_getCtx (k : Nat) (u : State) : (hsAnswer 0 0 u).getCtx k = u.getCtx k :=
  getCtx_of_hif ((hsAnswer_keeps 0 0 u).hif_eq rfl) k

end Ports

section Error
variable (c cause db : Nat) (s : State)

/-- R370: a context in ERROR, with its cause, and no fetch to retry. -/
theorem ctxError_getCtx : ((ctxError c cause db s).getCtx c).fixed = { (s.getCtx c).fixed with st := 2, cause := cause, fetchFail := none } := by
  rw [ctxError, emitClerk, emit_ctx_fixed, State.getCtx_updCtx]
  rfl

theorem ctxError_logs (h : QRoom 0x21 s) : Logs 0x21 0x9013 c cause (s.getCtx c).sqHead db s (ctxError c cause db s) :=
  emit_logs_after (State.updCtx_keeps ..) (by decide) (by decide) (by decide) (by decide) h

end Error

section Doorbell
variable {s : State} {c : CtxId} {v : Word} (hl : s.live = true)
include hl

/-- R375: a doorbell whose indices are out of order puts its context in ERROR. -/
theorem doorbell_bad (hst : (s.getCtx c).st = 1) (hbad : (s.getCtx c).dbOk (bits v.toNat 0 16) (bits v.toNat 16 16) = false) :
    ∃ t, exec (.doorbellWrite c v) s = .next t ∧
      (t.getCtx c).st = 2 ∧ (t.getCtx c).cause = 2 ∧ t.hif.dbBad = satInc 16 s.hif.dbBad ∧
      (QRoom 0x21 s → Logs 0x21 0x9013 c 2 (s.getCtx c).sqHead v.toNat s t) ∧ Only [.hm, .hs, .hif, .ldg] s t := by
  let s1 := s.onHif fun h => { h with dbBad := satInc 16 h.dbBad }
  have hd : doorbell c.val v.toNat s = ctxError c 2 v.toNat s1 := by
    unfold doorbell
    extract_lets x t q
    rw [if_neg (not_not.mpr hst), if_neg (by rw [hbad]; decide)]
  have he : exec (.doorbellWrite c v) s = .next (hsAnswer 0 0 (ctxError c 2 v.toNat s1)) :=
    (hsHard_of_live hl).trans (by rw [hd])
  have hans := hsAnswer_keeps 0 0 (ctxError c 2 v.toNat s1)
  have hx := ctxError_getCtx c 2 v.toNat s1
  have hk1 : Keeps [.hif] s s1 := State.onHif_keeps ..
  refine ⟨_, he, ?_, ?_, ?_, fun hroom => ?_, Keeps.only (.step hans (by decide) (.step (ctxError_keeps ..) (by decide)
    (hk1.mono (by decide))))⟩
  · rw [hsAnswer_getCtx]; exact (congrArg Ctx.st hx :)
  · rw [hsAnswer_getCtx]; exact (congrArg Ctx.cause hx :)
  · rw [hans.hif_eq rfl]
    exact (congrArg Hif.dbBad (emit_hif_fixed (src := 0x21) (code := 0x9013) (p0 := c.val) (p1 := 2) (p2 := (s1.getCtx c.val).sqHead)
      (p3 := v.toNat) (s := s1.updCtx c.val fun x => { x with st := 2, cause := 2, fetchFail := none })) :)
  · exact ((ctxError_logs c 2 v.toNat s1 hroom).before hans.only (by decide)).after hk1.only (by decide) rfl (by decide)

/-- R382: the message that waited for its gap is written. -/
theorem irqGap_sent (hw : (s.getCtx c).irqWait = true) (hen : (s.getCtx c).irqEn = true)
    (hgap : ∀ a, (s.getCtx c).irqLast = some a → a + s.hif.irqGap * 250 ≤ s.now) :
    ∃ t, exec (.irqGap c) s = .next t ∧ Posts (.irq c (s.getCtx c).irqAddr (s.getCtx c).irqData) s t ∧
      t.getCtx c = { s.getCtx c with irqWait := false, irqLast := some s.now } ∧ (∀ k, k ≠ c.val → t.getCtx k = s.getCtx k) ∧
      Only [.hm, .hif] s t := by
  have hd : due s.now (s.hif.irqGap * 250) (s.getCtx c).irqLast = true := by
    unfold due
    split
    · rfl
    · next a ha => exact decide_eq_true (hgap a ha)
  have hm := irqDue_hm c.val s
  rw [if_pos (show s.irqNow (s.getCtx c) = true by rw [State.irqNow, hen, hd]; rfl)] at hm
  refine ⟨_, act_eq hl (if_pos hw), Posts.of_post (a := []) hm, (irqDue_getCtx ..).trans (s.irqCtx_now hen hd),
    fun k hk => irqDue_getCtx_ne _ _ hk, (irqDue_keeps ..).only⟩

end Doorbell

section Open0
variable (s : State)

theorem untold_opened : Untold 0x9011 := by unfold Untold; decide
theorem untold_closed : Untold 0x9012 := by unfold Untold; decide

/-- The word of a ring register keeps the ring sizes and the enables of the word written. -/
theorem ringWord_sq (v : Nat) : bits (bits v 0 10 + bits v 16 8 * 2 ^ 16) 0 4 = bits v 0 4 := by
  simp only [bits]
  omega

theorem ringWord_cq (v : Nat) : bits (bits v 0 10 + bits v 16 8 * 2 ^ 16) 4 4 = bits v 4 4 := by
  simp only [bits]
  omega

theorem ringWord_weight (v : Nat) : bits (bits v 0 10 + bits v 16 8 * 2 ^ 16) 16 8 = bits v 16 8 := by
  simp only [bits]
  omega

/-- Context 0 as its registers open it (R370). -/
def ctx0Of (h : Hif) (y : Ctx) : Ctx :=
  { ({} : Ctx) with
    st := 1, sqLog := bits h.c0Ring 0 4, cqLog := bits h.c0Ring 4 4, schedW := bits h.c0Ring 16 8, irqEn := bitOf h.c0Ring 9,
    sqBase := h.c0SqLo + h.c0SqHi * 2 ^ 32, cqBase := h.c0CqLo + h.c0CqHi * 2 ^ 32,
    irqAddr := h.c0IrqLo + h.c0IrqHi * 2 ^ 32, irqData := h.c0IrqData, done := y.done, evtLost := y.evtLost,
    last := y.last, irqLast := y.irqLast }

theorem openC0_eq : openC0 s = emitClerk 0x9011 0 (bits s.hif.c0Ring 0 4 + bits s.hif.c0Ring 4 4 * 16) (bits s.hif.c0Ring 16 8) 0
    (s.updCtx 0 (ctx0Of s.hif)) := rfl

theorem openC0_getCtx : ((openC0 s).getCtx 0).fixed = (ctx0Of s.hif (s.getCtx 0)).fixed := by
  rw [openC0_eq, emitClerk, emit_ctx_fixed, State.getCtx_updCtx]

theorem openC0_getCtx_ne {k : Nat} (hk : k ≠ 0) : (openC0 s).getCtx k = s.getCtx k := by
  rw [openC0_eq]
  exact (emit_getCtx_tenant hk untold_opened _).trans (State.getCtx_updCtx_ne _ _ _ hk)

/-- Context 0 closed, before its record. -/
def c0Shut : State :=
  (s.updCtx 0 fun y => { ({} : Ctx) with done := y.done, evtLost := y.evtLost, last := y.last, irqLast := y.irqLast }).onHif
    fun h => { h with c0Ring := if bitOf h.c0Ring 8 then h.c0Ring - 2 ^ 8 else h.c0Ring }

theorem ctxShut_zero : ctxShut 0 s = emitClerk 0x9012 0 (s.getCtx 0).left 0 0 (c0Shut s) := rfl

theorem c0Shut_getCtx_st : ((c0Shut s).getCtx 0).st = 0 := (congrArg Ctx.st (State.getCtx_updCtx (s := s) (k := 0) fun y =>
  { ({} : Ctx) with done := y.done, evtLost := y.evtLost, last := y.last, irqLast := y.irqLast }) : _)

theorem c0Shut_getCtx_ne {k : Nat} (hk : k ≠ 0) : (c0Shut s).getCtx k = s.getCtx k :=
  State.getCtx_updCtx_ne s 0 (fun y => { ({} : Ctx) with done := y.done, evtLost := y.evtLost, last := y.last, irqLast := y.irqLast }) hk

theorem c0Shut_c0Ring (h : bitOf s.hif.c0Ring 8 = true) : (c0Shut s).hif.c0Ring = s.hif.c0Ring - 2 ^ 8 := if_pos h

end Open0

section Context0
variable {s : State} {v : Word} (hl : s.live = true) (hc : s.clerkUp = true) (hm : s.hif.mismatch = false)
include hl hc hm

/-- R384, R385: the negotiation of the features and the version. -/
theorem negGo_negotiates (he : bitOf s.hif.c0Ring 8 = true) (hd : s.hif.negDone = false) :
    ∃ t, exec .hifNegGo s = .next t ∧ t.hif.negDone = true ∧
      t.hif.negStatus = 0 ∧ t.hif.featEn = Nat.land 0x3FF (s.hif.featHostLo + s.hif.featHostHi * 2 ^ 32) ∧
      t.hif.mismatch = decide (bits s.hif.hostVer 8 8 ≠ 4) ∧
      (QRoom 0x21 s → Logs 0x21 0x9010 s.hif.hostVer (t.hif.featEn % 2 ^ 32) (t.hif.featEn / 2 ^ 32)
        (b2n t.hif.mismatch) s t) ∧ Only [.hm, .hs, .hif, .ldg] s t := by
  let en := Nat.land featAvail (s.hif.featHostLo + s.hif.featHostHi * 2 ^ 32)
  let bad := decide (bits s.hif.hostVer 8 8 ≠ 4)
  let s1 := s.onHif fun x => { x with negDone := true, negStatus := 0, featEn := en, mismatch := bad }
  have hn : negGo s = emitClerk 0x9010 s.hif.hostVer (en % 2 ^ 32) (en / 2 ^ 32) (b2n bad) s1 := by
    unfold negGo
    extract_lets h
    rw [if_neg (by simp [h, he]), if_neg (by simp [h, hd])]
  have hans := hsAnswer_keeps 0 0 (negGo s)
  have hfix : (negGo s).hif.fixed = s1.hif.fixed := by rw [hn]; exact emit_hif_fixed ..
  have hif := hans.hif_eq rfl
  have h1 : (hsAnswer 0 0 (negGo s)).hif.featEn = en := (congrArg Hif.featEn hif).trans (congrArg Hif.featEn hfix :)
  have h2 : (hsAnswer 0 0 (negGo s)).hif.mismatch = bad := (congrArg Hif.mismatch hif).trans (congrArg Hif.mismatch hfix :)
  refine ⟨_, hsHif_of_up hl hc hm, (congrArg Hif.negDone hif).trans (congrArg Hif.negDone hfix :),
    (congrArg Hif.negStatus hif).trans (congrArg Hif.negStatus hfix :), h1, h2, fun hroom => ?_,
    Keeps.only (.step hans (by decide) ((negGo_keeps s).mono (by decide)))⟩
  rw [h1, h2]
  refine Logs.before ?_ hans.only (by decide)
  rw [hn]
  exact emit_logs_after (State.onHif_keeps ..) (by decide) (by decide) (by decide) (by decide) hroom

/-- R370, R388: context 0 opens with every index 0 and the fields of its ring register. -/
theorem c0Ring_opens (he : bitOf s.hif.c0Ring 8 = false) (hv : bitOf v.toNat 8 = true) (hok : c0RingOk v.toNat = true) :
    ∃ t, exec (.c0RingEnWrite v) s = .next t ∧ (t.getCtx 0).st = 1 ∧ (t.getCtx 0).sqHead = 0 ∧ (t.getCtx 0).sqTail = 0 ∧
      (t.getCtx 0).cqHead = 0 ∧ (t.getCtx 0).sqLog = bits v.toNat 0 4 ∧ (t.getCtx 0).cqLog = bits v.toNat 4 4 ∧
      (t.getCtx 0).schedW = bits v.toNat 16 8 ∧ (t.getCtx 0).sqBase = s.hif.c0SqLo + s.hif.c0SqHi * 2 ^ 32 ∧
      (t.getCtx 0).cqBase = s.hif.c0CqLo + s.hif.c0CqHi * 2 ^ 32 ∧ (∀ k, k ≠ 0 → t.getCtx k = s.getCtx k) ∧
      Only [.hm, .hs, .hif, .ldg] s t := by
  let s1 := s.onHif fun h => { h with c0Ring := bits v.toNat 0 10 + bits v.toNat 16 8 * 2 ^ 16 }
  have hw : c0RingWrite v.toNat s = openC0 s1 := by
    unfold c0RingWrite
    rw [if_neg (by simp [he]), if_pos hok]
    exact if_pos hv
  have hx := openC0_getCtx s1
  have hans := hsAnswer_keeps 0 0 (openC0 s1)
  refine ⟨hsAnswer 0 0 (openC0 s1), (hsHif_of_up hl hc hm).trans (by rw [hw]), ?_⟩
  rw [hsAnswer_getCtx]
  refine ⟨(congrArg Ctx.st hx :), (congrArg Ctx.sqHead hx :), (congrArg Ctx.sqTail hx :), (congrArg Ctx.cqHead hx :),
    (congrArg Ctx.sqLog hx :).trans (ringWord_sq _), (congrArg Ctx.cqLog hx :).trans (ringWord_cq _),
    (congrArg Ctx.schedW hx :).trans (ringWord_weight _), (congrArg Ctx.sqBase hx :), (congrArg Ctx.cqBase hx :),
    fun k hk => (hsAnswer_getCtx _ _).trans ((openC0_getCtx_ne s1 hk).trans rfl), ?_⟩
  exact Keeps.only (.step hans (by decide) (.step (openC0_keeps ..) (by decide) ((State.onHif_keeps ..).mono (by decide))))

/-- R370: context 0 closes at once when no descriptor is in progress. -/
theorem c0Ring_closes (he : bitOf s.hif.c0Ring 8 = true) (hv : bitOf v.toNat 8 = false) (hb : (s.getCtx 0).busy = false) :
    ∃ t, exec (.c0RingEnWrite v) s = .next t ∧ (t.getCtx 0).st = 0 ∧ bitOf t.hif.c0Ring 8 = false ∧
      (∀ k, k ≠ 0 → t.getCtx k = s.getCtx k) ∧ (QRoom 0x21 s → Logs 0x21 0x9012 0 (s.getCtx 0).left 0 0 s t) ∧
      Only [.hm, .hs, .hif, .ldg] s t := by
  have hw : c0RingWrite v.toNat s = ctxShut 0 s := by
    unfold c0RingWrite
    rw [if_pos he, if_neg (by simp [hv]), if_neg (by simp [hb])]
  have hk : Keeps [.hif] s (c0Shut s) := .step (State.onHif_keeps ..) (by decide) (State.updCtx_keeps ..)
  rw [ctxShut_zero] at hw
  let u := emitClerk 0x9012 0 (s.getCtx 0).left 0 0 (c0Shut s)
  have hans := hsAnswer_keeps 0 0 u
  have hx : (u.getCtx 0).fixed = ((c0Shut s).getCtx 0).fixed := emit_ctx_fixed ..
  have hr : u.hif.fixed = (c0Shut s).hif.fixed := emit_hif_fixed ..
  refine ⟨hsAnswer 0 0 u, (hsHif_of_up hl hc hm).trans (by rw [hw]), ?_, ?_, fun k hk0 => ?_, fun hroom => ?_, ?_⟩
  · rw [hsAnswer_getCtx]
    exact (congrArg Ctx.st hx :).trans (c0Shut_getCtx_st s)
  · have hreg : u.hif.c0Ring = s.hif.c0Ring - 2 ^ 8 := (congrArg Hif.c0Ring hr :).trans (c0Shut_c0Ring s he)
    rw [hans.hif_eq rfl, hreg]
    simp only [bitOf, decide_eq_true_eq, decide_eq_false_iff_not] at he ⊢
    omega
  · exact (hsAnswer_getCtx _ _).trans ((emit_getCtx_tenant hk0 untold_closed _).trans (c0Shut_getCtx_ne s hk0))
  · exact Logs.before (emit_logs_after hk (by decide) (by decide) (by decide) (by decide) hroom) hans.only (by decide)
  · exact Keeps.only (.step hans (by decide) (.step (emitClerk_keeps ..) (by decide) (hk.mono (by decide))))

end Context0

section Counts
variable {s : State}

/-- A change that does no more the second time, in a loop over keys: it reaches the entry of each key that is listed. -/
theorem forList_idem {α β : Type} [DecidableEq α] (get : State → β) {f : α → State → State} {g : β → β} {k : α}
    (hself : ∀ u, get (f k u) = g (get u)) (hother : ∀ j, j ≠ k → ∀ u, get (f j u) = get u) (hg : ∀ x, g (g x) = g x)
    (l : List α) (s : State) : get (forList l f s) = if k ∈ l then g (get s) else get s := by
  induction l generalizing s with
  | nil => rfl
  | cons a l ih =>
    rw [forList_cons, ih]
    by_cases hk : a = k
    · subst hk
      simp [hself, hg]
    · simp [Ne.symm hk, hother a hk]

theorem Tbl.get_of_notMem {α : Type} {d : α} {t : Tbl α} {k : Nat} (h : k ∉ t.map Prod.fst) : Tbl.get d t k = d :=
  (Tbl.get_mem t k).resolve_right fun hm => h (List.mem_map_of_mem hm)

/-- A context with its counts cleared. -/
def Ctx.uncount (x : Ctx) : Ctx := { x with done := 0, evtLost := 0 }

/-- The counts of context `c` are cleared. -/
def ctxUncount (c : Nat) (s : State) : State := s.updCtx c Ctx.uncount

theorem hifClr_eq (s : State) : hifClr s =
    forList (s.hif.ctx.map Prod.fst) ctxUncount (s.onHif fun h => { h with dbBad := 0, dbDrop := 0 }) := rfl

theorem hifClr_getCtx (k : Nat) : (hifClr s).getCtx k = (s.getCtx k).uncount := by
  rw [hifClr_eq, forList_idem (fun u : State => u.getCtx k) (f := ctxUncount) (g := Ctx.uncount) (k := k) (fun u => State.getCtx_updCtx ..)
    (fun j hj u => State.getCtx_updCtx_ne _ _ _ hj.symm) (fun x => rfl)]
  split
  · rfl
  · next hk =>
    have hd : s.getCtx k = {} := Tbl.get_of_notMem hk
    rw [hd]
    exact hd

/-- The host interface without its contexts. -/
def Hif.regs (h : Hif) : Hif := { h with ctx := [] }

theorem hifClr_regs : (hifClr s).hif.regs = { s.hif.regs with dbBad := 0, dbDrop := 0 } := by
  rw [hifClr_eq]
  exact forList_eq (fun u : State => u.hif.regs) _ (f := ctxUncount) (fun _ _ => rfl) _

/-- R388: the counts of the host interface and of every context are cleared. -/
theorem hifCtrlClr_clears (hl : s.live = true) (hc : s.clerkUp = true) (hm : s.hif.mismatch = false) :
    ∃ t, exec .hifCtrlClr s = .next t ∧ t.hif.dbBad = 0 ∧ t.hif.dbDrop = 0 ∧
      (∀ k, t.getCtx k = { s.getCtx k with done := 0, evtLost := 0 }) ∧ Only [.hs, .hif] s t := by
  have hans := hsAnswer_keeps 0 0 (hifClr s)
  have hr := hifClr_regs (s := s)
  exact ⟨_, hsHif_of_up hl hc hm, (congrArg Hif.dbBad (hans.hif_eq rfl)).trans (congrArg Hif.dbBad hr :),
    (congrArg Hif.dbDrop (hans.hif_eq rfl)).trans (congrArg Hif.dbDrop hr :), fun k => (hsAnswer_getCtx _ _).trans (hifClr_getCtx k),
    Keeps.only (.step hans (by decide) ((hifClr_keeps s).mono (by decide)))⟩

end Counts

section Fetch
variable {s : State} {c : CtxId} {ws : List Word} {b : List Nat} {x : Ext}

theorem fetch_held (h : descMay c s = false) (w : Option (List Word)) : fetch c w x s = s := if_pos (by simp [h])

theorem fetch_words (hm : descMay c s = true) (hr : s.hm.inReset = false) : fetch c (some ws) x s = perform c (descBytes ws) x s :=
  if_neg (by simp [hm, hr])

theorem perform_planned {p : Plan} (h : planOf (hdrOf c b) b x = some p) :
    perform c b x s = warmAfter (runDesc (hdrOf c b) p.1 p.2 s) := by
  rw [perform, h]

theorem warmAfter_of_none (h : s.pwr.wantWarm = none) : warmAfter s = s := by rw [warmAfter, h]

/-- A descriptor that the bytes spell, and that asks for no warm reset, does what its own command does. -/
theorem perform_runs {d : DescSpec} {body : State → DescOut} (h : planOf (hdrOf c b) b x = some (d, body))
    (hw : s.pwr.wantWarm = none) {ps : List Area} (hb : ∀ u, KeepsD ps u (body u)) (hp : ps.contains .pwr = false) :
    perform c b x s = runDesc (hdrOf c b) d body s := by
  have hk : Keeps ([.hm, .hif, .ldg, .fc, .trs] ++ ps) s (runDesc (hdrOf c b) d body s) :=
    runDesc_keeps (fun u => KeepsD.step (hb u) (fun p hp => List.mem_append_right _ hp) (.refl ..)) (fun p hp => List.mem_append_left _ hp) ..
  have hpwr : (runDesc (hdrOf c b) d body s).pwr = s.pwr := hk.only.same .pwr (by simpa using hp)
  rw [perform_planned h]
  exact warmAfter_of_none (by rw [hpwr, hw])

theorem planOf_hif {p : Plan} (h : planHif (hdrOf c b) b x (fld b 0 2) = some p) : planOf (hdrOf c b) b x = some p := by
  simp only [planOf, h, Option.some_or]

theorem planOf_nop (h : fld b 0 2 = 0x0001) : planOf (hdrOf c b) b x = some (descNop, bodyNop) := planOf_hif (by rw [h]; rfl)

theorem planOf_floorSet (h : fld b 0 2 = 0x0014) :
    planOf (hdrOf c b) b x = some (descFloorSet (fld b 8 2), bodyFloorSet (fld b 8 2) (fld b 10 1)) := planOf_hif (by rw [h]; rfl)

theorem planOf_ldgRearm (h : fld b 0 2 = 0x0083) :
    planOf (hdrOf c b) b x = some (descLdgRearm, bodyLdgRearm (bitOf (fld b 8 1) 0)) := by
  simp only [planOf, h]
  rfl

/-- R378: an undefined opcode completes with HIF_OPCODE. -/
theorem perform_undefined (h : planOf (hdrOf c b) b x = none) (hl : s.live = true) (hm : descMay c s = true)
    (hr : s.hm.inReset = false) (hn : NoClose c s) :
    Completes (hdrOf c b) (fld b 0 2) 0x9001 0 s (perform c b x s) ∧ Only [.hm, .hif] s (perform c b x s) := by
  have hc : descCheck { hdrOf c b with reservedZero := true } { opcode := fld b 0 2, basic := true, tenant := true, recov := true } s = 0 := by
    simp [descCheck]
  obtain ⟨he, hcomp⟩ := runDesc_of_runs (h := { hdrOf c b with reservedZero := true })
    (d := { opcode := fld b 0 2, basic := true, tenant := true, recov := true }) (body := DescOut.fail 0x9001) ⟨hl, hm, hr, hc, hn⟩ rfl (.refl ..)
  have hp : perform c b x s = _ := (by rw [perform, h] : perform c b x s = runDesc { hdrOf c b with reservedZero := true }
    { opcode := fld b 0 2, basic := true, tenant := true, recov := true } (DescOut.fail 0x9001) s).trans he
  rw [hp]
  exact ⟨hcomp, Keeps.only (.step (completeOne_keeps ..) (by decide) ((descBegin_keeps ..).mono (by decide)))⟩

/-- R378: a fetch does nothing while its context may not start, and a good one performs what the bytes say. -/
theorem fetch_spec (hl : s.live = true) (hw : s.pwr.wantWarm = none) (hm : descMay c s = true) :
    exec (.descriptorFetch c none x) s = .next (s.updCtx c fun z => { z with fetchFail := some s.now }) ∧
    (s.hm.inReset = true → exec (.descriptorFetch c (some ws) x) s = .next s) ∧
    (s.hm.inReset = false → ∀ b, b = descBytes ws →
      (∀ p, planOf (hdrOf c b) b x = some p →
        exec (.descriptorFetch c (some ws) x) s = .next (warmAfter (runDesc (hdrOf c b) p.1 p.2 s))) ∧
      (fld b 0 2 = 0x0001 → exec (.descriptorFetch c (some ws) x) s = exec (.nop (hdrOf c b)) s) ∧
      (fld b 0 2 = 0x0014 → exec (.descriptorFetch c (some ws) x) s = exec (.floorSet (hdrOf c b) (fld b 8 2) (fld b 10 1)) s) ∧
      (fld b 0 2 = 0x0083 → exec (.descriptorFetch c (some ws) x) s = exec (.ldgRearm (hdrOf c b) (bitOf (fld b 8 1) 0)) s) ∧
      (planOf (hdrOf c b) b x = none → NoClose c s →
        ∃ t, exec (.descriptorFetch c (some ws) x) s = .next t ∧ Completes (hdrOf c b) (fld b 0 2) 0x9001 0 s t ∧
          Only [.hm, .hif] s t)) := by
  refine ⟨act_eq hl (if_neg (by simp [hm])), fun hr => act_eq hl (if_pos (by simp [hr])), ?_⟩
  rintro hr b rfl
  have he : exec (.descriptorFetch c (some ws) x) s = .next (perform c (descBytes ws) x s) := act_eq hl (fetch_words hm hr)
  refine ⟨fun p hp => he.trans (by rw [perform_planned hp]), fun h => ?_, fun h => ?_, fun h => ?_, fun hp hn => ⟨_, he, perform_undefined hp hl hm hr hn⟩⟩
  · rw [he, perform_runs (planOf_nop h) hw bodyNop_keeps rfl]
    exact (act_of_live hl _).symm
  · rw [he, perform_runs (planOf_floorSet h) hw (bodyFloorSet_keeps _ _) rfl]
    exact (act_of_live hl _).symm
  · rw [he, perform_runs (planOf_ldgRearm h) hw (bodyLdgRearm_keeps _) rfl]
    exact (act_of_live hl _).symm

theorem fetchRetry_of_none (h : (s.getCtx c).fetchFail = none) (w : Option (List Word)) : fetchRetry c w x s = s := by
  unfold fetchRetry
  extract_lets y
  rw [show y.fetchFail = none from h]

/-- The context whose failed fetch is retried. -/
def retried (c : Nat) (s : State) : State := s.updCtx c fun z => { z with fetchFail := none }

section Retry
variable {t0 : Nat} (h : (s.getCtx c).fetchFail = some t0)
include h

theorem fetchRetry_early (hlt : s.now < t0 + 10000) (w : Option (List Word)) : fetchRetry c w x s = s := by
  unfold fetchRetry
  extract_lets y s1
  rw [show y.fetchFail = some t0 from h]
  exact if_pos (by simp [nsPerUs, hlt])

variable (hle : t0 + 10000 ≤ s.now) (hm : descMay c (retried c s) = true)
include hle hm

theorem fetchRetry_fails : fetchRetry c none x s = ctxError c 1 ((s.getCtx c).sqTail + (s.getCtx c).cqHead * 2 ^ 16) (retried c s) := by
  unfold fetchRetry
  extract_lets y s1
  rw [show y.fetchFail = some t0 from h]
  exact if_neg (by simp [nsPerUs, Nat.not_lt.mpr hle, show descMay c s1 = true from hm])

theorem fetchRetry_reads (hr : s.hm.inReset = false) : fetchRetry c (some ws) x s = perform c (descBytes ws) x (retried c s) := by
  unfold fetchRetry
  extract_lets y s1
  rw [show y.fetchFail = some t0 from h]
  exact if_neg (by simp [nsPerUs, Nat.not_lt.mpr hle, hr, show descMay c s1 = true from hm])

/-- R378: a second failed fetch puts the context in ERROR with cause 1; a good one performs the descriptor. -/
theorem fetchRetry_spec (hl : s.live = true) (hw : s.pwr.wantWarm = none) :
    (∃ t, exec (.fetchRetry c none x) s = .next t ∧ (t.getCtx c).st = 2 ∧ (t.getCtx c).cause = 1 ∧
      (t.getCtx c).fetchFail = none ∧
      (QRoom 0x21 s → Logs 0x21 0x9013 c 1 (s.getCtx c).sqHead ((s.getCtx c).sqTail + (s.getCtx c).cqHead * 2 ^ 16) s t) ∧
      Only [.hm, .hif, .ldg] s t) ∧
    (s.hm.inReset = false → fld (descBytes ws) 0 2 = 0x0001 → exec (.fetchRetry c (some ws) x) s =
      exec (.nop (hdrOf c (descBytes ws))) (retried c s)) := by
  have hk : Keeps [.hif] s (retried c s) := State.updCtx_keeps ..
  have hx := ctxError_getCtx c 1 ((s.getCtx c).sqTail + (s.getCtx c).cqHead * 2 ^ 16) (retried c s)
  have hsq : ((retried c s).getCtx c).sqHead = (s.getCtx c).sqHead := by
    rw [retried, State.getCtx_updCtx]
  refine ⟨⟨_, act_eq hl (fetchRetry_fails h hle hm), (congrArg Ctx.st hx :), (congrArg Ctx.cause hx :), (congrArg Ctx.fetchFail hx :),
    fun hroom => ?_, Keeps.only (.step (ctxError_keeps ..) (by decide) (hk.mono (by decide)))⟩, fun hr hop => ?_⟩
  · have hlog := ctxError_logs c 1 ((s.getCtx c).sqTail + (s.getCtx c).cqHead * 2 ^ 16) (retried c s) hroom
    rw [hsq] at hlog
    exact hlog.after hk.only (by decide) rfl (by decide)
  · have he : exec (.fetchRetry c (some ws) x) s = .next (perform c (descBytes ws) x (retried c s)) :=
      act_eq hl (fetchRetry_reads h hle hm hr)
    rw [he, perform_runs (s := retried c s) (planOf_nop hop) hw bodyNop_keeps rfl]
    exact (act_of_live (s := retried c s) hl _).symm

end Retry
end Fetch

/-- Settles O41: what a doorbell, the gap, GO, the writes of the ring register and a fetch do. -/
theorem ringsDoorbellsAndFetches : Obligations.RingsDoorbellsAndFetches := by
  refine ⟨fun s c v hl => ⟨fun hst => ?_, fun hst hok => ?_, doorbell_bad hl, fun hw => act_eq hl (if_neg (by simp [hw])), irqGap_sent hl,
    fun hc hm => ⟨fun he => ?_, fun he hd => ?_, negGo_negotiates hl hc hm, c0Ring_opens hl hc hm, fun he hv hok => ?_, fun he hok => ?_,
    fun he hv => ?_, fun he hv hb => ?_, c0Ring_closes hl hc hm, hifCtrlClr_clears hl hc hm⟩⟩,
    fun s c ws x hl hw => ⟨fun hm => ⟨act_eq hl (fetch_held hm _), act_eq hl (fetch_held hm _)⟩, fun hm => ?_,
    fun h => ⟨act_eq hl (fetchRetry_of_none h _), act_eq hl (fetchRetry_of_none h _)⟩, fun t0 h => ⟨fun hlt =>
    ⟨act_eq hl (fetchRetry_early h hlt _), act_eq hl (fetchRetry_early h hlt _)⟩, fun hle hm => fetchRetry_spec h hle hm hl hw⟩⟩⟩
  · exact (hsHard_of_live hl).trans (by rw [doorbell]; exact congrArg _ (congrArg _ (if_pos hst)))
  · refine (hsHard_of_live hl).trans (congrArg _ (congrArg _ ?_))
    exact (if_neg (not_not.mpr hst)).trans (if_pos hok)
  · exact (hsHif_of_up hl hc hm).trans (congrArg _ (congrArg _ (if_pos (by simp [he]))))
  · refine (hsHif_of_up hl hc hm).trans (congrArg _ (congrArg _ ?_))
    exact (if_neg (by simp [he])).trans (if_pos hd)
  · refine (hsHif_of_up hl hc hm).trans (congrArg _ (congrArg _ ?_))
    exact (if_neg (by simp [he])).trans ((if_pos hok).trans (if_neg (by simp [hv])))
  · refine (hsHif_of_up hl hc hm).trans (congrArg _ (congrArg _ ?_))
    exact (if_neg (by simp [he])).trans (if_neg (by simp [hok]))
  · refine (hsHif_of_up hl hc hm).trans (congrArg _ (congrArg _ ?_))
    exact (if_pos he).trans (if_pos hv)
  · refine (hsHif_of_up hl hc hm).trans (congrArg _ (congrArg _ ?_))
    exact (if_pos he).trans ((if_neg (by simp [hv])).trans (if_pos hb))
  · obtain ⟨h1, h2, h3⟩ := fetch_spec (ws := ws) (x := x) hl hw hm
    exact ⟨h1, h2, fun hr => h3 hr _ rfl⟩

end Sys2Proof.Machine
end

section
/-!
Contexts are opened, closed, and write their telemetry (R371, R372, R379, R380).
-/
namespace Sys2Proof.Machine

section Descriptors
variable {h : DescHdr} {d : DescSpec} {body : State → DescOut} {s u : State} {st res : Nat} {c : Instr}

/-- `t` is `u` after the completion of a descriptor whose body, begun in `s`, ended in `u`. -/
structure DescEnd (h : DescHdr) (op st res : Nat) (s u t : State) : Prop where
  completes : Completes h op st (resultOf st res) s t
  eq : t = completeOne h op st res u
  keeps : Keeps [.hm, .hif] u t
  getCtx_ne : ∀ {k}, k ≠ h.ctx.val → t.getCtx k = u.getCtx k

/-- The command of a descriptor whose body ends at once. -/
theorem exec_of_done (hx : exec c s = act (runDesc h d body) s) (hr : Runs h d s)
    (hb : body (descBegin h.ctx.val s) = .done st res u) (hu : Between h.ctx.val (descBegin h.ctx.val s) u) :
    ∃ t, exec c s = .next t ∧ DescEnd h d.opcode st res s u t := by
  obtain ⟨he, hc⟩ := runDesc_of_runs hr hb hu
  exact ⟨_, hx.trans (act_eq hr.1 he), hc, rfl, completeOne_keeps .., fun hk => completeOne_getCtx_ne _ _ _ _ _ hk⟩

/-- The command of a descriptor that its body refuses. -/
theorem exec_of_fail (hx : exec c s = act (runDesc h d body) s) (hr : Runs h d s)
    (hb : body (descBegin h.ctx.val s) = .fail st (descBegin h.ctx.val s)) :
    ∃ t, exec c s = .next t ∧ Completes h d.opcode st 0 s t ∧ Only [.hm, .hif] s t ∧
      ∀ k, k ≠ h.ctx.val → t.getCtx k = s.getCtx k := by
  obtain ⟨t, he, ht⟩ := exec_of_done hx hr hb (.refl ..)
  have hc := ht.completes
  rw [resultOf_of_zero] at hc
  exact ⟨t, he, hc, Keeps.only (.step ht.keeps (by decide) ((descBegin_keeps ..).mono (by decide))), fun k hk =>
    (ht.getCtx_ne hk).trans (descBegin_getCtx_ne _ hk)⟩

/-- The state that a refused descriptor leaves, as most statements ask for it. -/
theorem refused_of_fail (hx : exec c s = act (runDesc h d body) s) (hr : Runs h d s)
    (hb : body (descBegin h.ctx.val s) = .fail st (descBegin h.ctx.val s)) :
    ∃ t, exec c s = .next t ∧ Completes h d.opcode st 0 s t ∧ Only [.hm, .hif] s t := by
  obtain ⟨t, he, hc, ho, -⟩ := exec_of_fail hx hr hb
  exact ⟨t, he, hc, ho⟩

/-- A descriptor of the host alone runs in context 0 (Table 14.4, check 2). -/
theorem Runs.ctx_zero (hr : Runs h d s) (ht : d.tenant = false) : h.ctx.val = 0 := by
  obtain ⟨-, -, -, hc, -⟩ := hr
  unfold descCheck at hc
  by_contra h0
  extract_lets k at hc
  split at hc
  · exact absurd hc (by decide)
  · rw [if_pos (by simp [k, h0, ht])] at hc
    exact absurd hc (by decide)

theorem descBegin_getTx (c k : Nat) (s : State) : (descBegin c s).getTx k = s.getTx k :=
  getTx_of_trs ((descBegin_keeps c s).trs_eq rfl) k

end Descriptors

section Open
variable {s : State} {h : DescHdr} {o : CtxOpenOp}

/-- R371: the context that CTX_OPEN opens keeps only its counts and the time of its last message. -/
def ctxFields (o : CtxOpenOp) (y : Ctx) : Ctx :=
  { ({} : Ctx) with
    st := 1, sqLog := o.sqLog, cqLog := o.cqLog, irqEn := o.irqEn, schedW := o.schedW, winLog := o.winLog,
    winBase := o.winBase, sqBase := o.sqBase, cqBase := o.cqBase, irqAddr := o.irqAddr, irqData := o.irqData,
    done := y.done, evtLost := y.evtLost, last := y.last, irqLast := y.irqLast }

def ctxOpened (o : CtxOpenOp) (b : State) : State :=
  emitClerk 0x9011 o.ctx (o.sqLog + o.cqLog * 16) o.schedW 0
    ((b.updCtx o.ctx (ctxFields o)).updTx o.ctx fun t => { ({} : Tenant) with epoch := t.epoch, flt := t.flt })

theorem bodyCtxOpen_opens {b : State} (ha : ctxOpenAddr o = true) (hg : ctxOpenRange o = true) (h0 : (b.getCtx o.ctx).st = 0) :
    bodyCtxOpen o b = .done 0 0 (ctxOpened o b) := by
  rw [bodyCtxOpen, if_neg (by simp [ha]), if_neg (by simp [hg]), if_neg (not_not.mpr h0)]
  rfl

theorem ctxOpened_keeps (b : State) : Keeps [.hm, .hif, .ldg, .trs] b (ctxOpened o b) :=
  .step (emitClerk_keeps ..) (by decide) (.step (State.updTx_keeps ..) (by decide) ((State.updCtx_keeps ..).mono (by decide)))

theorem ctxOpened_between {c : Nat} {b : State} (hc : c ≠ o.ctx) : Between c b (ctxOpened o b) := by
  have h1 : Between c b (b.updCtx o.ctx (ctxFields o)) :=
    ⟨⟨[], by simp⟩, fun hn => by rwa [NoClose, State.getCtx_updCtx_ne _ _ _ hc]⟩
  exact (h1.trans ((State.updTx_keeps ..).between rfl rfl)).trans (emit_between ..)

theorem ctxOpened_getCtx {b : State} {k : Nat} (hk : k ≠ 0) : (ctxOpened o b).getCtx k = (b.updCtx o.ctx (ctxFields o)).getCtx k :=
  emit_getCtx_tenant hk untold_opened _

theorem ctxOpened_getTx (b : State) : (ctxOpened o b).getTx o.ctx =
    { ({} : Tenant) with epoch := (b.getTx o.ctx).epoch, flt := (b.getTx o.ctx).flt } :=
  (emit_getTx ..).trans (State.getTx_updTx ..)

theorem ctxOpened_getTx_ne {b : State} {k : Nat} (hk : k ≠ o.ctx) : (ctxOpened o b).getTx k = b.getTx k :=
  (emit_getTx ..).trans (State.getTx_updTx_ne _ _ _ hk)

theorem ctxOpenRange_ne (hg : ctxOpenRange o = true) : o.ctx ≠ 0 := by
  simp only [ctxOpenRange, Bool.and_eq_true, decide_eq_true_eq] at hg
  omega

end Open

section Close
variable {c : Nat}

/-- The context and the tenant are cleared, and their hints are gone, before the record. -/
def ctxGone (c : Nat) (s : State) : State :=
  dropHints (fun e => e.ctx = c)
    ((s.updCtx c fun y => { ({} : Ctx) with done := y.done, evtLost := y.evtLost, last := y.last, irqLast := y.irqLast }).updTx c
      fun y => { y with floor := 0, cores := 0, place := none, breach := 0 })

theorem ctxShut_tenant (hc : c ≠ 0) (s : State) :
    ctxShut c s = emitClerk 0x9012 c (s.getCtx c).left 0 0 (ctxGone c s) := by
  rw [ctxShut, if_neg hc]
  rfl

theorem ctxGone_keeps (s : State) : Keeps [.hif, .trs, .fc] s (ctxGone c s) :=
  .step (dropHints_keeps ..) (by decide) (.step (State.updTx_keeps ..) (by decide) ((State.updCtx_keeps ..).mono (by decide)))

theorem ctxGone_getCtx (s : State) : ((ctxGone c s).getCtx c).st = 0 :=
  congrArg Ctx.st (State.getCtx_updCtx (s := s) (k := c) _)

theorem ctxGone_getCtx_ne {k : Nat} (hk : k ≠ c) (s : State) : (ctxGone c s).getCtx k = s.getCtx k :=
  State.getCtx_updCtx_ne s _ _ hk

theorem ctxGone_getTx (s : State) : (ctxGone c s).getTx c = { s.getTx c with floor := 0, cores := 0, place := none, breach := 0 } :=
  State.getTx_updTx ..

theorem ctxGone_getTx_ne {k : Nat} (hk : k ≠ c) (s : State) : (ctxGone c s).getTx k = s.getTx k :=
  State.getTx_updTx_ne _ _ _ hk

/-- A queue without the entries that are dropped shows none of them. -/
theorem dropHints_hint {p : HintEnt → Bool} {s : State} {l e : Nat} {x : HintEnt} (hx : (dropHints p s).hint l e = some x) :
    p x = false := by
  have hm := Tbl.get_mem (d := none) (dropHints p s).fc.q (32 * l + e)
  rw [show Tbl.get none (dropHints p s).fc.q (32 * l + e) = some x from hx] at hm
  have hm := (List.mem_filter.mp (hm.resolve_left nofun)).2
  simpa using hm

end Close

section Settle
variable {s : State} {h : DescHdr}

theorem ctxOpen_effect {o : CtxOpenOp} (hr : Runs h descCtxOpen s) :
    (ctxOpenAddr o = false → ∃ t, exec (.ctxOpen h o) s = .next t ∧ Completes h 0x10 0x9007 0 s t ∧ Only [.hm, .hif] s t) ∧
    (ctxOpenAddr o = true → ctxOpenRange o = false → ∃ t, exec (.ctxOpen h o) s = .next t ∧
      Completes h 0x10 0x9009 0 s t ∧ Only [.hm, .hif] s t) ∧
    (ctxOpenAddr o = true → ctxOpenRange o = true → (s.getCtx o.ctx).st ≠ 0 → ∃ t, exec (.ctxOpen h o) s = .next t ∧
      Completes h 0x10 0x9008 0 s t ∧ t.getCtx o.ctx = s.getCtx o.ctx ∧ Only [.hm, .hif] s t) ∧
    (ctxOpenAddr o = true → ctxOpenRange o = true → (s.getCtx o.ctx).st = 0 → ∃ t, exec (.ctxOpen h o) s = .next t ∧
      Completes h 0x10 0 0 s t ∧ t.getCtx o.ctx = ctxFields o (s.getCtx o.ctx) ∧
      t.getTx o.ctx = { ({} : Tenant) with epoch := (s.getTx o.ctx).epoch, flt := (s.getTx o.ctx).flt } ∧
      (∀ k, k ≠ o.ctx → k ≠ 0 → t.getCtx k = s.getCtx k) ∧
      (∀ k, k ≠ o.ctx → t.getTx k = s.getTx k) ∧ Only [.hm, .hif, .ldg, .trs] s t) := by
  have hc0 : h.ctx.val = 0 := hr.ctx_zero rfl
  have hx : exec (.ctxOpen h o) s = act (runDesc h descCtxOpen (bodyCtxOpen o)) s := rfl
  have hb : ∀ {k}, k ≠ 0 → (descBegin h.ctx.val s).getCtx k = s.getCtx k := fun hk => descBegin_getCtx_ne _ (by omega)
  refine ⟨fun ha => refused_of_fail hx hr (if_pos (by simp [ha])), fun ha hg => refused_of_fail hx hr ?_, fun ha hg hst => ?_,
    fun ha hg hst => ?_⟩
  · rw [bodyCtxOpen, if_neg (by simp [ha]), if_pos (by simp [hg])]
  · have ho := ctxOpenRange_ne hg
    obtain ⟨t, he, hc, hk, hx⟩ := exec_of_fail (st := 0x9008) hx hr
      (by rw [bodyCtxOpen, if_neg (by simp [ha]), if_neg (by simp [hg]), if_pos (by rwa [hb ho])])
    exact ⟨t, he, hc, hx _ (by omega), hk⟩
  · have ho := ctxOpenRange_ne hg
    have hu := bodyCtxOpen_opens ha hg ((congrArg Ctx.st (hb ho)).trans hst)
    obtain ⟨t, he, ht⟩ := exec_of_done hx hr hu (ctxOpened_between (by omega))
    refine ⟨t, he, ht.completes, ?_, ?_, fun k hk hk0 => ?_, fun k hk' => ?_, Keeps.only (.step ht.keeps (by decide)
      (.step (ctxOpened_keeps _) (by decide) ((descBegin_keeps ..).mono (by decide))))⟩
    · rw [ht.getCtx_ne (by omega), ctxOpened_getCtx ho, State.getCtx_updCtx, hb ho]
    · rw [getTx_of_trs (ht.keeps.trs_eq rfl), ctxOpened_getTx, descBegin_getTx]
    · rw [ht.getCtx_ne (by omega), ctxOpened_getCtx hk0, State.getCtx_updCtx_ne _ _ _ hk, hb hk0]
    · rw [getTx_of_trs (ht.keeps.trs_eq rfl), ctxOpened_getTx_ne hk', descBegin_getTx]

theorem ctxClose_effect {c : Nat} (hr : Runs h descCtxClose s) :
    (c = 0 ∨ 512 ≤ c → ∃ t, exec (.ctxClose h c) s = .next t ∧ Completes h 0x11 0x9009 0 s t ∧ Only [.hm, .hif] s t) ∧
    (0 < c → c < 512 → (s.getCtx c).st = 0 → ∃ t, exec (.ctxClose h c) s = .next t ∧ Completes h 0x11 0x9008 0 s t ∧
      Only [.hm, .hif] s t) ∧
    (0 < c → c < 512 → (s.getCtx c).st ≠ 0 → (s.getCtx c).busy = true → ∃ t, exec (.ctxClose h c) s = .next t ∧
      (t.getCtx c).closing = some h ∧ (t.getCtx 0).busy = true ∧ Only [.hif] s t) ∧
    (0 < c → c < 512 → (s.getCtx c).st ≠ 0 → (s.getCtx c).busy = false → ∃ t, exec (.ctxClose h c) s = .next t ∧
      Completes h 0x11 0 (s.getCtx c).left s t ∧ (t.getCtx c).st = 0 ∧ (t.getTx c).floor = 0 ∧ (t.getTx c).cores = 0 ∧
      (t.getTx c).place = none ∧ (∀ l e x, t.hint l e = some x → x.ctx ≠ c) ∧
      (∀ k, k ≠ c → k ≠ 0 → t.getCtx k = s.getCtx k) ∧ (∀ k, k ≠ c → t.getTx k = s.getTx k) ∧
      (QRoom 0x21 s → Logs 0x21 0x9012 c (s.getCtx c).left 0 0 s t) ∧ Only [.hm, .hif, .ldg, .fc, .trs] s t) := by
  have hc0 : h.ctx.val = 0 := hr.ctx_zero rfl
  have hx : exec (.ctxClose h c) s = act (runDesc h descCtxClose (bodyCtxClose h c)) s := rfl
  let b := descBegin h.ctx.val s
  have hkb : Keeps [.hif] s b := descBegin_keeps ..
  have hb : ∀ {k}, k ≠ 0 → b.getCtx k = s.getCtx k := fun hk => descBegin_getCtx_ne _ (by omega)
  refine ⟨fun hc => refused_of_fail hx hr (if_pos hc), fun h1 h2 hst => refused_of_fail hx hr ?_, fun h1 h2 hst hbusy => ?_,
    fun h1 h2 hst hbusy => ?_⟩
  · rw [bodyCtxClose, if_neg (by omega), if_pos (by rwa [hb (by omega)])]
  · have hw : bodyCtxClose h c b = .wait (b.updCtx c fun y => { y with closing := some h }) := by
      rw [bodyCtxClose, if_neg (by omega), if_neg (by rwa [hb (by omega)]), if_pos (by rw [hb (by omega), hbusy])]
    refine ⟨_, hx.trans (act_eq hr.1 (runDesc_wait hr.2.1 hr.2.2.1 hr.2.2.2.1 hw)), ?_, ?_,
      Keeps.only (.step (State.updCtx_keeps ..) (by decide) (.step (State.updCtx_keeps ..) (by decide) hkb))⟩
    · rw [State.getCtx_updCtx_ne _ _ _ (by omega), State.getCtx_updCtx]
    · rw [hc0, State.getCtx_updCtx]
  · have hne : c ≠ 0 := by omega
    have hd : bodyCtxClose h c b = .done 0 (s.getCtx c).left (ctxShut c b) := by
      rw [bodyCtxClose, if_neg (by omega), if_neg (by rwa [hb hne]), if_neg (by rw [hb hne, hbusy]; decide), hb hne]
    rw [ctxShut_tenant hne, hb hne] at hd
    let g := ctxGone c b
    let u := emitClerk 0x9012 c (s.getCtx c).left 0 0 g
    have hg : Keeps [.hif, .trs, .fc] b g := ctxGone_keeps b
    have hbet : Between h.ctx.val b g := ⟨.of_eq (hg.hm_eq rfl), fun hn => by rwa [NoClose, ctxGone_getCtx_ne (by omega)]⟩
    obtain ⟨t, he, ht⟩ := exec_of_done hx hr hd (hbet.trans (emit_between ..))
    have hku : Keeps [.hm, .hif, .ldg] g u := emitClerk_keeps ..
    have hx : ∀ k, t.getTx k = g.getTx k := fun k => (getTx_of_trs (ht.keeps.trs_eq rfl) k).trans (emit_getTx ..)
    have hy : ∀ {k}, k ≠ 0 → t.getCtx k = g.getCtx k := fun hk0 =>
      (ht.getCtx_ne (by omega)).trans (emit_getCtx_tenant hk0 untold_closed g)
    refine ⟨t, he, ht.completes, ?_, ?_, ?_, ?_, fun l e x hl => ?_, fun k hk hk0 => ?_, fun k hk => ?_, fun hroom => ?_,
      Keeps.only (.step ht.keeps (by decide) (.step hku (by decide) (.step hg (by decide) (hkb.mono (by decide)))))⟩
    · rw [hy hne]; exact ctxGone_getCtx b
    · exact (congrArg Tenant.floor ((hx c).trans (ctxGone_getTx b)) :)
    · exact (congrArg Tenant.cores ((hx c).trans (ctxGone_getTx b)) :)
    · exact (congrArg Tenant.place ((hx c).trans (ctxGone_getTx b)) :)
    · have hfc : t.fc = g.fc := (ht.keeps.fc_eq rfl).trans (hku.fc_eq rfl)
      rw [State.hint, hfc] at hl
      simpa using dropHints_hint (p := fun e => e.ctx = c) hl
    · exact ((hy hk0).trans (ctxGone_getCtx_ne hk b)).trans (hb hk0)
    · exact ((hx k).trans (ctxGone_getTx_ne hk b)).trans (descBegin_getTx ..)
    · have hgs : Keeps [.hif, .trs, .fc] s g := .trans (hkb.mono (by decide)) hg
      exact (emit_logs_after hgs (by decide) (by decide) (by decide) (by decide) hroom).before ht.keeps.only (by decide)

theorem ctxTelem_effect {c a : Nat} (hr : Runs h (descCtxTelem c a) s) :
    (c = 0 ∨ 512 ≤ c → ∃ t, exec (.ctxTelem h c a) s = .next t ∧ Completes h 0x15 0x9009 0 s t ∧ Only [.hm, .hif] s t) ∧
    (0 < c → c < 512 → ∃ t, exec (.ctxTelem h c a) s = .next t ∧ Completes h 0x15 0 0 s t ∧
      Posts (.words a (ctxTelem (descBegin h.ctx.val s) c)) s t ∧ Only [.hm, .hif] s t) := by
  have hx : exec (.ctxTelem h c a) s = act (runDesc h (descCtxTelem c a) (bodyCtxTelem c a)) s := rfl
  refine ⟨fun hc => refused_of_fail hx hr (if_pos hc), fun h1 h2 => ?_⟩
  let b := descBegin h.ctx.val s
  let w := HmWrite.words a (ctxTelem b c)
  have hd : bodyCtxTelem c a b = .done 0 0 (hmWrite w b) := if_neg (by omega)
  obtain ⟨t, he, ht⟩ := exec_of_done hx hr hd (Emits.hmWrite w b).between
  obtain ⟨adr, e, ws, hm, -⟩ := completeOne_hm h 0x15 0 0 (hmWrite w b)
  rw [(Emits.hmWrite w b).hm, HmPort.post_post, (descBegin_keeps ..).hm_eq rfl] at hm
  exact ⟨t, he, ht.completes, Posts.of_post (a := []) ((congrArg State.hm ht.eq).trans hm), Keeps.only (.step ht.keeps (by decide)
    (.step (hmWrite_keeps ..) (by decide) ((descBegin_keeps ..).mono (by decide))))⟩

end Settle

/-- Settles O42: what CTX_OPEN, CTX_CLOSE and CTX_TELEM refuse and what they do. -/
theorem contextsOpenAndClose : Obligations.ContextsOpenAndClose := by
  refine fun s h o c a => ⟨fun hr => ?_, ctxClose_effect, ctxTelem_effect⟩
  obtain ⟨h1, h2, h3, h4⟩ := ctxOpen_effect (o := o) hr
  refine ⟨h1, h2, h3, fun ha hg hst => ?_⟩
  obtain ⟨t, he, hc, hx, hy, hk, hk', ho⟩ := h4 ha hg hst
  refine ⟨t, he, hc, ?_⟩
  rw [hx, hy]
  exact ⟨rfl, rfl, rfl, rfl, rfl, rfl, rfl, rfl, rfl, rfl, rfl, rfl, rfl, rfl, rfl, rfl, hk, hk', ho⟩

end Sys2Proof.Machine
end

section
/-!
Tenants are given parameters, placements and floors by descriptor (R296, R297, R300).
-/
namespace Sys2Proof.Machine

section Floors
variable {k : Nat}

theorem forList_between {α : Type} (l : List α) {f : α → State → State} (hf : ∀ a u, Between k u (f a u)) (s : State) :
    Between k s (forList l f s) :=
  forList_ind (P := Between k s) (fun a _ u hu => hu.trans (hf a u)) (.refl k s)

theorem updTx_between (t : Nat) (f : Tenant → Tenant) (s : State) : Between k s (s.updTx t f) :=
  (State.updTx_keeps ..).between rfl rfl

theorem floorStep_between (back : Bool) (s : State) (t : Nat) (u : State) : Between k u (floorStep back s t u) := by
  unfold floorStep
  exact .ite (.refl ..) (updTx_between ..)

theorem floorRecord_between (s : State) (t : Nat) (u : State) : Between k u (floorRecord s t u) :=
  .ite (emit_between ..) (.ite (emit_between ..) (.refl ..))

theorem floorsUpdate_between (back : Bool) (s : State) : Between k s (floorsUpdate back s) := by
  rw [floorsUpdate_eq]
  exact ((forList_between _ (fun t u => updTx_between t _ u) s).trans (forList_between _ (fun t u => floorStep_between back s t u) _)).trans
    (forList_between _ (fun t u => floorRecord_between s t u) _)

end Floors

section Settle
variable {s : State} {h : DescHdr} {c : Nat}

theorem ctxParam_effect {w k g : Nat} (hr : Runs h descCtxParam s) (hc : c < 512) :
    (3 ≤ k ∨ (k = 2 ∧ g ≠ 0) → ∃ t, exec (.ctxParam h c w k g) s = .next t ∧ Completes h 0x12 0x6005 0 s t ∧
      Only [.hm, .hif] s t) ∧
    (¬ (3 ≤ k ∨ (k = 2 ∧ g ≠ 0)) → ((s.getTx c).grant < g ∨ (k = 0 ∧ (s.getTx c).cls ≠ 0)) →
      admits (State.updTx c (Tenant.params w k g)) (descBegin h.ctx.val s) = false →
      ∃ t, exec (.ctxParam h c w k g) s = .next t ∧ Completes h 0x12 0x6003 0 s t ∧ Only [.hm, .hif] s t) ∧
    (¬ (3 ≤ k ∨ (k = 2 ∧ g ≠ 0)) → ((s.getTx c).grant < g ∨ (k = 0 ∧ (s.getTx c).cls ≠ 0) →
      admits (State.updTx c (Tenant.params w k g)) (descBegin h.ctx.val s) = true) →
      ∃ t, exec (.ctxParam h c w k g) s = .next t ∧ Completes h 0x12 0 0 s t ∧
        (t.getTx c).terms = (w, k, g, min (s.getTx c).floor g) ∧ (∀ j, j ≠ c → (t.getTx j).terms = (s.getTx j).terms) ∧
        Only [.hm, .hif, .ldg, .trs] s t) := by
  have hx : exec (.ctxParam h c w k g) s = act (runDesc h descCtxParam (bodyCtxParam c w k g)) s := rfl
  let b := descBegin h.ctx.val s
  have hbody : ∀ {st u}, txParam c w k g b = (st, u) → bodyCtxParam c w k g b = .done st 0 u := fun he => by
    rw [bodyCtxParam, if_neg (by omega), he]
  have hb : ∀ j, b.getTx j = s.getTx j := fun j => descBegin_getTx ..
  refine ⟨fun hcls => refused_of_fail hx hr (hbody (txParam_of_class hcls)), fun hcls hraise hno =>
    refused_of_fail hx hr (hbody (txParam_of_refused hcls (by rwa [hb]) hno)), fun hcls hok => ?_⟩
  have hd := hbody (txParam_of_admitted (s := b) (t := c) (weight := w) hcls (by rwa [hb]))
  obtain ⟨t, he, ht⟩ := exec_of_done hx hr hd ((updTx_between ..).trans (floorsUpdate_between ..))
  have hterms : ∀ j, (t.getTx j).terms = if j = c then (w, k, g, min (s.getTx c).floor g) else (s.getTx j).terms := fun j => by
    rw [getTx_of_trs (ht.keeps.trs_eq rfl), params_terms, hb, hb]
  refine ⟨t, he, ht.completes, (hterms c).trans (if_pos rfl), fun j hj => (hterms j).trans (if_neg hj), Keeps.only (.step ht.keeps
    (by decide) (.step (floorsUpdate_keeps ..) (by decide) (.step (State.updTx_keeps ..) (by decide)
    ((descBegin_keeps ..).mono (by decide)))))⟩

theorem ctxPlace_effect {m : Nat} (hr : Runs h descCtxPlace s) :
    (c = 0 ∨ 512 ≤ c ∨ s.coreAbsent m = true → ∃ t, exec (.ctxPlace h c m) s = .next t ∧ Completes h 0x13 0x9009 0 s t ∧
      Only [.hm, .hif] s t) ∧
    (0 < c → c < 512 → s.coreAbsent m = false →
      (s.coreTaken c m = true → ∃ t, exec (.ctxPlace h c m) s = .next t ∧ Completes h 0x13 0x900A 0 s t ∧ Only [.hm, .hif] s t) ∧
      (s.coreTaken c m = false →
        let p := State.updTx c fun y => { y with cores := m, place := none }
        (admits p (descBegin h.ctx.val s) = false → ∃ t, exec (.ctxPlace h c m) s = .next t ∧ Completes h 0x13 0x6003 0 s t ∧
          Only [.hm, .hif] s t) ∧
        (admits p (descBegin h.ctx.val s) = true → s.maskClus m = s.maskClus (s.getTx c).cores →
          ∃ t, exec (.ctxPlace h c m) s = .next t ∧ Completes h 0x13 0 (s.getTx c).epoch s t ∧
            t.getTx c = { s.getTx c with cores := m, place := none } ∧
            (∀ j, j ≠ c → t.getTx j = s.getTx j) ∧ Only [.hm, .hif, .trs] s t) ∧
        (admits p (descBegin h.ctx.val s) = true → s.maskClus m ≠ s.maskClus (s.getTx c).cores →
          ∃ t, exec (.ctxPlace h c m) s = .next t ∧ Completes h 0x13 0 (((s.getTx c).epoch + 1) % 65536) s t ∧
            t.getTx c = { s.getTx c with place := some m } ∧
            (∀ j, j ≠ c → t.getTx j = s.getTx j) ∧ Only [.hm, .hif, .trs] s t))) := by
  have hx : exec (.ctxPlace h c m) s = act (runDesc h descCtxPlace (bodyCtxPlace c m)) s := rfl
  let b := descBegin h.ctx.val s
  have hb : ∀ j, b.getTx j = s.getTx j := fun j => descBegin_getTx ..
  have habs : b.coreAbsent m = s.coreAbsent m := rfl
  have htak : b.coreTaken c m = s.coreTaken c m := rfl
  have hclu : ∀ m, b.maskClus m = s.maskClus m := fun m => rfl
  have hset : ∀ {f : Tenant → Tenant} {res : Nat}, bodyCtxPlace c m b = .done 0 res (b.updTx c f) →
      ∃ t, exec (.ctxPlace h c m) s = .next t ∧ Completes h 0x13 0 res s t ∧ t.getTx c = f (s.getTx c) ∧
        (∀ j, j ≠ c → t.getTx j = s.getTx j) ∧ Only [.hm, .hif, .trs] s t := fun {f res} hd => by
    obtain ⟨t, he, ht⟩ := exec_of_done hx hr hd (updTx_between ..)
    have hk := getTx_of_trs (ht.keeps.trs_eq rfl)
    exact ⟨t, he, ht.completes, by rw [hk, State.getTx_updTx, hb], fun j hj => by rw [hk, State.getTx_updTx_ne _ _ _ hj, hb],
      Keeps.only (.step ht.keeps (by decide) (.step (State.updTx_keeps ..) (by decide) ((descBegin_keeps ..).mono (by decide))))⟩
  refine ⟨fun hc => refused_of_fail hx hr (if_pos hc), fun h1 h2 ha => ?_⟩
  have h9 : ¬ (c = 0 ∨ 512 ≤ c ∨ b.coreAbsent m = true) := by simp [habs, ha]; omega
  refine ⟨fun htk => refused_of_fail hx hr ?_, fun htk => ?_⟩
  · rw [bodyCtxPlace, if_neg h9, if_pos (htak.trans htk)]
  · intro p
    have h10 : ¬ b.coreTaken c m = true := by simp [htak, htk]
    refine ⟨fun hno => refused_of_fail hx hr ?_, fun hok hsame => hset (f := fun y => { y with cores := m, place := none }) ?_, fun hok hdiff =>
      hset (f := fun y => { y with place := some m }) ?_⟩
    · rw [bodyCtxPlace, if_neg h9, if_neg h10]
      exact if_pos (congrArg not hno)
    · rw [bodyCtxPlace, if_neg h9, if_neg h10, ← hb c]
      exact (if_neg (by rw [hok]; decide)).trans (if_pos (by rw [hclu, hclu, hb, hsame]))
    · rw [bodyCtxPlace, if_neg h9, if_neg h10, ← hb c]
      exact (if_neg (by rw [hok]; decide)).trans (if_neg (by rwa [hclu, hclu, hb]))

theorem floorSet_effect {f : Nat} (hr : Runs h (descFloorSet c) s) :
    (c = 0 ∨ 512 ≤ c → ∃ t, exec (.floorSet h c f) s = .next t ∧ Completes h 0x14 0x9009 0 s t ∧ Only [.hm, .hif] s t) ∧
    (0 < c → c < 512 →
      ((s.getTx c).grant < f → ∃ t, exec (.floorSet h c f) s = .next t ∧ Completes h 0x14 0x6004 0 s t ∧ Only [.hm, .hif] s t) ∧
      (f ≤ (s.getTx c).grant → ∃ t, exec (.floorSet h c f) s = .next t ∧ (t.getTx c).floor = f ∧
        (t.getTx c).grant = (s.getTx c).grant ∧ Completes h 0x14 0 (b2n (t.getTx c).suspended) s t ∧
        (∀ j, j ≠ c → (t.getTx j).floor = (s.getTx j).floor) ∧ Only [.hm, .hif, .ldg, .trs] s t)) := by
  have hx : exec (.floorSet h c f) s = act (runDesc h (descFloorSet c) (bodyFloorSet c f)) s := rfl
  let b := descBegin h.ctx.val s
  have hb : ∀ j, b.getTx j = s.getTx j := fun j => descBegin_getTx ..
  refine ⟨fun hc => refused_of_fail hx hr (if_pos hc), fun h1 h2 => ⟨fun hg => refused_of_fail hx hr ?_, fun hg => ?_⟩⟩
  · rw [bodyFloorSet, if_neg (by omega), if_pos (by rwa [hb])]
  · let u := b.updTx c fun x => { x with floor := f }
    have hd : bodyFloorSet c f b = .done 0 (b2n ((floorsUpdate false u).getTx c).suspended) (floorsUpdate false u) := by
      rw [bodyFloorSet, if_neg (by omega), if_neg (by rw [hb]; omega)]
    obtain ⟨t, he, ht⟩ := exec_of_done hx hr hd ((updTx_between ..).trans (floorsUpdate_between ..))
    have hk := getTx_of_trs (ht.keeps.trs_eq rfl)
    have hterms : ∀ j, (t.getTx j).terms = (u.getTx j).terms := fun j => by rw [hk, (floorsUpdate_termsKept false u).terms]
    have hself : (t.getTx c).terms = ((s.getTx c).weight, (s.getTx c).cls, (s.getTx c).grant, f) := by
      rw [hterms, State.getTx_updTx, hb]; rfl
    refine ⟨t, he, (congrArg (fun x => x.2.2.2) hself :), (congrArg (fun x => x.2.2.1) hself :), ?_, fun j hj => ?_, Keeps.only
      (.step ht.keeps (by decide) (.step (floorsUpdate_keeps ..) (by decide) (.step (State.updTx_keeps ..) (by decide)
      ((descBegin_keeps ..).mono (by decide)))))⟩
    · rw [hk]; exact ht.completes
    · have hj' := hterms j
      rw [State.getTx_updTx_ne _ _ _ hj, hb] at hj'
      exact (congrArg (fun x => x.2.2.2) hj' :)

end Settle

/-- Settles O43: what CTX_PARAM, CTX_PLACE and FLOOR_SET refuse, and what they leave of each tenant's terms. -/
theorem tenantsParameterised : Obligations.TenantsParameterised := by
  intro s h c w k g m f b x
  refine ⟨fun hr hc => refused_of_fail (body := bodyCtxParam c w k g) rfl hr (if_pos hc), fun hr hc => ?_, ctxPlace_effect, fun hr =>
    (floorSet_effect hr).1, fun hr => (floorSet_effect hr).2⟩
  intro p
  obtain ⟨h1, h2, h3⟩ := ctxParam_effect (w := w) (k := k) (g := g) hr hc
  refine ⟨h1, fun hk hg hraise hno => h2 (by omega) hraise hno, fun hk hg hok => ?_⟩
  obtain ⟨t, he, hcmp, hself, hothers, ho⟩ := h3 (by omega) (fun hraise => by
    rcases hok with ⟨h4, h5⟩ | hok
    · rcases hraise with h6 | ⟨h6, h7⟩
      · exact absurd h4 (Nat.not_le.mpr h6)
      · exact absurd (h5 h6) h7
    · exact hok)
  exact ⟨t, he, hcmp, (congrArg (fun y => y.1) hself :), (congrArg (fun y => y.2.1) hself :), (congrArg (fun y => y.2.2.1) hself :),
    (congrArg (fun y => y.2.2.2) hself :), fun j hj => ⟨(congrArg (fun y => y.2.2.1) (hothers j hj) :),
    (congrArg (fun y => y.2.2.2) (hothers j hj) :)⟩, ho⟩

end Sys2Proof.Machine
end

section
/-!
What stops and starts clusters and rails writes no more at the manager port than its records, and closes no context (R24, R179–R192).
-/
namespace Sys2Proof.Machine

section Between
variable {c : Nat} {r s t : State} {ps : List Area}

theorem Between.keeps (h : Between c r s) (g : Keeps ps s t) (hm : ps.contains .hm = false) (hif : ps.contains .hif = false) :
    Between c r t := h.trans (g.between hm hif)

theorem Between.emit (h : Between c r s) (src code p0 p1 p2 p3 : Nat) : Between c r (emit src code p0 p1 p2 p3 s) :=
  h.trans (emit_between ..)

theorem Between.forList {α : Type} {l : List α} {f : α → State → State} (h : Between c r s) (hf : ∀ a u, Between c u (f a u)) :
    Between c r (forList l f s) := h.trans (forList_between l hf s)

variable (c s)

theorem cluUnhold_between (k : Nat) : Between c s (cluUnhold k s) := by
  unfold cluUnhold
  extract_lets x
  exact .ite ((((Between.refl c s).keeps (State.updClu_keeps ..) rfl rfl).keeps (presetLoops_keeps ..) rfl rfl).emit ..) (.refl ..)

theorem cluRestart_between (k : Nat) : Between c s (cluRestart k s) := by
  unfold cluRestart
  extract_lets x cause
  exact .ite (.ite (((Between.refl c s).keeps (State.updClu_keeps ..) rfl rfl).keeps (presetLoops_keeps ..) rfl rfl)
    (((Between.refl c s).keeps (State.updClu_keeps ..) rfl rfl).emit ..)) (.refl ..)

theorem restartAll_between : Between c s (restartAll s) :=
  ((Between.refl c s).forList fun k u => cluRestart_between c u k).keeps (domStartAll_keeps _) rfl rfl

theorem reclaimCore_between (cause k j : Nat) : Between c s (reclaimCore cause k j s) := by
  unfold reclaimCore
  extract_lets x
  split
  · exact .refl ..
  · rename_i s1 w s2 _ _ _
    have h1 : Between c s s1 := (State.updCore_keeps ..).between rfl rfl
    have h2 : Between c s s2 := .ite (h1.keeps (State.onTrs_keeps ..) rfl rfl) h1
    exact .ite (h2.emit ..) h2

theorem reclaimClu_between (cause k : Nat) : Between c s (reclaimClu cause k s) :=
  (Between.refl c s).forList fun j u => reclaimCore_between c u cause k j

theorem cluStop_between (k : Nat) : Between c s (cluStop k s) := by
  unfold cluStop
  extract_lets u
  have h1 : Between c s u := .ite (.refl ..) ((State.updFwCore_keeps ..).between rfl rfl)
  exact (h1.keeps (State.updClu_keeps ..) rfl rfl).trans (reclaimClu_between ..)

theorem stopClustersOf_between (j : Nat) : Between c s (stopClustersOf j s) :=
  (Between.refl c s).forList fun k u =>
    (((State.updClu_keeps ..).between rfl rfl).trans (cluStop_between c _ k)).keeps (State.updDom_keeps ..) rfl rfl

theorem brakeStop_between (j : Nat) : Between c s (brakeStop j s) := by
  unfold brakeStop
  extract_lets x
  split
  · exact .refl ..
  · rename_i s1 _ _ _
    have h1 : Between c s s1 := (State.updReg_keeps ..).between rfl rfl
    exact .ite (h1.emit ..) h1

theorem railFault_between (cause j : Nat) : Between c s (railFault cause j s) := by
  unfold railFault
  exact .ite (.refl ..) ((((((brakeStop_between c s j).keeps (railPenLow_keeps ..) rfl rfl).keeps (railPhasesTo_keeps ..) rfl rfl).trans
    (stopClustersOf_between c _ j)).keeps (State.updProt_keeps ..) rfl rfl).keeps (State.updReg_keeps ..) rfl rfl)

theorem startDone_between (q : StartSeq) : Between c s (startDone q s) := by
  unfold startDone
  extract_lets on
  exact (((((Between.refl c s).forList fun j u => (State.updProt_keeps ..).between rfl rfl).emit ..).keeps (railsBack_keeps ..) rfl
    rfl).trans (restartAll_between c _))

theorem finishStart_between : Between c s (finishStart s) := by
  unfold finishStart
  extract_lets ended
  exact ((State.onRail_keeps ..).between rfl rfl).forList fun q u => startDone_between c u q

theorem latchAll_between : Between c s (latchAll s) :=
  (Between.refl c s).forList fun _ _ => (State.updProt_keeps ..).between rfl rfl

theorem finishStops_between : Between c s (finishStops s) := by
  unfold finishStops
  extract_lets ended s1
  have h1 : Between c s s1 := ((State.onRail_keeps ..).between rfl rfl).forList fun q u => emit_between ..
  exact .ite (h1.trans (latchAll_between c s1)) h1

theorem fastStop_between (l : List Nat) (cause track : Nat) : Between c s (fastStop l cause track s) := by
  unfold fastStop
  extract_lets act lv s1 q s2
  have h1 : Between c s s1 := (Between.refl c s).forList fun j u => stopClustersOf_between c u j
  have h2 : Between c s s2 := h1.forList fun j u => railFault_between c u _ j
  exact .ite (.refl ..) (((h2.keeps (State.onRail_keeps ..) rfl rfl).trans (finishStops_between ..)).trans (finishStart_between ..))

theorem stopWithMaster_between (l : List Nat) : Between c s (stopWithMaster l s) :=
  (fastStop_between c s l 6 0).forList fun j u => emit_between ..

theorem rampDown_between (q : StopSeq) (j : Nat) : Between c s (rampDown q j s) :=
  (((State.updProt_keeps ..).between rfl rfl).keeps (State.updReg_keeps ..) rfl rfl).trans (stopWithMaster_between ..)

theorem rampDownLevels_between : Between c s (rampDownLevels s) := by
  refine (Between.refl c s).forList fun q u => ?_
  extract_lets rails waiting lv
  exact .ite (.refl ..) ((Between.refl c u).forList fun j v => rampDown_between c v q j)

theorem refuseStart_between (cause j : Nat) : Between c s (refuseStart cause j s) :=
  (railFault_between ..).trans (stopWithMaster_between ..)

theorem judgeStart_between (q : StartSeq) (j : Nat) : Between c s (judgeStart q j s) := by
  unfold judgeStart
  extract_lets n
  exact .ite (.refl ..) (.ite ((refuseStart_between ..).emit ..) (.ite ((refuseStart_between ..).emit ..) (.refl ..)))

theorem identifyNext_between : Between c s (identifyNext s) := by
  unfold identifyNext
  split
  · extract_lets s1 byLevel
    have h1 : Between c s s1 := (onStart_keeps ..).between rfl rfl
    exact .ite ((h1.forList fun j u => judgeStart_between c u _ j).trans (finishStart_between ..)) (.refl ..)
  · exact .refl ..

theorem setTarget_between (j v : Nat) : Between c s (setTarget j v s) := by
  unfold setTarget
  extract_lets vm s1 t
  have h1 : Between c s s1 := .ite (((State.updMeas_keeps ..).between rfl rfl).emit ..) (.refl ..)
  exact h1.keeps (State.updReg_keeps ..) rfl rfl

theorem retarget_between (j : Nat) : Between c s (retarget j s) :=
  .ite (.refl ..) (.ite (setTarget_between ..) (.refl ..))

theorem prepareRail_between (cold : Bool) (j : Nat) : Between c s (prepareRail cold j s) := by
  unfold prepareRail
  extract_lets v s1
  have h1 : Between c s s1 := (State.updProt_keeps ..).between rfl rfl
  exact .ite (.refl ..) ((h1.keeps (State.updReg_keeps ..) rfl rfl).trans (setTarget_between ..))

theorem cluAuto_between (k : Nat) : Between c s (cluAuto k s) := by
  unfold cluAuto
  extract_lets s1
  have h1 : Between c s s1 := (Between.refl c s).forList fun j u =>
    ((State.updReg_keeps ..).between rfl rfl).trans (retarget_between c _ j)
  exact .ite (.refl ..) (.ite (h1.keeps (rootRequest_keeps ..) rfl rfl) h1)

theorem controlClu_between (k : Nat) : Between c s (controlClu k s) := by
  unfold controlClu
  extract_lets s1 a s2
  have h1 : Between c s s1 := (((State.updClu_keeps ..).between rfl rfl).trans (cluUnhold_between c _ k)).trans (cluRestart_between c _ k)
  have h2 : Between c s s2 := h1.forList fun j u => .ite ((State.updLoop_keeps ..).between rfl rfl) (.refl ..)
  exact h2.trans (cluAuto_between c s2 k)

theorem holdAll_between (cause : Nat) : Between c s (holdAll cause s) := by
  unfold holdAll
  extract_lets l
  exact .ite (.refl ..) (((Between.refl c s).forList fun k u => (State.updClu_keeps ..).between rfl rfl).emit ..)

end Between

end Sys2Proof.Machine
end

section
/-!
CONTROL_START: a cluster leaves HOLD or STOPPED, and its loops take their initial modes (R259).
-/
namespace Sys2Proof.Machine

section Cluster
variable {k c : Nat} {s : State}

/-- A cluster that runs or is held. -/
def Clu.awake (x : Clu) : Prop := x.st = 1 ∨ x.st = 2

theorem cluUnhold_getClu_ne (h : c ≠ k) : (cluUnhold k s).getClu c = s.getClu c := by
  unfold cluUnhold
  extract_lets x
  split
  · rw [emitCp, emit_getClu, presetLoops_getClu, State.getClu_updClu_ne _ _ _ h]
  · rfl

theorem cluUnhold_getClu : (cluUnhold k s).getClu k = if (s.getClu k).st = 2 then { s.getClu k with st := 1 } else s.getClu k := by
  unfold cluUnhold
  extract_lets x
  split
  · rw [emitCp, emit_getClu, presetLoops_getClu, State.getClu_updClu]
  · rfl

theorem cluUnhold_started : ((cluUnhold k s).getClu k).started = (s.getClu k).started := by
  rw [cluUnhold_getClu]
  split <;> rfl

theorem cluUnhold_runs (h : (s.getClu k).awake) : ((cluUnhold k s).getClu k).st = 1 := by
  rw [cluUnhold_getClu]
  rcases h with h | h
  · rw [if_neg (by omega), h]
  · rw [if_pos h]

theorem cluRestart_getClu_ne (h : c ≠ k) : (cluRestart k s).getClu c = s.getClu c := by
  unfold cluRestart
  extract_lets x cause
  split
  · split
    · rw [presetLoops_getClu, State.getClu_updClu_ne _ _ _ h]
    · rw [emitCp, emit_getClu, State.getClu_updClu_ne _ _ _ h]
  · rfl

theorem cluRestart_started : ((cluRestart k s).getClu k).started = (s.getClu k).started := by
  unfold cluRestart
  extract_lets x cause
  split
  · split
    · rw [presetLoops_getClu, State.getClu_updClu]
    · rw [emitCp, emit_getClu, State.getClu_updClu]
  · rfl

theorem cluRestart_of_up (h : (s.getClu k).st ≠ 0) : cluRestart k s = s := if_neg (by simp [h])

/-- A cluster held by a cause does not restart. -/
theorem cluRestart_of_held (h : (s.getClu k).held = true) : cluRestart k s = s := if_neg (by simp [h])

end Cluster

theorem loopCfg_of_cfg {s t : State} (h : t.cfg = s.cfg) (k : Nat) : t.loopCfg k = s.loopCfg k := by
  unfold State.loopCfg
  rw [h]

section Loops
variable {k c j : Nat} {s : State}

theorem getLp_updLp_ne (f : LoopSt → LoopSt) (s : State) {i : Nat} (hc : c ≠ k) (hi : i < 8) (hj : j < 8) :
    (s.updLp k i f).getLp c j = s.getLp c j := getLoop_updLp_ne f s (by omega)

theorem getLp_updLp_loop (f : LoopSt → LoopSt) (s : State) {i : Nat} (hj : j ≠ i) : (s.updLp k i f).getLp k j = s.getLp k j :=
  getLoop_updLp_ne f s (by omega)

theorem presetLoops_getLp_ne (hc : c ≠ k) (hj : j < 8) : (presetLoops k s).getLp c j = s.getLp c j :=
  forList_eq_of_mem (fun u => u.getLp c j) (l := List.range 6) (f := fun i => State.updLp k i fun l => { l with reform := true })
    (fun i hi u => getLp_updLp_ne _ u hc (by have := List.mem_range.mp hi; omega) hj) s

theorem cluUnhold_getLp_ne (hc : c ≠ k) (hj : j < 8) : (cluUnhold k s).getLp c j = s.getLp c j := by
  unfold cluUnhold
  extract_lets x
  split
  · rw [emitCp, getLp_of_loop (emit_loop ..), presetLoops_getLp_ne hc hj]; rfl
  · rfl

theorem cluRestart_getLp_ne (hc : c ≠ k) (hj : j < 8) : (cluRestart k s).getLp c j = s.getLp c j := by
  unfold cluRestart
  extract_lets x cause
  split
  · split
    · rw [presetLoops_getLp_ne hc hj]; rfl
    · rw [emitCp, getLp_of_loop (emit_loop ..)]; rfl
  · rfl

/-- A loop in its initial mode, at the applied level `a`. -/
def initLoop (g : LoopCfg) (a : Nat) (l : LoopSt) : LoopSt :=
  { l with auto := g.initAuto, man := a / 256, firstAuto := false, reform := true, out := a, satSince := none, satFlag := false }

def initLoops (k a : Nat) (s : State) : State :=
  forList (List.range 5) (fun j t => if (t.loopCfg k j).present then t.updLp k j (initLoop (t.loopCfg k j) a) else t) s

/-- The cluster out of HOLD or STOPPED, before its loops take their modes. -/
def cluBegun (k : Nat) (s : State) : State := cluRestart k (cluUnhold k (s.updClu k fun x => { x with started := true, modes := [] }))

theorem controlClu_eq : controlClu k s = cluAuto k (initLoops k ((cluBegun k s).getClu k).a (cluBegun k s)) := rfl

theorem initTurn_getClu (a i : Nat) (u : State) :
    (if (u.loopCfg k i).present then u.updLp k i (initLoop (u.loopCfg k i) a) else u).getClu c = u.getClu c := by
  split <;> rfl

theorem initLoops_getClu (a : Nat) (s : State) : (initLoops k a s).getClu c = s.getClu c :=
  forList_eq (fun u => u.getClu c) _ (fun i u => initTurn_getClu a i u) s

theorem initLoops_getLp_ne (a : Nat) (s : State) (hc : c ≠ k) (hj : j < 8) : (initLoops k a s).getLp c j = s.getLp c j := by
  refine forList_eq_of_mem (fun u => u.getLp c j) (fun i hi u => ?_) s
  have hi := List.mem_range.mp hi
  split
  · exact getLp_updLp_ne _ u hc (by omega) hj
  · rfl

theorem initLoops_auto (a : Nat) (hj : j < 5) (hp : (s.loopCfg k j).present = true) :
    ((initLoops k a s).getLp k j).auto = (s.loopCfg k j).initAuto := by
  refine forList_est_of (Q := fun u => u.cfg = s.cfg) (P := fun u => (u.getLp k j).auto = (s.loopCfg k j).initAuto)
    (List.mem_range.mpr hj) (fun i u hu => ?_) (fun i u hu hP => ?_) (fun u hu => ?_) rfl
  · split
    · exact hu
    · exact hu
  · have hcfg := loopCfg_of_cfg hu k
    split
    · by_cases e : j = i
      · subst e
        rw [getLp_updLp, hcfg]
        rfl
      · rwa [getLp_updLp_loop _ u e]
    · exact hP
  · have hcfg := loopCfg_of_cfg hu k
    rw [if_pos (by rw [hcfg, hp]), getLp_updLp, hcfg]
    rfl

theorem controlClu_loop : (controlClu k s).loop = (initLoops k ((cluBegun k s).getClu k).a (cluBegun k s)).loop := by
  rw [controlClu_eq]
  exact (cluAuto_keeps ..).loop_eq rfl

theorem controlClu_getClu : (controlClu k s).getClu c = (cluBegun k s).getClu c := by
  rw [getClu_of_loop controlClu_loop, initLoops_getClu]

theorem controlClu_getClu_ne (hc : c ≠ k) : (controlClu k s).getClu c = s.getClu c := by
  rw [controlClu_getClu, cluBegun, cluRestart_getClu_ne hc, cluUnhold_getClu_ne hc, State.getClu_updClu_ne _ _ _ hc]

theorem controlClu_getLp_ne (hc : c ≠ k) (hj : j < 8) : (controlClu k s).getLp c j = s.getLp c j := by
  rw [getLp_of_loop controlClu_loop, initLoops_getLp_ne _ _ hc hj, cluBegun, cluRestart_getLp_ne hc hj, cluUnhold_getLp_ne hc hj]
  rfl

theorem controlClu_started : ((controlClu k s).getClu k).started = true := by
  rw [controlClu_getClu, cluBegun, cluRestart_started, cluUnhold_started, State.getClu_updClu]

theorem controlClu_runs (h : (s.getClu k).awake) : ((controlClu k s).getClu k).st = 1 := by
  have h1 : ((cluUnhold k (s.updClu k fun x => { x with started := true, modes := [] })).getClu k).st = 1 :=
    cluUnhold_runs (by rw [State.getClu_updClu]; exact h)
  rw [controlClu_getClu, cluBegun, cluRestart_of_up (by omega), h1]

theorem controlClu_auto (hj : j < 5) (hp : (s.loopCfg k j).present = true) :
    ((controlClu k s).getLp k j).auto = (s.loopCfg k j).initAuto := by
  have hcfg : (cluBegun k s).cfg = s.cfg := by
    rw [cluBegun, (cluRestart_keeps ..).cfg_eq rfl, (cluUnhold_keeps ..).cfg_eq rfl]
    rfl
  have hl := loopCfg_of_cfg hcfg k
  rw [getLp_of_loop controlClu_loop, initLoops_auto _ hj (by rw [hl, hp]), hl]

end Loops

section Clusters
variable {l : List Nat} {c : Nat} {s : State}

/-- Cluster `c` has been started, and its loops have their initial modes; one that ran or was held runs. -/
structure Controlled (s : State) (c : Nat) (u : State) : Prop where
  started : (u.getClu c).started = true
  runs : (s.getClu c).awake → (u.getClu c).st = 1
  auto : ∀ j < 5, (s.loopCfg c j).present = true → (u.getLp c j).auto = (s.loopCfg c j).initAuto

theorem Controlled.controlClu_ne {k : Nat} (hc : c ≠ k) {u : State} (h : Controlled s c u) : Controlled s c (controlClu k u) := by
  have hx := controlClu_getClu_ne (s := u) hc
  exact ⟨by rw [hx]; exact h.started, fun hu => by rw [hx]; exact h.runs hu, fun j hj hp => by
    rw [controlClu_getLp_ne hc (by omega)]; exact h.auto j hj hp⟩

theorem controlClus_getClu_ne (h : c ∉ l) : (forList l controlClu s).getClu c = s.getClu c :=
  forList_eq_of_mem (fun u => u.getClu c) (fun k hk u => controlClu_getClu_ne fun e => h (e ▸ hk)) s

theorem controlClus_controlled (h : c ∈ l) : Controlled s c (forList l controlClu s) := by
  refine forList_est_of (Q := fun u => u.cfg = s.cfg ∧ ((s.getClu c).awake → (u.getClu c).awake)) h (fun k u hu => ?_) (fun k u hu hP => ?_)
    (fun u hu => ?_) ⟨rfl, id⟩
  · refine ⟨((controlClu_keeps ..).cfg_eq rfl).trans hu.1, fun hs => ?_⟩
    by_cases e : c = k
    · subst e; exact .inl (controlClu_runs (hu.2 hs))
    · rw [controlClu_getClu_ne e]; exact hu.2 hs
  · by_cases e : c = k
    · subst e
      have hl := loopCfg_of_cfg hu.1 c
      exact ⟨controlClu_started, fun hs => controlClu_runs (hu.2 hs), fun j hj hp => by rw [← hl] at hp ⊢; exact controlClu_auto hj hp⟩
    · exact hP.controlClu_ne e
  · have hl := loopCfg_of_cfg hu.1 c
    exact ⟨controlClu_started, fun hs => controlClu_runs (hu.2 hs), fun j hj hp => by rw [← hl] at hp ⊢; exact controlClu_auto hj hp⟩

end Clusters

section Settle
variable {s : State} {h : DescHdr} {m : Nat}

theorem controlStart_effect (hr : Runs h descControlStart s) :
    ((∃ c ∈ maskIdx 32 m, (s.cluCfg c).present = false) → ∃ t, exec (.controlStart h m) s = .next t ∧
      Completes h 4 0x5004 0 s t ∧ Only [.hm, .hif] s t) ∧
    ((∀ c ∈ maskIdx 32 m, (s.cluCfg c).present = true) →
      (∃ c ∈ maskIdx 32 m, (s.getClu c).st = 2 ∧ (s.getClu c).holdCause = 0) →
      ∃ t, exec (.controlStart h m) s = .next t ∧ Completes h 4 0x5005 0 s t ∧ Only [.hm, .hif] s t) ∧
    ((∀ c ∈ maskIdx 32 m, (s.cluCfg c).present = true ∧ ¬ ((s.getClu c).st = 2 ∧ (s.getClu c).holdCause = 0)) →
      ∃ t, exec (.controlStart h m) s = .next t ∧
      Completes h 4 0 (maskOf ((maskIdx 32 m).filter fun c => decide ((t.getClu c).st = 1))) s t ∧
      (∀ c ∈ maskIdx 32 m, (t.getClu c).started = true ∧ ((s.getClu c).st = 2 → (t.getClu c).st = 1) ∧
        ((s.getClu c).st = 1 → (t.getClu c).st = 1) ∧
        ∀ j < 5, (s.loopCfg c j).present = true → (t.getLp c j).auto = (s.loopCfg c j).initAuto) ∧
      (∀ c, c ∉ maskIdx 32 m → t.getClu c = s.getClu c) ∧
      Only [.clk, .sns, .rail, .loop, .hm, .hif, .ldg, .fw, .trs, .syn] s t) := by
  have hx : exec (.controlStart h m) s = act (runDesc h descControlStart (controlStart m)) s := rfl
  let b := descBegin h.ctx.val s
  let l := maskIdx 32 m
  have hkb : Keeps [.hif] s b := descBegin_keeps ..
  have hpres : ∀ c, (b.cluCfg c).present = (s.cluCfg c).present := fun c => rfl
  have hclu : ∀ c, b.getClu c = s.getClu c := getClu_of_loop (hkb.loop_eq rfl)
  refine ⟨fun ⟨c, hc, ha⟩ => refused_of_fail hx hr (if_pos (List.any_eq_true.mpr ⟨c, hc, ?_⟩)), fun hp hbusy =>
    refused_of_fail hx hr ?_, fun hok => ?_⟩
  · show (!(b.cluCfg c).present) = true
    rw [hpres, ha]; rfl
  · obtain ⟨c, hc, hb⟩ := hbusy
    refine (if_neg ?_).trans (if_pos (List.any_eq_true.mpr ⟨c, hc, ?_⟩))
    · simp only [List.any_eq_true, not_exists, not_and, Bool.not_eq_true', Bool.not_eq_false]
      exact hp
    · rw [hclu]; exact decide_eq_true hb
  · let v := domStartAll (railsFree (forList l controlClu b))
    let ran := maskOf (l.filter fun c => decide ((v.getClu c).st = 1))
    let u := emitClerk 0x5010 ran 0 0 0 v
    have hd : controlStart m b = .done 0 ran u := by
      refine (if_neg ?_).trans (if_neg ?_)
      · simp only [List.any_eq_true, not_exists, not_and, Bool.not_eq_true', Bool.not_eq_false]
        exact fun c hc => (hok c hc).1
      · simp only [List.any_eq_true, not_exists, not_and, decide_eq_true_eq, hclu]
        exact fun c hc => not_and.mp (hok c hc).2
    have hbet : Between h.ctx.val b u := (((forList_between l (fun k w => controlClu_between _ w k) b).keeps (railsFree_keeps _) rfl
      rfl).keeps (domStartAll_keeps _) rfl rfl).emit ..
    obtain ⟨t, he, ht⟩ := exec_of_done hx hr hd hbet
    have hk : Keeps [.clk, .rail, .loop, .hm, .hif, .ldg] b u := .step (emitClerk_keeps ..) (by decide) (.step (domStartAll_keeps _)
      (by decide) (.step (railsFree_keeps _) (by decide) (forList_keeps l (fun _ _ hu => .step (controlClu_keeps ..) (by decide) hu)
      (.refl ..))))
    have hv : v.loop = (forList l controlClu b).loop := ((domStartAll_keeps _).loop_eq rfl).trans ((railsFree_keeps _).loop_eq rfl)
    have hl : t.loop = v.loop := (ht.keeps.loop_eq rfl).trans ((emitClerk_keeps ..).loop_eq rfl)
    have hcmp := ht.completes
    rw [resultOf_zero, show ran = maskOf (l.filter fun c => decide ((t.getClu c).st = 1)) from by
      simp only [ran, getClu_of_loop hl]] at hcmp
    refine ⟨t, he, hcmp, fun c hc => ?_, fun c hc => ?_, Keeps.only (.step ht.keeps (by decide) (.step hk (by decide)
      (hkb.mono (by decide))))⟩
    · obtain ⟨h1, h2, h3⟩ := controlClus_controlled (s := b) hc
      rw [hclu] at h2
      rw [getClu_of_loop (hl.trans hv)]
      exact ⟨h1, fun e => h2 (.inr e), fun e => h2 (.inl e), fun j hj hp => by rw [getLp_of_loop (hl.trans hv)]; exact h3 j hj hp⟩
    · rw [getClu_of_loop (hl.trans hv), controlClus_getClu_ne hc, hclu]

end Settle

end Sys2Proof.Machine
end

section
/-!
RAIL_CTRL: rails are started unless one of them is denied, and the clusters of those that it stops stay stopped (R176–R182).
-/
namespace Sys2Proof.Machine

section Start
variable {k r v : Nat} {cold : Bool} {s : State}

theorem setTarget_prot : (setTarget r v s).rail.prot = s.rail.prot := by
  unfold setTarget
  extract_lets vm s1 t
  have h1 : s1.rail.prot = s.rail.prot := by
    unfold s1
    split
    · rw [emitRail, emit_rail]; rfl
    · rfl
  exact h1

theorem setTarget_starts : (setTarget r v s).rail.starts = s.rail.starts := by
  unfold setTarget
  extract_lets vm s1 t
  have h1 : s1.rail.starts = s.rail.starts := by
    unfold s1
    split
    · rw [emitRail, emit_rail]; rfl
    · rfl
  exact h1

theorem setTarget_getReg_ne (h : k ≠ r) : (setTarget r v s).getReg k = s.getReg k := by
  unfold setTarget
  extract_lets vm s1 t
  have h1 : s1.getReg k = s.getReg k := by
    unfold s1
    split
    · rw [emitRail, getReg_of_rail (emit_rail ..)]; rfl
    · rfl
  exact (State.getReg_updReg_ne _ _ _ h).trans h1

/-- A rail's protection state at the beginning of its start (R176). -/
def RailProt.begun (now : Nat) (x : RailProt) : RailProt :=
  { x with st := 1, cause := 0, startAt := now, senseOk := false, zeroAt := none }

theorem prepareRail_starts : (prepareRail cold r s).rail.starts = s.rail.starts := by
  unfold prepareRail
  extract_lets v s1
  split
  · rfl
  · exact setTarget_starts

theorem prepareRail_getProt (k : Nat) : (prepareRail cold r s).getProt k =
    if k = r ∧ s.startTarget r cold ≠ 0 ∧ (s.getProt r).st = 0 then (s.getProt k).begun s.now else s.getProt k := by
  unfold prepareRail
  extract_lets v s1
  by_cases h : v = 0 ∨ (s.getProt r).st ≠ 0
  · rw [if_pos h, if_neg (by rintro ⟨-, h1, h2⟩; exact h.elim h1 fun h3 => h3 h2)]
  · rw [not_or, not_not] at h
    obtain ⟨h1, h2⟩ := h
    rw [if_neg (by rw [not_or, not_not]; exact ⟨h1, h2⟩), State.getProt, setTarget_prot]
    change s1.getProt k = _
    by_cases e : k = r
    · rw [if_pos ⟨e, h1, h2⟩, e]
      exact State.getProt_updProt ..
    · rw [if_neg (by simp [e])]
      exact State.getProt_updProt_ne _ _ _ e

theorem prepareRail_getReg_ne (h : k ≠ r) : (prepareRail cold r s).getReg k = s.getReg k := by
  unfold prepareRail
  extract_lets v s1
  split
  · rfl
  · rw [setTarget_getReg_ne h, State.getReg_updReg_ne _ _ _ h]
    rfl

theorem prepareRail_now : (prepareRail cold r s).now = s.now := (prepareRail_keeps ..).now_eq rfl

theorem prepareRail_target (k : Nat) : (prepareRail cold r s).startTarget k cold = s.startTarget k cold := by
  have g := prepareRail_keeps cold r s
  unfold State.startTarget State.bootSet State.railCfg
  rw [g.cfg_eq rfl, g.fuse_eq rfl, g.pwr_eq rfl]

/-- The rails of a start that are OFF begin it. -/
theorem prepared_getProt (hst : (s.getProt k).st = 0) (hv : s.startTarget k cold ≠ 0) {l : List Nat} (hk : k ∈ l) :
    ((forList l (prepareRail cold) s).getProt k).st = 1 ∧ ((forList l (prepareRail cold) s).getProt k).startAt = s.now := by
  let P := fun u : State => (u.getProt k).st = 1 ∧ (u.getProt k).startAt = s.now
  let Q := fun u : State => u.now = s.now ∧ u.startTarget k cold = s.startTarget k cold ∧ ((u.getProt k).st = 0 ∨ P u)
  have hturn : ∀ j u, P u → P (prepareRail cold j u) := fun j u hP => by
    have h := prepareRail_getProt (cold := cold) (r := j) (s := u) k
    rw [if_neg (by rintro ⟨rfl, -, h0⟩; have := hP.1; omega)] at h
    simp only [P, h]
    exact hP
  have hown : ∀ u, Q u → P (prepareRail cold k u) := fun u ⟨hn, ht, hs⟩ => by
    rcases hs with hs | hP
    · have h := prepareRail_getProt (cold := cold) (r := k) (s := u) k
      rw [if_pos ⟨rfl, by rwa [ht], hs⟩] at h
      simp only [P, h]
      exact ⟨rfl, hn⟩
    · exact hturn k u hP
  refine forList_est_of (Q := Q) (P := P) hk (fun j u hu => ?_) (fun j u _ hP => hturn j u hP) hown ⟨rfl, rfl, .inl hst⟩
  refine ⟨prepareRail_now.trans hu.1, (prepareRail_target k).trans hu.2.1, ?_⟩
  by_cases e : j = k
  · subst e; exact .inr (hown u hu)
  · rcases hu.2.2 with h0 | hP
    · left
      rw [prepareRail_getProt, if_neg (by simp [Ne.symm e])]
      exact h0
    · exact .inr (hturn j u hP)

end Start

section Stop
variable {K : List Nat} {k : Nat} {s t : State} {ps : List Area}

/-- The clusters of the rails `K` are stopped on account of their rail, and each of these rails is still in a stop or is not ON: so
none of the clusters is released. -/
structure Parked (K : List Nat) (s : State) : Prop where
  present : ∀ k ∈ K, k ∈ s.railIds
  clu : ∀ k ∈ K, ∀ c ∈ s.railClusters k, (s.getClu c).st = 0 ∧ (s.getClu c).stopRail = true
  rail : ∀ k ∈ K, s.inStop k = true ∨ (s.getProt k).st ≠ 3

theorem railClusters_of_cfg (h : t.cfg = s.cfg) (k : Nat) : t.railClusters k = s.railClusters k := by
  unfold State.railClusters State.clusters State.cluCfg
  rw [h]

theorem railIds_of_cfg (h : t.cfg = s.cfg) : t.railIds = s.railIds := by
  unfold State.railIds State.railCfg
  rw [h]

theorem Parked.of_eq (hc : t.cfg = s.cfg) (hl : t.loop = s.loop) (hr : t.rail = s.rail) (h : Parked K s) : Parked K t := by
  refine ⟨by rw [railIds_of_cfg hc]; exact h.present, fun k hk c hm => ?_, fun k hk => ?_⟩
  · rw [getClu_of_loop hl]
    rw [railClusters_of_cfg hc] at hm
    exact h.clu k hk c hm
  · rw [State.inStop, getProt_of_rail hr, hr]
    exact h.rail k hk

theorem Parked.step (h : Parked K s) (g : Keeps ps s t) (hc : ps.contains .cfg = false) (hl : ps.contains .loop = false)
    (hr : ps.contains .rail = false) : Parked K t := h.of_eq (g.cfg_eq hc) (g.loop_eq hl) (g.rail_eq hr)

theorem Parked.emit (h : Parked K s) (src code p0 p1 p2 p3 : Nat) : Parked K (emit src code p0 p1 p2 p3 s) :=
  h.step (emit_keeps ..) rfl rfl rfl

/-- A change of a cluster that leaves one that is parked as it is. -/
theorem Parked.updClu (h : Parked K s) (c : Nat) {f : Clu → Clu}
    (hf : (s.getClu c).st = 0 ∧ (s.getClu c).stopRail = true → (f (s.getClu c)).st = 0 ∧ (f (s.getClu c)).stopRail = true) :
    Parked K (s.updClu c f) := by
  refine ⟨h.present, fun k hk d hm => ?_, h.rail⟩
  by_cases e : d = c
  · subst e
    rw [State.getClu_updClu]
    exact hf (h.clu k hk d hm)
  · rw [State.getClu_updClu_ne _ _ _ e]
    exact h.clu k hk d hm

/-- A change of a rail that does not put it ON. -/
theorem Parked.updProt (h : Parked K s) (j : Nat) {f : RailProt → RailProt} (hf : ∀ x, (f x).st = x.st ∨ (f x).st ≠ 3) :
    Parked K (s.updProt j f) := by
  refine ⟨h.present, h.clu, fun k hk => (h.rail k hk).imp id fun h3 => ?_⟩
  by_cases e : k = j
  · subst e
    rw [State.getProt_updProt]
    rcases hf (s.getProt k) with h | h
    · rwa [h]
    · exact h
  · rwa [State.getProt_updProt_ne _ _ _ e]

theorem Parked.onRail (h : Parked K s) {f : Rails → Rails} (hp : (f s.rail).prot = s.rail.prot)
    (hs : ∀ q ∈ s.rail.stops, q ∈ (f s.rail).stops) : Parked K (s.onRail f) := by
  refine ⟨h.present, h.clu, fun k hk => (h.rail k hk).imp (fun hin => ?_) fun h3 => ?_⟩
  · obtain ⟨q, hq, hb⟩ := List.any_eq_true.mp hin
    exact List.any_eq_true.mpr ⟨q, hs q hq, hb⟩
  · rw [State.getProt, State.onRail_rail, hp]
    exact h3

theorem Parked.updReg (h : Parked K s) (j : Nat) (f : Reg → Reg) : Parked K (s.updReg j f) := h.onRail rfl fun _ hq => hq
theorem Parked.updPh (h : Parked K s) (j : Nat) (f : Phase → Phase) : Parked K (s.updPh j f) := h.onRail rfl fun _ hq => hq

theorem Parked.forList {α : Type} {l : List α} {f : α → State → State} (h : Parked K s) (hf : ∀ a ∈ l, ∀ u, Parked K u → Parked K (f a u)) :
    Parked K (forList l f s) := forList_ind hf h

theorem Parked.ite {p : Prop} [Decidable p] (h : Parked K s) (g : Parked K t) : Parked K (if p then s else t) := by
  split <;> assumption

theorem Parked.presetLoops (h : Parked K s) (c : Nat) : Parked K (presetLoops c s) := by
  have g := presetLoops_keeps c s
  refine ⟨by rw [railIds_of_cfg (g.cfg_eq rfl)]; exact h.present, fun k hk d hm => ?_, fun k hk => ?_⟩
  · rw [presetLoops_getClu]
    rw [railClusters_of_cfg (g.cfg_eq rfl)] at hm
    exact h.clu k hk d hm
  · rw [State.inStop, getProt_of_rail (g.rail_eq rfl), g.rail_eq rfl]
    exact h.rail k hk

/-- A parked cluster does not restart: its rail holds it. -/
theorem Parked.cluRestart (h : Parked K s) (c : Nat) : Parked K (cluRestart c s) := by
  by_cases hp : (s.getClu c).stopRail = true
  · rwa [cluRestart_of_held (by simp [Clu.held, hp])]
  · have hno : ∀ f : Clu → Clu, Parked K (s.updClu c f) := fun f => h.updClu c fun hx => absurd hx.2 hp
    unfold Machine.cluRestart
    extract_lets x cause
    exact .ite (.ite ((hno _).presetLoops c) ((hno _).emit ..)) h

theorem Parked.restartAll (h : Parked K s) : Parked K (restartAll s) :=
  (h.forList fun c _ u hu => hu.cluRestart c).step (domStartAll_keeps _) rfl rfl rfl

/-- No parked cluster is released: one of its rails is in a stop or not ON. -/
theorem Parked.railsBack (h : Parked K s) : Parked K (railsBack s) := by
  refine ⟨by rw [railIds_of_cfg ((railsBack_keeps s).cfg_eq rfl)]; exact h.present, fun k hk c hm => ?_, fun k hk => ?_⟩
  · have hm : c ∈ s.railClusters k := by rwa [railClusters_of_cfg ((railsBack_keeps s).cfg_eq rfl)] at hm
    have hnot : c ∉ s.clusters.filter fun c => s.railIds.all fun r =>
        !bitOf (s.cluCfg c).rails r || (decide ((s.getProt r).st = 3) && !s.inStop r) := fun hc => by
      have hall := List.all_eq_true.mp (List.mem_filter.mp hc).2 k (h.present k hk)
      have hbit : bitOf (s.cluCfg c).rails k = true := (List.mem_filter.mp hm).2
      simp only [hbit, Bool.not_true, Bool.false_or, Bool.and_eq_true, decide_eq_true_eq, Bool.not_eq_true'] at hall
      rcases h.rail k hk with h1 | h1
      · rw [h1] at hall; exact absurd hall.2 (by decide)
      · exact h1 hall.1
    have hsame : (Machine.railsBack s).getClu c = s.getClu c :=
      forList_eq_of_mem (fun u => u.getClu c) (fun j hj u => State.getClu_updClu_ne _ _ _ fun e => hnot (e ▸ hj)) s
    rw [hsame]
    exact h.clu k hk c hm
  · have g := railsBack_keeps s
    rw [State.inStop, getProt_of_rail (g.rail_eq rfl), g.rail_eq rfl]
    exact h.rail k hk

theorem Parked.startDone (h : Parked K s) (q : StartSeq) : Parked K (startDone q s) := by
  unfold Machine.startDone
  extract_lets on
  refine Parked.restartAll (Parked.railsBack (Parked.emit ?_ ..))
  exact h.forList fun j _ u hu => hu.updProt j fun _ => .inl rfl

theorem Parked.finishStart (h : Parked K s) : Parked K (finishStart s) := by
  unfold Machine.finishStart
  extract_lets ended
  exact (h.onRail rfl fun _ hq => hq).forList fun q _ u hu => hu.startDone q

theorem Parked.cluStop (h : Parked K s) (c : Nat) : Parked K (cluStop c s) := by
  unfold Machine.cluStop
  extract_lets u
  have h1 : Parked K u := .ite h (h.step (State.updFwCore_keeps ..) rfl rfl rfl)
  exact (h1.updClu c fun hx => ⟨rfl, hx.2⟩).step (reclaimClu_keeps ..) rfl rfl rfl

theorem Parked.stopClustersOf (h : Parked K s) (j : Nat) : Parked K (stopClustersOf j s) :=
  h.forList fun c _ u hu => ((hu.updClu c fun hx => ⟨hx.1, rfl⟩).cluStop c).step (State.updDom_keeps ..) rfl rfl rfl

theorem Parked.brakeStop (h : Parked K s) (j : Nat) : Parked K (brakeStop j s) := by
  unfold Machine.brakeStop
  extract_lets x
  split
  · exact h
  · exact .ite ((h.updReg ..).emit ..) (h.updReg ..)

theorem Parked.railFault (h : Parked K s) (cause j : Nat) : Parked K (railFault cause j s) := by
  unfold Machine.railFault
  refine .ite h ?_
  have h1 : Parked K (railPenLow j (Machine.brakeStop j s)) := (h.brakeStop j).forList fun p _ u hu => hu.updPh p _
  have h2 : Parked K (railPhasesTo j 1 (railPenLow j (Machine.brakeStop j s))) := h1.forList fun p _ u hu => hu.updPh p _
  exact ((h2.stopClustersOf j).updProt j fun _ => .inr (show 5 ≠ 3 by decide)).updReg j _

theorem Parked.latchAll (h : Parked K s) : Parked K (latchAll s) :=
  h.forList fun j _ u hu => hu.updProt j fun x => .inr (by simp only; split <;> decide)

/-- A stop ends only when none of its rails runs any more. -/
theorem Parked.finishStops (h : Parked K s) : Parked K (finishStops s) := by
  unfold Machine.finishStops
  extract_lets ended s1
  have h0 : Parked K (s.onRail fun r => { r with stops := r.stops.filter fun q => !stopOver s q }) := by
    refine ⟨h.present, h.clu, fun k hk => ?_⟩
    rcases h.rail k hk with hin | h3
    · obtain ⟨q, hq, hb⟩ := List.any_eq_true.mp hin
      by_cases ho : stopOver s q = true
      · have hlt : k < 8 := by
          have hm := h.present k hk
          exact List.mem_range.mp (List.mem_filter.mp hm).1
        have hrun := List.all_eq_true.mp ho k (List.mem_filter.mpr ⟨List.mem_range.mpr hlt, hb⟩)
        right
        intro h3
        change (s.getProt k).st = 3 at h3
        simp [RailProt.running, h3] at hrun
      · exact .inl (List.any_eq_true.mpr ⟨q, List.mem_filter.mpr ⟨hq, by simpa using ho⟩, hb⟩)
    · exact .inr h3
  have h1 : Parked K s1 := h0.forList fun q _ u hu => hu.emit ..
  exact .ite h1.latchAll h1

theorem Parked.fastStop (h : Parked K s) (l : List Nat) (cause track : Nat) : Parked K (fastStop l cause track s) := by
  unfold Machine.fastStop
  extract_lets act lv s1 q s2
  have h1 : Parked K s1 := h.forList fun j _ u hu => hu.stopClustersOf j
  have h2 : Parked K s2 := h1.forList fun j _ u hu => hu.railFault _ j
  have h3 : Parked K (s2.onRail fun x => { x with stops := x.stops ++ [q] }) := h2.onRail rfl fun _ hq => List.mem_append_left _ hq
  exact .ite h h3.finishStops.finishStart

theorem Parked.stopWithMaster (h : Parked K s) (l : List Nat) : Parked K (stopWithMaster l s) :=
  (h.fastStop l 6 0).forList fun _ _ _ hu => hu.emit ..

theorem Parked.rampDown (h : Parked K s) (q : StopSeq) (j : Nat) : Parked K (rampDown q j s) :=
  ((h.updProt j fun _ => .inr (show 4 ≠ 3 by decide)).updReg j _).stopWithMaster _

theorem Parked.rampDownLevels (h : Parked K s) : Parked K (rampDownLevels s) := by
  refine h.forList fun q _ u hu => ?_
  extract_lets rails waiting lv
  exact .ite hu (hu.forList fun j _ v hv => hv.rampDown q j)

theorem Parked.refuseStart (h : Parked K s) (cause j : Nat) : Parked K (refuseStart cause j s) :=
  (h.railFault cause j).stopWithMaster _

theorem Parked.judgeStart (h : Parked K s) (q : StartSeq) (j : Nat) : Parked K (judgeStart q j s) := by
  unfold Machine.judgeStart
  extract_lets n
  exact .ite h (.ite ((h.refuseStart 3 j).emit ..) (.ite ((h.refuseStart 6 j).emit ..) h))

theorem Parked.identifyNext (h : Parked K s) : Parked K (identifyNext s) := by
  unfold Machine.identifyNext
  split
  · extract_lets s1 byLevel
    have h1 : Parked K s1 := h.onRail rfl fun _ hq => hq
    exact .ite ((h1.forList fun j _ u hu => hu.judgeStart _ j).finishStart) h
  · exact h

/-- The clusters of a rail, stopped on its account. -/
def StoppedFor (k : Nat) (s : State) : Prop := ∀ c ∈ s.railClusters k, (s.getClu c).st = 0 ∧ (s.getClu c).stopRail = true

theorem getClu_cluStop (c d : Nat) (s : State) : ((cluStop c s).getClu d).st = (if d = c then 0 else (s.getClu d).st) ∧
    ((cluStop c s).getClu d).stopRail = (s.getClu d).stopRail := by
  unfold cluStop
  extract_lets u
  have hu : u.getClu d = s.getClu d := by
    unfold u
    split <;> rfl
  rw [getClu_of_loop ((reclaimClu_keeps ..).loop_eq rfl)]
  by_cases e : d = c
  · subst e
    rw [State.getClu_updClu, hu, if_pos rfl]
    exact ⟨rfl, rfl⟩
  · rw [State.getClu_updClu_ne _ _ _ e, hu, if_neg e]
    exact ⟨rfl, rfl⟩

/-- The turn of cluster `c` in the stop of the clusters of a rail. -/
def stopTurn (c : Nat) (s : State) : State :=
  domStopSend (s.cluCfg c).dom (cluStop c (s.updClu c fun x => { x with stopRail := true }))

theorem stopTurn_getClu (c d : Nat) (s : State) : ((stopTurn c s).getClu d).st = (if d = c then 0 else (s.getClu d).st) ∧
    ((stopTurn c s).getClu d).stopRail = (if d = c then true else (s.getClu d).stopRail) := by
  have h := getClu_cluStop c d (s.updClu c fun x => { x with stopRail := true })
  have hs : (stopTurn c s).getClu d = (cluStop c (s.updClu c fun x => { x with stopRail := true })).getClu d := rfl
  rw [hs]
  by_cases e : d = c
  · subst e
    rw [State.getClu_updClu] at h
    simpa using h
  · rw [State.getClu_updClu_ne _ _ _ e] at h
    simpa [e] using h

theorem stopClustersOf_stopped (k : Nat) (s : State) : StoppedFor k (stopClustersOf k s) := by
  intro c hc
  rw [railClusters_of_cfg ((stopClustersOf_keeps k s).cfg_eq rfl)] at hc
  refine forList_est (P := fun u => (u.getClu c).st = 0 ∧ (u.getClu c).stopRail = true) (f := stopTurn) hc (fun d u hu => ?_)
    (fun u => ?_) s
  · obtain ⟨h1, h2⟩ := stopTurn_getClu d c u
    rw [h1, h2]
    split
    · exact ⟨rfl, rfl⟩
    · exact hu
  · obtain ⟨h1, h2⟩ := stopTurn_getClu c c u
    rw [h1, h2, if_pos rfl, if_pos rfl]
    exact ⟨rfl, rfl⟩

theorem StoppedFor.stopClustersOf (h : StoppedFor k s) (j : Nat) : StoppedFor k (stopClustersOf j s) := by
  intro c hc
  rw [railClusters_of_cfg ((stopClustersOf_keeps j s).cfg_eq rfl)] at hc
  refine forList_ind (P := fun u => (u.getClu c).st = 0 ∧ (u.getClu c).stopRail = true) (f := stopTurn) (fun d _ u hu => ?_) (h c hc)
  obtain ⟨h1, h2⟩ := stopTurn_getClu d c u
  rw [h1, h2]
  split
  · exact ⟨rfl, rfl⟩
  · exact hu

end Stop

section Settle
variable {s : State} {h : DescHdr} {r : Fin 256}

theorem railCtrlStart_effect (hr : Runs h descRailCtrl s) (hnamed : railsNamed s r = true) (hok : ∀ k ∈ maskIdx 8 r, startDenied s r k = false) :
    ∃ t, exec (.railCtrlStart h r) s = .next t ∧ Completes h 0x20 0 r s t ∧
      t.rail.starts = s.rail.starts ++ [{ rails := r, step := 3, began := s.now, cold := false }] ∧
      (∀ k ∈ maskIdx 8 r, s.startTarget k false ≠ 0 → (t.getProt k).st = 1 ∧ (t.getProt k).startAt = s.now) ∧
      (∀ k, k ∉ maskIdx 8 r → t.getProt k = s.getProt k ∧ t.getReg k = s.getReg k) ∧
      Only [.sns, .rail, .hm, .hif, .ldg] s t := by
  let b := descBegin h.ctx.val s
  let l := maskIdx 8 r.val
  let u := beginStart r.val 3 false b
  have hkb : Keeps [.hif] s b := descBegin_keeps ..
  have hd : railCtrlStart r.val b = .done 0 r.val u := by
    refine (if_neg ?_).trans (if_neg ?_)
    · have hn : railsNamed b r.val = railsNamed s r.val := rfl
      rw [hn, hnamed]; decide
    · simp only [List.any_eq_true, not_exists, not_and, Bool.not_eq_true]
      exact hok
  have hbet : Between h.ctx.val b u := ((Between.refl _ b).forList fun j v => prepareRail_between _ v false j).keeps
    (State.onRail_keeps ..) rfl rfl
  obtain ⟨t, he, ht⟩ := exec_of_done (c := .railCtrlStart h r) (body := railCtrlStart r.val) rfl hr hd hbet
  have hloop : Keeps [.rail, .hm, .hif, .ldg] b (forList l (prepareRail false) b) :=
    forList_keeps l (fun _ _ hu => .step (prepareRail_keeps ..) (by decide) hu) (.refl ..)
  have hrail : t.rail = u.rail := ht.keeps.rail_eq rfl
  have hst : (forList l (prepareRail false) b).rail.starts = s.rail.starts :=
    (forList_eq (fun u => u.rail.starts) l (fun j u => prepareRail_starts) b).trans (congrArg Rails.starts (hkb.rail_eq rfl))
  refine ⟨t, he, ht.completes, ?_, fun k hk hv => ?_, fun k hk => ⟨?_, ?_⟩, Keeps.only (.step ht.keeps (by decide)
    (.step (State.onRail_keeps ..) (by decide) (.step hloop (by decide) (hkb.mono (by decide)))))⟩
  · rw [hrail]
    show (forList l (prepareRail false) b).rail.starts ++ [_] = _
    rw [hst, hkb.now_eq rfl]
  · rw [getProt_of_rail hrail]
    have h0 : (b.getProt k).st = 0 := by
      have hn := hok k hk
      unfold startDenied at hn
      simp only [Bool.or_eq_false_iff, decide_eq_false_iff_not, not_not] at hn
      rw [getProt_of_rail (hkb.rail_eq rfl)]
      exact hn.1.1.1.1
    have hp := prepared_getProt (cold := false) (s := b) (l := l) h0 (by exact hv) hk
    rw [hkb.now_eq rfl] at hp
    exact hp
  · rw [getProt_of_rail hrail]
    refine Eq.trans ?_ (getProt_of_rail (hkb.rail_eq rfl) k)
    refine forList_eq_of_mem (fun u => u.getProt k) (l := l) (fun j hj u => ?_) b
    rw [prepareRail_getProt, if_neg]
    rintro ⟨rfl, -⟩
    exact hk hj
  · rw [getReg_of_rail hrail]
    refine Eq.trans ?_ (getReg_of_rail (hkb.rail_eq rfl) k)
    exact forList_eq_of_mem (fun u => u.getReg k) (l := l) (fun j hj u => prepareRail_getReg_ne fun e => hk (e ▸ hj)) b

end Settle

end Sys2Proof.Machine
end

section
/-!
RAIL_CTRL's stop, the baselines of ageing, and WARM_RESET by descriptor (R24, R131, R179, R195).
-/
namespace Sys2Proof.Machine

section Masks

/-- Adding a bit that is clear sets it and no other. -/
theorem testBit_add_two_pow {m i : Nat} (h : m.testBit i = false) (k : Nat) :
    (m + 2 ^ i).testBit k = (m.testBit k || decide (k = i)) := by
  induction i generalizing m k with
  | zero =>
    rw [Nat.testBit_zero, decide_eq_false_iff_not] at h
    cases k with
    | zero => rw [Nat.testBit_zero, Nat.testBit_zero]; simp; omega
    | succ k =>
      rw [Nat.testBit_add_one, Nat.testBit_add_one, show (m + 2 ^ 0) / 2 = m / 2 by omega]
      simp
  | succ i ih =>
    cases k with
    | zero => rw [Nat.testBit_zero, Nat.testBit_zero, show (m + 2 ^ (i + 1)) % 2 = m % 2 by omega]; simp
    | succ k =>
      rw [Nat.testBit_add_one] at h
      rw [Nat.testBit_add_one, Nat.testBit_add_one, show (m + 2 ^ (i + 1)) / 2 = m / 2 + 2 ^ i by omega, ih h]
      simp

theorem bitOf_foldl_maskOf (l : List Nat) (m k : Nat) :
    bitOf (l.foldl (fun m i => if bitOf m i then m else m + 2 ^ i) m) k = (bitOf m k || decide (k ∈ l)) := by
  induction l generalizing m with
  | nil => simp
  | cons i l ih =>
    rw [List.foldl_cons, ih]
    have hbit : bitOf (if bitOf m i then m else m + 2 ^ i) k = (bitOf m k || decide (k = i)) := by
      by_cases hi : bitOf m i = true
      · rw [if_pos hi]
        by_cases e : k = i
        · subst e; simp [hi]
        · simp [e]
      · rw [if_neg hi]
        rw [Bool.not_eq_true] at hi
        simp only [bitOf_eq_testBit] at hi ⊢
        exact testBit_add_two_pow hi k
    rw [hbit]
    by_cases e : k = i <;> simp [e]

theorem bitOf_maskOf (l : List Nat) (k : Nat) : bitOf (maskOf l) k = decide (k ∈ l) := by
  rw [maskOf, bitOf_foldl_maskOf]
  simp [bitOf]

theorem mem_maskIdx {n m k : Nat} : k ∈ maskIdx n m ↔ k < n ∧ bitOf m k = true := by
  rw [maskIdx, List.mem_filter, List.mem_range]

end Masks

section Stop
variable {s : State} {h : DescHdr} {r : Fin 256}

/-- The rails that RAIL_CTRL stops: those named that run, and their trackers. -/
def railsStopped (m : Nat) (s : State) : List Nat :=
  (List.range 8).filter fun r =>
    (s.getProt r).running && !s.inStop r && ((maskIdx 8 m).contains r || (maskIdx 8 m).any fun k => (trackers s 8 k).contains r)

/-- The stop has begun: their clusters are stopped, and the stop is queued. -/
def railsStopping (l : List Nat) (s : State) : State :=
  (forList l stopClustersOf s).onRail fun x =>
    { x with stops := x.stops ++ [{ rails := maskOf l, fast := false, cause := 0 }],
             starts := x.starts.map fun q => { q with rails := maskOf ((maskIdx 8 q.rails).filter fun r => !l.contains r) } }

theorem railCtrlStop_named {m : Nat} (hn : railsNamed s m = true) : railCtrlStop m s =
    if railsStopped m s = [] then .done 0 0 s
    else .done 0 (maskOf (railsStopped m s)) (identifyNext (finishStart (rampDownLevels (railsStopping (railsStopped m s) s)))) :=
  if_neg (by simp [hn])

theorem railsStopping_parked {l K : List Nat} (hK : ∀ k ∈ K, k ∈ l) (hp : ∀ k ∈ K, k ∈ s.railIds) : Parked K (railsStopping l s) := by
  have hg : Keeps [.clk, .loop, .hm, .hif, .ldg, .fw, .trs, .syn] s (forList l stopClustersOf s) :=
    forList_keeps l (fun _ _ hu => .step (stopClustersOf_keeps ..) (by decide) hu) (.refl ..)
  refine ⟨?_, fun k hk => ?_, fun k hk => .inl ?_⟩
  · show ∀ k ∈ K, k ∈ (forList l stopClustersOf s).railIds
    rw [railIds_of_cfg (hg.cfg_eq rfl)]
    exact hp
  · exact forList_est (P := StoppedFor k) (hK k hk) (fun j u hu => hu.stopClustersOf j) (fun u => stopClustersOf_stopped k u) s
  · exact List.any_eq_true.mpr ⟨_, List.mem_append_right _ (List.mem_singleton.mpr rfl),
      (bitOf_maskOf l k).trans (decide_eq_true (hK k hk))⟩

theorem railsStopping_between (c : Nat) (l : List Nat) (s : State) : Between c s (railsStopping l s) :=
  ((Between.refl c s).forList fun j u => stopClustersOf_between c u j).keeps (State.onRail_keeps ..) rfl rfl

theorem railCtrlStop_effect (hr : Runs h descRailCtrl s) (hn : railsNamed s r = true)
    (hrun : ∃ k ∈ maskIdx 8 r, (s.getProt k).running = true ∧ s.inStop k = false) :
    ∃ t, exec (.railCtrlStop h r) s = .next t ∧
      (∀ k ∈ maskIdx 8 r, (s.getProt k).running = true → s.inStop k = false → ∀ c ∈ s.railClusters k,
        (t.getClu c).st = 0 ∧ (t.getClu c).stopRail = true) ∧
      (∃ res, Completes h 0x20 0 res s t ∧
        ∀ k ∈ maskIdx 8 r, (s.getProt k).running = true → s.inStop k = false → bitOf res k = true) ∧
      Only [.clk, .rail, .loop, .hm, .hif, .ldg, .fw, .trs, .syn] s t := by
  let b := descBegin h.ctx.val s
  let l := railsStopped r.val b
  let K := (maskIdx 8 r.val).filter fun k => (s.getProt k).running && !s.inStop k
  have hkb : Keeps [.hif] s b := descBegin_keeps ..
  have hmem : ∀ k ∈ maskIdx 8 r.val, (s.getProt k).running = true → s.inStop k = false → k ∈ l := fun k hk h1 h2 => by
    have hp : b.getProt k = s.getProt k := getProt_of_rail (hkb.rail_eq rfl) k
    have hi : b.inStop k = s.inStop k := by rw [State.inStop, hkb.rail_eq rfl]; rfl
    refine List.mem_filter.mpr ⟨List.mem_range.mpr (mem_maskIdx.mp hk).1, ?_⟩
    rw [hp, hi, h1, h2, show (maskIdx 8 r.val).contains k = true from List.contains_iff_mem.mpr hk]
    rfl
  have hKl : ∀ k ∈ K, k ∈ l := fun k hk => by
    obtain ⟨h1, h2⟩ := List.mem_filter.mp hk
    rw [Bool.and_eq_true, Bool.not_eq_true'] at h2
    exact hmem k h1 h2.1 h2.2
  have hKp : ∀ k ∈ K, k ∈ b.railIds := fun k hk => by
    have hk := (List.mem_filter.mp hk).1
    have hall := List.all_eq_true.mp (Bool.and_eq_true_iff.mp hn).2 k hk
    exact List.mem_filter.mpr ⟨List.mem_range.mpr (mem_maskIdx.mp hk).1, hall⟩
  have hne : l ≠ [] := by
    obtain ⟨k, hk, h1, h2⟩ := hrun
    exact List.ne_nil_of_mem (hmem k hk h1 h2)
  let s1 := railsStopping l b
  let u := identifyNext (finishStart (rampDownLevels s1))
  have hd : railCtrlStop r.val b = .done 0 (maskOf l) u := (railCtrlStop_named (show railsNamed b r.val = true from hn)).trans (if_neg hne)
  have hbet : Between h.ctx.val b u := (((railsStopping_between ..).trans (rampDownLevels_between ..)).trans
    (finishStart_between ..)).trans (identifyNext_between ..)
  obtain ⟨t, he, ht⟩ := exec_of_done (c := .railCtrlStop h r) (body := railCtrlStop r.val) rfl hr hd hbet
  have hpark : Parked K u := (railsStopping_parked hKl hKp).rampDownLevels.finishStart.identifyNext
  have hg : Keeps [.clk, .rail, .loop, .hm, .hif, .ldg, .fw, .trs, .syn] b s1 := .step (State.onRail_keeps ..) (by decide)
    (forList_keeps l (fun _ _ hu => .step (stopClustersOf_keeps ..) (by decide) hu) (.refl ..))
  have hgu : Keeps [.clk, .rail, .loop, .hm, .hif, .ldg, .fw, .trs, .syn] b u := .step (identifyNext_keeps _) (by decide)
    (.step (finishStart_keeps _) (by decide) (.step (rampDownLevels_keeps _) (by decide) hg))
  refine ⟨t, he, fun k hk h1 h2 c hc => ?_, ⟨maskOf l, ht.completes, fun k hk h1 h2 => (bitOf_maskOf l k).trans
    (decide_eq_true (hmem k hk h1 h2))⟩, Keeps.only (.step ht.keeps (by decide) (.step hgu (by decide) (hkb.mono (by decide))))⟩
  rw [getClu_of_loop (ht.keeps.loop_eq rfl)]
  refine hpark.clu k (List.mem_filter.mpr ⟨hk, by simp [h1, h2]⟩) c ?_
  rw [railClusters_of_cfg (hgu.cfg_eq rfl)]
  exact hc

theorem railCtrlStop_idle (hr : Runs h descRailCtrl s) (hn : railsNamed s r = true) (hoff : ∀ k < 8, (s.getProt k).running = false) :
    ∃ t, exec (.railCtrlStop h r) s = .next t ∧ Completes h 0x20 0 0 s t ∧ Only [.hm, .hif] s t := by
  let b := descBegin h.ctx.val s
  have hnone : railsStopped r.val b = [] := by
    refine List.filter_eq_nil_iff.mpr fun k hk => ?_
    have hp : b.getProt k = s.getProt k := getProt_of_rail ((descBegin_keeps ..).rail_eq rfl) k
    rw [hp, hoff k (List.mem_range.mp hk), Bool.false_and, Bool.false_and]
    exact Bool.false_ne_true
  exact refused_of_fail (c := .railCtrlStop h r) (body := railCtrlStop r.val) rfl hr
    ((railCtrlStop_named (show railsNamed b r.val = true from hn)).trans (if_pos hnone))

end Stop

section Baseline
variable {s : State} {h : DescHdr} {mons : Nat} {x : Ext}

/-- The ratio that the capture of a baseline takes for a monitor (R131). -/
def ratioOf (x : Ext) (s : State) (k : Nat) : Nat := ((x.ratios.find? fun e => e.1 = k).map Prod.snd).getD (s.getMon k).ratio

/-- One monitor's baseline is stored. -/
def baseTurn (x : Ext) (k : Nat) (t : State) : State :=
  t.onSns fun n => { n with norBase := Tbl.set none n.norBase k (some (ratioOf x t k)) }

theorem baseTurns_get {l : List Nat} (k : Nat) (s : State) : Tbl.get none (forList l (baseTurn x) s).sns.norBase k =
    if k ∈ l then some (ratioOf x s k) else Tbl.get none s.sns.norBase k := by
  induction l generalizing s with
  | nil => rfl
  | cons j l ih =>
    rw [forList_cons, ih, show ratioOf x (baseTurn x j s) k = ratioOf x s k from rfl]
    by_cases hk : k ∈ l
    · rw [if_pos hk, if_pos (List.mem_cons_of_mem _ hk)]
    · rw [if_neg hk]
      by_cases e : k = j
      · subst e
        rw [if_pos List.mem_cons_self]
        exact Tbl.get_set_self (d := none) s.sns.norBase k (some (ratioOf x s k))
      · rw [if_neg (by simp [e, hk])]
        exact Tbl.get_set_ne (d := none) s.sns.norBase (some (ratioOf x s j)) e

theorem amBaseline_effect (hr : Runs h descAmBaseline s) :
    ((∃ k ∈ maskIdx 160 mons, (s.monCfg k).present = false) → ∃ t, exec (.amBaseline h mons x) s = .next t ∧
      Completes h 0x21 0x9009 0 s t ∧ Only [.hm, .hif] s t) ∧
    ((∀ k ∈ maskIdx 160 mons, (s.monCfg k).present = true) → s.nvDown = true → ∃ t,
      exec (.amBaseline h mons x) s = .next t ∧ Completes h 0x21 0 0 s t ∧ Only [.hm, .hif] s t) ∧
    ((∀ k ∈ maskIdx 160 mons, (s.monCfg k).present = true) → s.nvDown = false → ∃ t,
      exec (.amBaseline h mons x) s = .next t ∧ Completes h 0x21 0 (maskIdx 160 mons).length s t ∧
      (∀ k ∈ maskIdx 160 mons, Tbl.get none t.sns.norBase k = some (ratioOf x s k)) ∧
      (∀ k, k ∉ maskIdx 160 mons → Tbl.get none t.sns.norBase k = Tbl.get none s.sns.norBase k) ∧
      Only [.sns, .hm, .hif] s t) := by
  have hx : exec (.amBaseline h mons x) s = act (runDesc h descAmBaseline (bodyAmBaseline mons x)) s := rfl
  let b := descBegin h.ctx.val s
  let l := maskIdx 160 mons
  have hkb : Keeps [.hif] s b := descBegin_keeps ..
  have hnv : b.nvDown = s.nvDown := rfl
  have hall : (∀ k ∈ l, (s.monCfg k).present = true) → ¬ (l.any fun k => !(b.monCfg k).present) = true := fun hp => by
    simp only [List.any_eq_true, not_exists, not_and, Bool.not_eq_true', Bool.not_eq_false]
    exact hp
  refine ⟨fun ⟨k, hk, ha⟩ => refused_of_fail hx hr (if_pos (List.any_eq_true.mpr ⟨k, hk, ?_⟩)), fun hp hdown => ?_, fun hp hup => ?_⟩
  · show (!(s.monCfg k).present) = true
    rw [ha]; rfl
  · exact refused_of_fail hx hr ((if_neg (hall hp)).trans (if_pos (hnv.trans hdown)))
  · have hd : bodyAmBaseline mons x b = .done 0 l.length (forList l (baseTurn x) b) :=
      (if_neg (hall hp)).trans (if_neg (by rw [hnv, hup]; decide))
    have hg : Keeps [.sns] b (forList l (baseTurn x) b) := forList_keeps l (fun _ _ hu => .step (State.onSns_keeps ..) (by decide) hu)
      (.refl ..)
    obtain ⟨t, he, ht⟩ := exec_of_done hx hr hd (hg.between rfl rfl)
    have hget : ∀ k, Tbl.get none t.sns.norBase k = if k ∈ l then some (ratioOf x s k) else Tbl.get none s.sns.norBase k := fun k => by
      rw [ht.keeps.sns_eq rfl, baseTurns_get, hkb.sns_eq rfl]
      rfl
    exact ⟨t, he, ht.completes, fun k hk => (hget k).trans (if_pos hk), fun k hk => (hget k).trans (if_neg hk),
      Keeps.only (.step ht.keeps (by decide) (.step hg (by decide) (hkb.mono (by decide))))⟩

end Baseline

section Warm
variable {s t u : State} {w : HmWrite}

/-- From `s` to `t` the manager port has only been given posted writes; its requests may have been given up. -/
def Wrote (s t : State) : Prop :=
  ∃ ws, t.hm.inReset = s.hm.inReset ∧ t.hm.held = (s.hm.post ws).held ∧ t.hm.out = (s.hm.post ws).out

theorem Posted.wrote (h : Posted s t) : Wrote s t := by
  obtain ⟨ws, h⟩ := h
  exact ⟨ws, by rw [h, HmPort.post_inReset], by rw [h], by rw [h]⟩

theorem Wrote.of_eq (h : Wrote s t) (h1 : u.hm.inReset = t.hm.inReset) (h2 : u.hm.held = t.hm.held) (h3 : u.hm.out = t.hm.out) :
    Wrote s u := by
  obtain ⟨ws, g1, g2, g3⟩ := h
  exact ⟨ws, h1.trans g1, h2.trans g2, h3.trans g3⟩

/-- A write that has been posted stays where it is while more are posted. -/
theorem Posting.wrote (h : Posting w s t) (g : Wrote t u) : Posts w s u := by
  obtain ⟨a, b, h⟩ := h
  obtain ⟨ws, -, h2, h3⟩ := g
  rw [h, HmPort.post_post, List.append_assoc, List.cons_append] at h2 h3
  unfold Posts
  unfold HmPort.post at h2 h3
  split
  · next hc => rw [if_pos hc] at h2; exact ⟨a, b ++ ws, by rw [h2, List.append_assoc]⟩
  · next hc => rw [if_neg hc] at h3; exact ⟨a, b ++ ws, by rw [h3, List.append_assoc]⟩

/-- The entry of a descriptor that ended stays posted. -/
theorem DescEnd.completes_wrote {h : DescHdr} {op st res : Nat} {b v : State} (ht : DescEnd h op st res s v t)
    (hb : Between h.ctx.val b v) (hs : Between h.ctx.val s b) (g : Wrote t u) : Completes h op st (resultOf st res) s u := by
  obtain ⟨ws, hws⟩ := (hs.trans hb).posts
  obtain ⟨adr, e, l, hhm, h1, h2, h3, h4, h5⟩ := completeOne_hm h op st res v
  have hp : Posting (.cqe h.ctx.val adr (cqeBytes e)) s t := ⟨ws, l, by rw [ht.eq, hhm, hws, HmPort.post_post]⟩
  exact ⟨adr, e, hp.wrote g, h1, h2, h3, h4, h5⟩

theorem ldgTake_posted (r : LRec) (s : State) : Posted s (ldgTake r s) := by
  unfold ldgTake
  extract_lets l f lost
  refine .ite (.of_eq rfl) (.ite ?_ (.of_eq rfl))
  obtain ⟨ws, he⟩ := evtDeliver_emits (rec_ := emitRec 3) (fun x u => emitRec_emits 3 x u) f 0 (s.onLdg fun y =>
    { y with store := Tbl.set {} y.store 16383 f, w := 16384, seq := wrapInc 32 y.seq, drop := satInc 32 y.drop,
             lostFlag := Tbl.set false y.lostFlag 0x36 false })
  exact ⟨ws, he.hm⟩

theorem ldgFlush_posted (k : Nat) (s : State) : Posted s (ldgFlush k s) := by
  have h : ∀ (l : List LRec) (u : State), Posted s u → Posted s (l.foldl (fun t r => ldgTake r t) u) := fun l => by
    induction l with
    | nil => exact fun _ h => h
    | cons r l ih => exact fun u hu => ih _ (hu.trans (ldgTake_posted r u))
  exact h _ _ (.of_eq rfl)

theorem warmFrames_posted (s : State) : Posted s (warmFrames s) := by
  unfold warmFrames
  extract_lets s1
  have h1 : Posted s s1 := forList_posted _ (fun c u => ((State.updBack_keeps ..).posted rfl).trans (emit_posted ..)) s
  exact h1.trans (((State.onTb_keeps ..).posted rfl).trans ((State.onFrm_keeps ..).posted rfl))

/-- A test that answers no descriptor is abandoned with a record. -/
theorem audAbandon_posted (cause : Nat) (h : ∀ t, s.aud.test = some t → t.hdr = none) : Posted s (audAbandon cause s) := by
  unfold audAbandon
  split
  · exact .refl s
  · next t ht =>
    rw [h t ht]
    exact (((State.onAud_keeps ..).posted rfl).trans ((State.updUnit_keeps ..).posted rfl)).trans (emit_posted ..)

theorem warmHold_posted (s : State) : Posted s (warmHold s) := by
  unfold warmHold
  extract_lets s2 s3 s4
  have h2 : Posted s s2 := (((State.onHo_keeps ..).posted rfl).trans ((State.onFrec_keeps ..).posted rfl)).trans
    (holdAll_between 0 _ 1).posts
  have h3 : Posted s s3 := h2.trans ((railsHold_keeps ..).posted rfl)
  have h4 : Posted s s4 := (h3.trans (forList_posted _ (fun c u => (reclaimClu_between 0 u 3 c).posts) s3)).trans (warmFrames_posted _)
  refine (h4.trans ((State.onAud_keeps ..).posted rfl)).trans (audAbandon_posted 2 fun t ht => ?_)
  obtain ⟨x, -, rfl⟩ := Option.map_eq_some_iff.mp ht
  rfl

/-- A warm reset gives up the request of a tag (R24). -/
def failReq (now tag : Nat) (h : HmPort) : HmPort :=
  match Tbl.get none h.reqs tag with
  | some r => { h with reqs := Tbl.set none h.reqs tag (some { r with failed := some (r.failed.getD now) }) }
  | none => h

theorem failReq_posts (now tag : Nat) (h : HmPort) : (failReq now tag h).inReset = h.inReset ∧ (failReq now tag h).held = h.held ∧
    (failReq now tag h).out = h.out := by
  unfold failReq
  split <;> exact ⟨rfl, rfl, rfl⟩

def failReqs (now : Nat) (s : State) : State := forList (List.range 32) (fun t u => u.onHm (failReq now t)) s

theorem warmDma_eq : warmDma s = (failReqs s.now (forList (List.range 8) (fun k => State.updChan k chanWarm) s)).onHm
    fun h => { h with waiting := [] } := rfl

theorem failReqs_hm (now : Nat) (s : State) : (failReqs now s).hm.inReset = s.hm.inReset ∧ (failReqs now s).hm.held = s.hm.held ∧
    (failReqs now s).hm.out = s.hm.out :=
  ⟨forList_eq (fun v => v.hm.inReset) _ (f := fun t u => u.onHm (failReq now t)) (fun t u => (failReq_posts now t u.hm).1) s,
    forList_eq (fun v => v.hm.held) _ (f := fun t u => u.onHm (failReq now t)) (fun t u => (failReq_posts now t u.hm).2.1) s,
    forList_eq (fun v => v.hm.out) _ (f := fun t u => u.onHm (failReq now t)) (fun t u => (failReq_posts now t u.hm).2.2) s⟩

theorem warmDma_hm (s : State) : (warmDma s).hm.inReset = s.hm.inReset ∧ (warmDma s).hm.held = s.hm.held ∧
    (warmDma s).hm.out = s.hm.out := by
  have h1 : (forList (List.range 8) (fun k => State.updChan k chanWarm) s).hm = s.hm :=
    forList_eq (fun v => v.hm) _ (f := fun k => State.updChan k chanWarm) (fun _ _ => by rfl) s
  have h2 := failReqs_hm s.now (forList (List.range 8) (fun k => State.updChan k chanWarm) s)
  rw [warmDma_eq, State.onHm_hm, ← h1]
  generalize failReqs s.now (forList (List.range 8) (fun k => State.updChan k chanWarm) s) = u at h2 ⊢
  exact h2

theorem warmFlushed_posted (cause : Nat) (s : State) : Posted s (warmFlushed cause s) := by
  have h1 : Posted s (warmMark cause s) := (warmMark_keeps s cause).posted rfl
  have h2 : Posted s (warmRecord cause (warmMark cause s)) := by
    unfold warmRecord
    exact (h1.trans ((State.drawn_keeps _).posted rfl)).trans (emit_posted ..)
  exact (h2.trans (warmHold_posted _)).trans (forList_posted _ (fun k u => ldgFlush_posted k u) _)

theorem warmMark_warmCnt (cause : Nat) (s : State) : (warmMark cause s).pwr.warmCnt = satInc 16 s.pwr.warmCnt := by
  simp only [warmMark, State.onFw_pwr, State.onPwr_pwr]

theorem warmClear_hm (s : State) : (warmClear s).hm = (warmDma (warmTrs (warmLoops s))).hm := by
  have g : Keeps [.tly, .fc, .clr, .fw] (warmDma (warmTrs (warmLoops s))) (warmClear s) :=
    (warmCores_keeps _).step (by decide) <| (clrDrop_keeps _).step (by decide) <| (warmFc_keeps _).step (by decide) <|
      (warmTly_keeps _).mono (by decide)
  exact g.hm_eq rfl

theorem warmReset_wrote (cause : Nat) (s : State) : Wrote s (warmReset cause s) := by
  have hv := (warmFlushed_posted cause s).wrote
  rw [warmReset_eq_flushed]
  generalize warmFlushed cause s = v at hv ⊢
  have hl : (warmTrs (warmLoops v)).hm = v.hm := ((warmTrs_keeps _).hm_eq rfl).trans ((warmLoops_keeps _).hm_eq rfl)
  obtain ⟨d1, d2, d3⟩ := warmDma_hm (warmTrs (warmLoops v))
  rw [hl, ← warmClear_hm] at d1 d2 d3
  exact hv.of_eq d1 d2 d3

end Warm

section WarmDesc
variable {s : State} {h : DescHdr} {key : Nat}

/-- A warm reset that a descriptor asks for: the descriptor completes, and then the block resets with the descriptor's cause. -/
theorem warmByDesc {c : Instr} {d : DescSpec} {body : State → DescOut} {u : State} {cause res : Nat}
    (hx : exec c s = act (fun t => warmAfter (runDesc h d body t)) s) (hr : Runs h d s)
    (hb : body (descBegin h.ctx.val s) = .done 0 res u) (hu : Between h.ctx.val (descBegin h.ctx.val s) u)
    (hw : u.pwr.wantWarm = some cause) :
    ∃ v t, exec c s = .next t ∧ t = warmReset cause v ∧ DescEnd h d.opcode 0 res s u v ∧ Completes h d.opcode 0 res s t := by
  obtain ⟨he, hc⟩ := runDesc_of_runs hr hb hu
  let v := completeOne h d.opcode 0 res u
  have hv : DescEnd h d.opcode 0 res s u v := ⟨hc, rfl, completeOne_keeps .., fun hk => completeOne_getCtx_ne _ _ _ _ _ hk⟩
  have hwv : v.pwr.wantWarm = some cause := (congrArg Power.wantWarm (hv.keeps.pwr_eq rfl)).trans hw
  refine ⟨v, warmReset cause v, hx.trans (act_eq hr.1 ?_), rfl, hv, hv.completes_wrote hu (descBegin_between ..) (warmReset_wrote cause v)⟩
  rw [he, warmAfter, hwv]

theorem warmResetDesc_effect (hr : Runs h descWarmReset s) (hw : s.pwr.wantWarm = none) :
    (key ≠ 0x57525354 → ∃ t, exec (.warmResetDesc h key) s = .next t ∧ Completes h 3 0x9009 0 s t ∧ Only [.hm, .hif] s t) ∧
    (key = 0x57525354 → ∃ t, exec (.warmResetDesc h key) s = .next t ∧ Completes h 3 0 0 s t ∧ t.pwr.cause = 3 ∧
      t.pwr.warmCnt = satInc 16 s.pwr.warmCnt ∧ t.fw.run = false ∧ t.pwr.emuReady = false ∧
      (∀ k, (t.getCtx k).st = 0) ∧ ∀ c ∈ s.clusters, (s.getClu c).st = 1 → (t.getClu c).st = 2) := by
  let b := descBegin h.ctx.val s
  have hkb : Keeps [.hif] s b := descBegin_keeps ..
  refine ⟨fun hk => ?_, fun hk => ?_⟩
  · have hb : bodyWarmReset key b = .fail 0x9009 b := if_pos hk
    obtain ⟨he, hc⟩ := runDesc_of_runs (d := descWarmReset) (body := bodyWarmReset key) hr hb (.refl ..)
    rw [resultOf_of_zero] at hc
    have hkc := completeOne_keeps h 3 0x9009 0 b
    have hx : exec (.warmResetDesc h key) s = act (fun t => warmAfter (runDesc h descWarmReset (bodyWarmReset key) t)) s := rfl
    refine ⟨_, hx.trans (act_eq hr.1 ((congrArg warmAfter he).trans (warmAfter_of_none ?_))), hc, Keeps.only (.step hkc (by decide)
      (hkb.mono (by decide)))⟩
    exact (congrArg Power.wantWarm ((hkc.pwr_eq rfl).trans (hkb.pwr_eq rfl))).trans hw
  · let u := b.onPwr fun p => { p with wantWarm := some 3 }
    have hb : bodyWarmReset key b = .done 0 0 u := if_neg (by simp [hk])
    obtain ⟨v, t, he, ht, hv, hc⟩ := warmByDesc (c := .warmResetDesc h key) (d := descWarmReset) rfl hr hb
      ((State.onPwr_keeps ..).between rfl rfl) rfl
    have hpwr : v.pwr = { s.pwr with wantWarm := some 3 } := by
      rw [hv.keeps.pwr_eq rfl, State.onPwr_pwr, hkb.pwr_eq rfl]
    have hclu : ∀ c, v.getClu c = s.getClu c := fun c => by
      rw [getClu_of_loop (hv.keeps.loop_eq rfl)]
      exact getClu_of_loop (hkb.loop_eq rfl) c
    refine ⟨t, he, hc, ?_, ?_, ?_, ?_, fun k => ?_, fun c hcl hst => ?_⟩
    · rw [ht, warmReset_pwr]; rfl
    · rw [ht, warmReset_pwr, warmMark_warmCnt, congrArg Power.warmCnt hpwr]
    · rw [ht, warmReset_run]
    · rw [ht, warmReset_pwr]; rfl
    · rw [ht]; rfl
    · have hp := warmReset_phase 3 v c
      have hcs : v.clusters = s.clusters := (hv.keeps.clusters_eq rfl).trans (hkb.clusters_eq rfl)
      rw [if_pos ⟨by rwa [hcs], by rwa [hclu]⟩] at hp
      have hst2 := congrArg Prod.fst hp
      simp only [Clu.phase] at hst2
      rw [ht, hst2]

end WarmDesc

/-- Settles O44: WARM_RESET and its key, CONTROL_START's refusals and its clusters, RAIL_CTRL's starts and stops, AM_BASELINE. -/
theorem controlStartsAndStops : Obligations.ControlStartsAndStops := by
  intro s h key m mons r x
  refine ⟨warmResetDesc_effect, controlStart_effect, fun hr => ⟨fun hn c hc => ?_, fun hn hden => ?_, railCtrlStart_effect hr, railCtrlStop_idle hr, railCtrlStop_effect hr⟩,
    amBaseline_effect⟩
  · have hno : ∀ {p : Prop} [Decidable p] {a b : DescOut}, (if !railsNamed (descBegin h.ctx.val s) r.val then a else b) = a := by
      intro p _ a b
      exact if_pos (by rw [show railsNamed (descBegin h.ctx.val s) r.val = railsNamed s r.val from rfl, hn]; rfl)
    rcases hc with rfl | rfl
    · exact refused_of_fail (body := railCtrlStart r.val) rfl hr (hno (p := True))
    · exact refused_of_fail (body := railCtrlStop r.val) rfl hr (hno (p := True))
  · refine refused_of_fail (body := railCtrlStart r.val) rfl hr ((if_neg ?_).trans (if_pos ?_))
    · rw [show railsNamed (descBegin h.ctx.val s) r.val = railsNamed s r.val from rfl, hn]; decide
    · obtain ⟨k, hk, hd⟩ := hden
      exact List.any_eq_true.mpr ⟨k, hk, hd⟩

end Sys2Proof.Machine
end

section
/-!
Programs, model sets and slot tables are installed, registered and removed by descriptor (R82, R221–R228, R248).
-/
namespace Sys2Proof.Machine

section Wrote
variable {s t u : State} {w : HmWrite}

theorem Wrote.keeps {ps : List Area} (h : Wrote s t) (g : Keeps ps t u) (hm : ps.contains .hm = false) : Wrote s u :=
  h.of_eq (congrArg HmPort.inReset (g.hm_eq hm)) (congrArg HmPort.held (g.hm_eq hm)) (congrArg HmPort.out (g.hm_eq hm))

theorem Wrote.refl (s : State) : Wrote s s := (Posted.refl s).wrote

/-- A write posted after others have been is posted. -/
theorem Wrote.posts (h : Wrote s u) (g : Posting w u t) : Posts w s t := by
  obtain ⟨ws, h1, h2, h3⟩ := h
  obtain ⟨a, b, g⟩ := g
  have hmode : (u.hm.inReset || !u.hm.held.isEmpty) = (s.hm.inReset || !s.hm.held.isEmpty) := by
    rw [h1, h2]
    unfold HmPort.post
    split
    · next hc =>
      rw [hc]
      rcases Bool.or_eq_true_iff.mp hc with hc | hc
      · rw [hc]; rfl
      · have hne : s.hm.held ≠ [] := fun e => by simp [e] at hc
        simp [hne]
    · rfl
  unfold Posts
  rw [g]
  unfold HmPort.post at h2 h3 ⊢
  rw [hmode]
  split
  · next hc => rw [if_pos hc] at h2; exact ⟨ws ++ a, b, by simp [h2]⟩
  · next hc => rw [if_neg hc] at h3; exact ⟨ws ++ a, b, by simp [h3]⟩

/-- The command of a descriptor whose body ends at once and gives up requests at most. -/
theorem exec_of_done_wrote {h : DescHdr} {d : DescSpec} {body : State → DescOut} {st res : Nat} {c : Instr}
    (hx : exec c s = act (runDesc h d body) s) (hr : Runs h d s) (hb : body (descBegin h.ctx.val s) = .done st res u)
    (hw : Wrote (descBegin h.ctx.val s) u) (hn : NoClose h.ctx.val (descBegin h.ctx.val s) → NoClose h.ctx.val u) :
    ∃ t, exec c s = .next t ∧ DescEnd h d.opcode st res s u t := by
  obtain ⟨hl, hmay, hin, hchk, hclose⟩ := hr
  have hbet : Between h.ctx.val s (descBegin h.ctx.val s) := descBegin_between ..
  obtain ⟨adr, e, b, hhm, h1, h2, h3, h4, h5⟩ := completeOne_hm h d.opcode st res u
  have hws : Wrote s u := by
    obtain ⟨ws, w1, w2, w3⟩ := hw
    have hbm : (descBegin h.ctx.val s).hm = s.hm := (descBegin_keeps ..).hm_eq rfl
    rw [hbm] at w1 w2 w3
    exact ⟨ws, w1, w2, w3⟩
  exact ⟨_, hx.trans (act_eq hl ((runDesc_done hmay hin hchk hb).trans (complete_of_noClose _ _ _ (hn (hbet.noClose hclose))))),
    ⟨adr, e, hws.posts ⟨[], b, hhm⟩, h1, h2, h3, h4, h5⟩, rfl, completeOne_keeps .., fun hk => completeOne_getCtx_ne _ _ _ _ _ hk⟩

/-- A request whose answer is to be dropped. -/
def dropReq (p : HmPurpose → Bool) (tag : Nat) (h : HmPort) : HmPort :=
  match Tbl.get none h.reqs tag with
  | some r => if p r.purpose then { h with reqs := Tbl.set none h.reqs tag (some { r with purpose := .dropped r.purpose.chan }) } else h
  | none => h

theorem dropReq_posts (p : HmPurpose → Bool) (tag : Nat) (h : HmPort) : (dropReq p tag h).inReset = h.inReset ∧
    (dropReq p tag h).held = h.held ∧ (dropReq p tag h).out = h.out := by
  unfold dropReq
  split
  · split <;> exact ⟨rfl, rfl, rfl⟩
  · exact ⟨rfl, rfl, rfl⟩

theorem hmDrop_eq (p : HmPurpose → Bool) (s : State) : hmDrop p s = forList (List.range 32) (fun t u => u.onHm (dropReq p t))
    (s.onHm fun h => { h with waiting := h.waiting.filter fun r => !p r.purpose }) := rfl

theorem hmDrop_wrote (p : HmPurpose → Bool) (s : State) : Wrote s (hmDrop p s) := by
  rw [hmDrop_eq]
  refine (Wrote.refl s).of_eq ?_ ?_ ?_
  · exact forList_eq (fun v => v.hm.inReset) _ (f := fun t u => u.onHm (dropReq p t)) (fun t u => (dropReq_posts p t u.hm).1) _
  · exact forList_eq (fun v => v.hm.held) _ (f := fun t u => u.onHm (dropReq p t)) (fun t u => (dropReq_posts p t u.hm).2.1) _
  · exact forList_eq (fun v => v.hm.out) _ (f := fun t u => u.onHm (dropReq p t)) (fun t u => (dropReq_posts p t u.hm).2.2) _

end Wrote

section Progs
variable {s : State} {p q k : Nat} {b : List Nat} {conf : Bool} {old : Option Nat}

theorem descBegin_getProg (c k : Nat) (s : State) : (descBegin c s).getProg k = s.getProg k :=
  getProg_of_tly ((descBegin_keeps c s).tly_eq rfl) k

theorem descBegin_getSet (c k : Nat) (s : State) : (descBegin c s).getSet k = s.getSet k :=
  getSet_of_tly ((descBegin_keeps c s).tly_eq rfl) k

theorem emitTly_getProg (code p0 p1 p2 p3 k : Nat) (s : State) : (emitTly code p0 p1 p2 p3 s).getProg k = s.getProg k :=
  getProg_of_tly ((emitTly_keeps ..).tly_eq rfl) k

theorem progFree_getProg : (progFree p s).getProg p = {} := by
  unfold progFree
  extract_lets x s1
  have h1 : s1.getProg p = {} := State.getProg_updProg ..
  split
  · rw [emitTly_getProg, h1]
  · exact h1

theorem progFree_getProg_ne (h : k ≠ p) : (progFree p s).getProg k = s.getProg k := by
  unfold progFree
  extract_lets x s1
  have h1 : s1.getProg k = s.getProg k := State.getProg_updProg_ne _ _ _ h
  split
  · rw [emitTly_getProg, h1]
  · exact h1

theorem progFree_between (c : Nat) (s : State) : Between c s (progFree p s) := by
  unfold progFree
  extract_lets x s1
  have h1 : Between c s s1 := (State.updProg_keeps ..).between rfl rfl
  exact .ite (h1.emit ..) h1

theorem progFree_logs (hi : (s.getProg p).installed = true) {r : State} {ps : List Area} (h : Keeps ps r s) (hl : Area.ldg ∉ ps)
    (hn : Area.now ∉ ps) (ht : Area.tb ∉ ps) (hq : Area.queues ∉ ps) (hroom : QRoom 0x35 r) :
    Logs 0x35 0x4011 (s.getProg p).id p 0 0 r (progFree p s) := by
  have he : progFree p s = emitTly 0x4011 (s.getProg p).id p 0 0 (s.updProg p fun _ => {}) := if_pos hi
  rw [he]
  refine emit_logs_after (ps := .tly :: ps) (.step (State.updProg_keeps ..) (List.cons_subset_cons _ (List.nil_subset ps)) (h.mono (List.subset_cons_self ..)))
    ?_ ?_ ?_ ?_ hroom <;> simp_all

/-- The entry of an image that has been put in place (Table 8.4). -/
structure Holds (b : List Nat) (x : TlyProg) : Prop where
  installed : x.installed = true
  id : x.id = (tlyImg b).id
  ver : x.ver = (tlyImg b).ver
  cls : x.cls = (tlyImg b).cls
  cost : x.cost = (tlyImg b).cost
  instrs : x.instrs = (tlyImg b).instrs
  binds : x.binds = (tlyImg b).binds

theorem Holds.replaces {x : TlyProg} (h : Holds b x) (r : Option Nat) : Holds b { x with replaces := r } :=
  ⟨h.installed, h.id, h.ver, h.cls, h.cost, h.instrs, h.binds⟩

theorem progStore_holds (s : State) : Holds b ((progStore p conf b old s).getProg p) := by
  unfold progStore
  extract_lets g base s1
  rw [emitTly_getProg, State.getProg_updProg]
  exact ⟨rfl, rfl, rfl, rfl, rfl, rfl, rfl⟩

theorem progStore_getProg_ne (h : k ≠ p) (s : State) : (progStore p conf b old s).getProg k = s.getProg k := by
  unfold progStore
  extract_lets g base s1
  rw [emitTly_getProg, State.getProg_updProg_ne _ _ _ h]
  rfl

theorem progStore_between (c : Nat) (s : State) : Between c s (progStore p conf b old s) := by
  unfold progStore
  extract_lets g base s1
  have h1 : Between c s s1 := (State.onTly_keeps ..).between rfl rfl
  exact (h1.keeps (State.updProg_keeps ..) rfl rfl).emit ..

theorem tableLoad_getProg (tab : List SlotEntry) (s : State) : (tableLoad tab s).getProg k = s.getProg k := rfl

/-- A replacement leaves every entry but its own and the old program's as it is, and of its own only which it replaces. -/
theorem progSwap_entries (h : q ≠ p) (hb : Holds b (s.getProg p)) : Holds b ((progSwap q p s).getProg p) ∧
    (∀ k, k ≠ p → k ≠ q → (progSwap q p s).getProg k = s.getProg k) := by
  have hfree : Holds b (((progFree q s).updProg p fun x => { x with replaces := none }).getProg p) ∧
      ∀ k, k ≠ p → k ≠ q → ((progFree q s).updProg p fun x => { x with replaces := none }).getProg k = s.getProg k := by
    refine ⟨?_, fun k hkp hkq => ?_⟩
    · rw [State.getProg_updProg, progFree_getProg_ne (Ne.symm h)]
      exact hb.replaces none
    · rw [State.getProg_updProg_ne _ _ _ hkp, progFree_getProg_ne hkq]
  unfold progSwap
  split
  · exact hfree
  · split
    · exact hfree
    · dsimp only
      split
      · exact ⟨hb, fun _ _ _ => rfl⟩
      · exact ⟨hb, fun _ _ _ => rfl⟩

theorem progSwap_between (c : Nat) (s : State) : Between c s (progSwap q p s) := by
  have hfree : Between c s ((progFree q s).updProg p fun x => { x with replaces := none }) :=
    (progFree_between c s).keeps (State.updProg_keeps ..) rfl rfl
  unfold progSwap
  split
  · exact hfree
  · split
    · exact hfree
    · dsimp only
      split
      · exact (tableLoad_keeps ..).between rfl rfl
      · exact .refl ..

theorem replacedBy_used {i : Nat} (h : s.replacedBy i = some q) : (s.getProg q).installed = true ∨ (s.getProg q).failed = true := by
  have hm := List.mem_of_head? h
  have hm := (List.mem_filter.mp (List.mem_filter.mp hm).1).2
  exact Bool.or_eq_true_iff.mp hm

end Progs

section Install
variable {s : State} {h : DescHdr} {o : Buf} {x : Ext}

/-- The image replaces a program that a loop in AUTOMATIC uses (R248). -/
def imgInUse (b : List Nat) (s : State) : Prop := ∃ q, s.replacedBy (tlyImg b).id = some q ∧ s.loopsAuto q = true

theorem tlyInstall_of_use {b : List Nat} (hu : imgInUse b s) : tlyInstall b s = (0x5001, 0, s) := by
  obtain ⟨q, hq, ha⟩ := hu
  unfold tlyInstall
  extract_lets g old
  exact if_pos (by rw [show old = some q from hq]; exact ha)

/-- The entries that TLY_INSTALL may use, in their order. -/
def freeProgs (s : State) : List Nat := (List.range 128).filter fun p => !(s.getProg p).installed && !(s.getProg p).failed

/-- The state with the image in entry `p`, and the program that it replaces given up. -/
def progPut (p : Nat) (b : List Nat) (s : State) : State :=
  match s.replacedBy (tlyImg b).id with
  | some q => progSwap q p (progStore p false b (s.replacedBy (tlyImg b).id) s)
  | none => progStore p false b (s.replacedBy (tlyImg b).id) s

/-- What follows once no loop in AUTOMATIC uses the program that the image replaces. -/
def tlyInstallRest (b : List Nat) (s : State) : Nat × Nat × State :=
  if imgCheck b s ≠ 0 then (imgCheck b s, 0, s)
  else match (freeProgs s).head? with
    | none => (0x4008, 0, s)
    | some p => (0, p, progPut p b s)

theorem tlyInstall_of_free {b : List Nat} (hu : ∀ q, s.replacedBy (tlyImg b).id = some q → s.loopsAuto q = false) :
    tlyInstall b s = tlyInstallRest b s := by
  refine if_neg ?_
  split
  · next q hq => rw [hu q hq]; decide
  · decide

theorem freeProgs_none (hfull : ∀ k < 128, (s.getProg k).installed = true ∨ (s.getProg k).failed = true) : (freeProgs s).head? = none := by
  rw [List.head?_eq_none_iff, freeProgs, List.filter_eq_nil_iff]
  intro k hk
  rcases hfull k (List.mem_range.mp hk) with h | h <;> simp [h]

theorem freeProgs_head {p : Nat} (hp : p < 128) (h1 : (s.getProg p).installed = false) (h2 : (s.getProg p).failed = false)
    (hlow : ∀ k < p, (s.getProg k).installed = true ∨ (s.getProg k).failed = true) : (freeProgs s).head? = some p := by
  rw [freeProgs, List.head?_filter, List.find?_range_eq_some]
  refine ⟨by simp [h1, h2], List.mem_range.mpr hp, fun k hk => ?_⟩
  rcases hlow k hk with h | h <;> simp [h]

theorem progPut_entries {b : List Nat} {p : Nat} (h1 : (s.getProg p).installed = false) (h2 : (s.getProg p).failed = false) :
    Holds b ((progPut p b s).getProg p) ∧
      (∀ k, k ≠ p → s.replacedBy (tlyImg b).id ≠ some k → (progPut p b s).getProg k = s.getProg k) := by
  unfold progPut
  split
  · next q hq =>
    have hne : q ≠ p := by
      rintro rfl
      rcases replacedBy_used hq with h | h
      · rw [h1] at h; exact absurd h (by decide)
      · rw [h2] at h; exact absurd h (by decide)
    obtain ⟨hh, hk⟩ := progSwap_entries hne (progStore_holds (p := p) (b := b) (conf := false) (old := s.replacedBy (tlyImg b).id) s)
    exact ⟨hh, fun k hkp hkq => (hk k hkp fun e => hkq (e ▸ hq)).trans (progStore_getProg_ne hkp s)⟩
  · exact ⟨progStore_holds s, fun k hkp _ => progStore_getProg_ne hkp s⟩

theorem progPut_between (c p : Nat) (b : List Nat) (s : State) : Between c s (progPut p b s) := by
  unfold progPut
  split
  · exact (progStore_between c s).trans (progSwap_between c _)
  · exact progStore_between c s

theorem progPut_keeps (p : Nat) (b : List Nat) (s : State) : Keeps [.frm, .hm, .hif, .ldg, .tly] s (progPut p b s) := by
  unfold progPut
  split
  · exact .step (progSwap_keeps ..) (by decide) ((progStore_keeps ..).mono (by decide))
  · exact (progStore_keeps ..).mono (by decide)

theorem progPut_frm {p : Nat} {b : List Nat} (h : s.replacedBy (tlyImg b).id = none) : (progPut p b s).frm = s.frm := by
  unfold progPut
  rw [h]
  exact (progStore_keeps ..).frm_eq rfl

theorem bodyTlyInstall_of_read {b : List Nat} (hv : s.vaultRes = 0) (hb : Ext.read x o.len = some b) :
    bodyTlyInstall o x s = .done (tlyInstall b s).1 (tlyInstall b s).2.1 (tlyInstall b s).2.2 := by
  unfold bodyTlyInstall withVault withData
  rw [if_neg (not_not.mpr hv), hb]

theorem tlyInstall_effect (hr : Runs h (descTlyInstall o) s) :
    (s.vaultRes ≠ 0 → ∃ t, exec (.tlyInstall h o x) s = .next t ∧ Completes h 0x30 s.vaultRes 0 s t ∧ Only [.hm, .hif] s t) ∧
    (s.vaultRes = 0 → Ext.read x o.len = none → ∃ t, exec (.tlyInstall h o x) s = .next t ∧
      Completes h 0x30 0x9006 0 s t ∧ Only [.hm, .hif] s t) ∧
    (∀ d, s.vaultRes = 0 → Ext.read x o.len = some d →
      (imgInUse d s → ∃ t, exec (.tlyInstall h o x) s = .next t ∧ Completes h 0x30 0x5001 0 s t ∧ Only [.hm, .hif] s t) ∧
      ((∀ q, s.replacedBy (tlyImg d).id = some q → s.loopsAuto q = false) →
        (imgCheck d (descBegin h.ctx.val s) ≠ 0 → ∃ t, exec (.tlyInstall h o x) s = .next t ∧
          Completes h 0x30 (imgCheck d (descBegin h.ctx.val s)) 0 s t ∧ Only [.hm, .hif] s t) ∧
        (imgCheck d (descBegin h.ctx.val s) = 0 → (∀ k < 128, (s.getProg k).installed = true ∨ (s.getProg k).failed = true) →
          ∃ t, exec (.tlyInstall h o x) s = .next t ∧ Completes h 0x30 0x4008 0 s t ∧ Only [.hm, .hif] s t) ∧
        (∀ p, imgCheck d (descBegin h.ctx.val s) = 0 → p < 128 → (s.getProg p).installed = false → (s.getProg p).failed = false →
          (∀ k < p, (s.getProg k).installed = true ∨ (s.getProg k).failed = true) →
          ∃ t, exec (.tlyInstall h o x) s = .next t ∧ Completes h 0x30 0 p s t ∧ Holds d (t.getProg p) ∧
            (∀ k, k ≠ p → s.replacedBy (tlyImg d).id ≠ some k → t.getProg k = s.getProg k) ∧
            (s.replacedBy (tlyImg d).id = none → t.frm = s.frm) ∧ Only [.frm, .hm, .hif, .ldg, .tly] s t))) := by
  have hx : exec (.tlyInstall h o x) s = act (runDesc h (descTlyInstall o) (bodyTlyInstall o x)) s := rfl
  let b := descBegin h.ctx.val s
  have hkb : Keeps [.hif] s b := descBegin_keeps ..
  have hv : b.vaultRes = s.vaultRes := rfl
  have hrep : ∀ i, b.replacedBy i = s.replacedBy i := fun _ => rfl
  have hauto : ∀ q, b.loopsAuto q = s.loopsAuto q := fun _ => rfl
  have hget : ∀ k, b.getProg k = s.getProg k := fun k => descBegin_getProg ..
  refine ⟨fun h0 => refused_of_fail hx hr (if_pos (by rw [hv]; exact h0)), fun h0 hn => refused_of_fail hx hr ?_, fun d h0 hd => ?_⟩
  · unfold bodyTlyInstall withVault withData
    rw [if_neg (not_not.mpr (hv.trans h0)), hn]
  · have hbody := bodyTlyInstall_of_read (o := o) (x := x) (hv.trans h0) hd
    refine ⟨fun hu => refused_of_fail hx hr ?_, fun hu => ?_⟩
    · rw [hbody, tlyInstall_of_use (s := b) hu]; rfl
    · have hrest : tlyInstall d b = tlyInstallRest d b := tlyInstall_of_free (by simpa only [hrep, hauto] using hu)
      rw [hrest] at hbody
      refine ⟨fun hc => refused_of_fail hx hr ?_, fun hc hfull => refused_of_fail hx hr ?_, fun p hc hp h1 h2 hlow => ?_⟩
      · rw [hbody, tlyInstallRest, if_pos hc]; rfl
      · rw [hbody, tlyInstallRest, if_neg (not_not.mpr hc), freeProgs_none (by simpa only [hget] using hfull)]; rfl
      · rw [tlyInstallRest, if_neg (not_not.mpr hc), freeProgs_head hp (by rwa [hget]) (by rwa [hget])
          (by simpa only [hget] using hlow)] at hbody
        obtain ⟨t, he, ht⟩ := exec_of_done hx hr hbody (progPut_between _ p d b)
        obtain ⟨hh, hk⟩ := progPut_entries (s := b) (b := d) (p := p) (by rwa [hget]) (by rwa [hget])
        have hp' : ∀ k, t.getProg k = (progPut p d b).getProg k := getProg_of_tly (ht.keeps.tly_eq rfl)
        refine ⟨t, he, ht.completes, by rw [hp']; exact hh, fun k hkp hkq => ?_, fun hnone => ?_, Keeps.only (.step ht.keeps (by decide)
          (.step (progPut_keeps ..) (by decide) (hkb.mono (by decide))))⟩
        · rw [hp', hk k hkp (by rwa [hrep]), hget]
        · rw [ht.keeps.frm_eq rfl, progPut_frm (by rwa [hrep]), hkb.frm_eq rfl]

theorem tlyRemove_effect {p : Nat} (hr : Runs h descTlyRemove s) :
    (128 ≤ p ∨ (s.getProg p).installed = false → ∃ t, exec (.tlyRemove h p) s = .next t ∧ Completes h 0x31 0x9009 0 s t ∧
      Only [.hm, .hif] s t) ∧
    (p < 128 → (s.getProg p).installed = true →
      (s.loopsAuto p = true → ∃ t, exec (.tlyRemove h p) s = .next t ∧ Completes h 0x31 0x5001 0 s t ∧ Only [.hm, .hif] s t) ∧
      (s.loopsAuto p = false → scheduled s.slots p = true ∨ scheduled (s.frm.nextTable.getD []) p = true →
        ∃ t, exec (.tlyRemove h p) s = .next t ∧ Completes h 0x31 0x400A 0 s t ∧ Only [.hm, .hif] s t) ∧
      (s.loopsAuto p = false → scheduled s.slots p = false → scheduled (s.frm.nextTable.getD []) p = false →
        ∃ t, exec (.tlyRemove h p) s = .next t ∧ Completes h 0x31 0 0 s t ∧ t.getProg p = {} ∧
          (∀ k, k ≠ p → t.getProg k = s.getProg k) ∧
          (QRoom 0x35 s → Logs 0x35 0x4011 (s.getProg p).id p 0 0 s t) ∧ Only [.hm, .hif, .ldg, .tly] s t)) := by
  have hx : exec (.tlyRemove h p) s = act (runDesc h descTlyRemove (bodyTlyRemove p)) s := rfl
  let b := descBegin h.ctx.val s
  have hkb : Keeps [.hif] s b := descBegin_keeps ..
  have hget : ∀ k, b.getProg k = s.getProg k := fun k => descBegin_getProg ..
  have hauto : b.loopsAuto p = s.loopsAuto p := rfl
  have hslots : scheduled b.slots p = scheduled s.slots p := rfl
  have hnext : scheduled (b.frm.nextTable.getD []) p = scheduled (s.frm.nextTable.getD []) p := rfl
  have hbody : p < 128 → bodyTlyRemove p b = .done (tlyRemove p b).1 0 (tlyRemove p b).2 := fun hp => if_neg (by omega)
  refine ⟨fun hno => refused_of_fail hx hr ?_, fun hp hi => ⟨fun ha => refused_of_fail hx hr ?_, fun ha hs => refused_of_fail hx hr ?_,
    fun ha hs hn => ?_⟩⟩
  · by_cases hp : 128 ≤ p
    · exact if_pos hp
    · have hi := hno.resolve_left hp
      rw [hbody (by omega), tlyRemove, if_pos (by rw [hget, hi]; rfl)]
      rfl
  · rw [hbody hp, tlyRemove, if_neg (by rw [hget, hi]; decide), if_pos (by rw [hauto, ha])]
    rfl
  · rw [hbody hp, tlyRemove, if_neg (by rw [hget, hi]; decide), if_neg (by rw [hauto, ha]; decide),
      if_pos (by rw [hslots, hnext, Bool.or_eq_true]; exact hs)]
    rfl
  · have hd : bodyTlyRemove p b = .done 0 0 (progFree p b) := by
      rw [hbody hp, tlyRemove, if_neg (by rw [hget, hi]; decide), if_neg (by rw [hauto, ha]; decide),
        if_neg (by rw [hslots, hnext, hs, hn]; decide)]
    obtain ⟨t, he, ht⟩ := exec_of_done hx hr hd (progFree_between ..)
    have hp' : ∀ k, t.getProg k = (progFree p b).getProg k := getProg_of_tly (ht.keeps.tly_eq rfl)
    refine ⟨t, he, ht.completes, by rw [hp', progFree_getProg], fun k hk => by rw [hp', progFree_getProg_ne hk, hget], fun hroom => ?_,
      Keeps.only (.step ht.keeps (by decide) (.step (progFree_keeps ..) (by decide) (hkb.mono (by decide))))⟩
    have hl := progFree_logs (s := b) (p := p) (by rw [hget, hi]) hkb (by decide) (by decide) (by decide) (by decide) hroom
    rw [hget] at hl
    exact hl.before ht.keeps.only (by decide)

end Install

section Sets
variable {s : State} {k : Nat}

/-- The end of the paging of set `k`, if it is under way (Table 8.10). -/
def pageGone (k : Nat) (s : State) : State := if (s.tly.page.any fun p => p.set = k) then pageEnd 0 0 s else s

theorem pageEnd_zero (s : State) : pageEnd 0 0 s = s ∨ ∃ p, s.tly.page = some p ∧
    pageEnd 0 0 s = (hmDrop (HmPurpose.ofSet p.set) s).onTly fun t => { t with page := none } := by
  unfold pageEnd
  split
  · exact .inl rfl
  · next p hp => exact .inr ⟨p, hp, rfl⟩

theorem pageGone_cases (k : Nat) (s : State) : pageGone k s = s ∨ ∃ p, s.tly.page = some p ∧
    pageGone k s = (hmDrop (HmPurpose.ofSet p.set) s).onTly fun t => { t with page := none } := by
  unfold pageGone
  split
  · exact pageEnd_zero s
  · exact .inl rfl

/-- The end of a paging changes no set, and gives up its reads. -/
theorem pageGone_spec (k : Nat) (s : State) : Wrote s (pageGone k s) ∧ Keeps [.hm, .tly] s (pageGone k s) ∧
    ∀ j, (pageGone k s).getSet j = s.getSet j := by
  rcases pageGone_cases k s with h | ⟨p, -, h⟩
  · rw [h]; exact ⟨.refl s, .refl .., fun _ => rfl⟩
  · rw [h]
    refine ⟨(hmDrop_wrote ..).keeps (State.onTly_keeps ..) rfl, .step (State.onTly_keeps ..) (by decide) ((hmDrop_keeps ..).mono (by decide)), fun j => ?_⟩
    rw [State.getSet, State.onTly_tly, (hmDrop_keeps ..).tly_eq rfl, State.getSet]

end Sets

section SetDesc
variable {s : State} {h : DescHdr} {k : Nat} {x : Ext}

/-- A descriptor that sets one model set, with the end of its paging. -/
theorem setChanged {c : Instr} {d : DescSpec} {body : State → DescOut} {f : TlySet → TlySet}
    (hx : exec c s = act (runDesc h d body) s) (hr : Runs h d s)
    (hb : body (descBegin h.ctx.val s) = .done 0 0 ((pageGone k (descBegin h.ctx.val s)).updSet k f)) :
    ∃ t, exec c s = .next t ∧ Completes h d.opcode 0 0 s t ∧ t.getSet k = f (s.getSet k) ∧
      (∀ j, j ≠ k → t.getSet j = s.getSet j) ∧ Only [.hm, .hif, .tly] s t := by
  let b := descBegin h.ctx.val s
  have hkb : Keeps [.hif] s b := descBegin_keeps ..
  obtain ⟨hw, hk, hg⟩ := pageGone_spec k b
  have hku : Keeps [.hm, .tly] b ((pageGone k b).updSet k f) := .step (State.updSet_keeps ..) (by decide) hk
  obtain ⟨t, he, ht⟩ := exec_of_done_wrote hx hr hb (hw.keeps (State.updSet_keeps ..) rfl) fun hn => by
    rw [NoClose, getCtx_of_hif (hku.hif_eq rfl)]; exact hn
  have hset : ∀ j, t.getSet j = ((pageGone k b).updSet k f).getSet j := getSet_of_tly (ht.keeps.tly_eq rfl)
  refine ⟨t, he, ht.completes, ?_, fun j hj => ?_, Keeps.only (.step ht.keeps (by decide) (.step hku (by decide) (hkb.mono (by decide))))⟩
  · rw [hset, State.getSet_updSet, hg, descBegin_getSet]
  · rw [hset, State.getSet_updSet_ne _ _ _ hj, hg, descBegin_getSet]

/-- What the header of a set says of it (R228). -/
def setFrom (hdr page : Nat) (d : List Nat) (_ : TlySet) : TlySet :=
  { registered := true, id := fld d 8 4, ver := fld d 12 4, layout := fld d 16 4, npages := fld d 6 2,
    digest := Config.sha384 (d.take (64 + 48 * fld d 6 2 + 96)), hdrAddr := hdr, pageAddr := page }

/-- The form of a set's header (Table 8.9). -/
def setForm (d : List Nat) : Bool := fld d 0 4 = 0x534D4C54 && fld d 4 1 = 4 && zeros d 5 1 && zeros d 20 44

theorem setReg_eq (hdr page : Nat) (d : List Nat) (s : State) : setReg k hdr page d s =
    if !setForm d || !signedBy s.intKey d (64 + 48 * fld d 6 2 + 96) then (0x4001, s)
    else if fld d 6 2 = 0 ∨ s.cfg.tly.framePages < fld d 6 2 then (0x400D, s)
    else (0, (pageGone k s).updSet k (setFrom hdr page d)) := rfl

theorem bodyTlySetReg_of_read {hdr page : Nat} {d : List Nat} (hk : k < 64) (hv : s.vaultRes = 0)
    (hd : Ext.read x (160 + 48 * 65535) = some d) :
    bodyTlySetReg k hdr page x s = .done (setReg k hdr page d s).1 0 (setReg k hdr page d s).2 := by
  unfold bodyTlySetReg withVault withData
  rw [if_neg (by omega), if_neg (not_not.mpr hv), hd]

theorem tlySetReg_effect {hdr page : Nat} (hr : Runs h (descTlySetReg hdr page) s) :
    (64 ≤ k → ∃ t, exec (.tlySetReg h k hdr page x) s = .next t ∧ Completes h 0x32 0x400D 0 s t ∧ Only [.hm, .hif] s t) ∧
    (k < 64 → s.vaultRes = 0 → Ext.read x (160 + 48 * 65535) = none → ∃ t,
      exec (.tlySetReg h k hdr page x) s = .next t ∧ Completes h 0x32 0x9006 0 s t ∧ Only [.hm, .hif] s t) ∧
    (k < 64 → s.vaultRes ≠ 0 → ∃ t, exec (.tlySetReg h k hdr page x) s = .next t ∧ Completes h 0x32 s.vaultRes 0 s t ∧
      Only [.hm, .hif] s t) ∧
    (∀ d, k < 64 → s.vaultRes = 0 → Ext.read x (160 + 48 * 65535) = some d →
      (signedBy s.intKey d (64 + 48 * fld d 6 2 + 96) = false ∨ setForm d = false →
        ∃ t, exec (.tlySetReg h k hdr page x) s = .next t ∧ Completes h 0x32 0x4001 0 s t ∧ Only [.hm, .hif] s t) ∧
      (signedBy s.intKey d (64 + 48 * fld d 6 2 + 96) = true → setForm d = true →
        (fld d 6 2 = 0 ∨ s.cfg.tly.framePages < fld d 6 2 → ∃ t,
          exec (.tlySetReg h k hdr page x) s = .next t ∧ Completes h 0x32 0x400D 0 s t ∧ Only [.hm, .hif] s t) ∧
        (0 < fld d 6 2 → fld d 6 2 ≤ s.cfg.tly.framePages → ∃ t, exec (.tlySetReg h k hdr page x) s = .next t ∧
          Completes h 0x32 0 0 s t ∧ t.getSet k = setFrom hdr page d (s.getSet k) ∧ (∀ j, j ≠ k → t.getSet j = s.getSet j) ∧
          Only [.hm, .hif, .tly] s t))) := by
  have hx : exec (.tlySetReg h k hdr page x) s = act (runDesc h (descTlySetReg hdr page) (bodyTlySetReg k hdr page x)) s := rfl
  let b := descBegin h.ctx.val s
  have hv : b.vaultRes = s.vaultRes := rfl
  have hkey : b.intKey = s.intKey := rfl
  have hcfg : b.cfg = s.cfg := rfl
  refine ⟨fun hk => refused_of_fail hx hr (if_pos hk), fun hk h0 hn => refused_of_fail hx hr ?_, fun hk h0 => refused_of_fail hx hr ?_,
    fun d hk h0 hd => ?_⟩
  · unfold bodyTlySetReg withVault withData
    rw [if_neg (by omega), if_neg (not_not.mpr (hv.trans h0)), hn]
  · unfold bodyTlySetReg withVault
    rw [if_neg (by omega), if_pos (by rwa [hv]), hv]
  · have hbody := bodyTlySetReg_of_read (hdr := hdr) (page := page) hk (hv.trans h0) hd
    rw [setReg_eq, hkey, hcfg] at hbody
    refine ⟨fun hno => refused_of_fail hx hr ?_, fun hs hf => ⟨fun hno => refused_of_fail hx hr ?_, fun hlo hhi => setChanged hx hr ?_⟩⟩
    · rw [hbody, if_pos (by rcases hno with h | h <;> simp [h])]; rfl
    · rw [hbody, if_neg (by simp [hs, hf]), if_pos hno]; rfl
    · rw [hbody, if_neg (by simp [hs, hf]), if_neg (by omega)]

theorem tlySetRemove_effect (hr : Runs h descTlySetRemove s) :
    (64 ≤ k ∨ (s.getSet k).registered = false → ∃ t, exec (.tlySetRemove h k) s = .next t ∧
      Completes h 0x33 0x9009 0 s t ∧ Only [.hm, .hif] s t) ∧
    (k < 64 → (s.getSet k).registered = true → 0 < s.setRefs k → ∃ t, exec (.tlySetRemove h k) s = .next t ∧
      Completes h 0x33 0x400A 0 s t ∧ Only [.hm, .hif] s t) ∧
    (k < 64 → (s.getSet k).registered = true → s.setRefs k = 0 → ∃ t, exec (.tlySetRemove h k) s = .next t ∧
      Completes h 0x33 0 0 s t ∧ t.getSet k = {} ∧ (∀ j, j ≠ k → t.getSet j = s.getSet j) ∧ Only [.hm, .hif, .tly] s t) := by
  have hx : exec (.tlySetRemove h k) s = act (runDesc h descTlySetRemove (bodyTlySetRemove k)) s := rfl
  let b := descBegin h.ctx.val s
  have hget : b.getSet k = s.getSet k := descBegin_getSet ..
  have hrefs : b.setRefs k = s.setRefs k := rfl
  have hbody : k < 64 → bodyTlySetRemove k b = .done (setRemove k b).1 0 (setRemove k b).2 := fun hk => if_neg (by omega)
  refine ⟨fun hno => refused_of_fail hx hr ?_, fun hk hg h0 => refused_of_fail hx hr ?_, fun hk hg h0 =>
    setChanged (f := fun _ => {}) hx hr ?_⟩
  · by_cases hk : 64 ≤ k
    · exact if_pos hk
    · have hg := hno.resolve_left hk
      rw [hbody (by omega), setRemove, if_pos (by rw [hget, hg]; rfl)]
      rfl
  · rw [hbody hk, setRemove, if_neg (by rw [hget, hg]; decide), if_pos (by rwa [hrefs])]
    rfl
  · rw [hbody hk, setRemove, if_neg (by rw [hget, hg]; decide), if_neg (by rw [hrefs, h0]; decide)]
    rfl

theorem slotTable_effect {a n : Nat} (hr : Runs h (descSlotTable a n) s) :
    (n = 0 ∨ 256 < n → ∃ t, exec (.slotTable h a n x) s = .next t ∧ Completes h 0x34 0x9009 0 s t ∧ Only [.hm, .hif] s t) ∧
    (0 < n → n ≤ 256 → s.vaultRes ≠ 0 → ∃ t, exec (.slotTable h a n x) s = .next t ∧
      Completes h 0x34 s.vaultRes 0 s t ∧ Only [.hm, .hif] s t) ∧
    (0 < n → n ≤ 256 → s.vaultRes = 0 → Ext.read x (16 * n + 96) = none → ∃ t,
      exec (.slotTable h a n x) s = .next t ∧ Completes h 0x34 0x9006 0 s t ∧ Only [.hm, .hif] s t) ∧
    (∀ d, 0 < n → n ≤ 256 → s.vaultRes = 0 → Ext.read x (16 * n + 96) = some d →
      let tab := (List.range n).map fun i => (slotOf d i).1
      (signedBy s.intKey d (16 * n + 96) = false → ∃ t, exec (.slotTable h a n x) s = .next t ∧
        Completes h 0x34 0x4001 0 s t ∧ Only [.hm, .hif] s t) ∧
      (signedBy s.intKey d (16 * n + 96) = true → (∃ i < n, (slotOf d i).2 = false) ∨ entriesOk false s tab = false ∨
          admitTable s tab = false → ∃ t, exec (.slotTable h a n x) s = .next t ∧ Completes h 0x34 0x400C 0 s t ∧
        Only [.hm, .hif] s t) ∧
      (signedBy s.intKey d (16 * n + 96) = true → (∀ i < n, (slotOf d i).2 = true) → entriesOk false s tab = true →
        admitTable s tab = true → ∃ t, exec (.slotTable h a n x) s = .next t ∧ Completes h 0x34 0 0 s t ∧
          t.frm.nextTable = some tab ∧ t.frm.table = s.frm.table ∧ Only [.frm, .hm, .hif, .tly] s t)) := by
  have hx : exec (.slotTable h a n x) s = act (runDesc h (descSlotTable a n) (bodySlotTable n x)) s := rfl
  let b := descBegin h.ctx.val s
  have hkb : Keeps [.hif] s b := descBegin_keeps ..
  have hv : b.vaultRes = s.vaultRes := rfl
  have hkey : b.intKey = s.intKey := rfl
  refine ⟨fun hn => refused_of_fail hx hr (if_pos hn), fun h1 h2 h0 => refused_of_fail hx hr ?_, fun h1 h2 h0 hn =>
    refused_of_fail hx hr ?_, fun d h1 h2 h0 hd => ?_⟩
  · unfold bodySlotTable withVault
    rw [if_neg (by omega), if_pos (by rwa [hv]), hv]
  · unfold bodySlotTable withVault withData
    rw [if_neg (by omega), if_neg (not_not.mpr (hv.trans h0)), hn]
  · intro tab
    have hmap : ((List.range n).map (slotOf d)).map Prod.fst = tab := List.map_map ..
    have hbody : bodySlotTable n x b = .done (slotTable n d b).1 0 (slotTable n d b).2 := by
      unfold bodySlotTable withVault withData
      rw [if_neg (by omega), if_neg (not_not.mpr (hv.trans h0)), hd]
    have hslot : slotTable n d b = if !signedBy s.intKey d (16 * n + 96) then (0x4001, b)
        else if !(((List.range n).map (slotOf d)).all Prod.snd) || !entriesOk false s tab || !admitTable s tab then (0x400C, b)
        else (0, tableLoad tab b) := by
      rw [← hmap]; rfl
    rw [hslot] at hbody
    refine ⟨fun hs => refused_of_fail hx hr ?_, fun hs hno => refused_of_fail hx hr ?_, fun hs hz he ha => ?_⟩
    · rw [hbody, if_pos (by rw [hs]; rfl)]; rfl
    · rw [hbody, if_neg (by rw [hs]; decide), if_pos]
      · rfl
      · rcases hno with ⟨i, hi, hz⟩ | he | ha
        · have hall : ((List.range n).map (slotOf d)).all Prod.snd = false :=
            List.all_eq_false.mpr ⟨slotOf d i, List.mem_map_of_mem (List.mem_range.mpr hi), by simp [hz]⟩
          rw [hall]; rfl
        · rw [he]; simp
        · rw [ha]; simp
    · have hall : ((List.range n).map (slotOf d)).all Prod.snd = true := by
        simp only [List.all_eq_true, List.mem_map, List.mem_range, forall_exists_index, and_imp, forall_apply_eq_imp_iff₂]
        exact hz
      rw [hall, he, ha, if_neg (by rw [hs]; decide), if_neg (by decide)] at hbody
      obtain ⟨t, he, ht⟩ := exec_of_done hx hr hbody ((tableLoad_keeps ..).between rfl rfl)
      refine ⟨t, he, ht.completes, ?_, ?_, Keeps.only (.step ht.keeps (by decide) (.step (tableLoad_keeps ..) (by decide)
        (hkb.mono (by decide))))⟩
      · rw [ht.keeps.frm_eq rfl]; rfl
      · rw [ht.keeps.frm_eq rfl]
        exact (congrArg Frames.table (hkb.frm_eq rfl) :)

end SetDesc

/-- Settles O45: what TLY_INSTALL, TLY_REMOVE, TLY_SET_REG, TLY_SET_REMOVE and SLOT_TABLE refuse and what they put in place. -/
theorem programsSetsAndTables : Obligations.ProgramsSetsAndTables := by
  refine ⟨fun s h o x p => ?_, fun s h k hdr page a n x => ?_⟩
  · intro b
    refine ⟨fun hr => ?_, tlyRemove_effect⟩
    obtain ⟨h1, h2, h3⟩ := tlyInstall_effect (x := x) hr
    refine ⟨h1, h2, fun d h0 hd => ?_⟩
    obtain ⟨g1, g2⟩ := h3 d h0 hd
    refine ⟨g1, fun hu => ?_⟩
    obtain ⟨g3, g4, g5⟩ := g2 hu
    refine ⟨g3, g4, fun hc hp i1 i2 hlow => ?_⟩
    obtain ⟨t, he, hcmp, hh, hk, hfrm, ho⟩ := g5 p hc hp i1 i2 hlow
    exact ⟨t, he, hcmp, hh.installed, hh.id, hh.ver, hh.cls, hh.cost, hh.instrs, hh.binds, hk, hfrm, ho⟩
  · refine ⟨fun hr => ?_, tlySetRemove_effect, slotTable_effect⟩
    obtain ⟨h1, h2, h3, h4⟩ := tlySetReg_effect (k := k) (x := x) hr
    refine ⟨h1, h2, h3, fun d hk h0 hd => ?_⟩
    intro sig fmt
    obtain ⟨g1, g2⟩ := h4 d hk h0 hd
    have hform : fmt ↔ setForm d = true := by simp only [fmt, setForm, Bool.and_eq_true, decide_eq_true_eq, and_assoc]
    refine ⟨fun hno => g1 (hno.imp id fun hf => by simpa [hform] using hf), fun hs hf hno => (g2 hs (hform.mp hf)).1 hno,
      fun hs hf hlo hhi => ?_⟩
    obtain ⟨t, he, hc, hset, hothers, ho⟩ := (g2 hs (hform.mp hf)).2 hlo hhi
    refine ⟨t, he, hc, ?_⟩
    rw [hset]
    exact ⟨rfl, rfl, rfl, rfl, rfl, rfl, rfl, rfl, hothers, ho⟩

end Sys2Proof.Machine
end

section
/-!
Loop coefficients, V/F tables and hint classes are loaded by descriptor (R239, R247, R255, R283).
-/
namespace Sys2Proof.Machine

section Fields
variable {v lo w f : Nat}

theorem setField_eq (v lo w f : Nat) : setField v lo w f = 2 ^ lo * (2 ^ w * (v / 2 ^ lo / 2 ^ w) + f % 2 ^ w) + v % 2 ^ lo := by
  have h1 := Nat.div_add_mod v (2 ^ lo)
  have h2 := Nat.div_add_mod (v / 2 ^ lo) (2 ^ w)
  unfold setField bits
  rw [Nat.mul_add, Nat.mul_comm (f % 2 ^ w), Nat.mul_comm (v / 2 ^ lo % 2 ^ w)]
  have h3 : 2 ^ lo * (v / 2 ^ lo) = 2 ^ lo * (2 ^ w * (v / 2 ^ lo / 2 ^ w)) + 2 ^ lo * (v / 2 ^ lo % 2 ^ w) := by
    rw [← Nat.mul_add, h2]
  omega

/-- Replacing a field replaces its bits and leaves the others. -/
theorem testBit_setField (i : Nat) : (setField v lo w f).testBit i =
    if lo ≤ i ∧ i < lo + w then f.testBit (i - lo) else v.testBit i := by
  rw [setField_eq, Nat.testBit_two_pow_mul_add _ (Nat.mod_lt _ (Nat.two_pow_pos lo))]
  by_cases h1 : i < lo
  · rw [if_pos h1, if_neg (by omega), Nat.testBit_mod_two_pow]
    simp [h1]
  · rw [if_neg h1, Nat.testBit_two_pow_mul_add _ (Nat.mod_lt _ (Nat.two_pow_pos w))]
    by_cases h2 : i - lo < w
    · rw [if_pos h2, if_pos (by omega), Nat.testBit_mod_two_pow]
      simp [h2]
    · rw [if_neg h2, if_neg (by omega), ← Nat.shiftRight_eq_div_pow, ← Nat.shiftRight_eq_div_pow, Nat.testBit_shiftRight,
        Nat.testBit_shiftRight]
      congr 1
      omega

theorem testBit_bits (n lo w i : Nat) : (bits n lo w).testBit i = (decide (i < w) && n.testBit (lo + i)) := by
  rw [bits, Nat.testBit_mod_two_pow, ← Nat.shiftRight_eq_div_pow, Nat.testBit_shiftRight]

theorem bits_setField (hf : f < 2 ^ w) : bits (setField v lo w f) lo w = f := by
  refine Nat.eq_of_testBit_eq fun i => ?_
  rw [testBit_bits, testBit_setField]
  by_cases hi : i < w
  · simp [hi]
  · rw [decide_eq_false hi, Bool.false_and]
    exact (Nat.testBit_lt_two_pow (hf.trans_le (Nat.pow_le_pow_right (by decide) (by omega)))).symm

theorem bits_setField_ne {lo' w' : Nat} (h : lo' + w' ≤ lo ∨ lo + w ≤ lo') : bits (setField v lo w f) lo' w' = bits v lo' w' := by
  refine Nat.eq_of_testBit_eq fun i => ?_
  rw [testBit_bits, testBit_bits, testBit_setField]
  by_cases hi : i < w'
  · rw [if_neg (by omega)]
  · simp [hi]

end Fields

section Coef
variable {s : State} {o : LoopCoefOp} {i j : Nat}

/-- The field of LOOP_COEF of index `i`: its register, low bit, width and range. -/
abbrev coefField (i : Nat) : Nat × Nat × Nat × Nat × Nat := coefFields.getD i (0, 0, 0, 0, 0)

/-- The loop that a register of LOOP_COEF belongs to: the slopes belong to the cluster. -/
def coefLoop (o : LoopCoefOp) (off : Nat) : Nat := if off = 0x010 then 7 else o.loop

def coefPut (o : LoopCoefOp) (v i : Nat) : Nat := setField v (coefField i).2.1 (coefField i).2.2.1 (o.vals.getD i 0)

/-- The turn of one register. -/
def coefTurn (o : LoopCoefOp) (off : Nat) (t : State) : State :=
  let l := (coefSel o).filter fun i => (coefField i).1 = off
  if l = [] then t else loopQueue o.cluster (coefLoop o off) off (l.foldl (coefPut o) (loopReg t o.cluster (coefLoop o off) off)) t

theorem coefApply_eq (s : State) : coefApply o s = forList [0x05C, 0x060, 0x064, 0x068, 0x010, 0x044] (coefTurn o) s := rfl

/-- Two fields of one register do not overlap (Table 9.9). -/
theorem coefFields_disjoint : ∀ i < 13, ∀ j < 13, (coefField i).1 = (coefField j).1 → i ≠ j →
    (coefField i).2.1 + (coefField i).2.2.1 ≤ (coefField j).2.1 ∨ (coefField j).2.1 + (coefField j).2.2.1 ≤ (coefField i).2.1 := by decide

theorem coefFields_register : ∀ i < 13, (coefField i).1 ∈ [0x05C, 0x060, 0x064, 0x068, 0x010, 0x044] := by decide

theorem coefFields_range : ∀ i < 13, (coefField i).2.2.2.2 < 2 ^ (coefField i).2.2.1 := by decide

theorem coefSel_lt (h : i ∈ coefSel o) : i < 13 := (mem_maskIdx.mp h).1

/-- Each selected field of a register has its value once all have been put. -/
theorem foldl_coefPut {l : List Nat} (hi : i < 13) (hv : o.vals.getD i 0 < 2 ^ (coefField i).2.2.1)
    (hl : ∀ j ∈ l, j < 13 ∧ (coefField j).1 = (coefField i).1) (v : Nat)
    (h : i ∈ l ∨ bits v (coefField i).2.1 (coefField i).2.2.1 = o.vals.getD i 0) :
    bits (l.foldl (coefPut o) v) (coefField i).2.1 (coefField i).2.2.1 = o.vals.getD i 0 := by
  induction l generalizing v with
  | nil => exact h.resolve_left List.not_mem_nil
  | cons j l ih =>
    obtain ⟨hj, hreg⟩ := hl j List.mem_cons_self
    refine ih (fun k hk => hl k (List.mem_cons_of_mem _ hk)) _ ?_
    by_cases e : i = j
    · subst e
      exact .inr (bits_setField hv)
    · rcases h with h | h
      · exact .inl ((List.mem_cons.mp h).resolve_left e)
      · right
        rw [coefPut, bits_setField_ne (coefFields_disjoint i hi j hj hreg.symm e)]
        exact h

theorem loopReg_loopQueue (c j off v : Nat) (s : State) : loopReg (loopQueue c j off v s) c j off = v := by
  unfold loopReg loopQueue
  rw [State.onLoop_loop]
  simp

theorem loopReg_loopQueue_ne {c j k off off' v : Nat} (h : off' ≠ off) (s : State) :
    loopReg (loopQueue c j off v s) c k off' = loopReg s c k off' := by
  unfold loopReg loopQueue
  rw [State.onLoop_loop]
  simp [Ne.symm h]
  rfl

theorem coefTurn_ne {off off' : Nat} (h : off' ≠ off) (k : Nat) (t : State) :
    loopReg (coefTurn o off t) o.cluster k off' = loopReg t o.cluster k off' := by
  unfold coefTurn
  extract_lets l
  split
  · rfl
  · exact loopReg_loopQueue_ne h t

theorem coefTurn_field (hi : i ∈ coefSel o) (hv : o.vals.getD i 0 < 2 ^ (coefField i).2.2.1) (t : State) :
    bits (loopReg (coefTurn o (coefField i).1 t) o.cluster (coefLoop o (coefField i).1) (coefField i).1) (coefField i).2.1
      (coefField i).2.2.1 = o.vals.getD i 0 := by
  unfold coefTurn
  extract_lets l
  have hmem : i ∈ l := List.mem_filter.mpr ⟨hi, decide_eq_true rfl⟩
  rw [if_neg (List.ne_nil_of_mem hmem), loopReg_loopQueue]
  refine foldl_coefPut (coefSel_lt hi) hv (fun j hj => ?_) _ (.inl hmem)
  obtain ⟨hj, he⟩ := List.mem_filter.mp hj
  exact ⟨coefSel_lt hj, of_decide_eq_true he⟩

/-- The registers as the writes of LOOP_COEF will leave them hold the selected fields. -/
theorem coefApply_field (hi : i ∈ coefSel o) (hv : o.vals.getD i 0 < 2 ^ (coefField i).2.2.1) (s : State) :
    bits (loopReg (coefApply o s) o.cluster (coefLoop o (coefField i).1) (coefField i).1) (coefField i).2.1 (coefField i).2.2.1 =
      o.vals.getD i 0 := by
  rw [coefApply_eq]
  refine forList_est (P := fun t => bits (loopReg t o.cluster (coefLoop o (coefField i).1) (coefField i).1) (coefField i).2.1
    (coefField i).2.2.1 = o.vals.getD i 0) (coefFields_register i (coefSel_lt hi)) (fun off t ht => ?_) (coefTurn_field hi hv) s
  by_cases e : (coefField i).1 = off
  · subst e; exact coefTurn_field hi hv t
  · rw [coefTurn_ne e]; exact ht

theorem coefTurn_rest (off : Nat) (t : State) : (∃ l, (coefTurn o off t).loop.writes = t.loop.writes ++ l) ∧
    (coefTurn o off t).loop.loop = t.loop.loop ∧ (coefTurn o off t).loop.clu = t.loop.clu := by
  unfold coefTurn
  extract_lets l
  split
  · exact ⟨⟨[], (List.append_nil _).symm⟩, rfl, rfl⟩
  · exact ⟨⟨_, rfl⟩, rfl, rfl⟩

/-- Nothing takes effect before the frame boundary: only writes are queued (R247). -/
theorem coefApply_rest (s : State) : (∃ l, (coefApply o s).loop.writes = s.loop.writes ++ l) ∧
    (coefApply o s).loop.loop = s.loop.loop ∧ (coefApply o s).loop.clu = s.loop.clu := by
  rw [coefApply_eq]
  refine forList_ind (P := fun t => (∃ l, t.loop.writes = s.loop.writes ++ l) ∧ t.loop.loop = s.loop.loop ∧ t.loop.clu = s.loop.clu)
    (fun off _ t ht => ?_) ⟨⟨[], (List.append_nil _).symm⟩, rfl, rfl⟩
  obtain ⟨⟨l, hl⟩, h1, h2⟩ := ht
  obtain ⟨⟨m, hm⟩, g1, g2⟩ := coefTurn_rest (o := o) off t
  exact ⟨⟨l ++ m, by rw [hm, hl, List.append_assoc]⟩, g1.trans h1, g2.trans h2⟩

theorem coefOk_range (hok : coefOk s o = true) (hi : i ∈ coefSel o) : o.vals.getD i 0 < 2 ^ (coefField i).2.2.1 := by
  have h := List.all_eq_true.mp hok i hi
  simp only [Bool.and_eq_true, decide_eq_true_eq] at h
  exact h.1.2.trans_lt (coefFields_range i (coefSel_lt hi))

end Coef

section CoefDesc
variable {s : State} {h : DescHdr} {o : LoopCoefOp}

/-- A selected field that a loop in AUTOMATIC keeps from being written: a slope needs the whole cluster in manual (R247). -/
def coefAuto (s : State) (o : LoopCoefOp) : Bool :=
  ((coefSel o).any fun i => i = 9 || i = 10) && !s.inManual o.cluster ||
    ((coefSel o).any fun i => i ≠ 9 && i ≠ 10) && (s.getLp o.cluster o.loop).auto

theorem coefAuto_of (h : ((∃ i ∈ coefSel o, i ≠ 9 ∧ i ≠ 10) ∧ (s.getLp o.cluster o.loop).auto = true) ∨
    ((9 ∈ coefSel o ∨ 10 ∈ coefSel o) ∧ s.inManual o.cluster = false)) : coefAuto s o = true := by
  unfold coefAuto
  rcases h with ⟨⟨i, hi, h1, h2⟩, ha⟩ | ⟨hi, hm⟩
  · have hany : ((coefSel o).any fun i => i ≠ 9 && i ≠ 10) = true := List.any_eq_true.mpr ⟨i, hi, by simp [h1, h2]⟩
    rw [hany, ha, Bool.true_and, Bool.or_true]
  · have hany : ((coefSel o).any fun i => i = 9 || i = 10) = true := by
      rcases hi with hi | hi
      · exact List.any_eq_true.mpr ⟨9, hi, by decide⟩
      · exact List.any_eq_true.mpr ⟨10, hi, by decide⟩
    rw [hany, hm]
    rfl

theorem bodyLoopCoef_eq (o : LoopCoefOp) (s : State) : bodyLoopCoef o s =
    if o.valid / 2 ^ 13 ≠ 0 then .fail 0x9002 s
    else if 32 ≤ o.cluster ∨ !(s.cluCfg o.cluster).present then .fail 0x5004 s
    else if 4 < o.loop then .fail 0x5002 s
    else if !(s.loopCfg o.cluster o.loop).present then .fail 0x5004 s
    else if !coefOk s o then .fail 0x5002 s
    else if coefAuto s o then .fail 0x5001 s
    else .done 0 0 (coefApply o s) := rfl

theorem loopCoef_reserved (hr : Runs h descLoopCoef s) (hv : 8192 ≤ o.valid) : ∃ t, exec (.loopCoef h o) s = .next t ∧
    Completes h 0x40 0x9002 0 s t ∧ Only [.hm, .hif] s t :=
  refused_of_fail (body := bodyLoopCoef o) rfl hr (if_pos (by omega))

theorem loopCoef_effect (hr : Runs h descLoopCoef s) (hv : o.valid < 8192) :
    (32 ≤ o.cluster ∨ (s.cluCfg o.cluster).present = false → ∃ t, exec (.loopCoef h o) s = .next t ∧
      Completes h 0x40 0x5004 0 s t ∧ Only [.hm, .hif] s t) ∧
    (o.cluster < 32 → (s.cluCfg o.cluster).present = true → 4 < o.loop → ∃ t, exec (.loopCoef h o) s = .next t ∧
      Completes h 0x40 0x5002 0 s t ∧ Only [.hm, .hif] s t) ∧
    (o.cluster < 32 → (s.cluCfg o.cluster).present = true → o.loop ≤ 4 → (s.loopCfg o.cluster o.loop).present = false →
      ∃ t, exec (.loopCoef h o) s = .next t ∧ Completes h 0x40 0x5004 0 s t ∧ Only [.hm, .hif] s t) ∧
    (o.cluster < 32 → (s.cluCfg o.cluster).present = true → o.loop ≤ 4 → (s.loopCfg o.cluster o.loop).present = true →
      (coefOk s o = false → ∃ t, exec (.loopCoef h o) s = .next t ∧ Completes h 0x40 0x5002 0 s t ∧ Only [.hm, .hif] s t) ∧
      (coefOk s o = true → coefAuto s o = true → ∃ t, exec (.loopCoef h o) s = .next t ∧
        Completes h 0x40 0x5001 0 s t ∧ Only [.hm, .hif] s t) ∧
      (coefOk s o = true → coefAuto s o = false → ∃ t, exec (.loopCoef h o) s = .next t ∧ Completes h 0x40 0 0 s t ∧
        (∀ i ∈ coefSel o, bits (loopReg t o.cluster (coefLoop o (coefField i).1) (coefField i).1) (coefField i).2.1
          (coefField i).2.2.1 = o.vals.getD i 0) ∧
        (∃ l, t.loop.writes = s.loop.writes ++ l) ∧ t.loop.loop = s.loop.loop ∧ t.loop.clu = s.loop.clu ∧
        Only [.loop, .hm, .hif] s t)) := by
  have hx : exec (.loopCoef h o) s = act (runDesc h descLoopCoef (bodyLoopCoef o)) s := rfl
  let b := descBegin h.ctx.val s
  have hkb : Keeps [.hif] s b := descBegin_keeps ..
  have hclu : b.cluCfg o.cluster = s.cluCfg o.cluster := rfl
  have hlp : b.loopCfg o.cluster o.loop = s.loopCfg o.cluster o.loop := rfl
  have hok : coefOk b o = coefOk s o := rfl
  have hauto : coefAuto b o = coefAuto s o := rfl
  have h1 : ¬ o.valid / 2 ^ 13 ≠ 0 := by omega
  have h2 : o.cluster < 32 → (s.cluCfg o.cluster).present = true → ¬ (32 ≤ o.cluster ∨ (!(b.cluCfg o.cluster).present) = true) := by
    intro hc hp
    rw [hclu, hp]
    simp only [Bool.not_true, Bool.false_eq_true, or_false]
    omega
  refine ⟨fun hno => refused_of_fail hx hr ?_, fun hc hp hl => refused_of_fail hx hr ?_, fun hc hp hl hn => refused_of_fail hx hr ?_,
    fun hc hp hl hn => ⟨fun hf => refused_of_fail hx hr ?_, fun hg ha => refused_of_fail hx hr ?_, fun hg ha => ?_⟩⟩
  · rw [bodyLoopCoef_eq, if_neg h1, if_pos]
    rw [hclu]
    exact hno.imp id fun hp => by rw [hp]; rfl
  · rw [bodyLoopCoef_eq, if_neg h1, if_neg (h2 hc hp), if_pos hl]
  · rw [bodyLoopCoef_eq, if_neg h1, if_neg (h2 hc hp), if_neg (by omega), hlp, hn]
    rfl
  · rw [bodyLoopCoef_eq, if_neg h1, if_neg (h2 hc hp), if_neg (by omega), hlp, hn, hok, hf]
    rfl
  · rw [bodyLoopCoef_eq, if_neg h1, if_neg (h2 hc hp), if_neg (by omega), hlp, hn, hok, hg, hauto, ha]
    rfl
  · have hd : bodyLoopCoef o b = .done 0 0 (coefApply o b) := by
      rw [bodyLoopCoef_eq, if_neg h1, if_neg (h2 hc hp), if_neg (by omega), hlp, hn, hok, hg, hauto, ha]
      rfl
    obtain ⟨t, he, ht⟩ := exec_of_done hx hr hd ((coefApply_keeps ..).between rfl rfl)
    have hloop : t.loop = (coefApply o b).loop := ht.keeps.loop_eq rfl
    have hreg : ∀ j off, loopReg t o.cluster j off = loopReg (coefApply o b) o.cluster j off := fun j off => by
      unfold loopReg
      rw [getClu_of_loop hloop, getLp_of_loop hloop, hloop]
    obtain ⟨hw, hlo, hcl⟩ := coefApply_rest (o := o) b
    refine ⟨t, he, ht.completes, fun i hi => ?_, ?_, ?_, ?_, Keeps.only (.step ht.keeps (by decide) (.step (coefApply_keeps ..)
      (by decide) (hkb.mono (by decide))))⟩
    · rw [hreg]
      exact coefApply_field hi (coefOk_range hg hi) b
    · rw [hloop]; exact hw
    · rw [hloop]; exact hlo
    · rw [hloop]; exact hcl

end CoefDesc

section Tables
variable {s : State} {h : DescHdr} {c a : Nat} {x : Ext}

theorem Tbl.get_foldl_set {α : Type} [DecidableEq α] (d : α) (g : Nat → α) {l : List Nat} {k : Nat} (t : Tbl α)
    (h : k ∈ l ∨ Tbl.get d t k = g k) : Tbl.get d (l.foldl (fun t k => Tbl.set d t k (g k)) t) k = g k := by
  induction l generalizing t with
  | nil => exact h.resolve_left List.not_mem_nil
  | cons j l ih =>
    refine ih _ ?_
    by_cases e : k = j
    · subst e; exact .inr (Tbl.get_set_self ..)
    · rcases h with h | h
      · exact .inl ((List.mem_cons.mp h).resolve_left e)
      · exact .inr ((Tbl.get_set_ne _ _ e).trans h)

theorem withData_some {n : Nat} {d : List Nat} {f : List Nat → DescOut} (h : Ext.read x n = some d) : withData x n s f = f d := by
  rw [withData, h]

theorem withData_none {n : Nat} {f : List Nat → DescOut} (h : Ext.read x n = none) : withData x n s f = .fail 0x9006 s := by
  rw [withData, h]

/-- A V/F table as VFT_LOAD stages it (Table 9.3). -/
def vftTable (d : List Nat) : Tbl VftRow := (List.range 256).foldl (fun t l => Tbl.set {} t l (vftRowOf d l)) []

theorem vftTable_get (d : List Nat) {l : Nat} (hl : l < 256) : Tbl.get {} (vftTable d) l = vftRowOf d l :=
  Tbl.get_foldl_set {} (vftRowOf d) [] (.inl (List.mem_range.mpr hl))

theorem bodyVftLoad_eq (c : Nat) (x : Ext) (s : State) : bodyVftLoad c x s =
    if 32 ≤ c ∨ !(s.cluCfg c).present then .fail 0x5004 s
    else if !s.inManual c then .fail 0x5001 s
    else withData x 2048 s fun d =>
      if !vftOk s c ((List.range 256).map (vftRowOf d)) then .fail 0x5003 s
      else .done 0 0 (s.updClu c fun y => { y with vftNext := some (vftTable d) }) := rfl

theorem vftLoad_effect (hr : Runs h (descVftLoad a) s) :
    (32 ≤ c ∨ (s.cluCfg c).present = false → ∃ t, exec (.vftLoad h c a x) s = .next t ∧
      Completes h 0x41 0x5004 0 s t ∧ Only [.hm, .hif] s t) ∧
    (c < 32 → (s.cluCfg c).present = true → s.inManual c = false → ∃ t, exec (.vftLoad h c a x) s = .next t ∧
      Completes h 0x41 0x5001 0 s t ∧ Only [.hm, .hif] s t) ∧
    (c < 32 → (s.cluCfg c).present = true → s.inManual c = true →
      (Ext.read x 2048 = none → ∃ t, exec (.vftLoad h c a x) s = .next t ∧ Completes h 0x41 0x9006 0 s t ∧
        Only [.hm, .hif] s t) ∧
      (∀ d, Ext.read x 2048 = some d →
        (vftOk s c ((List.range 256).map (vftRowOf d)) = false → ∃ t, exec (.vftLoad h c a x) s = .next t ∧
          Completes h 0x41 0x5003 0 s t ∧ Only [.hm, .hif] s t) ∧
        (vftOk s c ((List.range 256).map (vftRowOf d)) = true → ∃ t, exec (.vftLoad h c a x) s = .next t ∧
          Completes h 0x41 0 0 s t ∧ (t.getClu c).vft = (s.getClu c).vft ∧
          (∃ u, (t.getClu c).vftNext = some u ∧ ∀ l < 256, Tbl.get {} u l = vftRowOf d l) ∧
          (∀ j, j ≠ c → t.getClu j = s.getClu j) ∧ Only [.loop, .hm, .hif] s t))) := by
  have hx : exec (.vftLoad h c a x) s = act (runDesc h (descVftLoad a) (bodyVftLoad c x)) s := rfl
  let b := descBegin h.ctx.val s
  have hkb : Keeps [.hif] s b := descBegin_keeps ..
  have hclu : b.cluCfg c = s.cluCfg c := rfl
  have hman : b.inManual c = s.inManual c := rfl
  have hvft : ∀ l, vftOk b c l = vftOk s c l := fun _ => rfl
  have h2 : c < 32 → (s.cluCfg c).present = true → ¬ (32 ≤ c ∨ (!(b.cluCfg c).present) = true) := by
    intro hc hp
    rw [hclu, hp]
    simp only [Bool.not_true, Bool.false_eq_true, or_false]
    omega
  refine ⟨fun hno => refused_of_fail hx hr ?_, fun hc hp hm => refused_of_fail hx hr ?_, fun hc hp hm =>
    ⟨fun hn => refused_of_fail hx hr ?_, fun d hd => ⟨fun hf => refused_of_fail hx hr ?_, fun hg => ?_⟩⟩⟩
  · rw [bodyVftLoad_eq, if_pos]
    rw [hclu]
    exact hno.imp id fun hp => by rw [hp]; rfl
  · rw [bodyVftLoad_eq, if_neg (h2 hc hp), hman, hm]
    rfl
  · rw [bodyVftLoad_eq, if_neg (h2 hc hp), hman, hm, if_neg (by decide), withData_none hn]
  · rw [bodyVftLoad_eq, if_neg (h2 hc hp), hman, hm, if_neg (by decide), withData_some hd, hvft, hf]
    rfl
  · have hb : bodyVftLoad c x b = .done 0 0 (b.updClu c fun y => { y with vftNext := some (vftTable d) }) := by
      rw [bodyVftLoad_eq, if_neg (h2 hc hp), hman, hm, if_neg (by decide), withData_some hd, hvft, hg]
      rfl
    obtain ⟨t, he, ht⟩ := exec_of_done hx hr hb ((State.updClu_keeps ..).between rfl rfl)
    have hget := getClu_of_loop (ht.keeps.loop_eq rfl)
    have hgb := getClu_of_loop (hkb.loop_eq rfl)
    refine ⟨t, he, ht.completes, ?_, ⟨vftTable d, ?_, fun l hl => vftTable_get d hl⟩, fun j hj => ?_, Keeps.only (.step ht.keeps
      (by decide) (.step (State.updClu_keeps ..) (by decide) (hkb.mono (by decide))))⟩
    · rw [hget, State.getClu_updClu, hgb]
    · rw [hget, State.getClu_updClu]
    · rw [hget, State.getClu_updClu_ne _ _ _ hj, hgb]

end Tables

section Classes
variable {s : State} {h : DescHdr} {c k v : Nat}

/-- What a class entry's value says (Table 10.7). -/
def hintClassOf (v : Nat) (x : HintClass) : HintClass :=
  { x with set := bits v 0 6, setValid := bitOf v 6, en := bitOf v 7, dur := bits v 8 8, feat := bits v 16 8, ipu := bits v 24 8 }

theorem hintClassEntry_effect (hr : Runs h descHintClass s) :
    (256 ≤ c ∨ hcOk c v s = false → ∃ t, exec (.hintClassEntry h c v) s = .next t ∧ Completes h 0x50 0x6806 0 s t ∧
      Only [.hm, .hif] s t) ∧
    (c < 256 → hcOk c v s = true → ∃ t, exec (.hintClassEntry h c v) s = .next t ∧ Completes h 0x50 0 0 s t ∧
      t.getHc c = hintClassOf v (s.getHc c) ∧ (∀ j, j ≠ c → t.getHc j = s.getHc j) ∧
      (QRoom 0x20 s → Logs 0x20 0x6823 c 0 1 0 s t) ∧ Only [.hm, .hif, .ldg, .fc] s t) := by
  have hx : exec (.hintClassEntry h c v) s = act (runDesc h descHintClass (bodyHintClassEntry c v)) s := rfl
  let b := descBegin h.ctx.val s
  have hkb : Keeps [.hif] s b := descBegin_keeps ..
  have hok : hcOk c v b = hcOk c v s := rfl
  refine ⟨fun hno => refused_of_fail hx hr ?_, fun hc hg => ?_⟩
  · by_cases hc : 256 ≤ c
    · exact if_pos hc
    · rw [bodyHintClassEntry, if_neg hc, hcWrite, hok, hno.resolve_left hc]
      rfl
  · let u := b.updHc c (hintClassOf v)
    have hd : bodyHintClassEntry c v b = .done 0 0 (emitTrs 0x6823 c 0 1 0 u) := by
      rw [bodyHintClassEntry, if_neg (by omega), hcWrite, hok, hg]
      rfl
    have hku : Keeps [.fc] b u := State.updHc_keeps ..
    obtain ⟨t, he, ht⟩ := exec_of_done hx hr hd ((hku.between rfl rfl).emit ..)
    have hkt : Keeps [.hm, .hif, .ldg] u (emitTrs 0x6823 c 0 1 0 u) := emitTrs_keeps ..
    have hget := getHc_of_fc ((ht.keeps.fc_eq rfl).trans (hkt.fc_eq rfl))
    have hgb := getHc_of_fc (hkb.fc_eq rfl)
    refine ⟨t, he, ht.completes, ?_, fun j hj => ?_, fun hroom => ?_, Keeps.only (.step ht.keeps (by decide) (.step hkt (by decide)
      (.step hku (by decide) (hkb.mono (by decide)))))⟩
    · rw [hget, State.getHc_updHc, hgb]
    · rw [hget, State.getHc_updHc_ne _ _ _ hj, hgb]
    · exact (emit_logs_after (ps := [.hif, .fc]) (.step hku (by decide) (hkb.mono (by decide))) (by decide) (by decide) (by decide)
        (by decide) hroom).before ht.keeps.only (by decide)

theorem hintClassPerm_effect (hr : Runs h descHintClass s) :
    (c = 0 ∨ 512 ≤ c ∨ 8 ≤ k → ∃ t, exec (.hintClassPerm h c k v) s = .next t ∧ Completes h 0x50 0x6806 0 s t ∧
      Only [.hm, .hif] s t) ∧
    (0 < c → c < 512 → 0 < k → k < 8 → v < 2 ^ 32 → ∃ t, exec (.hintClassPerm h c k v) s = .next t ∧
      Completes h 0x50 0 0 s t ∧ (t.getHx c).perm = setField (s.getHx c).perm (32 * k) 32 v ∧
      (∀ j, j ≠ c → t.getHx j = s.getHx j) ∧ Only [.hm, .hif, .ldg, .fc] s t) := by
  have hx : exec (.hintClassPerm h c k v) s = act (runDesc h descHintClass (bodyHintClassPerm c k v)) s := rfl
  let b := descBegin h.ctx.val s
  have hkb : Keeps [.hif] s b := descBegin_keeps ..
  have hgb := getHx_of_fc (hkb.fc_eq rfl)
  refine ⟨fun hno => refused_of_fail hx hr ?_, fun hc0 hc hk0 hk hv => ?_⟩
  · by_cases h1 : 512 ≤ c ∨ 8 ≤ k
    · exact if_pos h1
    · rw [bodyHintClassPerm, if_neg h1, permWrite, if_pos (by omega)]
      rfl
  · let u := b.updHx c fun x => { x with perm := setField (s.getHx c).perm (32 * k) 32 v }
    have hd : bodyHintClassPerm c k v b = .done 0 0 (emitTrs 0x6823 0xFFFF c 1 0 u) := by
      rw [bodyHintClassPerm, if_neg (by omega), permWrite, if_neg (by omega), if_neg (show ¬ k = 0 by omega), hgb]
      unfold u setField
      rw [Nat.mod_eq_of_lt hv]
    have hku : Keeps [.fc] b u := State.updHx_keeps ..
    obtain ⟨t, he, ht⟩ := exec_of_done hx hr hd ((hku.between rfl rfl).emit ..)
    have hkt : Keeps [.hm, .hif, .ldg] u (emitTrs 0x6823 0xFFFF c 1 0 u) := emitTrs_keeps ..
    have hget := getHx_of_fc ((ht.keeps.fc_eq rfl).trans (hkt.fc_eq rfl))
    refine ⟨t, he, ht.completes, ?_, fun j hj => ?_, Keeps.only (.step ht.keeps (by decide) (.step hkt (by decide)
      (.step hku (by decide) (hkb.mono (by decide)))))⟩
    · rw [hget, State.getHx_updHx]
    · rw [hget, State.getHx_updHx_ne _ _ _ hj, hgb]

end Classes

/-- Settles O46: what LOOP_COEF, VFT_LOAD and HINT_CLASS refuse, and the fields, rows and words that they leave. -/
theorem loopsAndClassesLoaded : Obligations.LoopsAndClassesLoaded := by
  intro s h o x c a k v
  refine ⟨loopCoef_reserved, fun hr hv => ?_, vftLoad_effect, fun hr => ?_⟩
  · obtain ⟨h1, h2, h3, h4⟩ := loopCoef_effect hr hv
    refine ⟨h1, h2, h3, fun hc hp hl hn => ?_⟩
    obtain ⟨g1, g2, g3⟩ := h4 hc hp hl hn
    exact ⟨g1, fun hg ha => g2 hg (coefAuto_of ha), fun hg ha hm => g3 hg (by simp [coefAuto, ha, hm])⟩
  · obtain ⟨h1, h2⟩ := hintClassEntry_effect (c := c) (v := v) hr
    obtain ⟨h3, h4⟩ := hintClassPerm_effect (c := c) (k := k) (v := v) hr
    refine ⟨h1, fun hc hg => ?_, h3, fun hc0 hc hk0 hk hv => ?_⟩
    · obtain ⟨t, he, hcmp, hx, hrest⟩ := h2 hc hg
      exact ⟨t, he, hcmp, by rw [hx]; rfl, by rw [hx]; rfl, by rw [hx]; rfl, by rw [hx]; rfl, by rw [hx]; rfl, hrest⟩
    · obtain ⟨t, he, hcmp, hx, hj, ho⟩ := h4 hc0 hc hk0 hk hv
      refine ⟨t, he, hcmp, by rw [hx]; exact bits_setField hv, fun i _ hne => ?_, hj, ho⟩
      rw [hx, bitOf_eq_testBit, bitOf_eq_testBit, testBit_setField, if_neg (by omega)]

end Sys2Proof.Machine
end

section
/-!
Synchronisation acts by hand on flags, counts, waits and windows (R317, R318, R325, R332).
-/
namespace Sys2Proof.Machine

section Between
variable {c : Nat} {s : State}

theorem coreUpdate_between (k : Nat) (s : State) : Between c s (coreUpdate k s) := by
  unfold coreUpdate
  extract_lets w d s1
  have h1 : Between c s s1 := (State.updCore_keeps ..).between rfl rfl
  exact .ite h1 (h1.trans (reclaimCore_between c s1 0 _ k))

theorem setWaiter_between (w : Nat) (v : Option Waiter) (s : State) : Between c s (setWaiter w v s) := by
  have h1 : Between c s ((waitMark (w / 64) s).onSyn fun y => { y with wtr := Tbl.set none y.wtr w v }) :=
    ((waitMark_keeps ..).between rfl rfl).keeps (State.onSyn_keeps ..) rfl rfl
  exact h1.trans (coreUpdate_between ..)

theorem releaseWait_between (w val : Nat) (s : State) : Between c s (releaseWait w val s) :=
  ((setWaiter_between w none s).keeps (State.updCore_keeps ..) rfl rfl).keeps (waitRespond_keeps ..) rfl rfl

theorem reportFail_between (w stat : Nat) (x : Waiter) (s : State) : Between c s (reportFail w stat x s) := by
  unfold reportFail
  extract_lets k s1 recent
  have h1 : Between c s s1 := ((State.onSyn_keeps ..).between rfl rfl).trans (Between.updCtx x.ctx _)
  exact .ite ((h1.keeps (State.onSyn_keeps ..) rfl rfl).emit ..) (h1.keeps (State.onSyn_keeps ..) rfl rfl)

theorem failWait_between (stat w : Nat) (s : State) : Between c s (failWait stat w s) := by
  cases h : s.waiter w with
  | none => rw [failWait_of_none h]; exact .refl ..
  | some x =>
    rw [failWait_of_some h]
    exact (((reportFail_between w stat x s).keeps (withdraw_keeps ..) rfl rfl).trans (setWaiter_between ..)).keeps
      (waitRespond_keeps ..) rfl rfl

theorem releaseOn_between (o : Nat) (s : State) : Between c s (releaseOn o s) :=
  (Between.refl c s).forList fun e u => releaseWait_between e.1 _ u

end Between

section Ends
variable {s t u : State}

/-- A record leaves waits and objects alone. -/
theorem synManual_syn (a o x y n : Nat) (s : State) : (synManual a o x y n s).syn = s.syn := (emitSyn_keeps ..).syn_eq rfl

theorem synManual_ep (a o x y n : Nat) (s : State) : (synManual a o x y n s).ep = s.ep := (emitSyn_keeps ..).ep_eq rfl

theorem synManual_between (c a o x y n : Nat) (s : State) : Between c s (synManual a o x y n s) := emit_between ..

theorem descBegin_syn (c : Nat) (s : State) : (descBegin c s).syn = s.syn := (descBegin_keeps c s).syn_eq rfl

end Ends

section Flags
variable {s : State} {h : DescHdr} {o v : Nat}

/-- The flag as SET or CLEAR by hand leaves it. -/
def handFlagged (set : Bool) (y : SynObj) : SynObj :=
  { y with level := set, gen := if set && !y.level then (y.gen + 1) % 16 else y.gen }

theorem flagOp_hand (set : Bool) (o : Nat) (s : State) : (flagOp set none o s).syn.wtr = s.syn.wtr ∧
    (flagOp set none o s).getObj o = handFlagged set (s.getObj o) ∧ ∀ k, k ≠ o → (flagOp set none o s).getObj k = s.getObj k := by
  refine ⟨rfl, ?_, fun k hk => State.getObj_updObj_ne _ _ _ hk⟩
  refine (State.getObj_updObj ..).trans ?_
  cases set <;> rfl

theorem bodySynFlag_range {set : Bool} {s : State} (h : 8192 ≤ o) : bodySynFlag set o s = .fail 0x700D s := if_pos h

theorem bodySynFlag_kind {set : Bool} {s : State} (h : o < 8192) (hk : (s.getObj o).count = true) : bodySynFlag set o s = .fail 0x7003 s :=
  (if_neg (by omega)).trans (if_pos hk)

/-- The flag, then the waits that it releases, then the record. -/
def flagActed (set : Bool) (o : Nat) (s : State) : State :=
  let s1 := flagOp set none o s
  let s2 := releaseOn o s1
  synManual (b2n !set) o (s.getObj o).shown (s1.getObj o).shown ((s.waitsOn o).length - (s2.waitsOn o).length) s2

theorem bodySynFlag_done {set : Bool} {s : State} (h : o < 8192) (hk : (s.getObj o).count = false) : bodySynFlag set o s =
    .done 0 (b2n set + 16 * (handFlagged set (s.getObj o)).gen + (if set ≠ (s.getObj o).level then 256 else 0)) (flagActed set o s) := by
  have hx := (flagOp_hand set o s).2.1
  refine (if_neg (by omega)).trans ((if_neg (by simp [hk])).trans ?_)
  have hshown : (handFlagged set (s.getObj o)).shown = b2n set + 16 * (handFlagged set (s.getObj o)).gen := if_neg (by simp [handFlagged, hk])
  have hlevel : ((flagOp set none o s).getObj o).level = set := congrArg SynObj.level hx
  have hgo : (if ((flagOp set none o s).getObj o).level ≠ (s.getObj o).level then 2 ^ 8 else 0) =
      if set ≠ (s.getObj o).level then 256 else 0 := by rw [hlevel, show 2 ^ 8 = 256 by decide]
  rw [← hgo, ← hshown, ← hx]
  rfl

theorem flagActed_between (c : Nat) (set : Bool) (o : Nat) (s : State) : Between c s (flagActed set o s) := by
  have h1 : Between c s (flagOp set none o s) := (State.updObj_keeps ..).between rfl rfl
  exact (h1.trans (releaseOn_between ..)).trans (synManual_between ..)

theorem flagActed_keeps (set : Bool) (o : Nat) (s : State) : Keeps [.hm, .ep, .hif, .ldg, .trs, .syn] s (flagActed set o s) :=
  .step (synManual_keeps ..) (by decide) (.step (releaseOn_keeps ..) (by decide) ((flagOp_keeps ..).mono (by decide)))

/-- What SET or CLEAR by hand leaves (R317, R318). -/
theorem flagActed_effect (set : Bool) (hw : WaitersOk s) (hk : (s.getObj o).count = false) :
    (flagActed set o s).getObj o = handFlagged set (s.getObj o) ∧
      (∀ k y, s.waiter k = some y → y.obj = o → y.op = (if set then 3 else 4) → (flagActed set o s).waiter k = none) ∧
      (∀ k y, s.waiter k = some y → y.obj ≠ o → (flagActed set o s).waiter k = some y) ∧
      (∀ k, k ≠ o → (flagActed set o s).getObj k = s.getObj k) := by
  obtain ⟨hwtr, hself, hne⟩ := flagOp_hand set o s
  obtain ⟨hobj, hrel, hkept, hothers, -⟩ := releaseOn_effect (u := flagOp set none o s) (o := o) hw hwtr hne
  have hsyn : (flagActed set o s).syn = (releaseOn o (flagOp set none o s)).syn := synManual_syn ..
  have hwt : ∀ k, (flagActed set o s).waiter k = (releaseOn o (flagOp set none o s)).waiter k := waiter_of_wtr (by rw [hsyn])
  have hob : ∀ k, (flagActed set o s).getObj k = (releaseOn o (flagOp set none o s)).getObj k := getObj_of_syn hsyn
  refine ⟨by rw [hob, hobj, hself], fun k y hy ho hop => ?_, fun k y hy ho => by rw [hwt, hkept k y hy ho],
    fun k hk => by rw [hob, hothers k hk]⟩
  rw [hwt]
  refine hrel k y hy ho ?_
  rw [hself, objReleases, if_neg (by simp [handFlagged, hk]), flagReleases]
  cases set <;> simp_all [handFlagged]

theorem synFlag_effect (set : Bool) {c : Instr} (hx : exec c s = act (runDesc h descSynAct (bodySynFlag set o)) s)
    (hr : Runs h descSynAct s) (hw : WaitersOk s) (ho : o < 8192) (hk : (s.getObj o).count = false) :
    ∃ t, exec c s = .next t ∧ t.getObj o = handFlagged set (s.getObj o) ∧
      Completes h 0x60 0 (b2n set + 16 * (handFlagged set (s.getObj o)).gen + (if set ≠ (s.getObj o).level then 256 else 0)) s t ∧
      (∀ k y, s.waiter k = some y → y.obj = o → y.op = (if set then 3 else 4) → t.waiter k = none) ∧
      (∀ k y, s.waiter k = some y → y.obj ≠ o → t.waiter k = some y) ∧ (∀ k, k ≠ o → t.getObj k = s.getObj k) ∧
      Only [.hm, .ep, .hif, .ldg, .trs, .syn] s t := by
  let b := descBegin h.ctx.val s
  have hkb : Keeps [.hif] s b := descBegin_keeps ..
  have hob : ∀ k, b.getObj k = s.getObj k := getObj_of_syn (descBegin_syn ..)
  have hwt : ∀ k, b.waiter k = s.waiter k := waiter_of_wtr (by rw [descBegin_syn])
  have hd := bodySynFlag_done (set := set) (s := b) ho (by rwa [hob])
  rw [hob] at hd
  obtain ⟨t, he, ht⟩ := exec_of_done hx hr hd (flagActed_between ..)
  obtain ⟨hself, hrel, hkept, hne⟩ := flagActed_effect (s := b) (o := o) set (hw.of_wtr (by rw [descBegin_syn])) (by rwa [hob])
  rw [hob] at hself
  have hto : ∀ k, t.getObj k = (flagActed set o b).getObj k := getObj_of_syn (ht.keeps.syn_eq rfl)
  have htw : ∀ k, t.waiter k = (flagActed set o b).waiter k := waiter_of_wtr (by rw [ht.keeps.syn_eq rfl])
  exact ⟨t, he, (hto o).trans hself, ht.completes, fun k y hy ho hop => (htw k).trans (hrel k y ((hwt k).trans hy) ho hop),
    fun k y hy ho => (htw k).trans (hkept k y ((hwt k).trans hy) ho), fun k hk => (hto k).trans ((hne k hk).trans (hob k)), Keeps.only (.step ht.keeps (by decide)
    (.step (flagActed_keeps ..) (by decide) (hkb.mono (by decide))))⟩

/-- The count, then the waits that it satisfies, then the record. -/
def adjusted (o v : Nat) (s : State) : State :=
  let s1 := releaseOn o (s.updObj o fun y => { y with value := v, poison := false })
  synManual 2 o (s.getObj o).value v ((s.waitsOn o).length - (s1.waitsOn o).length) s1

theorem adjust_effect (hr : Runs h descSynAct s) (hw : WaitersOk s) (ho : o < 8192) (hk : (s.getObj o).count = true) :
    ∃ t, exec (.adjust h o v) s = .next t ∧ t.getObj o = { s.getObj o with value := v, poison := false } ∧ Completes h 0x60 0 v s t ∧
      (∀ k y, s.waiter k = some y → y.obj = o → y.op = 7 → y.arg ≤ v → t.waiter k = none) ∧
      (∀ k y, s.waiter k = some y → y.obj ≠ o → t.waiter k = some y) ∧ (∀ k, k ≠ o → t.getObj k = s.getObj k) ∧
      Only [.hm, .ep, .hif, .ldg, .trs, .syn] s t := by
  let b := descBegin h.ctx.val s
  have hkb : Keeps [.hif] s b := descBegin_keeps ..
  have hob : ∀ k, b.getObj k = s.getObj k := getObj_of_syn (descBegin_syn ..)
  have hwt : ∀ k, b.waiter k = s.waiter k := waiter_of_wtr (by rw [descBegin_syn])
  let u := b.updObj o fun y => { y with value := v, poison := false }
  have hd : bodyAdjust o v b = .done 0 v (adjusted o v b) := (if_neg (by omega)).trans (if_neg (by simp [hob, hk]))
  have hbet : Between h.ctx.val b (adjusted o v b) :=
    ((Between.keeps (.refl ..) (State.updObj_keeps ..) rfl rfl).trans (releaseOn_between ..)).trans (synManual_between ..)
  obtain ⟨t, he, ht⟩ := exec_of_done (c := .adjust h o v) rfl hr hd hbet
  obtain ⟨hobj, hrel, hkept, hothers, -⟩ := releaseOn_effect (s := b) (u := u) (o := o) (hw.of_wtr (by rw [descBegin_syn])) rfl
    (fun k hk => State.getObj_updObj_ne _ _ _ hk)
  have hself : u.getObj o = { s.getObj o with value := v, poison := false } := by rw [State.getObj_updObj, hob]
  have hsyn : t.syn = (releaseOn o u).syn := (ht.keeps.syn_eq rfl).trans (synManual_syn ..)
  have hto : ∀ k, t.getObj k = (releaseOn o u).getObj k := getObj_of_syn hsyn
  have htw : ∀ k, t.waiter k = (releaseOn o u).waiter k := waiter_of_wtr (by rw [hsyn])
  simp only [hwt, hob] at hrel hkept hothers
  refine ⟨t, he, by rw [hto, hobj, hself], ht.completes, fun k y hy ho hop ha => ?_, fun k y hy ho => by rw [htw, hkept k y hy ho],
    fun k hk => by rw [hto, hothers k hk], Keeps.only (.step ht.keeps (by decide) (.step (synManual_keeps ..) (by decide)
      (.step (releaseOn_keeps ..) (by decide) (.step (State.updObj_keeps ..) (by decide) (hkb.mono (by decide))))))⟩
  rw [htw]
  refine hrel k y hy ho ?_
  rw [hself, objReleases, if_pos (by exact hk)]
  simp [hop, ha]

end Flags

section Waits
variable {s : State} {h : DescHdr} {w : Nat} {y : Waiter}

theorem bodyReleaseWaiter_none (hno : 8192 ≤ w ∨ s.waiter w = none) : bodyReleaseWaiter w s = .fail 0x700D s := by
  have hn : (if 8192 ≤ w then none else s.waiter w) = none := by
    split
    · rfl
    · next h8 => exact hno.resolve_left h8
  unfold bodyReleaseWaiter
  rw [hn]

theorem bodyFailWaiter_none (hno : 8192 ≤ w ∨ s.waiter w = none) : bodyFailWaiter w s = .fail 0x700D s := by
  have hn : (if 8192 ≤ w then none else s.waiter w) = none := by
    split
    · rfl
    · next h8 => exact hno.resolve_left h8
  unfold bodyFailWaiter
  rw [hn]

/-- What a released wait answers: an arrival its group's generation, any other wait its object. -/
def handAnswer (y : Waiter) (s : State) : Nat :=
  if y.op = 8 then (match s.groupOf y.obj with | some g => (s.getGrp g).gen | none => (s.getObj y.obj).shown)
  else (s.getObj y.obj).shown

theorem bodyReleaseWaiter_some (hw : w < 8192) (hy : s.waiter w = some y) : bodyReleaseWaiter w s =
    .done 0 0 (synManual 3 y.obj (s.getObj y.obj).shown (s.getObj y.obj).shown 1 (releaseWait w (handAnswer y s) s)) := by
  unfold bodyReleaseWaiter
  rw [if_neg (by omega), hy]
  rfl

theorem bodyFailWaiter_some (hw : w < 8192) (hy : s.waiter w = some y) : bodyFailWaiter w s =
    .done 0 0 (synManual 4 y.obj (s.getObj y.obj).shown (s.getObj y.obj).shown 1 (failWait 0x7009 w s)) := by
  unfold bodyFailWaiter
  rw [if_neg (by omega), hy]

theorem releaseWait_responds (w val : Nat) (s : State) :
    Responds (s.coreClu (w / 64)) (w / 4) (w % 4) 0 val s (releaseWait w val s) := by
  have hk : Keeps [.hm, .hif, .ldg, .trs, .syn] s ((setWaiter w none s).updCore (w / 64) fun x =>
      { x with wd := x.wd.map fun _ => s.now, wdFired := false }) := .step (State.updCore_keeps ..) (by decide) (setWaiter_keeps ..)
  have hclu : ((setWaiter w none s).updCore (w / 64) fun x => { x with wd := x.wd.map fun _ => s.now, wdFired := false }).coreClu (w / 64) =
      s.coreClu (w / 64) := by
    simp only [State.coreClu, hk.clusters_eq rfl, State.cluCfg, hk.cfg_eq rfl]
  unfold releaseWait
  extract_lets s1
  rw [waitRespond, hclu]
  exact (epRespond_responds ..).of_ep (hk.ep_eq rfl)

/-- A wait that is ended by hand: every other stands, and the record follows. -/
theorem waitEnded {c : Instr} {body : State → DescOut} {e : State → State} {a o x p n stat val : Nat}
    (hx : exec c s = act (runDesc h descSynAct body) s) (hr : Runs h descSynAct s)
    (hb : body (descBegin h.ctx.val s) = .done 0 0 (synManual a o x p n (e (descBegin h.ctx.val s))))
    (hends : Ends [w] (descBegin h.ctx.val s) (e (descBegin h.ctx.val s)))
    (hbet : Between h.ctx.val (descBegin h.ctx.val s) (e (descBegin h.ctx.val s)))
    (hk : Keeps [.hm, .ep, .hif, .ldg, .trs, .syn] (descBegin h.ctx.val s) (e (descBegin h.ctx.val s)))
    (hresp : Responds ((descBegin h.ctx.val s).coreClu (w / 64)) (w / 4) (w % 4) stat val (descBegin h.ctx.val s) (e (descBegin h.ctx.val s))) :
    ∃ t, exec c s = .next t ∧ t.waiter w = none ∧ (∀ k, k ≠ w → t.waiter k = s.waiter k) ∧
      Responds (s.coreClu (w / 64)) (w / 4) (w % 4) stat val s t ∧ t.syn.obj = s.syn.obj ∧
      (t.syn = (e (descBegin h.ctx.val s)).syn) ∧ Completes h 0x60 0 0 s t ∧
      Only [.hm, .ep, .hif, .ldg, .trs, .syn] s t := by
  let b := descBegin h.ctx.val s
  have hkb : Keeps [.hif] s b := descBegin_keeps ..
  obtain ⟨t, he, ht⟩ := exec_of_done hx hr hb (hbet.trans (synManual_between ..))
  have hsyn : t.syn = (e b).syn := (ht.keeps.syn_eq rfl).trans (synManual_syn ..)
  have hep : t.ep = (e b).ep := (ht.keeps.ep_eq rfl).trans (synManual_ep ..)
  have htw : ∀ k, t.waiter k = (e b).waiter k := waiter_of_wtr (by rw [hsyn])
  refine ⟨t, he, by rw [htw, hends.waiter]; simp, fun k hk => ?_, ?_, ?_, hsyn, ht.completes, Keeps.only (.step ht.keeps (by decide)
    (.step (synManual_keeps ..) (by decide) (.step hk (by decide) (hkb.mono (by decide)))))⟩
  · rw [htw, hends.waiter, if_neg (by simpa using hk)]
    exact waiter_of_wtr (by rw [descBegin_syn]) k
  · have h1 := (hresp.of_answers (Answers.of_ep hep)).of_ep (s := s) (hkb.ep_eq rfl)
    exact h1
  · rw [hsyn, hends.obj, descBegin_syn]

theorem releaseWaiter_effect (hr : Runs h descSynAct s) (hw : w < 8192) (hy : s.waiter w = some y) :
    ∃ t, exec (.releaseWaiter h w) s = .next t ∧ t.waiter w = none ∧ (∀ k, k ≠ w → t.waiter k = s.waiter k) ∧
      (y.op ≠ 8 → Responds (s.coreClu (w / 64)) (w / 4) (w % 4) 0 (s.getObj y.obj).shown s t) ∧
      t.syn.obj = s.syn.obj ∧ t.syn.grp = s.syn.grp ∧ Completes h 0x60 0 0 s t ∧
      Only [.hm, .ep, .hif, .ldg, .trs, .syn] s t := by
  let b := descBegin h.ctx.val s
  have hwt : ∀ k, b.waiter k = s.waiter k := waiter_of_wtr (by rw [descBegin_syn])
  obtain ⟨t, he, h1, h2, h3, h4, h5, h6, h7⟩ := waitEnded (c := .releaseWaiter h w) (e := releaseWait w (handAnswer y b)) rfl hr
    (bodyReleaseWaiter_some hw ((hwt w).trans hy)) (releaseWait_ends ..) (releaseWait_between ..) (releaseWait_keeps ..)
    (releaseWait_responds ..)
  refine ⟨t, he, h1, h2, fun hop => ?_, h4, ?_, h6, h7⟩
  · rw [handAnswer, if_neg hop, getObj_of_syn (descBegin_syn ..)] at h3
    exact h3
  · rw [h5, releaseWait_grp, descBegin_syn]

theorem failWaiter_effect (hr : Runs h descSynAct s) (hw : w < 8192) (hy : s.waiter w = some y) :
    ∃ t, exec (.failWaiter h w) s = .next t ∧ t.waiter w = none ∧ (∀ k, k ≠ w → t.waiter k = s.waiter k) ∧
      Responds (s.coreClu (w / 64)) (w / 4) (w % 4) 0x7009 0 s t ∧ t.syn.obj = s.syn.obj ∧ Completes h 0x60 0 0 s t ∧
      Only [.hm, .ep, .hif, .ldg, .trs, .syn] s t := by
  let b := descBegin h.ctx.val s
  have hy' : b.waiter w = some y := (waiter_of_wtr (by rw [descBegin_syn]) w).trans hy
  obtain ⟨t, he, h1, h2, h3, h4, -, h6, h7⟩ := waitEnded (c := .failWaiter h w) (e := failWait 0x7009 w) rfl hr
    (bodyFailWaiter_some hw hy') (failWait_ends ..) (failWait_between ..) (failWait_keeps ..) (failWait_answer hy').1
  exact ⟨t, he, h1, h2, h3, h4, h6, h7⟩

end Waits

section Windows
variable {s : State} {h : DescHdr} {i : Nat} {f : Bool}

theorem mem_winObjs {o : Nat} : o ∈ winObjs i ↔ o / 64 = i := by
  rw [winObjs, List.mem_map]
  constructor
  · rintro ⟨j, hj, rfl⟩
    have := List.mem_range.mp hj
    omega
  · rintro rfl
    exact ⟨o % 64, List.mem_range.mpr (Nat.mod_lt _ (by decide)), by omega⟩

theorem winObjs_nodup (i : Nat) : (winObjs i).Nodup := List.nodup_range.map fun a b hab => by simpa using hab

/-- The objects of a window, each cleared to its kind (R332). -/
theorem clearWin_getObj (i k : Nat) (s : State) : (forList (winObjs i) clearObj s).getObj k =
    if k / 64 = i then { count := (s.getObj k).count } else s.getObj k := by
  have he := forList_entry (State.getObj · k) (f := clearObj) (g := fun x => { count := x.count }) (k := k)
    (fun u => State.getObj_updObj ..) (fun j hj u => State.getObj_updObj_ne _ _ _ (Ne.symm hj)) (winObjs_nodup i) s
  rw [he]
  simp only [mem_winObjs]

theorem clearWin_wtr (i : Nat) (s : State) : (forList (winObjs i) clearObj s).syn.wtr = s.syn.wtr :=
  forList_eq (·.syn.wtr) _ (f := clearObj) (fun _ _ => by rfl) s

theorem clearWin_keeps (i : Nat) (s : State) : Keeps [.syn] s (forList (winObjs i) clearObj s) :=
  forList_keeps _ (fun _ _ hu => .step (clearObj_keeps ..) (by decide) hu) (.refl ..)

/-- The waits of a list, failed. -/
def failAll (stat : Nat) (l : List (Nat × Waiter)) (s : State) : State := forList l (fun e => failWait stat e.1) s

theorem failAll_ends (stat : Nat) (l : List (Nat × Waiter)) (s : State) : Ends (l.map Prod.fst) s (failAll stat l s) :=
  Ends.forList Prod.fst (fun e u => failWait_ends stat e.1 u) l s

theorem failAll_between (c stat : Nat) (l : List (Nat × Waiter)) (s : State) : Between c s (failAll stat l s) :=
  (Between.refl c s).forList fun e u => failWait_between stat e.1 u

theorem failAll_keeps (stat : Nat) (l : List (Nat × Waiter)) (s : State) :
    Keeps [.hm, .ep, .hif, .ldg, .trs, .syn] s (failAll stat l s) :=
  forList_keeps _ (fun _ _ hu => .step (failWait_keeps ..) (by decide) hu) (.refl ..)

/-- Failing the waits that satisfy a condition ends those and no others. -/
theorem failWaits_waiter (hw : WaitersOk s) (stat : Nat) (p : Nat → Waiter → Bool) :
    (∀ k y, s.waiter k = some y → p k y = true → (failAll stat (s.waits p) s).waiter k = none) ∧
      (∀ k y, s.waiter k = some y → p k y = false → (failAll stat (s.waits p) s).waiter k = some y) := by
  have hends := failAll_ends stat (s.waits p) s
  refine ⟨fun k y hy hp => ?_, fun k y hy hp => ?_⟩
  · rw [hends.waiter, if_pos (List.mem_map.mpr ⟨(k, y), hw.mem_waits.mpr ⟨hy, hp⟩, rfl⟩)]
  · rw [hends.waiter, if_neg, hy]
    rintro hm
    obtain ⟨⟨j, x⟩, hjx, rfl⟩ := List.mem_map.mp hm
    obtain ⟨hx, hpx⟩ := hw.mem_waits.mp hjx
    rw [hy] at hx
    cases hx
    rw [hp] at hpx
    exact absurd hpx (by decide)

theorem bodyResetWindow_eq (f : Bool) (i : Nat) (s : State) : bodyResetWindow f i s =
    if 128 ≤ i then .fail 0x700D s
    else if s.winWaits i ≠ [] ∧ !f then .fail 0x700B s
    else .done 0 (s.winWaits i).length (synManual 5 i 0 0 (s.winWaits i).length
      (forList (winObjs i) clearObj (failAll 0x7009 (s.winWaits i) s))) := rfl

theorem winWaits_ne_nil (hw : WaitersOk s) : s.winWaits i ≠ [] ↔ ∃ k y, s.waiter k = some y ∧ y.obj / 64 = i := by
  constructor
  · intro hne
    obtain ⟨⟨k, y⟩, he⟩ := List.exists_mem_of_ne_nil _ hne
    obtain ⟨h1, h2⟩ := hw.mem_waits.mp he
    exact ⟨k, y, h1, of_decide_eq_true h2⟩
  · rintro ⟨k, y, h1, h2⟩
    exact List.ne_nil_of_mem (hw.mem_waits.mpr ⟨h1, decide_eq_true h2⟩)

theorem resetWindow_effect (hr : Runs h descSynAct s) (hw : WaitersOk s) :
    (128 ≤ i → ∃ t, exec (.resetWindow h f i) s = .next t ∧ Completes h 0x60 0x700D 0 s t ∧ Only [.hm, .hif] s t) ∧
    (i < 128 → (∃ k y, s.waiter k = some y ∧ y.obj / 64 = i) → f = false → ∃ t, exec (.resetWindow h f i) s = .next t ∧
      Completes h 0x60 0x700B 0 s t ∧ Only [.hm, .hif] s t) ∧
    (i < 128 → f = true ∨ (∀ k y, s.waiter k = some y → y.obj / 64 ≠ i) →
      ∃ t, exec (.resetWindow h f i) s = .next t ∧ Completes h 0x60 0 (s.winWaits i).length s t ∧
      (∀ k y, s.waiter k = some y → y.obj / 64 = i → t.waiter k = none) ∧
      (∀ k y, s.waiter k = some y → y.obj / 64 ≠ i → t.waiter k = some y) ∧
      (∀ k, k / 64 = i → t.getObj k = { count := (s.getObj k).count }) ∧
      (∀ k, k / 64 ≠ i → t.getObj k = s.getObj k) ∧ Only [.hm, .ep, .hif, .ldg, .trs, .syn] s t) := by
  have hx : exec (.resetWindow h f i) s = act (runDesc h descSynAct (bodyResetWindow f i)) s := rfl
  let b := descBegin h.ctx.val s
  have hkb : Keeps [.hif] s b := descBegin_keeps ..
  have hwin : b.winWaits i = s.winWaits i := by
    unfold State.winWaits State.waits
    rw [descBegin_syn]
  refine ⟨fun hi => refused_of_fail hx hr (if_pos hi), fun hi hwait hf => refused_of_fail hx hr ?_, fun hi hfree => ?_⟩
  · rw [bodyResetWindow_eq, if_neg (by omega), if_pos ⟨by rw [hwin]; exact (winWaits_ne_nil hw).mpr hwait, by rw [hf]; rfl⟩]
  · have hno : ¬ (b.winWaits i ≠ [] ∧ (!f) = true) := by
      rintro ⟨hne, hf⟩
      rw [hwin] at hne
      obtain ⟨k, y, h1, h2⟩ := (winWaits_ne_nil hw).mp hne
      rcases hfree with hf' | hfree
      · rw [hf'] at hf; exact absurd hf (by decide)
      · exact hfree k y h1 h2
    let v := failAll 0x7009 (s.winWaits i) b
    let u := forList (winObjs i) clearObj v
    have hd : bodyResetWindow f i b = .done 0 (s.winWaits i).length (synManual 5 i 0 0 (s.winWaits i).length u) := by
      rw [bodyResetWindow_eq, if_neg (by omega), if_neg hno, hwin]
    obtain ⟨t, he, ht⟩ := exec_of_done hx hr hd (((failAll_between ..).keeps (clearWin_keeps ..) rfl rfl).trans (synManual_between ..))
    have hsyn : t.syn = u.syn := (ht.keeps.syn_eq rfl).trans (synManual_syn ..)
    have htw : ∀ k, t.waiter k = v.waiter k := waiter_of_wtr (by rw [hsyn]; exact clearWin_wtr i v)
    have hvo : ∀ k, v.getObj k = s.getObj k := getObj_of_obj ((failAll_ends ..).obj.trans (congrArg Sync.obj (descBegin_syn ..)))
    have hto : ∀ k, t.getObj k = if k / 64 = i then { count := (s.getObj k).count } else s.getObj k := fun k => by
      rw [getObj_of_syn hsyn, clearWin_getObj, hvo]
    have hends := failWaits_waiter (s := b) (hw.of_wtr (by rw [descBegin_syn])) 0x7009 fun _ x => decide (x.obj / 64 = i)
    rw [show b.waits (fun _ x => decide (x.obj / 64 = i)) = s.winWaits i from hwin] at hends
    have hwt : ∀ k, b.waiter k = s.waiter k := waiter_of_wtr (by rw [descBegin_syn])
    simp only [hwt, decide_eq_true_eq, decide_eq_false_iff_not] at hends
    exact ⟨t, he, ht.completes, fun k y hy ho => (htw k).trans (hends.1 k y hy ho), fun k y hy ho => (htw k).trans (hends.2 k y hy ho),
      fun k hk => (hto k).trans (if_pos hk), fun k hk => (hto k).trans (if_neg hk), Keeps.only (.step ht.keeps (by decide)
        (.step (synManual_keeps ..) (by decide) (.step (clearWin_keeps ..) (by decide) (.step (failAll_keeps ..) (by decide)
        (hkb.mono (by decide))))))⟩

end Windows

/-- Settles O47: what the acts by hand refuse, and what they leave of objects and waits. -/
theorem actsByHand : Obligations.ActsByHand := by
  intro s h o v w f hr hw x g
  have hob : ∀ k, (descBegin h.ctx.val s).getObj k = s.getObj k := getObj_of_syn (descBegin_syn ..)
  have hwt : ∀ k, (descBegin h.ctx.val s).waiter k = s.waiter k := waiter_of_wtr (by rw [descBegin_syn])
  refine ⟨fun h8 c hc => ?_, fun h8 hk c hc => ?_, fun h8 hk => ⟨?_, ?_, ?_⟩, fun h8 hk => adjust_effect hr hw h8 hk, fun hno c hc => ?_,
    fun y h8 hy => ⟨releaseWaiter_effect hr h8 hy, failWaiter_effect hr h8 hy⟩, resetWindow_effect hr hw⟩
  · rcases hc with rfl | rfl | rfl
    · exact refused_of_fail (body := bodySynFlag true o) rfl hr (bodySynFlag_range h8)
    · exact refused_of_fail (body := bodySynFlag false o) rfl hr (bodySynFlag_range h8)
    · exact refused_of_fail (body := bodyAdjust o v) rfl hr (if_pos h8)
  · rcases hc with rfl | rfl
    · exact refused_of_fail (body := bodySynFlag true o) rfl hr (bodySynFlag_kind h8 ((congrArg _ (hob o)).trans hk))
    · exact refused_of_fail (body := bodySynFlag false o) rfl hr (bodySynFlag_kind h8 ((congrArg _ (hob o)).trans hk))
  · obtain ⟨t, he, hobj, hc, hrel, hkept, hothers, ho⟩ := synFlag_effect true (c := .synActSet h o) rfl hr hw h8 hk
    have hg : (handFlagged true x).gen = g := by
      simp only [handFlagged, g]
      cases x.level <;> rfl
    refine ⟨t, he, by rw [hobj]; rfl, by rw [hobj]; exact hg, ?_, hrel, hkept, hothers, ho⟩
    rw [show s.getObj o = x from rfl, hg] at hc
    have hr : (if true ≠ x.level then 256 else 0) = if x.level then 0 else 256 := by cases x.level <;> rfl
    rw [hr] at hc
    exact hc
  · obtain ⟨t, he, hobj, hc, hrel, hkept, hothers, ho⟩ := synFlag_effect false (c := .synActClear h o) rfl hr hw h8 hk
    refine ⟨t, he, by rw [hobj]; rfl, by rw [hobj]; rfl, ?_, hrel, hkept, hothers, ho⟩
    have hr : b2n false + 16 * (handFlagged false (s.getObj o)).gen + (if false ≠ (s.getObj o).level then 256 else 0) =
        16 * x.gen + if x.level then 256 else 0 := by
      simp only [b2n, handFlagged, x]
      cases (s.getObj o).level <;> simp
    rw [hr] at hc
    exact hc
  · exact refused_of_fail (body := bodyAdjust o v) rfl hr ((if_neg (by omega)).trans (if_pos (by
      rw [hob, show (s.getObj o).count = false from hk]; rfl)))
  · rcases hc with rfl | rfl
    · exact refused_of_fail (body := bodyReleaseWaiter w) rfl hr (bodyReleaseWaiter_none (by rwa [hwt]))
    · exact refused_of_fail (body := bodyFailWaiter w) rfl hr (bodyFailWaiter_none (by rwa [hwt]))

end Sys2Proof.Machine
end

section
/-!
Kinds, groups and allocation maps (R321, R326, R332, R333, R334).
-/
namespace Sys2Proof.Machine

section Reads
variable {s t : State}

theorem groupOf_of_syn (h : t.syn = s.syn) (o : Nat) : t.groupOf o = s.groupOf o := by rw [State.groupOf, h]; rfl

theorem waits_of_syn (h : t.syn = s.syn) (p : Nat → Waiter → Bool) : t.waits p = s.waits p := by rw [State.waits, h]; rfl

theorem grpWaits_of_syn (h : t.syn = s.syn) (g : Nat) : t.grpWaits g = s.grpWaits g := by
  rw [State.grpWaits, waits_of_syn h, getGrp_of_syn h]; rfl

theorem objStat_of_syn (h : t.syn = s.syn) (o : Nat) : objStat t o = objStat s o := by
  simp only [objStat, getObj_of_syn h, groupOf_of_syn h, h]

theorem wtrObj_of_syn (h : t.syn = s.syn) (w : Nat) : wtrObj t w = wtrObj s w := by
  unfold wtrObj
  rw [waiter_of_wtr (congrArg Sync.wtr h)]

end Reads

section Kinds
variable {s : State} {h : DescHdr} {i k : Nat}

/-- The objects of a window whose kind is to change (R321). -/
def kindChanges (i k : Nat) (s : State) : List Nat := (List.range 64).filter fun j => (s.getObj (64 * i + j)).count ≠ bitOf k j

/-- The objects of a window with their kinds set: one whose kind changes is cleared. -/
def kindsSet (i k : Nat) (s : State) : State :=
  forList (kindChanges i k s) (fun j => State.updObj (64 * i + j) fun _ => { ({} : SynObj) with count := bitOf k j }) s

theorem kindsSet_keeps (i k : Nat) (s : State) : Keeps [.syn] s (kindsSet i k s) :=
  forList_keeps _ (fun _ _ hu => .step (State.updObj_keeps ..) (by decide) hu) (.refl ..)

theorem kindsSet_wtr (i k : Nat) (s : State) : (kindsSet i k s).syn.wtr = s.syn.wtr :=
  forList_eq (·.syn.wtr) _ (f := fun j => State.updObj (64 * i + j) fun _ => { ({} : SynObj) with count := bitOf k j })
    (fun _ _ => by rfl) s

theorem kindsSet_getObj {j : Nat} (hj : j < 64) (s : State) : (kindsSet i k s).getObj (64 * i + j) =
    if (s.getObj (64 * i + j)).count = bitOf k j then s.getObj (64 * i + j) else { count := bitOf k j } := by
  have he := forList_entry (State.getObj · (64 * i + j)) (f := fun m => State.updObj (64 * i + m) fun _ => { ({} : SynObj) with count := bitOf k m })
    (g := fun _ => { count := bitOf k j }) (k := j) (fun u => State.getObj_updObj ..)
    (fun m hm u => State.getObj_updObj_ne _ _ _ (by omega)) (l := kindChanges i k s) (List.nodup_range.filter _) s
  refine he.trans ?_
  simp only [kindChanges, List.mem_filter, List.mem_range, hj, true_and, ne_eq, decide_not, Bool.not_eq_true', decide_eq_false_iff_not, ite_not]

theorem kindsSet_getObj_ne {m : Nat} (hm : m / 64 ≠ i) (s : State) : (kindsSet i k s).getObj m = s.getObj m := by
  refine forList_eq_of_mem (State.getObj · m) (fun j hj u => State.getObj_updObj_ne _ _ _ ?_) s
  have := List.mem_range.mp (List.mem_filter.mp hj).1
  omega

theorem bodySetKind_eq (i k : Nat) (s : State) : bodySetKind i k s =
    if 128 ≤ i then .fail 0x700D s
    else if s.winWaits i ≠ [] ∨ (winObjs i).any fun o => (s.groupOf o).isSome then .fail 0x700B s
    else .done 0 0 (synManual 6 i (maskOf ((List.range 64).filter fun j => (s.getObj (64 * i + j)).count)) k 0 (kindsSet i k s)) := rfl

theorem setKind_effect (hr : Runs h descSynAct s) :
    (128 ≤ i → ∃ t, exec (.setKind h i k) s = .next t ∧ Completes h 0x60 0x700D 0 s t ∧ Only [.hm, .hif] s t) ∧
    (i < 128 → s.winWaits i ≠ [] ∨ (∃ m ∈ winObjs i, (s.groupOf m).isSome = true) → ∃ t, exec (.setKind h i k) s = .next t ∧
      Completes h 0x60 0x700B 0 s t ∧ Only [.hm, .hif] s t) ∧
    (i < 128 → s.winWaits i = [] → (∀ m ∈ winObjs i, s.groupOf m = none) → ∃ t, exec (.setKind h i k) s = .next t ∧
      Completes h 0x60 0 0 s t ∧
      (∀ j < 64, t.getObj (64 * i + j) = if (s.getObj (64 * i + j)).count = bitOf k j then s.getObj (64 * i + j)
        else { count := bitOf k j }) ∧
      (∀ m, m / 64 ≠ i → t.getObj m = s.getObj m) ∧ t.syn.wtr = s.syn.wtr ∧ Only [.hm, .hif, .ldg, .syn] s t) := by
  have hx : exec (.setKind h i k) s = act (runDesc h descSynAct (bodySetKind i k)) s := rfl
  let b := descBegin h.ctx.val s
  have hkb : Keeps [.hif] s b := descBegin_keeps ..
  have hsyn : b.syn = s.syn := descBegin_syn ..
  have hwin : b.winWaits i = s.winWaits i := waits_of_syn hsyn _
  have hany : ((winObjs i).any fun o => (b.groupOf o).isSome) = (winObjs i).any fun o => (s.groupOf o).isSome := by
    simp only [groupOf_of_syn hsyn]
  refine ⟨fun hi => refused_of_fail hx hr (if_pos hi), fun hi hin => refused_of_fail hx hr ?_, fun hi hno hfree => ?_⟩
  · rw [bodySetKind_eq, if_neg (by omega), if_pos]
    rw [hwin, hany]
    exact hin.imp_right fun ⟨m, hm, hs⟩ => List.any_eq_true.mpr ⟨m, hm, hs⟩
  · have hpass : ¬ (b.winWaits i ≠ [] ∨ ((winObjs i).any fun o => (b.groupOf o).isSome) = true) := by
      rw [hwin, hany, List.any_eq_true]
      rintro (hne | ⟨m, hm, hs⟩)
      · exact hne hno
      · rw [hfree m hm] at hs; exact absurd hs (by decide)
    obtain ⟨t, he, ht⟩ := exec_of_done hx hr ((bodySetKind_eq i k b).trans ((if_neg (by omega)).trans (if_neg hpass)))
      (((kindsSet_keeps ..).between rfl rfl).trans (synManual_between ..))
    have ht' : t.syn = (kindsSet i k b).syn := (ht.keeps.syn_eq rfl).trans (synManual_syn ..)
    have hob : ∀ m, b.getObj m = s.getObj m := getObj_of_syn hsyn
    refine ⟨t, he, ht.completes, fun j hj => ?_, fun m hm => ?_, ?_, Keeps.only (.step ht.keeps (by decide)
      (.step (synManual_keeps ..) (by decide) (.step (kindsSet_keeps ..) (by decide) (hkb.mono (by decide)))))⟩
    · rw [getObj_of_syn ht', kindsSet_getObj hj, hob]
    · rw [getObj_of_syn ht', kindsSet_getObj_ne hm, hob]
    · rw [ht', kindsSet_wtr, hsyn]

end Kinds

section Groups
variable {s : State} {h : DescHdr} {g p : Nat} {l : List Nat}

/-- Whether an object may not be a member of group `g`: it is no count, or a member of another (R321). -/
def memberUnfit (g : Nat) (s : State) (m : Nat) : Bool :=
  !(s.getObj m).count || (match s.groupOf m with | some k => decide (k ≠ g) | none => false)

theorem memberUnfit_iff {m : Nat} : memberUnfit g s m = true ↔
    (s.getObj m).count = false ∨ ∃ j, s.groupOf m = some j ∧ j ≠ g := by
  rw [memberUnfit, Bool.or_eq_true, Bool.not_eq_true']
  refine or_congr_right ?_
  cases s.groupOf m with
  | none => simp
  | some j => simp

theorem memberUnfit_of_syn {t : State} (h : t.syn = s.syn) (m : Nat) : memberUnfit g t m = memberUnfit g s m := by
  unfold memberUnfit
  rw [getObj_of_syn h, groupOf_of_syn h]

theorem bodyGroupDef_eq (g p : Nat) (l : List Nat) (s : State) : bodyGroupDef g p l s =
    if 512 ≤ g ∨ 16 < l.length then .fail 0x700D s
    else if l = [] then
      if (s.getGrp g).valid && s.grpWaits g then .fail 0x700B s
      else .done 0 0 (synManual 7 g 0 0 0 (s.updGrp g fun z => { ({} : SynGrp) with gen := z.gen }))
    else if 8192 < p ∨ l.any fun m => decide (8192 ≤ m) then .fail 0x700D s
    else if p = 0 ∨ !l.Nodup ∨ l.any (memberUnfit g s) then .fail 0x700C s
    else if (s.getGrp g).valid && s.grpWaits g then .fail 0x700B s
    else .done 0 0 (synManual 7 g 0 0 0 (s.updGrp g fun z => { valid := true, p := p, members := l, arrived := 0, gen := z.gen })) := rfl

/-- A group that is written anew: no other group and no object changes. -/
theorem groupWritten {f : SynGrp → SynGrp} (hr : Runs h descSynAct s)
    (hb : bodyGroupDef g p l (descBegin h.ctx.val s) = .done 0 0 (synManual 7 g 0 0 0 ((descBegin h.ctx.val s).updGrp g f))) :
    ∃ t, exec (.groupDef h g p l) s = .next t ∧ Completes h 0x60 0 0 s t ∧ t.getGrp g = f (s.getGrp g) ∧
      (∀ j, j ≠ g → t.getGrp j = s.getGrp j) ∧ t.syn.obj = s.syn.obj ∧ Only [.hm, .hif, .ldg, .syn] s t := by
  let b := descBegin h.ctx.val s
  have hkb : Keeps [.hif] s b := descBegin_keeps ..
  have hgrp : ∀ j, b.getGrp j = s.getGrp j := getGrp_of_syn (descBegin_syn ..)
  obtain ⟨t, he, ht⟩ := exec_of_done (c := .groupDef h g p l) rfl hr hb
    (((State.updGrp_keeps ..).between rfl rfl).trans (synManual_between ..))
  have hsyn : t.syn = (b.updGrp g f).syn := (ht.keeps.syn_eq rfl).trans (synManual_syn ..)
  refine ⟨t, he, ht.completes, ?_, fun j hj => ?_, ?_, Keeps.only (.step ht.keeps (by decide)
    (.step (synManual_keeps ..) (by decide) (.step (State.updGrp_keeps ..) (by decide) (hkb.mono (by decide)))))⟩
  · rw [getGrp_of_syn hsyn, State.getGrp_updGrp, hgrp]
  · rw [getGrp_of_syn hsyn, State.getGrp_updGrp_ne _ _ _ hj, hgrp]
  · rw [hsyn, (updGrp_kept ..).2.1, descBegin_syn]

theorem groupDef_effect (hr : Runs h descSynAct s) :
    (512 ≤ g ∨ 16 < l.length → ∃ t, exec (.groupDef h g p l) s = .next t ∧ Completes h 0x60 0x700D 0 s t ∧ Only [.hm, .hif] s t) ∧
    (g < 512 → (s.getGrp g).valid = true → s.grpWaits g = true → l = [] → ∃ t, exec (.groupDef h g p l) s = .next t ∧
      Completes h 0x60 0x700B 0 s t ∧ Only [.hm, .hif] s t) ∧
    (g < 512 → (s.getGrp g).valid = false ∨ s.grpWaits g = false →
      ∃ t, exec (.groupDef h g p []) s = .next t ∧ Completes h 0x60 0 0 s t ∧
        t.getGrp g = { gen := (s.getGrp g).gen } ∧ (∀ j, j ≠ g → t.getGrp j = s.getGrp j) ∧ t.syn.obj = s.syn.obj ∧
        Only [.hm, .hif, .ldg, .syn] s t) ∧
    (g < 512 → l ≠ [] → l.length ≤ 16 →
      (8192 < p ∨ (∃ m ∈ l, 8192 ≤ m) → ∃ t, exec (.groupDef h g p l) s = .next t ∧ Completes h 0x60 0x700D 0 s t ∧
        Only [.hm, .hif] s t) ∧
      (p ≤ 8192 → (∀ m ∈ l, m < 8192) →
        (p = 0 ∨ ¬ l.Nodup ∨ (∃ m ∈ l, (s.getObj m).count = false ∨ ∃ j, s.groupOf m = some j ∧ j ≠ g) →
          ∃ t, exec (.groupDef h g p l) s = .next t ∧ Completes h 0x60 0x700C 0 s t ∧ Only [.hm, .hif] s t) ∧
        (0 < p → l.Nodup → (∀ m ∈ l, (s.getObj m).count = true ∧ ∀ j, s.groupOf m = some j → j = g) →
          ((s.getGrp g).valid = true → s.grpWaits g = true → ∃ t, exec (.groupDef h g p l) s = .next t ∧
            Completes h 0x60 0x700B 0 s t ∧ Only [.hm, .hif] s t) ∧
          ((s.getGrp g).valid = false ∨ s.grpWaits g = false →
            ∃ t, exec (.groupDef h g p l) s = .next t ∧ Completes h 0x60 0 0 s t ∧
              t.getGrp g = { valid := true, p := p, members := l, arrived := 0, gen := (s.getGrp g).gen } ∧
              (∀ j, j ≠ g → t.getGrp j = s.getGrp j) ∧ t.syn.obj = s.syn.obj ∧
              Only [.hm, .hif, .ldg, .syn] s t)))) := by
  have hx : ∀ l, exec (.groupDef h g p l) s = act (runDesc h descSynAct (bodyGroupDef g p l)) s := fun _ => rfl
  let b := descBegin h.ctx.val s
  have hsyn : b.syn = s.syn := descBegin_syn ..
  have hbusy : ((b.getGrp g).valid && b.grpWaits g) = ((s.getGrp g).valid && s.grpWaits g) := by
    rw [getGrp_of_syn hsyn, grpWaits_of_syn hsyn]
  have hwaits : ((b.getGrp g).valid && b.grpWaits g) = true ↔ (s.getGrp g).valid = true ∧ s.grpWaits g = true := by
    rw [hbusy, Bool.and_eq_true]
  have hfree : (s.getGrp g).valid = false ∨ s.grpWaits g = false → ¬ ((b.getGrp g).valid && b.grpWaits g) = true := by
    rw [hwaits]
    rintro (h1 | h1) ⟨h2, h3⟩ <;> simp_all
  refine ⟨fun hbad => refused_of_fail (hx l) hr (if_pos hbad), fun hg h1 h2 hl => refused_of_fail (hx l) hr ?_, fun hg hno => ?_,
    fun hg hne hlen => ?_⟩
  · subst hl
    exact (bodyGroupDef_eq ..).trans ((if_neg (by simp; omega)).trans ((if_pos rfl).trans (if_pos (hwaits.mpr ⟨h1, h2⟩))))
  · exact groupWritten hr ((bodyGroupDef_eq ..).trans ((if_neg (by simp; omega)).trans ((if_pos rfl).trans (if_neg (hfree hno)))))
  have h0 : ¬ (512 ≤ g ∨ 16 < l.length) := by omega
  refine ⟨fun hbad => refused_of_fail (hx l) hr ?_, fun hp hm => ?_⟩
  · rw [bodyGroupDef_eq, if_neg h0, if_neg hne, if_pos]
    simpa [List.any_eq_true] using hbad
  have h1 : ¬ (8192 < p ∨ (l.any fun m => decide (8192 ≤ m)) = true) := by
    simp only [List.any_eq_true, decide_eq_true_eq]
    rintro (h1 | ⟨m, hml, h1⟩)
    · omega
    · exact absurd (hm m hml) (by omega)
  have hbad : (p = 0 ∨ (!decide l.Nodup) = true ∨ l.any (memberUnfit g b) = true) ↔
      p = 0 ∨ ¬ l.Nodup ∨ ∃ m ∈ l, (s.getObj m).count = false ∨ ∃ j, s.groupOf m = some j ∧ j ≠ g := by
    simp only [List.any_eq_true, memberUnfit_of_syn hsyn, memberUnfit_iff, Bool.not_eq_true', decide_eq_false_iff_not]
  refine ⟨fun hb => refused_of_fail (hx l) hr ?_, fun hp0 hnd hfit => ?_⟩
  · rw [bodyGroupDef_eq, if_neg h0, if_neg hne, if_neg h1, if_pos (hbad.mpr hb)]
  have h2 : ¬ (p = 0 ∨ (!decide l.Nodup) = true ∨ l.any (memberUnfit g b) = true) := by
    rw [hbad]
    rintro (h2 | h2 | ⟨m, hml, h2 | ⟨j, hj, hne⟩⟩)
    · omega
    · exact h2 hnd
    · rw [(hfit m hml).1] at h2; exact absurd h2 (by decide)
    · exact hne ((hfit m hml).2 j hj)
  refine ⟨fun h3 h4 => refused_of_fail (hx l) hr ?_, fun hno =>
    groupWritten (f := fun z => { valid := true, p := p, members := l, arrived := 0, gen := z.gen }) hr ?_⟩
  · rw [bodyGroupDef_eq, if_neg h0, if_neg hne, if_neg h1, if_neg h2, if_pos (hwaits.mpr ⟨h3, h4⟩)]
  · rw [bodyGroupDef_eq, if_neg h0, if_neg hne, if_neg h1, if_neg h2, if_neg (hfree hno)]

end Groups

section Own
variable {s t : State}

/-- The windows' owners stand as a wait changes. -/
theorem setWaiter_own (w : Nat) (v : Option Waiter) (s : State) : (setWaiter w v s).syn.own = s.syn.own :=
  (congrArg Sync.own (setWaiter_coreless w v s) :)

theorem releaseWait_own (w val : Nat) (s : State) : (releaseWait w val s).syn.own = s.syn.own := setWaiter_own w none s

theorem withdraw_own (x : Waiter) (s : State) : (withdraw x s).syn.own = s.syn.own := by
  unfold withdraw
  split
  · split <;> rfl
  · rfl

theorem reportFail_own (w stat : Nat) (x : Waiter) (s : State) : (reportFail w stat x s).syn.own = s.syn.own := by
  unfold reportFail
  extract_lets k s1 recent
  split
  · rw [(emitSyn_keeps ..).syn_eq rfl]; rfl
  · rfl

theorem failWait_own (stat w : Nat) (s : State) : (failWait stat w s).syn.own = s.syn.own := by
  cases h : s.waiter w with
  | none => rw [failWait_of_none h]
  | some x =>
    rw [failWait_of_some h]
    exact (setWaiter_own w none _).trans ((withdraw_own ..).trans (reportFail_own ..))

theorem failWait_ok (h : WaitersOk s) (stat w : Nat) : WaitersOk (failWait stat w s) := by
  cases hw : s.waiter w with
  | none => rw [failWait_of_none hw]; exact h
  | some x =>
    have hwtr : (failWait stat w s).syn.wtr = Tbl.set none s.syn.wtr w none := by
      rw [failWait_of_some hw]
      refine (setWaiter_wtr w none _).trans ?_
      rw [(withdraw_kept ..).1, (reportFail_kept ..).1]
    rw [WaitersOk, hwtr]
    exact Tbl.wf_set h _ _

theorem failAll_own (stat : Nat) (l : List (Nat × Waiter)) (s : State) : (failAll stat l s).syn.own = s.syn.own :=
  forList_eq (·.syn.own) l (f := fun e => failWait stat e.1) (fun e u => failWait_own stat e.1 u) s

theorem failAll_ok (h : WaitersOk s) (stat : Nat) (l : List (Nat × Waiter)) : WaitersOk (failAll stat l s) :=
  forList_ind (P := WaitersOk) (fun e _ _ hu => failWait_ok hu stat e.1) h

theorem releaseOn_own (o : Nat) (s : State) : (releaseOn o s).syn.own = s.syn.own :=
  forList_eq (·.syn.own) _ (f := fun e : Nat × Waiter => releaseWait e.1 (if (s.getObj o).count then (s.getObj o).value else flagVal (s.getObj o) e.2))
    (fun e u => releaseWait_own e.1 _ u) s

theorem releaseOn_ok (h : WaitersOk s) (o : Nat) : WaitersOk (releaseOn o s) :=
  forList_ind (P := WaitersOk) (fun e _ _ hu => releaseWait_ok hu e.1 _) h

/-- Waits on the objects of some windows have perhaps been released, and nothing else of the objects and waits has changed. -/
structure Released (win : Nat → Prop) (s t : State) : Prop where
  ok : WaitersOk t
  ended : ∀ k, s.waiter k = none → t.waiter k = none
  kept : ∀ k y, s.waiter k = some y → ¬ win (y.obj / 64) → t.waiter k = some y
  obj : t.syn.obj = s.syn.obj
  own : t.syn.own = s.syn.own

theorem Released.releaseOn {win : Nat → Prop} {o : Nat} (h : Released win s t) (ho : win (o / 64)) : Released win s (releaseOn o t) := by
  obtain ⟨ws, hends, hmem⟩ := releaseOn_ends h.ok o
  refine ⟨releaseOn_ok h.ok o, fun k hk => ?_, fun k y hy hn => ?_, hends.obj.trans h.obj, (releaseOn_own ..).trans h.own⟩
  · rw [hends.waiter, h.ended k hk, ite_self]
  · rw [hends.waiter, if_neg, h.kept k y hy hn]
    intro hk
    obtain ⟨x, hx, hxo, -⟩ := (hmem k).mp hk
    rw [h.kept k y hy hn] at hx
    cases hx
    rw [hxo] at hn
    exact hn ho

end Own

section Moves
variable {s : State} {moves : List (Nat × Nat)}

def srcsCleared (moves : List (Nat × Nat)) (s : State) : State := forList moves (fun m => forList (winObjs m.1) clearObj) s

/-- A window's objects written from 64 values. -/
def winWritten (b : Nat) (v : Nat → SynObj) (s : State) : State := forList (List.range 64) (fun i => State.updObj (64 * b + i) fun _ => v i) s

/-- Every destination with the objects that its source had in `s`. -/
def destsWritten (moves : List (Nat × Nat)) (s u : State) : State :=
  forList moves (fun m => winWritten m.2 fun i => s.getObj (64 * m.1 + i)) u

def memberMoved (moves : List (Nat × Nat)) (o : Nat) : Option Nat :=
  match movedTo moves o with
  | some n => some n
  | none => if moves.any fun m => m.2 = o / 64 then none else some o

def grpsMoved (moves : List (Nat × Nat)) (l : List Nat) (s : State) : State :=
  forList l (fun g => State.updGrp g fun y => { y with members := y.members.filterMap (memberMoved moves) }) s

def destsReleased (moves : List (Nat × Nat)) (s : State) : State := forList moves (fun m => forList (winObjs m.2) releaseOn) s

theorem moveWins_eq (moves : List (Nat × Nat)) (s : State) : moveWins moves s =
    destsReleased moves (grpsMoved moves (s.syn.grp.map Prod.fst) (destsWritten moves s (srcsCleared moves s))) := rfl

theorem winWritten_getObj (b k : Nat) (v : Nat → SynObj) (s : State) :
    (winWritten b v s).getObj k = if k / 64 = b then v (k % 64) else s.getObj k := by
  split
  · next hb =>
    have hk : 64 * b + k % 64 = k := by omega
    have he := forList_entry (State.getObj · (64 * b + k % 64)) (f := fun i => State.updObj (64 * b + i) fun _ => v i)
      (g := fun _ => v (k % 64)) (k := k % 64) (fun u => State.getObj_updObj ..)
      (fun m hm u => State.getObj_updObj_ne _ _ _ (by omega)) (l := List.range 64) List.nodup_range s
    rw [if_pos (List.mem_range.mpr (Nat.mod_lt _ (by decide))), hk] at he
    exact he
  · next hb =>
    refine forList_eq_of_mem (State.getObj · k) (fun j hj u => State.getObj_updObj_ne _ _ _ ?_) s
    have := List.mem_range.mp hj
    omega

/-- The objects and groups changed, before waits are released: waits and owners stand. -/
def winsMoved (moves : List (Nat × Nat)) (s : State) : State :=
  grpsMoved moves (s.syn.grp.map Prod.fst) (destsWritten moves s (srcsCleared moves s))

theorem winsMoved_obj (moves : List (Nat × Nat)) (s : State) :
    (winsMoved moves s).syn.obj = (destsWritten moves s (srcsCleared moves s)).syn.obj :=
  forList_eq (·.syn.obj) _ (f := fun g => State.updGrp g fun y => { y with members := y.members.filterMap (memberMoved moves) })
    (fun _ _ => by rfl) _

/-- What the moves leave alone of the unit: they write objects and groups. -/
theorem winsMoved_of {β : Type} (get : State → β) (hobj : ∀ o f u, get (State.updObj o f u) = get u)
    (hgrp : ∀ g f u, get (State.updGrp g f u) = get u) (moves : List (Nat × Nat)) (s : State) : get (winsMoved moves s) = get s := by
  have h1 : get (srcsCleared moves s) = get s :=
    forList_eq get moves (f := fun m => forList (winObjs m.1) clearObj) (fun m u => forList_eq get _ (f := clearObj) (fun _ _ => hobj ..) u) s
  have h2 : get (destsWritten moves s (srcsCleared moves s)) = get (srcsCleared moves s) :=
    forList_eq get moves (f := fun m => winWritten m.2 fun i => s.getObj (64 * m.1 + i)) (fun m u =>
      forList_eq get (List.range 64) (f := fun i => State.updObj (64 * m.2 + i) fun _ => s.getObj (64 * m.1 + i)) (fun _ _ => hobj ..) u) _
  exact (forList_eq get _ (f := fun g => State.updGrp g fun y => { y with members := y.members.filterMap (memberMoved moves) })
    (fun _ _ => hgrp ..) _).trans (h2.trans h1)

theorem winsMoved_keeps (moves : List (Nat × Nat)) (s : State) : Keeps [.syn] s (winsMoved moves s) :=
  forList_keeps _ (fun _ _ hu => .step (State.updGrp_keeps ..) (by decide) hu)
    (forList_keeps _ (fun m _ hu => forList_keeps (List.range 64)
        (f := fun i => State.updObj (64 * m.2 + i) fun _ => s.getObj (64 * m.1 + i))
        (fun _ _ hv => .step (State.updObj_keeps ..) (by decide) hv) hu)
      (forList_keeps _ (fun m _ hu => .step (clearWin_keeps m.1 _) (by decide) hu) (.refl ..)))

theorem destsReleased_released (hw : WaitersOk s) : Released (fun w => ∃ m ∈ moves, m.2 = w) s (destsReleased moves s) :=
  forList_ind (P := Released _ s) (fun m hm _ hu => forList_ind (P := Released _ s)
      (fun o ho _ hv => hv.releaseOn ⟨m, hm, (mem_winObjs.mp ho).symm⟩) hu)
    ⟨hw, fun _ hk => hk, fun _ _ hy _ => hy, rfl, rfl⟩

theorem destsReleased_between (c : Nat) (moves : List (Nat × Nat)) (s : State) : Between c s (destsReleased moves s) :=
  (Between.refl c s).forList fun m u => (Between.refl c u).forList fun o v => releaseOn_between o v

theorem moveWins_between (c : Nat) (moves : List (Nat × Nat)) (s : State) : Between c s (moveWins moves s) :=
  Between.trans (t := winsMoved moves s) ((winsMoved_keeps ..).between rfl rfl) (destsReleased_between ..)

/-- The waits after the moves: only those on a destination may have been released. -/
theorem moveWins_released (hw : WaitersOk s) :
    (∀ k, s.waiter k = none → (moveWins moves s).waiter k = none) ∧
      (∀ k y, s.waiter k = some y → (∀ m ∈ moves, m.2 ≠ y.obj / 64) → (moveWins moves s).waiter k = some y) ∧
      (moveWins moves s).syn.obj = (winsMoved moves s).syn.obj ∧ (moveWins moves s).syn.own = s.syn.own := by
  have hwtr : (winsMoved moves s).syn.wtr = s.syn.wtr := winsMoved_of (·.syn.wtr) (fun _ _ _ => rfl) (fun _ _ _ => rfl) moves s
  have hrel := destsReleased_released (moves := moves) (hw.of_wtr hwtr)
  have hwt : ∀ k, (winsMoved moves s).waiter k = s.waiter k := waiter_of_wtr hwtr
  refine ⟨fun k hk => hrel.ended k ((hwt k).trans hk), fun k y hy hn => hrel.kept k y ((hwt k).trans hy) ?_, hrel.obj,
    hrel.own.trans (winsMoved_of (·.syn.own) (fun _ _ _ => rfl) (fun _ _ _ => rfl) moves s)⟩
  rintro ⟨m, hm, he⟩
  exact hn m hm he

/-- An object outside every source and destination stands. -/
theorem winsMoved_getObj {n : Nat} (hn : ∀ m ∈ moves, m.1 ≠ n / 64 ∧ m.2 ≠ n / 64) (s : State) :
    (winsMoved moves s).getObj n = s.getObj n := by
  rw [getObj_of_obj (winsMoved_obj ..)]
  have h1 : (srcsCleared moves s).getObj n = s.getObj n := forList_eq_of_mem (State.getObj · n)
    (fun m hm u => by rw [clearWin_getObj, if_neg (hn m hm).1.symm]) s
  have h2 : (destsWritten moves s (srcsCleared moves s)).getObj n = (srcsCleared moves s).getObj n :=
    forList_eq_of_mem (State.getObj · n) (fun m hm u => by rw [winWritten_getObj, if_neg (hn m hm).2.symm]) _
  exact h2.trans h1

/-- A window moved alone: the destination has its objects, and its own are cleared to their kind. -/
theorem winsMoved_single {a b j : Nat} (hab : a ≠ b) (hj : j < 64) (s : State) :
    (winsMoved [(a, b)] s).getObj (64 * b + j) = s.getObj (64 * a + j) ∧
      (winsMoved [(a, b)] s).getObj (64 * a + j) = { count := (s.getObj (64 * a + j)).count } := by
  have he : ∀ k, (winsMoved [(a, b)] s).getObj k =
      (winWritten b (fun i => s.getObj (64 * a + i)) (forList (winObjs a) clearObj s)).getObj k := getObj_of_obj (winsMoved_obj ..)
  constructor
  · rw [he, winWritten_getObj, if_pos (by omega), show (64 * b + j) % 64 = j by omega]
  · rw [he, winWritten_getObj, if_neg (by omega), clearWin_getObj, if_pos (by omega)]

end Moves

section Map
variable {s : State} {h : DescHdr} {o : SynMapOp}

/-- The windows that leave the context's map or move (R333, R334). -/
def goneWins (o : SynMapOp) (s : State) : List Nat := (List.range 128).filter fun w =>
  ((maskIdx 128 o.remove).contains w && decide (Tbl.get 0 s.syn.own w = o.ctx)) || o.moves.any fun m => m.1 = w

def goneWaits (o : SynMapOp) (s : State) : List (Nat × Waiter) := s.waits fun _ y => (goneWins o s).contains (y.obj / 64)

/-- The owners after windows are taken and given; `own` says who owned them. -/
def ownAfter (o : SynMapOp) (own : Nat → Nat) (t : Tbl Nat) : Tbl Nat :=
  (maskIdx 128 o.add).foldl (fun t w => Tbl.set 0 t w o.ctx)
    ((maskIdx 128 o.remove).foldl (fun t w => if own w = o.ctx then Tbl.set 0 t w 0 else t) t)

def synMapped (o : SynMapOp) (s : State) : State :=
  let s2 := moveWins o.moves (failAll 0x7008 (goneWaits o s) s)
  emitSyn 0x7016 o.ctx (maskIdx 128 o.add).length (goneWins o s).length (goneWaits o s).length
    (s2.onSyn fun y => { y with own := ownAfter o (Tbl.get 0 s.syn.own) s2.syn.own })

theorem bodySynMap_eq (o : SynMapOp) (s : State) : bodySynMap o s =
    if o.ctx = 0 ∨ 512 ≤ o.ctx ∨ 8 < o.moves.length ∨ o.moves.any fun m => decide (128 ≤ m.1) || decide (128 ≤ m.2) then
      .fail 0x700D s
    else if ((maskIdx 128 o.add).any fun w => Tbl.get 0 s.syn.own w ≠ 0 && Tbl.get 0 s.syn.own w ≠ o.ctx) ∨
        o.moves.any fun m => Tbl.get 0 s.syn.own m.2 ≠ 0 && !(maskIdx 128 o.add).contains m.2 then .fail 0x700E s
    else if goneWaits o s ≠ [] ∧ !o.force then .fail 0x700B s
    else .done 0 (goneWaits o s).length (synMapped o s) := rfl

theorem foldl_take_get (p : Nat → Prop) [DecidablePred p] (l : List Nat) (t : Tbl Nat) (k : Nat) :
    Tbl.get 0 (l.foldl (fun t w => if p w then Tbl.set 0 t w 0 else t) t) k = if k ∈ l ∧ p k then 0 else Tbl.get 0 t k := by
  induction l generalizing t with
  | nil => simp
  | cons w l ih =>
    rw [List.foldl_cons, ih]
    by_cases hl : k ∈ l ∧ p k
    · rw [if_pos hl, if_pos ⟨List.mem_cons_of_mem _ hl.1, hl.2⟩]
    rw [if_neg hl]
    by_cases hk : k = w
    · subst hk
      by_cases hp : p k
      · rw [if_pos hp, if_pos ⟨List.mem_cons_self, hp⟩, Tbl.get_set_self]
      · rw [if_neg hp, if_neg fun h => hp h.2]
    · have hnot : ¬ (k ∈ w :: l ∧ p k) := by
        rintro ⟨hm, hp⟩
        exact hl ⟨(List.mem_cons.mp hm).resolve_left hk, hp⟩
      rw [if_neg hnot]
      split
      · exact Tbl.get_set_ne _ _ hk
      · rfl

theorem foldl_give_get_ne {l : List Nat} {k : Nat} (hk : k ∉ l) (c : Nat) (t : Tbl Nat) :
    Tbl.get 0 (l.foldl (fun t w => Tbl.set 0 t w c) t) k = Tbl.get 0 t k := by
  induction l generalizing t with
  | nil => rfl
  | cons w l ih =>
    rw [List.foldl_cons, ih (fun h => hk (List.mem_cons_of_mem _ h)), Tbl.get_set_ne _ _ (List.ne_of_not_mem_cons hk)]

theorem ownAfter_added {own : Nat → Nat} {t : Tbl Nat} {w : Nat} (hw : w ∈ maskIdx 128 o.add) : Tbl.get 0 (ownAfter o own t) w = o.ctx :=
  Tbl.get_foldl_set 0 (fun _ => o.ctx) _ (.inl hw)

theorem ownAfter_other {own : Nat → Nat} {t : Tbl Nat} {w : Nat} (hw : w ∉ maskIdx 128 o.add) :
    Tbl.get 0 (ownAfter o own t) w = if w ∈ maskIdx 128 o.remove ∧ own w = o.ctx then 0 else Tbl.get 0 t w :=
  (foldl_give_get_ne hw ..).trans (foldl_take_get (fun w => own w = o.ctx) ..)

theorem synMapped_between (c : Nat) (o : SynMapOp) (s : State) : Between c s (synMapped o s) :=
  ((((failAll_between ..).trans (moveWins_between ..)).keeps (State.onSyn_keeps ..) rfl rfl).emit ..)

theorem synMapped_keeps (o : SynMapOp) (s : State) : Keeps [.hm, .ep, .hif, .ldg, .trs, .syn] s (synMapped o s) :=
  .step (emitSyn_keeps ..) (by decide) (.step (State.onSyn_keeps ..) (by decide) (.step (moveWins_keeps ..) (by decide) (failAll_keeps ..)))

/-- What SYN_MAP leaves of waits, objects and owners (R333, R334). -/
theorem synMapped_effect (hw : WaitersOk s) :
    (∀ w, Tbl.get 0 (synMapped o s).syn.own w = Tbl.get 0 (ownAfter o (Tbl.get 0 s.syn.own) s.syn.own) w) ∧
      (∀ k y, s.waiter k = some y → y.obj / 64 ∈ goneWins o s → (synMapped o s).waiter k = none) ∧
      (∀ k y, s.waiter k = some y → y.obj / 64 ∉ goneWins o s → (∀ m ∈ o.moves, m.2 ≠ y.obj / 64) →
        (synMapped o s).waiter k = some y) ∧
      (synMapped o s).syn.obj = (winsMoved o.moves (failAll 0x7008 (goneWaits o s) s)).syn.obj := by
  let u := failAll 0x7008 (goneWaits o s) s
  let v := moveWins o.moves u
  have hsyn : (synMapped o s).syn = (v.onSyn fun y => { y with own := ownAfter o (Tbl.get 0 s.syn.own) v.syn.own }).syn :=
    (emitSyn_keeps ..).syn_eq rfl
  obtain ⟨hended, hkept, hobj, hown⟩ := moveWins_released (moves := o.moves) (failAll_ok hw 0x7008 (goneWaits o s))
  obtain ⟨hfail, hstand⟩ := failWaits_waiter hw 0x7008 fun _ y => (goneWins o s).contains (y.obj / 64)
  have hwt : ∀ k, (synMapped o s).waiter k = v.waiter k := waiter_of_wtr (by rw [hsyn, State.onSyn_syn])
  refine ⟨fun w => ?_, fun k y hy hg => (hwt k).trans (hended k (hfail k y hy (List.contains_iff_mem.mpr hg))),
    fun k y hy hg hm => (hwt k).trans (hkept k y (hstand k y hy ?_) hm), ?_⟩
  · rw [hsyn, State.onSyn_syn, show v.syn.own = s.syn.own from hown.trans (failAll_own ..)]
  · rw [Bool.eq_false_iff, ne_eq, List.contains_iff_mem]
    exact hg
  · rw [hsyn, State.onSyn_syn]
    exact hobj

theorem synMap_effect (hr : Runs h descSynMap s) (hw : WaitersOk s) :
    (o.ctx = 0 ∨ 512 ≤ o.ctx ∨ 8 < o.moves.length ∨ (∃ m ∈ o.moves, 128 ≤ m.1 ∨ 128 ≤ m.2) →
      ∃ t, exec (.synMap h o) s = .next t ∧ Completes h 0x61 0x700D 0 s t ∧ Only [.hm, .hif] s t) ∧
    (0 < o.ctx → o.ctx < 512 → o.moves.length ≤ 8 → (∀ m ∈ o.moves, m.1 < 128 ∧ m.2 < 128) →
      ((∃ w ∈ maskIdx 128 o.add, Tbl.get 0 s.syn.own w ≠ 0 ∧ Tbl.get 0 s.syn.own w ≠ o.ctx) ∨
          (∃ m ∈ o.moves, Tbl.get 0 s.syn.own m.2 ≠ 0 ∧ m.2 ∉ maskIdx 128 o.add) →
        ∃ t, exec (.synMap h o) s = .next t ∧ Completes h 0x61 0x700E 0 s t ∧ Only [.hm, .hif] s t) ∧
      ((∀ w ∈ maskIdx 128 o.add, Tbl.get 0 s.syn.own w = 0 ∨ Tbl.get 0 s.syn.own w = o.ctx) →
        (∀ m ∈ o.moves, Tbl.get 0 s.syn.own m.2 = 0 ∨ m.2 ∈ maskIdx 128 o.add) →
        ((∃ k y, s.waiter k = some y ∧ y.obj / 64 ∈ goneWins o s) → o.force = false → ∃ t, exec (.synMap h o) s = .next t ∧
          Completes h 0x61 0x700B 0 s t ∧ Only [.hm, .hif] s t) ∧
        ((∀ k y, s.waiter k = some y → y.obj / 64 ∉ goneWins o s) ∨ o.force = true → ∃ t, exec (.synMap h o) s = .next t ∧
          Completes h 0x61 0 (goneWaits o s).length s t ∧
          (∀ w ∈ maskIdx 128 o.add, Tbl.get 0 t.syn.own w = o.ctx) ∧
          (∀ w ∈ maskIdx 128 o.remove, w ∉ maskIdx 128 o.add → Tbl.get 0 s.syn.own w = o.ctx → Tbl.get 0 t.syn.own w = 0) ∧
          (∀ w, w ∉ maskIdx 128 o.add → w ∉ maskIdx 128 o.remove → Tbl.get 0 t.syn.own w = Tbl.get 0 s.syn.own w) ∧
          (∀ k y, s.waiter k = some y → y.obj / 64 ∈ goneWins o s → t.waiter k = none) ∧
          (∀ k y, s.waiter k = some y → y.obj / 64 ∉ goneWins o s → (∀ m ∈ o.moves, m.2 ≠ y.obj / 64) →
            t.waiter k = some y) ∧
          (o.moves = [] → t.syn.obj = s.syn.obj) ∧
          (∀ a b, o.moves = [(a, b)] → a ≠ b → ∀ j < 64, t.getObj (64 * b + j) = s.getObj (64 * a + j) ∧
            t.getObj (64 * a + j) = { count := (s.getObj (64 * a + j)).count }) ∧
          (∀ n, (∀ m ∈ o.moves, m.1 ≠ n / 64 ∧ m.2 ≠ n / 64) → t.getObj n = s.getObj n) ∧
          Only [.hm, .ep, .hif, .ldg, .trs, .syn] s t))) := by
  have hx : exec (.synMap h o) s = act (runDesc h descSynMap (bodySynMap o)) s := rfl
  let b := descBegin h.ctx.val s
  have hkb : Keeps [.hif] s b := descBegin_keeps ..
  have hsyn : b.syn = s.syn := descBegin_syn ..
  have hgone : goneWins o b = goneWins o s := by rw [goneWins, hsyn]; rfl
  have hwaits : goneWaits o b = goneWaits o s := by rw [goneWaits, hgone, waits_of_syn hsyn]; rfl
  have hmem : goneWaits o b ≠ [] ↔ ∃ k y, s.waiter k = some y ∧ y.obj / 64 ∈ goneWins o s := by
    have hin : ∀ k y, (k, y) ∈ goneWaits o s ↔ s.waiter k = some y ∧ y.obj / 64 ∈ goneWins o s := fun k y => by
      rw [goneWaits, hw.mem_waits, List.contains_iff_mem]
    rw [hwaits]
    constructor
    · intro hne
      obtain ⟨⟨k, y⟩, he⟩ := List.exists_mem_of_ne_nil _ hne
      exact ⟨k, y, (hin k y).mp he⟩
    · rintro ⟨k, y, he⟩
      exact List.ne_nil_of_mem ((hin k y).mpr he)
  refine ⟨fun hbad => refused_of_fail hx hr ?_, fun hc hc' hlen hm => ?_⟩
  · rw [bodySynMap_eq, if_pos]
    simpa [List.any_eq_true] using hbad
  have h0 : ¬ (o.ctx = 0 ∨ 512 ≤ o.ctx ∨ 8 < o.moves.length ∨ (o.moves.any fun m => decide (128 ≤ m.1) || decide (128 ≤ m.2)) = true) := by
    simp only [List.any_eq_true, Bool.or_eq_true, decide_eq_true_eq]
    rintro (h0 | h0 | h0 | ⟨m, hml, h0⟩)
    · omega
    · omega
    · omega
    · have := hm m hml
      omega
  have htaken : (((maskIdx 128 o.add).any fun w => Tbl.get 0 b.syn.own w ≠ 0 && Tbl.get 0 b.syn.own w ≠ o.ctx) = true ∨
      (o.moves.any fun m => Tbl.get 0 b.syn.own m.2 ≠ 0 && !(maskIdx 128 o.add).contains m.2) = true) ↔
      (∃ w ∈ maskIdx 128 o.add, Tbl.get 0 s.syn.own w ≠ 0 ∧ Tbl.get 0 s.syn.own w ≠ o.ctx) ∨
        (∃ m ∈ o.moves, Tbl.get 0 s.syn.own m.2 ≠ 0 ∧ m.2 ∉ maskIdx 128 o.add) := by
    simp only [hsyn, List.any_eq_true, Bool.and_eq_true, decide_eq_true_eq, Bool.not_eq_true', Bool.eq_false_iff, ne_eq, List.contains_iff_mem]
  have hfree : (∀ w ∈ maskIdx 128 o.add, Tbl.get 0 s.syn.own w = 0 ∨ Tbl.get 0 s.syn.own w = o.ctx) →
      (∀ m ∈ o.moves, Tbl.get 0 s.syn.own m.2 = 0 ∨ m.2 ∈ maskIdx 128 o.add) →
      ¬ (((maskIdx 128 o.add).any fun w => Tbl.get 0 b.syn.own w ≠ 0 && Tbl.get 0 b.syn.own w ≠ o.ctx) = true ∨
        (o.moves.any fun m => Tbl.get 0 b.syn.own m.2 ≠ 0 && !(maskIdx 128 o.add).contains m.2) = true) := fun hadd hdst => by
    rw [htaken]
    rintro (⟨w, hwa, h1, h2⟩ | ⟨m, hml, h1, h2⟩)
    · exact (hadd w hwa).elim h1 h2
    · exact (hdst m hml).elim h1 h2
  refine ⟨fun hbad => refused_of_fail hx hr ?_, fun hadd hdst => ⟨fun hwait hf => refused_of_fail hx hr ?_, fun hgo => ?_⟩⟩
  · rw [bodySynMap_eq, if_neg h0, if_pos (htaken.mpr hbad)]
  · rw [bodySynMap_eq, if_neg h0, if_neg (hfree hadd hdst), if_pos ⟨hmem.mpr hwait, by rw [hf]; rfl⟩]
  · have h2 : ¬ (goneWaits o b ≠ [] ∧ (!o.force) = true) := by
      rintro ⟨hne, hf⟩
      obtain ⟨k, y, hy, hg⟩ := hmem.mp hne
      rcases hgo with hgo | hgo
      · exact hgo k y hy hg
      · rw [hgo] at hf; exact absurd hf (by decide)
    obtain ⟨t, he, ht⟩ := exec_of_done hx hr ((bodySynMap_eq o b).trans ((if_neg h0).trans ((if_neg (hfree hadd hdst)).trans (if_neg h2))))
      (synMapped_between ..)
    have hts : t.syn = (synMapped o b).syn := ht.keeps.syn_eq rfl
    obtain ⟨hown, hfail, hkept, hobj⟩ := synMapped_effect (s := b) (o := o) (hw.of_wtr (by rw [hsyn]))
    have hwt : ∀ k, b.waiter k = s.waiter k := waiter_of_wtr (by rw [hsyn])
    have htw : ∀ k, t.waiter k = (synMapped o b).waiter k := waiter_of_wtr (by rw [hts])
    have htown : ∀ w, Tbl.get 0 t.syn.own w = Tbl.get 0 (ownAfter o (Tbl.get 0 s.syn.own) s.syn.own) w := fun w => by
      rw [hts, hown, hsyn]
    let u := failAll 0x7008 (goneWaits o b) b
    have hto : ∀ n, t.getObj n = (winsMoved o.moves u).getObj n := getObj_of_obj (by rw [hts]; exact hobj)
    have huo : u.syn.obj = s.syn.obj := (failAll_ends ..).obj.trans (congrArg Sync.obj hsyn)
    have hug : ∀ n, u.getObj n = s.getObj n := getObj_of_obj huo
    have hc : Completes h 0x61 0 (goneWaits o b).length s t := ht.completes
    rw [hwaits] at hc
    rw [hgone] at hfail hkept
    refine ⟨t, he, hc, fun w hwa => (htown w).trans (ownAfter_added hwa), fun w hwr hwa hws => ?_, fun w hwa hwr => ?_,
      fun k y hy hg => (htw k).trans (hfail k y ((hwt k).trans hy) hg),
      fun k y hy hg hm => (htw k).trans (hkept k y ((hwt k).trans hy) hg hm), fun hm => ?_, fun a b hm hab j hj => ?_,
      fun n hn => (hto n).trans ((winsMoved_getObj hn u).trans (hug n)), Keeps.only (.step ht.keeps (by decide)
        (.step (synMapped_keeps ..) (by decide) (hkb.mono (by decide))))⟩
    · rw [htown, ownAfter_other hwa, if_pos ⟨hwr, hws⟩]
    · rw [htown, ownAfter_other hwa, if_neg fun hh => hwr hh.1]
    · rw [hts, hobj, winsMoved_obj, hm]
      exact huo
    · rw [hto, hto, hm, ← hug]
      exact winsMoved_single hab hj u

end Map

section Read
variable {s : State} {h : DescHdr} {i k : Nat}

theorem synRead_effect (hr : Runs h descSynRead s) :
    (2 ≤ k ∨ 8192 ≤ i → ∃ t, exec (.synRead h k i) s = .next t ∧ Completes h 0x62 0x700D 0 s t ∧ Only [.hm, .hif] s t) ∧
    (i < 8192 →
      (s.mapHas h.ctx (i / 64) = true → ∃ t, exec (.synRead h 0 i) s = .next t ∧ Completes h 0x62 0 (objStat s i) s t ∧
        Only [.hm, .hif] s t) ∧
      (s.mapHas h.ctx (i / 64) = false → ∃ t, exec (.synRead h 0 i) s = .next t ∧ Completes h 0x62 0x7002 0 s t ∧
        Only [.hm, .hif] s t) ∧
      (h.ctx.val = 0 ∨ (∃ y, s.waiter i = some y ∧ y.ctx = h.ctx) → ∃ t, exec (.synRead h 1 i) s = .next t ∧
        Completes h 0x62 0 (wtrObj s i) s t ∧ Only [.hm, .hif] s t) ∧
      (h.ctx.val ≠ 0 → (∀ y, s.waiter i = some y → y.ctx ≠ h.ctx) → ∃ t, exec (.synRead h 1 i) s = .next t ∧
        Completes h 0x62 0x7002 0 s t ∧ Only [.hm, .hif] s t)) := by
  have hx : ∀ k, exec (.synRead h k i) s = act (runDesc h descSynRead (bodySynRead h k i)) s := fun _ => rfl
  let b := descBegin h.ctx.val s
  have hkb : Keeps [.hif] s b := descBegin_keeps ..
  have hsyn : b.syn = s.syn := descBegin_syn ..
  have hmap : b.mapHas h.ctx (i / 64) = s.mapHas h.ctx (i / 64) := by rw [State.mapHas, hsyn]; rfl
  have hmine : (h.ctx.val = 0 ∨ (b.waiter i).any (fun x => x.ctx = h.ctx.val) = true) ↔
      h.ctx.val = 0 ∨ ∃ y, s.waiter i = some y ∧ y.ctx = h.ctx := by
    rw [waiter_of_wtr (congrArg Sync.wtr hsyn)]
    simp only [Option.any_eq_true, decide_eq_true_eq]
  have hok : ∀ {k n : Nat}, bodySynRead h k i b = .done 0 n b → ∃ t, exec (.synRead h k i) s = .next t ∧
      Completes h 0x62 0 n s t ∧ Only [.hm, .hif] s t := fun hb => by
    obtain ⟨t, he, ht⟩ := exec_of_done (hx _) hr hb (.refl ..)
    exact ⟨t, he, ht.completes, Keeps.only (.step ht.keeps (by decide) (hkb.mono (by decide)))⟩
  refine ⟨fun hbad => refused_of_fail (hx k) hr (if_pos hbad), fun hi => ⟨fun hm => ?_, fun hm => refused_of_fail (hx 0) hr ?_,
    fun hm => ?_, fun h0 hm => refused_of_fail (hx 1) hr ?_⟩⟩
  · rw [← objStat_of_syn hsyn]
    exact hok ((if_neg (by omega)).trans ((if_pos rfl).trans (if_pos (hmap.trans hm))))
  · exact (if_neg (by omega)).trans ((if_pos rfl).trans (if_neg (by rw [hmap, hm]; decide)))
  · rw [← wtrObj_of_syn hsyn]
    exact hok ((if_neg (by omega)).trans ((if_neg (by decide)).trans (if_pos (hmine.mpr hm))))
  · refine (if_neg (by omega)).trans ((if_neg (by decide)).trans (if_neg fun hh => ?_))
    rcases hmine.mp hh with h1 | ⟨y, hy, h1⟩
    · exact h0 h1
    · exact hm y hy h1

end Read

/-- Settles O48: what each of the four refuses, and what it leaves of kinds, groups, waits, objects and owners. -/
theorem windowsAndGroupsSet : Obligations.WindowsAndGroupsSet := by
  intro s h i k g p l o
  refine ⟨fun hr => ?_, fun hr hw => synMap_effect hr hw, fun hr => synRead_effect hr⟩
  obtain ⟨h1, h2, h3⟩ := setKind_effect (i := i) (k := k) hr
  exact ⟨h1, h2, h3, groupDef_effect hr⟩

end Sys2Proof.Machine
end

section
/-!
Clearing configured by descriptor (R350, R368).
-/
namespace Sys2Proof.Machine

section Join
variable {s t : State}

theorem Posted.between {c : Nat} (h : Posted s t) (hif : t.hif = s.hif) : Between c s t :=
  ⟨h, fun g => by rwa [NoClose, State.getCtx, hif]⟩

theorem clrStart_between (c l : Nat) (s : State) : Between c s (clrStart l s) :=
  (clrStart_linkTo l s).posted.between ((clrStart_keeps l s).hif_eq rfl)

/-- The leases of a link, beside its state. -/
def State.lnkLeases (s : State) (k : Nat) : Nat × List Bor × List Lent := ((s.getLnk k).st, (s.getLnk k).bor, (s.getLnk k).lent)

theorem clrStart_leases (l k : Nat) (s : State) :
    (clrStart l s).lnkLeases k = if k = l then (1, (s.lnkLeases k).2) else s.lnkLeases k := by
  have h := clrStart_linkTo l s
  by_cases hk : k = l
  · rw [if_pos hk, hk, State.lnkLeases, h.st, h.bor, h.lent]; rfl
  · rw [if_neg hk, State.lnkLeases, h.others k hk]; rfl

/-- Clearing enabled: every enabled link starts joining, with its leases as they are. -/
def clrStarted (s : State) : State :=
  forList s.links clrStart (s.onClr fun c => { c with en := true, roundAt := s.now, driftStart := s.now })

theorem clrStarted_keeps (s : State) : Keeps [.hm, .clr] s (clrStarted s) :=
  forList_keeps _ (fun _ _ hu => .step (clrStart_keeps ..) (by decide) hu) ((State.onClr_keeps ..).mono (by decide))

theorem clrStarted_between (c : Nat) (s : State) : Between c s (clrStarted s) :=
  Between.forList ((State.onClr_keeps ..).between rfl rfl) fun l u => clrStart_between c l u

theorem clrStarted_regs (s : State) :
    (clrStarted s).clr.regs = { s.clr with en := true, roundAt := s.now, driftStart := s.now, lnk := [] } :=
  forList_eq (fun t : State => t.clr.regs) s.links clrStart_regs _

theorem clrStarted_leases {k : Nat} (hk : k ∈ s.links) : (clrStarted s).lnkLeases k = (1, (s.lnkLeases k).2) :=
  (forList_entry (fun u : State => u.lnkLeases k) (g := fun p => (1, p.2)) (fun u => (clrStart_leases k k u).trans (if_pos rfl))
    (fun j hj u => (clrStart_leases j k u).trans (if_neg hj.symm)) (List.nodup_range.filter _) _).trans (if_pos hk)

end Join

section Config
variable {s : State} {h : DescHdr} {o : ClrCfgOp} {q : ClrLinkOp}

/-- The registers that CLR_CONFIG writes (R368). -/
def clrConfigured (o : ClrCfgOp) (s : State) : State := s.onClr fun c =>
  { c with id := o.chip, domain := o.domain, vmax := o.vmax, keep := o.keep, leaseUs := o.leaseUs, retryMs := o.retryMs,
           mbxLo := o.mbx % 2 ^ 32, mbxHi := o.mbx / 2 ^ 32 }

def clrConfigBad (o : ClrCfgOp) : Prop :=
  o.vmax = 0 ∨ 3 < o.vmax ∨ 20 < o.keep ∨ o.leaseUs < 50 ∨ 1000 < o.leaseUs ∨ o.retryMs = 0 ∨ o.mbx % 4096 ≠ 0

theorem bodyClrConfig_bad (hb : clrConfigBad o) : bodyClrConfig o s = .fail 0x8002 s := if_pos hb

theorem bodyClrConfig_busy (hb : ¬ clrConfigBad o) (he : s.clr.en = true) : bodyClrConfig o s = .fail 0x8001 s :=
  (if_neg hb).trans (if_pos he)

theorem bodyClrConfig_done (hb : ¬ clrConfigBad o) (he : s.clr.en = false) : bodyClrConfig o s =
    .done 0 0 (if o.en then clrStarted (clrConfigured o s) else clrConfigured o s) := by
  refine (if_neg hb).trans ((if_neg (by simp [he])).trans ?_)
  show DescOut.done 0 0 (clrEnable o.en (clrConfigured o s)) = _
  unfold clrEnable
  rw [show (clrConfigured o s).clr.en = false from he]
  cases o.en <;> rfl

theorem clrConfigured_mbx (o : ClrCfgOp) (s : State) :
    (clrConfigured o s).clr.mbxLo + (clrConfigured o s).clr.mbxHi * 2 ^ 32 = o.mbx := by
  show o.mbx % 2 ^ 32 + o.mbx / 2 ^ 32 * 2 ^ 32 = o.mbx
  rw [Nat.mul_comm]
  exact Nat.mod_add_div ..

theorem clrConfig_effect (hr : Runs h descClrConfig s) (hb : ¬ clrConfigBad o) (he : s.clr.en = false) :
    ∃ t, exec (.clrConfig h o) s = .next t ∧ Completes h 0x70 0 0 s t ∧ t.clr.id = o.chip ∧
      t.clr.domain = o.domain ∧ t.clr.vmax = o.vmax ∧ t.clr.keep = o.keep ∧ t.clr.leaseUs = o.leaseUs ∧
      t.clr.retryMs = o.retryMs ∧ t.clr.mbxLo + t.clr.mbxHi * 2 ^ 32 = o.mbx ∧ t.clr.en = o.en ∧
      (o.en = true → ∀ l ∈ s.links, (t.getLnk l).st = 1 ∧ (t.getLnk l).bor = (s.getLnk l).bor ∧
        (t.getLnk l).lent = (s.getLnk l).lent) ∧
      (o.en = false → t.clr.lnk = s.clr.lnk) ∧ Only [.hm, .hif, .clr] s t := by
  let b := descBegin h.ctx.val s
  have hkb : Keeps [.hif] s b := descBegin_keeps ..
  have hclr : b.clr = s.clr := hkb.clr_eq rfl
  have hd := bodyClrConfig_done (s := b) hb (by rw [hclr]; exact he)
  have hu : Keeps [.clr] b (clrConfigured o b) := State.onClr_keeps ..
  cases hen : o.en
  · rw [hen, if_neg (by decide)] at hd
    obtain ⟨t, hx, ht⟩ := exec_of_done (c := .clrConfig h o) rfl hr hd (hu.between rfl rfl)
    have hc : t.clr = (clrConfigured o b).clr := ht.keeps.clr_eq rfl
    refine ⟨t, hx, ht.completes, ?_⟩
    rw [hc]
    exact ⟨rfl, rfl, rfl, rfl, rfl, rfl, clrConfigured_mbx o b, (congrArg Clearing.en hclr).trans he, nofun,
      fun _ => (congrArg Clearing.lnk hclr :), Keeps.only (.step ht.keeps (by decide) (.step hu (by decide) (hkb.mono (by decide))))⟩
  · rw [hen, if_pos rfl] at hd
    obtain ⟨t, hx, ht⟩ := exec_of_done (c := .clrConfig h o) rfl hr hd
      (Between.trans (hu.between rfl rfl) (clrStarted_between ..))
    have hc : t.clr.regs = _ := (congrArg Clearing.regs (ht.keeps.clr_eq rfl)).trans (clrStarted_regs (clrConfigured o b))
    refine ⟨t, hx, ht.completes, (congrArg Clearing.id hc :), (congrArg Clearing.domain hc :), (congrArg Clearing.vmax hc :),
      (congrArg Clearing.keep hc :), (congrArg Clearing.leaseUs hc :), (congrArg Clearing.retryMs hc :), ?_,
      (congrArg Clearing.en hc :), fun _ l hl => ?_, nofun, Keeps.only (.step ht.keeps (by decide)
        (.step (clrStarted_keeps ..) (by decide) (.step hu (by decide) (hkb.mono (by decide)))))⟩
    · have hlo : t.clr.mbxLo = (clrConfigured o b).clr.mbxLo := (congrArg Clearing.mbxLo hc :)
      have hhi : t.clr.mbxHi = (clrConfigured o b).clr.mbxHi := (congrArg Clearing.mbxHi hc :)
      rw [hlo, hhi]
      exact clrConfigured_mbx o b
    · have hbl : ∀ k, (clrConfigured o b).getLnk k = s.getLnk k := getLnk_of_clr (t := b) hclr
      have hmem : l ∈ (clrConfigured o b).links := by
        unfold State.links at hl ⊢
        simpa only [hbl] using hl
      have hle := clrStarted_leases hmem
      simp only [State.lnkLeases, hbl, Prod.mk.injEq] at hle
      rw [getLnk_of_clr (ht.keeps.clr_eq rfl)]
      exact hle

/-- A disabled link configured: its peer and address, and joining where it and Clearing are enabled. -/
theorem clrLink_linkTo {l p a : Nat} {en : Bool} {u : State} (hu : u = s.updLnk l fun y => { y with peer := p, addr := a })
    (h : (s.getLnk l).en = false) : Keeps [.hm, .clr] s (lnkEnable l en u) ∧ ∃ y, LinkTo l y s (lnkEnable l en u) ∧ y.peer = p ∧
      y.addr = a ∧ y.en = en ∧ (en = true → s.clr.en = true → y.st = 1) ∧ (en = false ∨ s.clr.en = false → y.st = (s.getLnk l).st) := by
  have h1 : LinkTo l _ s u := hu ▸ LinkTo.updLnk l (fun y => { y with peer := p, addr := a }) s
  have hk1 : Keeps [.clr] s u := hu ▸ State.updLnk_keeps ..
  have hent : (u.getLnk l).en = false := by rw [hu, State.getLnk_updLnk]; exact h
  have hcen : u.clr.en = s.clr.en := by rw [hu]; rfl
  cases en
  · rw [(lnkEnable_spec l false u).2.1 hent]
    exact ⟨hk1.mono (by decide), _, h1, rfl, rfl, h, nofun, fun _ => rfl⟩
  · let v := u.updLnk l fun y => { y with en := true }
    have h2 : LinkTo l _ s v := h1.trans (LinkTo.updLnk l (fun y => { y with en := true }) u)
    have hk2 : Keeps [.hm, .clr] s v := .step (State.updLnk_keeps ..) (by decide) (hk1.mono (by decide))
    have hul : u.getLnk l = { s.getLnk l with peer := p, addr := a } := by rw [hu, State.getLnk_updLnk]
    have he : lnkEnable l true u = if u.clr.en then clrStart l v else v := if_neg (by rw [hent]; decide)
    rw [he, hcen]
    cases hc : s.clr.en
    · rw [if_neg (by decide)]
      exact ⟨hk2, _, h2, by rw [hul]; rfl, by rw [hul]; rfl, rfl, nofun, fun _ => by rw [hul]; rfl⟩
    · rw [if_pos rfl]
      have hvl : v.getLnk l = { u.getLnk l with en := true } := State.getLnk_updLnk ..
      refine ⟨.step (clrStart_keeps ..) (by decide) hk2, _, h2.trans (clrStart_linkTo l v), ?_, ?_, ?_, fun _ _ => rfl, fun h => ?_⟩
      · rw [hvl, hul]; rfl
      · rw [hvl, hul]; rfl
      · rw [hvl]; rfl
      · exact h.elim nofun nofun

theorem clrLink_effect (hr : Runs h (descClrLink q) s) :
    (64 < q.link → ∃ t, exec (.clrLink h q) s = .next t ∧ Completes h 0x71 0x8002 0 s t ∧ Only [.hm, .hif] s t) ∧
    (q.link ≤ 64 → (s.getLnk q.link).en = true → ∃ t, exec (.clrLink h q) s = .next t ∧ Completes h 0x71 0x8001 0 s t ∧
      Only [.hm, .hif] s t) ∧
    (q.link ≤ 64 → (s.getLnk q.link).en = false → ∃ t, exec (.clrLink h q) s = .next t ∧ Completes h 0x71 0 0 s t ∧
      (t.getLnk q.link).peer = q.peer ∧ (t.getLnk q.link).addr = q.addr ∧ (t.getLnk q.link).en = q.en ∧
      (q.en = true → s.clr.en = true → (t.getLnk q.link).st = 1) ∧
      (q.en = false ∨ s.clr.en = false → (t.getLnk q.link).st = (s.getLnk q.link).st) ∧
      (∀ k, k ≠ q.link → t.getLnk k = s.getLnk k) ∧ Only [.hm, .hif, .clr] s t) := by
  have hx : exec (.clrLink h q) s = act (runDesc h (descClrLink q) (bodyClrLink q)) s := rfl
  let b := descBegin h.ctx.val s
  have hkb : Keeps [.hif] s b := descBegin_keeps ..
  have hclr : b.clr = s.clr := hkb.clr_eq rfl
  have hbl : ∀ k, b.getLnk k = s.getLnk k := getLnk_of_clr hclr
  refine ⟨fun hl => refused_of_fail hx hr (if_pos hl), fun hl hen => refused_of_fail hx hr ?_, fun hl hen => ?_⟩
  · exact (if_neg (by omega)).trans (if_pos (by rw [hbl]; exact hen))
  · have hd : bodyClrLink q b = .done 0 0 (lnkEnable q.link q.en (b.updLnk q.link fun y => { y with peer := q.peer, addr := q.addr })) :=
      (if_neg (by omega)).trans (if_neg (by rw [hbl, hen]; decide))
    obtain ⟨hk, y, hy, hpeer, haddr, hyen, hjoin, hstay⟩ := clrLink_linkTo (en := q.en) rfl ((congrArg Link.en (hbl q.link)).trans hen)
    obtain ⟨t, he, ht⟩ := exec_of_done hx hr hd (hy.posted.between (hk.hif_eq rfl))
    have htl : ∀ k, t.getLnk k = _ := getLnk_of_clr (ht.keeps.clr_eq rfl)
    rw [hclr] at hjoin hstay
    rw [hbl] at hstay
    refine ⟨t, he, ht.completes, ?_, ?_, ?_, fun h1 h2 => ?_, fun h1 => ?_, fun k hk => ?_, Keeps.only (.step ht.keeps (by decide)
      (.step hk (by decide) (hkb.mono (by decide))))⟩
    · rw [htl]; exact (congrArg Link.peer hy.core :).trans hpeer
    · rw [htl]; exact hy.addr.trans haddr
    · rw [htl]; exact hy.en.trans hyen
    · rw [htl]; exact hy.st.trans (hjoin h1 h2)
    · rw [htl]; exact hy.st.trans (hstay h1)
    · rw [htl, hy.others k hk, hbl]

end Config

/-- Settles O49: what CLR_CONFIG and CLR_LINK refuse, and what they leave of Clearing's registers and links. -/
theorem clearingByDescriptor : Obligations.ClearingByDescriptor := by
  intro s h o q
  refine ⟨fun hr => ?_, fun hr => clrLink_effect hr⟩
  have hclr : (descBegin h.ctx.val s).clr = s.clr := (descBegin_keeps ..).clr_eq rfl
  exact ⟨fun hb => refused_of_fail (body := bodyClrConfig o) rfl hr (bodyClrConfig_bad hb),
    fun hb he => refused_of_fail (body := bodyClrConfig o) rfl hr (bodyClrConfig_busy hb (by rw [hclr]; exact he)),
    fun hb he => clrConfig_effect hr hb he⟩

end Sys2Proof.Machine
end

section
/-!
Transfers of the DMA engine: how they begin, and how they end (R395, R398, R401).
-/
namespace Sys2Proof.Machine

section Wrote
variable {r s t : State}

theorem HmPort.post_congr {h g : HmPort} (h1 : g.inReset = h.inReset) (h2 : g.held = h.held) (h3 : g.out = h.out) (ws : List HmWrite) :
    (g.post ws).held = (h.post ws).held ∧ (g.post ws).out = (h.post ws).out := by
  unfold HmPort.post
  rw [h1, h2]
  split <;> simp only [h3, and_self]

theorem Wrote.trans (h : Wrote r s) (g : Wrote s t) : Wrote r t := by
  obtain ⟨ws, h1, h2, h3⟩ := h
  obtain ⟨vs, g1, g2, g3⟩ := g
  obtain ⟨hheld, hout⟩ := HmPort.post_congr (h := r.hm.post ws) (h1.trans (HmPort.post_inReset ..).symm) h2 h3 vs
  rw [HmPort.post_post] at hheld hout
  exact ⟨ws ++ vs, g1.trans h1, g2.trans hheld, g3.trans hout⟩

end Wrote

section Begin
variable {s : State} {h : DescHdr} {d : DescSpec} {body : State → DescOut} {c : Instr} {u : State}

/-- The command of a descriptor that goes on: its context stays busy. -/
theorem exec_of_wait (hx : exec c s = act (runDesc h d body) s) (hr : Runs h d s) (hb : body (descBegin h.ctx.val s) = .wait u) :
    exec c s = .next (u.updCtx h.ctx.val fun x => { x with busy := true }) := by
  obtain ⟨hl, hmay, hin, hchk, -⟩ := hr
  exact hx.trans (act_eq hl (runDesc_wait hmay hin hchk hb))

/-- The channel that carries a transfer (R395). -/
def started (x : Xfer) (c : DmaChan) : DmaChan :=
  { c with xfer := some x, busy := true, mode := if x.opcode ≤ 0x81 then x.op.mode else c.mode }

theorem xferStart_eq (k : Nat) (x : Xfer) (s : State) : xferStart k x s =
    if x.opcode = 0x80 ∧ x.op.srcSpace = 0 then
      forList (xferReads x.op x.table) (fun r => hmIssue (.dma k) r.1 r.2) (s.updChan k (started x))
    else s.updChan k (started x) := rfl

/-- A transfer that is no DMA_XFER asks the manager port for nothing. -/
theorem xferStart_quiet {k : Nat} {x : Xfer} (hx : x.opcode ≠ 0x80) (s : State) : xferStart k x s = s.updChan k (started x) :=
  (xferStart_eq ..).trans (if_neg fun hh => hx hh.1)

theorem hmNext_out (s : State) : (hmNext s).hm.out = s.hm.out := by
  unfold hmNext
  split <;> rfl

theorem hmIssue_out (p : HmPurpose) (a n : Nat) (s : State) : (hmIssue p a n s).hm.out = s.hm.out := by
  unfold hmIssue
  split
  · rfl
  · exact forList_eq (·.hm.out) (List.range 32) (f := fun _ => hmNext) (fun _ u => hmNext_out u) _

theorem xferStart_out (k : Nat) (x : Xfer) (s : State) : (xferStart k x s).hm.out = s.hm.out := by
  rw [xferStart_eq]
  split
  · exact forList_eq (·.hm.out) _ (f := fun r : Nat × Nat => hmIssue (.dma k) r.1 r.2) (fun r u => hmIssue_out _ _ _ u) _
  · rfl

theorem xferStart_dma (k : Nat) (x : Xfer) (s : State) : (xferStart k x s).dma = (s.updChan k (started x)).dma := by
  rw [xferStart_eq]
  split
  · exact forList_eq (·.dma) _ (f := fun r : Nat × Nat => hmIssue (.dma k) r.1 r.2) (fun r u => (hmIssue_keeps ..).dma_eq rfl) _
  · rfl

theorem xferStart_getChan (k : Nat) (x : Xfer) (s : State) : (xferStart k x s).getChan k = started x (s.getChan k) :=
  (getChan_of_dma (xferStart_dma k x s) k).trans (State.getChan_updChan ..)

theorem xferStart_getChan_ne {k j : Nat} (hj : j ≠ k) (x : Xfer) (s : State) : (xferStart k x s).getChan j = s.getChan j :=
  (getChan_of_dma (xferStart_dma k x s) j).trans (State.getChan_updChan_ne _ _ _ hj)

/-- The command of a descriptor that begins a transfer. -/
theorem exec_of_xfer {k : Nat} {x : Xfer} (hx : exec c s = act (runDesc h d body) s) (hr : Runs h d s)
    (hb : body (descBegin h.ctx.val s) = .wait (xferStart k x (descBegin h.ctx.val s))) :
    ∃ t, exec c s = .next t ∧ t.getChan k = started x (s.getChan k) ∧ (∀ j, j ≠ k → t.getChan j = s.getChan j) ∧
      (t.getCtx h.ctx.val).busy = true ∧ t.hm.out = s.hm.out ∧ Only [.hm, .hif, .dma] s t ∧
      (x.opcode ≠ 0x80 → Only [.hif, .dma] s t) := by
  let b := descBegin h.ctx.val s
  let u := xferStart k x b
  have hkb : Keeps [.hif] s b := descBegin_keeps ..
  have hbc : ∀ j, b.getChan j = s.getChan j := getChan_of_dma (hkb.dma_eq rfl)
  have hku : ∀ {ps}, Keeps ps s u → Keeps (.hif :: ps) s (u.updCtx h.ctx.val fun y => { y with busy := true }) := fun g =>
    .step (State.updCtx_keeps ..) (List.cons_subset_cons _ (List.nil_subset _)) (g.mono (List.subset_cons_self ..))
  refine ⟨_, exec_of_wait hx hr hb, ?_, fun j hj => ?_, ?_, ?_, ?_, fun hq => ?_⟩
  · exact (xferStart_getChan k x b).trans (congrArg _ (hbc k))
  · exact (xferStart_getChan_ne hj x b).trans (hbc j)
  · rw [State.getCtx_updCtx]
  · exact (xferStart_out k x b).trans (congrArg HmPort.out (hkb.hm_eq rfl))
  · exact ((hku (.step (xferStart_keeps ..) (by decide) (hkb.mono (by decide)) : Keeps [.hm, .dma, .hif] s u)).mono (by decide)).only
  · have hu : Keeps [.dma] b u := by
      rw [show u = b.updChan k (started x) from xferStart_quiet hq b]
      exact State.updChan_keeps ..
    exact ((hku (.step hu (by decide) (hkb.mono (by decide)) : Keeps [.dma, .hif] s u)).mono (by decide)).only

/-- R395: what DMA_XFER refuses, and what it starts. -/
theorem dmaXfer_effect {o : XferOp} {x : Ext} (hr : Runs h descDmaXfer s) :
    let c := xferCheck false (s.getChan 5).busy o (Ext.bytes x)
    (c.1 ≠ 0 → ∃ t, exec (.dmaXfer h o x) s = .next t ∧ Completes h 0x80 c.1 0 s t ∧ Only [.hm, .hif] s t) ∧
    (c.1 = 0 → ∃ t, exec (.dmaXfer h o x) s = .next t ∧ (t.getChan 5).busy = true ∧ (t.getChan 5).mode = o.mode ∧
      ((t.getChan 5).xfer.map fun y => (y.op, y.hdr, y.opcode, y.table)) = some (o, some h, 0x80, c.2) ∧
      (t.getCtx h.ctx).busy = true ∧ t.hm.out = s.hm.out ∧ (∀ j, j ≠ 5 → t.getChan j = s.getChan j) ∧
      Only [.hm, .hif, .dma] s t) := by
  intro c
  let b := descBegin h.ctx.val s
  have hc : xferCheck false (b.getChan 5).busy o (Ext.bytes x) = c := by
    rw [getChan_of_dma (t := b) ((descBegin_keeps ..).dma_eq rfl)]
  have hb : bodyDmaXfer h o x b = if c.1 ≠ 0 then .fail c.1 b
      else .wait (xferStart 5 { op := o, hdr := some h, opcode := 0x80, start := b.now, capture := xferCapture o c.2,
                                table := c.2, img := b.dma.image } b) := by
    rw [← hc]
    rfl
  refine ⟨fun h0 => refused_of_fail (body := bodyDmaXfer h o x) rfl hr (hb.trans (if_pos h0)), fun h0 => ?_⟩
  obtain ⟨t, he, hch, hne, hbusy, hout, honly, -⟩ := exec_of_xfer (c := .dmaXfer h o x) rfl hr (hb.trans (if_neg (not_not.mpr h0)))
  exact ⟨t, he, by rw [hch]; rfl, by rw [hch]; rfl, by rw [hch]; rfl, hbusy, hout, hne, honly⟩

/-- R401: what FREC_COPY refuses, and what it starts. -/
theorem frecCopy_effect {f : FrecCopyOp} (hr : Runs h descFrecCopy s) :
    let bad := 320 ≤ f.slot ∨ f.nslot = 0 ∨ 320 < f.nslot ∨ (f.fromPtr = true ∧ (f.slot ≠ 0 ∨ s.frec.ptrValid = false))
    (bad → ∃ t, exec (.frecCopy h f) s = .next t ∧ Completes h 0x84 0xA002 0 s t ∧ Only [.hm, .hif] s t) ∧
    (¬ bad → f.addr % 16 ≠ 0 → ∃ t, exec (.frecCopy h f) s = .next t ∧ Completes h 0x84 0xA001 0 s t ∧ Only [.hm, .hif] s t) ∧
    (¬ bad → f.addr % 16 = 0 → s.nvDown = true → ∃ t, exec (.frecCopy h f) s = .next t ∧
      Completes h 0x84 0xA007 0 s t ∧ Only [.hm, .hif] s t) ∧
    (¬ bad → f.addr % 16 = 0 → s.nvDown = false → ∃ t, exec (.frecCopy h f) s = .next t ∧
      ((t.getChan 5).xfer.map fun y => (y.hdr, y.opcode, y.first, y.num, y.back)) =
        some (some h, 0x84, if f.fromPtr then s.frec.ptrSlot else f.slot, f.nslot, f.fromPtr) ∧
      (t.getCtx h.ctx).busy = true ∧ Only [.hif, .dma] s t) := by
  intro bad
  have hx : exec (.frecCopy h f) s = act (runDesc h descFrecCopy (bodyFrecCopy h f)) s := rfl
  let b := descBegin h.ctx.val s
  have hfrec : b.frec = s.frec := (descBegin_keeps h.ctx.val s).frec_eq rfl
  have hnv : b.nvDown = s.nvDown := rfl
  have hbad : (320 ≤ f.slot ∨ f.nslot = 0 ∨ 320 < f.nslot ∨ (f.fromPtr = true ∧ (f.slot ≠ 0 ∨ (!b.frec.ptrValid) = true))) ↔ bad := by
    rw [hfrec, Bool.not_eq_true']
  refine ⟨fun h0 => refused_of_fail hx hr (if_pos (hbad.mpr h0)), fun h0 ha => refused_of_fail hx hr ?_,
    fun h0 ha hn => refused_of_fail hx hr ?_, fun h0 ha hn => ?_⟩
  · exact (if_neg (hbad.not.mpr h0)).trans (if_pos ha)
  · exact (if_neg (hbad.not.mpr h0)).trans ((if_neg (not_not.mpr ha)).trans (if_pos (hnv.trans hn)))
  · obtain ⟨t, he, hch, -, hbusy, -, -, honly⟩ := exec_of_xfer hx hr ((if_neg (hbad.not.mpr h0)).trans
      ((if_neg (not_not.mpr ha)).trans (if_neg (by rw [hnv, hn]; decide))))
    refine ⟨t, he, ?_, hbusy, honly (show (0x84 : Nat) ≠ 0x80 by decide)⟩
    rw [hch]
    show some (some h, 0x84, if f.fromPtr then b.frec.ptrSlot else f.slot, f.nslot, f.fromPtr) = _
    rw [hfrec]

end Begin

section End
variable {s t v : State} {k : Nat} {g : DescHdr} {y : Xfer}

/-- The channel after its transfer has ended with status `st` (R398). -/
def endedChan (st : Nat) (c : DmaChan) : DmaChan :=
  { c with xfer := none, busy := false, last := st, done := if st = 0 then satInc 16 c.done else c.done,
           fail := if st = 0 then c.fail else satInc 16 c.fail }

theorem xferEnd_eq (k st : Nat) (s : State) : xferEnd k st s = (xferUntag k s).updChan k (endedChan st) := rfl

theorem xferEnd_getChan (k st : Nat) (s : State) : (xferEnd k st s).getChan k = endedChan st (s.getChan k) := by
  rw [xferEnd_eq, State.getChan_updChan, getChan_of_dma ((xferUntag_keeps ..).dma_eq rfl)]

theorem xferEnd_getChan_ne {j : Nat} (hj : j ≠ k) (st : Nat) (s : State) : (xferEnd k st s).getChan j = s.getChan j := by
  rw [xferEnd_eq, State.getChan_updChan_ne _ _ _ hj, getChan_of_dma ((xferUntag_keeps ..).dma_eq rfl)]

theorem xferEnd_wrote (k st : Nat) (s : State) : Wrote s (xferEnd k st s) := by
  rw [xferEnd_eq]
  exact (hmDrop_wrote _ s).keeps (State.updChan_keeps ..) rfl

/-- A completion after requests have perhaps been given up. -/
theorem complete_wrote {op st res : Nat} {u : State} (hw : Wrote s u) (hn : NoClose g.ctx.val u) :
    Completes g op st (resultOf st res) s (complete g op st res u) ∧ ((complete g op st res u).getCtx g.ctx.val).busy = false ∧
      Keeps [.hm, .hif] u (complete g op st res u) := by
  rw [complete_of_noClose op st res hn]
  obtain ⟨adr, e, b, hhm, h1, h2, h3, h4, h5⟩ := completeOne_hm g op st res u
  refine ⟨⟨adr, e, hw.posts ⟨[], b, hhm⟩, h1, h2, h3, h4, h5⟩, ?_, completeOne_keeps ..⟩
  have hc := completeOne_getCtx g op st res u g.ctx.val
  rw [if_pos rfl] at hc
  exact (congrArg Ctx.busy hc :)

/-- A transfer ends and its descriptor completes: `v` is the state with its last writes issued. -/
theorem complete_ended {ps : List Area} {op st res : Nat} (hk : Keeps ps s v) (hif : ps.contains .hif = false) (hw : Wrote s v)
    (hn : NoClose g.ctx.val s) :
    ∃ t, complete g op st res (xferEnd k st v) = t ∧ t.getChan k = endedChan st (v.getChan k) ∧
      (∀ j, j ≠ k → t.getChan j = v.getChan j) ∧ Completes g op st (resultOf st res) s t ∧
      (t.getCtx g.ctx.val).busy = false ∧ Keeps [.hm, .hif, .dma] v t := by
  let u := xferEnd k st v
  have hku : Keeps [.hm, .dma] v u := xferEnd_keeps ..
  have hnu : NoClose g.ctx.val u := by
    rw [NoClose, State.getCtx, hku.hif_eq rfl, hk.hif_eq hif]
    exact hn
  obtain ⟨hc, hb, hkt⟩ := complete_wrote (op := op) (st := st) (res := res) (hw.trans (xferEnd_wrote k st v)) hnu
  have hdma := hkt.dma_eq rfl
  refine ⟨_, rfl, ?_, fun j hj => ?_, hc, hb, .step hkt (by decide) (hku.mono (by decide))⟩
  · rw [getChan_of_dma hdma, xferEnd_getChan]
  · rw [getChan_of_dma hdma, xferEnd_getChan_ne hj]

theorem singleDone_eq {ok : Bool} {n : Nat} {ws : List Nat} (hh : y.hdr = some g) (s : State) : singleDone k y ok n ws s =
    let tot := sumN ((xferWrites s y y.op.dst ws).map Prod.fst)
    complete g 0x80 (if ok then 0 else 0xA006) (if ok then tot else min n tot)
      (xferEnd k (if ok then 0 else 0xA006) (xferIssue (xferWrites s y y.op.dst ws) (if ok then tot else min n tot) s)) := by
  unfold singleDone
  dsimp only
  rw [hh]

/-- The slots of a copy of the fault-record ring, written out (R401). -/
def slotsWritten (y : Xfer) (m : Nat) (s : State) : State := forList (List.range m) (fun i =>
  hmWrite (.words (y.op.dst + 128 * i) (frecWords (Tbl.get none s.frec.slots (copySlot y i))))) s

theorem slotsWritten_keeps (y : Xfer) (m : Nat) (s : State) : Keeps [.hm] s (slotsWritten y m s) :=
  forList_keeps _ (fun _ _ hu => .step (hmWrite_keeps ..) (by decide) hu) (.refl ..)

theorem slotsWritten_posted (y : Xfer) (m : Nat) (s : State) : Posted s (slotsWritten y m s) :=
  forList_posted _ (fun i _ => hmWrite_posted ..) s

theorem frecCopyDone_eq {st n : Nat} (hh : y.hdr = some g) (s : State) : frecCopyDone y st n s =
    complete g 0x84 st (if st = 0 then y.num else min n y.num)
      (xferEnd 5 st (slotsWritten y (if st = 0 then y.num else min n y.num) s)) := by
  unfold frecCopyDone
  dsimp only
  rw [hh]
  rfl

/-- The records of a drain, written out (R406). -/
def recordsSent (y : Xfer) (s : State) : State :=
  let ks := (List.range y.num).map (y.first + ·)
  let w := hmWrite (.words y.op.dst (ks.flatMap fun k => ldgWords (Tbl.get {} s.ldg.store k) (([] : List Nat).contains k))) s
  if y.num = 0 then s else w

/-- The records of a drain, written out, and the read position behind them (R406). -/
def recordsDrained (y : Xfer) (s : State) : State := (recordsSent y s).onLdg fun l => { l with r := max l.r (y.first + y.num) }

theorem recordsSent_keeps (y : Xfer) (s : State) : Keeps [.hm] s (recordsSent y s) := .ite ((Keeps.refl ..)) (hmWrite_keeps ..)

theorem recordsSent_posted (y : Xfer) (s : State) : Posted s (recordsSent y s) := .ite (.refl s) (hmWrite_posted ..)

theorem recordsDrained_keeps (y : Xfer) (s : State) : Keeps [.hm, .ldg] s (recordsDrained y s) :=
  .step (State.onLdg_keeps (fun h => ⟨h.1, h.2, h.3, h.4⟩) fun _ => List.prefix_rfl) (by decide)
    ((recordsSent_keeps y s).mono (by decide))

theorem recordsDrained_posted (y : Xfer) (s : State) : Posted s (recordsDrained y s) :=
  (recordsSent_posted y s).trans (.of_eq (State.onLdg_hm ..))

theorem recordsDrained_ldg (y : Xfer) (s : State) : (recordsDrained y s).ldg = { s.ldg with r := max s.ldg.r (y.first + y.num) } := by
  rw [recordsDrained, State.onLdg_ldg, (recordsSent_keeps y s).ldg_eq rfl]

theorem drainDone_eq {ok : Bool} (hh : y.hdr = some g) (s : State) : drainDone y ok [] s =
    complete g 0x82 (if ok then 0 else 0xA006) (if ok then y.num else 0)
      (xferEnd 6 (if ok then 0 else 0xA006) (if ok then recordsDrained y s else s)) := by
  have hbad : ((List.range y.num).map (y.first + ·)).filter (fun k => ([] : List Nat).contains k) = [] :=
    List.filter_eq_nil_iff.mpr fun _ _ => by simp
  unfold drainDone
  dsimp only
  rw [hh, hbad]
  rfl

/-- What the end of a transfer does, by the opcode of its descriptor. -/
def opDone (k : Nat) (y : Xfer) (ok : Bool) (n : Nat) (ws bad : List Nat) (s : State) : State :=
  match y.opcode with
  | 0x80 => singleDone k y ok n ws s
  | 0x81 => streamDone k y ok n ws s
  | 0x82 => drainDone y ok bad s
  | _ => frecCopyDone y (if ok then 0 else 0xA007) n s

theorem transferDone_none {ok : Bool} {n : Nat} {ws bad : List Nat} (h : (s.getChan k).xfer = none) : transferDone k ok n ws bad s = s := by
  unfold transferDone
  rw [h]

theorem transferDone_some {ok : Bool} {n : Nat} {ws bad : List Nat} (h : (s.getChan k).xfer = some y) : transferDone k ok n ws bad s =
    if ok && (s.reading k || (decide (y.opcode = 0x84) && s.frec.busy)) then s
    else opDone k y ok n ws bad s := by
  unfold transferDone
  rw [h]
  rfl

/-- A transfer that may end: nothing keeps it waiting. -/
theorem transferDone_through {ok : Bool} {n : Nat} {ws bad : List Nat} (h : (s.getChan k).xfer = some y)
    (hread : ok = true → s.reading k = false) (hfrec : ok = true → y.opcode = 0x84 → s.frec.busy = false) :
    transferDone k ok n ws bad s = opDone k y ok n ws bad s := by
  rw [transferDone_some h, if_neg]
  rintro hb
  simp only [Bool.and_eq_true, Bool.or_eq_true, decide_eq_true_eq] at hb
  obtain ⟨hok, hb | ⟨h84, hb⟩⟩ := hb
  · rw [hread hok] at hb; exact absurd hb (by decide)
  · rw [hfrec hok h84] at hb; exact absurd hb (by decide)

theorem transferDone_waits {ok : Bool} {n : Nat} {ws bad : List Nat} (hok : ok = true) (hr : s.reading k = true) :
    transferDone k ok n ws bad s = s := by
  cases h : (s.getChan k).xfer with
  | none => exact transferDone_none h
  | some y => rw [transferDone_some h, if_pos (by rw [hok, hr]; rfl)]

theorem transferDone_pauses {ok : Bool} {n : Nat} {ws bad : List Nat} (hok : ok = true) (h : (s.getChan k).xfer = some y)
    (h84 : y.opcode = 0x84) (hb : s.frec.busy = true) : transferDone k ok n ws bad s = s := by
  rw [transferDone_some h, if_pos (by rw [hok, h84, hb]; simp)]

/-- What the end of a transfer leaves where a descriptor waits for it (R398, R401, R406). -/
theorem transferDone_effect {k : Fin 8} {ok : Bool} {n : Nat} {ws : List Word} (hl : s.live = true) (h : (s.getChan k).xfer = some y)
    (hh : y.hdr = some g) (hn : NoClose g.ctx s) (hread : ok = true → s.reading k = false) :
    let c := s.getChan k
    let tot := sumN ((xferWrites s y y.op.dst (ws.map BitVec.toNat)).map Prod.fst)
    (y.opcode = 0x80 → ∃ t, exec (.dmaTransferDone k ok n ws []) s = .next t ∧ (t.getChan k).xfer = none ∧
      (t.getChan k).busy = false ∧ (t.getChan k).last = (if ok then 0 else 0xA006) ∧
      (t.getChan k).done = (if ok then satInc 16 c.done else c.done) ∧
      (t.getChan k).fail = (if ok then c.fail else satInc 16 c.fail) ∧
      Completes g 0x80 (if ok then 0 else 0xA006) (if ok then tot else min n tot) s t ∧
      (t.getCtx g.ctx).busy = false ∧ (∀ j, j ≠ k.val → t.getChan j = s.getChan j) ∧ Only [.hm, .hif, .dma] s t) ∧
    (k.val = 5 → y.opcode = 0x84 → (ok = true → s.frec.busy = false) →
      ∃ t, exec (.dmaTransferDone k ok n ws []) s = .next t ∧ (t.getChan 5).xfer = none ∧
      Completes g 0x84 (if ok then 0 else 0xA007) (if ok then y.num else min n y.num) s t ∧
      (t.getCtx g.ctx).busy = false ∧ Only [.hm, .hif, .dma] s t) ∧
    (k.val = 6 → y.opcode = 0x82 → ∃ t, exec (.dmaTransferDone k ok n ws []) s = .next t ∧ (t.getChan 6).xfer = none ∧
      t.ldg.r = (if ok then max s.ldg.r (y.first + y.num) else s.ldg.r) ∧ t.ldg.w = s.ldg.w ∧
      t.ldg.store = s.ldg.store ∧ Completes g 0x82 (if ok then 0 else 0xA006) (if ok then y.num else 0) s t ∧
      (t.getCtx g.ctx).busy = false ∧ Only [.hm, .hif, .dma, .ldg] s t) := by
  intro c tot
  have hx : ∀ {u}, transferDone k ok n (ws.map BitVec.toNat) [] s = u → exec (.dmaTransferDone k ok n ws []) s = .next u :=
    fun hu => act_eq hl hu
  have hkept : ∀ r, resultOf (if ok then 0 else 0xA006) r = r := fun r => by cases ok <;> rfl
  refine ⟨fun h80 => ?_, fun hk5 h84 hfrec => ?_, fun hk6 h82 => ?_⟩
  · have hd := transferDone_through (n := n) (ws := ws.map BitVec.toNat) (bad := []) h hread (fun _ h84 => by rw [h80] at h84; cases h84)
    rw [opDone, h80] at hd
    replace hd := hd.trans (singleDone_eq hh s)
    let v := xferIssue (xferWrites s y y.op.dst (ws.map BitVec.toNat)) (if ok then tot else min n tot) s
    have hv : Keeps [.hm] s v := xferIssue_keeps ..
    obtain ⟨t, he, hch, hne, hcomp, hbusy, hk⟩ := complete_ended (k := k.val) (op := 0x80) (st := if ok then 0 else 0xA006)
      (res := if ok then tot else min n tot) hv rfl (xferIssue_posted ..).wrote hn
    have hvc : ∀ j, v.getChan j = s.getChan j := getChan_of_dma (hv.dma_eq rfl)
    rw [hkept] at hcomp
    rw [hvc] at hch
    refine ⟨t, hx (hd.trans he), by rw [hch]; rfl, by rw [hch]; rfl, by rw [hch]; rfl, ?_, ?_, hcomp, hbusy,
      fun j hj => (hne j hj).trans (hvc j), Keeps.only (.step hk (by decide) (hv.mono (by decide)))⟩
    · rw [hch]; cases ok <;> rfl
    · rw [hch]; cases ok <;> rfl
  · have hd := transferDone_through (n := n) (ws := ws.map BitVec.toNat) (bad := []) h hread (fun hok _ => hfrec hok)
    rw [opDone, h84] at hd
    replace hd := hd.trans (frecCopyDone_eq hh s)
    have hnum : (if (if ok then 0 else 0xA007) = 0 then y.num else min n y.num) = if ok then y.num else min n y.num := by cases ok <;> rfl
    rw [hnum] at hd
    let v := slotsWritten y (if ok then y.num else min n y.num) s
    have hv : Keeps [.hm] s v := slotsWritten_keeps ..
    obtain ⟨t, he, hch, -, hcomp, hbusy, hk⟩ := complete_ended (k := 5) (op := 0x84) (st := if ok then 0 else 0xA007)
      (res := if ok then y.num else min n y.num) hv rfl (slotsWritten_posted ..).wrote hn
    have hkept : ∀ r, resultOf (if ok then 0 else 0xA007) r = r := fun r => by cases ok <;> rfl
    rw [hkept] at hcomp
    exact ⟨t, hx (hd.trans he), by rw [hch]; rfl, hcomp, hbusy, Keeps.only (.step hk (by decide) (hv.mono (by decide)))⟩
  · have hd := transferDone_through (n := n) (ws := ws.map BitVec.toNat) (bad := []) h hread (fun _ h84 => by rw [h82] at h84; cases h84)
    rw [opDone, h82] at hd
    replace hd := hd.trans (drainDone_eq hh s)
    let v := if ok then recordsDrained y s else s
    have hv : Keeps [.hm, .ldg] s v := .ite (recordsDrained_keeps ..) (.refl ..)
    obtain ⟨t, he, hch, -, hcomp, hbusy, hk⟩ := complete_ended (k := 6) (op := 0x82) (st := if ok then 0 else 0xA006)
      (res := if ok then y.num else 0) hv rfl (Posted.ite (recordsDrained_posted ..) (.refl s)).wrote hn
    rw [hkept] at hcomp
    have hldg : t.ldg = if ok then { s.ldg with r := max s.ldg.r (y.first + y.num) } else s.ldg := by
      rw [hk.ldg_eq rfl]
      cases ok
      · rfl
      · exact recordsDrained_ldg y s
    refine ⟨t, hx (hd.trans he), by rw [hch]; rfl, ?_, ?_, ?_, hcomp, hbusy, Keeps.only (.step hk (by decide) (hv.mono (by decide)))⟩
    · rw [hldg]; cases ok <;> rfl
    · rw [hldg]; cases ok <;> rfl
    · rw [hldg]; cases ok <;> rfl

end End

end Sys2Proof.Machine
end

section
/-!
Streams of the DMA engine and the capture (R393, R399, R400, R412).
-/
namespace Sys2Proof.Machine

section Arm
variable {s : State} {h : DescHdr} {o : XferOp} {x : Ext} {k : Nat}

/-- The channel of a stream that has just been armed with offsets `l` (R399). -/
def armedChan (o : XferOp) (l : List Nat) (now : Nat) (c : DmaChan) : DmaChan :=
  { c with armed := true, stream := some o, table := l, armTime := now, n := 0, buffers := 0, overrun := false,
           gap := 0, stopping := false, stopHdr := none }

theorem bodyStreamArm_eq (o : XferOp) (x : Ext) (s : State) : bodyStreamArm o x s =
    if 5 ≤ o.chan then .fail 0x9009 s
    else
      let c := xferCheck true ((s.getChan o.chan).busy || (s.getChan o.chan).armed) o (Ext.bytes x)
      if c.1 ≠ 0 then .fail c.1 s else .done 0 0 (s.updChan o.chan (armedChan o c.2 s.now)) := rfl

theorem streamArm_effect (hr : Runs h descDmaStream s) (hk : k < 5) (ho : o.chan = k) :
    let chk := xferCheck true ((s.getChan k).busy || (s.getChan k).armed) o (Ext.bytes x)
    (chk.1 ≠ 0 → ∃ t, exec (.dmaStreamArm h o x) s = .next t ∧ Completes h 0x81 chk.1 0 s t ∧ Only [.hm, .hif] s t) ∧
    (chk.1 = 0 → ∃ t, exec (.dmaStreamArm h o x) s = .next t ∧ Completes h 0x81 0 0 s t ∧ (t.getChan k).armed = true ∧
      (t.getChan k).stream = some o ∧ (t.getChan k).armTime = s.now ∧ (t.getChan k).n = 0 ∧
      (∀ j, j ≠ k → t.getChan j = s.getChan j) ∧ Only [.hm, .hif, .dma] s t) := by
  intro chk
  subst ho
  have hx : exec (.dmaStreamArm h o x) s = act (runDesc h descDmaStream (bodyStreamArm o x)) s := rfl
  let b := descBegin h.ctx.val s
  have hkb : Keeps [.hif] s b := descBegin_keeps ..
  have hbc : ∀ j, b.getChan j = s.getChan j := getChan_of_dma (hkb.dma_eq rfl)
  have hb : bodyStreamArm o x b = if chk.1 ≠ 0 then .fail chk.1 b else .done 0 0 (b.updChan o.chan (armedChan o chk.2 b.now)) := by
    refine (bodyStreamArm_eq o x b).trans ((if_neg (by omega)).trans ?_)
    rw [hbc]
  refine ⟨fun h0 => refused_of_fail hx hr (hb.trans (if_pos h0)), fun h0 => ?_⟩
  have hu : Keeps [.dma] b (b.updChan o.chan (armedChan o chk.2 b.now)) := State.updChan_keeps ..
  obtain ⟨t, he, ht⟩ := exec_of_done hx hr (hb.trans (if_neg (not_not.mpr h0))) (hu.between rfl rfl)
  have hch : t.getChan o.chan = armedChan o chk.2 b.now (s.getChan o.chan) := by
    rw [getChan_of_dma (ht.keeps.dma_eq rfl), State.getChan_updChan, hbc]
  refine ⟨t, he, ht.completes, by rw [hch]; rfl, by rw [hch]; rfl, ?_, by rw [hch]; rfl, fun j hj => ?_,
    Keeps.only (.step ht.keeps (by decide) (.step hu (by decide) (hkb.mono (by decide))))⟩
  · rw [hch]
    exact hkb.now_eq rfl
  · rw [getChan_of_dma (ht.keeps.dma_eq rfl), State.getChan_updChan_ne _ _ _ hj, hbc]

end Arm

section Stop
variable {s : State} {h : DescHdr} {k : Nat}

/-- The channel of a stream that has ended (R399). -/
def unarmed (c : DmaChan) : DmaChan :=
  { c with armed := false, stream := none, table := [], n := 0, buffers := 0, overrun := false, stopping := false,
           stopHdr := none, gap := 0 }

/-- A stream that no descriptor waits for ends in its channel alone. -/
theorem streamEnd_eq (h : (s.getChan k).stopHdr = none) : streamEnd k s = s.updChan k unarmed := by
  unfold streamEnd
  dsimp only
  rw [h]
  rfl

def unheld (c : DmaChan) : DmaChan := { c with stopHdr := none }

theorem streamEnd_unheld (k : Nat) (s : State) : streamEnd k (s.updChan k unheld) = (s.updChan k unheld).updChan k unarmed :=
  streamEnd_eq (by rw [State.getChan_updChan]; rfl)

/-- A stream stopped after the transfer in progress. -/
def stoppingChan (hdr : Option DescHdr) (c : DmaChan) : DmaChan := { c with stopping := true, stopHdr := hdr.or c.stopHdr }

theorem streamStop_eq (k : Nat) (hdr : Option DescHdr) (s : State) : streamStop k hdr s =
    if (s.getChan k).busy then s.updChan k (stoppingChan hdr) else streamEnd k (s.updChan k fun y => { y with stopHdr := hdr }) := rfl

def stopOp (k : Nat) : XferOp := { plainOp 0 with esize := 0, chan := k, stop := true }

theorem bodyStreamStop_eq (hk : k < 5) (s : State) : bodyStreamStop h (stopOp k) s =
    if !(s.getChan k).armed then .done 0 0 s
    else if (s.getChan k).busy then .wait (streamStop k (some h) s)
    else .done 0 (s.getChan k).buffers (streamEnd k (s.updChan k unheld)) :=
  (if_neg (show ¬ 5 ≤ k by omega)).trans (if_neg (by rw [show stopOnly (stopOp k) = true from rfl]; decide))

/-- R400: what DMA_STREAM with `STOP` does. -/
theorem streamStop_effect (k : Fin 5) (hr : Runs h descDmaStream s) :
    let c := s.getChan k
    (c.armed = false → ∃ t, exec (.dmaStreamStop h k) s = .next t ∧ Completes h 0x81 0 0 s t ∧ Only [.hm, .hif] s t) ∧
    (c.armed = true → c.busy = true → ∃ t, exec (.dmaStreamStop h k) s = .next t ∧ (t.getChan k).stopping = true ∧
      (t.getChan k).stopHdr = some h ∧ (t.getChan k).armed = true ∧ (t.getCtx h.ctx).busy = true ∧ Only [.hif, .dma] s t) ∧
    (c.armed = true → c.busy = false → ∃ t, exec (.dmaStreamStop h k) s = .next t ∧
      (t.getChan k).armed = false ∧ (t.getChan k).stream = none ∧ Completes h 0x81 0 c.buffers s t ∧
      Only [.hm, .hif, .dma] s t) := by
  intro c
  have hx : exec (.dmaStreamStop h k) s = act (runDesc h descDmaStream (bodyStreamStop h (stopOp k))) s := rfl
  let b := descBegin h.ctx.val s
  have hkb : Keeps [.hif] s b := descBegin_keeps ..
  have hbc : b.getChan k = c := getChan_of_dma (hkb.dma_eq rfl) k
  have hb := bodyStreamStop_eq (h := h) k.isLt b
  rw [hbc] at hb
  refine ⟨fun ha => ?_, fun ha hbusy => ?_, fun ha hbusy => ?_⟩
  · rw [ha] at hb
    obtain ⟨t, he, ht⟩ := exec_of_done hx hr (hb.trans (if_pos rfl)) (.refl ..)
    exact ⟨t, he, ht.completes, Keeps.only (.step ht.keeps (by decide) (hkb.mono (by decide)))⟩
  · rw [ha, hbusy] at hb
    have he := exec_of_wait hx hr (hb.trans ((if_neg (by decide)).trans (if_pos rfl)))
    have hs : streamStop k (some h) b = b.updChan k (stoppingChan (some h)) :=
      (streamStop_eq ..).trans (if_pos (by rw [hbc]; exact hbusy))
    rw [hs] at he
    let u := b.updChan k (stoppingChan (some h))
    have hch : (u.updCtx h.ctx.val fun x => { x with busy := true }).getChan k = stoppingChan (some h) c :=
      (State.getChan_updChan ..).trans (congrArg _ hbc)
    refine ⟨_, he, by rw [hch]; rfl, by rw [hch]; rfl, by rw [hch]; exact ha, ?_, Keeps.only (.step (State.updCtx_keeps ..) (by decide)
      (.step (State.updChan_keeps ..) (by decide) (hkb.mono (by decide))))⟩
    rw [State.getCtx_updCtx]
  · rw [ha, hbusy, streamEnd_unheld] at hb
    have hu : Keeps [.dma] b ((b.updChan k unheld).updChan k unarmed) := .step (State.updChan_keeps ..) (by decide) (State.updChan_keeps ..)
    obtain ⟨t, he, ht⟩ := exec_of_done hx hr (hb.trans ((if_neg (by decide)).trans (if_neg (by decide)))) (hu.between rfl rfl)
    have hch : t.getChan k = unarmed (unheld c) := by
      rw [getChan_of_dma (ht.keeps.dma_eq rfl), State.getChan_updChan, State.getChan_updChan, hbc]
    exact ⟨t, he, by rw [hch]; rfl, by rw [hch]; rfl, ht.completes, Keeps.only (.step ht.keeps (by decide) (.step hu (by decide)
      (hkb.mono (by decide))))⟩

/-- One channel as the stop of every stream leaves it (R400). -/
def streamTurn (k : Nat) (u : State) : State := if (u.getChan k).armed then streamStop k none u else u

def stoppedChan (c : DmaChan) : DmaChan :=
  if c.armed then if c.busy then stoppingChan none c else unarmed (unheld c) else c

theorem streamTurn_getChan (k : Nat) (u : State) : (streamTurn k u).getChan k = stoppedChan (u.getChan k) := by
  unfold streamTurn stoppedChan
  split
  · rw [streamStop_eq]
    split
    · exact State.getChan_updChan ..
    · refine (congrArg (State.getChan · k) (streamEnd_unheld k u)).trans ?_
      rw [State.getChan_updChan, State.getChan_updChan]
  · rfl

theorem streamTurn_keeps (k : Nat) (u : State) : Keeps [.dma] u (streamTurn k u) := by
  unfold streamTurn
  split
  · rw [streamStop_eq]
    split
    · exact State.updChan_keeps ..
    · exact (streamEnd_unheld k u) ▸ .step (State.updChan_keeps ..) (by decide) (State.updChan_keeps ..)
  · exact .refl ..

theorem streamTurn_getChan_ne {j : Nat} (hj : j ≠ k) (u : State) : (streamTurn j u).getChan k = u.getChan k := by
  unfold streamTurn
  split
  · rw [streamStop_eq]
    split
    · exact State.getChan_updChan_ne _ _ _ hj.symm
    · refine (congrArg (State.getChan · k) (streamEnd_unheld j u)).trans ?_
      rw [State.getChan_updChan_ne _ _ _ hj.symm, State.getChan_updChan_ne _ _ _ hj.symm]
  · rfl

theorem stopStreams_eq (s : State) : stopStreams s = forList (List.range 5) streamTurn s := rfl

/-- R412, R400: the counts cleared, and every stream stopped. -/
theorem dmaCtrl_effect (k : Fin 5) (hemu : Emulates s) :
    let c := s.getChan k
    (∃ t, exec .dmaCtrlClr s = .next t ∧
      (∀ j < 8, t.getChan j = { s.getChan j with done := 0, fail := 0, ovr := 0 }) ∧ Only [.hs, .dma] s t) ∧
    ∃ t, exec .stopStreams s = .next t ∧
      (c.armed = true → c.busy = true → (t.getChan k).stopping = true ∧ (t.getChan k).armed = true) ∧
      (c.armed = true → c.busy = false → (t.getChan k).armed = false ∧ (t.getChan k).stream = none) ∧
      (c.armed = false → t.getChan k = c) ∧ Only [.hs, .dma] s t := by
  intro c
  constructor
  · have hans := hsAnswer_keeps 0 0 (dmaClr s)
    have hclr : Keeps [.dma] s (dmaClr s) := forList_keeps _ (fun _ _ hu => .step (State.updChan_keeps ..) (by decide) hu) (.refl ..)
    refine ⟨_, hsEmu_eq hemu rfl, fun j hj => ?_, Keeps.only (.step hans (by decide) (hclr.mono (by decide)))⟩
    rw [getChan_of_dma (hans.dma_eq rfl)]
    exact (forList_entry (fun u : State => u.getChan j) (f := fun k => State.updChan k fun c => { c with done := 0, fail := 0, ovr := 0 })
      (g := fun c => { c with done := 0, fail := 0, ovr := 0 }) (fun u => State.getChan_updChan ..)
      (fun i hi u => State.getChan_updChan_ne _ _ _ hi.symm) List.nodup_range s).trans (if_pos (List.mem_range.mpr hj))
  · have hans := hsAnswer_keeps 0 0 (stopStreams s)
    have hstop : Keeps [.dma] s (stopStreams s) := forList_keeps _ (fun k _ hu => .step (streamTurn_keeps k _) (by decide) hu) (.refl ..)
    have hch : (hsAnswer 0 0 (stopStreams s)).getChan k = stoppedChan c := by
      rw [getChan_of_dma (hans.dma_eq rfl), stopStreams_eq]
      exact (forList_entry (fun u : State => u.getChan k) (g := stoppedChan) (streamTurn_getChan k.val)
        (fun i hi u => streamTurn_getChan_ne hi u) List.nodup_range s).trans (if_pos (List.mem_range.mpr k.isLt))
    refine ⟨_, hsEmu_eq hemu rfl, fun ha hb => ?_, fun ha hb => ?_, fun ha => ?_, Keeps.only (.step hans (by decide) (hstop.mono (by decide)))⟩
    · rw [hch, stoppedChan, if_pos ha, if_pos hb]
      exact ⟨rfl, ha⟩
    · rw [hch, stoppedChan, if_pos ha, if_neg (by rw [hb]; decide)]
      exact ⟨rfl, rfl⟩
    · rw [hch, stoppedChan, if_neg (by rw [ha]; decide)]

end Stop

section Period
variable {s : State} {q : XferOp}

theorem streamPeriod_none {k : Nat} (h : (s.getChan k).stream = none) : streamPeriod k s = s := by
  unfold streamPeriod
  dsimp only
  rw [h]

/-- A period that finds its stream busy (R399). -/
def periodOverrun (first : Bool) (now : Nat) (c : DmaChan) : DmaChan :=
  { c with overrun := true, ovr := satInc 16 c.ovr, n := c.n + 1, lastOvrRec := if first then some now else c.lastOvrRec }

theorem streamPeriod_some {k : Nat} (h : (s.getChan k).stream = some q) : streamPeriod k s =
    let c := s.getChan k
    if s.frm.inFrame || !s.frm.metered || decide (s.now < c.armTime + c.n * q.periodUs * nsPerUs) || c.stopping then s
    else if c.busy then
      let s1 := s.updChan k (periodOverrun (due s.now nsPerS c.lastOvrRec) s.now)
      if due s.now nsPerS c.lastOvrRec then emitDma 0xA011 k (c.n + 1) 0 0 s1 else s1
    else xferStart k { op := q, opcode := 0x81, start := s.now, capture := xferCapture q c.table, table := c.table,
                       img := s.dma.image, period := c.n } (s.updChan k fun y => { y with n := y.n + 1 }) := by
  unfold streamPeriod
  dsimp only
  rw [h]
  rfl

theorem streamPeriod_waits_iff {a b c d : Bool} {n m : Nat} (h : a = !b) :
    (c || a || decide (n < m) || d) = true ↔ c = true ∨ b = false ∨ n < m ∨ d = true := by
  simp [h, or_assoc]

/-- R399: what a period of a stream does. -/
theorem streamPeriod_effect (k : Fin 5) (hl : s.live = true) :
    let c := s.getChan k
    (c.stream = none → exec (.streamPeriod k) s = .next s) ∧
    (∀ q, c.stream = some q →
      (s.frm.inFrame = true ∨ s.frm.metered = false ∨ s.now < c.armTime + c.n * q.periodUs * 1000 ∨ c.stopping = true →
        exec (.streamPeriod k) s = .next s) ∧
      (s.frm.inFrame = false → s.frm.metered = true → c.armTime + c.n * q.periodUs * 1000 ≤ s.now → c.stopping = false →
        (c.busy = true → ∃ t, exec (.streamPeriod k) s = .next t ∧ (t.getChan k).ovr = satInc 16 c.ovr ∧
          (t.getChan k).overrun = true ∧ (t.getChan k).n = c.n + 1 ∧ (t.getChan k).xfer = c.xfer ∧
          Only [.hm, .hif, .ldg, .dma] s t) ∧
        (c.busy = false → ∃ t, exec (.streamPeriod k) s = .next t ∧ (t.getChan k).busy = true ∧
          (t.getChan k).n = c.n + 1 ∧
          ((t.getChan k).xfer.map fun y => (y.op, y.opcode, y.period, y.start)) = some (q, 0x81, c.n, s.now) ∧
          Only [.dma] s t))) := by
  intro c
  have hx : ∀ {u}, streamPeriod k s = u → exec (.streamPeriod k) s = .next u := fun hu => act_eq hl hu
  refine ⟨fun hn => hx (streamPeriod_none hn), fun q hq => ?_⟩
  have he := streamPeriod_some hq
  dsimp only at he
  have hiff : ((s.frm.inFrame || !s.frm.metered || decide (s.now < c.armTime + c.n * q.periodUs * nsPerUs) || c.stopping) = true) ↔
      s.frm.inFrame = true ∨ s.frm.metered = false ∨ s.now < c.armTime + c.n * q.periodUs * 1000 ∨ c.stopping = true :=
    streamPeriod_waits_iff rfl
  refine ⟨fun hw => hx (he.trans (if_pos (hiff.mpr hw))), fun h1 h2 h3 h4 => ?_⟩
  replace he := he.trans (if_neg (by
    rw [hiff]
    rintro (h | h | h | h)
    · rw [h1] at h; exact absurd h (by decide)
    · rw [h2] at h; exact absurd h (by decide)
    · omega
    · rw [h4] at h; exact absurd h (by decide)))
  refine ⟨fun hb => ?_, fun hb => ?_⟩
  · replace he := he.trans (if_pos hb)
    let first := due s.now nsPerS c.lastOvrRec
    let u := s.updChan k (periodOverrun first s.now)
    have hu : Keeps [.dma] s u := State.updChan_keeps ..
    have hk : Keeps [.hm, .hif, .ldg] u (if first then emitDma 0xA011 k (c.n + 1) 0 0 u else u) := .ite (emitDma_keeps ..) (.refl ..)
    have hch : (if first then emitDma 0xA011 k (c.n + 1) 0 0 u else u).getChan k = periodOverrun first s.now c := by
      rw [getChan_of_dma (hk.dma_eq rfl)]
      exact State.getChan_updChan ..
    exact ⟨_, hx he, by rw [hch]; rfl, by rw [hch]; rfl, by rw [hch]; rfl, by rw [hch]; rfl,
      Keeps.only (.step hk (by decide) (hu.mono (by decide)))⟩
  · replace he := he.trans (if_neg (by rw [hb]; decide))
    rw [xferStart_quiet (show (0x81 : Nat) ≠ 0x80 by decide)] at he
    refine ⟨_, hx he, ?_, ?_, ?_, Keeps.only (.step (State.updChan_keeps ..) (by decide) (State.updChan_keeps ..))⟩
    · rw [State.getChan_updChan]; rfl
    · rw [State.getChan_updChan, State.getChan_updChan]; rfl
    · rw [State.getChan_updChan]; rfl

end Period

section Done
variable {s : State} {y : Xfer}

/-- The buffer of a stream transfer (R399). -/
def bufOf (y : Xfer) : Nat := y.op.dst + y.period % max 1 y.op.nbuf * y.op.bstride

def bufDone (y : Xfer) (c : DmaChan) : DmaChan := { c with seq := y.period + 1, buffers := c.buffers + 1, overrun := false, gap := 0 }

theorem streamDone_ok {k n : Nat} {ws : List Nat} (hs : (s.getChan k).stopping = false) : streamDone k y true n ws s =
    xferEnd k 0 ((hmWrite (.words (bufOf y + y.op.bstride - 16) (streamTrailer (s.getChan k) y s.tb.hold))
      (xferIssue (xferWrites s y (bufOf y) ws) (sumN ((xferWrites s y (bufOf y) ws).map Prod.fst)) s)).updChan k (bufDone y)) :=
  if_neg (by rw [hs]; decide)

theorem streamDone_failed {k n : Nat} {ws : List Nat} (hs : (s.getChan k).stopping = false) : streamDone k y false n ws s =
    xferEnd k 0xA006 (emitDma 0xA010 k (y.period + 1) 0 0 (xferIssue (xferWrites s y (bufOf y) ws) n s)) :=
  if_neg (by rw [hs]; decide)

/-- R399: the end of a stream transfer, with its buffer's trailer or failed. -/
theorem streamDone_effect {k : Nat} (hk8 : k < 8) {ws : List Word} (hl : s.live = true) (hy : (s.getChan k).xfer = some y)
    (hop : y.opcode = 0x81) (hs : (s.getChan k).stopping = false) :
    let c := s.getChan k
    (s.reading k = false → ∃ t, exec (.dmaTransferDone ⟨k, hk8⟩ true 0 ws []) s = .next t ∧
      (t.getChan k).xfer = none ∧
      (t.getChan k).seq = y.period + 1 ∧ (t.getChan k).buffers = c.buffers + 1 ∧ (t.getChan k).done = satInc 16 c.done ∧
      Posts (.words (bufOf y + y.op.bstride - 16) (streamTrailer c y s.tb.hold)) s t ∧ Only [.hm, .dma] s t) ∧
    (∃ t, exec (.dmaTransferDone ⟨k, hk8⟩ false 0 ws []) s = .next t ∧ (t.getChan k).xfer = none ∧
      (t.getChan k).seq = c.seq ∧ (t.getChan k).last = 0xA006 ∧ (t.getChan k).fail = satInc 16 c.fail ∧
      Only [.hm, .hif, .ldg, .dma] s t) := by
  intro c
  have hx : ∀ {ok u}, transferDone k ok 0 (ws.map BitVec.toNat) [] s = u → exec (.dmaTransferDone ⟨k, hk8⟩ ok 0 ws []) s = .next u :=
    fun hu => act_eq hl hu
  let l := xferWrites s y (bufOf y) (ws.map BitVec.toNat)
  have hissue : ∀ n, Keeps [.hm] s (xferIssue l n s) := fun n => xferIssue_keeps ..
  refine ⟨fun hread => ?_, ?_⟩
  · have hd := transferDone_through (ok := true) (n := 0) (ws := ws.map BitVec.toNat) (bad := []) hy (fun _ => hread)
      (fun _ h84 => by rw [hop] at h84; cases h84)
    rw [opDone, hop] at hd
    replace hd := hd.trans (streamDone_ok hs)
    let w := HmWrite.words (bufOf y + y.op.bstride - 16) (streamTrailer c y s.tb.hold)
    let v := hmWrite w (xferIssue l (sumN (l.map Prod.fst)) s)
    have hv : Keeps [.hm] s v := .step (hmWrite_keeps ..) (by decide) (hissue _)
    have hpost : Posting w s v := Posting.before (s := xferIssue l (sumN (l.map Prod.fst)) s) ⟨[], [], (Emits.hmWrite w _).hm⟩ (xferIssue_posted ..)
    have hch : (xferEnd k 0 (v.updChan k (bufDone y))).getChan k = endedChan 0 (bufDone y c) := by
      rw [xferEnd_getChan, State.getChan_updChan, getChan_of_dma (hv.dma_eq rfl)]
    have hwrote : Wrote v (xferEnd k 0 (v.updChan k (bufDone y))) :=
      ((Wrote.refl v).keeps (State.updChan_keeps k (bufDone y) v) rfl).trans (xferEnd_wrote ..)
    exact ⟨_, hx hd, by rw [hch]; rfl, by rw [hch]; rfl, by rw [hch]; rfl, by rw [hch]; rfl, hpost.wrote hwrote,
      Keeps.only (.step (xferEnd_keeps ..) (by decide) (.step (State.updChan_keeps ..) (by decide) (hv.mono (by decide))))⟩
  · have hd := transferDone_through (ok := false) (n := 0) (ws := ws.map BitVec.toNat) (bad := []) hy nofun nofun
    rw [opDone, hop] at hd
    replace hd := hd.trans (streamDone_failed hs)
    let v := emitDma 0xA010 k (y.period + 1) 0 0 (xferIssue l 0 s)
    have hv : Keeps [.hm, .hif, .ldg] s v := .step (emitDma_keeps ..) (by decide) ((hissue 0).mono (by decide))
    have hch : (xferEnd k 0xA006 v).getChan k = endedChan 0xA006 c := by
      rw [xferEnd_getChan, getChan_of_dma (hv.dma_eq rfl)]
    exact ⟨_, hx hd, by rw [hch]; rfl, by rw [hch]; rfl, by rw [hch]; rfl, by rw [hch]; rfl,
      Keeps.only (.step (xferEnd_keeps ..) (by decide) (hv.mono (by decide)))⟩

end Done

section Capture
variable {s : State}

/-- An armed stream counts a sweep as lost (R393). -/
def gapped (c : DmaChan) : DmaChan := if c.armed then { c with gap := satInc 16 c.gap } else c

theorem captureSweep_frozen (hr : s.dma.run = true) (hf : s.capFrozen = true) :
    captureSweep s = forList (List.range 5) (fun k => State.updChan k gapped) s :=
  (if_neg (by rw [hr]; decide)).trans (if_pos hf)

def sweepOf (s : State) : Tbl Nat := (List.range 128).foldl (fun t p => Tbl.set 0 t p (sweepEntry s p)) []

theorem captureSweep_taken (hr : s.dma.run = true) (hf : s.capFrozen = false) : captureSweep s = s.onDma fun d =>
    { d with sweeps := (if d.sweeps.length < 256 then d.sweeps else d.sweeps.tail) ++ [sweepOf s] } :=
  (if_neg (by rw [hr]; decide)).trans (if_neg (by rw [hf]; decide))

/-- R393: what a sweep of the capture does. -/
theorem captureSweep_effect (hl : s.live = true) :
    (s.dma.run = false → exec .captureSweep s = .next s) ∧
    (s.dma.run = true → s.capFrozen = true → ∃ t, exec .captureSweep s = .next t ∧ t.dma.sweeps = s.dma.sweeps ∧
      (∀ j < 5, (t.getChan j).gap = if (s.getChan j).armed then satInc 16 (s.getChan j).gap else (s.getChan j).gap) ∧
      Only [.dma] s t) ∧
    (s.dma.run = true → s.capFrozen = false → ∃ t w, exec .captureSweep s = .next t ∧
      t.dma.sweeps = (if s.dma.sweeps.length < 256 then s.dma.sweeps else s.dma.sweeps.tail) ++ [w] ∧
      (∀ p < 128, Tbl.get 0 w p = sweepEntry s p) ∧ t.dma.chan = s.dma.chan ∧ Only [.dma] s t) := by
  have hx : ∀ {u}, captureSweep s = u → exec .captureSweep s = .next u := fun hu => act_eq hl hu
  refine ⟨fun hr => hx (if_pos (by rw [hr]; rfl)), fun hr hf => ?_, fun hr hf => ?_⟩
  · have hk : Keeps [.dma] s (forList (List.range 5) (fun k => State.updChan k gapped) s) :=
      forList_keeps _ (fun _ _ hu => .step (State.updChan_keeps ..) (by decide) hu) (.refl ..)
    refine ⟨_, hx (captureSweep_frozen hr hf), ?_, fun j hj => ?_, hk.only⟩
    · exact forList_eq (·.dma.sweeps) (List.range 5) (f := fun k => State.updChan k gapped) (fun _ _ => rfl) s
    · have he := (forList_entry (fun u : State => u.getChan j) (f := fun k => State.updChan k gapped) (g := gapped)
        (fun u => State.getChan_updChan ..) (fun i hi u => State.getChan_updChan_ne _ _ _ hi.symm) List.nodup_range s).trans
        (if_pos (List.mem_range.mpr hj))
      rw [he, gapped]
      split <;> rfl
  · exact ⟨_, sweepOf s, hx (captureSweep_taken hr hf), by rw [State.onDma_dma], fun p hp =>
      Tbl.get_foldl_set 0 (sweepEntry s) [] (.inl (List.mem_range.mpr hp)), by rw [State.onDma_dma], (State.onDma_keeps ..).only⟩

end Capture

/-- Settles O50: how transfers and streams begin, end and complete. -/
theorem transfersAndStreams : Obligations.TransfersAndStreams := by
  constructor
  · intro s h o f x k ok n ws
    refine ⟨fun hr => dmaXfer_effect hr, fun hr => frecCopy_effect hr, fun hl => ⟨fun hn => act_eq hl (transferDone_none hn),
      fun hok hr => act_eq hl (transferDone_waits hok hr), fun y hok hy h84 hb => act_eq hl (transferDone_pauses hok hy h84 hb),
      fun y g hy hh hn hread => transferDone_effect hl hy hh hn hread⟩⟩
  · intro s h o x k ws c
    refine ⟨fun hr ho => streamArm_effect hr k.isLt ho, fun hr => streamStop_effect k hr, fun hl => ?_, fun hemu => dmaCtrl_effect k hemu⟩
    obtain ⟨h1, h2⟩ := streamPeriod_effect k hl
    exact ⟨h1, h2, fun y hy hop hs => streamDone_effect (by omega) hl hy hop hs, captureSweep_effect hl⟩

end Sys2Proof.Machine
end

section
/-!
Ledger's store, its drain and re-arm, and its window (R403–R407, R412).
-/
namespace Sys2Proof.Machine

section Store
variable {s : State} {k : Nat} {r : LRec} {l : List LRec}

theorem onLdg_only (f : Ledger → Ledger) (s : State) : Only [.ldg, .queues] s (s.onLdg f) :=
  ⟨fun p hp => by cases p <;> first | rfl | exact absurd (by decide) hp⟩

/-- A source's first record taken off its queue, and the turn that is remembered (R403). -/
def dequeued (k : Nat) (l : List LRec) (s : State) : State := s.onLdg fun y => { y with queues := Tbl.set [] y.queues k l, rr := k }

theorem ldgStore_none (h : ldgNext s = none) : ldgStore s = s := by
  unfold ldgStore
  rw [h]

theorem ldgStore_some (h : ldgNext s = some k) (hq : Tbl.get [] s.ldg.queues k = r :: l) : ldgStore s = ldgTake r (dequeued k l s) := by
  unfold ldgStore
  rw [h]
  dsimp only
  rw [hq]
  rfl

/-- The record as the store takes it (R404). -/
def storedRec (r : LRec) (y : Ledger) : LRec := { r with seq := y.seq, lost := Tbl.get false y.lostFlag r.source }

theorem ldgTake_room (h : s.ldg.w < 16383) : ldgTake r s = s.onLdg fun y =>
    { y with store := Tbl.set {} y.store s.ldg.w (storedRec r s.ldg), w := s.ldg.w + 1, seq := wrapInc 32 y.seq,
             lostFlag := Tbl.set false y.lostFlag r.source false } :=
  (if_neg (by omega)).trans (if_neg (by omega))

theorem ldgTake_full (h : 16384 ≤ s.ldg.w) : ldgTake r s = s.onLdg fun y => { y with drop := satInc 32 y.drop } := if_pos h

/-- The overflow record (R404). -/
def overflowRec (r : LRec) (y : Ledger) : LRec :=
  { code := 0xA810, source := 0x36, hold := r.hold, lost := Tbl.get false y.lostFlag 0x36, seq := y.seq, time := r.time, p0 := r.code,
    p1 := r.source }

def overflowed (r : LRec) (s : State) : State := s.onLdg fun y =>
  { y with store := Tbl.set {} y.store 16383 (overflowRec r s.ldg), w := 16384, seq := wrapInc 32 y.seq, drop := satInc 32 y.drop,
           lostFlag := Tbl.set false y.lostFlag 0x36 false }

theorem ldgTake_last (h : s.ldg.w = 16383) : ldgTake r s = evtDeliver (emitRec 3) (overflowRec r s.ldg) 0 (overflowed r s) :=
  (if_neg (by omega)).trans (if_pos h)

theorem ldgTake_last_stored (h : s.ldg.w = 16383) : (ldgTake r s).ldg.stored = (overflowed r s).ldg.stored := by
  rw [ldgTake_last h]
  obtain ⟨ws, hem⟩ := evtDeliver_emits (emitRec_emits 3) (overflowRec r s.ldg) 0 (overflowed r s)
  exact hem.stored

/-- R403, R404: what one turn of the store leaves. -/
theorem ledgerStore_effect (hl : s.live = true) (hn : ldgNext s = some k) (hq : Tbl.get [] s.ldg.queues k = r :: l) :
    (s.ldg.w < 16383 → ∃ t, exec .ledgerStore s = .next t ∧ t.ldg.w = s.ldg.w + 1 ∧
      Tbl.get {} t.ldg.store s.ldg.w = { r with seq := s.ldg.seq, lost := Tbl.get false s.ldg.lostFlag r.source } ∧
      (∀ j, j ≠ s.ldg.w → Tbl.get {} t.ldg.store j = Tbl.get {} s.ldg.store j) ∧ t.ldg.seq = wrapInc 32 s.ldg.seq ∧
      Tbl.get [] t.ldg.queues k = l ∧ (∀ j, j ≠ k → Tbl.get [] t.ldg.queues j = Tbl.get [] s.ldg.queues j) ∧
      t.ldg.rr = k ∧ t.ldg.r = s.ldg.r ∧ Only [.ldg, .queues] s t) ∧
    (s.ldg.w = 16383 → ∃ t, exec .ledgerStore s = .next t ∧ t.ldg.w = 16384 ∧
      (Tbl.get {} t.ldg.store 16383).code = 0xA810 ∧ (Tbl.get {} t.ldg.store 16383).p0 = r.code ∧
      t.ldg.drop = satInc 32 s.ldg.drop ∧ Only [.hm, .hif, .ldg, .queues] s t) ∧
    (16384 ≤ s.ldg.w → ∃ t, exec .ledgerStore s = .next t ∧ t.ldg.w = s.ldg.w ∧ t.ldg.store = s.ldg.store ∧
      t.ldg.drop = satInc 32 s.ldg.drop ∧ Tbl.get [] t.ldg.queues k = l ∧ Only [.ldg, .queues] s t) := by
  have hx : ∀ {u}, ldgTake r (dequeued k l s) = u → exec .ledgerStore s = .next u :=
    fun hu => act_eq hl ((ldgStore_some hn hq).trans hu)
  refine ⟨fun hw => ?_, fun hw => ?_, fun hw => ?_⟩
  · refine ⟨_, hx (ldgTake_room (s := dequeued k l s) hw), ?_⟩
    rw [State.onLdg_ldg]
    exact ⟨rfl, Tbl.get_set_self .., fun j hj => Tbl.get_set_ne _ _ hj, rfl, Tbl.get_set_self .., fun j hj => Tbl.get_set_ne _ _ hj, rfl,
      rfl, (onLdg_only ..).trans (onLdg_only ..)⟩
  · refine ⟨_, hx rfl, ?_⟩
    have hst := ldgTake_last_stored (r := r) (s := dequeued k l s) hw
    have hstore : (ldgTake r (dequeued k l s)).ldg.store = _ := (congrArg Ledger.store hst :)
    have hget : Tbl.get {} (ldgTake r (dequeued k l s)).ldg.store 16383 = overflowRec r (dequeued k l s).ldg := by
      rw [hstore]
      exact Tbl.get_set_self (d := {}) (dequeued k l s).ldg.store 16383 (overflowRec r (dequeued k l s).ldg)
    rw [hget]
    exact ⟨(congrArg Ledger.w hst :), rfl, rfl, (congrArg Ledger.drop hst :), ldgStore_some hn hq ▸ (ldgStore_keeps s).only⟩
  · refine ⟨_, hx (ldgTake_full (s := dequeued k l s) hw), ?_⟩
    rw [State.onLdg_ldg]
    exact ⟨rfl, rfl, rfl, Tbl.get_set_self .., (onLdg_only ..).trans (onLdg_only ..)⟩

end Store

section Window
variable {s : State} {f : Bool}

/-- Ledger without what the report of a store error changes. -/
def Ledger.unread (y : Ledger) : Ledger := { y.stored with eccUnc := 0, eccSeen := [] }

theorem ldgEcc_unread (k : Nat) (s : State) : (ldgEcc k s).ldg.unread = s.ldg.unread := by
  unfold ldgEcc
  split
  · rfl
  · dsimp only
    rw [Ledger.unread, emit_stored]
    rfl

/-- The record at the read position in the window's buffer (R405). -/
def buffered (f : Bool) (s : State) : State := s.onLdg fun y =>
  { y with buf := Tbl.get {} s.ldg.store s.ldg.r, bufBad := f, bufSlot := s.ldg.r, bufValid := true }

theorem rec0Read_some (h : s.ldg.r ≠ s.ldg.w) : rec0Read f s =
    hsAnswer 0 ((ldgWords (Tbl.get {} s.ldg.store s.ldg.r) f).getD 0 0) (if f then ldgEcc s.ldg.r (buffered f s) else buffered f s) :=
  if_neg h

/-- R405: a read of the first word of the window. -/
theorem rec0Read_effect (hl : s.live = true) (h : s.ldg.r ≠ s.ldg.w) : ∃ t, exec (.ldwRec0Read f) s = .next t ∧
    t.ldg.buf = Tbl.get {} s.ldg.store s.ldg.r ∧
    t.ldg.bufSlot = s.ldg.r ∧ t.ldg.bufValid = true ∧ t.ldg.bufBad = f ∧ t.ldg.r = s.ldg.r ∧
    t.hs.resp = lastFour (s.hs.resp ++ [(0, (ldgWords (Tbl.get {} s.ldg.store s.ldg.r) f).getD 0 0)]) ∧
    (f = false → Only [.hs, .ldg] s t) ∧ Only [.hs, .hm, .hif, .ldg] s t := by
  let n := (ldgWords (Tbl.get {} s.ldg.store s.ldg.r) f).getD 0 0
  let u := if f then ldgEcc s.ldg.r (buffered f s) else buffered f s
  have hb : Keeps [.ldg] s (buffered f s) := State.onLdg_keeps (fun h => ⟨h.1, h.2, h.3, h.4⟩) fun _ => List.prefix_rfl
  have hku : Keeps [.hm, .hif, .ldg] s u :=
    .ite (.step (ldgEcc_keeps ..) (by decide) (hb.mono (by decide))) (hb.mono (by decide))
  have hans := hsAnswer_keeps 0 n u
  have hun : u.ldg.unread = (buffered f s).ldg.unread := by
    show (if f then ldgEcc s.ldg.r (buffered f s) else buffered f s).ldg.unread = _
    split
    · exact ldgEcc_unread ..
    · rfl
  have he : exec (.ldwRec0Read f) s = .next (hsAnswer 0 n u) := congrArg Host.Outcome.next ((if_pos hl).trans (rec0Read_some h))
  refine ⟨_, he, ?_⟩
  rw [hans.ldg_eq rfl]
  refine ⟨(congrArg Ledger.buf hun :), (congrArg Ledger.bufSlot hun :), (congrArg Ledger.bufValid hun :), (congrArg Ledger.bufBad hun :),
    (congrArg Ledger.r hun :), ?_, fun hf => ?_, Keeps.only (.step hans (by decide) (hku.mono (by decide)))⟩
  · show lastFour (u.hs.resp ++ [(0, n)]) = _
    rw [hku.hs_eq rfl]
  · have hu : u = buffered f s := if_neg (by rw [hf]; decide)
    rw [hu] at hans ⊢
    exact Keeps.only (.step hans (by decide) (hb.mono (by decide)))

/-- R405: a read of the last word of the window advances the read position past the buffered record. -/
theorem rec7Read_effect (hl : s.live = true) : ∃ t, exec .ldwRec7Read s = .next t ∧
    t.hs.resp = lastFour (s.hs.resp ++ [(0, s.ldg.buf.p3 % 2 ^ 32)]) ∧
    t.ldg.r = (if s.ldg.bufValid then max s.ldg.r (s.ldg.bufSlot + 1) else s.ldg.r) ∧ t.ldg.bufValid = false ∧
    t.ldg.store = s.ldg.store ∧ Only [.hs, .ldg] s t := by
  let p := s.ldg.buf.p3 % 2 ^ 32
  let u := if s.ldg.bufValid then s.onLdg fun y => { y with r := max y.r (y.bufSlot + 1), bufValid := false } else s
  have hu : Keeps [.ldg] s u := .ite (State.onLdg_keeps (fun h => ⟨h.1, h.2, h.3, h.4⟩) fun _ => List.prefix_rfl) (.refl ..)
  have hans := hsAnswer_keeps 0 p u
  have he : exec .ldwRec7Read s = .next (hsAnswer 0 p u) := congrArg Host.Outcome.next (if_pos hl)
  have hldg : u.ldg = if s.ldg.bufValid then { s.ldg with r := max s.ldg.r (s.ldg.bufSlot + 1), bufValid := false } else s.ldg := by
    simp only [u]
    split <;> rfl
  refine ⟨_, he, ?_⟩
  rw [hans.ldg_eq rfl, hldg]
  refine ⟨?_, ?_, ?_, ?_, Keeps.only (.step hans (by decide) (hu.mono (by decide)))⟩
  · show lastFour (u.hs.resp ++ [(0, p)]) = _
    rw [hu.hs_eq rfl]
  · split <;> rfl
  · cases hv : s.ldg.bufValid
    · exact hv
    · rfl
  · split <;> rfl

end Window

section Drain
variable {s : State} {h : DescHdr} {n a : Nat} {f : Bool}

/-- R406: what LDG_DRAIN refuses, and what it starts. -/
theorem ldgDrain_effect (hr : Runs h descLdgDrain s) :
    (n = 0 ∨ 16384 < n → ∃ t, exec (.ldgDrain h n a) s = .next t ∧ Completes h 0x82 0xA002 0 s t ∧ Only [.hm, .hif] s t) ∧
    (0 < n → n ≤ 16384 → a % 32 ≠ 0 → ∃ t, exec (.ldgDrain h n a) s = .next t ∧ Completes h 0x82 0xA001 0 s t ∧
      Only [.hm, .hif] s t) ∧
    (0 < n → n ≤ 16384 → a % 32 = 0 → ∃ t, exec (.ldgDrain h n a) s = .next t ∧ (t.getChan 6).busy = true ∧
      ((t.getChan 6).xfer.map fun y => (y.hdr, y.opcode, y.op.dst, y.first, y.num)) =
        some (some h, 0x82, a, s.ldg.r, min n (s.ldg.w - s.ldg.r)) ∧
      (t.getCtx h.ctx).busy = true ∧ Only [.hif, .dma] s t) := by
  have hx : exec (.ldgDrain h n a) s = act (runDesc h descLdgDrain (bodyLdgDrain h n a)) s := rfl
  have hldg : (descBegin h.ctx.val s).ldg = s.ldg := (descBegin_keeps ..).ldg_eq rfl
  refine ⟨fun hn => refused_of_fail hx hr (if_pos hn), fun h0 h1 ha => refused_of_fail hx hr ((if_neg (by omega)).trans (if_pos ha)),
    fun h0 h1 ha => ?_⟩
  obtain ⟨t, he, hch, -, hbusy, -, -, honly⟩ := exec_of_xfer hx hr ((if_neg (by omega)).trans (if_neg (not_not.mpr ha)))
  refine ⟨t, he, by rw [hch]; rfl, ?_, hbusy, honly (show (0x82 : Nat) ≠ 0x80 by decide)⟩
  rw [hch]
  show some (some h, 0x82, a, (descBegin h.ctx.val s).ldg.r,
    min n ((descBegin h.ctx.val s).ldg.w - (descBegin h.ctx.val s).ldg.r)) = _
  rw [hldg]

/-- The record LDG_REARMED (R407). -/
def rearmRec (s : State) : LRec :=
  { mkRec 0x36 0xA811 (s.ldg.w - s.ldg.r) s.ldg.drop (if s.ldg.seq = 0 then umax 32 else s.ldg.seq - 1) 0 s with
    seq := s.ldg.seq, lost := Tbl.get false s.ldg.lostFlag 0x36 }

def rearmed (s : State) : State := s.onLdg fun y =>
  { y with w := 1, r := 0, drop := 0, bufValid := false, store := [(0, rearmRec s)], seq := wrapInc 32 y.seq,
           eccSeen := [], lostFlag := Tbl.set false y.lostFlag 0x36 false }

theorem ldgRearm_eq (s : State) : ldgRearm s = evtDeliver (emitRec 3) (rearmRec s) 0 (rearmed s) := rfl

theorem ldgRearm_between (c : Nat) (s : State) : Between c s (ldgRearm s) := by
  obtain ⟨ws, hem⟩ := evtDeliver_emits (emitRec_emits 3) (rearmRec s) 0 (rearmed s)
  exact Between.trans (t := rearmed s) (.of_eq (State.onLdg_hm ..) (State.onLdg_hif ..)) (ldgRearm_eq s ▸ hem.between)

theorem ldgRearm_stored (s : State) : (ldgRearm s).ldg.stored = (rearmed s).ldg.stored := by
  obtain ⟨ws, hem⟩ := evtDeliver_emits (emitRec_emits 3) (rearmRec s) 0 (rearmed s)
  exact hem.stored

/-- R407: what LDG_REARM refuses, and the store that it leaves. -/
theorem ldgRearm_effect (hr : Runs h descLdgRearm s) :
    (s.ldg.r < s.ldg.w → f = false → ∃ t, exec (.ldgRearm h f) s = .next t ∧ Completes h 0x83 0xA801 0 s t ∧
      Only [.hm, .hif] s t) ∧
    (s.ldg.w ≤ s.ldg.r ∨ f = true → ∃ t, exec (.ldgRearm h f) s = .next t ∧ Completes h 0x83 0 (s.ldg.w - s.ldg.r) s t ∧
      t.ldg.w = 1 ∧ t.ldg.r = 0 ∧ t.ldg.drop = 0 ∧ t.ldg.seq = wrapInc 32 s.ldg.seq ∧
      (Tbl.get {} t.ldg.store 0).code = 0xA811 ∧ (Tbl.get {} t.ldg.store 0).seq = s.ldg.seq ∧
      (Tbl.get {} t.ldg.store 0).p0 = satU 32 (s.ldg.w - s.ldg.r) ∧
        (Tbl.get {} t.ldg.store 0).p1 = satU 32 s.ldg.drop ∧ (∀ j, j ≠ 0 → Tbl.get {} t.ldg.store j = {}) ∧
      Only [.hm, .hif, .ldg] s t) := by
  have hx : exec (.ldgRearm h f) s = act (runDesc h descLdgRearm (bodyLdgRearm f)) s := rfl
  let b := descBegin h.ctx.val s
  have hkb : Keeps [.hif] s b := descBegin_keeps ..
  have hldg : b.ldg = s.ldg := hkb.ldg_eq rfl
  have hb : bodyLdgRearm f b = if s.ldg.r < s.ldg.w ∧ (!f) = true then .fail 0xA801 b else .done 0 (s.ldg.w - s.ldg.r) (ldgRearm b) := by
    rw [← hldg]
    rfl
  refine ⟨fun hlt hf => refused_of_fail hx hr (hb.trans (if_pos ⟨hlt, by rw [hf]; rfl⟩)), fun hgo => ?_⟩
  have hno : ¬ (s.ldg.r < s.ldg.w ∧ (!f) = true) := by
    rintro ⟨h1, h2⟩
    rcases hgo with hgo | hgo
    · omega
    · rw [hgo] at h2; exact absurd h2 (by decide)
  obtain ⟨t, he, ht⟩ := exec_of_done hx hr (hb.trans (if_neg hno)) (ldgRearm_between ..)
  have hst : t.ldg.stored = (rearmed b).ldg.stored := (congrArg Ledger.stored (ht.keeps.ldg_eq rfl)).trans (ldgRearm_stored b)
  have hstore : t.ldg.store = [(0, rearmRec b)] := (congrArg Ledger.store hst :)
  have hget : Tbl.get {} t.ldg.store 0 = rearmRec b := by rw [hstore]; rfl
  refine ⟨t, he, ht.completes, (congrArg Ledger.w hst :), (congrArg Ledger.r hst :), (congrArg Ledger.drop hst :), ?_, by rw [hget]; rfl,
    ?_, ?_, ?_, fun j hj => ?_, Keeps.only (.step ht.keeps (by decide) (.step (ldgRearm_keeps ..) (by decide) (hkb.mono (by decide))))⟩
  · rw [← hldg]
    exact (congrArg Ledger.seq hst :)
  · rw [hget, ← hldg]; rfl
  · rw [hget, ← hldg]; rfl
  · rw [hget, ← hldg]; rfl
  · rw [hstore]
    simp [Tbl.get, hj.symm]

end Drain

/-- Settles O51: what the store takes, and what drains, re-arms, the window and the cursor leave. -/
theorem ledgerStoredDrainedRead : Obligations.LedgerStoredDrainedRead := by
  intro s h n a f v
  refine ⟨fun hl => ⟨fun hn => act_eq hl (ldgStore_none hn), fun k r l hn hq => ledgerStore_effect hl hn hq, fun he => ?_,
    fun hne => rec0Read_effect hl hne, rec7Read_effect hl, hsHard_of_live hl⟩, fun hemu => hsEmu_eq hemu rfl,
    fun hr => ldgDrain_effect hr, fun hr => ldgRearm_effect hr⟩
  exact congrArg Host.Outcome.next ((if_pos hl).trans (if_pos he))

end Sys2Proof.Machine
end

section
/-!
Registers: the alarm register, latched reads, and the command that a write names (R8–R11, R34, R444, R470).
-/
namespace Sys2Proof.Machine

section Alarm
variable {s t : State} {b j : Nat}

theorem bitOf_sub_two_pow {m j : Nat} (h : bitOf m j = true) (k : Nat) : bitOf (m - 2 ^ j) k = (bitOf m k && !decide (k = j)) := by
  simp only [bitOf_eq_testBit] at h ⊢
  obtain ⟨x, rfl⟩ := Nat.exists_eq_add_of_le (Nat.ge_two_pow_of_testBit h)
  rw [Nat.add_sub_cancel_left]
  have hx : x.testBit j = false := by
    rw [Nat.testBit_two_pow_add_eq] at h
    simpa using h
  rw [Nat.add_comm, testBit_add_two_pow hx]
  by_cases e : k = j
  · subst e; simp [hx]
  · simp [e]

theorem clrAlarm_bit (j k : Nat) (s : State) : bitOf (clrAlarm j s).pwr.alarm k = (bitOf s.pwr.alarm k && !decide (k = j)) := by
  show bitOf (if bitOf s.pwr.alarm j then s.pwr.alarm - 2 ^ j else s.pwr.alarm) k = _
  split
  · next h => exact bitOf_sub_two_pow h k
  · next h =>
    by_cases e : k = j
    · subst e; simp [Bool.eq_false_iff.mpr h]
    · simp [e]

/-- What the clearing conditions of `LIM_ALARM` look at beside the parts that a clear leaves alone. -/
def State.alarmView (s : State) : List Nat × Tbl Site × Bool := (s.sns.agree, s.sns.site, s.pwr.pfailLow)

theorem alarmMay_congr {ps : List Area} (hk : Keeps ps s t) (hc : ps.contains .clk = false) (ht : ps.contains .tly = false)
    (hl : ps.contains .loop = false) (hf : ps.contains .fw = false) (ha : ps.contains .aud = false)
    (hv : t.alarmView = s.alarmView) (b : Nat) : alarmMay b t = alarmMay b s := by
  obtain ⟨h1, h2, h3⟩ : t.sns.agree = s.sns.agree ∧ t.sns.site = s.sns.site ∧ t.pwr.pfailLow = s.pwr.pfailLow := by
    simpa only [State.alarmView, Prod.mk.injEq] using hv
  unfold alarmMay State.refsAgree State.cubesActive
  rw [hk.clk_eq hc, hk.tly_eq ht, hk.loop_eq hl, hk.fw_eq hf, hk.aud_eq ha, h1, h2, h3]

theorem majorityBack_view (s : State) : (majorityBack s).alarmView = s.alarmView := by
  unfold majorityBack
  split
  · dsimp only
    rw [State.alarmView, (emitSns_keeps ..).sns_eq rfl, (emitSns_keeps ..).pwr_eq rfl]
    rfl
  · rfl

theorem majorityBack_noMaj (s : State) : (majorityBack s).sns.noMaj = false := by
  unfold majorityBack
  split
  · dsimp only
    rw [(emitSns_keeps ..).sns_eq rfl]
    rfl
  · next h => exact Bool.eq_false_iff.mpr h

theorem alarmBit_eq (j : Nat) (s : State) : alarmBit j s =
    if bitOf s.pwr.alarm j && alarmMay j s then if decide (j = 5) then majorityBack (clrAlarm j s) else clrAlarm j s else s := rfl

theorem alarmBit_view (j : Nat) (s : State) : (alarmBit j s).alarmView = s.alarmView := by
  rw [alarmBit_eq]
  split
  · split
    · exact majorityBack_view _
    · rfl
  · rfl

theorem alarmBit_may (b j : Nat) (s : State) : alarmMay b (alarmBit j s) = alarmMay b s :=
  alarmMay_congr (alarmBit_keeps j s) rfl rfl rfl rfl rfl (alarmBit_view j s) b

theorem alarmBit_bit (b j : Nat) (s : State) :
    bitOf (alarmBit j s).pwr.alarm b = (bitOf s.pwr.alarm b && !(decide (b = j) && alarmMay j s)) := by
  rw [alarmBit_eq]
  split
  · next h =>
    have hmay : alarmMay j s = true := (Bool.and_eq_true_iff.mp h).2
    have hpwr : (if decide (j = 5) then majorityBack (clrAlarm j s) else clrAlarm j s).pwr = (clrAlarm j s).pwr := by
      split
      · exact (majorityBack_keeps _).pwr_eq rfl
      · rfl
    rw [hpwr, clrAlarm_bit, hmay, Bool.and_true]
  · next h =>
    by_cases e : b = j
    · subst e
      cases hb : bitOf s.pwr.alarm b
      · rfl
      · have hm : alarmMay b s = false := by simpa [hb] using h
        rw [hm]
        simp
    · simp [e]

/-- An alarm bit and its clearing condition. -/
def State.alarmPair (s : State) (b : Nat) : Bool × Bool := (bitOf s.pwr.alarm b, alarmMay b s)

/-- R444: every bit written whose condition has gone is cleared, and no other. -/
theorem limAlarm_bit (v : Nat) (hb : b < 19) (s : State) :
    bitOf (limAlarm v s).pwr.alarm b = (bitOf s.pwr.alarm b && !(bitOf v b && alarmMay b s)) := by
  have he := forList_entry (fun u : State => u.alarmPair b) (f := alarmBit) (g := fun p => (p.1 && !p.2, p.2)) (k := b)
    (fun u => by rw [State.alarmPair, alarmBit_bit, alarmBit_may, decide_eq_true rfl]; rfl)
    (fun j hj u => by rw [State.alarmPair, alarmBit_bit, alarmBit_may, decide_eq_false hj.symm]; simp [State.alarmPair])
    (l := maskIdx 19 v) (List.nodup_range.filter _) s
  refine (congrArg Prod.fst he).trans ?_
  simp only [mem_maskIdx, hb, true_and]
  cases bitOf v b <;> simp [State.alarmPair]

theorem alarmBit_noMaj {j : Nat} (s : State) (h : s.sns.noMaj = false) : (alarmBit j s).sns.noMaj = false := by
  rw [alarmBit_eq]
  split
  · split
    · exact majorityBack_noMaj _
    · exact h
  · exact h

/-- R120: the clear of bit 5 ends the state without a majority. -/
theorem limAlarm_noMaj {v : Nat} (hv : bitOf v 5 = true) (ha : bitOf s.pwr.alarm 5 = true) (hr : s.refsAgree = true) :
    (limAlarm v s).sns.noMaj = false := by
  have hmem : 5 ∈ maskIdx 19 v := mem_maskIdx.mpr ⟨by decide, hv⟩
  have hnd : (maskIdx 19 v).Nodup := List.nodup_range.filter _
  obtain ⟨l, l', hl⟩ := List.append_of_mem hmem
  rw [hl] at hnd
  have hnot : 5 ∉ l := fun hm => (List.nodup_append.mp hnd).2.2 5 hm 5 List.mem_cons_self rfl
  unfold limAlarm
  rw [hl, show forList (l ++ 5 :: l') alarmBit s = forList l' alarmBit (alarmBit 5 (forList l alarmBit s)) from List.foldl_append ..]
  refine forList_ind (P := fun u => u.sns.noMaj = false) (fun j _ u hu => alarmBit_noMaj u hu) ?_
  have hpair : (forList l alarmBit s).alarmPair 5 = (true, true) := by
    have h0 : s.alarmPair 5 = (true, true) := Prod.ext ha hr
    rw [← h0]
    refine forList_eq_of_mem (fun u : State => u.alarmPair 5) (fun j hj u => ?_) s
    rw [State.alarmPair, alarmBit_bit, alarmBit_may, decide_eq_false fun e : 5 = j => hnot (e ▸ hj)]
    simp [State.alarmPair]
  have h1 : bitOf (forList l alarmBit s).pwr.alarm 5 = true := congrArg Prod.fst hpair
  have h2 : alarmMay 5 (forList l alarmBit s) = true := congrArg Prod.snd hpair
  rw [alarmBit_eq, if_pos (by rw [h1, h2]; rfl), if_pos (by decide)]
  exact majorityBack_noMaj _

theorem limAlarmClear_effect {v : Word} (hl : s.live = true) : ∃ t, exec (.limAlarmClear v) s = .next t ∧
    (∀ b < 19, bitOf t.pwr.alarm b = (bitOf s.pwr.alarm b && !(bitOf v.toNat b && alarmMay b s))) ∧
    (bitOf v.toNat 5 = true → bitOf s.pwr.alarm 5 = true → s.refsAgree = true → t.sns.noMaj = false) ∧
    Only [.pwr, .sns, .hm, .hs, .hif, .ldg] s t := by
  have hans := hsAnswer_keeps 0 0 (limAlarm v.toNat s)
  refine ⟨_, hsHard_of_live hl, fun b hb => ?_, fun h1 h2 h3 => ?_, Keeps.only (.step hans (by decide) ((limAlarm_keeps ..).mono (by decide)))⟩
  · rw [hans.pwr_eq rfl]
    exact limAlarm_bit v.toNat hb s
  · rw [hans.sns_eq rfl]
    exact limAlarm_noMaj h1 h2 h3

end Alarm

section Writes
variable {s : State} {a v : Word}

theorem registerWrite_eq (a v : Word) (s : State) : exec (.registerWrite a ⟨v, 15⟩) s = regWrite (wordAddr a) v.toNat s :=
  if_neg (by simp)

theorem registerWrite_hard (hw : wordAddr a < 0x2000) : exec (.registerWrite a ⟨v, 15⟩) s = hsHard (writeHard (wordAddr a) v.toNat) s :=
  (registerWrite_eq ..).trans (if_pos (.inl hw))

theorem registerWrite_hif (h1 : 0x2000 ≤ wordAddr a) (h2 : wordAddr a < 0x3000) :
    exec (.registerWrite a ⟨v, 15⟩) s = hsHif (writeHif (wordAddr a) v.toNat) s :=
  (registerWrite_eq ..).trans ((if_neg (by omega)).trans (if_pos h2))

theorem registerWrite_fw (h1 : 0xD000 ≤ wordAddr a) (h2 : wordAddr a < 0xE000) :
    exec (.registerWrite a ⟨v, 15⟩) s = hsHif (writeFw (wordAddr a) v.toNat) s :=
  (registerWrite_eq ..).trans ((if_neg (by omega)).trans ((if_neg (by omega)).trans (if_pos ⟨h1, h2⟩)))

theorem registerWrite_emu (h1 : 0x3000 ≤ wordAddr a) (h2 : wordAddr a < 0xD000 ∨ 0xE000 ≤ wordAddr a) (h3 : wordAddr a < 0xF000) :
    exec (.registerWrite a ⟨v, 15⟩) s = hsEmu (writeEmu (wordAddr a) v.toNat) s :=
  (registerWrite_eq ..).trans ((if_neg (by omega)).trans ((if_neg (by omega)).trans (if_neg (by omega))))

theorem hsHif_of_down {f : State → State} (h : s.live = false ∨ s.clerkUp = false) : hsHif f s = .next (hsAnswer 1 0 s) :=
  congrArg Host.Outcome.next (if_pos (by rcases h with h | h <;> simp [h]))

theorem hsEmu_of_down {f : State → State} (h : s.live = false ∨ s.fwUp = false) : hsEmu f s = .next (hsAnswer 1 0 s) :=
  congrArg Host.Outcome.next (if_pos (by rcases h with h | h <;> simp [h]))

theorem clerkUp_of_fwUp (h : s.fwUp = true) : s.clerkUp = true := by
  unfold State.fwUp at h
  unfold State.clerkUp
  simp only [Bool.and_eq_true, Bool.or_eq_true] at h ⊢
  exact ⟨⟨.inl h.1.1, h.1.2⟩, h.2⟩

theorem hsHif_of_mismatch {f : State → State} (hl : s.live = true) (hu : s.clerkUp = true) (hm : s.hif.mismatch = true) :
    hsHif f s = .next (hsAnswer 3 0 s) :=
  congrArg Host.Outcome.next ((if_neg (by simp [hl, hu])).trans (if_pos hm))

theorem hsEmu_of_mismatch {f : State → State} (hl : s.live = true) (hu : s.fwUp = true) (hm : s.hif.mismatch = true) :
    hsEmu f s = .next (hsAnswer 3 0 s) :=
  congrArg Host.Outcome.next ((if_neg (by simp [hl, hu])).trans (if_pos hm))

theorem registerWrite_dead (h : s.live = false) : exec (.registerWrite a ⟨v, 15⟩) s = .next (hsAnswer 1 0 s) := by
  refine (registerWrite_eq ..).trans ?_
  unfold regWrite
  split
  · rw [hsHard, if_neg (by rw [h]; decide)]
  · split
    · exact hsHif_of_down (.inl h)
    · split
      · exact hsHif_of_down (.inl h)
      · exact hsEmu_of_down (.inl h)

theorem registerWrite_mismatch (hl : s.live = true) (hu : s.fwUp = true) (hm : s.hif.mismatch = true)
    (h1 : 0x2000 ≤ wordAddr a) (h2 : wordAddr a < 0xF000) : exec (.registerWrite a ⟨v, 15⟩) s = .next (hsAnswer 3 0 s) := by
  refine (registerWrite_eq ..).trans ((if_neg (by omega)).trans ?_)
  split
  · exact hsHif_of_mismatch hl (clerkUp_of_fwUp hu) hm
  · split
    · exact hsHif_of_mismatch hl (clerkUp_of_fwUp hu) hm
    · exact hsEmu_of_mismatch hl hu hm

theorem writeHard_reserved {w n : Nat} (h1 : w < 0x1000) (h2 : w ≠ 0x0100) (h3 : w ≠ 0x0220) : writeHard w n s = s :=
  (if_neg h2).trans ((if_neg h3).trans (if_neg (by omega)))

theorem writeHard_doorbell {w n c : Nat} (hc : c < 512) (hw : w = 0x1000 + 4 * c) : writeHard w n s = doorbell c n s :=
  (if_neg (by omega)).trans ((if_neg (by omega)).trans ((if_pos ⟨by omega, by omega⟩).trans (by rw [show (w - 0x1000) / 4 = c by omega])))

end Writes

section Reads
variable {s : State} {a : Word} {w : Nat}

theorem regRead_down {w : Nat} (h1 : 0x3000 ≤ w) (h2 : w < 0xD000) (h : s.fwUp = false) : regRead w s = hsAnswer 1 0 s := by
  refine (if_neg (by omega)).trans (if_pos ?_)
  have hw : (decide (w < 0x3000) || (decide (0xD000 ≤ w) && decide (w < 0xE000))) = false := by
    rw [decide_eq_false (by omega), decide_eq_false (by omega)]
    rfl
  rw [hw, h]
  simp

/-- While firmware runs, both kinds of register are served. -/
theorem regRead_served {w : Nat} (hl : s.live = true) (hu : s.fwUp = true) (h1 : 0x2000 ≤ w) (h2 : w < 0xF000) :
    regRead w s = if s.hif.mismatch then hsAnswer 3 0 s else readDone w s := by
  refine (if_neg (by omega)).trans (if_neg ?_)
  rw [hl, hu, clerkUp_of_fwUp hu, ite_self]
  decide

/-- No `_LO` register is the `_HI` half of another. -/
theorem loRegs_apart : ∀ w ∈ loRegs, 4 ≤ w ∧ w - 4 ∉ loRegs := by decide

theorem readWord_now (h : w < 4 ∨ w - 4 ∉ loRegs) : readWord w s = regNow w s :=
  if_neg fun hh => h.elim (by omega) fun hn => hn (List.contains_iff_mem.mp hh.2)

theorem readWord_latched (h : 4 ≤ w) (hm : w - 4 ∈ loRegs) : readWord w s = Tbl.get 0 s.hs.latch w :=
  if_pos ⟨h, List.contains_iff_mem.mpr hm⟩

theorem latched_lo (h : w ∈ loRegs) : latched w s = s.onHs fun y => { y with latch := Tbl.set 0 y.latch (w + 4) (regNow (w + 4) s) } :=
  if_pos (List.contains_iff_mem.mpr h)

theorem latched_other (h : w ∉ loRegs) : latched w s = s := if_neg fun hh => h (List.contains_iff_mem.mp hh)

/-- R11: a read of a `_LO` register latches its `_HI` half. -/
theorem readDone_lo (h : w ∈ loRegs) : Tbl.get 0 (readDone w s).hs.latch (w + 4) = regNow (w + 4) s ∧
    (∀ j, j ≠ w + 4 → Tbl.get 0 (readDone w s).hs.latch j = Tbl.get 0 s.hs.latch j) ∧
    (readDone w s).hs.resp = lastFour (s.hs.resp ++ [(0, regNow w s)]) ∧ Only [.hs] s (readDone w s) := by
  have hr : readDone w s = hsAnswer 0 (regNow w s) (s.onHs fun y => { y with latch := Tbl.set 0 y.latch (w + 4) (regNow (w + 4) s) }) := by
    rw [readDone, readWord_now (.inr (loRegs_apart w h).2), latched_lo h]
  have ho := (readDone_keeps w s).only
  rw [hr] at ho ⊢
  exact ⟨Tbl.get_set_self .., fun j hj => Tbl.get_set_ne _ _ hj, rfl, ho⟩

end Reads

/-- Settles O52: what a write or a read of a register does, by its address. -/
theorem registersReadAndWritten : Obligations.RegistersReadAndWritten := by
  intro s a v w
  have hemu : ∀ {n : Nat}, w = n → 0x3000 ≤ n → n < 0xD000 ∨ 0xE000 ≤ n → n < 0xF000 →
      exec (.registerWrite a ⟨v, 15⟩) s = hsEmu (writeEmu n v.toNat) s := fun hw h1 h2 h3 => by
    subst hw
    exact registerWrite_emu h1 h2 h3
  have hhif : ∀ {n : Nat}, w = n → 0x2000 ≤ n → n < 0x3000 → exec (.registerWrite a ⟨v, 15⟩) s = hsHif (writeHif n v.toNat) s :=
    fun hw h1 h2 => by
      subst hw
      exact registerWrite_hif h1 h2
  refine ⟨fun hl => ⟨limAlarmClear_effect hl, ⟨_, congrArg Host.Outcome.next (if_pos hl), rfl, rfl, rfl, ?_⟩, fun hw => ?_, fun c hw => ?_,
      fun b hb => ?_, fun h1 h2 h3 => ?_⟩, registerWrite_dead, fun hl hu h1 h2 => ⟨?_, ?_⟩, fun hl hu hm h1 h2 => ⟨?_, ?_⟩, fun hw => ?_,
    fun hw hb => ?_, fun hw => ?_, fun hw => ?_, fun hw => ?_, fun he hw => ?_, fun he hw => ?_, fun he hw => ?_, fun he h1 h2 => ?_⟩
  · exact Keeps.only (.step (hsAnswer_keeps ..) (by decide) (State.onHs_keeps ..))
  · rw [registerWrite_hard (by have h0 : wordAddr a = 0x0100 := hw; omega), show wordAddr a = 0x0100 from hw]
    rfl
  · have hc := c.isLt
    rw [registerWrite_hard (show wordAddr a < 0x2000 by omega), hsHard, writeHard_doorbell hc hw]
    rfl
  · refine if_pos ?_
    have hne : b.val ≠ 15 := fun hh => hb (Fin.ext hh)
    simp [hl, hne]
  · rw [registerWrite_hard (show wordAddr a < 0x2000 by omega), hsHard_of_live hl, writeHard_reserved h1 h2 h3]
  · rw [registerWrite_emu h1 (.inl h2) (by omega)]
    exact hsEmu_of_down (.inr hu)
  · exact congrArg Host.Outcome.next (regRead_down h1 h2 hu)
  · exact registerWrite_mismatch hl hu hm h1 h2
  · exact congrArg Host.Outcome.next ((regRead_served hl hu h1 h2).trans (if_pos hm))
  · exact hhif hw (by decide) (by decide)
  · rw [hhif hw (by decide) (by decide)]
    show hsHif (fun s => when (bitOf v.toNat 0) negGo s) s = _
    rw [hb]
    rfl
  · exact hemu hw (by decide) (.inl (by decide)) (by decide)
  · exact hemu hw (by decide) (.inl (by decide)) (by decide)
  · exact hemu hw (by decide) (.inr (by decide)) (by decide)
  · rw [hemu hw (by decide) (.inl (by decide)) (by decide), hsEmu_eq he rfl]
    rfl
  · rw [hemu hw (by decide) (.inl (by decide)) (by decide), hsEmu_eq he rfl]
    rfl
  · rcases hw with hw | hw | hw
    · rw [hemu hw (by decide) (.inl (by decide)) (by decide), hsEmu_eq he rfl]
      rfl
    · rw [hemu hw (by decide) (.inl (by decide)) (by decide), hsEmu_eq he rfl]
      rfl
    · rw [hemu hw (by decide) (.inl (by decide)) (by decide), hsEmu_eq he rfl]
      rfl
  · obtain ⟨hl, hu, hm⟩ := he
    have hr : exec (.loReadLatch a) s = .next (readDone w s) :=
      congrArg Host.Outcome.next ((regRead_served hl hu h1 h2).trans (if_neg (by rw [hm]; decide)))
    refine ⟨fun hlo => ⟨_, hr, readDone_lo hlo⟩, fun h4 hlo hn => ?_, fun hn hlo => ?_⟩
    · rw [hr, readDone, readWord_latched h4 hlo, latched_other hn]
    · rw [hr, readDone, readWord_now hlo, latched_other hn]

end Sys2Proof.Machine
end

section
/-!
Images and configurations staged, activated and confirmed, and SPDM (R423–R430, R439).
-/
namespace Sys2Proof.Machine

section Slots
variable {f : Fw} {k j st : Nat}

theorem slotState_setSlot (h : k < f.slotSt.length) : (Fw.setSlot k st f).slotState k = st := by
  simp [Fw.slotState, Fw.setSlot, h]

theorem slotState_setSlot_ne (h : j ≠ k) : (Fw.setSlot k st f).slotState j = f.slotState j := by
  simp [Fw.slotState, Fw.setSlot, h.symm]

theorem getD_set_self {α : Type} {l : List α} {d v : α} (h : k < l.length) : (l.set k v).getD k d = v := by
  simp [h]

theorem getD_set_ne {α : Type} {l : List α} {d v : α} (h : j ≠ k) : (l.set k v).getD j d = l.getD j d := by
  simp [h.symm]

/-- Vault's stores without the directory that records them. -/
def Fw.unlisted (f : Fw) : Fw := { f with dir := [], dirSector := 0 }

theorem dirWrite_unlisted (s : State) : (dirWrite s).fw.unlisted = s.fw.unlisted := by
  unfold dirWrite
  split
  · rfl
  · rw [State.onFw_fw]
    split
    · split <;> rfl
    · rfl

theorem otherSlot_le (s : State) : s.otherSlot ≤ 1 := by
  unfold State.otherSlot
  split <;> omega

theorem other_ne {k : Nat} (h : k ≤ 1) : 1 - k ≠ k := by omega

end Slots

section Vault
variable {s : State} {h : DescHdr} {d : DescSpec} {body : State → DescOut} {c : Instr} {x : Ext}

theorem withVault_down {f : State → DescOut} (h : s.vaultRes ≠ 0) : withVault s f = .fail s.vaultRes s := if_pos h

theorem withVault_up {f : State → DescOut} (h : s.vaultRes = 0) : withVault s f = f s := if_neg (not_not.mpr h)

theorem descBegin_fw (c : Nat) (s : State) : (descBegin c s).fw = s.fw := (descBegin_keeps ..).fw_eq rfl

/-- A change of Vault's stores that the directory and a record follow. -/
def recorded (g : Fw → Fw) (code p0 p1 p2 : Nat) (s : State) : State := emitVault code p0 p1 p2 0 (dirWrite (s.onFw g))

theorem recorded_keeps (g : Fw → Fw) (code p0 p1 p2 : Nat) (s : State) : Keeps [.hm, .hif, .ldg, .fw] s (recorded g code p0 p1 p2 s) :=
  .step (emit_keeps ..) (by decide) ((dirWrite_keeps _).step (by decide) ((State.onFw_keeps g s).mono (by decide)))

theorem recorded_between (c : Nat) (g : Fw → Fw) (code p0 p1 p2 : Nat) (s : State) : Between c s (recorded g code p0 p1 p2 s) :=
  (Between.keeps ((State.onFw_keeps ..).between rfl rfl) (dirWrite_keeps _) rfl rfl).emit ..

theorem recorded_unlisted (g : Fw → Fw) (code p0 p1 p2 : Nat) (s : State) :
    (recorded g code p0 p1 p2 s).fw.unlisted = (g s.fw).unlisted := by
  rw [recorded, (show Keeps [.hm, .hif, .ldg] _ (emitVault code p0 p1 p2 0 _) from emit_keeps ..).fw_eq rfl, dirWrite_unlisted,
    State.onFw_fw]

theorem exec_of_recorded {g : Fw → Fw} {code p0 p1 p2 res : Nat} (hx : exec c s = act (runDesc h d body) s) (hr : Runs h d s)
    (hb : body (descBegin h.ctx.val s) = .done 0 res (recorded g code p0 p1 p2 (descBegin h.ctx.val s))) :
    ∃ t, exec c s = .next t ∧ Completes h d.opcode 0 res s t ∧ t.fw.unlisted = (g s.fw).unlisted ∧
      (QRoom 0x22 s → Logs 0x22 code p0 p1 p2 0 s t) ∧ t.cfg = s.cfg ∧ Only [.hm, .hif, .ldg, .fw] s t := by
  let b := descBegin h.ctx.val s
  have hkb : Keeps [.hif] s b := descBegin_keeps ..
  obtain ⟨t, he, ht⟩ := exec_of_done hx hr hb (recorded_between ..)
  have hu : Keeps [.hm, .hif, .ldg, .fw] s (recorded g code p0 p1 p2 b) := .step (recorded_keeps ..) (by decide) (hkb.mono (by decide))
  refine ⟨t, he, ht.completes, ?_, fun hroom => ?_, (ht.keeps.cfg_eq rfl).trans (hu.cfg_eq rfl),
    Keeps.only (.step ht.keeps (by decide) hu)⟩
  · rw [ht.keeps.fw_eq rfl, recorded_unlisted, descBegin_fw]
  · have hk : Keeps [.hif, .fw] s (dirWrite (b.onFw g)) :=
      .step (dirWrite_keeps _) (by decide) (.step (State.onFw_keeps ..) (by decide) (hkb.mono (by decide)))
    exact (emit_logs_after hk (by decide) (by decide) (by decide) (by decide) hroom).before ht.keeps.only (by decide)

/-- A descriptor that is refused asks for no warm reset. -/
theorem refused_of_fail_warm {st : Nat} (hx : exec c s = act (fun t => warmAfter (runDesc h d body t)) s) (hr : Runs h d s)
    (hb : body (descBegin h.ctx.val s) = .fail st (descBegin h.ctx.val s)) (hw : s.pwr.wantWarm = none) :
    ∃ t, exec c s = .next t ∧ Completes h d.opcode st 0 s t ∧ Only [.hm, .hif] s t := by
  have hkb : Keeps [.hif] s (descBegin h.ctx.val s) := descBegin_keeps ..
  obtain ⟨he, hc⟩ := runDesc_of_runs hr hb (.refl ..)
  rw [resultOf_of_zero] at hc
  have hkc := completeOne_keeps h d.opcode st 0 (descBegin h.ctx.val s)
  refine ⟨_, hx.trans (act_eq hr.1 ((congrArg warmAfter he).trans (warmAfter_of_none ?_))), hc, Keeps.only (.step hkc (by decide)
    (hkb.mono (by decide)))⟩
  exact (congrArg Power.wantWarm ((hkc.pwr_eq rfl).trans (hkb.pwr_eq rfl))).trans hw

/-- What a warm reset leaves of the slots. -/
def State.slotView (s : State) : List Nat × Nat × List (Option FwImg) := (s.fw.slotSt, s.fw.pref, s.fw.img)

theorem slotView_of_fw {t : State} (h : t.fw = s.fw) : t.slotView = s.slotView := by rw [State.slotView, h]; rfl

theorem warmReset_slotView (cause : Nat) (s : State) : (warmReset cause s).slotView = s.slotView := by
  have hcores : ∀ u, (warmCores u).slotView = u.slotView := fun u => forList_eq State.slotView _ (fun _ _ => by rfl) u
  have hclear : ∀ u, (warmClear u).slotView = u.slotView := fun u => by
    have g : Keeps [.loop, .trs, .hm, .dma, .tly, .fc, .clr] u (clrDrop (warmFc (warmTly (warmDma (warmTrs (warmLoops u)))))) :=
      (clrDrop_keeps _).step (by decide) <| (warmFc_keeps _).step (by decide) <|
        (warmTly_keeps _).step (by decide) <| (warmDma_keeps _).step (by decide) <| (warmTrs_keeps _).step (by decide) <|
          (warmLoops_keeps u).mono (by decide)
    rw [warmClear, hcores]
    exact slotView_of_fw (g.fw_eq rfl)
  rw [warmReset_eq_flushed]
  refine (slotView_of_fw (State.onHif_fw ..)).trans ((hclear _).trans ?_)
  have hf : (warmFlushed cause s).fw = (warmMark cause s).fw := by
    rw [(warmFlushed_after ..).fw_eq rfl, (warmHold_keeps _).fw_eq rfl, (warmRecord_keeps ..).fw_eq rfl]
  exact (slotView_of_fw hf).trans rfl

end Vault

section Stage
variable {s : State} {h : DescHdr} {o : Buf} {x : Ext} {d : List Nat} {g : FwImg}

theorem resultOf_fwCheck (f : Fuses) (o : Option FwImg) (r : Nat) : resultOf (fwCheck f o) r = if fwCheck f o = 0 then r else 0 := by
  unfold fwCheck
  cases o with
  | none => rfl
  | some g => dsimp only; split_ifs <;> simp_all [resultOf]

/-- The stores with an image in slot `k` and the status of its check. -/
def imgPut (k st : Nat) (g : FwImg) (f : Fw) : Fw := Fw.setLast k st { f with img := f.img.set k (some g) }

def imgAccepted (k : Nat) (g : FwImg) (f : Fw) : Fw :=
  Fw.setSlot k 1 { imgPut k 0 g f with pref := if f.run then f.cur.slot else k }

theorem stage_accepted (h0 : fwCheck s.fuse (some g) = 0) :
    stage g s = (0, recorded (imgAccepted s.otherSlot g) 0xB103 s.otherSlot g.ver g.svn s) := by
  unfold stage
  dsimp only
  rw [h0]
  rfl

theorem stage_refused (h0 : fwCheck s.fuse (some g) ≠ 0) :
    stage g s = (fwCheck s.fuse (some g), dirWrite (s.onFw fun f => Fw.setSlot s.otherSlot 4 (imgPut s.otherSlot (fwCheck s.fuse (some g)) g f))) :=
  if_pos h0

theorem bodyFwStage_read (hv : s.vaultRes = 0) (hu : s.fw.upd = 0) (hd : Ext.read x o.len = some d) : bodyFwStage o x s =
    if nvBad x s then .fail 0xB010 s else .done (stage (fwImgOf d) s).1 (fwImgOf d).ver (stage (fwImgOf d) s).2 :=
  (withVault_up hv).trans ((if_neg (not_not.mpr hu)).trans (withData_some hd))

/-- R423, R424: what FW_STAGE leaves of an image that it can check. -/
theorem staged_effect (hr : Runs h (descFwStage o) s) (hs : SlotsOk s) (hv : s.vaultRes = 0) (hu : s.fw.upd = 0)
    (hd : Ext.read x o.len = some d) (hn : nvBad x s = false) :
    let k := s.otherSlot
    let g := fwImgOf d
    let st := fwCheck s.fuse (some g)
    ∃ t, exec (.fwStage h o x) s = .next t ∧ Completes h 0xA1 st (if st = 0 then g.ver else 0) s t ∧
      t.fw.slotState k = (if st = 0 then 1 else 4) ∧ t.fw.slotImg k = some g ∧ t.fw.last.getD k 0 = st ∧
      t.fw.slotState (1 - k) = s.fw.slotState (1 - k) ∧ t.fw.slotImg (1 - k) = s.fw.slotImg (1 - k) ∧
      t.fw.pref = (if st = 0 then (if s.fw.run then s.fw.cur.slot else k) else s.fw.pref) ∧ t.fw.cur = s.fw.cur ∧
      t.fw.run = s.fw.run ∧ t.fw.arr = s.fw.arr ∧
      (st = 0 → QRoom 0x22 s → Logs 0x22 0xB103 k g.ver g.svn 0 s t) ∧ Only [.hm, .hif, .ldg, .fw] s t := by
  intro k g st
  obtain ⟨hl1, hl2, hl3, -⟩ := hs
  have hk : k ≤ 1 := otherSlot_le s
  have hk1 : k < s.fw.slotSt.length := by omega
  have hk2 : k < s.fw.img.length := by omega
  have hk3 : k < s.fw.last.length := by omega
  have hx : exec (.fwStage h o x) s = act (runDesc h (descFwStage o) (bodyFwStage o x)) s := rfl
  let b := descBegin h.ctx.val s
  have hkb : Keeps [.hif] s b := descBegin_keeps ..
  have hb : bodyFwStage o x b = .done (stage g b).1 g.ver (stage g b).2 :=
    (bodyFwStage_read (s := b) hv hu hd).trans (if_neg (by rw [show nvBad x b = nvBad x s from rfl, hn]; decide))
  by_cases h0 : st = 0
  · rw [stage_accepted (s := b) h0] at hb
    obtain ⟨t, he, hc, hf, hlog, -, honly⟩ := exec_of_recorded hx hr hb
    have hslot : t.fw.slotSt = (imgAccepted k g s.fw).slotSt := (congrArg Fw.slotSt hf :)
    have himg : t.fw.img = (imgAccepted k g s.fw).img := (congrArg Fw.img hf :)
    have hlast : t.fw.last = (imgAccepted k g s.fw).last := (congrArg Fw.last hf :)
    refine ⟨t, he, by rw [if_pos h0, h0]; exact hc, ?_, ?_, ?_, ?_, ?_, ?_, (congrArg Fw.cur hf :), (congrArg Fw.run hf :),
      (congrArg Fw.arr hf :), fun _ => hlog, honly⟩
    · rw [if_pos h0, Fw.slotState, hslot]
      exact getD_set_self hk1
    · rw [Fw.slotImg, himg]
      exact getD_set_self hk2
    · rw [hlast, h0]
      exact getD_set_self hk3
    · rw [Fw.slotState, hslot]
      exact getD_set_ne (other_ne hk)
    · rw [Fw.slotImg, himg]
      exact getD_set_ne (other_ne hk)
    · rw [if_pos h0]
      exact (congrArg Fw.pref hf :)
  · rw [stage_refused (s := b) h0] at hb
    let u := dirWrite (b.onFw fun f => Fw.setSlot k 4 (imgPut k st g f))
    have hu : Keeps [.fw] b u := .step (dirWrite_keeps _) (by decide) (State.onFw_keeps ..)
    obtain ⟨t, he, ht⟩ := exec_of_done hx hr hb (hu.between rfl rfl)
    have hc := ht.completes
    have hf : t.fw.unlisted = (Fw.setSlot k 4 (imgPut k st g s.fw)).unlisted := by
      rw [ht.keeps.fw_eq rfl, dirWrite_unlisted, State.onFw_fw, descBegin_fw]
      rfl
    have hslot : t.fw.slotSt = (Fw.setSlot k 4 (imgPut k st g s.fw)).slotSt := (congrArg Fw.slotSt hf :)
    have himg : t.fw.img = (Fw.setSlot k 4 (imgPut k st g s.fw)).img := (congrArg Fw.img hf :)
    have hlast : t.fw.last = (Fw.setSlot k 4 (imgPut k st g s.fw)).last := (congrArg Fw.last hf :)
    rw [resultOf_fwCheck] at hc
    refine ⟨t, he, hc, ?_, ?_, ?_, ?_, ?_, ?_, (congrArg Fw.cur hf :), (congrArg Fw.run hf :), (congrArg Fw.arr hf :),
      fun h1 => absurd h1 h0, Keeps.only (.step ht.keeps (by decide) (.step hu (by decide) (hkb.mono (by decide))))⟩
    · rw [if_neg h0, Fw.slotState, hslot]
      exact getD_set_self hk1
    · rw [Fw.slotImg, himg]
      exact getD_set_self hk2
    · rw [hlast]
      exact getD_set_self hk3
    · rw [Fw.slotState, hslot]
      exact getD_set_ne (other_ne hk)
    · rw [Fw.slotImg, himg]
      exact getD_set_ne (other_ne hk)
    · rw [if_neg h0]
      exact (congrArg Fw.pref hf :)

theorem fwStage_effect (hr : Runs h (descFwStage o) s) (hs : SlotsOk s) :
    let k := s.otherSlot
    let no := fun (c : Instr) (op st : Nat) => ∃ t, exec c s = .next t ∧ Completes h op st 0 s t ∧ Only [.hm, .hif] s t
    (s.vaultRes ≠ 0 → no (.fwStage h o x) 0xA1 s.vaultRes) ∧
    (s.vaultRes = 0 → s.fw.upd ≠ 0 → no (.fwStage h o x) 0xA1 0xB006) ∧
    (s.vaultRes = 0 → s.fw.upd = 0 → Ext.read x o.len = none → no (.fwStage h o x) 0xA1 0x9006) ∧
    (∀ d, s.vaultRes = 0 → s.fw.upd = 0 → Ext.read x o.len = some d →
      (nvBad x s = true → no (.fwStage h o x) 0xA1 0xB010) ∧
      (nvBad x s = false →
        let g := fwImgOf d
        let st := fwCheck s.fuse (some g)
        ∃ t, exec (.fwStage h o x) s = .next t ∧ Completes h 0xA1 st (if st = 0 then g.ver else 0) s t ∧
          t.fw.slotState k = (if st = 0 then 1 else 4) ∧ t.fw.slotImg k = some g ∧ t.fw.last.getD k 0 = st ∧
          t.fw.slotState (1 - k) = s.fw.slotState (1 - k) ∧ t.fw.slotImg (1 - k) = s.fw.slotImg (1 - k) ∧
          t.fw.pref = (if st = 0 then (if s.fw.run then s.fw.cur.slot else k) else s.fw.pref) ∧ t.fw.cur = s.fw.cur ∧
          t.fw.run = s.fw.run ∧ t.fw.arr = s.fw.arr ∧
          (st = 0 → QRoom 0x22 s → Logs 0x22 0xB103 k g.ver g.svn 0 s t) ∧ Only [.hm, .hif, .ldg, .fw] s t)) := by
  intro k no
  have hx : exec (.fwStage h o x) s = act (runDesc h (descFwStage o) (bodyFwStage o x)) s := rfl
  let b := descBegin h.ctx.val s
  refine ⟨fun hv => refused_of_fail hx hr (withVault_down (s := b) hv),
    fun hv hu => refused_of_fail hx hr ((withVault_up (s := b) hv).trans (if_pos hu)),
    fun hv hu hd => refused_of_fail hx hr ((withVault_up (s := b) hv).trans ((if_neg (not_not.mpr hu)).trans (withData_none hd))),
    fun d hv hu hd => ⟨fun hn => refused_of_fail hx hr ?_, fun hn => staged_effect hr hs hv hu hd hn⟩⟩
  exact (bodyFwStage_read (s := b) hv hu hd).trans (if_pos hn)

end Stage

section Activate
variable {s : State} {h : DescHdr} {x : Ext} {m : Nat}

/-- The other slot preferred, to be tried (R426). -/
def imgPreferred (k : Nat) (f : Fw) : Fw := Fw.setSlot k 2 { f with pref := k }

theorem bodyActivate_eq (m : Nat) (x : Ext) (s : State) : bodyActivate m x s =
    if s.fw.upd ≠ 0 ∨ s.vaultRes = 0xB006 then .fail 0xB006 s
    else if s.fw.slotState s.otherSlot ≠ 1 ∧ s.fw.slotState s.otherSlot ≠ 2 then .fail 0xB008 s
    else if nvBad x s then .fail 0xB010 s
    else
      let u := recorded (imgPreferred s.otherSlot) 0xB104 s.otherSlot m 0 s
      .done 0 0 (if m = 1 then u.onPwr fun p => { p with wantWarm := some 5 } else u) := rfl

/-- What FW_ACTIVATE refuses: the body's answers, on the state in which a descriptor begins. -/
theorem bodyActivate_fails (m : Nat) (x : Ext) (c : Nat) (s : State) :
    let b := descBegin c s
    let k := s.otherSlot
    let ok := s.fw.slotState k = 1 ∨ s.fw.slotState k = 2
    (s.fw.upd ≠ 0 ∨ s.vaultRes = 0xB006 → bodyActivate m x b = .fail 0xB006 b) ∧
    (s.fw.upd = 0 → s.vaultRes ≠ 0xB006 → ¬ ok → bodyActivate m x b = .fail 0xB008 b) ∧
    (s.fw.upd = 0 → s.vaultRes ≠ 0xB006 → ok → nvBad x s = true → bodyActivate m x b = .fail 0xB010 b) ∧
    (s.fw.upd = 0 → s.vaultRes ≠ 0xB006 → ok → nvBad x s = false → bodyActivate m x b =
      .done 0 0 (if m = 1 then (recorded (imgPreferred k) 0xB104 k m 0 b).onPwr fun p => { p with wantWarm := some 5 }
        else recorded (imgPreferred k) 0xB104 k m 0 b)) := by
  intro b k ok
  have hnot : s.fw.upd = 0 → s.vaultRes ≠ 0xB006 → ¬ (b.fw.upd ≠ 0 ∨ b.vaultRes = 0xB006) := by
    rintro h1 h2 (h | h)
    · exact h h1
    · exact h2 h
  have hok : ok → ¬ (b.fw.slotState b.otherSlot ≠ 1 ∧ b.fw.slotState b.otherSlot ≠ 2) := by
    rintro (h | h) ⟨h1, h2⟩
    · exact h1 h
    · exact h2 h
  refine ⟨fun h => (bodyActivate_eq ..).trans (if_pos h), fun h1 h2 hbad => ?_, fun h1 h2 hgood hn => ?_, fun h1 h2 hgood hn => ?_⟩
  · exact (bodyActivate_eq ..).trans ((if_neg (hnot h1 h2)).trans (if_pos (not_or.mp hbad)))
  · exact (bodyActivate_eq ..).trans ((if_neg (hnot h1 h2)).trans ((if_neg (hok hgood)).trans (if_pos hn)))
  · exact (bodyActivate_eq ..).trans ((if_neg (hnot h1 h2)).trans ((if_neg (hok hgood)).trans (if_neg (by
      rw [show nvBad x b = nvBad x s from rfl, hn]; decide))))

theorem preferred_slots {f : Fw} {k : Nat} (hl : f.slotSt.length = 2) (hk : k ≤ 1) :
    (imgPreferred k f).slotState k = 2 ∧ (imgPreferred k f).pref = k ∧
      (imgPreferred k f).slotState (1 - k) = f.slotState (1 - k) ∧ (imgPreferred k f).img = f.img :=
  ⟨slotState_setSlot (by simp [hl]; omega), rfl, slotState_setSlot_ne (other_ne hk), rfl⟩

theorem activateCold_done (hr : Runs h (descActivate 0) s) (hs : SlotsOk s) (hu : s.fw.upd = 0) (hv : s.vaultRes ≠ 0xB006)
    (hok : s.fw.slotState s.otherSlot = 1 ∨ s.fw.slotState s.otherSlot = 2) (hn : nvBad x s = false) :
    let k := s.otherSlot
    ∃ t, exec (.fwActivateCold h x) s = .next t ∧ Completes h 0xA2 0 0 s t ∧
      t.fw.slotState k = 2 ∧ t.fw.pref = k ∧ t.fw.slotState (1 - k) = s.fw.slotState (1 - k) ∧ t.fw.img = s.fw.img ∧
      t.fw.run = s.fw.run ∧ (QRoom 0x22 s → Logs 0x22 0xB104 k 0 0 0 s t) ∧ Only [.hm, .hif, .ldg, .fw] s t := by
  intro k
  obtain ⟨h1, h2, h3, h4⟩ := preferred_slots hs.1 (otherSlot_le s)
  obtain ⟨t, he, hc, hf, hlog, -, honly⟩ := exec_of_recorded (c := .fwActivateCold h x) (body := bodyActivate 0 x) rfl hr
    ((bodyActivate_fails 0 x h.ctx.val s).2.2.2 hu hv hok hn)
  have hslot : ∀ j, t.fw.slotState j = (imgPreferred k s.fw).slotState j := fun j => (congrArg (Fw.slotState · j) hf :)
  exact ⟨t, he, hc, (hslot k).trans h1, (congrArg Fw.pref hf :), (hslot _).trans h3, (congrArg Fw.img hf :), (congrArg Fw.run hf :),
    hlog, honly⟩

theorem activateWarm_done (hr : Runs h (descActivate 1) s) (hs : SlotsOk s) (hu : s.fw.upd = 0) (hv : s.vaultRes ≠ 0xB006)
    (hok : s.fw.slotState s.otherSlot = 1 ∨ s.fw.slotState s.otherSlot = 2) (hn : nvBad x s = false) :
    let k := s.otherSlot
    ∃ t, exec (.fwActivateWarm h x) s = .next t ∧ Completes h 0xA2 0 0 s t ∧
      t.fw.slotState k = 2 ∧ t.fw.pref = k ∧ t.fw.slotState (1 - k) = s.fw.slotState (1 - k) ∧ t.fw.img = s.fw.img ∧
      t.pwr.cause = 5 ∧ t.pwr.warmCnt = satInc 16 s.pwr.warmCnt ∧ t.fw.run = false := by
  intro k
  obtain ⟨h1, h2, h3, h4⟩ := preferred_slots hs.1 (otherSlot_le s)
  let b := descBegin h.ctx.val s
  have hkb : Keeps [.hif] s b := descBegin_keeps ..
  let r := recorded (imgPreferred k) 0xB104 k 1 0 b
  let u := r.onPwr fun p => { p with wantWarm := some 5 }
  have hrk : Keeps [.hm, .hif, .ldg, .fw] b r := recorded_keeps ..
  obtain ⟨v, t, he, ht, hv', hc⟩ := warmByDesc (c := .fwActivateWarm h x) (body := bodyActivate 1 x) (u := u) rfl hr
    ((bodyActivate_fails 1 x h.ctx.val s).2.2.2 hu hv hok hn) ((recorded_between ..).keeps (State.onPwr_keeps ..) rfl rfl) rfl
  have hview : t.slotView = r.slotView := by
    rw [ht, warmReset_slotView]
    exact slotView_of_fw ((hv'.keeps.fw_eq rfl).trans (State.onPwr_fw ..))
  have hf : r.fw.unlisted = (imgPreferred k s.fw).unlisted := (recorded_unlisted ..).trans (by rw [descBegin_fw])
  have hslot : ∀ j, t.fw.slotState j = (imgPreferred k s.fw).slotState j := fun j =>
    (congrArg (fun p => p.1.getD j 0) hview :).trans (congrArg (Fw.slotState · j) hf :)
  have hpwr : v.pwr.warmCnt = s.pwr.warmCnt := by
    rw [hv'.keeps.pwr_eq rfl, State.onPwr_pwr]
    exact (congrArg Power.warmCnt ((hrk.pwr_eq rfl).trans (hkb.pwr_eq rfl)) :)
  refine ⟨t, he, hc, (hslot k).trans h1, (congrArg (fun p => p.2.1) hview :).trans (congrArg Fw.pref hf :), (hslot _).trans h3,
    (congrArg (fun p => p.2.2) hview :).trans (congrArg Fw.img hf :), ?_, ?_, ?_⟩
  · rw [ht, warmReset_pwr]; rfl
  · rw [ht, warmReset_pwr, warmMark_warmCnt, hpwr]
  · rw [ht, warmReset_run]

end Activate

section Confirm
variable {s : State} {h : DescHdr} {o : Buf} {x : Ext} {d : List Nat}

/-- The running image's slot VALID and preferred (R426). -/
def imgConfirmed (k : Nat) (f : Fw) : Fw := Fw.setSlot k 1 { f with pref := k }

theorem bodyFwConfirm_eq (x : Ext) (s : State) : bodyFwConfirm x s =
    if !(s.fw.run && decide (s.fw.slotState s.fw.cur.slot = 3)) then .done 0 0 s
    else if nvBad x s then .fail 0xB010 s
    else .done 0 1 (recorded (imgConfirmed s.fw.cur.slot) 0xB105 s.fw.cur.slot 0 0 s) := rfl

theorem slotState_of_nonzero {f : Fw} {k : Nat} (h : f.slotState k ≠ 0) : k < f.slotSt.length := by
  by_contra hk
  exact h (by rw [Fw.slotState, List.getD_eq_getElem?_getD, List.getElem?_eq_none (by omega)]; rfl)

theorem fwConfirm_effect (hr : Runs h descFwConfirm s) :
    let no := fun (c : Instr) (op st : Nat) => ∃ t, exec c s = .next t ∧ Completes h op st 0 s t ∧ Only [.hm, .hif] s t
    let trial := s.fw.run = true ∧ s.fw.slotState s.fw.cur.slot = 3
    (¬ trial → no (.fwConfirm h x) 0xA4 0) ∧
    (trial → nvBad x s = true → no (.fwConfirm h x) 0xA4 0xB010) ∧
    (trial → nvBad x s = false → ∃ t, exec (.fwConfirm h x) s = .next t ∧ Completes h 0xA4 0 1 s t ∧
      t.fw.slotState s.fw.cur.slot = 1 ∧ t.fw.pref = s.fw.cur.slot ∧ t.fw.img = s.fw.img ∧
      (QRoom 0x22 s → Logs 0x22 0xB105 s.fw.cur.slot 0 0 0 s t) ∧ Only [.hm, .hif, .ldg, .fw] s t) := by
  intro no trial
  have hx : exec (.fwConfirm h x) s = act (runDesc h descFwConfirm (bodyFwConfirm x)) s := rfl
  let b := descBegin h.ctx.val s
  have hiff : (!(b.fw.run && decide (b.fw.slotState b.fw.cur.slot = 3))) = true ↔ ¬ trial := by
    rw [show b.fw = s.fw from descBegin_fw ..]
    rw [Bool.not_eq_true', Bool.and_eq_false_iff, decide_eq_false_iff_not, not_and_or, Bool.not_eq_true]
  refine ⟨fun ht => refused_of_fail hx hr (if_pos (hiff.mpr ht)), fun ht hn => refused_of_fail hx hr ?_, fun ht hn => ?_⟩
  · exact (if_neg (hiff.not.mpr (not_not.mpr ht))).trans (if_pos hn)
  · obtain ⟨t, he, hc, hf, hlog, -, honly⟩ := exec_of_recorded (g := imgConfirmed s.fw.cur.slot) hx hr ((bodyFwConfirm_eq x b).trans
      ((if_neg (hiff.not.mpr (not_not.mpr ht))).trans (if_neg (by rw [show nvBad x b = nvBad x s from rfl, hn]; decide))))
    refine ⟨t, he, hc, (congrArg (Fw.slotState · s.fw.cur.slot) hf :).trans ?_, (congrArg Fw.pref hf :), (congrArg Fw.img hf :), hlog,
      honly⟩
    have hlt : s.fw.cur.slot < s.fw.slotSt.length := slotState_of_nonzero (by rw [ht.2]; decide)
    exact slotState_setSlot hlt

/-- A configuration copy staged (R428). -/
def cfgPut (k : Nat) (c : CfgCopy) (cfg : Cfg) (f : Fw) : Fw :=
  { f with copy := f.copy.set k (some c), cfgStg := k + 1, coldOnly := f.cfgValid && coldFields c.body cfg }

theorem configStage_effect (hr : Runs h (descConfigStage o) s) (hs : SlotsOk s) :
    let no := fun (c : Instr) (op st : Nat) => ∃ t, exec c s = .next t ∧ Completes h op st 0 s t ∧ Only [.hm, .hif] s t
    (s.vaultRes ≠ 0 → no (.fwConfigStage h o x) 0xA5 s.vaultRes) ∧
    (s.vaultRes = 0 → s.fw.upd ≠ 0 → no (.fwConfigStage h o x) 0xA5 0xB006) ∧
    (s.vaultRes = 0 → s.fw.upd = 0 → Ext.read x o.len = none → no (.fwConfigStage h o x) 0xA5 0x9006) ∧
    (∀ d, s.vaultRes = 0 → s.fw.upd = 0 → Ext.read x o.len = some d →
      let c := cfgCopyOf d x.body
      let st := cfgCheck s.fuse (some c)
      let old := s.fw.cfgValid = true ∧ c.ver < s.fw.cfgVer
      (st ≠ 0 → no (.fwConfigStage h o x) 0xA5 st) ∧
      (st = 0 → old → no (.fwConfigStage h o x) 0xA5 0xB00A) ∧
      (st = 0 → ¬ old → nvBad x s = true → no (.fwConfigStage h o x) 0xA5 0xB010) ∧
      (st = 0 → ¬ old → nvBad x s = false → ∃ t, exec (.fwConfigStage h o x) s = .next t ∧
        Completes h 0xA5 0 c.ver s t ∧ t.fw.copy.getD (1 - s.fw.cfgAct) none = some c ∧
        t.fw.cfgStg = 1 - s.fw.cfgAct + 1 ∧ t.fw.cfgAct = s.fw.cfgAct ∧ t.cfg = s.cfg ∧
        (QRoom 0x22 s → Logs 0x22 0xB140 (1 - s.fw.cfgAct) c.ver 0 0 s t) ∧ Only [.hm, .hif, .ldg, .fw] s t)) := by
  intro no
  have hx : exec (.fwConfigStage h o x) s = act (runDesc h (descConfigStage o) (bodyConfigStage o x)) s := rfl
  let b := descBegin h.ctx.val s
  refine ⟨fun hv => refused_of_fail hx hr (withVault_down (s := b) hv),
    fun hv hu => refused_of_fail hx hr ((withVault_up (s := b) hv).trans (if_pos hu)),
    fun hv hu hd => refused_of_fail hx hr ((withVault_up (s := b) hv).trans ((if_neg (not_not.mpr hu)).trans (withData_none hd))),
    fun d hv hu hd => ?_⟩
  intro c st old
  have hb : bodyConfigStage o x b =
      if st ≠ 0 then .fail st b
      else if old then .fail 0xB00A b
      else if nvBad x b then .fail 0xB010 b
      else .done 0 c.ver (recorded (cfgPut (1 - s.fw.cfgAct) c s.cfg) 0xB140 (1 - s.fw.cfgAct) c.ver 0 b) :=
    (withVault_up (s := b) hv).trans ((if_neg (not_not.mpr hu)).trans (withData_some hd))
  refine ⟨fun h0 => refused_of_fail hx hr (hb.trans (if_pos h0)), fun h0 ho => refused_of_fail hx hr ?_,
    fun h0 ho hn => refused_of_fail hx hr ?_, fun h0 ho hn => ?_⟩
  · exact hb.trans ((if_neg (not_not.mpr h0)).trans (if_pos ho))
  · exact hb.trans ((if_neg (not_not.mpr h0)).trans ((if_neg ho).trans (if_pos hn)))
  · obtain ⟨t, he, hc, hf, hlog, hcfg, honly⟩ := exec_of_recorded (g := cfgPut (1 - s.fw.cfgAct) c s.cfg) hx hr
      (hb.trans ((if_neg (not_not.mpr h0)).trans ((if_neg ho).trans (if_neg (by rw [show nvBad x b = nvBad x s from rfl, hn]; decide)))))
    refine ⟨t, he, hc, (congrArg (fun f : Fw => f.copy.getD (1 - s.fw.cfgAct) none) hf :).trans (getD_set_self ?_), (congrArg Fw.cfgStg hf :),
      (congrArg Fw.cfgAct hf :), hcfg, hlog, honly⟩
    have hl := hs.2.2.2
    show 1 - s.fw.cfgAct < s.fw.copy.length
    omega

end Confirm

section Spdm
variable {s : State} {h : DescHdr} {q : SpdmOp} {x : Ext}

theorem spdm_effect (hr : Runs h (descSpdm q) s) :
    let no := fun (c : Instr) (op st : Nat) => ∃ t, exec c s = .next t ∧ Completes h op st 0 s t ∧ Only [.hm, .hif] s t
    (q.reqLen < 4 ∨ 4096 < q.reqLen → no (.fwSpdm h q x) 0xA6 0x9009) ∧
    (4 ≤ q.reqLen → q.reqLen ≤ 4096 →
      (s.vaultRes ≠ 0 → no (.fwSpdm h q x) 0xA6 s.vaultRes) ∧
      (s.vaultRes = 0 → Ext.read x q.reqLen = none → no (.fwSpdm h q x) 0xA6 0x9006) ∧
      (∀ d, s.vaultRes = 0 → Ext.read x q.reqLen = some d →
        let r := Config.spdm s.free (measurements s) d
        (q.rspMax < r.length → ∃ t, exec (.fwSpdm h q x) s = .next t ∧ Completes h 0xA6 0xB011 0 s t ∧
          Only [.hm, .hif, .free] s t) ∧
        (r.length ≤ q.rspMax → ∃ t, exec (.fwSpdm h q x) s = .next t ∧ Completes h 0xA6 0 r.length s t ∧
          Posts (.bytes q.rspAddr r) s t ∧ Only [.hm, .hif, .free] s t))) := by
  intro no
  have hx : exec (.fwSpdm h q x) s = act (runDesc h (descSpdm q) (bodySpdm q x)) s := rfl
  let b := descBegin h.ctx.val s
  have hkb : Keeps [.hif] s b := descBegin_keeps ..
  refine ⟨fun hbad => refused_of_fail hx hr (if_pos hbad), fun h1 h2 => ?_⟩
  have hlen : ¬ (q.reqLen < 4 ∨ 4096 < q.reqLen) := by omega
  refine ⟨fun hv => refused_of_fail hx hr ((if_neg hlen).trans (withVault_down (s := b) hv)),
    fun hv hd => refused_of_fail hx hr ((if_neg hlen).trans ((withVault_up (s := b) hv).trans (withData_none hd))), fun d hv hd => ?_⟩
  intro r
  have hb : bodySpdm q x b = if q.rspMax < r.length then .fail 0xB011 b.drawn else .done 0 r.length (hmWrite (.bytes q.rspAddr r) b.drawn) :=
    (if_neg hlen).trans ((withVault_up (s := b) hv).trans (withData_some hd))
  have hfree : Keeps [.free] b b.drawn := State.drawn_keeps b
  refine ⟨fun hlt => ?_, fun hle => ?_⟩
  · obtain ⟨t, he, ht⟩ := exec_of_done hx hr (hb.trans (if_pos hlt)) (hfree.between rfl rfl)
    have hc := ht.completes
    rw [resultOf_of_zero] at hc
    exact ⟨t, he, hc, Keeps.only (.step ht.keeps (by decide) (.step hfree (by decide) (hkb.mono (by decide))))⟩
  · let u := hmWrite (.bytes q.rspAddr r) b.drawn
    have hpost : Posting (.bytes q.rspAddr r) s u := ⟨[], [], by
      rw [(Emits.hmWrite (.bytes q.rspAddr r) b.drawn).hm, hfree.hm_eq rfl, hkb.hm_eq rfl]; rfl⟩
    have hbet : Between h.ctx.val b u := (hfree.between rfl rfl).trans (Emits.hmWrite (.bytes q.rspAddr r) b.drawn).between
    obtain ⟨t, he, ht⟩ := exec_of_done hx hr (hb.trans (if_neg (by omega))) hbet
    refine ⟨t, he, ht.completes, ?_, Keeps.only (.step ht.keeps (by decide) (.step (hmWrite_keeps ..) (by decide)
      (.step hfree (by decide) (hkb.mono (by decide)))))⟩
    rw [ht.eq]
    exact (hpost.after (completeOne_posted ..)).posts

end Spdm

/-- Settles O53: what each of the firmware descriptors refuses, and what it leaves of slots, copies and records. -/
theorem imagesStagedAndActivated : Obligations.ImagesStagedAndActivated := by
  intro s h o q x hs k no
  refine ⟨fun hr => ?_, fun hr => fwStage_effect hr hs, fun m hm hr hw => ?_, fun hr => fwConfirm_effect hr,
    fun hr => configStage_effect hr hs, fun hr => spdm_effect hr⟩
  · obtain ⟨t, he, ht⟩ := exec_of_done (c := .fwQuery h) (body := bodyFwQuery) rfl hr rfl (.refl ..)
    exact ⟨t, he, ht.completes, Keeps.only (.step ht.keeps (by decide) ((descBegin_keeps ..).mono (by decide)))⟩
  · intro c ok
    obtain ⟨h1, h2, h3, -⟩ := bodyActivate_fails m x h.ctx.val s
    have hm01 : m = 0 ∨ m = 1 := by omega
    rcases hm01 with rfl | rfl
    · exact ⟨fun hb => refused_of_fail (body := bodyActivate 0 x) rfl hr (h1 hb),
        fun hu hv hb => refused_of_fail (body := bodyActivate 0 x) rfl hr (h2 hu hv hb),
        fun hu hv hok hn => refused_of_fail (body := bodyActivate 0 x) rfl hr (h3 hu hv hok hn), fun hu hv hok hn => by
          obtain ⟨t, he, hc, g1, g2, g3, g4, g5, g6, g7⟩ := activateCold_done hr hs hu hv hok hn
          exact ⟨t, he, hc, g1, g2, g3, g4, fun _ => ⟨g5, g6, g7⟩, nofun⟩⟩
    · exact ⟨fun hb => refused_of_fail_warm (body := bodyActivate 1 x) rfl hr (h1 hb) hw,
        fun hu hv hb => refused_of_fail_warm (body := bodyActivate 1 x) rfl hr (h2 hu hv hb) hw,
        fun hu hv hok hn => refused_of_fail_warm (body := bodyActivate 1 x) rfl hr (h3 hu hv hok hn) hw, fun hu hv hok hn => by
          obtain ⟨t, he, hc, g1, g2, g3, g4, g5⟩ := activateWarm_done hr hs hu hv hok hn
          exact ⟨t, he, hc, g1, g2, g3, g4, nofun, fun _ => g5⟩⟩

end Sys2Proof.Machine
end

section

/-! Fuse sessions, tokens and zeroisation (R420, R425, R433, R434). A session measures its supply, refuses, and then blows
its field and reads it back. -/

namespace Sys2Proof.Machine

section Blow
variable {α : Type} {n i j m : Nat} {d v : α} {l : List α} {x : Ext} {f : Fuses}

theorem setAt_getD_self (h : i < n) : (setAt n i d v l).getD i d = v := by
  rw [setAt, List.getD_eq_getElem?_getD, List.getElem?_map, List.getElem?_range h]
  simp

theorem setAt_getD_ne (h : j < n) (hne : j ≠ i) : (setAt n i d v l).getD j d = l.getD j d := by
  rw [setAt, List.getD_eq_getElem?_getD, List.getElem?_map, List.getElem?_range h]
  simp [hne]

theorem map_range_getD {g : Nat → α} (h : j < n) : ((List.range n).map g).getD j d = g j := by
  rw [List.getD_eq_getElem?_getD, List.getElem?_map, List.getElem?_range h]
  rfl

theorem setBit_clear (h : bitOf m i = false) : setBit m i = m + 2 ^ i := if_neg (by rw [h]; decide)

theorem bitOf_setBit_self (h : bitOf m i = false) : bitOf (setBit m i) i = true := by
  rw [setBit_clear h, bitOf_eq_testBit]
  rw [bitOf_eq_testBit] at h
  simp [testBit_add_two_pow h]

theorem bitOf_setBit_ne (h : bitOf m i = false) (hne : j ≠ i) : bitOf (setBit m i) j = bitOf m j := by
  rw [setBit_clear h, bitOf_eq_testBit, bitOf_eq_testBit]
  rw [bitOf_eq_testBit] at h
  simp [testBit_add_two_pow h, hne]

/-- A session has programmed slot `i` of the integrator's hashes alone; the other slot holds `v`. -/
def IntegratorBlown (f : Fuses) (i v : Nat) (x : Ext) (g : Fuses) : Prop :=
  g.intHash.getD i 0 = x.val ∧ g.intHash.getD (1 - i) 0 = v ∧ { g with intHash := f.intHash } = f

/-- A session has programmed the limit gate alone (Table 1.6). -/
def GateBlown (f : Fuses) (x : Ext) (g : Fuses) : Prop :=
  g.gateDone = true ∧ g.gateCrcOk = true ∧ g.nMax = x.gate.nMax ∧ g.capMax = x.gate.capMax ∧
    (∀ r < 8, g.vmax.getD r 0 = x.gate.vmax.getD r 0 ∧ g.vov.getD r 0 = x.gate.vov.getD r 0 ∧
      g.slewMax.getD r 0 = x.gate.slewMax.getD r 0) ∧
    (∀ k < 40, g.dmin.getD k 0 = x.gate.dmin.getD k 0) ∧ g.tcrit = decS 16 (encS 16 x.gate.tcrit) ∧
    (∀ k < 512, g.tripOfs.getD k 0 = decS 16 (encS 16 (x.gate.tripOfs.getD k 0))) ∧
    g.boot.getD 7 [] = (List.range 8).map (fun r => (x.gate.boot.getD 7 []).getD r 0) ∧
    (∀ k < 7, g.boot.getD k [] = f.boot.getD k []) ∧ g.bootDone = f.bootDone ∧ g.svn = f.svn ∧ g.intHash = f.intHash ∧
    g.kolHash = f.kolHash ∧ g.intRev = f.intRev ∧ g.kolRev = f.kolRev ∧ g.zeroised = f.zeroised

/-- A session has programmed boot set `i` alone. -/
def BootBlown (f : Fuses) (i : Nat) (x : Ext) (g : Fuses) : Prop :=
  g.boot.getD i [] = (List.range 8).map (fun r => x.vals.getD r 0) ∧ bitOf g.bootDone i = true ∧
    (∀ k < 8, k ≠ i → g.boot.getD k [] = f.boot.getD k [] ∧ bitOf g.bootDone k = bitOf f.bootDone k) ∧
    { g with boot := f.boot, bootDone := f.bootDone } = f

def IntegratorRevoked (f : Fuses) (i : Nat) (g : Fuses) : Prop := g.intRev = f.intRev + 2 ^ i ∧ { g with intRev := f.intRev } = f

def KolhidexRevoked (f : Fuses) (i : Nat) (g : Fuses) : Prop := g.kolRev = f.kolRev + 2 ^ i ∧ { g with kolRev := f.kolRev } = f

theorem fuseBlow_integrator (hi : i < 2) : IntegratorBlown f i (f.intHash.getD (1 - i) 0) x (fuseBlow 0 i x none f) :=
  ⟨setAt_getD_self hi, setAt_getD_ne (by omega) (by omega), rfl⟩

theorem tripOfs_gate : ∀ k < 512, (fuseBlow 1 i x none f).tripOfs.getD k 0 = decS 16 (encS 16 (x.gate.tripOfs.getD k 0)) := by
  intro k hk
  simp only [fuseBlow]
  rw [map_range_getD hk]

theorem fuseBlow_gate : GateBlown f x (fuseBlow 1 i x none f) :=
  ⟨rfl, rfl, rfl, rfl, fun _ hr => ⟨map_range_getD hr, map_range_getD hr, map_range_getD hr⟩, fun _ hk => map_range_getD hk, rfl,
    tripOfs_gate, setAt_getD_self (by omega), fun _ hk => setAt_getD_ne (by omega) (by omega), rfl, rfl, rfl, rfl,
    rfl, rfl, rfl⟩

theorem fuseBlow_boot (hi : i < 7) (hb : bitOf f.bootDone i = false) : BootBlown f i x (fuseBlow 2 i x none f) :=
  ⟨setAt_getD_self (by omega), bitOf_setBit_self hb, fun _ hk hne => ⟨setAt_getD_ne hk hne, bitOf_setBit_ne hb hne⟩, rfl⟩

theorem fuseBlow_revoke_integrator (hb : bitOf f.intRev i = false) : IntegratorRevoked f i (fuseBlow 4 i x none f) :=
  ⟨setBit_clear hb, rfl⟩

theorem fuseBlow_revoke_kolhidex (hb : bitOf f.kolRev i = false) : KolhidexRevoked f i (fuseBlow 5 i x none f) :=
  ⟨setBit_clear hb, rfl⟩

end Blow

section Session
variable {s : State} {h : DescHdr} {d : DescSpec} {body : State → DescOut} {c : Instr} {x : Ext} {o : Buf}
  {kind i res st : Nat} {y : Ext} {pre : State → Nat} {keys : State → Option (List Nat)}

/-- A descriptor of fuses, tokens or zeroisation is refused: no fuse changes. -/
def FuseNo (h : DescHdr) (s : State) (c : Instr) (op st : Nat) : Prop :=
  ∃ t, exec c s = .next t ∧ Completes h op st 0 s t ∧ t.fw.arr = s.fw.arr ∧ t.fuse = s.fuse ∧ Only [.hm, .hif, .fw] s t

/-- A session reads back right, and leaves the fuses that `blow` gives. -/
def FuseDone (h : DescHdr) (s : State) (c : Instr) (kind i res : Nat) (g : Fuses → Prop) : Prop :=
  ∃ t, exec c s = .next t ∧ Completes h 0xA7 0 res s t ∧ g t.fw.arr ∧ t.fuse = s.fuse ∧
    (QRoom 0x22 s → Logs 0x22 0xB160 kind i 0 0 s t) ∧ Only [.hm, .hif, .ldg, .fw] s t

/-- A session reads back wrong. -/
def FuseWrong (h : DescHdr) (s : State) (c : Instr) (x : Ext) (op kind : Nat) : Prop :=
  ∀ m, x.fuseBad = some m → ∃ t st, exec c s = .next t ∧ Completes h op st 0 s t ∧ 0xB000 < st ∧ st < 0xC000 ∧
    bitOf t.pwr.alarm 16 = true ∧ t.fuse = s.fuse ∧ (QRoom 0x22 s → Logs 0x22 0xB161 kind m 0 0 s t) ∧
    Only [.pwr, .hm, .hif, .ldg, .fw, .free] s t

theorem FuseDone.imp {g g' : Fuses → Prop} (hd : FuseDone h s c kind i res g) (hg : ∀ f, g f → g' f) :
    FuseDone h s c kind i res g' := by
  obtain ⟨t, he, hc, hf, hrest⟩ := hd
  exact ⟨t, he, hc, hg _ hf, hrest⟩

/-- A descriptor that is refused, once the supply has been measured. -/
theorem fuseNo_of_sensed (hx : exec c s = act (runDesc h d body) s) (hr : Runs h d s)
    (hb : body (descBegin h.ctx.val s) = .fail st (fuseSense x (descBegin h.ctx.val s))) : FuseNo h s c d.opcode st := by
  let b := descBegin h.ctx.val s
  have hkb : Keeps [.hif] s b := descBegin_keeps ..
  have hks : Keeps [.fw] b (fuseSense x b) := fuseSense_keeps x b
  obtain ⟨t, he, ht⟩ := exec_of_done hx hr hb (hks.between rfl rfl)
  have hc := ht.completes
  rw [resultOf_of_zero] at hc
  have hk : Keeps [.hm, .hif, .fw] s t := .step ht.keeps (by decide) (.step hks (by decide) (hkb.mono (by decide)))
  refine ⟨t, he, hc, ?_, hk.fuse_eq rfl, hk.only⟩
  rw [ht.keeps.fw_eq rfl, fuseSense, State.onFw_fw, descBegin_fw]

/-- A descriptor that is refused at once. -/
theorem fuseNo_of_fail (hx : exec c s = act (runDesc h d body) s) (hr : Runs h d s)
    (hb : body (descBegin h.ctx.val s) = .fail st (descBegin h.ctx.val s)) : FuseNo h s c d.opcode st := by
  obtain ⟨t, he, hc, ho⟩ := refused_of_fail hx hr hb
  exact ⟨t, he, hc, congrArg Fw.arr (ho.same .fw (by decide)), ho.same .fuse (by decide), ho.mono (by decide)⟩

/-- The state that a session leaves that reads back right. -/
def blown (kind i : Nat) (x : Ext) (code p0 p1 : Nat) (s : State) : State :=
  emitVault code p0 p1 0 0 (s.onFw fun f => { f with arr := fuseBlow kind i x none f.arr })

theorem exec_of_blown {code p0 p1 : Nat} (hx : exec c s = act (runDesc h d body) s) (hr : Runs h d s)
    (hb : body (descBegin h.ctx.val s) = .done 0 res (blown kind i x code p0 p1 (fuseSense y (descBegin h.ctx.val s)))) :
    ∃ t, exec c s = .next t ∧ Completes h d.opcode 0 res s t ∧ t.fw.arr = fuseBlow kind i x none s.fw.arr ∧ t.fuse = s.fuse ∧
      (QRoom 0x22 s → Logs 0x22 code p0 p1 0 0 s t) ∧ Only [.hm, .hif, .ldg, .fw] s t := by
  let b := descBegin h.ctx.val s
  let u := (fuseSense y b).onFw fun f => { f with arr := fuseBlow kind i x none f.arr }
  have hkb : Keeps [.hif] s b := descBegin_keeps ..
  have hku : Keeps [.fw] b u := .step (State.onFw_keeps ..) (by decide) (fuseSense_keeps ..)
  have hke : Keeps [.hm, .hif, .ldg] u (emitVault code p0 p1 0 0 u) := emitVault_keeps ..
  obtain ⟨t, he, ht⟩ := exec_of_done hx hr hb ((hku.between rfl rfl).emit ..)
  have hk : Keeps [.hm, .hif, .ldg, .fw] s t :=
    .step ht.keeps (by decide) (.step hke (by decide) (.step hku (by decide) (hkb.mono (by decide))))
  refine ⟨t, he, ht.completes, ?_, hk.fuse_eq rfl, fun hroom => ?_, hk.only⟩
  · rw [ht.keeps.fw_eq rfl, blown, hke.fw_eq rfl, State.onFw_fw, fuseSense, State.onFw_fw, descBegin_fw]
  · have hs : Keeps [.hif, .fw] s u := .step hku (by decide) (hkb.mono (by decide))
    exact (emit_logs_after hs (by decide) (by decide) (by decide) (by decide) hroom).before ht.keeps.only (by decide)

theorem exec_of_session (hx : exec c s = act (runDesc h d body) s) (hr : Runs h d s)
    (hb : body (descBegin h.ctx.val s) = fuseSession kind i res x (fuseSense y (descBegin h.ctx.val s))) (hn : x.fuseBad = none) :
    ∃ t, exec c s = .next t ∧ Completes h d.opcode 0 res s t ∧ t.fw.arr = fuseBlow kind i x none s.fw.arr ∧ t.fuse = s.fuse ∧
      (QRoom 0x22 s → Logs 0x22 0xB160 kind i 0 0 s t) ∧ Only [.hm, .hif, .ldg, .fw] s t :=
  exec_of_blown hx hr (hb.trans (by rw [fuseSession, hn]; rfl))

/-- The fuses that a session reads back where one is wrong. -/
def readBack (kind : Nat) (s : State) (i : Nat) : Nat := Config.freeValue (s.free + i) % 2 ^ (if kind = 0 then 384 else 16)

/-- The state that a session leaves that reads back wrong, before its record and its alarm. -/
def misblown (kind i : Nat) (x : Ext) (s : State) : State :=
  (s.onFw fun f => { f with arr := fuseBlow kind i x (some (readBack kind s)) f.arr }).onFree (· + 1024)

theorem misblown_keeps (kind i : Nat) (x : Ext) (s : State) : Keeps [.fw, .free] s (misblown kind i x s) :=
  .step (State.onFree_keeps ..) (by decide) ((State.onFw_keeps ..).mono (by decide))

theorem openStatus_vault (s : State) : 0xB000 < openStatus 0xB s ∧ openStatus 0xB s < 0xC000 := by
  have := Nat.mod_lt (Config.freeValue s.free) (show 0 < 4095 by decide)
  unfold openStatus
  omega

theorem fuseWrong_of_session (hx : exec c s = act (runDesc h d body) s) (hr : Runs h d s)
    (hb : body (descBegin h.ctx.val s) = fuseSession kind i res x (fuseSense y (descBegin h.ctx.val s))) :
    FuseWrong h s c x d.opcode kind := by
  intro m hm
  let b := descBegin h.ctx.val s
  let w := misblown kind i x (fuseSense y b)
  let v := emitVault 0xB161 kind m 0 0 w
  let u := setAlarm 16 v
  have hb' : body b = .done (openStatus 0xB u) 0 u.drawn := hb.trans (by rw [fuseSession, hm]; rfl)
  have hkb : Keeps [.hif] s b := descBegin_keeps ..
  have hkw : Keeps [.fw, .free] b w := .step (misblown_keeps ..) (by decide) ((fuseSense_keeps y b).mono (by decide))
  have hke : Keeps [.hm, .hif, .ldg] w v := emitVault_keeps ..
  have hku : Keeps [.pwr, .free] v u.drawn := .step (State.drawn_keeps u) (by decide) ((setAlarm_keeps 16 v).mono (by decide))
  obtain ⟨t, he, ht⟩ := exec_of_done hx hr hb' ((((hkw.between rfl rfl).emit ..).keeps hku rfl rfl))
  have hc := ht.completes
  rw [resultOf_of_zero] at hc
  have hlate : Keeps [.pwr, .hm, .hif, .free] v t := .step ht.keeps (by decide) (hku.mono (by decide))
  have hk : Keeps [.pwr, .hm, .hif, .ldg, .fw, .free] s t :=
    .step hlate (by decide) (.step hke (by decide) (.step hkw (by decide) (hkb.mono (by decide))))
  refine ⟨t, _, he, hc, (openStatus_vault u).1, (openStatus_vault u).2, ?_, hk.fuse_eq rfl, fun hroom => ?_, hk.only⟩
  · rw [ht.keeps.pwr_eq rfl, (State.drawn_keeps u).pwr_eq rfl]
    exact bitOf_setAlarm 16 v
  · have hs : Keeps [.hif, .fw, .free] s w := .step hkw (by decide) (hkb.mono (by decide))
    exact (emit_logs_after hs (by decide) (by decide) (by decide) (by decide) hroom).before hlate.only (by decide)

/-- R433: what a session of a field answers, check by check. -/
structure FuseRules (h : DescHdr) (s : State) (c : Instr) (kind i : Nat) (o : Buf) (x : Ext) (pre : Nat) (keys : Option (List Nat)) :
    Prop where
  refused : fuseRefused x s ≠ 0 → FuseNo h s c 0xA7 (fuseRefused x s)
  field : fuseRefused x s = 0 → pre ≠ 0 → FuseNo h s c 0xA7 pre
  unread : ∀ l, fuseRefused x s = 0 → pre = 0 → keys = some l → Ext.read x o.len = none → FuseNo h s c 0xA7 0x9006
  unsigned : ∀ l d, fuseRefused x s = 0 → pre = 0 → keys = some l → Ext.read x o.len = some d → blobSigned l d ≠ 0 →
    FuseNo h s c 0xA7 (blobSigned l d)
  signed : ∀ l d, fuseRefused x s = 0 → pre = 0 → keys = some l → Ext.read x o.len = some d → blobSigned l d = 0 →
    FuseWrong h s c x 0xA7 kind ∧ (x.fuseBad = none → FuseDone h s c kind i 0 fun g => g = fuseBlow kind i x none s.fw.arr)
  keyless : fuseRefused x s = 0 → pre = 0 → keys = none →
    FuseWrong h s c x 0xA7 kind ∧ (x.fuseBad = none → FuseDone h s c kind i 0 fun g => g = fuseBlow kind i x none s.fw.arr)

theorem fuseRules {n : Nat} {l : Option (List Nat)} (hx : exec c s = act (runDesc h (descFuse o) body) s) (hr : Runs h (descFuse o) s)
    (hb : body (descBegin h.ctx.val s) = fuseBody kind i o x pre keys (descBegin h.ctx.val s))
    (hn : pre (fuseSense x (descBegin h.ctx.val s)) = n) (hl : keys (fuseSense x (descBegin h.ctx.val s)) = l) :
    FuseRules h s c kind i o x n l := by
  let b := descBegin h.ctx.val s
  let t := fuseSense x b
  have hpass : fuseRefused x s = 0 → n = 0 → body b = (match keys t with
      | none => fuseSession kind i 0 x t
      | some l => withData x o.len t fun b =>
        if blobSigned l b ≠ 0 then .fail (blobSigned l b) t else fuseSession kind i 0 x t) := fun h0 hp =>
    hb.trans ((if_neg (not_not.mpr h0)).trans (if_neg (not_not.mpr (hn.trans hp))))
  have hsess : body b = fuseSession kind i 0 x t →
      FuseWrong h s c x 0xA7 kind ∧ (x.fuseBad = none → FuseDone h s c kind i 0 fun g => g = fuseBlow kind i x none s.fw.arr) :=
    fun hs => ⟨fuseWrong_of_session hx hr hs, fun hbad => exec_of_session hx hr hs hbad⟩
  subst hn
  exact {
    refused := fun h0 => fuseNo_of_sensed hx hr (hb.trans (if_pos h0))
    field := fun h0 hp => fuseNo_of_sensed hx hr (hb.trans ((if_neg (not_not.mpr h0)).trans (if_pos hp)))
    unread := fun l h0 hp hk hd => fuseNo_of_sensed hx hr ((hpass h0 hp).trans (by
      rw [show keys t = some l from hl.trans hk]
      exact withData_none hd))
    unsigned := fun l d h0 hp hk hd hbad => fuseNo_of_sensed hx hr ((hpass h0 hp).trans (by
      rw [show keys t = some l from hl.trans hk]
      exact (withData_some hd).trans (if_pos hbad)))
    signed := fun l d h0 hp hk hd hok => hsess ((hpass h0 hp).trans (by
      rw [show keys t = some l from hl.trans hk]
      exact (withData_some hd).trans (if_neg (not_not.mpr hok))))
    keyless := fun h0 hp hk => hsess ((hpass h0 hp).trans (by rw [show keys t = none from hl.trans hk])) }

end Session

section Fields
variable {s : State} {h : DescHdr} {o : Buf} {x : Ext} {i : Nat}

theorem integrator_rules (hr : Runs h (descFuse o) s) (hi : i < 2) :
    FuseRules h s (.fuseIntegratorKey h i o x) 0 i o x (if s.fw.arr.intHash.getD i 0 ≠ 0 then 0xB00C else 0)
      (if (List.range 2).all fun k => s.fw.arr.intHash.getD k 0 = 0 then none else some (s.intKeys 2)) :=
  fuseRules (body := bodyFuseInt i o x) rfl hr (if_neg (by omega)) rfl rfl

theorem gate_rules (hr : Runs h (descFuse o) s) :
    FuseRules h s (.fuseLimitGate h o x) 1 0 o x (if s.fw.arr.gateDone then 0xB00C else if !gateOk x.gate then 0xB00D else 0)
      (some (s.intKeys 2)) :=
  fuseRules (body := bodyFuseGate o x) rfl hr rfl rfl rfl

theorem boot_rules (hr : Runs h (descFuse o) s) (hi : i < 7) :
    FuseRules h s (.fuseBootSet h i o x) 2 i o x (if bitOf s.fw.arr.bootDone i then 0xB00C else 0) (some (s.intKeys 2)) :=
  fuseRules (body := bodyFuseBoot i o x) rfl hr (if_neg (by omega)) rfl rfl

theorem revokeIntegrator_rules (hr : Runs h (descFuse o) s) (hi : i < 2) :
    FuseRules h s (.fuseRevokeIntegrator h i o x) 4 i o x (if bitOf s.fw.arr.intRev i then 0xB00C else 0) (some (s.intKeys i)) :=
  fuseRules (body := bodyRevokeInt i o x) rfl hr (if_neg (by omega)) rfl rfl

theorem revokeKolhidex_rules (hr : Runs h (descFuse o) s) (hi : i < 4) :
    FuseRules h s (.fuseRevokeKolhidex h i o x) 5 i o x (if bitOf s.fw.arr.kolRev i then 0xB00C
      else if (List.range 4).all fun k => k = i || !kolKeyOk s.fw.arr k then 0xB00D else 0) (some (s.kolKeys i)) :=
  fuseRules (body := bodyRevokeKol i o x) rfl hr (if_neg (by omega)) rfl rfl

/-- An index outside its field is refused before the supply is measured. -/
theorem fuse_range (hr : Runs h (descFuse o) s) :
    (2 ≤ i → FuseNo h s (.fuseIntegratorKey h i o x) 0xA7 0x9009 ∧ FuseNo h s (.fuseRevokeIntegrator h i o x) 0xA7 0x9009) ∧
    (7 ≤ i → FuseNo h s (.fuseBootSet h i o x) 0xA7 0x9009) ∧ (4 ≤ i → FuseNo h s (.fuseRevokeKolhidex h i o x) 0xA7 0x9009) :=
  ⟨fun hi => ⟨fuseNo_of_fail (body := bodyFuseInt i o x) rfl hr (if_pos hi),
      fuseNo_of_fail (body := bodyRevokeInt i o x) rfl hr (if_pos hi)⟩,
    fun hi => fuseNo_of_fail (body := bodyFuseBoot i o x) rfl hr (if_pos hi),
    fun hi => fuseNo_of_fail (body := bodyRevokeKol i o x) rfl hr (if_pos hi)⟩

theorem all_slots_empty (l : List Nat) :
    ((List.range 2).all fun k => l.getD k 0 = 0) = true ↔ l.getD 0 0 = 0 ∧ l.getD 1 0 = 0 := by
  rw [show List.range 2 = [0, 1] from rfl]
  simp

theorem no_other_key (f : Fuses) (i : Nat) :
    ((List.range 4).all fun k => k = i || !kolKeyOk f k) = true ↔ ∀ k < 4, k ≠ i → kolKeyOk f k = false := by
  simp only [List.all_eq_true, List.mem_range, Bool.or_eq_true, decide_eq_true_eq, Bool.not_eq_true']
  exact forall₂_congr fun k _ => ⟨fun hk hne => hk.resolve_left hne, fun hk => or_iff_not_imp_left.mpr hk⟩

/-- What a session answers once nothing of its field stands against it. -/
theorem FuseRules.session {c : Instr} {kind pre : Nat} {keys : Option (List Nat)} {l d : List Nat} {P : Fuses → Prop}
    (R : FuseRules h s c kind i o x pre keys) (h0 : fuseRefused x s = 0) (hp : pre = 0) (hk : keys = some l)
    (hd : Ext.read x o.len = some d) (hP : P (fuseBlow kind i x none s.fw.arr)) :
    (blobSigned l d ≠ 0 → FuseNo h s c 0xA7 (blobSigned l d)) ∧
    (blobSigned l d = 0 → FuseWrong h s c x 0xA7 kind ∧ (x.fuseBad = none → FuseDone h s c kind i 0 P)) :=
  ⟨R.unsigned l d h0 hp hk hd, fun hs => ⟨(R.signed l d h0 hp hk hd hs).1, fun hn =>
    ((R.signed l d h0 hp hk hd hs).2 hn).imp fun _ hg => hg ▸ hP⟩⟩

theorem gate_open (hg : s.fw.arr.gateDone = false) (hok : gateOk x.gate = true) :
    (if s.fw.arr.gateDone then 0xB00C else if !gateOk x.gate then 0xB00D else 0) = 0 := by
  rw [hg, hok]
  rfl

theorem bit_open {m : Nat} (hb : bitOf m i = false) : (if bitOf m i then 0xB00C else 0) = 0 := by
  rw [hb]
  rfl

theorem revokeKolhidex_open (hb : bitOf s.fw.arr.kolRev i = false) (hk : ∃ k < 4, k ≠ i ∧ kolKeyOk s.fw.arr k = true) :
    (if bitOf s.fw.arr.kolRev i then 0xB00C
      else if (List.range 4).all fun k => k = i || !kolKeyOk s.fw.arr k then 0xB00D else 0) = 0 := by
  obtain ⟨k, hk4, hne, hok⟩ := hk
  rw [if_neg (by rw [hb]; decide), if_neg]
  intro hall
  exact absurd hok (by rw [(no_other_key _ _).mp hall k hk4 hne]; decide)

theorem integrator_keyed (hk : ¬ s.fw.arr.intHash.getD (1 - i) 0 = 0) (hi : i < 2) :
    (if (List.range 2).all fun k => s.fw.arr.intHash.getD k 0 = 0 then none else some (s.intKeys 2)) = some (s.intKeys 2) := by
  refine if_neg fun hall => hk ?_
  obtain ⟨h0, h1⟩ := (all_slots_empty _).mp hall
  rcases (by omega : i = 0 ∨ i = 1) with rfl | rfl
  · exact h1
  · exact h0

/-- R433: what the sessions of the five fields answer. -/
theorem fuseFields_effect (hr : Runs h (descFuse o) s) (h0 : fuseRefused x s = 0) :
    let f := s.fw.arr
    let key0 := fun k => f.intHash.getD k 0 = 0
    (i < 2 → ¬ key0 i → FuseNo h s (.fuseIntegratorKey h i o x) 0xA7 0xB00C) ∧
    (f.gateDone = true → FuseNo h s (.fuseLimitGate h o x) 0xA7 0xB00C) ∧
    (f.gateDone = false → gateOk x.gate = false → FuseNo h s (.fuseLimitGate h o x) 0xA7 0xB00D) ∧
    (i < 7 → bitOf f.bootDone i = true → FuseNo h s (.fuseBootSet h i o x) 0xA7 0xB00C) ∧
    (i < 2 → bitOf f.intRev i = true → FuseNo h s (.fuseRevokeIntegrator h i o x) 0xA7 0xB00C) ∧
    (i < 4 → bitOf f.kolRev i = true → FuseNo h s (.fuseRevokeKolhidex h i o x) 0xA7 0xB00C) ∧
    (i < 4 → bitOf f.kolRev i = false → (∀ k < 4, k ≠ i → kolKeyOk f k = false) →
      FuseNo h s (.fuseRevokeKolhidex h i o x) 0xA7 0xB00D) := by
  intro f key0
  refine ⟨fun hi hk => ?_, fun hg => ?_, fun hg ho => ?_, fun hi hb => ?_, fun hi hb => ?_, fun hi hb => ?_, fun hi hb hk => ?_⟩
  · have R := (integrator_rules (x := x) hr hi).field h0
    rw [if_pos hk] at R
    exact R (by decide)
  · have R := (gate_rules (x := x) hr).field h0
    rw [if_pos hg] at R
    exact R (by decide)
  · have R := (gate_rules (x := x) hr).field h0
    rw [if_neg (show ¬ s.fw.arr.gateDone = true by rw [hg]; decide), if_pos (by rw [ho]; rfl)] at R
    exact R (by decide)
  · have R := (boot_rules (x := x) hr hi).field h0
    rw [if_pos hb] at R
    exact R (by decide)
  · have R := (revokeIntegrator_rules (x := x) hr hi).field h0
    rw [if_pos hb] at R
    exact R (by decide)
  · have R := (revokeKolhidex_rules (x := x) hr hi).field h0
    rw [if_pos hb] at R
    exact R (by decide)
  · have R := (revokeKolhidex_rules (x := x) hr hi).field h0
    rw [if_neg (show ¬ bitOf s.fw.arr.kolRev i = true by rw [hb]; decide), if_pos ((no_other_key _ _).mpr hk)] at R
    exact R (by decide)

/-- What stands against a security version of `n` (R425). -/
def svnBad (n : Nat) (s : State) : Prop :=
  64 < n ∨ n ≤ s.fw.arr.svn ∨ s.fw.cur.svn < n ∨ ((s.fw.slotImg s.fw.pref).getD {}).svn < n

theorem bodyFuseSvn_refused {n : Nat} (h0 : fuseRefused x s ≠ 0) : bodyFuseSvn n x s = .fail (fuseRefused x s) (fuseSense x s) :=
  if_pos h0

theorem bodyFuseSvn_bad {n : Nat} (h0 : fuseRefused x s = 0) (hb : svnBad n s) : bodyFuseSvn n x s = .fail 0xB00D (fuseSense x s) :=
  (if_neg (not_not.mpr h0)).trans (if_pos hb)

theorem bodyFuseSvn_session {n : Nat} (h0 : fuseRefused x s = 0) (hb : ¬ svnBad n s) :
    bodyFuseSvn n x s = fuseSession 3 0 (bootable n s) { x with val := n } (fuseSense x s) :=
  (if_neg (not_not.mpr h0)).trans (if_neg hb)

theorem fuseBlow_svn {n : Nat} {f : Fuses} :
    let g := fuseBlow 3 i { x with val := n } none f
    g.svn = n ∧ { g with svn := f.svn } = f := ⟨rfl, rfl⟩

theorem bootable_of_eq {n : Nat} {t : State} (hf : t.fw = s.fw) (hu : t.fuse = s.fuse) : bootable n t = bootable n s := by
  rw [bootable, bootable, hf, hu]

theorem svnBad_of_eq {n : Nat} {t : State} (hf : t.fw = s.fw) : svnBad n t ↔ svnBad n s := by
  rw [svnBad, svnBad, hf]

/-- R425: the session of the security version. -/
theorem fuseSvn_effect {n : Nat} (hr : Runs h descFuseSvn s) :
    (fuseRefused x s ≠ 0 → FuseNo h s (.fuseSvn h n x) 0xA7 (fuseRefused x s)) ∧
    (fuseRefused x s = 0 → svnBad n s → FuseNo h s (.fuseSvn h n x) 0xA7 0xB00D) ∧
    (fuseRefused x s = 0 → ¬ svnBad n s → FuseWrong h s (.fuseSvn h n x) x 0xA7 3 ∧
      (x.fuseBad = none → FuseDone h s (.fuseSvn h n x) 3 0 (bootable n s) fun g => g.svn = n ∧ { g with svn := s.fw.arr.svn } = s.fw.arr)) := by
  let b := descBegin h.ctx.val s
  have hfb : b.fw = s.fw := descBegin_fw ..
  have hx : exec (.fuseSvn h n x) s = act (runDesc h descFuseSvn (bodyFuseSvn n x)) s := rfl
  refine ⟨fun h0 => fuseNo_of_sensed hx hr (bodyFuseSvn_refused (s := b) h0),
    fun h0 hb => fuseNo_of_sensed hx hr (bodyFuseSvn_bad (s := b) h0 ((svnBad_of_eq hfb).mpr hb)), fun h0 hb => ?_⟩
  have hs : bodyFuseSvn n x b = fuseSession 3 0 (bootable n s) { x with val := n } (fuseSense x b) :=
    (bodyFuseSvn_session (s := b) h0 (fun hbad => hb ((svnBad_of_eq hfb).mp hbad))).trans (by
      rw [bootable_of_eq hfb ((descBegin_keeps ..).fuse_eq rfl)])
  have hwrong : FuseWrong h s (.fuseSvn h n x) { x with val := n } 0xA7 3 := fuseWrong_of_session hx hr hs
  refine ⟨fun m hm => hwrong m hm, fun hn => ?_⟩
  obtain ⟨t, he, hc, hf, hrest⟩ := exec_of_session hx hr hs (show ({ x with val := n } : Ext).fuseBad = none from hn)
  exact ⟨t, he, hc, by rw [hf]; exact fuseBlow_svn, hrest⟩

end Fields

section Tokens
variable {s : State} {h : DescHdr} {o : Buf} {x : Ext}

/-- The stores of firmware with an outstanding nonce. -/
def nonceKept (n now : Nat) (f : Fw) : Fw := { f with vault := { f.vault with nonce := some (n, now) } }

theorem bodyNonce_up (hv : s.vaultRes = 0) (hz : s.fw.arr.zeroised = false) :
    ∃ n, bodyNonce o s = .done 0 0 (hmWrite (.bytes o.addr (leBytes 16 n)) (s.drawn.onFw (nonceKept n s.now))) := by
  refine ⟨Config.randomWord s.free % 2 ^ 128, ?_⟩
  rw [bodyNonce, withVault_up hv, if_neg (by rw [hz]; decide)]
  rfl

/-- R434: a nonce is drawn, kept with its time and written to memory. -/
theorem tokenNonce_effect (hr : Runs h (descToken o.addr 16) s) :
    (s.vaultRes ≠ 0 → FuseNo h s (.fwTokenNonce h o) 0xA8 s.vaultRes) ∧
    (s.vaultRes = 0 → s.fw.arr.zeroised = true → FuseNo h s (.fwTokenNonce h o) 0xA8 0xB00E) ∧
    (s.vaultRes = 0 → s.fw.arr.zeroised = false → ∃ t, exec (.fwTokenNonce h o) s = .next t ∧ Completes h 0xA8 0 0 s t ∧
      (∃ v, t.fw.vault.nonce = some (v, s.now) ∧ Posts (.bytes o.addr (leBytes 16 v)) s t) ∧
      t.fw.vault.test = s.fw.vault.test ∧ Only [.hm, .hif, .fw, .free] s t) := by
  have hx : exec (.fwTokenNonce h o) s = act (runDesc h (descToken o.addr 16) (bodyNonce o)) s := rfl
  let b := descBegin h.ctx.val s
  have hkb : Keeps [.hif] s b := descBegin_keeps ..
  refine ⟨fun hv => fuseNo_of_fail hx hr (withVault_down (s := b) hv),
    fun hv hz => fuseNo_of_fail hx hr ((withVault_up (s := b) hv).trans (if_pos hz)), fun hv hz => ?_⟩
  obtain ⟨n, hb⟩ := bodyNonce_up (s := b) (o := o) hv (by rw [descBegin_fw]; exact hz)
  let w := b.drawn.onFw (nonceKept n b.now)
  let u := hmWrite (.bytes o.addr (leBytes 16 n)) w
  have hkw : Keeps [.fw, .free] b w := .step (State.onFw_keeps ..) (by decide) ((State.drawn_keeps b).mono (by decide))
  have hpost : Posting (.bytes o.addr (leBytes 16 n)) s u := ⟨[], [], by
    rw [(Emits.hmWrite (.bytes o.addr (leBytes 16 n)) w).hm, hkw.hm_eq rfl, hkb.hm_eq rfl]; rfl⟩
  have hku : Keeps [.hm] w u := hmWrite_keeps ..
  obtain ⟨t, he, ht⟩ := exec_of_done hx hr hb ((hkw.between rfl rfl).trans (Emits.hmWrite (.bytes o.addr (leBytes 16 n)) w).between)
  have hfw : t.fw = nonceKept n s.now s.fw := by
    rw [ht.keeps.fw_eq rfl, hku.fw_eq rfl, State.onFw_fw, (State.drawn_keeps b).fw_eq rfl, descBegin_fw, hkb.now_eq rfl]
  refine ⟨t, he, ht.completes, ⟨n, by rw [hfw]; rfl, ?_⟩, by rw [hfw]; rfl, Keeps.only (.step ht.keeps (by decide) (.step hku (by decide)
    (.step hkw (by decide) (hkb.mono (by decide)))))⟩
  rw [ht.eq]
  exact (hpost.after (completeOne_posted ..)).posts

/-- The stores of firmware once a token has been presented: its nonce is used up. -/
def nonceUsed (f : Fw) : Fw := { f with vault := { f.vault with nonce := none } }

def testAllowed (m : Nat) (f : Fw) : Fw := { f with vault := { f.vault with test := Nat.lor f.vault.test m } }

theorem bodyToken_read {d : List Nat} (hv : s.vaultRes = 0) (hd : Ext.read x o.len = some d) : bodyToken o x s =
    if tokenOk (x.val % 2 ^ 32) d s then .done 0 (x.val % 2 ^ 32)
      (emitVault 0xB170 (x.val % 2 ^ 32) 0 0 0 ((s.onFw nonceUsed).onFw (testAllowed (x.val % 2 ^ 32))))
    else .fail 0xB00E (emitVault 0xB171 (s.freeVal 32) 0 0 0 (s.onFw nonceUsed).drawn) :=
  (withVault_up hv).trans (withData_some hd)

/-- R434: a token unlocks the modes of its mask, and uses up the nonce in either case. -/
theorem tokenUnlock_effect (hr : Runs h (descToken o.addr o.len) s) :
    (s.vaultRes ≠ 0 → FuseNo h s (.fwTokenUnlock h o x) 0xA8 s.vaultRes) ∧
    (s.vaultRes = 0 → Ext.read x o.len = none → FuseNo h s (.fwTokenUnlock h o x) 0xA8 0x9006) ∧
    (∀ d, s.vaultRes = 0 → Ext.read x o.len = some d →
      let m := x.val % 2 ^ 32
      (tokenOk m d s = true → ∃ t, exec (.fwTokenUnlock h o x) s = .next t ∧ Completes h 0xA8 0 m s t ∧
        t.fw.vault.test = Nat.lor s.fw.vault.test m ∧ t.fw.vault.nonce = none ∧
        (QRoom 0x22 s → Logs 0x22 0xB170 m 0 0 0 s t) ∧ Only [.hm, .hif, .ldg, .fw] s t) ∧
      (tokenOk m d s = false → ∃ t, exec (.fwTokenUnlock h o x) s = .next t ∧ Completes h 0xA8 0xB00E 0 s t ∧
        t.fw.vault.test = s.fw.vault.test ∧ t.fw.vault.nonce = none ∧
        (QRoom 0x22 s → ∃ p, Logs 0x22 0xB171 p 0 0 0 s t) ∧ Only [.hm, .hif, .ldg, .fw, .free] s t)) := by
  have hx : exec (.fwTokenUnlock h o x) s = act (runDesc h (descToken o.addr o.len) (bodyToken o x)) s := rfl
  let b := descBegin h.ctx.val s
  have hkb : Keeps [.hif] s b := descBegin_keeps ..
  refine ⟨fun hv => fuseNo_of_fail hx hr (withVault_down (s := b) hv),
    fun hv hd => fuseNo_of_fail hx hr ((withVault_up (s := b) hv).trans (withData_none hd)), fun d hv hd => ?_⟩
  intro m
  have hb := bodyToken_read (s := b) (o := o) (x := x) hv hd
  refine ⟨fun hok => ?_, fun hno => ?_⟩
  · let w := (b.onFw nonceUsed).onFw (testAllowed m)
    let u := emitVault 0xB170 m 0 0 0 w
    have hkw : Keeps [.fw] b w := .step (State.onFw_keeps ..) (by decide) (State.onFw_keeps ..)
    have hke : Keeps [.hm, .hif, .ldg] w u := emitVault_keeps ..
    obtain ⟨t, he, ht⟩ := exec_of_done hx hr (hb.trans (if_pos hok)) ((hkw.between rfl rfl).emit ..)
    have hfw : t.fw = testAllowed m (nonceUsed s.fw) := by
      rw [ht.keeps.fw_eq rfl, hke.fw_eq rfl, State.onFw_fw, State.onFw_fw, descBegin_fw]
    refine ⟨t, he, ht.completes, by rw [hfw]; rfl, by rw [hfw]; rfl, fun hroom => ?_, Keeps.only (.step ht.keeps (by decide)
      (.step hke (by decide) (.step hkw (by decide) (hkb.mono (by decide)))))⟩
    have hs : Keeps [.hif, .fw] s w := .step hkw (by decide) (hkb.mono (by decide))
    exact (emit_logs_after hs (by decide) (by decide) (by decide) (by decide) hroom).before ht.keeps.only (by decide)
  · let w := (b.onFw nonceUsed).drawn
    let u := emitVault 0xB171 (b.freeVal 32) 0 0 0 w
    have hkw : Keeps [.fw, .free] b w := .step (State.drawn_keeps _) (by decide) ((State.onFw_keeps ..).mono (by decide))
    have hke : Keeps [.hm, .hif, .ldg] w u := emitVault_keeps ..
    obtain ⟨t, he, ht⟩ := exec_of_done hx hr (hb.trans (if_neg (by rw [show tokenOk _ d b = false from hno]; decide)))
      ((hkw.between rfl rfl).emit ..)
    have hc := ht.completes
    rw [resultOf_of_zero] at hc
    have hfw : t.fw = nonceUsed s.fw := by
      rw [ht.keeps.fw_eq rfl, hke.fw_eq rfl, (State.drawn_keeps _).fw_eq rfl, State.onFw_fw, descBegin_fw]
    refine ⟨t, he, hc, by rw [hfw]; rfl, by rw [hfw]; rfl, fun hroom => ⟨b.freeVal 32, ?_⟩, Keeps.only (.step ht.keeps (by decide)
      (.step hke (by decide) (.step hkw (by decide) (hkb.mono (by decide)))))⟩
    have hs : Keeps [.hif, .fw, .free] s w := .step hkw (by decide) (hkb.mono (by decide))
    exact (emit_logs_after hs (by decide) (by decide) (by decide) (by decide) hroom).before ht.keeps.only (by decide)

/-- What zeroisation of Vault's volatile keys leaves of firmware, before a restart. -/
theorem vaultWipe_eq (s : State) : vaultWipe s = emitVault 0xB132 0 0 0 0 (s.onFw nonceUsed) := rfl

theorem vaultWipe_fw (s : State) : (vaultWipe s).fw = nonceUsed s.fw := by
  rw [vaultWipe_eq, (emitVault_keeps ..).fw_eq rfl, State.onFw_fw]

/-- R420: the volatile keys are zeroised once the key of the descriptor is right. -/
theorem zeroiseVolatile_effect (hr : Runs h descZeroise s) :
    (s.fw.vault.error = false → s.fw.vault.ready = false → FuseNo h s (.zeroiseVolatile h 0x5A45524F) 0xA9 0xB006) ∧
    (s.fw.vault.error = true ∨ s.fw.vault.ready = true → ∃ t, exec (.zeroiseVolatile h 0x5A45524F) s = .next t ∧
      Completes h 0xA9 0 0 s t ∧ t.fw.vault.nonce = none ∧ t.fw.arr = s.fw.arr ∧
      (s.fw.vault.error = false → t.fw.vault.ready = false ∧ t.fw.vault.restarts = satInc 16 s.fw.vault.restarts) ∧
      (QRoom 0x22 s → Logs 0x22 0xB132 0 0 0 0 s t) ∧ Only [.hm, .hif, .ldg, .fw] s t) := by
  have hx : exec (.zeroiseVolatile h 0x5A45524F) s = act (runDesc h descZeroise (bodyZeroVol 0x5A45524F)) s := rfl
  let b := descBegin h.ctx.val s
  have hkb : Keeps [.hif] s b := descBegin_keeps ..
  have hb : bodyZeroVol 0x5A45524F b = if s.fw.vault.error then .done 0 0 (vaultWipe b)
      else if !s.fw.vault.ready then .fail 0xB006 b else .done 0 0 (vaultRestart (vaultWipe b)) := if_neg (not_not.mpr rfl)
  refine ⟨fun he hy => fuseNo_of_fail hx hr (hb.trans ((if_neg (by rw [he]; decide)).trans (if_pos (by rw [hy]; rfl)))), fun hup => ?_⟩
  have hkn : Keeps [.fw] b (b.onFw nonceUsed) := State.onFw_keeps ..
  have hkw : Keeps [.hm, .hif, .ldg] (b.onFw nonceUsed) (vaultWipe b) := emitVault_keeps ..
  have hbw : Between h.ctx.val b (vaultWipe b) := (hkn.between rfl rfl).emit ..
  have hlogs : QRoom 0x22 s → Logs 0x22 0xB132 0 0 0 0 s (vaultWipe b) := fun hroom =>
    emit_logs_after (.step hkn (by decide) (hkb.mono (by decide)) : Keeps [.hif, .fw] s _) (by decide) (by decide) (by decide)
      (by decide) hroom
  have hks : Keeps [.hm, .hif, .ldg, .fw] s (vaultWipe b) := .step hkw (by decide) (.step hkn (by decide) (hkb.mono (by decide)))
  have hfw : (vaultWipe b).fw = nonceUsed s.fw := by rw [vaultWipe_fw, descBegin_fw]
  by_cases herr : s.fw.vault.error = true
  · obtain ⟨t, he, ht⟩ := exec_of_done hx hr (hb.trans (if_pos herr)) hbw
    have hft : t.fw = nonceUsed s.fw := (ht.keeps.fw_eq rfl).trans hfw
    exact ⟨t, he, ht.completes, by rw [hft]; rfl, by rw [hft]; rfl, fun hn => absurd (herr.symm.trans hn) (by decide),
      fun hroom => (hlogs hroom).before ht.keeps.only (by decide), Keeps.only (.step ht.keeps (by decide) hks)⟩
  · have hready : s.fw.vault.ready = true := hup.resolve_left herr
    have hkr : Keeps [.fw] (vaultWipe b) (vaultRestart (vaultWipe b)) := State.onFw_keeps ..
    obtain ⟨t, he, ht⟩ := exec_of_done hx hr (hb.trans ((if_neg herr).trans (if_neg (by rw [hready]; decide))))
      (hbw.keeps hkr rfl rfl)
    have hft : t.fw = { nonceUsed s.fw with vault := { s.fw.vault with
        ready := false, restarts := satInc 16 s.fw.vault.restarts, nonce := none } } := by
      rw [ht.keeps.fw_eq rfl, vaultRestart, State.onFw_fw, hfw]
      rfl
    exact ⟨t, he, ht.completes, by rw [hft], by rw [hft]; rfl, fun _ => ⟨by rw [hft], by rw [hft]⟩,
      fun hroom => ((hlogs hroom).before hkr.only (by decide)).before ht.keeps.only (by decide),
      Keeps.only (.step ht.keeps (by decide) (.step hkr (by decide) hks))⟩

/-- R420: permanent zeroisation is a fuse session of its own. -/
theorem zeroisePermanent_effect (hr : Runs h descZeroise s) :
    (fuseRefused x s ≠ 0 → FuseNo h s (.zeroisePermanent h 0x5A45524F x) 0xA9 (fuseRefused x s)) ∧
    (fuseRefused x s = 0 → s.fw.arr.zeroised = true → FuseNo h s (.zeroisePermanent h 0x5A45524F x) 0xA9 0xB00C) ∧
    (fuseRefused x s = 0 → s.fw.arr.zeroised = false → x.fuseBad = none → ∃ t,
      exec (.zeroisePermanent h 0x5A45524F x) s = .next t ∧ Completes h 0xA9 0 0 s t ∧
      t.fw.arr = { s.fw.arr with zeroised := true } ∧ t.fuse = s.fuse ∧
      (QRoom 0x22 s → Logs 0x22 0xB132 1 0 0 0 s t) ∧ Only [.hm, .hif, .ldg, .fw] s t) ∧
    (fuseRefused x s = 0 → s.fw.arr.zeroised = false → FuseWrong h s (.zeroisePermanent h 0x5A45524F x) x 0xA9 6) := by
  have hx : exec (.zeroisePermanent h 0x5A45524F x) s = act (runDesc h descZeroise (bodyZeroPerm 0x5A45524F x)) s := rfl
  let b := descBegin h.ctx.val s
  have hb : bodyZeroPerm 0x5A45524F x b = if fuseRefused x s ≠ 0 then .fail (fuseRefused x s) (fuseSense x b)
      else if s.fw.arr.zeroised then .fail 0xB00C (fuseSense x b)
      else match x.fuseBad with
        | none => .done 0 0 (blown 6 0 x 0xB132 1 0 (fuseSense x b))
        | some _ => fuseSession 6 0 0 x (fuseSense x b) := if_neg (not_not.mpr rfl)
  refine ⟨fun h0 => fuseNo_of_sensed hx hr (hb.trans (if_pos h0)),
    fun h0 hz => fuseNo_of_sensed hx hr (hb.trans ((if_neg (not_not.mpr h0)).trans (if_pos hz))), fun h0 hz hn => ?_, fun h0 hz m hm => ?_⟩
  · exact exec_of_blown hx hr (hb.trans ((if_neg (not_not.mpr h0)).trans ((if_neg (by rw [hz]; decide)).trans (by rw [hn]))))
  · exact fuseWrong_of_session hx hr (hb.trans ((if_neg (not_not.mpr h0)).trans ((if_neg (by rw [hz]; decide)).trans (by rw [hm])))) m hm

end Tokens

/-- Settles O54: a session is refused by its supply, by Vault, by its field, by its value and by its signature, and
otherwise blows its own field alone; tokens and zeroisation use up the nonce. -/
theorem fusesAndTokens : Obligations.FusesAndTokens := by
  intro s h i n key o x f no done wrong key0
  refine ⟨fun hr => ?_, fun hr => fuseSvn_effect hr, fun hr => tokenNonce_effect hr, fun hr => tokenUnlock_effect hr, fun hr => ?_⟩
  · obtain ⟨r1, r2, r3⟩ := fuse_range (x := x) (i := i) hr
    refine ⟨r1, r2, r3, fun h0 c hc => ?_, fun h0 => ?_⟩
    · rcases hc with ⟨hi, rfl | rfl⟩ | ⟨hi, rfl⟩ | ⟨hi, rfl⟩ | rfl
      · exact (integrator_rules hr hi).refused h0
      · exact (revokeIntegrator_rules hr hi).refused h0
      · exact (boot_rules hr hi).refused h0
      · exact (revokeKolhidex_rules hr hi).refused h0
      · exact (gate_rules hr).refused h0
    obtain ⟨e1, e2, e3, e4, e5, e6, e7⟩ := fuseFields_effect (i := i) hr h0
    refine ⟨e1, e2, e3, e4, e5, e6, e7, fun hi h1 h2 => ?_, fun hd c hc => ?_, fun d hd => ?_⟩
    · have hboth : f.intHash.getD i 0 = 0 ∧ f.intHash.getD (1 - i) 0 = 0 := by
        rcases (by omega : i = 0 ∨ i = 1) with rfl | rfl
        exacts [⟨h1, h2⟩, ⟨h2, h1⟩]
      obtain ⟨hw, hg⟩ := (integrator_rules (x := x) hr hi).keyless h0 (if_neg (not_not.mpr hboth.1))
        (if_pos ((all_slots_empty _).mpr ⟨h1, h2⟩))
      have hP := fuseBlow_integrator (x := x) (f := f) hi
      rw [hboth.2] at hP
      exact ⟨hw, fun hn => (hg hn).imp (g' := IntegratorBlown f i 0 x) fun _ hg => hg ▸ hP⟩
    · rcases hc with ⟨hi, hk, hother, rfl⟩ | ⟨hg, hok, rfl⟩ | ⟨hi, hb, rfl⟩ | ⟨hi, hb, rfl⟩ | ⟨hi, hb, hk, rfl⟩
      · exact (integrator_rules hr hi).unread _ h0 (if_neg (not_not.mpr hk)) (integrator_keyed hother hi) hd
      · exact (gate_rules hr).unread _ h0 (gate_open hg hok) rfl hd
      · exact (boot_rules hr hi).unread _ h0 (bit_open hb) rfl hd
      · exact (revokeIntegrator_rules hr hi).unread _ h0 (bit_open hb) rfl hd
      · exact (revokeKolhidex_rules hr hi).unread _ h0 (revokeKolhidex_open hb hk) rfl hd
    · exact ⟨fun hi hk hother => (integrator_rules hr hi).session (P := IntegratorBlown f i (f.intHash.getD (1 - i) 0) x) h0
          (if_neg (not_not.mpr hk)) (integrator_keyed hother hi) hd (fuseBlow_integrator hi),
        fun hg hok => (gate_rules hr).session (P := GateBlown f x) h0 (gate_open hg hok) rfl hd fuseBlow_gate,
        fun hi hb => (boot_rules hr hi).session (P := BootBlown f i x) h0 (bit_open hb) rfl hd (fuseBlow_boot hi hb),
        fun hi hb => (revokeIntegrator_rules hr hi).session (P := IntegratorRevoked f i) h0 (bit_open hb) rfl hd
          (fuseBlow_revoke_integrator hb),
        fun hi hb hk => (revokeKolhidex_rules hr hi).session (P := KolhidexRevoked f i) h0 (revokeKolhidex_open hb hk) rfl hd
          (fuseBlow_revoke_kolhidex hb)⟩
  · refine ⟨fun hk => ⟨fuseNo_of_fail (body := bodyZeroVol key) rfl hr (if_pos hk),
      fuseNo_of_fail (body := bodyZeroPerm key x) rfl hr (if_pos hk)⟩, fun hk => ?_⟩
    subst hk
    obtain ⟨v1, v2⟩ := zeroiseVolatile_effect hr
    obtain ⟨p1, p2, p3, p4⟩ := zeroisePermanent_effect (x := x) hr
    exact ⟨v1, v2, p1, p2, p3, fun m h0 hz hm => p4 h0 hz m hm⟩

end Sys2Proof.Machine
end

section

/-! What steps leave of one source's queue of records: a record of another source does not enter it. -/

namespace Sys2Proof.Machine

/-- Block time and the queue of source `q` stay as they were. -/
structure Quiet (q : Nat) (s t : State) : Prop where
  now : t.now = s.now
  hold : t.tb.hold = s.tb.hold
  queue : Tbl.get [] t.ldg.queues q = Tbl.get [] s.ldg.queues q

section Rules
variable {q : Nat} {r s t : State}

theorem Quiet.refl (q : Nat) (s : State) : Quiet q s s := ⟨rfl, rfl, rfl⟩

theorem Quiet.trans (h : Quiet q r s) (g : Quiet q s t) : Quiet q r t :=
  ⟨g.now.trans h.now, g.hold.trans h.hold, g.queue.trans h.queue⟩

theorem Quiet.keeps {ps : List Area} (h : Quiet q r s) (g : Keeps ps s t) (hl : ps.contains .ldg = false) (hn : ps.contains .now = false)
    (ht : ps.contains .tb = false) : Quiet q r t :=
  h.trans ⟨g.now_eq hn, congrArg TimeBase.hold (g.tb_eq ht), by rw [g.ldg_eq hl]⟩

theorem Quiet.forList {α : Type} {l : List α} {f : α → State → State} (h : Quiet q r s) (hf : ∀ a u, Quiet q u (f a u)) :
    Quiet q r (forList l f s) :=
  forList_ind (P := Quiet q r) (fun a _ u hu => hu.trans (hf a u)) h

/-- The source `src` is another than `q`, and `q` is neither Ledger nor the Clerk, which record what other sources lose. -/
def Voiced (q src : Nat) : Prop := src ≠ q ∧ q ≠ 0x36 ∧ q ≠ 0x21

variable {rec_ : LRec → State → State} (hr : ∀ (x : LRec) u, Voiced q x.source → Quiet q u (rec_ x u))

theorem ldgPut_quiet {x : LRec} (hx : Voiced q x.source) (s : State) : Quiet q s (ldgPut x s) := by
  refine ⟨rfl, rfl, ?_⟩
  rw [ldgPut, State.onLdg_ldg]
  split
  · dsimp only
    exact Tbl.get_upd_ne (d := ([] : List LRec)) _ _ hx.1.symm
  · rfl

include hr

theorem ldgEnqueue_quiet {x : LRec} (hx : Voiced q x.source) (s : State) : Quiet q s (ldgEnqueue rec_ x s) := by
  have hput : Quiet q s (ldgPut x s) := ldgPut_quiet hx s
  unfold ldgEnqueue
  extract_lets full s1 s2
  split
  · have h2 : Quiet q s1 s2 := ⟨rfl, rfl, rfl⟩
    exact (hput.trans h2).trans (hr _ s2 ⟨hx.2.1.symm, hx.2⟩)
  · exact hput

theorem evtDeliver_quiet (h36 : q ≠ 0x36) (h21 : q ≠ 0x21) (x : LRec) (c : Nat) (s : State) : Quiet q s (evtDeliver rec_ x c s) := by
  unfold evtDeliver
  extract_lets y s1 s2
  have h1 : Quiet q s s1 := (Quiet.refl q s).keeps (State.updCtx_keeps ..) rfl rfl rfl
  split
  · exact .refl q s
  · split
    · exact (Quiet.refl q s).keeps (writeEntry_keeps ..) rfl rfl rfl
    · split
      · have h2 : Quiet q s s2 := h1.keeps (State.updCtx_keeps ..) rfl rfl rfl
        exact h2.trans (hr _ s2 ⟨h21.symm, h36, h21⟩)
      · exact h1

omit hr

theorem emitRec_quiet (n : Nat) (x : LRec) (s : State) (hx : Voiced q x.source) : Quiet q s (emitRec n x s) := by
  induction n generalizing x s with
  | zero => exact ldgPut_quiet hx s
  | succ n ih =>
    unfold emitRec
    extract_lets s1 c
    have h1 : Quiet q s s1 := (ldgEnqueue_quiet ih hx s).trans (evtDeliver_quiet ih hx.2.1 hx.2.2 x 0 _)
    split
    · exact h1.trans (evtDeliver_quiet ih hx.2.1 hx.2.2 x c s1)
    · exact h1

/-- A record of another source does not enter a queue, save those of Ledger and the Clerk, which record what is lost. -/
theorem emit_quiet {src code p0 p1 p2 p3 : Nat} (hx : Voiced q src) (s : State) : Quiet q s (emit src code p0 p1 p2 p3 s) :=
  emitRec_quiet 4 _ s hx

/-- A record joins its queue after steps that left the queue alone. -/
theorem emit_logs_quiet {src code p0 p1 p2 p3 : Nat} (h : Quiet src s t) (hroom : QRoom src s) :
    Logs src code p0 p1 p2 p3 s (emit src code p0 p1 p2 p3 t) := by
  obtain ⟨l, hl, r, hr, h1, h2, h3, h4, h5⟩ := emit_logs (code := code) (p0 := p0) (p1 := p1) (p2 := p2) (p3 := p3)
    (show QRoom src t by rwa [QRoom, h.queue])
  exact ⟨l, h.queue ▸ hl, r, hr, h1, h2, h3.trans h.now, h4.trans h.hold, h5⟩

end Rules

section Steps
variable (s : State)

theorem voiced_vault {src : Nat} (h : src ≠ 0x22) : Voiced 0x22 src := ⟨h, by decide, by decide⟩

theorem holdAll_quiet (cause : Nat) : Quiet 0x22 s (holdAll cause s) := by
  unfold holdAll
  extract_lets l
  split
  · exact .refl ..
  · exact ((Quiet.refl ..).forList fun c u => (Quiet.refl ..).keeps (cluHold_keeps ..) rfl rfl rfl).trans
      (emit_quiet (voiced_vault (by decide)) _)

theorem reclaimCore_quiet (cause c k : Nat) : Quiet 0x22 s (reclaimCore cause c k s) := by
  unfold reclaimCore
  extract_lets x
  split
  · exact .refl ..
  · rename_i s1 w s2 _ _ _
    have h1 : Quiet 0x22 s s1 := (Quiet.refl ..).keeps (State.updCore_keeps ..) rfl rfl rfl
    have h2 : Quiet 0x22 s s2 := by
      unfold s2
      split
      · exact h1.keeps (State.onTrs_keeps ..) rfl rfl rfl
      · exact h1
    split
    · exact h2.trans (emit_quiet (voiced_vault (by decide)) _)
    · exact h2

theorem reclaimClu_quiet (cause c : Nat) : Quiet 0x22 s (reclaimClu cause c s) :=
  (Quiet.refl ..).forList fun k u => reclaimCore_quiet u cause c k

theorem cluUnhold_quiet (c : Nat) : Quiet 0x22 s (cluUnhold c s) := by
  unfold cluUnhold
  extract_lets x
  split
  · have h1 : Quiet 0x22 s (presetLoops c (s.updClu c fun y => { y with st := 1 })) :=
      ((Quiet.refl ..).keeps (State.updClu_keeps ..) rfl rfl rfl).keeps (presetLoops_keeps ..) rfl rfl rfl
    exact h1.trans (emit_quiet (voiced_vault (by decide)) _)
  · exact .refl ..

end Steps

end Sys2Proof.Machine
end

section

/-! The live update of firmware (R435, R436, R437): its start, hold, handoff, resumption, confirmation and rollback. -/

namespace Sys2Proof.Machine

section Start
variable {s : State} {h : DescHdr}

/-- The status of the check of the other slot's image. -/
def State.liveStatus (s : State) : Nat := if s.nvDown then 0xB010 else fwCheck s.fuse (s.fw.slotImg s.otherSlot)

/-- The image that a live update starts. -/
def State.liveImg (s : State) : FwImg := (s.fw.slotImg s.otherSlot).getD {}

/-- The image of the other slot does not fit the running one. -/
def State.liveOff (s : State) : Prop :=
  s.liveImg.ver / 2 ^ 24 ≠ s.fw.cur.ver / 2 ^ 24 ∨ s.fw.cur.hoVer < s.liveImg.hoMin

def State.liveBusy (s : State) : Prop := s.fw.upd ≠ 0 ∨ s.fw.slotState s.fw.cur.slot = 3

/-- The stores once the other slot's image has been checked: an image that fails for good is marked. -/
def liveChecked (s : State) : State :=
  if s.liveStatus = 0xB005 then dirWrite ((s.onFw (Fw.setLast s.otherSlot s.liveStatus)).onFw (Fw.setSlot s.otherSlot 4))
  else s.onFw (Fw.setLast s.otherSlot s.liveStatus)

theorem liveChecked_keeps (s : State) : Keeps [.fw] s (liveChecked s) :=
  .ite (.step (dirWrite_keeps _) (by decide) (.step (State.onFw_keeps ..) (by decide) (State.onFw_keeps ..))) (State.onFw_keeps ..)

/-- What a check of a slot leaves of the running image. -/
def Fw.running (f : Fw) : Nat × RunImg × Nat := (f.upd, f.cur, f.pref)

theorem liveChecked_running (s : State) : (liveChecked s).fw.running = s.fw.running := by
  unfold liveChecked
  split
  · have hd := dirWrite_unlisted ((s.onFw (Fw.setLast s.otherSlot s.liveStatus)).onFw (Fw.setSlot s.otherSlot 4))
    have hr : ∀ f : Fw, f.unlisted.running = f.running := fun _ => rfl
    rw [← hr, hd, State.onFw_fw, State.onFw_fw]
    rfl
  · rw [State.onFw_fw]
    rfl

/-- The stores of firmware once a live update of slot `k` has started. -/
def Fw.updating (h : DescHdr) (k : Nat) (g : FwImg) (f : Fw) : Fw :=
  { f with upd := 1, updHdr := some h, old := f.cur, next := runImgOf k g }

theorem bodyLive_empty (hv : s.vaultRes = 0) (h1 : s.fw.slotState s.otherSlot ≠ 1) (h2 : s.fw.slotState s.otherSlot ≠ 2) :
    bodyLive h s = .fail 0xB008 s := (withVault_up hv).trans (if_pos ⟨h1, h2⟩)

theorem bodyLive_filled (hv : s.vaultRes = 0) (hk : s.fw.slotState s.otherSlot = 1 ∨ s.fw.slotState s.otherSlot = 2) :
    bodyLive h s = if s.liveStatus ≠ 0 then .fail s.liveStatus (liveChecked s)
      else if s.liveImg.ver / 2 ^ 24 ≠ (liveChecked s).fw.cur.ver / 2 ^ 24 ∨ (liveChecked s).fw.cur.hoVer < s.liveImg.hoMin then
        .fail 0xB007 (liveChecked s)
      else if (liveChecked s).fw.upd ≠ 0 ∨ (liveChecked s).fw.slotState (liveChecked s).fw.cur.slot = 3 then
        .fail 0xB006 (liveChecked s)
      else .wait (emitVault 0xB110 s.liveImg.ver (liveChecked s).fw.cur.ver 0 0 ((liveChecked s).onFw
        (Fw.updating h s.otherSlot s.liveImg))) :=
  (withVault_up hv).trans (if_neg (by omega))

theorem liveChecked_ok (h0 : s.liveStatus = 0) : liveChecked s = s.onFw (Fw.setLast s.otherSlot 0) := by
  rw [liveChecked, h0, if_neg (by decide)]

theorem liveChecked_slotSt (h0 : s.liveStatus = 0) (k : Nat) : (liveChecked s).fw.slotState k = s.fw.slotState k := by
  rw [liveChecked_ok h0]
  rfl

theorem liveChecked_cur (s : State) : (liveChecked s).fw.cur = s.fw.cur := (congrArg (fun p => p.2.1) (liveChecked_running s) :)

theorem liveBusy_checked (h0 : s.liveStatus = 0) :
    ((liveChecked s).fw.upd ≠ 0 ∨ (liveChecked s).fw.slotState (liveChecked s).fw.cur.slot = 3) ↔ s.liveBusy := by
  have hu : (liveChecked s).fw.upd = s.fw.upd := (congrArg Prod.fst (liveChecked_running s) :)
  rw [liveChecked_slotSt h0, liveChecked_cur, hu]
  rfl

section Checked
variable (hv : s.vaultRes = 0) (hk : s.fw.slotState s.otherSlot = 1 ∨ s.fw.slotState s.otherSlot = 2)
include hv hk

theorem bodyLive_bad (h0 : s.liveStatus ≠ 0) : bodyLive h s = .fail s.liveStatus (liveChecked s) :=
  (bodyLive_filled hv hk).trans (if_pos h0)

theorem bodyLive_off (h0 : s.liveStatus = 0) (ho : s.liveOff) : bodyLive h s = .fail 0xB007 (liveChecked s) := by
  rw [bodyLive_filled hv hk, if_neg (not_not.mpr h0), liveChecked_cur]
  exact if_pos ho

theorem bodyLive_busy (h0 : s.liveStatus = 0) (ho : ¬ s.liveOff) (hb : s.liveBusy) :
    bodyLive h s = .fail 0xB006 (liveChecked s) := by
  have hb' := (liveBusy_checked h0).mpr hb
  rw [bodyLive_filled hv hk, if_neg (not_not.mpr h0), if_pos hb', liveChecked_cur]
  exact if_neg ho

theorem bodyLive_starts (h0 : s.liveStatus = 0) (ho : ¬ s.liveOff) (hb : ¬ s.liveBusy) :
    bodyLive h s = .wait (emitVault 0xB110 s.liveImg.ver s.fw.cur.ver 0 0
      ((liveChecked s).onFw (Fw.updating h s.otherSlot s.liveImg))) := by
  have hb' := fun hx => hb ((liveBusy_checked h0).mp hx)
  rw [bodyLive_filled hv hk, if_neg (not_not.mpr h0), if_neg hb', liveChecked_cur]
  exact if_neg ho

end Checked

/-- A live update is refused, and the running image stays. -/
theorem live_refused {st : Nat} {u : State} (hr : Runs h descLive s)
    (hb : bodyLive h (descBegin h.ctx.val s) = .fail st u) (hu : Keeps [.fw] (descBegin h.ctx.val s) u)
    (hrun : u.fw.running = (descBegin h.ctx.val s).fw.running) :
    ∃ t, exec (.fwLiveUpdate h) s = .next t ∧ Completes h 0xA3 st 0 s t ∧ t.fw.upd = s.fw.upd ∧ t.fw.cur = s.fw.cur ∧
      t.fw.pref = s.fw.pref ∧ Only [.hm, .hif, .fw] s t := by
  obtain ⟨t, he, ht⟩ := exec_of_done (c := .fwLiveUpdate h) (body := bodyLive h) rfl hr hb (hu.between rfl rfl)
  have hc := ht.completes
  rw [resultOf_of_zero] at hc
  have hkb : Keeps [.hif] s (descBegin h.ctx.val s) := descBegin_keeps ..
  have hf : t.fw.running = s.fw.running := by rw [ht.keeps.fw_eq rfl, hrun, descBegin_fw]
  exact ⟨t, he, hc, (congrArg Prod.fst hf :), (congrArg (fun p => p.2.1) hf :), (congrArg (fun p => p.2.2) hf :),
    Keeps.only (.step ht.keeps (by decide) (.step hu (by decide) (hkb.mono (by decide))))⟩

/-- R435: FW_LIVE_UPDATE. -/
theorem fwLiveUpdate_effect (hr : Runs h descLive s) :
    let no := fun (r : Nat) => ∃ t, exec (.fwLiveUpdate h) s = .next t ∧ Completes h 0xA3 r 0 s t ∧ t.fw.upd = s.fw.upd ∧
      t.fw.cur = s.fw.cur ∧ t.fw.pref = s.fw.pref ∧ Only [.hm, .hif, .fw] s t
    let k := s.otherSlot
    (s.vaultRes ≠ 0 → no s.vaultRes) ∧
    (s.vaultRes = 0 → s.fw.slotState k ≠ 1 → s.fw.slotState k ≠ 2 → no 0xB008) ∧
    (s.vaultRes = 0 → s.fw.slotState k = 1 ∨ s.fw.slotState k = 2 →
      (s.liveStatus ≠ 0 → no s.liveStatus) ∧ (s.liveStatus = 0 → s.liveOff → no 0xB007) ∧
      (s.liveStatus = 0 → ¬ s.liveOff → s.liveBusy → no 0xB006) ∧
      (s.liveStatus = 0 → ¬ s.liveOff → ¬ s.liveBusy → ∃ t, exec (.fwLiveUpdate h) s = .next t ∧ t.fw.upd = 1 ∧
        t.fw.updHdr = some h ∧ t.fw.next = runImgOf k s.liveImg ∧ t.fw.old = s.fw.cur ∧ t.fw.cur = s.fw.cur ∧
        (t.getCtx h.ctx).busy = true ∧ (QRoom 0x22 s → Logs 0x22 0xB110 s.liveImg.ver s.fw.cur.ver 0 0 s t) ∧
        Only [.hm, .hif, .ldg, .fw] s t)) := by
  intro no k
  let b := descBegin h.ctx.val s
  have hkb : Keeps [.hif] s b := descBegin_keeps ..
  have hfb : b.fw = s.fw := descBegin_fw ..
  have himg : b.liveImg = s.liveImg := by rw [State.liveImg, State.otherSlot, hfb]; rfl
  have hst : b.liveStatus = s.liveStatus := by
    rw [State.liveStatus, State.liveStatus, State.nvDown, State.nvDown, hkb.frec_eq rfl, hkb.pwr_eq rfl, hkb.fuse_eq rfl,
      State.otherSlot, State.otherSlot, hfb]
  have hoff : b.liveOff ↔ s.liveOff := by rw [State.liveOff, State.liveOff, himg, hfb]
  have hbusy : b.liveBusy ↔ s.liveBusy := by rw [State.liveBusy, State.liveBusy, hfb]
  have hkc : Keeps [.fw] b (liveChecked b) := liveChecked_keeps b
  have hrun : (liveChecked b).fw.running = b.fw.running := liveChecked_running b
  refine ⟨fun hv => live_refused hr (withVault_down (s := b) hv) (.refl ..) rfl,
    fun hv h1 h2 => live_refused hr (bodyLive_empty (s := b) hv h1 h2) (.refl ..) rfl, fun hv hk => ⟨fun h0 => ?_,
      fun h0 ho => live_refused hr (bodyLive_off (s := b) hv hk (hst.trans h0) (hoff.mpr ho)) hkc hrun,
      fun h0 ho hb => live_refused hr (bodyLive_busy (s := b) hv hk (hst.trans h0) (hoff.not.mpr ho) (hbusy.mpr hb)) hkc hrun,
      fun h0 ho hb => ?_⟩⟩
  · rw [← hst] at h0 ⊢
    exact live_refused hr (bodyLive_bad (s := b) hv hk h0) hkc hrun
  have hbody := bodyLive_starts (s := b) (h := h) hv hk (hst.trans h0) (hoff.not.mpr ho) (hbusy.not.mpr hb)
  rw [himg, hfb, (show b.otherSlot = k by rw [State.otherSlot, hfb]; rfl)] at hbody
  let w := (liveChecked b).onFw (Fw.updating h k s.liveImg)
  let u := emitVault 0xB110 s.liveImg.ver s.fw.cur.ver 0 0 w
  have hkw : Keeps [.hif, .fw] s w := .step (State.onFw_keeps ..) (by decide) (.step hkc (by decide) (hkb.mono (by decide)))
  have hke : Keeps [.hm, .hif, .ldg] w u := emitVault_keeps ..
  have hkt : Keeps [.hif] u (u.updCtx h.ctx.val fun x => { x with busy := true }) := State.updCtx_keeps ..
  have hfw : (u.updCtx h.ctx.val fun x => { x with busy := true }).fw = Fw.updating h k s.liveImg (liveChecked b).fw := by
    rw [hkt.fw_eq rfl, hke.fw_eq rfl, State.onFw_fw]
  have hcur : (liveChecked b).fw.cur = s.fw.cur := (liveChecked_cur b).trans (congrArg Fw.cur hfb)
  refine ⟨_, exec_of_wait (c := .fwLiveUpdate h) (body := bodyLive h) rfl hr hbody, by rw [hfw]; rfl, by rw [hfw]; rfl,
    by rw [hfw]; rfl, (congrArg Fw.old hfw).trans hcur, (congrArg Fw.cur hfw).trans hcur, by rw [State.getCtx_updCtx], fun hroom => ?_,
    Keeps.only (.step hkt (by decide) (.step hke (by decide) (hkw.mono (by decide))))⟩
  exact (emit_logs_after hkw (by decide) (by decide) (by decide) (by decide) hroom).before hkt.only (by decide)

end Start

section Hold
variable (s : State)

theorem updHold_getClu (k : Nat) : (updHold s).getClu k = (holdAll 0 s).getClu k :=
  getClu_of_loop (t := updHold s) ((railsHold_keeps (holdAll 0 s) _).loop_eq rfl) k

theorem updHold_fw : (updHold s).fw = { s.fw with handoff := true } := by
  rw [updHold, State.onFw_fw, (railsHold_keeps (holdAll 0 s) _).fw_eq rfl, (holdAll_keeps ..).fw_eq rfl]

theorem updHold_getReg {r : Nat} (hr : r ∈ s.railIds) : ((updHold s).getReg r).hold = true := by
  have hids : (holdAll 0 s).railIds = s.railIds := (holdAll_keeps 0 s).railIds_eq rfl
  have hreg := railsHold_getReg (holdAll 0 s) (r := r) (by rw [hids]; exact hr)
  exact (congrArg Reg.hold hreg :)

theorem updHold_quiet : Quiet 0x22 s (updHold s) := by
  have h1 : Quiet 0x22 s _ := (holdAll_quiet s 0).keeps (railsHold_keeps (holdAll 0 s) (holdAll 0 s).railIds) rfl rfl rfl
  unfold updHold
  exact h1.keeps (State.onFw_keeps ..) rfl rfl rfl

theorem audAbandon_test (cause : Nat) : (audAbandon cause s).aud.test = none := by
  unfold audAbandon
  split
  · next h => exact h
  · next t ht =>
    extract_lets s1
    have h1 : s1.aud.test = none := by
      rw [(emitClerk_keeps ..).aud_eq rfl]
      rfl
    split
    · next g _ => rw [(complete_keeps ..).aud_eq rfl, h1]
    · exact h1

/-- R436: the hold of a live update. -/
theorem prepareDone_effect (hu : s.fw.upd = 1) :
    let t := prepareDone s
    t.fw.upd = 2 ∧ t.fw.handoff = true ∧ t.fw.holdAt = s.now ∧
      (∀ c ∈ s.clusters, (s.getClu c).st = 1 → (t.getClu c).st = 2 ∧ (t.getClu c).holdCause = 0) ∧
      (∀ r ∈ s.railIds, (t.getReg r).hold = true) ∧ t.aud.test = none ∧ t.fw.cur = s.fw.cur := by
  intro t
  let a := audAbandon 2 s
  have hka : Keeps [.hm, .hif, .ldg, .fc, .trs, .aud] s a := audAbandon_keeps ..
  let g : Fw → Fw := fun f => { f with upd := 2, runMask := maskOf (s.clusters.filter fun c => (s.getClu c).st = 1), holdAt := (updHold a).now }
  have hnow : (updHold a).now = s.now := (updHold_keeps a).now_eq rfl |>.trans (hka.now_eq rfl)
  have ht : t = (updHold a).onFw g := if_neg (not_not.mpr hu) |>.trans (by rw [show g = fun f => { f with
    upd := 2, runMask := maskOf (s.clusters.filter fun c => (s.getClu c).st = 1), holdAt := s.now } by simp only [g, hnow]])
  have hkt : Keeps [.fw] (updHold a) t := by rw [ht]; exact State.onFw_keeps ..
  have hfw : t.fw = g { s.fw with handoff := true } := by rw [ht, State.onFw_fw, updHold_fw, hka.fw_eq rfl]
  refine ⟨by rw [hfw], by rw [hfw], by rw [hfw]; exact hnow, fun c hc h1 => ?_, fun r hr => ?_, ?_, by rw [hfw]⟩
  · have hca : a.getClu c = s.getClu c := getClu_of_loop (hka.loop_eq rfl) c
    have hcl : c ∈ a.clusters := by rwa [hka.clusters_eq rfl]
    have hget : t.getClu c = holdClu 0 a.now (s.getClu c) := by
      rw [getClu_of_loop (hkt.loop_eq rfl), updHold_getClu, holdAll_getClu, hca, if_pos ⟨hcl, h1⟩]
    rw [hget, holdClu, if_pos h1]
    exact ⟨rfl, rfl⟩
  · rw [State.getReg, hkt.rail_eq rfl]
    exact updHold_getReg a (by rwa [hka.railIds_eq rfl])
  · rw [hkt.aud_eq rfl, (updHold_keeps a).aud_eq rfl]
    exact audAbandon_test s 2

end Hold

section Handoff
variable (s : State)

/-- The banks of the cores that a switch flips. -/
def switched (s : State) : List Nat := [32, 33] ++ s.clusters

theorem switched_nodup : (switched s).Nodup := by
  have hlt : ∀ c ∈ s.clusters, c < 32 := fun c hc => List.mem_range.mp (List.mem_of_mem_filter hc)
  refine List.nodup_append.mpr ⟨by decide, clusters_nodup s, fun a ha b hb e => ?_⟩
  have := hlt b hb
  have : a = 32 ∨ a = 33 := by simpa using ha
  omega

theorem flipBanks_getFwCore {k : Nat} (hk : k ∈ s.clusters) :
    (flipBanks s).getFwCore k = { s.getFwCore k with bank := !(s.getFwCore k).bank } := by
  have h := forList_entry (State.getFwCore · k) (f := fun k => State.updFwCore k fun x => { x with bank := !x.bank })
    (g := fun x => { x with bank := !x.bank }) (k := k) (fun _ => State.getFwCore_updFwCore ..)
    (fun _ hj _ => State.getFwCore_updFwCore_ne _ _ _ (Ne.symm hj)) (switched_nodup s) s
  rwa [if_pos (show k ∈ switched s from List.mem_append_right _ hk)] at h

/-- The stores of firmware beside its cores. -/
def Fw.uncored (f : Fw) : Fw := { f with core := [] }

theorem flipBanks_uncored : (flipBanks s).fw.uncored = s.fw.uncored :=
  forList_eq (fun u => u.fw.uncored) _ (f := fun k => State.updFwCore k fun x => { x with bank := !x.bank }) (fun _ _ => rfl) s

/-- What a live update hands over (R436, step 3). -/
def State.handedOver (s : State) : HandOff :=
  { loop := s.loop.loop, fc := s.fc, trs := s.trs, prog := s.tly.prog, set := s.tly.set, table := s.frm.table }

def Fw.switchTo (now : Nat) (f : Fw) : Fw :=
  Fw.setSlot f.next.slot 3 { f with upd := 4, cur := f.next, pref := f.next.slot, switchAt := now }

/-- R436: the switch to the new image. -/
theorem handoffDone_switches (hs : s.fw.slotSt.length = 2) (hu : s.fw.upd = 2) (hn : s.fw.next.slot < 2) :
    let t := handoffDone true s
    t.fw.upd = 4 ∧ t.fw.cur = s.fw.next ∧ t.fw.switchAt = s.now ∧ t.fw.slotState s.fw.next.slot = 3 ∧ t.ho = some s.handedOver ∧
      (∀ c ∈ s.clusters, (t.getFwCore c).bank = !(s.getFwCore c).bank) ∧ Only [.fw, .ho] s t := by
  intro t
  let s1 := s.onHo fun _ => some s.handedOver
  let f1 := flipBanks s1
  have ht : t = dirWrite (f1.onFw (Fw.switchTo s.now)) := by
    rw [show t = handoffDone true s from rfl, handoffDone, if_neg (not_not.mpr hu)]
    rfl
  have hk1 : Keeps [.ho] s s1 := State.onHo_keeps ..
  have hkf : Keeps [.fw] s1 f1 := flipBanks_keeps s1
  have hkt : Keeps [.fw] f1 t := by rw [ht]; exact (dirWrite_keeps _).step (by decide) (State.onFw_keeps ..)
  have hf : t.fw.unlisted = (Fw.switchTo s.now f1.fw).unlisted := by rw [ht, dirWrite_unlisted, State.onFw_fw]
  have hflip : f1.fw.uncored = s.fw.uncored := (flipBanks_uncored s1).trans (congrArg Fw.uncored (hk1.fw_eq rfl))
  have hnext : f1.fw.next = s.fw.next := (congrArg Fw.next hflip :)
  have hcore : t.fw.core = f1.fw.core := (congrArg Fw.core hf :)
  refine ⟨(congrArg Fw.upd hf :), (congrArg Fw.cur hf : t.fw.cur = f1.fw.next).trans hnext, (congrArg Fw.switchAt hf :), ?_, ?_,
    fun c hc => ?_, Keeps.only (.step hkt (by decide) (.step hkf (by decide) (hk1.mono (by decide))))⟩
  · have hslot : t.fw.slotSt = f1.fw.slotSt.set f1.fw.next.slot 3 := (congrArg Fw.slotSt hf :)
    have hlen : f1.fw.slotSt = s.fw.slotSt := (congrArg Fw.slotSt hflip :)
    rw [Fw.slotState, hslot, hnext]
    exact getD_set_self (by rw [hlen]; omega)
  · rw [hkt.ho_eq rfl, hkf.ho_eq rfl]
    rfl
  · have hget : t.getFwCore c = f1.getFwCore c := by rw [State.getFwCore, hcore]; rfl
    rw [hget, flipBanks_getFwCore s1 (show c ∈ s1.clusters from hc)]
    rfl

end Handoff

section Rollback
variable (s : State)

/-- A rollback's hold: the cores are back in their old banks, every loan is returned. -/
def rollHeld (s : State) : State :=
  let s2 := if s.fw.upd = 2 then updHold s else flipBanks (updHold s)
  forList s2.clusters (reclaimClu 1) s2

/-- What a rollback takes back from the handoff area. -/
def rollRestored (s3 : State) : State :=
  match s3.ho with
  | some o =>
    let s4 := ((s3.onLoop fun l => { l with loop := o.loop }).onFc fun _ => o.fc).onTrs fun t =>
      { o.trs with energy := t.energy, energyRem := t.energyRem }
    (s4.onTly fun y => { y with prog := o.prog, set := o.set }).onFrm fun f =>
      { f with nextTable := if o.table = f.table then none else o.table }
  | none => s3

/-- The Overdraft bucket is empty and nothing is lent. -/
def rollEmptied (s4 : State) : State :=
  forList s4.clusters (fun c => State.updTrsCl c fun y => { y with lent := 0 })
    (s4.onTrs fun t => { t with od := 0, odSince := none, rets := [] })

def Fw.rolledBack (up bad now : Nat) (f : Fw) : Fw :=
  Fw.setSlot bad 4 { f with
    upd := 6, cur := f.old, pref := f.old.slot, holdAt := if up = 5 then now else f.holdAt, okFrames := 0, allocOk := false }

theorem rollback_eq (cause : Nat) : rollback cause s = emitVault 0xB113 cause s.fw.next.ver 0 0
    (dirWrite ((rollEmptied (rollRestored (rollHeld s))).onFw (Fw.rolledBack s.fw.upd s.fw.next.slot s.now))) := by
  rw [rollback]
  rfl

theorem rollHeld_uncored : (rollHeld s).fw.uncored = { s.fw with handoff := true }.uncored := by
  unfold rollHeld
  extract_lets s2
  have h2 : s2.fw.uncored = { s.fw with handoff := true }.uncored := by
    unfold s2
    split
    · rw [updHold_fw]
    · rw [flipBanks_uncored, updHold_fw]
  rw [← h2, (forList_keeps s2.clusters (fun _ _ hu => (reclaimClu_keeps ..).step (by decide) hu) (.refl _ s2) :
    Keeps [.hm, .hif, .ldg, .trs, .syn] s2 _).fw_eq rfl]

theorem rollHeld_quiet : Quiet 0x22 s (rollHeld s) := by
  unfold rollHeld
  extract_lets s2
  have h2 : Quiet 0x22 s s2 := by
    unfold s2
    split
    · exact updHold_quiet s
    · exact (updHold_quiet s).keeps (flipBanks_keeps _) rfl rfl rfl
  exact h2.forList fun c u => reclaimClu_quiet u 1 c

theorem rollRestored_keeps : Keeps [.loop, .fc, .trs, .tly, .frm] s (rollRestored s) := by
  unfold rollRestored
  split
  · exact (State.onFrm_keeps ..).step (by decide) ((State.onTly_keeps ..).step (by decide) ((State.onTrs_keeps ..).step (by decide)
      ((State.onFc_keeps ..).step (by decide) ((State.onLoop_keeps ..).mono (by decide)))))
  · exact .refl ..

theorem rollEmptied_keeps : Keeps [.trs] s (rollEmptied s) :=
  forList_keeps _ (fun _ _ hu => (State.updTrsCl_keeps ..).step (by decide) hu) (State.onTrs_keeps ..)

theorem rollEmptied_od : (rollEmptied s).trs.od = 0 :=
  forList_eq (fun u => u.trs.od) _ (f := fun c => State.updTrsCl c fun y => { y with lent := 0 }) (fun _ _ => rfl) _

theorem rollEmptied_lent {c : Nat} (hc : c ∈ s.clusters) : ((rollEmptied s).getTrsCl c).lent = 0 := by
  refine forList_est (P := fun u => (u.getTrsCl c).lent = 0) hc (fun j u hu => ?_) (fun u => ?_) _
  · by_cases e : c = j
    · subst e; rw [State.getTrsCl_updTrsCl]
    · rwa [State.getTrsCl_updTrsCl_ne _ _ _ e]
  · rw [State.getTrsCl_updTrsCl]

theorem rollback_fw (cause : Nat) : (rollback cause s).fw.unlisted =
    (Fw.rolledBack s.fw.upd s.fw.next.slot s.now (rollHeld s).fw).unlisted := by
  rw [rollback_eq, (emitVault_keeps ..).fw_eq rfl, dirWrite_unlisted, State.onFw_fw, (rollEmptied_keeps _).fw_eq rfl,
    (rollRestored_keeps _).fw_eq rfl]

/-- R437: what a rollback leaves. -/
theorem rollback_effect (cause : Nat) (hs : s.fw.slotSt.length = 2) (hn : s.fw.next.slot < 2) :
    let t := rollback cause s
    t.fw.upd = 6 ∧ t.fw.cur = s.fw.old ∧ t.fw.pref = s.fw.old.slot ∧ t.fw.slotState s.fw.next.slot = 4 ∧ t.trs.od = 0 ∧
      (∀ c ∈ s.clusters, (t.getTrsCl c).lent = 0) ∧ (QRoom 0x22 s → Logs 0x22 0xB113 cause s.fw.next.ver 0 0 s t) := by
  intro t
  let s4 := rollRestored (rollHeld s)
  let s5 := rollEmptied s4
  let w := dirWrite (s5.onFw (Fw.rolledBack s.fw.upd s.fw.next.slot s.now))
  have ht : t = emitVault 0xB113 cause s.fw.next.ver 0 0 w := rollback_eq s cause
  have hke : Keeps [.hm, .hif, .ldg] w t := by rw [ht]; exact emitVault_keeps ..
  have hk4 : Keeps [.loop, .fc, .trs, .tly, .frm] (rollHeld s) s4 := rollRestored_keeps _
  have hk5 : Keeps [.trs] s4 s5 := rollEmptied_keeps s4
  have hkw : Keeps [.fw] s5 w := (dirWrite_keeps _).step (by decide) (State.onFw_keeps ..)
  have hf : t.fw.unlisted = (Fw.rolledBack s.fw.upd s.fw.next.slot s.now (rollHeld s).fw).unlisted := rollback_fw s cause
  have hheld := rollHeld_uncored s
  have hold : (rollHeld s).fw.old = s.fw.old := (congrArg Fw.old hheld :)
  have htrs : t.trs = s5.trs := (hke.trs_eq rfl).trans (hkw.trs_eq rfl)
  refine ⟨(congrArg Fw.upd hf :), (congrArg Fw.cur hf : t.fw.cur = (rollHeld s).fw.old).trans hold,
    (congrArg Fw.pref hf : t.fw.pref = (rollHeld s).fw.old.slot).trans (congrArg RunImg.slot hold), ?_, ?_, fun c hc => ?_, fun hroom => ?_⟩
  · have hslot : t.fw.slotSt = (rollHeld s).fw.slotSt.set s.fw.next.slot 4 := (congrArg Fw.slotSt hf :)
    have hlen : (rollHeld s).fw.slotSt = s.fw.slotSt := (congrArg Fw.slotSt hheld :)
    rw [Fw.slotState, hslot]
    exact getD_set_self (by rw [hlen]; omega)
  · rw [htrs]
    exact rollEmptied_od s4
  · have hk : Keeps [.frm, .rail, .loop, .hm, .hif, .ldg, .fw, .tly, .fc, .trs, .syn] s t := rollback_keeps ..
    rw [getTrsCl_of_trs htrs]
    exact rollEmptied_lent s4 (by
      rwa [← hk5.clusters_eq rfl, ← hkw.clusters_eq rfl, ← hke.clusters_eq rfl, hk.clusters_eq rfl])
  · rw [ht]
    exact emit_logs_quiet ((((rollHeld_quiet s).keeps hk4 rfl rfl rfl).keeps hk5 rfl rfl rfl).keeps hkw rfl rfl rfl) hroom

/-- R437: a handoff whose digest is wrong rolls back. -/
theorem handoffDone_fails (hs : s.fw.slotSt.length = 2) (hu : s.fw.upd = 2) (hn : s.fw.next.slot < 2) :
    let t := handoffDone false s
    t.fw.upd = 6 ∧ t.fw.cur = s.fw.old ∧ t.fw.pref = s.fw.old.slot ∧ t.fw.slotState s.fw.next.slot = 4 ∧ t.trs.od = 0 ∧
      (∀ c ∈ s.clusters, (t.getTrsCl c).lent = 0) ∧ (QRoom 0x22 s → Logs 0x22 0xB113 0 s.fw.next.ver 0 0 s t) := by
  let s1 := s.onHo fun _ => some s.handedOver
  have ht : handoffDone false s = rollback 0 s1 := by
    rw [handoffDone, if_neg (not_not.mpr hu)]
    rfl
  rw [ht]
  obtain ⟨h1, h2, h3, h4, h5, h6, h7⟩ := rollback_effect s1 0 hs hn
  exact ⟨h1, h2, h3, h4, h5, h6, h7⟩

end Rollback

section Resume
variable (s : State)

/-- The stores of firmware as the image resumes. -/
def Fw.resuming (us : Nat) (f : Fw) : Fw := { f with handoff := false, holdUs := satU 16 us, okFrames := 0, allocOk := false }

/-- The clusters of a live update's hold run again. -/
def unheldAll (s : State) : State := forList (s.clusters.filter fun c => (s.getClu c).holdCause = 0) cluUnhold s

def heldUs (s : State) : Nat := divRoundN (s.now - s.fw.holdAt) nsPerUs

/-- The state in which an image has resumed, before its record. -/
def unpaused (s : State) : State := clrRejoin (clrDrop (railsFree (unheldAll (s.onFw (Fw.resuming (heldUs s))))))

def resumedUp (s : State) : State := (emitVault 0xB111 (heldUs s) 0 0 0 (unpaused s)).onTrs fun t => { t with outOfTurn := true }

theorem resumed_eq (hu : s.fw.upd = 4 ∨ s.fw.upd = 6) :
    resumed s = if s.fw.upd = 4 then (resumedUp s).onFw fun f => { f with upd := 5 } else updEnd 0xB00F (resumedUp s) :=
  if_neg (fun h => by rcases hu with hu | hu <;> simp [hu] at h)

/-- A cluster that leaves HOLD runs. -/
def runClu (x : Clu) : Clu := if x.st = 2 then { x with st := 1 } else x

theorem unheldAll_getClu {k : Nat} (hk : k ∈ s.clusters) (hc : (s.getClu k).holdCause = 0) :
    (unheldAll s).getClu k = runClu (s.getClu k) := by
  have h := forList_entry (State.getClu · k) (f := cluUnhold) (g := runClu) (k := k) (fun _ => cluUnhold_getClu)
    (fun _ hj _ => cluUnhold_getClu_ne (Ne.symm hj)) ((clusters_nodup s).filter fun c => (s.getClu c).holdCause = 0) s
  rwa [if_pos (List.mem_filter.mpr ⟨hk, decide_eq_true hc⟩)] at h

theorem unheldAll_keeps : Keeps [.loop, .hm, .hif, .ldg] s (unheldAll s) :=
  forList_keeps _ (fun _ _ hu => (cluUnhold_keeps ..).step (by decide) hu) (.refl ..)

theorem clrRejoin_between (c : Nat) : Between c s (clrRejoin s) := by
  have h1 : Between c s (drawInc s) := (drawInc_keeps s).between rfl rfl
  unfold clrRejoin
  extract_lets s1
  split
  · exact h1
  · exact (h1.keeps (State.onClr_keeps ..) rfl rfl).forList fun l u => clrStart_between c l u

theorem railsFree_clrDrop_keeps : Keeps [.rail, .clr] s (clrDrop (railsFree s)) :=
  (clrDrop_keeps _).step (by decide) ((railsFree_keeps s).mono (by decide))

theorem unpaused_fw : (unpaused s).fw = Fw.resuming (heldUs s) s.fw := by
  rw [unpaused, (clrRejoin_keeps _).fw_eq rfl, (railsFree_clrDrop_keeps _).fw_eq rfl, (unheldAll_keeps _).fw_eq rfl, State.onFw_fw]

theorem unpaused_quiet : Quiet 0x22 s (unpaused s) := by
  have h1 : Quiet 0x22 s (s.onFw (Fw.resuming (heldUs s))) := (Quiet.refl ..).keeps (State.onFw_keeps ..) rfl rfl rfl
  have h2 : Quiet 0x22 s (unheldAll (s.onFw (Fw.resuming (heldUs s)))) := h1.forList fun c u => cluUnhold_quiet u c
  exact (h2.keeps (railsFree_clrDrop_keeps _) rfl rfl rfl).keeps (clrRejoin_keeps _) rfl rfl rfl

theorem unpaused_between (c : Nat) : Between c s (unpaused s) := by
  have h1 : Between c s (s.onFw (Fw.resuming (heldUs s))) := (State.onFw_keeps ..).between rfl rfl
  have h2 : Between c s (unheldAll (s.onFw (Fw.resuming (heldUs s)))) := h1.forList fun k u => cluUnhold_between c u k
  exact (h2.keeps (railsFree_clrDrop_keeps _) rfl rfl).trans (clrRejoin_between _ c)

theorem unpaused_getClu {k : Nat} (hk : k ∈ s.clusters) (hc : (s.getClu k).holdCause = 0) :
    (unpaused s).getClu k = runClu (s.getClu k) := by
  rw [unpaused, getClu_of_loop ((clrRejoin_keeps _).loop_eq rfl), getClu_of_loop ((railsFree_clrDrop_keeps _).loop_eq rfl)]
  exact unheldAll_getClu (s.onFw (Fw.resuming (heldUs s))) hk hc

theorem resumedUp_keeps : Keeps [.hm, .hif, .ldg, .trs] (unpaused s) (resumedUp s) :=
  (State.onTrs_keeps ..).step (by decide) ((emitVault_keeps ..).mono (by decide))

theorem resumedUp_between (c : Nat) : Between c s (resumedUp s) :=
  ((unpaused_between s c).emit ..).keeps (State.onTrs_keeps ..) rfl rfl

theorem resumedUp_fw : (resumedUp s).fw = Fw.resuming (heldUs s) s.fw := by rw [(resumedUp_keeps s).fw_eq rfl, unpaused_fw]

theorem resumedUp_runs {c : Nat} (hc : c ∈ s.clusters) (h2 : (s.getClu c).st = 2) (h0 : (s.getClu c).holdCause = 0) :
    ((resumedUp s).getClu c).st = 1 := by
  rw [getClu_of_loop ((resumedUp_keeps s).loop_eq rfl), unpaused_getClu s hc h0, runClu, if_pos h2]

theorem resumedUp_logs (hroom : QRoom 0x22 s) : Logs 0x22 0xB111 (heldUs s) 0 0 0 s (resumedUp s) :=
  (emit_logs_quiet (unpaused_quiet s) hroom).before (State.onTrs_keeps (fun t => { t with outOfTurn := true }) _).only (by decide)

/-- R436: the new image resumes. -/
theorem resumed_effect (hu : s.fw.upd = 4) :
    let t := resumed s
    t.fw.upd = 5 ∧ t.fw.handoff = false ∧ t.fw.holdUs = satU 16 (heldUs s) ∧ t.fw.okFrames = 0 ∧
      (∀ c ∈ s.clusters, (s.getClu c).st = 2 → (s.getClu c).holdCause = 0 → (t.getClu c).st = 1) ∧
      (QRoom 0x22 s → Logs 0x22 0xB111 (heldUs s) 0 0 0 s t) := by
  intro t
  have ht : t = (resumedUp s).onFw fun f => { f with upd := 5 } := (resumed_eq s (.inl hu)).trans (if_pos hu)
  have hk : Keeps [.fw] (resumedUp s) t := by rw [ht]; exact State.onFw_keeps ..
  have hf : t.fw = { Fw.resuming (heldUs s) s.fw with upd := 5 } := by rw [ht, State.onFw_fw, resumedUp_fw]
  refine ⟨by rw [hf], by rw [hf]; rfl, by rw [hf]; rfl, by rw [hf]; rfl, fun c hc h2 h0 => ?_, fun hroom => ?_⟩
  · rw [getClu_of_loop (hk.loop_eq rfl)]
    exact resumedUp_runs s hc h2 h0
  · exact (resumedUp_logs s hroom).before hk.only (by decide)

end Resume

section End
variable {s u : State} {q : DescHdr} {st : Nat}

/-- The stores of firmware once a live update has ended. -/
def Fw.updated (f : Fw) : Fw := { f with upd := 0, updHdr := none }

/-- A completion stays written while later writes follow it. -/
theorem completeOne_lasts {h : DescHdr} {c op res : Nat} {v : State} (hb : Between c s u) (g : Posted (completeOne h op st res u) v) :
    Completes h op st (resultOf st res) s v := by
  obtain ⟨ws, hws⟩ := hb.posts
  obtain ⟨vs, hvs⟩ := g
  obtain ⟨adr, e, b, hhm, h1, h2, h3, h4, h5⟩ := completeOne_hm h op st res u
  exact ⟨adr, e, Posts.of_post (a := ws) (b := b ++ vs) (by
    rw [hvs, hhm, hws, HmPort.post_post, HmPort.post_post, List.cons_append]), h1, h2, h3, h4, h5⟩

/-- R436, R437: the end of a live update completes its descriptor. -/
theorem updEnd_effect (hq : u.fw.updHdr = some q) (hb : Between q.ctx.val s u) (hn : NoClose q.ctx.val s) :
    let t := updEnd st u
    (∀ v, Posted t v → Completes q 0xA3 st 0 s v) ∧ t.fw = u.fw.updated ∧ t.ho = none ∧ Keeps [.hm, .hif, .fw, .ho] u t := by
  intro t
  let w := (u.onFw Fw.updated).onHo fun _ => none
  have hkw : Keeps [.fw, .ho] u w := (State.onHo_keeps ..).step (by decide) ((State.onFw_keeps ..).mono (by decide))
  have hbw : Between q.ctx.val s w := hb.keeps hkw rfl rfl
  have ht : t = completeOne q 0xA3 st 0 w := by
    rw [← complete_of_noClose 0xA3 st 0 (hbw.noClose hn)]
    show updEnd st u = _
    rw [updEnd, hq]
    rfl
  have hk : Keeps [.hm, .hif] w t := by rw [ht]; exact completeOne_keeps ..
  refine ⟨fun v g => ?_, (hk.fw_eq rfl).trans rfl, (hk.ho_eq rfl).trans rfl, .step hk (by decide) (hkw.mono (by decide))⟩
  rw [ht] at g
  have hc := completeOne_lasts hbw g
  rwa [resultOf_of_zero] at hc

/-- R437: the old image resumes after a rollback, and the descriptor completes. -/
theorem resumed_rolledBack (hu : s.fw.upd = 6) (hq : s.fw.updHdr = some q) (hn : NoClose q.ctx.val s) :
    let t := resumed s
    t.fw.upd = 0 ∧ t.ho = none ∧ t.fw.handoff = false ∧ t.fw.cur = s.fw.cur ∧ Completes q 0xA3 0xB00F 0 s t ∧
      (∀ c ∈ s.clusters, (s.getClu c).st = 2 → (s.getClu c).holdCause = 0 → (t.getClu c).st = 1) := by
  intro t
  have ht : t = updEnd 0xB00F (resumedUp s) := (resumed_eq s (.inr hu)).trans (if_neg (by omega))
  obtain ⟨hc, hf, hh, hk⟩ := updEnd_effect (st := 0xB00F) (u := resumedUp s) (by rw [resumedUp_fw]; exact hq)
    (resumedUp_between s q.ctx.val) hn
  rw [← ht] at hc hf hh hk
  rw [resumedUp_fw] at hf
  refine ⟨by rw [hf]; rfl, hh, by rw [hf]; rfl, by rw [hf]; rfl, hc t (.refl t), fun c hc h2 h0 => ?_⟩
  rw [getClu_of_loop (hk.loop_eq rfl)]
  exact resumedUp_runs s hc h2 h0

/-- R437: the new image confirms itself. -/
theorem selfConfirmed_effect (hm : s.confirmMay = true) (hq : s.fw.updHdr = some q) (hn : NoClose q.ctx.val s) :
    let t := selfConfirmed s
    t.fw.upd = 0 ∧ t.ho = none ∧ t.fw.cur = s.fw.cur ∧ Completes q 0xA3 0 0 s t ∧
      (QRoom 0x22 s → Logs 0x22 0xB112 (divRoundN (s.now - s.fw.switchAt) nsPerUs) 0 0 0 s t) ∧
      Only [.hm, .hif, .ldg, .fw, .ho] s t := by
  intro t
  let v := s.onFw fun f => { f with confMs := satU 16 (divRoundN (s.now - s.fw.switchAt) 10000) }
  let w := emitVault 0xB112 (divRoundN (s.now - s.fw.switchAt) nsPerUs) 0 0 0 v
  have ht : t = updEnd 0 w := if_neg (by rw [hm]; decide)
  have hkv : Keeps [.fw] s v := State.onFw_keeps ..
  have hke : Keeps [.hm, .hif, .ldg] v w := emitVault_keeps ..
  have hfw : w.fw = v.fw := hke.fw_eq rfl
  obtain ⟨hc, hf, hh, hk⟩ := updEnd_effect (st := 0) (u := w) (by rw [hfw]; exact hq)
    ((hkv.between (c := q.ctx.val) rfl rfl).emit ..) hn
  rw [← ht] at hc hf hh hk
  rw [hfw] at hf
  refine ⟨by rw [hf]; rfl, hh, by rw [hf]; rfl, hc t (.refl t), fun hroom => ?_,
    Keeps.only (.step hk (by decide) (.step hke (by decide) (hkv.mono (by decide))))⟩
  exact (emit_logs_after hkv (by decide) (by decide) (by decide) (by decide) hroom).before hk.only (by decide)

end End

/-- A live update is late: it has not resumed in time. -/
def State.updLate (s : State) : Prop := (s.fw.upd = 2 ∨ s.fw.upd = 4) ∧ s.fw.holdAt + 5000000 ≤ s.now

/-- It has not confirmed itself in time. -/
def State.updSlow (s : State) : Prop := (s.fw.upd = 4 ∨ s.fw.upd = 5) ∧ s.fw.switchAt + 100000000 ≤ s.now

theorem rollbackDue_late {s : State} (h : s.updLate) : rollbackDue s = rollback 1 s := if_pos h

theorem rollbackDue_slow {s : State} (h : ¬ s.updLate) (h' : s.updSlow) : rollbackDue s = rollback 2 s :=
  (if_neg h).trans (if_pos h')

theorem rollbackDue_none {s : State} (h : ¬ s.updLate) (h' : ¬ s.updSlow) : rollbackDue s = s :=
  (if_neg h).trans (if_neg h')

/-- R437: FW_ROLLBACK. -/
theorem fwRollback_effect {s : State} (hl : s.live = true) (hs : s.fw.slotSt.length = 2) :
    (¬ s.updLate → ¬ s.updSlow → exec .fwRollback s = .next s) ∧
    (s.updLate ∨ s.updSlow → s.fw.next.slot < 2 → ∃ t, exec .fwRollback s = .next t ∧ t.fw.upd = 6 ∧ t.fw.cur = s.fw.old ∧
      t.fw.pref = s.fw.old.slot ∧ t.fw.slotState s.fw.next.slot = 4 ∧ t.trs.od = 0 ∧
      (s.updLate → QRoom 0x22 s → Logs 0x22 0xB113 1 s.fw.next.ver 0 0 s t) ∧
      (¬ s.updLate → QRoom 0x22 s → Logs 0x22 0xB113 2 s.fw.next.ver 0 0 s t) ∧
      Only [.frm, .rail, .loop, .hm, .hif, .ep, .ldg, .fw, .tly, .fc, .trs, .syn] s t) := by
  refine ⟨fun h h' => act_eq hl (rollbackDue_none h h'), fun hd hn => ?_⟩
  by_cases h : s.updLate
  · obtain ⟨h1, h2, h3, h4, h5, -, h7⟩ := rollback_effect s 1 hs hn
    exact ⟨_, act_eq hl (rollbackDue_late h), h1, h2, h3, h4, h5, fun _ => h7, fun hn => absurd h hn,
      (rollback_keeps 1 s).only.mono (by decide)⟩
  · obtain ⟨h1, h2, h3, h4, h5, -, h7⟩ := rollback_effect s 2 hs hn
    exact ⟨_, act_eq hl (rollbackDue_slow h (hd.resolve_left h)), h1, h2, h3, h4, h5, fun hy => absurd hy h, fun _ => h7,
      (rollback_keeps 2 s).only.mono (by decide)⟩

/-- Settles O55: a live update is refused or starts, and then holds, hands over, resumes, confirms itself or rolls back. -/
theorem liveUpdateRuns : Obligations.LiveUpdateRuns := by
  intro s h hslots k g
  obtain ⟨hs, -⟩ := hslots
  refine ⟨fun hr => fwLiveUpdate_effect hr, fun hl => ⟨fun hu => act_eq hl (if_pos hu), fun hu => ?_, fun hu b => act_eq hl (if_pos hu),
    fun hu hn => ⟨?_, ?_⟩, fun h4 h6 => act_eq hl (if_pos ⟨h4, h6⟩), fun hu => ?_, fun q hu hq hn => ?_,
    fun hm => act_eq hl (if_pos (by rw [hm]; rfl)), fun q hm hq hn => ⟨_, act_eq hl rfl, selfConfirmed_effect hm hq hn⟩,
    fwRollback_effect hl hs⟩⟩
  · obtain ⟨h1, h2, h3, h4, h5, h6, h7⟩ := prepareDone_effect s hu
    exact ⟨_, act_eq hl rfl, h1, h2, h3, h4, h5, h6, h7, (prepareDone_keeps s).only⟩
  · exact ⟨_, act_eq hl rfl, handoffDone_switches s hs hu hn⟩
  · obtain ⟨h1, h2, h3, h4, h5, h6, h7⟩ := handoffDone_fails s hs hu hn
    exact ⟨_, act_eq hl rfl, h1, h2, h3, h4, h5, h6, h7, (handoffDone_keeps false s).only.mono (by decide)⟩
  · obtain ⟨h1, h2, h3, h4, h5, h6⟩ := resumed_effect s hu
    exact ⟨_, act_eq hl rfl, h1, h2, h3, h4, h5, h6, (resumed_keeps s).only⟩
  · obtain ⟨h1, h2, h3, h4, h5, h6⟩ := resumed_rolledBack hu hq hn
    exact ⟨_, act_eq hl rfl, h1, h2, h3, h4, h5, h6, (resumed_keeps s).only⟩

end Sys2Proof.Machine
end

section

/-! Firmware cores under their watchdogs, asleep and awake, and Vault's restarts (R415, R416, R419). -/

namespace Sys2Proof.Machine

section Loops
variable {c j k : Nat} {s : State}

theorem updLp_reform (i : Nat) (h : (s.getLoop k).reform = true) :
    ((s.updLp c i fun l => { l with reform := true }).getLoop k).reform = true := by
  unfold State.updLp
  by_cases e : k = 8 * c + i
  · subst e; rw [State.getLoop_updLoop]
  · rwa [State.getLoop_updLoop_ne _ _ _ e]

theorem presetLoops_reform_kept (h : (s.getLoop k).reform = true) : ((presetLoops c s).getLoop k).reform = true :=
  forList_ind (P := fun u => (u.getLoop k).reform = true) (fun i _ _ hu => updLp_reform i hu) h

theorem presetLoops_reform (hj : j < 6) : ((presetLoops c s).getLp c j).reform = true :=
  forList_est (P := fun u => (u.getLoop (8 * c + j)).reform = true) (f := fun i => State.updLp c i fun l => { l with reform := true })
    (List.mem_range.mpr hj) (fun i _ hu => updLp_reform i hu) (fun u => by
      unfold State.updLp
      rw [State.getLoop_updLoop]) s

end Loops

section Hang
variable {s : State} {k t : Nat}

/-- A core's watchdog has counted a hang. -/
def hangCounted (k : Nat) (s : State) : State :=
  emitVault 0xB120 k (if k < 32 then s.partner k else 0xFF) 0 0 (s.updFwCore k fun y => { y with hangs := satInc 16 y.hangs })

/-- The watchdog of a core that is out, asleep or failed does not count. -/
def State.coreIdle (s : State) (k : Nat) : Prop :=
  s.fw.run = false ∨ (s.getFwCore k).st = 0 ∨ (s.getFwCore k).st = 2 ∨ (s.getFwCore k).st = 5 ∨
    (k < 32 ∧ (s.getUnit (audIdx 1 k)).st ≠ 0)

theorem coreHang_idle_iff : (!s.fw.run || decide ((s.getFwCore k).st = 0 ∨ (s.getFwCore k).st = 2 ∨ (s.getFwCore k).st = 5) ||
    decide (k < 32 ∧ (s.getUnit (audIdx 1 k)).st ≠ 0)) = true ↔ s.coreIdle k := by
  simp only [State.coreIdle, Bool.or_eq_true, Bool.not_eq_true', decide_eq_true_eq, or_assoc]

theorem coreHang_idle (h : s.coreIdle k) : coreHang k s = s := if_pos (coreHang_idle_iff.mpr h)

theorem coreHang_awake (h : ¬ s.coreIdle k) : coreHang k s =
    if s.fw.upd = 4 ∨ s.fw.upd = 5 then rollback 3 (hangCounted k s)
    else if 32 ≤ k then warmReset 4 (hangCounted k s) else tellerHang k (hangCounted k s) :=
  if_neg (fun hb => h (coreHang_idle_iff.mp hb))

theorem hangCounted_keeps (k : Nat) (s : State) : Keeps [.hm, .hif, .ldg, .fw] s (hangCounted k s) :=
  (emitVault_keeps ..).step (by decide) ((State.updFwCore_keeps ..).mono (by decide))

theorem hangCounted_fw (k : Nat) (s : State) :
    (hangCounted k s).fw = (s.updFwCore k fun y => { y with hangs := satInc 16 y.hangs }).fw := (emitVault_keeps ..).fw_eq rfl

theorem hangCounted_uncored (k : Nat) (s : State) : (hangCounted k s).fw.uncored = s.fw.uncored := by
  rw [hangCounted_fw]
  rfl

theorem hangCounted_getFwCore (k : Nat) (s : State) :
    (hangCounted k s).getFwCore k = { s.getFwCore k with hangs := satInc 16 (s.getFwCore k).hangs } := by
  rw [getFwCore_of_fw (hangCounted_fw k s), State.getFwCore_updFwCore]

theorem hangCounted_getFwCore_ne {j : Nat} (hj : j ≠ k) : (hangCounted k s).getFwCore j = s.getFwCore j := by
  rw [getFwCore_of_fw (hangCounted_fw k s), State.getFwCore_updFwCore_ne _ _ _ hj]

/-- A count of hangs changes no core's state. -/
theorem hangCounted_st (j : Nat) : ((hangCounted k s).getFwCore j).st = (s.getFwCore j).st := by
  by_cases e : j = k
  · subst e; rw [hangCounted_getFwCore]
  · rw [hangCounted_getFwCore_ne e]

theorem hangCounted_logs (hroom : QRoom 0x22 s) :
    Logs 0x22 0xB120 k (if k < 32 then s.partner k else 0xFF) 0 0 s (hangCounted k s) :=
  emit_logs_after (State.updFwCore_keeps ..) (by decide) (by decide) (by decide) (by decide) hroom

/-- What a firmware core has counted. -/
def State.hangs (s : State) (k : Nat) : Nat := (s.getFwCore k).hangs

theorem hangs_of_fw {u : State} (h : u.fw = s.fw) : u.hangs k = s.hangs k := congrArg FwCore.hangs (getFwCore_of_fw h k)

theorem hangs_updFwCore {f : FwCore → FwCore} (j : Nat) (hf : ∀ x, (f x).hangs = x.hangs) : (s.updFwCore j f).hangs k = s.hangs k := by
  by_cases e : k = j
  · subst e
    rw [State.hangs, State.getFwCore_updFwCore]
    exact hf _
  · rw [State.hangs, State.getFwCore_updFwCore_ne _ _ _ e]
    rfl

theorem flipBanks_hangs : (flipBanks s).hangs k = s.hangs k :=
  forList_eq (fun u => u.hangs k) _ (f := fun k => State.updFwCore k fun x => { x with bank := !x.bank })
    (fun j _ => hangs_updFwCore j fun _ => rfl) s

theorem warmCores_hangs : (warmCores s).hangs k = s.hangs k :=
  forList_eq (fun u => u.hangs k) _ (f := fun k t => t.updFwCore k fun x => if x.st = 0 ∨ t.coreOut k then x else { x with st := 3 })
    (fun j _ => hangs_updFwCore j fun x => by split <;> rfl) s

theorem rollHeld_hangs : (rollHeld s).hangs k = s.hangs k := by
  have h1 : (updHold s).hangs k = s.hangs k := by
    rw [State.hangs, State.getFwCore, updHold_fw]
    rfl
  unfold rollHeld
  extract_lets s2
  have h2 : s2.hangs k = s.hangs k := by
    unfold s2
    split
    · exact h1
    · rw [flipBanks_hangs, h1]
  rw [← h2]
  exact hangs_of_fw ((forList_keeps s2.clusters (fun _ _ hu => (reclaimClu_keeps ..).step (by decide) hu) (.refl _ s2) :
    Keeps [.hm, .hif, .ldg, .trs, .syn] s2 _).fw_eq rfl)

theorem rollback_hangs (cause : Nat) : (rollback cause s).hangs k = s.hangs k := by
  have hcore : (rollback cause s).fw.core = (rollHeld s).fw.core := (congrArg Fw.core (rollback_fw s cause) :)
  rw [State.hangs, State.getFwCore, hcore]
  exact rollHeld_hangs

theorem warmReset_hangs (cause : Nat) : (warmReset cause s).hangs k = s.hangs k := by
  have hclear : ∀ u, (warmClear u).hangs k = u.hangs k := fun u => by
    have g : Keeps [.loop, .trs, .hm, .dma, .tly, .fc, .clr] u (clrDrop (warmFc (warmTly (warmDma (warmTrs (warmLoops u)))))) :=
      (clrDrop_keeps _).step (by decide) <| (warmFc_keeps _).step (by decide) <|
        (warmTly_keeps _).step (by decide) <| (warmDma_keeps _).step (by decide) <| (warmTrs_keeps _).step (by decide) <|
          (warmLoops_keeps u).mono (by decide)
    rw [warmClear, warmCores_hangs]
    exact hangs_of_fw (g.fw_eq rfl)
  have hf : (warmFlushed cause s).fw = (warmMark cause s).fw := by
    rw [(warmFlushed_after ..).fw_eq rfl, (warmHold_keeps _).fw_eq rfl, (warmRecord_keeps ..).fw_eq rfl]
  rw [warmReset_eq_flushed]
  exact (hangs_of_fw (State.onHif_fw ..)).trans ((hclear _).trans ((hangs_of_fw hf).trans rfl))

end Hang

section Teller
variable {s : State} {k t : Nat}

/-- A Teller comes back whose test its partner's hang has ended. -/
def partnerBack (k : Nat) (u : State) : State :=
  let u1 := match u.aud.test with
    | some a => if a.kind = 1 ∧ a.idx = k then audAbandon 4 u else u
    | none => u
  if (u1.getUnit (audIdx 1 k)).st = 4 then u1 else audBack 1 k u1

/-- What a hang leaves of its own Teller. -/
structure TellerKept (t : Nat) (s u : State) : Prop where
  core : u.getFwCore t = s.getFwCore t
  loops : ∀ j, (s.getLoop j).reform = true → (u.getLoop j).reform = true
  run : u.fw.run = s.fw.run

theorem TellerKept.trans {r u : State} (h : TellerKept t r s) (g : TellerKept t s u) : TellerKept t r u :=
  ⟨g.core.trans h.core, fun j hj => g.loops j (h.loops j hj), g.run.trans h.run⟩

theorem TellerKept.of_keeps {ps : List Area} {u : State} (g : Keeps ps s u) (hf : ps.contains .fw = false) (hl : ps.contains .loop = false) :
    TellerKept t s u :=
  ⟨getFwCore_of_fw (g.fw_eq hf) t, fun j hj => by rwa [getLoop_of_loop (g.loop_eq hl)], congrArg Fw.run (g.fw_eq hf)⟩

theorem unitBack_teller (hk : t ≠ k) (s : State) : TellerKept t s (unitBack 1 k s) := by
  have he : unitBack 1 k s = presetLoops k (s.updFwCore k fun x => { x with st := 1, moveFrom := s.frm.count + 1 }) := rfl
  have hp := presetLoops_keeps k (s.updFwCore k fun x => { x with st := 1, moveFrom := s.frm.count + 1 })
  rw [he]
  refine ⟨?_, fun j hj => presetLoops_reform_kept (show ((s.updFwCore k _).getLoop j).reform = true from hj), ?_⟩
  · rw [getFwCore_of_fw (hp.fw_eq rfl), State.getFwCore_updFwCore_ne _ _ _ hk]
  · rw [hp.fw_eq rfl]
    rfl

theorem audBack_teller (hk : t ≠ k) (s : State) : TellerKept t s (audBack 1 k s) := by
  have h1 : TellerKept t (unitBack 1 k s) ((unitBack 1 k s).updUnit (audIdx 1 k) fun u => { u with st := 0 }) :=
    .of_keeps (State.updUnit_keeps ..) rfl rfl
  exact ((unitBack_teller hk s).trans h1).trans (.of_keeps (emitClerk_keeps ..) rfl rfl)

theorem partnerBack_teller (hk : t ≠ k) (s : State) : TellerKept t s (partnerBack k s) := by
  unfold partnerBack
  extract_lets u1
  have h1 : TellerKept t s u1 := by
    unfold u1
    split
    · split
      · exact .of_keeps (audAbandon_keeps ..) rfl rfl
      · exact .of_keeps (.refl [] s) rfl rfl
    · exact .of_keeps (.refl [] s) rfl rfl
  split
  · exact h1
  · exact h1.trans (audBack_teller hk u1)

theorem partnerHang_teller (t : Nat) (s : State) : TellerKept t s (partnerHang t s) := by
  have hne : ∀ k ∈ (s.covers t).filter fun k => (s.getUnit (audIdx 1 k)).st ≠ 0, t ≠ k := fun k hk e => by
    have hc := (List.mem_filter.mp (List.mem_filter.mp hk).1).2
    simp [e] at hc
  exact forList_ind (P := TellerKept t s) (f := partnerBack) (fun k hk u hu => hu.trans (partnerBack_teller (hne k hk) u))
    (.of_keeps (.refl [] s) rfl rfl)

/-- The state of a Teller after a hang: it fails at its second within a second, and is covered where its partner is free. -/
def hungState (again free : Bool) : Nat := if again then 5 else if free then 4 else 3

/-- The last hang was within 1 s. -/
def FwCore.hungLately (now : Nat) (x : FwCore) : Bool := match x.lastHang with | some a => decide (now < a + nsPerS) | none => false

theorem any_within (o : Option Nat) (now c : Nat) :
    (match o with | some a => decide (now < a + c) | none => false) = o.any fun a => decide (now < a + c) := by
  cases o <;> rfl

theorem hungLately_eq (now : Nat) (x : FwCore) : x.hungLately now = x.lastHang.any fun a => decide (now < a + 1000000000) := by
  have hc : nsPerS = 1000000000 := rfl
  refine (any_within x.lastHang now nsPerS).trans ?_
  generalize nsPerS = c at hc
  rw [hc]

/-- A Teller restarts. -/
def coreRestarted (now count : Nat) (free : Bool) (x : FwCore) : FwCore :=
  { x with st := hungState (x.hungLately now) free, lastHang := some now, backFrom := count + 1,
           moveFrom := if x.st = 4 then x.moveFrom else count + 1 }

def tellerRestarted (t : Nat) (s : State) : State :=
  let x := s.getFwCore t
  s.updFwCore t fun y => { y with
    st := hungState (x.hungLately s.now) (s.partnerFree t), lastHang := some s.now, backFrom := s.frm.count + 1,
    moveFrom := if x.st = 4 then y.moveFrom else s.frm.count + 1 }

theorem tellerHang_eq (t : Nat) (s : State) : tellerHang t s = partnerHang t (presetLoops t (tellerRestarted t s)) := rfl

theorem tellerRestarted_core (t : Nat) (s : State) :
    (tellerRestarted t s).getFwCore t = coreRestarted s.now s.frm.count (s.partnerFree t) (s.getFwCore t) :=
  State.getFwCore_updFwCore ..

theorem partnerFree_hangCounted (k : Nat) (s : State) : (hangCounted k s).partnerFree k = s.partnerFree k := by
  unfold State.partnerFree
  simp only [hangCounted_st, (hangCounted_keeps k s).cfg_eq rfl]

/-- R415: FW_CORE_HANG of a Teller. -/
theorem tellerHang_effect (hi : ¬ s.coreIdle k) (hk : k < 32) (h4 : s.fw.upd ≠ 4) (h5 : s.fw.upd ≠ 5) :
    let t := coreHang k s
    (t.getFwCore k).hangs = satInc 16 (s.getFwCore k).hangs ∧ (t.getFwCore k).lastHang = some s.now ∧
      (t.getFwCore k).st = hungState ((s.getFwCore k).lastHang.any fun a => decide (s.now < a + 1000000000)) (s.partnerFree k) ∧
      (∀ j < 6, (t.getLp k j).reform = true) ∧ t.fw.run = s.fw.run ∧
      (QRoom 0x22 s → Logs 0x22 0xB120 k (s.partner k) 0 0 s t) := by
  intro t
  let u := hangCounted k s
  let v := presetLoops k (tellerRestarted k u)
  have ht : t = partnerHang k v :=
    (coreHang_awake hi).trans ((if_neg (by omega)).trans ((if_neg (by omega)).trans (tellerHang_eq k u)))
  have hku : Keeps [.hm, .hif, .ldg, .fw] s u := hangCounted_keeps k s
  have hkr : Keeps [.fw] u (tellerRestarted k u) := State.updFwCore_keeps ..
  have hkp : Keeps [.loop] (tellerRestarted k u) v := presetLoops_keeps ..
  have hkept : TellerKept k v t := ht ▸ partnerHang_teller k v
  have hcore : t.getFwCore k = coreRestarted s.now u.frm.count (s.partnerFree k)
      { s.getFwCore k with hangs := satInc 16 (s.getFwCore k).hangs } := by
    rw [hkept.core, getFwCore_of_fw (hkp.fw_eq rfl), tellerRestarted_core, hangCounted_getFwCore, partnerFree_hangCounted,
      hku.now_eq rfl]
  refine ⟨by rw [hcore]; rfl, by rw [hcore]; rfl, ?_, fun j hj => hkept.loops _ (presetLoops_reform hj), ?_, fun hroom => ?_⟩
  · rw [hcore, ← hungLately_eq]
    rfl
  · rw [hkept.run, hkp.fw_eq rfl]
    exact (congrArg Fw.run (hangCounted_uncored k s) :)
  · have hkt : Keeps [.pwr, .clk, .sns, .rail, .loop, .hm, .hif, .ldg, .fw, .tly, .fc, .trs, .aud] v t := ht ▸ partnerHang_keeps ..
    have hlog := hangCounted_logs (k := k) hroom
    rw [if_pos hk] at hlog
    exact ((hlog.before hkr.only (by decide)).before hkp.only (by decide)).before hkt.only (by decide)

/-- R415: FW_CORE_HANG of the Treasury core or the Clerk. -/
theorem coreHang_resets (hi : ¬ s.coreIdle k) (hk : 32 ≤ k) (h4 : s.fw.upd ≠ 4) (h5 : s.fw.upd ≠ 5) :
    let t := coreHang k s
    t.pwr.cause = 4 ∧ t.fw.run = false ∧ t.pwr.emuReady = false ∧ (t.getFwCore k).hangs = satInc 16 (s.getFwCore k).hangs ∧
      (∀ j, (t.getCtx j).st = 0) ∧ ∀ j ∈ s.clusters, (s.getClu j).st = 1 → (t.getClu j).st = 2 := by
  intro t
  let u := hangCounted k s
  have ht : t = warmReset 4 u := (coreHang_awake hi).trans ((if_neg (by omega)).trans (if_pos hk))
  have hku : Keeps [.hm, .hif, .ldg, .fw] s u := hangCounted_keeps k s
  have hpwr : t.pwr = (warmMark 4 u).pwr := by rw [ht, warmReset_pwr]
  refine ⟨by rw [hpwr]; rfl, by rw [ht, warmReset_run], by rw [hpwr]; rfl, ?_, fun j => ?_, fun j hj h1 => ?_⟩
  · rw [ht]
    refine (warmReset_hangs (k := k) (s := u) 4).trans ?_
    rw [State.hangs, hangCounted_getFwCore]
  · rw [ht, warmReset_eq_flushed]
    rfl
  · have hph := warmReset_phase 4 u j
    rw [hku.clusters_eq rfl, getClu_of_loop (hku.loop_eq rfl), if_pos ⟨hj, h1⟩, ← ht] at hph
    exact (congrArg Prod.fst hph :)

/-- R415, R437: FW_CORE_HANG while a new image is on trial. -/
theorem coreHang_rollsBack (hi : ¬ s.coreIdle k) (hu : s.fw.upd = 4 ∨ s.fw.upd = 5) :
    let t := coreHang k s
    t.fw.upd = 6 ∧ t.fw.cur = s.fw.old ∧ t.fw.pref = s.fw.old.slot ∧ (t.getFwCore k).hangs = satInc 16 (s.getFwCore k).hangs := by
  intro t
  let u := hangCounted k s
  have ht : t = rollback 3 u := (coreHang_awake hi).trans (if_pos hu)
  have hold : (rollHeld u).fw.old = s.fw.old :=
    (congrArg Fw.old (rollHeld_uncored u) : _).trans (congrArg Fw.old (hangCounted_uncored k s) :)
  have hf := rollback_fw u 3
  rw [← ht] at hf
  refine ⟨(congrArg Fw.upd hf :), (congrArg Fw.cur hf : t.fw.cur = (rollHeld u).fw.old).trans hold,
    (congrArg Fw.pref hf : t.fw.pref = (rollHeld u).fw.old.slot).trans (congrArg RunImg.slot hold), ?_⟩
  rw [ht]
  refine (rollback_hangs (k := k) (s := u) 3).trans ?_
  rw [State.hangs, hangCounted_getFwCore]

end Teller

section Back
variable {s : State} {c : Nat}

/-- A Teller may take its clusters back. -/
def State.coreReturns (s : State) (c : Nat) : Prop :=
  s.fwUp = true ∧ s.frm.inFrame = false ∧ ((s.getFwCore c).st = 3 ∨ (s.getFwCore c).st = 4) ∧ (s.getUnit (audIdx 1 c)).st = 0 ∧
    (s.getFwCore c).backFrom + 1024 ≤ s.frm.count

theorem coreReturns_iff : (s.fwUp && !s.frm.inFrame && decide ((s.getFwCore c).st = 3 ∨ (s.getFwCore c).st = 4) &&
    decide ((s.getUnit (audIdx 1 c)).st = 0) && decide ((s.getFwCore c).backFrom + 1024 ≤ s.frm.count)) = true ↔ s.coreReturns c := by
  simp only [State.coreReturns, Bool.and_eq_true, Bool.not_eq_true', decide_eq_true_eq, and_assoc]

theorem coreBack_waits (h : ¬ s.coreReturns c) : coreBack c s = s := if_neg (fun hb => h (coreReturns_iff.mp hb))

/-- R415: FW_CORE_BACK. -/
theorem coreBack_effect (h : s.coreReturns c) :
    let t := coreBack c s
    (t.getFwCore c).st = 1 ∧ (∀ j < 6, (t.getLp c j).reform = true) ∧ (∀ j, j ≠ c → t.getFwCore j = s.getFwCore j) ∧
      (QRoom 0x22 s → Logs 0x22 0xB121 c 0 0 0 s t) ∧ Only [.loop, .hm, .hif, .ldg, .fw] s t := by
  intro t
  let u := s.updFwCore c fun y => { y with st := 1, moveFrom := s.frm.count }
  let v := presetLoops c u
  have ht : t = emitVault 0xB121 c 0 0 0 v := if_pos (coreReturns_iff.mpr h)
  have hkv : Keeps [.loop] u v := presetLoops_keeps ..
  have hke : Keeps [.hm, .hif, .ldg] v t := by rw [ht]; exact emitVault_keeps ..
  have hfw : t.fw = u.fw := (hke.fw_eq rfl).trans (hkv.fw_eq rfl)
  have hks : Keeps [.loop, .fw] s v := .step hkv (by decide) ((State.updFwCore_keeps ..).mono (by decide))
  refine ⟨?_, fun j hj => ?_, fun j hj => ?_, fun hroom => ?_, Keeps.only (.step hke (by decide) (hks.mono (by decide)))⟩
  · rw [getFwCore_of_fw hfw, State.getFwCore_updFwCore]
  · rw [getLp_of_loop (hke.loop_eq rfl)]
    exact presetLoops_reform hj
  · rw [getFwCore_of_fw hfw, State.getFwCore_updFwCore_ne _ _ _ hj]
  · rw [ht]
    exact emit_logs_after hks (by decide) (by decide) (by decide) (by decide) hroom

end Back

section Sleep
variable {s : State} {c : Nat}

/-- A record stored stays in no Teller's queue. -/
theorem ldgTake_quiet (hc : c < 32) (r : LRec) (s : State) : Quiet c s (ldgTake r s) := by
  have hon : ∀ (f : Ledger → Ledger) (u : State), (f u.ldg).queues = u.ldg.queues → Quiet c u (u.onLdg f) := fun f u h =>
    ⟨rfl, rfl, congrArg (Tbl.get [] · c) h⟩
  unfold ldgTake
  extract_lets l f lost
  split
  · exact hon _ _ rfl
  · split
    · exact (hon _ _ rfl).trans (evtDeliver_quiet (fun x u hx => emitRec_quiet 3 x u hx) (by omega) (by omega) f 0 _)
    · exact hon _ _ rfl

/-- A flush leaves a Teller's queue empty. -/
theorem ldgFlush_empties (hc : c < 32) (s : State) : Tbl.get [] (ldgFlush c s).ldg.queues c = [] := by
  let s1 := s.onLdg fun l => { l with queues := Tbl.set [] l.queues c [] }
  have hs : Tbl.get [] s1.ldg.queues c = [] := by
    rw [State.onLdg_ldg]
    dsimp only
    exact Tbl.get_set_self (d := ([] : List LRec)) ..
  have hfold : ∀ (l : List LRec) (u : State), Quiet c u (l.foldl (fun t r => ldgTake r t) u) := fun l => by
    induction l with
    | nil => exact fun u => .refl c u
    | cons x l ih => exact fun u => (ldgTake_quiet hc x u).trans (ih _)
  rw [ldgFlush, (hfold _ s1).queue, hs]

/-- A Teller may sleep. -/
def State.sleeps (s : State) (c : Nat) : Prop := s.fwUp = true ∧ (s.getFwCore c).st = 1 ∧ s.mayRest c = true

theorem sleeps_iff : (s.fwUp && decide ((s.getFwCore c).st = 1) && s.mayRest c) = true ↔ s.sleeps c := by
  simp only [State.sleeps, Bool.and_eq_true, decide_eq_true_eq, and_assoc]

theorem enterLp_awake (h : ¬ s.sleeps c) : enterLp c s = s := if_neg (fun hb => h (sleeps_iff.mp hb))

/-- R416: ENTER_LP. -/
theorem enterLp_effect (hc : c < 32) (h : s.sleeps c) :
    let t := enterLp c s
    (t.getFwCore c).st = 2 ∧ (t.getFwCore c).sleepAt = s.now ∧ (∀ j, j ≠ c → t.getFwCore j = s.getFwCore j) ∧
      Tbl.get [] t.ldg.queues c = [] ∧ Only [.hm, .hif, .ldg, .fw, .queues] s t := by
  intro t
  let e := emitTeller c 0xA812 (s.servedMask c) 0 0 0 (ldgFlush c s)
  let u := ldgFlush c e
  have ht : t = u.updFwCore c fun y => { y with st := 2, sleepAt := s.now } := if_pos (sleeps_iff.mpr h)
  have hku : Keeps [.hm, .hif, .ldg, .queues] s u := .step (ldgFlush_keeps ..) (by decide)
    (.step (emitTeller_keeps ..) (by decide) (ldgFlush_keeps ..))
  have hfw : u.fw = s.fw := hku.fw_eq rfl
  have hkt : Keeps [.fw] u t := by rw [ht]; exact State.updFwCore_keeps ..
  refine ⟨by rw [ht, State.getFwCore_updFwCore], by rw [ht, State.getFwCore_updFwCore], fun j hj => ?_, ?_,
    Keeps.only (.step hkt (by decide) (hku.mono (by decide)))⟩
  · rw [ht, State.getFwCore_updFwCore_ne _ _ _ hj, getFwCore_of_fw hfw]
  · rw [hkt.ldg_eq rfl]
    exact ldgFlush_empties hc e

/-- R416: EXIT_LP. -/
theorem exitLp_effect (hc : c < 32) (h : (s.getFwCore c).st = 2) :
    let t := exitLp c s
    (t.getFwCore c).st = 1 ∧ (∀ j, j ≠ c → t.getFwCore j = s.getFwCore j) ∧
      (QRoom c s → Logs c 0xA813 (satU 32 (s.now - (s.getFwCore c).sleepAt)) (s.servedMask c) 0 0 s t) ∧
      Only [.clk, .loop, .hm, .hif, .ldg, .fw] s t := by
  intro t
  let u := s.updFwCore c fun y => { y with st := 1 }
  let e := emitTeller c 0xA813 (satU 32 (s.now - (s.getFwCore c).sleepAt)) (s.servedMask c) 0 0 u
  have ht : t = restartAll e := if_pos h
  have hku : Keeps [.fw] s u := State.updFwCore_keeps ..
  have hke : Keeps [.hm, .hif, .ldg] u e := emitTeller_keeps ..
  have hkt : Keeps [.clk, .loop, .hm, .hif, .ldg] e t := by rw [ht]; exact restartAll_keeps e
  have hfw : t.fw = u.fw := (hkt.fw_eq rfl).trans (hke.fw_eq rfl)
  refine ⟨by rw [getFwCore_of_fw hfw, State.getFwCore_updFwCore],
    fun j hj => by rw [getFwCore_of_fw hfw, State.getFwCore_updFwCore_ne _ _ _ hj], fun hroom => ?_,
    Keeps.only (.step hkt (by decide) (.step hke (by decide) (hku.mono (by decide))))⟩
  have hsrc : c % 32 = c := Nat.mod_eq_of_lt hc
  have hlog : Logs c 0xA813 (satU 32 (s.now - (s.getFwCore c).sleepAt)) (s.servedMask c) 0 0 s e := by
    unfold e emitTeller
    rw [hsrc]
    exact emit_logs_after hku (by decide) (by decide) (by decide) (by decide) hroom
  exact hlog.before hkt.only (by decide)

end Sleep

section Vault
variable {s : State} {r : Nat} {q : DescHdr}

/-- The stores of firmware once Vault has restarted, and once it has entered ERROR. -/
def Fw.vaultDown (f : Fw) : Fw :=
  { f with vault := { f.vault with ready := false, restarts := satInc 16 f.vault.restarts, nonce := none } }

def Fw.vaultDead (f : Fw) : Fw := { f with vault := { f.vault with ready := false, error := true } }

/-- R419: Vault's ERROR. -/
theorem vaultError_effect (r : Nat) (h : s.fw.vault.error = false) :
    let t := vaultError r s
    t.fw = nonceUsed s.fw.vaultDead ∧ bitOf t.pwr.alarm 13 = true ∧
      (QRoom 0x22 s → Logs 0x22 0xB130 r 0 0 0 s t) ∧ Keeps [.pwr, .hm, .hif, .ldg, .fw] s t := by
  intro t
  let u := s.onFw Fw.vaultDead
  let e := emitVault 0xB130 r 0 0 0 u
  let w := vaultWipe e
  have ht : t = setAlarm 13 w := if_neg (by rw [h]; decide)
  have hku : Keeps [.fw] s u := State.onFw_keeps ..
  have hke : Keeps [.hm, .hif, .ldg] u e := emitVault_keeps ..
  have hkw : Keeps [.hm, .hif, .ldg, .fw] e w := vaultWipe_keeps e
  have hkt : Keeps [.pwr] w t := by rw [ht]; exact setAlarm_keeps ..
  refine ⟨?_, by rw [ht, bitOf_setAlarm], fun hroom => ?_,
    .step hkt (by decide) (.step hkw (by decide) (.step hke (by decide) (hku.mono (by decide))))⟩
  · rw [hkt.fw_eq rfl, vaultWipe_fw, hke.fw_eq rfl, State.onFw_fw]
  · exact ((emit_logs_after hku (by decide) (by decide) (by decide) (by decide) hroom).before hkw.only (by decide)).before
      hkt.only (by decide)

/-- Vault has restarted and recorded what its tests gave. -/
def vaultHung (r : Nat) (s : State) : State := emitVault 0xB122 r 0 0 0 (vaultRestart s)

theorem vaultHung_keeps (r : Nat) (s : State) : Keeps [.hm, .hif, .ldg, .fw] s (vaultHung r s) :=
  (emitVault_keeps ..).step (by decide) ((vaultRestart_keeps s).mono (by decide))

theorem vaultHung_fw (r : Nat) (s : State) : (vaultHung r s).fw = s.fw.vaultDown :=
  ((emitVault_keeps ..).fw_eq rfl).trans (State.onFw_fw ..)

theorem vaultHang_eq (r : Nat) (s : State) : vaultHang r s =
    let s2 := if s.fw.upd = 1 then updEnd 0xB006 (vaultHung r s) else vaultHung r s
    if r ≠ 0 then vaultError r s2 else s2 := by
  have hu : (vaultHung r s).fw.upd = s.fw.upd := by rw [vaultHung_fw]; rfl
  show (let s2 := if (vaultHung r s).fw.upd = 1 then updEnd 0xB006 (vaultHung r s) else vaultHung r s
    if r ≠ 0 then vaultError r s2 else s2) = _
  rw [hu]

/-- R415: FW_VAULT_RESTART outside the start of a live update. -/
theorem vaultHang_effect (hu : s.fw.upd ≠ 1) (he : s.fw.vault.error = false) :
    let t := vaultHang r s
    t.fw.vault.ready = false ∧ t.fw.vault.restarts = satInc 16 s.fw.vault.restarts ∧ t.fw.vault.nonce = none ∧
      t.fw.vault.error = decide (r ≠ 0) ∧ (r ≠ 0 → bitOf t.pwr.alarm 13 = true) ∧
      (QRoom 0x22 s → Logs 0x22 0xB122 r 0 0 0 s t) ∧ Only [.pwr, .hm, .hif, .ldg, .fw] s t := by
  intro t
  have hk1 : Keeps [.hm, .hif, .ldg, .fw] s (vaultHung r s) := vaultHung_keeps r s
  have hf := vaultHung_fw r s
  have hlog : QRoom 0x22 s → Logs 0x22 0xB122 r 0 0 0 s (vaultHung r s) := fun hroom =>
    emit_logs_after (vaultRestart_keeps s) (by decide) (by decide) (by decide) (by decide) hroom
  have ht : t = if r ≠ 0 then vaultError r (vaultHung r s) else vaultHung r s := by
    show vaultHang r s = _
    rw [vaultHang_eq, if_neg hu]
  by_cases hr : r = 0
  · rw [if_neg (not_not.mpr hr)] at ht
    rw [ht, hf]
    exact ⟨rfl, rfl, rfl, by rw [hr]; exact he, fun h => absurd hr h, hlog, hk1.only.mono (by decide)⟩
  · rw [if_pos hr] at ht
    obtain ⟨g1, g2, -, g4⟩ := vaultError_effect (s := vaultHung r s) r (by rw [hf]; exact he)
    rw [← ht] at g1 g2 g4
    rw [hf] at g1
    exact ⟨by rw [g1]; rfl, by rw [g1]; rfl, by rw [g1]; rfl, by rw [g1, decide_eq_true hr]; rfl, fun _ => g2,
      fun hroom => (hlog hroom).before g4.only (by decide), Keeps.only (.step g4 (by decide) (hk1.mono (by decide)))⟩

theorem vaultError_posted (r : Nat) (s : State) : Posted s (vaultError r s) := by
  unfold vaultError
  extract_lets s1
  split
  · exact .refl s
  · have h1 : Between 0 s s1 := (State.onFw_keeps ..).between rfl rfl
    have h2 : Between 0 s (vaultWipe (emitVault 0xB130 r 0 0 0 s1)) :=
      ((h1.emit ..).keeps (State.onFw_keeps ..) rfl rfl).emit ..
    exact (h2.keeps (setAlarm_keeps ..) rfl rfl).posts

/-- R415, R437: FW_VAULT_RESTART at the start of a live update ends it. -/
theorem vaultHang_ends (hu : s.fw.upd = 1) (hq : s.fw.updHdr = some q) (hn : NoClose q.ctx.val s) :
    let t := vaultHang r s
    t.fw.upd = 0 ∧ t.fw.vault.ready = false ∧ t.fw.cur = s.fw.cur ∧ Completes q 0xA3 0xB006 0 s t := by
  intro t
  have hb : Between q.ctx.val s (vaultHung r s) := ((vaultRestart_keeps s).between rfl rfl).emit ..
  obtain ⟨hc, hf, -, -⟩ := updEnd_effect (st := 0xB006) (u := vaultHung r s) (by rw [vaultHung_fw]; exact hq) hb hn
  rw [vaultHung_fw] at hf
  let v := updEnd 0xB006 (vaultHung r s)
  have ht : t = if r ≠ 0 then vaultError r v else v := by
    show vaultHang r s = _
    rw [vaultHang_eq, if_pos hu]
  by_cases hr : r = 0 ∨ v.fw.vault.error = true
  · have htv : t = v := by
      rw [ht]
      rcases hr with hr | hr
      · exact if_neg (not_not.mpr hr)
      · split
        · exact if_pos hr
        · rfl
    rw [htv]
    exact ⟨by rw [hf]; rfl, by rw [hf]; rfl, by rw [hf]; rfl, hc v (.refl v)⟩
  · obtain ⟨hr0, he⟩ := not_or.mp hr
    rw [if_pos hr0] at ht
    obtain ⟨g1, -, -, -⟩ := vaultError_effect (s := v) r (by simpa using he)
    rw [← ht, hf] at g1
    exact ⟨by rw [g1]; rfl, by rw [g1]; rfl, by rw [g1]; rfl, by rw [ht]; exact hc _ (vaultError_posted r v)⟩

end Vault

/-- Settles O56: each hang, return, sleep and restart, with the states in which it does nothing. -/
theorem coresWatchedAndAsleep : Obligations.CoresWatchedAndAsleep := by
  intro s k c r hl x out
  refine ⟨fun ho => act_eq hl (coreHang_idle ho), fun ho hk h4 h5 => ⟨_, act_eq hl rfl, coreHang_resets ho hk h4 h5⟩,
    fun ho hu => ⟨_, act_eq hl rfl, coreHang_rollsBack ho hu⟩, fun ho hk h4 h5 => ⟨_, act_eq hl rfl, tellerHang_effect ho hk h4 h5⟩,
    ⟨fun hb => act_eq hl (coreBack_waits hb), fun hb => ⟨_, act_eq hl rfl, coreBack_effect hb⟩,
      ⟨fun hb => act_eq hl (enterLp_awake hb), fun hb => ⟨_, act_eq hl rfl, enterLp_effect c.isLt hb⟩⟩,
      fun hs => act_eq hl (if_neg hs), fun hs => ⟨_, act_eq hl rfl, exitLp_effect c.isLt hs⟩⟩,
    fun hu he => ⟨_, act_eq hl rfl, vaultHang_effect hu he⟩, fun q hu hq hn => ⟨_, act_eq hl rfl, vaultHang_ends hu hq hn⟩,
    fun he => act_eq hl (if_pos he), fun he => act_eq hl (if_neg (by rw [he]; decide)), fun he => act_eq hl (if_pos he), fun he => ?_⟩
  obtain ⟨h1, h2, h3, h4⟩ := vaultError_effect r he
  exact ⟨_, act_eq hl rfl, by rw [h1]; rfl, by rw [h1]; rfl, by rw [h1]; rfl, h2, h3, h4.only⟩

end Sys2Proof.Machine
end

section

/-! What taking a unit out and returning it does (Table 17.3), and the room that the Clerk's queue keeps meanwhile. -/

namespace Sys2Proof.Machine

section Hush
variable {r s t : State}

/-- The records in the Clerk's queue, and one more while it may report a lost event. -/
def State.clerkLoad (s : State) : Nat :=
  (Tbl.get [] s.ldg.queues 0x21).length + if due s.now nsPerS (s.getCtx 0).evtLostRec then 1 else 0

/-- Steps that leave block time, and add to the Clerk's queue no more than a lost event. -/
structure Hush (s t : State) : Prop where
  now : t.now = s.now
  hold : t.tb.hold = s.tb.hold
  load : t.clerkLoad ≤ s.clerkLoad

theorem Hush.refl (s : State) : Hush s s := ⟨rfl, rfl, le_rfl⟩

theorem Hush.trans (h : Hush r s) (g : Hush s t) : Hush r t := ⟨g.now.trans h.now, g.hold.trans h.hold, g.load.trans h.load⟩

theorem clerkLoad_of_eq (hn : t.now = s.now) (hl : t.ldg = s.ldg) (hh : t.hif = s.hif) : t.clerkLoad = s.clerkLoad := by
  rw [State.clerkLoad, State.clerkLoad, hn, hl, getCtx_of_hif hh]

theorem Hush.keeps {ps : List Area} (h : Hush r s) (g : Keeps ps s t) (hl : ps.contains .ldg = false) (hh : ps.contains .hif = false)
    (hn : ps.contains .now = false) (ht : ps.contains .tb = false) : Hush r t :=
  h.trans ⟨g.now_eq hn, congrArg TimeBase.hold (g.tb_eq ht), (clerkLoad_of_eq (g.now_eq hn) (g.ldg_eq hl) (g.hif_eq hh)).le⟩

theorem Hush.forList {α : Type} {l : List α} {f : α → State → State} (h : Hush r s) (hf : ∀ a u, Hush u (f a u)) :
    Hush r (forList l f s) :=
  forList_ind (P := Hush r) (fun a _ u hu => hu.trans (hf a u)) h

/-- An entry written to a ring does not report a lost event. -/
theorem writeEntry_evtLostRec (c tag status result opcode : Nat) (event notify : Bool) (s : State) :
    ((writeEntry c tag status result opcode event notify s).getCtx 0).evtLostRec = (s.getCtx 0).evtLostRec := by
  have hupd : ∀ (f : Ctx → Ctx) (u : State), (∀ x, (f x).evtLostRec = x.evtLostRec) →
      ((u.updCtx c f).getCtx 0).evtLostRec = (u.getCtx 0).evtLostRec := fun f u hf => by
    by_cases e : 0 = c
    · subst e; rw [State.getCtx_updCtx, hf]
    · rw [State.getCtx_updCtx_ne _ _ _ e]
  have hwrite : ∀ w (u : State), ((hmWrite w u).getCtx 0).evtLostRec = (u.getCtx 0).evtLostRec := fun w u =>
    congrArg Ctx.evtLostRec (getCtx_of_hif ((hmWrite_keeps w u).hif_eq rfl) 0)
  have hirq : ∀ u : State, ((irqDue c u).getCtx 0).evtLostRec = (u.getCtx 0).evtLostRec := fun u => by
    unfold irqDue
    extract_lets x
    split
    · rfl
    · split
      · exact (hwrite _ _).trans (hupd _ u fun _ => rfl)
      · exact hupd _ u fun _ => rfl
  have hdrr : ∀ u : State, ((drrIdle c u).getCtx 0).evtLostRec = (u.getCtx 0).evtLostRec := fun u => by
    unfold drrIdle
    extract_lets x
    split <;> rfl
  unfold writeEntry
  extract_lets x e s1 s2
  have h2 : (s2.getCtx 0).evtLostRec = (s.getCtx 0).evtLostRec := 
    (hupd (fun y => { y with cqTail := (y.cqTail + 1) % 65536, evtLostFlag := false }) s1 fun _ => rfl).trans (hwrite _ s)
  rw [hdrr]
  split
  · exact (hirq s2).trans h2
  · exact h2

/-- What a record may add to the Clerk's queue. -/
def clerkShare (x : LRec) : Nat := if x.source = 0x21 then 1 else 0

theorem ldgPut_load (x : LRec) (s : State) : (ldgPut x s).clerkLoad ≤ s.clerkLoad + clerkShare x := by
  have hq : (Tbl.get [] (ldgPut x s).ldg.queues 0x21).length ≤ (Tbl.get [] s.ldg.queues 0x21).length + clerkShare x := by
    rw [ldgPut, State.onLdg_ldg]
    split
    · dsimp only
      by_cases e : x.source = 0x21
      · rw [e, Tbl.get_upd_self, List.length_append, clerkShare, if_pos e]
        rfl
      · rw [Tbl.get_upd_ne (d := ([] : List LRec)) _ _ (Ne.symm e)]
        omega
    · exact Nat.le_add_right ..
  have hd : due (ldgPut x s).now nsPerS ((ldgPut x s).getCtx 0).evtLostRec = due s.now nsPerS (s.getCtx 0).evtLostRec := rfl
  rw [State.clerkLoad, State.clerkLoad, hd]
  omega

theorem due_at_once (now : Nat) : due now nsPerS (some now) = false := by
  have hpos : 0 < nsPerS := by decide
  generalize nsPerS = c at hpos
  simp only [due, decide_eq_false_iff_not]
  omega

section Rec
variable {rec_ : LRec → State → State}
  (hr : ∀ (x : LRec) u, Untold x.code → (rec_ x u).clerkLoad ≤ u.clerkLoad + clerkShare x)
include hr

theorem ldgEnqueue_load (x : LRec) (s : State) : (ldgEnqueue rec_ x s).clerkLoad ≤ s.clerkLoad + clerkShare x := by
  have hput := ldgPut_load x s
  unfold ldgEnqueue
  extract_lets full s1 s2
  split
  · exact (hr (mkRec 0x36 0xA815 x.source s2.ldg.qlost 0 0 s2) s2 untold_queueLost).trans hput
  · exact hput

theorem evtDeliver_load (x : LRec) (s : State) : (evtDeliver rec_ x 0 s).clerkLoad ≤ s.clerkLoad := by
  unfold evtDeliver
  extract_lets y s1 s2
  have h1 : s1.getCtx 0 = { y with evtLost := satInc 16 y.evtLost, evtLostFlag := true } := State.getCtx_updCtx ..
  have hl1 : s1.clerkLoad = s.clerkLoad := by
    rw [State.clerkLoad, h1]
    rfl
  split
  · exact le_rfl
  · split
    · have hk : Keeps [.hm, .hif] s (writeEntry 0 x.p1 x.code x.p0 0xFFFF true false s) := writeEntry_keeps ..
      rw [State.clerkLoad, State.clerkLoad, writeEntry_evtLostRec, hk.now_eq rfl, hk.ldg_eq rfl]
    · split
      · next hdue =>
        have h2 : (s2.getCtx 0).evtLostRec = some s.now := by rw [State.getCtx_updCtx]
        have hl2 : s2.clerkLoad + 1 = s.clerkLoad := by
          rw [State.clerkLoad, State.clerkLoad, h2, if_pos hdue, show s2.now = s.now from rfl, due_at_once, if_neg (by decide)]
          rfl
        have hrec := hr (mkRec 0x21 0x9014 0 x.code 0 0 s2) s2 untold_eventLost
        exact hrec.trans hl2.le
      · exact hl1.le

omit hr

theorem evtDeliver_untold {x : LRec} (hx : Untold x.code) {c : Nat} (hc : c ≠ 0) (s : State) : evtDeliver rec_ x c s = s :=
  if_pos (by simp [evtWanted_untold hx hc])

end Rec

theorem emitRec_load (n : Nat) (x : LRec) (s : State) (hx : Untold x.code) :
    (emitRec n x s).clerkLoad ≤ s.clerkLoad + clerkShare x := by
  induction n generalizing x s with
  | zero => exact ldgPut_load x s
  | succ n ih =>
    unfold emitRec
    extract_lets s1 c
    have h1 : s1.clerkLoad ≤ s.clerkLoad + clerkShare x := (evtDeliver_load ih x _).trans (ldgEnqueue_load ih x s)
    split
    · next hc =>
      rw [evtDeliver_untold hx (by simp only [Bool.and_eq_true, decide_eq_true_eq] at hc; exact hc.1.2)]
      exact h1
    · exact h1

/-- A record of another source than the Clerk that no tenant is told of. -/
theorem emit_hush {src code p0 p1 p2 p3 : Nat} (hsrc : src ≠ 0x21) (hc : Untold code) (s : State) :
    Hush s (emit src code p0 p1 p2 p3 s) := by
  have hk : Keeps [.hm, .hif, .ldg] s (emit src code p0 p1 p2 p3 s) := emit_keeps ..
  refine ⟨hk.now_eq rfl, congrArg TimeBase.hold (hk.tb_eq rfl), (emitRec_load 4 _ s hc).trans ?_⟩
  rw [clerkShare, if_neg (show (mkRec src code p0 p1 p2 p3 s).source ≠ 0x21 from hsrc)]
  exact le_rfl

/-- The Clerk's record joins its queue, which was empty before. -/
theorem Hush.logs {code p0 p1 p2 p3 : Nat} (h : Hush s t) (hs : Tbl.get [] s.ldg.queues 0x21 = []) :
    Logs 0x21 code p0 p1 p2 p3 s (emit 0x21 code p0 p1 p2 p3 t) := by
  have hlen : (Tbl.get [] t.ldg.queues 0x21).length ≤ t.clerkLoad := Nat.le_add_right ..
  have hload := h.load
  have hone : s.clerkLoad ≤ 1 := by
    rw [State.clerkLoad, hs]
    split <;> simp
  obtain ⟨l, hl, x, hx, h1, h2, h3, h4, h5⟩ := emit_logs (src := 0x21) (code := code) (p0 := p0) (p1 := p1) (p2 := p2) (p3 := p3)
    (show QRoom 0x21 t by rw [QRoom]; omega)
  exact ⟨_, by rw [hs]; exact hl, x, List.mem_append_right _ hx, h1, h2, h3.trans h.now, h4.trans h.hold, h5⟩

end Hush

section Site
variable {s : State} {k : Nat}

/-- Whether a site is excluded. -/
def State.siteOut (s : State) (k : Nat) : Bool := (s.getSite k).excl

theorem siteOut_of_sns {t : State} (h : t.sns = s.sns) : t.siteOut k = s.siteOut k := by rw [State.siteOut, getSite_of_sns h]; rfl

theorem siteOut_updSite (i : Nat) {f : Site → Site} (hf : ∀ x, (f x).excl = x.excl) : (s.updSite i f).siteOut k = s.siteOut k := by
  by_cases e : k = i
  · subst e; rw [State.siteOut, State.getSite_updSite, hf]; rfl
  · rw [State.siteOut, State.getSite_updSite_ne _ _ _ e]; rfl

theorem bandUpdate_siteOut (i : Nat) : (bandUpdate i s).siteOut k = s.siteOut k := by
  unfold bandUpdate
  dsimp only
  split
  · exact siteOut_updSite i fun _ => rfl
  · split
    · exact siteOut_updSite i fun _ => rfl
    · rfl

theorem noNeighbour_siteOut (i : Nat) : (noNeighbour i s).siteOut k = s.siteOut k := by
  unfold noNeighbour
  extract_lets x bad
  split
  · rw [siteOut_of_sns ((emitSns_keeps ..).sns_eq rfl), siteOut_of_sns ((setAlarm_keeps ..).sns_eq rfl)]
    exact siteOut_updSite i fun _ => rfl
  · split
    · exact siteOut_updSite i fun _ => rfl
    · rfl

theorem siteChanged_siteOut (i : Nat) : (siteChanged i s).siteOut k = s.siteOut k := by
  unfold siteChanged
  extract_lets l
  rw [siteOut_of_sns ((oscSite_keeps ..).sns_eq rfl), siteOut_of_sns ((dwellUpdate_keeps ..).sns_eq rfl),
    siteOut_of_sns ((forList_keeps l (fun a u h => h.trans (tripPending_keeps a u)) (Keeps.refl _ _)).sns_eq rfl),
    forList_eq (fun u => u.siteOut k) l (fun a u => noNeighbour_siteOut a),
    forList_eq (fun u => u.siteOut k) l (fun a u => bandUpdate_siteOut a)]

/-- Audit beside the dwell of the trip. -/
def Audit.undwelled (a : Audit) : Audit := { a with dwell := none }

/-- What taking a unit out or returning it leaves of Audit, of the contexts and of the Clerk's queue. -/
structure Moved (s t : State) : Prop where
  aud : t.aud.undwelled = s.aud.undwelled
  between : ∀ c, Between c s t
  hush : Hush s t

theorem Moved.refl (s : State) : Moved s s := ⟨rfl, fun _ => .refl .., .refl s⟩

theorem Moved.trans {r t : State} (h : Moved r s) (g : Moved s t) : Moved r t :=
  ⟨g.aud.trans h.aud, fun c => (h.between c).trans (g.between c), h.hush.trans g.hush⟩

theorem Moved.keeps {ps : List Area} {r t : State} (h : Moved r s) (g : Keeps ps s t) (ha : ps.contains .aud = false)
    (hm : ps.contains .hm = false) (hh : ps.contains .hif = false) (hl : ps.contains .ldg = false)
    (hn : ps.contains .now = false) (ht : ps.contains .tb = false) : Moved r t :=
  ⟨(congrArg Audit.undwelled (g.aud_eq ha)).trans h.aud, fun c => (h.between c).keeps g hm hh, h.hush.keeps g hl hh hn ht⟩

theorem Moved.emit {r : State} {src code p0 p1 p2 p3 : Nat} (h : Moved r s) (hsrc : src ≠ 0x21) (hc : Untold code) :
    Moved r (emit src code p0 p1 p2 p3 s) :=
  ⟨(congrArg Audit.undwelled ((emit_keeps ..).aud_eq rfl)).trans h.aud, fun c => (h.between c).emit .., h.hush.trans (emit_hush hsrc hc s)⟩

theorem Moved.forList {α : Type} {r : State} {l : List α} {f : α → State → State} (h : Moved r s) (hf : ∀ a u, Moved u (f a u)) :
    Moved r (forList l f s) :=
  forList_ind (P := Moved r) (fun a _ u hu => hu.trans (hf a u)) h

theorem noNeighbour_moved (i : Nat) (s : State) : Moved s (noNeighbour i s) := by
  unfold noNeighbour
  extract_lets x bad
  split
  · exact ((((Moved.refl s).keeps (State.updSite_keeps ..) rfl rfl rfl rfl rfl rfl).keeps (setAlarm_keeps ..) rfl rfl rfl rfl rfl
      rfl).emit (by decide) (by unfold Untold; decide))
  · split
    · exact (Moved.refl s).keeps (State.updSite_keeps ..) rfl rfl rfl rfl rfl rfl
    · exact .refl s

theorem tripPending_moved (i : Nat) (s : State) : Moved s (tripPending i s) := by
  have hupd : ∀ (f : Clu → Clu) c, Moved s (s.updClu c f) := fun f c =>
    (Moved.refl s).keeps (State.updClu_keeps ..) rfl rfl rfl rfl rfl rfl
  unfold tripPending
  extract_lets c used atL clear
  split
  · exact .refl s
  · split
    · split
      · exact ((hupd _ _).keeps (capCluster_keeps ..) rfl rfl rfl rfl rfl rfl).emit
          (src := 0x37) (code := 0x5032) (by decide) (by unfold Untold; decide)
      · exact .refl s
    · split
      · exact ((hupd _ _).keeps (presetLoops_keeps ..) rfl rfl rfl rfl rfl rfl).emit
          (src := 0x37) (code := 0x5033) (by decide) (by unfold Untold; decide)
      · exact .refl s

theorem dwellUpdate_moved (s : State) : Moved s (dwellUpdate s) :=
  ⟨by simp only [dwellUpdate, State.onAud_aud, Audit.undwelled],
    fun _ => (dwellUpdate_keeps s).between rfl rfl, (Hush.refl s).keeps (dwellUpdate_keeps s) rfl rfl rfl rfl⟩

theorem oscSite_moved (s : State) : Moved s (oscSite s) := by
  unfold oscSite
  extract_lets i bad
  split
  · exact ((Moved.refl s).keeps (State.onClk_keeps ..) rfl rfl rfl rfl rfl rfl).emit (by decide) (by unfold Untold; decide)
  · exact (Moved.refl s).keeps (State.onClk_keeps ..) rfl rfl rfl rfl rfl rfl

theorem siteChanged_moved (i : Nat) (s : State) : Moved s (siteChanged i s) := by
  unfold siteChanged
  extract_lets l
  have h1 : Moved s (Machine.forList l bandUpdate s) :=
    (Moved.refl s).forList fun a u => (Moved.refl u).keeps (bandUpdate_keeps ..) rfl rfl rfl rfl rfl rfl
  exact (((h1.forList noNeighbour_moved).forList tripPending_moved).trans (dwellUpdate_moved _)).trans (oscSite_moved _)

end Site

section Phases
variable {s : State} {p : Nat}

/-- An evaluation of the phases changes none but those that are off. -/
theorem shedUpdate_getPh (r : Nat) (hp : (s.getPh p).st ≠ 4) : (shedUpdate r s).getPh p = s.getPh p := by
  unfold shedUpdate
  extract_lets s1 x m low
  have h1 : s1.getPh p = s.getPh p := by
    unfold s1
    split
    · exact addPhases_getPh _ hp
    · rfl
  clear_value s1
  rw [← h1]
  rfl

/-- A phase that a unit takes away. -/
def phaseTaken (x : Phase) : Phase := { x with st := 5, pen := false, pwm := false, joinAt := none }

theorem phasesTaken_out {l rs : List Nat} (hp : p ∈ l) :
    let t := Machine.forList rs shedUpdate (Machine.forList l (fun p => State.updPh p phaseTaken) s)
    (t.getPh p).st = 5 ∧ (t.getPh p).pen = false := by
  have h1 : ∀ u : State, ((State.updPh p phaseTaken u).getPh p).st = 5 ∧ ((State.updPh p phaseTaken u).getPh p).pen = false := fun u => by
    rw [State.getPh_updPh]
    exact ⟨rfl, rfl⟩
  refine forList_ind (P := fun u => (u.getPh p).st = 5 ∧ (u.getPh p).pen = false) (fun r _ u hu => ?_) ?_
  · rw [shedUpdate_getPh r (by omega)]
    exact hu
  · refine forList_est (P := fun u => (u.getPh p).st = 5 ∧ (u.getPh p).pen = false) hp (fun q u hu => ?_) h1 s
    by_cases e : p = q
    · subst e; exact h1 u
    · rwa [State.getPh_updPh_ne _ _ _ e]

end Phases

section Out
variable {s t : State} {kind i : Nat}

/-- What a unit that has been taken out leaves (Table 17.3). -/
structure UnitGone (kind i : Nat) (s t : State) : Prop where
  cube : kind = 0 → i < s.tly.cube.length → t.tly.cube.getD i 3 = 2
  core : kind = 1 → (t.getFwCore i).st = 4 ∧ ∀ j < 6, (t.getLp i j).reform = true
  site : kind = 3 → (t.getSite i).excl = true
  phases : ∀ p ∈ s.audTaken kind i, (t.getPh p).st = 5 ∧ (t.getPh p).pen = false

theorem UnitGone.keeps {ps : List Area} {u : State} (h : UnitGone kind i s t) (g : Keeps ps t u) (hf : ps.contains .fw = false)
    (hl : ps.contains .loop = false) (hs : ps.contains .sns = false) (hr : ps.contains .rail = false) (hy : ps.contains .tly = false) :
    UnitGone kind i s u where
  cube hk hi := by rw [g.tly_eq hy]; exact h.cube hk hi
  core hk := ⟨by rw [getFwCore_of_fw (g.fw_eq hf)]; exact (h.core hk).1, fun j hj => by
    rw [getLp_of_loop (g.loop_eq hl)]; exact (h.core hk).2 j hj⟩
  site hk := by rw [getSite_of_sns (g.sns_eq hs)]; exact h.site hk
  phases p hp := by rw [getPh_of_rail (g.rail_eq hr)]; exact h.phases p hp

theorem audTaken_of_eq {u : State} (hc : u.cfg = s.cfg) (hr : u.rail = s.rail) : u.audTaken kind i = s.audTaken kind i := by
  unfold State.audTaken State.phCfg
  simp only [hc, getPh_of_rail hr]

theorem UnitGone.of_eq {u : State} (h : UnitGone kind i u t) (hc : u.cfg = s.cfg) (hr : u.rail = s.rail) (hy : u.tly = s.tly) :
    UnitGone kind i s t :=
  ⟨fun hk hi => h.cube hk (by rwa [hy]), h.core, h.site, fun p hp => h.phases p (by rwa [audTaken_of_eq hc hr])⟩

theorem audTaken_none (h2 : kind ≠ 2) (h4 : kind ≠ 4) : s.audTaken kind i = [] := by
  rw [State.audTaken, audPhases, if_neg h4, if_neg (fun h => h2 h.1)]
  rfl

/-- The phases and rails of a unit, as it is taken out. -/
def phasesOut (kind i : Nat) (s : State) : State :=
  forList ((List.range 8).filter fun r => (s.audTaken kind i).any fun p => (s.phCfg p).rail = r) shedUpdate
    (forList (s.audTaken kind i) (fun p => State.updPh p phaseTaken) s)

/-- The kinds of unit: a cube, a Teller, a site, a link, or what takes phases away. -/
theorem unitOut_cases (kind i : Nat) (s : State) :
    (kind = 0 ∧ unitOut kind i s = s.onTly fun t =>
      { t with swap := if t.cube.getD i 3 = 0 then t.swap ++ [i] else t.swap, cube := t.cube.set i 2 }) ∨
    (kind = 1 ∧ unitOut kind i s = presetLoops i (s.updFwCore i fun x => { x with st := 4, moveFrom := s.frm.count + 1 })) ∨
    (kind = 3 ∧ unitOut kind i s = siteChanged i (s.updSite i fun x => { x with excl := true, diff := 0 })) ∨
    (kind = 5 ∧ unitOut kind i s = returnAll i 0 s) ∨
    (kind ≠ 0 ∧ kind ≠ 1 ∧ kind ≠ 3 ∧ kind ≠ 5 ∧ unitOut kind i s = phasesOut kind i s) := by
  unfold unitOut
  split
  · exact .inl ⟨rfl, rfl⟩
  · exact .inr (.inl ⟨rfl, rfl⟩)
  · exact .inr (.inr (.inl ⟨rfl, rfl⟩))
  · exact .inr (.inr (.inr (.inl ⟨rfl, rfl⟩)))
  · rename_i h0 h1 h3 h5
    exact .inr (.inr (.inr (.inr ⟨h0, h1, h3, h5, rfl⟩)))

theorem phasesOut_keeps (kind i : Nat) (s : State) : Keeps [.rail] s (phasesOut kind i s) :=
  forList_keeps _ (fun _ _ hu => (shedUpdate_keeps ..).step (by decide) hu)
    (forList_keeps _ (fun _ _ hu => (State.updPh_keeps ..).step (by decide) hu) (.refl ..))

theorem unitOut_moved (kind i : Nat) (s : State) : Moved s (unitOut kind i s) := by
  rcases unitOut_cases kind i s with ⟨-, h⟩ | ⟨-, h⟩ | ⟨-, h⟩ | ⟨-, h⟩ | ⟨-, -, -, -, h⟩ <;> rw [h]
  · exact (Moved.refl s).keeps (State.onTly_keeps ..) rfl rfl rfl rfl rfl rfl
  · exact ((Moved.refl s).keeps (State.updFwCore_keeps ..) rfl rfl rfl rfl rfl rfl).keeps (presetLoops_keeps ..) rfl rfl rfl rfl rfl rfl
  · exact ((Moved.refl s).keeps (State.updSite_keeps ..) rfl rfl rfl rfl rfl rfl).trans (siteChanged_moved ..)
  · exact (Moved.refl s).keeps (returnAll_keeps ..) rfl rfl rfl rfl rfl rfl
  · exact (Moved.refl s).keeps (phasesOut_keeps ..) rfl rfl rfl rfl rfl rfl

theorem unitOut_gone (kind i : Nat) (s : State) : UnitGone kind i s (unitOut kind i s) := by
  rcases unitOut_cases kind i s with ⟨rfl, h⟩ | ⟨rfl, h⟩ | ⟨rfl, h⟩ | ⟨rfl, h⟩ | ⟨h0, h1, h3, h5, h⟩ <;> rw [h]
  · refine ⟨fun _ hi => ?_, nofun, nofun, by rw [audTaken_none (by decide) (by decide)]; nofun⟩
    rw [State.onTly_tly]
    exact getD_set_self hi
  · refine ⟨nofun, fun _ => ⟨?_, fun j hj => presetLoops_reform hj⟩, nofun, by rw [audTaken_none (by decide) (by decide)]; nofun⟩
    rw [getFwCore_of_fw ((presetLoops_keeps ..).fw_eq rfl), State.getFwCore_updFwCore]
  · refine ⟨nofun, nofun, fun _ => (siteChanged_siteOut i).trans ?_, by rw [audTaken_none (by decide) (by decide)]; nofun⟩
    rw [State.siteOut, State.getSite_updSite]
  · exact ⟨nofun, nofun, nofun, by rw [audTaken_none (by decide) (by decide)]; nofun⟩
  · exact ⟨fun h => absurd h h0, fun h => absurd h h1, fun h => absurd h h3, fun p hp => phasesTaken_out hp⟩

end Out

section Back
variable {s t : State} {kind i : Nat}

/-- What a unit that has been returned leaves (Table 17.3). -/
structure UnitBack (kind i : Nat) (s t : State) : Prop where
  cube : kind = 0 → i < s.tly.cube.length → t.tly.cube.getD i 3 = 1
  core : kind = 1 → (t.getFwCore i).st = 1
  site : kind = 3 → (t.getSite i).excl = false
  phase : kind = 4 → (s.getPh i).st = 5 → (t.getPh i).st = 4

theorem UnitBack.keeps {ps : List Area} {u : State} (h : UnitBack kind i s t) (g : Keeps ps t u) (hf : ps.contains .fw = false)
    (hs : ps.contains .sns = false) (hr : ps.contains .rail = false) (hy : ps.contains .tly = false) : UnitBack kind i s u where
  cube hk hi := by rw [g.tly_eq hy]; exact h.cube hk hi
  core hk := by rw [getFwCore_of_fw (g.fw_eq hf)]; exact h.core hk
  site hk := by rw [getSite_of_sns (g.sns_eq hs)]; exact h.site hk
  phase hk hp := by rw [getPh_of_rail (g.rail_eq hr)]; exact h.phase hk hp

/-- The phases of a unit, as it is returned. -/
def phasesBack (kind i : Nat) (s : State) : State :=
  forList ((audPhases kind i).filter fun p => (s.getPh p).st = 5) (fun p => State.updPh p fun x => { x with st := 4 }) s

theorem unitBack_cases (kind i : Nat) (s : State) :
    (kind = 0 ∧ unitBack kind i s = s.onTly fun t =>
      { t with cube := t.cube.set i 1, rejoin := if t.nact < 8 then t.rejoin ++ [i] else t.rejoin,
               swap := t.swap.filter (· ≠ i) }) ∨
    (kind = 1 ∧ unitBack kind i s = presetLoops i (s.updFwCore i fun x => { x with st := 1, moveFrom := s.frm.count + 1 })) ∨
    (kind = 3 ∧ unitBack kind i s = emitSns 0x2003 i 0 0 0 (siteChanged i (s.updSite i fun x => { x with excl := false, diff := 0 }))) ∨
    (kind ≠ 0 ∧ kind ≠ 1 ∧ kind ≠ 3 ∧ unitBack kind i s = phasesBack kind i s) := by
  unfold unitBack
  split
  · exact .inl ⟨rfl, rfl⟩
  · exact .inr (.inl ⟨rfl, rfl⟩)
  · exact .inr (.inr (.inl ⟨rfl, rfl⟩))
  · rename_i h0 h1 h3
    exact .inr (.inr (.inr ⟨h0, h1, h3, rfl⟩))

theorem phasesBack_keeps (kind i : Nat) (s : State) : Keeps [.rail] s (phasesBack kind i s) :=
  forList_keeps _ (fun _ _ hu => (State.updPh_keeps ..).step (by decide) hu) (.refl ..)

theorem unitBack_moved (kind i : Nat) (s : State) : Moved s (unitBack kind i s) := by
  rcases unitBack_cases kind i s with ⟨-, h⟩ | ⟨-, h⟩ | ⟨-, h⟩ | ⟨-, -, -, h⟩ <;> rw [h]
  · exact (Moved.refl s).keeps (State.onTly_keeps ..) rfl rfl rfl rfl rfl rfl
  · exact ((Moved.refl s).keeps (State.updFwCore_keeps ..) rfl rfl rfl rfl rfl rfl).keeps (presetLoops_keeps ..) rfl rfl rfl rfl rfl rfl
  · exact (((Moved.refl s).keeps (State.updSite_keeps ..) rfl rfl rfl rfl rfl rfl).trans (siteChanged_moved ..)).emit (by decide)
      (by unfold Untold; decide)
  · exact (Moved.refl s).keeps (phasesBack_keeps ..) rfl rfl rfl rfl rfl rfl

theorem phasesBack_getPh (h5 : (s.getPh i).st = 5) : ((phasesBack 4 i s).getPh i).st = 4 := by
  have hl : (audPhases 4 i).filter (fun p => (s.getPh p).st = 5) = [i] := by simp [audPhases, h5]
  rw [phasesBack, hl, forList_cons, forList_nil, State.getPh_updPh]

theorem unitBack_back (kind i : Nat) (s : State) : UnitBack kind i s (unitBack kind i s) := by
  rcases unitBack_cases kind i s with ⟨rfl, h⟩ | ⟨rfl, h⟩ | ⟨rfl, h⟩ | ⟨h0, h1, h3, h⟩ <;> rw [h]
  · refine ⟨fun _ hi => ?_, nofun, nofun, nofun⟩
    rw [State.onTly_tly]
    exact getD_set_self hi
  · refine ⟨nofun, fun _ => ?_, nofun, nofun⟩
    rw [getFwCore_of_fw ((presetLoops_keeps ..).fw_eq rfl), State.getFwCore_updFwCore]
  · refine ⟨nofun, nofun, fun _ => ?_, nofun⟩
    rw [getSite_of_sns ((emitSns_keeps ..).sns_eq rfl)]
    refine (siteChanged_siteOut i).trans ?_
    rw [State.siteOut, State.getSite_updSite]
  · exact ⟨fun h => absurd h h0, fun h => absurd h h1, fun h => absurd h h3, fun h4 h5 => by subst h4; exact phasesBack_getPh h5⟩

end Back

end Sys2Proof.Machine
end

section

/-! Audit by hand and on schedule (R451 to R456, R464). -/

namespace Sys2Proof.Machine

section Check
variable {s : State} {kind i : Nat} {force remove : Bool}

/-- Table 17.3: a unit in service may be taken out. -/
def State.audMay (s : State) (kind i : Nat) (force : Bool) : Prop :=
  (kind = 0 → ¬ (s.tly.cube.getD i 3 = 0 ∧ 1 ∉ s.tly.cube ∧ force = false)) ∧ (kind = 1 → s.partnerFree i = true) ∧
    (kind = 2 ∨ kind = 4 → s.audCapacity kind i = true) ∧ (kind = 4 → (s.getPh i).usable = true) ∧
    (kind = 5 → (s.getLnk i).st = 2)

theorem outRefused_cube : s.outRefused 0 i force =
    if s.tly.cube.getD i 3 = 0 ∧ 1 ∉ s.tly.cube ∧ force = false then 0xC005 else 0 := by
  show (if s.tly.cube.getD i 3 = 0 ∧ !s.tly.cube.contains 1 ∧ !force then 0xC005 else 0) = _
  simp only [Bool.not_eq_true', List.contains_eq_mem, decide_eq_false_iff_not]

theorem outRefused_of_may (h : s.audMay kind i force) : s.outRefused kind i force = 0 := by
  obtain ⟨h0, h1, h24, h4, h5⟩ := h
  unfold State.outRefused
  split
  · have := outRefused_cube (s := s) (i := i) (force := force)
    rw [if_neg (h0 rfl)] at this
    exact this
  · rw [if_pos (h1 rfl)]
  · rw [if_neg (by simp), if_pos (h24 (.inl rfl))]
  · rw [if_neg (by simp [h4 rfl]), if_pos (h24 (.inr rfl))]
  · rw [if_pos (h5 rfl)]
  · rfl

/-- Table 17.3: what refuses to take a unit out. -/
theorem outRefused_of_not (h : ¬ s.audMay kind i force) :
    (kind = 0 → s.outRefused kind i force = 0xC005) ∧ (kind = 1 → s.outRefused kind i force = 0xC006) ∧
    (kind = 5 → s.outRefused kind i force = 0xC003) ∧
    (kind = 2 ∨ (kind = 4 ∧ (s.getPh i).usable = true) → s.outRefused kind i force = 0xC004) := by
  refine ⟨?_, ?_, ?_, ?_⟩
  · rintro rfl
    rw [outRefused_cube, if_pos]
    by_contra hn
    exact h ⟨fun _ => hn, nofun, by omega, nofun, nofun⟩
  · rintro rfl
    exact if_neg fun hn => h ⟨nofun, fun _ => hn, by omega, nofun, nofun⟩
  · rintro rfl
    exact if_neg fun hn => h ⟨nofun, nofun, by omega, nofun, fun _ => hn⟩
  · rintro (rfl | ⟨rfl, hu⟩)
    · have hc : s.audCapacity 2 i = false := by
        by_contra hn
        exact h ⟨nofun, nofun, fun _ => by simpa using hn, nofun, nofun⟩
      show (if 2 = 4 ∧ (!(s.getPh i).usable) = true then 0xC003 else if s.audCapacity 2 i = true then 0 else 0xC004) = 0xC004
      rw [if_neg (by simp), hc]
      rfl
    · have hc : s.audCapacity 4 i = false := by
        by_contra hn
        exact h ⟨nofun, nofun, fun _ => by simpa using hn, fun _ => hu, nofun⟩
      show (if 4 = 4 ∧ (!(s.getPh i).usable) = true then 0xC003 else if s.audCapacity 4 i = true then 0 else 0xC004) = 0xC004
      rw [if_neg (by simp [hu]), hc]
      rfl

theorem outRefused_unusable (h : (s.getPh i).usable = false) : s.outRefused 4 i force = 0xC003 := if_pos ⟨rfl, by rw [h]; rfl⟩

/-- Another test or another unit of the kind stands in the way. -/
def State.audBusy (s : State) (kind i : Nat) : Prop := s.aud.test.isSome = true ∨ s.kindOut kind i = true

theorem audCheck_absent (h : s.audState kind i = 6) : audCheck kind i force remove s = 0xC001 := if_pos h

theorem audCheck_busy (h : s.audState kind i ≠ 6) (hb : s.audBusy kind i) : audCheck kind i force remove s = 0xC002 :=
  (if_neg h).trans (if_pos (by simpa [State.audBusy] using hb))

theorem audCheck_free (h : s.audState kind i ≠ 6) (hb : ¬ s.audBusy kind i) : audCheck kind i force remove s =
    if remove = true ∧ (s.audState kind i ≠ 0 ∨ neverOut kind i = true) then 0xC003
    else if s.audState kind i = 0 then s.outRefused kind i force else 0 :=
  (if_neg h).trans (if_neg (by simpa [State.audBusy] using hb))

/-- Nothing but the host interface has changed. -/
theorem audCheck_begin (c : Nat) (s : State) : audCheck kind i force remove (descBegin c s) = audCheck kind i force remove s := rfl

theorem audState_begin (c : Nat) (s : State) : (descBegin c s).audState kind i = s.audState kind i := rfl

end Check

section Move
variable {s t : State} {kind i : Nat}

theorem getUnit_of_undwelled (h : t.aud.undwelled = s.aud.undwelled) (j : Nat) : t.getUnit j = s.getUnit j := by
  have hu : t.aud.unit = s.aud.unit := (congrArg Audit.unit h :)
  rw [State.getUnit, hu]
  rfl

theorem audOut_eq (hn : neverOut kind i = false) (auto : Bool) : audOut kind i auto s =
    emitClerk 0xC010 kind i (b2n auto) 0 ((unitOut kind i s).updUnit (audIdx kind i) fun u => { u with st := 1 }) :=
  if_neg (by rw [hn]; decide)

/-- What a unit in service that has been taken out leaves (R453). -/
structure Outed (kind i : Nat) (auto : Bool) (s t : State) : Prop where
  unit : (t.getUnit (audIdx kind i)).st = 1
  others : ∀ j, j ≠ audIdx kind i → t.getUnit j = s.getUnit j
  gone : UnitGone kind i s t
  logs : Tbl.get [] s.ldg.queues 0x21 = [] → Logs 0x21 0xC010 kind i (b2n auto) 0 s t
  between : ∀ c, Between c s t

theorem audOut_outed (hn : neverOut kind i = false) (auto : Bool) (s : State) : Outed kind i auto s (audOut kind i auto s) := by
  let v := (unitOut kind i s).updUnit (audIdx kind i) fun u => { u with st := 1 }
  have hv : Keeps [.aud] (unitOut kind i s) v := State.updUnit_keeps ..
  have hm := unitOut_moved kind i s
  have he : Keeps [.hm, .hif, .ldg] v (emitClerk 0xC010 kind i (b2n auto) 0 v) := emitClerk_keeps ..
  rw [audOut_eq hn]
  refine ⟨?_, fun j hj => ?_, ((unitOut_gone kind i s).keeps hv rfl rfl rfl rfl rfl).keeps he rfl rfl rfl rfl rfl,
    (hm.hush.keeps hv rfl rfl rfl rfl).logs, fun c => ((hm.between c).keeps hv rfl rfl).emit ..⟩
  · rw [getUnit_of_aud (he.aud_eq rfl), State.getUnit_updUnit]
  · rw [getUnit_of_aud (he.aud_eq rfl), State.getUnit_updUnit_ne _ _ _ hj, getUnit_of_undwelled hm.aud]

/-- What a unit that has been returned leaves (R453). -/
structure Returned (kind i : Nat) (s t : State) : Prop where
  unit : t.getUnit (audIdx kind i) = { s.getUnit (audIdx kind i) with st := 0 }
  others : ∀ j, j ≠ audIdx kind i → t.getUnit j = s.getUnit j
  back : UnitBack kind i s t
  logs : Tbl.get [] s.ldg.queues 0x21 = [] → Logs 0x21 0xC013 kind i 0 0 s t
  between : ∀ c, Between c s t
  marks : (t.aud.test, t.aud.lastCode, t.aud.pass, t.aud.fail) = (s.aud.test, s.aud.lastCode, s.aud.pass, s.aud.fail)

theorem audBack_returned (kind i : Nat) (s : State) : Returned kind i s (audBack kind i s) := by
  let v := (unitBack kind i s).updUnit (audIdx kind i) fun u => { u with st := 0 }
  have hv : Keeps [.aud] (unitBack kind i s) v := State.updUnit_keeps ..
  have hm := unitBack_moved kind i s
  have he : Keeps [.hm, .hif, .ldg] v (audBack kind i s) := emitClerk_keeps ..
  have ha := hm.aud
  refine ⟨?_, fun j hj => ?_, ((unitBack_back kind i s).keeps hv rfl rfl rfl rfl).keeps he rfl rfl rfl rfl,
    (hm.hush.keeps hv rfl rfl rfl rfl).logs, fun c => ((hm.between c).keeps hv rfl rfl).emit .., ?_⟩
  · rw [getUnit_of_aud (he.aud_eq rfl), State.getUnit_updUnit, getUnit_of_undwelled ha]
  · rw [getUnit_of_aud (he.aud_eq rfl), State.getUnit_updUnit_ne _ _ _ hj, getUnit_of_undwelled ha]
  · rw [he.aud_eq rfl]
    exact (congrArg (fun a : Audit => (a.test, a.lastCode, a.pass, a.fail)) ha :)

/-- A unit as its test begins: taken out, or taken over from a fault (R453). -/
def audBase (kind i : Nat) (auto : Bool) (s : State) : State :=
  if s.audState kind i = 0 then audOut kind i auto s
  else if s.audState kind i = 5 then
    if kind = 0 then s.onTly fun t => { t with cube := t.cube.set i 2 }
    else if kind = 1 then s.updFwCore i fun x => { x with st := 4 } else s
  else s

/-- The test that begins. -/
def audNew (kind i : Nat) (auto ret : Bool) (h : Option DescHdr) (s : State) : AudTest :=
  { kind := kind, idx := i, auto := auto, ret := ret, began := s.now, wasFault := decide (s.audState kind i = 5), hdr := h }

theorem audBegin_eq (kind i : Nat) (auto ret : Bool) (h : Option DescHdr) (s : State) : audBegin kind i auto ret h s =
    ((audBase kind i auto s).updUnit (audIdx kind i) fun u => { u with st := 2, auto := auto }).onAud fun a =>
      { a with test := some (audNew kind i auto ret h s) } := rfl

theorem audBase_getUnit (auto : Bool) {j : Nat} (hj : j ≠ audIdx kind i) : (audBase kind i auto s).getUnit j = s.getUnit j := by
  unfold audBase
  split
  · by_cases hn : neverOut kind i = true
    · rw [audOut, if_pos hn]
    · exact (audOut_outed (by simpa using hn) auto s).others j hj
  · split
    · split
      · rfl
      · split <;> rfl
    · rfl

theorem audBegin_test (kind i : Nat) (auto ret : Bool) (h : Option DescHdr) (s : State) :
    (audBegin kind i auto ret h s).aud.test = some (audNew kind i auto ret h s) := by
  rw [audBegin_eq, State.onAud_aud]

theorem audBegin_unit (kind i : Nat) (auto ret : Bool) (h : Option DescHdr) (s : State) :
    ((audBegin kind i auto ret h s).getUnit (audIdx kind i)).st = 2 ∧
      ((audBegin kind i auto ret h s).getUnit (audIdx kind i)).auto = auto := by
  have hu : ∀ u : State, (u.onAud fun a => { a with test := some (audNew kind i auto ret h s) }).getUnit (audIdx kind i) =
      u.getUnit (audIdx kind i) := fun _ => rfl
  rw [audBegin_eq, hu, State.getUnit_updUnit]
  exact ⟨rfl, rfl⟩

theorem audBegin_others (auto ret : Bool) (h : Option DescHdr) {j : Nat} (hj : j ≠ audIdx kind i) :
    (audBegin kind i auto ret h s).getUnit j = s.getUnit j := by
  have hu : ∀ u : State, (u.onAud fun a => { a with test := some (audNew kind i auto ret h s) }).getUnit j = u.getUnit j := fun _ => rfl
  rw [audBegin_eq, hu, State.getUnit_updUnit_ne _ _ _ hj, audBase_getUnit auto hj]

/-- Audit's schedule. -/
def Audit.sched (a : Audit) : Nat × Option Nat := (a.schedTime, a.schedAt)

theorem audBase_sched (auto : Bool) : (audBase kind i auto s).aud.sched = s.aud.sched := by
  unfold audBase
  split
  · by_cases hn : neverOut kind i = true
    · rw [audOut, if_pos hn]
    · rw [audOut_eq (by simpa using hn), (emitClerk_keeps ..).aud_eq rfl]
      exact (congrArg Audit.sched (unitOut_moved kind i s).aud :)
  · split
    · split
      · rfl
      · split <;> rfl
    · rfl

theorem audBegin_sched (kind i : Nat) (auto ret : Bool) (h : Option DescHdr) (s : State) :
    (audBegin kind i auto ret h s).aud.sched = s.aud.sched := by
  rw [audBegin_eq, State.onAud_aud]
  exact audBase_sched auto

/-- A unit in service is out as its test begins. -/
theorem audBegin_gone (auto ret : Bool) (h : Option DescHdr) (h0 : s.audState kind i = 0) (hn : neverOut kind i = false) :
    UnitGone kind i s (audBegin kind i auto ret h s) ∧
      (Tbl.get [] s.ldg.queues 0x21 = [] → Logs 0x21 0xC010 kind i (b2n auto) 0 s (audBegin kind i auto ret h s)) := by
  have ho := audOut_outed hn auto s
  have hk : Keeps [.aud] (audOut kind i auto s) (audBegin kind i auto ret h s) := by
    rw [audBegin_eq, audBase, if_pos h0]
    exact .step (State.onAud_keeps ..) (by decide) (State.updUnit_keeps ..)
  exact ⟨ho.gone.keeps hk rfl rfl rfl rfl rfl, fun hroom => (ho.logs hroom).before hk.only (by decide)⟩

end Move

section ByHand
variable {s : State} {h : DescHdr} {kind i : Nat} {ret force : Bool}

/-- A descriptor of Audit is refused. -/
def AudNo (h : DescHdr) (s : State) (c : Instr) (op r : Nat) : Prop :=
  ∃ t, exec c s = .next t ∧ Completes h op r 0 s t ∧ Only [.hm, .hif] s t

/-- The limits of Table 17.3, as a command meets them. -/
def AudLimits (h : DescHdr) (s : State) (kind i : Nat) (force : Bool) (c : Instr) (op : Nat) : Prop :=
  (kind = 0 → ¬ s.audMay kind i force → AudNo h s c op 0xC005) ∧ (kind = 1 → ¬ s.audMay kind i force → AudNo h s c op 0xC006) ∧
  (kind = 5 → ¬ s.audMay kind i force → AudNo h s c op 0xC003) ∧ (kind = 4 → (s.getPh i).usable = false → AudNo h s c op 0xC003) ∧
  (kind = 2 ∨ (kind = 4 ∧ (s.getPh i).usable = true) → ¬ s.audMay kind i force → AudNo h s c op 0xC004)

theorem audLimits {c : Instr} {op : Nat} (hc : ∀ r, s.outRefused kind i force = r → r ≠ 0 → AudNo h s c op r) :
    AudLimits h s kind i force c op :=
  ⟨fun hk hm => hc _ ((outRefused_of_not hm).1 hk) (by decide), fun hk hm => hc _ ((outRefused_of_not hm).2.1 hk) (by decide),
    fun hk hm => hc _ ((outRefused_of_not hm).2.2.1 hk) (by decide), fun hk hu => hc _ (by subst hk; exact outRefused_unusable hu) (by decide),
    fun hk hm => hc _ ((outRefused_of_not hm).2.2.2 hk) (by decide)⟩

theorem audTest_refused {r : Nat} (hr : Runs h descAudTest s) (hc : audCheck kind i force false s = r) (h0 : r ≠ 0) :
    AudNo h s (.audTest h kind i ret force) 0xB0 r := by
  subst hc
  exact refused_of_fail (body := bodyAudTest h kind i ret force) rfl hr
    ((if_pos (by rw [audCheck_begin]; exact h0)).trans (by rw [audCheck_begin]))

/-- R453: AUD_TEST begins its test. -/
theorem audTest_begins (hr : Runs h descAudTest s) (hc : audCheck kind i force false s = 0) :
    ∃ t, exec (.audTest h kind i ret force) s = .next t ∧
      t.aud.test = some { kind := kind, idx := i, auto := false, ret := ret, began := s.now,
                          wasFault := decide (s.audState kind i = 5), hdr := some h } ∧
      (t.getUnit (audIdx kind i)).st = 2 ∧ (∀ j, j ≠ audIdx kind i → t.getUnit j = s.getUnit j) ∧ (t.getCtx h.ctx).busy = true ∧
      (s.audState kind i = 0 → neverOut kind i = false → UnitGone kind i s t ∧
        (Tbl.get [] s.ldg.queues 0x21 = [] → Logs 0x21 0xC010 kind i 0 0 s t)) ∧
      Only [.pwr, .clk, .sns, .rail, .loop, .hm, .hif, .ldg, .fw, .tly, .trs, .clr, .aud] s t := by
  let b := descBegin h.ctx.val s
  have hkb : Keeps [.hif] s b := descBegin_keeps ..
  let u := audBegin kind i false ret (some h) b
  let t := u.updCtx h.ctx.val fun x => { x with busy := true }
  have hb : bodyAudTest h kind i ret force b = .wait u := if_neg (not_not.mpr ((audCheck_begin ..).trans hc))
  have hu : Keeps [.pwr, .clk, .sns, .rail, .loop, .hm, .hif, .ldg, .fw, .tly, .trs, .clr, .aud] b u := audBegin_keeps ..
  have ht : Keeps [.hif] u t := State.updCtx_keeps ..
  refine ⟨t, exec_of_wait (c := .audTest h kind i ret force) rfl hr hb, ?_, ?_, fun j hj => ?_, by rw [State.getCtx_updCtx],
    fun h0 hn => ?_, Keeps.only (.step ht (by decide) (.step hu (by decide) (hkb.mono (by decide))))⟩
  · rw [ht.aud_eq rfl, audBegin_test, audNew, audState_begin, hkb.now_eq rfl]
  · rw [getUnit_of_aud (ht.aud_eq rfl)]
    exact (audBegin_unit ..).1
  · rw [getUnit_of_aud (ht.aud_eq rfl), audBegin_others _ _ _ hj, getUnit_of_aud (hkb.aud_eq rfl)]
  · obtain ⟨hg, hl⟩ := audBegin_gone (s := b) false ret (some h) ((audState_begin ..).trans h0) hn
    refine ⟨(hg.of_eq (hkb.cfg_eq rfl) (hkb.rail_eq rfl) (hkb.tly_eq rfl)).keeps ht rfl rfl rfl rfl rfl, fun hroom => ?_⟩
    exact ((hl (by rw [hkb.ldg_eq rfl]; exact hroom)).after hkb.only (by decide) (congrArg TimeBase.hold (hkb.tb_eq rfl))
      (by decide)).before ht.only (by decide)

theorem bodyAudRemove_checks (kind i : Nat) (force : Bool) (s : State) : bodyAudRemove kind i false force s =
    if audCheck kind i force true s ≠ 0 then .fail (audCheck kind i force true s) s else .done 0 0 (audOut kind i false s) := by
  rw [bodyAudRemove]
  exact if_neg (by decide)

theorem audRemove_refused {st : Nat} (hr : Runs h descAudRemove s) (hc : audCheck kind i force true s = st) (h0 : st ≠ 0) :
    AudNo h s (.audRemove h kind i false force) 0xB1 st := by
  subst hc
  exact refused_of_fail (body := bodyAudRemove kind i false force) rfl hr
    ((bodyAudRemove_checks ..).trans ((if_pos (by rw [audCheck_begin]; exact h0)).trans (by rw [audCheck_begin])))

/-- R453: AUD_REMOVE takes its unit out. -/
theorem audRemove_removes (hr : Runs h descAudRemove s) (hn : neverOut kind i = false) (hc : audCheck kind i force true s = 0) :
    ∃ t, exec (.audRemove h kind i false force) s = .next t ∧ Completes h 0xB1 0 0 s t ∧ (t.getUnit (audIdx kind i)).st = 1 ∧
      (∀ j, j ≠ audIdx kind i → t.getUnit j = s.getUnit j) ∧ UnitGone kind i s t ∧
      (Tbl.get [] s.ldg.queues 0x21 = [] → Logs 0x21 0xC010 kind i 0 0 s t) ∧
      Only [.pwr, .clk, .sns, .rail, .loop, .hm, .hif, .ldg, .fw, .tly, .trs, .clr, .aud] s t := by
  let b := descBegin h.ctx.val s
  have hkb : Keeps [.hif] s b := descBegin_keeps ..
  have hb : bodyAudRemove kind i false force b = .done 0 0 (audOut kind i false b) :=
    (bodyAudRemove_checks ..).trans (if_neg (not_not.mpr ((audCheck_begin ..).trans hc)))
  have ho := audOut_outed hn false b
  have hu : Keeps [.pwr, .clk, .sns, .rail, .loop, .hm, .hif, .ldg, .fw, .tly, .trs, .clr, .aud] b (audOut kind i false b) := audOut_keeps ..
  obtain ⟨t, he, ht⟩ := exec_of_done (c := .audRemove h kind i false force) rfl hr hb (ho.between _)
  refine ⟨t, he, ht.completes, ?_, fun j hj => ?_,
    (ho.gone.of_eq (hkb.cfg_eq rfl) (hkb.rail_eq rfl) (hkb.tly_eq rfl)).keeps ht.keeps rfl rfl rfl rfl rfl, fun hroom => ?_,
    Keeps.only (.step ht.keeps (by decide) (.step hu (by decide) (hkb.mono (by decide))))⟩
  · rw [getUnit_of_aud (ht.keeps.aud_eq rfl), ho.unit]
  · rw [getUnit_of_aud (ht.keeps.aud_eq rfl), ho.others j hj, getUnit_of_aud (hkb.aud_eq rfl)]
  · exact ((ho.logs (by rw [hkb.ldg_eq rfl]; exact hroom)).after hkb.only (by decide) (congrArg TimeBase.hold (hkb.tb_eq rfl))
      (by decide)).before ht.keeps.only (by decide)

/-- What AUD_RETURN answers to a unit in state `st`. -/
def returnAnswer (st kind i : Nat) (s : State) : DescOut :=
  match st with
  | 6 => .fail 0xC001 s
  | 0 | 2 => .fail 0xC003 s
  | 3 => .done 0 0 (audBack kind i s)
  | _ => .fail 0xC007 s

theorem bodyAudReturn_eq (kind i : Nat) (s : State) : bodyAudReturn kind i s = returnAnswer (s.audState kind i) kind i s := rfl

/-- R453: AUD_RETURN. -/
theorem audReturn_effect (hr : Runs h descAudReturn s) :
    let c := Instr.audReturn h kind i
    let st := s.audState kind i
    let u := audIdx kind i
    (st = 6 → AudNo h s c 0xB2 0xC001) ∧ (st = 0 ∨ st = 2 → AudNo h s c 0xB2 0xC003) ∧
    (st = 1 ∨ st = 4 ∨ st = 5 → AudNo h s c 0xB2 0xC007) ∧
    (st = 3 → ∃ t, exec c s = .next t ∧ Completes h 0xB2 0 0 s t ∧ (t.getUnit u).st = 0 ∧
      (∀ j, j ≠ u → t.getUnit j = s.getUnit j) ∧ (kind = 0 → i < s.tly.cube.length → t.tly.cube.getD i 3 = 1) ∧
      (kind = 1 → (t.getFwCore i).st = 1) ∧ (kind = 3 → (t.getSite i).excl = false) ∧
      (kind = 4 → (s.getPh i).st = 5 → (t.getPh i).st = 4) ∧
      (Tbl.get [] s.ldg.queues 0x21 = [] → Logs 0x21 0xC013 kind i 0 0 s t) ∧
      Only [.pwr, .clk, .sns, .rail, .loop, .hm, .hif, .ldg, .fw, .tly, .trs, .aud] s t) := by
  intro c st u
  let b := descBegin h.ctx.val s
  have hkb : Keeps [.hif] s b := descBegin_keeps ..
  have hbody : ∀ n, st = n → bodyAudReturn kind i b = returnAnswer n kind i b := fun n hn => by
    rw [bodyAudReturn_eq, audState_begin, show s.audState kind i = n from hn]
  have hx : exec c s = act (runDesc h descAudReturn (bodyAudReturn kind i)) s := rfl
  refine ⟨fun h6 => refused_of_fail hx hr (hbody _ h6), ?_, ?_, fun h3 => ?_⟩
  · rintro (h0 | h2)
    · exact refused_of_fail hx hr (hbody _ h0)
    · exact refused_of_fail hx hr (hbody _ h2)
  · rintro (h1 | h4 | h5)
    · exact refused_of_fail hx hr (hbody _ h1)
    · exact refused_of_fail hx hr (hbody _ h4)
    · exact refused_of_fail hx hr (hbody _ h5)
  · have ho := audBack_returned kind i b
    have hu : Keeps [.pwr, .clk, .sns, .rail, .loop, .hm, .hif, .ldg, .fw, .tly, .aud] b (audBack kind i b) := audBack_keeps ..
    obtain ⟨t, he, ht⟩ := exec_of_done hx hr (hbody _ h3) (ho.between _)
    have hg := ho.back.keeps ht.keeps rfl rfl rfl rfl
    refine ⟨t, he, ht.completes, ?_, fun j hj => ?_, fun hk hi => hg.cube hk (by rwa [hkb.tly_eq rfl]), hg.core, hg.site,
      fun hk h5 => hg.phase hk (by rwa [getPh_of_rail (hkb.rail_eq rfl)]), fun hroom => ?_,
      Keeps.only (.step ht.keeps (by decide) (.step hu (by decide) (hkb.mono (by decide))))⟩
    · rw [getUnit_of_aud (ht.keeps.aud_eq rfl), ho.unit]
    · rw [getUnit_of_aud (ht.keeps.aud_eq rfl), ho.others j hj, getUnit_of_aud (hkb.aud_eq rfl)]
    · exact ((ho.logs (by rw [hkb.ldg_eq rfl]; exact hroom)).after hkb.only (by decide) (congrArg TimeBase.hold (hkb.tb_eq rfl))
        (by decide)).before ht.keeps.only (by decide)

end ByHand

section Done
variable {s : State} {y : AudTest}

/-- Audit's counts and the unit's entry once a test has ended. -/
def testMarked (y : AudTest) (pass : Bool) (s : State) : State :=
  (s.onAud fun a =>
      { a with test := none, lastCode := if pass then 0xC011 else 0xC012, lastKind := y.kind, lastIdx := y.idx,
               pass := if pass then satInc 16 a.pass else a.pass,
               fail := if pass then a.fail else satInc 16 a.fail }).updUnit (audIdx y.kind y.idx) fun u =>
    { u with st := if pass then (if neverOut y.kind y.idx then 0 else 3) else 4, last := if pass then 0xC011 else 0xC012, endT := s.now }

theorem testMarked_keeps (y : AudTest) (pass : Bool) (s : State) : Keeps [.aud] s (testMarked y pass s) :=
  .step (State.updUnit_keeps ..) (by decide) (State.onAud_keeps ..)

theorem testMarked_unit (y : AudTest) (pass : Bool) (s : State) :
    ((testMarked y pass s).getUnit (audIdx y.kind y.idx)).st = (if pass then (if neverOut y.kind y.idx then 0 else 3) else 4) ∧
      ((testMarked y pass s).getUnit (audIdx y.kind y.idx)).last = if pass then 0xC011 else 0xC012 := by
  rw [testMarked, State.getUnit_updUnit]
  exact ⟨rfl, rfl⟩

theorem testMarked_others {pass : Bool} {j : Nat} (hj : j ≠ audIdx y.kind y.idx) : (testMarked y pass s).getUnit j = s.getUnit j := by
  rw [testMarked, State.getUnit_updUnit_ne _ _ _ hj]
  rfl

/-- The descriptor of a test completes with it. -/
def testCompleted (y : AudTest) (res : Nat) (s : State) : State :=
  match y.hdr with
  | some h => complete h 0xB0 0 res s
  | none => s

theorem testCompleted_effect {u : State} (res : Nat) (hb : ∀ c, Between c s u) (hn : ∀ q : DescHdr, y.hdr = some q → NoClose q.ctx.val s) :
    (∀ q, y.hdr = some q → Completes q 0xB0 0 res s (testCompleted y res u)) ∧ Keeps [.hm, .hif] u (testCompleted y res u) := by
  unfold testCompleted
  cases hy : y.hdr with
  | none => exact ⟨nofun, .refl ..⟩
  | some h =>
    have hc := complete_of_noClose (s := u) 0xB0 0 res ((hb h.ctx.val).noClose (hn h hy))
    dsimp only
    rw [hc]
    refine ⟨fun q hq => ?_, completeOne_keeps ..⟩
    obtain rfl := Option.some.inj hq
    exact completeOne_completes h 0xB0 0 res (hb h.ctx.val)

/-- A test that has passed is recorded, and its unit returned where it is to be. -/
def testPassed (y : AudTest) (s : State) : State :=
  let s3 := emitClerk 0xC011 y.kind y.idx (s.now - y.began) 0 (testMarked y true s)
  if y.ret && !neverOut y.kind y.idx then audBack y.kind y.idx s3 else s3

theorem audDone_passed (hy : s.aud.test = some y) : audDone none s = testCompleted y 0 (testPassed y s) := by
  rw [audDone, hy]
  rfl

theorem audDone_failed (hy : s.aud.test = some y) (c v : Nat) : audDone (some (c, v)) s =
    testCompleted y 0xC012 (setAlarm 17 (emitClerk 0xC012 y.kind y.idx c v (testMarked y false s))) := by
  rw [audDone, hy]
  rfl

/-- What a test that has passed leaves, before its descriptor completes. -/
theorem testPassed_effect (y : AudTest) (s : State) :
    let t := testPassed y s
    let e := audIdx y.kind y.idx
    (t.aud.test, t.aud.lastCode, t.aud.pass, t.aud.fail) = (none, 0xC011, satInc 16 s.aud.pass, s.aud.fail) ∧
      (t.getUnit e).st = (if y.ret = true ∨ neverOut y.kind y.idx = true then 0 else 3) ∧ (t.getUnit e).last = 0xC011 ∧
      (∀ j, j ≠ e → t.getUnit j = s.getUnit j) ∧ (∀ c, Between c s t) ∧
      (QRoom 0x21 s → Logs 0x21 0xC011 y.kind y.idx (s.now - y.began) 0 s t) ∧
      Keeps [.pwr, .clk, .sns, .rail, .loop, .hm, .hif, .ldg, .fw, .tly, .trs, .aud] s t := by
  intro t e
  let m := testMarked y true s
  let r := emitClerk 0xC011 y.kind y.idx (s.now - y.began) 0 m
  have hkm : Keeps [.aud] s m := testMarked_keeps ..
  have hkr : Keeps [.hm, .hif, .ldg] m r := emitClerk_keeps ..
  have hbr : ∀ c, Between c s r := fun c => (hkm.between rfl rfl).emit ..
  have hlog : QRoom 0x21 s → Logs 0x21 0xC011 y.kind y.idx (s.now - y.began) 0 s r := fun hroom =>
    emit_logs_after hkm (by decide) (by decide) (by decide) (by decide) hroom
  have hmarks : (r.aud.test, r.aud.lastCode, r.aud.pass, r.aud.fail) = (none, 0xC011, satInc 16 s.aud.pass, s.aud.fail) := by
    rw [hkr.aud_eq rfl]
    rfl
  obtain ⟨hst, hlast⟩ := testMarked_unit y true s
  have hothers : ∀ j, j ≠ e → r.getUnit j = s.getUnit j := fun j hj => by
    rw [getUnit_of_aud (hkr.aud_eq rfl)]
    exact testMarked_others hj
  by_cases hret : (y.ret && !neverOut y.kind y.idx) = true
  · have ht : t = audBack y.kind y.idx r := if_pos hret
    have ho := audBack_returned y.kind y.idx r
    have hk : Keeps [.pwr, .clk, .sns, .rail, .loop, .hm, .hif, .ldg, .fw, .tly, .aud] r t := by rw [ht]; exact audBack_keeps ..
    rw [← ht] at ho
    refine ⟨ho.marks.trans hmarks, ?_, ?_, fun j hj => (ho.others j hj).trans (hothers j hj), fun c => (hbr c).trans (ho.between c),
      fun hroom => (hlog hroom).before hk.only (by decide), .step hk (by decide) (.step hkr (by decide) (hkm.mono (by decide)))⟩
    · rw [ho.unit, if_pos (.inl ((Bool.and_eq_true_iff.mp hret).1))]
    · rw [ho.unit, getUnit_of_aud (hkr.aud_eq rfl)]
      exact hlast
  · have ht : t = r := if_neg hret
    rw [ht]
    refine ⟨hmarks, ?_, ?_, hothers, hbr, hlog, .step hkr (by decide) (hkm.mono (by decide))⟩
    · rw [getUnit_of_aud (hkr.aud_eq rfl), hst, if_pos rfl]
      by_cases hn : neverOut y.kind y.idx = true
      · rw [if_pos hn, if_pos (.inr hn)]
      · rw [if_neg hn, if_neg]
        rintro (h | h)
        · exact hret (by rw [h]; simpa using hn)
        · exact hn h
    · rw [getUnit_of_aud (hkr.aud_eq rfl)]
      exact hlast

/-- R453: AUD_TEST_DONE of a test that has passed. -/
theorem audDone_passes (hy : s.aud.test = some y) (hn : ∀ q : DescHdr, y.hdr = some q → NoClose q.ctx.val s) :
    let t := audDone none s
    let e := audIdx y.kind y.idx
    t.aud.test = none ∧ (t.getUnit e).st = (if y.ret = true ∨ neverOut y.kind y.idx = true then 0 else 3) ∧
      (t.getUnit e).last = 0xC011 ∧ t.aud.lastCode = 0xC011 ∧ t.aud.pass = satInc 16 s.aud.pass ∧ t.aud.fail = s.aud.fail ∧
      (∀ j, j ≠ e → t.getUnit j = s.getUnit j) ∧ (∀ q, y.hdr = some q → Completes q 0xB0 0 0 s t) ∧
      (QRoom 0x21 s → Logs 0x21 0xC011 y.kind y.idx (s.now - y.began) 0 s t) ∧
      Only [.pwr, .clk, .sns, .rail, .loop, .hm, .hif, .ldg, .fw, .tly, .trs, .aud] s t := by
  obtain ⟨hm, hst, hlast, hothers, hb, hlog, hk⟩ := testPassed_effect y s
  obtain ⟨hc, hkt⟩ := testCompleted_effect (y := y) 0 hb hn
  rw [audDone_passed hy]
  rw [← hkt.aud_eq rfl] at hm
  simp only [Prod.mk.injEq] at hm
  obtain ⟨h1, h2, h3, h4⟩ := hm
  refine ⟨h1, ?_, ?_, h2, h3, h4, fun j hj => ?_, hc, fun hroom => (hlog hroom).before hkt.only (by decide),
    Keeps.only (.step hkt (by decide) (hk.mono (by decide)))⟩
  · rw [getUnit_of_aud (hkt.aud_eq rfl), hst]
  · rw [getUnit_of_aud (hkt.aud_eq rfl), hlast]
  · rw [getUnit_of_aud (hkt.aud_eq rfl), hothers j hj]

/-- R453: AUD_TEST_DONE of a test that has failed. -/
theorem audDone_fails (hy : s.aud.test = some y) (hn : ∀ q : DescHdr, y.hdr = some q → NoClose q.ctx.val s) (c v : Nat) :
    let t := audDone (some (c, v)) s
    let e := audIdx y.kind y.idx
    t.aud.test = none ∧ (t.getUnit e).st = 4 ∧ (t.getUnit e).last = 0xC012 ∧ t.aud.lastCode = 0xC012 ∧
      t.aud.fail = satInc 16 s.aud.fail ∧ t.aud.pass = s.aud.pass ∧ bitOf t.pwr.alarm 17 = true ∧
      (∀ j, j ≠ e → t.getUnit j = s.getUnit j) ∧ (∀ q, y.hdr = some q → Completes q 0xB0 0 0xC012 s t) ∧
      (QRoom 0x21 s → Logs 0x21 0xC012 y.kind y.idx c v s t) ∧ Only [.pwr, .hm, .hif, .ldg, .aud] s t := by
  let m := testMarked y false s
  let r := emitClerk 0xC012 y.kind y.idx c v m
  let u := setAlarm 17 r
  have hkm : Keeps [.aud] s m := testMarked_keeps ..
  have hkr : Keeps [.hm, .hif, .ldg] m r := emitClerk_keeps ..
  have hku : Keeps [.pwr] r u := setAlarm_keeps ..
  obtain ⟨hc, hkt⟩ := testCompleted_effect (y := y) (u := u) 0xC012
    (fun k => ((hkm.between (c := k) rfl rfl).emit ..).keeps hku rfl rfl) hn
  rw [audDone_failed hy]
  have haud : (testCompleted y 0xC012 u).aud = m.aud := (hkt.aud_eq rfl).trans ((hku.aud_eq rfl).trans (hkr.aud_eq rfl))
  obtain ⟨hst, hlast⟩ := testMarked_unit y false s
  refine ⟨congrArg Audit.test haud, ?_, ?_, congrArg Audit.lastCode haud, congrArg Audit.fail haud, (congrArg Audit.pass haud).trans rfl, ?_,
    fun j hj => ?_, hc, fun hroom => ?_,
    Keeps.only (.step hkt (by decide) (.step hku (by decide) (.step hkr (by decide) (hkm.mono (by decide)))))⟩
  · rw [getUnit_of_aud haud]
    exact hst
  · rw [getUnit_of_aud haud]
    exact hlast
  · rw [hkt.pwr_eq rfl]
    exact bitOf_setAlarm 17 r
  · rw [getUnit_of_aud haud]
    exact testMarked_others hj
  · exact ((emit_logs_after hkm (by decide) (by decide) (by decide) (by decide) hroom).before hku.only (by decide)).before
      hkt.only (by decide)

end Done

section Schedule
variable {s : State}

/-- Automatic Audit is due. -/
def State.audDue (s : State) : Prop := s.fwUp = true ∧ s.aud.kinds ≠ 0 ∧ s.aud.schedTime + s.aud.period * nsPerS ≤ s.now

theorem audDue_iff : s.audDue ↔
    ¬ (!s.fwUp || decide (s.aud.kinds = 0) || decide (s.now < s.aud.schedTime + s.aud.period * nsPerS)) = true := by
  simp only [State.audDue, Bool.or_eq_true, Bool.not_eq_true', decide_eq_true_eq, not_or, Bool.not_eq_false, not_lt, and_assoc]

theorem audDue_eq : s.audDue ↔ s.fwUp = true ∧ s.aud.kinds ≠ 0 ∧ s.aud.schedTime + s.aud.period * 1000000000 ≤ s.now := by
  have hc : nsPerS = 1000000000 := rfl
  unfold State.audDue
  generalize nsPerS = c at hc
  rw [hc]

/-- Audit's schedule, dated and moved on to unit `u`. -/
def audNoted (u : Nat) (s : State) : State := s.onAud fun b => { b with schedTime := s.now, schedAt := some u }

theorem audSchedule_idle (h : ¬ s.audDue) : audSchedule s = s := if_pos (not_not.mp (fun hn => h (audDue_iff.mpr hn)))

theorem audSchedule_due (h : s.audDue) : audSchedule s = match s.schedNext with
    | none => s.onAud fun b => { b with schedTime := s.now }
    | some u => if audCheck (u / 1024) (u % 1024) false false (audNoted u s) ≠ 0 then audNoted u s
        else audBegin (u / 1024) (u % 1024) true true none (audNoted u s) :=
  if_neg (audDue_iff.mp h)

theorem audCheck_noted (u : Nat) {kind i : Nat} : audCheck kind i false false (audNoted u s) = audCheck kind i false false s := rfl

/-- R455: a test that automatic Audit begins. -/
theorem audSchedule_begins {u : Nat} (h : s.audDue) (hu : s.schedNext = some u) (hc : audCheck (u / 1024) (u % 1024) false false s = 0) :
    let t := audSchedule s
    t.aud.schedTime = s.now ∧ t.aud.schedAt = some u ∧ (t.getUnit u).st = 2 ∧ (t.getUnit u).auto = true ∧
      (t.aud.test.map fun y => (y.kind, y.idx, y.auto, y.ret, y.began, y.hdr)) =
        some (u / 1024, u % 1024, true, true, s.now, none) ∧
      (∀ j, j ≠ u → t.getUnit j = s.getUnit j) ∧
      Only [.pwr, .clk, .sns, .rail, .loop, .hm, .hif, .ldg, .fw, .tly, .trs, .clr, .aud] s t := by
  intro t
  have hidx : audIdx (u / 1024) (u % 1024) = u := Nat.div_add_mod u 1024
  have ht : t = audBegin (u / 1024) (u % 1024) true true none (audNoted u s) := by
    rw [show t = audSchedule s from rfl, audSchedule_due h, hu]
    exact if_neg (not_not.mpr ((audCheck_noted u).trans hc))
  have hkn : Keeps [.aud] s (audNoted u s) := State.onAud_keeps ..
  have hkt : Keeps [.pwr, .clk, .sns, .rail, .loop, .hm, .hif, .ldg, .fw, .tly, .trs, .clr, .aud] (audNoted u s) t := by
    rw [ht]; exact audBegin_keeps ..
  have hsched := audBegin_sched (u / 1024) (u % 1024) true true none (audNoted u s)
  obtain ⟨h1, h2⟩ := audBegin_unit (u / 1024) (u % 1024) true true none (audNoted u s)
  rw [hidx, ← ht] at h1 h2
  rw [← ht] at hsched
  refine ⟨(congrArg Prod.fst hsched :), (congrArg Prod.snd hsched :), h1, h2, ?_, fun j hj => ?_,
    Keeps.only ((hkn.mono (by decide)).trans hkt)⟩
  · rw [ht, audBegin_test]
    rfl
  · rw [ht, audBegin_others _ _ _ (by rwa [hidx])]
    rfl

end Schedule

/-- Settles O57: the refusals and effects of the commands of Audit, by hand and on schedule. -/
theorem unitsTestedAndReturned : Obligations.UnitsTestedAndReturned := by
  refine ⟨fun s h kind i ret force fail => ?_, fun s v => ?_⟩
  · intro u st out no may gone limits room
    refine ⟨fun hr => ?_, fun hr => ?_, fun hr => audReturn_effect hr, fun hl => ⟨fun hn => act_eq hl (by rw [audDone, hn]), fun y hy hn =>
      ⟨⟨_, act_eq hl rfl, audDone_passes hy hn⟩, fun c v => ⟨_, act_eq hl rfl, audDone_fails hy hn c v⟩⟩⟩⟩
    · refine ⟨fun h6 => audTest_refused hr (audCheck_absent h6) (by decide),
        fun h6 ho => audTest_refused hr (audCheck_busy h6 ho) (by decide), fun h0 ho => ?_, fun h6 ho hm => ?_⟩
      · have h6 : s.audState kind i ≠ 6 := by rw [show s.audState kind i = 0 from h0]; decide
        refine audLimits fun r hout hr0 => audTest_refused hr ?_ hr0
        rw [audCheck_free h6 ho, if_neg (fun hx => absurd hx.1 (by decide)), if_pos h0, hout]
      · have hc : audCheck kind i force false s = 0 := by
          rw [audCheck_free h6 ho, if_neg (fun hx => absurd hx.1 (by decide))]
          by_cases h0 : s.audState kind i = 0
          · rw [if_pos h0]
            exact outRefused_of_may (hm.resolve_left (fun hx => hx h0))
          · exact if_neg h0
        obtain ⟨t, he, h1, h2, h3, h4, h5, h6⟩ := audTest_begins hr hc
        refine ⟨t, he, h1, h2, h3, h4, fun h0 hn => ?_, h6⟩
        obtain ⟨hg, hlog⟩ := h5 h0 hn
        exact ⟨⟨hg.cube, hg.core, hg.site, hg.phases⟩, hlog⟩
    · refine ⟨fun hret => ?_, fun hret => ?_⟩
      · subst hret
        exact refused_of_fail (body := bodyAudRemove kind i true force) rfl hr (by rw [bodyAudRemove]; exact if_pos rfl)
      subst hret
      refine ⟨fun h6 => audRemove_refused hr (audCheck_absent h6) (by decide),
        fun h6 ho => audRemove_refused hr (audCheck_busy h6 ho) (by decide),
        fun h6 ho hx => audRemove_refused hr ((audCheck_free h6 ho).trans (if_pos ⟨rfl, hx⟩)) (by decide),
        fun h0 ho hn => ?_, fun h0 ho hn hm => ?_⟩
      all_goals
        have h6 : s.audState kind i ≠ 6 := by rw [show s.audState kind i = 0 from h0]; decide
        have hfree : audCheck kind i force true s = s.outRefused kind i force := by
          rw [audCheck_free h6 ho, if_neg (by rw [show s.audState kind i = 0 from h0, hn]; simp), if_pos h0]
      · exact audLimits fun r hout hr0 => audRemove_refused hr (hfree.trans hout) hr0
      · obtain ⟨t, he, h1, h2, h3, hg, h5, h6⟩ := audRemove_removes hr hn (hfree.trans (outRefused_of_may hm))
        exact ⟨t, he, h1, h2, h3, ⟨hg.cube, hg.core, hg.site, hg.phases⟩, h5, h6⟩
  · intro a due bad
    refine ⟨fun hl => ⟨fun hd => act_eq hl (audSchedule_idle fun h => hd (audDue_eq.mp h)), fun hd hn => ?_,
      fun u hd hu => ⟨fun hc => ?_, fun hc =>
      ⟨_, act_eq hl rfl, audSchedule_begins (audDue_eq.mpr hd) hu hc⟩⟩⟩, fun hl => ⟨fun hb => hsEmu_eq hl (if_pos hb),
        fun hb => hsEmu_eq hl (if_neg hb),
          hsEmu_eq (f := fun t => audResOk (audClr t)) hl rfl⟩⟩
    · exact act_eq hl (by rw [audSchedule_due (audDue_eq.mpr hd), hn])
    · refine act_eq hl ?_
      rw [audSchedule_due (audDue_eq.mpr hd), hu]
      exact if_pos (by rw [audCheck_noted]; exact hc)

end Sys2Proof.Machine
end

section

/-! The instructions of the TAP and of the wrapper (R459 to R463). -/

namespace Sys2Proof.Machine

section Tap
variable {s : State} {f : State → State}

theorem actTest_on (h : s.pwr.vaon = true ∧ s.pwr.vio = true) : actTest f s = .next (f s) := by
  rw [actTest, h.1, h.2]
  rfl

theorem actTest_off (h : ¬ (s.pwr.vaon = true ∧ s.pwr.vio = true)) : actTest f s = .next s := by
  rw [actTest, if_neg (by rwa [Bool.and_eq_true])]

/-- The test data register as an instruction that takes the pads selects it (Table 17.6). -/
def padsSelected (code : Nat) (a : Audit) : Audit := { a with tdr := if code = 0 then a.tdr else 0 }

/-- The pads are taken once the rails are down, and blocked otherwise. -/
theorem tapPads_eq (code : Nat) (s : State) : tapPads code s =
    if s.railsDown then s.onAud fun a => { padsSelected code a with tapIr := code, padHold := true }
    else emitRail 0xC030 code 0 0 0 (s.onAud fun a =>
      { padsSelected code a with tapIr := code, padHold := false, blocked := satInc 16 a.blocked }) := by
  unfold tapPads padsSelected
  by_cases h0 : code = 0
  · simp only [if_pos h0]
  · simp only [if_neg h0]
    rfl

/-- R460: an instruction that takes the pads. -/
theorem tapPads_effect (code : Nat) (s : State) :
    (s.railsDown = true → tapPads code s = s.onAud fun a =>
      { a with tapIr := code, padHold := true, tdr := if code = 0 then a.tdr else 0 }) ∧
    (s.railsDown = false →
      let t := tapPads code s
      t.aud.tapIr = code ∧ t.aud.padHold = false ∧ t.aud.tdr = (if code = 0 then s.aud.tdr else 0) ∧
        t.aud.blocked = satInc 16 s.aud.blocked ∧ (QRoom 0x32 s → Logs 0x32 0xC030 code 0 0 0 s t) ∧
        Only [.hm, .hif, .ldg, .aud] s t) := by
  refine ⟨fun h => (tapPads_eq code s).trans (if_pos h), fun h => ?_⟩
  intro t
  let u := s.onAud fun a => { padsSelected code a with tapIr := code, padHold := false, blocked := satInc 16 a.blocked }
  have ht : t = emitRail 0xC030 code 0 0 0 u := (tapPads_eq code s).trans (if_neg (by rw [h]; decide))
  have hku : Keeps [.aud] s u := State.onAud_keeps ..
  have hke : Keeps [.hm, .hif, .ldg] u t := by rw [ht]; exact emitRail_keeps ..
  have haud : t.aud = u.aud := hke.aud_eq rfl
  refine ⟨congrArg Audit.tapIr haud, congrArg Audit.padHold haud, congrArg Audit.tdr haud, congrArg Audit.blocked haud, fun hroom => ?_,
    Keeps.only (.step hke (by decide) (hku.mono (by decide)))⟩
  rw [ht]
  exact emit_logs_after hku (by decide) (by decide) (by decide) (by decide) hroom

end Tap

section Wrap
variable {s : State} {p d : Nat}

theorem forList_phOff_low {l : List Nat} (hp : p ∈ l) (s : State) :
    ((forList l phOff s).getPh p).pen = false ∧ ((forList l phOff s).getPh p).pwm = false := by
  have hself : ∀ u, ((phOff p u).getPh p).pen = false ∧ ((phOff p u).getPh p).pwm = false := fun u => by
    rw [phOff, State.getPh_updPh]
    exact ⟨rfl, rfl⟩
  refine forList_est (P := fun u => (u.getPh p).pen = false ∧ (u.getPh p).pwm = false) hp (fun j u hu => ?_) hself s
  by_cases e : p = j
  · subst e; exact hself u
  · rwa [phOff, State.getPh_updPh_ne _ _ _ e]

theorem forList_domStopNow_stopped {l : List Nat} (hd : d ∈ l) (s : State) : ((forList l domStopNow s).getDom d).stopped = true :=
  forList_est (P := fun u => (u.getDom d).stopped = true) hd (fun j _ hu => domStopNow_stopped j hu) (fun u => by
    rw [domStopNow_getDom]) s

/-- Every `PEN` low and every domain clock stopped. -/
def blockStopped (s : State) : State := forList s.doms domStopNow (forList (List.range 128) phOff s)

theorem blockStopped_keeps (s : State) : Keeps [.clk, .rail] s (blockStopped s) :=
  forList_keeps _ (fun _ _ hu => (domStopNow_keeps ..).step (by decide) hu)
    (forList_keeps _ (fun _ _ hu => (phOff_keeps ..).step (by decide) hu) (.refl ..))

theorem blockStopped_phases (hp : p < 128) : ((blockStopped s).getPh p).pen = false ∧ ((blockStopped s).getPh p).pwm = false := by
  have hk : Keeps [.clk] (forList (List.range 128) phOff s) (blockStopped s) :=
    forList_keeps _ (fun _ _ hu => (domStopNow_keeps ..).step (by decide) hu) (.refl ..)
  rw [getPh_of_rail (hk.rail_eq rfl)]
  exact forList_phOff_low (List.mem_range.mpr hp) s

theorem blockStopped_doms (hd : d ∈ s.doms) : ((blockStopped s).getDom d).stopped = true := forList_domStopNow_stopped hd _

/-- R461, R463: an instruction of the wrapper that takes the block over. -/
theorem wrapHold_effect (code : Nat) {f : Audit → Audit} (hf : ∀ a, (f a).wir = a.wir) (s : State) :
    (s.railsDown = true →
      let t := wrapHold code f s
      t.live = false ∧ t.pwr.testHold = true ∧ t.aud = f { s.aud with wir := code } ∧ t.aud.wir = code ∧
        (∀ p < 128, (t.getPh p).pen = false ∧ (t.getPh p).pwm = false) ∧ (∀ d ∈ s.doms, (t.getDom d).stopped = true) ∧
        t.frec = s.frec ∧ t.fw = s.fw ∧ t.pending = s.pending) ∧
    (s.railsDown = false →
      let t := wrapHold code f s
      t.aud.wir = 0 ∧ t.aud.wdr = 0 ∧ t.pwr.testHold = s.pwr.testHold ∧ (QRoom 0x32 s → Logs 0x32 0xC031 code 0 0 0 s t) ∧
        Only [.hm, .hif, .ldg, .aud] s t) := by
  refine ⟨fun h => ?_, fun h => ?_⟩
  · intro t
    let b := blockStopped s
    have ht : t = (b.onAud fun a => f { a with wir := code }).onPwr fun p => { p with testHold := true } := if_pos h
    have hb : Keeps [.clk, .rail] s b := blockStopped_keeps s
    have hk : Keeps [.aud, .pwr] b t := by
      rw [ht]; exact .step (State.onPwr_keeps ..) (by decide) ((State.onAud_keeps ..).mono (by decide))
    have haud : t.aud = f { s.aud with wir := code } := by
      rw [ht, State.onPwr_aud, State.onAud_aud, hb.aud_eq rfl]
    refine ⟨?_, by rw [ht, State.onPwr_pwr], haud, by rw [haud, hf], fun p hp => ?_, fun d hd => ?_,
      (hk.frec_eq rfl).trans (hb.frec_eq rfl), (hk.fw_eq rfl).trans (hb.fw_eq rfl), (hk.pending_eq rfl).trans (hb.pending_eq rfl)⟩
    · rw [State.live, ht, State.onPwr_pwr]
      simp
    · rw [getPh_of_rail (hk.rail_eq rfl)]
      exact blockStopped_phases hp
    · rw [getDom_of_clk (hk.clk_eq rfl)]
      exact blockStopped_doms hd
  · intro t
    let u := s.onAud fun a => { a with wir := 0, wdr := 0 }
    have ht : t = emitRail 0xC031 code 0 0 0 u := if_neg (by rw [h]; decide)
    have hku : Keeps [.aud] s u := State.onAud_keeps ..
    have hke : Keeps [.hm, .hif, .ldg] u t := by rw [ht]; exact emitRail_keeps ..
    have haud : t.aud = u.aud := hke.aud_eq rfl
    refine ⟨congrArg Audit.wir haud, congrArg Audit.wdr haud, congrArg Power.testHold ((hke.pwr_eq rfl).trans (hku.pwr_eq rfl)),
      fun hroom => ?_, Keeps.only (.step hke (by decide) (hku.mono (by decide)))⟩
    rw [ht]
    exact emit_logs_after hku (by decide) (by decide) (by decide) (by decide) hroom

/-- An instruction that takes the block over, in the words of the command that asks for it. -/
theorem wrapHold_runs {c : Instr} (code : Nat) {f : Audit → Audit} (hon : s.pwr.vaon = true ∧ s.pwr.vio = true)
    (hx : exec c s = actTest (wrapHold code f) s) (hf : ∀ a, (f a).wir = a.wir)
    (hm : c = .mbistRun → ∀ a, (f a).mbistBusy = true ∧ (f a).mbistDone = false ∧ (f a).mbistFail = 0) :
    (s.railsDown = true → ∃ t, exec c s = .next t ∧ t.live = false ∧ t.pwr.testHold = true ∧ t.aud.wir = code ∧
      (∀ p < 128, (t.getPh p).pen = false ∧ (t.getPh p).pwm = false) ∧ (∀ d ∈ s.doms, (t.getDom d).stopped = true) ∧
      (c = .mbistRun → t.aud.mbistBusy = true ∧ t.aud.mbistDone = false ∧ t.aud.mbistFail = 0) ∧
      t.frec.slots = s.frec.slots ∧ t.fw.arr = s.fw.arr ∧ t.fw.img = s.fw.img ∧ t.fw.copy = s.fw.copy ∧ t.pending = s.pending) ∧
    (s.railsDown = false → ∃ t, exec c s = .next t ∧ t.aud.wir = 0 ∧ t.aud.wdr = 0 ∧ t.pwr.testHold = s.pwr.testHold ∧
      (QRoom 0x32 s → Logs 0x32 0xC031 code 0 0 0 s t) ∧ Only [.hm, .hif, .ldg, .aud] s t) := by
  obtain ⟨hdown, hup⟩ := wrapHold_effect code hf s
  have he : exec c s = .next (wrapHold code f s) := hx.trans (actTest_on hon)
  refine ⟨fun h => ?_, fun h => ⟨_, he, hup h⟩⟩
  obtain ⟨h1, h2, haud, h3, h4, h5, hfrec, hfw, h6⟩ := hdown h
  exact ⟨_, he, h1, h2, h3, h4, h5, fun hc => by rw [haud]; exact hm hc _, by rw [hfrec], by rw [hfw], by rw [hfw], by rw [hfw], h6⟩

end Wrap

/-- Settles O58: what each test instruction does, and that none does anything without power. -/
theorem testPortsWork : Obligations.TestPortsWork := by
  intro s f on pads take rest id word
  refine ⟨fun hoff c hc => ?_, fun hon => ⟨actTest_on hon, actTest_on hon, actTest_on hon, actTest_on hon, actTest_on hon,
    actTest_on hon, fun hb => (actTest_on hon).trans (by rw [mbistDone, if_pos hb]),
    fun hb => (actTest_on hon).trans (by rw [mbistDone, if_neg (by rw [hb]; decide)]), fun c hc => ?_, fun c hc => ?_⟩⟩
  · simp only [pads, take, rest, List.map_cons, List.map_nil, List.cons_append, List.nil_append, List.mem_cons, List.not_mem_nil,
      or_false] at hc
    rcases hc with rfl | rfl | rfl | rfl | rfl | rfl | rfl | rfl | rfl | rfl | rfl | rfl | rfl | rfl <;> exact actTest_off hoff
  · have hpads : ∀ (i : Instr) (code : Nat), exec i s = actTest (tapPads code) s →
        (s.railsDown = true → exec i s = .next (s.onAud fun a =>
          { a with tapIr := code, padHold := true, tdr := if code = 0 then a.tdr else 0 })) ∧
        (s.railsDown = false → ∃ t, exec i s = .next t ∧ t.aud.tapIr = code ∧ t.aud.padHold = false ∧
          t.aud.tdr = (if code = 0 then s.aud.tdr else 0) ∧ t.aud.blocked = satInc 16 s.aud.blocked ∧
          (QRoom 0x32 s → Logs 0x32 0xC030 code 0 0 0 s t) ∧ Only [.hm, .hif, .ldg, .aud] s t) := fun i code hx => by
      obtain ⟨h1, h2⟩ := tapPads_effect code s
      exact ⟨fun h => (hx.trans (actTest_on hon)).trans (by rw [h1 h]), fun h => ⟨_, hx.trans (actTest_on hon), h2 h⟩⟩
    simp only [pads, List.mem_cons, List.not_mem_nil, or_false] at hc
    rcases hc with rfl | rfl | rfl
    · exact hpads .extest 0 rfl
    · exact hpads .clamp 4 rfl
    · exact hpads .highz 5 rfl
  · simp only [take, List.mem_cons, List.not_mem_nil, or_false] at hc
    rcases hc with rfl | rfl | rfl | rfl
    · exact wrapHold_runs (c := .wsSafe) 4 hon rfl (fun _ => rfl) nofun
    · exact wrapHold_runs (c := .wsExtest) 5 hon rfl (fun _ => rfl) nofun
    · exact wrapHold_runs (c := .wsIntestScan) 6 hon rfl (fun _ => rfl) nofun
    · exact wrapHold_runs (c := .mbistRun) 8 hon rfl (fun _ => rfl) fun _ _ => ⟨rfl, rfl, rfl⟩

end Sys2Proof.Machine
end
